-- ==== Sys2Proof/Word.lean ====
section
/-! DEFINITION. The word and byte types of the device (Scope R10, R13) and their plainest arithmetic. -/

namespace Sys2Proof

/-- A register value or a 64-bit quantity (Scope R13: registers are 32 or 64 bits wide). -/
abbrev Word := BitVec 64

/-- One byte of memory (Scope R10). -/
abbrev Byte := BitVec 8

/-- One byte of the device's own byte streams: memory blocks, frames and messages. -/
abbrev Bytes := List Byte

/-- Bits `[hi:lo]` of a word, as a number. -/
def Word.bits (w : Word) (hi lo : Nat) : Nat := (w.toNat / 2 ^ lo) % 2 ^ (hi + 1 - lo)

/-- A word with bits `[hi:lo]` replaced by `n`, reduced to the width of the field. -/
def Word.setBits (w : Word) (hi lo n : Nat) : Word :=
  BitVec.ofNat 64 (w.toNat - Word.bits w hi lo * 2 ^ lo + (n % 2 ^ (hi + 1 - lo)) * 2 ^ lo)

/-- The little-endian value of a list of bytes (Scope R10). -/
def leNat : Bytes → Nat
  | [] => 0
  | b :: t => b.toNat + 256 * leNat t

/-- `n` bytes of a number, lowest byte first (Scope R10). -/
def leBytes : Nat → Nat → Bytes
  | 0, _ => []
  | n + 1, v => BitVec.ofNat 8 v :: leBytes n (v / 256)

/-- The big-endian value of a list of octets (Scope R10: the device's wire protocols). -/
def beNat (b : Bytes) : Nat := leNat b.reverse

/-- `n` octets of a number, most significant first (Scope R10). -/
def beBytes (n v : Nat) : Bytes := (leBytes n v).reverse

/-- A two's-complement number of `w` bits read as an integer. -/
def toSigned (w n : Nat) : Int := if n % 2 ^ w < 2 ^ (w - 1) then (n % 2 ^ w : Nat) else ((n % 2 ^ w : Nat) : Int) - (2 ^ w : Nat)

/-- The low `w` bits of an integer, as a number. -/
def ofSigned (w : Nat) (i : Int) : Nat := (i % ((2 ^ w : Nat) : Int)).toNat

end Sys2Proof
end

