-- ==== Sys2Proof/Syntax.lean ====
section
/-! DEFINITION. The commands of the device and their operands: register accesses, doorbells, envelope kinds, mailbox messages,
frames and packets, and the device's own timed events. An operand carries what comes from outside the device, or from
a part of it that the manual keeps private (assumption log). -/

namespace Sys2Proof

/-- Who makes an access (Scope R17, Trust Table 16.2): a PCIe function, a world on a host core, the Opantith core, or a firmware
processor (Firmware Table 17.1). -/
inductive Req where
  | pf
  | vf (k : Fin 16)
  | host (secure : Bool) (core : Fin 8)
  | opantith
  | fw (p : Fin 19)
  deriving DecidableEq, Repr

/-- An operand of a register write, with the requester that makes the write (Scope R18). -/
structure By (α : Type) where
  q : Req
  v : α
  deriving DecidableEq, Repr

/-- Where an access to a doorbell page falls (Envelopes R79, R80): its offset in the page, and its size in bytes. -/
structure PageAcc where
  off : Nat
  size : Nat
  deriving DecidableEq, Repr

/-- A ring, 0 to 4,095 (Envelopes R76). -/
abbrev Ring := Fin 4096

/-- A block that the timetable grants time to (Round §7): 0 to 15 districts, 16 and 17 ISP, 18 decode, 19 encode, 20 JPEG. -/
abbrev Block := Fin 21

/-- A sync message that has arrived on a control port: the port, profile and domain it is in, whether its timestamps decode,
whether the port has completed a path-delay measurement since the sync before it, the network time in ns at its timestamp point after
correction by the path delay, the round-relative time of that point, and the alignment error in ns that remains to be removed while
a slewed alignment is in progress (Round R690). -/
structure Sync where
  port : Fin 2
  profile : Nat
  domain : Nat
  decodes : Bool
  measured : Bool
  net : Nat
  t : Nat
  slewLeft : Int
  deriving DecidableEq, Repr

/-- A unit of work that is ready: the ring it belongs to, its owner (a floor group, or a stream), and its declared worst case in
cycles of the block's clock or, for the other blocks, in ns (Round Table 2.6). -/
structure Work where
  ring : Option Ring
  owner : Nat
  cost : Nat
  deriving DecidableEq, Repr

/-- The input of an ADC channel at a sample: the differential voltage (or the AC signal of an IEPE sensor) in nV, the loop current in pA, and
the sensor bias in µV (Express Table 11.2). -/
structure Analog where
  nanovolts : Int
  picoamps : Int
  biasUv : Int
  deriving DecidableEq, Repr

/-- Who makes a memory request (Memory Table 12.5): an envelope of a ring, the express lane for an envelope, a block with a CLASS field, BAR4 or
a host core, a firmware processor, or the device's own bulk traffic. -/
inductive MemBy where
  | ring (r : Ring) (seq : Nat)
  | express (r : Ring) (seq : Nat)
  | engine (cls : Fin 4)
  | host (q : Req)
  | fw (p : Fin 19)
  | bulk
  deriving DecidableEq, Repr

/-- A memory request: a read of bytes, or a write (Memory R399). -/
inductive MemOp where
  | read (n : Nat)
  | write (b : Bytes)
  deriving DecidableEq, Repr

/-- How read data fares in its error check (Memory R412, R413). -/
inductive ReadCheck where
  | pass | corrected | bad
  deriving DecidableEq, Repr

/-- What an SPD hub tells, and how training ends (Memory R417): the module is of Table 12.2, its capacity in GiB, its ranks, its highest rate, and
whether training converges. -/
structure Spd where
  ok : Bool
  gib : Nat
  ranks : Nat
  mts : Nat
  converges : Bool
  deriving DecidableEq, Repr

/-- A part of a round's energy estimate (Power cap R501, Table 15.4): its block account (0 to 15 districts, 16 + a for account a), its amount in nJ, and the
ring and envelope it is attributed to. -/
structure EnergyPart where
  acct : Nat
  nj : Nat
  ring : Option Nat
  seq : Option Nat
  deriving DecidableEq, Repr

/-- A relay packet that has arrived on the receive lanes (Links Table 19.5), and the CRC-32C that came with it. -/
structure RelayIn where
  dst : Nat
  src : Nat
  flags : Nat
  lseq : Nat
  tag : Nat
  addr : Nat
  payload : List (BitVec 8)
  crc : Nat
  deriving DecidableEq, Repr

/-- A PCIe error (Links Table 19.2): its kind, and what it hits of the device's own requests. -/
inductive PcieErr where
  | correctable
  | timeout
  | poisoned
  | malformed
  | fatal
  deriving DecidableEq, Repr

inductive PcieHit where
  | envelope (ring : Fin 4096) (seq : Nat)
  | ledger
  | other
  deriving DecidableEq, Repr

/-- Where a transaction command comes from: a write of TXN.CMD that names an owner, or a started TXN envelope (Transactions R124). -/
inductive TxnFrom where
  | cmd (q : Req) (owner : Fin 8)
  | env (r : Ring) (seq : Nat)
  deriving DecidableEq, Repr

/-- A pair of Transactions Table 4.5. -/
inductive PairId where
  | seqWindow
  | crop (s : Fin 16)
  | memClass (k : Fin 4)
  | alarm (m : Fin 80)
  | region (g : Fin 8)
  deriving DecidableEq, Repr

/-- The BAR0 offset of the first register of a pair. -/
def PairId.key : PairId → Nat
  | .seqWindow => 0x10030
  | .crop s => 0x300008 + 0x40 * s.val
  | .memClass k => 0x200180 + 8 * k.val
  | .alarm m => 0xB01000 + 8 * m.val
  | .region g => 0x901000 + 0x40 * g.val

/-! ### The floor (Clerks §2 to §8) -/

/-- Array operations (Clerks Table 5.3). -/
inductive ArrayOp where
  | mac | msub | l1 | l2s | max | min | ccount
  deriving DecidableEq, Repr

/-- Array modes (Clerks Table 5.2). -/
inductive ArrayMode where
  | int8 | int4 | sb16 | sb256 | bf16 | fp16
  deriving DecidableEq, Repr

/-- An array slot: operation, mode, whether A is INT4 in a 4-bit mode, which operands are marked U8, the accumulate shift in bytes, the file
(0 ACC0, 1 ACC1, 2 the wide file), stream or broadcast operands, and the one book of all columns, or book j for column j. -/
structure ArraySlot where
  op : ArrayOp
  mode : ArrayMode
  aInt4 : Bool
  aU8 : Bool
  bU8 : Bool
  shift : Fin 4
  file : Fin 3
  stream : Bool
  book : Option (Fin 16)
  deriving DecidableEq, Repr

/-- A vector operand: a vector register, or the next row that the drain delivers. -/
inductive VecSrc where
  | reg (r : Fin 32)
  | drain
  deriving DecidableEq, Repr

/-- The code that a requantise writes: an integer code with its largest value, one of the 16 books, or the 256-entry table. -/
inductive QuantTo where
  | int8 | int4
  | book (b : Fin 16)
  | table
  deriving DecidableEq, Repr

/-- Integer vector operations, comparison and selection among them (Clerks Table 5.4). -/
inductive IntOp where
  | add | sub | mulLow | shl | shr | sar | and | or | xor | min | max | lt | le | eq
  deriving DecidableEq, Repr

/-- FP32 vector operations (Clerks Table 5.4). -/
inductive FpOp where
  | add | mul | min | max | lt | le | eq
  deriving DecidableEq, Repr

/-- Conversions (Numbers R229). -/
inductive CvtOp where
  | toInt32 | toBf16 | toFp16 | ofInt32 | ofBf16 | ofFp16
  deriving DecidableEq, Repr

/-- Approximate operations, and the activation table (Clerks Table 5.4). -/
inductive ApproxOp where
  | recip | rsqrt | exp2 | activation
  deriving DecidableEq, Repr

/-- Operations across lanes (Clerks Table 5.4). -/
inductive LaneOp where
  | sum | max | min | argmax | argmin
  deriving DecidableEq, Repr

/-- A vector operation. A requantise names its multiplier register, whether its input is FP32, the walk record it writes and the walked
tensor it reads; an operation across lanes takes them as INT32 or as FP32; a flag read names the drained file and may clear its flags, or it
reads the clerk-local event bits. -/
inductive VecOp where
  | int (op : IntOp) (a b : VecSrc)
  | select (cond a b : VecSrc)
  | fp (op : FpOp) (a b : VecSrc)
  | fma (a b c : VecSrc)
  | cvt (op : CvtOp) (a : VecSrc)
  | requant (a : VecSrc) (m : Fin 32) (fp : Bool) (dst : QuantTo) (record input : Option (Fin 64))
  | approx (op : ApproxOp) (a : VecSrc)
  | across (op : LaneOp) (fp : Bool) (a : VecSrc)
  | flags (file : Fin 3) (clear : Bool)
  | events
  deriving DecidableEq, Repr

/-- Where a load slot delivers. -/
inductive LoadTo where
  | feederA | feederB
  | vreg (r : Fin 32)
  | book (b : Fin 16) (used : Nat)
  | table (used : Nat)
  deriving DecidableEq, Repr

/-- What a move slot moves between (Clerks Table 5.5): a vector register, a row of an accumulator file, a book, or 16 entries of the table. -/
inductive MovePlace where
  | vreg (r : Fin 32)
  | accRow (file : Fin 2) (row : Fin 16)
  | book (b : Fin 16)
  | table (part : Fin 16)
  deriving DecidableEq, Repr

/-- A move slot: hand a file to the drain, or move 16 values; `used` is the used count of a book or table that it writes. -/
inductive MoveSlot where
  | handOff (file : Fin 3)
  | copy (dst src : MovePlace) (used : Nat)
  deriving DecidableEq, Repr

/-- A sync slot (Clerks R186): a step boundary, or a barrier that names clerks of the district by local index. -/
inductive SyncSlot where
  | boundary
  | barrier (clerks : Nat)
  deriving DecidableEq, Repr

/-- A compressed long word (Clerks R183): at most one slot of each kind. A store slot names a vector register and the bits of each stored
lane. -/
structure LongWord where
  array : Option ArraySlot := none
  vector : Option (Fin 32 × VecOp) := none
  load : Option LoadTo := none
  store : Option (Fin 32 × Nat) := none
  move : Option MoveSlot := none
  sync : Option SyncSlot := none
  deriving DecidableEq, Repr

/-- The long word that lies at the address at which a clerk goes on, as the private encoding has it (Clerks R183): its slots and its bytes. `branch`: the
clerk has branched to the address; `parity`: how many reads of the word fail parity, the one after its refetch among them (R185). -/
structure BufWord where
  word : LongWord
  len : Nat
  branch : Bool := false
  parity : Fin 3 := 0
  deriving DecidableEq, Repr

/-- One loop of a stream generator (Districts R198). -/
structure StreamLoop where
  count : Nat
  stride : Int
  deriving DecidableEq, Repr

/-- The program of one stream generator: its base and its loops, the outermost first (Districts R198). -/
structure StreamGen where
  base : Nat
  loops : List StreamLoop
  deriving DecidableEq, Repr

/-- A segment load of long words (Districts R202): from a device address of the parcel's code area to an offset of the instruction buffers. -/
structure SegLoad where
  src : Nat
  off : Nat
  len : Nat
  deriving DecidableEq, Repr

/-- What the copy engine reads (Districts R206, Numbers R245): a device address, or the event tile of a walk record. -/
inductive MoveSrc where
  | at_ (a : Nat)
  | event (t : Fin 64)
  deriving DecidableEq, Repr

/-- What the copy engine writes: a device address, or one offset of several stores of the district, by local index (Districts R206). -/
inductive MoveDst where
  | at_ (a : Nat)
  | stores (clerks off : Nat)
  deriving DecidableEq, Repr

/-- A move of the copy engine under a parcel's copy program (Districts R206): `len` bytes, with the arrival counter of an inbound or relay tile; `skew`
makes it a copy of `rows` rows into the stream-skewed layout with the strides of R210. -/
structure CopyMove where
  src : MoveSrc
  dst : MoveDst
  len : Nat
  counter : Option (Fin 16) := none
  skew : Option (Nat × Nat × Nat) := none
  deriving DecidableEq, Repr

/-- A walk record whose walk step ends with a step, and the addresses of its sorting cache at which other districts' event tiles land (Numbers R243,
R245). -/
structure WalkEnd where
  record : Fin 64
  tiles : List Nat
  deriving DecidableEq, Repr

/-- What the parcel's private step list says of a step (Districts §2, §4): its descriptor in the step table, the arrival counters that it requires, the programs of
the stream generators and the order in which their addresses are merged (the generator, and the offset selector of the entry), each clerk's band
offsets, the word address at which its clerks begin (none: they go on), its segment loads, the copies made as it starts, and the walk records whose walk step
it ends. -/
structure StepProg where
  desc : Nat
  needs : List (Fin 16 × Nat) := []
  gens : List StreamGen := []
  merge : List (Fin 8 × Option (Fin 4)) := []
  bands : List (Nat × List Nat) := []
  entry : Option Nat := none
  segs : List SegLoad := []
  moves : List CopyMove := []
  walks : List WalkEnd := []
  deriving DecidableEq, Repr

/-- A step that a postmaster has ready: its envelope, its clerks by local index, and what the step list says of it. -/
structure StepWork where
  ring : Ring
  seq : Nat
  clerks : Nat
  prog : StepProg
  deriving DecidableEq, Repr

/-- The end of a step, from the private step list: its copy moves, and whether the entry returns on this district after it. -/
structure StepFinish where
  moves : List CopyMove
  returns : Bool
  deriving DecidableEq, Repr

/-- What the loading of a parcel's private body gives: the bases proposed for its store and sorting cache ranges (units of 4 KiB and 64 KiB), and the parts of
the body that it places in its allocation: device address, offset in the body, and length. -/
structure BodyLoad where
  store : Nat
  cache : Nat
  parts : List (Nat × Nat × Nat)
  deriving DecidableEq, Repr

/-- A unit of work that a block has ready (Round Table 2.6). -/
inductive UnitWork where
  | step (w : StepWork)
  | vision (w : Work)
  deriving DecidableEq, Repr

/-! ### Cameras and codecs (Vision §2, §6, §7) -/

/-- The check of a CSI-2 packet header. -/
inductive HeaderEcc where
  | good | corrected | bad
  deriving DecidableEq, Repr

/-- What a CSI-2 packet carries: a frame start with its frame number, a frame end, or a line with its payload and whether its CRC is right. -/
inductive CsiBody where
  | frameStart (number : Nat)
  | frameEnd
  | line (data : Bytes) (crcOk : Bool)
  deriving DecidableEq, Repr

/-- A CSI-2 packet that has arrived at a port. -/
structure Csi2 where
  port : Fin 8
  vc : Fin 16
  dt : Nat
  ecc : HeaderEcc
  body : CsiBody
  deriving DecidableEq, Repr

/-- What the decoder finds in an access unit: a picture (its size, whether it is a random-access point), a syntax error, or a stream that is not
supported or needs more than its reference area. -/
inductive AuKind where
  | picture (width height : Nat) (key : Bool)
  | syntaxError (width height : Nat)
  | unsupported
  deriving DecidableEq, Repr

/-- What the JPEG engine makes of a job's source: an image or a coded stream, or the reason there is none (1 BAD_STREAM, 2 UNSUPPORTED). -/
inductive JpegOut where
  | data (width height : Nat) (b : Bytes)
  | bad (unsupported : Bool)
  deriving DecidableEq, Repr

/-- The commands of the device: one constructor for each row of the table of commands. -/
inductive Instr where
  /-- REG_WRITE (R20): A register write to a register with no row of its own acts on each field under its access code. -/
  | regWrite (q : Req) (off size v : Nat)
  /-- LOW_HALF_DROP (R18): A held low half whose high half has not landed by the end of the following round is dropped with REG_ACCESS. -/
  | lowHalfDrop (q : Req)
  /-- ROUND_BOUNDARY (R43): At each round boundary the round counter increases by 1 and every block takes the entry, budgets and regulators for the new round. -/
  | roundBoundary (energy : List EnergyPart)
  /-- SYNC_RECEIVED (R38): A valid sync message on the source port moves the lock state by offset as Table 2.2 gives. -/
  | syncReceived (m : Sync)
  /-- SYNC_LOSS (R690): After LOSS_INTERVALS sync intervals with no valid sync, the lock state moves to HOLDOVER or FREE. -/
  | syncLoss (t : Nat)
  /-- HOLDOVER_EXPIRY (R38): HOLD_LIMIT_MS after entry to HOLDOVER, TIME_VALID goes to 0 and ROUND_TIME_INVALID is reported. -/
  | holdoverExpiry (t : Nat)
  /-- ALIGNMENT (R39): At the boundary after the first entry to LOCKED, NET_OFFSET is fixed and the boundary is aligned in one step or by slewing. -/
  | alignment (net : Nat)
  /-- ALIGNMENT_COMPLETE (R39): When slewed alignment brings the boundaries within 50 ns, TIME_VALID becomes 1 and ROUND_TIME_RESTORED may be reported. -/
  | alignmentComplete
  /-- RELOCK (R42): A RELOCK write with no timetable in force enters ACQUIRE and marks NET_OFFSET for a new fix; otherwise TT_INVALID is reported. -/
  | relock (t : By Nat)
  /-- SYNC_SOURCE_WRITE (R38): A change of SYNC_CTRL.SOURCE moves the lock state to FREE, HOLDOVER or a restarted ACQUIRE. -/
  | syncSourceWrite (src : By Nat) (t : Nat)
  /-- TT_LOAD (R67): LOAD_CTRL.START copies index elements or entries into a bank, or the load is refused. -/
  | ttLoad (bank : By Bool) (entries : Bool) (first : Fin 65536)
  /-- TT_LOAD_DONE (R67): A timetable load ends with DONE, or with FAULT at a failing source read. -/
  | ttLoadDone
  /-- TT_VERIFY (R68): LOAD_CTRL.VERIFY starts verification of a bank's entries and continuation runs. -/
  | ttVerify (bank : By Bool)
  /-- TT_VERIFY_DONE (R68): Verification ends by setting VERIFIED, or FAULT with the cause and the bad element. -/
  | ttVerifyDone
  /-- TT_ENABLE_WRITE (R70): A write of TT_ENABLE puts the named verified bank in force, or restores the default entry, at the next boundary. -/
  | ttEnableWrite (en : By Bool)
  /-- UNIT_START (R56): A ready unit of work starts when its fit check against its owner's quantum passes; otherwise it waits and DEFER_COUNT rises. -/
  | unitStart (i : Block) (w : UnitWork) (t : Nat)
  /-- UNIT_END (R63): A unit of work ends, and the block's following units become eligible to start. -/
  | unitEnd (i : Block) (t : Nat)
  /-- OVERRUN (R63): A unit still running at the end of its quantum or run overruns; OVR_COUNT rises and BUDGET_OVERRUN is reported. -/
  | overrun (i : Block) (t : Nat)
  /-- UNIT_HANG (R65): A unit still running 1,000 rounds after its quantum ends is halted, and its ring is stopped. -/
  | unitHang (i : Block) (t : Nat)
  /-- TXN_OPEN (R126): An open by TXN.CMD or TXN envelope takes a free permitted owner and records CHANGE_SEQ. -/
  | txnOpen (w : TxnFrom)
  /-- TXN_WRITES (R142): A TXN envelope with OP 1 checks a write list and records it in the shadow set. -/
  | txnWrites (r : Ring) (seq : Nat)
  /-- TXN_SEAL (R133): A seal by the holder puts an OPEN or FAILED owner in SEALING for the next boundary. -/
  | txnSeal (w : TxnFrom)
  /-- TXN_RETURN (R130): A return discards the shadow set and frees the owner. -/
  | txnReturn (w : TxnFrom)
  /-- SEAL_APPLY (R135): At the boundary after acceptance, each seal is decided as TXN_FULL, CONFLICT, refused or applied. -/
  | sealApply
  /-- TXN_EXPIRED (R131): An owner still open at its open limit is returned by the device. -/
  | txnExpired (o : Fin 8)
  /-- PAIR_APPLY (R146): At the boundary after a mate lands, the block checks the new pair and applies it or keeps the old pair. -/
  | pairApply
  /-- PAIR_ORPHAN (R149): A pending half with no mate after 1,000 rounds is dropped and ORPHAN_COUNT rises. -/
  | pairOrphan (p : PairId)
  /-- SUBMISSION_DOORBELL (R81): A submission doorbell write is tested and sets SUB_TAIL, or is discarded with DOORBELL_BAD. -/
  | submissionDoorbell (q : Req) (page : Ring) (a : PageAcc) (v : Option Nat)
  /-- RETURN_DOORBELL (R82): A return doorbell write is tested and sets RET_HEAD, or is discarded with DOORBELL_BAD. -/
  | returnDoorbell (q : Req) (page : Ring) (a : PageAcc) (v : Option Nat)
  /-- ENVELOPE_FETCH (R85): The ring engine fetches an envelope from a running ring by class and rotation. -/
  | envelopeFetch (r : Ring)
  /-- ENVELOPE_START (R93): A fetched envelope starts in order once its predecessor has completed or started and a return entry is reserved. -/
  | envelopeStart (r : Ring) (t : Nat)
  /-- ENVELOPE_COMPLETE (R94): An envelope completes, applies its header signal if OK, and writes its return record in submission order. -/
  | envelopeComplete (r : Ring) (seq : Nat) (t : Nat)
  /-- IRQ_DELAY (R104): A record that has waited IRQ.DELAY rounds without an interrupt raises the ring's interrupt. -/
  | irqDelay (r : Ring)
  /-- NOP (R91): A NOP envelope completes at once. -/
  | nop (r : Ring) (seq : Nat)
  /-- RUN (R260): A RUN envelope makes the parcel checks, allocates and loads where needed, and runs its entry on its districts. -/
  | run (r : Ring) (seq : Nat) (b : BodyLoad)
  /-- RUN_RELEASE (R264): A RUN with ENTRY 0xFFFF frees the parcel's allocations on the named districts. -/
  | runRelease (r : Ring) (seq : Nat)
  /-- COPY (R209): A COPY envelope moves data by a district copy engine or the ring engine's copy unit. -/
  | copy (r : Ring) (seq : Nat)
  /-- WAIT (R108): A WAIT envelope blocks its ring until its receipt reaches VALUE. -/
  | wait (r : Ring) (seq : Nat)
  /-- WAIT_SATISFIED (R108): A signal that brings the receipt to VALUE completes the WAIT and resumes its ring. -/
  | waitSatisfied (r : Ring) (seq : Nat)
  /-- WAIT_TIMEOUT (R109): A WAIT not satisfied by the end of its timeout completes with TIMEOUT. -/
  | waitTimeout (r : Ring) (seq : Nat)
  /-- SIGNAL (R106): A SIGNAL envelope applies an add or max signal to a receipt, locally or remotely. -/
  | signal (r : Ring) (seq : Nat)
  /-- REMOTE_SIGNAL_TIMEOUT (R111): A remote SIGNAL not acknowledged within 100 rounds fails with LINK_DOWN. -/
  | remoteSignalTimeout (r : Ring) (seq : Nat)
  /-- FENCE (R93): A FENCE completes once every earlier envelope has completed and, with HOST_VISIBLE, its host writes are visible. -/
  | fence (r : Ring) (seq : Nat)
  /-- RECEIPT_SIG_VALUE (R112): A write of RECEIPT_SIG_VALUE applies a signal to the receipt named in RECEIPT_SIG_INDEX. -/
  | receiptSigValue (q : Req) (v : Nat)
  /-- RECEIPT_BASE_WRITE (R105): A RECEIPT_BASE write is accepted only while no ring is enabled, or is discarded with RING_BUSY. -/
  | receiptBaseWrite (q : Req) (v : Nat)
  /-- RING_CFG_WRITE (R116): A ring CFG write is checked for ring state, owner, VF ring count and express class. -/
  | ringCfgWrite (q : Req) (r : Ring) (v : Nat)
  /-- RING_ENABLE (R118): CTRL.ENABLE := 1 takes a disabled ring with both bases set to RUNNING. -/
  | ringEnable (q : Req) (r : Ring)
  /-- RING_DISABLE (R119): CTRL.ENABLE := 0 from STOPPED disables the ring and zeroes its counts. -/
  | ringDisable (q : Req) (r : Ring)
  /-- RING_STOP (R119): STOP lets started envelopes complete and cancels pending WAITs and fetched envelopes. -/
  | ringStop (q : Req) (r : Ring)
  /-- RING_ABORT (R119): ABORT halts started envelopes at their next step or burst boundary with CANCELLED. -/
  | ringAbort (q : Req) (r : Ring)
  /-- RING_RESUME (R119): RESUME takes a STOPPED ring to RUNNING and fetches from SUB_HEAD. -/
  | ringResume (q : Req) (r : Ring)
  /-- FUNCTION_LEVEL_RESET (R117): A function-level reset aborts and disables every ring the function owns. -/
  | functionLevelReset (f : Fin 17)
  /-- WORD_ISSUE (R183): A clerk issues one compressed long word, with all its slots in the same cycle, or freezes. -/
  | wordIssue (c : Fin 4096) (cyc pc : Nat) (w : BufWord)
  /-- DISTRICT_BARRIER (R186): A barrier releases its clerks 12 cycles after the last named clerk issues it. -/
  | districtBarrier (d : Fin 16)
  /-- SCRUB_READ (R181): The scrubber reads a store or sorting-cache word in an idle bank cycle and handles its errors. -/
  | scrubRead (addr : Nat) (bad : Fin 3)
  /-- STEP_END (R195): A step ends when the postmaster has seen every clerk's step-boundary slot. -/
  | stepEnd (d : Fin 16) (f : StepFinish) (t : Nat)
  /-- WALK_K_WRITE (R248): A write of WALK.K is applied at the record's first walk boundary after the next round boundary. -/
  | walkKWrite (q : Req) (d : Fin 16) (rec : Fin 64) (v : Nat)
  /-- INBOUND_WRITE (R207): An inbound write lands in a sorting cache and raises its arrival counter at the tile's last byte. -/
  | inboundWrite (r : Ring) (seq : Nat) (from_ : Fin 16) (addr : Nat) (counter : Fin 16) (data : Bytes)
  /-- ARRIVAL_TIMEOUT (R225): A step not ready ARRIVE_LIMIT rounds after its predecessor ended stops its RUN. -/
  | arrivalTimeout (d : Fin 16) (r : Ring) (seq : Nat)
  /-- RELAY_WRITE_TIMEOUT (R224): A relay write not acknowledged within 100 rounds stops the sending RUN with LINK_DOWN. -/
  | relayWriteTimeout (r : Ring) (seq : Nat)
  /-- POSTMARK_MARK (R275): POSTMARK ACTION 0 writes a mark stamp with TAG and COUNT. -/
  | postmarkMark (r : Ring) (seq : Nat)
  /-- ARM_BREAK_ON_TAG (R275): POSTMARK ACTION 1 arms a break on the next RUN with POSTMARK TAG. -/
  | armBreakOnTag (r : Ring) (seq : Nat)
  /-- ARM_BREAK_ON_COUNT (R275): POSTMARK ACTION 2 arms a break on the COUNT-th counted RUN. -/
  | armBreakOnCount (r : Ring) (seq : Nat)
  /-- DISARM (R275): POSTMARK ACTION 3 removes the ring's armed break. -/
  | disarm (r : Ring) (seq : Nat)
  /-- DEBUG_RELEASE (R282): A write of DEBUG_RELEASE ends a district's hold and discards its clerk state. -/
  | debugRelease (q : Req) (v : Nat)
  /-- DEBUG_HOLD_EXPIRED (R282): A hold ends after DEBUG_HOLD_LIMIT rounds and DEBUG_HOLD_EXPIRED is reported. -/
  | debugHoldExpired (d : Fin 16)
  /-- DBG_SEL_WRITE (R283): A DBG_SEL write selects clerk state for DBG_DATA from the next round boundary. -/
  | dbgSelWrite (q : Req) (v : Nat)
  /-- SESSION_OPEN (R287): SESSION OP 0 checks the descriptor and parcel and opens a session. -/
  | sessionOpen (r : Ring) (seq : Nat)
  /-- SESSION_ADMIT (R288): SESSION OP 1 checks a request block and queues the request. -/
  | sessionAdmit (r : Ring) (seq : Nat)
  /-- SESSION_CANCEL (R296): SESSION OP 2 records the cancel of a request for the next pass. -/
  | sessionCancel (r : Ring) (seq : Nat)
  /-- SESSION_CLOSE (R297): SESSION OP 3 stops admission and ends the session at the next pass start. -/
  | sessionClose (r : Ring) (seq : Nat)
  /-- SESSION_STATUS (R298): SESSION OP 4 writes the session status block. -/
  | sessionStatus (r : Ring) (seq : Nat)
  /-- PASS_START (R293): At the start of a pass the marshal applies cancels, admits requests, grants positions and runs the pass RUN. -/
  | passStart (id : Nat) (b : BodyLoad)
  /-- PASS_COMPLETE (R303): When a pass completes, the marshal accepts candidates, writes tokens, updates blocks and signals receipts. -/
  | passComplete (id : Nat) (t : Nat) (energy : Nat)
  /-- PS_LOAD (R307): PS_LOAD copies and checks a postscript into the lowest FREE slot and assigns a generation. -/
  | psLoad (r : Ring) (seq : Nat)
  /-- PS_BIND (R308): PS_BIND changes one handle binding, accepted by the marshal. -/
  | psBind (r : Ring) (seq : Nat)
  /-- PS_BIND_APPLY (R308): At the next boundary the binding takes effect and the former slot becomes DRAINING. -/
  | psBindApply
  /-- SLOT_RETIRE (R310): A DRAINING slot whose reference receipt reaches TARGET is zeroed, freed and reported by an unsolicited record. -/
  | slotRetire (slot : Fin 256)
  /-- CSI2_PACKET (R322): A received CSI-2 packet is checked and routed to its matching channel or discarded. -/
  | csi2Packet (p : Csi2)
  /-- FRAME_FINISH (R326): A finished frame writes its record, signals its frame receipt and updates its frame sets. -/
  | frameFinish (c : Fin 24) (data : Bytes)
  /-- CAM_SOURCE_LOST (R347): Two rounds with no packet past the expected line finish the frame DAMAGED with SOURCE_LOST. -/
  | camSourceLost (c : Fin 24) (data : Bytes)
  /-- CHAN_ENABLE (R322): A CHAN_CFG.ENABLE write turns the channel on, or is discarded with CAM_BUSY. -/
  | chanEnable (q : Req) (c : Fin 24) (v : Nat)
  /-- ISP_STREAM_ENABLE (R332): A stream enable is refused if input memory would exceed 2 MiB. -/
  | ispStreamEnable (q : Req) (i : Fin 16) (v : Nat)
  /-- DECODE_ACCESS_UNIT (R339): A decode session reads an access unit once its input receipt allows and decodes it. -/
  | decodeAccessUnit (i : Fin 32) (k : AuKind)
  /-- ENCODE_PICTURE (R342): An encode session writes an access unit and descriptor and signals its receipt. -/
  | encodePicture (e : Fin 8) (au : Bytes)
  /-- ENCODE_ENABLE (R341): An encode session enable is refused unless its source channel outputs NV12. -/
  | encodeEnable (q : Req) (e : Fin 8) (v : Nat)
  /-- JPEG_JOB (R344): A JPEG job starts once the submit receipt reaches it. -/
  | jpegJob
  /-- JPEG_JOB_DONE (R344): An ended job writes STATUS, OUT_LEN and DONE_ROUND and signals the done receipt. -/
  | jpegJobDone (o : JpegOut)
  /-- ADC_CONVERSION (R350): A channel starts a conversion at its phase in each due round. -/
  | adcConversion (c : Fin 8) (t : Nat)
  /-- SAMPLE_AVAILABLE (R351): A sample becomes available 500 ns after its start, with fault flags, and goes to the bypass or the fabric. -/
  | sampleAvailable (c : Fin 8) (a : Analog) (t : Nat)
  /-- SETTLE_END (R352): A channel's settling ends 2,000 or 20 rounds after a mode or rate change. -/
  | settleEnd (c : Fin 8)
  /-- FABRIC_BLOCK (R354): At LAST on X_OUT a block is stamped with its sample time and sent over the express lane. -/
  | fabricBlock (c : Fin 8) (words : List Nat) (t : Nat)
  /-- EXPRESS_UNIT_START (R361): A channel's express unit starts when its block waits, its XSLOT bit is set and the band is free. -/
  | expressUnitStart (c : Fin 8) (clerks : Nat) (p : StepProg) (t : Nat)
  /-- EXPRESS_UNIT_END (R365): An express unit ends and its result is committed to the mailbox within 50 ns. -/
  | expressUnitEnd (c : Fin 8) (v0 v1 : Nat) (t : Nat)
  /-- SPILL_DROP (R367): A spill write not issued within 8 rounds of its commit is dropped. -/
  | spillDrop
  /-- EXPRESS_RUN_COMPLETE (R359): An armed RUN whose ring is STOPPING completes at the next boundary. -/
  | expressRunComplete
  /-- CPORT_FRAME_RECEIVE (R369): A control port accepts or discards a received frame by DA, FCS and EtherType. -/
  | cportFrameReceive (p : Fin 2) (f : Bytes) (fcs : Bool) (t : Nat)
  /-- REQ (R372): A REQ is validated, counted and given a target window occurrence. -/
  | req (p : Fin 2)
  /-- CX_SNAPSHOT (R374): The newest records of the selected channels are snapshotted after the request's last bit. -/
  | cxSnapshot (p : Fin 2) (t : Nat)
  /-- RSP_SEND (R375): An RSP is sent in its target occurrence as soon as the guard permits, or discarded as missed. -/
  | rspSend (p : Fin 2) (w : Option (Fin 16)) (t : Nat)
  /-- SVC_IDENTIFY (R377): A SVC_REQ with OP 1 is answered with identification in an SVC_RSP. -/
  | svcIdentify (p : Fin 2)
  /-- SVC_COUNTERS (R377): A SVC_REQ with OP 2 is answered with the port's eight counters. -/
  | svcCounters (p : Fin 2)
  /-- CPORT_CX_SILENT (R378): No valid REQ for CX_TIMEOUT rounds reports CPORT_CX_SILENT once. -/
  | cportCxSilent (p : Fin 2) (t : Nat)
  /-- GUARD_CUT (R383): A transmission still running at its window end is cut. -/
  | guardCut (p : Fin 2) (t : Nat)
  /-- GUARD_SWITCH_APPLY (R381): At the boundary of network round N the standby bank becomes active if valid. -/
  | guardSwitchApply (p : Fin 2)
  /-- GUARD_DISAGREE (R386): A disagreement between the guard's comparator channels silences the port. -/
  | guardDisagree (p : Fin 2)
  /-- PTP_FRAME_SEND (R384): A gPTP frame starts outside the windows under the PTP_GAP_MS allowance, or waits. -/
  | ptpFrameSend (p : Fin 2) (f : Bytes) (t : Nat)
  /-- CPORT_LINK (R391): A change of control-port link state is reported. -/
  | cportLink (p : Fin 2) (offer : Fin 3) (t : Nat)
  /-- MEM_REQUEST (R399): A memory request reaches a channel queue or is handled as unpopulated. -/
  | memRequest (tag : Nat) (b : MemBy) (a : Nat) (o : MemOp) (t : Nat)
  /-- MEM_BURST_ISSUE (R404): A channel picks and issues a burst within class order, budgets, window and regulator. -/
  | memBurstIssue (c : Fin 10) (rows : List Nat) (t : Nat)
  /-- MEM_PROMOTE (R402): A request waiting past its class's age limit is promoted. -/
  | memPromote (c : Fin 10) (tag : Nat) (t : Nat)
  /-- MEM_READ_DATA (R412): Read data is checked, corrected, reissued or poisoned. -/
  | memReadData (c : Fin 10) (tag : Nat) (k : ReadCheck)
  /-- DDR5_ALERT (R414): An ALERT_n replays unconfirmed commands, and a third alert takes the channel DOWN. -/
  | ddr5Alert (sub : Fin 2)
  /-- REFRESH_DEBT (R408): A channel accrues one refresh set of debt each tREFI_eff; at 8 a forced set issues. -/
  | refreshDebt (c : Fin 10) (t : Nat)
  /-- TRAINING_ACTION (R410): A channel is trained in a TRAIN round or forced at 100,000 rounds. -/
  | trainingAction (c : Fin 10) (passes : Bool)
  /-- DDR5_BRINGUP (R417): DX_CTRL.START starts DDR5 bring-up, or is discarded with MEM_BUSY. -/
  | ddr5Bringup (q : Req) (v : Nat)
  /-- DDR5_BRINGUP_DONE (R417): Bring-up ends in TRAINED or a failure state. -/
  | ddr5BringupDone (o : Option Spd)
  /-- FABRIC_LOAD (R433): A FABRIC_LOAD envelope makes its checks and waits for the configuration engine. -/
  | fabricLoad (r : Ring) (seq : Nat)
  /-- FABRIC_LOAD_BEGIN (R434): The engine begins a region load: writes, reads back and checks every frame. -/
  | fabricLoadBegin (bad : Option Nat)
  /-- FABRIC_RELEASE (R434): A checked region is released ACTIVE at the next boundary. -/
  | fabricRelease (g : Fin 8)
  /-- READ_FRAME (R444): CFG_CMD OP 1 reads a frame into CFG_DATA. -/
  | readFrame (q : Req) (far : Fin 65536)
  /-- CLEAR (R444): CFG_CMD OP 2 zeroes a region's frames and makes it EMPTY. -/
  | clear (q : Req) (g : Fin 8)
  /-- SCRUB_PASS (R444): CFG_CMD OP 3 starts an immediate full scrub pass. -/
  | scrubPass (q : Req)
  /-- FABRIC_SCRUB_READ (R440): The scrubber reads back a frame and compares its signature. -/
  | fabricScrubRead (far : Fin 65536) (flips : List (Nat × Nat))
  /-- REGION_FAULT (R443): Under HOLD_REGION an upset region enters FAULT at the next boundary. -/
  | regionFault (g : Fin 8)
  /-- REGION_HOLD_WRITE (R429): A write of REGION_CTRL.HOLD holds or releases an ACTIVE region from the next boundary. -/
  | regionHoldWrite (q : Req) (g : Fin 8) (v : Nat)
  /-- FABRIC_MESH_REQUEST (R445): A fabric MESH request is checked against its function's window and served. -/
  | fabricMeshRequest (a : Nat) (o : MemOp)
  /-- FABRIC_REG_ACCESS (R446): An access to a region's register window passes to the region or returns zero. -/
  | fabricRegAccess (q : Req) (g : Fin 8) (off : Fin 65536) (w ans : Option Nat)
  /-- FABRIC_REG_TIMEOUT (R446): A region read not answered within 256 ns returns all ones. -/
  | fabricRegTimeout (g : Fin 8)
  /-- CLK_CFG_WRITE (R447): A CLK_CFG write changes a user clock at the next boundary. -/
  | clkCfgWrite (q : Req) (i : Fin 4) (v : Nat)
  /-- DOM_REQ_ON (R477): A domain request for ON wakes the domain, preempting an entry. -/
  | domReqOn (q : Req) (i : Fin 24) (tag : Nat)
  /-- DOM_REQ_IDLE (R455): A domain request for IDLE stops clocks once no work runs. -/
  | domReqIdle (q : Req) (i : Fin 24) (tag : Nat)
  /-- DOM_REQ_RETAIN (R471): A domain request for RETAIN prepares and commits the domain into retention. -/
  | domReqRetain (q : Req) (i : Fin 24) (tag : Nat)
  /-- DOM_REQ_OFF (R471): A domain request for OFF prepares and commits the domain off. -/
  | domReqOff (q : Req) (i : Fin 24) (tag : Nat)
  /-- DOM_REQ_CANCEL (R480): A domain cancel removes the pending request. -/
  | domReqCancel (q : Req) (i : Fin 24) (tag : Nat)
  /-- DEV_REQ_RUN (R467): A device request for RUN wakes the device. -/
  | devReqRun (q : Req) (tag : Nat)
  /-- DEV_REQ_WATCH (R464): A device request for WATCH prepares and commits the WATCH state. -/
  | devReqWatch (q : Req) (tag : Nat) (partialOk : Bool)
  /-- DEV_REQ_SLEEP (R464): A device request for SLEEP prepares and commits the SLEEP state. -/
  | devReqSleep (q : Req) (tag : Nat) (partialOk : Bool)
  /-- DEV_REQ_HALT (R464): A device request for HALT prepares and commits the HALT state. -/
  | devReqHalt (q : Req) (tag : Nat) (partialOk : Bool)
  /-- DEV_REQ_CANCEL (R480): A device cancel removes the pending device request. -/
  | devReqCancel (q : Req) (tag : Nat)
  /-- AGENT_ANSWER (R472): A prepare agent answers AGREE or REFUSE, and prepare continues, resumes or commits. -/
  | agentAnswer (i : Fin 27)
  /-- HOST_ACK_AGREE (R472): HOST_ACK ANSWER 1 agrees to the preparation of PD_HOST. -/
  | hostAckAgree (q : Req)
  /-- HOST_ACK_REFUSE (R472): HOST_ACK ANSWER 2 refuses the preparation of PD_HOST. -/
  | hostAckRefuse (q : Req)
  /-- PREP_TIMEOUT (R472): An agent that has not answered within PREP_LIMIT refuses. -/
  | prepTimeout (i : Fin 27)
  /-- TRANSITION_STEP (R457): A transition step of a domain runs at a round boundary. -/
  | transitionStep (i : Fin 27)
  /-- IDLE_ENTRY (R455): An IDLE domain stops its clocks at the first boundary with no work. -/
  | idleEntry (i : Fin 24)
  /-- IDLE_WAKE (R455): Work reaching an IDLE domain returns it to ON within 1 round. -/
  | idleWake (i : Fin 24)
  /-- WAKE_EVENT (R479): An enabled wake source sets its latch bit and acts as a device wake. -/
  | wakeEvent (src : Fin 8)
  /-- PAD_RELEASE (R463): A PAD_RELEASE write releases a held pad group, or is discarded with PWR_PAD_EARLY. -/
  | padRelease (q : Req) (v : Nat)
  /-- SEC_HOLD_WRITE (R489): A SEC_HOLD write sets holds; clearing a hold starts a deferred request. -/
  | secHoldWrite (q : Req) (v : Nat)
  /-- AVS_ACK (R483): The HXP acknowledges a voltage request, and settling begins. -/
  | avsAck (b : Fin 2) (t : Nat)
  /-- AVS_SETTLE (R483): 8 µs after an acknowledgement, the next request or dependent step may proceed. -/
  | avsSettle (b : Fin 2) (t : Nat)
  /-- AVS_TIMEOUT (R484): An unacknowledged voltage request is reissued, and after three attempts fails with AVS_FAIL. -/
  | avsTimeout (b : Fin 2) (t : Nat)
  /-- OP_CHANGE (R485): A district's operating point changes, voltage before clock on a raise. -/
  | opChange (d : Fin 16)
  /-- MONITOR_SAMPLE (R494): A monitor takes a sample, runs its self-check and tests its alarm. -/
  | monitorSample (m : Fin 144) (raw : Nat)
  /-- HXP_TEMP_READ (R519): The HXP temperature is read every 100 rounds and may trip the device. -/
  | hxpTempRead (raw : Nat)
  /-- TRIM_UPDATE (R499): Every 1,000 rounds each rail trim moves toward measured energy. -/
  | trimUpdate (ratios : List (Option Nat))
  /-- GOVERNOR_DECISION (R509): At each governor period the governor lowers or raises items against the budget. -/
  | governorDecision (active rise : List Nat)
  /-- DROOP_TRIGGER (R515): A rail droop halves the domain's clocks within 2 ns. -/
  | droopTrigger (i : Fin 19) (t : Nat)
  /-- DROOP_RESTORE (R515): After 4 ns within 10 mV, full frequency is restored. -/
  | droopRestore (i : Fin 19) (t : Nat)
  /-- DROOP_RELEASE (R516): A DROOP_RELEASE write clears a district's DROOP_LIMITED. -/
  | droopRelease (q : Req) (v : Nat)
  /-- THROTTLE_STEP (R517): Every 100 rounds a hot sensor lowers throttled ceilings by one step. -/
  | throttleStep (m : Fin 48)
  /-- THROTTLE_RESTORE (R518): A throttle ceiling is restored one step per 1,000 cool rounds. -/
  | throttleRestore (i : Fin 18)
  /-- SECURE_START (R534): After the AON reset the root verifies the runtime and boot stage and releases host core 0. -/
  | secureStart (root : Bytes)
  /-- MB_GO (R547): A GO write submits a mailbox message, or is discarded with SEC_BUSY. -/
  | mbGo (q : Req) (k : Fin 2)
  /-- GET_INFO (R549): Message 0x0001 returns lifecycle, flags, slots and versions. -/
  | getInfo (k : Fin 2)
  /-- QUOTE (R543): Message 0x0002 writes a signed quote of the seals. -/
  | quote (k : Fin 2) (ecdsa mldsa : Bytes)
  /-- GET_CERT (R543): Message 0x0003 writes the attestation certificate. -/
  | getCert (k : Fin 2) (cert : Bytes)
  /-- READ_LOG (R549): Message 0x0004 writes event log entries. -/
  | readLog (k : Fin 2)
  /-- EXTEND (R540): Message 0x0005 extends seal 3 or 7 with a digest. -/
  | extend (k : Fin 2)
  /-- VERIFY_IMAGE (R531): Message 0x0006 verifies a type-3 image and optionally extends seal 3. -/
  | verifyImage
  /-- RAISE_COUNTER (R545): Message 0x0008 raises a minimum-version counter. -/
  | raiseCounter
  /-- CONFIRM_SLOT (R550): Message 0x0009 confirms the started trial slot and raises its counter. -/
  | confirmSlot
  /-- RUNTIME_UPDATE (R582): Message 0x000A writes a verified runtime image to the other slot as VALID. -/
  | runtimeUpdate
  /-- NOR_READ (R549): Message 0x000B copies NOR bytes to memory. -/
  | norRead
  /-- NOR_ERASE (R581): Message 0x000C erases NOR sectors, subject to slot protection. -/
  | norErase (fail : Option (Nat × Bytes))
  /-- NOR_PROGRAM (R581): Message 0x000D programs NOR pages, subject to slot protection. -/
  | norProgram (fail : Option (Nat × Bytes))
  /-- GUARD_WRITE (R551): Message 0x0010 writes a guard standby bank whole. -/
  | guardWrite
  /-- GUARD_SWITCH (R551): Message 0x0011 arms a guard bank switch at network round N. -/
  | guardSwitch
  /-- GUARD_ARM (R551): Message 0x0012 writes a guard's ARMED and PTP_GAP_MS. -/
  | guardArm
  /-- KEY_INSTALL (R552): Message 0x0020 wraps and installs a parcel key. -/
  | keyInstall
  /-- KEY_REVOKE (R552): Message 0x0021 erases a parcel key once its loads end. -/
  | keyRevoke
  /-- FABRIC_APPROVE (R553): Message 0x0022 replaces a region's approved digest list. -/
  | fabricApprove
  /-- OWNER_ENROLL (R554): Message 0x0030 programs the owner key digest and OWNED lifecycle. -/
  | ownerEnroll (readOk : Bool)
  /-- REVOKE_VENDOR_KEY (R554): Message 0x0031 permanently revokes a vendor key slot. -/
  | revokeVendorKey (readOk : Bool)
  /-- DEBUG_UNLOCK (R554): Message 0x0032 opens debug until the next power-on reset. -/
  | debugUnlock
  /-- LIFECYCLE_RETURN (R554): Message 0x0033 erases the key store and programs RETURNED. -/
  | lifecycleReturn (readOk : Bool)
  /-- THERMAL_NOTIFY_ACK (R556): A write clearing SEC_NOTIFY.THERMAL acknowledges the thermal notification. -/
  | thermalNotifyAck (q : Req)
  /-- THERMAL_NOTIFY_TIMEOUT (R490): Twenty rounds after the notification, the safe-state path proceeds over holds. -/
  | thermalNotifyTimeout
  /-- FW_LOAD_PROCESSOR (R566): FW_LOAD with TARGET 0–2 verifies, halts, copies and starts a processor. -/
  | fwLoadProcessor (r : Ring) (seq : Nat)
  /-- FW_RESTART_POSTMASTER (R566): FW_LOAD with TARGET 3–18 restarts a postmaster from the store. -/
  | fwRestartPostmaster (r : Ring) (seq : Nat)
  /-- FW_LOAD_STORE (R566): FW_LOAD with TARGET 19 loads the postmaster store and starts postmasters. -/
  | fwLoadStore (r : Ring) (seq : Nat)
  /-- FW_READY (R567): A started processor reports READY or HOLD_FORMAT in its start mailbox. -/
  | fwReady (p : Fin 19) (code format : Nat)
  /-- FW_START_FAIL (R567): A processor that reports nothing within FW_READY_LIMIT is halted. -/
  | fwStartFail (p : Fin 19)
  /-- PROC_HALT (R571): A PROC_CTRL.HALT write halts the processor at the next boundary. -/
  | procHalt (q : Req) (p : Fin 19)
  /-- WDOG_KICK (R574): A WDOG_KICK write restarts a processor's watchdog count. -/
  | wdogKick (p : Fin 19)
  /-- FW_WATCHDOG (R574): A processor that misses its watchdog is halted. -/
  | fwWatchdog (p : Fin 19)
  /-- LEDGER_ENTRY (R578): A ledger entry is written, or is lost when the ledger is full. -/
  | ledgerEntry (p : Fin 19) (mark : Bool) (id level a0 a1 a2 t : Nat)
  /-- LEDGER_TAIL_WRITE (R578): A LEDGER_TAIL write consumes entries, or is discarded with LEDGER_BUSY. -/
  | ledgerTailWrite (q : Req) (v : Nat)
  /-- ACK (R595): An ACK write of the current SEQ retires the current record. -/
  | ack (q : Req) (v : Nat)
  /-- INJECT (R606): An INJECT write reports a code with its class action only. -/
  | inject (q : Req) (v : Nat)
  /-- SAFE_REQUEST (R600): SAFE_CTRL.REQUEST reports SAFE_REQUESTED and begins orderly entry. -/
  | safeRequest (q : Req)
  /-- SAFE_NOW (R600): SAFE_CTRL.NOW ends orderly entry at once. -/
  | safeNow (q : Req)
  /-- SAFE_STATE_REACHED (R602): At the end of orderly entry, or at a nested FATAL, the safe-state actions are taken. -/
  | safeStateReached (t : Nat)
  /-- SAFE_EXIT (R604): SAFE_CTRL.EXIT is refused, or runs the guard self-test and is accepted. -/
  | safeExit (q : Req) (disagree : Bool)
  /-- SAFE_EXIT_APPLY (R605): An accepted exit resets SPINE and the switched domains at the next boundary. -/
  | safeExitApply
  /-- CLOCK_MONITOR_WINDOW (R688): Each 1 µs monitor window measures the reference, and 10 bad windows report CLOCK_FAIL. -/
  | clockMonitorWindow (ppm : Option Int)
  /-- BAR4_ACCESS (R610): A BAR4 access reaches device memory through BAR4_SEL as function 0. -/
  | bar4Access (off n : Nat) (w : Option Bytes)
  /-- HOST_WAKE (R613): A HOST_WAKE write gives an in-band wake. -/
  | hostWake (q : Req) (v : Nat)
  /-- PERST_ASSERT (R618): PERST# assertion resets the PF and PD_PCIE. -/
  | perstAssert
  /-- PERST_DEASSERT (R613): PERST# deassertion after assertion is an in-band wake. -/
  | perstDeassert
  /-- PCIE_ERROR (R616): A PCIe error is classified and reported. -/
  | pcieError (f : Fin 17) (e : PcieErr) (hit : PcieHit)
  /-- PCIE_LINK_DOWN (R617): Loss of the data link resets every PCIe function. -/
  | pcieLinkDown
  /-- PLANT_FRAME_RECEIVE (R624): A plant frame goes to a receive queue or is discarded. -/
  | plantFrameReceive (n : Fin 2) (frame : Bytes) (fcs : Bool)
  /-- PLANT_FRAME_TRANSMIT (R625): A posted transmit descriptor is sent in rotation. -/
  | plantFrameTransmit (n : Fin 2)
  /-- Q_TAIL_WRITE (R622): A Q_TAIL write posts descriptors. -/
  | qTailWrite (q : Req) (n : Fin 2) (tx : Bool) (i : Fin 4) (v : Nat)
  /-- PLANT_LINK (R627): A plant link change is reported. -/
  | plantLink (n : Fin 2) (speed : Fin 4)
  /-- RELAY_ENABLE (R629): RELAY.CFG.ENABLE := 1 starts relay training. -/
  | relayEnable (q : Req) (v : Nat)
  /-- RELAY_TRAINED (R629): Training ends UP or MISMATCH. -/
  | relayTrained (up : Fin 16) (size : Nat) (accepts : Bool) (path : Fin 16)
  /-- RELAY_RETRAIN (R629): A mismatched link retrains every 10,000 rounds. -/
  | relayRetrain
  /-- WRITE (R635): A WRITE packet is accepted into DRAM or a sorting cache, or refused with WNAK. -/
  | write (p : RelayIn)
  /-- WACK (R635): A WACK completes a relay transfer. -/
  | wack (p : RelayIn)
  /-- WNAK (R635): A WNAK fails the sending copy. -/
  | wnak (p : RelayIn)
  /-- SIGNAL_PACKET (R637): A SIGNAL packet applies a receipt signal and its mirror. -/
  | signalPacket (p : RelayIn)
  /-- SACK (R637): A SACK completes a remote SIGNAL. -/
  | sack (p : RelayIn)
  /-- SREFUSE (R637): An SREFUSE fails a remote SIGNAL with BAD_RECEIPT. -/
  | srefuse (p : RelayIn)
  /-- LACK (R633): A LACK acknowledges hop packets and returns credits. -/
  | lack (tag addr : Nat)
  /-- LNAK (R633): An LNAK replays from a packet; a third replay takes the hop down. -/
  | lnak (tag : Nat)
  /-- POWER_ON (R641): The 12 V input rising starts the HXP sequence and power-on reset. -/
  | powerOn (fell good lo hi : Bool)
  /-- RAIL_FAIL (R642): Rails not good by t0 + 10 ms switch off. -/
  | railFail
  /-- BROWN_OUT (R643): The input below 9.5 V for over 20 µs switches rails off. -/
  | brownOut (mv ns : Nat)
  /-- SYS_RESET_N (R643): SYS_RESET_N held low causes power-on reset. -/
  | sysResetN (ns : Nat)
  /-- VIN_OVERVOLTAGE (R669): Input above 14.5 V for over 10 µs takes every rail off. -/
  | vinOvervoltage (mv ns : Nat)
  /-- AUX_OVERLOAD (R670): An overloaded HXP output switches off. -/
  | auxOverload (out : Fin 3) (ma us : Nat)
  /-- RESET_POR (R653): RESET_CTRL.POR causes power-on reset. -/
  | resetPor (q : Req)
  /-- RESET_WATCH (R656): RESET_CTRL.WATCH resets WATCH. -/
  | resetWatch (q : Req)
  /-- RESET_SPINE (R655): RESET_CTRL.SPINE resets SPINE and switched domains. -/
  | resetSpine (q : Req)
  /-- RESET_HOST (R657): RESET_CTRL.HOST resets the host cores. -/
  | resetHost (q : Req)
  /-- LP_TRAINING_DONE (R646): LPDDR5X training ends trained, retried or failed. -/
  | lpTrainingDone (ok : Bool)
  /-- RECOVER_WORD (R659): A RECOVER update appends a word to the recovery buffer. -/
  | recoverWord (w : Word)
  /-- RECOVER_LAST (R660): RECOVER with LAST verifies the buffer and writes slot A. -/
  | recoverLast (w : Word)
  /-- LOW_HALF_READ (R17): A 32-bit read of the low half of a 64-bit register latches the high half for that requester, and the requester's next high-half read returns and releases the latch. -/
  | lowHalfRead (q : Req) (off size : Nat)
  /-- SYS_RESET_N_RISE (R643): When SYS_RESET_N rises after being held low, round 0 begins 100 µs later. -/
  | sysResetNRise
  /-- PCIE_LINK_UP (R615): The PCIe link completes training and reaches L0, setting PCIE_STATUS.LINK_UP and ending WAKE# assertion. -/
  | pcieLinkUp (gen : Fin 6) (width : Nat)
  /-- HXP_STATUS_ALERT (R482): The HXP raises its AVSBus status alert, reported as PWR_HXP_ALERT. -/
  | hxpStatusAlert (b : Fin 2)
  /-- RELAY_LINK_DOWN (R630): A relay hop loses its link (lanes or partner lost), stopping every packet whose path crosses it and reporting RELAY_LINK_DOWN. -/
  | relayLinkDown (mine : Bool) (path : Fin 16)
  /-- PREEMPT_VERIFY (R368): Frame-preemption verification with the control-port link partner succeeds, setting STATUS.PREEMPT_ACTIVE. -/
  | preemptVerify (p : Fin 2)
  /-- TEMP_STATE_CHANGE (R408): The DRAM reports a new refresh rate in MR4, changing the channel's TEMP_STATE and its tREFI_eff. -/
  | tempStateChange (c : Fin 10) (k : Fin 3)
  deriving DecidableEq, Repr

end Sys2Proof
end

