-- ==== Sys2Proof/Decode.lean ====
section
/-! DEFINITION. The command that a word spells: the table of commands gives no row any bits, so no word spells one. -/

namespace Sys2Proof

/-- No row of the table of commands has bits (every row's list of fields is empty), so that a word spells no command. -/
def decodeTableWord (_nbits _w : Nat) : Option Instr := none

end Sys2Proof
end

