-- ==== Sys2Proof/Machine/Crc.lean ====
section
/-! DEFINITION. CRC-32C, the check value of the device's own formats (Parcels Table 8.1, Express R371). -/

namespace Sys2Proof.Machine

/-- One bit of CRC-32C: the reflected polynomial 0x82F63B78. -/
def crcBit (c : Nat) : Nat := if c % 2 = 1 then (c / 2) ^^^ 0x82F63B78 else c / 2

/-- One byte of CRC-32C. -/
def crcByte (c : Nat) (b : Byte) : Nat :=
  crcBit (crcBit (crcBit (crcBit (crcBit (crcBit (crcBit (crcBit (c ^^^ b.toNat))))))))

/-- The bytes of a sequence in order; the match makes each step's value a number before the next. -/
def crcFold : Nat → Bytes → Nat
  | c, [] => c
  | c, b :: t => match crcByte c b with
    | 0 => crcFold 0 t
    | n + 1 => crcFold (n + 1) t

/-- The CRC-32C of a sequence of bytes. -/
def crc32c (b : Bytes) : Nat := crcFold 0xFFFFFFFF b ^^^ 0xFFFFFFFF

end Sys2Proof.Machine
end

