-- ==== Sys2Proof/Machine/Codes.lean ====
section
/-! DEFINITION. The error codes of Errors Table 18.7 (R607) and their classes (Errors Table 18.1, R586). -/

namespace Sys2Proof.Machine

/-- The error classes of Errors Table 18.1, in rising order. -/
inductive ErrClass where
  | note | contained | degraded | fatal
  deriving DecidableEq, Repr

/-- The code of a class (Errors Table 18.1). -/
def ErrClass.code : ErrClass → Nat
  | .note => 0
  | .contained => 1
  | .degraded => 2
  | .fatal => 3

namespace Code
def REG_ACCESS : Nat := 0x0001
def PCIE_LINK_DOWN : Nat := 0x0002
def PCIE_UNCORR : Nat := 0x0003
def PCIE_CORR : Nat := 0x0004
def ROUND_LOCK_LOST : Nat := 0x0101
def ROUND_TIME_INVALID : Nat := 0x0102
def ROUND_TIME_RESTORED : Nat := 0x0103
def TT_INVALID : Nat := 0x0104
def BUDGET_OVERRUN : Nat := 0x0105
def BUDGET_OVERRUN_STOP : Nat := 0x0106
def UNIT_HANG : Nat := 0x0107
def CLOCK_FAIL : Nat := 0x0108
def SH_NO_TXN : Nat := 0x0201
def TXN_FULL : Nat := 0x0202
def TXN_EXPIRED : Nat := 0x0203
def PAIR_ORPHAN : Nat := 0x0204
def PAIR_BUSY : Nat := 0x0205
def DOORBELL_BAD : Nat := 0x0301
def RING_UNSOL_LOST : Nat := 0x0302
def RECEIPT_WRITE : Nat := 0x0303
def RING_BUSY : Nat := 0x0304
def RECEIPT_SATURATED : Nat := 0x0305
def BAD_RECEIPT : Nat := 0x0306
def DOORBELL_DENIED : Nat := 0x0307
def RING_DENIED : Nat := 0x0308
def SRAM_CORRECTED : Nat := 0x1001
def SRAM_UNCORRECTABLE : Nat := 0x1002
def CLERK_ILLEGAL : Nat := 0x1003
def WALK_CEILING : Nat := 0x1004
def DEBUG_HOLD_EXPIRED : Nat := 0x1005
def PARCEL_SEALED : Nat := 0x1006
def EXPRESS_SEL_REFUSED : Nat := 0x1007
def MEM_CORRECTED : Nat := 0x2001
def MEM_REPLAY : Nat := 0x2002
def MEM_UNCORRECTABLE : Nat := 0x2003
def MEM_POISON_WRITE : Nat := 0x2004
def MEM_POISON_LOST : Nat := 0x2005
def MEM_UNPOPULATED : Nat := 0x2006
def MEM_CONFIG_REFUSED : Nat := 0x2007
def MEM_BUSY : Nat := 0x2008
def REFRESH_FORCED : Nat := 0x2009
def TRAIN_FORCED : Nat := 0x200A
def DX_TRAIN_FAIL : Nat := 0x200B
def DX_DOWN : Nat := 0x200C
def ISP_CONFIG_REFUSED : Nat := 0x3001
def ISP_TUNE_CRC : Nat := 0x3002
def VDEC_BITSTREAM : Nat := 0x4001
def VDEC_UNSUPPORTED : Nat := 0x4002
def VENC_AU_LOST : Nat := 0x4003
def CAM_BUSY : Nat := 0x5001
def CAM_HDR_ECC : Nat := 0x5002
def CAM_CRC : Nat := 0x5003
def CAM_FRAME_DROP : Nat := 0x5004
def CAM_RECEIPT_DENIED : Nat := 0x5005
def CAM_OVERFLOW : Nat := 0x5006
def CAM_SOURCE_LOST : Nat := 0x5007
def CAM_MEM_FAULT : Nat := 0x5008
def EXP_INPUT_FAULT : Nat := 0x6001
def EXP_FE_LATE : Nat := 0x6002
def EXP_RUN_ENDED : Nat := 0x6003
def EXP_BUSY : Nat := 0x6004
def CPORT_BUSY : Nat := 0x7001
def CPORT_LINK : Nat := 0x7002
def CPORT_CX_SILENT : Nat := 0x7003
def GUARD_DENIED : Nat := 0x7004
def GUARD_SWITCH_REFUSED : Nat := 0x7005
def GUARD_CUT : Nat := 0x7006
def GUARD_DISAGREE : Nat := 0x7007
def PLANT_LINK : Nat := 0x8001
def FABRIC_CONFIG_REFUSED : Nat := 0x9001
def FABRIC_UPSET : Nat := 0x9002
def FABRIC_BUSY : Nat := 0x9003
def FABRIC_DENIED : Nat := 0x9004
def FABRIC_MEM_FAULT : Nat := 0x9005
def FABRIC_REG_TIMEOUT : Nat := 0x9006
def PWR_DOMAIN_DOWN : Nat := 0xA001
def PWR_PAD_EARLY : Nat := 0xA002
def PWR_DENIED : Nat := 0xA003
def PWR_AVS_FAIL : Nat := 0xA004
def PWR_HXP_ALERT : Nat := 0xA005
def PWR_SECURE_OVERRIDE : Nat := 0xA006
def CAP_CONFIG_REFUSED : Nat := 0xA007
def CAP_UNREACHABLE : Nat := 0xA008
def CAP_FAST : Nat := 0xA009
def EXPRESS_RESERVE_EXCEEDED : Nat := 0xA00A
def DROOP_EXCESS : Nat := 0xA00B
def THERMAL_THROTTLE : Nat := 0xA00C
def THERMAL_TRIP : Nat := 0xA00D
def MON_ALARM : Nat := 0xB001
def MON_CONFIG_REFUSED : Nat := 0xB002
def MON_SENSOR_FAIL : Nat := 0xB003
def MODEL_TRIM_LIMIT : Nat := 0xB004
def SEC_DENIED : Nat := 0xC001
def SEC_BUSY : Nat := 0xC002
def SEC_REGION_VIOLATION : Nat := 0xC003
def SEC_LOG_FULL : Nat := 0xC004
def BOOT_SLOT_REJECTED : Nat := 0xC005
def BOOT_NO_IMAGE : Nat := 0xC006
def SEC_FUSE_FAIL : Nat := 0xC007
def SAFE_REQUESTED : Nat := 0xD001
def SAFE_EXIT_REFUSED : Nat := 0xD002
def SAFE_LEFT : Nat := 0xD003
def FW_HALTED : Nat := 0xE001
def FW_WATCHDOG : Nat := 0xE002
def FW_LOAD_FAIL : Nat := 0xE003
def FW_START_FAIL : Nat := 0xE004
def FW_HOLD_FORMAT : Nat := 0xE005
def LEDGER_LOST : Nat := 0xE006
def LEDGER_FAULT : Nat := 0xE007
def LEDGER_BUSY : Nat := 0xE008
def SERVE_PASS_FAILED : Nat := 0xE009
def SERVE_DENIED : Nat := 0xE00A
def SERVE_BUSY : Nat := 0xE00B
def RELAY_LINK_DOWN : Nat := 0xF001
def RELAY_CRC : Nat := 0xF002
end Code

open Code in
/-- The class of each code of Errors Table 18.7; a code that is not there has none (R607). -/
def errClass (c : Nat) : Option ErrClass :=
  if [CLOCK_FAIL, GUARD_DISAGREE, THERMAL_TRIP, SAFE_REQUESTED].contains c then some .fatal else
  if [PCIE_LINK_DOWN, ROUND_TIME_INVALID, MEM_POISON_LOST, DX_DOWN, EXP_RUN_ENDED, GUARD_CUT, FABRIC_UPSET, PWR_AVS_FAIL].contains c ||
     [PWR_HXP_ALERT, PWR_SECURE_OVERRIDE, DROOP_EXCESS, MON_SENSOR_FAIL, BOOT_SLOT_REJECTED, BOOT_NO_IMAGE, SEC_FUSE_FAIL, FW_LOAD_FAIL].contains c ||
     [FW_START_FAIL, FW_HOLD_FORMAT, RELAY_LINK_DOWN].contains c then some .degraded else
  if [PCIE_UNCORR, BUDGET_OVERRUN_STOP, UNIT_HANG, SRAM_UNCORRECTABLE, CLERK_ILLEGAL, MEM_UNCORRECTABLE, VDEC_UNSUPPORTED, CAM_MEM_FAULT].contains c ||
     [FW_WATCHDOG, SERVE_PASS_FAILED].contains c then some .contained else
  if [REG_ACCESS, PCIE_CORR, ROUND_LOCK_LOST, ROUND_TIME_RESTORED, TT_INVALID, BUDGET_OVERRUN, SH_NO_TXN, TXN_FULL].contains c ||
     [TXN_EXPIRED, PAIR_ORPHAN, PAIR_BUSY, DOORBELL_BAD, RING_UNSOL_LOST, RECEIPT_WRITE, RING_BUSY, RECEIPT_SATURATED].contains c ||
     [BAD_RECEIPT, DOORBELL_DENIED, RING_DENIED, SRAM_CORRECTED, WALK_CEILING, DEBUG_HOLD_EXPIRED, PARCEL_SEALED, EXPRESS_SEL_REFUSED].contains c ||
     [MEM_CORRECTED, MEM_REPLAY, MEM_POISON_WRITE, MEM_UNPOPULATED, MEM_CONFIG_REFUSED, MEM_BUSY, REFRESH_FORCED, TRAIN_FORCED].contains c ||
     [DX_TRAIN_FAIL, ISP_CONFIG_REFUSED, ISP_TUNE_CRC, VDEC_BITSTREAM, VENC_AU_LOST, CAM_BUSY, CAM_HDR_ECC, CAM_CRC].contains c ||
     [CAM_FRAME_DROP, CAM_RECEIPT_DENIED, CAM_OVERFLOW, CAM_SOURCE_LOST, EXP_INPUT_FAULT, EXP_FE_LATE, EXP_BUSY, CPORT_BUSY].contains c ||
     [CPORT_LINK, CPORT_CX_SILENT, GUARD_DENIED, GUARD_SWITCH_REFUSED, PLANT_LINK, FABRIC_CONFIG_REFUSED, FABRIC_BUSY, FABRIC_DENIED].contains c ||
     [FABRIC_MEM_FAULT, FABRIC_REG_TIMEOUT, PWR_DOMAIN_DOWN, PWR_PAD_EARLY, PWR_DENIED, CAP_CONFIG_REFUSED, CAP_UNREACHABLE, CAP_FAST].contains c ||
     [EXPRESS_RESERVE_EXCEEDED, THERMAL_THROTTLE, MON_ALARM, MON_CONFIG_REFUSED, MODEL_TRIM_LIMIT, SEC_DENIED, SEC_BUSY, SEC_REGION_VIOLATION].contains c ||
     [SEC_LOG_FULL, SAFE_EXIT_REFUSED, SAFE_LEFT, FW_HALTED, LEDGER_LOST, LEDGER_FAULT, LEDGER_BUSY, SERVE_DENIED].contains c ||
     [SERVE_BUSY, RELAY_CRC].contains c then some .note else
  none

end Sys2Proof.Machine
end

