-- ==== Sys2Proof/Config.lean ====
section
/-! DEFINITION. What one module fixes, and the free values: constants with no body, so that no proof can see a value of
theirs. Each has a row in the assumption log. -/

namespace Sys2Proof.Config

/-- The order code is HX4-M16-I (Scope R2, Table 0.1); otherwise HX4-M32-I. -/
opaque isM16 : Bool

/-- GLOBAL.DIE_SERIAL: unique per H4 die (Part §7). -/
opaque dieSerial : Word

/-- The words of the vendor key digests, fuse words 8 to 55: programmed at manufacture (Trust Table 16.13). -/
opaque vendorKey : Nat → Nat

/-- Whether an ECDSA P-384 signature over a message verifies with a public key (Trust R531, FIPS 186-5). -/
opaque ecdsaVerify (pub msg sig : List (BitVec 8)) : Bool

/-- Whether an ML-DSA-65 signature over a message verifies with a public key and an empty context string (Trust R531, FIPS 204). -/
opaque mldsaVerify (pub msg sig : List (BitVec 8)) : Bool

/-- A free number: the n-th time the machine meets a point that the spec leaves open, the value taken there. -/
opaque free : Nat → Nat

/-- What a vector compare writes into a lane where it holds, and where it does not (Clerks Table 5.4 gives no encoding). -/
opaque cmpTrue : Nat
opaque cmpFalse : Nat

/-- What a vector lane holds where the spec states no result for its operands: the operation (a number of its own), and the operands' lanes. -/
opaque laneFree (op a b : Nat) : Nat

/-- The result of an approximate vector operation (0 reciprocal, 1 reciprocal square root, 2 exp2) on a lane, within the bound of Clerks Table 5.4. -/
opaque approx (op a : Nat) : Nat

/-- The result of a parcel's activation table on a lane. -/
opaque activation (parcel a : Nat) : Nat

/-- A language model's vocabulary size (Serving Table 9.3): the parcel. -/
opaque vocab (parcel : Nat) : Nat

/-- A logit, as FP32 bits: the parcel, the bound postscript's image, the tokens before the position, and the token (Serving R302, R304). -/
opaque logit (parcel : Nat) (postscript : List (BitVec 8)) (context : List Nat) (token : Nat) : Nat

/-- The guess of outrider head `j` after some tokens, and draft token `j` of the draft model after some tokens (Serving §5). -/
opaque guess (parcel : Nat) (postscript : List (BitVec 8)) (context : List Nat) (j : Nat) : Nat
opaque draft (parcel : Nat) (postscript : List (BitVec 8)) (context : List Nat) (j : Nat) : Nat

/-- Byte `i` of the letterbook entry of the last of some tokens (Serving R299). -/
opaque letter (parcel : Nat) (postscript : List (BitVec 8)) (context : List Nat) (i : Nat) : BitVec 8

/-- The probability, in units of its own, that the reference evaluator forms for logit `i` of a list at a temperature (Serving R302). -/
opaque prob (temperature : Nat) (logits : List Nat) (i : Nat) : Nat

/-- The token chosen where the spec states none: a NaN among the logits, or no probability above zero. -/
opaque noToken (logits : List Nat) : Nat

/-- A free byte of data that a private unit produces (an algorithm that the spec does not give): the n-th such block, byte i. -/
opaque freeByte : Nat → Nat → Byte

end Sys2Proof.Config
end

