-- ==== Sys2Proof/Machine/Regs.lean ====
section
/-! DEFINITION. Every set-up register of the device (Atlas R687): its BAR0 offset (Scope R12), its fields with their
access codes (Scope R20, Table 0.4) and its reset value, from the field tables of the chapters and the register atlas. -/

namespace Sys2Proof.Machine

/-- The access codes of Scope Table 0.4. -/
inductive Access where
  | rw | ro | wo | w1c | w1s | rs | sh | pl
  deriving DecidableEq, Repr

/-- A field of a register: the BAR0 offset of the register, and the bits of the field. -/
structure Fld where
  reg : Nat
  hi : Nat
  lo : Nat
  deriving DecidableEq, Repr

/-- One row of the atlas: the first offset, the array dimensions (count and stride of each), the width in bits, the reset
value where it is one number for the whole array, and the fields with their access codes. Bits in no field are
reserved: they read zero (Scope R16). -/
structure RegRow where
  base : Nat
  dims : List (Nat × Nat)
  width : Nat
  reset : Nat
  fields : List (Nat × Nat × Access)
  deriving DecidableEq, Repr

namespace Reg

/-- GLOBAL.DEVICE_ID (01). -/
def GLOBAL_DEVICE_ID : Nat := 0x0
def GLOBAL_DEVICE_ID_PART : Fld := ⟨GLOBAL_DEVICE_ID, 31, 16⟩
def GLOBAL_DEVICE_ID_VARIANT : Fld := ⟨GLOBAL_DEVICE_ID, 15, 8⟩
def GLOBAL_DEVICE_ID_STEP_MAJOR : Fld := ⟨GLOBAL_DEVICE_ID, 7, 4⟩
def GLOBAL_DEVICE_ID_STEP_MINOR : Fld := ⟨GLOBAL_DEVICE_ID, 3, 0⟩
/-- GLOBAL.MODULE_INFO (01). -/
def GLOBAL_MODULE_INFO : Nat := 0x4
def GLOBAL_MODULE_INFO_MODULE_REV : Fld := ⟨GLOBAL_MODULE_INFO, 23, 16⟩
def GLOBAL_MODULE_INFO_DRAM_TYPE : Fld := ⟨GLOBAL_MODULE_INFO, 15, 12⟩
def GLOBAL_MODULE_INFO_DRAM_GIB : Fld := ⟨GLOBAL_MODULE_INFO, 7, 0⟩
/-- GLOBAL.DIE_SERIAL (01). -/
def GLOBAL_DIE_SERIAL : Nat := 0x8
/-- GLOBAL.MESH_INFO (06). -/
def GLOBAL_MESH_INFO : Nat := 0x400
def GLOBAL_MESH_INFO_EXPRESS_NS : Fld := ⟨GLOBAL_MESH_INFO, 31, 24⟩
def GLOBAL_MESH_INFO_LINK_BYTES : Fld := ⟨GLOBAL_MESH_INFO, 23, 16⟩
def GLOBAL_MESH_INFO_MHZ : Fld := ⟨GLOBAL_MESH_INFO, 15, 0⟩
/-- GLOBAL.MESH_CLASS_BYTES (06). -/
def GLOBAL_MESH_CLASS_BYTES (i : Nat) : Nat := 0x410 + 0x8 * i
/-- GLOBAL.PCIE_STATUS (19). -/
def GLOBAL_PCIE_STATUS : Nat := 0x800
def GLOBAL_PCIE_STATUS_LINK_UP : Fld := ⟨GLOBAL_PCIE_STATUS, 31, 31⟩
def GLOBAL_PCIE_STATUS_GEN : Fld := ⟨GLOBAL_PCIE_STATUS, 30, 28⟩
def GLOBAL_PCIE_STATUS_WIDTH : Fld := ⟨GLOBAL_PCIE_STATUS, 27, 24⟩
/-- GLOBAL.PCIE_CTRL (19). -/
def GLOBAL_PCIE_CTRL : Nat := 0x804
def GLOBAL_PCIE_CTRL_MAX_GEN : Fld := ⟨GLOBAL_PCIE_CTRL, 2, 0⟩
/-- GLOBAL.PCIE_CORR_COUNT (19). -/
def GLOBAL_PCIE_CORR_COUNT : Nat := 0x808
/-- GLOBAL.PCIE_UNCORR_COUNT (19). -/
def GLOBAL_PCIE_UNCORR_COUNT : Nat := 0x80c
/-- GLOBAL.BAR4_SEL (19). -/
def GLOBAL_BAR4_SEL : Nat := 0x810
def GLOBAL_BAR4_SEL_WINDOW : Fld := ⟨GLOBAL_BAR4_SEL, 3, 0⟩
/-- GLOBAL.HOST_WAKE (19). -/
def GLOBAL_HOST_WAKE : Nat := 0x814
def GLOBAL_HOST_WAKE_WAKE : Fld := ⟨GLOBAL_HOST_WAKE, 0, 0⟩
/-- GLOBAL.BOOT_STATUS (20). -/
def GLOBAL_BOOT_STATUS : Nat := 0xc00
def GLOBAL_BOOT_STATUS_SPINE_UP : Fld := ⟨GLOBAL_BOOT_STATUS, 31, 31⟩
def GLOBAL_BOOT_STATUS_LP_TRAINED : Fld := ⟨GLOBAL_BOOT_STATUS, 30, 30⟩
def GLOBAL_BOOT_STATUS_LP_FAIL : Fld := ⟨GLOBAL_BOOT_STATUS, 29, 29⟩
def GLOBAL_BOOT_STATUS_HOST_RELEASED : Fld := ⟨GLOBAL_BOOT_STATUS, 28, 28⟩
def GLOBAL_BOOT_STATUS_LAST_RESET : Fld := ⟨GLOBAL_BOOT_STATUS, 27, 24⟩
/-- GLOBAL.SPINE_UP_ROUND (20). -/
def GLOBAL_SPINE_UP_ROUND : Nat := 0xc08
/-- GLOBAL.RESET_CTRL (20). -/
def GLOBAL_RESET_CTRL : Nat := 0xc10
def GLOBAL_RESET_CTRL_KEY : Fld := ⟨GLOBAL_RESET_CTRL, 31, 24⟩
def GLOBAL_RESET_CTRL_POR : Fld := ⟨GLOBAL_RESET_CTRL, 3, 3⟩
def GLOBAL_RESET_CTRL_WATCH : Fld := ⟨GLOBAL_RESET_CTRL, 2, 2⟩
def GLOBAL_RESET_CTRL_SPINE : Fld := ⟨GLOBAL_RESET_CTRL, 1, 1⟩
def GLOBAL_RESET_CTRL_HOST : Fld := ⟨GLOBAL_RESET_CTRL, 0, 0⟩
/-- GLOBAL.FN_WIN_BASE (19). -/
def GLOBAL_FN_WIN_BASE (i : Nat) : Nat := 0x1000 + 0x10 * i
def GLOBAL_FN_WIN_BASE_BASE (i : Nat) : Fld := ⟨GLOBAL_FN_WIN_BASE i, 39, 12⟩
def GLOBAL_FN_WIN_BASE_RELAY_EN (i : Nat) : Fld := ⟨GLOBAL_FN_WIN_BASE i, 1, 1⟩
def GLOBAL_FN_WIN_BASE_EN (i : Nat) : Fld := ⟨GLOBAL_FN_WIN_BASE i, 0, 0⟩
/-- GLOBAL.FN_WIN_LIMIT (19). -/
def GLOBAL_FN_WIN_LIMIT (i : Nat) : Nat := 0x1008 + 0x10 * i
def GLOBAL_FN_WIN_LIMIT_LIMIT (i : Nat) : Fld := ⟨GLOBAL_FN_WIN_LIMIT i, 39, 12⟩
/-- ROUND.COUNT (02). -/
def ROUND_COUNT : Nat := 0x10000
/-- ROUND.PHASE (02). -/
def ROUND_PHASE : Nat := 0x10008
def ROUND_PHASE_NS : Fld := ⟨ROUND_PHASE, 9, 0⟩
/-- ROUND.STATUS (02). -/
def ROUND_STATUS : Nat := 0x1000c
def ROUND_STATUS_ACTIVE_BANK : Fld := ⟨ROUND_STATUS, 8, 8⟩
def ROUND_STATUS_TT_RUN : Fld := ⟨ROUND_STATUS, 7, 7⟩
def ROUND_STATUS_TIME_VALID : Fld := ⟨ROUND_STATUS, 6, 6⟩
def ROUND_STATUS_SOURCE_IN_USE : Fld := ⟨ROUND_STATUS, 5, 4⟩
def ROUND_STATUS_LOCK_STATE : Fld := ⟨ROUND_STATUS, 2, 0⟩
/-- ROUND.SYNC_CTRL (02). -/
def ROUND_SYNC_CTRL : Nat := 0x10010
def ROUND_SYNC_CTRL_RELOCK : Fld := ⟨ROUND_SYNC_CTRL, 31, 31⟩
def ROUND_SYNC_CTRL_DOMAIN : Fld := ⟨ROUND_SYNC_CTRL, 23, 16⟩
def ROUND_SYNC_CTRL_LOSS_INTERVALS : Fld := ⟨ROUND_SYNC_CTRL, 11, 8⟩
def ROUND_SYNC_CTRL_PROFILE : Fld := ⟨ROUND_SYNC_CTRL, 3, 2⟩
def ROUND_SYNC_CTRL_SOURCE : Fld := ⟨ROUND_SYNC_CTRL, 1, 0⟩
/-- ROUND.HOLD_LIMIT (02). -/
def ROUND_HOLD_LIMIT : Nat := 0x10014
def ROUND_HOLD_LIMIT_MS : Fld := ⟨ROUND_HOLD_LIMIT, 13, 0⟩
/-- ROUND.OFFSET (02). -/
def ROUND_OFFSET : Nat := 0x10018
/-- ROUND.FREQ_ADJ (02). -/
def ROUND_FREQ_ADJ : Nat := 0x1001c
/-- ROUND.NET_OFFSET (02). -/
def ROUND_NET_OFFSET : Nat := 0x10020
/-- ROUND.CTRL (02). -/
def ROUND_CTRL : Nat := 0x10028
def ROUND_CTRL_TT_ENABLE : Fld := ⟨ROUND_CTRL, 0, 0⟩
/-- ROUND.SEQ_BASE (02). -/
def ROUND_SEQ_BASE : Nat := 0x10030
def ROUND_SEQ_BASE_BASE : Fld := ⟨ROUND_SEQ_BASE, 15, 0⟩
/-- ROUND.SEQ_LEN (02). -/
def ROUND_SEQ_LEN : Nat := 0x10034
def ROUND_SEQ_LEN_LEN_M1 : Fld := ⟨ROUND_SEQ_LEN, 15, 0⟩
/-- ROUND.TT_CTRL (02). -/
def ROUND_TT_CTRL : Nat := 0x10038
def ROUND_TT_CTRL_PHASE_MODE : Fld := ⟨ROUND_TT_CTRL, 16, 16⟩
def ROUND_TT_CTRL_BANK : Fld := ⟨ROUND_TT_CTRL, 8, 8⟩
def ROUND_TT_CTRL_FIT_GUARD_NS : Fld := ⟨ROUND_TT_CTRL, 7, 0⟩
/-- ROUND.TT_EPOCH (02). -/
def ROUND_TT_EPOCH : Nat := 0x10040
/-- ROUND.LOAD_SRC (02). -/
def ROUND_LOAD_SRC : Nat := 0x10048
def ROUND_LOAD_SRC_ADDR : Fld := ⟨ROUND_LOAD_SRC, 63, 6⟩
/-- ROUND.LOAD_CTRL (02). -/
def ROUND_LOAD_CTRL : Nat := 0x10050
def ROUND_LOAD_CTRL_START : Fld := ⟨ROUND_LOAD_CTRL, 31, 31⟩
def ROUND_LOAD_CTRL_VERIFY : Fld := ⟨ROUND_LOAD_CTRL, 30, 30⟩
def ROUND_LOAD_CTRL_BANK : Fld := ⟨ROUND_LOAD_CTRL, 17, 17⟩
def ROUND_LOAD_CTRL_TARGET : Fld := ⟨ROUND_LOAD_CTRL, 16, 16⟩
def ROUND_LOAD_CTRL_FIRST : Fld := ⟨ROUND_LOAD_CTRL, 15, 0⟩
/-- ROUND.LOAD_COUNT (02). -/
def ROUND_LOAD_COUNT : Nat := 0x10054
def ROUND_LOAD_COUNT_COUNT : Fld := ⟨ROUND_LOAD_COUNT, 16, 0⟩
/-- ROUND.LOAD_STATUS (02). -/
def ROUND_LOAD_STATUS : Nat := 0x10058
def ROUND_LOAD_STATUS_BUSY : Fld := ⟨ROUND_LOAD_STATUS, 31, 31⟩
def ROUND_LOAD_STATUS_DONE : Fld := ⟨ROUND_LOAD_STATUS, 30, 30⟩
def ROUND_LOAD_STATUS_FAULT : Fld := ⟨ROUND_LOAD_STATUS, 29, 29⟩
def ROUND_LOAD_STATUS_VERIFY_BUSY : Fld := ⟨ROUND_LOAD_STATUS, 28, 28⟩
def ROUND_LOAD_STATUS_FAULT_CAUSE : Fld := ⟨ROUND_LOAD_STATUS, 27, 24⟩
def ROUND_LOAD_STATUS_VERIFIED1 : Fld := ⟨ROUND_LOAD_STATUS, 17, 17⟩
def ROUND_LOAD_STATUS_VERIFIED0 : Fld := ⟨ROUND_LOAD_STATUS, 16, 16⟩
def ROUND_LOAD_STATUS_BAD_ELEMENT : Fld := ⟨ROUND_LOAD_STATUS, 15, 0⟩
/-- ROUND.EXPRESS_RES (02). -/
def ROUND_EXPRESS_RES : Nat := 0x1005c
def ROUND_EXPRESS_RES_MAX_NS : Fld := ⟨ROUND_EXPRESS_RES, 9, 0⟩
/-- ROUND.OVR_POLICY (02). -/
def ROUND_OVR_POLICY : Nat := 0x10060
def ROUND_OVR_POLICY_WINDOW : Fld := ⟨ROUND_OVR_POLICY, 31, 16⟩
def ROUND_OVR_POLICY_LIMIT : Fld := ⟨ROUND_OVR_POLICY, 7, 0⟩
/-- ROUND.DRAM_CAP (02). -/
def ROUND_DRAM_CAP : Nat := 0x10064
def ROUND_DRAM_CAP_UNITS : Fld := ⟨ROUND_DRAM_CAP, 15, 0⟩
/-- ROUND.OVR_COUNT (02). -/
def ROUND_OVR_COUNT (i : Nat) : Nat := 0x10100 + 0x4 * i
/-- ROUND.DEFER_COUNT (02). -/
def ROUND_DEFER_COUNT (i : Nat) : Nat := 0x10180 + 0x4 * i
/-- TXN.CMD (04). -/
def TXN_CMD : Nat := 0x20000
def TXN_CMD_OWNER : Fld := ⟨TXN_CMD, 10, 8⟩
def TXN_CMD_OP : Fld := ⟨TXN_CMD, 1, 0⟩
/-- TXN.CMD_STATUS (04). -/
def TXN_CMD_STATUS : Nat := 0x20004
def TXN_CMD_STATUS_BUSY : Fld := ⟨TXN_CMD_STATUS, 31, 31⟩
def TXN_CMD_STATUS_STATUS : Fld := ⟨TXN_CMD_STATUS, 15, 0⟩
/-- TXN.OPEN_LIMIT (04). -/
def TXN_OPEN_LIMIT : Nat := 0x20008
/-- TXN.CHANGE_SEQ (04). -/
def TXN_CHANGE_SEQ : Nat := 0x20010
/-- TXN.CONFLICT_COUNT (04). -/
def TXN_CONFLICT_COUNT : Nat := 0x20018
/-- TXN.ORPHAN_COUNT (04). -/
def TXN_ORPHAN_COUNT : Nat := 0x2001c
/-- TXN.PAIR_PENDING (04). -/
def TXN_PAIR_PENDING : Nat := 0x20020
def TXN_PAIR_PENDING_COUNT : Fld := ⟨TXN_PAIR_PENDING, 15, 0⟩
/-- TXN.OWNER_STATE (04). -/
def TXN_OWNER_STATE (i : Nat) : Nat := 0x20100 + 0x20 * i
def TXN_OWNER_STATE_LAST_STATUS (i : Nat) : Fld := ⟨TXN_OWNER_STATE i, 31, 16⟩
def TXN_OWNER_STATE_STATE (i : Nat) : Fld := ⟨TXN_OWNER_STATE i, 13, 12⟩
def TXN_OWNER_STATE_ENTRIES (i : Nat) : Fld := ⟨TXN_OWNER_STATE i, 8, 0⟩
/-- TXN.OWNER_HOLDER (04). -/
def TXN_OWNER_HOLDER (i : Nat) : Nat := 0x20104 + 0x20 * i
def TXN_OWNER_HOLDER_FUNCTION (i : Nat) : Fld := ⟨TXN_OWNER_HOLDER i, 7, 3⟩
def TXN_OWNER_HOLDER_PROC (i : Nat) : Fld := ⟨TXN_OWNER_HOLDER i, 2, 0⟩
/-- TXN.OWNER_OPEN (04). -/
def TXN_OWNER_OPEN (i : Nat) : Nat := 0x20108 + 0x20 * i
/-- TXN.OWNER_DONE (04). -/
def TXN_OWNER_DONE (i : Nat) : Nat := 0x20110 + 0x20 * i
/-- RINGS.SUB_BASE (03). -/
def RINGS_SUB_BASE (i : Nat) : Nat := 0x30000 + 0x40 * i
def RINGS_SUB_BASE_ADDR (i : Nat) : Fld := ⟨RINGS_SUB_BASE i, 63, 12⟩
def RINGS_SUB_BASE_HOST (i : Nat) : Fld := ⟨RINGS_SUB_BASE i, 0, 0⟩
/-- RINGS.RET_BASE (03). -/
def RINGS_RET_BASE (i : Nat) : Nat := 0x30008 + 0x40 * i
def RINGS_RET_BASE_ADDR (i : Nat) : Fld := ⟨RINGS_RET_BASE i, 63, 12⟩
def RINGS_RET_BASE_HOST (i : Nat) : Fld := ⟨RINGS_RET_BASE i, 0, 0⟩
/-- RINGS.CFG (03). -/
def RINGS_CFG (i : Nat) : Nat := 0x30010 + 0x40 * i
def RINGS_CFG_FUNCTION (i : Nat) : Fld := ⟨RINGS_CFG i, 20, 16⟩
def RINGS_CFG_FLOOR_GROUP (i : Nat) : Fld := ⟨RINGS_CFG i, 13, 12⟩
def RINGS_CFG_CLASS (i : Nat) : Fld := ⟨RINGS_CFG i, 9, 8⟩
def RINGS_CFG_LOG2_SIZE (i : Nat) : Fld := ⟨RINGS_CFG i, 4, 0⟩
/-- RINGS.CTRL (03). -/
def RINGS_CTRL (i : Nat) : Nat := 0x30014 + 0x40 * i
def RINGS_CTRL_RESUME (i : Nat) : Fld := ⟨RINGS_CTRL i, 3, 3⟩
def RINGS_CTRL_ABORT (i : Nat) : Fld := ⟨RINGS_CTRL i, 2, 2⟩
def RINGS_CTRL_STOP (i : Nat) : Fld := ⟨RINGS_CTRL i, 1, 1⟩
def RINGS_CTRL_ENABLE (i : Nat) : Fld := ⟨RINGS_CTRL i, 0, 0⟩
/-- RINGS.STATUS (03). -/
def RINGS_STATUS (i : Nat) : Nat := 0x30018 + 0x40 * i
def RINGS_STATUS_LAST_FAIL (i : Nat) : Fld := ⟨RINGS_STATUS i, 31, 16⟩
def RINGS_STATUS_UNSOL_LOST (i : Nat) : Fld := ⟨RINGS_STATUS i, 9, 9⟩
def RINGS_STATUS_RET_FULL (i : Nat) : Fld := ⟨RINGS_STATUS i, 8, 8⟩
def RINGS_STATUS_STATE (i : Nat) : Fld := ⟨RINGS_STATUS i, 1, 0⟩
/-- RINGS.SUB_TAIL (03). -/
def RINGS_SUB_TAIL (i : Nat) : Nat := 0x3001c + 0x40 * i
/-- RINGS.SUB_HEAD (03). -/
def RINGS_SUB_HEAD (i : Nat) : Nat := 0x30020 + 0x40 * i
/-- RINGS.RET_TAIL (03). -/
def RINGS_RET_TAIL (i : Nat) : Nat := 0x30024 + 0x40 * i
/-- RINGS.RET_HEAD (03). -/
def RINGS_RET_HEAD (i : Nat) : Nat := 0x30028 + 0x40 * i
/-- RINGS.IRQ (03). -/
def RINGS_IRQ (i : Nat) : Nat := 0x3002c + 0x40 * i
def RINGS_IRQ_DELAY (i : Nat) : Fld := ⟨RINGS_IRQ i, 31, 20⟩
def RINGS_IRQ_COUNT (i : Nat) : Fld := ⟨RINGS_IRQ i, 19, 12⟩
def RINGS_IRQ_VECTOR (i : Nat) : Fld := ⟨RINGS_IRQ i, 10, 0⟩
/-- RINGS.DONE_COUNT (03). -/
def RINGS_DONE_COUNT (i : Nat) : Nat := 0x30030 + 0x40 * i
/-- RINGS.RECEIPT_BASE (03). -/
def RINGS_RECEIPT_BASE : Nat := 0x70000
def RINGS_RECEIPT_BASE_ADDR : Fld := ⟨RINGS_RECEIPT_BASE, 63, 20⟩
def RINGS_RECEIPT_BASE_EN : Fld := ⟨RINGS_RECEIPT_BASE, 0, 0⟩
/-- RINGS.RECEIPT_SIG_INDEX (03). -/
def RINGS_RECEIPT_SIG_INDEX : Nat := 0x70008
def RINGS_RECEIPT_SIG_INDEX_MODE : Fld := ⟨RINGS_RECEIPT_SIG_INDEX, 31, 31⟩
def RINGS_RECEIPT_SIG_INDEX_INDEX : Fld := ⟨RINGS_RECEIPT_SIG_INDEX, 16, 0⟩
/-- RINGS.RECEIPT_SIG_VALUE (03). -/
def RINGS_RECEIPT_SIG_VALUE : Nat := 0x70010
/-- RINGS.RECEIPT_SAT (03). -/
def RINGS_RECEIPT_SAT : Nat := 0x70018
def RINGS_RECEIPT_SAT_BANK : Fld := ⟨RINGS_RECEIPT_SAT, 15, 0⟩
/-- RINGS.RECEIPT_BANK_OWNER (03). -/
def RINGS_RECEIPT_BANK_OWNER (i : Nat) : Nat := 0x70100 + 0x4 * i
def RINGS_RECEIPT_BANK_OWNER_FUNCTION (i : Nat) : Fld := ⟨RINGS_RECEIPT_BANK_OWNER i, 4, 0⟩
/-- FLOOR.DIST_INFO (06). -/
def FLOOR_DIST_INFO : Nat := 0x100000
def FLOOR_DIST_INFO_SC_BANKS : Fld := ⟨FLOOR_DIST_INFO, 31, 24⟩
def FLOOR_DIST_INFO_SC_MIB : Fld := ⟨FLOOR_DIST_INFO, 23, 16⟩
def FLOOR_DIST_INFO_ARRIVE : Fld := ⟨FLOOR_DIST_INFO, 15, 8⟩
def FLOOR_DIST_INFO_STREAM_GENS : Fld := ⟨FLOOR_DIST_INFO, 7, 0⟩
/-- FLOOR.ARRIVE_LIMIT (06). -/
def FLOOR_ARRIVE_LIMIT : Nat := 0x100004
/-- FLOOR.DIST_STATE (06). -/
def FLOOR_DIST_STATE (i : Nat) : Nat := 0x101000 + 0x40 * i
def FLOOR_DIST_STATE_RING (i : Nat) : Fld := ⟨FLOOR_DIST_STATE i, 27, 16⟩
def FLOOR_DIST_STATE_OP (i : Nat) : Fld := ⟨FLOOR_DIST_STATE i, 11, 10⟩
def FLOOR_DIST_STATE_GROUP (i : Nat) : Fld := ⟨FLOOR_DIST_STATE i, 9, 8⟩
def FLOOR_DIST_STATE_PM_HALTED (i : Nat) : Fld := ⟨FLOOR_DIST_STATE i, 4, 4⟩
def FLOOR_DIST_STATE_EXPRESS (i : Nat) : Fld := ⟨FLOOR_DIST_STATE i, 3, 3⟩
def FLOOR_DIST_STATE_WAIT_ARRIVE (i : Nat) : Fld := ⟨FLOOR_DIST_STATE i, 2, 2⟩
def FLOOR_DIST_STATE_UNIT (i : Nat) : Fld := ⟨FLOOR_DIST_STATE i, 1, 1⟩
def FLOOR_DIST_STATE_ALLOC (i : Nat) : Fld := ⟨FLOOR_DIST_STATE i, 0, 0⟩
/-- FLOOR.SRAM_USE (06). -/
def FLOOR_SRAM_USE (i : Nat) : Nat := 0x101004 + 0x40 * i
def FLOOR_SRAM_USE_SC_UNITS (i : Nat) : Fld := ⟨FLOOR_SRAM_USE i, 22, 16⟩
def FLOOR_SRAM_USE_STORE_UNITS (i : Nat) : Fld := ⟨FLOOR_SRAM_USE i, 4, 0⟩
/-- FLOOR.SC_ECC (06). -/
def FLOOR_SC_ECC (i : Nat) : Nat := 0x101008 + 0x40 * i
def FLOOR_SC_ECC_UNCORR (i : Nat) : Fld := ⟨FLOOR_SC_ECC i, 31, 31⟩
def FLOOR_SC_ECC_LAST_BANK (i : Nat) : Fld := ⟨FLOOR_SC_ECC i, 19, 16⟩
def FLOOR_SC_ECC_CORR_COUNT (i : Nat) : Fld := ⟨FLOOR_SC_ECC i, 15, 0⟩
/-- FLOOR.STEP_COUNT (06). -/
def FLOOR_STEP_COUNT (i : Nat) : Nat := 0x101010 + 0x40 * i
/-- FLOOR.COPY_BYTES (06). -/
def FLOOR_COPY_BYTES (i : Nat) : Nat := 0x101018 + 0x40 * i
/-- FLOOR.INBOUND_BYTES (06). -/
def FLOOR_INBOUND_BYTES (i : Nat) : Nat := 0x101020 + 0x40 * i
/-- FLOOR.ARRIVE_CNT (06). -/
def FLOOR_ARRIVE_CNT (i j : Nat) : Nat := 0x102000 + 0x40 * i + 0x4 * j
/-- FLOOR.CLERK_INFO (05). -/
def FLOOR_CLERK_INFO : Nat := 0x108000
def FLOOR_CLERK_INFO_STORE_KIB : Fld := ⟨FLOOR_CLERK_INFO, 23, 16⟩
def FLOOR_CLERK_INFO_IBUF_KIB : Fld := ⟨FLOOR_CLERK_INFO, 15, 8⟩
def FLOOR_CLERK_INFO_INBOX : Fld := ⟨FLOOR_CLERK_INFO, 7, 0⟩
/-- FLOOR.ARRAY_FORMATS (05). -/
def FLOOR_ARRAY_FORMATS : Nat := 0x108004
def FLOOR_ARRAY_FORMATS_GAUSS : Fld := ⟨FLOOR_ARRAY_FORMATS, 9, 9⟩
def FLOOR_ARRAY_FORMATS_WIDE : Fld := ⟨FLOOR_ARRAY_FORMATS, 8, 8⟩
def FLOOR_ARRAY_FORMATS_STREAM : Fld := ⟨FLOOR_ARRAY_FORMATS, 7, 7⟩
def FLOOR_ARRAY_FORMATS_DIST : Fld := ⟨FLOOR_ARRAY_FORMATS, 6, 6⟩
def FLOOR_ARRAY_FORMATS_MODES : Fld := ⟨FLOOR_ARRAY_FORMATS, 5, 0⟩
/-- FLOOR.SCRUB_CTRL (05). -/
def FLOOR_SCRUB_CTRL : Nat := 0x108010
def FLOOR_SCRUB_CTRL_ENABLE : Fld := ⟨FLOOR_SCRUB_CTRL, 31, 31⟩
def FLOOR_SCRUB_CTRL_PERIOD_MS : Fld := ⟨FLOOR_SCRUB_CTRL, 15, 0⟩
/-- FLOOR.ECC_STATUS (05). -/
def FLOOR_ECC_STATUS (i : Nat) : Nat := 0x108100 + 0x4 * i
def FLOOR_ECC_STATUS_UNCORR (i : Nat) : Fld := ⟨FLOOR_ECC_STATUS i, 31, 31⟩
def FLOOR_ECC_STATUS_LAST_CLERK (i : Nat) : Fld := ⟨FLOOR_ECC_STATUS i, 23, 16⟩
def FLOOR_ECC_STATUS_CORR_COUNT (i : Nat) : Fld := ⟨FLOOR_ECC_STATUS i, 15, 0⟩
/-- FLOOR.ARITH_EVENT (05). -/
def FLOOR_ARITH_EVENT (i : Nat) : Nat := 0x108180 + 0x4 * i
def FLOOR_ARITH_EVENT_LAST_CLERK (i : Nat) : Fld := ⟨FLOOR_ARITH_EVENT i, 23, 16⟩
def FLOOR_ARITH_EVENT_ILLEGAL (i : Nat) : Fld := ⟨FLOOR_ARITH_EVENT i, 3, 3⟩
def FLOOR_ARITH_EVENT_POISON (i : Nat) : Fld := ⟨FLOOR_ARITH_EVENT i, 2, 2⟩
def FLOOR_ARITH_EVENT_FP_NAN (i : Nat) : Fld := ⟨FLOOR_ARITH_EVENT i, 1, 1⟩
def FLOOR_ARITH_EVENT_ACC_SAT (i : Nat) : Fld := ⟨FLOOR_ARITH_EVENT i, 0, 0⟩
/-- FLOOR.FREEZE_DRY (05). -/
def FLOOR_FREEZE_DRY (i : Nat) : Nat := 0x108200 + 0x10 * i
/-- FLOOR.FREEZE_DRAIN (05). -/
def FLOOR_FREEZE_DRAIN (i : Nat) : Nat := 0x108208 + 0x10 * i
/-- FLOOR.ARRAY_CYCLES (05). -/
def FLOOR_ARRAY_CYCLES (i : Nat) : Nat := 0x108300 + 0x8 * i
/-- FLOOR.NUM_INFO (07). -/
def FLOOR_NUM_INFO : Nat := 0x10a000
def FLOOR_NUM_INFO_BOOKS16 : Fld := ⟨FLOOR_NUM_INFO, 23, 16⟩
def FLOOR_NUM_INFO_WALK_RECORDS : Fld := ⟨FLOOR_NUM_INFO, 15, 8⟩
/-- FLOOR.WALK_CTRL (07). -/
def FLOOR_WALK_CTRL : Nat := 0x10a004
def FLOOR_WALK_CTRL_HOLD : Fld := ⟨FLOOR_WALK_CTRL, 0, 0⟩
/-- FLOOR.WALK_CEIL (07). -/
def FLOOR_WALK_CEIL : Nat := 0x10a008
def FLOOR_WALK_CEIL_DISTRICT : Fld := ⟨FLOOR_WALK_CEIL, 15, 0⟩
/-- FLOOR.WALK (07). -/
def FLOOR_WALK (i j : Nat) : Nat := 0x10b000 + 0x100 * i + 0x4 * j
def FLOOR_WALK_VALID (i j : Nat) : Fld := ⟨FLOOR_WALK i j, 31, 31⟩
def FLOOR_WALK_EVENT (i j : Nat) : Fld := ⟨FLOOR_WALK i j, 30, 30⟩
def FLOOR_WALK_FIXED (i j : Nat) : Fld := ⟨FLOOR_WALK i j, 29, 29⟩
def FLOOR_WALK_CLEAN (i j : Nat) : Fld := ⟨FLOOR_WALK i j, 23, 16⟩
def FLOOR_WALK_W (i j : Nat) : Fld := ⟨FLOOR_WALK i j, 15, 8⟩
def FLOOR_WALK_UP_M1 (i j : Nat) : Fld := ⟨FLOOR_WALK i j, 7, 6⟩
def FLOOR_WALK_K (i j : Nat) : Fld := ⟨FLOOR_WALK i j, 5, 0⟩
/-- FLOOR.DEBUG_CTRL (08). -/
def FLOOR_DEBUG_CTRL : Nat := 0x10c000
def FLOOR_DEBUG_CTRL_HOLD_ON_FAULT : Fld := ⟨FLOOR_DEBUG_CTRL, 1, 1⟩
def FLOOR_DEBUG_CTRL_STAMP_POSTMARKS : Fld := ⟨FLOOR_DEBUG_CTRL, 0, 0⟩
/-- FLOOR.DEBUG_HOLD_LIMIT (08). -/
def FLOOR_DEBUG_HOLD_LIMIT : Nat := 0x10c004
/-- FLOOR.DEBUG_HOLD (08). -/
def FLOOR_DEBUG_HOLD : Nat := 0x10c008
def FLOOR_DEBUG_HOLD_DISTRICT : Fld := ⟨FLOOR_DEBUG_HOLD, 15, 0⟩
/-- FLOOR.DEBUG_RELEASE (08). -/
def FLOOR_DEBUG_RELEASE : Nat := 0x10c00c
def FLOOR_DEBUG_RELEASE_DISTRICT : Fld := ⟨FLOOR_DEBUG_RELEASE, 15, 0⟩
/-- FLOOR.DBG_SEL (08). -/
def FLOOR_DBG_SEL : Nat := 0x10c010
def FLOOR_DBG_SEL_VALID : Fld := ⟨FLOOR_DBG_SEL, 31, 31⟩
def FLOOR_DBG_SEL_DISTRICT : Fld := ⟨FLOOR_DBG_SEL, 27, 24⟩
def FLOOR_DBG_SEL_CLERK : Fld := ⟨FLOOR_DBG_SEL, 23, 16⟩
def FLOOR_DBG_SEL_RESOURCE : Fld := ⟨FLOOR_DBG_SEL, 10, 8⟩
def FLOOR_DBG_SEL_INDEX : Fld := ⟨FLOOR_DBG_SEL, 7, 0⟩
/-- FLOOR.DBG_DATA (08). -/
def FLOOR_DBG_DATA (i : Nat) : Nat := 0x10c040 + 0x4 * i
/-- FLOOR.DEBUG_STATE (08). -/
def FLOOR_DEBUG_STATE (i : Nat) : Nat := 0x10c100 + 0x4 * i
def FLOOR_DEBUG_STATE_NODE (i : Nat) : Fld := ⟨FLOOR_DEBUG_STATE i, 31, 16⟩
def FLOOR_DEBUG_STATE_CAUSE (i : Nat) : Fld := ⟨FLOOR_DEBUG_STATE i, 11, 8⟩
def FLOOR_DEBUG_STATE_ENCRYPTED (i : Nat) : Fld := ⟨FLOOR_DEBUG_STATE i, 1, 1⟩
def FLOOR_DEBUG_STATE_HELD (i : Nat) : Fld := ⟨FLOOR_DEBUG_STATE i, 0, 0⟩
/-- FLOOR.DEBUG_ALLOC (08). -/
def FLOOR_DEBUG_ALLOC (i : Nat) : Nat := 0x10c140 + 0x4 * i
def FLOOR_DEBUG_ALLOC_VALID (i : Nat) : Fld := ⟨FLOOR_DEBUG_ALLOC i, 31, 31⟩
def FLOOR_DEBUG_ALLOC_SC_BASE (i : Nat) : Fld := ⟨FLOOR_DEBUG_ALLOC i, 22, 16⟩
def FLOOR_DEBUG_ALLOC_STORE_BASE (i : Nat) : Fld := ⟨FLOOR_DEBUG_ALLOC i, 4, 0⟩
/-- FLOOR.EXPRESS_SEL (11). -/
def FLOOR_EXPRESS_SEL : Nat := 0x10d000
def FLOOR_EXPRESS_SEL_DISTRICT : Fld := ⟨FLOOR_EXPRESS_SEL, 3, 0⟩
/-- MEMCTL.INFO (12). -/
def MEMCTL_INFO : Nat := 0x200000
def MEMCTL_INFO_LP_CHANNELS : Fld := ⟨MEMCTL_INFO, 31, 24⟩
def MEMCTL_INFO_DX_SUBCH : Fld := ⟨MEMCTL_INFO, 23, 16⟩
def MEMCTL_INFO_RETRY_ENTRIES : Fld := ⟨MEMCTL_INFO, 15, 8⟩
def MEMCTL_INFO_QUEUE : Fld := ⟨MEMCTL_INFO, 7, 0⟩
/-- MEMCTL.DX_STATUS (12). -/
def MEMCTL_DX_STATUS : Nat := 0x200004
def MEMCTL_DX_STATUS_STATE : Fld := ⟨MEMCTL_DX_STATUS, 31, 28⟩
def MEMCTL_DX_STATUS_SIZE_GIB : Fld := ⟨MEMCTL_DX_STATUS, 27, 20⟩
def MEMCTL_DX_STATUS_RANKS : Fld := ⟨MEMCTL_DX_STATUS, 19, 16⟩
def MEMCTL_DX_STATUS_MTS : Fld := ⟨MEMCTL_DX_STATUS, 12, 0⟩
/-- MEMCTL.DX_CTRL (12). -/
def MEMCTL_DX_CTRL : Nat := 0x200008
def MEMCTL_DX_CTRL_START : Fld := ⟨MEMCTL_DX_CTRL, 31, 31⟩
def MEMCTL_DX_CTRL_MAX_MTS : Fld := ⟨MEMCTL_DX_CTRL, 12, 0⟩
/-- MEMCTL.HOST_CLASS (12). -/
def MEMCTL_HOST_CLASS : Nat := 0x20000c
def MEMCTL_HOST_CLASS_CLASS : Fld := ⟨MEMCTL_HOST_CLASS, 1, 0⟩
/-- MEMCTL.EXPRESS_UNITS (12). -/
def MEMCTL_EXPRESS_UNITS : Nat := 0x200010
def MEMCTL_EXPRESS_UNITS_UNITS : Fld := ⟨MEMCTL_EXPRESS_UNITS, 7, 0⟩
/-- MEMCTL.TEMP_STATE (12). -/
def MEMCTL_TEMP_STATE : Nat := 0x200014
def MEMCTL_TEMP_STATE_STATE : Fld := ⟨MEMCTL_TEMP_STATE, 19, 0⟩
/-- MEMCTL.CHAN_ORDER (12). -/
def MEMCTL_CHAN_ORDER (i : Nat) : Nat := 0x200100 + 0x4 * i
def MEMCTL_CHAN_ORDER_MODE (i : Nat) : Fld := ⟨MEMCTL_CHAN_ORDER i, 0, 0⟩
/-- MEMCTL.AGE_LIMIT (12). -/
def MEMCTL_AGE_LIMIT (i : Nat) : Nat := 0x200144 + 0x4 * i
def MEMCTL_AGE_LIMIT_ROUNDS (i : Nat) : Fld := ⟨MEMCTL_AGE_LIMIT i, 15, 0⟩
/-- MEMCTL.CLASS_RATE (12). -/
def MEMCTL_CLASS_RATE (i : Nat) : Nat := 0x200180 + 0x8 * i
def MEMCTL_CLASS_RATE_RATE (i : Nat) : Fld := ⟨MEMCTL_CLASS_RATE i, 15, 0⟩
/-- MEMCTL.CLASS_BURST (12). -/
def MEMCTL_CLASS_BURST (i : Nat) : Nat := 0x200184 + 0x8 * i
def MEMCTL_CLASS_BURST_BURST (i : Nat) : Fld := ⟨MEMCTL_CLASS_BURST i, 19, 0⟩
/-- MEMCTL.CLASS_BYTES (12). -/
def MEMCTL_CLASS_BYTES (i : Nat) : Nat := 0x200200 + 0x8 * i
/-- MEMCTL.PROMOTED (12). -/
def MEMCTL_PROMOTED (i : Nat) : Nat := 0x200240 + 0x4 * i
/-- MEMCTL.CAP_SHORT (12). -/
def MEMCTL_CAP_SHORT (i : Nat) : Nat := 0x200250 + 0x4 * i
/-- MEMCTL.REFRESH_FORCED (12). -/
def MEMCTL_REFRESH_FORCED (i : Nat) : Nat := 0x200300 + 0x4 * i
/-- MEMCTL.TRAIN_FORCED (12). -/
def MEMCTL_TRAIN_FORCED (i : Nat) : Nat := 0x200340 + 0x4 * i
/-- MEMCTL.ECC_CORR (12). -/
def MEMCTL_ECC_CORR (i : Nat) : Nat := 0x200400 + 0x10 * i
/-- MEMCTL.ECC_UNCORR (12). -/
def MEMCTL_ECC_UNCORR (i : Nat) : Nat := 0x200404 + 0x10 * i
/-- MEMCTL.REPLAY (12). -/
def MEMCTL_REPLAY (i : Nat) : Nat := 0x200408 + 0x10 * i
/-- MEMCTL.POISON_STATUS (12). -/
def MEMCTL_POISON_STATUS : Nat := 0x200500
def MEMCTL_POISON_STATUS_FULL : Fld := ⟨MEMCTL_POISON_STATUS, 31, 31⟩
def MEMCTL_POISON_STATUS_ENTRIES : Fld := ⟨MEMCTL_POISON_STATUS, 10, 0⟩
/-- MEMCTL.POISON_LAST (12). -/
def MEMCTL_POISON_LAST : Nat := 0x200508
def MEMCTL_POISON_LAST_LINE : Fld := ⟨MEMCTL_POISON_LAST, 39, 6⟩
/-- MEMCTL.UNPOP_LAST (12). -/
def MEMCTL_UNPOP_LAST : Nat := 0x200510
/-- ISP.STREAM_CFG (10). -/
def ISP_STREAM_CFG (i : Nat) : Nat := 0x300000 + 0x40 * i
def ISP_STREAM_CFG_ENABLE (i : Nat) : Fld := ⟨ISP_STREAM_CFG i, 31, 31⟩
def ISP_STREAM_CFG_ENGINE (i : Nat) : Fld := ⟨ISP_STREAM_CFG i, 30, 30⟩
def ISP_STREAM_CFG_BAYER (i : Nat) : Fld := ⟨ISP_STREAM_CFG i, 29, 28⟩
def ISP_STREAM_CFG_IN_BITS (i : Nat) : Fld := ⟨ISP_STREAM_CFG i, 27, 26⟩
def ISP_STREAM_CFG_GROUP_P64 (i : Nat) : Fld := ⟨ISP_STREAM_CFG i, 21, 16⟩
def ISP_STREAM_CFG_IN_LINES (i : Nat) : Fld := ⟨ISP_STREAM_CFG i, 11, 8⟩
/-- ISP.STREAM_SIZE (10). -/
def ISP_STREAM_SIZE (i : Nat) : Nat := 0x300004 + 0x40 * i
def ISP_STREAM_SIZE_HEIGHT (i : Nat) : Fld := ⟨ISP_STREAM_SIZE i, 31, 16⟩
def ISP_STREAM_SIZE_WIDTH (i : Nat) : Fld := ⟨ISP_STREAM_SIZE i, 15, 0⟩
/-- ISP.CROP_ORIGIN (10). -/
def ISP_CROP_ORIGIN (i : Nat) : Nat := 0x300008 + 0x40 * i
def ISP_CROP_ORIGIN_Y (i : Nat) : Fld := ⟨ISP_CROP_ORIGIN i, 31, 16⟩
def ISP_CROP_ORIGIN_X (i : Nat) : Fld := ⟨ISP_CROP_ORIGIN i, 15, 0⟩
/-- ISP.CROP_SIZE (10). -/
def ISP_CROP_SIZE (i : Nat) : Nat := 0x30000c + 0x40 * i
def ISP_CROP_SIZE_H (i : Nat) : Fld := ⟨ISP_CROP_SIZE i, 31, 16⟩
def ISP_CROP_SIZE_W (i : Nat) : Fld := ⟨ISP_CROP_SIZE i, 15, 0⟩
/-- ISP.STREAM_FMT (10). -/
def ISP_STREAM_FMT (i : Nat) : Nat := 0x300010 + 0x40 * i
def ISP_STREAM_FMT_SCALE (i : Nat) : Fld := ⟨ISP_STREAM_FMT i, 10, 8⟩
def ISP_STREAM_FMT_OUT_FORMAT (i : Nat) : Fld := ⟨ISP_STREAM_FMT i, 3, 0⟩
/-- ISP.TUNE_ADDR (10). -/
def ISP_TUNE_ADDR (i : Nat) : Nat := 0x300018 + 0x40 * i
def ISP_TUNE_ADDR_ADDR (i : Nat) : Fld := ⟨ISP_TUNE_ADDR i, 63, 8⟩
/-- ISP.STREAM_GROUPS (10). -/
def ISP_STREAM_GROUPS (i : Nat) : Nat := 0x300020 + 0x40 * i
/-- VCODEC.DEC_CFG (10). -/
def VCODEC_DEC_CFG (i : Nat) : Nat := 0x400000 + 0x40 * i
def VCODEC_DEC_CFG_ENABLE (i : Nat) : Fld := ⟨VCODEC_DEC_CFG i, 31, 31⟩
def VCODEC_DEC_CFG_CODEC (i : Nat) : Fld := ⟨VCODEC_DEC_CFG i, 30, 29⟩
def VCODEC_DEC_CFG_LOG2_AU (i : Nat) : Fld := ⟨VCODEC_DEC_CFG i, 19, 16⟩
/-- VCODEC.DEC_BS_BASE (10). -/
def VCODEC_DEC_BS_BASE (i : Nat) : Nat := 0x400008 + 0x40 * i
def VCODEC_DEC_BS_BASE_ADDR (i : Nat) : Fld := ⟨VCODEC_DEC_BS_BASE i, 63, 12⟩
/-- VCODEC.DEC_AU_BASE (10). -/
def VCODEC_DEC_AU_BASE (i : Nat) : Nat := 0x400018 + 0x40 * i
def VCODEC_DEC_AU_BASE_ADDR (i : Nat) : Fld := ⟨VCODEC_DEC_AU_BASE i, 63, 12⟩
/-- VCODEC.DEC_WORK_BASE (10). -/
def VCODEC_DEC_WORK_BASE (i : Nat) : Nat := 0x400020 + 0x40 * i
def VCODEC_DEC_WORK_BASE_ADDR (i : Nat) : Fld := ⟨VCODEC_DEC_WORK_BASE i, 63, 12⟩
/-- VCODEC.DEC_SIZES (10). -/
def VCODEC_DEC_SIZES (i : Nat) : Nat := 0x400010 + 0x40 * i
def VCODEC_DEC_SIZES_BS_4K (i : Nat) : Fld := ⟨VCODEC_DEC_SIZES i, 31, 16⟩
def VCODEC_DEC_SIZES_WORK_MIB (i : Nat) : Fld := ⟨VCODEC_DEC_SIZES i, 15, 0⟩
/-- VCODEC.DEC_INPUT (10). -/
def VCODEC_DEC_INPUT (i : Nat) : Nat := 0x400028 + 0x40 * i
def VCODEC_DEC_INPUT_RECEIPT (i : Nat) : Fld := ⟨VCODEC_DEC_INPUT i, 16, 0⟩
/-- VCODEC.DEC_DONE (10). -/
def VCODEC_DEC_DONE (i : Nat) : Nat := 0x400030 + 0x40 * i
/-- VCODEC.ENC_CFG (10). -/
def VCODEC_ENC_CFG (i : Nat) : Nat := 0x401000 + 0x40 * i
def VCODEC_ENC_CFG_ENABLE (i : Nat) : Fld := ⟨VCODEC_ENC_CFG i, 31, 31⟩
def VCODEC_ENC_CFG_RC (i : Nat) : Fld := ⟨VCODEC_ENC_CFG i, 30, 29⟩
def VCODEC_ENC_CFG_CHANNEL (i : Nat) : Fld := ⟨VCODEC_ENC_CFG i, 28, 24⟩
def VCODEC_ENC_CFG_FRAME_DIV (i : Nat) : Fld := ⟨VCODEC_ENC_CFG i, 23, 16⟩
def VCODEC_ENC_CFG_GOP (i : Nat) : Fld := ⟨VCODEC_ENC_CFG i, 15, 8⟩
def VCODEC_ENC_CFG_QP (i : Nat) : Fld := ⟨VCODEC_ENC_CFG i, 5, 0⟩
/-- VCODEC.ENC_RATE (10). -/
def VCODEC_ENC_RATE (i : Nat) : Nat := 0x401004 + 0x40 * i
/-- VCODEC.ENC_BS_BASE (10). -/
def VCODEC_ENC_BS_BASE (i : Nat) : Nat := 0x401008 + 0x40 * i
def VCODEC_ENC_BS_BASE_ADDR (i : Nat) : Fld := ⟨VCODEC_ENC_BS_BASE i, 63, 12⟩
/-- VCODEC.ENC_AU_BASE (10). -/
def VCODEC_ENC_AU_BASE (i : Nat) : Nat := 0x401018 + 0x40 * i
def VCODEC_ENC_AU_BASE_ADDR (i : Nat) : Fld := ⟨VCODEC_ENC_AU_BASE i, 63, 12⟩
/-- VCODEC.ENC_WORK_BASE (10). -/
def VCODEC_ENC_WORK_BASE (i : Nat) : Nat := 0x401028 + 0x40 * i
def VCODEC_ENC_WORK_BASE_ADDR (i : Nat) : Fld := ⟨VCODEC_ENC_WORK_BASE i, 63, 12⟩
/-- VCODEC.ENC_BS_SIZE (10). -/
def VCODEC_ENC_BS_SIZE (i : Nat) : Nat := 0x401020 + 0x40 * i
def VCODEC_ENC_BS_SIZE_BS_4K (i : Nat) : Fld := ⟨VCODEC_ENC_BS_SIZE i, 15, 0⟩
/-- VCODEC.ENC_OUT (10). -/
def VCODEC_ENC_OUT (i : Nat) : Nat := 0x401010 + 0x40 * i
def VCODEC_ENC_OUT_RECEIPT_EN (i : Nat) : Fld := ⟨VCODEC_ENC_OUT i, 31, 31⟩
def VCODEC_ENC_OUT_LOG2_AU (i : Nat) : Fld := ⟨VCODEC_ENC_OUT i, 27, 24⟩
def VCODEC_ENC_OUT_CLASS (i : Nat) : Fld := ⟨VCODEC_ENC_OUT i, 23, 22⟩
def VCODEC_ENC_OUT_FUNCTION (i : Nat) : Fld := ⟨VCODEC_ENC_OUT i, 21, 17⟩
def VCODEC_ENC_OUT_RECEIPT (i : Nat) : Fld := ⟨VCODEC_ENC_OUT i, 16, 0⟩
/-- VCODEC.JPEG_CFG (10). -/
def VCODEC_JPEG_CFG : Nat := 0x402000
def VCODEC_JPEG_CFG_ENABLE : Fld := ⟨VCODEC_JPEG_CFG, 31, 31⟩
def VCODEC_JPEG_CFG_CLASS : Fld := ⟨VCODEC_JPEG_CFG, 21, 20⟩
def VCODEC_JPEG_CFG_LOG2_JOBS : Fld := ⟨VCODEC_JPEG_CFG, 19, 16⟩
def VCODEC_JPEG_CFG_FUNCTION : Fld := ⟨VCODEC_JPEG_CFG, 4, 0⟩
/-- VCODEC.JPEG_JOB_BASE (10). -/
def VCODEC_JPEG_JOB_BASE : Nat := 0x402008
def VCODEC_JPEG_JOB_BASE_ADDR : Fld := ⟨VCODEC_JPEG_JOB_BASE, 63, 6⟩
/-- VCODEC.JPEG_RECEIPTS (10). -/
def VCODEC_JPEG_RECEIPTS : Nat := 0x402010
def VCODEC_JPEG_RECEIPTS_DONE : Fld := ⟨VCODEC_JPEG_RECEIPTS, 48, 32⟩
def VCODEC_JPEG_RECEIPTS_SUBMIT : Fld := ⟨VCODEC_JPEG_RECEIPTS, 16, 0⟩
/-- CAMERA.PORT_CFG (10). -/
def CAMERA_PORT_CFG (i : Nat) : Nat := 0x500000 + 0x20 * i
def CAMERA_PORT_CFG_ENABLE (i : Nat) : Fld := ⟨CAMERA_PORT_CFG i, 31, 31⟩
def CAMERA_PORT_CFG_PHY (i : Nat) : Fld := ⟨CAMERA_PORT_CFG i, 24, 24⟩
def CAMERA_PORT_CFG_LANES (i : Nat) : Fld := ⟨CAMERA_PORT_CFG i, 23, 20⟩
def CAMERA_PORT_CFG_SCRAMBLE (i : Nat) : Fld := ⟨CAMERA_PORT_CFG i, 19, 19⟩
def CAMERA_PORT_CFG_RATE (i : Nat) : Fld := ⟨CAMERA_PORT_CFG i, 15, 0⟩
/-- CAMERA.PORT_ERRORS (10). -/
def CAMERA_PORT_ERRORS (i : Nat) : Nat := 0x500008 + 0x20 * i
def CAMERA_PORT_ERRORS_ECC_CORR (i : Nat) : Fld := ⟨CAMERA_PORT_ERRORS i, 31, 16⟩
def CAMERA_PORT_ERRORS_CRC_ERR (i : Nat) : Fld := ⟨CAMERA_PORT_ERRORS i, 15, 0⟩
/-- CAMERA.CHAN_CFG (10). -/
def CAMERA_CHAN_CFG (i : Nat) : Nat := 0x501000 + 0x40 * i
def CAMERA_CHAN_CFG_ENABLE (i : Nat) : Fld := ⟨CAMERA_CHAN_CFG i, 31, 31⟩
def CAMERA_CHAN_CFG_SOURCE (i : Nat) : Fld := ⟨CAMERA_CHAN_CFG i, 30, 28⟩
def CAMERA_CHAN_CFG_PORT (i : Nat) : Fld := ⟨CAMERA_CHAN_CFG i, 27, 25⟩
def CAMERA_CHAN_CFG_VC (i : Nat) : Fld := ⟨CAMERA_CHAN_CFG i, 24, 21⟩
def CAMERA_CHAN_CFG_DT (i : Nat) : Fld := ⟨CAMERA_CHAN_CFG i, 20, 15⟩
def CAMERA_CHAN_CFG_CLASS (i : Nat) : Fld := ⟨CAMERA_CHAN_CFG i, 14, 13⟩
def CAMERA_CHAN_CFG_INDEX (i : Nat) : Fld := ⟨CAMERA_CHAN_CFG i, 12, 8⟩
def CAMERA_CHAN_CFG_FUNCTION (i : Nat) : Fld := ⟨CAMERA_CHAN_CFG i, 4, 0⟩
/-- CAMERA.CHAN_BUF_BASE (10). -/
def CAMERA_CHAN_BUF_BASE (i : Nat) : Nat := 0x501008 + 0x40 * i
def CAMERA_CHAN_BUF_BASE_ADDR (i : Nat) : Fld := ⟨CAMERA_CHAN_BUF_BASE i, 63, 12⟩
/-- CAMERA.CHAN_REC_BASE (10). -/
def CAMERA_CHAN_REC_BASE (i : Nat) : Nat := 0x501018 + 0x40 * i
def CAMERA_CHAN_REC_BASE_ADDR (i : Nat) : Fld := ⟨CAMERA_CHAN_REC_BASE i, 63, 11⟩
/-- CAMERA.CHAN_BUF (10). -/
def CAMERA_CHAN_BUF (i : Nat) : Nat := 0x501010 + 0x40 * i
def CAMERA_CHAN_BUF_COUNT_M1 (i : Nat) : Fld := ⟨CAMERA_CHAN_BUF i, 31, 28⟩
def CAMERA_CHAN_BUF_STRIDE (i : Nat) : Fld := ⟨CAMERA_CHAN_BUF i, 23, 0⟩
/-- CAMERA.CHAN_RECEIPTS (10). -/
def CAMERA_CHAN_RECEIPTS (i : Nat) : Nat := 0x501020 + 0x40 * i
def CAMERA_CHAN_RECEIPTS_CONSUME_EN (i : Nat) : Fld := ⟨CAMERA_CHAN_RECEIPTS i, 63, 63⟩
def CAMERA_CHAN_RECEIPTS_CONSUME (i : Nat) : Fld := ⟨CAMERA_CHAN_RECEIPTS i, 48, 32⟩
def CAMERA_CHAN_RECEIPTS_FRAME_EN (i : Nat) : Fld := ⟨CAMERA_CHAN_RECEIPTS i, 31, 31⟩
def CAMERA_CHAN_RECEIPTS_FRAME (i : Nat) : Fld := ⟨CAMERA_CHAN_RECEIPTS i, 16, 0⟩
/-- CAMERA.CHAN_FRAMES (10). -/
def CAMERA_CHAN_FRAMES (i : Nat) : Nat := 0x501028 + 0x40 * i
/-- CAMERA.CHAN_DROPS (10). -/
def CAMERA_CHAN_DROPS (i : Nat) : Nat := 0x501030 + 0x40 * i
/-- CAMERA.SET_CFG (10). -/
def CAMERA_SET_CFG (i : Nat) : Nat := 0x502000 + 0x10 * i
def CAMERA_SET_CFG_ENABLE (i : Nat) : Fld := ⟨CAMERA_SET_CFG i, 31, 31⟩
def CAMERA_SET_CFG_MEMBERS (i : Nat) : Fld := ⟨CAMERA_SET_CFG i, 23, 0⟩
/-- CAMERA.SET_RECEIPT (10). -/
def CAMERA_SET_RECEIPT (i : Nat) : Nat := 0x502004 + 0x10 * i
def CAMERA_SET_RECEIPT_FUNCTION (i : Nat) : Fld := ⟨CAMERA_SET_RECEIPT i, 28, 24⟩
def CAMERA_SET_RECEIPT_RECEIPT (i : Nat) : Fld := ⟨CAMERA_SET_RECEIPT i, 16, 0⟩
/-- CAMERA.SET_COUNT (10). -/
def CAMERA_SET_COUNT (i : Nat) : Nat := 0x502008 + 0x10 * i
/-- EXPRESS.CHAN_CFG (11). -/
def EXPRESS_CHAN_CFG (i : Nat) : Nat := 0x600000 + 0x40 * i
def EXPRESS_CHAN_CFG_ENABLE (i : Nat) : Fld := ⟨EXPRESS_CHAN_CFG i, 31, 31⟩
def EXPRESS_CHAN_CFG_INPUT_MODE (i : Nat) : Fld := ⟨EXPRESS_CHAN_CFG i, 27, 26⟩
def EXPRESS_CHAN_CFG_RATE (i : Nat) : Fld := ⟨EXPRESS_CHAN_CFG i, 22, 20⟩
def EXPRESS_CHAN_CFG_FRONTEND (i : Nat) : Fld := ⟨EXPRESS_CHAN_CFG i, 16, 16⟩
/-- EXPRESS.CHAN_PHASE (11). -/
def EXPRESS_CHAN_PHASE (i : Nat) : Nat := 0x600004 + 0x40 * i
def EXPRESS_CHAN_PHASE_CONV_NS (i : Nat) : Fld := ⟨EXPRESS_CHAN_PHASE i, 9, 0⟩
/-- EXPRESS.CHAN_STATUS (11). -/
def EXPRESS_CHAN_STATUS (i : Nat) : Nat := 0x600008 + 0x40 * i
def EXPRESS_CHAN_STATUS_FAULT_NOW (i : Nat) : Fld := ⟨EXPRESS_CHAN_STATUS i, 31, 31⟩
def EXPRESS_CHAN_STATUS_SETTLING (i : Nat) : Fld := ⟨EXPRESS_CHAN_STATUS i, 30, 30⟩
def EXPRESS_CHAN_STATUS_CLIP (i : Nat) : Fld := ⟨EXPRESS_CHAN_STATUS i, 29, 29⟩
def EXPRESS_CHAN_STATUS_LOW (i : Nat) : Fld := ⟨EXPRESS_CHAN_STATUS i, 28, 28⟩
def EXPRESS_CHAN_STATUS_HIGH (i : Nat) : Fld := ⟨EXPRESS_CHAN_STATUS i, 27, 27⟩
def EXPRESS_CHAN_STATUS_FE_LATE (i : Nat) : Fld := ⟨EXPRESS_CHAN_STATUS i, 26, 26⟩
def EXPRESS_CHAN_STATUS_MONITOR (i : Nat) : Fld := ⟨EXPRESS_CHAN_STATUS i, 15, 0⟩
/-- EXPRESS.CHAN_RESULTS (11). -/
def EXPRESS_CHAN_RESULTS (i : Nat) : Nat := 0x600010 + 0x40 * i
/-- EXPRESS.CHAN_SKIP (11). -/
def EXPRESS_CHAN_SKIP (i : Nat) : Nat := 0x600018 + 0x40 * i
/-- EXPRESS.CHAN_LATE (11). -/
def EXPRESS_CHAN_LATE (i : Nat) : Nat := 0x60001c + 0x40 * i
/-- EXPRESS.MAILBOX (11). -/
def EXPRESS_MAILBOX (i j : Nat) : Nat := 0x601000 + 0x100 * i + 0x8 * j
/-- EXPRESS.SPILL_BASE (11). -/
def EXPRESS_SPILL_BASE : Nat := 0x602000
def EXPRESS_SPILL_BASE_ADDR : Fld := ⟨EXPRESS_SPILL_BASE, 63, 12⟩
def EXPRESS_SPILL_BASE_EN : Fld := ⟨EXPRESS_SPILL_BASE, 0, 0⟩
/-- EXPRESS.SPILL_CFG (11). -/
def EXPRESS_SPILL_CFG : Nat := 0x602008
def EXPRESS_SPILL_CFG_LOG2_ENTRIES : Fld := ⟨EXPRESS_SPILL_CFG, 4, 0⟩
/-- EXPRESS.SPILL_HEAD (11). -/
def EXPRESS_SPILL_HEAD : Nat := 0x602010
/-- EXPRESS.SPILL_DROP (11). -/
def EXPRESS_SPILL_DROP : Nat := 0x602018
/-- CPORT.PORT_CFG (11). -/
def CPORT_PORT_CFG (i : Nat) : Nat := 0x700000 + 0x1000 * i
def CPORT_PORT_CFG_ENABLE (i : Nat) : Fld := ⟨CPORT_PORT_CFG i, 31, 31⟩
def CPORT_PORT_CFG_PREEMPT (i : Nat) : Fld := ⟨CPORT_PORT_CFG i, 8, 8⟩
def CPORT_PORT_CFG_ADV_1000 (i : Nat) : Fld := ⟨CPORT_PORT_CFG i, 1, 1⟩
def CPORT_PORT_CFG_ADV_100 (i : Nat) : Fld := ⟨CPORT_PORT_CFG i, 0, 0⟩
/-- CPORT.MAC_ADDR (11). -/
def CPORT_MAC_ADDR (i : Nat) : Nat := 0x700008 + 0x1000 * i
def CPORT_MAC_ADDR_ADDR (i : Nat) : Fld := ⟨CPORT_MAC_ADDR i, 47, 0⟩
/-- CPORT.CX_CFG (11). -/
def CPORT_CX_CFG (i : Nat) : Nat := 0x700010 + 0x1000 * i
def CPORT_CX_CFG_ETHERTYPE (i : Nat) : Fld := ⟨CPORT_CX_CFG i, 31, 16⟩
def CPORT_CX_CFG_ASSOC (i : Nat) : Fld := ⟨CPORT_CX_CFG i, 15, 0⟩
/-- CPORT.CX_PARAM (11). -/
def CPORT_CX_PARAM (i : Nat) : Nat := 0x700014 + 0x1000 * i
def CPORT_CX_PARAM_RSP_PCP (i : Nat) : Fld := ⟨CPORT_CX_PARAM i, 31, 29⟩
def CPORT_CX_PARAM_MAX_AGE (i : Nat) : Fld := ⟨CPORT_CX_PARAM i, 15, 0⟩
/-- CPORT.CX_TIMEOUT (11). -/
def CPORT_CX_TIMEOUT (i : Nat) : Nat := 0x700018 + 0x1000 * i
/-- CPORT.STATUS (11). -/
def CPORT_STATUS (i : Nat) : Nat := 0x70001c + 0x1000 * i
def CPORT_STATUS_LINK (i : Nat) : Fld := ⟨CPORT_STATUS i, 31, 31⟩
def CPORT_STATUS_SPEED (i : Nat) : Fld := ⟨CPORT_STATUS i, 30, 29⟩
def CPORT_STATUS_PREEMPT_ACTIVE (i : Nat) : Fld := ⟨CPORT_STATUS i, 28, 28⟩
/-- CPORT.CX_COUNT (11). -/
def CPORT_CX_COUNT (i j : Nat) : Nat := 0x700040 + 0x1000 * i + 0x4 * j
/-- CPORT.GUARD_CTRL (11). -/
def CPORT_GUARD_CTRL (i : Nat) : Nat := 0x708000 + 0x1000 * i
def CPORT_GUARD_CTRL_ARMED (i : Nat) : Fld := ⟨CPORT_GUARD_CTRL i, 31, 31⟩
def CPORT_GUARD_CTRL_SILENT (i : Nat) : Fld := ⟨CPORT_GUARD_CTRL i, 30, 30⟩
def CPORT_GUARD_CTRL_SWITCH_PENDING (i : Nat) : Fld := ⟨CPORT_GUARD_CTRL i, 24, 24⟩
def CPORT_GUARD_CTRL_ACTIVE_BANK (i : Nat) : Fld := ⟨CPORT_GUARD_CTRL i, 16, 16⟩
def CPORT_GUARD_CTRL_PTP_GAP_MS (i : Nat) : Fld := ⟨CPORT_GUARD_CTRL i, 7, 0⟩
/-- CPORT.GUARD_SWITCH (11). -/
def CPORT_GUARD_SWITCH (i : Nat) : Nat := 0x708008 + 0x1000 * i
/-- CPORT.GUARD_PERIOD (11). -/
def CPORT_GUARD_PERIOD (i j : Nat) : Nat := 0x708010 + 0x1000 * i + 0x4 * j
def CPORT_GUARD_PERIOD_PERIOD_M1 (i j : Nat) : Fld := ⟨CPORT_GUARD_PERIOD i j, 15, 0⟩
/-- CPORT.GUARD_COUNT (11). -/
def CPORT_GUARD_COUNT (i j : Nat) : Nat := 0x708040 + 0x1000 * i + 0x4 * j
/-- CPORT.GUARD_WIN (11). -/
def CPORT_GUARD_WIN (i j k : Nat) : Nat := 0x708100 + 0x1000 * i + 0x80 * j + 0x8 * k
def CPORT_GUARD_WIN_EN (i j k : Nat) : Fld := ⟨CPORT_GUARD_WIN i j k, 63, 63⟩
def CPORT_GUARD_WIN_START_ROUND (i j k : Nat) : Fld := ⟨CPORT_GUARD_WIN i j k, 47, 32⟩
def CPORT_GUARD_WIN_START_NS (i j k : Nat) : Fld := ⟨CPORT_GUARD_WIN i j k, 25, 16⟩
def CPORT_GUARD_WIN_LEN_NS (i j k : Nat) : Fld := ⟨CPORT_GUARD_WIN i j k, 15, 0⟩
/-- PLANT.PORT_CFG (19). -/
def PLANT_PORT_CFG (i : Nat) : Nat := 0x800000 + 0x1000 * i
def PLANT_PORT_CFG_ENABLE (i : Nat) : Fld := ⟨PLANT_PORT_CFG i, 31, 31⟩
def PLANT_PORT_CFG_PROMISC (i : Nat) : Fld := ⟨PLANT_PORT_CFG i, 9, 9⟩
def PLANT_PORT_CFG_JUMBO (i : Nat) : Fld := ⟨PLANT_PORT_CFG i, 8, 8⟩
def PLANT_PORT_CFG_ADV (i : Nat) : Fld := ⟨PLANT_PORT_CFG i, 2, 0⟩
/-- PLANT.STATUS (19). -/
def PLANT_STATUS (i : Nat) : Nat := 0x800004 + 0x1000 * i
def PLANT_STATUS_LINK (i : Nat) : Fld := ⟨PLANT_STATUS i, 31, 31⟩
def PLANT_STATUS_SPEED (i : Nat) : Fld := ⟨PLANT_STATUS i, 30, 28⟩
/-- PLANT.MAC_ADDR (19). -/
def PLANT_MAC_ADDR (i : Nat) : Nat := 0x800008 + 0x1000 * i
def PLANT_MAC_ADDR_ADDR (i : Nat) : Fld := ⟨PLANT_MAC_ADDR i, 47, 0⟩
/-- PLANT.FILTER (19). -/
def PLANT_FILTER (i j : Nat) : Nat := 0x800100 + 0x1000 * i + 0x8 * j
def PLANT_FILTER_EN (i j : Nat) : Fld := ⟨PLANT_FILTER i j, 63, 63⟩
def PLANT_FILTER_QUEUE (i j : Nat) : Fld := ⟨PLANT_FILTER i j, 49, 48⟩
def PLANT_FILTER_DA (i j : Nat) : Fld := ⟨PLANT_FILTER i j, 47, 0⟩
/-- PLANT.RXQ_BASE (19). -/
def PLANT_RXQ_BASE (i j : Nat) : Nat := 0x800400 + 0x1000 * i + 0x40 * j
def PLANT_RXQ_BASE_ADDR (i j : Nat) : Fld := ⟨PLANT_RXQ_BASE i j, 63, 12⟩
def PLANT_RXQ_BASE_HOST (i j : Nat) : Fld := ⟨PLANT_RXQ_BASE i j, 0, 0⟩
/-- PLANT.RXQ_CFG (19). -/
def PLANT_RXQ_CFG (i j : Nat) : Nat := 0x800408 + 0x1000 * i + 0x40 * j
def PLANT_RXQ_CFG_EN (i j : Nat) : Fld := ⟨PLANT_RXQ_CFG i j, 31, 31⟩
def PLANT_RXQ_CFG_IRQ (i j : Nat) : Fld := ⟨PLANT_RXQ_CFG i j, 30, 30⟩
def PLANT_RXQ_CFG_FUNCTION (i j : Nat) : Fld := ⟨PLANT_RXQ_CFG i j, 28, 24⟩
def PLANT_RXQ_CFG_CLASS (i j : Nat) : Fld := ⟨PLANT_RXQ_CFG i j, 21, 20⟩
def PLANT_RXQ_CFG_LOG2_SIZE (i j : Nat) : Fld := ⟨PLANT_RXQ_CFG i j, 19, 16⟩
def PLANT_RXQ_CFG_VECTOR (i j : Nat) : Fld := ⟨PLANT_RXQ_CFG i j, 10, 0⟩
/-- PLANT.RXQ_TAIL (19). -/
def PLANT_RXQ_TAIL (i j : Nat) : Nat := 0x80040c + 0x1000 * i + 0x40 * j
/-- PLANT.RXQ_HEAD (19). -/
def PLANT_RXQ_HEAD (i j : Nat) : Nat := 0x800410 + 0x1000 * i + 0x40 * j
/-- PLANT.RXQ_RECEIPT (19). -/
def PLANT_RXQ_RECEIPT (i j : Nat) : Nat := 0x800414 + 0x1000 * i + 0x40 * j
def PLANT_RXQ_RECEIPT_EN (i j : Nat) : Fld := ⟨PLANT_RXQ_RECEIPT i j, 31, 31⟩
def PLANT_RXQ_RECEIPT_INDEX (i j : Nat) : Fld := ⟨PLANT_RXQ_RECEIPT i j, 16, 0⟩
/-- PLANT.TXQ_BASE (19). -/
def PLANT_TXQ_BASE (i j : Nat) : Nat := 0x800800 + 0x1000 * i + 0x40 * j
def PLANT_TXQ_BASE_ADDR (i j : Nat) : Fld := ⟨PLANT_TXQ_BASE i j, 63, 12⟩
def PLANT_TXQ_BASE_HOST (i j : Nat) : Fld := ⟨PLANT_TXQ_BASE i j, 0, 0⟩
/-- PLANT.TXQ_CFG (19). -/
def PLANT_TXQ_CFG (i j : Nat) : Nat := 0x800808 + 0x1000 * i + 0x40 * j
def PLANT_TXQ_CFG_EN (i j : Nat) : Fld := ⟨PLANT_TXQ_CFG i j, 31, 31⟩
def PLANT_TXQ_CFG_IRQ (i j : Nat) : Fld := ⟨PLANT_TXQ_CFG i j, 30, 30⟩
def PLANT_TXQ_CFG_FUNCTION (i j : Nat) : Fld := ⟨PLANT_TXQ_CFG i j, 28, 24⟩
def PLANT_TXQ_CFG_CLASS (i j : Nat) : Fld := ⟨PLANT_TXQ_CFG i j, 21, 20⟩
def PLANT_TXQ_CFG_LOG2_SIZE (i j : Nat) : Fld := ⟨PLANT_TXQ_CFG i j, 19, 16⟩
def PLANT_TXQ_CFG_VECTOR (i j : Nat) : Fld := ⟨PLANT_TXQ_CFG i j, 10, 0⟩
/-- PLANT.TXQ_TAIL (19). -/
def PLANT_TXQ_TAIL (i j : Nat) : Nat := 0x80080c + 0x1000 * i + 0x40 * j
/-- PLANT.TXQ_HEAD (19). -/
def PLANT_TXQ_HEAD (i j : Nat) : Nat := 0x800810 + 0x1000 * i + 0x40 * j
/-- PLANT.TXQ_RECEIPT (19). -/
def PLANT_TXQ_RECEIPT (i j : Nat) : Nat := 0x800814 + 0x1000 * i + 0x40 * j
def PLANT_TXQ_RECEIPT_EN (i j : Nat) : Fld := ⟨PLANT_TXQ_RECEIPT i j, 31, 31⟩
def PLANT_TXQ_RECEIPT_INDEX (i j : Nat) : Fld := ⟨PLANT_TXQ_RECEIPT i j, 16, 0⟩
/-- PLANT.RX_FRAMES (19). -/
def PLANT_RX_FRAMES (i : Nat) : Nat := 0x800c00 + 0x1000 * i
/-- PLANT.TX_FRAMES (19). -/
def PLANT_TX_FRAMES (i : Nat) : Nat := 0x800c08 + 0x1000 * i
/-- PLANT.RX_DROP (19). -/
def PLANT_RX_DROP (i : Nat) : Nat := 0x800c10 + 0x1000 * i
/-- FABRIC.INFO (13). -/
def FABRIC_INFO : Nat := 0x900000
def FABRIC_INFO_COLUMNS : Fld := ⟨FABRIC_INFO, 31, 24⟩
def FABRIC_INFO_ROW_BLOCKS : Fld := ⟨FABRIC_INFO, 23, 16⟩
def FABRIC_INFO_REGIONS : Fld := ⟨FABRIC_INFO, 15, 8⟩
def FABRIC_INFO_PINS : Fld := ⟨FABRIC_INFO, 7, 0⟩
/-- FABRIC.PORT_CFG (13). -/
def FABRIC_PORT_CFG : Nat := 0x900008
def FABRIC_PORT_CFG_MESH_EN : Fld := ⟨FABRIC_PORT_CFG, 31, 31⟩
def FABRIC_PORT_CFG_CLASS : Fld := ⟨FABRIC_PORT_CFG, 21, 20⟩
def FABRIC_PORT_CFG_FUNCTION : Fld := ⟨FABRIC_PORT_CFG, 4, 0⟩
/-- FABRIC.SCRUB_CTRL (13). -/
def FABRIC_SCRUB_CTRL : Nat := 0x900010
def FABRIC_SCRUB_CTRL_ENABLE : Fld := ⟨FABRIC_SCRUB_CTRL, 31, 31⟩
def FABRIC_SCRUB_CTRL_PERIOD_MS : Fld := ⟨FABRIC_SCRUB_CTRL, 15, 0⟩
/-- FABRIC.CFG_CMD (13). -/
def FABRIC_CFG_CMD : Nat := 0x900020
def FABRIC_CFG_CMD_GO : Fld := ⟨FABRIC_CFG_CMD, 31, 31⟩
def FABRIC_CFG_CMD_OP : Fld := ⟨FABRIC_CFG_CMD, 27, 24⟩
def FABRIC_CFG_CMD_REGION : Fld := ⟨FABRIC_CFG_CMD, 18, 16⟩
def FABRIC_CFG_CMD_FAR : Fld := ⟨FABRIC_CFG_CMD, 15, 0⟩
/-- FABRIC.CFG_STATUS (13). -/
def FABRIC_CFG_STATUS : Nat := 0x900024
def FABRIC_CFG_STATUS_BUSY : Fld := ⟨FABRIC_CFG_STATUS, 31, 31⟩
def FABRIC_CFG_STATUS_DONE : Fld := ⟨FABRIC_CFG_STATUS, 30, 30⟩
def FABRIC_CFG_STATUS_FAULT : Fld := ⟨FABRIC_CFG_STATUS, 29, 29⟩
def FABRIC_CFG_STATUS_CAUSE : Fld := ⟨FABRIC_CFG_STATUS, 27, 24⟩
/-- FABRIC.SCRUB_PASSES (13). -/
def FABRIC_SCRUB_PASSES : Nat := 0x900018
/-- FABRIC.CLK_CFG (13). -/
def FABRIC_CLK_CFG (i : Nat) : Nat := 0x900030 + 0x4 * i
def FABRIC_CLK_CFG_EN (i : Nat) : Fld := ⟨FABRIC_CLK_CFG i, 31, 31⟩
def FABRIC_CLK_CFG_MHZ (i : Nat) : Fld := ⟨FABRIC_CLK_CFG i, 9, 0⟩
/-- FABRIC.CFG_DATA (13). -/
def FABRIC_CFG_DATA (i : Nat) : Nat := 0x900100 + 0x4 * i
/-- FABRIC.REGION_FIRST (13). -/
def FABRIC_REGION_FIRST (i : Nat) : Nat := 0x901000 + 0x40 * i
def FABRIC_REGION_FIRST_COLUMN (i : Nat) : Fld := ⟨FABRIC_REGION_FIRST i, 5, 0⟩
/-- FABRIC.REGION_COUNT (13). -/
def FABRIC_REGION_COUNT (i : Nat) : Nat := 0x901004 + 0x40 * i
def FABRIC_REGION_COUNT_COLUMNS (i : Nat) : Fld := ⟨FABRIC_REGION_COUNT i, 5, 0⟩
/-- FABRIC.REGION_CTRL (13). -/
def FABRIC_REGION_CTRL (i : Nat) : Nat := 0x901008 + 0x40 * i
def FABRIC_REGION_CTRL_SCRUB_ACTION (i : Nat) : Fld := ⟨FABRIC_REGION_CTRL i, 8, 8⟩
def FABRIC_REGION_CTRL_HOLD (i : Nat) : Fld := ⟨FABRIC_REGION_CTRL i, 0, 0⟩
/-- FABRIC.REGION_STATE (13). -/
def FABRIC_REGION_STATE (i : Nat) : Nat := 0x90100c + 0x40 * i
def FABRIC_REGION_STATE_STATE (i : Nat) : Fld := ⟨FABRIC_REGION_STATE i, 31, 30⟩
def FABRIC_REGION_STATE_ISOLATED (i : Nat) : Fld := ⟨FABRIC_REGION_STATE i, 29, 29⟩
def FABRIC_REGION_STATE_FRAMES (i : Nat) : Fld := ⟨FABRIC_REGION_STATE i, 15, 0⟩
/-- FABRIC.REGION_IMAGE (13). -/
def FABRIC_REGION_IMAGE (i : Nat) : Nat := 0x901010 + 0x40 * i
/-- FABRIC.REGION_UPSETS (13). -/
def FABRIC_REGION_UPSETS (i : Nat) : Nat := 0x901014 + 0x40 * i
/-- FABRIC.REGION_LAST_UPSET (13). -/
def FABRIC_REGION_LAST_UPSET (i : Nat) : Nat := 0x901018 + 0x40 * i
def FABRIC_REGION_LAST_UPSET_FAR (i : Nat) : Fld := ⟨FABRIC_REGION_LAST_UPSET i, 15, 0⟩
/-- FABRIC.REGION_POLICY (13). -/
def FABRIC_REGION_POLICY (i : Nat) : Nat := 0x90101c + 0x40 * i
def FABRIC_REGION_POLICY_AUTH (i : Nat) : Fld := ⟨FABRIC_REGION_POLICY i, 0, 0⟩
/-- FABRIC.PIN_CFG (13). -/
def FABRIC_PIN_CFG (i : Nat) : Nat := 0x902000 + 0x4 * i
def FABRIC_PIN_CFG_SAFE (i : Nat) : Fld := ⟨FABRIC_PIN_CFG i, 1, 0⟩
/-- POWER.INFO (14). -/
def POWER_INFO : Nat := 0xa00000
def POWER_INFO_DOMAINS : Fld := ⟨POWER_INFO, 31, 24⟩
def POWER_INFO_ALWAYS_ON : Fld := ⟨POWER_INFO, 23, 16⟩
def POWER_INFO_AVS_BUSES : Fld := ⟨POWER_INFO, 15, 8⟩
def POWER_INFO_WAKE_SOURCES : Fld := ⟨POWER_INFO, 7, 0⟩
/-- POWER.DEV_REQ (14). -/
def POWER_DEV_REQ : Nat := 0xa00010
def POWER_DEV_REQ_TAG : Fld := ⟨POWER_DEV_REQ, 31, 16⟩
def POWER_DEV_REQ_PARTIAL_OK : Fld := ⟨POWER_DEV_REQ, 8, 8⟩
def POWER_DEV_REQ_CANCEL : Fld := ⟨POWER_DEV_REQ, 4, 4⟩
def POWER_DEV_REQ_TARGET : Fld := ⟨POWER_DEV_REQ, 1, 0⟩
/-- POWER.DEV_STATUS (14). -/
def POWER_DEV_STATUS : Nat := 0xa00014
def POWER_DEV_STATUS_STATE : Fld := ⟨POWER_DEV_STATUS, 31, 30⟩
def POWER_DEV_STATUS_PENDING_TARGET : Fld := ⟨POWER_DEV_STATUS, 29, 28⟩
def POWER_DEV_STATUS_PENDING : Fld := ⟨POWER_DEV_STATUS, 27, 27⟩
def POWER_DEV_STATUS_DEFERRED : Fld := ⟨POWER_DEV_STATUS, 26, 26⟩
def POWER_DEV_STATUS_BUSY : Fld := ⟨POWER_DEV_STATUS, 25, 25⟩
/-- POWER.DEV_RESULT (14). -/
def POWER_DEV_RESULT : Nat := 0xa00018
def POWER_DEV_RESULT_TAG : Fld := ⟨POWER_DEV_RESULT, 31, 16⟩
def POWER_DEV_RESULT_REASON : Fld := ⟨POWER_DEV_RESULT, 15, 12⟩
def POWER_DEV_RESULT_RESULT : Fld := ⟨POWER_DEV_RESULT, 11, 8⟩
def POWER_DEV_RESULT_DOMAIN : Fld := ⟨POWER_DEV_RESULT, 7, 0⟩
/-- POWER.DEV_REFUSED (14). -/
def POWER_DEV_REFUSED : Nat := 0xa0001c
def POWER_DEV_REFUSED_DOMAIN : Fld := ⟨POWER_DEV_REFUSED, 26, 0⟩
/-- POWER.PREP_LIMIT (14). -/
def POWER_PREP_LIMIT : Nat := 0xa00020
/-- POWER.HOST_ACK (14). -/
def POWER_HOST_ACK : Nat := 0xa00024
def POWER_HOST_ACK_ANSWER : Fld := ⟨POWER_HOST_ACK, 1, 0⟩
/-- POWER.WAKE_MASK (14). -/
def POWER_WAKE_MASK : Nat := 0xa00030
def POWER_WAKE_MASK_SOURCE : Fld := ⟨POWER_WAKE_MASK, 7, 0⟩
/-- POWER.WAKE_LATCH (14). -/
def POWER_WAKE_LATCH : Nat := 0xa00034
def POWER_WAKE_LATCH_SOURCE : Fld := ⟨POWER_WAKE_LATCH, 7, 0⟩
/-- POWER.WAKE_CAUSE (14). -/
def POWER_WAKE_CAUSE : Nat := 0xa00038
def POWER_WAKE_CAUSE_SOURCE : Fld := ⟨POWER_WAKE_CAUSE, 7, 0⟩
/-- POWER.WAKE_AT (14). -/
def POWER_WAKE_AT : Nat := 0xa00040
/-- POWER.PAD_HOLD (14). -/
def POWER_PAD_HOLD : Nat := 0xa00048
def POWER_PAD_HOLD_GROUP : Fld := ⟨POWER_PAD_HOLD, 6, 0⟩
/-- POWER.PAD_RELEASE (14). -/
def POWER_PAD_RELEASE : Nat := 0xa0004c
def POWER_PAD_RELEASE_GROUP : Fld := ⟨POWER_PAD_RELEASE, 6, 0⟩
/-- POWER.SEC_HOLD (14). -/
def POWER_SEC_HOLD : Nat := 0xa00050
def POWER_SEC_HOLD_DOMAIN : Fld := ⟨POWER_SEC_HOLD, 23, 0⟩
/-- POWER.EVENT (14). -/
def POWER_EVENT : Nat := 0xa00054
def POWER_EVENT_PREPARE : Fld := ⟨POWER_EVENT, 3, 3⟩
def POWER_EVENT_WAKE : Fld := ⟨POWER_EVENT, 2, 2⟩
def POWER_EVENT_DOM_RESULT : Fld := ⟨POWER_EVENT, 1, 1⟩
def POWER_EVENT_DEV_RESULT : Fld := ⟨POWER_EVENT, 0, 0⟩
/-- POWER.IRQ_CFG (14). -/
def POWER_IRQ_CFG : Nat := 0xa00058
def POWER_IRQ_CFG_EN : Fld := ⟨POWER_IRQ_CFG, 31, 31⟩
def POWER_IRQ_CFG_VECTOR : Fld := ⟨POWER_IRQ_CFG, 10, 0⟩
/-- POWER.AVS_STATUS (14). -/
def POWER_AVS_STATUS (i : Nat) : Nat := 0xa00060 + 0x4 * i
def POWER_AVS_STATUS_RETRIES (i : Nat) : Fld := ⟨POWER_AVS_STATUS i, 31, 16⟩
def POWER_AVS_STATUS_FAILS (i : Nat) : Fld := ⟨POWER_AVS_STATUS i, 15, 8⟩
def POWER_AVS_STATUS_LAST_RAIL (i : Nat) : Fld := ⟨POWER_AVS_STATUS i, 7, 0⟩
/-- POWER.DOM_REQ (14). -/
def POWER_DOM_REQ (i : Nat) : Nat := 0xa00100 + 0x20 * i
def POWER_DOM_REQ_TAG (i : Nat) : Fld := ⟨POWER_DOM_REQ i, 31, 16⟩
def POWER_DOM_REQ_CANCEL (i : Nat) : Fld := ⟨POWER_DOM_REQ i, 4, 4⟩
def POWER_DOM_REQ_TARGET (i : Nat) : Fld := ⟨POWER_DOM_REQ i, 1, 0⟩
/-- POWER.DOM_STATUS (14). -/
def POWER_DOM_STATUS (i : Nat) : Nat := 0xa00104 + 0x20 * i
def POWER_DOM_STATUS_STATE (i : Nat) : Fld := ⟨POWER_DOM_STATUS i, 31, 30⟩
def POWER_DOM_STATUS_PENDING_TARGET (i : Nat) : Fld := ⟨POWER_DOM_STATUS i, 29, 28⟩
def POWER_DOM_STATUS_PENDING (i : Nat) : Fld := ⟨POWER_DOM_STATUS i, 27, 27⟩
def POWER_DOM_STATUS_DEFERRED (i : Nat) : Fld := ⟨POWER_DOM_STATUS i, 26, 26⟩
def POWER_DOM_STATUS_BUSY (i : Nat) : Fld := ⟨POWER_DOM_STATUS i, 25, 25⟩
def POWER_DOM_STATUS_HELD (i : Nat) : Fld := ⟨POWER_DOM_STATUS i, 24, 24⟩
def POWER_DOM_STATUS_MV (i : Nat) : Fld := ⟨POWER_DOM_STATUS i, 15, 0⟩
/-- POWER.DOM_RESULT (14). -/
def POWER_DOM_RESULT (i : Nat) : Nat := 0xa00108 + 0x20 * i
def POWER_DOM_RESULT_TAG (i : Nat) : Fld := ⟨POWER_DOM_RESULT i, 31, 16⟩
def POWER_DOM_RESULT_REASON (i : Nat) : Fld := ⟨POWER_DOM_RESULT i, 15, 12⟩
def POWER_DOM_RESULT_RESULT (i : Nat) : Fld := ⟨POWER_DOM_RESULT i, 11, 8⟩
def POWER_DOM_RESULT_DOMAIN (i : Nat) : Fld := ⟨POWER_DOM_RESULT i, 7, 0⟩
/-- POWER.DOM_CFG (14). -/
def POWER_DOM_CFG (i : Nat) : Nat := 0xa0010c + 0x20 * i
def POWER_DOM_CFG_LOW_OFF (i : Nat) : Fld := ⟨POWER_DOM_CFG i, 1, 1⟩
def POWER_DOM_CFG_KEEP_WATCH (i : Nat) : Fld := ⟨POWER_DOM_CFG i, 0, 0⟩
/-- POWER.DOM_TIME (14). -/
def POWER_DOM_TIME (i : Nat) : Nat := 0xa00110 + 0x20 * i
/-- POWER.CAP (15). -/
def POWER_CAP : Nat := 0xa01000
def POWER_CAP_LIMIT_MW : Fld := ⟨POWER_CAP, 15, 0⟩
/-- POWER.CAP_FUSE (15). -/
def POWER_CAP_FUSE : Nat := 0xa01004
def POWER_CAP_FUSE_MAX_MW : Fld := ⟨POWER_CAP_FUSE, 31, 16⟩
def POWER_CAP_FUSE_MIN_MW : Fld := ⟨POWER_CAP_FUSE, 15, 0⟩
/-- POWER.GOV_CTRL (15). -/
def POWER_GOV_CTRL : Nat := 0xa01008
def POWER_GOV_CTRL_HEADROOM_MW : Fld := ⟨POWER_GOV_CTRL, 31, 16⟩
def POWER_GOV_CTRL_PERIOD : Fld := ⟨POWER_GOV_CTRL, 15, 0⟩
/-- POWER.CAP_WINDOW (15). -/
def POWER_CAP_WINDOW : Nat := 0xa0100c
def POWER_CAP_WINDOW_ROUNDS : Fld := ⟨POWER_CAP_WINDOW, 15, 0⟩
/-- POWER.CAP_STATUS (15). -/
def POWER_CAP_STATUS : Nat := 0xa01010
def POWER_CAP_STATUS_CAPPING : Fld := ⟨POWER_CAP_STATUS, 31, 31⟩
def POWER_CAP_STATUS_UNREACHABLE : Fld := ⟨POWER_CAP_STATUS, 30, 30⟩
def POWER_CAP_STATUS_FAST : Fld := ⟨POWER_CAP_STATUS, 29, 29⟩
def POWER_CAP_STATUS_BUDGET_MW : Fld := ⟨POWER_CAP_STATUS, 15, 0⟩
/-- POWER.GOV_LIMITS (15). -/
def POWER_GOV_LIMITS (i : Nat) : Nat := 0xa01040 + 0x4 * i
def POWER_GOV_LIMITS_PRIO (i : Nat) : Fld := ⟨POWER_GOV_LIMITS i, 25, 24⟩
def POWER_GOV_LIMITS_DUTY_MIN (i : Nat) : Fld := ⟨POWER_GOV_LIMITS i, 19, 16⟩
def POWER_GOV_LIMITS_OP_MAX (i : Nat) : Fld := ⟨POWER_GOV_LIMITS i, 13, 12⟩
def POWER_GOV_LIMITS_OP_MIN (i : Nat) : Fld := ⟨POWER_GOV_LIMITS i, 9, 8⟩
/-- POWER.GOV_STATE (15). -/
def POWER_GOV_STATE (i : Nat) : Nat := 0xa01080 + 0x4 * i
def POWER_GOV_STATE_DUTY (i : Nat) : Fld := ⟨POWER_GOV_STATE i, 31, 28⟩
def POWER_GOV_STATE_OP (i : Nat) : Fld := ⟨POWER_GOV_STATE i, 25, 24⟩
def POWER_GOV_STATE_CEILING (i : Nat) : Fld := ⟨POWER_GOV_STATE i, 21, 20⟩
def POWER_GOV_STATE_THROTTLED (i : Nat) : Fld := ⟨POWER_GOV_STATE i, 19, 19⟩
def POWER_GOV_STATE_DROOP_LIMITED (i : Nat) : Fld := ⟨POWER_GOV_STATE i, 18, 18⟩
def POWER_GOV_STATE_SENSOR_LIMITED (i : Nat) : Fld := ⟨POWER_GOV_STATE i, 17, 17⟩
def POWER_GOV_STATE_DEMAND (i : Nat) : Fld := ⟨POWER_GOV_STATE i, 16, 16⟩
/-- POWER.HOST_GOV (15). -/
def POWER_HOST_GOV : Nat := 0xa010c0
def POWER_HOST_GOV_PRIO : Fld := ⟨POWER_HOST_GOV, 25, 24⟩
def POWER_HOST_GOV_LEVEL_MIN : Fld := ⟨POWER_HOST_GOV, 9, 8⟩
def POWER_HOST_GOV_LEVEL : Fld := ⟨POWER_HOST_GOV, 1, 0⟩
/-- POWER.MEDIA_GOV (15). -/
def POWER_MEDIA_GOV : Nat := 0xa010c4
def POWER_MEDIA_GOV_PRIO : Fld := ⟨POWER_MEDIA_GOV, 25, 24⟩
def POWER_MEDIA_GOV_DUTY_MIN : Fld := ⟨POWER_MEDIA_GOV, 19, 16⟩
def POWER_MEDIA_GOV_DUTY : Fld := ⟨POWER_MEDIA_GOV, 3, 0⟩
/-- POWER.THERMAL (15). -/
def POWER_THERMAL : Nat := 0xa01100
def POWER_THERMAL_HYST_C : Fld := ⟨POWER_THERMAL, 23, 16⟩
def POWER_THERMAL_TRIP_C : Fld := ⟨POWER_THERMAL, 15, 8⟩
def POWER_THERMAL_THROTTLE_C : Fld := ⟨POWER_THERMAL, 7, 0⟩
/-- POWER.THERMAL_STATUS (15). -/
def POWER_THERMAL_STATUS : Nat := 0xa01104
def POWER_THERMAL_STATUS_THROTTLING : Fld := ⟨POWER_THERMAL_STATUS, 31, 31⟩
def POWER_THERMAL_STATUS_TRIPPED : Fld := ⟨POWER_THERMAL_STATUS, 30, 30⟩
def POWER_THERMAL_STATUS_HOTTEST : Fld := ⟨POWER_THERMAL_STATUS, 15, 8⟩
/-- POWER.DROOP_COUNT (15). -/
def POWER_DROOP_COUNT (i : Nat) : Nat := 0xa01200 + 0x8 * i
/-- POWER.STRETCH_MAX (15). -/
def POWER_STRETCH_MAX (i : Nat) : Nat := 0xa01204 + 0x8 * i
def POWER_STRETCH_MAX_NS (i : Nat) : Fld := ⟨POWER_STRETCH_MAX i, 15, 0⟩
/-- POWER.DROOP_RELEASE (15). -/
def POWER_DROOP_RELEASE : Nat := 0xa01300
def POWER_DROOP_RELEASE_DISTRICT : Fld := ⟨POWER_DROOP_RELEASE, 15, 0⟩
/-- MONITOR.INFO (15). -/
def MONITOR_INFO : Nat := 0xb00000
def MONITOR_INFO_TEMP : Fld := ⟨MONITOR_INFO, 31, 24⟩
def MONITOR_INFO_VOLT : Fld := ⟨MONITOR_INFO, 23, 16⟩
def MONITOR_INFO_PROC : Fld := ⟨MONITOR_INFO, 15, 0⟩
/-- MONITOR.POWER_MW (15). -/
def MONITOR_POWER_MW : Nat := 0xb00010
def MONITOR_POWER_MW_MODULE_MW : Fld := ⟨MONITOR_POWER_MW, 31, 16⟩
def MONITOR_POWER_MW_GOVERNED_MW : Fld := ⟨MONITOR_POWER_MW, 15, 0⟩
/-- MONITOR.EXPRESS_MW (15). -/
def MONITOR_EXPRESS_MW : Nat := 0xb00014
def MONITOR_EXPRESS_MW_MW : Fld := ⟨MONITOR_EXPRESS_MW, 15, 0⟩
/-- MONITOR.HXP_TEMP (15). -/
def MONITOR_HXP_TEMP : Nat := 0xb00030
def MONITOR_HXP_TEMP_TEMP : Fld := ⟨MONITOR_HXP_TEMP, 15, 0⟩
/-- MONITOR.MODEL_TRIM (15). -/
def MONITOR_MODEL_TRIM (i : Nat) : Nat := 0xb00040 + 0x4 * i
def MONITOR_MODEL_TRIM_TRIM (i : Nat) : Fld := ⟨MONITOR_MODEL_TRIM i, 15, 0⟩
/-- MONITOR.TEMP (15). -/
def MONITOR_TEMP (i : Nat) : Nat := 0xb00100 + 0x4 * i
def MONITOR_TEMP_VALID (i : Nat) : Fld := ⟨MONITOR_TEMP i, 31, 31⟩
def MONITOR_TEMP_FAILED (i : Nat) : Fld := ⟨MONITOR_TEMP i, 30, 30⟩
def MONITOR_TEMP_READING (i : Nat) : Fld := ⟨MONITOR_TEMP i, 15, 0⟩
/-- MONITOR.VOLT (15). -/
def MONITOR_VOLT (i : Nat) : Nat := 0xb00200 + 0x4 * i
def MONITOR_VOLT_VALID (i : Nat) : Fld := ⟨MONITOR_VOLT i, 31, 31⟩
def MONITOR_VOLT_FAILED (i : Nat) : Fld := ⟨MONITOR_VOLT i, 30, 30⟩
def MONITOR_VOLT_READING (i : Nat) : Fld := ⟨MONITOR_VOLT i, 15, 0⟩
/-- MONITOR.PROC (15). -/
def MONITOR_PROC (i : Nat) : Nat := 0xb00300 + 0x4 * i
def MONITOR_PROC_VALID (i : Nat) : Fld := ⟨MONITOR_PROC i, 31, 31⟩
def MONITOR_PROC_FAILED (i : Nat) : Fld := ⟨MONITOR_PROC i, 30, 30⟩
def MONITOR_PROC_READING (i : Nat) : Fld := ⟨MONITOR_PROC i, 15, 0⟩
/-- MONITOR.ALARM_HI (15). -/
def MONITOR_ALARM_HI (i : Nat) : Nat := 0xb01000 + 0x8 * i
def MONITOR_ALARM_HI_EN (i : Nat) : Fld := ⟨MONITOR_ALARM_HI i, 31, 31⟩
def MONITOR_ALARM_HI_LEVEL (i : Nat) : Fld := ⟨MONITOR_ALARM_HI i, 15, 0⟩
/-- MONITOR.ALARM_LO (15). -/
def MONITOR_ALARM_LO (i : Nat) : Nat := 0xb01004 + 0x8 * i
def MONITOR_ALARM_LO_LEVEL (i : Nat) : Fld := ⟨MONITOR_ALARM_LO i, 15, 0⟩
/-- MONITOR.ALARM_STATUS (15). -/
def MONITOR_ALARM_STATUS (i : Nat) : Nat := 0xb01400 + 0x4 * i
/-- MONITOR.ENERGY_DIST (15). -/
def MONITOR_ENERGY_DIST (i : Nat) : Nat := 0xb02000 + 0x8 * i
/-- MONITOR.ENERGY_ACCT (15). -/
def MONITOR_ENERGY_ACCT (i : Nat) : Nat := 0xb02100 + 0x8 * i
/-- MONITOR.ENERGY_RING (15). -/
def MONITOR_ENERGY_RING (i : Nat) : Nat := 0xb08000 + 0x8 * i
/-- SECURE.INFO (16). -/
def SECURE_INFO : Nat := 0xc00000
def SECURE_INFO_SEALS : Fld := ⟨SECURE_INFO, 31, 24⟩
def SECURE_INFO_COUNTERS : Fld := ⟨SECURE_INFO, 23, 16⟩
def SECURE_INFO_KEY_SLOTS : Fld := ⟨SECURE_INFO, 15, 8⟩
def SECURE_INFO_VENDOR_KEYS : Fld := ⟨SECURE_INFO, 7, 0⟩
/-- SECURE.STATUS (16). -/
def SECURE_STATUS : Nat := 0xc00004
def SECURE_STATUS_LIFECYCLE : Fld := ⟨SECURE_STATUS, 31, 28⟩
def SECURE_STATUS_OWNER_SET : Fld := ⟨SECURE_STATUS, 27, 27⟩
def SECURE_STATUS_OWNER_REQUIRED : Fld := ⟨SECURE_STATUS, 26, 26⟩
def SECURE_STATUS_VENDOR_REVOKED : Fld := ⟨SECURE_STATUS, 25, 22⟩
def SECURE_STATUS_DEBUG_UNLOCKED : Fld := ⟨SECURE_STATUS, 21, 21⟩
def SECURE_STATUS_RUNTIME_SLOT : Fld := ⟨SECURE_STATUS, 19, 18⟩
def SECURE_STATUS_BOOT_SLOT : Fld := ⟨SECURE_STATUS, 17, 16⟩
def SECURE_STATUS_BOOT_STATE : Fld := ⟨SECURE_STATUS, 15, 12⟩
def SECURE_STATUS_RUNTIME_TRIAL : Fld := ⟨SECURE_STATUS, 11, 11⟩
def SECURE_STATUS_BOOT_TRIAL : Fld := ⟨SECURE_STATUS, 10, 10⟩
/-- SECURE.SEAL (16). -/
def SECURE_SEAL (i j : Nat) : Nat := 0xc00100 + 0x40 * i + 0x4 * j
/-- SECURE.FUSE (16). -/
def SECURE_FUSE (i : Nat) : Nat := 0xc00400 + 0x4 * i
/-- SECURE.SEC_REGION_BASE (16). -/
def SECURE_SEC_REGION_BASE (i : Nat) : Nat := 0xc00600 + 0x10 * i
def SECURE_SEC_REGION_BASE_BASE (i : Nat) : Fld := ⟨SECURE_SEC_REGION_BASE i, 39, 12⟩
def SECURE_SEC_REGION_BASE_EN (i : Nat) : Fld := ⟨SECURE_SEC_REGION_BASE i, 0, 0⟩
/-- SECURE.SEC_REGION_LIMIT (16). -/
def SECURE_SEC_REGION_LIMIT (i : Nat) : Nat := 0xc00608 + 0x10 * i
def SECURE_SEC_REGION_LIMIT_LIMIT (i : Nat) : Fld := ⟨SECURE_SEC_REGION_LIMIT i, 39, 12⟩
/-- SECURE.SEC_NOTIFY (16). -/
def SECURE_SEC_NOTIFY : Nat := 0xc00700
def SECURE_SEC_NOTIFY_THERMAL : Fld := ⟨SECURE_SEC_NOTIFY, 0, 0⟩
/-- SECURE.IRQ_CFG (16). -/
def SECURE_IRQ_CFG : Nat := 0xc00704
def SECURE_IRQ_CFG_EN : Fld := ⟨SECURE_IRQ_CFG, 31, 31⟩
def SECURE_IRQ_CFG_VECTOR : Fld := ⟨SECURE_IRQ_CFG, 10, 0⟩
/-- SECURE.KEY_STATE (16). -/
def SECURE_KEY_STATE : Nat := 0xc00708
/-- SECURE.COUNTER (16). -/
def SECURE_COUNTER (i : Nat) : Nat := 0xc00800 + 0x4 * i
/-- SECURE.MB_REQ (16). -/
def SECURE_MB_REQ (i j : Nat) : Nat := 0xc01000 + 0x400 * i + 0x4 * j
/-- SECURE.MB_RSP (16). -/
def SECURE_MB_RSP (i j : Nat) : Nat := 0xc01100 + 0x400 * i + 0x4 * j
/-- SECURE.MB_CTRL (16). -/
def SECURE_MB_CTRL (i : Nat) : Nat := 0xc01200 + 0x400 * i
def SECURE_MB_CTRL_GO (i : Nat) : Fld := ⟨SECURE_MB_CTRL i, 31, 31⟩
/-- SECURE.MB_STATUS (16). -/
def SECURE_MB_STATUS (i : Nat) : Nat := 0xc01204 + 0x400 * i
def SECURE_MB_STATUS_BUSY (i : Nat) : Fld := ⟨SECURE_MB_STATUS i, 31, 31⟩
def SECURE_MB_STATUS_DONE (i : Nat) : Fld := ⟨SECURE_MB_STATUS i, 30, 30⟩
def SECURE_MB_STATUS_LAST_STATUS (i : Nat) : Fld := ⟨SECURE_MB_STATUS i, 15, 0⟩
/-- ERROR.INFO (18). -/
def ERROR_INFO : Nat := 0xd00000
def ERROR_INFO_RECORDS : Fld := ⟨ERROR_INFO, 31, 16⟩
def ERROR_INFO_RECORD_BYTES : Fld := ⟨ERROR_INFO, 15, 0⟩
/-- ERROR.STATUS (18). -/
def ERROR_STATUS : Nat := 0xd00004
def ERROR_STATUS_SAFE : Fld := ⟨ERROR_STATUS, 31, 31⟩
def ERROR_STATUS_ENTERING : Fld := ⟨ERROR_STATUS, 30, 30⟩
def ERROR_STATUS_CUR_VALID : Fld := ⟨ERROR_STATUS, 29, 29⟩
def ERROR_STATUS_CUR_CLASS : Fld := ⟨ERROR_STATUS, 28, 27⟩
def ERROR_STATUS_QUEUED : Fld := ⟨ERROR_STATUS, 16, 8⟩
def ERROR_STATUS_FATAL : Fld := ⟨ERROR_STATUS, 3, 3⟩
def ERROR_STATUS_DEGRADED : Fld := ⟨ERROR_STATUS, 2, 2⟩
def ERROR_STATUS_CONTAINED : Fld := ⟨ERROR_STATUS, 1, 1⟩
def ERROR_STATUS_NOTE : Fld := ⟨ERROR_STATUS, 0, 0⟩
/-- ERROR.CUR (18). -/
def ERROR_CUR : Nat := 0xd00008
def ERROR_CUR_SLOT : Fld := ⟨ERROR_CUR, 7, 0⟩
/-- ERROR.ACK (18). -/
def ERROR_ACK : Nat := 0xd0000c
/-- ERROR.SEQ_NEXT (18). -/
def ERROR_SEQ_NEXT : Nat := 0xd00010
/-- ERROR.LOST (18). -/
def ERROR_LOST (i : Nat) : Nat := 0xd00020 + 0x4 * i
/-- ERROR.IRQ_CFG (18). -/
def ERROR_IRQ_CFG : Nat := 0xd00030
def ERROR_IRQ_CFG_EN : Fld := ⟨ERROR_IRQ_CFG, 31, 31⟩
def ERROR_IRQ_CFG_MIN_CLASS : Fld := ⟨ERROR_IRQ_CFG, 17, 16⟩
def ERROR_IRQ_CFG_VECTOR : Fld := ⟨ERROR_IRQ_CFG, 10, 0⟩
/-- ERROR.SAFE_CTRL (18). -/
def ERROR_SAFE_CTRL : Nat := 0xd00040
def ERROR_SAFE_CTRL_EXIT : Fld := ⟨ERROR_SAFE_CTRL, 31, 31⟩
def ERROR_SAFE_CTRL_NOW : Fld := ⟨ERROR_SAFE_CTRL, 30, 30⟩
def ERROR_SAFE_CTRL_REQUEST : Fld := ⟨ERROR_SAFE_CTRL, 29, 29⟩
def ERROR_SAFE_CTRL_GRACE : Fld := ⟨ERROR_SAFE_CTRL, 15, 0⟩
/-- ERROR.SAFE_STATUS (18). -/
def ERROR_SAFE_STATUS : Nat := 0xd00044
def ERROR_SAFE_STATUS_CODE : Fld := ⟨ERROR_SAFE_STATUS, 31, 16⟩
def ERROR_SAFE_STATUS_NESTED : Fld := ⟨ERROR_SAFE_STATUS, 15, 15⟩
def ERROR_SAFE_STATUS_REFUSE : Fld := ⟨ERROR_SAFE_STATUS, 3, 0⟩
/-- ERROR.SAFE_ROUND (18). -/
def ERROR_SAFE_ROUND : Nat := 0xd00048
/-- ERROR.SAFE_COUNT (18). -/
def ERROR_SAFE_COUNT : Nat := 0xd00050
/-- ERROR.INJECT (18). -/
def ERROR_INJECT : Nat := 0xd00058
def ERROR_INJECT_UNIT : Fld := ⟨ERROR_INJECT, 31, 16⟩
def ERROR_INJECT_CODE : Fld := ⟨ERROR_INJECT, 15, 0⟩
/-- ERROR.REC (18). -/
def ERROR_REC (i j : Nat) : Nat := 0xd01000 + 0x20 * i + 0x4 * j
/-- FIRMWARE.INFO (17). -/
def FIRMWARE_INFO : Nat := 0xe00000
def FIRMWARE_INFO_PROCESSORS : Fld := ⟨FIRMWARE_INFO, 31, 24⟩
def FIRMWARE_INFO_LEDGER_ENTRY : Fld := ⟨FIRMWARE_INFO, 7, 0⟩
/-- FIRMWARE.FW_READY_LIMIT (17). -/
def FIRMWARE_FW_READY_LIMIT : Nat := 0xe00004
/-- FIRMWARE.PM_STORE (17). -/
def FIRMWARE_PM_STORE : Nat := 0xe00008
def FIRMWARE_PM_STORE_VALID : Fld := ⟨FIRMWARE_PM_STORE, 31, 31⟩
def FIRMWARE_PM_STORE_VERSION : Fld := ⟨FIRMWARE_PM_STORE, 30, 0⟩
/-- FIRMWARE.PROC_STATE (17). -/
def FIRMWARE_PROC_STATE (i : Nat) : Nat := 0xe00100 + 0x20 * i
def FIRMWARE_PROC_STATE_STATE (i : Nat) : Fld := ⟨FIRMWARE_PROC_STATE i, 31, 29⟩
def FIRMWARE_PROC_STATE_WDOG (i : Nat) : Fld := ⟨FIRMWARE_PROC_STATE i, 28, 28⟩
def FIRMWARE_PROC_STATE_LAST_HALT (i : Nat) : Fld := ⟨FIRMWARE_PROC_STATE i, 23, 16⟩
def FIRMWARE_PROC_STATE_HOLD_FORMAT (i : Nat) : Fld := ⟨FIRMWARE_PROC_STATE i, 15, 0⟩
/-- FIRMWARE.PROC_VERSION (17). -/
def FIRMWARE_PROC_VERSION (i : Nat) : Nat := 0xe00104 + 0x20 * i
/-- FIRMWARE.PROC_CTRL (17). -/
def FIRMWARE_PROC_CTRL (i : Nat) : Nat := 0xe00108 + 0x20 * i
def FIRMWARE_PROC_CTRL_HALT (i : Nat) : Fld := ⟨FIRMWARE_PROC_CTRL i, 31, 31⟩
def FIRMWARE_PROC_CTRL_WDOG_ROUNDS (i : Nat) : Fld := ⟨FIRMWARE_PROC_CTRL i, 15, 0⟩
/-- FIRMWARE.PROC_STARTS (17). -/
def FIRMWARE_PROC_STARTS (i : Nat) : Nat := 0xe0010c + 0x20 * i
/-- FIRMWARE.LEDGER_BASE (17). -/
def FIRMWARE_LEDGER_BASE : Nat := 0xe01000
def FIRMWARE_LEDGER_BASE_ADDR : Fld := ⟨FIRMWARE_LEDGER_BASE, 63, 12⟩
def FIRMWARE_LEDGER_BASE_HOST : Fld := ⟨FIRMWARE_LEDGER_BASE, 0, 0⟩
/-- FIRMWARE.LEDGER_CFG (17). -/
def FIRMWARE_LEDGER_CFG : Nat := 0xe01008
def FIRMWARE_LEDGER_CFG_EN : Fld := ⟨FIRMWARE_LEDGER_CFG, 31, 31⟩
def FIRMWARE_LEDGER_CFG_FUNCTION : Fld := ⟨FIRMWARE_LEDGER_CFG, 28, 24⟩
def FIRMWARE_LEDGER_CFG_LOG2_ENTRIES : Fld := ⟨FIRMWARE_LEDGER_CFG, 20, 16⟩
def FIRMWARE_LEDGER_CFG_CLASS : Fld := ⟨FIRMWARE_LEDGER_CFG, 9, 8⟩
def FIRMWARE_LEDGER_CFG_LEVEL : Fld := ⟨FIRMWARE_LEDGER_CFG, 1, 0⟩
/-- FIRMWARE.LEDGER_HEAD (17). -/
def FIRMWARE_LEDGER_HEAD : Nat := 0xe01010
/-- FIRMWARE.LEDGER_TAIL (17). -/
def FIRMWARE_LEDGER_TAIL : Nat := 0xe01014
/-- FIRMWARE.LEDGER_LOST (17). -/
def FIRMWARE_LEDGER_LOST : Nat := 0xe01018
/-- FIRMWARE.LEDGER_STAMP_MASK (17). -/
def FIRMWARE_LEDGER_STAMP_MASK : Nat := 0xe0101c
def FIRMWARE_LEDGER_STAMP_MASK_PROC : Fld := ⟨FIRMWARE_LEDGER_STAMP_MASK, 18, 0⟩
/-- FIRMWARE.SLOT_REC (17). -/
def FIRMWARE_SLOT_REC (i j k : Nat) : Nat := 0xe02000 + 0x40 * i + 0x20 * j + 0x4 * k
/-- FIRMWARE.SERVE_INFO (09). -/
def FIRMWARE_SERVE_INFO : Nat := 0xe08000
def FIRMWARE_SERVE_INFO_SESSIONS : Fld := ⟨FIRMWARE_SERVE_INFO, 31, 24⟩
def FIRMWARE_SERVE_INFO_TENANTS : Fld := ⟨FIRMWARE_SERVE_INFO, 23, 16⟩
def FIRMWARE_SERVE_INFO_SLOTS : Fld := ⟨FIRMWARE_SERVE_INFO, 15, 0⟩
/-- FIRMWARE.PS_POOL_BASE (09). -/
def FIRMWARE_PS_POOL_BASE : Nat := 0xe08008
def FIRMWARE_PS_POOL_BASE_ADDR : Fld := ⟨FIRMWARE_PS_POOL_BASE, 63, 12⟩
def FIRMWARE_PS_POOL_BASE_EN : Fld := ⟨FIRMWARE_PS_POOL_BASE, 0, 0⟩
/-- FIRMWARE.PS_POOL_CFG (09). -/
def FIRMWARE_PS_POOL_CFG : Nat := 0xe08010
def FIRMWARE_PS_POOL_CFG_SLOTS_M1 : Fld := ⟨FIRMWARE_PS_POOL_CFG, 24, 16⟩
def FIRMWARE_PS_POOL_CFG_SLOT_MIB : Fld := ⟨FIRMWARE_PS_POOL_CFG, 8, 0⟩
/-- FIRMWARE.TENANT_FN (09). -/
def FIRMWARE_TENANT_FN (i : Nat) : Nat := 0xe08100 + 0x4 * i
def FIRMWARE_TENANT_FN_VALID (i : Nat) : Fld := ⟨FIRMWARE_TENANT_FN i, 31, 31⟩
def FIRMWARE_TENANT_FN_MAX_SLOTS (i : Nat) : Fld := ⟨FIRMWARE_TENANT_FN i, 15, 8⟩
def FIRMWARE_TENANT_FN_FUNCTION (i : Nat) : Fld := ⟨FIRMWARE_TENANT_FN i, 4, 0⟩
/-- FIRMWARE.PS_SLOT_STATE (09). -/
def FIRMWARE_PS_SLOT_STATE (i : Nat) : Nat := 0xe08400 + 0x8 * i
def FIRMWARE_PS_SLOT_STATE_STATE (i : Nat) : Fld := ⟨FIRMWARE_PS_SLOT_STATE i, 31, 29⟩
def FIRMWARE_PS_SLOT_STATE_TENANT (i : Nat) : Fld := ⟨FIRMWARE_PS_SLOT_STATE i, 27, 24⟩
def FIRMWARE_PS_SLOT_STATE_HANDLE (i : Nat) : Fld := ⟨FIRMWARE_PS_SLOT_STATE i, 23, 16⟩
/-- FIRMWARE.PS_SLOT_GEN (09). -/
def FIRMWARE_PS_SLOT_GEN (i : Nat) : Nat := 0xe08404 + 0x8 * i
def FIRMWARE_PS_SLOT_GEN_GENERATION (i : Nat) : Fld := ⟨FIRMWARE_PS_SLOT_GEN i, 23, 0⟩
/-- FIRMWARE.PS_SLOT_TARGET (09). -/
def FIRMWARE_PS_SLOT_TARGET (i : Nat) : Nat := 0xe08c00 + 0x8 * i
/-- RELAY.CFG (19). -/
def RELAY_CFG : Nat := 0xf00000
def RELAY_CFG_ENABLE : Fld := ⟨RELAY_CFG, 31, 31⟩
def RELAY_CFG_CLASS : Fld := ⟨RELAY_CFG, 9, 8⟩
def RELAY_CFG_SIZE : Fld := ⟨RELAY_CFG, 7, 4⟩
def RELAY_CFG_MODULE : Fld := ⟨RELAY_CFG, 3, 0⟩
/-- RELAY.STATUS (19). -/
def RELAY_STATUS : Nat := 0xf00004
def RELAY_STATUS_STATE : Fld := ⟨RELAY_STATUS, 31, 29⟩
def RELAY_STATUS_UPSTREAM : Fld := ⟨RELAY_STATUS, 7, 4⟩
def RELAY_STATUS_PATH : Fld := ⟨RELAY_STATUS, 3, 0⟩
/-- RELAY.IN_BASE (19). -/
def RELAY_IN_BASE : Nat := 0xf00008
def RELAY_IN_BASE_BASE : Fld := ⟨RELAY_IN_BASE, 39, 12⟩
def RELAY_IN_BASE_EN : Fld := ⟨RELAY_IN_BASE, 0, 0⟩
/-- RELAY.IN_LIMIT (19). -/
def RELAY_IN_LIMIT : Nat := 0xf00010
def RELAY_IN_LIMIT_LIMIT : Fld := ⟨RELAY_IN_LIMIT, 39, 12⟩
/-- RELAY.REPLAYS (19). -/
def RELAY_REPLAYS : Nat := 0xf00018
/-- RELAY.WNAKS (19). -/
def RELAY_WNAKS : Nat := 0xf0001c
/-- RELAY.TX_BYTES (19). -/
def RELAY_TX_BYTES : Nat := 0xf00020
/-- RELAY.RX_BYTES (19). -/
def RELAY_RX_BYTES : Nat := 0xf00028
/-- RELAY.MIRROR (19). -/
def RELAY_MIRROR (i : Nat) : Nat := 0xf00100 + 0x4 * i
def RELAY_MIRROR_EN (i : Nat) : Fld := ⟨RELAY_MIRROR i, 31, 31⟩
def RELAY_MIRROR_BANK (i : Nat) : Fld := ⟨RELAY_MIRROR i, 3, 0⟩

end Reg

/-- The registers of block GLOBAL. -/
def regRowsGLOBAL : List RegRow := [
  ⟨0x0, [], 32, 0x480400b0, [(31, 16, .ro), (15, 8, .ro), (7, 4, .ro), (3, 0, .ro)]⟩,
  ⟨0x4, [], 32, 0x0, [(23, 16, .ro), (15, 12, .ro), (7, 0, .ro)]⟩,
  ⟨0x8, [], 64, 0x0, [(63, 0, .ro)]⟩,
  ⟨0x400, [], 32, 0x144005dc, [(31, 24, .ro), (23, 16, .ro), (15, 0, .ro)]⟩,
  ⟨0x410, [(4, 0x8)], 64, 0x0, [(63, 0, .rw)]⟩,
  ⟨0x800, [], 32, 0x0, [(31, 31, .ro), (30, 28, .ro), (27, 24, .ro)]⟩,
  ⟨0x804, [], 32, 0x5, [(2, 0, .rw)]⟩,
  ⟨0x808, [], 32, 0x0, [(31, 0, .rw)]⟩,
  ⟨0x80c, [], 32, 0x0, [(31, 0, .rw)]⟩,
  ⟨0x810, [], 32, 0x0, [(3, 0, .rw)]⟩,
  ⟨0x814, [], 32, 0x0, [(0, 0, .wo)]⟩,
  ⟨0xc00, [], 32, 0x0, [(31, 31, .ro), (30, 30, .ro), (29, 29, .ro), (28, 28, .ro), (27, 24, .ro)]⟩,
  ⟨0xc08, [], 64, 0x0, [(63, 0, .ro)]⟩,
  ⟨0xc10, [], 32, 0x0, [(31, 24, .wo), (3, 3, .wo), (2, 2, .wo), (1, 1, .wo), (0, 0, .wo)]⟩,
  ⟨0x1000, [(19, 0x10)], 64, 0x0, [(39, 12, .rw), (1, 1, .rw), (0, 0, .rw)]⟩,
  ⟨0x1008, [(19, 0x10)], 64, 0x0, [(39, 12, .rw)]⟩]

/-- The registers of block ROUND. -/
def regRowsROUND : List RegRow := [
  ⟨0x10000, [], 64, 0x0, [(63, 0, .ro)]⟩,
  ⟨0x10008, [], 32, 0x0, [(9, 0, .ro)]⟩,
  ⟨0x1000c, [], 32, 0x0, [(8, 8, .ro), (7, 7, .ro), (6, 6, .ro), (5, 4, .ro), (2, 0, .ro)]⟩,
  ⟨0x10010, [], 32, 0x300, [(31, 31, .wo), (23, 16, .rw), (11, 8, .rw), (3, 2, .rw), (1, 0, .rw)]⟩,
  ⟨0x10014, [], 32, 0xc8, [(13, 0, .rw)]⟩,
  ⟨0x10018, [], 32, 0x0, [(31, 0, .ro)]⟩,
  ⟨0x1001c, [], 32, 0x0, [(31, 0, .ro)]⟩,
  ⟨0x10020, [], 64, 0x0, [(63, 0, .ro)]⟩,
  ⟨0x10028, [], 32, 0x0, [(0, 0, .rw)]⟩,
  ⟨0x10030, [], 32, 0x0, [(15, 0, .pl)]⟩,
  ⟨0x10034, [], 32, 0x0, [(15, 0, .pl)]⟩,
  ⟨0x10038, [], 32, 0x10, [(16, 16, .sh), (8, 8, .sh), (7, 0, .sh)]⟩,
  ⟨0x10040, [], 64, 0x0, [(63, 0, .ro)]⟩,
  ⟨0x10048, [], 64, 0x0, [(63, 6, .rw)]⟩,
  ⟨0x10050, [], 32, 0x0, [(31, 31, .w1s), (30, 30, .w1s), (17, 17, .rw), (16, 16, .rw), (15, 0, .rw)]⟩,
  ⟨0x10054, [], 32, 0x1, [(16, 0, .rw)]⟩,
  ⟨0x10058, [], 32, 0x0, [(31, 31, .ro), (30, 30, .w1c), (29, 29, .w1c), (28, 28, .ro), (27, 24, .ro), (17, 17, .ro), (16, 16, .ro), (15, 0, .ro)]⟩,
  ⟨0x1005c, [], 32, 0x3e8, [(9, 0, .sh)]⟩,
  ⟨0x10060, [], 32, 0x3e80004, [(31, 16, .rw), (7, 0, .rw)]⟩,
  ⟨0x10064, [], 32, 0x854, [(15, 0, .ro)]⟩,
  ⟨0x10100, [(21, 0x4)], 32, 0x0, [(31, 0, .rw)]⟩,
  ⟨0x10180, [(21, 0x4)], 32, 0x0, [(31, 0, .rw)]⟩]

/-- The registers of block TXN. -/
def regRowsTXN : List RegRow := [
  ⟨0x20000, [], 32, 0x0, [(10, 8, .wo), (1, 0, .wo)]⟩,
  ⟨0x20004, [], 32, 0x0, [(31, 31, .ro), (15, 0, .ro)]⟩,
  ⟨0x20008, [], 32, 0x186a0, [(31, 0, .rw)]⟩,
  ⟨0x20010, [], 64, 0x0, [(63, 0, .ro)]⟩,
  ⟨0x20018, [], 32, 0x0, [(31, 0, .rw)]⟩,
  ⟨0x2001c, [], 32, 0x0, [(31, 0, .rw)]⟩,
  ⟨0x20020, [], 32, 0x0, [(15, 0, .ro)]⟩,
  ⟨0x20100, [(8, 0x20)], 32, 0x0, [(31, 16, .ro), (13, 12, .ro), (8, 0, .ro)]⟩,
  ⟨0x20104, [(8, 0x20)], 32, 0x0, [(7, 3, .ro), (2, 0, .ro)]⟩,
  ⟨0x20108, [(8, 0x20)], 64, 0x0, [(63, 0, .ro)]⟩,
  ⟨0x20110, [(8, 0x20)], 64, 0x0, [(63, 0, .ro)]⟩]

/-- The registers of block RINGS. -/
def regRowsRINGS : List RegRow := [
  ⟨0x30000, [(4096, 0x40)], 64, 0x0, [(63, 12, .rw), (0, 0, .rw)]⟩,
  ⟨0x30008, [(4096, 0x40)], 64, 0x0, [(63, 12, .rw), (0, 0, .rw)]⟩,
  ⟨0x30010, [(4096, 0x40)], 32, 0x6, [(20, 16, .rw), (13, 12, .rw), (9, 8, .rw), (4, 0, .rw)]⟩,
  ⟨0x30014, [(4096, 0x40)], 32, 0x0, [(3, 3, .w1s), (2, 2, .w1s), (1, 1, .w1s), (0, 0, .rw)]⟩,
  ⟨0x30018, [(4096, 0x40)], 32, 0x0, [(31, 16, .ro), (9, 9, .w1c), (8, 8, .ro), (1, 0, .ro)]⟩,
  ⟨0x3001c, [(4096, 0x40)], 32, 0x0, [(31, 0, .ro)]⟩,
  ⟨0x30020, [(4096, 0x40)], 32, 0x0, [(31, 0, .ro)]⟩,
  ⟨0x30024, [(4096, 0x40)], 32, 0x0, [(31, 0, .ro)]⟩,
  ⟨0x30028, [(4096, 0x40)], 32, 0x0, [(31, 0, .ro)]⟩,
  ⟨0x3002c, [(4096, 0x40)], 32, 0x0, [(31, 20, .rw), (19, 12, .rw), (10, 0, .rw)]⟩,
  ⟨0x30030, [(4096, 0x40)], 64, 0x0, [(63, 0, .ro)]⟩,
  ⟨0x70000, [], 64, 0x0, [(63, 20, .rw), (0, 0, .rw)]⟩,
  ⟨0x70008, [], 32, 0x0, [(31, 31, .rw), (16, 0, .rw)]⟩,
  ⟨0x70010, [], 64, 0x0, [(63, 0, .wo)]⟩,
  ⟨0x70018, [], 32, 0x0, [(15, 0, .w1c)]⟩,
  ⟨0x70100, [(16, 0x4)], 32, 0x0, [(4, 0, .rw)]⟩]

/-- The registers of block FLOOR. -/
def regRowsFLOOR : List RegRow := [
  ⟨0x100000, [], 32, 0x10041008, [(31, 24, .ro), (23, 16, .ro), (15, 8, .ro), (7, 0, .ro)]⟩,
  ⟨0x100004, [], 32, 0x186a0, [(31, 0, .rw)]⟩,
  ⟨0x101000, [(16, 0x40)], 32, 0x0, [(27, 16, .ro), (11, 10, .ro), (9, 8, .ro), (4, 4, .ro), (3, 3, .ro), (2, 2, .ro), (1, 1, .ro), (0, 0, .ro)]⟩,
  ⟨0x101004, [(16, 0x40)], 32, 0x0, [(22, 16, .ro), (4, 0, .ro)]⟩,
  ⟨0x101008, [(16, 0x40)], 32, 0x0, [(31, 31, .w1c), (19, 16, .ro), (15, 0, .rw)]⟩,
  ⟨0x101010, [(16, 0x40)], 64, 0x0, [(63, 0, .rw)]⟩,
  ⟨0x101018, [(16, 0x40)], 64, 0x0, [(63, 0, .rw)]⟩,
  ⟨0x101020, [(16, 0x40)], 64, 0x0, [(63, 0, .rw)]⟩,
  ⟨0x102000, [(16, 0x40), (16, 0x4)], 32, 0x0, [(31, 0, .ro)]⟩,
  ⟨0x108000, [], 32, 0x600840, [(23, 16, .ro), (15, 8, .ro), (7, 0, .ro)]⟩,
  ⟨0x108004, [], 32, 0x3ff, [(9, 9, .ro), (8, 8, .ro), (7, 7, .ro), (6, 6, .ro), (5, 0, .ro)]⟩,
  ⟨0x108010, [], 32, 0x800003e8, [(31, 31, .rw), (15, 0, .rw)]⟩,
  ⟨0x108100, [(16, 0x4)], 32, 0x0, [(31, 31, .w1c), (23, 16, .ro), (15, 0, .rw)]⟩,
  ⟨0x108180, [(16, 0x4)], 32, 0x0, [(23, 16, .ro), (3, 3, .w1c), (2, 2, .w1c), (1, 1, .w1c), (0, 0, .w1c)]⟩,
  ⟨0x108200, [(16, 0x10)], 64, 0x0, [(63, 0, .rw)]⟩,
  ⟨0x108208, [(16, 0x10)], 64, 0x0, [(63, 0, .rw)]⟩,
  ⟨0x108300, [(16, 0x8)], 64, 0x0, [(63, 0, .rw)]⟩,
  ⟨0x10a000, [], 32, 0x104000, [(23, 16, .ro), (15, 8, .ro)]⟩,
  ⟨0x10a004, [], 32, 0x0, [(0, 0, .rw)]⟩,
  ⟨0x10a008, [], 32, 0x0, [(15, 0, .w1c)]⟩,
  ⟨0x10b000, [(16, 0x100), (64, 0x4)], 32, 0x0, [(31, 31, .ro), (30, 30, .ro), (29, 29, .ro), (23, 16, .ro), (15, 8, .ro), (7, 6, .ro), (5, 0, .rw)]⟩,
  ⟨0x10c000, [], 32, 0x1, [(1, 1, .rw), (0, 0, .rw)]⟩,
  ⟨0x10c004, [], 32, 0xf4240, [(31, 0, .rw)]⟩,
  ⟨0x10c008, [], 32, 0x0, [(15, 0, .ro)]⟩,
  ⟨0x10c00c, [], 32, 0x0, [(15, 0, .wo)]⟩,
  ⟨0x10c010, [], 32, 0x0, [(31, 31, .ro), (27, 24, .rw), (23, 16, .rw), (10, 8, .rw), (7, 0, .rw)]⟩,
  ⟨0x10c040, [(16, 0x4)], 32, 0x0, [(31, 0, .ro)]⟩,
  ⟨0x10c100, [(16, 0x4)], 32, 0xffff0000, [(31, 16, .ro), (11, 8, .ro), (1, 1, .ro), (0, 0, .ro)]⟩,
  ⟨0x10c140, [(16, 0x4)], 32, 0x0, [(31, 31, .ro), (22, 16, .ro), (4, 0, .ro)]⟩,
  ⟨0x10d000, [], 32, 0xf, [(3, 0, .sh)]⟩]

/-- The registers of block MEMCTL. -/
def regRowsMEMCTL : List RegRow := [
  ⟨0x200000, [], 32, 0x8022060, [(31, 24, .ro), (23, 16, .ro), (15, 8, .ro), (7, 0, .ro)]⟩,
  ⟨0x200004, [], 32, 0x0, [(31, 28, .ro), (27, 20, .ro), (19, 16, .ro), (12, 0, .ro)]⟩,
  ⟨0x200008, [], 32, 0x15e0, [(31, 31, .w1s), (12, 0, .rw)]⟩,
  ⟨0x20000c, [], 32, 0x2, [(1, 0, .rw)]⟩,
  ⟨0x200010, [], 32, 0x8, [(7, 0, .rw)]⟩,
  ⟨0x200014, [], 32, 0x0, [(19, 0, .ro)]⟩,
  ⟨0x200100, [(10, 0x4)], 32, 0x0, [(0, 0, .sh)]⟩,
  ⟨0x200144, [(3, 0x4)], 32, 0x0, [(15, 0, .sh)]⟩,
  ⟨0x200180, [(4, 0x8)], 32, 0x0, [(15, 0, .pl)]⟩,
  ⟨0x200184, [(4, 0x8)], 32, 0x0, [(19, 0, .pl)]⟩,
  ⟨0x200200, [(4, 0x8)], 64, 0x0, [(63, 0, .rw)]⟩,
  ⟨0x200240, [(4, 0x4)], 32, 0x0, [(31, 0, .rw)]⟩,
  ⟨0x200250, [(4, 0x4)], 32, 0x0, [(31, 0, .rw)]⟩,
  ⟨0x200300, [(10, 0x4)], 32, 0x0, [(31, 0, .rw)]⟩,
  ⟨0x200340, [(10, 0x4)], 32, 0x0, [(31, 0, .rw)]⟩,
  ⟨0x200400, [(10, 0x10)], 32, 0x0, [(31, 0, .rw)]⟩,
  ⟨0x200404, [(10, 0x10)], 32, 0x0, [(31, 0, .rw)]⟩,
  ⟨0x200408, [(10, 0x10)], 32, 0x0, [(31, 0, .rw)]⟩,
  ⟨0x200500, [], 32, 0x0, [(31, 31, .w1c), (10, 0, .ro)]⟩,
  ⟨0x200508, [], 64, 0x0, [(39, 6, .ro)]⟩,
  ⟨0x200510, [], 64, 0x0, [(63, 0, .ro)]⟩]

/-- The registers of block ISP. -/
def regRowsISP : List RegRow := [
  ⟨0x300000, [(16, 0x40)], 32, 0x10800, [(31, 31, .rw), (30, 30, .rw), (29, 28, .rw), (27, 26, .rw), (21, 16, .rw), (11, 8, .rw)]⟩,
  ⟨0x300004, [(16, 0x40)], 32, 0x0, [(31, 16, .rw), (15, 0, .rw)]⟩,
  ⟨0x300008, [(16, 0x40)], 32, 0x0, [(31, 16, .pl), (15, 0, .pl)]⟩,
  ⟨0x30000c, [(16, 0x40)], 32, 0x0, [(31, 16, .pl), (15, 0, .pl)]⟩,
  ⟨0x300010, [(16, 0x40)], 32, 0x0, [(10, 8, .sh), (3, 0, .sh)]⟩,
  ⟨0x300018, [(16, 0x40)], 64, 0x0, [(63, 8, .rw)]⟩,
  ⟨0x300020, [(16, 0x40)], 64, 0x0, [(63, 0, .rw)]⟩]

/-- The registers of block VCODEC. -/
def regRowsVCODEC : List RegRow := [
  ⟨0x400000, [(32, 0x40)], 32, 0x40000, [(31, 31, .rw), (30, 29, .rw), (19, 16, .rw)]⟩,
  ⟨0x400008, [(32, 0x40)], 64, 0x0, [(63, 12, .rw)]⟩,
  ⟨0x400018, [(32, 0x40)], 64, 0x0, [(63, 12, .rw)]⟩,
  ⟨0x400020, [(32, 0x40)], 64, 0x0, [(63, 12, .rw)]⟩,
  ⟨0x400010, [(32, 0x40)], 32, 0x0, [(31, 16, .rw), (15, 0, .rw)]⟩,
  ⟨0x400028, [(32, 0x40)], 32, 0x0, [(16, 0, .rw)]⟩,
  ⟨0x400030, [(32, 0x40)], 64, 0x0, [(63, 0, .ro)]⟩,
  ⟨0x401000, [(8, 0x40)], 32, 0x11e1c, [(31, 31, .rw), (30, 29, .rw), (28, 24, .rw), (23, 16, .rw), (15, 8, .rw), (5, 0, .rw)]⟩,
  ⟨0x401004, [(8, 0x40)], 32, 0x0, [(31, 0, .rw)]⟩,
  ⟨0x401008, [(8, 0x40)], 64, 0x0, [(63, 12, .rw)]⟩,
  ⟨0x401018, [(8, 0x40)], 64, 0x0, [(63, 12, .rw)]⟩,
  ⟨0x401028, [(8, 0x40)], 64, 0x0, [(63, 12, .rw)]⟩,
  ⟨0x401020, [(8, 0x40)], 32, 0x0, [(15, 0, .rw)]⟩,
  ⟨0x401010, [(8, 0x40)], 32, 0x4000000, [(31, 31, .rw), (27, 24, .rw), (23, 22, .rw), (21, 17, .rw), (16, 0, .rw)]⟩,
  ⟨0x402000, [], 32, 0x40000, [(31, 31, .rw), (21, 20, .rw), (19, 16, .rw), (4, 0, .rw)]⟩,
  ⟨0x402008, [], 64, 0x0, [(63, 6, .rw)]⟩,
  ⟨0x402010, [], 64, 0x0, [(48, 32, .rw), (16, 0, .rw)]⟩]

/-- The registers of block CAMERA. -/
def regRowsCAMERA : List RegRow := [
  ⟨0x500000, [(8, 0x20)], 32, 0x0, [(31, 31, .rw), (24, 24, .rw), (23, 20, .rw), (19, 19, .rw), (15, 0, .rw)]⟩,
  ⟨0x500008, [(8, 0x20)], 32, 0x0, [(31, 16, .rw), (15, 0, .rw)]⟩,
  ⟨0x501000, [(24, 0x40)], 32, 0x0, [(31, 31, .rw), (30, 28, .rw), (27, 25, .rw), (24, 21, .rw), (20, 15, .rw), (14, 13, .rw), (12, 8, .rw), (4, 0, .rw)]⟩,
  ⟨0x501008, [(24, 0x40)], 64, 0x0, [(63, 12, .rw)]⟩,
  ⟨0x501018, [(24, 0x40)], 64, 0x0, [(63, 11, .rw)]⟩,
  ⟨0x501010, [(24, 0x40)], 32, 0x10000000, [(31, 28, .rw), (23, 0, .rw)]⟩,
  ⟨0x501020, [(24, 0x40)], 64, 0x0, [(63, 63, .rw), (48, 32, .rw), (31, 31, .rw), (16, 0, .rw)]⟩,
  ⟨0x501028, [(24, 0x40)], 64, 0x0, [(63, 0, .ro)]⟩,
  ⟨0x501030, [(24, 0x40)], 32, 0x0, [(31, 0, .rw)]⟩,
  ⟨0x502000, [(8, 0x10)], 32, 0x0, [(31, 31, .rw), (23, 0, .rw)]⟩,
  ⟨0x502004, [(8, 0x10)], 32, 0x0, [(28, 24, .rw), (16, 0, .rw)]⟩,
  ⟨0x502008, [(8, 0x10)], 64, 0x0, [(63, 0, .ro)]⟩]

/-- The registers of block EXPRESS. -/
def regRowsEXPRESS : List RegRow := [
  ⟨0x600000, [(8, 0x40)], 32, 0x0, [(31, 31, .rw), (27, 26, .sh), (22, 20, .sh), (16, 16, .rw)]⟩,
  ⟨0x600004, [(8, 0x40)], 32, 0x0, [(9, 0, .rw)]⟩,
  ⟨0x600008, [(8, 0x40)], 32, 0x0, [(31, 31, .ro), (30, 30, .ro), (29, 29, .w1c), (28, 28, .w1c), (27, 27, .w1c), (26, 26, .w1c), (15, 0, .ro)]⟩,
  ⟨0x600010, [(8, 0x40)], 64, 0x0, [(63, 0, .ro)]⟩,
  ⟨0x600018, [(8, 0x40)], 32, 0x0, [(31, 0, .ro)]⟩,
  ⟨0x60001c, [(8, 0x40)], 32, 0x0, [(31, 0, .ro)]⟩,
  ⟨0x601000, [(8, 0x100), (32, 0x8)], 64, 0x0, [(63, 0, .ro)]⟩,
  ⟨0x602000, [], 64, 0x0, [(63, 12, .rw), (0, 0, .rw)]⟩,
  ⟨0x602008, [], 32, 0xc, [(4, 0, .rw)]⟩,
  ⟨0x602010, [], 64, 0x0, [(63, 0, .ro)]⟩,
  ⟨0x602018, [], 32, 0x0, [(31, 0, .ro)]⟩]

/-- The registers of block CPORT. -/
def regRowsCPORT : List RegRow := [
  ⟨0x700000, [(2, 0x1000)], 32, 0x3, [(31, 31, .rw), (8, 8, .rw), (1, 1, .rw), (0, 0, .rw)]⟩,
  ⟨0x700008, [(2, 0x1000)], 64, 0x0, [(47, 0, .rw)]⟩,
  ⟨0x700010, [(2, 0x1000)], 32, 0x88b50000, [(31, 16, .rw), (15, 0, .rw)]⟩,
  ⟨0x700014, [(2, 0x1000)], 32, 0xc0000064, [(31, 29, .rw), (15, 0, .rw)]⟩,
  ⟨0x700018, [(2, 0x1000)], 32, 0x186a0, [(31, 0, .rw)]⟩,
  ⟨0x70001c, [(2, 0x1000)], 32, 0x0, [(31, 31, .ro), (30, 29, .ro), (28, 28, .ro)]⟩,
  ⟨0x700040, [(2, 0x1000), (8, 0x4)], 32, 0x0, [(31, 0, .rw)]⟩,
  ⟨0x708000, [(2, 0x1000)], 32, 0x0, [(31, 31, .rw), (30, 30, .ro), (24, 24, .ro), (16, 16, .ro), (7, 0, .rw)]⟩,
  ⟨0x708008, [(2, 0x1000)], 64, 0x0, [(63, 0, .rw)]⟩,
  ⟨0x708010, [(2, 0x1000), (2, 0x4)], 32, 0x0, [(15, 0, .rw)]⟩,
  ⟨0x708040, [(2, 0x1000), (4, 0x4)], 32, 0x0, [(31, 0, .ro)]⟩,
  ⟨0x708100, [(2, 0x1000), (2, 0x80), (16, 0x8)], 64, 0x0, [(63, 63, .rw), (47, 32, .rw), (25, 16, .rw), (15, 0, .rw)]⟩]

/-- The registers of block PLANT. -/
def regRowsPLANT : List RegRow := [
  ⟨0x800000, [(2, 0x1000)], 32, 0x7, [(31, 31, .rw), (9, 9, .rw), (8, 8, .rw), (2, 0, .rw)]⟩,
  ⟨0x800004, [(2, 0x1000)], 32, 0x0, [(31, 31, .ro), (30, 28, .ro)]⟩,
  ⟨0x800008, [(2, 0x1000)], 64, 0x0, [(47, 0, .rw)]⟩,
  ⟨0x800100, [(2, 0x1000), (16, 0x8)], 64, 0x0, [(63, 63, .rw), (49, 48, .rw), (47, 0, .rw)]⟩,
  ⟨0x800400, [(2, 0x1000), (4, 0x40)], 64, 0x0, [(63, 12, .rw), (0, 0, .rw)]⟩,
  ⟨0x800408, [(2, 0x1000), (4, 0x40)], 32, 0x60000, [(31, 31, .rw), (30, 30, .rw), (28, 24, .rw), (21, 20, .rw), (19, 16, .rw), (10, 0, .rw)]⟩,
  ⟨0x80040c, [(2, 0x1000), (4, 0x40)], 32, 0x0, [(31, 0, .rw)]⟩,
  ⟨0x800410, [(2, 0x1000), (4, 0x40)], 32, 0x0, [(31, 0, .ro)]⟩,
  ⟨0x800414, [(2, 0x1000), (4, 0x40)], 32, 0x0, [(31, 31, .rw), (16, 0, .rw)]⟩,
  ⟨0x800800, [(2, 0x1000), (4, 0x40)], 64, 0x0, [(63, 12, .rw), (0, 0, .rw)]⟩,
  ⟨0x800808, [(2, 0x1000), (4, 0x40)], 32, 0x60000, [(31, 31, .rw), (30, 30, .rw), (28, 24, .rw), (21, 20, .rw), (19, 16, .rw), (10, 0, .rw)]⟩,
  ⟨0x80080c, [(2, 0x1000), (4, 0x40)], 32, 0x0, [(31, 0, .rw)]⟩,
  ⟨0x800810, [(2, 0x1000), (4, 0x40)], 32, 0x0, [(31, 0, .ro)]⟩,
  ⟨0x800814, [(2, 0x1000), (4, 0x40)], 32, 0x0, [(31, 31, .rw), (16, 0, .rw)]⟩,
  ⟨0x800c00, [(2, 0x1000)], 64, 0x0, [(63, 0, .rw)]⟩,
  ⟨0x800c08, [(2, 0x1000)], 64, 0x0, [(63, 0, .rw)]⟩,
  ⟨0x800c10, [(2, 0x1000)], 32, 0x0, [(31, 0, .rw)]⟩]

/-- The registers of block FABRIC. -/
def regRowsFABRIC : List RegRow := [
  ⟨0x900000, [], 32, 0x24080820, [(31, 24, .ro), (23, 16, .ro), (15, 8, .ro), (7, 0, .ro)]⟩,
  ⟨0x900008, [], 32, 0x200000, [(31, 31, .rw), (21, 20, .rw), (4, 0, .rw)]⟩,
  ⟨0x900010, [], 32, 0x80000064, [(31, 31, .rw), (15, 0, .rw)]⟩,
  ⟨0x900020, [], 32, 0x0, [(31, 31, .w1s), (27, 24, .rw), (18, 16, .rw), (15, 0, .rw)]⟩,
  ⟨0x900024, [], 32, 0x0, [(31, 31, .ro), (30, 30, .w1c), (29, 29, .w1c), (27, 24, .ro)]⟩,
  ⟨0x900018, [], 64, 0x0, [(63, 0, .rw)]⟩,
  ⟨0x900030, [(4, 0x4)], 32, 0x80000064, [(31, 31, .rw), (9, 0, .rw)]⟩,
  ⟨0x900100, [(82, 0x4)], 32, 0x0, [(31, 0, .ro)]⟩,
  ⟨0x901000, [(8, 0x40)], 32, 0x0, [(5, 0, .pl)]⟩,
  ⟨0x901004, [(8, 0x40)], 32, 0x0, [(5, 0, .pl)]⟩,
  ⟨0x901008, [(8, 0x40)], 32, 0x100, [(8, 8, .rw), (0, 0, .rw)]⟩,
  ⟨0x90100c, [(8, 0x40)], 32, 0x0, [(31, 30, .ro), (29, 29, .ro), (15, 0, .ro)]⟩,
  ⟨0x901010, [(8, 0x40)], 32, 0x0, [(31, 0, .ro)]⟩,
  ⟨0x901014, [(8, 0x40)], 32, 0x0, [(31, 0, .rw)]⟩,
  ⟨0x901018, [(8, 0x40)], 32, 0x0, [(15, 0, .ro)]⟩,
  ⟨0x90101c, [(8, 0x40)], 32, 0x0, [(0, 0, .rw)]⟩,
  ⟨0x902000, [(32, 0x4)], 32, 0x0, [(1, 0, .rw)]⟩]

/-- The registers of block POWER. -/
def regRowsPOWER : List RegRow := [
  ⟨0xa00000, [], 32, 0x18030208, [(31, 24, .ro), (23, 16, .ro), (15, 8, .ro), (7, 0, .ro)]⟩,
  ⟨0xa00010, [], 32, 0x0, [(31, 16, .wo), (8, 8, .wo), (4, 4, .wo), (1, 0, .wo)]⟩,
  ⟨0xa00014, [], 32, 0x0, [(31, 30, .ro), (29, 28, .ro), (27, 27, .ro), (26, 26, .ro), (25, 25, .ro)]⟩,
  ⟨0xa00018, [], 32, 0x0, [(31, 16, .ro), (15, 12, .ro), (11, 8, .ro), (7, 0, .ro)]⟩,
  ⟨0xa0001c, [], 32, 0x0, [(26, 0, .ro)]⟩,
  ⟨0xa00020, [], 32, 0x4e20, [(31, 0, .rw)]⟩,
  ⟨0xa00024, [], 32, 0x0, [(1, 0, .wo)]⟩,
  ⟨0xa00030, [], 32, 0x43, [(7, 0, .rw)]⟩,
  ⟨0xa00034, [], 32, 0x0, [(7, 0, .w1c)]⟩,
  ⟨0xa00038, [], 32, 0x0, [(7, 0, .ro)]⟩,
  ⟨0xa00040, [], 64, 0x0, [(63, 0, .rw)]⟩,
  ⟨0xa00048, [], 32, 0x0, [(6, 0, .ro)]⟩,
  ⟨0xa0004c, [], 32, 0x0, [(6, 0, .wo)]⟩,
  ⟨0xa00050, [], 32, 0x0, [(23, 0, .rw)]⟩,
  ⟨0xa00054, [], 32, 0x0, [(3, 3, .w1c), (2, 2, .w1c), (1, 1, .w1c), (0, 0, .w1c)]⟩,
  ⟨0xa00058, [], 32, 0x0, [(31, 31, .rw), (10, 0, .rw)]⟩,
  ⟨0xa00060, [(2, 0x4)], 32, 0x0, [(31, 16, .rw), (15, 8, .rw), (7, 0, .ro)]⟩,
  ⟨0xa00100, [(24, 0x20)], 32, 0x0, [(31, 16, .wo), (4, 4, .wo), (1, 0, .wo)]⟩,
  ⟨0xa00104, [(24, 0x20)], 32, 0x0, [(31, 30, .ro), (29, 28, .ro), (27, 27, .ro), (26, 26, .ro), (25, 25, .ro), (24, 24, .ro), (15, 0, .ro)]⟩,
  ⟨0xa00108, [(24, 0x20)], 32, 0x0, [(31, 16, .ro), (15, 12, .ro), (11, 8, .ro), (7, 0, .ro)]⟩,
  ⟨0xa0010c, [(24, 0x20)], 32, 0x0, [(1, 1, .rw), (0, 0, .rw)]⟩,
  ⟨0xa00110, [(24, 0x20)], 32, 0x0, [(31, 0, .ro)]⟩,
  ⟨0xa01000, [], 32, 0xd6d8, [(15, 0, .sh)]⟩,
  ⟨0xa01004, [], 32, 0xd6d81f40, [(31, 16, .ro), (15, 0, .ro)]⟩,
  ⟨0xa01008, [], 32, 0x3e80064, [(31, 16, .rw), (15, 0, .rw)]⟩,
  ⟨0xa0100c, [], 32, 0x3e8, [(15, 0, .rw)]⟩,
  ⟨0xa01010, [], 32, 0x0, [(31, 31, .ro), (30, 30, .ro), (29, 29, .ro), (15, 0, .ro)]⟩,
  ⟨0xa01040, [(16, 0x4)], 32, 0x1013000, [(25, 24, .rw), (19, 16, .rw), (13, 12, .rw), (9, 8, .rw)]⟩,
  ⟨0xa01080, [(16, 0x4)], 32, 0x82300000, [(31, 28, .ro), (25, 24, .ro), (21, 20, .ro), (19, 19, .ro), (18, 18, .ro), (17, 17, .ro), (16, 16, .ro)]⟩,
  ⟨0xa010c0, [], 32, 0x3000003, [(25, 24, .rw), (9, 8, .rw), (1, 0, .ro)]⟩,
  ⟨0xa010c4, [], 32, 0x3010008, [(25, 24, .rw), (19, 16, .rw), (3, 0, .ro)]⟩,
  ⟨0xa01100, [], 32, 0x57364, [(23, 16, .ro), (15, 8, .ro), (7, 0, .rw)]⟩,
  ⟨0xa01104, [], 32, 0x0, [(31, 31, .ro), (30, 30, .rs), (15, 8, .ro)]⟩,
  ⟨0xa01200, [(19, 0x8)], 32, 0x0, [(31, 0, .rw)]⟩,
  ⟨0xa01204, [(19, 0x8)], 32, 0x0, [(15, 0, .rw)]⟩,
  ⟨0xa01300, [], 32, 0x0, [(15, 0, .wo)]⟩]

/-- The registers of block MONITOR. -/
def regRowsMONITOR : List RegRow := [
  ⟨0xb00000, [], 32, 0x30200040, [(31, 24, .ro), (23, 16, .ro), (15, 0, .ro)]⟩,
  ⟨0xb00010, [], 32, 0x0, [(31, 16, .ro), (15, 0, .ro)]⟩,
  ⟨0xb00014, [], 32, 0x0, [(15, 0, .ro)]⟩,
  ⟨0xb00030, [], 32, 0x0, [(15, 0, .ro)]⟩,
  ⟨0xb00040, [(17, 0x4)], 32, 0x1000, [(15, 0, .ro)]⟩,
  ⟨0xb00100, [(48, 0x4)], 32, 0x0, [(31, 31, .ro), (30, 30, .ro), (15, 0, .ro)]⟩,
  ⟨0xb00200, [(32, 0x4)], 32, 0x0, [(31, 31, .ro), (30, 30, .ro), (15, 0, .ro)]⟩,
  ⟨0xb00300, [(64, 0x4)], 32, 0x0, [(31, 31, .ro), (30, 30, .ro), (15, 0, .ro)]⟩,
  ⟨0xb01000, [(80, 0x8)], 32, 0x7fff, [(31, 31, .rw), (15, 0, .pl)]⟩,
  ⟨0xb01004, [(80, 0x8)], 32, 0x0, [(15, 0, .pl)]⟩,
  ⟨0xb01400, [(3, 0x4)], 32, 0x0, [(31, 0, .w1c)]⟩,
  ⟨0xb02000, [(16, 0x8)], 64, 0x0, [(63, 0, .rw)]⟩,
  ⟨0xb02100, [(13, 0x8)], 64, 0x0, [(63, 0, .rw)]⟩,
  ⟨0xb08000, [(4096, 0x8)], 64, 0x0, [(63, 0, .rw)]⟩]

/-- The registers of block SECURE. -/
def regRowsSECURE : List RegRow := [
  ⟨0xc00000, [], 32, 0x8401004, [(31, 24, .ro), (23, 16, .ro), (15, 8, .ro), (7, 0, .ro)]⟩,
  ⟨0xc00004, [], 32, 0x0, [(31, 28, .ro), (27, 27, .ro), (26, 26, .ro), (25, 22, .ro), (21, 21, .ro), (19, 18, .ro), (17, 16, .ro), (15, 12, .ro), (11, 11, .ro), (10, 10, .ro)]⟩,
  ⟨0xc00100, [(8, 0x40), (12, 0x4)], 32, 0x0, [(31, 0, .ro)]⟩,
  ⟨0xc00400, [(128, 0x4)], 32, 0x0, [(31, 0, .ro)]⟩,
  ⟨0xc00600, [(8, 0x10)], 64, 0x0, [(39, 12, .rw), (0, 0, .rw)]⟩,
  ⟨0xc00608, [(8, 0x10)], 64, 0x0, [(39, 12, .rw)]⟩,
  ⟨0xc00700, [], 32, 0x0, [(0, 0, .w1c)]⟩,
  ⟨0xc00704, [], 32, 0x0, [(31, 31, .rw), (10, 0, .rw)]⟩,
  ⟨0xc00708, [], 32, 0x0, [(31, 0, .ro)]⟩,
  ⟨0xc00800, [(64, 0x4)], 32, 0x0, [(31, 0, .ro)]⟩,
  ⟨0xc01000, [(2, 0x400), (64, 0x4)], 32, 0x0, [(31, 0, .wo)]⟩,
  ⟨0xc01100, [(2, 0x400), (64, 0x4)], 32, 0x0, [(31, 0, .ro)]⟩,
  ⟨0xc01200, [(2, 0x400)], 32, 0x0, [(31, 31, .w1s)]⟩,
  ⟨0xc01204, [(2, 0x400)], 32, 0x0, [(31, 31, .ro), (30, 30, .w1c), (15, 0, .ro)]⟩]

/-- The registers of block ERROR. -/
def regRowsERROR : List RegRow := [
  ⟨0xd00000, [], 32, 0x1000020, [(31, 16, .ro), (15, 0, .ro)]⟩,
  ⟨0xd00004, [], 32, 0x0, [(31, 31, .ro), (30, 30, .ro), (29, 29, .ro), (28, 27, .ro), (16, 8, .ro), (3, 3, .rs), (2, 2, .w1c), (1, 1, .w1c), (0, 0, .w1c)]⟩,
  ⟨0xd00008, [], 32, 0x0, [(7, 0, .ro)]⟩,
  ⟨0xd0000c, [], 32, 0x0, [(31, 0, .wo)]⟩,
  ⟨0xd00010, [], 32, 0x0, [(31, 0, .ro)]⟩,
  ⟨0xd00020, [(4, 0x4)], 32, 0x0, [(31, 0, .rw)]⟩,
  ⟨0xd00030, [], 32, 0x0, [(31, 31, .rw), (17, 16, .rw), (10, 0, .rw)]⟩,
  ⟨0xd00040, [], 32, 0xc8, [(31, 31, .wo), (30, 30, .wo), (29, 29, .wo), (15, 0, .rw)]⟩,
  ⟨0xd00044, [], 32, 0x0, [(31, 16, .ro), (15, 15, .ro), (3, 0, .ro)]⟩,
  ⟨0xd00048, [], 64, 0x0, [(63, 0, .ro)]⟩,
  ⟨0xd00050, [], 32, 0x0, [(31, 0, .ro)]⟩,
  ⟨0xd00058, [], 32, 0x0, [(31, 16, .wo), (15, 0, .wo)]⟩,
  ⟨0xd01000, [(256, 0x20), (8, 0x4)], 32, 0x0, [(31, 0, .ro)]⟩]

/-- The registers of block FIRMWARE. -/
def regRowsFIRMWARE : List RegRow := [
  ⟨0xe00000, [], 32, 0x13000020, [(31, 24, .ro), (7, 0, .ro)]⟩,
  ⟨0xe00004, [], 32, 0x186a0, [(31, 0, .rw)]⟩,
  ⟨0xe00008, [], 32, 0x0, [(31, 31, .ro), (30, 0, .ro)]⟩,
  ⟨0xe00100, [(19, 0x20)], 32, 0x20000000, [(31, 29, .ro), (28, 28, .w1c), (23, 16, .ro), (15, 0, .ro)]⟩,
  ⟨0xe00104, [(19, 0x20)], 32, 0x0, [(31, 0, .ro)]⟩,
  ⟨0xe00108, [(19, 0x20)], 32, 0x0, [(31, 31, .w1s), (15, 0, .rw)]⟩,
  ⟨0xe0010c, [(19, 0x20)], 32, 0x0, [(31, 0, .rw)]⟩,
  ⟨0xe01000, [], 64, 0x0, [(63, 12, .rw), (0, 0, .rw)]⟩,
  ⟨0xe01008, [], 32, 0xc0302, [(31, 31, .rw), (28, 24, .rw), (20, 16, .rw), (9, 8, .rw), (1, 0, .rw)]⟩,
  ⟨0xe01010, [], 32, 0x0, [(31, 0, .ro)]⟩,
  ⟨0xe01014, [], 32, 0x0, [(31, 0, .rw)]⟩,
  ⟨0xe01018, [], 32, 0x0, [(31, 0, .rw)]⟩,
  ⟨0xe0101c, [], 32, 0x0, [(18, 0, .rw)]⟩,
  ⟨0xe02000, [(2, 0x40), (2, 0x20), (8, 0x4)], 32, 0xffffffff, [(31, 0, .ro)]⟩,
  ⟨0xe08000, [], 32, 0x10100100, [(31, 24, .ro), (23, 16, .ro), (15, 0, .ro)]⟩,
  ⟨0xe08008, [], 64, 0x0, [(63, 12, .rw), (0, 0, .rw)]⟩,
  ⟨0xe08010, [], 32, 0xf0010, [(24, 16, .rw), (8, 0, .rw)]⟩,
  ⟨0xe08100, [(16, 0x4)], 32, 0x0, [(31, 31, .rw), (15, 8, .rw), (4, 0, .rw)]⟩,
  ⟨0xe08400, [(256, 0x8)], 32, 0x0, [(31, 29, .ro), (27, 24, .ro), (23, 16, .ro)]⟩,
  ⟨0xe08404, [(256, 0x8)], 32, 0x0, [(23, 0, .ro)]⟩,
  ⟨0xe08c00, [(256, 0x8)], 64, 0x0, [(63, 0, .ro)]⟩]

/-- The registers of block RELAY. -/
def regRowsRELAY : List RegRow := [
  ⟨0xf00000, [], 32, 0x210, [(31, 31, .rw), (9, 8, .rw), (7, 4, .rw), (3, 0, .rw)]⟩,
  ⟨0xf00004, [], 32, 0x0, [(31, 29, .ro), (7, 4, .ro), (3, 0, .ro)]⟩,
  ⟨0xf00008, [], 64, 0x0, [(39, 12, .rw), (0, 0, .rw)]⟩,
  ⟨0xf00010, [], 64, 0x0, [(39, 12, .rw)]⟩,
  ⟨0xf00018, [], 32, 0x0, [(31, 0, .rw)]⟩,
  ⟨0xf0001c, [], 32, 0x0, [(31, 0, .rw)]⟩,
  ⟨0xf00020, [], 64, 0x0, [(63, 0, .rw)]⟩,
  ⟨0xf00028, [], 64, 0x0, [(63, 0, .rw)]⟩,
  ⟨0xf00100, [(16, 0x4)], 32, 0x0, [(31, 31, .rw), (3, 0, .rw)]⟩]

/-- The rows of the block that a BAR0 offset lies in (Atlas Table 22.1: a block extends to the next block's base). -/
def regRowsAt (off : Nat) : List RegRow :=
  if off < 0x10000 then regRowsGLOBAL else if off < 0x20000 then regRowsROUND else if off < 0x30000 then regRowsTXN
  else if off < 0x100000 then regRowsRINGS else if off < 0x200000 then regRowsFLOOR else if off < 0x300000 then regRowsMEMCTL
  else if off < 0x400000 then regRowsISP else if off < 0x500000 then regRowsVCODEC else if off < 0x600000 then regRowsCAMERA
  else if off < 0x700000 then regRowsEXPRESS else if off < 0x800000 then regRowsCPORT else if off < 0x900000 then regRowsPLANT
  else if off < 0xA00000 then regRowsFABRIC else if off < 0xB00000 then regRowsPOWER else if off < 0xC00000 then regRowsMONITOR
  else if off < 0xD00000 then regRowsSECURE else if off < 0xE00000 then regRowsERROR else if off < 0xF00000 then regRowsFIRMWARE
  else if off < 0x1000000 then regRowsRELAY else []

/-- Whether a distance from the first element of an array of registers is that of some element. -/
def onGrid : List (Nat × Nat) → Nat → Bool
  | [], k => k == 0
  | [(n, st)], k => k % st == 0 && decide (k / st < n)
  | (n, st) :: t, k => decide (k / st < n) && onGrid t (k % st)

/-- The row whose array has a register at this offset, if the offset holds one (Scope R15). -/
def regRow? (off : Nat) : Option RegRow :=
  (regRowsAt off).find? fun r => decide (r.base ≤ off) && onGrid r.dims (off - r.base)

/-- The fuse words as a module leaves the factory, where the chapters give them (Trust Table 16.13). -/
def fuseReset (w : Nat) : Nat :=
  if w = 0 then 0x480400B0 else if w = 1 then (if Config.isM16 then 0x21010 else 0x21020)
  else if w = 2 then Word.bits Config.dieSerial 31 0 else if w = 3 then Word.bits Config.dieSerial 63 32
  else if w = 4 then 0x00010011 else if decide (8 ≤ w) && decide (w < 56) then Config.vendorKey w % 2 ^ 32 else if w = 5 then 0xD6D81F40 else 0

/-- Reset values that are not one number for the whole row; the chapters give each, or the assumption log does. -/
def regResetOther (off : Nat) : Option Word :=
  if off = Reg.GLOBAL_MODULE_INFO then some (if Config.isM16 then 0x21010 else 0x21020)
  else if off = Reg.GLOBAL_DIE_SERIAL then some Config.dieSerial
  else if off = Reg.GLOBAL_FN_WIN_BASE 0 || off = Reg.GLOBAL_FN_WIN_BASE 17 || off = Reg.GLOBAL_FN_WIN_BASE 18 then some 3
  else if off = Reg.GLOBAL_FN_WIN_LIMIT 0 || off = Reg.GLOBAL_FN_WIN_LIMIT 17 || off = Reg.GLOBAL_FN_WIN_LIMIT 18 then
    some 0xFFFFFFF000
  else if off = Reg.RINGS_RECEIPT_BANK_OWNER 15 then some 20
  else if off = Reg.MEMCTL_AGE_LIMIT 0 then some 4
  else if off = Reg.MEMCTL_AGE_LIMIT 1 then some 32
  else if off = Reg.MEMCTL_AGE_LIMIT 2 then some 256
  else if decide (Reg.POWER_DOM_STATUS 0 ≤ off) && decide (off ≤ Reg.POWER_DOM_STATUS 23) && off % 0x20 == 4 then
    some (0xC0000000 + (if off ≤ Reg.POWER_DOM_STATUS 15 then 620 else if off = Reg.POWER_DOM_STATUS 16 then 800 else 0))
  else if off = Reg.POWER_DOM_CFG 19 || off = Reg.POWER_DOM_CFG 21 then some 1
  else if decide (Reg.MONITOR_ALARM_LO 0 ≤ off) && decide (off ≤ Reg.MONITOR_ALARM_LO 47) && off % 8 == 4 then some 0x8000
  else if off = Reg.SECURE_STATUS then some 0x10000000
  else if decide (Reg.SECURE_FUSE 0 ≤ off) && decide (off ≤ Reg.SECURE_FUSE 127) then
    some (BitVec.ofNat 64 (fuseReset ((off - Reg.SECURE_FUSE 0) / 4)))
  else none

/-- Some register of the block has a reset value that is not one number for its row. -/
def hasOtherReset (off : Nat) : Bool :=
  decide (off < 0x10000) || (decide (Reg.RINGS_RECEIPT_BASE ≤ off) && decide (off < 0x100000)) ||
    (decide (0x200000 ≤ off) && decide (off < 0x300000)) || (decide (0xA00000 ≤ off) && decide (off < 0xD00000))

/-- What a register holds right after power-on reset; an offset with no register reads zero (Scope R15). -/
def regReset (off : Nat) : Word :=
  match (if hasOtherReset off then regResetOther off else none) with
  | some v => v
  | none => match regRow? off with
    | some r => BitVec.ofNat 64 r.reset
    | none => 0

/-- The mask of the bits of a register that are not reserved. -/
def RegRow.mask (r : RegRow) : Nat := r.fields.foldl (fun a f => a + (2 ^ (f.1 + 1) - 2 ^ f.2.1)) 0

end Sys2Proof.Machine
end

