-- ==== Sys2Proof/Machine/SMap.lean ====
section
/-! DEFINITION. Sparse maps from numbers, the one representation of register files, memories and per-unit state. -/

namespace Sys2Proof.Machine

/-- A sparse map: keys strictly rising, and no entry equal to the default of its key (see `SMap.wf`). -/
abbrev SMap (α : Type) := List (Nat × α)

/-- The value at a key; `d` says what an unlisted key reads as. -/
def SMap.get {α : Type} (d : Nat → α) : SMap α → Nat → α
  | [], k => d k
  | (j, v) :: t, k => if k = j then v else SMap.get d t k

/-- Put an entry at its place in the rising order, replacing the entry of the same key. -/
def SMap.insert {α : Type} (m : SMap α) (k : Nat) (v : α) : SMap α :=
  match m with
  | [] => [(k, v)]
  | (j, w) :: t => if k < j then (k, v) :: (j, w) :: t else if k = j then (k, v) :: t else (j, w) :: SMap.insert t k v

/-- Take every entry of a key out. -/
def SMap.erase {α : Type} (m : SMap α) (k : Nat) : SMap α :=
  match m with
  | [] => []
  | (j, w) :: t => if k = j then SMap.erase t k else (j, w) :: SMap.erase t k

/-- Write a value; writing the default of the key removes its entry, so that equal maps are equal data. -/
def SMap.set {α : Type} [DecidableEq α] (d : Nat → α) (m : SMap α) (k : Nat) (v : α) : SMap α :=
  if v = d k then SMap.erase m k else SMap.insert m k v

/-- Every key of the map is above `lo`, the keys rise strictly, and no entry holds the default of its key. -/
def SMap.wfFrom {α : Type} [DecidableEq α] (d : Nat → α) : Nat → SMap α → Bool
  | _, [] => true
  | lo, (k, v) :: t => decide (lo ≤ k) && decide (v ≠ d k) && SMap.wfFrom d (k + 1) t

/-- The canonical form of a sparse map. -/
def SMap.wf {α : Type} [DecidableEq α] (d : Nat → α) (m : SMap α) : Bool := SMap.wfFrom d 0 m

end Sys2Proof.Machine
end

