-- ==== Sys2Proof/Machine/State.lean ====
section
/-! DEFINITION. The state of the Hexulo H4 as plain data: every register, memory, queue and mode that the spec gives it. -/

namespace Sys2Proof.Machine

/-- Why the model stops with a fault. -/
inductive Fault where
  /-- Raised by `execRegWrite` and `execLowHalfRead`: the offset lies outside BAR0's 16 MiB, or the access is of a size no
  requester can issue, so no such access exists on the hardware (Links R609, Scope R13). Safe: the model stops where the
  hardware has nothing to do. -/
  | notARegisterAccess (off size : Nat)
  deriving DecidableEq, Repr

/-- Why the model refuses a command. -/
inductive Refusal where
  /-- Raised by an arm of `exec` whose command has no meaning yet. Safe: nothing is claimed of it. -/
  | notModelled (mnemonic : String)
  deriving DecidableEq, Repr

/-- An interrupt message the device sends (Links R612, Errors R596). -/
inductive Irq where
  /-- MSI-X of a PCIe function, 0 to 16, at an entry of its table. -/
  | msix (fn vector : Nat)
  /-- Core-local interrupt to the host cores: the world, the block that sends it, and its number where a VECTOR gives it (Links R620). -/
  | core (secure : Bool) (source : Nat) (vector : Option Nat)
  /-- No message: the pending bit of a masked MSI-X entry is set (Links R612). -/
  | held (fn vector : Nat)
  deriving DecidableEq, Repr

/-! ### Errors -/

/-- An error record (Errors Table 18.2, R589). `slot` is the record slot it occupies. -/
structure ErrRec where
  slot : Nat
  seq : Nat
  code : Nat
  cls : Nat
  injected : Bool := false
  safe : Bool := false
  nested : Bool := false
  preempted : Bool := false
  round : Nat
  ring : Option Nat := none
  unit : Nat := 0xFFFF
  count : Nat := 1
  detail : Nat := 0
  deriving DecidableEq, Repr

/-- An orderly entry to the safe state in progress (Errors R600): the code that began it, the round of its report, and
GRACE as it read at the report; `due` once an instant of Table 18.4 has come. -/
structure SafeEntry where
  code : Nat
  round : Nat
  grace : Nat
  due : Bool
  deriving DecidableEq, Repr

/-- The error unit: records held (in the order written), the current one, the safe-state entry, whether it is thermal, whether a comparator has tripped since
the last exit, the round of a guard self-test and
whether it finds a port disagreeing, the round in which an exit was accepted, the round of a thermal notification, bad clock windows in a row, and
which of the last 1,000 windows were bad, newest first. -/
structure ErrSt where
  recs : List ErrRec := []
  cur : Option Nat := none
  entry : Option SafeEntry := none
  thermal : Bool := false
  tripped : Bool := false
  exitTest : Option (Nat × Bool) := none
  exitAccepted : Option Nat := none
  notify : Option Nat := none
  badRun : Nat := 0
  windows : List Bool := []
  deriving DecidableEq, Repr

/-! ### Rounds -/

/-- The network time paired with a round-relative instant before NET_OFFSET is fixed (Round R690). -/
structure Pairing where
  net : Nat
  round : Nat
  ns : Nat
  deriving DecidableEq, Repr

/-- A timetable load in progress (Round R67). -/
structure TtLoad where
  bank : Bool
  entries : Bool
  first : Nat
  count : Nat
  src : Nat
  deriving DecidableEq, Repr

/-- A unit of work running on a block (Round §5): its ring, owner (floor group or stream), declared worst case, start, the
end of the quantum or run that its fit check used (absolute ns), and whether it has been counted as an overrun. -/
structure RunUnit where
  ring : Option Nat
  owner : Nat
  d : Nat
  startRound : Nat
  startNs : Nat
  quantumEnd : Nat
  overrun : Bool := false
  deriving DecidableEq, Repr

/-- A signal to a receipt (Envelopes R106, R107): its source's rank in Table 3.10 and index in the rank, its mode and its amount. -/
structure SigOp where
  rank : Nat
  index : Nat
  max : Bool
  value : Nat
  deriving DecidableEq, Repr

/-- The signals that have reached a receipt at one instant, in ns, in the order in which they apply, and what the receipt held before. -/
structure SigCycle where
  receipt : Nat
  at_ : Nat
  base : Nat
  ops : List SigOp
  deriving DecidableEq, Repr

/-- The tick generator and the timetable, beyond the ROUND registers. `pathDelay`: a path-delay measurement has completed on the source port since its
link last came up and since SOURCE last changed (R690). `deferred`: the deferrals counted in this round (block, owner, quantum, unit); `checked`:
the floor units that have been checked against the timetable in force (district, ring, envelope, steps started; R60). `entryDue`: the blocks have not
taken the round's entry yet, because pairs or seals of its boundary are still to be decided (Transactions R134). `sigs`: the signals of the present
instant, by receipt (Envelopes R107). -/
structure RoundSt where
  ns : Nat := 0
  lastSync : Option (Nat × Nat) := none
  syncs : Nat := 0
  pathDelay : Bool := false
  interval : Nat := 1000000000
  lossFrom : Nat := 0
  streak : Nat := 0
  pairing : Option Pairing := none
  fixAwaited : Bool := true
  alignDue : Option Nat := none
  slewing : Bool := false
  aligned : Bool := false
  holdFrom : Nat := 0
  holdMs : Nat := 0
  invalidReported : Bool := false
  freqAdj : Int := 0
  ttIndex : SMap Nat := []
  ttEntry : SMap Nat := []
  load : Option TtLoad := none
  verify : Option Bool := none
  ttPend : Option Bool := none
  epoch : Nat := 0
  deferred : List (Nat × Nat × Nat × Nat × Nat) := []
  checked : List (Nat × Nat × Nat × Nat) := []
  entryDue : Bool := false
  sigs : List SigCycle := []
  running : SMap (Option RunUnit) := []
  ran : SMap Nat := []
  overruns : SMap (List Nat) := []
  deriving DecidableEq, Repr

/-! ### Rings -/

/-- Where an envelope that has been fetched stands (Envelopes §4). `ended`: all its effects have taken place and its status
is known; `done`: it has completed, and its record waits its turn. -/
inductive Stage where
  | fetched | started | ended | done
  deriving DecidableEq, Repr

/-- An envelope fetched and not yet recorded; `prog` counts the pieces that a COPY has moved, and `held` tells that a unit has held it up (Districts
R208). -/
structure Flight where
  seq : Nat
  env : Bytes
  stage : Stage := .fetched
  fetchRound : Nat
  startRound : Nat := 0
  doneRound : Nat := 0
  prog : Nat := 0
  held : Bool := false
  status : Nat := 0
  result : Nat := 0
  fetchFail : Nat := 0
  reserved : Bool := false
  energy : Nat := 0
  deriving DecidableEq, Repr

/-- An unsolicited record waiting for return ring space (Envelopes R103). -/
structure Unsol where
  status : Nat
  kind : Nat
  result : Nat
  round : Nat
  deriving DecidableEq, Repr

/-- A break armed on a ring (Parcels R275, R276): on the next RUN with a tag, or on the `n`-th counted RUN, of those with a tag other than 0. -/
inductive Brk where
  | tag (t : Nat)
  | count (t n seen : Nat)
  deriving DecidableEq, Repr

/-- What a ring holds beyond its registers. -/
structure RingDyn where
  flights : List Flight := []
  unsol : List Unsol := []
  irqPend : Nat := 0
  irqSince : Option Nat := none
  brk : Option Brk := none
  disabling : Bool := false
  deriving DecidableEq, Repr

/-- The ring engine's fetch arbitration in the present round (Envelopes R85): fetches made for each class, and the rings served in
the present turn of the rotation. -/
structure FetchSt where
  express : Nat := 0
  first : Nat := 0
  second : Nat := 0
  bulk : Nat := 0
  served : List Nat := []
  deriving DecidableEq, Repr

/-! ### Transactions -/

/-- The shadowed and paired fields recorded for one register (Transactions R127): its offset, their mask and their values. -/
structure Shadow where
  off : Nat
  mask : Nat
  value : Nat
  deriving DecidableEq, Repr

/-- An owner's transaction beyond its registers (Transactions R126, R131, R133): the shadow set, CHANGE_SEQ and OPEN_LIMIT at its open,
and, once its seal is accepted, whether it was FAILED, the round of acceptance, and the ring and count of the envelope that seals. -/
structure OwnerSt where
  set : List Shadow := []
  openSeq : Nat := 0
  limit : Nat := 0
  failed : Bool := false
  sealRound : Nat := 0
  env : Option (Nat × Nat) := none
  deriving DecidableEq, Repr

/-- A pending half of a pair (Transactions R145): its holder, whether it is the second register, its value and its landing round. -/
structure Half where
  holder : Nat
  second : Bool
  value : Nat
  round : Nat
  deriving DecidableEq, Repr

/-- A pair whose mate has landed and whose boundary has not come (Transactions R146): the offset of its first register, both values,
and the round of the mate. -/
structure Mated where
  key : Nat
  first : Nat
  second : Nat
  round : Nat
  deriving DecidableEq, Repr

/-- The transaction unit beyond its registers: owners, seals accepted in order, marks by register, halves, mated pairs, each holder's
CMD_STATUS, and the OPEN_LIMIT in force. -/
structure TxnSt where
  owners : SMap OwnerSt := []
  seals : List Nat := []
  marks : SMap Nat := []
  halves : SMap (Option Half) := []
  mated : List Mated := []
  cmd : SMap Nat := []
  limit : Nat := 100000
  deriving DecidableEq, Repr

/-! ### The relay -/

/-- A relay packet (Links Table 19.5). -/
structure RelayPkt where
  type : Nat
  dst : Nat
  src : Nat
  flags : Nat
  lseq : Nat
  tag : Nat
  addr : Nat
  payload : Bytes
  deriving DecidableEq, Repr

/-- A transfer or signal sent and not yet acknowledged: its tag, its envelope, and the round in which it was sent. -/
structure RelayOp where
  tag : Nat
  ring : Nat
  seq : Nat
  round : Nat
  signal : Bool
  deriving DecidableEq, Repr

/-- The relay port beyond its registers: the next LSEQ and TAG, the replay buffer with replay counts, transfers awaiting acknowledgement,
packets sent, those that wait for credits of their channel (whether forwarded), for each channel whether it sent a forwarded packet last, transfers (source,
TAG) of which a WRITE was refused, the credits of both channels as last returned, and the round in which training began. -/
structure RelaySt where
  lseq : Nat := 0
  tag : Nat := 0
  replay : List (RelayPkt × Nat) := []
  ops : List RelayOp := []
  sent : List RelayPkt := []
  wait : List (Bool × RelayPkt) := []
  last : Bool × Bool := (true, true)
  refused : List (Nat × Nat) := []
  credits : Option (Nat × Nat) := none
  trainRound : Nat := 0
  deriving DecidableEq, Repr

/-! ### The floor -/

/-- A feeder's operand: its store address, and the cycle from which the feeder has it (Clerks Table 5.5). -/
structure Feed where
  addr : Nat
  ready : Nat
  deriving DecidableEq, Repr

/-- Where a clerk stands in its step: not in a unit, running, at the step boundary, or held at a barrier (Clerks R186). -/
inductive ClerkStage where
  | idle | running | boundary
  | barrier (clerks : Nat)
  deriving DecidableEq, Repr

/-- The array instruction in flight (Clerks R176, R189): its first cycle, and for each cycle from there whether it is one frozen because both operands lie in one
bank, and the banks that the feeders read in it. -/
structure ArrayRun where
  start : Nat
  plan : List (Bool × List Nat)
  deriving DecidableEq, Repr

/-- A load of a book or of the table on its way (Clerks Table 5.5): the cycle from which it is there, the book (16: the table), its bytes and its used
count. -/
structure BookLoad where
  due : Nat
  book : Nat
  bytes : Bytes
  used : Nat
  deriving DecidableEq, Repr

/-- The addresses of a step that a clerk has still to take from its district's stream buffer (Districts R199, R200): the step's sequence, the entries taken,
and the clerk's band offsets for it. -/
structure SeqPlace where
  no : Nat
  taken : Nat
  bands : List Nat
  deriving DecidableEq, Repr

/-- The A operand of the latest array instruction in stream mode, as the array holds it (Clerks R166): its store address, the bytes of a diagonal, and its
31 diagonals. -/
structure StreamA where
  addr : Nat
  width : Nat
  diags : List Bytes
  deriving DecidableEq, Repr

/-- One clerk (Clerks Table 5.1): accumulator files (file, row, column), their ACC_SAT and FP_NAN flags and the cycle from which each can be read, the
cycle in which the drain has taken each file and the one from which the drain is free, the rows that the drain holds with the cycle of each, the files
whose flags it holds, the array instruction in flight and the A operand that the array holds, vector registers and the cycle from which each can be read,
books with their used counts and loads on their way, feeders, inbox and the sequences it is filled from, instruction buffer with the ranges that are loaded
(offset, length and the address each came from), stores on their way, clerk-local event bits and the records written, the RUN whose words it issues, its
stage, the cycle in which it came there, whether it has gone on to the next step, the first cycle in which it may issue, its word address and its halt
cause. -/
structure Clerk where
  acc : SMap Nat := []
  sat : List Nat := []
  nan : List Nat := []
  readable : SMap Nat := []
  drainEnd : SMap Nat := []
  drainFree : Nat := 0
  drained : List (Nat × List Nat) := []
  satOut : List Nat := []
  nanOut : List Nat := []
  array : Option ArrayRun := none
  streamA : Option StreamA := none
  vregs : SMap (List Nat) := []
  vready : SMap Nat := []
  books : SMap Bytes := []
  used : SMap Nat := []
  bookLoads : List BookLoad := []
  feedA : Option Feed := none
  feedB : Option Feed := none
  inbox : List Nat := []
  seqs : List SeqPlace := []
  ibuf : SMap Byte := []
  loaded : List (Nat × Nat × Nat) := []
  stores : List (Nat × Nat × Bytes) := []
  events : Nat := 0
  written : Nat := 0
  run : Option (Nat × Nat) := none
  stage : ClerkStage := .idle
  since : Nat := 0
  ahead : Bool := false
  next : Nat := 0
  pc : Nat := 0
  halt : Nat := 0
  deriving DecidableEq, Repr

/-- The allocation key of a parcel (Parcels R261). -/
structure ParcelKey where
  id : Nat
  version : Nat
  crc : Nat
  deriving DecidableEq, Repr

/-- An allocation of a parcel on a district (Districts R217): store range (4 KiB units), sorting cache range (64 KiB units), arrival
counters, walk records, whether the parcel is encrypted, and its readable outputs (level, offset, bytes). -/
structure Alloc where
  key : ParcelKey
  storeBase : Nat
  storeUnits : Nat
  scBase : Nat
  scUnits : Nat
  arrive : Nat
  records : List Nat
  sealed : Bool
  outputs : List (Nat × Nat × Nat)
  deriving DecidableEq, Repr

/-- The step that has passed its advance check while its predecessor runs (Districts R196), and the end of the quantum or run of that check. -/
structure NextStep where
  work : StepWork
  quantumEnd : Nat
  deriving DecidableEq, Repr

/-- The unit that a district runs: its envelope, its step descriptor, the clerks of the unit, what the step list says of it, and the step that may follow
it at once. -/
structure DUnit where
  ring : Nat
  seq : Nat
  desc : Nat
  clerks : Nat
  prog : StepProg := { desc := 0 }
  next : Option NextStep := none
  deriving DecidableEq, Repr

/-- A step that is ready and has not started (Districts R195, R197): its envelope, and the instant from which it was ready. -/
structure ReadyStep where
  ring : Nat
  seq : Nat
  since : Nat
  deriving DecidableEq, Repr

/-- One address of a step's sequence: a store address and its offset selector (Districts R199). -/
structure SeqAddr where
  addr : Nat
  band : Option (Fin 4)
  deriving DecidableEq, Repr

/-- A step's sequence in a stream buffer (Districts R198, R199), with its number and its envelope. -/
structure StepSeq where
  no : Nat
  ring : Nat
  seq : Nat
  addrs : List SeqAddr
  deriving DecidableEq, Repr

/-- A RUN on one of its districts: steps started and completed, nodes of the last step started and of the last completed, the round in which its last step
ended or its RUN began, whether a step of it waits for an arrival, events of completed walk steps, and whether it has stopped, and at its limit. -/
structure DRun where
  d : Nat
  started : Nat := 0
  steps : Nat := 0
  node : Nat := 0xFFFF
  reached : Nat := 0
  since : Nat := 0
  waits : Bool := false
  events : Nat := 0
  stopped : Bool := false
  limited : Bool := false
  deriving DecidableEq, Repr

/-- A parcel image as a RUN reads it: its header and its public tables. -/
structure Image where
  hdr : Bytes
  entries : Bytes
  steps : Bytes
  nodes : Bytes
  walks : Bytes
  deriving DecidableEq, Repr

/-- What the bindings of an argument block give: the EVENTS address, and the channels of an express RUN's bands. -/
structure Binds where
  events : Option Nat := none
  bands : List Nat := []
  deriving DecidableEq, Repr

/-- A RUN that waits at check 6 of Parcels Table 8.5, with what its first four checks have read (R262). -/
structure WaitRun where
  ring : Nat
  seq : Nat
  image : Image
  binds : Binds
  deriving DecidableEq, Repr

/-- A RUN that has passed its checks (Parcels §4): its envelope and key, its districts in logical order, the step table (cycles, node,
flags), the most steps, the most cycles and the nodes that its entry declares, the walk records with their arrival counters, the STEP_LIMIT, the
EVENTS binding, the key slot with which it has decrypted what it loads, the status that ends it early, and, for an armed express RUN, the channel of each band. -/
structure RunSt where
  ring : Nat
  seq : Nat
  key : ParcelKey
  dists : List DRun
  steps : List (Nat × Nat × Nat)
  maxSteps : Nat := 0xFFFFFFFF
  maxCycles : Nat
  nodes : Nat × Nat := (0, 0xFFFF)
  walks : List (Nat × Nat) := []
  limit : Nat
  events : Option Nat
  sealed : Bool
  keySlot : Option Nat := none
  fail : Option (Nat × Nat) := none
  express : Bool := false
  bands : List Nat := []
  deriving DecidableEq, Repr

/-- Whom an access to on-die SRAM answers: BAR4, a memory request of a tag, or the fabric's general port. -/
inductive AccTo where
  | bar4
  | mem (tag : Nat)
  | fabric
  deriving DecidableEq, Repr

/-- An access from outside that a district holds until its unit ends (Clerks R178, Districts R208): a write of bytes, or a read of some. -/
structure HeldAcc where
  d : Nat
  addr : Nat
  op : MemOp
  dest : AccTo
  deriving DecidableEq, Repr

/-- A transfer that waits at an output of a mesh router (Districts R219): its class, the envelope that it is made for, and the grants of 64 bytes that it
still needs there. -/
structure MeshWait where
  cls : Nat
  who : Option (Nat × Nat)
  grants : Nat
  deriving DecidableEq, Repr

/-- An output of a mesh router (Districts R218, R219): grants given in the round, the classes granted in the present eight, and the transfers that wait. -/
structure MeshOut where
  used : Nat := 0
  eight : List Nat := []
  queue : List MeshWait := []
  deriving DecidableEq, Repr

/-- The floor beyond its registers: clerks, allocations, units, ready steps and stream buffers by district, the number of the next sequence, RUNs, those that
wait for another, walk exponents written and waiting (value and round of landing), debug holds with the round each began, steps of each
district's last RUN, releases written, the readout selection and its 16 values, accesses held, wrong bits of SRAM words that nothing has read yet
(word and number of bits), the outputs of the mesh routers, and the pass RUNs that have ended with their status. -/
structure FloorSt where
  clerks : SMap Clerk := []
  allocs : SMap (List Alloc) := []
  units : SMap (Option DUnit) := []
  ready : SMap (List ReadyStep) := []
  streams : SMap (List StepSeq) := []
  seqNo : Nat := 0
  runs : List RunSt := []
  waiting : List WaitRun := []
  walkK : SMap (List (Nat × Nat)) := []
  holds : SMap (Option Nat) := []
  lastSteps : SMap Nat := []
  release : Nat := 0
  dbgPend : Bool := false
  dbg : List Nat := []
  held : List HeldAcc := []
  flips : List (Nat × Nat) := []
  mesh : SMap MeshOut := []
  passEnds : List (Nat × Nat) := []
  deriving DecidableEq, Repr

/-! ### Serving -/

/-- A request (Serving Tables 9.3, 9.4): its block's address and the function that admitted it, the first 64 bytes of the block, the positions
of the prompt that are processed, whether it generates, L and the tokens at its positions so far, the outriders' guesses of its last pass, what it is granted
in the pass and the tokens that the pass takes for that, its slot and generation, its pages, its counts, the round that admitted it, and a cancel that waits. -/
structure Request where
  block : Nat
  fn : Nat
  head : Bytes
  done : Nat := 0
  gen : Bool := false
  len : Nat := 0
  tokens : List Nat := []
  guesses : List Nat := []
  grant : Nat := 0
  feed : List Nat := []
  slot : Option Nat := none
  generation : Nat := 0
  pages : List Nat := []
  emitted : Nat := 0
  passes : Nat := 0
  proposed : Nat := 0
  accepted : Nat := 0
  energy : Nat := 0
  round : Nat := 0
  cancel : Bool := false
  deriving DecidableEq, Repr

/-- A session (Serving §1 to §3): its number, its opener and opening ring, its descriptor, its parcel, its queue and its running requests in admission
order, the round in which its pass started, whether the draft model's RUN of that pass still runs, the slots that requests ended by a restart of the marshal
hold until the pass of then has completed, whether it closes, and the counts of Table 9.5. -/
structure Session where
  id : Nat
  fn : Nat
  ring : Nat
  desc : Bytes
  key : ParcelKey
  queue : List Request := []
  running : List Request := []
  pass : Option Nat := none
  drafting : Bool := false
  lost : Option (List Nat) := none
  closing : Bool := false
  passes : Nat := 0
  lastRounds : Nat := 0
  lastRound : Nat := 0
  deriving DecidableEq, Repr

/-- A postscript handle (Serving R305): its binding (slot, generation), and NEXT_GEN. -/
structure PsHandle where
  bound : Option (Nat × Nat) := none
  next : Nat := 1
  deriving DecidableEq, Repr

/-- A bind that the marshal has accepted (Serving R308): its envelope, its round, its handle's key and its slot. -/
structure PsBind where
  ring : Nat
  seq : Nat
  round : Nat
  key : Nat
  slot : Option (Nat × Nat)
  deriving DecidableEq, Repr

/-- The serving marshal's hold records: sessions, handles, each slot's parcel and loading ring, and the binds that wait. -/
structure ServeSt where
  sessions : List Session := []
  handles : SMap PsHandle := []
  slots : SMap (Nat × Nat × Nat) := []
  binds : List PsBind := []
  deriving DecidableEq, Repr

/-! ### Cameras and codecs -/

/-- A frame of a capture channel that has begun and not finished (Vision §3, R332 to R336): its number, the round it began, SOURCE_TS, whether it is
dropped, its first cause, input lines that have arrived, lost lines and the line from which nothing was stored, the window lines stored, window
pixels processed, whether its input has ended, the bytes a bypass channel has written, the input size, the window and crop, the output format and
scale in force, its size as decoded, and its tuning block. -/
structure CamFrame where
  k : Nat
  sof : Nat
  ts : Nat
  dropped : Bool := false
  cause : Nat := 0
  lines : Nat := 0
  lost : List Nat := []
  cut : Option Nat := none
  raw : List Bytes := []
  pixels : Nat := 0
  past : Bool := false
  off : Nat := 0
  width : Nat := 0
  height : Nat := 0
  crop : Nat × Nat × Nat × Nat := (0, 0, 0, 0)
  format : Nat := 0
  scale : Nat := 0
  tuning : Bytes := []
  deriving DecidableEq, Repr

/-- A frame that has been written and finished: its number and the size of its picture. -/
structure KeptFrame where
  k : Nat
  width : Nat
  height : Nat
  deriving DecidableEq, Repr

/-- A capture channel: the number of its next frame, its frames in progress, oldest first, the round of its last packet, and the
frames written and finished whose buffers have not been reused. -/
structure CamChan where
  next : Nat := 0
  frames : List CamFrame := []
  last : Nat := 0
  kept : List KeptFrame := []
  deriving DecidableEq, Repr

/-- An encode session (Vision §7): access units written, the offset of the next in its ring, pictures since the last I picture, whether the next is
an I picture whatever the count, the frame that it holds with the pixels of it that are encoded, and the last frame that it took. -/
structure EncSt where
  n : Nat := 0
  off : Nat := 0
  gop : Nat := 0
  force : Bool := false
  hold : Option KeptFrame := none
  pixels : Nat := 0
  last : Option Nat := none
  deriving DecidableEq, Repr

/-- CAMERA, ISP and VCODEC beyond their registers: channels, the last tuning block of each stream that passed, the stream that each engine served
last, the access unit that the decoder is in (session, channel), the session it served last, sessions that wait for a random-access point,
encode sessions, the JPEG job in progress with the tiles of it that are done, and the number of the next one. -/
structure VisionSt where
  chans : SMap CamChan := []
  tune : SMap Bytes := []
  served : Nat × Nat := (15, 15)
  dec : Option (Nat × Nat) := none
  decLast : Nat := 31
  noRef : List Nat := []
  encs : SMap EncSt := []
  job : Option Bytes := none
  jobTiles : Nat := 0
  jobNext : Nat := 0
  deriving DecidableEq, Repr

/-! ### The express lane and the control ports -/

/-- A block of sample words for an express unit (Express R353 to R355, R362): its words, its sample time and its marks. -/
structure XBlock where
  words : List Nat
  round : Nat
  ns : Nat
  fault : Bool
  late : Bool := false
  gap : Bool := false
  deriving DecidableEq, Repr

/-- A band's running unit (Express R360, R361): its block, the clerks it uses (local indices), the end of its reservation in absolute ns,
whether it has overrun, and what the step list says of it. -/
structure XUnit where
  block : XBlock
  clerks : Nat
  quantumEnd : Nat
  overrun : Bool := false
  prog : StepProg := { desc := 0 }
  deriving DecidableEq, Repr

/-- An express channel beyond its registers (Express §2 to §5): conversions in progress, fault flags CLIP, LOW and HIGH each with its run
of contrary samples, the round in which settling ends, the newest sample that ADC_IN delivered (round, ns), whether a sample with
FAULT was delivered since the last LAST, its waiting block and whether its failed fit check has been counted, its unit, and the number
of the next record. -/
structure XChan where
  conv : List (Nat × Nat) := []
  flags : List (Bool × Nat) := [(false, 0), (false, 0), (false, 0)]
  settle : Nat := 0
  newest : Option (Nat × Nat) := none
  dirty : Bool := false
  waiting : Option XBlock := none
  counted : Bool := false
  unit : Option XUnit := none
  seq : Nat := 0
  deriving DecidableEq, Repr

/-- EXPRESS beyond its registers: channels, the records that wait to be spilled, with the round of each commit (R367). -/
structure ExpressSt where
  chans : SMap XChan := []
  spills : List (Nat × Bytes) := []
  deriving DecidableEq, Repr

/-- A valid REQ that waits for its snapshot (Express R373 to R375): the instant of its last bit in ns, its source address, its VLAN tag, its
header fields, and its target occurrence in ns. -/
structure CxReq where
  last : Nat
  sa : Bytes
  tci : Option Nat
  seq : Nat
  window : Nat
  mask : Nat
  occ : Int × Int
  deriving DecidableEq, Repr

/-- An unsent response (Express R375, R377): its window (none: an SVC_RSP), the interval that it must keep to in ns, its octets from DA to the
end of the payload, and whether a refusal of it has been counted. -/
structure TxFrame where
  window : Option Nat
  occ : Int × Int
  octets : Bytes
  blocked : Bool := false
  deriving DecidableEq, Repr

/-- A frame that a control port has started: first bit, end, the window end that the guard granted (none: the gPTP allowance), whether it was
cut, and its octets. -/
structure TxSent where
  start : Nat
  stop : Nat
  wend : Option Int
  cut : Bool := false
  octets : Bytes
  deriving DecidableEq, Repr

/-- A control port beyond its registers: accepted frames not yet parsed, REQs before their snapshot, unsent responses, frames sent, the last
valid REQ of which no silence has been reported, and the start of the last gPTP frame under the allowance. -/
structure PortSt where
  rx : List (Nat × Bytes) := []
  reqs : List CxReq := []
  queue : List TxFrame := []
  sent : List TxSent := []
  lastReq : Option Nat := none
  lastPtp : Option Nat := none
  deriving DecidableEq, Repr

/-! ### The memory controller -/

/-- A request in a channel's queue or retry buffer (Memory R399, §6): its tag, requester, address and length, the bytes it writes, what those bytes
replaced, what a read returns, its class, its arrival in ns, whether it is promoted, when it issued, how often it was replayed, and whether
it is a reissued read. -/
structure MemEntry where
  tag : Nat
  by_ : MemBy
  a : Nat
  len : Nat
  write : Option Bytes
  old : Bytes
  cls : Nat
  arr : Nat
  promoted : Bool := false
  issued : Nat := 0
  replays : Nat := 0
  reissued : Bool := false
  deriving DecidableEq, Repr

/-- What a requester is answered. -/
inductive MemAns where
  | data (b : Bytes)
  | poison
  | written
  | refused
  deriving DecidableEq, Repr

/-- A DRAM channel: its queue and retry buffer, oldest first, the requests that the mesh holds for it at their port, row hits in a row, writes left of a
burst of writes, the bank pointer, refresh debt and the instant of its last accrual, and the round of its last training action. -/
structure MemChan where
  queue : List MemEntry := []
  port : List (Nat × MemBy × Nat × MemOp) := []
  retry : List MemEntry := []
  hits : Nat := 0
  drain : Nat := 0
  bank : Nat := 0
  debt : Nat := 0
  accrued : Nat := 0
  trained : Nat := 0
  deriving DecidableEq, Repr

/-- What is left of a transfer whose bursts wait for the budget of its class (Round R61, Memory R404): the envelope that it is made for, its class, its
address and its length. -/
structure MemMove where
  who : Option (Nat × Nat)
  cls : Nat
  a : Nat
  len : Nat
  deriving DecidableEq, Repr

/-- The memory controller beyond its registers: channels, answers by tag, transfers that wait, units used by first, second and bulk in the round, express
units, refresh sets on LPDDR5X and DDR5, training actions, whether the round's TRAIN lane has been used, regulator balances of classes 0 to 3, the next
channel to train, whether the module supply DX_VIN is on, and whether the DDR5 terms of R405 still count after it has gone DOWN. -/
structure MemSt where
  chans : SMap MemChan := []
  answers : List (Nat × MemAns) := []
  moves : List MemMove := []
  used : List Nat := [0, 0, 0]
  express : Nat := 0
  lpSets : Nat := 0
  dxSets : Nat := 0
  trains : Nat := 0
  laneUsed : Bool := false
  balance : List Int := [0, 0, 0, 0]
  trainNext : Nat := 0
  dxVin : Bool := false
  dxHeld : Bool := false
  deriving DecidableEq, Repr

/-! ### The fabric -/

/-- A FABRIC_LOAD that has passed its checks (Fabric R433 to R438): its envelope, its region, REGION_POLICY.AUTH when it started (R450), and, once
every record is written and checked, IMAGE_ID and the round of that, and the SHA-384 of the records. -/
structure FabLoad where
  ring : Nat
  seq : Nat
  g : Nat
  auth : Bool := false
  image : Option (Nat × Nat) := none
  digest : Bytes := []
  deriving DecidableEq, Repr

/-- The fabric beyond its registers: words of frames (frame address × 128 + word), golden signatures, frames whose upset has been reported, loads in start
order, regions that FAULT awaits with the round of the upset, frames read in the present scrub pass, the outcome of the command in progress (0, or its
CAUSE), answers given at MESH, reads and writes passed through REG (region, offset, written value), whether released regions wait for the boundary after a
return from RETAIN, and the approved digests by region (Trust R553). -/
structure FabSt where
  frames : SMap Nat := []
  golden : SMap (Option Nat) := []
  upset : List Nat := []
  loads : List FabLoad := []
  faultDue : List (Nat × Nat) := []
  visited : List Nat := []
  cmd : Option Nat := none
  mesh : List MemAns := []
  regs : List (Nat × Nat × Option Nat) := []
  retained : Bool := false
  approved : SMap (List Bytes) := []
  deriving DecidableEq, Repr

/-! ### Power domains and device states -/

/-- A request for a domain or device state (Power states R470): its target, its TAG, whether the secure world made it, PARTIAL_OK, and whether the domain
warden has deferred it. -/
structure PReq where
  target : Nat
  tag : Nat
  secure : Bool
  partialOk : Bool := false
  deferred : Bool := false
  deriving DecidableEq, Repr

/-- The steps of Power states Table 14.3. -/
inductive PStep where
  | stop | clamp | lower | opens | close | bringUp | raise | clocks | init | unclamp | join
  deriving DecidableEq, Repr

/-- A domain transition in progress: its target, the steps left, the round of its first step, the request it completes, and, once it is
preempted, the request (if any) of the return to ON that replaces it at the next step boundary. -/
structure Trans where
  target : Nat
  todo : List PStep
  start : Nat
  req : Option PReq := none
  back : Option (Option PReq) := none
  deriving DecidableEq, Repr

/-- A domain beyond DOM_STATUS: the request being prepared with the round its agent was asked, its transition, its pending request, an IDLE
request whose clocks have not stopped, the operating point the district held when it last left ON, and whether its switches open once the voltage
step in progress ends (Errors R602, Bring-up R655). -/
structure DomSt where
  prep : Option (PReq × Nat) := none
  trans : Option Trans := none
  pend : Option PReq := none
  idle : Option PReq := none
  lastOp : Nat := 2
  opens : Bool := false
  deriving DecidableEq, Repr

/-- A device transition: its request, the target of each domain concerned (25 WATCH, 26 SPINE), the agents left to ask and the round
the first of them was asked, those that agreed, latest first, those that refused with REASON, whether prepare has ended, and the domain of a
rail whose voltage request failed. A wake that no request asked for writes no result (`silent`). -/
structure DevJob where
  req : PReq
  goals : List (Nat × Nat)
  todo : List Nat := []
  asked : Nat := 0
  agreed : List Nat := []
  refused : List (Nat × Nat) := []
  commit : Bool := false
  failed : Option Nat := none
  silent : Bool := false
  deriving DecidableEq, Repr

/-- A voltage request on an AVSBus: the domain of its rail, its target in mV, the instant of its issue in ns, and the attempts made. -/
structure AvsReq where
  dom : Nat
  mv : Nat
  issued : Nat
  tries : Nat := 1
  deriving DecidableEq, Repr

/-- An AVSBus (Power states §7): the rails with a voltage to reach, the request in flight, and the rail that settles with the instant of its
acknowledgement. -/
structure AvsBus where
  queue : List (Nat × Nat) := []
  cur : Option AvsReq := none
  settle : Option (Nat × Nat) := none
  deriving DecidableEq, Repr

/-- The power steward's hold records and the domain warden: domains, domains whose isolation is asserted while DOM_STATUS still reads ON or IDLE, the device
transition and the pending device request, the states held in RUN before an entry, the domains that came ON in this round and join the round
sequence at its end (Round R45), the domains that requests fixed in WATCH (R469), the
states of SPINE and WATCH, the buses, and what the latched fabric pins hold (0 high impedance, 1 low, 2 high, 3 weak pull-up). -/
structure PwrSt where
  doms : SMap DomSt := []
  clamped : List Nat := []
  dev : Option DevJob := none
  devPend : Option PReq := none
  before : List (Nat × Nat) := []
  fresh : List Nat := []
  fixed : List Nat := []
  spine : Nat := 0
  watch : Nat := 0
  avs : SMap AvsBus := []
  pads : SMap Nat := []
  deriving DecidableEq, Repr

/-! ### Monitors and the cap -/

/-- A monitor beyond its register (Power cap §1, §6): consecutive samples outside and inside its alarm pair, whether its alarm may be set again,
consecutive samples that differ from its twin, consecutive self-checks passed, whether its failure has been reported, consecutive samples
at the trip, the round of its first hot sample and of its last throttle step while hot, and the round since which it has been cool. -/
structure MonSt where
  out : Nat := 0
  inn : Nat := 0
  fired : Bool := false
  pair : Nat := 0
  pass : Nat := 0
  trip : Nat := 0
  hot : Option Nat := none
  stepped : Option Nat := none
  cool : Option Nat := none
  deriving DecidableEq, Repr

/-- A throttled item (Power cap R517, R518): its ceilings of operating point (or host level) and of duty, the sensors that lowered it, and the round of
its last restoration. Items 0 to 15 are districts, 16 the host cores, 17 the media. -/
structure Throt where
  op : Nat := 3
  duty : Nat := 8
  by_ : List Nat := []
  restored : Nat := 0
  deriving DecidableEq, Repr

/-- A droop detector (Power cap R515): the start of a stretch in progress, and the stretches of the round, as start and end in ns. -/
structure DroopSt where
  since : Option Nat := none
  spans : List (Nat × Nat) := []
  deriving DecidableEq, Repr

/-- The energy unit and the governor: per-round totals and express energy of the latest rounds, newest first; totals over the settled rounds of the period
and their number; the time for which units ran in each district in the round just ended and in the settled rounds, the districts where a unit waited
through an off round, and whether the media had demand (R510); districts that were the express district and are no items until the next period; the limits
written since the last decision, with the values in force until the next (register and value); whether a step was in progress at the last boundary; the
fast path's duty cut that waits; episodes reported; ceilings lowered by droop; updates for which each trim has stood at a limit, and those reported; and
HXP reads at the trip. -/
structure GovSt where
  hist : List (Nat × Nat) := []
  sum : Nat := 0
  sumX : Nat := 0
  settled : Nat := 0
  busyNow : SMap Nat := []
  busy : SMap Nat := []
  waited : List Nat := []
  media : Bool := false
  former : List Nat := []
  lims : List (Nat × Nat) := []
  stepping : Bool := false
  fastDue : Bool := false
  reserve : Bool := false
  droopCeil : SMap Nat := []
  trimHeld : SMap Nat := []
  trimTold : List Nat := []
  hxpHot : Nat := 0
  mons : SMap MonSt := []
  throt : SMap Throt := []
  droop : SMap DroopSt := []
  deriving DecidableEq, Repr

/-! ### Firmware -/

/-- An FW_LOAD past its checks (Firmware R566): its envelope, TARGET, OPTIONS, the image header (none for a restart from the store), whether the reads of
its body have been asked for, whether its copy has been made, the processors that wait for their halt or, once begun, for their report, the mask of those
that failed to start, the hold format that one did not accept, and the processors that it is to start. -/
structure FwLoad where
  ring : Nat
  seq : Nat
  target : Nat
  options : Nat
  header : Bytes
  reading : Bool := false
  begun : Bool := false
  waits : List Nat := []
  failed : Nat := 0
  format : Option Nat := none
  starts : List Nat := []
  deriving DecidableEq, Repr

/-- Firmware processors beyond their registers: each one's memory as loaded (load address and bytes), the postmaster image store, the format of the
hold area in use (0: zero), loads in progress, halts that wait for the boundary with their cause, the round of release of each that
has not reported, the round of each watchdog's last kick, and the cause of each start for its ledger entry. -/
structure FwSt where
  mem : SMap (Nat × Bytes) := []
  store : Bytes := []
  hold : SMap Nat := []
  loads : List FwLoad := []
  halts : List (Nat × Nat) := []
  released : SMap (Option Nat) := []
  kick : SMap Nat := []
  cause : SMap Nat := []
  deriving DecidableEq, Repr

/-! ### Start-up -/

/-- Steps of Bring-up Table 20.2 that the device takes by itself. -/
inductive BootStep where
  | release | domains | up
  deriving DecidableEq, Repr

/-- The 12 V input and the rails (Bring-up §1): all rails up, the HXP sequence in progress, all off, or off until the input has fallen
below 1.0 V. -/
inductive Supply where
  | up | rising | off | locked
  deriving DecidableEq, Repr

/-- Start-up (Bring-up §2): the steps left with the latest round of each, training attempts of LPDDR5X in the present start, resets that act at the next
boundary with the value of LAST_RESET each gives, the supply, whether SYS_RESET_N is low, the auxiliary outputs that an overload has switched off (0
AUX_3V3, 1 AUX_1V8), and the straps sensed: whether FAB_VSEL_LO and FAB_VSEL_HI select 1.8 V. -/
structure BootSt where
  steps : List (Nat × BootStep) := [(250, .release), (280, .domains), (400, .up)]
  lpTries : Nat := 0
  due : List Nat := []
  supply : Supply := .up
  resetLow : Bool := false
  auxOff : List Nat := []
  vsel : Bool × Bool := (false, false)
  deriving DecidableEq, Repr

/-! ### Links -/

/-- The host and plant links beyond their registers: the Vendor ID and Device ID of the PF's configuration space and the Device ID of each VF's (Scope R1,
Links R608), what BAR4 accesses were answered, whether WAKE# is driven and PERST# is asserted, frames sent by
plant ports (port, octets), the transmit queue that each port served last, and the MSI-X entries (function, vector) that the host has masked. -/
structure LinkSt where
  vendorId : Nat := 0x1F3B
  deviceId : Nat := 0x4804
  vfDeviceId : Nat := 0x4805
  bar4 : List MemAns := []
  wakePin : Bool := false
  perst : Bool := true
  sent : List (Nat × Bytes) := []
  lastQ : SMap Nat := []
  masked : List (Nat × Nat) := []
  deriving DecidableEq, Repr

/-! ### Trust -/

/-- An entry of the event log (Trust R542); its SEQ is its place. -/
structure LogEntry where
  sealNo : Nat
  source : Nat
  round : Nat
  digest : Bytes
  deriving DecidableEq, Repr

/-- A message that a mailbox holds (Trust R547): the function of its requester, and its bytes as MB_REQ held them at GO. -/
structure MbMsg where
  fn : Nat
  bytes : Bytes
  deriving DecidableEq, Repr

/-- A JTAG recovery transfer (Bring-up R659): words received, whether one lay beyond the buffer, and RECOVER_STATUS. -/
structure RecoverSt where
  words : Nat := 0
  past : Bool := false
  state : Nat := 0
  status : Nat := 0
  deriving DecidableEq, Repr

/-- The Opantith root beyond the SECURE registers: seals 0 to 7, the event log and whether an extension has not been recorded, messages held, bytes of the
NOR and of the on-chip flash (erased: 0xFF), the two copies of the minimum-version counters with their generations, writes of the
protected sector, the key store's parcel keys (KEY_ID and key), whether the certificate has been erased with it, what DEBUG_UNLOCK has opened,
how far secure start has come (0 before the runtime, 1 before the boot stage, 2 done), the slots started with their image versions, lines
written to the UART, and recovery. -/
structure TrustSt where
  seals : List Bytes := List.replicate 8 (List.replicate 48 0)
  log : List LogEntry := []
  logFull : Bool := false
  held : SMap (Option MbMsg) := []
  nor : SMap Byte := []
  flash : SMap Byte := []
  copies : List (Nat × SMap Nat) := [(0, []), (0, [])]
  writes : Nat := 0
  keys : SMap (Option (Nat × Bytes)) := []
  certGone : Bool := false
  debug : Nat := 0
  stage : Nat := 0
  runtime : Option (Nat × Nat) := none
  bootStage : Option (Nat × Nat) := none
  uart : List String := []
  recover : RecoverSt := {}
  deriving DecidableEq, Repr

/-! ### Register accesses -/

/-- A held low half (Scope R18): the register, its low 32 bits, and the round in which it landed. -/
structure RegHold where
  reg : Nat
  low : Nat
  round : Nat
  deriving DecidableEq, Repr

/-- A latched high half (Scope R17): its requester (`Req.index`), the register and the value. -/
structure RegLatch where
  who : Nat
  reg : Nat
  high : Nat
  deriving DecidableEq, Repr

/-- Register accesses: the low half that each requester holds, the latched high halves, and the value that the last read of a half returned. -/
structure BusSt where
  holds : SMap (Option RegHold) := []
  latches : List RegLatch := []
  data : Nat := 0
  deriving DecidableEq, Repr

/-! ### The machine -/

/-- The whole machine. -/
structure State where
  regs : SMap Word := []
  acting : List (Nat × Word) := []
  mem : SMap Byte := []
  hostMem : SMap Byte := []
  poison : List Nat := []
  irqs : List Irq := []
  freeCtr : Nat := 0
  err : ErrSt := {}
  rnd : RoundSt := {}
  rings : SMap RingDyn := []
  fetch : FetchSt := {}
  txn : TxnSt := {}
  floor : FloorSt := {}
  serve : ServeSt := {}
  vis : VisionSt := {}
  memc : MemSt := {}
  fab : FabSt := {}
  xp : ExpressSt := {}
  ports : SMap PortSt := []
  relay : RelaySt := {}
  pwr : PwrSt := {}
  gov : GovSt := {}
  fw : FwSt := {}
  boot : BootSt := {}
  trust : TrustSt := {}
  links : LinkSt := {}
  bus : BusSt := {}
  ledgerRun : Nat := 0
  pending : List Instr := []
  deriving DecidableEq, Repr

/-- The machine at the end of power-on reset, when round 0 begins (Bring-up R641). -/
def State.reset : State := {}

end Sys2Proof.Machine
end

