-- ==== Sys2Proof/Machine/Ops.lean ====
section
/-! DEFINITION. The named operations over registers, memories and time that the meanings of the commands are built from. -/

namespace Sys2Proof.Machine
open Reg

/-! ### The parts of the state beyond the registers: every change of one goes through its operation here -/

/-- Change the error unit. -/
def State.setErr (s : State) (f : ErrSt → ErrSt) : State := { s with err := f s.err }
/-- Change the tick generator and the timetable. -/
def State.setRnd (s : State) (f : RoundSt → RoundSt) : State := { s with rnd := f s.rnd }
/-- Change the fetch arbitration. -/
def State.setFetch (s : State) (f : FetchSt → FetchSt) : State := { s with fetch := f s.fetch }
/-- Change the transaction unit. -/
def State.setTxn (s : State) (f : TxnSt → TxnSt) : State := { s with txn := f s.txn }
/-- Change the floor. -/
def State.setFloor (s : State) (f : FloorSt → FloorSt) : State := { s with floor := f s.floor }
/-- Change the serving marshal's records. -/
def State.setServe (s : State) (f : ServeSt → ServeSt) : State := { s with serve := f s.serve }
/-- Change the cameras and codecs. -/
def State.setVis (s : State) (f : VisionSt → VisionSt) : State := { s with vis := f s.vis }
/-- Change the memory controller. -/
def State.setMemc (s : State) (f : MemSt → MemSt) : State := { s with memc := f s.memc }
/-- Change the fabric. -/
def State.setFab (s : State) (f : FabSt → FabSt) : State := { s with fab := f s.fab }
/-- Change the express lane. -/
def State.setXp (s : State) (f : ExpressSt → ExpressSt) : State := { s with xp := f s.xp }
/-- Change the relay port. -/
def State.setRelay (s : State) (f : RelaySt → RelaySt) : State := { s with relay := f s.relay }
/-- Change the power states. -/
def State.setPwr (s : State) (f : PwrSt → PwrSt) : State := { s with pwr := f s.pwr }
/-- Change the monitors and the governor. -/
def State.setGov (s : State) (f : GovSt → GovSt) : State := { s with gov := f s.gov }
/-- Change the firmware processors. -/
def State.setFw (s : State) (f : FwSt → FwSt) : State := { s with fw := f s.fw }
/-- Change start-up. -/
def State.setBoot (s : State) (f : BootSt → BootSt) : State := { s with boot := f s.boot }
/-- Change the Opantith root. -/
def State.setTrust (s : State) (f : TrustSt → TrustSt) : State := { s with trust := f s.trust }
/-- Change the host and plant links. -/
def State.setLinks (s : State) (f : LinkSt → LinkSt) : State := { s with links := f s.links }
/-- Change register accesses. -/
def State.setBus (s : State) (f : BusSt → BusSt) : State := { s with bus := f s.bus }
/-- Change the values that blocks act on until the next boundary. -/
def State.setActing (s : State) (l : List (Nat × Word)) : State := { s with acting := l }
/-- Change the poisoned lines and words. -/
def State.putPoison (s : State) (l : List Nat) : State := { s with poison := l }
/-- Send an interrupt message. -/
def State.sendIrq (s : State) (i : Irq) : State := { s with irqs := s.irqs ++ [i] }
/-- Change the count of ledger entries lost in a row. -/
def State.setLedgerRun (s : State) (n : Nat) : State := { s with ledgerRun := n }
/-- The rings hold nothing beyond their registers. -/
def State.clearRings (s : State) : State := { s with rings := [] }
/-- The bytes of device memory at addresses that `p` does not keep are gone. -/
def State.keepMem (s : State) (p : Nat → Bool) : State := { s with mem := s.mem.filter fun e => p e.1 }
/-- Registers at offsets that `p` does not keep hold their reset values. -/
def State.keepRegs (s : State) (p : Nat → Bool) : State := { s with regs := s.regs.filter fun e => p e.1 }

/-! ### Registers -/

/-- The value in effect of the register at a BAR0 offset (Scope R12, R20). -/
def State.rd (s : State) (off : Nat) : Word := SMap.get regReset s.regs off

/-- The device sets a register. -/
def State.wr (s : State) (off : Nat) (v : Word) : State := { s with regs := SMap.set regReset s.regs off v }

/-- A register as a number. -/
def State.rdN (s : State) (off : Nat) : Nat := (s.rd off).toNat

/-- Set a register to a number. -/
def State.wrN (s : State) (off n : Nat) : State := s.wr off (BitVec.ofNat 64 n)

/-- A field of a register. -/
def State.get (s : State) (f : Fld) : Nat := Word.bits (s.rd f.reg) f.hi f.lo

/-- Set a field of a register. -/
def State.put (s : State) (f : Fld) (n : Nat) : State := s.wr f.reg (Word.setBits (s.rd f.reg) f.hi f.lo n)

/-- Whether a field is not zero. -/
def State.on (s : State) (f : Fld) : Bool := s.get f != 0

/-- Set a one-bit field. -/
def State.putB (s : State) (f : Fld) (b : Bool) : State := s.put f (if b then 1 else 0)

/-- Bit `i` of a register. -/
def State.bit (s : State) (off i : Nat) : Bool := (s.rd off).getLsbD i

/-- Set bit `i` of a register. -/
def State.setBit (s : State) (off i : Nat) (b : Bool) : State := s.put ⟨off, i, i⟩ (if b then 1 else 0)

/-- The value of a register that its block acts on: a write acts from the next round boundary (Scope R21). -/
def State.act (s : State) (off : Nat) : Word := match s.acting.find? fun e => e.1 == off with
  | some e => e.2
  | none => s.rd off

/-- A field of a register as its block acts on it. -/
def State.cfg (s : State) (f : Fld) : Nat := Word.bits (s.act f.reg) f.hi f.lo

/-- Whether a field that its block acts on is not zero. -/
def State.cfgOn (s : State) (f : Fld) : Bool := s.cfg f != 0

/-- A write of a register whose block acts on it from the next round boundary (Scope R21): the value that it had at the last boundary is kept until
then. -/
def State.wrCfg (s : State) (off n : Nat) : State :=
  (s.setActing (if s.acting.any fun e => e.1 == off then s.acting else s.acting ++ [(off, s.rd off)])).wrN off n

/-- The device clears a field, and its block acts on that at once. -/
def State.clearNow (s : State) (f : Fld) : State := (s.setActing (s.acting.filter fun e => e.1 != f.reg)).put f 0

/-- Add to a 32-bit counter that saturates. -/
def State.addSat (s : State) (off n : Nat) : State := s.wrN off (min (s.rdN off + n) 0xFFFFFFFF)

/-- Add to a 64-bit counter that saturates. -/
def State.add64 (s : State) (off n : Nat) : State := s.wrN off (min (s.rdN off + n) (2 ^ 64 - 1))

/-! ### Time -/

/-- The round counter (Round R43). -/
def State.round (s : State) : Nat := s.rdN ROUND_COUNT

/-- The instant `t` ns after the boundary that began the present round, in ns of round time (Scope R7). -/
def State.at (s : State) (t : Nat) : Nat := s.round * 1000 + t

/-- The present instant, in ns of round time: the round-relative time last given. -/
def State.now (s : State) : Nat := s.round * 1000 + s.rnd.ns

/-- The round-relative time of a command (Scope R7). -/
def State.atNs (s : State) (t : Nat) : State :=
  let n := min t 999
  (s.setRnd fun z => { z with ns := n }).wrN ROUND_PHASE (n / 10 * 10)

/-- The network round number: the round counter plus NET_OFFSET, read as a signed number (Round R47). -/
def State.netRound (s : State) : Int := (s.round : Int) + toSigned 64 (s.rdN ROUND_NET_OFFSET)

/-! ### Free values -/

/-- The next free value. -/
def State.free (s : State) : Nat := Config.free s.freeCtr

/-- Go past the free value that has been used. -/
def State.useFree (s : State) : State := { s with freeCtr := s.freeCtr + 1 }

/-- Go past `n` free values. -/
def State.useFrees (s : State) (n : Nat) : State := { s with freeCtr := s.freeCtr + n }

/-! ### Memories -/

/-- What a byte of memory that nothing has written reads as. -/
def memZero : Nat → Byte := fun _ => 0

/-- A byte at a device address. -/
def State.byte (s : State) (a : Nat) : Byte := SMap.get memZero s.mem a

/-- `n` bytes of a sparse memory from address `a`. -/
def readBytes (m : SMap Byte) (a : Nat) : Nat → Bytes
  | 0 => []
  | n + 1 => SMap.get memZero m a :: readBytes m (a + 1) n

/-- Store bytes into a sparse memory from address `a`. -/
def writeBytes (m : SMap Byte) (a : Nat) : Bytes → SMap Byte
  | [] => m
  | b :: t => writeBytes (SMap.set memZero m a b) (a + 1) t

/-- Bytes at a device address, with no check. -/
def State.rdMem (s : State) (a n : Nat) : Bytes := readBytes s.mem a n

/-- Store bytes at a device address, with no check. -/
def State.wrMem (s : State) (a : Nat) (b : Bytes) : State := { s with mem := writeBytes s.mem a b }

/-- Bytes at a PCIe bus address. -/
def State.rdHost (s : State) (a n : Nat) : Bytes := readBytes s.hostMem a n

/-- Store bytes at a PCIe bus address. -/
def State.wrHost (s : State) (a : Nat) (b : Bytes) : State := { s with hostMem := writeBytes s.hostMem a b }

/-- `n` bytes from offset `off` of a block of bytes, as a little-endian number (Scope R10). -/
def fieldLE (b : Bytes) (off n : Nat) : Nat := leNat ((b.drop off).take n)

/-- Bits `[hi:lo]` of a number. -/
def nbits (v hi lo : Nat) : Nat := (v / 2 ^ lo) % 2 ^ (hi + 1 - lo)

/-- Bit `i` of a number. -/
def nbit (v i : Nat) : Bool := (v / 2 ^ i) % 2 == 1

/-! ### Per-unit state -/

/-- What a ring holds beyond its registers. -/
def State.ring (s : State) (r : Nat) : RingDyn := SMap.get (fun _ => {}) s.rings r

/-- Set what a ring holds beyond its registers. -/
def State.setRing (s : State) (r : Nat) (d : RingDyn) : State := { s with rings := SMap.set (fun _ => {}) s.rings r d }

/-- The unit of work running on a block, if any. -/
def State.unitOn (s : State) (i : Nat) : Option RunUnit := SMap.get (fun _ => none) s.rnd.running i

/-- Set the unit of work running on a block. When a unit ends, the time for which it has run in the present round is added to its block's (Power cap R510). -/
def State.setUnit (s : State) (i : Nat) (u : Option RunUnit) : State :=
  s.setRnd fun z => { z with
    running := SMap.set (fun _ => none) s.rnd.running i u
    ran := match u, s.unitOn i with
      | none, some x => SMap.set (fun _ => 0) z.ran i (SMap.get (fun _ => 0) z.ran i + (s.now - max (x.startRound * 1000 + x.startNs) (s.round * 1000)))
      | _, _ => z.ran }

/-! ### Power domains -/

/-- The state of a switched domain, coded as TARGET: 0 ON, 1 IDLE, 2 RETAIN, 3 OFF (Power states Table 14.2). A domain whose isolation is asserted
on its way down can no more be reached than one in RETAIN (R461). -/
def State.dom (s : State) (i : Nat) : Nat :=
  if s.pwr.clamped.contains i then 2 else s.get (POWER_DOM_STATUS_STATE i)

/-- A domain is ON or IDLE, so that it can be reached from outside (Power states Table 14.2). -/
def State.domUp (s : State) (i : Nat) : Bool := decide (s.dom i ≤ 1)

/-- The domain has joined the round sequence: a boundary has come since it came ON (Round R45). -/
def State.joined (s : State) (i : Nat) : Bool := !s.pwr.fresh.contains i

/-- What the power steward holds of a domain. -/
def State.pdom (s : State) (i : Nat) : DomSt := SMap.get (fun _ => {}) s.pwr.doms i

/-- A domain's agent has been asked or has agreed, and has not been resumed or committed: it starts no new work (Power states R471). -/
def State.preparing (s : State) (i : Nat) : Bool :=
  (s.pdom i).prep.isSome || (match (s.pdom i).trans with | some t => decide (2 ≤ t.target) | none => false) ||
    (match s.pwr.dev with
     | some j => j.agreed.contains i || (!j.commit && j.todo.head? == some i)
     | none => false)

/-- SPINE is ON and has come up since its last reset (Bring-up Table 20.2, R645; Power states Table 14.7). -/
def State.spineUp (s : State) : Bool := s.on GLOBAL_BOOT_STATUS_SPINE_UP && s.pwr.spine == 0

/-- A firmware processor runs (Firmware Table 17.3). -/
def State.fwRunning (s : State) (p : Nat) : Bool := s.get (FIRMWARE_PROC_STATE_STATE p) == 4

/-- An orderly entry to the safe state has begun, or the device is in it: no unit starts (Errors R600). -/
def State.quiet (s : State) : Bool := s.on ERROR_STATUS_ENTERING || s.on ERROR_STATUS_SAFE

/-! ### Interrupts -/

/-- Send an MSI-X message of a PCIe function. The PF has 2,048 entries and each VF 256 (Links Table 19.1); a vector above the
last entry sends nothing, and a masked entry sends nothing but sets its pending bit (Links R612). -/
def State.msix (s : State) (fn vec : Nat) : State :=
  if (if fn = 0 then 2048 else 256) ≤ vec then s else s.sendIrq (if s.links.masked.contains (fn, vec) then .held fn vec else .msix fn vec)

/-- Send a core-local interrupt to the host cores while their domain is ON. -/
def State.coreIrq (s : State) (secure : Bool) (source : Nat) (vector : Option Nat) : State :=
  if s.dom 16 = 0 then s.sendIrq (.core secure source vector) else s

/-- Send an interrupt to a function: MSI-X to a PCIe function; to function 17 or 18 the core-local interrupt numbered VECTOR, a supervisor or a
machine interrupt (Links R612, R620). -/
def State.irqTo (s : State) (fn vec source : Nat) : State :=
  if fn ≤ 16 then s.msix fn vec else if fn = 17 then s.coreIrq false source (some vec)
  else if fn = 18 then s.coreIrq true source (some vec) else s

/-! ### Small numbers -/

/-- The places of the ones of a number, below `n`, rising. -/
def onesBelow (v n : Nat) : List Nat := (List.range n).filter (nbit v)

/-- Apply a state change for each element of a list, in order. -/
def State.each {α : Type} (s : State) (l : List α) (f : State → α → State) : State := l.foldl f s

end Sys2Proof.Machine
end

