-- ==== Sys2Proof/Machine/Float.lean ====
section
/-! DEFINITION. Number formats and quantisation (Numbers §1 to §4): binary floating point rounded to nearest even, exact dyadic numbers,
integer codes and stamp books. -/

namespace Sys2Proof.Machine

/-! ### Dyadic numbers -/

/-- The number ± m · 2^e; a zero keeps its sign. -/
structure Dy where
  neg : Bool
  m : Nat
  e : Int
  deriving DecidableEq, Repr

/-- The magnitude of a dyadic number in units of 2^q, for q at most its exponent. -/
def Dy.units (d : Dy) (q : Int) : Nat := d.m * 2 ^ (d.e - q).toNat

/-- A dyadic number as a signed count of units of 2^q. -/
def Dy.signedUnits (d : Dy) (q : Int) : Int := if d.neg then -((d.units q : Nat) : Int) else (d.units q : Nat)

/-- The dyadic number of a signed count of units of 2^q; `z` is the sign of a zero. -/
def dyOf (z : Bool) (n q : Int) : Dy := ⟨if n = 0 then z else decide (n < 0), n.natAbs, q⟩

/-- An integer as a dyadic number. -/
def dyInt (n : Int) : Dy := dyOf false n 0

/-- An exact sum; a zero sum is +0 unless both terms are −0 (IEEE 754, round to nearest even). -/
def Dy.add (a b : Dy) : Dy :=
  let q := min a.e b.e
  dyOf (a.neg && b.neg && a.m == 0 && b.m == 0) (a.signedUnits q + b.signedUnits q) q

/-- An exact product. -/
def Dy.mul (a b : Dy) : Dy := ⟨xor a.neg b.neg, a.m * b.m, a.e + b.e⟩

/-- `a < b`. -/
def Dy.lt (a b : Dy) : Bool := let q := min a.e b.e; decide (a.signedUnits q < b.signedUnits q)

/-- A quotient rounded to the nearest integer, half-way cases to the even one. -/
def rneDiv (n d : Nat) : Nat :=
  let k := n / d
  let r := n % d
  if 2 * r < d then k else if d < 2 * r then k + 1 else if k % 2 = 0 then k else k + 1

/-- A dyadic number rounded to the nearest integer, half-way cases to the even one (Numbers R232). -/
def Dy.rne (d : Dy) : Int :=
  let n := if 0 ≤ d.e then d.m * 2 ^ d.e.toNat else rneDiv d.m (2 ^ (-d.e).toNat)
  if d.neg then -(n : Int) else n

/-! ### Binary floating point (Numbers Table 7.1, R229) -/

/-- A format: significand bits with the hidden one, exponent bits, and the exponent of the least subnormal. -/
structure FFmt where
  p : Nat
  w : Nat
  q : Int

def f32 : FFmt := ⟨24, 8, -149⟩
def bf16 : FFmt := ⟨8, 8, -133⟩
def f16 : FFmt := ⟨11, 5, -24⟩

/-- A floating-point value. -/
inductive FV where
  | nan
  | inf (neg : Bool)
  | fin (d : Dy)
  deriving DecidableEq, Repr

/-- The value of an encoding. -/
def FFmt.dec (f : FFmt) (n : Nat) : FV :=
  let frac := n % 2 ^ (f.p - 1)
  let ex := n / 2 ^ (f.p - 1) % 2 ^ f.w
  let neg := nbit n (f.p - 1 + f.w)
  if ex = 2 ^ f.w - 1 then (if frac = 0 then .inf neg else .nan)
  else if ex = 0 then .fin ⟨neg, frac, f.q⟩
  else .fin ⟨neg, frac + 2 ^ (f.p - 1), f.q + (ex - 1 : Nat)⟩

/-- The quiet NaN of a format: 0x7FC0_0000, 0x7FC0, 0x7E00. -/
def FFmt.qnan (f : FFmt) : Nat := (2 ^ f.w - 1) * 2 ^ (f.p - 1) + 2 ^ (f.p - 2)

/-- The encoding of an infinity. -/
def FFmt.infinity (f : FFmt) (neg : Bool) : Nat := (if neg then 2 ^ (f.p - 1 + f.w) else 0) + (2 ^ f.w - 1) * 2 ^ (f.p - 1)

/-- A dyadic number rounded to nearest even into a format; beyond the largest finite value it becomes infinity. -/
def FFmt.round (f : FFmt) (d : Dy) : Nat :=
  let sign := if d.neg then 2 ^ (f.p - 1 + f.w) else 0
  if d.m = 0 then sign
  else
    let q := max (d.e + (Nat.log2 d.m + 1 : Nat) - (f.p : Int)) f.q
    let m := if q ≤ d.e then d.m * 2 ^ (d.e - q).toNat else rneDiv d.m (2 ^ (q - d.e).toNat)
    let bits := (q - f.q).toNat * 2 ^ (f.p - 1) + m
    sign + min bits ((2 ^ f.w - 1) * 2 ^ (f.p - 1))

/-- The encoding of a value. -/
def FFmt.enc (f : FFmt) : FV → Nat
  | .nan => f.qnan
  | .inf n => f.infinity n
  | .fin d => f.round d

/-- Sum of two values, rounded once by the caller. -/
def FV.add : FV → FV → FV
  | .nan, _ => .nan
  | _, .nan => .nan
  | .inf a, .inf b => if a = b then .inf a else .nan
  | .inf a, _ => .inf a
  | _, .inf b => .inf b
  | .fin a, .fin b => .fin (a.add b)

/-- Product of two values. -/
def FV.mul : FV → FV → FV
  | .nan, _ => .nan
  | _, .nan => .nan
  | .inf a, .inf b => .inf (xor a b)
  | .inf a, .fin b => if b.m = 0 then .nan else .inf (xor a b.neg)
  | .fin a, .inf b => if a.m = 0 then .nan else .inf (xor a.neg b)
  | .fin a, .fin b => .fin (a.mul b)

/-- The value with its sign changed. -/
def FV.negate : FV → FV
  | .nan => .nan
  | .inf a => .inf (!a)
  | .fin a => .fin ⟨!a.neg, a.m, a.e⟩

/-- `a < b` for two values that are not NaN. -/
def FV.lt : FV → FV → Bool
  | .inf a, .inf b => a && !b
  | .inf a, _ => a
  | _, .inf b => !b
  | .fin a, .fin b => a.lt b
  | _, _ => false

/-- FP32 to INT32: nearest even, saturating; a NaN becomes 0 (Numbers R229). -/
def FV.toInt32 : FV → Int
  | .nan => 0
  | .inf n => if n then -0x80000000 else 0x7FFFFFFF
  | .fin d => max (-0x80000000) (min 0x7FFFFFFF d.rne)

/-! ### Approximate operations (Clerks Table 5.4) -/

/-- `|a - b| ≤ |b| · (2^-12 + 2^-k)`, for numbers of one sign (`k` = 0: the bound alone is 2^-12). -/
def relClose (a b : Dy) (k : Nat) : Bool :=
  let q := min a.e b.e
  let diff := (a.signedUnits q - b.signedUnits q).natAbs
  decide (diff * 2 ^ (12 + k) ≤ b.units q * (2 ^ k + (if k = 0 then 0 else 2 ^ 12)))

/-- An integer square root, by Newton's iteration from above. -/
def isqrt (n : Nat) : Nat := (List.range 96).foldl (fun r _ => min r ((r + n / max r 1) / 2)) (2 ^ (Nat.log2 n / 2 + 1))

/-- 2^(b/2^24) for `b` below 2^24, in units of 2^-60: the product of the roots of 2 that its bits name. -/
def pow2Frac (b : Nat) : Nat :=
  ((List.range 24).foldl (fun (x : Nat × Nat) i =>
    let root := isqrt (x.1 * 2 ^ 60)
    (root, if nbit b (23 - i) then x.2 * root / 2 ^ 60 else x.2)) (2 * 2 ^ 60, 2 ^ 60)).2

/-- 2^x, with a relative error below 2^-20. -/
def pow2Dy (d : Dy) : Dy :=
  let n := d.signedUnits (min d.e (-24)) / (2 ^ (-24 - min d.e (-24)).toNat : Nat)
  ⟨false, pow2Frac (n % 2 ^ 24).toNat, n / 2 ^ 24 - 60⟩

/-- A finite value is normal in FP32, so that a relative error is stated for it. -/
def normal32 (d : Dy) : Bool :=
  let n := f32.round ⟨false, d.m, d.e⟩
  decide (0x00800000 ≤ n) && decide (n < 0x7F800000)

/-- An approximate operation on a lane: a free value within the bound of 2^-12, one for each operand. Where the spec states no result (a zero, negative,
infinite or NaN operand outside the function's range, or a result outside the normal numbers) the lane is free. -/
def approxLane (op a : Nat) : Nat :=
  let fr := Config.laneFree (100 + op) a 0 % 2 ^ 32
  match f32.dec a, f32.dec (Config.approx op a % 2 ^ 32) with
  | .fin x, r =>
    let y : Option Dy :=
      if op = 2 then some (pow2Dy x)
      else if x.m = 0 then none
      else if op = 0 then some ⟨x.neg, 2 ^ 96 / x.m, -96 - x.e⟩
      else if x.neg then none
      else
        let e := if x.e % 2 = 0 then x.e else x.e - 1
        let m := if x.e % 2 = 0 then x.m else 2 * x.m
        some ⟨false, isqrt (2 ^ 192 / m), -96 - e / 2⟩
    match y with
    | none => fr
    | some y =>
      if !normal32 y then fr
      else match r with
        | .fin z => if z.neg == y.neg && relClose z y 20 then f32.round z else f32.round y
        | _ => f32.round y
  | _, _ => fr

/-! ### Requantisation (Numbers §2 to §4) -/

/-- F[j]: 2^(j/4) rounded to FP32, in units of 2^−23 (Numbers R241). -/
def walkF (j : Nat) : Nat := if j = 0 then 8388608 else if j = 1 then 9975792 else if j = 2 then 11863283 else 14107901

/-- P(e) = 2^floor(e/4) · F[e mod 4] (Numbers R241). -/
def walkP (e : Int) : Dy := ⟨false, walkF (e % 4).toNat, e / 4 - 23⟩

/-- A multiplier or scale is usable: FP32, positive, finite and normal (Numbers R230, R231). -/
def scaleOk (n : Nat) : Bool := !nbit n 31 && decide (1 ≤ nbits n 30 23) && decide (nbits n 30 23 ≤ 254)

/-- y = v · M · P(e), exactly (Numbers R231). -/
def requantY (v : FV) (m : Nat) (e : Int) : FV :=
  match v, f32.dec m with
  | .fin d, .fin k => .fin ((d.mul k).mul (walkP e))
  | .inf n, _ => .inf n
  | _, _ => .nan

/-- The integer code of y for a largest code `q`, and whether the overrange event is set (Numbers R232 to R234). -/
def intCode (q : Nat) : FV → Int × Bool
  | .nan => (0, true)
  | .inf n => (if n then -(q : Int) else q, true)
  | .fin d =>
    let c := d.rne
    if (q : Int) < c then (q, true) else if c < -(q : Int) then (-(q : Int), true) else (c, false)

/-- The value of an SB16 entry: a signed mantissa in bits [7:4] and a shift in bits [2:0] (Clerks R157). -/
def sb16Value (b : Nat) : Int := toSigned 4 (b / 16) * (2 ^ (b % 8) : Nat)

/-- The value of an SB256 entry: INT8 (Clerks R158). -/
def sb256Value (b : Nat) : Int := toSigned 8 b

/-- Entries are strictly increasing (Numbers R236). -/
def increasing : List Int → Bool
  | a :: b :: t => decide (a < b) && increasing (b :: t)
  | _ => true

/-- The position of y among the entries of an ordered book: the i for which |y − e_i| is smallest, and the even one of two at a half-way
point. `y` is n/d, and `i` is the index of the first entry of the list. -/
def nearest (n : Int) (d : Nat) (i : Nat) : List Int → Nat
  | a :: b :: t =>
    let mid := (a + b) * (d : Int)
    if 2 * n < mid then i
    else if 2 * n = mid then (if i % 2 = 0 then i else i + 1)
    else nearest n d (i + 1) (b :: t)
  | _ => i

/-- Stamp-book assignment (Numbers Table 7.3): index and event. -/
def bookCode (book : List Int) : FV → Nat × Bool
  | .nan => (0, true)
  | .inf n => if n then (0, true) else (book.length - 1, true)
  | .fin d =>
    let n : Int := if 0 ≤ d.e then d.signedUnits 0 else (if d.neg then -(d.m : Int) else d.m)
    let k : Nat := if 0 ≤ d.e then 1 else 2 ^ (-d.e).toNat
    match book.head?, book.getLast? with
    | some lo, some hi =>
      if hi * (k : Int) < n then (book.length - 1, true)
      else if n < lo * (k : Int) then (0, true)
      else (nearest n k 0 book, false)
    | _, _ => (0, true)

end Sys2Proof.Machine
end

