-- ==== Sys2Proof/Machine/Flags.lean ====
section
/-! DEFINITION. Reporting an error (Errors §1 to §3): the status flags it sets, the record it writes, the record that becomes
current, the interrupts, and the start of FATAL handling. -/

namespace Sys2Proof.Machine
open Reg

/-- An error to report: its code and the fields of its record that the reporting rule names (Errors Table 18.2). -/
structure Err where
  code : Nat
  ring : Option Nat := none
  unit : Nat := 0xFFFF
  detail : Nat := 0
  injected : Bool := false

/-- The class of a record's code as a number. -/
def clsOf (c : Nat) : Nat := match errClass c with | some k => k.code | none => 0

/-- The record that is current. -/
def State.curRec (s : State) : Option ErrRec := s.err.cur.bind fun q => s.err.recs.find? fun r => r.seq == q

/-- The fields of ERROR.STATUS and ERROR.CUR that show the queue (Errors §7). -/
def State.errSync (s : State) : State :=
  let s := s.put ERROR_STATUS_QUEUED s.err.recs.length
  match s.curRec with
  | some r => ((s.putB ERROR_STATUS_CUR_VALID true).put ERROR_STATUS_CUR_CLASS r.cls)
  | none => ((s.putB ERROR_STATUS_CUR_VALID false).put ERROR_STATUS_CUR_CLASS 0)

/-- The interrupts of a change of the current record (Errors R596). -/
def State.errIrq (s : State) (cls : Nat) : State :=
  let s := if s.cfgOn ERROR_IRQ_CFG_EN && decide (s.cfg ERROR_IRQ_CFG_MIN_CLASS ≤ cls)
    then (s.msix 0 (s.cfg ERROR_IRQ_CFG_VECTOR)).coreIrq false 0xD0 none else s
  if 1 ≤ cls then s.coreIrq true 0xD0 none else s

/-- The queued record of the highest class, and the lowest SEQ within it (Errors R593). -/
def bestRec : List ErrRec → Option ErrRec
  | [] => none
  | r :: t => match bestRec t with
    | none => some r
    | some b => if b.cls > r.cls || (b.cls == r.cls && decide (b.seq < r.seq)) then some b else some r

/-- Make the best queued record current when none is (Errors R593). -/
def State.errSelect (s : State) : State :=
  match s.err.cur, bestRec s.err.recs with
  | none, some b => State.errIrq (State.errSync (s.setErr fun z => { z with cur := some b.seq })) b.cls
  | _, _ => s.errSync

/-- The queued record that a new one of class `c` displaces: of those not current and below `c`, the newest of the lowest class
present (Errors R591). -/
def displaced (cur : Option Nat) (c : Nat) : List ErrRec → Option ErrRec
  | [] => none
  | r :: t =>
    let rest := displaced cur c t
    if some r.seq == cur || decide (c ≤ r.cls) then rest else
      match rest with
      | none => some r
      | some b => if b.cls < r.cls || (b.cls == r.cls && decide (r.seq < b.seq)) then some b else some r

/-- The n-th of the slots that hold no record; which free slot a record takes is not given (Errors R591). -/
def freeSlot (recs : List ErrRec) (n : Nat) : Nat :=
  let free := (List.range 256).filter fun i => !(recs.any fun r => r.slot == i)
  free.getD (n % free.length) 0

/-- The status bit of a class (Errors §7 STATUS, R588). -/
def State.errStatus (s : State) : ErrClass → State
  | .note => s.putB ERROR_STATUS_NOTE true
  | .contained => s.putB ERROR_STATUS_CONTAINED true
  | .degraded => s.putB ERROR_STATUS_DEGRADED true
  | .fatal => (s.putB ERROR_STATUS_FATAL true).putB ERROR_STATUS_DEGRADED true

/-- Put a written record in the queue; a record of a higher class than the current one becomes current at once, and the one it
replaces is marked PREEMPTED (Errors R594); with none current R593 applies. -/
def State.errEnqueue (s : State) (r : ErrRec) : State :=
  let s := s.setErr fun z => { z with recs := s.err.recs ++ [r] }
  match s.curRec with
  | none => s.errSelect
  | some c =>
    if c.cls < r.cls then
      let recs := s.err.recs.map fun x => if x.seq == c.seq then { x with preempted := true } else x
      State.errIrq (State.errSync (s.setErr fun z => { z with recs := recs, cur := some r.seq })) r.cls
    else s.errSync

/-- Write the record of an error (Errors R589 to R591). Of several NOTE records that it could add to, it adds to the oldest in the queue. -/
def State.errRecord (s : State) (e : Err) (cls : ErrClass) (safe nested : Bool) : State :=
  let same : ErrRec → Bool := fun r =>
    r.cls == 0 && r.code == e.code && r.ring == e.ring && r.unit == e.unit && some r.seq != s.err.cur
  match (if cls == .note then s.err.recs.find? same else none) with
  | some o => s.setErr fun z => { z with recs := s.err.recs.map fun r => if r.seq == o.seq then { r with count := min (r.count + 1) 0xFFFFFFFF } else r }
  | none =>
    let seq := s.rdN ERROR_SEQ_NEXT
    let mk : Nat → ErrRec := fun slot =>
      { slot := slot, seq := seq, code := e.code, cls := cls.code, injected := e.injected, safe := safe, nested := nested,
        round := s.round, ring := e.ring, unit := e.unit, detail := e.detail }
    let s' := s.wrN ERROR_SEQ_NEXT ((seq + 1) % 2 ^ 32)
    if s.err.recs.length < 256 then (s'.useFree).errEnqueue (mk (freeSlot s.err.recs s.free))
    else match displaced s.err.cur cls.code s.err.recs with
      | some b =>
        let s' := s'.addSat (ERROR_LOST b.cls) b.count
        State.errEnqueue (s'.setErr fun z => { z with recs := s'.err.recs.filter fun r => r.seq != b.seq }) (mk b.slot)
      | none => s.addSat (ERROR_LOST cls.code) 1

/-- What a FATAL error does beyond its record (Errors R600, R601, R603). Orderly entry begins, or a nested FATAL ends it at
once; in the safe state only a THERMAL_TRIP has a further effect. A THERMAL_TRIP starts the notification of Power states R490. -/
def State.fatal (s : State) (code : Nat) : State :=
  let hot := code == Code.THERMAL_TRIP
  let notify : State → State := fun s => if hot && s.err.notify.isNone then
    State.coreIrq ((s.setErr fun z => { z with notify := some s.round }).putB ⟨SECURE_SEC_NOTIFY, 0, 0⟩ true) true 0xC0 none else s
  if s.on ERROR_STATUS_SAFE then
    if hot then
      let s := s.setErr fun z => { z with thermal := true }
      if (onesBelow (s.rdN POWER_SEC_HOLD) 24).any (fun i => s.dom i != 3) then notify s else s
    else s
  else match s.err.entry with
    | some e =>
      let s := (s.putB ERROR_SAFE_STATUS_NESTED true)
      let s := s.setErr fun z => { z with entry := some { e with due := true }, thermal := s.err.thermal || hot }
      notify s
    | none =>
      let g := s.get ERROR_SAFE_CTRL_GRACE
      let due := code == Code.GUARD_DISAGREE || code == Code.CLOCK_FAIL || (!hot && g == 0)
      let s := ((s.putB ERROR_STATUS_ENTERING true).put ERROR_SAFE_STATUS_CODE code).putB ERROR_SAFE_STATUS_NESTED false
      let s := s.setErr fun z => { z with entry := some ⟨code, s.round, g, due⟩, thermal := hot }
      notify s

/-- Report an error (Errors R586 to R596): its status bit, its record, and for FATAL the start of the safe-state entry. A code
that is not in Errors Table 18.7 is never reported (R607). -/
def State.report (s : State) (e : Err) : State :=
  match errClass e.code with
  | none => s
  | some cls =>
    let entering := s.err.entry.isSome
    let safe := cls == .fatal || entering || s.on ERROR_STATUS_SAFE
    let nested := cls == .fatal && entering
    let s' := (s.errStatus cls).errRecord e cls safe nested
    if cls == .fatal then s'.fatal e.code else s'

end Sys2Proof.Machine
end

