-- ==== Sys2Proof/Machine/Operands.lean ====
section
/-! DEFINITION. The operand forms: requesters with their worlds and function codes, addresses with the checks every access
passes (Links R611, Trust R528, Memory R396), and the fields of an envelope (Envelopes Tables 3.3 and 3.5). -/

namespace Sys2Proof
open Machine

/-- The requester carries the secure world tag (Trust Table 16.2). -/
def Req.secure : Req → Bool
  | .host sec _ => sec
  | .opantith => true
  | _ => false

/-- The function code of a requester (Envelopes Table 3.8); firmware and the Opantith core are device firmware. -/
def Req.fn : Req → Nat
  | .pf => 0
  | .vf k => k.val + 1
  | .host sec _ => if sec then 18 else 17
  | .opantith => 20
  | .fw _ => 20

/-- Requesters that reach BAR0 or register space at all: virtual functions have only their doorbell pages (Links R609). -/
def Req.reachesRegs : Req → Bool
  | .vf _ => false
  | _ => true

/-- The PF and the host cores, the writers that most blocks of registers accept. -/
def Req.pfOrHost : Req → Bool
  | .pf => true
  | .host _ _ => true
  | _ => false

/-- A number for a requester, distinct for each holder of a latch or a held half: one PCIe function, or one world on one host
core (Scope R17). -/
def Req.index : Req → Nat
  | .pf => 0
  | .vf k => 1 + k.val
  | .host sec c => 17 + 2 * c.val + (if sec then 1 else 0)
  | .opantith => 33
  | .fw p => 34 + p.val

end Sys2Proof

namespace Sys2Proof.Machine
open Reg

/-- A requester has a path to the registers: the Opantith core and the power steward always, every other one once SPINE is up (Bring-up R645,
Power states R468). -/
def State.path (s : State) : Req → Bool
  | .vf _ => false
  | .opantith => true
  | .fw p => p.val == 2 || s.spineUp
  | _ => s.spineUp

/-! ### Device addresses -/

/-- Why an access is not performed, or returns no data. -/
inductive AccErr where
  /-- Outside the function's device memory window (Links R611). -/
  | window
  /-- A range that Memory Table 12.3 marks unpopulated; the address. -/
  | unpopulated (a : Nat)
  /-- A normal-tag access to a secure region (Trust R528). -/
  | region (a : Nat)
  /-- The SRAM of a domain in RETAIN or OFF (Power states R456). -/
  | domainDown (d : Nat)
  /-- The data is poison (Memory R416). -/
  | poison
  /-- The host does not answer (Links Table 19.2). -/
  | host
  deriving DecidableEq, Repr

/-- The size of the in-package DRAM (Scope Table 0.1) in bytes, as a test that an address lies below it. -/
def inLpddr (e : Nat) : Bool := decide (e ≤ 0x400000000) || (decide (e ≤ 0x800000000) && !Config.isM16)

/-- `[a, a + n)` lies in LPDDR5X that is there (Memory Table 12.3, Bring-up R646). -/
def State.lpOk (s : State) (a n : Nat) : Bool := inLpddr (a + n) && (!s.on GLOBAL_BOOT_STATUS_LP_FAIL || s.on GLOBAL_BOOT_STATUS_LP_TRAINED)

/-- `[a, a + n)` lies in the DDR5 expansion while it is TRAINED (Memory Table 12.3). -/
def State.dxOk (s : State) (a n : Nat) : Bool :=
  s.get MEMCTL_DX_STATUS_STATE == 2 && decide (0x1000000000 ≤ a) &&
    decide (a + n ≤ 0x1000000000 + s.get MEMCTL_DX_STATUS_SIZE_GIB * 0x40000000)

/-- `[a, a + n)` lies in the on-die SRAM window (Districts Table 6.2). -/
def inSram (a n : Nat) : Bool := decide (0x8000000000 ≤ a) && decide (a + n ≤ 0x8100000000)

/-- The district of a clerk (Clerks R153). -/
def clerkDistrict (c : Nat) : Nat := (c / 64 / 16) * 4 + (c % 64) / 16

/-- The local index of a clerk in its district (Clerks R153). -/
def clerkLocal (c : Nat) : Nat := (c / 64 % 16) * 16 + c % 64 % 16

/-- The device address of a clerk's store (Clerks R177) and of a district's sorting cache (Districts R203). -/
def storeAddr (c : Nat) : Nat := 0x8000000000 + c * 0x20000
def cacheAddr (d : Nat) : Nat := 0x8020000000 + d * 0x400000

/-- The district whose store or sorting cache an address of the SRAM window lies in (Districts Table 6.2). -/
def sramDistrict (a : Nat) : Option Nat :=
  if a < 0x8000000000 then none
  else if a < 0x8020000000 then some (clerkDistrict ((a - 0x8000000000) / 0x20000))
  else if a < 0x8024000000 then some ((a - 0x8020000000) / 0x400000)
  else none

/-- The byte belongs to a store or a sorting cache, not to the parts of the window that read zero and discard writes (Clerks
R177, Districts Table 6.2). -/
def sramHolds (a : Nat) : Bool :=
  if a < 0x8020000000 then decide (a % 0x20000 < 0x18000) else decide (a < 0x8024000000)

/-- The address lies in the boot SRAM (Trust R534). -/
def inBootSram (a n : Nat) : Bool := decide (0xF002000000 ≤ a) && decide (a + n ≤ 0xF002200000)

/-- A function's device memory window holds `[a, a + n)`, or the address is a relay address that the function may use (Links R611,
Districts R222). A change of the window acts as it lands; an access of an envelope fetched before is held against the window of then only as far as its fields
were checked at its fetch (log entry 168). -/
def State.inWindow (s : State) (f a n : Nat) : Bool :=
  if 0x10000000000 ≤ a then s.on (GLOBAL_FN_WIN_BASE_RELAY_EN f) else s.on (GLOBAL_FN_WIN_BASE_EN f) && decide (s.get (GLOBAL_FN_WIN_BASE_BASE f) * 4096 ≤ a) &&
    decide (a + n ≤ s.get (GLOBAL_FN_WIN_LIMIT_LIMIT f) * 4096 + 4096)

/-- `[a, a + n)` meets an enabled secure region (Trust R528). -/
def State.inRegion (s : State) (a n : Nat) : Bool :=
  (List.range 8).any fun j => s.cfgOn (SECURE_SEC_REGION_BASE_EN j) &&
    decide (s.cfg (SECURE_SEC_REGION_BASE_BASE j) * 4096 < a + n) && decide (a < s.cfg (SECURE_SEC_REGION_LIMIT_LIMIT j) * 4096 + 4096)

/-- The checks of an access to device memory: populated (Memory Table 12.3), not in a secure region for a normal tag (Trust
R528), and not in a domain that is down (Power states R456). -/
def State.devCheck (s : State) (secure : Bool) (a n : Nat) : Option AccErr :=
  if !secure && s.inRegion a n then some (.region a)
  else if s.lpOk a n || s.dxOk a n then none
  else if inSram a n then
    match sramDistrict a with
    | some d => if s.domUp d then none else some (.domainDown d)
    | none => none
  else if secure && inBootSram a n then none
  else some (.unpopulated a)

/-- The same for an access made for a function: the window first (Links R611), then the checks of `devCheck`. An engine acting for
a function carries the secure tag for function 18 alone (Trust Table 16.2). -/
def State.fnCheck (s : State) (f a n : Nat) : Option AccErr :=
  if s.inWindow f a n then s.devCheck (f == 18) a n else some .window

/-- The poison table has a record of a line that `[a, a + n)` meets (Memory R415), or a poisoned SRAM word lies in it. -/
def State.poisoned (s : State) (a n : Nat) : Bool := s.poison.any fun l =>
  decide (l < a + n) && decide (a < l + (if l < 0x8000000000 then 64 else 8))

/-- Report an access that was not performed (Memory R396, Trust R528, Power states R456, Links Table 19.2). -/
def State.accReport (s : State) (e : AccErr) : State :=
  match e with
  | .unpopulated a => (s.report { code := Code.MEM_UNPOPULATED, detail := a }).wrN MEMCTL_UNPOP_LAST a
  | .region a => s.report { code := Code.SEC_REGION_VIOLATION, detail := a }
  | .domainDown d => s.report { code := Code.PWR_DOMAIN_DOWN, unit := d }
  | .host => s.report { code := Code.PCIE_UNCORR }
  | _ => s

/-- Cut a write into its aligned units of `w` bytes: a memory request covers one aligned 64-byte line or a part of one (Memory
R399), and a store protects aligned 8 bytes (Clerks R179). -/
def chunksOf (w a : Nat) : Bytes → List (Nat × Bytes)
  | [] => []
  | b :: t => match chunksOf w (a + 1) t with
    | (a', c) :: rest => if a / w = a' / w then (a, b :: c) :: rest else (a, [b]) :: (a', c) :: rest
    | [] => [(a, [b])]

/-- The receipt area is in force and a line lies in it (Envelopes R105). -/
def State.inReceipts (s : State) (a : Nat) : Bool :=
  s.cfgOn RINGS_RECEIPT_BASE_EN && a / 0x100000 == s.cfg RINGS_RECEIPT_BASE_ADDR

/-- Change the poison table; POISON_STATUS.ENTRIES counts the lines that it holds. -/
def State.setPoison (s : State) (l : List Nat) : State :=
  (s.putPoison l).put MEMCTL_POISON_STATUS_ENTRIES (l.filter fun a => decide (a < 0x8000000000)).length

/-- Write one line or a part of one: discarded in the receipt area (Envelopes R105); a poisoned line takes a whole line only
(Memory R415). -/
def State.writeLine (s : State) (a : Nat) (b : Bytes) : State :=
  if s.inReceipts a then s.report { code := Code.RECEIPT_WRITE, detail := a }
  else if s.poison.contains (a / 64 * 64) then
    if b.length = 64 then (s.setPoison (s.poison.filter (· != a / 64 * 64))).wrMem a b
    else s.report { code := Code.MEM_POISON_WRITE, detail := a / 64 * 64 }
  else s.wrMem a b

/-! ### ECC of stores and sorting caches (Clerks R179, Districts R205) -/

/-- Set the number of wrong bits of an 8-byte word that no read has found yet. -/
def State.setFlip (s : State) (a n : Nat) : State :=
  s.setFloor fun f => { f with flips := (f.flips.filter fun x => x.1 != a) ++ (if n = 0 then [] else [(a, n)]) }

/-- A read of a word finds its wrong bits: one is corrected and counted, and two poison the word. -/
def State.eccWord (s : State) (x : Nat × Nat) : State :=
  match sramDistrict x.1 with
  | none => s
  | some d =>
    let cache := decide (0x8020000000 ≤ x.1)
    let s := (s.setFlip x.1 0)
    let s := if cache then s.put (FLOOR_SC_ECC_LAST_BANK d) ((x.1 - cacheAddr d) / 0x40000)
      else s.put (FLOOR_ECC_STATUS_LAST_CLERK d) (clerkLocal ((x.1 - 0x8000000000) / 0x20000))
    if x.2 = 1 then
      let f := if cache then FLOOR_SC_ECC_CORR_COUNT d else FLOOR_ECC_STATUS_CORR_COUNT d
      (s.put f (min (s.get f + 1) 0xFFFF)).report { code := Code.SRAM_CORRECTED, unit := d, detail := x.1 }
    else
      let s := s.putB (if cache then FLOOR_SC_ECC_UNCORR d else FLOOR_ECC_STATUS_UNCORR d) true
      (s.putPoison (if s.poison.contains x.1 then s.poison else s.poison ++ [x.1])).report { code := Code.SRAM_UNCORRECTABLE, unit := d, detail := x.1 }

/-- A read of `[a, a + n)` finds the wrong bits of the words that it meets. -/
def State.eccRead (s : State) (a n : Nat) : State :=
  s.each (s.floor.flips.filter fun x => decide (x.1 < a + n) && decide (a < x.1 + 8)) State.eccWord

/-- A write of a whole word leaves it with fresh ECC and no poison. -/
def State.freshWord (s : State) (w : Nat) : State :=
  let s := if s.floor.flips.any fun x => x.1 == w then s.setFlip w 0 else s
  if s.poison.contains w then s.putPoison (s.poison.filter (· != w)) else s

/-- Write one 8-byte word, or a part of one, of a store or sorting cache: discarded in the receipt area (Envelopes R105); a poisoned word takes a whole word
only (Clerks R179). A part of a word is written over what a read of the word gives, so that its wrong bits are found first. -/
def State.writeSram (s : State) (a : Nat) (b : Bytes) : State :=
  let w := a / 8 * 8
  if s.inReceipts a then s.report { code := Code.RECEIPT_WRITE, detail := a }
  else if sramHolds a then
    if b.length = 8 then (s.freshWord w).wrMem a b
    else
      let s := s.eccRead w 8
      if s.poison.contains w then s else s.wrMem a b
  else s

/-- Store bytes at a device address, after its checks: line by line. -/
def State.store (s : State) (a : Nat) (b : Bytes) : State :=
  if inSram a b.length then (chunksOf 8 a b).foldl (fun s l => s.writeSram l.1 l.2) s
  else (chunksOf 64 a b).foldl (fun s l => s.writeLine l.1 l.2) s

/-- The 64-byte lines of a range that lie in the receipt area. -/
def State.receiptLines (s : State) (a n : Nat) : List Nat :=
  if s.cfgOn RINGS_RECEIPT_BASE_EN then
    let lo := max (a / 64) (s.cfg RINGS_RECEIPT_BASE_ADDR * 0x4000)
    let hi := min ((a + n + 63) / 64) ((s.cfg RINGS_RECEIPT_BASE_ADDR + 1) * 0x4000)
    (List.range (hi - lo)).map fun i => (lo + i) * 64
  else []

/-- Zero a range of device memory, but for the lines of the receipt area, which are reported (Envelopes R105). -/
def State.zeroMem (s : State) (a n : Nat) : State :=
  let gone : Nat → Bool := fun e => decide (a ≤ e) && decide (e < a + n) && !s.inReceipts e
  let s' := (s.keepMem fun e => !gone e).setPoison (s.poison.filter fun l => !gone l)
  s'.each (s.receiptLines a n) fun s l => s.report { code := Code.RECEIPT_WRITE, detail := l }

/-- Read for a function: the bytes, or why there are none. -/
def State.fnRead (s : State) (f a n : Nat) : Except AccErr Bytes :=
  match s.fnCheck f a n with
  | some e => .error e
  | none => if s.poisoned a n then .error .poison else .ok (s.rdMem a n)

/-- Write for a function; an access that is not performed is reported. -/
def State.fnWrite (s : State) (f a : Nat) (b : Bytes) : State × Option AccErr :=
  match s.fnCheck f a b.length with
  | some e => (s.accReport e, some e)
  | none => (s.store a b, none)

/-! ### Addresses of envelopes and rings (Envelopes R89) -/

/-- Bit 63 of an address field: a PCIe bus address. -/
def isHostAddr (a : Nat) : Bool := nbit a 63

/-- Read at an address field for a function. The host answers while the link is up (Links Table 19.2). -/
def State.addrRead (s : State) (f a n : Nat) : Except AccErr Bytes :=
  if isHostAddr a then
    if 17 ≤ f then .error .window else if s.on GLOBAL_PCIE_STATUS_LINK_UP then .ok (s.rdHost (a % 2 ^ 63) n) else .error .host
  else s.fnRead f a n

/-- Write at an address field for a function. -/
def State.addrWrite (s : State) (f a : Nat) (b : Bytes) : State × Option AccErr :=
  if isHostAddr a then
    if 17 ≤ f then (s, some .window)
    else if s.on GLOBAL_PCIE_STATUS_LINK_UP then (s.wrHost (a % 2 ^ 63) b, none) else (s.accReport .host, some .host)
  else s.fnWrite f a b

/-- The check that an address field names memory the function may use. -/
def State.addrCheck (s : State) (f a n : Nat) : Option AccErr :=
  if isHostAddr a then
    if 17 ≤ f then some .window else if s.on GLOBAL_PCIE_STATUS_LINK_UP then none else some .host
  else s.fnCheck f a n

/-! ### The envelope (Envelopes Tables 3.3, 3.4, 3.5) -/

namespace Env

def kind (e : Bytes) : Nat := fieldLE e 0 1
def flags (e : Bytes) : Nat := fieldLE e 1 1
def irq (e : Bytes) : Bool := nbit (flags e) 0
def suppress (e : Bytes) : Bool := nbit (flags e) 1
def overlap (e : Bytes) : Bool := nbit (flags e) 3
def contOnFail (e : Bytes) : Bool := nbit (flags e) 4
def postmark (e : Bytes) : Nat := fieldLE e 2 2
def user (e : Bytes) : Nat := fieldLE e 4 4
def sigId (e : Bytes) : Nat := fieldLE e 8 4
def sigEn (e : Bytes) : Bool := nbit (sigId e) 31
def sigMax (e : Bytes) : Bool := nbit (sigId e) 30
def sigIndex (e : Bytes) : Nat := nbits (sigId e) 16 0
def sigValue (e : Bytes) : Nat := fieldLE e 0x10 8

/-- RUN (Envelopes Table 3.5). -/
def parcel (e : Bytes) : Nat := fieldLE e 0x18 8
def args (e : Bytes) : Nat := fieldLE e 0x20 8
def districts (e : Bytes) : Nat := fieldLE e 0x28 2
def entry (e : Bytes) : Nat := fieldLE e 0x2A 2
def stepLimit (e : Bytes) : Nat := fieldLE e 0x2C 4
def argLen (e : Bytes) : Nat := fieldLE e 0x30 4

/-- COPY. -/
def src (e : Bytes) : Nat := fieldLE e 0x18 8
def dst (e : Bytes) : Nat := fieldLE e 0x20 8
def len (e : Bytes) : Nat := fieldLE e 0x28 4
def mode (e : Bytes) : Nat := fieldLE e 0x2C 2
def srcStride (e : Bytes) : Nat := fieldLE e 0x30 4
def dstStride (e : Bytes) : Nat := fieldLE e 0x34 4
def rows (e : Bytes) : Nat := fieldLE e 0x38 4

/-- WAIT and SIGNAL. -/
def receipt (e : Bytes) : Nat := fieldLE e 0x18 4
def timeout (e : Bytes) : Nat := fieldLE e 0x1C 4
def sigMode (e : Bytes) : Nat := fieldLE e 0x1C 4
def value (e : Bytes) : Nat := fieldLE e 0x20 8
def remote (e : Bytes) : Bool := nbit (sigMode e) 8
def target (e : Bytes) : Nat := nbits (sigMode e) 10 9

/-- TXN (Transactions §4). -/
def op (e : Bytes) : Nat := fieldLE e 0x18 1
def owner (e : Bytes) : Nat := fieldLE e 0x19 1
def list (e : Bytes) : Nat := fieldLE e 0x20 8
def count (e : Bytes) : Nat := fieldLE e 0x28 4

end Env

end Sys2Proof.Machine
end

