-- ==== Sys2Proof/Machine/Bus.lean ====
section
/-! DEFINITION. What a register write does before it reaches its register (Scope R13 to R18): the path of its requester and the low half that the
requester holds. -/

namespace Sys2Proof.Machine
open Reg

/-! ### Where a register lives -/

/-- FLOOR registers of district `d` that live in its domain: every per-district register (Clerks R193, Districts R226, Numbers R250). -/
def districtReg (d off : Nat) : Bool :=
  let o := off - 0x100000
  decide (0x100000 ≤ off) &&
    ((decide (0x1000 + 0x40 * d ≤ o) && decide (o < 0x1040 + 0x40 * d)) || (decide (0x2000 + 0x40 * d ≤ o) && decide (o < 0x2040 + 0x40 * d)) ||
     o == 0x8100 + 4 * d || o == 0x8180 + 4 * d || o == 0x8200 + 16 * d || o == 0x8208 + 16 * d || o == 0x8300 + 8 * d ||
     (decide (0xB000 + 256 * d ≤ o) && decide (o < 0xB100 + 256 * d)) || o == 0xC100 + 4 * d || o == 0xC140 + 4 * d)

/-- The switched domain that a register lies in (Part Table 1.2, Atlas Table 22.1). -/
def regDomain (off : Nat) : Option Nat :=
  let b := off / 0x100000
  if b = 1 then (List.range 16).find? fun d => districtReg d off
  else if b = 3 then some 17 else if b = 4 then some 18 else if b = 5 then some 20 else if b = 8 then some 23
  else if b = 9 then some 19 else if b = 15 then some 22
  else if decide (0x800 ≤ off) && decide (off < 0x810) then some 21
  else none

/-- The register's domain is in RETAIN or OFF, or is SPINE or WATCH and not up: writes are discarded (Power states Table 14.2). -/
def State.regDown (s : State) (off : Nat) : Bool :=
  let b := off / 0x10000
  let always := b == 1 || b == 0xA0 || b / 16 == 6 || b / 16 == 7 || b / 16 == 10 || b / 16 == 11 || b / 16 == 12 || b / 16 == 13 || b / 16 == 14 ||
    (decide (0xC00 ≤ off) && decide (off < 0x1000))
  (match regDomain off with | some d => !s.domUp d | none => false) || (!always && !s.spineUp) ||
    ((b == 1 || b / 16 == 6 || b / 16 == 7) && s.pwr.watch != 0)

/-- A read returns a value to its requester. -/
def State.giveRead (s : State) (n : Nat) : State := s.setBus fun z => { z with data := n }

/-! ### Held low halves -/

/-- A NOTE for a refused access of a register. -/
def State.refuse (s : State) (code off : Nat) : State := s.report { code := code, detail := off }

/-- The low half that a requester holds. -/
def State.holdOf (s : State) (q : Req) : Option RegHold := SMap.get (fun _ => none) s.bus.holds q.index

def State.setHold (s : State) (q : Req) (h : Option RegHold) : State :=
  s.setBus fun z => { z with holds := SMap.set (fun _ => none) s.bus.holds q.index h }

/-- A held low half is dropped, with REG_ACCESS where it is of another register than `reg` (Scope R18). -/
def State.dropHold (s : State) (q : Req) (reg : Option Nat) : State := match s.holdOf q with
  | none => s
  | some h => if reg = some h.reg then s.setHold q none else (s.setHold q none).refuse Code.REG_ACCESS h.reg

/-- An aligned write of a whole register, `reg`, that has a row of its own in the table of commands: it lands where its requester has a path, and drops a low
half that the requester holds, with REG_ACCESS where that is of another register (Scope R18). While the register's domain is down it is discarded (Power
states Table 14.2). -/
def State.landing (s : State) (q : Req) (reg : Nat) (f : State → State) : State :=
  if s.path q then
    let s := s.dropHold q (some reg)
    if s.regDown reg then s else f s
  else s

end Sys2Proof.Machine
end

