-- ==== Sys2Proof/Machine/Timetable.lean ====
section
/-! DEFINITION. The timetable (Round §3 to §6): its entries, the quanta they grant, continuation runs, the fit check and verification. -/

namespace Sys2Proof.Machine
open Reg

/-! ### Entries (Round R48, R52, Tables 2.4 and 2.5) -/

/-- Element `i` of the index table of a bank: the entry number that it names (Round R48). -/
def State.ttElem (s : State) (b i : Nat) : Nat := SMap.get (fun _ => 0) s.rnd.ttIndex (b * 65536 + i) % 4096

/-- Byte `k` of entry `e` of a bank. -/
def State.ttByte (s : State) (b e k : Nat) : Nat := SMap.get (fun _ => 0) s.rnd.ttEntry (b * 262144 + 64 * e + k)

/-- A quantum of a block in one round: its owner (none: any owner), its bounds in ns, and its continuation bit. -/
structure Quantum where
  owner : Option Nat
  lo : Nat
  hi : Nat
  cont : Bool
  deriving DecidableEq, Repr

/-- A START, LEN pair in slot units of 4 ns. -/
def slotQuantum (owner : Option Nat) (start len : Nat) (cont : Bool) : List Quantum :=
  if len = 0 then [] else [⟨owner, 4 * start, 4 * (start + len), cont⟩]

/-- The quanta that a floor byte grants its district (Round R53). Group 0 is idle. -/
def floorQuanta (b : Nat) (cont : Bool) : List Quantum :=
  let ga := nbits b 7 6
  let gb := nbits b 5 4
  let sp := nbits b 3 0
  let q : Nat → Nat → Nat → Bool → List Quantum := fun g lo hi c => if g = 0 then [] else [⟨some g, lo, hi, c⟩]
  if sp = 0 || ga = gb then q ga 0 1000 cont else q ga 0 (64 * sp) false ++ q gb (64 * sp) 1000 cont

/-- The quanta of block `i` in an entry whose bytes `e` gives (Round Table 2.4). -/
def entryQuanta (e : Nat → Nat) (i : Nat) : List Quantum :=
  if i < 16 then floorQuanta (e (0x20 + i)) (nbit (e 0x30 + 256 * e 0x31) i)
  else if i < 18 then
    let k := 0x10 + 4 * (i - 16)
    slotQuantum (some (nbits (e k) 3 0)) (e (k + 1)) (e (k + 2)) (nbit (e k) 7)
  else slotQuantum none (e (0x18 + 2 * (i - 18))) (e (0x19 + 2 * (i - 18))) (nbit (e 0x1E) (i - 18))

/-- The conditions of Table 2.5 on one entry, before the DRAM budget: slots and continuation bits. -/
def entryShape (e : Nat → Nat) : Bool :=
  ((List.range 5).all fun j =>
    let start := if j < 2 then e (0x11 + 4 * j) else e (0x18 + 2 * (j - 2))
    let len := if j < 2 then e (0x12 + 4 * j) else e (0x19 + 2 * (j - 2))
    let cont := if j < 2 then nbit (e (0x10 + 4 * j)) 7 else nbit (e 0x1E) (j - 2)
    decide (start + len ≤ 250) && (!cont || start + len == 250)) &&
    decide (e 4 + e 5 ≤ 250)

/-- BUDGET_FIRST + BUDGET_SECOND + BUDGET_BULK are within the DRAM capacity. -/
def entryBudget (e : Nat → Nat) (cap : Nat) : Bool :=
  decide (e 8 + 256 * e 9 + (e 0xA + 256 * e 0xB) + (e 0xC + 256 * e 0xD) ≤ cap)

/-- Every reserved bit is zero, and no DDR5 refresh where no SODIMM is fitted. -/
def entryRest (e : Nat → Nat) (dx : Bool) : Bool :=
  (dx || nbits (e 2) 1 0 == 0) && e 0 == 0 && nbits (e 2) 7 3 == 0 && e 3 == 0 && e 6 == 0 && e 7 == 0 && e 0xE == 0 && e 0xF == 0 &&
    nbits (e 0x10) 6 4 == 0 && nbits (e 0x14) 6 4 == 0 && e 0x13 == 0 && e 0x17 == 0 && nbits (e 0x1E) 7 3 == 0 && e 0x1F == 0 &&
    (List.range 13).all fun k => e (0x33 + k) == 0

/-- A DDR5 SODIMM is fitted: the channel is TRAINED (Memory R421). -/
def State.dxFitted (s : State) : Bool := s.get MEMCTL_DX_STATUS_STATE == 2

/-- The cause with which an entry fails verification: none, 3, or 5 (Round R68). -/
def State.entryFault (s : State) (b e : Nat) : Option Nat :=
  let f := s.ttByte b e
  if !entryShape f then some 3
  else if !entryBudget f (s.get ROUND_DRAM_CAP_UNITS) then some 5
  else if !entryRest f s.dxFitted then some 3
  else none

/-! ### Continuation runs in a bank (Round R58, R59, R68) -/

/-- The rounds of the run that goes on from element `j` with a quantum of the owner at 0 ns, counted up to `fuel`. -/
def State.runOn (s : State) (b i : Nat) (owner : Option Nat) : Nat → Nat → Nat
  | 0, _ => 0
  | fuel + 1, j =>
    if 65536 ≤ j then 0
    else match (entryQuanta (s.ttByte b (s.ttElem b j)) i).find? fun q => q.lo == 0 && q.owner == owner with
      | some q => 1 + (if q.cont && q.hi == 1000 then State.runOn s b i owner fuel (j + 1) else 0)
      | none => 0

/-- Some run that starts at element `j` is longer than 4,096 rounds. -/
def State.runTooLong (s : State) (b j : Nat) : Bool :=
  (List.range 21).any fun i => (entryQuanta (s.ttByte b (s.ttElem b j)) i).any fun q =>
    q.cont && q.hi == 1000 && decide (4096 < 1 + s.runOn b i q.owner 4097 (j + 1))

/-- Some byte that holds continuation bits is not zero in an entry of the bank. -/
def State.anyCont (s : State) (b : Nat) : Bool := s.rnd.ttEntry.any fun x =>
  x.1 / 262144 == b && [0x10, 0x14, 0x1E, 0x30, 0x31].contains (x.1 % 64) && x.2 != 0

/-- The outcome of verifying a bank: nothing, or FAULT_CAUSE and BAD_ELEMENT of the first failure (Round R68). An entry that lists no
byte reads zero and is valid; a bank with no continuation bit has no run. -/
def State.verifyFault (s : State) (b : Nat) : Option (Nat × Nat) :=
  let listed := (s.rnd.ttEntry.filter fun x => x.1 / 262144 == b).map fun x => x.1 % 262144 / 64
  match listed.find? fun e => (s.entryFault b e).isSome with
  | some e => (s.entryFault b e).map fun c => (c, e)
  | none =>
    if s.anyCont b then ((List.range 65536).find? fun j => s.runTooLong b j).map fun j => (4, j) else none

/-! ### The entry in force (Round R46, R47, R49, R51) -/

/-- The timetable, rather than the default entry, is in force. -/
def State.ttRun (s : State) : Bool := s.on ROUND_STATUS_TT_RUN

/-- The period of the timetable. -/
def State.ttLen (s : State) : Nat := s.get ⟨ROUND_SEQ_LEN, 15, 0⟩ + 1

/-- The position in the index window of the entry in force in round `n` (Round R47). -/
def State.ttPos (s : State) (n : Nat) : Nat :=
  if s.on ROUND_TT_CTRL_PHASE_MODE then (((n : Int) + toSigned 64 (s.rdN ROUND_NET_OFFSET)) % (s.ttLen : Int)).toNat
  else (n - s.rnd.epoch) % s.ttLen

/-- The active bank. -/
def State.ttBank (s : State) : Nat := s.get ROUND_STATUS_ACTIVE_BANK

/-- Byte `k` of the entry in force in round `n`; zero under the default entry. -/
def State.entryByte (s : State) (n k : Nat) : Nat :=
  if s.ttRun then s.ttByte s.ttBank (s.ttElem s.ttBank (s.get ⟨ROUND_SEQ_BASE, 15, 0⟩ + s.ttPos n)) k else 0

/-- The quanta of block `i` in round `n`: by the entry in force, where a continuation bit on the last element of the window has no
effect (Round R54), or the whole round to any owner (Round Table 2.3). -/
def State.quantaAt (s : State) (n i : Nat) : List Quantum :=
  if s.ttRun then
    let last := s.ttPos n + 1 == s.ttLen
    (entryQuanta (s.entryByte n) i).map fun q => { q with cont := q.cont && !last }
  else [⟨none, 0, 1000, false⟩]

/-- A quantum belongs to an owner. -/
def Quantum.belongs (q : Quantum) (owner : Nat) : Bool := q.owner == none || q.owner == some owner

/-- The end of the quantum or continuation run that a quantum of round `n` begins or goes on with, in ns from the start of round `n` (Round
R56, R58). -/
def State.runEnd (s : State) (i owner : Nat) : Nat → Nat → Quantum → Nat
  | 0, _, q => q.hi
  | fuel + 1, n, q =>
    if q.cont && q.hi == 1000 then
      match (s.quantaAt (n + 1) i).find? fun x => x.lo == 0 && x.belongs owner with
      | some x => 1000 + State.runEnd s i owner fuel (n + 1) x
      | none => q.hi
    else q.hi

/-- The quantum of an owner that holds round-relative time `t` of a round. -/
def State.quantumIn (s : State) (n i owner t : Nat) : Option Quantum :=
  (s.quantaAt n i).find? fun q => q.belongs owner && decide (q.lo ≤ t) && decide (t < q.hi)

/-! ### The fit check (Round R56, R57, R60, R62) -/

/-- The clock of an operating point in MHz (Power states Table 14.7). -/
def opMHz (op : Nat) : Nat := if op = 0 then 300 else if op = 1 then 600 else if op = 2 then 900 else 1100

/-- The guard G. -/
def State.fitGuard (s : State) : Nat := s.get ROUND_TT_CTRL_FIT_GUARD_NS

/-- `t + D + G ≤ q`, for a worst case of `cost` cycles at `mhz`; a worst case in ns is a cost at 1,000 MHz. -/
def fitsBy (t cost mhz guard q : Nat) : Bool := decide ((t + guard) * mhz + cost * 1000 ≤ q * mhz)

/-- The longest quantum or run that an owner holds on a block in the index window in force, in ns (Round R60). -/
def State.longest (s : State) (i owner : Nat) : Nat :=
  ((List.range (if s.ttRun then s.ttLen else 1)).map fun j =>
    ((s.quantaAt (s.round + j) i).map fun q =>
      if q.belongs owner then s.runEnd i owner 4096 (s.round + j) q - q.lo else 0).foldl max 0).foldl max 0

/-- D + G is longer than every quantum or run of the owner: the envelope completes with NO_FIT (Round R60). -/
def State.noFit (s : State) (i owner cost mhz : Nat) : Bool := !fitsBy 0 cost mhz s.fitGuard (s.longest i owner)

/-- The fit check of an express unit (Round R62): D at OP2 against EXPRESS_RES.MAX_NS. -/
def State.expressFits (s : State) (cost : Nat) : Bool := fitsBy 0 cost 900 s.fitGuard (s.get ⟨ROUND_EXPRESS_RES, 9, 0⟩)

end Sys2Proof.Machine
end

