-- ==== Sys2Proof/Machine/Mesh.lean ====
section
/-! DEFINITION. The general lanes of the mesh (Districts §7): the routers, the route of a transfer, the grants of each router output, and the bytes injected
at each class. -/

namespace Sys2Proof.Machine
open Reg

/-! ### The grid (Districts R218, Table 6.6) -/

/-- The routers to which the blocks other than districts attach. -/
def meshHost : Nat := 4
def meshRelay : Nat := 7
def meshMedia : Nat := 8
def meshFabric : Nat := 11
def meshPlant : Nat := 12

/-- The memory controller's four ports serve addresses in turn, 256 bytes each (log entry 156). -/
def memPort (a : Nat) : Nat := [1, 2, 13, 14].getD (a / 256 % 4) 1

/-- An output of a router: 0 to the next district column, 1 to the one before, 2 to the next district row, 3 to the one before, 4 to the blocks attached. -/
def meshOut (router port : Nat) : Nat := 5 * router + port

/-- The routers from one place on a line to another, the last one left out, and whether the places rise. -/
def lineTo (a b : Nat) : List Nat := if a ≤ b then (List.range (b - a)).map (a + ·) else (List.range (a - b)).map (a - ·)

/-- The outputs that a transfer takes from one router to another: along its district column first, then along the district row (R218). -/
def meshRoute (src dst : Nat) : List Nat :=
  let c := src % 4
  let r := dst / 4
  (lineTo (src / 4) r).map (fun y => meshOut (4 * y + c) (if src / 4 ≤ r then 2 else 3)) ++
    (lineTo c (dst % 4)).map (fun x => meshOut (4 * r + x) (if c ≤ dst % 4 then 0 else 1)) ++ [meshOut dst 4]

/-! ### Grants (Districts R218, R219) -/

/-- Grants of 64 bytes that an output makes in a round: one in each cycle at 1.5 GHz. -/
def meshGrants : Nat := 1500

/-- The class that an output grants next: the highest that waits, unless as many lower classes wait without a grant in the present eight as the eight has
grants left. -/
def MeshOut.pick (m : MeshOut) : Option Nat :=
  let waits := (List.range 4).filter fun k => m.queue.any fun w => w.cls == k
  match waits with
  | [] => none
  | top :: lower =>
    match lower.filter fun k => !m.eight.contains k with
    | [] => some top
    | k :: t => if 8 - m.eight.length ≤ (k :: t).length then some k else some top

/-- The grants of the present eight after one more. -/
def nextEight (l : List Nat) (k : Nat) : List Nat := if 7 ≤ l.length then [] else l ++ [k]

/-- One grant to the oldest transfer of a class. -/
def grantFirst (k : Nat) : List MeshWait → List MeshWait
  | [] => []
  | w :: t => if w.cls = k then (if w.grants ≤ 1 then t else { w with grants := w.grants - 1 } :: t) else w :: grantFirst k t

/-- Up to `n` grants of an output. -/
def MeshOut.serve (m : MeshOut) : Nat → MeshOut
  | 0 => m
  | n + 1 => match m.pick with
    | none => m
    | some k => MeshOut.serve { used := m.used + 1, eight := nextEight m.eight k, queue := grantFirst k m.queue } n

/-- A transfer reaches an output: it is granted at once while nothing waits there and the round has grants left, and otherwise in its turn. -/
def MeshOut.send (m : MeshOut) (w : MeshWait) : MeshOut :=
  if m.queue.isEmpty && decide (m.used + w.grants ≤ meshGrants) then
    let n := m.eight.length + w.grants
    { m with used := m.used + w.grants, eight := if n < 8 then m.eight ++ List.replicate w.grants w.cls else List.replicate (n % 8) w.cls }
  else MeshOut.serve { m with queue := m.queue ++ [w] } (meshGrants - m.used)

/-- Bytes injected into the general lanes at a class (Districts R226). -/
def State.meshBytes (s : State) (k n : Nat) : State := s.add64 (GLOBAL_MESH_CLASS_BYTES k) n

/-- A transfer of `n` bytes between two routers at a class; `who` is the envelope that it is made for. -/
def State.meshMove (s : State) (k : Nat) (who : Option (Nat × Nat)) (src dst n : Nat) : State :=
  (s.meshBytes k n).setFloor fun f =>
    { f with mesh := (meshRoute src dst).foldl (fun m o => SMap.set (fun _ => {}) m o ((SMap.get (fun _ => {}) m o).send ⟨k, who, (n + 63) / 64⟩)) f.mesh }

/-- Transfers of an envelope wait at some router output. -/
def State.meshWaits (s : State) (r seq : Nat) : Bool := s.floor.mesh.any fun o => o.2.queue.any fun w => w.who == some (r, seq)

/-- A round begins: every output has its grants again. -/
def State.meshEntry (s : State) : State :=
  s.setFloor fun f => { f with mesh := f.mesh.filterMap fun o =>
    let m := MeshOut.serve { o.2 with used := 0 } meshGrants
    if m == {} then none else some (o.1, m) }

/-- The transfers of an envelope that wait are dropped. -/
def State.meshForget (s : State) (r seq : Nat) : State :=
  s.setFloor fun f => { f with mesh := f.mesh.map fun o => (o.1, { o.2 with queue := o.2.queue.filter fun w => w.who != some (r, seq) }) }

end Sys2Proof.Machine
end

