-- ==== Sys2Proof/Machine/Traffic.lean ====
section
/-! DEFINITION. The DRAM traffic of each service class (Round R61; Memory R404 to R407): budgets, regulators, the capacity of a round, and the transfers
whose bursts wait for them. -/

namespace Sys2Proof.Machine
open Reg

/-! ### Budgets and regulators -/

/-- The budget of class `k`, 1 to 3, in the entry in force. -/
def State.memBudget (s : State) (k : Nat) : Nat := s.entryByte s.round (6 + 2 * k) + 256 * s.entryByte s.round (7 + 2 * k)

/-- Units of class `k` used in the round. -/
def State.memUsed (s : State) (k : Nat) : Nat := s.memc.used.getD (k - 1) 0

/-- The DDR5 terms of R405 count: from TRAINED until the boundary after the channel has left service (Memory R421). -/
def State.dxCounts (s : State) : Bool := s.dxFitted || s.memc.dxHeld

/-- The deliverable capacity C of the round (Memory R405). -/
def State.memCapacity (s : State) : Nat :=
  1920 + (if s.dxCounts then 600 else 0) - 25 * s.memc.lpSets - (if s.dxCounts then 35 * s.memc.dxSets else 0) - 120 * s.memc.trains - s.memc.express

/-- The units that first, second and bulk have used in the round. -/
def State.memTotal (s : State) : Nat := s.memc.used.foldl (· + ·) 0

/-- Class `k` has a unit of its budget left. -/
def State.memLeft (s : State) (k : Nat) : Bool := decide (s.memUsed k < s.memBudget k)

/-- The round's units are below C. -/
def State.memRoom (s : State) : Bool := decide (s.memTotal < s.memCapacity)

/-- The budget that a promoted request of class `k` is charged to: its own, else bulk, second, first (Memory R402). -/
def State.memPays (s : State) (k : Nat) : Option Nat := [k, 3, 2, 1].find? s.memLeft

/-- The regulator of class `k` lets no unpromoted request issue (Memory R407). -/
def State.regulated (s : State) (k : Nat) : Bool := s.on (MEMCTL_CLASS_RATE_RATE k) && decide (s.memc.balance.getD k 0 < 1)

/-- Express units that may issue in a round (Memory R406). -/
def State.expressUnits (s : State) : Nat := max 1 (s.cfg MEMCTL_EXPRESS_UNITS_UNITS)

/-- An express request may issue at round-relative time `t` (Memory R406). -/
def State.expressMayAt (s : State) (t : Nat) : Bool :=
  decide (s.memc.express < s.expressUnits) && !s.regulated 0 &&
    (!s.ttRun || (decide (4 * s.entryByte s.round 4 ≤ t) && decide (t < 4 * (s.entryByte s.round 4 + s.entryByte s.round 5))))

/-- An express request may issue now. -/
def State.expressMay (s : State) : Bool := s.expressMayAt s.rnd.ns

/-- Units issue: charged to the budget of class `pays`, to the regulator of class `k`, and counted in CLASS_BYTES of class `k`. -/
def State.memSpend (s : State) (pays k units bytes : Nat) : State :=
  (s.setMemc fun m => { m with
    used := if pays = 0 then m.used else m.used.modify (pays - 1) (· + units)
    express := if pays = 0 then m.express + units else m.express
    balance := m.balance.modify k (· - units) }).add64 (MEMCTL_CLASS_BYTES k) bytes

/-! ### Transfers -/

/-- The bursts of an access: the 64-byte lines that `[a, a + n)` meets (Memory R399). -/
def burstsOf (a n : Nat) : Nat := if n = 0 then 0 else (a + n - 1) / 64 - a / 64 + 1

/-- An address of the DRAM ranges of Memory Table 12.3. -/
def inDram (a : Nat) : Bool := decide (a < 0x2000000000)

/-- The units of class `k` that may issue now, if there is a limit: express units in a round that has a window, the budget in force and the capacity,
and the regulator. -/
def State.memQuota (s : State) (k : Nat) : Option Nat :=
  let room := if k = 0 then some (if s.ttRun && s.entryByte s.round 5 == 0 then 0 else s.expressUnits - s.memc.express)
    else if s.ttRun then some (min (s.memBudget k - s.memUsed k) (s.memCapacity - s.memTotal)) else none
  let rate := if s.on (MEMCTL_CLASS_RATE_RATE k) then some (s.memc.balance.getD k 0).toNat else none
  match room, rate with
  | some a, some b => some (min a b)
  | some a, none => some a
  | none, b => b

/-- The bursts of a transfer that may issue now issue; what is left of it waits. -/
def State.serveMove (s : State) (m : MemMove) : State × Option MemMove :=
  let u := burstsOf m.a m.len
  match s.memQuota m.cls with
  | none => (s.memSpend m.cls m.cls u m.len, none)
  | some q =>
    if u ≤ q then (s.memSpend m.cls m.cls u m.len, none)
    else if q = 0 then (s, some m)
    else
      let n := (m.a / 64 + q) * 64 - m.a
      (s.memSpend m.cls m.cls q n, some { m with a := m.a + n, len := m.len - n })

/-- Transfers of class `k` are served in the order in which they were asked. -/
def State.serveClass (s : State) (k : Nat) : List MemMove → State × List MemMove
  | [] => (s, [])
  | m :: t =>
    if m.cls = k then
      let x := s.serveMove m
      let y := State.serveClass x.1 k t
      (y.1, x.2.toList ++ y.2)
    else
      let y := State.serveClass s k t
      (y.1, m :: y.2)

/-- Serve the transfers that wait: express, then first, second and bulk (Memory R405, R406). -/
def State.serveMoves (s : State) : State := s.each [0, 1, 2, 3] fun s k =>
  let x := s.serveClass k s.memc.moves
  x.1.setMemc fun m => { m with moves := x.2 }

/-- Traffic of a class: the bursts of a read or a write of DRAM. `who` is the envelope that it is made for. -/
def State.traffic (s : State) (k : Nat) (who : Option (Nat × Nat)) (a n : Nat) : State :=
  if inDram a && n != 0 then (s.setMemc fun m => { m with moves := m.moves ++ [⟨who, k, a, n⟩] }).serveMoves else s

/-- Bursts of an envelope wait for the budget of its class, or transfers of its own for a router output. -/
def State.memWaits (s : State) (r seq : Nat) : Bool := (s.memc.moves.any fun m => m.who == some (r, seq)) || s.meshWaits r seq

/-- The bursts of an envelope that wait are dropped, and what it has read as a RUN that waits: it has been halted (Envelopes R119). -/
def State.memForget (s : State) (r seq : Nat) : State :=
  ((s.setMemc fun m => { m with moves := m.moves.filter fun x => x.who != some (r, seq) }).meshForget r seq).setFloor fun f =>
    { f with waiting := f.waiting.filter fun w => !(w.ring == r && w.seq == seq) }

/-- The service class of a ring, 0 express, 1 first, 2 second, 3 bulk: that of all DRAM traffic of its work (Part R32, Envelopes R86, Memory Table
12.5). -/
def State.ringClass (s : State) (r : Nat) : Nat := s.get (RINGS_CFG_CLASS r)

/-- Traffic of an envelope of a ring. -/
def State.ringTraffic (s : State) (r seq a n : Nat) : State := s.traffic (s.ringClass r) (some (r, seq)) a n

/-- Traffic of a block at a mesh router: a read of DRAM comes from the memory controller over the general lanes, and a write goes there. -/
def State.portRead (s : State) (k : Nat) (who : Option (Nat × Nat)) (router a n : Nat) : State :=
  if inDram a && n != 0 then (s.traffic k who a n).meshMove k who (memPort a) router n else s
def State.portWrite (s : State) (k : Nat) (who : Option (Nat × Nat)) (router a n : Nat) : State :=
  if inDram a && n != 0 then (s.traffic k who a n).meshMove k who router (memPort a) n else s

/-- Traffic of the device's own at bulk class (Memory Table 12.5). -/
def State.bulkTraffic (s : State) (a n : Nat) : State := s.traffic 3 none a n

end Sys2Proof.Machine
end

