-- ==== Sys2Proof/Machine/Ledger.lean ====
section
/-! DEFINITION. The firmware log ring (Firmware §4). -/

namespace Sys2Proof.Machine
open Reg

/-- An entry for the ledger (Firmware Table 17.5), but for its round, time, number and phase. -/
structure LedgerEntry where
  source : Nat
  type : Nat
  id : Nat
  level : Nat := 0
  a0 : Nat := 0
  a1 : Nat := 0
  a2 : Nat := 0

/-- S of the ledger: 2^LOG2_ENTRIES, where values outside 8 to 20 read as 12 (Firmware §7). -/
def State.ledgerSize (s : State) : Nat :=
  let l := s.cfg FIRMWARE_LEDGER_CFG_LOG2_ENTRIES
  2 ^ (if decide (8 ≤ l) && decide (l ≤ 20) then l else 12)

/-- The free entries of the ledger. -/
def State.ledgerFree (s : State) : Nat :=
  s.ledgerSize - (s.rdN FIRMWARE_LEDGER_HEAD + 2 ^ 32 - s.rdN FIRMWARE_LEDGER_TAIL) % 2 ^ 32

/-- The bytes of entry number `j` (Firmware R575). -/
def State.ledgerBytes (s : State) (e : LedgerEntry) (j : Nat) : Bytes :=
  let phase := 1 - (j / s.ledgerSize) % 2
  leBytes 8 s.round ++ leBytes 4 j ++ leBytes 2 (s.rnd.ns / 10 * 10) ++ leBytes 1 e.source ++
    leBytes 1 (phase * 128 + e.type) ++ leBytes 2 e.id ++ leBytes 1 e.level ++ leBytes 1 0 ++
    leBytes 4 e.a0 ++ leBytes 4 e.a1 ++ leBytes 4 e.a2

/-- The device clears LEDGER_CFG.EN: the ledger stops at once. -/
def State.ledgerOff (s : State) : State := s.clearNow FIRMWARE_LEDGER_CFG_EN

/-- Write one entry at LEDGER_HEAD; a write that fails clears EN and reports LEDGER_FAULT (Firmware R578). -/
def State.ledgerPut (s : State) (e : LedgerEntry) : State :=
  let j := s.rdN FIRMWARE_LEDGER_HEAD
  let a := s.cfg FIRMWARE_LEDGER_BASE_ADDR * 4096 + 32 * (j % s.ledgerSize) + (if s.cfgOn FIRMWARE_LEDGER_BASE_HOST then 2 ^ 63 else 0)
  let s := if isHostAddr a then s else s.traffic (s.cfg FIRMWARE_LEDGER_CFG_CLASS) none a 32
  match s.addrWrite (s.cfg FIRMWARE_LEDGER_CFG_FUNCTION) a (s.ledgerBytes e j) with
  | (s', none) => s'.wrN FIRMWARE_LEDGER_HEAD ((j + 1) % 2 ^ 32)
  | (s', some _) => s'.ledgerOff.report { code := Code.LEDGER_FAULT }

/-- An entry reaches the ledger (Firmware R578): discarded and not counted while EN is 0; lost when there is no room for it, and for
the lost entry that precedes the first one accepted after a loss. -/
def State.ledger (s : State) (e : LedgerEntry) : State :=
  if !s.cfgOn FIRMWARE_LEDGER_CFG_EN then s
  else if s.ledgerFree < (if s.ledgerRun = 0 then 1 else 2) then
    let s' := (s.setLedgerRun (s.ledgerRun + 1)).addSat FIRMWARE_LEDGER_LOST 1
    if s.ledgerRun = 0 then s'.report { code := Code.LEDGER_LOST } else s'
  else
    let s' := if s.ledgerRun = 0 then s
      else (s.setLedgerRun 0).ledgerPut { source := e.source, type := 2, id := 0, a0 := s.ledgerRun % 2 ^ 32 }
    if s'.cfgOn FIRMWARE_LEDGER_CFG_EN then s'.ledgerPut e else s'

/-- A stamp of the ring engine (Firmware Table 17.6, Parcels R274). -/
def State.stamp (s : State) (id a0 a1 a2 : Nat) : State :=
  s.ledger { source := 0x40, type := 1, id := id, a0 := a0, a1 := a1, a2 := a2 }

end Sys2Proof.Machine
end

