-- ==== Sys2Proof/Machine/Receipts.lean ====
section
/-! DEFINITION. Receipts (Envelopes §6): the counters that order work across rings and engines. -/

namespace Sys2Proof.Machine
open Reg

/-- The device address of receipt `i`: RECEIPT_BASE + 8 × i (Envelopes §6). -/
def State.receiptAddr (s : State) (i : Nat) : Nat := s.cfg RINGS_RECEIPT_BASE_ADDR * 0x100000 + 8 * i

/-- The value of receipt `i`. -/
def State.receipt (s : State) (i : Nat) : Nat := leNat (s.rdMem (s.receiptAddr i) 8)

/-- The function that owns the bank of receipt `i`: bank b holds indices 8,192 × b to 8,192 × b + 8,191. -/
def State.bankOwner (s : State) (i : Nat) : Nat := s.cfg (RINGS_RECEIPT_BANK_OWNER_FUNCTION (i / 8192))

/-- A function may signal receipt `i` (Envelopes R110). -/
def State.maySignal (s : State) (f i : Nat) : Bool := i / 8192 != 15 && s.bankOwner i == f

/-- The owner of a bank as an envelope's checks at fetch take it: a write of RECEIPT_BANK_OWNER counts for them once it has landed (Envelopes R121). -/
def State.landedOwner (s : State) (i : Nat) : Nat := s.get (RINGS_RECEIPT_BANK_OWNER_FUNCTION (i / 8192))

/-- An envelope of a function may signal receipt `i`, and may wait on it: rings may also wait on bank 15 (Envelopes R110). -/
def State.envSignals (s : State) (f i : Nat) : Bool := i / 8192 != 15 && s.landedOwner i == f
def State.envWaits (s : State) (f i : Nat) : Bool := i / 8192 == 15 || s.landedOwner i == f

/-- The value after a signal (Envelopes R106): add saturates at 2^64 − 1, max never decreases. -/
def signalled (old : Nat) (max? : Bool) (v : Nat) : Nat := if max? then max old v else min (old + v) (2 ^ 64 - 1)

/-- Put a signal in its place among those that reached a receipt in the same cycle: by rank, then by index, then as they were issued (Envelopes R107). -/
def sigPlace (x : SigOp) : List SigOp → List SigOp
  | [] => [x]
  | y :: t => if x.rank < y.rank || (x.rank == y.rank && decide (x.index < y.index)) then x :: y :: t else y :: sigPlace x t

/-- What signals in order make of a value, and how many of their adds saturate. -/
def sigFold (v : Nat) (l : List SigOp) : Nat × Nat :=
  l.foldl (fun a x => (signalled a.1 x.max x.value, a.2 + (if !x.max && decide (2 ^ 64 - 1 < a.1 + x.value) then 1 else 0))) (v, 0)

/-- What receipt `i` held when the present cycle began, and the signals that have reached it since. -/
def State.sigCycle (s : State) (i : Nat) : Nat × List SigOp :=
  match s.rnd.sigs.find? fun c => c.receipt == i && c.at_ == s.now with
  | some c => (c.base, c.ops)
  | none => (s.receipt i, [])

/-- Apply a signal of source (rank, index) to receipt `i` (Envelopes R106, R107). Signals of one instant apply as those of one cycle (log entry 152), so
that the receipt holds what they make of its value in the order of Table 3.10. An add that saturates sets the bank's flag and reports
RECEIPT_SATURATED. While receipts are not in force nothing is changed. -/
def State.signal (s : State) (src : Nat × Nat) (i : Nat) (max? : Bool) (v : Nat) : State :=
  if s.cfgOn RINGS_RECEIPT_BASE_EN then
    let c := s.sigCycle i
    let ops := sigPlace ⟨src.1, src.2, max?, v⟩ c.2
    let s' := s.wrMem (s.receiptAddr i) (leBytes 8 (sigFold c.1 ops).1)
    let s' := s'.setRnd fun z => { z with sigs := (z.sigs.filter fun x => x.at_ == s.now && x.receipt != i) ++ [⟨i, s.now, c.1, ops⟩] }
    if (sigFold c.1 c.2).2 < (sigFold c.1 ops).2 then
      (s'.setBit RINGS_RECEIPT_SAT (i / 8192) true).report { code := Code.RECEIPT_SATURATED, unit := i / 8192, detail := i }
    else s'
  else s

end Sys2Proof.Machine
end

