-- ==== Sys2Proof/Machine/Relay.lean ====
section
/-! DEFINITION. Sending over the relay link (Links §6, §7; Districts R222, R224). -/

namespace Sys2Proof.Machine
open Reg

/-- The module of a relay address (Districts R222). -/
def relayModule (a : Nat) : Nat := a / 0x10000000000 - 1

/-- The address at the target module. -/
def relayLocal (a : Nat) : Nat := a % 0x10000000000

/-- An address field names another module. -/
def isRelayAddr (a : Nat) : Bool := !isHostAddr a && decide (0x10000000000 ≤ a)

/-- M: values of SIZE outside 1 to 4 read as 1 (Links §9). -/
def State.relaySize (s : State) : Nat := let n := s.get RELAY_CFG_SIZE; if decide (1 ≤ n) && decide (n ≤ 4) then n else 1

/-- A module number that the link carries to (Links R630). -/
def State.relayTarget (s : State) (t : Nat) : Bool := decide (t < s.relaySize) && t != s.get RELAY_CFG_MODULE

/-- A relay address is accepted: its target (Links R630), and DRAM or a sorting cache there (Districts R222). -/
def State.relayAddrOk (s : State) (a n : Nat) : Bool :=
  let l := relayLocal a
  s.relayTarget (relayModule a) && (decide (l + n ≤ 0x2000000000) || (decide (0x8020000000 ≤ l) && decide (l + n ≤ 0x8024000000)))

/-- Every hop to a module is UP. -/
def State.relayPath (s : State) (t : Nat) : Bool := nbit (s.get RELAY_STATUS_PATH) t

/-! ### Packets (Links R632, Table 19.5) -/

/-- The octets of a packet as they are sent: a header with the most significant octet of each field first, the payload in units of 16 octets, and the
CRC-32C over both. A payload that is no whole number of units is filled up with zeros (log entry 166). -/
def relayOctets (type dst src flags lseq tag addr : Nat) (payload : Bytes) : Bytes :=
  let units := (payload.length + 15) / 16
  let body := beBytes 1 type ++ beBytes 1 (dst % 16 * 16 + src % 16) ++ beBytes 1 flags ++ beBytes 1 units ++ beBytes 2 lseq ++ beBytes 2 tag ++ beBytes 8 addr ++
    (payload ++ List.replicate (16 * units - payload.length) 0)
  body ++ beBytes 4 (crc32c body)

/-- The octets of a packet that the port sends. -/
def RelayPkt.octets (p : RelayPkt) : Bytes := relayOctets p.type p.dst p.src p.flags p.lseq p.tag p.addr p.payload

/-- The CRC that ends the octets of a packet. -/
def crcOfOctets (b : Bytes) : Nat := beNat (b.drop (b.length - 4))

/-- A packet arrived with the CRC of its header and payload. -/
def relayGood (type : Nat) (p : RelayIn) : Bool := p.crc == crcOfOctets (relayOctets type p.dst p.src p.flags p.lseq p.tag p.addr p.payload)

/-! ### The channels of a hop (Links R633, R634, Table 19.6) -/

/-- The channel of a packet: 0 for writes, 1 for acknowledgements and signals. -/
def RelayPkt.chan (p : RelayPkt) : Nat := if p.type = 1 then 0 else 1

/-- Credits of a channel: there is no limit until a LACK names one (log entry 167). -/
def State.relayCredit (s : State) (ch : Nat) : Bool := match s.relay.credits with
  | none => true
  | some c => decide (0 < if ch = 0 then c.1 else c.2)

/-- A packet leaves: it takes the next LSEQ and a credit of its channel, and joins the last 64 in the replay buffer. -/
def State.relayOut (s : State) (fwd : Bool) (p : RelayPkt) : State :=
  let k := { p with lseq := s.relay.lseq }
  let buf := s.relay.replay ++ [(k, 0)]
  (s.setRelay fun r => { r with
    lseq := (r.lseq + 1) % 65536
    replay := buf.drop (buf.length - 64)
    sent := r.sent ++ [k]
    last := if p.chan = 0 then (fwd, r.last.2) else (r.last.1, fwd)
    credits := r.credits.map fun c => if p.chan = 0 then (c.1 - 1, c.2) else (c.1, c.2 - 1) }).add64 RELAY_TX_BYTES p.payload.length

/-- The packet of a channel that is sent next: forwarded and local ones in rotation, each in the order in which they came. -/
def State.relayNext (s : State) (ch : Nat) : Option (Bool × RelayPkt) :=
  let last := if ch = 0 then s.relay.last.1 else s.relay.last.2
  let mine := s.relay.wait.filter fun x => x.2.chan == ch
  if s.relayCredit ch then (mine.find? fun x => x.1 != last).or mine.head? else none

/-- Up to `n` waiting packets leave, those of channel 1 before those of channel 0. -/
def State.relayPump (s : State) : Nat → State
  | 0 => s
  | n + 1 => match (s.relayNext 1).or (s.relayNext 0) with
    | none => s
    | some x => State.relayPump ((s.setRelay fun r => { r with wait := r.wait.erase x }).relayOut x.1 x.2) n

/-- All waiting packets leave that have credits. -/
def State.relayFlush (s : State) : State := s.relayPump s.relay.wait.length

/-- Give a packet to its channel, if every hop of its path is up (Links R630). -/
def State.relayGive (s : State) (fwd : Bool) (p : RelayPkt) : State :=
  if s.relayPath p.dst then (s.setRelay fun r => { r with wait := r.wait ++ [(fwd, p)] }).relayFlush else s

/-- Send a packet of this module's own. -/
def State.relaySend (s : State) (type dst flags tag addr : Nat) (payload : Bytes) : State :=
  s.relayGive false ⟨type, dst, s.get RELAY_CFG_MODULE, flags, 0, tag, addr, payload⟩

/-- Cut a payload into the packets of a transfer, 256 octets at a time; the last carries the flags `fin`. -/
def State.relayPackets (s : State) (dst tag fin : Nat) : Nat → Nat → Bytes → State
  | 0, _, _ => s
  | fuel + 1, addr, b =>
    if b.length ≤ 256 then s.relaySend 1 dst fin tag addr b
    else State.relayPackets (s.relaySend 1 dst 0 tag addr (b.take 256)) dst tag fin fuel (addr + 256) (b.drop 256)

/-- The link goes down (Links R630). -/
def State.relayDown (s : State) : State :=
  (((s.put RELAY_STATUS_STATE 4).put RELAY_STATUS_PATH 0).setRelay fun x => { x with replay := [], wait := [] }).report { code := Code.RELAY_LINK_DOWN }

/-- Write bytes at a relay address for an envelope, with an arrival counter or none. The transfer awaits its WACK. -/
def State.relayWrite (s : State) (ring seq a : Nat) (arrive : Option Nat) (b : Bytes) : State :=
  let t := s.relay.tag
  let fin := 128 + (match arrive with | some i => 64 + i % 16 | none => 0)
  let s := s.setRelay fun r => { r with tag := (r.tag + 1) % 65536, ops := r.ops ++ [⟨t, ring, seq, s.round, false⟩] }
  s.relayPackets (relayModule a) t fin (b.length / 256 + 1) (relayLocal a) b

/-- A transfer of an envelope awaits acknowledgement. -/
def State.relayOpen (s : State) (ring seq : Nat) : Bool := s.relay.ops.any fun o => o.ring == ring && o.seq == seq

/-- Forget the transfers of an envelope. -/
def State.relayForget (s : State) (ring seq : Nat) : State :=
  s.setRelay fun r => { r with ops := r.ops.filter fun o => !(o.ring == ring && o.seq == seq) }

end Sys2Proof.Machine
end

