-- ==== Sys2Proof/Machine/Rings.lean ====
section
/-! DEFINITION. The ring engine (Envelopes §2 to §5, §8): what every envelope kind shares — checks, start, completion, return
records, interrupts, and the stopping of a ring. -/

namespace Sys2Proof.Machine
open Reg

/-! ### Ring registers -/

/-- S of a ring (Envelopes §2, CFG.LOG2_SIZE: values outside 6 to 16 read as 6). -/
def State.ringSize (s : State) (r : Nat) : Nat :=
  let l := s.get (RINGS_CFG_LOG2_SIZE r)
  2 ^ (if decide (6 ≤ l) && decide (l ≤ 16) then l else 6)

/-- The ring's owning function. -/
def State.ringFn (s : State) (r : Nat) : Nat := s.get (RINGS_CFG_FUNCTION r)

/-- The ring's state: 0 DISABLED, 1 RUNNING, 2 STOPPING, 3 STOPPED (Envelopes Table 3.9). -/
def State.ringState (s : State) (r : Nat) : Nat := s.get (RINGS_STATUS_STATE r)

/-- A difference of two ring counts, modulo 2^32 (Envelopes R78). -/
def cdiff (a b : Nat) : Nat := (a % 2 ^ 32 + 2 ^ 32 - b % 2 ^ 32) % 2 ^ 32

/-- The records written that software has not consumed. -/
def State.unconsumed (s : State) (r : Nat) : Nat := cdiff (s.rdN (RINGS_RET_TAIL r)) (s.rdN (RINGS_RET_HEAD r))

/-- An envelope that completes without a record: SUPPRESS, and OK (Envelopes R88). -/
def Flight.silent (f : Flight) : Bool := f.stage == .done && Env.suppress f.env && f.status == 0

/-- Return ring entries reserved by envelopes whose records are not yet written; an envelope that completes without a record has given its own back
(Envelopes R96). -/
def State.reservedOf (s : State) (r : Nat) : Nat := ((s.ring r).flights.filter fun f => f.reserved && !f.silent).length

/-- An entry of the return ring is free: reserved and unconsumed entries are below S (Envelopes R96). -/
def State.retRoom (s : State) (r : Nat) : Bool := decide (s.reservedOf r + s.unconsumed r < s.ringSize r)

/-- The rings whose CTRL.ENABLE is 1. -/
def State.anyRingEnabled (s : State) : Bool :=
  s.regs.any fun e => decide (0x30000 ≤ e.1) && decide (e.1 < 0x70000) && e.1 % 64 == 0x14 && e.2.getLsbD 0

/-- The rings that have left DISABLED, found through their STATUS registers. -/
def State.liveRings (s : State) : List Nat :=
  (s.regs.filter fun e => decide (0x30000 ≤ e.1) && decide (e.1 < 0x70000) && e.1 % 64 == 0x18 && Word.bits e.2 1 0 != 0).map
    fun e => (e.1 - 0x30000) / 64

/-- The rings that name a function as owner in CFG, other than those that still hold CFG's reset value. -/
def State.ringsOwned (s : State) (f : Nat) : List Nat :=
  (s.regs.filter fun e => decide (0x30000 ≤ e.1) && decide (e.1 < 0x70000) && e.1 % 64 == 0x10 && Word.bits e.2 20 16 == f).map
    fun e => (e.1 - 0x30000) / 64

/-! ### The fetched envelopes of a ring -/

/-- Change the envelope of a given count. -/
def onSeq (seq : Nat) (g : Flight → Flight) (l : List Flight) : List Flight := l.map fun f => if f.seq = seq then g f else f

/-- Change an envelope of a ring. -/
def State.setFlight (s : State) (r seq : Nat) (g : Flight → Flight) : State :=
  s.setRing r { s.ring r with flights := onSeq seq g (s.ring r).flights }

/-- The envelope of a given count, while it is fetched and not yet recorded. -/
def State.flight (s : State) (r seq : Nat) : Option Flight := (s.ring r).flights.find? fun f => f.seq == seq

/-- The started envelope of a given count and kind. -/
def State.startedOf (s : State) (r seq kind : Nat) : Option Flight :=
  (s.ring r).flights.find? fun f => f.seq == seq && f.stage == .started && Env.kind f.env == kind

/-! ### Return records (Envelopes §5) -/

/-- The bytes of a return record (Envelopes Table 3.6) for return count `j` of a ring of size `n`. -/
def recordBytes (seq user status kind : Nat) (unsol : Bool) (rounds completion energy result j n : Nat) : Bytes :=
  let phase := 1 - (j / n) % 2
  leBytes 4 seq ++ leBytes 4 user ++ leBytes 2 status ++ leBytes 1 kind ++ leBytes 1 ((if unsol then 2 else 0) + phase) ++
    leBytes 4 (min rounds 0xFFFFFFFF) ++ leBytes 8 completion ++ leBytes 4 (min energy 0xFFFFFFFF) ++ leBytes 4 result

/-- The address of return ring entry `j mod S` (Envelopes R78, R89). -/
def State.retAddr (s : State) (r j : Nat) : Nat :=
  s.get (RINGS_RET_BASE_ADDR r) * 4096 + 32 * (j % s.ringSize r) + (if s.on (RINGS_RET_BASE_HOST r) then 2 ^ 63 else 0)

/-- Count a record towards the ring's interrupt and raise it at IRQ.COUNT records (Envelopes R104). -/
def State.countIrq (s : State) (r : Nat) : State :=
  let d := s.ring r
  let n := d.irqPend + 1
  if max (s.cfg (RINGS_IRQ_COUNT r)) 1 ≤ n then
    (s.setRing r { d with irqPend := 0, irqSince := none }).irqTo (s.ringFn r) (s.cfg (RINGS_IRQ_VECTOR r)) 0x03
  else s.setRing r { d with irqPend := n, irqSince := some (d.irqSince.getD s.round) }

/-- Write a record at RET_TAIL through `mk`, which makes its bytes from the return count. -/
def State.putRecord (s : State) (r : Nat) (mk : Nat → Bytes) (irq : Bool) : State :=
  let j := s.rdN (RINGS_RET_TAIL r)
  let s := ((s.addrWrite (s.ringFn r) (s.retAddr r j) (mk j)).1).traffic (s.ringClass r) none (s.retAddr r j) 32
  let s := s.wrN (RINGS_RET_TAIL r) ((j + 1) % 2 ^ 32)
  if irq then s.countIrq r else s

/-- The record of a completed envelope. -/
def State.flightRecord (s : State) (r : Nat) (f : Flight) : State :=
  s.putRecord r (fun j => recordBytes f.seq (Env.user f.env) f.status (Env.kind f.env) false (f.doneRound - f.startRound + 1) f.doneRound
    (f.energy / 1000) f.result j (s.ringSize r)) (Env.irq f.env)

/-- Write the records of the completed envelopes at the front, in submission order (Envelopes R95); a SUPPRESS envelope that
completed with OK writes none (R88); a record that holds no reservation waits for a free entry. -/
def State.flushFlights (s : State) (r : Nat) : List Flight → State
  | [] => s
  | f :: t =>
    if f.stage = .done then
      if f.silent then
        State.flushFlights (s.setRing r { s.ring r with flights := t }) r t
      else if f.reserved || s.retRoom r then
        State.flushFlights ((s.setRing r { s.ring r with flights := t }).flightRecord r f) r t
      else s
    else s

/-- Write unsolicited records while entries are free (Envelopes R103). -/
def State.flushUnsol (s : State) (r : Nat) : List Unsol → State
  | [] => s
  | u :: t =>
    if s.retRoom r then
      let s' := s.setRing r { s.ring r with unsol := t }
      State.flushUnsol (s'.putRecord r (fun j => recordBytes (s.rdN (RINGS_SUB_HEAD r)) 0 u.status u.kind true 1 u.round 0 u.result j
        (s.ringSize r)) true) r t
    else s

/-- Write every record that may be written now; RET_FULL clears once an entry is free (Envelopes R96). -/
def State.flush (s : State) (r : Nat) : State :=
  let s := s.flushFlights r (s.ring r).flights
  let s := s.flushUnsol r (s.ring r).unsol
  if s.on (RINGS_STATUS_RET_FULL r) && s.retRoom r then s.putB (RINGS_STATUS_RET_FULL r) false else s

/-- An unsolicited record for a ring: up to eight wait for space, and a ninth is lost (Envelopes R103). -/
def State.unsolicited (s : State) (r : Nat) (u : Unsol) : State :=
  let d := s.ring r
  if d.unsol.length < 8 then (s.setRing r { d with unsol := d.unsol ++ [u] }).flush r
  else (s.putB (RINGS_STATUS_UNSOL_LOST r) true).report { code := Code.RING_UNSOL_LOST, ring := some r }

/-! ### Stopping (Envelopes R97, R118, R119) -/

/-- The sessions that a ring opened close (Serving R297). -/
def State.closeSessions (s : State) (r : Nat) : State :=
  s.setServe fun z => { z with sessions := s.serve.sessions.map fun x => if x.ring = r then { x with closing := true } else x }

/-- Enter DISABLED: all four counts 0, the armed break removed (Envelopes R119, Parcels R276), and the sessions that it opened close. -/
def State.ringOff (s : State) (r : Nat) : State :=
  let s := s.closeSessions r
  let s := ((s.put (RINGS_STATUS_STATE r) 0).putB (RINGS_STATUS_RET_FULL r) false).wrN (RINGS_CTRL r) 0
  let s := ((s.wrN (RINGS_SUB_TAIL r) 0).wrN (RINGS_SUB_HEAD r) 0).wrN (RINGS_RET_TAIL r) 0
  (s.wrN (RINGS_RET_HEAD r) 0).setRing r {}

/-- STOPPING ends when nothing runs (Envelopes Table 3.9); STOP and ABORT then clear. A ring that a function-level reset stopped is
then disabled (R117). -/
def State.ringSettle (s : State) (r : Nat) : State :=
  if s.ringState r = 2 && !((s.ring r).flights.any fun f => f.stage == .started || f.stage == .ended) then
    let s := ((s.put (RINGS_STATUS_STATE r) 3).putB (RINGS_CTRL_STOP r) false).putB (RINGS_CTRL_ABORT r) false
    if (s.ring r).disabling then s.ringOff r else s
  else s

/-- An envelope that completes with CANCELLED before it has started: its start round is its completion round (Envelopes R100). -/
def cancelFetched (now : Nat) (f : Flight) : Flight :=
  if f.stage = .fetched then { f with stage := .done, status := 9, startRound := now, doneRound := now } else f

/-- The completion stamp of an envelope of a ring, if it is postmarked (Parcels R274). -/
def State.endStamp (s : State) (r : Nat) (f : Flight) (status : Nat) : State :=
  if Env.postmark f.env != 0 && s.cfgOn FLOOR_DEBUG_CTRL_STAMP_POSTMARKS then
    s.stamp 2 (r + Env.kind f.env * 65536) f.seq (Env.postmark f.env + status * 65536) else s

/-- A running ring enters STOPPING: fetched envelopes that have not started complete with CANCELLED (Envelopes R97). -/
def State.ringStopping (s : State) (r : Nat) : State :=
  if s.ringState r = 1 then
    let gone := (s.ring r).flights.filter fun f => f.stage == .fetched
    let n := gone.length
    let s := s.setRing r { s.ring r with flights := (s.ring r).flights.map (cancelFetched s.round) }
    let s := s.each gone fun s f => s.endStamp r f 9
    let s := ((s.put (RINGS_STATUS_STATE r) 2).add64 (RINGS_DONE_COUNT r) n).flush r
    s.ringSettle r
  else s

/-! ### Completion (Envelopes R92, R94, R97) -/

/-- An envelope completes: its header signal if OK, its stamps (Parcels R274), its record in submission order, and the stop of the
ring if it failed without CONT_ON_FAIL. CANCELLED is not a failure of the envelope. -/
def State.complete (s : State) (r seq status result : Nat) : State :=
  match s.flight r seq with
  | none => s
  | some f =>
    if f.stage = .done then s else
    let s := if status = 0 && Env.sigEn f.env then s.signal (1, r) (Env.sigIndex f.env) (Env.sigMax f.env) (Env.sigValue f.env) else s
    let s := s.endStamp r f status
    let s := s.setFlight r seq fun f => { f with stage := .done, status := status, result := result, doneRound := s.round }
    let s := s.add64 (RINGS_DONE_COUNT r) 1
    let fails := status != 0 && status != 9
    let s := if fails then s.put (RINGS_STATUS_LAST_FAIL r) status else s
    let s := s.flush r
    let s := if fails && !Env.contOnFail f.env then s.ringStopping r else s
    s.ringSettle r

/-- All the effects of a started envelope have taken place: its status and result are known, and ENVELOPE_COMPLETE completes it. -/
def State.finish (s : State) (r seq status result : Nat) : State :=
  s.setFlight r seq fun f => if f.stage = .started then { f with stage := .ended, status := status, result := result } else f

/-- An envelope completes at once, or, while bursts of its own wait for the budget of its class, once they have issued. -/
def State.conclude (s : State) (r seq status result : Nat) : State :=
  if s.memWaits r seq then s.finish r seq status result else s.complete r seq status result

/-- Stop a ring: STOP lets started envelopes complete; both STOP and ABORT cancel a pending WAIT and every fetched envelope (Envelopes
R119). -/
def State.cancelWaits (s : State) (r : Nat) : State :=
  s.each ((s.ring r).flights.filter fun f => f.stage == .started && Env.kind f.env == 3) fun s f => s.complete r f.seq 9 0

/-- The effect of CTRL.STOP. -/
def State.ringStop (s : State) (r : Nat) : State :=
  if s.ringState r = 1 || s.ringState r = 2 then ((s.putB (RINGS_CTRL_STOP r) true).ringStopping r).cancelWaits r else s

/-! ### Checks made at fetch (Envelopes R89 to R91, R110, R121; Links R611) -/

/-- The fields of a kind's body that are not reserved: offset and size (Envelopes Table 3.5). -/
def bodyFields : Nat → List (Nat × Nat)
  | 1 => [(0x18, 8), (0x20, 8), (0x28, 2), (0x2A, 2), (0x2C, 4), (0x30, 4)]
  | 2 => [(0x18, 8), (0x20, 8), (0x28, 4), (0x2C, 2), (0x30, 4), (0x34, 4), (0x38, 4)]
  | 3 => [(0x18, 4), (0x1C, 4), (0x20, 8)]
  | 4 => [(0x18, 4), (0x1C, 4), (0x20, 8)]
  | 5 => [(0x18, 1), (0x19, 1), (0x20, 8), (0x28, 4)]
  | 6 => [(0x18, 8), (0x20, 4), (0x24, 1), (0x26, 2)]
  | 7 => [(0x18, 2), (0x1A, 1), (0x1C, 2), (0x20, 4)]
  | 8 => [(0x18, 4), (0x1C, 2), (0x20, 8)]
  | 9 => [(0x18, 8), (0x20, 4), (0x24, 1), (0x25, 1)]
  | 10 => [(0x18, 4), (0x1C, 1), (0x20, 8), (0x28, 4)]
  | 11 => [(0x18, 8), (0x20, 4), (0x24, 1)]
  | 12 => [(0x18, 4)]
  | _ => []

/-- Every reserved byte of the body is zero. -/
def bodyClean (e : Bytes) : Bool :=
  (List.range 40).all fun i => ((bodyFields (Env.kind e)).any fun f => decide (f.1 ≤ i + 0x18) && decide (i + 0x18 < f.1 + f.2)) ||
    e.getD (i + 0x18) 0 == 0

/-- Every reserved bit of the header is zero (Envelopes Tables 3.3, 3.4). -/
def headClean (e : Bytes) : Bool := nbits (Env.flags e) 7 5 == 0 && !nbit (Env.flags e) 2 && nbits (Env.sigId e) 29 17 == 0 && fieldLE e 0xC 4 == 0

/-- Every field of the body has a value in the range given for it (Envelopes Table 3.5, Parcels Table 8.10). -/
def bodyRange (e : Bytes) : Bool :=
  match Env.kind e with
  | 1 => decide (Env.argLen e ≤ 65536)
  | 2 => decide (1 ≤ Env.len e) && decide (Env.mode e ≤ 2) && decide (1 ≤ Env.rows e) && (Env.mode e != 0 || Env.rows e == 1)
  | 3 => decide (Env.receipt e < 131072)
  | 4 => decide (Env.receipt e < 131072) && nbits (Env.sigMode e) 7 1 == 0 && nbits (Env.sigMode e) 31 11 == 0
  | 5 => decide (Env.op e ≤ 3) && decide (Env.owner e ≤ 7) && decide (Env.count e ≤ 256) &&
      (Env.op e == 1 || (Env.list e == 0 && Env.count e == 0))
  | 8 => match fieldLE e 0x18 4 with
    | 0 => true
    | 1 => fieldLE e 0x1C 2 != 0 && fieldLE e 0x20 8 == 0
    | 2 => decide (1 ≤ fieldLE e 0x20 8) && decide (fieldLE e 0x20 8 < 2 ^ 32)
    | 3 => fieldLE e 0x1C 2 == 0 && fieldLE e 0x20 8 == 0
    | _ => false
  | 9 => decide (fieldLE e 0x24 1 ≤ 19) && decide (fieldLE e 0x25 1 < 4) &&
      (decide (fieldLE e 0x24 1 < 3) || fieldLE e 0x24 1 == 19 || (fieldLE e 0x18 8 == 0 && fieldLE e 0x20 4 == 0))
  | 10 => decide (fieldLE e 0x1C 1 ≤ 4) && fieldLE e 0x18 4 != 0 && fieldLE e 0x28 4 == [64, 128, 128, 0, 64].getD (fieldLE e 0x1C 1) 0 &&
      (fieldLE e 0x1C 1 != 3 || fieldLE e 0x20 8 == 0)
  | 11 => decide (fieldLE e 0x24 1 ≤ 7)
  | 12 => decide (fieldLE e 0x18 4 ≤ 1)
  | _ => true

/-- The address fields of a body: address, bytes reached (at least the one that the field names), and the alignment that the field requires. The field
of an image that is started from the store, or of a session that closes, names no address (it is 0). A TXN's LIST and a COPY's fields are checked
where the envelope acts, in the order of Transactions R140 and R141 and Districts R210. -/
def bodyAddrs (e : Bytes) : List (Nat × Nat × Nat) :=
  match Env.kind e with
  | 1 => [(Env.parcel e, 64, 64), (Env.args e, max (Env.argLen e) 1, 64)]
  | 6 => [(fieldLE e 0x18 8, max (fieldLE e 0x20 4) 1, 1)]
  | 9 => if decide (fieldLE e 0x24 1 < 3) || fieldLE e 0x24 1 == 19 then [(fieldLE e 0x18 8, max (fieldLE e 0x20 4) 1, 1)] else []
  | 10 => if fieldLE e 0x1C 1 = 3 then [] else [(fieldLE e 0x20 8, fieldLE e 0x28 4, 1)]
  | 11 => [(fieldLE e 0x18 8, 128, 64)]
  | _ => []

/-- An address field is usable (Envelopes R89, Links R611): aligned, not a PCIe address on a host-core ring, in the window. -/
def State.addrFieldOk (s : State) (f : Nat) (x : Nat × Nat × Nat) : Bool :=
  x.1 % x.2.2 == 0 && (if isHostAddr x.1 then decide (f ≤ 16) else s.inWindow f x.1 x.2.1)

/-- The receipts an envelope names pass the bank check (Envelopes R110); a remote SIGNAL is checked at its target (R111). -/
def State.receiptsOk (s : State) (f : Nat) (e : Bytes) : Bool :=
  (!Env.sigEn e || s.envSignals f (Env.sigIndex e)) &&
    (match Env.kind e with
     | 3 => s.envWaits f (Env.receipt e)
     | 4 => Env.remote e || s.envSignals f (Env.receipt e)
     | _ => true)

/-- The status of an envelope that its checks at fetch fail, or 0. -/
def State.envCheck (s : State) (r : Nat) (e : Bytes) : Nat :=
  let f := s.ringFn r
  if 0x0C < Env.kind e then 2
  else if !(headClean e && bodyClean e && bodyRange e) then 1
  else if !((bodyAddrs e).all (s.addrFieldOk f)) then 3
  else if !s.receiptsOk f e then 4
  else 0

end Sys2Proof.Machine
end

