-- ==== Sys2Proof/Machine/Floor.lean ====
section
/-! DEFINITION. The districts (Districts §1, §3, §6; Parcels §4, §8): clerks, allocations, runs, holds and held accesses. -/

namespace Sys2Proof.Machine
open Reg

/-! ### Clerks (Clerks R153) -/

def State.clerk (s : State) (c : Nat) : Clerk := SMap.get (fun _ => {}) s.floor.clerks c
def State.setClerk (s : State) (c : Nat) (k : Clerk) : State :=
  s.setFloor fun f => { f with clerks := SMap.set (fun _ => {}) f.clerks c k }

/-- The clerk of a district with a local index. -/
def clerkOf (d l : Nat) : Nat := ((d / 4) * 16 + l / 16) * 64 + (d % 4) * 16 + l % 16

/-- The clerks of a mask of local indices. -/
def clerksOf (d m : Nat) : List Nat := (onesBelow m 256).map (clerkOf d)

/-! ### Express bands (Express R360, R361) -/

def State.xchan (s : State) (c : Nat) : XChan := SMap.get (fun _ => {}) s.xp.chans c
def State.setXchan (s : State) (c : Nat) (f : XChan → XChan) : State :=
  s.setXp fun x => { x with chans := SMap.set (fun _ => {}) x.chans c (f (s.xchan c)) }

/-- The channels whose units run. -/
def State.xrunning (s : State) : List Nat := (List.range 8).filter fun c => (s.xchan c).unit.isSome

/-! ### Districts -/

/-- The express district (Express R357). -/
def State.expressDistrict (s : State) : Nat := s.get FLOOR_EXPRESS_SEL_DISTRICT

def State.dunit (s : State) (d : Nat) : Option DUnit := SMap.get (fun _ => none) s.floor.units d

/-- Begin or end the unit of a district; DIST_STATE.UNIT follows. -/
def State.setDunit (s : State) (d : Nat) (u : Option DUnit) : State :=
  (s.setFloor fun f => { f with units := SMap.set (fun _ => none) f.units d u }).putB (FLOOR_DIST_STATE_UNIT d) u.isSome

/-- The district is held (Parcels R281). -/
def State.isHeld (s : State) (d : Nat) : Bool := nbit (s.get FLOOR_DEBUG_HOLD_DISTRICT) d

/-- A district's operating point. -/
def State.distOp (s : State) (d : Nat) : Nat := s.get (FLOOR_DIST_STATE_OP d)

/-- Hold a district from the present round. -/
def State.holdDistrict (s : State) (d : Nat) : State :=
  if d = s.expressDistrict then s
  else ((s.setBit FLOOR_DEBUG_HOLD d true).putB (FLOOR_DEBUG_STATE_HELD d) true).setFloor fun f =>
    { f with holds := SMap.set (fun _ => none) f.holds d (some s.round) }

/-- What a clerk keeps when its other state is discarded: its instruction buffer, and the event bits of walk steps that have not ended (Numbers R249, Parcels
R281). -/
def Clerk.rest (k : Clerk) : Clerk := { events := k.events, written := k.written, ibuf := k.ibuf, loaded := k.loaded, pc := k.pc }

/-- A hold ends: the clerks' state is discarded and the allocation is kept (Parcels R282). -/
def State.releaseHold (s : State) (d : Nat) : State :=
  if s.isHeld d then
    let s := ((s.setBit FLOOR_DEBUG_HOLD d false).putB (FLOOR_DEBUG_STATE_HELD d) false).setFloor fun f =>
      { f with holds := SMap.set (fun _ => none) f.holds d none, clerks := f.clerks.map fun e => if clerkDistrict e.1 = d then (e.1, e.2.rest) else e }
    if s.get FLOOR_DBG_SEL_DISTRICT = d then (s.putB FLOOR_DBG_SEL_VALID false).setFloor fun f => { f with dbg := [] } else s
  else s

/-! ### Allocations (Districts R217, Parcels R261) -/

def State.allocs (s : State) (d : Nat) : List Alloc := SMap.get (fun _ => []) s.floor.allocs d

/-- Set the allocations of a district; DIST_STATE.ALLOC, SRAM_USE and the validity of its walk records follow. -/
def State.setAllocs (s : State) (d : Nat) (l : List Alloc) : State :=
  let s := s.setFloor fun f => { f with allocs := SMap.set (fun _ => []) f.allocs d l }
  let s := (s.putB (FLOOR_DIST_STATE_ALLOC d) (!l.isEmpty)).put (FLOOR_SRAM_USE_SC_UNITS d) ((l.map fun a => a.scUnits).foldl (· + ·) 0)
  s.put (FLOOR_SRAM_USE_STORE_UNITS d) ((l.map fun a => a.storeUnits).foldl (· + ·) 0)

/-- The allocation of a key on a district. -/
def State.allocOf (s : State) (d : Nat) (k : ParcelKey) : Option Alloc := (s.allocs d).find? fun a => a.key == k

/-- `[a, a + n)` lies in an allocation's ranges of a district. -/
def Alloc.has (x : Alloc) (d a n : Nat) : Bool :=
  if a < 0x8020000000 then
    let o := (a - 0x8000000000) % 0x20000
    decide (0x8000000000 ≤ a) && clerkDistrict ((a - 0x8000000000) / 0x20000) == d && decide (x.storeBase * 4096 ≤ o) &&
      decide (o + n ≤ (x.storeBase + x.storeUnits) * 4096)
  else
    decide (cacheAddr d + x.scBase * 65536 ≤ a) && decide (a + n ≤ cacheAddr d + (x.scBase + x.scUnits) * 65536)

/-- Zero the ranges of an allocation (Parcels R264, R268). -/
def State.zeroAlloc (s : State) (d : Nat) (x : Alloc) : State :=
  let gone : Nat → Bool := fun a => inSram a 1 && x.has d a 1 && !s.inReceipts a
  ((s.keepMem fun a => !gone a).putPoison (s.poison.filter fun p => !gone p)).setFloor fun f => { f with flips := f.flips.filter fun p => !gone p.1 }

/-- The clerk-local bits of a walk record, and what was written to its K, belong to no record any more (Numbers R238, R240). -/
def State.clearRecord (s : State) (d t : Nat) : State :=
  let clear : Nat → Nat := fun n => if nbit n t then n - 2 ^ t else n
  s.setFloor fun f => { f with
    clerks := f.clerks.map fun e => if clerkDistrict e.1 = d then (e.1, { e.2 with events := clear e.2.events, written := clear e.2.written }) else e
    walkK := SMap.set (fun _ => []) f.walkK (64 * d + t) [] }

/-- Free an allocation: its ranges are zeroed, its walk records are no longer valid, and it is no longer the last RUN's if it was. -/
def State.freeAlloc (s : State) (d : Nat) (k : ParcelKey) : State :=
  match s.allocOf d k with
  | none => s
  | some x =>
    let s := (s.zeroAlloc d x).setAllocs d ((s.allocs d).filter fun a => a.key != k)
    let s := s.each x.records fun s t => (s.wrN (FLOOR_WALK d t) 0).clearRecord d t
    if s.get (FLOOR_DEBUG_ALLOC_STORE_BASE d) = x.storeBase then s.putB (FLOOR_DEBUG_ALLOC_VALID d) false else s

/-! ### Sealed allocations (Parcels R269) -/

/-- An output range of an encrypted parcel's node table holds the address. -/
def Alloc.output (x : Alloc) (d a : Nat) : Bool := x.outputs.any fun o =>
  if o.1 = 0 then
    let off := (a - 0x8000000000) % 0x20000
    decide (a < 0x8020000000) && decide (x.storeBase * 4096 + o.2.1 ≤ off) && decide (off < x.storeBase * 4096 + o.2.1 + o.2.2)
  else
    o.1 == 1 && decide (cacheAddr d + x.scBase * 65536 + o.2.1 ≤ a) && decide (a < cacheAddr d + x.scBase * 65536 + o.2.1 + o.2.2)

/-- A unit of a parcel runs on some district. -/
def State.unitOf (s : State) (k : ParcelKey) : Bool :=
  s.floor.units.any fun e => match e.2 with
    | some u => s.floor.runs.any fun r => r.ring == u.ring && r.seq == u.seq && r.key == k
    | none => false

/-- An access from outside may not see or change the byte at an SRAM address: an encrypted parcel's allocation, but for its outputs while none of its units
runs. -/
def State.sealedAt (s : State) (a : Nat) : Bool :=
  match (if inSram a 1 then sramDistrict a else none) with
  | none => false
  | some d => (s.allocs d).any fun x => x.sealed && x.has d a 1 && (s.unitOf x.key || !x.output d a)

/-- Some byte of `[a, a + n)` is sealed. -/
def State.sealedAny (s : State) (a n : Nat) : Bool :=
  inSram a 1 && (s.floor.allocs.any fun e => e.2.any fun x => x.sealed) && (List.range n).any fun i => s.sealedAt (a + i)

/-- The bytes that an access from outside reads: zeros where sealed, which is reported. -/
def State.outsideRead (s : State) (a n : Nat) : State × Bytes :=
  if s.sealedAny a n then
    (s.report { code := Code.PARCEL_SEALED, detail := a }, (List.range n).map fun i => if s.sealedAt (a + i) then 0 else s.byte (a + i))
  else (s, s.rdMem a n)

/-- A write from outside: its sealed bytes are discarded, which is reported. -/
def State.outsideWrite (s : State) (a : Nat) (b : Bytes) : State :=
  if s.sealedAny a b.length then
    (s.each b.zipIdx fun t x => if s.sealedAt (a + x.2) then t else t.store (a + x.2) [x.1]).report { code := Code.PARCEL_SEALED, detail := a }
  else s.store a b

/-! ### Accesses held while a unit runs (Clerks R178, Districts R208) -/

/-- The district whose unit holds an access to an address. -/
def State.heldBy' (s : State) (a : Nat) : Option Nat :=
  match (if inSram a 1 then sramDistrict a else none) with
  | some d => if (s.dunit d).isSome then some d else none
  | none => none

/-- Answer an access from outside. -/
def State.giveAcc (s : State) (dest : AccTo) (x : MemAns) : State :=
  match dest with
  | .bar4 => s.setLinks fun l => { l with bar4 := l.bar4 ++ [x] }
  | .mem tag => s.setMemc fun m => { m with answers := m.answers ++ [(tag, x)] }
  | .fabric => s.setFab fun y => { y with mesh := y.mesh ++ [x] }

/-- The router at which the sender of an access attaches (Districts Table 6.6). -/
def AccTo.router : AccTo → Nat
  | .fabric => meshFabric
  | _ => meshHost

/-- Serve an access to on-die SRAM at a class: over the mesh, and, for a read, with its errors found. -/
def State.sramServe (s : State) (k a : Nat) (op : MemOp) (dest : AccTo) : State :=
  let d := (sramDistrict a).getD dest.router
  match op with
  | .write b => ((s.meshMove k none dest.router d b.length).outsideWrite a b).giveAcc dest .written
  | .read n =>
    let s := (s.meshMove k none d dest.router n).eccRead a n
    if s.poisoned a n then s.giveAcc dest .poison else (s.outsideRead a n).1.giveAcc dest (.data (s.outsideRead a n).2)

/-- An access from BAR4, the host cores or the fabric: at once, or held until the district's unit ends. -/
def State.sramAccess (s : State) (k a : Nat) (op : MemOp) (dest : AccTo) : State :=
  match s.heldBy' a with
  | some d => s.setFloor fun f => { f with held := f.held ++ [⟨d, a, op, dest⟩] }
  | none => s.sramServe k a op dest

/-- Serve the accesses that a district holds, at bulk class. -/
def State.serveHeld (s : State) (d : Nat) : State :=
  if (s.dunit d).isSome then s
  else
    let now := s.floor.held.filter fun h => h.d == d
    let s := s.setFloor fun f => { f with held := f.held.filter fun h => h.d != d }
    s.each now fun s h => s.sramServe 3 h.addr h.op h.dest

/-! ### Runs (Parcels §4, §8) -/

def State.runSt (s : State) (ring seq : Nat) : Option RunSt := s.floor.runs.find? fun r => r.ring == ring && r.seq == seq

/-- Change a RUN. -/
def State.setRun (s : State) (ring seq : Nat) (g : RunSt → RunSt) : State :=
  s.setFloor fun f => { f with runs := f.runs.map fun r => if r.ring = ring && r.seq = seq then g r else r }

/-- Change a RUN on one of its districts. -/
def State.setDrun (s : State) (ring seq d : Nat) (g : DRun → DRun) : State :=
  s.setRun ring seq fun r => { r with dists := r.dists.map fun x => if x.d = d then g x else x }

/-- The end of a RUN: its status and RESULT (Parcels R265, R280). -/
def RunSt.outcome (r : RunSt) : Nat × Nat :=
  match r.fail with
  | some f => f
  | none =>
    if r.dists.any fun x => x.limited then (0x810A, ((r.dists.map fun x => x.node).foldl min 0xFFFF) * 65536)
    else (0, match r.dists.head? with | some x => min x.steps 0xFFFFFFFF | none => 0)

/-- CAUSE of FLOOR.DEBUG_STATE. -/
def causeOf (status : Nat) : Nat :=
  if status = 0x8109 then 1 else if status = 0x810A then 2 else if status = 0x8106 then 3 else if status = 0x0A then 4 else 0

/-- Record the end of a RUN in a district's debug registers, and hold the district where Parcels R281 says so. -/
def State.debugEnd (s : State) (r : RunSt) (status : Nat) (x : DRun) : State :=
  let s := s.setFloor fun f => { f with lastSteps := SMap.set (fun _ => 0) f.lastSteps x.d x.steps }
  let s := (((s.put (FLOOR_DEBUG_STATE_NODE x.d) x.node).put (FLOOR_DEBUG_STATE_CAUSE x.d) (causeOf status)).putB (FLOOR_DEBUG_STATE_ENCRYPTED x.d) r.sealed)
  let s := match s.allocOf x.d r.key with
    | some a => ((s.putB (FLOOR_DEBUG_ALLOC_VALID x.d) true).put (FLOOR_DEBUG_ALLOC_SC_BASE x.d) a.scBase).put (FLOOR_DEBUG_ALLOC_STORE_BASE x.d) a.storeBase
    | none => s.putB (FLOOR_DEBUG_ALLOC_VALID x.d) false
  if status = 0x8109 || status = 0x810A || ((status = 0x8106 || status = 0x0A) && s.cfgOn FLOOR_DEBUG_CTRL_HOLD_ON_FAULT) then s.holdDistrict x.d else s

/-- Write the EVENTS binding of a RUN that ends with OK (Parcels R259). -/
def State.writeEvents (s : State) (r : RunSt) : State := match r.events with
  | none => s
  | some a => (s.addrWrite (s.ringFn r.ring) a (r.dists.foldl (fun b x => b ++ leBytes 8 x.events) [])).1

/-- DIST_STATE.WAIT_ARRIVE tells whether a step of some RUN waits on an arrival counter of the district. -/
def State.syncWaits (s : State) (d : Nat) : State :=
  s.putB (FLOOR_DIST_STATE_WAIT_ARRIVE d) (s.floor.runs.any fun r => r.dists.any fun x => x.d == d && x.waits)

/-- What a district and its clerks still hold of the steps of a RUN that ends is discarded: its ready step, its sequences, and the addresses in its clerks'
inboxes and stores on their way, unless the district is to be held (Parcels R281). -/
def State.clearSteps (s : State) (r : RunSt) (x : DRun) : State :=
  let mine : Clerk → Bool := fun k => k.run == some (r.ring, r.seq)
  s.setFloor fun f => { f with
    ready := SMap.set (fun _ => []) f.ready x.d ((SMap.get (fun _ => []) f.ready x.d).filter fun e => !(e.ring == r.ring && e.seq == r.seq))
    streams := SMap.set (fun _ => []) f.streams x.d ((SMap.get (fun _ => []) f.streams x.d).filter fun e => !(e.ring == r.ring && e.seq == r.seq))
    clerks := f.clerks.map fun e => if clerkDistrict e.1 = x.d && mine e.2 then
      (e.1, { e.2 with seqs := [], run := none, ahead := false, stage := .idle, inbox := if nbit (s.get FLOOR_DEBUG_HOLD_DISTRICT) x.d then e.2.inbox else [] }) else e }

/-- End a RUN: EVENTS on OK, the debug registers, and the envelope's status. An armed express RUN that ends other than OK is
reported, and its channels' waiting blocks are discarded (Express R362, R363). -/
def State.endRun (s : State) (r : RunSt) (status result : Nat) : State :=
  let s := if status = 0 then s.writeEvents r else s
  let s := s.each r.dists fun s x => s.debugEnd r status x
  let s := s.each r.dists fun s x => s.clearSteps r x
  let s := (s.setFloor fun f => { f with runs := f.runs.filter fun x => !(x.ring == r.ring && x.seq == r.seq) }).relayForget r.ring r.seq
  let s := s.each r.dists fun s x => s.syncWaits x.d
  let s := s.each r.bands fun s c => s.setXchan c fun x => { x with waiting := none }
  let s := if 2 ^ 32 ≤ r.seq then s.setFloor fun f => { f with passEnds := f.passEnds ++ [(r.seq, status)] } else s
  let s := if r.express && status != 0 then s.report { code := Code.EXP_RUN_ENDED, ring := some r.ring, detail := status } else s
  s.finish r.ring r.seq status result

/-- A RUN ends once every district of it has stopped, and, where it failed, once none of its units runs (Parcels R266, R280). -/
def State.runSettle (s : State) (ring seq : Nat) : State :=
  match s.runSt ring seq with
  | none => s
  | some r =>
    let busy := r.dists.any fun x => match s.dunit x.d with
      | some u => u.ring == ring && u.seq == seq
      | none => false
    if busy || r.express && r.fail.isNone || s.memWaits ring seq && r.fail.isNone then s
    else if r.fail.isSome || (r.dists.all fun x => x.stopped) && !s.relayOpen ring seq then
      s.endRun r r.outcome.1 r.outcome.2
    else s

/-- A RUN fails: its units end at their next step boundary and no later step starts (Parcels R266). The first failure counts. -/
def State.failRun (s : State) (ring seq status result : Nat) : State :=
  (s.setRun ring seq fun r => if r.fail.isSome then r else { r with fail := some (status, result) }).runSettle ring seq

/-- The unit of a district stops or ends: its clerks leave it, and held accesses are served (Clerks R178). -/
def State.closeUnit (s : State) (d : Nat) : State :=
  let s := match s.dunit d with
    | some u => s.each (clerksOf d u.clerks) fun s c => if (s.clerk c).ahead then s else s.setClerk c { s.clerk c with stage := .idle }
    | none => s
  let s := if d = s.expressDistrict then s.each s.xrunning fun s c => s.setXchan c fun x => { x with unit := none } else s
  ((s.setDunit d none).setUnit d none).serveHeld d

/-- The unit of one channel's band ends: its clerks leave it, and with the last of them the district's unit ends. -/
def State.closeBand (s : State) (d c : Nat) : State :=
  match (s.xchan c).unit with
  | none => s
  | some u =>
    let s := (s.each (clerksOf d u.clerks) fun s k => s.setClerk k { s.clerk k with stage := .idle }).setXchan c fun x => { x with unit := none }
    if s.xrunning.isEmpty then s.closeUnit d else s

/-- The step descriptor of the express unit that uses a clerk. -/
def State.bandDesc (s : State) (l : Nat) : Nat :=
  match s.xrunning.findSome? fun c => (s.xchan c).unit.filter fun u => nbit u.clerks l with
  | some u => u.prog.desc
  | none => 0

/-- A halted clerk stops its unit: the whole unit of a district, or its band's unit on the express district. -/
def State.stopUnitOf (s : State) (d l : Nat) : State :=
  if d = s.expressDistrict then
    s.each (s.xrunning.filter fun c => match (s.xchan c).unit with | some u => nbit u.clerks l | none => false) fun s c => s.closeBand d c
  else s.closeUnit d

/-- What a halt of a clerk records (Clerks R191). `poison` tells a poisoned read from an illegal operation. -/
def State.haltMark (s : State) (c : Nat) (poison : Bool) : State :=
  let d := clerkDistrict c
  let l := clerkLocal c
  let s := (s.setClerk c { s.clerk c with halt := if poison then 2 else 1 }).put (FLOOR_ARITH_EVENT_LAST_CLERK d) l
  if poison then
    ((s.put (FLOOR_ECC_STATUS_LAST_CLERK d) l).putB (FLOOR_ARITH_EVENT_POISON d) true).report { code := Code.SRAM_UNCORRECTABLE, unit := d, detail := l }
  else (s.putB (FLOOR_ARITH_EVENT_ILLEGAL d) true).report { code := Code.CLERK_ILLEGAL, unit := d, detail := l }

/-- A clerk halts (Clerks R180, R191): its status bits, its unit stopped, and its RUN failed. -/
def State.haltClerk (s : State) (c : Nat) (poison : Bool) : State :=
  let d := clerkDistrict c
  let l := clerkLocal c
  let s := s.haltMark c poison
  match s.dunit d with
  | none => s
  | some u =>
    let desc := if d = s.expressDistrict then s.bandDesc l else u.desc
    let node := match s.runSt u.ring u.seq with
      | some r => (r.steps.getD desc (0, 0, 0)).2.1
      | none => 0xFFFF
    let s := s.setDrun u.ring u.seq d fun x => { x with stopped := true }
    (s.stopUnitOf d l).failRun u.ring u.seq (if poison then 0x0A else 0x8106) (if poison then 0 else node * 65536 + d * 256 + l)

end Sys2Proof.Machine
end

