-- ==== Sys2Proof/Machine/Clerk.lean ====
section
/-! DEFINITION. The clerk and its array (Clerks §2 to §9): long words, array instructions, the vector unit, freezes and halts. Operand words are
laid out as the feeders take them: word k of a broadcast operand holds element k of every row of A, or of every column of B. -/

namespace Sys2Proof.Machine
open Reg

/-! ### Array operands (Clerks Table 5.2, R155 to R158, R163 to R166) -/

/-- Bits of an element of the A operand, and of the B operand. -/
def aBits (x : ArraySlot) : Nat :=
  match x.mode with
  | .int8 | .sb256 => 8
  | .int4 | .sb16 => if x.aInt4 then 4 else 8
  | .bf16 | .fp16 => 16
def bBits : ArrayMode → Nat
  | .int8 | .sb256 => 8
  | .int4 | .sb16 => 4
  | .bf16 | .fp16 => 16

/-- Issue cycles (Clerks Table 5.2). -/
def issueCycles : ArrayMode → Nat
  | .int8 | .sb256 => 16
  | .int4 | .sb16 => 8
  | .bf16 | .fp16 => 64

/-- Feeder words of an operand: 16, or the 31 diagonals of a stream-skewed one. -/
def feedWords (x : ArraySlot) : Nat := if x.stream then 31 else 16

/-- Element `lane` of feeder word `w` of an operand with elements of `bits` bits; 4-bit elements are packed two per byte, the lower first
(Numbers R228). -/
def feedElem (b : Bytes) (bits w lane : Nat) : Nat :=
  if bits = 4 then nbits (b.getD (8 * w + lane / 2) 0).toNat (4 * (lane % 2) + 3) (4 * (lane % 2))
  else fieldLE b (w * 2 * bits + lane * (bits / 8)) (bits / 8)

/-- A[i][k] or B[k][j] as its encoding: lane i (or j) of word k, or of diagonal i + k (or j + k). -/
def operand (x : ArraySlot) (b : Bytes) (bits lane k : Nat) : Nat := feedElem b bits (if x.stream then lane + k else k) lane

/-- The operation is one of those that Table 5.3 marks for the mode (Clerks R161), and wide mode is for MAC and MSUB in INT8 (R168). R168 does not say what an
instruction does that names wide mode elsewhere; like an unmarked operation it halts the clerk as CLERK_ILLEGAL (DESIGN CHOICE, log entry 158). -/
def arrayLegal (x : ArraySlot) : Bool :=
  (x.op == .mac || x.op == .msub || x.mode == .int8 || x.mode == .int4) &&
    (x.file != 2 || (x.mode == .int8 && (x.op == .mac || x.op == .msub)))

/-- The integer value of an A element. -/
def aValue (x : ArraySlot) (n : Nat) : Int :=
  if aBits x = 4 then toSigned 4 n else if x.mode == .int8 && x.aU8 then (n : Int) else toSigned 8 n

/-- The integer value of a B element in column j: a code, or the entry that a stamp-book index names (Clerks R157, R158). -/
def bValue (k : Clerk) (x : ArraySlot) (j n : Nat) : Int :=
  match x.mode with
  | .int4 => toSigned 4 n
  | .sb16 => sb16Value (((SMap.get (fun _ => []) k.books (match x.book with | some b => b.val | none => j)).getD n 0).toNat)
  | .sb256 => sb256Value (((SMap.get (fun _ => []) k.books 16).getD n 0).toNat)
  | _ => if x.bU8 then (n : Int) else toSigned 8 n

/-- The 16-term result of an operation on the pairs (a, b) of one cell (Clerks Table 5.3), before the accumulate shift; for MAX and MIN the
extreme of a − b. -/
def termResult (op : ArrayOp) (l : List (Int × Int)) : Int :=
  match op with
  | .mac => l.foldl (fun t p => t + p.1 * p.2) 0
  | .msub => l.foldl (fun t p => t - p.1 * p.2) 0
  | .l1 => l.foldl (fun t p => t + ((p.1 - p.2).natAbs : Int)) 0
  | .l2s => l.foldl (fun t p => t + (p.1 - p.2) * (p.1 - p.2)) 0
  | .ccount => l.foldl (fun t p => if p.2 ≤ p.1 then t + 1 else t) 0
  | .max => match l with | [] => 0 | p :: t => t.foldl (fun m q => max m (q.1 - q.2)) (p.1 - p.2)
  | .min => match l with | [] => 0 | p :: t => t.foldl (fun m q => min m (q.1 - q.2)) (p.1 - p.2)

/-- The new value of a 32-bit integer cell and whether the addition saturated (Clerks R159, R167). -/
def cellInt (x : ArraySlot) (c : Int) (l : List (Int × Int)) : Int × Bool :=
  let r := termResult x.op l
  match x.op with
  | .max => (max c r, false)
  | .min => (min c r, false)
  | _ =>
    let v := c + r * (2 ^ (8 * x.shift.val) : Nat)
    if v < -0x80000000 then (-0x80000000, true) else if 0x7FFFFFFF < v then (0x7FFFFFFF, true) else (v, false)

/-- The new value of an FP32 cell: each product in binary32, added in ascending k, rounded to nearest even (Clerks R160). -/
def cellFp (x : ArraySlot) (c : Nat) (l : List (Nat × Nat)) : Nat :=
  let f := if x.mode == .bf16 then bf16 else f16
  l.foldl (fun acc p =>
    let prod := f32.dec (f32.enc ((f.dec p.1).mul (f.dec p.2)))
    f32.enc ((f32.dec acc).add (if x.op == .msub then prod.negate else prod))) c

/-- A cell of an accumulator file, 32 bits; the wide file is ACC0 with the low halves and ACC1 with the high ones (Parcels Table 8.11). -/
def Clerk.cell (k : Clerk) (file i j : Nat) : Nat := SMap.get (fun _ => 0) k.acc (file * 256 + 16 * i + j)

/-- Set a cell. -/
def Clerk.setCell (k : Clerk) (file i j v : Nat) : Clerk := { k with acc := SMap.set (fun _ => 0) k.acc (file * 256 + 16 * i + j) v }

/-- The 256 cells of a file. -/
def cells : List (Nat × Nat) := (List.range 256).map fun n => (n / 16, n % 16)

/-- Combine the operands into one cell; `k` holds the books. -/
def arrayCell (x : ArraySlot) (k : Clerk) (a b : Bytes) (r : Clerk × Bool × Bool) (p : Nat × Nat) : Clerk × Bool × Bool :=
  let i := p.1
  let j := p.2
  let ea : Nat → Nat := operand x a (aBits x) i
  let eb : Nat → Nat := operand x b (bBits x.mode) j
  if x.mode == .bf16 || x.mode == .fp16 then
    let v := cellFp x (r.1.cell x.file.val i j) ((List.range 16).map fun t => (ea t, eb t))
    (r.1.setCell x.file.val i j v, r.2.1, r.2.2 || v == 0x7FC00000)
  else
    let l := (List.range 16).map fun t => (aValue x (ea t), bValue k x j (eb t))
    if x.file = 2 then
      let c : Int := toSigned 64 (r.1.cell 0 i j + r.1.cell 1 i j * 2 ^ 32)
      let v := ofSigned 64 (c + termResult x.op l * (2 ^ (8 * x.shift.val) : Nat))
      ((r.1.setCell 0 i j (v % 2 ^ 32)).setCell 1 i j (v / 2 ^ 32), r.2)
    else
      let v := cellInt x (toSigned 32 (r.1.cell x.file.val i j)) l
      (r.1.setCell x.file.val i j (ofSigned 32 v.1), r.2.1 || v.2, r.2.2)

/-- The whole instruction on a clerk, and whether a cell saturated or became NaN. -/
def arrayRun (x : ArraySlot) (k : Clerk) (a b : Bytes) : Clerk × Bool × Bool := cells.foldl (arrayCell x k a b) (k, false, false)

/-! ### The vector unit (Clerks §6, Numbers §1 to §5) -/

/-- The lanes of a vector register. -/
def Clerk.lanes (k : Clerk) (r : Nat) : List Nat :=
  let v := SMap.get (fun _ => []) k.vregs r
  (List.range 16).map fun i => v.getD i 0

/-- The lanes of an operand: a register, or the oldest row that the drain has delivered. -/
def Clerk.src (k : Clerk) : VecSrc → List Nat
  | .reg r => k.lanes r.val
  | .drain => match k.drained with | [] => [] | x :: _ => x.2

/-- Lane `i` of a row. -/
def lane (l : List Nat) (i : Nat) : Nat := l.getD i 0

/-- Apply a lane function to 16 lanes. -/
def perLane (f : Nat → Nat) : List Nat := (List.range 16).map f

/-- A compare's lane. -/
def truth (b : Bool) : Nat := if b then Config.cmpTrue else Config.cmpFalse

/-- The lane that an operation leaves where the spec states no result for its operands: one value for the operation and the operands (Districts R213). -/
def openLane (op a b : Nat) : Nat := Config.laneFree op a b % 2 ^ 32

/-- An integer operation on two lanes. Addition and subtraction wrap, and minimum, maximum and the compares take the lanes as signed: Table 5.4 says neither
(DESIGN CHOICE, log entry 157). A shift by the width or more has no stated result. -/
def intLane (op : IntOp) (a b : Nat) : Nat :=
  let w := 2 ^ 32
  match op with
  | .add => (a + b) % w
  | .sub => (a + w - b % w) % w
  | .mulLow => (a * b) % w
  | .shl => if b < 32 then a * 2 ^ b % w else openLane 1 a b
  | .shr => if b < 32 then a / 2 ^ b else openLane 2 a b
  | .sar => if b < 32 then ofSigned 32 (toSigned 32 a / (2 ^ b : Nat)) else openLane 3 a b
  | .and => (BitVec.ofNat 32 a &&& BitVec.ofNat 32 b).toNat
  | .or => (BitVec.ofNat 32 a ||| BitVec.ofNat 32 b).toNat
  | .xor => (BitVec.ofNat 32 a ^^^ BitVec.ofNat 32 b).toNat
  | .min => if toSigned 32 a ≤ toSigned 32 b then a else b
  | .max => if toSigned 32 a ≤ toSigned 32 b then b else a
  | .lt => truth (decide (toSigned 32 a < toSigned 32 b))
  | .le => truth (decide (toSigned 32 a ≤ toSigned 32 b))
  | .eq => truth (decide (a = b))

/-- Either value is a NaN. -/
def anyNan (a b : FV) : Bool := a == .nan || b == .nan

/-- An FP32 operation on two lanes; a minimum or maximum with a NaN has no stated result. -/
def fpLane (op : FpOp) (a b : Nat) : Nat :=
  let x := f32.dec a
  let y := f32.dec b
  match op with
  | .add => f32.enc (x.add y)
  | .mul => f32.enc (x.mul y)
  | .min => if anyNan x y then openLane 4 a b else if y.lt x then b else a
  | .max => if anyNan x y then openLane 5 a b else if x.lt y then b else a
  | .lt => truth (!anyNan x y && x.lt y)
  | .le => truth (!anyNan x y && !y.lt x)
  | .eq => truth (!anyNan x y && !x.lt y && !y.lt x)

/-- A conversion of a lane (Numbers R229). -/
def cvtLane (op : CvtOp) (a : Nat) : Nat :=
  match op with
  | .toInt32 => ofSigned 32 (f32.dec a).toInt32
  | .toBf16 => bf16.enc (f32.dec a)
  | .toFp16 => f16.enc (f32.dec a)
  | .ofInt32 => f32.enc (.fin (dyInt (toSigned 32 a)))
  | .ofBf16 => f32.enc (bf16.dec a)
  | .ofFp16 => f32.enc (f16.dec a)

/-- The index of the best of 16 lanes; ties go to the lowest. -/
def bestLane (better : Nat → Nat → Bool) : Nat := (List.range 16).foldl (fun b i => if better i b then i else b) 0

/-- The 16 lanes as one number. -/
def packLanes (l : List Nat) : Nat := l.foldl (fun n x => n * 2 ^ 32 + x % 2 ^ 32) 0

/-- An operation across 16 lanes taken as signed integers, whose sum wraps (DESIGN CHOICE, log entry 157). -/
def acrossInt (op : LaneOp) (l : List Nat) : Nat :=
  let v : Nat → Int := fun i => toSigned 32 (lane l i)
  let hi := bestLane fun i b => decide (v b < v i)
  let lo := bestLane fun i b => decide (v i < v b)
  match op with
  | .sum => ofSigned 32 ((List.range 16).foldl (fun t i => t + v i) 0)
  | .max => lane l hi
  | .min => lane l lo
  | .argmax => hi
  | .argmin => lo

/-- The same of FP32 lanes. The order in which a sum is rounded, and what a NaN among the lanes gives, are not stated. -/
def acrossFp (op : LaneOp) (l : List Nat) : Nat :=
  let v : Nat → FV := fun i => f32.dec (lane l i)
  let hi := bestLane fun i b => (v b).lt (v i)
  let lo := bestLane fun i b => (v i).lt (v b)
  if op == .sum then openLane 6 (packLanes l) 0
  else if (List.range 16).any fun i => v i == .nan then openLane 7 (packLanes l) (match op with | .max => 0 | .min => 1 | .argmax => 2 | _ => 3)
  else match op with
    | .max => lane l hi
    | .min => lane l lo
    | .argmax => hi
    | _ => lo

/-- A result in lane 0; the spec says nothing of the other lanes. -/
def oneLane (op x : Nat) : List Nat := x :: (List.range 15).map fun i => openLane op x (i + 1)

/-- Latency in cycles (Clerks Table 5.4). -/
def vecLatency : VecOp → Nat
  | .int _ _ _ | .select _ _ _ | .flags _ _ | .events => 1
  | .fp _ _ _ | .cvt _ _ | .requant _ _ _ _ _ _ => 3
  | .fma _ _ _ => 4
  | .approx .activation _ => 2
  | .approx _ _ => 6
  | .across _ _ _ => 4

/-- The operands of a vector operation. -/
def vecSrcs : VecOp → List VecSrc
  | .int _ a b => [a, b]
  | .select c a b => [c, a, b]
  | .fp _ a b => [a, b]
  | .fma a b c => [a, b, c]
  | .cvt _ a => [a]
  | .requant a m _ _ _ _ => [a, .reg m]
  | .approx _ a => [a]
  | .across _ _ a => [a]
  | .flags _ _ => []
  | .events => []

/-- The values of the used entries of a book (16: the table). -/
def Clerk.bookValues (k : Clerk) (b : Nat) : List Int :=
  let e := (SMap.get (fun _ => []) k.books b).take (SMap.get (fun _ => 0) k.used b)
  e.map fun x => if b = 16 then sb256Value x.toNat else sb16Value x.toNat

/-- A requantise can run: every multiplier usable (Numbers R231), and an ordered book where it assigns to one (Numbers R236). -/
def requantOk (k : Clerk) (m : Nat) (dst : QuantTo) : Bool :=
  ((k.lanes m).all scaleOk) &&
    (match dst with
     | .book b => decide (2 ≤ (k.bookValues b.val).length) && increasing (k.bookValues b.val)
     | .table => decide (2 ≤ (k.bookValues 16).length) && increasing (k.bookValues 16)
     | _ => true)

/-- The code of y and the event (Numbers §3, §4). -/
def quantCode (k : Clerk) (dst : QuantTo) (y : FV) : Nat × Bool :=
  match dst with
  | .int8 => let c := intCode 127 y; (ofSigned 32 c.1, c.2)
  | .int4 => let c := intCode 7 y; (ofSigned 32 c.1, c.2)
  | .book b => bookCode (k.bookValues b.val) y
  | .table => bookCode (k.bookValues 16) y

/-- The walk exponent of a record, or 0 for none (Numbers R241). -/
def State.walkK (s : State) (d : Nat) : Option (Fin 64) → Int
  | some t => toSigned 6 (s.get (FLOOR_WALK_K d t.val))
  | none => 0

/-- The parcel whose unit a clerk is in, as one number. -/
def State.clerkParcel (s : State) (k : Clerk) : Nat := match k.run with
  | some x => match s.runSt x.1 x.2 with
    | some r => (r.key.id * 2 ^ 32 + r.key.version) * 2 ^ 32 + r.key.crc
    | none => 0
  | none => 0

/-- The walk record of a requantise has been written, and its event bit is set where a lane met an event (Numbers R238). -/
def Clerk.wrote (k : Clerk) (rec : Option (Fin 64)) (hit : Bool) : Clerk := match rec with
  | some t => { k with
      written := if nbit k.written t.val then k.written else k.written + 2 ^ t.val
      events := if hit && !nbit k.events t.val then k.events + 2 ^ t.val else k.events }
  | none => k

/-- What a vector operation leaves: its lanes and the clerk with its flags and event bits. `old` is the clerk before the word. -/
def State.vecRun (s : State) (d : Nat) (old k : Clerk) (op : VecOp) : List Nat × Clerk :=
  match op with
  | .int o a b => (perLane fun i => intLane o (lane (old.src a) i) (lane (old.src b) i), k)
  | .select c a b => (perLane fun i => if lane (old.src c) i = Config.cmpFalse then lane (old.src b) i else lane (old.src a) i, k)
  | .fp o a b => (perLane fun i => fpLane o (lane (old.src a) i) (lane (old.src b) i), k)
  | .fma a b c => (perLane fun i => f32.enc (((f32.dec (lane (old.src a) i)).mul (f32.dec (lane (old.src b) i))).add (f32.dec (lane (old.src c) i))), k)
  | .cvt o a => (perLane fun i => cvtLane o (lane (old.src a) i), k)
  | .requant a m isFp dst rec inp =>
    let e := s.walkK d inp - s.walkK d rec
    let codes := (List.range 16).map fun i =>
      let v := lane (old.src a) i
      quantCode old dst (requantY (if isFp then f32.dec v else .fin (dyInt (toSigned 32 v))) (lane (old.lanes m.val) i) e)
    (codes.map fun c => c.1, k.wrote rec (codes.any fun c => c.2))
  | .approx .activation a => (perLane fun i => Config.activation (s.clerkParcel old) (lane (old.src a) i) % 2 ^ 32, k)
  | .approx o a => (perLane fun i => approxLane (match o with | .recip => 0 | .rsqrt => 1 | _ => 2) (lane (old.src a) i), k)
  | .across o fp a => (oneLane 8 (if fp then acrossFp o (old.src a) else acrossInt o (old.src a)), k)
  | .flags f clear =>
    (oneLane 9 ((if old.satOut.contains f.val then 1 else 0) + (if old.nanOut.contains f.val then 2 else 0)),
      if clear then { k with satOut := k.satOut.filter (· != f.val), nanOut := k.nanOut.filter (· != f.val) } else k)
  | .events => (old.events % 2 ^ 32 :: (oneLane 10 (old.events / 2 ^ 32)).take 15, k)

/-! ### Banks of the store (Clerks R176) -/

/-- The bank of a store address. -/
def bankOf (a : Nat) : Nat := a / 0x6000

/-- The bank that a feeder reads in issue cycle `i` of `n`: it reads `words` feeder words of `width` bytes from `a` in turn, at most one access in a cycle. -/
def feedBank (a width words n i : Nat) : Option Nat :=
  let acc := min n words
  ((List.range acc).find? fun j => decide (j * n / acc = i)).map fun j => bankOf (a + j * words / acc * width)

/-- The cycles of an array instruction whose feeders begin at `a` and `b`: in a cycle that needs two accesses to one bank, the second is served in a cycle of
its own, in which the clerk is frozen as dry. -/
def arrayPlan (n : Nat) (bankA bankB : Nat → Option Nat) : List (Bool × List Nat) :=
  (List.range n).flatMap fun i => match bankA i, bankB i with
    | some x, some y => if x = y then [(false, [x]), (true, [x])] else [(false, [x, y])]
    | x, y => [(false, x.toList ++ y.toList)]

/-- The cycle after an array instruction's last. -/
def ArrayRun.free (r : ArrayRun) : Nat := r.start + r.plan.length

/-- What the array does in a cycle. -/
def Clerk.arrayAt (k : Clerk) (cyc : Nat) : Option (Bool × List Nat) := match k.array with
  | some r => if cyc < r.start then none else r.plan[cyc - r.start]?
  | none => none

/-- The feeders read a bank in a cycle. -/
def Clerk.feederIn (k : Clerk) (cyc bank : Nat) : Bool := match k.arrayAt cyc with
  | some x => x.2.contains bank
  | none => false

/-- The cycles that an access to a bank waits for the feeders from a cycle on. -/
def Clerk.bankWait (k : Clerk) (cyc bank : Nat) : Nat := ((List.range 256).find? fun j => !k.feederIn (cyc + j) bank).getD 0

/-- The array is frozen for a cycle: nothing in it advances (Clerks R189). -/
def Clerk.hold (k : Clerk) (cyc : Nat) : Clerk := { k with
  array := k.array.map fun r => if cyc < r.start || r.free ≤ cyc then r else { r with plan := r.plan.take (cyc - r.start) ++ (false, []) :: r.plan.drop (cyc - r.start) }
  readable := k.readable.map fun x => if cyc < x.2 then (x.1, x.2 + 1) else x }

/-! ### Freezes (Clerks §9) -/

/-- The accumulator files that a file number names. -/
def filesOf (f : Fin 3) : List Nat := if f = 2 then [0, 1] else [f.val]

/-- The clerk is dry in a cycle: a feeder lacks the array slot's operand, or the inbox lacks an address. -/
def Clerk.dry (k : Clerk) (cyc : Nat) (w : LongWord) : Bool :=
  let need := (if w.load.isSome then 1 else 0) + (if w.store.isSome then 1 else 0)
  let lacks : Option Feed → Bool := fun f => match f with | some x => decide (cyc < x.ready) | none => true
  decide (k.inbox.length < need) || (w.array.isSome && (lacks k.feedA || lacks k.feedB))

/-- A vector operand is not there yet. -/
def Clerk.srcWaits (k : Clerk) (cyc : Nat) : VecSrc → Bool
  | .reg r => decide (cyc < SMap.get (fun _ => 0) k.vready r.val)
  | .drain => match k.drained with | [] => true | x :: _ => decide (cyc < x.1)

/-- A place that a move slot reads or writes is not there yet: a vector result (Clerks R174), or a file that the drain has not yet taken. -/
def Clerk.placeWaits (k : Clerk) (cyc : Nat) (dst : Bool) : MovePlace → Bool
  | .vreg r => !dst && decide (cyc < SMap.get (fun _ => 0) k.vready r.val)
  | .accRow f _ => if dst then decide (cyc < SMap.get (fun _ => 0) k.drainEnd f.val) else decide (cyc < SMap.get (fun _ => 0) k.readable f.val)
  | _ => false

/-- The clerk is frozen on the drain side: a file that the array or a move writes is not free, or an operation waits on a result. -/
def Clerk.drainWaits (k : Clerk) (cyc : Nat) (w : LongWord) : Bool :=
  (match w.array with | some x => (filesOf x.file).any fun f => decide (cyc < SMap.get (fun _ => 0) k.drainEnd f) | none => false) ||
    (match w.vector with | some v => (vecSrcs v.2).any (k.srcWaits cyc) | none => false) ||
    (match w.store with | some v => decide (cyc < SMap.get (fun _ => 0) k.vready v.1.val) | none => false) ||
    (match w.move with
     | some (.copy dst src _) => k.placeWaits cyc true dst || k.placeWaits cyc false src
     | _ => false)

/-! ### Store accesses (Districts R201, Clerks R176 to R180) -/

/-- How a slot's access ends: it goes on, or the clerk halts as CLERK_ILLEGAL or on a poisoned read. -/
inductive SlotEnd where
  | ok | illegal | poison
  deriving DecidableEq, Repr

/-- The worse of two ends. -/
def SlotEnd.join : SlotEnd → SlotEnd → SlotEnd
  | .illegal, _ => .illegal
  | _, .illegal => .illegal
  | .poison, _ => .poison
  | _, x => x

/-- A clerk may access `n` bytes of its store at an address: inside the running parcel's range (Districts R201). The rule speaks of the address; every byte
of the access is held to it (DESIGN CHOICE, log entry 159). -/
def State.inStore (s : State) (c a n : Nat) : Bool :=
  let d := clerkDistrict c
  match s.dunit d with
  | none => false
  | some u => match s.runSt u.ring u.seq with
    | none => false
    | some r => match s.allocOf d r.key with
      | none => false
      | some x => decide (x.storeBase * 4096 ≤ a) && decide (a + n ≤ (x.storeBase + x.storeUnits) * 4096)

/-- A read of the store, with the errors of its words found: how it ends, and what it gives. -/
def State.slotRead (s : State) (c a n : Nat) : State × SlotEnd × Bytes :=
  if !s.inStore c a n then (s, .illegal, [])
  else
    let s := s.eccRead (storeAddr c + a) n
    if s.poisoned (storeAddr c + a) n then (s, .poison, []) else (s, .ok, s.rdMem (storeAddr c + a) n)

/-! ### The slots of a word -/

/-- A word in issue: the machine, the clerk as it becomes, and how the word's slots end. -/
structure Issue where
  s : State
  k : Clerk
  fin : SlotEnd

/-- The diagonals of A that the array still holds for a stream operand at an address (Clerks R166): those from diagonal `n` of the operand before on, where that
operand lies in the same skewed buffer. -/
def Clerk.forwarded (k : Clerk) (x : ArraySlot) (a : Nat) : List Bytes :=
  match (if x.stream then k.streamA else none) with
  | some p => if p.width = 2 * aBits x && decide (p.addr ≤ a) && (a - p.addr) % p.width == 0 then p.diags.drop ((a - p.addr) / p.width) else []
  | none => []

/-- Cut an operand into feeder words. -/
def wordsOf (b : Bytes) (width n : Nat) : List Bytes := (List.range n).map fun i => (b.drop (width * i)).take width

/-- The array slot (Clerks R155 to R173, R192). Of a stream operand that overlaps the one before, only the new diagonals are read (R166). -/
def Issue.array (c cyc : Nat) (old : Clerk) (x : ArraySlot) (z : Issue) : Issue :=
  let d := clerkDistrict c
  match old.feedA, old.feedB with
  | some fa, some fb =>
    if !arrayLegal x then { z with fin := .illegal }
    else
      let words := feedWords x
      let wa := 2 * aBits x
      let wb := 2 * bBits x.mode
      let kept := old.forwarded x fa.addr
      let fresh := fa.addr + kept.length * wa
      let ra := z.s.slotRead c fresh ((words - kept.length) * wa)
      let rb := ra.1.slotRead c fb.addr (words * wb)
      let fin := ra.2.1.join rb.2.1
      if fin != .ok then { z with s := rb.1, fin := z.fin.join fin }
      else
        let a := kept.flatten ++ ra.2.2
        let r := arrayRun x z.k a rb.2.2
        let n := issueCycles x.mode
        let run : ArrayRun := ⟨cyc, arrayPlan n (feedBank fresh wa (words - kept.length) n) (feedBank fb.addr wb words n)⟩
        let k := { r.1 with
          array := some run
          streamA := if x.stream then some ⟨fa.addr, wa, wordsOf a wa words⟩ else none
          readable := (filesOf x.file).foldl (fun m f => SMap.set (fun _ => 0) m f (run.free + (if x.stream then 32 else 2))) r.1.readable
          sat := if r.2.1 then x.file.val :: r.1.sat.filter (· != x.file.val) else r.1.sat
          nan := if r.2.2 then x.file.val :: r.1.nan.filter (· != x.file.val) else r.1.nan }
        let s := (rb.1.add64 (FLOOR_ARRAY_CYCLES d) n).add64 (FLOOR_FREEZE_DRY d) (run.plan.filter fun p => p.1).length
        let s := if r.2.1 then s.putB (FLOOR_ARITH_EVENT_ACC_SAT d) true else s
        let s := if r.2.2 then s.putB (FLOOR_ARITH_EVENT_FP_NAN d) true else s
        ⟨s, k, z.fin⟩
  | _, _ => z

/-- A vector register takes lanes that can be read from a cycle on. -/
def Clerk.setLanes (k : Clerk) (r : Nat) (l : List Nat) (ready : Nat) : Clerk :=
  { k with vregs := SMap.set (fun _ => []) k.vregs r l, vready := SMap.set (fun _ => 0) k.vready r ready }

/-- The vector slot. Each drained row that it reads leaves the drain. -/
def Issue.vector (c cyc : Nat) (old : Clerk) (v : Fin 32 × VecOp) (z : Issue) : Issue :=
  let legal := match v.2 with
    | .requant _ m _ dst _ _ => requantOk old m.val dst
    | _ => true
  if !legal then { z with fin := .illegal }
  else
    let r := z.s.vecRun (clerkDistrict c) old z.k v.2
    let k := if (vecSrcs v.2).contains .drain then { r.2 with drained := r.2.drained.drop 1 } else r.2
    ⟨z.s, k.setLanes v.1.val r.1 (cyc + vecLatency v.2), z.fin⟩

/-- The bytes that a load slot takes. A vector register takes 64, sixteen lanes of 32 bits: the spec gives no other width (DESIGN CHOICE, log entry 159). A
feeder takes its operand's address here and its bytes as the array consumes them (R176). -/
def loadBytes : LoadTo → Nat
  | .feederA | .feederB => 1
  | .vreg _ => 64
  | .book _ _ => 16
  | .table _ => 256

/-- The used count of a book or table is in its range (Numbers R235). -/
def usedOk (table : Bool) (u : Nat) : Bool := decide (2 ≤ u) && decide (u ≤ (if table then 256 else 16))

/-- A load slot names a used count that a book can have. -/
def loadOk : LoadTo → Bool
  | .book _ u => usedOk false u
  | .table u => usedOk true u
  | _ => true

/-- The load slot: the oldest address of the inbox, also where the word has a store slot too (DESIGN CHOICE, log entry 160). The result is there 3 cycles after
issue (Clerks Table 5.5), or later by the cycles that the feeders take the bank (R176). -/
def Issue.load (c cyc : Nat) (old : Clerk) (dst : LoadTo) (z : Issue) : Issue :=
  match old.inbox with
  | [] => z
  | a :: _ =>
    let k := { z.k with inbox := z.k.inbox.drop 1 }
    let due := cyc + 3 + z.k.bankWait cyc (bankOf a)
    match dst with
    | .feederA => if z.s.inStore c a 1 then { z with k := { k with feedA := some ⟨a, due⟩ } } else { z with k := k, fin := .illegal }
    | .feederB => if z.s.inStore c a 1 then { z with k := { k with feedB := some ⟨a, due⟩ } } else { z with k := k, fin := .illegal }
    | dst =>
      let r := z.s.slotRead c a (loadBytes dst)
      if !loadOk dst then { z with k := k, fin := .illegal }
      else if r.2.1 != .ok then ⟨r.1, k, z.fin.join r.2.1⟩
      else
        let b := r.2.2
        ⟨r.1, match dst with
          | .vreg r => k.setLanes r.val ((List.range 16).map fun i => fieldLE b (4 * i) 4) due
          | .book n u => { k with bookLoads := k.bookLoads ++ [⟨due, n.val, b, u⟩] }
          | .table u => { k with bookLoads := k.bookLoads ++ [⟨due, 16, b, u⟩] }
          | _ => k, z.fin⟩

/-- The bytes that a store slot writes: 16 lanes, the low 4, 8, 16 or 32 bits of each as the slot says; the spec names no widths (DESIGN CHOICE, log
entry 159). -/
def storeData (l : List Nat) (bits : Nat) : Bytes :=
  if bits = 4 then (List.range 8).map fun i => BitVec.ofNat 8 (lane l (2 * i) % 16 + 16 * (lane l (2 * i + 1) % 16))
  else (List.range 16).foldl (fun b i => b ++ leBytes (bits / 8) (lane l i)) []

/-- The store slot: the next address of the inbox; written 2 cycles after issue, or later by the cycles that the feeders, and the load slot of the same word,
take the bank (R176). -/
def Issue.store (c cyc : Nat) (old : Clerk) (load : Bool) (v : Fin 32 × Nat) (z : Issue) : Issue :=
  match z.k.inbox with
  | [] => z
  | a :: t =>
    let b := storeData (old.lanes v.1.val) v.2
    let k := { z.k with inbox := t }
    let wait := z.k.bankWait cyc (bankOf a)
    let same := load && (match old.inbox with | x :: _ => bankOf x == bankOf a | [] => false)
    let due := cyc + 2 + (if same then wait + 1 + z.k.bankWait (cyc + wait + 1) (bankOf a) else wait)
    if !z.s.inStore c a b.length then { z with k := k, fin := .illegal }
    else { z with k := { k with stores := k.stores ++ [(due, a, b)] } }

/-- The rows that a handed file drains from a cycle on: 16, or 32 for the wide file, the low halves of a row before the high ones (Clerks R172, Numbers Table
7.1). -/
def drainRows (old : Clerk) (f : Fin 3) (cyc : Nat) : List (Nat × List Nat) :=
  if f = 2 then (List.range 32).map fun n => (cyc + n, (List.range 16).map fun j => old.cell (n % 2) (n / 2) j)
  else (List.range 16).map fun i => (cyc + i, (List.range 16).map fun j => old.cell f.val i j)

/-- Hand a file to the drain (Clerks R172, R173): it drains once its results can be read and the drain is free, and takes its sticky flags with it, which clears
them. The drain's flag of a file stays until the vector unit reads it with clear (R159). -/
def Issue.handOff (cyc : Nat) (old : Clerk) (f : Fin 3) (z : Issue) : Issue :=
  let from_ := (filesOf f).foldl (fun m x => max m (SMap.get (fun _ => 0) old.readable x)) (max cyc old.drainFree)
  let fin := from_ + (if f = 2 then 32 else 16)
  let take : List Nat → List Nat → List Nat := fun flag out => if flag.contains f.val && !out.contains f.val then f.val :: out else out
  { z with k := { z.k with
      drained := z.k.drained ++ drainRows old f from_
      drainFree := fin
      drainEnd := (filesOf f).foldl (fun m x => SMap.set (fun _ => 0) m x fin) z.k.drainEnd
      satOut := take old.sat z.k.satOut
      nanOut := take old.nan z.k.nanOut
      sat := z.k.sat.filter (· != f.val)
      nan := z.k.nan.filter (· != f.val) } }

/-- The 16 values of a place that a move slot reads. -/
def Clerk.placeRead (k : Clerk) : MovePlace → List Nat
  | .vreg r => k.lanes r.val
  | .accRow f row => (List.range 16).map fun j => k.cell f.val row.val j
  | .book b => (List.range 16).map fun i => ((SMap.get (fun _ => []) k.books b.val).getD i 0).toNat
  | .table p => (List.range 16).map fun i => ((SMap.get (fun _ => []) k.books 16).getD (16 * p.val + i) 0).toNat

/-- A place that a move slot writes takes 16 values; a book takes their low bytes. -/
def Clerk.placeWrite (k : Clerk) (cyc used : Nat) (l : List Nat) : MovePlace → Clerk
  | .vreg r => k.setLanes r.val l (cyc + 1)
  | .accRow f row => (List.range 16).foldl (fun k j => k.setCell f.val row.val j (lane l j)) k
  | .book b => { k with books := SMap.set (fun _ => []) k.books b.val (l.map fun x => BitVec.ofNat 8 x), used := SMap.set (fun _ => 0) k.used b.val used }
  | .table p =>
    let old := SMap.get (fun _ => []) k.books 16
    let all := (List.range 256).map fun i => if i / 16 = p.val then BitVec.ofNat 8 (lane l (i % 16)) else old.getD i 0
    { k with books := SMap.set (fun _ => []) k.books 16 all, used := SMap.set (fun _ => 0) k.used 16 used }

/-- The used count that a move slot gives is one that the book or table can have. -/
def moveOk (dst : MovePlace) (used : Nat) : Bool := match dst with
  | .book _ => usedOk false used
  | .table _ => usedOk true used
  | _ => true

/-- The move slot (Clerks Table 5.5). -/
def Issue.move (cyc : Nat) (old : Clerk) (m : MoveSlot) (z : Issue) : Issue :=
  match m with
  | .handOff f => z.handOff cyc old f
  | .copy dst src used => if moveOk dst used then { z with k := z.k.placeWrite cyc used (old.placeRead src) dst } else { z with fin := .illegal }

/-- Apply a slot, if the word has it. -/
def withSlot {α : Type} (o : Option α) (f : α → Issue → Issue) (z : Issue) : Issue := match o with
  | some x => f x z
  | none => z

/-- A step-boundary slot: the clerk waits there, which the postmaster sees 8 cycles after issue (Clerks R186), or goes on at once to the words of the next
step where that step has passed its advance check and has the clerk (Districts R196). -/
def State.clerkBoundary (s : State) (c cyc : Nat) (k : Clerk) : Clerk :=
  let held := { k with stage := .boundary, next := cyc + 8 }
  match (s.dunit (clerkDistrict c)).bind fun u => u.next with
  | some n => if nbit n.work.clerks (clerkLocal c) && !k.ahead then { k with ahead := true, pc := n.work.prog.entry.getD k.pc } else held
  | none => held

/-- Every slot of a word, each reading the clerk as it was before the word (Clerks R184); then the halt, if a slot calls for one. -/
def State.issueWord (s : State) (c cyc : Nat) (w : LongWord) : State :=
  let old := s.clerk c
  let z := withSlot w.array (Issue.array c cyc old) ⟨s, old, .ok⟩
  let z := withSlot w.load (Issue.load c cyc old) z
  let z := withSlot w.store (Issue.store c cyc old w.load.isSome) z
  let z := withSlot w.vector (Issue.vector c cyc old) z
  let z := withSlot w.move (Issue.move cyc old) z
  let k := match w.sync with
    | some .boundary => z.s.clerkBoundary c cyc z.k
    | some (.barrier m) => { z.k with stage := .barrier m, since := cyc }
    | none => z.k
  let s := z.s.setClerk c k
  match z.fin with
  | .ok => s
  | .illegal => s.haltClerk c false
  | .poison => s.haltClerk c true

/-- Write the stores of a clerk that fall due by a cycle. -/
def State.dueStores (s : State) (c cyc : Nat) : State :=
  let k := s.clerk c
  let s := s.setClerk c { k with stores := k.stores.filter fun x => decide (cyc < x.1) }
  s.each (k.stores.filter fun x => decide (x.1 ≤ cyc)) fun s x => s.store (storeAddr c + x.2.1) x.2.2

/-- The loads of books and of the table that are there by a cycle (Clerks Table 5.6). -/
def Clerk.dueBooks (k : Clerk) (cyc : Nat) : Clerk :=
  (k.bookLoads.filter fun b => decide (b.due ≤ cyc)).foldl (fun k b =>
    { k with books := SMap.set (fun _ => []) k.books b.book b.bytes, used := SMap.set (fun _ => 0) k.used b.book b.used })
    { k with bookLoads := k.bookLoads.filter fun b => decide (cyc < b.due) }

/-! ### The inbox (Clerks R187, Districts R199, R200) -/

/-- One entry goes from the stream buffer into an inbox that has room: the sequence address plus the band offset that it selects, modulo 2^17. -/
def Clerk.fillOne (streams : List StepSeq) (k : Clerk) : Clerk :=
  match k.seqs with
  | [] => k
  | p :: t =>
    if 64 ≤ k.inbox.length then k
    else match streams.find? fun q => q.no == p.no with
      | none => { k with seqs := t }
      | some q => match q.addrs[p.taken]? with
        | none => { k with seqs := t }
        | some e => { k with
            inbox := k.inbox ++ [(e.addr + (match e.band with | some b => p.bands.getD b.val 0 | none => 0)) % 2 ^ 17]
            seqs := if p.taken + 1 < q.addrs.length then { p with taken := p.taken + 1 } :: t else t }

/-- Up to `n` entries. -/
def Clerk.fill (streams : List StepSeq) (k : Clerk) : Nat → Clerk
  | 0 => k
  | n + 1 => Clerk.fill streams (k.fillOne streams) n

/-! ### Issue (Clerks R183 to R190) -/

/-- `[pc, pc + len)` holds a word that has been loaded into the instruction buffer: the address that its code came from. -/
def Clerk.codeAt (k : Clerk) (pc len : Nat) : Option Nat :=
  if pc % 4 = 0 && len % 4 == 0 && decide (4 ≤ len) && decide (len ≤ 28) then
    (k.loaded.find? fun x => decide (x.1 ≤ pc) && decide (pc + len ≤ x.1 + x.2.1)).map fun x => x.2.2 + (pc - x.1)
  else none

/-- The postmaster refetches a word that fails parity: the code area is read again (Clerks R185, Districts R202). A poisoned word of it stops the unit (R205);
otherwise the clerk has the word as it is there. -/
def State.refetch (s : State) (c pc len src : Nat) : State :=
  let s := s.eccRead src len
  if s.poisoned src len then s.haltClerk c true
  else
    let k := s.clerk c
    s.setClerk c { k with ibuf := (s.rdMem src len).zipIdx.foldl (fun m x => SMap.set (fun _ => 0) m (pc + x.2) x.1) k.ibuf }

/-- The clerk at the start of a cycle: stores and loads that fall due have been done, and the inbox has taken two entries for each cycle since the one in which it
last tried to issue. -/
def State.clerkCycle (s : State) (c cyc : Nat) : State :=
  let s := s.dueStores c cyc
  let k := s.clerk c
  let k := (k.dueBooks cyc).fill (SMap.get (fun _ => []) s.floor.streams (clerkDistrict c)) (min (2 * (cyc + 1 - k.next)) 64)
  s.setClerk c { k with next := cyc + 1 }

/-- A frozen cycle: counted against the district, dry before drain (Clerks R190), with the array held (R189). -/
def State.freeze (s : State) (c cyc : Nat) (dry : Bool) : State :=
  let d := clerkDistrict c
  (s.setClerk c ((s.clerk c).hold cyc)).add64 (if dry then FLOOR_FREEZE_DRY d else FLOOR_FREEZE_DRAIN d) 1

/-- The clerk issues a word that it has, freezes (Clerks R188), or waits for the array (R183). A cycle in which the array's own accesses contend is frozen, and
has been counted when the instruction issued. -/
def State.wordGo (s : State) (c cyc pc : Nat) (w : BufWord) : State :=
  let k := s.clerk c
  let busy := match k.array with | some r => decide (cyc < r.free) | none => false
  if (k.arrayAt cyc).any fun x => x.1 then s
  else if k.dry cyc w.word && !(w.word.array.isSome && busy) then s.freeze c cyc true
  else if k.drainWaits cyc w.word && !(w.word.array.isSome && busy) then s.freeze c cyc false
  else if w.word.array.isSome && busy then s
  else (s.setClerk c { k with pc := pc + w.len }).issueWord c cyc w.word

/-- A clerk of the running unit comes to a word in a cycle of its clock, one word at most in a cycle and in program order. A word address that is not loaded, or
a word that fails parity twice, halts it (R185); one that fails once is refetched. -/
def State.wordIssue (s : State) (c cyc pc : Nat) (w : BufWord) : State :=
  let k := s.clerk c
  let mine := match s.dunit (clerkDistrict c) with | some u => k.run == some (u.ring, u.seq) | none => false
  if k.stage != .running || !mine || decide (cyc < k.next) || (!w.branch && decide (pc ≠ k.pc)) then s
  else
    let s := s.clerkCycle c cyc
    match (s.clerk c).codeAt pc w.len with
    | none => (s.setClerk c { s.clerk c with pc := pc }).haltClerk c false
    | some src =>
      let s := if w.parity = 0 then s else s.refetch c pc w.len src
      if (s.clerk c).halt != 0 then s
      else if w.parity = 2 then (s.setClerk c { s.clerk c with pc := pc }).haltClerk c false
      else s.wordGo c cyc pc w

def execWordIssue (c : Fin 4096) (cyc pc : Nat) (w : BufWord) (s : State) : Host.Outcome State Fault Refusal :=
  .next (s.wordIssue c.val cyc pc w)

/-- The barrier at which a clerk is held. -/
def Clerk.barrier (k : Clerk) : Option Nat := match k.stage with
  | .barrier m => some m
  | _ => none

/-- Every clerk of the barrier that holds a clerk has issued it. -/
def State.barrierFull (s : State) (d c : Nat) : Bool := match (s.clerk c).barrier with
  | some m => (clerksOf d m).all fun x => (s.clerk x).barrier == some m
  | none => false

/-- The cycle in which the last clerk of a barrier issued it. -/
def State.barrierLast (s : State) (d m : Nat) : Nat := (clerksOf d m).foldl (fun n x => max n (s.clerk x).since) 0

/-- The clerks held at a barrier go on, 12 cycles after the last of them issued it, once every clerk that it names has (Clerks R186). -/
def execDistrictBarrier (d : Fin 16) (s : State) : Host.Outcome State Fault Refusal :=
  .next (s.each ((List.range 256).map (clerkOf d.val)) fun s' c =>
    if s.barrierFull d c then
      let k := s'.clerk c
      s'.setClerk c { k with stage := .running, next := max k.next (s.barrierLast d ((s.clerk c).barrier.getD 0) + 12) }
    else s')

/-! ### ECC (Clerks R179, R181, Districts R205) -/

/-- Bit errors have arisen in a word of a store or a sorting cache: `bad` wrong bits. The scrubber's next pass over a district that is ON finds them while it is
enabled (Clerks R181); otherwise they stay until something reads the word (R179). -/
def execScrubRead (addr : Nat) (bad : Fin 3) (s : State) : Host.Outcome State Fault Refusal :=
  let a := addr / 8 * 8
  .next (match (if inSram a 8 && sramHolds a then sramDistrict a else none) with
    | none => s
    | some d =>
      let s := if bad = 0 || !s.domUp d && s.dom d != 2 then s else s.setFlip a bad.val
      if s.cfgOn FLOOR_SCRUB_CTRL_ENABLE && s.dom d == 0 then s.eccRead a 8 else s)

end Sys2Proof.Machine
end

