-- ==== Sys2Proof/Machine/Aes.lean ====
section
/-! DEFINITION. AES-256 in Galois/Counter mode (FIPS 197, NIST SP 800-38D), the encryption of parcel bodies (Parcels R267). -/

namespace Sys2Proof.Machine

/-! ### AES-256 -/

/-- A byte times x in the field of AES. -/
def gfDouble (a : Nat) : Nat := if a < 128 then 2 * a else (2 * a - 256) ^^^ 0x1B

/-- The product of two bytes in the field of AES, over the `n` low bits of the second. -/
def gfMul : Nat → Nat → Nat → Nat
  | 0, _, _ => 0
  | n + 1, a, b => (if b % 2 = 1 then a else 0) ^^^ gfMul n (gfDouble a) (b / 2)

/-- A byte to the power 254, its inverse: the product of the squares a², a⁴, … a¹²⁸. -/
def gfInverse (a : Nat) : Nat :=
  ((List.range 7).foldl (fun (x : Nat × Nat) _ => let q := gfMul 8 x.1 x.1; (q, gfMul 8 x.2 q)) (a, 1)).2

/-- A byte rotated left. -/
def rol8 (a n : Nat) : Nat := (a * 2 ^ n + a / 2 ^ (8 - n)) % 256

/-- The substitution of a byte: its inverse, then the affine map. -/
def aesByte (a : Nat) : Nat :=
  let i := gfInverse a
  (i ^^^ rol8 i 1) ^^^ ((rol8 i 2 ^^^ rol8 i 3) ^^^ (rol8 i 4 ^^^ 0x63))

/-- The substitution of every byte value. -/
def aesBox : List Nat := (List.range 256).map aesByte

/-- The next four bytes of a key schedule, latest word first; `i` is the number of the word. -/
def aesKeyNext (w : List (List Nat)) (i : Nat) : List (List Nat) :=
  let last := w.getD 0 []
  let sub := fun (l : List Nat) => l.map fun x => aesBox.getD x 0
  let mixed :=
    if i % 8 = 0 then (List.zipWith (· ^^^ ·) (sub (last.drop 1 ++ last.take 1)) [2 ^ (i / 8 - 1), 0, 0, 0])
    else if i % 8 = 4 then sub last
    else last
  List.zipWith (· ^^^ ·) (w.getD 7 []) mixed :: w

/-- The 15 round keys of a 32-byte key, 16 bytes each. -/
def aesKeys (key : Bytes) : List (List Nat) :=
  let first := (List.range 8).map fun i => ((key.drop (4 * i)).take 4).map BitVec.toNat
  let all := (((List.range 52).map (· + 8)).foldl aesKeyNext first.reverse).reverse
  (List.range 15).map fun r => ((all.drop (4 * r)).take 4).flatten

/-- Every byte substituted and every row of the block shifted: byte `i` comes from the column that is as many places on as its row. -/
def aesShift (b : List Nat) : List Nat := (List.range 16).map fun i => aesBox.getD (b.getD ((i + 4 * (i % 4)) % 16) 0) 0

/-- Every column mixed. -/
def aesMix (b : List Nat) : List Nat := (List.range 16).map fun i =>
  let at' := fun k => b.getD (i / 4 * 4 + (i + k) % 4) 0
  gfDouble (at' 0) ^^^ (gfDouble (at' 1) ^^^ at' 1) ^^^ (at' 2 ^^^ at' 3)

/-- One block under the round keys. -/
def aesBlock (keys : List (List Nat)) (b : List Nat) : List Nat :=
  let add := fun (x : List Nat) (r : Nat) => List.zipWith (· ^^^ ·) x (keys.getD r [])
  add (aesShift ((List.range 13).foldl (fun x r => add (aesMix (aesShift x)) (r + 1)) (add b 0))) 14

/-! ### Galois/Counter mode -/

/-- The product of two blocks as numbers, their first bit the highest, over the `n` bits of the first from bit `n − 1` down. -/
def ghashMul : Nat → Nat → Nat → Nat
  | 0, _, _ => 0
  | n + 1, x, v => (if x / 2 ^ n % 2 = 1 then v else 0) ^^^ ghashMul n x (if v % 2 = 1 then (v / 2) ^^^ (0xE1 * 2 ^ 120) else v / 2)

/-- Take in the blocks of a sequence of bytes, the last filled up with zeros. -/
def ghashFold (h y : Nat) (b : Bytes) : Nat :=
  (List.range ((b.length + 15) / 16)).foldl (fun y i =>
    let c := (b.drop (16 * i)).take 16
    ghashMul 128 (y ^^^ (beNat c * 256 ^ (16 - c.length))) h) y

/-- A number encrypted as a block. -/
def aesNat (keys : List (List Nat)) (n : Nat) : Nat := (aesBlock keys ((beBytes 16 n).map BitVec.toNat)).foldl (fun a x => a * 256 + x) 0

/-- The tag of a ciphertext under a 12-byte nonce. -/
def gcmTag (keys : List (List Nat)) (iv aad c : Bytes) : Bytes :=
  let h := aesNat keys 0
  let y := ghashMul 128 (ghashFold h (ghashFold h 0 aad) c ^^^ (8 * aad.length * 2 ^ 64 + 8 * c.length)) h
  beBytes 16 (y ^^^ aesNat keys (beNat iv * 2 ^ 32 + 1))

/-- The text under the counter stream of a nonce. -/
def gcmStream (keys : List (List Nat)) (iv b : Bytes) : Bytes :=
  (List.range ((b.length + 15) / 16)).flatMap fun i =>
    List.zipWith (· ^^^ ·) ((b.drop (16 * i)).take 16) (beBytes 16 (aesNat keys (beNat iv * 2 ^ 32 + (i + 2) % 2 ^ 32)))

/-- The plaintext of a ciphertext that authenticates. -/
def gcmOpen (key iv aad c tag : Bytes) : Option Bytes :=
  let keys := aesKeys key
  if gcmTag keys iv aad c = tag then some (gcmStream keys iv c) else none

end Sys2Proof.Machine
end

