-- ==== Sys2Proof/Machine/Shadow.lean ====
section
/-! DEFINITION. The transaction unit (Transactions §1 to §5): holders and owners, shadow sets, pending halves and mated pairs. -/

namespace Sys2Proof

/-- The holder that a requester acts for, as FUNCTION × 8 + PROC (Transactions Table 4.1). -/
def Req.holder : Req → Option Nat
  | .pf => some 0
  | .host sec _ => some (if sec then 144 else 136)
  | .fw p => if p.val < 3 then some (160 + p.val) else none
  | .opantith => some 163
  | .vf _ => none

/-- The writer of a half (Transactions R146, R148): its holder, or the requester itself outside Table 4.1. -/
def Req.writer (q : Req) : Nat := match q.holder with | some h => h | none => 1000 + q.index

end Sys2Proof

namespace Sys2Proof.Machine
open Reg

/-- Table 4.1 permits owner `o` for holder `h`. -/
def ownerPermitted (h o : Nat) : Bool :=
  decide (o ≤ 5) || (o == 6 && (h == 160 || h == 161 || h == 162)) || (o == 7 && (h == 144 || h == 163))

/-- The holder that a TXN envelope of a ring owned by `f` acts for (Transactions R124). -/
def ringHolder (f : Nat) : Option Nat := if f = 0 || f = 17 || f = 18 then some (f * 8) else none

/-! ### Owners -/

def State.ownerSt (s : State) (o : Nat) : OwnerSt := SMap.get (fun _ => {}) s.txn.owners o

/-- Set an owner's transaction; OWNER_STATE.ENTRIES follows its shadow set. -/
def State.setOwner (s : State) (o : Nat) (x : OwnerSt) : State :=
  (s.setTxn fun z => { z with owners := SMap.set (fun _ => {}) s.txn.owners o x }).put (TXN_OWNER_STATE_ENTRIES o) x.set.length

/-- OWNER_STATE.STATE: 0 FREE, 1 OPEN, 2 SEALING, 3 FAILED. -/
def State.ownerState (s : State) (o : Nat) : Nat := s.get (TXN_OWNER_STATE_STATE o)

/-- The owner is OPEN or FAILED. -/
def State.ownerOpen (s : State) (o : Nat) : Bool := s.ownerState o == 1 || s.ownerState o == 3

/-- The owner that a holder holds (Transactions R123). -/
def State.heldBy (s : State) (h : Nat) : Option Nat :=
  (List.range 8).find? fun o => s.ownerState o != 0 && s.rdN (TXN_OWNER_HOLDER o) == h

/-- The owner that a requester holds OPEN or FAILED (Transactions R127, R144). -/
def State.openOf (s : State) (q : Req) : Option Nat := match q.holder with
  | none => none
  | some h => match s.heldBy h with
    | some o => if s.ownerOpen o then some o else none
    | none => none

/-- The owner becomes FREE with an outcome (Transactions R130, R131, R137). -/
def State.freeOwner (s : State) (o status : Nat) : State :=
  ((s.setOwner o {}).wrN (TXN_OWNER_STATE o) (status * 65536)).wrN (TXN_OWNER_DONE o) s.round

/-- An open of owner `o` by holder `h`: its status and RESULT (Transactions R126). -/
def State.txnOpen (s : State) (h o : Nat) : State × Nat × Nat :=
  if !ownerPermitted h o then (s, 0x8505, o)
  else if s.ownerState o != 0 || (s.heldBy h).isSome then (s, 0x8503, o)
  else
    let s := s.wrN (TXN_OWNER_STATE o) 0x1000
    let s := (s.wrN (TXN_OWNER_HOLDER o) h).wrN (TXN_OWNER_OPEN o) s.round
    (s.setOwner o { openSeq := s.rdN TXN_CHANGE_SEQ, limit := s.txn.limit }, 0, 0)

/-- A return of owner `o` by holder `h` (Transactions R130). -/
def State.txnReturn (s : State) (h o : Nat) : State × Nat × Nat :=
  if s.heldBy h == some o && s.ownerOpen o then (s.freeOwner o 0, 0, 0) else (s, 0x8504, o)

/-- The owner's seal is accepted (Transactions R133). -/
def State.txnSeal (s : State) (o : Nat) (env : Option (Nat × Nat)) : State :=
  let x := s.ownerSt o
  let s := (s.setOwner o { x with failed := s.ownerState o == 3, sealRound := s.round, env := env }).put (TXN_OWNER_STATE_STATE o) 2
  s.setTxn fun z => { z with seals := s.txn.seals ++ [o] }

/-! ### The shadowed and paired fields (Transactions Table 4.5) -/

/-- The bits of a register whose fields have access code `k`. -/
def maskOf (k : Access) (off : Nat) : Nat := match regRow? off with
  | none => 0
  | some r => r.fields.foldl (fun a f => if f.2.2 = k then a + (2 ^ (f.1 + 1) - 2 ^ f.2.1) else a) 0

/-- Bits of `v` under mask `m`. -/
def andNat (v m : Nat) : Nat := (BitVec.ofNat 64 v &&& BitVec.ofNat 64 m).toNat

/-- `old` with the bits under mask `m` taken from `v`. -/
def mergeNat (old m v : Nat) : Nat := (BitVec.ofNat 64 old &&& ~~~ (BitVec.ofNat 64 m) ||| (BitVec.ofNat 64 v &&& BitVec.ofNat 64 m)).toNat

/-- The first register of the pair of a PL register: every pair of Table 4.5 is two adjacent 32-bit registers. -/
def pairKey (off : Nat) : Nat := off / 8 * 8

/-- The power domain that a register with SH or PL fields needs, where that is a switched domain of Table 14.2. -/
def shplDomain (off : Nat) : Option Nat :=
  if off / 0x100000 = 3 then some 17 else if off / 0x100000 = 9 then some 19 else none

/-- The power domain of the block of a pair, where its leaving ON drops what waits (Transactions R149): as above, and WATCH (25) for ROUND, SPINE (26) for
MEMCTL. MONITOR lies in AON. -/
def pairDomain (off : Nat) : Option Nat :=
  if off / 0x10000 = 1 then some 25 else if off / 0x100000 = 2 then some 26 else shplDomain off

/-- The writer may write the SH and PL fields of a register (Transactions R129): the blocks' own rules. -/
def mayShadow (q : Req) (off : Nat) : Bool :=
  if off / 0x100000 = 9 || off / 0x100000 = 0xA || off / 0x100000 = 0xB then q.pfOrHost else q.reachesRegs

/-- Record the SH and PL fields of one register in an OPEN owner's shadow set (Transactions R127, R128). -/
def State.record (s : State) (o off v : Nat) : State :=
  let x := s.ownerSt o
  let m := maskOf .sh off + maskOf .pl off
  let e : Shadow := ⟨off, m, andNat v m⟩
  if s.ownerState o != 1 then s
  else if x.set.any fun y => y.off == off then s.setOwner o { x with set := x.set.map fun y => if y.off = off then e else y }
  else if x.set.length < 256 then s.setOwner o { x with set := x.set ++ [e] }
  else (s.put (TXN_OWNER_STATE_STATE o) 3).report { code := Code.TXN_FULL, unit := o, detail := off }

/-! ### Pairs (Transactions §5) -/

def State.half (s : State) (k : Nat) : Option Half := SMap.get (fun _ => none) s.txn.halves k

/-- Set or remove the pending half of a pair; PAIR_PENDING counts them. -/
def State.setHalf (s : State) (k : Nat) (h : Option Half) : State :=
  let hs := SMap.set (fun _ => none) s.txn.halves k h
  (s.setTxn fun z => { z with halves := hs }).put TXN_PAIR_PENDING_COUNT hs.length

/-- A dropped half or mated pair is reported and counted (Transactions R149). -/
def State.orphan (s : State) (off : Nat) : State := (s.report { code := Code.PAIR_ORPHAN, detail := off }).addSat TXN_ORPHAN_COUNT 1

/-- Drop the pending half of a pair, if there is one (Transactions R138, R149). -/
def State.dropHalf (s : State) (k : Nat) : State := match s.half k with
  | none => s
  | some h => (s.setHalf k none).orphan (if h.second then k + 4 else k)

/-- A pair's mate has landed (Transactions R146). -/
def State.mate (s : State) (k a b : Nat) : State :=
  let s := s.setHalf k none
  s.setTxn fun z => { z with mated := s.txn.mated ++ [⟨k, a, b, s.round⟩] }

/-- A write to one field of a pair outside a transaction (Transactions R145, R146, R148). -/
def State.pairWrite (s : State) (w off v : Nat) : State :=
  let k := pairKey off
  let second := off % 8 == 4
  let v := andNat v (maskOf .pl off)
  match s.half k with
  | none => s.setHalf k (some ⟨w, second, v, s.round⟩)
  | some h =>
    if h.holder != w then s.report { code := Code.PAIR_BUSY, detail := off }
    else if h.second == second then s.setHalf k (some { h with value := v })
    else if second then s.mate k h.value v else s.mate k v h.value

/-- One access that carries both fields of a pair (Transactions R147). -/
def State.pairBoth (s : State) (w k a b : Nat) : State :=
  let go := s.mate k (andNat a (maskOf .pl k)) (andNat b (maskOf .pl (k + 4)))
  match s.half k with
  | none => go
  | some h => if h.holder != w then s.report { code := Code.PAIR_BUSY, detail := k } else go

/-- The SH and PL fields of a register write, after the register's permission checks: into the writer's shadow set, or, with no
transaction open, SH fields are discarded (Scope R23) and PL fields go to their pair (Transactions R144). -/
def State.shplWrite (s : State) (q : Req) (off v : Nat) : State :=
  match s.openOf q with
  | some o => s.record o off v
  | none =>
    let m := maskOf .sh off
    let s := if andNat v m != andNat (s.rdN off) m then s.report { code := Code.SH_NO_TXN, detail := off } else s
    if maskOf .pl off = 0 then s else s.pairWrite q.writer off v

/-- A holder is lost (Transactions R132, R149): its OPEN or FAILED owner expires and its pending halves are dropped. R132 loses holders of Table 4.1
only: a half pending for another writer, such as a postmaster, is kept when that writer stops (log entry 150). -/
def State.loseHolder (s : State) (h : Nat) : State :=
  let s := match s.heldBy h with
    | some o => if s.ownerOpen o then (s.freeOwner o 0x8507).report { code := Code.TXN_EXPIRED, unit := o } else s
    | none => s
  s.each s.txn.halves fun s e => match e.2 with
    | some x => if x.holder = h then s.dropHalf e.1 else s
    | none => s

/-- A domain leaves ON and IDLE: the halves and mated pairs of its block are dropped (Transactions R149). -/
def State.pairsLeave (s : State) (d : Nat) : State :=
  let s := s.each s.txn.halves fun s e => if pairDomain e.1 = some d then s.dropHalf e.1 else s
  let gone := s.txn.mated.filter fun m => pairDomain m.key == some d
  let s := s.setTxn fun z => { z with mated := s.txn.mated.filter fun m => pairDomain m.key != some d }
  s.each gone fun s m => s.orphan m.key

/-- A reset of the SPINE domain (Transactions R152): everything but CHANGE_SEQ and the marks is gone, with no error reported. -/
def State.txnReset (s : State) : State := s.setTxn fun x => { marks := x.marks }

end Sys2Proof.Machine
end

