-- ==== Sys2Proof/Machine/Txn.lean ====
section
/-! DEFINITION. The commands of the transaction unit (Transactions §2 to §5), but for those that apply changes. -/

namespace Sys2Proof.Machine
open Reg

/-- Set a holder's CMD_STATUS.STATUS. -/
def State.setCmd (s : State) (h status : Nat) : State :=
  s.setTxn fun z => { z with cmd := SMap.set (fun _ => 0) s.txn.cmd h status }

/-- Answer a TXN.CMD with the outcome of its act. -/
def State.cmdAnswer (h : Nat) (r : State × Nat × Nat) : State := r.1.setCmd h r.2.1

/-- The body of a started TXN envelope of this OP, with the holder it acts for; one that acts for no holder completes with TXN_DENIED
(Transactions R140). -/
def State.txnEnv (s : State) (r seq op : Nat) (act : State → Nat → Bytes → State) : State :=
  match s.startedOf r seq 5 with
  | none => s
  | some f =>
    if Env.op f.env != op then s
    else match ringHolder (s.ringFn r) with
      | none => s.complete r seq 0x8505 (Env.owner f.env)
      | some h => act s h f.env

/-- A TXN envelope of OP 1 to 3 whose OWNER is not the owner that its function holds OPEN or FAILED fails with TXN_NOT_OPEN (Transactions R130,
R133, R140). An owner that its function holds SEALING is one of these for OP 1 too: R140 and R142 do not say (log entry 149). -/
def State.ownHeld (s : State) (h o : Nat) : Bool := s.heldBy h == some o && s.ownerOpen o

def execTxnOpen (w : TxnFrom) (s : State) : Host.Outcome State Fault Refusal :=
  .next (match w with
    | .cmd q o => s.landing q TXN_CMD fun s => match q.holder with
      | some h => State.cmdAnswer h (s.txnOpen h o.val)
      | none => s
    | .env r seq => s.txnEnv r seq 0 fun s h e =>
      let x := s.txnOpen h (Env.owner e)
      x.1.complete r seq x.2.1 x.2.2)

def execTxnReturn (w : TxnFrom) (s : State) : Host.Outcome State Fault Refusal :=
  .next (match w with
    | .cmd q o => s.landing q TXN_CMD fun s => match q.holder with
      | some h => State.cmdAnswer h (s.txnReturn h o.val)
      | none => s
    | .env r seq => s.txnEnv r seq 3 fun s h e =>
      let x := s.txnReturn h (Env.owner e)
      x.1.complete r seq x.2.1 x.2.2)

/-- An accepted seal completes at its boundary (Transactions R133, R137); CMD_STATUS.STATUS keeps its value until then. -/
def execTxnSeal (w : TxnFrom) (s : State) : Host.Outcome State Fault Refusal :=
  .next (match w with
    | .cmd q o => s.landing q TXN_CMD fun s => match q.holder with
      | some h => if s.ownHeld h o.val then s.txnSeal o.val none else s.setCmd h 0x8504
      | none => s
    | .env r seq => s.txnEnv r seq 2 fun s h e =>
      if s.ownHeld h (Env.owner e) then s.txnSeal (Env.owner e) (some (r.val, seq)) else s.complete r seq 0x8504 (Env.owner e))

/-! ### Write lists (Transactions R141, R142) -/

/-- An entry of a write list (Transactions Table 4.3). -/
structure ListEntry where
  offset : Nat
  width : Nat
  value : Nat

/-- The entries of a write list of `n` entries. -/
def listEntries (b : Bytes) (n : Nat) : List ListEntry :=
  (List.range n).map fun i => ⟨fieldLE b (16 * i) 4, fieldLE b (16 * i + 4) 4, fieldLE b (16 * i + 8) 8⟩

/-- No reserved bit of the entry is set. -/
def ListEntry.clean (x : ListEntry) : Bool :=
  decide (x.offset < 2 ^ 24) && decide (x.width < 2) && (x.width == 1 || decide (x.value < 2 ^ 32))

/-- The entry names a register with SH or PL fields and its width; all such registers have 32 bits (Transactions R142, Table 4.5). -/
def ListEntry.target (x : ListEntry) : Bool := x.width == 0 && x.offset % 4 == 0 && maskOf .sh x.offset + maskOf .pl x.offset != 0

/-- The requester whose permissions a ring's function has (Transactions R124, R129). -/
def ringReq (f : Nat) : Req := if f = 17 then .host false 0 else if f = 18 then .host true 0 else .pf

/-- A register of this block discards a write it does not permit; the FABRIC and power blocks' SH and PL fields accept every holder of a
TXN envelope, so that none is discarded here. -/
def State.recordList (s : State) (f o : Nat) (l : List ListEntry) : State :=
  s.each l fun s x => if mayShadow (ringReq f) x.offset then s.record o x.offset x.value else s

/-- The status and RESULT of an OP 1 whose list has been read, and the state after it (Transactions R142). -/
def State.writeList (s : State) (f o : Nat) (l : List ListEntry) : State × Nat × Nat :=
  if !(l.all ListEntry.clean) then (s, 1, 0)
  else match l.findIdx? fun x => !x.target with
    | some i => (s, 0x8509, i)
    | none =>
      let s := s.recordList f o l
      if s.ownerState o = 3 then (s, 0x8506, 256) else (s, 0, (s.ownerSt o).set.length)

/-- The status of a failed read of an envelope's own data (Envelopes Table 3.7, Memory Table 12.7). -/
def readStatus : AccErr → Nat
  | .poison => 0x0A
  | _ => 3

def execTxnWrites (r : Ring) (seq : Nat) (s : State) : Host.Outcome State Fault Refusal :=
  .next (s.txnEnv r seq 1 fun s h e =>
    let o := Env.owner e
    let f := s.ringFn r
    let n := Env.count e
    if !s.ownHeld h o then s.complete r seq 0x8504 o
    else if n = 0 then
      let x := s.writeList f o []
      x.1.complete r seq x.2.1 x.2.2
    else if Env.list e % 16 != 0 then s.complete r seq 3 0
    else match s.addrRead f (Env.list e) (16 * n) with
      | .error x => (s.accReport x).complete r seq (readStatus x) 0
      | .ok b =>
        let x := (s.ringTraffic r seq (Env.list e) (16 * n)).writeList f o (listEntries b n)
        x.1.conclude r seq x.2.1 x.2.2)

/-! ### Expiry and orphans (Transactions R131, R149) -/

/-- The boundary that begins round m + L returns an owner opened in round m; owner 7 and L = 0 are exempt. -/
def execTxnExpired (o : Fin 8) (s : State) : Host.Outcome State Fault Refusal :=
  let l := (s.ownerSt o).limit
  .next (if s.ownerOpen o && o.val != 7 && l != 0 && decide (s.rdN (TXN_OWNER_OPEN o) + l ≤ s.round) then
    (s.freeOwner o 0x8507).report { code := Code.TXN_EXPIRED, unit := o }
  else s)

/-- A half that landed in round n is dropped at the boundary that begins round n + 1,000. -/
def execPairOrphan (p : PairId) (s : State) : Host.Outcome State Fault Refusal :=
  .next (match s.half p.key with
    | some h => if h.round + 1000 ≤ s.round then s.dropHalf p.key else s
    | none => s)

end Sys2Proof.Machine
end

