-- ==== Sys2Proof/Machine/Parcel.lean ====
section
/-! DEFINITION. Parcels (Parcels §2 to §4, §7; Districts §6): the image, the checks of a RUN, its allocation and its release. -/

namespace Sys2Proof.Machine
open Reg

/-! ### The image (Parcels Tables 8.1 to 8.4) -/

/-- A field of a parcel header. -/
def hdrF (h : Bytes) (off n : Nat) : Nat := fieldLE h off n

def hdrExpress (h : Bytes) : Bool := nbit (hdrF h 0x0A 2) 1
def hdrSealed (h : Bytes) : Bool := nbit (hdrF h 0x0A 2) 0
def hdrTiles (h : Bytes) : Bool := nbit (hdrF h 0x0A 2) 2 || nbit (hdrF h 0x0A 2) 3
def hdrBodyLen (h : Bytes) : Nat := hdrF h 0x1C 4
def hdrStoreUnits (h : Bytes) : Nat := hdrF h 0x39 1
def hdrScUnits (h : Bytes) : Nat := hdrF h 0x3A 1
def hdrArrive (h : Bytes) : Nat := hdrF h 0x3C 2

/-- The allocation key (Parcels R261). -/
def hdrKey (h : Bytes) : ParcelKey := ⟨hdrF h 0x10 8, hdrF h 0x0C 4, hdrF h 0x7C 4⟩

/-- The places of the four tables: the header field that gives each offset, the offset and the length. -/
def hdrTables (h : Bytes) : List (Nat × Nat × Nat) :=
  [(0x20, hdrF h 0x20 4, 16 * hdrF h 9 1), (0x24, hdrF h 0x24 4, 8 * hdrF h 0x28 4), (0x2C, hdrF h 0x2C 4, 32 * hdrF h 0x30 4),
    (0x34, hdrF h 0x34 4, 8 * hdrF h 0x38 1)]

/-- The first failing test of a list of tests. -/
def firstBad {α : Type} : List (α × Bool) → Option α
  | [] => none
  | (a, ok) :: t => if ok then firstBad t else some a

/-- The header fields within Table 8.1 and R253, in ascending offset. -/
def hdrFieldTests (h : Bytes) : List (Nat × Bool) :=
  let x := hdrExpress h
  let z : Nat → Nat → Bool := fun off n => hdrF h off n == 0
  [(7, decide (1 ≤ hdrF h 7 1) && decide (hdrF h 7 1 ≤ 16) && (!x || hdrF h 7 1 == 1)),
    (8, decide (1 ≤ hdrF h 8 1) && decide (hdrF h 8 1 ≤ 4) && (!x || hdrF h 8 1 == 1) && (!nbit (hdrF h 0x0A 2) 3 || decide (2 ≤ hdrF h 8 1))),
    (9, decide (1 ≤ hdrF h 9 1) && decide (hdrF h 9 1 ≤ 64)),
    (0x0A, decide (hdrF h 0x0A 2 < 16) && (!x || !hdrTiles h)),
    (0x1C, decide (64 ≤ hdrBodyLen h) && decide (hdrBodyLen h ≤ 0x0FFFFF80) && hdrBodyLen h % 64 == 0),
    (0x28, decide (1 ≤ hdrF h 0x28 4) && decide (hdrF h 0x28 4 ≤ 65536)),
    (0x2C, hdrF h 0x30 4 != 0 || z 0x2C 4),
    (0x30, decide (hdrF h 0x30 4 ≤ 65535)),
    (0x34, hdrF h 0x38 1 != 0 || z 0x34 4),
    (0x38, decide (hdrF h 0x38 1 ≤ 64)),
    (0x39, decide (1 ≤ hdrStoreUnits h) && decide (hdrStoreUnits h ≤ 24)),
    (0x3A, decide (hdrScUnits h ≤ 64)),
    (0x3B, if hdrSealed h then decide (hdrF h 0x3B 1 ≤ 15) else z 0x3B 1),
    (0x3E, z 0x3E 2), (0x40, hdrSealed h || z 0x40 12), (0x4C, z 0x4C 4), (0x50, hdrSealed h || z 0x50 16), (0x60, z 0x60 16), (0x78, z 0x78 4)]

/-- The placement of the tables and the body (Parcels R251): aligned, beyond the header, none overlapping one before it, inside the largest
region. -/
def placeTests (h : Bytes) : List (Nat × Bool) :=
  let parts := (0x18, hdrF h 0x18 4, hdrBodyLen h) :: hdrTables h
  parts.map fun p =>
    (p.1, p.2.2 == 0 || (p.2.1 % (if p.1 = 0x18 then 64 else 8) == 0 && decide (128 ≤ p.2.1) && decide (p.2.1 + p.2.2 ≤ 0x10000000) &&
      (parts.all fun o => decide (p.1 ≤ o.1) || decide (p.2.1 + p.2.2 ≤ o.2.1) || decide (o.2.1 + o.2.2 ≤ p.2.1))))

/-- Entry `i` of a table with entries of `n` bytes. -/
def rowOf (t : Bytes) (n i : Nat) : Bytes := (t.drop (n * i)).take n

/-- The rows of a table. -/
def rowsOf (t : Bytes) (n : Nat) : List Bytes := (List.range (t.length / n)).map (rowOf t n)

/-- Tests of one row of each table (Parcels R254 to R258): the offset in the row, and whether it holds. -/
def entryTests (e : Bytes) : List (Nat × Bool) := [(0, decide (fieldLE e 0 4 ≤ 65536) && fieldLE e 0 4 % 16 == 0)]
def stepTests (e : Bytes) : List (Nat × Bool) := [(0, fieldLE e 3 1 == 0 && fieldLE e 0 3 != 0), (6, decide (fieldLE e 6 2 < 2))]
def nodeTests (e : Bytes) : List (Nat × Bool) :=
  [(4, decide (fieldLE e 4 1 ≤ 6)), (5, decide (fieldLE e 5 1 ≤ 9)), (6, decide (fieldLE e 6 1 ≤ 3)),
    (7, decide (fieldLE e 7 1 < 64) || fieldLE e 7 1 == 0xFF), (0x14, fieldLE e 6 1 == 2 || fieldLE e 0x14 2 == 0), (0x16, fieldLE e 0x16 10 == 0)]
def walkTests (mask : Nat) (e : Bytes) : List (Nat × Bool) :=
  let k := toSigned 8 (fieldLE e 2 1)
  let a := fieldLE e 5 1
  [(0, decide (fieldLE e 0 1 < 64)), (1, decide (fieldLE e 1 1 < 2)), (2, decide (-32 ≤ k) && decide (k ≤ 31)),
    (3, decide (1 ≤ fieldLE e 3 1) && decide (fieldLE e 3 1 ≤ 4)), (4, fieldLE e 4 1 != 0), (5, a == 0xFF || (decide (a < 16) && nbit mask a)),
    (6, fieldLE e 6 2 == 0)]

/-- The smallest offset in the image of a bad field of a table. -/
def rowFault (base n : Nat) (tests : Bytes → List (Nat × Bool)) (t : Bytes) : Option Nat :=
  (rowsOf t n).zipIdx.findSome? fun x => (firstBad (tests x.1)).map fun o => base + n * x.2 + o

/-- A walk record that is declared twice. -/
def walkTwice (base : Nat) (t : Bytes) : Option Nat :=
  let ids := (rowsOf t 8).map fun e => fieldLE e 0 1
  (ids.zipIdx.find? fun x => (ids.take x.2).contains x.1).map fun x => base + 8 * x.2

/-- The lower of two offsets. -/
def minOpt : Option Nat → Option Nat → Option Nat
  | some a, some b => some (min a b)
  | some a, none => some a
  | none, b => b

/-- The smallest offset of a bad field of the tables. -/
def Image.tableFault (m : Image) : Option Nat :=
  let h := m.hdr
  minOpt (minOpt (rowFault (hdrF h 0x20 4) 16 entryTests m.entries) (rowFault (hdrF h 0x24 4) 8 stepTests m.steps))
    (minOpt (rowFault (hdrF h 0x2C 4) 32 nodeTests m.nodes)
      (minOpt (rowFault (hdrF h 0x34 4) 8 (walkTests (hdrArrive h)) m.walks) (walkTwice (hdrF h 0x34 4) m.walks)))

/-! ### Checks 1 to 3 of Table 8.5 -/

/-- A failed read of an envelope's own data ends it with the status of the failure. -/
def State.readFail (s : State) (e : AccErr) : State × Nat × Nat := (s.accReport e, readStatus e, 0)

/-- The header of a RUN's parcel (check 1), and check 2. -/
def State.readHeader (s : State) (f a : Nat) : Except (State × Nat × Nat) Bytes :=
  match s.addrRead f a 128 with
  | .error e => .error (s.readFail e)
  | .ok h =>
    if hdrF h 0 4 != 0x4C435250 then .error (s, 0x8107, 0)
    else if hdrF h 4 1 != 1 then .error (s, 0x8107, 4)
    else if crc32c (h.take 0x7C) != hdrF h 0x7C 4 then .error (s, 0x8107, 0xFFFFFFFF)
    else if hdrF h 5 1 = 0 || decide (3 < hdrF h 5 1) || hdrF h 6 1 != 4 then .error (s, 0x8108, hdrF h 6 1 * 256 + hdrF h 5 1)
    else .ok h

/-- Read the tables in order. -/
def State.readTables (s : State) (f a : Nat) : List (Nat × Nat × Nat) → Except AccErr (List Bytes)
  | [] => .ok []
  | p :: t =>
    match (if p.2.2 = 0 then .ok [] else s.addrRead f (a + p.2.1) p.2.2), State.readTables s f a t with
    | .ok b, .ok l => .ok (b :: l)
    | .error e, _ => .error e
    | _, .error e => .error e

/-- The image at an address that passes checks 1 to 3, or the status that ends its RUN. -/
def State.readImage (s : State) (f a : Nat) : Except (State × Nat × Nat) Image :=
  match s.readHeader f a with
  | .error e => .error e
  | .ok h =>
    match firstBad (hdrFieldTests h ++ placeTests h) with
    | some o => .error (s, 0x8107, o)
    | none =>
      match s.readTables f a (hdrTables h) with
      | .error e => .error (s.readFail e)
      | .ok l =>
        let m : Image := ⟨h, l.getD 0 [], l.getD 1 [], l.getD 2 [], l.getD 3 []⟩
        if crc32c (m.entries ++ m.steps ++ m.nodes ++ m.walks) != hdrF h 0x70 4 then .error (s, 0x8107, 0xFFFFFFFF)
        else match m.tableFault with
          | some o => .error (s, 0x8107, o)
          | none => .ok m

/-! ### Check 4: the argument block and STEP_LIMIT (Parcels R259, R279; Express R360) -/

/-- Check binding `i` and go on. -/
def State.bindCheck (s : State) (f : Nat) (express : Bool) : Nat → List Bytes → Binds → Except (Nat × Nat) Binds
  | _, [], b => .ok b
  | i, e :: t, b =>
    let addr := fieldLE e 0 8
    let n := fieldLE e 8 4
    let c := fieldLE e 12 2
    let fl := fieldLE e 14 2
    if 4 ≤ fl then .error (1, 0)
    else if nbit fl 1 && b.events.isSome then .error (0x810B, i)
    else if express && nbit fl 0 && !nbit fl 1 then
      if addr != 0 || n != 0 || decide (7 < c) || b.bands.contains c then .error (0x810B, i)
      else State.bindCheck s f express (i + 1) t { b with bands := b.bands ++ [c] }
    else if !s.addrFieldOk f (addr, n, 64) then .error (3, 0)
    else State.bindCheck s f express (i + 1) t (if nbit fl 1 then { b with events := some addr } else b)

/-- STEP_LIMIT is valid for an entry of the parcel. -/
def limitCheck (m : Image) (e : Bytes) (limit : Nat) (expressRing : Bool) : Option (Nat × Nat) :=
  if nbit limit 31 && nbits limit 30 16 != 0 then some (1, 0)
  else if limit != 0 && expressRing then some (0x810C, 0)
  else if nbit limit 31 && !(decide (limit % 65536 < hdrF m.hdr 0x30 4) && decide (fieldLE e 12 2 ≤ limit % 65536) &&
      decide (limit % 65536 ≤ fieldLE e 14 2)) then some (0x810B, 0xFFFFFFFF)
  else none

/-- Check 4 of a RUN. -/
def State.argCheck (s : State) (f : Nat) (m : Image) (env : Bytes) (expressRing : Bool) : Except (State × Nat × Nat) Binds :=
  let e := rowOf m.entries 16 (Env.entry env)
  if hdrF m.hdr 9 1 ≤ Env.entry env || Env.argLen env != fieldLE e 0 4 then .error (s, 0x810B, 0xFFFFFFFF)
  else
    match (if Env.argLen env = 0 then .ok [] else s.addrRead f (Env.args env) (Env.argLen env)) with
    | .error x => .error (s.readFail x)
    | .ok b =>
      match s.bindCheck f (hdrExpress m.hdr) 0 (rowsOf b 16) {} with
      | .error x => .error (s, x)
      | .ok g => match limitCheck m e (Env.stepLimit env) expressRing with
        | some x => .error (s, x)
        | none => .ok g

/-! ### Check 5: placement (Districts Table 6.5, Numbers R240) -/

/-- The districts of a mask. -/
def districtsOf (m : Nat) : List Nat := onesBelow m 16

/-- Checks 1 to 4 of Districts Table 6.5. -/
def State.placeCheck (s : State) (r : Nat) (h : Bytes) (mask : Nat) : Option (Nat × Nat) :=
  let ex := s.get (RINGS_CFG_CLASS r) == 0
  let here := nbit mask s.expressDistrict
  if mask = 0 || ex != hdrExpress h || (ex && (mask != 2 ^ s.expressDistrict || hdrTiles h)) || (!ex && here) then some (6, 0)
  else if s.get (RINGS_CFG_FLOOR_GROUP r) = 0 then some (5, 0)
  else if (districtsOf mask).length != hdrF h 7 1 then some (0x8101, 0)
  else if !((districtsOf mask).all s.domUp) then some (0x8102, 0)
  else none

/-- A store range, or a sorting cache range, that no allocation of the district holds. -/
def rangeFree (held : List (Nat × Nat)) (size units base : Nat) : Bool :=
  decide (base + units ≤ size) && held.all fun x => x.2 == 0 || units == 0 || decide (base + units ≤ x.1) || decide (x.1 + x.2 ≤ base)

/-- The base of a new range: the proposed one where it is free, else the lowest. -/
def rangeBase (held : List (Nat × Nat)) (size units base : Nat) : Option Nat :=
  if rangeFree held size units base then some base else (List.range (size + 1)).find? (rangeFree held size units)

/-- The allocation that a RUN makes for a parcel on a district (Districts R217): no range and no arrival counter of another's. -/
def State.newAlloc (s : State) (d : Nat) (m : Image) (b : BodyLoad) : Option Alloc :=
  let l := s.allocs d
  let h := m.hdr
  if l.any fun x => (x.arrive &&& hdrArrive h) != 0 then none
  else match rangeBase (l.map fun x => (x.storeBase, x.storeUnits)) 24 (hdrStoreUnits h) b.store,
      rangeBase (l.map fun x => (x.scBase, x.scUnits)) 64 (hdrScUnits h) b.cache with
  | some st, some sc => some
      { key := hdrKey h, storeBase := st, storeUnits := hdrStoreUnits h, scBase := sc, scUnits := hdrScUnits h, arrive := hdrArrive h
        records := (rowsOf m.walks 8).map fun e => fieldLE e 0 1
        sealed := hdrSealed h
        outputs := ((rowsOf m.nodes 32).filter fun e => decide (fieldLE e 6 1 ≤ 1)).map fun e => (fieldLE e 6 1, fieldLE e 8 4, fieldLE e 12 4) }
  | _, _ => none

/-- The district holds the parcel's allocation, or can make it. -/
def State.allocOk (s : State) (d : Nat) (m : Image) (b : BodyLoad) : Bool :=
  (s.allocOf d (hdrKey m.hdr)).isSome || (s.newAlloc d m b).isSome

/-- The walk records that a new allocation declares are free (Numbers R240). -/
def State.walkOk (s : State) (d : Nat) (m : Image) : Bool :=
  (s.allocOf d (hdrKey m.hdr)).isSome || (rowsOf m.walks 8).all fun e => !s.on (FLOOR_WALK_VALID d (fieldLE e 0 1))

/-- The declared worst case of an entry (Parcels R255). -/
def Image.maxCycles (m : Image) (e : Nat) : Nat := fieldLE (rowOf m.entries 16 e) 8 4

/-- Check 6 on one district (Round R60, R62). -/
def State.fitOk (s : State) (r d : Nat) (m : Image) (e : Nat) : Bool :=
  if hdrExpress m.hdr then s.expressFits (m.maxCycles e)
  else !s.noFit d (s.get (RINGS_CFG_FLOOR_GROUP r)) (m.maxCycles e) (opMHz (s.distOp d))

/-- Checks 5 and 6 of Districts Table 6.5, with NO_WALK_RECORD between them. -/
def State.roomCheck (s : State) (r mask : Nat) (m : Image) (e : Nat) (b : BodyLoad) : Option (Nat × Nat) :=
  let ds := districtsOf mask
  if !(ds.all fun d => s.allocOk d m b) then some (0x8103, 0)
  else if !(ds.all fun d => s.walkOk d m) then some (0x8105, 0)
  else if !(ds.all fun d => s.fitOk r d m e) then some (7, 0)
  else none

/-! ### Checks 6 and 7, loading (Parcels R261 to R263, R267, R268) -/

/-- A RUN of a key is on a district of a mask. -/
def RunSt.on (x : RunSt) (k : ParcelKey) (mask : Nat) : Bool := x.key == k && x.dists.any fun y => nbit mask y.d

/-- Check 6: another RUN of the key is on a named district, or another express RUN is armed (Express R359). -/
def State.runWaits (s : State) (m : Image) (mask : Nat) : Bool :=
  s.floor.runs.any fun x => x.on (hdrKey m.hdr) mask || (x.express && hdrExpress m.hdr)

/-- The body of a parcel as it is loaded: as stored, or, for an encrypted parcel whose key slot is ACTIVE, decrypted under that slot's key (R267); none where
it does not authenticate. -/
def State.plainBody (s : State) (m : Image) (x : Bytes) : Option Bytes :=
  let h := m.hdr
  if !hdrSealed h then some x
  else if nbits (s.rdN SECURE_KEY_STATE) (2 * hdrF h 0x3B 1 + 1) (2 * hdrF h 0x3B 1) != 1 then none
  else match SMap.get (fun _ => none) s.trust.keys (hdrF h 0x3B 1) with
    | none => none
    | some k => gcmOpen k.2 ((h.drop 0x40).take 12) (h.take 0x50 ++ m.entries ++ m.steps ++ m.nodes ++ m.walks) x ((h.drop 0x50).take 16)

/-- Check 7, made where some named district has a new allocation: the body to load (empty where none has), or why the RUN ends. A body that does not authenticate
leaves the ranges it was loaded into zero. -/
def State.bodyCheck (s : State) (f a mask : Nat) (m : Image) (b : BodyLoad) : Except (State × Nat × Nat) Bytes :=
  let new := (districtsOf mask).filter fun d => (s.allocOf d (hdrKey m.hdr)).isNone
  if new.isEmpty then .ok []
  else match s.addrRead f (a + hdrF m.hdr 0x18 4) (hdrBodyLen m.hdr) with
    | .error e => .error (s.readFail e)
    | .ok x =>
      if crc32c x != hdrF m.hdr 0x74 4 then .error (s, 0x8107, 0xFFFFFFFF)
      else match s.plainBody m x with
        | some y => .ok y
        | none => .error (s.each new fun s d => (match s.newAlloc d m b with | some x => s.zeroAlloc d x | none => s), 0x0E, 0)

/-- Set a walk record as the parcel declares it: valid, at its initial exponent, and with nothing left of an earlier record of its number (Numbers R240). -/
def State.initWalk (s : State) (d : Nat) (e : Bytes) : State :=
  (s.clearRecord d (fieldLE e 0 1)).wrN (FLOOR_WALK d (fieldLE e 0 1)) (2 ^ 31 + fieldLE e 1 1 * 2 ^ 29 + fieldLE e 4 1 * 256 + (fieldLE e 3 1 - 1) * 64 + fieldLE e 2 1 % 64)

/-- Load a part of the body through the copy engine of a district, or, for the express district, over the reserved express lane (R263). -/
def State.loadPart (s : State) (r seq d src : Nat) (p : Nat × Bytes) : State :=
  let k := s.ringClass r
  let s := if d = s.expressDistrict then s.traffic k (some (r, seq)) src p.2.length else s.portRead k (some (r, seq)) d src p.2.length
  (s.add64 (FLOOR_COPY_BYTES d) p.2.length).store p.1 p.2

/-- Make a parcel's allocation on a district and load its image there: the parts of the body that the parcel places in the allocation. `src` is the body's
address. -/
def State.allocate (s : State) (r seq src d : Nat) (m : Image) (b : BodyLoad) (body : Bytes) : State :=
  if (s.allocOf d (hdrKey m.hdr)).isSome then s
  else match s.newAlloc d m b with
    | none => s
    | some x =>
      let s := s.setAllocs d (s.allocs d ++ [x])
      let s := s.each (onesBelow x.arrive 16) fun s i => s.wrN (FLOOR_ARRIVE_CNT d i) 0
      let s := s.each (rowsOf m.walks 8) fun s e => s.initWalk d e
      s.each (b.parts.filter fun p => x.has d p.1 p.2.2) fun s p => s.loadPart r seq d (src + p.2.1) (p.1, (body.drop p.2.1).take p.2.2)

/-- The key slot with which a loaded body has been decrypted. -/
def loadSlot (m : Image) (body : Bytes) : Option Nat := if hdrSealed m.hdr && !body.isEmpty then some (hdrF m.hdr 0x3B 1) else none

/-- The RUN that has passed its checks. -/
def runOf (s : State) (r seq mask entry limit : Nat) (m : Image) (g : Binds) : RunSt :=
  { ring := r, seq := seq, key := hdrKey m.hdr
    dists := (districtsOf mask).map fun d => { d := d, since := s.round }
    steps := (rowsOf m.steps 8).map fun e => (fieldLE e 0 3, fieldLE e 4 2, fieldLE e 6 2)
    maxSteps := fieldLE (rowOf m.entries 16 entry) 4 4
    nodes := (fieldLE (rowOf m.entries 16 entry) 12 2, fieldLE (rowOf m.entries 16 entry) 14 2)
    walks := (rowsOf m.walks 8).map fun e => (fieldLE e 0 1, fieldLE e 5 1)
    maxCycles := m.maxCycles entry, limit := limit, events := g.events, sealed := hdrSealed m.hdr
    express := hdrExpress m.hdr, bands := g.bands }

/-! ### Breaks (Parcels R275 to R278) -/

/-- Whether a RUN with a POSTMARK fires the ring's break, and the break that stays armed. -/
def brkTest (b : Option Brk) (mark : Nat) : Bool × Option Brk :=
  match b with
  | none => (false, none)
  | some (.tag t) => if mark = t then (true, none) else (false, b)
  | some (.count t n seen) =>
    if t != 0 && mark != t then (false, b) else if n ≤ seen + 1 then (true, none) else (false, some (.count t n (seen + 1)))

/-- Arm or remove a ring's break. -/
def State.setBrk (s : State) (r : Nat) (b : Option Brk) : State := s.setRing r { s.ring r with brk := b }

/-- A RUN that has passed its checks: it breaks, or begins, or is armed. -/
def State.beginRun (s : State) (x : RunSt) (mark : Nat) : State :=
  let t := brkTest (s.ring x.ring).brk mark
  let s := (s.setBrk x.ring t.2).setFloor fun f => { f with runs := f.runs ++ [x] }
  if t.1 then s.failRun x.ring x.seq 0x8109 0xFFFF0000 else s

/-- The traffic of the header and the public tables of an image at an address. -/
def State.tableTraffic (s : State) (r seq a : Nat) (h : Bytes) : State :=
  (s.ringTraffic r seq a 128).each (hdrTables h) fun s p => s.ringTraffic r seq (a + p.2.1) p.2.2

/-- The traffic of what a RUN reads of its image and its arguments. -/
def State.imageTraffic (s : State) (r seq : Nat) (env : Bytes) (h : Bytes) : State :=
  let s := s.tableTraffic r seq (Env.parcel env) h
  if Env.entry env = 0xFFFF then s else s.ringTraffic r seq (Env.args env) (Env.argLen env)

/-- Checks 5 to 7 of a RUN that has passed the ones before: it ends with the status of the first that fails, waits for another RUN or for the firmware of its
districts, or begins. A RUN that waits is checked again from here (R262). -/
def State.runRoom (s : State) (r seq : Nat) (env : Bytes) (b : BodyLoad) (m : Image) (g : Binds) : State :=
  let f := s.ringFn r
  let mask := Env.districts env
  let wait := s.setFloor fun x => { x with waiting := x.waiting.filter (fun w => !(w.ring == r && w.seq == seq)) ++ [⟨r, seq, m, g⟩] }
  let go := s.setFloor fun x => { x with waiting := x.waiting.filter fun w => !(w.ring == r && w.seq == seq) }
  match s.placeCheck r m.hdr mask with
  | some x => if x.1 = 0x8102 && (districtsOf mask).any (fun d => (s.domUp d && !s.fwRunning (3 + d)) || s.preparing d) then wait else go.complete r seq x.1 x.2
  | none =>
    if (districtsOf mask).any (fun d => !s.fwRunning (3 + d) || s.preparing d) || !s.fwRunning 0 then wait
    else match s.roomCheck r mask m (Env.entry env) b with
      | some x => go.complete r seq x.1 x.2
      | none =>
        if s.runWaits m mask then wait
        else match go.bodyCheck f (Env.parcel env) mask m b with
          | .error x => x.1.complete r seq x.2.1 x.2.2
          | .ok body => (go.each (districtsOf mask) fun s d => s.allocate r seq (Env.parcel env + hdrF m.hdr 0x18 4) d m b body).beginRun
              { runOf s r seq mask (Env.entry env) (Env.stepLimit env) m g with keySlot := loadSlot m body } (Env.postmark env)

/-- A started RUN makes its checks in order (Parcels Table 8.5). -/
def State.runEnvelope (s : State) (r seq : Nat) (env : Bytes) (b : BodyLoad) : State :=
  match s.readImage (s.ringFn r) (Env.parcel env) with
  | .error x => x.1.complete r seq x.2.1 x.2.2
  | .ok m =>
    match s.argCheck (s.ringFn r) m env (s.get (RINGS_CFG_CLASS r) == 0) with
    | .error x => x.1.complete r seq x.2.1 x.2.2
    | .ok g => (s.imageTraffic r seq env m.hdr).runRoom r seq env b m g

/-- A RUN that has not begun goes on with its checks: from check 5 where it has waited there. -/
def State.runGo (s : State) (r seq : Nat) (env : Bytes) (b : BodyLoad) : State :=
  match s.floor.waiting.find? fun w => w.ring == r && w.seq == seq with
  | some w => s.runRoom r seq env b w.image w.binds
  | none => s.runEnvelope r seq env b

def execRun (r : Ring) (seq : Nat) (b : BodyLoad) (s : State) : Host.Outcome State Fault Refusal :=
  .next (match s.startedOf r seq 1 with
    | some f => if Env.entry f.env = 0xFFFF || (s.runSt r seq).isSome then s else s.runGo r seq f.env b
    | none => s)

/-! ### Release (Parcels R264) -/

/-- The districts of a mask that a release cannot free: held, or with a RUN of the key on them. -/
def State.busyMask (s : State) (k : ParcelKey) (mask : Nat) : Nat :=
  ((districtsOf mask).filter fun d => s.isHeld d || s.floor.runs.any fun x => x.on k (2 ^ d)).foldl (fun a d => a + 2 ^ d) 0

/-- A release makes its checks and frees the allocations of its key. -/
def State.releaseEnvelope (s : State) (r seq : Nat) (env : Bytes) : State :=
  let mask := Env.districts env
  match s.readImage (s.ringFn r) (Env.parcel env) with
  | .error x => x.1.complete r seq x.2.1 x.2.2
  | .ok m =>
    let s := s.imageTraffic r seq env m.hdr
    match s.placeCheck r m.hdr mask with
    | some x => s.complete r seq x.1 x.2
    | none =>
      let k := hdrKey m.hdr
      if !s.fwRunning 0 then s
      else if s.busyMask k mask != 0 then s.complete r seq 0x810D (s.busyMask k mask)
      else
        let ds := (districtsOf mask).filter fun d => (s.allocOf d k).isSome
        (s.each ds fun s d => s.freeAlloc d k).complete r seq 0 (ds.foldl (fun a d => a + 2 ^ d) 0)

def execRunRelease (r : Ring) (seq : Nat) (s : State) : Host.Outcome State Fault Refusal :=
  .next (match s.startedOf r seq 1 with
    | some f => if Env.entry f.env = 0xFFFF then s.releaseEnvelope r seq f.env else s
    | none => s)

end Sys2Proof.Machine
end

