-- ==== Sys2Proof/Machine/FloorCmds.lean ====
section
/-! DEFINITION. The commands of the districts (Districts §1, §3, §8; Numbers §6; Parcels §7, §8) but for the start and end of their units. -/

namespace Sys2Proof.Machine
open Reg

/-! ### COPY (Districts R208 to R210, R222) -/

/-- The district whose part of the SRAM window an address lies in. -/
def sramOf (a : Nat) : Option Nat := if !isHostAddr a && inSram a 1 then sramDistrict a else none

/-- The read of one row of a COPY: zeros where sealed. -/
def State.copyRead (s : State) (f a n : Nat) : Except (State × Nat) (State × Bytes) :=
  if isRelayAddr a then .error (s, 3)
  else match s.addrCheck f a n with
    | some e => .error (s.accReport e, 3)
    | none =>
      if isHostAddr a then .ok (s, s.rdHost (a % 2 ^ 63) n)
      else
        let s := s.eccRead a n
        if s.poisoned a n then .error (s, 0x0A) else .ok (s.outsideRead a n)

/-- The write of one row of a COPY: discarded where sealed, and sent over the relay link for another module. -/
def State.copyWrite (s : State) (r seq a : Nat) (b : Bytes) : Except (State × Nat) State :=
  let f := s.ringFn r
  if isRelayAddr a then
    if s.inWindow f a b.length && s.relayAddrOk a b.length then .ok (s.relayWrite r seq a none b) else .error (s, 3)
  else match s.addrCheck f a b.length with
    | some e => .error (s.accReport e, 3)
    | none => .ok (if isHostAddr a then s.wrHost (a % 2 ^ 63) b else s.outsideWrite a b)

/-- What a COPY moves in one burst: a part of a row, from `src` to `dst`, or a tile of 16 rows in the stream-skewed layout. -/
inductive CopyItem where
  | piece (src dst n : Nat)
  | tile (g : Nat)
  deriving DecidableEq, Repr

/-- A row of `n` bytes in pieces of up to 64, in ascending order (log entry 155); a row for another module goes as one transfer. -/
def rowItems (src dst n : Nat) : List CopyItem :=
  if isRelayAddr dst then [.piece src dst n]
  else (List.range ((n + 63) / 64)).map fun i => .piece (src + 64 * i) (dst + 64 * i) (min 64 (n - 64 * i))

/-- All that a COPY moves, in order. -/
def copyItems (e : Bytes) : List CopyItem :=
  if Env.mode e = 2 then (List.range (Env.rows e / 16)).map .tile
  else (List.range (Env.rows e)).flatMap fun i => rowItems (Env.src e + i * Env.srcStride e) (Env.dst e + i * Env.dstStride e) (Env.len e)

/-- Element `k` of a packed row of 16 elements of `bits` bits. -/
def rowElem (b : Bytes) (bits k : Nat) : Nat := nbits (leNat b) (bits * k + bits - 1) (bits * k)

/-- Feeder word `t` of the stream-skewed layout of a tile of 16 rows: lane e holds element t − e of row e, or zero (Districts R210). -/
def skewWord (rows : List Bytes) (len t : Nat) : Bytes :=
  let bits := len / 2
  leBytes len ((List.range 16).foldl (fun a e =>
    a + (if decide (e ≤ t) && decide (t - e < 16) then rowElem (rows.getD e []) bits (t - e) * 2 ^ (bits * e) else 0)) 0)

/-- The rows of a tile, read in order. -/
def State.readRows (s : State) (f n : Nat) : List Nat → Except (State × Nat) (State × List Bytes)
  | [] => .ok (s, [])
  | a :: t => match s.copyRead f a n with
    | .error e => .error e
    | .ok y => match State.readRows y.1 f n t with
      | .error e => .error e
      | .ok z => .ok (z.1, y.2 :: z.2)

/-- A tile of the stream-skewed layout: 31 feeder words. -/
def skewTile (rows : List Bytes) (len : Nat) : Bytes := (List.range 31).flatMap (skewWord rows len)

/-- The district whose copy engine carries a COPY out (Districts R209). -/
def copyEngine (e : Bytes) : Option Nat := match sramOf (Env.dst e) with
  | some d => some d
  | none => sramOf (Env.src e)

/-- The mesh router at which an address is reached (Districts Table 6.6). -/
def meshPlace (a : Nat) : Nat := if isHostAddr a then meshHost else if isRelayAddr a then meshRelay else (sramOf a).getD (memPort a)

/-- The class of a COPY: its ring's, or bulk where a unit has held it (Districts R208). -/
def State.copyClass (s : State) (r seq : Nat) : Nat := match s.flight r seq with
  | some f => if f.held then 3 else s.ringClass r
  | none => s.ringClass r

/-- DRAM traffic of a COPY. -/
def State.copyTraffic (s : State) (r seq a n : Nat) : State := s.traffic (s.copyClass r seq) (some (r, seq)) a n

/-- What a move of `n` bytes by a COPY from an address to another counts: the DRAM traffic of its write, and, for a district's copy engine, the bytes that it
moves and those that cross the general lanes. -/
def State.copyCost (s : State) (r seq : Nat) (e : Bytes) (src dst n : Nat) : State :=
  let k := s.copyClass r seq
  let s := s.copyTraffic r seq dst n
  match copyEngine e with
  | none => s
  | some d =>
    let s := s.add64 (FLOOR_COPY_BYTES d) n
    if sramOf src == sramOf dst then s else s.meshMove k (some (r, seq)) (meshPlace src) (meshPlace dst) n

/-- Move one piece or tile. -/
def State.copyItem (s : State) (r seq : Nat) (e : Bytes) : CopyItem → Except (State × Nat) State
  | .piece src dst n => match s.copyRead (s.ringFn r) src n with
    | .error x => .error x
    | .ok y => (y.1.copyWrite r seq dst y.2).map fun s => (s.copyTraffic r seq src n).copyCost r seq e src dst n
  | .tile g =>
    let rows := (List.range 16).map fun i => Env.src e + (16 * g + i) * Env.srcStride e
    let dst := Env.dst e + g * Env.dstStride e
    match s.readRows (s.ringFn r) (Env.len e) rows with
    | .error x => .error x
    | .ok y => (y.1.copyWrite r seq dst (skewTile y.2 (Env.len e))).map fun s =>
        (s.each rows fun s a => s.copyTraffic r seq a (Env.len e)).copyCost r seq e (Env.src e + 16 * g * Env.srcStride e) dst
          (31 * Env.len e)

/-- A COPY goes on until all is moved, or until a burst of it waits for the budget of its class. -/
def State.copyGo (s : State) (r seq : Nat) (e : Bytes) : List CopyItem → Except (State × Nat) State
  | [] => .ok s
  | x :: t =>
    if s.memWaits r seq then .ok s
    else match s.copyItem r seq e x with
      | .error y => .error y
      | .ok s' => State.copyGo (s'.setFlight r seq fun f => { f with prog := f.prog + 1 }) r seq e t

/-- The fields of a stream-skewed COPY are in range (Districts R210). -/
def skewOk (e : Bytes) : Bool :=
  [8, 16, 32].contains (Env.len e) && Env.rows e % 16 == 0 && decide (31 * Env.len e ≤ Env.dstStride e) && Env.dstStride e % 32 == 0

/-- A unit runs in a district that the COPY reaches, so that it waits (Districts R208, R209). -/
def State.copyWaits (s : State) (e : Bytes) : Bool :=
  [sramOf (Env.dst e), sramOf (Env.src e)].any fun d => match d with
    | some d => (s.dunit d).isSome
    | none => false

/-- A COPY that has moved all ends, unless a transfer of its own awaits its acknowledgement. -/
def State.copyEnd (s : State) (r seq : Nat) : State :=
  match s.startedOf r seq 2 with
  | some f => if decide ((copyItems f.env).length ≤ f.prog) && !s.relayOpen r seq && !s.memWaits r seq then s.finish r seq 0 0 else s
  | none => s

/-- A started COPY goes on, and ends once all is moved. While bursts of it wait it does nothing; while a unit runs in its way it is held. -/
def State.copyEnvelope (s : State) (r seq : Nat) (e : Bytes) (prog : Nat) : State :=
  if Env.mode e = 2 && !skewOk e then s.complete r seq 1 0
  else if Env.mode e = 2 && Env.dst e % 32 != 0 then s.complete r seq 3 0
  else if s.copyWaits e then s.setFlight r seq fun f => { f with held := true }
  else match s.copyGo r seq e ((copyItems e).drop prog) with
    | .error y => ((y.1.relayForget r seq).memForget r seq).complete r seq y.2 0
    | .ok s' => s'.copyEnd r seq

def execCopy (r : Ring) (seq : Nat) (s : State) : Host.Outcome State Fault Refusal :=
  .next (match s.startedOf r seq 2 with
    | some f => s.copyEnvelope r seq f.env f.prog
    | none => s)

/-! ### Inbound writes (Districts R207, R217, R221; Numbers R245) -/

/-- The last byte of an inbound tile has been written. -/
def State.arrive (s : State) (d : Nat) (counter : Option Nat) (n : Nat) : State :=
  let s := s.add64 (FLOOR_INBOUND_BYTES d) n
  match counter with
  | some i => s.addSat (FLOOR_ARRIVE_CNT d i) 1
  | none => s

/-- A tile from a RUN on one district into another's sorting cache: written, or refused for the express district, a district that is down, and
an address outside the parcel's allocation. -/
def State.inboundPut (s : State) (r seq from_ addr : Nat) (counter : Option Nat) (b : Bytes) : Except (State × Nat) State :=
  match s.runSt r seq, (if decide (0x8020000000 ≤ addr) then sramOf addr else none) with
  | some x, some d =>
    if d = s.expressDistrict then .error (s, 3)
    else if !s.domUp d then .error (s.accReport (.domainDown d), 3)
    else match s.allocOf d x.key with
      | none => .error (s, 3)
      | some a =>
        if !a.has d addr b.length then .error (s, 3)
        else .ok (((s.store addr b).arrive d counter b.length).meshMove (s.ringClass r) (some (r, seq)) from_ d b.length)
  | _, _ => .error (s, 3)

/-- An inbound tile that its sender's copy engine has moved; one that is refused ends the sending RUN. -/
def State.inbound (s : State) (r seq from_ addr : Nat) (counter : Option Nat) (b : Bytes) : State :=
  match s.inboundPut r seq from_ addr counter b with
  | .ok s' => s'.add64 (FLOOR_COPY_BYTES from_) b.length
  | .error e => e.1.failRun r seq e.2 0

def execInboundWrite (r : Ring) (seq : Nat) (from_ : Fin 16) (addr : Nat) (counter : Fin 16) (data : Bytes) (s : State) :
    Host.Outcome State Fault Refusal :=
  .next (match s.runSt r seq with
    | some x => if x.fail.isNone && x.dists.any (fun y => y.d == from_.val) then s.inbound r seq from_ addr (some counter.val) data else s
    | none => s)

/-! ### Time limits (Districts R224, R225) -/

/-- A step of a RUN waits for an arrival ARRIVE_LIMIT rounds after its predecessor ended, or its RUN began. -/
def State.arrivalLate (s : State) (x : DRun) : Bool :=
  let n := s.cfg ⟨FLOOR_ARRIVE_LIMIT, 31, 0⟩
  x.waits && n != 0 && decide (x.since + n ≤ s.round)

def execArrivalTimeout (d : Fin 16) (r : Ring) (seq : Nat) (s : State) : Host.Outcome State Fault Refusal :=
  .next (match s.runSt r seq with
    | some x => match x.dists.find? fun y => y.d == d.val with
      | some y => if x.fail.isNone && !y.stopped && s.arrivalLate y then ((s.setDrun r seq d fun z => { z with waits := false }).syncWaits d).failRun r seq 0x8104 0
        else s
      | none => s
    | none => s)

/-- A relay transfer of an envelope has not been acknowledged within 100 rounds. -/
def State.relayLate (s : State) (r seq : Nat) (signal : Bool) : Bool :=
  s.relay.ops.any fun o => o.ring == r && o.seq == seq && o.signal == signal && decide (o.round + 100 ≤ s.round)

def execRelayWriteTimeout (r : Ring) (seq : Nat) (s : State) : Host.Outcome State Fault Refusal :=
  .next (if !s.relayLate r seq false then s
    else if (s.runSt r seq).isSome then s.failRun r seq 0x0D 0
    else match s.startedOf r seq 2 with
      | some _ => (s.relayForget r seq).finish r seq 0x0D 0
      | none => s)

/-! ### The scale walk (Numbers R242 to R248) -/

/-- A write of FLOOR.WALK.K waits for the record's first walk boundary after the next round boundary; one to a record that is not allocated is
discarded. -/
def State.walkWrite (s : State) (q : Req) (d rec v : Nat) : State :=
  if s.path q && s.domUp d && s.on (FLOOR_WALK_VALID d rec) then
    s.setFloor fun f =>
      { f with walkK := SMap.set (fun _ => []) f.walkK (64 * d + rec) (SMap.get (fun _ => []) f.walkK (64 * d + rec) ++ [(v % 64, s.round)]) }
  else s

def execWalkKWrite (q : Req) (d : Fin 16) (rec : Fin 64) (v : Nat) (s : State) : Host.Outcome State Fault Refusal :=
  .next (s.landing q (FLOOR_WALK d rec) fun s => s.walkWrite q d rec v)

/-- The k after an event: it rises by UP to at most 31. -/
def walkUp (k : Int) (up : Nat) : Int := if 31 < k + up then 31 else k + up

/-- The k after W clean steps: it falls by 1 to at least −32. -/
def walkDown (k : Int) : Int := if k - 1 < -32 then -32 else k - 1

/-- An event while k is 31 is reported (Numbers R246). -/
def State.walkCeiling (s : State) (d rec : Nat) (event : Bool) : State :=
  if event && toSigned 6 (s.get (FLOOR_WALK_K d rec)) == 31 then
    (s.setBit FLOOR_WALK_CEIL d true).report { code := Code.WALK_CEILING, unit := d, detail := rec } else s

/-- The update of a walked record at a walk boundary, from the step's event (Numbers R242). -/
def State.walkUpdate (s : State) (d rec : Nat) (event written : Bool) : State :=
  let k := toSigned 6 (s.get (FLOOR_WALK_K d rec))
  if s.on (FLOOR_WALK_FIXED d rec) then s
  else if event then
    (s.put (FLOOR_WALK_K d rec) (ofSigned 6 (walkUp k (s.get (FLOOR_WALK_UP_M1 d rec) + 1)))).put (FLOOR_WALK_CLEAN d rec) 0
  else if written then
    let c := s.get (FLOOR_WALK_CLEAN d rec) + 1
    if c = s.get (FLOOR_WALK_W d rec) then (s.put (FLOOR_WALK_K d rec) (ofSigned 6 (walkDown k))).put (FLOOR_WALK_CLEAN d rec) 0
    else s.put (FLOOR_WALK_CLEAN d rec) c
  else s

/-- A walk boundary of a record: EVENT takes the step's event, and one at k = 31 is reported (Numbers R246). While HOLD is 1 neither k nor the clean count changes
(R247), so that a written K goes on waiting (log entry 52); otherwise one that is due takes the place of the update (R248). -/
def State.walkBoundary (s : State) (d rec : Nat) (event written : Bool) : State :=
  if !s.on (FLOOR_WALK_VALID d rec) then s
  else
    let s := (s.putB (FLOOR_WALK_EVENT d rec) event).walkCeiling d rec event
    let p := SMap.get (fun _ => []) s.floor.walkK (64 * d + rec)
    if s.cfgOn FLOOR_WALK_CTRL_HOLD then s
    else match (p.filter fun x => decide (x.2 < s.round)).getLast? with
    | some x =>
      let s := s.setFloor fun f => { f with walkK := SMap.set (fun _ => []) f.walkK (64 * d + rec) (p.filter fun x => decide (s.round ≤ x.2)) }
      (s.put (FLOOR_WALK_K d rec) x.1).put (FLOOR_WALK_CLEAN d rec) 0
    | none => s.walkUpdate d rec event written

/-! ### POSTMARK (Parcels R275, R278) -/

/-- A started POSTMARK of an action: it acts on its ring and completes at once. Arming is denied on an express ring. -/
def State.postmark (s : State) (r seq action : Nat) (act : State → Bytes → State) : State :=
  match s.startedOf r seq 8 with
  | none => s
  | some f =>
    if fieldLE f.env 0x18 4 != action then s
    else if (action = 1 || action = 2) && s.get (RINGS_CFG_CLASS r) == 0 then s.complete r seq 0x8801 0
    else (act s f.env).complete r seq 0 0

def execPostmarkMark (r : Ring) (seq : Nat) (s : State) : Host.Outcome State Fault Refusal :=
  .next (s.postmark r seq 0 fun s e => s.stamp 3 (r + fieldLE e 0x1C 2 * 65536) (fieldLE e 0x20 4) (fieldLE e 0x24 4))

def execArmBreakOnTag (r : Ring) (seq : Nat) (s : State) : Host.Outcome State Fault Refusal :=
  .next (s.postmark r seq 1 fun s e => s.setBrk r (some (.tag (fieldLE e 0x1C 2))))

def execArmBreakOnCount (r : Ring) (seq : Nat) (s : State) : Host.Outcome State Fault Refusal :=
  .next (s.postmark r seq 2 fun s e => s.setBrk r (some (.count (fieldLE e 0x1C 2) (fieldLE e 0x20 8) 0)))

def execDisarm (r : Ring) (seq : Nat) (s : State) : Host.Outcome State Fault Refusal :=
  .next (s.postmark r seq 3 fun s _ => s.setBrk r none)

/-! ### Holds and readout (Parcels R281 to R283) -/

/-- A write of DEBUG_RELEASE, which acts from the next round boundary (Scope R21). -/
def State.releaseWrite (s : State) (q : Req) (v : Nat) : State :=
  if q.reachesRegs && s.spineUp then
    s.setFloor fun f => { f with release := (BitVec.ofNat 16 f.release ||| BitVec.ofNat 16 v).toNat } else s

def execDebugRelease (q : Req) (v : Nat) (s : State) : Host.Outcome State Fault Refusal :=
  .next (s.landing q FLOOR_DEBUG_RELEASE fun s => s.releaseWrite q v)

/-- The releases written end their holds at the boundary. -/
def State.releaseBoundary (s : State) : State :=
  let m := s.floor.release
  (s.setFloor fun f => { f with release := 0 }).each (districtsOf m) fun s d => s.releaseHold d

/-- A hold ends DEBUG_HOLD_LIMIT rounds after it began; 0 sets no limit. -/
def execDebugHoldExpired (d : Fin 16) (s : State) : Host.Outcome State Fault Refusal :=
  let n := s.cfg ⟨FLOOR_DEBUG_HOLD_LIMIT, 31, 0⟩
  .next (match SMap.get (fun _ => none) s.floor.holds d.val with
    | some c => if n != 0 && decide (c + n ≤ s.round) then (s.releaseHold d).report { code := Code.DEBUG_HOLD_EXPIRED, unit := d } else s
    | none => s)

/-- A write of DBG_SEL; its selection takes effect at the next round boundary. -/
def State.selWrite (s : State) (q : Req) (v : Nat) : State :=
  if q.reachesRegs && s.spineUp then
    (s.wrN FLOOR_DBG_SEL (andNat v 0x0FFF07FF + (if s.on FLOOR_DBG_SEL_VALID then 2 ^ 31 else 0))).setFloor fun f => { f with dbgPend := true }
  else s

def execDbgSelWrite (q : Req) (v : Nat) (s : State) : Host.Outcome State Fault Refusal :=
  .next (s.landing q FLOOR_DBG_SEL fun s => s.selWrite q v)

/-- The 16 values of a readout (Parcels Table 8.11). -/
def State.readout (s : State) (d cl res i : Nat) : List Nat :=
  let k := s.clerk (clerkOf d cl)
  if res ≤ 1 then (if i < 16 then (List.range 16).map fun j => k.cell res i j else [])
  else if res = 2 then (if i < 32 then k.lanes i else [])
  else if res = 3 then
    (if i < 4 then (List.range 16).map fun j => match k.inbox[16 * i + j]? with | some a => 2 ^ 31 + a | none => 0 else [])
  else if res = 4 then
    (if i < 16 then (List.range 4).map fun j => fieldLE (SMap.get (fun _ => []) k.books i) (4 * j) 4 else [])
  else if res = 5 then
    (if i = 0 then [k.pc % 2 ^ 32, k.halt, min (SMap.get (fun _ => 0) s.floor.lastSteps d) 0xFFFFFFFF, s.get (FLOOR_DEBUG_STATE_NODE d)] else [])
  else []

/-- The selection takes effect: zeros and VALID 0 for a district that is not held, zeros for the registers of an encrypted parcel. -/
def State.dbgBoundary (s : State) : State :=
  if !s.floor.dbgPend then s
  else
    let d := s.get FLOOR_DBG_SEL_DISTRICT
    let res := s.get FLOOR_DBG_SEL_RESOURCE
    let hide := res != 5 && s.on (FLOOR_DEBUG_STATE_ENCRYPTED d)
    let ok := s.isHeld d && decide (res ≤ 5)
    let l := if ok && !hide then s.readout d (s.get FLOOR_DBG_SEL_CLERK) res (s.get FLOOR_DBG_SEL_INDEX) else []
    (s.putB FLOOR_DBG_SEL_VALID ok).setFloor fun f => { f with dbgPend := false, dbg := l }

end Sys2Proof.Machine
end

