-- ==== Sys2Proof/Machine/Steps.lean ====
section
/-! DEFINITION. What a postmaster does for a step of a parcel, on any district (Districts §2, §3; Numbers §6): address streams, segment loads, the copy program, and
walk boundaries. -/

namespace Sys2Proof.Machine
open Reg

/-! ### Address streams (Districts R198 to R200) -/

/-- The addresses that a stream generator makes. -/
def genTotal (g : StreamGen) : Nat := (g.loops.map fun l => l.count).foldl (· * ·) 1

/-- Address `i` of a stream generator, the innermost loop first: arithmetic is modulo 2^17. -/
def genAddr (g : StreamGen) (i : Nat) : Nat :=
  ofSigned 17 (g.loops.foldr (fun l (x : Nat × Int) => (x.1 / l.count, x.2 + ((x.1 % l.count : Nat) : Int) * l.stride)) (i, (g.base : Int))).2

/-- The generators' sequences merged in the order that a stream program gives, at most 4,096 entries. A generator that is at its end gives none. -/
def progAddrs (p : StepProg) : List SeqAddr :=
  ((p.merge.foldl (fun (x : List Nat × List SeqAddr) m =>
    let i := x.1.getD m.1.val 0
    (x.1.set m.1.val (i + 1), match p.gens[m.1.val]? with
      | some g => if i < genTotal g then ⟨genAddr g i, m.2⟩ :: x.2 else x.2
      | none => x.2)) (List.replicate 8 0, [])).2.reverse).take 4096

/-- The sequences of a district that some clerk has still to take addresses from. -/
def State.liveSeqs (s : State) (d : Nat) : List StepSeq :=
  (SMap.get (fun _ => []) s.floor.streams d).filter fun q => (List.range 256).any fun l => (s.clerk (clerkOf d l)).seqs.any fun p => p.no == q.no

/-- The postmaster writes a step's sequence into the free half of the stream buffer, and every clerk of the step is to take it, with its own band offsets. -/
def State.writeSeq (s : State) (d ring seq clerks : Nat) (p : StepProg) : State :=
  let addrs := progAddrs p
  if addrs.isEmpty then s
  else
    let no := s.floor.seqNo
    let live := s.liveSeqs d
    let s := s.setFloor fun f => { f with seqNo := no + 1, streams := SMap.set (fun _ => []) f.streams d (live ++ [⟨no, ring, seq, addrs⟩]) }
    s.each (onesBelow clerks 256) fun s l =>
      let k := s.clerk (clerkOf d l)
      let bands := match p.bands.find? fun x => x.1 == l with | some x => x.2 | none => []
      s.setClerk (clerkOf d l) { k with seqs := k.seqs ++ [⟨no, 0, bands⟩] }

/-! ### The copy engine under a parcel's copy program (Districts R206, R207, R210; Clerks R180) -/

/-- A district, other than the express district, in whose sorting cache an address range lies inside the parcel's allocation. -/
def State.cacheOf (s : State) (k : ParcelKey) (a n : Nat) : Option Nat :=
  (if decide (0x8020000000 ≤ a) then sramOf a else none).filter fun d =>
    d != s.expressDistrict && s.domUp d && (match s.allocOf d k with | some x => x.has d a n | none => false)

/-- The range lies in the part of the SRAM window that the district's own allocation has. -/
def Alloc.own (x : Alloc) (d a n : Nat) : Bool := inSram a n && x.has d a n

/-- A move meets a poisoned word: one in a store halts its clerk. -/
def State.moveBad (s : State) (a : Nat) : State × Nat :=
  (if decide (0x8000000000 ≤ a) && decide (a < 0x8020000000) then s.haltMark ((a - 0x8000000000) / 0x20000) true else s, 0x0A)

/-- A move reads its own district's ranges of the allocation, the parcel's ranges of another district's sorting cache, or DRAM. What does not come from its own
district comes over the mesh. -/
def State.moveRead (s : State) (ring seq d : Nat) (x : Alloc) (a n : Nat) : Except (State × Nat) (State × Bytes) :=
  let k := s.ringClass ring
  let place := if x.own d a n then some d else s.cacheOf x.key a n
  match place with
  | some p =>
    let s := s.eccRead a n
    if s.poisoned a n then .error (s.moveBad a)
    else .ok (if p = d then s else s.meshMove k (some (ring, seq)) p d n, s.rdMem a n)
  | none =>
    if inDram a then
      match s.fnRead (s.ringFn ring) a n with
      | .ok b => .ok (s.portRead k (some (ring, seq)) d a n, b)
      | .error .poison => .error (s, 0x0A)
      | .error e => .error (s.accReport e, 3)
    else .error (s, 3)

/-- A clerk-local bit of a walk record, over the clerks of a district. -/
def State.anyClerk (s : State) (d t : Nat) (f : Clerk → Nat) : Bool := (List.range 256).any fun l => nbit (f (s.clerk (clerkOf d l))) t

/-- The event tile of a walk record: bit 0 its event bit, bit 1 whether the tensor was written (log entry 161). -/
def State.eventTile (s : State) (d t n : Nat) : Bytes :=
  leBytes n ((if s.anyClerk d t Clerk.events then 1 else 0) + (if s.anyClerk d t Clerk.written then 2 else 0))

/-- The rows of a skewed tile. -/
def State.moveRows (s : State) (ring seq d : Nat) (x : Alloc) (n : Nat) : List Nat → Except (State × Nat) (State × List Bytes)
  | [] => .ok (s, [])
  | a :: t => match s.moveRead ring seq d x a n with
    | .error e => .error e
    | .ok y => match State.moveRows y.1 ring seq d x n t with
      | .error e => .error e
      | .ok z => .ok (z.1, y.2 :: z.2)

/-- What a move gathers: pieces with their offsets from its destination. -/
def State.moveData (s : State) (ring seq d : Nat) (x : Alloc) (m : CopyMove) : Except (State × Nat) (State × List (Nat × Bytes)) :=
  match m.src, m.skew with
  | .event t, _ => .ok (s, [(0, s.eventTile d t m.len)])
  | .at_ a, none => (s.moveRead ring seq d x a m.len).map fun y => (y.1, [(0, y.2)])
  | .at_ a, some k =>
    (s.moveRows ring seq d x m.len ((List.range k.1).map fun i => a + i * k.2.1)).map fun y =>
      (y.1, (List.range (k.1 / 16)).map fun g => (g * k.2.2, skewTile ((y.2.drop (16 * g)).take 16) m.len))

/-- A move writes its own district's ranges of the allocation, DRAM, the relay window, or, as an inbound tile, the sorting cache of another district. -/
def State.moveWrite (s : State) (ring seq d : Nat) (x : Alloc) (counter : Option Nat) (a : Nat) (b : Bytes) : Except (State × Nat) State :=
  let k := s.ringClass ring
  if x.own d a b.length then .ok (s.store a b)
  else if isRelayAddr a then
    if s.inWindow (s.ringFn ring) a b.length && s.relayAddrOk a b.length then
      .ok ((s.meshMove k (some (ring, seq)) d meshRelay b.length).relayWrite ring seq a counter b) else .error (s, 3)
  else if inDram a then
    match s.fnWrite (s.ringFn ring) a b with
    | (s', none) => .ok (s'.portWrite k (some (ring, seq)) d a b.length)
    | (s', some _) => .error (s', 3)
  else s.inboundPut ring seq d a counter b

/-- The places that a move writes: one address, or one offset of the allocation's range in several stores of the district. -/
def movePlaces (d : Nat) : MoveDst → List Nat
  | .at_ a => [a]
  | .stores clerks off => (clerksOf d clerks).map fun c => storeAddr c + off

/-- Write the pieces of a move, each at every place. -/
def State.moveOut (s : State) (ring seq d : Nat) (x : Alloc) (counter : Option Nat) : List (Nat × Bytes) → Except (State × Nat) State
  | [] => .ok s
  | p :: t => match s.moveWrite ring seq d x counter p.1 p.2 with
    | .error e => .error e
    | .ok s' => State.moveOut s' ring seq d x counter t

/-- A move of a step's copy program. FLOOR.COPY_BYTES counts its bytes once, also where it goes to several stores. -/
def State.move (s : State) (ring seq d : Nat) (x : Alloc) (m : CopyMove) : Except (State × Nat) State :=
  match s.moveData ring seq d x m with
  | .error e => .error e
  | .ok y =>
    let out := (movePlaces d m.dst).flatMap fun a => y.2.map fun p => (a + p.1, p.2)
    (y.1.moveOut ring seq d x (m.counter.map Fin.val) out).map fun s =>
      s.add64 (FLOOR_COPY_BYTES d) ((y.2.map fun p => p.2.length).foldl (· + ·) 0)

/-- Moves in order, up to the first that ends the RUN. -/
def State.moves (s : State) (ring seq d : Nat) (x : Alloc) : List CopyMove → Except (State × Nat) State
  | [] => .ok s
  | m :: t => match s.move ring seq d x m with
    | .ok s' => State.moves s' ring seq d x t
    | .error e => .error e

/-! ### Instruction loading (Districts R202) -/

/-- What is left of a loaded range where `[off, off + len)` is loaded over it. -/
def cutRange (off len : Nat) (x : Nat × Nat × Nat) : List (Nat × Nat × Nat) :=
  if x.1 + x.2.1 ≤ off || off + len ≤ x.1 then [x]
  else (if x.1 < off then [(x.1, off - x.1, x.2.2)] else []) ++
    (if off + len < x.1 + x.2.1 then [(off + len, x.1 + x.2.1 - (off + len), x.2.2 + (off + len - x.1))] else [])

/-- A segment goes into an instruction buffer. -/
def Clerk.loadCode (k : Clerk) (g : SegLoad) (b : Bytes) : Clerk := { k with
  ibuf := b.zipIdx.foldl (fun m x => SMap.set (fun _ => 0) m (g.off + x.2) x.1) k.ibuf
  loaded := (k.loaded.flatMap (cutRange g.off g.len)) ++ [(g.off, g.len, g.src)] }

/-- The segment loads of a step, by broadcast, from the parcel's range of the district's sorting cache. -/
def State.loadSegs (s : State) (d clerks : Nat) (x : Alloc) : List SegLoad → Except (State × Nat) State
  | [] => .ok s
  | g :: t =>
    if !(decide (0x8020000000 ≤ g.src) && x.own d g.src g.len) then .error (s, 3)
    else
      let s := s.eccRead g.src g.len
      if s.poisoned g.src g.len then .error (s, 0x0A)
      else
        let b := s.rdMem g.src g.len
        State.loadSegs (s.each (clerksOf d clerks) fun s c => s.setClerk c ((s.clerk c).loadCode g b)) d clerks x t

/-- The segment loads and the copies made as a step starts. -/
def State.stepHead (s : State) (ring seq d clerks : Nat) (key : ParcelKey) (p : StepProg) : Except (State × Nat) State :=
  match s.allocOf d key with
  | none => .ok s
  | some a => match s.loadSegs d clerks a p.segs with
    | .error e => .error e
    | .ok s' => s'.moves ring seq d a p.moves

/-- A clerk is released into a step (Districts R195): it goes to the step's first word, or, where it has gone on to the step already, it is as it is. -/
def Clerk.release (k : Clerk) (ring seq : Nat) (first : Bool) (entry : Option Nat) : Clerk :=
  if k.ahead && k.run == some (ring, seq) then { k with ahead := false }
  else { k with stage := .running, ahead := false, run := some (ring, seq), pc := entry.getD k.pc, halt := if first then 0 else k.halt }

/-! ### Walk boundaries (Numbers R243 to R245) -/

/-- The walk records whose walk step a step ends are the parcel's, its descriptor says that it ends one (Parcels R255), and it requires the arrival counter of
every exchange (Numbers R245). -/
def RunSt.walksOk (r : RunSt) (p : StepProg) : Bool :=
  (p.walks.isEmpty || nbit (r.steps.getD p.desc (0, 0, 0)).2.2 0) &&
    p.walks.all fun w => match r.walks.find? fun e => e.1 == w.record.val with
      | some e => e.2 == 0xFF || p.needs.any fun n => n.1.val == e.2
      | none => false

/-- The bytes of the event tiles that other districts have sent for a record (Numbers R245). -/
def State.eventTiles (s : State) (d : Nat) (x : Alloc) : List Nat → Except (State × Nat) (State × List Nat)
  | [] => .ok (s, [])
  | a :: t =>
    if !x.own d a 1 then .error (s, 3)
    else
      let s := s.eccRead a 1
      if s.poisoned a 1 then .error (s, 0x0A)
      else match State.eventTiles s d x t with
        | .error e => .error e
        | .ok y => .ok (y.1, (s.byte a).toNat :: y.2)

/-- The walk boundary of a record: the event, and whether the tensor was written, are those of the district's own clerks and of the tiles that other districts
sent (Numbers R238, R242, R245). -/
def State.walkEnd (s : State) (ring seq d : Nat) (x : Alloc) (w : WalkEnd) : Except (State × Nat) State :=
  let t := w.record.val
  match s.eventTiles d x w.tiles with
  | .error e => .error e
  | .ok y =>
    let s := y.1
    let event := s.anyClerk d t Clerk.events || y.2.any fun b => nbit b 0
    let written := event || s.anyClerk d t Clerk.written || y.2.any fun b => nbit b 1
    let s := s.walkBoundary d t event written
    let clear := fun n => if nbit n t then n - 2 ^ t else n
    let cs := ((List.range 256).map (clerkOf d)).filter fun c => nbit (s.clerk c).events t || nbit (s.clerk c).written t
    let s := s.each cs fun s c => s.setClerk c { s.clerk c with events := clear (s.clerk c).events, written := clear (s.clerk c).written }
    .ok (if event then s.setDrun ring seq d fun x => { x with events := if nbit x.events t then x.events else x.events + 2 ^ t } else s)

/-- Walk boundaries in order. -/
def State.walkEnds (s : State) (ring seq d : Nat) (x : Alloc) : List WalkEnd → Except (State × Nat) State
  | [] => .ok s
  | w :: t => match s.walkEnd ring seq d x w with
    | .error e => .error e
    | .ok s' => State.walkEnds s' ring seq d x t

/-- The copies and walk boundaries at the end of a step. -/
def State.stepTail (s : State) (ring seq d : Nat) (key : ParcelKey) (moves : List CopyMove) (walks : List WalkEnd) : Except (State × Nat) State :=
  match s.allocOf d key with
  | none => .ok s
  | some x => match s.moves ring seq d x moves with
    | .error e => .error e
    | .ok s' => s'.walkEnds ring seq d x walks

end Sys2Proof.Machine
end

