-- ==== Sys2Proof/Machine/Express.lean ====
section
/-! DEFINITION. The express lane (Express §2 to §5): conversions, samples, blocks, express units, the result mailbox and its spill. -/

namespace Sys2Proof.Machine
open Reg

/-! ### Conversions (Express R350, R352) -/

/-- The divisor of a RATE code (Express Table 11.3); 0 for the code that has none. -/
def rateK (r : Nat) : Nat :=
  if r = 1 then 1 else if r = 2 then 2 else if r = 3 then 4 else if r = 4 then 10 else if r = 5 then 20 else if r = 6 then 100 else 0

/-- CONV_NS as read: steps of 10 ns, 990 at most. -/
def State.convNs (s : State) (c : Nat) : Nat := min (s.cfg (EXPRESS_CHAN_PHASE_CONV_NS c) / 10 * 10) 990

/-- A conversion of the channel starts at round-relative time `t`. -/
def State.convDue (s : State) (c t : Nat) : Bool :=
  let r := s.get (EXPRESS_CHAN_CFG_RATE c)
  let n := s.convNs c
  s.cfgOn (EXPRESS_CHAN_CFG_ENABLE c) &&
    (if r = 0 then t == n || t == n + 500 else rateK r != 0 && t == n && s.round % rateK r == 0)

def execAdcConversion (c : Fin 8) (t : Nat) (s : State) : Host.Outcome State Fault Refusal :=
  .next (if s.convDue c t && decide (t ≤ 999) then (s.atNs t).setXchan c fun x => { x with conv := x.conv ++ [(s.round, t)] } else s)

/-- A seal that changes INPUT_MODE or RATE starts the channel's settling: 2,000 rounds into or out of IEPE, else 20 (Express R352). -/
def State.chanSealed (s : State) (c : Nat) (old : Word) : State :=
  let m := Word.bits old 27 26
  let m' := s.get (EXPRESS_CHAN_CFG_INPUT_MODE c)
  if m = m' && Word.bits old 22 20 = s.get (EXPRESS_CHAN_CFG_RATE c) then s
  else (s.setXchan c fun x => { x with settle := s.round + (if (m = 2) != (m' = 2) then 2000 else 20) }).putB (EXPRESS_CHAN_STATUS_SETTLING c) true

def execSettleEnd (c : Fin 8) (s : State) : Host.Outcome State Fault Refusal :=
  .next (if (s.xchan c).settle ≤ s.round then s.putB (EXPRESS_CHAN_STATUS_SETTLING c) false else s)

/-- ENABLE as it comes into force at a boundary: from 0 to 1 it restarts SEQ and clears the mailbox ring; from 1 to 0 it drops what the channel has
under way (Express §10). `old` is the register before its last write. -/
def State.chanBoundary (s : State) (c : Nat) (old : Word) : State :=
  let was := nbit old.toNat 31
  let is := s.on (EXPRESS_CHAN_CFG_ENABLE c)
  if !was && is then
    (s.setXchan c fun x => { x with seq := 0, conv := [], waiting := none, newest := none, dirty := false }).each (List.range 32) fun s j =>
      s.wrN (EXPRESS_MAILBOX c j) 0
  else if was && !is then s.setXchan c fun x => { x with conv := [], waiting := none }
  else s

/-! ### Samples (Express R349, R351) -/

/-- A number divided and rounded to nearest, ties to even. -/
def rneQuot (n : Int) (d : Nat) : Int :=
  let q := n / (d : Int)
  let r := (n % (d : Int)).toNat
  if 2 * r < d then q else if d < 2 * r then q + 1 else if q % 2 = 0 then q else q + 1

/-- The code of a sample before clamping, and its limits (Express Table 11.2). -/
def sampleRaw (a : Analog) (mode : Nat) : Int := if mode = 1 then rneQuot a.picoamps 781250 else rneQuot a.nanovolts 312500

/-- The INT16 code of a sample. -/
def sampleCode (a : Analog) (mode : Nat) : Int := max (if mode = 1 then -32768 else -32767) (min 32767 (sampleRaw a mode))

/-- The conditions CLIP, LOW and HIGH of Express Table 11.2. -/
def sampleConds (a : Analog) (mode : Nat) : List Bool :=
  [mode != 1 && sampleCode a mode != sampleRaw a mode,
   if mode = 1 then decide (a.picoamps < 3600000000) else mode == 2 && decide (a.biasUv < 1000000),
   if mode = 1 then decide (21000000000 < a.picoamps) else mode == 2 && decide (20000000 < a.biasUv)]

/-- MONITOR: the loop in µA or the bias in mV, to the nearest. -/
def sampleMonitor (a : Analog) (mode : Nat) : Nat :=
  if mode = 1 then min 0xFFFF (rneQuot a.picoamps 1000000).toNat else if mode = 2 then min 0xFFFF (rneQuot a.biasUv 1000).toNat else 0

/-- One sample of a flag: four consecutive contrary samples change it. -/
def flagStep (f : Bool × Nat) (cond : Bool) : Bool × Nat :=
  if cond = f.1 then (f.1, 0) else if 4 ≤ f.2 + 1 then (cond, 0) else (f.1, f.2 + 1)

/-- The fault flags of a channel after a sample, its status register, and the report of a rising FAULT_NOW. -/
def State.sampleFlags (s : State) (c : Nat) (a : Analog) : State :=
  let mode := s.get (EXPRESS_CHAN_CFG_INPUT_MODE c)
  let old := (s.xchan c).flags
  let new := (old.zip (sampleConds a mode)).map fun p => flagStep p.1 p.2
  let up : Nat → Bool := fun i => (new.getD i (false, 0)).1
  let rose : Nat → Bool := fun i => up i && !(old.getD i (false, 0)).1
  let now := up 0 || up 1 || up 2
  let was := s.on (EXPRESS_CHAN_STATUS_FAULT_NOW c)
  let s := ((s.setXchan c fun x => { x with flags := new }).putB (EXPRESS_CHAN_STATUS_FAULT_NOW c) now).put (EXPRESS_CHAN_STATUS_MONITOR c) (sampleMonitor a mode)
  let s := if rose 0 then s.putB (EXPRESS_CHAN_STATUS_CLIP c) true else s
  let s := if rose 1 then s.putB (EXPRESS_CHAN_STATUS_LOW c) true else s
  let s := if rose 2 then s.putB (EXPRESS_CHAN_STATUS_HIGH c) true else s
  if now && !was then s.report { code := Code.EXP_INPUT_FAULT, unit := c } else s

/-- The sample word (Express R351). -/
def sampleWord (code : Int) (fault clip : Bool) (c : Nat) : Nat :=
  ofSigned 16 code * 65536 + (if fault then 32768 else 0) + (if clip then 16384 else 0) + c * 2048

/-! ### Blocks (Express R353 to R356, R362) -/

/-- An express RUN is armed (Express R359). -/
def State.armedRun (s : State) : Option RunSt := s.floor.runs.find? fun r => r.express

/-- A band of an armed RUN serves the channel, and the express district can take its blocks (Power states Table 14.5). -/
def State.bandFor (s : State) (c : Nat) : Option RunSt :=
  if !s.domUp s.expressDistrict then none
  else s.armedRun.filter fun r => r.bands.contains c && r.fail.isNone

/-- A block arrives at the express district. -/
def State.blockArrives (s : State) (c : Nat) (b : XBlock) : State :=
  match s.bandFor c with
  | none => s
  | some _ =>
    if (s.xchan c).waiting.isSome then
      (s.setXchan c fun x => { x with waiting := some { b with gap := true }, counted := false }).addSat (EXPRESS_CHAN_SKIP c) 1
    else s.setXchan c fun x => { x with waiting := some b, counted := false }

/-- The region of the fabric that holds a column. -/
def State.regionAt (s : State) (col : Nat) : Option Nat := (List.range 8).find? fun g =>
  let f := s.get (FABRIC_REGION_FIRST_COLUMN g)
  decide (f ≤ col) && decide (col < f + s.get (FABRIC_REGION_COUNT_COLUMNS g))

/-- A region runs: PD_FAB is ON, or IDLE and woken by what reaches it, the region is ACTIVE, and it is not held (Fabric R427 to R429, R449). -/
def State.regionRuns (s : State) (g : Nat) : Bool :=
  s.domUp 19 && !s.fab.retained && s.get (FABRIC_REGION_STATE_STATE g) == 2 && !s.cfgOn (FABRIC_REGION_CTRL_HOLD g)

/-- A region that runs drives X_OUT (Fabric Table 13.2, Express R356). -/
def State.xoutDriven (s : State) : Bool := match s.regionAt 35 with
  | some g => s.regionRuns g
  | none => false

/-- A sample becomes available: it becomes a block, or goes to ADC_IN. -/
def State.sample (s : State) (c : Nat) (a : Analog) (start : Nat × Nat) : State :=
  let s := s.sampleFlags c a
  let x := s.xchan c
  let fault := s.on (EXPRESS_CHAN_STATUS_FAULT_NOW c) || decide (start.1 < x.settle)
  let w := sampleWord (sampleCode a (s.get (EXPRESS_CHAN_CFG_INPUT_MODE c))) fault (x.flags.getD 0 (false, 0)).1 c
  if s.cfgOn (EXPRESS_CHAN_CFG_FRONTEND c) then
    if s.xoutDriven then s.setXchan c fun x => { x with newest := some start, dirty := x.dirty || fault } else s
  else s.blockArrives c ⟨[w], start.1, start.2, fault, false, false⟩

def execSampleAvailable (c : Fin 8) (a : Analog) (t : Nat) (s : State) : Host.Outcome State Fault Refusal :=
  .next (match (s.xchan c).conv with
    | [] => s
    | x :: rest => if x.1 * 1000 + x.2 + 500 ≤ s.at t then ((s.atNs t).setXchan c fun y => { y with conv := rest }).sample c a x else s)

/-- LAST on X_OUT: the block is stamped with the newest sample delivered, cut at 64 words, and marked when it took longer than 230 ns. -/
def State.fabricBlock (s : State) (c : Nat) (words : List Nat) (t : Nat) : State :=
  match (s.xchan c).newest with
  | none => s
  | some n =>
    let late := decide (n.1 * 1000 + n.2 + 500 + 230 < s.at t)
    let b : XBlock := ⟨words.take 64, n.1, n.2, (s.xchan c).dirty, late, false⟩
    let s := (s.atNs t).setXchan c fun x => { x with dirty := false }
    let s := if late then (s.putB (EXPRESS_CHAN_STATUS_FE_LATE c) true).report { code := Code.EXP_FE_LATE, unit := c } else s
    s.blockArrives c b

def execFabricBlock (c : Fin 8) (words : List Nat) (t : Nat) (s : State) : Host.Outcome State Fault Refusal :=
  .next (if s.cfgOn (EXPRESS_CHAN_CFG_FRONTEND c) && s.cfgOn (EXPRESS_CHAN_CFG_ENABLE c) && s.xoutDriven && !words.isEmpty
    then s.fabricBlock c words t else s)

/-! ### Express units (Express R359 to R363, Round R62, R66) -/

/-- Bit `c` of XSLOT_MASK in the entry of the present round; every channel is due under the default entry (Round Table 2.3). -/
def State.xslotDue (s : State) (c : Nat) : Bool := !s.ttRun || nbit (s.entryByte s.round 0x32) c

/-- The ring still lets the armed RUN start units: it is not STOPPING or STOPPED (Express R359). -/
def State.runGoes (s : State) (r : RunSt) : Bool := r.fail.isNone && s.ringState r.ring == 1

/-- The clerks that running express units use. -/
def State.bandsClerks (s : State) : Nat := (s.xrunning.map fun c => match (s.xchan c).unit with | some u => u.clerks | none => 0).foldl (· ||| ·) 0

/-- A channel's unit starts on its band's clerks: its step's segment loads and copies are made, its sequence is written, and its clerks are released. -/
def State.expressGo (s : State) (r : RunSt) (c : Nat) (b : XBlock) (clerks : Nat) (p : StepProg) (t : Nat) : State :=
  let d := s.expressDistrict
  let g := s.get (RINGS_CFG_FLOOR_GROUP r.ring)
  let q := s.at t + s.get ROUND_EXPRESS_RES_MAX_NS
  let all := s.bandsClerks ||| clerks
  match s.stepHead r.ring r.seq d clerks r.key p with
  | .error e => e.1.failRun r.ring r.seq e.2 0
  | .ok s =>
    let first := r.dists.all fun x => x.started == 0
    let s := s.writeSeq d r.ring r.seq clerks p
    let s := (s.add64 (FLOOR_STEP_COUNT d) 1).setDrun r.ring r.seq d fun x => { x with started := x.started + 1 }
    let s := (s.put (FLOOR_DIST_STATE_RING d) r.ring).put (FLOOR_DIST_STATE_GROUP d) g
    let s := (s.setUnit d (some { ring := some r.ring, owner := g, d := r.maxCycles, startRound := s.round, startNs := t, quantumEnd := q })).setDunit d
      (some { ring := r.ring, seq := r.seq, desc := p.desc, clerks := all })
    let s := s.setXchan c fun x => { x with waiting := none, unit := some { block := b, clerks := clerks, quantumEnd := q, prog := p } }
    s.each (clerksOf d clerks) fun s k => s.setClerk k ((s.clerk k).release r.ring r.seq first p.entry)

/-- A step is one that the express parcel's tables have. -/
def RunSt.expressOk (r : RunSt) (p : StepProg) : Bool :=
  decide (p.desc < r.steps.length) && decide ((r.steps.getD p.desc (0, 0, 0)).1 ≤ r.maxCycles) && r.walksOk p

/-- A waiting block's unit starts if its channel is due, its band is free and it fits; a failed fit check counts once for the block. -/
def State.expressStart (s : State) (c clerks : Nat) (p : StepProg) (t : Nat) : State :=
  let d := s.expressDistrict
  match s.bandFor c, (s.xchan c).waiting with
  | some r, some b =>
    if !s.xslotDue c || (s.xchan c).unit.isSome || s.dom d != 0 || !s.fwRunning (3 + d) || !s.runGoes r || s.on ERROR_STATUS_SAFE || (s.bandsClerks &&& clerks) != 0 ||
        !r.expressOk p || s.memWaits r.ring r.seq then s
    else if !s.expressFits r.maxCycles then
      if (s.xchan c).counted then s else (s.setXchan c fun x => { x with counted := true }).addSat (ROUND_DEFER_COUNT d) 1
    else (s.atNs t).expressGo r c b clerks p t
  | _, _ => s

def execExpressUnitStart (c : Fin 8) (clerks : Nat) (p : StepProg) (t : Nat) (s : State) : Host.Outcome State Fault Refusal :=
  .next (s.expressStart c (clerks % 2 ^ 256) p t)

/-- Express units that run past the end of their reservation are counted as overruns (Round R66). -/
def State.xOverrun (s : State) : State :=
  let late := s.xrunning.filter fun c => match (s.xchan c).unit with | some u => !u.overrun && decide (u.quantumEnd ≤ s.now) | none => false
  (s.each late fun s c => s.setXchan c fun x => { x with unit := x.unit.map fun u => { u with overrun := true } }).addSat
    (ROUND_OVR_COUNT s.expressDistrict) late.length

/-- An express unit still runs 1,000 rounds after the end of its reservation (Round R65). -/
def State.xHung (s : State) (t : Nat) : Bool :=
  s.xrunning.any fun c => match (s.xchan c).unit with | some u => decide (u.quantumEnd + 1000000 ≤ s.at t) | none => false

/-! ### The mailbox and the spill (Express R364 to R367) -/

/-- Write the oldest record of the spill queue at its place, and advance SPILL_HEAD. -/
def State.spillOne (s : State) : State :=
  match s.xp.spills with
  | [] => s
  | r :: rest =>
    let h := s.rdN EXPRESS_SPILL_HEAD
    let l := s.cfg EXPRESS_SPILL_CFG_LOG2_ENTRIES
    let n := 2 ^ (if 6 ≤ l && l ≤ 20 then l else 12)
    let a := s.cfg EXPRESS_SPILL_BASE_ADDR * 4096 + 32 * (h % n)
    let s := (s.setXp fun x => { x with spills := rest }).memSpend 0 0 1 32
    let s := match s.devCheck true a 32 with
      | none => s.store a r.2
      | some e => s.accReport e
    s.wrN EXPRESS_SPILL_HEAD ((h + 1) % 2 ^ 64)

/-- Issue the spill writes that may issue at round-relative time `t`: express requests of one unit each (Express R367, Memory R406). -/
def State.spillRun (s : State) (t : Nat) : State :=
  (List.range s.xp.spills.length).foldl (fun s _ => if s.expressMayAt t then s.spillOne else s) s

/-- The spill at a round boundary: the writes of the round's express window. -/
def State.spillEntry (s : State) : State :=
  s.spillRun (if s.ttRun then 4 * s.entryByte s.round 4 else 0)

/-- The first word of a record: SEQ, CHANNEL, FLAGS and SAMPLE_NS (Express Table 11.5). -/
def recordHead (seq c : Nat) (late : Bool) (b : XBlock) : Nat :=
  seq + c * 2 ^ 32 + (1 + (if late then 2 else 0) + (if b.fault then 4 else 0) + (if b.late then 8 else 0) + (if b.gap then 16 else 0)) * 2 ^ 40 + b.ns * 2 ^ 48

/-- Commit a record: entry SEQ mod 8 of the channel's ring, its counters, and a spill where enabled. -/
def State.commit (s : State) (c : Nat) (late : Bool) (b : XBlock) (v0 v1 : Nat) : State :=
  let q := (s.xchan c).seq
  let ws := [recordHead q c late b, b.round, s.round, v0 % 2 ^ 32 + v1 % 2 ^ 32 * 2 ^ 32]
  let s := ((List.range 4).zip ws).foldl (fun s p => s.wrN (EXPRESS_MAILBOX c (q % 8 * 4 + p.1)) p.2) s
  let s := (s.setXchan c fun x => { x with seq := (q + 1) % 2 ^ 32 }).add64 (EXPRESS_CHAN_RESULTS c) 1
  let s := if late then s.addSat (EXPRESS_CHAN_LATE c) 1 else s
  if s.cfgOn EXPRESS_SPILL_BASE_EN then
    (s.setXp fun x => { x with spills := x.spills ++ [(s.round, (ws.map (leBytes 8)).flatten)] }).spillRun s.rnd.ns
  else s

/-- A unit's result is committed, unless its channel has been disabled. The copies that it leaves, and its walk boundaries, come first (Numbers R244). -/
def State.expressEnd (s : State) (c : Nat) (u : XUnit) (v0 v1 : Nat) : State :=
  let d := s.expressDistrict
  let run := s.dunit d
  let late := u.overrun || decide (u.quantumEnd < s.now)
  let s := if !u.overrun && late then s.addSat (ROUND_OVR_COUNT d) 1 else s
  let s := s.each (clerksOf d u.clerks) fun s k => s.dueStores k (2 ^ 64)
  let s := match run with
    | some v => match s.runSt v.ring v.seq with
      | some r =>
        let node := (r.steps.getD u.prog.desc (0, 0, 0)).2.1
        let s := match s.stepTail v.ring v.seq d r.key [] u.prog.walks with
          | .ok s' => s'
          | .error e => e.1.failRun v.ring v.seq e.2 0
        s.setDrun v.ring v.seq d fun x => { x with steps := x.steps + 1, node := node }
      | none => s
    | none => s
  let s := s.closeBand d c
  let s := if s.on (EXPRESS_CHAN_CFG_ENABLE c) then s.commit c late u.block v0 v1 else s
  match run with
  | some v => s.runSettle v.ring v.seq
  | none => s

def execExpressUnitEnd (c : Fin 8) (v0 v1 : Nat) (t : Nat) (s : State) : Host.Outcome State Fault Refusal :=
  .next (match (s.xchan c).unit with
    | some u =>
      if (clerksOf s.expressDistrict u.clerks).all fun k => (s.clerk k).stage == .boundary then (s.atNs t).expressEnd c u v0 v1 else s
    | none => s)

def execSpillDrop (s : State) : Host.Outcome State Fault Refusal :=
  .next (match s.xp.spills with
    | r :: rest => if r.1 + 8 ≤ s.round then (s.setXp fun x => { x with spills := rest }).addSat EXPRESS_SPILL_DROP 1 else s
    | [] => s)

/-! ### The end of an armed RUN (Express R359) -/

/-- An armed RUN whose ring is STOPPING completes with OK at the next boundary once no unit of it runs. RESULT is the number of its units. -/
def execExpressRunComplete (s : State) : Host.Outcome State Fault Refusal :=
  .next (match s.armedRun with
    | some r => if r.fail.isNone && s.ringState r.ring == 2 && s.xrunning.isEmpty then s.endRun r 0 r.outcome.2 else s
    | none => s)

end Sys2Proof.Machine
end

