-- ==== Sys2Proof/Machine/Sha384.lean ====
section
/-! DEFINITION. SHA-384 (FIPS 180-4), the digest of the measurement seals, the event log and signed images (Trust R529, R540). -/

namespace Sys2Proof.Machine

/-- The largest `r` below 2^`bits` whose `k`-th power is at most `n`. -/
def rootBits (k n : Nat) : Nat → Nat
  | 0 => 0
  | bits + 1 =>
    let hi := rootBits k (n / 2 ^ k) bits
    if (2 * hi + 1) ^ k ≤ n then 2 * hi + 1 else 2 * hi

/-- The first `n` primes. -/
def primes : Nat → List Nat
  | 0 => []
  | n + 1 =>
    let l := primes n
    let from_ := l.getLast?.getD 1 + 1
    l ++ ((List.range 20).find? fun i => l.all fun p => (from_ + i) % p != 0).toList.map (from_ + ·)

/-- The round constants: the first 64 bits of the fractional parts of the cube roots of the first 80 primes. -/
def shaConst : List Nat := (primes 80).map fun p => rootBits 3 (p * 2 ^ 192) 70 % 2 ^ 64

/-- The initial hash value of SHA-384: the first 64 bits of the fractional parts of the square roots of the 9th to the 16th prime. -/
def shaInit : List Nat := ((primes 16).drop 8).map fun p => rootBits 2 (p * 2 ^ 128) 70 % 2 ^ 64

/-- A 64-bit word rotated right. -/
def ror64 (x n : Nat) : Nat := ((x >>> n) ||| (x <<< (64 - n))) % 2 ^ 64

/-- The small and large sigma functions: three words combined, each rotated, or the third shifted. -/
def shaSigma (a b : Nat) (c : Nat) (shift : Bool) (x : Nat) : Nat :=
  (ror64 x a ^^^ ror64 x b) ^^^ (if shift then x >>> c else ror64 x c)

/-- The next word of the message schedule, from the earlier ones, latest first. -/
def shaNext (w : List Nat) : Nat :=
  (shaSigma 19 61 6 true (w.getD 1 0) + w.getD 6 0 + shaSigma 1 8 7 true (w.getD 14 0) + w.getD 15 0) % 2 ^ 64

/-- Extend a message schedule, latest word first, by `n` words. -/
def shaSchedule : Nat → List Nat → List Nat
  | 0, w => w
  | n + 1, w => shaSchedule n (shaNext w :: w)

/-- One round on the eight working variables. -/
def shaRound (v : List Nat) (kw : Nat × Nat) : List Nat :=
  match v with
  | [a, b, c, d, e, f, g, h] =>
    let ch := (e &&& f) ^^^ ((e ^^^ (2 ^ 64 - 1)) &&& g)
    let maj := ((a &&& b) ^^^ (a &&& c)) ^^^ (b &&& c)
    let t1 := h + shaSigma 14 18 41 false e + ch + kw.1 + kw.2
    let t2 := shaSigma 28 34 39 false a + maj
    [(t1 + t2) % 2 ^ 64, a, b, c, (d + t1) % 2 ^ 64, e, f, g]
  | v => v

/-- Take in one 128-octet block. -/
def shaBlock (hs : List Nat) (block : Bytes) : List Nat :=
  let w0 := (List.range 16).map fun i => beNat ((block.drop (8 * i)).take 8)
  let w := (shaSchedule 64 w0.reverse).reverse
  List.zipWith (fun x y => (x + y) % 2 ^ 64) hs ((List.zip shaConst w).foldl shaRound hs)

/-- The message with its padding: a one bit, zeros, and its length in bits, to a whole number of 128-octet blocks. -/
def shaPad (m : Bytes) : Bytes :=
  m ++ [0x80] ++ List.replicate ((239 - m.length % 128) % 128) 0 ++ beBytes 16 (8 * m.length)

/-- The hash value after `n` blocks. -/
def shaBlocks : Nat → List Nat → Bytes → List Nat
  | 0, hs, _ => hs
  | n + 1, hs, m => shaBlocks n (shaBlock hs (m.take 128)) (m.drop 128)

/-- SHA-384 of a sequence of octets: 48 octets. -/
def sha384 (m : Bytes) : Bytes :=
  let p := shaPad m
  ((shaBlocks (p.length / 128) shaInit p).take 6).flatMap (beBytes 8)

end Sys2Proof.Machine
end

