-- ==== Sys2Proof/Machine/Seal.lean ====
section
/-! DEFINITION. Measurement seals and the event log (Trust §5). -/

namespace Sys2Proof.Machine
open Reg

/-- The octets of seal `i`. -/
def State.sealOf (s : State) (i : Nat) : Bytes := s.trust.seals.getD i []

/-- Extend seal `i` with an event digest (Trust R540), and record the event while the log has room (R542). -/
def State.extendSeal (s : State) (i : Nat) (d : Bytes) (source : Nat) : State :=
  let s := s.setTrust fun t => { t with seals := t.seals.set i (sha384 (s.sealOf i ++ d)) }
  if s.trust.log.length < 1024 then
    s.setTrust fun t => { t with log := t.log ++ [⟨i, source, s.round, d⟩] }
  else if s.trust.logFull then s
  else (s.setTrust fun t => { t with logFull := true }).report { code := Code.SEC_LOG_FULL }

/-- Extend seal 6 for an event that has no message, and of which the spec gives no digest: 48 free octets. -/
def State.extendFree (s : State) : State :=
  (s.extendSeal 6 ((List.range 48).map fun i => Config.freeByte s.freeCtr i) 0).useFree

/-- The 64 octets of entry `n` of the event log. -/
def logBytes (n : Nat) (e : LogEntry) : Bytes :=
  leBytes 4 n ++ leBytes 1 e.sealNo ++ leBytes 1 e.source ++ [0, 0] ++ leBytes 8 e.round ++ e.digest

/-- The octets of recorded entries, from number `n`. -/
def logFrom (n : Nat) : List LogEntry → Bytes
  | [] => []
  | e :: t => logBytes n e ++ logFrom (n + 1) t

end Sys2Proof.Machine
end

