-- ==== Sys2Proof/Machine/Fabric.lean ====
section
/-! DEFINITION. The fabric (Fabric): regions, frames, FABRIC_LOAD, scrubbing, configuration commands, the MESH port, the register window and clocks. -/

namespace Sys2Proof.Machine
open Reg

/-! ### Columns and frames (Fabric R423, R430) -/

/-- Frames of a column in one row block (Fabric Table 13.1). -/
def colFrames (c : Nat) : Nat := if c = 8 || c = 17 || c = 26 then 84 else if c = 9 || c = 18 || c = 27 then 28 else 36

/-- A frame address is valid. -/
def farOk (far : Nat) : Bool :=
  let c := nbits far 15 10
  let m := nbits far 6 0
  decide (far < 65536) && decide (c ≤ 35) &&
    (if c = 8 || c = 17 || c = 26 then decide (m ≤ 19) || decide (64 ≤ m) else decide (m < colFrames c))

/-- A frame is block RAM content. -/
def farContent (far : Nat) : Bool := let c := nbits far 15 10; (c == 8 || c == 17 || c == 26) && decide (64 ≤ nbits far 6 0)

/-- First column and column count of a region under the pair in force. -/
def State.regionPair (s : State) (g : Nat) : Nat × Nat := (s.get (FABRIC_REGION_FIRST_COLUMN g), s.get (FABRIC_REGION_COUNT_COLUMNS g))

/-- A frame lies in a region. -/
def State.farIn (s : State) (g far : Nat) : Bool :=
  let p := s.regionPair g
  decide (p.1 ≤ nbits far 15 10) && decide (nbits far 15 10 < p.1 + p.2)

/-- A region's frame count (Fabric R433). -/
def State.frameCount (s : State) (g : Nat) : Nat :=
  let p := s.regionPair g
  ((List.range p.2).map fun i => 8 * colFrames (p.1 + i)).foldl (· + ·) 0

/-- The words of a frame. -/
def State.frame (s : State) (far : Nat) : List Nat := (List.range 81).map fun i => SMap.get (fun _ => 0) s.fab.frames (far * 128 + i)

/-- Write the words of a frame. -/
def State.setFrame (s : State) (far : Nat) (ws : List Nat) : State :=
  s.setFab fun f => { f with frames := ((List.range 81).zip ws).foldl (fun m p => SMap.set (fun _ => 0) m (far * 128 + p.1) (p.2 % 2 ^ 32)) f.frames }

/-- The CRC-32C of a frame's words. -/
def frameCrc (ws : List Nat) : Nat := crc32c ((ws.map (leBytes 4)).flatten)

/-! ### Region states (Fabric R427 to R429) -/

def State.regionState (s : State) (g : Nat) : Nat := s.get (FABRIC_REGION_STATE_STATE g)

/-- REGION_STATE's ISOLATED and FRAMES follow the region. -/
def State.regionSync (s : State) (g : Nat) : State :=
  (s.putB (FABRIC_REGION_STATE_ISOLATED g) ((s.regionPair g).2 != 0 && !s.regionRuns g)).put (FABRIC_REGION_STATE_FRAMES g) (s.frameCount g)

def State.setRegion (s : State) (g st : Nat) : State := (s.put (FABRIC_REGION_STATE_STATE g) st).regionSync g

/-- Clear a region: its frames are zero, its signatures are gone, and it is EMPTY (Fabric R435). -/
def State.regionClear (s : State) (g : Nat) : State :=
  let s := s.setFab fun f => { f with
    frames := f.frames.filter fun e => !s.farIn g (e.1 / 128)
    golden := f.golden.filter fun e => !s.farIn g e.1
    upset := f.upset.filter fun x => !s.farIn g x
    visited := f.visited.filter fun x => !s.farIn g x
    faultDue := f.faultDue.filter fun x => x.1 != g }
  (s.wrN (FABRIC_REGION_IMAGE g) 0).setRegion g 0

/-- A write of REGION_CTRL: HOLD acts from the next boundary. -/
def State.regionHold (s : State) (q : Req) (g v : Nat) : State :=
  if q.pfOrHost && s.domUp 19 && s.spineUp then s.wrCfg (FABRIC_REGION_CTRL g) (nbits v 8 8 * 256 + v % 2) else s

def execRegionHoldWrite (q : Req) (g : Fin 8) (v : Nat) (s : State) : Host.Outcome State Fault Refusal :=
  .next (s.landing q (FABRIC_REGION_CTRL g) fun s => s.regionHold q g v)

/-- A region in which an upset was found under HOLD_REGION enters FAULT at the boundary after it. -/
def execRegionFault (g : Fin 8) (s : State) : Host.Outcome State Fault Refusal :=
  .next (if s.fab.faultDue.any (fun x => x.1 == g.val && decide (x.2 < s.round)) && s.regionState g == 2
    then (s.setFab fun f => { f with faultDue := f.faultDue.filter fun x => x.1 != g.val }).setRegion g 3 else s)

/-! ### FABRIC_LOAD (Fabric R432 to R439) -/

/-- The header fields in order: offset, and whether the field is as it must be (Fabric Table 13.5). -/
def imageTests (h : Bytes) (p : Nat × Nat) (frames : Nat) : List (Nat × Bool) :=
  [(0, fieldLE h 0 4 == 0x42464F50), (4, fieldLE h 4 1 == 1), (5, fieldLE h 5 1 == p.1), (6, fieldLE h 6 1 == p.2), (7, fieldLE h 7 1 == 0),
   (8, fieldLE h 8 4 == frames), (0x44, (h.drop 0x44).take 56 == List.replicate 56 0), (0x7C, fieldLE h 0x7C 4 == crc32c (h.take 0x7C))]

/-- The checks of a load, which do not touch the region. -/
def State.loadChecks (s : State) (r : Nat) (e : Bytes) : Except (State × Nat × Nat) Unit :=
  let g := fieldLE e 0x24 1
  let n := fieldLE e 0x20 4
  if 7 < g then .error (s, 1, 0)
  else if s.dom 19 != 0 then .error (s, 0x8B07, g)
  else if (s.regionPair g).2 = 0 then .error (s, 0x8B06, g)
  else if s.fab.loads.any fun l => l.g == g then .error (s, 0x8B05, g)
  else if n != s.frameCount g then .error (s, 0x8B08, s.frameCount g)
  else match s.addrRead (s.ringFn r) (fieldLE e 0x18 8) 128 with
    | .error x => .error (s.readFail x)
    | .ok h => match firstBad (imageTests h (s.regionPair g) n) with
      | some o => .error (s, 0x8B01, o)
      | none => .ok ()

/-- The engine reads an image at the class of the load's ring (Fabric R436): from DRAM to the fabric's router. -/
def State.loadTraffic (s : State) (r seq a n : Nat) : State :=
  if isHostAddr a then s else s.portRead (s.ringClass r) (some (r, seq)) meshFabric a n

def execFabricLoad (r : Ring) (seq : Nat) (s : State) : Host.Outcome State Fault Refusal :=
  .next (match s.startedOf r seq 11 with
    | none => s
    | some f =>
      if s.fab.loads.any fun l => l.ring == r.val && l.seq == seq then s
      else match s.loadChecks r f.env with
        | .error x => x.1.complete r seq x.2.1 x.2.2
        | .ok _ => (s.loadTraffic r seq (fieldLE f.env 0x18 8) 128).setFab fun b =>
          { b with loads := b.loads ++ [⟨r, seq, fieldLE f.env 0x24 1, s.on (FABRIC_REGION_POLICY_AUTH (fieldLE f.env 0x24 1)), none, []⟩] })

/-- Check the records in order: the status and index of the first that fails. `bad` is the index of a frame whose read-back differs. -/
def State.recordsFault (s : State) (g : Nat) (bad : Option Nat) : Nat → Option Nat → List Bytes → Option (Nat × Nat)
  | _, _, [] => none
  | i, prev, r :: t =>
    let far := fieldLE r 0 4
    if crc32c (r.take 0x14C) != fieldLE r 0x14C 4 then some (0x8B02, i)
    else if !farOk far || !s.farIn g far || (match prev with | some p => decide (far ≤ p) | none => false) || 2 ≤ fieldLE r 4 4 then some (0x8B03, i)
    else if bad == some i then some (0x8B04, i)
    else State.recordsFault s g bad (i + 1) (some far) t

/-- The words of a record. -/
def recordWords (r : Bytes) : List Nat := (List.range 81).map fun j => fieldLE r (8 + 4 * j) 4

/-- Write a record's frame, and its golden signature where it has one. -/
def State.writeRecord (s : State) (r : Bytes) : State :=
  let far := fieldLE r 0 4
  let ws := recordWords r
  let s := s.setFrame far ws
  if nbit (fieldLE r 4 4) 0 || farContent far then s
  else s.setFab fun f => { f with golden := SMap.set (fun _ => none) f.golden far (some (frameCrc ws)) }

/-- A load ends: it leaves the list, its region is cleared, and its envelope has its status. -/
def State.loadFail (s : State) (l : FabLoad) (status result : Nat) : State :=
  ((s.setFab fun f => { f with loads := f.loads.filter fun x => !(x.ring == l.ring && x.seq == l.seq) }).regionClear l.g).complete l.ring l.seq status result

/-- The outcome of a load's records: the records, or why it fails (Fabric R434). -/
def State.loadOutcome (s : State) (l : FabLoad) (e : Bytes) (bad : Option Nat) : Except (State × Nat × Nat) (Nat × List Bytes × Bytes) :=
  let f := s.ringFn l.ring
  let a := fieldLE e 0x18 8
  let n := fieldLE e 0x20 4
  match s.addrRead f a 128, s.addrRead f (a + 128) (336 * n) with
  | .error x, _ => .error ((s.readFail x).1, (s.readFail x).2.1, 0xFFFFFFFF)
  | .ok _, .error x => .error ((s.readFail x).1, (s.readFail x).2.1, 0xFFFFFFFF)
  | .ok h, .ok b =>
    let rs := rowsOf b 336
    match s.recordsFault l.g bad 0 none rs with
    | some x => .error (s, x)
    | none =>
      if crc32c b != fieldLE h 0x40 4 then .error (s, 0x8B01, 0xFFFFFFFF)
      else if l.auth && !(SMap.get (fun _ => []) s.fab.approved l.g).contains (sha384 b) then .error (s, 0x0E, 0xFFFFFFFF)
      else .ok (fieldLE h 0xC 4, rs, sha384 b)

/-- The engine begins the load that started first: the region is isolated, and every record is checked, written and read back.
REGION_IMAGE keeps the last release's identity until the region is EMPTY or released. -/
def State.loadBegin (s : State) (l : FabLoad) (e : Bytes) (bad : Option Nat) : State :=
  let s := (((s.regionClear l.g).wrN (FABRIC_REGION_IMAGE l.g) (s.rdN (FABRIC_REGION_IMAGE l.g))).setRegion l.g 1)
  let s := s.loadTraffic l.ring l.seq (fieldLE e 0x18 8 + 128) (336 * fieldLE e 0x20 4)
  match s.loadOutcome l e bad with
  | .error x => x.1.loadFail l x.2.1 x.2.2
  | .ok (id, rs, digest) =>
    (s.each rs fun s r => s.writeRecord r).setFab fun f => { f with loads := f.loads.map fun x =>
      if x.ring == l.ring && x.seq == l.seq then { x with image := some (id, s.round), digest := digest } else x }

/-- The configuration engine still reads the records of a load (Fabric R438): no other load, command or scrub read goes before it (R441). -/
def State.engineBusy (s : State) : Bool := s.fab.loads.any fun l => l.image.isSome && s.memWaits l.ring l.seq

def execFabricLoadBegin (bad : Option Nat) (s : State) : Host.Outcome State Fault Refusal :=
  .next (match s.fab.loads.find? fun l => l.image.isNone with
    | none => s
    | some l => match s.startedOf l.ring l.seq 11 with
      | none => s
      | some f => if s.dom 19 = 0 && s.fab.cmd.isNone && !s.engineBusy && !s.preparing 19 then s.loadBegin l f.env bad else s)

/-- A checked region is released at the boundary after its last record, once the reads of its records have been made (R436). -/
def execFabricRelease (g : Fin 8) (s : State) : Host.Outcome State Fault Refusal :=
  .next (match s.fab.loads.find? fun l => l.g == g.val with
    | some l => match l.image with
      | some (id, n) =>
        if n < s.round && s.dom 19 == 0 && !s.memWaits l.ring l.seq then
          let s := if l.auth then s.extendSeal 5 l.digest 0 else s
          (((s.setFab fun f => { f with loads := f.loads.filter fun x => x.g != g.val }).wrN (FABRIC_REGION_IMAGE g) id).setRegion g 2).complete l.ring l.seq 0 id
        else s
      | none => s
    | none => s)

/-- A load is ended from outside: the region of one that the engine has begun is cleared, and one that waits leaves its region alone (Fabric R438,
R439). -/
def State.fabLoadEnd (s : State) (l : FabLoad) (status result : Nat) : State :=
  let s := s.memForget l.ring l.seq
  if l.image.isSome then s.loadFail l status result
  else (s.setFab fun f => { f with loads := f.loads.filter fun x => !(x.ring == l.ring && x.seq == l.seq) }).complete l.ring l.seq status result

/-- An ABORT of a load's ring. -/
def State.loadAbort (s : State) (r seq : Nat) : State :=
  match s.fab.loads.find? fun l => l.ring == r && l.seq == seq with
  | none => s
  | some l => s.fabLoadEnd l 9 0xFFFFFFFF

/-! ### Configuration commands (Fabric R444) -/

/-- A command ends at once with FAULT. -/
def State.cfgFault (s : State) (cause : Nat) : State :=
  ((s.putB FABRIC_CFG_CMD_GO false).putB FABRIC_CFG_STATUS_FAULT true).put FABRIC_CFG_STATUS_CAUSE cause

/-- A command starts: BUSY until the next boundary, at which DONE is set. -/
def State.cfgStart (s : State) : State :=
  ((s.putB FABRIC_CFG_CMD_GO true).putB FABRIC_CFG_STATUS_BUSY true).setFab fun f => { f with cmd := some 0 }

/-- READ_FRAME. -/
def State.readFrame (s : State) (far : Nat) : State :=
  if !farOk far then s.cfgFault 2
  else match s.regionAt (nbits far 15 10) with
    | none => s.cfgFault 3
    | some g =>
      if s.regionState g = 1 then s.cfgFault 3
      else
        let ws := s.frame far
        (((List.range 81).zip ws).foldl (fun s p => s.wrN (FABRIC_CFG_DATA p.1) p.2) s.cfgStart).wrN (FABRIC_CFG_DATA 81) (frameCrc ws)

/-- CLEAR. -/
def State.cfgClear (s : State) (g : Nat) : State :=
  if s.regionState g = 1 || (s.regionPair g).2 = 0 then s.cfgFault 3 else (s.regionClear g).cfgStart

/-- SCRUB_PASS: a pass begins from its first frame. -/
def State.cfgScrub (s : State) : State :=
  if s.cfgOn FABRIC_SCRUB_CTRL_ENABLE then (s.setFab fun f => { f with visited := [] }).cfgStart else s.cfgFault 4

/-- A write of CFG_CMD (Fabric R444, R449, R450). -/
def State.cfgCmd (s : State) (q : Req) (v : Nat) : State :=
  if !q.pfOrHost || !s.domUp 19 || !s.spineUp then s
  else if s.fab.cmd.isSome then s.report { code := Code.FABRIC_BUSY }
  else
    let s := s.wrN FABRIC_CFG_CMD (nbits v 27 24 * 2 ^ 24 + nbits v 18 16 * 2 ^ 16 + v % 65536)
    if !nbit v 31 then s
    else match nbits v 27 24 with
      | 1 => s.readFrame (v % 65536)
      | 2 => s.cfgClear (nbits v 18 16)
      | 3 => s.cfgScrub
      | _ => s.cfgFault 1

def execReadFrame (q : Req) (far : Fin 65536) (s : State) : Host.Outcome State Fault Refusal :=
  .next (s.landing q FABRIC_CFG_CMD fun s => s.cfgCmd q (0x81000000 + far))

def execClear (q : Req) (g : Fin 8) (s : State) : Host.Outcome State Fault Refusal :=
  .next (s.landing q FABRIC_CFG_CMD fun s => s.cfgCmd q (0x82000000 + g * 65536))

def execScrubPass (q : Req) (s : State) : Host.Outcome State Fault Refusal :=
  .next (s.landing q FABRIC_CFG_CMD fun s => s.cfgCmd q 0x83000000)

/-! ### Scrubbing (Fabric R440 to R443) -/

/-- Frames that the scrubber reads: those of ACTIVE regions that have a golden signature. -/
def State.scrubbed (s : State) : List Nat :=
  (s.fab.golden.filter fun e => (List.range 8).any fun g => s.regionState g == 2 && s.farIn g e.1).map Prod.fst

/-- A frame has been read: a pass ends when every frame has been. -/
def State.scrubVisit (s : State) (far : Nat) : State :=
  let v := if s.fab.visited.contains far then s.fab.visited else s.fab.visited ++ [far]
  if s.scrubbed.all v.contains then (s.setFab fun f => { f with visited := [] }).add64 FABRIC_SCRUB_PASSES 1 else s.setFab fun f => { f with visited := v }

/-- An upset in a frame of a region. -/
def State.upset (s : State) (g far : Nat) : State :=
  let s := (s.addSat (FABRIC_REGION_UPSETS g) 1).put (FABRIC_REGION_LAST_UPSET_FAR g) far
  let s := if s.fab.upset.contains far then s
    else (s.setFab fun f => { f with upset := f.upset ++ [far] }).report { code := Code.FABRIC_UPSET, unit := g, detail := far }
  if s.cfgOn (FABRIC_REGION_CTRL_SCRUB_ACTION g) && !(s.fab.faultDue.any fun x => x.1 == g) then
    s.setFab fun f => { f with faultDue := f.faultDue ++ [(g, s.round)] }
  else s

/-- The scrubber reads a frame back; `flips` are the bits that have changed in it (word, mask) since it was last read. -/
def State.scrubRead (s : State) (far : Nat) (flips : List (Nat × Nat)) : State :=
  let s := s.setFrame far (flips.foldl (fun l x => l.modify x.1 fun w => w ^^^ (x.2 % 2 ^ 32)) (s.frame far))
  let s := match s.regionAt (nbits far 15 10) with
    | none => s
    | some g =>
      if some (frameCrc (s.frame far)) == SMap.get (fun _ => none) s.fab.golden far then s.setFab fun f => { f with upset := f.upset.filter (· != far) }
      else s.upset g far
  s.scrubVisit far

def execFabricScrubRead (far : Fin 65536) (flips : List (Nat × Nat)) (s : State) : Host.Outcome State Fault Refusal :=
  .next (if s.cfgOn FABRIC_SCRUB_CTRL_ENABLE && s.domUp 19 && !s.engineBusy && s.fab.cmd.isNone && s.scrubbed.contains far then s.scrubRead far flips else s)

/-! ### MESH, REG and clocks (Fabric R445 to R447) -/

/-- The region that holds column 18 makes a memory request. FUNCTION has no values above 18: the spec does not say what a higher one does, and it has no
window (log entry 165). -/
def State.meshRequest (s : State) (a : Nat) (o : MemOp) : State :=
  let f := s.cfg FABRIC_PORT_CFG_FUNCTION
  let n := match o with | .read n => n | .write b => b.length
  let k := s.cfg FABRIC_PORT_CFG_CLASS
  let fault : State → State := fun s => (s.report { code := Code.FABRIC_MEM_FAULT, detail := a }).giveAcc .fabric .refused
  if n = 0 || 64 < n then s
  else if !s.cfgOn FABRIC_PORT_CFG_MESH_EN || 18 < f then fault s
  else match s.fnCheck f a n with
    | some e => fault (s.accReport e)
    | none =>
      if inSram a n then s.sramAccess k a o .fabric
      else match o with
        | .write b => ((s.portWrite k none meshFabric a n).store a b).giveAcc .fabric .written
        | .read _ =>
          let s := s.portRead k none meshFabric a n
          s.giveAcc .fabric (if s.poisoned a n then .poison else .data (s.rdMem a n))

/-- A region runs that holds column 18. -/
def State.region18 (s : State) : Option Nat := (s.regionAt 18).filter fun g => s.regionRuns g

def execFabricMeshRequest (a : Nat) (o : MemOp) (s : State) : Host.Outcome State Fault Refusal :=
  .next (if s.region18.isSome then s.meshRequest a o else s)

/-- An access to a region's register window; `ans` is the region's answer to a read within 256 ns. -/
def State.fabReg (s : State) (g off : Nat) (w ans : Option Nat) : State :=
  if s.region18 != some g then (if w.isNone then s.giveRead 0 else s)
  else match w, ans with
    | some v, _ => s.setFab fun f => { f with regs := f.regs ++ [(g, off, some v)] }
    | none, some v => s.giveRead (v % 2 ^ 64)
    | none, none => s.setFab fun f => { f with regs := f.regs ++ [(g, off, none)] }

def execFabricRegAccess (q : Req) (g : Fin 8) (off : Fin 65536) (w ans : Option Nat) (s : State) : Host.Outcome State Fault Refusal :=
  .next (if q.reachesRegs && s.spineUp then
      let s := if w.isSome then s.dropHold q none else s
      if s.domUp 19 then s.fabReg g off w ans else if w.isNone then s.giveRead 0 else s
    else s)

/-- A read that the region has not answered within 256 ns returns all ones. -/
def execFabricRegTimeout (g : Fin 8) (s : State) : Host.Outcome State Fault Refusal :=
  .next (match s.fab.regs.find? fun x => x.1 == g.val && x.2.2.isNone with
    | some x => ((s.setFab fun f => { f with regs := f.regs.erase x }).giveRead 0xFFFFFFFF).report { code := Code.FABRIC_REG_TIMEOUT, unit := g }
    | none => s)

/-- A write of CLK_CFG: out-of-range MHZ reads as 100; the clock changes at the next boundary. -/
def State.clkCfg (s : State) (q : Req) (i v : Nat) : State :=
  if q.pfOrHost && s.domUp 19 && s.spineUp then
      let m := v % 1024
      s.wrCfg (FABRIC_CLK_CFG i) (nbits v 31 31 * 2 ^ 31 + (if 10 ≤ m && m ≤ 500 then m else 100))
    else s

def execClkCfgWrite (q : Req) (i : Fin 4) (v : Nat) (s : State) : Host.Outcome State Fault Refusal :=
  .next (s.landing q (FABRIC_CLK_CFG i) fun s => s.clkCfg q i v)

/-! ### The round boundary and the domain (Fabric R429, R444, R449) -/

/-- A command in progress ends, HOLD comes into force, and regions kept through RETAIN are released. -/
def State.fabBoundary (s : State) : State :=
  let s := match s.fab.cmd with
    | some 0 => (((s.setFab fun f => { f with cmd := none }).putB FABRIC_CFG_CMD_GO false).putB FABRIC_CFG_STATUS_BUSY false).putB FABRIC_CFG_STATUS_DONE true
    | _ => s
  let s := if s.dom 19 = 0 then s.setFab fun f => { f with retained := false } else s
  if (List.range 8).any fun g => (s.regionPair g).2 != 0 then s.each (List.range 8) fun s g => s.regionSync g else s

/-- PD_FAB leaves ON: loads end with FABRIC_OFF, and regions that were loading are EMPTY (Fabric R439). -/
def State.fabStop (s : State) : State :=
  s.each s.fab.loads fun s l => s.fabLoadEnd l 0x8B07 l.g

/-- PD_FAB goes OFF: every region is EMPTY and nothing is kept (Fabric R448, R449). -/
def State.fabOff (s : State) : State := s.setFab fun f => { approved := f.approved }

end Sys2Proof.Machine
end

