-- ==== Sys2Proof/Machine/RingCmds.lean ====
section
/-! DEFINITION. The commands of Envelopes: doorbells, fetch, start, completion, waits, receipts by register, and ring control. -/

namespace Sys2Proof.Machine
open Reg

/-! ### Doorbells (Envelopes R79 to R82, R113) -/

/-- The ring that a doorbell page belongs to: ring `page` for the PF and the host cores, and the page-th ring that names the function,
in ascending order, for a virtual function (Envelopes R79). -/
def State.pageRing (s : State) (q : Req) (page : Nat) : Option Nat :=
  match q with
  | .vf _ => if page < 256 then (s.ringsOwned q.fn)[page]? else none
  | .fw _ => none
  | _ => some page

/-- A write of a doorbell word: by the ring's owner (R113), of a ring that is not DISABLED (Table 3.9). -/
def State.doorbell (s : State) (q : Req) (page : Nat) (act : State → Nat → State) : State :=
  match s.pageRing q page with
  | none => s
  | some r =>
    if s.ringFn r != q.fn then s.report { code := Code.DOORBELL_DENIED, ring := some r }
    else if s.ringState r = 0 then s
    else act s r

/-- What a word of a doorbell page reads (Envelopes Table 3.2); every other offset, and a page of no ring, reads zero. -/
def State.pageWord (s : State) (q : Req) (page off : Nat) : Nat :=
  match s.pageRing q page with
  | none => 0
  | some r =>
    if off = 0 then s.rdN (RINGS_SUB_TAIL r) else if off = 4 then s.rdN (RINGS_RET_HEAD r) else if off = 8 then s.rdN (RINGS_SUB_HEAD r)
    else if off = 0xC then s.rdN (RINGS_RET_TAIL r) else if off = 0x10 then s.rdN (RINGS_STATUS r) else 0

/-- The tests of a submission doorbell (Envelopes R81). -/
def State.subDoorbellOk (s : State) (r v : Nat) : Bool :=
  decide (cdiff v (s.rdN (RINGS_SUB_HEAD r)) ≤ s.ringSize r) && decide (cdiff v (s.rdN (RINGS_SUB_TAIL r)) ≤ s.ringSize r)

/-- SUB_TAIL := v if the tests pass, DOORBELL_BAD otherwise (Envelopes R81). -/
def State.subDoorbell (s : State) (r v : Nat) : State :=
  if s.subDoorbellOk r v then s.wrN (RINGS_SUB_TAIL r) (v % 2 ^ 32) else s.report { code := Code.DOORBELL_BAD, ring := some r }

/-- The test of a return doorbell (Envelopes R82). -/
def State.retDoorbellOk (s : State) (r v : Nat) : Bool := decide (cdiff v (s.rdN (RINGS_RET_HEAD r)) ≤ s.unconsumed r)

/-- RET_HEAD := v if the test passes; entries that free let waiting records be written (Envelopes R82, R96). -/
def State.retDoorbell (s : State) (r v : Nat) : State :=
  if s.retDoorbellOk r v then (s.wrN (RINGS_RET_HEAD r) (v % 2 ^ 32)).flush r
  else s.report { code := Code.DOORBELL_BAD, ring := some r }

/-- An access to a doorbell page at an offset: a read of a word, or a write `v`. Offsets 0x000 to 0x013 take aligned 32-bit accesses alone, and writes
only at the two doorbells; any other access there is discarded with REG_ACCESS, and a read of it returns zero (R80). Writes of the rest of the page are
discarded (R79). -/
def State.pageAccess (s : State) (q : Req) (page : Nat) (a : PageAcc) (v : Option Nat) : State :=
  let whole := a.size == 4 && a.off % 4 == 0
  match v with
  | none =>
    if !s.spineUp then s.giveRead 0
    else if decide (a.off < 0x14) && !whole then (s.giveRead 0).report { code := Code.REG_ACCESS }
    else s.giveRead (if whole then s.pageWord q page a.off else 0)
  | some v =>
    if !s.spineUp || decide (0x14 ≤ a.off) then s
    else if whole && a.off == 0 then s.doorbell q page fun s r => s.subDoorbell r v
    else if whole && a.off == 4 then s.doorbell q page fun s r => s.retDoorbell r v
    else s.report { code := Code.REG_ACCESS }

/-- An access to the submission doorbell's page: at offset 0x000 a write is a submission doorbell. -/
def execSubmissionDoorbell (q : Req) (page : Ring) (a : PageAcc) (v : Option Nat) (s : State) : Host.Outcome State Fault Refusal :=
  .next (s.pageAccess q page a v)

/-- An access to the return doorbell's page: at offset 0x004 a write is a return doorbell. -/
def execReturnDoorbell (q : Req) (page : Ring) (a : PageAcc) (v : Option Nat) (s : State) : Host.Outcome State Fault Refusal :=
  .next (s.pageAccess q page a v)

/-! ### Fetch (Envelopes R84, R85) -/

/-- A ring that is RUNNING, holds unfetched envelopes and is not blocked by a WAIT (Envelopes R85, R93). -/
def State.fetchable (s : State) (r : Nat) : Bool :=
  s.ringState r == 1 && s.rdN (RINGS_SUB_HEAD r) != s.rdN (RINGS_SUB_TAIL r) &&
    !((s.ring r).flights.any fun f => Env.kind f.env == 3 && f.stage != .done)

/-- The fetches of a class in this round. -/
def FetchSt.of (f : FetchSt) (k : Nat) : Nat := if k = 0 then f.express else if k = 1 then f.first else if k = 2 then f.second else f.bulk

/-- Count a fetch of ring `r` in class `k`. -/
def FetchSt.add (f : FetchSt) (k r : Nat) : FetchSt :=
  let f := { f with served := r :: f.served }
  if k = 0 then { f with express := f.express + 1 } else if k = 1 then { f with first := f.first + 1 }
  else if k = 2 then { f with second := f.second + 1 } else { f with bulk := f.bulk + 1 }

/-- A ring of class `k` waits to be fetched. -/
def State.classWaits (s : State) (k : Nat) : Bool := s.liveRings.any fun r => s.fetchable r && s.ringClass r == k

/-- The engine may fetch from ring `r` now: up to 64 fetches in a round, the classes in order, two fetches kept for each lower class that has
a ring waiting, and rings of equal class in rotation (Envelopes R85). -/
def State.mayFetch (s : State) (r : Nat) : Bool :=
  let k := s.ringClass r
  let f := s.fetch
  let total := f.express + f.first + f.second + f.bulk
  let kept := (List.range 4).foldl (fun n j => if k < j && s.classWaits j then n + (2 - f.of j) else n) 0
  let outranked := (List.range 4).any fun j => decide (j < k) && s.classWaits j
  let turn := !f.served.contains r || (s.liveRings.all fun x => !(s.fetchable x) || s.ringClass x != k || f.served.contains x)
  s.fetchable r && decide (total + kept < 64) && (!outranked || decide (f.of k < 2)) && turn

/-- The address of submission ring entry `i mod S` (Envelopes R78, R89). -/
def State.subAddr (s : State) (r i : Nat) : Nat :=
  s.get (RINGS_SUB_BASE_ADDR r) * 4096 + 64 * (i % s.ringSize r) + (if s.on (RINGS_SUB_BASE_HOST r) then 2 ^ 63 else 0)

/-- A WAIT is satisfied when its receipt has reached VALUE (Envelopes R108). -/
def State.waitMet (s : State) (f : Flight) : Bool := decide (Env.value f.env ≤ s.receipt (Env.receipt f.env))

/-- Test a WAIT that its checks have passed, from its fetch on: it completes with OK when it is satisfied, and otherwise blocks its ring (Envelopes R93,
R108). -/
def State.waitTest (s : State) (r seq : Nat) : State :=
  match s.flight r seq with
  | some f => if Env.kind f.env = 3 && f.fetchFail == 0 && s.waitMet f then s.complete r seq 0 0 else s
  | none => s

/-- Read the envelope at SUB_HEAD once and act on the copy (Envelopes R84). A read that fails completes the envelope with BAD_ADDRESS, or with
MEM_POISON when the data is poison (Memory Table 12.7); its record then carries USER 0 and KIND 0, and no flag of it acts (DESIGN CHOICE: the spec does
not say what such a record carries; log entry 153). A WAIT is tested at once (R108). -/
def State.fetchOne (s : State) (r : Nat) : State :=
  let i := s.rdN (RINGS_SUB_HEAD r)
  let (env, fail, s) : Bytes × Nat × State := match s.addrRead (s.ringFn r) (s.subAddr r i) 64 with
    | .ok e => (e, s.envCheck r e, s)
    | .error .poison => (List.replicate 64 0, 0x0A, s)
    | .error x => (List.replicate 64 0, 3, s.accReport x)
  let served := if s.fetch.served.contains r then s.fetch.served.filter fun x => s.ringClass x != s.ringClass r else s.fetch.served
  let s := s.setFetch fun f => { f with served := served }.add (s.ringClass r) r
  let s := s.wrN (RINGS_SUB_HEAD r) ((i + 1) % 2 ^ 32)
  let d := s.ring r
  let s := s.setRing r { d with flights := d.flights ++ [{ seq := i, env := env, fetchRound := s.round, startRound := s.round, fetchFail := fail }] }
  (s.ringTraffic r i (s.subAddr r i) 64).waitTest r i

def execEnvelopeFetch (r : Ring) (s : State) : Host.Outcome State Fault Refusal :=
  .next (if s.spineUp && s.mayFetch r then s.fetchOne r else s)

/-! ### Start (Envelopes R90, R93, R96) -/

/-- The envelopes fetched before the first one that has not started, and that one. -/
def State.nextToStart (s : State) (r : Nat) : Option (List Flight × Flight) :=
  let fl := (s.ring r).flights
  match fl.find? fun f => f.stage == .fetched with
  | none => none
  | some f => some (fl.takeWhile fun x => x.seq != f.seq, f)

/-- The predecessor lets an envelope start: it has completed, or it has started and the envelope overlaps. A WAIT that was satisfied before its turn to
start stands for what is before it (Envelopes R93; log entry 154). `before` is latest first. -/
def behindOk (overlap : Bool) : List Flight → Bool
  | [] => true
  | p :: t => if p.stage = .done then (if p.reserved then true else behindOk (overlap && Env.overlap p.env) t) else overlap && p.stage != .fetched

/-- The order rules of Envelopes R93 for an envelope behind `before`. -/
def orderOk (before : List Flight) (f : Flight) : Bool :=
  let open' := before.filter fun x => x.stage != .done
  !(open'.any fun x => Env.kind x.env == 3 || Env.kind x.env == 12) &&
    (if Env.kind f.env = 12 then open'.isEmpty else behindOk (Env.overlap f.env) before.reverse)

/-- An envelope that the serving marshal carries out waits while it does not run (Firmware Table 17.4). -/
def State.marshalWaits (s : State) (f : Flight) : Bool := f.fetchFail == 0 && [6, 7, 10].contains (Env.kind f.env) && !s.fwRunning 1

/-- Start the next envelope of a ring if it may start: the ring RUNNING, no safe-state entry in progress (Errors R600), its order (R93) and a
return entry for it (R96). An envelope that its checks fail takes no action and completes with their status (R90). The start
round of a WAIT is its fetch round (R100). -/
def State.startOne (s : State) (r : Nat) : State :=
  match s.nextToStart r with
  | none => s
  | some (before, f) =>
    if s.ringState r != 1 || s.on ERROR_STATUS_ENTERING || s.on ERROR_STATUS_SAFE || !orderOk before f || s.marshalWaits f || s.preparing 26 ||
        s.memWaits r f.seq || (decide (s.ringFn r ≤ 16) && s.preparing 21) then s
    else if !s.retRoom r then s.putB (RINGS_STATUS_RET_FULL r) true
    else
      let start := if Env.kind f.env = 3 then f.fetchRound else s.round
      let s := s.setFlight r f.seq fun f => { f with stage := .started, startRound := start, reserved := true }
      let s := if Env.postmark f.env != 0 && s.cfgOn FLOOR_DEBUG_CTRL_STAMP_POSTMARKS then
        s.stamp 1 (r + Env.kind f.env * 65536) f.seq (Env.postmark f.env) else s
      if f.fetchFail != 0 then s.complete r f.seq f.fetchFail 0 else s

def execEnvelopeStart (r : Ring) (t : Nat) (s : State) : Host.Outcome State Fault Refusal :=
  .next (if s.spineUp then (s.atNs t).startOne r else s)

/-! ### Completion (Envelopes R94, R95, R104) -/

/-- Complete an envelope all of whose effects have taken place. -/
def execEnvelopeComplete (r : Ring) (seq t : Nat) (s : State) : Host.Outcome State Fault Refusal :=
  .next (match s.flight r seq with
    | some f => if f.stage = .ended && !s.memWaits r seq then (s.atNs t).complete r seq f.status f.result else s
    | none => s)

/-- Raise the ring's interrupt when a record has waited IRQ.DELAY rounds without one; DELAY 0 sets no limit (Envelopes R104). -/
def execIrqDelay (r : Ring) (s : State) : Host.Outcome State Fault Refusal :=
  let d := s.ring r
  let n := s.cfg (RINGS_IRQ_DELAY r)
  .next (match d.irqSince with
    | some c => if n != 0 && decide (c + n ≤ s.round) then
        (s.setRing r { d with irqPend := 0, irqSince := none }).irqTo (s.ringFn r) (s.cfg (RINGS_IRQ_VECTOR r)) 0x03
      else s
    | none => s)

/-! ### NOP, FENCE, WAIT (Envelopes R91, R93, R108, R109) -/

def execNop (r : Ring) (seq : Nat) (s : State) : Host.Outcome State Fault Refusal :=
  .next (match s.startedOf r seq 0 with
    | some _ => s.complete r seq 0 0
    | none => s)

/-- A FENCE has started only once every earlier envelope has completed; the model's writes to host memory are visible when made. -/
def execFence (r : Ring) (seq : Nat) (s : State) : Host.Outcome State Fault Refusal :=
  .next (match s.startedOf r seq 12 with
    | some _ => s.complete r seq 0 0
    | none => s)

def execWait (r : Ring) (seq : Nat) (s : State) : Host.Outcome State Fault Refusal := .next (s.waitTest r seq)

def execWaitSatisfied (r : Ring) (seq : Nat) (s : State) : Host.Outcome State Fault Refusal := .next (s.waitTest r seq)

/-- A WAIT not satisfied by the end of round f + TIMEOUT, where f is its fetch round, completes with TIMEOUT; TIMEOUT 0 sets no limit
(Envelopes R109). A signal that satisfies it in the same cycle gives OK. -/
def execWaitTimeout (r : Ring) (seq : Nat) (s : State) : Host.Outcome State Fault Refusal :=
  .next (match s.flight r seq with
    | some f =>
      if Env.kind f.env = 3 && f.fetchFail == 0 && (f.stage == .started || f.stage == .fetched) && Env.timeout f.env != 0 &&
          decide (f.fetchRound + Env.timeout f.env < s.round) then
        s.complete r seq (if s.waitMet f then 0 else 8) 0
      else s
    | none => s)

/-! ### Receipts by register (Envelopes R105, R112, R115) -/

/-- Apply the signal of RECEIPT_SIG_INDEX for the writer, or report BAD_RECEIPT (Envelopes R112). -/
def State.sigRegister (s : State) (q : Req) (v : Nat) : State :=
  if !q.pfOrHost then s else
  let i := s.get RINGS_RECEIPT_SIG_INDEX_INDEX
  if s.maySignal q.fn i then s.signal (8, q.fn) i (s.on RINGS_RECEIPT_SIG_INDEX_MODE) (v % 2 ^ 64)
  else s.report { code := Code.BAD_RECEIPT, detail := i }

def execReceiptSigValue (q : Req) (v : Nat) (s : State) : Host.Outcome State Fault Refusal :=
  .next (s.landing q RINGS_RECEIPT_SIG_VALUE fun s => s.sigRegister q v)

/-- A RECEIPT_BASE write is accepted only while no ring is enabled, and only if EN is 0 or the write clears EN (Envelopes R105). -/
def State.receiptBase (s : State) (q : Req) (v : Nat) : State :=
  if !q.pfOrHost then s else
  if s.anyRingEnabled || (s.on RINGS_RECEIPT_BASE_EN && nbit v 0) then s.report { code := Code.RING_BUSY }
  else s.wrCfg RINGS_RECEIPT_BASE (nbits v 63 20 * 0x100000 + nbits v 0 0)

def execReceiptBaseWrite (q : Req) (v : Nat) (s : State) : Host.Outcome State Fault Refusal :=
  .next (s.landing q RINGS_RECEIPT_BASE fun s => s.receiptBase q v)

/-! ### Ring set-up and control (Envelopes §7, §8) -/

/-- A write of CFG (Envelopes R114, R115, R116, R120, §8). The spec gives no order between its tests where a write breaks several: they are made in the
order R115, R120, the range of FUNCTION, R116, R114 (DESIGN CHOICE; log entry 151). -/
def State.ringCfg (s : State) (q : Req) (r v : Nat) : State :=
  let f := nbits v 20 16
  let l := nbits v 4 0
  let deny := s.report { code := Code.RING_DENIED, ring := some r }
  let busy := s.report { code := Code.RING_BUSY, ring := some r }
  if !q.pfOrHost then s
  else if s.ringFn r == 18 && !q.secure then deny
  else if s.ringState r != 0 then busy
  else if 19 ≤ f then busy
  else if nbits v 9 8 = 0 && f != 0 && f != 17 && f != 18 then deny
  else if decide (1 ≤ f) && decide (f ≤ 16) && s.ringFn r != f && decide (256 ≤ (s.ringsOwned f).length) then busy
  else s.wrN (RINGS_CFG r) (f * 65536 + nbits v 13 12 * 4096 + nbits v 9 8 * 256 + (if decide (6 ≤ l) && decide (l ≤ 16) then l else 6))

def execRingCfgWrite (q : Req) (r : Ring) (v : Nat) (s : State) : Host.Outcome State Fault Refusal :=
  .next (s.landing q (RINGS_CFG r) fun s => s.ringCfg q r v)

/-- CTRL of a ring owned by function 18 is written only by the secure world (Envelopes R115). -/
def State.ringCtl (s : State) (q : Req) (r : Nat) (act : State → State) : State :=
  if !q.pfOrHost then s
  else if s.ringFn r == 18 && !q.secure then s.report { code := Code.RING_DENIED, ring := some r }
  else act s

/-- ENABLE := 1 takes a DISABLED ring whose two bases are set to RUNNING; otherwise DOORBELL_BAD (Envelopes Table 3.9). DONE_COUNT and
ENERGY_RING start again (§8, Power cap §7). -/
def State.ringEnable (s : State) (r : Nat) : State :=
  if s.ringState r != 0 || s.on ERROR_STATUS_SAFE then s
  else if s.rdN (RINGS_SUB_BASE r) = 0 || s.rdN (RINGS_RET_BASE r) = 0 then s.report { code := Code.DOORBELL_BAD, ring := some r }
  else
    let s := ((s.ringOff r).putB (RINGS_CTRL_ENABLE r) true).put (RINGS_STATUS_STATE r) 1
    (s.wrN (RINGS_DONE_COUNT r) 0).wrN (MONITOR_ENERGY_RING r) 0

/-- ENABLE := 0 disables a STOPPED ring; it is accepted from no other state (Envelopes §8). -/
def State.ringDisable (s : State) (r : Nat) : State := if s.ringState r = 3 then s.ringOff r else s

/-- RESUME takes a STOPPED ring to RUNNING (Envelopes R119); no ring leaves STOPPED in the safe state (Errors R599). -/
def State.ringResume (s : State) (r : Nat) : State :=
  if s.ringState r = 3 && !s.on ERROR_STATUS_SAFE then s.put (RINGS_STATUS_STATE r) 1 else s

def execRingEnable (q : Req) (r : Ring) (s : State) : Host.Outcome State Fault Refusal :=
  .next (s.landing q (RINGS_CTRL r) fun s => s.ringCtl q r fun s => s.ringEnable r)

def execRingDisable (q : Req) (r : Ring) (s : State) : Host.Outcome State Fault Refusal :=
  .next (s.landing q (RINGS_CTRL r) fun s => s.ringCtl q r fun s => s.ringDisable r)

def execRingStop (q : Req) (r : Ring) (s : State) : Host.Outcome State Fault Refusal :=
  .next (s.landing q (RINGS_CTRL r) fun s => s.ringCtl q r fun s => s.ringStop r)

def execRingResume (q : Req) (r : Ring) (s : State) : Host.Outcome State Fault Refusal :=
  .next (s.landing q (RINGS_CTRL r) fun s => s.ringCtl q r fun s => s.ringResume r)

end Sys2Proof.Machine
end

