-- ==== Sys2Proof/Machine/Sampling.lean ====
section
/-! DEFINITION. The choice of a token (Serving R302): greedy, or seeded sampling with Philox4x32-10. -/

namespace Sys2Proof.Machine

/-! ### Philox4x32-10 -/

/-- One round of Philox4x32 on a counter of four words, with a key of two. -/
def philoxRound (k0 k1 : Nat) : Nat × Nat × Nat × Nat → Nat × Nat × Nat × Nat
  | (c0, c1, c2, c3) =>
    let a := 0xD2511F53 * c0
    let b := 0xCD9E8D57 * c2
    ((b / 2 ^ 32 ^^^ c1) ^^^ k0, b % 2 ^ 32, (a / 2 ^ 32 ^^^ c3) ^^^ k1, a % 2 ^ 32)

/-- `n` rounds, the key rising by its constants after each. -/
def philox : Nat → Nat → Nat → Nat × Nat × Nat × Nat → Nat × Nat × Nat × Nat
  | 0, _, _, c => c
  | n + 1, k0, k1, c => philox n ((k0 + 0x9E3779B9) % 2 ^ 32) ((k1 + 0xBB67AE85) % 2 ^ 32) (philoxRound k0 k1 c)

/-- u of a position, in units of 2^-32: word 0 of Philox4x32-10 with key SEED and the position as its counter. -/
def drawOf (seed q : Nat) : Nat := (philox 10 (seed % 2 ^ 32) (seed / 2 ^ 32 % 2 ^ 32) (q % 2 ^ 32, q / 2 ^ 32 % 2 ^ 32, 0, 0)).1

/-! ### The choice -/

/-- Put an item before the first that it is to precede. -/
def insertBy {α : Type} (before : α → α → Bool) (a : α) : List α → List α
  | [] => [a]
  | b :: t => if before a b then a :: b :: t else b :: insertBy before a t

/-- Items in order; those of which neither precedes the other stay as they were. -/
def sortBy {α : Type} (before : α → α → Bool) (l : List α) : List α := l.foldr (insertBy fun a b => !before b a) []

/-- Tokens with their logits, largest first, the lowest token first of those with one logit. -/
def byLogit (l : List Nat) : List (Nat × Nat) := sortBy (fun a b => (f32.dec b.2).lt (f32.dec a.2)) (l.zipIdx.map fun x => (x.2, x.1))

/-- The first token at which the running sum of probabilities exceeds the draw's part of the total. -/
def firstOver (draw total : Nat) : Nat → List (Nat × Nat) → Option Nat
  | _, [] => none
  | sum, x :: t => if draw * total < (sum + x.2) * 2 ^ 32 then some x.1 else firstOver draw total (sum + x.2) t

/-- Seeded sampling: the `k` largest logits are kept (0: all), their probabilities are those that the reference evaluator forms, and the draw picks among them in
descending order of probability. -/
def sampleToken (temperature k draw : Nat) (l : List Nat) : Option Nat :=
  let kept := if k = 0 then byLogit l else (byLogit l).take k
  let p := Config.prob temperature (kept.map fun x => x.2)
  let tokens := sortBy (fun a b => decide (b.2 < a.2) || (a.2 == b.2 && decide (a.1 < b.1))) (kept.zipIdx.map fun x => (x.1.1, p x.2))
  firstOver draw ((tokens.map fun x => x.2).foldl (· + ·) 0) 0 tokens

/-- The token that a model with some logits gives. What a NaN among them gives, and a total of zero, is not stated. -/
def pickToken (sampling temperature k draw : Nat) (l : List Nat) : Nat :=
  let y := if l.any fun x => f32.dec x == .nan then none
    else if sampling = 0 then (byLogit l).head?.map fun x => x.1
    else sampleToken temperature k draw l
  y.getD (Config.noToken l % 2 ^ 32)

end Sys2Proof.Machine
end

