-- ==== Sys2Proof/Machine/Serving.lean ====
section
/-! DEFINITION. The serving marshal (Serving): sessions, requests, passes, and postscripts. -/

namespace Sys2Proof.Machine
open Reg

/-! ### Sessions -/

def State.session (s : State) (id : Nat) : Option Session := s.serve.sessions.find? fun x => x.id == id

/-- Replace a session. -/
def State.setSession (s : State) (x : Session) : State :=
  s.setServe fun v => { v with sessions := v.sessions.map fun y => if y.id = x.id then x else y }

namespace Session

/-- Fields of the descriptor (Serving Table 9.2). -/
def parcel (x : Session) : Nat := fieldLE x.desc 0 8
def districts (x : Session) : Nat := fieldLE x.desc 8 2
def entry (x : Session) : Nat := fieldLE x.desc 0x0A 2
def draftEntry (x : Session) : Nat := fieldLE x.desc 0x0C 2
def tenants (x : Session) : Nat := fieldLE x.desc 0x0E 2
def pool (x : Session) : Nat := fieldLE x.desc 0x10 8
def pages (x : Session) : Nat := fieldLE x.desc 0x18 4
def pageBytes (x : Session) : Nat := fieldLE x.desc 0x1C 4
def maxRequests (x : Session) : Nat := fieldLE x.desc 0x20 2
def chunk (x : Session) : Nat := fieldLE x.desc 0x22 2
def maxContext (x : Session) : Nat := fieldLE x.desc 0x24 4
def maxPositions (x : Session) : Nat := fieldLE x.desc 0x28 4
def argLen (x : Session) : Nat := fieldLE x.desc 0x2C 4
def args (x : Session) : Nat := fieldLE x.desc 0x30 8

/-- The pages of the pool that running requests hold. -/
def used (x : Session) : List Nat := x.running.foldl (fun a r => a ++ r.pages) []

/-- The SEQs under which the pass RUN of a session, and the draft model's RUN before it, are known: beyond every submission count. -/
def seq (x : Session) : Nat := 2 ^ 32 + x.id
def draftSeq (x : Session) : Nat := 2 ^ 33 + x.id

/-- The session's parcel as one number. -/
def model (x : Session) : Nat := (x.key.id * 2 ^ 32 + x.key.version) * 2 ^ 32 + x.key.crc

end Session

/-- Tests of the descriptor's own fields (Serving Table 9.2, R287), in ascending offset. -/
def descTests (d : Bytes) : List (Nat × Bool) :=
  let f := fun off n => fieldLE d off n
  [(0, f 0 8 % 64 == 0), (0x10, f 0x10 8 % 4096 == 0 && decide (f 0x10 8 < 0x2000000000)), (0x18, decide (1 ≤ f 0x18 4) && decide (f 0x18 4 ≤ 1048576)),
    (0x1C, f 0x1C 4 % 4096 == 0 && f 0x1C 4 != 0),
    (0x20, decide (1 ≤ f 0x20 2) && decide (f 0x20 2 ≤ 256) && decide (f 0x20 2 ≤ f 0x28 4)),
    (0x22, decide (16 ≤ f 0x22 2) && decide (f 0x22 2 ≤ 4096)), (0x24, decide (16 ≤ f 0x24 4) && decide (f 0x24 4 ≤ 16384) && f 0x24 4 % 16 == 0),
    (0x28, decide (16 ≤ f 0x28 4) && decide (f 0x28 4 ≤ 8192)), (0x2C, f 0x2C 4 % 16 == 0), (0x38, f 0x38 8 == 0)]

/-- The argument template of a session's parcel (Serving R287): its bindings, or the status of the failure. -/
def State.templateCheck (s : State) (f : Nat) (x : Session) (m : Image) : Except (State × Nat × Nat) Binds :=
  if hdrF m.hdr 9 1 ≤ x.entry then .error (s, 0x810B, 0xFFFFFFFF)
  else if fieldLE (rowOf m.entries 16 x.entry) 0 4 != x.argLen + 64 then .error (s, 0x8A09, 0x2C)
  else match (if x.argLen = 0 then .ok [] else s.addrRead f x.args x.argLen) with
    | .error e => .error (s.readFail e)
    | .ok b => match s.bindCheck f false 0 (rowsOf b 16) {} with
      | .error e => .error (s, e)
      | .ok g => .ok g

/-- A started SESSION of an OP. -/
def State.sessionEnv (s : State) (r seq op : Nat) (act : Nat → Bytes → State) : State :=
  match s.startedOf r seq 10 with
  | some f => if fieldLE f.env 0x1C 1 = op then act (fieldLE f.env 0x18 4) f.env else s
  | none => s

/-- OPEN (Serving R285, R287). -/
def State.sessionOpen (s : State) (r seq id : Nat) (e : Bytes) : State :=
  let f := s.ringFn r
  if (s.session id).isSome then s.complete r seq 0x8A02 id
  else if 16 ≤ s.serve.sessions.length then s.complete r seq 0x8A03 16
  else match s.addrRead f (fieldLE e 0x20 8) 64 with
    | .error x => (s.accReport x).complete r seq (readStatus x) 0
    | .ok d =>
      let s := s.ringTraffic r seq (fieldLE e 0x20 8) 64
      let fail := fun st res => s.complete r seq st res
      let x : Session := { id := id, fn := f, ring := r, desc := d, key := ⟨0, 0, 0⟩ }
      if s.get (RINGS_CFG_CLASS r) = 0 then fail 6 0
      else match firstBad (descTests d) with
        | some o => fail 0x8A09 o
        | none => match s.readImage f x.parcel with
          | .error y => y.1.complete r seq y.2.1 y.2.2
          | .ok m =>
            if hdrExpress m.hdr then fail 6 0
            else if hdrF m.hdr 5 1 != 3 then fail 0x8A09 0
            else match s.templateCheck f x m with
              | .error y => y.1.complete r seq y.2.1 y.2.2
              | .ok _ => ((s.tableTraffic r seq x.parcel m.hdr).setServe fun v => { v with sessions := v.sessions ++ [{ x with key := hdrKey m.hdr }] }).complete r seq 0 0

def execSessionOpen (r : Ring) (seq : Nat) (s : State) : Host.Outcome State Fault Refusal :=
  .next (s.sessionEnv r seq 0 (s.sessionOpen r seq))

/-! ### Requests (Serving R288 to R290) -/

namespace Request

def prompt (q : Request) : Nat := fieldLE q.head 8 4
def maxNew (q : Request) : Nat := fieldLE q.head 0x0C 4
def output (q : Request) : Nat := fieldLE q.head 0x10 8
def tenant (q : Request) : Nat := fieldLE q.head 0x18 1
def handle (q : Request) : Nat := fieldLE q.head 0x1A 2
def sampling (q : Request) : Nat := fieldLE q.head 0x19 1
def seed (q : Request) : Nat := fieldLE q.head 0x20 8
def temperature (q : Request) : Nat := fieldLE q.head 0x28 4
def topK (q : Request) : Nat := fieldLE q.head 0x2C 4
def promptAddr (q : Request) : Nat := fieldLE q.head 0 8
def drafts (q : Request) : Nat := fieldLE q.head 0x1C 1
def outriders (q : Request) : Nat := fieldLE q.head 0x1D 1
def receipt (q : Request) : Nat := fieldLE q.head 0x30 4
def stop (q : Request) : Nat := fieldLE q.head 0x34 4

/-- The letterbook pages that a request needs (Serving R293). -/
def need (q : Request) : Nat := (q.prompt + q.maxNew + 15 + 15) / 16

/-- Bytes 0x44 to 0x7F of the block as the marshal writes them. -/
def tail (q : Request) (now : Nat) : Bytes :=
  leBytes 4 q.emitted ++ leBytes 4 (match q.slot with | some n => n | none => 0xFFFFFFFF) ++ leBytes 4 q.generation ++ leBytes 8 q.round ++
    leBytes 8 now ++ leBytes 4 q.passes ++ leBytes 4 q.proposed ++ leBytes 4 q.accepted ++ leBytes 4 (min q.energy 0xFFFFFFFF)

end Request

/-- Tests of a request block against a session (Serving R288), in ascending offset. -/
def requestTests (b : Bytes) (x : Session) : List (Nat × Bool) :=
  let f := fun off n => fieldLE b off n
  let t := f 0x28 4
  [(0, f 0 8 % 4 == 0), (8, decide (1 ≤ f 8 4) && decide (f 8 4 ≤ 16384)),
    (0x0C, decide (1 ≤ f 0x0C 4) && decide (f 0x0C 4 ≤ 16384) && decide (f 8 4 + f 0x0C 4 ≤ x.maxContext)), (0x10, f 0x10 8 % 4 == 0),
    (0x18, decide (f 0x18 1 ≤ 15)), (0x19, decide (f 0x19 1 ≤ 1)), (0x1A, decide (f 0x1A 2 ≤ 255) || f 0x1A 2 == 0xFFFF),
    (0x1C, decide (f 0x1C 1 ≤ 15) && (f 0x1C 1 == 0 || x.draftEntry != 0xFFFF)), (0x1D, decide (f 0x1D 1 ≤ 7) && decide (f 0x1C 1 + f 0x1D 1 ≤ 15)),
    (0x1E, f 0x1E 2 == 0), (0x28, f 0x19 1 == 0 || (!nbit t 31 && nbits t 30 23 != 0 && nbits t 30 23 != 255)), (0x2C, decide (f 0x2C 4 ≤ Config.vocab x.model)),
    (0x30, nbits (f 0x30 4) 30 17 == 0),
    (0x38, f 0x38 8 == 0)]

/-- A write covers a part of a poisoned line, which it does not change (Memory R415). -/
def State.poisonedPart (s : State) (a : Nat) (b : Bytes) : Bool :=
  !isHostAddr a && (chunksOf 64 a b).any fun l => s.poison.contains (l.1 / 64 * 64) && l.2.length != 64

/-- A write by the marshal for a function, and whether it failed (Serving Table 9.4). -/
def State.marshalWrite (s : State) (f a : Nat) (b : Bytes) : State × Option AccErr :=
  let w := s.addrWrite f a b
  (w.1, if w.2.isNone && s.poisonedPart a b then some .poison else w.2)

/-- A tenant belongs to a function (Serving R312). -/
def State.tenantOf (s : State) (t f : Nat) : Bool :=
  decide (t < 16) && s.cfgOn (FIRMWARE_TENANT_FN_VALID t) && s.cfg (FIRMWARE_TENANT_FN_FUNCTION t) == f

/-- ADMIT (Serving R288, R289, R290, R294, R312). -/
def State.sessionAdmit (s : State) (r seq id : Nat) (e : Bytes) : State :=
  let f := s.ringFn r
  let a := fieldLE e 0x20 8
  let fail := fun st res => s.complete r seq st res
  match s.session id with
  | none => fail 0x8A01 id
  | some x =>
    if x.closing then fail 0x8A01 id
    else match s.addrRead f a 64 with
      | .error y => (s.accReport y).complete r seq (readStatus y) 0
      | .ok b =>
        let q : Request := { block := a, fn := f, head := b }
        match firstBad (requestTests b x) with
        | some o => fail 0x8A06 o
        | none =>
          if !s.tenantOf q.tenant f || !nbit x.tenants q.tenant then fail 0x8A05 q.tenant
          else if nbit q.receipt 31 && !s.maySignal f (q.receipt % 2 ^ 17) then fail 4 0
          else if x.pages < q.need then fail 0x8A07 q.need
          else if 1024 ≤ x.queue.length then fail 0x8A04 1024
          else match (s.ringTraffic r seq a 128).marshalWrite f (a + 0x40) (List.replicate 64 0) with
            | (s', some y) => s'.complete r seq (readStatus y) 0
            | (s', none) => (s'.setSession { x with queue := x.queue ++ [q] }).complete r seq 0 x.queue.length

def execSessionAdmit (r : Ring) (seq : Nat) (s : State) : Host.Outcome State Fault Refusal :=
  .next (s.sessionEnv r seq 1 (s.sessionAdmit r seq))

/-! ### The places of postscript slots (Serving R305) -/

/-- Slot states. -/
def slotFree : Nat := 0
def slotLoading : Nat := 1
def slotLoaded : Nat := 2
def slotBound : Nat := 3
def slotDraining : Nat := 4

def State.slotState (s : State) (n : Nat) : Nat := s.get (FIRMWARE_PS_SLOT_STATE_STATE n)

/-- The size of a slot in MiB: 0 reads as 1. -/
def State.slotMib (s : State) : Nat := max (s.cfg FIRMWARE_PS_POOL_CFG_SLOT_MIB) 1

/-- The device address of a slot. -/
def State.slotAddr (s : State) (n : Nat) : Nat := s.cfg FIRMWARE_PS_POOL_BASE_ADDR * 4096 + n * s.slotMib * 0x100000

/-- The reference receipt of a slot. -/
def slotReceipt (n : Nat) : Nat := 122880 + n

/-! ### What a pass gives a request (Serving R295, R300 to R304) -/

/-- The token that a pass gives a request after some tokens, at the position that comes next (Serving R302, R304). -/
def Request.token (q : Request) (model : Nat) (ps : Bytes) (context : List Nat) : Nat :=
  pickToken q.sampling q.temperature q.topK (drawOf q.seed context.length) ((List.range (Config.vocab model)).map (Config.logit model ps context))

/-- The number of candidates accepted: c_j = y_(j−1) for every j up to it. -/
def acceptCount : List Nat → List Nat → Nat
  | c :: cs, y :: ys => if c = y then 1 + acceptCount cs ys else 0
  | _, _ => 0

/-- Tokens up to and with the stop token. -/
def upToStop (stop : Nat) : List Nat → List Nat
  | [] => []
  | t :: l => if nbit stop 31 && t == stop % 2 ^ 31 then [t] else t :: upToStop stop l

/-- A request after a pass: the tokens that it emits, and its counts (Serving R295, R300, R303). Input i is the last token, or candidate i, and y_i is the
model's token after it. -/
def Request.afterPass (q : Request) (model : Nat) (ps : Bytes) : List Nat × Request :=
  let left := q.maxNew - q.emitted
  if q.gen then
    let c := q.feed
    let ys := (List.range (c.length + 1)).map fun i => q.token model ps (q.tokens ++ c.take i)
    let a := acceptCount c ys
    let y := ys.getD a 0
    let out := (upToStop q.stop (c.take a ++ [y])).take left
    (out, { q with
      len := q.len + 1 + a, tokens := q.tokens ++ c.take a ++ [y]
      guesses := (List.range q.outriders).map fun j => Config.guess model ps (q.tokens ++ c.take a) j % 2 ^ 32
      emitted := q.emitted + out.length, passes := q.passes + 1, proposed := q.proposed + c.length, accepted := q.accepted + a })
  else
    let d := q.done + q.grant
    let tokens := q.tokens ++ q.feed
    if q.grant = 0 then ([], q)
    else if d < q.prompt then ([], { q with done := d, len := d, tokens := tokens, passes := q.passes + 1 })
    else
      let y := q.token model ps tokens
      let out := (upToStop q.stop [y]).take left
      (out, { q with done := d, len := d, gen := true, tokens := tokens ++ [y], emitted := q.emitted + out.length, passes := q.passes + 1 })

/-- A request ends with the tokens that it has emitted: STOP, LENGTH, or not yet (Serving Table 9.4). -/
def Request.ended (q : Request) (out : List Nat) : Option Nat :=
  if nbit q.stop 31 && out.contains (q.stop % 2 ^ 31) then some 1 else if q.maxNew ≤ q.emitted then some 2 else none

/-- The image of the slot that a request is bound to; none: empty. -/
def State.postscriptOf (s : State) (q : Request) : Bytes := match q.slot with
  | some n => s.rdMem (s.slotAddr n) (64 + fieldLE (s.rdMem (s.slotAddr n) 64) 0x14 4)
  | none => []

/-- A request that runs in the pass in progress, and ends with it of itself. -/
def State.endsInPass (s : State) (x : Session) (q : Request) : Bool :=
  x.pass.isSome && x.running.contains q && (let y := q.afterPass x.model (s.postscriptOf q); (y.2.ended y.1).isSome)

/-- The request that a CANCEL names: by its block's address, which for a PCIe address is one of the ring's function (Serving R296, Envelopes R89). -/
def Session.named (x : Session) (f a : Nat) : Option Request := (x.queue ++ x.running).find? fun q => q.block == a && (!isHostAddr a || q.fn == f)

/-- CANCEL records itself for the start of the next pass (Serving R296). A request that ends with the pass in progress has none to come: the CANCEL fails
(Serving §10, log entry 163). -/
def State.sessionCancel (s : State) (r seq id : Nat) (e : Bytes) : State :=
  let f := s.ringFn r
  match s.session id with
  | none => s.complete r seq 0x8A01 id
  | some x =>
    match x.named f (fieldLE e 0x20 8) with
    | none => s.complete r seq 0x8A08 0
    | some q =>
      if !s.tenantOf q.tenant f then s.complete r seq 0x8A05 q.tenant
      else if s.endsInPass x q then s.complete r seq 0x8A08 0
      else
        let mark := fun (p : Request) => if p.block = q.block && p.fn = q.fn then { p with cancel := true } else p
        (s.setSession { x with queue := x.queue.map mark, running := x.running.map mark }).complete r seq 0 0

def execSessionCancel (r : Ring) (seq : Nat) (s : State) : Host.Outcome State Fault Refusal :=
  .next (s.sessionEnv r seq 2 (s.sessionCancel r seq))

/-- CLOSE stops admission at once (Serving R297). Only rings of the opener may close. -/
def State.sessionClose (s : State) (r seq id : Nat) (_ : Bytes) : State :=
  match s.session id with
  | none => s.complete r seq 0x8A01 id
  | some x => if x.fn != s.ringFn r then s.complete r seq 0x8A01 id else (s.setSession { x with closing := true }).complete r seq 0 0

def execSessionClose (r : Ring) (seq : Nat) (s : State) : Host.Outcome State Fault Refusal :=
  .next (s.sessionEnv r seq 3 (s.sessionClose r seq))

/-- The status block (Serving Table 9.5). -/
def statusBlock (x : Session) : Bytes :=
  leBytes 4 x.id ++ leBytes 2 x.queue.length ++ leBytes 2 x.running.length ++ leBytes 4 (x.pages - x.used.length) ++ leBytes 4 (min x.lastRounds 0xFFFFFFFF) ++
    leBytes 8 x.passes ++ leBytes 8 x.lastRound ++ List.replicate 32 0

def State.sessionStatus (s : State) (r seq id : Nat) (e : Bytes) : State :=
  match s.session id with
  | none => s.complete r seq 0x8A01 id
  | some x =>
    if x.fn != s.ringFn r then s.complete r seq 0x8A01 id
    else match (s.ringTraffic r seq (fieldLE e 0x20 8) 64).marshalWrite (s.ringFn r) (fieldLE e 0x20 8) (statusBlock x) with
      | (s', some y) => s'.complete r seq (readStatus y) 0
      | (s', none) => s'.complete r seq 0 0

def execSessionStatus (r : Ring) (seq : Nat) (s : State) : Host.Outcome State Fault Refusal :=
  .next (s.sessionEnv r seq 4 (s.sessionStatus r seq))

/-! ### Postscript slots (Serving R305, R310) -/

/-- A slot is zeroed, at bulk class, and becomes FREE. -/
def State.slotClear (s : State) (n : Nat) : State :=
  ((((s.zeroMem (s.slotAddr n) (s.slotMib * 0x100000)).bulkTraffic (s.slotAddr n) (s.slotMib * 0x100000)).wrN (FIRMWARE_PS_SLOT_STATE n) 0).wrN (FIRMWARE_PS_SLOT_GEN n) 0).wrN (FIRMWARE_PS_SLOT_TARGET n) 0

/-- A slot retires: zeroed, freed, and reported to the ring that loaded it unless that ring is DISABLED (Serving R310). -/
def State.slotRetire (s : State) (n : Nat) : State :=
  let t := s.get (FIRMWARE_PS_SLOT_STATE_TENANT n)
  let h := s.get (FIRMWARE_PS_SLOT_STATE_HANDLE n)
  let r := (SMap.get (fun _ => (0, 0, 0)) s.serve.slots n).2.2
  let s := s.slotClear n
  if s.ringState r = 0 then s else s.unsolicited r ⟨0x8602, 6, n * 2 ^ 24 + t * 2 ^ 16 + h, s.round⟩

/-- A slot is DRAINING and its reference receipt has reached TARGET. -/
def State.slotDrained (s : State) (n : Nat) : Bool :=
  s.slotState n == slotDraining && decide (s.rdN (FIRMWARE_PS_SLOT_TARGET n) ≤ s.receipt (slotReceipt n))

def execSlotRetire (slot : Fin 256) (s : State) : Host.Outcome State Fault Refusal :=
  .next (if s.slotDrained slot then s.slotRetire slot else s)

def State.psHandle (s : State) (t h : Nat) : PsHandle := SMap.get (fun _ => {}) s.serve.handles (256 * t + h)

def State.setHandle (s : State) (k : Nat) (x : PsHandle) : State :=
  s.setServe fun v => { v with handles := SMap.set (fun _ => {}) v.handles k x }

/-! ### PS_BIND (Serving R308) -/

/-- A slot holds a tenant's handle at a generation, LOADED, BOUND or DRAINING. -/
def State.slotHolds (s : State) (n t h g : Nat) : Bool :=
  s.get (FIRMWARE_PS_SLOT_STATE_TENANT n) == t && s.get (FIRMWARE_PS_SLOT_STATE_HANDLE n) == h && s.rdN (FIRMWARE_PS_SLOT_GEN n) == g &&
    decide (slotLoaded ≤ s.slotState n) && decide (s.slotState n ≤ slotDraining)

/-- A started PS_BIND: refused, or accepted for the next round boundary. -/
def State.psBind (s : State) (r seq : Nat) (e : Bytes) : State :=
  let h := fieldLE e 0x18 2
  let t := fieldLE e 0x1A 1
  let n := fieldLE e 0x1C 2
  let g := fieldLE e 0x20 4
  let accept := fun slot => s.setServe fun v => { v with binds := v.binds ++ [⟨r, seq, s.round, 256 * t + h, slot⟩] }
  if s.serve.binds.any fun b => b.ring == r && b.seq == seq then s
  else if !s.tenantOf t (s.ringFn r) then s.complete r seq 0x8701 t
  else if 255 < h || (255 < n && n != 0xFFFF) then s.complete r seq 1 0
  else if n = 0xFFFF then accept none
  else if s.slotHolds n t h g then accept (some (n, g))
  else s.complete r seq 0x8702 n

def execPsBind (r : Ring) (seq : Nat) (s : State) : Host.Outcome State Fault Refusal :=
  .next (match s.startedOf r seq 7 with
    | some f => s.psBind r seq f.env
    | none => s)

/-- Set a slot's state. -/
def State.setSlot (s : State) (n st : Nat) : State := s.put (FIRMWARE_PS_SLOT_STATE_STATE n) st

/-- One bind takes effect: the former slot drains, and an unbind retires the LOADED slots of the handle at once. -/
def State.bindApply (s : State) (b : PsBind) : State :=
  let t := b.key / 256
  let h := b.key % 256
  let x := s.psHandle t h
  let gone := match b.slot with | some n => !s.slotHolds n.1 t h n.2 | none => false
  if gone then s.complete b.ring b.seq 0x8702 (match b.slot with | some n => n.1 | none => 0)
  else
    let s := match x.bound with
      | some o => if (b.slot.any fun (n : Nat × Nat) => n.1 == o.1) then s else s.setSlot o.1 slotDraining
      | none => s
    let s := (s.setHandle b.key { x with bound := b.slot })
    let s := match b.slot with
      | some n => s.setSlot n.1 slotBound
      | none => s.each ((List.range 256).filter fun n => s.slotState n == slotLoaded && s.get (FIRMWARE_PS_SLOT_STATE_TENANT n) == t &&
          s.get (FIRMWARE_PS_SLOT_STATE_HANDLE n) == h) fun s n => s.slotRetire n
    s.complete b.ring b.seq 0 0

/-- The binds accepted before the present round take effect in order. -/
def State.applyBinds (s : State) : State :=
  let due := s.serve.binds.filter fun b => decide (b.round < s.round)
  (s.setServe fun v => { v with binds := v.binds.filter fun b => decide (s.round ≤ b.round) }).each due fun s b => s.bindApply b

def execPsBindApply (s : State) : Host.Outcome State Fault Refusal := .next s.applyBinds

/-! ### The end of a request (Serving R290, R296, R309) -/

/-- Add to a request's receipt: its bank was the function's when the request was admitted (Serving R290). -/
def State.requestSignal (s : State) (q : Request) (n : Nat) : State :=
  if nbit q.receipt 31 then s.signal (2, 0) (q.receipt % 2 ^ 17) false n else s

/-- The block of a request that ends: the fields from CODE on, then STATE; a block that cannot be written makes it OUTPUT_FAULT. Then 2^32 to its receipt. -/
def State.endBlock (s : State) (q : Request) (state code : Nat) : State :=
  let s := match s.marshalWrite q.fn (q.block + 0x42) (leBytes 2 code ++ q.tail s.round) with
    | (s', none) => (s'.marshalWrite q.fn (q.block + 0x40) (leBytes 2 state)).1
    | (s', some _) => (s'.marshalWrite q.fn (q.block + 0x40) (leBytes 2 4 ++ leBytes 2 9)).1
  s.requestSignal q (2 ^ 32)

/-- The reference that a request holds on a slot is released (Serving R309). -/
def State.releaseSlot (s : State) (n : Nat) : State := s.signal (2, 0) (slotReceipt n) false 1

/-- End a request whose last pass has completed: its block, and the release of its slot. -/
def State.endRequest (s : State) (q : Request) (state code : Nat) : State :=
  let s := s.endBlock q state code
  match q.slot with
  | some n => s.releaseSlot n
  | none => s

/-- End every request of a list in one way. -/
def State.endAll (s : State) (l : List Request) (state code : Nat) : State := s.each l fun s q => s.endRequest q state code

/-! ### The start of a pass (Serving R293, R296, R297, R299, R309) -/

/-- A closing session ends: its requests end with CLOSED and its allocations are released as by a release RUN. -/
def State.sessionEnd (s : State) (x : Session) : State :=
  let s := s.endAll (x.running ++ x.queue) 3 4
  let s := s.setServe fun v => { v with sessions := v.sessions.filter fun y => y.id != x.id }
  match s.readImage x.fn x.parcel with
  | .error _ => s
  | .ok m =>
    let k := hdrKey m.hdr
    if (s.placeCheck x.ring m.hdr x.districts).isSome || s.busyMask k x.districts != 0 then s
    else s.each ((districtsOf x.districts).filter fun d => (s.allocOf d k).isSome) fun s d => s.freeAlloc d k

/-- Requests with a cancel recorded end with CANCELLED. -/
def State.applyCancels (s : State) (x : Session) : State × Session :=
  let live := fun (q : Request) => !q.cancel
  (s.endAll ((x.running ++ x.queue).filter fun q => q.cancel) 3 3, { x with running := x.running.filter live, queue := x.queue.filter live })

/-- The binding that a request takes at admission, or the code with which it ends. -/
def State.bindingOf (s : State) (q : Request) (h : Bytes) : Except Nat (Option (Nat × Nat)) :=
  if q.handle = 0xFFFF then .ok none
  else match (s.psHandle q.tenant q.handle).bound with
    | none => .error 5
    | some b =>
      let p := SMap.get (fun _ => (0, 0, 0)) s.serve.slots b.1
      if p.1 = hdrF h 0x10 8 && p.2.1 = hdrF h 0x0C 4 then .ok (some b) else .error 6

/-- The lowest free pages of a session's pool. -/
def Session.freePages (x : Session) (n : Nat) : List Nat := ((List.range x.pages).filter fun p => !x.used.contains p).take n

/-- Admit one request: its pages, zeroed, its slot with one reference more, and its block. -/
def State.admitReq (s : State) (x : Session) (q : Request) (b : Option (Nat × Nat)) : State × Session :=
  let ps := x.freePages q.need
  let s := s.each ps fun s p => (s.zeroMem (x.pool + p * x.pageBytes) x.pageBytes).bulkTraffic (x.pool + p * x.pageBytes) x.pageBytes
  let q := { q with pages := ps, round := s.round, slot := b.map fun y => y.1, generation := (b.map fun y => y.2).getD 0 }
  let s := match b with
    | some y => s.wrN (FIRMWARE_PS_SLOT_TARGET y.1) (s.rdN (FIRMWARE_PS_SLOT_TARGET y.1) + 1)
    | none => s
  match s.marshalWrite q.fn (q.block + 0x40) (leBytes 2 1 ++ leBytes 2 0 ++ (q.tail 0).take 20) with
  | (s', none) => (s', { x with running := x.running ++ [q] })
  | (s', some _) => (s'.endRequest q 4 9, x)

/-- Admit queued requests in order, up to the first that cannot be admitted. -/
def State.admitQueue (s : State) (h : Bytes) : Session → List Request → State × Session
  | x, [] => (s, { x with queue := [] })
  | x, q :: t =>
    if x.maxRequests ≤ x.running.length || x.pages < x.used.length + q.need then (s, { x with queue := q :: t })
    else match s.bindingOf q h with
      | .error c => State.admitQueue (s.endRequest q 4 c) h x t
      | .ok b => let y := s.admitReq x q b; State.admitQueue y.1 h y.2 t

/-- The candidates of a generating request: the outriders' guesses of the previous pass, then the draft model's tokens (Serving R301). -/
def Request.candidates (q : Request) (model : Nat) (ps : Bytes) : List Nat :=
  let g := q.guesses.take q.outriders
  g ++ (List.range q.drafts).map fun j => Config.draft model ps (q.tokens ++ g) j % 2 ^ 32

/-- How many positions beyond its first a request can use in a pass. -/
def Request.wants (q : Request) (chunk : Nat) : Nat := if q.gen then min q.guesses.length q.outriders + q.drafts else min (q.prompt - q.done) chunk

/-- Candidates and prompt positions granted in admission order from the positions that are left. -/
def grantRest (chunk : Nat) : Nat → List Request → List Request
  | _, [] => []
  | left, q :: t => { q with grant := min (q.wants chunk) left } :: grantRest chunk (left - min (q.wants chunk) left) t

/-- The grant of a pass (Serving R293): one position for each generating request first. -/
def Session.granted (x : Session) : List Request :=
  grantRest x.chunk (x.maxPositions - (x.running.filter fun q => q.gen).length) x.running

/-- The tokens that a pass takes of a request for its grant: candidates, or prompt tokens, read with the identity of the admitting ring's function (Serving R313).
Prompt tokens that cannot be read are free (log entry 164). -/
def State.feedOf (s : State) (x : Session) (q : Request) : State × Request :=
  if q.gen then (s, { q with feed := (q.candidates x.model (s.postscriptOf q)).take q.grant })
  else
    let a := q.promptAddr + 4 * q.done
    match (if q.grant = 0 then .ok [] else s.addrRead q.fn a (4 * q.grant)) with
    | .ok b => (s.ringTraffic x.ring x.seq a (4 * q.grant), { q with feed := (List.range q.grant).map fun i => fieldLE b (4 * i) 4 })
    | .error e => ((s.accReport e).useFrees q.grant, { q with feed := (List.range q.grant).map fun i => Config.free (s.freeCtr + i) % 2 ^ 32 })

/-- The same of every request. -/
def State.feeds (s : State) (x : Session) : List Request → State × List Request
  | [] => (s, [])
  | q :: t =>
    let y := s.feedOf x q
    let z := State.feeds y.1 x t
    (z.1, y.2 :: z.2)

/-- The positions of a request in a pass (Serving R293). -/
def Request.positions (q : Request) : Nat := if q.gen then 1 + q.grant else q.grant

/-- The part of a pass's energy that a request takes: in proportion to its positions (Serving R293). -/
def Session.share (x : Session) (energy : Nat) (q : Request) : Nat :=
  energy * q.positions / max ((x.running.map Request.positions).foldl (· + ·) 0) 1

/-- Every request of a pass that failed ends with PASS_FAILED (Serving R292). -/
def State.passFailed (s : State) (x : Session) (status energy : Nat) : State :=
  let s := s.endAll (x.running.map fun q => { q with energy := q.energy + x.share energy q, passes := if q.positions = 0 then q.passes else q.passes + 1 }) 4 7
  (s.setSession { x with running := [], pass := none, drafting := false }).report { code := Code.SERVE_PASS_FAILED, ring := some x.ring, detail := status }

/-- The checks of a pass RUN: it waits, fails with a status, or begins. -/
inductive PassGo where
  | wait
  | fail (status : Nat)
  | go (m : Image) (g : Binds) (body : Bytes)

/-- The checks of Parcels Table 8.5 for a pass, made on behalf of the opening ring (Serving R291). -/
def State.passCheck (s : State) (x : Session) (entry : Nat) (b : BodyLoad) : PassGo :=
  match s.readImage x.fn x.parcel with
  | .error y => .fail y.2.1
  | .ok m => match s.templateCheck x.fn x m with
    | .error y => .fail y.2.1
    | .ok g => match s.placeCheck x.ring m.hdr x.districts with
      | some y => .fail y.1
      | none =>
        if !((districtsOf x.districts).all fun d => s.fwRunning (3 + d)) || !s.fwRunning 0 || s.memWaits x.ring x.seq then .wait
        else match s.roomCheck x.ring x.districts m entry b with
          | some y => .fail y.1
          | none =>
            if s.runWaits m x.districts then .wait
            else match s.bodyCheck x.fn x.parcel x.districts m b with
              | .error y => .fail y.2.1
              | .ok body => .go m g body

/-- The distinct slots that a pass reads. -/
def Session.slots (x : Session) : List Nat := (x.running.filterMap fun q => q.slot).eraseDups

/-- Begin a RUN of a session's parcel on behalf of the opening ring: its image is read at the ring's class, and the parcel is loaded where it is not yet. -/
def State.marshalRun (s : State) (x : Session) (seq entry : Nat) (m : Image) (g : Binds) (body : Bytes) (b : BodyLoad) : State :=
  let s := s.tableTraffic x.ring seq x.parcel m.hdr
  let s := s.each (districtsOf x.districts) fun s d => s.allocate x.ring seq (x.parcel + hdrF m.hdr 0x18 4) d m b body
  s.setFloor fun f => { f with runs := f.runs ++ [{ runOf s x.ring seq x.districts entry 0 m g with keySlot := loadSlot m body }] }

/-- Begin the pass RUN: every distinct bound slot is read once, at the opening ring's class (Serving §6). -/
def State.passRun (s : State) (x : Session) (m : Image) (g : Binds) (body : Bytes) (b : BodyLoad) : State :=
  let y := s.feeds x x.running
  let s := y.1.setSession { x with running := y.2, drafting := false }
  let s := s.each x.slots fun s n => s.ringTraffic x.ring x.seq (s.slotAddr n) (64 + fieldLE (s.rdMem (s.slotAddr n) 64) 0x14 4)
  s.marshalRun x x.seq x.entry m g body b

/-- Some request of a pass takes draft tokens, so that the draft model runs before the pass (Serving §5). -/
def Session.wantsDrafts (x : Session) : Bool := x.draftEntry != 0xFFFF && x.running.any fun q => q.gen && decide (0 < q.drafts) && decide (0 < q.grant)

/-- The start of a pass: cancels and closes, admission, grants, and the pass RUN, or before it the draft model's. A pass whose RUN fails its checks has admitted
its requests, and ends them (Serving R292, R293). -/
def State.passStart (s : State) (x : Session) (b : BodyLoad) : State :=
  if x.closing then s.sessionEnd x
  else match s.passCheck x x.entry b with
    | .wait => s
    | go =>
      let y := s.applyCancels x
      let h := match s.addrRead x.fn x.parcel 128 with | .ok b => b | .error _ => []
      let z := y.1.admitQueue h y.2 y.2.queue
      let x := { z.2 with running := z.2.granted, pass := some s.round }
      if x.running.isEmpty then z.1.setSession z.2
      else match go with
        | .go m g body =>
          if x.wantsDrafts && decide (x.draftEntry < hdrF m.hdr 9 1) then
            (z.1.setSession { x with drafting := true }).marshalRun x x.draftSeq x.draftEntry m g body b
          else (z.1.setSession x).passRun x m g body b
        | .fail st => z.1.passFailed x st 0
        | .wait => s

/-- The draft model's RUN has ended: the pass RUN begins. How that RUN ended does not matter, since drafts change no output (Serving R304). -/
def State.passGoOn (s : State) (x : Session) (b : BodyLoad) : State :=
  let s' := s.setFloor fun f => { f with passEnds := f.passEnds.filter fun e => e.1 != x.draftSeq }
  match s'.passCheck x x.entry b with
  | .wait => s
  | .fail st => s'.passFailed x st 0
  | .go m g body => s'.passRun x m g body b

/-- A session may start a pass: none of its runs, its marshal runs, and it has something to do. -/
def State.passMay (s : State) (x : Session) : Bool :=
  x.pass.isNone && x.lost.isNone && s.fwRunning 1 && (x.closing || !x.queue.isEmpty || !x.running.isEmpty)

/-- A bind that is due takes effect before a pass starts at its boundary (Serving R309). -/
def execPassStart (id : Nat) (b : BodyLoad) (s : State) : Host.Outcome State Fault Refusal :=
  .next (match s.session id with
    | some x =>
      if x.drafting && s.fwRunning 1 && s.floor.passEnds.any (fun e => e.1 == x.draftSeq) then s.passGoOn x b
      else if s.passMay x then s.applyBinds.passStart x b
      else s
    | none => s)

/-! ### The end of a pass (Serving R290, R292, R295, R300, R301, R303) -/

/-- The address of the letterbook entry of a position, and the bytes of an entry (Serving R299). -/
def Session.letterAddr (x : Session) (q : Request) (p : Nat) : Nat := x.pool + q.pages.getD (p / 16) 0 * x.pageBytes + p % 16 * (x.pageBytes / 16)
def Session.letterLen (x : Session) : Nat := x.pageBytes / 16

/-- The letterbook entries that a pass writes for a request: those of its inputs, at positions L on (Serving R299 to R301). What acceptance does not make valid stays
where it is until a later pass writes it again. -/
def State.letters (s : State) (x : Session) (q : Request) : State :=
  let ps := s.postscriptOf q
  let from_ := if q.gen then q.len else q.done
  let all := q.tokens ++ q.feed
  s.each (List.range q.positions) fun s i =>
    let a := x.letterAddr q (from_ + i)
    let w := s.fnWrite x.fn a ((List.range x.letterLen).map (Config.letter x.model ps (all.take (from_ + i + 1))))
    w.1.ringTraffic x.ring x.seq a x.letterLen

/-- Write what a request emits, then EMITTED, then the receipt; the request goes on, or ends. -/
def State.emit (s : State) (old : Request) (out : List Nat) (q : Request) : State × Option Request :=
  let w := if out.isEmpty then (s, none) else s.marshalWrite q.fn (q.output + 4 * old.emitted) (out.foldl (fun b t => b ++ leBytes 4 t) [])
  let w := if w.2.isNone && !out.isEmpty then w.1.marshalWrite q.fn (q.block + 0x44) (leBytes 4 q.emitted) else w
  if w.2.isSome then (w.1.endRequest { q with emitted := old.emitted } 4 9, none)
  else
    let s := if out.isEmpty then w.1 else w.1.requestSignal q out.length
    match q.ended out with
    | some code => (s.endRequest q 2 code, none)
    | none => (s, some q)

/-- Every request of a pass in admission order: its letterbook entries, and what it emits. -/
def State.passOuts (s : State) (x : Session) (energy : Nat) : List Request → State × List Request
  | [] => (s, [])
  | q :: t =>
    let r := q.afterPass x.model (s.postscriptOf q)
    let y := (s.letters x q).emit q r.1 { r.2 with energy := r.2.energy + x.share energy q }
    let z := State.passOuts y.1 x energy t
    (z.1, match y.2 with | some q => q :: z.2 | none => z.2)

/-- A pass completes, and the marshal writes its results. -/
def State.passComplete (s : State) (x : Session) (start status energy : Nat) : State :=
  let s := s.setFloor fun f => { f with passEnds := f.passEnds.filter fun e => e.1 != x.seq }
  let y := { x with pass := none, passes := x.passes + 1, lastRounds := s.round - start + 1, lastRound := s.round }
  if status != 0 then s.passFailed y status energy
  else
    let z := s.passOuts x energy x.running
    z.1.setSession { y with running := z.2 }

/-- The pass that ran when the marshal restarted has completed: it has no results, and the slots of its requests are released (Serving R309, R311). -/
def State.passDropped (s : State) (x : Session) (slots : List Nat) : State :=
  let s := s.setFloor fun f => { f with passEnds := f.passEnds.filter fun e => e.1 != x.seq && e.1 != x.draftSeq }
  (s.each slots State.releaseSlot).setSession { x with lost := none }

def execPassComplete (id t energy : Nat) (s : State) : Host.Outcome State Fault Refusal :=
  .next (match s.session id with
    | some x =>
      if !s.fwRunning 1 then s
      else match x.lost, x.pass, s.floor.passEnds.find? fun e => e.1 == x.seq with
        | some l, _, e => if e.isSome || s.floor.passEnds.any (fun e => e.1 == x.draftSeq) then (s.atNs t).passDropped x l else s
        | none, some n, some e => (s.atNs t).passComplete x n e.2 energy
        | _, _, _ => s
    | none => s)

/-- The marshal has restarted (Serving R311): every request ends with MARSHAL_RESTART. A pass that still runs goes on without results; the slots of its requests
are released once it has completed (R309). -/
def State.serveRestart (s : State) : State :=
  s.each s.serve.sessions fun s x =>
    let ended := s.floor.passEnds.any fun e => e.1 == x.seq || (x.drafting && e.1 == x.draftSeq)
    let s := s.setFloor fun f => { f with passEnds := f.passEnds.filter fun e => e.1 != x.seq && e.1 != x.draftSeq }
    let none' := { x with running := [], queue := [], pass := none, drafting := false }
    if x.pass.isSome && !ended then
      ((s.each (x.running ++ x.queue) fun s q => s.endBlock q 4 8).setSession { none' with lost := some (x.running.filterMap fun q => q.slot) })
    else (s.endAll (x.running ++ x.queue) 4 8).setSession none'

/-! ### PS_LOAD (Serving R306, R307) -/

/-- Slots of a tenant that are not FREE. -/
def State.tenantSlots (s : State) (t : Nat) : Nat :=
  ((List.range 256).filter fun n => s.slotState n != slotFree && s.get (FIRMWARE_PS_SLOT_STATE_TENANT n) == t).length

/-- Tests of a postscript image, in ascending offset (Serving R307 step 5). -/
def psTests (b : Bytes) (len : Nat) : List (Nat × Bool) :=
  [(0, fieldLE b 0 4 == 0x50535450), (4, fieldLE b 4 1 == 1), (5, decide (1 ≤ fieldLE b 5 1) && decide (fieldLE b 5 1 ≤ 64)),
    (6, fieldLE b 6 1 == 1 || fieldLE b 6 1 == 7), (0x14, 64 + fieldLE b 0x14 4 == len),
    (0xFFFFFFFF, crc32c (b.take 0x3C ++ b.drop 64) == fieldLE b 0x3C 4)]

/-- The image of a PS_LOAD is in its slot: it is checked, and LOADED, or the slot is zeroed and freed (steps 5 and 6). -/
def State.psLoaded (s : State) (r seq slot t h n : Nat) : State :=
  let b := s.rdMem (s.slotAddr slot) n
  match firstBad (psTests b n) with
  | some o => (s.slotClear slot).complete r seq 0x8603 o
  | none =>
    let x := s.psHandle t h
    let s := s.setHandle (256 * t + h) { x with next := x.next + 1 }
    let s := s.setServe fun v => { v with slots := SMap.set (fun _ => (0, 0, 0)) v.slots slot (fieldLE b 8 8, fieldLE b 0x10 4, r) }
    let s := (s.put (FIRMWARE_PS_SLOT_STATE_STATE slot) slotLoaded).wrN (FIRMWARE_PS_SLOT_GEN slot) x.next
    (s.wrN (FIRMWARE_PS_SLOT_TARGET slot) (s.receipt (slotReceipt slot))).finish r seq 0 (slot * 2 ^ 24 + x.next)

/-- Step 4: the image is copied in at the ring's class, with the slot LOADING; the load goes on once its bursts have issued. -/
def State.psCopy (s : State) (r seq slot t h a : Nat) (b : Bytes) : State :=
  let s := s.wrN (FIRMWARE_PS_SLOT_STATE slot) (slotLoading * 2 ^ 29 + t * 2 ^ 24 + h * 2 ^ 16)
  let s := ((s.ringTraffic r seq a b.length).store (s.slotAddr slot) b).ringTraffic r seq (s.slotAddr slot) b.length
  let s := s.setFlight r seq fun f => { f with prog := slot + 1 }
  if s.memWaits r seq then s else s.psLoaded r seq slot t h b.length

/-- A started PS_LOAD, in the order of Serving R307; `prog` is 1 more than the slot that it is loading. -/
def State.psLoad (s : State) (r seq : Nat) (e : Bytes) (prog : Nat) : State :=
  let f := s.ringFn r
  let t := fieldLE e 0x24 1
  let h := fieldLE e 0x26 2
  let n := fieldLE e 0x20 4
  let fail := fun st res => s.complete r seq st res
  if prog != 0 then (if s.memWaits r seq then s else s.psLoaded r seq (prog - 1) t h n)
  else if !s.tenantOf t f then fail 0x8604 t
  else if 255 < h then fail 1 0
  else if s.slotMib * 0x100000 < n then fail 0x8606 s.slotMib
  else if s.cfg (FIRMWARE_TENANT_FN_MAX_SLOTS t) != 0 && decide (s.cfg (FIRMWARE_TENANT_FN_MAX_SLOTS t) ≤ s.tenantSlots t) then fail 0x8601 0
  else if 2 ^ 24 ≤ (s.psHandle t h).next then fail 0x8605 h
  else match (if s.cfgOn FIRMWARE_PS_POOL_BASE_EN then (List.range (s.cfg FIRMWARE_PS_POOL_CFG_SLOTS_M1 + 1)).find? fun j => s.slotState j == slotFree else none) with
    | none => fail 0x8601 0
    | some slot => match s.addrRead f (fieldLE e 0x18 8) n with
      | .error x => (s.accReport x).complete r seq (readStatus x) 0
      | .ok b => s.psCopy r seq slot t h (fieldLE e 0x18 8) b

/-- A PS_LOAD that is aborted frees the slot that it is loading (Envelopes R119). -/
def State.psAbort (s : State) (prog : Nat) : State := if prog = 0 then s else s.slotClear (prog - 1)

def execPsLoad (r : Ring) (seq : Nat) (s : State) : Host.Outcome State Fault Refusal :=
  .next (match s.startedOf r seq 6 with
    | some f => s.psLoad r seq f.env f.prog
    | none => s)

end Sys2Proof.Machine
end

