-- ==== Sys2Proof/Machine/Round.lean ====
section
/-! DEFINITION. The tick generator's lock to network time and the loading of timetables (Round §1, §6). -/

namespace Sys2Proof.Machine
open Reg

/-- ROUND.STATUS.LOCK_STATE: 0 FREE, 1 ACQUIRE, 2 LOCKED, 3 HOLDOVER. -/
def State.lockState (s : State) : Nat := s.get ROUND_STATUS_LOCK_STATE

/-- TIME_VALID as Table 2.2 gives it. -/
def State.validNow (s : State) : Bool :=
  s.rnd.aligned && (s.lockState == 2 || (s.lockState == 3 && decide (s.now < s.rnd.holdFrom + s.rnd.holdMs * 1000000)))

/-- Bring STATUS.TIME_VALID up to date, with the reports of Round R41. -/
def State.updValid (s : State) : State :=
  let v := s.validNow
  let was := s.on ROUND_STATUS_TIME_VALID
  let s' := s.putB ROUND_STATUS_TIME_VALID v
  if was && !v then (s'.setRnd fun r => { r with invalidReported := true }).report { code := Code.ROUND_TIME_INVALID }
  else if !was && v && s.rnd.invalidReported then
    (s'.setRnd fun r => { r with invalidReported := false }).report { code := Code.ROUND_TIME_RESTORED }
  else s'

/-- Enter a lock state (Round Table 2.2). HOLDOVER latches HOLD_LIMIT and is reported; FREE returns to the nominal round. -/
def State.enterLock (s : State) (k : Nat) : State :=
  let s := (s.put ROUND_STATUS_LOCK_STATE k).setRnd fun r => { r with streak := 0 }
  let s := if k = 3 then
    let ms := s.cfg ⟨ROUND_HOLD_LIMIT, 13, 0⟩
    (s.setRnd fun r => { r with holdFrom := s.now, holdMs := min (max ms 1) 10000 }).report { code := Code.ROUND_LOCK_LOST }
  else if k = 0 then s.setRnd fun r => { r with freqAdj := 0, pairing := none }
  else s
  s.updValid

/-- The pairing of network time that measures round time before the fix is dropped on entry to ACQUIRE from FREE, on a RELOCK and on a
change of SOURCE (Round R690). -/
def State.unpair (s : State) : State := s.setRnd fun r => { r with pairing := none }

/-! ### Sync (Round R38, R690) -/

/-- A sync message is valid: SOURCE's port, its profile and domain, and timestamps that decode. -/
def State.syncValid (s : State) (m : Sync) : Bool :=
  let prof := s.cfg ROUND_SYNC_CTRL_PROFILE
  m.port.val + 1 == s.get ROUND_STATUS_SOURCE_IN_USE && m.profile == (if prof = 3 then 0 else prof) &&
    m.domain == s.cfg ROUND_SYNC_CTRL_DOMAIN && m.decodes

/-- Round time at round-relative ns `t` of the present round: after the fix from NET_OFFSET, before it from the pairing. -/
def State.roundTime (s : State) (t : Nat) : Option Int :=
  if s.rnd.fixAwaited then s.rnd.pairing.map fun p => (p.net : Int) + (s.at t : Int) - ((p.round * 1000 + p.ns : Nat) : Int)
  else some (s.netRound * 1000 + t)

/-- Saturate a number to 32 bits, two's complement. -/
def sat32 (i : Int) : Nat := ofSigned 32 (if i < -0x80000000 then -0x80000000 else if 0x7FFFFFFF < i then 0x7FFFFFFF else i)

/-- Enter LOCKED; the first time since power-on reset or RELOCK, the decision of Round R39 falls due at the next boundary. -/
def State.enterLocked (s : State) : State :=
  let s := s.enterLock 2
  if s.rnd.fixAwaited then s.setRnd fun r => { r with alignDue := some s.round } else s

/-- The tests of Table 2.2 on an offset: 50 ns at 16 consecutive syncs from ACQUIRE; against 200 ns less the alignment error that remains. -/
def State.offsetTests (s : State) (off left : Int) : State :=
  let near := (off - left).natAbs ≤ 200
  if s.lockState = 1 then
    if off.natAbs ≤ 50 then
      if 16 ≤ s.rnd.streak + 1 then s.enterLocked else s.setRnd fun r => { r with streak := r.streak + 1 }
    else s.setRnd fun r => { r with streak := 0 }
  else if s.lockState = 2 then (if near then s else s.enterLock 1)
  else if s.lockState = 3 then (if near then s.enterLocked else s.enterLock 1)
  else s

/-- The servo corrects frequency by slewing; the value it chooses within ±100,000 is not given (Round R36, §7). -/
def State.servo (s : State) : State :=
  (s.setRnd fun r => { r with freqAdj := (s.free % 200001 : Nat) - (100000 : Int) }).useFree

/-- A sync message that has an offset: it pairs before the fix, and is tested. -/
def State.syncOffset (s : State) (m : Sync) : State :=
  let s := if s.rnd.fixAwaited && s.rnd.pairing.isNone then s.setRnd fun r => { r with pairing := some ⟨m.net, s.round, m.t⟩ } else s
  match s.roundTime m.t with
  | none => s
  | some rt =>
    let off := rt - (m.net : Int)
    (((s.wrN ROUND_OFFSET (sat32 off)).offsetTests off (if s.rnd.slewing then m.slewLeft else 0)).servo)

/-- A control port can transmit: its link is up, and its guard is ARMED and not SILENT (Round R690). -/
def State.portTransmits (s : State) (p : Nat) : Bool :=
  s.on (CPORT_STATUS_LINK p) && s.on (CPORT_GUARD_CTRL_ARMED p) && !s.on (CPORT_GUARD_CTRL_SILENT p)

/-- A valid sync: it enters ACQUIRE from FREE, renews the loss count, and is tested if a path-delay measurement has completed on the port since its link
came up and since SOURCE changed; a port that cannot transmit makes none. -/
def State.syncRx (s : State) (m : Sync) : State :=
  let t := s.at m.t
  let gap := match s.rnd.lastSync with
    | some p => t - (p.1 * 1000 + p.2)
    | none => s.rnd.interval
  let s := s.setRnd fun r => { r with lastSync := some (s.round, m.t), syncs := r.syncs + 1, interval := gap, lossFrom := t
                                      pathDelay := r.pathDelay || (m.measured && s.portTransmits m.port) }
  let s := if s.lockState = 0 then (s.enterLock 1).unpair else s
  if s.rnd.pathDelay then s.syncOffset m else s

def execSyncReceived (m : Sync) (s : State) : Host.Outcome State Fault Refusal :=
  .next (if s.syncValid m then (s.atNs m.t).syncRx m else s)

/-- LOSS_INTERVALS sync intervals have passed since the latest of the last valid sync, RELOCK and change of SOURCE. -/
def State.syncLost (s : State) : Bool :=
  decide (s.rnd.lossFrom + max (s.cfg ROUND_SYNC_CTRL_LOSS_INTERVALS) 2 * s.rnd.interval ≤ s.now)

def execSyncLoss (t : Nat) (s : State) : Host.Outcome State Fault Refusal :=
  let s' := s.atNs t
  .next (if s'.syncLost && s'.lockState == 1 then s'.enterLock 0
    else if s'.syncLost && s'.lockState == 2 then s'.enterLock 3 else s)

/-- TIME_VALID ends HOLD_LIMIT_MS after entry to HOLDOVER. -/
def execHoldoverExpiry (t : Nat) (s : State) : Host.Outcome State Fault Refusal :=
  .next (if s.lockState = 3 && !(s.atNs t).validNow then (s.atNs t).updValid else s)

/-! ### Alignment (Round R39) -/

/-- TT_EPOCH reads −NET_OFFSET in absolute mode, and otherwise the round in which the bank or window took effect (Round R47). -/
def State.epochSync (s : State) : State :=
  s.wrN ROUND_TT_EPOCH (if s.on ROUND_TT_CTRL_PHASE_MODE then (2 ^ 64 - s.rdN ROUND_NET_OFFSET) % 2 ^ 64 else s.rnd.epoch)

/-- A bank or an index window takes effect in the present round (Round R47). -/
def State.epochNow (s : State) : State := (s.setRnd fun r => { r with epoch := s.round, checked := [] }).epochSync

/-- NET_OFFSET becomes a network round number minus the round counter. -/
def State.fixOffset (s : State) (netRound : Nat) : State :=
  ((s.wrN ROUND_NET_OFFSET (ofSigned 64 ((netRound : Int) - (s.round : Int)))).setRnd fun r =>
    { r with fixAwaited := false, alignDue := none, pairing := none }).epochSync

/-- The decision at the boundary that follows the first entry to LOCKED: `net` is the network time in ns there. With no timetable in
force or pending, the boundary is delayed onto a network microsecond; otherwise the alignment slews. -/
def execAlignment (net : Nat) (s : State) : Host.Outcome State Fault Refusal :=
  .next (if !(s.rnd.alignDue.any fun n => decide (n < s.round)) then s
    else if !s.on ROUND_CTRL_TT_ENABLE && !s.ttRun then
      ((s.fixOffset ((net + (1000 - net % 1000) % 1000) / 1000)).setRnd fun r => { r with aligned := true }).updValid
    else (s.fixOffset (net / 1000)).setRnd fun r => { r with slewing := true })

/-- The slewed alignment ends: the boundaries lie within 50 ns of the network microseconds. -/
def execAlignmentComplete (s : State) : Host.Outcome State Fault Refusal :=
  .next (if s.rnd.slewing then (s.setRnd fun r => { r with slewing := false, aligned := true }).updValid else s)

/-- RELOCK (Round R42). -/
def State.relock (s : State) : State :=
  if s.on ROUND_CTRL_TT_ENABLE || s.ttRun then s.report { code := Code.TT_INVALID }
  else
    let s := s.setRnd fun r => { r with fixAwaited := true, alignDue := none, slewing := false, aligned := false, pairing := none, lossFrom := s.now }
    s.enterLock 1

def execRelock (t : By Nat) (s : State) : Host.Outcome State Fault Refusal :=
  .next (s.landing t.q ROUND_SYNC_CTRL fun s => (s.atNs t.v).relock)

/-- SOURCE as it is used: 3 is treated as 0. -/
def sourceOf (v : Nat) : Nat := if v % 4 = 3 then 0 else v % 4

/-- A write of SYNC_CTRL.SOURCE (Round Table 2.2, R690). -/
def State.setSource (s : State) (src : Nat) : State :=
  let old := s.get ROUND_STATUS_SOURCE_IN_USE
  let k := sourceOf src
  let s := s.put ROUND_SYNC_CTRL_SOURCE (src % 4)
  if k = old then s
  else
    let s := (s.put ROUND_STATUS_SOURCE_IN_USE k).setRnd fun r =>
      { r with lastSync := none, syncs := 0, pathDelay := false, interval := 1000000000, lossFrom := s.now, streak := 0, pairing := none }
    if k = 0 then (if s.lockState = 0 then s else s.enterLock 0)
    else if s.lockState = 2 && old != 0 then s.enterLock 3
    else s

def execSyncSourceWrite (src : By Nat) (t : Nat) (s : State) : Host.Outcome State Fault Refusal :=
  .next (s.landing src.q ROUND_SYNC_CTRL fun s => (s.atNs t).setSource src.v)

/-! ### Loading and verifying a bank (Round R67 to R69) -/

/-- STATUS bit VERIFIED of a bank. -/
def verifiedFld (b : Bool) : Fld := ⟨ROUND_LOAD_STATUS, if b then 17 else 16, if b then 17 else 16⟩

/-- A load or verification ends in a fault. -/
def State.ttFault (s : State) (cause bad : Nat) : State :=
  ((s.put ROUND_LOAD_STATUS_FAULT_CAUSE cause).put ROUND_LOAD_STATUS_BAD_ELEMENT bad).putB ROUND_LOAD_STATUS_FAULT true

/-- A load or verification is in progress. -/
def State.ttBusy (s : State) : Bool := s.on ROUND_LOAD_STATUS_BUSY || s.on ROUND_LOAD_STATUS_VERIFY_BUSY

/-- Why a timetable load's read of a range fails (Round R67): an engine with the normal tag. -/
def State.ttReadFails (s : State) (a n : Nat) : Bool := (s.devCheck false a n).isSome || s.poisoned a n

/-- The elements or entries that can be read before the first 64-byte line that cannot. -/
def State.ttReadable (s : State) (l : TtLoad) : Nat :=
  let unit := if l.entries then 64 else 2
  let lines := (l.count * unit + 63) / 64
  match (List.range lines).find? fun j => s.ttReadFails (l.src + 64 * j) (min 64 (l.count * unit - 64 * j)) with
  | some j => 64 * j / unit
  | none => l.count

/-- The key under which a timetable load's traffic waits, one that no envelope has. -/
def ttKey : Nat × Nat := (0x10000, 0)

/-- The load that a write of LOAD_CTRL.START begins, or its refusal (Round R67). It reads memory at bulk class. -/
def State.ttLoad (s : State) (bank entries : Bool) (first : Nat) : State :=
  if s.ttBusy then s.report { code := Code.TT_INVALID }
  else
    let s := ((s.putB ROUND_LOAD_CTRL_BANK bank).putB ROUND_LOAD_CTRL_TARGET entries).put ROUND_LOAD_CTRL_FIRST first
    let n := s.cfg ⟨ROUND_LOAD_COUNT, 16, 0⟩
    if s.on ROUND_CTRL_TT_ENABLE && s.ttBank == (if bank then 1 else 0) then s.ttFault 6 first
    else if n = 0 || decide ((if entries then 4096 else 65536) < first + n) then s.ttFault 2 first
    else
      let s := ((s.putB ROUND_LOAD_CTRL_START true).putB ROUND_LOAD_STATUS_BUSY true).putB (verifiedFld bank) false
      let l : TtLoad := ⟨bank, entries, first, n, (s.act ROUND_LOAD_SRC).toNat / 64 * 64⟩
      (s.setRnd fun r => { r with load := some l }).traffic 3 (some ttKey) l.src (s.ttReadable l * (if entries then 64 else 2))

def execTtLoad (bank : By Bool) (entries : Bool) (first : Fin 65536) (s : State) : Host.Outcome State Fault Refusal :=
  .next (s.landing bank.q ROUND_LOAD_CTRL fun s => s.ttLoad bank.v entries first)

/-- Copy bytes into a bank: index elements of two bytes, or entry bytes. -/
def State.ttCopy (s : State) (l : TtLoad) (b : Bytes) : State :=
  let k := if l.bank then 1 else 0
  if l.entries then
    s.setRnd fun r => { r with ttEntry := (b.zipIdx).foldl (fun m x => SMap.set (fun _ => 0) m (k * 262144 + 64 * l.first + x.2) x.1.toNat) r.ttEntry }
  else
    s.setRnd fun r => { r with ttIndex := (List.range (b.length / 2)).foldl (fun m j =>
      SMap.set (fun _ => 0) m (k * 65536 + l.first + j) (fieldLE b (2 * j) 2)) r.ttIndex }

/-- A load has read its source. While its bursts wait for the budget of bulk class, it is not done. -/
def execTtLoadDone (s : State) : Host.Outcome State Fault Refusal :=
  .next (match (if s.memWaits ttKey.1 ttKey.2 then none else s.rnd.load) with
    | none => s
    | some l =>
      let n := s.ttReadable l
      let s := s.ttCopy l (s.rdMem l.src (n * (if l.entries then 64 else 2)))
      let s := ((s.setRnd fun r => { r with load := none }).putB ROUND_LOAD_CTRL_START false).putB ROUND_LOAD_STATUS_BUSY false
      if n = l.count then s.putB ROUND_LOAD_STATUS_DONE true
      else
        let s := match s.devCheck false (l.src + n * (if l.entries then 64 else 2)) 1 with
          | some e => s.accReport e
          | none => s
        s.ttFault 1 (l.first + n))

/-- The verification that a write of LOAD_CTRL.VERIFY begins. -/
def State.ttVerify (s : State) (bank : Bool) : State :=
  if s.ttBusy then s.report { code := Code.TT_INVALID }
  else (((s.putB ROUND_LOAD_CTRL_BANK bank).putB ROUND_LOAD_CTRL_VERIFY true).putB ROUND_LOAD_STATUS_VERIFY_BUSY true).setRnd fun r =>
    { r with verify := some bank }

def execTtVerify (bank : By Bool) (s : State) : Host.Outcome State Fault Refusal :=
  .next (s.landing bank.q ROUND_LOAD_CTRL fun s => s.ttVerify bank.v)

def execTtVerifyDone (s : State) : Host.Outcome State Fault Refusal :=
  .next (match s.rnd.verify with
    | none => s
    | some bank =>
      let s := ((s.setRnd fun r => { r with verify := none }).putB ROUND_LOAD_CTRL_VERIFY false).putB ROUND_LOAD_STATUS_VERIFY_BUSY false
      match s.verifyFault (if bank then 1 else 0) with
      | none => s.putB (verifiedFld bank) true
      | some f => (s.ttFault f.1 f.2).putB (verifiedFld bank) false)

/-! ### TT_ENABLE (Round R70, R74) -/

/-- The bank named by TT_CTRL.BANK is verified. -/
def State.bankVerified (s : State) : Bool := s.on (verifiedFld (s.on ROUND_TT_CTRL_BANK))

/-- A write of TT_ENABLE, which takes effect at the next boundary. -/
def State.ttEnable (s : State) (en : Bool) : State :=
  if en && !s.bankVerified then s.report { code := Code.TT_INVALID }
  else (s.putB ROUND_CTRL_TT_ENABLE en).setRnd fun r => { r with ttPend := some en }

def execTtEnableWrite (en : By Bool) (s : State) : Host.Outcome State Fault Refusal :=
  .next (s.landing en.q ROUND_CTRL fun s => s.ttEnable en.v)

/-- TT_ENABLE takes effect at the boundary that begins the present round. -/
def State.ttBoundary (s : State) : State :=
  match s.rnd.ttPend with
  | none => s
  | some en =>
    let s := s.setRnd fun r => { r with ttPend := none }
    if !en then (s.putB ROUND_STATUS_TT_RUN false).setRnd fun r => { r with checked := [] }
    else if s.ttRun then s
    else if s.bankVerified then
      ((s.putB ROUND_STATUS_TT_RUN true).put ROUND_STATUS_ACTIVE_BANK (s.get ROUND_TT_CTRL_BANK)).epochNow
    else (s.putB ROUND_CTRL_TT_ENABLE false).report { code := Code.TT_INVALID }

end Sys2Proof.Machine
end

