-- ==== Sys2Proof/Machine/Jpeg.lean ====
section
/-! DEFINITION. What a coded file of the JPEG encoder holds (Vision R343): a JFIF segment, the quantization tables of Annex K of T.81 scaled by the
quality, and the standard Huffman tables. -/

namespace Sys2Proof.Machine

/-! ### The tables of T.81 -/

/-- The quantization tables of Annex K for luminance and for chrominance, row by row. -/
def quantTable (chroma : Bool) : Bytes := beBytes 64 (if chroma then
    0x1112182F6363636312151A4263636363181A3863636363632F426363636363636363636363636363636363636363636363636363636363636363636363636363
  else
    0x100B0A101828333D0C0C0E131A3A3C370E0D1018283945380E11161D3357503E12162538446D674D182337405168715C31404E5767797865485C5F6270646763)

/-- An entry of a table at quality `q`: floor((T × F + 50) / 100) within 1 to 255. -/
def quantEntry (q t : Nat) : Nat :=
  let f := if q < 50 then 5000 / q else 200 - 2 * q
  max 1 (min 255 ((t * f + 50) / 100))

/-- The places of an 8 × 8 block, as row × 8 + column, in the order in which a file lists them: along its diagonals by turns. -/
def zigzag : List Nat := (List.range 15).flatMap fun s =>
  let rows := (List.range 8).filter fun y => decide (y ≤ s) && decide (s - y < 8)
  (if s % 2 = 0 then rows.reverse else rows).map fun y => 8 * y + (s - y)

/-- A scaled table as a file lists it. -/
def quantSegment (q : Nat) (chroma : Bool) : Bytes :=
  zigzag.map fun i => BitVec.ofNat 8 (quantEntry q ((quantTable chroma).getD i 0).toNat)

/-- The standard Huffman tables: the counts of codes of 1 to 16 bits, then the values. -/
def huffDc (chroma : Bool) : Bytes :=
  beBytes 16 (if chroma then 0x00030101010101010101010000000000 else 0x00010501010101010100000000000000) ++ (List.range 12).map (BitVec.ofNat 8)
def huffAc (chroma : Bool) : Bytes := beBytes 178 (if chroma then
    0x00020102040403040705040400010277000102031104052131061241510761711322328108144291A1B1C109233352F0156272D10A162434E125F11718191A262728292A35363738393A434445464748494A535455565758595A636465666768696A737475767778797A82838485868788898A92939495969798999AA2A3A4A5A6A7A8A9AAB2B3B4B5B6B7B8B9BAC2C3C4C5C6C7C8C9CAD2D3D4D5D6D7D8D9DAE2E3E4E5E6E7E8E9EAF2F3F4F5F6F7F8F9FA
  else
    0x0002010303020403050504040000017D01020300041105122131410613516107227114328191A1082342B1C11552D1F02433627282090A161718191A25262728292A3435363738393A434445464748494A535455565758595A636465666768696A737475767778797A838485868788898A92939495969798999AA2A3A4A5A6A7A8A9AAB2B3B4B5B6B7B8B9BAC2C3C4C5C6C7C8C9CAD2D3D4D5D6D7D8D9DAE1E2E3E4E5E6E7E8E9EAF1F2F3F4F5F6F7F8F9FA)

/-! ### A file -/

/-- The segments of a file before its first scan: markers and contents. The last is the start of the scan. -/
def segments : Nat → Bytes → List (Nat × Bytes)
  | 0, _ => []
  | fuel + 1, b =>
    let m := beNat (b.take 2)
    let n := beNat ((b.drop 2).take 2)
    if m / 256 != 0xFF || n < 2 then []
    else
      let x := (m % 256, (b.drop 4).take (n - 2))
      if m = 0xFFDA then [x] else x :: segments fuel (b.drop (2 + n))

/-- The tables of a segment of quantization tables: 8-bit entries. -/
def quantParts : Nat → Bytes → List Bytes
  | 0, _ => []
  | fuel + 1, b => match b with
    | [] => []
    | _ :: t => t.take 64 :: quantParts fuel (t.drop 64)

/-- The tables of a segment of Huffman tables, with their classes: 0 DC, 1 AC. -/
def huffParts : Nat → Bytes → List (Nat × Bytes)
  | 0, _ => []
  | fuel + 1, b => match b with
    | [] => []
    | c :: t =>
      let n := 16 + ((t.take 16).map BitVec.toNat).foldl (· + ·) 0
      (c.toNat / 16, t.take n) :: huffParts fuel (t.drop n)

/-- A file that the encoder may write for an image of a format at quality `q`: a JFIF APP0 segment, the scaled tables of its components and no others, and
standard Huffman tables. -/
def jpegFile (format q : Nat) (b : Bytes) : Bool :=
  let segs := segments b.length (b.drop 2)
  let qs := (segs.filter fun x => x.1 == 0xDB).flatMap fun x => quantParts x.2.length x.2
  let hs := (segs.filter fun x => x.1 == 0xC4).flatMap fun x => huffParts x.2.length x.2
  let want := if format = 3 then [false] else [false, true]
  beNat (b.take 2) == 0xFFD8 && (segs.any fun x => x.1 == 0xE0 && x.2.take 5 == [0x4A, 0x46, 0x49, 0x46, 0]) && (segs.any fun x => x.1 == 0xC0) &&
    want.all (fun c => qs.contains (quantSegment q c)) && qs.all (fun t => want.any fun c => t == quantSegment q c) && !hs.isEmpty &&
    hs.all fun t => t.2 == (if t.1 = 0 then huffDc false else huffAc false) || t.2 == (if t.1 = 0 then huffDc true else huffAc true)

/-- The 8 × 8 blocks of an image of a format: minimum coded units of one, six (4:2:0), four (4:2:2) or three blocks. -/
def jpegBlocks (format w h : Nat) : Nat :=
  let cells := fun x y => (w + x - 1) / x * ((h + y - 1) / y)
  if format = 3 then cells 8 8 else if format = 0 then 6 * cells 16 16 else if format = 1 then 4 * cells 16 8 else 3 * cells 8 8

end Sys2Proof.Machine
end

