-- ==== Sys2Proof/Machine/Vision.lean ====
section
/-! DEFINITION. Cameras, image pipelines and codecs (Vision): capture channels, frames and their records, the ISP's streams, decode and encode
sessions, and JPEG. Pixels come as operands: the manual gives no arithmetic for the stages that make them. -/

namespace Sys2Proof.Machine
open Reg

def State.chan (s : State) (c : Nat) : CamChan := SMap.get (fun _ => {}) s.vis.chans c
def State.setChan (s : State) (c : Nat) (x : CamChan) : State :=
  s.setVis fun v => { v with chans := SMap.set (fun _ => {}) v.chans c x }

/-! ### Receipts by authority (Vision R327) -/

/-- A receipt read with a function's authority: 0 in a bank that the function does not own. -/
def State.fnReceipt (s : State) (f i : Nat) : Nat := if s.bankOwner i == f then s.receipt i else 0

/-- A max signal of a source with a function's authority; one that is refused is dropped and reported. -/
def State.camSignal (s : State) (src : Nat × Nat) (f i v unit : Nat) : State :=
  if s.maySignal f i then s.signal src i true v else s.report { code := Code.CAM_RECEIPT_DENIED, unit := unit }

/-! ### Channels -/

/-- The authority of a channel. -/
def State.chanFn (s : State) (c : Nat) : Nat := s.cfg (CAMERA_CHAN_CFG_FUNCTION c)

/-- The buffers of a channel: COUNT_M1 of 0 reads as 1. -/
def State.chanCount (s : State) (c : Nat) : Nat := max (s.cfg (CAMERA_CHAN_BUF_COUNT_M1 c)) 1 + 1

/-- The stride of a channel in bytes. -/
def State.chanStride (s : State) (c : Nat) : Nat := s.cfg (CAMERA_CHAN_BUF_STRIDE c) * 4096

/-- The buffer of frame k (Vision R324). -/
def State.bufAddr (s : State) (c k : Nat) : Nat := s.cfg (CAMERA_CHAN_BUF_BASE_ADDR c) * 4096 + (k % s.chanCount c) * s.chanStride c

def State.chanOn (s : State) (c : Nat) : Bool := s.cfgOn (CAMERA_CHAN_CFG_ENABLE c)
/-- The channel's ENABLE as written: the channel follows it at the next boundary (Scope R21). -/
def State.chanSet (s : State) (c : Nat) : Bool := s.on (CAMERA_CHAN_CFG_ENABLE c)
def State.chanSource (s : State) (c : Nat) : Nat := s.cfg (CAMERA_CHAN_CFG_SOURCE c)

def State.enc (s : State) (e : Nat) : EncSt := SMap.get (fun _ => {}) s.vis.encs e
def State.setEnc (s : State) (e : Nat) (x : EncSt) : State :=
  s.setVis fun v => { v with encs := SMap.set (fun _ => {}) v.encs e x }

/-- Encode session `e` is on and takes a channel's frames. -/
def State.encOf (s : State) (e c : Nat) : Bool := s.cfgOn (VCODEC_ENC_CFG_ENABLE e) && s.cfg (VCODEC_ENC_CFG_CHANNEL e) == c

/-- An encode session holds frame k of a channel. -/
def State.encHolds (s : State) (c k : Nat) : Bool := (List.range 8).any fun e => s.encOf e c && ((s.enc e).hold.any fun f => f.k == k)

/-- The tests of Vision R324 at the start of frame k. -/
def State.bufFree (s : State) (c k : Nat) : Bool :=
  let n := s.chanCount c
  (!s.cfgOn (CAMERA_CHAN_RECEIPTS_CONSUME_EN c) || decide (k + 1 ≤ s.fnReceipt (s.chanFn c) (s.cfg (CAMERA_CHAN_RECEIPTS_CONSUME c)) + n)) &&
    !(decide (n ≤ k) && s.encHolds c (k - n))

/-- Count a dropped frame; one dropped for want of a buffer is reported. -/
def State.countDrop (s : State) (c : Nat) (busy : Bool) : State :=
  let s := s.addSat (CAMERA_CHAN_DROPS c) 1
  if busy then s.report { code := Code.CAM_FRAME_DROP, unit := c } else s

/-- A frame begins: written, or dropped with its cause. -/
def State.beginFrame (s : State) (c : Nat) (f : CamFrame) (drop : Option Nat) : State :=
  let x := s.chan c
  let k := x.next
  let busy := drop.isNone && !s.bufFree c k
  let d := drop.isSome || busy
  let f := { f with k := k, sof := s.round, dropped := d, cause := match drop with | some n => n | none => if busy then 8 else f.cause }
  let kept := if d then x.kept else x.kept.filter fun j => j.k + s.chanCount c != k
  let s := s.setChan c { x with next := k + 1, frames := x.frames ++ [f], last := s.round, kept := kept }
  if d then s.countDrop c busy else s

/-- Change the newest frame of a channel. -/
def onLast (g : CamFrame → CamFrame) : List CamFrame → List CamFrame
  | [] => []
  | [f] => [g f]
  | f :: t => f :: onLast g t

/-- The first cause of damage is kept (Vision R325). -/
def CamFrame.damage (f : CamFrame) (cause : Nat) : CamFrame := if f.cause = 0 then { f with cause := cause } else f

/-- Change the frame that a channel is receiving. -/
def State.onFrame (s : State) (c : Nat) (g : CamFrame → CamFrame) : State :=
  let x := s.chan c
  s.setChan c { x with frames := onLast (fun f => if f.past then f else g f) x.frames, last := s.round }

/-! ### The ISP's streams (Vision R332 to R337) -/

/-- The crop in force of a stream: a size of 0 in either field means the whole input. -/
def State.cropOf (s : State) (i : Nat) : Nat × Nat × Nat × Nat :=
  let w := s.get (ISP_CROP_SIZE_W i)
  let h := s.get (ISP_CROP_SIZE_H i)
  if w = 0 || h = 0 then (0, 0, s.get (ISP_STREAM_SIZE_WIDTH i), s.get (ISP_STREAM_SIZE_HEIGHT i))
  else (s.get (ISP_CROP_ORIGIN_X i), s.get (ISP_CROP_ORIGIN_Y i), w, h)

/-- The window of a crop: widened by 4 pixels on every side and clipped to the input; as first and end in x, and in y. -/
def windowOf (crop : Nat × Nat × Nat × Nat) (width height : Nat) : Nat × Nat × Nat × Nat :=
  (crop.1 - 4, min (crop.1 + crop.2.2.1 + 4) width, crop.2.1 - 4, min (crop.2.1 + crop.2.2.2 + 4) height)

def CamFrame.window (f : CamFrame) : Nat × Nat × Nat × Nat := windowOf f.crop f.width f.height
def CamFrame.winWidth (f : CamFrame) : Nat := f.window.2.1 - f.window.1
def CamFrame.winLines (f : CamFrame) : Nat := f.window.2.2.2 - f.window.2.2.1

/-- Window lines stored of a frame, and those still in input memory. -/
def CamFrame.stored (f : CamFrame) : Nat := f.raw.length
def CamFrame.inMemory (f : CamFrame) : Nat := f.stored - f.pixels / max f.winWidth 1

/-- Bytes of a packed window line (Vision R332): RAW8, RAW10, RAW12 or RAW14. -/
def lineBytes (width inBits : Nat) : Nat := (width * (8 + 2 * inBits) + 7) / 8

/-- The input memory that a stream takes under given values of IN_BITS and IN_LINES. -/
def State.inputBytes (s : State) (i inBits inLines : Nat) : Nat :=
  let w := windowOf (s.cropOf i) (s.get (ISP_STREAM_SIZE_WIDTH i)) (s.get (ISP_STREAM_SIZE_HEIGHT i))
  inLines * lineBytes (w.2.1 - w.1) inBits

/-- The scale of Vision Table 10.4: numerator and denominator. -/
def scaleOf (n : Nat) : Nat × Nat := [(1, 1), (2, 3), (1, 2), (1, 3), (1, 4), (1, 8)].getD n (1, 1)

/-- A scaled size (Vision R335). -/
def scaled (n x : Nat) : Nat := 2 * (x * (scaleOf n).1 / (2 * (scaleOf n).2))

/-- A multiple of 64 that holds a width. -/
def round64 (n : Nat) : Nat := (n + 63) / 64 * 64

/-- The bytes of a picture in a buffer (Vision Table 10.3). -/
def layoutBytes (format w h : Nat) : Nat :=
  let n := round64 w * h
  if format = 0 then n + n / 2 else if format = 1 then 2 * n else if format = 3 then n else 3 * n

/-- The row of the picture that byte `i` of a buffer belongs to. -/
def layoutRow (format w h i : Nat) : Nat :=
  let row := i / max (round64 w) 1
  if row < h then row else if format = 0 then 2 * (row - h) else (row - h) % max h 1

/-- The tuning block of a stream at a frame start: the block read if its CRC is right, else the last that passed, which is reported (Vision R337). -/
def State.tuneRead (s : State) (i f : Nat) : State × Bytes × Bool :=
  let old := SMap.get (fun _ => []) s.vis.tune i
  match s.fnRead f (s.get (ISP_TUNE_ADDR_ADDR i) * 256) 256 with
  | .ok b =>
    if crc32c (b.take 0xFC) == fieldLE b 0xFC 4 then (s.setVis fun v => { v with tune := SMap.set (fun _ => []) v.tune i b }, b, true)
    else (s.report { code := Code.ISP_TUNE_CRC, unit := i }, old, false)
  | .error e => ((s.accReport e).report { code := Code.ISP_TUNE_CRC, unit := i }, old, false)

/-- A frame of a raw channel begins: with the stream's values in force, or dropped while the ISP or the stream is off (Vision §10). -/
def State.beginRaw (s : State) (c ts : Nat) : State :=
  let i := s.cfg (CAMERA_CHAN_CFG_INDEX c)
  if !s.domUp 17 || !s.cfgOn (ISP_STREAM_CFG_ENABLE i) then s.beginFrame c { k := 0, sof := 0, ts := ts } (some 9)
  else
    let t := (s.portRead (s.cfg (CAMERA_CHAN_CFG_CLASS c)) none meshMedia (s.get (ISP_TUNE_ADDR_ADDR i) * 256) 256).tuneRead i (s.chanFn c)
    t.1.beginFrame c
      { k := 0, sof := 0, ts := ts, cause := if t.2.2 then 0 else 5, width := s.get (ISP_STREAM_SIZE_WIDTH i), height := s.get (ISP_STREAM_SIZE_HEIGHT i)
        crop := s.cropOf i, format := s.get (ISP_STREAM_FMT_OUT_FORMAT i), scale := s.get (ISP_STREAM_FMT_SCALE i), tuning := t.2.1 } none

/-! ### CSI-2 packets (Vision R321 to R324, R330, R332) -/

/-- The data types whose lines a port receives; all others are discarded (Vision Table 10.1). -/
def lineTypes : List Nat := [0x2A, 0x2B, 0x2C, 0x2D, 0x1E, 0x24]

/-- A channel takes the packets of a port and virtual channel. -/
def State.chanTakes (s : State) (c : Nat) (p : Csi2) (dt : Bool) : Bool :=
  s.chanOn c && decide (s.chanSource c ≤ 1) && s.cfg (CAMERA_CHAN_CFG_PORT c) == p.port.val && s.cfg (CAMERA_CHAN_CFG_VC c) == p.vc.val &&
    (!dt || (s.cfg (CAMERA_CHAN_CFG_DT c) == p.dt && lineTypes.contains p.dt))

/-- The input of the frame that a channel receives has ended. -/
def State.endInput (s : State) (c : Nat) (cause : Nat) : State :=
  s.onFrame c fun f =>
    let short := !f.dropped && decide (f.lines < f.height)
    { (if cause != 0 then f.damage cause else if short then f.damage 10 else f) with past := true }

/-- A write of frame data or of a record fails: the channel is disabled, and the frame gets no record (Vision R329). -/
def State.memFault (s : State) (c : Nat) : State :=
  ((s.clearNow (CAMERA_CHAN_CFG_ENABLE c)).setChan c {}).report { code := Code.CAM_MEM_FAULT, unit := c }

/-- A write of frame data or of a record: to DRAM, within the window of the channel's function (Vision R329). -/
def State.camWrite (s : State) (c a : Nat) (b : Bytes) : State × Option AccErr :=
  if b.isEmpty then (s, none)
  else if 0x2000000000 < a + b.length then (s, some .window)
  else (s.portWrite (s.cfg (CAMERA_CHAN_CFG_CLASS c)) none meshMedia a b.length).fnWrite (s.chanFn c) a b

/-- A line of a bypass channel: its payload on the next 64-byte boundary, zeros where it is lost; a line that would pass STRIDE cuts the
frame. -/
def State.bypassLine (s : State) (c : Nat) (f : CamFrame) (b : Bytes) (ok : Bool) : State :=
  let n := round64 b.length
  if f.dropped || f.cut.isSome then s
  else if s.chanStride c < f.off + b.length then
    s.onFrame c fun f => { f.damage 4 with cut := some f.lines }
  else
    let s := s.onFrame c fun f => { (if ok then f else f.damage 1) with lines := f.lines + 1, off := f.off + n }
    match s.camWrite c (s.bufAddr c f.k + f.off) (if ok then b else List.replicate b.length 0) with
    | (s', none) => s'
    | (s', some _) => s'.memFault c

/-- A line of a raw channel: kept if it lies in the window, until the stream's part of the input memory is full. -/
def State.rawLine (s : State) (c : Nat) (f : CamFrame) (b : Bytes) (ok : Bool) : State :=
  let i := s.cfg (CAMERA_CHAN_CFG_INDEX c)
  let w := f.window
  let inside := decide (w.2.2.1 ≤ f.lines) && decide (f.lines < w.2.2.2)
  let held := ((s.chan c).frames.map CamFrame.inMemory).foldl (· + ·) 0
  let next := fun (f : CamFrame) => { f with lines := f.lines + 1 }
  if f.dropped || f.cut.isSome || !inside then s.onFrame c next
  else if s.cfg (ISP_STREAM_CFG_IN_LINES i) ≤ held then
    (s.onFrame c fun f => next { f.damage 2 with cut := some f.lines }).report { code := Code.CAM_OVERFLOW, unit := c }
  else
    s.onFrame c fun f => next { (if ok then f else { f.damage 1 with lost := f.lost ++ [f.lines] }) with raw := f.raw ++ [if ok then b else []] }

/-- A line reaches the frame that its channel is receiving. -/
def State.lineIn (s : State) (c : Nat) (b : Bytes) (ok : Bool) : State :=
  match (s.chan c).frames.getLast? with
  | some f => if f.past then s else if s.chanSource c = 1 then s.bypassLine c f b ok else s.rawLine c f b ok
  | none => s

/-- A packet with a usable header goes to the channels that match it. A frame start that finds a frame still open ends it. -/
def State.packetIn (s : State) (p : Csi2) : State :=
  let cs := fun dt => (List.range 24).filter fun c => s.chanTakes c p dt
  match p.body with
  | .frameStart n => s.each (cs false) fun s c =>
      let s := s.endInput c 0
      if s.chanSource c = 1 then s.beginFrame c { k := 0, sof := 0, ts := n } none else s.beginRaw c n
  | .frameEnd => s.each (cs false) fun s c => s.endInput c 0
  | .line b ok =>
    let s := if ok || (cs true).isEmpty then s else
      (s.put (CAMERA_PORT_ERRORS_CRC_ERR p.port.val) (min (s.get (CAMERA_PORT_ERRORS_CRC_ERR p.port.val) + 1) 0xFFFF)).report
        { code := Code.CAM_CRC, unit := p.port.val }
    s.each (cs true) fun s c => s.lineIn c b ok

/-- A packet at an enabled port. A header that cannot be corrected loses its packet, and a line with it. -/
def State.csi2 (s : State) (p : Csi2) : State :=
  if !s.cfgOn (CAMERA_PORT_CFG_ENABLE p.port.val) || !s.domUp 20 then s
  else match p.ecc with
    | .bad =>
      let s := s.report { code := Code.CAM_HDR_ECC, unit := p.port.val }
      match p.body with
      | .line b _ => s.each ((List.range 24).filter fun c => s.chanTakes c p true) fun s c => s.lineIn c b false
      | _ => s
    | .corrected => (s.put (CAMERA_PORT_ERRORS_ECC_CORR p.port.val) (min (s.get (CAMERA_PORT_ERRORS_ECC_CORR p.port.val) + 1) 0xFFFF)).packetIn p
    | .good => s.packetIn p

def execCsi2Packet (p : Csi2) (s : State) : Host.Outcome State Fault Refusal := .next (s.csi2 p)

/-! ### The end of a frame (Vision R325 to R329) -/

/-- The size of a frame's picture. -/
def State.picture (s : State) (c : Nat) (f : CamFrame) : Nat × Nat :=
  if s.chanSource c = 2 then (f.width, f.height) else (scaled f.scale f.crop.2.2.1, scaled f.scale f.crop.2.2.2)

/-- Byte `i` of a picture's buffer: zero beyond the picture's width, and in rows made from lines that were lost or not stored. -/
def CamFrame.outByte (f : CamFrame) (format : Nat) (raw : Bool) (w h : Nat) (data : Bytes) (i : Nat) : Byte :=
  let line := f.crop.2.1 + layoutRow format w h i * (scaleOf f.scale).2 / (scaleOf f.scale).1
  let gone := raw && (f.lost.contains line || (match f.cut with | some n => decide (n ≤ line) | none => decide (f.lines ≤ line)))
  if decide (w ≤ i % max (round64 w) 1) || gone then 0 else data.getD i 0

/-- Where in its buffer the bytes written at a frame's end begin: a bypass frame has written its lines. -/
def State.dataStart (s : State) (c : Nat) (f : CamFrame) : Nat := if s.chanSource c = 1 then f.off else 0

/-- The bytes written at a frame's end, within the channel's stride: the picture, or the zeros of a damaged bypass frame's rest (Vision R325). -/
def State.frameData (s : State) (c : Nat) (f : CamFrame) (data : Bytes) : Bytes :=
  let z := s.picture c f
  let fmt := if s.chanSource c = 2 then 0 else f.format
  if s.chanSource c = 1 then (if f.cause = 0 then [] else List.replicate (s.chanStride c - f.off) 0)
  else (List.range (min (layoutBytes fmt z.1 z.2) (s.chanStride c))).map fun i => f.outByte fmt (s.chanSource c == 0) z.1 z.2 data i

/-- The frame record (Vision Table 10.2). -/
def frameRecord (f : CamFrame) (count now : Nat) : Bytes :=
  leBytes 8 f.k ++ leBytes 8 f.sof ++ leBytes 8 now ++ leBytes 1 (if f.dropped then 0xFF else f.k % count) ++
    leBytes 1 (if f.dropped then 2 else if f.cause != 0 then 1 else 0) ++ leBytes 2 f.cause ++ leBytes 4 f.ts

/-- The count of a set: the least CHAN_FRAMES over its members (Vision R328). -/
def State.setCountOf (s : State) (m : Nat) : Nat :=
  match onesBelow m 24 with
  | [] => 0
  | c :: t => (t.map fun c => s.rdN (CAMERA_CHAN_FRAMES c)).foldl min (s.rdN (CAMERA_CHAN_FRAMES c))

/-- Bring a frame set up to date. -/
def State.setUpdate (s : State) (g : Nat) : State :=
  let n := s.setCountOf (s.cfg (CAMERA_SET_CFG_MEMBERS g))
  (s.wrN (CAMERA_SET_COUNT g) n).camSignal (4, g) (s.cfg (CAMERA_SET_RECEIPT_FUNCTION g)) (s.cfg (CAMERA_SET_RECEIPT_RECEIPT g)) n g

/-- An idle encode session takes the first frame kept that it has not reached (Vision R341, R342). -/
def State.encTake (s : State) (e : Nat) : State :=
  let x := s.enc e
  let c := s.cfg (VCODEC_ENC_CFG_CHANNEL e)
  let div := max (s.cfg (VCODEC_ENC_CFG_FRAME_DIV e)) 1
  if !s.cfgOn (VCODEC_ENC_CFG_ENABLE e) || x.hold.isSome then s
  else match (s.chan c).kept.find? fun f => f.k % div == 0 && (match x.last with | some j => decide (j < f.k) | none => true) with
    | some f => s.setEnc e { x with hold := some f, pixels := 0, last := some f.k }
    | none => s

/-- The record of a finished frame, its receipt, and its frame sets. A frame that finishes with INPUT_OVERFLOW shows the governor that the media have demand
(Power cap R510). -/
def State.frameDone (s : State) (c : Nat) (f : CamFrame) : State :=
  let s := if f.cause = 2 then s.setGov fun g => { g with media := true } else s
  match s.camWrite c (s.cfg (CAMERA_CHAN_REC_BASE_ADDR c) * 2048 + 32 * (f.k % 64)) (frameRecord f (s.chanCount c) s.round) with
  | (s', some _) => s'.memFault c
  | (s', none) =>
    let s := s'.wrN (CAMERA_CHAN_FRAMES c) (f.k + 1)
    let s := if s.cfgOn (CAMERA_CHAN_RECEIPTS_FRAME_EN c) then s.camSignal (3, c) (s.chanFn c) (s.cfg (CAMERA_CHAN_RECEIPTS_FRAME c)) (f.k + 1) c else s
    let x := s.chan c
    let s := s.setChan c { x with kept := if f.dropped then x.kept else x.kept ++ [⟨f.k, (s.picture c f).1, (s.picture c f).2⟩] }
    let s := s.each ((List.range 8).filter fun g => s.cfgOn (CAMERA_SET_CFG_ENABLE g) && nbit (s.cfg (CAMERA_SET_CFG_MEMBERS g)) c) fun s g => s.setUpdate g
    s.each ((List.range 8).filter fun e => s.encOf e c) fun s e => s.encTake e

/-- The decoder is done with the access unit of a frame. -/
def State.decodeDone (s : State) (c : Nat) : State :=
  match s.vis.dec with
  | some d => if d.2 = c then (s.setVis fun v => { v with dec := none }).wrN (VCODEC_DEC_DONE d.1) (s.rdN (VCODEC_DEC_DONE d.1) + 1) else s
  | none => s

/-- The oldest frame of a channel finishes with the picture that its source gives. -/
def State.finishFrame (s : State) (c : Nat) (data : Bytes) : State :=
  let x := s.chan c
  match x.frames with
  | [] => s
  | f :: t =>
    let s := s.setChan c { x with frames := t }
    let s := if s.chanSource c = 2 then s.decodeDone c else s
    if f.dropped then s.frameDone c f
    else match s.camWrite c (s.bufAddr c f.k + s.dataStart c f) (s.frameData c f data) with
      | (s', none) => s'.frameDone c f
      | (s', some _) => s'.memFault c

/-- Every window pixel that was stored has been processed. -/
def CamFrame.processed (f : CamFrame) : Bool := decide (f.stored * f.winWidth ≤ f.pixels)

/-- Every pixel of a decoded picture has been decoded, or the decoder has met a syntax error in it. -/
def CamFrame.decoded (f : CamFrame) : Bool := decide (f.width * f.height ≤ f.pixels) || f.cause == 6

/-- A frame may finish: its input has ended, and the ISP has no group of it left, or the decoder no tile (Vision R323, R345); of a dropped frame only the
decoder does anything (R340). -/
def State.mayFinish (s : State) (c : Nat) (f : CamFrame) : Bool :=
  if s.chanSource c = 2 then f.decoded else f.dropped || (f.past && (s.chanSource c != 0 || f.processed))

def execFrameFinish (c : Fin 24) (data : Bytes) (s : State) : Host.Outcome State Fault Refusal :=
  .next (match (s.chan c).frames with
    | f :: _ => if s.mayFinish c f then s.finishFrame c data else s
    | [] => s)

/-- The frame that a channel receives is cut short by the loss of its source (Vision Table 10.9, §10). -/
def State.sourceLost (s : State) (c : Nat) (data : Bytes) : State :=
  let s := (s.endInput c 3).report { code := Code.CAM_SOURCE_LOST, unit := c }
  if (s.chan c).frames.length = 1 then s.finishFrame c data else s

/-- Two rounds with no packet beyond the expected line. -/
def execCamSourceLost (c : Fin 24) (data : Bytes) (s : State) : Host.Outcome State Fault Refusal :=
  let x := s.chan c
  .next (match x.frames.getLast? with
    | some f => if !f.past && decide (s.chanSource c ≤ 1) && decide (x.last + 2 ≤ s.round) then s.sourceLost c data else s
    | none => s)

/-- PD_CAM, PD_ISP or PD_VCODEC has left ON: the frames in progress that it carries finish with SOURCE_LOST. -/
def State.camLeave (s : State) (d : Nat) : State :=
  let hit := fun c => s.chanOn c && !(s.chan c).frames.isEmpty &&
    (if d = 20 then decide (s.chanSource c ≤ 1) else if d = 17 then s.chanSource c == 0 else d == 18 && s.chanSource c == 2)
  s.each ((List.range 24).filter hit) fun s c =>
    let x := s.chan c
    let s := (s.setChan c { x with frames := x.frames.map fun f => { f.damage 3 with past := true } }).report { code := Code.CAM_SOURCE_LOST, unit := c }
    s.each x.frames fun s _ => s.finishFrame c []

/-! ### Enabling channels, streams and sessions (Vision R319, R322, R329, R332, R341, R346) -/

/-- A field of a value being written. -/
def vbits (v : Nat) (f : Fld) : Nat := nbits v f.hi f.lo

/-- The data type of IN_BITS. -/
def rawType (inBits : Nat) : Nat := 0x2A + inBits

/-- Another enabled channel has the source that a CHAN_CFG value names, or its port has four other virtual channels in use. -/
def State.sourceTaken (s : State) (c v : Nat) : Bool :=
  let f := fun (g : Nat → Fld) => vbits v (g c)
  let src := f CAMERA_CHAN_CFG_SOURCE
  let others := (List.range 24).filter fun j => j != c && s.chanSet j
  let same := fun j (g : Nat → Fld) => s.get (g j) == f g
  let csi := others.filter fun j => decide (s.get (CAMERA_CHAN_CFG_SOURCE j) ≤ 1) && same j CAMERA_CHAN_CFG_PORT
  let vcs := (csi.map fun j => s.get (CAMERA_CHAN_CFG_VC j)).eraseDups
  (src == 2 && others.any fun j => s.get (CAMERA_CHAN_CFG_SOURCE j) == 2 && same j CAMERA_CHAN_CFG_INDEX) ||
    (decide (src ≤ 1) && (csi.any (fun j => same j CAMERA_CHAN_CFG_VC && same j CAMERA_CHAN_CFG_DT) ||
      (decide (4 ≤ vcs.length) && !vcs.contains (f CAMERA_CHAN_CFG_VC)))) ||
    (src == 0 && others.any fun j => s.get (CAMERA_CHAN_CFG_SOURCE j) == 0 && same j CAMERA_CHAN_CFG_INDEX)

/-- The stream of a raw channel is on and takes its data type. -/
def State.streamReady (s : State) (c v : Nat) : Bool :=
  let i := vbits v (CAMERA_CHAN_CFG_INDEX c)
  decide (i < 16) && s.on (ISP_STREAM_CFG_ENABLE i) && rawType (s.get (ISP_STREAM_CFG_IN_BITS i)) == vbits v (CAMERA_CHAN_CFG_DT c)

/-- A write of CHAN_CFG: discarded and reported as CAM_BUSY where R322, R329 or R346 says so. -/
def State.chanWrite (s : State) (c v : Nat) : State :=
  let en := nbit v 31
  let was := s.chanSet c
  let v := andNat' v
  let busy := s.report { code := Code.CAM_BUSY, unit := c }
  if vbits v (CAMERA_CHAN_CFG_CLASS c) = 0 then busy
  else if was then
    let s := if s.rdN (CAMERA_CHAN_CFG c) % 2 ^ 31 != v % 2 ^ 31 then busy else s
    if en then s else s.wrCfg (CAMERA_CHAN_CFG c) (s.rdN (CAMERA_CHAN_CFG c) % 2 ^ 31)
  else if en && (s.sourceTaken c v || (vbits v (CAMERA_CHAN_CFG_SOURCE c) == 0 && !s.streamReady c v)) then busy
  else s.wrCfg (CAMERA_CHAN_CFG c) v
where
  /-- The bits of CHAN_CFG that are not reserved. -/
  andNat' (v : Nat) : Nat := nbits v 31 8 * 256 + v % 32

/-- A channel comes on, and numbers its frames from 0 (Vision R323), or goes off; `old` is the value of CHAN_CFG that it acted on before. -/
def State.chanLatch (s : State) (c : Nat) (old : Word) : State :=
  if s.chanSet c == old.getLsbD 31 then s
  else if s.chanSet c then (s.wrN (CAMERA_CHAN_FRAMES c) 0).setChan c {} else s.setChan c {}

def execChanEnable (q : Req) (c : Fin 24) (v : Nat) (s : State) : Host.Outcome State Fault Refusal :=
  .next (s.landing q (CAMERA_CHAN_CFG c) fun s => s.chanWrite c v)

/-- The input memory that the enabled streams would take with stream `i` enabled under a value of STREAM_CFG. -/
def State.inputTotal (s : State) (i v : Nat) : Nat :=
  ((List.range 16).map fun j =>
    if j = i then s.inputBytes i (nbits v 27 26) (nbits v 11 8)
    else if s.on (ISP_STREAM_CFG_ENABLE j) then s.inputBytes j (s.get (ISP_STREAM_CFG_IN_BITS j)) (s.get (ISP_STREAM_CFG_IN_LINES j)) else 0).foldl (· + ·) 0

/-- A write of STREAM_CFG (Vision R332, R346). -/
def State.streamWrite (s : State) (i v : Nat) : State :=
  let en := nbit v 31
  let was := s.on (ISP_STREAM_CFG_ENABLE i)
  let v := nbits v 31 26 * 2 ^ 26 + nbits v 21 16 * 2 ^ 16 + nbits v 11 8 * 256
  if was then
    let s := if s.rdN (ISP_STREAM_CFG i) % 2 ^ 31 != v % 2 ^ 31 then s.report { code := Code.CAM_BUSY, unit := i } else s
    if en then s else s.wrCfg (ISP_STREAM_CFG i) (s.rdN (ISP_STREAM_CFG i) % 2 ^ 31)
  else if en && decide (0x200000 < s.inputTotal i v) then s.report { code := Code.ISP_CONFIG_REFUSED, unit := i }
  else s.wrCfg (ISP_STREAM_CFG i) v

/-- A stream comes on: no tuning block has passed yet (Vision R337). -/
def State.streamLatch (s : State) (i : Nat) (old : Word) : State :=
  if s.on (ISP_STREAM_CFG_ENABLE i) && !old.getLsbD 31 then s.setVis fun x => { x with tune := SMap.set (fun _ => []) x.tune i [] } else s

def execIspStreamEnable (q : Req) (i : Fin 16) (v : Nat) (s : State) : Host.Outcome State Fault Refusal :=
  .next (s.landing q (ISP_STREAM_CFG i) fun s => s.streamWrite i v)

/-- A channel gives NV12 frames. -/
def State.givesNv12 (s : State) (c : Nat) : Bool :=
  s.get (CAMERA_CHAN_CFG_SOURCE c) == 2 || (s.get (CAMERA_CHAN_CFG_SOURCE c) == 0 && s.get (ISP_STREAM_FMT_OUT_FORMAT (s.get (CAMERA_CHAN_CFG_INDEX c))) == 0)

/-- A write of ENC_CFG (Vision R341, ENC_OUT.CLASS, R346). -/
def State.encWrite (s : State) (e v : Nat) : State :=
  let en := nbit v 31
  let was := s.on (VCODEC_ENC_CFG_ENABLE e)
  let v := nbits v 31 8 * 256 + v % 64
  let busy := s.report { code := Code.CAM_BUSY, unit := e }
  if was then
    let s := if s.rdN (VCODEC_ENC_CFG e) % 2 ^ 31 != v % 2 ^ 31 then busy else s
    if en then s else s.wrCfg (VCODEC_ENC_CFG e) (s.rdN (VCODEC_ENC_CFG e) % 2 ^ 31)
  else if en && (!s.givesNv12 (vbits v (VCODEC_ENC_CFG_CHANNEL e)) || s.get (VCODEC_ENC_OUT_CLASS e) == 0) then busy
  else s.wrCfg (VCODEC_ENC_CFG e) v

/-- An encode session comes on or goes off: it begins anew, with the frames that its channel finishes from then on. -/
def State.encLatch (s : State) (e : Nat) (old : Word) : State :=
  if s.on (VCODEC_ENC_CFG_ENABLE e) == old.getLsbD 31 then s
  else
    let n := s.rdN (CAMERA_CHAN_FRAMES (s.get (VCODEC_ENC_CFG_CHANNEL e)))
    s.setEnc e { last := if n = 0 then none else some (n - 1) }

/-- What a channel, a stream or a session does at the boundary from which it acts on a register that has been written (Scope R21). -/
def State.visLatch (s : State) (off : Nat) (old : Word) : State :=
  if decide (CAMERA_CHAN_CFG 0 ≤ off) && decide (off < CAMERA_SET_CFG 0) && off == CAMERA_CHAN_CFG ((off - CAMERA_CHAN_CFG 0) / 0x40) then s.chanLatch ((off - CAMERA_CHAN_CFG 0) / 0x40) old
  else if decide (ISP_STREAM_CFG 0 ≤ off) && decide (off < VCODEC_DEC_CFG 0) && off == ISP_STREAM_CFG ((off - ISP_STREAM_CFG 0) / 0x40) then
    s.streamLatch ((off - ISP_STREAM_CFG 0) / 0x40) old
  else if decide (VCODEC_ENC_CFG 0 ≤ off) && decide (off < VCODEC_JPEG_CFG) && off == VCODEC_ENC_CFG ((off - VCODEC_ENC_CFG 0) / 0x40) then
    s.encLatch ((off - VCODEC_ENC_CFG 0) / 0x40) old
  else s

def execEncodeEnable (q : Req) (e : Fin 8) (v : Nat) (s : State) : Host.Outcome State Fault Refusal :=
  .next (s.landing q (VCODEC_ENC_CFG e) fun s => s.encWrite e v)

/-! ### Decode sessions (Vision R339, R340) -/

/-- The enabled channel whose source is a decode session. -/
def State.decChan (s : State) (i : Nat) : Option Nat :=
  (List.range 24).find? fun c => s.chanOn c && s.chanSource c == 2 && s.cfg (CAMERA_CHAN_CFG_INDEX c) == i

/-- A session has an access unit ready. -/
def State.decReady (s : State) (i : Nat) : Bool :=
  match s.decChan i with
  | some c => s.cfgOn (VCODEC_DEC_CFG_ENABLE i) && decide (s.rdN (VCODEC_DEC_DONE i) + 1 ≤ s.fnReceipt (s.chanFn c) (s.cfg (VCODEC_DEC_INPUT_RECEIPT i)))
  | none => false

/-- The session whose turn it is: the first ready one after the last served. -/
def State.decTurn (s : State) : Option Nat := ((List.range 32).map fun j => (s.vis.decLast + 1 + j) % 32).find? s.decReady

/-- Read the descriptor of access unit j: its TIMESTAMP, if its bytes and the unit's can be read. -/
def State.auRead (s : State) (i c : Nat) : State × Option Nat :=
  let f := s.chanFn c
  let bs := s.cfg (VCODEC_DEC_BS_BASE_ADDR i) * 4096
  let size := s.cfg (VCODEC_DEC_SIZES_BS_4K i) * 4096
  let k := s.cfg (CAMERA_CHAN_CFG_CLASS c)
  let da := s.cfg (VCODEC_DEC_AU_BASE_ADDR i) * 4096 + 16 * (s.rdN (VCODEC_DEC_DONE i) % 2 ^ s.cfg (VCODEC_DEC_CFG_LOG2_AU i))
  let s := s.portRead k none meshMedia da 16
  match s.fnRead f da 16 with
  | .error e => (s.accReport e, none)
  | .ok d =>
    let off := fieldLE d 0 4
    let len := fieldLE d 4 4
    let head := min len (size - off)
    let s := (s.portRead k none meshMedia (bs + off) head).portRead k none meshMedia bs (len - head)
    match s.fnRead f (bs + off) head, s.fnRead f bs (len - head) with
    | .ok _, .ok _ => (s, some (fieldLE d 8 8))
    | .error e, _ => (s.accReport e, none)
    | _, .error e => (s.accReport e, none)

/-- The decoder takes an access unit: its picture begins as a frame of the session's channel. -/
def State.decodeUnit (s : State) (i c : Nat) (k : AuKind) : State :=
  let r := s.auRead i c
  let s := r.1.setVis fun v => { v with decLast := i }
  let ts := match r.2 with | some t => t % 2 ^ 32 | none => 0
  let go := fun (s : State) (w h cause : Nat) (drop : Option Nat) =>
    let cause := if cause = 0 && decide (s.chanStride c < layoutBytes 0 w h) then 4 else cause
    (s.setVis fun v => { v with dec := some (i, c) }).beginFrame c { k := 0, sof := 0, ts := ts, cause := cause, width := w, height := h, past := true } drop
  let broken := fun (s : State) w h =>
    go ((s.setVis fun v => { v with noRef := if v.noRef.contains i then v.noRef else v.noRef ++ [i] }).report { code := Code.VDEC_BITSTREAM, unit := i }) w h 6 none
  match k with
  | .unsupported => (s.clearNow (VCODEC_DEC_CFG_ENABLE i)).report { code := Code.VDEC_UNSUPPORTED, unit := i }
  | .syntaxError w h => broken s w h
  | .picture w h key =>
    if r.2.isNone then broken s w h
    else if key then go (s.setVis fun v => { v with noRef := v.noRef.filter (· != i) }) w h 0 none
    else go s w h 0 (if s.vis.noRef.contains i then some 7 else none)

def execDecodeAccessUnit (i : Fin 32) (k : AuKind) (s : State) : Host.Outcome State Fault Refusal :=
  .next (match s.decChan i with
    | some c => if s.dom 18 = 0 && s.vis.dec.isNone && s.decTurn == some i.val then s.decodeUnit i c k else s
    | none => s)

/-! ### Encode sessions (Vision R341, R342) -/

/-- A write of an engine at a class. -/
def State.engineWrite (s : State) (k f a : Nat) (b : Bytes) : State × Option AccErr := (s.portWrite k none meshMedia a b.length).fnWrite f a b

/-- Write bytes into a ring at an offset, wrapping. -/
def State.ringWrite (s : State) (k f base size off : Nat) (b : Bytes) : State :=
  let n := size - off
  let s := (s.engineWrite k f (base + off) (b.take n)).1
  if n < b.length then (s.engineWrite k f base (b.drop n)).1 else s

/-- A picture of the held frame is encoded: its access unit and descriptor, the session's receipt, and the next frame. -/
def State.encodePicture (s : State) (e k : Nat) (au : Bytes) : State :=
  let x := s.enc e
  let size := s.cfg (VCODEC_ENC_BS_SIZE_BS_4K e) * 4096
  let f := s.cfg (VCODEC_ENC_OUT_FUNCTION e)
  let key := x.gop == 0 || x.force
  let done := fun (s : State) (x : EncSt) => (s.setEnc e { x with hold := none }).encTake e
  if size / 2 < au.length then done (s.report { code := Code.VENC_AU_LOST, unit := e }) { x with force := true }
  else
    let cls := s.cfg (VCODEC_ENC_OUT_CLASS e)
    let s := s.ringWrite cls f (s.cfg (VCODEC_ENC_BS_BASE_ADDR e) * 4096) size x.off au
    let s := (s.engineWrite cls f (s.cfg (VCODEC_ENC_AU_BASE_ADDR e) * 4096 + 16 * (x.n % 2 ^ s.cfg (VCODEC_ENC_OUT_LOG2_AU e)))
      (leBytes 4 x.off ++ leBytes 4 au.length ++ leBytes 4 k ++ leBytes 4 (x.n % 2 ^ 31 * 2 + (if key then 1 else 0)))).1
    let s := if s.cfgOn (VCODEC_ENC_OUT_RECEIPT_EN e) then s.camSignal (5, e) f (s.cfg (VCODEC_ENC_OUT_RECEIPT e)) (x.n + 1) e else s
    let g := (if key then 1 else x.gop + 1) % max (s.cfg (VCODEC_ENC_CFG_GOP e)) 1
    done s { x with n := x.n + 1, off := (x.off + au.length) % max size 1, gop := g, force := false }

/-- The frame that a session holds and has encoded whole (Vision R345). -/
def State.encWhole (s : State) (e : Nat) : Option KeptFrame :=
  (s.enc e).hold.filter fun f => decide (f.width * f.height ≤ (s.enc e).pixels)

def execEncodePicture (e : Fin 8) (au : Bytes) (s : State) : Host.Outcome State Fault Refusal :=
  .next (match s.encWhole e with
    | some f => if s.cfgOn (VCODEC_ENC_CFG_ENABLE e.val) && s.dom 18 == 0 then s.encodePicture e f.k au else s
    | none => s)

/-! ### JPEG (Vision R343, R344) -/

/-- The address of job j. -/
def State.jobAddr (s : State) : Nat := s.cfg VCODEC_JPEG_JOB_BASE_ADDR * 64 + 64 * (s.vis.jobNext % 2 ^ s.cfg VCODEC_JPEG_CFG_LOG2_JOBS)

/-- A job starts once the submit receipt reaches it. A descriptor that cannot be read is taken as a job of zeros, which is BAD_JOB. -/
def execJpegJob (s : State) : Host.Outcome State Fault Refusal :=
  let f := s.cfg VCODEC_JPEG_CFG_FUNCTION
  .next (if s.cfgOn VCODEC_JPEG_CFG_ENABLE && s.dom 18 == 0 && s.vis.job.isNone && decide (s.vis.jobNext + 1 ≤ s.fnReceipt f (s.cfg VCODEC_JPEG_RECEIPTS_SUBMIT)) then
    let s := s.portRead (s.cfg VCODEC_JPEG_CFG_CLASS) none meshMedia s.jobAddr 64
    match s.fnRead f s.jobAddr 64 with
    | .ok b => s.setVis fun v => { v with job := some b, jobTiles := 0 }
    | .error e => (s.accReport e).setVis fun v => { v with job := some (List.replicate 64 0), jobTiles := 0 }
  else s)

/-- A job's fields are those of Vision Table 10.7. -/
def jobOk (b : Bytes) : Bool :=
  decide (fieldLE b 0 1 ≤ 1) && [0, 1, 3, 4].contains (fieldLE b 1 1) && fieldLE b 3 1 == 0 &&
    (fieldLE b 0 1 == 1 || (decide (1 ≤ fieldLE b 2 1) && decide (fieldLE b 2 1 ≤ 100) && decide (1 ≤ fieldLE b 4 2) && decide (fieldLE b 4 2 ≤ 16384) &&
      decide (1 ≤ fieldLE b 6 2) && decide (fieldLE b 6 2 ≤ 16384)))

/-- The STATUS of a failed access. -/
def jobFault : AccErr → Nat
  | .poison => 5
  | _ => 4

/-- Carry out a job: its STATUS and OUT_LEN. -/
def State.jobRun (s : State) (f : Nat) (b : Bytes) (o : JpegOut) : State × Nat × Nat :=
  let n := if fieldLE b 0 1 = 0 then layoutBytes (fieldLE b 1 1) (fieldLE b 4 2) (fieldLE b 6 2) else fieldLE b 0x10 4
  let cls := s.cfg VCODEC_JPEG_CFG_CLASS
  if !jobOk b then (s, 6, 0)
  else
    let s := s.portRead cls none meshMedia (fieldLE b 8 8) n
    match s.fnRead f (fieldLE b 8 8) n with
    | .error e => (s.accReport e, jobFault e, 0)
    | .ok _ => match o with
      | .bad u => (s, if u then 2 else 1, 0)
      | .data _ _ d =>
        if fieldLE b 0x14 4 < d.length then (s, 3, 0)
        else match s.engineWrite cls f (fieldLE b 0x18 8) d with
          | (s', some e) => (s', jobFault e, 0)
          | (s', none) => (s', 0, d.length)

/-- A job ends: STATUS, OUT_LEN and DONE_ROUND, then the done receipt. -/
def State.jobDone (s : State) (b : Bytes) (o : JpegOut) : State :=
  let f := s.cfg VCODEC_JPEG_CFG_FUNCTION
  let a := s.jobAddr
  let r := s.jobRun f b o
  let cls := s.cfg VCODEC_JPEG_CFG_CLASS
  let s := (r.1.engineWrite cls f (a + 0x20) (leBytes 2 r.2.1)).1
  let s := (s.engineWrite cls f (a + 0x24) (leBytes 4 r.2.2 ++ leBytes 8 s.round)).1
  let j := s.vis.jobNext
  (s.setVis fun v => { v with job := none, jobNext := j + 1 }).camSignal (6, 0) f (s.cfg VCODEC_JPEG_RECEIPTS_DONE) (j + 1) 0xFFFF

/-- The size of the image of a job: that of its descriptor, or that of the stream (Vision R344). -/
def jobSize (b : Bytes) (o : JpegOut) : Nat × Nat :=
  match o with
  | .data w h _ => if fieldLE b 0 1 = 0 then (fieldLE b 4 2, fieldLE b 6 2) else (w, h)
  | .bad _ => (0, 0)

/-- A job's output is one that the engine gives: a file with the tables of R343, or an image in the layout of Table 10.3, once every block of it has been
coded (Vision R345). What the engine finds wrong it finds at any block. -/
def State.jobEnds (s : State) (b : Bytes) (o : JpegOut) : Bool :=
  match o with
  | .bad _ => true
  | .data _ _ d =>
    let z := jobSize b o
    !jobOk b || (decide (jpegBlocks (fieldLE b 1 1) z.1 z.2 ≤ 16 * s.vis.jobTiles) &&
      (if fieldLE b 0 1 = 0 then jpegFile (fieldLE b 1 1) (fieldLE b 2 1) d else d.length == layoutBytes (fieldLE b 1 1) z.1 z.2))

def execJpegJobDone (o : JpegOut) (s : State) : Host.Outcome State Fault Refusal :=
  .next (match s.vis.job with
    | some b => if s.jobEnds b o then s.jobDone b o else s
    | none => s)

/-! ### Units of the image and codec engines (Round Table 2.6, Vision R333, R334, R345) -/

/-- The enabled raw channel of a stream. -/
def State.streamChan (s : State) (i : Nat) : Option Nat :=
  (List.range 24).find? fun c => s.chanOn c && s.chanSource c == 0 && s.cfg (CAMERA_CHAN_CFG_INDEX c) == i

/-- GROUP_PIXELS of a stream. -/
def State.groupPixels (s : State) (i : Nat) : Nat := s.cfg (ISP_STREAM_CFG_GROUP_P64 i) * 64

/-- The oldest frame of a stream that the ISP has not processed. -/
def State.streamFrame (s : State) (i : Nat) : Option CamFrame :=
  (s.streamChan i).bind fun c => (s.chan c).frames.find? fun f => !f.dropped && !(f.past && f.processed)

/-- A line group of a stream is ready (Vision R333). -/
def State.groupReady (s : State) (i : Nat) : Bool :=
  match s.streamFrame i with
  | none => false
  | some f =>
    let w := max f.winWidth 1
    let fin := min (f.pixels + s.groupPixels i) (f.winLines * w)
    s.cfgOn (ISP_STREAM_CFG_ENABLE i) && decide (f.pixels < f.stored * w) &&
      (decide ((fin - 1) / w + 3 ≤ f.stored) || f.stored == f.winLines || ((f.past || f.cut.isSome) && decide (f.pixels < f.stored * w)))

/-- The declared worst case of a line group in ns (Vision R333). -/
def State.groupNs (s : State) (i : Nat) : Nat := (s.groupPixels i * 5 + 5) / 6 + 40

/-- An engine may serve a stream now (Vision R334). -/
def State.ispServes (s : State) (e i : Nat) : Bool :=
  if s.ttRun then
    !(e == 1 && (s.quantaAt s.round 16).any fun q => q.owner == some i)
  else
    let last := if e = 0 then s.vis.served.1 else s.vis.served.2
    let mine := fun j => s.groupReady j && s.cfg (ISP_STREAM_CFG_ENGINE j) == e
    ((List.range 16).map fun j => (last + 1 + j) % 16).find? mine == some i

/-- The picture that the decoder is in still has tiles. -/
def State.decWork (s : State) : Bool := match s.vis.dec with
  | some d => match (s.chan d.2).frames.getLast? with
    | some f => !f.decoded
    | none => false
  | none => false

/-- The session whose picture the encoder codes: the first, in ascending order, that has pixels of it left (log entry 169). -/
def State.encWork (s : State) : Option Nat :=
  (List.range 8).find? fun e => s.cfgOn (VCODEC_ENC_CFG_ENABLE e) && (s.enc e).hold.isSome && (s.encWhole e).isNone

/-- The declared worst case of a codec's tile in ns (Vision Table 10.8), if the engine has work. -/
def State.tileNs (s : State) (b : Nat) : Option Nat :=
  if b = 18 then (if s.decWork then s.vis.dec.map fun d => if s.cfg (VCODEC_DEC_CFG_CODEC d.1) = 2 then 960 else 480 else none)
  else if b = 19 then s.encWork.map fun _ => 960
  else s.vis.job.map fun _ => 480

/-- The worst case of a unit that a block has ready for an owner, if it has one. -/
def State.visionReady (s : State) (b owner : Nat) : Option Nat :=
  if b < 18 then (if s.dom 17 = 0 && s.groupReady owner && s.ispServes (b - 16) owner then some (s.groupNs owner) else none)
  else if s.dom 18 = 0 then s.tileNs b else none

/-- A codec has ended a tile: 1,024 pixels decoded, 512 encoded, or 16 blocks of a JPEG job (Vision Table 10.8). -/
def State.tileEnd (s : State) (b : Nat) : State :=
  if b = 18 then match s.vis.dec with
    | some d =>
      let x := s.chan d.2
      s.setChan d.2 { x with frames := onLast (fun f => { f with pixels := min (f.pixels + 1024) (f.width * f.height) }) x.frames }
    | none => s
  else if b = 19 then match s.encWork with
    | some e => s.setEnc e { s.enc e with pixels := (s.enc e).pixels + 512 }
    | none => s
  else if s.vis.job.isSome then s.setVis fun v => { v with jobTiles := v.jobTiles + 1 } else s

/-- An engine has ended a unit: for the ISP, a line group of the oldest frame is processed. -/
def State.visionEnd (s : State) (b owner : Nat) : State :=
  if 18 ≤ b then s.tileEnd b
  else
    let s := s.add64 (ISP_STREAM_GROUPS owner) 1
    let s := s.setVis fun v => { v with served := if b = 16 then (owner, v.served.2) else (v.served.1, owner) }
    match s.streamChan owner, s.streamFrame owner with
    | some c, some f =>
      let x := s.chan c
      s.setChan c { x with frames := x.frames.map fun y =>
        if y.k = f.k then { y with pixels := min (y.pixels + s.groupPixels owner) (y.stored * max y.winWidth 1) } else y }
    | _, _ => s

end Sys2Proof.Machine
end

