-- ==== Sys2Proof/Machine/Units.lean ====
section
/-! DEFINITION. Units of work (Round §5; Districts §1, §2): their fit check, start, end, overrun and hang. -/

namespace Sys2Proof.Machine
open Reg

/-! ### The fit check of a block (Round R56, R60) -/

/-- What the fit check of a ready unit gives: it starts with an end of its quantum or run, waits for its owner's quantum, is deferred, or can never
fit. -/
inductive Fit where
  | start (quantumEnd : Nat)
  | wait
  | defer (lo : Nat)
  | never
  deriving DecidableEq, Repr

/-- A round is an off round of a block's duty (Power cap R507). -/
def State.offRound (s : State) (n i : Nat) : Bool :=
  decide ((if i < 16 then s.get (POWER_GOV_STATE_DUTY i) else s.get POWER_MEDIA_GOV_DUTY) ≤ n % 8)

/-- The domain of a block. -/
def blockDomain (i : Nat) : Nat := if i < 16 then i else if i < 18 then 17 else 18

/-- The fit check at time `t` of round `n` for a worst case of `cost` cycles at `mhz` (Round R56). -/
def State.fitIn (s : State) (n i owner t cost mhz : Nat) : Fit :=
  match s.quantumIn n i owner t with
  | none => .wait
  | some q =>
    if s.offRound n i then .defer q.lo else
    let e := s.runEnd i owner 4096 n q
    if fitsBy t cost mhz s.fitGuard e then .start (n * 1000 + e) else .defer q.lo

/-- The fit check in the present round of a unit that has been checked against this timetable. -/
def State.fitNow (s : State) (i owner t cost mhz : Nat) : Fit := s.fitIn s.round i owner t cost mhz

/-- The first fit check of a unit against a timetable: it also finds that the unit can never fit (Round R60). -/
def State.fit (s : State) (i owner t cost mhz : Nat) : Fit :=
  if s.noFit i owner cost mhz then .never else s.fitNow i owner t cost mhz

/-- The fit check of a floor unit, `k` naming it among those checked (R60): a unit found to fit once waits under R56 even where its district's operating
point has been lowered since (Power cap §6). -/
def State.fitUnit (s : State) (k : Nat × Nat × Nat × Nat) (i owner t cost mhz : Nat) : Fit :=
  if s.rnd.checked.contains k then s.fitNow i owner t cost mhz else s.fit i owner t cost mhz

/-- A floor unit has been checked against the timetable in force. -/
def State.noteChecked (s : State) (k : Nat × Nat × Nat × Nat) : State :=
  if s.rnd.checked.contains k then s else s.setRnd fun r => { r with checked := r.checked ++ [k] }

/-- A unit's failed check counts once in each quantum of its owner (Round R56). One of an image or codec engine shows the governor that the media have demand
(Power cap R510). -/
def State.countDefer (s : State) (n i owner lo : Nat) (who : Nat × Nat) : State :=
  let k := (i, owner, n * 1000 + lo, who)
  if s.rnd.deferred.contains k then s
  else ((if 16 ≤ i then s.setGov fun g => { g with media := true } else s).setRnd fun r => { r with deferred := r.deferred ++ [k] }).addSat (ROUND_DEFER_COUNT i) 1

/-! ### Steps (Districts R195 to R197) -/

/-- Every arrival counter that a step names has reached its value. -/
def State.arrived (s : State) (d : Nat) (p : StepProg) : Bool := p.needs.all fun n => decide (n.2 ≤ s.rdN (FLOOR_ARRIVE_CNT d n.1.val))

/-- The step limit of a RUN stops a district before the step of a node, or after its last step (Parcels R279). -/
def RunSt.limited (r : RunSt) (x : DRun) (node : Nat) : Bool :=
  r.limit != 0 && (if nbit r.limit 31 then decide (r.limit % 65536 < node) else decide (r.limit ≤ x.started))

/-- A step is one that the parcel's public tables allow next on a district (Parcels R254 to R256). The private step list breaks none of this; a command that
names another step has no effect (log entry 162). -/
def RunSt.stepOk (r : RunSt) (x : DRun) (p : StepProg) : Bool :=
  let st := r.steps.getD p.desc (0, 0, 0)
  decide (p.desc < r.steps.length) && decide (x.started < r.maxSteps) && decide (st.1 ≤ r.maxCycles) && decide (r.nodes.1 ≤ st.2.1) &&
    decide (st.2.1 ≤ r.nodes.2) && (x.started == 0 || decide (x.reached ≤ st.2.1)) && r.walksOk p

/-- The step's segment loads and its first copies are made, and its clerks are released. -/
def State.stepGo (s : State) (d : Nat) (w : StepWork) (r : RunSt) (x : DRun) (t quantumEnd : Nat) : State :=
  let st := r.steps.getD w.prog.desc (0, 0, 0)
  let g := s.get (RINGS_CFG_FLOOR_GROUP w.ring.val)
  match s.stepHead w.ring w.seq d w.clerks r.key w.prog with
  | .error e => e.1.failRun w.ring w.seq e.2 0
  | .ok s =>
    let s := s.setFloor fun f => { f with
      ready := SMap.set (fun _ => []) f.ready d ((SMap.get (fun _ => []) f.ready d).filter fun e => !(e.ring == w.ring.val && e.seq == w.seq)) }
    let s := (s.add64 (FLOOR_STEP_COUNT d) 1).setDrun w.ring w.seq d fun x => { x with started := x.started + 1, reached := st.2.1 }
    let s := (s.put (FLOOR_DIST_STATE_RING d) w.ring.val).put (FLOOR_DIST_STATE_GROUP d) g
    let s := (s.setUnit d (some { ring := some w.ring.val, owner := g, d := st.1, startRound := s.round, startNs := t, quantumEnd := quantumEnd })).setDunit d
      (some { ring := w.ring.val, seq := w.seq, desc := w.prog.desc, clerks := w.clerks, prog := w.prog })
    s.each (clerksOf d w.clerks) fun s c => s.setClerk c ((s.clerk c).release w.ring w.seq (x.started == 0) w.prog.entry)

/-- A district may start a unit: ON, its postmaster running, no unit, not held, and not the express district. -/
def State.districtReady (s : State) (d : Nat) : Bool :=
  s.dom d == 0 && s.joined d && s.fwRunning (3 + d) && (s.dunit d).isNone && !s.isHeld d && d != s.expressDistrict && !s.quiet

/-- The ready step of an envelope on a district. -/
def State.readyOf (s : State) (d ring seq : Nat) : Option ReadyStep :=
  (SMap.get (fun _ => []) s.floor.ready d).find? fun e => e.ring == ring && e.seq == seq

/-- A step becomes ready: its sequence goes into the free half of the stream buffer. -/
def State.becomeReady (s : State) (d : Nat) (w : StepWork) (t : Nat) : State :=
  if (s.readyOf d w.ring w.seq).isSome then s
  else (s.writeSeq d w.ring w.seq w.clerks w.prog).setFloor fun f =>
    { f with ready := SMap.set (fun _ => []) f.ready d (SMap.get (fun _ => []) f.ready d ++ [⟨w.ring.val, w.seq, s.at t⟩]) }

/-- Another step of the same floor group became ready before a step, or in the same cycle on a lower-numbered ring (Districts R197). -/
def State.behind (s : State) (d : Nat) (w : StepWork) (t : Nat) : Bool :=
  let since := match s.readyOf d w.ring w.seq with | some e => e.since | none => s.at t
  (SMap.get (fun _ => []) s.floor.ready d).any fun e =>
    !(e.ring == w.ring.val && e.seq == w.seq) && s.get (RINGS_CFG_FLOOR_GROUP e.ring) == s.get (RINGS_CFG_FLOOR_GROUP w.ring.val) &&
      (match s.runSt e.ring e.seq with | some r => r.fail.isNone | none => false) && (decide (e.since < since) || (e.since == since && decide (e.ring < w.ring.val)))

/-- A half of the stream buffer is free for a step, or holds its sequence already. -/
def State.halfFree (s : State) (d : Nat) (w : StepWork) : Bool := (s.readyOf d w.ring w.seq).isSome || decide ((s.liveSeqs d).length < 2)

/-- A step of a RUN waits for an arrival, or no longer does. -/
def State.setWaits (s : State) (ring seq d : Nat) (b : Bool) : State := (s.setDrun ring seq d fun x => { x with waits := b }).syncWaits d

/-- A step that can go: the fit check at `t`, and what it gives. -/
def State.stepFit (s : State) (d : Nat) (w : StepWork) (r : RunSt) (x : DRun) (t : Nat) : State :=
  let st := r.steps.getD w.prog.desc (0, 0, 0)
  let g := s.get (RINGS_CFG_FLOOR_GROUP w.ring.val)
  let k := (d, w.ring.val, w.seq, x.started)
  let fit := s.fitUnit k d g t st.1 (opMHz (s.distOp d))
  let s := s.noteChecked k
  match fit with
  | .never => s.failRun w.ring w.seq 7 0
  | .wait => s
  | .defer lo => s.countDefer s.round d g lo (w.ring.val, w.seq)
  | .start e => s.stepGo d w r x t e

/-- The declared end of the unit that a district runs, in absolute ns (Districts R196). -/
def State.declaredEnd (s : State) (d : Nat) (u : RunUnit) : Nat :=
  let mhz := opMHz (s.distOp d)
  u.startRound * 1000 + u.startNs + (u.d * 1000 + mhz - 1) / mhz

/-- The advance check of the step after the one that runs (Districts R196): a fit check at the declared end of the running step. -/
def State.advance (s : State) (d : Nat) (w : StepWork) (r : RunSt) (v : DUnit) (u : RunUnit) : State :=
  let st := r.steps.getD w.prog.desc (0, 0, 0)
  let g := s.get (RINGS_CFG_FLOOR_GROUP w.ring.val)
  let e := s.declaredEnd d u
  if v.next.isSome || u.overrun || !w.prog.segs.isEmpty then s
  else match s.fitIn (e / 1000) d g (e % 1000) st.1 (opMHz (s.distOp d)) with
    | .start q => s.setDunit d (some { v with next := some ⟨w, q⟩ })
    | .defer lo => s.countDefer (e / 1000) d g lo (w.ring.val, w.seq)
    | _ => s

/-- A postmaster comes to a step of its step list: limits, arrivals, and the fit check. While the step before it on the same district runs, the check is made in
advance. -/
def State.stepStart (s : State) (d : Nat) (w : StepWork) (t : Nat) : State :=
  match s.runSt w.ring w.seq with
  | none => s
  | some r => match r.dists.find? fun x => x.d == d with
    | none => s
    | some x =>
      if r.fail.isSome || x.stopped || r.express || !r.stepOk x w.prog || s.memWaits w.ring w.seq then s
      else
        let limited := r.limited x (r.steps.getD w.prog.desc (0, 0, 0)).2.1
        match s.dunit d, s.unitOn d with
        | some v, some u =>
          if v.ring == w.ring.val && v.seq == w.seq && !limited && s.arrived d w.prog && s.halfFree d w then
            let s := s.becomeReady d w t
            if s.behind d w t then s else s.advance d w r v u
          else s
        | _, _ =>
          if !s.districtReady d then s
          else if limited then (s.setDrun w.ring w.seq d fun x => { x with stopped := true, limited := true }).runSettle w.ring w.seq
          else if !s.arrived d w.prog then s.setWaits w.ring w.seq d true
          else if !s.halfFree d w then s
          else
            let s := (s.setWaits w.ring w.seq d false).becomeReady d w t
            if s.behind d w t then s else s.stepFit d w r x t

/-- An image or codec engine has a unit ready for an owner. -/
def State.visionStart (s : State) (b : Nat) (w : Work) (t : Nat) : State :=
  if (s.unitOn b).isSome || s.on ERROR_STATUS_SAFE || s.preparing (blockDomain b) || !s.joined (blockDomain b) then s
  else match s.visionReady b w.owner with
    | none => s
    | some ns => match s.fit b w.owner t ns 1000 with
      | .start e => s.setUnit b (some { ring := none, owner := w.owner, d := ns, startRound := s.round, startNs := t, quantumEnd := e })
      | .defer lo => s.countDefer s.round b w.owner lo (0, 0)
      | _ => s

def execUnitStart (i : Block) (w : UnitWork) (t : Nat) (s : State) : Host.Outcome State Fault Refusal :=
  .next (match w with
    | .step w => if i.val < 16 then (s.atNs t).stepStart i w t else s
    | .vision w => if 16 ≤ i.val then (s.atNs t).visionStart i w t else s)

/-! ### The end of a step (Districts R195, R205 to R207; Numbers R243) -/

/-- Every clerk of a unit has issued its step-boundary slot, or has gone on from it. -/
def State.unitAtEnd (s : State) (d : Nat) (u : DUnit) : Bool := (clerksOf d u.clerks).all fun c => (s.clerk c).stage == .boundary || (s.clerk c).ahead

/-- The step that passed its advance check starts with the end of the one before, unless that came later than declared (Districts R196): then it is checked again. -/
def State.nextStep (s : State) (d : Nat) (u : DUnit) (old : Option RunUnit) (t : Nat) : State :=
  match u.next, old, s.runSt u.ring u.seq with
  | some n, some o, some r => match r.dists.find? fun x => x.d == d with
    | some x =>
      if r.fail.isSome || x.stopped || decide (s.declaredEnd d o < s.at t) || !s.districtReady d then s else s.stepGo d n.work r x t n.quantumEnd
    | none => s
  | _, _, _ => s

/-- A step ends, and the next may start. -/
def State.stepEnd (s : State) (d : Nat) (u : DUnit) (f : StepFinish) (t : Nat) : State :=
  match s.runSt u.ring u.seq with
  | none => s.closeUnit d
  | some r =>
    let node := (r.steps.getD u.desc (0, 0, 0)).2.1
    let old := s.unitOn d
    let s := s.each (clerksOf d u.clerks) fun s c => s.dueStores c (2 ^ 64)
    let tail := s.stepTail u.ring u.seq d r.key f.moves u.prog.walks
    let s := match tail with
      | .ok s' => s'
      | .error e => e.1.failRun u.ring u.seq e.2 0
    let s := s.setDrun u.ring u.seq d fun x =>
      let lim := !f.returns && r.limit != 0 && !nbit r.limit 31 && decide (r.limit ≤ x.started)
      { x with steps := x.steps + 1, node := node, since := s.round, stopped := f.returns || lim, limited := lim }
    ((s.closeUnit d).runSettle u.ring u.seq).nextStep d u old t

def execStepEnd (d : Fin 16) (f : StepFinish) (t : Nat) (s : State) : Host.Outcome State Fault Refusal :=
  .next (match s.dunit d with
    | some u => if s.unitAtEnd d u then (s.atNs t).stepEnd d u f t else s
    | none => s)

/-- The end of a unit on a block: an engine's unit ends, and a district that has none serves the accesses that it held. -/
def execUnitEnd (i : Block) (t : Nat) (s : State) : Host.Outcome State Fault Refusal :=
  .next (match s.unitOn i with
    | some u => if 16 ≤ i.val then ((s.atNs t).setUnit i none).visionEnd i u.owner else s
    | none => if i.val < 16 then (s.atNs t).serveHeld i else s)

/-! ### Overrun and hang (Round R63 to R66) -/

/-- Stop a ring because of an error; its floor RUN on a block ends with a status. -/
def State.stopFor (s : State) (i r status : Nat) : State :=
  let s := match s.dunit i with
    | some u => s.failRun u.ring u.seq status 0
    | none => s
  s.ringStopping r

/-- Count an overrun against a ring, and stop the ring at LIMIT overruns within WINDOW rounds. -/
def State.overrunRing (s : State) (i r : Nat) : State :=
  let lim := s.cfg ROUND_OVR_POLICY_LIMIT
  let win := s.cfg ROUND_OVR_POLICY_WINDOW
  let l := (SMap.get (fun _ => []) s.rnd.overruns r).filter (fun n => decide (s.round < n + win)) ++ [s.round]
  let s := (s.setRnd fun x => { x with overruns := SMap.set (fun _ => []) x.overruns r l }).report { code := Code.BUDGET_OVERRUN, ring := some r, unit := i }
  if lim != 0 && decide (lim ≤ l.length) then (s.report { code := Code.BUDGET_OVERRUN_STOP, ring := some r, unit := i }).stopFor i r 0x0B else s

/-- A unit still running at the end of the quantum or run of its check. -/
def execOverrun (i : Block) (t : Nat) (s : State) : Host.Outcome State Fault Refusal :=
  .next (match s.unitOn i with
    | some u =>
      if i.val = s.expressDistrict then (s.atNs t).xOverrun
      else if u.overrun || decide (s.at t < u.quantumEnd) then s
      else
        let s := ((s.atNs t).setUnit i (some { u with overrun := true })).addSat (ROUND_OVR_COUNT i) 1
        match u.ring with
        | some r => s.overrunRing i r
        | none => if i.val < 16 then s else s.report { code := Code.BUDGET_OVERRUN, unit := i }
    | none => s)

/-- A unit still running 1,000 rounds after the end of its quantum or run is halted, and its ring is stopped. -/
def execUnitHang (i : Block) (t : Nat) (s : State) : Host.Outcome State Fault Refusal :=
  .next (match s.unitOn i with
    | some u =>
      if !(if i.val = s.expressDistrict then s.xHung t else decide (u.quantumEnd + 1000000 ≤ s.at t)) then s
      else
        let s := (s.atNs t).report { code := Code.UNIT_HANG, ring := u.ring, unit := i }
        let s := match u.ring with | some r => s.stopFor i r 0x0C | none => s
        if i.val < 16 then
          let s := match s.dunit i with
            | some v => s.setDrun v.ring v.seq i fun x => { x with stopped := true }
            | none => s
          let run := s.dunit i
          let s := s.closeUnit i
          match run with
          | some v => s.runSettle v.ring v.seq
          | none => s
        else s.setUnit i none
    | none => s)

end Sys2Proof.Machine
end

