-- ==== Sys2Proof/Machine/Abort.lean ====
section
/-! DEFINITION. SIGNAL envelopes, ABORT and function-level reset (Envelopes R106, R111, R117, R119). -/

namespace Sys2Proof.Machine
open Reg

/-! ### SIGNAL (Envelopes R106, R110, R111; Links R637) -/

/-- A local signal is applied at once. A remote one leaves as a SIGNAL packet, or fails with LINK_DOWN if its target is absent from the ring. -/
def State.signalEnvelope (s : State) (r seq : Nat) (e : Bytes) : State :=
  let max? := nbit (Env.sigMode e) 0
  if !Env.remote e then (s.signal (1, r) (Env.receipt e) max? (Env.value e)).complete r seq 0 0
  else if !s.relayTarget (Env.target e) then s.complete r seq 0x0D 0
  else
    let t := s.relay.tag
    (s.setRelay fun x => { x with tag := (x.tag + 1) % 65536, ops := x.ops ++ [⟨t, r, seq, s.round, true⟩] }).relaySend 4 (Env.target e)
      (if max? then 32 else 0) t (Env.receipt e) (beBytes 8 (Env.value e) ++ List.replicate 8 0)

def execSignal (r : Ring) (seq : Nat) (s : State) : Host.Outcome State Fault Refusal :=
  .next (match s.startedOf r seq 4 with
    | some f => if s.relayOpen r seq then s else s.signalEnvelope r seq f.env
    | none => s)

/-- A remote SIGNAL not acknowledged within 100 rounds fails. -/
def execRemoteSignalTimeout (r : Ring) (seq : Nat) (s : State) : Host.Outcome State Fault Refusal :=
  .next (match s.startedOf r seq 4 with
    | some _ => if s.relayLate r seq true then (s.relayForget r seq).complete r seq 0x0D 0 else s
    | none => s)

/-! ### ABORT (Envelopes R119) -/

/-- An FW_LOAD is halted: the halts that it still waits for are not made, and what it has halted and not started stays HALTED. -/
def State.fwAbort (s : State) (r seq : Nat) : State :=
  match s.fw.loads.find? fun l => l.ring == r && l.seq == seq with
  | none => s
  | some l =>
    let s := if l.begun then s else
      (s.setFw fun z => { z with halts := z.halts.filter fun h => !(h.2 == 1 && l.waits.contains h.1) }).each
        (l.starts.filter fun p => s.get (FIRMWARE_PROC_STATE_STATE p) == 2) fun s p => s.put (FIRMWARE_PROC_STATE_STATE p) 1
    s.setFw fun z => { z with loads := z.loads.filter fun l => !(l.ring == r && l.seq == seq) }

/-- A started envelope halts at its next step or burst boundary: a RUN when its units have ended, a load as Fabric R439 gives, an envelope
whose seal is accepted not at all (Transactions R133), and every other at once. -/
def State.abortFlight (s : State) (r : Nat) (f : Flight) : State :=
  if f.stage != .started then s
  else match Env.kind f.env with
    | 1 => if (s.runSt r f.seq).isSome then s.failRun r f.seq 9 0 else s.complete r f.seq 9 0
    | 5 => if s.txn.owners.any fun o => o.2.env == some (r, f.seq) then s else s.complete r f.seq 9 0
    | 6 => ((s.psAbort f.prog).memForget r f.seq).complete r f.seq 9 0
    | 7 => (s.setServe fun z => { z with binds := z.binds.filter fun b => !(b.ring == r && b.seq == f.seq) }).complete r f.seq 9 0
    | 9 => ((s.fwAbort r f.seq).memForget r f.seq).complete r f.seq 9 0
    | 11 => if s.fab.loads.any fun l => l.ring == r && l.seq == f.seq then s.loadAbort r f.seq else s.complete r f.seq 9 0
    | _ => ((s.relayForget r f.seq).memForget r f.seq).complete r f.seq 9 0

/-- Abort a ring: its fetched envelopes are cancelled, and each started one halts. -/
def State.ringAbort (s : State) (r : Nat) : State :=
  if s.ringState r = 1 || s.ringState r = 2 then
    let s := (s.putB (RINGS_CTRL_ABORT r) true).ringStopping r
    (s.each (s.ring r).flights fun s f => s.abortFlight r f).ringSettle r
  else s

def execRingAbort (q : Req) (r : Ring) (s : State) : Host.Outcome State Fault Refusal :=
  .next (s.landing q (RINGS_CTRL r) fun s => s.ringCtl q r fun s => s.ringAbort r)

/-! ### Function-level reset (Envelopes R117; Links R618; Transactions R132; Serving R297) -/

/-- Abort a ring and disable it as soon as it has stopped. -/
def State.ringKill (s : State) (r : Nat) : State :=
  let s := (s.setRing r { s.ring r with disabling := true }).ringAbort r
  if s.ringState r = 3 then s.ringOff r else s

/-- One function is reset: its rings are aborted and disabled, the sessions that it opened close, and its holder is lost. -/
def State.resetFunction (s : State) (f : Nat) : State :=
  let s := s.each (s.liveRings.filter fun r => s.ringFn r == f) fun s r => s.ringKill r
  let s := s.setServe fun z => { z with sessions := s.serve.sessions.map fun x => if x.fn = f then { x with closing := true } else x }
  match ringHolder f with
  | some h => s.loseHolder h
  | none => s

/-- A function-level reset: that of the PF acts on every VF too. -/
def State.flr (s : State) (f : Nat) : State := s.each (if f = 0 then List.range 17 else [f]) fun s k => s.resetFunction k

def execFunctionLevelReset (f : Fin 17) (s : State) : Host.Outcome State Fault Refusal :=
  .next (if s.spineUp then s.flr f else s)

end Sys2Proof.Machine
end

