-- ==== Sys2Proof/Machine/CPort.lean ====
section
/-! DEFINITION. The control ports and the window guard (Express §6 to §8): links, received frames, the cyclic exchange, and what may leave. -/

namespace Sys2Proof.Machine
open Reg

def State.port (s : State) (p : Nat) : PortSt := SMap.get (fun _ => {}) s.ports p
def State.setPort (s : State) (p : Nat) (f : PortSt → PortSt) : State :=
  { s with ports := SMap.set (fun _ => {}) s.ports p (f (s.port p)) }

/-- Count in CX_COUNT (Express §10). -/
def State.cx (s : State) (p i : Nat) : State := s.addSat (CPORT_CX_COUNT p i) 1

/-! ### The guard's schedule (Express R380, R381) -/

/-- The enabled windows of a bank: number, start in ns from the start of the period, and length. -/
def State.bankWins (s : State) (p b : Nat) : List (Nat × Nat × Nat) :=
  ((List.range 16).filter fun w => s.on (CPORT_GUARD_WIN_EN p b w)).map fun w =>
    (w, s.get (CPORT_GUARD_WIN_START_ROUND p b w) * 1000 + s.get (CPORT_GUARD_WIN_START_NS p b w), s.get (CPORT_GUARD_WIN_LEN_NS p b w))

/-- A bank's period in rounds. -/
def State.bankPeriod (s : State) (p b : Nat) : Nat := s.get (CPORT_GUARD_PERIOD_PERIOD_M1 p b) + 1

/-- Two windows overlap. -/
def winOverlap (x y : Nat × Nat × Nat) : Bool := decide (x.2.1 < y.2.1 + y.2.2) && decide (y.2.1 < x.2.1 + x.2.2)

/-- A set of windows, as raw registers, is valid for a period (Express R381). -/
def winsValid (period : Nat) (raws : List Nat) : Bool :=
  let en := raws.filter fun v => nbit v 63
  let wins := en.map fun v => (0, nbits v 47 32 * 1000 + nbits v 25 16, nbits v 15 0)
  (en.all fun v => decide (nbits v 47 32 < period) && decide (nbits v 25 16 ≤ 999) && decide (16 ≤ nbits v 15 0)) &&
    (wins.all fun w => decide (w.2.1 + w.2.2 ≤ period * 1000)) &&
    (List.range wins.length).all fun i => (List.range i).all fun j => !winOverlap (wins.getD i (0, 0, 0)) (wins.getD j (0, 0, 0))

/-- A bank is valid. -/
def State.bankValid (s : State) (p b : Nat) : Bool :=
  winsValid (s.bankPeriod p b) ((List.range 16).map fun w => s.rdN (CPORT_GUARD_WIN p b w))

/-- The active bank. -/
def State.guardBank (s : State) (p : Nat) : Nat := s.get (CPORT_GUARD_CTRL_ACTIVE_BANK p)

/-- The instant, in ns, at which an armed switch will take effect: the start of network round N, if it has not begun and the standby bank is
valid. -/
def State.switchAt (s : State) (p : Nat) : Option Int :=
  let r : Int := (s.rdN (CPORT_GUARD_SWITCH p) : Int) - toSigned 64 (s.rdN ROUND_NET_OFFSET)
  if s.on (CPORT_GUARD_CTRL_SWITCH_PENDING p) && decide ((s.round : Int) < r) && s.bankValid p (1 - s.guardBank p) then some (r * 1000) else none

/-- The start, in ns, of the period of a bank that holds round `r`: periods begin where the network round number is a multiple of P. -/
def State.periodStart (s : State) (p b : Nat) (r : Int) : Int :=
  (r - (r + toSigned 64 (s.rdN ROUND_NET_OFFSET)) % (s.bankPeriod p b : Int)) * 1000

/-- The occurrences of a bank's windows (of one window, or of all) in the period of an instant and in the next. -/
def State.occurrences (s : State) (p b : Nat) (w : Option Nat) (t : Int) : List (Int × Int) :=
  let ps := s.periodStart p b (t / 1000)
  let ws := (s.bankWins p b).filter fun x => match w with | some k => x.1 == k | none => true
  [ps, ps + s.bankPeriod p b * 1000].flatMap fun (base : Int) => ws.map fun x => (base + x.2.1, base + x.2.1 + x.2.2)

/-- The earliest occurrence of a list. -/
def earliest : List (Int × Int) → Option (Int × Int)
  | [] => none
  | x :: t => match earliest t with
    | some y => if y.1 < x.1 then some y else some x
    | none => some x

/-- The bank in force at an instant, and the instant at which it is switched out. -/
def State.bankAt (s : State) (p : Nat) (t : Int) : Nat × Option Int :=
  match s.switchAt p with
  | none => (s.guardBank p, none)
  | some z => if t < z then (s.guardBank p, some z) else (1 - s.guardBank p, none)

/-- The window open at an instant; it closes at a switch (Express R381). -/
def State.openAt (s : State) (p : Nat) (w : Option Nat) (t : Int) : Option (Int × Int) :=
  let b := s.bankAt p t
  ((s.occurrences p b.1 w t).find? fun o => decide (o.1 ≤ t) && decide (t < o.2)).map fun o =>
    (o.1, match b.2 with | some z => min o.2 z | none => o.2)

/-- The first window that opens after an instant, across a switch. -/
def State.nextOpen (s : State) (p : Nat) (w : Option Nat) (t : Int) : Option (Int × Int) :=
  let b := s.bankAt p t
  let o := earliest ((s.occurrences p b.1 w t).filter fun o => decide (t < o.1))
  match b.2 with
  | none => o
  | some z =>
    match o.filter fun x => decide (x.1 < z) with
    | some x => some (x.1, min x.2 z)
    | none => match s.openAt p w z with
      | some x => some (max x.1 z, x.2)
      | none => earliest ((s.occurrences p (1 - s.guardBank p) w z).filter fun o => decide (z < o.1))

/-- The target occurrence of a window for a last bit at `t` (Express R375). -/
def State.targetOcc (s : State) (p w : Nat) (t : Int) : Option (Int × Int) :=
  match s.openAt p (some w) t with
  | some o => some o
  | none => s.nextOpen p (some w) t

/-! ### What the guard permits (Express R382 to R386) -/

/-- The guard is ARMED and not SILENT. -/
def State.guardPermits (s : State) (p : Nat) : Bool := s.cfgOn (CPORT_GUARD_CTRL_ARMED p) && !s.on (CPORT_GUARD_CTRL_SILENT p)

/-- The end of the window in which a frame may start at `t` and last `dur` ns (Express R382). -/
def State.mayStart (s : State) (p t dur : Nat) : Option Int :=
  if s.guardPermits p && s.on ROUND_STATUS_TIME_VALID then
    match s.openAt p none t with
    | some o => if (t : Int) + dur ≤ o.2 then some o.2 else none
    | none => none
  else none

/-- A gPTP frame may start outside the windows (Express R384). -/
def State.mayAllow (s : State) (p t dur octets : Nat) : Bool :=
  let gap := s.cfg (CPORT_GUARD_CTRL_PTP_GAP_MS p)
  s.guardPermits p && gap != 0 && decide (octets ≤ 103) && !(s.on ROUND_STATUS_TIME_VALID && (s.openAt p none t).isSome) &&
    (match (s.port p).lastPtp with | some l => decide (l + gap * 1000000 ≤ t) | none => true) &&
    (match s.nextOpen p none t with | some o => decide ((t : Int) + dur + 16 ≤ o.1) | none => true)

/-- ns for one octet at the link speed. -/
def State.octetNs (s : State) (p : Nat) : Nat := if s.get (CPORT_STATUS_SPEED p) = 2 then 8 else 80

/-- A frame's duration from preamble through the end of the FCS, for octets without FCS. -/
def State.frameNs (s : State) (p n : Nat) : Nat := (n + 12) * s.octetNs p

/-- A frame is on the medium, or its inter-packet gap has not passed, at `t`. -/
def State.mediumBusy (s : State) (p t : Nat) : Bool :=
  match (s.port p).sent.getLast? with | some x => decide (t < x.stop + 12 * s.octetNs p) | none => false

/-- End the frame in progress at `t`, cut with an error symbol. -/
def State.cutFrame (s : State) (p t : Nat) : State :=
  s.setPort p fun x => { x with sent := x.sent.map fun f => if decide (f.start ≤ t) && decide (t < f.stop) then { f with stop := t, cut := true } else f }

/-- A frame in progress at `t`. -/
def State.inFlight (s : State) (p t : Nat) : Option TxSent := (s.port p).sent.find? fun f => decide (f.start ≤ t) && decide (t < f.stop)

/-- A cut under Express R383. -/
def State.guardCut (s : State) (p t : Nat) : State :=
  ((s.cutFrame p t).addSat (CPORT_GUARD_COUNT p 1) 1).report { code := Code.GUARD_CUT, unit := p }

/-- A transmission still in progress at the end of its window is cut there. -/
def execGuardCut (p : Fin 2) (t : Nat) (s : State) : Host.Outcome State Fault Refusal :=
  .next (match s.inFlight p (s.at t) with
    | some f => match f.wend with
      | some e => if e ≤ s.at t || (s.openAt p none (s.at t)).isNone then (s.atNs t).guardCut p (s.at t) else s
      | none => s
    | none => s)

/-- The standby bank becomes active at the boundary of network round N if it is valid; a window open there closes, and a frame that crosses it
is cut. -/
def State.guardSwitch (s : State) (p : Nat) : State :=
  let s' := s.putB (CPORT_GUARD_CTRL_SWITCH_PENDING p) false
  if s.bankValid p (1 - s.guardBank p) then
    let s' := match s.inFlight p (s.round * 1000) with
      | some f => if f.wend.isSome && decide (f.start < s.round * 1000) then s'.guardCut p (s.round * 1000) else s'
      | none => s'
    s'.put (CPORT_GUARD_CTRL_ACTIVE_BANK p) (1 - s.guardBank p)
  else s'.report { code := Code.GUARD_SWITCH_REFUSED, unit := p }

def execGuardSwitchApply (p : Fin 2) (s : State) : Host.Outcome State Fault Refusal :=
  .next (if s.on (CPORT_GUARD_CTRL_SWITCH_PENDING p) && ofSigned 64 s.netRound == s.rdN (CPORT_GUARD_SWITCH p) then s.guardSwitch p else s)

/-- A guard becomes SILENT: its port sends nothing, and a frame in progress is cut (Express R385). -/
def State.silence (s : State) (p : Nat) : State := (s.putB (CPORT_GUARD_CTRL_SILENT p) true).cutFrame p s.now

/-- The two comparator channels disagree on a decision (Express R386). -/
def execGuardDisagree (p : Fin 2) (s : State) : Host.Outcome State Fault Refusal :=
  .next (if s.guardPermits p then (s.silence p).report { code := Code.GUARD_DISAGREE, unit := p } else s)

/-- GUARD_CTRL as it comes into force at a boundary: ARMED written as 1 clears SILENT outside the safe state (Express §10). -/
def State.guardBoundary (s : State) (p : Nat) : State :=
  if s.on (CPORT_GUARD_CTRL_ARMED p) && !s.on ERROR_STATUS_SAFE then s.putB (CPORT_GUARD_CTRL_SILENT p) false else s

/-! ### Links (Express R368) -/

/-- The speed of a link: the fastest that the partner offers and PORT_CFG advertises. -/
def State.linkSpeed (s : State) (p offer : Nat) : Nat :=
  if !s.cfgOn (CPORT_PORT_CFG_ENABLE p) then 0
  else if 2 ≤ offer && s.cfgOn (CPORT_PORT_CFG_ADV_1000 p) then 2
  else if 1 ≤ offer && s.cfgOn (CPORT_PORT_CFG_ADV_100 p) then 1 else 0

/-- The link of a port changes: a frame in progress is lost, preemption is verified again, and the change is reported. -/
def State.setLink (s : State) (p speed : Nat) : State :=
  if speed = s.get (CPORT_STATUS_SPEED p) then s
  else
    let was := s.on (CPORT_STATUS_LINK p)
    let s := (((s.cutFrame p s.now).putB (CPORT_STATUS_LINK p) (speed != 0)).put (CPORT_STATUS_SPEED p) speed).putB (CPORT_STATUS_PREEMPT_ACTIVE p) false
    let s := if p + 1 = s.get ROUND_STATUS_SOURCE_IN_USE then s.setRnd fun r => { r with pathDelay := false } else s
    if was != (speed != 0) then s.report { code := Code.CPORT_LINK, unit := p } else s

def execCportLink (p : Fin 2) (offer : Fin 3) (t : Nat) (s : State) : Host.Outcome State Fault Refusal :=
  .next ((s.atNs t).setLink p (s.linkSpeed p offer))

/-- PORT_CFG as it comes into force at a boundary: a port that is not enabled has no link. -/
def State.portBoundary (s : State) (p : Nat) : State := if s.on (CPORT_PORT_CFG_ENABLE p) then s else s.setLink p 0

def execPreemptVerify (p : Fin 2) (s : State) : Host.Outcome State Fault Refusal :=
  .next (if s.on (CPORT_STATUS_LINK p) && s.cfgOn (CPORT_PORT_CFG_PREEMPT p) then s.putB (CPORT_STATUS_PREEMPT_ACTIVE p) true else s)

/-! ### Received frames (Express R369, R371, R372) -/

/-- The VLAN tag of a frame, its EtherType, and its payload. -/
def frameParts (f : Bytes) : Option Nat × Nat × Bytes :=
  if beNat ((f.drop 12).take 2) = 0x8100 && 18 ≤ f.length then (some (beNat ((f.drop 14).take 2)), beNat ((f.drop 16).take 2), f.drop 18)
  else (none, beNat ((f.drop 12).take 2), f.drop 14)

/-- The port accepts a frame (Express R369): its size without FCS, DA, FCS and EtherType. -/
def State.accepts (s : State) (p : Nat) (f : Bytes) (fcs : Bool) : Bool :=
  let da := beNat (f.take 6)
  let et := (frameParts f).2.1
  decide (60 ≤ f.length) && decide (f.length ≤ 1518) && fcs && (da == s.cfg (CPORT_MAC_ADDR_ADDR p) || da == 0x0180C200000E) &&
    (et == s.cfg (CPORT_CX_CFG_ETHERTYPE p) || et == 0x88F7)

/-- A received frame, with the round-relative time of its last bit: a cyclic frame waits to be parsed, and a gPTP frame belongs to the tick
generator. -/
def execCportFrameReceive (p : Fin 2) (f : Bytes) (fcs : Bool) (t : Nat) (s : State) : Host.Outcome State Fault Refusal :=
  .next (
    if !s.on (CPORT_STATUS_LINK p) then s
    else if !s.accepts p f fcs then (s.atNs t).cx p 2
    else if (frameParts f).2.1 = s.cfg (CPORT_CX_CFG_ETHERTYPE p) then (s.atNs t).setPort p fun x => { x with rx := x.rx ++ [(s.at t, f)] }
    else s.atNs t)

/-- A valid request PDU. -/
inductive CxPdu where
  | req (seq window mask : Nat)
  | svc (seq op : Nat)
  deriving DecidableEq, Repr

/-- The PDU of a frame, if it is valid (Express R371, R372, R377). Padding follows the CRC in a frame of the Ethernet minimum only. -/
def cxParse (f : Bytes) (assoc : Nat) : Option CxPdu :=
  let b := (frameParts f).2.2
  let u : Nat → Nat → Nat := fun o n => beNat ((b.drop o).take n)
  let n := u 6 2
  if b.length < 16 || n < 16 || b.length < n || (n < b.length && f.length != 60) then none
  else if crc32c (b.take (n - 4)) != u (n - 4) 4 then none
  else if u 0 1 != 1 || u 2 2 != assoc || u 9 1 != 0 then none
  else if u 1 1 = 1 then (if n = 16 && u 8 1 ≤ 15 && u 10 1 = 0 then some (.req (u 4 2) (u 8 1) (u 11 1)) else none)
  else if u 1 1 = 3 then (if n = 20 && u 8 1 = 0 && u 10 2 = 0 && u 13 3 = 0 then some (.svc (u 4 2) (u 12 1)) else none)
  else none

/-- A valid REQ: counted, and given its target occurrence; a later one for the same window replaces an unsent RSP (Express R375, R376). -/
def State.cxReq (s : State) (p last : Nat) (f : Bytes) (seq w mask : Nat) : State :=
  let s := (s.cx p 0).setPort p fun x => { x with lastReq := some last }
  if !s.on ROUND_STATUS_TIME_VALID || !s.guardPermits p then s.cx p 7
  else match s.targetOcc p w last with
    | none => s.cx p 4
    | some o =>
      let x := s.port p
      let n := (x.reqs.filter fun r => r.window == w).length + (x.queue.filter fun r => r.window == some w).length
      let s := s.setPort p fun x => { x with
        reqs := (x.reqs.filter fun r => r.window != w) ++ [⟨last, (f.drop 6).take 6, (frameParts f).1, seq, w, mask, o⟩]
        queue := x.queue.filter fun r => r.window != some w }
      s.addSat (CPORT_CX_COUNT p 5) n

/-! ### Responses (Express R373, R377) -/

/-- The frame that carries a PDU: DA, SA, the echoed tag with RSP_PCP, EtherType, PDU with its CRC, and padding to the Ethernet minimum. -/
def State.cxFrame (s : State) (p : Nat) (da : Bytes) (tci : Option Nat) (pdu : Bytes) : Bytes :=
  let tag := match tci with
    | some v => beBytes 2 0x8100 ++ beBytes 2 (s.cfg (CPORT_CX_PARAM_RSP_PCP p) * 8192 + v % 8192)
    | none => []
  let f := da ++ beBytes 6 (s.cfg (CPORT_MAC_ADDR_ADDR p)) ++ tag ++ beBytes 2 (s.cfg (CPORT_CX_CFG_ETHERTYPE p)) ++ pdu ++ beBytes 4 (crc32c pdu)
  f ++ List.replicate (60 - f.length) 0

/-- The header of Express Table 11.7. -/
def State.cxHeader (s : State) (p type seq len w flags mask : Nat) : Bytes :=
  beBytes 1 1 ++ beBytes 1 type ++ beBytes 2 (s.cfg (CPORT_CX_CFG_ASSOC p)) ++ beBytes 2 seq ++ beBytes 2 len ++ beBytes 1 w ++ beBytes 1 flags ++ beBytes 2 mask

/-- A channel's newest record: SEQ, FLAGS, COMMIT_ROUND and VALUE, unless the channel is disabled or has none with VALID. -/
def State.newestRecord (s : State) (c : Nat) : Option (Nat × Nat × Nat × Nat) :=
  let k := ((s.xchan c).seq + 7) % 8 * 4
  let h := s.rdN (EXPRESS_MAILBOX c k)
  if s.cfgOn (EXPRESS_CHAN_CFG_ENABLE c) && nbit h 40 then
    some (h % 2 ^ 32, nbits h 47 40, s.rdN (EXPRESS_MAILBOX c (k + 2)), s.rdN (EXPRESS_MAILBOX c (k + 3)))
  else none

/-- AGE: rounds since a commit, saturating. -/
def cxAge (now committed : Nat) : Nat := min (now - committed) 65535

/-- STATUS of an item whose channel has a record (Express Table 11.9): its FLAGS, its AGE and MAX_AGE. -/
def cxStatus (flags age maxAge : Nat) : Nat :=
  if nbit flags 2 then 4 else if maxAge < age then 2 else if nbit flags 1 || nbit flags 3 || nbit flags 4 then 1 else 0

/-- The item of a channel (Express Table 11.8). With NONE, RESULT_SEQ and VALUE are free: no record gives them. -/
def State.cxItem (s : State) (p c : Nat) : Bytes × State :=
  match s.newestRecord c with
  | some (q, fl, r, v) =>
    let age := cxAge s.round r
    (beBytes 1 c ++ beBytes 1 (cxStatus fl age (s.cfg (CPORT_CX_PARAM_MAX_AGE p))) ++ beBytes 2 age ++ beBytes 4 q ++ beBytes 4 (v % 2 ^ 32) ++
      beBytes 4 (v / 2 ^ 32), s)
  | none => (beBytes 1 c ++ beBytes 1 3 ++ beBytes 2 65535 ++ beBytes 4 (Config.free s.freeCtr) ++ beBytes 8 (Config.free (s.freeCtr + 1)), s.useFrees 2)

/-- The items of the selected channels, in order. -/
def State.cxItems (s : State) (p : Nat) : List Nat → Bytes × State
  | [] => ([], s)
  | c :: t =>
    let x := s.cxItem p c
    let y := State.cxItems x.2 p t
    (x.1 ++ y.1, y.2)

/-- FLAGS of an RSP: ARMED and DEGRADED. -/
def State.cxFlags (s : State) : Nat := (if s.armedRun.isSome then 1 else 0) + (if s.on ERROR_STATUS_DEGRADED then 2 else 0)

/-- The snapshot of a REQ, and its RSP. -/
def State.cxSnapshot (s : State) (p : Nat) (r : CxReq) : State :=
  let cs := onesBelow r.mask 8
  let x := s.cxItems p cs
  let pdu := s.cxHeader p 2 r.seq (24 + 16 * cs.length) r.window s.cxFlags r.mask ++ beBytes 8 (ofSigned 64 s.netRound) ++ x.1
  x.2.setPort p fun y => { y with queue := y.queue ++ [⟨some r.window, r.occ, s.cxFrame p r.sa r.tci pdu, false⟩] }

/-- ns from a request's last bit to its snapshot (Express R374). -/
def State.snapNs (s : State) (p : Nat) : Nat := if s.get (CPORT_STATUS_SPEED p) = 2 then 470 else 570

def execCxSnapshot (p : Fin 2) (t : Nat) (s : State) : Host.Outcome State Fault Refusal :=
  .next (match (s.port p).reqs with
    | r :: rest => if r.last + s.snapNs p ≤ s.at t then ((s.atNs t).setPort p fun x => { x with reqs := rest }).cxSnapshot p r else s
    | [] => s)

/-- The answer to a service request: OP and its body, in the first window in which it fits within one guard period. FLAGS of an SVC_RSP is free: no
rule gives it. -/
def State.svcAnswer (s : State) (p last : Nat) (f : Bytes) (seq op : Nat) (body : Bytes) : State :=
  let s := s.cx p 0
  if 4 ≤ ((s.port p).queue.filter fun x => x.window.isNone).length then s
  else
    let pdu := s.cxHeader p 4 seq (20 + body.length) 0 (Config.free s.freeCtr % 256) 0 ++ beBytes 1 op ++ [0, 0, 0] ++ body
    let due : Int := (last : Int) + s.bankPeriod p (s.guardBank p) * 1000
    s.useFree.setPort p fun x => { x with queue := x.queue ++ [⟨none, (last, due), s.cxFrame p ((f.drop 6).take 6) (frameParts f).1 pdu, false⟩] }

/-- Take the oldest frame of a port that waits to be parsed. -/
def State.dropRx (s : State) (p : Nat) : State := s.setPort p fun x => { x with rx := x.rx.drop 1 }

/-- The oldest waiting frame of a port as a PDU. -/
def State.frontPdu (s : State) (p : Nat) : Option (Nat × Bytes × Option CxPdu) :=
  (s.port p).rx.head?.map fun x => (x.1, x.2, cxParse x.2 (s.cfg (CPORT_CX_CFG_ASSOC p)))

/-- The oldest waiting frame: a valid REQ is taken, an invalid PDU is counted, and a service request with an unknown OP is answered with OP 0 and no
body. -/
def execReq (p : Fin 2) (s : State) : Host.Outcome State Fault Refusal :=
  .next (match s.frontPdu p with
    | some (last, f, some (.req q w m)) => (s.dropRx p).cxReq p last f q w m
    | some (last, f, some (.svc q op)) => if op = 1 || op = 2 then s else (s.dropRx p).svcAnswer p last f q 0 []
    | some (_, _, none) => (s.dropRx p).cx p 1
    | none => s)

/-- IDENTIFY's body (Express Table 11.10). -/
def State.identBody (s : State) : Bytes :=
  beBytes 4 (s.rdN GLOBAL_DEVICE_ID) ++ beBytes 4 (s.rdN GLOBAL_MODULE_INFO) ++ beBytes 8 (s.rdN GLOBAL_DIE_SERIAL) ++
    [1, BitVec.ofNat 8 (((List.range 8).filter fun c => s.cfgOn (EXPRESS_CHAN_CFG_ENABLE c)).foldl (fun a c => a + 2 ^ c) 0), 0, 0]

def execSvcIdentify (p : Fin 2) (s : State) : Host.Outcome State Fault Refusal :=
  .next (match s.frontPdu p with
    | some (last, f, some (.svc q 1)) => (s.dropRx p).svcAnswer p last f q 1 s.identBody
    | _ => s)

/-- COUNTERS' body: the eight CX_COUNT values, the request counted among them. -/
def State.counterBody (s : State) (p : Nat) : Bytes := ((List.range 8).map fun i => beBytes 4 (s.rdN (CPORT_CX_COUNT p i))).flatten

def execSvcCounters (p : Fin 2) (s : State) : Host.Outcome State Fault Refusal :=
  .next (match s.frontPdu p with
    | some (last, f, some (.svc q 2)) => (s.dropRx p).svcAnswer p last f q 2 ((s.cx p 0).counterBody p)
    | _ => s)

/-- No valid REQ for CX_TIMEOUT rounds (Express R378). -/
def execCportCxSilent (p : Fin 2) (t : Nat) (s : State) : Host.Outcome State Fault Refusal :=
  .next (match (s.port p).lastReq with
    | some l =>
      let n := s.cfg ⟨CPORT_CX_TIMEOUT p, 31, 0⟩
      if n != 0 && decide (l + n * 1000 ≤ s.at t) then
        ((s.atNs t).setPort p fun x => { x with lastReq := none }).report { code := Code.CPORT_CX_SILENT, unit := p }
      else s
    | none => s)

/-! ### Transmission (Express R370, R375, R377, R382, R384) -/

/-- A frame's first bit leaves at `t`. -/
def State.startFrame (s : State) (p t : Nat) (wend : Option Int) (f : Bytes) : State :=
  s.setPort p fun x => { x with sent := x.sent ++ [⟨t, t + s.frameNs p f.length, wend, false, f⟩] }

/-- Replace the first queued response for a window (none: an SVC_RSP), or take it out. -/
def takeFrame (w : Option Nat) (g : TxFrame → List TxFrame) : List TxFrame → List TxFrame
  | [] => []
  | f :: t => if f.window == w then g f ++ t else f :: takeFrame w g t

/-- A response tries to start at `t`: it is discarded when it can no longer end in its interval, and otherwise starts if the guard permits. -/
def State.rspSend (s : State) (p : Nat) (f : TxFrame) (t : Nat) : State :=
  let dur := s.frameNs p f.octets.length
  if f.occ.2 < max (t : Int) f.occ.1 + dur then
    let s := s.setPort p fun x => { x with queue := takeFrame f.window (fun _ => []) x.queue }
    if f.window.isSome then s.cx p 6 else s
  else if (t : Int) < f.occ.1 || s.mediumBusy p t then s
  else match s.mayStart p t dur with
    | some e =>
      let s := (s.setPort p fun x => { x with queue := takeFrame f.window (fun _ => []) x.queue }).startFrame p t (some e) f.octets
      if f.window.isSome then s.cx p 3 else s
    | none =>
      if f.blocked then s
      else (s.setPort p fun x => { x with queue := takeFrame f.window (fun f => [{ f with blocked := true }]) x.queue }).addSat (CPORT_GUARD_COUNT p 0) 1

def execRspSend (p : Fin 2) (w : Option (Fin 16)) (t : Nat) (s : State) : Host.Outcome State Fault Refusal :=
  .next (match (s.port p).queue.find? fun f => f.window == w.map Fin.val with
    | some f => if s.on (CPORT_STATUS_LINK p) then (s.atNs t).rspSend p f (s.at t) else s
    | none => s)

/-- A gPTP frame (octets without FCS) tries to start: in a window as any frame, or under the allowance; otherwise it waits and is counted. -/
def State.ptpSend (s : State) (p : Nat) (f : Bytes) (t : Nat) : State :=
  let dur := s.frameNs p f.length
  if !s.guardPermits p || s.mediumBusy p t || decide (103 < f.length + 4) then s
  else match s.mayStart p t dur with
    | some e => s.startFrame p t (some e) f
    | none =>
      if s.mayAllow p t dur (f.length + 4) then
        ((s.startFrame p t none f).setPort p fun x => { x with lastPtp := some t }).addSat (CPORT_GUARD_COUNT p 2) 1
      else s.addSat (CPORT_GUARD_COUNT p 3) 1

def execPtpFrameSend (p : Fin 2) (f : Bytes) (t : Nat) (s : State) : Host.Outcome State Fault Refusal :=
  .next (if s.on (CPORT_STATUS_LINK p) then (s.atNs t).ptpSend p f (s.at t) else s)

end Sys2Proof.Machine
end

