-- ==== Sys2Proof/Machine/Memory.lean ====
section
/-! DEFINITION. The memory controller (Memory): requests, their order and budgets, read data and poison, refresh, training and the
expansion channel. -/

namespace Sys2Proof.Machine
open Reg

def State.mchan (s : State) (c : Nat) : MemChan := SMap.get (fun _ => {}) s.memc.chans c
def State.setMchan (s : State) (c : Nat) (f : MemChan → MemChan) : State :=
  s.setMemc fun m => { m with chans := SMap.set (fun _ => {}) m.chans c (f (s.mchan c)) }

/-! ### The address map (Memory Table 12.4) -/

/-- The channel of a device address. -/
def memChannel (a : Nat) : Nat :=
  if 0x1000000000 ≤ a then 8 + ((nbits a 8 8 ^^^ nbits a 12 12) ^^^ nbits a 16 16) else (nbits a 10 8 ^^^ nbits a 13 11) ^^^ nbits a 16 14

/-- The bank of a device address: bank group, then bank within the group. -/
def memBank (a : Nat) : Nat :=
  if 0x1000000000 ≤ a then (nbits a 11 9 ^^^ nbits a 19 17) * 4 + (nbits a 14 13 ^^^ nbits a 21 20)
  else (nbits a 12 11 ^^^ nbits a 18 17) * 4 + (nbits a 14 13 ^^^ nbits a 20 19)

/-! ### Poison (Memory R415, R416) -/

/-- Poison a line: recorded while the table has room. -/
def State.poisonLine (s : State) (line : Nat) : State :=
  let s := s.wrN MEMCTL_POISON_LAST (line % 2 ^ 40)
  if s.poison.contains line then s
  else if (s.poison.filter fun a => decide (a < 0x8000000000)).length < 1024 then s.setPoison (s.poison ++ [line])
  else (s.putB MEMCTL_POISON_STATUS_FULL true).report { code := Code.MEM_POISON_LOST, detail := line }

/-- Answer a request. -/
def State.memAnswer (s : State) (tag : Nat) (x : MemAns) : State := s.setMemc fun m => { m with answers := m.answers ++ [(tag, x)] }

/-- Poison reaches a requester: an envelope ends with MEM_POISON (Memory Table 12.7). -/
def State.memPoison (s : State) (e : MemEntry) : State :=
  let s := s.memAnswer e.tag .poison
  let stop : Nat → Nat → State := fun r q =>
    if (s.runSt r q).isSome then s.failRun r q 0x0A 0
    else if (s.flight r q).any fun f => f.stage == .started then s.complete r q 0x0A 0 else s
  match e.by_ with
  | .ring r q => stop r q
  | .express r q => stop r q
  | _ => s

/-! ### Requests (Memory R396 to R399) -/

/-- The service class of a requester (Memory Table 12.5). -/
def State.memClass (s : State) : MemBy → Nat
  | .ring r _ => s.get (RINGS_CFG_CLASS r)
  | .express _ _ => 0
  | .engine k => k
  | .host _ => let k := s.cfg MEMCTL_HOST_CLASS_CLASS; if k = 0 then 2 else k
  | .fw _ => 1
  | .bulk => 3

/-- The checks of a request's address. -/
def State.memCheck (s : State) (b : MemBy) (a n : Nat) : Option AccErr :=
  match b with
  | .ring r _ => s.fnCheck (s.ringFn r) a n
  | .express r _ => s.fnCheck (s.ringFn r) a n
  | .host q => if q.fn ≤ 18 then s.fnCheck q.fn a n else s.devCheck q.secure a n
  | _ => s.devCheck false a n

/-- Bytes that a request covers. -/
def memSize : MemOp → Nat
  | .read n => n
  | .write b => b.length

/-- The request and a waiting write cover the same byte of a line, so that the read is answered from the write (Memory R403). -/
def MemChan.holdsWrite (m : MemChan) (a n : Nat) : Bool :=
  m.queue.any fun e => e.write.isSome && decide (e.a ≤ a) && decide (a + n ≤ e.a + e.len)

/-- A request reaches its channel's queue; its effect on data is fixed here, in arrival order (Memory R399). -/
def State.memQueue (s : State) (tag : Nat) (b : MemBy) (a : Nat) (o : MemOp) : State :=
  let c := memChannel a
  let e : MemEntry := { tag := tag, by_ := b, a := a, len := (memSize o), write := none, old := s.rdMem a (memSize o), cls := s.memClass b, arr := s.now }
  match o with
  | .read n =>
    if s.poisoned a n then s.memPoison e
    else if (s.mchan c).holdsWrite a n then s.memAnswer tag (.data (s.rdMem a n))
    else s.setMchan c fun m => { m with queue := m.queue ++ [e] }
  | .write d =>
    if s.inReceipts a || (s.poison.contains (a / 64 * 64) && d.length != 64) then (s.store a d).memAnswer tag .written
    else (s.store a d).setMchan c fun m => { m with queue := m.queue ++ [{ e with write := some d }] }

/-- A channel's queue takes no request: it is full, or requests wait for it at their port. -/
def MemChan.noRoom (m : MemChan) : Bool := decide (96 ≤ m.queue.length) || !m.port.isEmpty

/-- A memory request of at most one line: it is refused, it is queued, or it waits at its port while its channel's queue is full (Memory §2). A request of
on-die SRAM goes to its district, at its class. -/
def State.memRequest (s : State) (tag : Nat) (b : MemBy) (a : Nat) (o : MemOp) : State :=
  let n := (memSize o)
  if n = 0 || a / 64 != (a + n - 1) / 64 || !s.spineUp then s
  else match s.memCheck b a n with
    | some e => (s.accReport e).memAnswer tag .refused
    | none =>
      if inSram a n then s.sramAccess (s.memClass b) a o (.mem tag)
      else if inBootSram a n then match o with
        | .read n => s.memAnswer tag (.data (s.rdMem a n))
        | .write d => (s.wrMem a d).memAnswer tag .written
      else if (s.mchan (memChannel a)).noRoom then s.setMchan (memChannel a) fun m => { m with port := m.port ++ [(tag, b, a, o)] }
      else s.memQueue tag b a o

/-- Requests that wait at their port enter the channel's queue while it has room, in their order (Memory R399). -/
def State.portEnter (s : State) (c : Nat) : Nat → State
  | 0 => s
  | fuel + 1 =>
    let m := s.mchan c
    match m.port with
    | [] => s
    | (tag, b, a, o) :: t =>
      if 96 ≤ m.queue.length then s
      else State.portEnter ((s.setMchan c fun m => { m with port := t }).memQueue tag b a o) c fuel

/-! ### What may issue (Memory R402, R404 to R407) -/

/-- A request may issue, but for the order of reads and writes. -/
def State.memMay (s : State) (e : MemEntry) : Bool :=
  if e.cls = 0 then s.expressMay
  else if e.promoted then !s.ttRun || ((s.memPays e.cls).isSome && s.memRoom)
  else !s.regulated e.cls && (!s.ttRun || (s.memLeft e.cls && s.memRoom))

/-! ### Picking (Memory R400 to R403) -/

/-- 48 of a channel's entries hold writes (Memory R403). -/
def MemChan.full (m : MemChan) : Bool := decide (48 ≤ (m.queue.filter fun e => e.write.isSome).length)

/-- Reads come before writes within a class, unless the channel begins or is in a run of writes (Memory R403). -/
def MemChan.sided (m : MemChan) (l : List MemEntry) : List MemEntry :=
  let w := l.filter fun e => e.write.isSome
  let r := l.filter fun e => e.write.isNone
  if m.drain = 0 && !m.full then (if r.isEmpty then w else r) else (if w.isEmpty then r else w)

/-- The oldest request whose row is open, for at most four picks ahead of an older one; else the oldest (Memory R400). -/
def pickRow (rows : List Nat) (hits : Nat) (l : List MemEntry) : Option (MemEntry × Nat) :=
  match l with
  | [] => none
  | first :: _ =>
    match (if hits < 4 then l.find? fun e => rows.contains e.tag else none) with
    | some e => some (e, if e.tag = first.tag then 0 else hits + 1)
    | none => some (first, 0)

/-- The pick of a channel: the request, the hits in a row, and the bank pointer after it. -/
def State.memPick (s : State) (c : Nat) (rows : List Nat) : Option (MemEntry × Nat × Nat) :=
  let m := s.mchan c
  let may := m.queue.filter s.memMay
  let of : Nat → List MemEntry := fun k => may.filter fun e => e.cls == k
  let plain : Nat → List MemEntry := fun k => m.sided ((of k).filter fun e => !e.promoted)
  if s.on (MEMCTL_CHAN_ORDER_MODE c) then
    match of 0, may.filter fun e => e.promoted with
    | e :: _, _ => some (e, m.hits, m.bank)
    | [], e :: _ => some (e, m.hits, m.bank)
    | [], [] =>
      let n := if c < 8 then 16 else 32
      let ok := plain 1 ++ plain 2 ++ plain 3
      let l := may.filter fun e => ok.contains e
      ((List.range n).findSome? fun i => l.find? fun e => memBank e.a == (m.bank + i) % n).map fun e => (e, m.hits, (memBank e.a + 1) % n)
  else
    match pickRow rows m.hits (m.sided (of 0)) with
    | some x => some (x.1, x.2, m.bank)
    | none => match may.filter fun e => e.promoted with
      | e :: _ => some (e, m.hits, m.bank)
      | [] => ([1, 2, 3].findSome? fun k => pickRow rows m.hits (plain k)).map fun x => (x.1, x.2, m.bank)

/-- Charge a burst to its class: budget, regulator and CLASS_BYTES. -/
def State.memCharge (s : State) (e : MemEntry) : State :=
  s.memSpend (if e.promoted then (s.memPays e.cls).getD e.cls else e.cls) e.cls 1 e.len

/-- Writes of a retry buffer whose confirmation has come: LPDDR5X writes 40 ns after issue (Memory §6). -/
def State.memConfirm (s : State) (c : Nat) : State :=
  if c < 8 then s.setMchan c fun m => { m with retry := m.retry.filter fun e => !(e.write.isSome && decide (e.issued + 40 ≤ s.now)) } else s

/-- A burst issues: the picked request moves to the retry buffer, and a request that waits at its port takes its place in the queue. -/
def State.burst (s : State) (c : Nat) (rows : List Nat) : State :=
  let s := s.memConfirm c
  if 32 ≤ (s.mchan c).retry.length then s
  else match s.memPick c rows with
    | none => s
    | some (e, hits, bank) =>
      let s := s.memCharge e
      let s := s.setMchan c fun m =>
        let q := m.queue.filter fun x => x != e
        let d := if m.drain = 0 && m.full then 16 else m.drain
        { m with queue := q, retry := m.retry ++ [{ e with issued := s.now }], hits := hits, bank := bank, drain := if e.write.isSome then d - 1 else d }
      let s := if e.write.isSome then s.memAnswer e.tag .written else s
      s.portEnter c (s.mchan c).port.length

def execMemBurstIssue (c : Fin 10) (rows : List Nat) (t : Nat) (s : State) : Host.Outcome State Fault Refusal :=
  .next (if s.spineUp then (s.atNs t).burst c rows else s)

/-- A request that has waited longer than its class's age limit is promoted (Memory R402). -/
def State.memPromote (s : State) (c tag : Nat) : State :=
  match (s.mchan c).queue.find? fun e => e.tag == tag with
  | none => s
  | some e =>
    let lim := if e.cls = 0 then 0 else s.get (MEMCTL_AGE_LIMIT_ROUNDS (e.cls - 1))
    if e.promoted || lim = 0 || decide (s.now ≤ e.arr + lim * 1000) then s
    else (s.setMchan c fun m => { m with queue := m.queue.map fun x => if x.tag = tag then { x with promoted := true } else x }).addSat (MEMCTL_PROMOTED e.cls) 1

def execMemPromote (c : Fin 10) (tag : Nat) (t : Nat) (s : State) : Host.Outcome State Fault Refusal :=
  .next (if s.spineUp then (s.atNs t).memPromote c tag else s)

/-! ### Read data, reissue and poison (Memory R412 to R415, R689) -/

/-- The ring of a requester, for its error records. -/
def memRing : MemBy → Option Nat
  | .ring r _ => some r
  | .express r _ => some r
  | _ => none

/-- An entry leaves the retry buffer. -/
def State.memRetire (s : State) (c tag : Nat) : State := s.setMchan c fun m => { m with retry := m.retry.filter fun e => e.tag != tag }

/-- A write-back of a corrected DDR5 line at bulk class, unless a write to the line waits or is unconfirmed (Memory R412). -/
def State.writeBack (s : State) (c : Nat) (e : MemEntry) : State :=
  let line := e.a / 64 * 64
  let newer : MemEntry → Bool := fun x => x.write.isSome && x.a / 64 * 64 == line && decide (e.arr ≤ x.arr)
  if c < 8 || (s.mchan c).queue.any newer || (s.mchan c).retry.any newer || 96 ≤ (s.mchan c).queue.length then s
  else
    let d := s.rdMem line 64
    s.setMchan c fun m => { m with queue := m.queue ++ [{ tag := e.tag, by_ := .bulk, a := line, len := 64, write := some d, old := d, cls := 3, arr := s.now }] }

/-- Data passes, perhaps corrected. -/
def State.dataGood (s : State) (c : Nat) (e : MemEntry) (corrected : Bool) : State :=
  let err : Nat → Err := fun k => { code := k, ring := memRing e.by_, unit := c, detail := e.a / 64 * 64 }
  let s := s.memRetire c e.tag
  let s := if corrected then ((s.addSat (MEMCTL_ECC_CORR c) 1).report (err Code.MEM_CORRECTED)).writeBack c e else s
  let s := if e.reissued then (s.addSat (MEMCTL_REPLAY c) 1).report (err Code.MEM_REPLAY) else s
  if e.write.isSome then s else s.memAnswer e.tag (.data e.old)

/-- A write of the whole line of an entry has reached the channel after it. -/
def MemChan.rewrites (m : MemChan) (e : MemEntry) : Bool :=
  (m.queue ++ m.retry).any fun x => x.write.isSome && x.len == 64 && x.a == e.a / 64 * 64 && decide (e.arr < x.arr)

/-- Data fails: the read is reissued once, and then its line is poisoned, unless a later write of the whole line clears the record (Memory R399,
R415). A part write on DDR5 that reads bad data is discarded. -/
def State.dataBad (s : State) (c : Nat) (e : MemEntry) : State :=
  let err : Nat → Err := fun k => { code := k, ring := memRing e.by_, unit := c, detail := e.a / 64 * 64 }
  if !e.reissued then s.setMchan c fun m => { m with retry := m.retry.map fun x => if x.tag = e.tag then { x with reissued := true } else x }
  else
    let line := e.a / 64 * 64
    let later := (s.mchan c).rewrites e
    let s := ((s.memRetire c e.tag).addSat (MEMCTL_ECC_UNCORR c) 1).report (err Code.MEM_UNCORRECTABLE)
    let s := if later then s else s.poisonLine line
    if e.write.isSome then (if later then s else s.wrMem e.a e.old).report (err Code.MEM_POISON_WRITE) else s.memPoison e

/-- The check of the data of an issued request. Only a part write on DDR5 reads; another write is confirmed. -/
def execMemReadData (c : Fin 10) (tag : Nat) (k : ReadCheck) (s : State) : Host.Outcome State Fault Refusal :=
  .next (match (if s.spineUp then (s.mchan c).retry.find? fun e => e.tag == tag else none) with
    | none => s
    | some e =>
      if e.write.isSome && (decide (c.val < 8) || e.len == 64) then s.memRetire c tag
      else match k with
        | .pass => s.dataGood c e false
        | .corrected => s.dataGood c e true
        | .bad => s.dataBad c e)

/-! ### The expansion channel (Memory R414, R417, R421) -/

/-- DRAM_CAP.UNITS as the expansion channel leaves it on entering a state of Memory Table 12.9. A reset of SPINE returns the channel to ABSENT and leaves
DRAM_CAP as it is, and a reset of WATCH gives it its reset value, for R75 of the Round rules both (log entry 148). -/
def State.dramCap (s : State) : State := s.put ROUND_DRAM_CAP_UNITS (if s.dxFitted then 2832 else 2132)

/-- Clear VERIFIED of each timetable bank that no longer meets Round Table 2.5 without the expansion channel. -/
def State.unverify (s : State) : State :=
  s.each [0, 1] fun s b =>
    let listed := (s.rnd.ttEntry.filter fun x => x.1 / 262144 == b).map fun x => x.1 % 262144 / 64
    if listed.any fun e => !entryBudget (s.ttByte b e) 2132 || nbits (s.ttByte b e 2) 1 0 != 0 then s.putB (verifiedFld (b == 1)) false else s

/-- The DDR5 channel leaves service (Memory R421): reads that are not confirmed return poison, writes are discarded, and requests that wait complete as
accesses to an unpopulated range. -/
def State.dxDrop (s : State) (c : Nat) : State :=
  let m := s.mchan c
  let s := s.setMchan c fun m => { m with queue := [], retry := [], port := [], hits := 0, drain := 0, bank := 0, debt := 0 }
  let s := s.each ((m.retry ++ m.queue).reverse.filter fun e => e.write.isSome) fun s e => s.wrMem e.a e.old
  let s := s.each m.retry fun s e => if e.write.isSome then s else s.memPoison e
  let s := s.each m.queue fun s e => (s.accReport (.unpopulated e.a)).memAnswer e.tag .refused
  s.each m.port fun s x => (s.accReport (.unpopulated x.2.2.1)).memAnswer x.1 .refused

/-- The DDR5 channel goes DOWN (Memory R421). -/
def State.dxDown (s : State) : State :=
  let s := ((s.put MEMCTL_DX_STATUS_STATE 5).put MEMCTL_DX_STATUS_MTS 0).setMemc fun m => { m with dxVin := false, dxHeld := true }
  ((s.each [8, 9] fun s c => s.dxDrop c).report { code := Code.DX_DOWN }).unverify

/-- ALERT_n on a DDR5 subchannel: every unconfirmed command is replayed; a third alert of one takes the channel DOWN. -/
def execDdr5Alert (sub : Fin 2) (s : State) : Host.Outcome State Fault Refusal :=
  .next (
    let c := 8 + sub.val
    if !s.dxFitted || !s.spineUp then s
    else if (s.mchan c).retry.any fun e => decide (2 ≤ e.replays) then s.dxDown
    else ((s.setMchan c fun m => { m with retry := m.retry.map fun e => { e with replays := e.replays + 1 } }).addSat (MEMCTL_REPLAY c) 1).report
      { code := Code.MEM_REPLAY, unit := c })

/-- A write of DX_CTRL: MAX_MTS is stored, and START starts bring-up or is discarded as MEM_BUSY. -/
def State.dxCtrl (s : State) (q : Req) (v : Nat) : State :=
  if !q.reachesRegs then s
  else
    let s := s.put MEMCTL_DX_CTRL_MAX_MTS (let m := nbits v 12 0; if m = 4800 || m = 5200 then m else 5600)
    let st := s.get MEMCTL_DX_STATUS_STATE
    if !nbit v 31 then s
    else if s.on ROUND_CTRL_TT_ENABLE || st = 1 || st = 2 then s.report { code := Code.MEM_BUSY }
    else ((((s.putB MEMCTL_DX_CTRL_START true).wrN MEMCTL_DX_STATUS 0).put MEMCTL_DX_STATUS_STATE 1).dramCap).setMemc fun m => { m with dxVin := true }

def execDdr5Bringup (q : Req) (v : Nat) (s : State) : Host.Outcome State Fault Refusal :=
  .next (s.landing q MEMCTL_DX_CTRL fun s => s.dxCtrl q v)

/-- The data rate in service: the highest that the module and MAX_MTS allow (Memory Table 12.2). -/
def dxRate (spd max : Nat) : Option Nat := [5600, 5200, 4800].find? fun r => decide (r ≤ spd) && decide (r ≤ max)

/-- Bring-up ends (Memory Table 12.9). -/
def State.dxDone (s : State) (o : Option Spd) : State :=
  let s := s.putB MEMCTL_DX_CTRL_START false
  let off : State → Nat → State := fun s k => (s.put MEMCTL_DX_STATUS_STATE k).setMemc fun m => { m with dxVin := false }
  match o with
  | none => off s 0
  | some d =>
    let s := (s.put MEMCTL_DX_STATUS_SIZE_GIB d.gib).put MEMCTL_DX_STATUS_RANKS d.ranks
    match dxRate d.mts (s.get MEMCTL_DX_CTRL_MAX_MTS) with
    | none => (off s 3).report { code := Code.DX_TRAIN_FAIL }
    | some r =>
      if !d.ok || ! [8, 16, 32, 64].contains d.gib || !(d.ranks == 1 || d.ranks == 2) then (off s 3).report { code := Code.DX_TRAIN_FAIL }
      else if !d.converges then (off s 4).report { code := Code.DX_TRAIN_FAIL }
      else
        let s := ((s.put MEMCTL_DX_STATUS_MTS r).put MEMCTL_DX_STATUS_STATE 2).dramCap
        s.each [8, 9] fun s c => s.setMchan c fun m => { m with trained := s.round, accrued := s.now, debt := 0 }

def execDdr5BringupDone (o : Option Spd) (s : State) : Host.Outcome State Fault Refusal :=
  .next (if s.get MEMCTL_DX_STATUS_STATE = 1 && s.spineUp then s.dxDone o else s)

/-! ### Refresh and training (Memory R408 to R410) -/

/-- TEMP_STATE of a channel. -/
def State.tempState (s : State) (c : Nat) : Nat := s.get ⟨MEMCTL_TEMP_STATE, 2 * c + 1, 2 * c⟩

/-- tREFI_eff (Memory Table 12.6). -/
def State.trefi (s : State) (c : Nat) : Nat :=
  let k := s.tempState c
  if c < 8 then (if k = 0 then 3904 else if k = 1 then 1952 else 976) else (if k = 0 then 3900 else 1950)

/-- A channel is in service. -/
def State.chanServes (s : State) (c : Nat) : Bool := if c < 8 then s.on GLOBAL_BOOT_STATUS_LP_TRAINED else s.dxFitted

/-- Issue refresh sets. -/
def State.refreshSets (s : State) (c n : Nat) : State :=
  (s.setMchan c fun m => { m with debt := m.debt - n }).setMemc fun m =>
    if c < 8 then { m with lpSets := m.lpSets + n } else { m with dxSets := m.dxSets + n }

/-- One set of debt accrues when tREFI_eff has passed; at 8 one set is forced. -/
def State.refreshDebt (s : State) (c : Nat) : State :=
  let m := s.mchan c
  if !s.chanServes c || !s.spineUp || decide (s.now < m.accrued + s.trefi c) then s
  else
    let s := s.setMchan c fun m => { m with debt := m.debt + 1, accrued := m.accrued + s.trefi c }
    if 8 ≤ m.debt + 1 then ((s.refreshSets c 1).addSat (MEMCTL_REFRESH_FORCED c) 1).report { code := Code.REFRESH_FORCED, unit := c } else s

def execRefreshDebt (c : Fin 10) (t : Nat) (s : State) : Host.Outcome State Fault Refusal := .next ((s.atNs t).refreshDebt c)

/-- MR4 reports a refresh rate. -/
def execTempStateChange (c : Fin 10) (k : Fin 3) (s : State) : Host.Outcome State Fault Refusal :=
  .next (if s.chanServes c && s.spineUp then s.put ⟨MEMCTL_TEMP_STATE, 2 * c + 1, 2 * c⟩ k else s)

/-- The entry in force names the channel for refresh, or the controller refreshes at its own choice (Memory R408). -/
def State.refreshLane (s : State) (c : Nat) : Bool :=
  !s.ttRun || (if c < 8 then nbit (s.entryByte s.round 1) c else s.dxFitted && nbit (s.entryByte s.round 2) (c - 8))

/-- The next channel in the training rotation after `c`. -/
def State.trainAfter (s : State) (c : Nat) : Nat := if c + 1 < (if s.dxFitted then 10 else 8) then c + 1 else 0

/-- A training action on a channel; a DDR5 subchannel whose training fails takes the channel DOWN (Memory R421). -/
def State.trainOn (s : State) (c : Nat) (passes : Bool) : State :=
  let s := (s.setMchan c fun m => { m with trained := s.round }).setMemc fun m => { m with trains := m.trains + 1 }
  if 8 ≤ c && !passes then s.dxDown else s

/-- A channel is trained: in a TRAIN round, forced at 100,000 rounds, or at the controller's choice while the default entry is in force. -/
def execTrainingAction (c : Fin 10) (passes : Bool) (s : State) : Host.Outcome State Fault Refusal :=
  .next (
    if !s.chanServes c || !s.spineUp then s
    else if (s.mchan c).trained + 100000 ≤ s.round then
      ((s.addSat (MEMCTL_TRAIN_FORCED c) 1).report { code := Code.TRAIN_FORCED, unit := c }).trainOn c passes
    else if !s.ttRun then s.trainOn c passes
    else if nbit (s.entryByte s.round 2) 2 && !s.memc.laneUsed && c.val == s.memc.trainNext then
      (s.setMemc fun m => { m with laneUsed := true, trainNext := s.trainAfter c }).trainOn c passes
    else s)

/-! ### The round boundary (Memory R402, R405, R407, R408) -/

/-- The end of a round: each class with budget left and requests waiting counts a shortfall. -/
def State.capShort (s : State) : State :=
  if s.ttRun then
    s.each [1, 2, 3] fun s k =>
      if s.memLeft k && (s.memc.chans.any (fun c => (c.2.queue.any fun e => e.cls == k) || c.2.port.any fun x => s.memClass x.2.1 == k) || s.memc.moves.any fun m => m.cls == k) then s.addSat (MEMCTL_CAP_SHORT k) 1 else s
  else s

/-- A regulator's balance at a boundary. -/
def State.regulate (s : State) (k : Nat) : Int :=
  min (s.get (MEMCTL_CLASS_BURST_BURST k) : Int) (s.memc.balance.getD k 0 + s.get (MEMCTL_CLASS_RATE_RATE k))

/-- The start of a round: counts begin again, regulators gain, DDR5 writes of the round before are confirmed, and what R421 of the Memory rules puts off until
the boundary after the DDR5 channel has gone DOWN takes place. -/
def State.memBoundary (s : State) : State :=
  let s := s.setMemc fun m => { m with used := [0, 0, 0], express := 0, lpSets := 0, dxSets := 0, trains := 0, laneUsed := false
                                       balance := (List.range 4).map s.regulate, dxHeld := false }
  let s := s.each [8, 9] fun s c => if (s.mchan c).retry.isEmpty then s else
    s.setMchan c fun m => { m with retry := m.retry.filter fun e => e.write.isNone || e.len != 64 }
  if s.get MEMCTL_DX_STATUS_STATE = 5 then s.dramCap else s

/-- What the entry in force gives at the start of its round: the refresh lanes issue, and transfers that wait are served, for bursts and for router outputs; a RUN
that waited for no more than its transfers ends. -/
def State.memEntry (s : State) : State :=
  let s := s.each (List.range 10) fun s c =>
    let d := min (s.mchan c).debt 3
    if d != 0 && s.spineUp && s.refreshLane c then s.refreshSets c d else s
  if (s.memc.moves.isEmpty && s.floor.mesh.isEmpty) || !s.spineUp then s else s.serveMoves.meshEntry.each s.floor.runs fun s r => s.runSettle r.ring r.seq

/-- A regulator starts at BURST when its pair takes effect (Memory R407). -/
def State.regulatorStart (s : State) (k : Nat) : State :=
  s.setMemc fun m => { m with balance := m.balance.set k (s.get (MEMCTL_CLASS_BURST_BURST k) : Int) }

end Sys2Proof.Machine
end

