-- ==== Sys2Proof/Machine/Reset.lean ====
section
/-! DEFINITION. What stops and what resets (Bring-up Table 20.7, Power states Tables 14.1 to 14.3, Firmware R571): processors, domains, SPINE and WATCH. -/

namespace Sys2Proof.Machine
open Reg

/-- Registers whose offset satisfies `p` return to their reset values; halves held or latched for them are gone. -/
def State.resetRegs (s : State) (p : Nat → Bool) : State :=
  let s := (s.keepRegs fun o => !p o).setActing (s.acting.filter fun e => !p e.1)
  s.setBus fun b => { b with holds := b.holds.filter fun e => !(e.2.any fun (h : RegHold) => p h.reg)
                             latches := b.latches.filter fun l => !p l.reg }

def State.setPdom (s : State) (i : Nat) (f : DomSt → DomSt) : State :=
  s.setPwr fun p => { p with doms := SMap.set (fun _ => {}) p.doms i (f (s.pdom i)) }

/-! ### Processors (Firmware R571, Table 17.4) -/

/-- The postmaster of a district has stopped: the running unit stops at once, and every RUN that has begun there ends with PM_RESTARTED. -/
def State.pmStop (s : State) (d : Nat) : State :=
  let hit := s.floor.runs.filter fun r => r.dists.any fun x => x.d == d
  let s := s.each hit fun s r => s.setDrun r.ring r.seq d fun x => { x with stopped := true }
  let s := if (s.dunit d).isSome then s.closeUnit d else s
  s.each hit fun s r => s.failRun r.ring r.seq 0x810E 0

/-- DIST_STATE.PM_HALTED follows the postmaster (Districts §9). -/
def State.pmSync (s : State) (d : Nat) : State := s.putB (FLOOR_DIST_STATE_PM_HALTED d) (s.get (FIRMWARE_PROC_STATE_STATE (3 + d)) == 1)

/-- A processor halts, for a cause of PROC_STATE.LAST_HALT: it loses its owner, and what it controls keeps its settings. -/
def State.procStop (s : State) (p cause : Nat) : State :=
  let s := ((s.put (FIRMWARE_PROC_STATE_STATE p) 1).put (FIRMWARE_PROC_STATE_LAST_HALT p) cause).putB (FIRMWARE_PROC_CTRL_HALT p) false
  let s := (s.wrN (FIRMWARE_PROC_VERSION p) 0).setFw fun f =>
    { f with halts := f.halts.filter fun h => h.1 != p, released := SMap.set (fun _ => none) f.released p none }
  if p < 3 then s.loseHolder (160 + p) else (s.pmStop (p - 3)).pmSync (p - 3)

/-- A processor is released at its entry: it is STARTING until it reports (Firmware R566, R567). `cause` is ARG1 of its start entry in the
ledger (Firmware Table 17.6), but for a start after a watchdog's halt. -/
def State.procRelease (s : State) (p version cause : Nat) : State :=
  let why := if s.get (FIRMWARE_PROC_STATE_LAST_HALT p) = 3 then 2 else cause
  let s := ((s.put (FIRMWARE_PROC_STATE_STATE p) 3).wrN (FIRMWARE_PROC_VERSION p) version).addSat (FIRMWARE_PROC_STARTS p) 1
  let s := s.setFw fun f => { f with
    released := SMap.set (fun _ => none) f.released p (some s.round)
    kick := SMap.set (fun _ => 0) f.kick p s.round
    cause := SMap.set (fun _ => 0) f.cause p why }
  if 3 ≤ p then s.pmSync (p - 3) else s

/-- Start a postmaster from the image store, if the store is VALID; otherwise it stays HALTED (Firmware R562). -/
def State.pmFromStore (s : State) (d cause : Nat) : State :=
  if s.on FIRMWARE_PM_STORE_VALID then
    (s.setFw fun f => { f with mem := SMap.set (fun _ => (0, [])) f.mem (3 + d) (0, f.store) }).procRelease (3 + d) (s.get FIRMWARE_PM_STORE_VERSION) cause
  else (s.put (FIRMWARE_PROC_STATE_STATE (3 + d)) 1).pmSync d

/-- A postmaster whose district leaves ON no longer runs, and its memory is lost. -/
def State.pmDown (s : State) (d : Nat) : State :=
  let p := 3 + d
  let s := (s.pmStop d).put (FIRMWARE_PROC_STATE_STATE p) 0
  (s.wrN (FIRMWARE_PROC_VERSION p) 0).setFw fun f => { f with
    mem := SMap.set (fun _ => (0, [])) f.mem p (0, [])
    halts := f.halts.filter fun h => h.1 != p
    released := SMap.set (fun _ => none) f.released p none }

/-! ### Domains -/

/-- The registers of a switched domain's blocks (Part Table 1.2). -/
def domainReg (i off : Nat) : Bool :=
  let blk := off / 0x100000
  if i < 16 then districtReg i off
  else if i = 17 then blk == 3
  else if i = 18 then blk == 4
  else if i = 19 then blk == 9
  else if i = 20 then blk == 5
  else if i = 21 then decide (0x800 ≤ off) && decide (off < 0x810)
  else if i = 22 then blk == 15
  else i == 23 && blk == 8

/-- Stores and sorting cache of a district. -/
def districtSram (d a : Nat) : Bool := inSram a 1 && sramDistrict a == some d

/-- The clerks' own state of a district is lost: accumulators, registers, books, the instruction buffer and the inbox (Clerks R182). -/
def State.clerksLost (s : State) (d : Nat) : State :=
  (s.releaseHold d).setFloor fun f => { f with clerks := f.clerks.filter fun e => clerkDistrict e.1 != d }

/-- Process monitors of a district keep their last value, with VALID 0, while it is not ON (Power cap R495). -/
def State.procMonitors (s : State) (d : Nat) : State := s.each (List.range 4) fun s j => s.putB (MONITOR_PROC_VALID (4 * d + j)) false

/-- Clocks stop on the way out of ON: work in the domain ends as its chapter gives, and pending pairs of its block are dropped. -/
def State.domainStop (s : State) (i : Nat) : State :=
  let s := s.pairsLeave i
  if i < 16 then (s.setPdom i fun x => { x with lastOp := s.distOp i }).procMonitors i
  else if i = 17 || i = 18 || i = 20 then s.camLeave i
  else if i = 19 then s.fabStop
  else if i = 22 then
    let s := if s.get RELAY_STATUS_STATE = 2 then s.relayDown else s
    if s.get RELAY_STATUS_STATE = 0 then s else (s.put RELAY_STATUS_STATE 4).put RELAY_STATUS_PATH 0
  else if i = 21 then ((s.putB GLOBAL_PCIE_STATUS_LINK_UP false).put GLOBAL_PCIE_STATUS_GEN 0).put GLOBAL_PCIE_STATUS_WIDTH 0
  else if i = 23 then s.each [0, 1] fun s n =>
    if s.on (PLANT_STATUS_LINK n) then (s.wrN (PLANT_STATUS n) 0).report { code := Code.PLANT_LINK, unit := n } else s
  else s

/-- What a domain loses in RETAIN (Power states Table 14.1). -/
def State.domainRetain (s : State) (i : Nat) : State :=
  if i < 16 then (s.clerksLost i).pmDown i
  else if i = 19 then s.setFab fun f => { f with retained := true }
  else s

/-- A domain's switches open: all it holds is lost (Power states Table 14.2). -/
def State.domainOff (s : State) (i : Nat) : State :=
  let s := if i < 16 then
      let s := (s.clerksLost i).pmDown i
      let s := s.setFloor fun f => { f with
        allocs := SMap.set (fun _ => []) f.allocs i []
        walkK := f.walkK.filter fun e => e.1 / 64 != i
        lastSteps := SMap.set (fun _ => 0) f.lastSteps i 0
        held := f.held.filter fun h => h.d != i }
      let s := s.setBit FLOOR_WALK_CEIL i false
      (s.keepMem fun a => !districtSram i a).putPoison (s.poison.filter fun a => !districtSram i a)
    else if i = 19 then s.fabOff
    else if i = 17 || i = 18 || i = 20 then s
    else if i = 21 then s.setLinks fun l => { l with masked := [] }
    else if i = 22 then s.setRelay fun _ => {}
    else if i = 16 then ((s.loseHolder 136).loseHolder 144).putB GLOBAL_BOOT_STATUS_HOST_RELEASED false
    else s
  s.resetRegs (domainReg i)

/-- The pad groups of a domain (Power states Table 14.6). -/
def padGroups (i : Nat) : List Nat :=
  if i = 21 then [0] else if i = 22 then [1] else if i = 23 then [2] else if i = 20 then [3] else if i = 19 then [4, 5] else if i = 26 then [6] else []

/-- The pins of a pad group that are fabric pins. -/
def groupPins (g : Nat) : List Nat := if g = 4 then List.range 16 else if g = 5 then (List.range 16).map (· + 16) else []

/-- The fabric pins of a group that is not held yet latch their safe states: every region is isolated before (Power states R462). -/
def State.latchPins (s : State) (g : Nat) : State :=
  if s.bit POWER_PAD_HOLD g then s
  else s.setPwr fun w => { w with pads := (groupPins g).foldl (fun m p => SMap.set (fun _ => 0) m p (s.cfg (FABRIC_PIN_CFG_SAFE p))) w.pads }

/-- Latch the pads of a domain (Power states R462). -/
def State.latchPads (s : State) (i : Nat) : State := s.each (padGroups i) fun s g => (s.latchPins g).setBit POWER_PAD_HOLD g true

/-- A domain's state becomes `k`, and its isolation no longer stands for it. -/
def State.setDom (s : State) (i k : Nat) : State :=
  let s := if decide (i < 16) && k != 0 then s.procMonitors i else s
  (s.put (POWER_DOM_STATUS_STATE i) k).setPwr fun p => { p with clamped := p.clamped.filter (· != i) }

/-! ### AVSBus (Power states R483) -/

/-- The domain has an AVSBus rail; its bus and rail select (Power states Table 14.13). -/
def isAvs (i : Nat) : Bool := decide (i ≤ 16)
def busOf (i : Nat) : Nat := if i ≤ 7 || i = 16 then 0 else 1
def railOf (i : Nat) : Nat := if i = 16 then 8 else i % 8

def State.avs (s : State) (b : Nat) : AvsBus := SMap.get (fun _ => {}) s.pwr.avs b
def State.setAvs (s : State) (b : Nat) (f : AvsBus → AvsBus) : State :=
  s.setPwr fun p => { p with avs := SMap.set (fun _ => {}) p.avs b (f (s.avs b)) }

/-- A voltage request for the rail is in flight or settling. -/
def State.avsBusy (s : State) (d : Nat) : Bool :=
  let b := s.avs (busOf d)
  isAvs d && ((match b.cur with | some r => r.dom == d | none => false) || (match b.settle with | some x => x.1 == d | none => false))

/-! ### Results of power requests (Power states Table 14.9) -/

/-- A bit of POWER.EVENT is set, which interrupts (POWER.IRQ_CFG). -/
def State.pwrEvent (s : State) (f : Fld) : State :=
  let s := s.putB f true
  let s := if s.cfgOn POWER_IRQ_CFG_EN then s.msix 0 (s.cfg POWER_IRQ_CFG_VECTOR) else s
  s.coreIrq false 0xA0 none

/-- A word of DOM_RESULT and DEV_RESULT. -/
def resultWord (tag reason result dom : Nat) : Nat := tag % 65536 * 65536 + reason * 4096 + result * 256 + dom

/-- A request for domain `i`, or for the device (`none`), completes. -/
def State.pwrResult (s : State) (i : Option Nat) (tag reason result dom : Nat) : State :=
  match i with
  | some i => (s.wrN (POWER_DOM_RESULT i) (resultWord tag reason result dom)).pwrEvent POWER_EVENT_DOM_RESULT
  | none => (s.wrN POWER_DEV_RESULT (resultWord tag reason result dom)).pwrEvent POWER_EVENT_DEV_RESULT

/-- DOM_STATUS and DEV_STATUS show pending requests, deferral and progress. -/
def State.pwrSync (s : State) (i : Option Nat) : State :=
  match i with
  | some i =>
    let x := s.pdom i
    let s := ((s.putB (POWER_DOM_STATUS_PENDING i) x.pend.isSome).put (POWER_DOM_STATUS_PENDING_TARGET i) (match x.pend with | some r => r.target | none => 0))
    (s.putB (POWER_DOM_STATUS_DEFERRED i) (match x.pend with | some r => r.deferred | none => false)).putB (POWER_DOM_STATUS_BUSY i)
      (x.prep.isSome || x.trans.isSome || x.idle.isSome || x.opens)
  | none =>
    let x := s.pwr.devPend
    let s := (s.putB POWER_DEV_STATUS_PENDING x.isSome).put POWER_DEV_STATUS_PENDING_TARGET (match x with | some r => r.target | none => 0)
    (s.putB POWER_DEV_STATUS_DEFERRED (match x with | some r => r.deferred | none => false)).putB POWER_DEV_STATUS_BUSY s.pwr.dev.isSome

/-- The pending request of a domain, or of the device, completes with SUPERSEDED. -/
def State.dropPend (s : State) (i : Option Nat) : State :=
  match i with
  | some d => match (s.pdom d).pend with
    | some r => ((s.setPdom d fun x => { x with pend := none }).pwrResult i r.tag 0 2 0).pwrSync i
    | none => s
  | none => match s.pwr.devPend with
    | some r => ((s.setPwr fun p => { p with devPend := none }).pwrResult i r.tag 0 2 0).pwrSync i
    | none => s

/-- The request in progress of a domain completes with SUPERSEDED, and its transition or prepare is over. -/
def State.dropTrans (s : State) (i : Nat) : State :=
  let x := s.pdom i
  let l := (match x.prep with | some p => [p.1] | none => []) ++ (match x.trans with | some t => t.req.toList | none => []) ++ x.idle.toList
  let s := s.each l fun s r => s.pwrResult (some i) r.tag 0 2 0
  (s.setPdom i fun x => { x with prep := none, trans := none, idle := none }).pwrSync (some i)

/-- The device transition in progress completes with SUPERSEDED. -/
def State.dropDev (s : State) : State :=
  match s.pwr.dev with
  | some j => ((s.setPwr fun p => { p with dev := none }).pwrResult none j.req.tag 0 2 0).pwrSync none
  | none => s

/-- Every pending request, and every request in progress, completes with SUPERSEDED (Errors R602, Bring-up R655). A voltage request that is in
flight ends as it would; no other is issued. -/
def State.dropRequests (s : State) : State :=
  let s := s.each (List.range 24) fun s i => (s.dropTrans i).dropPend (some i)
  let s := (s.dropDev).dropPend none
  s.each [0, 1] fun s b => s.setAvs b fun x => { x with queue := [] }

/-- A switched domain goes OFF without prepare and without voltage requests (Errors Table 18.5, step 4). -/
def State.forceOff (s : State) (i : Nat) : State :=
  if s.dom i = 3 then s
  else
    let s := if s.domUp i then s.domainStop i else s
    (s.domainOff i).setDom i 3

/-- The domains with a transition step in progress: those whose step waits for a voltage request in flight or settling (Power states R457, R483). -/
def State.midStep (s : State) : List Nat := (List.range 24).filter fun i => (s.pdom i).trans.isSome && s.avsBusy i

/-- A domain goes OFF: at once, or, with a step in progress, when that step ends (Errors R602, Bring-up R655). -/
def State.openDomain (s : State) (mid : List Nat) (i : Nat) : State :=
  if mid.contains i then (s.setPdom i fun x => { x with opens := true }).pwrSync (some i) else s.forceOff i

/-- The step in progress has ended: the switches of a domain that waits for it open. -/
def State.openNow (s : State) (i : Nat) : State :=
  if (s.pdom i).opens then ((s.forceOff i).setPdom i fun x => { x with opens := false }).pwrSync (some i) else s

/-- A THERMAL_TRIP in the safe state: PD_PCIE goes OFF, SPINE enters RETAIN and the DDR5 pad group is latched; a domain that the secure
world holds waits for the end of the notification (Errors R602, R603). -/
def State.safeThermal (s : State) : State :=
  if s.on ERROR_STATUS_SAFE && s.err.thermal && s.pwr.spine == 0 then
    let s := if nbit (s.rdN POWER_SEC_HOLD) 21 then s else s.forceOff 21
    (s.latchPads 26).setPwr fun p => { p with spine := 2 }
  else s

/-! ### Resets of SPINE and WATCH (Bring-up Table 20.7) -/

/-- The registers that a reset of SPINE returns to reset: TXN but CHANGE_SEQ, RINGS, FLOOR, MEMCTL, FIRMWARE but those of processor 2 and the
record mirrors, the mesh counters, and the GLOBAL windows. -/
def spineReg (off : Nat) : Bool :=
  let blk := off / 0x10000
  (blk == 2 && off != TXN_CHANGE_SEQ) || (decide (0x30000 ≤ off) && decide (off < 0x200000)) || off / 0x100000 == 2 ||
    (off / 0x100000 == 14 && !(decide (FIRMWARE_PROC_STATE 2 ≤ off) && decide (off < FIRMWARE_PROC_STATE 3)) &&
      !(decide (0xE02000 ≤ off) && decide (off < 0xE08000))) ||
    (decide (0x410 ≤ off) && decide (off < 0x430)) || off == GLOBAL_BAR4_SEL || (decide (0x1000 ≤ off) && decide (off < 0x2000))

/-- An armed express RUN ends with its district (Bring-up R655). -/
def State.expressGone (s : State) : State :=
  let s := match s.floor.runs.find? fun r => r.express && r.fail.isNone with
    | some r => s.report { code := Code.EXP_RUN_ENDED, ring := some r.ring }
    | none => s
  s.each (List.range 8) fun s c => s.setXchan c fun x => { x with waiting := none, unit := none, counted := false }

/-- The runtime repeats its choice of a boot stage once the host cores have been reset (Trust R538). -/
def State.restartHost (s : State) : State :=
  if s.trust.stage = 2 && s.trust.runtime.isSome then
    (s.put SECURE_STATUS_BOOT_STATE 0).setTrust fun t => { t with stage := 1 }
  else s

/-- A reset of SPINE and of every switched domain, giving LAST_RESET `kind`; start-up begins again with these times (Bring-up R655). LPDDR5X keeps its
contents if SPINE was ON or RETAIN. -/
def State.spineReset (s : State) (kind : Nat) : State :=
  let s := s.expressGone
  let s := ((s.clearRings.setFetch fun _ => {}).setServe fun _ => {}).setFloor fun _ => {}
  let s := (((s.setRelay fun _ => {}).putPoison []).setMemc fun m => { lpSets := m.lpSets, trains := m.trains }).setLedgerRun 0
  let s := s.txnReset
  let s := s.setRnd fun z => { z with running := [], deferred := [], overruns := [] }
  let mid := s.midStep
  let s := s.dropRequests
  let s := s.each (List.range 24) fun s i => s.openDomain mid i
  let lost := s.pwr.spine == 3
  let s := s.keepMem fun a => decide (0xF000000000 ≤ a) || (!lost && decide (a < 0x1000000000))
  let s := s.resetRegs spineReg
  let s := s.setFw fun f => { f with
    mem := f.mem.filter fun e => e.1 == 2, store := [], hold := f.hold.filter fun e => e.1 == 2, loads := []
    halts := f.halts.filter fun h => h.1 == 2, released := f.released.filter fun e => e.1 == 2, kick := f.kick.filter fun e => e.1 == 2 }
  let s := ((s.putB GLOBAL_BOOT_STATUS_SPINE_UP false).putB GLOBAL_BOOT_STATUS_LP_TRAINED false).putB GLOBAL_BOOT_STATUS_HOST_RELEASED false
  let s := (s.put GLOBAL_BOOT_STATUS_LAST_RESET kind).setPwr fun p => { p with spine := 0, watch := 0, before := [], fixed := [] }
  let s := (s.put POWER_DEV_STATUS_STATE 0).restartHost
  s.setBoot fun b => { b with steps := [(s.round + 10, .release), (s.round + 40, .domains), (s.round + 160, .up)], lpTries := 0 }

/-- The registers that a WATCH reset returns to reset: ROUND but COUNT and PHASE, EXPRESS, CPORT. -/
def watchReg (off : Nat) : Bool :=
  (off / 0x10000 == 1 && off != ROUND_COUNT && off != ROUND_PHASE) || off / 0x100000 == 6 || off / 0x100000 == 7

/-- A WATCH reset (Bring-up R656): guards lose ARMED and frames are cut, the lock state is FREE, both banks read zero, and every express channel is
disabled. Units that run go on. A TIME_VALID that it takes away has been reported, so its return is reported too (Round R41). DEDUCED, log entry 144:
the fix of Round R39 is awaited again, NET_OFFSET reading 0 (Table 20.7). -/
def State.watchReset (s : State) : State :=
  let valid := s.on ROUND_STATUS_TIME_VALID
  let s := s.each [0, 1] fun s p => s.cutFrame p s.now
  let s := s.each (List.range 8) fun s c => s.setXchan c fun x => { unit := x.unit }
  let s := s.setXp fun x => { x with spills := [] }
  let s := s.each [0, 1] fun s p => s.setPort p fun x => { sent := x.sent }
  let s := (s.resetRegs watchReg).setRnd fun r =>
    { ns := r.ns, running := r.running, ran := r.ran, overruns := r.overruns, lossFrom := s.now, invalidReported := r.invalidReported || valid }
  let s := if valid then s.report { code := Code.ROUND_TIME_INVALID } else s
  s.put GLOBAL_BOOT_STATUS_LAST_RESET 4

end Sys2Proof.Machine
end

