-- ==== Sys2Proof/Machine/Power.lean ====
section
/-! DEFINITION. Power domains and device states (Power states §2 to §8): requests, prepare and commit, transition steps, voltage requests, wakes and
the domain warden. -/

namespace Sys2Proof.Machine
open Reg

/-! ### Domains, rails and voltages -/

/-- The order in which agents are asked (Power states Table 14.10); 25 is WATCH, 26 SPINE. -/
def prepOrder : List Nat := [20, 17, 18] ++ List.range 16 ++ [19, 22, 23, 16, 21, 26, 25]

/-- The state of a domain, WATCH and SPINE included. -/
def State.pstate (s : State) (i : Nat) : Nat := if i = 25 then s.pwr.watch else if i = 26 then s.pwr.spine else s.dom i

def State.setPstate (s : State) (i k : Nat) : State :=
  if i = 25 then s.setPwr fun p => { p with watch := k } else if i = 26 then s.setPwr fun p => { p with spine := k } else s.setDom i k

/-- Rail voltage of an operating point in mV (Power states Table 14.16). -/
def opMv (op : Nat) : Nat := [480, 550, 620, 720].getD op 620

/-- The operating point at which a district returns to ON (Power states R460). -/
def State.returnOp (s : State) (d : Nat) : Nat := if d = s.expressDistrict then 2 else (s.pdom d).lastOp

/-- The voltage of a rail while its domain is ON, and its retention voltage (Power states R458). -/
def State.onMv (s : State) (i : Nat) : Nat := if i = 16 then 800 else opMv (s.returnOp i)
def retainMv (i : Nat) : Nat := if i = 16 then 550 else 450

/-- The last acknowledged voltage of a rail. -/
def State.mv (s : State) (i : Nat) : Nat := s.get (POWER_DOM_STATUS_MV i)

/-! ### AVSBus (Power states R483, R484) -/

/-- A device transition toward RUN, or to a state nearer to it: steps run in the reverse order (Power states R471). -/
def State.devUp (s : State) : Bool := match s.pwr.dev with
  | some j => j.commit && (j.req.target == 0 || decide (j.req.target < s.get POWER_DEV_STATUS_STATE))
  | none => false

/-- The rail that the bus serves next: in the order of Table 14.10, reversed for a wake (Power states R475). -/
def State.avsNext (s : State) (b : Nat) : Option (Nat × Nat) :=
  let l := if s.devUp then prepOrder.reverse else prepOrder
  (l.findSome? fun i => (s.avs b).queue.find? fun e => e.1 == i)

/-- A voltage on the way to a goal, at most 50 mV further. -/
def mvStep (v goal : Nat) : Nat := if v < goal then min goal (v + 50) else max goal (v - 50)

/-- Issue requests on a bus with nothing in flight and nothing settling; a rail already at its goal leaves the queue. -/
def State.avsIssue (s : State) (b : Nat) : Nat → State
  | 0 => s
  | fuel + 1 =>
    if (s.avs b).cur.isSome || (s.avs b).settle.isSome then s
    else match s.avsNext b with
      | none => s
      | some (d, goal) =>
        if s.mv d = goal then (s.setAvs b fun x => { x with queue := x.queue.filter fun e => e.1 != d }).avsIssue b fuel
        else (s.setAvs b fun x => { x with cur := some { dom := d, mv := mvStep (s.mv d) goal, issued := s.now } }).put (POWER_AVS_STATUS_LAST_RAIL b) (railOf d)

/-- A rail is to reach a voltage. -/
def State.avsWant (s : State) (d goal : Nat) : State :=
  (s.setAvs (busOf d) fun x => { x with queue := (x.queue.filter fun e => e.1 != d) ++ [(d, goal)] }).avsIssue (busOf d) 20

/-- A rail has reached a voltage and has settled. -/
def State.avsDone (s : State) (d goal : Nat) : Bool :=
  let b := s.avs (busOf d)
  s.mv d == goal && (match b.cur with | some r => r.dom != d | none => true) && (match b.settle with | some x => x.1 != d | none => true)

/-- No more requests for a rail. -/
def State.avsForget (s : State) (d : Nat) : State :=
  if isAvs d then s.setAvs (busOf d) fun x => { x with queue := x.queue.filter fun e => e.1 != d } else s

/-! ### Results -/

/-- A domain request completes with OK; in WATCH it fixes the domain's state for the next wake (Power states R469). -/
def State.domOk (s : State) (i : Nat) (r : PReq) : State :=
  let s := if s.get POWER_DEV_STATUS_STATE = 1 then s.setPwr fun p => { p with fixed := p.fixed.filter (· != i) ++ [i] } else s
  (s.pwrResult (some i) r.tag 0 0 0).pwrSync (some i)

/-! ### Steps of transitions (Power states Table 14.3) -/

/-- Steps of an entry into RETAIN (2) or OFF (3). -/
def entrySteps (cur target : Nat) : List PStep :=
  if target = 2 then [.stop, .clamp, .lower] else if cur = 2 then [.opens] else [.stop, .clamp, .opens]

/-- Steps of the return to ON. -/
def wakeSteps (cur : Nat) : List PStep :=
  if cur = 1 then [.clocks] else if cur = 2 then [.raise, .clocks, .unclamp, .join]
  else if cur = 3 then [.close, .bringUp, .clocks, .init, .unclamp, .join] else []

/-- Steps of the return to ON from the point an entry has reached (Power states R477). -/
def backSteps (cur : Nat) (todo : List PStep) : List PStep :=
  match todo with
  | .stop :: _ => []
  | .clamp :: _ => [.clocks]
  | _ => if cur = 3 then wakeSteps 3 else [.raise, .clocks, .unclamp, .join]

/-- SPINE's supply is off: DRAM contents are lost, the memory controller holds nothing, and the module supply is off (Power states Table 14.7). -/
def State.spineDown (s : State) : State :=
  (s.keepMem fun a => decide (0xF000000000 ≤ a)).setMemc fun _ => {}

/-- One step of a domain's transition: the state after it, and whether the step has ended. Steps that change a rail's voltage end when it has settled. -/
def State.pstep (s : State) (i target : Nat) : PStep → State × Bool
  | .stop => ((s.latchPads i).domainStop i, true)
  | .clamp => (if i < 24 then s.setPwr fun p => { p with clamped := p.clamped ++ [i] } else s, true)
  | .lower =>
    if isAvs i && !s.avsDone i (retainMv i) then (s.avsWant i (retainMv i), false)
    else (((if i < 24 then s.domainRetain i else s).setPstate i 2), true)
  | .opens => (((if i < 24 then s.domainOff i else if i = 26 then s.spineDown else s).setPstate i 3), true)
  | .close => (s, true)
  | .bringUp => if isAvs i && !s.avsDone i (s.onMv i) then (s.avsWant i (s.onMv i), false) else (s, true)
  | .raise => if isAvs i && !s.avsDone i (s.onMv i) then (s.avsWant i (s.onMv i), false) else (s, true)
  | .clocks =>
    (if i < 24 && s.get (POWER_DOM_STATUS_STATE i) = 1 then s.setDom i 0
     else if i < 16 && s.get (POWER_DOM_STATUS_STATE i) = 2 then s.pmFromStore i 1 else s, true)
  | .init =>
    (if i < 16 then s.pmFromStore i 1
     else if i = 26 then ((s.setPwr fun p => { p with dev := none }).spineReset 7).setPwr fun p => { p with dev := s.pwr.dev } else s, true)
  | .unclamp => (s.setPwr fun p => { p with clamped := p.clamped.filter (· != i) }, true)
  | .join =>
    let s := (s.setPstate i (if target = 1 then 1 else 0)).setPwr fun p => { p with fresh := p.fresh ++ [i] }
    (if i < 16 then ((s.put (FLOOR_DIST_STATE_OP i) (s.returnOp i)).putB (FLOOR_DIST_STATE_EXPRESS i) (i == s.expressDistrict)).pmSync i
     else if i = 22 && s.on RELAY_CFG_ENABLE then (s.put RELAY_STATUS_STATE 1).setRelay fun x => { x with trainRound := s.round } else s, true)

/-- Take the head step of a transition. -/
def State.takeStep (s : State) (i : Nat) (t : Trans) : State :=
  match t.todo with
  | [] => s
  | p :: rest =>
    let (s, done) := s.pstep i t.target p
    s.setPdom i fun x => { x with trans := x.trans.map fun t => if done then { t with todo := rest } else t }

/-- Begin a transition with its first step. -/
def State.beginTrans (s : State) (i : Nat) (t : Trans) : State := (s.setPdom i fun x => { x with trans := some t }).pwrSync (some i)

/-- A preempted entry turns back at a step boundary: it completes with SUPERSEDED, and the transition to ON runs from the point reached. -/
def State.turnBack (s : State) (i : Nat) (t : Trans) (r : Option PReq) : State :=
  let s := match t.req with | some q => s.pwrResult (some i) q.tag 0 2 0 | none => s
  let steps := backSteps (s.get (POWER_DOM_STATUS_STATE i)) t.todo
  ((s.avsForget i).setPdom i fun x => { x with trans := some { target := 0, todo := steps, start := s.round, req := r } }).pwrSync (some i)

/-! ### Agents (Power states Table 14.11) -/

/-- An agent that agrees quiesces; PD_FAB isolates every region. -/
def State.agentAgree (s : State) (i : Nat) : State :=
  if i = 19 then s.each ((List.range 8).filter fun g => (s.regionPair g).2 != 0) fun s g => s.putB (FABRIC_REGION_STATE_ISOLATED g) true else s

/-- An agent that agreed is resumed. -/
def State.agentResume (s : State) (i : Nat) : State := if i = 19 then s.each (List.range 8) fun s g => s.regionSync g else s

/-- A ring that is RUNNING or STOPPING. -/
def State.ringBusy (s : State) (r : Nat) : Bool := s.ringState r == 1 || s.ringState r == 2

/-- What an agent answers: nothing yet, AGREE, or REFUSE with a REASON. -/
def State.agentAnswer (s : State) (i : Nat) : Option (Option Nat) :=
  if i < 16 then
    if s.isHeld i then some (some 3)
    else if i = s.expressDistrict && s.armedRun.isSome then some (some 2)
    else if s.floor.runs.any fun r => r.dists.any fun x => x.d == i then none else some none
  else if i = 16 then (if s.domUp 16 then none else some none)
  else if i = 17 then (if (s.unitOn 16).isSome || (s.unitOn 17).isSome then none else some none)
  else if i = 18 then (if [18, 19, 20].any fun b => (s.unitOn b).isSome then none else some none)
  else if i = 19 then (if s.fab.loads.isEmpty && s.fab.cmd.isNone then some none else some (some 6))
  else if i = 21 then (if s.liveRings.any fun r => s.ringBusy r && decide (s.ringFn r ≤ 16) then some (some 4) else some none)
  else if i = 22 then (if s.relay.ops.isEmpty then some none else none)
  else if i = 26 then
    if s.liveRings.any s.ringBusy || (List.range 8).any fun o => s.ownerState o != 0 then some (some 4)
    else if s.get MEMCTL_DX_STATUS_STATE = 1 then some (some 6) else some none
  else some none

/-! ### Device transitions (Power states §4, R471 to R475) -/

/-- RETAIN or OFF, as LOW_OFF says; a domain that is OFF stays OFF. -/
def State.lowOf (s : State) (i : Nat) : Nat := if s.cfgOn (POWER_DOM_CFG_LOW_OFF i) || s.dom i = 3 then 3 else 2

/-- The state that a device state gives a domain; none where it leaves the domain as it is (Power states Table 14.7). -/
def State.devGoal (s : State) (target i : Nat) : Option Nat :=
  if i = 25 then some (if target = 3 then 2 else 0)
  else if i = 26 then some (if target = 3 then 3 else if target = 2 then 2 else 0)
  else if target = 1 then
    if i = s.expressDistrict then some 0 else if s.cfgOn (POWER_DOM_CFG_KEEP_WATCH i) then none else some (s.lowOf i)
  else if target = 2 then some (s.lowOf i)
  else some 3

/-- The domains that a device request concerns, with their targets: those not already there. -/
def State.devGoals (s : State) (target : Nat) : List (Nat × Nat) :=
  prepOrder.filterMap fun i => match s.devGoal target i with
    | some g => if s.pstate i = g && (s.pdom i).trans.isNone then none else some (i, g)
    | none => none

def State.setDev (s : State) (f : DevJob → DevJob) : State := s.setPwr fun p => { p with dev := p.dev.map f }

/-- Commit begins. The guards lose ARMED at the commit of an entry to HALT (Power states R466). -/
def State.devCommit (s : State) : State :=
  match s.pwr.dev with
  | none => s
  | some j =>
    let ok := fun (g : Nat × Nat) => !(j.refused.any fun x => x.1 == g.1) && (decide (g.1 < 24) || j.refused.isEmpty)
    let s := s.setDev fun j => { j with commit := true, goals := j.goals.filter ok }
    if j.req.target = 3 && j.refused.isEmpty then s.each [0, 1] fun s p => (s.putB (CPORT_GUARD_CTRL_ARMED p) false).cutFrame p s.now else s

/-- Ask the first agent that is left, or commit when none is. -/
def State.devAsk (s : State) : State :=
  match s.pwr.dev with
  | none => s
  | some j => match j.todo with
    | [] => s.devCommit
    | i :: _ =>
      let s := s.setDev fun j => { j with asked := s.round }
      if i = 16 then s.pwrEvent POWER_EVENT_PREPARE else s

/-- Prepare ends without a commit: the agents that agreed are resumed in reverse order. -/
def State.devResume (s : State) : State :=
  match s.pwr.dev with
  | some j => if j.commit then s else s.each j.agreed fun s i => s.agentResume i
  | none => s

/-- The agent of domain `i`, asked for a device transition, answers. -/
def State.devAnswer (s : State) (i : Nat) (a : Option Nat) : State :=
  match s.pwr.dev with
  | none => s
  | some j =>
    match a with
    | none => ((s.agentAgree i).setDev fun j => { j with todo := j.todo.drop 1, agreed := i :: j.agreed }).devAsk
    | some reason =>
      let s := s.setBit POWER_DEV_REFUSED i true
      if j.req.partialOk then (s.setDev fun j => { j with todo := j.todo.drop 1, refused := j.refused ++ [(i, reason)] }).devAsk
      else ((s.devResume.setPwr fun p => { p with dev := none }).pwrResult none j.req.tag reason 1 i).pwrSync none

/-- The wake of the device: it preempts an entry, or starts from the state it is in (Power states R467, R469, R477). `req` is the request for RUN, if one
asked for it; `cause` the latch bits that began it. WAKE# is driven until the link is in L0, unless PCIE is the cause (Links R614). -/
def State.wakeStart (s : State) (req : Option PReq) (cause : Nat) : State :=
  let s := s.devResume.dropDev
  let s := if req.isSome then s else s.dropPend none
  let goals := if s.pwr.spine = 3 then [(25, 0), (26, 0)]
    else (25, 0) :: (26, 0) :: (s.pwr.before.filter fun b =>
      !(s.get POWER_DEV_STATUS_STATE == 1 && s.pwr.fixed.contains b.1) && (s.pdom b.1).prep.isNone &&
        (match (s.pdom b.1).trans with | some t => t.req.isNone | none => true))
  let s := s.each (goals.filter fun g => decide (g.1 < 24)) fun s g => s.setPdom g.1 fun x => { x with trans := x.trans.map fun t =>
    if 2 ≤ t.target && t.req.isNone && !t.todo.isEmpty && g.2 != t.target then { t with back := some none } else t }
  let s := s.setPwr fun p => { p with dev := some { req := req.getD ⟨0, 0, true, false, false⟩, goals := goals, commit := true, silent := req.isNone } }
  let s := if nbit cause 1 || s.on GLOBAL_PCIE_STATUS_LINK_UP then s else (s.setLinks fun z => { z with wakePin := true })
  ((s.wrN POWER_WAKE_CAUSE cause).pwrEvent POWER_EVENT_WAKE).pwrSync none

/-- A device request starts. -/
def State.devStart (s : State) (r : PReq) : State :=
  let cur := s.get POWER_DEV_STATUS_STATE
  if r.target = cur then (s.pwrResult none r.tag 0 0 0).pwrSync none
  else if r.target = 0 then s.wakeStart (some r) 0
  else if cur = 3 then (s.pwrResult none r.tag 0 8 0).pwrSync none
  else
    let goals := s.devGoals r.target
    let s := (s.wrN POWER_WAKE_LATCH 0).wrN POWER_DEV_REFUSED 0
    let s := s.each (goals.filter fun g => decide (g.1 < 24)) fun s g => s.dropPend (some g.1)
    let s := s.setPwr fun p => { p with
      before := if cur = 0 then (List.range 24).map fun i => (i, s.dom i) else p.before
      fixed := if cur = 0 then [] else p.fixed
      dev := some { req := r, goals := goals, todo := (goals.filter fun g => g.2 != 0).map fun g => g.1 } }
    s.devAsk.pwrSync none

/-- Every domain of the device transition has reached its target. -/
def State.devReached (s : State) (l : List (Nat × Nat)) : Bool := l.all fun g => s.pstate g.1 == g.2 && (s.pdom g.1).trans.isNone

/-- A domain of a device transition may take steps: SPINE after every switched domain, WATCH after SPINE, and the reverse for a wake. -/
def State.devTurn (s : State) (j : DevJob) (i : Nat) : Bool :=
  if s.devUp then
    if i = 25 then true else if i = 26 then s.pwr.watch == 0 else s.pwr.watch == 0 && s.pwr.spine == 0
  else
    if i < 24 then true else if i = 26 then s.devReached (j.goals.filter fun g => decide (g.1 < 24)) else s.devReached (j.goals.filter fun g => g.1 != 25)

/-- A device transition is complete (Power states R474, R475). -/
def State.devFinish (s : State) : State :=
  match s.pwr.dev with
  | none => s
  | some j =>
    if !j.commit || !s.devReached j.goals then s
    else
      let s := s.setPwr fun p => { p with dev := none }
      let s := match j.failed, j.refused with
        | some d, _ =>
          let s := if j.req.target = 0 then s.put POWER_DEV_STATUS_STATE 0 else s
          if j.silent then s else s.pwrResult none j.req.tag 0 6 d
        | none, x :: _ => s.pwrResult none j.req.tag x.2 5 x.1
        | none, [] =>
          let s := s.put POWER_DEV_STATUS_STATE j.req.target
          if j.silent then s else s.pwrResult none j.req.tag 0 0 0
      let s := if j.req.target = 0 then s.setPwr fun p => { p with before := [], fixed := [] } else s
      s.pwrSync none

/-! ### Domain requests (Power states §5, §6, §8) -/

/-- A domain request starts. -/
def State.domStart (s : State) (i : Nat) (r : PReq) : State :=
  let cur := s.dom i
  if r.target = cur then s.domOk i r
  else if r.target = 2 && cur = 3 then (s.pwrResult (some i) r.tag 0 8 0).pwrSync (some i)
  else if r.target = 0 || (r.target = 1 && 2 ≤ cur) then s.beginTrans i { target := 0, todo := wakeSteps cur, start := s.round, req := some r }
  else if r.target = 1 then (s.setPdom i fun x => { x with idle := some r }).pwrSync (some i)
  else
    let s := ((s.wrN POWER_DEV_REFUSED 0).setPdom i fun x => { x with prep := some (r, s.round) }).pwrSync (some i)
    if i = 16 then s.pwrEvent POWER_EVENT_PREPARE else s

/-- The agent of domain `i`, asked for a domain request, answers. -/
def State.domAnswer (s : State) (i : Nat) (a : Option Nat) : State :=
  match (s.pdom i).prep with
  | none => s
  | some (r, _) =>
    let s := s.setPdom i fun x => { x with prep := none }
    match a with
    | none => (s.agentAgree i).beginTrans i { target := r.target, todo := entrySteps (s.dom i) r.target, start := s.round, req := some r }
    | some reason => ((s.setBit POWER_DEV_REFUSED i true).pwrResult (some i) r.tag reason 1 i).pwrSync (some i)

/-- A request is the domain's pending one; the request it replaces completes with SUPERSEDED. -/
def State.domPend (s : State) (i : Nat) (r : PReq) : State :=
  ((s.dropPend (some i)).setPdom i fun x => { x with pend := some r }).pwrSync (some i)

/-- SEC_HOLD holds a domain. -/
def State.warden (s : State) (i : Nat) : Bool := nbit (s.rdN POWER_SEC_HOLD) i

/-- Who may write POWER (Power states R468, R492): in SLEEP and HALT the Opantith core alone. -/
def State.pwrWriter (s : State) (q : Req) : Bool :=
  q == .opantith || (q.pfOrHost && s.spineUp && decide (s.get POWER_DEV_STATUS_STATE ≤ 1))

/-- Domain requests are held pending: no steward runs (Firmware R563), a device transition is in progress (R478), or the safe state is entered or in
force (Errors R600). -/
def State.domWaits (s : State) : Bool := !s.fwRunning 2 || s.quiet || s.pwr.dev.isSome

/-- A write of DOM_REQ without CANCEL; `bad` says that a reserved field is not zero. -/
def State.domReq (s : State) (q : Req) (i target tag : Nat) (bad : Bool) : State :=
  let r : PReq := ⟨target, tag % 65536, q.secure, false, false⟩
  let x := s.pdom i
  let state := s.get POWER_DEV_STATUS_STATE
  if !s.pwrWriter q || 2 ≤ state then s
  else if bad || (state = 1 && i = s.expressDistrict && target != 0) then s.pwrResult (some i) tag 0 8 0
  else if s.warden i && !q.secure && target != 0 then
    (s.domPend i { r with deferred := true }).pwrResult (some i) tag 0 3 i
  else if s.domWaits then s.domPend i r
  else if x.prep.isSome || x.idle.isSome then
    if target = 0 then (((s.dropPend (some i)).agentResume i).dropTrans i).domStart i r else s.domPend i r
  else if x.opens then s.domPend i r
  else match x.trans with
    | some t =>
      if target = 0 && t.target != 0 && !t.todo.isEmpty then
        ((s.dropPend (some i)).setPdom i fun x => { x with trans := some { t with back := some (some r) } }).pwrSync (some i)
      else s.domPend i r
    | none => (s.dropPend (some i)).domStart i r

def execDomReqOn (q : Req) (i : Fin 24) (tag : Nat) (s : State) : Host.Outcome State Fault Refusal :=
  .next (s.landing q (POWER_DOM_REQ i) fun s => s.domReq q i 0 tag false)
def execDomReqIdle (q : Req) (i : Fin 24) (tag : Nat) (s : State) : Host.Outcome State Fault Refusal :=
  .next (s.landing q (POWER_DOM_REQ i) fun s => s.domReq q i 1 tag false)
def execDomReqRetain (q : Req) (i : Fin 24) (tag : Nat) (s : State) : Host.Outcome State Fault Refusal :=
  .next (s.landing q (POWER_DOM_REQ i) fun s => s.domReq q i 2 tag false)
def execDomReqOff (q : Req) (i : Fin 24) (tag : Nat) (s : State) : Host.Outcome State Fault Refusal :=
  .next (s.landing q (POWER_DOM_REQ i) fun s => s.domReq q i 3 tag false)

/-- A write of DOM_REQ with CANCEL (Power states R480). -/
def State.domCancel (s : State) (q : Req) (i tag : Nat) : State :=
  if !s.pwrWriter q || 2 ≤ s.get POWER_DEV_STATUS_STATE then s
  else match (s.pdom i).pend with
    | none => s
    | some r =>
      if r.secure && !q.secure then s.pwrResult (some i) tag 0 7 0
      else ((s.setPdom i fun x => { x with pend := none }).pwrResult (some i) r.tag 0 4 0).pwrSync (some i)

def execDomReqCancel (q : Req) (i : Fin 24) (tag : Nat) (s : State) : Host.Outcome State Fault Refusal :=
  .next (s.landing q (POWER_DOM_REQ i) fun s => s.domCancel q i tag)

/-! ### Device requests -/

/-- A request is the pending device request. -/
def State.devPendOn (s : State) (r : PReq) : State := ((s.dropPend none).setPwr fun p => { p with devPend := some r }).pwrSync none

/-- The lowest-numbered held domain that a device request would take out of ON. -/
def State.heldFirst (s : State) (target : Nat) : Option Nat :=
  (List.range 24).find? fun i => s.warden i && decide (s.dom i = 0) && (match s.devGoal target i with | some g => g != 0 | none => false)

/-- A write of DEV_REQ without CANCEL. A request for RUN preempts an entry, at once in prepare and at the next step boundary in commit. -/
def State.devReq (s : State) (q : Req) (target tag : Nat) (partialOk bad : Bool) : State :=
  let r : PReq := ⟨target, tag % 65536, q.secure, partialOk, false⟩
  if !s.pwrWriter q then s
  else if bad then s.pwrResult none tag 0 8 0
  else if !q.secure && target != 0 && (s.heldFirst target).isSome then
    (s.devPendOn { r with deferred := true }).pwrResult none tag 0 3 ((s.heldFirst target).getD 0)
  else if !s.fwRunning 2 || s.quiet then s.devPendOn r
  else match s.pwr.dev with
    | some j =>
      if target = 0 && !s.devUp && !j.commit then
        let s := (s.dropPend none).devResume.dropDev
        s.devStart r
      else s.devPendOn r
    | none => (s.dropPend none).devStart r

def execDevReqRun (q : Req) (tag : Nat) (s : State) : Host.Outcome State Fault Refusal :=
  .next (s.landing q POWER_DEV_REQ fun s => s.devReq q 0 tag false false)
def execDevReqWatch (q : Req) (tag : Nat) (partialOk : Bool) (s : State) : Host.Outcome State Fault Refusal :=
  .next (s.landing q POWER_DEV_REQ fun s => s.devReq q 1 tag partialOk false)
def execDevReqSleep (q : Req) (tag : Nat) (partialOk : Bool) (s : State) : Host.Outcome State Fault Refusal :=
  .next (s.landing q POWER_DEV_REQ fun s => s.devReq q 2 tag partialOk false)
def execDevReqHalt (q : Req) (tag : Nat) (partialOk : Bool) (s : State) : Host.Outcome State Fault Refusal :=
  .next (s.landing q POWER_DEV_REQ fun s => s.devReq q 3 tag partialOk false)

/-- A write of DEV_REQ with CANCEL. -/
def State.devCancel (s : State) (q : Req) (tag : Nat) : State :=
  if !s.pwrWriter q then s
  else match s.pwr.devPend with
    | none => s
    | some r =>
      if r.secure && !q.secure then s.pwrResult none tag 0 7 0
      else ((s.setPwr fun p => { p with devPend := none }).pwrResult none r.tag 0 4 0).pwrSync none

def execDevReqCancel (q : Req) (tag : Nat) (s : State) : Host.Outcome State Fault Refusal :=
  .next (s.landing q POWER_DEV_REQ fun s => s.devCancel q tag)

/-! ### Answers of agents -/

/-- The agent of a domain has been asked: since which round. -/
def State.askedSince (s : State) (i : Nat) : Option Nat :=
  match (s.pdom i).prep, s.pwr.dev with
  | some p, _ => some p.2
  | none, some j => if !j.commit && j.todo.head? == some i then some j.asked else none
  | none, none => none

/-- The answer goes to the prepare that asked. -/
def State.answer (s : State) (i : Nat) (a : Option Nat) : State := if (s.pdom i).prep.isSome then s.domAnswer i a else s.devAnswer i a

def execAgentAnswer (i : Fin 27) (s : State) : Host.Outcome State Fault Refusal :=
  .next (match s.askedSince i, s.agentAnswer i with
    | some _, some a => s.answer i a
    | _, _ => s)

/-- A write of HOST_ACK (Power states Table 14.11). -/
def State.hostAck (s : State) (q : Req) (a : Option Nat) : State :=
  if s.pwrWriter q && decide (s.get POWER_DEV_STATUS_STATE ≤ 1) && (s.askedSince 16).isSome then s.answer 16 a else s

def execHostAckAgree (q : Req) (s : State) : Host.Outcome State Fault Refusal :=
  .next (s.landing q POWER_HOST_ACK fun s => s.hostAck q none)
def execHostAckRefuse (q : Req) (s : State) : Host.Outcome State Fault Refusal :=
  .next (s.landing q POWER_HOST_ACK fun s => s.hostAck q (some 5))

/-- PREP_LIMIT rounds have passed: a district refuses for a RUN not complete, PD_HOST for want of an answer. -/
def execPrepTimeout (i : Fin 27) (s : State) : Host.Outcome State Fault Refusal :=
  .next (match s.askedSince i with
    | some n =>
      if decide (n + max 1 (s.act POWER_PREP_LIMIT).toNat ≤ s.round) && decide (i.val ≤ 16) && (s.agentAnswer i).isNone then
        s.answer i (some (if i.val < 16 then 1 else 7)) else s
    | none => s)

/-! ### Transition steps (Power states R457, R475, R477, R479) -/

/-- An entry of the device is committed, and a wake waits to preempt it. -/
def State.wakeWaits (s : State) : Bool :=
  match s.pwr.dev with
  | some j => j.commit && j.req.target != 0 && !s.devUp &&
      (s.rdN POWER_WAKE_LATCH != 0 || (match s.pwr.devPend with | some r => r.target == 0 && !r.deferred | none => false))
  | none => false

/-- The wake that preempts the entry. -/
def State.wakeNow (s : State) : State :=
  match s.pwr.devPend with
  | some r => if r.target = 0 then (s.setPwr fun p => { p with devPend := none }).wakeStart (some r) (s.rdN POWER_WAKE_LATCH) else s.wakeStart none (s.rdN POWER_WAKE_LATCH)
  | none => s.wakeStart none (s.rdN POWER_WAKE_LATCH)

/-- The next step of domain `i`. -/
def State.transStep (s : State) (i : Nat) : State :=
  let s := if s.wakeWaits then s.wakeNow else s
  match (s.pdom i).trans with
  | some t =>
    if t.todo.isEmpty then s
    else match t.back with
      | some r => if s.avsBusy i then s else s.turnBack i t r
      | none => s.takeStep i t
  | none => match s.pwr.dev with
    | none => s
    | some j => match j.goals.find? fun g => g.1 == i with
      | none => s
      | some (_, g) =>
        if !j.commit || (s.pdom i).opens || s.pstate i = g || !s.devTurn j i then s
        else
          let cur := s.pstate i
          let steps := if g ≤ 1 then (if cur ≤ 1 then (if g = 0 then [PStep.clocks] else []) else wakeSteps cur) else entrySteps cur g
          if steps.isEmpty then s.setPstate i g
          else if g = 2 && cur = 3 then s.setPwr fun p => { p with dev := p.dev.map fun j => { j with goals := j.goals.filter fun x => x.1 != i } }
          else
            let t : Trans := { target := g, todo := steps, start := s.round }
            let s := s.beginTrans i t
            s.takeStep i t

/-- The steward's step sequencer carries out steps while an image runs on it (Power states R481, Firmware R563). -/
def execTransitionStep (i : Fin 27) (s : State) : Host.Outcome State Fault Refusal :=
  .next (if s.fwRunning 2 && i.val != 24 then s.transStep i else s)

/-! ### IDLE (Power states R455) -/

/-- The domain has a unit of work running or ready (Power states R455). -/
def State.domWorks (s : State) (i : Nat) : Bool :=
  if i < 16 then (s.dunit i).isSome || !(SMap.get (fun _ => []) s.floor.ready i).isEmpty || (i == s.expressDistrict && !s.xrunning.isEmpty)
  else if i = 17 then (s.unitOn 16).isSome || (s.unitOn 17).isSome || (List.range 16).any s.groupReady
  else i == 18 && [18, 19, 20].any fun b => (s.unitOn b).isSome || (s.tileNs b).isSome

/-- The clocks of a domain with an IDLE request stop at the first boundary with no work; the request completes at the boundary after (R475). -/
def execIdleEntry (i : Fin 24) (s : State) : Host.Outcome State Fault Refusal :=
  .next (match (s.pdom i).idle with
    | some r =>
      if s.domWorks i then s
      else
        let s := if i.val = 19 then s.fabStop else s
        ((s.setPdom i fun x => { x with idle := none, trans := some { target := 1, todo := [], start := s.round, req := some r } }).setDom i 1).pwrSync (some i)
    | none => s)

/-- Work reaches an IDLE domain: its clocks start, within one round. -/
def execIdleWake (i : Fin 24) (s : State) : Host.Outcome State Fault Refusal :=
  .next (if s.dom i = 1 then (s.setDom i 0).wrN (POWER_DOM_TIME i) 1 else s)

/-! ### Wakes (Power states Table 14.8, R479) -/

/-- A wake source gives its event: the timer only at WAKE_AT, a monitor only with an alarm, a fault only with a FAULT_NOW. -/
def State.wakeGiven (s : State) (src : Nat) : Bool :=
  if src = 2 then s.round == (s.act POWER_WAKE_AT).toNat
  else if src = 3 then (List.range 3).any fun j => s.rdN (MONITOR_ALARM_STATUS j) != 0
  else if src = 4 then (List.range 8).any fun c => s.get (EXPRESS_CHAN_STATUS_FAULT_NOW c) != 0
  else true

/-- An enabled source sets its latch bit, and acts as a wake outside RUN and in prepare; a committed entry tests the latch at its step boundaries. -/
def State.wakeEvent (s : State) (src : Nat) : State :=
  if !nbit (s.cfg POWER_WAKE_MASK_SOURCE) src || !s.wakeGiven src then s
  else
    let s := s.setBit POWER_WAKE_LATCH src true
    match s.pwr.dev with
    | some j => if !j.commit then s.wakeStart none (s.rdN POWER_WAKE_LATCH) else s
    | none => if s.get POWER_DEV_STATUS_STATE != 0 && !s.quiet then s.wakeStart none (s.rdN POWER_WAKE_LATCH) else s

def execWakeEvent (src : Fin 8) (s : State) : Host.Outcome State Fault Refusal := .next (s.wakeEvent src)

/-! ### Pads and holds (Power states R463, R487, R489) -/

/-- A write of PAD_RELEASE: a group whose domain is not ON stays held. In the safe state nothing is released (Errors R599). -/
def State.padRelease (s : State) (q : Req) (v : Nat) : State :=
  if !s.pwrWriter q || decide (2 ≤ s.get POWER_DEV_STATUS_STATE) || s.on ERROR_STATUS_SAFE then s
  else s.each (onesBelow v 7) fun s g =>
    let i := [21, 22, 23, 20, 19, 19, 26].getD g 26
    if s.pstate i = 0 then s.setBit POWER_PAD_HOLD g false else s.report { code := Code.PWR_PAD_EARLY, unit := g }

def execPadRelease (q : Req) (v : Nat) (s : State) : Host.Outcome State Fault Refusal :=
  .next (s.landing q POWER_PAD_RELEASE fun s => s.padRelease q v)

/-- A write of SEC_HOLD: the secure world alone. -/
def State.secHold (s : State) (q : Req) (v : Nat) : State :=
  if !s.pwrWriter q then s
  else if !q.secure then s.report { code := Code.PWR_DENIED }
  else (s.wrN POWER_SEC_HOLD (v % 2 ^ 24)).each (List.range 24) fun s i => s.putB (POWER_DOM_STATUS_HELD i) (nbit v i)

def execSecHoldWrite (q : Req) (v : Nat) (s : State) : Host.Outcome State Fault Refusal :=
  .next (s.landing q POWER_SEC_HOLD fun s => s.secHold q v)

/-! ### AVSBus events -/

/-- The third attempt of a voltage request has failed (Power states R484). -/
def State.avsFailed (s : State) (d : Nat) : State :=
  let s := (s.avsForget d).openNow d
  match (s.pdom d).trans with
  | none => if d < 16 then s.put (POWER_GOV_STATE_OP d) (s.distOp d) else s
  | some t =>
    let s := match t.req with | some r => s.pwrResult (some d) r.tag 0 6 d | none => s
    if t.target ≤ 1 then
      let s := if s.pwr.clamped.contains d then s.setDom d 2 else s
      let s := (s.setPdom d fun x => { x with trans := none }).pwrSync (some d)
      if t.req.isNone then s.setDev fun j => { j with failed := some d, goals := j.goals.filter fun g => g.1 != d } else s
    else
      let s := ((s.setPdom d fun x => { x with trans := some { target := 0, todo := backSteps (s.get (POWER_DOM_STATUS_STATE d)) t.todo, start := s.round } })).pwrSync (some d)
      if t.req.isSome then s
      else match s.pwr.dev with
        | none => s
        | some j =>
          let back := (j.goals.filter fun g => decide (g.1 < 24)).map fun g => (g.1, ((s.pwr.before.find? fun b => b.1 == g.1).getD (g.1, 0)).2)
          let s := s.each back fun s g => s.setPdom g.1 fun x => { x with trans := x.trans.map fun t => if 2 ≤ t.target && !t.todo.isEmpty then { t with back := some none } else t }
          s.setDev fun j => { j with failed := some d, goals := back }

def execAvsAck (b : Fin 2) (t : Nat) (s : State) : Host.Outcome State Fault Refusal :=
  .next (match (s.avs b).cur with
    | none => s
    | some r =>
      let s := s.atNs t
      (s.put (POWER_DOM_STATUS_MV r.dom) r.mv).setAvs b fun x => { x with cur := none, settle := some (r.dom, s.now) })

def execAvsSettle (b : Fin 2) (t : Nat) (s : State) : Host.Outcome State Fault Refusal :=
  .next (match (s.avs b).settle with
    | none => s
    | some x =>
      let s := s.atNs t
      if x.2 + 8000 ≤ s.now then ((s.setAvs b fun x => { x with settle := none }).openNow x.1).avsIssue b 20 else s)

def execAvsTimeout (b : Fin 2) (t : Nat) (s : State) : Host.Outcome State Fault Refusal :=
  .next (match (s.avs b).cur with
    | none => s
    | some r =>
      let s := s.atNs t
      if s.now < r.issued + 10000 then s
      else if r.tries < 3 then
        (s.put (POWER_AVS_STATUS_RETRIES b) (min 0xFFFF (s.get (POWER_AVS_STATUS_RETRIES b) + 1))).setAvs b fun x =>
          { x with cur := some { r with issued := s.now, tries := r.tries + 1 } }
      else
        let s := (s.setAvs b fun x => { x with cur := none }).put (POWER_AVS_STATUS_FAILS b) (min 0xFF (s.get (POWER_AVS_STATUS_FAILS b) + 1))
        ((s.report { code := Code.PWR_AVS_FAIL, unit := r.dom }).avsFailed r.dom).avsIssue b 20)

/-- The HXP's status alert (Power states Table 14.13). -/
def execHxpStatusAlert (b : Fin 2) (s : State) : Host.Outcome State Fault Refusal := .next (s.report { code := Code.PWR_HXP_ALERT, unit := b })

/-! ### Operating points (Power states R485) -/

/-- A unit runs in a district. -/
def State.domRuns (s : State) (d : Nat) : Bool := (s.dunit d).isSome || (d == s.expressDistrict && !s.xrunning.isEmpty)

/-- A district moves to the operating point that the governor ordered: voltage before clock on a raise, clock before voltage on a lowering; the clock
changes at a boundary at which no unit runs. -/
def State.opChange (s : State) (d : Nat) : State :=
  let now := s.distOp d
  let dst := s.get (POWER_GOV_STATE_OP d)
  if s.dom d != 0 || (s.pdom d).trans.isSome || (s.pdom d).opens then s
  else if now < dst then
    if !s.avsDone d (opMv dst) then (if s.avsBusy d then s else s.avsWant d (opMv dst))
    else if s.domRuns d then s else s.put (FLOOR_DIST_STATE_OP d) dst
  else if dst < now then (if s.domRuns d then s else (s.put (FLOOR_DIST_STATE_OP d) dst).avsWant d (opMv dst))
  else if s.mv d != opMv dst && !s.avsBusy d then s.avsWant d (opMv dst) else s

def execOpChange (d : Fin 16) (s : State) : Host.Outcome State Fault Refusal := .next (s.opChange d)

/-! ### The round boundary -/

/-- A domain transition whose last step has ended completes (Power states R475). -/
def State.domFinish (s : State) (i : Nat) : State :=
  match (s.pdom i).trans with
  | none => s
  | some t =>
    if !t.todo.isEmpty then s
    else
      let s := (s.setPdom i fun x => { x with trans := none }).wrN (POWER_DOM_TIME i) (s.round - t.start)
      match t.req with
      | none => s.pwrSync (some i)
      | some r => if r.target = 1 && t.target = 0 then (s.setPdom i fun x => { x with idle := some r }).pwrSync (some i) else s.domOk i r

/-- The pending request of a domain starts, once nothing holds it back. -/
def State.domNext (s : State) (i : Nat) : State :=
  let x := s.pdom i
  match x.pend with
  | none => s
  | some r =>
    if s.domWaits || x.prep.isSome || x.trans.isSome || x.idle.isSome || x.opens || (r.deferred && s.warden i) || s.get POWER_DEV_STATUS_STATE ≥ 2 then s
    else (s.setPdom i fun x => { x with pend := none }).domStart i { r with deferred := false }

/-- The pending device request starts, once nothing holds it back. -/
def State.devNext (s : State) : State :=
  match s.pwr.devPend with
  | none => s
  | some r =>
    if !s.fwRunning 2 || s.quiet || s.pwr.dev.isSome || (r.deferred && (s.heldFirst r.target).isSome) then s
    else (s.setPwr fun p => { p with devPend := none }).devStart { r with deferred := false }

/-- At a boundary: transitions complete, a wake latched in the last step of an entry begins, and pending requests start. -/
def State.pwrBoundary (s : State) : State :=
  let s := s.setPwr fun p => { p with fresh := [] }
  let s := s.each s.pwr.doms fun s e => s.domFinish e.1
  let s := s.devFinish
  let s := if s.pwr.dev.isNone && s.get POWER_DEV_STATUS_STATE != 0 && s.rdN POWER_WAKE_LATCH != 0 && !s.quiet && s.fwRunning 2
    then s.wakeStart none (s.rdN POWER_WAKE_LATCH) else s
  let s := s.devNext
  s.each s.pwr.doms fun s e => s.domNext e.1

end Sys2Proof.Machine
end

