-- ==== Sys2Proof/Machine/Cap.lean ====
section
/-! DEFINITION. Monitors, the energy accounts, the governor, droop and thermal throttle (Power cap). Readings, energies and activity come from outside: the
die's coefficients are not visible (R498). -/

namespace Sys2Proof.Machine
open Reg

def State.mon (s : State) (m : Nat) : MonSt := SMap.get (fun _ => {}) s.gov.mons m
def State.setMon (s : State) (m : Nat) (f : MonSt → MonSt) : State := s.setGov fun g => { g with mons := SMap.set (fun _ => {}) g.mons m (f (s.mon m)) }
def State.throt (s : State) (i : Nat) : Throt := SMap.get (fun _ => {}) s.gov.throt i
def State.setThrot (s : State) (i : Nat) (f : Throt → Throt) : State :=
  s.setGov fun g => { g with throt := SMap.set (fun _ => {}) g.throt i (f (s.throt i)) }

/-! ### Items and ceilings (Power cap R506) -/

/-- A district is governed: every one but the express district, and one that was it until the next period (Power cap R514). -/
def State.governed (s : State) (d : Nat) : Bool := d != s.expressDistrict && !s.gov.former.contains d
def State.governedDistricts (s : State) : List Nat := (List.range 16).filter s.governed

/-- DUTY_MIN as it is used: 0 and 9 to 15 read as 8. -/
def dutyOf (v : Nat) : Nat := if 1 ≤ v && v ≤ 8 then v else 8

/-- A field of GOV_LIMITS, HOST_GOV, MEDIA_GOV, GOV_CTRL or CAP_WINDOW in force: a write takes effect at the next decision (Power cap R521). -/
def State.glim (s : State) (f : Fld) : Nat :=
  match s.gov.lims.find? fun e => e.1 == f.reg with
  | some e => nbits e.2 f.hi f.lo
  | none => s.get f

/-- Before a write of one of them, the value in force is kept for the time until the decision. -/
def State.govKeep (s : State) (off : Nat) : State :=
  if s.gov.lims.any fun e => e.1 == off then s else s.setGov fun g => { g with lims := g.lims ++ [(off, s.rdN off)] }

def State.opMax (s : State) (d : Nat) : Nat := s.glim (POWER_GOV_LIMITS_OP_MAX d)
/-- OP_MIN: a value above OP_MAX reads as OP_MAX. -/
def State.opMin (s : State) (d : Nat) : Nat := min (s.glim (POWER_GOV_LIMITS_OP_MIN d)) (s.opMax d)

/-- Both temperature sensors of a district have failed. -/
def State.sensorsFailed (s : State) (d : Nat) : Bool := s.on (MONITOR_TEMP_FAILED (2 * d)) && s.on (MONITOR_TEMP_FAILED (2 * d + 1))

/-- The ceiling of a district's operating point. -/
def State.ceilOf (s : State) (d : Nat) : Nat :=
  let c := min (s.opMax d) (s.throt d).op
  let c := if s.sensorsFailed d then min c 1 else c
  if s.on (POWER_GOV_STATE_DROOP_LIMITED d) then min c (SMap.get (fun _ => 3) s.gov.droopCeil d) else c

/-- GOV_STATE shows the ceilings, and an item above its ceiling is lowered to it. -/
def State.applyCeilings (s : State) : State :=
  let s := s.each s.governedDistricts fun s d =>
    let c := s.ceilOf d
    let s := ((s.put (POWER_GOV_STATE_CEILING d) c).putB (POWER_GOV_STATE_SENSOR_LIMITED d) (s.sensorsFailed d)).putB (POWER_GOV_STATE_THROTTLED d)
      (decide ((s.throt d).op < 3) || decide ((s.throt d).duty < 8))
    (s.put (POWER_GOV_STATE_OP d) (min c (s.get (POWER_GOV_STATE_OP d)))).put (POWER_GOV_STATE_DUTY d) (min (s.throt d).duty (s.get (POWER_GOV_STATE_DUTY d)))
  let s := s.put POWER_HOST_GOV_LEVEL (min (s.throt 16).op (s.get POWER_HOST_GOV_LEVEL))
  let s := s.put POWER_MEDIA_GOV_DUTY (min (s.throt 17).duty (s.get POWER_MEDIA_GOV_DUTY))
  s.putB POWER_THERMAL_STATUS_THROTTLING ((List.range 18).any fun i => decide ((s.throt i).op < 3) || decide ((s.throt i).duty < 8))

/-! ### Temperature (Power cap R496, R517, R519) -/

/-- A reading in units of 0.125 °C. -/
def tempOf (v : Nat) : Int := toSigned 16 (v % 65536)

/-- THROTTLE_C as it is used. -/
def State.throttleC (s : State) : Int := max 70 (min 100 (s.cfg POWER_THERMAL_THROTTLE_C : Int))

/-- The device trips (Power cap R519). -/
def State.trip (s : State) (unit : Nat) : State :=
  ((s.putB POWER_THERMAL_STATUS_TRIPPED true).setErr fun z => { z with tripped := true }).report { code := Code.THERMAL_TRIP, unit := unit } |>.safeThermal

/-- HOTTEST: the valid sensor with the highest reading, the lowest index of equals. -/
def State.hottest (s : State) : Nat :=
  ((List.range 48).foldl (fun (b : Nat × Option Int) m =>
    let v := tempOf (s.get (MONITOR_TEMP_READING m))
    if s.on (MONITOR_TEMP_VALID m) && (match b.2 with | some x => decide (x < v) | none => true) then (m, some v) else b) (0, none)).1

/-- A sensor fails: it takes no part in throttle or trip, and is reported once. -/
def State.sensorFail (s : State) (m : Nat) : State :=
  let told := s.on (MONITOR_TEMP_FAILED m)
  let s := ((s.putB (MONITOR_TEMP_FAILED m) true).putB (MONITOR_TEMP_VALID m) false).setMon m fun x => { x with pass := 0, hot := none, stepped := none, trip := 0 }
  if told then s else s.report { code := Code.MON_SENSOR_FAIL, unit := m }

/-- What a valid sample does: the trip, and the hot and cool times of the throttle. -/
def State.tempActs (s : State) (m : Nat) (v : Int) : State :=
  let x := s.mon m
  let n := if 920 ≤ v then x.trip + 1 else 0
  let hot := decide (8 * s.throttleC ≤ v)
  let starts := hot && x.hot.isNone
  let s := s.setMon m fun x => { x with
    trip := min n 3
    hot := if hot then some (x.hot.getD s.round) else none
    stepped := if hot then x.stepped else none
    cool := if decide (v < 8 * (s.throttleC - 5)) then some (x.cool.getD s.round) else none }
  let s := if starts then s.report { code := Code.THERMAL_THROTTLE, unit := m } else s
  if n = 2 then s.trip m else s

/-- A temperature sample: its self-check (R496), then its effects. -/
def State.tempSample (s : State) (m raw : Nat) : State :=
  let v := tempOf raw
  let twin := if m % 2 = 0 then m + 1 else m - 1
  let s := s.put (MONITOR_TEMP_READING m) (raw % 65536)
  let x := s.mon m
  let seen := s.on (MONITOR_TEMP_VALID twin) || s.on (MONITOR_TEMP_FAILED twin)
  let far := seen && decide (160 < (v - tempOf (s.get (MONITOR_TEMP_READING twin))).natAbs)
  let range := decide (-440 ≤ v) && decide (v ≤ 1200)
  let n := if far then x.pair + 1 else 0
  let s := s.setMon m fun x => { x with pair := min n 4 }
  let s :=
    if !range then s.sensorFail m
    else if 4 ≤ n then (s.sensorFail m).sensorFail twin
    else
      let p := min 1000 (x.pass + 1)
      let s := s.setMon m fun x => { x with pass := p }
      let s := if s.on (MONITOR_TEMP_FAILED m) && decide (1000 ≤ p) then s.putB (MONITOR_TEMP_FAILED m) false else s
      if s.on (MONITOR_TEMP_FAILED m) then s else (s.putB (MONITOR_TEMP_VALID m) true).tempActs m v
  (s.applyCeilings).put POWER_THERMAL_STATUS_HOTTEST s.hottest

/-! ### Alarms (Power cap R497) -/

/-- A level of an alarm pair: two's complement for temperature, unsigned for voltage. -/
def levelOf (m v : Nat) : Int := if m < 48 then tempOf v else (v : Int)

/-- The alarm test of a sample. -/
def State.alarmTest (s : State) (m raw : Nat) : State :=
  let v := levelOf m raw
  let outside := decide (levelOf m (s.get (MONITOR_ALARM_HI_LEVEL m)) < v) || decide (v < levelOf m (s.get (MONITOR_ALARM_LO_LEVEL m)))
  let x := s.mon m
  let o := if outside then min 4 (x.out + 1) else 0
  let i := if outside then 0 else min 4 (x.inn + 1)
  let fired := x.fired && i < 4
  let s := s.setMon m fun x => { x with out := o, inn := i, fired := fired }
  if s.cfgOn (MONITOR_ALARM_HI_EN m) && 4 ≤ o && !fired then
    ((s.setMon m fun x => { x with fired := true }).setBit (MONITOR_ALARM_STATUS (m / 32)) (m % 32) true).report { code := Code.MON_ALARM, unit := m }
  else s

/-- A monitor takes a sample (Power cap R494, R495): a supply that is off reads 0 (the module supply, VDD_SOC while SPINE is off, VDD_WATCH while WATCH is
off; a district's rail keeps its voltage, Power states R458), and a process monitor samples only while its district is ON. -/
def State.monSample (s : State) (m raw : Nat) : State :=
  if m < 48 then (s.tempSample m raw).alarmTest m (raw % 65536)
  else if m < 80 then
    let off := (m = 71 && !s.memc.dxVin) || (m = 65 && s.pwr.spine = 3) || (m = 68 && s.pwr.watch = 3)
    let v := if off then 0 else raw % 65536
    (((s.put (MONITOR_VOLT_READING (m - 48)) v).putB (MONITOR_VOLT_VALID (m - 48)) true)).alarmTest m v
  else if s.dom ((m - 80) / 4) = 0 then (s.put (MONITOR_PROC_READING (m - 80)) (raw % 65536)).putB (MONITOR_PROC_VALID (m - 80)) true
  else s

def execMonitorSample (m : Fin 144) (raw : Nat) (s : State) : Host.Outcome State Fault Refusal := .next (s.monSample m raw)

/-- The HXP die temperature is read; 125.0 °C on two reads in a row trips the device. -/
def execHxpTempRead (raw : Nat) (s : State) : Host.Outcome State Fault Refusal :=
  .next (
    let n := if 1000 ≤ tempOf raw then min 3 (s.gov.hxpHot + 1) else 0
    let s := (s.put MONITOR_HXP_TEMP_TEMP (raw % 65536)).setGov fun g => { g with hxpHot := n }
    if n = 2 then s.trip 0xFFFF else s)

/-! ### Throttle (Power cap R517, R518) -/

/-- The items that a hot sensor throttles (Power cap Table 15.6). -/
def State.throttled (s : State) (m : Nat) : List Nat :=
  if m < 32 then (if s.governed (m / 2) then [m / 2] else s.governedDistricts)
  else if m < 36 then [16] else s.governedDistricts ++ [16, 17]

/-- A throttle ceiling falls by one operating point or host level; once the item is at the lowest, its duty halves instead. -/
def lowerThrot (i m : Nat) (lowest : Bool) (x : Throt) : Throt :=
  let x := { x with by_ := if x.by_.contains m then x.by_ else x.by_ ++ [m] }
  if i != 17 && !lowest then { x with op := x.op - 1 } else { x with duty := max 1 (x.duty / 2) }

/-- An item is at OP0, or at host level 0. -/
def State.atLowest (s : State) (i : Nat) : Bool :=
  if i < 16 then s.get (POWER_GOV_STATE_OP i) == 0 else if i = 16 then s.get POWER_HOST_GOV_LEVEL == 0 else true

def State.throttleStep (s : State) (m : Nat) : State :=
  let x := s.mon m
  let due := match x.stepped with | none => true | some n => decide (n + 100 ≤ s.round)
  if !s.on (MONITOR_TEMP_VALID m) || x.hot.isNone || !due then s
  else
    let s := s.setMon m fun x => { x with stepped := some s.round }
    (s.each (s.throttled m) fun s i => s.setThrot i (lowerThrot i m (s.atLowest i))).applyCeilings

def execThrottleStep (m : Fin 48) (s : State) : Host.Outcome State Fault Refusal := .next (s.throttleStep m)

/-- A throttle ceiling is restored by one step, duty before operating point. -/
def State.throttleRestore (s : State) (i : Nat) : State :=
  let x := s.throt i
  let cool := x.by_.all fun m => match (s.mon m).cool with | some n => decide (n + 1000 ≤ s.round) | none => s.on (MONITOR_TEMP_FAILED m)
  if (x.op = 3 && x.duty = 8) || !cool || s.round < x.restored + 1000 then s
  else
    let y := if x.duty < 8 then { x with duty := min 8 (2 * x.duty) } else { x with op := min 3 (x.op + 1) }
    (s.setThrot i fun _ => if y.op = 3 && y.duty = 8 then { restored := 0 } else { y with restored := s.round }).applyCeilings

def execThrottleRestore (i : Fin 18) (s : State) : Host.Outcome State Fault Refusal := .next (s.throttleRestore i)

/-! ### Droop (Power cap R515, R516) -/

def State.droop (s : State) (i : Nat) : DroopSt := SMap.get (fun _ => {}) s.gov.droop i
def State.setDroop (s : State) (i : Nat) (x : DroopSt) : State := s.setGov fun g => { g with droop := SMap.set (fun _ => {}) g.droop i x }

/-- A rail falls more than 30 mV below its set voltage: the domain's clocks run at half frequency. -/
def execDroopTrigger (i : Fin 19) (t : Nat) (s : State) : Host.Outcome State Fault Refusal :=
  .next (
    let s := (s.atNs t).addSat (POWER_DROOP_COUNT i) 1
    let x := s.droop i
    if x.since.isSome then s else s.setDroop i { x with since := some s.now })

/-- Full frequency again. -/
def execDroopRestore (i : Fin 19) (t : Nat) (s : State) : Host.Outcome State Fault Refusal :=
  .next (match (s.droop i).since with
    | none => s
    | some n =>
      let s := s.atNs t
      s.setDroop i { since := none, spans := (s.droop i).spans ++ [(n, s.now)] })

/-- The time that half frequency adds to the work in `[lo, hi)`: half of each stretch within it, rounded up. -/
def stretchIn (spans : List (Nat × Nat)) (lo hi : Nat) : Nat :=
  ((spans.map fun p => min p.2 hi - max p.1 lo).foldl (· + ·) 0 + 1) / 2

/-- The largest stretched time of any 100 ns: a window that begins or ends with a stretch. -/
def worst100 (spans : List (Nat × Nat)) : Nat :=
  spans.foldl (fun b p => max b (max (stretchIn spans p.1 (p.1 + 100)) (stretchIn spans (p.2 - 100) p.2))) 0

/-- The round just ended is measured: the largest stretched time is kept, and a round beyond its bound is reported and lowers a governed
district's ceiling. `from_` is the start of the round. -/
def State.droopRound (s : State) (from_ i : Nat) : State :=
  let x := s.droop i
  let spans := x.spans ++ (match x.since with | some n => [(n, from_ + 1000)] | none => [])
  let n := stretchIn spans from_ (from_ + 1000)
  let s := s.setDroop i { since := x.since.map fun k => max k (from_ + 1000), spans := [] }
  let s := s.put (POWER_STRETCH_MAX_NS i) (max (s.cfg (POWER_STRETCH_MAX_NS i)) n)
  let past := if i < 16 then decide (16 < n) else if i = 18 then decide (10 < worst100 spans) else false
  if !past then s
  else
    let s := s.report { code := Code.DROOP_EXCESS, unit := i }
    if i < 16 && s.governed i then
      let c := s.ceilOf i - 1
      ((s.putB (POWER_GOV_STATE_DROOP_LIMITED i) true).setGov fun g => { g with droopCeil := SMap.set (fun _ => 3) g.droopCeil i c }).applyCeilings
    else s

/-- A write of DROOP_RELEASE. -/
def State.droopRelease (s : State) (q : Req) (v : Nat) : State :=
  if q.pfOrHost && s.pwrWriter q then
    (s.each (onesBelow v 16) fun s d =>
      (s.putB (POWER_GOV_STATE_DROOP_LIMITED d) false).setGov fun g => { g with droopCeil := SMap.set (fun _ => 3) g.droopCeil d 3 }).applyCeilings
  else s

def execDroopRelease (q : Req) (v : Nat) (s : State) : Host.Outcome State Fault Refusal :=
  .next (s.landing q POWER_DROOP_RELEASE fun s => s.droopRelease q v)

/-! ### Trims (Power cap R499) -/

/-- A trim moves toward the ratio of measured to modelled energy (units of 1/4,096), by at most 1/256; one held at a limit for 10 updates is reported
once. -/
def State.trimOne (s : State) (i ratio : Nat) : State :=
  let old := s.get (MONITOR_MODEL_TRIM_TRIM i)
  let v := max 0x0E00 (min 0x1200 (if old < ratio then min ratio (old + 16) else max ratio (old - 16)))
  let n := if v = 0x0E00 || v = 0x1200 then min 10 (SMap.get (fun _ => 0) s.gov.trimHeld i + 1) else 0
  let s := (s.put (MONITOR_MODEL_TRIM_TRIM i) v).setGov fun g => { g with trimHeld := SMap.set (fun _ => 0) g.trimHeld i n }
  if n = 10 && !s.gov.trimTold.contains i then (s.setGov fun g => { g with trimTold := g.trimTold ++ [i] }).report { code := Code.MODEL_TRIM_LIMIT, unit := i }
  else if n = 0 then s.setGov fun g => { g with trimTold := g.trimTold.filter (· != i) } else s

/-- The trims of the 17 rails; a rail whose reads were skipped has no ratio and keeps its trim. -/
def execTrimUpdate (ratios : List (Option Nat)) (s : State) : Host.Outcome State Fault Refusal :=
  .next (if s.fwRunning 2 then
      s.each ((List.range 17).zip ratios) fun s p => match p.2 with | some r => s.trimOne p.1 r | none => s
    else s)

/-! ### Energy (Power cap R498, R501 to R503, R505, R511) -/

/-- Energy of one round goes to one block account, and, where an envelope or a ring caused it, to that ring and envelope as well. -/
def State.energyPart (s : State) (e : EnergyPart) : State :=
  let s := if e.acct < 16 then s.add64 (MONITOR_ENERGY_DIST e.acct) e.nj else s.add64 (MONITOR_ENERGY_ACCT (e.acct - 16)) e.nj
  match e.ring with
  | none => s
  | some r =>
    let s := s.add64 (MONITOR_ENERGY_RING r) e.nj
    match e.seq with
    | some k => s.setFlight r k fun f => { f with energy := f.energy + e.nj }
    | none => s

/-- PERIOD, HEADROOM_MW and CAP_WINDOW as they are used. -/
def State.govPeriod (s : State) : Nat := let p := s.glim POWER_GOV_CTRL_PERIOD; if decide (10 ≤ p) && decide (p ≤ 10000) then p else 100
def State.capWindow (s : State) : Nat := max 100 (s.glim POWER_CAP_WINDOW_ROUNDS)

/-- The average of the latest `n` rounds: 1 nJ in a round is 1 mW. -/
def avgOf (l : List Nat) (n : Nat) : Nat := (l.take n).foldl (· + ·) 0 / max 1 (min n l.length)

/-- A step that the governor, the throttle or the fast path ordered is in progress: a district has not reached its operating point or voltage. -/
def State.stepping (s : State) : Bool :=
  s.governedDistricts.any fun d => s.dom d == 0 && (s.distOp d != s.get (POWER_GOV_STATE_OP d) || s.mv d != opMv (s.distOp d))

/-- The fast path's cut: every governed district and the media take half their duty, not below DUTY_MIN. -/
def State.fastCut (s : State) : State :=
  let s := s.each s.governedDistricts fun s d =>
    let q := s.get (POWER_GOV_STATE_DUTY d)
    s.put (POWER_GOV_STATE_DUTY d) (min q (max ((q + 1) / 2) (dutyOf (s.glim (POWER_GOV_LIMITS_DUTY_MIN d)))))
  let q := s.get POWER_MEDIA_GOV_DUTY
  s.put POWER_MEDIA_GOV_DUTY (min q (max ((q + 1) / 2) (dutyOf (s.glim POWER_MEDIA_GOV_DUTY_MIN))))

/-- The estimate of a round is complete: accounts, averages, the express reserve and the fast path. -/
def State.energyRound (s : State) (parts : List EnergyPart) : State :=
  let total := (parts.map fun e => e.nj).foldl (· + ·) 0
  let ex := ((parts.filter fun e => e.acct == s.expressDistrict).map fun e => e.nj).foldl (· + ·) 0
  let s := s.each parts fun s e => s.energyPart e
  let settled := !s.gov.stepping && !s.stepping
  let s := s.setGov fun g => { g with
    hist := ((total, ex) :: g.hist).take (max s.capWindow 10)
    stepping := s.stepping
    settled := if settled then g.settled + 1 else g.settled
    busyNow := []
    busy := if settled then g.busyNow.foldl (fun m e => SMap.set (fun _ => 0) m e.1 (SMap.get (fun _ => 0) m e.1 + e.2)) g.busy else g.busy
    sum := if settled then g.sum + total else g.sum
    sumX := if settled then g.sumX + ex else g.sumX }
  let w := s.capWindow
  let px := avgOf (s.gov.hist.map fun h => h.2) w
  let s := (s.put MONITOR_POWER_MW_MODULE_MW (min 0xFFFF (avgOf (s.gov.hist.map fun h => h.1) w))).put MONITOR_POWER_MW_GOVERNED_MW
    (min 0xFFFF (avgOf (s.gov.hist.map fun h => h.1 - h.2) w))
  let s := s.put MONITOR_EXPRESS_MW_MW (min 0xFFFF px)
  let s := if decide (3000 < px) && !s.gov.reserve then s.report { code := Code.EXPRESS_RESERVE_EXCEEDED } else s
  let s := s.setGov fun g => { g with reserve := decide (3000 < px) }
  let s := if s.gov.fastDue then s.fastCut else s
  let past := s.fwRunning 2 && decide (10 ≤ s.gov.hist.length) && decide (5 * s.get POWER_CAP_LIMIT_MW < 4 * avgOf (s.gov.hist.map fun h => h.1) 10)
  let s := if past && !s.on POWER_CAP_STATUS_FAST then s.report { code := Code.CAP_FAST } else s
  (s.putB POWER_CAP_STATUS_FAST past).setGov fun g => { g with fastDue := past }

/-! ### The governor (Power cap R505, R506, R509, R510) -/

/-- PRIO of an item: districts 0 to 15, 16 the host cores, 17 the media. -/
def State.prioOf (s : State) (i : Nat) : Nat :=
  if i < 16 then s.glim (POWER_GOV_LIMITS_PRIO i) else if i = 16 then s.glim POWER_HOST_GOV_PRIO else s.glim POWER_MEDIA_GOV_PRIO

def State.items (s : State) : List Nat := s.governedDistricts ++ [16, 17]

/-- An item lies above its floor. -/
def State.aboveFloor (s : State) (i : Nat) : Bool :=
  if i < 16 then decide (s.opMin i < s.get (POWER_GOV_STATE_OP i)) || decide (dutyOf (s.glim (POWER_GOV_LIMITS_DUTY_MIN i)) < s.get (POWER_GOV_STATE_DUTY i))
  else if i = 16 then decide (s.glim POWER_HOST_GOV_LEVEL_MIN < s.get POWER_HOST_GOV_LEVEL)
  else decide (dutyOf (s.glim POWER_MEDIA_GOV_DUTY_MIN) < s.get POWER_MEDIA_GOV_DUTY)

/-- An item lies below its ceiling. -/
def State.belowCeil (s : State) (i : Nat) : Bool :=
  if i < 16 then decide (s.get (POWER_GOV_STATE_OP i) < s.ceilOf i) || decide (s.get (POWER_GOV_STATE_DUTY i) < (s.throt i).duty)
  else if i = 16 then decide (s.get POWER_HOST_GOV_LEVEL < (s.throt 16).op)
  else decide (s.get POWER_MEDIA_GOV_DUTY < (s.throt 17).duty)

/-- One step down an item's order (Power cap Table 15.5). -/
def State.lowerItem (s : State) (i : Nat) : State :=
  if i < 16 then
    if s.opMin i < s.get (POWER_GOV_STATE_OP i) then s.put (POWER_GOV_STATE_OP i) (s.get (POWER_GOV_STATE_OP i) - 1)
    else s.put (POWER_GOV_STATE_DUTY i) (s.get (POWER_GOV_STATE_DUTY i) - 1)
  else if i = 16 then s.put POWER_HOST_GOV_LEVEL (s.get POWER_HOST_GOV_LEVEL - 1)
  else s.put POWER_MEDIA_GOV_DUTY (s.get POWER_MEDIA_GOV_DUTY - 1)

/-- One step back up the reverse order. -/
def State.raiseItem (s : State) (i : Nat) : State :=
  if i < 16 then
    if s.get (POWER_GOV_STATE_DUTY i) < (s.throt i).duty then s.put (POWER_GOV_STATE_DUTY i) (s.get (POWER_GOV_STATE_DUTY i) + 1)
    else s.put (POWER_GOV_STATE_OP i) (s.get (POWER_GOV_STATE_OP i) + 1)
  else if i = 16 then s.put POWER_HOST_GOV_LEVEL (s.get POWER_HOST_GOV_LEVEL + 1)
  else s.put POWER_MEDIA_GOV_DUTY (s.get POWER_MEDIA_GOV_DUTY + 1)

/-- The activity of the round that began at `from_`, as it ends: the time for which units ran in each governed district, and those where a step that
was ready for all of an off round has not started (Power cap R507, R510). -/
def State.govActivity (s : State) (from_ : Nat) : State :=
  let ran := s.governedDistricts.map fun d =>
    (d, SMap.get (fun _ => 0) s.rnd.ran d + match s.unitOn d with | some u => from_ + 1000 - max (u.startRound * 1000 + u.startNs) from_ | none => 0)
  let off := s.governedDistricts.filter fun d =>
    decide (s.get (POWER_GOV_STATE_DUTY d) ≤ s.round % 8) && (SMap.get (fun _ => []) s.floor.ready d).any fun e => decide (e.since ≤ from_)
  s.setGov fun g => { g with busyNow := ran.filter fun e => e.2 != 0, waited := g.waited ++ off.filter fun d => !g.waited.contains d }

/-- The items that had demand in the period (Power cap R510). `active` is what the energy unit's counts of active cycles give for each of the eight host
cores, in thousandths of the cycles of the period. -/
def State.govDemand (s : State) (active : List Nat) : List Nat :=
  (s.governedDistricts.filter fun d =>
    (s.gov.settled != 0 && decide (900 * s.gov.settled ≤ SMap.get (fun _ => 0) s.gov.busy d)) || s.gov.waited.contains d) ++
    (if 900 * 8 ≤ (active.take 8).foldl (· + ·) 0 then [16] else []) ++ (if s.gov.media then [17] else [])

/-- The start of a decision: limits written since the last are in force (Power cap R521), the period's sums begin again, DEMAND shows the period just
ended, and ceilings come first (Power cap R518). -/
def State.govReady (s : State) (demand : List Nat) : State :=
  let s := s.setGov fun g => { g with
    sum := 0, sumX := 0, settled := 0, busy := [], waited := [], media := false, former := [], lims := if g.settled < 10 then g.lims else [] }
  (s.each s.governedDistricts fun s d => s.putB (POWER_GOV_STATE_DEMAND d) (demand.contains d)).applyCeilings

/-- Averages over the settled rounds of the period, in mW: Px, P and the budget B (Power cap R505). -/
def State.govPx (s : State) : Nat := s.gov.sumX / s.gov.settled
def State.govP (s : State) : Nat := (s.gov.sum - s.gov.sumX) / s.gov.settled
def State.govB (s : State) : Nat := s.get POWER_CAP_LIMIT_MW - max 3000 s.govPx

/-- The items of a priority that are to be lowered, and those that may be raised. -/
def State.lowerable (s : State) (c : Nat) : List Nat := s.items.filter fun i => s.prioOf i == c && s.aboveFloor i
def State.raisable (s : State) (demand : List Nat) (c : Nat) : List Nat := s.items.filter fun i => s.prioOf i == c && demand.contains i && s.belowCeil i

/-- The decision at power `p` and budget `b`: `rise` is the model's estimate of the added power for each PRIO, in mW. -/
def State.govDecide (s : State) (demand rise : List Nat) (p b : Nat) : State :=
  if b < p then
    match [0, 1, 2, 3].find? fun c => !(s.lowerable c).isEmpty with
    | some c => s.each (s.lowerable c) fun s i => s.lowerItem i
    | none => if s.on POWER_CAP_STATUS_UNREACHABLE then s else (s.putB POWER_CAP_STATUS_UNREACHABLE true).report { code := Code.CAP_UNREACHABLE }
  else
    let s := s.putB POWER_CAP_STATUS_UNREACHABLE false
    match [3, 2, 1, 0].find? fun c => !(s.raisable demand c).isEmpty with
    | some c =>
      if p + rise.getD c 0 + s.glim POWER_GOV_CTRL_HEADROOM_MW ≤ b then s.each (s.raisable demand c) fun s i => s.raiseItem i else s
    | none => s

/-- The governor decides from the settled rounds of the period, for the items with demand in it. -/
def State.govern (s : State) (active : List Nat) (rise : List Nat) : State :=
  let demand := s.govDemand active
  let u := s.govReady demand
  if s.gov.settled < 10 then u
  else
    let u := (u.put POWER_CAP_STATUS_BUDGET_MW s.govB).govDecide demand rise s.govP s.govB
    u.putB POWER_CAP_STATUS_CAPPING (u.items.any u.belowCeil)

/-- A decision at a boundary whose round is a multiple of PERIOD, while a power steward runs (Firmware R563). -/
def execGovernorDecision (active rise : List Nat) (s : State) : Host.Outcome State Fault Refusal :=
  .next (if s.fwRunning 2 && s.round % s.govPeriod == 0 then s.govern active rise else s)

end Sys2Proof.Machine
end

