-- ==== Sys2Proof/Machine/Trust.lean ====
section
/-! DEFINITION. The Opantith root: signed images, secure start, slot records, the mailboxes and their messages (Trust, Firmware §5). -/

namespace Sys2Proof.Machine
open Reg

/-! ### Flash and NOR (Trust Table 16.1, R539) -/

/-- What an erased byte reads as. -/
def erased : Nat → Byte := fun _ => 0xFF

/-- `n` bytes of a flash from address `a`. -/
def romBytes (m : SMap Byte) (a : Nat) : Nat → Bytes
  | 0 => []
  | n + 1 => SMap.get erased m a :: romBytes m (a + 1) n

/-- Erase `[a, a + n)`. -/
def romErase (m : SMap Byte) (a n : Nat) : SMap Byte := m.filter fun e => decide (e.1 < a) || decide (a + n ≤ e.1)

/-- Program bytes from address `a`: bits change from 1 to 0 only. -/
def romProgram (m : SMap Byte) (a : Nat) : Bytes → SMap Byte
  | [] => m
  | b :: t => romProgram (SMap.set erased m a (SMap.get erased m a &&& b)) (a + 1) t

/-- The memory that holds pair `p` of slots: 0 the runtime, in flash; 1 the boot stage, in NOR. -/
def State.rom (s : State) (p : Nat) : SMap Byte := if p = 0 then s.trust.flash else s.trust.nor

/-- Change the memory that holds a pair of slots. -/
def State.setRom (s : State) (p : Nat) (m : SMap Byte) : State :=
  s.setTrust fun t => if p = 0 then { t with flash := m } else { t with nor := m }

/-- Where the image of slot `sl` of pair `p` lies, and the size of the slot. -/
def slotBase (p sl : Nat) : Nat := if p = 0 then 0x40000 + 0x1C0000 * sl else 0x100000 + 0x200000 * sl
def slotSize (p : Nat) : Nat := if p = 0 then 0x1C0000 else 0x200000

/-- Where its record lies. The place of the runtime records in the protected sector is the model's choice. -/
def recAddr (p sl : Nat) : Nat := if p = 0 then 0x3C0000 + 0x20 * sl else 0x10000 * sl

/-! ### Slot state records (Firmware §5) -/

/-- The states of Firmware Table 17.8. -/
inductive SlotSt where
  | empty | writing | valid | trial | confirmed | stale
  deriving DecidableEq, Repr

/-- The state that a record reads as (Firmware R579). -/
def recState (b : Bytes) : SlotSt :=
  if fieldLE b 0 4 != 0x53544C53 || fieldLE b 0x10 4 != crc32c (b.take 16) then .empty
  else if fieldLE b 0x16 1 != 0xFF then .stale
  else match fieldLE b 0x14 1 with
    | 0xFE => .writing
    | 0xFC => .valid
    | 0xF8 => .trial
    | 0xF0 => .confirmed
    | _ => .stale

/-- The attempt count of a record. -/
def recAttempts (b : Bytes) : Nat := match fieldLE b 0x15 1 with
  | 0xFF => 0
  | 0xFE => 1
  | 0xFC => 2
  | _ => 3

/-- SEQ of a record. -/
def recSeq (b : Bytes) : Nat := fieldLE b 4 4

/-- The record of a slot. -/
def State.slotRec (s : State) (p sl : Nat) : Bytes := romBytes (s.rom p) (recAddr p sl) 32

/-- The state of a slot. -/
def State.slotSt (s : State) (p sl : Nat) : SlotSt := recState (s.slotRec p sl)

/-- The slot of pair `p` started at this power-on reset. -/
def State.started (s : State) (p : Nat) : Option Nat := (if p = 0 then s.trust.runtime else s.trust.bootStage).map (·.1)

/-- FIRMWARE.SLOT_REC mirrors the records, and RUNTIME_TRIAL and BOOT_TRIAL follow the started slots. -/
def State.recSync (s : State) : State :=
  let s := s.each [0, 1] fun s p => s.each [0, 1] fun s sl =>
    let b := s.slotRec p sl
    s.each (List.range 8) fun s i => s.wrN (FIRMWARE_SLOT_REC p sl i) (fieldLE b (4 * i) 4)
  let trial : Nat → Bool := fun p => match s.started p with | some sl => s.slotSt p sl == .trial | none => false
  (s.putB SECURE_STATUS_RUNTIME_TRIAL (trial 0)).putB SECURE_STATUS_BOOT_TRIAL (trial 1)

/-- The root programs bytes of a record; a runtime record lies in the protected sector (Trust R546). -/
def State.recProgram (s : State) (p sl off : Nat) (b : Bytes) : State :=
  let s := s.setRom p (romProgram (s.rom p) (recAddr p sl + off) b)
  (if p = 0 then s.setTrust fun t => { t with writes := t.writes + 1 } else s).recSync

/-- The root marks a slot STALE. -/
def State.markStale (s : State) (p sl : Nat) : State := s.recProgram p sl 0x16 [0]

/-! ### Minimum-version counters (Trust §6) -/

/-- A minimum-version counter. -/
def State.counter (s : State) (i : Nat) : Nat := s.rdN (SECURE_COUNTER i)

/-- Change a counter: the copy that does not hold the newest generation is written with the next generation (Trust R545). -/
def State.setCounter (s : State) (i v : Nat) : State :=
  let zero : Nat → Nat := fun _ => 0
  let copies := match s.trust.copies with
    | [a, b] => if a.1 < b.1 then [(b.1 + 1, SMap.set zero b.2 i v), b] else [a, (a.1 + 1, SMap.set zero a.2 i v)]
    | l => l
  (s.setTrust fun t => { t with copies := copies, writes := t.writes + 1 }).wrN (SECURE_COUNTER i) v

/-- The protected sector has had its writes (Trust R546). -/
def State.worn (s : State) : Bool := decide (100000 ≤ s.trust.writes)

/-! ### Fuses (Trust §9) -/

/-- SECURE.STATUS shows the fuse fields of word 4. -/
def State.fuseSync (s : State) : State :=
  let w := s.rdN (SECURE_FUSE 4)
  let life := match w % 16 with | 1 => 1 | 3 => 2 | 7 => 3 | _ => 0
  (((s.put SECURE_STATUS_LIFECYCLE life).putB SECURE_STATUS_OWNER_SET (nbit w 12)).putB SECURE_STATUS_OWNER_REQUIRED (nbit w 13)).put
    SECURE_STATUS_VENDOR_REVOKED (nbits w 11 8)

/-- Program fuse bits: they change only from 0 to 1. -/
def State.fuse (s : State) (w mask : Nat) : State := (s.wrN (SECURE_FUSE w) (s.rdN (SECURE_FUSE w) ||| mask)).fuseSync

/-- The 48 octets of a key digest in the fuse array. -/
def State.fuseDigest (s : State) (w : Nat) : Bytes := (List.range 12).flatMap fun j => leBytes 4 (s.rdN (SECURE_FUSE (w + j)))

/-- FLAGS of a quote (Trust Table 16.8). -/
def State.trustFlags (s : State) : Nat :=
  let w := s.rdN (SECURE_FUSE 4)
  nbits w 11 8 + 16 * nbits w 12 12 + 32 * nbits w 13 13 + 64 * s.get SECURE_STATUS_DEBUG_UNLOCKED + (if s.trust.logFull then 128 else 0)

/-! ### Signed images (Trust §3) -/

/-- COUNTER is the one of the image type (Trust R530). -/
def counterOk (type c : Nat) : Bool :=
  if type = 1 then c == 0 else if type = 2 then c == 1 else if type = 3 then (decide (8 ≤ c) && decide (c ≤ 63)) || c == 0xFF
  else if type = 4 then decide (2 ≤ c) && decide (c ≤ 5) else if type = 5 then c == 6 else c == 0xFF

/-- BODY_LEN of a header. -/
def imgLen (h : Bytes) : Nat := fieldLE h 0x10 4

/-- VERSION of a header. -/
def imgVersion (h : Bytes) : Nat := fieldLE h 8 4

/-- A range of a header holds zeros. -/
def zeroAt (h : Bytes) (off n : Nat) : Bool := ((h.drop off).take n).all (· == 0)

/-- The signed part of an image (Trust §3). -/
def imgSigned (h : Bytes) : Bytes := h.take 0x900

/-- The event digest of an image (Trust R540). -/
def imgDigest (h : Bytes) : Bytes := sha384 (imgSigned h)

/-- Checks 1 and 2 of Trust R531: the offset of the first bad field. -/
def State.imgHeader (s : State) (type limit : Nat) (h : Bytes) : Option Nat :=
  let entry := fieldLE h 0x20 8
  let bind := fieldLE h 0x28 8
  let here := bind == s.rdN GLOBAL_DIE_SERIAL
  let own := type == 6 || type == 8 || type == 9
  if fieldLE h 0 4 != 0x4D474953 then some 0
  else if fieldLE h 4 1 != 1 then some 4
  else if fieldLE h 5 1 != type then some 5
  else if !zeroAt h 7 1 then some 7
  else if !counterOk type (fieldLE h 0xC 1) then some 0xC
  else if !zeroAt h 0xD 3 then some 0xD
  else if limit < imgLen h then some 0x10
  else if !zeroAt h 0x14 4 then some 0x14
  else if type == 2 && fieldLE h 0x18 8 != 0xF002001800 then some 0x18
  else if type == 2 && (decide (entry < 0xF002001800) || decide (0xF002001800 + imgLen h ≤ entry)) then some 0x20
  else if !((bind == 0 && !own) || here) then some 0x28
  else if !zeroAt h 0x60 160 then some 0x60
  else if !zeroAt h 0x164D 435 then some 0x164D
  else none

/-- Check 3: the key slot is permitted for the type (Trust R532), and the key digest is the fused one. -/
def State.imgKey (s : State) (type : Nat) (h : Bytes) : Bool :=
  let k := fieldLE h 6 1
  let w := s.rdN (SECURE_FUSE 4)
  let digest := sha384 ((h.drop 0x100).take 0x800)
  if type = 6 then true
  else if k < 4 then !nbit w (8 + k) && !(nbit w 13 && decide (2 ≤ type) && decide (type ≤ 5)) && digest == s.fuseDigest (8 + 12 * k)
  else k == 4 && nbit w 12 && type != 1 && type != 7 && type != 9 && digest == s.fuseDigest 56

/-- Check 4: both signatures over the signed part. -/
def imgSignatures (h : Bytes) : Bool :=
  Config.ecdsaVerify ((h.drop 0x100).take 96) (imgSigned h) ((h.drop 0x900).take 96) &&
    Config.mldsaVerify ((h.drop 0x160).take 1952) (imgSigned h) ((h.drop 0x960).take 3309)

/-- Check 6: VERSION is at least the counter. -/
def State.imgFresh (s : State) (h : Bytes) : Bool := fieldLE h 0xC 1 == 0xFF || decide (s.counter (fieldLE h 0xC 1) ≤ imgVersion h)

/-- The mailbox status of an access that was not performed, or found poison. -/
def accStatus (e : AccErr) : Nat := match e with
  | .poison => 8
  | _ => 7

/-- All checks of Trust R531, in order: the status of the first that fails (Trust Table 16.11). -/
def State.imgVerify (s : State) (type limit : Nat) (h : Bytes) (body : Nat → Except AccErr Bytes) : Except (Nat × Option AccErr) Bytes :=
  if (s.imgHeader type limit h).isSome then .error (3, none)
  else if !s.imgKey type h then .error (4, none)
  else if !imgSignatures h then .error (5, none)
  else match body (imgLen h) with
    | .error e => .error (accStatus e, some e)
    | .ok b =>
      if sha384 b != (h.drop 0x30).take 48 then .error (5, none)
      else if !s.imgFresh h then .error (6, none)
      else .ok b

/-! ### Secure start (Trust §4) -/

/-- A line on the UART, ended by CR and LF (Bring-up R648). -/
def State.uartLine (s : State) (l : String) : State := s.setTrust fun t => { t with uart := t.uart ++ [l ++ "\r\n"] }

/-- The letter of a slot. -/
def slotName (sl : Nat) : String := if sl = 0 then "A" else "B"

/-- The header of the image in a slot. -/
def State.slotHeader (s : State) (p sl : Nat) : Bytes := romBytes (s.rom p) (slotBase p sl) 0x1800

/-- The image in a slot fails a check of Trust R531. -/
def State.slotBad (s : State) (p sl : Nat) : Bool :=
  match s.imgVerify (p + 1) (slotSize p - 0x1800) (s.slotHeader p sl) (fun n => .ok (romBytes (s.rom p) (slotBase p sl + 0x1800) n)) with
  | .ok _ => false
  | .error _ => true

/-- The candidates of a pair, in the order they are taken (Trust R535). -/
def State.candidates (s : State) (p : Nat) : List Nat :=
  let ok : Nat → Bool := fun sl => match s.slotSt p sl with
    | .valid => true
    | .trial => true
    | .confirmed => true
    | _ => false
  let order := if recSeq (s.slotRec p 0) < recSeq (s.slotRec p 1) then [1, 0] else [0, 1]
  order.filter ok

/-- A candidate is rejected. -/
def State.reject (s : State) (p sl : Nat) : State := (s.markStale p sl).report { code := Code.BOOT_SLOT_REJECTED, unit := 2 * p + sl }

/-- The minimum-version counter of a pair rises at a start, or by CONFIRM_SLOT. -/
def State.raiseTo (s : State) (p v : Nat) : State := if s.counter p < v then s.setCounter p v else s

/-- One candidate (Trust R535): the state after it, and whether it is started. -/
def State.tryCandidate (s : State) (p sl : Nat) : State × Bool :=
  if s.slotBad p sl then (s.reject p sl, false)
  else match s.slotSt p sl with
    | .confirmed =>
      let v := imgVersion (s.slotHeader p sl)
      if s.counter p < v then
        let s := (s.setCounter p v).extendFree
        (if s.slotSt p (1 - sl) == .confirmed && decide (recSeq (s.slotRec p (1 - sl)) < recSeq (s.slotRec p sl)) then s.markStale p (1 - sl) else s, true)
      else (s, true)
    | .valid => ((s.recProgram p sl 0x14 [0xF8]).recProgram p sl 0x15 [0xFE], true)
    | .trial =>
      let n := recAttempts (s.slotRec p sl)
      if n < 3 then (s.recProgram p sl 0x15 [if n = 0 then 0xFE else if n = 1 then 0xFC else 0xF8], true) else (s.reject p sl, false)
    | _ => (s, false)

/-- The loader copies a boot-stage image whole into boot SRAM. -/
def State.loadBoot (s : State) (sl : Nat) : State :=
  s.wrMem 0xF002000000 (romBytes s.trust.nor (slotBase 1 sl) (min (0x1800 + imgLen (s.slotHeader 1 sl)) (slotSize 1)))

/-- Take candidates until one is started. -/
def State.choose (s : State) (p : Nat) : List Nat → State × Option Nat
  | [] => (s, none)
  | sl :: t =>
    match (if p = 1 then s.loadBoot sl else s).tryCandidate p sl with
    | (s', true) => (s', some sl)
    | (s', false) => s'.choose p t

/-- No slot of a pair can be started (Trust R537). -/
def State.noImage (s : State) (p : Nat) : State :=
  ((s.put SECURE_STATUS_BOOT_STATE 2).report { code := Code.BOOT_NO_IMAGE, unit := p }).uartLine
    ("HX4 no_image pair=" ++ (if p = 0 then "runtime" else "boot") ++ " round=" ++ toString s.round)

/-- Steps 6 to 10 of Trust Table 16.5: the boot stage is chosen and verified, and host core 0 is released. -/
def State.startBoot (s : State) : State :=
  let s := s.setTrust fun t => { t with stage := 2 }
  match s.choose 1 (s.candidates 1) with
  | (s, none) => (s.setTrust fun t => { t with bootStage := none }).noImage 1
  | (s, some sl) =>
    let h := s.slotHeader 1 sl
    let s := (s.setTrust fun t => { t with bootStage := some (sl, imgVersion h) }).recSync
    let s := (s.extendSeal 2 (imgDigest h) 2).put SECURE_STATUS_BOOT_SLOT sl
    let s := (s.put SECURE_STATUS_BOOT_STATE 1).putB GLOBAL_BOOT_STATUS_HOST_RELEASED true
    s.uartLine ("HX4 boot slot=" ++ slotName sl ++ " ver=" ++ toString (imgVersion h) ++ " round=" ++ toString s.round ++ " trial=" ++
      (if s.on SECURE_STATUS_BOOT_TRIAL then "1" else "0"))

/-- Steps 4 and 5: the runtime is chosen, verified and entered; then the boot stage follows. -/
def State.startRuntime (s : State) : State :=
  match s.choose 0 (s.candidates 0) with
  | (s, none) => (s.setTrust fun t => { t with stage := 2, runtime := none }).noImage 0
  | (s, some sl) =>
    let h := s.slotHeader 0 sl
    let s := (s.setTrust fun t => { t with runtime := some (sl, imgVersion h) }).recSync
    let s := (s.extendSeal 1 (imgDigest h) 1).put SECURE_STATUS_RUNTIME_SLOT sl
    (s.uartLine ("HX4 runtime slot=" ++ slotName sl ++ " ver=" ++ toString (imgVersion h) ++ " round=" ++ toString s.round)).startBoot

/-- Secure start after a power-on reset (Trust Table 16.5), or its steps 6 to 10 after a reset of the host cores (R538). `root` is the digest of the
root sector, which is written at manufacture. -/
def execSecureStart (root : Bytes) (s : State) : Host.Outcome State Fault Refusal :=
  .next (if s.boot.supply != .up || s.boot.resetLow then s
    else if s.trust.stage = 0 then
      let fuses := (List.range 68).flatMap fun w => leBytes 4 (s.rdN (SECURE_FUSE w))
      (((s.fuseSync).extendSeal 0 (root.take 48) 0).extendSeal 0 (sha384 fuses) 0).recSync.startRuntime
    else if s.trust.stage = 1 then s.startBoot
    else s)

/-! ### The mailboxes (Trust §7) -/

/-- The message that a mailbox holds. -/
def State.mbHeld (s : State) (k : Nat) : Option MbMsg := SMap.get (fun _ => none) s.trust.held k

/-- OP and LEN of a message. -/
def MbMsg.op (m : MbMsg) : Nat := fieldLE m.bytes 0 2
def MbMsg.len (m : MbMsg) : Nat := fieldLE m.bytes 2 2

/-- A field of a message at its offset. -/
def MbMsg.f (m : MbMsg) (off n : Nat) : Nat := fieldLE m.bytes off n

/-- Reserved bytes of a message are zero. -/
def MbMsg.zero (m : MbMsg) (off n : Nat) : Bool := zeroAt m.bytes off n

/-- GO: a message is held, or, while one is held, the write is discarded (Trust R547). Mailbox 0 belongs to the secure world; mailbox 1 to the PF and
normal-world host cores. -/
def State.mbGo (s : State) (q : Req) (k : Nat) : State :=
  if !s.path q then s
    else if k = 0 && !q.secure then s.report { code := Code.SEC_DENIED }
    else if k = 1 && (q.secure || !q.pfOrHost) then s
    else if s.on (SECURE_MB_STATUS_BUSY k) then s.report { code := Code.SEC_BUSY }
    else
      let b := (List.range 64).flatMap fun i => leBytes 4 (s.rdN (SECURE_MB_REQ k i))
      let s := s.setTrust fun t => { t with held := SMap.set (fun _ => none) t.held k (some ⟨min q.fn 18, b⟩) }
      (s.putB (SECURE_MB_CTRL_GO k) true).putB (SECURE_MB_STATUS_BUSY k) true

def execMbGo (q : Req) (k : Fin 2) (s : State) : Host.Outcome State Fault Refusal :=
  .next (s.landing q (SECURE_MB_CTRL k) fun s => s.mbGo q k)

/-- The octets of a response (Trust Table 16.9). -/
def MbMsg.reply (m : MbMsg) (status result : Nat) (body : Bytes) : Bytes :=
  leBytes 2 m.op ++ leBytes 2 (16 + body.length) ++ leBytes 4 (m.f 4 4) ++ leBytes 2 status ++ [0, 0] ++ leBytes 4 result ++ body

/-- A response: DONE is set and interrupts. -/
def State.mbRespond (s : State) (k : Nat) (m : MbMsg) (status result : Nat) (body : Bytes) : State :=
  let b := m.reply status result body
  let s := s.each (List.range 64) fun s i => s.wrN (SECURE_MB_RSP k i) (fieldLE b (4 * i) 4)
  let s := s.setTrust fun t => { t with held := SMap.set (fun _ => none) t.held k none }
  let s := ((s.putB (SECURE_MB_CTRL_GO k) false).wrN (SECURE_MB_STATUS k) (2 ^ 30 + status % 65536))
  if k = 0 then s.coreIrq true 0xC0 none
  else if s.cfgOn SECURE_IRQ_CFG_EN then s.msix 0 (s.cfg SECURE_IRQ_CFG_VECTOR) else s

/-- What a message comes to: the state, STATUS, RESULT and body. -/
abbrev MbAns := State × Nat × Nat × Bytes

/-- The root takes the message of mailbox `k` with this OP, if it holds one and mailbox 0 does not go first (Trust R547); LEN must be the one of the
OP (R548). -/
def State.mbRun (s : State) (k op len : Nat) (f : MbMsg → MbAns) : State :=
  match s.mbHeld k with
  | none => s
  | some m =>
    if m.op != op || (k == 1 && (s.mbHeld 0).isSome) then s
    else if m.len != len then s.mbRespond k m 1 0 []
    else match f m with
      | (s', status, result, body) => s'.mbRespond k m status result body

/-- The messages that mailbox 1 may send, and all messages (Trust Table 16.10). -/
def mbBoth : List Nat := [1, 2, 3, 4, 5]
def mbAll : List Nat := [1, 2, 3, 4, 5, 6, 8, 9, 0xA, 0xB, 0xC, 0xD, 0x10, 0x11, 0x12, 0x20, 0x21, 0x22, 0x30, 0x31, 0x32, 0x33]

/-- A held message whose OP is unknown, or not permitted from its mailbox, completes with DENIED; one whose LEN is outside 8 to 256 with
BAD_MESSAGE (Trust R548, R549). No command of its own names it: the root takes it at a round boundary. -/
def State.trustBoundary (s : State) : State :=
  s.each [0, 1] fun s k => match s.mbHeld k with
    | none => s
    | some m =>
      if k == 1 && (s.mbHeld 0).isSome then s
      else if m.len < 8 || 256 < m.len then s.mbRespond k m 1 0 []
      else if !(if k = 0 then mbAll else mbBoth).contains m.op then s.mbRespond k m 2 0 []
      else s

/-- The event digest of a message (Trust R540): over its OP and its body. -/
def MbMsg.digest (m : MbMsg) : Bytes := sha384 (m.bytes.take 2 ++ (m.bytes.drop 8).take (m.len - 8))

/-- A message of security configuration extends seal 6 (Trust Table 16.7). -/
def State.sealMsg (s : State) (m : MbMsg) : State := s.extendSeal 6 m.digest m.op

/-- An answer with nothing but a status. -/
def mbStatus (s : State) (status : Nat) : MbAns := (s, status, 0, [])

/-- The answer to an address that fails (Trust R548): an access that was not performed is reported, but for the window and the regions that the
address rules cover. -/
def State.mbAddr (s : State) (e : AccErr) : MbAns :=
  match e with
  | .window => mbStatus s 7
  | .region _ => mbStatus s 7
  | e => mbStatus (s.accReport e) (accStatus e)

/-- Store bytes for the requester of a message. -/
def State.mbStore (s : State) (m : MbMsg) (a : Nat) (b : Bytes) (ok : MbAns) : MbAns :=
  match s.fnCheck m.fn a (max 1 b.length) with
  | some e => s.mbAddr e
  | none => (ok.1.store a b, ok.2)

/-- The slot started of a pair as GET_INFO and QUOTE show it. -/
def verOf (o : Option (Nat × Nat)) : Nat := (o.map (·.2)).getD 0

/-- GET_INFO. -/
def execGetInfo (k : Fin 2) (s : State) : Host.Outcome State Fault Refusal :=
  .next (s.mbRun k 1 8 fun _ =>
    (s, 0, 0, leBytes 1 (s.rdN (SECURE_FUSE 4) % 16) ++ leBytes 1 s.trustFlags ++ leBytes 1 (s.get SECURE_STATUS_RUNTIME_SLOT) ++
      leBytes 1 (s.get SECURE_STATUS_BOOT_SLOT) ++ leBytes 4 (verOf s.trust.runtime) ++ leBytes 4 (verOf s.trust.bootStage) ++
      leBytes 4 s.trust.log.length))

/-- Exactly `n` bytes: cut, or filled with zeros. -/
def exactly (n : Nat) (b : Bytes) : Bytes := b.take n ++ List.replicate (n - b.length) 0

/-- The quote of Trust Table 16.8. -/
def State.quote (s : State) (nonce : Bytes) (mask : Nat) (ecdsa mldsa : Bytes) : Bytes :=
  leBytes 4 0x51544E51 ++ leBytes 1 1 ++ leBytes 1 mask ++ leBytes 1 (s.rdN (SECURE_FUSE 4) % 16) ++ leBytes 1 s.trustFlags ++
    leBytes 8 (s.rdN GLOBAL_DIE_SERIAL) ++ leBytes 8 s.round ++ leBytes 4 (s.rdN GLOBAL_DEVICE_ID) ++ leBytes 4 0 ++ exactly 32 nonce ++
    ((List.range 8).flatMap fun i => if nbit mask i then s.sealOf i else List.replicate 48 0) ++ sha384 (logFrom 0 s.trust.log) ++
    List.replicate 16 0 ++ exactly 96 ecdsa ++ exactly 3309 mldsa ++ List.replicate 179 0

/-- QUOTE; the signatures are made with the attestation keys, which nothing reads. -/
def execQuote (k : Fin 2) (ecdsa mldsa : Bytes) (s : State) : Host.Outcome State Fault Refusal :=
  .next (s.mbRun k 2 56 fun m =>
    if !m.zero 0x29 7 then mbStatus s 1
    else if s.rdN (SECURE_FUSE 4) % 16 = 7 then mbStatus s 9
    else s.mbStore m (m.f 0x30 8) (s.quote ((m.bytes.drop 8).take 32) (m.f 0x28 1) ecdsa mldsa) (s, 0, 0, []))

/-- GET_CERT; the certificate is written at manufacture, and none is left after LIFECYCLE_RETURN. -/
def execGetCert (k : Fin 2) (cert : Bytes) (s : State) : Host.Outcome State Fault Refusal :=
  .next (s.mbRun k 3 24 fun m =>
    let c := if s.trust.certGone then [] else cert
    if !m.zero 0x14 4 then mbStatus s 1
    else if m.f 0x10 4 < c.length then (s, 1, c.length, [])
    else s.mbStore m (m.f 8 8) c (s, 0, c.length, []))

/-- READ_LOG. -/
def execReadLog (k : Fin 2) (s : State) : Host.Outcome State Fault Refusal :=
  .next (s.mbRun k 4 24 fun m =>
    let es := (s.trust.log.drop (m.f 8 4)).take (m.f 0xC 4)
    s.mbStore m (m.f 0x10 8) (logFrom (m.f 8 4) es) (s, 0, es.length, []))

/-- EXTEND: seals 3 and 7 from the secure world, seal 7 from either. -/
def execExtend (k : Fin 2) (s : State) : Host.Outcome State Fault Refusal :=
  .next (s.mbRun k 5 64 fun m =>
    let i := m.f 8 1
    if 7 < i || !m.zero 9 7 then mbStatus s 1
    else if !(i == 7 || (i == 3 && k == 0)) then mbStatus s 2
    else (s.extendSeal i ((m.bytes.drop 0x10).take 48) 5, 0, 0, []))

/-- Verify the image at an address for the requester of a message, then go on with its header and body. -/
def State.mbImage (s : State) (m : MbMsg) (a type limit : Nat) (f : Bytes → Bytes → MbAns) : MbAns :=
  match s.fnRead m.fn a 0x1800 with
  | .error e => s.mbAddr e
  | .ok h => match s.imgVerify type limit h (s.fnRead m.fn (a + 0x1800)) with
    | .error (_, some e) => s.mbAddr e
    | .error (st, none) => mbStatus s st
    | .ok b => f h b

/-- VERIFY_IMAGE: a type-3 image, which may extend seal 3. -/
def execVerifyImage (s : State) : Host.Outcome State Fault Refusal :=
  .next (s.mbRun 0 6 24 fun m =>
    if 1 < m.f 0x10 1 || !m.zero 0x11 7 then mbStatus s 1
    else s.mbImage m (m.f 8 8) 3 (2 ^ 32) fun h _ =>
      mbStatus (if m.f 0x10 1 = 1 then s.extendSeal 3 (imgDigest h) 3 else s) 0)

/-- RAISE_COUNTER. -/
def execRaiseCounter (s : State) : Host.Outcome State Fault Refusal :=
  .next (s.mbRun 0 8 16 fun m =>
    let i := m.f 8 1
    let v := m.f 0xC 4
    if i = 0 || 63 < i || !m.zero 9 3 then mbStatus s 1
    else if s.worn then mbStatus s 12
    else if v < s.counter i then mbStatus s 6
    else mbStatus ((if s.counter i < v then s.setCounter i v else s).sealMsg m) 0)

/-- CONFIRM_SLOT (Trust R550). -/
def execConfirmSlot (s : State) : Host.Outcome State Fault Refusal :=
  .next (s.mbRun 0 9 16 fun m =>
    let p := m.f 8 1
    if 1 < p || !m.zero 9 7 then mbStatus s 1
    else if s.worn then mbStatus s 12
    else match s.started p with
      | none => mbStatus s 9
      | some sl =>
        if s.slotSt p sl == .confirmed then mbStatus s 0
        else if s.slotSt p sl != .trial then mbStatus s 9
        else
          let v := imgVersion (s.slotHeader p sl)
          let s := s.recProgram p sl 0x14 [0xF0]
          let s := if s.counter p < v then (s.setCounter p v).sealMsg m else s
          mbStatus (s.markStale p (1 - sl)) 0)

/-- The first 32 bytes of a record as it is first written: WRITING (Firmware Table 17.9). -/
def newRecord (seq version len : Nat) : Bytes :=
  let b := leBytes 4 0x53544C53 ++ leBytes 4 seq ++ leBytes 4 version ++ leBytes 4 len
  b ++ leBytes 4 (crc32c b) ++ [0xFE]

/-- The root writes an image into a slot: erase, WRITING, the image, VALID (Firmware R582). -/
def State.writeSlot (s : State) (p sl seq : Nat) (h body : Bytes) : State :=
  let s := s.setRom p (romErase (s.rom p) (recAddr p sl) (if p = 0 then 0x20 else 0x10000))
  let s := if p = 0 then s.setTrust fun t => { t with writes := t.writes + 1 } else s
  let s := s.recProgram p sl 0 (newRecord seq (imgVersion h) (0x1800 + body.length))
  let s := s.setRom p (romProgram (romErase (s.rom p) (slotBase p sl) (slotSize p)) (slotBase p sl) (h ++ body))
  s.recProgram p sl 0x14 [0xFC]

/-- RUNTIME_UPDATE (Trust §7, Firmware R582). -/
def execRuntimeUpdate (s : State) : Host.Outcome State Fault Refusal :=
  .next (s.mbRun 0 0xA 16 fun m =>
    if s.worn then mbStatus s 12
    else match s.started 0 with
      | none => mbStatus s 9
      | some sl =>
        if s.slotSt 0 sl != .confirmed then mbStatus s 9
        else s.mbImage m (m.f 8 8) 1 0x1BE800 fun h b =>
          mbStatus ((s.writeSlot 0 (1 - sl) ((recSeq (s.slotRec 0 sl) + 1) % 2 ^ 32) h b).sealMsg m) 0)

/-! ### NOR messages (Firmware R581) -/

/-- NOR_READ. -/
def execNorRead (s : State) : Host.Outcome State Fault Refusal :=
  .next (s.mbRun 0 0xB 24 fun m =>
    let a := m.f 8 4
    let n := m.f 0xC 4
    if 0x4000000 < a + n then mbStatus s 1
    else match s.fnCheck m.fn (m.f 0x10 8) (max 1 n) with
      | some e => s.mbAddr e
      | none => mbStatus (s.store (m.f 0x10 8) (romBytes s.trust.nor a n)) 0)

/-- `[a, a + n)` meets the record sector of a boot-stage slot, or its image range. -/
def meetsRec (sl a n : Nat) : Bool := decide (a < 0x10000 * sl + 0x10000) && decide (0x10000 * sl < a + n)
def meetsImg (sl a n : Nat) : Bool := decide (a < slotBase 1 sl + slotSize 1) && decide (slotBase 1 sl < a + n)

/-- `[a, a + n)` meets the boot-stage slot that was started. -/
def State.meetsStarted (s : State) (a n : Nat) : Bool :=
  match s.started 1 with
  | some sl => meetsRec sl a n || meetsImg sl a n
  | none => false

/-- Units of an erase or program that took effect, and what a failing one is left with. The NOR reports a failure at unit `i`. -/
def norDone (count : Nat) (fail : Option (Nat × Bytes)) : Nat × Option Bytes :=
  match fail with
  | some (i, b) => if i < count then (i, some b) else (count, none)
  | none => (count, none)

/-- Put bytes in the NOR as they stand after a failure. -/
def romPut (m : SMap Byte) (a : Nat) : Bytes → SMap Byte
  | [] => m
  | b :: t => romPut (SMap.set erased m a b) (a + 1) t

/-- NOR_ERASE; `fail` is the sector at which the NOR reports a failure, with the bytes it leaves there. -/
def execNorErase (fail : Option (Nat × Bytes)) (s : State) : Host.Outcome State Fault Refusal :=
  .next (s.mbRun 0 0xC 16 fun m =>
    let a := m.f 8 4
    let n := m.f 0xC 4
    let other := match s.started 1 with
      | some sl => s.slotSt 1 sl == .trial && meetsRec (1 - sl) a (0x10000 * n)
      | none => false
    if a % 0x10000 != 0 || 0x4000000 < a + 0x10000 * n then mbStatus s 1
    else if s.meetsStarted a (0x10000 * n) || other then mbStatus s 9
    else
      let d := norDone n fail
      let nor := romErase s.trust.nor a (0x10000 * d.1)
      match d.2 with
      | some b => mbStatus ((s.setTrust fun t => { t with nor := romPut nor (a + 0x10000 * d.1) (b.take 0x10000) }).recSync) 13
      | none => mbStatus ((s.setTrust fun t => { t with nor := nor }).recSync) 0)

/-- The secure world may change a record so (Firmware Table 17.9): a first write to WRITING, WRITING to VALID, any to STALE, or not at all. -/
def recAllowed (old new : Bytes) : Bool :=
  new == old ||
    (recState old == .empty && recState new == .writing && fieldLE new 0x15 1 == 0xFF && (new.drop 0x17).all (· == 0xFF)) ||
    (recState old == .writing && new == old.take 0x14 ++ [0xFC] ++ old.drop 0x15) ||
    (new == old.take 0x16 ++ [0] ++ old.drop 0x17)

/-- A program of pages is allowed (Firmware R581). -/
def State.programOk (s : State) (a : Nat) (b : Bytes) : Bool :=
  !s.meetsStarted a b.length && [0, 1].all fun sl =>
    (!meetsRec sl a b.length ||
      (a == 0x10000 * sl && b.length == 256 &&
        recAllowed (s.slotRec 1 sl) (List.zipWith (fun x y => x &&& y) (s.slotRec 1 sl) b))) &&
    (!meetsImg sl a b.length || s.slotSt 1 sl == .writing)

/-- NOR_PROGRAM; `fail` is the page at which the NOR reports a failure, with the bytes it leaves there. -/
def execNorProgram (fail : Option (Nat × Bytes)) (s : State) : Host.Outcome State Fault Refusal :=
  .next (s.mbRun 0 0xD 24 fun m =>
    let a := m.f 8 4
    let n := m.f 0xC 4
    if a % 256 != 0 || n % 256 != 0 || 0x4000000 < a + n then mbStatus s 1
    else match s.fnRead m.fn (m.f 0x10 8) n with
      | .error e => s.mbAddr e
      | .ok b =>
        if !s.programOk a b then mbStatus s 9
        else
          let d := norDone (n / 256) fail
          let nor := romProgram s.trust.nor a (b.take (256 * d.1))
          match d.2 with
          | some x => mbStatus ((s.setTrust fun t => { t with nor := romPut nor (a + 256 * d.1) (x.take 256) }).recSync) 13
          | none => mbStatus ((s.setTrust fun t => { t with nor := nor }).recSync) 0)

/-! ### Guard messages (Trust R551) -/

/-- Bits of a window register that are fields (Express §10). -/
def winFields (v : Nat) : Bool := nbits v 62 48 == 0 && nbits v 31 26 == 0

/-- GUARD_WRITE: the standby bank whole, or nothing. -/
def execGuardWrite (s : State) : Host.Outcome State Fault Refusal :=
  .next (s.mbRun 0 0x10 144 fun m =>
    let p := m.f 8 1
    let b := m.f 9 1
    let period := m.f 0xC 4
    let raws := (List.range 16).map fun w => m.f (0x10 + 8 * w) 8
    if 1 < p || 1 < b || !m.zero 0xA 2 || 0xFFFF < period || !raws.all winFields then mbStatus s 1
    else if b == s.guardBank p || s.on (CPORT_GUARD_CTRL_SWITCH_PENDING p) then mbStatus s 9
    else if !winsValid (period + 1) raws then mbStatus s 10
    else
      let s := s.wrN (CPORT_GUARD_PERIOD p b) period
      let s := s.each (List.range 16) fun s w => s.wrN (CPORT_GUARD_WIN p b w) (raws.getD w 0)
      mbStatus (s.sealMsg m) 0)

/-- GUARD_SWITCH: arm a switch of banks at network round N. -/
def execGuardSwitch (s : State) : Host.Outcome State Fault Refusal :=
  .next (s.mbRun 0 0x11 24 fun m =>
    let p := m.f 8 1
    let n := m.f 0x10 8
    if 1 < p || !m.zero 9 7 then mbStatus s 1
    else if !s.on ROUND_STATUS_TIME_VALID || decide ((n : Int) < s.netRound + 10) || !s.bankValid p (1 - s.guardBank p) then mbStatus s 10
    else if s.on (CPORT_GUARD_CTRL_SWITCH_PENDING p) then mbStatus s 9
    else mbStatus (((s.wrN (CPORT_GUARD_SWITCH p) n).putB (CPORT_GUARD_CTRL_SWITCH_PENDING p) true).sealMsg m) 0)

/-- GUARD_ARM: ARMED and PTP_GAP_MS, in force from the next boundary. -/
def execGuardArm (s : State) : Host.Outcome State Fault Refusal :=
  .next (s.mbRun 0 0x12 16 fun m =>
    let p := m.f 8 1
    let armed := m.f 9 1
    if 1 < p || 1 < armed || !m.zero 0xB 5 then mbStatus s 1
    else if armed = 1 && s.on ERROR_STATUS_SAFE then mbStatus s 9
    else
      let v := Word.setBits (Word.setBits (s.rd (CPORT_GUARD_CTRL p)) 31 31 armed) 7 0 (m.f 0xA 1)
      mbStatus ((s.wrCfg (CPORT_GUARD_CTRL p) v.toNat).sealMsg m) 0)

/-! ### Keys, approvals, enrolment and lifecycle (Trust R552 to R554) -/

/-- The state of parcel key slot `i`: 0 EMPTY, 1 ACTIVE, 2 REVOKED. -/
def State.keyState (s : State) (i : Nat) : Nat := nbits (s.rdN SECURE_KEY_STATE) (2 * i + 1) (2 * i)

/-- Set the state of a parcel key slot. -/
def State.setKeyState (s : State) (i v : Nat) : State := s.put ⟨SECURE_KEY_STATE, 2 * i + 1, 2 * i⟩ v

/-- KEY_INSTALL. The event digest has the key bytes replaced by zeros (Trust R540). -/
def execKeyInstall (s : State) : Host.Outcome State Fault Refusal :=
  .next (s.mbRun 0 0x20 48 fun m =>
    let i := m.f 8 1
    if 15 < i || !m.zero 9 3 then mbStatus s 1
    else if s.keyState i = 1 then mbStatus s 9
    else
      let key := (m.bytes.drop 0x10).take 32
      let s := s.setTrust fun t => { t with keys := SMap.set (fun _ => none) t.keys i (some (m.f 0xC 4, key)) }
      let m0 : MbMsg := { m with bytes := m.bytes.take 0x10 ++ List.replicate 32 0 }
      mbStatus ((s.setKeyState i 1).sealMsg m0) 0)

/-- A parcel load that has begun decrypting with a key slot has not ended: bytes of it are still on their way to the allocations. -/
def State.slotLoads (s : State) (i : Nat) : Bool :=
  s.floor.runs.any fun r => r.keySlot == some i && s.memWaits r.ring r.seq && r.dists.all fun x => x.started == 0

/-- KEY_REVOKE. It waits while a parcel load with the slot has not ended. -/
def execKeyRevoke (s : State) : Host.Outcome State Fault Refusal :=
  .next (if (match s.mbHeld 0 with | some m => m.op == 0x21 && m.len == 16 && s.slotLoads (m.f 8 1) | none => false) then s else s.mbRun 0 0x21 16 fun m =>
    let i := m.f 8 1
    if 15 < i || !m.zero 9 7 then mbStatus s 1
    else
      let s := s.setTrust fun t => { t with keys := SMap.set (fun _ => none) t.keys i none }
      mbStatus ((s.setKeyState i 2).sealMsg m) 0)

/-- FABRIC_APPROVE: a region's approved list is replaced as a whole (Trust R553). -/
def execFabricApprove (s : State) : Host.Outcome State Fault Refusal :=
  .next (s.mbRun 0 0x22 24 fun m =>
    let g := m.f 8 1
    if 7 < g || !m.zero 9 7 then mbStatus s 1
    else s.mbImage m (m.f 0x10 8) 5 3080 fun h b =>
      let n := fieldLE b 1 1
      if b.length != 8 + 48 * n || 64 < n || !zeroAt b 2 6 || fieldLE b 0 1 != g then mbStatus s 3
      else
        let s := s.setFab fun z => { z with approved := SMap.set (fun _ => []) s.fab.approved g (rowsOf (b.drop 8) 48) }
        mbStatus (s.extendSeal 5 (imgDigest h) 5) 0)

/-- Fuses that do not read back as programmed (Trust R554): which of the bits of each word took is free. -/
def State.fuseFail (s : State) (l : List (Nat × Nat)) : MbAns :=
  mbStatus ((s.each l fun s e => (s.fuse e.1 (e.2 &&& s.free)).useFree).report { code := Code.SEC_FUSE_FAIL }) 11

/-- OWNER_ENROLL; `readOk` is whether the digest words read back as programmed. -/
def execOwnerEnroll (readOk : Bool) (s : State) : Host.Outcome State Fault Refusal :=
  .next (s.mbRun 0 0x30 16 fun m =>
    if s.rdN (SECURE_FUSE 4) % 16 != 1 || !(List.range 12).all (fun j => s.rdN (SECURE_FUSE (56 + j)) == 0) then mbStatus s 9
    else s.mbImage m (m.f 8 8) 6 1 fun h b =>
      if b.length != 1 then mbStatus s 3
      else
        let d := sha384 ((h.drop 0x100).take 0x800)
        let words := (List.range 12).map fun j => (56 + j, fieldLE d (4 * j) 4)
        if !readOk then s.fuseFail words
        else
          let s := s.each words fun s e => s.fuse e.1 e.2
          let s := s.fuse 4 (2 ^ 12 + (fieldLE b 0 1 % 2) * 2 ^ 13 + 2)
          mbStatus (s.extendSeal 6 (imgDigest h) 6) 0)

/-- REVOKE_VENDOR_KEY (Trust R533, R554). -/
def execRevokeVendorKey (readOk : Bool) (s : State) : Host.Outcome State Fault Refusal :=
  .next (s.mbRun 0 0x31 16 fun m =>
    s.mbImage m (m.f 8 8) 7 1 fun h b =>
      let v := fieldLE b 0 1
      let w := s.rdN (SECURE_FUSE 4)
      if b.length != 1 || 3 < v then mbStatus s 3
      else if v == fieldLE h 6 1 || (List.range 4).all (fun i => i == v || nbit w (8 + i)) then mbStatus s 9
      else if !readOk then s.fuseFail []
      else mbStatus ((s.fuse 4 (2 ^ (8 + v))).extendSeal 6 (imgDigest h) 7) 0)

/-- DEBUG_UNLOCK: bit 0 host-core machine mode, bit 1 the Opantith core, in RETURNED only. -/
def execDebugUnlock (s : State) : Host.Outcome State Fault Refusal :=
  .next (s.mbRun 0 0x32 16 fun m =>
    s.mbImage m (m.f 8 8) 8 1 fun h b =>
      let v := fieldLE b 0 1
      if b.length != 1 then mbStatus s 3
      else if nbit v 1 && s.rdN (SECURE_FUSE 4) % 16 != 7 then mbStatus s 9
      else
        let s := (s.setTrust fun t => { t with debug := t.debug ||| v % 4 })
        mbStatus ((s.putB SECURE_STATUS_DEBUG_UNLOCKED (s.trust.debug != 0)).extendSeal 6 (imgDigest h) 8) 0)

/-- LIFECYCLE_RETURN: the key store is erased and the lifecycle is RETURNED. -/
def execLifecycleReturn (readOk : Bool) (s : State) : Host.Outcome State Fault Refusal :=
  .next (s.mbRun 0 0x33 16 fun m =>
    s.mbImage m (m.f 8 8) 9 (2 ^ 32) fun h _ =>
      let s := s.setTrust fun t => { t with keys := [], certGone := true }
      let s := (s.wrN SECURE_KEY_STATE 0).setFab fun f => { f with approved := [] }
      if !readOk then s.fuseFail [(4, 7)]
      else mbStatus ((s.fuse 4 7).extendSeal 6 (imgDigest h) 9) 0)

/-! ### The thermal notification (Power states R490, Trust R556) -/

/-- The notification ends: the safe-state path goes on, and in the safe state held domains go OFF. -/
def State.notifyEnd (s : State) : State :=
  let s := s.setErr fun z => { z with notify := none, entry := s.err.entry.map fun (e : SafeEntry) => if e.code == Code.THERMAL_TRIP then { e with due := true } else e }
  if s.on ERROR_STATUS_SAFE then
    let held := (onesBelow (s.rdN POWER_SEC_HOLD) 24).filter fun i => s.dom i != 3
    if held.isEmpty then s else (s.each held fun s i => s.forceOff i).report { code := Code.PWR_SECURE_OVERRIDE }
  else s

/-- The secure world acknowledges by writing 1 to SEC_NOTIFY.THERMAL. -/
def State.notifyAck (s : State) (q : Req) : State :=
  if !s.path q then s
    else if !q.secure then s.report { code := Code.SEC_DENIED }
    else
      let s := s.putB SECURE_SEC_NOTIFY_THERMAL false
      if s.err.notify.isSome then s.notifyEnd else s

def execThermalNotifyAck (q : Req) (s : State) : Host.Outcome State Fault Refusal :=
  .next (s.landing q SECURE_SEC_NOTIFY fun s => s.notifyAck q)

/-- Twenty rounds after the notification the path goes on without an answer. -/
def execThermalNotifyTimeout (s : State) : Host.Outcome State Fault Refusal :=
  .next (match s.err.notify with
    | some n => if n + 20 ≤ s.round then s.notifyEnd else s
    | none => s)

end Sys2Proof.Machine
end

