-- ==== Sys2Proof/Machine/Firmware.lean ====
section
/-! DEFINITION. Firmware processors: loading and starting them, halts, watchdogs and the ledger (Firmware §2 to §4). -/

namespace Sys2Proof.Machine
open Reg

/-! ### FW_LOAD (Firmware §2) -/

/-- The processors that a TARGET starts. -/
def State.fwStarts (s : State) (t : Nat) : List Nat :=
  if t < 19 then [t] else ((List.range 16).filter fun d => s.domUp d).map (· + 3)

/-- Loads of two TARGETs exclude each other (Firmware R565, check 2). -/
def fwClash (a b : Nat) : Bool := a == b || (a == 19 && decide (3 ≤ b)) || (b == 19 && decide (3 ≤ a))

/-- A target owns something (Firmware R573). -/
def State.fwOwns (s : State) (t : Nat) : Bool :=
  if t = 0 then !s.floor.runs.isEmpty || s.floor.allocs.any fun e => !e.2.isEmpty
  else if t = 1 then !s.serve.sessions.isEmpty || (List.range 256).any fun n => s.slotState n != slotFree
  else t == 2 && (s.pwr.dev.isSome || s.pwr.devPend.isSome ||
    (List.range 24).any fun i => let x := s.pdom i; x.prep.isSome || x.trans.isSome || x.pend.isSome || x.idle.isSome)

/-- The load address range of a target, and the counter of its image (Firmware Table 17.1). -/
def fwRange (t : Nat) : Nat × Nat :=
  if t = 0 then (0x80000000, 0x80200000) else if t = 1 then (0x80000000, 0x80400000) else (0, 0x40000)
def fwCounter (t : Nat) : Nat := if t = 0 then 2 else if t = 1 then 5 else if t = 2 then 4 else 3

/-- Check 6 of Firmware R565: the offset of the first bad field of a header. -/
def State.fwHeader (s : State) (t len : Nat) (h : Bytes) : Option Nat :=
  let a := fieldLE h 0x18 8
  let e := fieldLE h 0x20 8
  let own : List (Nat × Bool) := [(0xC, fieldLE h 0xC 1 == fwCounter t), (0x10, len == 0x1800 + imgLen h),
    (0x18, decide ((fwRange t).1 ≤ a) && decide (a + imgLen h ≤ (fwRange t).2)), (0x20, decide (a ≤ e) && decide (e < a + imgLen h))]
  match (own.find? fun x => !x.2).map (·.1), s.imgHeader 4 (2 ^ 32) h with
  | some x, some y => some (min x y)
  | some x, none => some x
  | none, y => y

/-- Checks 1 to 5 of Firmware R565, then 6 and 7 where an image is named: its header, or why the load fails. -/
def State.fwChecks (s : State) (r : Nat) (e : Bytes) : Except (State × Nat × Nat) Bytes :=
  let f := s.ringFn r
  let t := fieldLE e 0x24 1
  let o := fieldLE e 0x25 1
  let len := fieldLE e 0x20 4
  let pm := decide (3 ≤ t) && decide (t ≤ 18)
  if f != 0 && f != 17 && f != 18 then .error (s, 0x8901, f)
  else if s.fw.loads.any fun l => fwClash l.target t then .error (s, 0x8902, t)
  else if !nbit o 0 && (s.fwStarts t).any fun p => 2 ≤ s.get (FIRMWARE_PROC_STATE_STATE p) then .error (s, 0x8903, t)
  else if pm && !s.domUp (t - 3) then .error (s, 0x8905, t - 3)
  else if pm && !s.on FIRMWARE_PM_STORE_VALID then .error (s, 0x8907, 0)
  else if nbit o 1 && s.fwOwns t then .error (s, 0x8908, t)
  else if pm then .ok []
  else match s.addrRead f (fieldLE e 0x18 8) 0x1800 with
    | .error x => .error (s.readFail x)
    | .ok h => match s.fwHeader t len h with
      | some off => .error (s, 0x8904, off)
      | none =>
        if !s.imgKey 4 h then .error (s, 0x0E, 3)
        else if !imgSignatures h then .error (s, 0x0E, 4)
        else if !s.imgFresh h then .error (s, 0x0E, 6)
        else .ok h

/-- Change the load of an envelope. -/
def State.setLoad (s : State) (r seq : Nat) (g : FwLoad → FwLoad) : State :=
  s.setFw fun f => { f with loads := f.loads.map fun l => if l.ring == r && l.seq == seq then g l else l }

/-- A load ends with a status. -/
def State.loadEnd (s : State) (l : FwLoad) (status result : Nat) : State :=
  (s.setFw fun f => { f with loads := f.loads.filter fun x => !(x.ring == l.ring && x.seq == l.seq) }).complete l.ring l.seq status result

/-- VERSION of what a load started: the image's, or the store's. -/
def State.loadVersion (s : State) (l : FwLoad) : Nat :=
  if 3 ≤ l.target && l.target ≤ 18 then s.get FIRMWARE_PM_STORE_VERSION else imgVersion l.header

/-- A begun load ends once every processor that it started has reported or failed (Firmware R566, R567). -/
def State.loadSettle (s : State) (l : FwLoad) : State :=
  if !(l.begun && l.waits.isEmpty) then s
  else if l.failed != 0 then s.loadEnd l 0x8906 (if l.target = 19 then l.failed / 8 else l.target)
  else match l.format with
    | some n => s.loadEnd l 0x8909 n
    | none => s.loadEnd l 0 (s.loadVersion l)

/-- A processor that a load started has reported, or will not: `g` notes how. -/
def State.loadReport (s : State) (p : Nat) (g : FwLoad → FwLoad) : State :=
  match s.fw.loads.find? fun l => l.begun && l.waits.contains p with
  | none => s
  | some l =>
    let l' := g { l with waits := l.waits.filter (· != p) }
    (s.setLoad l.ring l.seq fun _ => l').loadSettle l'

/-- Steps 5 and 6 of Firmware R566: hold areas are zeroed if asked, and the processors are released. A postmaster whose district has left ON meanwhile is
not: the restart of that postmaster has failed. -/
def State.loadRelease (s : State) (l : FwLoad) : State :=
  let ps := l.starts.filter fun p => p < 3 || s.domUp (p - 3)
  let s := if nbit l.options 1 then s.each l.starts fun s p =>
      (s.setFw fun f => { f with hold := SMap.set (fun _ => 0) f.hold p 0 }).put (FIRMWARE_PROC_STATE_HOLD_FORMAT p) 0 else s
  let s := s.each ps fun s p =>
    let s := if 3 ≤ p then s.setFw fun f => { f with mem := SMap.set (fun _ => (0, [])) f.mem p (0, f.store) } else s
    s.procRelease p (s.loadVersion l) (if l.header.isEmpty then 1 else 0)
  let l' := { l with begun := true, waits := ps, failed := if l.target < 19 && ps.isEmpty then 2 ^ l.target else 0 }
  (s.setLoad l.ring l.seq fun _ => l').loadSettle l'

/-- What a load writes: a processor's memory, or the postmaster store. -/
def State.loadInto (s : State) (t a version : Nat) (b : Bytes) : State :=
  if t = 19 then
    ((s.setFw fun f => { f with store := b }).put FIRMWARE_PM_STORE_VERSION version).putB FIRMWARE_PM_STORE_VALID (!b.isEmpty)
  else s.setFw fun f => { f with mem := SMap.set (fun _ => (0, [])) f.mem t (a, b) }

/-- A load fails after its target has been halted: the memory, or the store, is zero, and the target stays HALTED. -/
def State.loadSpoiled (s : State) (l : FwLoad) (status result : Nat) : State :=
  let s := s.loadInto l.target 0 0 []
  let s := if l.target < 3 then s.put (FIRMWARE_PROC_STATE_STATE l.target) 1 else s
  s.loadEnd l status result

/-- Steps 2 to 4 of Firmware R566: the body is copied and hashed, its digest compared, and seal 4 extended. -/
def State.loadBody (s : State) (l : FwLoad) (e : Bytes) : State :=
  let h := l.header
  match s.addrRead (s.ringFn l.ring) (fieldLE e 0x18 8 + 0x1800) (imgLen h) with
  | .error x => (s.readFail x).1.loadSpoiled l (s.readFail x).2.1 (s.readFail x).2.2
  | .ok b =>
    if sha384 b != (h.drop 0x30).take 48 then (s.report { code := Code.FW_LOAD_FAIL, unit := l.target }).loadSpoiled l 0x0E 5
    else ((s.loadInto l.target (fieldLE h 0x18 8) (imgVersion h) b).extendSeal 4 (imgDigest h) 4).loadRelease l

/-- The body of a load whose processors are halted is read at the class of its ring, and copied and released once its reads have been made (Firmware R568). A
restart from the store reads nothing. -/
def State.loadGo (s : State) (l : FwLoad) (e : Bytes) : State :=
  if l.header.isEmpty then s.loadRelease l
  else
    let a := fieldLE e 0x18 8
    let s := if l.reading || isHostAddr a then s
      else (s.ringTraffic l.ring l.seq (a + 0x1800) (imgLen l.header)).setLoad l.ring l.seq fun l => { l with reading := true }
    if s.memWaits l.ring l.seq then s else s.loadBody l e

/-- A started FW_LOAD: its checks, then the halts that it needs; once none is left, the copy and the release. It is given again after the boundary at
which the halts take effect, and while the reads of its body wait. -/
def State.fwLoad (s : State) (r seq : Nat) (e : Bytes) : State :=
  match s.fw.loads.find? fun l => l.ring == r && l.seq == seq with
  | some l => if l.begun || !l.waits.isEmpty then s else s.loadGo l e
  | none =>
    match s.fwChecks r e with
    | .error x => x.1.complete r seq x.2.1 x.2.2
    | .ok h =>
      let t := fieldLE e 0x24 1
      let ps := (s.fwStarts t).filter fun p => 2 ≤ s.get (FIRMWARE_PROC_STATE_STATE p)
      let l : FwLoad := ⟨r, seq, t, fieldLE e 0x25 1, h, false, false, ps, 0, none, s.fwStarts t⟩
      let s := if h.isEmpty || isHostAddr (fieldLE e 0x18 8) then s else s.ringTraffic r seq (fieldLE e 0x18 8) 0x1800
      let s := if t = 19 then s.putB FIRMWARE_PM_STORE_VALID false else s
      let s := s.setFw fun f => { f with loads := f.loads ++ [l], halts := f.halts ++ ps.map fun p => (p, 1) }
      if ps.isEmpty then s.loadGo l e else s

/-- The FW_LOAD of an envelope, for the TARGETs that a command covers. -/
def State.fwCommand (s : State) (r seq : Nat) (mine : Nat → Bool) : State :=
  match s.startedOf r seq 9 with
  | some f => if mine (fieldLE f.env 0x24 1) then s.fwLoad r seq f.env else s
  | none => s

def execFwLoadProcessor (r : Ring) (seq : Nat) (s : State) : Host.Outcome State Fault Refusal :=
  .next (s.fwCommand r seq fun t => decide (t < 3))

def execFwRestartPostmaster (r : Ring) (seq : Nat) (s : State) : Host.Outcome State Fault Refusal :=
  .next (s.fwCommand r seq fun t => decide (3 ≤ t) && decide (t ≤ 18))

def execFwLoadStore (r : Ring) (seq : Nat) (s : State) : Host.Outcome State Fault Refusal :=
  .next (s.fwCommand r seq fun t => t == 19)

/-! ### Reports of started processors (Firmware R567) -/

/-- A processor reports READY: it runs, and its start is in the ledger. A restarted marshal ends the requests it finds. -/
def State.fwReady (s : State) (p format : Nat) : State :=
  let s := (s.put (FIRMWARE_PROC_STATE_STATE p) 4).put (FIRMWARE_PROC_STATE_HOLD_FORMAT p) format
  let s := s.setFw fun f => { f with
    released := SMap.set (fun _ => none) f.released p none
    hold := SMap.set (fun _ => 0) f.hold p format
    kick := SMap.set (fun _ => 0) f.kick p s.round }
  let s := if 3 ≤ p then s.pmSync (p - 3) else if p = 1 then s.serveRestart else s
  let s := s.ledger { source := p, type := 3, id := 0, a0 := s.rdN (FIRMWARE_PROC_VERSION p),
                      a1 := SMap.get (fun _ => 0) s.fw.cause p, a2 := format }
  s.loadReport p fun l => l

/-- A processor writes its result code in its start mailbox: 1 READY, with the format of the hold half in use, or 2 HOLD_FORMAT, with the format
that it found and does not accept. -/
def execFwReady (p : Fin 19) (code format : Nat) (s : State) : Host.Outcome State Fault Refusal :=
  .next (if s.get (FIRMWARE_PROC_STATE_STATE p) != 3 then s
    else if code = 1 then s.fwReady p (format % 65536)
    else if code = 2 then
      let s := (s.procStop p 5).put (FIRMWARE_PROC_STATE_HOLD_FORMAT p) format
      (s.report { code := Code.FW_HOLD_FORMAT, unit := p }).loadReport p fun l => { l with format := some (format % 65536) }
    else s)

/-- Rounds in which a started processor must report: values outside 1,000 to 1,000,000 read as 100,000 (Firmware §7). -/
def State.readyLimit (s : State) : Nat :=
  let n := (s.act FIRMWARE_FW_READY_LIMIT).toNat
  if decide (1000 ≤ n) && decide (n ≤ 1000000) then n else 100000

def execFwStartFail (p : Fin 19) (s : State) : Host.Outcome State Fault Refusal :=
  .next (match SMap.get (fun _ => none) s.fw.released p.val with
    | some n =>
      if s.get (FIRMWARE_PROC_STATE_STATE p) = 3 && decide (n + s.readyLimit < s.round) then
        ((s.procStop p 4).report { code := Code.FW_START_FAIL, unit := p }).loadReport p fun l => { l with failed := l.failed ||| 2 ^ p.val }
      else s
    | none => s)

/-! ### Halts and watchdogs (Firmware R571, R574) -/

/-- A write of 1 to PROC_CTRL.HALT: the processor halts at the next boundary. The steward's is accepted from the secure world alone (R584). -/
def State.procHalt (s : State) (q : Req) (p : Nat) : State :=
  if !q.pfOrHost || !(s.spineUp || p == 2) then s
    else if p = 2 && !q.secure then s.report { code := Code.SEC_DENIED }
    else
      let s := s.report { code := Code.FW_HALTED, unit := p }
      if 2 ≤ s.get (FIRMWARE_PROC_STATE_STATE p) then
        (s.putB (FIRMWARE_PROC_CTRL_HALT p) true).setFw fun f => { f with halts := f.halts ++ [(p, 2)] }
      else s

def execProcHalt (q : Req) (p : Fin 19) (s : State) : Host.Outcome State Fault Refusal :=
  .next (s.landing q (FIRMWARE_PROC_CTRL p) fun s => s.procHalt q p)

/-- A processor writes its WDOG_KICK, a register of its own that no map of BAR0 lists (log entry 145). -/
def execWdogKick (p : Fin 19) (s : State) : Host.Outcome State Fault Refusal :=
  .next (if 3 ≤ s.get (FIRMWARE_PROC_STATE_STATE p) then s.setFw fun f => { f with kick := SMap.set (fun _ => 0) f.kick p.val s.round } else s)

/-- A processor that has not kicked within WDOG_ROUNDS rounds is halted. -/
def execFwWatchdog (p : Fin 19) (s : State) : Host.Outcome State Fault Refusal :=
  .next (let w := s.cfg (FIRMWARE_PROC_CTRL_WDOG_ROUNDS p)
    if 3 ≤ s.get (FIRMWARE_PROC_STATE_STATE p) && w != 0 && decide (SMap.get (fun _ => 0) s.fw.kick p.val + w < s.round) &&
      !(s.fw.halts.any fun h => h.1 == p.val && h.2 == 3)
    then ((s.putB (FIRMWARE_PROC_STATE_WDOG p) true).report { code := Code.FW_WATCHDOG, unit := p }).setFw fun f =>
      { f with halts := f.halts ++ [(p.val, 3)] }
    else s)

/-- At a boundary the halts take effect; a processor that a load has halted is LOADING, and one that a load started and that is no longer
STARTING fails to start. -/
def State.fwBoundary (s : State) : State :=
  let s := s.each s.fw.halts fun s h =>
    let s := if 2 ≤ s.get (FIRMWARE_PROC_STATE_STATE h.1) then s.procStop h.1 h.2 else s
    s.setFw fun f => { f with loads := f.loads.map fun l => if l.begun then l else { l with waits := l.waits.filter (· != h.1) } }
  let s := s.setFw fun f => { f with halts := [] }
  s.each s.fw.loads fun s l =>
    if l.begun then s.each l.waits fun s p =>
      if s.get (FIRMWARE_PROC_STATE_STATE p) = 3 then s else s.loadReport p fun l => { l with failed := l.failed ||| 2 ^ p }
    else if l.target < 3 && s.get (FIRMWARE_PROC_STATE_STATE l.target) = 1 then s.put (FIRMWARE_PROC_STATE_STATE l.target) 2
    else s

/-! ### The ledger (Firmware §4) -/

/-- A processor writes a log message, of LEVEL at or below the configured one, or a stamp, while its bit of the mask is 1 (Firmware R577). -/
def execLedgerEntry (p : Fin 19) (mark : Bool) (id level a0 a1 a2 t : Nat) (s : State) : Host.Outcome State Fault Refusal :=
  .next (let s := s.atNs t
    if s.get (FIRMWARE_PROC_STATE_STATE p) < 3 then s
    else if mark then
      if (s.act FIRMWARE_LEDGER_STAMP_MASK).getLsbD p then s.ledger { source := p, type := 1, id := id, a0 := a0, a1 := a1, a2 := a2 } else s
    else if level % 4 ≤ s.cfg FIRMWARE_LEDGER_CFG_LEVEL then
      s.ledger { source := p, type := 0, id := id, level := level % 4, a0 := a0, a1 := a1, a2 := a2 }
    else s)

/-- LEDGER_TAIL := v, under the test of Envelopes R82 with LEDGER_HEAD in place of RET_TAIL. -/
def State.ledgerTail (s : State) (q : Req) (v : Nat) : State :=
  if !q.pfOrHost || !s.spineUp then s
    else if cdiff v (s.rdN FIRMWARE_LEDGER_TAIL) ≤ cdiff (s.rdN FIRMWARE_LEDGER_HEAD) (s.rdN FIRMWARE_LEDGER_TAIL) then
      s.wrN FIRMWARE_LEDGER_TAIL (v % 2 ^ 32)
    else s.report { code := Code.LEDGER_BUSY }

def execLedgerTailWrite (q : Req) (v : Nat) (s : State) : Host.Outcome State Fault Refusal :=
  .next (s.landing q FIRMWARE_LEDGER_TAIL fun s => s.ledgerTail q v)

end Sys2Proof.Machine
end

