-- ==== Sys2Proof/Machine/Errors.lean ====
section
/-! DEFINITION. Handling of error records, injection, and the safe state: entry, its actions, and exit (Errors §3, §5 to §7). -/

namespace Sys2Proof.Machine
open Reg

/-- Who may write the ERROR registers (Errors R606), and who may request an exit (R604). -/
def Req.writesErrors (q : Req) : Bool := q.pfOrHost || q == .opantith
def Req.mayExit (q : Req) : Bool := q == .pf || q.secure

/-! ### Acknowledgement and injection (Errors R595, R606) -/

/-- The current record is retired if its SEQ is written; any other value is discarded. -/
def State.errAck (s : State) (q : Req) (v : Nat) : State :=
  if Req.writesErrors q && s.path q && s.err.cur == some v then
      State.errSelect (s.setErr fun z => { z with recs := s.err.recs.filter fun r => r.seq != v, cur := none })
    else s

def execAck (q : Req) (v : Nat) (s : State) : Host.Outcome State Fault Refusal :=
  .next (s.landing q ERROR_ACK fun s => s.errAck q v)

/-- INJECT reports a code with the action of its class alone; a THERMAL_TRIP in the safe state has its thermal effect. -/
def State.inject (s : State) (q : Req) (v : Nat) : State :=
  if !s.path q then s
    else if !q.secure then s.report { code := Code.SEC_DENIED }
    else (s.report { code := v % 65536, unit := nbits v 31 16, injected := true }).safeThermal

def execInject (q : Req) (v : Nat) (s : State) : Host.Outcome State Fault Refusal :=
  .next (s.landing q ERROR_INJECT fun s => s.inject q v)

/-! ### Entry to the safe state (Errors R600 to R602) -/

/-- SAFE_CTRL.REQUEST reports SAFE_REQUESTED. -/
def State.safeRequest (s : State) (q : Req) : State :=
  if Req.writesErrors q && s.path q then s.report { code := Code.SAFE_REQUESTED } else s

def execSafeRequest (q : Req) (s : State) : Host.Outcome State Fault Refusal :=
  .next (s.landing q ERROR_SAFE_CTRL fun s => s.safeRequest q)

/-- SAFE_CTRL.NOW ends orderly entry at once; outside orderly entry it is discarded. -/
def State.safeNow (s : State) (q : Req) : State :=
  if Req.writesErrors q && s.path q then (s.setErr fun z => { z with entry := s.err.entry.map fun (e : SafeEntry) => { e with due := true } }) else s

def execSafeNow (q : Req) (s : State) : Host.Outcome State Fault Refusal :=
  .next (s.landing q ERROR_SAFE_CTRL fun s => s.safeNow q)

/-- An instant of Errors Table 18.4 has come. -/
def State.entryEnds (s : State) (e : SafeEntry) : Bool :=
  e.due || (e.code != Code.THERMAL_TRIP && e.code != Code.GUARD_DISAGREE && e.code != Code.CLOCK_FAIL && decide (e.round + e.grace ≤ s.round))

/-- Step 3 of Errors Table 18.5: the floor halts, every ring is aborted, and the floor supervisor and the serving marshal halt. -/
def State.safeFloor (s : State) : State :=
  let s := s.each (List.range 16) fun s d => if (s.dunit d).isSome then s.closeUnit d else s
  let s := s.each s.liveRings fun s r => if s.ringState r = 3 then s else s.ringAbort r
  let s := s.each s.floor.runs fun s x => s.failRun x.ring x.seq 9 0
  s.each [0, 1] fun s p => if 2 ≤ s.get (FIRMWARE_PROC_STATE_STATE p) then s.procStop p 2 else s

/-- Step 4: a switched domain goes OFF; one that the secure world holds stops its clocks and stays powered, unless a thermal notification has
ended; PD_PCIE stays ON but for a thermal trip. -/
def State.safeDomain (s : State) (mid : List Nat) (i : Nat) : State :=
  if s.dom i = 3 then s
  else if i = 21 && !s.err.thermal then s
  else if nbit (s.rdN POWER_SEC_HOLD) i && !(s.err.thermal && s.err.notify.isNone) then (if s.dom i = 0 then s.setDom i 1 else s)
  else s.openDomain mid i

/-- The safe state is reached (Errors Table 18.5). -/
def State.safeReached (s : State) : State :=
  let s := (s.silence 0).silence 1
  let s := s.each (List.range 24) fun s i => s.latchPads i
  let s := s.safeFloor
  let held := (onesBelow (s.rdN POWER_SEC_HOLD) 24).any fun i => s.dom i != 3
  let mid := s.midStep
  let s := s.dropRequests
  let s := s.each (List.range 24) fun s i => s.safeDomain mid i
  let s := s.setErr fun z => { z with entry := none }
  let s := ((s.putB ERROR_STATUS_SAFE true).putB ERROR_STATUS_ENTERING false).wrN ERROR_SAFE_ROUND s.round
  let s := (s.addSat ERROR_SAFE_COUNT 1).safeThermal
  if held && s.err.thermal && s.err.notify.isNone then s.report { code := Code.PWR_SECURE_OVERRIDE } else s

/-- Orderly entry ends at the first instant that Errors Table 18.4 gives, or at a nested FATAL (R601). -/
def execSafeStateReached (t : Nat) (s : State) : Host.Outcome State Fault Refusal :=
  .next (match s.err.entry with
    | some e => if s.entryEnds e then (s.atNs t).safeReached else s
    | none => s)

/-! ### Leaving the safe state (Errors R604, R605) -/

/-- The temperature conditions of Power cap R520: after a trip by a comparator (an injected one involves no sensor, Errors §9), a valid sensor above 95 °C or
the HXP above 105 °C. Clearing THERMAL_STATUS.TRIPPED lifts neither. -/
def State.tooHot (s : State) : Bool :=
  s.err.tripped &&
    (decide (840 < tempOf (s.get MONITOR_HXP_TEMP_TEMP)) ||
      (List.range 48).any fun m => s.on (MONITOR_TEMP_VALID m) && decide (760 < tempOf (s.get (MONITOR_TEMP_READING m))))

/-- The lowest-numbered condition of Errors Table 18.6 that holds, but for the self-test. -/
def State.exitBar (s : State) : Nat :=
  if s.err.recs.any fun r => r.cls == 3 then 1
  else if s.tooHot then 2
  else if s.err.windows.any fun b => b then 3
  else if s.err.entry.isSome then 5
  else 0

/-- An exit is refused. -/
def State.exitRefused (s : State) (k : Nat) : State := (s.put ERROR_SAFE_STATUS_REFUSE k).report { code := Code.SAFE_EXIT_REFUSED }

/-- SAFE_CTRL.EXIT is refused, or runs the guard self-test; `disagree` is what the self-test will find. -/
def State.safeExit (s : State) (q : Req) (disagree : Bool) : State :=
  if !Req.mayExit q || !s.path q || !(s.on ERROR_STATUS_SAFE || s.err.entry.isSome) || s.err.exitTest.isSome || s.err.exitAccepted.isSome then s
    else if s.exitBar != 0 then s.exitRefused s.exitBar
    else (s.setErr fun z => { z with exitTest := some (s.round, disagree) })

def execSafeExit (q : Req) (disagree : Bool) (s : State) : Host.Outcome State Fault Refusal :=
  .next (s.landing q ERROR_SAFE_CTRL fun s => s.safeExit q disagree)

/-- The guard self-test ends after 2 rounds: the exit is refused with condition 4, or accepted. -/
def State.errBoundary (s : State) : State :=
  match s.err.exitTest with
  | some (n, bad) =>
    if n + 2 ≤ s.round then
      let s := s.setErr fun z => { z with exitTest := none }
      if bad then s.exitRefused 4 else (s.setErr fun z => { z with exitAccepted := some s.round })
    else s
  | none => s

/-- An accepted exit acts at the next round boundary: SPINE and every switched domain are reset, and each guard stays SILENT and not ARMED. -/
def execSafeExitApply (s : State) : Host.Outcome State Fault Refusal :=
  .next (match s.err.exitAccepted with
    | some n =>
      if n < s.round then
        let s := (s.spineReset 6).setErr fun z => { z with exitAccepted := none, entry := none, thermal := false, tripped := false, notify := none }
        let s := s.each [0, 1] fun s p => (s.putB (CPORT_GUARD_CTRL_ARMED p) false).putB (CPORT_GUARD_CTRL_SILENT p) true
        ((s.putB ERROR_STATUS_SAFE false).putB ERROR_STATUS_ENTERING false).report { code := Code.SAFE_LEFT }
      else s
    | none => s)

/-! ### The clock monitor (Errors R688) -/

/-- A window of the clock monitor: the deviation of the reference that it measures, in ppm; `none` for a reference that has stopped. -/
def execClockMonitorWindow (ppm : Option Int) (s : State) : Host.Outcome State Fault Refusal :=
  .next (let bad := match ppm with
      | some d => decide (d < -1000) || decide (1000 < d)
      | none => true
    let n := if bad then min 11 (s.err.badRun + 1) else 0
    let s := s.setErr fun z => { z with badRun := n, windows := (bad :: s.err.windows).take 1000 }
    if n = 10 then s.report { code := Code.CLOCK_FAIL } else s)

end Sys2Proof.Machine
end

