-- ==== Sys2Proof/Machine/Links.lean ====
section
/-! DEFINITION. The PCIe endpoint, the plant ports and the relay link (Links). -/

namespace Sys2Proof.Machine
open Reg

/-! ### BAR4 (Links R610, R611) -/

/-- What a BAR4 access is answered. -/
def State.bar4Answer (s : State) (a : MemAns) : State := s.setLinks fun l => { l with bar4 := l.bar4 ++ [a] }

/-- A BAR4 access of `n` bytes at an offset, or a write of bytes: it acts for function 0. WINDOW values that reach nothing name an unpopulated range.
It is served at HOST_CLASS, and held while a unit runs in the district that it reaches. -/
def State.bar4 (s : State) (off n : Nat) (w : Option Bytes) : State :=
  let k := s.get GLOBAL_BAR4_SEL_WINDOW
  let cls := s.cfg MEMCTL_HOST_CLASS_CLASS
  let a := k * 0x1000000000 + off
  let n := match w with | some b => b.length | none => n
  if n = 0 || 0x1000000000 < off + n || !s.spineUp || !s.domUp 21 then s
  else match (if [0, 1, 8].contains k then s.fnCheck 0 a n else some (.unpopulated a)) with
    | some e => (s.accReport e).bar4Answer .refused
    | none =>
      if inSram a n then s.sramAccess cls a (match w with | some b => .write b | none => .read n) .bar4
      else match w with
        | some b => ((s.portWrite cls none meshHost a n).store a b).bar4Answer .written
        | none =>
          let s := s.portRead cls none meshHost a n
          s.bar4Answer (if s.poisoned a n then .poison else .data (s.rdMem a n))

def execBar4Access (off n : Nat) (w : Option Bytes) (s : State) : Host.Outcome State Fault Refusal := .next (s.bar4 off n w)

/-! ### Wake, PERST# and the link (Links §2, §3) -/

/-- A PF write of 1 to HOST_WAKE while PD_PCIE is ON. -/
def State.hostWake (s : State) (q : Req) (v : Nat) : State :=
  if q == .pf && s.spineUp && nbit v 0 && s.domUp 21 then s.wakeEvent 1 else s

def execHostWake (q : Req) (v : Nat) (s : State) : Host.Outcome State Fault Refusal :=
  .next (s.landing q GLOBAL_HOST_WAKE fun s => s.hostWake q v)

/-- The link leaves L0. -/
def State.linkGone (s : State) : State := (s.putB GLOBAL_PCIE_STATUS_LINK_UP false).put GLOBAL_PCIE_STATUS_GEN 0 |>.put GLOBAL_PCIE_STATUS_WIDTH 0

/-- PERST# is asserted: a function-level reset of the PF, then a reset of PD_PCIE (Links R618). -/
def execPerstAssert (s : State) : Host.Outcome State Fault Refusal :=
  .next (if s.links.perst then s
    else
      let s := s.setLinks fun l => { l with perst := true }
      let s := if s.spineUp then s.flr 0 else s
      if s.dom 21 != 3 then ((s.linkGone).resetRegs (domainReg 21)).setLinks fun l => { l with masked := [] } else s)

/-- PERST# is deasserted: an in-band wake (Links R613). -/
def execPerstDeassert (s : State) : Host.Outcome State Fault Refusal :=
  .next (if s.links.perst then (s.setLinks fun l => { l with perst := false }).wakeEvent 1 else s)

/-- The data link layer goes down: every PCIe function is reset, unless PD_PCIE is on its way out of ON (Links R617). -/
def State.pcieDown (s : State) : State :=
  if !s.on GLOBAL_PCIE_STATUS_LINK_UP then s
  else
    let s := s.linkGone
    if s.domUp 21 && (match (s.pdom 21).trans with | some t => decide (t.target ≤ 1) | none => true) then
      (s.flr 0).report { code := Code.PCIE_LINK_DOWN }
    else s

def execPcieLinkDown (s : State) : Host.Outcome State Fault Refusal := .next s.pcieDown

/-- The link reaches L0 at a speed no higher than MAX_GEN, whose values outside 1 to 5 read as 5; WAKE# is no longer driven (Links R614, R615). -/
def execPcieLinkUp (gen : Fin 6) (width : Nat) (s : State) : Host.Outcome State Fault Refusal :=
  .next (let m := s.get GLOBAL_PCIE_CTRL_MAX_GEN
    let top := if decide (1 ≤ m) && decide (m ≤ 5) then m else 5
    if s.links.perst || s.on GLOBAL_PCIE_STATUS_LINK_UP || !s.domUp 21 || gen.val = 0 || top < gen.val || ! [1, 2, 4].contains width then s
    else (((s.putB GLOBAL_PCIE_STATUS_LINK_UP true).put GLOBAL_PCIE_STATUS_GEN gen).put GLOBAL_PCIE_STATUS_WIDTH width).setLinks fun l =>
      { l with wakePin := false })

/-- A request of the device's own fails with a status: an envelope that has started, or its fetch; or a ledger write. -/
def State.hitFails (s : State) (h : PcieHit) (status : Nat) : State :=
  match h with
  | .envelope r seq =>
    match s.flight r seq with
    | some f =>
      if f.stage == .started then (if (s.runSt r seq).isSome then s.failRun r seq status 0 else s.complete r seq status 0)
      else if f.stage == .fetched then s.setFlight r seq fun f => { f with fetchFail := status } else s
    | none => s
  | .ledger => if s.on FIRMWARE_LEDGER_CFG_EN then s.ledgerOff.report { code := Code.LEDGER_FAULT } else s
  | .other => s

/-- A PCIe error of function `f` (Links Table 19.2). -/
def execPcieError (f : Fin 17) (e : PcieErr) (hit : PcieHit) (s : State) : Host.Outcome State Fault Refusal :=
  .next (if !s.domUp 21 then s
    else match e with
      | .correctable => (s.addSat GLOBAL_PCIE_CORR_COUNT 1).report { code := Code.PCIE_CORR, unit := f }
      | .timeout => ((s.addSat GLOBAL_PCIE_UNCORR_COUNT 1).report { code := Code.PCIE_UNCORR, unit := f }).hitFails hit 3
      | .poisoned => ((s.addSat GLOBAL_PCIE_UNCORR_COUNT 1).report { code := Code.PCIE_UNCORR, unit := f }).hitFails hit 0x0A
      | .malformed => (s.addSat GLOBAL_PCIE_UNCORR_COUNT 1).report { code := Code.PCIE_UNCORR, unit := f }
      | .fatal => s.pcieDown)

/-! ### Plant ports (Links §5) -/

/-- The registers of a queue: its base, and the offsets of the others from it. -/
def plantQ (n : Nat) (tx : Bool) (q : Nat) : Nat := if tx then PLANT_TXQ_BASE n q else PLANT_RXQ_BASE n q

/-- The index of a queue among the sources of signals (Envelopes Table 3.10): 8 × port + 4 × direction + queue. -/
def qRank (b : Nat) : Nat := 8 * ((b - 0x800000) / 0x1000) + (if 0x800 ≤ b % 0x1000 then 4 else 0) + b % 0x400 / 0x40

/-- A field of a queue's CFG. -/
def State.qCfg (s : State) (b hi lo : Nat) : Nat := s.get ⟨b + 8, hi, lo⟩

/-- Descriptors of a queue: values of LOG2_SIZE outside 6 to 12 read as 6. -/
def State.qSize (s : State) (b : Nat) : Nat :=
  let l := s.qCfg b 19 16
  2 ^ (if decide (6 ≤ l) && decide (l ≤ 12) then l else 6)

/-- A queue has a posted descriptor (Links R622). -/
def State.qPosted (s : State) (b : Nat) : Bool := s.qCfg b 31 31 == 1 && s.rdN (b + 0xC) != s.rdN (b + 0x10)

/-- Where the next descriptor to complete lies. -/
def State.qDesc (s : State) (b : Nat) : Nat :=
  s.get ⟨b, 63, 12⟩ * 4096 + 16 * (s.rdN (b + 0x10) % s.qSize b) + (if s.bit b 0 then 2 ^ 63 else 0)

/-- Traffic of a queue, at the class of its CFG, with the router of district 12 (Links R626). -/
def State.qTraffic (s : State) (b : Nat) (write : Bool) (a n : Nat) : State :=
  if isHostAddr a then s else if write then s.portWrite (s.qCfg b 21 20) none meshPlant a n else s.portRead (s.qCfg b 21 20) none meshPlant a n

/-- A descriptor completes: it is written back, HEAD advances, the receipt is signalled with the new HEAD, and an interrupt follows (Links R626). -/
def State.qDone (s : State) (b : Nat) (back : Bytes) : State :=
  let f := s.qCfg b 28 24
  let s := ((s.qTraffic b true (s.qDesc b + 8) 8).addrWrite f (s.qDesc b + 8) back).1
  let h := (s.rdN (b + 0x10) + 1) % 2 ^ 32
  let s := s.wrN (b + 0x10) h
  let i := s.get ⟨b + 0x14, 16, 0⟩
  let s := if s.bit (b + 0x14) 31 && s.maySignal f i then s.signal (7, qRank b) i true h else s
  if s.qCfg b 30 30 = 1 then s.irqTo f (s.qCfg b 10 0) 0x80 else s

/-- Octets of a destination address register, the first in bits [47:40]. -/
def daOf (b : Bytes) : Nat := beNat (b.take 6)

/-- The queue that a frame goes to (Links R624). -/
def State.plantQueue (s : State) (n : Nat) (b : Bytes) : Option Nat :=
  match (List.range 16).find? fun i => s.cfgOn (PLANT_FILTER_EN n i) && s.cfg (PLANT_FILTER_DA n i) == daOf b with
  | some i => some (s.cfg (PLANT_FILTER_QUEUE n i))
  | none => if daOf b == s.cfg (PLANT_MAC_ADDR_ADDR n) || daOf b == 2 ^ 48 - 1 || s.cfgOn (PLANT_PORT_CFG_PROMISC n) then some 0 else none

/-- The longest frame of a port, without FCS. -/
def State.plantMax (s : State) (n : Nat) : Nat := if s.cfgOn (PLANT_PORT_CFG_JUMBO n) then 9212 else 1518

/-- A port carries frames. -/
def State.plantUp (s : State) (n : Nat) : Bool := s.domUp 23 && s.cfgOn (PLANT_PORT_CFG_ENABLE n) && s.on (PLANT_STATUS_LINK n)

/-- A frame is stored in the buffer of the next descriptor, or dropped. -/
def State.plantStore (s : State) (n b : Nat) (x : Bytes) : State :=
  if !s.qPosted b then s.addSat (PLANT_RX_DROP n) 1
  else
    let f := s.qCfg b 28 24
    match s.addrRead f (s.qDesc b) 16 with
    | .error e => (s.accReport e).addSat (PLANT_RX_DROP n) 1
    | .ok d =>
      let cap := fieldLE d 8 2
      let vlan := beNat ((x.drop 12).take 2) == 0x8100
      let flags := 2 ^ 15 + (if vlan then 4 else 0) + (if cap < x.length then 2 else 0)
      let s := s.qTraffic b false (s.qDesc b) 16
      let s := if x.take cap == [] then s else ((s.qTraffic b true (fieldLE d 0 8) (min cap x.length)).addrWrite f (fieldLE d 0 8) (x.take cap)).1
      ((s.add64 (PLANT_RX_FRAMES n) 1).qDone b) (leBytes 2 x.length ++ leBytes 2 flags ++ leBytes 2 (if vlan then beNat ((x.drop 14).take 2) else 0) ++ [0, 0])

/-- A frame arrives on a plant port, without its FCS; a wrong FCS, a PAUSE frame and a length the port does not support discard it. -/
def execPlantFrameReceive (n : Fin 2) (frame : Bytes) (fcs : Bool) (s : State) : Host.Outcome State Fault Refusal :=
  .next (if !s.plantUp n || !fcs || frame.length < 60 || s.plantMax n < frame.length || beNat ((frame.drop 12).take 2) == 0x8808 then s
    else match s.plantQueue n frame with
      | some q => s.plantStore n (plantQ n false q) frame
      | none => s)

/-- The next transmit queue in rotation with a posted descriptor (Links R625). -/
def State.nextTx (s : State) (n : Nat) : Option Nat :=
  let last := SMap.get (fun _ => 3) s.links.lastQ n
  ((List.range 4).map fun i => (last + 1 + i) % 4).find? fun q => s.qPosted (plantQ n true q)

/-- One frame of the next queue is sent; a length out of range, or a frame that cannot be read, completes its descriptor with ERR. -/
def execPlantFrameTransmit (n : Fin 2) (s : State) : Host.Outcome State Fault Refusal :=
  .next (if !s.plantUp n then s
    else match s.nextTx n with
      | none => s
      | some q =>
        let b := plantQ n true q
        let f := s.qCfg b 28 24
        let s := s.setLinks fun l => { l with lastQ := SMap.set (fun _ => 3) l.lastQ n.val q }
        match s.addrRead f (s.qDesc b) 16 with
        | .error e => (s.accReport e).qDone b (leBytes 8 (2 ^ 16 * 0x8001))
        | .ok d =>
          let len := fieldLE d 8 2
          let s := s.qTraffic b false (s.qDesc b) 16
          let back : Nat → Bytes := fun fl => leBytes 2 len ++ leBytes 2 fl ++ (d.drop 12).take 4
          if len < 60 || s.plantMax n < len then s.qDone b (back 0x8001)
          else match s.addrRead f (fieldLE d 0 8) len with
            | .error e => (s.accReport e).qDone b (back 0x8001)
            | .ok x => ((((s.qTraffic b false (fieldLE d 0 8) len).setLinks fun l => { l with sent := l.sent ++ [(n.val, x)] }).add64 (PLANT_TX_FRAMES n) 1).qDone b) (back 0x8000))

/-- Q_TAIL := v, unless more than the queue's size would be posted (Links §9). -/
def State.qTail (s : State) (q : Req) (n : Nat) (tx : Bool) (i v : Nat) : State :=
  let b := plantQ n tx i
    if !q.pfOrHost || !s.spineUp || !s.domUp 23 || s.qSize b < cdiff v (s.rdN (b + 0x10)) then s else s.wrN (b + 0xC) (v % 2 ^ 32)

def execQTailWrite (q : Req) (n : Fin 2) (tx : Bool) (i : Fin 4) (v : Nat) (s : State) : Host.Outcome State Fault Refusal :=
  .next (s.landing q (if tx then PLANT_TXQ_TAIL n i else PLANT_RXQ_TAIL n i) fun s => s.qTail q n tx i v)

/-- A plant link comes up at a speed that the port advertises, or goes down (Links R627). -/
def execPlantLink (n : Fin 2) (speed : Fin 4) (s : State) : Host.Outcome State Fault Refusal :=
  .next (let up := speed.val != 0
    if !s.domUp 23 || (up && !(s.cfgOn (PLANT_PORT_CFG_ENABLE n) && nbit (s.cfg (PLANT_PORT_CFG_ADV n)) (speed.val - 1))) ||
        s.on (PLANT_STATUS_LINK n) == up then s
    else ((s.putB (PLANT_STATUS_LINK n) up).put (PLANT_STATUS_SPEED n) speed).report { code := Code.PLANT_LINK, unit := n })

/-! ### Relay training (Links §6) -/

/-- Training begins. -/
def State.relayTrain (s : State) : State := (s.put RELAY_STATUS_STATE 1).setRelay fun x => { x with trainRound := s.round }

/-- A write of CFG with ENABLE 1: training starts. MODULE, SIZE and CLASS are taken only while ENABLE is 0; CLASS 0 reads as 2, and SIZE outside 1 to 4
as 1. -/
def State.relayEnable (s : State) (q : Req) (v : Nat) : State :=
  if !q.pfOrHost || !s.spineUp || !s.domUp 22 || !nbit v 31 || s.on RELAY_CFG_ENABLE then s
  else
    let cls := if nbits v 9 8 = 0 then 2 else nbits v 9 8
    let size := if decide (1 ≤ nbits v 7 4) && decide (nbits v 7 4 ≤ 4) then nbits v 7 4 else 1
    (s.wrN RELAY_CFG (2 ^ 31 + 256 * cls + 16 * size + v % 16)).relayTrain

def execRelayEnable (q : Req) (v : Nat) (s : State) : Host.Outcome State Fault Refusal :=
  .next (s.landing q RELAY_CFG fun s => s.relayEnable q v)

/-- Training ends: the link is UP if the upstream neighbour reports the right MODULE and the same SIZE and the downstream neighbour accepts,
otherwise MISMATCH. `path` is which modules the hops reach. -/
def execRelayTrained (up : Fin 16) (size : Nat) (accepts : Bool) (path : Fin 16) (s : State) : Host.Outcome State Fault Refusal :=
  .next (if s.get RELAY_STATUS_STATE != 1 || !s.domUp 22 then s
    else
      let s := s.put RELAY_STATUS_UPSTREAM up
      if (up.val + 1) % s.relaySize == s.get RELAY_CFG_MODULE % s.relaySize && up.val < s.relaySize && size == s.relaySize && accepts then
        (((s.put RELAY_STATUS_STATE 2).put RELAY_STATUS_PATH (onesBelow path.val 4 |>.foldl (fun a t => if s.relayTarget t then a + 2 ^ t else a) 0))).setRelay
          fun x => { x with lseq := 0, replay := [], wait := [], credits := none }
      else (s.put RELAY_STATUS_STATE 3).put RELAY_STATUS_PATH 0)

/-- Training repeats 10,000 rounds after it began with a mismatch; a link that has gone down retrains by itself. -/
def execRelayRetrain (s : State) : Host.Outcome State Fault Refusal :=
  .next (let k := s.get RELAY_STATUS_STATE
    if s.domUp 22 && s.on RELAY_CFG_ENABLE && (k == 4 || (k == 3 && decide (s.relay.trainRound + 10000 ≤ s.round))) then s.relayTrain else s)

/-- A hop loses its link: this module's own, or another on the ring, with the modules that can still be reached. -/
def execRelayLinkDown (mine : Bool) (path : Fin 16) (s : State) : Host.Outcome State Fault Refusal :=
  .next (if s.get RELAY_STATUS_STATE != 2 then s
    else if mine then s.relayDown
    else s.put RELAY_STATUS_PATH (s.get RELAY_STATUS_PATH &&& path.val))

/-! ### Relay packets (Links §7, §8) -/

/-- Send a hop control packet. -/
def State.hopSend (s : State) (type tag addr : Nat) : State :=
  s.setRelay fun r => { r with sent := r.sent ++ [⟨type, 0, s.get RELAY_CFG_MODULE, 0, 0, tag, addr, []⟩] }

/-- Pass a packet for another module on downstream. -/
def State.relayForward (s : State) (type : Nat) (p : RelayIn) : State :=
  s.relayGive true ⟨type, p.dst, p.src, p.flags, 0, p.tag, p.addr, p.payload⟩

/-- A packet arrives: a CRC failure is answered with LNAK; a good one is acknowledged with LACK, whose credits are free,
and acts here or is passed on. -/
def State.relayIn (s : State) (type : Nat) (p : RelayIn) (act : State → State) : State :=
  if s.get RELAY_STATUS_STATE != 2 || !s.domUp 22 then s
  else if !relayGood type p then s.hopSend 8 p.lseq 0
  else
    let s := (s.add64 RELAY_RX_BYTES p.payload.length).useFree.hopSend 7 p.lseq (s.free % 2 ^ 32)
    if p.dst = s.get RELAY_CFG_MODULE then act s else s.relayForward type p

/-- The district whose sorting cache a relay WRITE may reach (Links R635). -/
def State.relayCache (s : State) (a n : Nat) : Option Nat :=
  if decide (0x8020000000 ≤ a) && decide (a + n ≤ 0x8024000000) then
    match sramDistrict a with
    | some d => if d != s.expressDistrict && s.dom d == 0 && sramDistrict (a + (n - 1)) == some d then some d else none
    | none => none
  else none

/-- A WRITE into DRAM is accepted within IN_BASE to IN_LIMIT. -/
def State.relayDram (s : State) (a n : Nat) : Bool :=
  s.cfgOn RELAY_IN_BASE_EN && decide (s.cfg RELAY_IN_BASE_BASE * 4096 ≤ a) && decide (a + n ≤ s.cfg RELAY_IN_LIMIT_LIMIT * 4096 + 4096) &&
    decide (a + n ≤ 0x8000000000)

/-- A WRITE is refused: nothing after it of the same TAG is written (Links Table 19.6). -/
def State.relayRefuse (s : State) (p : RelayIn) : State :=
  let s := s.relaySend 3 p.src 0 p.tag 0 []
  s.setRelay fun r => { r with refused := if nbit p.flags 7 then r.refused else r.refused ++ [(p.src, p.tag)] }

/-- The last WRITE of a transfer is acknowledged. -/
def State.relayLast (s : State) (p : RelayIn) : State := if nbit p.flags 7 then s.relaySend 2 p.src 0 p.tag 0 [] else s

/-- A WRITE packet for this module. -/
def State.relayAccept (s : State) (p : RelayIn) : State :=
  if s.relay.refused.contains (p.src, p.tag) then
    (if nbit p.flags 7 then s.setRelay fun r => { r with refused := r.refused.filter (· != (p.src, p.tag)) } else s)
  else
    let n := p.payload.length
    match s.relayCache p.addr n with
    | some d => ((((s.meshMove (s.cfg RELAY_CFG_CLASS) none meshRelay d n).store p.addr p.payload).arrive d (if nbit p.flags 7 && nbit p.flags 6 then some (p.flags % 16) else none) n)).relayLast p
    | none =>
      if !s.relayDram p.addr n then s.relayRefuse p
      else match s.devCheck false p.addr n with
        | some e => (s.accReport e).relayRefuse p
        | none => ((s.portWrite (s.cfg RELAY_CFG_CLASS) none meshRelay p.addr n).store p.addr p.payload).relayLast p

def execWrite (p : RelayIn) (s : State) : Host.Outcome State Fault Refusal := .next (s.relayIn 1 p fun s => s.relayAccept p)

/-- The transfer or signal of a TAG. -/
def State.relayOp (s : State) (tag : Nat) (mark : Bool) : Option RelayOp := s.relay.ops.find? fun o => o.tag == tag && o.signal == mark

/-- A transfer or signal is no longer outstanding. -/
def State.relayEnd (s : State) (o : RelayOp) : State := s.setRelay fun r => { r with ops := r.ops.filter (· != o) }

/-- A WACK completes a transfer: the last of a COPY ends it, and a RUN that waited for it may end. -/
def State.relayAck (s : State) (tag : Nat) : State :=
  match s.relayOp tag false with
  | none => s
  | some o =>
    let s := s.relayEnd o
    if s.relayOpen o.ring o.seq then s
    else match s.startedOf o.ring o.seq 2 with
      | some _ => s.copyEnd o.ring o.seq
      | none => s.runSettle o.ring o.seq

def execWack (p : RelayIn) (s : State) : Host.Outcome State Fault Refusal := .next (s.relayIn 2 p fun s => s.relayAck p.tag)

/-- A WNAK fails the sending copy with BAD_ADDRESS. -/
def State.relayNak (s : State) (tag : Nat) : State :=
  let s := s.addSat RELAY_WNAKS 1
  match s.relayOp tag false with
  | none => s
  | some o =>
    let s := s.relayForget o.ring o.seq
    if (s.runSt o.ring o.seq).isSome then s.failRun o.ring o.seq 3 0 else s.complete o.ring o.seq 3 0

def execWnak (p : RelayIn) (s : State) : Host.Outcome State Fault Refusal := .next (s.relayIn 3 p fun s => s.relayNak p.tag)

/-- A signal that the relay link applies, and its mirror (Links R638). -/
def State.relaySignal (s : State) (i : Nat) (max? : Bool) (v : Nat) : State :=
  let s := s.signal (9, 0) i max? v
  let b := i / 8192
  if s.cfgOn (RELAY_MIRROR_EN b) then s.signal (9, 0) (8192 * s.cfg (RELAY_MIRROR_BANK b) + i % 8192) true (s.receipt i) else s

/-- A SIGNAL packet: applied if the receipt's bank names the relay link as its owner, and refused otherwise (Links R637, Envelopes R111). -/
def execSignalPacket (p : RelayIn) (s : State) : Host.Outcome State Fault Refusal :=
  .next (s.relayIn 4 p fun s =>
    let i := p.addr % 131072
    if s.bankOwner i == 19 then (s.relaySignal i (nbit p.flags 5) (beNat (p.payload.take 8))).relaySend 5 p.src 0 p.tag 0 []
    else s.relaySend 6 p.src 0 p.tag 0 [])

/-- The end of a remote SIGNAL. -/
def State.signalEnd (s : State) (tag status : Nat) : State :=
  match s.relayOp tag true with
  | some o => (s.relayEnd o).complete o.ring o.seq status 0
  | none => s

def execSack (p : RelayIn) (s : State) : Host.Outcome State Fault Refusal := .next (s.relayIn 5 p fun s => s.signalEnd p.tag 0)

def execSrefuse (p : RelayIn) (s : State) : Host.Outcome State Fault Refusal := .next (s.relayIn 6 p fun s => s.signalEnd p.tag 4)

/-- A LACK covers every packet up to the LSEQ it names, and returns credits, with which waiting packets leave. -/
def execLack (tag addr : Nat) (s : State) : Host.Outcome State Fault Refusal :=
  .next (if s.get RELAY_STATUS_STATE != 2 then s
    else (s.setRelay fun r => { r with
      replay := r.replay.filter fun x => !decide ((tag + 65536 - x.1.lseq) % 65536 < 64)
      credits := some (nbits addr 15 0, nbits addr 31 16) }).relayFlush)

/-- An LNAK replays from the packet it names; a packet that has now been replayed three times takes the hop down (Links R633). -/
def execLnak (tag : Nat) (s : State) : Host.Outcome State Fault Refusal :=
  .next (if s.get RELAY_STATUS_STATE != 2 then s
    else
      let hit : RelayPkt × Nat → Bool := fun x => decide ((x.1.lseq + 65536 - tag) % 65536 < 64)
      let again := s.relay.replay.filter hit
      let s := s.setRelay fun r => { r with
        replay := r.replay.map fun x => if hit x then (x.1, x.2 + 1) else x
        sent := r.sent ++ again.map (·.1) }
      let s := (s.addSat RELAY_REPLAYS again.length).report { code := Code.RELAY_CRC }
      if s.relay.replay.any fun x => decide (3 ≤ x.2) then s.relayDown else s)

end Sys2Proof.Machine
end

