-- ==== Sys2Proof/Machine/Bringup.lean ====
section
/-! DEFINITION. From power-on to start-up: the 12 V input, every kind of reset, LPDDR5X training, recovery over JTAG, and the HXP outputs (Bring-up,
Electrical §4). -/

namespace Sys2Proof.Machine
open Reg

/-! ### Power-on reset (Bring-up §1, Table 20.7) -/

/-- Registers that show what fuses and flash hold: SECURE.FUSE and the minimum-version counters. -/
def fusedReg (off : Nat) : Bool :=
  (decide (SECURE_FUSE 0 ≤ off) && decide (off < SECURE_FUSE 128)) || (decide (SECURE_COUNTER 0 ≤ off) && decide (off < SECURE_COUNTER 64))

/-- A power-on reset: every block takes its reset state, and the round counter is 0. Fuses, flash, NOR and the key store keep what they hold, active
keys are reloaded (Trust R552, R553), and LAST_RESET tells the cause. What lies outside the device, and what it has sent, is as before. -/
def State.powerReset (s : State) (cause : Nat) : State :=
  let z : State := {
    regs := s.regs.filter fun e => fusedReg e.1
    hostMem := s.hostMem
    irqs := s.irqs
    freeCtr := s.freeCtr
    fab := { approved := s.fab.approved }
    trust := { nor := s.trust.nor, flash := s.trust.flash, copies := s.trust.copies, writes := s.trust.writes, keys := s.trust.keys,
               certGone := s.trust.certGone, uart := s.trust.uart }
    links := { perst := s.links.perst }
    boot := { vsel := s.boot.vsel }
    pending := s.pending }
  let z := z.each (List.range 16) fun z i => if (SMap.get (fun _ => none) z.trust.keys i).isSome then z.setKeyState i 1 else z
  z.fuseSync.recSync.put GLOBAL_BOOT_STATUS_LAST_RESET cause

/-- Every rail is switched off and MOD_PG is low: the device holds nothing, and waits for the supply state `p` to end. -/
def State.railsOff (s : State) (p : Supply) (cause : Nat) : State := (s.powerReset cause).setBoot fun b => { b with supply := p }

/-- The pins that the state determines (Electrical R665). -/
def State.modPg (s : State) : Bool := s.boot.supply == .up
def State.thermN (s : State) : Bool := !(s.on POWER_THERMAL_STATUS_THROTTLING || s.on POWER_THERMAL_STATUS_TRIPPED)
def State.safeN (s : State) : Bool := !s.on ERROR_STATUS_SAFE

/-- What fabric pin `p` drives: 0 high impedance, 1 low, 2 high, 3 a weak pull-up; none where the region of its column runs, which drives it as
its image directs. Before MOD_PG it is high impedance, and a held pin keeps what it latched (Electrical R673, Power states R462, Fabric R428). -/
def State.fabPin (s : State) (p : Nat) : Option Nat :=
  if !s.modPg then some 0
  else if s.bit POWER_PAD_HOLD (if p < 16 then 4 else 5) then some (SMap.get (fun _ => 0) s.pwr.pads p)
  else if (s.regionAt (if p < 16 then 0 else 35)).any s.regionRuns then none
  else some (s.cfg (FABRIC_PIN_CFG_SAFE p))

/-- The 12 V input passes 10.0 V rising; `fell` is whether it has been below 1.0 V since it last did, `good` whether every rail reports power-good
in its time. The straps are sensed at step 4 (Electrical R672). The cause stays that of the loss of power, or is 0. -/
def execPowerOn (fell good lo hi : Bool) (s : State) : Host.Outcome State Fault Refusal :=
  .next (if s.boot.supply == .off || (s.boot.supply == .locked && fell) then
      (s.powerReset (if fell then 0 else s.get GLOBAL_BOOT_STATUS_LAST_RESET)).setBoot fun b =>
        { b with supply := if good then .up else .rising, vsel := (lo, hi) }
    else s)

/-- A rail has not reported power-good by t0 + 10 ms (Bring-up R642). -/
def execRailFail (s : State) : Host.Outcome State Fault Refusal :=
  .next (if s.boot.supply == .rising then s.railsOff .locked (s.get GLOBAL_BOOT_STATUS_LAST_RESET) else s)

/-- The input dips to `mv` for `ns` (Electrical Table 21.7, Bring-up R643). -/
def execBrownOut (mv ns : Nat) (s : State) : Host.Outcome State Fault Refusal :=
  .next (if s.boot.supply == .up && ((decide (mv < 9500) && decide (20000 < ns)) || (decide (mv < 6000) && decide (2000 < ns))) then
      s.railsOff .off 1
    else s)

/-- The input rises to `mv` for `ns`: every rail goes off as in a brown-out (Electrical R669). -/
def execVinOvervoltage (mv ns : Nat) (s : State) : Host.Outcome State Fault Refusal :=
  .next (if s.boot.supply == .up && decide (14500 < mv) && decide (10000 < ns) then s.railsOff .off 1 else s)

/-- SYS_RESET_N has been low for `ns`: from 1 µs on, a power-on reset that lasts until it rises (Bring-up R643). -/
def execSysResetN (ns : Nat) (s : State) : Host.Outcome State Fault Refusal :=
  .next (if s.boot.supply == .up && decide (1000 ≤ ns) then
      (s.powerReset 2).setBoot fun b => { b with resetLow := true, auxOff := [] }
    else s)

/-- SYS_RESET_N rises; round 0 begins 100 µs later. -/
def execSysResetNRise (s : State) : Host.Outcome State Fault Refusal :=
  .next (if s.boot.resetLow then s.setBoot fun b => { b with resetLow := false } else s)

/-- An HXP output (0 AUX_3V3, 1 AUX_1V8, 2 DX_VIN) delivers `ma` for `us`: above 120 % of its maximum for 1 ms it switches off (Electrical R670). -/
def execAuxOverload (out : Fin 3) (ma us : Nat) (s : State) : Host.Outcome State Fault Refusal :=
  let live := if out = 2 then s.memc.dxVin else s.boot.supply == .up && !s.boot.auxOff.contains out.val
  let top := if out = 0 then 2400 else if out = 1 then 1200 else 3600
  .next (if live && decide (top < ma) && decide (1000 ≤ us) then
      let s := if out = 2 then s.setMemc fun m => { m with dxVin := false } else s.setBoot fun b => { b with auxOff := b.auxOff ++ [out.val] }
      s.report { code := Code.PWR_HXP_ALERT }
    else s)

/-! ### Resets by register (Bring-up §5) -/

/-- Start-up after a reset is in progress; it is over, too, where no image can be started. -/
def State.starting (s : State) : Bool :=
  !s.boot.steps.isEmpty || (s.trust.stage != 2 && s.get SECURE_STATUS_BOOT_STATE != 2) || !(s.on GLOBAL_BOOT_STATUS_LP_TRAINED || decide (3 ≤ s.boot.lpTries))

/-- Table 20.6 permits the requester a kind of reset: 3 POR, 4 WATCH, 5 SPINE, 8 HOST. -/
def Req.mayReset (q : Req) (kind : Nat) : Bool :=
  if kind = 3 then q == .opantith else if kind = 4 then q.secure else q == .pf || q.secure

/-- A reset of the same or a containing kind is in its start-up (Bring-up R658). -/
def State.resetBusy (s : State) (kind : Nat) : Bool :=
  s.starting && (if kind = 8 then true else if kind = 5 then s.get GLOBAL_BOOT_STATUS_LAST_RESET != 8 else decide (s.get GLOBAL_BOOT_STATUS_LAST_RESET ≤ 3))

/-- One bit of RESET_CTRL is written as 1: the reset acts at the next round boundary (Bring-up R653, R658). -/
def State.askReset (s : State) (q : Req) (kind : Nat) : State :=
  if !Req.mayReset q kind || (kind != 3 && s.quiet) then s.report { code := Code.REG_ACCESS, detail := GLOBAL_RESET_CTRL }
  else if s.resetBusy kind || s.boot.due.contains kind then s
  else s.setBoot fun b => { b with due := b.due ++ [kind] }

/-- A write of RESET_CTRL: with any KEY but 0x5A it is discarded without error. -/
def State.resetCtrl (s : State) (q : Req) (v : Nat) : State :=
  if !s.path q || nbits v 31 24 != 0x5A then s
  else s.each [(3, 3), (2, 4), (1, 5), (0, 8)] fun s e => if nbit v e.1 then s.askReset q e.2 else s

def execResetPor (q : Req) (s : State) : Host.Outcome State Fault Refusal :=
  .next (s.landing q GLOBAL_RESET_CTRL fun s => s.resetCtrl q 0x5A000008)
def execResetWatch (q : Req) (s : State) : Host.Outcome State Fault Refusal :=
  .next (s.landing q GLOBAL_RESET_CTRL fun s => s.resetCtrl q 0x5A000004)
def execResetSpine (q : Req) (s : State) : Host.Outcome State Fault Refusal :=
  .next (s.landing q GLOBAL_RESET_CTRL fun s => s.resetCtrl q 0x5A000002)
def execResetHost (q : Req) (s : State) : Host.Outcome State Fault Refusal :=
  .next (s.landing q GLOBAL_RESET_CTRL fun s => s.resetCtrl q 0x5A000001)

/-- A host-core reset (Bring-up R657). -/
def State.hostReset (s : State) : State :=
  (((((s.resetFunction 17).resetFunction 18).putB GLOBAL_BOOT_STATUS_HOST_RELEASED false).put GLOBAL_BOOT_STATUS_LAST_RESET 8)).restartHost

/-- The resets that act at this boundary (Bring-up R653, R658): a power-on reset overrides the others, and a SPINE reset includes a host-core reset. -/
def State.resetBoundary (s : State) : State :=
  let due := s.boot.due
  let s := if due.isEmpty then s else s.setBoot fun b => { b with due := [] }
  if due.contains 3 then s.powerReset 3
  else
    let s := if due.contains 4 then s.watchReset else s
    if due.contains 5 then s.spineReset 5 else if due.contains 8 then s.hostReset else s

/-! ### Start without software (Bring-up §2) -/

/-- A step of Bring-up Table 20.2 ends: PD_PCIE and PD_HOST come ON, VDD_HOST at 0.80 V; SPINE is up, and the pad groups of R647 are
held, fabric pins at high impedance. -/
def State.bootStep (s : State) : BootStep → State
  | .release => s
  | .domains => (((s.setDom 21 0).setDom 16 0).put (POWER_DOM_STATUS_MV 16) 800).setPdom 16 fun x => { x with opens := false }
  | .up => (((s.putB GLOBAL_BOOT_STATUS_SPINE_UP true).wrN GLOBAL_SPINE_UP_ROUND s.round).wrN POWER_PAD_HOLD 0x3E).setPwr fun w => { w with pads := [] }

/-- Steps of start-up end at the latest round that the tables give. -/
def State.bootBoundary (s : State) : State :=
  let now := s.boot.steps.filter fun e => decide (e.1 ≤ s.round)
  if now.isEmpty then s
  else (s.setBoot fun b => { b with steps := b.steps.filter fun e => !decide (e.1 ≤ s.round) }).each now fun s e => s.bootStep e.2

/-- LPDDR5X training ends (Bring-up R644, R646): trained, or repeated up to three attempts in all. -/
def execLpTrainingDone (ok : Bool) (s : State) : Host.Outcome State Fault Refusal :=
  .next (if !s.on GLOBAL_BOOT_STATUS_SPINE_UP || s.on GLOBAL_BOOT_STATUS_LP_TRAINED || 3 ≤ s.boot.lpTries then s
    else if ok then
      (s.each (List.range 8) fun s c => s.setMchan c fun m => { m with trained := s.round, accrued := s.now, debt := 0 }).putB
        GLOBAL_BOOT_STATUS_LP_TRAINED true
    else
      let s := s.setBoot fun b => { b with lpTries := b.lpTries + 1 }
      if s.boot.lpTries < 3 then s
      else
        let s := s.putB GLOBAL_BOOT_STATUS_LP_FAIL true
        if s.trust.runtime.isSome then s.uartLine ("HX4 lp_fail round=" ++ toString s.round) else s)

/-! ### Recovery over JTAG (Bring-up §6) -/

/-- RECOVER and RECOVER_STATUS are enabled: no slot of a pair could be started. -/
def State.recovering (s : State) : Bool := s.get SECURE_STATUS_BOOT_STATE == 2

/-- The pair that a transfer recovers: the runtime (0), or the boot stage (1). -/
def State.recoverPair (s : State) : Nat := if s.trust.runtime.isNone then 0 else 1

def State.setRecover (s : State) (f : RecoverSt → RecoverSt) : State := s.setTrust fun t => { t with recover := f t.recover }

/-- A word is appended to the recovery buffer, the boot SRAM from its start (Bring-up R659). -/
def State.recoverWord (s : State) (w : Nat) : State :=
  let n := s.trust.recover.words
  let top := if s.recoverPair = 0 then 0x1C0000 else 0x200000
  let s := if 4 * n + 4 ≤ 0x200000 then s.wrMem (0xF002000000 + 4 * n) (leBytes 4 w) else s
  s.setRecover fun r => { words := n + 1, past := (decide (0 < n) && r.past) || decide (top < 4 * n + 4), state := 1, status := 0 }

/-- The SEQ that a recovered image gets: one above the higher SEQ of the records of the pair. -/
def State.nextSeq (s : State) (p : Nat) : Nat :=
  let seq := fun sl => if s.slotSt p sl == .empty then 0 else recSeq (s.slotRec p sl)
  (max (seq 0) (seq 1) + 1) % 2 ^ 32

/-- A transfer fails: the buffer is zeroed. -/
def State.recoverFail (s : State) (status : Nat) : State :=
  (s.keepMem fun a => !(decide (0xF002000000 ≤ a) && decide (a < 0xF002200000))).setRecover fun _ =>
    { state := 3, status := status }

/-- The buffer is verified under Trust R531 and written into slot A, and the choice of a slot is repeated (Bring-up R660). -/
def State.recoverEnd (s : State) : State :=
  let p := s.recoverPair
  let h := s.rdMem 0xF002000000 0x1800
  if s.trust.recover.past then s.recoverFail 3
  else match s.imgVerify (p + 1) (slotSize p - 0x1800) h (fun n => .ok (s.rdMem 0xF002001800 n)) with
    | .error (st, _) => s.recoverFail st
    | .ok b =>
      let s := (s.writeSlot p 0 (s.nextSeq p) h b).setRecover fun _ => { state := 2 }
      if p = 0 then s.startRuntime else s.startBoot

def execRecoverWord (w : Word) (s : State) : Host.Outcome State Fault Refusal :=
  .next (if s.recovering then s.recoverWord (w.toNat % 2 ^ 32) else s)

/-- The word with LAST is appended too, and ends the transfer. -/
def execRecoverLast (w : Word) (s : State) : Host.Outcome State Fault Refusal :=
  .next (if s.recovering then (s.recoverWord (w.toNat % 2 ^ 32)).recoverEnd else s)

end Sys2Proof.Machine
end

