-- ==== Sys2Proof/Machine/Checks.lean ====
section
/-! DEFINITION. Seals and mated pairs as they are decided at a round boundary, and the blocks' own checks of sealed and mated values (Transactions §3,
§5; Table 4.5). -/

namespace Sys2Proof.Machine
open Reg

/-! ### Block checks -/

/-- Fields of a register change to new values, which their block acts on at once (Transactions R137). -/
def State.setField (s : State) (x : Shadow) : State :=
  (s.setActing (s.acting.map fun e => if e.1 = x.off then (x.off, BitVec.ofNat 64 (mergeNat e.2.toNat x.mask x.value)) else e)).wrN
    x.off (mergeNat (s.rdN x.off) x.mask x.value)

/-- The state with the fields of a shadow set changed, as the blocks check it. -/
def State.withSet (s : State) (l : List Shadow) : State := s.each l fun s x => s.setField x

/-- The ISP's check of a stream (Vision R336). -/
def State.streamOk (t : State) (i : Nat) : Bool :=
  let x := t.get (ISP_CROP_ORIGIN_X i)
  let y := t.get (ISP_CROP_ORIGIN_Y i)
  let w := t.get (ISP_CROP_SIZE_W i)
  let h := t.get (ISP_CROP_SIZE_H i)
  let k := t.get (ISP_STREAM_FMT_SCALE i)
  let c := t.cropOf i
  let bytes := layoutBytes (t.get (ISP_STREAM_FMT_OUT_FORMAT i)) (scaled k c.2.2.1) (scaled k c.2.2.2)
  x % 2 == 0 && y % 2 == 0 && w % 2 == 0 && h % 2 == 0 && (w == 0 || h == 0 || (decide (64 ≤ w) && decide (16 ≤ h))) &&
    decide (x + w ≤ t.get (ISP_STREAM_SIZE_WIDTH i)) && decide (y + h ≤ t.get (ISP_STREAM_SIZE_HEIGHT i)) &&
    decide (t.get (ISP_STREAM_FMT_OUT_FORMAT i) ≤ 3) && decide (k ≤ 5) &&
    (List.range 24).all fun c =>
      !(t.chanOn c && t.chanSource c == 0 && t.get (CAMERA_CHAN_CFG_INDEX c) == i) || decide (bytes ≤ t.chanStride c)

/-- The FABRIC block's check of a region's pair (Fabric R426): `t` has the new pairs. -/
def State.regionOk (s t : State) (g : Nat) : Bool :=
  let p := t.regionPair g
  decide (p.1 ≤ 35) && decide (p.1 + p.2 ≤ 36) && s.get (FABRIC_REGION_STATE_STATE g) == 0 && !(s.fab.loads.any fun l => l.g == g) &&
    (List.range 8).all fun k =>
      let q := t.regionPair k
      k == g || p.2 == 0 || q.2 == 0 || decide (p.1 + p.2 ≤ q.1) || decide (q.1 + q.2 ≤ p.1)

/-- The MONITOR block's check of an alarm pair (Power cap R497). -/
def State.alarmOk (t : State) (m : Nat) : Bool :=
  decide (levelOf m (t.get (MONITOR_ALARM_LO_LEVEL m)) ≤ levelOf m (t.get (MONITOR_ALARM_HI_LEVEL m)))

/-- The controller's check of a regulator's pair (Memory R407). -/
def State.classOk (t : State) (k : Nat) : Bool :=
  let r := t.get (MEMCTL_CLASS_RATE_RATE k)
  r == 0 || (decide (r ≤ t.get (MEMCTL_CLASS_BURST_BURST k)) && decide (r ≤ t.get ROUND_DRAM_CAP_UNITS))

/-- The FLOOR block's check of the express district (Express R357). -/
def State.expressSelOk (s t : State) : Bool :=
  let d := t.get FLOOR_EXPRESS_SEL_DISTRICT
  s.armedRun.isNone && (s.allocs s.expressDistrict).isEmpty && (s.allocs d).isEmpty && s.dom d == 0

/-- The EXPRESS block's check of a channel (Express R392). -/
def State.chanCfgOk (t : State) (c : Nat) : Bool :=
  let r := t.get (EXPRESS_CHAN_CFG_RATE c)
  t.get (EXPRESS_CHAN_CFG_INPUT_MODE c) != 3 && r != 7 && !(r == 0 && decide (500 ≤ t.get (EXPRESS_CHAN_PHASE_CONV_NS c)))

/-- What a block says to the new value of one of its registers, `t` being the state with the new values: nothing, or a refusal, with the code that it
reports (none where its chapter names none) and UNIT. -/
def State.refusal (s t : State) (off : Nat) : Option (Option Nat × Nat) :=
  let no := fun (ok : Bool) (code : Option Nat) (unit : Nat) => if ok then none else some (code, unit)
  let down := match shplDomain off with | some d => !s.domUp d | none => false
  if down then some (none, 0)
  else if off = ROUND_TT_CTRL then no (s.on (verifiedFld (t.on ROUND_TT_CTRL_BANK))) (some Code.TT_INVALID) 0xFFFF
  else if off = ROUND_EXPRESS_RES then
    no (decide (100 ≤ t.get ROUND_EXPRESS_RES_MAX_NS) && decide (t.get ROUND_EXPRESS_RES_MAX_NS ≤ 1000)) (some Code.TT_INVALID) 0xFFFF
  else if pairKey off = 0x10030 then
    no (decide (t.get ROUND_SEQ_BASE_BASE + t.get ROUND_SEQ_LEN_LEN_M1 + 1 ≤ 65536)) (some Code.TT_INVALID) 0xFFFF
  else if off = FLOOR_EXPRESS_SEL then no (s.expressSelOk t) (some Code.EXPRESS_SEL_REFUSED) 0xFFFF
  else if decide (0x200180 ≤ off) && decide (off < 0x2001A0) then
    no (t.classOk ((off - 0x200180) / 8)) (some Code.MEM_CONFIG_REFUSED) ((off - 0x200180) / 8)
  else if off / 0x100000 = 3 then no (t.streamOk ((off - 0x300000) / 0x40)) (some Code.ISP_CONFIG_REFUSED) ((off - 0x300000) / 0x40)
  else if off / 0x100000 = 6 then no (t.chanCfgOk ((off - 0x600000) / 0x40)) none ((off - 0x600000) / 0x40)
  else if off / 0x100000 = 9 then no (s.regionOk t ((off - 0x901000) / 0x40)) (some Code.FABRIC_CONFIG_REFUSED) ((off - 0x901000) / 0x40)
  else if off = POWER_CAP then
    no (decide (s.get POWER_CAP_FUSE_MIN_MW ≤ t.get POWER_CAP_LIMIT_MW) && decide (t.get POWER_CAP_LIMIT_MW ≤ s.get POWER_CAP_FUSE_MAX_MW))
      (some Code.CAP_CONFIG_REFUSED) 0xFFFF
  else if off / 0x100000 = 0xB then no (t.alarmOk ((off - 0xB01000) / 8)) (some Code.MON_CONFIG_REFUSED) ((off - 0xB01000) / 8)
  else none

/-! ### Effects of applied values -/

/-- A ROUND register changed by a seal or a mate: a new index window takes effect in the round that the boundary begins, and so does a new bank while
the timetable is in force (Round R47). -/
def State.ttApplied (s : State) (off : Nat) : State :=
  if pairKey off = ROUND_SEQ_BASE then s.epochNow
  else if off != ROUND_TT_CTRL then s
  else if s.ttRun && s.get ROUND_TT_CTRL_BANK != s.get ROUND_STATUS_ACTIVE_BANK then
    (s.put ROUND_STATUS_ACTIVE_BANK (s.get ROUND_TT_CTRL_BANK)).epochNow
  else s.epochSync

/-- The express district moves (Express R357, Power cap R514): the governor takes the new one to OP2. -/
def State.expressMoved (s : State) (old : Nat) : State :=
  let d := s.expressDistrict
  if d = old then s
  else ((((s.setGov fun g => { g with former := old :: g.former.filter (· != d) }).putB (FLOOR_DIST_STATE_EXPRESS old) false).putB (FLOOR_DIST_STATE_EXPRESS d) true).put
    (POWER_GOV_STATE_OP d) 2).applyCeilings

/-- What a block does when a register of its own has changed by a seal or a mate. -/
def State.applied (s old : State) (off : Nat) : State :=
  if off / 0x10000 = 1 then s.ttApplied off
  else if off = FLOOR_EXPRESS_SEL then s.expressMoved old.expressDistrict
  else if decide (0x200180 ≤ off) && decide (off < 0x2001A0) then s.regulatorStart ((off - 0x200180) / 8)
  else if off / 0x100000 = 6 then s.chanSealed ((off - 0x600000) / 0x40) (old.rd off)
  else if off / 0x100000 = 9 then s.regionSync ((off - 0x901000) / 0x40)
  else s

/-! ### Mated pairs (Transactions R146) -/

/-- One mated pair: checked, and applied or dropped. -/
def State.pairDecide (s : State) (m : Mated) : State :=
  let l := [⟨m.key, maskOf .pl m.key, m.first⟩, ⟨m.key + 4, maskOf .pl (m.key + 4), m.second⟩]
  let t := s.withSet l
  match s.refusal t m.key with
  | some (some code, unit) => s.report { code := code, unit := unit, detail := m.key }
  | some (none, _) => s
  | none => t.applied s m.key

/-- The pairs mated in a round that has ended, in the order of their mates. -/
def State.applyPairs (s : State) : State :=
  let due := s.txn.mated.filter fun m => decide (m.round < s.round)
  if due.isEmpty then s
  else (s.setTxn fun z => { z with mated := s.txn.mated.filter fun m => !decide (m.round < s.round) }).each due State.pairDecide

/-! ### Seals (Transactions R133 to R139) -/

/-- The lowest of some offsets. -/
def lowest (l : List Nat) : Nat := match l with
  | [] => 0
  | a :: t => t.foldl min a

/-- Test 2 of R135: registers of the set that another seal has written since the open. -/
def State.conflicts (s : State) (x : OwnerSt) : List Nat :=
  (x.set.filter fun e => decide (x.openSeq < SMap.get (fun _ => 0) s.txn.marks e.off)).map (·.off)

/-- Put an element in its place by offset. -/
def insertOff {α : Type} (a : Nat × α) : List (Nat × α) → List (Nat × α)
  | [] => [a]
  | b :: t => if a.1 ≤ b.1 then a :: b :: t else b :: insertOff a t

/-- Test 3 of R135: the refused registers, with what each block reports, by offset. -/
def State.refusals (s : State) (set : List Shadow) : List (Nat × Option Nat × Nat) :=
  let t := s.withSet set
  (set.filterMap fun e => (s.refusal t e.off).map fun r => (e.off, r)).foldr insertOff []

/-- Each block that refuses one of its registers reports its own error once, for the lowest. -/
def State.reportRefusals (s : State) (l : List (Nat × Option Nat × Nat)) : State :=
  (l.foldl (fun (x : State × List Nat) r => match r.2.1 with
    | some code => if x.2.contains code then x else (x.1.report { code := code, unit := r.2.2, detail := r.1 }, x.2 ++ [code])
    | none => x) (s, [])).1

/-- Test 4 of R135: the seal is applied. CHANGE_SEQ counts it, its registers are marked, and pending halves of its pairs are dropped (R137 to R139). -/
def State.sealIn (s : State) (x : OwnerSt) : State :=
  let n := s.rdN TXN_CHANGE_SEQ + 1
  let t := (s.withSet x.set).wrN TXN_CHANGE_SEQ n
  let t := t.setTxn fun z => { z with marks := x.set.foldl (fun m (e : Shadow) => SMap.set (fun _ => 0) m e.off n) z.marks }
  let t := t.each (x.set.filter fun (e : Shadow) => maskOf .pl e.off != 0) fun t e => t.dropHalf (pairKey e.off)
  t.each x.set fun t e => t.applied s e.off

/-- The outcome of an accepted seal: the state, its status and RESULT. -/
def State.sealOutcome (s : State) (x : OwnerSt) : State × Nat × Nat :=
  if x.failed then (s, 0x8506, 256)
  else
    let bad := s.conflicts x
    if !bad.isEmpty then (s.addSat TXN_CONFLICT_COUNT 1, 0x8501, lowest bad)
    else match s.refusals x.set with
      | [] => (s.sealIn x, 0, x.set.length)
      | r :: l => (s.reportRefusals (r :: l), if r.1 / 0x10000 = 1 then 0x8502 else 0x8508, r.1)

/-- An accepted seal is decided: its owner becomes FREE, and its envelope completes or its holder's CMD_STATUS tells the outcome. -/
def State.decideSeal (s : State) (o : Nat) : State :=
  let x := s.ownerSt o
  let h := s.rdN (TXN_OWNER_HOLDER o)
  let r := s.sealOutcome x
  let s := r.1.freeOwner o r.2.1
  match x.env with
  | some e => s.complete e.1 e.2 r.2.1 r.2.2
  | none => (s.setTxn fun z => { z with cmd := SMap.set (fun _ => 0) s.txn.cmd h r.2.1 })

/-- The seals accepted in a round that has ended, in the order of acceptance, after the pairs mated in it (Transactions R134). -/
def State.applySeals (s : State) : State :=
  let s := s.applyPairs
  let due := s.txn.seals.filter fun o => decide ((s.ownerSt o).sealRound < s.round)
  if due.isEmpty then s
  else (s.setTxn fun z => { z with seals := s.txn.seals.filter fun o => !decide ((s.ownerSt o).sealRound < s.round) }).each due State.decideSeal

end Sys2Proof.Machine
end

