-- ==== Sys2Proof/Machine/RegWrite.lean ====
section
/-! DEFINITION. Writes of registers: the access codes (Scope Table 0.4, R16, R21) and what each block's chapter says of its own registers, where their
domain is off, and who may write them. -/

namespace Sys2Proof.Machine
open Reg

/-! ### One register -/

/-- The bits of a register that a write of `v` gives it at once: RW bits take the value, W1S bits set, W1C and RS bits clear, WO bits read zero. -/
def State.newVal (s : State) (off v : Nat) : Nat :=
  let a := mergeNat (s.rdN off) (maskOf .rw off) v
  let a := mergeNat a (andNat v (maskOf .w1s off)) v
  mergeNat a (andNat v (maskOf .w1c off + maskOf .rs off)) 0

/-- The fields with immediate effect take a written value; their block acts on it from the next boundary. -/
def State.plain (s : State) (off v : Nat) : State :=
  let n := s.newVal off v
  if n = s.rdN off then s else s.wrCfg off n

/-- A register whose other fields may be written only while its enable bit is 0: a write that would change them is refused in them, and the enable bit
still acts. -/
def State.gated (s : State) (off v bit : Nat) (busy : State → State) : State :=
  let old := s.rdN off
  if nbit old bit then
    let s := if mergeNat (s.newVal off v) (2 ^ bit) 0 != mergeNat old (2 ^ bit) 0 then busy s else s
    s.plain off (mergeNat old (2 ^ bit) v)
  else s.plain off v

/-- A register of a port or queue that is enabled: only its EN bit takes the written value (Links R639). -/
def State.enOnly (s : State) (off v bit : Nat) : State := s.plain off (mergeNat (s.rdN off) (2 ^ bit) v)

/-- A field of a written value, given another value. -/
def vput (v : Nat) (f : Fld) (n : Nat) : Nat := mergeNat v (2 ^ (f.hi + 1) - 2 ^ f.lo) (n * 2 ^ f.lo)

/-- A field of a written value that is out of its range reads as `d`. -/
def vfix (v : Nat) (f : Fld) (ok : Nat → Bool) (d : Nat) : Nat := if ok (vbits v f) then v else vput v f d

/-! ### The blocks -/

/-- GLOBAL (Links R610 to R612, R639; Bring-up R653). -/
def State.wrGlobal (s : State) (q : Req) (off v : Nat) : State :=
  if off = GLOBAL_RESET_CTRL then s.resetCtrl q v
  else if off = GLOBAL_HOST_WAKE then s.hostWake q v
  else if decide (0x410 ≤ off) && decide (off < 0x430) then s.plain off v
  else if !q.pfOrHost then s
  else if off / 0x10 * 0x10 = GLOBAL_FN_WIN_BASE 18 && !q.secure then s.refuse Code.SEC_DENIED off
  else if off = GLOBAL_PCIE_CTRL then s.plain off (vfix v GLOBAL_PCIE_CTRL_MAX_GEN (fun n => decide (1 ≤ n) && decide (n ≤ 5)) 5)
  else s.plain off v

/-- ROUND (Round §8). -/
def State.wrRound (s : State) (_q : Req) (off v : Nat) : State :=
  if off = ROUND_SYNC_CTRL then
    let bad := nbit v 23
    let v := if bad then vput v ROUND_SYNC_CTRL_DOMAIN (s.get ROUND_SYNC_CTRL_DOMAIN) else v
    let v := vfix v ROUND_SYNC_CTRL_LOSS_INTERVALS (fun n => decide (2 ≤ n)) 2
    let s := if bad then s.refuse Code.TT_INVALID off else s
    let s := (s.plain off (vput v ROUND_SYNC_CTRL_SOURCE (s.get ROUND_SYNC_CTRL_SOURCE))).setSource (v % 4)
    if nbit v 31 then s.relock else s
  else if off = ROUND_HOLD_LIMIT then s.plain off (let n := v % 16384; if n = 0 then 1 else min n 10000)
  else if off = ROUND_CTRL then s.ttEnable (nbit v 0)
  else if off = ROUND_LOAD_CTRL then
    if nbit v 31 && nbit v 30 then s.refuse Code.TT_INVALID off
    else if nbit v 31 then s.ttLoad (nbit v 17) (nbit v 16) (v % 65536)
    else if nbit v 30 then s.ttVerify (nbit v 17)
    else s.plain off v
  else if off = ROUND_OVR_POLICY then s.plain off (vfix v ⟨off, 31, 16⟩ (· != 0) 1)
  else s.plain off v

/-- A write of TXN.CMD (Transactions R140): OP 1 is discarded. -/
def State.txnCmd (s : State) (q : Req) (v : Nat) : State :=
  let o := nbits v 10 8
  match q.holder with
  | none => s
  | some h => match v % 4 with
    | 0 => State.cmdAnswer h (s.txnOpen h o)
    | 2 => if s.ownHeld h o then s.txnSeal o none else s.setCmd h 0x8504
    | 3 => State.cmdAnswer h (s.txnReturn h o)
    | _ => s

/-- TXN (Transactions §8). -/
def State.wrTxn (s : State) (q : Req) (off v : Nat) : State := if off = TXN_CMD then s.txnCmd q v else s.plain off v

/-- RECEIPT_BANK_OWNER (Envelopes R115, §8): bank 15 is read-only. -/
def State.bankOwnerWrite (s : State) (q : Req) (off v : Nat) : State :=
  let f := v % 32
  if off = RINGS_RECEIPT_BANK_OWNER 15 then s
  else if (f == 18 || s.rdN off == 18) && !q.secure then s.refuse Code.RING_DENIED off
  else if 20 ≤ f then s.refuse Code.RING_BUSY off
  else s.wrCfg off f

/-- CTRL of a ring (Envelopes R118, R119, Table 3.9): STOP, ABORT and RESUME as 1, then a change of ENABLE. -/
def State.ringCtrl (s : State) (r v : Nat) : State :=
  let s := if nbit v 1 then s.ringStop r else s
  let s := if nbit v 2 then s.ringAbort r else s
  let s := if nbit v 3 then s.ringResume r else s
  if nbit v 0 == s.on (RINGS_CTRL_ENABLE r) then s else if nbit v 0 then s.ringEnable r else s.ringDisable r

/-- RINGS (Envelopes R104, R105, R112, R115, R120). -/
def State.wrRings (s : State) (q : Req) (off v : Nat) : State :=
  if !q.pfOrHost then s
  else if off = RINGS_RECEIPT_BASE then s.receiptBase q v
  else if off = RINGS_RECEIPT_SIG_VALUE then s.sigRegister q v
  else if RINGS_RECEIPT_BANK_OWNER 0 ≤ off then s.bankOwnerWrite q off v
  else if RINGS_RECEIPT_BASE ≤ off then s.plain off v
  else
    let r := (off - 0x30000) / 0x40
    match off % 0x40 with
    | 0x10 => s.ringCfg q r v
    | 0x14 => s.ringCtl q r fun s => s.ringCtrl r v
    | 0x2C => s.plain off (vfix v (RINGS_IRQ_COUNT r) (· != 0) 1)
    | 0x00 | 0x08 => if s.ringState r != 0 then s.report { code := Code.RING_BUSY, ring := some r, detail := off } else s.plain off v
    | _ => s.plain off v

/-- FLOOR (Clerks R193, Districts R226, Numbers R248, Parcels R282, R283). -/
def State.wrFloor (s : State) (q : Req) (off v : Nat) : State :=
  if decide (0x10B000 ≤ off) && decide (off < 0x10C000) then s.walkWrite q ((off - 0x10B000) / 0x100) ((off % 0x100) / 4) v
  else if off = FLOOR_DEBUG_RELEASE then s.releaseWrite q v
  else if off = FLOOR_DBG_SEL then s.selWrite q v
  else if off = FLOOR_SCRUB_CTRL then s.plain off (vfix v ⟨off, 15, 0⟩ (fun n => decide (100 ≤ n)) 100)
  else s.plain off v

/-- MEMCTL (Memory §9). -/
def State.wrMemctl (s : State) (q : Req) (off v : Nat) : State :=
  if off = MEMCTL_DX_CTRL then s.dxCtrl q v
  else if off = MEMCTL_HOST_CLASS then s.plain off (vfix v MEMCTL_HOST_CLASS_CLASS (· != 0) 2)
  else if off = MEMCTL_EXPRESS_UNITS then s.plain off (vfix v MEMCTL_EXPRESS_UNITS_UNITS (· != 0) 1)
  else s.plain off v

/-- ISP (Vision R337, R346): STREAM_SIZE while the stream is disabled, TUNE_ADDR and the counter at any time. -/
def State.wrIsp (s : State) (off v : Nat) : State :=
  let i := (off - 0x300000) / 0x40
  if off = ISP_STREAM_CFG i then s.streamWrite i v
  else if off = ISP_STREAM_SIZE i && s.on (ISP_STREAM_CFG_ENABLE i) then s.report { code := Code.CAM_BUSY, unit := i, detail := off }
  else s.plain off v

/-- VCODEC (Vision R341, R346). -/
def State.wrVcodec (s : State) (off v : Nat) : State :=
  let busy := fun (u : Nat) (s : State) => s.report { code := Code.CAM_BUSY, unit := u, detail := off }
  if off < 0x401000 then
    let i := (off - 0x400000) / 0x40
    if off = VCODEC_DEC_CFG i then s.gated off v 31 (busy i)
    else if s.on (VCODEC_DEC_CFG_ENABLE i) then busy i s else s.plain off v
  else if off < 0x402000 then
    let e := (off - 0x401000) / 0x40
    if off = VCODEC_ENC_CFG e then s.encWrite e v
    else if s.on (VCODEC_ENC_CFG_ENABLE e) then busy e s else s.plain off v
  else if off = VCODEC_JPEG_CFG then
    if nbit v 31 && !s.on VCODEC_JPEG_CFG_ENABLE && vbits v VCODEC_JPEG_CFG_CLASS == 0 then busy 0 s else s.gated off v 31 (busy 0)
  else if s.on VCODEC_JPEG_CFG_ENABLE then busy 0 s else s.plain off v

/-- The lane counts that Vision Table 10.1 gives a PHY. -/
def lanesOk (v : Nat) : Bool :=
  let n := nbits v 23 20
  if nbit v 24 then decide (1 ≤ n) && decide (n ≤ 3) else n == 1 || n == 2 || n == 4

/-- CAMERA (Vision R321, R322, R329, R346). -/
def State.wrCamera (s : State) (off v : Nat) : State :=
  let busy := fun (u : Nat) (s : State) => s.report { code := Code.CAM_BUSY, unit := u, detail := off }
  if off < 0x501000 then
    let p := (off - 0x500000) / 0x20
    if off != CAMERA_PORT_CFG p then s.plain off v
    else if nbit v 31 && !s.on (CAMERA_PORT_CFG_ENABLE p) && !lanesOk v then busy p s
    else s.gated off v 31 (busy p)
  else if off < 0x502000 then
    let c := (off - 0x501000) / 0x40
    if off = CAMERA_CHAN_CFG c then s.chanWrite c v
    else if off = CAMERA_CHAN_DROPS c || off = CAMERA_CHAN_FRAMES c then s.plain off v
    else if s.chanSet c then busy c s
    else if off = CAMERA_CHAN_BUF c then s.plain off (vfix v (CAMERA_CHAN_BUF_COUNT_M1 c) (· != 0) 1)
    else s.plain off v
  else s.plain off v

/-- EXPRESS (Express R391, §10). -/
def State.wrExpress (s : State) (off v : Nat) : State :=
  let busy := fun (s : State) => s.refuse Code.EXP_BUSY off
  if off < 0x601000 then
    let c := (off - 0x600000) / 0x40
    if off = EXPRESS_CHAN_CFG c then
      if nbit v 31 && !s.on (EXPRESS_CHAN_CFG_ENABLE c) && s.get (EXPRESS_CHAN_CFG_RATE c) == 0 && decide (500 ≤ s.get (EXPRESS_CHAN_PHASE_CONV_NS c))
      then busy s else s.gated off v 31 busy
    else if off = EXPRESS_CHAN_PHASE c then
      if s.on (EXPRESS_CHAN_CFG_ENABLE c) then busy s else s.plain off (min (v % 1024 / 10 * 10) 990)
    else s.plain off v
  else if off = EXPRESS_SPILL_BASE then s.gated off v 0 busy
  else if off = EXPRESS_SPILL_CFG then
    if s.on EXPRESS_SPILL_BASE_EN then busy s
    else s.plain off (vfix v EXPRESS_SPILL_CFG_LOG2_ENTRIES (fun n => decide (6 ≤ n) && decide (n ≤ 20)) 12)
  else s.plain off v

/-- CPORT (Express R379, R381, R391). A write of 1 to ARMED acts at the next boundary even where ARMED is 1 already: it then clears SILENT (R385). -/
def State.wrCport (s : State) (q : Req) (off v : Nat) : State :=
  let busy := fun (s : State) => s.refuse Code.CPORT_BUSY off
  if 0x708000 ≤ off then
    let p := (off - 0x708000) / 0x1000
    let b := s.get (CPORT_GUARD_CTRL_ACTIVE_BANK p)
    if q != .opantith then s.refuse Code.GUARD_DENIED off
    else if off = CPORT_GUARD_PERIOD p b || (decide (CPORT_GUARD_WIN p b 0 ≤ off) && decide (off ≤ CPORT_GUARD_WIN p b 15)) then s.refuse Code.GUARD_DENIED off
    else if off = CPORT_GUARD_CTRL p && nbit v 31 then s.wrCfg off (s.newVal off v)
    else if off = CPORT_GUARD_SWITCH p then (s.plain off v).putB (CPORT_GUARD_CTRL_SWITCH_PENDING p) true
    else s.plain off v
  else
    let p := (off - 0x700000) / 0x1000
    if off = CPORT_PORT_CFG p then s.gated off v 31 busy
    else if CPORT_CX_COUNT p 0 ≤ off then s.plain off v
    else if s.on (CPORT_PORT_CFG_ENABLE p) then busy s
    else s.plain off v

/-- CFG of a plant queue: another function is discarded, CLASS 0 refuses EN, and EN from 0 to 1 sets HEAD and TAIL to 0 (Links R622, §9). -/
def State.qCfgWrite (s : State) (off v : Nat) : State :=
  let f := nbits v 28 24
  let en := nbit v 31
  let v := vfix v ⟨off, 19, 16⟩ (fun n => decide (6 ≤ n) && decide (n ≤ 12)) 6
  if f != 0 && f != 17 && f != 18 then s
  else if nbit (s.rdN off) 31 then s.gated off v 31 id
  else if en && nbits v 21 20 = 0 then s
  else
    let s := s.plain off v
    if en then (s.wrN (off + 4) 0).wrN (off + 8) 0 else s

/-- PLANT (Links R622 to R627, R639). -/
def State.wrPlant (s : State) (q : Req) (off v : Nat) : State :=
  let n := (off - 0x800000) / 0x1000
  let o := off % 0x1000
  if !q.pfOrHost then s
  else if o = 0 then s.gated off v 31 id
  else if o < 0x400 then
    if !s.on (PLANT_PORT_CFG_ENABLE n) then s.plain off v else if 0x100 ≤ o then s.enOnly off v 63 else s
  else if 0xC00 ≤ o then s.plain off v
  else
    let tx := decide (0x800 ≤ o)
    let i := o % 0x400 / 0x40
    let b := off / 0x40 * 0x40
    match off % 0x40 with
    | 0x08 => s.qCfgWrite off v
    | 0x0C => s.qTail q n tx i v
    | 0x14 =>
      let on := nbit (s.rdN (b + 8)) 31
      let i := if on then nbits (s.rdN off) 16 0 else v % 0x20000
      if nbit v 31 && !s.maySignal (nbits (s.rdN (b + 8)) 28 24) i then s else if on then s.enOnly off v 31 else s.plain off v
    | 0x00 => if nbit (s.rdN (b + 8)) 31 then s else s.plain off v
    | _ => s

/-- FABRIC (Fabric R429, R440, R444 to R446, R450). -/
def State.wrFabric (s : State) (q : Req) (off v : Nat) : State :=
  if !q.pfOrHost then s
  else if off = FABRIC_CFG_CMD then s.cfgCmd q v
  else if off = FABRIC_PORT_CFG then
    if vbits v FABRIC_PORT_CFG_CLASS = 0 then s.refuse Code.FABRIC_DENIED off else s.plain off v
  else if off = FABRIC_SCRUB_CTRL then s.plain off (vfix v ⟨off, 15, 0⟩ (fun n => decide (10 ≤ n)) 10)
  else if decide (FABRIC_CLK_CFG 0 ≤ off) && decide (off ≤ FABRIC_CLK_CFG 3) then s.clkCfg q ((off - FABRIC_CLK_CFG 0) / 4) v
  else if decide (0x901000 ≤ off) && decide (off < 0x902000) then
    let g := (off - 0x901000) / 0x40
    if off = FABRIC_REGION_CTRL g then s.regionHold q g v
    else if off = FABRIC_REGION_POLICY g && !q.secure then s.refuse Code.FABRIC_DENIED off
    else s.plain off v
  else s.plain off v

/-- DEV_REQ and DOM_REQ: CANCEL, or a target; a reserved field that is not zero answers BAD_REQUEST (Power states Table 14.9). -/
def State.reqWrite (s : State) (q : Req) (dom : Option Nat) (v : Nat) : State :=
  let tag := nbits v 31 16
  match dom with
  | some i => if nbit v 4 then s.domCancel q i tag else s.domReq q i (v % 4) tag (nbits v 15 5 != 0 || nbits v 3 2 != 0)
  | none =>
    if nbit v 4 then s.devCancel q tag else s.devReq q (v % 4) tag (nbit v 8) (nbits v 15 9 != 0 || nbits v 7 5 != 0 || nbits v 3 2 != 0)

/-- A duty in eighths out of its range reads as 8 (Power cap §10). -/
def vduty (v : Nat) : Nat := vfix v ⟨0, 19, 16⟩ (fun n => decide (1 ≤ n) && decide (n ≤ 8)) 8

/-- POWER (Power states R468, R487, R492; Power cap R521). -/
def State.wrPower (s : State) (q : Req) (off v : Nat) : State :=
  if off = POWER_DEV_REQ then s.reqWrite q none v
  else if off = POWER_SEC_HOLD then s.secHold q v
  else if !s.pwrWriter q || decide (2 ≤ s.get POWER_DEV_STATUS_STATE) then s
  else if decide (POWER_DOM_REQ 0 ≤ off) && decide (off < POWER_CAP) then
    let i := (off - POWER_DOM_REQ 0) / 0x20
    if off = POWER_DOM_REQ i then s.reqWrite q (some i) v else s.plain off v
  else if off = POWER_HOST_ACK then (if v % 4 = 1 then s.hostAck q none else if v % 4 = 2 then s.hostAck q (some 5) else s)
  else if off = POWER_PAD_RELEASE then s.padRelease q v
  else if off = POWER_PREP_LIMIT then s.plain off (if v = 0 then 1 else v)
  else if off < POWER_CAP then s.plain off v
  else if !q.pfOrHost then s
  else if off = POWER_DROOP_RELEASE then s.droopRelease q v
  else if off = POWER_GOV_CTRL then (s.govKeep off).plain off (vfix v POWER_GOV_CTRL_PERIOD (fun n => decide (10 ≤ n) && decide (n ≤ 10000)) 100)
  else if off = POWER_CAP_WINDOW then (s.govKeep off).plain off (vfix v POWER_CAP_WINDOW_ROUNDS (fun n => decide (100 ≤ n)) 100)
  else if decide (POWER_GOV_LIMITS 0 ≤ off) && decide (off ≤ POWER_GOV_LIMITS 15) then
    let d := (off - POWER_GOV_LIMITS 0) / 4
    (s.govKeep off).plain off (vput (vduty v) (POWER_GOV_LIMITS_OP_MIN d) (min (vbits v (POWER_GOV_LIMITS_OP_MIN d)) (vbits v (POWER_GOV_LIMITS_OP_MAX d))))
  else if off = POWER_HOST_GOV then (s.govKeep off).plain off v
  else if off = POWER_MEDIA_GOV then (s.govKeep off).plain off (vduty v)
  else if off = POWER_THERMAL then s.plain off (vput v POWER_THERMAL_THROTTLE_C (max 70 (min 100 (vbits v POWER_THERMAL_THROTTLE_C))))
  else s.plain off v

/-- MONITOR (Power cap R521). -/
def State.wrMonitor (s : State) (q : Req) (off v : Nat) : State := if q.pfOrHost && s.pwrWriter q then s.plain off v else s

/-- SECURE (Trust R527, R528, R547, R559; Power states R490). -/
def State.wrSecure (s : State) (q : Req) (off v : Nat) : State :=
  if decide (SECURE_SEC_REGION_BASE 0 ≤ off) && decide (off ≤ SECURE_SEC_REGION_LIMIT 7) then
    if !q.secure then s.refuse Code.SEC_DENIED off
    else if s.newVal off v = s.rdN off then s
    else (s.plain off v).extendFree
  else if off = SECURE_SEC_NOTIFY then
    if !q.secure then s.refuse Code.SEC_DENIED off else if nbit v 0 then s.notifyAck q else s
  else if off = SECURE_IRQ_CFG then if q == .pf then s.plain off v else s
  else if 0xC01000 ≤ off then
    let k := (off - 0xC01000) / 0x400
    if k = 0 && !q.secure then s.refuse Code.SEC_DENIED off
    else if k = 1 && (q.secure || !q.pfOrHost) then s
    else if off < SECURE_MB_RSP k 0 then s.wrN off v
    else if off = SECURE_MB_CTRL k then if nbit v 31 then s.mbGo q k else s
    else s.plain off v
  else s

/-- ERROR (Errors R595, R600, R604, R606). An exit's self-test finds what it finds: a free value. -/
def State.wrError (s : State) (q : Req) (off v : Nat) : State :=
  if off = ERROR_INJECT then s.inject q v
  else if !Req.writesErrors q then s
  else if off = ERROR_ACK then s.errAck q v
  else if off = ERROR_SAFE_CTRL then
    let s := s.plain off v
    let s := if nbit v 29 then s.safeRequest q else s
    let s := if nbit v 30 then s.safeNow q else s
    if nbit v 31 then s.useFree.safeExit q (nbit s.free 0) else s
  else s.plain off v

/-- LEDGER_CFG: fields other than EN and LEVEL while EN is 0; EN from 0 to 1 sets HEAD and TAIL to 0 (Firmware R576, R577). -/
def State.ledgerCfg (s : State) (v : Nat) : State :=
  let off := FIRMWARE_LEDGER_CFG
  let v := vfix v FIRMWARE_LEDGER_CFG_LOG2_ENTRIES (fun n => decide (8 ≤ n) && decide (n ≤ 20)) 12
  let v := vfix v FIRMWARE_LEDGER_CFG_CLASS (· != 0) 3
  if s.on FIRMWARE_LEDGER_CFG_EN then
    let m := 2 ^ 31 + 3
    let s' := if mergeNat (s.newVal off v) m 0 != mergeNat (s.rdN off) m 0 then s.refuse Code.LEDGER_BUSY off else s
    s'.plain off (mergeNat (s.rdN off) m v)
  else
    let s := s.plain off v
    if nbit v 31 then (s.wrN FIRMWARE_LEDGER_HEAD 0).wrN FIRMWARE_LEDGER_TAIL 0 else s

/-- PS_POOL_BASE (Serving R317): EN is cleared only while every slot is FREE. -/
def State.poolBase (s : State) (v : Nat) : State :=
  let off := FIRMWARE_PS_POOL_BASE
  if !s.on FIRMWARE_PS_POOL_BASE_EN then s.plain off v
  else if mergeNat (s.newVal off v) 1 0 != mergeNat (s.rdN off) 1 0 then s.refuse Code.SERVE_BUSY off
  else if !nbit v 0 && (List.range 256).any (fun n => s.slotState n != 0) then s.refuse Code.SERVE_BUSY off
  else s.plain off v

/-- The tenant has a slot other than FREE, or a request queued or running. -/
def State.tenantBusy (s : State) (t : Nat) : Bool :=
  s.tenantSlots t != 0 || s.serve.sessions.any fun x => (x.queue ++ x.running).any fun r => r.tenant == t

/-- TENANT_FN (Serving R316, R318): VALID and FUNCTION change only while the tenant is not busy; MAX_SLOTS at any time. -/
def State.tenantWrite (s : State) (q : Req) (t v : Nat) : State :=
  let off := FIRMWARE_TENANT_FN t
  let old := s.rdN off
  if (v % 32 = 18 || old % 32 = 18) && !q.secure then s.refuse Code.SERVE_DENIED off
  else if (nbit v 31 != nbit old 31 || v % 32 != old % 32) && s.tenantBusy t then
    (s.refuse Code.SERVE_BUSY off).plain off (mergeNat v (2 ^ 31 + 31) old)
  else s.plain off v

/-- FIRMWARE (Firmware R571, R574, R576, R584; Serving R316 to R318). A watchdog that is off begins to count as its limit is written. -/
def State.wrFirmware (s : State) (q : Req) (off v : Nat) : State :=
  if !q.pfOrHost then s
  else if decide (FIRMWARE_PROC_STATE 0 ≤ off) && decide (off < FIRMWARE_LEDGER_BASE) then
    let p := (off - FIRMWARE_PROC_STATE 0) / 0x20
    if p != 2 && !s.spineUp then s
    else if off = FIRMWARE_PROC_CTRL p then
      let s := if s.get (FIRMWARE_PROC_CTRL_WDOG_ROUNDS p) = 0 then s.setFw fun f => { f with kick := SMap.set (fun _ => 0) f.kick p s.round } else s
      let s := s.plain off (mergeNat v (2 ^ 31) 0)
      if nbit v 31 then s.procHalt q p else s
    else s.plain off v
  else if !s.spineUp then s
  else if off = FIRMWARE_FW_READY_LIMIT then s.plain off (if 1000 ≤ v && v ≤ 1000000 then v else 100000)
  else if off = FIRMWARE_LEDGER_BASE then if s.on FIRMWARE_LEDGER_CFG_EN then s.refuse Code.LEDGER_BUSY off else s.plain off v
  else if off = FIRMWARE_LEDGER_CFG then s.ledgerCfg v
  else if off = FIRMWARE_LEDGER_TAIL then s.ledgerTail q v
  else if off = FIRMWARE_PS_POOL_BASE then s.poolBase v
  else if off = FIRMWARE_PS_POOL_CFG then
    if s.on FIRMWARE_PS_POOL_BASE_EN then s.refuse Code.SERVE_BUSY off
    else s.plain off (vfix v FIRMWARE_PS_POOL_CFG_SLOT_MIB (· != 0) 1)
  else if decide (FIRMWARE_TENANT_FN 0 ≤ off) && decide (off ≤ FIRMWARE_TENANT_FN 15) then s.tenantWrite q ((off - FIRMWARE_TENANT_FN 0) / 4) v
  else s.plain off v

/-- RELAY (Links R629, R638, R639): clearing ENABLE takes the port to DISABLED; a mirror names no bank of function 19 or 20. -/
def State.wrRelay (s : State) (q : Req) (off v : Nat) : State :=
  if !q.pfOrHost then s
  else if off = RELAY_CFG then
    let v := vfix v RELAY_CFG_CLASS (· != 0) 2
    let v := vfix v RELAY_CFG_SIZE (fun n => decide (1 ≤ n) && decide (n ≤ 4)) 1
    if s.on RELAY_CFG_ENABLE then
      if nbit v 31 then s
      else
        let s := if s.get RELAY_STATUS_STATE = 2 then s.relayDown else s
        ((s.putB RELAY_CFG_ENABLE false).put RELAY_STATUS_STATE 0).put RELAY_STATUS_PATH 0
    else if nbit v 31 then s.relayEnable q v
    else s.plain off v
  else if decide (RELAY_MIRROR 0 ≤ off) && decide (off ≤ RELAY_MIRROR 15) then
    let b := s.get (RINGS_RECEIPT_BANK_OWNER_FUNCTION (v % 16))
    if b == 19 || b == 20 then s else if s.on RELAY_CFG_ENABLE then s.enOnly off v 31 else s.plain off v
  else if (off = RELAY_IN_BASE || off = RELAY_IN_LIMIT) && s.on RELAY_CFG_ENABLE then
    if off = RELAY_IN_BASE then s.enOnly off v 0 else s
  else s.plain off v

/-- A block's register takes the value written to it. -/
def State.wrBlock (s : State) (q : Req) (off v : Nat) : State :=
  if off < 0x10000 then s.wrGlobal q off v
  else if off < 0x20000 then s.wrRound q off v
  else if off < 0x30000 then s.wrTxn q off v
  else if off < 0x100000 then s.wrRings q off v
  else match off / 0x100000 with
    | 1 => s.wrFloor q off v
    | 2 => s.wrMemctl q off v
    | 3 => s.wrIsp off v
    | 4 => s.wrVcodec off v
    | 5 => s.wrCamera off v
    | 6 => s.wrExpress off v
    | 7 => s.wrCport q off v
    | 8 => s.wrPlant q off v
    | 9 => s.wrFabric q off v
    | 10 => s.wrPower q off v
    | 11 => s.wrMonitor q off v
    | 12 => s.wrSecure q off v
    | 13 => s.wrError q off v
    | 14 => s.wrFirmware q off v
    | _ => s.wrRelay q off v

/-! ### Accesses (Scope R13 to R19, R23) -/

/-- A register takes a whole written value: SH and PL fields go to the writer's transaction or to their pair (`pl` says whether they are still to go),
and the other fields act at once. While the register's domain is down only a transaction records (Transactions R129). -/
def State.regApply (s : State) (q : Req) (off v : Nat) (pl : Bool) : State :=
  let m := maskOf .sh off + maskOf .pl off
  let down := s.regDown off
  if down && (m = 0 || (s.openOf q).isNone) then s
  else
    let s := if m != 0 && pl && mayShadow q off then s.shplWrite q off v else s
    if down || (m != 0 && maskOf .rw off + maskOf .w1c off + maskOf .w1s off = 0) then s else s.wrBlock q off v

/-- A region's register window (Fabric R446). -/
def inFabWindow (off : Nat) : Bool := decide (0x980000 ≤ off) && decide (off < 0xA00000)

/-- An aligned 32-bit write. A second low half of the register that its requester holds takes the place of the first, and its limit counts from the round
in which it lands: R18 does not say (log entry 147). -/
def State.write32 (s : State) (q : Req) (off v : Nat) (pl : Bool) : State :=
  if inFabWindow off then
    if s.domUp 19 && s.spineUp then (s.dropHold q none).fabReg ((off - 0x980000) / 0x10000) (off % 0x10000) (some v) none else s
  else match regRow? off with
    | some r =>
      if r.width = 64 then
        let s := if (s.holdOf q).any fun h => h.reg != off then s.dropHold q none else s
        s.setHold q (some ⟨off, v, s.round⟩)
      else (s.dropHold q none).regApply q off v pl
    | none => match (if off % 8 = 4 then regRow? (off - 4) else none) with
      | some r =>
        if r.width != 64 then s
        else
          let reg := off - 4
          match s.holdOf q with
          | some h =>
            if h.reg = reg then (s.setHold q none).regApply q reg (h.low + v * 2 ^ 32) pl
            else (s.dropHold q none).regApply q reg (s.rdN reg % 2 ^ 32 + v * 2 ^ 32) pl
          | none => s.regApply q reg (s.rdN reg % 2 ^ 32 + v * 2 ^ 32) pl
      | none => s

/-- A 64-bit access carries both halves of a pair, outside a transaction of its writer (Scope R19, Transactions R147). -/
def State.carriesPair (s : State) (q : Req) (off : Nat) : Bool :=
  maskOf .pl off != 0 && maskOf .pl (off + 4) != 0 && pairKey off == off && (s.openOf q).isNone && mayShadow q off && !s.regDown off

/-- An aligned 64-bit write. -/
def State.write64 (s : State) (q : Req) (off v : Nat) : State :=
  let a := v % 2 ^ 32
  let b := v / 2 ^ 32 % 2 ^ 32
  match regRow? off with
  | some r =>
    if r.width = 64 then (s.dropHold q (some off)).regApply q off v true
    else if s.carriesPair q off then
      ((s.write32 q off a false).write32 q (off + 4) b false).pairBoth q.writer off a b
    else (s.write32 q off a true).write32 q (off + 4) b true
  | none => (s.write32 q off a true).write32 q (off + 4) b true

/-- A register write that lands (Scope R14, R22). -/
def State.regWrite (s : State) (q : Req) (off size v : Nat) : State :=
  if !s.path q then s
  else if size < 4 || off % size != 0 then s.refuse Code.REG_ACCESS off
  else if size = 4 then s.write32 q off (v % 2 ^ 32) true
  else s.write64 q off (v % 2 ^ 64)

def execRegWrite (q : Req) (off size v : Nat) (s : State) : Host.Outcome State Fault Refusal :=
  if decide (0x1000000 ≤ off) || !(size == 1 || size == 2 || size == 4 || size == 8) then .fault (.notARegisterAccess off size)
  else .next (s.regWrite q off size v)

/-- A held low half whose high half has not landed by the end of the round after its own is dropped (Scope R18). -/
def execLowHalfDrop (q : Req) (s : State) : Host.Outcome State Fault Refusal :=
  .next (match s.holdOf q with
    | some h => if h.round + 2 ≤ s.round then s.dropHold q none else s
    | none => s)

/-! ### Reads (Scope R14, R15, R17, R19) -/

/-- Word `j` of an error record (Errors Table 18.2). -/
def recWord (r : ErrRec) (j : Nat) : Nat :=
  let flag (b : Bool) (i : Nat) : Nat := if b then 2 ^ i else 0
  let flags := 128 + flag r.injected 4 + flag r.safe 3 + flag r.nested 2 + flag r.preempted 1 + flag r.ring.isSome 0
  [r.seq, r.code + r.cls * 2 ^ 16 + flags * 2 ^ 24, r.round % 2 ^ 32, r.round / 2 ^ 32, r.ring.getD 0xFFFF + r.unit * 2 ^ 16, r.count, r.detail % 2 ^ 32,
    r.detail / 2 ^ 32].getD j 0

/-- What a register shows, for the registers whose contents State holds as typed data: FREQ_ADJ, a holder's own CMD_STATUS (Transactions R122, §9), the
debug readout (Parcels R283), the seals (Trust R540) and the error records (Errors R589, R593). Every other register shows the register file. -/
def State.shown (s : State) (q : Req) (off : Nat) : Nat :=
  let j := off % 0x20 / 4
  if off = ROUND_FREQ_ADJ then ofSigned 32 s.rnd.freqAdj
  else if off = TXN_CMD_STATUS then match q.holder with
    | none => 0
    | some h => SMap.get (fun _ => 0) s.txn.cmd h + (if (s.heldBy h).any fun o => s.txn.seals.contains o then 2 ^ 31 else 0)
  else if decide (FLOOR_DBG_DATA 0 ≤ off) && decide (off < FLOOR_DBG_DATA 16) then s.floor.dbg.getD ((off - FLOOR_DBG_DATA 0) / 4) 0
  else if decide (SECURE_SEAL 0 0 ≤ off) && decide (off < SECURE_SEAL 8 0) then
    fieldLE (s.sealOf ((off - SECURE_SEAL 0 0) / 0x40)) ((off - SECURE_SEAL 0 0) % 0x40) 4
  else if off = ERROR_CUR then match s.curRec with
    | some r => r.slot
    | none => s.rdN off
  else if decide (ERROR_REC 0 0 ≤ off) && decide (off < ERROR_REC 256 0) then
    match s.err.recs.find? fun r => r.slot == (off - ERROR_REC 0 0) / 0x20 with
    | some r => recWord r j
    | none => 0
  else s.rdN off

/-- The value that a read of a register returns: a secure-only register reads zero with the normal tag (Trust R527), a WO field reads zero, and so
does a register whose domain is OFF (Power states Table 14.2). -/
def State.readWhole (s : State) (q : Req) (off : Nat) : Nat :=
  let secret := !q.secure && ((decide (SECURE_SEC_REGION_BASE 0 ≤ off) && decide (off ≤ SECURE_SEC_REGION_LIMIT 7)) || off == SECURE_SEC_NOTIFY ||
    (decide (SECURE_MB_REQ 0 0 ≤ off) && decide (off < SECURE_MB_REQ 1 0)))
  let off_ := match regDomain off with | some d => s.dom d == 3 | none => false
  if secret || off_ then 0 else mergeNat (s.shown q off) (maskOf .wo off) 0

/-- A 32-bit read of one half of a 64-bit register: the low half latches the high half for its requester, whose next read of the high half returns the
latched value and releases the latch. A requester that holds no latch reads the present high half, as for a high half written with no low half held
(R18): R17 does not say what it reads (log entry 146). -/
def State.readHalf (s : State) (q : Req) (off : Nat) (high : Bool) : State :=
  let give := fun (l : List RegLatch) (n : Nat) => (s.setBus fun z => { z with latches := l, data := n })
  let mine := fun (l : RegLatch) => l.who == q.index && l.reg == off
  let v := s.readWhole q off
  if !high then give (s.bus.latches.filter (fun l => !mine l) ++ [⟨q.index, off, v / 2 ^ 32⟩]) (v % 2 ^ 32)
  else match s.bus.latches.find? mine with
    | some l => give (s.bus.latches.filter fun l => !mine l) l.high
    | none => give s.bus.latches (v / 2 ^ 32)

/-- An aligned 32-bit read: a 32-bit register, a half of a 64-bit one, or zero where there is none (Scope R15). A read of a region's window goes to the
region, which has 256 ns to answer (Fabric R446). -/
def State.read32 (s : State) (q : Req) (off : Nat) : State :=
  if inFabWindow off then
    if s.domUp 19 && s.spineUp then s.fabReg ((off - 0x980000) / 0x10000) (off % 0x10000) none none else s.giveRead 0
  else match regRow? off with
  | some r => if r.width = 64 then s.readHalf q off false else s.giveRead (s.readWhole q off)
  | none => match (if off % 8 = 4 then regRow? (off - 4) else none) with
    | some r => if r.width = 64 then s.readHalf q (off - 4) true else s.giveRead 0
    | none => s.giveRead 0

/-- An aligned 64-bit read: a whole 64-bit register, or the lower address and then the higher, low bits first (Scope R19). -/
def State.read64 (s : State) (q : Req) (off : Nat) : State :=
  if (regRow? off).any fun r => r.width = 64 then s.giveRead (s.readWhole q off)
  else
    let a := s.read32 q off
    let b := a.read32 q (off + 4)
    b.giveRead (a.bus.data + b.bus.data * 2 ^ 32)

/-- The byte of register space at an offset. -/
def State.regByte (s : State) (q : Req) (off : Nat) : Nat :=
  let at4 : Nat → Nat := fun w => match regRow? w with
    | some _ => s.readWhole q w % 2 ^ 32
    | none => if w % 8 = 4 && ((regRow? (w - 4)).any fun r => r.width = 64) then s.readWhole q (w - 4) / 2 ^ 32 else 0
  at4 (off / 4 * 4) / 2 ^ (off % 4 * 8) % 256

/-- A register read (Scope R14, R19). -/
def State.regRead (s : State) (q : Req) (off size : Nat) : State :=
  if !s.path q then s
  else if size < 4 then s.giveRead (leNat ((List.range size).map fun i => BitVec.ofNat 8 (s.regByte q (off + i))))
  else if off % size != 0 then (s.giveRead 0).refuse Code.REG_ACCESS off
  else if size = 4 then s.read32 q off
  else s.read64 q off

def execLowHalfRead (q : Req) (off size : Nat) (s : State) : Host.Outcome State Fault Refusal :=
  if decide (0x1000000 ≤ off) || !(size == 1 || size == 2 || size == 4 || size == 8) then .fault (.notARegisterAccess off size)
  else .next (s.regRead q off size)

end Sys2Proof.Machine
end

