-- ==== Sys2Proof/Machine/Boundary.lean ====
section
/-! DEFINITION. The round boundary (Round R43, R44): the round counter rises by 1, and each block takes what it takes at a boundary. -/

namespace Sys2Proof.Machine
open Reg

/-! ### The entry of a round -/

/-- Pairs mated or seals accepted before the present round have not been decided yet (Transactions R134). -/
def State.applyDue (s : State) : Bool :=
  (s.txn.mated.any fun m => decide (m.round < s.round)) || s.txn.seals.any fun o => decide ((s.ownerSt o).sealRound < s.round)

/-- The blocks take the entry of the round: refresh lanes, transfers that wait, and spills. -/
def State.takeEntry (s : State) : State := ((s.setRnd fun r => { r with entryDue := false }).memEntry).spillEntry

/-- The entry is taken once the pairs and seals of the boundary are decided, so that what they change governs this round already (Transactions R137,
R146). -/
def State.entryNow (s : State) : State := if s.rnd.entryDue && !s.applyDue then s.takeEntry else s

def execPairApply (s : State) : Host.Outcome State Fault Refusal := .next s.applyPairs.entryNow

def execSealApply (s : State) : Host.Outcome State Fault Refusal := .next s.applySeals.entryNow

/-! ### The boundary -/

/-- The round just ended is accounted for: classes that had budget left (Memory R405), the clocks that droop detectors stretched (Power cap
R516), and the time for which units ran (Power cap R510). -/
def State.roundEnd (s : State) : State :=
  let from_ := s.round * 1000
  let s := if s.rnd.entryDue then s.takeEntry else s
  (s.govActivity from_).capShort.each (List.range 19) fun s i => s.droopRound from_ i

/-- The round counter rises by 1, and counts that are kept for one round begin again. -/
def State.countRound (s : State) : State :=
  let s := (s.wrN ROUND_COUNT ((s.round + 1) % 2 ^ 64)).wrN ROUND_PHASE 0
  (s.setRnd fun r => { r with ns := 0, deferred := [], ran := [] }).setFetch fun f => { served := f.served }

/-- What a block does at the boundary from which it acts on a register that has been written (Scope R21); `old` is the value it acted on before. -/
def State.latched (s : State) (off : Nat) (old : Word) : State :=
  let c := (off - EXPRESS_CHAN_CFG 0) / 0x40
  if off = EXPRESS_CHAN_CFG c && decide (c < 8) then s.chanBoundary c old
  else if off = CPORT_PORT_CFG 0 then s.portBoundary 0
  else if off = CPORT_PORT_CFG 1 then s.portBoundary 1
  else if off = CPORT_GUARD_CTRL 0 then s.guardBoundary 0
  else if off = CPORT_GUARD_CTRL 1 then s.guardBoundary 1
  else if decide (ISP_STREAM_CFG 0 ≤ off) && decide (off < EXPRESS_CHAN_CFG 0) then s.visLatch off old
  else s

/-- Every block acts on the values written in the round that has ended. -/
def State.latchAll (s : State) : State := (s.setActing []).each s.acting fun s e => s.latched e.1 e.2

/-- What each block does at every boundary, for the round that begins. -/
def State.blocksBoundary (s : State) : State :=
  let s := (s.ttBoundary.memBoundary.setRnd fun r => { r with entryDue := true }).entryNow.fabBoundary
  let s := s.releaseBoundary.dbgBoundary.pwrBoundary.fwBoundary
  let s := s.errBoundary.trustBoundary
  s.setTxn fun z => { z with limit := s.rdN TXN_OPEN_LIMIT }

/-- A boundary: `energy` is the energy unit's estimate of the round that has ended (Power cap R498). -/
def State.boundary (s : State) (energy : List EnergyPart) : State :=
  let s := s.roundEnd.countRound.latchAll
  ((s.energyRound energy).blocksBoundary.bootBoundary).resetBoundary

/-- The tick generator runs while the supply is up and the device is not in power-on reset (Bring-up R641, Power states R465). -/
def execRoundBoundary (energy : List EnergyPart) (s : State) : Host.Outcome State Fault Refusal :=
  .next (if s.boot.supply == .up && !s.boot.resetLow then s.boundary energy else s)

end Sys2Proof.Machine
end

