-- ==== Sys2Proof/Machine/HostCore.lean ====
section
/-! DEFINITION. Memory requests, and what the module's cores reach by a device address beside memory: register space and the doorbell pages (Scope R12,
Envelopes R79, Memory Table 12.3). -/

namespace Sys2Proof.Machine
open Reg

/-- The host cores and the Opantith core, which alone reach register space and the host-core doorbell pages by device address. -/
def Req.onModule : Req → Bool
  | .host _ _ => true
  | .opantith => true
  | _ => false

/-- The request of a core lies in register space or in the doorbell pages. -/
def coreSpace (a : Nat) : Bool := decide (0xF000000000 ≤ a) && decide (a < 0xF002000000)

/-- A core's access to register space, at BAR0 offset `a` − 0xF0_0000_0000, or to the doorbell page of ring (`a` − 0xF0_0100_0000) / 4,096. -/
def State.coreOp (s : State) (q : Req) (a n : Nat) (v : Option Nat) : State :=
  if a < 0xF001000000 then
    match v with
    | some v => s.regWrite q (a - 0xF000000000) n v
    | none => s.regRead q (a - 0xF000000000) n
  else s.pageAccess q ((a - 0xF001000000) / 4096) ⟨a % 4096, n⟩ v

/-- The same, answered by the tag of its request. A core's access has 1, 2, 4 or 8 bytes; one of another size does nothing (log entry 170). -/
def State.coreAccess (s : State) (tag : Nat) (q : Req) (a : Nat) (o : MemOp) : State :=
  let n := memSize o
  if !([1, 2, 4, 8].contains n) then s
  else match o with
    | .write b => (s.coreOp q a n (some (leNat b))).memAnswer tag .written
    | .read _ =>
      let s := (s.giveRead 0).coreOp q a n none
      s.memAnswer tag (.data (leBytes n s.bus.data))

/-- A memory request: of a core for register space or a doorbell page, or of any requester for memory. -/
def State.anyRequest (s : State) (tag : Nat) (b : MemBy) (a : Nat) (o : MemOp) : State :=
  match b with
  | .host q => if Req.onModule q && coreSpace a then s.coreAccess tag q a o else s.memRequest tag b a o
  | _ => s.memRequest tag b a o

def execMemRequest (tag : Nat) (b : MemBy) (a : Nat) (o : MemOp) (t : Nat) (s : State) : Host.Outcome State Fault Refusal :=
  .next ((s.atNs t).anyRequest tag b a o)

end Sys2Proof.Machine
end

