-- ==== Sys2Proof/Machine/Dispatch.lean ====
section
/-! DEFINITION. One arm per command: a direct call of its meaning. -/

namespace Sys2Proof.Machine

def exec (i : Instr) (s : State) : Host.Outcome State Fault Refusal :=
  match i with
  | .regWrite q off size v => Sys2Proof.Machine.execRegWrite q off size v s
  | .lowHalfDrop q => Sys2Proof.Machine.execLowHalfDrop q s
  | .roundBoundary energy => Sys2Proof.Machine.execRoundBoundary energy s
  | .syncReceived m => Sys2Proof.Machine.execSyncReceived m s
  | .syncLoss t => Sys2Proof.Machine.execSyncLoss t s
  | .holdoverExpiry t => Sys2Proof.Machine.execHoldoverExpiry t s
  | .alignment net => Sys2Proof.Machine.execAlignment net s
  | .alignmentComplete => Sys2Proof.Machine.execAlignmentComplete s
  | .relock t => Sys2Proof.Machine.execRelock t s
  | .syncSourceWrite src t => Sys2Proof.Machine.execSyncSourceWrite src t s
  | .ttLoad bank entries first => Sys2Proof.Machine.execTtLoad bank entries first s
  | .ttLoadDone => Sys2Proof.Machine.execTtLoadDone s
  | .ttVerify bank => Sys2Proof.Machine.execTtVerify bank s
  | .ttVerifyDone => Sys2Proof.Machine.execTtVerifyDone s
  | .ttEnableWrite en => Sys2Proof.Machine.execTtEnableWrite en s
  | .unitStart u w t => Sys2Proof.Machine.execUnitStart u w t s
  | .unitEnd u t => Sys2Proof.Machine.execUnitEnd u t s
  | .overrun u t => Sys2Proof.Machine.execOverrun u t s
  | .unitHang u t => Sys2Proof.Machine.execUnitHang u t s
  | .txnOpen w => Sys2Proof.Machine.execTxnOpen w s
  | .txnWrites r seq => Sys2Proof.Machine.execTxnWrites r seq s
  | .txnSeal w => Sys2Proof.Machine.execTxnSeal w s
  | .txnReturn w => Sys2Proof.Machine.execTxnReturn w s
  | .sealApply => Sys2Proof.Machine.execSealApply s
  | .txnExpired o => Sys2Proof.Machine.execTxnExpired o s
  | .pairApply => Sys2Proof.Machine.execPairApply s
  | .pairOrphan p => Sys2Proof.Machine.execPairOrphan p s
  | .submissionDoorbell q page a v => Sys2Proof.Machine.execSubmissionDoorbell q page a v s
  | .returnDoorbell q page a v => Sys2Proof.Machine.execReturnDoorbell q page a v s
  | .envelopeFetch r => Sys2Proof.Machine.execEnvelopeFetch r s
  | .envelopeStart r t => Sys2Proof.Machine.execEnvelopeStart r t s
  | .envelopeComplete r seq t => Sys2Proof.Machine.execEnvelopeComplete r seq t s
  | .irqDelay r => Sys2Proof.Machine.execIrqDelay r s
  | .nop r seq => Sys2Proof.Machine.execNop r seq s
  | .run r seq b => Sys2Proof.Machine.execRun r seq b s
  | .runRelease r seq => Sys2Proof.Machine.execRunRelease r seq s
  | .copy r seq => Sys2Proof.Machine.execCopy r seq s
  | .wait r seq => Sys2Proof.Machine.execWait r seq s
  | .waitSatisfied r seq => Sys2Proof.Machine.execWaitSatisfied r seq s
  | .waitTimeout r seq => Sys2Proof.Machine.execWaitTimeout r seq s
  | .signal r seq => Sys2Proof.Machine.execSignal r seq s
  | .remoteSignalTimeout r seq => Sys2Proof.Machine.execRemoteSignalTimeout r seq s
  | .fence r seq => Sys2Proof.Machine.execFence r seq s
  | .receiptSigValue q v => Sys2Proof.Machine.execReceiptSigValue q v s
  | .receiptBaseWrite q v => Sys2Proof.Machine.execReceiptBaseWrite q v s
  | .ringCfgWrite q r v => Sys2Proof.Machine.execRingCfgWrite q r v s
  | .ringEnable q r => Sys2Proof.Machine.execRingEnable q r s
  | .ringDisable q r => Sys2Proof.Machine.execRingDisable q r s
  | .ringStop q r => Sys2Proof.Machine.execRingStop q r s
  | .ringAbort q r => Sys2Proof.Machine.execRingAbort q r s
  | .ringResume q r => Sys2Proof.Machine.execRingResume q r s
  | .functionLevelReset f => Sys2Proof.Machine.execFunctionLevelReset f s
  | .wordIssue c cyc pc w => Sys2Proof.Machine.execWordIssue c cyc pc w s
  | .districtBarrier d => Sys2Proof.Machine.execDistrictBarrier d s
  | .scrubRead addr bad => Sys2Proof.Machine.execScrubRead addr bad s
  | .stepEnd d f t => Sys2Proof.Machine.execStepEnd d f t s
  | .walkKWrite q d rec v => Sys2Proof.Machine.execWalkKWrite q d rec v s
  | .inboundWrite r seq from_ addr counter data => Sys2Proof.Machine.execInboundWrite r seq from_ addr counter data s
  | .arrivalTimeout d r seq => Sys2Proof.Machine.execArrivalTimeout d r seq s
  | .relayWriteTimeout r seq => Sys2Proof.Machine.execRelayWriteTimeout r seq s
  | .postmarkMark r seq => Sys2Proof.Machine.execPostmarkMark r seq s
  | .armBreakOnTag r seq => Sys2Proof.Machine.execArmBreakOnTag r seq s
  | .armBreakOnCount r seq => Sys2Proof.Machine.execArmBreakOnCount r seq s
  | .disarm r seq => Sys2Proof.Machine.execDisarm r seq s
  | .debugRelease q v => Sys2Proof.Machine.execDebugRelease q v s
  | .debugHoldExpired d => Sys2Proof.Machine.execDebugHoldExpired d s
  | .dbgSelWrite q v => Sys2Proof.Machine.execDbgSelWrite q v s
  | .sessionOpen r seq => Sys2Proof.Machine.execSessionOpen r seq s
  | .sessionAdmit r seq => Sys2Proof.Machine.execSessionAdmit r seq s
  | .sessionCancel r seq => Sys2Proof.Machine.execSessionCancel r seq s
  | .sessionClose r seq => Sys2Proof.Machine.execSessionClose r seq s
  | .sessionStatus r seq => Sys2Proof.Machine.execSessionStatus r seq s
  | .passStart id b => Sys2Proof.Machine.execPassStart id b s
  | .passComplete id t energy => Sys2Proof.Machine.execPassComplete id t energy s
  | .psLoad r seq => Sys2Proof.Machine.execPsLoad r seq s
  | .psBind r seq => Sys2Proof.Machine.execPsBind r seq s
  | .psBindApply => Sys2Proof.Machine.execPsBindApply s
  | .slotRetire slot => Sys2Proof.Machine.execSlotRetire slot s
  | .csi2Packet p => Sys2Proof.Machine.execCsi2Packet p s
  | .frameFinish c data => Sys2Proof.Machine.execFrameFinish c data s
  | .camSourceLost c data => Sys2Proof.Machine.execCamSourceLost c data s
  | .chanEnable q c v => Sys2Proof.Machine.execChanEnable q c v s
  | .ispStreamEnable q u v => Sys2Proof.Machine.execIspStreamEnable q u v s
  | .decodeAccessUnit u k => Sys2Proof.Machine.execDecodeAccessUnit u k s
  | .encodePicture e au => Sys2Proof.Machine.execEncodePicture e au s
  | .encodeEnable q e v => Sys2Proof.Machine.execEncodeEnable q e v s
  | .jpegJob => Sys2Proof.Machine.execJpegJob s
  | .jpegJobDone o => Sys2Proof.Machine.execJpegJobDone o s
  | .adcConversion c t => Sys2Proof.Machine.execAdcConversion c t s
  | .sampleAvailable c a t => Sys2Proof.Machine.execSampleAvailable c a t s
  | .settleEnd c => Sys2Proof.Machine.execSettleEnd c s
  | .fabricBlock c words t => Sys2Proof.Machine.execFabricBlock c words t s
  | .expressUnitStart c clerks inbox t => Sys2Proof.Machine.execExpressUnitStart c clerks inbox t s
  | .expressUnitEnd c v0 v1 t => Sys2Proof.Machine.execExpressUnitEnd c v0 v1 t s
  | .spillDrop => Sys2Proof.Machine.execSpillDrop s
  | .expressRunComplete => Sys2Proof.Machine.execExpressRunComplete s
  | .cportFrameReceive p f fcs t => Sys2Proof.Machine.execCportFrameReceive p f fcs t s
  | .req p => Sys2Proof.Machine.execReq p s
  | .cxSnapshot p t => Sys2Proof.Machine.execCxSnapshot p t s
  | .rspSend p w t => Sys2Proof.Machine.execRspSend p w t s
  | .svcIdentify p => Sys2Proof.Machine.execSvcIdentify p s
  | .svcCounters p => Sys2Proof.Machine.execSvcCounters p s
  | .cportCxSilent p t => Sys2Proof.Machine.execCportCxSilent p t s
  | .guardCut p t => Sys2Proof.Machine.execGuardCut p t s
  | .guardSwitchApply p => Sys2Proof.Machine.execGuardSwitchApply p s
  | .guardDisagree p => Sys2Proof.Machine.execGuardDisagree p s
  | .ptpFrameSend p f t => Sys2Proof.Machine.execPtpFrameSend p f t s
  | .cportLink p offer t => Sys2Proof.Machine.execCportLink p offer t s
  | .memRequest tag b a o t => Sys2Proof.Machine.execMemRequest tag b a o t s
  | .memBurstIssue c rows t => Sys2Proof.Machine.execMemBurstIssue c rows t s
  | .memPromote c tag t => Sys2Proof.Machine.execMemPromote c tag t s
  | .memReadData c tag k => Sys2Proof.Machine.execMemReadData c tag k s
  | .ddr5Alert sub => Sys2Proof.Machine.execDdr5Alert sub s
  | .refreshDebt c t => Sys2Proof.Machine.execRefreshDebt c t s
  | .trainingAction c passes => Sys2Proof.Machine.execTrainingAction c passes s
  | .ddr5Bringup q v => Sys2Proof.Machine.execDdr5Bringup q v s
  | .ddr5BringupDone o => Sys2Proof.Machine.execDdr5BringupDone o s
  | .fabricLoad r seq => Sys2Proof.Machine.execFabricLoad r seq s
  | .fabricLoadBegin bad => Sys2Proof.Machine.execFabricLoadBegin bad s
  | .fabricRelease g => Sys2Proof.Machine.execFabricRelease g s
  | .readFrame q far => Sys2Proof.Machine.execReadFrame q far s
  | .clear q g => Sys2Proof.Machine.execClear q g s
  | .scrubPass q => Sys2Proof.Machine.execScrubPass q s
  | .fabricScrubRead far flips => Sys2Proof.Machine.execFabricScrubRead far flips s
  | .regionFault g => Sys2Proof.Machine.execRegionFault g s
  | .regionHoldWrite q g v => Sys2Proof.Machine.execRegionHoldWrite q g v s
  | .fabricMeshRequest a o => Sys2Proof.Machine.execFabricMeshRequest a o s
  | .fabricRegAccess q g off w ans => Sys2Proof.Machine.execFabricRegAccess q g off w ans s
  | .fabricRegTimeout g => Sys2Proof.Machine.execFabricRegTimeout g s
  | .clkCfgWrite q u v => Sys2Proof.Machine.execClkCfgWrite q u v s
  | .domReqOn q u tag => Sys2Proof.Machine.execDomReqOn q u tag s
  | .domReqIdle q u tag => Sys2Proof.Machine.execDomReqIdle q u tag s
  | .domReqRetain q u tag => Sys2Proof.Machine.execDomReqRetain q u tag s
  | .domReqOff q u tag => Sys2Proof.Machine.execDomReqOff q u tag s
  | .domReqCancel q u tag => Sys2Proof.Machine.execDomReqCancel q u tag s
  | .devReqRun q tag => Sys2Proof.Machine.execDevReqRun q tag s
  | .devReqWatch q tag partialOk => Sys2Proof.Machine.execDevReqWatch q tag partialOk s
  | .devReqSleep q tag partialOk => Sys2Proof.Machine.execDevReqSleep q tag partialOk s
  | .devReqHalt q tag partialOk => Sys2Proof.Machine.execDevReqHalt q tag partialOk s
  | .devReqCancel q tag => Sys2Proof.Machine.execDevReqCancel q tag s
  | .agentAnswer u => Sys2Proof.Machine.execAgentAnswer u s
  | .hostAckAgree q => Sys2Proof.Machine.execHostAckAgree q s
  | .hostAckRefuse q => Sys2Proof.Machine.execHostAckRefuse q s
  | .prepTimeout u => Sys2Proof.Machine.execPrepTimeout u s
  | .transitionStep u => Sys2Proof.Machine.execTransitionStep u s
  | .idleEntry u => Sys2Proof.Machine.execIdleEntry u s
  | .idleWake u => Sys2Proof.Machine.execIdleWake u s
  | .wakeEvent src => Sys2Proof.Machine.execWakeEvent src s
  | .padRelease q v => Sys2Proof.Machine.execPadRelease q v s
  | .secHoldWrite q v => Sys2Proof.Machine.execSecHoldWrite q v s
  | .avsAck b t => Sys2Proof.Machine.execAvsAck b t s
  | .avsSettle b t => Sys2Proof.Machine.execAvsSettle b t s
  | .avsTimeout b t => Sys2Proof.Machine.execAvsTimeout b t s
  | .opChange d => Sys2Proof.Machine.execOpChange d s
  | .monitorSample m raw => Sys2Proof.Machine.execMonitorSample m raw s
  | .hxpTempRead raw => Sys2Proof.Machine.execHxpTempRead raw s
  | .trimUpdate ratios => Sys2Proof.Machine.execTrimUpdate ratios s
  | .governorDecision demand rise => Sys2Proof.Machine.execGovernorDecision demand rise s
  | .droopTrigger u t => Sys2Proof.Machine.execDroopTrigger u t s
  | .droopRestore u t => Sys2Proof.Machine.execDroopRestore u t s
  | .droopRelease q v => Sys2Proof.Machine.execDroopRelease q v s
  | .throttleStep m => Sys2Proof.Machine.execThrottleStep m s
  | .throttleRestore u => Sys2Proof.Machine.execThrottleRestore u s
  | .secureStart root => Sys2Proof.Machine.execSecureStart root s
  | .mbGo q k => Sys2Proof.Machine.execMbGo q k s
  | .getInfo k => Sys2Proof.Machine.execGetInfo k s
  | .quote k ecdsa mldsa => Sys2Proof.Machine.execQuote k ecdsa mldsa s
  | .getCert k cert => Sys2Proof.Machine.execGetCert k cert s
  | .readLog k => Sys2Proof.Machine.execReadLog k s
  | .extend k => Sys2Proof.Machine.execExtend k s
  | .verifyImage => Sys2Proof.Machine.execVerifyImage s
  | .raiseCounter => Sys2Proof.Machine.execRaiseCounter s
  | .confirmSlot => Sys2Proof.Machine.execConfirmSlot s
  | .runtimeUpdate => Sys2Proof.Machine.execRuntimeUpdate s
  | .norRead => Sys2Proof.Machine.execNorRead s
  | .norErase fail => Sys2Proof.Machine.execNorErase fail s
  | .norProgram fail => Sys2Proof.Machine.execNorProgram fail s
  | .guardWrite => Sys2Proof.Machine.execGuardWrite s
  | .guardSwitch => Sys2Proof.Machine.execGuardSwitch s
  | .guardArm => Sys2Proof.Machine.execGuardArm s
  | .keyInstall => Sys2Proof.Machine.execKeyInstall s
  | .keyRevoke => Sys2Proof.Machine.execKeyRevoke s
  | .fabricApprove => Sys2Proof.Machine.execFabricApprove s
  | .ownerEnroll readOk => Sys2Proof.Machine.execOwnerEnroll readOk s
  | .revokeVendorKey readOk => Sys2Proof.Machine.execRevokeVendorKey readOk s
  | .debugUnlock => Sys2Proof.Machine.execDebugUnlock s
  | .lifecycleReturn readOk => Sys2Proof.Machine.execLifecycleReturn readOk s
  | .thermalNotifyAck q => Sys2Proof.Machine.execThermalNotifyAck q s
  | .thermalNotifyTimeout => Sys2Proof.Machine.execThermalNotifyTimeout s
  | .fwLoadProcessor r seq => Sys2Proof.Machine.execFwLoadProcessor r seq s
  | .fwRestartPostmaster r seq => Sys2Proof.Machine.execFwRestartPostmaster r seq s
  | .fwLoadStore r seq => Sys2Proof.Machine.execFwLoadStore r seq s
  | .fwReady p code format => Sys2Proof.Machine.execFwReady p code format s
  | .fwStartFail p => Sys2Proof.Machine.execFwStartFail p s
  | .procHalt q p => Sys2Proof.Machine.execProcHalt q p s
  | .wdogKick p => Sys2Proof.Machine.execWdogKick p s
  | .fwWatchdog p => Sys2Proof.Machine.execFwWatchdog p s
  | .ledgerEntry p mark id level a0 a1 a2 t => Sys2Proof.Machine.execLedgerEntry p mark id level a0 a1 a2 t s
  | .ledgerTailWrite q v => Sys2Proof.Machine.execLedgerTailWrite q v s
  | .ack q v => Sys2Proof.Machine.execAck q v s
  | .inject q v => Sys2Proof.Machine.execInject q v s
  | .safeRequest q => Sys2Proof.Machine.execSafeRequest q s
  | .safeNow q => Sys2Proof.Machine.execSafeNow q s
  | .safeStateReached t => Sys2Proof.Machine.execSafeStateReached t s
  | .safeExit q disagree => Sys2Proof.Machine.execSafeExit q disagree s
  | .safeExitApply => Sys2Proof.Machine.execSafeExitApply s
  | .clockMonitorWindow ppm => Sys2Proof.Machine.execClockMonitorWindow ppm s
  | .bar4Access off n w => Sys2Proof.Machine.execBar4Access off n w s
  | .hostWake q v => Sys2Proof.Machine.execHostWake q v s
  | .perstAssert => Sys2Proof.Machine.execPerstAssert s
  | .perstDeassert => Sys2Proof.Machine.execPerstDeassert s
  | .pcieError f e hit => Sys2Proof.Machine.execPcieError f e hit s
  | .pcieLinkDown => Sys2Proof.Machine.execPcieLinkDown s
  | .plantFrameReceive n frame fcs => Sys2Proof.Machine.execPlantFrameReceive n frame fcs s
  | .plantFrameTransmit n => Sys2Proof.Machine.execPlantFrameTransmit n s
  | .qTailWrite q n tx u v => Sys2Proof.Machine.execQTailWrite q n tx u v s
  | .plantLink n speed => Sys2Proof.Machine.execPlantLink n speed s
  | .relayEnable q v => Sys2Proof.Machine.execRelayEnable q v s
  | .relayTrained up size accepts path => Sys2Proof.Machine.execRelayTrained up size accepts path s
  | .relayRetrain => Sys2Proof.Machine.execRelayRetrain s
  | .write p => Sys2Proof.Machine.execWrite p s
  | .wack p => Sys2Proof.Machine.execWack p s
  | .wnak p => Sys2Proof.Machine.execWnak p s
  | .signalPacket p => Sys2Proof.Machine.execSignalPacket p s
  | .sack p => Sys2Proof.Machine.execSack p s
  | .srefuse p => Sys2Proof.Machine.execSrefuse p s
  | .lack tag addr => Sys2Proof.Machine.execLack tag addr s
  | .lnak tag => Sys2Proof.Machine.execLnak tag s
  | .powerOn fell good lo hi => Sys2Proof.Machine.execPowerOn fell good lo hi s
  | .railFail => Sys2Proof.Machine.execRailFail s
  | .brownOut mv ns => Sys2Proof.Machine.execBrownOut mv ns s
  | .sysResetN ns => Sys2Proof.Machine.execSysResetN ns s
  | .vinOvervoltage mv ns => Sys2Proof.Machine.execVinOvervoltage mv ns s
  | .auxOverload out ma us => Sys2Proof.Machine.execAuxOverload out ma us s
  | .resetPor q => Sys2Proof.Machine.execResetPor q s
  | .resetWatch q => Sys2Proof.Machine.execResetWatch q s
  | .resetSpine q => Sys2Proof.Machine.execResetSpine q s
  | .resetHost q => Sys2Proof.Machine.execResetHost q s
  | .lpTrainingDone ok => Sys2Proof.Machine.execLpTrainingDone ok s
  | .recoverWord w => Sys2Proof.Machine.execRecoverWord w s
  | .recoverLast w => Sys2Proof.Machine.execRecoverLast w s
  | .lowHalfRead q off size => Sys2Proof.Machine.execLowHalfRead q off size s
  | .sysResetNRise => Sys2Proof.Machine.execSysResetNRise s
  | .pcieLinkUp gen width => Sys2Proof.Machine.execPcieLinkUp gen width s
  | .hxpStatusAlert b => Sys2Proof.Machine.execHxpStatusAlert b s
  | .relayLinkDown mine path => Sys2Proof.Machine.execRelayLinkDown mine path s
  | .preemptVerify p => Sys2Proof.Machine.execPreemptVerify p s
  | .tempStateChange c k => Sys2Proof.Machine.execTempStateChange c k s

end Sys2Proof.Machine
end

