-- ==== Sys2Proof/Safety.lean ====
section
/-! DEFINITION. What a good state and a good step are, in the terms the statements use. -/

namespace Sys2Proof.Safety
open Machine

/-- The command completes with this next state. -/
def Completes (c : Instr) (s t : State) : Prop := exec c s = .next t

/-- The command neither stops the machine nor is turned away by the model. -/
def Runs (c : Instr) (s : State) : Prop := ∃ t, exec c s = .next t

/-- A write of a register that has a row of its own reaches it, and drops no held low half: its requester has a path and holds no low half, and the
register's domain is up (Scope R18; Power states Table 14.2). -/
abbrev Lands (q : Req) (reg : Nat) (s : State) : Prop := s.path q = true ∧ s.holdOf q = none ∧ s.regDown reg = false

/-- A clerk of the running unit comes, in program order, to a word of its instruction buffer that reads without a parity error, in a cycle in which it may issue
(Clerks R183, R185). -/
def Reaches (c : Fin 4096) (cyc pc : Nat) (w : BufWord) (s : State) : Prop :=
  (s.clerk c).stage = .running ∧ (∃ u, s.dunit (clerkDistrict c) = some u ∧ (s.clerk c).run = some (u.ring, u.seq)) ∧ (s.clerk c).next ≤ cyc ∧
    (w.branch = true ∨ pc = (s.clerk c).pc) ∧ w.parity = 0 ∧ ((s.clerkCycle c cyc).clerk c).halt = 0 ∧
    (((s.clerkCycle c cyc).clerk c).codeAt pc w.len).isSome = true

/-- The array of a clerk runs no instruction in a cycle. -/
def ArrayIdle (k : Clerk) (cyc : Nat) : Prop := ∀ r, k.array = some r → r.free ≤ cyc

/-- The state in which a ready step makes its fit check: it waits for no arrival, its sequence is in the stream buffer, and it counts as checked (Districts
R195, R198; Round R60). -/
def readyStep (s : State) (d : Nat) (w : StepWork) (x : DRun) (t : Nat) : State :=
  (((s.atNs t).setWaits w.ring w.seq d false).becomeReady d w t).noteChecked (d, w.ring.val, w.seq, x.started)

/-- The state at the end of a step, with the stores of its clerks done. -/
def stepDone (s : State) (d : Nat) (u : DUnit) (t : Nat) : State := (s.atNs t).each (clerksOf d u.clerks) fun s c => s.dueStores c (2 ^ 64)

/-- Memory, host memory and the register file are in their canonical form. -/
def Canonical (s : State) : Prop :=
  SMap.wf memZero s.mem = true ∧ SMap.wf memZero s.hostMem = true ∧ SMap.wf regReset s.regs = true

/-- The root may take this message of mailbox `k`: mailbox 0 goes first (Trust R547). -/
abbrev Held (k : Nat) (m : MbMsg) (op len : Nat) (s : State) : Prop :=
  s.mbHeld k = some m ∧ m.op = op ∧ m.len = len ∧ (k = 1 → s.mbHeld 0 = none)

/-- Mailbox `k` has answered message `m`: DONE, LAST_STATUS and the response (Trust Table 16.9). -/
def Answered (k : Nat) (m : MbMsg) (status result : Nat) (body : Bytes) (t : State) : Prop :=
  t.mbHeld k = none ∧ t.rdN (Reg.SECURE_MB_STATUS k) = 2 ^ 30 + status ∧ t.on (Reg.SECURE_MB_CTRL_GO k) = false ∧
    ∀ j, j < 64 → t.rdN (Reg.SECURE_MB_RSP k j) = fieldLE (m.reply status result body) (4 * j) 4

/-- Seal `i` alone has been extended with the digest `d`, and the event is the last of the log (Trust R540, R542). -/
def Sealed (i : Nat) (d : Bytes) (source : Nat) (s t : State) : Prop :=
  t.sealOf i = sha384 (s.sealOf i ++ d) ∧ (∀ j, j ≠ i → t.sealOf j = s.sealOf j) ∧ t.trust.log = s.trust.log ++ [⟨i, source, s.round, d⟩]

/-- No seal and no entry of the log has changed. -/
def Unsealed (s t : State) : Prop := t.trust.seals = s.trust.seals ∧ t.trust.log = s.trust.log

/-- A power-on reset has taken place, with this cause in LAST_RESET: the round counter is 0, memory and the blocks hold nothing, and what fuses, flash
and NOR hold is kept (Bring-up Table 20.7). -/
def PowerReset (cause : Nat) (s t : State) : Prop :=
  t.round = 0 ∧ t.get Reg.GLOBAL_BOOT_STATUS_LAST_RESET = cause ∧ t.on Reg.GLOBAL_BOOT_STATUS_SPINE_UP = false ∧ t.mem = [] ∧
    (∀ r : Ring, t.ringState r = 0) ∧ (∀ i : Fin 24, t.dom i = 3) ∧ t.err.recs = [] ∧ t.err.entry = none ∧ t.on Reg.ERROR_STATUS_SAFE = false ∧
    t.trust.seals = State.reset.trust.seals ∧ t.trust.log = [] ∧ t.trust.stage = 0 ∧ t.txn = State.reset.txn ∧ t.floor = State.reset.floor ∧
    t.trust.nor = s.trust.nor ∧ t.trust.flash = s.trust.flash ∧ t.trust.keys = s.trust.keys ∧
    (∀ i : Fin 128, t.rd (Reg.SECURE_FUSE i) = s.rd (Reg.SECURE_FUSE i)) ∧ (∀ i : Fin 64, t.rd (Reg.SECURE_COUNTER i) = s.rd (Reg.SECURE_COUNTER i)) ∧
    t.boot.steps = [(250, .release), (280, .domains), (400, .up)] ∧ t.boot.due = []

end Sys2Proof.Safety
end

