-- ==== Sys2Proof/WellFormed.lean ====
section
/-! DEFINITION. Which commands the outside can give: every operand in the range that its register, field or event has in the spec. -/

namespace Sys2Proof

/-- A round-relative time lies below 1,000 ns (Scope Table 0.3). -/
def tOk (t : Nat) : Bool := decide (t < 1000)

/-- An access has 1, 2, 4 or 8 bytes (Scope R13, R14). -/
def sizeOk (n : Nat) : Bool := n == 1 || n == 2 || n == 4 || n == 8

/-- Values of 16, 32 and 64 bits. -/
def n16 (v : Nat) : Bool := decide (v < 2 ^ 16)
def n32 (v : Nat) : Bool := decide (v < 2 ^ 32)
def n64 (v : Nat) : Bool := decide (v < 2 ^ 64)

/-- The number of a RUN on its ring: an envelope's 32-bit count, or, for a pass, 2^32 and the number of its session (Serving R285). -/
def runSeq (v : Nat) : Bool := decide (v < 2 ^ 33)

/-- An address in a clerk's 96 KiB store (Clerks Table 5.1). -/
def addrOk (a : Nat) : Bool := decide (a < 0x18000)

/-- A sync message (Round Table 2.1): one of the profiles, a domain number of 8 bits, a round-relative timestamp. -/
def Sync.wf (m : Sync) : Bool := decide (m.profile < 4) && decide (m.domain < 256) && n64 m.net && tOk m.t

/-- A sequence number of an envelope is a 32-bit count (Envelopes R78). -/
def TxnFrom.wf : TxnFrom → Bool
  | .cmd _ _ => true
  | .env _ seq => n32 seq

def PcieHit.wf : PcieHit → Bool
  | .envelope _ seq => n32 seq
  | _ => true

/-- The stored bits of a lane: 4, 8, 16 or 32 (the model's choice: log entry 159). -/
def laneOk (n : Nat) : Bool := n == 4 || n == 8 || n == 16 || n == 32

/-- A barrier names clerks of the district by local index, 0 to 255. -/
def SyncSlot.wf : SyncSlot → Bool
  | .boundary => true
  | .barrier m => decide (m < 2 ^ 256)

/-- The used count of a book is 2 to 16, and that of the 256-entry table 2 to 256 (Numbers R235). -/
def bookUsed (n : Nat) : Bool := decide (2 ≤ n) && decide (n ≤ 16)
def tableUsed (n : Nat) : Bool := decide (2 ≤ n) && decide (n ≤ 256)

def LoadTo.wf : LoadTo → Bool
  | .book _ used => bookUsed used
  | .table used => tableUsed used
  | _ => true

def MoveSlot.wf : MoveSlot → Bool
  | .copy (.book _) _ used => bookUsed used
  | .copy (.table _) _ used => tableUsed used
  | _ => true

/-- A long word has at least one slot (Clerks R183). -/
def LongWord.wf (w : LongWord) : Bool :=
  (w.array.isSome || w.vector.isSome || w.load.isSome || w.store.isSome || w.move.isSome || w.sync.isSome) &&
    (w.load.all LoadTo.wf) && (w.store.all fun x => laneOk x.2) && (w.move.all MoveSlot.wf) && (w.sync.all SyncSlot.wf)

/-- A word of the instruction buffer, of 8 KiB (Clerks Table 5.1), has bytes. -/
def BufWord.wf (w : BufWord) : Bool := w.word.wf && decide (0 < w.len) && decide (w.len ≤ 0x2000)

/-- A loop has a count of 1 to 65,536 and a stride of −65,536 to 65,535; a generator has a base of 17 bits and up to six loops (Districts R198). -/
def StreamLoop.wf (l : StreamLoop) : Bool :=
  decide (1 ≤ l.count) && decide (l.count ≤ 65536) && decide (-65536 ≤ l.stride) && decide (l.stride ≤ 65535)

def StreamGen.wf (g : StreamGen) : Bool := decide (g.base < 2 ^ 17) && decide (g.loops.length ≤ 6) && g.loops.all StreamLoop.wf

/-- A segment lies in the 8 KiB instruction buffer (Districts R202). -/
def SegLoad.wf (g : SegLoad) : Bool := n64 g.src && decide (0 < g.len) && decide (g.off + g.len ≤ 0x2000)

def MoveSrc.wf : MoveSrc → Bool
  | .at_ a => n64 a
  | .event _ => true

def MoveDst.wf : MoveDst → Bool
  | .at_ a => n64 a
  | .stores clerks off => decide (clerks < 2 ^ 256) && addrOk off

/-- A move carries bytes; a skewed one has the sizes of Districts R210. -/
def CopyMove.wf (m : CopyMove) : Bool :=
  m.src.wf && m.dst.wf && decide (0 < m.len) && (m.skew.all fun k =>
    (m.len == 8 || m.len == 16 || m.len == 32) && decide (k.1 % 16 = 0) && decide (31 * m.len ≤ k.2.2) && decide (k.2.2 % 32 = 0))

/-- What the step list says of a step (Districts R198, R199, R202): eight stream generators, at most 4,096 merged entries, and four band offsets for a clerk. -/
def StepProg.wf (p : StepProg) : Bool :=
  n16 p.desc && (p.needs.all fun n => n32 n.2) && decide (p.gens.length ≤ 8) && p.gens.all StreamGen.wf && decide (p.merge.length ≤ 4096) &&
    (p.bands.all fun b => decide (b.1 < 256) && decide (b.2.length ≤ 4) && b.2.all fun o => decide (o < 2 ^ 17)) &&
    (p.entry.all fun a => decide (a < 0x2000)) && p.segs.all SegLoad.wf && p.moves.all CopyMove.wf && p.walks.all fun w => w.tiles.all n64

/-- A step that is ready: its envelope, and clerks of one district. -/
def StepWork.wf (w : StepWork) : Bool := runSeq w.seq && decide (w.clerks < 2 ^ 256) && w.prog.wf

def UnitWork.wf : UnitWork → Bool
  | .step w => w.wf
  | .vision w => n32 w.cost

/-- The end of a step: its moves. -/
def StepFinish.wf (f : StepFinish) : Bool := f.moves.all CopyMove.wf

/-- Bases of a district's store, in 4 KiB units, and sorting cache, in 64 KiB units (Districts R217). -/
def BodyLoad.wf (b : BodyLoad) : Bool := decide (b.store < 24) && decide (b.cache < 64) && b.parts.all fun x => n64 x.1 && n32 x.2.1 && n32 x.2.2

/-- An access to a doorbell page, of 4 KiB (Envelopes R79): a write carries a value of its size, a read none. -/
def PageAcc.wf (a : PageAcc) (v : Option Nat) : Bool := decide (a.off < 0x1000) && sizeOk a.size && v.all fun v => decide (v < 2 ^ (8 * a.size))

/-- The operand of a register write lies in its range. -/
def By.wf {α : Type} (ok : α → Bool) (b : By α) : Bool := ok b.v

/-- A CSI-2 packet: a data type of 6 bits, and a frame number of 16. -/
def Csi2.wf (p : Csi2) : Bool := decide (p.dt < 64) && (match p.body with | .frameStart n => n16 n | _ => true)

/-- A picture has pixels. -/
def AuKind.wf : AuKind → Bool
  | .picture w h _ => decide (0 < w) && decide (0 < h)
  | _ => true

/-- A relay packet as Links Table 19.5 lays it out. -/
def RelayIn.wf (p : RelayIn) : Bool :=
  decide (p.dst < 16) && decide (p.src < 16) && decide (p.flags < 256) && n16 p.lseq && n16 p.tag && n64 p.addr &&
    decide (p.payload.length % 16 = 0) && decide (p.payload.length ≤ 256) && n32 p.crc

/-- An image that the JPEG engine makes has pixels. -/
def JpegOut.wf : JpegOut → Bool
  | .data w h _ => decide (0 < w) && decide (0 < h)
  | .bad _ => true

/-- A memory request is at most one aligned 64-byte line (Memory R399). -/
def MemOp.wf (a : Nat) : MemOp → Bool
  | .read n => decide (1 ≤ n) && decide (a % 64 + n ≤ 64)
  | .write b => !b.isEmpty && decide (a % 64 + b.length ≤ 64)

/-- An account of the energy estimate (Power cap Table 15.4): 16 districts and 13 others. -/
def EnergyPart.wf (e : EnergyPart) : Bool := decide (e.acct < 29) && (e.ring.all fun r => decide (r < 4096)) && e.seq.all n32

/-- The command's operands lie in the ranges that the spec gives them. -/
def Instr.wf : Instr → Bool
  | .regWrite _ off size v => sizeOk size && decide (off < 0x1000000) && decide (v < 2 ^ (8 * size))
  | .lowHalfDrop _ => true
  | .roundBoundary energy => energy.all EnergyPart.wf
  | .syncReceived m => m.wf
  | .syncLoss t => tOk t
  | .holdoverExpiry t => tOk t
  | .alignment net => n64 net
  | .alignmentComplete => true
  | .relock t => t.wf tOk
  | .syncSourceWrite src t => src.wf (fun n => decide (n < 4)) && tOk t
  | .ttLoad _ _ _ => true
  | .ttLoadDone => true
  | .ttVerify _ => true
  | .ttVerifyDone => true
  | .ttEnableWrite _ => true
  | .unitStart _ w t => w.wf && tOk t
  | .unitEnd _ t => tOk t
  | .overrun _ t => tOk t
  | .unitHang _ t => tOk t
  | .txnOpen w => w.wf
  | .txnWrites _ seq => n32 seq
  | .txnSeal w => w.wf
  | .txnReturn w => w.wf
  | .sealApply => true
  | .txnExpired _ => true
  | .pairApply => true
  | .pairOrphan _ => true
  | .submissionDoorbell _ _ a v => a.wf v
  | .returnDoorbell _ _ a v => a.wf v
  | .envelopeFetch _ => true
  | .envelopeStart _ t => tOk t
  | .envelopeComplete _ seq t => n32 seq && tOk t
  | .irqDelay _ => true
  | .nop _ seq => n32 seq
  | .run _ seq b => n32 seq && b.wf
  | .runRelease _ seq => runSeq seq
  | .copy _ seq => n32 seq
  | .wait _ seq => n32 seq
  | .waitSatisfied _ seq => n32 seq
  | .waitTimeout _ seq => n32 seq
  | .signal _ seq => n32 seq
  | .remoteSignalTimeout _ seq => n32 seq
  | .fence _ seq => n32 seq
  | .receiptSigValue _ v => n64 v
  | .receiptBaseWrite _ v => n64 v
  | .ringCfgWrite _ _ v => n32 v
  | .ringEnable _ _ => true
  | .ringDisable _ _ => true
  | .ringStop _ _ => true
  | .ringAbort _ _ => true
  | .ringResume _ _ => true
  | .functionLevelReset _ => true
  | .wordIssue _ _ pc w => n32 pc && w.wf
  | .districtBarrier _ => true
  | .scrubRead addr _ => n64 addr
  | .stepEnd _ f t => f.wf && tOk t
  | .walkKWrite _ _ _ v => n32 v
  | .inboundWrite _ seq _ addr _ data => runSeq seq && n64 addr && !data.isEmpty
  | .arrivalTimeout _ _ seq => runSeq seq
  | .relayWriteTimeout _ seq => runSeq seq
  | .postmarkMark _ seq => n32 seq
  | .armBreakOnTag _ seq => n32 seq
  | .armBreakOnCount _ seq => n32 seq
  | .disarm _ seq => n32 seq
  | .debugRelease _ v => n32 v
  | .debugHoldExpired _ => true
  | .dbgSelWrite _ v => n32 v
  | .sessionOpen _ seq => n32 seq
  | .sessionAdmit _ seq => n32 seq
  | .sessionCancel _ seq => n32 seq
  | .sessionClose _ seq => n32 seq
  | .sessionStatus _ seq => n32 seq
  | .passStart id b => decide (0 < id) && n32 id && b.wf
  | .passComplete id t energy => decide (0 < id) && n32 id && tOk t && n64 energy
  | .psLoad _ seq => n32 seq
  | .psBind _ seq => n32 seq
  | .psBindApply => true
  | .slotRetire _ => true
  | .csi2Packet p => p.wf
  | .frameFinish _ _ => true
  | .camSourceLost _ _ => true
  | .chanEnable _ _ v => n32 v
  | .ispStreamEnable _ _ v => n32 v
  | .decodeAccessUnit _ k => k.wf
  | .encodePicture _ _ => true
  | .encodeEnable _ _ v => n32 v
  | .jpegJob => true
  | .jpegJobDone o => o.wf
  | .adcConversion _ t => tOk t
  | .sampleAvailable _ _ t => tOk t
  | .settleEnd _ => true
  | .fabricBlock _ words t => words.all n32 && tOk t
  | .expressUnitStart _ clerks p t => decide (clerks < 2 ^ 256) && p.wf && tOk t
  | .expressUnitEnd _ v0 v1 t => n32 v0 && n32 v1 && tOk t
  | .spillDrop => true
  | .expressRunComplete => true
  | .cportFrameReceive _ _ _ t => tOk t
  | .req _ => true
  | .cxSnapshot _ t => tOk t
  | .rspSend _ _ t => tOk t
  | .svcIdentify _ => true
  | .svcCounters _ => true
  | .cportCxSilent _ t => tOk t
  | .guardCut _ t => tOk t
  | .guardSwitchApply _ => true
  | .guardDisagree _ => true
  | .ptpFrameSend _ _ t => tOk t
  | .cportLink _ _ t => tOk t
  | .memRequest _ _ a o t => o.wf a && tOk t
  | .memBurstIssue _ rows t => rows.all (fun b => decide (b < 64)) && tOk t
  | .memPromote _ _ t => tOk t
  | .memReadData _ _ _ => true
  | .ddr5Alert _ => true
  | .refreshDebt _ t => tOk t
  | .trainingAction _ _ => true
  | .ddr5Bringup _ v => n32 v
  | .ddr5BringupDone _ => true
  | .fabricLoad _ seq => n32 seq
  | .fabricLoadBegin _ => true
  | .fabricRelease _ => true
  | .readFrame _ _ => true
  | .clear _ _ => true
  | .scrubPass _ => true
  | .fabricScrubRead _ flips => flips.all fun x => decide (x.1 < 81) && decide (x.2 < 32)
  | .regionFault _ => true
  | .regionHoldWrite _ _ v => n32 v
  | .fabricMeshRequest a o => o.wf a
  | .fabricRegAccess _ _ _ w ans => (w.all n32) && (ans.all n32)
  | .fabricRegTimeout _ => true
  | .clkCfgWrite _ _ v => n32 v
  | .domReqOn _ _ tag => n16 tag
  | .domReqIdle _ _ tag => n16 tag
  | .domReqRetain _ _ tag => n16 tag
  | .domReqOff _ _ tag => n16 tag
  | .domReqCancel _ _ tag => n16 tag
  | .devReqRun _ tag => n16 tag
  | .devReqWatch _ tag _ => n16 tag
  | .devReqSleep _ tag _ => n16 tag
  | .devReqHalt _ tag _ => n16 tag
  | .devReqCancel _ tag => n16 tag
  | .agentAnswer _ => true
  | .hostAckAgree _ => true
  | .hostAckRefuse _ => true
  | .prepTimeout _ => true
  | .transitionStep _ => true
  | .idleEntry _ => true
  | .idleWake _ => true
  | .wakeEvent _ => true
  | .padRelease _ v => n32 v
  | .secHoldWrite _ v => n32 v
  | .avsAck _ t => tOk t
  | .avsSettle _ t => tOk t
  | .avsTimeout _ t => tOk t
  | .opChange _ => true
  | .monitorSample _ raw => n16 raw
  | .hxpTempRead raw => n16 raw
  | .trimUpdate ratios => decide (ratios.length = 17) && ratios.all (fun x => x.all n16)
  | .governorDecision active rise => decide (active.length = 8) && active.all (fun n => decide (n ≤ 1000)) && rise.all n32
  | .droopTrigger _ t => tOk t
  | .droopRestore _ t => tOk t
  | .droopRelease _ v => n32 v
  | .throttleStep _ => true
  | .throttleRestore _ => true
  | .secureStart root => decide (root.length % 4 = 0)
  | .mbGo _ _ => true
  | .getInfo _ => true
  | .quote _ _ _ => true
  | .getCert _ _ => true
  | .readLog _ => true
  | .extend _ => true
  | .verifyImage => true
  | .raiseCounter => true
  | .confirmSlot => true
  | .runtimeUpdate => true
  | .norRead => true
  | .norErase fail => fail.all fun x => decide (x.1 < 0x4000000)
  | .norProgram fail => fail.all fun x => decide (x.1 < 0x4000000)
  | .guardWrite => true
  | .guardSwitch => true
  | .guardArm => true
  | .keyInstall => true
  | .keyRevoke => true
  | .fabricApprove => true
  | .ownerEnroll _ => true
  | .revokeVendorKey _ => true
  | .debugUnlock => true
  | .lifecycleReturn _ => true
  | .thermalNotifyAck _ => true
  | .thermalNotifyTimeout => true
  | .fwLoadProcessor _ seq => n32 seq
  | .fwRestartPostmaster _ seq => n32 seq
  | .fwLoadStore _ seq => n32 seq
  | .fwReady _ code format => n32 code && n16 format
  | .fwStartFail _ => true
  | .procHalt _ _ => true
  | .wdogKick _ => true
  | .fwWatchdog _ => true
  | .ledgerEntry _ _ id level a0 a1 a2 t => n16 id && decide (level < 4) && n64 a0 && n64 a1 && n64 a2 && tOk t
  | .ledgerTailWrite _ v => n32 v
  | .ack _ v => n32 v
  | .inject _ v => n32 v
  | .safeRequest _ => true
  | .safeNow _ => true
  | .safeStateReached t => tOk t
  | .safeExit _ _ => true
  | .safeExitApply => true
  | .clockMonitorWindow _ => true
  | .bar4Access off n w => decide (off < 0x1000000000) && decide (1 ≤ n) && decide (n ≤ 64) && (w.all fun b => decide (b.length = n))
  | .hostWake _ v => n32 v
  | .perstAssert => true
  | .perstDeassert => true
  | .pcieError _ _ hit => hit.wf
  | .pcieLinkDown => true
  | .plantFrameReceive _ _ _ => true
  | .plantFrameTransmit _ => true
  | .qTailWrite _ _ _ _ v => n32 v
  | .plantLink _ _ => true
  | .relayEnable _ v => n32 v
  | .relayTrained _ size _ _ => decide (size < 16)
  | .relayRetrain => true
  | .write p => p.wf
  | .wack p => p.wf
  | .wnak p => p.wf
  | .signalPacket p => p.wf
  | .sack p => p.wf
  | .srefuse p => p.wf
  | .lack tag addr => n16 tag && n64 addr
  | .lnak tag => n16 tag
  | .powerOn _ _ _ _ => true
  | .railFail => true
  | .brownOut _ _ => true
  | .sysResetN _ => true
  | .vinOvervoltage _ _ => true
  | .auxOverload _ _ _ => true
  | .resetPor _ => true
  | .resetWatch _ => true
  | .resetSpine _ => true
  | .resetHost _ => true
  | .lpTrainingDone _ => true
  | .recoverWord _ => true
  | .recoverLast _ => true
  | .lowHalfRead _ off size => decide (off < 0x1000000) && sizeOk size
  | .sysResetNRise => true
  | .pcieLinkUp _ width => decide (width ≤ 4)
  | .hxpStatusAlert _ => true
  | .relayLinkDown _ _ => true
  | .preemptVerify _ => true
  | .tempStateChange _ _ => true

end Sys2Proof
end

