-- ==== Sys2Proof/Certificates/Slice0/Obligations.lean ====
section
/-! DEFINITION. The statements about the model that the provers prove. -/

open Sys2Proof Sys2Proof.Machine Sys2Proof.Machine.Reg

/-- A step runs the command at the front of the queue. For every command and state, a step with that command at the front of the queue is exec of it on
the state with the rest of the queue. Rests on the choices and readings of the model in log entry 1. (00_scope.md §5 (registers and commands)) -/
def Obligations.StepRunsFrontCommand : Prop :=
  ∀ (c : Instr) (rest : List Instr) (s : State), step { s with pending := c :: rest } = exec c { s with pending := rest }

/-- With no command waiting a step changes nothing (model's choice, log entry 2). With an empty queue a step answers the same state; the round boundary is
a command of its own, so no time passes by itself. This is the model's choice (assumption 2). (02_round.md §1; notes/assumptions/2.md) -/
def Obligations.StepIdlesOnEmptyQueue : Prop :=
  ∀ s : State, s.pending = [] → step s = .next s

/-- The state after reset is in canonical form. The memory, the host memory and the register file of State.reset are in their canonical form (keys rising,
no entry equal to what its key reads as unlisted). Rests on the choices and readings of the model in log entry 3. (00_scope.md §5) -/
def Obligations.ResetStateIsCanonical : Prop :=
  Safety.Canonical State.reset

/-- Every step keeps memory and the register file in canonical form. From every state whose memory, host memory and register file are in canonical form,
every command leaves them so. (00_scope.md §5 (registers, R10 to R23)) -/
def Obligations.StepKeepsCanonicalForm : Prop :=
  ∀ s t : State, Safety.Canonical s → step s = .next t → Safety.Canonical t

/-- No command changes the queue of waiting commands. When exec of a command answers a next state, the commands waiting in it are those that waited
before: the queue holds commands from outside and no block adds to it or takes from it. (00_scope.md §5) -/
def Obligations.CommandsLeaveQueueAlone : Prop :=
  ∀ (c : Instr) (s t : State), exec c s = .next t → t.pending = s.pending

/-- A low half written to a 64-bit register is held and changes no register. A 32-bit write at the offset of a 64-bit register, by a requester with a path
that holds no low half or one of that register, completes: the half is held with its round, and every register, memory and interrupt is as before.
Rests on the choices and readings of the model in log entry 12. (R18; 00_scope.md §5) -/
def Obligations.LowHalfIsHeldWithoutEffect : Prop :=
  ∀ (q : Req) (off v : Nat) (r : RegRow) (s : State), s.path q = true → off < 0x1000000 → off % 4 = 0 → inFabWindow off = false →
    regRow? off = some r → r.width = 64 → (∀ h, s.holdOf q = some h → h.reg = off) →
    ∃ t, exec (.regWrite q off 4 v) s = .next t ∧ t.holdOf q = some ⟨off, v % 2 ^ 32, s.round⟩ ∧
      t.regs = s.regs ∧ t.acting = s.acting ∧ t.mem = s.mem ∧ t.hostMem = s.hostMem ∧ t.irqs = s.irqs ∧ t.err = s.err ∧
      (∀ p : Req, p.index ≠ q.index → t.holdOf p = s.holdOf p)

/-- An immediate field reads as written at once, and its block still acts on the old value. A 32-bit write of a ring's IRQ register, by the PF or a host
core that holds no low half, on an SPINE that is up: a read returns the new value at once, the value acted on stays the one before the write until the
next boundary, and every other register, memory and interrupt is as before. Rests on the choices and readings of the model in log entry 15. (R21) -/
def Obligations.RegisterWriteActsFromNextBoundary : Prop :=
  ∀ (q : Req) (r : Ring) (v : Nat) (s : State), q.pfOrHost = true → s.spineUp = true → s.holdOf q = none →
    1 ≤ Word.bits (BitVec.ofNat 64 v) 19 12 →
    ∃ t, exec (.regWrite q (RINGS_IRQ r) 4 v) s = .next t ∧
      t.get (RINGS_IRQ_VECTOR r) = v % 2 ^ 11 ∧ t.get (RINGS_IRQ_COUNT r) = v / 2 ^ 12 % 2 ^ 8 ∧ t.get (RINGS_IRQ_DELAY r) = v / 2 ^ 20 % 2 ^ 12 ∧
      t.act (RINGS_IRQ r) = s.act (RINGS_IRQ r) ∧
      (∀ o, o ≠ RINGS_IRQ r → t.rd o = s.rd o ∧ t.act o = s.act o) ∧ t.mem = s.mem ∧ t.hostMem = s.hostMem ∧ t.irqs = s.irqs

/-- A write that is narrow or misaligned changes nothing but the report of REG_ACCESS. A write of 1 or 2 bytes, or a 32-bit or 64-bit write that is not
aligned, completes as a report of REG_ACCESS: no register outside ERROR changes, no held low half is disturbed, memory is as before, and ERROR.STATUS
shows a NOTE. A 32-bit or 64-bit read that is not aligned returns zero and is reported in the same way. (R14; R13) -/
def Obligations.MisalignedOrNarrowWriteIsDiscarded : Prop :=
  ∀ (q : Req) (off size v : Nat) (s : State), s.path q = true → off < 0x1000000 → (size = 1 ∨ size = 2 ∨ (size = 4 ∧ off % 4 ≠ 0) ∨ (size = 8 ∧ off % 8 ≠ 0)) →
    (∃ t, exec (.regWrite q off size v) s = .next t ∧ t.on ERROR_STATUS_NOTE = true ∧
      (∀ o, o < 0xD00000 ∨ 0xE00000 ≤ o → t.rd o = s.rd o) ∧ t.bus = s.bus ∧ t.mem = s.mem ∧ t.hostMem = s.hostMem ∧ t.acting = s.acting) ∧
    (4 ≤ size → ∃ t, exec (.lowHalfRead q off size) s = .next t ∧ t.on ERROR_STATUS_NOTE = true ∧ t.bus.data = 0 ∧ t.bus.holds = s.bus.holds ∧
      t.bus.latches = s.bus.latches ∧ (∀ o, o < 0xD00000 ∨ 0xE00000 ≤ o → t.rd o = s.rd o) ∧ t.mem = s.mem ∧ t.acting = s.acting)

/-- Reading a 64-bit register by halves returns one consistent value. The low half returns bits 31..0 and latches bits 63..32 for its requester; whatever
the state becomes meanwhile, while the requester's latch stands its next read of the high half returns the latched value and releases the latch. A
64-bit read returns the whole value and takes no latch. No register or memory changes. (R17) -/
def Obligations.HalvesReadOneValue : Prop :=
  ∀ (q : Req) (off : Nat) (r : RegRow) (s : State), s.path q = true → off < 0x1000000 → off % 8 = 0 → inFabWindow off = false →
    regRow? off = some r → r.width = 64 → regRow? (off + 4) = none →
    (∃ t, exec (.lowHalfRead q off 8) s = .next t ∧ t.bus.data = s.readWhole q off ∧ t.bus.latches = s.bus.latches ∧ t.bus.holds = s.bus.holds ∧
      t.regs = s.regs ∧ t.mem = s.mem) ∧
    (∃ t, exec (.lowHalfRead q off 4) s = .next t ∧ t.bus.data = s.readWhole q off % 2 ^ 32 ∧
      t.bus.latches.find? (fun l => l.who == q.index && l.reg == off) = some ⟨q.index, off, s.readWhole q off / 2 ^ 32⟩ ∧
      t.regs = s.regs ∧ t.mem = s.mem ∧ t.bus.holds = s.bus.holds) ∧
    (∀ h, s.bus.latches.find? (fun l => l.who == q.index && l.reg == off) = some ⟨q.index, off, h⟩ →
      ∃ t, exec (.lowHalfRead q (off + 4) 4) s = .next t ∧ t.bus.data = h ∧
        t.bus.latches.find? (fun l => l.who == q.index && l.reg == off) = none ∧ t.regs = s.regs ∧ t.mem = s.mem ∧ t.bus.holds = s.bus.holds)

/-- A low half whose high half has not landed in time is dropped and reported. A low half held since at least two rounds is dropped without effect: the
hold is gone, every register outside ERROR and all memory are as before, and a NOTE is reported. A hold that is not late stays. A write of another
register that has a row of its own (here a ring's CTRL) drops the hold too, and then acts as it would without it. Rests on the choices and readings of
the model in log entries 7, 12, 145. (R18) -/
def Obligations.LateLowHalfIsDropped : Prop :=
  ∀ (q : Req) (h : RegHold) (s : State), s.holdOf q = some h →
    (h.round + 2 ≤ s.round → ∃ t, exec (.lowHalfDrop q) s = .next t ∧ t.holdOf q = none ∧ t.on ERROR_STATUS_NOTE = true ∧
      (∀ o, o < 0xD00000 ∨ 0xE00000 ≤ o → t.rd o = s.rd o) ∧ t.mem = s.mem ∧ t.hostMem = s.hostMem ∧ t.acting = s.acting) ∧
    (s.round < h.round + 2 → exec (.lowHalfDrop q) s = .next s) ∧
    (∀ r : Ring, s.path q = true → h.reg ≠ RINGS_CTRL r →
      exec (.ringStop q r) s = exec (.ringStop q r) ((s.setHold q none).report { code := Code.REG_ACCESS, detail := h.reg }))

/-- Sync messages move the lock state as Table 2.2 gives. A valid sync takes FREE to ACQUIRE; the 16th consecutive sync within 50 ns takes ACQUIRE to
LOCKED; one beyond 200 ns takes LOCKED to ACQUIRE and one within 200 ns keeps LOCKED and takes HOLDOVER back to it (offset from the fixed NET_OFFSET,
no slewed alignment in progress, and a path-delay measurement completed on a port that can transmit). A message that is not valid changes nothing. Memory and interrupts' free counter apart, no ring, owner or unit
changes. Rests on the choices and readings of the model in log entries 21, 22. (R38; R690; 02_round.md §1) -/
def Obligations.SyncMovesLockState : Prop :=
  ∀ (m : Sync) (s : State),
    (s.syncValid m = false → exec (.syncReceived m) s = .next s) ∧
    (s.syncValid m = true →
      ∃ t, exec (.syncReceived m) s = .next t ∧ t.mem = s.mem ∧ t.rings = s.rings ∧ t.txn = s.txn ∧
        (s.lockState = 0 → t.lockState = 1) ∧
        (s.rnd.pathDelay = true ∨ (m.measured = true ∧ s.portTransmits m.port = true) → s.rnd.fixAwaited = false → s.rnd.slewing = false →
          let off : Int := (s.atNs m.t).netRound * 1000 + m.t - m.net
          (s.lockState = 1 → off.natAbs ≤ 50 → 15 ≤ s.rnd.streak → t.lockState = 2) ∧
          (s.lockState = 1 → (50 < off.natAbs ∨ s.rnd.streak < 15) → t.lockState = 1) ∧
          (s.lockState = 2 → off.natAbs ≤ 200 → t.lockState = 2) ∧
          (s.lockState = 2 → 200 < off.natAbs → t.lockState = 1) ∧
          (s.lockState = 3 → off.natAbs ≤ 200 → t.lockState = 2) ∧
          (s.lockState = 3 → 200 < off.natAbs → t.lockState = 1)))

/-- Loss of sync and the holdover limit withdraw the time. Once LOSS_INTERVALS sync intervals have passed with no valid sync, ACQUIRE goes to FREE and
LOCKED goes to HOLDOVER, which is reported. When the holdover limit has passed, TIME_VALID goes to 0 and ERROR.STATUS shows DEGRADED. Neither command
changes memory or NET_OFFSET. Rests on the choices and readings of the model in log entries 22, 25. (R38; R41; R690) -/
def Obligations.LossAndHoldoverLimitWithdrawTime : Prop :=
  ∀ (ns : Nat) (s : State),
    ((s.atNs ns).syncLost = true →
      (s.lockState = 1 → ∃ t, exec (.syncLoss ns) s = .next t ∧ t.lockState = 0 ∧ t.mem = s.mem ∧ t.rd ROUND_NET_OFFSET = s.rd ROUND_NET_OFFSET) ∧
      (s.lockState = 2 → ∃ t, exec (.syncLoss ns) s = .next t ∧ t.lockState = 3 ∧ t.on ERROR_STATUS_NOTE = true ∧ t.mem = s.mem ∧
        t.rd ROUND_NET_OFFSET = s.rd ROUND_NET_OFFSET)) ∧
    (s.lockState = 3 → s.on ROUND_STATUS_TIME_VALID = true → (s.atNs ns).validNow = false →
      ∃ t, exec (.holdoverExpiry ns) s = .next t ∧ t.on ROUND_STATUS_TIME_VALID = false ∧ t.on ERROR_STATUS_DEGRADED = true ∧ t.lockState = 3 ∧
        t.mem = s.mem ∧ t.rd ROUND_NET_OFFSET = s.rd ROUND_NET_OFFSET)

/-- The first lock fixes NET_OFFSET, in one step or by slewing. At the boundary after the entry to LOCKED that calls for a fix, with network time net
there: with no timetable in force or asked for, NET_OFFSET becomes the network round of the next network microsecond less the round counter, and the
alignment is complete; otherwise it becomes the network round at the boundary, rounded down, less the counter, the alignment slews, and
ALIGNMENT_COMPLETE completes it, with TIME_VALID 1 in LOCKED. With no slewing in progress ALIGNMENT_COMPLETE changes nothing. Rests on the choices and readings of the model in log entries 20, 22. (R39; 02_round.md
§1) -/
def Obligations.AlignmentFixesNetOffset : Prop :=
  (∀ (net n : Nat) (s : State), s.rnd.alignDue = some n → n < s.round →
    (s.on ROUND_CTRL_TT_ENABLE = false → s.ttRun = false →
      ∃ t, exec (.alignment net) s = .next t ∧ t.rdN ROUND_NET_OFFSET = ofSigned 64 ((((net + 999) / 1000 : Nat) : Int) - (s.round : Int)) ∧
        t.rnd.aligned = true ∧ t.rnd.fixAwaited = false ∧ t.round = s.round ∧ t.mem = s.mem) ∧
    (s.on ROUND_CTRL_TT_ENABLE = true ∨ s.ttRun = true →
      ∃ t, exec (.alignment net) s = .next t ∧ t.rdN ROUND_NET_OFFSET = ofSigned 64 (((net / 1000 : Nat) : Int) - (s.round : Int)) ∧
        t.rnd.slewing = true ∧ t.rnd.fixAwaited = false ∧ t.round = s.round ∧ t.mem = s.mem ∧
        (s.lockState = 2 → ∃ u, exec .alignmentComplete t = .next u ∧ u.on ROUND_STATUS_TIME_VALID = true ∧ u.rnd.slewing = false ∧
          u.rd ROUND_NET_OFFSET = t.rd ROUND_NET_OFFSET ∧ u.mem = t.mem))) ∧
  (∀ s : State, (s.rnd.slewing = false → exec .alignmentComplete s = .next s) ∧
    (s.rnd.slewing = true → ∃ t, exec .alignmentComplete s = .next t ∧ t.rnd.slewing = false ∧ t.rnd.aligned = true ∧
      (s.lockState = 2 → t.on ROUND_STATUS_TIME_VALID = true) ∧ t.rd ROUND_NET_OFFSET = s.rd ROUND_NET_OFFSET ∧ t.lockState = s.lockState ∧ t.mem = s.mem))

/-- RELOCK and a change of SOURCE move the lock state, and NET_OFFSET keeps its value. With no timetable in force or asked for, RELOCK enters ACQUIRE and
marks NET_OFFSET for a new fix; otherwise it is discarded and TT_INVALID is reported. SOURCE none takes every other state to FREE; another port takes
LOCKED to HOLDOVER and leaves ACQUIRE with its count at 0. NET_OFFSET and memory keep what they hold. Rests on the choices and readings of the model
in log entry 19. (R38; R42; R690) -/
def Obligations.RelockAndSourceMoveLockState : Prop :=
  ∀ (q : Req) (src ns : Nat) (s : State), Safety.Lands q ROUND_SYNC_CTRL s →
    (s.on ROUND_CTRL_TT_ENABLE = false → s.ttRun = false →
      ∃ t, exec (.relock ⟨q, ns⟩) s = .next t ∧ t.lockState = 1 ∧ t.rnd.fixAwaited = true ∧ t.rnd.aligned = false ∧
        t.rd ROUND_NET_OFFSET = s.rd ROUND_NET_OFFSET ∧ t.mem = s.mem) ∧
    (s.on ROUND_CTRL_TT_ENABLE = true ∨ s.ttRun = true →
      ∃ t, exec (.relock ⟨q, ns⟩) s = .next t ∧ t.on ERROR_STATUS_NOTE = true ∧ t.lockState = s.lockState ∧ t.rnd.fixAwaited = s.rnd.fixAwaited ∧
        t.rd ROUND_NET_OFFSET = s.rd ROUND_NET_OFFSET ∧ t.mem = s.mem) ∧
    (sourceOf src ≠ s.get ROUND_STATUS_SOURCE_IN_USE →
      ∃ t, exec (.syncSourceWrite ⟨q, src⟩ ns) s = .next t ∧ t.get ROUND_STATUS_SOURCE_IN_USE = sourceOf src ∧ t.get ROUND_SYNC_CTRL_SOURCE = src % 4 ∧
        t.rd ROUND_NET_OFFSET = s.rd ROUND_NET_OFFSET ∧ t.mem = s.mem ∧
        (sourceOf src = 0 → t.lockState = 0) ∧
        (sourceOf src ≠ 0 → s.lockState = 2 → s.get ROUND_STATUS_SOURCE_IN_USE ≠ 0 → t.lockState = 3) ∧
        (sourceOf src ≠ 0 → s.lockState = 1 → t.lockState = 1 ∧ t.rnd.streak = 0))

/-- A bank is loaded, verified and put in force step by step. A load that is not refused sets BUSY and clears VERIFIED of its bank; if every element can
be read its end sets DONE and copies the elements. A verification sets VERIFY_BUSY; with no failing entry and no run that is too long its end sets
VERIFIED. A load whose bursts still wait for the bulk budget is not done. TT_ENABLE 1 with the named bank verified reads 1 at once and waits for the boundary; with it not verified the write is discarded and
reported. TT_RUN does not change. Rests on the choices and readings of the model in log entry 23. (R67; R68; R70) -/
def Obligations.TimetableLoadsAndVerifies : Prop :=
  ∀ (q : Req) (bank entries : Bool) (first : Fin 65536) (s : State), Safety.Lands q ROUND_LOAD_CTRL s → Safety.Lands q ROUND_CTRL s →
    (s.ttBusy = false → (s.on ROUND_CTRL_TT_ENABLE = false ∨ s.ttBank ≠ (if bank then 1 else 0)) →
      0 < s.cfg ⟨ROUND_LOAD_COUNT, 16, 0⟩ → first.val + s.cfg ⟨ROUND_LOAD_COUNT, 16, 0⟩ ≤ (if entries then 4096 else 65536) →
      ∃ t, exec (.ttLoad ⟨q, bank⟩ entries first) s = .next t ∧ t.on ROUND_LOAD_STATUS_BUSY = true ∧ t.on (verifiedFld bank) = false ∧
        t.rnd.load = some ⟨bank, entries, first, s.cfg ⟨ROUND_LOAD_COUNT, 16, 0⟩, (s.act ROUND_LOAD_SRC).toNat / 64 * 64⟩ ∧
        t.ttRun = s.ttRun ∧ t.mem = s.mem) ∧
    (s.memWaits ttKey.1 ttKey.2 = true → exec .ttLoadDone s = .next s) ∧
    (∀ l, s.rnd.load = some l → s.memWaits ttKey.1 ttKey.2 = false → s.ttReadable l = l.count →
      ∃ t, exec .ttLoadDone s = .next t ∧ t.on ROUND_LOAD_STATUS_DONE = true ∧ t.on ROUND_LOAD_STATUS_BUSY = false ∧ t.rnd.load = none ∧
        t.ttRun = s.ttRun ∧ t.mem = s.mem ∧
        (l.entries = false → ∀ j, j < l.count → l.first + l.count ≤ 65536 →
          t.ttElem (if l.bank then 1 else 0) (l.first + j) = leNat (readBytes s.mem (l.src + 2 * j) 2) % 4096)) ∧
    (s.ttBusy = false → ∃ t, exec (.ttVerify ⟨q, bank⟩) s = .next t ∧ t.on ROUND_LOAD_STATUS_VERIFY_BUSY = true ∧ t.rnd.verify = some bank ∧
        t.ttRun = s.ttRun ∧ t.mem = s.mem) ∧
    (s.rnd.verify = some bank → s.verifyFault (if bank then 1 else 0) = none →
      ∃ t, exec .ttVerifyDone s = .next t ∧ t.on (verifiedFld bank) = true ∧ t.on ROUND_LOAD_STATUS_VERIFY_BUSY = false ∧ t.mem = s.mem) ∧
    (s.bankVerified = true → ∃ t, exec (.ttEnableWrite ⟨q, true⟩) s = .next t ∧ t.on ROUND_CTRL_TT_ENABLE = true ∧ t.rnd.ttPend = some true ∧
        t.ttRun = s.ttRun ∧ t.mem = s.mem) ∧
    (s.bankVerified = false → ∃ t, exec (.ttEnableWrite ⟨q, true⟩) s = .next t ∧ t.on ERROR_STATUS_NOTE = true ∧
        t.on ROUND_CTRL_TT_ENABLE = s.on ROUND_CTRL_TT_ENABLE ∧ t.rnd.ttPend = s.rnd.ttPend ∧ t.ttRun = s.ttRun ∧ t.mem = s.mem)

/-- The round counter rises by exactly 1 at each round boundary. With the supply up, SYS_RESET_N high and no reset waiting, a round boundary completes and
the round counter becomes one more (modulo 2^64), whatever else the blocks do at the boundary. Rests on the choices and readings of the model in log
entries 27, 122. (R43) -/
def Obligations.RoundCounterRisesByOne : Prop :=
  ∀ (energy : List EnergyPart) (s : State), s.boot.supply = .up → s.boot.resetLow = false → s.boot.due = [] →
    ∃ t, exec (.roundBoundary energy) s = .next t ∧ t.round = (s.round + 1) % 2 ^ 64

/-- An image or codec unit starts only when its fit check passes, and its end frees the block. On an image or codec block with no unit, that is neither in
the safe state nor preparing, that has joined the round sequence, and whose owner has a unit ready with worst case ns: if the fit check passes the unit runs with the quantum end that the
check used; if it must wait for another quantum it does not start and DEFER_COUNT rises by at most 1. The end of a unit frees the block. Rests on the
choices and readings of the model in log entries 26, 48, 137. (R56; R60; R63) -/
def Obligations.UnitsStartByFitCheckAndEnd : Prop :=
  ∀ (b : Block) (w : Work) (ns t : Nat) (s : State), 16 ≤ b.val →
    (s.unitOn b = none → s.on ERROR_STATUS_SAFE = false → (s.atNs t).preparing (blockDomain b) = false →
      s.joined (blockDomain b) = true → (s.atNs t).visionReady b w.owner = some ns →
      (∀ e, (s.atNs t).fit b w.owner t ns 1000 = .start e →
        ∃ u, exec (.unitStart b (.vision w) t) s = .next u ∧
          u.unitOn b = some { ring := none, owner := w.owner, d := ns, startRound := s.round, startNs := t, quantumEnd := e } ∧ u.mem = s.mem ∧
          u.rd (ROUND_DEFER_COUNT b) = s.rd (ROUND_DEFER_COUNT b)) ∧
      (∀ lo, (s.atNs t).fit b w.owner t ns 1000 = .defer lo →
        ∃ u, exec (.unitStart b (.vision w) t) s = .next u ∧ u.unitOn b = none ∧ u.mem = s.mem ∧
          u.rdN (ROUND_DEFER_COUNT b) ≤ s.rdN (ROUND_DEFER_COUNT b) + 1)) ∧
    (∀ r, s.unitOn b = some r → ∃ u, exec (.unitEnd b t) s = .next u ∧ u.unitOn b = none)

/-- An overrun is counted and reported, and a hung unit is halted. A unit of an image or codec block that still runs at the end of its quantum, not yet
counted, raises OVR_COUNT by 1 (saturating) and reports a NOTE, and goes on running. One that still runs 1,000 rounds later is halted with a CONTAINED
report. Rests on the choices and readings of the model in log entry 26. (R63; R65) -/
def Obligations.OverrunAndHangAreCounted : Prop :=
  ∀ (b : Block) (r : RunUnit) (t : Nat) (s : State), 16 ≤ b.val → s.unitOn b = some r → r.ring = none →
    (r.overrun = false → r.quantumEnd ≤ s.at t →
      ∃ u, exec (.overrun b t) s = .next u ∧ u.rdN (ROUND_OVR_COUNT b) = min (s.rdN (ROUND_OVR_COUNT b) + 1) 0xFFFFFFFF ∧
        u.on ERROR_STATUS_NOTE = true ∧ u.unitOn b = some { r with overrun := true } ∧ u.mem = s.mem) ∧
    (r.quantumEnd + 1000000 ≤ s.at t →
      ∃ u, exec (.unitHang b t) s = .next u ∧ u.unitOn b = none ∧ u.on ERROR_STATUS_CONTAINED = true ∧ u.mem = s.mem)

/-- A doorbell sets its count when its tests pass and is discarded with DOORBELL_BAD otherwise. For the owner of a ring that is not DISABLED: a submission
doorbell with (v - SUB_HEAD) <= S and (v - SUB_TAIL) <= S modulo 2^32 sets SUB_TAIL to v; otherwise SUB_TAIL is as before and DOORBELL_BAD (NOTE) is
reported against the ring. A return doorbell with (v - RET_HEAD) <= (RET_TAIL - RET_HEAD) sets RET_HEAD to v; otherwise RET_HEAD is as before and
DOORBELL_BAD is reported. (Each is an aligned 32-bit write at offset 0x000 or 0x004 of the ring's page.) A read of a word of
the page returns what Table 3.2 gives and zero elsewhere; a write of another size or alignment below 0x014 is reported, and one from 0x014 on is
discarded. A submission doorbell changes no other register outside ERROR and no memory. (R81; R82) -/
def Obligations.DoorbellsAreAcceptedByTheirTests : Prop :=
  ∀ (q : Req) (page : Ring) (r v : Nat) (s : State), s.spineUp = true → s.pageRing q page = some r → s.ringFn r = q.fn → s.ringState r ≠ 0 →
    let noted := fun (t : State) => ∃ e : Err, e.code = Code.DOORBELL_BAD ∧ e.ring = some r ∧ t = s.report e
    (cdiff v (s.rdN (RINGS_SUB_HEAD r)) ≤ s.ringSize r ∧ cdiff v (s.rdN (RINGS_SUB_TAIL r)) ≤ s.ringSize r →
      ∃ t, exec (.submissionDoorbell q page ⟨0, 4⟩ (some v)) s = .next t ∧ t.rdN (RINGS_SUB_TAIL r) = v % 2 ^ 32 ∧
        (∀ o, o ≠ RINGS_SUB_TAIL r → t.rd o = s.rd o) ∧ t.mem = s.mem ∧ t.rings = s.rings ∧ t.err = s.err) ∧
    (s.ringSize r < cdiff v (s.rdN (RINGS_SUB_HEAD r)) ∨ s.ringSize r < cdiff v (s.rdN (RINGS_SUB_TAIL r)) →
      ∃ t, exec (.submissionDoorbell q page ⟨0, 4⟩ (some v)) s = .next t ∧ t.on ERROR_STATUS_NOTE = true ∧ noted t ∧
        (∀ o, o < 0xD00000 ∨ 0xE00000 ≤ o → t.rd o = s.rd o) ∧ t.mem = s.mem ∧ t.rings = s.rings) ∧
    (cdiff v (s.rdN (RINGS_RET_HEAD r)) ≤ cdiff (s.rdN (RINGS_RET_TAIL r)) (s.rdN (RINGS_RET_HEAD r)) →
      ∃ t, exec (.returnDoorbell q page ⟨4, 4⟩ (some v)) s = .next t ∧ t.rdN (RINGS_RET_HEAD r) = v % 2 ^ 32) ∧
    (cdiff (s.rdN (RINGS_RET_TAIL r)) (s.rdN (RINGS_RET_HEAD r)) < cdiff v (s.rdN (RINGS_RET_HEAD r)) →
      ∃ t, exec (.returnDoorbell q page ⟨4, 4⟩ (some v)) s = .next t ∧ t.on ERROR_STATUS_NOTE = true ∧ noted t ∧
        (∀ o, o < 0xD00000 ∨ 0xE00000 ≤ o → t.rd o = s.rd o) ∧ t.mem = s.mem ∧ t.rings = s.rings) ∧
    (∀ o, o < 0x1000 → o % 4 = 0 → ∃ t, exec (.submissionDoorbell q page ⟨o, 4⟩ none) s = .next t ∧ t.regs = s.regs ∧ t.mem = s.mem ∧
      t.bus.data = (if o = 0 then s.rdN (RINGS_SUB_TAIL r) else if o = 4 then s.rdN (RINGS_RET_HEAD r) else if o = 8 then s.rdN (RINGS_SUB_HEAD r)
        else if o = 0xC then s.rdN (RINGS_RET_TAIL r) else if o = 0x10 then s.rdN (RINGS_STATUS r) else 0)) ∧
    (∀ a : PageAcc, (a.off < 0x14 → a.size ≠ 4 ∨ a.off % 4 ≠ 0 → ∃ t, exec (.submissionDoorbell q page a (some v)) s = .next t ∧
        t.on ERROR_STATUS_NOTE = true ∧ (∀ o, o < 0xD00000 ∨ 0xE00000 ≤ o → t.rd o = s.rd o) ∧ t.mem = s.mem ∧ t.rings = s.rings) ∧
      (0x14 ≤ a.off → exec (.submissionDoorbell q page a (some v)) s = .next s))

/-- An envelope is fetched once, starts in its turn, and is counted when it completes. A fetch that may be made and whose read succeeds raises SUB_HEAD by
1 and keeps the copy read, with the status that its checks give; memory is as before. A WAIT whose receipt has reached VALUE when it is fetched
completes at once. The next envelope starts, with an entry reserved, when the ring is RUNNING, no safe state is entered, its order allows it, its own
transfers are done and an entry is free. An envelope that has ended with OK, and for which no transfer waits, completes and DONE_COUNT rises by 1; a NOP or a FENCE that has started does so at once. A record that has waited DELAY rounds raises the ring's interrupt. Rests on the choices and
readings of the model in log entries 28, 33, 35, 110. (R84; R90; R93; R94; R96; R104) -/
def Obligations.EnvelopesAreFetchedStartedAndCounted : Prop :=
  ∀ (r : Ring) (s : State), s.spineUp = true →
    (∀ e, s.mayFetch r = true → s.addrRead (s.ringFn r) (s.subAddr r (s.rdN (RINGS_SUB_HEAD r))) 64 = .ok e →
      (Env.kind e ≠ 3 ∨ s.envCheck r e ≠ 0 ∨ s.receipt (Env.receipt e) < Env.value e →
        ∃ t, exec (.envelopeFetch r) s = .next t ∧ t.rdN (RINGS_SUB_HEAD r) = (s.rdN (RINGS_SUB_HEAD r) + 1) % 2 ^ 32 ∧ t.mem = s.mem ∧
          (t.ring r).flights = (s.ring r).flights ++
            [{ seq := s.rdN (RINGS_SUB_HEAD r), env := e, fetchRound := s.round, startRound := s.round, fetchFail := s.envCheck r e }]) ∧
      (Env.kind e = 3 → s.envCheck r e = 0 → Env.value e ≤ s.receipt (Env.receipt e) →
        (∀ f ∈ (s.ring r).flights, f.seq ≠ s.rdN (RINGS_SUB_HEAD r)) →
        ∃ t, exec (.envelopeFetch r) s = .next t ∧ t.rdN (RINGS_DONE_COUNT r) = min (s.rdN (RINGS_DONE_COUNT r) + 1) (2 ^ 64 - 1))) ∧
    (∀ before f ns, s.nextToStart r = some (before, f) → s.ringState r = 1 → s.quiet = false → orderOk before f = true →
      s.marshalWaits f = false → s.preparing 26 = false → s.preparing 21 = false → s.memWaits r f.seq = false → s.retRoom r = true → f.fetchFail = 0 →
      ∃ t, exec (.envelopeStart r ns) s = .next t ∧ (t.ring r).flights = onSeq f.seq (fun x =>
        { x with stage := .started, startRound := if Env.kind f.env = 3 then f.fetchRound else s.round, reserved := true }) (s.ring r).flights) ∧
    (∀ f ns, s.flight r f.seq = some f →
      (f.stage = .ended → f.status = 0 → s.memWaits r f.seq = false → ∃ t, exec (.envelopeComplete r f.seq ns) s = .next t ∧
        t.rdN (RINGS_DONE_COUNT r) = min (s.rdN (RINGS_DONE_COUNT r) + 1) (2 ^ 64 - 1)) ∧
      (f.stage = .started → Env.kind f.env = 0 → ∃ t, exec (.nop r f.seq) s = .next t ∧
        t.rdN (RINGS_DONE_COUNT r) = min (s.rdN (RINGS_DONE_COUNT r) + 1) (2 ^ 64 - 1)) ∧
      (f.stage = .started → Env.kind f.env = 12 → ∃ t, exec (.fence r f.seq) s = .next t ∧
        t.rdN (RINGS_DONE_COUNT r) = min (s.rdN (RINGS_DONE_COUNT r) + 1) (2 ^ 64 - 1))) ∧
    (∀ c, (s.ring r).irqSince = some c → 0 < s.cfg (RINGS_IRQ_DELAY r) → c + s.cfg (RINGS_IRQ_DELAY r) ≤ s.round → s.ringFn r ≤ 16 →
      s.cfg (RINGS_IRQ_VECTOR r) < 256 → s.links.masked.contains (s.ringFn r, s.cfg (RINGS_IRQ_VECTOR r)) = false →
      ∃ t, exec (.irqDelay r) s = .next t ∧ t.irqs = s.irqs ++ [.msix (s.ringFn r) (s.cfg (RINGS_IRQ_VECTOR r))] ∧
        (t.ring r).irqPend = 0 ∧ (t.ring r).irqSince = none ∧ t.regs = s.regs ∧ t.mem = s.mem)

/-- A WAIT completes when its receipt has reached VALUE or its time is over, and a SIGNAL when it is applied. A WAIT, fetched or started, whose receipt has
reached VALUE completes with OK, whichever event tests it, and one whose receipt has not is as before. One not satisfied by the end of round f + TIMEOUT
completes with TIMEOUT. A local SIGNAL completes with OK; a remote one not acknowledged in time fails with LINK_DOWN. Rests on the choices and
readings of the model in log entries 7, 136. (R108; R109; R111; R102) -/
def Obligations.WaitsAndSignalsComplete : Prop :=
  ∀ (r : Ring) (f : Flight) (s : State), s.flight r f.seq = some f →
    (f.stage = .started ∨ f.stage = .fetched → Env.kind f.env = 3 → f.fetchFail = 0 →
      (Env.value f.env ≤ s.receipt (Env.receipt f.env) →
        (∃ t, exec (.wait r f.seq) s = .next t ∧ t.rdN (RINGS_DONE_COUNT r) = min (s.rdN (RINGS_DONE_COUNT r) + 1) (2 ^ 64 - 1)) ∧
        (∃ t, exec (.waitSatisfied r f.seq) s = .next t ∧ t.rdN (RINGS_DONE_COUNT r) = min (s.rdN (RINGS_DONE_COUNT r) + 1) (2 ^ 64 - 1))) ∧
      (s.receipt (Env.receipt f.env) < Env.value f.env → exec (.wait r f.seq) s = .next s ∧ exec (.waitSatisfied r f.seq) s = .next s)) ∧
    (Env.kind f.env = 3 → f.fetchFail = 0 → f.stage = .started ∨ f.stage = .fetched → 0 < Env.timeout f.env →
      f.fetchRound + Env.timeout f.env < s.round → s.receipt (Env.receipt f.env) < Env.value f.env →
      ∃ t, exec (.waitTimeout r f.seq) s = .next t ∧ t.get (RINGS_STATUS_LAST_FAIL r) = 8) ∧
    (f.stage = .started → Env.kind f.env = 4 → Env.remote f.env = false → s.relayOpen r f.seq = false →
      ∃ t, exec (.signal r f.seq) s = .next t ∧ t.rdN (RINGS_DONE_COUNT r) = min (s.rdN (RINGS_DONE_COUNT r) + 1) (2 ^ 64 - 1)) ∧
    (f.stage = .started → Env.kind f.env = 4 → s.relayLate r f.seq true = true →
      ∃ t, exec (.remoteSignalTimeout r f.seq) s = .next t ∧ t.get (RINGS_STATUS_LAST_FAIL r) = 0x0D)

/-- A register signal sets the receipt to the sum or the maximum, and RECEIPT_BASE changes only while no ring is enabled. With receipts in force and the
bank owned by the writer, a write of RECEIPT_SIG_VALUE sets the named receipt to min(value + v, 2^64 - 1) in add mode and to max(value, v) in max
mode; where signals have reached the receipt in the same cycle, it holds what they and this one make of its value in the order of Table 3.10. The write
leaves every byte outside the receipt, and a writer that does not own the bank changes no memory and is reported. A RECEIPT_BASE write takes
effect while no ring is enabled and EN is 0. Rests on the choices and readings of the model in log entry 29. (R105; R106; R110; R112) -/
def Obligations.RegisterSignalsMoveReceiptsUpward : Prop :=
  ∀ (q : Req) (v : Nat) (s : State), s.spineUp = true → q.pfOrHost = true → s.holdOf q = none → v < 2 ^ 64 →
    (s.cfgOn RINGS_RECEIPT_BASE_EN = true → s.maySignal q.fn (s.get RINGS_RECEIPT_SIG_INDEX_INDEX) = true →
      ∃ t, exec (.receiptSigValue q v) s = .next t ∧
        ((∀ c ∈ s.rnd.sigs, c.receipt = s.get RINGS_RECEIPT_SIG_INDEX_INDEX → c.at_ ≠ s.now) →
          t.receipt (s.get RINGS_RECEIPT_SIG_INDEX_INDEX) = (if s.on RINGS_RECEIPT_SIG_INDEX_MODE
            then max (s.receipt (s.get RINGS_RECEIPT_SIG_INDEX_INDEX)) v
            else min (s.receipt (s.get RINGS_RECEIPT_SIG_INDEX_INDEX) + v) (2 ^ 64 - 1))) ∧
        (∀ c, s.rnd.sigs.find? (fun c => c.receipt == s.get RINGS_RECEIPT_SIG_INDEX_INDEX && c.at_ == s.now) = some c →
          t.receipt (s.get RINGS_RECEIPT_SIG_INDEX_INDEX) =
            (sigFold c.base (sigPlace ⟨8, q.fn, s.on RINGS_RECEIPT_SIG_INDEX_MODE, v⟩ c.ops)).1 % 2 ^ 64) ∧
        (∀ a, a < s.receiptAddr (s.get RINGS_RECEIPT_SIG_INDEX_INDEX) ∨ s.receiptAddr (s.get RINGS_RECEIPT_SIG_INDEX_INDEX) + 8 ≤ a →
          t.byte a = s.byte a)) ∧
    (s.maySignal q.fn (s.get RINGS_RECEIPT_SIG_INDEX_INDEX) = false →
      ∃ t, exec (.receiptSigValue q v) s = .next t ∧ t.mem = s.mem ∧ t.on ERROR_STATUS_NOTE = true) ∧
    (s.anyRingEnabled = false → s.on RINGS_RECEIPT_BASE_EN = false →
      ∃ t, exec (.receiptBaseWrite q v) s = .next t ∧ t.get RINGS_RECEIPT_BASE_ADDR = v / 2 ^ 20 ∧ t.get RINGS_RECEIPT_BASE_EN = v % 2 ∧
        (∀ o, o ≠ RINGS_RECEIPT_BASE → t.rd o = s.rd o) ∧ t.mem = s.mem)

/-- Ring control moves a ring between its states as Table 3.9 gives. CFG of a DISABLED ring takes an allowed value; ENABLE takes a DISABLED ring with both
bases set to RUNNING with all counts 0; STOP, ABORT and the reset of its function take a RUNNING ring out of RUNNING: with nothing started it is STOPPED
by the first two, its fetched envelopes cancelled, and DISABLED with its counts 0 by the reset of a virtual function that owns it alone, and with
an envelope other than a WAIT started it is STOPPING after STOP; RESUME takes a STOPPED ring to RUNNING; ENABLE 0 takes a STOPPED ring to DISABLED with
all counts 0. Rests on the choices and readings of the model in log entry 14. (R114; R115;
R116; R117; R118; R119; R120) -/
def Obligations.RingControlMovesRingStates : Prop :=
  ∀ (q : Req) (r : Ring) (s : State), s.spineUp = true → q.pfOrHost = true → s.holdOf q = none →
    (∀ v, s.ringState r = 0 → s.ringFn r ≠ 18 → v / 2 ^ 16 % 32 = 0 ∨ v / 2 ^ 16 % 32 = 17 →
      ∃ t, exec (.ringCfgWrite q r v) s = .next t ∧ t.ringFn r = v / 2 ^ 16 % 32 ∧ t.get (RINGS_CFG_CLASS r) = v / 2 ^ 8 % 4 ∧
        t.get (RINGS_CFG_FLOOR_GROUP r) = v / 2 ^ 12 % 4 ∧ (∀ o, o ≠ RINGS_CFG r → t.rd o = s.rd o) ∧ t.mem = s.mem) ∧
    ((s.ringFn r = 18 → q.secure = true) →
      (s.ringState r = 0 → s.on ERROR_STATUS_SAFE = false → s.rdN (RINGS_SUB_BASE r) ≠ 0 → s.rdN (RINGS_RET_BASE r) ≠ 0 →
        ∃ t, exec (.ringEnable q r) s = .next t ∧ t.ringState r = 1 ∧ t.on (RINGS_CTRL_ENABLE r) = true ∧ t.rdN (RINGS_SUB_TAIL r) = 0 ∧
          t.rdN (RINGS_SUB_HEAD r) = 0 ∧ t.rdN (RINGS_RET_TAIL r) = 0 ∧ t.rdN (RINGS_RET_HEAD r) = 0 ∧ t.rdN (RINGS_DONE_COUNT r) = 0 ∧ t.mem = s.mem) ∧
      (s.ringState r = 3 →
        ∃ t, exec (.ringDisable q r) s = .next t ∧ t.ringState r = 0 ∧ t.on (RINGS_CTRL_ENABLE r) = false ∧ t.rdN (RINGS_SUB_TAIL r) = 0 ∧
          t.rdN (RINGS_SUB_HEAD r) = 0 ∧ t.rdN (RINGS_RET_TAIL r) = 0 ∧ t.rdN (RINGS_RET_HEAD r) = 0 ∧ t.mem = s.mem) ∧
      (s.ringState r = 3 → s.on ERROR_STATUS_SAFE = false →
        ∃ t, exec (.ringResume q r) s = .next t ∧ t.ringState r = 1 ∧ t.rdN (RINGS_SUB_HEAD r) = s.rdN (RINGS_SUB_HEAD r) ∧ t.mem = s.mem) ∧
      (s.ringState r = 1 → ∃ t, exec (.ringStop q r) s = .next t ∧ t.ringState r ≠ 1 ∧
        ((s.ring r).disabling = false → (∀ f ∈ (s.ring r).flights, f.stage = .fetched ∨ f.stage = .done) →
          t.ringState r = 3 ∧ t.on (RINGS_CTRL_STOP r) = false ∧ ∀ f ∈ (t.ring r).flights, f.stage = .done) ∧
        ((∃ f ∈ (s.ring r).flights, f.stage = .started ∧ ∀ x ∈ (s.ring r).flights, x.seq = f.seq → Env.kind x.env ≠ 3) →
          t.ringState r = 2 ∧ t.on (RINGS_CTRL_STOP r) = true)) ∧
      (s.ringState r = 1 → ∃ t, exec (.ringAbort q r) s = .next t ∧ t.ringState r ≠ 1 ∧
        ((s.ring r).disabling = false → (∀ f ∈ (s.ring r).flights, f.stage = .fetched ∨ f.stage = .done) →
          t.ringState r = 3 ∧ t.on (RINGS_CTRL_ABORT r) = false ∧ ∀ f ∈ (t.ring r).flights, f.stage = .done))) ∧
    (∀ f : Fin 17, s.ringState r = 1 → s.ringFn r = f.val → ∃ t, exec (.functionLevelReset f) s = .next t ∧ t.ringState r ≠ 1 ∧
      (f.val ≠ 0 → s.liveRings.filter (fun k => s.ringFn k == f.val) = [r.val] → (∀ x ∈ (s.ring r).flights, x.stage = .fetched ∨ x.stage = .done) →
        t.ringState r = 0 ∧ t.on (RINGS_CTRL_ENABLE r) = false ∧ t.rdN (RINGS_SUB_TAIL r) = 0 ∧ t.rdN (RINGS_RET_TAIL r) = 0 ∧ (t.ring r).flights = []))

/-- An owner opens, records, is sealed, is returned and expires as Table 4.2 gives. TXN.CMD by the holder: an open of a FREE owner that Table 4.1 permits
makes it OPEN with an empty shadow set, and changes no register but the owner's; a seal of the owner held makes it SEALING; a return makes it FREE. A
TXN envelope does the same, counts as completed (a seal when it is decided), and a write list of one entry, read with no burst that waits, records the SH and PL bits of its VALUE
alone, or fails with TXN_BAD_TARGET and records nothing. An owner open at its limit becomes FREE with LAST_STATUS TXN_EXPIRED; owner 7 never does.
Rests on the choices and readings of the model in log entry 34. (R126; R127; R130; R131; R133; R142) -/
def Obligations.OwnersOpenRecordSealReturnAndExpire : Prop :=
  ∀ (s : State), s.spineUp = true →
    (∀ (q : Req) (h : Nat) (o : Fin 8), q.holder = some h → Safety.Lands q TXN_CMD s →
      (ownerPermitted h o = true → s.ownerState o = 0 → s.heldBy h = none →
        ∃ t, exec (.txnOpen (.cmd q o)) s = .next t ∧ t.ownerState o = 1 ∧ t.rdN (TXN_OWNER_HOLDER o) = h ∧ t.rdN (TXN_OWNER_OPEN o) = s.round ∧
          (t.ownerSt o).set = [] ∧ (t.ownerSt o).openSeq = s.rdN TXN_CHANGE_SEQ ∧ t.mem = s.mem ∧
          (∀ a, a ≠ TXN_OWNER_STATE o → a ≠ TXN_OWNER_HOLDER o → a ≠ TXN_OWNER_OPEN o → t.rd a = s.rd a)) ∧
      (s.ownHeld h o = true →
        (∃ t, exec (.txnSeal (.cmd q o)) s = .next t ∧ t.ownerState o = 2 ∧ t.txn.seals = s.txn.seals ++ [o.val] ∧ (t.ownerSt o).set = (s.ownerSt o).set ∧
          t.mem = s.mem ∧ (∀ a, a ≠ TXN_OWNER_STATE o → t.rd a = s.rd a)) ∧
        (∃ t, exec (.txnReturn (.cmd q o)) s = .next t ∧ t.ownerState o = 0 ∧ (t.ownerSt o).set = [] ∧ t.rdN (TXN_OWNER_DONE o) = s.round ∧
          t.mem = s.mem ∧ (∀ a, a ≠ TXN_OWNER_STATE o → a ≠ TXN_OWNER_DONE o → t.rd a = s.rd a)))) ∧
    (∀ (r : Ring) (f : Flight) (h : Nat), s.flight r f.seq = some f → f.stage = .started → Env.kind f.env = 5 → ringHolder (s.ringFn r) = some h →
      (Env.op f.env = 0 → ownerPermitted h (Env.owner f.env) = true → s.ownerState (Env.owner f.env) = 0 → s.heldBy h = none →
        ∃ t, exec (.txnOpen (.env r f.seq)) s = .next t ∧ t.ownerState (Env.owner f.env) = 1 ∧
          t.rdN (RINGS_DONE_COUNT r) = min (s.rdN (RINGS_DONE_COUNT r) + 1) (2 ^ 64 - 1)) ∧
      (s.ownHeld h (Env.owner f.env) = true →
        (Env.op f.env = 2 → ∃ t, exec (.txnSeal (.env r f.seq)) s = .next t ∧ t.ownerState (Env.owner f.env) = 2 ∧ t.rings = s.rings) ∧
        (Env.op f.env = 3 → ∃ t, exec (.txnReturn (.env r f.seq)) s = .next t ∧ t.ownerState (Env.owner f.env) = 0 ∧
          t.rdN (RINGS_DONE_COUNT r) = min (s.rdN (RINGS_DONE_COUNT r) + 1) (2 ^ 64 - 1)) ∧
        (Env.op f.env = 1 → Env.count f.env = 1 → Env.list f.env % 16 = 0 → ∀ b x, s.addrRead (s.ringFn r) (Env.list f.env) 16 = .ok b →
          (s.ringTraffic r f.seq (Env.list f.env) 16).memWaits r f.seq = false → listEntries b 1 = [x] → x.clean = true → (s.ownerSt (Env.owner f.env)).set = [] →
          (x.target = true → s.ownerState (Env.owner f.env) = 1 →
            ∃ t, exec (.txnWrites r f.seq) s = .next t ∧ (t.ownerSt (Env.owner f.env)).set =
              [⟨x.offset, maskOf .sh x.offset + maskOf .pl x.offset, andNat x.value (maskOf .sh x.offset + maskOf .pl x.offset)⟩] ∧
              t.rdN (RINGS_DONE_COUNT r) = min (s.rdN (RINGS_DONE_COUNT r) + 1) (2 ^ 64 - 1)) ∧
          (x.target = false → ∃ t, exec (.txnWrites r f.seq) s = .next t ∧ t.txn = s.txn ∧ t.get (RINGS_STATUS_LAST_FAIL r) = 0x8509)))) ∧
    (∀ o : Fin 8, s.ownerOpen o = true → (s.ownerSt o).limit ≠ 0 → s.rdN (TXN_OWNER_OPEN o) + (s.ownerSt o).limit ≤ s.round →
      (o.val ≠ 7 → ∃ t, exec (.txnExpired o) s = .next t ∧ t.ownerState o = 0 ∧ t.get (TXN_OWNER_STATE_LAST_STATUS o) = 0x8507 ∧
        t.on ERROR_STATUS_NOTE = true ∧ t.mem = s.mem) ∧
      (o.val = 7 → exec (.txnExpired o) s = .next s))

/-- A seal is applied whole or not at all, and a pair changes with both its fields. At the boundary after its acceptance the one seal that waits is
decided. FAILED gives TXN_FULL; a register that another seal has marked since the open gives CONFLICT, counted; a refused register gives TT_INVALID or
TXN_REFUSED; in each case no register outside the TXN and ERROR blocks changes. Otherwise the sealed bits of a register of the set change and its
other bits do not, and CHANGE_SEQ rises by 1. The owner is FREE in every case. A mated pair that its block accepts changes in both registers, and one
that it refuses in neither; the blocks then take the entry of the round from the state so given. A half without its mate for 1,000 rounds is dropped and counted, and an earlier one stays. Rests on the choices and
readings of the model in log entries 36, 37. (R134; R135; R137; R139; R146; R149) -/
def Obligations.SealsAndPairsTakeEffectWhole : Prop :=
  ∀ (s : State), (∀ (o : Fin 8) (x : OwnerSt), s.txn.mated = [] → s.txn.seals = [o.val] → s.ownerSt o = x → x.sealRound < s.round → x.env = none →
      ∃ t : State, exec .sealApply s = .next t.entryNow ∧ t.ownerState o = 0 ∧ t.txn.seals = [] ∧
        (x.failed = true → t.get (TXN_OWNER_STATE_LAST_STATUS o) = 0x8506) ∧
        (x.failed = false → s.conflicts x ≠ [] → t.get (TXN_OWNER_STATE_LAST_STATUS o) = 0x8501 ∧
          t.rdN TXN_CONFLICT_COUNT = min (s.rdN TXN_CONFLICT_COUNT + 1) 0xFFFFFFFF) ∧
        (x.failed = false → s.conflicts x = [] → s.refusals x.set ≠ [] →
          t.get (TXN_OWNER_STATE_LAST_STATUS o) = 0x8502 ∨ t.get (TXN_OWNER_STATE_LAST_STATUS o) = 0x8508) ∧
        (x.failed = true ∨ s.conflicts x ≠ [] ∨ s.refusals x.set ≠ [] →
          t.rdN TXN_CHANGE_SEQ = s.rdN TXN_CHANGE_SEQ ∧ t.mem = s.mem ∧
          (∀ a, (a < 0x20000 ∨ 0x30000 ≤ a) → (a < 0xD00000 ∨ 0xE00000 ≤ a) → t.rd a = s.rd a)) ∧
        (x.failed = false → s.conflicts x = [] → s.refusals x.set = [] →
          t.get (TXN_OWNER_STATE_LAST_STATUS o) = 0 ∧ t.rdN TXN_CHANGE_SEQ = (s.rdN TXN_CHANGE_SEQ + 1) % 2 ^ 64 ∧
          (∀ e, x.set = [e] → maskOf .sh e.off + maskOf .pl e.off ≠ 0 → t.rdN e.off = mergeNat (s.rdN e.off) e.mask e.value))) ∧
    (∀ (p : PairId) (m : Mated), s.txn.mated = [m] → m.key = p.key → m.round < s.round →
      let l := [⟨m.key, maskOf .pl m.key, m.first⟩, ⟨m.key + 4, maskOf .pl (m.key + 4), m.second⟩]
      (s.refusal (s.withSet l) m.key = none →
        ∃ t : State, exec .pairApply s = .next t.entryNow ∧ t.txn.mated = [] ∧ t.rdN m.key = mergeNat (s.rdN m.key) (maskOf .pl m.key) m.first ∧
          t.rdN (m.key + 4) = mergeNat (s.rdN (m.key + 4)) (maskOf .pl (m.key + 4)) m.second) ∧
      (s.refusal (s.withSet l) m.key ≠ none →
        ∃ t : State, exec .pairApply s = .next t.entryNow ∧ t.txn.mated = [] ∧ t.mem = s.mem ∧ (∀ a, (a < 0xD00000 ∨ 0xE00000 ≤ a) → t.rd a = s.rd a))) ∧
    (∀ (p : PairId) (h : Half), s.half p.key = some h →
      (h.round + 1000 ≤ s.round → ∃ t, exec (.pairOrphan p) s = .next t ∧ t.half p.key = none ∧ t.on ERROR_STATUS_NOTE = true ∧
        t.rdN TXN_ORPHAN_COUNT = min (s.rdN TXN_ORPHAN_COUNT + 1) 0xFFFFFFFF ∧ t.mem = s.mem) ∧
      (s.round < h.round + 1000 → exec (.pairOrphan p) s = .next s))

/-- An INT8 MAC adds the exact 16-term product sum to every cell, saturating, and changes nothing else. A word whose only slot is an INT8 MAC in broadcast
mode into ACC0 or ACC1, which a running clerk reaches with its array and file free, and whose operands read without error: every cell (i, j)
becomes C + 2^sh times the sum over k of A[i][k] B[k][j], saturated at -2^31 and 2^31 - 1, with each operand signed or U8 as marked; a saturation sets
ACC_SAT. The array's 16 issue cycles are counted. The other file, every other clerk, memory, and every register but the district's event and cycle
counters are as they stood when the cycle began, with the stores and loads due in it done. Rests on the choices and readings of the model in log
entry 43. (R155; R156; R159; R163; R167) -/
def Obligations.Int8MacAccumulatesExactly : Prop :=
  ∀ (c : Fin 4096) (cyc pc len : Nat) (branch : Bool) (x : ArraySlot) (fa fb : Feed) (da db : Bytes) (s0 s : State),
    Safety.Reaches c cyc pc ⟨{ array := some x }, len, branch, 0⟩ s0 → s = s0.clerkCycle c cyc →
    x.op = .mac → x.mode = .int8 → x.stream = false → x.file.val < 2 → Safety.ArrayIdle (s.clerk c) cyc →
    (s.clerk c).feedA = some fa → (s.clerk c).feedB = some fb → fa.ready ≤ cyc → fb.ready ≤ cyc →
    (s.clerk c).drainWaits cyc { array := some x } = false → s.slotRead c fa.addr 256 = (s, .ok, da) → s.slotRead c fb.addr 256 = (s, .ok, db) →
    let d := clerkDistrict c
    let code : Bool → Nat → Int := fun u n => if u then (n : Int) else toSigned 8 n
    let a : Nat → Nat → Int := fun i k => code x.aU8 (s.byte (storeAddr c + fa.addr + (16 * k + i))).toNat
    let b : Nat → Nat → Int := fun k j => code x.bU8 (s.byte (storeAddr c + fb.addr + (16 * k + j))).toNat
    let exact : Nat → Nat → Int := fun i j => toSigned 32 ((s.clerk c).cell x.file i j) +
      (List.range 16).foldl (fun t k => t + a i k * b k j) 0 * (2 ^ (8 * x.shift.val) : Nat)
    ∃ t, exec (.wordIssue c cyc pc ⟨{ array := some x }, len, branch, 0⟩) s0 = .next t ∧
      (∀ i j, i < 16 → j < 16 → (t.clerk c).cell x.file i j = ofSigned 32 (max (-2147483648) (min 2147483647 (exact i j)))) ∧
      (∀ i j, i < 16 → j < 16 → (exact i j < -2147483648 ∨ 2147483647 < exact i j) → t.on (FLOOR_ARITH_EVENT_ACC_SAT d) = true) ∧
      (∀ i j, i < 16 → j < 16 → (t.clerk c).cell (1 - x.file.val) i j = (s.clerk c).cell (1 - x.file.val) i j) ∧
      t.rdN (FLOOR_ARRAY_CYCLES d) = min (s.rdN (FLOOR_ARRAY_CYCLES d) + 16) (2 ^ 64 - 1) ∧
      (∀ o : Nat, o ≠ c.val → t.clerk o = s.clerk o) ∧ t.mem = s.mem ∧ (t.clerk c).vregs = (s.clerk c).vregs ∧
      (∀ o, o ≠ FLOOR_ARRAY_CYCLES d → o ≠ FLOOR_FREEZE_DRY d → o ≠ FLOOR_ARITH_EVENT d → t.rd o = s.rd o)

/-- A frozen clerk changes nothing but a freeze count, a barrier releases its clerks together, and the scrubber reports what it finds. A clerk that
comes to a word and lacks an operand counts in FREEZE_DRY, and one that only waits on the drain counts in FREEZE_DRAIN; its array is held and memory is
as before. In a cycle in which the array's own accesses contend, or the array is not free for an array slot, nothing issues. Filling an inbox keeps
what it holds and never makes it longer than 64. Once every clerk that a barrier names has issued it, all of them run, 12 cycles after the last. With no
wrong bit in a word before, a scrub read that finds one raises CORR_COUNT (saturating) and reports a NOTE; one that finds two poisons the word, sets
UNCORR and reports CONTAINED; a clean one changes nothing; and with the scrubber off, wrong bits stay until the word is read. Rests on the choices and readings
of the model in log entries 44, 45. (R179; R181; R186; R188; R189; R190) -/
def Obligations.ClerksFreezeJoinAndAreScrubbed : Prop :=
  ∀ (s : State),
    (∀ (c : Fin 4096) (cyc pc : Nat) (w : BufWord) (p : State), Safety.Reaches c cyc pc w s → p = s.clerkCycle c cyc →
      (((p.clerk c).arrayAt cyc).any (fun x => x.1) = true → exec (.wordIssue c cyc pc w) s = .next p) ∧
      (((p.clerk c).arrayAt cyc).any (fun x => x.1) = false → w.word.array.isSome = true → (∃ r, (p.clerk c).array = some r ∧ cyc < r.free) →
        exec (.wordIssue c cyc pc w) s = .next p) ∧
      (((p.clerk c).arrayAt cyc).any (fun x => x.1) = false → w.word.array.isSome = false ∨ Safety.ArrayIdle (p.clerk c) cyc →
        ((p.clerk c).dry cyc w.word = true →
          ∃ t, exec (.wordIssue c cyc pc w) s = .next t ∧ t.clerk c = (p.clerk c).hold cyc ∧ t.mem = p.mem ∧
            t.rdN (FLOOR_FREEZE_DRY (clerkDistrict c)) = min (p.rdN (FLOOR_FREEZE_DRY (clerkDistrict c)) + 1) (2 ^ 64 - 1) ∧
            (∀ o, o ≠ FLOOR_FREEZE_DRY (clerkDistrict c) → t.rd o = p.rd o)) ∧
        ((p.clerk c).dry cyc w.word = false → (p.clerk c).drainWaits cyc w.word = true →
          ∃ t, exec (.wordIssue c cyc pc w) s = .next t ∧ t.clerk c = (p.clerk c).hold cyc ∧ t.mem = p.mem ∧
            t.rdN (FLOOR_FREEZE_DRAIN (clerkDistrict c)) = min (p.rdN (FLOOR_FREEZE_DRAIN (clerkDistrict c)) + 1) (2 ^ 64 - 1) ∧
            (∀ o, o ≠ FLOOR_FREEZE_DRAIN (clerkDistrict c) → t.rd o = p.rd o)))) ∧
    (∀ (k : Clerk) (l : List StepSeq) (n : Nat), k.inbox.length ≤ 64 → (k.fill l n).inbox.length ≤ 64 ∧ (k.fill l n).inbox.take k.inbox.length = k.inbox) ∧
    (∀ (d : Fin 16) (m : Nat), (∀ c, c ∈ clerksOf d m → (s.clerk c).stage = .barrier m) →
      ∃ t, exec (.districtBarrier d) s = .next t ∧ t.regs = s.regs ∧ t.mem = s.mem ∧
        (∀ c, c ∈ clerksOf d m → (t.clerk c).stage = .running ∧ s.barrierLast d m + 12 ≤ (t.clerk c).next)) ∧
    (∀ n d, sramHolds (8 * n) = true → sramDistrict (8 * n) = some d → inSram (8 * n) 8 = true →
      (∀ x ∈ s.floor.flips, x.1 + 8 ≤ 8 * n ∨ 8 * n + 8 ≤ x.1) →
      exec (.scrubRead (8 * n) 0) s = .next s ∧
      (s.cfgOn FLOOR_SCRUB_CTRL_ENABLE = false → s.domUp d = true →
        ∃ t, exec (.scrubRead (8 * n) 2) s = .next t ∧ (8 * n, 2) ∈ t.floor.flips ∧ t.regs = s.regs ∧ t.poison = s.poison ∧ t.mem = s.mem) ∧
      (s.cfgOn FLOOR_SCRUB_CTRL_ENABLE = true → s.dom d = 0 → 8 * n < 0x8020000000 →
        (∃ t, exec (.scrubRead (8 * n) 1) s = .next t ∧ t.get (FLOOR_ECC_STATUS_CORR_COUNT d) = min (s.get (FLOOR_ECC_STATUS_CORR_COUNT d) + 1) 0xFFFF ∧
          t.on ERROR_STATUS_NOTE = true ∧ t.mem = s.mem ∧ t.poison = s.poison) ∧
        (∃ t, exec (.scrubRead (8 * n) 2) s = .next t ∧ t.on (FLOOR_ECC_STATUS_UNCORR d) = true ∧ 8 * n ∈ t.poison ∧
          t.on ERROR_STATUS_CONTAINED = true ∧ t.mem = s.mem)) ∧
      (s.cfgOn FLOOR_SCRUB_CTRL_ENABLE = true → s.dom d = 0 → 0x8020000000 ≤ 8 * n →
        ∃ t, exec (.scrubRead (8 * n) 2) s = .next t ∧ t.on (FLOOR_SC_ECC_UNCORR d) = true ∧ 8 * n ∈ t.poison ∧ t.mem = s.mem))

/-- A ready step starts with its clerks released, and its end closes the unit and, when the entry returns, the RUN. On a district that is ready, for a RUN
that has not failed and a step that its parcel's tables allow, within its limit, whose arrivals are there, that is behind no other and whose fit check
passes, UNIT_START makes its first copies, makes the step the district's unit, counts it, and puts its clerks to work at its first word. As a step
becomes ready its merged addresses go into the stream buffer, and each of its clerks is to take them. When every clerk of the unit has reached its step
boundary, and no step has passed its advance check, STEP_END closes the unit and leaves its clerks; the last step of a RUN on its one district ends the envelope with OK and the steps executed. An overrun on a district is
counted, and a hung unit is closed and reported. Rests on the choices and readings of the model in log entries 48, 137. (R195; R200; R265; R63; R65) -/
def Obligations.StepsStartAndEnd : Prop :=
  ∀ (d : Fin 16) (t : Nat) (s : State),
    (∀ (w : StepWork) (r : RunSt) (x : DRun) (e : Nat) (q : State), s.runSt w.ring w.seq = some r → r.dists.find? (fun y => y.d == d.val) = some x →
      r.fail = none → x.stopped = false → r.express = false → r.stepOk x w.prog = true → s.memWaits w.ring w.seq = false →
      s.districtReady d = true → r.limited x (r.steps.getD w.prog.desc (0, 0, 0)).2.1 = false → s.arrived d w.prog = true →
      (s.atNs t).halfFree d w = true → (((s.atNs t).setWaits w.ring w.seq d false).becomeReady d w t).behind d w t = false →
      (((s.atNs t).setWaits w.ring w.seq d false).becomeReady d w t).fitUnit (d, w.ring.val, w.seq, x.started) d (s.get (RINGS_CFG_FLOOR_GROUP w.ring)) t
        (r.steps.getD w.prog.desc (0, 0, 0)).1 (opMHz (s.distOp d)) = .start e →
      (Safety.readyStep s d w x t).stepHead w.ring w.seq d w.clerks r.key w.prog = .ok q →
      ∃ u, exec (.unitStart ⟨d.val, by omega⟩ (.step w) t) s = .next u ∧
        u.dunit d = some { ring := w.ring.val, seq := w.seq, desc := w.prog.desc, clerks := w.clerks, prog := w.prog } ∧
        u.on (FLOOR_DIST_STATE_UNIT d) = true ∧ u.rdN (FLOOR_STEP_COUNT d) = min (q.rdN (FLOOR_STEP_COUNT d) + 1) (2 ^ 64 - 1) ∧ u.mem = q.mem ∧
        (w.prog.segs = [] → w.prog.moves = [] → q.mem = s.mem ∧ q.rd (FLOOR_STEP_COUNT d) = s.rd (FLOOR_STEP_COUNT d)) ∧
        (∀ l, l < 256 → nbit w.clerks l = true → (q.clerk (clerkOf d l)).ahead = false → (u.clerk (clerkOf d l)).stage = .running ∧
          (u.clerk (clerkOf d l)).run = some (w.ring.val, w.seq) ∧
          (u.clerk (clerkOf d l)).pc = w.prog.entry.getD (q.clerk (clerkOf d l)).pc)) ∧
    (∀ (w : StepWork), s.readyOf d w.ring w.seq = none → progAddrs w.prog ≠ [] →
      ∃ no, (SMap.get (fun _ => []) (s.becomeReady d w t).floor.streams d).getLast? = some ⟨no, w.ring.val, w.seq, progAddrs w.prog⟩ ∧
        ∀ l, l < 256 → nbit w.clerks l = true → ∃ b, ((s.becomeReady d w t).clerk (clerkOf d l)).seqs = (s.clerk (clerkOf d l)).seqs ++ [⟨no, 0, b⟩]) ∧
    (∀ (f : StepFinish) (u : DUnit), s.dunit d = some u → s.unitAtEnd d u = true → u.next = none →
      ∃ v, exec (.stepEnd d f t) s = .next v ∧ v.dunit d = none ∧ v.on (FLOOR_DIST_STATE_UNIT d) = false ∧
        (∀ l, l < 256 → nbit u.clerks l = true → (s.clerk (clerkOf d l)).ahead = false → (v.clerk (clerkOf d l)).stage = .idle)) ∧
    (∀ (u : DUnit) (r : RunSt) (x : DRun) (fl : Flight), s.dunit d = some u → s.unitAtEnd d u = true → s.runSt u.ring u.seq = some r → r.dists = [x] →
      x.d = d.val → r.fail = none → r.express = false → r.limit = 0 → x.limited = false → r.events = none → u.seq < 2 ^ 32 → u.prog.walks = [] →
      u.next = none → s.memWaits u.ring u.seq = false → s.relayOpen u.ring u.seq = false → s.flight u.ring u.seq = some fl → fl.stage = .started →
      ∃ v, exec (.stepEnd d ⟨[], true⟩ t) s = .next v ∧
        v.flight u.ring u.seq = some { fl with stage := .ended, status := 0, result := min (x.steps + 1) 0xFFFFFFFF }) ∧
    (∀ (r : RunUnit) (k : Nat), s.unitOn d = some r → r.ring = some k → d.val ≠ s.expressDistrict →
      (r.overrun = false → r.quantumEnd ≤ s.at t →
        ∃ u, exec (.overrun ⟨d.val, by omega⟩ t) s = .next u ∧ u.rdN (ROUND_OVR_COUNT d) = min (s.rdN (ROUND_OVR_COUNT d) + 1) 0xFFFFFFFF ∧
          u.on ERROR_STATUS_NOTE = true) ∧
      (r.quantumEnd + 1000000 ≤ s.at t →
        ∃ u, exec (.unitHang ⟨d.val, by omega⟩ t) s = .next u ∧ u.unitOn d = none ∧ u.dunit d = none ∧ u.on ERROR_STATUS_CONTAINED = true))

/-- A RUN that passes its checks allocates and begins, one that fails a check changes nothing on the floor, and a release frees what it names. A started
RUN whose image, argument block, placement, room and body pass the checks of Table 8.5, and that fires no break, begins on the districts of its mask
in ascending order, each of which then holds an allocation of its key. One that Districts Table 6.5 refuses completes with BAD_PLACEMENT and leaves
the runs, allocations, units and clerks as they were; one that finds the floor firmware stopped waits with what its earlier checks gave. A release of a key that no RUN and no hold keeps busy leaves no allocation of it on the districts named and completes; while some
district is busy it completes with PARCEL_BUSY and frees nothing. Rests on the choices and readings of the model in log entries 46, 47, 49. (R215;
R216; R217; R260; R261; R264) -/
def Obligations.RunsBeginAndReleasesFree : Prop :=
  ∀ (r : Ring) (f : Flight) (b : BodyLoad) (m : Image) (s : State), s.flight r f.seq = some f → f.stage = .started → Env.kind f.env = 1 →
    s.readImage (s.ringFn r) (Env.parcel f.env) = .ok m →
    let mask := Env.districts f.env
    let p := s.imageTraffic r f.seq f.env m.hdr
    (Env.entry f.env ≠ 0xFFFF → s.runSt r f.seq = none → s.floor.waiting.find? (fun w => w.ring == r.val && w.seq == f.seq) = none →
      ∀ g, s.argCheck (s.ringFn r) m f.env (s.get (RINGS_CFG_CLASS r) == 0) = .ok g →
      (∀ body, p.placeCheck r m.hdr mask = none → (∀ d ∈ districtsOf mask, s.fwRunning (3 + d) = true ∧ s.preparing d = false) → s.fwRunning 0 = true →
        p.roomCheck r mask m (Env.entry f.env) b = none → p.runWaits m mask = false → p.bodyCheck (s.ringFn r) (Env.parcel f.env) mask m b = .ok body →
        (brkTest (s.ring r).brk (Env.postmark f.env)).1 = false →
        ∃ t, exec (.run r f.seq b) s = .next t ∧
          (∃ x, t.runSt r f.seq = some x ∧ x.key = hdrKey m.hdr ∧ x.dists.map DRun.d = districtsOf mask ∧ x.fail = none) ∧
          (∀ d ∈ districtsOf mask, ∃ a, t.allocOf d (hdrKey m.hdr) = some a)) ∧
      (p.placeCheck r m.hdr mask = some (6, 0) →
        ∃ t, exec (.run r f.seq b) s = .next t ∧ t.floor.runs = s.floor.runs ∧ t.floor.allocs = s.floor.allocs ∧ t.floor.units = s.floor.units ∧
          t.floor.clerks = s.floor.clerks ∧ t.get (RINGS_STATUS_LAST_FAIL r) = 6) ∧
      (p.placeCheck r m.hdr mask = none → s.fwRunning 0 = false →
        ∃ t, exec (.run r f.seq b) s = .next t ∧ t.floor.waiting = s.floor.waiting ++ [⟨r, f.seq, m, g⟩] ∧ t.floor.runs = s.floor.runs ∧
          t.floor.allocs = s.floor.allocs ∧ t.rings = s.rings ∧ t.mem = s.mem)) ∧
    (Env.entry f.env = 0xFFFF → p.placeCheck r m.hdr mask = none → s.fwRunning 0 = true →
      (s.busyMask (hdrKey m.hdr) mask = 0 →
        ∃ t, exec (.runRelease r f.seq) s = .next t ∧ (∀ d ∈ districtsOf mask, t.allocOf d (hdrKey m.hdr) = none) ∧
          t.rdN (RINGS_DONE_COUNT r) = min (s.rdN (RINGS_DONE_COUNT r) + 1) (2 ^ 64 - 1)) ∧
      (s.busyMask (hdrKey m.hdr) mask ≠ 0 →
        ∃ t, exec (.runRelease r f.seq) s = .next t ∧ t.floor.runs = s.floor.runs ∧ t.floor.allocs = s.floor.allocs ∧
          t.floor.clerks = s.floor.clerks ∧ t.get (RINGS_STATUS_LAST_FAIL r) = 0x810D))

/-- A COPY and an inbound tile write exactly their bytes. A one-row COPY in DRAM, with its addresses usable, no poison, no receipts in force, and no
limit on its class, leaves SRC's bytes at DST, every other byte as it was, and its envelope ended with OK; one whose bursts wait changes nothing, and one
that a unit of a district makes wait is only held. An inbound
tile inside its parcel's allocation on a district that can be reached writes its bytes and no other, and counts on the arrival counter; one for the
express district writes nothing. A relay transfer of a COPY that is not acknowledged in time ends it with LINK_DOWN, and a wait for an arrival that
has lasted ARRIVE_LIMIT rounds ends. Rests on the choices and readings of the model in log entries 32, 137. (R207; R208; R224; R225; R89) -/
def Obligations.CopiesAndInboundTilesMoveTheirBytes : Prop :=
  ∀ (r : Ring) (s : State),
    (∀ f, s.flight r f.seq = some f → f.stage = .started → Env.kind f.env = 2 →
      let a := Env.src f.env
      let z := Env.dst f.env
      let n := Env.len f.env
      (Env.mode f.env = 0 → Env.rows f.env = 1 → a + n ≤ 0x2000000000 → z + n ≤ 0x2000000000 → s.addrCheck (s.ringFn r) a n = none →
        s.addrCheck (s.ringFn r) z n = none → z ≤ a ∨ a + n ≤ z → s.poison = [] → s.cfgOn RINGS_RECEIPT_BASE_EN = false →
        s.relayOpen r f.seq = false → s.memWaits r f.seq = false → f.prog = 0 → s.copyClass r f.seq ≠ 0 → s.ttRun = false →
        s.on (MEMCTL_CLASS_RATE_RATE (s.copyClass r f.seq)) = false →
        ∃ t, exec (.copy r f.seq) s = .next t ∧ t.rdMem z n = s.rdMem a n ∧ (∀ o, o < z ∨ z + n ≤ o → t.byte o = s.byte o) ∧ t.hostMem = s.hostMem ∧
          t.flight r f.seq = some { f with stage := .ended, status := 0, result := 0, prog := (n + 63) / 64 } ∧
          (∀ o, (∀ k : Fin 4, o ≠ MEMCTL_CLASS_BYTES k) → t.rd o = s.rd o)) ∧
      (s.memWaits r f.seq = true → f.prog < (copyItems f.env).length → Env.mode f.env ≠ 2 → s.copyWaits f.env = false →
        exec (.copy r f.seq) s = .next s) ∧
      (Env.mode f.env ≠ 2 → s.copyWaits f.env = true → exec (.copy r f.seq) s = .next (s.setFlight r f.seq fun x => { x with held := true })) ∧
      (Env.mode f.env = 2 → skewOk f.env = false → ∃ t, exec (.copy r f.seq) s = .next t ∧ t.get (RINGS_STATUS_LAST_FAIL r) = 1) ∧
      (s.relayLate r f.seq false = true → s.runSt r f.seq = none →
        ∃ t, exec (.relayWriteTimeout r f.seq) s = .next t ∧ t.flight r f.seq = some { f with stage := .ended, status := 0x0D, result := 0 } ∧
          t.relayOpen r f.seq = false ∧ t.mem = s.mem)) ∧
    (∀ (seq : Nat) (x : RunSt) (from_ : Fin 16) (addr : Nat) (i : Fin 16) (b : Bytes) (d : Nat), s.runSt r seq = some x → x.fail = none →
      x.dists.any (fun y => y.d == from_.val) = true → 0x8020000000 ≤ addr → addr + b.length ≤ cacheAddr d + 0x400000 → sramOf addr = some d →
      (∀ a, d ≠ s.expressDistrict → s.domUp d = true → s.allocOf d x.key = some a → a.has d addr b.length = true → s.poison = [] → s.floor.flips = [] →
        s.cfgOn RINGS_RECEIPT_BASE_EN = false →
        ∃ t, exec (.inboundWrite r seq from_ addr i b) s = .next t ∧ t.rdMem addr b.length = b ∧
          (∀ o, o < addr ∨ addr + b.length ≤ o → t.byte o = s.byte o) ∧
          t.rdN (FLOOR_ARRIVE_CNT d i) = min (s.rdN (FLOOR_ARRIVE_CNT d i) + 1) 0xFFFFFFFF ∧
          t.rdN (FLOOR_INBOUND_BYTES d) = min (s.rdN (FLOOR_INBOUND_BYTES d) + b.length) (2 ^ 64 - 1)) ∧
      (d = s.expressDistrict → ∃ t, exec (.inboundWrite r seq from_ addr i b) s = .next t ∧ t.mem = s.mem ∧
        t.rd (FLOOR_ARRIVE_CNT d i) = s.rd (FLOOR_ARRIVE_CNT d i))) ∧
    (∀ (seq : Nat) (d : Fin 16) (x : RunSt) (y : DRun), s.runSt r seq = some x → x.dists.find? (fun y => y.d == d.val) = some y → x.fail = none →
      y.stopped = false → s.arrivalLate y = true →
      ∃ t, exec (.arrivalTimeout d r seq) s = .next t ∧ t.mem = s.mem ∧
        ((∀ z ∈ s.floor.runs, z.ring ≠ r.val ∨ z.seq ≠ seq → ∀ k ∈ z.dists, k.d = d.val → k.waits = false) →
          t.on (FLOOR_DIST_STATE_WAIT_ARRIVE d) = false) ∧
        (∀ z, t.runSt r seq = some z → z.fail = some (0x8104, 0)))

/-- The scale walk moves k by UP at an event and by one after W clean steps, unless K was written. At a walk boundary of a walked record with HOLD 0 and
no written K that is due, an event, of the district's clerks or in a tile from another, makes k the lesser of k + UP and 31 and CLEAN 0, and sets EVENT;
the W-th clean step lowers k by 1, to at least -32; without an event, in a record not written, k and CLEAN stay and EVENT is 0. With HOLD 1 k and CLEAN
stay and EVENT takes the event. A fixed record keeps k. A written K that landed before the present round takes the place of the update. A write of K
changes no register at once, and one to a record that is not allocated does nothing. Rests on the choices and readings of the model in log entry 52.
(R242; R243; R246; R247; R248) -/
def Obligations.ScaleWalkMovesByItsRule : Prop :=
  ∀ (d : Fin 16) (t : Fin 64) (s : State), s.on (FLOOR_WALK_VALID d t) = true →
    (∀ (u : DUnit) (r : RunSt) (x : Alloc) (tiles : List Nat) (ns : Nat) (y : State × List Nat), s.dunit d = some u → s.unitAtEnd d u = true →
      s.runSt u.ring u.seq = some r → s.allocOf d r.key = some x → u.next = none → u.prog.walks = [⟨t, tiles⟩] →
      (Safety.stepDone s d u ns).eventTiles d x tiles = .ok y →
      let event := s.anyClerk d t Clerk.events || y.2.any fun b => nbit b 0
      let written := event || s.anyClerk d t Clerk.written || y.2.any fun b => nbit b 1
      (s.cfgOn FLOOR_WALK_CTRL_HOLD = true →
        ∃ v, exec (.stepEnd d ⟨[], false⟩ ns) s = .next v ∧ v.on (FLOOR_WALK_EVENT d t) = event ∧ v.get (FLOOR_WALK_K d t) = s.get (FLOOR_WALK_K d t) ∧
          v.get (FLOOR_WALK_CLEAN d t) = s.get (FLOOR_WALK_CLEAN d t)) ∧
      (s.cfgOn FLOOR_WALK_CTRL_HOLD = false → SMap.get (fun _ => []) s.floor.walkK (64 * d.val + t.val) = [] →
        (s.on (FLOOR_WALK_FIXED d t) = false → event = true →
          ∃ v, exec (.stepEnd d ⟨[], false⟩ ns) s = .next v ∧ v.on (FLOOR_WALK_EVENT d t) = true ∧ v.get (FLOOR_WALK_CLEAN d t) = 0 ∧
            toSigned 6 (v.get (FLOOR_WALK_K d t)) = min (toSigned 6 (s.get (FLOOR_WALK_K d t)) + (s.get (FLOOR_WALK_UP_M1 d t) + 1)) 31) ∧
        (s.on (FLOOR_WALK_FIXED d t) = true →
          ∃ v, exec (.stepEnd d ⟨[], false⟩ ns) s = .next v ∧ v.on (FLOOR_WALK_EVENT d t) = event ∧
            v.get (FLOOR_WALK_K d t) = s.get (FLOOR_WALK_K d t)) ∧
        (s.on (FLOOR_WALK_FIXED d t) = false → event = false → written = true → s.get (FLOOR_WALK_CLEAN d t) + 1 = s.get (FLOOR_WALK_W d t) →
          ∃ v, exec (.stepEnd d ⟨[], false⟩ ns) s = .next v ∧ v.on (FLOOR_WALK_EVENT d t) = false ∧ v.get (FLOOR_WALK_CLEAN d t) = 0 ∧
            toSigned 6 (v.get (FLOOR_WALK_K d t)) = max (toSigned 6 (s.get (FLOOR_WALK_K d t)) - 1) (-32)) ∧
        (written = false →
          ∃ v, exec (.stepEnd d ⟨[], false⟩ ns) s = .next v ∧ v.on (FLOOR_WALK_EVENT d t) = false ∧
            v.get (FLOOR_WALK_K d t) = s.get (FLOOR_WALK_K d t) ∧ v.get (FLOOR_WALK_CLEAN d t) = s.get (FLOOR_WALK_CLEAN d t))) ∧
      (s.cfgOn FLOOR_WALK_CTRL_HOLD = false → ∀ k n, SMap.get (fun _ => []) s.floor.walkK (64 * d.val + t.val) = [(k, n)] → n < s.round → k < 64 →
        ∃ v, exec (.stepEnd d ⟨[], false⟩ ns) s = .next v ∧ v.on (FLOOR_WALK_EVENT d t) = event ∧ v.get (FLOOR_WALK_K d t) = k ∧
          v.get (FLOOR_WALK_CLEAN d t) = 0)) ∧
    (∀ (q : Req) (k : Nat), Safety.Lands q (FLOOR_WALK d t) s → s.domUp d = true →
      ∃ v, exec (.walkKWrite q d t k) s = .next v ∧ v.regs = s.regs ∧ v.mem = s.mem ∧
        SMap.get (fun _ => []) v.floor.walkK (64 * d.val + t.val) =
          SMap.get (fun _ => []) s.floor.walkK (64 * d.val + t.val) ++ [(k % 64, s.round)]) ∧
    (∀ (q : Req) (k : Nat) (e : Fin 64), s.holdOf q = none → s.on (FLOOR_WALK_VALID d e) = false → exec (.walkKWrite q d e k) s = .next s)

/-- POSTMARK arms and removes a ring's break, and holds end by release or by limit. On a RUNNING ring a started POSTMARK completes at once: mark arms
nothing, the two arming actions put their break in place of the one armed, and disarm removes it; on an express ring arming fails with DEBUG_DENIED. A
write of DEBUG_RELEASE records its districts for the next boundary and changes no register. A hold that has lasted DEBUG_HOLD_LIMIT rounds ends, its
clerks' state is gone but for their instruction buffers and event bits, its allocations and memory stay, and it is reported. A write of DBG_SEL takes its fields and leaves the readout as it was until
the next boundary. Rests on the choices and readings of the model in log entry 53. (R275; R276; R278; R282; R283) -/
def Obligations.PostmarksArmBreaksAndHoldsEnd : Prop :=
  ∀ (s : State),
    (∀ (r : Ring) (f : Flight), s.flight r f.seq = some f → f.stage = .started → Env.kind f.env = 8 → s.ringState r = 1 →
      (fieldLE f.env 0x18 4 = 0 → ∃ t, exec (.postmarkMark r f.seq) s = .next t ∧ (t.ring r).brk = (s.ring r).brk ∧
        t.rdN (RINGS_DONE_COUNT r) = min (s.rdN (RINGS_DONE_COUNT r) + 1) (2 ^ 64 - 1)) ∧
      (s.get (RINGS_CFG_CLASS r) ≠ 0 →
        (fieldLE f.env 0x18 4 = 1 → ∃ t, exec (.armBreakOnTag r f.seq) s = .next t ∧ (t.ring r).brk = some (.tag (fieldLE f.env 0x1C 2)) ∧
          t.rdN (RINGS_DONE_COUNT r) = min (s.rdN (RINGS_DONE_COUNT r) + 1) (2 ^ 64 - 1)) ∧
        (fieldLE f.env 0x18 4 = 2 → ∃ t, exec (.armBreakOnCount r f.seq) s = .next t ∧
          (t.ring r).brk = some (.count (fieldLE f.env 0x1C 2) (fieldLE f.env 0x20 8) 0))) ∧
      (s.get (RINGS_CFG_CLASS r) = 0 → fieldLE f.env 0x18 4 = 1 →
        ∃ t, exec (.armBreakOnTag r f.seq) s = .next t ∧ t.get (RINGS_STATUS_LAST_FAIL r) = 0x8801) ∧
      (fieldLE f.env 0x18 4 = 3 → ∃ t, exec (.disarm r f.seq) s = .next t ∧ (t.ring r).brk = none ∧
        t.rdN (RINGS_DONE_COUNT r) = min (s.rdN (RINGS_DONE_COUNT r) + 1) (2 ^ 64 - 1))) ∧
    (∀ (q : Req) (v : Nat), q.reachesRegs = true → s.spineUp = true → s.path q = true → s.holdOf q = none →
      (∃ t, exec (.debugRelease q v) s = .next t ∧ t.regs = s.regs ∧ t.mem = s.mem ∧
        (∀ i, i < 16 → nbit t.floor.release i = (nbit s.floor.release i || nbit v i))) ∧
      (∃ t, exec (.dbgSelWrite q v) s = .next t ∧ t.get FLOOR_DBG_SEL_DISTRICT = nbits v 27 24 ∧ t.get FLOOR_DBG_SEL_CLERK = nbits v 23 16 ∧
        t.get FLOOR_DBG_SEL_RESOURCE = nbits v 10 8 ∧ t.get FLOOR_DBG_SEL_INDEX = nbits v 7 0 ∧ t.floor.dbg = s.floor.dbg ∧
        t.on FLOOR_DBG_SEL_VALID = s.on FLOOR_DBG_SEL_VALID ∧ (∀ o, o ≠ FLOOR_DBG_SEL → t.rd o = s.rd o) ∧ t.mem = s.mem)) ∧
    (∀ (d : Fin 16) (c : Nat), SMap.get (fun _ => none) s.floor.holds d.val = some c → s.isHeld d = true → 0 < s.cfg ⟨FLOOR_DEBUG_HOLD_LIMIT, 31, 0⟩ →
      c + s.cfg ⟨FLOOR_DEBUG_HOLD_LIMIT, 31, 0⟩ ≤ s.round →
      ∃ t, exec (.debugHoldExpired d) s = .next t ∧ t.isHeld d = false ∧ t.allocs d = s.allocs d ∧ t.mem = s.mem ∧ t.on ERROR_STATUS_NOTE = true ∧
        (∀ k, clerkDistrict k = d.val → t.clerk k = (s.clerk k).rest))

/-- A session opens, queues requests, runs passes and closes. On a RUNNING ring a started SESSION does what its OP says when its checks pass, and
completes: OPEN adds the session, ADMIT puts the request at the end of the queue, CANCEL marks the requests of that block and fails for one that ends with
the pass in progress, CLOSE stops admission, STATUS changes no session. A pass of an idle session that has running requests, none cancelled and none with
draft tokens, begins with positions granted, with the candidates of generating requests, and a RUN of its own; a closing session ends. A pass that failed
ends its requests and is reported as CONTAINED; one that ended with OK is counted, and a generating request takes the accepted candidates and one token
more, its draws fixed by its own inputs. Rests on the choices and readings of the model in log entries 54, 55, 163. (R285; R286; R291; R292; R296; R297;
R301; R303) -/
def Obligations.SessionsOpenAdmitAndRunPasses : Prop :=
  ∀ (s : State), s.spineUp = true →
    (∀ (r : Ring) (f : Flight), s.flight r f.seq = some f → f.stage = .started → Env.kind f.env = 10 → s.ringState r = 1 →
      let id := fieldLE f.env 0x18 4
      let a := fieldLE f.env 0x20 8
      let fn := s.ringFn r
      let done := fun t : State => t.rdN (RINGS_DONE_COUNT r) = min (s.rdN (RINGS_DONE_COUNT r) + 1) (2 ^ 64 - 1)
      (fieldLE f.env 0x1C 1 = 0 → s.session id = none → s.serve.sessions.length < 16 →
        ∀ d m g, s.addrRead fn a 64 = .ok d → firstBad (descTests d) = none → let p := s.ringTraffic r f.seq a 64
          let x : Session := { id := id, fn := fn, ring := r, desc := d, key := ⟨0, 0, 0⟩ }
          p.get (RINGS_CFG_CLASS r) ≠ 0 → p.readImage fn (fieldLE d 0 8) = .ok m → hdrExpress m.hdr = false → hdrF m.hdr 5 1 = 3 →
          p.templateCheck fn x m = .ok g →
          ∃ t, exec (.sessionOpen r f.seq) s = .next t ∧ t.session id = some { x with key := hdrKey m.hdr } ∧ done t) ∧
      (∀ x, s.session id = some x →
        (fieldLE f.env 0x1C 1 = 1 → x.closing = false → ∀ b, s.addrRead fn a 64 = .ok b → firstBad (requestTests b x) = none →
          let q : Request := { block := a, fn := fn, head := b }
          s.tenantOf q.tenant fn = true → nbit x.tenants q.tenant = true → nbit q.receipt 31 = false → q.need ≤ x.pages → x.queue.length < 1024 →
          ((s.ringTraffic r f.seq a 128).marshalWrite fn (a + 0x40) (List.replicate 64 0)).2 = none →
          ∃ t, exec (.sessionAdmit r f.seq) s = .next t ∧ t.session id = some { x with queue := x.queue ++ [q] } ∧ done t) ∧
        (fieldLE f.env 0x1C 1 = 2 → ∀ q, x.named fn a = some q → s.tenantOf q.tenant fn = true →
          (s.endsInPass x q = false → ∃ t, exec (.sessionCancel r f.seq) s = .next t ∧ done t ∧ ∃ y, t.session id = some y ∧
            y.queue = x.queue.map (fun p => if p.block = q.block ∧ p.fn = q.fn then { p with cancel := true } else p) ∧
            y.running = x.running.map (fun p => if p.block = q.block ∧ p.fn = q.fn then { p with cancel := true } else p)) ∧
          (s.endsInPass x q = true → ∃ t, exec (.sessionCancel r f.seq) s = .next t ∧ t.get (RINGS_STATUS_LAST_FAIL r) = 0x8A08)) ∧
        (fieldLE f.env 0x1C 1 = 3 → x.fn = fn → ∃ t, exec (.sessionClose r f.seq) s = .next t ∧ t.session id = some { x with closing := true } ∧ done t) ∧
        (fieldLE f.env 0x1C 1 = 4 → x.fn = fn → ((s.ringTraffic r f.seq a 64).marshalWrite fn a (statusBlock x)).2 = none →
          ∃ t, exec (.sessionStatus r f.seq) s = .next t ∧ t.serve = s.serve ∧ done t) ∧
        (fieldLE f.env 0x1C 1 = 4 → x.fn ≠ fn → ∃ t, exec (.sessionStatus r f.seq) s = .next t ∧ t.get (RINGS_STATUS_LAST_FAIL r) = 0x8A01))) ∧
    (∀ (id : Nat) (x : Session) (b : BodyLoad), s.session id = some x → s.fwRunning 1 = true →
      (x.pass = none → x.lost = none → x.drafting = false → s.serve.binds = [] →
        (x.closing = true → ∃ t, exec (.passStart id b) s = .next t ∧ t.session id = none) ∧
        (x.closing = false → x.queue = [] → x.running ≠ [] → (∀ q ∈ x.running, q.cancel = false ∧ q.drafts = 0) →
          ∀ m g body, s.passCheck x x.entry b = .go m g body →
          ∃ t l, exec (.passStart id b) s = .next t ∧ t.session id = some { x with running := l, pass := some s.round } ∧
            l.map (fun q => { q with feed := [] }) = x.granted.map (fun q => { q with feed := [] }) ∧ (t.runSt x.ring x.seq).isSome = true ∧
            ((∀ q ∈ x.running, q.gen = true) → l = x.granted.map fun q => { q with feed := (q.candidates x.model (s.postscriptOf q)).take q.grant }))) ∧
      (∀ n e t energy, x.pass = some n → x.lost = none → s.floor.passEnds.find? (fun e => e.1 == x.seq) = some e →
        (e.2 ≠ 0 → ∃ u y, exec (.passComplete id t energy) s = .next u ∧ u.session id = some y ∧ y.running = [] ∧ y.pass = none ∧
          y.queue = x.queue ∧ u.on ERROR_STATUS_CONTAINED = true) ∧
        (e.2 = 0 → ∃ u y, exec (.passComplete id t energy) s = .next u ∧ u.session id = some y ∧ y.pass = none ∧ y.passes = x.passes + 1 ∧
          y.queue = x.queue ∧
          (∀ q q', x.running = [q] → q.gen = true → nbit q.stop 31 = false → y.running = [q'] →
            let ys := (List.range (q.feed.length + 1)).map fun i => q.token x.model (s.postscriptOf q) (q.tokens ++ q.feed.take i)
            let k := acceptCount q.feed ys
            q'.len = q.len + 1 + k ∧ q'.accepted = q.accepted + k ∧ q'.proposed = q.proposed + q.feed.length ∧
              q'.tokens = q.tokens ++ q.feed.take k ++ [ys.getD k 0] ∧ q'.emitted = q.emitted + min (k + 1) (q.maxNew - q.emitted)))))

/-- A postscript is loaded into a free slot, bound at a boundary, and its old slot retires when no request holds it. A PS_LOAD that passes its checks
takes the lowest FREE slot, which is LOADING until its bursts have issued; then an image that passes its tests makes it LOADED with the next generation of
its handle, and ends with OK; with no slot FREE it fails with NO_SLOT. A PS_BIND is held
until the next boundary and changes no register before it; then the named slot is BOUND and the one bound before is DRAINING. A DRAINING slot whose
receipt has reached TARGET is zeroed and FREE, with no byte outside it changed when the loading ring is DISABLED; one whose receipt has not is as it
was. Rests on the choices and readings of the model in log entry 55. (R307; R308; R309; R310) -/
def Obligations.PostscriptsLoadBindAndRetire : Prop :=
  ∀ (s : State),
    (∀ (r : Ring) (f : Flight), s.flight r f.seq = some f → f.stage = .started →
      (Env.kind f.env = 6 → let t := fieldLE f.env 0x24 1
        let h := fieldLE f.env 0x26 2
        let n := fieldLE f.env 0x20 4
        (f.prog = 0 → s.tenantOf t (s.ringFn r) = true → h ≤ 255 → n ≤ s.slotMib * 0x100000 → s.cfg (FIRMWARE_TENANT_FN_MAX_SLOTS t) = 0 →
          (s.psHandle t h).next < 2 ^ 24 →
          (∀ slot b, s.cfgOn FIRMWARE_PS_POOL_BASE_EN = true → (List.range (s.cfg FIRMWARE_PS_POOL_CFG_SLOTS_M1 + 1)).find? (fun j => s.slotState j == 0) = some slot →
            s.addrRead (s.ringFn r) (fieldLE f.env 0x18 8) n = .ok b → slot < 256 →
            ∃ u, exec (.psLoad r f.seq) s = .next u ∧ (u.slotState slot = 1 ∨ u.slotState slot = 2 ∨ (u.slotState slot = 0 ∧ u.get (RINGS_STATUS_LAST_FAIL r) = 0x8603)) ∧
              (u.slotState slot = 1 → u.get (FIRMWARE_PS_SLOT_STATE_TENANT slot) = t ∧ u.get (FIRMWARE_PS_SLOT_STATE_HANDLE slot) = h ∧
                u.flight r f.seq = some { f with prog := slot + 1 })) ∧
          ((List.range (s.cfg FIRMWARE_PS_POOL_CFG_SLOTS_M1 + 1)).find? (fun j => s.slotState j == 0) = none →
            ∃ u, exec (.psLoad r f.seq) s = .next u ∧ u.get (RINGS_STATUS_LAST_FAIL r) = 0x8601)) ∧
        (∀ slot, f.prog = slot + 1 → slot < 256 → s.memWaits r f.seq = false → (s.psHandle t h).next < 2 ^ 24 →
          (firstBad (psTests (s.rdMem (s.slotAddr slot) n) n) = none →
            ∃ u, exec (.psLoad r f.seq) s = .next u ∧ u.slotState slot = 2 ∧ u.rdN (FIRMWARE_PS_SLOT_GEN slot) = (s.psHandle t h).next ∧
              u.rdN (FIRMWARE_PS_SLOT_TARGET slot) = u.receipt (slotReceipt slot) ∧ (u.psHandle t h).next = (s.psHandle t h).next + 1 ∧
              u.flight r f.seq = some { f with stage := .ended, status := 0, result := slot * 2 ^ 24 + (s.psHandle t h).next }) ∧
          (∀ o, firstBad (psTests (s.rdMem (s.slotAddr slot) n) n) = some o →
            ∃ u, exec (.psLoad r f.seq) s = .next u ∧ u.slotState slot = 0 ∧ u.get (RINGS_STATUS_LAST_FAIL r) = 0x8603))) ∧
      (Env.kind f.env = 7 → let h := fieldLE f.env 0x18 2
        let t := fieldLE f.env 0x1A 1
        let n := fieldLE f.env 0x1C 2
        let g := fieldLE f.env 0x20 4
        (s.serve.binds.any fun b => b.ring == r && b.seq == f.seq) = false → s.tenantOf t (s.ringFn r) = true → h ≤ 255 → n ≤ 255 → s.slotHolds n t h g = true →
        ∃ u, exec (.psBind r f.seq) s = .next u ∧ u.serve.binds = s.serve.binds ++ [⟨r, f.seq, s.round, 256 * t + h, some (n, g)⟩] ∧ u.regs = s.regs ∧
          u.mem = s.mem ∧ u.rings = s.rings)) ∧
    (∀ (b : PsBind) (n g o go : Nat), s.serve.binds = [b] → b.round < s.round → b.ring < 4096 → b.slot = some (n, g) → n < 256 → o < 256 → o ≠ n →
      s.slotHolds n (b.key / 256) (b.key % 256) g = true → (s.psHandle (b.key / 256) (b.key % 256)).bound = some (o, go) →
      ∃ u, exec .psBindApply s = .next u ∧ u.slotState n = 3 ∧ u.slotState o = 4 ∧ (u.psHandle (b.key / 256) (b.key % 256)).bound = some (n, g) ∧
        u.serve.binds = [] ∧ u.rd (FIRMWARE_PS_SLOT_TARGET n) = s.rd (FIRMWARE_PS_SLOT_TARGET n)) ∧
    (∀ n : Fin 256, (s.slotDrained n = true → s.ringState (SMap.get (fun _ => (0, 0, 0)) s.serve.slots n.val).2.2 = 0 →
        ∃ u, exec (.slotRetire n) s = .next u ∧ u.slotState n = 0 ∧
          (∀ a, s.slotAddr n ≤ a → a < s.slotAddr n + s.slotMib * 0x100000 → s.inReceipts a = false → u.byte a = 0) ∧
          (∀ a, a < s.slotAddr n ∨ s.slotAddr n + s.slotMib * 0x100000 ≤ a → u.byte a = s.byte a)) ∧
      (s.slotDrained n = false → exec (.slotRetire n) s = .next s))

/-- A channel begins, receives, drops, loses and finishes frames, and channels and streams are enabled by their tests. A good frame start at an enabled
port begins frame k of the one channel that takes it, or, where no buffer is free, drops it with cause BUSY, a counted drop and a NOTE; a header of
one bad bit is counted. A line of a bypass frame within STRIDE is written at its place, or, where the write fails, disables the channel and is
CONTAINED; one beyond it cuts the frame with TOO_LARGE; a raw line that finds the input memory full cuts it with INPUT_OVERFLOW. A frame that may
finish writes its bytes unless it was dropped, and its record, and CHAN_FRAMES becomes k + 1. Two rounds without a packet lose the source; fewer do
nothing. CHAN_CFG and STREAM_CFG take a value that enables when its tests pass, on which the channel acts from the next boundary, and stay as they were, with
a NOTE, when one fails. Rests on the choices and readings of
the model in log entries 56, 58, 138, 139. (R321; R322; R323; R324; R325; R329; R330; R332) -/
def Obligations.CamerasCaptureFrames : Prop :=
  ∀ (s : State),
    (∀ (p : Csi2) (c : Fin 24), s.cfgOn (CAMERA_PORT_CFG_ENABLE p.port) = true → s.domUp 20 = true →
      (p.ecc = .good → ∀ n, p.body = .frameStart n → (List.range 24).filter (fun j => s.chanTakes j p false) = [c.val] → s.chanSource c = 1 → (s.chan c).frames = [] →
        let k := (s.chan c).next
        (s.bufFree c k = true → ∃ t, exec (.csi2Packet p) s = .next t ∧ t.regs = s.regs ∧ t.mem = s.mem ∧ (t.chan c).next = k + 1 ∧
          (t.chan c).frames = [{ k := k, sof := s.round, ts := n }]) ∧
        (s.bufFree c k = false → ∃ t, exec (.csi2Packet p) s = .next t ∧ t.mem = s.mem ∧ (t.chan c).next = k + 1 ∧
          (t.chan c).frames = [{ k := k, sof := s.round, ts := n, dropped := true, cause := 8 }] ∧ t.on ERROR_STATUS_NOTE = true ∧
          t.rdN (CAMERA_CHAN_DROPS c) = min (s.rdN (CAMERA_CHAN_DROPS c) + 1) 0xFFFFFFFF)) ∧
      (p.ecc = .good → ∀ b f, p.body = .line b true → (List.range 24).filter (fun j => s.chanTakes j p true) = [c.val] → (s.chan c).frames = [f] → f.past = false →
        f.dropped = false → f.cut = none →
        (s.chanSource c = 1 → f.off + b.length ≤ s.chanStride c →
          let w := s.camWrite c (s.bufAddr c f.k + f.off) b
          (w.2 = none → ∃ t, exec (.csi2Packet p) s = .next t ∧ t.mem = w.1.mem ∧
            (t.chan c).frames = [{ f with lines := f.lines + 1, off := f.off + round64 b.length }]) ∧
          (w.2 ≠ none → ∃ t, exec (.csi2Packet p) s = .next t ∧ t.mem = s.mem ∧ t.chanOn c = false ∧ (t.chan c).frames = [] ∧
            t.on ERROR_STATUS_CONTAINED = true)) ∧
        (s.chanSource c = 1 → s.chanStride c < f.off + b.length →
          ∃ t, exec (.csi2Packet p) s = .next t ∧ t.mem = s.mem ∧ (t.chan c).frames = [{ f.damage 4 with cut := some f.lines }]) ∧
        (s.chanSource c = 0 → f.window.2.2.1 ≤ f.lines → f.lines < f.window.2.2.2 →
          s.cfg (ISP_STREAM_CFG_IN_LINES (s.cfg (CAMERA_CHAN_CFG_INDEX c))) ≤ f.inMemory →
          ∃ t, exec (.csi2Packet p) s = .next t ∧ t.mem = s.mem ∧ t.on ERROR_STATUS_NOTE = true ∧
            (t.chan c).frames = [{ f.damage 2 with cut := some f.lines, lines := f.lines + 1 }])) ∧
      (p.ecc = .corrected → p.body = .frameEnd → ∃ t, exec (.csi2Packet p) s = .next t ∧
        t.get (CAMERA_PORT_ERRORS_ECC_CORR p.port) = min (s.get (CAMERA_PORT_ERRORS_ECC_CORR p.port) + 1) 0xFFFF)) ∧
    (∀ (p : Csi2), s.cfgOn (CAMERA_PORT_CFG_ENABLE p.port) = false → exec (.csi2Packet p) s = .next s) ∧
    (∀ (c : Fin 24) (data : Bytes) (f : CamFrame) (l : List CamFrame), (s.chan c).frames = f :: l →
      (s.mayFinish c f = true → s.chanSource c ≠ 2 → f.k + 1 < 2 ^ 64 → s.cfgOn (CAMERA_CHAN_RECEIPTS_FRAME_EN c) = false →
        (∀ g, g < 8 → s.cfgOn (CAMERA_SET_CFG_ENABLE g) = false) →
        let z := if f.dropped then (s, none) else s.camWrite c (s.bufAddr c f.k + s.dataStart c f) (s.frameData c f data)
        let w := z.1.camWrite c (s.cfg (CAMERA_CHAN_REC_BASE_ADDR c) * 2048 + 32 * (f.k % 64)) (frameRecord f (s.chanCount c) s.round)
        z.2 = none → w.2 = none → ∃ t, exec (.frameFinish c data) s = .next t ∧ t.rdN (CAMERA_CHAN_FRAMES c) = f.k + 1 ∧ (t.chan c).frames = l ∧ t.mem = w.1.mem) ∧
      (s.mayFinish c f = false → exec (.frameFinish c data) s = .next s) ∧
      (l = [] → f.past = false → s.chanSource c ≤ 1 → (s.chan c).last + 2 ≤ s.round →
        ∃ t, exec (.camSourceLost c data) s = .next t ∧ (t.chan c).frames = [] ∧ t.on ERROR_STATUS_NOTE = true) ∧
      (l = [] → s.round < (s.chan c).last + 2 → exec (.camSourceLost c data) s = .next s)) ∧
    (∀ (q : Req) (c : Fin 24) (v : Nat), Safety.Lands q (CAMERA_CHAN_CFG c) s → s.chanSet c = false →
      (nbits v 14 13 ≠ 0 → nbit v 31 = true → nbits v 30 28 = 1 → s.sourceTaken c (State.chanWrite.andNat' v) = false →
        ∃ t, exec (.chanEnable q c v) s = .next t ∧ t.chanSet c = true ∧ t.rdN (CAMERA_CHAN_CFG c) = State.chanWrite.andNat' v ∧ t.chanOn c = s.chanOn c ∧
          t.vis = s.vis ∧ t.mem = s.mem) ∧
      (nbits v 14 13 = 0 → ∃ t, exec (.chanEnable q c v) s = .next t ∧ t.rd (CAMERA_CHAN_CFG c) = s.rd (CAMERA_CHAN_CFG c) ∧ t.vis = s.vis ∧
        t.on ERROR_STATUS_NOTE = true)) ∧
    (∀ (q : Req) (i : Fin 16) (v : Nat), Safety.Lands q (ISP_STREAM_CFG i) s → s.on (ISP_STREAM_CFG_ENABLE i) = false → nbit v 31 = true →
      let w := nbits v 31 26 * 2 ^ 26 + nbits v 21 16 * 2 ^ 16 + nbits v 11 8 * 256
      (s.inputTotal i w ≤ 0x200000 → ∃ t, exec (.ispStreamEnable q i v) s = .next t ∧ t.rdN (ISP_STREAM_CFG i) = w) ∧
      (0x200000 < s.inputTotal i w → ∃ t, exec (.ispStreamEnable q i v) s = .next t ∧ t.rd (ISP_STREAM_CFG i) = s.rd (ISP_STREAM_CFG i) ∧
        t.on ERROR_STATUS_NOTE = true))

/-- Decode, encode and JPEG take and finish their work. The session whose turn it is begins a frame of its channel for an access unit it can read; a
stream that is not supported turns it off and is CONTAINED; another session's turn does nothing. An encode session that has encoded its frame whole writes its
access unit and descriptor n and counts it; one longer than half the ring is dropped with a NOTE and makes the next an I picture. An encode enable
needs an NV12 source and a CLASS. A JPEG job starts once the submit receipt reaches it; its end writes STATUS, OUT_LEN and DONE_ROUND and makes the
next job due, and an output that the engine does not give is none. Rests on the choices and readings of the model in log entries 56, 57. (R339; R340; R341; R342; R344) -/
def Obligations.CodecsDecodeEncodeAndRunJobs : Prop :=
  ∀ (s : State),
    (∀ (i : Fin 32) (c : Fin 24), s.decChan i = some c.val → s.dom 18 = 0 → s.vis.dec = none →
      (s.decTurn = some i.val →
        (∃ t, exec (.decodeAccessUnit i .unsupported) s = .next t ∧ t.on (VCODEC_DEC_CFG_ENABLE i) = false ∧ t.on ERROR_STATUS_CONTAINED = true) ∧
        (∀ w h ts, (s.auRead i c).2 = some ts → s.bufFree c (s.chan c).next = true → layoutBytes 0 w h ≤ s.chanStride c →
          ∃ t, exec (.decodeAccessUnit i (.picture w h true)) s = .next t ∧ t.vis.dec = some (i.val, c.val) ∧ t.mem = s.mem ∧
            (t.chan c).next = (s.chan c).next + 1 ∧
            (t.chan c).frames = (s.chan c).frames ++ [{ k := (s.chan c).next, sof := s.round, ts := ts % 2 ^ 32, width := w, height := h, past := true }])) ∧
      (s.decTurn ≠ some i.val → ∀ k, exec (.decodeAccessUnit i k) s = .next s)) ∧
    (∀ (e : Fin 8) (au : Bytes) (k : KeptFrame), s.encWhole e = some k → s.cfgOn (VCODEC_ENC_CFG_ENABLE e) = true → s.dom 18 = 0 →
      let x := s.enc e
      let size := s.cfg (VCODEC_ENC_BS_SIZE_BS_4K e) * 4096
      let f := s.cfg (VCODEC_ENC_OUT_FUNCTION e)
      let cls := s.cfg (VCODEC_ENC_OUT_CLASS e)
      (au.length ≤ size / 2 → s.cfgOn (VCODEC_ENC_OUT_RECEIPT_EN e) = false →
        ∃ t, exec (.encodePicture e au) s = .next t ∧ (t.enc e).n = x.n + 1 ∧ (t.enc e).off = (x.off + au.length) % max size 1 ∧ (t.enc e).force = false ∧
          t.mem = ((s.ringWrite cls f (s.cfg (VCODEC_ENC_BS_BASE_ADDR e) * 4096) size x.off au).engineWrite cls f
            (s.cfg (VCODEC_ENC_AU_BASE_ADDR e) * 4096 + 16 * (x.n % 2 ^ s.cfg (VCODEC_ENC_OUT_LOG2_AU e)))
            (leBytes 4 x.off ++ leBytes 4 au.length ++ leBytes 4 k.k ++ leBytes 4 (x.n % 2 ^ 31 * 2 + (if (x.gop == 0 || x.force) = true then 1 else 0)))).1.mem) ∧
      (size / 2 < au.length → ∃ t, exec (.encodePicture e au) s = .next t ∧ t.mem = s.mem ∧ (t.enc e).n = x.n ∧ (t.enc e).force = true ∧
        t.on ERROR_STATUS_NOTE = true)) ∧
    (∀ (e : Fin 8) (au : Bytes), s.encWhole e = none → exec (.encodePicture e au) s = .next s) ∧
    (∀ (q : Req) (e : Fin 8) (v : Nat), Safety.Lands q (VCODEC_ENC_CFG e) s → s.on (VCODEC_ENC_CFG_ENABLE e) = false → nbit v 31 = true →
      (s.givesNv12 (nbits v 28 24) = true → s.get (VCODEC_ENC_OUT_CLASS e) ≠ 0 →
        ∃ t, exec (.encodeEnable q e v) s = .next t ∧ t.on (VCODEC_ENC_CFG_ENABLE e) = true ∧ t.get (VCODEC_ENC_CFG_CHANNEL e) = nbits v 28 24 ∧ t.vis = s.vis ∧ t.mem = s.mem) ∧
      (s.givesNv12 (nbits v 28 24) = false → ∃ t, exec (.encodeEnable q e v) s = .next t ∧ t.rd (VCODEC_ENC_CFG e) = s.rd (VCODEC_ENC_CFG e) ∧
        t.on ERROR_STATUS_NOTE = true)) ∧
    (s.cfgOn VCODEC_JPEG_CFG_ENABLE = true → s.dom 18 = 0 → s.vis.job = none →
      let p := s.portRead (s.cfg VCODEC_JPEG_CFG_CLASS) none meshMedia s.jobAddr 64
      (∀ b, s.vis.jobNext + 1 ≤ s.fnReceipt (s.cfg VCODEC_JPEG_CFG_FUNCTION) (s.cfg VCODEC_JPEG_RECEIPTS_SUBMIT) →
        p.fnRead (s.cfg VCODEC_JPEG_CFG_FUNCTION) p.jobAddr 64 = .ok b →
        ∃ t, exec .jpegJob s = .next t ∧ t.vis.job = some b ∧ t.vis.jobTiles = 0 ∧ t.mem = s.mem) ∧
      (s.fnReceipt (s.cfg VCODEC_JPEG_CFG_FUNCTION) (s.cfg VCODEC_JPEG_RECEIPTS_SUBMIT) < s.vis.jobNext + 1 → exec .jpegJob s = .next s)) ∧
    (∀ b o, s.vis.job = some b →
      let f := s.cfg VCODEC_JPEG_CFG_FUNCTION
      let cls := s.cfg VCODEC_JPEG_CFG_CLASS
      let r := s.jobRun f b o
      (s.jobEnds b o = true → s.cfgOn RINGS_RECEIPT_BASE_EN = false → ∃ t, exec (.jpegJobDone o) s = .next t ∧ t.vis.job = none ∧ t.vis.jobNext = s.vis.jobNext + 1 ∧
        t.mem = (((r.1.engineWrite cls f (s.jobAddr + 0x20) (leBytes 2 r.2.1)).1.engineWrite cls f (s.jobAddr + 0x24) (leBytes 4 r.2.2 ++ leBytes 8 r.1.round)).1).mem) ∧
      (s.jobEnds b o = false → exec (.jpegJobDone o) s = .next s))

/-- Conversions start at their phase, samples carry their code and flags, and blocks wait for a unit. A conversion that is due is under way and changes
nothing but the phase; one that is not due changes nothing. A sample that is available moves each fault flag by the rule of four consecutive samples,
and on the bypass becomes the waiting block of its channel, of one sample word; where a block already waits it takes its place with GAP and is
counted. A fabric block is cut at 64 words, stamped with the newest sample delivered, and marked and reported when late. Settling ends at its round.
Rests on the choices and readings of the model in log entries 59, 60. (R350; R351; R352; R353; R354; R355; R362) -/
def Obligations.SamplesBecomeBlocks : Prop :=
  ∀ (c : Fin 8) (s : State),
    (∀ t, s.convDue c t = true → t ≤ 999 → ∃ u, exec (.adcConversion c t) s = .next u ∧ (u.xchan c).conv = (s.xchan c).conv ++ [(s.round, t)] ∧
      (∀ j, j ≠ c.val → u.xchan j = s.xchan j) ∧ u.mem = s.mem ∧ (∀ o, o ≠ ROUND_PHASE → u.rd o = s.rd o)) ∧
    (∀ t, s.convDue c t = false → exec (.adcConversion c t) s = .next s) ∧
    ((s.xchan c).settle ≤ s.round → ∃ u, exec (.settleEnd c) s = .next u ∧ u.on (EXPRESS_CHAN_STATUS_SETTLING c) = false ∧ u.xp = s.xp ∧ u.mem = s.mem ∧
      (∀ o, o ≠ EXPRESS_CHAN_STATUS c → u.rd o = s.rd o)) ∧
    (s.round < (s.xchan c).settle → exec (.settleEnd c) s = .next s) ∧
    (∀ (a : Analog) (t : Nat) (x : Nat × Nat) (rest : List (Nat × Nat)), (s.xchan c).conv = x :: rest → x.1 * 1000 + x.2 + 500 ≤ s.at t →
      let mode := s.get (EXPRESS_CHAN_CFG_INPUT_MODE c)
      let fl := ((s.xchan c).flags.zip (sampleConds a mode)).map fun p => flagStep p.1 p.2
      let now := (fl.getD 0 (false, 0)).1 || (fl.getD 1 (false, 0)).1 || (fl.getD 2 (false, 0)).1
      let fault := now || decide (x.1 < (s.xchan c).settle)
      let w := sampleWord (sampleCode a mode) fault (fl.getD 0 (false, 0)).1 c
      ∃ u, exec (.sampleAvailable c a t) s = .next u ∧ (u.xchan c).flags = fl ∧ (u.xchan c).conv = rest ∧ u.on (EXPRESS_CHAN_STATUS_FAULT_NOW c) = now ∧
        u.mem = s.mem ∧ (now = true → s.on (EXPRESS_CHAN_STATUS_FAULT_NOW c) = false → u.on ERROR_STATUS_NOTE = true) ∧
        (s.cfgOn (EXPRESS_CHAN_CFG_FRONTEND c) = false → ∀ r, s.bandFor c = some r →
          ((s.xchan c).waiting = none → (u.xchan c).waiting = some ⟨[w], x.1, x.2, fault, false, false⟩ ∧ u.rd (EXPRESS_CHAN_SKIP c) = s.rd (EXPRESS_CHAN_SKIP c)) ∧
          (∀ b, (s.xchan c).waiting = some b → (u.xchan c).waiting = some ⟨[w], x.1, x.2, fault, false, true⟩ ∧
            u.rdN (EXPRESS_CHAN_SKIP c) = min (s.rdN (EXPRESS_CHAN_SKIP c) + 1) 0xFFFFFFFF)) ∧
        (s.cfgOn (EXPRESS_CHAN_CFG_FRONTEND c) = false → s.bandFor c = none → (u.xchan c).waiting = (s.xchan c).waiting)) ∧
    (∀ (ws : List Nat) (t : Nat),
      (∀ n r, s.cfgOn (EXPRESS_CHAN_CFG_FRONTEND c) = true → s.cfgOn (EXPRESS_CHAN_CFG_ENABLE c) = true → s.xoutDriven = true → ws ≠ [] → (s.xchan c).newest = some n →
        s.bandFor c = some r → (s.xchan c).waiting = none →
        let late := decide (n.1 * 1000 + n.2 + 730 < s.at t)
        ∃ u, exec (.fabricBlock c ws t) s = .next u ∧ (u.xchan c).waiting = some ⟨ws.take 64, n.1, n.2, (s.xchan c).dirty, late, false⟩ ∧
          (u.xchan c).dirty = false ∧ (late = true → u.on (EXPRESS_CHAN_STATUS_FE_LATE c) = true ∧ u.on ERROR_STATUS_NOTE = true)) ∧
      (s.xoutDriven = false → exec (.fabricBlock c ws t) s = .next s))

/-- A waiting block's unit starts when due, its result is committed as a record, and a stopping armed RUN completes. Of an armed RUN whose ring is
RUNNING, on a district that is ON, the unit of a waiting block starts when its channel is due in the round, its band is free, it is a step of the parcel, its
segment loads and copies are made and it fits, and consumes the block; one not due waits; one that does not fit is counted once. The end of a unit within its reservation frees the band and commits record SEQ to
entry SEQ mod 8, counted. A spill write that has waited 8 rounds is dropped. When the ring is STOPPING and no unit runs, the RUN completes with OK.
Rests on the choices and readings of the model in log entries 61, 62. (R359; R361; R362; R364; R365; R367) -/
def Obligations.ExpressUnitsCommitResults : Prop :=
  ∀ (s : State),
    (∀ (c : Fin 8) (clerks : Nat) (p : StepProg) (t : Nat) (r : RunSt) (b : XBlock), clerks < 2 ^ 256 → s.bandFor c = some r → (s.xchan c).waiting = some b →
      (s.xslotDue c = true → (s.xchan c).unit = none → s.dom s.expressDistrict = 0 → s.fwRunning (3 + s.expressDistrict) = true → s.runGoes r = true →
        s.on ERROR_STATUS_SAFE = false → s.bandsClerks &&& clerks = 0 → r.expressOk p = true → s.memWaits r.ring r.seq = false →
        (s.expressFits r.maxCycles = true → ∀ z, (s.atNs t).stepHead r.ring r.seq s.expressDistrict clerks r.key p = .ok z →
          ∃ u, exec (.expressUnitStart c clerks p t) s = .next u ∧ (u.xchan c).waiting = none ∧
            (u.xchan c).unit = some ⟨b, clerks, s.at t + s.get ROUND_EXPRESS_RES_MAX_NS, false, p⟩ ∧ u.mem = z.mem ∧
            u.rdN (FLOOR_STEP_COUNT s.expressDistrict) = min (z.rdN (FLOOR_STEP_COUNT s.expressDistrict) + 1) (2 ^ 64 - 1) ∧
            (∀ l, l < 256 → nbit clerks l = true → (z.clerk (clerkOf s.expressDistrict l)).ahead = false →
              (u.clerk (clerkOf s.expressDistrict l)).stage = .running)) ∧
        (s.expressFits r.maxCycles = false → (s.xchan c).counted = false →
          ∃ u, exec (.expressUnitStart c clerks p t) s = .next u ∧ (u.xchan c).waiting = some b ∧ (u.xchan c).unit = none ∧
            u.rdN (ROUND_DEFER_COUNT s.expressDistrict) = min (s.rdN (ROUND_DEFER_COUNT s.expressDistrict) + 1) 0xFFFFFFFF)) ∧
      (s.xslotDue c = false → exec (.expressUnitStart c clerks p t) s = .next s)) ∧
    (∀ (c : Fin 8) (v0 v1 t : Nat) (u : XUnit), (s.xchan c).unit = some u → t ≤ 999 → (∀ k ∈ clerksOf s.expressDistrict u.clerks, (s.clerk k).stage = .boundary) →
      u.overrun = false → s.at t ≤ u.quantumEnd → s.on (EXPRESS_CHAN_CFG_ENABLE c) = true → s.cfgOn EXPRESS_SPILL_BASE_EN = false →
      let q := (s.xchan c).seq
      ∃ z, exec (.expressUnitEnd c v0 v1 t) s = .next z ∧ (z.xchan c).unit = none ∧ (z.xchan c).seq = (q + 1) % 2 ^ 32 ∧
        z.rd (EXPRESS_MAILBOX c (q % 8 * 4)) = BitVec.ofNat 64 (recordHead q c false u.block) ∧
        z.rd (EXPRESS_MAILBOX c (q % 8 * 4 + 1)) = BitVec.ofNat 64 u.block.round ∧ z.rd (EXPRESS_MAILBOX c (q % 8 * 4 + 2)) = BitVec.ofNat 64 s.round ∧
        z.rd (EXPRESS_MAILBOX c (q % 8 * 4 + 3)) = BitVec.ofNat 64 (v0 % 2 ^ 32 + v1 % 2 ^ 32 * 2 ^ 32) ∧
        z.rdN (EXPRESS_CHAN_RESULTS c) = min (s.rdN (EXPRESS_CHAN_RESULTS c) + 1) (2 ^ 64 - 1) ∧ z.rd (EXPRESS_CHAN_LATE c) = s.rd (EXPRESS_CHAN_LATE c)) ∧
    (∀ r rest, s.xp.spills = r :: rest →
      (r.1 + 8 ≤ s.round → ∃ u, exec .spillDrop s = .next u ∧ u.xp.spills = rest ∧ u.mem = s.mem ∧
        u.rdN EXPRESS_SPILL_DROP = min (s.rdN EXPRESS_SPILL_DROP + 1) 0xFFFFFFFF) ∧
      (s.round < r.1 + 8 → exec .spillDrop s = .next s)) ∧
    (∀ (r : RunSt) (f : Flight), s.armedRun = some r → r.fail = none → r.events = none → r.seq < 2 ^ 32 → s.ringState r.ring = 2 → s.xrunning = [] →
      s.flight r.ring r.seq = some f → f.stage = .started →
      ∃ u, exec .expressRunComplete s = .next u ∧ u.runSt r.ring r.seq = none ∧
        ∃ n, u.flight r.ring r.seq = some { f with stage := .ended, status := 0, result := n })

/-- A control port accepts frames, answers valid requests, and reports links and silence. A frame that the port accepts and that carries the cyclic
EtherType waits to be parsed; another is counted as RX_OTHER. The oldest waiting frame, if it is no valid PDU, is counted as RX_BAD and gone; a valid
REQ is counted as RX_OK and waits for its snapshot with its target occurrence, or is counted as NO_TIME or NO_WINDOW and gets no response. The
snapshot queues the RSP frame of the newest records. A service request is answered unless four answers wait. Silence is reported once, a link change
is shown, and preemption becomes active when verified. Rests on the choices and readings of the model in log entries 63, 64. (R369; R372; R373; R374;
R375; R376; R377; R378) -/
def Obligations.ControlPortsAnswerRequests : Prop :=
  ∀ (p : Fin 2) (s : State),
    (∀ (f : Bytes) (fcs : Bool) (t : Nat), s.on (CPORT_STATUS_LINK p) = true →
      (s.accepts p f fcs = true → (frameParts f).2.1 = s.cfg (CPORT_CX_CFG_ETHERTYPE p) →
        ∃ u, exec (.cportFrameReceive p f fcs t) s = .next u ∧ (u.port p).rx = (s.port p).rx ++ [(s.at t, f)] ∧ (u.port p).sent = (s.port p).sent ∧ u.mem = s.mem) ∧
      (s.accepts p f fcs = false →
        ∃ u, exec (.cportFrameReceive p f fcs t) s = .next u ∧ u.ports = s.ports ∧ u.rdN (CPORT_CX_COUNT p 2) = min (s.rdN (CPORT_CX_COUNT p 2) + 1) 0xFFFFFFFF)) ∧
    (∀ last f, s.frontPdu p = some (last, f, none) → ∃ u, exec (.req p) s = .next u ∧ (u.port p).rx = (s.port p).rx.drop 1 ∧ (u.port p).reqs = (s.port p).reqs ∧
      u.rdN (CPORT_CX_COUNT p 1) = min (s.rdN (CPORT_CX_COUNT p 1) + 1) 0xFFFFFFFF) ∧
    (∀ last f q w m, s.frontPdu p = some (last, f, some (.req q w m)) →
      ∃ u, exec (.req p) s = .next u ∧ (u.port p).rx = (s.port p).rx.drop 1 ∧ (u.port p).sent = (s.port p).sent ∧ (u.port p).lastReq = some last ∧
        u.rdN (CPORT_CX_COUNT p 0) = min (s.rdN (CPORT_CX_COUNT p 0) + 1) 0xFFFFFFFF ∧
        ((s.on ROUND_STATUS_TIME_VALID && s.guardPermits p) = false → (u.port p).reqs = (s.port p).reqs ∧
          u.rdN (CPORT_CX_COUNT p 7) = min (s.rdN (CPORT_CX_COUNT p 7) + 1) 0xFFFFFFFF) ∧
        ((s.on ROUND_STATUS_TIME_VALID && s.guardPermits p) = true →
          (s.targetOcc p w last = none → (u.port p).reqs = (s.port p).reqs ∧ u.rdN (CPORT_CX_COUNT p 4) = min (s.rdN (CPORT_CX_COUNT p 4) + 1) 0xFFFFFFFF) ∧
          (∀ o, s.targetOcc p w last = some o → (u.port p).reqs =
            ((s.port p).reqs.filter fun r => r.window != w) ++ [⟨last, (f.drop 6).take 6, (frameParts f).1, q, w, m, o⟩]))) ∧
    (∀ (r : CxReq) (rest : List CxReq) (t : Nat), (s.port p).reqs = r :: rest → r.last + s.snapNs p ≤ s.at t →
      let cs := onesBelow r.mask 8
      ∃ u, exec (.cxSnapshot p t) s = .next u ∧ (u.port p).reqs = rest ∧ (u.port p).sent = (s.port p).sent ∧ (u.port p).queue = (s.port p).queue ++
        [⟨some r.window, r.occ, s.cxFrame p r.sa r.tci (s.cxHeader p 2 r.seq (24 + 16 * cs.length) r.window s.cxFlags r.mask ++
          beBytes 8 (ofSigned 64 s.netRound) ++ (s.cxItems p cs).1), false⟩]) ∧
    (∀ last f q, ((s.frontPdu p = some (last, f, some (.svc q 1)) → ∃ u, exec (.svcIdentify p) s = .next u ∧ (u.port p).rx = (s.port p).rx.drop 1 ∧
          u.rdN (CPORT_CX_COUNT p 0) = min (s.rdN (CPORT_CX_COUNT p 0) + 1) 0xFFFFFFFF ∧
          (((s.port p).queue.filter fun x => x.window.isNone).length < 4 → (u.port p).queue.length = (s.port p).queue.length + 1) ∧
          (4 ≤ ((s.port p).queue.filter fun x => x.window.isNone).length → (u.port p).queue = (s.port p).queue)) ∧
        (s.frontPdu p = some (last, f, some (.svc q 2)) → ∃ u, exec (.svcCounters p) s = .next u ∧ (u.port p).rx = (s.port p).rx.drop 1 ∧
          u.rdN (CPORT_CX_COUNT p 0) = min (s.rdN (CPORT_CX_COUNT p 0) + 1) 0xFFFFFFFF ∧
          (((s.port p).queue.filter fun x => x.window.isNone).length < 4 → (u.port p).queue.length = (s.port p).queue.length + 1)))) ∧
    (∀ l t, (s.port p).lastReq = some l → s.cfg ⟨CPORT_CX_TIMEOUT p, 31, 0⟩ ≠ 0 → l + s.cfg ⟨CPORT_CX_TIMEOUT p, 31, 0⟩ * 1000 ≤ s.at t →
      ∃ u, exec (.cportCxSilent p t) s = .next u ∧ (u.port p).lastReq = none ∧ u.on ERROR_STATUS_NOTE = true) ∧
    (∀ t, (s.port p).lastReq = none → exec (.cportCxSilent p t) s = .next s) ∧
    (∀ (offer : Fin 3) (t : Nat), ∃ u, exec (.cportLink p offer t) s = .next u ∧ u.get (CPORT_STATUS_SPEED p) = s.linkSpeed p offer ∧
      (s.linkSpeed p offer ≠ s.get (CPORT_STATUS_SPEED p) → u.on (CPORT_STATUS_LINK p) = (s.linkSpeed p offer != 0) ∧ u.on (CPORT_STATUS_PREEMPT_ACTIVE p) = false ∧
        (s.on (CPORT_STATUS_LINK p) ≠ (s.linkSpeed p offer != 0) → u.on ERROR_STATUS_NOTE = true))) ∧
    (s.on (CPORT_STATUS_LINK p) = true → s.cfgOn (CPORT_PORT_CFG_PREEMPT p) = true →
      ∃ u, exec (.preemptVerify p) s = .next u ∧ u.on (CPORT_STATUS_PREEMPT_ACTIVE p) = true ∧ u.ports = s.ports)

/-- No frame starts on a control port but as the window guard permits, and the guard cuts, switches and silences as its rules say. Whatever response or
gPTP frame tries to start at whatever time, in every state, either no frame starts, or one frame is added to those sent, while the guard is ARMED and
not SILENT, and either TIME_VALID is 1 and it lies whole in a window open in the bank in force, or it is a gPTP frame of at most 103 octets under the
allowance. A response that starts is counted; one that can no longer end in its occurrence is dropped and counted; one refused is counted once. A
transmission at its window's end is cut. A switch makes the standby bank active at its network round if it is valid, else it is reported. A
disagreement of the comparators silences the port. Rests on the choices and readings of the model in log entries 65, 66, 67. (R375; R381; R382; R383;
R384; R386) -/
def Obligations.GuardLetsFramesStartOnlyInItsWindows : Prop :=
  ∀ (p : Fin 2) (s : State),
    (∀ (w : Option (Fin 16)) (t : Nat), ∃ u, exec (.rspSend p w t) s = .next u ∧ ((u.port p).sent = (s.port p).sent ∨
        ∃ x o, (u.port p).sent = (s.port p).sent ++ [x] ∧ s.guardPermits p = true ∧ s.on ROUND_STATUS_TIME_VALID = true ∧ s.openAt p none (s.at t) = some o ∧
          x.start = s.at t ∧ x.stop = s.at t + s.frameNs p x.octets.length ∧ (x.stop : Int) ≤ o.2 ∧ x.wend = some o.2 ∧ x.cut = false)) ∧
    (∀ (f : Bytes) (t : Nat), ∃ u, exec (.ptpFrameSend p f t) s = .next u ∧ ((u.port p).sent = (s.port p).sent ∨
        ∃ x, (u.port p).sent = (s.port p).sent ++ [x] ∧ s.guardPermits p = true ∧ x.start = s.at t ∧ x.stop = s.at t + s.frameNs p f.length ∧ f.length + 4 ≤ 103 ∧
          ((s.on ROUND_STATUS_TIME_VALID = true ∧ ∃ o, s.openAt p none (s.at t) = some o ∧ (x.stop : Int) ≤ o.2 ∧ x.wend = some o.2) ∨
            (s.cfg (CPORT_GUARD_CTRL_PTP_GAP_MS p) ≠ 0 ∧ x.wend = none ∧ (u.port p).lastPtp = some (s.at t) ∧
              (∀ l, (s.port p).lastPtp = some l → l + s.cfg (CPORT_GUARD_CTRL_PTP_GAP_MS p) * 1000000 ≤ s.at t) ∧
              (∀ o, s.nextOpen p none (s.at t) = some o → (x.stop : Int) + 16 ≤ o.1) ∧
              u.rdN (CPORT_GUARD_COUNT p 2) = min (s.rdN (CPORT_GUARD_COUNT p 2) + 1) 0xFFFFFFFF)))) ∧
    (∀ (w : Fin 16) (t : Nat) (f : TxFrame), (s.port p).queue.find? (fun f => f.window == some w.val) = some f → s.on (CPORT_STATUS_LINK p) = true →
      let dur := s.frameNs p f.octets.length
      (f.occ.2 < max (s.at t : Int) f.occ.1 + dur →
        ∃ u, exec (.rspSend p (some w) t) s = .next u ∧ (u.port p).sent = (s.port p).sent ∧ (u.port p).queue.length + 1 = (s.port p).queue.length ∧
          u.rdN (CPORT_CX_COUNT p 6) = min (s.rdN (CPORT_CX_COUNT p 6) + 1) 0xFFFFFFFF) ∧
      (max (s.at t : Int) f.occ.1 + dur ≤ f.occ.2 → f.occ.1 ≤ (s.at t : Int) → s.mediumBusy p (s.at t) = false →
        (∀ e, s.mayStart p (s.at t) dur = some e →
          ∃ u, exec (.rspSend p (some w) t) s = .next u ∧ (u.port p).sent = (s.port p).sent ++ [⟨s.at t, s.at t + dur, some e, false, f.octets⟩] ∧
            u.rdN (CPORT_CX_COUNT p 3) = min (s.rdN (CPORT_CX_COUNT p 3) + 1) 0xFFFFFFFF) ∧
        (s.mayStart p (s.at t) dur = none → f.blocked = false →
          ∃ u, exec (.rspSend p (some w) t) s = .next u ∧ (u.port p).sent = (s.port p).sent ∧ (u.port p).queue.length = (s.port p).queue.length ∧
            u.rdN (CPORT_GUARD_COUNT p 0) = min (s.rdN (CPORT_GUARD_COUNT p 0) + 1) 0xFFFFFFFF))) ∧
    (∀ t f e, s.inFlight p (s.at t) = some f → f.wend = some e → e ≤ (s.at t : Int) →
      ∃ u, exec (.guardCut p t) s = .next u ∧ u.inFlight p (s.at t) = none ∧ u.on ERROR_STATUS_DEGRADED = true ∧
        u.rdN (CPORT_GUARD_COUNT p 1) = min (s.rdN (CPORT_GUARD_COUNT p 1) + 1) 0xFFFFFFFF) ∧
    (s.on (CPORT_GUARD_CTRL_SWITCH_PENDING p) = true → ofSigned 64 s.netRound = s.rdN (CPORT_GUARD_SWITCH p) →
      ∃ u, exec (.guardSwitchApply p) s = .next u ∧ u.on (CPORT_GUARD_CTRL_SWITCH_PENDING p) = false ∧
        (s.bankValid p (1 - s.guardBank p) = true → u.guardBank p = 1 - s.guardBank p) ∧
        (s.bankValid p (1 - s.guardBank p) = false → u.guardBank p = s.guardBank p ∧ u.on ERROR_STATUS_NOTE = true ∧ u.ports = s.ports)) ∧
    (s.on (CPORT_GUARD_CTRL_SWITCH_PENDING p) = false → exec (.guardSwitchApply p) s = .next s) ∧
    (s.guardPermits p = true → ∃ u, exec (.guardDisagree p) s = .next u ∧ u.guardPermits p = false ∧ u.on ERROR_STATUS_FATAL = true)

/-- A request is queued in arrival order, a read returns the latest write, and bursts issue by class, budget and age. A request within one line that its
requester may make, to a channel with room, is queued; a write's bytes and no others are in memory, and a read of them that follows is answered with
them; to a channel without room it waits at its port. A request that may not be made is refused and changes no memory. A request of a district's SRAM
waits while a unit runs there, and a core's read of register space is answered with what the register gives. A burst that issues is of a request allowed to issue, express first, and in
class order no unpromoted request of a higher class that may issue is passed over; it is charged to its class and held for retry. A request older than
its class's limit is promoted and counted; a younger one is not. While SPINE is down nothing issues. Rests on the choices and readings of the model in
log entries 68, 69, 70, 142. (R396; R399; R400; R402; R403; R404; R406) -/
def Obligations.MemoryRequestsTakeEffectInOrderAndIssueByClass : Prop :=
  ∀ (s : State),
    (∀ (tag : Nat) (b : MemBy) (a : Nat) (o : MemOp) (t : Nat), s.spineUp = true → memSize o ≠ 0 → a / 64 = (a + memSize o - 1) / 64 → coreSpace a = false →
      (∀ e, s.memCheck b a (memSize o) = some e → ∃ u, exec (.memRequest tag b a o t) s = .next u ∧ u.mem = s.mem ∧ u.memc.answers = s.memc.answers ++ [(tag, .refused)] ∧
        u.memc.chans = s.memc.chans) ∧
      (∀ d, s.memCheck b a (memSize o) = none → inSram a (memSize o) = true → s.heldBy' a = some d →
        ∃ u, exec (.memRequest tag b a o t) s = .next u ∧ u.floor.held = s.floor.held ++ [⟨d, a, o, .mem tag⟩] ∧ u.mem = s.mem ∧ u.memc = s.memc) ∧
      (s.memCheck b a (memSize o) = none → inSram a (memSize o) = false → inBootSram a (memSize o) = false → (s.mchan (memChannel a)).noRoom = true →
        ∃ u, exec (.memRequest tag b a o t) s = .next u ∧ u.mem = s.mem ∧ (u.mchan (memChannel a)).port = (s.mchan (memChannel a)).port ++ [(tag, b, a, o)] ∧
          (u.mchan (memChannel a)).queue = (s.mchan (memChannel a)).queue ∧ u.memc.answers = s.memc.answers) ∧
      (s.memCheck b a (memSize o) = none → inSram a (memSize o) = false → inBootSram a (memSize o) = false → (s.mchan (memChannel a)).queue.length < 95 →
        (s.mchan (memChannel a)).port = [] → s.poison = [] → s.cfgOn RINGS_RECEIPT_BASE_EN = false →
        (∀ n, o = .read n → (s.mchan (memChannel a)).holdsWrite a n = false →
          ∃ u e, exec (.memRequest tag b a o t) s = .next u ∧ u.mem = s.mem ∧ (u.mchan (memChannel a)).queue = (s.mchan (memChannel a)).queue ++ [e] ∧
            e.tag = tag ∧ e.a = a ∧ e.len = n ∧ e.cls = s.memClass b ∧ e.write = none ∧ e.old = s.rdMem a n) ∧
        (∀ d, o = .write d →
          ∃ u e, exec (.memRequest tag b a o t) s = .next u ∧ u.rdMem a d.length = d ∧ (∀ z, z < a ∨ a + d.length ≤ z → u.byte z = s.byte z) ∧
            (u.mchan (memChannel a)).queue = (s.mchan (memChannel a)).queue ++ [e] ∧ e.tag = tag ∧ e.cls = s.memClass b ∧ e.write = some d ∧
            (∀ tag' b' t', s.memCheck b' a d.length = none →
              ∃ v, exec (.memRequest tag' b' a (.read d.length) t') u = .next v ∧ v.mem = u.mem ∧ v.memc.answers = s.memc.answers ++ [(tag', .data d)])))) ∧
    (∀ (tag : Nat) (q : Req) (a n t : Nat), Machine.Req.onModule q = true → 0xF000000000 ≤ a → a < 0xF001000000 → (n = 1 ∨ n = 2 ∨ n = 4 ∨ n = 8) →
      let z := ((s.atNs t).giveRead 0).regRead q (a - 0xF000000000) n
      ∃ u, exec (.memRequest tag (.host q) a (.read n) t) s = .next u ∧ u.memc.answers = z.memc.answers ++ [(tag, .data (leBytes n z.bus.data))] ∧ u.mem = z.mem) ∧
    (s.spineUp = false → ∀ (c : Fin 10) (rows : List Nat) (tag t : Nat), exec (.memBurstIssue c rows t) s = .next s ∧ exec (.memPromote c tag t) s = .next s) ∧
    (s.spineUp = true → ∀ (c : Fin 10) (rows : List Nat) (t : Nat),
      let z := (s.atNs t).memConfirm c
      (∀ e h p, (z.mchan c).retry.length < 32 → (z.mchan c).port = [] → z.memPick c rows = some (e, h, p) →
        ∃ u, exec (.memBurstIssue c rows t) s = .next u ∧ (u.mchan c).queue = (z.mchan c).queue.filter (· != e) ∧
          (u.mchan c).retry = (z.mchan c).retry ++ [{ e with issued := z.now }] ∧ u.mem = s.mem ∧ e ∈ (z.mchan c).queue ∧ z.memMay e = true ∧
          u.rdN (MEMCTL_CLASS_BYTES e.cls) = min (z.rdN (MEMCTL_CLASS_BYTES e.cls) + e.len) (2 ^ 64 - 1) ∧
          ((∃ x ∈ (z.mchan c).queue, x.cls = 0 ∧ z.memMay x = true) → e.cls = 0) ∧
          (s.on (MEMCTL_CHAN_ORDER_MODE c) = false → e.promoted = false → ∀ x ∈ (z.mchan c).queue, z.memMay x = true → x.cls ≤ 3 → e.cls ≤ x.cls)) ∧
      ((32 ≤ (z.mchan c).retry.length ∨ z.memPick c rows = none) → ∃ u, exec (.memBurstIssue c rows t) s = .next u ∧ u.memc = z.memc ∧ u.mem = s.mem)) ∧
    (s.spineUp = true → ∀ (c : Fin 10) (tag t : Nat) (e : MemEntry), (s.mchan c).queue.find? (fun e => e.tag == tag) = some e → e.cls ≠ 0 → e.cls ≤ 3 → e.promoted = false →
      let lim := s.get (MEMCTL_AGE_LIMIT_ROUNDS (e.cls - 1))
      (lim ≠ 0 → e.arr + lim * 1000 < (s.atNs t).now →
        ∃ u, exec (.memPromote c tag t) s = .next u ∧
          (u.mchan c).queue = (s.mchan c).queue.map (fun x => if x.tag = tag then { x with promoted := true } else x) ∧
          u.rdN (MEMCTL_PROMOTED e.cls) = min (s.rdN (MEMCTL_PROMOTED e.cls) + 1) 0xFFFFFFFF ∧ u.mem = s.mem) ∧
      ((lim = 0 ∨ (s.atNs t).now ≤ e.arr + lim * 1000) → ∃ u, exec (.memPromote c tag t) s = .next u ∧ u.memc = s.memc ∧
        ∀ o, o ≠ ROUND_PHASE → u.rd o = s.rd o))

/-- Read data is returned, reissued or poisoned; refresh, training and the expansion channel follow their rules. Data that passes answers its read;
corrected data also counts and is a NOTE; data that fails is reissued once and then poisons its line unless the line has been rewritten since,
CONTAINED. An alert replays every unconfirmed command, and a third takes the channel DOWN, DEGRADED, with nothing left in it. A set of refresh debt
accrues each tREFI_eff; the eighth is forced and reported. A channel at 100,000 rounds is trained and reported, and otherwise in its lane. START
begins bring-up or is MEM_BUSY; its end gives the state of Table 12.9. MR4 changes one channel's TEMP_STATE. All this while SPINE is up. Rests on the choices and readings of the
model in log entries 71, 72, 73, 142. (R408; R409; R410; R412; R413; R414; R415; R417; R421) -/
def Obligations.MemoryDataRefreshTrainingAndExpansion : Prop :=
  ∀ (s : State),
    (∀ (c : Fin 10) (tag : Nat) (e : MemEntry), s.spineUp = true → (s.mchan c).retry.find? (fun e => e.tag == tag) = some e → e.write = none → e.tag = tag →
      (e.reissued = false →
        (∃ u, exec (.memReadData c tag .pass) s = .next u ∧ u.memc.answers = s.memc.answers ++ [(tag, .data e.old)] ∧
          (u.mchan c).retry = (s.mchan c).retry.filter (fun e => e.tag != tag) ∧ u.mem = s.mem ∧ u.regs = s.regs) ∧
        (∃ u, exec (.memReadData c tag .corrected) s = .next u ∧ u.memc.answers = s.memc.answers ++ [(tag, .data e.old)] ∧ u.mem = s.mem ∧
          u.rdN (MEMCTL_ECC_CORR c) = min (s.rdN (MEMCTL_ECC_CORR c) + 1) 0xFFFFFFFF ∧ u.on ERROR_STATUS_NOTE = true) ∧
        (∃ u, exec (.memReadData c tag .bad) s = .next u ∧ u.memc.answers = s.memc.answers ∧ u.poison = s.poison ∧ u.regs = s.regs ∧
          (u.mchan c).retry = (s.mchan c).retry.map fun x => if x.tag = tag then { x with reissued := true } else x)) ∧
      (e.reissued = true → memRing e.by_ = none → (s.mchan c).rewrites e = false → s.poison.length < 1024 →
        ∃ u, exec (.memReadData c tag .bad) s = .next u ∧ e.a / 64 * 64 ∈ u.poison ∧ u.memc.answers = s.memc.answers ++ [(tag, .poison)] ∧ u.mem = s.mem ∧
          u.rdN (MEMCTL_ECC_UNCORR c) = min (s.rdN (MEMCTL_ECC_UNCORR c) + 1) 0xFFFFFFFF ∧ u.on ERROR_STATUS_CONTAINED = true)) ∧
    (∀ (sub : Fin 2),
      (s.spineUp = true → s.dxFitted = true → (s.mchan (8 + sub.val)).retry.all (fun e => e.replays < 2) = true →
        ∃ u, exec (.ddr5Alert sub) s = .next u ∧ (u.mchan (8 + sub.val)).retry = (s.mchan (8 + sub.val)).retry.map (fun e => { e with replays := e.replays + 1 }) ∧
          u.rdN (MEMCTL_REPLAY (8 + sub.val)) = min (s.rdN (MEMCTL_REPLAY (8 + sub.val)) + 1) 0xFFFFFFFF ∧ u.on ERROR_STATUS_NOTE = true) ∧
      (s.spineUp = true → s.dxFitted = true → (s.mchan (8 + sub.val)).retry.all (fun e => e.replays < 2) = false →
        ∃ u, exec (.ddr5Alert sub) s = .next u ∧ u.get MEMCTL_DX_STATUS_STATE = 5 ∧ u.on ERROR_STATUS_DEGRADED = true ∧
          (∀ k : Fin 2, (u.mchan (8 + k.val)).queue = [] ∧ (u.mchan (8 + k.val)).retry = [])) ∧
      ((s.dxFitted = false ∨ s.spineUp = false) → exec (.ddr5Alert sub) s = .next s)) ∧
    (∀ (c : Fin 10) (t : Nat), s.chanServes c = true → s.spineUp = true →
      ((s.mchan c).accrued + s.trefi c ≤ (s.atNs t).now →
        ∃ u, exec (.refreshDebt c t) s = .next u ∧ u.mem = s.mem ∧ (u.mchan c).accrued = (s.mchan c).accrued + s.trefi c ∧
          ((s.mchan c).debt < 7 → (u.mchan c).debt = (s.mchan c).debt + 1 ∧ u.rd (MEMCTL_REFRESH_FORCED c) = s.rd (MEMCTL_REFRESH_FORCED c)) ∧
          (7 ≤ (s.mchan c).debt → (u.mchan c).debt = (s.mchan c).debt ∧ u.on ERROR_STATUS_NOTE = true ∧
            u.rdN (MEMCTL_REFRESH_FORCED c) = min (s.rdN (MEMCTL_REFRESH_FORCED c) + 1) 0xFFFFFFFF)) ∧
      ((s.atNs t).now < (s.mchan c).accrued + s.trefi c → ∃ u, exec (.refreshDebt c t) s = .next u ∧ u.memc = s.memc) ∧
      ((s.mchan c).trained + 100000 ≤ s.round → c.val < 8 →
        ∃ u, exec (.trainingAction c true) s = .next u ∧ (u.mchan c).trained = s.round ∧ u.memc.trains = s.memc.trains + 1 ∧ u.on ERROR_STATUS_NOTE = true ∧
          u.rdN (MEMCTL_TRAIN_FORCED c) = min (s.rdN (MEMCTL_TRAIN_FORCED c) + 1) 0xFFFFFFFF) ∧
      (s.round < (s.mchan c).trained + 100000 → s.ttRun = true → nbit (s.entryByte s.round 2) 2 = true → s.memc.laneUsed = false → c.val = s.memc.trainNext →
        ∃ u, exec (.trainingAction c true) s = .next u ∧ (u.mchan c).trained = s.round ∧ u.memc.trainNext = s.trainAfter c ∧ u.regs = s.regs) ∧
      (s.round < (s.mchan c).trained + 100000 → s.ttRun = true → nbit (s.entryByte s.round 2) 2 = false → ∀ b, exec (.trainingAction c b) s = .next s) ∧
      (∀ k : Fin 3, ∃ u, exec (.tempStateChange c k) s = .next u ∧ u.tempState c = k.val ∧ (∀ j : Fin 10, j ≠ c → u.tempState j = s.tempState j) ∧
        (∀ o, o ≠ MEMCTL_TEMP_STATE → u.rd o = s.rd o))) ∧
    (∀ (q : Req) (v : Nat), Safety.Lands q MEMCTL_DX_CTRL s → q.reachesRegs = true → nbit v 31 = true →
      let k := s.get MEMCTL_DX_STATUS_STATE
      (s.on ROUND_CTRL_TT_ENABLE = false → k ≠ 1 → k ≠ 2 → ∃ u, exec (.ddr5Bringup q v) s = .next u ∧ u.get MEMCTL_DX_STATUS_STATE = 1 ∧ u.memc.dxVin = true ∧
        u.on MEMCTL_DX_CTRL_START = true) ∧
      ((s.on ROUND_CTRL_TT_ENABLE = true ∨ k = 1 ∨ k = 2) → ∃ u, exec (.ddr5Bringup q v) s = .next u ∧ u.get MEMCTL_DX_STATUS_STATE = k ∧ u.memc = s.memc ∧
        u.on ERROR_STATUS_NOTE = true)) ∧
    (s.get MEMCTL_DX_STATUS_STATE = 1 → s.spineUp = true →
      (∃ u, exec (.ddr5BringupDone none) s = .next u ∧ u.get MEMCTL_DX_STATUS_STATE = 0 ∧ u.memc.dxVin = false ∧ u.on MEMCTL_DX_CTRL_START = false) ∧
      (∀ (d : Spd) (r : Nat), dxRate d.mts (s.get MEMCTL_DX_CTRL_MAX_MTS) = some r → d.ok = true → d.gib ∈ [8, 16, 32, 64] → d.ranks ∈ [1, 2] →
        (d.converges = true → ∃ u, exec (.ddr5BringupDone (some d)) s = .next u ∧ u.get MEMCTL_DX_STATUS_STATE = 2 ∧ u.get MEMCTL_DX_STATUS_MTS = r ∧
          u.get MEMCTL_DX_STATUS_SIZE_GIB = d.gib ∧ u.get ROUND_DRAM_CAP_UNITS = 2832) ∧
        (d.converges = false → ∃ u, exec (.ddr5BringupDone (some d)) s = .next u ∧ u.get MEMCTL_DX_STATUS_STATE = 4 ∧ u.memc.dxVin = false ∧
          u.on ERROR_STATUS_NOTE = true)))

/-- A load that passes its checks waits, writes every record's frame, and releases its region; one that fails leaves it EMPTY. A started FABRIC_LOAD that
passes R433 is held and touches no frame and no region; one whose FRAMES is not the region's frame count fails with FABRIC_COUNT. The load that
started first begins when the engine is free: if every record passes, its region is LOADING and each record's frame holds its words; if a record
fails, the region is EMPTY and the envelope fails with that record's status. At a boundary after the last record the region becomes ACTIVE with
IMAGE_ID and the envelope completes. An upset is counted, shown and reported, and under HOLD_REGION the region enters FAULT at a later boundary. HOLD
acts from the next boundary. Rests on the choices and readings of the model in log entries 74, 138. (R429; R433; R434; R435; R438; R442; R443) -/
def Obligations.FabricLoadsAreCheckedWrittenAndReleased : Prop :=
  ∀ (s : State),
    (∀ (r : Ring) (f : Flight), s.flight r f.seq = some f → f.stage = .started → Env.kind f.env = 11 → (s.fab.loads.any fun l => l.ring == r.val && l.seq == f.seq) = false →
      let g := fieldLE f.env 0x24 1
      (s.loadChecks r f.env = .ok () → ∃ t, exec (.fabricLoad r f.seq) s = .next t ∧ (∀ j, j < 8 → t.rd (FABRIC_REGION_STATE j) = s.rd (FABRIC_REGION_STATE j)) ∧
        t.mem = s.mem ∧ t.fab.frames = s.fab.frames ∧ t.fab.loads = s.fab.loads ++ [⟨r, f.seq, g, s.on (FABRIC_REGION_POLICY_AUTH g), none, []⟩]) ∧
      (g ≤ 7 → s.dom 19 = 0 → (s.regionPair g).2 ≠ 0 → (s.fab.loads.any fun l => l.g == g) = false → fieldLE f.env 0x20 4 ≠ s.frameCount g →
        ∃ t, exec (.fabricLoad r f.seq) s = .next t ∧ t.fab = s.fab ∧ t.get (RINGS_STATUS_LAST_FAIL r) = 0x8B08)) ∧
    (∀ (bad : Option Nat) (l : FabLoad) (f : Flight), s.fab.loads.find? (fun l => l.image.isNone) = some l → s.flight l.ring l.seq = some f → f.stage = .started →
      Env.kind f.env = 11 → l.ring < 4096 → l.g < 8 → s.dom 19 = 0 → s.fab.cmd = none → s.engineBusy = false → s.preparing 19 = false →
      (∀ id rs dg, s.loadOutcome l f.env bad = .ok (id, rs, dg) → ∃ t, exec (.fabricLoadBegin bad) s = .next t ∧ t.regionState l.g = 1 ∧
        (∀ x ∈ rs, t.frame (fieldLE x 0 4) = recordWords x) ∧ (t.fab.loads.any fun y => y.ring == l.ring && y.seq == l.seq && y.image == some (id, s.round)) = true ∧
        t.mem = s.mem) ∧
      (∀ h b st i, s.addrRead (s.ringFn l.ring) (fieldLE f.env 0x18 8) 128 = .ok h →
        s.addrRead (s.ringFn l.ring) (fieldLE f.env 0x18 8 + 128) (336 * fieldLE f.env 0x20 4) = .ok b → s.recordsFault l.g bad 0 none (rowsOf b 336) = some (st, i) →
        ∃ t, exec (.fabricLoadBegin bad) s = .next t ∧ t.regionState l.g = 0 ∧ t.rdN (FABRIC_REGION_IMAGE l.g) = 0 ∧ t.get (RINGS_STATUS_LAST_FAIL l.ring) = st ∧
          (∀ far, far < 65536 → s.farIn l.g far = true → t.frame far = List.replicate 81 0))) ∧
    (∀ (g : Fin 8) (l : FabLoad) (f : Flight) (id n : Nat), s.fab.loads.find? (fun l => l.g == g.val) = some l → l.image = some (id, n) → l.ring < 4096 → id < 2 ^ 32 →
      s.flight l.ring l.seq = some f → f.stage = .started →
      (n < s.round → s.dom 19 = 0 → s.memWaits l.ring l.seq = false → ∃ t, exec (.fabricRelease g) s = .next t ∧ t.regionState g = 2 ∧ t.rdN (FABRIC_REGION_IMAGE g) = id ∧
        (t.fab.loads.any fun x => x.g == g.val) = false ∧ t.fab.frames = s.fab.frames ∧
        t.rdN (RINGS_DONE_COUNT l.ring) = min (s.rdN (RINGS_DONE_COUNT l.ring) + 1) (2 ^ 64 - 1)) ∧
      (s.round ≤ n → exec (.fabricRelease g) s = .next s)) ∧
    (∀ g : Fin 8, (s.fab.faultDue.any (fun x => x.1 == g.val && decide (x.2 < s.round)) = true → s.regionState g = 2 →
        ∃ t, exec (.regionFault g) s = .next t ∧ t.regionState g = 3 ∧ t.fab.frames = s.fab.frames) ∧
      (s.fab.faultDue = [] → exec (.regionFault g) s = .next s)) ∧
    (∀ (far : Fin 65536) (flips : List (Nat × Nat)) (g : Nat), s.cfgOn FABRIC_SCRUB_CTRL_ENABLE = true → s.domUp 19 = true → s.engineBusy = false → s.fab.cmd = none →
      s.scrubbed.contains far.val = true →
      s.regionAt (nbits far 15 10) = some g →
      let ws := flips.foldl (fun l x => l.modify x.1 fun w => w ^^^ (x.2 % 2 ^ 32)) (s.frame far)
      (some (frameCrc ((s.setFrame far ws).frame far)) = SMap.get (fun _ => none) s.fab.golden far →
        ∃ t, exec (.fabricScrubRead far flips) s = .next t ∧ t.err = s.err ∧ t.rd (FABRIC_REGION_UPSETS g) = s.rd (FABRIC_REGION_UPSETS g) ∧ t.fab.faultDue = s.fab.faultDue) ∧
      (some (frameCrc ((s.setFrame far ws).frame far)) ≠ SMap.get (fun _ => none) s.fab.golden far → s.fab.upset.contains far.val = false →
        ∃ t, exec (.fabricScrubRead far flips) s = .next t ∧ t.on ERROR_STATUS_DEGRADED = true ∧
          t.rdN (FABRIC_REGION_UPSETS g) = min (s.rdN (FABRIC_REGION_UPSETS g) + 1) 0xFFFFFFFF ∧ t.get (FABRIC_REGION_LAST_UPSET_FAR g) = far.val ∧
          (s.cfgOn (FABRIC_REGION_CTRL_SCRUB_ACTION g) = true → (t.fab.faultDue.any fun x => x.1 == g) = true))) ∧
    (∀ (q : Req) (g : Fin 8) (v : Nat), Safety.Lands q (FABRIC_REGION_CTRL g) s → q.pfOrHost = true → s.domUp 19 = true → s.spineUp = true →
      ∃ t, exec (.regionHoldWrite q g v) s = .next t ∧ t.get (FABRIC_REGION_CTRL_HOLD g) = v % 2 ∧ t.cfg (FABRIC_REGION_CTRL_HOLD g) = s.cfg (FABRIC_REGION_CTRL_HOLD g) ∧
        t.regionRuns g = s.regionRuns g ∧ (∀ o, o ≠ FABRIC_REGION_CTRL g → t.rd o = s.rd o))

/-- Configuration commands, MESH requests, the register window and the clocks act as their rules give. With no command in progress, READ_FRAME of a valid
address in a defined region that is not LOADING gives the frame's words and their CRC, CLEAR leaves its region EMPTY with zero frames, SCRUB_PASS
starts a pass while ENABLE is 1, and each is BUSY; otherwise it ends with FAULT and its CAUSE. A command while BUSY is discarded with a NOTE. A MESH
request with MESH_EN 0 or outside its function's window is refused with a NOTE and accesses nothing; a permitted write stores its bytes. A read of a
window whose region cannot answer returns 0, and one not answered in time all ones with a NOTE. A CLK_CFG write keeps MHZ from 10 to 500, and else
100. Rests on the choices and readings of the model in log entries 75, 76, 77, 165. (R444; R445; R446; R447; R450) -/
def Obligations.FabricCommandsPortsAndClocks : Prop :=
  ∀ (q : Req) (s : State), q.pfOrHost = true → s.domUp 19 = true → s.spineUp = true → s.holdOf q = none →
    (s.fab.cmd = none →
      (∀ (far : Fin 65536) (g : Nat), farOk far = true → s.regionAt (nbits far 15 10) = some g → s.regionState g ≠ 1 →
        ∃ t, exec (.readFrame q far) s = .next t ∧ t.on FABRIC_CFG_STATUS_BUSY = true ∧ t.fab.frames = s.fab.frames ∧
          (∀ i, i < 81 → t.rd (FABRIC_CFG_DATA i) = BitVec.ofNat 64 ((s.frame far).getD i 0)) ∧ t.rd (FABRIC_CFG_DATA 81) = BitVec.ofNat 64 (frameCrc (s.frame far))) ∧
      (∀ (far : Fin 65536), farOk far = false → ∃ t, exec (.readFrame q far) s = .next t ∧ t.on FABRIC_CFG_STATUS_FAULT = true ∧
        t.get FABRIC_CFG_STATUS_CAUSE = 2 ∧ t.fab = s.fab ∧ (∀ i, i < 82 → t.rd (FABRIC_CFG_DATA i) = s.rd (FABRIC_CFG_DATA i))) ∧
      (∀ (g : Fin 8), s.regionState g ≠ 1 → (s.regionPair g).2 ≠ 0 → ∃ t, exec (.clear q g) s = .next t ∧ t.regionState g = 0 ∧
        t.rdN (FABRIC_REGION_IMAGE g) = 0 ∧ t.on FABRIC_CFG_STATUS_BUSY = true ∧ (∀ far, far < 65536 → s.farIn g far = true → t.frame far = List.replicate 81 0) ∧
        (∀ far, far < 65536 → s.farIn g far = false → t.frame far = s.frame far)) ∧
      (∀ (g : Fin 8), s.regionState g = 1 → ∃ t, exec (.clear q g) s = .next t ∧ t.fab = s.fab ∧ t.get FABRIC_CFG_STATUS_CAUSE = 3) ∧
      (s.cfgOn FABRIC_SCRUB_CTRL_ENABLE = true → ∃ t, exec (.scrubPass q) s = .next t ∧ t.fab.visited = [] ∧ t.on FABRIC_CFG_STATUS_BUSY = true) ∧
      (s.cfgOn FABRIC_SCRUB_CTRL_ENABLE = false → ∃ t, exec (.scrubPass q) s = .next t ∧ t.fab = s.fab ∧ t.get FABRIC_CFG_STATUS_CAUSE = 4)) ∧
    (s.fab.cmd ≠ none → ∀ far, ∃ t, exec (.readFrame q far) s = .next t ∧ t.fab = s.fab ∧ t.on ERROR_STATUS_NOTE = true) ∧
    (∀ (a : Nat) (o : MemOp), s.region18.isSome = true → memSize o ≠ 0 → memSize o ≤ 64 →
      (s.cfgOn FABRIC_PORT_CFG_MESH_EN = false ∨ 18 < s.cfg FABRIC_PORT_CFG_FUNCTION ∨ s.fnCheck (s.cfg FABRIC_PORT_CFG_FUNCTION) a (memSize o) ≠ none →
        ∃ t, exec (.fabricMeshRequest a o) s = .next t ∧ t.mem = s.mem ∧ t.fab.mesh = s.fab.mesh ++ [.refused] ∧ t.on ERROR_STATUS_NOTE = true) ∧
      (∀ b, o = .write b → s.cfgOn FABRIC_PORT_CFG_MESH_EN = true → s.cfg FABRIC_PORT_CFG_FUNCTION ≤ 18 → s.fnCheck (s.cfg FABRIC_PORT_CFG_FUNCTION) a b.length = none → inSram a b.length = false →
        ∃ t, exec (.fabricMeshRequest a o) s = .next t ∧ t.mem = (s.store a b).mem ∧ t.fab.mesh = s.fab.mesh ++ [.written])) ∧
    (∀ a o, s.region18 = none → exec (.fabricMeshRequest a o) s = .next s) ∧
    (∀ (g : Fin 8) (off : Fin 65536) (ans : Option Nat),
      (s.region18 ≠ some g.val → (∃ t, exec (.fabricRegAccess q g off none ans) s = .next t ∧ t.bus.data = 0 ∧ t.regs = s.regs ∧ t.fab = s.fab) ∧
        (∀ v, exec (.fabricRegAccess q g off (some v) ans) s = .next s)) ∧
      (s.region18 = some g.val → (∀ v, ∃ t, exec (.fabricRegAccess q g off (some v) ans) s = .next t ∧ t.fab.regs = s.fab.regs ++ [(g.val, off.val, some v)] ∧ t.regs = s.regs) ∧
        (∀ v, ans = some v → ∃ t, exec (.fabricRegAccess q g off none ans) s = .next t ∧ t.bus.data = v % 2 ^ 64 ∧ t.fab = s.fab)) ∧
      (s.fab.regs.any (fun x => x.1 == g.val && x.2.2.isNone) = true → ∃ t, exec (.fabricRegTimeout g) s = .next t ∧ t.bus.data = 0xFFFFFFFF ∧
        t.on ERROR_STATUS_NOTE = true)) ∧
    (∀ (i : Fin 4) (v : Nat), ∃ t, exec (.clkCfgWrite q i v) s = .next t ∧ t.get ⟨FABRIC_CLK_CFG i, 31, 31⟩ = nbits v 31 31 ∧
      t.get ⟨FABRIC_CLK_CFG i, 9, 0⟩ = (if 10 ≤ v % 1024 ∧ v % 1024 ≤ 500 then v % 1024 else 100) ∧ (∀ o, o ≠ FABRIC_CLK_CFG i → t.rd o = s.rd o) ∧
      t.cfg ⟨FABRIC_CLK_CFG i, 9, 0⟩ = s.cfg ⟨FABRIC_CLK_CFG i, 9, 0⟩)

/-- A domain request completes at once, starts, waits, is deferred by the warden, or is discarded, as its rules say. In RUN with a steward and no device
transition, a request by a writer that the warden does not defer: for the present state of a quiet domain it completes with OK and changes nothing of
it; for RETAIN or OFF of a domain that is up it begins prepare, and no domain changes state; for RETAIN of a domain that is OFF it is BAD_REQUEST; for
IDLE of a domain that is ON it waits for the clocks to stop; for ON of another domain its steps of Table 14.3 begin. A normal-world request to leave
ON of a held domain is deferred. With a transition in progress a new request is pending and supersedes the one pending. A cancel removes the pending
request, but not that of the secure world for the normal world. Other writers change nothing. Rests on the choices and readings of the model in log
entries 79, 80, 143. (R457; R459; R470; R476; R480; R488) -/
def Obligations.DomainRequestsStartWaitOrAreRefused : Prop :=
  ∀ (q : Req) (i : Fin 24) (tag : Nat) (s : State), s.holdOf q = none →
    let ask : Fin 4 → Instr := fun k =>
      if k = 0 then .domReqOn q i tag else if k = 1 then .domReqIdle q i tag else if k = 2 then .domReqRetain q i tag else .domReqOff q i tag
    let x := s.pdom i
    let held := s.warden i && !q.secure
    let res := fun (t : State) => t.rdN (POWER_DOM_RESULT i)
    (s.pwrWriter q = true → s.get POWER_DEV_STATUS_STATE = 0 → s.fwRunning 2 = true → s.quiet = false → s.pwr.dev = none → x.prep = none → x.idle = none → x.opens = false →
      (x.trans = none → x.pend = none → ∀ k : Fin 4,
        let r : PReq := ⟨k.val, tag % 65536, q.secure, false, false⟩
        (k.val = s.dom i → (k = 0 ∨ held = false) → ∃ t, exec (ask k) s = .next t ∧ res t = resultWord tag 0 0 0 ∧ t.pdom i = x ∧ t.mem = s.mem ∧
          (∀ j, j < 24 → t.dom j = s.dom j)) ∧
        (2 ≤ k.val → held = false → (s.dom i ≤ 1 ∨ (s.dom i = 2 ∧ k = 3)) → ∃ t, exec (ask k) s = .next t ∧ t.pdom i = { x with prep := some (r, s.round) } ∧
          res t = res s ∧ t.on (POWER_DOM_STATUS_BUSY i) = true ∧ t.mem = s.mem ∧ (∀ j, j < 24 → t.dom j = s.dom j)) ∧
        (k = 2 → held = false → s.dom i = 3 → ∃ t, exec (ask k) s = .next t ∧ res t = resultWord tag 0 8 0 ∧ t.pdom i = x) ∧
        (k = 1 → held = false → s.dom i = 0 → ∃ t, exec (ask k) s = .next t ∧ t.pdom i = { x with idle := some r } ∧ res t = res s ∧ t.dom i = 0) ∧
        (k = 0 → s.dom i ≠ 0 → ∃ t, exec (ask k) s = .next t ∧ res t = res s ∧
          t.pdom i = { x with trans := some { target := 0, todo := wakeSteps (s.dom i), start := s.round, req := some r } }) ∧
        (k ≠ 0 → held = true → ∃ t, exec (ask k) s = .next t ∧ t.pdom i = { x with pend := some { r with deferred := true } } ∧
          res t = resultWord tag 0 3 i ∧ t.on (POWER_DOM_STATUS_DEFERRED i) = true ∧ (∀ j, j < 24 → t.dom j = s.dom j))) ∧
      (x.trans ≠ none → held = false → ∀ k : Fin 4, k ≠ 0 → ∃ t, exec (ask k) s = .next t ∧
        t.pdom i = { x with pend := some ⟨k.val, tag % 65536, q.secure, false, false⟩ } ∧ (∀ r, x.pend = some r → res t = resultWord r.tag 0 2 0) ∧
        (x.pend = none → res t = res s) ∧ (∀ j, j < 24 → t.dom j = s.dom j))) ∧
    (s.pwrWriter q = true → s.get POWER_DEV_STATUS_STATE ≤ 1 →
      (x.pend = none → exec (.domReqCancel q i tag) s = .next s) ∧
      (∀ r, x.pend = some r →
        ((r.secure && !q.secure) = false → ∃ t, exec (.domReqCancel q i tag) s = .next t ∧ t.pdom i = { x with pend := none } ∧ res t = resultWord r.tag 0 4 0) ∧
        ((r.secure && !q.secure) = true → ∃ t, exec (.domReqCancel q i tag) s = .next t ∧ t.pdom i = x ∧ res t = resultWord tag 0 7 0))) ∧
    (s.pwrWriter q = false → (∀ k, exec (ask k) s = .next s) ∧ exec (.domReqCancel q i tag) s = .next s)

/-- A device request prepares its agents in order, a refusal ends it with no domain changed, and a wake is never lost. In RUN with no device transition, a
request that no hold defers takes its domains and its agents in the order of Table 14.10, clears the wake latch and the refusals, and changes no
domain; one for the present state completes with OK; one that would take a held domain out of ON is deferred by name. The first agent left that agrees
passes on to the next; one that refuses without PARTIAL_OK ends the request with REFUSED, its REASON and its number, and every domain is as it was;
with PARTIAL_OK it is noted. An agent that has not answered leaves all as it was. A domain's agent that agrees begins the entry steps; one that
refuses, as HOST_ACK or PREP_LIMIT may, ends the request. An enabled wake source sets its latch bit, and outside RUN it begins a wake. Rests on the
choices and readings of the model in log entries 81, 84. (R467; R471; R472; R473; R474; R479; R480; R488) -/
def Obligations.DeviceRequestsPrepareAndWake : Prop :=
  ∀ (s : State),
    let ask : Req → Nat → Bool → Fin 4 → Instr := fun q tag p k =>
      if k = 0 then .devReqRun q tag else if k = 1 then .devReqWatch q tag p else if k = 2 then .devReqSleep q tag p else .devReqHalt q tag p
    (∀ (q : Req) (tag : Nat) (p : Bool) (k : Fin 4), s.holdOf q = none → s.pwrWriter q = true → s.fwRunning 2 = true → s.quiet = false → s.pwr.dev = none → s.pwr.devPend = none →
      (k = 0 → p = false) →
      let r : PReq := ⟨k.val, tag % 65536, q.secure, p, false⟩
      let held := k ≠ 0 ∧ q.secure = false ∧ s.heldFirst k ≠ none
      (k.val = s.get POWER_DEV_STATUS_STATE → ¬held → ∃ t, exec (ask q tag p k) s = .next t ∧ t.rdN POWER_DEV_RESULT = resultWord tag 0 0 0 ∧ t.pwr = s.pwr) ∧
      (k ≠ 0 → s.get POWER_DEV_STATUS_STATE = 0 → ¬held → ((s.devGoals k).filter fun g => g.2 != 0) ≠ [] →
        ∃ t j, exec (ask q tag p k) s = .next t ∧ t.pwr.dev = some j ∧ j.req = r ∧ j.goals = s.devGoals k ∧ j.commit = false ∧ j.agreed = [] ∧
          j.todo = ((s.devGoals k).filter fun g => g.2 != 0).map Prod.fst ∧ t.rdN POWER_WAKE_LATCH = 0 ∧ t.on POWER_DEV_STATUS_BUSY = true ∧
          (∀ i, i < 24 → t.dom i = s.dom i) ∧ t.mem = s.mem) ∧
      (k = 0 → s.get POWER_DEV_STATUS_STATE ≠ 0 → ∃ t j, exec (ask q tag p k) s = .next t ∧ t.pwr.dev = some j ∧ j.req = r ∧ j.commit = true ∧
        t.on POWER_EVENT_WAKE = true) ∧
      (∀ h, k ≠ 0 → q.secure = false → s.heldFirst k = some h → ∃ t, exec (ask q tag p k) s = .next t ∧ t.pwr.dev = none ∧
        t.pwr.devPend = some { r with deferred := true } ∧ t.rdN POWER_DEV_RESULT = resultWord tag 0 3 h ∧ (∀ i, i < 24 → t.dom i = s.dom i))) ∧
    (∀ (q : Req) (tag : Nat), s.holdOf q = none → s.pwrWriter q = true →
      (s.pwr.devPend = none → exec (.devReqCancel q tag) s = .next s) ∧
      (∀ r, s.pwr.devPend = some r → ((r.secure && !q.secure) = false → ∃ t, exec (.devReqCancel q tag) s = .next t ∧ t.pwr = { s.pwr with devPend := none } ∧
        t.rdN POWER_DEV_RESULT = resultWord r.tag 0 4 0))) ∧
    (∀ (i : Fin 27) (j : DevJob) (rest : List Nat), s.pwr.dev = some j → j.commit = false → j.todo = i.val :: rest → (s.pdom i).prep = none →
      (s.agentAnswer i = some none → rest ≠ [] → ∃ t n, exec (.agentAnswer i) s = .next t ∧
        t.pwr.dev = some { j with todo := rest, agreed := i.val :: j.agreed, asked := n } ∧ (∀ d, d < 24 → t.dom d = s.dom d)) ∧
      (∀ a, s.agentAnswer i = some (some a) → j.req.partialOk = false → j.req.tag < 65536 → ∃ t, exec (.agentAnswer i) s = .next t ∧ t.pwr.dev = none ∧
        t.rdN POWER_DEV_RESULT = resultWord j.req.tag a 1 i ∧ t.get POWER_DEV_STATUS_STATE = s.get POWER_DEV_STATUS_STATE ∧ (∀ d, d < 24 → t.dom d = s.dom d)) ∧
      (∀ a, s.agentAnswer i = some (some a) → j.req.partialOk = true → rest ≠ [] → ∃ t n, exec (.agentAnswer i) s = .next t ∧
        t.pwr.dev = some { j with todo := rest, refused := j.refused ++ [(i.val, a)], asked := n } ∧ nbit (t.rdN POWER_DEV_REFUSED) i = true) ∧
      (s.agentAnswer i = none → exec (.agentAnswer i) s = .next s)) ∧
    (∀ (i : Fin 24) (r : PReq) (n : Nat), (s.pdom i).prep = some (r, n) →
      let goes := fun (c : Instr) => ∃ t, exec c s = .next t ∧ (t.pdom i).prep = none ∧
        (t.pdom i).trans = some { target := r.target, todo := entrySteps (s.dom i) r.target, start := s.round, req := some r } ∧ (∀ d, d < 24 → t.dom d = s.dom d)
      let ends := fun (c : Instr) (a : Nat) => ∃ t, exec c s = .next t ∧ (t.pdom i).prep = none ∧ (t.pdom i).trans = (s.pdom i).trans ∧
        t.rdN (POWER_DOM_RESULT i) = resultWord r.tag a 1 i ∧ (∀ d, d < 24 → t.dom d = s.dom d)
      (s.agentAnswer i = some none → goes (.agentAnswer ⟨i.val, by omega⟩)) ∧
      (∀ a, s.agentAnswer i = some (some a) → ends (.agentAnswer ⟨i.val, by omega⟩) a) ∧
      (∀ q, i = 16 → s.holdOf q = none → s.pwrWriter q = true → s.get POWER_DEV_STATUS_STATE ≤ 1 → goes (.hostAckAgree q) ∧ ends (.hostAckRefuse q) 5) ∧
      (n + max 1 (s.act POWER_PREP_LIMIT).toNat ≤ s.round → s.agentAnswer i = none → i.val ≤ 16 → ends (.prepTimeout ⟨i.val, by omega⟩) (if i.val < 16 then 1 else 7)) ∧
      (s.round < n + max 1 (s.act POWER_PREP_LIMIT).toNat → exec (.prepTimeout ⟨i.val, by omega⟩) s = .next s)) ∧
    (∀ src : Fin 8,
      (nbit (s.cfg POWER_WAKE_MASK_SOURCE) src = false → exec (.wakeEvent src) s = .next s) ∧
      (nbit (s.cfg POWER_WAKE_MASK_SOURCE) src = true → s.wakeGiven src = true →
        (s.pwr.dev = none → s.get POWER_DEV_STATUS_STATE = 0 → ∃ t, exec (.wakeEvent src) s = .next t ∧ nbit (t.rdN POWER_WAKE_LATCH) src = true ∧ t.pwr = s.pwr) ∧
        (s.pwr.dev = none → s.get POWER_DEV_STATUS_STATE ≠ 0 → s.quiet = false → ∃ t j, exec (.wakeEvent src) s = .next t ∧ nbit (t.rdN POWER_WAKE_LATCH) src = true ∧
          nbit (t.rdN POWER_WAKE_CAUSE) src = true ∧ t.pwr.dev = some j ∧ j.req.target = 0 ∧ j.commit = true)))

/-- Steps isolate, lower, open and join; voltage requests are acknowledged, settle, retry and fail; pads and holds obey their writers. With the steward
running and no device transition, a step CLAMP makes the domain one that cannot be reached, LOWER of a rail at its retention voltage or of a domain
without a rail gives RETAIN, OPENS gives OFF, and the last JOIN of a return gives ON; a LOWER that has not settled waits. An IDLE request with no work
stops the clocks, and work returns the domain to ON. A held group is released only while its domain is ON, else a NOTE; SEC_HOLD takes the secure
world's value alone. An acknowledgement sets MV and settles for 8 µs; a third attempt without one fails with a DEGRADED error. A raise changes the
clock only after its voltage, a lowering changes it at once, and neither while a unit runs. Rests on the choices and readings of the model in log
entries 79, 82, 83, 138, 143. (R455; R457; R461; R463; R483; R484; R485; R487) -/
def Obligations.StepsVoltagesPadsAndHolds : Prop :=
  ∀ (s : State),
    (∀ (i : Fin 24) (x : Trans) (rest : List PStep), s.fwRunning 2 = true → s.pwr.dev = none → (s.pdom i).trans = some x → x.back = none →
      (x.todo = .clamp :: rest → ∃ t, exec (.transitionStep ⟨i.val, by omega⟩) s = .next t ∧ t.dom i = 2 ∧ (t.pdom i).trans = some { x with todo := rest } ∧
        (∀ j, j < 24 → j ≠ i.val → t.dom j = s.dom j) ∧ t.mem = s.mem) ∧
      (x.todo = .lower :: rest → (16 < i.val ∨ s.avsDone i (retainMv i) = true) → ∃ t, exec (.transitionStep ⟨i.val, by omega⟩) s = .next t ∧ t.dom i = 2 ∧
        t.get (POWER_DOM_STATUS_STATE i) = 2) ∧
      (x.todo = .lower :: rest → i.val ≤ 16 → s.avsDone i (retainMv i) = false → ∃ t, exec (.transitionStep ⟨i.val, by omega⟩) s = .next t ∧ t.dom i = s.dom i ∧
        (t.pdom i).trans = some x) ∧
      (x.todo = .opens :: rest → ∃ t, exec (.transitionStep ⟨i.val, by omega⟩) s = .next t ∧ t.dom i = 3) ∧
      (x.todo = .join :: rest → x.target = 0 → ∃ t, exec (.transitionStep ⟨i.val, by omega⟩) s = .next t ∧ t.dom i = 0) ∧
      (x.todo = [] → exec (.transitionStep ⟨i.val, by omega⟩) s = .next s)) ∧
    (s.fwRunning 2 = false → ∀ i, exec (.transitionStep i) s = .next s) ∧
    (∀ i : Fin 24,
      (∀ r, (s.pdom i).idle = some r →
        (s.domWorks i = false → (i.val = 19 → s.fab.loads = []) → ∃ t, exec (.idleEntry i) s = .next t ∧ t.dom i = 1 ∧ (t.pdom i).idle = none ∧ (∀ j, j < 24 → j ≠ i.val → t.dom j = s.dom j)) ∧
        (s.domWorks i = true → exec (.idleEntry i) s = .next s)) ∧
      (s.dom i = 1 → ∃ t, exec (.idleWake i) s = .next t ∧ t.dom i = 0 ∧ t.pdom i = s.pdom i ∧ t.mem = s.mem) ∧
      (s.dom i ≠ 1 → exec (.idleWake i) s = .next s)) ∧
    (∀ (q : Req) (g : Fin 7), s.holdOf q = none → s.pwrWriter q = true → s.get POWER_DEV_STATUS_STATE ≤ 1 → s.on ERROR_STATUS_SAFE = false →
      let i := [21, 22, 23, 20, 19, 19, 26].getD g 26
      (s.pstate i = 0 → ∃ t, exec (.padRelease q (2 ^ g.val)) s = .next t ∧ nbit (t.rdN POWER_PAD_HOLD) g = false ∧
        (∀ k, k < 7 → k ≠ g.val → nbit (t.rdN POWER_PAD_HOLD) k = nbit (s.rdN POWER_PAD_HOLD) k)) ∧
      (s.pstate i ≠ 0 → ∃ t, exec (.padRelease q (2 ^ g.val)) s = .next t ∧ t.rd POWER_PAD_HOLD = s.rd POWER_PAD_HOLD ∧ t.on ERROR_STATUS_NOTE = true)) ∧
    (∀ (q : Req) (v : Nat), s.holdOf q = none → s.pwrWriter q = true →
      (q.secure = true → ∃ t, exec (.secHoldWrite q v) s = .next t ∧ t.rdN POWER_SEC_HOLD = v % 2 ^ 24 ∧ (∀ i, i < 24 → t.on (POWER_DOM_STATUS_HELD i) = nbit v i)) ∧
      (q.secure = false → ∃ t, exec (.secHoldWrite q v) s = .next t ∧ t.rd POWER_SEC_HOLD = s.rd POWER_SEC_HOLD ∧ t.on ERROR_STATUS_NOTE = true)) ∧
    (∀ (b : Fin 2) (t : Nat),
      (∀ r, (s.avs b).cur = some r → r.dom < 24 → r.mv < 65536 →
        (∃ u, exec (.avsAck b t) s = .next u ∧ u.mv r.dom = r.mv ∧ (u.avs b).cur = none ∧ (u.avs b).settle = some (r.dom, (s.atNs t).now)) ∧
        ((s.atNs t).now < r.issued + 10000 → ∃ u, exec (.avsTimeout b t) s = .next u ∧ u.pwr = s.pwr) ∧
        (r.issued + 10000 ≤ (s.atNs t).now → r.tries < 3 → ∃ u, exec (.avsTimeout b t) s = .next u ∧
          (u.avs b).cur = some { r with issued := (s.atNs t).now, tries := r.tries + 1 } ∧
          u.get (POWER_AVS_STATUS_RETRIES b) = min 0xFFFF (s.get (POWER_AVS_STATUS_RETRIES b) + 1)) ∧
        (r.issued + 10000 ≤ (s.atNs t).now → 3 ≤ r.tries → ∃ u, exec (.avsTimeout b t) s = .next u ∧ u.on ERROR_STATUS_DEGRADED = true ∧
          u.get (POWER_AVS_STATUS_FAILS b) = min 0xFF (s.get (POWER_AVS_STATUS_FAILS b) + 1))) ∧
      ((s.avs b).cur = none → exec (.avsAck b t) s = .next s) ∧
      (∀ x, (s.avs b).settle = some x → x.2 + 8000 ≤ (s.atNs t).now → (s.avs b).queue = [] → ∃ u, exec (.avsSettle b t) s = .next u ∧ (u.avs b).settle = none) ∧
      (∀ x, (s.avs b).settle = some x → (s.atNs t).now < x.2 + 8000 → ∃ u, exec (.avsSettle b t) s = .next u ∧ (u.avs b).settle = some x) ∧
      (∃ u, exec (.hxpStatusAlert b) s = .next u ∧ u.on ERROR_STATUS_DEGRADED = true ∧ u.pwr = s.pwr)) ∧
    (∀ d : Fin 16, s.dom d = 0 → (s.pdom d).trans = none → (s.pdom d).opens = false →
      let dst := s.get (POWER_GOV_STATE_OP d)
      (s.distOp d < dst → s.avsDone d (opMv dst) = true → s.domRuns d = false → ∃ t, exec (.opChange d) s = .next t ∧ t.distOp d = dst) ∧
      (s.distOp d < dst → s.avsDone d (opMv dst) = false → ∃ t, exec (.opChange d) s = .next t ∧ t.distOp d = s.distOp d) ∧
      (dst < s.distOp d → s.domRuns d = false → ∃ t, exec (.opChange d) s = .next t ∧ t.distOp d = dst) ∧
      (dst < s.distOp d → s.domRuns d = true → exec (.opChange d) s = .next s))

/-- A sample shows its reading, checks its sensor, raises its alarm and trips the device. A process monitor takes a sample only while its district is ON.
A voltage sample is valid and reads 0 while its supply is off. A temperature sample shows its reading; one below -55 or above 150 degrees fails the
sensor (FAILED, not VALID), reported as DEGRADED the first time; with a fourth sample in a row more than 20 degrees from its twin both fail; otherwise
a sensor that has not failed is valid, and a second sample in a row of 115.0 degrees or more sets TRIPPED and is FATAL. A fourth sample in a row
outside an enabled alarm pair sets the monitor's ALARM_STATUS bit and is noted, unless the alarm has fired and the reading has not been back for 4
samples. The HXP temperature is shown, and a second read in a row of 125.0 degrees trips the device. Rests on the choices and readings of the model in
log entries 85, 87, 89. (R494; R495; R496; R497; R519) -/
def Obligations.MonitorsSampleAlarmAndTrip : Prop :=
  ∀ (raw : Nat) (s : State),
    (∀ m : Fin 144, 80 ≤ m.val →
      (s.dom ((m - 80) / 4) = 0 → ∃ t, exec (.monitorSample m raw) s = .next t ∧ t.get (MONITOR_PROC_READING (m - 80)) = raw % 65536 ∧ t.on (MONITOR_PROC_VALID (m - 80)) = true ∧
        t.mem = s.mem ∧ t.gov = s.gov) ∧
      (s.dom ((m - 80) / 4) ≠ 0 → exec (.monitorSample m raw) s = .next s)) ∧
    (∀ m : Fin 144, 48 ≤ m.val → m.val < 80 →
      let off := (m.val = 71 ∧ s.memc.dxVin = false) ∨ (m.val = 65 ∧ s.pwr.spine = 3) ∨ (m.val = 68 ∧ s.pwr.watch = 3)
      let v := if off then 0 else raw % 65536
      let out := s.get (MONITOR_ALARM_HI_LEVEL m) < v ∨ v < s.get (MONITOR_ALARM_LO_LEVEL m)
      let bit := fun (t : State) => nbit (t.rdN (MONITOR_ALARM_STATUS (m / 32))) (m % 32)
      ∃ t, exec (.monitorSample m raw) s = .next t ∧ t.get (MONITOR_VOLT_READING (m - 48)) = v ∧ t.on (MONITOR_VOLT_VALID (m - 48)) = true ∧ t.mem = s.mem ∧
        (out → 3 ≤ (s.mon m).out → (s.mon m).fired = false → s.cfgOn (MONITOR_ALARM_HI_EN m) = true → bit t = true ∧ t.on ERROR_STATUS_NOTE = true ∧ (t.mon m).fired = true) ∧
        (out → (s.mon m).out < 3 → bit t = bit s ∧ (t.mon m).out = (s.mon m).out + 1) ∧
        (out → (s.mon m).fired = true → bit t = bit s) ∧
        (¬out → bit t = bit s ∧ (t.mon m).out = 0 ∧ (3 ≤ (s.mon m).inn → (t.mon m).fired = false)) ∧
        (s.cfgOn (MONITOR_ALARM_HI_EN m) = false → bit t = bit s)) ∧
    (∀ m : Fin 144, m.val < 48 →
      let v := tempOf raw
      let twin := if m.val % 2 = 0 then m.val + 1 else m.val - 1
      let far := (s.on (MONITOR_TEMP_VALID twin) = true ∨ s.on (MONITOR_TEMP_FAILED twin) = true) ∧
        (160 < v - tempOf (s.get (MONITOR_TEMP_READING twin)) ∨ 160 < tempOf (s.get (MONITOR_TEMP_READING twin)) - v)
      ∃ t, exec (.monitorSample m raw) s = .next t ∧ t.get (MONITOR_TEMP_READING m) = raw % 65536 ∧ t.mem = s.mem ∧
        ((v < -440 ∨ 1200 < v) → t.on (MONITOR_TEMP_FAILED m) = true ∧ t.on (MONITOR_TEMP_VALID m) = false ∧
          (s.on (MONITOR_TEMP_FAILED m) = false → t.on ERROR_STATUS_DEGRADED = true)) ∧
        (-440 ≤ v → v ≤ 1200 → far → 3 ≤ (s.mon m).pair → t.on (MONITOR_TEMP_FAILED m) = true ∧ t.on (MONITOR_TEMP_FAILED twin) = true ∧
          t.on (MONITOR_TEMP_VALID m) = false ∧ t.on (MONITOR_TEMP_VALID twin) = false) ∧
        (-440 ≤ v → v ≤ 1200 → (¬far ∨ (s.mon m).pair < 3) → s.on (MONITOR_TEMP_FAILED m) = false →
          t.on (MONITOR_TEMP_VALID m) = true ∧ t.on (MONITOR_TEMP_FAILED m) = false ∧
          (920 ≤ v → (s.mon m).trip = 1 → t.on POWER_THERMAL_STATUS_TRIPPED = true ∧ t.on ERROR_STATUS_FATAL = true) ∧
          (v < 920 → t.on POWER_THERMAL_STATUS_TRIPPED = s.on POWER_THERMAL_STATUS_TRIPPED ∧ (t.mon m).trip = 0)) ∧
        (-440 ≤ v → v ≤ 1200 → ¬far → s.on (MONITOR_TEMP_FAILED m) = true →
          (t.on (MONITOR_TEMP_FAILED m) = true ↔ (s.mon m).pass + 1 < 1000))) ∧
    (∃ t, exec (.hxpTempRead raw) s = .next t ∧ t.get MONITOR_HXP_TEMP_TEMP = raw % 65536 ∧ t.mem = s.mem ∧
      (1000 ≤ tempOf raw → s.gov.hxpHot = 1 → t.on POWER_THERMAL_STATUS_TRIPPED = true ∧ t.on ERROR_STATUS_FATAL = true) ∧
      (1000 ≤ tempOf raw → s.gov.hxpHot = 0 → t.gov.hxpHot = 1 ∧ t.on POWER_THERMAL_STATUS_TRIPPED = s.on POWER_THERMAL_STATUS_TRIPPED) ∧
      (tempOf raw < 1000 → t.gov.hxpHot = 0 ∧ t.on POWER_THERMAL_STATUS_TRIPPED = s.on POWER_THERMAL_STATUS_TRIPPED))

/-- The governor lowers the lowest priority and raises the highest, throttling and droop set ceilings, trims move slowly, and every nJ has one account. A
decision is taken only at a multiple of PERIOD while a steward runs, and with at least 10 settled rounds. Over the budget, every item of the lowest
priority above its floor goes one step down, and with none UNREACHABLE is set; within it UNREACHABLE is clear, and every item with demand of the
highest priority below its ceiling goes one step up if P, the rise and the headroom fit the budget; DEMAND shows the districts that had demand. The express district's operating point and duty
never change. A hot sensor's throttle lowers each item's throttle ceiling by one operating point or level, or halves its duty at the lowest; a
restoration gives back duty before operating point. A droop trigger counts and starts a stretch, which its restoration ends; DROOP_RELEASE clears the
bits named. A trim moves toward its ratio by at most 16/4096 within its limits; one without a ratio keeps its value. The parts of a round's estimate
are added to their district's account, which saturates. Rests on the choices and readings of the model in log entries 86, 87, 88, 141. (R499; R501;
R505; R506; R509; R514; R515; R516; R517; R518) -/
def Obligations.GovernorThrottleDroopAndEnergyActAsRuled : Prop :=
  ∀ (s : State),
    (∀ active rise : List Nat, (s.fwRunning 2 = false ∨ s.round % s.govPeriod ≠ 0) → exec (.governorDecision active rise) s = .next s) ∧
    (∀ active rise : List Nat, s.fwRunning 2 = true → s.round % s.govPeriod = 0 →
      let demand := s.govDemand active
      let u := s.govReady demand
      let v := u.putB POWER_CAP_STATUS_UNREACHABLE false
      let same := fun (x t : State) (i : Nat) => t.get (POWER_GOV_STATE_OP i) = x.get (POWER_GOV_STATE_OP i) ∧ t.get (POWER_GOV_STATE_DUTY i) = x.get (POWER_GOV_STATE_DUTY i)
      (s.gov.settled < 10 → exec (.governorDecision active rise) s = .next u) ∧
      (10 ≤ s.gov.settled → ∃ t, exec (.governorDecision active rise) s = .next t ∧ t.get POWER_CAP_STATUS_BUDGET_MW = s.govB % 65536 ∧ t.gov.settled = 0 ∧ t.mem = s.mem ∧
        same s t s.expressDistrict ∧ (∀ d, d < 16 → d ≠ s.expressDistrict → t.on (POWER_GOV_STATE_DEMAND d) = demand.contains d) ∧
        (s.govB < s.govP → (∀ i, i < 18 → u.aboveFloor i = true → i = s.expressDistrict) → t.on POWER_CAP_STATUS_UNREACHABLE = true ∧ ∀ i, i < 16 → same u t i) ∧
        (s.govB < s.govP → ∀ c : Fin 4, u.lowerable c ≠ [] → (∀ k, k < c.val → u.lowerable k = []) →
          (∀ d, d < 16 → d ∈ u.lowerable c →
            (u.opMin d < u.get (POWER_GOV_STATE_OP d) → t.get (POWER_GOV_STATE_OP d) + 1 = u.get (POWER_GOV_STATE_OP d) ∧ t.get (POWER_GOV_STATE_DUTY d) = u.get (POWER_GOV_STATE_DUTY d)) ∧
            (u.get (POWER_GOV_STATE_OP d) ≤ u.opMin d → t.get (POWER_GOV_STATE_OP d) = u.get (POWER_GOV_STATE_OP d) ∧ t.get (POWER_GOV_STATE_DUTY d) + 1 = u.get (POWER_GOV_STATE_DUTY d))) ∧
          (∀ d, d < 16 → d ∉ u.lowerable c → same u t d) ∧
          (16 ∈ u.lowerable c → t.get POWER_HOST_GOV_LEVEL + 1 = u.get POWER_HOST_GOV_LEVEL) ∧ (17 ∈ u.lowerable c → t.get POWER_MEDIA_GOV_DUTY + 1 = u.get POWER_MEDIA_GOV_DUTY)) ∧
        (s.govP ≤ s.govB → t.on POWER_CAP_STATUS_UNREACHABLE = false ∧
          ((∀ c, c < 4 → v.raisable demand c = []) → ∀ d, d < 16 → same u t d) ∧
          (∀ c : Fin 4, v.raisable demand c ≠ [] → (∀ k, c.val < k → k < 4 → v.raisable demand k = []) →
            (s.govB < s.govP + rise.getD c 0 + s.get POWER_GOV_CTRL_HEADROOM_MW → ∀ d, d < 16 → same u t d) ∧
            (s.govP + rise.getD c 0 + s.get POWER_GOV_CTRL_HEADROOM_MW ≤ s.govB → ∀ d, d < 16 → d ∈ v.raisable demand c →
              (u.get (POWER_GOV_STATE_DUTY d) < (u.throt d).duty → t.get (POWER_GOV_STATE_DUTY d) = (u.get (POWER_GOV_STATE_DUTY d) + 1) % 16 ∧
                t.get (POWER_GOV_STATE_OP d) = u.get (POWER_GOV_STATE_OP d)) ∧
              ((u.throt d).duty ≤ u.get (POWER_GOV_STATE_DUTY d) → t.get (POWER_GOV_STATE_OP d) = u.get (POWER_GOV_STATE_OP d) + 1)))))) ∧
    (∀ m : Fin 48,
      let x := s.mon m
      ((s.on (MONITOR_TEMP_VALID m) = false ∨ x.hot = none ∨ (∃ n, x.stepped = some n ∧ s.round < n + 100)) → exec (.throttleStep m) s = .next s) ∧
      (s.on (MONITOR_TEMP_VALID m) = true → x.hot ≠ none → (∀ n, x.stepped = some n → n + 100 ≤ s.round) → ∃ t, exec (.throttleStep m) s = .next t ∧
        (t.mon m).stepped = some s.round ∧ t.mem = s.mem ∧ t.get (POWER_GOV_STATE_OP s.expressDistrict) = s.get (POWER_GOV_STATE_OP s.expressDistrict) ∧
        (∀ i, i ∈ s.throttled m → t.throt i = lowerThrot i m (s.atLowest i) (s.throt i)) ∧ (∀ i, i ∉ s.throttled m → t.throt i = s.throt i) ∧
        (∀ d, d < 16 → s.governed d = true → t.get (POWER_GOV_STATE_OP d) = min (t.ceilOf d) (s.get (POWER_GOV_STATE_OP d))))) ∧
    (∀ i : Fin 18,
      let x := s.throt i
      ((x.op = 3 ∧ x.duty = 8) ∨ s.round < x.restored + 1000 → exec (.throttleRestore i) s = .next s) ∧
      (x.restored + 1000 ≤ s.round → (∀ m ∈ x.by_, ∃ n, (s.mon m).cool = some n ∧ n + 1000 ≤ s.round) →
        (x.duty < 8 → ∃ t, exec (.throttleRestore i) s = .next t ∧ (t.throt i).duty = min 8 (2 * x.duty) ∧ (t.throt i).op = x.op ∧ t.mem = s.mem) ∧
        (x.duty = 8 → x.op < 3 → ∃ t, exec (.throttleRestore i) s = .next t ∧ (t.throt i).duty = 8 ∧ (t.throt i).op = x.op + 1 ∧ t.mem = s.mem))) ∧
    (∀ (i : Fin 19) (t : Nat),
      (∃ u, exec (.droopTrigger i t) s = .next u ∧ u.rdN (POWER_DROOP_COUNT i) = min (s.rdN (POWER_DROOP_COUNT i) + 1) 0xFFFFFFFF ∧ u.mem = s.mem ∧
        ((s.droop i).since = none → (u.droop i).since = some (s.atNs t).now) ∧ (∀ n, (s.droop i).since = some n → (u.droop i).since = some n)) ∧
      ((s.droop i).since = none → exec (.droopRestore i t) s = .next s) ∧
      (∀ n, (s.droop i).since = some n → ∃ u, exec (.droopRestore i t) s = .next u ∧ (u.droop i).since = none ∧
        (u.droop i).spans = (s.droop i).spans ++ [(n, (s.atNs t).now)])) ∧
    (∀ (q : Req) (v : Nat), s.holdOf q = none →
      (q.pfOrHost = true → s.pwrWriter q = true → ∃ t, exec (.droopRelease q v) s = .next t ∧ t.mem = s.mem ∧
        ∀ d, d < 16 → t.on (POWER_GOV_STATE_DROOP_LIMITED d) = (s.on (POWER_GOV_STATE_DROOP_LIMITED d) && !nbit v d)) ∧
      (q.pfOrHost = false → exec (.droopRelease q v) s = .next s)) ∧
    (∀ ratios : List (Option Nat), ratios.length = 17 → (s.fwRunning 2 = false → exec (.trimUpdate ratios) s = .next s) ∧
      (s.fwRunning 2 = true → ∃ t, exec (.trimUpdate ratios) s = .next t ∧ t.mem = s.mem ∧ ∀ i : Fin 17,
        let old := s.get (MONITOR_MODEL_TRIM_TRIM i)
        let new := t.get (MONITOR_MODEL_TRIM_TRIM i)
        (ratios[i.val]? = some none → new = old) ∧
        (∀ r, ratios[i.val]? = some (some r) → 0xE00 ≤ new ∧ new ≤ 0x1200 ∧ (0xE00 ≤ old → old ≤ 0x1200 → new ≤ old + 16 ∧ old ≤ new + 16 ∧
          (0xE00 ≤ r → r ≤ 0x1200 → (new = r ∨ (r < new ∧ new + 16 = old) ∨ (new < r ∧ new = old + 16))))))) ∧
    (∀ (parts : List EnergyPart) (d : Fin 16), (∀ e ∈ parts, e.wf = true) →
      (s.energyRound parts).rdN (MONITOR_ENERGY_DIST d) =
        min (s.rdN (MONITOR_ENERGY_DIST d) + ((parts.filter fun e => e.acct == d.val).map fun e => e.nj).sum) (2 ^ 64 - 1))

/-- Secure start takes the candidates in order, starts the first that verifies, counts its trial, and extends the seals. With the supply up, after a
power-on reset seal 0 takes the root sector's digest and then that of fuse words 0 to 67; a runtime that is CONFIRMED and passes every check becomes
the started slot and extends seal 1, and with no candidate BOOT_STATE is NO_IMAGE and a DEGRADED error is reported. After a reset of the host cores
the first boot-stage candidate is copied to boot SRAM: if it fails a check, or its third attempt has failed, it is STALE, and with no other candidate
there is no image; otherwise its slot is started, seal 2 is extended with its image's digest and core 0 is released: a VALID slot becomes TRIAL with
attempt count 1, a TRIAL slot counts one more, and a CONFIRMED one above the counter raises it. Otherwise nothing happens. Rests on the choices and
readings of the model in log entries 90, 94, 97. (R534; R535; R537; R538; R540) -/
def Obligations.SecureStartChoosesVerifiesAndCounts : Prop :=
  ∀ (root : Bytes) (s : State),
    ((s.boot.supply ≠ .up ∨ s.boot.resetLow = true ∨ 2 ≤ s.trust.stage) → exec (.secureStart root) s = .next s) ∧
    (s.boot.supply = .up → s.boot.resetLow = false → s.trust.seals.length = 8 →
      (s.trust.stage = 0 →
        let fuses := (List.range 68).flatMap fun w => leBytes 4 (s.rdN (SECURE_FUSE w))
        (s.candidates 0 = [] → ∃ t, exec (.secureStart root) s = .next t ∧ t.get SECURE_STATUS_BOOT_STATE = 2 ∧ t.on ERROR_STATUS_DEGRADED = true ∧ t.started 0 = none ∧
          t.sealOf 0 = sha384 (sha384 (s.sealOf 0 ++ root.take 48) ++ sha384 fuses) ∧ t.sealOf 1 = s.sealOf 1 ∧ t.mem = s.mem ∧
          t.on GLOBAL_BOOT_STATUS_HOST_RELEASED = s.on GLOBAL_BOOT_STATUS_HOST_RELEASED) ∧
        (∀ (sl : Fin 2) (rest : List Nat), s.candidates 0 = sl.val :: rest → s.slotSt 0 sl = .confirmed → imgVersion (s.slotHeader 0 sl) ≤ s.counter 0 →
          s.slotBad 0 sl = true ∨ ∃ t, exec (.secureStart root) s = .next t ∧ t.started 0 = some sl.val ∧ t.get SECURE_STATUS_RUNTIME_SLOT = sl.val ∧
            t.sealOf 1 = sha384 (s.sealOf 1 ++ imgDigest (s.slotHeader 0 sl)) ∧ t.trust.flash = s.trust.flash)) ∧
      (s.trust.stage = 1 →
        (s.candidates 1 = [] → ∃ t, exec (.secureStart root) s = .next t ∧ t.get SECURE_STATUS_BOOT_STATE = 2 ∧ t.on ERROR_STATUS_DEGRADED = true ∧ t.started 1 = none ∧
          Safety.Unsealed s t ∧ t.mem = s.mem ∧ t.on GLOBAL_BOOT_STATUS_HOST_RELEASED = s.on GLOBAL_BOOT_STATUS_HOST_RELEASED) ∧
        (∀ (sl : Fin 2) (rest : List Nat), s.candidates 1 = sl.val :: rest →
          ∃ t, exec (.secureStart root) s = .next t ∧
            let v := imgVersion (s.slotHeader 1 sl)
            let n := recAttempts (s.slotRec 1 sl)
            if s.slotBad 1 sl = true ∨ (s.slotSt 1 sl = .trial ∧ n = 3) then
              t.slotSt 1 sl = .stale ∧ t.on ERROR_STATUS_DEGRADED = true ∧ (rest = [] → t.get SECURE_STATUS_BOOT_STATE = 2 ∧ t.started 1 = none ∧ Safety.Unsealed s t)
            else
              t.get SECURE_STATUS_BOOT_STATE = 1 ∧ t.on GLOBAL_BOOT_STATUS_HOST_RELEASED = true ∧ t.get SECURE_STATUS_BOOT_SLOT = sl.val ∧ t.started 1 = some sl.val ∧
              t.sealOf 2 = sha384 (s.sealOf 2 ++ imgDigest (s.slotHeader 1 sl)) ∧ t.mem = (s.loadBoot sl).mem ∧ t.trust.flash = s.trust.flash ∧
              (s.slotSt 1 sl = .valid → fieldLE (s.slotRec 1 sl) 0x15 1 = 0xFF → t.slotSt 1 sl = .trial ∧ recAttempts (t.slotRec 1 sl) = 1) ∧
              (s.slotSt 1 sl = .trial → t.slotSt 1 sl = .trial ∧ recAttempts (t.slotRec 1 sl) = n + 1) ∧
              (s.slotSt 1 sl = .confirmed → t.slotSt 1 sl = .confirmed ∧ t.counter 1 = max (s.counter 1) v))))

/-- GO holds a message whole, mailbox 0 goes first, and each query or extension is answered by its rules. GO by a requester of the mailbox holds the
message as written and sets BUSY; while BUSY it is discarded with a NOTE, as is a normal-world GO of mailbox 0. A message that the root takes is
answered with its OP, TAG, STATUS and RESULT, DONE is set and the mailbox is free: GET_INFO gives the lifecycle, flags, slots, versions and log
length; QUOTE stores the quote at OUT_ADDR, and completes with STATE in RETURNED; GET_CERT stores the certificate; READ_LOG stores the entries named;
EXTEND extends seal 7, or seal 3 from mailbox 0, and is DENIED for any other; VERIFY_IMAGE verifies a type-3 image and extends seal 3 when asked;
RAISE_COUNTER never lowers a counter. The secure world's acknowledgement, or 20 rounds, ends a thermal notification. Rests on the choices and readings
of the model in log entries 91, 92, 93. (R540; R541; R542; R544; R546; R547; R548; R549; R556) -/
def Obligations.MailboxAnswersQueriesAndExtendsSeals : Prop :=
  ∀ (s : State),
    (∀ (q : Req) (k : Fin 2), s.path q = true → s.holdOf q = none →
      (((k = 0 ∧ q.secure = true) ∨ (k = 1 ∧ q.secure = false ∧ q.pfOrHost = true)) →
        (s.on (SECURE_MB_STATUS_BUSY k) = false → ∃ t, exec (.mbGo q k) s = .next t ∧
          t.mbHeld k = some ⟨min q.fn 18, (List.range 64).flatMap fun i => leBytes 4 (s.rdN (SECURE_MB_REQ k i))⟩ ∧ t.on (SECURE_MB_STATUS_BUSY k) = true ∧
          t.on (SECURE_MB_CTRL_GO k) = true ∧ t.mem = s.mem ∧ t.mbHeld (1 - k) = s.mbHeld (1 - k)) ∧
        (s.on (SECURE_MB_STATUS_BUSY k) = true → ∃ t, exec (.mbGo q k) s = .next t ∧ t.trust = s.trust ∧ t.on ERROR_STATUS_NOTE = true)) ∧
      (k = 0 → q.secure = false → ∃ t, exec (.mbGo q k) s = .next t ∧ t.trust = s.trust ∧ t.on ERROR_STATUS_NOTE = true)) ∧
    (s.trust.seals.length = 8 → s.trust.log.length < 1024 → ∀ (k : Fin 2) (m : MbMsg),
      (Safety.Held k m 1 8 s → ∃ t, exec (.getInfo k) s = .next t ∧ Safety.Unsealed s t ∧ t.mem = s.mem ∧
        Safety.Answered k m 0 0 (leBytes 1 (s.rdN (SECURE_FUSE 4) % 16) ++ leBytes 1 s.trustFlags ++ leBytes 1 (s.get SECURE_STATUS_RUNTIME_SLOT) ++
          leBytes 1 (s.get SECURE_STATUS_BOOT_SLOT) ++ leBytes 4 (verOf s.trust.runtime) ++ leBytes 4 (verOf s.trust.bootStage) ++ leBytes 4 s.trust.log.length) t) ∧
      (Safety.Held k m 2 56 s → m.zero 0x29 7 = true → ∀ ec ml : Bytes,
        let b := s.quote ((m.bytes.drop 8).take 32) (m.f 0x28 1) ec ml
        (s.rdN (SECURE_FUSE 4) % 16 = 7 → ∃ t, exec (.quote k ec ml) s = .next t ∧ Safety.Answered k m 9 0 [] t ∧ t.mem = s.mem) ∧
        (s.rdN (SECURE_FUSE 4) % 16 ≠ 7 → s.fnCheck m.fn (m.f 0x30 8) (max 1 b.length) = none → ∃ t, exec (.quote k ec ml) s = .next t ∧
          Safety.Answered k m 0 0 [] t ∧ t.mem = (s.store (m.f 0x30 8) b).mem ∧ Safety.Unsealed s t)) ∧
      (Safety.Held k m 3 24 s → m.zero 0x14 4 = true → s.trust.certGone = false → ∀ cert : Bytes, cert.length ≤ m.f 0x10 4 →
        s.fnCheck m.fn (m.f 8 8) (max 1 cert.length) = none → ∃ t, exec (.getCert k cert) s = .next t ∧ Safety.Answered k m 0 cert.length [] t ∧
          t.mem = (s.store (m.f 8 8) cert).mem) ∧
      (Safety.Held k m 4 24 s →
        let es := (s.trust.log.drop (m.f 8 4)).take (m.f 0xC 4)
        s.fnCheck m.fn (m.f 0x10 8) (max 1 (logFrom (m.f 8 4) es).length) = none → ∃ t, exec (.readLog k) s = .next t ∧ Safety.Answered k m 0 es.length [] t ∧
          t.mem = (s.store (m.f 0x10 8) (logFrom (m.f 8 4) es)).mem ∧ Safety.Unsealed s t) ∧
      (Safety.Held k m 5 64 s → m.zero 9 7 = true → m.f 8 1 ≤ 7 → ∃ t, exec (.extend k) s = .next t ∧ t.mem = s.mem ∧ (∀ o, o / 0x10000 ≠ 0xC0 → t.rd o = s.rd o) ∧
        ((m.f 8 1 = 7 ∨ (m.f 8 1 = 3 ∧ k = 0)) → Safety.Answered k m 0 0 [] t ∧ Safety.Sealed (m.f 8 1) ((m.bytes.drop 0x10).take 48) 5 s t) ∧
        (m.f 8 1 ≠ 7 → ¬(m.f 8 1 = 3 ∧ k = 0) → Safety.Answered k m 2 0 [] t ∧ Safety.Unsealed s t)) ∧
      (Safety.Held 0 m 6 24 s → m.f 0x10 1 ≤ 1 → m.zero 0x11 7 = true → ∀ h, s.fnRead m.fn (m.f 8 8) 0x1800 = .ok h → ∃ t, exec .verifyImage s = .next t ∧ t.mem = s.mem ∧
        match s.imgVerify 3 (2 ^ 32) h (s.fnRead m.fn (m.f 8 8 + 0x1800)) with
        | .ok _ => Safety.Answered 0 m 0 0 [] t ∧ (m.f 0x10 1 = 1 → Safety.Sealed 3 (imgDigest h) 3 s t) ∧ (m.f 0x10 1 = 0 → Safety.Unsealed s t)
        | .error e => Safety.Answered 0 m e.1 0 [] t ∧ Safety.Unsealed s t) ∧
      (Safety.Held 0 m 8 16 s → 1 ≤ m.f 8 1 → m.f 8 1 ≤ 63 → m.zero 9 3 = true → ∃ t, exec .raiseCounter s = .next t ∧ t.mem = s.mem ∧
        (∀ i, i < 64 → i ≠ m.f 8 1 → t.counter i = s.counter i) ∧
        (s.worn = true → Safety.Answered 0 m 12 0 [] t ∧ t.counter (m.f 8 1) = s.counter (m.f 8 1)) ∧
        (s.worn = false → s.counter (m.f 8 1) ≤ m.f 0xC 4 → Safety.Answered 0 m 0 0 [] t ∧ t.counter (m.f 8 1) = m.f 0xC 4 ∧ Safety.Sealed 6 m.digest 8 s t) ∧
        (s.worn = false → m.f 0xC 4 < s.counter (m.f 8 1) → Safety.Answered 0 m 6 0 [] t ∧ t.counter (m.f 8 1) = s.counter (m.f 8 1) ∧ Safety.Unsealed s t))) ∧
    (s.on ERROR_STATUS_SAFE = false →
      let ends := fun (t : State) => t.err.notify = none ∧ t.mem = s.mem ∧ ∀ e, s.err.entry = some e → e.code = Code.THERMAL_TRIP → t.err.entry = some { e with due := true }
      (∀ (q : Req) (n : Nat), s.path q = true → s.holdOf q = none → s.err.notify = some n →
        (q.secure = true → ∃ t, exec (.thermalNotifyAck q) s = .next t ∧ ends t ∧ t.on SECURE_SEC_NOTIFY_THERMAL = false) ∧
        (q.secure = false → ∃ t, exec (.thermalNotifyAck q) s = .next t ∧ t.rd SECURE_SEC_NOTIFY = s.rd SECURE_SEC_NOTIFY ∧ t.err.notify = some n ∧ t.on ERROR_STATUS_NOTE = true) ∧
        (n + 20 ≤ s.round → ∃ t, exec .thermalNotifyTimeout s = .next t ∧ ends t) ∧
        (s.round < n + 20 → exec .thermalNotifyTimeout s = .next s)) ∧
      (s.err.notify = none → exec .thermalNotifyTimeout s = .next s))

/-- A confirmation, a runtime update and the NOR messages change slots and flash only as the records allow. CONFIRM_SLOT of a started slot in TRIAL makes
it CONFIRMED, raises its counter to VERSION if that is higher, and marks the other slot STALE; for a slot already CONFIRMED it changes nothing, and
for any other state it completes with STATE. RUNTIME_UPDATE with a CONFIRMED started runtime verifies the image and leaves the other slot VALID with
the started slot's sequence plus one. NOR_READ stores the NOR's bytes at ADDR. NOR_ERASE of aligned sectors that do not meet the started slot leaves
0xFF there and nothing else changed; one that meets it completes with STATE. An allowed NOR_PROGRAM clears bits and sets none, one that is not allowed
completes with STATE, and a worn protected sector gives WORN. Rests on the choices and readings of the model in log entries 95, 97. (R546; R550; R579;
R580; R581; R582) -/
def Obligations.SlotsAndNorChangeOnlyAsAllowed : Prop :=
  ∀ (s : State) (m : MbMsg),
    (Safety.Held 0 m 9 16 s → m.zero 9 7 = true → ∀ (p sl : Fin 2), m.f 8 1 = p.val → ∃ t, exec .confirmSlot s = .next t ∧ t.mem = s.mem ∧
      (s.worn = true → Safety.Answered 0 m 12 0 [] t ∧ t.rom p = s.rom p) ∧
      (s.worn = false → s.started p = none → Safety.Answered 0 m 9 0 [] t ∧ t.rom p = s.rom p) ∧
      (s.worn = false → s.started p = some sl.val →
        (s.slotSt p sl = .confirmed → Safety.Answered 0 m 0 0 [] t ∧ t.rom p = s.rom p ∧ t.counter p = s.counter p) ∧
        (s.slotSt p sl = .trial → Safety.Answered 0 m 0 0 [] t ∧ t.slotSt p sl = .confirmed ∧ t.counter p = max (s.counter p) (imgVersion (s.slotHeader p sl)) ∧
          (t.slotSt p (1 - sl.val) = .stale ∨ t.slotSt p (1 - sl.val) = .empty) ∧ t.rom (1 - p.val) = s.rom (1 - p.val)) ∧
        (s.slotSt p sl ≠ .confirmed → s.slotSt p sl ≠ .trial → Safety.Answered 0 m 9 0 [] t ∧ t.rom p = s.rom p))) ∧
    (Safety.Held 0 m 0xA 16 s → ∀ (sl : Fin 2) (h : Bytes), s.started 0 = some sl.val → s.fnRead m.fn (m.f 8 8) 0x1800 = .ok h → ∃ t, exec .runtimeUpdate s = .next t ∧
      t.mem = s.mem ∧ t.trust.nor = s.trust.nor ∧
      (s.worn = true → Safety.Answered 0 m 12 0 [] t ∧ t.trust.flash = s.trust.flash) ∧
      (s.worn = false → s.slotSt 0 sl ≠ .confirmed → Safety.Answered 0 m 9 0 [] t ∧ t.trust.flash = s.trust.flash) ∧
      (s.worn = false → s.slotSt 0 sl = .confirmed → match s.imgVerify 1 0x1BE800 h (s.fnRead m.fn (m.f 8 8 + 0x1800)) with
        | .ok _ => Safety.Answered 0 m 0 0 [] t ∧ t.slotSt 0 (1 - sl.val) = .valid ∧ recSeq (t.slotRec 0 (1 - sl.val)) = (recSeq (s.slotRec 0 sl) + 1) % 2 ^ 32 ∧
          t.slotRec 0 sl = s.slotRec 0 sl
        | .error e => Safety.Answered 0 m e.1 0 [] t ∧ t.trust.flash = s.trust.flash)) ∧
    (Safety.Held 0 m 0xB 24 s → m.f 8 4 + m.f 0xC 4 ≤ 0x4000000 → s.fnCheck m.fn (m.f 0x10 8) (max 1 (m.f 0xC 4)) = none → ∃ t, exec .norRead s = .next t ∧
      Safety.Answered 0 m 0 0 [] t ∧ t.mem = (s.store (m.f 0x10 8) (romBytes s.trust.nor (m.f 8 4) (m.f 0xC 4))).mem ∧ t.trust.nor = s.trust.nor) ∧
    (Safety.Held 0 m 0xC 16 s → m.f 8 4 % 0x10000 = 0 → m.f 8 4 + 0x10000 * m.f 0xC 4 ≤ 0x4000000 →
      let a := m.f 8 4
      let n := 0x10000 * m.f 0xC 4
      (s.meetsStarted a n = true → ∃ t, exec (.norErase none) s = .next t ∧ Safety.Answered 0 m 9 0 [] t ∧ t.trust.nor = s.trust.nor ∧ t.mem = s.mem) ∧
      (s.meetsStarted a n = false → (∀ sl, s.started 1 = some sl → s.slotSt 1 sl ≠ .trial) → ∃ t, exec (.norErase none) s = .next t ∧ Safety.Answered 0 m 0 0 [] t ∧
        t.mem = s.mem ∧ ∀ x, SMap.get erased t.trust.nor x = if a ≤ x ∧ x < a + n then 0xFF else SMap.get erased s.trust.nor x)) ∧
    (Safety.Held 0 m 0xD 24 s → m.f 8 4 % 256 = 0 → m.f 0xC 4 % 256 = 0 → m.f 8 4 + m.f 0xC 4 ≤ 0x4000000 →
      let a := m.f 8 4
      ∀ b, s.fnRead m.fn (m.f 0x10 8) (m.f 0xC 4) = .ok b →
        (s.programOk a b = false → ∃ t, exec (.norProgram none) s = .next t ∧ Safety.Answered 0 m 9 0 [] t ∧ t.trust.nor = s.trust.nor) ∧
        (s.programOk a b = true → ∃ t, exec (.norProgram none) s = .next t ∧ Safety.Answered 0 m 0 0 [] t ∧ t.mem = s.mem ∧
          (∀ i, i < b.length → SMap.get erased t.trust.nor (a + i) = SMap.get erased s.trust.nor (a + i) &&& b.getD i 0) ∧
          (∀ x, (x < a ∨ a + b.length ≤ x) → SMap.get erased t.trust.nor x = SMap.get erased s.trust.nor x)))

/-- Guard messages write the standby bank whole, keys change state, and fuses only rise, each with seal 6 or 5. GUARD_WRITE of a valid standby bank with
no switch armed writes its period and all 16 windows, and an invalid one nothing; GUARD_SWITCH is REFUSED without valid time, with N too near or with
an invalid standby bank; GUARD_ARM writes ARMED and PTP_GAP_MS for the next boundary, but arms nothing in the safe state. KEY_INSTALL makes a slot
that is not ACTIVE ACTIVE with its key, and KEY_REVOKE makes one REVOKED with none, once no load with the slot is in progress. FABRIC_APPROVE replaces one region's list. An OWNER_ENROLL that
verifies programs the owner digest, OWNER_SET and OWNED, and with a failed read-back leaves word 4 alone; REVOKE_VENDOR_KEY sets one revocation fuse;
DEBUG_UNLOCK opens what its body names; LIFECYCLE_RETURN erases the keys and lists and gives RETURNED. Each completion extends its seal. Rests on the
choices and readings of the model in log entries 96, 98. (R533; R541; R551; R552; R553; R554) -/
def Obligations.GuardKeysApprovalsAndFusesObeyTheRoot : Prop :=
  ∀ (s : State) (m : MbMsg), s.trust.seals.length = 8 → s.trust.log.length < 1024 →
    (Safety.Held 0 m 0x10 144 s → m.zero 0xA 2 = true → m.f 0xC 4 ≤ 0xFFFF → ∀ (p b : Fin 2), m.f 8 1 = p.val → m.f 9 1 = b.val →
      let raws := (List.range 16).map fun w => m.f (0x10 + 8 * w) 8
      raws.all winFields = true → ∃ t, exec .guardWrite s = .next t ∧ t.mem = s.mem ∧
        (∀ w, w < 16 → t.rd (CPORT_GUARD_WIN p (1 - b.val) w) = s.rd (CPORT_GUARD_WIN p (1 - b.val) w)) ∧
        (s.guardBank p = b.val ∨ s.on (CPORT_GUARD_CTRL_SWITCH_PENDING p) = true → Safety.Answered 0 m 9 0 [] t ∧ Safety.Unsealed s t ∧
          ∀ w, w < 16 → t.rd (CPORT_GUARD_WIN p b w) = s.rd (CPORT_GUARD_WIN p b w)) ∧
        (s.guardBank p ≠ b.val → s.on (CPORT_GUARD_CTRL_SWITCH_PENDING p) = false →
          (winsValid (m.f 0xC 4 + 1) raws = false → Safety.Answered 0 m 10 0 [] t ∧ Safety.Unsealed s t ∧ ∀ w, w < 16 → t.rd (CPORT_GUARD_WIN p b w) = s.rd (CPORT_GUARD_WIN p b w)) ∧
          (winsValid (m.f 0xC 4 + 1) raws = true → Safety.Answered 0 m 0 0 [] t ∧ Safety.Sealed 6 m.digest 0x10 s t ∧ t.rdN (CPORT_GUARD_PERIOD p b) = m.f 0xC 4 ∧
            ∀ w, w < 16 → t.rdN (CPORT_GUARD_WIN p b w) = m.f (0x10 + 8 * w) 8))) ∧
    (Safety.Held 0 m 0x11 24 s → m.zero 9 7 = true → ∀ p : Fin 2, m.f 8 1 = p.val → ∃ t, exec .guardSwitch s = .next t ∧ t.mem = s.mem ∧
      let ok := s.on ROUND_STATUS_TIME_VALID = true ∧ s.netRound + 10 ≤ (m.f 0x10 8 : Int) ∧ s.bankValid p (1 - s.guardBank p) = true
      (¬ok → Safety.Answered 0 m 10 0 [] t ∧ t.rd (CPORT_GUARD_SWITCH p) = s.rd (CPORT_GUARD_SWITCH p) ∧ Safety.Unsealed s t) ∧
      (ok → s.on (CPORT_GUARD_CTRL_SWITCH_PENDING p) = true → Safety.Answered 0 m 9 0 [] t ∧ t.rd (CPORT_GUARD_SWITCH p) = s.rd (CPORT_GUARD_SWITCH p)) ∧
      (ok → s.on (CPORT_GUARD_CTRL_SWITCH_PENDING p) = false → Safety.Answered 0 m 0 0 [] t ∧ t.rdN (CPORT_GUARD_SWITCH p) = m.f 0x10 8 ∧
        t.on (CPORT_GUARD_CTRL_SWITCH_PENDING p) = true ∧ Safety.Sealed 6 m.digest 0x11 s t)) ∧
    (Safety.Held 0 m 0x12 16 s → m.zero 0xB 5 = true → m.f 9 1 ≤ 1 → ∀ p : Fin 2, m.f 8 1 = p.val → ∃ t, exec .guardArm s = .next t ∧ t.mem = s.mem ∧
      t.cfg (CPORT_GUARD_CTRL_ARMED p) = s.cfg (CPORT_GUARD_CTRL_ARMED p) ∧
      (m.f 9 1 = 1 → s.on ERROR_STATUS_SAFE = true → Safety.Answered 0 m 9 0 [] t ∧ t.rd (CPORT_GUARD_CTRL p) = s.rd (CPORT_GUARD_CTRL p)) ∧
      ((m.f 9 1 = 0 ∨ s.on ERROR_STATUS_SAFE = false) → Safety.Answered 0 m 0 0 [] t ∧ t.get (CPORT_GUARD_CTRL_ARMED p) = m.f 9 1 ∧
        t.get (CPORT_GUARD_CTRL_PTP_GAP_MS p) = m.f 0xA 1 ∧ Safety.Sealed 6 m.digest 0x12 s t)) ∧
    (∀ i : Fin 16, m.f 8 1 = i.val →
      let key := fun (t : State) (j : Nat) => SMap.get (fun _ => none) t.trust.keys j
      (Safety.Held 0 m 0x20 48 s → m.zero 9 3 = true → ∃ t, exec .keyInstall s = .next t ∧ t.mem = s.mem ∧
        (∀ j, j < 16 → j ≠ i.val → t.keyState j = s.keyState j ∧ key t j = key s j) ∧
        (s.keyState i = 1 → Safety.Answered 0 m 9 0 [] t ∧ t.keyState i = 1 ∧ key t i = key s i) ∧
        (s.keyState i ≠ 1 → Safety.Answered 0 m 0 0 [] t ∧ t.keyState i = 1 ∧ key t i = some (m.f 0xC 4, (m.bytes.drop 0x10).take 32))) ∧
      (Safety.Held 0 m 0x21 16 s → s.slotLoads i = true → exec .keyRevoke s = .next s) ∧
      (Safety.Held 0 m 0x21 16 s → m.zero 9 7 = true → s.slotLoads i = false → ∃ t, exec .keyRevoke s = .next t ∧ t.mem = s.mem ∧ Safety.Answered 0 m 0 0 [] t ∧ t.keyState i = 2 ∧ key t i = none ∧
        (∀ j, j < 16 → j ≠ i.val → t.keyState j = s.keyState j ∧ key t j = key s j) ∧ Safety.Sealed 6 m.digest 0x21 s t)) ∧
    (Safety.Held 0 m 0x22 24 s → m.zero 9 7 = true → ∀ (g : Fin 8) (h : Bytes), m.f 8 1 = g.val → s.fnRead m.fn (m.f 0x10 8) 0x1800 = .ok h → ∃ t, exec .fabricApprove s = .next t ∧
      let list := fun (t : State) (j : Nat) => SMap.get (fun _ => []) t.fab.approved j
      match s.imgVerify 5 3080 h (s.fnRead m.fn (m.f 0x10 8 + 0x1800)) with
      | .ok b => if b.length = 8 + 48 * fieldLE b 1 1 ∧ fieldLE b 1 1 ≤ 64 ∧ zeroAt b 2 6 = true ∧ fieldLE b 0 1 = g.val then
          Safety.Answered 0 m 0 0 [] t ∧ list t g = rowsOf (b.drop 8) 48 ∧ (∀ j, j ≠ g.val → list t j = list s j) ∧ Safety.Sealed 5 (imgDigest h) 5 s t
        else Safety.Answered 0 m 3 0 [] t ∧ t.fab = s.fab
      | .error e => Safety.Answered 0 m e.1 0 [] t ∧ t.fab = s.fab) ∧
    (∀ (readOk : Bool) (h : Bytes), s.fnRead m.fn (m.f 8 8) 0x1800 = .ok h →
      let w := s.rdN (SECURE_FUSE 4)
      let body := s.fnRead m.fn (m.f 8 8 + 0x1800)
      (Safety.Held 0 m 0x30 16 s → w % 16 = 1 → (∀ j, j < 12 → s.rdN (SECURE_FUSE (56 + j)) = 0) → ∃ t, exec (.ownerEnroll readOk) s = .next t ∧ t.mem = s.mem ∧
        match s.imgVerify 6 1 h body with
        | .ok b => b.length = 1 → if readOk = true then
            Safety.Answered 0 m 0 0 [] t ∧ (∀ j, j < 12 → t.rdN (SECURE_FUSE (56 + j)) = fieldLE (sha384 ((h.drop 0x100).take 0x800)) (4 * j) 4) ∧
            t.on SECURE_STATUS_OWNER_SET = true ∧ t.get SECURE_STATUS_LIFECYCLE = 2 ∧ t.rdN (SECURE_FUSE 4) = w ||| (2 ^ 12 + fieldLE b 0 1 % 2 * 2 ^ 13 + 2) ∧
            Safety.Sealed 6 (imgDigest h) 6 s t
          else Safety.Answered 0 m 11 0 [] t ∧ t.rdN (SECURE_FUSE 4) = w ∧ t.on ERROR_STATUS_DEGRADED = true ∧ Safety.Unsealed s t
        | .error e => Safety.Answered 0 m e.1 0 [] t ∧ t.rdN (SECURE_FUSE 4) = w) ∧
      (Safety.Held 0 m 0x31 16 s → ∃ t, exec (.revokeVendorKey readOk) s = .next t ∧ t.mem = s.mem ∧
        match s.imgVerify 7 1 h body with
        | .ok b =>
          let v := fieldLE b 0 1
          b.length = 1 → v ≤ 3 → if v ≠ fieldLE h 6 1 ∧ ((List.range 4).any fun i => i != v && !nbit w (8 + i)) = true then
            (readOk = true → Safety.Answered 0 m 0 0 [] t ∧ t.rdN (SECURE_FUSE 4) = w ||| 2 ^ (8 + v) ∧ nbit (t.get SECURE_STATUS_VENDOR_REVOKED) v = true ∧
              Safety.Sealed 6 (imgDigest h) 7 s t)
          else Safety.Answered 0 m 9 0 [] t ∧ t.rdN (SECURE_FUSE 4) = w
        | .error e => Safety.Answered 0 m e.1 0 [] t ∧ t.rdN (SECURE_FUSE 4) = w) ∧
      (Safety.Held 0 m 0x32 16 s → ∃ t, exec .debugUnlock s = .next t ∧ t.mem = s.mem ∧
        match s.imgVerify 8 1 h body with
        | .ok b => b.length = 1 → if nbit (fieldLE b 0 1) 1 = true ∧ w % 16 ≠ 7 then Safety.Answered 0 m 9 0 [] t ∧ t.trust.debug = s.trust.debug
          else Safety.Answered 0 m 0 0 [] t ∧ t.trust.debug = s.trust.debug ||| fieldLE b 0 1 % 4 ∧ t.on SECURE_STATUS_DEBUG_UNLOCKED = (t.trust.debug != 0) ∧
            Safety.Sealed 6 (imgDigest h) 8 s t
        | .error e => Safety.Answered 0 m e.1 0 [] t ∧ t.trust.debug = s.trust.debug) ∧
      (Safety.Held 0 m 0x33 16 s → w % 16 < 8 → ∃ t, exec (.lifecycleReturn readOk) s = .next t ∧ t.mem = s.mem ∧
        match s.imgVerify 9 (2 ^ 32) h body with
        | .ok _ => t.trust.keys = [] ∧ t.rdN SECURE_KEY_STATE = 0 ∧ t.fab.approved = [] ∧ (readOk = true → Safety.Answered 0 m 0 0 [] t ∧ t.rdN (SECURE_FUSE 4) % 16 = 7 ∧
            t.get SECURE_STATUS_LIFECYCLE = 3 ∧ Safety.Sealed 6 (imgDigest h) 9 s t)
        | .error e => Safety.Answered 0 m e.1 0 [] t ∧ t.trust.keys = s.trust.keys))

/-- FW_LOAD checks before it disturbs, lands a verified body, and a processor reports, halts, kicks and logs by its rules. A started FW_LOAD whose checks
fail completes with that status and leaves every processor as it is. One that passes first waits for the halt of a running target, and else copies the
body, at once or when its reads have been made: with the digest of its header the target holds it, seal 4 is extended and the processor is STARTING at that VERSION; otherwise the memory is
zero, the target HALTED and the failure DEGRADED. A restart starts a postmaster from the store; a store load makes the store VALID and starts the
postmasters of districts that are up. READY makes a STARTING processor RUNNING, HOLD_FORMAT and a missed limit halt it. HALT and a missed watchdog
halt at the next boundary, the steward's HALT from the secure world alone. A ledger entry is written at LEDGER_HEAD, which rises by 1, or is lost and
counted when there is no room; LEDGER_TAIL moves only up to LEDGER_HEAD. Rests on the choices and readings of the model in log entries 99, 100, 101,
102, 103. (R565; R566; R567; R571; R574; R575; R577; R578; R584) -/
def Obligations.ProcessorsLoadStartHaltAndLog : Prop :=
  ∀ (s : State),
    let state := fun (t : State) (p : Nat) => t.get (FIRMWARE_PROC_STATE_STATE p)
    let proc := fun (t : State) (p : Nat) => SMap.get (fun _ => (0, [])) t.fw.mem p
    (∀ (r : Ring) (f : Flight), s.flight r f.seq = some f → f.stage = .started → Env.kind f.env = 9 → s.trust.seals.length = 8 →
      let g := fieldLE f.env 0x24 1
      let quiet := fun (t : State) => ∀ p, p < 19 → t.rd (FIRMWARE_PROC_STATE p) = s.rd (FIRMWARE_PROC_STATE p)
      let body := fun (h : Bytes) => s.addrRead (s.ringFn r) (fieldLE f.env 0x18 8 + 0x1800) (imgLen h)
      let failed := fun (t : State) (x : State × Nat × Nat) => t.get (RINGS_STATUS_LAST_FAIL r) = x.2.1 ∧ quiet t ∧ t.fw = s.fw
      let lands := fun (h : Bytes) (t : State) => match body h with
        | .ok b => if sha384 b = (h.drop 0x30).take 48 then
            state t g = 3 ∧ t.rdN (FIRMWARE_PROC_VERSION g) = imgVersion h ∧ proc t g = (fieldLE h 0x18 8, b) ∧ t.sealOf 4 = sha384 (s.sealOf 4 ++ imgDigest h)
          else state t g = 1 ∧ proc t g = (0, []) ∧ t.on ERROR_STATUS_DEGRADED = true ∧ t.get (RINGS_STATUS_LAST_FAIL r) = 0x0E
        | .error _ => state t g = 1 ∧ proc t g = (0, [])
      let held := fun (t : State) => t.memWaits r f.seq = true ∧ quiet t ∧ (t.fw.loads.any fun l => l.ring == r.val && l.seq == f.seq && !l.begun) = true
      (s.fw.loads.find? (fun l => l.ring == r.val && l.seq == f.seq) = none →
        (g < 3 → ∃ t, exec (.fwLoadProcessor r f.seq) s = .next t ∧ match s.fwChecks r f.env with
          | .error x => failed t x
          | .ok h => (2 ≤ state s g → quiet t ∧ t.mem = s.mem ∧ t.fw.halts = s.fw.halts ++ [(g, 1)] ∧
              t.fw.loads = s.fw.loads ++ [⟨r, f.seq, g, fieldLE f.env 0x25 1, h, false, false, [g], 0, none, [g]⟩]) ∧ (state s g < 2 → h ≠ [] → lands h t ∨ held t)) ∧
        (3 ≤ g → g ≤ 18 → ∃ t, exec (.fwRestartPostmaster r f.seq) s = .next t ∧ match s.fwChecks r f.env with
          | .error x => failed t x
          | .ok _ => state s g < 2 → state t g = 3 ∧ proc t g = (0, s.fw.store) ∧ t.rdN (FIRMWARE_PROC_VERSION g) = s.get FIRMWARE_PM_STORE_VERSION) ∧
        (g = 19 → (∀ d, d < 16 → s.domUp d = true → state s (3 + d) < 2) → ∃ t, exec (.fwLoadStore r f.seq) s = .next t ∧ match s.fwChecks r f.env with
          | .error x => failed t x
          | .ok h => h ≠ [] → held t ∨ match body h with
            | .ok b => if sha384 b = (h.drop 0x30).take 48 then t.fw.store = b ∧ t.on FIRMWARE_PM_STORE_VALID = true ∧
                t.get FIRMWARE_PM_STORE_VERSION = imgVersion h % 2 ^ 31 ∧ (∀ d, d < 16 → s.domUp d = true → state t (3 + d) = 3)
              else t.fw.store = [] ∧ t.on FIRMWARE_PM_STORE_VALID = false ∧ t.on ERROR_STATUS_DEGRADED = true
            | .error _ => t.fw.store = [] ∧ t.on FIRMWARE_PM_STORE_VALID = false)) ∧
      (∀ l, s.fw.loads.find? (fun l => l.ring == r.val && l.seq == f.seq) = some l → g < 3 → l.target = g →
        ((l.begun = true ∨ l.waits ≠ []) → exec (.fwLoadProcessor r f.seq) s = .next s) ∧
        (l.begun = false → l.waits = [] → l.header ≠ [] → l.starts = [g] → l.ring = r.val → l.seq = f.seq → ∃ t, exec (.fwLoadProcessor r f.seq) s = .next t ∧ (lands l.header t ∨ held t)) ∧
        (l.begun = false → l.waits = [] → l.header ≠ [] → l.reading = true → s.memWaits r f.seq = true → exec (.fwLoadProcessor r f.seq) s = .next s))) ∧
    (∀ (p : Fin 19) (code format : Nat),
      (state s p ≠ 3 → exec (.fwReady p code format) s = .next s) ∧
      (state s p = 3 → code = 1 → ∃ t, exec (.fwReady p code format) s = .next t ∧ state t p = 4 ∧ t.get (FIRMWARE_PROC_STATE_HOLD_FORMAT p) = format % 65536) ∧
      (state s p = 3 → code = 2 → ∃ t, exec (.fwReady p code format) s = .next t ∧ state t p = 1 ∧ t.get (FIRMWARE_PROC_STATE_LAST_HALT p) = 5 ∧
        t.on ERROR_STATUS_DEGRADED = true)) ∧
    (∀ (p : Fin 19),
      let released := SMap.get (fun _ => none) s.fw.released p.val
      let w := s.cfg (FIRMWARE_PROC_CTRL_WDOG_ROUNDS p)
      let late := SMap.get (fun _ => 0) s.fw.kick p.val + w < s.round
      (released = none → exec (.fwStartFail p) s = .next s) ∧
      (∀ n, released = some n → s.round ≤ n + s.readyLimit → exec (.fwStartFail p) s = .next s) ∧
      (∀ n, released = some n → n + s.readyLimit < s.round → state s p = 3 → ∃ t, exec (.fwStartFail p) s = .next t ∧ state t p = 1 ∧
        t.get (FIRMWARE_PROC_STATE_LAST_HALT p) = 4 ∧ t.on ERROR_STATUS_DEGRADED = true) ∧
      (∀ q : Req, q.pfOrHost = true → s.spineUp = true → s.holdOf q = none →
        (p = 2 → q.secure = false → ∃ t, exec (.procHalt q p) s = .next t ∧ t.fw = s.fw ∧ t.rd (FIRMWARE_PROC_CTRL p) = s.rd (FIRMWARE_PROC_CTRL p) ∧ t.on ERROR_STATUS_NOTE = true) ∧
        ((p ≠ 2 ∨ q.secure = true) → ∃ t, exec (.procHalt q p) s = .next t ∧ state t p = state s p ∧ t.mem = s.mem ∧ t.on ERROR_STATUS_NOTE = true ∧
          t.fw.halts = s.fw.halts ++ (if 2 ≤ state s p then [(p.val, 2)] else []))) ∧
      (3 ≤ state s p → ∃ t, exec (.wdogKick p) s = .next t ∧ SMap.get (fun _ => 0) t.fw.kick p.val = s.round ∧ t.regs = s.regs ∧ t.mem = s.mem) ∧
      (state s p < 3 → exec (.wdogKick p) s = .next s) ∧
      (3 ≤ state s p → w ≠ 0 → late → (s.fw.halts.any fun h => h.1 == p.val && h.2 == 3) = false → ∃ t, exec (.fwWatchdog p) s = .next t ∧ state t p = state s p ∧
        t.on (FIRMWARE_PROC_STATE_WDOG p) = true ∧ t.on ERROR_STATUS_CONTAINED = true ∧ t.fw.halts = s.fw.halts ++ [(p.val, 3)]) ∧
      ((w = 0 ∨ ¬late) → exec (.fwWatchdog p) s = .next s) ∧
      (∀ (mark : Bool) (id level a0 a1 a2 tm : Nat),
        let u := s.atNs tm
        let e : LedgerEntry := { source := p, type := if mark then 1 else 0, id := id, level := if mark then 0 else level % 4, a0 := a0, a1 := a1, a2 := a2 }
        let j := s.rdN FIRMWARE_LEDGER_HEAD
        let a := s.cfg FIRMWARE_LEDGER_BASE_ADDR * 4096 + 32 * (j % s.ledgerSize) + (if s.cfgOn FIRMWARE_LEDGER_BASE_HOST then 2 ^ 63 else 0)
        let f := s.cfg FIRMWARE_LEDGER_CFG_FUNCTION
        let c := Instr.ledgerEntry p mark id level a0 a1 a2 tm
        let wanted := 3 ≤ state s p ∧ (if mark then (s.act FIRMWARE_LEDGER_STAMP_MASK).getLsbD p = true else level % 4 ≤ s.cfg FIRMWARE_LEDGER_CFG_LEVEL)
        ((s.cfgOn FIRMWARE_LEDGER_CFG_EN = false ∨ ¬wanted) → exec c s = .next u) ∧
        (s.cfgOn FIRMWARE_LEDGER_CFG_EN = true → wanted → s.ledgerRun = 0 →
          (1 ≤ s.ledgerFree → (u.addrWrite f a (u.ledgerBytes e j)).2 = none → ∃ t, exec c s = .next t ∧
            t.rdN FIRMWARE_LEDGER_HEAD = (j + 1) % 2 ^ 32 ∧ t.mem = (u.addrWrite f a (u.ledgerBytes e j)).1.mem) ∧
          (s.ledgerFree = 0 → ∃ t, exec c s = .next t ∧ t.rd FIRMWARE_LEDGER_HEAD = s.rd FIRMWARE_LEDGER_HEAD ∧ t.mem = s.mem ∧ t.ledgerRun = 1 ∧
            t.rdN FIRMWARE_LEDGER_LOST = min (s.rdN FIRMWARE_LEDGER_LOST + 1) 0xFFFFFFFF ∧ t.on ERROR_STATUS_NOTE = true)))) ∧
    (∀ (q : Req) (v : Nat),
      (q.pfOrHost = false → s.holdOf q = none → exec (.ledgerTailWrite q v) s = .next s) ∧
      (q.pfOrHost = true → s.spineUp = true → s.holdOf q = none →
        let moves := cdiff v (s.rdN FIRMWARE_LEDGER_TAIL) ≤ cdiff (s.rdN FIRMWARE_LEDGER_HEAD) (s.rdN FIRMWARE_LEDGER_TAIL)
        (moves → ∃ t, exec (.ledgerTailWrite q v) s = .next t ∧ t.rdN FIRMWARE_LEDGER_TAIL = v % 2 ^ 32 ∧ t.mem = s.mem) ∧
        (¬moves → ∃ t, exec (.ledgerTailWrite q v) s = .next t ∧ t.rd FIRMWARE_LEDGER_TAIL = s.rd FIRMWARE_LEDGER_TAIL ∧ t.on ERROR_STATUS_NOTE = true)))

/-- A write of the current record's SEQ to ACK retires it and the best queued record becomes current. When a writer of the ERROR block with a path, which
holds no low half, writes the SEQ of the current record, that record leaves the queue and its slot is free; if records remain, the one of the highest class, and the lowest SEQ
within it, is current, and else none is. Every register but STATUS, and every memory, is as before. A write of any other value, and a write by anyone
else, is discarded without error. (R595) -/
def Obligations.AckRetiresTheCurrentRecord : Prop :=
  ∀ (q : Req) (v : Nat) (s : State), s.path q = true → Req.writesErrors q = true → s.holdOf q = none →
    (s.err.cur = some v → ∃ t, exec (.ack q v) s = .next t ∧
      (∀ x, x ∈ t.err.recs ↔ x ∈ s.err.recs ∧ x.seq ≠ v) ∧
      (∀ x ∈ s.err.recs, x.seq = v → (∀ y ∈ s.err.recs, y.slot = x.slot → y.seq = v) → ∀ y ∈ t.err.recs, y.slot ≠ x.slot) ∧
      (t.err.cur = none → t.err.recs = [] ∧ t.on ERROR_STATUS_CUR_VALID = false) ∧
      (∀ k, t.err.cur = some k → (∃ b ∈ t.err.recs, b.seq = k ∧ ∀ x ∈ t.err.recs, x.cls ≤ b.cls ∧ (x.cls = b.cls → b.seq ≤ x.seq)) ∧
        t.on ERROR_STATUS_CUR_VALID = true) ∧
      t.err.entry = s.err.entry ∧ t.mem = s.mem ∧ t.hostMem = s.hostMem ∧ (∀ o, o ≠ ERROR_STATUS → t.rd o = s.rd o)) ∧
    (s.err.cur ≠ some v → exec (.ack q v) s = .next s)

/-- INJECT, REQUEST and the clock monitor begin orderly entry, the safe state is reached by its actions, and EXIT leaves it by its conditions. INJECT by
the secure world reports a known code with the action of its class alone: a STATUS bit, or for FATAL the entry; by anyone else it is refused with a
NOTE. REQUEST reports SAFE_REQUESTED, and NOW makes an entry due. A FATAL error begins orderly entry with GRACE as it reads then; one during entry
makes it due, with NESTED. Ten bad clock windows in a row report CLOCK_FAIL. When the entry is due or its rounds are over, both guards are SILENT,
pads are held, no unit runs, a running ring with nothing in flight is STOPPED, and every switched domain is OFF but those that the secure world holds,
and PD_PCIE, unless the entry is thermal, and those with a voltage step in progress, which go OFF when it ends; SAFE_ROUND and SAFE_COUNT show it.
EXIT is refused with the lowest condition that holds, or starts the self-test; an accepted exit resets SPINE and every switched domain at the next
boundary, those with no step in progress at once, and the guards stay SILENT and not ARMED. The register frames concern this model's registers; where
a record's slot lies is free. Rests on the choices and readings of the model in log entries 104, 105, 106, 107, 108, 140, 143. (R599; R600; R601;
R602; R604; R605; R606; R688) -/
def Obligations.SafeStateIsEnteredHeldAndLeft : Prop :=
  ∀ (s : State),
    let kept := fun (t : State) => ∀ o, o ≠ SECURE_SEC_NOTIFY → o < 0xD00000 ∨ 0xE00000 ≤ o → t.rd o = s.rd o
    let still := fun (t : State) => t.rings = s.rings ∧ t.mem = s.mem ∧ t.floor = s.floor
    let begins := fun (t : State) (code : Nat) (at_once : Bool) => t.on ERROR_STATUS_ENTERING = true ∧ t.on ERROR_STATUS_FATAL = true ∧ t.on ERROR_STATUS_DEGRADED = true ∧
      t.get ERROR_SAFE_STATUS_CODE = code ∧ t.err.entry = some ⟨code, s.round, s.get ERROR_SAFE_CTRL_GRACE, at_once⟩ ∧ kept t ∧ still t
    (s.on ERROR_STATUS_SAFE = false →
      (∀ (q : Req) (v : Nat), s.path q = true → s.holdOf q = none →
        (q.secure = false → ∃ t, exec (.inject q v) s = .next t ∧ t.on ERROR_STATUS_NOTE = true ∧ t.err.entry = s.err.entry ∧ kept t ∧ still t) ∧
        (q.secure = true → match errClass (v % 65536) with
          | none => exec (.inject q v) s = .next s
          | some k => ∃ t, exec (.inject q v) s = .next t ∧ still t ∧
              (k ≠ .note → s.err.recs.length < 256 → ∃ x ∈ t.err.recs, x.seq = s.rdN ERROR_SEQ_NEXT ∧ x.code = v % 65536 ∧ x.cls = k.code ∧ x.injected = true ∧
                x.round = s.round ∧ x.ring = none ∧ x.unit = v / 65536 % 65536 ∧ x.safe = (k == .fatal || s.err.entry.isSome) ∧ x.nested = (k == .fatal && s.err.entry.isSome)) ∧
              (match k with
              | .note => t.on ERROR_STATUS_NOTE = true ∧ t.err.entry = s.err.entry ∧ kept t
              | .contained => t.on ERROR_STATUS_CONTAINED = true ∧ t.err.entry = s.err.entry ∧ kept t
              | .degraded => t.on ERROR_STATUS_DEGRADED = true ∧ t.err.entry = s.err.entry ∧ kept t
              | .fatal => match s.err.entry with
                | some e => t.err.entry = some { e with due := true } ∧ t.on ERROR_SAFE_STATUS_NESTED = true ∧ kept t
                | none => begins t (v % 65536) (v % 65536 == 0x7007 || v % 65536 == 0x0108 || (v % 65536 != 0xA00D && s.get ERROR_SAFE_CTRL_GRACE == 0))))) ∧
      (∀ q : Req, Req.writesErrors q = true → s.path q = true → s.holdOf q = none → s.err.entry = none → ∃ t, exec (.safeRequest q) s = .next t ∧
        begins t 0xD001 (s.get ERROR_SAFE_CTRL_GRACE == 0)) ∧
      (∀ ppm : Option Int, (∀ d, ppm = some d → d < -1000 ∨ 1000 < d) → s.err.badRun = 9 → s.err.entry = none → ∃ t, exec (.clockMonitorWindow ppm) s = .next t ∧
        begins t 0x0108 true)) ∧
    (∀ q : Req, Req.writesErrors q = true → s.path q = true → s.holdOf q = none → ∃ t, exec (.safeNow q) s = .next t ∧
      t.err.entry = s.err.entry.map (fun e => { e with due := true }) ∧ t.regs = s.regs ∧ still t) ∧
    (∀ d : Int, -1000 ≤ d → d ≤ 1000 → ∃ t, exec (.clockMonitorWindow (some d)) s = .next t ∧ t.err.badRun = 0 ∧
      t.err.windows = (false :: s.err.windows).take 1000 ∧ t.regs = s.regs ∧ still t) ∧
    (∀ ppm : Option Int, (∀ d, ppm = some d → d < -1000 ∨ 1000 < d) → s.err.badRun ≠ 9 → ∃ t, exec (.clockMonitorWindow ppm) s = .next t ∧
      t.err.badRun = min 11 (s.err.badRun + 1) ∧ t.err.windows = (true :: s.err.windows).take 1000 ∧ t.err.entry = s.err.entry ∧ t.regs = s.regs ∧ still t) ∧
    (∀ tm : Nat,
      (s.err.entry = none → exec (.safeStateReached tm) s = .next s) ∧
      (∀ e, s.err.entry = some e → e.due = false → ([0xA00D, 0x7007, 0x0108].contains e.code = true ∨ s.round < e.round + e.grace) → exec (.safeStateReached tm) s = .next s) ∧
      (∀ e, s.err.entry = some e → (e.due = true ∨ ([0xA00D, 0x7007, 0x0108].contains e.code = false ∧ e.round + e.grace ≤ s.round)) → ∃ t, exec (.safeStateReached tm) s = .next t ∧
        t.on ERROR_STATUS_SAFE = true ∧ t.on ERROR_STATUS_ENTERING = false ∧ t.err.entry = none ∧ t.rdN ERROR_SAFE_ROUND = s.round ∧
        t.rdN ERROR_SAFE_COUNT = min (s.rdN ERROR_SAFE_COUNT + 1) 0xFFFFFFFF ∧
        (∀ p : Fin 2, t.on (CPORT_GUARD_CTRL_SILENT p) = true) ∧ (∀ g, g < 6 → nbit (t.rdN POWER_PAD_HOLD) g = true) ∧ (∀ d : Fin 16, t.dunit d = none) ∧
        (∀ r : Ring, s.ringState r = 1 → (s.ring r).flights = [] → (s.ring r).disabling = false → t.ringState r = 3) ∧
        (∀ i : Fin 24, i ≠ 21 → nbit (s.rdN POWER_SEC_HOLD) i = false →
          (s.midStep.contains i.val = false → t.dom i = 3) ∧ (s.midStep.contains i.val = true → s.dom i ≠ 3 → (t.pdom i).opens = true ∧ t.dom i = s.dom i)) ∧
        (s.err.thermal = false → t.dom 21 = s.dom 21 ∧ t.pwr.spine = s.pwr.spine ∧
          (∀ i : Fin 24, i ≠ 21 → nbit (s.rdN POWER_SEC_HOLD) i = true → t.dom i = if s.dom i = 0 then 1 else s.dom i)) ∧
        (s.err.thermal = true → s.pwr.spine = 0 → nbit (s.rdN POWER_SEC_HOLD) 21 = false → t.dom 21 = 3 ∧ t.pwr.spine = 2 ∧ nbit (t.rdN POWER_PAD_HOLD) 6 = true))) ∧
    (∀ (q : Req) (disagree : Bool), s.holdOf q = none →
      let inForce := s.on ERROR_STATUS_SAFE = true ∨ s.err.entry ≠ none
      let refused := fun (k : Nat) => ∃ t, exec (.safeExit q disagree) s = .next t ∧ t.get ERROR_SAFE_STATUS_REFUSE = k ∧ t.on ERROR_STATUS_NOTE = true ∧
        t.err.entry = s.err.entry ∧ t.err.exitTest = none ∧ kept t ∧ still t
      let fatal := ∃ x ∈ s.err.recs, x.cls = 3
      ((Req.mayExit q = false ∨ s.path q = false ∨ ¬inForce ∨ s.err.exitTest ≠ none ∨ s.err.exitAccepted ≠ none) → exec (.safeExit q disagree) s = .next s) ∧
      (Req.mayExit q = true → s.path q = true → inForce → s.err.exitTest = none → s.err.exitAccepted = none →
        (fatal → refused 1) ∧ (¬fatal → s.tooHot = true → refused 2) ∧ (¬fatal → s.tooHot = false → true ∈ s.err.windows → refused 3) ∧
        (¬fatal → s.tooHot = false → true ∉ s.err.windows → s.err.entry ≠ none → refused 5) ∧
        (¬fatal → s.tooHot = false → true ∉ s.err.windows → s.err.entry = none → ∃ t, exec (.safeExit q disagree) s = .next t ∧
          t.err.exitTest = some (s.round, disagree) ∧ t.regs = s.regs ∧ still t))) ∧
    ((s.err.exitAccepted = none → exec .safeExitApply s = .next s) ∧
      (∀ n, s.err.exitAccepted = some n → (s.round ≤ n → exec .safeExitApply s = .next s) ∧
        (n < s.round → ∃ t, exec .safeExitApply s = .next t ∧ t.on ERROR_STATUS_SAFE = false ∧ t.on ERROR_STATUS_ENTERING = false ∧ t.err.entry = none ∧ t.err.exitAccepted = none ∧
          (∀ p : Fin 2, t.on (CPORT_GUARD_CTRL_ARMED p) = false ∧ t.on (CPORT_GUARD_CTRL_SILENT p) = true) ∧ (s.midStep = [] → ∀ i : Fin 24, t.dom i = 3) ∧ (∀ r : Ring, t.ringState r = 0) ∧
          t.round = s.round ∧ t.on GLOBAL_BOOT_STATUS_SPINE_UP = false)))

/-- BAR4, the PCIe link and its errors, and the plant queues act as their rules give. A BAR4 access names WINDOW times 2^36 plus its offset: a WINDOW that
reaches nothing is refused with MEM_UNPOPULATED, a write lands and a read answers the bytes, or either is held while a unit runs. HOST_WAKE and the end of PERST#
set the PCIE latch. PERST# and a lost data link reset every PCIe function: with nothing in flight their rings are DISABLED and other rings are as
before. The link comes up at no more than MAX_GEN. PCIe errors are counted and reported, and an envelope that one hits fails with BAD_ADDRESS or
MEM_POISON. A received frame goes to the buffer of the next descriptor of its queue, or is dropped and counted; a transmit descriptor is sent or
completed with ERR; HEAD rises by 1. A TAIL that would post more than the size is discarded. A link change is reported. A frame that cannot be read or
stored is left to the model's choice. Rests on the choices and readings of the model in log entries 111, 113, 114, 138. (R610; R611; R613; R614; R616;
R617; R618; R622; R624; R625; R626; R627) -/
def Obligations.HostAndPlantLinksActAsRuled : Prop :=
  ∀ (s : State),
    let still := fun (t : State) => t.rings = s.rings ∧ t.mem = s.mem ∧ t.hostMem = s.hostMem
    let others := fun (t : State) (x : Nat) => ∀ o, o ≠ x → o < 0xD00000 ∨ 0xE00000 ≤ o → t.rd o = s.rd o
    let wakes := fun (t : State) => nbit (s.cfg POWER_WAKE_MASK_SOURCE) 1 = true → s.get POWER_DEV_STATUS_STATE = 0 → s.pwr.dev = none →
      nbit (t.rdN POWER_WAKE_LATCH) 1 = true ∧ (∀ o, o ≠ POWER_WAKE_LATCH → t.rd o = s.rd o) ∧ still t
    let gone := fun (t : State) => t.on GLOBAL_PCIE_STATUS_LINK_UP = false ∧ t.get GLOBAL_PCIE_STATUS_GEN = 0 ∧ t.get GLOBAL_PCIE_STATUS_WIDTH = 0
    let reset := fun (t : State) => (∀ r ∈ s.liveRings, (s.ring r).flights = []) → ∀ r : Ring, s.ringState r ≠ 0 →
      t.ringState r = if s.ringFn r ≤ 16 then 0 else s.ringState r
    (∀ (off n : Nat) (w : Option Bytes), s.spineUp = true → s.domUp 21 = true →
      let k := s.get GLOBAL_BAR4_SEL_WINDOW
      let a := k * 0x1000000000 + off
      let c := Instr.bar4Access off n w
      let answers := fun (t : State) (x : MemAns) => t.links.bar4 = s.links.bar4 ++ [x]
      (∀ b, w = some b → b ≠ [] → off + b.length ≤ 0x1000000000 →
        (k ≠ 0 → k ≠ 1 → k ≠ 8 → ∃ t, exec c s = .next t ∧ answers t .refused ∧ t.rdN MEMCTL_UNPOP_LAST = a ∧ t.on ERROR_STATUS_NOTE = true ∧ still t) ∧
        (k = 0 ∨ k = 1 ∨ k = 8 →
          ((s.fnCheck 0 a b.length).isSome = true → ∃ t, exec c s = .next t ∧ answers t .refused ∧ still t) ∧
          (s.fnCheck 0 a b.length = none → s.sealedAny a b.length = false → (s.heldBy' a = none → ∃ t, exec c s = .next t ∧ answers t .written ∧ t.mem = (s.store a b).mem) ∧
            (∀ d, inSram a b.length = true → s.heldBy' a = some d → ∃ t, exec c s = .next t ∧ t.floor.held = s.floor.held ++ [⟨d, a, .write b, .bar4⟩] ∧ t.regs = s.regs ∧ still t)))) ∧
      (w = none → 0 < n → off + n ≤ 0x1000000000 →
        (k ≠ 0 → k ≠ 1 → k ≠ 8 → ∃ t, exec c s = .next t ∧ answers t .refused ∧ t.rdN MEMCTL_UNPOP_LAST = a ∧ still t) ∧
        (k = 0 ∨ k = 1 ∨ k = 8 → s.fnCheck 0 a n = none →
          (∀ d, inSram a n = true → s.heldBy' a = some d → ∃ t, exec c s = .next t ∧ t.floor.held = s.floor.held ++ [⟨d, a, .read n, .bar4⟩] ∧ t.regs = s.regs ∧ still t) ∧
          (s.heldBy' a = none → s.sealedAny a n = false → (inSram a n = true → s.floor.flips = []) →
            ∃ t, exec c s = .next t ∧ answers t (if s.poisoned a n then .poison else .data (s.rdMem a n)) ∧ still t)))) ∧
    (∀ (q : Req) (v : Nat), s.holdOf q = none →
      ((q ≠ .pf ∨ s.spineUp = false ∨ v % 2 = 0 ∨ s.domUp 21 = false) → exec (.hostWake q v) s = .next s) ∧
      (q = .pf → s.spineUp = true → v % 2 = 1 → s.domUp 21 = true → ∃ t, exec (.hostWake q v) s = .next t ∧ wakes t)) ∧
    ((s.links.perst = true → exec .perstAssert s = .next s) ∧
      (s.links.perst = false → s.spineUp = true → ∃ t, exec .perstAssert s = .next t ∧ t.links.perst = true ∧ (s.dom 21 ≠ 3 → gone t) ∧ reset t) ∧
      (s.links.perst = false → exec .perstDeassert s = .next s) ∧
      (s.links.perst = true → ∃ t, exec .perstDeassert s = .next t ∧ t.links.perst = false ∧ wakes t) ∧
      (s.on GLOBAL_PCIE_STATUS_LINK_UP = false → exec .pcieLinkDown s = .next s) ∧
      (s.on GLOBAL_PCIE_STATUS_LINK_UP = true → ∃ t, exec .pcieLinkDown s = .next t ∧ gone t ∧ t.links = s.links ∧
        (s.domUp 21 = true → (s.pdom 21).trans = none → t.on ERROR_STATUS_DEGRADED = true ∧ reset t)) ∧
      (∀ (gen : Fin 6) (width : Nat),
        let m := s.get GLOBAL_PCIE_CTRL_MAX_GEN
        let top := if 1 ≤ m ∧ m ≤ 5 then m else 5
        (top < gen.val → exec (.pcieLinkUp gen width) s = .next s) ∧
        (s.links.perst = false → s.on GLOBAL_PCIE_STATUS_LINK_UP = false → s.domUp 21 = true → 1 ≤ gen.val → gen.val ≤ top → (width = 1 ∨ width = 2 ∨ width = 4) →
          ∃ t, exec (.pcieLinkUp gen width) s = .next t ∧ t.on GLOBAL_PCIE_STATUS_LINK_UP = true ∧ t.get GLOBAL_PCIE_STATUS_GEN = gen ∧
            t.get GLOBAL_PCIE_STATUS_WIDTH = width ∧ t.links.wakePin = false ∧ others t GLOBAL_PCIE_STATUS ∧ still t))) ∧
    (∀ (f : Fin 17) (e : PcieErr) (hit : PcieHit), (s.domUp 21 = false → exec (.pcieError f e hit) s = .next s) ∧
      (s.domUp 21 = true → (e = .fatal → exec (.pcieError f e hit) s = exec .pcieLinkDown s) ∧
        (e = .correctable → ∃ t, exec (.pcieError f e hit) s = .next t ∧ t.rdN GLOBAL_PCIE_CORR_COUNT = min (s.rdN GLOBAL_PCIE_CORR_COUNT + 1) 0xFFFFFFFF ∧
          t.on ERROR_STATUS_NOTE = true ∧ others t GLOBAL_PCIE_CORR_COUNT ∧ still t) ∧
        (e = .malformed → ∃ t, exec (.pcieError f e hit) s = .next t ∧ t.rdN GLOBAL_PCIE_UNCORR_COUNT = min (s.rdN GLOBAL_PCIE_UNCORR_COUNT + 1) 0xFFFFFFFF ∧
          t.on ERROR_STATUS_CONTAINED = true ∧ others t GLOBAL_PCIE_UNCORR_COUNT ∧ still t) ∧
        (e = .timeout ∨ e = .poisoned →
          let st := if e = .timeout then 3 else 0x0A
          ∃ t, exec (.pcieError f e hit) s = .next t ∧ t.on ERROR_STATUS_CONTAINED = true ∧
            (hit = .ledger → s.on FIRMWARE_LEDGER_CFG_EN = true → t.on FIRMWARE_LEDGER_CFG_EN = false ∧ t.on ERROR_STATUS_NOTE = true) ∧
            (∀ r seq x, hit = .envelope r seq → s.flight r seq = some x →
              (x.stage = .fetched → t.flight r seq = some { x with fetchFail := st } ∧ others t GLOBAL_PCIE_UNCORR_COUNT) ∧
              (x.stage = .started → s.runSt r seq = none → t.get (RINGS_STATUS_LAST_FAIL r) = st))))) ∧
    (∀ n : Fin 2,
      (∀ (x : Bytes) (fcs : Bool),
        let c := Instr.plantFrameReceive n x fcs
        ((s.plantUp n = false ∨ fcs = false ∨ x.length < 60 ∨ s.plantMax n < x.length ∨ beNat ((x.drop 12).take 2) = 0x8808) → exec c s = .next s) ∧
        (s.plantUp n = true → fcs = true → 60 ≤ x.length → x.length ≤ s.plantMax n → beNat ((x.drop 12).take 2) ≠ 0x8808 →
          (s.plantQueue n x = none → exec c s = .next s) ∧
          (∀ q, s.plantQueue n x = some q → q < 4 →
            let b := PLANT_RXQ_BASE n q
            let f := s.get ⟨b + 8, 28, 24⟩
            (s.qPosted b = false → ∃ t, exec c s = .next t ∧ t.rdN (PLANT_RX_DROP n) = min (s.rdN (PLANT_RX_DROP n) + 1) 0xFFFFFFFF ∧ others t (PLANT_RX_DROP n) ∧ still t) ∧
            (∀ d, s.qPosted b = true → s.addrRead f (s.qDesc b) 16 = .ok d → 1 ≤ fieldLE d 8 2 →
              let cap := fieldLE d 8 2
              let vlan := beNat ((x.drop 12).take 2) == 0x8100
              let flags := 2 ^ 15 + (if vlan then 4 else 0) + (if cap < x.length then 2 else 0)
              let back := leBytes 2 x.length ++ leBytes 2 flags ++ leBytes 2 (if vlan then beNat ((x.drop 14).take 2) else 0) ++ [0, 0]
              let u := (s.addrWrite f (fieldLE d 0 8) (x.take cap)).1.add64 (PLANT_RX_FRAMES n) 1
              ∃ t, exec c s = .next t ∧ t.rdN (PLANT_RXQ_HEAD n q) = (s.rdN (PLANT_RXQ_HEAD n q) + 1) % 2 ^ 32 ∧
                t.rdN (PLANT_RX_FRAMES n) = min (s.rdN (PLANT_RX_FRAMES n) + 1) (2 ^ 64 - 1) ∧
                (s.on (PLANT_RXQ_RECEIPT_EN n q) = false → t.mem = (u.addrWrite f (u.qDesc b + 8) back).1.mem))))) ∧
      ((s.plantUp n = false ∨ s.nextTx n = none) → exec (.plantFrameTransmit n) s = .next s) ∧
      (∀ q d, s.plantUp n = true → s.nextTx n = some q →
        let b := PLANT_TXQ_BASE n q
        let f := s.get ⟨b + 8, 28, 24⟩
        s.addrRead f (s.qDesc b) 16 = .ok d → ∃ t, exec (.plantFrameTransmit n) s = .next t ∧ t.rdN (PLANT_TXQ_HEAD n q) = (s.rdN (PLANT_TXQ_HEAD n q) + 1) % 2 ^ 32 ∧
          SMap.get (fun _ => 3) t.links.lastQ n.val = q ∧
          ((fieldLE d 8 2 < 60 ∨ s.plantMax n < fieldLE d 8 2) → t.links.sent = s.links.sent ∧ t.rd (PLANT_TX_FRAMES n) = s.rd (PLANT_TX_FRAMES n)) ∧
          (∀ x, 60 ≤ fieldLE d 8 2 → fieldLE d 8 2 ≤ s.plantMax n → s.addrRead f (fieldLE d 0 8) (fieldLE d 8 2) = .ok x →
            t.links.sent = s.links.sent ++ [(n.val, x)] ∧ t.rdN (PLANT_TX_FRAMES n) = min (s.rdN (PLANT_TX_FRAMES n) + 1) (2 ^ 64 - 1))) ∧
      (∀ (q : Req) (tx : Bool) (i : Fin 4) (v : Nat), s.holdOf q = none →
        let b := if tx then PLANT_TXQ_BASE n i else PLANT_RXQ_BASE n i
        let moves := q.pfOrHost = true ∧ s.spineUp = true ∧ s.domUp 23 = true ∧ cdiff v (s.rdN (b + 0x10)) ≤ s.qSize b
        (¬moves → exec (.qTailWrite q n tx i v) s = .next s) ∧
        (moves → ∃ t, exec (.qTailWrite q n tx i v) s = .next t ∧ t.rdN (b + 0xC) = v % 2 ^ 32 ∧ (∀ o, o ≠ b + 0xC → t.rd o = s.rd o) ∧ still t)) ∧
      (∀ speed : Fin 4,
        let offered := s.cfgOn (PLANT_PORT_CFG_ENABLE n) = true ∧ nbit (s.cfg (PLANT_PORT_CFG_ADV n)) (speed.val - 1) = true
        let changes := s.domUp 23 = true ∧ ((speed.val = 0 ∧ s.on (PLANT_STATUS_LINK n) = true) ∨ (speed.val ≠ 0 ∧ s.on (PLANT_STATUS_LINK n) = false ∧ offered))
        (¬changes → exec (.plantLink n speed) s = .next s) ∧
        (changes → ∃ t, exec (.plantLink n speed) s = .next t ∧ t.on (PLANT_STATUS_LINK n) = (speed.val != 0) ∧ t.get (PLANT_STATUS_SPEED n) = speed ∧
          t.on ERROR_STATUS_NOTE = true ∧ others t (PLANT_STATUS n) ∧ still t)))

/-- The relay link trains, writes, acknowledges, signals, replays and goes down as its rules give. ENABLE with the fields of its write starts training; it
ends UP with the paths that its hops reach when the neighbours agree, and MISMATCH otherwise; a mismatch retrains after 10,000 rounds. A link that
goes down clears PATH and is DEGRADED. While UP, a packet that fails its CRC is answered with LNAK and acts on nothing; a good one is acknowledged
with LACK. A WRITE for this module lands exactly its bytes in DRAM between IN_BASE and IN_LIMIT or in a sorting cache, counts its arrival and returns
WACK when LAST; any other is refused with WNAK. WACK and WNAK end a transfer, SACK and SREFUSE a remote SIGNAL. A SIGNAL for a bank of the relay link
is applied, mirrored and acknowledged, and refused otherwise. LACK frees the packets it covers and lets a packet that waits for a credit
leave, LNAK replays, and the third replay takes the hop down.
The credits that a LACK of this module names are free. Rests on the choices and readings of the model in log entries 115, 116, 117, 118, 138. (R224;
R629; R630; R632; R633; R635; R637; R638) -/
def Obligations.RelayLinkTrainsCarriesAndSignals : Prop :=
  ∀ (s : State),
    let up := s.get RELAY_STATUS_STATE = 2 ∧ s.domUp 22 = true
    let me := s.get RELAY_CFG_MODULE
    (∀ (q : Req) (v : Nat), s.holdOf q = none →
      let starts := q.pfOrHost = true ∧ s.spineUp = true ∧ s.domUp 22 = true ∧ nbit v 31 = true ∧ s.on RELAY_CFG_ENABLE = false
      (¬starts → exec (.relayEnable q v) s = .next s) ∧
      (starts → ∃ t, exec (.relayEnable q v) s = .next t ∧ t.on RELAY_CFG_ENABLE = true ∧ t.get RELAY_CFG_MODULE = v % 16 ∧
        t.get RELAY_CFG_SIZE = (if 1 ≤ v / 16 % 16 ∧ v / 16 % 16 ≤ 4 then v / 16 % 16 else 1) ∧ t.get RELAY_CFG_CLASS = (if v / 256 % 4 = 0 then 2 else v / 256 % 4) ∧
        t.get RELAY_STATUS_STATE = 1 ∧ (∀ o, o ≠ RELAY_CFG → o ≠ RELAY_STATUS → t.rd o = s.rd o) ∧ t.mem = s.mem)) ∧
    (∀ (upstream : Fin 16) (size : Nat) (accepts : Bool) (path : Fin 16),
      let c := Instr.relayTrained upstream size accepts path
      let m := s.relaySize
      let agree := (upstream.val + 1) % m = me % m ∧ upstream.val < m ∧ size = m ∧ accepts = true
      ((s.get RELAY_STATUS_STATE ≠ 1 ∨ s.domUp 22 = false) → exec c s = .next s) ∧
      (s.get RELAY_STATUS_STATE = 1 → s.domUp 22 = true → ∃ t, exec c s = .next t ∧ t.get RELAY_STATUS_UPSTREAM = upstream ∧
        (agree → t.get RELAY_STATUS_STATE = 2 ∧ ∀ k, k < 4 → nbit (t.get RELAY_STATUS_PATH) k = (nbit path.val k && decide (k < m) && k != me)) ∧
        (¬agree → t.get RELAY_STATUS_STATE = 3 ∧ t.get RELAY_STATUS_PATH = 0) ∧ (∀ o, o ≠ RELAY_STATUS → t.rd o = s.rd o) ∧ t.mem = s.mem)) ∧
    (
      let due := s.domUp 22 = true ∧ s.on RELAY_CFG_ENABLE = true ∧
        (s.get RELAY_STATUS_STATE = 4 ∨ (s.get RELAY_STATUS_STATE = 3 ∧ s.relay.trainRound + 10000 ≤ s.round))
      (¬due → exec .relayRetrain s = .next s) ∧
      (due → ∃ t, exec .relayRetrain s = .next t ∧ t.get RELAY_STATUS_STATE = 1 ∧ t.relay.trainRound = s.round ∧ (∀ o, o ≠ RELAY_STATUS → t.rd o = s.rd o) ∧ t.mem = s.mem)) ∧
    (∀ (mine : Bool) (path : Fin 16), (s.get RELAY_STATUS_STATE ≠ 2 → exec (.relayLinkDown mine path) s = .next s) ∧
      (s.get RELAY_STATUS_STATE = 2 → ∃ t, exec (.relayLinkDown mine path) s = .next t ∧ t.mem = s.mem ∧ t.relay.ops = s.relay.ops ∧
        (mine = true → t.get RELAY_STATUS_STATE = 4 ∧ t.get RELAY_STATUS_PATH = 0 ∧ t.on ERROR_STATUS_DEGRADED = true) ∧
        (mine = false → t.get RELAY_STATUS_STATE = 2 ∧ t.get RELAY_STATUS_PATH = s.get RELAY_STATUS_PATH &&& path.val))) ∧
    (∀ (p : RelayIn) (type : Nat) (c : Instr), (type, c) ∈ [(1, .write p), (2, .wack p), (3, .wnak p), (4, .signalPacket p), (5, .sack p), (6, .srefuse p)] →
      (¬up → exec c s = .next s) ∧
      (up → relayGood type p = false → ∃ t, exec c s = .next t ∧ t.relay.sent = s.relay.sent ++ [⟨8, 0, me, 0, 0, p.lseq, 0, []⟩] ∧ t.regs = s.regs ∧ t.mem = s.mem ∧ t.relay.ops = s.relay.ops) ∧
      (up → relayGood type p = true → p.dst ≠ me → ∃ t, exec c s = .next t ∧ t.mem = s.mem ∧ t.rings = s.rings ∧ t.relay.ops = s.relay.ops ∧
        (nbit (s.get RELAY_STATUS_PATH) p.dst = true → ∃ k ∈ t.relay.sent ++ t.relay.wait.map (·.2), k.type = type ∧ k.dst = p.dst ∧ k.src = p.src ∧ k.tag = p.tag ∧ k.addr = p.addr ∧ k.payload = p.payload))) ∧
    (∀ p : RelayIn, up → p.dst = me →
      let n := p.payload.length
      let back := nbit (s.get RELAY_STATUS_PATH) p.src
      let answer := fun (t : State) (type : Nat) => ∃ k ∈ t.relay.sent ++ t.relay.wait.map (·.2), k.type = type ∧ k.dst = p.src ∧ k.tag = p.tag
      let lands := fun (t : State) => (∀ x, t.byte x = if p.addr ≤ x ∧ x < p.addr + n then p.payload.getD (x - p.addr) 0 else s.byte x) ∧
        (nbit p.flags 7 = true → back = true → answer t 2)
      let known := s.relay.refused.contains (p.src, p.tag) = true
      (relayGood 1 p = true → ∃ t, exec (.write p) s = .next t ∧
        (known → t.mem = s.mem) ∧
        (∀ d : Fin 16, ¬known → 0x8020000000 + 0x400000 * d.val ≤ p.addr → p.addr + n ≤ 0x8020000000 + 0x400000 * (d.val + 1) → 1 ≤ n → d.val ≠ s.expressDistrict →
          s.dom d = 0 → s.poison = [] → s.floor.flips = [] → s.cfgOn RINGS_RECEIPT_BASE_EN = false → lands t ∧
          (nbit p.flags 7 = true → nbit p.flags 6 = true → t.rdN (FLOOR_ARRIVE_CNT d (p.flags % 16)) = min (s.rdN (FLOOR_ARRIVE_CNT d (p.flags % 16)) + 1) 0xFFFFFFFF)) ∧
        (¬known → s.relayCache p.addr n = none → s.relayDram p.addr n = true → s.devCheck false p.addr n = none → s.poison = [] →
          s.cfgOn RINGS_RECEIPT_BASE_EN = false → lands t) ∧
        (¬known → s.relayCache p.addr n = none → (s.relayDram p.addr n = false ∨ s.devCheck false p.addr n ≠ none) → t.mem = s.mem ∧ (back = true → answer t 3) ∧
          (nbit p.flags 7 = false → (p.src, p.tag) ∈ t.relay.refused))) ∧
      (relayGood 2 p = true → ∃ t, exec (.wack p) s = .next t ∧ (s.relayOp p.tag false = none → t.relay.ops = s.relay.ops ∧ t.rings = s.rings ∧ t.mem = s.mem) ∧
        (∀ o, s.relayOp p.tag false = some o → o ∉ t.relay.ops ∧
          (∀ f, s.flight o.ring o.seq = some f → f.stage = .started → Env.kind f.env = 2 → (copyItems f.env).length ≤ f.prog → s.memWaits o.ring o.seq = false → (∀ x ∈ s.relay.ops, x.ring = o.ring → x.seq = o.seq → x = o) →
            (t.flight o.ring o.seq).any (fun f => f.stage == .ended && f.status == 0) = true))) ∧
      (relayGood 3 p = true → ∃ t, exec (.wnak p) s = .next t ∧ t.rdN RELAY_WNAKS = min (s.rdN RELAY_WNAKS + 1) 0xFFFFFFFF ∧
        (∀ (r : Ring) o, s.relayOp p.tag false = some o → o.ring = r.val → o ∉ t.relay.ops ∧
          (∀ f, s.flight r o.seq = some f → f.stage = .started → s.runSt r o.seq = none → t.get (RINGS_STATUS_LAST_FAIL r) = 3))) ∧
      (relayGood 4 p = true → ∃ t, exec (.signalPacket p) s = .next t ∧
        let i := p.addr % 131072
        let v := beNat (p.payload.take 8)
        let b := i / 8192
        (s.bankOwner i ≠ 19 → t.mem = s.mem ∧ (back = true → answer t 6)) ∧
        (s.bankOwner i = 19 → s.cfgOn RINGS_RECEIPT_BASE_EN = true → (∀ c ∈ s.rnd.sigs, c.at_ ≠ s.now) → (back = true → answer t 5) ∧
          (s.cfgOn (RELAY_MIRROR_EN b) = false → t.receipt i = signalled (s.receipt i) (nbit p.flags 5) v) ∧
          (s.cfgOn (RELAY_MIRROR_EN b) = true → s.cfg (RELAY_MIRROR_BANK b) ≠ b → t.receipt i = signalled (s.receipt i) (nbit p.flags 5) v ∧
            t.receipt (8192 * s.cfg (RELAY_MIRROR_BANK b) + i % 8192) =
              max (s.receipt (8192 * s.cfg (RELAY_MIRROR_BANK b) + i % 8192)) (signalled (s.receipt i) (nbit p.flags 5) v)))) ∧
      (relayGood 5 p = true → ∃ t, exec (.sack p) s = .next t ∧ (s.relayOp p.tag true = none → t.relay.ops = s.relay.ops ∧ t.rings = s.rings ∧ t.mem = s.mem) ∧
        (∀ (r : Ring) o, s.relayOp p.tag true = some o → o.ring = r.val → o ∉ t.relay.ops ∧
          (∀ f, s.flight r o.seq = some f → f.stage = .started → t.rdN (RINGS_DONE_COUNT r) = min (s.rdN (RINGS_DONE_COUNT r) + 1) (2 ^ 64 - 1)))) ∧
      (relayGood 6 p = true → ∃ t, exec (.srefuse p) s = .next t ∧ (s.relayOp p.tag true = none → t.relay.ops = s.relay.ops ∧ t.rings = s.rings ∧ t.mem = s.mem) ∧
        (∀ (r : Ring) o, s.relayOp p.tag true = some o → o.ring = r.val → o ∉ t.relay.ops ∧
          (∀ f, s.flight r o.seq = some f → f.stage = .started → t.get (RINGS_STATUS_LAST_FAIL r) = 4)))) ∧
    (∀ tag addr : Nat, (s.get RELAY_STATUS_STATE ≠ 2 → exec (.lack tag addr) s = .next s ∧ exec (.lnak tag) s = .next s) ∧
      (s.get RELAY_STATUS_STATE = 2 →
        (∃ t, exec (.lack tag addr) s = .next t ∧ t.mem = s.mem ∧
          (s.relay.wait = [] → t.regs = s.regs ∧ t.relay.credits = some (addr % 65536, addr / 65536 % 65536) ∧
            ∀ x, x ∈ t.relay.replay ↔ x ∈ s.relay.replay ∧ 64 ≤ (tag + 65536 - x.1.lseq) % 65536) ∧
          (∀ w, s.relay.wait = [w] → let credit := if w.2.chan = 0 then addr % 65536 else addr / 65536 % 65536
            (credit = 0 → t.relay.wait = s.relay.wait ∧ t.relay.sent = s.relay.sent) ∧
            (credit ≠ 0 → t.relay.wait = [] ∧ t.relay.sent = s.relay.sent ++ [{ w.2 with lseq := s.relay.lseq }]))) ∧
        (
          let hit := fun (x : RelayPkt × Nat) => decide ((x.1.lseq + 65536 - tag) % 65536 < 64)
          let again := (s.relay.replay.filter hit).map (·.1)
          ∃ t, exec (.lnak tag) s = .next t ∧ t.mem = s.mem ∧ t.on ERROR_STATUS_NOTE = true ∧ t.relay.sent = s.relay.sent ++ again ∧
            t.rdN RELAY_REPLAYS = min (s.rdN RELAY_REPLAYS + again.length) 0xFFFFFFFF ∧
            ((∃ x ∈ s.relay.replay, (hit x = true ∧ 2 ≤ x.2) ∨ 3 ≤ x.2) → t.get RELAY_STATUS_STATE = 4 ∧ t.on ERROR_STATUS_DEGRADED = true) ∧
            ((∀ x ∈ s.relay.replay, x.2 < 3 ∧ (hit x = true → x.2 < 2)) → t.get RELAY_STATUS_STATE = 2 ∧
              t.relay.replay = s.relay.replay.map (fun x => if hit x then (x.1, x.2 + 1) else x)))))

/-- The 12 V input, SYS_RESET_N and the HXP's outputs act as their tables give. The input passing 10.0 V starts the sequence unless a failed rail waits
for 1.0 V; a rail that fails, a dip below 9.5 V for more than 20 us or below 6.0 V for more than 2 us, and a rise above 14.5 V for more than 10 us
switch every rail off, with MOD_PG low. SYS_RESET_N held for 1 us is a power-on reset that lasts until it rises, and no round begins meanwhile. A
power-on reset leaves what Table 20.7 gives: round 0, no records, no contents, every ring DISABLED, every switched domain OFF, while fuses, counters,
flash, NOR and keys keep what they hold. An output above 120 % of its maximum for 1 ms switches off and is reported. Training that succeeds sets
LP_TRAINED, and the third failure LP_FAIL. LPDDR5X that reads zero after the loss of its contents, and the value that LAST_RESET has after a fall
below 1.0 V, are this model's choices. Rests on the choices and readings of the model in log entries 3, 120, 121, 122, 123. (R641; R642; R643; R644;
R646; R654; R665; R669; R670; R672) -/
def Obligations.SupplyAndSysResetCausePowerOnResets : Prop :=
  ∀ (s : State),
    let off := fun (c : Instr) (cause : Nat) (k : Supply) => ∃ t, exec c s = .next t ∧ Safety.PowerReset cause s t ∧ t.boot.supply = k ∧ t.modPg = false ∧ t.boot.vsel = s.boot.vsel
    let last := s.get GLOBAL_BOOT_STATUS_LAST_RESET
    (∀ fell good lo hi : Bool,
      let starts := s.boot.supply = .off ∨ (s.boot.supply = .locked ∧ fell = true)
      (¬starts → exec (.powerOn fell good lo hi) s = .next s) ∧
      (starts → ∃ t, exec (.powerOn fell good lo hi) s = .next t ∧ Safety.PowerReset (if fell then 0 else last) s t ∧ t.boot.supply = (if good then .up else .rising) ∧
        t.modPg = good ∧ t.boot.vsel = (lo, hi) ∧ t.boot.auxOff = [])) ∧
    ((s.boot.supply = .rising → off .railFail last .locked) ∧ (s.boot.supply ≠ .rising → exec .railFail s = .next s)) ∧
    (∀ mv ns : Nat,
      let dips := s.boot.supply = .up ∧ ((mv < 9500 ∧ 20000 < ns) ∨ (mv < 6000 ∧ 2000 < ns))
      let rises := s.boot.supply = .up ∧ 14500 < mv ∧ 10000 < ns
      (dips → off (.brownOut mv ns) 1 .off) ∧ (¬dips → exec (.brownOut mv ns) s = .next s) ∧
      (rises → off (.vinOvervoltage mv ns) 1 .off) ∧ (¬rises → exec (.vinOvervoltage mv ns) s = .next s)) ∧
    (∀ ns : Nat,
      (s.boot.supply = .up → 1000 ≤ ns → ∃ t, exec (.sysResetN ns) s = .next t ∧ Safety.PowerReset 2 s t ∧ t.boot.resetLow = true ∧ t.boot.supply = .up ∧ t.boot.auxOff = []) ∧
      ((s.boot.supply ≠ .up ∨ ns < 1000) → exec (.sysResetN ns) s = .next s)) ∧
    ((s.boot.resetLow = true → ∃ t, exec .sysResetNRise s = .next t ∧ t.boot.resetLow = false ∧ t.regs = s.regs ∧ t.mem = s.mem ∧ t.trust = s.trust) ∧
      (s.boot.resetLow = false → exec .sysResetNRise s = .next s) ∧
      (∀ energy, (s.boot.supply ≠ .up ∨ s.boot.resetLow = true) → exec (.roundBoundary energy) s = .next s)) ∧
    (∀ (out : Fin 3) (ma us : Nat),
      let on := fun (t : State) => if out = 2 then t.memc.dxVin else t.boot.supply == .up && !t.boot.auxOff.contains out.val
      let trips := on s = true ∧ 1000 ≤ us ∧ (if out = 0 then 2400 else if out = 1 then 1200 else 3600) < ma
      (¬trips → exec (.auxOverload out ma us) s = .next s) ∧
      (trips → ∃ t, exec (.auxOverload out ma us) s = .next t ∧ on t = false ∧ t.on ERROR_STATUS_DEGRADED = true ∧
        (∀ o, o < 0xD00000 ∨ 0xE00000 ≤ o → t.rd o = s.rd o) ∧ t.mem = s.mem)) ∧
    (let waits := s.on GLOBAL_BOOT_STATUS_SPINE_UP = true ∧ s.on GLOBAL_BOOT_STATUS_LP_TRAINED = false ∧ s.boot.lpTries < 3
      ; (¬waits → ∀ ok, exec (.lpTrainingDone ok) s = .next s) ∧
      (waits → (∃ t, exec (.lpTrainingDone true) s = .next t ∧ t.on GLOBAL_BOOT_STATUS_LP_TRAINED = true ∧ (∀ o, o ≠ GLOBAL_BOOT_STATUS → t.rd o = s.rd o) ∧ t.mem = s.mem) ∧
        (∃ t, exec (.lpTrainingDone false) s = .next t ∧ t.boot.lpTries = s.boot.lpTries + 1 ∧ t.on GLOBAL_BOOT_STATUS_LP_TRAINED = false ∧ t.mem = s.mem ∧
          (s.boot.lpTries < 2 → t.regs = s.regs ∧ t.trust = s.trust) ∧ (s.boot.lpTries = 2 → t.on GLOBAL_BOOT_STATUS_LP_FAIL = true ∧
            (s.trust.runtime.isSome = true → t.trust.uart = s.trust.uart ++ ["HX4 lp_fail round=" ++ toString s.round ++ "\r\n"])))))

/-- RESET_CTRL asks for the resets that its writer may ask for, and recovery fills, verifies and writes a slot. A bit of RESET_CTRL written by a requester
that Table 20.6 permits is kept for the next round boundary; one that it does not permit, and any but POR in or on entry to the safe state, is
discarded with REG_ACCESS; one contained in a reset whose start-up is in progress is discarded without error. At the boundary a POR overrides every
other. While no image can be started, RECOVER appends exactly the bytes of its word to the buffer; LAST verifies the buffer: past its end the transfer
fails with BAD_IMAGE, a failing check gives its status, the buffer is zeroed and flash and NOR are as before; an image that passes is written and
RECOVER_STATUS reads passed. At any other time both change nothing. What verification answers is opaque. Rests on the choices and readings of the
model in log entries 120, 124, 125. (R653; R654; R658; R659; R660) -/
def Obligations.ResetControlAndRecoveryObeyTheirRules : Prop :=
  ∀ (s : State),
    let ask := fun (q : Req) (k : Nat) => if k = 3 then Instr.resetPor q else if k = 4 then Instr.resetWatch q else if k = 5 then Instr.resetSpine q else Instr.resetHost q
    let entering := s.on ERROR_STATUS_SAFE = true ∨ s.on ERROR_STATUS_ENTERING = true
    (∀ (q : Req) (k : Nat), k = 3 ∨ k = 4 ∨ k = 5 ∨ k = 8 → s.holdOf q = none →
      let may := if k = 3 then q = .opantith else if k = 4 then q.secure = true else q = .pf ∨ q.secure = true
      let accepted := may ∧ (k = 3 ∨ ¬entering)
      (s.path q = false → exec (ask q k) s = .next s) ∧
      (s.path q = true → (¬accepted → ∃ t, exec (ask q k) s = .next t ∧ t.boot = s.boot ∧ t.on ERROR_STATUS_NOTE = true ∧
          (∀ o, o < 0xD00000 ∨ 0xE00000 ≤ o → t.rd o = s.rd o) ∧ t.mem = s.mem) ∧
        (accepted → s.resetBusy k = true ∨ k ∈ s.boot.due → exec (ask q k) s = .next s) ∧
        (accepted → s.resetBusy k = false → k ∉ s.boot.due → ∃ t, exec (ask q k) s = .next t ∧ t.boot.due = s.boot.due ++ [k] ∧ t.regs = s.regs ∧ t.mem = s.mem ∧ t.rings = s.rings))) ∧
    (∀ energy, s.boot.supply = .up → s.boot.resetLow = false → 3 ∈ s.boot.due → ∃ t, exec (.roundBoundary energy) s = .next t ∧ t.round = 0 ∧
      t.get GLOBAL_BOOT_STATUS_LAST_RESET = 3 ∧ t.boot.due = [] ∧ t.mem = [] ∧ (∀ r : Ring, t.ringState r = 0)) ∧
    (∀ w : Word,
      let n := s.trust.recover.words
      let b := 0xF002000000 + 4 * n
      let top := if s.trust.runtime.isNone = true then 0x1C0000 else 0x200000
      let past := (n ≠ 0 ∧ s.trust.recover.past = true) ∨ top < 4 * n + 4
      let fits := 4 * n + 4 ≤ 0x200000
      let emptied := fun (t : State) => ∀ a, t.byte a = if 0xF002000000 ≤ a ∧ a < 0xF002200000 then 0 else s.byte a
      (s.get SECURE_STATUS_BOOT_STATE ≠ 2 → exec (.recoverWord w) s = .next s ∧ exec (.recoverLast w) s = .next s) ∧
      (s.get SECURE_STATUS_BOOT_STATE = 2 →
        (∃ t, exec (.recoverWord w) s = .next t ∧ t.trust.recover.words = n + 1 ∧ t.trust.recover.state = 1 ∧ (t.trust.recover.past = true ↔ past) ∧
          t.regs = s.regs ∧ t.trust.flash = s.trust.flash ∧ t.trust.nor = s.trust.nor ∧
          (∀ a, t.byte a = if fits ∧ b ≤ a ∧ a < b + 4 then BitVec.ofNat 8 (w.toNat / 2 ^ (8 * (a - b))) else s.byte a)) ∧
        (past → ∃ t, exec (.recoverLast w) s = .next t ∧ t.trust.recover.state = 3 ∧ t.trust.recover.status = 3 ∧ t.trust.flash = s.trust.flash ∧ t.trust.nor = s.trust.nor ∧
          t.regs = s.regs ∧ emptied t) ∧
        (∀ u p, ¬past → exec (.recoverWord w) s = .next u → p = u.recoverPair → ∃ t, exec (.recoverLast w) s = .next t ∧
          match u.imgVerify (p + 1) (slotSize p - 0x1800) (u.rdMem 0xF002000000 0x1800) (fun k => .ok (u.rdMem 0xF002001800 k)) with
          | .error e => t.trust.recover.state = 3 ∧ t.trust.recover.status = e.1 ∧ t.trust.flash = s.trust.flash ∧ t.trust.nor = s.trust.nor ∧ t.regs = s.regs ∧ emptied t
          | .ok _ => t.trust.recover.state = 2)))
end

