-- ==== Sys2Proof/Laws/SMap.lean ====
section
/-! SUPPORT. What the sparse maps do: a read after a write, and that every operation keeps the canonical form. -/

namespace Sys2Proof.Machine

variable {α : Type}

theorem SMap.get_insert_same (d : Nat → α) (m : SMap α) (k : Nat) (v : α) : SMap.get d (SMap.insert m k v) k = v := by
  induction m with
  | nil => simp [SMap.insert, SMap.get]
  | cons e t ih =>
    obtain ⟨j, w⟩ := e
    simp only [SMap.insert]
    split
    · simp [SMap.get]
    · split
      · simp [SMap.get]
      · simp [SMap.get, *]

theorem SMap.get_insert_other (d : Nat → α) (m : SMap α) (k i : Nat) (v : α) (h : i ≠ k) :
    SMap.get d (SMap.insert m k v) i = SMap.get d m i := by
  induction m with
  | nil => simp [SMap.insert, SMap.get, h]
  | cons e t ih =>
    obtain ⟨j, w⟩ := e
    simp only [SMap.insert]
    split
    · simp [SMap.get, h]
    · split
      · next hk => subst hk; simp [SMap.get, h]
      · simp only [SMap.get, ih]

theorem SMap.get_erase_other (d : Nat → α) (m : SMap α) (k i : Nat) (h : i ≠ k) : SMap.get d (SMap.erase m k) i = SMap.get d m i := by
  induction m with
  | nil => simp [SMap.erase]
  | cons e t ih =>
    obtain ⟨j, w⟩ := e
    simp only [SMap.erase]
    split
    · next hk => subst hk; simp only [SMap.get, h, if_false, ih]
    · simp only [SMap.get, ih]

theorem SMap.get_erase_same (d : Nat → α) (m : SMap α) (k : Nat) : SMap.get d (SMap.erase m k) k = d k := by
  induction m with
  | nil => rfl
  | cons e t ih =>
    obtain ⟨j, w⟩ := e
    simp only [SMap.erase]
    split
    · exact ih
    · next hk => simp only [SMap.get, hk, if_false]; exact ih

/-- A write leaves every other key alone. -/
theorem SMap.get_set_other [DecidableEq α] (d : Nat → α) (m : SMap α) (k i : Nat) (v : α) (h : i ≠ k) :
    SMap.get d (SMap.set d m k v) i = SMap.get d m i := by
  unfold SMap.set
  split
  · exact SMap.get_erase_other d m k i h
  · exact SMap.get_insert_other d m k i v h

variable [DecidableEq α]

theorem SMap.wfFrom_mono (d : Nat → α) (m : SMap α) {a b : Nat} (h : a ≤ b) (hw : SMap.wfFrom d b m = true) : SMap.wfFrom d a m = true := by
  cases m with
  | nil => rfl
  | cons e t =>
    obtain ⟨k, v⟩ := e
    simp only [SMap.wfFrom, Bool.and_eq_true, decide_eq_true_eq] at hw ⊢
    exact ⟨⟨by omega, hw.1.2⟩, hw.2⟩

/-- A read after a write of the same key gives the value written, whatever the map. -/
theorem SMap.get_set_same (d : Nat → α) (m : SMap α) (k : Nat) (v : α) : SMap.get d (SMap.set d m k v) k = v := by
  unfold SMap.set
  split
  · next h => rw [SMap.get_erase_same d m k, h]
  · exact SMap.get_insert_same d m k v

/-- A read after a write, in one rule. -/
theorem SMap.get_set (d : Nat → α) (m : SMap α) (k i : Nat) (v : α) :
    SMap.get d (SMap.set d m k v) i = if i = k then v else SMap.get d m i := by
  split
  · next h => rw [h, SMap.get_set_same]
  · next h => exact SMap.get_set_other d m k i v h

theorem SMap.wfFrom_insert (d : Nat → α) (m : SMap α) {b : Nat} (k : Nat) (v : α) (hv : v ≠ d k) (hb : b ≤ k) (hw : SMap.wfFrom d b m = true) :
    SMap.wfFrom d b (SMap.insert m k v) = true := by
  induction m generalizing b with
  | nil => simp [SMap.insert, SMap.wfFrom, hv, hb]
  | cons e t ih =>
    obtain ⟨j, w⟩ := e
    simp only [SMap.wfFrom, Bool.and_eq_true, decide_eq_true_eq] at hw
    simp only [SMap.insert]
    split
    · next h => simp only [SMap.wfFrom, Bool.and_eq_true, decide_eq_true_eq]; exact ⟨⟨hb, hv⟩, ⟨by omega, hw.1.2⟩, hw.2⟩
    · split
      · next h => subst h; simp only [SMap.wfFrom, Bool.and_eq_true, decide_eq_true_eq]; exact ⟨⟨hb, hv⟩, hw.2⟩
      · simp only [SMap.wfFrom, Bool.and_eq_true, decide_eq_true_eq]; exact ⟨hw.1, ih (by omega) hw.2⟩

theorem SMap.wfFrom_erase (d : Nat → α) (m : SMap α) {b : Nat} (k : Nat) (hw : SMap.wfFrom d b m = true) : SMap.wfFrom d b (SMap.erase m k) = true := by
  induction m generalizing b with
  | nil => rfl
  | cons e t ih =>
    obtain ⟨j, w⟩ := e
    simp only [SMap.wfFrom, Bool.and_eq_true, decide_eq_true_eq] at hw
    simp only [SMap.erase]
    split
    · exact SMap.wfFrom_mono d _ (by omega) (ih hw.2)
    · simp only [SMap.wfFrom, Bool.and_eq_true, decide_eq_true_eq]; exact ⟨hw.1, ih hw.2⟩

/-- A write keeps the canonical form. -/
theorem SMap.wf_set (d : Nat → α) (m : SMap α) (k : Nat) (v : α) (hw : SMap.wf d m = true) : SMap.wf d (SMap.set d m k v) = true := by
  unfold SMap.set
  split
  · exact SMap.wfFrom_erase d m k hw
  · next h => exact SMap.wfFrom_insert d m k v h (Nat.zero_le k) hw

theorem SMap.wfFrom_filter (d : Nat → α) (m : SMap α) (p : Nat × α → Bool) {b : Nat} (hw : SMap.wfFrom d b m = true) :
    SMap.wfFrom d b (List.filter p m) = true := by
  induction m generalizing b with
  | nil => rfl
  | cons e t ih =>
    obtain ⟨j, w⟩ := e
    simp only [SMap.wfFrom, Bool.and_eq_true, decide_eq_true_eq] at hw
    simp only [List.filter]
    split
    · simp only [SMap.wfFrom, Bool.and_eq_true, decide_eq_true_eq]; exact ⟨hw.1, ih hw.2⟩
    · exact SMap.wfFrom_mono d _ (by omega) (ih hw.2)

/-- Dropping entries keeps the canonical form. -/
theorem SMap.wf_filter (d : Nat → α) (m : SMap α) (p : Nat × α → Bool) (hw : SMap.wf d m = true) : SMap.wf d (List.filter p m) = true :=
  SMap.wfFrom_filter d m p hw

theorem SMap.wf_nil (d : Nat → α) : SMap.wf d ([] : SMap α) = true := rfl

end Sys2Proof.Machine
end

