-- ==== Sys2Proof/Laws/Mem.lean ====
section
/-! SUPPORT. What writing and reading bytes of a memory do: a read after a write, what a write leaves alone, and that every memory operation keeps the
canonical form. -/

namespace Sys2Proof.Machine

/-- A byte after a write: what was written there, or what was there before. -/
theorem get_writeBytes (m : SMap Byte) (a x : Nat) (b : Bytes) :
    SMap.get memZero (writeBytes m a b) x = if a ≤ x ∧ x < a + b.length then b.getD (x - a) 0 else SMap.get memZero m x := by
  induction b generalizing m a with
  | nil => simp [writeBytes]
  | cons c t ih =>
    simp only [writeBytes, ih, SMap.get_set, List.length_cons]
    by_cases h : x = a
    · subst h
      rw [if_neg (by omega), if_pos rfl, if_pos (by omega)]
      simp
    · by_cases k : a + 1 ≤ x ∧ x < a + 1 + t.length
      · rw [if_pos k, if_pos (by omega)]
        obtain ⟨j, rfl⟩ : ∃ j, x = a + 1 + j := ⟨x - (a + 1), by omega⟩
        rw [show a + 1 + j - (a + 1) = j by omega, show a + 1 + j - a = j + 1 by omega]
        simp
      · rw [if_neg k, if_neg h, if_neg (by omega)]

/-- A byte of device memory after a write of bytes. -/
theorem State.byte_wrMem (s : State) (a x : Nat) (b : Bytes) :
    (s.wrMem a b).byte x = if a ≤ x ∧ x < a + b.length then b.getD (x - a) 0 else s.byte x := get_writeBytes s.mem a x b

/-- A write leaves every byte outside it as it was. -/
theorem State.byte_wrMem_other (s : State) (a x : Nat) (b : Bytes) (h : x < a ∨ a + b.length ≤ x) : (s.wrMem a b).byte x = s.byte x := by
  rw [State.byte_wrMem, if_neg (by omega)]

@[simp] theorem readBytes_length (m : SMap Byte) (a n : Nat) : (readBytes m a n).length = n := by
  induction n generalizing a with
  | zero => rfl
  | succ n ih => simp [readBytes, ih]

/-- The bytes read are the bytes of the memory. -/
theorem getD_readBytes (m : SMap Byte) (a n i : Nat) (h : i < n) : (readBytes m a n).getD i 0 = SMap.get memZero m (a + i) := by
  induction n generalizing a i with
  | zero => omega
  | succ n ih =>
    cases i with
    | zero => simp [readBytes]
    | succ i =>
      have := ih (a + 1) i (by omega)
      simp only [readBytes, List.getD_cons_succ, this]
      congr 1; omega

/-- A read of the bytes just written gives them. -/
theorem State.rdMem_wrMem_same (s : State) (a : Nat) (b : Bytes) : (s.wrMem a b).rdMem a b.length = b := by
  apply List.ext_getElem (by simp [State.rdMem])
  intro i h _
  have hi : i < b.length := by simpa [State.rdMem] using h
  have := getD_readBytes (writeBytes s.mem a b) a b.length i hi
  rw [get_writeBytes, if_pos (by omega), show a + i - a = i by omega] at this
  simpa [State.rdMem, State.wrMem, List.getD, h, hi] using this

/-- A write keeps the canonical form. -/
theorem wf_writeBytes (m : SMap Byte) (a : Nat) (b : Bytes) (h : SMap.wf memZero m = true) : SMap.wf memZero (writeBytes m a b) = true := by
  induction b generalizing m a with
  | nil => exact h
  | cons c t ih => exact ih _ _ (SMap.wf_set memZero m a c h)

theorem State.wf_wrMem (s : State) (a : Nat) (b : Bytes) (h : SMap.wf memZero s.mem = true) : SMap.wf memZero (s.wrMem a b).mem = true := wf_writeBytes _ _ _ h
theorem State.wf_wrHost (s : State) (a : Nat) (b : Bytes) (h : SMap.wf memZero s.hostMem = true) : SMap.wf memZero (s.wrHost a b).hostMem = true := wf_writeBytes _ _ _ h
theorem State.wf_keepMem (s : State) (p : Nat → Bool) (h : SMap.wf memZero s.mem = true) : SMap.wf memZero (s.keepMem p).mem = true := SMap.wf_filter _ _ _ h
theorem State.wf_keepRegs (s : State) (p : Nat → Bool) (h : SMap.wf regReset s.regs = true) : SMap.wf regReset (s.keepRegs p).regs = true := SMap.wf_filter _ _ _ h
theorem State.wf_wr (s : State) (o : Nat) (v : Word) (h : SMap.wf regReset s.regs = true) : SMap.wf regReset (s.wr o v).regs = true := SMap.wf_set _ _ _ _ h

end Sys2Proof.Machine
end

