-- ==== Sys2Proof/Laws/Closed.lean ====
section
/-! SUPPORT. A property that every elementary update keeps is kept by every operation built from them: the interface through which an invariant of every step
is shown, and the two properties that the invariants of this model need. -/

namespace Sys2Proof.Machine

/-- A property of states that every elementary update of Machine/Ops.lean keeps. -/
structure Closed (P : State → Prop) : Prop where
  wr : ∀ s o v, P s → P (s.wr o v)
  wrMem : ∀ s a b, P s → P (s.wrMem a b)
  wrHost : ∀ s a b, P s → P (s.wrHost a b)
  keepMem : ∀ s p, P s → P (s.keepMem p)
  keepRegs : ∀ s p, P s → P (s.keepRegs p)
  setErr : ∀ s f, P s → P (s.setErr f)
  setRnd : ∀ s f, P s → P (s.setRnd f)
  setFetch : ∀ s f, P s → P (s.setFetch f)
  setTxn : ∀ s f, P s → P (s.setTxn f)
  setFloor : ∀ s f, P s → P (s.setFloor f)
  setServe : ∀ s f, P s → P (s.setServe f)
  setVis : ∀ s f, P s → P (s.setVis f)
  setMemc : ∀ s f, P s → P (s.setMemc f)
  setFab : ∀ s f, P s → P (s.setFab f)
  setXp : ∀ s f, P s → P (s.setXp f)
  setRelay : ∀ s f, P s → P (s.setRelay f)
  setPwr : ∀ s f, P s → P (s.setPwr f)
  setGov : ∀ s f, P s → P (s.setGov f)
  setFw : ∀ s f, P s → P (s.setFw f)
  setBoot : ∀ s f, P s → P (s.setBoot f)
  setTrust : ∀ s f, P s → P (s.setTrust f)
  setLinks : ∀ s f, P s → P (s.setLinks f)
  setBus : ∀ s f, P s → P (s.setBus f)
  setActing : ∀ s l, P s → P (s.setActing l)
  putPoison : ∀ s l, P s → P (s.putPoison l)
  sendIrq : ∀ s i, P s → P (s.sendIrq i)
  setLedgerRun : ∀ s n, P s → P (s.setLedgerRun n)
  clearRings : ∀ s, P s → P s.clearRings
  setRing : ∀ s r d, P s → P (s.setRing r d)
  setPort : ∀ s p f, P s → P (s.setPort p f)
  useFree : ∀ s, P s → P s.useFree
  useFrees : ∀ s n, P s → P (s.useFrees n)

/-- The queue of waiting commands is this one. -/
theorem closed_pending (l : List Instr) : Closed (fun s => s.pending = l) := by
  constructor <;> intros <;> assumption

/-- The register file and both memories are in canonical form. -/
theorem closed_canonical : Closed (fun s => SMap.wf memZero s.mem = true ∧ SMap.wf memZero s.hostMem = true ∧ SMap.wf regReset s.regs = true) := by
  constructor
  case wr => intro s o v h; exact ⟨h.1, h.2.1, State.wf_wr s o v h.2.2⟩
  case wrMem => intro s a b h; exact ⟨State.wf_wrMem s a b h.1, h.2⟩
  case wrHost => intro s a b h; exact ⟨h.1, State.wf_wrHost s a b h.2.1, h.2.2⟩
  case keepMem => intro s p h; exact ⟨State.wf_keepMem s p h.1, h.2⟩
  case keepRegs => intro s p h; exact ⟨h.1, h.2.1, State.wf_keepRegs s p h.2.2⟩
  all_goals intros; assumption

namespace Closed
variable {P : State → Prop} (h : Closed P)
include h

theorem ite (c : Prop) [Decidable c] {a b : State} (ha : P a) (hb : P b) : P (if c then a else b) := by
  have := h; split <;> assumption

/-- A fold over a list keeps the property if each of its steps does. -/
theorem each {α : Type} (f : State → α → State) (hf : ∀ s x, P s → P (f s x)) (l : List α) (s : State) (hs : P s) : P (s.each l f) := by
  have := h
  unfold State.each
  induction l generalizing s with
  | nil => exact hs
  | cons x t ih => exact ih _ (hf s x hs)

theorem wrN (s : State) (o n : Nat) (hs : P s) : P (s.wrN o n) := h.wr _ _ _ hs
theorem put (s : State) (f : Fld) (n : Nat) (hs : P s) : P (s.put f n) := h.wr _ _ _ hs
theorem putB (s : State) (f : Fld) (b : Bool) (hs : P s) : P (s.putB f b) := h.wr _ _ _ hs
theorem setBit (s : State) (o i : Nat) (b : Bool) (hs : P s) : P (s.setBit o i b) := h.wr _ _ _ hs
theorem addSat (s : State) (o n : Nat) (hs : P s) : P (s.addSat o n) := h.wr _ _ _ hs
theorem add64 (s : State) (o n : Nat) (hs : P s) : P (s.add64 o n) := h.wr _ _ _ hs
theorem wrCfg (s : State) (o n : Nat) (hs : P s) : P (s.wrCfg o n) := h.wr _ _ _ (h.setActing _ _ hs)
theorem atNs (s : State) (t : Nat) (hs : P s) : P (s.atNs t) := h.wr _ _ _ (h.setRnd _ _ hs)
theorem setUnit (s : State) (i : Nat) (u : Option RunUnit) (hs : P s) : P (s.setUnit i u) := h.setRnd _ _ hs

theorem msix (s : State) (f v : Nat) (hs : P s) : P (s.msix f v) := by
  unfold State.msix; split_ifs <;> first | exact h.sendIrq _ _ hs | exact hs

theorem coreIrq (s : State) (b : Bool) (n : Nat) (v : Option Nat) (hs : P s) : P (s.coreIrq b n v) := by
  unfold State.coreIrq; split_ifs <;> first | exact h.sendIrq _ _ hs | exact hs

theorem irqTo (s : State) (f v n : Nat) (hs : P s) : P (s.irqTo f v n) := by
  unfold State.irqTo; split_ifs <;> first | exact h.msix _ _ _ hs | exact h.coreIrq _ _ _ _ hs | exact hs

theorem errSync (s : State) (hs : P s) : P s.errSync := by
  unfold State.errSync
  dsimp only
  split <;> exact h.put _ _ _ (h.putB _ _ _ (h.put _ _ _ hs))

theorem errIrq (s : State) (c : Nat) (hs : P s) : P (s.errIrq c) := by
  have k : P (if (s.cfgOn Reg.ERROR_IRQ_CFG_EN && decide (s.cfg Reg.ERROR_IRQ_CFG_MIN_CLASS ≤ c)) = true then
      (s.msix 0 (s.cfg Reg.ERROR_IRQ_CFG_VECTOR)).coreIrq false 0xD0 none else s) := h.ite _ (h.coreIrq _ _ _ _ (h.msix _ _ _ hs)) hs
  unfold State.errIrq
  exact h.ite _ (h.coreIrq _ _ _ _ k) k

theorem errSelect (s : State) (hs : P s) : P s.errSelect := by
  unfold State.errSelect
  split
  · exact h.errIrq _ _ (h.errSync _ (h.setErr _ _ hs))
  · exact h.errSync _ hs

theorem errStatus (s : State) (c : ErrClass) (hs : P s) : P (s.errStatus c) := by
  cases c
  · exact h.putB _ _ _ hs
  · exact h.putB _ _ _ hs
  · exact h.putB _ _ _ hs
  · exact h.putB _ _ _ (h.putB _ _ _ hs)

theorem errEnqueue (s : State) (r : ErrRec) (hs : P s) : P (s.errEnqueue r) := by
  unfold State.errEnqueue
  dsimp only
  split
  · exact h.errSelect _ (h.setErr _ _ hs)
  · split
    · exact h.errIrq _ _ (h.errSync _ (h.setErr _ _ (h.setErr _ _ hs)))
    · exact h.errSync _ (h.setErr _ _ hs)

theorem errRecord (s : State) (e : Err) (c : ErrClass) (a b : Bool) (hs : P s) : P (s.errRecord e c a b) := by
  unfold State.errRecord
  dsimp only
  split
  · exact h.setErr _ _ hs
  · split
    · exact h.errEnqueue _ _ (h.useFree _ (h.wrN _ _ _ hs))
    · split
      · exact h.errEnqueue _ _ (h.setErr _ _ (h.addSat _ _ _ (h.wrN _ _ _ hs)))
      · exact h.addSat _ _ _ hs

theorem fatal (s : State) (code : Nat) (hs : P s) : P (s.fatal code) := by
  have hn : ∀ u : State, P u → P (if (code == Code.THERMAL_TRIP && u.err.notify.isNone) = true then
      State.coreIrq ((u.setErr fun z => { z with notify := some u.round }).putB ⟨Reg.SECURE_SEC_NOTIFY, 0, 0⟩ true) true 0xC0 none else u) := fun u hu =>
    h.ite _ (h.coreIrq _ _ _ _ (h.putB _ _ _ (h.setErr _ _ hu))) hu
  unfold State.fatal
  dsimp only
  split
  · split
    · split
      · exact hn _ (h.setErr _ _ hs)
      · exact h.setErr _ _ hs
    · exact hs
  · split
    · exact hn _ (h.setErr _ _ (h.putB _ _ _ hs))
    · exact hn _ (h.setErr _ _ (h.putB _ _ _ (h.put _ _ _ (h.putB _ _ _ hs))))

/-- Reporting an error keeps the property. -/
theorem report (s : State) (e : Err) (hs : P s) : P (s.report e) := by
  unfold State.report
  split
  · exact hs
  · dsimp only
    split
    · exact h.fatal _ _ (h.errRecord _ _ _ _ _ (h.errStatus _ _ hs))
    · exact h.errRecord _ _ _ _ _ (h.errStatus _ _ hs)

end Closed

end Sys2Proof.Machine
end

