-- ==== Sys2Proof/Laws/Regs.lean ====
section
/-! SUPPORT. What reading and writing registers and their fields do: a read after a write, and what a write leaves alone. -/

namespace Sys2Proof

/-- A number cut at bits `lo` and `lo + w`: what lies above, between and below. -/
theorem Word.nat_cut (x lo w : Nat) : x = x / 2 ^ (lo + w) * 2 ^ (lo + w) + x / 2 ^ lo % 2 ^ w * 2 ^ lo + x % 2 ^ lo := by
  have h1 := Nat.div_add_mod x (2 ^ lo)
  have h2 := Nat.div_add_mod (x / 2 ^ lo) (2 ^ w)
  rw [Nat.div_div_eq_div_mul, ← Nat.pow_add] at h2
  have h3 : 2 ^ (lo + w) = 2 ^ lo * 2 ^ w := Nat.pow_add 2 lo w
  generalize x / 2 ^ (lo + w) = a at *
  generalize x / 2 ^ lo % 2 ^ w = b at *
  rw [h3, ← h1, ← h2]
  have : (2 ^ lo * (2 ^ w * a + b) + x % 2 ^ lo) % 2 ^ lo = x % 2 ^ lo := by
    rw [Nat.mul_add_mod]; exact Nat.mod_mod x _
  rw [this]; ring

/-- The value of a word after a field has been replaced. -/
theorem Word.setBits_toNat (v : Word) (hi lo n : Nat) (hl : lo ≤ hi) (hh : hi < 64) :
    (Word.setBits v hi lo n).toNat =
      v.toNat / 2 ^ (hi + 1) * 2 ^ (hi + 1) + n % 2 ^ (hi + 1 - lo) * 2 ^ lo + v.toNat % 2 ^ lo := by
  generalize hwd : hi + 1 - lo = w
  have he : hi + 1 = lo + w := by omega
  have hcut := Word.nat_cut v.toNat lo w
  have hv : v.toNat < 2 ^ 64 := v.isLt
  have hpow : 2 ^ (lo + w) = 2 ^ lo * 2 ^ w := Nat.pow_add 2 lo w
  have h64 : (2 : Nat) ^ 64 = 2 ^ (lo + w) * 2 ^ (64 - (lo + w)) := by
    rw [← Nat.pow_add]; congr 1; omega
  have hq : v.toNat / 2 ^ (lo + w) < 2 ^ (64 - (lo + w)) := by
    apply Nat.div_lt_of_lt_mul; rw [← h64]; exact hv
  have hn : n % 2 ^ w < 2 ^ w := Nat.mod_lt _ (Nat.two_pow_pos w)
  have hm : v.toNat % 2 ^ lo < 2 ^ lo := Nat.mod_lt _ (Nat.two_pow_pos lo)
  have key : v.toNat - Word.bits v hi lo * 2 ^ lo + n % 2 ^ w * 2 ^ lo =
      v.toNat / 2 ^ (lo + w) * 2 ^ (lo + w) + n % 2 ^ w * 2 ^ lo + v.toNat % 2 ^ lo := by
    simp only [Word.bits, hwd]
    generalize v.toNat / 2 ^ lo % 2 ^ w * 2 ^ lo = b at *
    generalize v.toNat / 2 ^ (lo + w) * 2 ^ (lo + w) = a at *
    omega
  unfold Word.setBits
  rw [hwd, key, he, BitVec.toNat_ofNat, Nat.mod_eq_of_lt]
  have hp : 0 < 2 ^ lo := Nat.two_pow_pos lo
  generalize v.toNat % 2 ^ lo = c at *
  generalize n % 2 ^ w = b at *
  generalize v.toNat / 2 ^ (lo + w) = a at *
  have h5 : b * 2 ^ lo + c < 2 ^ (lo + w) := by
    rw [hpow]
    calc b * 2 ^ lo + c < b * 2 ^ lo + 2 ^ lo := by omega
      _ = (b + 1) * 2 ^ lo := by ring
      _ ≤ 2 ^ w * 2 ^ lo := Nat.mul_le_mul_right _ hn
      _ = 2 ^ lo * 2 ^ w := by ring
  rw [h64]
  calc a * 2 ^ (lo + w) + b * 2 ^ lo + c < (a + 1) * 2 ^ (lo + w) := by rw [Nat.add_mul, Nat.one_mul]; omega
    _ ≤ 2 ^ (64 - (lo + w)) * 2 ^ (lo + w) := Nat.mul_le_mul_right _ hq
    _ = _ := by ring

/-- Bit `i` of a word after a field has been replaced. -/
theorem Word.testBit_setBits (v : Word) (hi lo n i : Nat) (hl : lo ≤ hi) (hh : hi < 64) :
    (Word.setBits v hi lo n).toNat.testBit i = if lo ≤ i ∧ i ≤ hi then n.testBit (i - lo) else v.toNat.testBit i := by
  rw [Word.setBits_toNat v hi lo n hl hh]
  have hm : v.toNat % 2 ^ lo < 2 ^ lo := Nat.mod_lt _ (Nat.two_pow_pos lo)
  have hn : n % 2 ^ (hi + 1 - lo) < 2 ^ (hi + 1 - lo) := Nat.mod_lt _ (Nat.two_pow_pos _)
  have hlow : n % 2 ^ (hi + 1 - lo) * 2 ^ lo + v.toNat % 2 ^ lo < 2 ^ (hi + 1) := by
    have : (2 : Nat) ^ (hi + 1) = 2 ^ lo * 2 ^ (hi + 1 - lo) := by rw [← Nat.pow_add]; congr 1; omega
    rw [this]
    generalize n % 2 ^ (hi + 1 - lo) = b at *
    generalize v.toNat % 2 ^ lo = c at *
    calc b * 2 ^ lo + c < b * 2 ^ lo + 2 ^ lo := by omega
      _ = (b + 1) * 2 ^ lo := by ring
      _ ≤ 2 ^ (hi + 1 - lo) * 2 ^ lo := Nat.mul_le_mul_right _ hn
      _ = _ := by ring
  rw [Nat.add_assoc, Nat.mul_comm (v.toNat / 2 ^ (hi + 1)), Nat.testBit_two_pow_mul_add _ hlow,
    Nat.mul_comm _ (2 ^ lo), Nat.testBit_two_pow_mul_add _ hm]
  by_cases h1 : i < hi + 1
  · by_cases h2 : i < lo
    · have h3 : ¬(lo ≤ i ∧ i ≤ hi) := by omega
      simp [h1, h2, h3, Nat.testBit_mod_two_pow]
    · have h3 : lo ≤ i ∧ i ≤ hi := by omega
      have h4 : i - lo < hi + 1 - lo := by omega
      simp [h1, h2, h3, h4, Nat.testBit_mod_two_pow]
  · have h3 : ¬(lo ≤ i ∧ i ≤ hi) := by omega
    have h4 : hi + 1 + (i - (hi + 1)) = i := by omega
    simp only [h1, if_false, h3, Nat.testBit_div_two_pow]
    congr 1; omega

/-- Bit `i` of a field of a word. -/
theorem Word.testBit_bits (v : Word) (hi lo i : Nat) :
    (Word.bits v hi lo).testBit i = (decide (i < hi + 1 - lo) && v.toNat.testBit (lo + i)) := by
  simp [Word.bits, Nat.testBit_mod_two_pow, Nat.testBit_div_two_pow, Nat.add_comm]

/-- A field reads as the number put into it, cut to its width. -/
theorem Word.bits_setBits_same (v : Word) (hi lo n : Nat) (hl : lo ≤ hi) (hh : hi < 64) :
    Word.bits (Word.setBits v hi lo n) hi lo = n % 2 ^ (hi + 1 - lo) := by
  apply Nat.eq_of_testBit_eq
  intro i
  rw [Word.testBit_bits, Word.testBit_setBits _ _ _ _ _ hl hh, Nat.testBit_mod_two_pow]
  by_cases h : i < hi + 1 - lo
  · have h1 : lo ≤ lo + i ∧ lo + i ≤ hi := by omega
    simp [h, h1]
  · simp [h]

/-- A field that shares no bit with the one replaced reads as before. -/
theorem Word.bits_setBits_apart (v : Word) (hi lo n hi' lo' : Nat) (hl : lo ≤ hi) (hh : hi < 64) (h : hi < lo' ∨ hi' < lo) :
    Word.bits (Word.setBits v hi lo n) hi' lo' = Word.bits v hi' lo' := by
  apply Nat.eq_of_testBit_eq
  intro i
  rw [Word.testBit_bits, Word.testBit_bits, Word.testBit_setBits _ _ _ _ _ hl hh]
  by_cases h1 : i < hi' + 1 - lo'
  · have h2 : ¬(lo ≤ lo' + i ∧ lo' + i ≤ hi) := by omega
    simp [h1, h2]
  · simp [h1]

end Sys2Proof

namespace Sys2Proof.Machine

/-- A register reads as the value written to it; every other register reads as before. -/
theorem State.rd_wr (s : State) (off i : Nat) (v : Word) : (s.wr off v).rd i = if i = off then v else s.rd i :=
  SMap.get_set regReset s.regs off i v

@[simp] theorem State.rd_wr_same (s : State) (off : Nat) (v : Word) : (s.wr off v).rd off = v := by simp [State.rd_wr]

theorem State.rd_wr_other (s : State) (off i : Nat) (v : Word) (h : i ≠ off) : (s.wr off v).rd i = s.rd i := by simp [State.rd_wr, h]

/-- A number written to a register reads back cut to 64 bits. -/
@[simp] theorem State.rdN_wrN_same (s : State) (off n : Nat) : (s.wrN off n).rdN off = n % 2 ^ 64 := by
  simp [State.wrN, State.rdN]

theorem State.rd_wrN_other (s : State) (off i n : Nat) (h : i ≠ off) : (s.wrN off n).rd i = s.rd i := State.rd_wr_other s off i _ h

theorem State.rdN_wrN_other (s : State) (off i n : Nat) (h : i ≠ off) : (s.wrN off n).rdN i = s.rdN i := by
  simp [State.rdN, State.rd_wrN_other s off i n h]

/-- A field reads as the number put into it, cut to its width. -/
theorem State.get_put_same (s : State) (f : Fld) (n : Nat) (hl : f.lo ≤ f.hi) (hh : f.hi < 64) :
    (s.put f n).get f = n % 2 ^ (f.hi + 1 - f.lo) := by
  simp [State.put, State.get, Word.bits_setBits_same _ _ _ _ hl hh]

/-- A field of the same register that shares no bit reads as before. -/
theorem State.get_put_apart (s : State) (f g : Fld) (n : Nat) (hl : f.lo ≤ f.hi) (hh : f.hi < 64) (h : f.hi < g.lo ∨ g.hi < f.lo) :
    (s.put f n).get g = s.get g := by
  by_cases hr : g.reg = f.reg
  · simp [State.put, State.get, hr, Word.bits_setBits_apart _ _ _ _ _ _ hl hh h]
  · simp [State.put, State.get, State.rd_wr, hr]

theorem State.rd_put_other (s : State) (f : Fld) (n i : Nat) (h : i ≠ f.reg) : (s.put f n).rd i = s.rd i := State.rd_wr_other s _ i _ h

theorem State.rdN_put_other (s : State) (f : Fld) (n i : Nat) (h : i ≠ f.reg) : (s.put f n).rdN i = s.rdN i := by
  simp [State.rdN, State.rd_put_other s f n i h]

theorem State.get_put_other (s : State) (f g : Fld) (n : Nat) (h : g.reg ≠ f.reg) : (s.put f n).get g = s.get g := by
  simp [State.get, State.rd_put_other s f n _ h]

theorem State.get_wrN_other (s : State) (off n : Nat) (g : Fld) (h : g.reg ≠ off) : (s.wrN off n).get g = s.get g := by
  simp [State.get, State.rd_wrN_other s off _ n h]

theorem State.get_wr_other (s : State) (off : Nat) (v : Word) (g : Fld) (h : g.reg ≠ off) : (s.wr off v).get g = s.get g := by
  simp [State.get, State.rd_wr_other s off _ v h]

/-- A one-bit field reads as the truth put into it. -/
theorem State.on_putB_same (s : State) (f : Fld) (b : Bool) (hl : f.lo = f.hi) (hh : f.hi < 64) : (s.putB f b).on f = b := by
  simp only [State.putB, State.on, State.get_put_same s f _ (by omega) hh]
  have : f.hi + 1 - f.lo = 1 := by omega
  rw [this]; cases b <;> rfl

end Sys2Proof.Machine
end

