-- ==== Sys2Proof/Laws/Report.lean ====
section
/-! SUPPORT. What reporting an error can do, said once: it changes ERROR registers, the error unit, the interrupts sent and the count of free values used
up, and nothing else. -/

namespace Sys2Proof.Machine
open Reg

/-- `t` is `s` but for the ERROR block, SEC_NOTIFY, the error unit, interrupts sent and the count of free values. -/
def Reported (s t : State) : Prop :=
  (∃ regs err irqs n, t = { s with regs := regs, err := err, irqs := irqs, freeCtr := n }) ∧
    ∀ o, o ≠ SECURE_SEC_NOTIFY → o < 0xD00000 ∨ 0xE00000 ≤ o → t.rd o = s.rd o

theorem Reported.refl (s : State) : Reported s s := ⟨⟨s.regs, s.err, s.irqs, s.freeCtr, rfl⟩, fun _ _ _ => rfl⟩

theorem Reported.trans {s t u : State} (h : Reported s t) (k : Reported t u) : Reported s u := by
  obtain ⟨⟨_, _, _, _, rfl⟩, h⟩ := h
  obtain ⟨⟨r, e, i, n, rfl⟩, k⟩ := k
  exact ⟨⟨r, e, i, n, rfl⟩, fun o ho hr => (k o ho hr).trans (h o ho hr)⟩

theorem Reported.setErr (s : State) (f : ErrSt → ErrSt) : Reported s (s.setErr f) := ⟨⟨s.regs, f s.err, s.irqs, s.freeCtr, rfl⟩, fun _ _ _ => rfl⟩
theorem Reported.sendIrq (s : State) (i : Irq) : Reported s (s.sendIrq i) := ⟨⟨s.regs, s.err, s.irqs ++ [i], s.freeCtr, rfl⟩, fun _ _ _ => rfl⟩
theorem Reported.useFree (s : State) : Reported s s.useFree := ⟨⟨s.regs, s.err, s.irqs, s.freeCtr + 1, rfl⟩, fun _ _ _ => rfl⟩

/-- A register of the ERROR block, or SEC_NOTIFY. -/
def errReg (o : Nat) : Prop := o = SECURE_SEC_NOTIFY ∨ (0xD00000 ≤ o ∧ o < 0xE00000)

theorem Reported.wr (s : State) (o : Nat) (v : Word) (h : errReg o) : Reported s (s.wr o v) := by
  refine ⟨⟨_, s.err, s.irqs, s.freeCtr, rfl⟩, fun i hi hr => State.rd_wr_other s o i v ?_⟩
  rintro rfl
  rcases h with h | h
  · exact hi h
  · omega

theorem Reported.put (s : State) (f : Fld) (n : Nat) (h : errReg f.reg) : Reported s (s.put f n) := Reported.wr s _ _ h
theorem Reported.putB (s : State) (f : Fld) (b : Bool) (h : errReg f.reg) : Reported s (s.putB f b) := Reported.wr s _ _ h
theorem Reported.wrN (s : State) (o n : Nat) (h : errReg o) : Reported s (s.wrN o n) := Reported.wr s _ _ h
theorem Reported.addSat (s : State) (o n : Nat) (h : errReg o) : Reported s (s.addSat o n) := Reported.wr s _ _ h

theorem Reported.msix (s : State) (f v : Nat) : Reported s (s.msix f v) := by
  unfold State.msix
  split_ifs <;> first | exact Reported.sendIrq s _ | exact Reported.refl s

theorem Reported.coreIrq (s : State) (b : Bool) (n : Nat) (v : Option Nat) : Reported s (s.coreIrq b n v) := by
  unfold State.coreIrq; split
  · exact Reported.sendIrq s _
  · exact Reported.refl s

theorem errReg_status : errReg ERROR_STATUS := .inr (by decide)

theorem Reported.errSync (s : State) : Reported s s.errSync := by
  unfold State.errSync
  dsimp only
  split
  · exact ((Reported.put s _ _ errReg_status).trans (Reported.putB _ _ _ errReg_status)).trans (Reported.put _ _ _ errReg_status)
  · exact ((Reported.put s _ _ errReg_status).trans (Reported.putB _ _ _ errReg_status)).trans (Reported.put _ _ _ errReg_status)

theorem Reported.errIrq (s : State) (c : Nat) : Reported s (s.errIrq c) := by
  unfold State.errIrq
  dsimp only
  have h : Reported s (if (s.cfgOn ERROR_IRQ_CFG_EN && decide (s.cfg ERROR_IRQ_CFG_MIN_CLASS ≤ c)) = true then
      (s.msix 0 (s.cfg ERROR_IRQ_CFG_VECTOR)).coreIrq false 0xD0 none else s) := by
    split
    · exact (Reported.msix s _ _).trans (Reported.coreIrq _ _ _ _)
    · exact Reported.refl s
  split
  · exact h.trans (Reported.coreIrq _ _ _ _)
  · exact h

theorem Reported.errSelect (s : State) : Reported s s.errSelect := by
  unfold State.errSelect
  split
  · exact ((Reported.setErr s _).trans (Reported.errSync _)).trans (Reported.errIrq _ _)
  · exact Reported.errSync s

theorem Reported.errStatus (s : State) (c : ErrClass) : Reported s (s.errStatus c) := by
  cases c
  · exact Reported.putB _ _ _ errReg_status
  · exact Reported.putB _ _ _ errReg_status
  · exact Reported.putB _ _ _ errReg_status
  · exact (Reported.putB _ _ _ errReg_status).trans (Reported.putB _ _ _ errReg_status)

theorem Reported.errEnqueue (s : State) (r : ErrRec) : Reported s (s.errEnqueue r) := by
  unfold State.errEnqueue
  dsimp only
  split
  · exact (Reported.setErr s _).trans (Reported.errSelect _)
  · split
    · exact (((Reported.setErr s _).trans (Reported.setErr _ _)).trans (Reported.errSync _)).trans (Reported.errIrq _ _)
    · exact (Reported.setErr s _).trans (Reported.errSync _)

theorem errReg_seq : errReg ERROR_SEQ_NEXT := .inr (by decide)

theorem errReg_lost (k : Nat) (h : k < 0x1000) : errReg (ERROR_LOST k) := .inr (by simp only [ERROR_LOST]; omega)

theorem displaced_below {cur : Option Nat} {c : Nat} {l : List ErrRec} {b : ErrRec} (h : displaced cur c l = some b) : b.cls < c := by
  induction l with
  | nil => simp [displaced] at h
  | cons r t ih =>
    simp only [displaced] at h
    split at h
    · exact ih h
    · next hr =>
      simp only [Bool.or_eq_true, decide_eq_true_eq, not_or, Nat.not_le] at hr
      split at h
      · cases h; exact hr.2
      · next x hx =>
        split at h
        · cases h; exact ih hx
        · cases h; exact hr.2

theorem ErrClass.code_lt (k : ErrClass) : k.code < 4 := by cases k <;> decide

theorem Reported.errRecord (s : State) (e : Err) (c : ErrClass) (a b : Bool) : Reported s (s.errRecord e c a b) := by
  have hc := ErrClass.code_lt c
  unfold State.errRecord
  dsimp only
  split
  · exact Reported.setErr s _
  · split
    · exact ((Reported.wrN s _ _ errReg_seq).trans (Reported.useFree _)).trans (Reported.errEnqueue _ _)
    · split
      · next x hx =>
        have := displaced_below hx
        exact (((Reported.wrN s _ _ errReg_seq).trans (Reported.addSat _ _ _ (errReg_lost _ (by omega)))).trans (Reported.setErr _ _)).trans (Reported.errEnqueue _ _)
      · exact Reported.addSat _ _ _ (errReg_lost _ (by omega))

theorem errReg_safeStatus : errReg ERROR_SAFE_STATUS := .inr (by decide)
theorem errReg_notify : errReg SECURE_SEC_NOTIFY := .inl rfl

theorem Reported.fatal (s : State) (code : Nat) : Reported s (s.fatal code) := by
  have hn : ∀ u : State, Reported u (if (code == Code.THERMAL_TRIP && u.err.notify.isNone) = true then
      State.coreIrq ((u.setErr fun z => { z with notify := some u.round }).putB ⟨SECURE_SEC_NOTIFY, 0, 0⟩ true) true 0xC0 none else u) := fun u => by
    split
    · exact ((Reported.setErr u _).trans (Reported.putB _ _ _ errReg_notify)).trans (Reported.coreIrq _ _ _ _)
    · exact Reported.refl u
  unfold State.fatal
  dsimp only
  split
  · split
    · split
      · exact (Reported.setErr s _).trans (hn _)
      · exact Reported.setErr s _
    · exact Reported.refl s
  · split
    · exact ((Reported.putB s _ _ errReg_safeStatus).trans (Reported.setErr _ _)).trans (hn _)
    · exact ((((Reported.putB s _ _ errReg_status).trans (Reported.put _ _ _ errReg_safeStatus)).trans (Reported.putB _ _ _ errReg_safeStatus)).trans (Reported.setErr _ _)).trans (hn _)

/-- Everything that a report can do. -/
theorem State.report_reported (s : State) (e : Err) : Reported s (s.report e) := by
  unfold State.report
  split
  · exact Reported.refl s
  · dsimp only
    split
    · exact ((Reported.errStatus s _).trans (Reported.errRecord _ _ _ _ _)).trans (Reported.fatal _ _)
    · exact (Reported.errStatus s _).trans (Reported.errRecord _ _ _ _ _)

/-- A report leaves every register outside the ERROR block as it was, but for the notification that a THERMAL_TRIP starts. -/
theorem State.rd_report (s : State) (e : Err) (o : Nat) (h : o ≠ SECURE_SEC_NOTIFY) (hr : o < 0xD00000 ∨ 0xE00000 ≤ o) : (s.report e).rd o = s.rd o :=
  (State.report_reported s e).2 o h hr

@[simp] theorem State.report_mem (s : State) (e : Err) : (s.report e).mem = s.mem := by obtain ⟨⟨_, _, _, _, h⟩, _⟩ := State.report_reported s e; rw [h]
@[simp] theorem State.report_hostMem (s : State) (e : Err) : (s.report e).hostMem = s.hostMem := by obtain ⟨⟨_, _, _, _, h⟩, _⟩ := State.report_reported s e; rw [h]
@[simp] theorem State.report_acting (s : State) (e : Err) : (s.report e).acting = s.acting := by obtain ⟨⟨_, _, _, _, h⟩, _⟩ := State.report_reported s e; rw [h]
@[simp] theorem State.report_poison (s : State) (e : Err) : (s.report e).poison = s.poison := by obtain ⟨⟨_, _, _, _, h⟩, _⟩ := State.report_reported s e; rw [h]
@[simp] theorem State.report_rnd (s : State) (e : Err) : (s.report e).rnd = s.rnd := by obtain ⟨⟨_, _, _, _, h⟩, _⟩ := State.report_reported s e; rw [h]
@[simp] theorem State.report_rings (s : State) (e : Err) : (s.report e).rings = s.rings := by obtain ⟨⟨_, _, _, _, h⟩, _⟩ := State.report_reported s e; rw [h]
@[simp] theorem State.report_fetch (s : State) (e : Err) : (s.report e).fetch = s.fetch := by obtain ⟨⟨_, _, _, _, h⟩, _⟩ := State.report_reported s e; rw [h]
@[simp] theorem State.report_txn (s : State) (e : Err) : (s.report e).txn = s.txn := by obtain ⟨⟨_, _, _, _, h⟩, _⟩ := State.report_reported s e; rw [h]
@[simp] theorem State.report_floor (s : State) (e : Err) : (s.report e).floor = s.floor := by obtain ⟨⟨_, _, _, _, h⟩, _⟩ := State.report_reported s e; rw [h]
@[simp] theorem State.report_serve (s : State) (e : Err) : (s.report e).serve = s.serve := by obtain ⟨⟨_, _, _, _, h⟩, _⟩ := State.report_reported s e; rw [h]
@[simp] theorem State.report_vis (s : State) (e : Err) : (s.report e).vis = s.vis := by obtain ⟨⟨_, _, _, _, h⟩, _⟩ := State.report_reported s e; rw [h]
@[simp] theorem State.report_memc (s : State) (e : Err) : (s.report e).memc = s.memc := by obtain ⟨⟨_, _, _, _, h⟩, _⟩ := State.report_reported s e; rw [h]
@[simp] theorem State.report_fab (s : State) (e : Err) : (s.report e).fab = s.fab := by obtain ⟨⟨_, _, _, _, h⟩, _⟩ := State.report_reported s e; rw [h]
@[simp] theorem State.report_xp (s : State) (e : Err) : (s.report e).xp = s.xp := by obtain ⟨⟨_, _, _, _, h⟩, _⟩ := State.report_reported s e; rw [h]
@[simp] theorem State.report_ports (s : State) (e : Err) : (s.report e).ports = s.ports := by obtain ⟨⟨_, _, _, _, h⟩, _⟩ := State.report_reported s e; rw [h]
@[simp] theorem State.report_relay (s : State) (e : Err) : (s.report e).relay = s.relay := by obtain ⟨⟨_, _, _, _, h⟩, _⟩ := State.report_reported s e; rw [h]
@[simp] theorem State.report_pwr (s : State) (e : Err) : (s.report e).pwr = s.pwr := by obtain ⟨⟨_, _, _, _, h⟩, _⟩ := State.report_reported s e; rw [h]
@[simp] theorem State.report_gov (s : State) (e : Err) : (s.report e).gov = s.gov := by obtain ⟨⟨_, _, _, _, h⟩, _⟩ := State.report_reported s e; rw [h]
@[simp] theorem State.report_fw (s : State) (e : Err) : (s.report e).fw = s.fw := by obtain ⟨⟨_, _, _, _, h⟩, _⟩ := State.report_reported s e; rw [h]
@[simp] theorem State.report_boot (s : State) (e : Err) : (s.report e).boot = s.boot := by obtain ⟨⟨_, _, _, _, h⟩, _⟩ := State.report_reported s e; rw [h]
@[simp] theorem State.report_trust (s : State) (e : Err) : (s.report e).trust = s.trust := by obtain ⟨⟨_, _, _, _, h⟩, _⟩ := State.report_reported s e; rw [h]
@[simp] theorem State.report_links (s : State) (e : Err) : (s.report e).links = s.links := by obtain ⟨⟨_, _, _, _, h⟩, _⟩ := State.report_reported s e; rw [h]
@[simp] theorem State.report_bus (s : State) (e : Err) : (s.report e).bus = s.bus := by obtain ⟨⟨_, _, _, _, h⟩, _⟩ := State.report_reported s e; rw [h]
@[simp] theorem State.report_ledgerRun (s : State) (e : Err) : (s.report e).ledgerRun = s.ledgerRun := by obtain ⟨⟨_, _, _, _, h⟩, _⟩ := State.report_reported s e; rw [h]
@[simp] theorem State.report_pending (s : State) (e : Err) : (s.report e).pending = s.pending := by obtain ⟨⟨_, _, _, _, h⟩, _⟩ := State.report_reported s e; rw [h]

end Sys2Proof.Machine
end

