-- ==== Sys2Proof/Laws/State.lean ====
section
/-! SUPPORT. What each elementary update of the state changes and what it leaves as it was: one lemma per field per update. -/

namespace Sys2Proof.Machine

/-! `State.wr` writes `regs`. -/

@[simp] theorem State.wr_acting (s : State) (off : Nat) (v : Word) : (s.wr off v).acting = s.acting := rfl
@[simp] theorem State.wr_mem (s : State) (off : Nat) (v : Word) : (s.wr off v).mem = s.mem := rfl
@[simp] theorem State.wr_hostMem (s : State) (off : Nat) (v : Word) : (s.wr off v).hostMem = s.hostMem := rfl
@[simp] theorem State.wr_poison (s : State) (off : Nat) (v : Word) : (s.wr off v).poison = s.poison := rfl
@[simp] theorem State.wr_irqs (s : State) (off : Nat) (v : Word) : (s.wr off v).irqs = s.irqs := rfl
@[simp] theorem State.wr_freeCtr (s : State) (off : Nat) (v : Word) : (s.wr off v).freeCtr = s.freeCtr := rfl
@[simp] theorem State.wr_err (s : State) (off : Nat) (v : Word) : (s.wr off v).err = s.err := rfl
@[simp] theorem State.wr_rnd (s : State) (off : Nat) (v : Word) : (s.wr off v).rnd = s.rnd := rfl
@[simp] theorem State.wr_rings (s : State) (off : Nat) (v : Word) : (s.wr off v).rings = s.rings := rfl
@[simp] theorem State.wr_fetch (s : State) (off : Nat) (v : Word) : (s.wr off v).fetch = s.fetch := rfl
@[simp] theorem State.wr_txn (s : State) (off : Nat) (v : Word) : (s.wr off v).txn = s.txn := rfl
@[simp] theorem State.wr_floor (s : State) (off : Nat) (v : Word) : (s.wr off v).floor = s.floor := rfl
@[simp] theorem State.wr_serve (s : State) (off : Nat) (v : Word) : (s.wr off v).serve = s.serve := rfl
@[simp] theorem State.wr_vis (s : State) (off : Nat) (v : Word) : (s.wr off v).vis = s.vis := rfl
@[simp] theorem State.wr_memc (s : State) (off : Nat) (v : Word) : (s.wr off v).memc = s.memc := rfl
@[simp] theorem State.wr_fab (s : State) (off : Nat) (v : Word) : (s.wr off v).fab = s.fab := rfl
@[simp] theorem State.wr_xp (s : State) (off : Nat) (v : Word) : (s.wr off v).xp = s.xp := rfl
@[simp] theorem State.wr_ports (s : State) (off : Nat) (v : Word) : (s.wr off v).ports = s.ports := rfl
@[simp] theorem State.wr_relay (s : State) (off : Nat) (v : Word) : (s.wr off v).relay = s.relay := rfl
@[simp] theorem State.wr_pwr (s : State) (off : Nat) (v : Word) : (s.wr off v).pwr = s.pwr := rfl
@[simp] theorem State.wr_gov (s : State) (off : Nat) (v : Word) : (s.wr off v).gov = s.gov := rfl
@[simp] theorem State.wr_fw (s : State) (off : Nat) (v : Word) : (s.wr off v).fw = s.fw := rfl
@[simp] theorem State.wr_boot (s : State) (off : Nat) (v : Word) : (s.wr off v).boot = s.boot := rfl
@[simp] theorem State.wr_trust (s : State) (off : Nat) (v : Word) : (s.wr off v).trust = s.trust := rfl
@[simp] theorem State.wr_links (s : State) (off : Nat) (v : Word) : (s.wr off v).links = s.links := rfl
@[simp] theorem State.wr_bus (s : State) (off : Nat) (v : Word) : (s.wr off v).bus = s.bus := rfl
@[simp] theorem State.wr_ledgerRun (s : State) (off : Nat) (v : Word) : (s.wr off v).ledgerRun = s.ledgerRun := rfl
@[simp] theorem State.wr_pending (s : State) (off : Nat) (v : Word) : (s.wr off v).pending = s.pending := rfl
@[simp] theorem State.wr_regs (s : State) (off : Nat) (v : Word) : (s.wr off v).regs = SMap.set regReset s.regs off v := rfl

/-! `State.wrN` writes `regs`. -/

@[simp] theorem State.wrN_acting (s : State) (off n : Nat) : (s.wrN off n).acting = s.acting := rfl
@[simp] theorem State.wrN_mem (s : State) (off n : Nat) : (s.wrN off n).mem = s.mem := rfl
@[simp] theorem State.wrN_hostMem (s : State) (off n : Nat) : (s.wrN off n).hostMem = s.hostMem := rfl
@[simp] theorem State.wrN_poison (s : State) (off n : Nat) : (s.wrN off n).poison = s.poison := rfl
@[simp] theorem State.wrN_irqs (s : State) (off n : Nat) : (s.wrN off n).irqs = s.irqs := rfl
@[simp] theorem State.wrN_freeCtr (s : State) (off n : Nat) : (s.wrN off n).freeCtr = s.freeCtr := rfl
@[simp] theorem State.wrN_err (s : State) (off n : Nat) : (s.wrN off n).err = s.err := rfl
@[simp] theorem State.wrN_rnd (s : State) (off n : Nat) : (s.wrN off n).rnd = s.rnd := rfl
@[simp] theorem State.wrN_rings (s : State) (off n : Nat) : (s.wrN off n).rings = s.rings := rfl
@[simp] theorem State.wrN_fetch (s : State) (off n : Nat) : (s.wrN off n).fetch = s.fetch := rfl
@[simp] theorem State.wrN_txn (s : State) (off n : Nat) : (s.wrN off n).txn = s.txn := rfl
@[simp] theorem State.wrN_floor (s : State) (off n : Nat) : (s.wrN off n).floor = s.floor := rfl
@[simp] theorem State.wrN_serve (s : State) (off n : Nat) : (s.wrN off n).serve = s.serve := rfl
@[simp] theorem State.wrN_vis (s : State) (off n : Nat) : (s.wrN off n).vis = s.vis := rfl
@[simp] theorem State.wrN_memc (s : State) (off n : Nat) : (s.wrN off n).memc = s.memc := rfl
@[simp] theorem State.wrN_fab (s : State) (off n : Nat) : (s.wrN off n).fab = s.fab := rfl
@[simp] theorem State.wrN_xp (s : State) (off n : Nat) : (s.wrN off n).xp = s.xp := rfl
@[simp] theorem State.wrN_ports (s : State) (off n : Nat) : (s.wrN off n).ports = s.ports := rfl
@[simp] theorem State.wrN_relay (s : State) (off n : Nat) : (s.wrN off n).relay = s.relay := rfl
@[simp] theorem State.wrN_pwr (s : State) (off n : Nat) : (s.wrN off n).pwr = s.pwr := rfl
@[simp] theorem State.wrN_gov (s : State) (off n : Nat) : (s.wrN off n).gov = s.gov := rfl
@[simp] theorem State.wrN_fw (s : State) (off n : Nat) : (s.wrN off n).fw = s.fw := rfl
@[simp] theorem State.wrN_boot (s : State) (off n : Nat) : (s.wrN off n).boot = s.boot := rfl
@[simp] theorem State.wrN_trust (s : State) (off n : Nat) : (s.wrN off n).trust = s.trust := rfl
@[simp] theorem State.wrN_links (s : State) (off n : Nat) : (s.wrN off n).links = s.links := rfl
@[simp] theorem State.wrN_bus (s : State) (off n : Nat) : (s.wrN off n).bus = s.bus := rfl
@[simp] theorem State.wrN_ledgerRun (s : State) (off n : Nat) : (s.wrN off n).ledgerRun = s.ledgerRun := rfl
@[simp] theorem State.wrN_pending (s : State) (off n : Nat) : (s.wrN off n).pending = s.pending := rfl

/-! `State.put` writes `regs`. -/

@[simp] theorem State.put_acting (s : State) (f : Fld) (n : Nat) : (s.put f n).acting = s.acting := rfl
@[simp] theorem State.put_mem (s : State) (f : Fld) (n : Nat) : (s.put f n).mem = s.mem := rfl
@[simp] theorem State.put_hostMem (s : State) (f : Fld) (n : Nat) : (s.put f n).hostMem = s.hostMem := rfl
@[simp] theorem State.put_poison (s : State) (f : Fld) (n : Nat) : (s.put f n).poison = s.poison := rfl
@[simp] theorem State.put_irqs (s : State) (f : Fld) (n : Nat) : (s.put f n).irqs = s.irqs := rfl
@[simp] theorem State.put_freeCtr (s : State) (f : Fld) (n : Nat) : (s.put f n).freeCtr = s.freeCtr := rfl
@[simp] theorem State.put_err (s : State) (f : Fld) (n : Nat) : (s.put f n).err = s.err := rfl
@[simp] theorem State.put_rnd (s : State) (f : Fld) (n : Nat) : (s.put f n).rnd = s.rnd := rfl
@[simp] theorem State.put_rings (s : State) (f : Fld) (n : Nat) : (s.put f n).rings = s.rings := rfl
@[simp] theorem State.put_fetch (s : State) (f : Fld) (n : Nat) : (s.put f n).fetch = s.fetch := rfl
@[simp] theorem State.put_txn (s : State) (f : Fld) (n : Nat) : (s.put f n).txn = s.txn := rfl
@[simp] theorem State.put_floor (s : State) (f : Fld) (n : Nat) : (s.put f n).floor = s.floor := rfl
@[simp] theorem State.put_serve (s : State) (f : Fld) (n : Nat) : (s.put f n).serve = s.serve := rfl
@[simp] theorem State.put_vis (s : State) (f : Fld) (n : Nat) : (s.put f n).vis = s.vis := rfl
@[simp] theorem State.put_memc (s : State) (f : Fld) (n : Nat) : (s.put f n).memc = s.memc := rfl
@[simp] theorem State.put_fab (s : State) (f : Fld) (n : Nat) : (s.put f n).fab = s.fab := rfl
@[simp] theorem State.put_xp (s : State) (f : Fld) (n : Nat) : (s.put f n).xp = s.xp := rfl
@[simp] theorem State.put_ports (s : State) (f : Fld) (n : Nat) : (s.put f n).ports = s.ports := rfl
@[simp] theorem State.put_relay (s : State) (f : Fld) (n : Nat) : (s.put f n).relay = s.relay := rfl
@[simp] theorem State.put_pwr (s : State) (f : Fld) (n : Nat) : (s.put f n).pwr = s.pwr := rfl
@[simp] theorem State.put_gov (s : State) (f : Fld) (n : Nat) : (s.put f n).gov = s.gov := rfl
@[simp] theorem State.put_fw (s : State) (f : Fld) (n : Nat) : (s.put f n).fw = s.fw := rfl
@[simp] theorem State.put_boot (s : State) (f : Fld) (n : Nat) : (s.put f n).boot = s.boot := rfl
@[simp] theorem State.put_trust (s : State) (f : Fld) (n : Nat) : (s.put f n).trust = s.trust := rfl
@[simp] theorem State.put_links (s : State) (f : Fld) (n : Nat) : (s.put f n).links = s.links := rfl
@[simp] theorem State.put_bus (s : State) (f : Fld) (n : Nat) : (s.put f n).bus = s.bus := rfl
@[simp] theorem State.put_ledgerRun (s : State) (f : Fld) (n : Nat) : (s.put f n).ledgerRun = s.ledgerRun := rfl
@[simp] theorem State.put_pending (s : State) (f : Fld) (n : Nat) : (s.put f n).pending = s.pending := rfl

/-! `State.putB` writes `regs`. -/

@[simp] theorem State.putB_acting (s : State) (f : Fld) (b : Bool) : (s.putB f b).acting = s.acting := rfl
@[simp] theorem State.putB_mem (s : State) (f : Fld) (b : Bool) : (s.putB f b).mem = s.mem := rfl
@[simp] theorem State.putB_hostMem (s : State) (f : Fld) (b : Bool) : (s.putB f b).hostMem = s.hostMem := rfl
@[simp] theorem State.putB_poison (s : State) (f : Fld) (b : Bool) : (s.putB f b).poison = s.poison := rfl
@[simp] theorem State.putB_irqs (s : State) (f : Fld) (b : Bool) : (s.putB f b).irqs = s.irqs := rfl
@[simp] theorem State.putB_freeCtr (s : State) (f : Fld) (b : Bool) : (s.putB f b).freeCtr = s.freeCtr := rfl
@[simp] theorem State.putB_err (s : State) (f : Fld) (b : Bool) : (s.putB f b).err = s.err := rfl
@[simp] theorem State.putB_rnd (s : State) (f : Fld) (b : Bool) : (s.putB f b).rnd = s.rnd := rfl
@[simp] theorem State.putB_rings (s : State) (f : Fld) (b : Bool) : (s.putB f b).rings = s.rings := rfl
@[simp] theorem State.putB_fetch (s : State) (f : Fld) (b : Bool) : (s.putB f b).fetch = s.fetch := rfl
@[simp] theorem State.putB_txn (s : State) (f : Fld) (b : Bool) : (s.putB f b).txn = s.txn := rfl
@[simp] theorem State.putB_floor (s : State) (f : Fld) (b : Bool) : (s.putB f b).floor = s.floor := rfl
@[simp] theorem State.putB_serve (s : State) (f : Fld) (b : Bool) : (s.putB f b).serve = s.serve := rfl
@[simp] theorem State.putB_vis (s : State) (f : Fld) (b : Bool) : (s.putB f b).vis = s.vis := rfl
@[simp] theorem State.putB_memc (s : State) (f : Fld) (b : Bool) : (s.putB f b).memc = s.memc := rfl
@[simp] theorem State.putB_fab (s : State) (f : Fld) (b : Bool) : (s.putB f b).fab = s.fab := rfl
@[simp] theorem State.putB_xp (s : State) (f : Fld) (b : Bool) : (s.putB f b).xp = s.xp := rfl
@[simp] theorem State.putB_ports (s : State) (f : Fld) (b : Bool) : (s.putB f b).ports = s.ports := rfl
@[simp] theorem State.putB_relay (s : State) (f : Fld) (b : Bool) : (s.putB f b).relay = s.relay := rfl
@[simp] theorem State.putB_pwr (s : State) (f : Fld) (b : Bool) : (s.putB f b).pwr = s.pwr := rfl
@[simp] theorem State.putB_gov (s : State) (f : Fld) (b : Bool) : (s.putB f b).gov = s.gov := rfl
@[simp] theorem State.putB_fw (s : State) (f : Fld) (b : Bool) : (s.putB f b).fw = s.fw := rfl
@[simp] theorem State.putB_boot (s : State) (f : Fld) (b : Bool) : (s.putB f b).boot = s.boot := rfl
@[simp] theorem State.putB_trust (s : State) (f : Fld) (b : Bool) : (s.putB f b).trust = s.trust := rfl
@[simp] theorem State.putB_links (s : State) (f : Fld) (b : Bool) : (s.putB f b).links = s.links := rfl
@[simp] theorem State.putB_bus (s : State) (f : Fld) (b : Bool) : (s.putB f b).bus = s.bus := rfl
@[simp] theorem State.putB_ledgerRun (s : State) (f : Fld) (b : Bool) : (s.putB f b).ledgerRun = s.ledgerRun := rfl
@[simp] theorem State.putB_pending (s : State) (f : Fld) (b : Bool) : (s.putB f b).pending = s.pending := rfl

/-! `State.wrMem` writes `mem`. -/

@[simp] theorem State.wrMem_regs (s : State) (a : Nat) (b : Bytes) : (s.wrMem a b).regs = s.regs := rfl
@[simp] theorem State.wrMem_acting (s : State) (a : Nat) (b : Bytes) : (s.wrMem a b).acting = s.acting := rfl
@[simp] theorem State.wrMem_hostMem (s : State) (a : Nat) (b : Bytes) : (s.wrMem a b).hostMem = s.hostMem := rfl
@[simp] theorem State.wrMem_poison (s : State) (a : Nat) (b : Bytes) : (s.wrMem a b).poison = s.poison := rfl
@[simp] theorem State.wrMem_irqs (s : State) (a : Nat) (b : Bytes) : (s.wrMem a b).irqs = s.irqs := rfl
@[simp] theorem State.wrMem_freeCtr (s : State) (a : Nat) (b : Bytes) : (s.wrMem a b).freeCtr = s.freeCtr := rfl
@[simp] theorem State.wrMem_err (s : State) (a : Nat) (b : Bytes) : (s.wrMem a b).err = s.err := rfl
@[simp] theorem State.wrMem_rnd (s : State) (a : Nat) (b : Bytes) : (s.wrMem a b).rnd = s.rnd := rfl
@[simp] theorem State.wrMem_rings (s : State) (a : Nat) (b : Bytes) : (s.wrMem a b).rings = s.rings := rfl
@[simp] theorem State.wrMem_fetch (s : State) (a : Nat) (b : Bytes) : (s.wrMem a b).fetch = s.fetch := rfl
@[simp] theorem State.wrMem_txn (s : State) (a : Nat) (b : Bytes) : (s.wrMem a b).txn = s.txn := rfl
@[simp] theorem State.wrMem_floor (s : State) (a : Nat) (b : Bytes) : (s.wrMem a b).floor = s.floor := rfl
@[simp] theorem State.wrMem_serve (s : State) (a : Nat) (b : Bytes) : (s.wrMem a b).serve = s.serve := rfl
@[simp] theorem State.wrMem_vis (s : State) (a : Nat) (b : Bytes) : (s.wrMem a b).vis = s.vis := rfl
@[simp] theorem State.wrMem_memc (s : State) (a : Nat) (b : Bytes) : (s.wrMem a b).memc = s.memc := rfl
@[simp] theorem State.wrMem_fab (s : State) (a : Nat) (b : Bytes) : (s.wrMem a b).fab = s.fab := rfl
@[simp] theorem State.wrMem_xp (s : State) (a : Nat) (b : Bytes) : (s.wrMem a b).xp = s.xp := rfl
@[simp] theorem State.wrMem_ports (s : State) (a : Nat) (b : Bytes) : (s.wrMem a b).ports = s.ports := rfl
@[simp] theorem State.wrMem_relay (s : State) (a : Nat) (b : Bytes) : (s.wrMem a b).relay = s.relay := rfl
@[simp] theorem State.wrMem_pwr (s : State) (a : Nat) (b : Bytes) : (s.wrMem a b).pwr = s.pwr := rfl
@[simp] theorem State.wrMem_gov (s : State) (a : Nat) (b : Bytes) : (s.wrMem a b).gov = s.gov := rfl
@[simp] theorem State.wrMem_fw (s : State) (a : Nat) (b : Bytes) : (s.wrMem a b).fw = s.fw := rfl
@[simp] theorem State.wrMem_boot (s : State) (a : Nat) (b : Bytes) : (s.wrMem a b).boot = s.boot := rfl
@[simp] theorem State.wrMem_trust (s : State) (a : Nat) (b : Bytes) : (s.wrMem a b).trust = s.trust := rfl
@[simp] theorem State.wrMem_links (s : State) (a : Nat) (b : Bytes) : (s.wrMem a b).links = s.links := rfl
@[simp] theorem State.wrMem_bus (s : State) (a : Nat) (b : Bytes) : (s.wrMem a b).bus = s.bus := rfl
@[simp] theorem State.wrMem_ledgerRun (s : State) (a : Nat) (b : Bytes) : (s.wrMem a b).ledgerRun = s.ledgerRun := rfl
@[simp] theorem State.wrMem_pending (s : State) (a : Nat) (b : Bytes) : (s.wrMem a b).pending = s.pending := rfl
@[simp] theorem State.wrMem_mem (s : State) (a : Nat) (b : Bytes) : (s.wrMem a b).mem = writeBytes s.mem a b := rfl
@[simp] theorem State.wrMem_rd (s : State) (a : Nat) (b : Bytes) (o : Nat) : (s.wrMem a b).rd o = s.rd o := rfl
@[simp] theorem State.wrMem_rdN (s : State) (a : Nat) (b : Bytes) (o : Nat) : (s.wrMem a b).rdN o = s.rdN o := rfl
@[simp] theorem State.wrMem_get (s : State) (a : Nat) (b : Bytes) (g : Fld) : (s.wrMem a b).get g = s.get g := rfl
@[simp] theorem State.wrMem_on (s : State) (a : Nat) (b : Bytes) (g : Fld) : (s.wrMem a b).on g = s.on g := rfl

/-! `State.wrHost` writes `hostMem`. -/

@[simp] theorem State.wrHost_regs (s : State) (a : Nat) (b : Bytes) : (s.wrHost a b).regs = s.regs := rfl
@[simp] theorem State.wrHost_acting (s : State) (a : Nat) (b : Bytes) : (s.wrHost a b).acting = s.acting := rfl
@[simp] theorem State.wrHost_mem (s : State) (a : Nat) (b : Bytes) : (s.wrHost a b).mem = s.mem := rfl
@[simp] theorem State.wrHost_poison (s : State) (a : Nat) (b : Bytes) : (s.wrHost a b).poison = s.poison := rfl
@[simp] theorem State.wrHost_irqs (s : State) (a : Nat) (b : Bytes) : (s.wrHost a b).irqs = s.irqs := rfl
@[simp] theorem State.wrHost_freeCtr (s : State) (a : Nat) (b : Bytes) : (s.wrHost a b).freeCtr = s.freeCtr := rfl
@[simp] theorem State.wrHost_err (s : State) (a : Nat) (b : Bytes) : (s.wrHost a b).err = s.err := rfl
@[simp] theorem State.wrHost_rnd (s : State) (a : Nat) (b : Bytes) : (s.wrHost a b).rnd = s.rnd := rfl
@[simp] theorem State.wrHost_rings (s : State) (a : Nat) (b : Bytes) : (s.wrHost a b).rings = s.rings := rfl
@[simp] theorem State.wrHost_fetch (s : State) (a : Nat) (b : Bytes) : (s.wrHost a b).fetch = s.fetch := rfl
@[simp] theorem State.wrHost_txn (s : State) (a : Nat) (b : Bytes) : (s.wrHost a b).txn = s.txn := rfl
@[simp] theorem State.wrHost_floor (s : State) (a : Nat) (b : Bytes) : (s.wrHost a b).floor = s.floor := rfl
@[simp] theorem State.wrHost_serve (s : State) (a : Nat) (b : Bytes) : (s.wrHost a b).serve = s.serve := rfl
@[simp] theorem State.wrHost_vis (s : State) (a : Nat) (b : Bytes) : (s.wrHost a b).vis = s.vis := rfl
@[simp] theorem State.wrHost_memc (s : State) (a : Nat) (b : Bytes) : (s.wrHost a b).memc = s.memc := rfl
@[simp] theorem State.wrHost_fab (s : State) (a : Nat) (b : Bytes) : (s.wrHost a b).fab = s.fab := rfl
@[simp] theorem State.wrHost_xp (s : State) (a : Nat) (b : Bytes) : (s.wrHost a b).xp = s.xp := rfl
@[simp] theorem State.wrHost_ports (s : State) (a : Nat) (b : Bytes) : (s.wrHost a b).ports = s.ports := rfl
@[simp] theorem State.wrHost_relay (s : State) (a : Nat) (b : Bytes) : (s.wrHost a b).relay = s.relay := rfl
@[simp] theorem State.wrHost_pwr (s : State) (a : Nat) (b : Bytes) : (s.wrHost a b).pwr = s.pwr := rfl
@[simp] theorem State.wrHost_gov (s : State) (a : Nat) (b : Bytes) : (s.wrHost a b).gov = s.gov := rfl
@[simp] theorem State.wrHost_fw (s : State) (a : Nat) (b : Bytes) : (s.wrHost a b).fw = s.fw := rfl
@[simp] theorem State.wrHost_boot (s : State) (a : Nat) (b : Bytes) : (s.wrHost a b).boot = s.boot := rfl
@[simp] theorem State.wrHost_trust (s : State) (a : Nat) (b : Bytes) : (s.wrHost a b).trust = s.trust := rfl
@[simp] theorem State.wrHost_links (s : State) (a : Nat) (b : Bytes) : (s.wrHost a b).links = s.links := rfl
@[simp] theorem State.wrHost_bus (s : State) (a : Nat) (b : Bytes) : (s.wrHost a b).bus = s.bus := rfl
@[simp] theorem State.wrHost_ledgerRun (s : State) (a : Nat) (b : Bytes) : (s.wrHost a b).ledgerRun = s.ledgerRun := rfl
@[simp] theorem State.wrHost_pending (s : State) (a : Nat) (b : Bytes) : (s.wrHost a b).pending = s.pending := rfl
@[simp] theorem State.wrHost_hostMem (s : State) (a : Nat) (b : Bytes) : (s.wrHost a b).hostMem = writeBytes s.hostMem a b := rfl
@[simp] theorem State.wrHost_rd (s : State) (a : Nat) (b : Bytes) (o : Nat) : (s.wrHost a b).rd o = s.rd o := rfl
@[simp] theorem State.wrHost_rdN (s : State) (a : Nat) (b : Bytes) (o : Nat) : (s.wrHost a b).rdN o = s.rdN o := rfl
@[simp] theorem State.wrHost_get (s : State) (a : Nat) (b : Bytes) (g : Fld) : (s.wrHost a b).get g = s.get g := rfl
@[simp] theorem State.wrHost_on (s : State) (a : Nat) (b : Bytes) (g : Fld) : (s.wrHost a b).on g = s.on g := rfl

/-! `State.useFree` writes `freeCtr`. -/

@[simp] theorem State.useFree_regs (s : State) : s.useFree.regs = s.regs := rfl
@[simp] theorem State.useFree_acting (s : State) : s.useFree.acting = s.acting := rfl
@[simp] theorem State.useFree_mem (s : State) : s.useFree.mem = s.mem := rfl
@[simp] theorem State.useFree_hostMem (s : State) : s.useFree.hostMem = s.hostMem := rfl
@[simp] theorem State.useFree_poison (s : State) : s.useFree.poison = s.poison := rfl
@[simp] theorem State.useFree_irqs (s : State) : s.useFree.irqs = s.irqs := rfl
@[simp] theorem State.useFree_err (s : State) : s.useFree.err = s.err := rfl
@[simp] theorem State.useFree_rnd (s : State) : s.useFree.rnd = s.rnd := rfl
@[simp] theorem State.useFree_rings (s : State) : s.useFree.rings = s.rings := rfl
@[simp] theorem State.useFree_fetch (s : State) : s.useFree.fetch = s.fetch := rfl
@[simp] theorem State.useFree_txn (s : State) : s.useFree.txn = s.txn := rfl
@[simp] theorem State.useFree_floor (s : State) : s.useFree.floor = s.floor := rfl
@[simp] theorem State.useFree_serve (s : State) : s.useFree.serve = s.serve := rfl
@[simp] theorem State.useFree_vis (s : State) : s.useFree.vis = s.vis := rfl
@[simp] theorem State.useFree_memc (s : State) : s.useFree.memc = s.memc := rfl
@[simp] theorem State.useFree_fab (s : State) : s.useFree.fab = s.fab := rfl
@[simp] theorem State.useFree_xp (s : State) : s.useFree.xp = s.xp := rfl
@[simp] theorem State.useFree_ports (s : State) : s.useFree.ports = s.ports := rfl
@[simp] theorem State.useFree_relay (s : State) : s.useFree.relay = s.relay := rfl
@[simp] theorem State.useFree_pwr (s : State) : s.useFree.pwr = s.pwr := rfl
@[simp] theorem State.useFree_gov (s : State) : s.useFree.gov = s.gov := rfl
@[simp] theorem State.useFree_fw (s : State) : s.useFree.fw = s.fw := rfl
@[simp] theorem State.useFree_boot (s : State) : s.useFree.boot = s.boot := rfl
@[simp] theorem State.useFree_trust (s : State) : s.useFree.trust = s.trust := rfl
@[simp] theorem State.useFree_links (s : State) : s.useFree.links = s.links := rfl
@[simp] theorem State.useFree_bus (s : State) : s.useFree.bus = s.bus := rfl
@[simp] theorem State.useFree_ledgerRun (s : State) : s.useFree.ledgerRun = s.ledgerRun := rfl
@[simp] theorem State.useFree_pending (s : State) : s.useFree.pending = s.pending := rfl
@[simp] theorem State.useFree_freeCtr (s : State) : s.useFree.freeCtr = s.freeCtr + 1 := rfl
@[simp] theorem State.useFree_rd (s : State) (o : Nat) : s.useFree.rd o = s.rd o := rfl
@[simp] theorem State.useFree_rdN (s : State) (o : Nat) : s.useFree.rdN o = s.rdN o := rfl
@[simp] theorem State.useFree_get (s : State) (g : Fld) : s.useFree.get g = s.get g := rfl
@[simp] theorem State.useFree_on (s : State) (g : Fld) : s.useFree.on g = s.on g := rfl

/-! `State.setRing` writes `rings`. -/

@[simp] theorem State.setRing_regs (s : State) (r : Nat) (d : RingDyn) : (s.setRing r d).regs = s.regs := rfl
@[simp] theorem State.setRing_acting (s : State) (r : Nat) (d : RingDyn) : (s.setRing r d).acting = s.acting := rfl
@[simp] theorem State.setRing_mem (s : State) (r : Nat) (d : RingDyn) : (s.setRing r d).mem = s.mem := rfl
@[simp] theorem State.setRing_hostMem (s : State) (r : Nat) (d : RingDyn) : (s.setRing r d).hostMem = s.hostMem := rfl
@[simp] theorem State.setRing_poison (s : State) (r : Nat) (d : RingDyn) : (s.setRing r d).poison = s.poison := rfl
@[simp] theorem State.setRing_irqs (s : State) (r : Nat) (d : RingDyn) : (s.setRing r d).irqs = s.irqs := rfl
@[simp] theorem State.setRing_freeCtr (s : State) (r : Nat) (d : RingDyn) : (s.setRing r d).freeCtr = s.freeCtr := rfl
@[simp] theorem State.setRing_err (s : State) (r : Nat) (d : RingDyn) : (s.setRing r d).err = s.err := rfl
@[simp] theorem State.setRing_rnd (s : State) (r : Nat) (d : RingDyn) : (s.setRing r d).rnd = s.rnd := rfl
@[simp] theorem State.setRing_fetch (s : State) (r : Nat) (d : RingDyn) : (s.setRing r d).fetch = s.fetch := rfl
@[simp] theorem State.setRing_txn (s : State) (r : Nat) (d : RingDyn) : (s.setRing r d).txn = s.txn := rfl
@[simp] theorem State.setRing_floor (s : State) (r : Nat) (d : RingDyn) : (s.setRing r d).floor = s.floor := rfl
@[simp] theorem State.setRing_serve (s : State) (r : Nat) (d : RingDyn) : (s.setRing r d).serve = s.serve := rfl
@[simp] theorem State.setRing_vis (s : State) (r : Nat) (d : RingDyn) : (s.setRing r d).vis = s.vis := rfl
@[simp] theorem State.setRing_memc (s : State) (r : Nat) (d : RingDyn) : (s.setRing r d).memc = s.memc := rfl
@[simp] theorem State.setRing_fab (s : State) (r : Nat) (d : RingDyn) : (s.setRing r d).fab = s.fab := rfl
@[simp] theorem State.setRing_xp (s : State) (r : Nat) (d : RingDyn) : (s.setRing r d).xp = s.xp := rfl
@[simp] theorem State.setRing_ports (s : State) (r : Nat) (d : RingDyn) : (s.setRing r d).ports = s.ports := rfl
@[simp] theorem State.setRing_relay (s : State) (r : Nat) (d : RingDyn) : (s.setRing r d).relay = s.relay := rfl
@[simp] theorem State.setRing_pwr (s : State) (r : Nat) (d : RingDyn) : (s.setRing r d).pwr = s.pwr := rfl
@[simp] theorem State.setRing_gov (s : State) (r : Nat) (d : RingDyn) : (s.setRing r d).gov = s.gov := rfl
@[simp] theorem State.setRing_fw (s : State) (r : Nat) (d : RingDyn) : (s.setRing r d).fw = s.fw := rfl
@[simp] theorem State.setRing_boot (s : State) (r : Nat) (d : RingDyn) : (s.setRing r d).boot = s.boot := rfl
@[simp] theorem State.setRing_trust (s : State) (r : Nat) (d : RingDyn) : (s.setRing r d).trust = s.trust := rfl
@[simp] theorem State.setRing_links (s : State) (r : Nat) (d : RingDyn) : (s.setRing r d).links = s.links := rfl
@[simp] theorem State.setRing_bus (s : State) (r : Nat) (d : RingDyn) : (s.setRing r d).bus = s.bus := rfl
@[simp] theorem State.setRing_ledgerRun (s : State) (r : Nat) (d : RingDyn) : (s.setRing r d).ledgerRun = s.ledgerRun := rfl
@[simp] theorem State.setRing_pending (s : State) (r : Nat) (d : RingDyn) : (s.setRing r d).pending = s.pending := rfl
@[simp] theorem State.setRing_rd (s : State) (r : Nat) (d : RingDyn) (o : Nat) : (s.setRing r d).rd o = s.rd o := rfl
@[simp] theorem State.setRing_rdN (s : State) (r : Nat) (d : RingDyn) (o : Nat) : (s.setRing r d).rdN o = s.rdN o := rfl
@[simp] theorem State.setRing_get (s : State) (r : Nat) (d : RingDyn) (g : Fld) : (s.setRing r d).get g = s.get g := rfl
@[simp] theorem State.setRing_on (s : State) (r : Nat) (d : RingDyn) (g : Fld) : (s.setRing r d).on g = s.on g := rfl

/-! `State.setRnd` writes `rnd`. -/

@[simp] theorem State.setRnd_regs (s : State) (f : RoundSt → RoundSt) : (s.setRnd f).regs = s.regs := rfl
@[simp] theorem State.setRnd_acting (s : State) (f : RoundSt → RoundSt) : (s.setRnd f).acting = s.acting := rfl
@[simp] theorem State.setRnd_mem (s : State) (f : RoundSt → RoundSt) : (s.setRnd f).mem = s.mem := rfl
@[simp] theorem State.setRnd_hostMem (s : State) (f : RoundSt → RoundSt) : (s.setRnd f).hostMem = s.hostMem := rfl
@[simp] theorem State.setRnd_poison (s : State) (f : RoundSt → RoundSt) : (s.setRnd f).poison = s.poison := rfl
@[simp] theorem State.setRnd_irqs (s : State) (f : RoundSt → RoundSt) : (s.setRnd f).irqs = s.irqs := rfl
@[simp] theorem State.setRnd_freeCtr (s : State) (f : RoundSt → RoundSt) : (s.setRnd f).freeCtr = s.freeCtr := rfl
@[simp] theorem State.setRnd_err (s : State) (f : RoundSt → RoundSt) : (s.setRnd f).err = s.err := rfl
@[simp] theorem State.setRnd_rings (s : State) (f : RoundSt → RoundSt) : (s.setRnd f).rings = s.rings := rfl
@[simp] theorem State.setRnd_fetch (s : State) (f : RoundSt → RoundSt) : (s.setRnd f).fetch = s.fetch := rfl
@[simp] theorem State.setRnd_txn (s : State) (f : RoundSt → RoundSt) : (s.setRnd f).txn = s.txn := rfl
@[simp] theorem State.setRnd_floor (s : State) (f : RoundSt → RoundSt) : (s.setRnd f).floor = s.floor := rfl
@[simp] theorem State.setRnd_serve (s : State) (f : RoundSt → RoundSt) : (s.setRnd f).serve = s.serve := rfl
@[simp] theorem State.setRnd_vis (s : State) (f : RoundSt → RoundSt) : (s.setRnd f).vis = s.vis := rfl
@[simp] theorem State.setRnd_memc (s : State) (f : RoundSt → RoundSt) : (s.setRnd f).memc = s.memc := rfl
@[simp] theorem State.setRnd_fab (s : State) (f : RoundSt → RoundSt) : (s.setRnd f).fab = s.fab := rfl
@[simp] theorem State.setRnd_xp (s : State) (f : RoundSt → RoundSt) : (s.setRnd f).xp = s.xp := rfl
@[simp] theorem State.setRnd_ports (s : State) (f : RoundSt → RoundSt) : (s.setRnd f).ports = s.ports := rfl
@[simp] theorem State.setRnd_relay (s : State) (f : RoundSt → RoundSt) : (s.setRnd f).relay = s.relay := rfl
@[simp] theorem State.setRnd_pwr (s : State) (f : RoundSt → RoundSt) : (s.setRnd f).pwr = s.pwr := rfl
@[simp] theorem State.setRnd_gov (s : State) (f : RoundSt → RoundSt) : (s.setRnd f).gov = s.gov := rfl
@[simp] theorem State.setRnd_fw (s : State) (f : RoundSt → RoundSt) : (s.setRnd f).fw = s.fw := rfl
@[simp] theorem State.setRnd_boot (s : State) (f : RoundSt → RoundSt) : (s.setRnd f).boot = s.boot := rfl
@[simp] theorem State.setRnd_trust (s : State) (f : RoundSt → RoundSt) : (s.setRnd f).trust = s.trust := rfl
@[simp] theorem State.setRnd_links (s : State) (f : RoundSt → RoundSt) : (s.setRnd f).links = s.links := rfl
@[simp] theorem State.setRnd_bus (s : State) (f : RoundSt → RoundSt) : (s.setRnd f).bus = s.bus := rfl
@[simp] theorem State.setRnd_ledgerRun (s : State) (f : RoundSt → RoundSt) : (s.setRnd f).ledgerRun = s.ledgerRun := rfl
@[simp] theorem State.setRnd_pending (s : State) (f : RoundSt → RoundSt) : (s.setRnd f).pending = s.pending := rfl
@[simp] theorem State.setRnd_rnd (s : State) (f : RoundSt → RoundSt) : (s.setRnd f).rnd = f s.rnd := rfl
@[simp] theorem State.setRnd_rd (s : State) (f : RoundSt → RoundSt) (o : Nat) : (s.setRnd f).rd o = s.rd o := rfl
@[simp] theorem State.setRnd_rdN (s : State) (f : RoundSt → RoundSt) (o : Nat) : (s.setRnd f).rdN o = s.rdN o := rfl
@[simp] theorem State.setRnd_get (s : State) (f : RoundSt → RoundSt) (g : Fld) : (s.setRnd f).get g = s.get g := rfl
@[simp] theorem State.setRnd_on (s : State) (f : RoundSt → RoundSt) (g : Fld) : (s.setRnd f).on g = s.on g := rfl

/-! `State.setFloor` writes `floor`. -/

@[simp] theorem State.setFloor_regs (s : State) (f : FloorSt → FloorSt) : (s.setFloor f).regs = s.regs := rfl
@[simp] theorem State.setFloor_acting (s : State) (f : FloorSt → FloorSt) : (s.setFloor f).acting = s.acting := rfl
@[simp] theorem State.setFloor_mem (s : State) (f : FloorSt → FloorSt) : (s.setFloor f).mem = s.mem := rfl
@[simp] theorem State.setFloor_hostMem (s : State) (f : FloorSt → FloorSt) : (s.setFloor f).hostMem = s.hostMem := rfl
@[simp] theorem State.setFloor_poison (s : State) (f : FloorSt → FloorSt) : (s.setFloor f).poison = s.poison := rfl
@[simp] theorem State.setFloor_irqs (s : State) (f : FloorSt → FloorSt) : (s.setFloor f).irqs = s.irqs := rfl
@[simp] theorem State.setFloor_freeCtr (s : State) (f : FloorSt → FloorSt) : (s.setFloor f).freeCtr = s.freeCtr := rfl
@[simp] theorem State.setFloor_err (s : State) (f : FloorSt → FloorSt) : (s.setFloor f).err = s.err := rfl
@[simp] theorem State.setFloor_rnd (s : State) (f : FloorSt → FloorSt) : (s.setFloor f).rnd = s.rnd := rfl
@[simp] theorem State.setFloor_rings (s : State) (f : FloorSt → FloorSt) : (s.setFloor f).rings = s.rings := rfl
@[simp] theorem State.setFloor_fetch (s : State) (f : FloorSt → FloorSt) : (s.setFloor f).fetch = s.fetch := rfl
@[simp] theorem State.setFloor_txn (s : State) (f : FloorSt → FloorSt) : (s.setFloor f).txn = s.txn := rfl
@[simp] theorem State.setFloor_serve (s : State) (f : FloorSt → FloorSt) : (s.setFloor f).serve = s.serve := rfl
@[simp] theorem State.setFloor_vis (s : State) (f : FloorSt → FloorSt) : (s.setFloor f).vis = s.vis := rfl
@[simp] theorem State.setFloor_memc (s : State) (f : FloorSt → FloorSt) : (s.setFloor f).memc = s.memc := rfl
@[simp] theorem State.setFloor_fab (s : State) (f : FloorSt → FloorSt) : (s.setFloor f).fab = s.fab := rfl
@[simp] theorem State.setFloor_xp (s : State) (f : FloorSt → FloorSt) : (s.setFloor f).xp = s.xp := rfl
@[simp] theorem State.setFloor_ports (s : State) (f : FloorSt → FloorSt) : (s.setFloor f).ports = s.ports := rfl
@[simp] theorem State.setFloor_relay (s : State) (f : FloorSt → FloorSt) : (s.setFloor f).relay = s.relay := rfl
@[simp] theorem State.setFloor_pwr (s : State) (f : FloorSt → FloorSt) : (s.setFloor f).pwr = s.pwr := rfl
@[simp] theorem State.setFloor_gov (s : State) (f : FloorSt → FloorSt) : (s.setFloor f).gov = s.gov := rfl
@[simp] theorem State.setFloor_fw (s : State) (f : FloorSt → FloorSt) : (s.setFloor f).fw = s.fw := rfl
@[simp] theorem State.setFloor_boot (s : State) (f : FloorSt → FloorSt) : (s.setFloor f).boot = s.boot := rfl
@[simp] theorem State.setFloor_trust (s : State) (f : FloorSt → FloorSt) : (s.setFloor f).trust = s.trust := rfl
@[simp] theorem State.setFloor_links (s : State) (f : FloorSt → FloorSt) : (s.setFloor f).links = s.links := rfl
@[simp] theorem State.setFloor_bus (s : State) (f : FloorSt → FloorSt) : (s.setFloor f).bus = s.bus := rfl
@[simp] theorem State.setFloor_ledgerRun (s : State) (f : FloorSt → FloorSt) : (s.setFloor f).ledgerRun = s.ledgerRun := rfl
@[simp] theorem State.setFloor_pending (s : State) (f : FloorSt → FloorSt) : (s.setFloor f).pending = s.pending := rfl
@[simp] theorem State.setFloor_floor (s : State) (f : FloorSt → FloorSt) : (s.setFloor f).floor = f s.floor := rfl
@[simp] theorem State.setFloor_rd (s : State) (f : FloorSt → FloorSt) (o : Nat) : (s.setFloor f).rd o = s.rd o := rfl
@[simp] theorem State.setFloor_rdN (s : State) (f : FloorSt → FloorSt) (o : Nat) : (s.setFloor f).rdN o = s.rdN o := rfl
@[simp] theorem State.setFloor_get (s : State) (f : FloorSt → FloorSt) (g : Fld) : (s.setFloor f).get g = s.get g := rfl
@[simp] theorem State.setFloor_on (s : State) (f : FloorSt → FloorSt) (g : Fld) : (s.setFloor f).on g = s.on g := rfl

/-! `State.setServe` writes `serve`. -/

@[simp] theorem State.setServe_regs (s : State) (f : ServeSt → ServeSt) : (s.setServe f).regs = s.regs := rfl
@[simp] theorem State.setServe_acting (s : State) (f : ServeSt → ServeSt) : (s.setServe f).acting = s.acting := rfl
@[simp] theorem State.setServe_mem (s : State) (f : ServeSt → ServeSt) : (s.setServe f).mem = s.mem := rfl
@[simp] theorem State.setServe_hostMem (s : State) (f : ServeSt → ServeSt) : (s.setServe f).hostMem = s.hostMem := rfl
@[simp] theorem State.setServe_poison (s : State) (f : ServeSt → ServeSt) : (s.setServe f).poison = s.poison := rfl
@[simp] theorem State.setServe_irqs (s : State) (f : ServeSt → ServeSt) : (s.setServe f).irqs = s.irqs := rfl
@[simp] theorem State.setServe_freeCtr (s : State) (f : ServeSt → ServeSt) : (s.setServe f).freeCtr = s.freeCtr := rfl
@[simp] theorem State.setServe_err (s : State) (f : ServeSt → ServeSt) : (s.setServe f).err = s.err := rfl
@[simp] theorem State.setServe_rnd (s : State) (f : ServeSt → ServeSt) : (s.setServe f).rnd = s.rnd := rfl
@[simp] theorem State.setServe_rings (s : State) (f : ServeSt → ServeSt) : (s.setServe f).rings = s.rings := rfl
@[simp] theorem State.setServe_fetch (s : State) (f : ServeSt → ServeSt) : (s.setServe f).fetch = s.fetch := rfl
@[simp] theorem State.setServe_txn (s : State) (f : ServeSt → ServeSt) : (s.setServe f).txn = s.txn := rfl
@[simp] theorem State.setServe_floor (s : State) (f : ServeSt → ServeSt) : (s.setServe f).floor = s.floor := rfl
@[simp] theorem State.setServe_vis (s : State) (f : ServeSt → ServeSt) : (s.setServe f).vis = s.vis := rfl
@[simp] theorem State.setServe_memc (s : State) (f : ServeSt → ServeSt) : (s.setServe f).memc = s.memc := rfl
@[simp] theorem State.setServe_fab (s : State) (f : ServeSt → ServeSt) : (s.setServe f).fab = s.fab := rfl
@[simp] theorem State.setServe_xp (s : State) (f : ServeSt → ServeSt) : (s.setServe f).xp = s.xp := rfl
@[simp] theorem State.setServe_ports (s : State) (f : ServeSt → ServeSt) : (s.setServe f).ports = s.ports := rfl
@[simp] theorem State.setServe_relay (s : State) (f : ServeSt → ServeSt) : (s.setServe f).relay = s.relay := rfl
@[simp] theorem State.setServe_pwr (s : State) (f : ServeSt → ServeSt) : (s.setServe f).pwr = s.pwr := rfl
@[simp] theorem State.setServe_gov (s : State) (f : ServeSt → ServeSt) : (s.setServe f).gov = s.gov := rfl
@[simp] theorem State.setServe_fw (s : State) (f : ServeSt → ServeSt) : (s.setServe f).fw = s.fw := rfl
@[simp] theorem State.setServe_boot (s : State) (f : ServeSt → ServeSt) : (s.setServe f).boot = s.boot := rfl
@[simp] theorem State.setServe_trust (s : State) (f : ServeSt → ServeSt) : (s.setServe f).trust = s.trust := rfl
@[simp] theorem State.setServe_links (s : State) (f : ServeSt → ServeSt) : (s.setServe f).links = s.links := rfl
@[simp] theorem State.setServe_bus (s : State) (f : ServeSt → ServeSt) : (s.setServe f).bus = s.bus := rfl
@[simp] theorem State.setServe_ledgerRun (s : State) (f : ServeSt → ServeSt) : (s.setServe f).ledgerRun = s.ledgerRun := rfl
@[simp] theorem State.setServe_pending (s : State) (f : ServeSt → ServeSt) : (s.setServe f).pending = s.pending := rfl
@[simp] theorem State.setServe_serve (s : State) (f : ServeSt → ServeSt) : (s.setServe f).serve = f s.serve := rfl
@[simp] theorem State.setServe_rd (s : State) (f : ServeSt → ServeSt) (o : Nat) : (s.setServe f).rd o = s.rd o := rfl
@[simp] theorem State.setServe_rdN (s : State) (f : ServeSt → ServeSt) (o : Nat) : (s.setServe f).rdN o = s.rdN o := rfl
@[simp] theorem State.setServe_get (s : State) (f : ServeSt → ServeSt) (g : Fld) : (s.setServe f).get g = s.get g := rfl
@[simp] theorem State.setServe_on (s : State) (f : ServeSt → ServeSt) (g : Fld) : (s.setServe f).on g = s.on g := rfl

/-! `State.setVis` writes `vis`. -/

@[simp] theorem State.setVis_regs (s : State) (f : VisionSt → VisionSt) : (s.setVis f).regs = s.regs := rfl
@[simp] theorem State.setVis_acting (s : State) (f : VisionSt → VisionSt) : (s.setVis f).acting = s.acting := rfl
@[simp] theorem State.setVis_mem (s : State) (f : VisionSt → VisionSt) : (s.setVis f).mem = s.mem := rfl
@[simp] theorem State.setVis_hostMem (s : State) (f : VisionSt → VisionSt) : (s.setVis f).hostMem = s.hostMem := rfl
@[simp] theorem State.setVis_poison (s : State) (f : VisionSt → VisionSt) : (s.setVis f).poison = s.poison := rfl
@[simp] theorem State.setVis_irqs (s : State) (f : VisionSt → VisionSt) : (s.setVis f).irqs = s.irqs := rfl
@[simp] theorem State.setVis_freeCtr (s : State) (f : VisionSt → VisionSt) : (s.setVis f).freeCtr = s.freeCtr := rfl
@[simp] theorem State.setVis_err (s : State) (f : VisionSt → VisionSt) : (s.setVis f).err = s.err := rfl
@[simp] theorem State.setVis_rnd (s : State) (f : VisionSt → VisionSt) : (s.setVis f).rnd = s.rnd := rfl
@[simp] theorem State.setVis_rings (s : State) (f : VisionSt → VisionSt) : (s.setVis f).rings = s.rings := rfl
@[simp] theorem State.setVis_fetch (s : State) (f : VisionSt → VisionSt) : (s.setVis f).fetch = s.fetch := rfl
@[simp] theorem State.setVis_txn (s : State) (f : VisionSt → VisionSt) : (s.setVis f).txn = s.txn := rfl
@[simp] theorem State.setVis_floor (s : State) (f : VisionSt → VisionSt) : (s.setVis f).floor = s.floor := rfl
@[simp] theorem State.setVis_serve (s : State) (f : VisionSt → VisionSt) : (s.setVis f).serve = s.serve := rfl
@[simp] theorem State.setVis_memc (s : State) (f : VisionSt → VisionSt) : (s.setVis f).memc = s.memc := rfl
@[simp] theorem State.setVis_fab (s : State) (f : VisionSt → VisionSt) : (s.setVis f).fab = s.fab := rfl
@[simp] theorem State.setVis_xp (s : State) (f : VisionSt → VisionSt) : (s.setVis f).xp = s.xp := rfl
@[simp] theorem State.setVis_ports (s : State) (f : VisionSt → VisionSt) : (s.setVis f).ports = s.ports := rfl
@[simp] theorem State.setVis_relay (s : State) (f : VisionSt → VisionSt) : (s.setVis f).relay = s.relay := rfl
@[simp] theorem State.setVis_pwr (s : State) (f : VisionSt → VisionSt) : (s.setVis f).pwr = s.pwr := rfl
@[simp] theorem State.setVis_gov (s : State) (f : VisionSt → VisionSt) : (s.setVis f).gov = s.gov := rfl
@[simp] theorem State.setVis_fw (s : State) (f : VisionSt → VisionSt) : (s.setVis f).fw = s.fw := rfl
@[simp] theorem State.setVis_boot (s : State) (f : VisionSt → VisionSt) : (s.setVis f).boot = s.boot := rfl
@[simp] theorem State.setVis_trust (s : State) (f : VisionSt → VisionSt) : (s.setVis f).trust = s.trust := rfl
@[simp] theorem State.setVis_links (s : State) (f : VisionSt → VisionSt) : (s.setVis f).links = s.links := rfl
@[simp] theorem State.setVis_bus (s : State) (f : VisionSt → VisionSt) : (s.setVis f).bus = s.bus := rfl
@[simp] theorem State.setVis_ledgerRun (s : State) (f : VisionSt → VisionSt) : (s.setVis f).ledgerRun = s.ledgerRun := rfl
@[simp] theorem State.setVis_pending (s : State) (f : VisionSt → VisionSt) : (s.setVis f).pending = s.pending := rfl
@[simp] theorem State.setVis_vis (s : State) (f : VisionSt → VisionSt) : (s.setVis f).vis = f s.vis := rfl
@[simp] theorem State.setVis_rd (s : State) (f : VisionSt → VisionSt) (o : Nat) : (s.setVis f).rd o = s.rd o := rfl
@[simp] theorem State.setVis_rdN (s : State) (f : VisionSt → VisionSt) (o : Nat) : (s.setVis f).rdN o = s.rdN o := rfl
@[simp] theorem State.setVis_get (s : State) (f : VisionSt → VisionSt) (g : Fld) : (s.setVis f).get g = s.get g := rfl
@[simp] theorem State.setVis_on (s : State) (f : VisionSt → VisionSt) (g : Fld) : (s.setVis f).on g = s.on g := rfl

/-! `State.setMemc` writes `memc`. -/

@[simp] theorem State.setMemc_regs (s : State) (f : MemSt → MemSt) : (s.setMemc f).regs = s.regs := rfl
@[simp] theorem State.setMemc_acting (s : State) (f : MemSt → MemSt) : (s.setMemc f).acting = s.acting := rfl
@[simp] theorem State.setMemc_mem (s : State) (f : MemSt → MemSt) : (s.setMemc f).mem = s.mem := rfl
@[simp] theorem State.setMemc_hostMem (s : State) (f : MemSt → MemSt) : (s.setMemc f).hostMem = s.hostMem := rfl
@[simp] theorem State.setMemc_poison (s : State) (f : MemSt → MemSt) : (s.setMemc f).poison = s.poison := rfl
@[simp] theorem State.setMemc_irqs (s : State) (f : MemSt → MemSt) : (s.setMemc f).irqs = s.irqs := rfl
@[simp] theorem State.setMemc_freeCtr (s : State) (f : MemSt → MemSt) : (s.setMemc f).freeCtr = s.freeCtr := rfl
@[simp] theorem State.setMemc_err (s : State) (f : MemSt → MemSt) : (s.setMemc f).err = s.err := rfl
@[simp] theorem State.setMemc_rnd (s : State) (f : MemSt → MemSt) : (s.setMemc f).rnd = s.rnd := rfl
@[simp] theorem State.setMemc_rings (s : State) (f : MemSt → MemSt) : (s.setMemc f).rings = s.rings := rfl
@[simp] theorem State.setMemc_fetch (s : State) (f : MemSt → MemSt) : (s.setMemc f).fetch = s.fetch := rfl
@[simp] theorem State.setMemc_txn (s : State) (f : MemSt → MemSt) : (s.setMemc f).txn = s.txn := rfl
@[simp] theorem State.setMemc_floor (s : State) (f : MemSt → MemSt) : (s.setMemc f).floor = s.floor := rfl
@[simp] theorem State.setMemc_serve (s : State) (f : MemSt → MemSt) : (s.setMemc f).serve = s.serve := rfl
@[simp] theorem State.setMemc_vis (s : State) (f : MemSt → MemSt) : (s.setMemc f).vis = s.vis := rfl
@[simp] theorem State.setMemc_fab (s : State) (f : MemSt → MemSt) : (s.setMemc f).fab = s.fab := rfl
@[simp] theorem State.setMemc_xp (s : State) (f : MemSt → MemSt) : (s.setMemc f).xp = s.xp := rfl
@[simp] theorem State.setMemc_ports (s : State) (f : MemSt → MemSt) : (s.setMemc f).ports = s.ports := rfl
@[simp] theorem State.setMemc_relay (s : State) (f : MemSt → MemSt) : (s.setMemc f).relay = s.relay := rfl
@[simp] theorem State.setMemc_pwr (s : State) (f : MemSt → MemSt) : (s.setMemc f).pwr = s.pwr := rfl
@[simp] theorem State.setMemc_gov (s : State) (f : MemSt → MemSt) : (s.setMemc f).gov = s.gov := rfl
@[simp] theorem State.setMemc_fw (s : State) (f : MemSt → MemSt) : (s.setMemc f).fw = s.fw := rfl
@[simp] theorem State.setMemc_boot (s : State) (f : MemSt → MemSt) : (s.setMemc f).boot = s.boot := rfl
@[simp] theorem State.setMemc_trust (s : State) (f : MemSt → MemSt) : (s.setMemc f).trust = s.trust := rfl
@[simp] theorem State.setMemc_links (s : State) (f : MemSt → MemSt) : (s.setMemc f).links = s.links := rfl
@[simp] theorem State.setMemc_bus (s : State) (f : MemSt → MemSt) : (s.setMemc f).bus = s.bus := rfl
@[simp] theorem State.setMemc_ledgerRun (s : State) (f : MemSt → MemSt) : (s.setMemc f).ledgerRun = s.ledgerRun := rfl
@[simp] theorem State.setMemc_pending (s : State) (f : MemSt → MemSt) : (s.setMemc f).pending = s.pending := rfl
@[simp] theorem State.setMemc_memc (s : State) (f : MemSt → MemSt) : (s.setMemc f).memc = f s.memc := rfl
@[simp] theorem State.setMemc_rd (s : State) (f : MemSt → MemSt) (o : Nat) : (s.setMemc f).rd o = s.rd o := rfl
@[simp] theorem State.setMemc_rdN (s : State) (f : MemSt → MemSt) (o : Nat) : (s.setMemc f).rdN o = s.rdN o := rfl
@[simp] theorem State.setMemc_get (s : State) (f : MemSt → MemSt) (g : Fld) : (s.setMemc f).get g = s.get g := rfl
@[simp] theorem State.setMemc_on (s : State) (f : MemSt → MemSt) (g : Fld) : (s.setMemc f).on g = s.on g := rfl

/-! `State.setFab` writes `fab`. -/

@[simp] theorem State.setFab_regs (s : State) (f : FabSt → FabSt) : (s.setFab f).regs = s.regs := rfl
@[simp] theorem State.setFab_acting (s : State) (f : FabSt → FabSt) : (s.setFab f).acting = s.acting := rfl
@[simp] theorem State.setFab_mem (s : State) (f : FabSt → FabSt) : (s.setFab f).mem = s.mem := rfl
@[simp] theorem State.setFab_hostMem (s : State) (f : FabSt → FabSt) : (s.setFab f).hostMem = s.hostMem := rfl
@[simp] theorem State.setFab_poison (s : State) (f : FabSt → FabSt) : (s.setFab f).poison = s.poison := rfl
@[simp] theorem State.setFab_irqs (s : State) (f : FabSt → FabSt) : (s.setFab f).irqs = s.irqs := rfl
@[simp] theorem State.setFab_freeCtr (s : State) (f : FabSt → FabSt) : (s.setFab f).freeCtr = s.freeCtr := rfl
@[simp] theorem State.setFab_err (s : State) (f : FabSt → FabSt) : (s.setFab f).err = s.err := rfl
@[simp] theorem State.setFab_rnd (s : State) (f : FabSt → FabSt) : (s.setFab f).rnd = s.rnd := rfl
@[simp] theorem State.setFab_rings (s : State) (f : FabSt → FabSt) : (s.setFab f).rings = s.rings := rfl
@[simp] theorem State.setFab_fetch (s : State) (f : FabSt → FabSt) : (s.setFab f).fetch = s.fetch := rfl
@[simp] theorem State.setFab_txn (s : State) (f : FabSt → FabSt) : (s.setFab f).txn = s.txn := rfl
@[simp] theorem State.setFab_floor (s : State) (f : FabSt → FabSt) : (s.setFab f).floor = s.floor := rfl
@[simp] theorem State.setFab_serve (s : State) (f : FabSt → FabSt) : (s.setFab f).serve = s.serve := rfl
@[simp] theorem State.setFab_vis (s : State) (f : FabSt → FabSt) : (s.setFab f).vis = s.vis := rfl
@[simp] theorem State.setFab_memc (s : State) (f : FabSt → FabSt) : (s.setFab f).memc = s.memc := rfl
@[simp] theorem State.setFab_xp (s : State) (f : FabSt → FabSt) : (s.setFab f).xp = s.xp := rfl
@[simp] theorem State.setFab_ports (s : State) (f : FabSt → FabSt) : (s.setFab f).ports = s.ports := rfl
@[simp] theorem State.setFab_relay (s : State) (f : FabSt → FabSt) : (s.setFab f).relay = s.relay := rfl
@[simp] theorem State.setFab_pwr (s : State) (f : FabSt → FabSt) : (s.setFab f).pwr = s.pwr := rfl
@[simp] theorem State.setFab_gov (s : State) (f : FabSt → FabSt) : (s.setFab f).gov = s.gov := rfl
@[simp] theorem State.setFab_fw (s : State) (f : FabSt → FabSt) : (s.setFab f).fw = s.fw := rfl
@[simp] theorem State.setFab_boot (s : State) (f : FabSt → FabSt) : (s.setFab f).boot = s.boot := rfl
@[simp] theorem State.setFab_trust (s : State) (f : FabSt → FabSt) : (s.setFab f).trust = s.trust := rfl
@[simp] theorem State.setFab_links (s : State) (f : FabSt → FabSt) : (s.setFab f).links = s.links := rfl
@[simp] theorem State.setFab_bus (s : State) (f : FabSt → FabSt) : (s.setFab f).bus = s.bus := rfl
@[simp] theorem State.setFab_ledgerRun (s : State) (f : FabSt → FabSt) : (s.setFab f).ledgerRun = s.ledgerRun := rfl
@[simp] theorem State.setFab_pending (s : State) (f : FabSt → FabSt) : (s.setFab f).pending = s.pending := rfl
@[simp] theorem State.setFab_fab (s : State) (f : FabSt → FabSt) : (s.setFab f).fab = f s.fab := rfl
@[simp] theorem State.setFab_rd (s : State) (f : FabSt → FabSt) (o : Nat) : (s.setFab f).rd o = s.rd o := rfl
@[simp] theorem State.setFab_rdN (s : State) (f : FabSt → FabSt) (o : Nat) : (s.setFab f).rdN o = s.rdN o := rfl
@[simp] theorem State.setFab_get (s : State) (f : FabSt → FabSt) (g : Fld) : (s.setFab f).get g = s.get g := rfl
@[simp] theorem State.setFab_on (s : State) (f : FabSt → FabSt) (g : Fld) : (s.setFab f).on g = s.on g := rfl

/-! `State.setXp` writes `xp`. -/

@[simp] theorem State.setXp_regs (s : State) (f : ExpressSt → ExpressSt) : (s.setXp f).regs = s.regs := rfl
@[simp] theorem State.setXp_acting (s : State) (f : ExpressSt → ExpressSt) : (s.setXp f).acting = s.acting := rfl
@[simp] theorem State.setXp_mem (s : State) (f : ExpressSt → ExpressSt) : (s.setXp f).mem = s.mem := rfl
@[simp] theorem State.setXp_hostMem (s : State) (f : ExpressSt → ExpressSt) : (s.setXp f).hostMem = s.hostMem := rfl
@[simp] theorem State.setXp_poison (s : State) (f : ExpressSt → ExpressSt) : (s.setXp f).poison = s.poison := rfl
@[simp] theorem State.setXp_irqs (s : State) (f : ExpressSt → ExpressSt) : (s.setXp f).irqs = s.irqs := rfl
@[simp] theorem State.setXp_freeCtr (s : State) (f : ExpressSt → ExpressSt) : (s.setXp f).freeCtr = s.freeCtr := rfl
@[simp] theorem State.setXp_err (s : State) (f : ExpressSt → ExpressSt) : (s.setXp f).err = s.err := rfl
@[simp] theorem State.setXp_rnd (s : State) (f : ExpressSt → ExpressSt) : (s.setXp f).rnd = s.rnd := rfl
@[simp] theorem State.setXp_rings (s : State) (f : ExpressSt → ExpressSt) : (s.setXp f).rings = s.rings := rfl
@[simp] theorem State.setXp_fetch (s : State) (f : ExpressSt → ExpressSt) : (s.setXp f).fetch = s.fetch := rfl
@[simp] theorem State.setXp_txn (s : State) (f : ExpressSt → ExpressSt) : (s.setXp f).txn = s.txn := rfl
@[simp] theorem State.setXp_floor (s : State) (f : ExpressSt → ExpressSt) : (s.setXp f).floor = s.floor := rfl
@[simp] theorem State.setXp_serve (s : State) (f : ExpressSt → ExpressSt) : (s.setXp f).serve = s.serve := rfl
@[simp] theorem State.setXp_vis (s : State) (f : ExpressSt → ExpressSt) : (s.setXp f).vis = s.vis := rfl
@[simp] theorem State.setXp_memc (s : State) (f : ExpressSt → ExpressSt) : (s.setXp f).memc = s.memc := rfl
@[simp] theorem State.setXp_fab (s : State) (f : ExpressSt → ExpressSt) : (s.setXp f).fab = s.fab := rfl
@[simp] theorem State.setXp_ports (s : State) (f : ExpressSt → ExpressSt) : (s.setXp f).ports = s.ports := rfl
@[simp] theorem State.setXp_relay (s : State) (f : ExpressSt → ExpressSt) : (s.setXp f).relay = s.relay := rfl
@[simp] theorem State.setXp_pwr (s : State) (f : ExpressSt → ExpressSt) : (s.setXp f).pwr = s.pwr := rfl
@[simp] theorem State.setXp_gov (s : State) (f : ExpressSt → ExpressSt) : (s.setXp f).gov = s.gov := rfl
@[simp] theorem State.setXp_fw (s : State) (f : ExpressSt → ExpressSt) : (s.setXp f).fw = s.fw := rfl
@[simp] theorem State.setXp_boot (s : State) (f : ExpressSt → ExpressSt) : (s.setXp f).boot = s.boot := rfl
@[simp] theorem State.setXp_trust (s : State) (f : ExpressSt → ExpressSt) : (s.setXp f).trust = s.trust := rfl
@[simp] theorem State.setXp_links (s : State) (f : ExpressSt → ExpressSt) : (s.setXp f).links = s.links := rfl
@[simp] theorem State.setXp_bus (s : State) (f : ExpressSt → ExpressSt) : (s.setXp f).bus = s.bus := rfl
@[simp] theorem State.setXp_ledgerRun (s : State) (f : ExpressSt → ExpressSt) : (s.setXp f).ledgerRun = s.ledgerRun := rfl
@[simp] theorem State.setXp_pending (s : State) (f : ExpressSt → ExpressSt) : (s.setXp f).pending = s.pending := rfl
@[simp] theorem State.setXp_xp (s : State) (f : ExpressSt → ExpressSt) : (s.setXp f).xp = f s.xp := rfl
@[simp] theorem State.setXp_rd (s : State) (f : ExpressSt → ExpressSt) (o : Nat) : (s.setXp f).rd o = s.rd o := rfl
@[simp] theorem State.setXp_rdN (s : State) (f : ExpressSt → ExpressSt) (o : Nat) : (s.setXp f).rdN o = s.rdN o := rfl
@[simp] theorem State.setXp_get (s : State) (f : ExpressSt → ExpressSt) (g : Fld) : (s.setXp f).get g = s.get g := rfl
@[simp] theorem State.setXp_on (s : State) (f : ExpressSt → ExpressSt) (g : Fld) : (s.setXp f).on g = s.on g := rfl

/-! `State.setPort` writes `ports`. -/

@[simp] theorem State.setPort_regs (s : State) (p : Nat) (f : PortSt → PortSt) : (s.setPort p f).regs = s.regs := rfl
@[simp] theorem State.setPort_acting (s : State) (p : Nat) (f : PortSt → PortSt) : (s.setPort p f).acting = s.acting := rfl
@[simp] theorem State.setPort_mem (s : State) (p : Nat) (f : PortSt → PortSt) : (s.setPort p f).mem = s.mem := rfl
@[simp] theorem State.setPort_hostMem (s : State) (p : Nat) (f : PortSt → PortSt) : (s.setPort p f).hostMem = s.hostMem := rfl
@[simp] theorem State.setPort_poison (s : State) (p : Nat) (f : PortSt → PortSt) : (s.setPort p f).poison = s.poison := rfl
@[simp] theorem State.setPort_irqs (s : State) (p : Nat) (f : PortSt → PortSt) : (s.setPort p f).irqs = s.irqs := rfl
@[simp] theorem State.setPort_freeCtr (s : State) (p : Nat) (f : PortSt → PortSt) : (s.setPort p f).freeCtr = s.freeCtr := rfl
@[simp] theorem State.setPort_err (s : State) (p : Nat) (f : PortSt → PortSt) : (s.setPort p f).err = s.err := rfl
@[simp] theorem State.setPort_rnd (s : State) (p : Nat) (f : PortSt → PortSt) : (s.setPort p f).rnd = s.rnd := rfl
@[simp] theorem State.setPort_rings (s : State) (p : Nat) (f : PortSt → PortSt) : (s.setPort p f).rings = s.rings := rfl
@[simp] theorem State.setPort_fetch (s : State) (p : Nat) (f : PortSt → PortSt) : (s.setPort p f).fetch = s.fetch := rfl
@[simp] theorem State.setPort_txn (s : State) (p : Nat) (f : PortSt → PortSt) : (s.setPort p f).txn = s.txn := rfl
@[simp] theorem State.setPort_floor (s : State) (p : Nat) (f : PortSt → PortSt) : (s.setPort p f).floor = s.floor := rfl
@[simp] theorem State.setPort_serve (s : State) (p : Nat) (f : PortSt → PortSt) : (s.setPort p f).serve = s.serve := rfl
@[simp] theorem State.setPort_vis (s : State) (p : Nat) (f : PortSt → PortSt) : (s.setPort p f).vis = s.vis := rfl
@[simp] theorem State.setPort_memc (s : State) (p : Nat) (f : PortSt → PortSt) : (s.setPort p f).memc = s.memc := rfl
@[simp] theorem State.setPort_fab (s : State) (p : Nat) (f : PortSt → PortSt) : (s.setPort p f).fab = s.fab := rfl
@[simp] theorem State.setPort_xp (s : State) (p : Nat) (f : PortSt → PortSt) : (s.setPort p f).xp = s.xp := rfl
@[simp] theorem State.setPort_relay (s : State) (p : Nat) (f : PortSt → PortSt) : (s.setPort p f).relay = s.relay := rfl
@[simp] theorem State.setPort_pwr (s : State) (p : Nat) (f : PortSt → PortSt) : (s.setPort p f).pwr = s.pwr := rfl
@[simp] theorem State.setPort_gov (s : State) (p : Nat) (f : PortSt → PortSt) : (s.setPort p f).gov = s.gov := rfl
@[simp] theorem State.setPort_fw (s : State) (p : Nat) (f : PortSt → PortSt) : (s.setPort p f).fw = s.fw := rfl
@[simp] theorem State.setPort_boot (s : State) (p : Nat) (f : PortSt → PortSt) : (s.setPort p f).boot = s.boot := rfl
@[simp] theorem State.setPort_trust (s : State) (p : Nat) (f : PortSt → PortSt) : (s.setPort p f).trust = s.trust := rfl
@[simp] theorem State.setPort_links (s : State) (p : Nat) (f : PortSt → PortSt) : (s.setPort p f).links = s.links := rfl
@[simp] theorem State.setPort_bus (s : State) (p : Nat) (f : PortSt → PortSt) : (s.setPort p f).bus = s.bus := rfl
@[simp] theorem State.setPort_ledgerRun (s : State) (p : Nat) (f : PortSt → PortSt) : (s.setPort p f).ledgerRun = s.ledgerRun := rfl
@[simp] theorem State.setPort_pending (s : State) (p : Nat) (f : PortSt → PortSt) : (s.setPort p f).pending = s.pending := rfl
@[simp] theorem State.setPort_rd (s : State) (p : Nat) (f : PortSt → PortSt) (o : Nat) : (s.setPort p f).rd o = s.rd o := rfl
@[simp] theorem State.setPort_rdN (s : State) (p : Nat) (f : PortSt → PortSt) (o : Nat) : (s.setPort p f).rdN o = s.rdN o := rfl
@[simp] theorem State.setPort_get (s : State) (p : Nat) (f : PortSt → PortSt) (g : Fld) : (s.setPort p f).get g = s.get g := rfl
@[simp] theorem State.setPort_on (s : State) (p : Nat) (f : PortSt → PortSt) (g : Fld) : (s.setPort p f).on g = s.on g := rfl

/-! `State.setRelay` writes `relay`. -/

@[simp] theorem State.setRelay_regs (s : State) (f : RelaySt → RelaySt) : (s.setRelay f).regs = s.regs := rfl
@[simp] theorem State.setRelay_acting (s : State) (f : RelaySt → RelaySt) : (s.setRelay f).acting = s.acting := rfl
@[simp] theorem State.setRelay_mem (s : State) (f : RelaySt → RelaySt) : (s.setRelay f).mem = s.mem := rfl
@[simp] theorem State.setRelay_hostMem (s : State) (f : RelaySt → RelaySt) : (s.setRelay f).hostMem = s.hostMem := rfl
@[simp] theorem State.setRelay_poison (s : State) (f : RelaySt → RelaySt) : (s.setRelay f).poison = s.poison := rfl
@[simp] theorem State.setRelay_irqs (s : State) (f : RelaySt → RelaySt) : (s.setRelay f).irqs = s.irqs := rfl
@[simp] theorem State.setRelay_freeCtr (s : State) (f : RelaySt → RelaySt) : (s.setRelay f).freeCtr = s.freeCtr := rfl
@[simp] theorem State.setRelay_err (s : State) (f : RelaySt → RelaySt) : (s.setRelay f).err = s.err := rfl
@[simp] theorem State.setRelay_rnd (s : State) (f : RelaySt → RelaySt) : (s.setRelay f).rnd = s.rnd := rfl
@[simp] theorem State.setRelay_rings (s : State) (f : RelaySt → RelaySt) : (s.setRelay f).rings = s.rings := rfl
@[simp] theorem State.setRelay_fetch (s : State) (f : RelaySt → RelaySt) : (s.setRelay f).fetch = s.fetch := rfl
@[simp] theorem State.setRelay_txn (s : State) (f : RelaySt → RelaySt) : (s.setRelay f).txn = s.txn := rfl
@[simp] theorem State.setRelay_floor (s : State) (f : RelaySt → RelaySt) : (s.setRelay f).floor = s.floor := rfl
@[simp] theorem State.setRelay_serve (s : State) (f : RelaySt → RelaySt) : (s.setRelay f).serve = s.serve := rfl
@[simp] theorem State.setRelay_vis (s : State) (f : RelaySt → RelaySt) : (s.setRelay f).vis = s.vis := rfl
@[simp] theorem State.setRelay_memc (s : State) (f : RelaySt → RelaySt) : (s.setRelay f).memc = s.memc := rfl
@[simp] theorem State.setRelay_fab (s : State) (f : RelaySt → RelaySt) : (s.setRelay f).fab = s.fab := rfl
@[simp] theorem State.setRelay_xp (s : State) (f : RelaySt → RelaySt) : (s.setRelay f).xp = s.xp := rfl
@[simp] theorem State.setRelay_ports (s : State) (f : RelaySt → RelaySt) : (s.setRelay f).ports = s.ports := rfl
@[simp] theorem State.setRelay_pwr (s : State) (f : RelaySt → RelaySt) : (s.setRelay f).pwr = s.pwr := rfl
@[simp] theorem State.setRelay_gov (s : State) (f : RelaySt → RelaySt) : (s.setRelay f).gov = s.gov := rfl
@[simp] theorem State.setRelay_fw (s : State) (f : RelaySt → RelaySt) : (s.setRelay f).fw = s.fw := rfl
@[simp] theorem State.setRelay_boot (s : State) (f : RelaySt → RelaySt) : (s.setRelay f).boot = s.boot := rfl
@[simp] theorem State.setRelay_trust (s : State) (f : RelaySt → RelaySt) : (s.setRelay f).trust = s.trust := rfl
@[simp] theorem State.setRelay_links (s : State) (f : RelaySt → RelaySt) : (s.setRelay f).links = s.links := rfl
@[simp] theorem State.setRelay_bus (s : State) (f : RelaySt → RelaySt) : (s.setRelay f).bus = s.bus := rfl
@[simp] theorem State.setRelay_ledgerRun (s : State) (f : RelaySt → RelaySt) : (s.setRelay f).ledgerRun = s.ledgerRun := rfl
@[simp] theorem State.setRelay_pending (s : State) (f : RelaySt → RelaySt) : (s.setRelay f).pending = s.pending := rfl
@[simp] theorem State.setRelay_relay (s : State) (f : RelaySt → RelaySt) : (s.setRelay f).relay = f s.relay := rfl
@[simp] theorem State.setRelay_rd (s : State) (f : RelaySt → RelaySt) (o : Nat) : (s.setRelay f).rd o = s.rd o := rfl
@[simp] theorem State.setRelay_rdN (s : State) (f : RelaySt → RelaySt) (o : Nat) : (s.setRelay f).rdN o = s.rdN o := rfl
@[simp] theorem State.setRelay_get (s : State) (f : RelaySt → RelaySt) (g : Fld) : (s.setRelay f).get g = s.get g := rfl
@[simp] theorem State.setRelay_on (s : State) (f : RelaySt → RelaySt) (g : Fld) : (s.setRelay f).on g = s.on g := rfl

/-! `State.setPwr` writes `pwr`. -/

@[simp] theorem State.setPwr_regs (s : State) (f : PwrSt → PwrSt) : (s.setPwr f).regs = s.regs := rfl
@[simp] theorem State.setPwr_acting (s : State) (f : PwrSt → PwrSt) : (s.setPwr f).acting = s.acting := rfl
@[simp] theorem State.setPwr_mem (s : State) (f : PwrSt → PwrSt) : (s.setPwr f).mem = s.mem := rfl
@[simp] theorem State.setPwr_hostMem (s : State) (f : PwrSt → PwrSt) : (s.setPwr f).hostMem = s.hostMem := rfl
@[simp] theorem State.setPwr_poison (s : State) (f : PwrSt → PwrSt) : (s.setPwr f).poison = s.poison := rfl
@[simp] theorem State.setPwr_irqs (s : State) (f : PwrSt → PwrSt) : (s.setPwr f).irqs = s.irqs := rfl
@[simp] theorem State.setPwr_freeCtr (s : State) (f : PwrSt → PwrSt) : (s.setPwr f).freeCtr = s.freeCtr := rfl
@[simp] theorem State.setPwr_err (s : State) (f : PwrSt → PwrSt) : (s.setPwr f).err = s.err := rfl
@[simp] theorem State.setPwr_rnd (s : State) (f : PwrSt → PwrSt) : (s.setPwr f).rnd = s.rnd := rfl
@[simp] theorem State.setPwr_rings (s : State) (f : PwrSt → PwrSt) : (s.setPwr f).rings = s.rings := rfl
@[simp] theorem State.setPwr_fetch (s : State) (f : PwrSt → PwrSt) : (s.setPwr f).fetch = s.fetch := rfl
@[simp] theorem State.setPwr_txn (s : State) (f : PwrSt → PwrSt) : (s.setPwr f).txn = s.txn := rfl
@[simp] theorem State.setPwr_floor (s : State) (f : PwrSt → PwrSt) : (s.setPwr f).floor = s.floor := rfl
@[simp] theorem State.setPwr_serve (s : State) (f : PwrSt → PwrSt) : (s.setPwr f).serve = s.serve := rfl
@[simp] theorem State.setPwr_vis (s : State) (f : PwrSt → PwrSt) : (s.setPwr f).vis = s.vis := rfl
@[simp] theorem State.setPwr_memc (s : State) (f : PwrSt → PwrSt) : (s.setPwr f).memc = s.memc := rfl
@[simp] theorem State.setPwr_fab (s : State) (f : PwrSt → PwrSt) : (s.setPwr f).fab = s.fab := rfl
@[simp] theorem State.setPwr_xp (s : State) (f : PwrSt → PwrSt) : (s.setPwr f).xp = s.xp := rfl
@[simp] theorem State.setPwr_ports (s : State) (f : PwrSt → PwrSt) : (s.setPwr f).ports = s.ports := rfl
@[simp] theorem State.setPwr_relay (s : State) (f : PwrSt → PwrSt) : (s.setPwr f).relay = s.relay := rfl
@[simp] theorem State.setPwr_gov (s : State) (f : PwrSt → PwrSt) : (s.setPwr f).gov = s.gov := rfl
@[simp] theorem State.setPwr_fw (s : State) (f : PwrSt → PwrSt) : (s.setPwr f).fw = s.fw := rfl
@[simp] theorem State.setPwr_boot (s : State) (f : PwrSt → PwrSt) : (s.setPwr f).boot = s.boot := rfl
@[simp] theorem State.setPwr_trust (s : State) (f : PwrSt → PwrSt) : (s.setPwr f).trust = s.trust := rfl
@[simp] theorem State.setPwr_links (s : State) (f : PwrSt → PwrSt) : (s.setPwr f).links = s.links := rfl
@[simp] theorem State.setPwr_bus (s : State) (f : PwrSt → PwrSt) : (s.setPwr f).bus = s.bus := rfl
@[simp] theorem State.setPwr_ledgerRun (s : State) (f : PwrSt → PwrSt) : (s.setPwr f).ledgerRun = s.ledgerRun := rfl
@[simp] theorem State.setPwr_pending (s : State) (f : PwrSt → PwrSt) : (s.setPwr f).pending = s.pending := rfl
@[simp] theorem State.setPwr_pwr (s : State) (f : PwrSt → PwrSt) : (s.setPwr f).pwr = f s.pwr := rfl
@[simp] theorem State.setPwr_rd (s : State) (f : PwrSt → PwrSt) (o : Nat) : (s.setPwr f).rd o = s.rd o := rfl
@[simp] theorem State.setPwr_rdN (s : State) (f : PwrSt → PwrSt) (o : Nat) : (s.setPwr f).rdN o = s.rdN o := rfl
@[simp] theorem State.setPwr_get (s : State) (f : PwrSt → PwrSt) (g : Fld) : (s.setPwr f).get g = s.get g := rfl
@[simp] theorem State.setPwr_on (s : State) (f : PwrSt → PwrSt) (g : Fld) : (s.setPwr f).on g = s.on g := rfl

/-! `State.setGov` writes `gov`. -/

@[simp] theorem State.setGov_regs (s : State) (f : GovSt → GovSt) : (s.setGov f).regs = s.regs := rfl
@[simp] theorem State.setGov_acting (s : State) (f : GovSt → GovSt) : (s.setGov f).acting = s.acting := rfl
@[simp] theorem State.setGov_mem (s : State) (f : GovSt → GovSt) : (s.setGov f).mem = s.mem := rfl
@[simp] theorem State.setGov_hostMem (s : State) (f : GovSt → GovSt) : (s.setGov f).hostMem = s.hostMem := rfl
@[simp] theorem State.setGov_poison (s : State) (f : GovSt → GovSt) : (s.setGov f).poison = s.poison := rfl
@[simp] theorem State.setGov_irqs (s : State) (f : GovSt → GovSt) : (s.setGov f).irqs = s.irqs := rfl
@[simp] theorem State.setGov_freeCtr (s : State) (f : GovSt → GovSt) : (s.setGov f).freeCtr = s.freeCtr := rfl
@[simp] theorem State.setGov_err (s : State) (f : GovSt → GovSt) : (s.setGov f).err = s.err := rfl
@[simp] theorem State.setGov_rnd (s : State) (f : GovSt → GovSt) : (s.setGov f).rnd = s.rnd := rfl
@[simp] theorem State.setGov_rings (s : State) (f : GovSt → GovSt) : (s.setGov f).rings = s.rings := rfl
@[simp] theorem State.setGov_fetch (s : State) (f : GovSt → GovSt) : (s.setGov f).fetch = s.fetch := rfl
@[simp] theorem State.setGov_txn (s : State) (f : GovSt → GovSt) : (s.setGov f).txn = s.txn := rfl
@[simp] theorem State.setGov_floor (s : State) (f : GovSt → GovSt) : (s.setGov f).floor = s.floor := rfl
@[simp] theorem State.setGov_serve (s : State) (f : GovSt → GovSt) : (s.setGov f).serve = s.serve := rfl
@[simp] theorem State.setGov_vis (s : State) (f : GovSt → GovSt) : (s.setGov f).vis = s.vis := rfl
@[simp] theorem State.setGov_memc (s : State) (f : GovSt → GovSt) : (s.setGov f).memc = s.memc := rfl
@[simp] theorem State.setGov_fab (s : State) (f : GovSt → GovSt) : (s.setGov f).fab = s.fab := rfl
@[simp] theorem State.setGov_xp (s : State) (f : GovSt → GovSt) : (s.setGov f).xp = s.xp := rfl
@[simp] theorem State.setGov_ports (s : State) (f : GovSt → GovSt) : (s.setGov f).ports = s.ports := rfl
@[simp] theorem State.setGov_relay (s : State) (f : GovSt → GovSt) : (s.setGov f).relay = s.relay := rfl
@[simp] theorem State.setGov_pwr (s : State) (f : GovSt → GovSt) : (s.setGov f).pwr = s.pwr := rfl
@[simp] theorem State.setGov_fw (s : State) (f : GovSt → GovSt) : (s.setGov f).fw = s.fw := rfl
@[simp] theorem State.setGov_boot (s : State) (f : GovSt → GovSt) : (s.setGov f).boot = s.boot := rfl
@[simp] theorem State.setGov_trust (s : State) (f : GovSt → GovSt) : (s.setGov f).trust = s.trust := rfl
@[simp] theorem State.setGov_links (s : State) (f : GovSt → GovSt) : (s.setGov f).links = s.links := rfl
@[simp] theorem State.setGov_bus (s : State) (f : GovSt → GovSt) : (s.setGov f).bus = s.bus := rfl
@[simp] theorem State.setGov_ledgerRun (s : State) (f : GovSt → GovSt) : (s.setGov f).ledgerRun = s.ledgerRun := rfl
@[simp] theorem State.setGov_pending (s : State) (f : GovSt → GovSt) : (s.setGov f).pending = s.pending := rfl
@[simp] theorem State.setGov_gov (s : State) (f : GovSt → GovSt) : (s.setGov f).gov = f s.gov := rfl
@[simp] theorem State.setGov_rd (s : State) (f : GovSt → GovSt) (o : Nat) : (s.setGov f).rd o = s.rd o := rfl
@[simp] theorem State.setGov_rdN (s : State) (f : GovSt → GovSt) (o : Nat) : (s.setGov f).rdN o = s.rdN o := rfl
@[simp] theorem State.setGov_get (s : State) (f : GovSt → GovSt) (g : Fld) : (s.setGov f).get g = s.get g := rfl
@[simp] theorem State.setGov_on (s : State) (f : GovSt → GovSt) (g : Fld) : (s.setGov f).on g = s.on g := rfl

/-! `State.setFw` writes `fw`. -/

@[simp] theorem State.setFw_regs (s : State) (f : FwSt → FwSt) : (s.setFw f).regs = s.regs := rfl
@[simp] theorem State.setFw_acting (s : State) (f : FwSt → FwSt) : (s.setFw f).acting = s.acting := rfl
@[simp] theorem State.setFw_mem (s : State) (f : FwSt → FwSt) : (s.setFw f).mem = s.mem := rfl
@[simp] theorem State.setFw_hostMem (s : State) (f : FwSt → FwSt) : (s.setFw f).hostMem = s.hostMem := rfl
@[simp] theorem State.setFw_poison (s : State) (f : FwSt → FwSt) : (s.setFw f).poison = s.poison := rfl
@[simp] theorem State.setFw_irqs (s : State) (f : FwSt → FwSt) : (s.setFw f).irqs = s.irqs := rfl
@[simp] theorem State.setFw_freeCtr (s : State) (f : FwSt → FwSt) : (s.setFw f).freeCtr = s.freeCtr := rfl
@[simp] theorem State.setFw_err (s : State) (f : FwSt → FwSt) : (s.setFw f).err = s.err := rfl
@[simp] theorem State.setFw_rnd (s : State) (f : FwSt → FwSt) : (s.setFw f).rnd = s.rnd := rfl
@[simp] theorem State.setFw_rings (s : State) (f : FwSt → FwSt) : (s.setFw f).rings = s.rings := rfl
@[simp] theorem State.setFw_fetch (s : State) (f : FwSt → FwSt) : (s.setFw f).fetch = s.fetch := rfl
@[simp] theorem State.setFw_txn (s : State) (f : FwSt → FwSt) : (s.setFw f).txn = s.txn := rfl
@[simp] theorem State.setFw_floor (s : State) (f : FwSt → FwSt) : (s.setFw f).floor = s.floor := rfl
@[simp] theorem State.setFw_serve (s : State) (f : FwSt → FwSt) : (s.setFw f).serve = s.serve := rfl
@[simp] theorem State.setFw_vis (s : State) (f : FwSt → FwSt) : (s.setFw f).vis = s.vis := rfl
@[simp] theorem State.setFw_memc (s : State) (f : FwSt → FwSt) : (s.setFw f).memc = s.memc := rfl
@[simp] theorem State.setFw_fab (s : State) (f : FwSt → FwSt) : (s.setFw f).fab = s.fab := rfl
@[simp] theorem State.setFw_xp (s : State) (f : FwSt → FwSt) : (s.setFw f).xp = s.xp := rfl
@[simp] theorem State.setFw_ports (s : State) (f : FwSt → FwSt) : (s.setFw f).ports = s.ports := rfl
@[simp] theorem State.setFw_relay (s : State) (f : FwSt → FwSt) : (s.setFw f).relay = s.relay := rfl
@[simp] theorem State.setFw_pwr (s : State) (f : FwSt → FwSt) : (s.setFw f).pwr = s.pwr := rfl
@[simp] theorem State.setFw_gov (s : State) (f : FwSt → FwSt) : (s.setFw f).gov = s.gov := rfl
@[simp] theorem State.setFw_boot (s : State) (f : FwSt → FwSt) : (s.setFw f).boot = s.boot := rfl
@[simp] theorem State.setFw_trust (s : State) (f : FwSt → FwSt) : (s.setFw f).trust = s.trust := rfl
@[simp] theorem State.setFw_links (s : State) (f : FwSt → FwSt) : (s.setFw f).links = s.links := rfl
@[simp] theorem State.setFw_bus (s : State) (f : FwSt → FwSt) : (s.setFw f).bus = s.bus := rfl
@[simp] theorem State.setFw_ledgerRun (s : State) (f : FwSt → FwSt) : (s.setFw f).ledgerRun = s.ledgerRun := rfl
@[simp] theorem State.setFw_pending (s : State) (f : FwSt → FwSt) : (s.setFw f).pending = s.pending := rfl
@[simp] theorem State.setFw_fw (s : State) (f : FwSt → FwSt) : (s.setFw f).fw = f s.fw := rfl
@[simp] theorem State.setFw_rd (s : State) (f : FwSt → FwSt) (o : Nat) : (s.setFw f).rd o = s.rd o := rfl
@[simp] theorem State.setFw_rdN (s : State) (f : FwSt → FwSt) (o : Nat) : (s.setFw f).rdN o = s.rdN o := rfl
@[simp] theorem State.setFw_get (s : State) (f : FwSt → FwSt) (g : Fld) : (s.setFw f).get g = s.get g := rfl
@[simp] theorem State.setFw_on (s : State) (f : FwSt → FwSt) (g : Fld) : (s.setFw f).on g = s.on g := rfl

/-! `State.setBoot` writes `boot`. -/

@[simp] theorem State.setBoot_regs (s : State) (f : BootSt → BootSt) : (s.setBoot f).regs = s.regs := rfl
@[simp] theorem State.setBoot_acting (s : State) (f : BootSt → BootSt) : (s.setBoot f).acting = s.acting := rfl
@[simp] theorem State.setBoot_mem (s : State) (f : BootSt → BootSt) : (s.setBoot f).mem = s.mem := rfl
@[simp] theorem State.setBoot_hostMem (s : State) (f : BootSt → BootSt) : (s.setBoot f).hostMem = s.hostMem := rfl
@[simp] theorem State.setBoot_poison (s : State) (f : BootSt → BootSt) : (s.setBoot f).poison = s.poison := rfl
@[simp] theorem State.setBoot_irqs (s : State) (f : BootSt → BootSt) : (s.setBoot f).irqs = s.irqs := rfl
@[simp] theorem State.setBoot_freeCtr (s : State) (f : BootSt → BootSt) : (s.setBoot f).freeCtr = s.freeCtr := rfl
@[simp] theorem State.setBoot_err (s : State) (f : BootSt → BootSt) : (s.setBoot f).err = s.err := rfl
@[simp] theorem State.setBoot_rnd (s : State) (f : BootSt → BootSt) : (s.setBoot f).rnd = s.rnd := rfl
@[simp] theorem State.setBoot_rings (s : State) (f : BootSt → BootSt) : (s.setBoot f).rings = s.rings := rfl
@[simp] theorem State.setBoot_fetch (s : State) (f : BootSt → BootSt) : (s.setBoot f).fetch = s.fetch := rfl
@[simp] theorem State.setBoot_txn (s : State) (f : BootSt → BootSt) : (s.setBoot f).txn = s.txn := rfl
@[simp] theorem State.setBoot_floor (s : State) (f : BootSt → BootSt) : (s.setBoot f).floor = s.floor := rfl
@[simp] theorem State.setBoot_serve (s : State) (f : BootSt → BootSt) : (s.setBoot f).serve = s.serve := rfl
@[simp] theorem State.setBoot_vis (s : State) (f : BootSt → BootSt) : (s.setBoot f).vis = s.vis := rfl
@[simp] theorem State.setBoot_memc (s : State) (f : BootSt → BootSt) : (s.setBoot f).memc = s.memc := rfl
@[simp] theorem State.setBoot_fab (s : State) (f : BootSt → BootSt) : (s.setBoot f).fab = s.fab := rfl
@[simp] theorem State.setBoot_xp (s : State) (f : BootSt → BootSt) : (s.setBoot f).xp = s.xp := rfl
@[simp] theorem State.setBoot_ports (s : State) (f : BootSt → BootSt) : (s.setBoot f).ports = s.ports := rfl
@[simp] theorem State.setBoot_relay (s : State) (f : BootSt → BootSt) : (s.setBoot f).relay = s.relay := rfl
@[simp] theorem State.setBoot_pwr (s : State) (f : BootSt → BootSt) : (s.setBoot f).pwr = s.pwr := rfl
@[simp] theorem State.setBoot_gov (s : State) (f : BootSt → BootSt) : (s.setBoot f).gov = s.gov := rfl
@[simp] theorem State.setBoot_fw (s : State) (f : BootSt → BootSt) : (s.setBoot f).fw = s.fw := rfl
@[simp] theorem State.setBoot_trust (s : State) (f : BootSt → BootSt) : (s.setBoot f).trust = s.trust := rfl
@[simp] theorem State.setBoot_links (s : State) (f : BootSt → BootSt) : (s.setBoot f).links = s.links := rfl
@[simp] theorem State.setBoot_bus (s : State) (f : BootSt → BootSt) : (s.setBoot f).bus = s.bus := rfl
@[simp] theorem State.setBoot_ledgerRun (s : State) (f : BootSt → BootSt) : (s.setBoot f).ledgerRun = s.ledgerRun := rfl
@[simp] theorem State.setBoot_pending (s : State) (f : BootSt → BootSt) : (s.setBoot f).pending = s.pending := rfl
@[simp] theorem State.setBoot_boot (s : State) (f : BootSt → BootSt) : (s.setBoot f).boot = f s.boot := rfl
@[simp] theorem State.setBoot_rd (s : State) (f : BootSt → BootSt) (o : Nat) : (s.setBoot f).rd o = s.rd o := rfl
@[simp] theorem State.setBoot_rdN (s : State) (f : BootSt → BootSt) (o : Nat) : (s.setBoot f).rdN o = s.rdN o := rfl
@[simp] theorem State.setBoot_get (s : State) (f : BootSt → BootSt) (g : Fld) : (s.setBoot f).get g = s.get g := rfl
@[simp] theorem State.setBoot_on (s : State) (f : BootSt → BootSt) (g : Fld) : (s.setBoot f).on g = s.on g := rfl

/-! `State.setTrust` writes `trust`. -/

@[simp] theorem State.setTrust_regs (s : State) (f : TrustSt → TrustSt) : (s.setTrust f).regs = s.regs := rfl
@[simp] theorem State.setTrust_acting (s : State) (f : TrustSt → TrustSt) : (s.setTrust f).acting = s.acting := rfl
@[simp] theorem State.setTrust_mem (s : State) (f : TrustSt → TrustSt) : (s.setTrust f).mem = s.mem := rfl
@[simp] theorem State.setTrust_hostMem (s : State) (f : TrustSt → TrustSt) : (s.setTrust f).hostMem = s.hostMem := rfl
@[simp] theorem State.setTrust_poison (s : State) (f : TrustSt → TrustSt) : (s.setTrust f).poison = s.poison := rfl
@[simp] theorem State.setTrust_irqs (s : State) (f : TrustSt → TrustSt) : (s.setTrust f).irqs = s.irqs := rfl
@[simp] theorem State.setTrust_freeCtr (s : State) (f : TrustSt → TrustSt) : (s.setTrust f).freeCtr = s.freeCtr := rfl
@[simp] theorem State.setTrust_err (s : State) (f : TrustSt → TrustSt) : (s.setTrust f).err = s.err := rfl
@[simp] theorem State.setTrust_rnd (s : State) (f : TrustSt → TrustSt) : (s.setTrust f).rnd = s.rnd := rfl
@[simp] theorem State.setTrust_rings (s : State) (f : TrustSt → TrustSt) : (s.setTrust f).rings = s.rings := rfl
@[simp] theorem State.setTrust_fetch (s : State) (f : TrustSt → TrustSt) : (s.setTrust f).fetch = s.fetch := rfl
@[simp] theorem State.setTrust_txn (s : State) (f : TrustSt → TrustSt) : (s.setTrust f).txn = s.txn := rfl
@[simp] theorem State.setTrust_floor (s : State) (f : TrustSt → TrustSt) : (s.setTrust f).floor = s.floor := rfl
@[simp] theorem State.setTrust_serve (s : State) (f : TrustSt → TrustSt) : (s.setTrust f).serve = s.serve := rfl
@[simp] theorem State.setTrust_vis (s : State) (f : TrustSt → TrustSt) : (s.setTrust f).vis = s.vis := rfl
@[simp] theorem State.setTrust_memc (s : State) (f : TrustSt → TrustSt) : (s.setTrust f).memc = s.memc := rfl
@[simp] theorem State.setTrust_fab (s : State) (f : TrustSt → TrustSt) : (s.setTrust f).fab = s.fab := rfl
@[simp] theorem State.setTrust_xp (s : State) (f : TrustSt → TrustSt) : (s.setTrust f).xp = s.xp := rfl
@[simp] theorem State.setTrust_ports (s : State) (f : TrustSt → TrustSt) : (s.setTrust f).ports = s.ports := rfl
@[simp] theorem State.setTrust_relay (s : State) (f : TrustSt → TrustSt) : (s.setTrust f).relay = s.relay := rfl
@[simp] theorem State.setTrust_pwr (s : State) (f : TrustSt → TrustSt) : (s.setTrust f).pwr = s.pwr := rfl
@[simp] theorem State.setTrust_gov (s : State) (f : TrustSt → TrustSt) : (s.setTrust f).gov = s.gov := rfl
@[simp] theorem State.setTrust_fw (s : State) (f : TrustSt → TrustSt) : (s.setTrust f).fw = s.fw := rfl
@[simp] theorem State.setTrust_boot (s : State) (f : TrustSt → TrustSt) : (s.setTrust f).boot = s.boot := rfl
@[simp] theorem State.setTrust_links (s : State) (f : TrustSt → TrustSt) : (s.setTrust f).links = s.links := rfl
@[simp] theorem State.setTrust_bus (s : State) (f : TrustSt → TrustSt) : (s.setTrust f).bus = s.bus := rfl
@[simp] theorem State.setTrust_ledgerRun (s : State) (f : TrustSt → TrustSt) : (s.setTrust f).ledgerRun = s.ledgerRun := rfl
@[simp] theorem State.setTrust_pending (s : State) (f : TrustSt → TrustSt) : (s.setTrust f).pending = s.pending := rfl
@[simp] theorem State.setTrust_trust (s : State) (f : TrustSt → TrustSt) : (s.setTrust f).trust = f s.trust := rfl
@[simp] theorem State.setTrust_rd (s : State) (f : TrustSt → TrustSt) (o : Nat) : (s.setTrust f).rd o = s.rd o := rfl
@[simp] theorem State.setTrust_rdN (s : State) (f : TrustSt → TrustSt) (o : Nat) : (s.setTrust f).rdN o = s.rdN o := rfl
@[simp] theorem State.setTrust_get (s : State) (f : TrustSt → TrustSt) (g : Fld) : (s.setTrust f).get g = s.get g := rfl
@[simp] theorem State.setTrust_on (s : State) (f : TrustSt → TrustSt) (g : Fld) : (s.setTrust f).on g = s.on g := rfl

/-! `State.setLinks` writes `links`. -/

@[simp] theorem State.setLinks_regs (s : State) (f : LinkSt → LinkSt) : (s.setLinks f).regs = s.regs := rfl
@[simp] theorem State.setLinks_acting (s : State) (f : LinkSt → LinkSt) : (s.setLinks f).acting = s.acting := rfl
@[simp] theorem State.setLinks_mem (s : State) (f : LinkSt → LinkSt) : (s.setLinks f).mem = s.mem := rfl
@[simp] theorem State.setLinks_hostMem (s : State) (f : LinkSt → LinkSt) : (s.setLinks f).hostMem = s.hostMem := rfl
@[simp] theorem State.setLinks_poison (s : State) (f : LinkSt → LinkSt) : (s.setLinks f).poison = s.poison := rfl
@[simp] theorem State.setLinks_irqs (s : State) (f : LinkSt → LinkSt) : (s.setLinks f).irqs = s.irqs := rfl
@[simp] theorem State.setLinks_freeCtr (s : State) (f : LinkSt → LinkSt) : (s.setLinks f).freeCtr = s.freeCtr := rfl
@[simp] theorem State.setLinks_err (s : State) (f : LinkSt → LinkSt) : (s.setLinks f).err = s.err := rfl
@[simp] theorem State.setLinks_rnd (s : State) (f : LinkSt → LinkSt) : (s.setLinks f).rnd = s.rnd := rfl
@[simp] theorem State.setLinks_rings (s : State) (f : LinkSt → LinkSt) : (s.setLinks f).rings = s.rings := rfl
@[simp] theorem State.setLinks_fetch (s : State) (f : LinkSt → LinkSt) : (s.setLinks f).fetch = s.fetch := rfl
@[simp] theorem State.setLinks_txn (s : State) (f : LinkSt → LinkSt) : (s.setLinks f).txn = s.txn := rfl
@[simp] theorem State.setLinks_floor (s : State) (f : LinkSt → LinkSt) : (s.setLinks f).floor = s.floor := rfl
@[simp] theorem State.setLinks_serve (s : State) (f : LinkSt → LinkSt) : (s.setLinks f).serve = s.serve := rfl
@[simp] theorem State.setLinks_vis (s : State) (f : LinkSt → LinkSt) : (s.setLinks f).vis = s.vis := rfl
@[simp] theorem State.setLinks_memc (s : State) (f : LinkSt → LinkSt) : (s.setLinks f).memc = s.memc := rfl
@[simp] theorem State.setLinks_fab (s : State) (f : LinkSt → LinkSt) : (s.setLinks f).fab = s.fab := rfl
@[simp] theorem State.setLinks_xp (s : State) (f : LinkSt → LinkSt) : (s.setLinks f).xp = s.xp := rfl
@[simp] theorem State.setLinks_ports (s : State) (f : LinkSt → LinkSt) : (s.setLinks f).ports = s.ports := rfl
@[simp] theorem State.setLinks_relay (s : State) (f : LinkSt → LinkSt) : (s.setLinks f).relay = s.relay := rfl
@[simp] theorem State.setLinks_pwr (s : State) (f : LinkSt → LinkSt) : (s.setLinks f).pwr = s.pwr := rfl
@[simp] theorem State.setLinks_gov (s : State) (f : LinkSt → LinkSt) : (s.setLinks f).gov = s.gov := rfl
@[simp] theorem State.setLinks_fw (s : State) (f : LinkSt → LinkSt) : (s.setLinks f).fw = s.fw := rfl
@[simp] theorem State.setLinks_boot (s : State) (f : LinkSt → LinkSt) : (s.setLinks f).boot = s.boot := rfl
@[simp] theorem State.setLinks_trust (s : State) (f : LinkSt → LinkSt) : (s.setLinks f).trust = s.trust := rfl
@[simp] theorem State.setLinks_bus (s : State) (f : LinkSt → LinkSt) : (s.setLinks f).bus = s.bus := rfl
@[simp] theorem State.setLinks_ledgerRun (s : State) (f : LinkSt → LinkSt) : (s.setLinks f).ledgerRun = s.ledgerRun := rfl
@[simp] theorem State.setLinks_pending (s : State) (f : LinkSt → LinkSt) : (s.setLinks f).pending = s.pending := rfl
@[simp] theorem State.setLinks_links (s : State) (f : LinkSt → LinkSt) : (s.setLinks f).links = f s.links := rfl
@[simp] theorem State.setLinks_rd (s : State) (f : LinkSt → LinkSt) (o : Nat) : (s.setLinks f).rd o = s.rd o := rfl
@[simp] theorem State.setLinks_rdN (s : State) (f : LinkSt → LinkSt) (o : Nat) : (s.setLinks f).rdN o = s.rdN o := rfl
@[simp] theorem State.setLinks_get (s : State) (f : LinkSt → LinkSt) (g : Fld) : (s.setLinks f).get g = s.get g := rfl
@[simp] theorem State.setLinks_on (s : State) (f : LinkSt → LinkSt) (g : Fld) : (s.setLinks f).on g = s.on g := rfl

/-! `State.setHold` writes `bus`. -/

@[simp] theorem State.setHold_regs (s : State) (q : Req) (h : Option RegHold) : (s.setHold q h).regs = s.regs := rfl
@[simp] theorem State.setHold_acting (s : State) (q : Req) (h : Option RegHold) : (s.setHold q h).acting = s.acting := rfl
@[simp] theorem State.setHold_mem (s : State) (q : Req) (h : Option RegHold) : (s.setHold q h).mem = s.mem := rfl
@[simp] theorem State.setHold_hostMem (s : State) (q : Req) (h : Option RegHold) : (s.setHold q h).hostMem = s.hostMem := rfl
@[simp] theorem State.setHold_poison (s : State) (q : Req) (h : Option RegHold) : (s.setHold q h).poison = s.poison := rfl
@[simp] theorem State.setHold_irqs (s : State) (q : Req) (h : Option RegHold) : (s.setHold q h).irqs = s.irqs := rfl
@[simp] theorem State.setHold_freeCtr (s : State) (q : Req) (h : Option RegHold) : (s.setHold q h).freeCtr = s.freeCtr := rfl
@[simp] theorem State.setHold_err (s : State) (q : Req) (h : Option RegHold) : (s.setHold q h).err = s.err := rfl
@[simp] theorem State.setHold_rnd (s : State) (q : Req) (h : Option RegHold) : (s.setHold q h).rnd = s.rnd := rfl
@[simp] theorem State.setHold_rings (s : State) (q : Req) (h : Option RegHold) : (s.setHold q h).rings = s.rings := rfl
@[simp] theorem State.setHold_fetch (s : State) (q : Req) (h : Option RegHold) : (s.setHold q h).fetch = s.fetch := rfl
@[simp] theorem State.setHold_txn (s : State) (q : Req) (h : Option RegHold) : (s.setHold q h).txn = s.txn := rfl
@[simp] theorem State.setHold_floor (s : State) (q : Req) (h : Option RegHold) : (s.setHold q h).floor = s.floor := rfl
@[simp] theorem State.setHold_serve (s : State) (q : Req) (h : Option RegHold) : (s.setHold q h).serve = s.serve := rfl
@[simp] theorem State.setHold_vis (s : State) (q : Req) (h : Option RegHold) : (s.setHold q h).vis = s.vis := rfl
@[simp] theorem State.setHold_memc (s : State) (q : Req) (h : Option RegHold) : (s.setHold q h).memc = s.memc := rfl
@[simp] theorem State.setHold_fab (s : State) (q : Req) (h : Option RegHold) : (s.setHold q h).fab = s.fab := rfl
@[simp] theorem State.setHold_xp (s : State) (q : Req) (h : Option RegHold) : (s.setHold q h).xp = s.xp := rfl
@[simp] theorem State.setHold_ports (s : State) (q : Req) (h : Option RegHold) : (s.setHold q h).ports = s.ports := rfl
@[simp] theorem State.setHold_relay (s : State) (q : Req) (h : Option RegHold) : (s.setHold q h).relay = s.relay := rfl
@[simp] theorem State.setHold_pwr (s : State) (q : Req) (h : Option RegHold) : (s.setHold q h).pwr = s.pwr := rfl
@[simp] theorem State.setHold_gov (s : State) (q : Req) (h : Option RegHold) : (s.setHold q h).gov = s.gov := rfl
@[simp] theorem State.setHold_fw (s : State) (q : Req) (h : Option RegHold) : (s.setHold q h).fw = s.fw := rfl
@[simp] theorem State.setHold_boot (s : State) (q : Req) (h : Option RegHold) : (s.setHold q h).boot = s.boot := rfl
@[simp] theorem State.setHold_trust (s : State) (q : Req) (h : Option RegHold) : (s.setHold q h).trust = s.trust := rfl
@[simp] theorem State.setHold_links (s : State) (q : Req) (h : Option RegHold) : (s.setHold q h).links = s.links := rfl
@[simp] theorem State.setHold_ledgerRun (s : State) (q : Req) (h : Option RegHold) : (s.setHold q h).ledgerRun = s.ledgerRun := rfl
@[simp] theorem State.setHold_pending (s : State) (q : Req) (h : Option RegHold) : (s.setHold q h).pending = s.pending := rfl
@[simp] theorem State.setHold_rd (s : State) (q : Req) (h : Option RegHold) (o : Nat) : (s.setHold q h).rd o = s.rd o := rfl
@[simp] theorem State.setHold_rdN (s : State) (q : Req) (h : Option RegHold) (o : Nat) : (s.setHold q h).rdN o = s.rdN o := rfl
@[simp] theorem State.setHold_get (s : State) (q : Req) (h : Option RegHold) (g : Fld) : (s.setHold q h).get g = s.get g := rfl
@[simp] theorem State.setHold_on (s : State) (q : Req) (h : Option RegHold) (g : Fld) : (s.setHold q h).on g = s.on g := rfl

end Sys2Proof.Machine
end

