-- ==== Sys2Proof/Tests/Slice0.lean ====
section
/-! SUPPORT. The model's own tests: ill-formed commands refused, witnesses of the statements' hypotheses (named witness_…), and single steps whose
outcome the spec's rules give. -/

namespace Sys2Proof.Tests
open Sys2Proof.Machine Sys2Proof.Machine.Reg

set_option Elab.async false

/-- The state after reset with some fields set. -/
def st (l : List (Fld × Nat)) : State := l.foldl (fun s x => s.put x.1 x.2) State.reset

/-- What a next state satisfies; false for a fault or a refusal. -/
def goes (o : Host.Outcome State Fault Refusal) (p : State → Bool) : Bool := match o with
  | .next t => p t
  | _ => false

/-! ### Scope -/

theorem witness_LowHalfIsHeldWithoutEffect : State.reset.path .opantith = true ∧ inFabWindow TXN_OPEN_LIMIT = false ∧
    (regRow? ROUND_NET_OFFSET).any (fun r => r.width == 64) = true ∧ State.reset.holdOf .opantith = none := by decide +kernel

/-- SPINE has come up (Bring-up Table 20.2). -/
def up : State := st [(GLOBAL_BOOT_STATUS_SPINE_UP, 1)]

theorem witness_RegisterWriteActsFromNextBoundary : Req.pf.pfOrHost = true ∧ up.spineUp = true ∧ up.holdOf .pf = none ∧
    1 ≤ Word.bits (BitVec.ofNat 64 0x1000) 19 12 := by decide +kernel

theorem witness_MisalignedOrNarrowWriteIsDiscarded : up.path .pf = true ∧ 0x10028 < 0x1000000 ∧ 0x10028 % 8 = 0 ∧ 0x1002A % 4 ≠ 0 := by
  decide +kernel

/-- A latch and a hold of the PF. -/
def held : State := (up.setHold .pf (some ⟨RINGS_SUB_BASE 0, 5, 0⟩)).setBus fun b => { b with latches := [⟨0, RINGS_SUB_BASE 0, 7⟩] }

theorem witness_HalvesReadOneValue : held.path .pf = true ∧ (regRow? (RINGS_SUB_BASE 0)).any (fun r => r.width == 64) = true ∧
    held.bus.latches.find? (fun l => l.who == Req.pf.index && l.reg == RINGS_SUB_BASE 0) = some ⟨Req.pf.index, RINGS_SUB_BASE 0, 7⟩ := by decide +kernel

theorem witness_LateLowHalfIsDropped : held.holdOf .pf = some ⟨RINGS_SUB_BASE 0, 5, 0⟩ ∧ held.round < 0 + 2 ∧
    (held.wrN ROUND_COUNT 2).holdOf .pf = some ⟨RINGS_SUB_BASE 0, 5, 0⟩ ∧ 0 + 2 ≤ (held.wrN ROUND_COUNT 2).round := by decide +kernel

/-- Both halves, low first, take effect together (Scope R18). -/
theorem test_halves_write_one_value : goes (exec (.regWrite .pf (RINGS_SUB_BASE 0 + 4) 4 1) held) (fun t => t.rdN (RINGS_SUB_BASE 0) == 2 ^ 32 + 1) = true := by
  decide +kernel

/-! ### Round -/

/-- A sync of port C0 at the present round's start, with an offset of `o` ns once NET_OFFSET is fixed at 0 and COUNT is 5. -/
def sync (o : Int) : Sync := { port := 0, profile := 0, domain := 0, decodes := true, measured := true, net := (5000 - o).toNat, t := 0, slewLeft := 0 }

/-- Time comes from C0, the lock state is `k`, the fix has been made, and 15 syncs in a row have been near. -/
def lock (k : Nat) : State :=
  ((((st [(ROUND_STATUS_SOURCE_IN_USE, 1), (ROUND_STATUS_LOCK_STATE, k), (GLOBAL_BOOT_STATUS_SPINE_UP, 1)]).putB (CPORT_STATUS_LINK 0) true).putB (CPORT_GUARD_CTRL_ARMED 0) true).wrN ROUND_COUNT 5).setRnd fun r => { r with fixAwaited := false, streak := 15 }

theorem witness_SyncMovesLockState :
    (lock 0).syncValid (sync 0) = true ∧ State.reset.syncValid (sync 0) = false ∧ (lock 0).lockState = 0 ∧ (lock 1).lockState = 1 ∧
      (lock 2).lockState = 2 ∧ (lock 3).lockState = 3 ∧ (sync 50).measured = true ∧ (lock 1).portTransmits (sync 50).port = true ∧ (lock 1).rnd.fixAwaited = false ∧
      (lock 1).rnd.slewing = false ∧ 15 ≤ (lock 1).rnd.streak ∧ ((lock 1).atNs 0).netRound * 1000 + 0 - (sync 50).net = 50 ∧
      ((lock 1).atNs 0).netRound * 1000 + 0 - (sync 51).net = 51 ∧ ((lock 1).atNs 0).netRound * 1000 + 0 - (sync 201).net = 201 := by decide +kernel

theorem test_sync_locks : goes (exec (.syncReceived (sync 50)) (lock 1)) (fun t => t.lockState == 2) = true := by decide +kernel
theorem test_sync_far_leaves_locked : goes (exec (.syncReceived (sync 201)) (lock 2)) (fun t => t.lockState == 1) = true := by decide +kernel

/-- HOLDOVER since round 0 with a limit of 0 ms left. -/
def overdue : State := ((lock 3).putB ROUND_STATUS_TIME_VALID true).setRnd fun r => { r with aligned := true }

theorem witness_LossAndHoldoverLimitWithdrawTime :
    (((lock 1).setRnd fun r => { r with interval := 1 }).atNs 0).syncLost = true ∧ (lock 1).lockState = 1 ∧
      (((lock 2).setRnd fun r => { r with interval := 1 }).atNs 0).syncLost = true ∧ (lock 2).lockState = 2 ∧ overdue.lockState = 3 ∧
      overdue.on ROUND_STATUS_TIME_VALID = true ∧ (overdue.atNs 0).validNow = false := by decide +kernel

/-- LOCKED since round 3, awaiting its fix. -/
def due : State := (lock 2).setRnd fun r => { r with fixAwaited := true, alignDue := some 3 }

theorem witness_AlignmentFixesNetOffset : due.rnd.alignDue = some 3 ∧ 3 < due.round ∧ due.on ROUND_CTRL_TT_ENABLE = false ∧ due.ttRun = false ∧
    due.lockState = 2 ∧ (due.setRnd fun r => { r with slewing := true }).rnd.slewing = true ∧ (due.putB ROUND_CTRL_TT_ENABLE true).on ROUND_CTRL_TT_ENABLE = true := by decide +kernel

/-- The network time 1 ns after microsecond 9 is aligned to microsecond 10 (Round R39). -/
theorem test_alignment_rounds_up : goes (exec (.alignment 9001) due) (fun t => t.rdN ROUND_NET_OFFSET == 5) = true := by decide +kernel

theorem witness_RelockAndSourceMoveLockState : (lock 2).on ROUND_CTRL_TT_ENABLE = false ∧ (lock 2).ttRun = false ∧
    ((lock 2).putB ROUND_CTRL_TT_ENABLE true).on ROUND_CTRL_TT_ENABLE = true ∧ sourceOf 2 ≠ (lock 2).get ROUND_STATUS_SOURCE_IN_USE ∧
    sourceOf 3 ≠ (lock 2).get ROUND_STATUS_SOURCE_IN_USE ∧ sourceOf 3 = 0 ∧ (lock 2).lockState = 2 ∧ (lock 1).lockState = 1 ∧
    (lock 2).get ROUND_STATUS_SOURCE_IN_USE ≠ 0 ∧ (lock 2).path .pf = true ∧ (lock 2).holdOf .pf = none ∧ (lock 2).regDown ROUND_SYNC_CTRL = false := by decide +kernel

/-- An index element of entry 7, loading from address 64. -/
def loading : State := (State.reset.wrMem 64 [7, 0]).setRnd fun r => { r with load := some ⟨true, false, 3, 1, 64⟩ }

theorem witness_TimetableLoadsAndVerifies :
    State.reset.path .opantith = true ∧ State.reset.holdOf .opantith = none ∧ State.reset.regDown ROUND_LOAD_CTRL = false ∧ State.reset.regDown ROUND_CTRL = false ∧
      loading.memWaits ttKey.1 ttKey.2 = false ∧ (loading.setMemc fun m => { m with moves := [⟨some ttKey, 3, 64, 2⟩] }).memWaits ttKey.1 ttKey.2 = true ∧
      State.reset.ttBusy = false ∧ State.reset.on ROUND_CTRL_TT_ENABLE = false ∧ 0 < State.reset.cfg ⟨ROUND_LOAD_COUNT, 16, 0⟩ ∧
      4095 + State.reset.cfg ⟨ROUND_LOAD_COUNT, 16, 0⟩ ≤ 4096 ∧ loading.rnd.load = some ⟨true, false, 3, 1, 64⟩ ∧
      loading.ttReadable ⟨true, false, 3, 1, 64⟩ = 1 ∧ (State.reset.setRnd fun r => { r with verify := some true }).verifyFault 1 = none ∧
      State.reset.bankVerified = false ∧ (State.reset.putB (verifiedFld false) true).bankVerified = true := by decide +kernel

theorem test_load_copies_element : goes (exec .ttLoadDone loading) (fun t => t.ttElem 1 3 == 7) = true := by decide +kernel

theorem witness_RoundCounterRisesByOne : State.reset.boot.supply = .up ∧ State.reset.boot.resetLow = false ∧ State.reset.boot.due = [] := by decide +kernel

theorem test_round_counter_rises : goes (exec (.roundBoundary []) State.reset) (fun t => t.round == 1) = true := by decide +kernel


/-! ### Envelopes -/

/-- An envelope of a kind with user 0, its body starting at offset 0x18. -/
def envelope (kind : Nat) (body : Bytes) : Bytes := [BitVec.ofNat 8 kind] ++ List.replicate 23 0 ++ body ++ List.replicate (40 - body.length) 0

/-- Ring 5, RUNNING with S = 64, owned by the PF, its submission ring at DRAM address 0x1000 and its return ring at 0x3000. -/
def ringUp : State := (((up.put (RINGS_CFG_LOG2_SIZE 5) 6).put (RINGS_CFG_CLASS 5) 2).put (RINGS_STATUS_STATE 5) 1).put (RINGS_SUB_BASE_ADDR 5) 1
  |>.put (RINGS_RET_BASE_ADDR 5) 3 |>.put (RINGS_CTRL_ENABLE 5) 1 |>.put (GLOBAL_FN_WIN_BASE_EN 0) 1 |>.put (GLOBAL_FN_WIN_LIMIT_LIMIT 0) 0xFFFF

/-- Ring 5 with one envelope in flight. -/
def flying (e : Bytes) (g : Stage) : State := ringUp.setRing 5 { flights := [{ seq := 0, env := e, stage := g, fetchRound := 0, reserved := true }] }

theorem witness_DoorbellsAreAcceptedByTheirTests : ringUp.spineUp = true ∧ ringUp.pageRing .pf 5 = some 5 ∧ ringUp.ringFn 5 = Req.pf.fn ∧
    ringUp.ringState 5 ≠ 0 ∧ (cdiff 64 (ringUp.rdN (RINGS_SUB_HEAD 5)) ≤ ringUp.ringSize 5 ∧ cdiff 64 (ringUp.rdN (RINGS_SUB_TAIL 5)) ≤ ringUp.ringSize 5) ∧
    ringUp.ringSize 5 < cdiff 65 (ringUp.rdN (RINGS_SUB_HEAD 5)) ∧
    cdiff 0 (ringUp.rdN (RINGS_RET_HEAD 5)) ≤ cdiff (ringUp.rdN (RINGS_RET_TAIL 5)) (ringUp.rdN (RINGS_RET_HEAD 5)) ∧
    cdiff (ringUp.rdN (RINGS_RET_TAIL 5)) (ringUp.rdN (RINGS_RET_HEAD 5)) < cdiff 1 (ringUp.rdN (RINGS_RET_HEAD 5)) := by decide +kernel

theorem test_doorbell_full : goes (exec (.submissionDoorbell .pf 5 ⟨0, 4⟩ (some 64)) ringUp) (fun t => t.rdN (RINGS_SUB_TAIL 5) == 64) = true ∧
    goes (exec (.submissionDoorbell .pf 5 ⟨0, 4⟩ (some 65)) ringUp) (fun t => t.rdN (RINGS_SUB_TAIL 5) == 0 && t.on ERROR_STATUS_NOTE) = true := by decide +kernel

/-- Ring 5 with one NOP to fetch. -/
def oneToFetch : State := ringUp.wrN (RINGS_SUB_TAIL 5) 1
/-- Records wait for an interrupt since round 0, and DELAY is 1. -/
def irqWaits : State := ((ringUp.setRing 5 { irqPend := 1, irqSince := some 0 }).put (RINGS_IRQ_DELAY 5) 1).wrN ROUND_COUNT 1

/-- A WAIT for receipt 0 to reach `v`, with TIMEOUT 1. -/
def waitEnv (v : Nat) : Bytes := envelope 3 ([0, 0, 0, 0, 1, 0, 0, 0] ++ leBytes 8 v)

theorem witness_EnvelopesAreFetchedStartedAndCounted : oneToFetch.spineUp = true ∧ oneToFetch.mayFetch 5 = true ∧
    (match oneToFetch.addrRead 0 (oneToFetch.subAddr 5 0) 64 with | .ok e => e == envelope 0 [] | .error _ => false) = true ∧
    ((flying (envelope 0 []) .fetched).nextToStart 5).any (fun x => orderOk x.1 x.2 && !(flying (envelope 0 []) .fetched).marshalWaits x.2) = true ∧
    (flying (envelope 0 []) .fetched).ringState 5 = 1 ∧ (flying (envelope 0 []) .fetched).quiet = false ∧
    (flying (envelope 0 []) .fetched).preparing 26 = false ∧ (flying (envelope 0 []) .fetched).preparing 21 = false ∧
    (flying (envelope 0 []) .fetched).retRoom 5 = true ∧ (flying (envelope 0 []) .fetched).memWaits 5 0 = false ∧ oneToFetch.envCheck 5 (envelope 0 []) = 0 ∧
    oneToFetch.envCheck 5 (waitEnv 0) = 0 ∧ Env.kind (waitEnv 0) = 3 ∧ Env.value (waitEnv 0) ≤ oneToFetch.receipt (Env.receipt (waitEnv 0)) ∧ ((flying (envelope 0 []) .ended).flight 5 0).any (·.stage == .ended) = true ∧
    ((flying (envelope 12 []) .started).flight 5 0).any (fun f => Env.kind f.env == 12 && f.stage == .started) = true ∧
    (irqWaits.ring 5).irqSince = some 0 ∧ 0 < irqWaits.cfg (RINGS_IRQ_DELAY 5) ∧ 0 + irqWaits.cfg (RINGS_IRQ_DELAY 5) ≤ irqWaits.round ∧
    irqWaits.ringFn 5 ≤ 16 ∧ irqWaits.cfg (RINGS_IRQ_VECTOR 5) < 256 ∧
    irqWaits.links.masked.contains (irqWaits.ringFn 5, irqWaits.cfg (RINGS_IRQ_VECTOR 5)) = false := by decide +kernel

/-- A masked MSI-X entry sends nothing, and its pending bit is set (Links R612). -/
theorem test_masked_entry : goes (exec (.irqDelay 5) (irqWaits.setLinks fun l => { l with masked := [(0, 0)] }))
    (fun t => t.irqs == irqWaits.irqs ++ [Irq.held 0 0]) = true := by decide +kernel

/-- The record of a completed NOP is written at RET_TAIL: KIND 0, STATUS OK, phase 1 (Envelopes Table 3.6). -/
theorem test_nop_record : goes (exec (.nop 5 0) (flying (envelope 0 []) .started)) (fun t =>
    t.rdN (RINGS_RET_TAIL 5) == 1 && t.byte 0x300B == 1 && t.rdN (RINGS_DONE_COUNT 5) == 1) = true := by decide +kernel

theorem witness_WaitsAndSignalsComplete :
    ((flying (waitEnv 0) .started).flight 5 0).any (fun f => Env.kind f.env == 3 && Env.value f.env ≤ (flying (waitEnv 0) .started).receipt (Env.receipt f.env)) = true ∧
    (((flying (waitEnv 1) .started).wrN ROUND_COUNT 2).flight 5 0).any (fun f => Env.kind f.env == 3 && f.fetchFail == 0 && f.stage == .started &&
      decide (f.fetchRound + Env.timeout f.env < ((flying (waitEnv 1) .started).wrN ROUND_COUNT 2).round) &&
      decide ((flying (waitEnv 1) .started).receipt (Env.receipt f.env) < Env.value f.env)) = true ∧
    ((flying (envelope 4 []) .started).flight 5 0).any (fun f => Env.kind f.env == 4 && !Env.remote f.env) = true ∧
    (flying (envelope 4 []) .started).relayOpen 5 0 = false ∧
    (((flying (envelope 4 []) .started).setRelay fun r => { r with ops := [⟨0, 5, 0, 0, true⟩] }).wrN ROUND_COUNT 2000000).relayLate 5 0 true = true := by
  decide +kernel

/-- Receipts in force at 1 MiB, bank 0 owned by the PF. -/
def receipts : State := (up.put RINGS_RECEIPT_BASE_ADDR 1).putB RINGS_RECEIPT_BASE_EN true

theorem witness_RegisterSignalsMoveReceiptsUpward : receipts.spineUp = true ∧ Req.pf.pfOrHost = true ∧ receipts.holdOf .pf = none ∧ receipts.cfgOn RINGS_RECEIPT_BASE_EN = true ∧
    (receipts.setRnd fun z => { z with sigs := [⟨0, receipts.now, 1, []⟩] }).rnd.sigs.find? (fun c => c.receipt == 0 && c.at_ == receipts.now) = some ⟨0, receipts.now, 1, []⟩ ∧
    receipts.maySignal 0 (receipts.get RINGS_RECEIPT_SIG_INDEX_INDEX) = true ∧
    receipts.maySignal (Req.host false 0).fn (receipts.get RINGS_RECEIPT_SIG_INDEX_INDEX) = false ∧ up.anyRingEnabled = false ∧
    up.on RINGS_RECEIPT_BASE_EN = false := by decide +kernel

theorem test_signal_saturates : goes (exec (.receiptSigValue .pf (2 ^ 64 - 1)) (receipts.wrMem 0x100000 [2])) (fun t =>
    t.receipt 0 == 2 ^ 64 - 1 && t.rdN RINGS_RECEIPT_SAT == 1) = true := by decide +kernel

theorem witness_RingControlMovesRingStates : up.ringState 5 = 0 ∧ up.ringFn 5 ≠ 18 ∧ ringUp.ringState 5 = 1 ∧ ringUp.ringFn 5 = 0 ∧
    (ringUp.put (RINGS_STATUS_STATE 5) 3).ringState 5 = 3 ∧ ringUp.on ERROR_STATUS_SAFE = false ∧
    (ringUp.put (RINGS_STATUS_STATE 5) 0).ringState 5 = 0 ∧ ringUp.holdOf .pf = none ∧ 0x110000 / 2 ^ 16 % 32 = 17 ∧ (ringUp.ring 5).flights = [] ∧
    (ringUp.put (RINGS_CFG_FUNCTION 5) 3).liveRings.filter (fun k => (ringUp.put (RINGS_CFG_FUNCTION 5) 3).ringFn k == 3) = [5] ∧ ringUp.rdN (RINGS_SUB_BASE 5) ≠ 0 ∧ ringUp.rdN (RINGS_RET_BASE 5) ≠ 0 := by decide +kernel

theorem test_stop_cancels_fetched : goes (exec (.ringStop .pf 5) (flying (envelope 0 []) .fetched)) (fun t =>
    t.ringState 5 == 3 && t.byte 0x3008 == 9) = true := by decide +kernel

/-- The published check value of CRC-32C. -/
theorem test_crc32c : crc32c [0x31, 0x32, 0x33, 0x34, 0x35, 0x36, 0x37, 0x38, 0x39] = 0xE3069283 := by decide +kernel

/-! ### Transactions -/

/-- The PF holds owner 1 OPEN in round 0. -/
def owned : State := match exec (.txnOpen (.cmd .pf 1)) up with | .next t => t | _ => up

/-- A TXN envelope on ring 5 with an OP, owner 1, and a list of `n` entries at 0x8000. -/
def txnEnvelope (op n : Nat) : Bytes := envelope 5 ([BitVec.ofNat 8 op, 1, 0, 0, 0, 0, 0, 0] ++ leBytes 8 (if n = 0 then 0 else 0x8000) ++ leBytes 4 n)

/-- Owner 1 held by the PF, with a TXN envelope started on ring 5. -/
def txnRing (op n : Nat) : State :=
  match exec (.txnOpen (.cmd .pf 1)) ((flying (txnEnvelope op n) .started).wrMem 0x8000 (leBytes 4 POWER_CAP ++ leBytes 4 0 ++ leBytes 8 60000)) with
  | .next t => t
  | _ => up

theorem witness_OwnersOpenRecordSealReturnAndExpire : up.spineUp = true ∧ Req.pf.holder = some 0 ∧ ownerPermitted 0 5 = true ∧ ownerPermitted 0 6 = false ∧
    up.ownerState 5 = 0 ∧ up.heldBy 0 = none ∧ owned.ownHeld 0 1 = true ∧
    ((flying (txnEnvelope 0 0) .started).flight 5 0).any (fun f => f.stage == .started && Env.kind f.env == 5 && Env.op f.env == 0 && Env.owner f.env == 1) = true ∧
    ringHolder (txnRing 1 1 |>.ringFn 5) = some 0 ∧ (txnRing 1 1).ownHeld 0 1 = true ∧ (txnRing 1 1).ownerState 1 = 1 ∧
    (match (txnRing 1 1).addrRead 0 0x8000 16 with | .ok b => (listEntries b 1).all (fun x => x.clean && x.target) | .error _ => false) = true ∧
    ((txnRing 1 1).ownerSt 1).set = [] ∧ owned.ownerOpen 1 = true ∧ (owned.ownerSt 1).limit ≠ 0 ∧
    (owned.wrN ROUND_COUNT 100000).rdN (TXN_OWNER_OPEN 1) + (owned.ownerSt 1).limit ≤ (owned.wrN ROUND_COUNT 100000).round := by decide +kernel

theorem test_write_list_records : goes (exec (.txnWrites 5 0) (txnRing 1 1)) (fun t => (t.ownerSt 1).set == [⟨POWER_CAP, 2 ^ 16 - 1, 60000⟩] &&
    t.rdN (RINGS_DONE_COUNT 5) == 1) = true := by decide +kernel

/-- Owner 1's seal of `l` was accepted in round 0, and round 1 has begun. -/
def sealing (l : List Shadow) (failed : Bool) (mark : Nat) : State :=
  (((owned.setOwner 1 { set := l, failed := failed, sealRound := 0 }).put (TXN_OWNER_STATE_STATE 1) 2).setTxn fun z =>
    { z with seals := [1], marks := [(POWER_CAP, mark)] }).wrN ROUND_COUNT 1

/-- LIMIT_MW within the fused bounds. -/
def capSet : List Shadow := [⟨POWER_CAP, maskOf .sh POWER_CAP, up.get POWER_CAP_FUSE_MAX_MW⟩]

theorem witness_SealsAndPairsTakeEffectWhole : (sealing capSet false 0).txn.mated = [] ∧ (sealing capSet false 0).txn.seals = [1] ∧
    ((sealing capSet false 0).ownerSt 1).sealRound < (sealing capSet false 0).round ∧ ((sealing capSet false 0).ownerSt 1).env = none ∧
    (sealing capSet false 0).conflicts ((sealing capSet false 0).ownerSt 1) = [] ∧ (sealing capSet false 1).conflicts ((sealing capSet false 1).ownerSt 1) ≠ [] ∧
    (sealing capSet false 0).refusals capSet = [] ∧ (sealing [⟨POWER_CAP, maskOf .sh POWER_CAP, 1⟩] false 0).refusals [⟨POWER_CAP, maskOf .sh POWER_CAP, 1⟩] ≠ [] ∧
    ((sealing [] true 0).ownerSt 1).failed = true ∧ maskOf .sh POWER_CAP + maskOf .pl POWER_CAP ≠ 0 := by decide +kernel

/-- A window of 4 entries from entry `b`, mated in round 0; and a half that landed in round 0. -/
def matedAt (b : Nat) : State := (up.setTxn fun z => { z with mated := [⟨0x10030, b, 3, 0⟩] }).wrN ROUND_COUNT 1
def halfAt (n : Nat) : State := (up.setHalf 0x10030 (some ⟨0, false, 1, 0⟩)).wrN ROUND_COUNT n

theorem witness_pairs : PairId.seqWindow.key = 0x10030 ∧
    (matedAt 65532).refusal ((matedAt 65532).withSet [⟨0x10030, maskOf .pl 0x10030, 65532⟩, ⟨0x10034, maskOf .pl 0x10034, 3⟩]) 0x10030 = none ∧
    (matedAt 65533).refusal ((matedAt 65533).withSet [⟨0x10030, maskOf .pl 0x10030, 65533⟩, ⟨0x10034, maskOf .pl 0x10034, 3⟩]) 0x10030 ≠ none ∧
    (halfAt 1000).half 0x10030 = some ⟨0, false, 1, 0⟩ ∧ 0 + 1000 ≤ (halfAt 1000).round ∧ (halfAt 999).round < 0 + 1000 := by decide +kernel

theorem test_seal_applies : goes (exec .sealApply (sealing capSet false 0)) (fun t => t.rdN POWER_CAP == mergeNat (up.rdN POWER_CAP) (maskOf .sh POWER_CAP) (up.get POWER_CAP_FUSE_MAX_MW) &&
    t.rdN TXN_CHANGE_SEQ == 1 && t.ownerState 1 == 0) = true ∧
    goes (exec .sealApply (sealing capSet false 1)) (fun t => t.rd POWER_CAP == up.rd POWER_CAP && t.rdN TXN_CONFLICT_COUNT == 1) = true := by decide +kernel

theorem test_pair_applies : goes (exec .pairApply (matedAt 65532)) (fun t => t.get ROUND_SEQ_BASE_BASE == 65532 && t.get ROUND_SEQ_LEN_LEN_M1 == 3) = true ∧
    goes (exec .pairApply (matedAt 65533)) (fun t => t.rd ROUND_SEQ_BASE == up.rd ROUND_SEQ_BASE && t.on ERROR_STATUS_NOTE) = true := by decide +kernel

/-! ### Clerks, districts -/

/-- A parcel's key, its allocation of the whole of every store of district 0, and its RUN on ring 5 with one step of 100 cycles. -/
def key : ParcelKey := ⟨1, 2, 3⟩
def alloc : Alloc := ⟨key, 0, 24, 0, 64, 0, [], false, []⟩
def runOn (d : Nat) : RunSt :=
  { ring := 5, seq := 0, key := key, dists := [{ d := d }], steps := [(100, 7, 0)], maxCycles := 100, limit := 0, events := none, sealed := false }

/-- The RUN is on district `d`, with its envelope started. -/
def running (d : Nat) : State := ((flying (envelope 1 []) .started).setFloor fun f => { f with runs := [runOn d] }).setAllocs d [alloc]

/-- Clerk 0 runs a step of it, with A at store address 0 and B at 0x6000: the first word of each holds one byte 16 times, and the others are zero. -/
def dunit0 : DUnit := { ring := 5, seq := 0, desc := 0, clerks := 1 }
def macState (a b : Byte) : State := ((running 0).setDunit 0 (some dunit0)).setClerk 0
  { stage := .running, run := some (5, 0), loaded := [(0, 64, 0)], feedA := some ⟨0, 3⟩, feedB := some ⟨0x6000, 3⟩ }
  |>.wrMem (storeAddr 0) (List.replicate 16 a) |>.wrMem (storeAddr 0 + 0x6000) (List.replicate 16 b)

/-- INT8 MAC into ACC0. -/
def mac (u : Bool) (sh : Fin 4) : ArraySlot := ⟨.mac, .int8, false, u, false, sh, 0, false, none⟩

/-- Clerk 0 at the beginning of cycle 3. -/
def macCycle : State := (macState 255 1).clerkCycle 0 3

/-- With no wrong bit anywhere, a read of a store inside the parcel's range gives its bytes. -/
theorem slot_reads {s : State} {c a n : Nat} {b : Bytes} (hi : s.inStore c a n = true) (hf : s.floor.flips = [])
    (hp : s.poisoned (storeAddr c + a) n = false) (hb : s.rdMem (storeAddr c + a) n = b) : s.slotRead c a n = (s, .ok, b) := by
  have he : s.eccRead (storeAddr c + a) n = s := by simp [State.eccRead, hf, State.each]
  simp [State.slotRead, hi, he, hp, hb]

theorem mac_reads_a : macCycle.slotRead 0 0 256 = (macCycle, .ok, List.replicate 16 255 ++ List.replicate 240 0) := by
  apply slot_reads <;> decide +kernel
theorem mac_reads_b : macCycle.slotRead 0 0x6000 256 = (macCycle, .ok, List.replicate 16 1 ++ List.replicate 240 0) := by
  apply slot_reads <;> decide +kernel

theorem witness_Int8MacAccumulatesExactly : ((macState 255 1).clerk 0).stage = .running ∧ (macState 255 1).dunit (clerkDistrict 0) = some dunit0 ∧
    ((macState 255 1).clerk 0).run = some (dunit0.ring, dunit0.seq) ∧ ((macState 255 1).clerk 0).next ≤ 3 ∧ ((macState 255 1).clerk 0).pc = 0 ∧ (macCycle.clerk 0).halt = 0 ∧
    ((macCycle.clerk 0).codeAt 0 12).isSome = true ∧ (macCycle.clerk 0).array = none ∧ (macCycle.clerk 0).feedA = some ⟨0, 3⟩ ∧ (macCycle.clerk 0).feedB = some ⟨0x6000, 3⟩ ∧
    (macCycle.clerk 0).drainWaits 3 { array := some (mac true 3) } = false ∧ macCycle.slotRead 0 0 256 = (macCycle, .ok, List.replicate 16 255 ++ List.replicate 240 0) ∧
    macCycle.slotRead 0 0x6000 256 = (macCycle, .ok, List.replicate 16 1 ++ List.replicate 240 0) := by
  refine ⟨?_, ?_, ?_, ?_, ?_, ?_, ?_, ?_, ?_, ?_, ?_, mac_reads_a, mac_reads_b⟩ <;> decide +kernel

/-- One cell: 16 × (−1) × 1, and 16 × 255 × 127 × 2^24, which saturates. -/
theorem test_mac_signed : (arrayCell (mac false 0) {} (List.replicate 256 255) (List.replicate 256 1) ({}, false, false) (15, 3)).1.cell 0 15 3 = 2 ^ 32 - 16 := by
  decide +kernel
theorem test_mac_saturates : (arrayCell (mac true 3) {} (List.replicate 256 255) (List.replicate 256 127) ({}, false, false) (0, 0)).1.cell 0 0 0 = 2 ^ 31 - 1 ∧
    (arrayCell (mac true 3) {} (List.replicate 256 255) (List.replicate 256 127) ({}, false, false) (0, 0)).2.1 = true := by decide +kernel

/-- District 0 is ON. -/
def on0 : State := up.put (POWER_DOM_STATUS_STATE 0) 0

/-- The array of clerk 0 has begun, in cycle 3, an instruction whose first cycle contends. -/
def contending : State := (macState 1 1).setClerk 0 { (macState 1 1).clerk 0 with array := some ⟨3, [(true, [0]), (false, [1]), (false, [1])]⟩ }

/-- The two clerks of a barrier have issued it. -/
def barred : State := (State.reset.setClerk (clerkOf 0 0) { stage := .barrier 3 }).setClerk (clerkOf 0 1) { stage := .barrier 3 }

theorem witness_ClerksFreezeJoinAndAreScrubbed : ((macState 1 1).clerk 0).dry 2 { array := some (mac true 3) } = true ∧
    ((macState 1 1).clerk 0).dry 3 { array := some (mac true 3) } = false ∧
    ({ (macState 1 1).clerk 0 with drainEnd := [(0, 9)] } : Clerk).drainWaits 8 { array := some (mac true 3) } = true ∧
    (clerksOf 0 3).all (fun c => (barred.clerk c).stage == .barrier 3) = true ∧ sramHolds (8 * 0x1000000000) = true ∧
    sramDistrict (8 * 0x1000000000) = some 0 ∧ inSram (8 * 0x1000000000) 8 = true ∧ on0.cfgOn FLOOR_SCRUB_CTRL_ENABLE = true ∧ on0.dom 0 = 0 ∧
    sramDistrict (8 * 0x1004480000) = some 9 ∧ on0.floor.flips = [] ∧ (on0.putB FLOOR_SCRUB_CTRL_ENABLE false).cfgOn FLOOR_SCRUB_CTRL_ENABLE = false ∧ on0.domUp 0 = true ∧
    ((contending.clerkCycle 0 3).clerk 0).arrayAt 3 = some (true, [0]) ∧ ((contending.clerkCycle 0 4).clerk 0).arrayAt 4 = some (false, [1]) ∧
    ((contending.clerkCycle 0 4).clerk 0).array = some ⟨3, [(true, [0]), (false, [1]), (false, [1])]⟩ ∧ (⟨3, [(true, [0]), (false, [1]), (false, [1])]⟩ : ArrayRun).free = 6 := by decide +kernel

theorem test_double_bit_poisons : goes (exec (.scrubRead (8 * 0x1000000000) 2) on0) (fun t => t.poison == [0x8000000000] && t.on (FLOOR_ECC_STATUS_UNCORR 0)) = true := by
  decide +kernel

/-- District 1 is ON, postmaster 1 runs, the RUN is on it, ring 5 is of floor group 1, whose quantum is the whole round (Round R58), and a step of two clerks
is ready. -/
def stepReady : State := (((running 1).put (FIRMWARE_PROC_STATE_STATE 4) 4).put (RINGS_CFG_FLOOR_GROUP 5) 1).put (POWER_DOM_STATUS_STATE 1) 0
def stepWork : StepWork := ⟨5, 0, 3, { desc := 0, needs := [(2, 0)], gens := [⟨5, []⟩], merge := [(0, some 1)], bands := [(1, [0, 0x1FFFF])] }⟩

/-- Its unit has run, and its clerk has reached the step boundary. -/
def stepDone : State := (stepReady.setDunit 1 (some dunit0)).setClerk (clerkOf 1 0) { stage := .boundary }

theorem witness_StepsStartAndEnd : (stepReady.runSt 5 0).isSome = true ∧ (runOn 1).fail = none ∧ 0 < (runOn 1).steps.length ∧
    (runOn 1).limited { d := 1 } 7 = false ∧ stepReady.arrived 1 stepWork.prog = true ∧ stepReady.districtReady 1 = true ∧
    (runOn 1).stepOk { d := 1 } stepWork.prog = true ∧ stepReady.memWaits 5 0 = false ∧ (stepReady.atNs 0).halfFree 1 stepWork = true ∧
    (((stepReady.atNs 0).setWaits 5 0 1 false).becomeReady 1 stepWork 0).behind 1 stepWork 0 = false ∧
    (match (Safety.readyStep stepReady 1 stepWork { d := 1 } 0).stepHead 5 0 1 3 key stepWork.prog with | .ok _ => true | .error _ => false) = true ∧
    stepReady.readyOf 1 5 0 = none ∧ progAddrs stepWork.prog ≠ [] ∧
    (match (((stepReady.atNs 0).setWaits 5 0 1 false).becomeReady 1 stepWork 0).fitUnit (1, 5, 0, 0) 1 (stepReady.get (RINGS_CFG_FLOOR_GROUP 5)) 0 100 (opMHz (stepReady.distOp 1)) with
      | .start _ => true | _ => false) = true ∧
    stepDone.unitAtEnd 1 dunit0 = true ∧ stepDone.relayOpen 5 0 = false ∧ stepDone.memWaits 5 0 = false ∧ (stepDone.flight 5 0).any (fun f => f.stage == .started) = true := by
  decide +kernel

/-- Clerk 1's inbox holds the address less 1, modulo 2^17 (Districts R200). -/
theorem test_band_offset_wraps : goes (exec (.unitStart 1 (.step stepWork) 0) stepReady) (fun t =>
    ((t.clerkCycle (clerkOf 1 0) 0).clerk (clerkOf 1 0)).inbox == [5] && ((t.clerkCycle (clerkOf 1 1) 0).clerk (clerkOf 1 1)).inbox == [4] && t.on (FLOOR_DIST_STATE_UNIT 1)) = true := by decide +kernel
theorem test_run_ends_ok : goes (exec (.stepEnd 1 ⟨[], true⟩ 0) stepDone) (fun t =>
    (t.flight 5 0).any fun f => f.stage == .ended && f.status == 0 && f.result == 1) = true := by decide +kernel

/-- A parcel image of one entry, one step of 100 cycles of node 7, and a body of 64 zeros (Parcels Table 8.1). -/
def tables (args : Nat) : Bytes := leBytes 16 (args + 2 ^ 32 + 100 * 2 ^ 64) ++ leBytes 4 100 ++ leBytes 4 7
def header (ngi : Byte) (args : Nat) : Bytes := leBytes 4 0x4C435250 ++ [1, ngi, 4, 1, 1, 1, 0, 0] ++ leBytes 4 2 ++ leBytes 8 1 ++ leBytes 4 0xC0 ++ leBytes 4 64 ++ leBytes 4 0x80 ++
  leBytes 4 0x90 ++ leBytes 4 1 ++ leBytes 12 0 ++ [0, 1, 1, 0] ++ leBytes 48 0 ++ leBytes 4 0 ++ leBytes 4 (crc32c (tables args)) ++
  leBytes 4 (crc32c (List.replicate 64 0)) ++ leBytes 4 0
def parcel (ngi : Byte) (args : Nat) : Bytes := header ngi args ++ leBytes 4 (crc32c (header ngi args)) ++ tables args ++ List.replicate (0xC0 - 0x98) 0 ++ List.replicate 64 0

/-- A RUN, or a release, of it on district 1 has started on ring 5. -/
def runState (entry : Nat) : State := ((((flying (envelope 1 (leBytes 8 0x10000 ++ leBytes 8 0 ++ leBytes 2 2 ++ leBytes 2 entry)) .started).wrMem 0x10000 (parcel 2 0)).put
  (FIRMWARE_PROC_STATE_STATE 4) 4).put (FIRMWARE_PROC_STATE_STATE 0) 4).put (POWER_DOM_STATUS_STATE 1) 0 |>.put (RINGS_CFG_FLOOR_GROUP 5) 1
def body : BodyLoad := ⟨0, 0, []⟩

theorem witness_RunsBeginAndReleasesFree :
    (match (runState 0).readImage 0 0x10000 with
      | .ok m =>
        (match (runState 0).argCheck 0 m (envelope 1 (leBytes 8 0x10000 ++ leBytes 8 0 ++ leBytes 2 2)) false with | .ok _ => true | .error _ => false) &&
          (runState 0).placeCheck 5 m.hdr 2 == none && (runState 0).roomCheck 5 2 m 0 body == none && !(runState 0).runWaits m 2 &&
          (match (runState 0).bodyCheck 0 0x10000 2 m body with | .ok _ => true | .error _ => false) && (runState 0).placeCheck 5 m.hdr 0 == some (6, 0) &&
          (runState 0xFFFF).busyMask (hdrKey m.hdr) 2 == 0 && (running 1).busyMask key 2 == 2
      | .error _ => false) = true ∧
    (districtsOf 2).all (fun d => (runState 0).fwRunning (3 + d) && !(runState 0).preparing d) = true ∧ (runState 0).fwRunning 0 = true ∧
    (runState 0).runSt 5 0 = none ∧ (runState 0).floor.waiting = [] ∧ ((runState 0).put (FIRMWARE_PROC_STATE_STATE 0) 1).fwRunning 0 = false ∧ (brkTest ((runState 0).ring 5).brk 0).1 = false := by decide +kernel

theorem test_run_begins : goes (exec (.run 5 0 body) (runState 0)) (fun t => (t.runSt 5 0).isSome && (t.allocs 1).length == 1) = true := by decide +kernel

/-- A COPY of 64 bytes from DRAM 0x20000 to 0x30001. -/
def copying (mode len : Nat) : State :=
  (flying (envelope 2 (leBytes 8 0x20000 ++ leBytes 8 0x30001 ++ leBytes 4 len ++ leBytes 4 mode ++ leBytes 8 0 ++ leBytes 4 1)) .started).wrMem 0x20000 [1, 2, 3]

theorem witness_CopiesAndInboundTilesMoveTheirBytes : ((copying 0 64).flight 5 0).any (fun f => f.stage == .started && Env.kind f.env == 2 &&
      Env.mode f.env == 0 && Env.rows f.env == 1 && Env.dst f.env == 0x30001) = true ∧ (copying 0 64).addrCheck 0 0x20000 64 = none ∧
    (copying 0 64).addrCheck 0 0x30001 64 = none ∧ (copying 0 64).poison = [] ∧ (copying 0 64).cfgOn RINGS_RECEIPT_BASE_EN = false ∧
    (copying 0 64).memWaits 5 0 = false ∧ (copying 0 64).copyClass 5 0 = 2 ∧ (copying 0 64).ttRun = false ∧ (copying 0 64).on (MEMCTL_CLASS_RATE_RATE 2) = false ∧
    ((copying 0 64).setMemc fun m => { m with moves := [⟨some (5, 0), 2, 0x20000, 64⟩] }).memWaits 5 0 = true ∧ (copying 0 64).copyWaits (envelope 2 (leBytes 8 0x20000)) = false ∧
    (copying 0 64).relayOpen 5 0 = false ∧ ((copying 2 24).flight 5 0).any (fun f => Env.mode f.env == 2 && !skewOk f.env) = true ∧
    (((copying 0 64).setRelay fun z => { z with ops := [⟨0, 5, 0, 0, false⟩] }).wrN ROUND_COUNT 100).relayLate 5 0 false = true ∧
    (stepDone.setDunit 0 (some dunit0)).copyWaits (envelope 2 (leBytes 8 0x20000 ++ leBytes 8 0x8020000000)) = true ∧
    sramOf 0x80207FFFF8 = some 1 ∧ 1 ≠ stepReady.expressDistrict ∧ stepReady.domUp 1 = true ∧ stepReady.allocOf 1 key = some alloc ∧
    alloc.has 1 0x80207FFFF8 8 = true ∧ 0x80207FFFF8 + 8 ≤ cacheAddr 1 + 0x400000 ∧ (runOn 1).dists.any (fun y => y.d == 1) = true ∧
    stepReady.poison = [] ∧ stepReady.floor.flips = [] ∧ stepReady.cfgOn RINGS_RECEIPT_BASE_EN = false ∧
    (stepReady.wrN ROUND_COUNT 100000).arrivalLate { d := 1, waits := true } = true := by decide +kernel

theorem test_copy_moves : goes (exec (.copy 5 0) (copying 0 64)) (fun t => t.byte 0x30003 == 3 && t.byte 0x30004 == 0) = true := by decide +kernel

/-- Walk record 2 of district 1, with UP 2 and W 3, at exponent `k`, whose walk step ends: the clerk has set these event bits and written these records. -/
def walkUnit : DUnit := { dunit0 with prog := { desc := 0, walks := [⟨2, []⟩] } }
def walking (k c events written : Nat) : State :=
  ((stepReady.setDunit 1 (some walkUnit)).setClerk (clerkOf 1 0) { stage := .boundary, events := events, written := written }).wrN (FLOOR_WALK 1 2)
    (2 ^ 31 + c * 65536 + 3 * 256 + 64 + k)

theorem witness_ScaleWalkMovesByItsRule : (walking 30 1 4 4).on (FLOOR_WALK_VALID 1 2) = true ∧ (walking 30 1 4 4).dunit 1 = some walkUnit ∧
    (walking 30 1 4 4).unitAtEnd 1 walkUnit = true ∧ ((walking 30 1 4 4).runSt 5 0).isSome = true ∧ (walking 30 1 4 4).allocOf 1 key = some alloc ∧
    (match (Safety.stepDone (walking 30 1 4 4) 1 walkUnit 0).eventTiles 1 alloc [] with | .ok y => y.2 == [] | .error _ => false) = true ∧
    (walking 30 1 4 4).anyClerk 1 2 Clerk.events = true ∧ (walking 2 2 0 4).anyClerk 1 2 Clerk.events = false ∧ (walking 2 2 0 4).anyClerk 1 2 Clerk.written = true ∧
    (walking 2 2 0 0).anyClerk 1 2 Clerk.written = false ∧ (walking 2 2 0 4).get (FLOOR_WALK_CLEAN 1 2) + 1 = (walking 2 2 0 4).get (FLOOR_WALK_W 1 2) ∧
    (walking 30 1 4 4).cfgOn FLOOR_WALK_CTRL_HOLD = false ∧ ((walking 30 1 4 4).putB FLOOR_WALK_CTRL_HOLD true).cfgOn FLOOR_WALK_CTRL_HOLD = true ∧
    (walking 30 1 4 4).on (FLOOR_WALK_FIXED 1 2) = false ∧ SMap.get (fun _ => []) (walking 30 1 4 4).floor.walkK (64 * 1 + 2) = [] ∧ (walking 30 1 4 4).path .pf = true ∧
    (walking 30 1 4 4).holdOf .pf = none ∧ (walking 30 1 4 4).regDown (FLOOR_WALK 1 2) = false ∧ (walking 30 1 4 4).domUp 1 = true ∧
    (walking 30 1 4 4).on (FLOOR_WALK_VALID 1 3) = false ∧ ((walking 30 1 4 4).put (FLOOR_WALK_FIXED 1 2) 1).on (FLOOR_WALK_FIXED 1 2) = true := by decide +kernel

/-- Numbers Table 7.5: an event at k = 0 with UP 2 gives 2; the third clean step in a row gives k − 1; at 30 the rise stops at 31. -/
theorem test_walk_up : goes (exec (.stepEnd 1 ⟨[], false⟩ 0) (walking 0 1 4 4)) (fun t => t.get (FLOOR_WALK_K 1 2) == 2) = true ∧
    goes (exec (.stepEnd 1 ⟨[], false⟩ 0) (walking 30 1 4 4)) (fun t => t.get (FLOOR_WALK_K 1 2) == 31) = true := by decide +kernel
theorem test_walk_down : goes (exec (.stepEnd 1 ⟨[], false⟩ 0) (walking 2 2 0 4)) (fun t => t.get (FLOOR_WALK_K 1 2) == 1 && t.get (FLOOR_WALK_CLEAN 1 2) == 0) = true := by
  decide +kernel

/-- A POSTMARK of an action with TAG 9 and COUNT `n`. -/
def marking (action n : Nat) : State := flying (envelope 8 (leBytes 4 action ++ leBytes 4 9 ++ leBytes 8 n)) .started
/-- District 1 is held since round 0. -/
def holding : State := stepReady.holdDistrict 1

theorem witness_PostmarksArmBreaksAndHoldsEnd : ((marking 1 0).flight 5 0).any (fun f => f.stage == .started && Env.kind f.env == 8 && fieldLE f.env 0x18 4 == 1) = true ∧
    (marking 1 0).ringState 5 = 1 ∧ (marking 1 0).get (RINGS_CFG_CLASS 5) ≠ 0 ∧ ((marking 1 0).put (RINGS_CFG_CLASS 5) 0).get (RINGS_CFG_CLASS 5) = 0 ∧
    Req.pf.reachesRegs = true ∧ holding.spineUp = true ∧ holding.path .pf = true ∧ holding.holdOf .pf = none ∧ SMap.get (fun _ => none) holding.floor.holds 1 = some 0 ∧ holding.isHeld 1 = true ∧
    0 < holding.cfg ⟨FLOOR_DEBUG_HOLD_LIMIT, 31, 0⟩ ∧
    0 + holding.cfg ⟨FLOOR_DEBUG_HOLD_LIMIT, 31, 0⟩ ≤ (holding.wrN ROUND_COUNT 1000000).round := by decide +kernel

theorem test_count_breaks_second : brkTest (some (.count 9 2 0)) 9 = (false, some (.count 9 2 1)) ∧ brkTest (some (.count 9 2 1)) 9 = (true, none) ∧
    brkTest (some (.count 9 2 1)) 8 = (false, some (.count 9 2 1)) := by decide +kernel

/-! ### Serving -/

/-- A session descriptor: parcel 0x10000 on district 1, entry 0, no drafts, tenant 2, a pool of 64 pages at 0x100000, 4 requests, chunk 16, 64 positions. -/
def descriptor : Bytes := leBytes 8 0x10000 ++ leBytes 2 2 ++ leBytes 2 0 ++ leBytes 2 0xFFFF ++ leBytes 2 4 ++ leBytes 8 0x100000 ++ leBytes 4 64 ++
  leBytes 4 4096 ++ leBytes 2 4 ++ leBytes 2 16 ++ leBytes 4 64 ++ leBytes 4 64 ++ leBytes 4 0 ++ leBytes 8 0 ++ leBytes 8 0

/-- A request block of tenant 2: a prompt of 16 tokens, up to 8 new ones, no handle. -/
def block : Bytes := leBytes 8 0x40000 ++ leBytes 4 16 ++ leBytes 4 8 ++ leBytes 8 0x50000 ++ [2, 0, 0xFF, 0xFF, 0, 0, 0, 0] ++ leBytes 32 0

/-- A SESSION envelope of an OP for session 9, on the PF's ring 5, with the descriptor at 0x20000 and the block at 0x30000; tenant 2 is the PF's. -/
def serving (op a n : Nat) : State :=
  (((flying (envelope 10 (leBytes 4 9 ++ leBytes 4 op ++ leBytes 8 a ++ leBytes 4 n)) .started).wrMem 0x10000 (parcel 3 64)).wrMem 0x20000 descriptor).wrMem 0x30000 block
  |>.putB (FIRMWARE_TENANT_FN_VALID 2) true |>.put (FIRMWARE_PROC_STATE_STATE 1) 4

/-- Session 9 is open. -/
def session (q r : List Request) (p : Option Nat) : Session := { id := 9, fn := 0, ring := 5, desc := descriptor, key := hdrKey (header 3 64), queue := q, running := r, pass := p }
def opened (op a n : Nat) (x : Session) : State := (serving op a n).setServe fun v => { v with sessions := [x] }
def request : Request := { block := 0x30000, fn := 0, head := block }

/-- The pass of session 9 can begin: district 1 is ON with its postmaster, and the supervisor runs. -/
def passState (x : Session) : State :=
  (((opened 0 0 0 x).put (FIRMWARE_PROC_STATE_STATE 4) 4).put (FIRMWARE_PROC_STATE_STATE 0) 4).put (POWER_DOM_STATUS_STATE 1) 0 |>.put (RINGS_CFG_FLOOR_GROUP 5) 1

theorem witness_SessionsOpenAdmitAndRunPasses :
    (match (serving 0 0x20000 64).readImage 0 0x10000 with
      | .ok m => firstBad (descTests descriptor) == none && hdrF m.hdr 5 1 == 3 && !hdrExpress m.hdr &&
          (match (serving 0 0x20000 64).templateCheck 0 (session [] [] none) m with | .ok _ => true | .error _ => false)
      | .error _ => false) = true ∧
    (serving 0 0x20000 64).session 9 = none ∧ (serving 0 0x20000 64).serve.sessions.length < 16 ∧ (serving 0 0x20000 64).get (RINGS_CFG_CLASS 5) ≠ 0 ∧ (serving 0 0x20000 64).ringState 5 = 1 ∧
    ((serving 0 0x20000 64).flight 5 0).any (fun f => Env.kind f.env == 10 && fieldLE f.env 0x18 4 == 9) = true ∧
    firstBad (requestTests block (session [] [] none)) = none ∧ (serving 1 0x30000 128).tenantOf 2 0 = true ∧ request.need ≤ (session [] [] none).pages ∧
    (((serving 1 0x30000 128).ringTraffic 5 0 0x30000 128).marshalWrite 0 (0x30000 + 0x40) (List.replicate 64 0)).2 = none ∧
    (session [request] [] none).named 0 0x30000 = some request ∧ nbit (session [] [] none).tenants request.tenant = true ∧ nbit request.receipt 31 = false ∧
    (opened 2 0x30000 0 (session [request] [] none)).endsInPass (session [request] [] none) request = false ∧
    (((serving 4 0x60000 64).ringTraffic 5 0 0x60000 64).marshalWrite 0 0x60000 (statusBlock (session [] [] none))).2 = none ∧
    (match (passState (session [] [request] none)).passCheck (session [] [request] none) (session [] [request] none).entry body with | .go _ _ _ => true | _ => false) = true ∧
    request.drafts = 0 ∧ (passState (session [] [request] none)).serve.binds = [] ∧
    (passState (session [] [request] none)).fwRunning 1 = true := by decide +kernel

/-- The marshal admits the queued request into pages 0 and 1, and grants it the whole of its prompt. -/
theorem test_pass_admits : goes (exec (.passStart 9 body) (passState (session [request] [] none))) (fun t =>
    (t.session 9).any fun x => x.running.map (fun q => (q.pages, q.grant)) == [([0, 1, 2], 16)] && x.queue.isEmpty) = true := by decide +kernel

/-- Three candidates of which two are as the model chose: two are accepted, and three tokens are emitted (Serving R303). -/
theorem test_accepts_two : acceptCount [7, 8, 9] [7, 8, 5, 4] = 2 ∧ upToStop 0 [7, 8, 5] = [7, 8, 5] ∧
    (Request.afterPass { request with gen := true, len := 20, feed := [] } 1 []).2.len = 21 := by decide +kernel

/-- The published answers of Philox4x32-10 for key and counter 0, and of AES-256-GCM for a key, nonce and block of zeros. -/
theorem test_philox : philox 10 0 0 (0, 0, 0, 0) = (0x6627E8D5, 0xE169C58D, 0xBC57AC4C, 0x9B00DBD8) := by decide +kernel
theorem test_gcm : gcmOpen (List.replicate 32 0) (List.replicate 12 0) [] (beBytes 16 0xCEA7403D4D606B6E074EC5D3BAF39D18) (beBytes 16 0xD0D1C8A799996BF0265B98B5D48AB919) =
    some (List.replicate 16 0) := by decide +kernel

theorem test_failed_pass_is_contained : goes (exec (.passComplete 9 0 0) ((passState (session [] [request] (some 0))).setFloor fun f =>
    { f with passEnds := [(2 ^ 32 + 9, 0x0A)] })) (fun t => t.on ERROR_STATUS_CONTAINED && (t.session 9).any (fun x => x.running.isEmpty)) = true := by decide +kernel

/-- A postscript image of 64 bytes, format 1, rank 1. -/
def psHead : Bytes := leBytes 4 0x50535450 ++ [1, 1, 1, 0] ++ leBytes 52 0
def psImage : Bytes := psHead ++ leBytes 4 (crc32c psHead)

/-- A PS_LOAD for tenant 2, handle 5, or a PS_BIND of it to slot 3, generation 1. -/
def psState (e : Bytes) : State := ((flying e .started).wrMem 0x20000 psImage).putB (FIRMWARE_TENANT_FN_VALID 2) true |>.putB FIRMWARE_PS_POOL_BASE_EN true
  |>.put FIRMWARE_PS_POOL_BASE_ADDR 0x1000
def psLoading : State := psState (envelope 6 (leBytes 8 0x20000 ++ leBytes 4 64 ++ [2, 0] ++ leBytes 2 5))
def psBinding : State := (psState (envelope 7 (leBytes 2 5 ++ [2, 0] ++ leBytes 2 3 ++ leBytes 2 0 ++ leBytes 4 1))).wrN (FIRMWARE_PS_SLOT_STATE 3)
  (2 * 2 ^ 29 + 2 * 2 ^ 24 + 5 * 2 ^ 16) |>.wrN (FIRMWARE_PS_SLOT_GEN 3) 1
/-- The bind was accepted in round 0, slot 4 is bound, and round 1 has begun. -/
def psBound : State := ((psBinding.setHandle 517 { bound := some (4, 1), next := 3 }).setServe fun v =>
  { v with binds := [⟨5, 0, 0, 517, some (3, 1)⟩] }).wrN ROUND_COUNT 1
/-- Slot 3 drains, and its receipt has reached TARGET. -/
def psDraining : State := (psBinding.setSlot 3 4).wrMem 0x3000000 [0]

theorem witness_PostscriptsLoadBindAndRetire : (psLoading.flight 5 0).any (fun f => Env.kind f.env == 6 && fieldLE f.env 0x24 1 == 2 && fieldLE f.env 0x26 2 == 5) = true ∧
    psLoading.tenantOf 2 0 = true ∧ 64 ≤ psLoading.slotMib * 0x100000 ∧ psLoading.cfg (FIRMWARE_TENANT_FN_MAX_SLOTS 2) = 0 ∧ (psLoading.psHandle 2 5).next < 2 ^ 24 ∧
    psLoading.cfgOn FIRMWARE_PS_POOL_BASE_EN = true ∧ psLoading.memWaits 5 0 = false ∧ (List.range (psLoading.cfg FIRMWARE_PS_POOL_CFG_SLOTS_M1 + 1)).find? (fun j => psLoading.slotState j == 0) = some 0 ∧
    (match psLoading.addrRead 0 0x20000 64 with | .ok b => b == psImage | .error _ => false) = true ∧ firstBad (psTests psImage 64) = none ∧
    psBinding.slotHolds 3 2 5 1 = true ∧ (psBinding.flight 5 0).any (fun f => Env.kind f.env == 7 && fieldLE f.env 0x18 2 == 5 && fieldLE f.env 0x1C 2 == 3) = true ∧
    psBound.serve.binds = [⟨5, 0, 0, 517, some (3, 1)⟩] ∧ 0 < psBound.round ∧ psBound.slotHolds 3 (517 / 256) (517 % 256) 1 = true ∧ (psBound.psHandle 2 5).bound = some (4, 1) ∧ psDraining.slotDrained 3 = true ∧
    psDraining.ringState (SMap.get (fun _ => (0, 0, 0)) psDraining.serve.slots 3).2.2 = 0 ∧ psBinding.slotDrained 3 = false := by decide +kernel

theorem test_bind_drains_old : goes (exec .psBindApply psBound) (fun t => t.slotState 3 == 3 && t.slotState 4 == 4) = true := by decide +kernel

/-! ### Vision -/

/-- PD_CAM, PD_ISP and PD_VCODEC are ON; port 2 is enabled; channel 6 takes port 2, VC 0, DT 0x1E past the ISP, into two buffers of 4 KiB at 0x100000, class 1. -/
def cams : State := (((((((up.put (POWER_DOM_STATUS_STATE 20) 0).put (POWER_DOM_STATUS_STATE 17) 0).put (POWER_DOM_STATUS_STATE 18) 0).putB (CAMERA_PORT_CFG_ENABLE 2) true).wrN
  (CAMERA_CHAN_CFG 6) 0x940F2000).put (CAMERA_CHAN_BUF_STRIDE 6) 1).put (CAMERA_CHAN_BUF_BASE_ADDR 6) 0x100).put (CAMERA_CHAN_REC_BASE_ADDR 6) 0x300
def packet (e : HeaderEcc) (b : CsiBody) : Csi2 := ⟨2, 0, 0x1E, e, b⟩
def cam1 (f : CamFrame) : State := cams.setChan 6 { next := 1, frames := [f] }
def frame0 : CamFrame := { k := 0, sof := 0, ts := 7 }
/-- The channel takes the raw stream 2 of 8 lines of 64 pixels, whose part of the input memory is one line short of full or full. -/
def rawCam (n : Nat) : State := ((cams.put (CAMERA_CHAN_CFG_SOURCE 6) 0).put (CAMERA_CHAN_CFG_INDEX 6) 2).setChan 6 { next := 1, frames :=
  [{ frame0 with width := 64, height := 16, crop := (0, 0, 64, 16), lines := n, raw := List.replicate n [] }] }
/-- Buffer 0 is still held by encode session 3, so frame 2 is dropped. -/
def camHeld : State := (((cams.putB (VCODEC_ENC_CFG_ENABLE 3) true).put (VCODEC_ENC_CFG_CHANNEL 3) 6).setEnc 3 { hold := some ⟨0, 64, 64⟩ }).setChan 6 { next := 2 }

/-- Stream 0 is enabled with 15 lines of 65,534 pixels, and stream 2 has that size too. -/
def wideCams : State := ((cams.wrN (ISP_STREAM_SIZE 0) 0x1000FFFE).wrN (ISP_STREAM_CFG 0) 0x8C010F00).wrN (ISP_STREAM_SIZE 2) 0x1000FFFE

theorem witness_CamerasCaptureFrames :
    cams.cfgOn (CAMERA_PORT_CFG_ENABLE 2) = true ∧ cams.domUp 20 = true ∧ (List.range 24).filter (fun j => cams.chanTakes j (packet .good .frameEnd) false) = [6] ∧
    (List.range 24).filter (fun j => cams.chanTakes j (packet .good .frameEnd) true) = [6] ∧ cams.chanSource 6 = 1 ∧ cams.chan 6 = {} ∧ cams.bufFree 6 0 = true ∧
    camHeld.bufFree 6 2 = false ∧ camHeld.chanSource 6 = 1 ∧ cams.chanStride 6 = 4096 ∧ frame0.off + 4096 ≤ (cam1 frame0).chanStride 6 ∧
    (cam1 frame0).chanStride 6 < frame0.off + 4097 ∧ (rawCam 8).chanSource 6 = 0 ∧
    ((rawCam 8).chan 6).frames.all (fun f => f.window.2.2.1 ≤ f.lines && f.lines < f.window.2.2.2 && (rawCam 8).cfg (ISP_STREAM_CFG_IN_LINES 2) ≤ f.inMemory) = true ∧
    State.reset.cfgOn (CAMERA_PORT_CFG_ENABLE 2) = false ∧ cams.mayFinish 6 { frame0 with past := true } = true ∧ cams.mayFinish 6 frame0 = false ∧
    cams.cfgOn (CAMERA_CHAN_RECEIPTS_FRAME_EN 6) = false ∧ ((List.range 8).all fun g => cams.cfgOn (CAMERA_SET_CFG_ENABLE g) == false) = true ∧
    (cams.camWrite 6 0x180000 (frameRecord frame0 2 0)).2 = none ∧ (cams.camWrite 6 0x100000 [1]).2 = none ∧
    ((cams.put (CAMERA_CHAN_BUF_BASE_ADDR 6) 0x2000000).camWrite 6 ((cams.put (CAMERA_CHAN_BUF_BASE_ADDR 6) 0x2000000).bufAddr 6 0) [1]).2 ≠ none ∧ ((cam1 frame0).wrN ROUND_COUNT 2).round = 2 ∧
    Safety.Lands .pf (CAMERA_CHAN_CFG 5) cams ∧ cams.chanSet 5 = false ∧ cams.sourceTaken 5 (State.chanWrite.andNat' 0x960F2000) = false ∧
    nbits 0x960F2000 30 28 = 1 ∧ Safety.Lands .pf (ISP_STREAM_CFG 2) cams ∧ Safety.Lands .pf (ISP_STREAM_CFG 2) wideCams ∧ cams.on (ISP_STREAM_CFG_ENABLE 2) = false ∧ cams.inputTotal 2 0x80010800 ≤ 0x200000 ∧
    0x200000 < wideCams.inputTotal 2 0x8C010F00 ∧ wideCams.on (ISP_STREAM_CFG_ENABLE 2) = false := by decide +kernel

/-- The record of a bypass frame 0 that began in round 0 with frame number 7 (Vision Table 10.2). -/
theorem test_frame_record : goes (exec (.frameFinish 6 []) (cam1 { frame0 with past := true })) (fun t =>
    (List.range 32).map (fun i => t.byte (0x180000 + i)) == List.replicate 28 0 ++ [7, 0, 0, 0]) = true := by decide +kernel

/-- The worked example of Vision §5: GROUP_PIXELS 1,024 gives D = 894 ns, and 3,840 pixels of RAW12 take 5,760 bytes. -/
theorem test_group_worst_case : (up.put (ISP_STREAM_CFG_GROUP_P64 2) 16).groupNs 2 = 894 ∧ lineBytes 3840 2 = 5760 ∧ layoutBytes 0 3840 2160 = 12441600 := by decide +kernel

/-- Session 1 feeds channel 6, and its receipt has reached 1. -/
def decodes : State := ((((((receipts.put (POWER_DOM_STATUS_STATE 18) 0).wrN (CAMERA_CHAN_CFG 6) 0xA0002100).putB (VCODEC_DEC_CFG_ENABLE 1) true).put (CAMERA_CHAN_BUF_STRIDE 6) 3).put
  (VCODEC_DEC_INPUT_RECEIPT 1) 4).put (VCODEC_DEC_SIZES_BS_4K 1) 1).wrMem (receipts.receiptAddr 4) [1]
def encodes : State := ((((up.put (POWER_DOM_STATUS_STATE 18) 0).putB (VCODEC_ENC_CFG_ENABLE 3) true).put (VCODEC_ENC_BS_SIZE_BS_4K 3) 1).put (VCODEC_ENC_BS_BASE_ADDR 3) 0x200).setEnc 3
  { n := 4, off := 4090, hold := some ⟨2, 64, 64⟩, pixels := 4096 }
def jpegs : State := (((receipts.put (POWER_DOM_STATUS_STATE 18) 0).putB VCODEC_JPEG_CFG_ENABLE true).put VCODEC_JPEG_RECEIPTS_SUBMIT 4).wrMem (receipts.receiptAddr 4) [1]
def job0 : Bytes := List.replicate 64 0
/-- An encode job of 8 × 8 grey pixels at quality 50, and a file of its headers. -/
def jobGray : Bytes := [0, 3, 50, 0, 8, 0, 8, 0] ++ List.replicate 12 0 ++ leBytes 4 0x1000 ++ List.replicate 40 0
def grayFile (q : Nat) : Bytes := beBytes 2 0xFFD8 ++ beBytes 4 0xFFE00007 ++ [0x4A, 0x46, 0x49, 0x46, 0] ++ beBytes 4 0xFFDB0043 ++ [0] ++ quantSegment q false ++
  beBytes 4 0xFFC00002 ++ beBytes 4 0xFFC4001F ++ [0] ++ huffDc false ++ beBytes 4 0xFFDA0002
def coding : State := jpegs.setVis fun v => { v with job := some jobGray, jobTiles := 1 }

theorem witness_CodecsDecodeEncodeAndRunJobs : decodes.decChan 1 = some 6 ∧ decodes.dom 18 = 0 ∧ decodes.vis.dec = none ∧ decodes.decTurn = some 1 ∧
    (decodes.auRead 1 6).2 = some 0 ∧ decodes.bufFree 6 0 = true ∧ layoutBytes 0 64 64 ≤ decodes.chanStride 6 ∧ (decodes.putB (VCODEC_DEC_CFG_ENABLE 1) false).decTurn ≠ some 1 ∧
    encodes.encWhole 3 = some ⟨2, 64, 64⟩ ∧ encodes.cfgOn (VCODEC_ENC_CFG_ENABLE 3) = true ∧ encodes.encWhole 2 = none ∧ encodes.cfgOn (VCODEC_ENC_OUT_RECEIPT_EN 3) = false ∧ encodes.dom 18 = 0 ∧ 2048 = encodes.cfg (VCODEC_ENC_BS_SIZE_BS_4K 3) * 4096 / 2 ∧
    Safety.Lands .pf (VCODEC_ENC_CFG 1) encodes ∧ encodes.on (VCODEC_ENC_CFG_ENABLE 1) = false ∧ decodes.givesNv12 6 = true ∧
    Safety.Lands .pf (VCODEC_ENC_CFG 1) (decodes.put (VCODEC_ENC_OUT_CLASS 1) 2) ∧
    (decodes.put (VCODEC_ENC_OUT_CLASS 1) 2).get (VCODEC_ENC_OUT_CLASS 1) ≠ 0 ∧ cams.givesNv12 6 = false ∧ jpegs.cfgOn VCODEC_JPEG_CFG_ENABLE = true ∧
    jpegs.dom 18 = 0 ∧ jpegs.vis.job = none ∧ 0 + 1 ≤ jpegs.fnReceipt (jpegs.cfg VCODEC_JPEG_CFG_FUNCTION) (jpegs.cfg VCODEC_JPEG_RECEIPTS_SUBMIT) ∧
    ((jpegs.portRead (jpegs.cfg VCODEC_JPEG_CFG_CLASS) none meshMedia jpegs.jobAddr 64).fnRead 0 jpegs.jobAddr 64).toOption = some job0 ∧
    (jpegs.setVis fun v => { v with jobNext := 1 }).fnReceipt 0 4 < 1 + 1 ∧ encodes.cfgOn RINGS_RECEIPT_BASE_EN = false ∧
    coding.vis.job = some jobGray ∧ coding.jobEnds jobGray (.bad false) = true ∧ coding.jobEnds jobGray (.data 8 8 []) = false ∧
    coding.jobEnds jobGray (.data 8 8 (grayFile 50)) = true := by decide +kernel

/-- A file that the encoder may write at quality 50 is none that it may write at quality 49: the first entry of luminance is 16 (Vision R343). -/
theorem test_quant_tables : quantEntry 50 16 = 16 ∧ quantEntry 100 99 = 1 ∧ quantEntry 10 11 = 55 ∧ jpegFile 3 49 (grayFile 50) = false ∧
    zigzag.take 6 = [0, 1, 8, 16, 9, 2] := by decide +kernel

/-- A job's tile runs on block 20, 1,000 rounds after the end of its quantum or within it. -/
def tileUnit : RunUnit := { ring := none, owner := 0, d := 480, startRound := 0, startNs := 0, quantumEnd := 1000 }
def tiling : State := coding.setUnit 20 (some tileUnit)

theorem witness_UnitsStartByFitCheckAndEnd : coding.unitOn 20 = none ∧ coding.on ERROR_STATUS_SAFE = false ∧ (coding.atNs 1).preparing (blockDomain 20) = false ∧
    coding.joined (blockDomain 20) = true ∧ (coding.atNs 1).visionReady 20 0 = some 480 ∧ (coding.atNs 1).fit 20 0 1 480 1000 = .start 1000 ∧
    ((coding.atNs 600).visionReady 20 0 = some 480 ∧ (coding.atNs 600).fit 20 0 600 480 1000 = .defer 0) ∧ tiling.unitOn 20 = some tileUnit := by decide +kernel

theorem witness_OverrunAndHangAreCounted : tiling.unitOn 20 = some tileUnit ∧ tileUnit.ring = none ∧ tileUnit.overrun = false ∧
    tileUnit.quantumEnd ≤ (tiling.wrN ROUND_COUNT 1).at 0 ∧ tileUnit.quantumEnd + 1000000 ≤ (tiling.wrN ROUND_COUNT 1001).at 0 := by decide +kernel

/-- An access unit of 8 bytes wraps at the end of a ring of 4 KiB, and its descriptor 4 names it with KEY (Vision R342). -/
theorem test_encode_wraps : goes (exec (.encodePicture 3 [1, 2, 3, 4, 5, 6, 7, 8]) encodes) (fun t => t.byte 0x200FFF == 6 && t.byte 0x200000 == 7 &&
    (t.enc 3).off == 2 && t.byte (16 * 4 + 12) == 9) = true := by decide +kernel

/-! ### The express lane and the control ports -/

/-- An express RUN is armed on district 15, which is ON, with channel 2 on its one band; the channel converts current at 1 MS/s past the front-end. -/
def armed : State := ((((running 15).setFloor fun f => { f with runs := [{ runOn 15 with express := true, bands := [2] }] }).put (POWER_DOM_STATUS_STATE 15) 0).put
  (FIRMWARE_PROC_STATE_STATE 18) 4).wrN (EXPRESS_CHAN_CFG 2) 0x84100000
def sampling (w : Option XBlock) : State := armed.setXchan 2 fun x => { x with conv := [(0, 0)], waiting := w }
def block1 : XBlock := ⟨[0x10001000], 0, 0, false, false, false⟩
/-- The channel takes blocks from a fabric region over column 35 that runs. -/
def fabricated : State := (((armed.wrN (EXPRESS_CHAN_CFG 2) 0x84110000).put (POWER_DOM_STATUS_STATE 19) 0).put (FABRIC_REGION_COUNT_COLUMNS 0) 36).put
  (FABRIC_REGION_STATE_STATE 0) 2 |>.setXchan 2 fun x => { x with newest := some (0, 0), dirty := true }

theorem witness_SamplesBecomeBlocks : armed.convDue 2 0 = true ∧ armed.convDue 2 10 = false ∧ (armed.xchan 2).settle ≤ armed.round ∧
    armed.round < ((armed.setXchan 2 fun x => { x with settle := 20 }).xchan 2).settle ∧ ((sampling none).xchan 2).conv = [(0, 0)] ∧
    0 * 1000 + 0 + 500 ≤ (sampling none).at 500 ∧ (sampling none).cfgOn (EXPRESS_CHAN_CFG_FRONTEND 2) = false ∧ ((sampling none).bandFor 2).isSome = true ∧
    ((sampling none).xchan 2).waiting = none ∧ ((sampling (some block1)).xchan 2).waiting = some block1 ∧ armed.bandFor 3 = none ∧
    fabricated.cfgOn (EXPRESS_CHAN_CFG_FRONTEND 2) = true ∧ fabricated.cfgOn (EXPRESS_CHAN_CFG_ENABLE 2) = true ∧ fabricated.xoutDriven = true ∧
    (fabricated.xchan 2).newest = some (0, 0) ∧ (fabricated.bandFor 2).isSome = true ∧ (fabricated.xchan 2).waiting = none ∧ armed.xoutDriven = false := by decide +kernel

/-- 12 mA is code 15,360, and 3.5 mA is LOW (Express Table 11.2): the first such sample raises no flag. -/
theorem test_current_code : sampleCode ⟨0, 12000000000, 0⟩ 1 = 15360 ∧ sampleConds ⟨0, 3500000000, 0⟩ 1 = [false, true, false] ∧
    flagStep (false, 0) true = (false, 1) ∧ flagStep (false, 3) true = (true, 0) := by decide +kernel

theorem test_second_block_has_gap : goes (exec (.sampleAvailable 2 ⟨0, 12000000000, 0⟩ 500) (sampling (some block1))) (fun t =>
    (t.xchan 2).waiting == some ⟨[0x3C001000], 0, 0, false, false, true⟩ && t.rdN (EXPRESS_CHAN_SKIP 2) == 1) = true := by decide +kernel

/-- The channel's unit runs on clerk 0, which has reached its boundary. -/
def unitDone : State := (((sampling none).setXchan 2 fun x => { x with unit := some { block := block1, clerks := 1, quantumEnd := 1000 }, seq := 9 }).setDunit 15 (some dunit0)).setClerk (clerkOf 15 0)
  { stage := .boundary }
def waitingUnit : State := (sampling (some block1)).put ROUND_EXPRESS_RES_MAX_NS 1000
def spilling (r : Nat) : State := (armed.setXp fun x => { x with spills := [(0, [])] }).wrN ROUND_COUNT r

theorem witness_ExpressUnitsCommitResults : (waitingUnit.bandFor 2).isSome = true ∧ (waitingUnit.xchan 2).waiting = some block1 ∧ waitingUnit.xslotDue 2 = true ∧
    (waitingUnit.xchan 2).unit = none ∧ waitingUnit.dom waitingUnit.expressDistrict = 0 ∧ waitingUnit.fwRunning (3 + waitingUnit.expressDistrict) = true ∧
    (waitingUnit.armedRun.any fun r => waitingUnit.runGoes r && waitingUnit.expressFits r.maxCycles) = true ∧ waitingUnit.on ERROR_STATUS_SAFE = false ∧
    (waitingUnit.armedRun.any fun r => r.expressOk { desc := 0 } && !waitingUnit.memWaits r.ring r.seq &&
      ((waitingUnit.atNs 1).stepHead r.ring r.seq waitingUnit.expressDistrict 1 r.key { desc := 0 }).toOption.isSome) = true ∧ waitingUnit.bandsClerks &&& 1 = 0 ∧ (waitingUnit.put ROUND_EXPRESS_RES_MAX_NS 100).expressFits 100 = false ∧
    (waitingUnit.putB ROUND_STATUS_TT_RUN true).xslotDue 2 = false ∧
    (unitDone.xchan 2).unit = some { block := block1, clerks := 1, quantumEnd := 1000 } ∧ (clerksOf 15 1).all (fun k => (unitDone.clerk k).stage == .boundary) = true ∧ unitDone.at 999 ≤ 1000 ∧
    unitDone.on (EXPRESS_CHAN_CFG_ENABLE 2) = true ∧ unitDone.cfgOn EXPRESS_SPILL_BASE_EN = false ∧ (spilling 8).round = 8 ∧ (spilling 7).round < 0 + 8 ∧
    (armed.put (RINGS_STATUS_STATE 5) 2).armedRun.isSome = true ∧ (armed.put (RINGS_STATUS_STATE 5) 2).ringState 5 = 2 ∧ armed.xrunning = [] ∧
    (armed.flight 5 0).any (fun f => f.stage == .started) = true := by decide +kernel

/-- Record 9 is committed to entry 1, with VALID alone (Express R364, R365). -/
theorem test_commit_record : goes (exec (.expressUnitEnd 2 3 4 500) unitDone) (fun t => t.rdN (EXPRESS_MAILBOX 2 4) == 9 + 2 * 2 ^ 32 + 2 ^ 40 &&
    t.rdN (EXPRESS_MAILBOX 2 7) == 3 + 4 * 2 ^ 32) = true := by decide +kernel

/-- Port 0 has a link of 1 Gb/s; its guard is armed, with window 3 of bank 0 open for the first 4,000 ns of periods of 250 rounds; time is valid. -/
def ported : State := (((((((up.putB (CPORT_STATUS_LINK 0) true).put (CPORT_STATUS_SPEED 0) 2).putB (CPORT_PORT_CFG_ENABLE 0) true).putB (CPORT_GUARD_CTRL_ARMED 0) true).put
  (CPORT_GUARD_PERIOD_PERIOD_M1 0 0) 249).wrN (CPORT_GUARD_WIN 0 0 3) 0x8000000000000FA0).putB ROUND_STATUS_TIME_VALID true).put (CPORT_CX_CFG_ASSOC 0) 7
/-- The REQ of the worked example of Express §9, and a service request of an OP. -/
def pduReq : Bytes := [1, 1, 0, 7, 2, 0xA1, 0, 0x10, 3, 0, 0, 4]
def pduSvc (op : Byte) : Bytes := [1, 3, 0, 7, 2, 0xA1, 0, 0x14, 0, 0, 0, 0, op, 0, 0, 0]
def frameOf (pdu : Bytes) : Bytes :=
  let f := List.replicate 12 0 ++ [0x88, 0xB5] ++ pdu ++ beBytes 4 (crc32c pdu)
  f ++ List.replicate (60 - f.length) 0
def received (pdu : Bytes) : State := ported.setPort 0 fun x => { x with rx := [(100, frameOf pdu)] }
def parsed (pdu : Bytes) : Option CxPdu := ((received pdu).frontPdu 0).bind fun x => x.2.2
/-- The REQ waits for its snapshot. -/
def requested : State := match exec (.req 0) (received pduReq) with | .next t => t | _ => ported

theorem witness_ControlPortsAnswerRequests : ported.on (CPORT_STATUS_LINK 0) = true ∧ ported.accepts 0 (frameOf pduReq) true = true ∧
    (frameParts (frameOf pduReq)).2.1 = ported.cfg (CPORT_CX_CFG_ETHERTYPE 0) ∧ ported.accepts 0 (frameOf pduReq) false = false ∧ parsed [1] = none ∧
    ((received [1]).frontPdu 0).isSome = true ∧ parsed pduReq = some (.req 0x2A1 3 4) ∧ (ported.on ROUND_STATUS_TIME_VALID && ported.guardPermits 0) = true ∧
    (ported.targetOcc 0 3 100).isSome = true ∧ ported.targetOcc 0 2 100 = none ∧ ((requested.port 0).reqs.map fun r => r.last + requested.snapNs 0) = [570] ∧
    parsed (pduSvc 1) = some (.svc 0x2A1 1) ∧ parsed (pduSvc 2) = some (.svc 0x2A1 2) ∧ ((received (pduSvc 1)).port 0).queue = [] ∧
    ((ported.setPort 0 fun x => { x with queue := List.replicate 4 ⟨none, (0, 0), [], false⟩ }).port 0).queue.length = 4 ∧
    (requested.port 0).lastReq = some 100 ∧ ported.cfg ⟨CPORT_CX_TIMEOUT 0, 31, 0⟩ = 100000 ∧ (ported.port 0).lastReq = none ∧
    ported.linkSpeed 0 1 ≠ ported.get (CPORT_STATUS_SPEED 0) ∧ (ported.putB (CPORT_PORT_CFG_PREEMPT 0) true).cfgOn (CPORT_PORT_CFG_PREEMPT 0) = true := by decide +kernel

/-- Without a record, the item of channel 2 has STATUS NONE, and the frame has 60 octets before its FCS. -/
theorem test_response_item : goes (exec (.cxSnapshot 0 600) requested) (fun t => (t.port 0).queue.map (fun f => (f.octets.length, (f.octets.drop 34).take 4)) ==
    [(60, [2, 3, 0xFF, 0xFF])]) = true := by decide +kernel
theorem test_item_status : cxStatus 1 100 100 = 0 ∧ cxStatus 1 101 100 = 2 ∧ cxStatus 3 100 100 = 1 ∧ cxStatus 7 101 100 = 4 := by decide +kernel

/-- The RSP waits, in window 3 of the period that begins at 0. -/
def answer (b : Bool) : TxFrame := ⟨some 3, (0, 4000), List.replicate 60 0, b⟩
def answering : State := ported.setPort 0 fun x => { x with queue := [answer false] }
/-- A frame that the guard let start until 4,000 ns is still in progress in round 4. -/
def overrunning : State := (ported.setPort 0 fun x => { x with sent := [⟨3000, 4500, some 4000, false, []⟩] }).wrN ROUND_COUNT 4
/-- A switch of network round 0 is armed, to the standby bank with a window, which is valid or, ending beyond its period, not. -/
def switching (len : Nat) : State := (ported.putB (CPORT_GUARD_CTRL_SWITCH_PENDING 0) true).wrN (CPORT_GUARD_WIN 0 1 0) (0x8000000000000000 + len)

theorem witness_GuardLetsFramesStartOnlyInItsWindows : (answering.port 0).queue.find? (fun f => f.window == some 3) = some (answer false) ∧
    answering.on (CPORT_STATUS_LINK 0) = true ∧ answering.frameNs 0 60 = 576 ∧ (answer false).occ.2 < max (answering.at 3500 : Int) 0 + 576 ∧
    answering.mediumBusy 0 (answering.at 100) = false ∧ answering.mayStart 0 (answering.at 100) 576 = some 4000 ∧
    (answering.putB (CPORT_GUARD_CTRL_ARMED 0) false).mayStart 0 (answering.at 100) 576 = none ∧
    (overrunning.inFlight 0 (overrunning.at 0)).any (fun f => f.wend == some 4000) = true ∧ (4000 : Int) ≤ overrunning.at 0 ∧
    (switching 500).on (CPORT_GUARD_CTRL_SWITCH_PENDING 0) = true ∧ ofSigned 64 (switching 500).netRound = (switching 500).rdN (CPORT_GUARD_SWITCH 0) ∧
    (switching 1000).bankValid 0 1 = true ∧ (switching 1001).bankValid 0 1 = false ∧ ported.on (CPORT_GUARD_CTRL_SWITCH_PENDING 0) = false ∧
    ported.guardPermits 0 = true := by decide +kernel

/-- A gPTP frame outside the window waits while PTP_GAP_MS is 0, and starts under the allowance while it is not. -/
theorem test_ptp_allowance : goes (exec (.ptpFrameSend 0 (List.replicate 60 0) 500) (ported.wrN ROUND_COUNT 5)) (fun t => (t.port 0).sent.isEmpty &&
      t.rdN (CPORT_GUARD_COUNT 0 3) == 1) = true ∧
    goes (exec (.ptpFrameSend 0 (List.replicate 60 0) 500) ((ported.wrN ROUND_COUNT 5).put (CPORT_GUARD_CTRL_PTP_GAP_MS 0) 1)) (fun t =>
      (t.port 0).sent.map (fun f => (f.start, f.stop, f.wend)) == [(5500, 6076, none)]) = true := by decide +kernel

/-! ### The memory controller -/

def entryAt (a tag cls : Nat) (w : Option Bytes) : MemEntry := { tag := tag, by_ := .bulk, a := a, len := 8, write := w, old := [1, 2, 3, 4, 5, 6, 7, 8], cls := cls, arr := 0 }
def holdsQueue (q r : List MemEntry) : State := up.setMchan 0 fun m => { m with queue := q, retry := r }
def fitted : State := up.put MEMCTL_DX_STATUS_STATE 2
def lpUp (debt trained round : Nat) : State := ((up.putB GLOBAL_BOOT_STATUS_LP_TRAINED true).setMchan 3 fun m => { m with debt := debt, trained := trained }).wrN ROUND_COUNT round
/-- The entry in force trains (its byte 2 is 4), and channel 3 is next. -/
def trainLane : State := (((lpUp 0 0 8).putB ROUND_STATUS_TT_RUN true).setRnd fun r => { r with ttEntry := [(2, 4)] }).setMemc fun m => { m with trainNext := 3 }

/-- The queue of the channel of 0x1008 is full. -/
def crowded : State := up.setMchan (memChannel 0x1008) fun m => { m with queue := List.replicate 96 (entryAt 0x2008 9 3 none) }
/-- A unit runs on district 0, which is ON. -/
def busyStore : State := ((running 0).put (POWER_DOM_STATUS_STATE 0) 0).setDunit 0 (some dunit0)

theorem witness_MemoryRequestsTakeEffectInOrderAndIssueByClass : up.spineUp = true ∧ coreSpace 0x1008 = false ∧ coreSpace 0x900000000 = false ∧ inBootSram 0x1008 8 = false ∧
    (crowded.mchan (memChannel 0x1008)).noRoom = true ∧ (up.mchan (memChannel 0x1008)).port = [] ∧
    busyStore.memCheck .bulk 0x8000000000 8 = none ∧ inSram 0x8000000000 8 = true ∧
    busyStore.heldBy' 0x8000000000 = some 0 ∧ busyStore.spineUp = true ∧ Machine.Req.onModule (.host false 0) = true ∧
    State.reset.spineUp = false ∧ up.memCheck .bulk 0x1008 8 = none ∧ 0x1008 / 64 = (0x1008 + 8 - 1) / 64 ∧ inSram 0x1008 8 = false ∧
    (up.memCheck .bulk 0x900000000 8).isSome = true ∧ (up.mchan (memChannel 0x1008)).queue.length < 95 ∧ up.poison = [] ∧ up.cfgOn RINGS_RECEIPT_BASE_EN = false ∧
    (up.mchan (memChannel 0x1008)).holdsWrite 0x1008 8 = false ∧ up.memCheck (.fw 3) 0x1008 8 = none ∧
    ((((holdsQueue [entryAt 0 1 3 none, entryAt 64 2 1 none] []).atNs 0).memConfirm 0).memPick 0 []).map (fun x => x.1.tag) = some 2 ∧
    ((((holdsQueue [] []).atNs 0).memConfirm 0).memPick 0 []) = none ∧ ((((holdsQueue [] []).atNs 0).memConfirm 0).mchan 0).retry.length < 32 ∧
    ((holdsQueue [entryAt 0 1 3 none] []).mchan 0).queue.find? (fun e => e.tag == 1) = some (entryAt 0 1 3 none) ∧
    (holdsQueue [] []).get (MEMCTL_AGE_LIMIT_ROUNDS 2) = 256 ∧ 0 + 256 * 1000 < (((holdsQueue [] []).wrN ROUND_COUNT 256).atNs 1).now ∧
    (((holdsQueue [] []).wrN ROUND_COUNT 256).atNs 0).now ≤ 0 + 256 * 1000 := by decide +kernel

/-- The channel and bank of an address (Memory Table 12.4): 0x0001_4900 gives 1 ⊕ 1 ⊕ 5 = 5. -/
theorem test_address_hash : memChannel 0x14900 = 5 ∧ memBank 0x14900 = 6 ∧ memChannel 0x1000001100 = 8 := by decide +kernel

/-- A write and the read that follows it (Memory R399, R403). -/
theorem test_read_after_write : goes (exec (.memRequest 1 .bulk 0x1008 (.write [9, 8, 7]) 0) up) (fun t =>
    goes (exec (.memRequest 2 (.fw 3) 0x1008 (.read 3) 1) t) (fun u => u.memc.answers == [(2, .data [9, 8, 7])])) = true := by decide +kernel

theorem witness_MemoryDataRefreshTrainingAndExpansion :
    ((holdsQueue [] [entryAt 0 1 3 none]).mchan 0).retry.find? (fun e => e.tag == 1) = some (entryAt 0 1 3 none) ∧
    ((holdsQueue [] [{ entryAt 0 1 3 none with reissued := true }]).mchan 0).retry.any (fun e => e.reissued && memRing e.by_ == none && !((holdsQueue [] [{ entryAt 0 1 3 none with reissued := true }]).mchan 0).rewrites e) = true ∧ up.poison.length < 1024 ∧
    fitted.dxFitted = true ∧ (fitted.mchan 8).retry.all (fun e => e.replays < 2) = true ∧
    ((fitted.setMchan 9 fun m => { m with retry := [{ entryAt 0x1000000100 1 3 none with replays := 2 }] }).mchan 9).retry.all (fun e => e.replays < 2) = false ∧
    up.dxFitted = false ∧ fitted.spineUp = true ∧ (lpUp 6 0 3).spineUp = true ∧ Safety.Lands .pf MEMCTL_DX_CTRL up ∧ Safety.Lands .pf MEMCTL_DX_CTRL fitted ∧ (lpUp 6 0 3).chanServes 3 = true ∧ (lpUp 6 0 3).trefi 3 = 3904 ∧ ((lpUp 7 0 3).mchan 3).accrued + 3904 ≤ ((lpUp 7 0 3).atNs 904).now ∧
    ((lpUp 7 0 3).atNs 903).now < ((lpUp 7 0 3).mchan 3).accrued + 3904 ∧ ((lpUp 0 0 100000).mchan 3).trained + 100000 ≤ (lpUp 0 0 100000).round ∧
    trainLane.ttRun = true ∧ nbit (trainLane.entryByte trainLane.round 2) 2 = true ∧ trainLane.memc.laneUsed = false ∧ 3 = trainLane.memc.trainNext ∧
    trainLane.round < (trainLane.mchan 3).trained + 100000 ∧ ((lpUp 0 0 8).putB ROUND_STATUS_TT_RUN true).ttRun = true ∧
    nbit (((lpUp 0 0 8).putB ROUND_STATUS_TT_RUN true).entryByte 8 2) 2 = false ∧ up.spineUp = true ∧ Req.pf.reachesRegs = true ∧
    up.on ROUND_CTRL_TT_ENABLE = false ∧ up.get MEMCTL_DX_STATUS_STATE = 0 ∧ fitted.get MEMCTL_DX_STATUS_STATE = 2 ∧
    dxRate 5600 (up.get MEMCTL_DX_CTRL_MAX_MTS) = some 5600 ∧ (up.put MEMCTL_DX_STATUS_STATE 1).get MEMCTL_DX_STATUS_STATE = 1 := by decide +kernel

/-! ### The fabric -/

/-- PD_FAB is ON; region 0 is column 0, and region 1 is column 18; region 1 is ACTIVE. -/
def pomar : State := (((((flying (envelope 11 (leBytes 8 0x10000 ++ leBytes 4 288 ++ [0])) .started).put (POWER_DOM_STATUS_STATE 19) 0).put (FABRIC_REGION_COUNT_COLUMNS 0) 1).put
  (FABRIC_REGION_FIRST_COLUMN 1) 18).put (FABRIC_REGION_COUNT_COLUMNS 1) 1).put (FABRIC_REGION_STATE_STATE 1) 2
/-- A header for column 0, and a record of frame 0. -/
def imageHead (frames crc : Nat) : Bytes :=
  let h := leBytes 4 0x42464F50 ++ [1, 0, 1, 0] ++ leBytes 4 frames ++ leBytes 4 0x231 ++ List.replicate 48 0 ++ leBytes 4 crc ++ List.replicate 56 0
  h ++ leBytes 4 (crc32c h)
def recordOf (far : Nat) : Bytes :=
  let r := leBytes 4 far ++ leBytes 4 0 ++ leBytes 324 0x01020304
  r ++ leBytes 4 (crc32c r)
def imaged : State := pomar.wrMem 0x10000 (imageHead 288 0)
/-- The engine is about to begin a load of one record. -/
def fabLoading (far : Nat) : State :=
  (((pomar.setRing 5 { flights := [{ seq := 0, env := envelope 11 (leBytes 8 0x10000 ++ leBytes 4 1 ++ [0]), stage := .started, fetchRound := 0, reserved := true }] }).wrMem 0x10000
    (imageHead 1 (crc32c (recordOf 0)))).wrMem 0x10080 (recordOf far)).setFab fun f => { f with loads := [⟨5, 0, 0, false, none, []⟩] }
def checked (n : Nat) : State := ((fabLoading 0).setFab fun f => { f with loads := [⟨5, 0, 0, false, some (0x231, 0), []⟩] }).wrN ROUND_COUNT n
/-- Frame 0x4800 of region 1 has a golden signature, of zeros. -/
def golden : State := pomar.setFab fun f => { f with golden := [(0x4800, some (frameCrc (List.replicate 81 0)))] }

theorem witness_FabricLoadsAreCheckedWrittenAndReleased : (match imaged.loadChecks 5 (envelope 11 (leBytes 8 0x10000 ++ leBytes 4 288 ++ [0])) with | .ok _ => true | .error _ => false) = true ∧
    (imaged.flight 5 0).any (fun f => f.stage == .started && Env.kind f.env == 11) = true ∧ imaged.fab.loads = [] ∧ imaged.dom 19 = 0 ∧ (imaged.regionPair 0).2 ≠ 0 ∧
    imaged.frameCount 0 = 288 ∧ (fabLoading 0).fab.loads.find? (fun l => l.image.isNone) = some ⟨5, 0, 0, false, none, []⟩ ∧ (fabLoading 0).fab.cmd = none ∧
    (fabLoading 0).preparing 19 = false ∧
    (match (fabLoading 0).loadOutcome ⟨5, 0, 0, false, none, []⟩ (envelope 11 (leBytes 8 0x10000 ++ leBytes 4 1 ++ [0])) none with | .ok x => x.2.1.length == 1 | .error _ => false) = true ∧
    (fabLoading 0x4800).recordsFault 0 none 0 none [recordOf 0x4800] = some (0x8B03, 0) ∧ (checked 1).round = 1 ∧ (checked 0).round ≤ 0 ∧
    ((pomar.setFab fun f => { f with faultDue := [(1, 0)] }).wrN ROUND_COUNT 1).regionState 1 = 2 ∧ pomar.fab.faultDue = [] ∧
    golden.cfgOn FABRIC_SCRUB_CTRL_ENABLE = true ∧ golden.domUp 19 = true ∧ golden.scrubbed.contains 0x4800 = true ∧ golden.regionAt (nbits 0x4800 15 10) = some 1 ∧
    some (frameCrc ((golden.setFrame 0x4800 (golden.frame 0x4800)).frame 0x4800)) = SMap.get (fun _ => none) golden.fab.golden 0x4800 ∧
    some (frameCrc ((golden.setFrame 0x4800 ((golden.frame 0x4800).modify 3 (· ^^^ 16))).frame 0x4800)) ≠ SMap.get (fun _ => none) golden.fab.golden 0x4800 ∧
    Req.pf.pfOrHost = true ∧ pomar.spineUp = true ∧ pomar.domUp 19 = true ∧ Safety.Lands .pf (FABRIC_REGION_CTRL 1) pomar ∧ imaged.frameCount 0 ≠ 287 ∧
    (fabLoading 0).engineBusy = false ∧ golden.engineBusy = false ∧ golden.fab.cmd = none ∧ golden.fab.upset.contains 0x4800 = false ∧ (checked 1).memWaits 5 0 = false := by decide +kernel

/-- The frame counts of the regions of the worked example of Fabric §4. -/
theorem test_frame_counts : ((pomar.put (FABRIC_REGION_FIRST_COLUMN 1) 26).put (FABRIC_REGION_COUNT_COLUMNS 1) 10).frameCount 1 = 3200 ∧
    (pomar.put (FABRIC_REGION_COUNT_COLUMNS 0) 26).frameCount 0 = 8128 ∧ farOk 0x2050 = true ∧ farOk 0x2014 = false ∧ farOk 0x9000 = false := by decide +kernel

theorem test_upset_holds_region : goes (exec (.fabricScrubRead 0x4800 [(3, 16)]) golden) (fun t => t.fab.faultDue == [(1, 0)] && t.on ERROR_STATUS_DEGRADED &&
    t.get (FABRIC_REGION_LAST_UPSET_FAR 1) == 0x4800) = true := by decide +kernel

theorem witness_FabricCommandsPortsAndClocks : Req.pf.pfOrHost = true ∧ pomar.domUp 19 = true ∧ pomar.spineUp = true ∧ pomar.holdOf .pf = none ∧ pomar.fab.cmd = none ∧ farOk 0x4800 = true ∧ pomar.regionAt (nbits 0x4800 15 10) = some 1 ∧ pomar.regionState 1 ≠ 1 ∧
    farOk 0x9000 = false ∧ (pomar.regionPair 1).2 ≠ 0 ∧ (pomar.setRegion 1 1).regionState 1 = 1 ∧ pomar.cfgOn FABRIC_SCRUB_CTRL_ENABLE = true ∧
    (pomar.putB FABRIC_SCRUB_CTRL_ENABLE false).cfgOn FABRIC_SCRUB_CTRL_ENABLE = false ∧ (pomar.setFab fun f => { f with cmd := some 0 }).fab.cmd ≠ none ∧
    pomar.region18 = some 1 ∧ pomar.cfgOn FABRIC_PORT_CFG_MESH_EN = false ∧ (pomar.putB FABRIC_PORT_CFG_MESH_EN true).cfgOn FABRIC_PORT_CFG_MESH_EN = true ∧
    pomar.fnCheck (pomar.cfg FABRIC_PORT_CFG_FUNCTION) 0x1000 8 = none ∧ inSram 0x1000 8 = false ∧ pomar.fnCheck 0 0x900000000 8 ≠ none ∧
    (pomar.setRegion 1 3).region18 = none ∧ pomar.region18 ≠ some 0 ∧
    (pomar.setFab fun f => { f with regs := [(1, 0, none)] }).fab.regs.any (fun x => x.1 == 1 && x.2.2.isNone) = true := by decide +kernel

/-! ### Power states -/

/-- The steward runs. Domains are OFF after reset (Bring-up Table 20.7), and domain 20 is as given. -/
def steward (k : Nat) : State := (up.put (FIRMWARE_PROC_STATE_STATE 2) 4).put (POWER_DOM_STATUS_STATE 20) k
def preq (k : Nat) : PReq := ⟨k, 7, false, false, false⟩
def withDom (s : State) (x : DomSt) : State := s.setPdom 20 fun _ => x

theorem witness_DomainRequestsStartWaitOrAreRefused : (steward 0).holdOf .pf = none ∧ (steward 0).pwrWriter .pf = true ∧ (steward 0).get POWER_DEV_STATUS_STATE = 0 ∧ (steward 0).fwRunning 2 = true ∧
    (steward 0).quiet = false ∧ (steward 0).pwr.dev = none ∧ (steward 0).pdom 20 = {} ∧ (steward 0).dom 20 = 0 ∧ (steward 1).dom 20 = 1 ∧ (steward 2).dom 20 = 2 ∧
    (steward 3).dom 20 = 3 ∧ (steward 0).warden 20 = false ∧ ((steward 0).wrN POWER_SEC_HOLD (2 ^ 20)).warden 20 = true ∧ Req.pf.secure = false ∧
    ((withDom (steward 0) { trans := some ⟨2, [.stop], 0, none, none⟩, pend := some (preq 3) }).pdom 20).trans ≠ none ∧
    ((withDom (steward 0) { pend := some (preq 3) }).pdom 20).pend = some (preq 3) ∧
    ((withDom (steward 0) { pend := some { preq 3 with secure := true } }).pdom 20).pend = some { preq 3 with secure := true } ∧ (steward 0).pwrWriter (.vf 3) = false := by
  decide +kernel

/-- TAG 0x0031 of a request for OFF that the warden defers: RESULT 3, domain 20. -/
theorem test_deferred_result : goes (exec (.domReqOff .pf 20 0x31) ((steward 0).wrN POWER_SEC_HOLD (2 ^ 20))) (fun t => t.rdN (POWER_DOM_RESULT 20) == 0x310314 && t.dom 20 == 0) = true := by
  decide +kernel

/-- A device request for WATCH, PARTIAL_OK or not, whose agents 20 and 17 are left. -/
def entering (p : Bool) : State := (steward 0).setPwr fun x => { x with dev := some { req := ⟨1, 0x31, false, p, false⟩, goals := [(20, 2), (17, 2)], todo := [20, 17] } }
def entering16 (p : Bool) : State := ((steward 0).put (POWER_DOM_STATUS_STATE 16) 0).setPwr fun x => { x with dev := some { req := ⟨1, 0x31, false, p, false⟩, goals := [(16, 2), (17, 2)], todo := [16, 17] } }
/-- PD_FAB is asked with a configuration command in progress, so that it refuses with REASON 6. -/
def fabBusy (p : Bool) : State := (((steward 0).put (POWER_DOM_STATUS_STATE 19) 0).setFab fun f => { f with cmd := some 0 }).setPwr fun x =>
  { x with dev := some { req := ⟨1, 0x31, false, p, false⟩, goals := [(19, 2), (17, 2)], todo := [19, 17] } }
/-- PD_HOST, which is ON, is prepared for RETAIN. -/
def hostPrep (n : Nat) : State := (((steward 0).put (POWER_DOM_STATUS_STATE 16) 0).setPdom 16 fun x => { x with prep := some (preq 2, 0) }).wrN ROUND_COUNT n

theorem witness_DeviceRequestsPrepareAndWake : (steward 0).holdOf .pf = none ∧ (steward 0).pwr.devPend = none ∧ (steward 0).heldFirst 1 = none ∧ (((steward 0).devGoals 1).filter fun g => g.2 != 0) ≠ [] ∧
    ((steward 0).put POWER_DEV_STATUS_STATE 1).get POWER_DEV_STATUS_STATE ≠ 0 ∧ ((steward 0).wrN POWER_SEC_HOLD (2 ^ 20)).heldFirst 1 = some 20 ∧
    ((steward 0).setPwr fun p => { p with devPend := some (preq 1) }).pwr.devPend = some (preq 1) ∧
    (entering false).agentAnswer 20 = some none ∧ ((entering false).pdom 20).prep = none ∧ (fabBusy false).agentAnswer 19 = some (some 6) ∧
    (fabBusy true).agentAnswer 19 = some (some 6) ∧ (entering16 false).agentAnswer 16 = none ∧
    ((withDom (steward 0) { prep := some (preq 2, 0) }).pdom 20).prep = some (preq 2, 0) ∧ (withDom (steward 0) { prep := some (preq 2, 0) }).agentAnswer 20 = some none ∧
    ((hostPrep 20000).pdom 16).prep = some (preq 2, 0) ∧ (hostPrep 20000).agentAnswer 16 = none ∧ 0 + max 1 ((hostPrep 20000).act POWER_PREP_LIMIT).toNat ≤ (hostPrep 20000).round ∧
    (hostPrep 19999).round < 0 + max 1 ((hostPrep 19999).act POWER_PREP_LIMIT).toNat ∧ nbit ((steward 0).cfg POWER_WAKE_MASK_SOURCE) 2 = false ∧
    nbit ((steward 0).cfg POWER_WAKE_MASK_SOURCE) 0 = true ∧ (steward 0).wakeGiven 0 = true := by decide +kernel

/-- The result of the first attempt of the worked example of Power states §5: PD_HOST refuses with REASON 5. -/
theorem test_refused_result : goes (exec (.hostAckRefuse .pf) (entering16 false)) (fun t => t.rdN POWER_DEV_RESULT == 0x00315110 && t.pwr.dev == none) = true := by decide +kernel

/-- The order of the agents of a HALT from RUN with domains 20, 0 and 16 ON: SPINE and WATCH are the last (Power states Table 14.10). -/
theorem test_halt_order : goes (exec (.devReqHalt .pf 1 false) (((steward 0).put (POWER_DOM_STATUS_STATE 0) 0).put (POWER_DOM_STATUS_STATE 16) 0)) (fun t =>
    t.pwr.dev.any fun j => j.todo == [20, 0, 16, 26, 25]) = true := by decide +kernel

def stepping (i : Fin 24) (k : Nat) (l : List PStep) : State := ((steward 3).put (POWER_DOM_STATUS_STATE i) k).setPdom i fun x => { x with trans := some { target := if l.contains .join then 0 else 2, todo := l, start := 0 } }
def bus (r : AvsBus) (n : Nat) : State := ((steward 3).setAvs 0 fun _ => r).wrN ROUND_COUNT n
def avsReq (k : Nat) : AvsReq := ⟨3, 500, 0, k⟩
/-- District 3 is ON at OP1 with its rail at `mv`, and the governor has ordered an operating point. -/
def ordered (dst mv : Nat) : State := ((((steward 3).put (POWER_DOM_STATUS_STATE 3) 0).put (FLOOR_DIST_STATE_OP 3) 1).put (POWER_GOV_STATE_OP 3) dst).put (POWER_DOM_STATUS_MV 3) mv

theorem witness_StepsVoltagesPadsAndHolds : (((stepping 20 0 [.clamp, .lower]).pdom 20).trans.any fun x => x.todo == [.clamp, .lower] && x.back == none) = true ∧
    16 < (20 : Fin 24).val ∧ ((stepping 3 0 [.lower]).put (POWER_DOM_STATUS_MV 3) 450).avsDone 3 (retainMv 3) = true ∧
    ((stepping 3 0 [.lower]).put (POWER_DOM_STATUS_MV 3) 550).avsDone 3 (retainMv 3) = false ∧ (((stepping 20 2 [.join]).pdom 20).trans.any fun x => x.target == 0) = true ∧
    ((stepping 20 0 []).pdom 20).trans.isSome = true ∧ up.fwRunning 2 = false ∧ ((withDom (steward 0) { idle := some (preq 1) }).pdom 20).idle = some (preq 1) ∧
    (steward 0).domWorks 20 = false ∧ ((steward 0).setUnit 16 (some { ring := none, owner := 0, d := 0, startRound := 0, startNs := 0, quantumEnd := 0 })).domWorks 17 = true ∧
    (steward 1).dom 20 = 1 ∧ (steward 0).on ERROR_STATUS_SAFE = false ∧ (steward 0).pstate 20 = 0 ∧ (steward 3).pstate 20 ≠ 0 ∧ Req.opantith.secure = true ∧
    (steward 0).pwrWriter .opantith = true ∧ ((bus { cur := some (avsReq 1) } 10).avs 0).cur = some (avsReq 1) ∧ ((bus {} 9).atNs 999).now < 0 + 10000 ∧
    0 + 10000 ≤ ((bus {} 10).atNs 0).now ∧ ((bus { settle := some (3, 0) } 8).avs 0).settle = some (3, 0) ∧ 0 + 8000 ≤ ((bus {} 8).atNs 0).now ∧
    ((bus {} 7).atNs 0).now < 0 + 8000 ∧ (ordered 2 620).distOp 3 < 2 ∧ (ordered 2 620).get (POWER_GOV_STATE_OP 3) = 2 ∧ (ordered 2 620).avsDone 3 (opMv 2) = true ∧
    ((ordered 2 620).pdom 3).opens = false ∧ (ordered 2 600).avsDone 3 (opMv 2) = false ∧ (ordered 0 550).domRuns 3 = false ∧ (ordered 2 620).domRuns 3 = false ∧ (ordered 0 550).get (POWER_GOV_STATE_OP 3) = 0 ∧
    ((ordered 0 550).setDunit 3 (some dunit0)).domRuns 3 = true ∧ (steward 0).holdOf .opantith = none ∧ (steward 0).holdOf .pf = none := by decide +kernel

/-- A rail steps 0.55 to 0.60 V, and the last step to 0.72 V is 20 mV (Power states §7). -/
theorem test_mv_steps : mvStep 550 720 = 600 ∧ mvStep 700 720 = 720 ∧ mvStep 620 450 = 570 ∧ wakeSteps 3 = [.close, .bringUp, .clocks, .init, .unclamp, .join] := by decide

/-! ### Power cap -/

def hotS (m r : Nat) (x : MonSt) : State := ((steward 0).setMon m fun _ => x).wrN ROUND_COUNT r

theorem witness_MonitorsSampleAlarmAndTrip : (steward 0).dom 0 = 3 ∧ ((steward 0).put (POWER_DOM_STATUS_STATE 0) 0).dom 0 = 0 ∧
    (steward 0).get (MONITOR_ALARM_HI_LEVEL 48) < 0x8000 ∧ ((steward 0).setMon 48 fun _ => { out := 3 }).mon 48 = { out := 3 } ∧
    ((steward 0).putB (MONITOR_ALARM_HI_EN 48) true).cfgOn (MONITOR_ALARM_HI_EN 48) = true ∧ (steward 0).cfgOn (MONITOR_ALARM_HI_EN 48) = false ∧
    ((steward 0).setMon 48 fun _ => { inn := 3, fired := true }).mon 48 = { inn := 3, fired := true } ∧
    tempOf 0xFE47 = -441 ∧ tempOf 1201 = 1201 ∧ ((steward 0).putB (MONITOR_TEMP_VALID 1) true).on (MONITOR_TEMP_VALID 1) = true ∧
    160 < tempOf 161 - tempOf ((steward 0).get (MONITOR_TEMP_READING 1)) ∧ ((steward 0).setMon 0 fun _ => { pair := 3 }).mon 0 = { pair := 3 } ∧
    (steward 0).on (MONITOR_TEMP_FAILED 0) = false ∧ tempOf 920 = 920 ∧ ((steward 0).setMon 0 fun _ => { trip := 1 }).mon 0 = { trip := 1 } ∧
    ((steward 0).putB (MONITOR_TEMP_FAILED 0) true).on (MONITOR_TEMP_FAILED 0) = true ∧ tempOf 1000 = 1000 ∧
    ((steward 0).setGov fun g => { g with hxpHot := 1 }).gov.hxpHot = 1 ∧ (steward 0).gov.hxpHot = 0 := by decide +kernel

/-- 115.0 degrees on a second sample trips the device; 114.9 does not. -/
theorem test_trip : goes (exec (.monitorSample 36 920) (hotS 36 5 { trip := 1 })) (fun t => t.on POWER_THERMAL_STATUS_TRIPPED && t.on ERROR_STATUS_ENTERING) = true ∧
    goes (exec (.monitorSample 36 919) (hotS 36 5 { trip := 1 })) (fun t => !t.on POWER_THERMAL_STATUS_TRIPPED && (t.mon 36).hot == some 5) = true := by decide +kernel

/-- The worked example of Power cap §4 at round 900,100: P 51,400 over B 47,000 lowers districts 10 to 14, of PRIO 1, from OP3 to OP2. -/
def capped : State :=
  let s := (List.range 10).foldl (fun s d => (s.wrN (POWER_GOV_LIMITS d) 0x02081100).put (POWER_GOV_STATE_OP d) 1) (steward 0)
  let s := [10, 11, 12, 13, 14].foldl (fun s d => (s.wrN (POWER_GOV_LIMITS d) 0x01083200).put (POWER_GOV_STATE_OP d) 3) s
  let s := (s.wrN POWER_MEDIA_GOV 0x03080008).put POWER_CAP_LIMIT_MW 50000
  let s := s.put FLOOR_EXPRESS_SEL_DISTRICT 15
  (s.wrN ROUND_COUNT 900100).setGov fun g => { g with sum := 99 * 52300, sumX := 99 * 900, settled := 99 }

theorem test_governor_lowers : goes (exec (.governorDecision [10, 11, 12, 13, 14] [0, 0, 0, 0]) capped) (fun t =>
    t.get (POWER_GOV_STATE_OP 10) == 2 && t.get (POWER_GOV_STATE_OP 14) == 2 && t.get (POWER_GOV_STATE_OP 0) == 1 && t.get POWER_HOST_GOV_LEVEL == 3 &&
      t.get POWER_CAP_STATUS_BUDGET_MW == 47000 && t.gov.settled == 0) = true := by decide +kernel

def floored : State := ((List.range 16).foldl (fun s d => (s.wrN (POWER_GOV_LIMITS d) 0x02083300)) capped).wrN POWER_HOST_GOV 0x03000303
def withP (mw : Nat) (s : State) : State := s.setGov fun g => { g with sum := 99 * mw, sumX := 0, settled := 99 }
/-- A unit of district 3 has waited in the period, and P is far below B. -/
def waitedFor : State := (withP 5000 floored).setGov fun g => { g with waited := [3] }
def throttledS (x : Throt) : State := ((steward 0).setThrot 2 fun _ => x).wrN ROUND_COUNT 2000

theorem witness_GovernorThrottleDroopAndEnergyActAsRuled : (capped.wrN ROUND_COUNT 900101).round % capped.govPeriod ≠ 0 ∧ (steward 0).gov.settled < 10 ∧
    (steward 0).round % (steward 0).govPeriod = 0 ∧ capped.fwRunning 2 = true ∧ capped.round % capped.govPeriod = 0 ∧ 10 ≤ capped.gov.settled ∧ capped.govB < capped.govP ∧
    (capped.govReady (capped.govDemand [])).lowerable 1 = [10, 11, 12, 13, 14] ∧ (capped.govReady (capped.govDemand [])).lowerable 0 = [] ∧
    ((List.range 18).all fun i => !(floored.govReady (floored.govDemand [])).aboveFloor i) = true ∧ floored.govB < floored.govP ∧
    (withP 5000 capped).govP ≤ (withP 5000 capped).govB ∧ ((List.range 4).all fun c => (((withP 5000 capped).govReady ((withP 5000 capped).govDemand [])).raisable ((withP 5000 capped).govDemand []) c).isEmpty) = true ∧
    (waitedFor.govDemand []) = [3] ∧ ((waitedFor.govReady [3]).putB POWER_CAP_STATUS_UNREACHABLE false).raisable [3] 2 = [3] ∧ waitedFor.govP ≤ waitedFor.govB ∧ 10 ≤ waitedFor.gov.settled ∧
    (withP 46800 capped).govB < (withP 46800 capped).govP + 4000 + (withP 46800 capped).get POWER_GOV_CTRL_HEADROOM_MW ∧
    (hotS 4 200 { hot := some 100, stepped := some 100 }).mon 4 = { hot := some 100, stepped := some 100 } ∧
    ((hotS 4 200 {}).putB (MONITOR_TEMP_VALID 4) true).on (MONITOR_TEMP_VALID 4) = true ∧
    (throttledS { op := 2, by_ := [4] }).throt 2 = { op := 2, by_ := [4] } ∧ ((throttledS { op := 0, duty := 4, by_ := [4] }).setMon 4 fun _ => { cool := some 900 }).mon 4 = { cool := some 900 } ∧
    ((steward 0).droop 3).since = none ∧ (((steward 0).setDroop 3 { since := some 7 }).droop 3).since = some 7 ∧
    Req.pf.pfOrHost = true ∧ (steward 0).holdOf .pf = none ∧ (steward 0).pwrWriter .pf = true ∧ (Req.vf 3).pfOrHost = false ∧ State.reset.fwRunning 2 = false ∧
    (⟨3, 5, some 4095, none⟩ : EnergyPart).wf = true := by decide +kernel

/-- Ratios of 1.1 and of 0.5 move a trim by 1/256 a time, the second down to its limit. -/
theorem test_trims : goes (exec (.trimUpdate (some 4506 :: some 2048 :: List.replicate 15 none)) ((steward 0).put (MONITOR_MODEL_TRIM_TRIM 1) 0xE04)) (fun t =>
    t.get (MONITOR_MODEL_TRIM_TRIM 0) == 0x1010 && t.get (MONITOR_MODEL_TRIM_TRIM 1) == 0xE00 && t.get (MONITOR_MODEL_TRIM_TRIM 2) == 0x1000) = true := by decide +kernel

/-! ### Trust -/

/-- A message of 256 bytes for function 18 with these fields (offset, bytes, value). -/
def msg (op len : Nat) (l : List (Nat × Nat × Nat)) : MbMsg :=
  ⟨18, l.foldl (fun b f => b.take f.1 ++ leBytes f.2.1 f.2.2 ++ b.drop (f.1 + f.2.1)) (leBytes 2 op ++ leBytes 2 len ++ List.replicate 252 0)⟩
def mail (m : MbMsg) (s : State) : State := s.setTrust fun t => { t with held := [(0, some m)] }
/-- A slot record of this state, in a memory that holds pair `p`. -/
def record (p sl seq st att : Nat) (m : SMap Byte) : SMap Byte :=
  romProgram m (recAddr p sl) (leBytes 4 0x53544C53 ++ leBytes 4 seq ++ leBytes 8 0 ++ leBytes 4 (crc32c (leBytes 4 0x53544C53 ++ leBytes 4 seq ++ leBytes 8 0)) ++ leBytes 1 st ++ leBytes 1 att)
def slots (stage : Nat) (fl nor : SMap Byte) : State := up.setTrust fun t => { t with stage := stage, flash := fl, nor := nor }

theorem witness_SecureStartChoosesVerifiesAndCounts : up.boot.supply = .up ∧ up.boot.resetLow = false ∧ up.trust.seals.length = 8 ∧ (slots 0 [] []).candidates 0 = [] ∧
    (slots 2 [] []).trust.stage = 2 ∧ (slots 0 (record 0 1 7 0xF0 0xFF []) []).candidates 0 = [1] ∧ (slots 0 (record 0 1 7 0xF0 0xFF []) []).slotSt 0 1 = .confirmed ∧
    imgVersion ((slots 0 (record 0 1 7 0xF0 0xFF []) []).slotHeader 0 1) = 2 ^ 32 - 1 ∧ ((slots 0 (record 0 1 7 0xF0 0xFF []) []).wrN (SECURE_COUNTER 0) (2 ^ 32 - 1)).counter 0 = 2 ^ 32 - 1 ∧
    (slots 1 [] []).trust.stage = 1 ∧ (slots 1 [] []).candidates 1 = [] ∧
    (slots 1 [] (record 1 0 7 0xF0 0xFF (record 1 1 8 0xFC 0xFF []))).candidates 1 = [1, 0] ∧ (slots 1 [] (record 1 1 8 0xFC 0xFF [])).slotSt 1 1 = .valid ∧
    (slots 1 [] (record 1 1 8 0xF8 0xF8 [])).slotSt 1 1 = .trial ∧ recAttempts ((slots 1 [] (record 1 1 8 0xF8 0xF8 [])).slotRec 1 1) = 3 ∧
    fieldLE ((slots 1 [] (record 1 1 8 0xFC 0xFF [])).slotRec 1 1) 0x15 1 = 0xFF := by
  repeat' apply And.intro
  all_goals decide +kernel

/-- Equal sequence numbers: slot A is taken first (Trust §11). -/
theorem test_equal_sequence : (slots 1 [] (record 1 0 7 0xF0 0xFF (record 1 1 7 0xFC 0xFF []))).candidates 1 = [0, 1] := by decide +kernel

theorem witness_MailboxAnswersQueriesAndExtendsSeals : up.holdOf .pf = none ∧ up.holdOf (.host true 0) = none ∧ up.path .pf = true ∧ up.path (.host true 0) = true ∧ (Req.host true 0).secure = true ∧ Req.pf.secure = false ∧ Req.pf.pfOrHost = true ∧
    up.on (SECURE_MB_STATUS_BUSY 0) = false ∧ (up.putB (SECURE_MB_STATUS_BUSY 1) true).on (SECURE_MB_STATUS_BUSY 1) = true ∧ up.trust.seals.length = 8 ∧ up.trust.log.length < 1024 ∧
    Safety.Held 0 (msg 1 8 []) 1 8 (mail (msg 1 8 []) up) ∧ Safety.Held 0 (msg 2 56 []) 2 56 (mail (msg 2 56 []) up) ∧ (msg 2 56 []).zero 0x29 7 = true ∧
    (up.wrN (SECURE_FUSE 4) 7).rdN (SECURE_FUSE 4) % 16 = 7 ∧ up.rdN (SECURE_FUSE 4) % 16 ≠ 7 ∧ up.fnCheck 18 0 4096 = none ∧
    Safety.Held 0 (msg 3 24 [(0x10, 4, 1000)]) 3 24 (mail (msg 3 24 [(0x10, 4, 1000)]) up) ∧ (msg 3 24 [(0x10, 4, 1000)]).f 0x10 4 = 1000 ∧
    (msg 3 24 [(0x10, 4, 1000)]).zero 0x14 4 = true ∧ up.trust.certGone = false ∧ up.fnCheck 18 0 1 = none ∧ Safety.Held 0 (msg 4 24 []) 4 24 (mail (msg 4 24 []) up) ∧
    Safety.Held 0 (msg 5 64 [(8, 1, 7)]) 5 64 (mail (msg 5 64 [(8, 1, 7)]) up) ∧ (msg 5 64 [(8, 1, 7)]).zero 9 7 = true ∧ (msg 5 64 [(8, 1, 7)]).f 8 1 = 7 ∧
    Safety.Held 1 (msg 5 64 [(8, 1, 3)]) 5 64 (up.setTrust fun t => { t with held := [(1, some (msg 5 64 [(8, 1, 3)]))] }) ∧
    Safety.Held 0 (msg 6 24 [(8, 8, 0x1000), (0x10, 1, 1)]) 6 24 (mail (msg 6 24 [(8, 8, 0x1000), (0x10, 1, 1)]) up) ∧ (msg 6 24 [(0x10, 1, 1)]).zero 0x11 7 = true ∧
    (up.fnRead 18 0x1000 0x1800).toBool = true ∧ Safety.Held 0 (msg 8 16 [(8, 1, 63), (0xC, 4, 13)]) 8 16 (mail (msg 8 16 [(8, 1, 63), (0xC, 4, 13)]) up) ∧
    (msg 8 16 [(8, 1, 63), (0xC, 4, 13)]).zero 9 3 = true ∧ up.worn = false ∧ (up.setTrust fun t => { t with writes := 100000 }).worn = true ∧ up.counter 63 ≤ 13 ∧
    13 < (up.wrN (SECURE_COUNTER 63) 14).counter 63 ∧ up.on ERROR_STATUS_SAFE = false ∧ (up.setErr fun z => { z with notify := some 5 }).err.notify = some 5 := by
  repeat' apply And.intro
  all_goals decide +kernel

/-- Mailbox 1 may extend seal 7 alone: its EXTEND of seal 3 is DENIED. -/
theorem test_extend_denied : goes (exec (.extend 1) (up.setTrust fun t => { t with held := [(1, some (msg 5 64 [(8, 1, 3), (4, 4, 0x51)]))] }))
    (fun t => t.rdN (SECURE_MB_STATUS 1) == 0x40000002 && t.rdN (SECURE_MB_RSP 1 0) == 0x00100005 && t.rdN (SECURE_MB_RSP 1 1) == 0x51 && t.rdN (SECURE_MB_RSP 1 2) == 2) = true := by
  decide +kernel

/-- A record whose image is the started slot's. -/
def trialB : State := ((slots 2 [] (record 1 0 7 0xF0 0xFF (record 1 1 8 0xF8 0xFE []))).setTrust fun t => { t with bootStage := some (1, 0) }).recSync

theorem witness_SlotsAndNorChangeOnlyAsAllowed : Safety.Held 0 (msg 9 16 [(8, 1, 1)]) 9 16 (mail (msg 9 16 [(8, 1, 1)]) trialB) ∧ (msg 9 16 [(8, 1, 1)]).zero 9 7 = true ∧
    (msg 9 16 [(8, 1, 1)]).f 8 1 = 1 ∧ trialB.started 1 = some 1 ∧ trialB.slotSt 1 1 = .trial ∧ trialB.worn = false ∧ up.started 1 = none ∧
    (slots 2 (record 0 0 7 0xF0 0xFF []) []).slotSt 0 0 = .confirmed ∧ ((slots 2 (record 0 0 7 0xF0 0xFF []) []).setTrust fun t => { t with runtime := some (0, 0) }).started 0 = some 0 ∧
    Safety.Held 0 (msg 0xA 16 [(8, 8, 0x1000)]) 0xA 16 (mail (msg 0xA 16 [(8, 8, 0x1000)]) up) ∧ (up.fnRead 18 0x1000 0x1800).toBool = true ∧
    Safety.Held 0 (msg 0xB 24 []) 0xB 24 (mail (msg 0xB 24 []) up) ∧ up.fnCheck 18 0 1 = none ∧
    Safety.Held 0 (msg 0xC 16 [(8, 4, 0x500000), (0xC, 4, 2)]) 0xC 16 (mail (msg 0xC 16 [(8, 4, 0x500000), (0xC, 4, 2)]) trialB) ∧
    trialB.meetsStarted 0x500000 0x20000 = false ∧ trialB.meetsStarted 0x300000 0x10000 = true ∧ (msg 0xC 16 [(8, 4, 0x500000)]).f 8 4 = 0x500000 ∧
    Safety.Held 0 (msg 0xD 24 [(8, 4, 0x500000), (0xC, 4, 256)]) 0xD 24 (mail (msg 0xD 24 [(8, 4, 0x500000), (0xC, 4, 256)]) trialB) ∧ (trialB.fnRead 18 0 256).toBool = true ∧
    trialB.programOk 0x500000 (List.replicate 256 0) = true ∧ trialB.programOk 0x300000 (List.replicate 256 0) = false := by
  repeat' apply And.intro
  all_goals decide +kernel

/-- The confirmation of the worked example of Trust §4: B CONFIRMED, A STALE. -/
theorem test_confirm : goes (exec .confirmSlot (mail (msg 9 16 [(8, 1, 1)]) trialB)) (fun t => t.slotSt 1 1 == .confirmed && t.slotSt 1 0 == .stale && t.rdN (SECURE_MB_STATUS 0) == 0x40000000) = true := by
  decide +kernel

/-- The GUARD_WRITE of the worked example of Trust §7: window 3 of bank 1 of C0. -/
def guardMsg : MbMsg := msg 0x10 144 [(4, 4, 0x51), (9, 1, 1), (0xC, 4, 0xF9), (0x28, 8, 0x8000000203840FA0)]

theorem test_guard_write : goes (exec .guardWrite (mail guardMsg up)) (fun t => t.rdN (CPORT_GUARD_WIN 0 1 3) == 0x8000000203840FA0 && t.rdN (CPORT_GUARD_PERIOD 0 1) == 0xF9 &&
    t.rdN (SECURE_MB_STATUS 0) == 0x40000000 && t.trust.log.length == up.trust.log.length + 1) = true := by decide +kernel

/-- A parcel is loaded under key slot 5, with bytes of it still to come. -/
def keyLoading : State := ((running 0).setFloor fun f => { f with runs := [{ runOn 0 with keySlot := some 5 }] }).setMemc fun m => { m with moves := [⟨some (5, 0), 2, 0, 64⟩] }

theorem witness_GuardKeysApprovalsAndFusesObeyTheRoot : up.trust.seals.length = 8 ∧ up.trust.log.length < 1024 ∧ Safety.Held 0 guardMsg 0x10 144 (mail guardMsg up) ∧ guardMsg.zero 0xA 2 = true ∧
    guardMsg.f 0xC 4 ≤ 0xFFFF ∧ guardMsg.f 8 1 = 0 ∧ guardMsg.f 9 1 = 1 ∧ (((List.range 16).map fun w => guardMsg.f (0x10 + 8 * w) 8).all winFields) = true ∧ up.guardBank 0 = 0 ∧
    up.on (CPORT_GUARD_CTRL_SWITCH_PENDING 0) = false ∧ (up.putB (CPORT_GUARD_CTRL_SWITCH_PENDING 0) true).on (CPORT_GUARD_CTRL_SWITCH_PENDING 0) = true ∧
    winsValid (0xF9 + 1) ((List.range 16).map fun w => guardMsg.f (0x10 + 8 * w) 8) = true ∧ winsValid (0xF9 + 1) [2 ^ 63 + 250 * 2 ^ 32 + 16] = false ∧
    Safety.Held 0 (msg 0x11 24 [(0x10, 8, 1009250)]) 0x11 24 (mail (msg 0x11 24 [(0x10, 8, 1009250)]) up) ∧ (msg 0x11 24 [(0x10, 8, 1009250)]).zero 9 7 = true ∧
    (up.putB ROUND_STATUS_TIME_VALID true).on ROUND_STATUS_TIME_VALID = true ∧ up.netRound + 10 ≤ 1009250 ∧ up.bankValid 0 1 = true ∧
    Safety.Held 0 (msg 0x12 16 [(9, 1, 1), (0xA, 1, 100)]) 0x12 16 (mail (msg 0x12 16 [(9, 1, 1), (0xA, 1, 100)]) up) ∧ (msg 0x12 16 [(9, 1, 1), (0xA, 1, 100)]).zero 0xB 5 = true ∧
    (msg 0x12 16 [(9, 1, 1)]).f 9 1 = 1 ∧ (up.putB ERROR_STATUS_SAFE true).on ERROR_STATUS_SAFE = true ∧ up.on ERROR_STATUS_SAFE = false ∧
    Safety.Held 0 (msg 0x20 48 [(8, 1, 5)]) 0x20 48 (mail (msg 0x20 48 [(8, 1, 5)]) up) ∧ (msg 0x20 48 [(8, 1, 5)]).zero 9 3 = true ∧ up.keyState 5 ≠ 1 ∧ (up.setKeyState 5 1).keyState 5 = 1 ∧
    (msg 0x20 48 [(8, 1, 5)]).f 8 1 = 5 ∧ Safety.Held 0 (msg 0x21 16 [(8, 1, 5)]) 0x21 16 (mail (msg 0x21 16 [(8, 1, 5)]) up) ∧ up.slotLoads 5 = false ∧
    Safety.Held 0 (msg 0x21 16 [(8, 1, 5)]) 0x21 16 (mail (msg 0x21 16 [(8, 1, 5)]) keyLoading) ∧ keyLoading.slotLoads 5 = true ∧ keyLoading.trust.seals.length = 8 ∧
    Safety.Held 0 (msg 0x22 24 [(8, 1, 7), (0x10, 8, 0x1000)]) 0x22 24 (mail (msg 0x22 24 [(8, 1, 7), (0x10, 8, 0x1000)]) up) ∧ (up.fnRead 18 0x1000 0x1800).toBool = true ∧
    Safety.Held 0 (msg 0x30 16 [(8, 8, 0x1000)]) 0x30 16 (mail (msg 0x30 16 [(8, 8, 0x1000)]) up) ∧ up.rdN (SECURE_FUSE 4) % 16 = 1 ∧ up.rdN (SECURE_FUSE 56) = 0 ∧ up.rdN (SECURE_FUSE 67) = 0 ∧
    Safety.Held 0 (msg 0x31 16 [(8, 8, 0x1000)]) 0x31 16 (mail (msg 0x31 16 [(8, 8, 0x1000)]) up) ∧ Safety.Held 0 (msg 0x32 16 [(8, 8, 0x1000)]) 0x32 16 (mail (msg 0x32 16 [(8, 8, 0x1000)]) up) ∧
    Safety.Held 0 (msg 0x33 16 [(8, 8, 0x1000)]) 0x33 16 (mail (msg 0x33 16 [(8, 8, 0x1000)]) up) := by
  repeat' apply And.intro
  all_goals decide +kernel

/-- A type-3 image at 0x1000, of the owner key, whose body is four zero bytes; the keys and signatures are zeros. The digests of the body and of the keys are
those that FIPS 180-4 gives. -/
def image : Bytes :=
  leBytes 4 0x4D474953 ++ [1, 3, 4, 0] ++ leBytes 4 13 ++ [0xFF, 0, 0, 0] ++ leBytes 4 4 ++ List.replicate 28 0 ++
    beBytes 48 0x394341b7182cd227c5c6b07ef8000cdfd86136c4292b8e576573ad7ed9ae41019f5818b4b971c9effc60e1ad9f1289f0 ++ List.replicate 0x17A0 0
def imageHeld : State :=
  let d := beBytes 48 0xbe0005c5dddcc5e30ecca6e9efd5c292127b72bc61e6c1da1e6064e1c8809c0c23985910077a6019364af087ce76f4fb
  ((List.range 12).foldl (fun s j => s.wrN (SECURE_FUSE (56 + j)) (fieldLE d (4 * j) 4)) (up.fuse 4 0x1000)).wrMem 0x1000 image

/-- An image that passes every check but the signatures is verified where both schemes hold, and only there (Trust R531). -/
theorem test_image_verified : imageHeld.imgHeader 3 (2 ^ 32) image = none ∧ imageHeld.imgKey 3 image = true ∧ imageHeld.imgFresh image = true ∧ image.length = 0x1800 := by
  repeat' apply And.intro
  all_goals decide +kernel

/-! ### Firmware -/

/-- Ring 5 has started an FW_LOAD with this TARGET; district 2 is ON, and the postmaster store is VALID. -/
def fwLoading (target opts len : Nat) : State :=
  ((flying (envelope 9 (leBytes 8 0x20000 ++ leBytes 4 len ++ leBytes 1 target ++ leBytes 1 opts)) .started).put (POWER_DOM_STATUS_STATE 2) 0).putB FIRMWARE_PM_STORE_VALID true
def errOf (x : Except (State × Nat × Nat) Bytes) : Nat := match x with
  | .error e => e.2.1
  | .ok _ => 0
def procIs (p k : Nat) : State := up.put (FIRMWARE_PROC_STATE_STATE p) k
def fwLoad1 : FwLoad := { ring := 5, seq := 0, target := 1, options := 0, header := [0], starts := [1] }
def logging (tail : Nat) : State := ((ringUp.put (FIRMWARE_PROC_STATE_STATE 3) 4).putB FIRMWARE_LEDGER_CFG_EN true).wrN FIRMWARE_LEDGER_TAIL tail

theorem witness_ProcessorsLoadStartHaltAndLog :
    ((fwLoading 1 0 0).flight 5 0).any (fun f => f.stage == .started && Env.kind f.env == 9 && fieldLE f.env 0x24 1 == 1) = true ∧ (fwLoading 1 0 0).trust.seals.length = 8 ∧
    (fwLoading 1 0 0).fw.loads.find? (fun l => l.ring == 5 && l.seq == 0) = none ∧ (fwLoading 1 0 0).get (FIRMWARE_PROC_STATE_STATE 1) < 2 ∧
    ((fwLoading 5 0 0).flight 5 0).any (fun f => fieldLE f.env 0x24 1 == 5) = true ∧ (fwLoading 5 0 0).get (FIRMWARE_PROC_STATE_STATE 5) < 2 ∧
    ((fwLoading 19 0 0).flight 5 0).any (fun f => fieldLE f.env 0x24 1 == 19) = true ∧
    ((List.range 16).all fun d => !(fwLoading 19 0 0).domUp d || decide ((fwLoading 19 0 0).get (FIRMWARE_PROC_STATE_STATE (3 + d)) < 2)) = true ∧
    ((fwLoading 1 0 0).setFw fun f => { f with loads := [fwLoad1] }).fw.loads.find? (fun l => l.ring == 5 && l.seq == 0) = some fwLoad1 ∧ fwLoad1.header ≠ [] ∧
    up.holdOf .pf = none ∧ up.holdOf (.vf 3) = none ∧ up.holdOf (.host true 0) = none ∧
    (procIs 3 3).get (FIRMWARE_PROC_STATE_STATE 3) = 3 ∧ (procIs 3 1).get (FIRMWARE_PROC_STATE_STATE 3) < 3 ∧
    SMap.get (fun _ => none) ((procIs 3 3).setFw fun f => { f with released := [(3, some 5)] }).fw.released 3 = some 5 ∧ up.readyLimit = 100000 ∧
    Req.pf.pfOrHost = true ∧ up.spineUp = true ∧ Req.pf.secure = false ∧ (Req.host true 0).secure = true ∧ (Req.vf 3).pfOrHost = false ∧
    ((procIs 3 4).put (FIRMWARE_PROC_CTRL_WDOG_ROUNDS 3) 10).get (FIRMWARE_PROC_CTRL_WDOG_ROUNDS 3) = 10 ∧ (up.wrN ROUND_COUNT 11).round = 11 ∧
    SMap.get (fun _ => 0) up.fw.kick 3 = 0 ∧ (logging 0).cfgOn FIRMWARE_LEDGER_CFG_EN = true ∧ 2 ≤ (logging 0).cfg FIRMWARE_LEDGER_CFG_LEVEL ∧ (logging 0).ledgerRun = 0 ∧
    1 ≤ (logging 0).ledgerFree ∧ (logging (2 ^ 32 - 4096)).ledgerFree = 0 ∧ up.cfgOn FIRMWARE_LEDGER_CFG_EN = false ∧
    cdiff 0 ((logging 0).rdN FIRMWARE_LEDGER_TAIL) ≤ cdiff ((logging 0).rdN FIRMWARE_LEDGER_HEAD) ((logging 0).rdN FIRMWARE_LEDGER_TAIL) ∧
    ¬(cdiff 1 ((logging 0).rdN FIRMWARE_LEDGER_TAIL) ≤ cdiff ((logging 0).rdN FIRMWARE_LEDGER_HEAD) ((logging 0).rdN FIRMWARE_LEDGER_TAIL)) := by
  repeat' apply And.intro
  all_goals decide +kernel

/-- FW_LOAD of a postmaster from the store: it is STARTING; a load whose LEN is not 6 KiB and its body is FW_BAD_IMAGE, and the target is untouched. -/
theorem test_fw_load : goes (exec (.fwRestartPostmaster 5 0) (fwLoading 5 0 0)) (fun t => t.get (FIRMWARE_PROC_STATE_STATE 5) == 3 && t.rdN (FIRMWARE_PROC_STARTS 5) == 1) = true ∧
    goes (exec (.fwLoadProcessor 5 0) (fwLoading 1 0 0)) (fun t => t.get (RINGS_STATUS_LAST_FAIL 5) == 0x8904 && t.get (FIRMWARE_PROC_STATE_STATE 1) == 1) = true ∧
    goes (exec (.fwRestartPostmaster 5 0) (fwLoading 6 0 0)) (fun t => t.get (RINGS_STATUS_LAST_FAIL 5) == 0x8905) = true := by
  repeat' apply And.intro
  all_goals decide +kernel

/-- Two log messages: the entries of Firmware Table 17.5, at the base and 32 bytes on. -/
theorem test_ledger : goes (exec (.ledgerEntry 3 false 0x123 1 7 8 9 250) (logging 0)) (fun t => t.byte 0x0E == 3 && t.byte 0x0F == 0x80 && t.byte 0x10 == 0x23 && t.byte 0x0C == 250 &&
    t.byte 0x18 == 8 && t.rdN FIRMWARE_LEDGER_HEAD == 1) = true := by decide +kernel

/-! ### Errors and the safe state -/

def rec5 : ErrRec := { slot := 0, seq := 5, code := Code.MEM_UNCORRECTABLE, cls := 1, round := 1 }
def rec6 : ErrRec := { slot := 1, seq := 6, code := Code.FABRIC_UPSET, cls := 2, round := 2 }
def rec7 : ErrRec := { slot := 2, seq := 7, code := Code.CAM_FRAME_DROP, cls := 0, round := 2 }
/-- Three records; 6 is current. -/
def recorded : State := up.setErr fun z => { z with recs := [rec5, rec6, rec7], cur := some 6 }
def fatalEntry (e : SafeEntry) : State := ringUp.setErr fun z => { z with entry := some e }
def safe : State := up.putB ERROR_STATUS_SAFE true
/-- District 3 is on its way to RETAIN, and a voltage request of its rail is in flight. -/
def midway : State := ((up.put (POWER_DOM_STATUS_STATE 3) 0).setPdom 3 fun x => { x with trans := some { target := 2, todo := [.lower], start := 0 } }).setAvs 0 fun x => { x with cur := some ⟨3, 500, 0, 1⟩ }

theorem witness_AckRetiresTheCurrentRecord : recorded.path .pf = true ∧ Req.writesErrors .pf = true ∧ recorded.err.cur = some 6 ∧
    goes (exec (.ack .pf 6) recorded) (fun t => t.err.cur == some 5 && t.err.recs == [rec5, rec7]) = true ∧ up.err.cur ≠ some 0 := by decide +kernel

theorem witness_SafeStateIsEnteredHeldAndLeft : up.on ERROR_STATUS_SAFE = false ∧ up.path .pf = true ∧ Req.pf.secure = false ∧ up.path .opantith = true ∧ Req.opantith.secure = true ∧
    up.err.recs.length < 256 ∧ errClass 0xF001 ≠ none ∧ errClass 0xFFFF = none ∧ errClass Code.GUARD_DISAGREE = some .fatal ∧ errClass Code.CAM_FRAME_DROP = some .note ∧
    errClass Code.MEM_UNCORRECTABLE = some .contained ∧ up.err.entry = none ∧
    (fatalEntry ⟨Code.SAFE_REQUESTED, 3, 200, false⟩).err.entry = some ⟨Code.SAFE_REQUESTED, 3, 200, false⟩ ∧ Req.writesErrors .pf = true ∧
    (up.setErr fun z => { z with badRun := 9 }).err.badRun = 9 ∧ up.err.badRun ≠ 9 ∧ (fatalEntry ⟨Code.SAFE_REQUESTED, 0, 0, true⟩).ringState 5 = 1 ∧
    ((fatalEntry ⟨Code.SAFE_REQUESTED, 0, 0, true⟩).ring 5).flights = [] ∧ ((fatalEntry ⟨Code.SAFE_REQUESTED, 0, 0, true⟩).ring 5).disabling = false ∧
    [0xA00D, 0x7007, 0x0108].contains Code.SAFE_REQUESTED = false ∧ up.round < 3 + 200 ∧ 0 + 0 ≤ up.round ∧
    nbit (up.rdN POWER_SEC_HOLD) 16 = false ∧ nbit ((up.wrN POWER_SEC_HOLD (2 ^ 16)).rdN POWER_SEC_HOLD) 16 = true ∧ up.err.thermal = false ∧
    (up.setErr fun z => { z with thermal := true }).err.thermal = true ∧ up.pwr.spine = 0 ∧
    up.holdOf .pf = none ∧ up.holdOf .opantith = none ∧ safe.holdOf .pf = none ∧ safe.path .pf = true ∧ (fatalEntry ⟨Code.SAFE_REQUESTED, 0, 0, true⟩).rnd.sigs = [] ∧
    Req.mayExit .pf = true ∧ Req.mayExit (.vf 3) = false ∧ safe.on ERROR_STATUS_SAFE = true ∧ safe.err.exitTest = none ∧ safe.err.exitAccepted = none ∧ safe.tooHot = false ∧ safe.err.windows = [] ∧
    ((up.setErr fun z => { z with thermal := true }).putB POWER_THERMAL_STATUS_TRIPPED true).exitBar ≠ 1 ∧
    ((safe.setErr fun z => { z with thermal := true, tripped := true }).put MONITOR_HXP_TEMP_TEMP 841).tooHot = true ∧
    true ∈ (safe.setErr fun z => { z with windows := [true] }).err.windows ∧ (safe.setErr fun z => { z with exitAccepted := some 0 }).err.exitAccepted = some 0 ∧
    safe.midStep = [] ∧ up.midStep = [] ∧ midway.midStep = [3] ∧ midway.dom 3 = 0 ∧
    (safe.wrN ROUND_COUNT 1).round = 1 ∧ (safe.setErr fun z => { z with recs := [{ slot := 0, seq := 0, code := Code.THERMAL_TRIP, cls := 3, round := 0 }] }).exitBar = 1 := by
  repeat' apply And.intro
  all_goals decide +kernel

/-- The worked example: 502 (DEGRADED) takes the place of 500 (CONTAINED), which is marked PREEMPTED. -/
theorem test_preempt : goes (exec (.inject .opantith Code.FABRIC_UPSET) (((up.setErr fun z => { z with recs := [rec5], cur := some 5 }).wrN ERROR_SEQ_NEXT 6)))
    (fun t => t.err.cur == some 6 && t.err.recs.map (fun r => (r.seq, r.preempted)) == [(5, true), (6, false)] && t.get ERROR_STATUS_CUR_CLASS == 2 && t.get ERROR_STATUS_QUEUED == 2) = true := by
  decide +kernel

/-- The safe state: ring 5 is STOPPED, both guards are SILENT, every switched domain is OFF. -/
theorem test_safe_reached : goes (exec (.safeStateReached 0) ((fatalEntry ⟨Code.SAFE_REQUESTED, 0, 0, true⟩).put (POWER_DOM_STATUS_STATE 19) 0)) (fun t => t.on ERROR_STATUS_SAFE && t.ringState 5 == 3 &&
    t.on (CPORT_GUARD_CTRL_SILENT 1) && t.dom 19 == 3 && nbit (t.rdN POWER_PAD_HOLD) 4 && t.rdN ERROR_SAFE_COUNT == 1) = true := by decide +kernel

/-- An exit with a FATAL record queued is refused with condition 1; one that is accepted resets the domains and leaves the guards SILENT. -/
theorem test_exit : goes (exec (.safeExit .pf false) (safe.setErr fun z => { z with recs := [{ slot := 0, seq := 0, code := Code.THERMAL_TRIP, cls := 3, round := 0 }] }))
      (fun t => t.get ERROR_SAFE_STATUS_REFUSE == 1 && t.on ERROR_STATUS_SAFE) = true ∧
    goes (exec .safeExitApply ((safe.setErr fun z => { z with exitAccepted := some 0 }).wrN ROUND_COUNT 1))
      (fun t => !t.on ERROR_STATUS_SAFE && t.on (CPORT_GUARD_CTRL_SILENT 0) && t.dom 16 == 3) = true := by
  repeat' apply And.intro
  all_goals decide +kernel

/-- A domain whose step was in progress stays as it is in the safe state, and goes OFF when its voltage has settled (R602). -/
theorem test_step_ends_then_off : goes (exec (.safeStateReached 0) (midway.setErr fun z => { z with entry := some ⟨Code.SAFE_REQUESTED, 0, 0, true⟩ })) (fun t => t.dom 3 == 0 && (t.pdom 3).opens) = true ∧
    goes (exec (.avsSettle 0 0) (((midway.setPdom 3 fun _ => { opens := true }).setAvs 0 fun _ => { settle := some (3, 0) }).wrN ROUND_COUNT 8)) (fun t => t.dom 3 == 3 && !(t.pdom 3).opens) = true := by
  decide +kernel

/-! ### Links -/

def linkUp : State := (ringUp.put (POWER_DOM_STATUS_STATE 21) 0).putB GLOBAL_PCIE_STATUS_LINK_UP true
/-- A unit runs on district 0, whose store the window of function 0 reaches through WINDOW 8. -/
def heldLink : State := (((linkUp.put (POWER_DOM_STATUS_STATE 0) 0).put GLOBAL_BAR4_SEL_WINDOW 8).put (GLOBAL_FN_WIN_LIMIT_LIMIT 0) 0xFFFFFFF).setDunit 0 (some dunit0)
/-- Port N0 is up; receive queue 0 has 64 descriptors at 0x10000, one posted with a 64-byte buffer at 0x20000; transmit queue 1 as well, with a frame
of 60 bytes. -/
def plant : State := (((((((((((linkUp.put (POWER_DOM_STATUS_STATE 23) 0).putB (PLANT_PORT_CFG_ENABLE 0) true).putB (PLANT_STATUS_LINK 0) true).wrN (PLANT_MAC_ADDR 0) 0x0102030405).putB
  (PLANT_RXQ_CFG_EN 0 0) true).put (PLANT_RXQ_BASE_ADDR 0 0) 0x10).wrN (PLANT_RXQ_TAIL 0 0) 1).putB (PLANT_TXQ_CFG_EN 0 1) true).put (PLANT_TXQ_BASE_ADDR 0 1) 0x11).wrN
  (PLANT_TXQ_TAIL 0 1) 1).wrMem 0x10000 (leBytes 8 0x20000 ++ leBytes 8 64)).wrMem 0x11000 (leBytes 8 0x30000 ++ leBytes 8 60)
/-- A frame to 00:01:02:03:04:05 of 70 octets. -/
def frame : Bytes := [0, 1, 2, 3, 4, 5] ++ List.replicate 64 7

theorem witness_HostAndPlantLinksActAsRuled : linkUp.spineUp = true ∧ linkUp.domUp 21 = true ∧ up.domUp 22 = false ∧ linkUp.get GLOBAL_BAR4_SEL_WINDOW = 0 ∧ (linkUp.put GLOBAL_BAR4_SEL_WINDOW 2).get GLOBAL_BAR4_SEL_WINDOW = 2 ∧
    linkUp.fnCheck 0 0 4 = none ∧ (linkUp.fnCheck 0 0xFFFF000000 4).isSome = true ∧ linkUp.sealedAny 0 4 = false ∧ linkUp.heldBy' 0 = none ∧ linkUp.holdOf .pf = none ∧
    heldLink.heldBy' 0x8000000000 = some 0 ∧ heldLink.fnCheck 0 0x8000000000 4 = none ∧ heldLink.sealedAny 0x8000000000 4 = false ∧ inSram 0x8000000000 4 = true ∧
    nbit ((linkUp.put POWER_WAKE_MASK_SOURCE 2).cfg POWER_WAKE_MASK_SOURCE) 1 = true ∧ linkUp.get POWER_DEV_STATUS_STATE = 0 ∧ linkUp.pwr.dev = none ∧
    (linkUp.liveRings.all fun r => (linkUp.ring r).flights == []) = true ∧ linkUp.ringState 5 ≠ 0 ∧ linkUp.ringFn 5 ≤ 16 ∧ linkUp.links.perst = true ∧
    (linkUp.setLinks fun l => { l with perst := false }).links.perst = false ∧ linkUp.on GLOBAL_PCIE_STATUS_LINK_UP = true ∧ up.on GLOBAL_PCIE_STATUS_LINK_UP = false ∧
    (linkUp.pdom 21).trans = none ∧ (linkUp.get GLOBAL_PCIE_CTRL_MAX_GEN) = 5 ∧ linkUp.on FIRMWARE_LEDGER_CFG_EN = false ∧ (logging 0).on FIRMWARE_LEDGER_CFG_EN = true ∧
    ((flying (envelope 0 []) .fetched).flight 5 0).any (fun x => x.stage == .fetched) = true ∧ ((flying (envelope 0 []) .started).flight 5 0).any (fun x => x.stage == .started) = true ∧
    (flying (envelope 0 []) .started).runSt 5 0 = none ∧ plant.plantUp 0 = true ∧ 60 ≤ frame.length ∧ frame.length ≤ plant.plantMax 0 ∧ beNat ((frame.drop 12).take 2) ≠ 0x8808 ∧
    plant.plantQueue 0 frame = some 0 ∧ plant.plantQueue 0 (List.replicate 64 9) = none ∧ plant.qPosted (PLANT_RXQ_BASE 0 0) = true ∧ plant.qPosted (PLANT_RXQ_BASE 0 1) = false ∧
    (plant.addrRead 0 (plant.qDesc (PLANT_RXQ_BASE 0 0)) 16).toOption.any (fun d => decide (1 ≤ fieldLE d 8 2)) = true ∧ plant.on (PLANT_RXQ_RECEIPT_EN 0 0) = false ∧
    plant.nextTx 0 = some 1 ∧ linkUp.nextTx 0 = none ∧ (plant.addrRead 0 (plant.qDesc (PLANT_TXQ_BASE 0 1)) 16).toOption.any (fun d => fieldLE d 8 2 == 60) = true ∧
    plant.domUp 23 = true ∧ cdiff 64 (plant.rdN (PLANT_TXQ_BASE 0 1 + 0x10)) ≤ plant.qSize (PLANT_TXQ_BASE 0 1) ∧ plant.qSize (PLANT_TXQ_BASE 0 1) < cdiff 65 (plant.rdN (PLANT_TXQ_BASE 0 1 + 0x10)) ∧
    plant.on (PLANT_STATUS_LINK 0) = true ∧ plant.on (PLANT_STATUS_LINK 1) = false ∧
    (plant.cfgOn (PLANT_PORT_CFG_ENABLE 0) && nbit (plant.cfg (PLANT_PORT_CFG_ADV 0)) 2) = true := by
  repeat' apply And.intro
  all_goals decide +kernel

/-- A frame longer than its buffer: 64 bytes are written, with LEN 70, DONE and TRUNC. -/
theorem test_plant_receive : goes (exec (.plantFrameReceive 0 frame true) plant) (fun t => t.byte 0x20005 == 5 && t.byte 0x2003F == 7 && t.byte 0x20040 == 0 && t.byte 0x10008 == 70 &&
    t.byte 0x1000A == 2 && t.byte 0x1000B == 0x80 && t.rdN (PLANT_RXQ_HEAD 0 0) == 1) = true := by decide +kernel

theorem test_plant_transmit : goes (exec (.plantFrameTransmit 0) plant) (fun t => t.links.sent == [(0, List.replicate 60 0)] && t.byte 0x1100B == 0x80 && t.rdN (PLANT_TXQ_HEAD 0 1) == 1) = true := by
  decide +kernel

/-- BAR4 through WINDOW 2 reaches nothing. -/
theorem test_bar4 : goes (exec (.bar4Access 0x10 4 none) (linkUp.put GLOBAL_BAR4_SEL_WINDOW 2)) (fun t => t.links.bar4 == [.refused] && t.rdN MEMCTL_UNPOP_LAST == 0x2000000010) = true := by
  decide +kernel

/-- The worked example of Links §7 on module 1 of two: the last WRITE of a halo tile, with ARRIVE and counter 5. -/
def relayUp : State := ((((up.put (POWER_DOM_STATUS_STATE 22) 0).put (POWER_DOM_STATUS_STATE 3) 0).wrN RELAY_CFG 0x80000221).put RELAY_STATUS_STATE 2).put RELAY_STATUS_PATH 1
def pkt (type flags addr : Nat) (b : Bytes) : RelayIn := ⟨1, 0, flags, 0, 0x0102, addr, b, crcOfOctets (relayOctets type 1 0 flags 0 0x0102 addr b)⟩
def withOp (signal : Bool) (kind : Nat) : State := (((flying (envelope kind []) .started).put (POWER_DOM_STATUS_STATE 22) 0).put RELAY_STATUS_STATE 2).setRelay fun r =>
  { r with ops := [⟨0x0102, 5, 0, 0, signal⟩] }
def op0 (type : Nat) : RelayIn := ⟨0, 1, 0, 0, 0x0102, 0, [], crcOfOctets (relayOctets type 0 1 0 0 0x0102 0 [])⟩
def banked : State := ((relayUp.put (RINGS_RECEIPT_BANK_OWNER_FUNCTION 9) 19).wrN (RELAY_MIRROR 9) (2 ^ 31 + 2)).putB RINGS_RECEIPT_BASE_EN true

theorem witness_RelayLinkTrainsCarriesAndSignals : relayUp.get RELAY_STATUS_STATE = 2 ∧ relayUp.domUp 22 = true ∧ Req.pf.pfOrHost = true ∧ up.spineUp = true ∧
    (up.put (POWER_DOM_STATUS_STATE 22) 0).domUp 22 = true ∧ nbit (2 ^ 31 + 0x21) 31 = true ∧ (up.put (POWER_DOM_STATUS_STATE 22) 0).on RELAY_CFG_ENABLE = false ∧
    (relayUp.put RELAY_STATUS_STATE 1).get RELAY_STATUS_STATE = 1 ∧ relayUp.relaySize = 2 ∧ (0 + 1) % relayUp.relaySize = relayUp.get RELAY_CFG_MODULE % relayUp.relaySize ∧
    relayUp.on RELAY_CFG_ENABLE = true ∧ (relayUp.put RELAY_STATUS_STATE 4).get RELAY_STATUS_STATE = 4 ∧ relayGood 1 (pkt 1 0 0 []) = true ∧ relayGood 2 (pkt 1 0 0 []) = false ∧ (pkt 1 0 0 []).dst = relayUp.get RELAY_CFG_MODULE ∧
    ([2, 3, 5, 6].all fun k => relayGood k (op0 k)) = true ∧
    (op0 2).dst ≠ relayUp.get RELAY_CFG_MODULE ∧ relayUp.relay.refused.contains ((pkt 1 0 0 []).src, (pkt 1 0 0 []).tag) = false ∧ nbit (relayUp.get RELAY_STATUS_PATH) 0 = true ∧
    3 ≠ relayUp.expressDistrict ∧ relayUp.dom 3 = 0 ∧ relayUp.poison = [] ∧ relayUp.floor.flips = [] ∧ relayUp.cfgOn RINGS_RECEIPT_BASE_EN = false ∧ up.holdOf .pf = none ∧
    ((relayUp.putB RELAY_IN_BASE_EN true).put RELAY_IN_LIMIT_LIMIT 0xFFFF).relayDram 0x1000 16 = true ∧ relayUp.relayDram 0x1000 16 = false ∧ relayUp.relayCache 0x1000 16 = none ∧
    ((relayUp.putB RELAY_IN_BASE_EN true).put RELAY_IN_LIMIT_LIMIT 0xFFFF).devCheck false 0x1000 16 = none ∧
    (withOp false 2).relayOp 0x0102 false = some ⟨0x0102, 5, 0, 0, false⟩ ∧ ((withOp false 2).flight 5 0).any (fun f => f.stage == .started && Env.kind f.env == 2) = true ∧
    (withOp false 2).runSt 5 0 = none ∧ (withOp true 4).relayOp 0x0102 true = some ⟨0x0102, 5, 0, 0, true⟩ ∧ (op0 2).dst = (withOp true 4).get RELAY_CFG_MODULE ∧ (withOp false 2).memWaits 5 0 = false ∧ (copyItems (envelope 2 [])).length ≤ 0 ∧
    banked.bankOwner 73730 = 19 ∧ banked.bankOwner 2 ≠ 19 ∧ banked.cfgOn RINGS_RECEIPT_BASE_EN = true ∧ banked.cfgOn (RELAY_MIRROR_EN 9) = true ∧ banked.cfg (RELAY_MIRROR_BANK 9) ≠ 9 ∧
    (banked.wrN (RELAY_MIRROR 9) 0).cfgOn (RELAY_MIRROR_EN 9) = false ∧ banked.rnd.sigs = [] ∧ relayUp.relay.wait = [] ∧
    (relayUp.setRelay fun r => { r with wait := [(true, ⟨1, 0, 1, 0, 0, 0, 0, []⟩)] }).relay.wait = [(true, ⟨1, 0, 1, 0, 0, 0, 0, []⟩)] ∧
    (relayUp.setRelay fun r => { r with replay := [(⟨1, 0, 1, 0, 0, 0, 0, []⟩, 2)] }).relay.replay = [(⟨1, 0, 1, 0, 0, 0, 0, []⟩, 2)] := by
  repeat' apply And.intro
  all_goals decide +kernel

theorem test_relay_write : goes (exec (.write (pkt 1 0xC5 0x8020E00000 (List.replicate 16 9))) relayUp) (fun t => t.byte 0x8020E0000F == 9 && t.byte 0x8020E00010 == 0 &&
    t.rdN (FLOOR_ARRIVE_CNT 3 5) == 1 && t.relay.sent.map (fun k => (k.type, k.dst, k.tag)) == [(7, 0, 0), (2, 0, 0x0102)]) = true := by decide +kernel

/-- The worked example of Links §8: receipt 73,730 becomes 17, and its mirror 16,386 too, and SACK is sent. -/
theorem test_relay_signal : goes (exec (.signalPacket (pkt 4 0x20 73730 (List.replicate 7 0 ++ [17] ++ List.replicate 8 0))) banked) (fun t => t.receipt 73730 == 17 && t.receipt 16386 == 17 &&
    t.relay.sent.map (fun k => k.type) == [7, 5]) = true := by decide +kernel

/-! ### Bring-up -/

def supplied (k : Supply) : State := up.setBoot fun b => { b with supply := k }
def noBoot : State := up.put SECURE_STATUS_BOOT_STATE 2

theorem witness_SupplyAndSysResetCausePowerOnResets : (supplied .off).boot.supply = .off ∧ (supplied .locked).boot.supply = .locked ∧ (supplied .rising).boot.supply = .rising ∧
    up.boot.supply = .up ∧ up.boot.resetLow = false ∧ (up.setBoot fun b => { b with resetLow := true }).boot.resetLow = true ∧
    up.memc.dxVin = false ∧ (up.setMemc fun m => { m with dxVin := true }).memc.dxVin = true ∧ up.boot.auxOff.contains 0 = false ∧ up.on GLOBAL_BOOT_STATUS_SPINE_UP = true ∧
    up.on GLOBAL_BOOT_STATUS_LP_TRAINED = false ∧ up.boot.lpTries < 3 ∧ (up.setBoot fun b => { b with lpTries := 2 }).boot.lpTries = 2 ∧
    (up.setTrust fun t => { t with runtime := some (0, 1) }).trust.runtime.isSome = true := by
  repeat' apply And.intro
  all_goals decide +kernel

/-- A dip to 8.5 V for 15 µs does nothing; for 25 µs it is a brown-out, with every rail off (Electrical §9). -/
theorem test_dip : goes (exec (.brownOut 8500 15000) up) (fun t => t == up) = true ∧
    goes (exec (.brownOut 8500 25000) up) (fun t => !t.modPg && t.get GLOBAL_BOOT_STATUS_LAST_RESET == 1 && !t.spineUp) = true := by
  repeat' apply And.intro
  all_goals decide +kernel

/-- A power-on reset of the reset state is the reset state, but for LAST_RESET. -/
theorem test_power_reset : ((State.reset.powerReset 0) == State.reset) = true := by decide +kernel

/-- Start-up: PD_PCIE and PD_HOST are ON at round 280, and SPINE_UP is set at round 400 (Bring-up Table 20.2). -/
theorem test_start_up : ((State.reset.wrN ROUND_COUNT 280).bootBoundary.dom 21, (State.reset.wrN ROUND_COUNT 280).bootBoundary.dom 16, (State.reset.wrN ROUND_COUNT 279).bootBoundary.dom 16,
    (State.reset.wrN ROUND_COUNT 400).bootBoundary.spineUp, (State.reset.wrN ROUND_COUNT 399).bootBoundary.spineUp) = (0, 0, 3, true, false) := by decide +kernel

theorem witness_ResetControlAndRecoveryObeyTheirRules : up.holdOf .pf = none ∧ up.holdOf .opantith = none ∧ up.path .pf = true ∧ up.path .opantith = true ∧ Req.opantith.secure = true ∧ Req.pf.secure = false ∧
    up.on ERROR_STATUS_SAFE = false ∧ up.on ERROR_STATUS_ENTERING = false ∧ safe.on ERROR_STATUS_SAFE = true ∧ up.resetBusy 3 = true ∧
    (((up.setBoot fun b => { b with steps := [] }).putB GLOBAL_BOOT_STATUS_LP_TRAINED true).setTrust fun t => { t with stage := 2 }).resetBusy 5 = false ∧
    3 ∉ up.boot.due ∧ (up.setBoot fun b => { b with due := [5, 3] }).boot.due = [5, 3] ∧ up.boot.supply = .up ∧ up.boot.resetLow = false ∧
    noBoot.get SECURE_STATUS_BOOT_STATE = 2 ∧ up.get SECURE_STATUS_BOOT_STATE ≠ 2 ∧ noBoot.trust.recover.words = 0 ∧ noBoot.trust.runtime.isNone = true ∧ ¬(0x1C0000 < 4 * 0 + 4) ∧
    (noBoot.setTrust fun t => { t with recover := { words := 0x70000 } }).trust.recover.words = 0x70000 ∧ 0x1C0000 < 4 * 0x70000 + 4 := by
  repeat' apply And.intro
  all_goals decide +kernel

theorem test_recover : goes (exec (.recoverWord 0x44332211) noBoot) (fun t => t.byte 0xF002000000 == 0x11 && t.byte 0xF002000003 == 0x44) = true ∧
    goes (exec (.recoverLast 0x44332211) noBoot) (fun t => t.trust.recover.state == 3 && t.trust.recover.status == 3 && t.byte 0xF002000000 == 0) = true := by
  repeat' apply And.intro
  all_goals decide +kernel

/-- A fabric pin shows its safe state while no region runs, keeps what it latched while its group is held, and is high impedance without MOD_PG
(Power states R462, Fabric R428, Electrical R673). -/
theorem test_fab_pins : let s := up.put (FABRIC_PIN_CFG_SAFE 3) 2
    (s.fabPin 3, ((s.latchPads 19).put (FABRIC_PIN_CFG_SAFE 3) 1).fabPin 3, (s.railsOff .off 1).fabPin 3) = (some 2, some 2, some 0) := by decide +kernel

/-! ### Ill-formed commands -/

/-- One ill-formed command for each check of `Instr.wf` on its own operands. -/
def illFormed1 : List Instr :=
  [.regWrite .pf 0 3 0, .regWrite .pf 0x1000000 4 0, .regWrite .pf 0 4 (2 ^ 32), .roundBoundary [⟨29, 0, none, none⟩], .syncLoss 1000, .alignment (2 ^ 64),
   .syncReceived ⟨0, 4, 0, true, true, 0, 0, 0⟩, .syncReceived ⟨0, 0, 256, true, true, 0, 0, 0⟩, .syncReceived ⟨0, 0, 0, true, true, 2 ^ 64, 0, 0⟩,
   .syncReceived ⟨0, 0, 0, true, true, 0, 1000, 0⟩, .relock ⟨.pf, 1000⟩, .syncSourceWrite ⟨.pf, 4⟩ 0, .unitStart 16 (.vision ⟨none, 0, 2 ^ 32⟩) 0, .unitStart 16 (.vision ⟨none, 0, 0⟩) 1000,
   .unitEnd 0 1000, .txnOpen (.env 0 (2 ^ 32)), .txnWrites 0 (2 ^ 32), .submissionDoorbell .pf 0 ⟨0, 5⟩ none, .submissionDoorbell .pf 0 ⟨0, 4⟩ (some (2 ^ 32)), .returnDoorbell .pf 0 ⟨0x1000, 4⟩ none,
   .nop 0 (2 ^ 32), .run 0 0 ⟨24, 0, []⟩, .run 0 0 ⟨0, 64, []⟩, .run 0 0 ⟨0, 0, [(2 ^ 64, 0, 1)]⟩, .run 0 0 ⟨0, 0, [(0, 2 ^ 32, 1)]⟩, .run 0 0 ⟨0, 0, [(0, 0, 2 ^ 32)]⟩,
   .runRelease 0 (2 ^ 33), .receiptSigValue .pf (2 ^ 64), .ringCfgWrite .pf 0 (2 ^ 32)]

/-- A word of the instruction buffer, and a ready step on clerk 0. -/
def illWord (w : LongWord) : Instr := .wordIssue 0 0 0 ⟨w, 4, false, 0⟩
def readyOn (p : StepProg) : Instr := .unitStart 0 (.step ⟨0, 0, 1, p⟩) 0
def moving (m : CopyMove) : Instr := .stepEnd 0 ⟨[m], false⟩ 0

/-- Clerks. -/
def illFormed2 : List Instr :=
  [.wordIssue 0 0 (2 ^ 32) ⟨{ sync := some .boundary }, 4, false, 0⟩, .wordIssue 0 0 0 ⟨{ sync := some .boundary }, 0, false, 0⟩, .wordIssue 0 0 0 ⟨{ sync := some .boundary }, 0x2001, false, 0⟩,
   illWord {}, illWord { store := some (0, 5) }, illWord { sync := some (.barrier (2 ^ 256)) }, illWord { load := some (.book 0 1) }, illWord { load := some (.book 0 17) },
   illWord { load := some (.table 257) }, illWord { move := some (.copy (.book 0) (.vreg 0) 17) }, illWord { move := some (.copy (.table 0) (.vreg 0) 1) }]

/-- Steps and serving. -/
def illFormed5 : List Instr :=
  [.unitStart 0 (.step ⟨0, 2 ^ 33, 1, { desc := 0 }⟩) 0, .unitStart 0 (.step ⟨0, 0, 2 ^ 256, { desc := 0 }⟩) 0, readyOn { desc := 2 ^ 16 }, readyOn { desc := 0, needs := [(0, 2 ^ 32)] },
   readyOn { desc := 0, gens := List.replicate 9 ⟨0, []⟩ }, readyOn { desc := 0, gens := [⟨2 ^ 17, []⟩] }, readyOn { desc := 0, gens := [⟨0, List.replicate 7 ⟨1, 0⟩⟩] },
   readyOn { desc := 0, gens := [⟨0, [⟨0, 0⟩]⟩] }, readyOn { desc := 0, gens := [⟨0, [⟨65537, 0⟩]⟩] }, readyOn { desc := 0, gens := [⟨0, [⟨1, 65536⟩]⟩] }, readyOn { desc := 0, gens := [⟨0, [⟨1, -65537⟩]⟩] },
   readyOn { desc := 0, merge := List.replicate 4097 (0, none) }, readyOn { desc := 0, bands := [(256, [])] }, readyOn { desc := 0, bands := [(0, [0, 0, 0, 0, 0])] },
   readyOn { desc := 0, bands := [(0, [2 ^ 17])] }, readyOn { desc := 0, entry := some 0x2000 }, readyOn { desc := 0, segs := [⟨2 ^ 64, 0, 1⟩] }, readyOn { desc := 0, segs := [⟨0, 0, 0⟩] },
   readyOn { desc := 0, segs := [⟨0, 0x2000, 1⟩] }, readyOn { desc := 0, moves := [⟨.at_ 0, .at_ 0, 0, none, none⟩] }, readyOn { desc := 0, walks := [⟨0, [2 ^ 64]⟩] }, .scrubRead (2 ^ 64) 0,
   moving ⟨.at_ (2 ^ 64), .at_ 0, 1, none, none⟩, moving ⟨.at_ 0, .at_ (2 ^ 64), 1, none, none⟩, moving ⟨.at_ 0, .stores (2 ^ 256) 0, 1, none, none⟩, moving ⟨.at_ 0, .stores 1 0x18000, 1, none, none⟩,
   moving ⟨.at_ 0, .at_ 0, 9, none, some (16, 1, 512)⟩, moving ⟨.at_ 0, .at_ 0, 8, none, some (1, 1, 512)⟩, moving ⟨.at_ 0, .at_ 0, 8, none, some (16, 1, 32)⟩, .stepEnd 0 ⟨[], false⟩ 1000,
   .walkKWrite .pf 0 0 (2 ^ 32), .inboundWrite 0 0 0 0 0 [], .inboundWrite 0 0 0 (2 ^ 64) 0 [0], .passStart 0 ⟨0, 0, []⟩, .passStart (2 ^ 32) ⟨0, 0, []⟩,
   .passComplete 0 0 0, .passComplete (2 ^ 32) 0 0, .passComplete 1 1000 0, .passComplete 1 0 (2 ^ 64)]

/-- Cameras, codecs, the express lane and memory. -/
def illFormed3 : List Instr :=
  [.csi2Packet ⟨0, 0, 64, .good, .frameEnd⟩, .csi2Packet ⟨0, 0, 0, .good, .frameStart (2 ^ 16)⟩, .decodeAccessUnit 0 (.picture 0 8 true), .decodeAccessUnit 0 (.picture 8 0 true), .jpegJobDone (.data 0 8 []), .jpegJobDone (.data 8 0 []),
   .adcConversion 0 1000, .fabricBlock 0 [2 ^ 32] 0, .fabricBlock 0 [] 1000, .expressUnitStart 0 (2 ^ 256) { desc := 0 } 0, .expressUnitStart 0 0 { desc := 2 ^ 16 } 0, .expressUnitStart 0 0 { desc := 0 } 1000,
   .expressUnitEnd 0 (2 ^ 32) 0 0, .expressUnitEnd 0 0 (2 ^ 32) 0, .expressUnitEnd 0 0 0 1000, .cportFrameReceive 0 [] true 1000, .memRequest 0 .bulk 0 (.read 0) 0,
   .memRequest 0 .bulk 60 (.read 8) 0, .memRequest 0 .bulk 0 (.write []) 0, .memRequest 0 .bulk 63 (.write [0, 0]) 0, .memRequest 0 .bulk 0 (.read 8) 1000, .memBurstIssue 0 [64] 0,
   .memBurstIssue 0 [] 1000, .ddr5Bringup .pf (2 ^ 32), .fabricScrubRead 0 [(81, 0)], .fabricScrubRead 0 [(0, 32)], .fabricMeshRequest 60 (.read 8),
   .fabricRegAccess .pf 0 0 (some (2 ^ 32)) none, .fabricRegAccess .pf 0 0 none (some (2 ^ 32))]

/-- Power, trust, firmware, errors and links. -/
def illFormed4 : List Instr :=
  [.domReqOn .pf 0 (2 ^ 16), .devReqRun .pf (2 ^ 16), .monitorSample 0 (2 ^ 16), .trimUpdate [], .trimUpdate (List.replicate 17 (some (2 ^ 16))), .governorDecision [] [],
   .governorDecision (1001 :: List.replicate 7 0) [], .governorDecision (List.replicate 8 0) [2 ^ 32], .secureStart [0], .norErase (some (0x4000000, [])), .norProgram (some (0x4000000, [])), .fwReady 0 (2 ^ 32) 0, .fwReady 0 0 (2 ^ 16),
   .ledgerEntry 0 false (2 ^ 16) 0 0 0 0 0, .ledgerEntry 0 false 0 4 0 0 0 0, .ledgerEntry 0 false 0 0 (2 ^ 64) 0 0 0, .ledgerEntry 0 false 0 0 0 (2 ^ 64) 0 0,
   .ledgerEntry 0 false 0 0 0 0 (2 ^ 64) 0, .ledgerEntry 0 false 0 0 0 0 0 1000, .ack .pf (2 ^ 32), .bar4Access 0x1000000000 1 none, .bar4Access 0 0 none, .bar4Access 0 65 none,
   .bar4Access 0 2 (some [0]), .pcieError 0 .timeout (.envelope 0 (2 ^ 32)), .relayTrained 0 16 true 0, .write ⟨16, 0, 0, 0, 0, 0, [], 0⟩, .write ⟨0, 16, 0, 0, 0, 0, [], 0⟩,
   .write ⟨0, 0, 256, 0, 0, 0, [], 0⟩, .write ⟨0, 0, 0, 2 ^ 16, 0, 0, [], 0⟩, .write ⟨0, 0, 0, 0, 2 ^ 16, 0, [], 0⟩, .write ⟨0, 0, 0, 0, 0, 2 ^ 64, [], 0⟩,
   .write ⟨0, 0, 0, 0, 0, 0, [0], 0⟩, .write ⟨0, 0, 0, 0, 0, 0, List.replicate 272 0, 0⟩, .write ⟨0, 0, 0, 0, 0, 0, [], 2 ^ 32⟩, .lack (2 ^ 16) 0, .lack 0 (2 ^ 64), .lnak (2 ^ 16), .lowHalfRead .pf 0x1000000 4,
   .lowHalfRead .pf 4 3, .pcieLinkUp 1 5]

theorem test_ill_formed_1 : (illFormed1.all fun c => !c.wf) = true := by decide +kernel
theorem test_ill_formed_2 : (illFormed2.all fun c => !c.wf) = true := by decide +kernel
theorem test_ill_formed_3 : (illFormed3.all fun c => !c.wf) = true := by decide +kernel
theorem test_ill_formed_4 : (illFormed4.all fun c => !c.wf) = true := by decide +kernel
theorem test_ill_formed_5 : (illFormed5.all fun c => !c.wf) = true := by decide +kernel

/-- Commands that the spec's examples give are well formed. -/
theorem test_well_formed : ([.submissionDoorbell .pf 5 ⟨0, 4⟩ (some 64), .regWrite .pf 0x30000 8 1, .write (pkt 1 0xC5 0x8020E00000 (List.replicate 16 9)), illWord { sync := some .boundary },
    readyOn { desc := 0, gens := [⟨0, [⟨65536, -65536⟩]⟩], merge := [(0, some 3)] }, moving ⟨.at_ 0, .at_ 0, 8, none, some (16, 1, 512)⟩, .nop 5 0, .unitEnd 0 999] : List Instr).all
    (fun c => c.wf) = true := by decide +kernel
end Sys2Proof.Tests
end

section
/-! SUPPORT. What a report of class NOTE leaves alone. -/

namespace Sys2Proof.Machine
open Reg

/-! ### Reports of class NOTE -/

/-- A field that writing a record leaves alone: it lies outside SEQ_NEXT and LOST, and in STATUS it is one of the class bits. -/
def SparedByRecords (g : Fld) : Prop :=
  g.reg ≠ ERROR_SEQ_NEXT ∧ (∀ k, k < 4 → g.reg ≠ ERROR_LOST k) ∧ (g.reg = ERROR_STATUS → g.hi < 8)

/-- Every field that records spare reads the same in both states. -/
def KeepsSpared (s t : State) : Prop := ∀ g, SparedByRecords g → t.get g = s.get g

theorem KeepsSpared.refl (s : State) : KeepsSpared s s := fun _ _ => rfl

theorem KeepsSpared.trans {s t u : State} (h : KeepsSpared s t) (k : KeepsSpared t u) : KeepsSpared s u :=
  fun g hg => (k g hg).trans (h g hg)

theorem KeepsSpared.of_regs {s t : State} (h : t.regs = s.regs) : KeepsSpared s t :=
  fun g _ => by simp only [State.get, State.rd, h]

/-- A field of STATUS above the class bits may be written. -/
theorem KeepsSpared.put_status (s : State) (f : Fld) (n : Nat) (hr : f.reg = ERROR_STATUS) (hl : 8 ≤ f.lo) (hw : f.lo ≤ f.hi) (hh : f.hi < 64) :
    KeepsSpared s (s.put f n) := by
  intro g ⟨_, _, hst⟩
  by_cases hg : g.reg = ERROR_STATUS
  · exact State.get_put_apart s f g n hw hh (.inr (by have := hst hg; omega))
  · exact State.get_put_other s f g n (by rw [hr]; exact hg)

theorem KeepsSpared.errSync (s : State) : KeepsSpared s s.errSync := by
  have hput : ∀ (u : State) (f : Fld) (n : Nat), f ∈ [ERROR_STATUS_QUEUED, ERROR_STATUS_CUR_VALID, ERROR_STATUS_CUR_CLASS] → KeepsSpared u (u.put f n) := by
    intro u f n hf
    simp only [List.mem_cons, List.not_mem_nil, or_false] at hf
    rcases hf with rfl | rfl | rfl <;> exact KeepsSpared.put_status u _ n rfl (by decide) (by decide) (by decide)
  unfold State.errSync
  dsimp only
  split <;> exact ((hput s _ _ (by simp)).trans (hput _ _ _ (by simp))).trans (hput _ _ _ (by simp))

theorem State.msix_regs (s : State) (f v : Nat) : (s.msix f v).regs = s.regs := by
  unfold State.msix; split_ifs <;> rfl

theorem State.coreIrq_regs (s : State) (b : Bool) (n : Nat) (v : Option Nat) : (s.coreIrq b n v).regs = s.regs := by
  unfold State.coreIrq; split <;> rfl

theorem State.errIrq_regs (s : State) (c : Nat) : (s.errIrq c).regs = s.regs := by
  unfold State.errIrq
  dsimp only
  split_ifs <;> simp only [State.coreIrq_regs, State.msix_regs]

theorem KeepsSpared.setErr (s : State) (f : ErrSt → ErrSt) : KeepsSpared s (s.setErr f) := .of_regs rfl
theorem KeepsSpared.useFree (s : State) : KeepsSpared s s.useFree := .of_regs rfl
theorem KeepsSpared.errIrq (s : State) (c : Nat) : KeepsSpared s (s.errIrq c) := .of_regs (State.errIrq_regs s c)

theorem KeepsSpared.errSelect (s : State) : KeepsSpared s s.errSelect := by
  unfold State.errSelect
  split
  · exact ((KeepsSpared.setErr s _).trans (KeepsSpared.errSync _)).trans (KeepsSpared.errIrq _ _)
  · exact KeepsSpared.errSync s

theorem KeepsSpared.errEnqueue (s : State) (r : ErrRec) : KeepsSpared s (s.errEnqueue r) := by
  unfold State.errEnqueue
  dsimp only
  split
  · exact (KeepsSpared.setErr s _).trans (KeepsSpared.errSelect _)
  · split
    · exact (((KeepsSpared.setErr s _).trans (KeepsSpared.setErr _ _)).trans (KeepsSpared.errSync _)).trans (KeepsSpared.errIrq _ _)
    · exact (KeepsSpared.setErr s _).trans (KeepsSpared.errSync _)

theorem KeepsSpared.seqNext (s : State) (n : Nat) : KeepsSpared s (s.wrN ERROR_SEQ_NEXT n) :=
  fun g ⟨hg, _, _⟩ => State.get_wrN_other s _ n g hg

theorem KeepsSpared.lost (s : State) (k n : Nat) (hk : k < 4) : KeepsSpared s (s.addSat (ERROR_LOST k) n) :=
  fun g ⟨_, hg, _⟩ => State.get_wrN_other s _ _ g (hg k hk)

/-- Writing a record leaves the spared fields as they were. -/
theorem KeepsSpared.errRecord (s : State) (e : Err) (c : ErrClass) (a b : Bool) : KeepsSpared s (s.errRecord e c a b) := by
  have hc := ErrClass.code_lt c
  unfold State.errRecord
  dsimp only
  split
  · exact KeepsSpared.setErr s _
  · split
    · exact ((KeepsSpared.seqNext s _).trans (KeepsSpared.useFree _)).trans (KeepsSpared.errEnqueue _ _)
    · split
      · next x hx =>
        have := displaced_below hx
        exact (((KeepsSpared.seqNext s _).trans (KeepsSpared.lost _ _ _ (by omega))).trans (KeepsSpared.setErr _ _)).trans (KeepsSpared.errEnqueue _ _)
      · exact KeepsSpared.lost s _ _ hc

/-- A report of a code of class NOTE sets the status bit and writes the record. -/
theorem State.report_note (s : State) (e : Err) (hc : errClass e.code = some .note) :
    s.report e = (s.errStatus .note).errRecord e .note (s.err.entry.isSome || s.on ERROR_STATUS_SAFE) false := by
  unfold State.report
  rw [hc]
  rfl

theorem State.on_report_note (s : State) (e : Err) (hc : errClass e.code = some .note) : (s.report e).on ERROR_STATUS_NOTE = true := by
  have hs : SparedByRecords ERROR_STATUS_NOTE := ⟨by decide, by decide, by decide⟩
  rw [State.report_note s e hc, State.on, KeepsSpared.errRecord _ _ _ _ _ _ hs]
  exact State.on_putB_same s ERROR_STATUS_NOTE true rfl (by decide)

/-- A report of class NOTE changes no register outside the ERROR block. -/
theorem State.rd_report_note (s : State) (e : Err) (hc : errClass e.code = some .note) (o : Nat) (ho : o < 0xD00000 ∨ 0xE00000 ≤ o) :
    (s.report e).rd o = s.rd o := by
  have hne : o ≠ ERROR_STATUS := by rintro rfl; revert ho; decide
  have hs : SparedByRecords ⟨o, 63, 0⟩ := by
    refine ⟨?_, fun k hk => ?_, fun h => absurd h hne⟩
    · rintro rfl; revert ho; decide
    · simp only [ERROR_LOST]; omega
  have hword : ∀ u : State, u.get ⟨o, 63, 0⟩ = (u.rd o).toNat := fun u => by
    simp only [State.get, Word.bits, Nat.pow_zero, Nat.div_one]
    exact Nat.mod_eq_of_lt (u.rd o).isLt
  have hkeep := KeepsSpared.errRecord (s.errStatus .note) e .note (s.err.entry.isSome || s.on ERROR_STATUS_SAFE) false _ hs
  rw [hword, hword] at hkeep
  rw [State.report_note s e hc, BitVec.eq_of_toNat_eq hkeep]
  exact State.rd_put_other s ERROR_STATUS_NOTE 1 o hne

theorem errClass_regAccess : errClass Code.REG_ACCESS = some .note := by decide

@[simp] theorem State.giveRead_rd (s : State) (n o : Nat) : (s.giveRead n).rd o = s.rd o := rfl


end Sys2Proof.Machine
end

section
/-! SUPPORT. Accesses of registers, held low halves and latched high halves (Scope R13 to R18). -/

namespace Sys2Proof.Machine
open Reg

/-! ### Register accesses -/

theorem execRegWrite_next (q : Req) (off size v : Nat) (s : State) (ho : off < 0x1000000) (hs : size = 1 ∨ size = 2 ∨ size = 4 ∨ size = 8) :
    exec (.regWrite q off size v) s = .next (s.regWrite q off size v) := by
  have hc : (decide (0x1000000 ≤ off) || !(size == 1 || size == 2 || size == 4 || size == 8)) = false := by
    rcases hs with rfl | rfl | rfl | rfl <;> simp <;> omega
  show execRegWrite q off size v s = _
  rw [execRegWrite, hc]
  rfl

theorem execLowHalfRead_next (q : Req) (off size : Nat) (s : State) (ho : off < 0x1000000) (hs : size = 1 ∨ size = 2 ∨ size = 4 ∨ size = 8) :
    exec (.lowHalfRead q off size) s = .next (s.regRead q off size) := by
  have hc : (decide (0x1000000 ≤ off) || !(size == 1 || size == 2 || size == 4 || size == 8)) = false := by
    rcases hs with rfl | rfl | rfl | rfl <;> simp <;> omega
  show execLowHalfRead q off size s = _
  rw [execLowHalfRead, hc]
  rfl

/-- A narrow or misaligned write that has a path is refused. -/
theorem State.regWrite_refused (s : State) (q : Req) (off size v : Nat) (hp : s.path q = true) (h : size < 4 ∨ off % size ≠ 0) :
    s.regWrite q off size v = s.refuse Code.REG_ACCESS off := by
  rw [State.regWrite, if_neg (by simp [hp]), if_pos (by simpa using h)]

theorem State.regWrite_aligned32 (s : State) (q : Req) (off v : Nat) (hp : s.path q = true) (h : off % 4 = 0) :
    s.regWrite q off 4 v = s.write32 q off (v % 2 ^ 32) true := by
  rw [State.regWrite, if_neg (by simp [hp]), if_neg (by simp [h]), if_pos rfl]

theorem State.regRead_misaligned (s : State) (q : Req) (off size : Nat) (hp : s.path q = true) (h4 : 4 ≤ size) (h : off % size ≠ 0) :
    s.regRead q off size = (s.giveRead 0).refuse Code.REG_ACCESS off := by
  rw [State.regRead, if_neg (by simp [hp]), if_neg (by omega), if_pos (by simpa using h)]

theorem State.regRead_aligned32 (s : State) (q : Req) (off : Nat) (hp : s.path q = true) (h : off % 4 = 0) : s.regRead q off 4 = s.read32 q off := by
  rw [State.regRead, if_neg (by simp [hp]), if_neg (by omega), if_neg (by simp [h]), if_pos rfl]

theorem State.regRead_aligned64 (s : State) (q : Req) (off : Nat) (hp : s.path q = true) (h : off % 8 = 0) : s.regRead q off 8 = s.read64 q off := by
  rw [State.regRead, if_neg (by simp [hp]), if_neg (by omega), if_neg (by simp [h]), if_neg (by omega)]

theorem State.read64_whole (s : State) (q : Req) (off : Nat) {r : RegRow} (hr : regRow? off = some r) (hw : r.width = 64) :
    s.read64 q off = s.giveRead (s.readWhole q off) := by
  rw [State.read64, if_pos (by simp [hr, hw])]

theorem State.read32_low (s : State) (q : Req) (off : Nat) {r : RegRow} (hf : inFabWindow off = false) (hr : regRow? off = some r) (hw : r.width = 64) :
    s.read32 q off = s.readHalf q off false := by
  simp only [State.read32, hf, hr, hw, Bool.false_eq_true, if_false, if_true]

theorem State.read32_high (s : State) (q : Req) (off : Nat) {r : RegRow} (h8 : off % 8 = 0) (hf : inFabWindow (off + 4) = false)
    (hn : regRow? (off + 4) = none) (hr : regRow? off = some r) (hw : r.width = 64) : s.read32 q (off + 4) = s.readHalf q off true := by
  have h4 : (off + 4) % 8 = 4 := by omega
  simp only [State.read32, hf, hn, h4, Nat.add_sub_cancel, hr, hw, Bool.false_eq_true, if_false, if_true]

/-- The high half of a register outside the regions' windows lies outside them too. -/
theorem inFabWindow_high (off : Nat) (h8 : off % 8 = 0) (hf : inFabWindow off = false) : inFabWindow (off + 4) = false := by
  simp only [inFabWindow, Bool.and_eq_false_iff, decide_eq_false_iff_not] at hf ⊢
  omega

/-! ### Held low halves -/

@[simp] theorem State.holdOf_setHold_same (s : State) (q : Req) (h : Option RegHold) : (s.setHold q h).holdOf q = h :=
  SMap.get_set_same (fun _ => none) s.bus.holds q.index h

theorem State.holdOf_setHold_other (s : State) (p q : Req) (h : Option RegHold) (hpq : p.index ≠ q.index) : (s.setHold q h).holdOf p = s.holdOf p :=
  SMap.get_set_other (fun _ => none) s.bus.holds q.index p.index h hpq

@[simp] theorem State.holdOf_report (s : State) (e : Err) (q : Req) : (s.report e).holdOf q = s.holdOf q := by
  rw [State.holdOf, State.report_bus, ← State.holdOf]

/-- A held low half of another register is dropped with a report. -/
theorem State.dropHold_other (s : State) (q : Req) (h : RegHold) (reg : Option Nat) (hh : s.holdOf q = some h) (hr : reg ≠ some h.reg) :
    s.dropHold q reg = (s.setHold q none).report { code := Code.REG_ACCESS, detail := h.reg } := by
  simp only [State.dropHold, hh, if_neg hr, State.refuse]

theorem State.dropHold_none (s : State) (q : Req) (reg : Option Nat) (hh : s.holdOf q = none) : s.dropHold q reg = s := by
  simp only [State.dropHold, hh]

/-- The low half of a 64-bit register is held, in place of one of the same register. -/
theorem State.write32_low (s : State) (q : Req) (off v : Nat) (pl : Bool) {r : RegRow} (hf : inFabWindow off = false) (hr : regRow? off = some r)
    (hw : r.width = 64) (hh : ∀ h, s.holdOf q = some h → h.reg = off) : s.write32 q off v pl = s.setHold q (some ⟨off, v, s.round⟩) := by
  have hany : ((s.holdOf q).any fun h => h.reg != off) = false := by
    cases hq : s.holdOf q with
    | none => rfl
    | some h => simp [hh h hq]
  simp only [State.write32, hf, hr, hw, hany, Bool.false_eq_true, if_false, if_true]

/-- Settles O6: an aligned low half is put in its requester's hold, and nothing else is touched. -/
theorem lowHalfIsHeldWithoutEffect : Obligations.LowHalfIsHeldWithoutEffect := by
  intro q off v r s hp ho h4 hf hr hw hh
  refine ⟨s.setHold q (some ⟨off, v % 2 ^ 32, s.round⟩), ?_, s.holdOf_setHold_same q _, rfl, rfl, rfl, rfl, rfl, rfl,
    fun p hpq => s.holdOf_setHold_other p q _ hpq⟩
  rw [execRegWrite_next q off 4 v s ho (by simp), s.regWrite_aligned32 q off v hp h4, s.write32_low q off _ true hf hr hw hh]

/-- Settles O8: such an access is a report of REG_ACCESS, of class NOTE. -/
theorem misalignedOrNarrowWriteIsDiscarded : Obligations.MisalignedOrNarrowWriteIsDiscarded := by
  intro q off size v s hp ho hsz
  have hnote : errClass ({ code := Code.REG_ACCESS, detail := off } : Err).code = some .note := errClass_regAccess
  refine ⟨⟨s.refuse Code.REG_ACCESS off, ?_, s.on_report_note _ hnote, s.rd_report_note _ hnote, s.report_bus _, s.report_mem _, s.report_hostMem _,
    s.report_acting _⟩, fun h4 => ⟨(s.giveRead 0).refuse Code.REG_ACCESS off, ?_, State.on_report_note _ _ hnote, ?_⟩⟩
  · rw [execRegWrite_next q off size v s ho (by omega), s.regWrite_refused q off size v hp]
    rcases hsz with rfl | rfl | ⟨rfl, h⟩ | ⟨rfl, h⟩ <;> omega
  · rw [execLowHalfRead_next q off size s ho (by omega), s.regRead_misaligned q off size hp h4]
    rcases hsz with rfl | rfl | ⟨rfl, h⟩ | ⟨rfl, h⟩ <;> omega
  · simp only [State.refuse, State.report_bus, State.report_mem, State.report_acting]
    exact ⟨rfl, rfl, rfl, fun o hor => (State.rd_report_note _ _ hnote o hor).trans (s.giveRead_rd 0 o), rfl, rfl⟩

/-! ### Latched high halves -/

/-- The latches are for this requester's read of the high half of this register. -/
def RegLatch.isFor (q : Req) (off : Nat) (l : RegLatch) : Bool := l.who == q.index && l.reg == off

theorem find?_filter_not {α : Type} (p : α → Bool) (l : List α) : (l.filter fun y => !p y).find? p = none :=
  List.find?_eq_none.mpr (by simp)

theorem find?_filter_not_append {α : Type} (p : α → Bool) (l : List α) (x : α) (hx : p x = true) :
    (l.filter (fun y => !p y) ++ [x]).find? p = some x := by
  rw [List.find?_append, find?_filter_not, List.find?_singleton, if_pos hx]; rfl

theorem State.readHalf_low (s : State) (q : Req) (off : Nat) : s.readHalf q off false = s.setBus fun z => { z with
    latches := s.bus.latches.filter (fun l => !l.isFor q off) ++ [⟨q.index, off, s.readWhole q off / 2 ^ 32⟩], data := s.readWhole q off % 2 ^ 32 } := rfl

theorem State.readHalf_high (s : State) (q : Req) (off : Nat) {l : RegLatch} (hl : s.bus.latches.find? (RegLatch.isFor q off) = some l) :
    s.readHalf q off true = s.setBus fun z => { z with latches := s.bus.latches.filter fun l => !l.isFor q off, data := l.high } := by
  have hl' : s.bus.latches.find? (fun l => l.who == q.index && l.reg == off) = some l := hl
  simp only [State.readHalf, hl', Bool.not_true, Bool.false_eq_true, if_false]
  rfl

/-- Settles O9: the latch made by the low half is the one that the high half finds, whatever else has changed. -/
theorem halvesReadOneValue : Obligations.HalvesReadOneValue := by
  intro q off r s hp ho h8 hf hr hw hn
  refine ⟨⟨s.giveRead (s.readWhole q off), ?_, rfl, rfl, rfl, rfl, rfl⟩, ⟨s.readHalf q off false, ?_, ?_⟩, fun h hl => ⟨s.readHalf q off true, ?_, ?_⟩⟩
  · rw [execLowHalfRead_next q off 8 s ho (by simp), s.regRead_aligned64 q off hp h8, s.read64_whole q off hr hw]
  · rw [execLowHalfRead_next q off 4 s ho (by simp), s.regRead_aligned32 q off hp (by omega), s.read32_low q off hf hr hw]
  · rw [s.readHalf_low q off]
    exact ⟨rfl, find?_filter_not_append (RegLatch.isFor q off) _ _ (by simp [RegLatch.isFor]), rfl, rfl, rfl⟩
  · rw [execLowHalfRead_next q (off + 4) 4 s (by omega) (by simp), s.regRead_aligned32 q (off + 4) hp (by omega),
      s.read32_high q off h8 (inFabWindow_high off h8 hf) hn hr hw]
  · rw [s.readHalf_high q off hl]
    exact ⟨rfl, find?_filter_not (RegLatch.isFor q off) _, rfl, rfl, rfl⟩

/-! ### Low halves dropped late -/

theorem execLowHalfDrop_held (q : Req) (s : State) (h : RegHold) (hh : s.holdOf q = some h) :
    exec (.lowHalfDrop q) s = .next (if h.round + 2 ≤ s.round then s.dropHold q none else s) := by
  show execLowHalfDrop q s = _
  simp only [execLowHalfDrop, hh]

/-- The path of a requester does not depend on held low halves or reports. -/
theorem State.path_setHold_report (s : State) (q p : Req) (h : Option RegHold) (e : Err) : ((s.setHold p h).report e).path q = s.path q := by
  have hup : ((s.setHold p h).report e).spineUp = s.spineUp := by
    simp only [State.spineUp, State.on, State.get, State.report_pwr, State.setHold_pwr]
    rw [State.rd_report _ e _ (by decide) (.inl (by decide)), State.setHold_rd]
  cases q <;> simp only [State.path, hup]

/-- A write of a register with a row of its own drops a held low half of another register first, and then acts as it would without it. -/
theorem State.landing_dropHold (s : State) (q : Req) (reg : Nat) (f : State → State) (h : RegHold) (hp : s.path q = true) (hh : s.holdOf q = some h)
    (hr : h.reg ≠ reg) :
    s.landing q reg f = ((s.setHold q none).report { code := Code.REG_ACCESS, detail := h.reg }).landing q reg f := by
  have hne : some reg ≠ some h.reg := fun k => hr (Option.some.inj k).symm
  have hnone : ((s.setHold q none).report { code := Code.REG_ACCESS, detail := h.reg }).holdOf q = none := by
    rw [State.holdOf_report, State.holdOf_setHold_same]
  unfold State.landing
  rw [State.path_setHold_report, if_pos hp, if_pos hp, s.dropHold_other q h _ hh hne, State.dropHold_none _ q _ hnone]

/-- Settles O10: the drop is the release of the hold and a report of class NOTE. -/
theorem lateLowHalfIsDropped : Obligations.LateLowHalfIsDropped := by
  intro q h s hh
  have hnote : errClass ({ code := Code.REG_ACCESS, detail := h.reg } : Err).code = some .note := errClass_regAccess
  refine ⟨fun hl => ⟨(s.setHold q none).report { code := Code.REG_ACCESS, detail := h.reg }, ?_, ?_, State.on_report_note _ _ hnote, ?_,
    State.report_mem _ _, State.report_hostMem _ _, State.report_acting _ _⟩, fun hl => ?_, fun r hp hr => ?_⟩
  · rw [execLowHalfDrop_held q s h hh, if_pos hl, s.dropHold_other q h none hh (by simp)]
  · rw [State.holdOf_report, State.holdOf_setHold_same]
  · exact fun o ho => (State.rd_report_note _ _ hnote o ho).trans (s.setHold_rd q none o)
  · rw [execLowHalfDrop_held q s h hh, if_neg (by omega)]
  · exact congrArg Host.Outcome.next (s.landing_dropHold q _ _ h hp hh hr)

end Sys2Proof.Machine
end

section
/-! SUPPORT. Fields that act from the next boundary (Scope R21), and the IRQ register of a ring. -/

namespace Sys2Proof.Machine
open Reg

/-! ### Masked values and the values that blocks act on -/

/-- Bit `i` of a masked merge comes from the new value where the mask has a one. -/
theorem testBit_mergeNat (old m v i : Nat) (hi : i < 64) :
    (mergeNat old m v).testBit i = if m.testBit i then v.testBit i else old.testBit i := by
  rw [mergeNat, BitVec.testBit_toNat]
  simp only [BitVec.getLsbD_or, BitVec.getLsbD_and, BitVec.getLsbD_not, BitVec.getLsbD_ofNat, hi, decide_true, Bool.true_and]
  cases m.testBit i <;> simp

theorem mergeNat_lt (old m v : Nat) : mergeNat old m v < 2 ^ 64 := BitVec.isLt _

theorem mergeNat_zero_mask (old v : Nat) (h : old < 2 ^ 64) : mergeNat old 0 v = old := by
  rw [mergeNat, show ~~~(BitVec.ofNat 64 0) = BitVec.allOnes 64 from rfl, BitVec.and_allOnes, BitVec.and_zero, BitVec.or_zero, BitVec.toNat_ofNat,
    Nat.mod_eq_of_lt h]

/-- A field that lies under the mask takes its bits from the new value. -/
theorem nbits_mergeNat (old m v hi lo : Nat) (hh : hi < 64) (hm : ∀ i, lo ≤ i → i ≤ hi → m.testBit i = true) :
    nbits (mergeNat old m v) hi lo = nbits v hi lo := by
  apply Nat.eq_of_testBit_eq
  intro i
  simp only [nbits, Nat.testBit_mod_two_pow, Nat.testBit_div_two_pow]
  by_cases h : i < hi + 1 - lo
  · rw [testBit_mergeNat _ _ _ _ (by omega), hm _ (by omega) (by omega), if_pos rfl]
  · simp [h]

theorem State.get_eq_nbits (s : State) (f : Fld) : s.get f = nbits (s.rdN f.reg) f.hi f.lo := rfl

/-- A write that acts from the next boundary leaves every value acted on as it was. -/
theorem State.act_wrCfg (s : State) (off n o : Nat) (h : o = off ∨ (s.wrCfg off n).rd o = s.rd o) : (s.wrCfg off n).act o = s.act o := by
  have hact : (s.wrCfg off n).acting = if s.acting.any fun e => e.1 == off then s.acting else s.acting ++ [(off, s.rd off)] := rfl
  cases hf : s.acting.find? fun e => e.1 == o with
  | some e =>
    have : (s.wrCfg off n).acting.find? (fun e => e.1 == o) = some e := by
      rw [hact]; split
      · exact hf
      · rw [List.find?_append, hf]; rfl
    simp only [State.act, this, hf]
  | none =>
    by_cases ho : o = off
    · subst ho
      have hany : (s.acting.any fun e => e.1 == o) = false := by
        rw [List.any_eq_false]; exact List.find?_eq_none.mp hf
      have : (s.wrCfg o n).acting.find? (fun e => e.1 == o) = some (o, s.rd o) := by
        rw [hact, hany, if_neg (by simp), List.find?_append, hf]; simp
      simp only [State.act, this, hf]
    · have : (s.wrCfg off n).acting.find? (fun e => e.1 == o) = none := by
        rw [hact]; split
        · exact hf
        · rw [List.find?_append, hf]; simp [Ne.symm ho]
      simp only [State.act, this, hf]
      exact h.resolve_left ho

theorem State.rd_wrCfg_other (s : State) (off n o : Nat) (h : o ≠ off) : (s.wrCfg off n).rd o = s.rd o := State.rd_wrN_other (s.setActing _) off o n h

/-- What a write of immediate fields does: the register reads the new value, and nothing else that is read or acted on changes. -/
theorem State.plain_spec (s : State) (off v : Nat) (hn : s.newVal off v < 2 ^ 64) :
    (s.plain off v).rdN off = s.newVal off v ∧ (∀ o, (s.plain off v).act o = s.act o) ∧ (∀ o, o ≠ off → (s.plain off v).rd o = s.rd o) ∧
      (s.plain off v).mem = s.mem ∧ (s.plain off v).hostMem = s.hostMem ∧ (s.plain off v).irqs = s.irqs := by
  unfold State.plain
  dsimp only
  split
  · next h => exact ⟨h.symm, fun _ => rfl, fun _ _ => rfl, rfl, rfl, rfl⟩
  · refine ⟨?_, fun o => s.act_wrCfg off _ o ?_, fun o ho => s.rd_wrCfg_other off _ o ho, rfl, rfl, rfl⟩
    · exact (State.rdN_wrN_same _ off _).trans (Nat.mod_eq_of_lt hn)
    · exact (em (o = off)).imp_right (s.rd_wrCfg_other off _ o)

/-! ### The IRQ register of a ring -/

/-- The row of a ring's IRQ register. -/
def irqRow : RegRow := ⟨0x3002c, [(4096, 0x40)], 32, 0x0, [(31, 20, .rw), (19, 12, .rw), (10, 0, .rw)]⟩

theorem regRow?_irq (r : Ring) : regRow? (RINGS_IRQ r) = some irqRow := by
  have hr := r.isLt
  have hat : regRowsAt (RINGS_IRQ r) = regRowsRINGS := by
    unfold regRowsAt RINGS_IRQ
    rw [if_neg (by omega), if_neg (by omega), if_neg (by omega), if_pos (by omega)]
  have hmiss : ∀ b, b < 0x2C → onGrid [(4096, 0x40)] (RINGS_IRQ r - (0x30000 + b)) = false := by
    intro b hb
    have : (RINGS_IRQ r - (0x30000 + b)) % 0x40 ≠ 0 := by unfold RINGS_IRQ; omega
    simp [onGrid, this]
  have hhit : onGrid [(4096, 0x40)] (RINGS_IRQ r - 0x3002c) = true := by
    rw [show RINGS_IRQ r - 0x3002c = 0x40 * r by unfold RINGS_IRQ; omega]
    simp [onGrid]
  have hle : 0x3002c ≤ RINGS_IRQ r := by unfold RINGS_IRQ; omega
  rw [regRow?, hat]
  simp only [regRowsRINGS, List.find?_cons, hmiss 0 (by omega), hmiss 0x8 (by omega), hmiss 0x10 (by omega), hmiss 0x14 (by omega), hmiss 0x18 (by omega),
    hmiss 0x1c (by omega), hmiss 0x20 (by omega), hmiss 0x24 (by omega), hmiss 0x28 (by omega), hhit, hle, Bool.and_false, decide_true, Bool.and_self]
  rfl

theorem maskOf_irq (r : Ring) (k : Access) : maskOf k (RINGS_IRQ r) = if k = .rw then 0xFFFFF7FF else 0 := by
  rw [maskOf, regRow?_irq]
  cases k <;> rfl

theorem State.newVal_irq (s : State) (r : Ring) (v : Nat) : s.newVal (RINGS_IRQ r) v = mergeNat (s.rdN (RINGS_IRQ r)) 0xFFFFF7FF v := by
  have hz : andNat v 0 = 0 := by simp [andNat]
  simp only [State.newVal, maskOf_irq, reduceCtorEq, if_false, if_true, Nat.add_zero, hz]
  rw [mergeNat_zero_mask _ _ (mergeNat_lt ..), mergeNat_zero_mask _ _ (mergeNat_lt ..)]

/-- The registers of the rings lie in SPINE. -/
theorem State.regDown_rings (s : State) (off : Nat) (hlo : 0x30000 ≤ off) (hhi : off < 0x100000) (hs : s.spineUp = true) : s.regDown off = false := by
  have hb : off / 0x100000 = 0 := by omega
  have hd : regDomain off = none := by
    have : ¬off < 0x810 := by omega
    simp [regDomain, hb, this]
  have h1 : off / 0x10000 ≠ 1 := by omega
  have h2 : off / 0x10000 / 16 = 0 := by omega
  simp [State.regDown, hd, hs, h1, h2]

/-- A write of a ring's IRQ register that lands, with a COUNT in range. -/
theorem State.wrBlock_irq (s : State) (q : Req) (r : Ring) (v : Nat) (hq : q.pfOrHost = true) (hc : nbits v 19 12 ≠ 0) :
    s.wrBlock q (RINGS_IRQ r) v = s.plain (RINGS_IRQ r) v := by
  have hr := r.isLt
  have hlo : 0x30000 ≤ RINGS_IRQ r ∧ RINGS_IRQ r < 0x70000 ∧ RINGS_IRQ r % 0x40 = 0x2C := by unfold RINGS_IRQ; omega
  obtain ⟨hlo, hhi, hmod⟩ := hlo
  have hring : s.wrRings q (RINGS_IRQ r) v = s.plain (RINGS_IRQ r) v := by
    unfold State.wrRings
    rw [hq, if_neg (by simp), if_neg (by unfold RINGS_RECEIPT_BASE; omega), if_neg (by unfold RINGS_RECEIPT_SIG_VALUE; omega),
      if_neg (by unfold RINGS_RECEIPT_BANK_OWNER; omega), if_neg (by unfold RINGS_RECEIPT_BASE; omega), hmod]
    show s.plain _ (vfix v (RINGS_IRQ_COUNT _) (· != 0) 1) = _
    rw [vfix, if_pos (by simpa [vbits, RINGS_IRQ_COUNT] using hc)]
  unfold State.wrBlock
  rw [if_neg (by omega), if_neg (by omega), if_neg (by omega), if_pos (by omega), hring]

theorem State.write32_irq (s : State) (q : Req) (r : Ring) (v : Nat) (hq : q.pfOrHost = true) (hs : s.spineUp = true) (hh : s.holdOf q = none)
    (hc : nbits v 19 12 ≠ 0) : s.write32 q (RINGS_IRQ r) v true = s.plain (RINGS_IRQ r) v := by
  have hr := r.isLt
  have hf : inFabWindow (RINGS_IRQ r) = false := by
    have : ¬0x980000 ≤ RINGS_IRQ r := by unfold RINGS_IRQ; omega
    simp [inFabWindow, this]
  have hw : irqRow.width ≠ 64 := by decide
  have happly : s.regApply q (RINGS_IRQ r) v true = s.wrBlock q (RINGS_IRQ r) v := by
    have hdown := s.regDown_rings (RINGS_IRQ r) (by unfold RINGS_IRQ; omega) (by unfold RINGS_IRQ; omega) hs
    simp [State.regApply, maskOf_irq, hdown]
  simp only [State.write32, hf, regRow?_irq, hw, Bool.false_eq_true, if_false, s.dropHold_none q none hh, happly, s.wrBlock_irq q r v hq hc]

theorem State.path_of_pfOrHost (s : State) (q : Req) (hq : q.pfOrHost = true) (hs : s.spineUp = true) : s.path q = true := by
  cases q <;> simp_all [Req.pfOrHost, State.path]

/-- Settles O7: the fields of IRQ are immediate ones, so the write is `State.plain`. -/
theorem registerWriteActsFromNextBoundary : Obligations.RegisterWriteActsFromNextBoundary := by
  intro q r v s hq hs hh hc
  have hr := r.isLt
  generalize hw : v % 2 ^ 32 = w
  have hcount : nbits w 19 12 ≠ 0 := by
    have : Word.bits (BitVec.ofNat 64 v) 19 12 = nbits w 19 12 := by
      simp only [Word.bits, nbits, BitVec.toNat_ofNat, ← hw]; omega
    omega
  have hstep : exec (.regWrite q (RINGS_IRQ r) 4 v) s = .next (s.plain (RINGS_IRQ r) w) := by
    rw [execRegWrite_next q _ 4 v s (by unfold RINGS_IRQ; omega) (by simp),
      s.regWrite_aligned32 q _ v (s.path_of_pfOrHost q hq hs) (by unfold RINGS_IRQ; omega), hw, s.write32_irq q r w hq hs hh hcount]
  obtain ⟨hrd, hact, hother, hmem, hhost, hirqs⟩ := s.plain_spec (RINGS_IRQ r) w (by rw [s.newVal_irq]; exact mergeNat_lt ..)
  have hfield : ∀ hi lo, hi < 64 → (∀ i, lo ≤ i → i ≤ hi → (0xFFFFF7FF).testBit i = true) →
      (s.plain (RINGS_IRQ r) w).get ⟨RINGS_IRQ r, hi, lo⟩ = nbits w hi lo := fun hi lo hh hm => by
    rw [State.get_eq_nbits, hrd, s.newVal_irq, nbits_mergeNat _ _ _ _ _ hh hm]
  refine ⟨_, hstep, ?_, ?_, ?_, hact _, fun o ho => ⟨hother o ho, hact o⟩, hmem, hhost, hirqs⟩
  · rw [RINGS_IRQ_VECTOR, hfield 10 0 (by decide) (by decide), ← hw, nbits]; omega
  · rw [RINGS_IRQ_COUNT, hfield 19 12 (by decide) (by decide), ← hw, nbits]; omega
  · rw [RINGS_IRQ_DELAY, hfield 31 20 (by decide) (by decide), ← hw, nbits]; omega

end Sys2Proof.Machine
end

section
/-! SUPPORT. What every command keeps: a property that the elementary updates keep (Laws/Closed.lean) and that outlives a power-on reset. One lemma per
operation of the model, in the model's order, each from those of the operations it is built from. -/

namespace Sys2Proof.Machine

/-- The next state, where a command answers one, has the property. -/
def AfterNext (P : State → Prop) : Host.Outcome State Fault Refusal → Prop
  | .next t => P t
  | _ => True

/-- The state that a failure carries has the property, and what a success gives is as `Q` says. -/
def AfterExcept {ε α : Type} (P : State → Prop) (Q : α → Prop) : Except (State × ε) α → Prop
  | .ok a => Q a
  | .error e => P e.1

namespace AfterExcept
variable {ε α β : Type} {P : State → Prop} {Q : α → Prop} {r : Except (State × ε) α} (h : AfterExcept P Q r)
include h

theorem ok {a : α} (e : r = .ok a) : Q a := by
  subst e; exact h

theorem error {x : State × ε} (e : r = .error x) : P x.1 := by
  subst e; exact h

theorem map {R : β → Prop} {f : α → β} (hf : ∀ a, Q a → R (f a)) : AfterExcept P R (r.map f) := by
  cases r with
  | ok a => exact hf a h
  | error x => exact h

end AfterExcept

/-- The state of a pair, where the pair is taken apart by a match. -/
theorem of_fst {α : Type} {P : State → Prop} {p : State × α} {t : State} {a : α} (h : P p.1) (e : p = (t, a)) : P t := by
  subst e; exact h

namespace Closed
variable {P : State → Prop} (h : Closed P) {s : State} (hs : P s)
include h hs

/-! ### Operations over registers and time -/

theorem clearNow {f} : P (s.clearNow f) := h.put _ _ _ (h.setActing _ _ hs)

/-! ### Operands and the addresses they name -/

theorem accReport {e} : P (s.accReport e) := by
  unfold State.accReport
  split
  · exact h.wrN _ _ _ (h.report _ _ hs)
  · exact h.report _ _ hs
  · exact h.report _ _ hs
  · exact h.report _ _ hs
  · exact hs

theorem setPoison {l} : P (s.setPoison l) := h.put _ _ _ (h.putPoison _ _ hs)

theorem writeLine {a b} : P (s.writeLine a b) :=
  h.ite _ (h.report _ _ hs) (h.ite _ (h.ite _ (h.wrMem _ _ _ (h.setPoison hs)) (h.report _ _ hs)) (h.wrMem _ _ _ hs))

theorem setFlip {a n} : P (s.setFlip a n) := h.setFloor _ _ hs

theorem eccWord {x} : P (s.eccWord x) := by
  unfold State.eccWord
  extract_lets cache s₁
  have hs₁ : P s₁ := h.setFlip hs
  split
  · exact hs
  · extract_lets s₂ f s₃
    have hs₂ : P s₂ := h.ite _ (h.put _ _ _ hs₁) (h.put _ _ _ hs₁)
    exact h.ite _ (h.report _ _ (h.put _ _ _ hs₂)) (h.report _ _ (h.putPoison _ _ (h.putB _ _ _ hs₂)))

theorem eccRead {a n} : P (s.eccRead a n) := h.each _ (fun _ _ hs₁ => h.eccWord hs₁) _ _ hs

theorem freshWord {w} : P (s.freshWord w) := by
  unfold State.freshWord
  extract_lets s₁
  have hs₁ : P s₁ := h.ite _ (h.setFlip hs) hs
  exact h.ite _ (h.putPoison _ _ hs₁) hs₁

theorem writeSram {a b} : P (s.writeSram a b) := by
  unfold State.writeSram
  extract_lets w s₁
  have hs₁ : P s₁ := h.eccRead hs
  exact h.ite _ (h.report _ _ hs) (h.ite _ (h.ite _ (h.wrMem _ _ _ (h.freshWord hs)) (h.ite _ hs₁ (h.wrMem _ _ _ hs₁))) hs)

theorem store {a b} : P (s.store a b) := h.ite _ (h.each _ (fun _ _ hs₁ => h.writeSram hs₁) _ _ hs) (h.each _ (fun _ _ hs₁ => h.writeLine hs₁) _ _ hs)
theorem zeroMem {a n} : P (s.zeroMem a n) := h.each _ (fun _ _ hs₁ => h.report _ _ hs₁) _ _ (h.setPoison (h.keepMem _ _ hs))

theorem fnWrite {f a b} : P (s.fnWrite f a b).1 := by
  unfold State.fnWrite
  split
  · exact h.accReport hs
  · exact h.store hs

theorem addrWrite {f a b} : P (s.addrWrite f a b).1 := by
  unfold State.addrWrite
  split
  · split
    · exact hs
    · split
      · dsimp only
        exact h.wrHost _ _ _ hs
      · dsimp only
        exact h.accReport hs
  · exact h.fnWrite hs

/-! ### What a register write does before it lands -/

theorem giveRead {n} : P (s.giveRead n) := h.setBus _ _ hs
theorem refuse {code off} : P (s.refuse code off) := h.report _ _ hs
theorem setHold {q h'} : P (s.setHold q h') := h.setBus _ _ hs

theorem dropHold {q reg} : P (s.dropHold q reg) := by
  unfold State.dropHold
  split
  · exact hs
  · exact h.ite _ (h.setHold hs) (h.refuse (h.setHold hs))

theorem landing {q reg} {f : State → State} (hf : ∀ u, P u → P (f u)) : P (s.landing q reg f) := by
  unfold State.landing
  refine h.ite _ ?_ hs
  extract_lets s₁
  have hs₁ : P s₁ := h.dropHold hs
  exact h.ite _ hs₁ (hf _ hs₁)

/-! ### The general lanes of the mesh -/

theorem meshBytes {k n} : P (s.meshBytes k n) := h.add64 _ _ _ hs
theorem meshMove {k who src dst n} : P (s.meshMove k who src dst n) := h.setFloor _ _ (h.meshBytes hs)
theorem meshEntry : P s.meshEntry := h.setFloor _ _ hs
theorem meshForget {r seq} : P (s.meshForget r seq) := h.setFloor _ _ hs

/-! ### DRAM traffic of the service classes -/

theorem memSpend {pays k units bytes} : P (s.memSpend pays k units bytes) := h.add64 _ _ _ (h.setMemc _ _ hs)

theorem serveMove {m} : P (s.serveMove m).1 := by
  unfold State.serveMove
  extract_lets u
  split
  · exact h.memSpend hs
  · extract_lets n
    split
    · exact h.memSpend hs
    · split
      · exact hs
      · exact h.memSpend hs

theorem serveClass {k l} : P (s.serveClass k l).1 := by
  induction l generalizing s with
  | nil => exact hs
  | cons m t ih =>
    rw [State.serveClass]
    split
    · exact ih (h.serveMove hs)
    · exact ih hs

theorem serveMoves : P s.serveMoves := h.each _ (fun _ _ hs₁ => h.setMemc _ _ (h.serveClass hs₁)) _ _ hs
theorem traffic {k who a n} : P (s.traffic k who a n) := h.ite _ (h.serveMoves (h.setMemc _ _ hs)) hs
theorem memForget {r seq} : P (s.memForget r seq) := h.setFloor _ _ (h.meshForget (h.setMemc _ _ hs))
theorem ringTraffic {r seq a n} : P (s.ringTraffic r seq a n) := h.traffic hs
theorem portRead {k who router a n} : P (s.portRead k who router a n) := h.ite _ (h.meshMove (h.traffic hs)) hs
theorem portWrite {k who router a n} : P (s.portWrite k who router a n) := h.ite _ (h.meshMove (h.traffic hs)) hs
theorem bulkTraffic {a n} : P (s.bulkTraffic a n) := h.traffic hs

/-! ### The firmware log ring -/

theorem ledgerOff : P s.ledgerOff := h.clearNow hs

theorem ledgerPut {e} : P (s.ledgerPut e) := by
  unfold State.ledgerPut
  extract_lets j a s₁
  have hs₁ : P s₁ := h.ite _ hs (h.traffic hs)
  split
  · next s' heq =>
    have hs' : P s' := of_fst (h.addrWrite hs₁) heq
    exact h.wrN _ _ _ hs'
  · next s' _ heq =>
    have hs' : P s' := of_fst (h.addrWrite hs₁) heq
    exact h.report _ _ (h.ledgerOff hs')

theorem ledger {e} : P (s.ledger e) := by
  unfold State.ledger
  refine h.ite _ hs (h.ite _ ?_ ?_)
  · extract_lets s'
    have hs' : P s' := h.addSat _ _ _ (h.setLedgerRun _ _ hs)
    exact h.ite _ (h.report _ _ hs') hs'
  · extract_lets s'
    have hs' : P s' := h.ite _ hs (h.ledgerPut (h.setLedgerRun _ _ hs))
    exact h.ite _ (h.ledgerPut hs') hs'

theorem stamp {id a0 a1 a2} : P (s.stamp id a0 a1 a2) := h.ledger hs

/-! ### Receipts -/

theorem signal {src i max? v} : P (s.signal src i max? v) := by
  unfold State.signal
  refine h.ite _ ?_ hs
  extract_lets c ops s' s'₁
  have hs'₁ : P s'₁ := h.setRnd _ _ (h.wrMem _ _ _ hs)
  exact h.ite _ (h.report _ _ (h.setBit _ _ _ _ hs'₁)) hs'₁

/-! ### Sending over the relay link -/

theorem relayOut {fwd p} : P (s.relayOut fwd p) := h.add64 _ _ _ (h.setRelay _ _ hs)

theorem relayPump {n} : P (s.relayPump n) := by
  induction n generalizing s with
  | zero => exact hs
  | succ n ih =>
    rw [State.relayPump]
    split
    · exact hs
    · exact ih (h.relayOut (h.setRelay _ _ hs))

theorem relayFlush : P s.relayFlush := h.relayPump hs
theorem relayGive {fwd p} : P (s.relayGive fwd p) := h.ite _ (h.relayFlush (h.setRelay _ _ hs)) hs
theorem relaySend {type dst flags tag addr payload} : P (s.relaySend type dst flags tag addr payload) := h.relayGive hs

theorem relayPackets {dst tag fin n addr b} : P (s.relayPackets dst tag fin n addr b) := by
  induction n generalizing s addr b with
  | zero => exact hs
  | succ n ih =>
    rw [State.relayPackets]
    exact h.ite _ (h.relaySend hs) (ih (h.relaySend hs))

theorem relayDown : P s.relayDown := h.report _ _ (h.setRelay _ _ (h.put _ _ _ (h.put _ _ _ hs)))
theorem relayWrite {ring seq a arrive b} : P (s.relayWrite ring seq a arrive b) := h.relayPackets (h.setRelay _ _ hs)
theorem relayForget {ring seq} : P (s.relayForget ring seq) := h.setRelay _ _ hs

/-! ### The ring engine -/

theorem setFlight {r seq g} : P (s.setFlight r seq g) := h.setRing _ _ _ hs
theorem countIrq {r} : P (s.countIrq r) := h.ite _ (h.irqTo _ _ _ _ (h.setRing _ _ _ hs)) (h.setRing _ _ _ hs)

theorem putRecord {r mk irq} : P (s.putRecord r mk irq) := by
  unfold State.putRecord
  extract_lets j s₁ s₂
  have hs₂ : P s₂ := h.wrN _ _ _ (h.traffic (h.addrWrite hs))
  exact h.ite _ (h.countIrq hs₂) hs₂

theorem flightRecord {r f} : P (s.flightRecord r f) := h.putRecord hs

theorem flushFlights {r l} : P (s.flushFlights r l) := by
  induction l generalizing s with
  | nil => exact hs
  | cons f t ih =>
    rw [State.flushFlights]
    exact h.ite _ (h.ite _ (ih (h.setRing _ _ _ hs)) (h.ite _ (ih (h.flightRecord (h.setRing _ _ _ hs))) hs)) hs

theorem flushUnsol {r l} : P (s.flushUnsol r l) := by
  induction l generalizing s with
  | nil => exact hs
  | cons u t ih =>
    rw [State.flushUnsol]
    exact h.ite _ (ih (h.putRecord (h.setRing _ _ _ hs))) hs

theorem flush {r} : P (s.flush r) := by
  unfold State.flush
  extract_lets s₁ s₂
  have hs₂ : P s₂ := h.flushUnsol (h.flushFlights hs)
  exact h.ite _ (h.putB _ _ _ hs₂) hs₂

theorem unsolicited {r u} : P (s.unsolicited r u) := h.ite _ (h.flush (h.setRing _ _ _ hs)) (h.report _ _ (h.putB _ _ _ hs))
theorem closeSessions {r} : P (s.closeSessions r) := h.setServe _ _ hs

theorem ringOff {r} : P (s.ringOff r) := by
  unfold State.ringOff
  extract_lets s₁ s₂ s₃
  have hs₂ : P s₂ := h.wrN _ _ _ (h.putB _ _ _ (h.put _ _ _ (h.closeSessions hs)))
  exact h.setRing _ _ _ (h.wrN _ _ _ (h.wrN _ _ _ (h.wrN _ _ _ (h.wrN _ _ _ hs₂))))

theorem ringSettle {r} : P (s.ringSettle r) := by
  unfold State.ringSettle
  refine h.ite _ ?_ hs
  extract_lets s₁
  have hs₁ : P s₁ := h.putB _ _ _ (h.putB _ _ _ (h.put _ _ _ hs))
  exact h.ite _ (h.ringOff hs₁) hs₁

theorem endStamp {r f status} : P (s.endStamp r f status) := h.ite _ (h.stamp hs) hs

theorem ringStopping {r} : P (s.ringStopping r) := by
  unfold State.ringStopping
  refine h.ite _ ?_ hs
  extract_lets gone n x s₁ s₂ s₃
  have hs₁ : P s₁ := h.setRing _ _ _ hs
  exact h.ringSettle (h.flush (h.add64 _ _ _ (h.put _ _ _ (h.each _ (fun _ _ hs₄ => h.endStamp hs₄) _ _ hs₁))))

theorem complete {r seq status result} : P (s.complete r seq status result) := by
  unfold State.complete
  extract_lets fails
  split
  · exact hs
  · refine h.ite _ hs ?_
    extract_lets s₁ s₂ s₃ s₄ s₅ s₆ s₇
    have hs₄ : P s₄ := h.add64 _ _ _ (h.setFlight (h.endStamp (h.ite _ (h.signal hs) hs)))
    have hs₆ : P s₆ := h.flush (h.ite _ (h.put _ _ _ hs₄) hs₄)
    exact h.ringSettle (h.ite _ (h.ringStopping hs₆) hs₆)

theorem finish {r seq status result} : P (s.finish r seq status result) := h.setFlight hs
theorem conclude {r seq status result} : P (s.conclude r seq status result) := h.ite _ (h.finish hs) (h.complete hs)
theorem cancelWaits {r} : P (s.cancelWaits r) := h.each _ (fun _ _ hs₁ => h.complete hs₁) _ _ hs
theorem ringStop {r} : P (s.ringStop r) := h.ite _ (h.cancelWaits (h.ringStopping (h.putB _ _ _ hs))) hs

/-! ### The districts -/

theorem setClerk {c k} : P (s.setClerk c k) := h.setFloor _ _ hs
theorem setXchan {c f} : P (s.setXchan c f) := h.setXp _ _ hs
theorem setDunit {d u} : P (s.setDunit d u) := h.putB _ _ _ (h.setFloor _ _ hs)
theorem holdDistrict {d} : P (s.holdDistrict d) := h.ite _ hs (h.setFloor _ _ (h.putB _ _ _ (h.setBit _ _ _ _ hs)))

theorem releaseHold {d} : P (s.releaseHold d) := by
  unfold State.releaseHold
  refine h.ite _ ?_ hs
  extract_lets s₁
  have hs₁ : P s₁ := h.setFloor _ _ (h.putB _ _ _ (h.setBit _ _ _ _ hs))
  exact h.ite _ (h.setFloor _ _ (h.putB _ _ _ hs₁)) hs₁

theorem setAllocs {d l} : P (s.setAllocs d l) := h.put _ _ _ (h.put _ _ _ (h.putB _ _ _ (h.setFloor _ _ hs)))

theorem zeroAlloc {d x} : P (s.zeroAlloc d x) := by
  unfold State.zeroAlloc
  extract_lets gone
  exact h.setFloor _ _ (h.putPoison _ _ (h.keepMem _ _ hs))

theorem clearRecord {d t} : P (s.clearRecord d t) := by
  unfold State.clearRecord
  extract_lets clear
  exact h.setFloor _ _ hs

theorem freeAlloc {d k} : P (s.freeAlloc d k) := by
  unfold State.freeAlloc
  split
  · exact hs
  · extract_lets s₁ s₂
    have hs₂ : P s₂ := h.each _ (fun _ _ hs₃ => h.clearRecord (h.wrN _ _ _ hs₃)) _ _ (h.setAllocs (h.zeroAlloc hs))
    exact h.ite _ (h.putB _ _ _ hs₂) hs₂

theorem outsideRead {a n} : P (s.outsideRead a n).1 := by
  unfold State.outsideRead
  split
  · dsimp only
    exact h.report _ _ hs
  · exact hs

theorem outsideWrite {a b} : P (s.outsideWrite a b) :=
  h.ite _ (h.report _ _ (h.each _ (fun _ _ hs₁ => h.ite _ hs₁ (h.store hs₁)) _ _ hs)) (h.store hs)

theorem giveAcc {dest x} : P (s.giveAcc dest x) := by
  unfold State.giveAcc
  split
  · exact h.setLinks _ _ hs
  · exact h.setMemc _ _ hs
  · exact h.setFab _ _ hs

theorem sramServe {k a op dest} : P (s.sramServe k a op dest) := by
  unfold State.sramServe
  extract_lets d
  split
  · exact h.giveAcc (h.outsideWrite (h.meshMove hs))
  · extract_lets s₁
    have hs₁ : P s₁ := h.eccRead (h.meshMove hs)
    exact h.ite _ (h.giveAcc hs₁) (h.giveAcc (h.outsideRead hs₁))

theorem sramAccess {k a op dest} : P (s.sramAccess k a op dest) := by
  unfold State.sramAccess
  split
  · exact h.setFloor _ _ hs
  · exact h.sramServe hs

theorem serveHeld {d} : P (s.serveHeld d) := h.ite _ hs (h.each _ (fun _ _ hs₂ => h.sramServe hs₂) _ _ (h.setFloor _ _ hs))
theorem setRun {ring seq g} : P (s.setRun ring seq g) := h.setFloor _ _ hs
theorem setDrun {ring seq d g} : P (s.setDrun ring seq d g) := h.setRun hs

theorem debugEnd {r status x} : P (s.debugEnd r status x) := by
  unfold State.debugEnd
  extract_lets s₁ s₂ s₃
  have hs₂ : P s₂ := h.putB _ _ _ (h.put _ _ _ (h.put _ _ _ (h.setFloor _ _ hs)))
  have hs₃ : P s₃ := by
    unfold s₃
    split
    · exact h.put _ _ _ (h.put _ _ _ (h.putB _ _ _ hs₂))
    · exact h.putB _ _ _ hs₂
  exact h.ite _ (h.holdDistrict hs₃) hs₃

theorem writeEvents {r} : P (s.writeEvents r) := by
  unfold State.writeEvents
  split
  · exact hs
  · exact h.addrWrite hs

theorem syncWaits {d} : P (s.syncWaits d) := h.putB _ _ _ hs

theorem clearSteps {r x} : P (s.clearSteps r x) := by
  unfold State.clearSteps
  extract_lets mine
  exact h.setFloor _ _ hs

theorem endRun {r status result} : P (s.endRun r status result) := by
  unfold State.endRun
  extract_lets s₁ s₂ s₃ s₄ s₅ s₆ s₇ s₈
  have hs₂ : P s₂ := h.each _ (fun _ _ hs₉ => h.debugEnd hs₉) _ _ (h.ite _ (h.writeEvents hs) hs)
  have hs₄ : P s₄ := h.relayForget (h.setFloor _ _ (h.each _ (fun _ _ hs₉ => h.clearSteps hs₉) _ _ hs₂))
  have hs₆ : P s₆ := h.each _ (fun _ _ hs₉ => h.setXchan hs₉) _ _ (h.each _ (fun _ _ hs₉ => h.syncWaits hs₉) _ _ hs₄)
  have hs₇ : P s₇ := h.ite _ (h.setFloor _ _ hs₆) hs₆
  exact h.finish (h.ite _ (h.report _ _ hs₇) hs₇)

theorem runSettle {ring seq} : P (s.runSettle ring seq) := by
  unfold State.runSettle
  split
  · exact hs
  · exact h.ite _ hs (h.ite _ (h.endRun hs) hs)

theorem failRun {ring seq status result} : P (s.failRun ring seq status result) := h.runSettle (h.setRun hs)

theorem closeUnit {d} : P (s.closeUnit d) := by
  unfold State.closeUnit
  extract_lets s₁ s₂
  have hs₁ : P s₁ := by
    unfold s₁
    split
    · exact h.each _ (fun _ _ hs₃ => h.ite _ hs₃ (h.setClerk hs₃)) _ _ hs
    · exact hs
  have hs₂ : P s₂ := h.ite _ (h.each _ (fun _ _ hs₃ => h.setXchan hs₃) _ _ hs₁) hs₁
  exact h.serveHeld (h.setUnit _ _ _ (h.setDunit hs₂))

theorem closeBand {d c} : P (s.closeBand d c) := by
  unfold State.closeBand
  split
  · exact hs
  · extract_lets s₁
    have hs₁ : P s₁ := h.setXchan (h.each _ (fun _ _ hs₂ => h.setClerk hs₂) _ _ hs)
    exact h.ite _ (h.closeUnit hs₁) hs₁

theorem stopUnitOf {d l} : P (s.stopUnitOf d l) := h.ite _ (h.each _ (fun _ _ hs₁ => h.closeBand hs₁) _ _ hs) (h.closeUnit hs)

theorem haltMark {c poison} : P (s.haltMark c poison) := by
  unfold State.haltMark
  extract_lets d l x s₁
  have hs₁ : P s₁ := h.put _ _ _ (h.setClerk hs)
  exact h.ite _ (h.report _ _ (h.putB _ _ _ (h.put _ _ _ hs₁))) (h.report _ _ (h.putB _ _ _ hs₁))

theorem haltClerk {c poison} : P (s.haltClerk c poison) := by
  unfold State.haltClerk
  extract_lets d l s₁
  have hs₁ : P s₁ := h.haltMark hs
  split
  · exact hs₁
  · exact h.failRun (h.stopUnitOf (h.setDrun hs₁))

/-! ### The clerk and its array -/

theorem slotRead {c a n} : P (s.slotRead c a n).1 := by
  unfold State.slotRead
  extract_lets s₁
  split
  · exact hs
  · split <;> exact h.eccRead hs

omit hs in
theorem issueArray {c cyc old x} {z : Issue} (hz : P z.s) : P (Issue.array c cyc old x z).s := by
  unfold Issue.array
  extract_lets d words wa wb n
  split
  · extract_lets kept fresh ra rb fin a r run x₃ k s s₁ s₂
    have hrb : P rb.1 := h.slotRead (h.slotRead hz)
    have hs : P s := h.add64 _ _ _ (h.add64 _ _ _ hrb)
    have hs₁ : P s₁ := h.ite _ (h.putB _ _ _ hs) hs
    split
    · exact hz
    · split
      · exact hrb
      · exact h.ite _ (h.putB _ _ _ hs₁) hs₁
  · exact hz

omit h hs in
theorem issueVector {c cyc old v} {z : Issue} (hz : P z.s) : P (Issue.vector c cyc old v z).s := by
  unfold Issue.vector
  extract_lets legal r x k
  split <;> exact hz

omit hs in
theorem issueLoad {c cyc old dst} {z : Issue} (hz : P z.s) : P (Issue.load c cyc old dst z).s := by
  unfold Issue.load
  extract_lets x k
  split
  · exact hz
  · extract_lets due
    split
    · split <;> exact hz
    · split <;> exact hz
    · extract_lets r b
      split
      · exact hz
      · split <;> exact h.slotRead hz

omit h hs in
theorem issueStore {c cyc old load v} {z : Issue} (hz : P z.s) : P (Issue.store c cyc old load v z).s := by
  unfold Issue.store
  extract_lets b x
  split
  · exact hz
  · extract_lets k₁ wait same due
    split <;> exact hz

omit h hs in
theorem issueHandOff {cyc old f} {z : Issue} (hz : P z.s) : P (Issue.handOff cyc old f z).s := hz

omit h hs in
theorem issueMove {cyc old m} {z : Issue} (hz : P z.s) : P (Issue.move cyc old m z).s := by
  unfold Issue.move
  split
  · exact issueHandOff hz
  · split <;> exact hz

omit h hs in
theorem withSlot {α : Type} {z : Issue} (hz : P z.s) {o} {f : α → Issue → Issue}
    (hf : ∀ x z, P z.s → P (f x z).s) : P (withSlot o f z).s := by
  unfold Machine.withSlot
  split
  · exact hf _ _ hz
  · exact hz

theorem issueWord {c cyc w} : P (s.issueWord c cyc w) := by
  unfold State.issueWord
  extract_lets old z z₁ z₂ z₃ z₄ x k s₁
  have hz₁ : P z₁.s := withSlot (withSlot hs (fun _ _ hx₂ => h.issueArray hx₂)) (fun _ _ hx₂ => h.issueLoad hx₂)
  have hz₃ : P z₃.s := withSlot (withSlot hz₁ (fun _ _ hx₂ => issueStore hx₂)) (fun _ _ hx₂ => issueVector hx₂)
  have hs₁ : P s₁ := h.setClerk (withSlot hz₃ (fun _ _ hx₂ => issueMove hx₂))
  split
  · exact hs₁
  · exact h.haltClerk hs₁
  · exact h.haltClerk hs₁

theorem dueStores {c cyc} : P (s.dueStores c cyc) := h.each _ (fun _ _ hs₂ => h.store hs₂) _ _ (h.setClerk hs)

theorem refetch {c pc len src} : P (s.refetch c pc len src) := by
  unfold State.refetch
  extract_lets s₁ k
  have hs₁ : P s₁ := h.eccRead hs
  exact h.ite _ (h.haltClerk hs₁) (h.setClerk hs₁)

theorem clerkCycle {c cyc} : P (s.clerkCycle c cyc) := h.setClerk (h.dueStores hs)
theorem freeze {c cyc dry} : P (s.freeze c cyc dry) := h.add64 _ _ _ (h.setClerk hs)

theorem wordGo {c cyc pc w} : P (s.wordGo c cyc pc w) :=
  h.ite _ hs (h.ite _ (h.freeze hs) (h.ite _ (h.freeze hs) (h.ite _ hs (h.issueWord (h.setClerk hs)))))

theorem wordIssue {c cyc pc w} : P (s.wordIssue c cyc pc w) := by
  unfold State.wordIssue
  extract_lets k mine s₁ x
  have hs₁ : P s₁ := h.clerkCycle hs
  refine h.ite _ hs ?_
  split
  · exact h.haltClerk (h.setClerk hs₁)
  · extract_lets s₂ x₂
    have hs₂ : P s₂ := h.ite _ hs₁ (h.refetch hs₁)
    exact h.ite _ hs₂ (h.ite _ (h.haltClerk (h.setClerk hs₂)) (h.wordGo hs₂))

theorem execWordIssue {c cyc pc w} : AfterNext P (execWordIssue c cyc pc w s) := h.wordIssue hs
theorem execDistrictBarrier {d} : AfterNext P (execDistrictBarrier d s) := h.each _ (fun _ _ hs₁ => h.ite _ (h.setClerk hs₁) hs₁) _ _ hs

theorem execScrubRead {addr bad} : AfterNext P (execScrubRead addr bad s) := by
  unfold Machine.execScrubRead
  extract_lets a
  split
  · exact hs
  · extract_lets s₁
    have hs₁ : P s₁ := h.ite _ hs (h.setFlip hs)
    exact h.ite _ (h.eccRead hs₁) hs₁

/-! ### The transaction unit -/

theorem setOwner {o x} : P (s.setOwner o x) := h.put _ _ _ (h.setTxn _ _ hs)
theorem freeOwner {o status} : P (s.freeOwner o status) := h.wrN _ _ _ (h.wrN _ _ _ (h.setOwner hs))

theorem txnOpen {h' o} : P (s.txnOpen h' o).1 := by
  unfold State.txnOpen
  extract_lets s₁ s₂
  split
  · exact hs
  · split
    · exact hs
    · exact h.setOwner (h.wrN _ _ _ (h.wrN _ _ _ (h.wrN _ _ _ hs)))

theorem txnReturn {h' o} : P (s.txnReturn h' o).1 := by
  unfold State.txnReturn
  split
  · exact h.freeOwner hs
  · exact hs

theorem txnSeal {o env} : P (s.txnSeal o env) := by
  unfold State.txnSeal
  extract_lets x s₁
  exact h.setTxn _ _ (h.put _ _ _ (h.setOwner hs))

theorem record {o off v} : P (s.record o off v) := h.ite _ hs (h.ite _ (h.setOwner hs) (h.ite _ (h.setOwner hs) (h.report _ _ (h.put _ _ _ hs))))
theorem setHalf {k h'} : P (s.setHalf k h') := h.put _ _ _ (h.setTxn _ _ hs)
theorem orphan {off} : P (s.orphan off) := h.addSat _ _ _ (h.report _ _ hs)

theorem dropHalf {k} : P (s.dropHalf k) := by
  unfold State.dropHalf
  split
  · exact hs
  · exact h.orphan (h.setHalf hs)

theorem mate {k a b} : P (s.mate k a b) := by
  unfold State.mate
  extract_lets s₁
  exact h.setTxn _ _ (h.setHalf hs)

theorem pairWrite {w off v} : P (s.pairWrite w off v) := by
  unfold State.pairWrite
  extract_lets k second v₁
  split
  · exact h.setHalf hs
  · exact h.ite _ (h.report _ _ hs) (h.ite _ (h.setHalf hs) (h.ite _ (h.mate hs) (h.mate hs)))

theorem pairBoth {w k a b} : P (s.pairBoth w k a b) := by
  unfold State.pairBoth
  extract_lets go
  have hgo : P go := h.mate hs
  split
  · exact hgo
  · exact h.ite _ (h.report _ _ hs) hgo

theorem shplWrite {q off v} : P (s.shplWrite q off v) := by
  unfold State.shplWrite
  extract_lets m s₁
  have hs₁ : P s₁ := h.ite _ (h.report _ _ hs) hs
  split
  · exact h.record hs
  · exact h.ite _ hs₁ (h.pairWrite hs₁)

theorem loseHolder {h'} : P (s.loseHolder h') := by
  unfold State.loseHolder
  extract_lets s₁
  have hs₁ : P s₁ := by
    unfold s₁
    split
    · exact h.ite _ (h.report _ _ (h.freeOwner hs)) hs
    · exact hs
  refine h.each _ (fun s₂ x₁ hs₂ => ?_) _ _ hs₁
  split
  · exact h.ite _ (h.dropHalf hs₂) hs₂
  · exact hs₂

theorem pairsLeave {d} : P (s.pairsLeave d) := by
  unfold State.pairsLeave
  extract_lets s₁ gone s₂
  have hs₁ : P s₁ := h.each _ (fun _ _ hs₃ => h.ite _ (h.dropHalf hs₃) hs₃) _ _ hs
  exact h.each _ (fun _ _ hs₃ => h.orphan hs₃) _ _ (h.setTxn _ _ hs₁)

theorem txnReset : P s.txnReset := h.setTxn _ _ hs

/-! ### Commands of the transaction unit -/

theorem setCmd {h' status} : P (s.setCmd h' status) := h.setTxn _ _ hs

omit hs in
theorem cmdAnswer {h'} {r} (hr : P r.1) : P (State.cmdAnswer h' r) := h.setCmd hr

theorem txnEnv {r seq op} {act : State → ℕ → Sys2Proof.Bytes → State} (hact : ∀ u x1 x2, P u → P (act u x1 x2)) : P (s.txnEnv r seq op act) := by
  unfold State.txnEnv
  split
  · exact hs
  · refine h.ite _ hs ?_
    split
    · exact h.complete hs
    · exact hact _ _ _ hs

theorem execTxnOpen {w} : AfterNext P (execTxnOpen w s) := by
  unfold Machine.execTxnOpen
  split
  · refine h.landing hs (fun s₁ hs₁ => ?_)
    split
    · exact h.cmdAnswer (h.txnOpen hs₁)
    · exact hs₁
  · exact h.txnEnv hs (fun _ _ _ hs₁ => h.complete (h.txnOpen hs₁))

theorem execTxnReturn {w} : AfterNext P (execTxnReturn w s) := by
  unfold Machine.execTxnReturn
  split
  · refine h.landing hs (fun s₁ hs₁ => ?_)
    split
    · exact h.cmdAnswer (h.txnReturn hs₁)
    · exact hs₁
  · exact h.txnEnv hs (fun _ _ _ hs₁ => h.complete (h.txnReturn hs₁))

theorem execTxnSeal {w} : AfterNext P (execTxnSeal w s) := by
  unfold Machine.execTxnSeal
  split
  · refine h.landing hs (fun s₁ hs₁ => ?_)
    split
    · exact h.ite _ (h.txnSeal hs₁) (h.setCmd hs₁)
    · exact hs₁
  · exact h.txnEnv hs (fun _ _ _ hs₁ => h.ite _ (h.txnSeal hs₁) (h.complete hs₁))

theorem recordList {f o l} : P (s.recordList f o l) := h.each _ (fun _ _ hs₁ => h.ite _ (h.record hs₁) hs₁) _ _ hs

theorem writeList {f o l} : P (s.writeList f o l).1 := by
  unfold State.writeList
  extract_lets s₁
  split
  · exact hs
  · split
    · exact hs
    · split <;> exact h.recordList hs

theorem execTxnWrites {r seq} : AfterNext P (execTxnWrites r seq s) := by
  unfold Machine.execTxnWrites
  refine h.txnEnv hs (fun s₁ h₁ e₁ hs₁ => ?_)
  extract_lets o f n x
  refine h.ite _ (h.complete hs₁) (h.ite _ (h.complete (h.writeList hs₁)) (h.ite _ (h.complete hs₁) ?_))
  split
  · exact h.complete (h.accReport hs₁)
  · exact h.conclude (h.writeList (h.ringTraffic hs₁))

theorem execTxnExpired {o} : AfterNext P (execTxnExpired o s) := h.ite _ (h.report _ _ (h.freeOwner hs)) hs

theorem execPairOrphan {p} : AfterNext P (execPairOrphan p s) := by
  unfold Machine.execPairOrphan
  split
  · exact h.ite _ (h.dropHalf hs) hs
  · exact hs

/-! ### Parcels -/

theorem readFail {e} : P (s.readFail e).1 := h.accReport hs

theorem readHeader {f a} : AfterExcept P (fun _ => True) (s.readHeader f a) := by
  unfold State.readHeader
  split
  · exact h.readFail hs
  · split
    · exact hs
    · split
      · exact hs
      · split
        · exact hs
        · split
          · exact hs
          · exact trivial

theorem readImage {f a} : AfterExcept P (fun _ => True) (s.readImage f a) := by
  unfold State.readImage
  split
  · next e heq =>
    have he : P e.1 := (h.readHeader hs).error heq
    exact he
  · split
    · exact hs
    · split
      · exact h.readFail hs
      · extract_lets m
        split
        · exact hs
        · split
          · exact hs
          · exact trivial

theorem argCheck {f m env expressRing} : AfterExcept P (fun _ => True) (s.argCheck f m env expressRing) := by
  unfold State.argCheck
  extract_lets e
  split
  · exact hs
  · split
    · exact h.readFail hs
    · split
      · exact hs
      · split
        · exact hs
        · exact trivial

theorem bodyCheck {f a mask m b} : AfterExcept P (fun _ => True) (s.bodyCheck f a mask m b) := by
  unfold State.bodyCheck
  extract_lets new
  split
  · exact trivial
  · split
    · exact h.readFail hs
    · split
      · exact hs
      · split
        · exact trivial
        · refine h.each _ (fun s₁ x₂ hs₁ => ?_) _ _ hs
          split
          · exact h.zeroAlloc hs₁
          · exact hs₁

theorem initWalk {d e} : P (s.initWalk d e) := h.wrN _ _ _ (h.clearRecord hs)
theorem loadPart {r seq d src p} : P (s.loadPart r seq d src p) := h.store (h.add64 _ _ _ (h.ite _ (h.traffic hs) (h.portRead hs)))

theorem allocate {r seq src d m b body} : P (s.allocate r seq src d m b body) := by
  unfold State.allocate
  refine h.ite _ hs ?_
  split
  · exact hs
  · extract_lets s₁ s₂ s₃
    have hs₂ : P s₂ := h.each _ (fun _ _ hs₄ => h.wrN _ _ _ hs₄) _ _ (h.setAllocs hs)
    exact h.each _ (fun _ _ hs₄ => h.loadPart hs₄) _ _ (h.each _ (fun _ _ hs₄ => h.initWalk hs₄) _ _ hs₂)

theorem setBrk {r b} : P (s.setBrk r b) := h.setRing _ _ _ hs

theorem beginRun {x mark} : P (s.beginRun x mark) := by
  unfold State.beginRun
  extract_lets t s₁
  have hs₁ : P s₁ := h.setFloor _ _ (h.setBrk hs)
  exact h.ite _ (h.failRun hs₁) hs₁

theorem tableTraffic {r seq a h'} : P (s.tableTraffic r seq a h') := h.each _ (fun _ _ hs₁ => h.ringTraffic hs₁) _ _ (h.ringTraffic hs)

theorem imageTraffic {r seq env h'} : P (s.imageTraffic r seq env h') := by
  unfold State.imageTraffic
  extract_lets s₁
  have hs₁ : P s₁ := h.tableTraffic hs
  exact h.ite _ hs₁ (h.ringTraffic hs₁)

theorem runRoom {r seq env b m g} : P (s.runRoom r seq env b m g) := by
  unfold State.runRoom
  extract_lets f mask wait go x
  have hwait : P wait := h.setFloor _ _ hs
  have hgo : P go := h.setFloor _ _ hs
  split
  · exact h.ite _ hwait (h.complete hgo)
  · refine h.ite _ hwait ?_
    split
    · exact h.complete hgo
    · refine h.ite _ hwait ?_
      split
      · next e heq₂ =>
        have he : P e.1 := (h.bodyCheck hgo).error heq₂
        exact h.complete he
      · exact h.beginRun (h.each _ (fun _ _ hs₁ => h.allocate hs₁) _ _ hgo)

theorem runEnvelope {r seq env b} : P (s.runEnvelope r seq env b) := by
  unfold State.runEnvelope
  split
  · next x₁ heq =>
    have hx₁ : P x₁.1 := (h.readImage hs).error heq
    exact h.complete hx₁
  · split
    · next x₂ heq₁ =>
      have hx₂ : P x₂.1 := (h.argCheck hs).error heq₁
      exact h.complete hx₂
    · exact h.runRoom (h.imageTraffic hs)

theorem runGo {r seq env b} : P (s.runGo r seq env b) := by
  unfold State.runGo
  split
  · exact h.runRoom hs
  · exact h.runEnvelope hs

theorem execRun {r seq b} : AfterNext P (execRun r seq b s) := by
  unfold Machine.execRun
  split
  · exact h.ite _ hs (h.runGo hs)
  · exact hs

theorem releaseEnvelope {r seq env} : P (s.releaseEnvelope r seq env) := by
  unfold State.releaseEnvelope
  extract_lets mask
  split
  · next x₁ heq =>
    have hx₁ : P x₁.1 := (h.readImage hs).error heq
    exact h.complete hx₁
  · extract_lets s₁ k ds
    have hs₁ : P s₁ := h.imageTraffic hs
    split
    · exact h.complete hs₁
    · exact h.ite _ hs₁ (h.ite _ (h.complete hs₁) (h.complete (h.each _ (fun _ _ hs₂ => h.freeAlloc hs₂) _ _ hs₁)))

theorem execRunRelease {r seq} : AfterNext P (execRunRelease r seq s) := by
  unfold Machine.execRunRelease
  split
  · exact h.ite _ (h.releaseEnvelope hs) hs
  · exact hs

/-! ### Commands of the districts -/

theorem copyRead {f a n} : AfterExcept P (fun a => P a.1) (s.copyRead f a n) := by
  unfold State.copyRead
  extract_lets s₁
  have hs₁ : P s₁ := h.eccRead hs
  split
  · exact hs
  · split
    · exact h.accReport hs
    · split
      · exact hs
      · split
        · exact hs₁
        · exact h.outsideRead hs₁

theorem copyWrite {r seq a b} : AfterExcept P P (s.copyWrite r seq a b) := by
  unfold State.copyWrite
  extract_lets f
  split
  · split
    · exact h.relayWrite hs
    · exact hs
  · split
    · exact h.accReport hs
    · exact h.ite _ (h.wrHost _ _ _ hs) (h.outsideWrite hs)

theorem readRows {f n l} : AfterExcept P (fun a => P a.1) (s.readRows f n l) := by
  induction l generalizing s with
  | nil => exact hs
  | cons a t ih =>
    rw [State.readRows]
    split
    · next heq => exact (h.copyRead hs).error heq
    · next y heq =>
      have hy : P y.1 := (h.copyRead hs).ok heq
      split
      · next heq₁ => exact (ih hy).error heq₁
      · next z heq₁ =>
        have hz : P z.1 := (ih hy).ok heq₁
        exact hz

theorem copyTraffic {r seq a n} : P (s.copyTraffic r seq a n) := h.traffic hs

theorem copyCost {r seq e src dst n} : P (s.copyCost r seq e src dst n) := by
  unfold State.copyCost
  extract_lets k s₁
  have hs₁ : P s₁ := h.copyTraffic hs
  split
  · exact hs₁
  · extract_lets s₂
    have hs₂ : P s₂ := h.add64 _ _ _ hs₁
    exact h.ite _ hs₂ (h.meshMove hs₂)

theorem copyItem {r seq e x} : AfterExcept P P (s.copyItem r seq e x) := by
  unfold State.copyItem
  split
  · split
    · next e₁ heq =>
      have he₁ : P e₁.1 := (h.copyRead hs).error heq
      exact he₁
    · next y heq =>
      have hy : P y.1 := (h.copyRead hs).ok heq
      exact AfterExcept.map (h.copyWrite hy) (fun s₁ hs₁ => h.copyCost (h.copyTraffic hs₁))
  · extract_lets rows dst
    split
    · next e₁ heq =>
      have he₁ : P e₁.1 := (h.readRows hs).error heq
      exact he₁
    · next z heq =>
      have hz : P z.1 := (h.readRows hs).ok heq
      exact AfterExcept.map (h.copyWrite hz) (fun s₁ hs₁ => h.copyCost (h.each _ (fun _ _ hs₂ => h.copyTraffic hs₂) _ _ hs₁))

theorem copyGo {r seq e l} : AfterExcept P P (s.copyGo r seq e l) := by
  induction l generalizing s with
  | nil => exact hs
  | cons x t ih =>
    rw [State.copyGo]
    split
    · exact hs
    · split
      · next heq => exact (h.copyItem hs).error heq
      · next heq => exact ih (h.setFlight ((h.copyItem hs).ok heq))

theorem copyEnd {r seq} : P (s.copyEnd r seq) := by
  unfold State.copyEnd
  split
  · exact h.ite _ (h.finish hs) hs
  · exact hs

theorem copyEnvelope {r seq e prog} : P (s.copyEnvelope r seq e prog) := by
  unfold State.copyEnvelope
  refine h.ite _ (h.complete hs) (h.ite _ (h.complete hs) (h.ite _ (h.setFlight hs) ?_))
  split
  · next y heq =>
    have hy : P y.1 := (h.copyGo hs).error heq
    exact h.complete (h.memForget (h.relayForget hy))
  · next s' heq =>
    have hs' : P s' := (h.copyGo hs).ok heq
    exact h.copyEnd hs'

theorem execCopy {r seq} : AfterNext P (execCopy r seq s) := by
  unfold Machine.execCopy
  split
  · exact h.copyEnvelope hs
  · exact hs

theorem arrive {d counter n} : P (s.arrive d counter n) := by
  unfold State.arrive
  extract_lets s₁
  have hs₁ : P s₁ := h.add64 _ _ _ hs
  split
  · exact h.addSat _ _ _ hs₁
  · exact hs₁

theorem inboundPut {r seq from_ addr counter b} : AfterExcept P P (s.inboundPut r seq from_ addr counter b) := by
  unfold State.inboundPut
  split
  · split
    · exact hs
    · split
      · dsimp only [AfterExcept]
        exact h.accReport hs
      · split
        · exact hs
        · split
          · exact hs
          · exact h.meshMove (h.arrive (h.store hs))
  · exact hs

theorem inbound {r seq from_ addr counter b} : P (s.inbound r seq from_ addr counter b) := by
  unfold State.inbound
  split
  · next s' heq =>
    have hs' : P s' := (h.inboundPut hs).ok heq
    exact h.add64 _ _ _ hs'
  · next e heq =>
    have he : P e.1 := (h.inboundPut hs).error heq
    exact h.failRun he

theorem execInboundWrite {r seq from_ addr counter data} : AfterNext P (execInboundWrite r seq from_ addr counter data s) := by
  unfold Machine.execInboundWrite
  split
  · exact h.ite _ (h.inbound hs) hs
  · exact hs

theorem execArrivalTimeout {d r seq} : AfterNext P (execArrivalTimeout d r seq s) := by
  unfold Machine.execArrivalTimeout
  split
  · split
    · exact h.ite _ (h.failRun (h.syncWaits (h.setDrun hs))) hs
    · exact hs
  · exact hs

theorem execRelayWriteTimeout {r seq} : AfterNext P (execRelayWriteTimeout r seq s) := by
  unfold Machine.execRelayWriteTimeout
  refine h.ite _ hs (h.ite _ (h.failRun hs) ?_)
  split
  · exact h.finish (h.relayForget hs)
  · exact hs

theorem walkWrite {q d rec v} : P (s.walkWrite q d rec v) := h.ite _ (h.setFloor _ _ hs) hs
theorem execWalkKWrite {q d rec v} : AfterNext P (execWalkKWrite q d rec v s) := h.landing hs (fun _ hs₁ => h.walkWrite hs₁)
theorem walkCeiling {d rec event} : P (s.walkCeiling d rec event) := h.ite _ (h.report _ _ (h.setBit _ _ _ _ hs)) hs

theorem walkUpdate {d rec event written} : P (s.walkUpdate d rec event written) :=
  h.ite _ hs (h.ite _ (h.put _ _ _ (h.put _ _ _ hs)) (h.ite _ (h.ite _ (h.put _ _ _ (h.put _ _ _ hs)) (h.put _ _ _ hs)) hs))

theorem walkBoundary {d rec event written} : P (s.walkBoundary d rec event written) := by
  unfold State.walkBoundary
  refine h.ite _ hs ?_
  extract_lets s₁ p s₂
  have hs₁ : P s₁ := h.walkCeiling (h.putB _ _ _ hs)
  refine h.ite _ hs₁ ?_
  split
  · exact h.put _ _ _ (h.put _ _ _ (h.setFloor _ _ hs₁))
  · exact h.walkUpdate hs₁

theorem postmark {r seq action} {act : State → Sys2Proof.Bytes → State} (hact : ∀ u x1, P u → P (act u x1)) : P (s.postmark r seq action act) := by
  unfold State.postmark
  split
  · exact hs
  · exact h.ite _ hs (h.ite _ (h.complete hs) (h.complete (hact _ _ hs)))

theorem execPostmarkMark {r seq} : AfterNext P (execPostmarkMark r seq s) := h.postmark hs (fun _ _ hs₁ => h.stamp hs₁)
theorem execArmBreakOnTag {r seq} : AfterNext P (execArmBreakOnTag r seq s) := h.postmark hs (fun _ _ hs₁ => h.setBrk hs₁)
theorem execArmBreakOnCount {r seq} : AfterNext P (execArmBreakOnCount r seq s) := h.postmark hs (fun _ _ hs₁ => h.setBrk hs₁)
theorem execDisarm {r seq} : AfterNext P (execDisarm r seq s) := h.postmark hs (fun _ _ hs₁ => h.setBrk hs₁)
theorem releaseWrite {q v} : P (s.releaseWrite q v) := h.ite _ (h.setFloor _ _ hs) hs
theorem execDebugRelease {q v} : AfterNext P (execDebugRelease q v s) := h.landing hs (fun _ hs₁ => h.releaseWrite hs₁)
theorem releaseBoundary : P s.releaseBoundary := h.each _ (fun _ _ hs₁ => h.releaseHold hs₁) _ _ (h.setFloor _ _ hs)

theorem execDebugHoldExpired {d} : AfterNext P (execDebugHoldExpired d s) := by
  unfold Machine.execDebugHoldExpired
  extract_lets n
  split
  · exact h.ite _ (h.report _ _ (h.releaseHold hs)) hs
  · exact hs

theorem selWrite {q v} : P (s.selWrite q v) := h.ite _ (h.setFloor _ _ (h.wrN _ _ _ hs)) hs
theorem execDbgSelWrite {q v} : AfterNext P (execDbgSelWrite q v s) := h.landing hs (fun _ hs₁ => h.selWrite hs₁)
theorem dbgBoundary : P s.dbgBoundary := h.ite _ hs (h.setFloor _ _ (h.putB _ _ _ hs))

/-! ### Steps of a parcel -/

theorem writeSeq {d ring seq clerks p} : P (s.writeSeq d ring seq clerks p) :=
  h.ite _ hs (h.each _ (fun _ _ hs₂ => h.setClerk hs₂) _ _ (h.setFloor _ _ hs))

theorem moveBad {a} : P (s.moveBad a).1 := h.ite _ (h.haltMark hs) hs

theorem moveRead {ring seq d x a n} : AfterExcept P (fun a => P a.1) (s.moveRead ring seq d x a n) := by
  unfold State.moveRead
  extract_lets k place s₁
  have hs₁ : P s₁ := h.eccRead hs
  clear_value place
  split
  · split
    · exact h.moveBad hs₁
    · exact h.ite _ hs₁ (h.meshMove hs₁)
  · split
    · split
      · exact h.portRead hs
      · exact hs
      · exact h.accReport hs
    · exact hs

theorem moveRows {ring seq d x n l} : AfterExcept P (fun a => P a.1) (s.moveRows ring seq d x n l) := by
  induction l generalizing s with
  | nil => exact hs
  | cons a t ih =>
    rw [State.moveRows]
    split
    · next heq => exact (h.moveRead hs).error heq
    · next y heq =>
      have hy : P y.1 := (h.moveRead hs).ok heq
      split
      · next heq₁ => exact (ih hy).error heq₁
      · next z heq₁ =>
        have hz : P z.1 := (ih hy).ok heq₁
        exact hz

theorem moveData {ring seq d x m} : AfterExcept P (fun a => P a.1) (s.moveData ring seq d x m) := by
  unfold State.moveData
  split
  · exact hs
  · exact AfterExcept.map (h.moveRead hs) (fun y₁ hy₁ => hy₁)
  · exact AfterExcept.map (h.moveRows hs) (fun y₁ hy₁ => hy₁)

theorem moveWrite {ring seq d x counter a b} : AfterExcept P P (s.moveWrite ring seq d x counter a b) := by
  unfold State.moveWrite
  extract_lets k
  split
  · exact h.store hs
  · split
    · split
      · exact h.relayWrite (h.meshMove hs)
      · exact hs
    · split
      · split
        · next s' heq₃ =>
          have hs' : P s' := of_fst (h.fnWrite hs) heq₃
          exact h.portWrite hs'
        · next s' _ heq₃ =>
          have hs' : P s' := of_fst (h.fnWrite hs) heq₃
          exact hs'
      · exact h.inboundPut hs

theorem moveOut {ring seq d x counter l} : AfterExcept P P (s.moveOut ring seq d x counter l) := by
  induction l generalizing s with
  | nil => exact hs
  | cons p t ih =>
    rw [State.moveOut]
    split
    · next heq => exact (h.moveWrite hs).error heq
    · next heq => exact ih ((h.moveWrite hs).ok heq)

theorem move {ring seq d x m} : AfterExcept P P (s.move ring seq d x m) := by
  unfold State.move
  split
  · next e heq =>
    have he : P e.1 := (h.moveData hs).error heq
    exact he
  · next y heq =>
    have hy : P y.1 := (h.moveData hs).ok heq
    exact AfterExcept.map (h.moveOut hy) (fun s₁ hs₁ => h.add64 _ _ _ hs₁)

theorem moves {ring seq d x l} : AfterExcept P P (s.moves ring seq d x l) := by
  induction l generalizing s with
  | nil => exact hs
  | cons m t ih =>
    rw [State.moves]
    split
    · next heq => exact ih ((h.move hs).ok heq)
    · next heq => exact (h.move hs).error heq

theorem loadSegs {d clerks x l} : AfterExcept P P (s.loadSegs d clerks x l) := by
  induction l generalizing s with
  | nil => exact hs
  | cons g t ih =>
    rw [State.loadSegs]
    split
    · exact hs
    · extract_lets s₁ b
      split
      · exact h.eccRead hs
      · exact ih (h.each _ (fun _ _ hs₁ => h.setClerk hs₁) _ _ (h.eccRead hs))

theorem stepHead {ring seq d clerks key p} : AfterExcept P P (s.stepHead ring seq d clerks key p) := by
  unfold State.stepHead
  split
  · exact hs
  · split
    · next y heq₁ =>
      have hy : P y.1 := (h.loadSegs hs).error heq₁
      exact hy
    · next s' heq₁ =>
      have hs' : P s' := (h.loadSegs hs).ok heq₁
      exact h.moves hs'

theorem eventTiles {d x l} : AfterExcept P (fun a => P a.1) (s.eventTiles d x l) := by
  induction l generalizing s with
  | nil => exact hs
  | cons a t ih =>
    have hs₁ : P (s.eccRead a 1) := h.eccRead hs
    rw [State.eventTiles]
    split
    · exact hs
    · extract_lets s₁
      split
      · exact hs₁
      · split
        · next heq => exact (ih hs₁).error heq
        · next y heq =>
          have hy : P y.1 := (ih hs₁).ok heq
          exact hy

theorem walkEnd {ring seq d x w} : AfterExcept P P (s.walkEnd ring seq d x w) := by
  unfold State.walkEnd
  extract_lets t clear
  split
  · next e heq =>
    have he : P e.1 := (h.eventTiles hs).error heq
    exact he
  · next y heq =>
    have hy : P y.1 := (h.eventTiles hs).ok heq
    extract_lets s₁ event written s₂ cs s₃
    have hs₃ : P s₃ := h.each _ (fun _ _ hs₄ => h.setClerk hs₄) _ _ (h.walkBoundary hy)
    exact h.ite _ (h.setDrun hs₃) hs₃

theorem walkEnds {ring seq d x l} : AfterExcept P P (s.walkEnds ring seq d x l) := by
  induction l generalizing s with
  | nil => exact hs
  | cons w t ih =>
    rw [State.walkEnds]
    split
    · next heq => exact (h.walkEnd hs).error heq
    · next heq => exact ih ((h.walkEnd hs).ok heq)

theorem stepTail {ring seq d key moves walks} : AfterExcept P P (s.stepTail ring seq d key moves walks) := by
  unfold State.stepTail
  split
  · exact hs
  · split
    · next y heq₁ =>
      have hy : P y.1 := (h.moves hs).error heq₁
      exact hy
    · next s' heq₁ =>
      have hs' : P s' := (h.moves hs).ok heq₁
      exact h.walkEnds hs'

/-! ### The express lane -/

theorem execAdcConversion {c t} : AfterNext P (execAdcConversion c t s) := h.ite _ (h.setXchan (h.atNs _ _ hs)) hs
theorem chanSealed {c old} : P (s.chanSealed c old) := h.ite _ hs (h.putB _ _ _ (h.setXchan hs))
theorem execSettleEnd {c} : AfterNext P (execSettleEnd c s) := h.ite _ (h.putB _ _ _ hs) hs

theorem chanBoundary {c old} : P (s.chanBoundary c old) :=
  h.ite _ (h.each _ (fun _ _ hs₁ => h.wrN _ _ _ hs₁) _ _ (h.setXchan hs)) (h.ite _ (h.setXchan hs) hs)

theorem sampleFlags {c a} : P (s.sampleFlags c a) := by
  unfold State.sampleFlags
  extract_lets mode old new up rose now was s₁ s₂ s₃ s₄
  have hs₁ : P s₁ := h.put _ _ _ (h.putB _ _ _ (h.setXchan hs))
  have hs₂ : P s₂ := h.ite _ (h.putB _ _ _ hs₁) hs₁
  have hs₃ : P s₃ := h.ite _ (h.putB _ _ _ hs₂) hs₂
  have hs₄ : P s₄ := h.ite _ (h.putB _ _ _ hs₃) hs₃
  exact h.ite _ (h.report _ _ hs₄) hs₄

theorem blockArrives {c b} : P (s.blockArrives c b) := by
  unfold State.blockArrives
  split
  · exact hs
  · exact h.ite _ (h.addSat _ _ _ (h.setXchan hs)) (h.setXchan hs)

theorem sample {c a start} : P (s.sample c a start) := by
  unfold State.sample
  extract_lets s₁ x fault w
  have hs₁ : P s₁ := h.sampleFlags hs
  exact h.ite _ (h.ite _ (h.setXchan hs₁) hs₁) (h.blockArrives hs₁)

theorem execSampleAvailable {c a t} : AfterNext P (execSampleAvailable c a t s) := by
  unfold Machine.execSampleAvailable
  split
  · exact hs
  · exact h.ite _ (h.sample (h.setXchan (h.atNs _ _ hs))) hs

theorem fabricBlock {c words t} : P (s.fabricBlock c words t) := by
  unfold State.fabricBlock
  extract_lets s₁
  have hs₁ : P s₁ := h.setXchan (h.atNs _ _ hs)
  split
  · exact hs
  · exact h.blockArrives (h.ite _ (h.report _ _ (h.putB _ _ _ hs₁)) hs₁)

theorem execFabricBlock {c words t} : AfterNext P (execFabricBlock c words t s) := h.ite _ (h.fabricBlock hs) hs

theorem expressGo {r c b clerks p t} : P (s.expressGo r c b clerks p t) := by
  unfold State.expressGo
  extract_lets d g q all first
  split
  · next y heq =>
    have hy : P y.1 := (h.stepHead hs).error heq
    exact h.failRun hy
  · next s' heq =>
    have hs' : P s' := (h.stepHead hs).ok heq
    extract_lets s₁ s₂ s₃ s₄ s₅
    have hs₃ : P s₃ := h.put _ _ _ (h.put _ _ _ (h.setDrun (h.add64 _ _ _ (h.writeSeq hs'))))
    exact h.each _ (fun _ _ hs₆ => h.setClerk hs₆) _ _ (h.setXchan (h.setDunit (h.setUnit _ _ _ hs₃)))

theorem expressStart {c clerks p t} : P (s.expressStart c clerks p t) := by
  unfold State.expressStart
  extract_lets d
  split
  · exact h.ite _ hs (h.ite _ (h.ite _ hs (h.addSat _ _ _ (h.setXchan hs))) (h.expressGo (h.atNs _ _ hs)))
  · exact hs

theorem execExpressUnitStart {c clerks p t} : AfterNext P (execExpressUnitStart c clerks p t s) := h.expressStart hs
theorem xOverrun : P s.xOverrun := h.addSat _ _ _ (h.each _ (fun _ _ hs₁ => h.setXchan hs₁) _ _ hs)

theorem spillOne : P s.spillOne := by
  unfold State.spillOne
  extract_lets h₁ l n a
  split
  · exact hs
  · extract_lets s₁ s₂
    have hs₁ : P s₁ := h.memSpend (h.setXp _ _ hs)
    have hs₂ : P s₂ := by
      unfold s₂
      split
      · exact h.store hs₁
      · exact h.accReport hs₁
    exact h.wrN _ _ _ hs₂

theorem spillRun {t} : P (s.spillRun t) := h.each _ (fun _ _ hs₁ => h.ite _ (h.spillOne hs₁) hs₁) _ _ hs
theorem spillEntry : P s.spillEntry := h.spillRun hs

theorem commit {c late b v0 v1} : P (s.commit c late b v0 v1) := by
  unfold State.commit
  extract_lets q ws s₁ s₂ s₃
  have hs₂ : P s₂ := h.add64 _ _ _ (h.setXchan (h.each _ (fun _ _ hs₄ => h.wrN _ _ _ hs₄) _ _ hs))
  have hs₃ : P s₃ := h.ite _ (h.addSat _ _ _ hs₂) hs₂
  exact h.ite _ (h.spillRun (h.setXp _ _ hs₃)) hs₃

theorem expressEnd {c u v0 v1} : P (s.expressEnd c u v0 v1) := by
  unfold State.expressEnd
  extract_lets d run late s₁ s₂ s₃ s₄ s₅
  have hs₂ : P s₂ := h.each _ (fun _ _ hs₆ => h.dueStores hs₆) _ _ (h.ite _ (h.addSat _ _ _ hs) hs)
  have hs₃ : P s₃ := by
    unfold s₃
    clear_value run
    split
    · split
      · extract_lets node s₆
        have hs₆ : P s₆ := by
          unfold s₆
          split
          · next s' heq₁ =>
            have hs' : P s' := (h.stepTail hs₂).ok heq₁
            exact hs'
          · next e heq₁ =>
            have he : P e.1 := (h.stepTail hs₂).error heq₁
            exact h.failRun he
        exact h.setDrun hs₆
      · exact hs₂
    · exact hs₂
  have hs₄ : P s₄ := h.closeBand hs₃
  have hs₅ : P s₅ := h.ite _ (h.commit hs₄) hs₄
  clear_value run
  split
  · exact h.runSettle hs₅
  · exact hs₅

theorem execExpressUnitEnd {c v0 v1 t} : AfterNext P (execExpressUnitEnd c v0 v1 t s) := by
  unfold Machine.execExpressUnitEnd
  split
  · exact h.ite _ (h.expressEnd (h.atNs _ _ hs)) hs
  · exact hs

theorem execSpillDrop : AfterNext P (execSpillDrop s) := by
  unfold Machine.execSpillDrop
  split
  · exact h.ite _ (h.addSat _ _ _ (h.setXp _ _ hs)) hs
  · exact hs

theorem execExpressRunComplete : AfterNext P (execExpressRunComplete s) := by
  unfold Machine.execExpressRunComplete
  split
  · exact h.ite _ (h.endRun hs) hs
  · exact hs

/-! ### Measurement seals and the event log -/

theorem extendSeal {i d source} : P (s.extendSeal i d source) := by
  unfold State.extendSeal
  extract_lets s₁
  have hs₁ : P s₁ := h.setTrust _ _ hs
  exact h.ite _ (h.setTrust _ _ hs₁) (h.ite _ hs₁ (h.report _ _ (h.setTrust _ _ hs₁)))

theorem extendFree : P s.extendFree := h.useFree _ (h.extendSeal hs)

/-! ### The fabric -/

theorem setFrame {far ws} : P (s.setFrame far ws) := h.setFab _ _ hs
theorem regionSync {g} : P (s.regionSync g) := h.put _ _ _ (h.putB _ _ _ hs)
theorem setRegion {g st} : P (s.setRegion g st) := h.regionSync (h.put _ _ _ hs)
theorem regionClear {g} : P (s.regionClear g) := h.setRegion (h.wrN _ _ _ (h.setFab _ _ hs))
theorem regionHold {q g v} : P (s.regionHold q g v) := h.ite _ (h.wrCfg _ _ _ hs) hs
theorem execRegionHoldWrite {q g v} : AfterNext P (execRegionHoldWrite q g v s) := h.landing hs (fun _ hs₁ => h.regionHold hs₁)
theorem execRegionFault {g} : AfterNext P (execRegionFault g s) := h.ite _ (h.setRegion (h.setFab _ _ hs)) hs

theorem loadChecks {r e} : AfterExcept P (fun _ => True) (s.loadChecks r e) := by
  unfold State.loadChecks
  extract_lets g n
  split
  · exact hs
  · split
    · exact hs
    · split
      · exact hs
      · split
        · exact hs
        · split
          · exact hs
          · split
            · exact h.readFail hs
            · split
              · exact hs
              · exact trivial

theorem loadTraffic {r seq a n} : P (s.loadTraffic r seq a n) := h.ite _ hs (h.portRead hs)

theorem execFabricLoad {r seq} : AfterNext P (execFabricLoad r seq s) := by
  unfold Machine.execFabricLoad
  split
  · exact hs
  · refine h.ite _ hs ?_
    split
    · next x₂ heq₁ =>
      have hx₂ : P x₂.1 := (h.loadChecks hs).error heq₁
      exact h.complete hx₂
    · exact h.setFab _ _ (h.loadTraffic hs)

theorem writeRecord {r} : P (s.writeRecord r) := by
  unfold State.writeRecord
  extract_lets far ws s₁
  have hs₁ : P s₁ := h.setFrame hs
  exact h.ite _ hs₁ (h.setFab _ _ hs₁)

theorem loadFail {l status result} : P (s.loadFail l status result) := h.complete (h.regionClear (h.setFab _ _ hs))

theorem loadOutcome {l e bad} : AfterExcept P (fun _ => True) (s.loadOutcome l e bad) := by
  unfold State.loadOutcome
  extract_lets f a n
  split
  · exact h.readFail hs
  · exact h.readFail hs
  · extract_lets rs
    split
    · exact hs
    · split
      · exact hs
      · split
        · exact hs
        · exact trivial

theorem loadBegin {l e bad} : P (s.loadBegin l e bad) := by
  unfold State.loadBegin
  extract_lets s₁ s₂
  have hs₂ : P s₂ := h.loadTraffic (h.setRegion (h.wrN _ _ _ (h.regionClear hs)))
  split
  · next x₁ heq =>
    have hx₁ : P x₁.1 := (h.loadOutcome hs₂).error heq
    exact h.loadFail hx₁
  · exact h.setFab _ _ (h.each _ (fun _ _ hs₃ => h.writeRecord hs₃) _ _ hs₂)

theorem execFabricLoadBegin {bad} : AfterNext P (execFabricLoadBegin bad s) := by
  unfold Machine.execFabricLoadBegin
  split
  · exact hs
  · split
    · exact hs
    · exact h.ite _ (h.loadBegin hs) hs

theorem execFabricRelease {g} : AfterNext P (execFabricRelease g s) := by
  unfold Machine.execFabricRelease
  split
  · extract_lets s₁
    split
    · exact h.ite _ (h.complete (h.setRegion (h.wrN _ _ _ (h.setFab _ _ (h.ite _ (h.extendSeal hs) hs))))) hs
    · exact hs
  · exact hs

theorem fabLoadEnd {l status result} : P (s.fabLoadEnd l status result) := by
  unfold State.fabLoadEnd
  extract_lets s₁
  have hs₁ : P s₁ := h.memForget hs
  exact h.ite _ (h.loadFail hs₁) (h.complete (h.setFab _ _ hs₁))

theorem loadAbort {r seq} : P (s.loadAbort r seq) := by
  unfold State.loadAbort
  split
  · exact hs
  · exact h.fabLoadEnd hs

theorem cfgFault {cause} : P (s.cfgFault cause) := h.put _ _ _ (h.putB _ _ _ (h.putB _ _ _ hs))
theorem cfgStart : P s.cfgStart := h.setFab _ _ (h.putB _ _ _ (h.putB _ _ _ hs))

theorem readFrame {far} : P (s.readFrame far) := by
  unfold State.readFrame
  refine h.ite _ (h.cfgFault hs) ?_
  extract_lets ws
  split
  · exact h.cfgFault hs
  · exact h.ite _ (h.cfgFault hs) (h.wrN _ _ _ (h.each _ (fun _ _ hs₁ => h.wrN _ _ _ hs₁) _ _ (h.cfgStart hs)))

theorem cfgClear {g} : P (s.cfgClear g) := h.ite _ (h.cfgFault hs) (h.cfgStart (h.regionClear hs))
theorem cfgScrub : P s.cfgScrub := h.ite _ (h.cfgStart (h.setFab _ _ hs)) (h.cfgFault hs)

theorem cfgCmd {q v} : P (s.cfgCmd q v) := by
  unfold State.cfgCmd
  refine h.ite _ hs (h.ite _ (h.report _ _ hs) ?_)
  extract_lets s₁
  have hs₁ : P s₁ := h.wrN _ _ _ hs
  refine h.ite _ hs₁ ?_
  split
  · exact h.readFrame hs₁
  · exact h.cfgClear hs₁
  · exact h.cfgScrub hs₁
  · exact h.cfgFault hs₁

theorem execReadFrame {q far} : AfterNext P (execReadFrame q far s) := h.landing hs (fun _ hs₁ => h.cfgCmd hs₁)
theorem execClear {q g} : AfterNext P (execClear q g s) := h.landing hs (fun _ hs₁ => h.cfgCmd hs₁)
theorem execScrubPass {q} : AfterNext P (execScrubPass q s) := h.landing hs (fun _ hs₁ => h.cfgCmd hs₁)
theorem scrubVisit {far} : P (s.scrubVisit far) := h.ite _ (h.add64 _ _ _ (h.setFab _ _ hs)) (h.setFab _ _ hs)

theorem upset {g far} : P (s.upset g far) := by
  unfold State.upset
  extract_lets s₁ s₂
  have hs₁ : P s₁ := h.put _ _ _ (h.addSat _ _ _ hs)
  have hs₂ : P s₂ := h.ite _ hs₁ (h.report _ _ (h.setFab _ _ hs₁))
  exact h.ite _ (h.setFab _ _ hs₂) hs₂

theorem scrubRead {far flips} : P (s.scrubRead far flips) := by
  unfold State.scrubRead
  extract_lets s₁ s₂
  have hs₁ : P s₁ := h.setFrame hs
  have hs₂ : P s₂ := by
    unfold s₂
    split
    · exact hs₁
    · exact h.ite _ (h.setFab _ _ hs₁) (h.upset hs₁)
  exact h.scrubVisit hs₂

theorem execFabricScrubRead {far flips} : AfterNext P (execFabricScrubRead far flips s) := h.ite _ (h.scrubRead hs) hs

theorem meshRequest {a o} : P (s.meshRequest a o) := by
  unfold State.meshRequest
  extract_lets f n k fault s₁
  have hfault : ∀ u, P u → P (fault u) := fun _ hs₂ => h.giveAcc (h.report _ _ hs₂)
  refine h.ite _ hs (h.ite _ (hfault _ hs) ?_)
  split
  · exact hfault _ (h.accReport hs)
  · refine h.ite _ (h.sramAccess hs) ?_
    split
    · exact h.giveAcc (h.store (h.portWrite hs))
    · exact h.giveAcc (h.portRead hs)

theorem execFabricMeshRequest {a o} : AfterNext P (execFabricMeshRequest a o s) := h.ite _ (h.meshRequest hs) hs

theorem fabReg {g off w ans} : P (s.fabReg g off w ans) := by
  unfold State.fabReg
  refine h.ite _ (h.ite _ (h.giveRead hs) hs) ?_
  split
  · exact h.setFab _ _ hs
  · exact h.giveRead hs
  · exact h.setFab _ _ hs

theorem execFabricRegAccess {q g off w ans} : AfterNext P (execFabricRegAccess q g off w ans s) := by
  unfold Machine.execFabricRegAccess
  refine h.ite _ ?_ hs
  extract_lets s₁
  have hs₁ : P s₁ := h.ite _ (h.dropHold hs) hs
  exact h.ite _ (h.fabReg hs₁) (h.ite _ (h.giveRead hs₁) hs₁)

theorem execFabricRegTimeout {g} : AfterNext P (execFabricRegTimeout g s) := by
  unfold Machine.execFabricRegTimeout
  split
  · exact h.report _ _ (h.giveRead (h.setFab _ _ hs))
  · exact hs

theorem clkCfg {q i v} : P (s.clkCfg q i v) := h.ite _ (h.wrCfg _ _ _ hs) hs
theorem execClkCfgWrite {q i v} : AfterNext P (execClkCfgWrite q i v s) := h.landing hs (fun _ hs₁ => h.clkCfg hs₁)

theorem fabBoundary : P s.fabBoundary := by
  unfold State.fabBoundary
  extract_lets s₁ s₂
  have hs₁ : P s₁ := by
    unfold s₁
    split
    · exact h.putB _ _ _ (h.putB _ _ _ (h.putB _ _ _ (h.setFab _ _ hs)))
    · exact hs
  have hs₂ : P s₂ := h.ite _ (h.setFab _ _ hs₁) hs₁
  exact h.ite _ (h.each _ (fun _ _ hs₃ => h.regionSync hs₃) _ _ hs₂) hs₂

theorem fabStop : P s.fabStop := h.each _ (fun _ _ hs₁ => h.fabLoadEnd hs₁) _ _ hs
theorem fabOff : P s.fabOff := h.setFab _ _ hs

/-! ### Commands of Envelopes -/

theorem doorbell {q page} {act : State → ℕ → State} (hact : ∀ u x1, P u → P (act u x1)) : P (s.doorbell q page act) := by
  unfold State.doorbell
  split
  · exact hs
  · exact h.ite _ (h.report _ _ hs) (h.ite _ hs (hact _ _ hs))

theorem subDoorbell {r v} : P (s.subDoorbell r v) := h.ite _ (h.wrN _ _ _ hs) (h.report _ _ hs)
theorem retDoorbell {r v} : P (s.retDoorbell r v) := h.ite _ (h.flush (h.wrN _ _ _ hs)) (h.report _ _ hs)

theorem pageAccess {q page a v} : P (s.pageAccess q page a v) := by
  unfold State.pageAccess
  extract_lets whole
  split
  · exact h.ite _ (h.giveRead hs) (h.ite _ (h.report _ _ (h.giveRead hs)) (h.giveRead hs))
  · exact h.ite _ hs (h.ite _ (h.doorbell hs (fun _ _ hs₁ => h.subDoorbell hs₁)) (h.ite _ (h.doorbell hs (fun _ _ hs₁ => h.retDoorbell hs₁)) (h.report
      _ _ hs)))

theorem execSubmissionDoorbell {q page a v} : AfterNext P (execSubmissionDoorbell q page a v s) := h.pageAccess hs
theorem execReturnDoorbell {q page a v} : AfterNext P (execReturnDoorbell q page a v s) := h.pageAccess hs

theorem waitTest {r seq} : P (s.waitTest r seq) := by
  unfold State.waitTest
  split
  · exact h.ite _ (h.complete hs) hs
  · exact hs

theorem fetchOne {r} : P (s.fetchOne r) := by
  unfold State.fetchOne
  extract_lets i
  split
  next env fail u hread =>
  have hu : P u := by
    split at hread <;> cases hread
    · exact hs
    · exact hs
    · exact h.accReport hs
  extract_lets served u₁ u₂ d u₃
  exact h.waitTest (h.ringTraffic (h.setRing _ _ _ (h.wrN _ _ _ (h.setFetch _ _ hu))))

theorem execEnvelopeFetch {r} : AfterNext P (execEnvelopeFetch r s) := h.ite _ (h.fetchOne hs) hs

theorem startOne {r} : P (s.startOne r) := by
  unfold State.startOne
  split
  · exact hs
  · refine h.ite _ hs (h.ite _ (h.putB _ _ _ hs) ?_)
    extract_lets start s₁ s₂
    have hs₁ : P s₁ := h.setFlight hs
    have hs₂ : P s₂ := h.ite _ (h.stamp hs₁) hs₁
    exact h.ite _ (h.complete hs₂) hs₂

theorem execEnvelopeStart {r t} : AfterNext P (execEnvelopeStart r t s) := h.ite _ (h.startOne (h.atNs _ _ hs)) hs

theorem execEnvelopeComplete {r seq t} : AfterNext P (execEnvelopeComplete r seq t s) := by
  unfold Machine.execEnvelopeComplete
  split
  · exact h.ite _ (h.complete (h.atNs _ _ hs)) hs
  · exact hs

theorem execIrqDelay {r} : AfterNext P (execIrqDelay r s) := by
  unfold Machine.execIrqDelay
  extract_lets d n
  split
  · exact h.ite _ (h.irqTo _ _ _ _ (h.setRing _ _ _ hs)) hs
  · exact hs

theorem execNop {r seq} : AfterNext P (execNop r seq s) := by
  unfold Machine.execNop
  split
  · exact h.complete hs
  · exact hs

theorem execFence {r seq} : AfterNext P (execFence r seq s) := by
  unfold Machine.execFence
  split
  · exact h.complete hs
  · exact hs

theorem execWait {r seq} : AfterNext P (execWait r seq s) := h.waitTest hs
theorem execWaitSatisfied {r seq} : AfterNext P (execWaitSatisfied r seq s) := h.waitTest hs

theorem execWaitTimeout {r seq} : AfterNext P (execWaitTimeout r seq s) := by
  unfold Machine.execWaitTimeout
  split
  · exact h.ite _ (h.complete hs) hs
  · exact hs

theorem sigRegister {q v} : P (s.sigRegister q v) := h.ite _ hs (h.ite _ (h.signal hs) (h.report _ _ hs))
theorem execReceiptSigValue {q v} : AfterNext P (execReceiptSigValue q v s) := h.landing hs (fun _ hs₁ => h.sigRegister hs₁)
theorem receiptBase {q v} : P (s.receiptBase q v) := h.ite _ hs (h.ite _ (h.report _ _ hs) (h.wrCfg _ _ _ hs))
theorem execReceiptBaseWrite {q v} : AfterNext P (execReceiptBaseWrite q v s) := h.landing hs (fun _ hs₁ => h.receiptBase hs₁)

theorem ringCfg {q r v} : P (s.ringCfg q r v) := by
  unfold State.ringCfg
  extract_lets f l deny busy
  have hdeny : P deny := h.report _ _ hs
  have hbusy : P busy := h.report _ _ hs
  exact h.ite _ hs (h.ite _ hdeny (h.ite _ hbusy (h.ite _ hbusy (h.ite _ hdeny (h.ite _ hbusy (h.wrN _ _ _ hs))))))

theorem execRingCfgWrite {q r v} : AfterNext P (execRingCfgWrite q r v s) := h.landing hs (fun _ hs₁ => h.ringCfg hs₁)

theorem ringCtl {q r} {act : State → State} (hact : ∀ u, P u → P (act u)) : P (s.ringCtl q r act) :=
  h.ite _ hs (h.ite _ (h.report _ _ hs) (hact _ hs))

theorem ringEnable {r} : P (s.ringEnable r) :=
  h.ite _ hs (h.ite _ (h.report _ _ hs) (h.wrN _ _ _ (h.wrN _ _ _ (h.put _ _ _ (h.putB _ _ _ (h.ringOff hs))))))

theorem ringDisable {r} : P (s.ringDisable r) := h.ite _ (h.ringOff hs) hs
theorem ringResume {r} : P (s.ringResume r) := h.ite _ (h.put _ _ _ hs) hs
theorem execRingEnable {q r} : AfterNext P (execRingEnable q r s) := h.landing hs (fun _ hs₁ => h.ringCtl hs₁ (fun _ hs₂ => h.ringEnable hs₂))
theorem execRingDisable {q r} : AfterNext P (execRingDisable q r s) := h.landing hs (fun _ hs₁ => h.ringCtl hs₁ (fun _ hs₂ => h.ringDisable hs₂))
theorem execRingStop {q r} : AfterNext P (execRingStop q r s) := h.landing hs (fun _ hs₁ => h.ringCtl hs₁ (fun _ hs₂ => h.ringStop hs₂))
theorem execRingResume {q r} : AfterNext P (execRingResume q r s) := h.landing hs (fun _ hs₁ => h.ringCtl hs₁ (fun _ hs₂ => h.ringResume hs₂))

/-! ### The serving marshal -/

theorem setSession {x} : P (s.setSession x) := h.setServe _ _ hs

theorem templateCheck {f x m} : AfterExcept P (fun _ => True) (s.templateCheck f x m) := by
  unfold State.templateCheck
  split
  · exact hs
  · split
    · exact hs
    · split
      · exact h.readFail hs
      · split
        · exact hs
        · exact trivial

theorem sessionEnv {r seq op} {act : ℕ → Sys2Proof.Bytes → State} (hact : ∀ x0 x1, P (act x0 x1)) : P (s.sessionEnv r seq op act) := by
  unfold State.sessionEnv
  split
  · exact h.ite _ (hact _ _ ) hs
  · exact hs

theorem sessionOpen {r seq id e} : P (s.sessionOpen r seq id e) := by
  unfold State.sessionOpen
  extract_lets f s₁ fail
  have hs₁ : P s₁ := h.ringTraffic hs
  have hfail : ∀ x0 x1, P (fail x0 x1) := fun _ _ => h.complete hs₁
  refine h.ite _ (h.complete hs) (h.ite _ (h.complete hs) ?_)
  split
  · exact h.complete (h.accReport hs)
  · extract_lets x₁
    refine h.ite _ (hfail _ _ ) ?_
    split
    · exact hfail _ _ 
    · split
      · next x₄ heq₂ =>
        have hx₄ : P x₄.1 := (h.readImage hs₁).error heq₂
        exact h.complete hx₄
      · refine h.ite _ (hfail _ _ ) (h.ite _ (hfail _ _ ) ?_)
        split
        · next x₅ heq₃ =>
          have hx₅ : P x₅.1 := (h.templateCheck hs₁).error heq₃
          exact h.complete hx₅
        · exact h.complete (h.setServe _ _ (h.tableTraffic hs₁))

theorem execSessionOpen {r seq} : AfterNext P (execSessionOpen r seq s) := h.sessionEnv hs (fun _ _ => h.sessionOpen hs)
theorem marshalWrite {f a b} : P (s.marshalWrite f a b).1 := (h.addrWrite hs)

theorem sessionAdmit {r seq id e} : P (s.sessionAdmit r seq id e) := by
  unfold State.sessionAdmit
  extract_lets f a fail
  have hfail : ∀ x0 x1, P (fail x0 x1) := fun _ _ => h.complete hs
  split
  · exact hfail _ _ 
  · refine h.ite _ (hfail _ _ ) ?_
    split
    · exact h.complete (h.accReport hs)
    · extract_lets q
      split
      · exact hfail _ _ 
      · refine h.ite _ (hfail _ _ ) (h.ite _ (hfail _ _ ) (h.ite _ (hfail _ _ ) (h.ite _ (hfail _ _ ) ?_)))
        split
        · next s' _ heq₃ =>
          have hs' : P s' := of_fst (h.marshalWrite (h.ringTraffic hs)) heq₃
          exact h.complete hs'
        · next s' heq₃ =>
          have hs' : P s' := of_fst (h.marshalWrite (h.ringTraffic hs)) heq₃
          exact h.complete (h.setSession hs')

theorem execSessionAdmit {r seq} : AfterNext P (execSessionAdmit r seq s) := h.sessionEnv hs (fun _ _ => h.sessionAdmit hs)

theorem sessionCancel {r seq id e} : P (s.sessionCancel r seq id e) := by
  unfold State.sessionCancel
  extract_lets f
  split
  · exact h.complete hs
  · split
    · exact h.complete hs
    · exact h.ite _ (h.complete hs) (h.ite _ (h.complete hs) (h.complete (h.setSession hs)))

theorem execSessionCancel {r seq} : AfterNext P (execSessionCancel r seq s) := h.sessionEnv hs (fun _ _ => h.sessionCancel hs)

theorem sessionClose {r seq id x} : P (s.sessionClose r seq id x) := by
  unfold State.sessionClose
  split
  · exact h.complete hs
  · exact h.ite _ (h.complete hs) (h.complete (h.setSession hs))

theorem execSessionClose {r seq} : AfterNext P (execSessionClose r seq s) := h.sessionEnv hs (fun _ _ => h.sessionClose hs)

theorem sessionStatus {r seq id e} : P (s.sessionStatus r seq id e) := by
  unfold State.sessionStatus
  split
  · exact h.complete hs
  · refine h.ite _ (h.complete hs) ?_
    split
    · next s' _ heq₁ =>
      have hs' : P s' := of_fst (h.marshalWrite (h.ringTraffic hs)) heq₁
      exact h.complete hs'
    · next s' heq₁ =>
      have hs' : P s' := of_fst (h.marshalWrite (h.ringTraffic hs)) heq₁
      exact h.complete hs'

theorem execSessionStatus {r seq} : AfterNext P (execSessionStatus r seq s) := h.sessionEnv hs (fun _ _ => h.sessionStatus hs)
theorem slotClear {n} : P (s.slotClear n) := h.wrN _ _ _ (h.wrN _ _ _ (h.wrN _ _ _ (h.bulkTraffic (h.zeroMem hs))))

theorem slotRetire {n} : P (s.slotRetire n) := by
  unfold State.slotRetire
  extract_lets t h₁ r s₁
  have hs₁ : P s₁ := h.slotClear hs
  exact h.ite _ hs₁ (h.unsolicited hs₁)

theorem execSlotRetire {slot} : AfterNext P (execSlotRetire slot s) := h.ite _ (h.slotRetire hs) hs
theorem setHandle {k x} : P (s.setHandle k x) := h.setServe _ _ hs

theorem psBind {r seq e} : P (s.psBind r seq e) := by
  unfold State.psBind
  extract_lets h₁ t n g accept
  have haccept : ∀ x0, P (accept x0) := fun _ => h.setServe _ _ hs
  exact h.ite _ hs (h.ite _ (h.complete hs) (h.ite _ (h.complete hs) (h.ite _ (haccept _ ) (h.ite _ (haccept _ ) (h.complete hs)))))

theorem execPsBind {r seq} : AfterNext P (execPsBind r seq s) := by
  unfold Machine.execPsBind
  split
  · exact h.psBind hs
  · exact hs

theorem setSlot {n st} : P (s.setSlot n st) := h.put _ _ _ hs

theorem bindApply {b} : P (s.bindApply b) := by
  unfold State.bindApply
  extract_lets t h₁ x gone s₁ s₂ s₃
  have hs₁ : P s₁ := by
    unfold s₁
    split
    · exact h.ite _ hs (h.setSlot hs)
    · exact hs
  have hs₂ : P s₂ := h.setHandle hs₁
  have hs₃ : P s₃ := by
    unfold s₃
    split
    · exact h.setSlot hs₂
    · exact h.each _ (fun _ _ hs₄ => h.slotRetire hs₄) _ _ hs₂
  exact h.ite _ (h.complete hs) (h.complete hs₃)

theorem applyBinds : P s.applyBinds := h.each _ (fun _ _ hs₁ => h.bindApply hs₁) _ _ (h.setServe _ _ hs)
theorem execPsBindApply : AfterNext P (execPsBindApply s) := h.applyBinds hs
theorem requestSignal {q n} : P (s.requestSignal q n) := h.ite _ (h.signal hs) hs

theorem endBlock {q state code} : P (s.endBlock q state code) := by
  unfold State.endBlock
  extract_lets s₁
  have hs₁ : P s₁ := by
    unfold s₁
    split
    · next s' heq =>
      have hs' : P s' := of_fst (h.marshalWrite hs) heq
      exact h.marshalWrite hs'
    · next s' _ heq =>
      have hs' : P s' := of_fst (h.marshalWrite hs) heq
      exact h.marshalWrite hs'
  exact h.requestSignal hs₁

theorem releaseSlot {n} : P (s.releaseSlot n) := h.signal hs

theorem endRequest {q state code} : P (s.endRequest q state code) := by
  unfold State.endRequest
  extract_lets s₁
  have hs₁ : P s₁ := h.endBlock hs
  split
  · exact h.releaseSlot hs₁
  · exact hs₁

theorem endAll {l state code} : P (s.endAll l state code) := h.each _ (fun _ _ hs₁ => h.endRequest hs₁) _ _ hs

theorem sessionEnd {x} : P (s.sessionEnd x) := by
  unfold State.sessionEnd
  extract_lets s₁ s₂
  have hs₂ : P s₂ := h.setServe _ _ (h.endAll hs)
  split
  · next x₂ heq =>
    have hx₂ : P x₂.1 := (h.readImage hs₂).error heq
    exact hs₂
  · exact h.ite _ hs₂ (h.each _ (fun _ _ hs₃ => h.freeAlloc hs₃) _ _ hs₂)

theorem applyCancels {x} : P (s.applyCancels x).1 := h.endAll hs

theorem admitReq {x q b} : P (s.admitReq x q b).1 := by
  unfold State.admitReq
  extract_lets ps s₁ q₁ s₂
  have hs₁ : P s₁ := h.each _ (fun _ _ hs₃ => h.bulkTraffic (h.zeroMem hs₃)) _ _ hs
  have hs₂ : P s₂ := by
    unfold s₂
    split
    · exact h.wrN _ _ _ hs₁
    · exact hs₁
  split
  · next s' heq =>
    have hs' : P s' := of_fst (h.marshalWrite hs₂) heq
    exact hs'
  · next s' _ heq =>
    have hs' : P s' := of_fst (h.marshalWrite hs₂) heq
    exact h.endRequest hs'

theorem admitQueue {b x l} : P (s.admitQueue b x l).1 := by
  induction l generalizing s x with
  | nil => exact hs
  | cons q t ih =>
    rw [State.admitQueue]
    split
    · exact hs
    · split
      · exact ih (h.endRequest hs)
      · exact ih (h.admitReq hs)

theorem feedOf {x q} : P (s.feedOf x q).1 := by
  unfold State.feedOf
  extract_lets a
  split
  · exact hs
  · split
    · exact h.ringTraffic hs
    · exact h.useFrees _ _ (h.accReport hs)

theorem feeds {x l} : P (s.feeds x l).1 := by
  induction l generalizing s with
  | nil => exact hs
  | cons q t ih => exact ih (h.feedOf hs)

theorem passFailed {x status energy} : P (s.passFailed x status energy) := by
  unfold State.passFailed
  extract_lets s₁
  exact h.report _ _ (h.setSession (h.endAll hs))

theorem marshalRun {x seq entry m g body b} : P (s.marshalRun x seq entry m g body b) := by
  unfold State.marshalRun
  extract_lets s₁ s₂ x₁
  exact h.setFloor _ _ (h.each _ (fun _ _ hs₃ => h.allocate hs₃) _ _ (h.tableTraffic hs))

theorem passRun {x m g body b} : P (s.passRun x m g body b) :=
  h.marshalRun (h.each _ (fun _ _ hs₃ => h.ringTraffic hs₃) _ _ (h.setSession (h.feeds hs)))

theorem passStart {x b} : P (s.passStart x b) := by
  unfold State.passStart
  refine h.ite _ (h.sessionEnd hs) ?_
  extract_lets y h₁ z x₁ x₂
  have hz : P z.1 := h.admitQueue (h.applyCancels hs)
  split
  · exact hs
  · refine h.ite _ (h.setSession hz) ?_
    split
    · exact h.ite _ (h.marshalRun (h.setSession hz)) (h.passRun (h.setSession hz))
    · exact h.passFailed hz
    · exact hs

theorem passGoOn {x b} : P (s.passGoOn x b) := by
  unfold State.passGoOn
  extract_lets s'
  have hs' : P s' := h.setFloor _ _ hs
  split
  · exact hs
  · exact h.passFailed hs'
  · exact h.passRun hs'

theorem execPassStart {id b} : AfterNext P (execPassStart id b s) := by
  unfold Machine.execPassStart
  split
  · exact h.ite _ (h.passGoOn hs) (h.ite _ (h.passStart (h.applyBinds hs)) hs)
  · exact hs

theorem letters {x q} : P (s.letters x q) := h.each _ (fun _ _ hs₁ => h.ringTraffic (h.fnWrite hs₁)) _ _ hs

theorem emit {old out q} : P (s.emit old out q).1 := by
  unfold State.emit
  extract_lets w w₁ s₁
  have hw : P w.1 := by
    unfold w
    split
    · exact hs
    · exact h.marshalWrite hs
  have hw₁ : P w₁.1 := by
    unfold w₁
    split
    · exact h.marshalWrite hw
    · exact hw
  have hs₁ : P s₁ := h.ite _ hw₁ (h.requestSignal hw₁)
  split
  · exact h.endRequest hw₁
  · split
    · exact h.endRequest hs₁
    · exact hs₁

theorem passOuts {x energy l} : P (s.passOuts x energy l).1 := by
  induction l generalizing s with
  | nil => exact hs
  | cons q t ih => exact ih (h.emit (h.letters hs))

theorem passComplete {x start status energy} : P (s.passComplete x start status energy) := by
  unfold State.passComplete
  extract_lets s₁ y z
  have hs₁ : P s₁ := h.setFloor _ _ hs
  exact h.ite _ (h.passFailed hs₁) (h.setSession (h.passOuts hs₁))

theorem passDropped {x slots} : P (s.passDropped x slots) := h.setSession (h.each _ (fun _ _ hs₂ => h.releaseSlot hs₂) _ _ (h.setFloor _ _ hs))

theorem execPassComplete {id t energy} : AfterNext P (execPassComplete id t energy s) := by
  unfold Machine.execPassComplete
  split
  · refine h.ite _ hs ?_
    split
    · exact h.ite _ (h.passDropped (h.atNs _ _ hs)) hs
    · exact h.passComplete (h.atNs _ _ hs)
    · exact hs
  · exact hs

theorem serveRestart : P s.serveRestart := by
  unfold State.serveRestart
  refine h.each _ (fun s₁ x₁ hs₁ => ?_) _ _ hs
  extract_lets ended s₂ none'
  have hs₂ : P s₂ := h.setFloor _ _ hs₁
  exact h.ite _ (h.setSession (h.each _ (fun _ _ hs₃ => h.endBlock hs₃) _ _ hs₂)) (h.setSession (h.endAll hs₂))

theorem psLoaded {r seq slot t h' n} : P (s.psLoaded r seq slot t h' n) := by
  unfold State.psLoaded
  extract_lets b x s₁ s₂ s₃
  split
  · exact h.complete (h.slotClear hs)
  · exact h.finish (h.wrN _ _ _ (h.wrN _ _ _ (h.put _ _ _ (h.setServe _ _ (h.setHandle hs)))))

theorem psCopy {r seq slot t h' a b} : P (s.psCopy r seq slot t h' a b) := by
  unfold State.psCopy
  extract_lets s₁ s₂ s₃
  have hs₃ : P s₃ := h.setFlight (h.ringTraffic (h.store (h.ringTraffic (h.wrN _ _ _ hs))))
  exact h.ite _ hs₃ (h.psLoaded hs₃)

theorem psLoad {r seq e prog} : P (s.psLoad r seq e prog) := by
  unfold State.psLoad
  extract_lets f t h₁ n fail
  have hfail : ∀ x0 x1, P (fail x0 x1) := fun _ _ => h.complete hs
  refine h.ite _ (h.ite _ hs (h.psLoaded hs)) (h.ite _ (hfail _ _ ) (h.ite _ (hfail _ _ ) (h.ite _ (hfail _ _ ) (h.ite _ (hfail _ _ ) (h.ite _ (hfail
      _ _ ) ?_)))))
  split
  · exact hfail _ _ 
  · split
    · exact h.complete (h.accReport hs)
    · exact h.psCopy hs

theorem psAbort {prog} : P (s.psAbort prog) := h.ite _ hs (h.slotClear hs)

theorem execPsLoad {r seq} : AfterNext P (execPsLoad r seq s) := by
  unfold Machine.execPsLoad
  split
  · exact h.psLoad hs
  · exact hs

/-! ### The lock to network time and the timetables -/

theorem updValid : P s.updValid := by
  unfold State.updValid
  extract_lets v was s'
  have hs' : P s' := h.putB _ _ _ hs
  exact h.ite _ (h.report _ _ (h.setRnd _ _ hs')) (h.ite _ (h.report _ _ (h.setRnd _ _ hs')) hs')

theorem enterLock {k} : P (s.enterLock k) := by
  unfold State.enterLock
  extract_lets s₁ ms s₂
  have hs₁ : P s₁ := h.setRnd _ _ (h.put _ _ _ hs)
  exact h.updValid (h.ite _ (h.report _ _ (h.setRnd _ _ hs₁)) (h.ite _ (h.setRnd _ _ hs₁) hs₁))

theorem unpair : P s.unpair := h.setRnd _ _ hs

theorem enterLocked : P s.enterLocked := by
  unfold State.enterLocked
  extract_lets s₁
  have hs₁ : P s₁ := h.enterLock hs
  exact h.ite _ (h.setRnd _ _ hs₁) hs₁

theorem offsetTests {off left} : P (s.offsetTests off left) :=
  h.ite _ (h.ite _ (h.ite _ (h.enterLocked hs) (h.setRnd _ _ hs)) (h.setRnd _ _ hs)) (h.ite _ (h.ite _ hs (h.enterLock hs)) (h.ite _ (h.ite _
      (h.enterLocked hs) (h.enterLock hs)) hs))

theorem servo : P s.servo := h.useFree _ (h.setRnd _ _ hs)

theorem syncOffset {m} : P (s.syncOffset m) := by
  unfold State.syncOffset
  extract_lets s₁
  have hs₁ : P s₁ := h.ite _ (h.setRnd _ _ hs) hs
  split
  · exact hs₁
  · exact h.servo (h.offsetTests (h.wrN _ _ _ hs₁))

theorem syncRx {m} : P (s.syncRx m) := by
  unfold State.syncRx
  extract_lets t gap s₁ s₂
  have hs₁ : P s₁ := h.setRnd _ _ hs
  have hs₂ : P s₂ := h.ite _ (h.unpair (h.enterLock hs₁)) hs₁
  exact h.ite _ (h.syncOffset hs₂) hs₂

theorem execSyncReceived {m} : AfterNext P (execSyncReceived m s) := h.ite _ (h.syncRx (h.atNs _ _ hs)) hs

theorem execSyncLoss {t} : AfterNext P (execSyncLoss t s) := by
  unfold Machine.execSyncLoss
  extract_lets s'
  have hs' : P s' := h.atNs _ _ hs
  exact h.ite _ (h.enterLock hs') (h.ite _ (h.enterLock hs') hs)

theorem execHoldoverExpiry {t} : AfterNext P (execHoldoverExpiry t s) := h.ite _ (h.updValid (h.atNs _ _ hs)) hs
theorem epochSync : P s.epochSync := h.wrN _ _ _ hs
theorem epochNow : P s.epochNow := h.epochSync (h.setRnd _ _ hs)
theorem fixOffset {netRound} : P (s.fixOffset netRound) := h.epochSync (h.setRnd _ _ (h.wrN _ _ _ hs))

theorem execAlignment {net} : AfterNext P (execAlignment net s) :=
  h.ite _ hs (h.ite _ (h.updValid (h.setRnd _ _ (h.fixOffset hs))) (h.setRnd _ _ (h.fixOffset hs)))

theorem execAlignmentComplete : AfterNext P (execAlignmentComplete s) := h.ite _ (h.updValid (h.setRnd _ _ hs)) hs
theorem relock : P s.relock := h.ite _ (h.report _ _ hs) (h.enterLock (h.setRnd _ _ hs))
theorem execRelock {t} : AfterNext P (execRelock t s) := h.landing hs (fun _ hs₁ => h.relock (h.atNs _ _ hs₁))

theorem setSource {src} : P (s.setSource src) := by
  unfold State.setSource
  extract_lets old k s₁ s₂
  have hs₁ : P s₁ := h.put _ _ _ hs
  have hs₂ : P s₂ := h.setRnd _ _ (h.put _ _ _ hs₁)
  exact h.ite _ hs₁ (h.ite _ (h.ite _ hs₂ (h.enterLock hs₂)) (h.ite _ (h.enterLock hs₂) hs₂))

theorem execSyncSourceWrite {src t} : AfterNext P (execSyncSourceWrite src t s) := h.landing hs (fun _ hs₁ => h.setSource (h.atNs _ _ hs₁))
theorem ttFault {cause bad} : P (s.ttFault cause bad) := h.putB _ _ _ (h.put _ _ _ (h.put _ _ _ hs))

theorem ttLoad {bank entries first} : P (s.ttLoad bank entries first) := by
  unfold State.ttLoad
  refine h.ite _ (h.report _ _ hs) ?_
  extract_lets s₁ n s₂ l
  have hs₁ : P s₁ := h.put _ _ _ (h.putB _ _ _ (h.putB _ _ _ hs))
  have hs₂ : P s₂ := h.putB _ _ _ (h.putB _ _ _ (h.putB _ _ _ hs₁))
  exact h.ite _ (h.ttFault hs₁) (h.ite _ (h.ttFault hs₁) (h.traffic (h.setRnd _ _ hs₂)))

theorem execTtLoad {bank entries first} : AfterNext P (execTtLoad bank entries first s) := h.landing hs (fun _ hs₁ => h.ttLoad hs₁)
theorem ttCopy {l b} : P (s.ttCopy l b) := h.ite _ (h.setRnd _ _ hs) (h.setRnd _ _ hs)

theorem execTtLoadDone : AfterNext P (execTtLoadDone s) := by
  unfold Machine.execTtLoadDone
  split
  · exact hs
  · extract_lets n s₁ s₂ s₃
    have hs₂ : P s₂ := h.putB _ _ _ (h.putB _ _ _ (h.setRnd _ _ (h.ttCopy hs)))
    have hs₃ : P s₃ := by
      unfold s₃
      split
      · exact h.accReport hs₂
      · exact hs₂
    exact h.ite _ (h.putB _ _ _ hs₂) (h.ttFault hs₃)

theorem ttVerify {bank} : P (s.ttVerify bank) := h.ite _ (h.report _ _ hs) (h.setRnd _ _ (h.putB _ _ _ (h.putB _ _ _ (h.putB _ _ _ hs))))
theorem execTtVerify {bank} : AfterNext P (execTtVerify bank s) := h.landing hs (fun _ hs₁ => h.ttVerify hs₁)

theorem execTtVerifyDone : AfterNext P (execTtVerifyDone s) := by
  unfold Machine.execTtVerifyDone
  extract_lets s₁
  have hs₁ : P s₁ := h.putB _ _ _ (h.putB _ _ _ (h.setRnd _ _ hs))
  split
  · exact hs
  · split
    · exact h.putB _ _ _ hs₁
    · exact h.putB _ _ _ (h.ttFault hs₁)

theorem ttEnable {en} : P (s.ttEnable en) := h.ite _ (h.report _ _ hs) (h.setRnd _ _ (h.putB _ _ _ hs))
theorem execTtEnableWrite {en} : AfterNext P (execTtEnableWrite en s) := h.landing hs (fun _ hs₁ => h.ttEnable hs₁)

theorem ttBoundary : P s.ttBoundary := by
  unfold State.ttBoundary
  extract_lets s₁
  have hs₁ : P s₁ := h.setRnd _ _ hs
  split
  · exact hs
  · exact h.ite _ (h.setRnd _ _ (h.putB _ _ _ hs₁)) (h.ite _ hs₁ (h.ite _ (h.epochNow (h.put _ _ _ (h.putB _ _ _ hs₁))) (h.report _ _ (h.putB _ _ _
      hs₁))))

/-! ### Cameras, image pipelines and codecs -/

theorem setChan {c x} : P (s.setChan c x) := h.setVis _ _ hs
theorem camSignal {src f i v unit} : P (s.camSignal src f i v unit) := h.ite _ (h.signal hs) (h.report _ _ hs)
theorem setEnc {e x} : P (s.setEnc e x) := h.setVis _ _ hs

theorem countDrop {c busy} : P (s.countDrop c busy) := by
  unfold State.countDrop
  extract_lets s₁
  have hs₁ : P s₁ := h.addSat _ _ _ hs
  exact h.ite _ (h.report _ _ hs₁) hs₁

theorem beginFrame {c f drop} : P (s.beginFrame c f drop) := by
  unfold State.beginFrame
  extract_lets x k busy d f₁ kept s₁
  have hs₁ : P s₁ := h.setChan hs
  exact h.ite _ (h.countDrop hs₁) hs₁

theorem onFrame {c g} : P (s.onFrame c g) := h.setChan hs

theorem tuneRead {i f} : P (s.tuneRead i f).1 := by
  unfold State.tuneRead
  extract_lets old
  split
  · split
    · dsimp only
      exact h.setVis _ _ hs
    · dsimp only
      exact h.report _ _ hs
  · dsimp only
    exact h.report _ _ (h.accReport hs)

theorem beginRaw {c ts} : P (s.beginRaw c ts) := h.ite _ (h.beginFrame hs) (h.beginFrame (h.tuneRead (h.portRead hs)))
theorem endInput {c cause} : P (s.endInput c cause) := h.onFrame hs
theorem memFault {c} : P (s.memFault c) := h.report _ _ (h.setChan (h.clearNow hs))

theorem camWrite {c a b} : P (s.camWrite c a b).1 := by
  unfold State.camWrite
  split
  · exact hs
  · split
    · exact hs
    · exact h.fnWrite (h.portWrite hs)

theorem bypassLine {c f b ok} : P (s.bypassLine c f b ok) := by
  unfold State.bypassLine
  extract_lets n s₁
  have hs₁ : P s₁ := h.onFrame hs
  refine h.ite _ hs (h.ite _ (h.onFrame hs) ?_)
  split
  · next s' heq =>
    have hs' : P s' := of_fst (h.camWrite hs₁) heq
    exact hs'
  · next s' _ heq =>
    have hs' : P s' := of_fst (h.camWrite hs₁) heq
    exact h.memFault hs'

theorem rawLine {c f b ok} : P (s.rawLine c f b ok) := h.ite _ (h.onFrame hs) (h.ite _ (h.report _ _ (h.onFrame hs)) (h.onFrame hs))

theorem lineIn {c b ok} : P (s.lineIn c b ok) := by
  unfold State.lineIn
  split
  · exact h.ite _ hs (h.ite _ (h.bypassLine hs) (h.rawLine hs))
  · exact hs

theorem packetIn {p} : P (s.packetIn p) := by
  unfold State.packetIn
  extract_lets cs
  split
  · refine h.each _ (fun s₁ x₁ hs₁ => ?_) _ _ hs
    extract_lets s₂
    have hs₂ : P s₂ := h.endInput hs₁
    exact h.ite _ (h.beginFrame hs₂) (h.beginRaw hs₂)
  · exact h.each _ (fun _ _ hs₁ => h.endInput hs₁) _ _ hs
  · exact h.each _ (fun _ _ hs₂ => h.lineIn hs₂) _ _ (h.ite _ hs (h.report _ _ (h.put _ _ _ hs)))

theorem csi2 {p} : P (s.csi2 p) := by
  unfold State.csi2
  refine h.ite _ hs ?_
  extract_lets s₁
  have hs₁ : P s₁ := h.report _ _ hs
  split
  · split
    · exact h.each _ (fun _ _ hs₂ => h.lineIn hs₂) _ _ hs₁
    · exact hs₁
  · exact h.packetIn (h.put _ _ _ hs)
  · exact h.packetIn hs

theorem execCsi2Packet {p} : AfterNext P (execCsi2Packet p s) := h.csi2 hs
theorem setUpdate {g} : P (s.setUpdate g) := h.camSignal (h.wrN _ _ _ hs)

theorem encTake {e} : P (s.encTake e) := by
  unfold State.encTake
  extract_lets x c div
  refine h.ite _ hs ?_
  split
  · exact h.setEnc hs
  · exact hs

theorem frameDone {c f} : P (s.frameDone c f) := by
  unfold State.frameDone
  extract_lets s₁
  have hs₁ : P s₁ := h.ite _ (h.setGov _ _ hs) hs
  split
  · next s' _ heq =>
    have hs' : P s' := of_fst (h.camWrite hs₁) heq
    exact h.memFault hs'
  · next s' heq =>
    have hs' : P s' := of_fst (h.camWrite hs₁) heq
    extract_lets s₂ s₃ x₁ s₄ s₅
    have hs₂ : P s₂ := h.wrN _ _ _ hs'
    have hs₄ : P s₄ := h.setChan (h.ite _ (h.camSignal hs₂) hs₂)
    exact h.each _ (fun _ _ hs₆ => h.encTake hs₆) _ _ (h.each _ (fun _ _ hs₆ => h.setUpdate hs₆) _ _ hs₄)

theorem decodeDone {c} : P (s.decodeDone c) := by
  unfold State.decodeDone
  split
  · exact h.ite _ (h.wrN _ _ _ (h.setVis _ _ hs)) hs
  · exact hs

theorem finishFrame {c data} : P (s.finishFrame c data) := by
  unfold State.finishFrame
  extract_lets x
  split
  · exact hs
  · extract_lets s₁ s₂
    have hs₁ : P s₁ := h.setChan hs
    have hs₂ : P s₂ := h.ite _ (h.decodeDone hs₁) hs₁
    refine h.ite _ (h.frameDone hs₂) ?_
    split
    · next s' heq₁ =>
      have hs' : P s' := of_fst (h.camWrite hs₂) heq₁
      exact h.frameDone hs'
    · next s' _ heq₁ =>
      have hs' : P s' := of_fst (h.camWrite hs₂) heq₁
      exact h.memFault hs'

theorem execFrameFinish {c data} : AfterNext P (execFrameFinish c data s) := by
  unfold Machine.execFrameFinish
  split
  · exact h.ite _ (h.finishFrame hs) hs
  · exact hs

theorem sourceLost {c data} : P (s.sourceLost c data) := by
  unfold State.sourceLost
  extract_lets s₁
  have hs₁ : P s₁ := h.report _ _ (h.endInput hs)
  exact h.ite _ (h.finishFrame hs₁) hs₁

theorem execCamSourceLost {c data} : AfterNext P (execCamSourceLost c data s) := by
  unfold Machine.execCamSourceLost
  extract_lets x
  split
  · exact h.ite _ (h.sourceLost hs) hs
  · exact hs

theorem camLeave {d} : P (s.camLeave d) :=
  h.each _ (fun _ _ hs₁ => h.each _ (fun _ _ hs₃ => h.finishFrame hs₃) _ _ (h.report _ _ (h.setChan hs₁))) _ _ hs

theorem chanWrite {c v} : P (s.chanWrite c v) := by
  unfold State.chanWrite
  extract_lets en was v₁ busy s₁
  have hbusy : P busy := h.report _ _ hs
  have hs₁ : P s₁ := h.ite _ hbusy hs
  exact h.ite _ hbusy (h.ite _ (h.ite _ hs₁ (h.wrCfg _ _ _ hs₁)) (h.ite _ hbusy (h.wrCfg _ _ _ hs)))

theorem chanLatch {c old} : P (s.chanLatch c old) := h.ite _ hs (h.ite _ (h.setChan (h.wrN _ _ _ hs)) (h.setChan hs))
theorem execChanEnable {q c v} : AfterNext P (execChanEnable q c v s) := h.landing hs (fun _ hs₁ => h.chanWrite hs₁)

theorem streamWrite {i v} : P (s.streamWrite i v) := by
  unfold State.streamWrite
  extract_lets en was v₁ s₁
  have hs₁ : P s₁ := h.ite _ (h.report _ _ hs) hs
  exact h.ite _ (h.ite _ hs₁ (h.wrCfg _ _ _ hs₁)) (h.ite _ (h.report _ _ hs) (h.wrCfg _ _ _ hs))

theorem streamLatch {i old} : P (s.streamLatch i old) := h.ite _ (h.setVis _ _ hs) hs
theorem execIspStreamEnable {q i v} : AfterNext P (execIspStreamEnable q i v s) := h.landing hs (fun _ hs₁ => h.streamWrite hs₁)

theorem encWrite {e v} : P (s.encWrite e v) := by
  unfold State.encWrite
  extract_lets en was v₁ busy s₁
  have hbusy : P busy := h.report _ _ hs
  have hs₁ : P s₁ := h.ite _ hbusy hs
  exact h.ite _ (h.ite _ hs₁ (h.wrCfg _ _ _ hs₁)) (h.ite _ hbusy (h.wrCfg _ _ _ hs))

theorem encLatch {e old} : P (s.encLatch e old) := h.ite _ hs (h.setEnc hs)
theorem visLatch {off old} : P (s.visLatch off old) := h.ite _ (h.chanLatch hs) (h.ite _ (h.streamLatch hs) (h.ite _ (h.encLatch hs) hs))
theorem execEncodeEnable {q e v} : AfterNext P (execEncodeEnable q e v s) := h.landing hs (fun _ hs₁ => h.encWrite hs₁)

theorem auRead {i c} : P (s.auRead i c).1 := by
  unfold State.auRead
  extract_lets f bs size k da s₁
  have hs₁ : P s₁ := h.portRead hs
  split
  · exact h.accReport hs₁
  · extract_lets off len head s₂
    have hs₂ : P s₂ := h.portRead (h.portRead hs₁)
    split
    · exact hs₂
    · exact h.accReport hs₂
    · exact h.accReport hs₂

theorem decodeUnit {i c k} : P (s.decodeUnit i c k) := by
  unfold State.decodeUnit
  extract_lets r s₁ ts go broken
  have hs₁ : P s₁ := h.setVis _ _ (h.auRead hs)
  have hgo : ∀ u x1 x2 x3 x4, P u → P (go u x1 x2 x3 x4) := fun _ _ _ _ _ hs₂ => h.beginFrame (h.setVis _ _ hs₂)
  have hbroken : ∀ u x1 x2, P u → P (broken u x1 x2) := fun _ _ _ hs₂ => hgo _ _ _ _ _ (h.report _ _ (h.setVis _ _ hs₂))
  split
  · exact h.report _ _ (h.clearNow hs₁)
  · exact hbroken _ _ _ hs₁
  · exact h.ite _ (hbroken _ _ _ hs₁) (h.ite _ (hgo _ _ _ _ _ (h.setVis _ _ hs₁)) (hgo _ _ _ _ _ hs₁))

theorem execDecodeAccessUnit {i k} : AfterNext P (execDecodeAccessUnit i k s) := by
  unfold Machine.execDecodeAccessUnit
  split
  · exact h.ite _ (h.decodeUnit hs) hs
  · exact hs

theorem engineWrite {k f a b} : P (s.engineWrite k f a b).1 := h.fnWrite (h.portWrite hs)

theorem ringWrite {k f base size off b} : P (s.ringWrite k f base size off b) := by
  unfold State.ringWrite
  extract_lets n s₁
  have hs₁ : P s₁ := h.engineWrite hs
  exact h.ite _ (h.engineWrite hs₁) hs₁

theorem encodePicture {e k au} : P (s.encodePicture e k au) := by
  unfold State.encodePicture
  extract_lets x size f key done cls s₁ s₂ s₃ g
  have hdone : ∀ u x1, P u → P (done u x1) := fun _ _ hs₄ => h.encTake (h.setEnc hs₄)
  have hs₂ : P s₂ := h.engineWrite (h.ringWrite hs)
  exact h.ite _ (hdone _ _ (h.report _ _ hs)) (hdone _ _ (h.ite _ (h.camSignal hs₂) hs₂))

theorem execEncodePicture {e au} : AfterNext P (execEncodePicture e au s) := by
  unfold Machine.execEncodePicture
  split
  · exact h.ite _ (h.encodePicture hs) hs
  · exact hs

theorem execJpegJob : AfterNext P (execJpegJob s) := by
  unfold Machine.execJpegJob
  extract_lets f s₁
  have hs₁ : P s₁ := h.portRead hs
  refine h.ite _ ?_ hs
  split
  · exact h.setVis _ _ hs₁
  · exact h.setVis _ _ (h.accReport hs₁)

theorem jobRun {f b o} : P (s.jobRun f b o).1 := by
  unfold State.jobRun
  extract_lets n cls s₁
  have hs₁ : P s₁ := h.portRead hs
  split
  · exact hs
  · split
    · exact h.accReport hs₁
    · split
      · exact hs₁
      · split
        · exact hs₁
        · split
          · next s' _ heq₃ =>
            have hs' : P s' := of_fst (h.engineWrite hs₁) heq₃
            exact hs'
          · next s' heq₃ =>
            have hs' : P s' := of_fst (h.engineWrite hs₁) heq₃
            exact hs'

theorem jobDone {b o} : P (s.jobDone b o) := h.camSignal (h.setVis _ _ (h.engineWrite (h.engineWrite (h.jobRun hs))))

theorem execJpegJobDone {o} : AfterNext P (execJpegJobDone o s) := by
  unfold Machine.execJpegJobDone
  split
  · exact h.ite _ (h.jobDone hs) hs
  · exact hs

theorem tileEnd {b} : P (s.tileEnd b) := by
  unfold State.tileEnd
  refine h.ite _ ?_ (h.ite _ ?_ (h.ite _ (h.setVis _ _ hs) hs))
  · split
    · exact h.setChan hs
    · exact hs
  · split
    · exact h.setEnc hs
    · exact hs

theorem visionEnd {b owner} : P (s.visionEnd b owner) := by
  unfold State.visionEnd
  refine h.ite _ (h.tileEnd hs) ?_
  extract_lets s₁ s₂
  have hs₂ : P s₂ := h.setVis _ _ (h.add64 _ _ _ hs)
  split
  · exact h.setChan hs₂
  · exact hs₂

/-! ### Units of work -/

theorem noteChecked {k} : P (s.noteChecked k) := h.ite _ hs (h.setRnd _ _ hs)
theorem countDefer {n i owner lo who} : P (s.countDefer n i owner lo who) := h.ite _ hs (h.addSat _ _ _ (h.setRnd _ _ (h.ite _ (h.setGov _ _ hs) hs)))

theorem stepGo {d w r x t quantumEnd} : P (s.stepGo d w r x t quantumEnd) := by
  unfold State.stepGo
  extract_lets st g
  split
  · next y heq =>
    have hy : P y.1 := (h.stepHead hs).error heq
    exact h.failRun hy
  · next s' heq =>
    have hs' : P s' := (h.stepHead hs).ok heq
    extract_lets s₁ s₂ s₃ s₄
    have hs₃ : P s₃ := h.put _ _ _ (h.put _ _ _ (h.setDrun (h.add64 _ _ _ (h.setFloor _ _ hs'))))
    exact h.each _ (fun _ _ hs₅ => h.setClerk hs₅) _ _ (h.setDunit (h.setUnit _ _ _ hs₃))

theorem becomeReady {d w t} : P (s.becomeReady d w t) := h.ite _ hs (h.setFloor _ _ (h.writeSeq hs))
theorem setWaits {ring seq d b} : P (s.setWaits ring seq d b) := h.syncWaits (h.setDrun hs)

theorem stepFit {d w r x t} : P (s.stepFit d w r x t) := by
  unfold State.stepFit
  extract_lets st g k fit s₁
  have hs₁ : P s₁ := h.noteChecked hs
  clear_value fit
  split
  · exact h.failRun hs₁
  · exact hs₁
  · exact h.countDefer hs₁
  · exact h.stepGo hs₁

theorem advance {d w r v u} : P (s.advance d w r v u) := by
  unfold State.advance
  extract_lets st g e
  refine h.ite _ hs ?_
  split
  · exact h.setDunit hs
  · exact h.countDefer hs
  · exact hs

theorem stepStart {d w t} : P (s.stepStart d w t) := by
  unfold State.stepStart
  extract_lets s₁ s₂
  have hs₁ : P s₁ := h.becomeReady hs
  have hs₂ : P s₂ := h.becomeReady (h.setWaits hs)
  split
  · exact hs
  · split
    · exact hs
    · refine h.ite _ hs ?_
      extract_lets limited
      split
      · exact h.ite _ (h.ite _ hs₁ (h.advance hs₁)) hs
      · exact h.ite _ hs (h.ite _ (h.runSettle (h.setDrun hs)) (h.ite _ (h.setWaits hs) (h.ite _ hs (h.ite _ hs₂ (h.stepFit hs₂)))))

theorem visionStart {b w t} : P (s.visionStart b w t) := by
  unfold State.visionStart
  refine h.ite _ hs ?_
  split
  · exact hs
  · split
    · exact h.setUnit _ _ _ hs
    · exact h.countDefer hs
    · exact hs

theorem execUnitStart {i w t} : AfterNext P (execUnitStart i w t s) := by
  unfold Machine.execUnitStart
  split
  · exact h.ite _ (h.stepStart (h.atNs _ _ hs)) hs
  · exact h.ite _ (h.visionStart (h.atNs _ _ hs)) hs

theorem nextStep {d u old t} : P (s.nextStep d u old t) := by
  unfold State.nextStep
  split
  · split
    · exact h.ite _ hs (h.stepGo hs)
    · exact hs
  · exact hs

theorem stepEnd {d u f t} : P (s.stepEnd d u f t) := by
  unfold State.stepEnd
  split
  · exact h.closeUnit hs
  · next r _ =>
    extract_lets node old s₁ tail s₂ s₃
    have hs₁ : P s₁ := h.each _ (fun _ _ hs₁ => h.dueStores hs₁) _ _ hs
    have htail : AfterExcept P P tail := h.stepTail hs₁
    have hs₂ : P s₂ := by
      unfold s₂
      clear_value tail
      cases tail with
      | ok u => exact htail
      | error e => exact h.failRun htail
    exact h.nextStep (h.runSettle (h.closeUnit (h.setDrun hs₂)))

theorem execStepEnd {d f t} : AfterNext P (execStepEnd d f t s) := by
  unfold Machine.execStepEnd
  split
  · exact h.ite _ (h.stepEnd (h.atNs _ _ hs)) hs
  · exact hs

theorem execUnitEnd {i t} : AfterNext P (execUnitEnd i t s) := by
  unfold Machine.execUnitEnd
  split
  · exact h.ite _ (h.visionEnd (h.setUnit _ _ _ (h.atNs _ _ hs))) hs
  · exact h.ite _ (h.serveHeld (h.atNs _ _ hs)) hs

theorem stopFor {i r status} : P (s.stopFor i r status) := by
  unfold State.stopFor
  extract_lets s₁
  have hs₁ : P s₁ := by
    unfold s₁
    split
    · exact h.failRun hs
    · exact hs
  exact h.ringStopping hs₁

theorem overrunRing {i r} : P (s.overrunRing i r) := by
  unfold State.overrunRing
  extract_lets lim win l s₁
  have hs₁ : P s₁ := h.report _ _ (h.setRnd _ _ hs)
  exact h.ite _ (h.stopFor (h.report _ _ hs₁)) hs₁

theorem execOverrun {i t} : AfterNext P (execOverrun i t s) := by
  unfold Machine.execOverrun
  split
  · refine h.ite _ (h.xOverrun (h.atNs _ _ hs)) (h.ite _ hs ?_)
    extract_lets s₁
    have hs₁ : P s₁ := h.addSat _ _ _ (h.setUnit _ _ _ (h.atNs _ _ hs))
    split
    · exact h.overrunRing hs₁
    · exact h.ite _ hs₁ (h.report _ _ hs₁)
  · exact hs

theorem execUnitHang {i t} : AfterNext P (execUnitHang i t s) := by
  unfold Machine.execUnitHang
  split
  · refine h.ite _ hs ?_
    extract_lets s₁ s₂ s₃ run s₄
    have hs₁ : P s₁ := h.report _ _ (h.atNs _ _ hs)
    have hs₂ : P s₂ := by
      unfold s₂
      split
      · exact h.stopFor hs₁
      · exact hs₁
    have hs₃ : P s₃ := by
      unfold s₃
      split
      · exact h.setDrun hs₂
      · exact hs₂
    have hs₄ : P s₄ := h.closeUnit hs₃
    refine h.ite _ ?_ (h.setUnit _ _ _ hs₂)
    clear_value run
    split
    · exact h.runSettle hs₄
    · exact hs₄
  · exact hs

/-! ### SIGNAL, ABORT and function-level reset -/

theorem signalEnvelope {r seq e} : P (s.signalEnvelope r seq e) :=
  h.ite _ (h.complete (h.signal hs)) (h.ite _ (h.complete hs) (h.relaySend (h.setRelay _ _ hs)))

theorem execSignal {r seq} : AfterNext P (execSignal r seq s) := by
  unfold Machine.execSignal
  split
  · exact h.ite _ hs (h.signalEnvelope hs)
  · exact hs

theorem execRemoteSignalTimeout {r seq} : AfterNext P (execRemoteSignalTimeout r seq s) := by
  unfold Machine.execRemoteSignalTimeout
  split
  · exact h.ite _ (h.complete (h.relayForget hs)) hs
  · exact hs

theorem fwAbort {r seq} : P (s.fwAbort r seq) := by
  unfold State.fwAbort
  split
  · exact hs
  · exact h.setFw _ _ (h.ite _ hs (h.each _ (fun _ _ hs₂ => h.put _ _ _ hs₂) _ _ (h.setFw _ _ hs)))

theorem abortFlight {r f} : P (s.abortFlight r f) := by
  unfold State.abortFlight
  refine h.ite _ hs ?_
  split
  · exact h.ite _ (h.failRun hs) (h.complete hs)
  · exact h.ite _ hs (h.complete hs)
  · exact h.complete (h.memForget (h.psAbort hs))
  · exact h.complete (h.setServe _ _ hs)
  · exact h.complete (h.memForget (h.fwAbort hs))
  · exact h.ite _ (h.loadAbort hs) (h.complete hs)
  · exact h.complete (h.memForget (h.relayForget hs))

theorem ringAbort {r} : P (s.ringAbort r) :=
  h.ite _ (h.ringSettle (h.each _ (fun _ _ hs₂ => h.abortFlight hs₂) _ _ (h.ringStopping (h.putB _ _ _ hs)))) hs

theorem execRingAbort {q r} : AfterNext P (execRingAbort q r s) := h.landing hs (fun _ hs₁ => h.ringCtl hs₁ (fun _ hs₂ => h.ringAbort hs₂))

theorem ringKill {r} : P (s.ringKill r) := by
  unfold State.ringKill
  extract_lets x s₁
  have hs₁ : P s₁ := h.ringAbort (h.setRing _ _ _ hs)
  exact h.ite _ (h.ringOff hs₁) hs₁

theorem resetFunction {f} : P (s.resetFunction f) := by
  unfold State.resetFunction
  extract_lets s₁ s₂
  have hs₂ : P s₂ := h.setServe _ _ (h.each _ (fun _ _ hs₃ => h.ringKill hs₃) _ _ hs)
  split
  · exact h.loseHolder hs₂
  · exact hs₂

theorem flr {f} : P (s.flr f) := h.each _ (fun _ _ hs₁ => h.resetFunction hs₁) _ _ hs
theorem execFunctionLevelReset {f} : AfterNext P (execFunctionLevelReset f s) := h.ite _ (h.flr hs) hs

/-! ### The control ports and the window guard -/

theorem cx {p i} : P (s.cx p i) := h.addSat _ _ _ hs
theorem cutFrame {p t} : P (s.cutFrame p t) := h.setPort _ _ _ hs
theorem guardCut {p t} : P (s.guardCut p t) := h.report _ _ (h.addSat _ _ _ (h.cutFrame hs))

theorem execGuardCut {p t} : AfterNext P (execGuardCut p t s) := by
  unfold Machine.execGuardCut
  split
  · split
    · exact h.ite _ (h.guardCut (h.atNs _ _ hs)) hs
    · exact hs
  · exact hs

theorem guardSwitch {p} : P (s.guardSwitch p) := by
  unfold State.guardSwitch
  extract_lets s' s'₁
  have hs' : P s' := h.putB _ _ _ hs
  have hs'₁ : P s'₁ := by
    unfold s'₁
    split
    · exact h.ite _ (h.guardCut hs') hs'
    · exact hs'
  exact h.ite _ (h.put _ _ _ hs'₁) (h.report _ _ hs')

theorem execGuardSwitchApply {p} : AfterNext P (execGuardSwitchApply p s) := h.ite _ (h.guardSwitch hs) hs
theorem silence {p} : P (s.silence p) := h.cutFrame (h.putB _ _ _ hs)
theorem execGuardDisagree {p} : AfterNext P (execGuardDisagree p s) := h.ite _ (h.report _ _ (h.silence hs)) hs
theorem guardBoundary {p} : P (s.guardBoundary p) := h.ite _ (h.putB _ _ _ hs) hs

theorem setLink {p speed} : P (s.setLink p speed) := by
  unfold State.setLink
  refine h.ite _ hs ?_
  extract_lets was s₁ s₂
  have hs₁ : P s₁ := h.putB _ _ _ (h.put _ _ _ (h.putB _ _ _ (h.cutFrame hs)))
  have hs₂ : P s₂ := h.ite _ (h.setRnd _ _ hs₁) hs₁
  exact h.ite _ (h.report _ _ hs₂) hs₂

theorem execCportLink {p offer t} : AfterNext P (execCportLink p offer t s) := h.setLink (h.atNs _ _ hs)
theorem portBoundary {p} : P (s.portBoundary p) := h.ite _ hs (h.setLink hs)
theorem execPreemptVerify {p} : AfterNext P (execPreemptVerify p s) := h.ite _ (h.putB _ _ _ hs) hs

theorem execCportFrameReceive {p f fcs t} : AfterNext P (execCportFrameReceive p f fcs t s) :=
  h.ite _ hs (h.ite _ (h.cx (h.atNs _ _ hs)) (h.ite _ (h.setPort _ _ _ (h.atNs _ _ hs)) (h.atNs _ _ hs)))

theorem cxReq {p last f seq w mask} : P (s.cxReq p last f seq w mask) := by
  unfold State.cxReq
  extract_lets s₁ x n
  have hs₁ : P s₁ := h.setPort _ _ _ (h.cx hs)
  refine h.ite _ (h.cx hs₁) ?_
  split
  · exact h.cx hs₁
  · exact h.addSat _ _ _ (h.setPort _ _ _ hs₁)

theorem cxItem {p c} : P (s.cxItem p c).2 := by
  unfold State.cxItem
  split
  · exact hs
  · exact h.useFrees _ _ hs

theorem cxItems {p l} : P (s.cxItems p l).2 := by
  induction l generalizing s with
  | nil => exact hs
  | cons c t ih => exact ih (h.cxItem hs)

theorem cxSnapshot {p r} : P (s.cxSnapshot p r) := by
  unfold State.cxSnapshot
  extract_lets cs x pdu
  exact h.setPort _ _ _ (h.cxItems hs)

theorem execCxSnapshot {p t} : AfterNext P (execCxSnapshot p t s) := by
  unfold Machine.execCxSnapshot
  split
  · exact h.ite _ (h.cxSnapshot (h.setPort _ _ _ (h.atNs _ _ hs))) hs
  · exact hs

theorem svcAnswer {p last f seq op body} : P (s.svcAnswer p last f seq op body) := by
  unfold State.svcAnswer
  extract_lets s₁ pdu due
  have hs₁ : P s₁ := h.cx hs
  exact h.ite _ hs₁ (h.setPort _ _ _ (h.useFree _ hs₁))

theorem dropRx {p} : P (s.dropRx p) := h.setPort _ _ _ hs

theorem execReq {p} : AfterNext P (execReq p s) := by
  unfold Machine.execReq
  split
  · exact h.cxReq (h.dropRx hs)
  · exact h.ite _ hs (h.svcAnswer (h.dropRx hs))
  · exact h.cx (h.dropRx hs)
  · exact hs

theorem execSvcIdentify {p} : AfterNext P (execSvcIdentify p s) := by
  unfold Machine.execSvcIdentify
  split
  · exact h.svcAnswer (h.dropRx hs)
  · exact hs

theorem execSvcCounters {p} : AfterNext P (execSvcCounters p s) := by
  unfold Machine.execSvcCounters
  split
  · exact h.svcAnswer (h.dropRx hs)
  · exact hs

theorem execCportCxSilent {p t} : AfterNext P (execCportCxSilent p t s) := by
  unfold Machine.execCportCxSilent
  extract_lets n
  split
  · exact h.ite _ (h.report _ _ (h.setPort _ _ _ (h.atNs _ _ hs))) hs
  · exact hs

theorem startFrame {p t wend f} : P (s.startFrame p t wend f) := h.setPort _ _ _ hs

theorem rspSend {p f t} : P (s.rspSend p f t) := by
  unfold State.rspSend
  extract_lets dur s₁
  have hs₁ : P s₁ := h.setPort _ _ _ hs
  refine h.ite _ (h.ite _ (h.cx hs₁) hs₁) (h.ite _ hs ?_)
  split
  · extract_lets s₂
    have hs₂ : P s₂ := h.startFrame (h.setPort _ _ _ hs)
    exact h.ite _ (h.cx hs₂) hs₂
  · exact h.ite _ hs (h.addSat _ _ _ (h.setPort _ _ _ hs))

theorem execRspSend {p w t} : AfterNext P (execRspSend p w t s) := by
  unfold Machine.execRspSend
  split
  · exact h.ite _ (h.rspSend (h.atNs _ _ hs)) hs
  · exact hs

theorem ptpSend {p f t} : P (s.ptpSend p f t) := by
  unfold State.ptpSend
  extract_lets dur
  refine h.ite _ hs ?_
  split
  · exact h.startFrame hs
  · exact h.ite _ (h.addSat _ _ _ (h.setPort _ _ _ (h.startFrame hs))) (h.addSat _ _ _ hs)

theorem execPtpFrameSend {p f t} : AfterNext P (execPtpFrameSend p f t s) := h.ite _ (h.ptpSend (h.atNs _ _ hs)) hs

/-! ### The memory controller -/

theorem setMchan {c f} : P (s.setMchan c f) := h.setMemc _ _ hs

theorem poisonLine {line} : P (s.poisonLine line) := by
  unfold State.poisonLine
  extract_lets s₁
  have hs₁ : P s₁ := h.wrN _ _ _ hs
  exact h.ite _ hs₁ (h.ite _ (h.setPoison hs₁) (h.report _ _ (h.putB _ _ _ hs₁)))

theorem memAnswer {tag x} : P (s.memAnswer tag x) := h.setMemc _ _ hs

theorem memPoison {e} : P (s.memPoison e) := by
  unfold State.memPoison
  extract_lets s₁ stop
  have hs₁ : P s₁ := h.memAnswer hs
  have hstop : ∀ x0 x1, P (stop x0 x1) := fun _ _ => h.ite _ (h.failRun hs₁) (h.ite _ (h.complete hs₁) hs₁)
  split
  · exact hstop _ _ 
  · exact hstop _ _ 
  · exact hs₁

theorem memQueue {tag b a o} : P (s.memQueue tag b a o) := by
  unfold State.memQueue
  extract_lets c e
  split
  · exact h.ite _ (h.memPoison hs) (h.ite _ (h.memAnswer hs) (h.setMchan hs))
  · exact h.ite _ (h.memAnswer (h.store hs)) (h.setMchan (h.store hs))

theorem memRequest {tag b a o} : P (s.memRequest tag b a o) := by
  unfold State.memRequest
  extract_lets n
  refine h.ite _ hs ?_
  split
  · exact h.memAnswer (h.accReport hs)
  · refine h.ite _ (h.sramAccess hs) (h.ite _ ?_ (h.ite _ (h.setMchan hs) (h.memQueue hs)))
    split
    · exact h.memAnswer hs
    · exact h.memAnswer (h.wrMem _ _ _ hs)

theorem portEnter {c n} : P (s.portEnter c n) := by
  induction n generalizing s with
  | zero => exact hs
  | succ n ih =>
    rw [State.portEnter]
    split
    · exact hs
    · exact h.ite _ hs (ih (h.memQueue (h.setMchan hs)))

theorem memCharge {e} : P (s.memCharge e) := h.memSpend hs
theorem memConfirm {c} : P (s.memConfirm c) := h.ite _ (h.setMchan hs) hs

theorem burst {c rows} : P (s.burst c rows) := by
  unfold State.burst
  extract_lets s₁
  have hs₁ : P s₁ := h.memConfirm hs
  refine h.ite _ hs₁ ?_
  split
  · exact hs₁
  · extract_lets s₂ s₃ s₄
    have hs₃ : P s₃ := h.setMchan (h.memCharge hs₁)
    exact h.portEnter (h.ite _ (h.memAnswer hs₃) hs₃)

theorem execMemBurstIssue {c rows t} : AfterNext P (execMemBurstIssue c rows t s) := h.ite _ (h.burst (h.atNs _ _ hs)) hs

theorem memPromote {c tag} : P (s.memPromote c tag) := by
  unfold State.memPromote
  split
  · exact hs
  · exact h.ite _ hs (h.addSat _ _ _ (h.setMchan hs))

theorem execMemPromote {c tag t} : AfterNext P (execMemPromote c tag t s) := h.ite _ (h.memPromote (h.atNs _ _ hs)) hs
theorem memRetire {c tag} : P (s.memRetire c tag) := h.setMchan hs
theorem writeBack {c e} : P (s.writeBack c e) := h.ite _ hs (h.setMchan hs)

theorem dataGood {c e corrected} : P (s.dataGood c e corrected) := by
  unfold State.dataGood
  extract_lets err s₁ s₂ s₃
  have hs₁ : P s₁ := h.memRetire hs
  have hs₂ : P s₂ := h.ite _ (h.writeBack (h.report _ _ (h.addSat _ _ _ hs₁))) hs₁
  have hs₃ : P s₃ := h.ite _ (h.report _ _ (h.addSat _ _ _ hs₂)) hs₂
  exact h.ite _ hs₃ (h.memAnswer hs₃)

theorem dataBad {c e} : P (s.dataBad c e) := by
  unfold State.dataBad
  extract_lets err line later s₁ s₂
  have hs₁ : P s₁ := h.report _ _ (h.addSat _ _ _ (h.memRetire hs))
  have hs₂ : P s₂ := h.ite _ hs₁ (h.poisonLine hs₁)
  exact h.ite _ (h.setMchan hs) (h.ite _ (h.report _ _ (h.ite _ hs₂ (h.wrMem _ _ _ hs₂))) (h.memPoison hs₂))

theorem execMemReadData {c tag k} : AfterNext P (execMemReadData c tag k s) := by
  unfold Machine.execMemReadData
  split
  · exact hs
  · refine h.ite _ (h.memRetire hs) ?_
    split
    · exact h.dataGood hs
    · exact h.dataGood hs
    · exact h.dataBad hs

theorem dramCap : P s.dramCap := h.put _ _ _ hs
theorem unverify : P s.unverify := h.each _ (fun _ _ hs₁ => h.ite _ (h.putB _ _ _ hs₁) hs₁) _ _ hs

theorem dxDrop {c} : P (s.dxDrop c) := by
  unfold State.dxDrop
  extract_lets m s₁ s₂ s₃ s₄
  have hs₂ : P s₂ := h.each _ (fun _ _ hs₅ => h.wrMem _ _ _ hs₅) _ _ (h.setMchan hs)
  have hs₃ : P s₃ := h.each _ (fun _ _ hs₅ => h.ite _ hs₅ (h.memPoison hs₅)) _ _ hs₂
  have hs₄ : P s₄ := h.each _ (fun _ _ hs₅ => h.memAnswer (h.accReport hs₅)) _ _ hs₃
  exact h.each _ (fun _ _ hs₅ => h.memAnswer (h.accReport hs₅)) _ _ hs₄

theorem dxDown : P s.dxDown := by
  unfold State.dxDown
  extract_lets s₁
  have hs₁ : P s₁ := h.setMemc _ _ (h.put _ _ _ (h.put _ _ _ hs))
  exact h.unverify (h.report _ _ (h.each _ (fun _ _ hs₂ => h.dxDrop hs₂) _ _ hs₁))

theorem execDdr5Alert {sub} : AfterNext P (execDdr5Alert sub s) := h.ite _ hs (h.ite _ (h.dxDown hs) (h.report _ _ (h.addSat _ _ _ (h.setMchan hs))))

theorem dxCtrl {q v} : P (s.dxCtrl q v) := by
  unfold State.dxCtrl
  refine h.ite _ hs ?_
  extract_lets m s₁ st
  have hs₁ : P s₁ := h.put _ _ _ hs
  exact h.ite _ hs₁ (h.ite _ (h.report _ _ hs₁) (h.setMemc _ _ (h.dramCap (h.put _ _ _ (h.wrN _ _ _ (h.putB _ _ _ hs₁))))))

theorem execDdr5Bringup {q v} : AfterNext P (execDdr5Bringup q v s) := h.landing hs (fun _ hs₁ => h.dxCtrl hs₁)

theorem dxDone {o} : P (s.dxDone o) := by
  unfold State.dxDone
  extract_lets s₁ off
  have hs₁ : P s₁ := h.putB _ _ _ hs
  have hoff : ∀ u x1, P u → P (off u x1) := fun _ _ hs₂ => h.setMemc _ _ (h.put _ _ _ hs₂)
  split
  · exact hoff _ _ hs₁
  · extract_lets s₂
    have hs₂ : P s₂ := h.put _ _ _ (h.put _ _ _ hs₁)
    split
    · exact h.report _ _ (hoff _ _ hs₂)
    · exact h.ite _ (h.report _ _ (hoff _ _ hs₂)) (h.ite _ (h.report _ _ (hoff _ _ hs₂)) (h.each _ (fun _ _ hs₄ => h.setMchan hs₄) _ _ (h.dramCap
        (h.put _ _ _ (h.put _ _ _ hs₂)))))

theorem execDdr5BringupDone {o} : AfterNext P (execDdr5BringupDone o s) := h.ite _ (h.dxDone hs) hs
theorem refreshSets {c n} : P (s.refreshSets c n) := h.setMemc _ _ (h.setMchan hs)

theorem refreshDebt {c} : P (s.refreshDebt c) := by
  unfold State.refreshDebt
  extract_lets m s₁
  have hs₁ : P s₁ := h.setMchan hs
  exact h.ite _ hs (h.ite _ (h.report _ _ (h.addSat _ _ _ (h.refreshSets hs₁))) hs₁)

theorem execRefreshDebt {c t} : AfterNext P (execRefreshDebt c t s) := h.refreshDebt (h.atNs _ _ hs)
theorem execTempStateChange {c k} : AfterNext P (execTempStateChange c k s) := h.ite _ (h.put _ _ _ hs) hs

theorem trainOn {c passes} : P (s.trainOn c passes) := by
  unfold State.trainOn
  extract_lets s₁
  have hs₁ : P s₁ := h.setMemc _ _ (h.setMchan hs)
  exact h.ite _ (h.dxDown hs₁) hs₁

theorem execTrainingAction {c passes} : AfterNext P (execTrainingAction c passes s) :=
  h.ite _ hs (h.ite _ (h.trainOn (h.report _ _ (h.addSat _ _ _ hs))) (h.ite _ (h.trainOn hs) (h.ite _ (h.trainOn (h.setMemc _ _ hs)) hs)))

theorem capShort : P s.capShort := h.ite _ (h.each _ (fun _ _ hs₁ => h.ite _ (h.addSat _ _ _ hs₁) hs₁) _ _ hs) hs

theorem memBoundary : P s.memBoundary := by
  unfold State.memBoundary
  extract_lets s₁ s₂
  have hs₂ : P s₂ := h.each _ (fun _ _ hs₃ => h.ite _ hs₃ (h.setMchan hs₃)) _ _ (h.setMemc _ _ hs)
  exact h.ite _ (h.dramCap hs₂) hs₂

theorem memEntry : P s.memEntry := by
  unfold State.memEntry
  extract_lets s₁
  have hs₁ : P s₁ := h.each _ (fun _ _ hs₂ => h.ite _ (h.refreshSets hs₂) hs₂) _ _ hs
  exact h.ite _ hs₁ (h.each _ (fun _ _ hs₂ => h.runSettle hs₂) _ _ (h.meshEntry (h.serveMoves hs₁)))

theorem regulatorStart {k} : P (s.regulatorStart k) := h.setMemc _ _ hs

/-! ### What stops and what resets -/

theorem resetRegs {p} : P (s.resetRegs p) := by
  unfold State.resetRegs
  extract_lets s₁
  exact h.setBus _ _ (h.setActing _ _ (h.keepRegs _ _ hs))

theorem setPdom {i f} : P (s.setPdom i f) := h.setPwr _ _ hs

theorem pmStop {d} : P (s.pmStop d) := by
  unfold State.pmStop
  extract_lets hit s₁ s₂
  have hs₁ : P s₁ := h.each _ (fun _ _ hs₃ => h.setDrun hs₃) _ _ hs
  exact h.each _ (fun _ _ hs₃ => h.failRun hs₃) _ _ (h.ite _ (h.closeUnit hs₁) hs₁)

theorem pmSync {d} : P (s.pmSync d) := h.putB _ _ _ hs

theorem procStop {p cause} : P (s.procStop p cause) := by
  unfold State.procStop
  extract_lets s₁ s₂
  have hs₂ : P s₂ := h.setFw _ _ (h.wrN _ _ _ (h.putB _ _ _ (h.put _ _ _ (h.put _ _ _ hs))))
  exact h.ite _ (h.loseHolder hs₂) (h.pmSync (h.pmStop hs₂))

theorem procRelease {p version cause} : P (s.procRelease p version cause) := by
  unfold State.procRelease
  extract_lets why s₁ s₂
  have hs₂ : P s₂ := h.setFw _ _ (h.addSat _ _ _ (h.wrN _ _ _ (h.put _ _ _ hs)))
  exact h.ite _ (h.pmSync hs₂) hs₂

theorem pmFromStore {d cause} : P (s.pmFromStore d cause) := h.ite _ (h.procRelease (h.setFw _ _ hs)) (h.pmSync (h.put _ _ _ hs))

theorem pmDown {d} : P (s.pmDown d) := by
  unfold State.pmDown
  extract_lets p s₁
  exact h.setFw _ _ (h.wrN _ _ _ (h.put _ _ _ (h.pmStop hs)))

theorem clerksLost {d} : P (s.clerksLost d) := h.setFloor _ _ (h.releaseHold hs)
theorem procMonitors {d} : P (s.procMonitors d) := h.each _ (fun _ _ hs₁ => h.putB _ _ _ hs₁) _ _ hs

theorem domainStop {i} : P (s.domainStop i) := by
  unfold State.domainStop
  extract_lets s₁ s₂
  have hs₁ : P s₁ := h.pairsLeave hs
  have hs₂ : P s₂ := h.ite _ (h.relayDown hs₁) hs₁
  exact h.ite _ (h.procMonitors (h.setPdom hs₁)) (h.ite _ (h.camLeave hs₁) (h.ite _ (h.fabStop hs₁) (h.ite _ (h.ite _ hs₂ (h.put _ _ _ (h.put _ _ _
      hs₂))) (h.ite _ (h.put _ _ _ (h.put _ _ _ (h.putB _ _ _ hs₁))) (h.ite _ (h.each _ (fun _ _ hs₃ => h.ite _ (h.report _ _ (h.wrN _ _ _ hs₃)) hs₃)
      _ _ hs₁) hs₁)))))

theorem domainRetain {i} : P (s.domainRetain i) := h.ite _ (h.pmDown (h.clerksLost hs)) (h.ite _ (h.setFab _ _ hs) hs)

theorem domainOff {i} : P (s.domainOff i) := by
  unfold State.domainOff
  extract_lets s₁ s₂ s₃ s₄
  have hs₃ : P s₃ := h.setBit _ _ _ _ (h.setFloor _ _ (h.pmDown (h.clerksLost hs)))
  have hs₄ : P s₄ := h.ite _ (h.putPoison _ _ (h.keepMem _ _ hs₃)) (h.ite _ (h.fabOff hs) (h.ite _ hs (h.ite _ (h.setLinks _ _ hs) (h.ite _
      (h.setRelay _ _ hs) (h.ite _ (h.putB _ _ _ (h.loseHolder (h.loseHolder hs))) hs)))))
  exact h.resetRegs hs₄

theorem latchPins {g} : P (s.latchPins g) := h.ite _ hs (h.setPwr _ _ hs)
theorem latchPads {i} : P (s.latchPads i) := h.each _ (fun _ _ hs₁ => h.setBit _ _ _ _ (h.latchPins hs₁)) _ _ hs

theorem setDom {i k} : P (s.setDom i k) := by
  unfold State.setDom
  extract_lets s₁
  exact h.setPwr _ _ (h.put _ _ _ (h.ite _ (h.procMonitors hs) hs))

theorem setAvs {b f} : P (s.setAvs b f) := h.setPwr _ _ hs

theorem pwrEvent {f} : P (s.pwrEvent f) := by
  unfold State.pwrEvent
  extract_lets s₁ s₂
  have hs₁ : P s₁ := h.putB _ _ _ hs
  exact h.coreIrq _ _ _ _ (h.ite _ (h.msix _ _ _ hs₁) hs₁)

theorem pwrResult {i tag reason result dom} : P (s.pwrResult i tag reason result dom) := by
  unfold State.pwrResult
  split <;> exact h.pwrEvent (h.wrN _ _ _ hs)

theorem pwrSync {i} : P (s.pwrSync i) := by
  unfold State.pwrSync
  extract_lets x s₁
  split
  · exact h.putB _ _ _ (h.putB _ _ _ (h.put _ _ _ (h.putB _ _ _ hs)))
  · exact h.putB _ _ _ (h.putB _ _ _ (h.put _ _ _ (h.putB _ _ _ hs)))

theorem dropPend {i} : P (s.dropPend i) := by
  unfold State.dropPend
  split
  · split
    · exact h.pwrSync (h.pwrResult (h.setPdom hs))
    · exact hs
  · split
    · exact h.pwrSync (h.pwrResult (h.setPwr _ _ hs))
    · exact hs

theorem dropTrans {i} : P (s.dropTrans i) := by
  unfold State.dropTrans
  extract_lets x l s₁
  exact h.pwrSync (h.setPdom (h.each _ (fun _ _ hs₂ => h.pwrResult hs₂) _ _ hs))

theorem dropDev : P s.dropDev := by
  unfold State.dropDev
  split
  · exact h.pwrSync (h.pwrResult (h.setPwr _ _ hs))
  · exact hs

theorem dropRequests : P s.dropRequests := by
  unfold State.dropRequests
  extract_lets s₁ s₂
  have hs₁ : P s₁ := h.each _ (fun _ _ hs₃ => h.dropPend (h.dropTrans hs₃)) _ _ hs
  exact h.each _ (fun _ _ hs₃ => h.setAvs hs₃) _ _ (h.dropPend (h.dropDev hs₁))

theorem forceOff {i} : P (s.forceOff i) := h.ite _ hs (h.setDom (h.domainOff (h.ite _ (h.domainStop hs) hs)))
theorem openDomain {mid i} : P (s.openDomain mid i) := h.ite _ (h.pwrSync (h.setPdom hs)) (h.forceOff hs)
theorem openNow {i} : P (s.openNow i) := h.ite _ (h.pwrSync (h.setPdom (h.forceOff hs))) hs
theorem safeThermal : P s.safeThermal := h.ite _ (h.setPwr _ _ (h.latchPads (h.ite _ hs (h.forceOff hs)))) hs

theorem expressGone : P s.expressGone := by
  unfold State.expressGone
  extract_lets s₁
  have hs₁ : P s₁ := by
    unfold s₁
    split
    · exact h.report _ _ hs
    · exact hs
  exact h.each _ (fun _ _ hs₂ => h.setXchan hs₂) _ _ hs₁

theorem restartHost : P s.restartHost := h.ite _ (h.setTrust _ _ (h.put _ _ _ hs)) hs

theorem spineReset {kind} : P (s.spineReset kind) := by
  unfold State.spineReset
  extract_lets s₁ s₂ s₃ s₄ s₅ mid s₆ s₇ lost s₈ s₉ s10 s11 s12 s13
  have hs₂ : P s₂ := h.setFloor _ _ (h.setServe _ _ (h.setFetch _ _ (h.clearRings _ (h.expressGone hs))))
  have hs₃ : P s₃ := h.setLedgerRun _ _ (h.setMemc _ _ (h.putPoison _ _ (h.setRelay _ _ hs₂)))
  have hs₇ : P s₇ := h.each _ (fun _ _ hs14 => h.openDomain hs14) _ _ (h.dropRequests (h.setRnd _ _ (h.txnReset hs₃)))
  have hs11 : P s11 := h.putB _ _ _ (h.putB _ _ _ (h.putB _ _ _ (h.setFw _ _ (h.resetRegs (h.keepMem _ _ hs₇)))))
  exact h.setBoot _ _ (h.restartHost (h.put _ _ _ (h.setPwr _ _ (h.put _ _ _ hs11))))

theorem watchReset : P s.watchReset := by
  unfold State.watchReset
  extract_lets valid s₁ s₂ s₃ s₄ s₅ s₆
  have hs₂ : P s₂ := h.each _ (fun _ _ hs₇ => h.setXchan hs₇) _ _ (h.each _ (fun _ _ hs₇ => h.cutFrame hs₇) _ _ hs)
  have hs₅ : P s₅ := h.setRnd _ _ (h.resetRegs (h.each _ (fun _ _ hs₇ => h.setPort _ _ _ hs₇) _ _ (h.setXp _ _ hs₂)))
  exact h.put _ _ _ (h.ite _ (h.report _ _ hs₅) hs₅)

/-! ### Power domains and device states -/

theorem setPstate {i k} : P (s.setPstate i k) := h.ite _ (h.setPwr _ _ hs) (h.ite _ (h.setPwr _ _ hs) (h.setDom hs))

theorem avsIssue {b n} : P (s.avsIssue b n) := by
  induction n generalizing s with
  | zero => exact hs
  | succ n ih =>
    rw [State.avsIssue]
    refine h.ite _ hs ?_
    split
    · exact hs
    · exact h.ite _ (ih (h.setAvs hs)) (h.put _ _ _ (h.setAvs hs))

theorem avsWant {d goal} : P (s.avsWant d goal) := h.avsIssue (h.setAvs hs)
theorem avsForget {d} : P (s.avsForget d) := h.ite _ (h.setAvs hs) hs

theorem domOk {i r} : P (s.domOk i r) := by
  unfold State.domOk
  extract_lets s₁
  exact h.pwrSync (h.pwrResult (h.ite _ (h.setPwr _ _ hs) hs))

theorem spineDown : P s.spineDown := h.setMemc _ _ (h.keepMem _ _ hs)

theorem pstep {i target x} : P (s.pstep i target x).1 := by
  unfold State.pstep
  extract_lets s₁
  have hs₁ : P s₁ := h.setPwr _ _ (h.setPstate hs)
  split
  · dsimp only
    exact h.domainStop (h.latchPads hs)
  · dsimp only
    exact h.ite _ (h.setPwr _ _ hs) hs
  · split
    · dsimp only
      exact h.avsWant hs
    · dsimp only
      exact h.setPstate (h.ite _ (h.domainRetain hs) hs)
  · dsimp only
    exact h.setPstate (h.ite _ (h.domainOff hs) (h.ite _ (h.spineDown hs) hs))
  · exact hs
  · split
    · dsimp only
      exact h.avsWant hs
    · exact hs
  · split
    · dsimp only
      exact h.avsWant hs
    · exact hs
  · dsimp only
    exact h.ite _ (h.setDom hs) (h.ite _ (h.pmFromStore hs) hs)
  · dsimp only
    exact h.ite _ (h.pmFromStore hs) (h.ite _ (h.setPwr _ _ (h.spineReset (h.setPwr _ _ hs))) hs)
  · dsimp only
    exact h.setPwr _ _ hs
  · dsimp only
    exact h.ite _ (h.pmSync (h.putB _ _ _ (h.put _ _ _ hs₁))) (h.ite _ (h.setRelay _ _ (h.put _ _ _ hs₁)) hs₁)

theorem takeStep {i t} : P (s.takeStep i t) := by
  unfold State.takeStep
  split
  · exact hs
  · exact h.setPdom (h.pstep hs)

theorem beginTrans {i t} : P (s.beginTrans i t) := h.pwrSync (h.setPdom hs)

theorem turnBack {i t r} : P (s.turnBack i t r) := by
  unfold State.turnBack
  extract_lets s₁ steps
  have hs₁ : P s₁ := by
    unfold s₁
    split
    · exact h.pwrResult hs
    · exact hs
  exact h.pwrSync (h.setPdom (h.avsForget hs₁))

theorem agentAgree {i} : P (s.agentAgree i) := h.ite _ (h.each _ (fun _ _ hs₁ => h.putB _ _ _ hs₁) _ _ hs) hs
theorem agentResume {i} : P (s.agentResume i) := h.ite _ (h.each _ (fun _ _ hs₁ => h.regionSync hs₁) _ _ hs) hs
theorem setDev {f} : P (s.setDev f) := h.setPwr _ _ hs

theorem devCommit : P s.devCommit := by
  unfold State.devCommit
  split
  · exact hs
  · extract_lets ok s₁
    have hs₁ : P s₁ := h.setDev hs
    exact h.ite _ (h.each _ (fun _ _ hs₂ => h.cutFrame (h.putB _ _ _ hs₂)) _ _ hs₁) hs₁

theorem devAsk : P s.devAsk := by
  unfold State.devAsk
  extract_lets s₁
  have hs₁ : P s₁ := h.setDev hs
  split
  · exact hs
  · split
    · exact h.devCommit hs
    · exact h.ite _ (h.pwrEvent hs₁) hs₁

theorem devResume : P s.devResume := by
  unfold State.devResume
  split
  · exact h.ite _ hs (h.each _ (fun _ _ hs₁ => h.agentResume hs₁) _ _ hs)
  · exact hs

theorem devAnswer {i a} : P (s.devAnswer i a) := by
  unfold State.devAnswer
  extract_lets s₁
  have hs₁ : P s₁ := h.setBit _ _ _ _ hs
  split
  · exact hs
  · split
    · exact h.devAsk (h.setDev (h.agentAgree hs))
    · exact h.ite _ (h.devAsk (h.setDev hs₁)) (h.pwrSync (h.pwrResult (h.setPwr _ _ (h.devResume hs₁))))

theorem wakeStart {req cause} : P (s.wakeStart req cause) := by
  unfold State.wakeStart
  extract_lets s₁ s₂ goals s₃ s₄ s₅
  have hs₁ : P s₁ := h.dropDev (h.devResume hs)
  have hs₄ : P s₄ := h.setPwr _ _ (h.each _ (fun _ _ hs₆ => h.setPdom hs₆) _ _ (h.ite _ hs₁ (h.dropPend hs₁)))
  exact h.pwrSync (h.pwrEvent (h.wrN _ _ _ (h.ite _ hs₄ (h.setLinks _ _ hs₄))))

theorem devStart {r} : P (s.devStart r) := by
  unfold State.devStart
  extract_lets cur goals s₁ s₂ s₃
  have hs₃ : P s₃ := h.setPwr _ _ (h.each _ (fun _ _ hs₄ => h.dropPend hs₄) _ _ (h.wrN _ _ _ (h.wrN _ _ _ hs)))
  exact h.ite _ (h.pwrSync (h.pwrResult hs)) (h.ite _ (h.wakeStart hs) (h.ite _ (h.pwrSync (h.pwrResult hs)) (h.pwrSync (h.devAsk hs₃))))

theorem devFinish : P s.devFinish := by
  unfold State.devFinish
  extract_lets s₁
  have hs₁ : P s₁ := h.setPwr _ _ hs
  split
  · exact hs
  · refine h.ite _ hs ?_
    extract_lets s₂ s₃ s₄ s₅
    have hs₂ : P s₂ := h.ite _ (h.put _ _ _ hs₁) hs₁
    have hs₃ : P s₃ := h.put _ _ _ hs₁
    have hs₄ : P s₄ := by
      unfold s₄
      split
      · exact h.ite _ hs₂ (h.pwrResult hs₂)
      · exact h.pwrResult hs₁
      · exact h.ite _ hs₃ (h.pwrResult hs₃)
    exact h.pwrSync (h.ite _ (h.setPwr _ _ hs₄) hs₄)

theorem domStart {i r} : P (s.domStart i r) := by
  unfold State.domStart
  extract_lets cur s₁
  have hs₁ : P s₁ := h.pwrSync (h.setPdom (h.wrN _ _ _ hs))
  exact h.ite _ (h.domOk hs) (h.ite _ (h.pwrSync (h.pwrResult hs)) (h.ite _ (h.beginTrans hs) (h.ite _ (h.pwrSync (h.setPdom hs)) (h.ite _ (h.pwrEvent
      hs₁) hs₁))))

theorem domAnswer {i a} : P (s.domAnswer i a) := by
  unfold State.domAnswer
  extract_lets s₁
  have hs₁ : P s₁ := h.setPdom hs
  split
  · exact hs
  · split
    · exact h.beginTrans (h.agentAgree hs₁)
    · exact h.pwrSync (h.pwrResult (h.setBit _ _ _ _ hs₁))

theorem domPend {i r} : P (s.domPend i r) := h.pwrSync (h.setPdom (h.dropPend hs))

theorem domReq {q i target tag bad} : P (s.domReq q i target tag bad) := by
  unfold State.domReq
  extract_lets r x state
  refine h.ite _ hs (h.ite _ (h.pwrResult hs) (h.ite _ (h.pwrResult (h.domPend hs)) (h.ite _ (h.domPend hs) (h.ite _ (h.ite _ (h.domStart (h.dropTrans
      (h.agentResume (h.dropPend hs)))) (h.domPend hs)) (h.ite _ (h.domPend hs) ?_)))))
  split
  · exact h.ite _ (h.pwrSync (h.setPdom (h.dropPend hs))) (h.domPend hs)
  · exact h.domStart (h.dropPend hs)

theorem execDomReqOn {q i tag} : AfterNext P (execDomReqOn q i tag s) := h.landing hs (fun _ hs₁ => h.domReq hs₁)
theorem execDomReqIdle {q i tag} : AfterNext P (execDomReqIdle q i tag s) := h.landing hs (fun _ hs₁ => h.domReq hs₁)
theorem execDomReqRetain {q i tag} : AfterNext P (execDomReqRetain q i tag s) := h.landing hs (fun _ hs₁ => h.domReq hs₁)
theorem execDomReqOff {q i tag} : AfterNext P (execDomReqOff q i tag s) := h.landing hs (fun _ hs₁ => h.domReq hs₁)

theorem domCancel {q i tag} : P (s.domCancel q i tag) := by
  unfold State.domCancel
  refine h.ite _ hs ?_
  split
  · exact hs
  · exact h.ite _ (h.pwrResult hs) (h.pwrSync (h.pwrResult (h.setPdom hs)))

theorem execDomReqCancel {q i tag} : AfterNext P (execDomReqCancel q i tag s) := h.landing hs (fun _ hs₁ => h.domCancel hs₁)
theorem devPendOn {r} : P (s.devPendOn r) := h.pwrSync (h.setPwr _ _ (h.dropPend hs))

theorem devReq {q target tag partialOk bad} : P (s.devReq q target tag partialOk bad) := by
  unfold State.devReq
  extract_lets r s₁
  refine h.ite _ hs (h.ite _ (h.pwrResult hs) (h.ite _ (h.pwrResult (h.devPendOn hs)) (h.ite _ (h.devPendOn hs) ?_)))
  split
  · exact h.ite _ (h.devStart (h.dropDev (h.devResume (h.dropPend hs)))) (h.devPendOn hs)
  · exact h.devStart (h.dropPend hs)

theorem execDevReqRun {q tag} : AfterNext P (execDevReqRun q tag s) := h.landing hs (fun _ hs₁ => h.devReq hs₁)
theorem execDevReqWatch {q tag partialOk} : AfterNext P (execDevReqWatch q tag partialOk s) := h.landing hs (fun _ hs₁ => h.devReq hs₁)
theorem execDevReqSleep {q tag partialOk} : AfterNext P (execDevReqSleep q tag partialOk s) := h.landing hs (fun _ hs₁ => h.devReq hs₁)
theorem execDevReqHalt {q tag partialOk} : AfterNext P (execDevReqHalt q tag partialOk s) := h.landing hs (fun _ hs₁ => h.devReq hs₁)

theorem devCancel {q tag} : P (s.devCancel q tag) := by
  unfold State.devCancel
  refine h.ite _ hs ?_
  split
  · exact hs
  · exact h.ite _ (h.pwrResult hs) (h.pwrSync (h.pwrResult (h.setPwr _ _ hs)))

theorem execDevReqCancel {q tag} : AfterNext P (execDevReqCancel q tag s) := h.landing hs (fun _ hs₁ => h.devCancel hs₁)
theorem answer {i a} : P (s.answer i a) := h.ite _ (h.domAnswer hs) (h.devAnswer hs)

theorem execAgentAnswer {i} : AfterNext P (execAgentAnswer i s) := by
  unfold Machine.execAgentAnswer
  split
  · exact h.answer hs
  · exact hs

theorem hostAck {q a} : P (s.hostAck q a) := h.ite _ (h.answer hs) hs
theorem execHostAckAgree {q} : AfterNext P (execHostAckAgree q s) := h.landing hs (fun _ hs₁ => h.hostAck hs₁)
theorem execHostAckRefuse {q} : AfterNext P (execHostAckRefuse q s) := h.landing hs (fun _ hs₁ => h.hostAck hs₁)

theorem execPrepTimeout {i} : AfterNext P (execPrepTimeout i s) := by
  unfold Machine.execPrepTimeout
  split
  · exact h.ite _ (h.answer hs) hs
  · exact hs

theorem wakeNow : P s.wakeNow := by
  unfold State.wakeNow
  split
  · exact h.ite _ (h.wakeStart (h.setPwr _ _ hs)) (h.wakeStart hs)
  · exact h.wakeStart hs

theorem transStep {i} : P (s.transStep i) := by
  unfold State.transStep
  extract_lets s₁ cur
  have hs₁ : P s₁ := h.ite _ (h.wakeNow hs) hs
  split
  · refine h.ite _ hs₁ ?_
    split
    · exact h.ite _ hs₁ (h.turnBack hs₁)
    · exact h.takeStep hs₁
  · split
    · exact hs₁
    · split
      · exact hs₁
      · exact h.ite _ hs₁ (h.ite _ (h.setPstate hs₁) (h.ite _ (h.setPwr _ _ hs₁) (h.takeStep (h.beginTrans hs₁))))

theorem execTransitionStep {i} : AfterNext P (execTransitionStep i s) := h.ite _ (h.transStep hs) hs

theorem execIdleEntry {i} : AfterNext P (execIdleEntry i s) := by
  unfold Machine.execIdleEntry
  extract_lets s₁
  split
  · exact h.ite _ hs (h.pwrSync (h.setDom (h.setPdom (h.ite _ (h.fabStop hs) hs))))
  · exact hs

theorem execIdleWake {i} : AfterNext P (execIdleWake i s) := h.ite _ (h.wrN _ _ _ (h.setDom hs)) hs

theorem wakeEvent {src} : P (s.wakeEvent src) := by
  unfold State.wakeEvent
  refine h.ite _ hs ?_
  extract_lets s₁
  have hs₁ : P s₁ := h.setBit _ _ _ _ hs
  split <;> exact h.ite _ (h.wakeStart hs₁) hs₁

theorem execWakeEvent {src} : AfterNext P (execWakeEvent src s) := h.wakeEvent hs
theorem padRelease {q v} : P (s.padRelease q v) := h.ite _ hs (h.each _ (fun _ _ hs₁ => h.ite _ (h.setBit _ _ _ _ hs₁) (h.report _ _ hs₁)) _ _ hs)
theorem execPadRelease {q v} : AfterNext P (execPadRelease q v s) := h.landing hs (fun _ hs₁ => h.padRelease hs₁)
theorem secHold {q v} : P (s.secHold q v) := h.ite _ hs (h.ite _ (h.report _ _ hs) (h.each _ (fun _ _ hs₁ => h.putB _ _ _ hs₁) _ _ (h.wrN _ _ _ hs)))
theorem execSecHoldWrite {q v} : AfterNext P (execSecHoldWrite q v s) := h.landing hs (fun _ hs₁ => h.secHold hs₁)

theorem avsFailed {d} : P (s.avsFailed d) := by
  unfold State.avsFailed
  extract_lets s₁
  have hs₁ : P s₁ := h.openNow (h.avsForget hs)
  split
  · exact h.ite _ (h.put _ _ _ hs₁) hs₁
  · extract_lets s₂ s₃ s₄ s₅
    have hs₂ : P s₂ := by
      unfold s₂
      split
      · exact h.pwrResult hs₁
      · exact hs₁
    have hs₄ : P s₄ := h.pwrSync (h.setPdom (h.ite _ (h.setDom hs₂) hs₂))
    have hs₅ : P s₅ := h.pwrSync (h.setPdom hs₂)
    refine h.ite _ (h.ite _ (h.setDev hs₄) hs₄) (h.ite _ hs₅ ?_)
    split
    · exact hs₅
    · exact h.setDev (h.each _ (fun _ _ hs₇ => h.setPdom hs₇) _ _ hs₅)

theorem execAvsAck {b t} : AfterNext P (execAvsAck b t s) := by
  unfold Machine.execAvsAck
  extract_lets s₁
  split
  · exact hs
  · exact h.setAvs (h.put _ _ _ (h.atNs _ _ hs))

theorem execAvsSettle {b t} : AfterNext P (execAvsSettle b t s) := by
  unfold Machine.execAvsSettle
  extract_lets s₁
  have hs₁ : P s₁ := h.atNs _ _ hs
  split
  · exact hs
  · exact h.ite _ (h.avsIssue (h.openNow (h.setAvs hs₁))) hs₁

theorem execAvsTimeout {b t} : AfterNext P (execAvsTimeout b t s) := by
  unfold Machine.execAvsTimeout
  extract_lets s₁ s₂
  have hs₁ : P s₁ := h.atNs _ _ hs
  have hs₂ : P s₂ := h.put _ _ _ (h.setAvs hs₁)
  split
  · exact hs
  · exact h.ite _ hs₁ (h.ite _ (h.setAvs (h.put _ _ _ hs₁)) (h.avsIssue (h.avsFailed (h.report _ _ hs₂))))

theorem execHxpStatusAlert {b} : AfterNext P (execHxpStatusAlert b s) := h.report _ _ hs

theorem opChange {d} : P (s.opChange d) :=
  h.ite _ hs (h.ite _ (h.ite _ (h.ite _ hs (h.avsWant hs)) (h.ite _ hs (h.put _ _ _ hs))) (h.ite _ (h.ite _ hs (h.avsWant (h.put _ _ _ hs))) (h.ite _
      (h.avsWant hs) hs)))

theorem execOpChange {d} : AfterNext P (execOpChange d s) := h.opChange hs

theorem domFinish {i} : P (s.domFinish i) := by
  unfold State.domFinish
  split
  · exact hs
  · refine h.ite _ hs ?_
    extract_lets s₁
    have hs₁ : P s₁ := h.wrN _ _ _ (h.setPdom hs)
    split
    · exact h.pwrSync hs₁
    · exact h.ite _ (h.pwrSync (h.setPdom hs₁)) (h.domOk hs₁)

theorem domNext {i} : P (s.domNext i) := by
  unfold State.domNext
  extract_lets x
  split
  · exact hs
  · exact h.ite _ hs (h.domStart (h.setPdom hs))

theorem devNext : P s.devNext := by
  unfold State.devNext
  split
  · exact hs
  · exact h.ite _ hs (h.devStart (h.setPwr _ _ hs))

theorem pwrBoundary : P s.pwrBoundary := by
  unfold State.pwrBoundary
  extract_lets s₁ s₂ s₃ s₄ s₅
  have hs₃ : P s₃ := h.devFinish (h.each _ (fun _ _ hs₆ => h.domFinish hs₆) _ _ (h.setPwr _ _ hs))
  exact h.each _ (fun _ _ hs₆ => h.domNext hs₆) _ _ (h.devNext (h.ite _ (h.wakeStart hs₃) hs₃))

/-! ### The power cap -/

theorem setMon {m f} : P (s.setMon m f) := h.setGov _ _ hs
theorem setThrot {i f} : P (s.setThrot i f) := h.setGov _ _ hs
theorem govKeep {off} : P (s.govKeep off) := h.ite _ hs (h.setGov _ _ hs)

theorem applyCeilings : P s.applyCeilings := by
  unfold State.applyCeilings
  extract_lets s₁ s₂ s₃
  have hs₁ : P s₁ := h.each _ (fun _ _ hs₄ => h.put _ _ _ (h.put _ _ _ (h.putB _ _ _ (h.putB _ _ _ (h.put _ _ _ hs₄))))) _ _ hs
  exact h.putB _ _ _ (h.put _ _ _ (h.put _ _ _ hs₁))

theorem trip {unit} : P (s.trip unit) := h.safeThermal (h.report _ _ (h.setErr _ _ (h.putB _ _ _ hs)))

theorem sensorFail {m} : P (s.sensorFail m) := by
  unfold State.sensorFail
  extract_lets told s₁
  have hs₁ : P s₁ := h.setMon (h.putB _ _ _ (h.putB _ _ _ hs))
  exact h.ite _ hs₁ (h.report _ _ hs₁)

theorem tempActs {m v} : P (s.tempActs m v) := by
  unfold State.tempActs
  extract_lets x n hot starts s₁ s₂
  have hs₁ : P s₁ := h.setMon hs
  have hs₂ : P s₂ := h.ite _ (h.report _ _ hs₁) hs₁
  exact h.ite _ (h.trip hs₂) hs₂

theorem tempSample {m raw} : P (s.tempSample m raw) := by
  unfold State.tempSample
  extract_lets v twin s₁ x seen far range n s₂ p s₃ s₄ s₅
  have hs₂ : P s₂ := h.setMon (h.put _ _ _ hs)
  have hs₃ : P s₃ := h.setMon hs₂
  have hs₄ : P s₄ := h.ite _ (h.putB _ _ _ hs₃) hs₃
  have hs₅ : P s₅ := h.ite _ (h.sensorFail hs₂) (h.ite _ (h.sensorFail (h.sensorFail hs₂)) (h.ite _ hs₄ (h.tempActs (h.putB _ _ _ hs₄))))
  exact h.put _ _ _ (h.applyCeilings hs₅)

theorem alarmTest {m raw} : P (s.alarmTest m raw) := by
  unfold State.alarmTest
  extract_lets v outside x o i fired s₁
  have hs₁ : P s₁ := h.setMon hs
  exact h.ite _ (h.report _ _ (h.setBit _ _ _ _ (h.setMon hs₁))) hs₁

theorem monSample {m raw} : P (s.monSample m raw) :=
  h.ite _ (h.alarmTest (h.tempSample hs)) (h.ite _ (h.alarmTest (h.putB _ _ _ (h.put _ _ _ hs))) (h.ite _ (h.putB _ _ _ (h.put _ _ _ hs)) hs))

theorem execMonitorSample {m raw} : AfterNext P (execMonitorSample m raw s) := h.monSample hs

theorem execHxpTempRead {raw} : AfterNext P (execHxpTempRead raw s) := by
  unfold Machine.execHxpTempRead
  extract_lets n s₁
  have hs₁ : P s₁ := h.setGov _ _ (h.put _ _ _ hs)
  exact h.ite _ (h.trip hs₁) hs₁

theorem throttleStep {m} : P (s.throttleStep m) := h.ite _ hs (h.applyCeilings (h.each _ (fun _ _ hs₂ => h.setThrot hs₂) _ _ (h.setMon hs)))
theorem execThrottleStep {m} : AfterNext P (execThrottleStep m s) := h.throttleStep hs
theorem throttleRestore {i} : P (s.throttleRestore i) := h.ite _ hs (h.applyCeilings (h.setThrot hs))
theorem execThrottleRestore {i} : AfterNext P (execThrottleRestore i s) := h.throttleRestore hs
theorem setDroop {i x} : P (s.setDroop i x) := h.setGov _ _ hs

theorem execDroopTrigger {i t} : AfterNext P (execDroopTrigger i t s) := by
  unfold Machine.execDroopTrigger
  extract_lets s₁ x
  have hs₁ : P s₁ := h.addSat _ _ _ (h.atNs _ _ hs)
  exact h.ite _ hs₁ (h.setDroop hs₁)

theorem execDroopRestore {i t} : AfterNext P (execDroopRestore i t s) := by
  unfold Machine.execDroopRestore
  extract_lets s₁
  split
  · exact hs
  · exact h.setDroop (h.atNs _ _ hs)

theorem droopRound {from_ i} : P (s.droopRound from_ i) := by
  unfold State.droopRound
  extract_lets x spans n s₁ s₂ past s₃ c
  have hs₂ : P s₂ := h.put _ _ _ (h.setDroop hs)
  have hs₃ : P s₃ := h.report _ _ hs₂
  exact h.ite _ hs₂ (h.ite _ (h.applyCeilings (h.setGov _ _ (h.putB _ _ _ hs₃))) hs₃)

theorem droopRelease {q v} : P (s.droopRelease q v) := h.ite _ (h.applyCeilings (h.each _ (fun _ _ hs₁ => h.setGov _ _ (h.putB _ _ _ hs₁)) _ _ hs)) hs
theorem execDroopRelease {q v} : AfterNext P (execDroopRelease q v s) := h.landing hs (fun _ hs₁ => h.droopRelease hs₁)

theorem trimOne {i ratio} : P (s.trimOne i ratio) := by
  unfold State.trimOne
  extract_lets old v n s₁
  have hs₁ : P s₁ := h.setGov _ _ (h.put _ _ _ hs)
  exact h.ite _ (h.report _ _ (h.setGov _ _ hs₁)) (h.ite _ (h.setGov _ _ hs₁) hs₁)

theorem execTrimUpdate {ratios} : AfterNext P (execTrimUpdate ratios s) := by
  unfold Machine.execTrimUpdate
  refine h.ite _ (h.each _ (fun s₁ x₁ hs₁ => ?_) _ _ hs) hs
  split
  · exact h.trimOne hs₁
  · exact hs₁

theorem energyPart {e} : P (s.energyPart e) := by
  unfold State.energyPart
  extract_lets s₁
  have hs₁ : P s₁ := h.ite _ (h.add64 _ _ _ hs) (h.add64 _ _ _ hs)
  split
  · exact hs₁
  · extract_lets s₂
    have hs₂ : P s₂ := h.add64 _ _ _ hs₁
    split
    · exact h.setFlight hs₂
    · exact hs₂

theorem fastCut : P s.fastCut := h.put _ _ _ (h.each _ (fun _ _ hs₂ => h.put _ _ _ hs₂) _ _ hs)

theorem energyRound {parts} : P (s.energyRound parts) := by
  unfold State.energyRound
  extract_lets total ex s₁ settled s₂ w px s₃ s₄ s₅ s₆ s₇ past s₈
  have hs₁ : P s₁ := h.each _ (fun _ _ hs₉ => h.energyPart hs₉) _ _ hs
  have hs₄ : P s₄ := h.put _ _ _ (h.put _ _ _ (h.put _ _ _ (h.setGov _ _ hs₁)))
  have hs₆ : P s₆ := h.setGov _ _ (h.ite _ (h.report _ _ hs₄) hs₄)
  have hs₇ : P s₇ := h.ite _ (h.fastCut hs₆) hs₆
  exact h.setGov _ _ (h.putB _ _ _ (h.ite _ (h.report _ _ hs₇) hs₇))

theorem lowerItem {i} : P (s.lowerItem i) := h.ite _ (h.ite _ (h.put _ _ _ hs) (h.put _ _ _ hs)) (h.ite _ (h.put _ _ _ hs) (h.put _ _ _ hs))
theorem raiseItem {i} : P (s.raiseItem i) := h.ite _ (h.ite _ (h.put _ _ _ hs) (h.put _ _ _ hs)) (h.ite _ (h.put _ _ _ hs) (h.put _ _ _ hs))

theorem govActivity {from_} : P (s.govActivity from_) := by
  unfold State.govActivity
  extract_lets ran off
  exact h.setGov _ _ hs

theorem govReady {demand} : P (s.govReady demand) := h.applyCeilings (h.each _ (fun _ _ hs₂ => h.putB _ _ _ hs₂) _ _ (h.setGov _ _ hs))

theorem govDecide {demand rise p b} : P (s.govDecide demand rise p b) := by
  unfold State.govDecide
  refine h.ite _ ?_ ?_
  · split
    · exact h.each _ (fun _ _ hs₁ => h.lowerItem hs₁) _ _ hs
    · exact h.ite _ hs (h.report _ _ (h.putB _ _ _ hs))
  · extract_lets s₁
    have hs₁ : P s₁ := h.putB _ _ _ hs
    split
    · exact h.ite _ (h.each _ (fun _ _ hs₂ => h.raiseItem hs₂) _ _ hs₁) hs₁
    · exact hs₁

theorem govern {active rise} : P (s.govern active rise) := by
  unfold State.govern
  extract_lets demand u u₁
  have hu : P u := h.govReady hs
  exact h.ite _ hu (h.putB _ _ _ (h.govDecide (h.put _ _ _ hu)))

theorem execGovernorDecision {active rise} : AfterNext P (execGovernorDecision active rise s) := h.ite _ (h.govern hs) hs

/-! ### The Opantith root -/

theorem setRom {p m} : P (s.setRom p m) := h.setTrust _ _ hs

theorem recSync : P s.recSync := by
  unfold State.recSync
  extract_lets s₁ trial
  have hs₁ : P s₁ := h.each _ (fun _ _ hs₂ => h.each _ (fun _ _ hs₃ => h.each _ (fun _ _ hs₄ => h.wrN _ _ _ hs₄) _ _ hs₃) _ _ hs₂) _ _ hs
  exact h.putB _ _ _ (h.putB _ _ _ hs₁)

theorem recProgram {p sl off b} : P (s.recProgram p sl off b) := by
  unfold State.recProgram
  extract_lets s₁
  have hs₁ : P s₁ := h.setRom hs
  exact h.recSync (h.ite _ (h.setTrust _ _ hs₁) hs₁)

theorem markStale {p sl} : P (s.markStale p sl) := h.recProgram hs
theorem setCounter {i v} : P (s.setCounter i v) := h.wrN _ _ _ (h.setTrust _ _ hs)
theorem fuseSync : P s.fuseSync := h.put _ _ _ (h.putB _ _ _ (h.putB _ _ _ (h.put _ _ _ hs)))
theorem fuse {w mask} : P (s.fuse w mask) := h.fuseSync (h.wrN _ _ _ hs)
theorem uartLine {l} : P (s.uartLine l) := h.setTrust _ _ hs
theorem reject {p sl} : P (s.reject p sl) := h.report _ _ (h.markStale hs)

theorem tryCandidate {p sl} : P (s.tryCandidate p sl).1 := by
  unfold State.tryCandidate
  extract_lets v s₁ n
  have hs₁ : P s₁ := h.extendFree (h.setCounter hs)
  split
  · exact h.reject hs
  · split
    · split
      · exact h.ite _ (h.markStale hs₁) hs₁
      · exact hs
    · exact h.recProgram (h.recProgram hs)
    · split
      · exact h.recProgram hs
      · exact h.reject hs
    · exact hs

theorem loadBoot {sl} : P (s.loadBoot sl) := h.wrMem _ _ _ hs

theorem choose {p l} : P (s.choose p l).1 := by
  induction l generalizing s with
  | nil => exact hs
  | cons sl t ih =>
    have htry : P ((if p = 1 then s.loadBoot sl else s).tryCandidate p sl).1 := h.tryCandidate (h.ite _ (h.loadBoot hs) hs)
    rw [State.choose]
    split
    · next heq => exact of_fst htry heq
    · next heq => exact ih (of_fst htry heq)

theorem noImage {p} : P (s.noImage p) := h.uartLine (h.report _ _ (h.put _ _ _ hs))

theorem startBoot : P s.startBoot := by
  unfold State.startBoot
  extract_lets s₁
  have hs₁ : P s₁ := h.setTrust _ _ hs
  split
  · next s₂ heq =>
    have hs₂ : P s₂ := of_fst (h.choose hs₁) heq
    exact h.noImage (h.setTrust _ _ hs₂)
  · next s₂ _ heq =>
    have hs₂ : P s₂ := of_fst (h.choose hs₁) heq
    exact h.uartLine (h.putB _ _ _ (h.put _ _ _ (h.put _ _ _ (h.extendSeal (h.recSync (h.setTrust _ _ hs₂))))))

theorem startRuntime : P s.startRuntime := by
  unfold State.startRuntime
  split
  · next s₁ heq =>
    have hs₁ : P s₁ := of_fst (h.choose hs) heq
    exact h.noImage (h.setTrust _ _ hs₁)
  · next s₁ _ heq =>
    have hs₁ : P s₁ := of_fst (h.choose hs) heq
    exact h.startBoot (h.uartLine (h.put _ _ _ (h.extendSeal (h.recSync (h.setTrust _ _ hs₁)))))

theorem execSecureStart {root} : AfterNext P (execSecureStart root s) :=
  h.ite _ hs (h.ite _ (h.startRuntime (h.recSync (h.extendSeal (h.extendSeal (h.fuseSync hs))))) (h.ite _ (h.startBoot hs) hs))

theorem mbGo {q k} : P (s.mbGo q k) :=
  h.ite _ hs (h.ite _ (h.report _ _ hs) (h.ite _ hs (h.ite _ (h.report _ _ hs) (h.putB _ _ _ (h.putB _ _ _ (h.setTrust _ _ hs))))))

theorem execMbGo {q k} : AfterNext P (execMbGo q k s) := h.landing hs (fun _ hs₁ => h.mbGo hs₁)

theorem mbRespond {k m status result body} : P (s.mbRespond k m status result body) := by
  unfold State.mbRespond
  extract_lets b s₁ s₂ s₃
  have hs₃ : P s₃ := h.wrN _ _ _ (h.putB _ _ _ (h.setTrust _ _ (h.each _ (fun _ _ hs₄ => h.wrN _ _ _ hs₄) _ _ hs)))
  exact h.ite _ (h.coreIrq _ _ _ _ hs₃) (h.ite _ (h.msix _ _ _ hs₃) hs₃)

theorem mbRun {k op len} {f : MbMsg → MbAns} (hf : ∀ x0, P (f x0).1) : P (s.mbRun k op len f) := by
  unfold State.mbRun
  split
  · exact hs
  · exact h.ite _ hs (h.ite _ (h.mbRespond hs) (h.mbRespond (hf _ )))

theorem trustBoundary : P s.trustBoundary := by
  unfold State.trustBoundary
  refine h.each _ (fun s₁ x₁ hs₁ => ?_) _ _ hs
  split
  · exact hs₁
  · exact h.ite _ hs₁ (h.ite _ (h.mbRespond hs₁) (h.ite _ (h.mbRespond hs₁) hs₁))

theorem sealMsg {m} : P (s.sealMsg m) := h.extendSeal hs

omit h in
theorem mbStatus {status} : P (mbStatus s status).1 := hs

theorem mbAddr {e} : P (s.mbAddr e).1 := by
  unfold State.mbAddr
  split
  · exact mbStatus hs
  · exact mbStatus hs
  · exact mbStatus (h.accReport hs)

theorem mbStore {m a b} {ok} (hok : P ok.1) : P (s.mbStore m a b ok).1 := by
  unfold State.mbStore
  split
  · exact h.mbAddr hs
  · exact h.store hok

theorem execGetInfo {k} : AfterNext P (execGetInfo k s) := h.mbRun hs (fun _ => hs)

theorem execQuote {k ecdsa mldsa} : AfterNext P (execQuote k ecdsa mldsa s) := by
  unfold Machine.execQuote
  refine h.mbRun hs (fun m₁ => ?_)
  split
  · exact mbStatus hs
  · split
    · exact mbStatus hs
    · exact h.mbStore hs hs

theorem execGetCert {k cert} : AfterNext P (execGetCert k cert s) := by
  unfold Machine.execGetCert
  refine h.mbRun hs (fun m₁ => ?_)
  extract_lets c
  split
  · exact mbStatus hs
  · split
    · exact hs
    · exact h.mbStore hs hs

theorem execReadLog {k} : AfterNext P (execReadLog k s) := h.mbRun hs (fun _ => h.mbStore hs hs)

theorem execExtend {k} : AfterNext P (execExtend k s) := by
  unfold Machine.execExtend
  refine h.mbRun hs (fun m₁ => ?_)
  extract_lets i
  split
  · exact mbStatus hs
  · split
    · exact mbStatus hs
    · exact h.extendSeal hs

theorem mbImage {m a type limit} {f : Sys2Proof.Bytes → Sys2Proof.Bytes → MbAns} (hf : ∀ x0 x1, P (f x0 x1).1) : P (s.mbImage m a type limit f).1 :=
    by
  unfold State.mbImage
  split
  · exact h.mbAddr hs
  · split
    · exact h.mbAddr hs
    · exact mbStatus hs
    · exact hf _ _ 

theorem execVerifyImage : AfterNext P (execVerifyImage s) := by
  unfold Machine.execVerifyImage
  refine h.mbRun hs (fun m₁ => ?_)
  split
  · exact mbStatus hs
  · exact h.mbImage hs (fun _ x => mbStatus (h.ite _ (h.extendSeal hs) hs))

theorem execRaiseCounter : AfterNext P (execRaiseCounter s) := by
  unfold Machine.execRaiseCounter
  refine h.mbRun hs (fun m₁ => ?_)
  extract_lets i v
  split
  · exact mbStatus hs
  · split
    · exact mbStatus hs
    · split
      · exact mbStatus hs
      · exact mbStatus (h.sealMsg (h.ite _ (h.setCounter hs) hs))

theorem execConfirmSlot : AfterNext P (execConfirmSlot s) := by
  unfold Machine.execConfirmSlot
  refine h.mbRun hs (fun m₁ => ?_)
  extract_lets p
  split
  · exact mbStatus hs
  · split
    · exact mbStatus hs
    · split
      · exact mbStatus hs
      · extract_lets v s₁ s₂
        have hs₁ : P s₁ := h.recProgram hs
        split
        · exact mbStatus hs
        · split
          · exact mbStatus hs
          · exact mbStatus (h.markStale (h.ite _ (h.sealMsg (h.setCounter hs₁)) hs₁))

theorem writeSlot {p sl seq h' body} : P (s.writeSlot p sl seq h' body) := by
  unfold State.writeSlot
  extract_lets s₁ s₂ s₃ s₄
  have hs₁ : P s₁ := h.setRom hs
  exact h.recProgram (h.setRom (h.recProgram (h.ite _ (h.setTrust _ _ hs₁) hs₁)))

theorem execRuntimeUpdate : AfterNext P (execRuntimeUpdate s) := by
  unfold Machine.execRuntimeUpdate
  refine h.mbRun hs (fun m₁ => ?_)
  split
  · exact mbStatus hs
  · split
    · exact mbStatus hs
    · split
      · exact mbStatus hs
      · exact h.mbImage hs (fun _ _ => mbStatus (h.sealMsg (h.writeSlot hs)))

theorem execNorRead : AfterNext P (execNorRead s) := by
  unfold Machine.execNorRead
  refine h.mbRun hs (fun m₁ => ?_)
  extract_lets a n
  split
  · exact mbStatus hs
  · split
    · exact h.mbAddr hs
    · exact mbStatus (h.store hs)

theorem execNorErase {fail} : AfterNext P (execNorErase fail s) := by
  unfold Machine.execNorErase
  refine h.mbRun hs (fun m₁ => ?_)
  extract_lets a n other d nor
  split
  · exact mbStatus hs
  · split
    · exact mbStatus hs
    · split <;> exact mbStatus (h.recSync (h.setTrust _ _ hs))

theorem execNorProgram {fail} : AfterNext P (execNorProgram fail s) := by
  unfold Machine.execNorProgram
  refine h.mbRun hs (fun m₁ => ?_)
  extract_lets a n d
  split
  · exact mbStatus hs
  · split
    · exact h.mbAddr hs
    · extract_lets nor
      split
      · exact mbStatus hs
      · split <;> exact mbStatus (h.recSync (h.setTrust _ _ hs))

theorem execGuardWrite : AfterNext P (execGuardWrite s) := by
  unfold Machine.execGuardWrite
  refine h.mbRun hs (fun m₁ => ?_)
  extract_lets p b period raws s₁ s₂
  split
  · exact mbStatus hs
  · split
    · exact mbStatus hs
    · split
      · exact mbStatus hs
      · exact mbStatus (h.sealMsg (h.each _ (fun _ _ hs₃ => h.wrN _ _ _ hs₃) _ _ (h.wrN _ _ _ hs)))

theorem execGuardSwitch : AfterNext P (execGuardSwitch s) := by
  unfold Machine.execGuardSwitch
  refine h.mbRun hs (fun m₁ => ?_)
  extract_lets p n
  split
  · exact mbStatus hs
  · split
    · exact mbStatus hs
    · split
      · exact mbStatus hs
      · exact mbStatus (h.sealMsg (h.putB _ _ _ (h.wrN _ _ _ hs)))

theorem execGuardArm : AfterNext P (execGuardArm s) := by
  unfold Machine.execGuardArm
  refine h.mbRun hs (fun m₁ => ?_)
  extract_lets p armed v
  split
  · exact mbStatus hs
  · split
    · exact mbStatus hs
    · exact mbStatus (h.sealMsg (h.wrCfg _ _ _ hs))

theorem setKeyState {i v} : P (s.setKeyState i v) := h.put _ _ _ hs

theorem execKeyInstall : AfterNext P (execKeyInstall s) := by
  unfold Machine.execKeyInstall
  refine h.mbRun hs (fun m₁ => ?_)
  extract_lets i key s₁ m0
  split
  · exact mbStatus hs
  · split
    · exact mbStatus hs
    · exact mbStatus (h.sealMsg (h.setKeyState (h.setTrust _ _ hs)))

theorem execKeyRevoke : AfterNext P (execKeyRevoke s) := by
  unfold Machine.execKeyRevoke
  refine h.ite _ hs (h.mbRun hs (fun m₁ => ?_))
  extract_lets i s₁
  split
  · exact mbStatus hs
  · exact mbStatus (h.sealMsg (h.setKeyState (h.setTrust _ _ hs)))

theorem execFabricApprove : AfterNext P (execFabricApprove s) := by
  unfold Machine.execFabricApprove
  refine h.mbRun hs (fun m₁ => ?_)
  extract_lets g
  split
  · exact mbStatus hs
  · refine h.mbImage hs (fun h₁ b₁ => ?_)
    extract_lets n s₁
    split
    · exact mbStatus hs
    · exact mbStatus (h.extendSeal (h.setFab _ _ hs))

theorem fuseFail {l} : P (s.fuseFail l).1 := mbStatus (h.report _ _ (h.each _ (fun _ _ hs₁ => h.useFree _ (h.fuse hs₁)) _ _ hs))

theorem execOwnerEnroll {readOk} : AfterNext P (execOwnerEnroll readOk s) := by
  unfold Machine.execOwnerEnroll
  refine h.mbRun hs (fun m₁ => ?_)
  split
  · exact mbStatus hs
  · refine h.mbImage hs (fun h₁ b₁ => ?_)
    extract_lets d words s₁ s₂
    split
    · exact mbStatus hs
    · split
      · exact h.fuseFail hs
      · exact mbStatus (h.extendSeal (h.fuse (h.each _ (fun _ _ hs₃ => h.fuse hs₃) _ _ hs)))

theorem execRevokeVendorKey {readOk} : AfterNext P (execRevokeVendorKey readOk s) := by
  unfold Machine.execRevokeVendorKey
  refine h.mbRun hs (fun m₁ => h.mbImage hs (fun h₁ b₁ => ?_))
  extract_lets v w
  split
  · exact mbStatus hs
  · split
    · exact mbStatus hs
    · split
      · exact h.fuseFail hs
      · exact mbStatus (h.extendSeal (h.fuse hs))

theorem execDebugUnlock : AfterNext P (execDebugUnlock s) := by
  unfold Machine.execDebugUnlock
  refine h.mbRun hs (fun m₁ => h.mbImage hs (fun h₁ b₁ => ?_))
  extract_lets v s₁
  split
  · exact mbStatus hs
  · split
    · exact mbStatus hs
    · exact mbStatus (h.extendSeal (h.putB _ _ _ (h.setTrust _ _ hs)))

theorem execLifecycleReturn {readOk} : AfterNext P (execLifecycleReturn readOk s) := by
  unfold Machine.execLifecycleReturn
  refine h.mbRun hs (fun m₁ => h.mbImage hs (fun h₁ x => ?_))
  extract_lets s₁ s₂
  have hs₂ : P s₂ := h.setFab _ _ (h.wrN _ _ _ (h.setTrust _ _ hs))
  split
  · exact h.fuseFail hs₂
  · exact mbStatus (h.extendSeal (h.fuse hs₂))

theorem notifyEnd : P s.notifyEnd := by
  unfold State.notifyEnd
  extract_lets s₁ held
  have hs₁ : P s₁ := h.setErr _ _ hs
  exact h.ite _ (h.ite _ hs₁ (h.report _ _ (h.each _ (fun _ _ hs₂ => h.forceOff hs₂) _ _ hs₁))) hs₁

theorem notifyAck {q} : P (s.notifyAck q) := by
  unfold State.notifyAck
  refine h.ite _ hs (h.ite _ (h.report _ _ hs) ?_)
  extract_lets s₁
  have hs₁ : P s₁ := h.putB _ _ _ hs
  exact h.ite _ (h.notifyEnd hs₁) hs₁

theorem execThermalNotifyAck {q} : AfterNext P (execThermalNotifyAck q s) := h.landing hs (fun _ hs₁ => h.notifyAck hs₁)

theorem execThermalNotifyTimeout : AfterNext P (execThermalNotifyTimeout s) := by
  unfold Machine.execThermalNotifyTimeout
  split
  · exact h.ite _ (h.notifyEnd hs) hs
  · exact hs

/-! ### Firmware processors -/

theorem fwChecks {r e} : AfterExcept P (fun _ => True) (s.fwChecks r e) := by
  unfold State.fwChecks
  extract_lets f t o len pm
  split
  · exact hs
  · split
    · exact hs
    · split
      · exact hs
      · split
        · exact hs
        · split
          · exact hs
          · split
            · exact hs
            · split
              · exact trivial
              · split
                · exact h.readFail hs
                · split
                  · exact hs
                  · split
                    · exact hs
                    · split
                      · exact hs
                      · split
                        · exact hs
                        · exact trivial

theorem setLoad {r seq g} : P (s.setLoad r seq g) := h.setFw _ _ hs
theorem loadEnd {l status result} : P (s.loadEnd l status result) := h.complete (h.setFw _ _ hs)

theorem loadSettle {l} : P (s.loadSettle l) := by
  unfold State.loadSettle
  refine h.ite _ hs (h.ite _ (h.loadEnd hs) ?_)
  split <;> exact h.loadEnd hs

theorem loadReport {p g} : P (s.loadReport p g) := by
  unfold State.loadReport
  split
  · exact hs
  · exact h.loadSettle (h.setLoad hs)

theorem loadRelease {l} : P (s.loadRelease l) := by
  unfold State.loadRelease
  extract_lets ps s₁ s₂ l'
  have hs₁ : P s₁ := h.ite _ (h.each _ (fun _ _ hs₃ => h.put _ _ _ (h.setFw _ _ hs₃)) _ _ hs) hs
  have hs₂ : P s₂ := h.each _ (fun _ _ hs₃ => h.procRelease (h.ite _ (h.setFw _ _ hs₃) hs₃)) _ _ hs₁
  exact h.loadSettle (h.setLoad hs₂)

theorem loadInto {t a version b} : P (s.loadInto t a version b) := h.ite _ (h.putB _ _ _ (h.put _ _ _ (h.setFw _ _ hs))) (h.setFw _ _ hs)

theorem loadSpoiled {l status result} : P (s.loadSpoiled l status result) := by
  unfold State.loadSpoiled
  extract_lets s₁ s₂
  have hs₁ : P s₁ := h.loadInto hs
  exact h.loadEnd (h.ite _ (h.put _ _ _ hs₁) hs₁)

theorem loadBody {l e} : P (s.loadBody l e) := by
  unfold State.loadBody
  extract_lets h₁
  split
  · exact h.loadSpoiled (h.readFail hs)
  · exact h.ite _ (h.loadSpoiled (h.report _ _ hs)) (h.loadRelease (h.extendSeal (h.loadInto hs)))

theorem loadGo {l e} : P (s.loadGo l e) := by
  unfold State.loadGo
  refine h.ite _ (h.loadRelease hs) ?_
  extract_lets a s₁
  have hs₁ : P s₁ := h.ite _ hs (h.setLoad (h.ringTraffic hs))
  exact h.ite _ hs₁ (h.loadBody hs₁)

theorem fwLoad {r seq e} : P (s.fwLoad r seq e) := by
  unfold State.fwLoad
  extract_lets t ps
  split
  · exact h.ite _ hs (h.loadGo hs)
  · split
    · next e₁ heq₁ =>
      have he₁ : P e₁.1 := (h.fwChecks hs).error heq₁
      exact h.complete he₁
    · extract_lets l s₁ s₂ s₃
      have hs₁ : P s₁ := h.ite _ hs (h.ringTraffic hs)
      have hs₃ : P s₃ := h.setFw _ _ (h.ite _ (h.putB _ _ _ hs₁) hs₁)
      exact h.ite _ (h.loadGo hs₃) hs₃

theorem fwCommand {r seq mine} : P (s.fwCommand r seq mine) := by
  unfold State.fwCommand
  split
  · exact h.ite _ (h.fwLoad hs) hs
  · exact hs

theorem execFwLoadProcessor {r seq} : AfterNext P (execFwLoadProcessor r seq s) := h.fwCommand hs
theorem execFwRestartPostmaster {r seq} : AfterNext P (execFwRestartPostmaster r seq s) := h.fwCommand hs
theorem execFwLoadStore {r seq} : AfterNext P (execFwLoadStore r seq s) := h.fwCommand hs

theorem fwReady {p format} : P (s.fwReady p format) := by
  unfold State.fwReady
  extract_lets s₁ s₂ s₃ s₄
  have hs₂ : P s₂ := h.setFw _ _ (h.put _ _ _ (h.put _ _ _ hs))
  exact h.loadReport (h.ledger (h.ite _ (h.pmSync hs₂) (h.ite _ (h.serveRestart hs₂) hs₂)))

theorem execFwReady {p code format} : AfterNext P (execFwReady p code format s) :=
  h.ite _ hs (h.ite _ (h.fwReady hs) (h.ite _ (h.loadReport (h.report _ _ (h.put _ _ _ (h.procStop hs)))) hs))

theorem execFwStartFail {p} : AfterNext P (execFwStartFail p s) := by
  unfold Machine.execFwStartFail
  split
  · exact h.ite _ (h.loadReport (h.report _ _ (h.procStop hs))) hs
  · exact hs

theorem procHalt {q p} : P (s.procHalt q p) := by
  unfold State.procHalt
  refine h.ite _ hs (h.ite _ (h.report _ _ hs) ?_)
  extract_lets s₁
  have hs₁ : P s₁ := h.report _ _ hs
  exact h.ite _ (h.setFw _ _ (h.putB _ _ _ hs₁)) hs₁

theorem execProcHalt {q p} : AfterNext P (execProcHalt q p s) := h.landing hs (fun _ hs₁ => h.procHalt hs₁)
theorem execWdogKick {p} : AfterNext P (execWdogKick p s) := h.ite _ (h.setFw _ _ hs) hs
theorem execFwWatchdog {p} : AfterNext P (execFwWatchdog p s) := h.ite _ (h.setFw _ _ (h.report _ _ (h.putB _ _ _ hs))) hs

theorem fwBoundary : P s.fwBoundary := by
  unfold State.fwBoundary
  extract_lets s₁ s₂
  have hs₂ : P s₂ := h.setFw _ _ (h.each _ (fun _ _ hs₃ => h.setFw _ _ (h.ite _ (h.procStop hs₃) hs₃)) _ _ hs)
  exact h.each _ (fun _ _ hs₃ => h.ite _ (h.each _ (fun _ _ hs₄ => h.ite _ hs₄ (h.loadReport hs₄)) _ _ hs₃) (h.ite _ (h.put _ _ _ hs₃) hs₃)) _ _ hs₂

theorem execLedgerEntry {p mark id level a0 a1 a2 t} : AfterNext P (execLedgerEntry p mark id level a0 a1 a2 t s) := by
  unfold Machine.execLedgerEntry
  extract_lets s₁
  have hs₁ : P s₁ := h.atNs _ _ hs
  exact h.ite _ hs₁ (h.ite _ (h.ite _ (h.ledger hs₁) hs₁) (h.ite _ (h.ledger hs₁) hs₁))

theorem ledgerTail {q v} : P (s.ledgerTail q v) := h.ite _ hs (h.ite _ (h.wrN _ _ _ hs) (h.report _ _ hs))
theorem execLedgerTailWrite {q v} : AfterNext P (execLedgerTailWrite q v s) := h.landing hs (fun _ hs₁ => h.ledgerTail hs₁)

/-! ### Error records and the safe state -/

theorem errAck {q v} : P (s.errAck q v) := h.ite _ (h.errSelect _ (h.setErr _ _ hs)) hs
theorem execAck {q v} : AfterNext P (execAck q v s) := h.landing hs (fun _ hs₁ => h.errAck hs₁)
theorem inject {q v} : P (s.inject q v) := h.ite _ hs (h.ite _ (h.report _ _ hs) (h.safeThermal (h.report _ _ hs)))
theorem execInject {q v} : AfterNext P (execInject q v s) := h.landing hs (fun _ hs₁ => h.inject hs₁)
theorem safeRequest {q} : P (s.safeRequest q) := h.ite _ (h.report _ _ hs) hs
theorem execSafeRequest {q} : AfterNext P (execSafeRequest q s) := h.landing hs (fun _ hs₁ => h.safeRequest hs₁)
theorem safeNow {q} : P (s.safeNow q) := h.ite _ (h.setErr _ _ hs) hs
theorem execSafeNow {q} : AfterNext P (execSafeNow q s) := h.landing hs (fun _ hs₁ => h.safeNow hs₁)

theorem safeFloor : P s.safeFloor := by
  unfold State.safeFloor
  extract_lets s₁ s₂ s₃
  have hs₁ : P s₁ := h.each _ (fun _ _ hs₄ => h.ite _ (h.closeUnit hs₄) hs₄) _ _ hs
  have hs₂ : P s₂ := h.each _ (fun _ _ hs₄ => h.ite _ hs₄ (h.ringAbort hs₄)) _ _ hs₁
  have hs₃ : P s₃ := h.each _ (fun _ _ hs₄ => h.failRun hs₄) _ _ hs₂
  exact h.each _ (fun _ _ hs₄ => h.ite _ (h.procStop hs₄) hs₄) _ _ hs₃

theorem safeDomain {mid i} : P (s.safeDomain mid i) := h.ite _ hs (h.ite _ hs (h.ite _ (h.ite _ (h.setDom hs) hs) (h.openDomain hs)))

theorem safeReached : P s.safeReached := by
  unfold State.safeReached
  extract_lets s₁ s₂ s₃ held mid s₄ s₅ s₆ s₇ s₈
  have hs₂ : P s₂ := h.each _ (fun _ _ hs₉ => h.latchPads hs₉) _ _ (h.silence (h.silence hs))
  have hs₅ : P s₅ := h.each _ (fun _ _ hs₉ => h.safeDomain hs₉) _ _ (h.dropRequests (h.safeFloor hs₂))
  have hs₈ : P s₈ := h.safeThermal (h.addSat _ _ _ (h.wrN _ _ _ (h.putB _ _ _ (h.putB _ _ _ (h.setErr _ _ hs₅)))))
  exact h.ite _ (h.report _ _ hs₈) hs₈

theorem execSafeStateReached {t} : AfterNext P (execSafeStateReached t s) := by
  unfold Machine.execSafeStateReached
  split
  · exact h.ite _ (h.safeReached (h.atNs _ _ hs)) hs
  · exact hs

theorem exitRefused {k} : P (s.exitRefused k) := h.report _ _ (h.put _ _ _ hs)
theorem safeExit {q disagree} : P (s.safeExit q disagree) := h.ite _ hs (h.ite _ (h.exitRefused hs) (h.setErr _ _ hs))
theorem execSafeExit {q disagree} : AfterNext P (execSafeExit q disagree s) := h.landing hs (fun _ hs₁ => h.safeExit hs₁)

theorem errBoundary : P s.errBoundary := by
  unfold State.errBoundary
  extract_lets s₁
  have hs₁ : P s₁ := h.setErr _ _ hs
  split
  · exact h.ite _ (h.ite _ (h.exitRefused hs₁) (h.setErr _ _ hs₁)) hs
  · exact hs

theorem execSafeExitApply : AfterNext P (execSafeExitApply s) := by
  unfold Machine.execSafeExitApply
  extract_lets s₁ s₂
  have hs₂ : P s₂ := h.each _ (fun _ _ hs₃ => h.putB _ _ _ (h.putB _ _ _ hs₃)) _ _ (h.setErr _ _ (h.spineReset hs))
  split
  · exact h.ite _ (h.report _ _ (h.putB _ _ _ (h.putB _ _ _ hs₂))) hs
  · exact hs

theorem execClockMonitorWindow {ppm} : AfterNext P (execClockMonitorWindow ppm s) := by
  unfold Machine.execClockMonitorWindow
  extract_lets bad n s₁
  have hs₁ : P s₁ := h.setErr _ _ hs
  exact h.ite _ (h.report _ _ hs₁) hs₁

/-! ### The PCIe endpoint, the plant ports and the relay link -/

theorem bar4Answer {a} : P (s.bar4Answer a) := h.setLinks _ _ hs

theorem bar4 {off n w} : P (s.bar4 off n w) := by
  unfold State.bar4
  extract_lets k cls a n₁ s₁
  refine h.ite _ hs ?_
  split
  · exact h.bar4Answer (h.accReport hs)
  · refine h.ite _ (h.sramAccess hs) ?_
    split
    · exact h.bar4Answer (h.store (h.portWrite hs))
    · exact h.bar4Answer (h.portRead hs)

theorem execBar4Access {off n w} : AfterNext P (execBar4Access off n w s) := h.bar4 hs
theorem hostWake {q v} : P (s.hostWake q v) := h.ite _ (h.wakeEvent hs) hs
theorem execHostWake {q v} : AfterNext P (execHostWake q v s) := h.landing hs (fun _ hs₁ => h.hostWake hs₁)
theorem linkGone : P s.linkGone := h.put _ _ _ (h.put _ _ _ (h.putB _ _ _ hs))

theorem execPerstAssert : AfterNext P (execPerstAssert s) := by
  unfold Machine.execPerstAssert
  refine h.ite _ hs ?_
  extract_lets s₁ s₂
  have hs₁ : P s₁ := h.setLinks _ _ hs
  have hs₂ : P s₂ := h.ite _ (h.flr hs₁) hs₁
  exact h.ite _ (h.setLinks _ _ (h.resetRegs (h.linkGone hs₂))) hs₂

theorem execPerstDeassert : AfterNext P (execPerstDeassert s) := h.ite _ (h.wakeEvent (h.setLinks _ _ hs)) hs

theorem pcieDown : P s.pcieDown := by
  unfold State.pcieDown
  refine h.ite _ hs ?_
  extract_lets s₁
  have hs₁ : P s₁ := h.linkGone hs
  exact h.ite _ (h.report _ _ (h.flr hs₁)) hs₁

theorem execPcieLinkDown : AfterNext P (execPcieLinkDown s) := h.pcieDown hs

theorem execPcieLinkUp {gen width} : AfterNext P (execPcieLinkUp gen width s) :=
  h.ite _ hs (h.setLinks _ _ (h.put _ _ _ (h.put _ _ _ (h.putB _ _ _ hs))))

theorem hitFails {h' status} : P (s.hitFails h' status) := by
  unfold State.hitFails
  split
  · split
    · exact h.ite _ (h.ite _ (h.failRun hs) (h.complete hs)) (h.ite _ (h.setFlight hs) hs)
    · exact hs
  · exact h.ite _ (h.report _ _ (h.ledgerOff hs)) hs
  · exact hs

theorem execPcieError {f e hit} : AfterNext P (execPcieError f e hit s) := by
  unfold Machine.execPcieError
  refine h.ite _ hs ?_
  split
  · exact h.report _ _ (h.addSat _ _ _ hs)
  · exact h.hitFails (h.report _ _ (h.addSat _ _ _ hs))
  · exact h.hitFails (h.report _ _ (h.addSat _ _ _ hs))
  · exact h.report _ _ (h.addSat _ _ _ hs)
  · exact h.pcieDown hs

theorem qTraffic {b write a n} : P (s.qTraffic b write a n) := h.ite _ hs (h.ite _ (h.portWrite hs) (h.portRead hs))

theorem qDone {b back} : P (s.qDone b back) := by
  unfold State.qDone
  extract_lets f s₁ h₁ s₂ i s₃
  have hs₂ : P s₂ := h.wrN _ _ _ (h.addrWrite (h.qTraffic hs))
  have hs₃ : P s₃ := h.ite _ (h.signal hs₂) hs₂
  exact h.ite _ (h.irqTo _ _ _ _ hs₃) hs₃

theorem plantStore {n b x} : P (s.plantStore n b x) := by
  unfold State.plantStore
  refine h.ite _ (h.addSat _ _ _ hs) ?_
  extract_lets f vlan s₁
  have hs₁ : P s₁ := h.qTraffic hs
  split
  · exact h.addSat _ _ _ (h.accReport hs)
  · exact h.qDone (h.add64 _ _ _ (h.ite _ hs₁ (h.addrWrite (h.qTraffic hs₁))))

theorem execPlantFrameReceive {n frame fcs} : AfterNext P (execPlantFrameReceive n frame fcs s) := by
  unfold Machine.execPlantFrameReceive
  refine h.ite _ hs ?_
  split
  · exact h.plantStore hs
  · exact hs

theorem execPlantFrameTransmit {n} : AfterNext P (execPlantFrameTransmit n s) := by
  unfold Machine.execPlantFrameTransmit
  refine h.ite _ hs ?_
  split
  · exact hs
  · extract_lets b f s₁ s₂
    have hs₁ : P s₁ := h.setLinks _ _ hs
    have hs₂ : P s₂ := h.qTraffic hs₁
    split
    · exact h.qDone (h.accReport hs₁)
    · extract_lets len back
      refine h.ite _ (h.qDone hs₂) ?_
      split
      · exact h.qDone (h.accReport hs₂)
      · exact h.qDone (h.add64 _ _ _ (h.setLinks _ _ (h.qTraffic hs₂)))

theorem qTail {q n tx i v} : P (s.qTail q n tx i v) := h.ite _ hs (h.wrN _ _ _ hs)
theorem execQTailWrite {q n tx i v} : AfterNext P (execQTailWrite q n tx i v s) := h.landing hs (fun _ hs₁ => h.qTail hs₁)
theorem execPlantLink {n speed} : AfterNext P (execPlantLink n speed s) := h.ite _ hs (h.report _ _ (h.put _ _ _ (h.putB _ _ _ hs)))
theorem relayTrain : P s.relayTrain := h.setRelay _ _ (h.put _ _ _ hs)
theorem relayEnable {q v} : P (s.relayEnable q v) := h.ite _ hs (h.relayTrain (h.wrN _ _ _ hs))
theorem execRelayEnable {q v} : AfterNext P (execRelayEnable q v s) := h.landing hs (fun _ hs₁ => h.relayEnable hs₁)

theorem execRelayTrained {up size accepts path} : AfterNext P (execRelayTrained up size accepts path s) := by
  unfold Machine.execRelayTrained
  refine h.ite _ hs ?_
  extract_lets s₁
  have hs₁ : P s₁ := h.put _ _ _ hs
  exact h.ite _ (h.setRelay _ _ (h.put _ _ _ (h.put _ _ _ hs₁))) (h.put _ _ _ (h.put _ _ _ hs₁))

theorem execRelayRetrain : AfterNext P (execRelayRetrain s) := h.ite _ (h.relayTrain hs) hs
theorem execRelayLinkDown {mine path} : AfterNext P (execRelayLinkDown mine path s) := h.ite _ hs (h.ite _ (h.relayDown hs) (h.put _ _ _ hs))
theorem hopSend {type tag addr} : P (s.hopSend type tag addr) := h.setRelay _ _ hs
theorem relayForward {type p} : P (s.relayForward type p) := h.relayGive hs

theorem relayIn {type p} {act : State → State} (hact : ∀ u, P u → P (act u)) : P (s.relayIn type p act) := by
  unfold State.relayIn
  refine h.ite _ hs (h.ite _ (h.hopSend hs) ?_)
  extract_lets s₁
  have hs₁ : P s₁ := h.hopSend (h.useFree _ (h.add64 _ _ _ hs))
  exact h.ite _ (hact _ hs₁) (h.relayForward hs₁)

theorem relayRefuse {p} : P (s.relayRefuse p) := by
  unfold State.relayRefuse
  extract_lets s₁
  exact h.setRelay _ _ (h.relaySend hs)

theorem relayLast {p} : P (s.relayLast p) := h.ite _ (h.relaySend hs) hs

theorem relayAccept {p} : P (s.relayAccept p) := by
  unfold State.relayAccept
  refine h.ite _ (h.ite _ (h.setRelay _ _ hs) hs) ?_
  extract_lets n
  split
  · exact h.relayLast (h.arrive (h.store (h.meshMove hs)))
  · refine h.ite _ (h.relayRefuse hs) ?_
    split
    · exact h.relayRefuse (h.accReport hs)
    · exact h.relayLast (h.store (h.portWrite hs))

theorem execWrite {p} : AfterNext P (execWrite p s) := h.relayIn hs (fun _ hs₁ => h.relayAccept hs₁)
theorem relayEnd {o} : P (s.relayEnd o) := h.setRelay _ _ hs

theorem relayAck {tag} : P (s.relayAck tag) := by
  unfold State.relayAck
  split
  · exact hs
  · extract_lets s₁
    have hs₁ : P s₁ := h.relayEnd hs
    refine h.ite _ hs₁ ?_
    split
    · exact h.copyEnd hs₁
    · exact h.runSettle hs₁

theorem execWack {p} : AfterNext P (execWack p s) := h.relayIn hs (fun _ hs₁ => h.relayAck hs₁)

theorem relayNak {tag} : P (s.relayNak tag) := by
  unfold State.relayNak
  extract_lets s₁
  have hs₁ : P s₁ := h.addSat _ _ _ hs
  split
  · exact hs₁
  · extract_lets s₂
    have hs₂ : P s₂ := h.relayForget hs₁
    exact h.ite _ (h.failRun hs₂) (h.complete hs₂)

theorem execWnak {p} : AfterNext P (execWnak p s) := h.relayIn hs (fun _ hs₁ => h.relayNak hs₁)

theorem relaySignal {i max? v} : P (s.relaySignal i max? v) := by
  unfold State.relaySignal
  extract_lets s₁ b
  have hs₁ : P s₁ := h.signal hs
  exact h.ite _ (h.signal hs₁) hs₁

theorem execSignalPacket {p} : AfterNext P (execSignalPacket p s) :=
  h.relayIn hs (fun _ hs₁ => h.ite _ (h.relaySend (h.relaySignal hs₁)) (h.relaySend hs₁))

theorem signalEnd {tag status} : P (s.signalEnd tag status) := by
  unfold State.signalEnd
  split
  · exact h.complete (h.relayEnd hs)
  · exact hs

theorem execSack {p} : AfterNext P (execSack p s) := h.relayIn hs (fun _ hs₁ => h.signalEnd hs₁)
theorem execSrefuse {p} : AfterNext P (execSrefuse p s) := h.relayIn hs (fun _ hs₁ => h.signalEnd hs₁)
theorem execLack {tag addr} : AfterNext P (execLack tag addr s) := h.ite _ hs (h.relayFlush (h.setRelay _ _ hs))

theorem execLnak {tag} : AfterNext P (execLnak tag s) := by
  unfold Machine.execLnak
  refine h.ite _ hs ?_
  extract_lets hit again s₁ s₂
  have hs₂ : P s₂ := h.report _ _ (h.addSat _ _ _ (h.setRelay _ _ hs))
  exact h.ite _ (h.relayDown hs₂) hs₂

/-! ### Bring-up -/

theorem execSysResetNRise : AfterNext P (execSysResetNRise s) := h.ite _ (h.setBoot _ _ hs) hs

theorem execAuxOverload {out ma us} : AfterNext P (execAuxOverload out ma us s) :=
  h.ite _ (h.report _ _ (h.ite _ (h.setMemc _ _ hs) (h.setBoot _ _ hs))) hs

theorem askReset {q kind} : P (s.askReset q kind) := h.ite _ (h.report _ _ hs) (h.ite _ hs (h.setBoot _ _ hs))
theorem resetCtrl {q v} : P (s.resetCtrl q v) := h.ite _ hs (h.each _ (fun _ _ hs₁ => h.ite _ (h.askReset hs₁) hs₁) _ _ hs)
theorem execResetPor {q} : AfterNext P (execResetPor q s) := h.landing hs (fun _ hs₁ => h.resetCtrl hs₁)
theorem execResetWatch {q} : AfterNext P (execResetWatch q s) := h.landing hs (fun _ hs₁ => h.resetCtrl hs₁)
theorem execResetSpine {q} : AfterNext P (execResetSpine q s) := h.landing hs (fun _ hs₁ => h.resetCtrl hs₁)
theorem execResetHost {q} : AfterNext P (execResetHost q s) := h.landing hs (fun _ hs₁ => h.resetCtrl hs₁)
theorem hostReset : P s.hostReset := h.restartHost (h.put _ _ _ (h.putB _ _ _ (h.resetFunction (h.resetFunction hs))))

theorem bootStep {x} : P (s.bootStep x) := by
  unfold State.bootStep
  split
  · exact hs
  · exact h.setPdom (h.put _ _ _ (h.setDom (h.setDom hs)))
  · exact h.setPwr _ _ (h.wrN _ _ _ (h.wrN _ _ _ (h.putB _ _ _ hs)))

theorem bootBoundary : P s.bootBoundary := h.ite _ hs (h.each _ (fun _ _ hs₁ => h.bootStep hs₁) _ _ (h.setBoot _ _ hs))

theorem execLpTrainingDone {ok} : AfterNext P (execLpTrainingDone ok s) := by
  unfold Machine.execLpTrainingDone
  refine h.ite _ hs (h.ite _ (h.putB _ _ _ (h.each _ (fun _ _ hs₁ => h.setMchan hs₁) _ _ hs)) ?_)
  extract_lets s₁ s₂
  have hs₁ : P s₁ := h.setBoot _ _ hs
  have hs₂ : P s₂ := h.putB _ _ _ hs₁
  exact h.ite _ hs₁ (h.ite _ (h.uartLine hs₂) hs₂)

theorem setRecover {f} : P (s.setRecover f) := h.setTrust _ _ hs

theorem recoverWord {w} : P (s.recoverWord w) := by
  unfold State.recoverWord
  extract_lets n top s₁
  exact h.setRecover (h.ite _ (h.wrMem _ _ _ hs) hs)

theorem recoverFail {status} : P (s.recoverFail status) := h.setRecover (h.keepMem _ _ hs)

theorem recoverEnd : P s.recoverEnd := by
  unfold State.recoverEnd
  extract_lets p h₁
  refine h.ite _ (h.recoverFail hs) ?_
  split
  · exact h.recoverFail hs
  · extract_lets s₁
    have hs₁ : P s₁ := h.setRecover (h.writeSlot hs)
    exact h.ite _ (h.startRuntime hs₁) (h.startBoot hs₁)

theorem execRecoverWord {w} : AfterNext P (execRecoverWord w s) := h.ite _ (h.recoverWord hs) hs
theorem execRecoverLast {w} : AfterNext P (execRecoverLast w s) := h.ite _ (h.recoverEnd (h.recoverWord hs)) hs

/-! ### Seals and mated pairs at the boundary -/

theorem setField {x} : P (s.setField x) := h.wrN _ _ _ (h.setActing _ _ hs)
theorem withSet {l} : P (s.withSet l) := h.each _ (fun _ _ hs₁ => h.setField hs₁) _ _ hs
theorem ttApplied {off} : P (s.ttApplied off) := h.ite _ (h.epochNow hs) (h.ite _ hs (h.ite _ (h.epochNow (h.put _ _ _ hs)) (h.epochSync hs)))
theorem expressMoved {old} : P (s.expressMoved old) := h.ite _ hs (h.applyCeilings (h.put _ _ _ (h.putB _ _ _ (h.putB _ _ _ (h.setGov _ _ hs)))))

theorem applied {old off} : P (s.applied old off) :=
  h.ite _ (h.ttApplied hs) (h.ite _ (h.expressMoved hs) (h.ite _ (h.regulatorStart hs) (h.ite _ (h.chanSealed hs) (h.ite _ (h.regionSync hs) hs))))

theorem pairDecide {m} : P (s.pairDecide m) := by
  unfold State.pairDecide
  extract_lets l t
  split
  · exact h.report _ _ hs
  · exact hs
  · exact h.applied (h.withSet hs)

theorem applyPairs : P s.applyPairs := h.ite _ hs (h.each _ (fun _ _ hs₁ => h.pairDecide hs₁) _ _ (h.setTxn _ _ hs))

theorem reportRefusals {l} : P (s.reportRefusals l) := by
  refine List.foldlRecOn (motive := fun x : State × List Nat => P x.1) l _ hs fun x hx r _ => ?_
  split
  · split
    · exact hx
    · exact h.report _ _ hx
  · exact hx

theorem sealIn {x} : P (s.sealIn x) := by
  unfold State.sealIn
  extract_lets n t t₁ t₂
  have ht₁ : P t₁ := h.setTxn _ _ (h.wrN _ _ _ (h.withSet hs))
  exact h.each _ (fun _ _ hs₁ => h.applied hs₁) _ _ (h.each _ (fun _ _ hs₁ => h.dropHalf hs₁) _ _ ht₁)

theorem sealOutcome {x} : P (s.sealOutcome x).1 := by
  unfold State.sealOutcome
  extract_lets bad
  split
  · exact hs
  · split
    · exact h.addSat _ _ _ hs
    · split
      · exact h.sealIn hs
      · exact h.reportRefusals hs

theorem decideSeal {o} : P (s.decideSeal o) := by
  unfold State.decideSeal
  extract_lets x h₁ r s₁
  have hs₁ : P s₁ := h.freeOwner (h.sealOutcome hs)
  split
  · exact h.complete hs₁
  · exact h.setTxn _ _ hs₁

theorem applySeals : P s.applySeals := by
  unfold State.applySeals
  extract_lets s₁ due
  have hs₁ : P s₁ := h.applyPairs hs
  exact h.ite _ hs₁ (h.each _ (fun _ _ hs₂ => h.decideSeal hs₂) _ _ (h.setTxn _ _ hs₁))

/-! ### Writes of registers -/

theorem plain {off v} : P (s.plain off v) := h.ite _ hs (h.wrCfg _ _ _ hs)

theorem gated {off v bit} {busy : State → State} (hbusy : ∀ u, P u → P (busy u)) : P (s.gated off v bit busy) :=
  h.ite _ (h.plain (h.ite _ (hbusy _ hs) hs)) (h.plain hs)

theorem enOnly {off v bit} : P (s.enOnly off v bit) := h.plain hs

theorem wrGlobal {q off v} : P (s.wrGlobal q off v) :=
  h.ite _ (h.resetCtrl hs) (h.ite _ (h.hostWake hs) (h.ite _ (h.plain hs) (h.ite _ hs (h.ite _ (h.refuse hs) (h.ite _ (h.plain hs) (h.plain hs))))))

theorem wrRound {x off v} : P (s.wrRound x off v) := by
  unfold State.wrRound
  refine h.ite _ ?_ (h.ite _ (h.plain hs) (h.ite _ (h.ttEnable hs) (h.ite _ (h.ite _ (h.refuse hs) (h.ite _ (h.ttLoad hs) (h.ite _ (h.ttVerify hs)
      (h.plain hs)))) (h.ite _ (h.plain hs) (h.plain hs)))))
  extract_lets bad v₁ v₂ s₁ s₂
  have hs₂ : P s₂ := h.setSource (h.plain (h.ite _ (h.refuse hs) hs))
  exact h.ite _ (h.relock hs₂) hs₂

theorem txnCmd {q v} : P (s.txnCmd q v) := by
  unfold State.txnCmd
  extract_lets o
  split
  · exact hs
  · split
    · exact h.cmdAnswer (h.txnOpen hs)
    · exact h.ite _ (h.txnSeal hs) (h.setCmd hs)
    · exact h.cmdAnswer (h.txnReturn hs)
    · exact hs

theorem wrTxn {q off v} : P (s.wrTxn q off v) := h.ite _ (h.txnCmd hs) (h.plain hs)
theorem bankOwnerWrite {q off v} : P (s.bankOwnerWrite q off v) := h.ite _ hs (h.ite _ (h.refuse hs) (h.ite _ (h.refuse hs) (h.wrCfg _ _ _ hs)))

theorem ringCtrl {r v} : P (s.ringCtrl r v) := by
  unfold State.ringCtrl
  extract_lets s₁ s₂ s₃
  have hs₁ : P s₁ := h.ite _ (h.ringStop hs) hs
  have hs₂ : P s₂ := h.ite _ (h.ringAbort hs₁) hs₁
  have hs₃ : P s₃ := h.ite _ (h.ringResume hs₂) hs₂
  exact h.ite _ hs₃ (h.ite _ (h.ringEnable hs₃) (h.ringDisable hs₃))

theorem wrRings {q off v} : P (s.wrRings q off v) := by
  unfold State.wrRings
  refine h.ite _ hs (h.ite _ (h.receiptBase hs) (h.ite _ (h.sigRegister hs) (h.ite _ (h.bankOwnerWrite hs) (h.ite _ (h.plain hs) ?_))))
  extract_lets r
  split
  · exact h.ringCfg hs
  · exact h.ringCtl hs (fun _ hs₁ => h.ringCtrl hs₁)
  · exact h.plain hs
  · exact h.ite _ (h.report _ _ hs) (h.plain hs)
  · exact h.ite _ (h.report _ _ hs) (h.plain hs)
  · exact h.plain hs

theorem wrFloor {q off v} : P (s.wrFloor q off v) :=
  h.ite _ (h.walkWrite hs) (h.ite _ (h.releaseWrite hs) (h.ite _ (h.selWrite hs) (h.ite _ (h.plain hs) (h.plain hs))))

theorem wrMemctl {q off v} : P (s.wrMemctl q off v) := h.ite _ (h.dxCtrl hs) (h.ite _ (h.plain hs) (h.ite _ (h.plain hs) (h.plain hs)))
theorem wrIsp {off v} : P (s.wrIsp off v) := h.ite _ (h.streamWrite hs) (h.ite _ (h.report _ _ hs) (h.plain hs))

theorem wrVcodec {off v} : P (s.wrVcodec off v) := by
  unfold State.wrVcodec
  extract_lets busy i e
  have hbusy : ∀ x0 u, P u → P (busy x0 u) := fun _ _ hs₁ => h.report _ _ hs₁
  exact h.ite _ (h.ite _ (h.gated hs (fun _ hs₁ => hbusy _ _ hs₁)) (h.ite _ (hbusy _ _ hs) (h.plain hs))) (h.ite _ (h.ite _ (h.encWrite hs) (h.ite _
      (hbusy _ _ hs) (h.plain hs))) (h.ite _ (h.ite _ (hbusy _ _ hs) (h.gated hs (fun _ hs₁ => hbusy _ _ hs₁))) (h.ite _ (hbusy _ _ hs) (h.plain
      hs))))

theorem wrCamera {off v} : P (s.wrCamera off v) := by
  unfold State.wrCamera
  extract_lets busy p c
  have hbusy : ∀ x0 u, P u → P (busy x0 u) := fun _ _ hs₁ => h.report _ _ hs₁
  exact h.ite _ (h.ite _ (h.plain hs) (h.ite _ (hbusy _ _ hs) (h.gated hs (fun _ hs₁ => hbusy _ _ hs₁)))) (h.ite _ (h.ite _ (h.chanWrite hs) (h.ite _
      (h.plain hs) (h.ite _ (hbusy _ _ hs) (h.ite _ (h.plain hs) (h.plain hs))))) (h.plain hs))

theorem wrExpress {off v} : P (s.wrExpress off v) := by
  unfold State.wrExpress
  extract_lets busy c
  have hbusy : ∀ u, P u → P (busy u) := fun _ hs₁ => h.refuse hs₁
  exact h.ite _ (h.ite _ (h.ite _ (hbusy _ hs) (h.gated hs hbusy)) (h.ite _ (h.ite _ (hbusy _ hs) (h.plain hs)) (h.plain hs))) (h.ite _ (h.gated hs
      hbusy) (h.ite _ (h.ite _ (hbusy _ hs) (h.plain hs)) (h.plain hs)))

theorem wrCport {q off v} : P (s.wrCport q off v) := by
  unfold State.wrCport
  extract_lets busy p b p₁
  have hbusy : ∀ u, P u → P (busy u) := fun _ hs₁ => h.refuse hs₁
  exact h.ite _ (h.ite _ (h.refuse hs) (h.ite _ (h.refuse hs) (h.ite _ (h.wrCfg _ _ _ hs) (h.ite _ (h.putB _ _ _ (h.plain hs)) (h.plain hs))))) (h.ite
      _ (h.gated hs hbusy) (h.ite _ (h.plain hs) (h.ite _ (hbusy _ hs) (h.plain hs))))

theorem qCfgWrite {off v} : P (s.qCfgWrite off v) := by
  unfold State.qCfgWrite
  extract_lets f en v₁ s₁
  have hs₁ : P s₁ := h.plain hs
  exact h.ite _ hs (h.ite _ (h.gated hs (fun _ hs₂ => hs₂)) (h.ite _ hs (h.ite _ (h.wrN _ _ _ (h.wrN _ _ _ hs₁)) hs₁)))

theorem wrPlant {q off v} : P (s.wrPlant q off v) := by
  unfold State.wrPlant
  extract_lets n o tx i b on i₁
  refine h.ite _ hs (h.ite _ (h.gated hs (fun _ hs₁ => hs₁)) (h.ite _ (h.ite _ (h.plain hs) (h.ite _ (h.enOnly hs) hs)) (h.ite _ (h.plain hs) ?_)))
  split
  · exact h.qCfgWrite hs
  · exact h.qTail hs
  · exact h.ite _ hs (h.ite _ (h.enOnly hs) (h.plain hs))
  · exact h.ite _ hs (h.plain hs)
  · exact hs

theorem wrFabric {q off v} : P (s.wrFabric q off v) :=
  h.ite _ hs (h.ite _ (h.cfgCmd hs) (h.ite _ (h.ite _ (h.refuse hs) (h.plain hs)) (h.ite _ (h.plain hs) (h.ite _ (h.clkCfg hs) (h.ite _ (h.ite _
      (h.regionHold hs) (h.ite _ (h.refuse hs) (h.plain hs))) (h.plain hs))))))

theorem reqWrite {q dom v} : P (s.reqWrite q dom v) := by
  unfold State.reqWrite
  extract_lets tag
  split
  · exact h.ite _ (h.domCancel hs) (h.domReq hs)
  · exact h.ite _ (h.devCancel hs) (h.devReq hs)

theorem wrPower {q off v} : P (s.wrPower q off v) :=
  h.ite _ (h.reqWrite hs) (h.ite _ (h.secHold hs) (h.ite _ hs (h.ite _ (h.ite _ (h.reqWrite hs) (h.plain hs)) (h.ite _ (h.ite _ (h.hostAck hs) (h.ite
      _ (h.hostAck hs) hs)) (h.ite _ (h.padRelease hs) (h.ite _ (h.plain hs) (h.ite _ (h.plain hs) (h.ite _ hs (h.ite _ (h.droopRelease hs) (h.ite _
      (h.plain (h.govKeep hs)) (h.ite _ (h.plain (h.govKeep hs)) (h.ite _ (h.plain (h.govKeep hs)) (h.ite _ (h.plain (h.govKeep hs)) (h.ite _ (h.plain
      (h.govKeep hs)) (h.ite _ (h.plain hs) (h.plain hs))))))))))))))))

theorem wrMonitor {q off v} : P (s.wrMonitor q off v) := h.ite _ (h.plain hs) hs

theorem wrSecure {q off v} : P (s.wrSecure q off v) :=
  h.ite _ (h.ite _ (h.refuse hs) (h.ite _ hs (h.extendFree (h.plain hs)))) (h.ite _ (h.ite _ (h.refuse hs) (h.ite _ (h.notifyAck hs) hs)) (h.ite _
      (h.ite _ (h.plain hs) hs) (h.ite _ (h.ite _ (h.refuse hs) (h.ite _ hs (h.ite _ (h.wrN _ _ _ hs) (h.ite _ (h.ite _ (h.mbGo hs) hs) (h.plain
      hs))))) hs)))

theorem wrError {q off v} : P (s.wrError q off v) := by
  unfold State.wrError
  refine h.ite _ (h.inject hs) (h.ite _ hs (h.ite _ (h.errAck hs) (h.ite _ ?_ (h.plain hs))))
  extract_lets s₁ s₂ s₃
  have hs₁ : P s₁ := h.plain hs
  have hs₂ : P s₂ := h.ite _ (h.safeRequest hs₁) hs₁
  have hs₃ : P s₃ := h.ite _ (h.safeNow hs₂) hs₂
  exact h.ite _ (h.safeExit (h.useFree _ hs₃)) hs₃

theorem ledgerCfg {v} : P (s.ledgerCfg v) := by
  unfold State.ledgerCfg
  extract_lets off v₁ v₂ m s' s₁
  have hs₁ : P s₁ := h.plain hs
  exact h.ite _ (h.plain (h.ite _ (h.refuse hs) hs)) (h.ite _ (h.wrN _ _ _ (h.wrN _ _ _ hs₁)) hs₁)

theorem poolBase {v} : P (s.poolBase v) := h.ite _ (h.plain hs) (h.ite _ (h.refuse hs) (h.ite _ (h.refuse hs) (h.plain hs)))
theorem tenantWrite {q t v} : P (s.tenantWrite q t v) := h.ite _ (h.refuse hs) (h.ite _ (h.plain (h.refuse hs)) (h.plain hs))

theorem wrFirmware {q off v} : P (s.wrFirmware q off v) := by
  unfold State.wrFirmware
  refine h.ite _ hs (h.ite _ ?_ (h.ite _ hs (h.ite _ (h.plain hs) (h.ite _ (h.ite _ (h.refuse hs) (h.plain hs)) (h.ite _ (h.ledgerCfg hs) (h.ite _
      (h.ledgerTail hs) (h.ite _ (h.poolBase hs) (h.ite _ (h.ite _ (h.refuse hs) (h.plain hs)) (h.ite _ (h.tenantWrite hs) (h.plain hs))))))))))
  extract_lets p s₁ s₂
  have hs₂ : P s₂ := h.plain (h.ite _ (h.setFw _ _ hs) hs)
  exact h.ite _ hs (h.ite _ (h.ite _ (h.procHalt hs₂) hs₂) (h.plain hs))

theorem wrRelay {q off v} : P (s.wrRelay q off v) := by
  unfold State.wrRelay
  refine h.ite _ hs (h.ite _ ?_ (h.ite _ (h.ite _ hs (h.ite _ (h.enOnly hs) (h.plain hs))) (h.ite _ (h.ite _ (h.enOnly hs) hs) (h.plain hs))))
  extract_lets v₁ v₂ s₁
  have hs₁ : P s₁ := h.ite _ (h.relayDown hs) hs
  exact h.ite _ (h.ite _ hs (h.put _ _ _ (h.put _ _ _ (h.putB _ _ _ hs₁)))) (h.ite _ (h.relayEnable hs) (h.plain hs))

theorem wrBlock {q off v} : P (s.wrBlock q off v) := by
  unfold State.wrBlock
  refine h.ite _ (h.wrGlobal hs) (h.ite _ (h.wrRound hs) (h.ite _ (h.wrTxn hs) (h.ite _ (h.wrRings hs) ?_)))
  split
  · exact h.wrFloor hs
  · exact h.wrMemctl hs
  · exact h.wrIsp hs
  · exact h.wrVcodec hs
  · exact h.wrCamera hs
  · exact h.wrExpress hs
  · exact h.wrCport hs
  · exact h.wrPlant hs
  · exact h.wrFabric hs
  · exact h.wrPower hs
  · exact h.wrMonitor hs
  · exact h.wrSecure hs
  · exact h.wrError hs
  · exact h.wrFirmware hs
  · exact h.wrRelay hs

theorem regApply {q off v pl} : P (s.regApply q off v pl) := by
  unfold State.regApply
  extract_lets m down s₁
  have hs₁ : P s₁ := h.ite _ (h.shplWrite hs) hs
  exact h.ite _ hs (h.ite _ hs₁ (h.wrBlock hs₁))

theorem write32 {q off v pl} : P (s.write32 q off v pl) := by
  unfold State.write32
  refine h.ite _ (h.ite _ (h.fabReg (h.dropHold hs)) hs) ?_
  extract_lets s₁ reg
  split
  · exact h.ite _ (h.setHold (h.ite _ (h.dropHold hs) hs)) (h.regApply (h.dropHold hs))
  · split
    · refine h.ite _ hs ?_
      split
      · exact h.ite _ (h.regApply (h.setHold hs)) (h.regApply (h.dropHold hs))
      · exact h.regApply hs
    · exact hs

theorem write64 {q off v} : P (s.write64 q off v) := by
  unfold State.write64
  extract_lets a b
  split
  · exact h.ite _ (h.regApply (h.dropHold hs)) (h.ite _ (h.pairBoth (h.write32 (h.write32 hs))) (h.write32 (h.write32 hs)))
  · exact h.write32 (h.write32 hs)

theorem regWrite {q off size v} : P (s.regWrite q off size v) := h.ite _ hs (h.ite _ (h.refuse hs) (h.ite _ (h.write32 hs) (h.write64 hs)))

theorem execRegWrite {q off size v} : AfterNext P (execRegWrite q off size v s) := by
  unfold Machine.execRegWrite
  split
  · exact trivial
  · exact h.regWrite hs

theorem execLowHalfDrop {q} : AfterNext P (execLowHalfDrop q s) := by
  unfold Machine.execLowHalfDrop
  split
  · exact h.ite _ (h.dropHold hs) hs
  · exact hs

theorem readHalf {q off high} : P (s.readHalf q off high) := by
  unfold State.readHalf
  extract_lets give mine v
  have hgive : ∀ x0 x1, P (give x0 x1) := fun _ _ => h.setBus _ _ hs
  refine h.ite _ (hgive _ _ ) ?_
  split <;> exact hgive _ _ 

theorem read32 {q off} : P (s.read32 q off) := by
  unfold State.read32
  refine h.ite _ (h.ite _ (h.fabReg hs) (h.giveRead hs)) ?_
  split
  · exact h.ite _ (h.readHalf hs) (h.giveRead hs)
  · split
    · exact h.ite _ (h.readHalf hs) (h.giveRead hs)
    · exact h.giveRead hs

theorem read64 {q off} : P (s.read64 q off) := h.ite _ (h.giveRead hs) (h.giveRead (h.read32 (h.read32 hs)))

theorem regRead {q off size} : P (s.regRead q off size) :=
  h.ite _ hs (h.ite _ (h.giveRead hs) (h.ite _ (h.refuse (h.giveRead hs)) (h.ite _ (h.read32 hs) (h.read64 hs))))

theorem execLowHalfRead {q off size} : AfterNext P (execLowHalfRead q off size s) := by
  unfold Machine.execLowHalfRead
  split
  · exact trivial
  · exact h.regRead hs

/-! ### The round boundary -/

theorem takeEntry : P s.takeEntry := h.spillEntry (h.memEntry (h.setRnd _ _ hs))
theorem entryNow : P s.entryNow := h.ite _ (h.takeEntry hs) hs
theorem execPairApply : AfterNext P (execPairApply s) := h.entryNow (h.applyPairs hs)
theorem execSealApply : AfterNext P (execSealApply s) := h.entryNow (h.applySeals hs)

theorem roundEnd : P s.roundEnd := by
  unfold State.roundEnd
  extract_lets from_ s₁
  have hs₁ : P s₁ := h.ite _ (h.takeEntry hs) hs
  exact h.each _ (fun _ _ hs₂ => h.droopRound hs₂) _ _ (h.capShort (h.govActivity hs₁))

theorem countRound : P s.countRound := by
  unfold State.countRound
  extract_lets s₁
  exact h.setFetch _ _ (h.setRnd _ _ (h.wrN _ _ _ (h.wrN _ _ _ hs)))

theorem latched {off old} : P (s.latched off old) :=
  h.ite _ (h.chanBoundary hs) (h.ite _ (h.portBoundary hs) (h.ite _ (h.portBoundary hs) (h.ite _ (h.guardBoundary hs) (h.ite _ (h.guardBoundary hs)
      (h.ite _ (h.visLatch hs) hs)))))

theorem latchAll : P s.latchAll := h.each _ (fun _ _ hs₁ => h.latched hs₁) _ _ (h.setActing _ _ hs)

theorem blocksBoundary : P s.blocksBoundary := by
  unfold State.blocksBoundary
  extract_lets s₁ s₂ s₃
  have hs₁ : P s₁ := h.fabBoundary (h.entryNow (h.setRnd _ _ (h.memBoundary (h.ttBoundary hs))))
  have hs₂ : P s₂ := h.fwBoundary (h.pwrBoundary (h.dbgBoundary (h.releaseBoundary hs₁)))
  exact h.setTxn _ _ (h.trustBoundary (h.errBoundary hs₂))

/-! ### Memory requests and the cores of the module -/

theorem coreOp {q a n v} : P (s.coreOp q a n v) := by
  unfold State.coreOp
  refine h.ite _ ?_ (h.pageAccess hs)
  split
  · exact h.regWrite hs
  · exact h.regRead hs

theorem coreAccess {tag q a o} : P (s.coreAccess tag q a o) := by
  unfold State.coreAccess
  extract_lets n s₁
  refine h.ite _ hs ?_
  split
  · exact h.memAnswer (h.coreOp hs)
  · exact h.memAnswer (h.coreOp (h.giveRead hs))

theorem anyRequest {tag b a o} : P (s.anyRequest tag b a o) := by
  unfold State.anyRequest
  split
  · exact h.ite _ (h.coreAccess hs) (h.memRequest hs)
  · exact h.memRequest hs

theorem execMemRequest {tag b a o t} : AfterNext P (execMemRequest tag b a o t s) := h.anyRequest (h.atNs _ _ hs)

end Closed

/-- What of a state outlives a power-on reset, every other part as it is after reset. -/
def State.powerCut (s : State) : State :=
  { regs := s.regs.filter fun e => fusedReg e.1
    hostMem := s.hostMem
    irqs := s.irqs
    freeCtr := s.freeCtr
    fab := { approved := s.fab.approved }
    trust := { nor := s.trust.nor, flash := s.trust.flash, copies := s.trust.copies, writes := s.trust.writes, keys := s.trust.keys,
               certGone := s.trust.certGone, uart := s.trust.uart }
    links := { perst := s.links.perst }
    boot := { vsel := s.boot.vsel }
    pending := s.pending }

/-- A property that every elementary update keeps, and the cut of power too: what every command keeps. -/
structure StepClosed (P : State → Prop) : Prop extends Closed P where
  powerCut : ∀ s, P s → P s.powerCut

namespace StepClosed
variable {P : State → Prop} (h : StepClosed P) {s : State} (hs : P s)
include h hs

theorem powerReset {cause} : P (s.powerReset cause) :=
  h.put _ _ _ (h.recSync (h.fuseSync (h.each _ (fun _ _ hs₁ => h.ite _ (h.setKeyState hs₁) hs₁) _ _ (h.powerCut _ hs))))

theorem railsOff {p cause} : P (s.railsOff p cause) := h.setBoot _ _ (h.powerReset hs)
theorem execPowerOn {fell good lo hi} : AfterNext P (execPowerOn fell good lo hi s) := h.ite _ (h.setBoot _ _ (h.powerReset hs)) hs
theorem execRailFail : AfterNext P (execRailFail s) := h.ite _ (h.railsOff hs) hs
theorem execBrownOut {mv ns} : AfterNext P (execBrownOut mv ns s) := h.ite _ (h.railsOff hs) hs
theorem execVinOvervoltage {mv ns} : AfterNext P (execVinOvervoltage mv ns s) := h.ite _ (h.railsOff hs) hs
theorem execSysResetN {ns} : AfterNext P (execSysResetN ns s) := h.ite _ (h.setBoot _ _ (h.powerReset hs)) hs

theorem resetBoundary : P s.resetBoundary := by
  unfold State.resetBoundary
  extract_lets due s₁ s₂
  have hs₁ : P s₁ := h.ite _ hs (h.setBoot _ _ hs)
  have hs₂ : P s₂ := h.ite _ (h.watchReset hs₁) hs₁
  exact h.ite _ (h.powerReset hs₁) (h.ite _ (h.spineReset hs₂) (h.ite _ (h.hostReset hs₂) hs₂))

theorem boundary {energy} : P (s.boundary energy) := by
  unfold State.boundary
  extract_lets s₁
  have hs₁ : P s₁ := h.latchAll (h.countRound (h.roundEnd hs))
  exact h.resetBoundary (h.bootBoundary (h.blocksBoundary (h.energyRound hs₁)))

theorem execRoundBoundary {energy} : AfterNext P (execRoundBoundary energy s) := h.ite _ (h.boundary hs) hs

/-- What a command answers keeps the property. -/
theorem exec : ∀ c : Instr, AfterNext P (exec c s)
  | .regWrite .. => h.execRegWrite hs
  | .lowHalfDrop .. => h.execLowHalfDrop hs
  | .roundBoundary .. => h.execRoundBoundary hs
  | .syncReceived .. => h.execSyncReceived hs
  | .syncLoss .. => h.execSyncLoss hs
  | .holdoverExpiry .. => h.execHoldoverExpiry hs
  | .alignment .. => h.execAlignment hs
  | .alignmentComplete .. => h.execAlignmentComplete hs
  | .relock .. => h.execRelock hs
  | .syncSourceWrite .. => h.execSyncSourceWrite hs
  | .ttLoad .. => h.execTtLoad hs
  | .ttLoadDone .. => h.execTtLoadDone hs
  | .ttVerify .. => h.execTtVerify hs
  | .ttVerifyDone .. => h.execTtVerifyDone hs
  | .ttEnableWrite .. => h.execTtEnableWrite hs
  | .unitStart .. => h.execUnitStart hs
  | .unitEnd .. => h.execUnitEnd hs
  | .overrun .. => h.execOverrun hs
  | .unitHang .. => h.execUnitHang hs
  | .txnOpen .. => h.execTxnOpen hs
  | .txnWrites .. => h.execTxnWrites hs
  | .txnSeal .. => h.execTxnSeal hs
  | .txnReturn .. => h.execTxnReturn hs
  | .sealApply .. => h.execSealApply hs
  | .txnExpired .. => h.execTxnExpired hs
  | .pairApply .. => h.execPairApply hs
  | .pairOrphan .. => h.execPairOrphan hs
  | .submissionDoorbell .. => h.execSubmissionDoorbell hs
  | .returnDoorbell .. => h.execReturnDoorbell hs
  | .envelopeFetch .. => h.execEnvelopeFetch hs
  | .envelopeStart .. => h.execEnvelopeStart hs
  | .envelopeComplete .. => h.execEnvelopeComplete hs
  | .irqDelay .. => h.execIrqDelay hs
  | .nop .. => h.execNop hs
  | .run .. => h.execRun hs
  | .runRelease .. => h.execRunRelease hs
  | .copy .. => h.execCopy hs
  | .wait .. => h.execWait hs
  | .waitSatisfied .. => h.execWaitSatisfied hs
  | .waitTimeout .. => h.execWaitTimeout hs
  | .signal .. => h.execSignal hs
  | .remoteSignalTimeout .. => h.execRemoteSignalTimeout hs
  | .fence .. => h.execFence hs
  | .receiptSigValue .. => h.execReceiptSigValue hs
  | .receiptBaseWrite .. => h.execReceiptBaseWrite hs
  | .ringCfgWrite .. => h.execRingCfgWrite hs
  | .ringEnable .. => h.execRingEnable hs
  | .ringDisable .. => h.execRingDisable hs
  | .ringStop .. => h.execRingStop hs
  | .ringAbort .. => h.execRingAbort hs
  | .ringResume .. => h.execRingResume hs
  | .functionLevelReset .. => h.execFunctionLevelReset hs
  | .wordIssue .. => h.execWordIssue hs
  | .districtBarrier .. => h.execDistrictBarrier hs
  | .scrubRead .. => h.execScrubRead hs
  | .stepEnd .. => h.execStepEnd hs
  | .walkKWrite .. => h.execWalkKWrite hs
  | .inboundWrite .. => h.execInboundWrite hs
  | .arrivalTimeout .. => h.execArrivalTimeout hs
  | .relayWriteTimeout .. => h.execRelayWriteTimeout hs
  | .postmarkMark .. => h.execPostmarkMark hs
  | .armBreakOnTag .. => h.execArmBreakOnTag hs
  | .armBreakOnCount .. => h.execArmBreakOnCount hs
  | .disarm .. => h.execDisarm hs
  | .debugRelease .. => h.execDebugRelease hs
  | .debugHoldExpired .. => h.execDebugHoldExpired hs
  | .dbgSelWrite .. => h.execDbgSelWrite hs
  | .sessionOpen .. => h.execSessionOpen hs
  | .sessionAdmit .. => h.execSessionAdmit hs
  | .sessionCancel .. => h.execSessionCancel hs
  | .sessionClose .. => h.execSessionClose hs
  | .sessionStatus .. => h.execSessionStatus hs
  | .passStart .. => h.execPassStart hs
  | .passComplete .. => h.execPassComplete hs
  | .psLoad .. => h.execPsLoad hs
  | .psBind .. => h.execPsBind hs
  | .psBindApply .. => h.execPsBindApply hs
  | .slotRetire .. => h.execSlotRetire hs
  | .csi2Packet .. => h.execCsi2Packet hs
  | .frameFinish .. => h.execFrameFinish hs
  | .camSourceLost .. => h.execCamSourceLost hs
  | .chanEnable .. => h.execChanEnable hs
  | .ispStreamEnable .. => h.execIspStreamEnable hs
  | .decodeAccessUnit .. => h.execDecodeAccessUnit hs
  | .encodePicture .. => h.execEncodePicture hs
  | .encodeEnable .. => h.execEncodeEnable hs
  | .jpegJob .. => h.execJpegJob hs
  | .jpegJobDone .. => h.execJpegJobDone hs
  | .adcConversion .. => h.execAdcConversion hs
  | .sampleAvailable .. => h.execSampleAvailable hs
  | .settleEnd .. => h.execSettleEnd hs
  | .fabricBlock .. => h.execFabricBlock hs
  | .expressUnitStart .. => h.execExpressUnitStart hs
  | .expressUnitEnd .. => h.execExpressUnitEnd hs
  | .spillDrop .. => h.execSpillDrop hs
  | .expressRunComplete .. => h.execExpressRunComplete hs
  | .cportFrameReceive .. => h.execCportFrameReceive hs
  | .req .. => h.execReq hs
  | .cxSnapshot .. => h.execCxSnapshot hs
  | .rspSend .. => h.execRspSend hs
  | .svcIdentify .. => h.execSvcIdentify hs
  | .svcCounters .. => h.execSvcCounters hs
  | .cportCxSilent .. => h.execCportCxSilent hs
  | .guardCut .. => h.execGuardCut hs
  | .guardSwitchApply .. => h.execGuardSwitchApply hs
  | .guardDisagree .. => h.execGuardDisagree hs
  | .ptpFrameSend .. => h.execPtpFrameSend hs
  | .cportLink .. => h.execCportLink hs
  | .memRequest .. => h.execMemRequest hs
  | .memBurstIssue .. => h.execMemBurstIssue hs
  | .memPromote .. => h.execMemPromote hs
  | .memReadData .. => h.execMemReadData hs
  | .ddr5Alert .. => h.execDdr5Alert hs
  | .refreshDebt .. => h.execRefreshDebt hs
  | .trainingAction .. => h.execTrainingAction hs
  | .ddr5Bringup .. => h.execDdr5Bringup hs
  | .ddr5BringupDone .. => h.execDdr5BringupDone hs
  | .fabricLoad .. => h.execFabricLoad hs
  | .fabricLoadBegin .. => h.execFabricLoadBegin hs
  | .fabricRelease .. => h.execFabricRelease hs
  | .readFrame .. => h.execReadFrame hs
  | .clear .. => h.execClear hs
  | .scrubPass .. => h.execScrubPass hs
  | .fabricScrubRead .. => h.execFabricScrubRead hs
  | .regionFault .. => h.execRegionFault hs
  | .regionHoldWrite .. => h.execRegionHoldWrite hs
  | .fabricMeshRequest .. => h.execFabricMeshRequest hs
  | .fabricRegAccess .. => h.execFabricRegAccess hs
  | .fabricRegTimeout .. => h.execFabricRegTimeout hs
  | .clkCfgWrite .. => h.execClkCfgWrite hs
  | .domReqOn .. => h.execDomReqOn hs
  | .domReqIdle .. => h.execDomReqIdle hs
  | .domReqRetain .. => h.execDomReqRetain hs
  | .domReqOff .. => h.execDomReqOff hs
  | .domReqCancel .. => h.execDomReqCancel hs
  | .devReqRun .. => h.execDevReqRun hs
  | .devReqWatch .. => h.execDevReqWatch hs
  | .devReqSleep .. => h.execDevReqSleep hs
  | .devReqHalt .. => h.execDevReqHalt hs
  | .devReqCancel .. => h.execDevReqCancel hs
  | .agentAnswer .. => h.execAgentAnswer hs
  | .hostAckAgree .. => h.execHostAckAgree hs
  | .hostAckRefuse .. => h.execHostAckRefuse hs
  | .prepTimeout .. => h.execPrepTimeout hs
  | .transitionStep .. => h.execTransitionStep hs
  | .idleEntry .. => h.execIdleEntry hs
  | .idleWake .. => h.execIdleWake hs
  | .wakeEvent .. => h.execWakeEvent hs
  | .padRelease .. => h.execPadRelease hs
  | .secHoldWrite .. => h.execSecHoldWrite hs
  | .avsAck .. => h.execAvsAck hs
  | .avsSettle .. => h.execAvsSettle hs
  | .avsTimeout .. => h.execAvsTimeout hs
  | .opChange .. => h.execOpChange hs
  | .monitorSample .. => h.execMonitorSample hs
  | .hxpTempRead .. => h.execHxpTempRead hs
  | .trimUpdate .. => h.execTrimUpdate hs
  | .governorDecision .. => h.execGovernorDecision hs
  | .droopTrigger .. => h.execDroopTrigger hs
  | .droopRestore .. => h.execDroopRestore hs
  | .droopRelease .. => h.execDroopRelease hs
  | .throttleStep .. => h.execThrottleStep hs
  | .throttleRestore .. => h.execThrottleRestore hs
  | .secureStart .. => h.execSecureStart hs
  | .mbGo .. => h.execMbGo hs
  | .getInfo .. => h.execGetInfo hs
  | .quote .. => h.execQuote hs
  | .getCert .. => h.execGetCert hs
  | .readLog .. => h.execReadLog hs
  | .extend .. => h.execExtend hs
  | .verifyImage .. => h.execVerifyImage hs
  | .raiseCounter .. => h.execRaiseCounter hs
  | .confirmSlot .. => h.execConfirmSlot hs
  | .runtimeUpdate .. => h.execRuntimeUpdate hs
  | .norRead .. => h.execNorRead hs
  | .norErase .. => h.execNorErase hs
  | .norProgram .. => h.execNorProgram hs
  | .guardWrite .. => h.execGuardWrite hs
  | .guardSwitch .. => h.execGuardSwitch hs
  | .guardArm .. => h.execGuardArm hs
  | .keyInstall .. => h.execKeyInstall hs
  | .keyRevoke .. => h.execKeyRevoke hs
  | .fabricApprove .. => h.execFabricApprove hs
  | .ownerEnroll .. => h.execOwnerEnroll hs
  | .revokeVendorKey .. => h.execRevokeVendorKey hs
  | .debugUnlock .. => h.execDebugUnlock hs
  | .lifecycleReturn .. => h.execLifecycleReturn hs
  | .thermalNotifyAck .. => h.execThermalNotifyAck hs
  | .thermalNotifyTimeout .. => h.execThermalNotifyTimeout hs
  | .fwLoadProcessor .. => h.execFwLoadProcessor hs
  | .fwRestartPostmaster .. => h.execFwRestartPostmaster hs
  | .fwLoadStore .. => h.execFwLoadStore hs
  | .fwReady .. => h.execFwReady hs
  | .fwStartFail .. => h.execFwStartFail hs
  | .procHalt .. => h.execProcHalt hs
  | .wdogKick .. => h.execWdogKick hs
  | .fwWatchdog .. => h.execFwWatchdog hs
  | .ledgerEntry .. => h.execLedgerEntry hs
  | .ledgerTailWrite .. => h.execLedgerTailWrite hs
  | .ack .. => h.execAck hs
  | .inject .. => h.execInject hs
  | .safeRequest .. => h.execSafeRequest hs
  | .safeNow .. => h.execSafeNow hs
  | .safeStateReached .. => h.execSafeStateReached hs
  | .safeExit .. => h.execSafeExit hs
  | .safeExitApply .. => h.execSafeExitApply hs
  | .clockMonitorWindow .. => h.execClockMonitorWindow hs
  | .bar4Access .. => h.execBar4Access hs
  | .hostWake .. => h.execHostWake hs
  | .perstAssert .. => h.execPerstAssert hs
  | .perstDeassert .. => h.execPerstDeassert hs
  | .pcieError .. => h.execPcieError hs
  | .pcieLinkDown .. => h.execPcieLinkDown hs
  | .plantFrameReceive .. => h.execPlantFrameReceive hs
  | .plantFrameTransmit .. => h.execPlantFrameTransmit hs
  | .qTailWrite .. => h.execQTailWrite hs
  | .plantLink .. => h.execPlantLink hs
  | .relayEnable .. => h.execRelayEnable hs
  | .relayTrained .. => h.execRelayTrained hs
  | .relayRetrain .. => h.execRelayRetrain hs
  | .write .. => h.execWrite hs
  | .wack .. => h.execWack hs
  | .wnak .. => h.execWnak hs
  | .signalPacket .. => h.execSignalPacket hs
  | .sack .. => h.execSack hs
  | .srefuse .. => h.execSrefuse hs
  | .lack .. => h.execLack hs
  | .lnak .. => h.execLnak hs
  | .powerOn .. => h.execPowerOn hs
  | .railFail .. => h.execRailFail hs
  | .brownOut .. => h.execBrownOut hs
  | .sysResetN .. => h.execSysResetN hs
  | .vinOvervoltage .. => h.execVinOvervoltage hs
  | .auxOverload .. => h.execAuxOverload hs
  | .resetPor .. => h.execResetPor hs
  | .resetWatch .. => h.execResetWatch hs
  | .resetSpine .. => h.execResetSpine hs
  | .resetHost .. => h.execResetHost hs
  | .lpTrainingDone .. => h.execLpTrainingDone hs
  | .recoverWord .. => h.execRecoverWord hs
  | .recoverLast .. => h.execRecoverLast hs
  | .lowHalfRead .. => h.execLowHalfRead hs
  | .sysResetNRise .. => h.execSysResetNRise hs
  | .pcieLinkUp .. => h.execPcieLinkUp hs
  | .hxpStatusAlert .. => h.execHxpStatusAlert hs
  | .relayLinkDown .. => h.execRelayLinkDown hs
  | .preemptVerify .. => h.execPreemptVerify hs
  | .tempStateChange .. => h.execTempStateChange hs

end StepClosed

/-- The canonical form is kept by every elementary update and by the cut of power. -/
theorem stepClosed_canonical : StepClosed Safety.Canonical where
  toClosed := closed_canonical
  powerCut _ hs := ⟨SMap.wf_nil _, hs.2.1, SMap.wf_filter _ _ _ hs.2.2⟩

/-- Settles O4, by what every command keeps: each operation of the model is built from elementary updates, and those keep the canonical form. -/
theorem stepKeepsCanonicalForm : Obligations.StepKeepsCanonicalForm := by
  intro s t hs ht
  unfold step at ht
  split at ht
  · cases ht
    exact hs
  · next c rest _ =>
    have hexec := stepClosed_canonical.exec (s := { s with pending := rest }) hs c
    rw [ht] at hexec
    exact hexec

end Sys2Proof.Machine
end

section
/-! SUPPORT. What a report of any class but FATAL shows in ERROR.STATUS, and reads of registers past a report and past the instant of a command. -/

namespace Sys2Proof.Machine
open Reg

/-- A field outside the ERROR block and SEC_NOTIFY reads the same after a report. -/
theorem State.get_report (s : State) (e : Err) (g : Fld) (hn : g.reg ≠ SECURE_SEC_NOTIFY) (hr : g.reg < 0xD00000 ∨ 0xE00000 ≤ g.reg) :
    (s.report e).get g = s.get g := by
  simp only [State.get, State.rd_report s e _ hn hr]

/-- A report of a class below FATAL sets the status bits of its class, and the record that it writes spares them. -/
theorem State.get_report_spared (s : State) (e : Err) {c : ErrClass} (hc : errClass e.code = some c) (hf : c ≠ .fatal) {g : Fld} (hg : SparedByRecords g) :
    (s.report e).get g = (s.errStatus c).get g := by
  have hclass : (c == .fatal) = false := by simpa using hf
  unfold State.report
  rw [hc]
  simp only [hclass, Bool.false_eq_true, if_false]
  exact KeepsSpared.errRecord _ _ _ _ _ _ hg

theorem State.on_report_contained (s : State) (e : Err) (hc : errClass e.code = some .contained) : (s.report e).on ERROR_STATUS_CONTAINED = true := by
  rw [State.on, s.get_report_spared e hc (by decide) ⟨by decide, by decide, by decide⟩]
  exact State.on_putB_same s ERROR_STATUS_CONTAINED true rfl (by decide)

theorem State.on_report_degraded (s : State) (e : Err) (hc : errClass e.code = some .degraded) : (s.report e).on ERROR_STATUS_DEGRADED = true := by
  rw [State.on, s.get_report_spared e hc (by decide) ⟨by decide, by decide, by decide⟩]
  exact State.on_putB_same s ERROR_STATUS_DEGRADED true rfl (by decide)

/-- A NOTE that has been reported stays reported. -/
theorem State.on_note_report (s : State) (e : Err) {c : ErrClass} (hc : errClass e.code = some c) (hf : c ≠ .fatal) (hs : s.on ERROR_STATUS_NOTE = true) :
    (s.report e).on ERROR_STATUS_NOTE = true := by
  rw [State.on, s.get_report_spared e hc hf ⟨by decide, by decide, by decide⟩]
  cases c with
  | note => exact State.on_putB_same s ERROR_STATUS_NOTE true rfl (by decide)
  | contained => exact (congrArg (· != 0) (State.get_put_apart s ERROR_STATUS_CONTAINED _ _ (by decide) (by decide) (by decide))).trans hs
  | degraded => exact (congrArg (· != 0) (State.get_put_apart s ERROR_STATUS_DEGRADED _ _ (by decide) (by decide) (by decide))).trans hs
  | fatal => exact absurd rfl hf

theorem errClass_ttInvalid : errClass Code.TT_INVALID = some .note := by decide
theorem errClass_lockLost : errClass Code.ROUND_LOCK_LOST = some .note := by decide
theorem errClass_timeInvalid : errClass Code.ROUND_TIME_INVALID = some .degraded := by decide
theorem errClass_timeRestored : errClass Code.ROUND_TIME_RESTORED = some .note := by decide
theorem errClass_budgetOverrun : errClass Code.BUDGET_OVERRUN = some .note := by decide
theorem errClass_unitHang : errClass Code.UNIT_HANG = some .contained := by decide

theorem State.rd_atNs (s : State) (t o : Nat) (h : o ≠ ROUND_PHASE) : (s.atNs t).rd o = s.rd o :=
  State.rd_wrN_other _ _ _ _ h

theorem State.get_atNs (s : State) (t : Nat) (g : Fld) (h : g.reg ≠ ROUND_PHASE) : (s.atNs t).get g = s.get g := by
  simp only [State.get, State.rd_atNs s t _ h]

theorem State.on_atNs (s : State) (t : Nat) (g : Fld) (h : g.reg ≠ ROUND_PHASE) : (s.atNs t).on g = s.on g := by
  simp only [State.on, State.get_atNs s t g h]

@[simp] theorem State.atNs_mem (s : State) (t : Nat) : (s.atNs t).mem = s.mem := rfl
@[simp] theorem State.atNs_rnd (s : State) (t : Nat) : (s.atNs t).rnd = { s.rnd with ns := min t 999 } := rfl

@[simp] theorem State.unitOn_atNs (s : State) (t i : Nat) : (s.atNs t).unitOn i = s.unitOn i := rfl

@[simp] theorem State.round_atNs (s : State) (t : Nat) : (s.atNs t).round = s.round :=
  congrArg BitVec.toNat (State.rd_atNs s t ROUND_COUNT (by decide))

/-- A register with a row of its own takes its write where the write lands. -/
theorem State.landing_of_lands (s : State) (q : Req) (reg : Nat) (f : State → State) (h : Safety.Lands q reg s) : s.landing q reg f = f s := by
  obtain ⟨hpath, hhold, hup⟩ := h
  simp only [State.landing, hpath, if_true, State.dropHold_none s q _ hhold, hup, Bool.false_eq_true, if_false]

end Sys2Proof.Machine
end

section
/-! SUPPORT. What the tick generator's lock operations change (Round §1): TIME_VALID, the entry to a lock state, and what both leave alone. -/

namespace Sys2Proof.Machine
open Reg

/-! ### What every lock operation leaves alone -/

/-- The registers that the lock works on: PHASE, STATUS and OFFSET of ROUND, and those that a report changes. -/
def tickReg (o : Nat) : Bool :=
  [ROUND_PHASE, ROUND_STATUS, ROUND_OFFSET, SECURE_SEC_NOTIFY].contains o || (decide (0xD00000 ≤ o) && decide (o < 0xE00000))

/-- `t` is `s` but for the tick generator, what a report changes, and the registers that the lock works on. -/
structure Ticked (s t : State) : Prop where
  parts : ∃ regs err irqs n rnd, t = { s with regs := regs, err := err, irqs := irqs, freeCtr := n, rnd := rnd }
  rd : ∀ o, tickReg o = false → t.rd o = s.rd o

namespace Ticked
variable {s t u : State}

theorem mem (h : Ticked s t) : t.mem = s.mem := by obtain ⟨⟨_, _, _, _, _, rfl⟩, _⟩ := h; rfl
theorem rings (h : Ticked s t) : t.rings = s.rings := by obtain ⟨⟨_, _, _, _, _, rfl⟩, _⟩ := h; rfl
theorem txn (h : Ticked s t) : t.txn = s.txn := by obtain ⟨⟨_, _, _, _, _, rfl⟩, _⟩ := h; rfl

theorem get (h : Ticked s t) (g : Fld) (hg : tickReg g.reg = false) : t.get g = s.get g := by
  simp only [State.get, h.rd _ hg]

theorem refl (s : State) : Ticked s s := ⟨⟨s.regs, s.err, s.irqs, s.freeCtr, s.rnd, rfl⟩, fun _ _ => rfl⟩

theorem trans (h : Ticked s t) (k : Ticked t u) : Ticked s u := by
  obtain ⟨⟨_, _, _, _, _, rfl⟩, h⟩ := h
  obtain ⟨⟨r, e, i, n, z, rfl⟩, k⟩ := k
  exact ⟨⟨r, e, i, n, z, rfl⟩, fun o ho => (k o ho).trans (h o ho)⟩

theorem setRnd (s : State) (f : RoundSt → RoundSt) : Ticked s (s.setRnd f) := ⟨⟨s.regs, s.err, s.irqs, s.freeCtr, f s.rnd, rfl⟩, fun _ _ => rfl⟩
theorem useFree (s : State) : Ticked s s.useFree := ⟨⟨s.regs, s.err, s.irqs, s.freeCtr + 1, s.rnd, rfl⟩, fun _ _ => rfl⟩

theorem wr (s : State) (o : Nat) (v : Word) (h : tickReg o = true) : Ticked s (s.wr o v) := by
  refine ⟨⟨_, s.err, s.irqs, s.freeCtr, s.rnd, rfl⟩, fun i hi => State.rd_wr_other s o i v ?_⟩
  rintro rfl
  rw [h] at hi
  exact absurd hi (by decide)

theorem put (s : State) (f : Fld) (n : Nat) (h : tickReg f.reg = true) : Ticked s (s.put f n) := wr s _ _ h
theorem putB (s : State) (f : Fld) (b : Bool) (h : tickReg f.reg = true) : Ticked s (s.putB f b) := wr s _ _ h
theorem wrN (s : State) (o n : Nat) (h : tickReg o = true) : Ticked s (s.wrN o n) := wr s _ _ h

theorem report (s : State) (e : Err) : Ticked s (s.report e) := by
  obtain ⟨⟨r, z, i, n, h⟩, _⟩ := State.report_reported s e
  refine ⟨⟨r, z, i, n, s.rnd, h⟩, fun o ho => ?_⟩
  simp only [tickReg, List.contains_cons, List.contains_nil, Bool.or_false, Bool.or_eq_false_iff, beq_eq_false_iff_ne, Bool.and_eq_false_iff,
    decide_eq_false_iff_not, Nat.not_le, Nat.not_lt] at ho
  obtain ⟨⟨_, _, _, hn⟩, hr⟩ := ho
  exact State.rd_report s e o hn hr

theorem ite (c : Prop) [Decidable c] {a b : State} (ha : Ticked s a) (hb : Ticked s b) : Ticked s (if c then a else b) := by
  split <;> assumption

theorem atNs (s : State) (t : Nat) : Ticked s (s.atNs t) := (setRnd s _).trans (wrN _ _ _ (by decide))

theorem updValid (s : State) : Ticked s s.updValid := by
  have hput : Ticked s (s.putB ROUND_STATUS_TIME_VALID s.validNow) := putB s _ _ (by decide)
  exact ite _ ((hput.trans (setRnd _ _)).trans (report _ _)) (ite _ ((hput.trans (setRnd _ _)).trans (report _ _)) hput)

theorem enterLock (s : State) (k : Nat) : Ticked s (s.enterLock k) := by
  have hput := (put s ROUND_STATUS_LOCK_STATE k (by decide)).trans (setRnd _ fun r => { r with streak := 0 })
  exact (hput.trans (ite _ ((setRnd _ _).trans (report _ _)) (ite _ (setRnd _ _) (refl _)))).trans (updValid _)

end Ticked

/-! ### TIME_VALID (Round R41) -/

/-- What bringing TIME_VALID up to date does to the fields of STATUS and to the tick generator. -/
theorem State.updValid_cases (s : State) : ∃ b, s.updValid.rnd = { s.rnd with invalidReported := b } ∧
    ∀ g, g.reg = ROUND_STATUS → s.updValid.get g = (s.putB ROUND_STATUS_TIME_VALID s.validNow).get g := by
  have hrep : ∀ (u : State) (e : Err) (g : Fld), g.reg = ROUND_STATUS → (u.report e).get g = u.get g := fun u e g hg =>
    State.get_report u e g (by rw [hg]; decide) (by rw [hg]; decide)
  unfold State.updValid
  dsimp only
  split
  · exact ⟨true, State.report_rnd _ _, fun g hg => hrep _ _ g hg⟩
  · split
    · exact ⟨false, State.report_rnd _ _, fun g hg => hrep _ _ g hg⟩
    · exact ⟨s.rnd.invalidReported, rfl, fun _ _ => rfl⟩

/-- TIME_VALID reads as Table 2.2 gives it. -/
theorem State.on_updValid (s : State) : s.updValid.on ROUND_STATUS_TIME_VALID = s.validNow := by
  obtain ⟨_, _, hget⟩ := s.updValid_cases
  rw [State.on, hget _ rfl]
  exact State.on_putB_same s _ _ rfl (by decide)

/-- A field of STATUS beside TIME_VALID is left alone. -/
theorem State.get_updValid (s : State) (g : Fld) (hr : g.reg = ROUND_STATUS) (hg : 6 < g.lo ∨ g.hi < 6) : s.updValid.get g = s.get g := by
  obtain ⟨_, _, hget⟩ := s.updValid_cases
  rw [hget g hr]
  exact State.get_put_apart s ROUND_STATUS_TIME_VALID g _ (by decide) (by decide) hg

@[simp] theorem State.lockState_updValid (s : State) : s.updValid.lockState = s.lockState := s.get_updValid _ rfl (.inr (by decide))

/-- A TIME_VALID that is lost is reported, which sets DEGRADED. -/
theorem State.on_degraded_updValid (s : State) (hw : s.on ROUND_STATUS_TIME_VALID = true) (hv : s.validNow = false) :
    s.updValid.on ERROR_STATUS_DEGRADED = true := by
  simp only [State.updValid, hw, hv, Bool.not_false, Bool.and_self, if_true]
  exact State.on_report_degraded _ _ errClass_timeInvalid

/-- A NOTE that has been reported stays reported. -/
theorem State.on_note_updValid (s : State) (hs : s.on ERROR_STATUS_NOTE = true) : s.updValid.on ERROR_STATUS_NOTE = true := by
  have hput : (s.putB ROUND_STATUS_TIME_VALID s.validNow).on ERROR_STATUS_NOTE = true :=
    (congrArg (· != 0) (State.get_put_other s _ _ _ (by decide))).trans hs
  unfold State.updValid
  dsimp only
  split
  · exact State.on_note_report _ _ errClass_timeInvalid (by decide) hput
  · split
    · exact State.on_note_report _ _ errClass_timeRestored (by decide) hput
    · exact hput

/-! ### Entry to a lock state (Round Table 2.2) -/

/-- The state in which an entry to a lock state brings TIME_VALID up to date. -/
def State.lockEntered (s : State) (k : Nat) : State :=
  let s := (s.put ROUND_STATUS_LOCK_STATE k).setRnd fun r => { r with streak := 0 }
  if k = 3 then
    let ms := s.cfg ⟨ROUND_HOLD_LIMIT, 13, 0⟩
    (s.setRnd fun r => { r with holdFrom := s.now, holdMs := min (max ms 1) 10000 }).report { code := Code.ROUND_LOCK_LOST }
  else if k = 0 then s.setRnd fun r => { r with freqAdj := 0, pairing := none }
  else s

theorem State.enterLock_eq (s : State) (k : Nat) : s.enterLock k = (s.lockEntered k).updValid := rfl

theorem State.get_lockEntered (s : State) (k : Nat) (g : Fld) (hr : g.reg = ROUND_STATUS) :
    (s.lockEntered k).get g = (s.put ROUND_STATUS_LOCK_STATE k).get g := by
  unfold State.lockEntered
  dsimp only
  split
  · exact State.get_report _ _ g (by rw [hr]; decide) (by rw [hr]; decide)
  · split <;> rfl

theorem State.lockState_enterLock (s : State) (k : Nat) (hk : k < 8) : (s.enterLock k).lockState = k := by
  rw [State.enterLock_eq, State.lockState_updValid, State.lockState, State.get_lockEntered s k _ rfl,
    State.get_put_same s ROUND_STATUS_LOCK_STATE k (by decide) (by decide)]
  exact Nat.mod_eq_of_lt hk

theorem State.source_enterLock (s : State) (k : Nat) : (s.enterLock k).get ROUND_STATUS_SOURCE_IN_USE = s.get ROUND_STATUS_SOURCE_IN_USE := by
  rw [State.enterLock_eq, State.get_updValid _ _ rfl (.inr (by decide)), State.get_lockEntered s k _ rfl]
  exact State.get_put_apart s _ _ _ (by decide) (by decide) (by decide)

/-- What an entry to a lock state leaves of the tick generator: the count of near syncs is 0, and the marks of the fix stand. -/
theorem State.enterLock_rnd (s : State) (k : Nat) : (s.enterLock k).rnd.streak = 0 ∧ (s.enterLock k).rnd.fixAwaited = s.rnd.fixAwaited ∧
    (s.enterLock k).rnd.aligned = s.rnd.aligned ∧ (s.enterLock k).rnd.slewing = s.rnd.slewing ∧ (s.enterLock k).rnd.pathDelay = s.rnd.pathDelay := by
  obtain ⟨b, hrnd, _⟩ := (s.lockEntered k).updValid_cases
  rw [State.enterLock_eq, hrnd]
  unfold State.lockEntered
  dsimp only
  split
  · rw [State.report_rnd]; exact ⟨rfl, rfl, rfl, rfl, rfl⟩
  · split <;> exact ⟨rfl, rfl, rfl, rfl, rfl⟩

/-- Entry to HOLDOVER is reported. -/
theorem State.on_note_enterLock_holdover (s : State) : (s.enterLock 3).on ERROR_STATUS_NOTE = true := by
  rw [State.enterLock_eq]
  apply State.on_note_updValid
  rw [State.lockEntered, if_pos rfl]
  exact State.on_report_note _ _ errClass_lockLost

end Sys2Proof.Machine
end

section
/-! SUPPORT. What a sync message passes through (Round R38, R690), and what it leaves alone. -/

namespace Sys2Proof.Machine
open Reg

@[simp] theorem State.lockState_setRnd (s : State) (f : RoundSt → RoundSt) : (s.setRnd f).lockState = s.lockState := rfl

@[simp] theorem State.lockState_atNs (s : State) (t : Nat) : (s.atNs t).lockState = s.lockState := State.get_atNs s t _ (by decide)

/-! ### Sync messages -/

theorem Ticked.enterLocked (s : State) : Ticked s s.enterLocked := (Ticked.enterLock s 2).trans (Ticked.ite _ (Ticked.setRnd _ _) (Ticked.refl _))

theorem Ticked.offsetTests (s : State) (off left : Int) : Ticked s (s.offsetTests off left) := by
  have hself := Ticked.refl s
  exact Ticked.ite _ (Ticked.ite _ (Ticked.ite _ (Ticked.enterLocked s) (Ticked.setRnd s _)) (Ticked.setRnd s _))
    (Ticked.ite _ (Ticked.ite _ hself (Ticked.enterLock s 1)) (Ticked.ite _ (Ticked.ite _ (Ticked.enterLocked s) (Ticked.enterLock s 1)) hself))

theorem Ticked.servo (s : State) : Ticked s s.servo := (Ticked.setRnd s _).trans (Ticked.useFree _)

theorem Ticked.syncOffset (s : State) (m : Sync) : Ticked s (s.syncOffset m) := by
  have hpair : Ticked s (if (s.rnd.fixAwaited && s.rnd.pairing.isNone) = true then s.setRnd fun r => { r with pairing := some ⟨m.net, s.round, m.t⟩ } else s) :=
    Ticked.ite _ (Ticked.setRnd s _) (Ticked.refl s)
  unfold State.syncOffset
  dsimp only
  split
  · exact hpair
  · exact ((hpair.trans (Ticked.wrN _ _ _ (by decide))).trans (Ticked.offsetTests _ _ _)).trans (Ticked.servo _)

/-- A valid sync renews the loss count and, where one has completed, the path delay. -/
def State.syncNoted (s : State) (m : Sync) : State := s.setRnd fun r => { r with
  lastSync := some (s.round, m.t), syncs := r.syncs + 1
  interval := match s.rnd.lastSync with
    | some p => s.at m.t - (p.1 * 1000 + p.2)
    | none => s.rnd.interval
  lossFrom := s.at m.t, pathDelay := r.pathDelay || (m.measured && s.portTransmits m.port) }

/-- A sync in FREE enters ACQUIRE. -/
def State.syncAcquired (s : State) : State := if s.lockState = 0 then (s.enterLock 1).unpair else s

theorem State.syncRx_eq (s : State) (m : Sync) : s.syncRx m =
    if (s.syncNoted m).syncAcquired.rnd.pathDelay then (s.syncNoted m).syncAcquired.syncOffset m else (s.syncNoted m).syncAcquired := rfl

theorem Ticked.syncRx (s : State) (m : Sync) : Ticked s (s.syncRx m) := by
  have hnoted : Ticked s (s.syncNoted m) := Ticked.setRnd s _
  have hacq : Ticked s (s.syncNoted m).syncAcquired :=
    hnoted.trans (Ticked.ite _ ((Ticked.enterLock _ 1).trans (Ticked.setRnd _ _)) (Ticked.refl _))
  rw [State.syncRx_eq]
  exact Ticked.ite _ (hacq.trans (Ticked.syncOffset _ m)) hacq

end Sys2Proof.Machine
end

section
/-! SUPPORT. The lock state after sync messages, loss of sync, the holdover limit, alignment, RELOCK and a change of SOURCE (Round §1). -/

namespace Sys2Proof.Machine
open Reg

/-! ### The tests of an offset -/

@[simp] theorem State.lockState_enterLocked (s : State) : s.enterLocked.lockState = 2 := by
  unfold State.enterLocked
  dsimp only
  split <;> simp [State.lockState_enterLock]

/-- The tests of Table 2.2 in ACQUIRE: only the 16th near sync leaves it. -/
theorem State.offsetTests_acquire (s : State) (off left : Int) (h : s.lockState = 1) :
    (s.offsetTests off left).lockState = if off.natAbs ≤ 50 ∧ 15 ≤ s.rnd.streak then 2 else 1 := by
  by_cases hnear : off.natAbs ≤ 50 <;> by_cases hcount : 15 ≤ s.rnd.streak <;> simp [State.offsetTests, h, hnear, hcount]

/-- The tests of Table 2.2 in LOCKED and HOLDOVER, with no alignment error that remains. -/
theorem State.offsetTests_locked (s : State) (off : Int) (h : s.lockState = 2 ∨ s.lockState = 3) :
    (s.offsetTests off 0).lockState = if off.natAbs ≤ 200 then 2 else 1 := by
  by_cases hnear : off.natAbs ≤ 200 <;> rcases h with h | h <;> simp [State.offsetTests, h, hnear, State.lockState_enterLock]

@[simp] theorem State.lockState_servo (s : State) : s.servo.lockState = s.lockState := rfl

@[simp] theorem State.lockState_wrOffset (s : State) (n : Nat) : (s.wrN ROUND_OFFSET n).lockState = s.lockState :=
  State.get_wrN_other s _ n _ (by decide)

/-- The offset of a sync message from the fixed NET_OFFSET. -/
def State.fixedOffset (s : State) (m : Sync) : Int := s.netRound * 1000 + m.t - m.net

/-- After the fix, with no slewed alignment, a sync message is tested by its offset from NET_OFFSET. -/
theorem State.lockState_syncOffset_fixed (s : State) (m : Sync) (hf : s.rnd.fixAwaited = false) (hs : s.rnd.slewing = false) :
    (s.syncOffset m).lockState = ((s.wrN ROUND_OFFSET (sat32 (s.fixedOffset m))).offsetTests (s.fixedOffset m) 0).lockState := by
  simp only [State.syncOffset, State.roundTime, hf, hs, Bool.false_and, Bool.false_eq_true, if_false]
  rfl

/-- A sync in ACQUIRE that is not the 16th near one stays there. -/
theorem State.lockState_syncOffset_acquire (s : State) (m : Sync) (hl : s.lockState = 1) (hs : s.rnd.streak = 0) : (s.syncOffset m).lockState = 1 := by
  unfold State.syncOffset
  extract_lets paired
  have hpaired : paired.lockState = 1 ∧ paired.rnd.streak = 0 := by
    show (if _ then _ else _ : State).lockState = 1 ∧ (if _ then _ else _ : State).rnd.streak = 0
    split <;> exact ⟨hl, hs⟩
  split
  · exact hpaired.1
  · next rt _ =>
    rw [State.lockState_servo, State.offsetTests_acquire _ _ _ (by simpa using hpaired.1)]
    simp [hpaired.2]

/-- A valid sync in FREE enters ACQUIRE. -/
theorem State.lockState_syncRx_free (s : State) (m : Sync) (hl : s.lockState = 0) : (s.syncRx m).lockState = 1 := by
  have hacq : (s.syncNoted m).syncAcquired = ((s.syncNoted m).enterLock 1).unpair := if_pos hl
  have hone : ((s.syncNoted m).enterLock 1).unpair.lockState = 1 := State.lockState_enterLock _ 1 (by decide)
  rw [State.syncRx_eq, hacq]
  split
  · exact State.lockState_syncOffset_acquire _ m hone (State.enterLock_rnd _ 1).1
  · exact hone

/-- A valid sync outside FREE whose path delay is known goes to the tests. -/
theorem State.syncRx_tested (s : State) (m : Sync) (hl : s.lockState ≠ 0)
    (hp : s.rnd.pathDelay = true ∨ (m.measured = true ∧ s.portTransmits m.port = true)) : s.syncRx m = (s.syncNoted m).syncOffset m := by
  have hacq : (s.syncNoted m).syncAcquired = s.syncNoted m := if_neg hl
  have hdelay : (s.syncNoted m).rnd.pathDelay = true := by
    show (s.rnd.pathDelay || (m.measured && s.portTransmits m.port)) = true
    rcases hp with h | ⟨h, k⟩
    · simp [h]
    · simp [h, k]
  rw [State.syncRx_eq, hacq, if_pos hdelay]

@[simp] theorem State.portTransmits_atNs (s : State) (t p : Nat) : (s.atNs t).portTransmits p = s.portTransmits p := by
  have hne : ∀ k, CPORT_STATUS p = k ∨ CPORT_GUARD_CTRL p = k → k ≠ ROUND_PHASE := by
    intro k hk
    simp only [CPORT_STATUS, CPORT_GUARD_CTRL, ROUND_PHASE] at hk ⊢
    omega
  simp only [State.portTransmits, State.on_atNs s t (CPORT_STATUS_LINK p) (hne _ (.inl rfl)), State.on_atNs s t (CPORT_GUARD_CTRL_ARMED p) (hne _ (.inr rfl)),
    State.on_atNs s t (CPORT_GUARD_CTRL_SILENT p) (hne _ (.inr rfl))]

theorem execSyncReceived_valid (m : Sync) (s : State) (h : s.syncValid m = true) : exec (.syncReceived m) s = .next ((s.atNs m.t).syncRx m) := by
  show execSyncReceived m s = _
  rw [execSyncReceived, if_pos h]

/-- Settles O11: the sync is noted, enters ACQUIRE from FREE, and is put to the tests of Table 2.2 by its offset from NET_OFFSET. -/
theorem syncMovesLockState : Obligations.SyncMovesLockState := by
  intro m s
  refine ⟨fun h => ?_, fun h => ?_⟩
  · show execSyncReceived m s = _
    rw [execSyncReceived, h]
    rfl
  have hticked : Ticked s ((s.atNs m.t).syncRx m) := (Ticked.atNs s m.t).trans (Ticked.syncRx _ m)
  refine ⟨_, execSyncReceived_valid m s h, hticked.mem, hticked.rings, hticked.txn, fun hl => ?_, fun hp hf hs => ?_⟩
  · exact State.lockState_syncRx_free _ m (by rw [State.lockState_atNs, hl])
  extract_lets off
  have htested : s.lockState ≠ 0 → ((s.atNs m.t).syncRx m).lockState =
      ((((s.atNs m.t).syncNoted m).wrN ROUND_OFFSET (sat32 off)).offsetTests off 0).lockState := fun hl => by
    rw [State.syncRx_tested _ m (by rw [State.lockState_atNs]; exact hl) (by simpa using hp)]
    exact State.lockState_syncOffset_fixed _ m hf hs
  have hstate : (((s.atNs m.t).syncNoted m).wrN ROUND_OFFSET (sat32 off)).lockState = s.lockState := by
    rw [State.lockState_wrOffset]
    exact State.lockState_atNs s m.t
  have hacquire : s.lockState = 1 → ((s.atNs m.t).syncRx m).lockState = if off.natAbs ≤ 50 ∧ 15 ≤ s.rnd.streak then 2 else 1 := fun hl => by
    rw [htested (by omega), State.offsetTests_acquire _ _ _ (hstate.trans hl)]
    rfl
  have hlocked : s.lockState = 2 ∨ s.lockState = 3 → ((s.atNs m.t).syncRx m).lockState = if off.natAbs ≤ 200 then 2 else 1 := fun hl => by
    rw [htested (by omega), State.offsetTests_locked _ _ (by rw [hstate]; exact hl)]
  refine ⟨fun hl hn hc => ?_, fun hl hn => ?_, fun hl hn => ?_, fun hl hn => ?_, fun hl hn => ?_, fun hl hn => ?_⟩
  · rw [hacquire hl, if_pos ⟨hn, hc⟩]
  · rw [hacquire hl, if_neg (by omega)]
  · rw [hlocked (.inl hl), if_pos hn]
  · rw [hlocked (.inl hl), if_neg (by omega)]
  · rw [hlocked (.inr hl), if_pos hn]
  · rw [hlocked (.inr hl), if_neg (by omega)]

/-! ### Loss of sync and the holdover limit -/

theorem execSyncLoss_lost (ns : Nat) (s : State) (h : (s.atNs ns).syncLost = true) :
    exec (.syncLoss ns) s = .next (if s.lockState = 1 then (s.atNs ns).enterLock 0 else if s.lockState = 2 then (s.atNs ns).enterLock 3 else s) := by
  show execSyncLoss ns s = _
  simp only [execSyncLoss, h, Bool.true_and, State.lockState_atNs, beq_iff_eq]

/-- Settles O12: both losses are entries to a lock state, and the limit brings TIME_VALID up to date. -/
theorem lossAndHoldoverLimitWithdrawTime : Obligations.LossAndHoldoverLimitWithdrawTime := by
  intro ns s
  have henter : ∀ k, Ticked s ((s.atNs ns).enterLock k) := fun k => (Ticked.atNs s ns).trans (Ticked.enterLock _ k)
  refine ⟨fun h => ⟨fun hl => ⟨(s.atNs ns).enterLock 0, ?_, ?_, (henter 0).mem, (henter 0).rd _ (by decide)⟩,
    fun hl => ⟨(s.atNs ns).enterLock 3, ?_, ?_, ?_, (henter 3).mem, (henter 3).rd _ (by decide)⟩⟩, fun hl hw hv => ?_⟩
  · rw [execSyncLoss_lost ns s h, if_pos hl]
  · exact State.lockState_enterLock _ 0 (by decide)
  · rw [execSyncLoss_lost ns s h, if_neg (by omega), if_pos hl]
  · exact State.lockState_enterLock _ 3 (by decide)
  · exact State.on_note_enterLock_holdover _
  have hupd : Ticked s (s.atNs ns).updValid := (Ticked.atNs s ns).trans (Ticked.updValid _)
  have hwas : (s.atNs ns).on ROUND_STATUS_TIME_VALID = true := (State.on_atNs s ns _ (by decide)).trans hw
  refine ⟨(s.atNs ns).updValid, ?_, ?_, State.on_degraded_updValid _ hwas hv, ?_, hupd.mem, hupd.rd _ (by decide)⟩
  · show execHoldoverExpiry ns s = _
    simp only [execHoldoverExpiry, hl, hv, decide_true, Bool.not_false, Bool.and_self, if_true]
  · rw [State.on_updValid, hv]
  · rw [State.lockState_updValid, State.lockState_atNs, hl]

/-! ### Alignment -/

theorem ofSigned_lt (i : Int) : ofSigned 64 i < 2 ^ 64 := by
  unfold ofSigned
  omega

/-- What a fix of NET_OFFSET does: the register takes the network round less the counter, and the fix is no longer awaited. -/
theorem State.fixOffset_spec (s : State) (n : Nat) : (s.fixOffset n).rdN ROUND_NET_OFFSET = ofSigned 64 ((n : Int) - (s.round : Int)) ∧
    (s.fixOffset n).rnd = { s.rnd with fixAwaited := false, alignDue := none, pairing := none } ∧ (s.fixOffset n).round = s.round ∧
    (s.fixOffset n).mem = s.mem ∧ (s.fixOffset n).lockState = s.lockState := by
  refine ⟨?_, rfl, ?_, rfl, ?_⟩
  · rw [State.fixOffset, State.epochSync, State.rdN_wrN_other _ _ _ _ (by decide), State.setRnd_rdN, State.rdN_wrN_same]
    exact Nat.mod_eq_of_lt (ofSigned_lt _)
  · rw [State.fixOffset, State.epochSync, State.round, State.rdN_wrN_other _ _ _ _ (by decide), State.setRnd_rdN, State.rdN_wrN_other _ _ _ _ (by decide)]
    rfl
  · rw [State.fixOffset, State.epochSync, State.lockState, State.get_wrN_other _ _ _ _ (by decide), State.setRnd_get, State.get_wrN_other _ _ _ _ (by decide)]
    rfl

/-- The fix is made in one step, at the next network microsecond. -/
def State.alignAt (s : State) (net : Nat) : State := (s.fixOffset ((net + 999) / 1000)).setRnd fun r => { r with aligned := true }

/-- The fix is made at the boundary, rounded down, and the alignment slews. -/
def State.slewFrom (s : State) (net : Nat) : State := (s.fixOffset (net / 1000)).setRnd fun r => { r with slewing := true }

/-- An alignment that falls due: in one step with no timetable in force or asked for, and by slewing otherwise. -/
theorem execAlignment_due (net n : Nat) (s : State) (hd : s.rnd.alignDue = some n) (hn : n < s.round) :
    exec (.alignment net) s = .next (if s.on ROUND_CTRL_TT_ENABLE = false ∧ s.ttRun = false then (s.alignAt net).updValid else s.slewFrom net) := by
  have hup : (net + (1000 - net % 1000) % 1000) / 1000 = (net + 999) / 1000 := by omega
  show execAlignment net s = _
  simp [execAlignment, hd, hn, hup, State.alignAt, State.slewFrom]

theorem execAlignmentComplete_eq (s : State) : exec .alignmentComplete s =
    .next (if s.rnd.slewing then (s.setRnd fun r => { r with slewing := false, aligned := true }).updValid else s) := rfl

/-- The end of a slewed alignment. -/
theorem alignmentComplete_spec (s : State) (h : s.rnd.slewing = true) : ∃ t, exec .alignmentComplete s = .next t ∧ t.rnd.slewing = false ∧
    t.rnd.aligned = true ∧ (s.lockState = 2 → t.on ROUND_STATUS_TIME_VALID = true) ∧ t.rd ROUND_NET_OFFSET = s.rd ROUND_NET_OFFSET ∧
    t.lockState = s.lockState ∧ t.mem = s.mem := by
  have hticked := (Ticked.setRnd s fun r => { r with slewing := false, aligned := true }).trans (Ticked.updValid _)
  obtain ⟨_, hrnd, _⟩ := (s.setRnd fun r => { r with slewing := false, aligned := true }).updValid_cases
  refine ⟨_, by rw [execAlignmentComplete_eq, if_pos h], by rw [hrnd]; rfl, by rw [hrnd]; rfl, fun hl => ?_, hticked.rd _ (by decide), ?_, hticked.mem⟩
  · rw [State.on_updValid]
    simp [State.validNow, hl]
  · rw [State.lockState_updValid, State.lockState_setRnd]

/-- Settles O13: both ways of aligning fix NET_OFFSET, and TIME_VALID is brought up to date at once or when the slewing ends. -/
theorem alignmentFixesNetOffset : Obligations.AlignmentFixesNetOffset := by
  refine ⟨fun net n s hd hn => ⟨fun he hr => ?_, fun he => ?_⟩, fun s => ⟨fun h => ?_, alignmentComplete_spec s⟩⟩
  · obtain ⟨hoff, hrnd, hround, hmem, _⟩ := s.fixOffset_spec ((net + 999) / 1000)
    have hticked := Ticked.updValid (s.alignAt net)
    obtain ⟨_, hupd, _⟩ := (s.alignAt net).updValid_cases
    refine ⟨(s.alignAt net).updValid, by rw [execAlignment_due net n s hd hn, if_pos ⟨he, hr⟩], ?_, by rw [hupd]; rfl, ?_, ?_, hticked.mem.trans hmem⟩
    · rw [State.rdN, hticked.rd _ (by decide)]
      exact hoff
    · rw [hupd, State.alignAt, State.setRnd_rnd, hrnd]
    · rw [State.round, State.rdN, hticked.rd _ (by decide)]
      exact hround
  · obtain ⟨hoff, hrnd, hround, hmem, hlock⟩ := s.fixOffset_spec (net / 1000)
    have hslew : ¬(s.on ROUND_CTRL_TT_ENABLE = false ∧ s.ttRun = false) := by
      rintro ⟨h, k⟩
      simp [h, k] at he
    refine ⟨s.slewFrom net, by rw [execAlignment_due net n s hd hn, if_neg hslew], hoff, rfl, ?_, hround, hmem, fun hl => ?_⟩
    · rw [State.slewFrom, State.setRnd_rnd, hrnd]
    · obtain ⟨u, hu, hsl, _, hvalid, hnet, _, humem⟩ := alignmentComplete_spec (s.slewFrom net) rfl
      exact ⟨u, hu, hvalid (hlock.trans hl), hsl, hnet, humem⟩
  · rw [execAlignmentComplete_eq, h]
    rfl

/-! ### RELOCK and SOURCE -/

theorem execRelock_lands (q : Req) (ns : Nat) (s : State) (h : Safety.Lands q ROUND_SYNC_CTRL s) : exec (.relock ⟨q, ns⟩) s = .next (s.atNs ns).relock :=
  congrArg Host.Outcome.next (s.landing_of_lands q _ _ h)

theorem execSyncSourceWrite_lands (q : Req) (src ns : Nat) (s : State) (h : Safety.Lands q ROUND_SYNC_CTRL s) :
    exec (.syncSourceWrite ⟨q, src⟩ ns) s = .next ((s.atNs ns).setSource src) :=
  congrArg Host.Outcome.next (s.landing_of_lands q _ _ h)

/-- A timetable is in force or asked for. -/
def State.ttWanted (s : State) : Bool := s.on ROUND_CTRL_TT_ENABLE || s.ttRun

@[simp] theorem State.ttWanted_atNs (s : State) (t : Nat) : (s.atNs t).ttWanted = s.ttWanted := by
  simp only [State.ttWanted, State.ttRun, State.on_atNs s t _ (show ROUND_CTRL_TT_ENABLE.reg ≠ ROUND_PHASE by decide),
    State.on_atNs s t _ (show ROUND_STATUS_TT_RUN.reg ≠ ROUND_PHASE by decide)]

/-- The marks that RELOCK leaves for a new fix. -/
def State.relockMarked (s : State) : State := s.setRnd fun r =>
  { r with fixAwaited := true, alignDue := none, slewing := false, aligned := false, pairing := none, lossFrom := s.now }

theorem State.relock_eq (s : State) : s.relock = if s.ttWanted then s.report { code := Code.TT_INVALID } else s.relockMarked.enterLock 1 := rfl

/-- A new SOURCE is in use, and what the syncs of the old port gave is forgotten. -/
def State.sourceChanged (s : State) (src : Nat) : State :=
  let s := s.put ROUND_SYNC_CTRL_SOURCE (src % 4)
  (s.put ROUND_STATUS_SOURCE_IN_USE (sourceOf src)).setRnd fun r =>
    { r with lastSync := none, syncs := 0, pathDelay := false, interval := 1000000000, lossFrom := s.now, streak := 0, pairing := none }

theorem sourceOf_lt (src : Nat) : sourceOf src < 4 := by
  unfold sourceOf
  split <;> omega

theorem State.sourceChanged_spec (s : State) (src : Nat) : (s.sourceChanged src).lockState = s.lockState ∧
    (s.sourceChanged src).get ROUND_STATUS_SOURCE_IN_USE = sourceOf src ∧ (s.sourceChanged src).get ROUND_SYNC_CTRL_SOURCE = src % 4 ∧
    (s.sourceChanged src).rd ROUND_NET_OFFSET = s.rd ROUND_NET_OFFSET ∧ (s.sourceChanged src).mem = s.mem := by
  refine ⟨?_, ?_, ?_, ?_, rfl⟩ <;> rw [State.sourceChanged]
  · rw [State.lockState_setRnd, State.lockState, State.get_put_apart _ _ _ _ (by decide) (by decide) (by decide), State.get_put_other _ _ _ _ (by decide)]
    rfl
  · rw [State.setRnd_get, State.get_put_same _ _ _ (by decide) (by decide)]
    exact Nat.mod_eq_of_lt (sourceOf_lt src)
  · rw [State.setRnd_get, State.get_put_other _ _ _ _ (by decide), State.get_put_same _ _ _ (by decide) (by decide)]
    exact Nat.mod_mod src 4
  · rw [State.setRnd_rd, State.rd_put_other _ _ _ _ (by decide), State.rd_put_other _ _ _ _ (by decide)]

/-- What a write of SOURCE that changes it does: it enters the lock state of Table 2.2, or none. -/
theorem State.setSource_changed (s : State) (src : Nat) (h : sourceOf src ≠ s.get ROUND_STATUS_SOURCE_IN_USE) : s.setSource src =
    if sourceOf src = 0 then (if s.lockState = 0 then s.sourceChanged src else (s.sourceChanged src).enterLock 0)
    else if s.lockState = 2 ∧ s.get ROUND_STATUS_SOURCE_IN_USE ≠ 0 then (s.sourceChanged src).enterLock 3 else s.sourceChanged src := by
  have hlock := (s.sourceChanged_spec src).1
  unfold State.setSource
  extract_lets old k s₁ s₂
  have hs₂ : s₂ = s.sourceChanged src := rfl
  rw [if_neg (show k ≠ old from h), hs₂, hlock]
  simp [k, old]

/-- Settles O14: RELOCK marks a new fix and enters ACQUIRE; a change of SOURCE forgets the syncs and enters FREE or HOLDOVER where Table 2.2 says so. -/
theorem relockAndSourceMoveLockState : Obligations.RelockAndSourceMoveLockState := by
  intro q src ns s hlands
  have hat : Ticked s (s.atNs ns) := Ticked.atNs s ns
  refine ⟨fun he hr => ?_, fun he => ?_, fun hsrc => ?_⟩
  · have hmarked : Ticked s ((s.atNs ns).relockMarked.enterLock 1) := (hat.trans (Ticked.setRnd _ _)).trans (Ticked.enterLock _ 1)
    obtain ⟨_, hfix, haligned, _, _⟩ := (s.atNs ns).relockMarked.enterLock_rnd 1
    refine ⟨_, ?_, State.lockState_enterLock _ 1 (by decide), hfix, haligned, hmarked.rd _ (by decide), hmarked.mem⟩
    rw [execRelock_lands q ns s hlands, State.relock_eq, State.ttWanted_atNs, State.ttWanted, he, hr]
    rfl
  · have hrep : Ticked s ((s.atNs ns).report { code := Code.TT_INVALID }) := hat.trans (Ticked.report _ _)
    have hwanted : s.ttWanted = true := by simpa [State.ttWanted] using he
    refine ⟨_, ?_, State.on_report_note _ _ errClass_ttInvalid, ?_, ?_, hrep.rd _ (by decide), hrep.mem⟩
    · rw [execRelock_lands q ns s hlands, State.relock_eq, State.ttWanted_atNs, if_pos hwanted]
    · exact (State.get_report _ _ _ (by decide) (by decide)).trans (State.lockState_atNs s ns)
    · rw [State.report_rnd]; rfl
  · have hold : (s.atNs ns).get ROUND_STATUS_SOURCE_IN_USE = s.get ROUND_STATUS_SOURCE_IN_USE := State.get_atNs s ns _ (by decide)
    obtain ⟨hlock, huse, hctrl, hnet, hmem⟩ := (s.atNs ns).sourceChanged_spec src
    generalize hu : (s.atNs ns).sourceChanged src = u at *
    rw [State.lockState_atNs] at hlock
    rw [hat.rd _ (by decide)] at hnet
    have hfacts : ∀ t, Ticked u t → t.get ROUND_SYNC_CTRL_SOURCE = src % 4 ∧ t.rd ROUND_NET_OFFSET = s.rd ROUND_NET_OFFSET ∧ t.mem = s.mem :=
      fun t ht => ⟨(ht.get _ (by decide)).trans hctrl, (ht.rd _ (by decide)).trans hnet, ht.mem.trans hmem⟩
    have henter : ∀ k, (u.enterLock k).get ROUND_STATUS_SOURCE_IN_USE = sourceOf src := fun k => (u.source_enterLock k).trans huse
    have hexec : exec (.syncSourceWrite ⟨q, src⟩ ns) s = .next
        (if sourceOf src = 0 then (if s.lockState = 0 then u else u.enterLock 0)
        else if s.lockState = 2 ∧ s.get ROUND_STATUS_SOURCE_IN_USE ≠ 0 then u.enterLock 3 else u) := by
      rw [execSyncSourceWrite_lands q src ns s hlands, State.setSource_changed _ _ (by rw [hold]; exact hsrc), hold, State.lockState_atNs, hu]
    have hstreak : u.rnd.streak = 0 := by rw [← hu]; rfl
    refine ⟨_, hexec, ?_⟩
    split_ifs with hk hl hl
    · obtain ⟨h1, h2, h3⟩ := hfacts u (Ticked.refl u)
      exact ⟨huse, h1, h2, h3, fun _ => hlock.trans hl, fun h => absurd hk h, fun h => absurd hk h⟩
    · obtain ⟨h1, h2, h3⟩ := hfacts _ (Ticked.enterLock u 0)
      exact ⟨henter 0, h1, h2, h3, fun _ => State.lockState_enterLock u 0 (by decide), fun h => absurd hk h, fun h => absurd hk h⟩
    · obtain ⟨h1, h2, h3⟩ := hfacts _ (Ticked.enterLock u 3)
      exact ⟨henter 3, h1, h2, h3, fun h => absurd h hk, fun _ _ _ => State.lockState_enterLock u 3 (by decide), fun _ h1 => by omega⟩
    · obtain ⟨h1, h2, h3⟩ := hfacts u (Ticked.refl u)
      exact ⟨huse, h1, h2, h3, fun h => absurd h hk, fun _ h2 h3 => absurd ⟨h2, h3⟩ hl, fun _ h1 => ⟨hlock.trans h1, hstreak⟩⟩

end Sys2Proof.Machine
end

section
/-! SUPPORT. What DRAM traffic leaves alone (Round R61): it changes the memory controller's account and the byte counters of the classes. -/

namespace Sys2Proof.Machine
open Reg

/-- `t` is `s` but for the memory controller and registers from MEMCTL.CLASS_BYTES on. -/
structure Spent (s t : State) : Prop where
  parts : ∃ regs memc, t = { s with regs := regs, memc := memc }
  rd : ∀ o, o < MEMCTL_CLASS_BYTES 0 → t.rd o = s.rd o

namespace Spent
variable {s t u : State}

theorem mem (h : Spent s t) : t.mem = s.mem := by obtain ⟨⟨_, _, rfl⟩, _⟩ := h; rfl
theorem rnd (h : Spent s t) : t.rnd = s.rnd := by obtain ⟨⟨_, _, rfl⟩, _⟩ := h; rfl

theorem get (h : Spent s t) (g : Fld) (hg : g.reg < MEMCTL_CLASS_BYTES 0) : t.get g = s.get g := by
  simp only [State.get, h.rd _ hg]

theorem on (h : Spent s t) (g : Fld) (hg : g.reg < MEMCTL_CLASS_BYTES 0) : t.on g = s.on g := by
  simp only [State.on, h.get g hg]

theorem refl (s : State) : Spent s s := ⟨⟨s.regs, s.memc, rfl⟩, fun _ _ => rfl⟩

theorem trans (h : Spent s t) (k : Spent t u) : Spent s u := by
  obtain ⟨⟨_, _, rfl⟩, h⟩ := h
  obtain ⟨⟨r, m, rfl⟩, k⟩ := k
  exact ⟨⟨r, m, rfl⟩, fun o ho => (k o ho).trans (h o ho)⟩

theorem setMemc (s : State) (f : MemSt → MemSt) : Spent s (s.setMemc f) := ⟨⟨s.regs, f s.memc, rfl⟩, fun _ _ => rfl⟩

theorem memSpend (s : State) (pays k units bytes : Nat) : Spent s (s.memSpend pays k units bytes) := by
  refine (setMemc s _).trans ⟨⟨_, _, rfl⟩, fun o ho => State.rd_wrN_other _ _ _ _ ?_⟩
  simp only [MEMCTL_CLASS_BYTES] at ho ⊢
  omega

theorem serveMove (s : State) (m : MemMove) : Spent s (s.serveMove m).1 := by
  unfold State.serveMove
  dsimp only
  split
  · exact memSpend ..
  · split
    · exact memSpend ..
    · split
      · exact refl s
      · exact memSpend ..

theorem serveClass (s : State) (k : Nat) (l : List MemMove) : Spent s (s.serveClass k l).1 := by
  induction l generalizing s with
  | nil => exact refl s
  | cons m l ih =>
    rw [State.serveClass]
    split
    · exact (serveMove s m).trans (ih _)
    · exact ih s

theorem serveMoves (s : State) : Spent s s.serveMoves := by
  have hstep : ∀ (u : State) (k : Nat), Spent u ((u.serveClass k u.memc.moves).1.setMemc fun m => { m with moves := (u.serveClass k u.memc.moves).2 }) :=
    fun u k => (serveClass u k _).trans (setMemc _ _)
  exact (((hstep _ 0).trans (hstep _ 1)).trans (hstep _ 2)).trans (hstep _ 3)

theorem traffic (s : State) (k : Nat) (who : Option (Nat × Nat)) (a n : Nat) : Spent s (s.traffic k who a n) := by
  unfold State.traffic
  split
  · exact (setMemc s _).trans (serveMoves _)
  · exact refl s

end Spent

end Sys2Proof.Machine
end

section
/-! SUPPORT. A bank of the timetable as it is loaded, verified and asked for (Round R67 to R70). -/

namespace Sys2Proof.Machine
open Reg

/-! ### Fields that a write of another register leaves alone -/

theorem State.on_putB_other (s : State) (f g : Fld) (b : Bool) (h : g.reg ≠ f.reg) : (s.putB f b).on g = s.on g := by
  rw [State.on, State.putB, State.get_put_other s f g _ h, ← State.on]

theorem State.on_putB_apart (s : State) (f g : Fld) (b : Bool) (hl : f.lo ≤ f.hi) (hh : f.hi < 64) (h : f.hi < g.lo ∨ g.hi < f.lo) :
    (s.putB f b).on g = s.on g := by
  rw [State.on, State.putB, State.get_put_apart s f g _ hl hh h, ← State.on]

theorem State.on_put_other (s : State) (f g : Fld) (n : Nat) (h : g.reg ≠ f.reg) : (s.put f n).on g = s.on g := by
  rw [State.on, State.get_put_other s f g _ h, ← State.on]

theorem State.act_put_other (s : State) (f : Fld) (n o : Nat) (h : o ≠ f.reg) : (s.put f n).act o = s.act o := by
  simp only [State.act, State.put_acting, State.rd_put_other s f n o h]

/-! ### The load -/

/-- LOAD_CTRL shows what a load was asked for. -/
def State.loadAsked (s : State) (bank entries : Bool) (first : Nat) : State :=
  ((s.putB ROUND_LOAD_CTRL_BANK bank).putB ROUND_LOAD_CTRL_TARGET entries).put ROUND_LOAD_CTRL_FIRST first

/-- A load is in progress: BUSY is set, and its bank is not verified any more. -/
def State.loadBegun (s : State) (l : TtLoad) : State :=
  (((s.putB ROUND_LOAD_CTRL_START true).putB ROUND_LOAD_STATUS_BUSY true).putB (verifiedFld l.bank) false).setRnd fun r => { r with load := some l }

theorem State.rd_loadAsked (s : State) (bank entries : Bool) (first o : Nat) (h : o ≠ ROUND_LOAD_CTRL) : (s.loadAsked bank entries first).rd o = s.rd o := by
  rw [State.loadAsked, State.rd_put_other _ _ _ _ h, State.putB, State.rd_put_other _ _ _ _ h, State.putB, State.rd_put_other _ _ _ _ h]

theorem State.on_loadAsked (s : State) (bank entries : Bool) (first : Nat) (g : Fld) (h : g.reg ≠ ROUND_LOAD_CTRL) :
    (s.loadAsked bank entries first).on g = s.on g := by
  simp only [State.on, State.get, s.rd_loadAsked bank entries first _ h]

theorem State.act_loadAsked (s : State) (bank entries : Bool) (first o : Nat) (h : o ≠ ROUND_LOAD_CTRL) : (s.loadAsked bank entries first).act o = s.act o := by
  rw [State.loadAsked, State.act_put_other _ _ _ _ h, State.putB, State.act_put_other _ _ _ _ h, State.putB, State.act_put_other _ _ _ _ h]

/-- The load that a write of START asks for. -/
def State.loadOf (s : State) (bank entries : Bool) (first : Nat) : TtLoad :=
  ⟨bank, entries, first, s.cfg ⟨ROUND_LOAD_COUNT, 16, 0⟩, (s.act ROUND_LOAD_SRC).toNat / 64 * 64⟩

theorem State.act_loadStarted (s : State) (b : Bool) (o : Nat) (hc : o ≠ ROUND_LOAD_CTRL) (hs : o ≠ ROUND_LOAD_STATUS) :
    (((s.putB ROUND_LOAD_CTRL_START true).putB ROUND_LOAD_STATUS_BUSY true).putB (verifiedFld b) false).act o = s.act o := by
  rw [State.putB, State.act_put_other _ _ _ _ hs, State.putB, State.act_put_other _ _ _ _ hs, State.putB, State.act_put_other _ _ _ _ hc]

/-- A load that is not refused begins and reads its source at bulk class. -/
theorem State.ttLoad_begins (s : State) (bank entries : Bool) (first : Nat) (hb : s.ttBusy = false)
    (hbank : s.on ROUND_CTRL_TT_ENABLE = false ∨ s.ttBank ≠ (if bank then 1 else 0)) (hn : 0 < s.cfg ⟨ROUND_LOAD_COUNT, 16, 0⟩)
    (hfit : first + s.cfg ⟨ROUND_LOAD_COUNT, 16, 0⟩ ≤ (if entries then 4096 else 65536)) :
    ∃ n, s.ttLoad bank entries first = ((s.loadAsked bank entries first).loadBegun (s.loadOf bank entries first)).traffic 3 (some ttKey)
      (s.loadOf bank entries first).src n := by
  have hcount : (s.loadAsked bank entries first).cfg ⟨ROUND_LOAD_COUNT, 16, 0⟩ = s.cfg ⟨ROUND_LOAD_COUNT, 16, 0⟩ := by
    simp only [State.cfg, s.act_loadAsked bank entries first _ (show ROUND_LOAD_COUNT ≠ ROUND_LOAD_CTRL by decide)]
  have hforce : ((s.loadAsked bank entries first).on ROUND_CTRL_TT_ENABLE && (s.loadAsked bank entries first).ttBank == (if bank then 1 else 0)) = false := by
    rw [s.on_loadAsked bank entries first _ (by decide), State.ttBank, State.get, s.rd_loadAsked bank entries first _ (by decide), ← State.get, ← State.ttBank]
    rcases hbank with h | h <;> simp [h]
  have hrange : ((s.cfg ⟨ROUND_LOAD_COUNT, 16, 0⟩ = 0 || decide ((if entries then 4096 else 65536) < first + s.cfg ⟨ROUND_LOAD_COUNT, 16, 0⟩)) : Bool) = false := by
    simp only [Bool.or_eq_false_iff, decide_eq_false_iff_not]
    omega
  have hsrc := ((s.loadAsked bank entries first).act_loadStarted bank ROUND_LOAD_SRC (by decide) (by decide)).trans
    (s.act_loadAsked bank entries first _ (by decide))
  unfold State.ttLoad
  extract_lets asked n started l
  have hl : l = s.loadOf bank entries first := by
    show (⟨bank, entries, first, n, (started.act ROUND_LOAD_SRC).toNat / 64 * 64⟩ : TtLoad) = _
    rw [State.loadOf, ← hsrc, ← hcount]
    rfl
  have hn' : n = s.cfg ⟨ROUND_LOAD_COUNT, 16, 0⟩ := hcount
  rw [hb, if_neg (by decide), if_neg (by rw [show asked = s.loadAsked bank entries first from rfl, hforce]; decide), hn', if_neg (by rw [hrange]; decide), hl]
  exact ⟨_, rfl⟩

theorem verifiedFld_apart (b : Bool) (g : Fld) (h : 17 < g.lo ∨ g.hi < 16) : (verifiedFld b).hi < g.lo ∨ g.hi < (verifiedFld b).lo := by
  cases b <;> simp only [verifiedFld] <;> simp <;> omega

theorem verifiedFld_bit (b : Bool) : (verifiedFld b).lo = (verifiedFld b).hi ∧ (verifiedFld b).hi < 64 := by
  cases b <;> decide

/-- What shows of a load in progress. -/
theorem State.loadBegun_spec (s : State) (l : TtLoad) : (s.loadBegun l).on ROUND_LOAD_STATUS_BUSY = true ∧ (s.loadBegun l).on (verifiedFld l.bank) = false ∧
    (s.loadBegun l).rnd.load = some l ∧ (s.loadBegun l).ttRun = s.ttRun ∧ (s.loadBegun l).mem = s.mem := by
  obtain ⟨hlo, hhi⟩ := verifiedFld_bit l.bank
  refine ⟨?_, ?_, ?_, ?_, ?_⟩ <;> rw [State.loadBegun]
  · rw [State.setRnd_on, State.on_putB_apart _ _ _ _ (by omega) hhi (verifiedFld_apart _ _ (.inl (by decide))), State.on_putB_same _ _ _ rfl (by decide)]
  · rw [State.setRnd_on, State.on_putB_same _ _ _ hlo hhi]
  · rw [State.setRnd_rnd]
  · rw [State.ttRun, State.setRnd_on, State.on_putB_other _ _ _ _ (by simp only [verifiedFld]; decide), State.on_putB_other _ _ _ _ (by decide),
      State.on_putB_other _ _ _ _ (by decide), ← State.ttRun]
  · rw [State.setRnd_mem, State.putB_mem, State.putB_mem, State.putB_mem]

/-! ### The end of a load -/

theorem execTtLoadDone_waits (s : State) (h : s.memWaits ttKey.1 ttKey.2 = true) : exec .ttLoadDone s = .next s := by
  show execTtLoadDone s = _
  simp only [execTtLoadDone, h, if_true]

/-- A load whose every element can be read. -/
def State.loadEnded (s : State) (l : TtLoad) : State :=
  ((((s.ttCopy l (s.rdMem l.src (l.count * (if l.entries then 64 else 2)))).setRnd fun r => { r with load := none }).putB ROUND_LOAD_CTRL_START false).putB
    ROUND_LOAD_STATUS_BUSY false).putB ROUND_LOAD_STATUS_DONE true

theorem execTtLoadDone_all (s : State) (l : TtLoad) (hl : s.rnd.load = some l) (hw : s.memWaits ttKey.1 ttKey.2 = false) (hr : s.ttReadable l = l.count) :
    exec .ttLoadDone s = .next (s.loadEnded l) := by
  show execTtLoadDone s = _
  simp only [execTtLoadDone, hw, hl, hr, Bool.false_eq_true, if_false, if_true]
  rfl

@[simp] theorem State.ttCopy_rd (s : State) (l : TtLoad) (b : Bytes) (o : Nat) : (s.ttCopy l b).rd o = s.rd o := by
  unfold State.ttCopy
  dsimp only
  split <;> rfl

@[simp] theorem State.ttCopy_on (s : State) (l : TtLoad) (b : Bytes) (g : Fld) : (s.ttCopy l b).on g = s.on g := by
  simp only [State.on, State.get, State.ttCopy_rd]

@[simp] theorem State.ttCopy_mem (s : State) (l : TtLoad) (b : Bytes) : (s.ttCopy l b).mem = s.mem := by
  unfold State.ttCopy
  dsimp only
  split <;> rfl

/-- What a fold of writes at rising keys leaves at one of them. -/
theorem SMap.get_foldl_set (d : Nat → Nat) (m : SMap Nat) (base n : Nat) (f : Nat → Nat) (j : Nat) (h : j < n) :
    SMap.get d ((List.range n).foldl (fun m j => SMap.set d m (base + j) (f j)) m) (base + j) = f j := by
  induction n with
  | zero => omega
  | succ n ih =>
    rw [List.range_succ, List.foldl_append, List.foldl_cons, List.foldl_nil, SMap.get_set]
    split
    · next he => rw [show j = n by omega]
    · exact ih (by omega)

theorem take_readBytes (m : SMap Byte) (a n k : Nat) (h : k ≤ n) : (readBytes m a n).take k = readBytes m a k := by
  induction k generalizing a n with
  | zero => rfl
  | succ k ih =>
    obtain ⟨n, rfl⟩ : ∃ i, n = i + 1 := ⟨n - 1, by omega⟩
    rw [readBytes, readBytes, List.take_succ_cons, ih _ _ (by omega)]

theorem drop_readBytes (m : SMap Byte) (a n i : Nat) : (readBytes m a n).drop i = readBytes m (a + i) (n - i) := by
  induction i generalizing a n with
  | zero => rfl
  | succ i ih =>
    cases n with
    | zero => rw [Nat.zero_sub]; rfl
    | succ n => rw [readBytes, List.drop_succ_cons, ih, Nat.add_sub_add_right, Nat.add_assoc, Nat.add_comm 1]

/-- A field of bytes read is the number at its address. -/
theorem fieldLE_readBytes (m : SMap Byte) (a n off k : Nat) (h : off + k ≤ n) : fieldLE (readBytes m a n) off k = leNat (readBytes m (a + off) k) := by
  rw [fieldLE, drop_readBytes, take_readBytes _ _ _ _ (by omega)]

/-- The elements of an index load stand in the bank from FIRST on. -/
theorem State.ttElem_ttCopy (s : State) (l : TtLoad) (he : l.entries = false) (j : Nat) (hj : j < l.count) :
    (s.ttCopy l (s.rdMem l.src (l.count * 2))).ttElem (if l.bank then 1 else 0) (l.first + j) = leNat (readBytes s.mem (l.src + 2 * j) 2) % 4096 := by
  have hlen : (readBytes s.mem l.src (l.count * 2)).length / 2 = l.count := by
    rw [readBytes_length]
    omega
  rw [State.ttElem, ← Nat.add_assoc, ← fieldLE_readBytes s.mem l.src (l.count * 2) (2 * j) 2 (by omega)]
  simp only [State.ttCopy, he, Bool.false_eq_true, if_false, State.setRnd_rnd, State.rdMem, hlen]
  rw [SMap.get_foldl_set _ _ _ _ _ j hj]

/-- What shows of a load that has ended. -/
theorem State.loadEnded_spec (s : State) (l : TtLoad) : (s.loadEnded l).on ROUND_LOAD_STATUS_DONE = true ∧ (s.loadEnded l).on ROUND_LOAD_STATUS_BUSY = false ∧
    (s.loadEnded l).rnd.load = none ∧ (s.loadEnded l).ttRun = s.ttRun ∧ (s.loadEnded l).mem = s.mem := by
  refine ⟨State.on_putB_same _ _ _ rfl (by decide), ?_, ?_, ?_, ?_⟩ <;> rw [State.loadEnded]
  · rw [State.on_putB_apart _ _ _ _ (by decide) (by decide) (by decide), State.on_putB_same _ _ _ rfl (by decide)]
  · rw [State.putB_rnd, State.putB_rnd, State.putB_rnd, State.setRnd_rnd]
  · rw [State.ttRun, State.on_putB_other _ _ _ _ (by decide), State.on_putB_other _ _ _ _ (by decide), State.on_putB_other _ _ _ _ (by decide),
      State.setRnd_on, State.ttCopy_on, ← State.ttRun]
  · rw [State.putB_mem, State.putB_mem, State.putB_mem, State.setRnd_mem, State.ttCopy_mem]

/-! ### Verification -/

section
variable {s t : State} (hindex : t.rnd.ttIndex = s.rnd.ttIndex) (hentry : t.rnd.ttEntry = s.rnd.ttEntry)

include hindex in
theorem State.ttElem_congr : t.ttElem = s.ttElem := by
  funext b i
  simp only [State.ttElem, hindex]

include hentry in
theorem State.ttByte_congr : t.ttByte = s.ttByte := by
  funext b e k
  simp only [State.ttByte, hentry]

include hindex hentry

theorem State.runOn_congr (b i : Nat) (owner : Option Nat) (fuel j : Nat) : t.runOn b i owner fuel j = s.runOn b i owner fuel j := by
  induction fuel generalizing j with
  | zero => rfl
  | succ fuel ih => simp only [State.runOn, ih, State.ttByte_congr hentry, State.ttElem_congr hindex]

/-- A verification depends on the banks, on DRAM_CAP and on whether a SODIMM is fitted. -/
theorem State.verifyFault_congr (hcap : t.get ROUND_DRAM_CAP_UNITS = s.get ROUND_DRAM_CAP_UNITS)
    (hdx : t.get MEMCTL_DX_STATUS_STATE = s.get MEMCTL_DX_STATUS_STATE) (b : Nat) : t.verifyFault b = s.verifyFault b := by
  have hfault : ∀ e, t.entryFault b e = s.entryFault b e := fun e => by
    simp only [State.entryFault, State.ttByte_congr hentry, State.dxFitted, hcap, hdx]
    rfl
  have hrun : ∀ j, t.runTooLong b j = s.runTooLong b j := fun j => by
    simp only [State.runTooLong, State.runOn_congr hindex hentry, State.ttByte_congr hentry, State.ttElem_congr hindex]
  simp only [State.verifyFault, State.anyCont, hentry, hfault, hrun]
  rfl

end

theorem State.ttIndex_loadEnded (s : State) (l : TtLoad) :
    (s.loadEnded l).rnd.ttIndex = (s.ttCopy l (s.rdMem l.src (l.count * (if l.entries then 64 else 2)))).rnd.ttIndex := by
  rw [State.loadEnded, State.putB_rnd, State.putB_rnd, State.putB_rnd, State.setRnd_rnd]

/-- A verification has ended. -/
def State.verifyEnded (s : State) : State :=
  ((s.setRnd fun r => { r with verify := none }).putB ROUND_LOAD_CTRL_VERIFY false).putB ROUND_LOAD_STATUS_VERIFY_BUSY false

theorem execTtVerifyDone_passes (s : State) (bank : Bool) (hv : s.rnd.verify = some bank) (hf : s.verifyFault (if bank then 1 else 0) = none) :
    exec .ttVerifyDone s = .next (s.verifyEnded.putB (verifiedFld bank) true) := by
  have hget : ∀ g : Fld, g.reg ≠ ROUND_LOAD_CTRL → g.reg ≠ ROUND_LOAD_STATUS → s.verifyEnded.get g = s.get g := fun g hc hs => by
    rw [State.verifyEnded, State.putB, State.get_put_other _ _ _ _ hs, State.putB, State.get_put_other _ _ _ _ hc, State.setRnd_get]
  have hrnd : s.verifyEnded.rnd = { s.rnd with verify := none } := by
    rw [State.verifyEnded, State.putB_rnd, State.putB_rnd, State.setRnd_rnd]
  have hsame := State.verifyFault_congr (s := s) (t := s.verifyEnded) (by rw [hrnd]) (by rw [hrnd]) (hget ROUND_DRAM_CAP_UNITS (by decide) (by decide))
    (hget MEMCTL_DX_STATUS_STATE (by decide) (by decide)) (if bank then 1 else 0)
  rw [hf, State.verifyEnded] at hsame
  show execTtVerifyDone s = _
  simp only [execTtVerifyDone, hv, hsame, State.verifyEnded]

/-- A verification is in progress. -/
def State.verifyBegun (s : State) (bank : Bool) : State :=
  (((s.putB ROUND_LOAD_CTRL_BANK bank).putB ROUND_LOAD_CTRL_VERIFY true).putB ROUND_LOAD_STATUS_VERIFY_BUSY true).setRnd fun r => { r with verify := some bank }

theorem State.ttVerify_begins (s : State) (bank : Bool) (hb : s.ttBusy = false) : s.ttVerify bank = s.verifyBegun bank := by
  rw [State.ttVerify, hb]
  rfl

theorem State.ttRun_verifyBegun (s : State) (bank : Bool) : (s.verifyBegun bank).ttRun = s.ttRun := by
  rw [State.verifyBegun, State.ttRun, State.setRnd_on, State.on_putB_other _ _ _ _ (by decide), State.on_putB_other _ _ _ _ (by decide),
    State.on_putB_other _ _ _ _ (by decide), ← State.ttRun]

/-! ### TT_ENABLE -/

theorem execTtEnableWrite_lands (q : Req) (en : Bool) (s : State) (h : Safety.Lands q ROUND_CTRL s) :
    exec (.ttEnableWrite ⟨q, en⟩) s = .next (s.ttEnable en) := congrArg Host.Outcome.next (s.landing_of_lands q _ _ h)

/-- TT_ENABLE is asked for. -/
def State.ttAsked (s : State) : State := (s.putB ROUND_CTRL_TT_ENABLE true).setRnd fun r => { r with ttPend := some true }

theorem State.ttEnable_true (s : State) : s.ttEnable true = if s.bankVerified then s.ttAsked else s.report { code := Code.TT_INVALID } := by
  cases h : s.bankVerified <;> simp only [State.ttEnable, h] <;> rfl

/-- Settles O15: each step of a bank's way into force is a write of LOAD_CTRL, LOAD_STATUS or CTRL and a mark in the tick generator. -/
theorem timetableLoadsAndVerifies : Obligations.TimetableLoadsAndVerifies := by
  intro q bank entries first s hload hctrl
  refine ⟨fun hb hbank hn hfit => ?_, execTtLoadDone_waits s, fun l hl hw hr => ?_, fun hb => ?_, fun hv hf => ?_, fun hv => ?_, fun hv => ?_⟩
  · obtain ⟨n, hbegins⟩ := s.ttLoad_begins bank entries first hb hbank hn hfit
    obtain ⟨hbusy, hverified, hrnd, hrun, hmem⟩ := (s.loadAsked bank entries first).loadBegun_spec (s.loadOf bank entries first)
    have hspent := Spent.traffic ((s.loadAsked bank entries first).loadBegun (s.loadOf bank entries first)) 3 (some ttKey) (s.loadOf bank entries first).src n
    refine ⟨_, congrArg Host.Outcome.next ((s.landing_of_lands q _ _ hload).trans hbegins), (hspent.on _ (by decide)).trans hbusy,
      (hspent.on _ (by simp only [verifiedFld]; decide)).trans hverified, ?_, ?_, hspent.mem.trans hmem⟩
    · rw [hspent.rnd]
      exact hrnd
    · exact ((hspent.on _ (by decide)).trans hrun).trans (s.on_loadAsked bank entries first _ (by decide))
  · obtain ⟨hdone, hbusy, hnone, hrun, hmem⟩ := s.loadEnded_spec l
    refine ⟨_, execTtLoadDone_all s l hl hw hr, hdone, hbusy, hnone, hrun, hmem, fun he j hj _ => ?_⟩
    rw [← s.ttElem_ttCopy l he j hj, State.ttElem_congr (s.ttIndex_loadEnded l), he]
    rfl
  · refine ⟨s.verifyBegun bank, ?_, ?_, ?_, s.ttRun_verifyBegun bank, ?_⟩
    · exact congrArg Host.Outcome.next ((s.landing_of_lands q _ _ hload).trans (s.ttVerify_begins bank hb))
    · rw [State.verifyBegun, State.setRnd_on, State.on_putB_same _ _ _ rfl (by decide)]
    · rw [State.verifyBegun, State.setRnd_rnd]
    · rw [State.verifyBegun, State.setRnd_mem, State.putB_mem, State.putB_mem, State.putB_mem]
  · obtain ⟨hlo, hhi⟩ := verifiedFld_bit bank
    refine ⟨_, execTtVerifyDone_passes s bank hv hf, State.on_putB_same _ _ _ hlo hhi, ?_, ?_⟩
    · rw [State.on_putB_apart _ _ _ _ (by omega) hhi (verifiedFld_apart _ _ (.inl (by decide))), State.verifyEnded, State.on_putB_same _ _ _ rfl (by decide)]
    · rw [State.putB_mem, State.verifyEnded, State.putB_mem, State.putB_mem, State.setRnd_mem]
  · refine ⟨s.ttAsked, by rw [execTtEnableWrite_lands q true s hctrl, State.ttEnable_true, if_pos hv], ?_, rfl, ?_, rfl⟩
    · rw [State.ttAsked, State.setRnd_on, State.on_putB_same _ _ _ rfl (by decide)]
    · rw [State.ttAsked, State.ttRun, State.setRnd_on, State.on_putB_other _ _ _ _ (by decide), ← State.ttRun]
  · have hget : ∀ g : Fld, g.reg < 0xC00000 → (s.report { code := Code.TT_INVALID }).on g = s.on g := fun g hg => by
      have hne : g.reg ≠ SECURE_SEC_NOTIFY := by simp only [SECURE_SEC_NOTIFY]; omega
      rw [State.on, State.get_report _ _ _ hne (.inl (by omega)), ← State.on]
    refine ⟨s.report { code := Code.TT_INVALID }, ?_, State.on_report_note _ _ errClass_ttInvalid, hget _ (by decide), by rw [State.report_rnd],
      hget _ (by decide), State.report_mem _ _⟩
    rw [execTtEnableWrite_lands q true s hctrl, State.ttEnable_true, hv]
    rfl

end Sys2Proof.Machine
end

section
/-! SUPPORT. Units of work on the image and codec blocks (Round §5): their start by the fit check, their end, an overrun and a hang. -/

namespace Sys2Proof.Machine
open Reg

@[simp] theorem State.unitOn_setUnit_same (s : State) (i : Nat) (u : Option RunUnit) : (s.setUnit i u).unitOn i = u :=
  SMap.get_set_same (fun _ => none) s.rnd.running i u

@[simp] theorem State.unitOn_report (s : State) (e : Err) (i : Nat) : (s.report e).unitOn i = s.unitOn i := by
  simp only [State.unitOn, State.report_rnd]

@[simp] theorem State.unitOn_addSat (s : State) (o n i : Nat) : (s.addSat o n).unitOn i = s.unitOn i := rfl
@[simp] theorem State.mem_addSat (s : State) (o n : Nat) : (s.addSat o n).mem = s.mem := rfl
@[simp] theorem State.mem_setUnit (s : State) (i : Nat) (u : Option RunUnit) : (s.setUnit i u).mem = s.mem := rfl
@[simp] theorem State.rd_setUnit (s : State) (i : Nat) (u : Option RunUnit) (o : Nat) : (s.setUnit i u).rd o = s.rd o := rfl

theorem State.rdN_atNs (s : State) (t o : Nat) (h : o ≠ ROUND_PHASE) : (s.atNs t).rdN o = s.rdN o :=
  congrArg BitVec.toNat (State.rd_atNs s t o h)

/-- A counter of 32 bits rises up to its largest value. -/
theorem State.rdN_addSat_same (s : State) (o n : Nat) : (s.addSat o n).rdN o = min (s.rdN o + n) 0xFFFFFFFF := by
  rw [State.addSat, State.rdN_wrN_same]
  omega

theorem deferCount_ne_phase (i : Nat) : ROUND_DEFER_COUNT i ≠ ROUND_PHASE := by
  simp only [ROUND_DEFER_COUNT, ROUND_PHASE]
  omega

theorem overrunCount_ne_phase (i : Nat) : ROUND_OVR_COUNT i ≠ ROUND_PHASE := by
  simp only [ROUND_OVR_COUNT, ROUND_PHASE]
  omega

/-! ### Start and end -/

theorem execUnitStart_vision (b : Block) (w : Work) (t : Nat) (s : State) (hb : 16 ≤ b.val) :
    exec (.unitStart b (.vision w) t) s = .next ((s.atNs t).visionStart b w t) := by
  show execUnitStart b (.vision w) t s = _
  rw [execUnitStart]
  exact congrArg Host.Outcome.next (if_pos hb)

section
variable {s : State} {b : Nat} {w : Work} {ns : Nat} (hu : s.unitOn b = none) (hsafe : s.on ERROR_STATUS_SAFE = false)
  (hp : s.preparing (blockDomain b) = false) (hj : s.joined (blockDomain b) = true) (hr : s.visionReady b w.owner = some ns)
include hu hsafe hp hj hr

/-- A ready unit starts on a free block where the fit check passes, and runs to the end that the check used. -/
theorem State.visionStart_fits {t e : Nat} (hfit : s.fit b w.owner t ns 1000 = .start e) :
    s.visionStart b w t = s.setUnit b (some { ring := none, owner := w.owner, d := ns, startRound := s.round, startNs := t, quantumEnd := e }) := by
  simp only [State.visionStart, hu, hsafe, hp, hj, hr, hfit, Option.isSome_none, Bool.or_self, Bool.not_true, Bool.false_eq_true, if_false]

/-- A ready unit that must wait for another quantum is deferred. -/
theorem State.visionStart_defers {t lo : Nat} (hfit : s.fit b w.owner t ns 1000 = .defer lo) :
    s.visionStart b w t = s.countDefer s.round b w.owner lo (0, 0) := by
  simp only [State.visionStart, hu, hsafe, hp, hj, hr, hfit, Option.isSome_none, Bool.or_self, Bool.not_true, Bool.false_eq_true, if_false]

end

/-- A deferral is counted at most once, and leaves units and memory alone. -/
theorem State.countDefer_spec (s : State) (n i owner lo : Nat) (who : Nat × Nat) : (s.countDefer n i owner lo who).unitOn i = s.unitOn i ∧
    (s.countDefer n i owner lo who).mem = s.mem ∧ (s.countDefer n i owner lo who).rdN (ROUND_DEFER_COUNT i) ≤ s.rdN (ROUND_DEFER_COUNT i) + 1 := by
  unfold State.countDefer
  extract_lets k
  split
  · exact ⟨rfl, rfl, Nat.le_succ _⟩
  · rw [State.rdN_addSat_same]
    split <;> exact ⟨rfl, rfl, Nat.min_le_left _ _⟩

/-- The end of an engine's unit starts none. -/
@[simp] theorem State.unitOn_visionEnd (s : State) (b owner i : Nat) : (s.visionEnd b owner).unitOn i = s.unitOn i := by
  unfold State.visionEnd State.tileEnd
  split
  · split
    · split <;> rfl
    · split
      · split <;> rfl
      · split <;> rfl
  · dsimp only
    split <;> rfl

/-- Settles O17: a start is decided by the fit check alone, and the end of a unit takes it off its block. -/
theorem unitsStartByFitCheckAndEnd : Obligations.UnitsStartByFitCheckAndEnd := by
  intro b w ns t s hb
  refine ⟨fun hu hsafe hp hj hr => ?_, fun r hr => ⟨((s.atNs t).setUnit b none).visionEnd b r.owner, ?_, ?_⟩⟩
  · have hsafe' : (s.atNs t).on ERROR_STATUS_SAFE = false := (State.on_atNs s t _ (by decide)).trans hsafe
    refine ⟨fun e hfit => ⟨_, execUnitStart_vision b w t s hb, ?_⟩, fun lo hfit => ⟨_, execUnitStart_vision b w t s hb, ?_⟩⟩
    · rw [State.visionStart_fits (s := s.atNs t) hu hsafe' hp hj hr hfit, State.unitOn_setUnit_same, State.round_atNs]
      exact ⟨rfl, rfl, State.rd_atNs s t _ (deferCount_ne_phase b)⟩
    · obtain ⟨hunit, hmem, hcount⟩ := (s.atNs t).countDefer_spec (s.atNs t).round b w.owner lo (0, 0)
      rw [State.visionStart_defers (s := s.atNs t) hu hsafe' hp hj hr hfit]
      rw [State.rdN_atNs s t _ (deferCount_ne_phase b)] at hcount
      exact ⟨hunit.trans hu, hmem, hcount⟩
  · show execUnitEnd b t s = _
    simp only [execUnitEnd, hr, hb, if_true]
  · rw [State.unitOn_visionEnd, State.unitOn_setUnit_same]

/-! ### Overrun and hang -/

/-- No image or codec block is the express district. -/
theorem State.ne_expressDistrict (s : State) (b : Nat) (hb : 16 ≤ b) : b ≠ s.expressDistrict := by
  have : s.expressDistrict < 16 := Nat.mod_lt _ (by decide)
  omega

/-- Settles O18: the overrun is a mark on the unit, a count and a report; the hang is a report and the end of the unit. -/
theorem overrunAndHangAreCounted : Obligations.OverrunAndHangAreCounted := by
  intro b r t s hb hu hring
  have hexpress := s.ne_expressDistrict b hb
  refine ⟨fun ho hq => ?_, fun hq => ?_⟩
  · refine ⟨(((s.atNs t).setUnit b (some { r with overrun := true })).addSat (ROUND_OVR_COUNT b) 1).report { code := Code.BUDGET_OVERRUN, unit := b },
      ?_, ?_, State.on_report_note _ _ errClass_budgetOverrun, ?_, State.report_mem _ _⟩
    · show execOverrun b t s = _
      have hlate : ¬s.at t < r.quantumEnd := by omega
      have hnot : ¬b.val < 16 := by omega
      simp only [execOverrun, hu, hexpress, ho, hlate, hring, hnot, decide_false, Bool.or_self, Bool.false_eq_true, if_false]
    · have hlow : ROUND_OVR_COUNT b < 0xD00000 := by
        have := b.isLt
        simp only [ROUND_OVR_COUNT]
        omega
      have hnot : ROUND_OVR_COUNT b ≠ SECURE_SEC_NOTIFY := by
        have := b.isLt
        simp only [ROUND_OVR_COUNT, SECURE_SEC_NOTIFY]
        omega
      rw [State.rdN, State.rd_report _ _ _ hnot (.inl hlow), ← State.rdN, State.rdN_addSat_same, State.rdN, State.rd_setUnit,
        State.rd_atNs s t _ (overrunCount_ne_phase b), ← State.rdN]
    · rw [State.unitOn_report, State.unitOn_addSat, State.unitOn_setUnit_same]
  · refine ⟨((s.atNs t).report { code := Code.UNIT_HANG, ring := r.ring, unit := b }).setUnit b none, ?_, State.unitOn_setUnit_same _ _ _,
      State.on_report_contained _ _ errClass_unitHang, State.report_mem _ _⟩
    show execUnitHang b t s = _
    have hnot : ¬b.val < 16 := by omega
    simp only [execUnitHang, hu, hexpress, hq, hring, hnot, decide_true, Bool.not_true, Bool.false_eq_true, if_false]

end Sys2Proof.Machine
end

section
/-! SUPPORT. What a round boundary leaves of the round counter (Round R43): a property that outlives every update but a write of ROUND.COUNT and a change of
the resets that are due is kept by all that the blocks do at a boundary. One lemma per operation of the model, in the model's order; where an operation
writes a register, its offset is shown not to be that of COUNT. -/

namespace Sys2Proof.Machine
open Reg

/-- A property that the updates of a boundary keep: every one of Machine/Ops.lean that a boundary is built from, but for a write of ROUND.COUNT (0x10000) and a
change of the resets that are due. -/
structure RoundClosed (P : State → Prop) : Prop where
  wr : ∀ s o v, o ≠ ROUND_COUNT → P s → P (s.wr o v)
  setBoot : ∀ s f, (∀ b, (f b).due = b.due) → P s → P (s.setBoot f)
  report : ∀ s e, P s → P (s.report e)
  wrMem : ∀ s a b, P s → P (s.wrMem a b)
  wrHost : ∀ s a b, P s → P (s.wrHost a b)
  setErr : ∀ s f, P s → P (s.setErr f)
  setRnd : ∀ s f, P s → P (s.setRnd f)
  setFetch : ∀ s f, P s → P (s.setFetch f)
  setTxn : ∀ s f, P s → P (s.setTxn f)
  setFloor : ∀ s f, P s → P (s.setFloor f)
  setServe : ∀ s f, P s → P (s.setServe f)
  setVis : ∀ s f, P s → P (s.setVis f)
  setMemc : ∀ s f, P s → P (s.setMemc f)
  setFab : ∀ s f, P s → P (s.setFab f)
  setXp : ∀ s f, P s → P (s.setXp f)
  setRelay : ∀ s f, P s → P (s.setRelay f)
  setPwr : ∀ s f, P s → P (s.setPwr f)
  setGov : ∀ s f, P s → P (s.setGov f)
  setFw : ∀ s f, P s → P (s.setFw f)
  setTrust : ∀ s f, P s → P (s.setTrust f)
  setLinks : ∀ s f, P s → P (s.setLinks f)
  setActing : ∀ s l, P s → P (s.setActing l)
  putPoison : ∀ s l, P s → P (s.putPoison l)
  sendIrq : ∀ s i, P s → P (s.sendIrq i)
  setLedgerRun : ∀ s n, P s → P (s.setLedgerRun n)
  setRing : ∀ s r d, P s → P (s.setRing r d)
  setPort : ∀ s p f, P s → P (s.setPort p f)

/-- A register that is one of several lies above COUNT where their base does. -/
theorem above_count {b k : Nat} (h : Nat.ble b 0x10000 = false) : b + k ≠ 0x10000 := by
  have hb : ¬b ≤ 0x10000 := fun hle => by rw [Nat.ble_eq_true_of_le hle] at h; cases h
  omega

/-- The same of a register numbered by two indices. -/
theorem above_count₂ {b j k : Nat} (h : Nat.ble b 0x10000 = false) : b + j + k ≠ 0x10000 := by
  have := above_count (k := j + k) h
  omega

/-- A register that stands alone is not COUNT where its offset is another. -/
theorem off_count {o : Nat} (h : Nat.beq o 0x10000 = false) : o ≠ 0x10000 := Nat.ne_of_beq_eq_false h

/-- Neither of two fields lies in COUNT. -/
theorem reg_ite_ne (c : Prop) [Decidable c] {f g : Fld} (hf : f.reg ≠ 0x10000)
    (hg : g.reg ≠ 0x10000) : (if c then f else g).reg ≠ 0x10000 := by
  split <;> assumption

namespace RoundClosed
variable {P : State → Prop} (h : RoundClosed P)
include h

theorem ite (c : Prop) [Decidable c] {a b : State} (ha : P a) (hb : P b) : P (if c then a else b) := by
  have := h
  split <;> assumption

/-- A fold over a list keeps the property if each of its steps does. -/
theorem each {α : Type} (f : State → α → State) (hf : ∀ s x, P s → P (f s x)) (l : List α) (s : State) (hs : P s) : P (s.each l f) := by
  have := h
  unfold State.each
  induction l generalizing s with
  | nil => exact hs
  | cons x t ih => exact ih _ (hf s x hs)

/-! ### Writes of registers other than COUNT -/

theorem wrN (s : State) (o n : Nat) (hs : P s) (ho : o ≠ 0x10000) : P (s.wrN o n) := h.wr _ _ _ ho hs
theorem put (s : State) (f : Fld) (n : Nat) (hs : P s) (ho : f.reg ≠ 0x10000) : P (s.put f n) := h.wr _ _ _ ho hs
theorem putB (s : State) (f : Fld) (b : Bool) (hs : P s) (ho : f.reg ≠ 0x10000) : P (s.putB f b) := h.wr _ _ _ ho hs
theorem setBit (s : State) (o i : Nat) (b : Bool) (hs : P s) (ho : o ≠ 0x10000) : P (s.setBit o i b) := h.wr _ _ _ ho hs
theorem addSat (s : State) (o n : Nat) (hs : P s) (ho : o ≠ 0x10000) : P (s.addSat o n) := h.wr _ _ _ ho hs
theorem add64 (s : State) (o n : Nat) (hs : P s) (ho : o ≠ 0x10000) : P (s.add64 o n) := h.wr _ _ _ ho hs

theorem setUnit (s : State) (i : Nat) (u : Option RunUnit) (hs : P s) : P (s.setUnit i u) := h.setRnd _ _ hs

theorem msix (s : State) (f v : Nat) (hs : P s) : P (s.msix f v) := by
  unfold State.msix
  exact h.ite _ hs (h.sendIrq _ _ hs)

theorem coreIrq (s : State) (b : Bool) (n : Nat) (v : Option Nat) (hs : P s) : P (s.coreIrq b n v) := by
  unfold State.coreIrq
  exact h.ite _ (h.sendIrq _ _ hs) hs

theorem irqTo (s : State) (f v n : Nat) (hs : P s) : P (s.irqTo f v n) := by
  unfold State.irqTo
  exact h.ite _ (h.msix _ _ _ hs) (h.ite _ (h.coreIrq _ _ _ _ hs) (h.ite _ (h.coreIrq _ _ _ _ hs) hs))

variable {s : State} (hs : P s)
include hs

/-! ### Operations over registers and time -/

theorem clearNow {f} (ho : f.reg ≠ 0x10000) : P (s.clearNow f) := h.put _ _ _ (h.setActing _ _ hs) ho

/-! ### Operands and the addresses they name -/

theorem accReport {e} : P (s.accReport e) := by
  unfold State.accReport
  split
  · exact h.wrN _ _ _ (h.report _ _ hs) (off_count rfl)
  · exact h.report _ _ hs
  · exact h.report _ _ hs
  · exact h.report _ _ hs
  · exact hs

theorem setPoison {l} : P (s.setPoison l) := h.put _ _ _ (h.putPoison _ _ hs) (off_count rfl)

theorem writeLine {a b} : P (s.writeLine a b) :=
  h.ite _ (h.report _ _ hs) (h.ite _ (h.ite _ (h.wrMem _ _ _ (h.setPoison hs)) (h.report _ _ hs)) (h.wrMem _ _ _ hs))

theorem setFlip {a n} : P (s.setFlip a n) := h.setFloor _ _ hs

theorem eccWord {x} : P (s.eccWord x) := by
  unfold State.eccWord
  extract_lets cache s₁
  have hs₁ : P s₁ := h.setFlip hs
  split
  · exact hs
  · extract_lets s₂ f s₃
    have hs₂ : P s₂ := h.ite _ (h.put _ _ _ hs₁ (above_count rfl)) (h.put _ _ _ hs₁ (above_count rfl))
    refine h.ite _ (h.report _ _ (h.put _ _ _ hs₂ ?_)) (h.report _ _ (h.putPoison _ _ (h.putB _ _ _ hs₂ ?_)))
    · exact reg_ite_ne _ (above_count rfl) (above_count rfl)
    · exact reg_ite_ne _ (above_count rfl) (above_count rfl)

theorem eccRead {a n} : P (s.eccRead a n) := h.each _ (fun _ _ hs₁ => h.eccWord hs₁) _ _ hs

theorem freshWord {w} : P (s.freshWord w) := by
  unfold State.freshWord
  extract_lets s₁
  have hs₁ : P s₁ := h.ite _ (h.setFlip hs) hs
  exact h.ite _ (h.putPoison _ _ hs₁) hs₁

theorem writeSram {a b} : P (s.writeSram a b) := by
  unfold State.writeSram
  extract_lets w s₁
  have hs₁ : P s₁ := h.eccRead hs
  exact h.ite _ (h.report _ _ hs) (h.ite _ (h.ite _ (h.wrMem _ _ _ (h.freshWord hs)) (h.ite _ hs₁ (h.wrMem _ _ _ hs₁))) hs)

theorem store {a b} : P (s.store a b) := h.ite _ (h.each _ (fun _ _ hs₁ => h.writeSram hs₁) _ _ hs) (h.each _ (fun _ _ hs₁ => h.writeLine hs₁) _ _ hs)

theorem fnWrite {f a b} : P (s.fnWrite f a b).1 := by
  unfold State.fnWrite
  split
  · exact h.accReport hs
  · exact h.store hs

theorem addrWrite {f a b} : P (s.addrWrite f a b).1 := by
  unfold State.addrWrite
  split
  · split
    · exact hs
    · split
      · dsimp only
        exact h.wrHost _ _ _ hs
      · dsimp only
        exact h.accReport hs
  · exact h.fnWrite hs

/-! ### The general lanes of the mesh -/

theorem meshBytes {k n} (hk : k < 4) : P (s.meshBytes k n) := h.add64 _ _ _ hs (by show 0x410 + 0x8 * k ≠ 0x10000; omega)

theorem meshMove {k who src dst n} (hk : k < 4) : P (s.meshMove k who src dst n) := h.setFloor _ _ (h.meshBytes hs hk)

theorem meshEntry : P s.meshEntry := h.setFloor _ _ hs

/-! ### DRAM traffic of the service classes -/

theorem memSpend {pays k units bytes} : P (s.memSpend pays k units bytes) := h.add64 _ _ _ (h.setMemc _ _ hs) (above_count rfl)

theorem serveMove {m} : P (s.serveMove m).1 := by
  unfold State.serveMove
  extract_lets u
  split
  · exact h.memSpend hs
  · extract_lets n
    split
    · exact h.memSpend hs
    · split
      · exact hs
      · exact h.memSpend hs

theorem serveClass {k l} : P (s.serveClass k l).1 := by
  induction l generalizing s with
  | nil => exact hs
  | cons m t ih =>
    rw [State.serveClass]
    split
    · exact ih (h.serveMove hs)
    · exact ih hs

theorem serveMoves : P s.serveMoves := h.each _ (fun _ _ hs₁ => h.setMemc _ _ (h.serveClass hs₁)) _ _ hs
theorem traffic {k who a n} : P (s.traffic k who a n) := h.ite _ (h.serveMoves (h.setMemc _ _ hs)) hs

/-! ### The firmware log ring -/

theorem ledgerOff : P s.ledgerOff := h.clearNow hs (off_count rfl)

theorem ledgerPut {e} : P (s.ledgerPut e) := by
  unfold State.ledgerPut
  extract_lets j a s₁
  have hs₁ : P s₁ := h.ite _ hs (h.traffic hs)
  split
  · next s' heq =>
    have hs' : P s' := of_fst (h.addrWrite hs₁) heq
    exact h.wrN _ _ _ hs' (off_count rfl)
  · next s' _ heq =>
    have hs' : P s' := of_fst (h.addrWrite hs₁) heq
    exact h.report _ _ (h.ledgerOff hs')

theorem ledger {e} : P (s.ledger e) := by
  unfold State.ledger
  refine h.ite _ hs (h.ite _ ?_ ?_)
  · extract_lets s'
    have hs' : P s' := h.addSat _ _ _ (h.setLedgerRun _ _ hs) (off_count rfl)
    exact h.ite _ (h.report _ _ hs') hs'
  · extract_lets s'
    have hs' : P s' := h.ite _ hs (h.ledgerPut (h.setLedgerRun _ _ hs))
    exact h.ite _ (h.ledgerPut hs') hs'

theorem stamp {id a0 a1 a2} : P (s.stamp id a0 a1 a2) := h.ledger hs

/-! ### Receipts -/

theorem signal {src i max? v} : P (s.signal src i max? v) := by
  unfold State.signal
  refine h.ite _ ?_ hs
  extract_lets c ops s' s'₁
  have hs'₁ : P s'₁ := h.setRnd _ _ (h.wrMem _ _ _ hs)
  exact h.ite _ (h.report _ _ (h.setBit _ _ _ _ hs'₁ (off_count rfl))) hs'₁

/-! ### Sending over the relay link -/

theorem relayForget {ring seq} : P (s.relayForget ring seq) := h.setRelay _ _ hs

/-! ### The ring engine -/

theorem setFlight {r seq g} : P (s.setFlight r seq g) := h.setRing _ _ _ hs
theorem countIrq {r} : P (s.countIrq r) := h.ite _ (h.irqTo _ _ _ _ (h.setRing _ _ _ hs)) (h.setRing _ _ _ hs)

theorem putRecord {r mk irq} : P (s.putRecord r mk irq) := by
  unfold State.putRecord
  extract_lets j s₁ s₂
  have hs₂ : P s₂ := h.wrN _ _ _ (h.traffic (h.addrWrite hs)) (above_count rfl)
  exact h.ite _ (h.countIrq hs₂) hs₂

theorem flightRecord {r f} : P (s.flightRecord r f) := h.putRecord hs

theorem flushFlights {r l} : P (s.flushFlights r l) := by
  induction l generalizing s with
  | nil => exact hs
  | cons f t ih =>
    rw [State.flushFlights]
    exact h.ite _ (h.ite _ (ih (h.setRing _ _ _ hs)) (h.ite _ (ih (h.flightRecord (h.setRing _ _ _ hs))) hs)) hs

theorem flushUnsol {r l} : P (s.flushUnsol r l) := by
  induction l generalizing s with
  | nil => exact hs
  | cons u t ih =>
    rw [State.flushUnsol]
    exact h.ite _ (ih (h.putRecord (h.setRing _ _ _ hs))) hs

theorem flush {r} : P (s.flush r) := by
  unfold State.flush
  extract_lets s₁ s₂
  have hs₂ : P s₂ := h.flushUnsol (h.flushFlights hs)
  exact h.ite _ (h.putB _ _ _ hs₂ (above_count rfl)) hs₂

theorem closeSessions {r} : P (s.closeSessions r) := h.setServe _ _ hs

theorem ringOff {r} : P (s.ringOff r) := by
  unfold State.ringOff
  extract_lets s₁ s₂ s₃
  have hs₂ : P s₂ := h.wrN _ _ _ (h.putB _ _ _ (h.put _ _ _ (h.closeSessions hs) (above_count rfl)) (above_count rfl)) (above_count rfl)
  exact h.setRing _ _ _ (h.wrN _ _ _ (h.wrN _ _ _ (h.wrN _ _ _ (h.wrN _ _ _ hs₂ (above_count rfl)) (above_count rfl)) (above_count rfl)) (above_count rfl))

theorem ringSettle {r} : P (s.ringSettle r) := by
  unfold State.ringSettle
  refine h.ite _ ?_ hs
  extract_lets s₁
  have hs₁ : P s₁ := h.putB _ _ _ (h.putB _ _ _ (h.put _ _ _ hs (above_count rfl)) (above_count rfl)) (above_count rfl)
  exact h.ite _ (h.ringOff hs₁) hs₁

theorem endStamp {r f status} : P (s.endStamp r f status) := h.ite _ (h.stamp hs) hs

theorem ringStopping {r} : P (s.ringStopping r) := by
  unfold State.ringStopping
  refine h.ite _ ?_ hs
  extract_lets gone n x s₁ s₂ s₃
  have hs₁ : P s₁ := h.setRing _ _ _ hs
  exact h.ringSettle (h.flush (h.add64 _ _ _ (h.put _ _ _ (h.each _ (fun _ _ hs₄ => h.endStamp hs₄) _ _ hs₁) (above_count rfl)) (above_count rfl)))

theorem complete {r seq status result} : P (s.complete r seq status result) := by
  unfold State.complete
  extract_lets fails
  split
  · exact hs
  · refine h.ite _ hs ?_
    extract_lets s₁ s₂ s₃ s₄ s₅ s₆ s₇
    have hs₄ : P s₄ := h.add64 _ _ _ (h.setFlight (h.endStamp (h.ite _ (h.signal hs) hs))) (above_count rfl)
    have hs₆ : P s₆ := h.flush (h.ite _ (h.put _ _ _ hs₄ (above_count rfl)) hs₄)
    exact h.ringSettle (h.ite _ (h.ringStopping hs₆) hs₆)

theorem finish {r seq status result} : P (s.finish r seq status result) := h.setFlight hs

/-! ### The districts -/

theorem setClerk {c k} : P (s.setClerk c k) := h.setFloor _ _ hs
theorem setXchan {c f} : P (s.setXchan c f) := h.setXp _ _ hs
theorem setDunit {d u} : P (s.setDunit d u) := h.putB _ _ _ (h.setFloor _ _ hs) (above_count rfl)
theorem holdDistrict {d} : P (s.holdDistrict d) := h.ite _ hs (h.setFloor _ _ (h.putB _ _ _ (h.setBit _ _ _ _ hs (off_count rfl)) (above_count rfl)))

theorem releaseHold {d} : P (s.releaseHold d) := by
  unfold State.releaseHold
  refine h.ite _ ?_ hs
  extract_lets s₁
  have hs₁ : P s₁ := h.setFloor _ _ (h.putB _ _ _ (h.setBit _ _ _ _ hs (off_count rfl)) (above_count rfl))
  exact h.ite _ (h.setFloor _ _ (h.putB _ _ _ hs₁ (off_count rfl))) hs₁

theorem outsideRead {a n} : P (s.outsideRead a n).1 := by
  unfold State.outsideRead
  split
  · dsimp only
    exact h.report _ _ hs
  · exact hs

theorem outsideWrite {a b} : P (s.outsideWrite a b) :=
  h.ite _ (h.report _ _ (h.each _ (fun _ _ hs₁ => h.ite _ hs₁ (h.store hs₁)) _ _ hs)) (h.store hs)

theorem giveAcc {dest x} : P (s.giveAcc dest x) := by
  unfold State.giveAcc
  split
  · exact h.setLinks _ _ hs
  · exact h.setMemc _ _ hs
  · exact h.setFab _ _ hs

theorem sramServe {k a op dest} (hk : k < 4) : P (s.sramServe k a op dest) := by
  unfold State.sramServe
  extract_lets d
  split
  · exact h.giveAcc (h.outsideWrite (h.meshMove hs hk))
  · extract_lets s₁
    have hs₁ : P s₁ := h.eccRead (h.meshMove hs hk)
    exact h.ite _ (h.giveAcc hs₁) (h.giveAcc (h.outsideRead hs₁))

theorem serveHeld {d} : P (s.serveHeld d) := h.ite _ hs (h.each _ (fun _ _ hs₂ => h.sramServe hs₂ (Nat.lt_succ_self 3)) _ _ (h.setFloor _ _ hs))
theorem setRun {ring seq g} : P (s.setRun ring seq g) := h.setFloor _ _ hs
theorem setDrun {ring seq d g} : P (s.setDrun ring seq d g) := h.setRun hs

theorem debugEnd {r status x} : P (s.debugEnd r status x) := by
  unfold State.debugEnd
  extract_lets s₁ s₂ s₃
  have hs₂ : P s₂ := h.putB _ _ _ (h.put _ _ _ (h.put _ _ _ (h.setFloor _ _ hs) (above_count rfl)) (above_count rfl)) (above_count rfl)
  have hs₃ : P s₃ := by
    unfold s₃
    split
    · exact h.put _ _ _ (h.put _ _ _ (h.putB _ _ _ hs₂ (above_count rfl)) (above_count rfl)) (above_count rfl)
    · exact h.putB _ _ _ hs₂ (above_count rfl)
  exact h.ite _ (h.holdDistrict hs₃) hs₃

theorem writeEvents {r} : P (s.writeEvents r) := by
  unfold State.writeEvents
  split
  · exact hs
  · exact h.addrWrite hs

theorem syncWaits {d} : P (s.syncWaits d) := h.putB _ _ _ hs (above_count rfl)

theorem clearSteps {r x} : P (s.clearSteps r x) := by
  unfold State.clearSteps
  extract_lets mine
  exact h.setFloor _ _ hs

theorem endRun {r status result} : P (s.endRun r status result) := by
  unfold State.endRun
  extract_lets s₁ s₂ s₃ s₄ s₅ s₆ s₇ s₈
  have hs₂ : P s₂ := h.each _ (fun _ _ hs₉ => h.debugEnd hs₉) _ _ (h.ite _ (h.writeEvents hs) hs)
  have hs₄ : P s₄ := h.relayForget (h.setFloor _ _ (h.each _ (fun _ _ hs₉ => h.clearSteps hs₉) _ _ hs₂))
  have hs₆ : P s₆ := h.each _ (fun _ _ hs₉ => h.setXchan hs₉) _ _ (h.each _ (fun _ _ hs₉ => h.syncWaits hs₉) _ _ hs₄)
  have hs₇ : P s₇ := h.ite _ (h.setFloor _ _ hs₆) hs₆
  exact h.finish (h.ite _ (h.report _ _ hs₇) hs₇)

theorem runSettle {ring seq} : P (s.runSettle ring seq) := by
  unfold State.runSettle
  split
  · exact hs
  · exact h.ite _ hs (h.ite _ (h.endRun hs) hs)

theorem failRun {ring seq status result} : P (s.failRun ring seq status result) := h.runSettle (h.setRun hs)

theorem closeUnit {d} : P (s.closeUnit d) := by
  unfold State.closeUnit
  extract_lets s₁ s₂
  have hs₁ : P s₁ := by
    unfold s₁
    split
    · exact h.each _ (fun _ _ hs₃ => h.ite _ hs₃ (h.setClerk hs₃)) _ _ hs
    · exact hs
  have hs₂ : P s₂ := h.ite _ (h.each _ (fun _ _ hs₃ => h.setXchan hs₃) _ _ hs₁) hs₁
  exact h.serveHeld (h.setUnit _ _ _ (h.setDunit hs₂))

/-! ### The transaction unit -/

theorem setOwner {o x} : P (s.setOwner o x) := h.put _ _ _ (h.setTxn _ _ hs) (above_count rfl)
theorem freeOwner {o status} : P (s.freeOwner o status) := h.wrN _ _ _ (h.wrN _ _ _ (h.setOwner hs) (above_count rfl)) (above_count rfl)
theorem setHalf {k h'} : P (s.setHalf k h') := h.put _ _ _ (h.setTxn _ _ hs) (off_count rfl)
theorem orphan {off} : P (s.orphan off) := h.addSat _ _ _ (h.report _ _ hs) (off_count rfl)

theorem dropHalf {k} : P (s.dropHalf k) := by
  unfold State.dropHalf
  split
  · exact hs
  · exact h.orphan (h.setHalf hs)

theorem loseHolder {h'} : P (s.loseHolder h') := by
  unfold State.loseHolder
  extract_lets s₁
  have hs₁ : P s₁ := by
    unfold s₁
    split
    · exact h.ite _ (h.report _ _ (h.freeOwner hs)) hs
    · exact hs
  refine h.each _ (fun s₂ x₁ hs₂ => ?_) _ _ hs₁
  split
  · exact h.ite _ (h.dropHalf hs₂) hs₂
  · exact hs₂

/-! ### Commands of the districts -/

theorem releaseBoundary : P s.releaseBoundary := h.each _ (fun _ _ hs₁ => h.releaseHold hs₁) _ _ (h.setFloor _ _ hs)
theorem dbgBoundary : P s.dbgBoundary := h.ite _ hs (h.setFloor _ _ (h.putB _ _ _ hs (off_count rfl)))

/-! ### The express lane -/

theorem chanBoundary {c old} : P (s.chanBoundary c old) :=
  h.ite _ (h.each _ (fun _ _ hs₁ => h.wrN _ _ _ hs₁ (above_count₂ rfl)) _ _ (h.setXchan hs)) (h.ite _ (h.setXchan hs) hs)

theorem spillOne : P s.spillOne := by
  unfold State.spillOne
  extract_lets h₁ l n a
  split
  · exact hs
  · extract_lets s₁ s₂
    have hs₁ : P s₁ := h.memSpend (h.setXp _ _ hs)
    have hs₂ : P s₂ := by
      unfold s₂
      split
      · exact h.store hs₁
      · exact h.accReport hs₁
    exact h.wrN _ _ _ hs₂ (off_count rfl)

theorem spillRun {t} : P (s.spillRun t) := h.each _ (fun _ _ hs₁ => h.ite _ (h.spillOne hs₁) hs₁) _ _ hs
theorem spillEntry : P s.spillEntry := h.spillRun hs

/-! ### The fabric -/

theorem regionSync {g} : P (s.regionSync g) := h.put _ _ _ (h.putB _ _ _ hs (above_count rfl)) (above_count rfl)

theorem fabBoundary : P s.fabBoundary := by
  unfold State.fabBoundary
  extract_lets s₁ s₂
  have hs₁ : P s₁ := by
    unfold s₁
    split
    · exact h.putB _ _ _ (h.putB _ _ _ (h.putB _ _ _ (h.setFab _ _ hs) (off_count rfl)) (off_count rfl)) (off_count rfl)
    · exact hs
  have hs₂ : P s₂ := h.ite _ (h.setFab _ _ hs₁) hs₁
  exact h.ite _ (h.each _ (fun _ _ hs₃ => h.regionSync hs₃) _ _ hs₂) hs₂

/-! ### The lock to network time and the timetables -/

theorem epochSync : P s.epochSync := h.wrN _ _ _ hs (off_count rfl)
theorem epochNow : P s.epochNow := h.epochSync (h.setRnd _ _ hs)

theorem ttBoundary : P s.ttBoundary := by
  unfold State.ttBoundary
  extract_lets s₁
  have hs₁ : P s₁ := h.setRnd _ _ hs
  split
  · exact hs
  · exact h.ite _ (h.setRnd _ _ (h.putB _ _ _ hs₁ (off_count rfl))) (h.ite _ hs₁ (h.ite _
      (h.epochNow (h.put _ _ _ (h.putB _ _ _ hs₁ (off_count rfl)) (off_count rfl))) (h.report _ _ (h.putB _ _ _ hs₁ (off_count rfl)))))

/-! ### Cameras, image pipelines and codecs -/

theorem setChan {c x} : P (s.setChan c x) := h.setVis _ _ hs
theorem setEnc {e x} : P (s.setEnc e x) := h.setVis _ _ hs
theorem chanLatch {c old} : P (s.chanLatch c old) := h.ite _ hs (h.ite _ (h.setChan (h.wrN _ _ _ hs (above_count rfl))) (h.setChan hs))
theorem streamLatch {i old} : P (s.streamLatch i old) := h.ite _ (h.setVis _ _ hs) hs
theorem encLatch {e old} : P (s.encLatch e old) := h.ite _ hs (h.setEnc hs)
theorem visLatch {off old} : P (s.visLatch off old) := h.ite _ (h.chanLatch hs) (h.ite _ (h.streamLatch hs) (h.ite _ (h.encLatch hs) hs))

/-! ### The control ports and the window guard -/

theorem cutFrame {p t} : P (s.cutFrame p t) := h.setPort _ _ _ hs
theorem guardBoundary {p} : P (s.guardBoundary p) := h.ite _ (h.putB _ _ _ hs (above_count rfl)) hs

theorem setLink {p speed} : P (s.setLink p speed) := by
  unfold State.setLink
  refine h.ite _ hs ?_
  extract_lets was s₁ s₂
  have hs₁ : P s₁ := h.putB _ _ _ (h.put _ _ _ (h.putB _ _ _ (h.cutFrame hs) (above_count rfl)) (above_count rfl)) (above_count rfl)
  have hs₂ : P s₂ := h.ite _ (h.setRnd _ _ hs₁) hs₁
  exact h.ite _ (h.report _ _ hs₂) hs₂

theorem portBoundary {p} : P (s.portBoundary p) := h.ite _ hs (h.setLink hs)

/-! ### The memory controller -/

theorem setMchan {c f} : P (s.setMchan c f) := h.setMemc _ _ hs
theorem dramCap : P s.dramCap := h.put _ _ _ hs (off_count rfl)
theorem refreshSets {c n} : P (s.refreshSets c n) := h.setMemc _ _ (h.setMchan hs)
theorem capShort : P s.capShort := h.ite _ (h.each _ (fun _ _ hs₁ => h.ite _ (h.addSat _ _ _ hs₁ (above_count rfl)) hs₁) _ _ hs) hs

theorem memBoundary : P s.memBoundary := by
  unfold State.memBoundary
  extract_lets s₁ s₂
  have hs₂ : P s₂ := h.each _ (fun _ _ hs₃ => h.ite _ hs₃ (h.setMchan hs₃)) _ _ (h.setMemc _ _ hs)
  exact h.ite _ (h.dramCap hs₂) hs₂

theorem memEntry : P s.memEntry := by
  unfold State.memEntry
  extract_lets s₁
  have hs₁ : P s₁ := h.each _ (fun _ _ hs₂ => h.ite _ (h.refreshSets hs₂) hs₂) _ _ hs
  exact h.ite _ hs₁ (h.each _ (fun _ _ hs₂ => h.runSettle hs₂) _ _ (h.meshEntry (h.serveMoves hs₁)))

/-! ### What stops and what resets -/

theorem setPdom {i f} : P (s.setPdom i f) := h.setPwr _ _ hs

theorem pmStop {d} : P (s.pmStop d) := by
  unfold State.pmStop
  extract_lets hit s₁ s₂
  have hs₁ : P s₁ := h.each _ (fun _ _ hs₃ => h.setDrun hs₃) _ _ hs
  exact h.each _ (fun _ _ hs₃ => h.failRun hs₃) _ _ (h.ite _ (h.closeUnit hs₁) hs₁)

theorem pmSync {d} : P (s.pmSync d) := h.putB _ _ _ hs (above_count rfl)

theorem procStop {p cause} : P (s.procStop p cause) := by
  unfold State.procStop
  extract_lets s₁ s₂
  have hs₂ : P s₂ := h.setFw _ _ (h.wrN _ _ _ (h.putB _ _ _ (h.put _ _ _ (h.put _ _ _ hs (above_count rfl))
    (above_count rfl)) (above_count rfl)) (above_count rfl))
  exact h.ite _ (h.loseHolder hs₂) (h.pmSync (h.pmStop hs₂))

theorem procMonitors {d} : P (s.procMonitors d) := h.each _ (fun _ _ hs₁ => h.putB _ _ _ hs₁ (above_count rfl)) _ _ hs

theorem setDom {i k} : P (s.setDom i k) := by
  unfold State.setDom
  extract_lets s₁
  exact h.setPwr _ _ (h.put _ _ _ (h.ite _ (h.procMonitors hs) hs) (above_count rfl))

theorem pwrEvent {f} (ho : f.reg ≠ 0x10000) : P (s.pwrEvent f) := by
  unfold State.pwrEvent
  extract_lets s₁ s₂
  have hs₁ : P s₁ := h.putB _ _ _ hs ho
  exact h.coreIrq _ _ _ _ (h.ite _ (h.msix _ _ _ hs₁) hs₁)

theorem pwrResult {i tag reason result dom} : P (s.pwrResult i tag reason result dom) := by
  unfold State.pwrResult
  split
  · exact h.pwrEvent (h.wrN _ _ _ hs (above_count rfl)) (off_count rfl)
  · exact h.pwrEvent (h.wrN _ _ _ hs (off_count rfl)) (off_count rfl)

theorem pwrSync {i} : P (s.pwrSync i) := by
  unfold State.pwrSync
  extract_lets x s₁
  split
  · exact h.putB _ _ _ (h.putB _ _ _ (h.put _ _ _ (h.putB _ _ _ hs (above_count rfl)) (above_count rfl)) (above_count rfl)) (above_count rfl)
  · exact h.putB _ _ _ (h.putB _ _ _ (h.put _ _ _ (h.putB _ _ _ hs (off_count rfl)) (off_count rfl)) (off_count rfl)) (off_count rfl)

theorem dropPend {i} : P (s.dropPend i) := by
  unfold State.dropPend
  split
  · split
    · exact h.pwrSync (h.pwrResult (h.setPdom hs))
    · exact hs
  · split
    · exact h.pwrSync (h.pwrResult (h.setPwr _ _ hs))
    · exact hs

theorem dropDev : P s.dropDev := by
  unfold State.dropDev
  split
  · exact h.pwrSync (h.pwrResult (h.setPwr _ _ hs))
  · exact hs

/-! ### Power domains and device states -/

theorem domOk {i r} : P (s.domOk i r) := by
  unfold State.domOk
  extract_lets s₁
  exact h.pwrSync (h.pwrResult (h.ite _ (h.setPwr _ _ hs) hs))

theorem beginTrans {i t} : P (s.beginTrans i t) := h.pwrSync (h.setPdom hs)
theorem agentResume {i} : P (s.agentResume i) := h.ite _ (h.each _ (fun _ _ hs₁ => h.regionSync hs₁) _ _ hs) hs
theorem setDev {f} : P (s.setDev f) := h.setPwr _ _ hs

theorem devCommit : P s.devCommit := by
  unfold State.devCommit
  split
  · exact hs
  · extract_lets ok s₁
    have hs₁ : P s₁ := h.setDev hs
    exact h.ite _ (h.each _ (fun _ _ hs₂ => h.cutFrame (h.putB _ _ _ hs₂ (above_count rfl))) _ _ hs₁) hs₁

theorem devAsk : P s.devAsk := by
  unfold State.devAsk
  extract_lets s₁
  have hs₁ : P s₁ := h.setDev hs
  split
  · exact hs
  · split
    · exact h.devCommit hs
    · exact h.ite _ (h.pwrEvent hs₁ (off_count rfl)) hs₁

theorem devResume : P s.devResume := by
  unfold State.devResume
  split
  · exact h.ite _ hs (h.each _ (fun _ _ hs₁ => h.agentResume hs₁) _ _ hs)
  · exact hs

theorem wakeStart {req cause} : P (s.wakeStart req cause) := by
  unfold State.wakeStart
  extract_lets s₁ s₂ goals s₃ s₄ s₅
  have hs₁ : P s₁ := h.dropDev (h.devResume hs)
  have hs₄ : P s₄ := h.setPwr _ _ (h.each _ (fun _ _ hs₆ => h.setPdom hs₆) _ _ (h.ite _ hs₁ (h.dropPend hs₁)))
  exact h.pwrSync (h.pwrEvent (h.wrN _ _ _ (h.ite _ hs₄ (h.setLinks _ _ hs₄)) (off_count rfl)) (off_count rfl))

theorem devStart {r} : P (s.devStart r) := by
  unfold State.devStart
  extract_lets cur goals s₁ s₂ s₃
  have hs₃ : P s₃ := h.setPwr _ _ (h.each _ (fun _ _ hs₄ => h.dropPend hs₄) _ _ (h.wrN _ _ _ (h.wrN _ _ _ hs (off_count rfl)) (off_count rfl)))
  exact h.ite _ (h.pwrSync (h.pwrResult hs)) (h.ite _ (h.wakeStart hs) (h.ite _ (h.pwrSync (h.pwrResult hs)) (h.pwrSync (h.devAsk hs₃))))

theorem devFinish : P s.devFinish := by
  unfold State.devFinish
  extract_lets s₁
  have hs₁ : P s₁ := h.setPwr _ _ hs
  split
  · exact hs
  · refine h.ite _ hs ?_
    extract_lets s₂ s₃ s₄ s₅
    have hs₂ : P s₂ := h.ite _ (h.put _ _ _ hs₁ (off_count rfl)) hs₁
    have hs₃ : P s₃ := h.put _ _ _ hs₁ (off_count rfl)
    have hs₄ : P s₄ := by
      unfold s₄
      split
      · exact h.ite _ hs₂ (h.pwrResult hs₂)
      · exact h.pwrResult hs₁
      · exact h.ite _ hs₃ (h.pwrResult hs₃)
    exact h.pwrSync (h.ite _ (h.setPwr _ _ hs₄) hs₄)

theorem domStart {i r} : P (s.domStart i r) := by
  unfold State.domStart
  extract_lets cur s₁
  have hs₁ : P s₁ := h.pwrSync (h.setPdom (h.wrN _ _ _ hs (off_count rfl)))
  exact h.ite _ (h.domOk hs) (h.ite _ (h.pwrSync (h.pwrResult hs)) (h.ite _ (h.beginTrans hs) (h.ite _ (h.pwrSync (h.setPdom hs))
    (h.ite _ (h.pwrEvent hs₁ (off_count rfl)) hs₁))))

theorem domFinish {i} : P (s.domFinish i) := by
  unfold State.domFinish
  split
  · exact hs
  · refine h.ite _ hs ?_
    extract_lets s₁
    have hs₁ : P s₁ := h.wrN _ _ _ (h.setPdom hs) (above_count rfl)
    split
    · exact h.pwrSync hs₁
    · exact h.ite _ (h.pwrSync (h.setPdom hs₁)) (h.domOk hs₁)

theorem domNext {i} : P (s.domNext i) := by
  unfold State.domNext
  extract_lets x
  split
  · exact hs
  · exact h.ite _ hs (h.domStart (h.setPdom hs))

theorem devNext : P s.devNext := by
  unfold State.devNext
  split
  · exact hs
  · exact h.ite _ hs (h.devStart (h.setPwr _ _ hs))

theorem pwrBoundary : P s.pwrBoundary := by
  unfold State.pwrBoundary
  extract_lets s₁ s₂ s₃ s₄ s₅
  have hs₃ : P s₃ := h.devFinish (h.each _ (fun _ _ hs₆ => h.domFinish hs₆) _ _ (h.setPwr _ _ hs))
  exact h.each _ (fun _ _ hs₆ => h.domNext hs₆) _ _ (h.devNext (h.ite _ (h.wakeStart hs₃) hs₃))

/-! ### The power cap -/

theorem applyCeilings : P s.applyCeilings := by
  unfold State.applyCeilings
  extract_lets s₁ s₂ s₃
  have hs₁ : P s₁ := h.each _ (fun _ _ hs₄ => h.put _ _ _ (h.put _ _ _ (h.putB _ _ _ (h.putB _ _ _
    (h.put _ _ _ hs₄ (above_count rfl)) (above_count rfl)) (above_count rfl)) (above_count rfl)) (above_count rfl)) _ _ hs
  exact h.putB _ _ _ (h.put _ _ _ (h.put _ _ _ hs₁ (off_count rfl)) (off_count rfl)) (off_count rfl)

theorem setDroop {i x} : P (s.setDroop i x) := h.setGov _ _ hs

theorem droopRound {from_ i} : P (s.droopRound from_ i) := by
  unfold State.droopRound
  extract_lets x spans n s₁ s₂ past s₃ c
  have hs₂ : P s₂ := h.put _ _ _ (h.setDroop hs) (above_count rfl)
  have hs₃ : P s₃ := h.report _ _ hs₂
  exact h.ite _ hs₂ (h.ite _ (h.applyCeilings (h.setGov _ _ (h.putB _ _ _ hs₃ (above_count rfl)))) hs₃)

theorem energyPart {e} : P (s.energyPart e) := by
  unfold State.energyPart
  extract_lets s₁
  have hs₁ : P s₁ := h.ite _ (h.add64 _ _ _ hs (above_count rfl)) (h.add64 _ _ _ hs (above_count rfl))
  split
  · exact hs₁
  · extract_lets s₂
    have hs₂ : P s₂ := h.add64 _ _ _ hs₁ (above_count rfl)
    split
    · exact h.setFlight hs₂
    · exact hs₂

theorem fastCut : P s.fastCut := h.put _ _ _ (h.each _ (fun _ _ hs₂ => h.put _ _ _ hs₂ (above_count rfl)) _ _ hs) (off_count rfl)

theorem energyRound {parts} : P (s.energyRound parts) := by
  unfold State.energyRound
  extract_lets total ex s₁ settled s₂ w px s₃ s₄ s₅ s₆ s₇ past s₈
  have hs₁ : P s₁ := h.each _ (fun _ _ hs₉ => h.energyPart hs₉) _ _ hs
  have hs₄ : P s₄ := h.put _ _ _ (h.put _ _ _ (h.put _ _ _ (h.setGov _ _ hs₁) (off_count rfl)) (off_count rfl)) (off_count rfl)
  have hs₆ : P s₆ := h.setGov _ _ (h.ite _ (h.report _ _ hs₄) hs₄)
  have hs₇ : P s₇ := h.ite _ (h.fastCut hs₆) hs₆
  exact h.setGov _ _ (h.putB _ _ _ (h.ite _ (h.report _ _ hs₇) hs₇) (off_count rfl))

theorem govActivity {from_} : P (s.govActivity from_) := by
  unfold State.govActivity
  extract_lets ran off
  exact h.setGov _ _ hs

/-! ### The Opantith root -/

theorem mbRespond {k m status result body} : P (s.mbRespond k m status result body) := by
  unfold State.mbRespond
  extract_lets b s₁ s₂ s₃
  have hs₂ : P s₂ := h.setTrust _ _ (h.each _ (fun _ _ hs₄ => h.wrN _ _ _ hs₄ (above_count₂ rfl)) _ _ hs)
  have hs₃ : P s₃ := h.wrN _ _ _ (h.putB _ _ _ hs₂ (above_count rfl)) (above_count rfl)
  exact h.ite _ (h.coreIrq _ _ _ _ hs₃) (h.ite _ (h.msix _ _ _ hs₃) hs₃)

theorem trustBoundary : P s.trustBoundary := by
  unfold State.trustBoundary
  refine h.each _ (fun s₁ x₁ hs₁ => ?_) _ _ hs
  split
  · exact hs₁
  · exact h.ite _ hs₁ (h.ite _ (h.mbRespond hs₁) (h.ite _ (h.mbRespond hs₁) hs₁))

/-! ### Firmware processors -/

theorem setLoad {r seq g} : P (s.setLoad r seq g) := h.setFw _ _ hs
theorem loadEnd {l status result} : P (s.loadEnd l status result) := h.complete (h.setFw _ _ hs)

theorem loadSettle {l} : P (s.loadSettle l) := by
  unfold State.loadSettle
  refine h.ite _ hs (h.ite _ (h.loadEnd hs) ?_)
  split <;> exact h.loadEnd hs

theorem loadReport {p g} : P (s.loadReport p g) := by
  unfold State.loadReport
  split
  · exact hs
  · exact h.loadSettle (h.setLoad hs)

theorem fwBoundary : P s.fwBoundary := by
  unfold State.fwBoundary
  extract_lets s₁ s₂
  have hs₂ : P s₂ := h.setFw _ _ (h.each _ (fun _ _ hs₃ => h.setFw _ _ (h.ite _ (h.procStop hs₃) hs₃)) _ _ hs)
  exact h.each _ (fun _ _ hs₃ => h.ite _
    (h.each _ (fun _ _ hs₄ => h.ite _ hs₄ (h.loadReport hs₄)) _ _ hs₃)
    (h.ite _ (h.put _ _ _ hs₃ (above_count rfl)) hs₃)) _ _ hs₂

/-! ### Error records and the safe state -/

theorem exitRefused {k} : P (s.exitRefused k) := h.report _ _ (h.put _ _ _ hs (off_count rfl))

theorem errBoundary : P s.errBoundary := by
  unfold State.errBoundary
  extract_lets s₁
  have hs₁ : P s₁ := h.setErr _ _ hs
  split
  · exact h.ite _ (h.ite _ (h.exitRefused hs₁) (h.setErr _ _ hs₁)) hs
  · exact hs

/-! ### Bring-up -/

theorem bootStep {x} : P (s.bootStep x) := by
  unfold State.bootStep
  split
  · exact hs
  · exact h.setPdom (h.put _ _ _ (h.setDom (h.setDom hs)) (above_count rfl))
  · exact h.setPwr _ _ (h.wrN _ _ _ (h.wrN _ _ _ (h.putB _ _ _ hs (off_count rfl)) (off_count rfl)) (off_count rfl))

theorem bootBoundary : P s.bootBoundary := h.ite _ hs (h.each _ (fun _ _ hs₁ => h.bootStep hs₁) _ _ (h.setBoot _ _ (fun _ => rfl) hs))

/-! ### The round boundary -/

theorem takeEntry : P s.takeEntry := h.spillEntry (h.memEntry (h.setRnd _ _ hs))
theorem entryNow : P s.entryNow := h.ite _ (h.takeEntry hs) hs

theorem roundEnd : P s.roundEnd := by
  unfold State.roundEnd
  extract_lets from_ s₁
  have hs₁ : P s₁ := h.ite _ (h.takeEntry hs) hs
  exact h.each _ (fun _ _ hs₂ => h.droopRound hs₂) _ _ (h.capShort (h.govActivity hs₁))

theorem latched {off old} : P (s.latched off old) :=
  h.ite _ (h.chanBoundary hs) (h.ite _ (h.portBoundary hs) (h.ite _ (h.portBoundary hs) (h.ite _ (h.guardBoundary hs) (h.ite _ (h.guardBoundary hs)
      (h.ite _ (h.visLatch hs) hs)))))

theorem latchAll : P s.latchAll := h.each _ (fun _ _ hs₁ => h.latched hs₁) _ _ (h.setActing _ _ hs)

theorem blocksBoundary : P s.blocksBoundary := by
  unfold State.blocksBoundary
  extract_lets s₁ s₂ s₃
  have hs₁ : P s₁ := h.fabBoundary (h.entryNow (h.setRnd _ _ (h.memBoundary (h.ttBoundary hs))))
  have hs₂ : P s₂ := h.fwBoundary (h.pwrBoundary (h.dbgBoundary (h.releaseBoundary hs₁)))
  exact h.setTxn _ _ (h.trustBoundary (h.errBoundary hs₂))

end RoundClosed

/-! ### The round counter at a boundary -/

/-- The round counter is `n`, and no reset is due. -/
def CountsRound (n : Nat) (s : State) : Prop := s.round = n ∧ s.boot.due = []

theorem roundClosed_countsRound (n : Nat) : RoundClosed (CountsRound n) := by
  constructor
  case wr => exact fun s o v ho hs => ⟨(congrArg BitVec.toNat (State.rd_wr_other s o ROUND_COUNT v (Ne.symm ho))).trans hs.1, hs.2⟩
  case setBoot => exact fun s f hf hs => ⟨hs.1, (hf s.boot).trans hs.2⟩
  case report =>
    refine fun s e hs => ⟨(congrArg BitVec.toNat (State.rd_report s e ROUND_COUNT (by decide) (.inl (by decide)))).trans hs.1, ?_⟩
    rw [State.report_boot]
    exact hs.2
  all_goals intros; assumption

theorem CountsRound.countRound {s : State} (n : Nat) (hs : CountsRound n s) : CountsRound ((n + 1) % 2 ^ 64) s.countRound := by
  obtain ⟨hround, hdue⟩ := hs
  refine ⟨?_, hdue⟩
  show ((s.wrN ROUND_COUNT ((s.round + 1) % 2 ^ 64)).wrN ROUND_PHASE 0).rdN ROUND_COUNT = _
  rw [State.rdN_wrN_other _ _ _ _ (by decide), State.rdN_wrN_same, hround, Nat.mod_mod]

/-- With no reset due, none acts at the boundary. -/
theorem State.resetBoundary_none (s : State) (h : s.boot.due = []) : s.resetBoundary = s := by
  unfold State.resetBoundary
  rw [h]
  rfl

/-- A boundary with no reset due counts one round. -/
theorem CountsRound.boundary {s : State} (n : Nat) (energy : List EnergyPart) (hs : CountsRound n s) :
    CountsRound ((n + 1) % 2 ^ 64) (s.boundary energy) := by
  have hclosed := roundClosed_countsRound ((n + 1) % 2 ^ 64)
  unfold State.boundary
  extract_lets s₁
  have hs₁ : CountsRound ((n + 1) % 2 ^ 64) s₁ := hclosed.latchAll (CountsRound.countRound n ((roundClosed_countsRound n).roundEnd hs))
  have hblocks := hclosed.bootBoundary (hclosed.blocksBoundary (hclosed.energyRound (parts := energy) hs₁))
  rw [State.resetBoundary_none _ hblocks.2]
  exact hblocks

/-- Settles O16: the counter rises as the round is counted, and nothing else that the blocks do at the boundary writes it. -/
theorem roundCounterRisesByOne : Obligations.RoundCounterRisesByOne := by
  intro energy s hup hlow hdue
  have htick : (s.boot.supply == .up && !s.boot.resetLow) = true := by rw [hup, hlow]; decide
  exact ⟨s.boundary energy, congrArg Host.Outcome.next (if_pos htick), (CountsRound.boundary s.round energy ⟨rfl, hdue⟩).1⟩

end Sys2Proof.Machine
end

section
/-! SUPPORT. What leaves the rings alone: the operations of the other blocks write no register of a ring (0x30000 to 0x6FFFF) and hold nothing of a ring. -/

namespace Sys2Proof.Machine
open Reg

/-! ### Offsets of the rings' registers -/

/-- The offset of a register of some ring. -/
def InRings (o : Nat) : Prop := 0x30000 ≤ o ∧ o < 0x70000

/-- The offset is that of no ring's register. -/
def Outside (o : Nat) : Prop := o < 0x30000 ∨ 0x70000 ≤ o

/-- A register of a ring lies among the rings' registers. -/
theorem inRings {b : Nat} (r : Ring) (hlo : Nat.ble 0x30000 b = true) (hhi : Nat.ble b 0x3003F = true) : InRings (b + 0x40 * r) := by
  have hr := r.isLt
  have hb := Nat.le_of_ble_eq_true hlo
  have hb' := Nat.le_of_ble_eq_true hhi
  unfold InRings
  omega

/-- Two registers of rings whose places in the ring's block differ are not the same. -/
theorem ringReg_ne {a b i j : Nat} (h : Nat.beq (a % 0x40) (b % 0x40) = false) : a + 0x40 * i ≠ b + 0x40 * j := by
  have := Nat.ne_of_beq_eq_false h
  omega

/-- A register that stands alone above the rings. -/
theorem outside {o : Nat} (h : Nat.ble 0x70000 o = true) : Outside o := .inr (Nat.le_of_ble_eq_true h)

/-- A register that is one of several, above the rings. -/
theorem outside_add {b k : Nat} (h : Nat.ble 0x70000 b = true) : Outside (b + k) :=
  .inr (le_trans (Nat.le_of_ble_eq_true h) (Nat.le_add_right b k))

theorem Outside.ite (c : Prop) [Decidable c] {f g : Fld} (hf : Outside f.reg) (hg : Outside g.reg) : Outside (if c then f else g).reg := by
  split <;> assumption

/-! ### What leaves the rings alone -/

/-- `t` has the registers of the rings, and what the rings hold beyond them, as `s` has them. -/
structure Aside (s t : State) : Prop where
  rd : ∀ o, InRings o → t.rd o = s.rd o
  rings : t.rings = s.rings

namespace Aside
variable {s t u : State}

theorem refl (s : State) : Aside s s := ⟨fun _ _ => rfl, rfl⟩

theorem trans (h : Aside s t) (k : Aside t u) : Aside s u := ⟨fun o ho => (k.rd o ho).trans (h.rd o ho), k.rings.trans h.rings⟩

theorem of_spent (h : Spent s t) : Aside s t := by
  refine ⟨fun o ho => h.rd o ?_, ?_⟩
  · have := ho.2
    unfold MEMCTL_CLASS_BYTES
    omega
  · obtain ⟨⟨_, _, rfl⟩, _⟩ := h
    rfl

theorem get (h : Aside s t) (g : Fld) (hg : InRings g.reg) : t.get g = s.get g := by simp only [State.get, h.rd _ hg]
theorem on (h : Aside s t) (g : Fld) (hg : InRings g.reg) : t.on g = s.on g := by simp only [State.on, h.get g hg]
theorem rdN (h : Aside s t) (o : Nat) (ho : InRings o) : t.rdN o = s.rdN o := by simp only [State.rdN, h.rd _ ho]
theorem ring (h : Aside s t) (r : Nat) : t.ring r = s.ring r := by simp only [State.ring, h.rings]
theorem ringState (h : Aside s t) (r : Ring) : t.ringState r = s.ringState r := h.get _ (inRings r rfl rfl)

theorem ite (c : Prop) [Decidable c] {a b : State} (ha : Aside s a) (hb : Aside s b) : Aside s (if c then a else b) := by
  split <;> assumption

variable (h : Aside s t)
include h

/-- An update of neither the registers nor what the rings hold. -/
theorem same (hregs : u.regs = t.regs) (hrings : u.rings = t.rings) : Aside s u :=
  ⟨fun o ho => by rw [← h.rd o ho, State.rd, hregs, State.rd], hrings.trans h.rings⟩

/-- A fold over a list leaves the rings alone if each of its steps does. -/
theorem each {α : Type} {f : State → α → State} (hf : ∀ v x, Aside s v → Aside s (f v x)) (l : List α) : Aside s (t.each l f) := by
  unfold State.each
  induction l generalizing t with
  | nil => exact h
  | cons x l ih => exact ih (hf t x h)

/-! ### Updates of the other parts of the state -/

theorem setActing {l} : Aside s (t.setActing l) := h.same rfl rfl
theorem setRnd {f} : Aside s (t.setRnd f) := h.same rfl rfl
theorem setTxn {f} : Aside s (t.setTxn f) := h.same rfl rfl
theorem setFloor {f} : Aside s (t.setFloor f) := h.same rfl rfl
theorem setServe {f} : Aside s (t.setServe f) := h.same rfl rfl
theorem setMemc {f} : Aside s (t.setMemc f) := h.same rfl rfl
theorem setFab {f} : Aside s (t.setFab f) := h.same rfl rfl
theorem setXp {f} : Aside s (t.setXp f) := h.same rfl rfl
theorem setRelay {f} : Aside s (t.setRelay f) := h.same rfl rfl
theorem setFw {f} : Aside s (t.setFw f) := h.same rfl rfl
theorem putPoison {l} : Aside s (t.putPoison l) := h.same rfl rfl
theorem setLedgerRun {n} : Aside s (t.setLedgerRun n) := h.same rfl rfl
theorem sendIrq {i} : Aside s (t.sendIrq i) := h.same rfl rfl
theorem wrMem {a b} : Aside s (t.wrMem a b) := h.same rfl rfl
theorem wrHost {a b} : Aside s (t.wrHost a b) := h.same rfl rfl
theorem keepMem {p} : Aside s (t.keepMem p) := h.same rfl rfl

/-! ### Writes of registers above or below the rings -/

theorem wr {o v} (ho : Outside o) : Aside s (t.wr o v) := by
  refine ⟨fun i hi => (State.rd_wr_other t o i v ?_).trans (h.rd i hi), h.rings⟩
  rintro rfl
  unfold InRings at hi
  unfold Outside at ho
  omega

theorem wrN {o n} (ho : Outside o) : Aside s (t.wrN o n) := h.wr ho
theorem put {f n} (ho : Outside f.reg) : Aside s (t.put f n) := h.wr ho
theorem putB {f b} (ho : Outside f.reg) : Aside s (t.putB f b) := h.wr ho
theorem setBit {o i b} (ho : Outside o) : Aside s (t.setBit o i b) := h.wr ho
theorem addSat {o n} (ho : Outside o) : Aside s (t.addSat o n) := h.wr ho
theorem add64 {o n} (ho : Outside o) : Aside s (t.add64 o n) := h.wr ho
theorem clearNow {f} (ho : Outside f.reg) : Aside s (t.clearNow f) := h.setActing.put ho
theorem atNs {n} : Aside s (t.atNs n) := h.setRnd.wrN (.inl (by decide))

theorem report {e} : Aside s (t.report e) := by
  refine ⟨fun o ho => (State.rd_report t e o ?_ (.inl ?_)).trans (h.rd o ho), (State.report_rings t e).trans h.rings⟩
  · rintro rfl
    exact absurd ho.2 (by decide)
  · have := ho.2
    omega

/-! ### Interrupts -/

theorem msix {f v} : Aside s (t.msix f v) := by
  unfold State.msix
  exact Aside.ite _ h h.sendIrq

theorem coreIrq {b n v} : Aside s (t.coreIrq b n v) := by
  unfold State.coreIrq
  exact Aside.ite _ h.sendIrq h

theorem irqTo {f v n} : Aside s (t.irqTo f v n) := by
  unfold State.irqTo
  exact Aside.ite _ h.msix (Aside.ite _ h.coreIrq (Aside.ite _ h.coreIrq h))

/-! ### Device and host memory -/

theorem accReport {e} : Aside s (t.accReport e) := by
  unfold State.accReport
  split
  · exact h.report.wrN (outside rfl)
  · exact h.report
  · exact h.report
  · exact h.report
  · exact h

theorem setPoison {l} : Aside s (t.setPoison l) := h.putPoison.put (outside rfl)

theorem writeLine {a b} : Aside s (t.writeLine a b) :=
  Aside.ite _ h.report (Aside.ite _ (Aside.ite _ h.setPoison.wrMem h.report) h.wrMem)

theorem eccWord {x} : Aside s (t.eccWord x) := by
  unfold State.eccWord
  extract_lets cache s₁
  have hs₁ : Aside s s₁ := h.setFloor
  split
  · exact h
  · extract_lets s₂ f s₃
    have hs₂ : Aside s s₂ := Aside.ite _ (hs₁.put (outside_add rfl)) (hs₁.put (outside_add rfl))
    have hs₃ : Aside s s₃ := hs₂.putB (Outside.ite _ (outside_add rfl) (outside_add rfl))
    exact Aside.ite _ (hs₂.put (Outside.ite _ (outside_add rfl) (outside_add rfl))).report hs₃.putPoison.report

theorem eccRead {a n} : Aside s (t.eccRead a n) := h.each (fun _ _ hv => hv.eccWord) _

theorem freshWord {w} : Aside s (t.freshWord w) := by
  unfold State.freshWord
  extract_lets s₁
  have hs₁ : Aside s s₁ := Aside.ite _ h.setFloor h
  exact Aside.ite _ hs₁.putPoison hs₁

theorem writeSram {a b} : Aside s (t.writeSram a b) := by
  unfold State.writeSram
  extract_lets w s₁
  have hs₁ : Aside s s₁ := h.eccRead
  exact Aside.ite _ h.report (Aside.ite _ (Aside.ite _ h.freshWord.wrMem (Aside.ite _ hs₁ hs₁.wrMem)) h)

theorem store {a b} : Aside s (t.store a b) :=
  Aside.ite _ (h.each (fun _ _ hv => hv.writeSram) _) (h.each (fun _ _ hv => hv.writeLine) _)

theorem zeroMem {a n} : Aside s (t.zeroMem a n) := h.keepMem.setPoison.each (fun _ _ hv => hv.report) _

theorem fnWrite {f a b} : Aside s (t.fnWrite f a b).1 := by
  unfold State.fnWrite
  split
  · exact h.accReport
  · exact h.store

theorem addrWrite {f a b} : Aside s (t.addrWrite f a b).1 := by
  unfold State.addrWrite
  split
  · split
    · exact h
    · split
      · exact h.wrHost
      · exact h.accReport (e := .host)
  · exact h.fnWrite

theorem traffic {k who a n} : Aside s (t.traffic k who a n) := h.trans (of_spent (Spent.traffic t k who a n))

/-! ### The firmware log ring and receipts -/

theorem ledgerPut {e} : Aside s (t.ledgerPut e) := by
  unfold State.ledgerPut
  extract_lets j a s₁
  have hs₁ : Aside s s₁ := Aside.ite _ h h.traffic
  split
  · next s' heq =>
    have hs' : Aside s s' := of_fst hs₁.addrWrite heq
    exact hs'.wrN (outside rfl)
  · next s' _ heq =>
    have hs' : Aside s s' := of_fst hs₁.addrWrite heq
    exact (hs'.clearNow (outside rfl)).report

theorem ledger {e} : Aside s (t.ledger e) := by
  unfold State.ledger
  refine Aside.ite _ h (Aside.ite _ ?_ ?_)
  · extract_lets s'
    have hs' : Aside s s' := h.setLedgerRun.addSat (outside rfl)
    exact Aside.ite _ hs'.report hs'
  · extract_lets s'
    have hs' : Aside s s' := Aside.ite _ h (h.setLedgerRun.ledgerPut)
    exact Aside.ite _ hs'.ledgerPut hs'

theorem endStamp {r f status} : Aside s (t.endStamp r f status) := Aside.ite _ h.ledger h

theorem signal {src i max? v} : Aside s (t.signal src i max? v) := by
  unfold State.signal
  refine Aside.ite _ ?_ h
  extract_lets c ops s₁ s₂
  have hs₂ : Aside s s₂ := h.wrMem.setRnd
  exact Aside.ite _ (hs₂.setBit (outside rfl)).report hs₂

end Aside

end Sys2Proof.Machine
end

section
/-! SUPPORT. What the ring engine does to a ring (Envelopes §5, §8): the writing of records, the end of STOPPING, the way into it, and the completion of an
envelope. -/

namespace Sys2Proof.Machine
open Reg

@[simp] theorem State.ring_setRing_same (s : State) (r : Nat) (d : RingDyn) : (s.setRing r d).ring r = d := SMap.get_set_same _ _ _ _

/-! ### The state of a ring -/

@[simp] theorem State.ringState_setRing (s : State) (r k : Nat) (d : RingDyn) : (s.setRing k d).ringState r = s.ringState r := rfl
@[simp] theorem State.rd_closeSessions (s : State) (r o : Nat) : (s.closeSessions r).rd o = s.rd o := rfl
@[simp] theorem State.ringState_closeSessions (s : State) (r k : Nat) : (s.closeSessions k).ringState r = s.ringState r := rfl
@[simp] theorem State.mem_closeSessions (s : State) (r : Nat) : (s.closeSessions r).mem = s.mem := rfl

/-- The STATE field of a ring after a write of that of ring `k`. -/
theorem State.ringState_put_state (s : State) (r k n : Nat) :
    (s.put (RINGS_STATUS_STATE k) n).ringState r = if r = k then n % 4 else s.ringState r := by
  split
  · next h => rw [h]; exact s.get_put_same (RINGS_STATUS_STATE k) n (Nat.zero_le 1) (by decide : 1 < 64)
  · next h => exact s.get_put_other _ _ n (by show 0x30018 + 0x40 * r ≠ 0x30018 + 0x40 * k; omega)

/-- A write of a field above STATE, of whatever register, leaves the state of a ring. -/
theorem State.ringState_put_above (s : State) (f : Fld) (n r : Nat) (hw : f.lo ≤ f.hi) (hh : f.hi < 64) (hl : 1 < f.lo) :
    (s.put f n).ringState r = s.ringState r := s.get_put_apart f _ n hw hh (.inr hl)

theorem State.ringState_wrN_other (s : State) (o n r : Nat) (h : RINGS_STATUS r ≠ o) : (s.wrN o n).ringState r = s.ringState r :=
  s.get_wrN_other o n _ h

theorem State.ringState_putB_other (s : State) (f : Fld) (b : Bool) (r : Nat) (h : RINGS_STATUS r ≠ f.reg) : (s.putB f b).ringState r = s.ringState r :=
  s.get_put_other f _ _ h

/-! ### Records -/

/-- From `s` to `t` the ring engine has taken the envelopes `gone` off the front of ring `r`, and has written RET_TAIL and RET_FULL of the ring alone. -/
structure Logged (r : Nat) (gone : List Flight) (s t : State) : Prop where
  rd : ∀ o, InRings o → o ≠ RINGS_RET_TAIL r → o ≠ RINGS_STATUS r → t.rd o = s.rd o
  state : ∀ k : Ring, t.ringState k = s.ringState k
  disabling : (t.ring r).disabling = (s.ring r).disabling
  flights : (s.ring r).flights = gone ++ (t.ring r).flights

namespace Logged
variable {r : Nat} {gone gone' : List Flight} {s t u : State}

theorem of_aside (h : Aside s t) : Logged r [] s t :=
  ⟨fun o ho _ _ => h.rd o ho, fun k => h.ringState k, by rw [h.ring], by rw [h.ring]; rfl⟩

theorem trans (h : Logged r gone s t) (k : Logged r gone' t u) : Logged r (gone ++ gone') s u where
  rd o ho h1 h2 := (k.rd o ho h1 h2).trans (h.rd o ho h1 h2)
  state i := (k.state i).trans (h.state i)
  disabling := k.disabling.trans h.disabling
  flights := by rw [h.flights, k.flights, List.append_assoc]

theorem setRing {d : RingDyn} (hd : d.disabling = (s.ring r).disabling) (hf : (s.ring r).flights = gone ++ d.flights) : Logged r gone s (s.setRing r d) where
  rd _ _ _ _ := rfl
  state _ := rfl
  disabling := by rw [State.ring_setRing_same, hd]
  flights := by rw [State.ring_setRing_same, hf]

theorem setDyn {d : RingDyn} (hd : d.disabling = (s.ring r).disabling) (hf : d.flights = (s.ring r).flights) : Logged r [] s (s.setRing r d) :=
  setRing hd hf.symm

theorem retTail (s : State) (n : Nat) : Logged r [] s (s.wrN (RINGS_RET_TAIL r) n) where
  rd o _ h _ := s.rd_wrN_other _ o n h
  state k := s.ringState_wrN_other _ n k (ringReg_ne rfl)
  disabling := rfl
  flights := rfl

theorem retFull (s : State) (b : Bool) : Logged r [] s (s.putB (RINGS_STATUS_RET_FULL r) b) where
  rd o _ _ h := s.rd_put_other _ _ o h
  state k := s.ringState_put_above _ _ k (Nat.le_refl 8) (by decide : 8 < 64) (by decide : 1 < 8)
  disabling := rfl
  flights := rfl

theorem countIrq (s : State) : Logged r [] s (s.countIrq r) := by
  unfold State.countIrq
  extract_lets d n
  have hdyn : ∀ p q, Logged r [] s (s.setRing r { d with irqPend := p, irqSince := q }) := fun p q => setDyn rfl rfl
  split
  · exact (hdyn 0 none).trans (of_aside (Aside.refl _).irqTo)
  · exact hdyn n _

theorem putRecord (s : State) (mk : Nat → Bytes) (irq : Bool) : Logged r [] s (s.putRecord r mk irq) := by
  unfold State.putRecord
  extract_lets j s₁ s₂
  have hs₂ : Logged r [] s s₂ := (of_aside (Aside.refl s).addrWrite.traffic).trans (retTail _ _)
  split
  · exact hs₂.trans (countIrq s₂)
  · exact hs₂

theorem flightRecord (s : State) (f : Flight) : Logged r [] s (s.flightRecord r f) := putRecord s _ _

/-- The records of the completed envelopes at the front are written, and those envelopes are taken off. -/
theorem flushFlights (l : List Flight) (s : State) (hl : (s.ring r).flights = l) :
    ∃ gone, (∀ f ∈ gone, f.stage = .done) ∧ Logged r gone s (s.flushFlights r l) := by
  induction l generalizing s with
  | nil => exact ⟨[], by simp, of_aside (Aside.refl s)⟩
  | cons f l ih =>
    have hstay : ∃ gone, (∀ x ∈ gone, x.stage = .done) ∧ Logged r gone s s := ⟨[], by simp, of_aside (Aside.refl s)⟩
    have hoff : Logged r [f] s (s.setRing r { s.ring r with flights := l }) := Logged.setRing rfl hl
    have hnext : ∀ t, Logged r [f] s t → (t.ring r).flights = l → f.stage = .done →
        ∃ gone, (∀ x ∈ gone, x.stage = .done) ∧ Logged r gone s (t.flushFlights r l) := fun t ht htl hdone => by
      obtain ⟨gone, hgone, hlog⟩ := ih t htl
      exact ⟨f :: gone, List.forall_mem_cons.mpr ⟨hdone, hgone⟩, ht.trans hlog⟩
    rw [State.flushFlights]
    split
    · next hdone =>
      split
      · exact hnext _ hoff (by rw [State.ring_setRing_same]) hdone
      · split
        · have hrec := hoff.trans (flightRecord _ f)
          exact hnext _ hrec (List.cons.inj (hrec.flights.symm.trans hl)).2 hdone
        · exact hstay
    · exact hstay

theorem flushUnsol (l : List Unsol) (s : State) : Logged r [] s (s.flushUnsol r l) := by
  induction l generalizing s with
  | nil => exact of_aside (Aside.refl s)
  | cons u l ih =>
    rw [State.flushUnsol]
    split
    · have hdyn : Logged r [] s (s.setRing r { s.ring r with unsol := l }) := setDyn rfl rfl
      exact (hdyn.trans (putRecord _ _ _)).trans (ih _)
    · exact of_aside (Aside.refl s)

/-- Writing all records that may be written takes completed envelopes off the front. -/
theorem flush (s : State) : ∃ gone, (∀ f ∈ gone, f.stage = .done) ∧ Logged r gone s (s.flush r) := by
  obtain ⟨gone, hgone, hlog⟩ := flushFlights (r := r) _ s rfl
  refine ⟨gone, hgone, ?_⟩
  unfold State.flush
  extract_lets s₁ s₂
  have hs₂ : Logged r gone s s₂ := List.append_nil gone ▸ hlog.trans (flushUnsol _ _)
  split
  · exact List.append_nil gone ▸ hs₂.trans (retFull _ _)
  · exact hs₂

end Logged

/-- A register of the rings that records do not touch reads the same after a flush. -/
theorem State.rd_flush (s : State) (r o : Nat) (ho : InRings o) (ht : o ≠ RINGS_RET_TAIL r) (hs : o ≠ RINGS_STATUS r) : (s.flush r).rd o = s.rd o := by
  obtain ⟨_, _, hlog⟩ := Logged.flush (r := r) s
  exact hlog.rd o ho ht hs

@[simp] theorem State.ringState_flush (s : State) (r : Nat) (k : Ring) : (s.flush r).ringState k = s.ringState k := by
  obtain ⟨_, _, hlog⟩ := Logged.flush (r := r) s
  exact hlog.state k

/-- An envelope that has not completed is still there after a flush. -/
theorem State.mem_flights_flush (s : State) (r : Nat) (f : Flight) (hf : f ∈ (s.ring r).flights) (hd : f.stage ≠ .done) : f ∈ ((s.flush r).ring r).flights := by
  obtain ⟨gone, hgone, hlog⟩ := Logged.flush (r := r) s
  rw [hlog.flights, List.mem_append] at hf
  exact hf.resolve_left fun hg => hd (hgone f hg)

/-! ### DISABLED -/

/-- The registers of a ring that read zero once it is DISABLED. -/
def clearedRegs (r : Nat) : List Nat := [RINGS_CTRL r, RINGS_SUB_TAIL r, RINGS_SUB_HEAD r, RINGS_RET_TAIL r, RINGS_RET_HEAD r]

theorem State.rd_ringOff_cleared (s : State) (r o : Nat) (h : o ∈ clearedRegs r) : (s.ringOff r).rd o = 0 := by
  simp only [clearedRegs, List.mem_cons, List.not_mem_nil, or_false] at h
  simp only [State.ringOff, State.setRing_rd, State.wrN, State.rd_wr]
  rcases h with rfl | rfl | rfl | rfl | rfl <;> simp

theorem State.rd_ringOff_other (s : State) (r o : Nat) (h : o ∉ clearedRegs r) (hs : o ≠ RINGS_STATUS r) : (s.ringOff r).rd o = s.rd o := by
  simp only [clearedRegs, List.mem_cons, List.not_mem_nil, or_false, not_or] at h
  obtain ⟨hctrl, hst, hsh, hrt, hrh⟩ := h
  unfold State.ringOff
  rw [State.setRing_rd, State.rd_wrN_other _ _ _ _ hrh, State.rd_wrN_other _ _ _ _ hrt, State.rd_wrN_other _ _ _ _ hsh, State.rd_wrN_other _ _ _ _ hst,
    State.rd_wrN_other _ _ _ _ hctrl]
  rw [State.putB, State.rd_put_other _ _ _ _ hs, State.rd_put_other _ _ _ _ hs, State.rd_closeSessions]

theorem State.rdN_ringOff_cleared (s : State) (r o : Nat) (h : o ∈ clearedRegs r) : (s.ringOff r).rdN o = 0 := by
  rw [State.rdN, s.rd_ringOff_cleared r o h]
  rfl

@[simp] theorem State.ring_ringOff (s : State) (r : Nat) : (s.ringOff r).ring r = {} := State.ring_setRing_same _ r {}

theorem State.ringState_ringOff (s : State) (r k : Nat) : (s.ringOff k).ringState r = if r = k then 0 else s.ringState r := by
  have hother : ∀ (u : State) (o : Nat), o ∈ clearedRegs k → (u.wrN o 0).ringState r = u.ringState r := fun u o ho => by
    refine u.ringState_wrN_other o 0 r ?_
    simp only [clearedRegs, List.mem_cons, List.not_mem_nil, or_false] at ho
    rcases ho with rfl | rfl | rfl | rfl | rfl <;> exact ringReg_ne rfl
  unfold State.ringOff
  rw [State.ringState_setRing, hother _ (RINGS_RET_HEAD k) (by simp [clearedRegs]), hother _ (RINGS_RET_TAIL k) (by simp [clearedRegs]), hother _ (RINGS_SUB_HEAD k) (by simp [clearedRegs]),
    hother _ (RINGS_SUB_TAIL k) (by simp [clearedRegs]), hother _ (RINGS_CTRL k) (by simp [clearedRegs]), State.putB,
    State.ringState_put_above _ _ _ _ (Nat.le_refl 8) (by decide : 8 < 64) (by decide : 1 < 8), State.ringState_put_state, State.ringState_closeSessions]

theorem State.ringState_ringOff_same (s : State) (r : Nat) : (s.ringOff r).ringState r = 0 := by rw [s.ringState_ringOff, if_pos rfl]

/-- The four counts of a ring that has entered DISABLED are 0. -/
theorem State.counts_ringOff (s : State) (r : Nat) : (s.ringOff r).rdN (RINGS_SUB_TAIL r) = 0 ∧ (s.ringOff r).rdN (RINGS_SUB_HEAD r) = 0 ∧
    (s.ringOff r).rdN (RINGS_RET_TAIL r) = 0 ∧ (s.ringOff r).rdN (RINGS_RET_HEAD r) = 0 := by
  refine ⟨?_, ?_, ?_, ?_⟩ <;> exact s.rdN_ringOff_cleared r _ (by simp [clearedRegs])

theorem State.on_ringOff_ctrl (s : State) (r : Nat) (f : Fld) (h : f.reg = RINGS_CTRL r) : (s.ringOff r).on f = false := by
  rw [State.on, State.get, h, s.rd_ringOff_cleared r _ (by simp [clearedRegs])]
  simp [Word.bits]

@[simp] theorem State.mem_ringOff (s : State) (r : Nat) : (s.ringOff r).mem = s.mem := by simp [State.ringOff]

theorem State.rdN_done_ringOff (s : State) (r : Nat) : (s.ringOff r).rdN (RINGS_DONE_COUNT r) = s.rdN (RINGS_DONE_COUNT r) := by
  have hnot : RINGS_DONE_COUNT r ∉ clearedRegs r := by
    simp only [clearedRegs, List.mem_cons, List.not_mem_nil, or_false, not_or]
    exact ⟨ringReg_ne rfl, ringReg_ne rfl, ringReg_ne rfl, ringReg_ne rfl, ringReg_ne rfl⟩
  exact congrArg BitVec.toNat (s.rd_ringOff_other r _ hnot (ringReg_ne rfl))

/-! ### The end of STOPPING -/

/-- The ring is STOPPED, and STOP and ABORT are clear. -/
def State.stopped (s : State) (r : Nat) : State := ((s.put (RINGS_STATUS_STATE r) 3).putB (RINGS_CTRL_STOP r) false).putB (RINGS_CTRL_ABORT r) false

theorem State.ringState_stopped (s : State) (r k : Nat) : (s.stopped k).ringState r = if r = k then 3 else s.ringState r := by
  unfold State.stopped
  rw [State.ringState_putB_other _ (RINGS_CTRL_ABORT k) _ _ (ringReg_ne rfl), State.ringState_putB_other _ (RINGS_CTRL_STOP k) _ _ (ringReg_ne rfl), s.ringState_put_state]

theorem State.on_stopped_stop (s : State) (r : Nat) : (s.stopped r).on (RINGS_CTRL_STOP r) = false :=
  (State.on_putB_apart _ _ _ false (Nat.le_refl 2) (by decide : 2 < 64) (.inr (by decide : 1 < 2))).trans
    (State.on_putB_same _ (RINGS_CTRL_STOP r) false rfl (by decide : 1 < 64))

theorem State.on_stopped_abort (s : State) (r : Nat) : (s.stopped r).on (RINGS_CTRL_ABORT r) = false :=
  State.on_putB_same _ (RINGS_CTRL_ABORT r) false rfl (by decide : 2 < 64)

theorem State.rdN_done_stopped (s : State) (r : Nat) : (s.stopped r).rdN (RINGS_DONE_COUNT r) = s.rdN (RINGS_DONE_COUNT r) := by
  unfold State.stopped
  have hctrl : RINGS_DONE_COUNT r ≠ RINGS_CTRL r := ringReg_ne rfl
  have hstatus : RINGS_DONE_COUNT r ≠ RINGS_STATUS r := ringReg_ne rfl
  rw [State.putB, State.rdN_put_other _ _ _ _ hctrl, State.putB, State.rdN_put_other _ _ _ _ hctrl, State.rdN_put_other _ _ _ _ hstatus]

/-- What the end of STOPPING can do: nothing, or stop the ring, or disable it as well. -/
theorem State.ringSettle_cases (s : State) (r : Nat) :
    s.ringSettle r = s ∨ s.ringSettle r = s.stopped r ∨ s.ringSettle r = (s.stopped r).ringOff r := by
  unfold State.ringSettle
  split
  · dsimp only
    split
    · exact .inr (.inr rfl)
    · exact .inr (.inl rfl)
  · exact .inl rfl

theorem State.ringSettle_of_not_stopping (s : State) (r : Nat) (h : s.ringState r ≠ 2) : s.ringSettle r = s := by
  rw [State.ringSettle, if_neg (by simp [h])]

/-- A ring with a started envelope does not stop yet. -/
theorem State.ringSettle_of_started (s : State) (r : Nat) (f : Flight) (hf : f ∈ (s.ring r).flights) (hs : f.stage = .started) : s.ringSettle r = s := by
  have hany : ((s.ring r).flights.any fun f => f.stage == .started || f.stage == .ended) = true := List.any_eq_true.mpr ⟨f, hf, by simp [hs]⟩
  rw [State.ringSettle, if_neg (by simp [hany])]

/-- A STOPPING ring all of whose envelopes have completed stops. -/
theorem State.ringSettle_of_done (s : State) (r : Nat) (h : s.ringState r = 2) (hf : ∀ f ∈ (s.ring r).flights, f.stage = .done) :
    s.ringSettle r = if (s.ring r).disabling then (s.stopped r).ringOff r else s.stopped r := by
  have hany : ((s.ring r).flights.any fun f => f.stage == .started || f.stage == .ended) = false :=
    List.any_eq_false.mpr fun f hm => by simp [hf f hm]
  rw [State.ringSettle, if_pos (by simp [h, hany])]
  rfl

theorem State.rdN_done_ringSettle (s : State) (r : Nat) : (s.ringSettle r).rdN (RINGS_DONE_COUNT r) = s.rdN (RINGS_DONE_COUNT r) := by
  rcases s.ringSettle_cases r with h | h | h <;> rw [h]
  · exact s.rdN_done_stopped r
  · rw [State.rdN_done_ringOff, s.rdN_done_stopped]

/-! ### The way into STOPPING -/

theorem cancelFetched_of_fetched (now : Nat) (f : Flight) (h : f.stage = .fetched ∨ f.stage = .done) : (cancelFetched now f).stage = .done := by
  unfold cancelFetched
  rcases h with h | h <;> simp [h]

theorem cancelFetched_of_started (now : Nat) (f : Flight) (h : f.stage = .started) : cancelFetched now f = f := by
  simp [cancelFetched, h]

/-- What stays the same of an envelope that a stop finds started. -/
theorem started_of_cancelFetched (now : Nat) (f : Flight) (h : (cancelFetched now f).stage = .started) : cancelFetched now f = f := by
  unfold cancelFetched at h ⊢
  split at h
  · cases h
  · next hf => rw [if_neg hf]

/-- Ring `r`, RUNNING in `s`, has entered STOPPING in `v`: its fetched envelopes have completed, and of the completed ones some have left it. -/
structure Cancelled (r : Ring) (s v : State) : Prop where
  state : v.ringState r = 2
  ctrl : v.rd (RINGS_CTRL r) = s.rd (RINGS_CTRL r)
  disabling : (v.ring r).disabling = (s.ring r).disabling
  flights : ∃ gone, (∀ f ∈ gone, f.stage = .done) ∧ (s.ring r).flights.map (cancelFetched s.round) = gone ++ (v.ring r).flights

namespace Cancelled
variable {r : Ring} {s v : State} (h : Cancelled r s v)
include h

theorem all_done (hf : ∀ f ∈ (s.ring r).flights, f.stage = .fetched ∨ f.stage = .done) : ∀ f ∈ (v.ring r).flights, f.stage = .done := by
  obtain ⟨gone, _, heq⟩ := h.flights
  intro f hv
  obtain ⟨x, hx, rfl⟩ := List.mem_map.mp (heq ▸ List.mem_append_right gone hv)
  exact cancelFetched_of_fetched _ x (hf x hx)

/-- An envelope that has started stays. -/
theorem started_stays {f : Flight} (hf : f ∈ (s.ring r).flights) (hs : f.stage = .started) : f ∈ (v.ring r).flights := by
  obtain ⟨gone, hgone, heq⟩ := h.flights
  have hmem : f ∈ gone ++ (v.ring r).flights := heq ▸ List.mem_map.mpr ⟨f, hf, cancelFetched_of_started _ f hs⟩
  refine (List.mem_append.mp hmem).resolve_left fun hg => ?_
  cases hs.symm.trans (hgone f hg)

/-- Every started envelope was there before. -/
theorem started_before {f : Flight} (hf : f ∈ (v.ring r).flights) (hs : f.stage = .started) : f ∈ (s.ring r).flights := by
  obtain ⟨gone, _, heq⟩ := h.flights
  obtain ⟨x, hx, hxf⟩ := List.mem_map.mp (heq ▸ List.mem_append_right gone hf)
  rw [← hxf, started_of_cancelFetched _ x (hxf ▸ hs)]
  exact hx

end Cancelled

/-- A RUNNING ring enters STOPPING, and leaves it at once if nothing runs. -/
theorem State.ringStopping_eq (s : State) (r : Ring) (h : s.ringState r = 1) : ∃ v, Cancelled r s v ∧ s.ringStopping r = v.ringSettle r := by
  obtain ⟨u, hu, heq⟩ : ∃ u, Aside (s.setRing r { s.ring r with flights := (s.ring r).flights.map (cancelFetched s.round) }) u ∧
      ∃ n, s.ringStopping r = ((((u.put (RINGS_STATUS_STATE r) 2).add64 (RINGS_DONE_COUNT r) n).flush r).ringSettle r) := by
    rw [State.ringStopping, if_pos h]
    exact ⟨_, (Aside.refl _).each (fun _ _ hv => hv.endStamp) _, _, rfl⟩
  obtain ⟨n, heq⟩ := heq
  obtain ⟨gone, hgone, hlog⟩ := Logged.flush (r := r) ((u.put (RINGS_STATUS_STATE r) 2).add64 (RINGS_DONE_COUNT r) n)
  refine ⟨_, ⟨?_, ?_, ?_, gone, hgone, ?_⟩, heq⟩
  · rw [State.ringState_flush, State.add64, State.ringState_wrN_other _ (RINGS_DONE_COUNT r) _ _ (ringReg_ne rfl), State.ringState_put_state, if_pos rfl]
  · have hdone : RINGS_CTRL r ≠ RINGS_DONE_COUNT r := ringReg_ne rfl
    have hstatus : RINGS_CTRL r ≠ RINGS_STATUS r := ringReg_ne rfl
    rw [State.rd_flush _ r (RINGS_CTRL r) (inRings r rfl rfl) (ringReg_ne rfl) hstatus, State.add64, State.rd_wrN_other _ _ _ _ hdone, State.rd_put_other _ _ _ _ hstatus,
      hu.rd (RINGS_CTRL r) (inRings r rfl rfl)]
    rfl
  · refine hlog.disabling.trans ?_
    show (u.ring r).disabling = _
    rw [hu.ring, State.ring_setRing_same]
  · refine Eq.trans ?_ hlog.flights
    show _ = (u.ring r).flights
    rw [hu.ring, State.ring_setRing_same]

/-! ### The completion of an envelope -/

/-- An envelope that completes with OK or CANCELLED is counted, its record is written in its turn, and its ring stops if nothing else runs. -/
theorem State.complete_eq (s : State) (r seq status result : Nat) {f : Flight} (hf : s.flight r seq = some f) (hd : f.stage ≠ .done)
    (hok : status = 0 ∨ status = 9) : ∃ u g, Aside s u ∧
      s.complete r seq status result = ((((u.setFlight r seq g).add64 (RINGS_DONE_COUNT r) 1).flush r).ringSettle r) := by
  have hfails : (status != 0 && status != 9) = false := by rcases hok with rfl | rfl <;> rfl
  unfold State.complete
  rw [hf]
  simp only [hd, if_false, hfails, Bool.false_eq_true, Bool.false_and]
  exact ⟨_, _, (Aside.ite _ (Aside.refl s).signal (Aside.refl s)).endStamp, rfl⟩

/-- DONE_COUNT rises by one as an envelope completes with OK or CANCELLED. -/
theorem State.done_complete (s : State) (r : Ring) (seq status result : Nat) {f : Flight} (hf : s.flight r seq = some f) (hd : f.stage ≠ .done)
    (hok : status = 0 ∨ status = 9) :
    (s.complete r seq status result).rdN (RINGS_DONE_COUNT r) = min (s.rdN (RINGS_DONE_COUNT r) + 1) (2 ^ 64 - 1) := by
  obtain ⟨u, g, hu, heq⟩ := s.complete_eq r seq status result hf hd hok
  have hflush : ∀ v : State, (v.flush r).rdN (RINGS_DONE_COUNT r) = v.rdN (RINGS_DONE_COUNT r) := fun v =>
    congrArg BitVec.toNat (v.rd_flush r _ (inRings r rfl rfl) (ringReg_ne rfl) (ringReg_ne rfl))
  rw [heq, State.rdN_done_ringSettle, hflush, State.add64, State.rdN_wrN_same, ← hu.rdN (RINGS_DONE_COUNT r) (inRings r rfl rfl)]
  exact Nat.mod_eq_of_lt (by omega)

end Sys2Proof.Machine
end

section
/-! SUPPORT. The doorbell pages of the rings (Envelopes §2): what an access at each place of a page does. -/

namespace Sys2Proof.Machine
open Reg

/-! ### Accesses to a page -/

theorem execSubmissionDoorbell_next (q : Req) (page : Ring) (a : PageAcc) (v : Option Nat) (s : State) :
    exec (.submissionDoorbell q page a v) s = .next (s.pageAccess q page a v) := rfl

theorem execReturnDoorbell_next (q : Req) (page : Ring) (a : PageAcc) (v : Option Nat) (s : State) :
    exec (.returnDoorbell q page a v) s = .next (s.pageAccess q page a v) := rfl

/-- The ring of a page is a ring of the device. -/
theorem State.pageRing_lt (s : State) (q : Req) (page : Ring) {r : Nat} (h : s.pageRing q page = some r) : r < 4096 := by
  cases q with
  | vf k =>
    simp only [State.pageRing] at h
    split at h
    · obtain ⟨e, he, rfl⟩ := List.mem_map.mp (List.mem_of_getElem? h)
      have hoff := (List.mem_filter.mp he).2
      simp only [Bool.and_eq_true, decide_eq_true_eq] at hoff
      omega
    · cases h
  | fw p => cases h
  | pf => cases h; exact page.isLt
  | host b c => cases h; exact page.isLt
  | opantith => cases h; exact page.isLt

/-- A doorbell of the owner of a ring that is not DISABLED is put to its tests. -/
theorem State.doorbell_of_owner (s : State) (q : Req) (page : Nat) (act : State → Nat → State) {r : Nat} (hr : s.pageRing q page = some r)
    (hfn : s.ringFn r = q.fn) (hst : s.ringState r ≠ 0) : s.doorbell q page act = act s r := by
  simp [State.doorbell, hr, hfn, hst]

section
variable (s : State) (q : Req) (page : Nat) (v : Nat) (hs : s.spineUp = true)
include hs

theorem State.pageAccess_submission : s.pageAccess q page ⟨0, 4⟩ (some v) = s.doorbell q page fun s r => s.subDoorbell r v := by
  simp [State.pageAccess, hs]

theorem State.pageAccess_return : s.pageAccess q page ⟨4, 4⟩ (some v) = s.doorbell q page fun s r => s.retDoorbell r v := by
  simp [State.pageAccess, hs]

/-- A read of an aligned word gives what Table 3.2 has at its offset. -/
theorem State.pageAccess_read (o : Nat) (h : o % 4 = 0) : s.pageAccess q page ⟨o, 4⟩ none = s.giveRead (s.pageWord q page o) := by
  simp [State.pageAccess, hs, h]

/-- A write below 0x014 that is no aligned word is refused. -/
theorem State.pageAccess_refused (a : PageAcc) (hlo : a.off < 0x14) (ha : a.size ≠ 4 ∨ a.off % 4 ≠ 0) :
    s.pageAccess q page a (some v) = s.report { code := Code.REG_ACCESS } := by
  have hwhole : (a.size == 4 && a.off % 4 == 0) = false := by rcases ha with h | h <;> simp [h]
  simp [State.pageAccess, hs, hwhole, Nat.not_le.mpr hlo]

end

theorem State.pageAccess_beyond (s : State) (q : Req) (page v : Nat) (a : PageAcc) (h : 0x14 ≤ a.off) : s.pageAccess q page a (some v) = s := by
  simp [State.pageAccess, h]

/-! ### The tests of the doorbells -/

theorem errClass_doorbellBad : errClass Code.DOORBELL_BAD = some .note := by decide

theorem State.subDoorbell_accepted (s : State) (r v : Nat) (hh : cdiff v (s.rdN (RINGS_SUB_HEAD r)) ≤ s.ringSize r)
    (ht : cdiff v (s.rdN (RINGS_SUB_TAIL r)) ≤ s.ringSize r) : s.subDoorbell r v = s.wrN (RINGS_SUB_TAIL r) (v % 2 ^ 32) := by
  rw [State.subDoorbell, if_pos (by simp [State.subDoorbellOk, hh, ht])]

theorem State.subDoorbell_bad (s : State) (r v : Nat)
    (h : s.ringSize r < cdiff v (s.rdN (RINGS_SUB_HEAD r)) ∨ s.ringSize r < cdiff v (s.rdN (RINGS_SUB_TAIL r))) :
    s.subDoorbell r v = s.report { code := Code.DOORBELL_BAD, ring := some r } := by
  rw [State.subDoorbell, if_neg]
  simp only [State.subDoorbellOk, Bool.and_eq_true, decide_eq_true_eq]
  omega

theorem State.retDoorbell_accepted (s : State) (r v : Nat) (h : cdiff v (s.rdN (RINGS_RET_HEAD r)) ≤ s.unconsumed r) :
    s.retDoorbell r v = (s.wrN (RINGS_RET_HEAD r) (v % 2 ^ 32)).flush r := by
  rw [State.retDoorbell, if_pos (by simp [State.retDoorbellOk, h])]

theorem State.retDoorbell_bad (s : State) (r v : Nat) (h : s.unconsumed r < cdiff v (s.rdN (RINGS_RET_HEAD r))) :
    s.retDoorbell r v = s.report { code := Code.DOORBELL_BAD, ring := some r } := by
  rw [State.retDoorbell, if_neg (by simp [State.retDoorbellOk, Nat.not_le.mpr h])]

/-- A count of 32 bits reads as it is written. -/
theorem State.rdN_wrN_count (s : State) (o v : Nat) : (s.wrN o (v % 2 ^ 32)).rdN o = v % 2 ^ 32 := by
  rw [State.rdN_wrN_same]
  omega

/-- A report of class NOTE sets the status bit and changes nothing but the ERROR block. -/
theorem State.report_note_facts (s : State) (e : Err) (hc : errClass e.code = some .note) : (s.report e).on ERROR_STATUS_NOTE = true ∧
    (∀ o, o < 0xD00000 ∨ 0xE00000 ≤ o → (s.report e).rd o = s.rd o) ∧ (s.report e).mem = s.mem ∧ (s.report e).rings = s.rings :=
  ⟨s.on_report_note e hc, s.rd_report_note e hc, s.report_mem e, s.report_rings e⟩

/-- Settles O19: a doorbell that passes its tests is a write of its count, and one that does not is a NOTE. -/
theorem doorbellsAreAcceptedByTheirTests : Obligations.DoorbellsAreAcceptedByTheirTests := by
  intro q page r v s hs hr hfn hst
  have hsub : exec (.submissionDoorbell q page ⟨0, 4⟩ (some v)) s = .next (s.subDoorbell r v) := by
    rw [execSubmissionDoorbell_next, s.pageAccess_submission q page v hs, s.doorbell_of_owner q page _ hr hfn hst]
  have hret : exec (.returnDoorbell q page ⟨4, 4⟩ (some v)) s = .next (s.retDoorbell r v) := by
    rw [execReturnDoorbell_next, s.pageAccess_return q page v hs, s.doorbell_of_owner q page _ hr hfn hst]
  obtain ⟨hnote, hrd, hmem, hrings⟩ := s.report_note_facts { code := Code.DOORBELL_BAD, ring := some r } errClass_doorbellBad
  refine ⟨fun ⟨hh, ht⟩ => ?_, fun hbad => ?_, fun hok => ?_, fun hbad => ?_, fun o _ h4 => ?_, fun a => ⟨fun hlo ha => ?_, fun hhi => ?_⟩⟩
  · rw [hsub, s.subDoorbell_accepted r v hh ht]
    exact ⟨_, rfl, s.rdN_wrN_count _ v, fun o ho => s.rd_wrN_other _ o _ ho, rfl, rfl, rfl⟩
  · rw [hsub, s.subDoorbell_bad r v hbad]
    exact ⟨_, rfl, hnote, ⟨_, rfl, rfl, rfl⟩, hrd, hmem, hrings⟩
  · rw [hret, s.retDoorbell_accepted r v hok]
    refine ⟨_, rfl, ?_⟩
    have hhead : InRings (RINGS_RET_HEAD r) := inRings ⟨r, s.pageRing_lt q page hr⟩ rfl rfl
    rw [State.rdN, State.rd_flush _ r _ hhead (ringReg_ne rfl) (ringReg_ne rfl), ← State.rdN, s.rdN_wrN_count]
  · rw [hret, s.retDoorbell_bad r v hbad]
    exact ⟨_, rfl, hnote, ⟨_, rfl, rfl, rfl⟩, hrd, hmem, hrings⟩
  · rw [execSubmissionDoorbell_next, s.pageAccess_read q page hs o h4]
    refine ⟨_, rfl, rfl, rfl, ?_⟩
    show s.pageWord q page o = _
    rw [State.pageWord, hr]
  · rw [execSubmissionDoorbell_next, s.pageAccess_refused q page v hs a hlo ha]
    exact ⟨_, rfl, s.report_note_facts _ errClass_regAccess⟩
  · rw [execSubmissionDoorbell_next, s.pageAccess_beyond q page v a hhi]

end Sys2Proof.Machine
end

section
/-! SUPPORT. The way of an envelope (Envelopes §2 to §5): its fetch, the test of a WAIT, its start in its turn, its completion, and the interrupt of a record
that has waited. -/

namespace Sys2Proof.Machine
open Reg

/-! ### Fetch -/

/-- The envelope `e`, read at SUB_HEAD, as the ring engine keeps it. -/
def State.fetched (s : State) (r : Nat) (e : Bytes) : Flight :=
  { seq := s.rdN (RINGS_SUB_HEAD r), env := e, fetchRound := s.round, startRound := s.round, fetchFail := s.envCheck r e }

/-- From `s` to `u` the envelope `e` of ring `r` has been fetched, and has not been tested yet. -/
structure Fetches (r : Ring) (e : Bytes) (s u : State) : Prop where
  head : u.rdN (RINGS_SUB_HEAD r) = (s.rdN (RINGS_SUB_HEAD r) + 1) % 2 ^ 32
  done : u.rdN (RINGS_DONE_COUNT r) = s.rdN (RINGS_DONE_COUNT r)
  mem : u.mem = s.mem
  receipt : ∀ i, u.receipt i = s.receipt i
  flights : (u.ring r).flights = (s.ring r).flights ++ [s.fetched r e]

/-- The value of a receipt depends on memory and on RECEIPT_BASE alone. -/
theorem State.receipt_congr {s u : State} (hmem : u.mem = s.mem) (hact : u.acting = s.acting) (hrd : u.rd RINGS_RECEIPT_BASE = s.rd RINGS_RECEIPT_BASE) (i : Nat) :
    u.receipt i = s.receipt i := by
  have haddr : u.receiptAddr i = s.receiptAddr i := by
    simp only [State.receiptAddr, State.cfg, State.act, hact, RINGS_RECEIPT_BASE_ADDR, hrd]
  rw [State.receipt, State.receipt, State.rdMem, State.rdMem, hmem, haddr]

/-- The rings served in the present turn of the rotation, as a fetch of ring `r` finds them. -/
def State.servedBefore (s : State) (r : Nat) : List Nat :=
  if s.fetch.served.contains r then s.fetch.served.filter fun x => s.ringClass x != s.ringClass r else s.fetch.served

/-- SUB_HEAD moves on by one, and the fetch is counted in its class and in the rotation of its rings. -/
def State.moveHead (s : State) (r : Nat) : State :=
  (s.setFetch fun f => { f with served := s.servedBefore r }.add (s.ringClass r) r).wrN (RINGS_SUB_HEAD r) ((s.rdN (RINGS_SUB_HEAD r) + 1) % 2 ^ 32)

/-- An envelope joins those of its ring. -/
def State.addFlight (s : State) (r : Nat) (f : Flight) : State := s.setRing r { s.ring r with flights := (s.ring r).flights ++ [f] }

theorem State.moveHead_rd_other (s : State) (r o : Nat) (h : o ≠ RINGS_SUB_HEAD r) : (s.moveHead r).rd o = s.rd o :=
  State.rd_wrN_other (s.setFetch _) _ o _ h

theorem State.moveHead_round (s : State) (r : Nat) : (s.moveHead r).round = s.round :=
  congrArg BitVec.toNat (s.moveHead_rd_other r ROUND_COUNT (by unfold ROUND_COUNT RINGS_SUB_HEAD; omega))

theorem State.moveHead_head (s : State) (r : Nat) : (s.moveHead r).rdN (RINGS_SUB_HEAD r) = (s.rdN (RINGS_SUB_HEAD r) + 1) % 2 ^ 32 :=
  (State.rdN_wrN_same (s.setFetch _) _ _).trans (by omega)

/-- The traffic of the fetch itself leaves what the fetch has done. -/
theorem Fetches.of_spent (s : State) (r : Ring) (e : Bytes) {u : State} (hu : Spent ((s.moveHead r).addFlight r (s.fetched r e)) u) : Fetches r e s u := by
  have hr := r.isLt
  have hrd : ∀ o, o ≠ RINGS_SUB_HEAD r → o < MEMCTL_CLASS_BYTES 0 → u.rd o = s.rd o := fun o ho hlt => (hu.rd o hlt).trans (s.moveHead_rd_other r o ho)
  have haside := Aside.of_spent hu
  constructor
  case head => exact (haside.rdN _ (inRings r rfl rfl)).trans (s.moveHead_head r)
  case done => exact congrArg BitVec.toNat (hrd _ (ringReg_ne rfl) (by unfold RINGS_DONE_COUNT MEMCTL_CLASS_BYTES; omega))
  case mem => exact hu.mem
  case receipt =>
    have hacting : u.acting = s.acting := by
      obtain ⟨⟨_, _, rfl⟩, _⟩ := hu
      rfl
    exact State.receipt_congr hu.mem hacting (hrd _ (by unfold RINGS_RECEIPT_BASE RINGS_SUB_HEAD; omega) (by decide))
  case flights =>
    rw [haside.ring, State.addFlight, State.ring_setRing_same]
    rfl

/-- A fetch whose read succeeds moves SUB_HEAD, keeps the copy, and puts it to the test of a WAIT. -/
theorem State.fetchOne_eq (s : State) (r : Ring) (e : Bytes) (he : s.addrRead (s.ringFn r) (s.subAddr r (s.rdN (RINGS_SUB_HEAD r))) 64 = .ok e) :
    ∃ u, Fetches r e s u ∧ s.fetchOne r = u.waitTest r (s.rdN (RINGS_SUB_HEAD r)) := by
  have heq : ∃ a, s.fetchOne r = (((s.moveHead r).addFlight r { s.fetched r e with fetchRound := (s.moveHead r).round, startRound := (s.moveHead r).round }).ringTraffic
      r (s.rdN (RINGS_SUB_HEAD r)) a 64).waitTest r (s.rdN (RINGS_SUB_HEAD r)) := by
    simp only [State.fetchOne, he, State.addFlight, State.moveHead, State.servedBefore, State.fetched]
    exact ⟨_, rfl⟩
  obtain ⟨a, heq⟩ := heq
  rw [s.moveHead_round] at heq
  exact ⟨_, Fetches.of_spent s r e (Spent.traffic ..), heq⟩

/-- While a ring may be fetched from, each of its WAITs has completed. -/
theorem State.wait_done_of_mayFetch (s : State) (r : Nat) (h : s.mayFetch r = true) (f : Flight) (hf : f ∈ (s.ring r).flights) (hk : Env.kind f.env = 3) :
    f.stage = .done := by
  have hfetch : s.fetchable r = true := by
    simp only [State.mayFetch, Bool.and_eq_true] at h
    exact h.1.1.1
  simp only [State.fetchable, Bool.and_eq_true, Bool.not_eq_true'] at hfetch
  have hwait := List.any_eq_false.mp hfetch.2 f hf
  simpa [hk] using hwait

/-! ### The test of a WAIT -/

theorem State.complete_of_done (s : State) (r seq status result : Nat) {f : Flight} (hf : s.flight r seq = some f) (hd : f.stage = .done) :
    s.complete r seq status result = s := by
  unfold State.complete
  rw [hf]
  exact if_pos hd

/-- A WAIT that is satisfied completes with OK. -/
theorem State.waitTest_met (s : State) (r seq : Nat) {f : Flight} (hf : s.flight r seq = some f) (hk : Env.kind f.env = 3) (hc : f.fetchFail = 0)
    (hv : Env.value f.env ≤ s.receipt (Env.receipt f.env)) : s.waitTest r seq = s.complete r seq 0 0 := by
  simp only [State.waitTest, hf, State.waitMet, hk, hc, hv, decide_true, beq_self_eq_true, Bool.and_self, if_true]

/-- The test does nothing where each envelope of that count has completed, is no WAIT, fails its checks, or waits still. -/
theorem State.waitTest_idle (s : State) (r seq : Nat) (h : ∀ f ∈ (s.ring r).flights, f.stage = .done ∨ Env.kind f.env ≠ 3 ∨ f.fetchFail ≠ 0 ∨
    s.receipt (Env.receipt f.env) < Env.value f.env) : s.waitTest r seq = s := by
  unfold State.waitTest
  split
  · next f hf =>
    split
    · next hmet =>
      simp only [State.waitMet, Bool.and_eq_true, decide_eq_true_eq, beq_iff_eq] at hmet
      obtain ⟨⟨hk, hc⟩, hv⟩ := hmet
      refine s.complete_of_done r seq 0 0 hf ((h f (List.mem_of_find?_eq_some hf)).resolve_right ?_)
      rintro (hk' | hc' | hv')
      · exact hk' hk
      · exact hc' hc
      · omega
    · rfl
  · rfl

theorem execEnvelopeFetch_fetches (r : Ring) (s : State) (hs : s.spineUp = true) (h : s.mayFetch r = true) :
    exec (.envelopeFetch r) s = .next (s.fetchOne r) := by
  show execEnvelopeFetch r s = _
  rw [execEnvelopeFetch, if_pos (by simp [hs, h])]

/-- An envelope that is no satisfied WAIT is kept as it was read. -/
theorem State.fetchOne_kept (s : State) (r : Ring) (e : Bytes) (h : s.mayFetch r = true)
    (he : s.addrRead (s.ringFn r) (s.subAddr r (s.rdN (RINGS_SUB_HEAD r))) 64 = .ok e)
    (hw : Env.kind e ≠ 3 ∨ s.envCheck r e ≠ 0 ∨ s.receipt (Env.receipt e) < Env.value e) : Fetches r e s (s.fetchOne r) := by
  obtain ⟨u, hu, heq⟩ := s.fetchOne_eq r e he
  have hidle : u.waitTest r (s.rdN (RINGS_SUB_HEAD r)) = u := by
    refine u.waitTest_idle r _ fun f hf => ?_
    rw [hu.flights, List.mem_append, List.mem_singleton] at hf
    rcases hf with hold | rfl
    · exact (em (Env.kind f.env = 3)).imp (s.wait_done_of_mayFetch r h f hold) .inl
    · exact .inr (by rw [hu.receipt]; exact hw)
  rw [heq, hidle]
  exact hu

/-- A WAIT that is satisfied when it is fetched is counted at once. -/
theorem State.fetchOne_wait (s : State) (r : Ring) (e : Bytes) (he : s.addrRead (s.ringFn r) (s.subAddr r (s.rdN (RINGS_SUB_HEAD r))) 64 = .ok e)
    (hk : Env.kind e = 3) (hc : s.envCheck r e = 0) (hv : Env.value e ≤ s.receipt (Env.receipt e))
    (hnew : ∀ f ∈ (s.ring r).flights, f.seq ≠ s.rdN (RINGS_SUB_HEAD r)) :
    (s.fetchOne r).rdN (RINGS_DONE_COUNT r) = min (s.rdN (RINGS_DONE_COUNT r) + 1) (2 ^ 64 - 1) := by
  obtain ⟨u, hu, heq⟩ := s.fetchOne_eq r e he
  have hfind : u.flight r (s.rdN (RINGS_SUB_HEAD r)) = some (s.fetched r e) := by
    rw [State.flight, hu.flights, List.find?_append, List.find?_eq_none.mpr fun f hf => by simpa using hnew f hf]
    simp [State.fetched]
  rw [heq, u.waitTest_met r _ hfind hk hc (by rw [hu.receipt]; exact hv), u.done_complete r _ 0 0 hfind (by decide : Stage.fetched ≠ .done) (.inl rfl), hu.done]

/-! ### Start -/

/-- What an envelope is once it has started. -/
def Flight.started (f : Flight) (now : Nat) (x : Flight) : Flight :=
  { x with stage := .started, startRound := if Env.kind f.env = 3 then f.fetchRound else now, reserved := true }

/-- An envelope that may start, and whose checks it has passed, starts with a return entry reserved. -/
theorem State.startOne_starts (s : State) (r : Nat) {before : List Flight} {f : Flight} (hn : s.nextToStart r = some (before, f)) (hst : s.ringState r = 1)
    (hq : s.quiet = false) (ho : orderOk before f = true) (hm : s.marshalWaits f = false) (hspine : s.preparing 26 = false) (hpcie : s.preparing 21 = false)
    (hw : s.memWaits r f.seq = false) (hroom : s.retRoom r = true) (hc : f.fetchFail = 0) :
    ((s.startOne r).ring r).flights = onSeq f.seq (f.started s.round) (s.ring r).flights := by
  simp only [State.quiet, Bool.or_eq_false_iff] at hq
  obtain ⟨hentering, hsafe⟩ := hq
  have hstart : ∃ u, Aside (s.setFlight r f.seq (f.started s.round)) u ∧ s.startOne r = u := by
    unfold State.startOne
    rw [hn]
    simp only [hst, hentering, hsafe, ho, hm, hspine, hpcie, hw, hroom, hc, bne_self_eq_false, Bool.not_true, Bool.or_self, Bool.and_false,
      Bool.false_eq_true, if_false]
    exact ⟨_, Aside.ite _ (Aside.refl _).ledger (Aside.refl _), rfl⟩
  obtain ⟨u, hu, heq⟩ := hstart
  rw [heq, hu.ring, State.setFlight, State.ring_setRing_same]

/-- Whether an entry of the return ring is free depends on the ring alone. -/
theorem Aside.retRoom {s t : State} (h : Aside s t) (r : Ring) : t.retRoom r = s.retRoom r := by
  have hsize : t.ringSize r = s.ringSize r := by
    simp only [State.ringSize, h.get (RINGS_CFG_LOG2_SIZE r) (inRings r rfl rfl)]
  have hcount : t.unconsumed r = s.unconsumed r := by
    simp only [State.unconsumed, h.rdN (RINGS_RET_TAIL r) (inRings r rfl rfl), h.rdN (RINGS_RET_HEAD r) (inRings r rfl rfl)]
  rw [State.retRoom, State.retRoom, State.reservedOf, State.reservedOf, h.ring, hsize, hcount]

theorem execEnvelopeStart_up (r : Ring) (t : Nat) (s : State) (hs : s.spineUp = true) : exec (.envelopeStart r t) s = .next ((s.atNs t).startOne r) := by
  show execEnvelopeStart r t s = _
  rw [execEnvelopeStart, if_pos hs]

theorem State.marshalWaits_atNs (s : State) (t : Nat) (f : Flight) : (s.atNs t).marshalWaits f = s.marshalWaits f := by
  simp only [State.marshalWaits, State.fwRunning, State.get_atNs s t (FIRMWARE_PROC_STATE_STATE 1) (by decide)]

theorem State.quiet_atNs (s : State) (t : Nat) : (s.atNs t).quiet = s.quiet := by
  simp only [State.quiet, State.on_atNs s t ERROR_STATUS_ENTERING (by decide), State.on_atNs s t ERROR_STATUS_SAFE (by decide)]

/-! ### Completion -/

theorem execEnvelopeComplete_ended (r : Ring) (seq t : Nat) (s : State) {f : Flight} (hf : s.flight r seq = some f) (he : f.stage = .ended)
    (hw : s.memWaits r seq = false) : exec (.envelopeComplete r seq t) s = .next ((s.atNs t).complete r seq f.status f.result) := by
  show execEnvelopeComplete r seq t s = _
  rw [execEnvelopeComplete, hf]
  exact congrArg Host.Outcome.next (if_pos (by simp [he, hw]))

/-- The envelope of a count that has started is found by its kind as well. -/
theorem State.startedOf_isSome (s : State) (r seq : Nat) {f : Flight} (hf : s.flight r seq = some f) (hs : f.stage = .started) :
    ∃ x, s.startedOf r seq (Env.kind f.env) = some x := by
  have hseq : f.seq = seq := by simpa using List.find?_some hf
  exact Option.isSome_iff_exists.mp (List.find?_isSome.mpr ⟨f, List.mem_of_find?_eq_some hf, by simp [hseq, hs]⟩)

theorem execNop_started (r : Ring) (seq : Nat) (s : State) {x : Flight} (h : s.startedOf r seq 0 = some x) :
    exec (.nop r seq) s = .next (s.complete r seq 0 0) := by
  show execNop r seq s = _
  rw [execNop, h]

theorem execFence_started (r : Ring) (seq : Nat) (s : State) {x : Flight} (h : s.startedOf r seq 12 = some x) :
    exec (.fence r seq) s = .next (s.complete r seq 0 0) := by
  show execFence r seq s = _
  rw [execFence, h]

/-! ### The interrupt of a record that has waited -/

theorem State.msix_unmasked (s : State) (fn vec : Nat) (hv : vec < 256) (hm : s.links.masked.contains (fn, vec) = false) :
    s.msix fn vec = s.sendIrq (.msix fn vec) := by
  have hlast : ¬(if fn = 0 then 2048 else 256) ≤ vec := by split <;> omega
  rw [State.msix, if_neg hlast, hm]
  rfl

theorem execIrqDelay_due (r : Ring) (s : State) {c : Nat} (hc : (s.ring r).irqSince = some c) (hd : 0 < s.cfg (RINGS_IRQ_DELAY r))
    (hr : c + s.cfg (RINGS_IRQ_DELAY r) ≤ s.round) : exec (.irqDelay r) s =
      .next ((s.setRing r { s.ring r with irqPend := 0, irqSince := none }).irqTo (s.ringFn r) (s.cfg (RINGS_IRQ_VECTOR r)) 0x03) := by
  have hdue : (s.cfg (RINGS_IRQ_DELAY r) != 0 && decide (c + s.cfg (RINGS_IRQ_DELAY r) ≤ s.round)) = true := by
    rw [Bool.and_eq_true, bne_iff_ne, decide_eq_true_eq]
    exact ⟨by omega, hr⟩
  show execIrqDelay r s = _
  rw [execIrqDelay]
  dsimp only
  rw [hc]
  exact congrArg Host.Outcome.next (if_pos hdue)

/-- Settles O20: each command is its operation of the ring engine where its conditions hold. -/
theorem envelopesAreFetchedStartedAndCounted : Obligations.EnvelopesAreFetchedStartedAndCounted := by
  intro r s hs
  refine ⟨fun e hmay he => ⟨fun hw => ?_, fun hk hc hv hnew => ?_⟩, fun before f ns hn hst hq ho hm hspine hpcie hw hroom hc => ?_,
    fun f ns hf => ⟨fun hended hok hw => ?_, fun hst hk => ?_, fun hst hk => ?_⟩, fun c hc hd hround hfn hv hm => ?_⟩
  · have hkept := s.fetchOne_kept r e hmay he hw
    exact ⟨_, execEnvelopeFetch_fetches r s hs hmay, hkept.head, hkept.mem, hkept.flights⟩
  · exact ⟨_, execEnvelopeFetch_fetches r s hs hmay, s.fetchOne_wait r e he hk hc hv hnew⟩
  · have haside : Aside s (s.atNs ns) := (Aside.refl s).atNs
    refine ⟨_, execEnvelopeStart_up r ns s hs, ?_⟩
    rw [(s.atNs ns).startOne_starts r hn ((haside.ringState r).trans hst) ((s.quiet_atNs ns).trans hq) ho ((s.marshalWaits_atNs ns f).trans hm) hspine hpcie hw
      ((haside.retRoom r).trans hroom) hc, s.round_atNs]
    rfl
  · refine ⟨_, execEnvelopeComplete_ended r f.seq ns s hf hended hw, ?_⟩
    rw [(s.atNs ns).done_complete r f.seq f.status f.result hf (by rw [hended]; decide) (.inl hok), (Aside.refl s).atNs.rdN (RINGS_DONE_COUNT r) (inRings r rfl rfl)]
  · obtain ⟨x, hx⟩ := s.startedOf_isSome r f.seq hf hst
    exact ⟨_, execNop_started r f.seq s (hk ▸ hx), s.done_complete r f.seq 0 0 hf (by rw [hst]; decide) (.inl rfl)⟩
  · obtain ⟨x, hx⟩ := s.startedOf_isSome r f.seq hf hst
    exact ⟨_, execFence_started r f.seq s (hk ▸ hx), s.done_complete r f.seq 0 0 hf (by rw [hst]; decide) (.inl rfl)⟩
  · rw [execIrqDelay_due r s hc hd hround, State.irqTo, if_pos hfn, State.msix_unmasked (s.setRing r _) _ _ hv hm]
    refine ⟨_, rfl, rfl, ?_, ?_, rfl, rfl⟩
    · exact congrArg RingDyn.irqPend (s.ring_setRing_same r _)
    · exact congrArg RingDyn.irqSince (s.ring_setRing_same r _)

end Sys2Proof.Machine
end

section
/-! SUPPORT. Ring control (Envelopes §8): CFG, ENABLE, RESUME and STOP of a ring. -/

namespace Sys2Proof.Machine
open Reg

/-! ### Writes of CFG and CTRL that land -/

theorem lands_ring (q : Req) (s : State) (o : Nat) (hs : s.spineUp = true) (hq : q.pfOrHost = true) (hh : s.holdOf q = none) (ho : InRings o) :
    Safety.Lands q o s :=
  ⟨s.path_of_pfOrHost q hq hs, hh, s.regDown_rings o ho.1 (by have := ho.2; omega) hs⟩

theorem State.ringCtl_of_may (s : State) (q : Req) (r : Nat) (act : State → State) (hq : q.pfOrHost = true) (hw : s.ringFn r = 18 → q.secure = true) :
    s.ringCtl q r act = act s := by
  have hdeny : (s.ringFn r == 18 && !q.secure) = false := by
    by_cases h : s.ringFn r = 18
    · simp [hw h]
    · simp [h]
  rw [State.ringCtl, hq, hdeny]
  rfl

/-- A control command of a requester that may give it acts on its ring. -/
theorem State.ctrl_lands (s : State) (q : Req) (r : Ring) (act : State → State) (hs : s.spineUp = true) (hq : q.pfOrHost = true) (hh : s.holdOf q = none)
    (hw : s.ringFn r = 18 → q.secure = true) : (s.landing q (RINGS_CTRL r) fun s => s.ringCtl q r act) = act s := by
  rw [s.landing_of_lands q (RINGS_CTRL r) _ (lands_ring q s _ hs hq hh (inRings r rfl rfl)), s.ringCtl_of_may q r act hq hw]

/-! ### CFG -/

/-- What CFG holds after an allowed write of `v`. -/
def cfgWord (v : Nat) : Nat :=
  nbits v 20 16 * 65536 + nbits v 13 12 * 4096 + nbits v 9 8 * 256 + (if decide (6 ≤ nbits v 4 0) && decide (nbits v 4 0 ≤ 16) then nbits v 4 0 else 6)

/-- A DISABLED ring that is not the secure world's takes a CFG that names the PF or the normal world. -/
theorem State.ringCfg_taken (s : State) (q : Req) (r v : Nat) (hq : q.pfOrHost = true) (hst : s.ringState r = 0) (hfn : s.ringFn r ≠ 18)
    (hf : nbits v 20 16 = 0 ∨ nbits v 20 16 = 17) : s.ringCfg q r v = s.wrN (RINGS_CFG r) (cfgWord v) := by
  unfold State.ringCfg cfgWord
  rcases hf with hf | hf <;> simp [hq, hst, hfn, hf]

/-- The fields of a CFG read as they were written. -/
theorem State.get_cfgWord (s : State) (r v : Nat) : let t := s.wrN (RINGS_CFG r) (cfgWord v)
    t.ringFn r = nbits v 20 16 ∧ t.get (RINGS_CFG_CLASS r) = nbits v 9 8 ∧ t.get (RINGS_CFG_FLOOR_GROUP r) = nbits v 13 12 := by
  have hrd : (s.wrN (RINGS_CFG r) (cfgWord v)).rdN (RINGS_CFG r) = cfgWord v % 2 ^ 64 := s.rdN_wrN_same _ _
  have hsize : (if decide (6 ≤ nbits v 4 0) && decide (nbits v 4 0 ≤ 16) then nbits v 4 0 else 6) < 32 := by
    split
    · unfold nbits; omega
    · omega
  simp only [State.ringFn, State.get_eq_nbits, RINGS_CFG_FUNCTION, RINGS_CFG_CLASS, RINGS_CFG_FLOOR_GROUP, hrd]
  unfold cfgWord
  generalize (if decide (6 ≤ nbits v 4 0) && decide (nbits v 4 0 ≤ 16) then nbits v 4 0 else 6) = l at hsize ⊢
  simp only [nbits]
  omega

theorem execRingCfgWrite_taken (q : Req) (r : Ring) (v : Nat) (s : State) (hs : s.spineUp = true) (hq : q.pfOrHost = true) (hh : s.holdOf q = none)
    (hst : s.ringState r = 0) (hfn : s.ringFn r ≠ 18) (hf : nbits v 20 16 = 0 ∨ nbits v 20 16 = 17) :
    exec (.ringCfgWrite q r v) s = .next (s.wrN (RINGS_CFG r) (cfgWord v)) := by
  show execRingCfgWrite q r v s = _
  rw [execRingCfgWrite, s.landing_of_lands q (RINGS_CFG r) _ (lands_ring q s _ hs hq hh (inRings r rfl rfl)), s.ringCfg_taken q r v hq hst hfn hf]

/-! ### ENABLE and RESUME -/

/-- The ring is RUNNING, with ENABLE set and DONE_COUNT and ENERGY_RING at 0. -/
def State.running (s : State) (r : Nat) : State :=
  (((s.putB (RINGS_CTRL_ENABLE r) true).put (RINGS_STATUS_STATE r) 1).wrN (RINGS_DONE_COUNT r) 0).wrN (MONITOR_ENERGY_RING r) 0

@[simp] theorem State.mem_running (s : State) (r : Nat) : (s.running r).mem = s.mem := by simp [State.running]

theorem State.ringEnable_taken (s : State) (r : Nat) (hst : s.ringState r = 0) (hsafe : s.on ERROR_STATUS_SAFE = false) (hsub : s.rdN (RINGS_SUB_BASE r) ≠ 0)
    (hret : s.rdN (RINGS_RET_BASE r) ≠ 0) : s.ringEnable r = (s.ringOff r).running r := by
  rw [State.ringEnable, if_neg (by simp [hst, hsafe]), if_neg (by simp [hsub, hret])]
  rfl

/-- Of a ring's registers, `running` writes CTRL, STATUS and DONE_COUNT alone. -/
theorem State.rd_running_other (s : State) (r : Ring) (o : Nat) (ho : InRings o) (hc : o ≠ RINGS_CTRL r) (hs : o ≠ RINGS_STATUS r) (hd : o ≠ RINGS_DONE_COUNT r) :
    (s.running r).rd o = s.rd o := by
  have he : o ≠ MONITOR_ENERGY_RING r := by
    have := ho.2
    unfold MONITOR_ENERGY_RING
    omega
  rw [State.running, State.rd_wrN_other _ _ _ _ he, State.rd_wrN_other _ _ _ _ hd, State.rd_put_other _ _ _ _ hs, State.putB, State.rd_put_other _ _ _ _ hc]

theorem State.running_facts (s : State) (r : Ring) :
    (s.running r).ringState r = 1 ∧ (s.running r).on (RINGS_CTRL_ENABLE r) = true ∧ (s.running r).rdN (RINGS_DONE_COUNT r) = 0 := by
  have henergy : ∀ u : State, Aside u (u.wrN (MONITOR_ENERGY_RING r) 0) := fun u => (Aside.refl u).wrN (outside_add rfl)
  refine ⟨?_, ?_, ?_⟩
  · rw [State.running, (henergy _).ringState, State.ringState_wrN_other _ (RINGS_DONE_COUNT r) _ _ (ringReg_ne rfl), State.ringState_put_state, if_pos rfl]
  · have hdone : RINGS_CTRL r ≠ RINGS_DONE_COUNT r := ringReg_ne rfl
    have hstatus : RINGS_CTRL r ≠ RINGS_STATUS r := ringReg_ne rfl
    have hfld : InRings (RINGS_CTRL_ENABLE r).reg := inRings r rfl rfl
    rw [State.running, (henergy _).on _ hfld, State.on, State.get_wrN_other _ _ _ _ hdone, State.get_put_other _ _ _ _ hstatus]
    exact State.on_putB_same s (RINGS_CTRL_ENABLE r) true rfl (by decide : 0 < 64)
  · rw [State.running, (henergy _).rdN (RINGS_DONE_COUNT r) (inRings r rfl rfl), State.rdN_wrN_same, Nat.zero_mod]

/-- A DISABLED ring that is enabled starts with all its counts 0. -/
theorem State.rdN_running_ringOff (s : State) (r : Ring) (o : Nat) (ho : o ∈ clearedRegs r) (hc : o ≠ RINGS_CTRL r) : ((s.ringOff r).running r).rdN o = 0 := by
  have hcases : InRings o ∧ o ≠ RINGS_STATUS r ∧ o ≠ RINGS_DONE_COUNT r := by
    simp only [clearedRegs, List.mem_cons, List.not_mem_nil, or_false] at ho
    rcases ho with rfl | rfl | rfl | rfl | rfl <;> exact ⟨inRings r rfl rfl, ringReg_ne rfl, ringReg_ne rfl⟩
  obtain ⟨hin, hs, hd⟩ := hcases
  rw [State.rdN, State.rd_running_other _ r o hin hc hs hd, ← State.rdN, s.rdN_ringOff_cleared r o ho]

theorem State.counts_running_ringOff (s : State) (r : Ring) :
    ((s.ringOff r).running r).rdN (RINGS_SUB_TAIL r) = 0 ∧ ((s.ringOff r).running r).rdN (RINGS_SUB_HEAD r) = 0 ∧
    ((s.ringOff r).running r).rdN (RINGS_RET_TAIL r) = 0 ∧ ((s.ringOff r).running r).rdN (RINGS_RET_HEAD r) = 0 := by
  refine ⟨?_, ?_, ?_, ?_⟩ <;> exact s.rdN_running_ringOff r _ (by simp [clearedRegs]) (ringReg_ne rfl)

theorem State.ringDisable_stopped (s : State) (r : Nat) (h : s.ringState r = 3) : s.ringDisable r = s.ringOff r := if_pos h

theorem State.ringResume_stopped (s : State) (r : Nat) (h : s.ringState r = 3) (hsafe : s.on ERROR_STATUS_SAFE = false) :
    s.ringResume r = s.put (RINGS_STATUS_STATE r) 1 := if_pos (by simp [h, hsafe])

/-! ### STOP and ABORT of a ring on which nothing runs -/

/-- A RUNNING ring none of whose envelopes runs leaves RUNNING for STOPPED, or for DISABLED where a reset of its function asks for it. -/
theorem State.ringStopping_idle (s : State) (r : Ring) (h : s.ringState r = 1) (hf : ∀ f ∈ (s.ring r).flights, f.stage = .fetched ∨ f.stage = .done) :
    ∃ v, Cancelled r s v ∧ (∀ f ∈ (v.ring r).flights, f.stage = .done) ∧
      s.ringStopping r = if (s.ring r).disabling then (v.stopped r).ringOff r else v.stopped r := by
  obtain ⟨v, hv, heq⟩ := s.ringStopping_eq r h
  refine ⟨v, hv, hv.all_done hf, ?_⟩
  rw [heq, v.ringSettle_of_done r hv.state (hv.all_done hf), hv.disabling]

/-- The state of a ring, and its envelopes, do not hang on a write of CTRL. -/
theorem State.ringState_ctrl (s : State) (f : Fld) (b : Bool) (r k : Nat) (hf : f.reg = RINGS_CTRL k) : (s.putB f b).ringState r = s.ringState r :=
  s.ringState_putB_other f b r (hf ▸ ringReg_ne rfl)

/-- No WAIT has started where no envelope has. -/
theorem State.cancelWaits_idle (s : State) (r : Nat) (hf : ∀ f ∈ (s.ring r).flights, f.stage = .done) : s.cancelWaits r = s := by
  have hnone : ((s.ring r).flights.filter fun f => f.stage == .started && Env.kind f.env == 3) = [] :=
    List.filter_eq_nil_iff.mpr fun f hm => by simp [hf f hm]
  rw [State.cancelWaits, hnone]
  rfl

theorem State.ringStop_running (s : State) (r : Nat) (h : s.ringState r = 1) : s.ringStop r = ((s.putB (RINGS_CTRL_STOP r) true).ringStopping r).cancelWaits r :=
  if_pos (by simp [h])

/-- STOP of a ring on which nothing runs stops it. -/
theorem State.ringStop_idle (s : State) (r : Ring) (h : s.ringState r = 1) (hd : (s.ring r).disabling = false)
    (hf : ∀ f ∈ (s.ring r).flights, f.stage = .fetched ∨ f.stage = .done) :
    (s.ringStop r).ringState r = 3 ∧ (s.ringStop r).on (RINGS_CTRL_STOP r) = false ∧ ∀ f ∈ ((s.ringStop r).ring r).flights, f.stage = .done := by
  obtain ⟨v, -, hdone, heq⟩ := (s.putB (RINGS_CTRL_STOP r) true).ringStopping_idle r ((s.ringState_ctrl _ _ _ r rfl).trans h) hf
  have hstop : s.ringStop r = v.stopped r := by
    rw [s.ringStop_running r h, heq, if_neg (by rw [show ((s.putB (RINGS_CTRL_STOP r) true).ring r).disabling = false from hd]; decide),
      State.cancelWaits_idle (v.stopped r) r hdone]
  rw [hstop]
  exact ⟨by rw [v.ringState_stopped, if_pos rfl], v.on_stopped_stop r, hdone⟩

/-! ### STOP of a ring on which an envelope runs -/

/-- The ring is STOPPING by STOP, and `f` runs on it. -/
structure StopsFor (r : Ring) (f : Flight) (s : State) : Prop where
  state : s.ringState r = 2
  stop : s.on (RINGS_CTRL_STOP r) = true
  mem : f ∈ (s.ring r).flights
  started : f.stage = .started

/-- The completion of another envelope leaves the ring STOPPING. -/
theorem StopsFor.complete {r : Ring} {f : Flight} {s : State} (h : StopsFor r f s) (seq : Nat) (hseq : seq ≠ f.seq) : StopsFor r f (s.complete r seq 9 0) := by
  cases hfl : s.flight r seq with
  | none =>
    have hstay : s.complete r seq 9 0 = s := by rw [State.complete, hfl]
    rwa [hstay]
  | some x =>
    by_cases hx : x.stage = .done
    · rwa [s.complete_of_done r seq 9 0 hfl hx]
    · obtain ⟨u, g, hu, heq⟩ := s.complete_eq r seq 9 0 hfl hx (.inr rfl)
      have hctrl : InRings (RINGS_CTRL_STOP r).reg := inRings r rfl rfl
      have hmem : f ∈ ((((u.setFlight r seq g).add64 (RINGS_DONE_COUNT r) 1).flush r).ring r).flights := by
        refine State.mem_flights_flush _ r f ?_ (by rw [h.started]; decide)
        show f ∈ ((u.setFlight r seq g).ring r).flights
        rw [State.setFlight, State.ring_setRing_same, hu.ring]
        exact List.mem_map.mpr ⟨f, h.mem, if_neg (Ne.symm hseq)⟩
      rw [heq, State.ringSettle_of_started _ r f hmem h.started]
      refine ⟨?_, ?_, hmem, h.started⟩
      · rw [State.ringState_flush, State.add64, State.ringState_wrN_other _ (RINGS_DONE_COUNT r) _ _ (ringReg_ne rfl)]
        exact (hu.ringState r).trans h.state
      · have hdone : (RINGS_CTRL_STOP r).reg ≠ RINGS_DONE_COUNT r := ringReg_ne rfl
        rw [State.on, State.get, State.rd_flush _ r _ hctrl (ringReg_ne rfl) (ringReg_ne rfl), State.add64, State.rd_wrN_other _ _ _ _ hdone]
        exact (hu.on _ hctrl).trans h.stop

theorem StopsFor.each_complete {r : Ring} {f : Flight} (l : List Flight) {s : State} (h : StopsFor r f s) (hl : ∀ x ∈ l, x.seq ≠ f.seq) :
    StopsFor r f (s.each l fun s x => s.complete r x.seq 9 0) := by
  induction l generalizing s with
  | nil => exact h
  | cons x l ih => exact ih (h.complete x.seq (hl x List.mem_cons_self)) fun y hy => hl y (List.mem_cons_of_mem x hy)

/-- STOP of a ring on which an envelope other than a WAIT runs leaves it STOPPING. -/
theorem State.ringStop_started (s : State) (r : Ring) (h : s.ringState r = 1) {f : Flight} (hf : f ∈ (s.ring r).flights) (hs : f.stage = .started)
    (hk : ∀ x ∈ (s.ring r).flights, x.seq = f.seq → Env.kind x.env ≠ 3) : StopsFor r f (s.ringStop r) := by
  obtain ⟨v, hv, heq⟩ := (s.putB (RINGS_CTRL_STOP r) true).ringStopping_eq r ((s.ringState_ctrl _ _ _ r rfl).trans h)
  have hmem := hv.started_stays hf hs
  have hstop : v.on (RINGS_CTRL_STOP r) = true := by
    have hset : (s.putB (RINGS_CTRL_STOP r) true).on (RINGS_CTRL_STOP r) = true := State.on_putB_same s (RINGS_CTRL_STOP r) true rfl (by decide : 1 < 64)
    rw [← hset, State.on, State.on, State.get, State.get]
    exact congrArg (fun w => Word.bits w 1 1 != 0) hv.ctrl
  rw [s.ringStop_running r h, heq, v.ringSettle_of_started r f hmem hs]
  refine StopsFor.each_complete _ ⟨hv.state, hstop, hmem, hs⟩ fun x hx hseq => ?_
  obtain ⟨hxm, hxw⟩ := List.mem_filter.mp hx
  simp only [Bool.and_eq_true, beq_iff_eq] at hxw
  exact hk x (hv.started_before hxm hxw.1) hseq hxw.2

end Sys2Proof.Machine
end

section
/-! SUPPORT. ABORT and function-level reset (Envelopes R117, R119): what an abort takes from the other blocks leaves the rings alone, and nothing that it does
makes a ring RUNNING. -/

namespace Sys2Proof.Machine
open Reg

/-! ### What an abort and a reset of a function take from the other blocks -/

namespace Aside
variable {s t : State} (h : Aside s t)
include h

theorem memForget {r seq} : Aside s (t.memForget r seq) := h.setMemc.setFloor.setFloor
theorem slotClear {n} : Aside s (t.slotClear n) := ((h.zeroMem.traffic.wrN (outside_add rfl)).wrN (outside_add rfl)).wrN (outside_add rfl)
theorem psAbort {n} : Aside s (t.psAbort n) := Aside.ite _ h h.slotClear

theorem fwAbort {r seq} : Aside s (t.fwAbort r seq) := by
  unfold State.fwAbort
  split
  · exact h
  · exact (Aside.ite _ h (h.setFw.each (fun _ _ hv => hv.put (outside_add rfl)) _)).setFw

theorem setRegion {g st} : Aside s (t.setRegion g st) := ((h.put (outside_add rfl)).putB (outside_add rfl)).put (outside_add rfl)
theorem regionClear {g} : Aside s (t.regionClear g) := (h.setFab.wrN (outside_add rfl)).setRegion
theorem writeEvents {x} : Aside s (t.writeEvents x) := by
  unfold State.writeEvents
  split
  · exact h
  · exact h.addrWrite

theorem holdDistrict {d} : Aside s (t.holdDistrict d) := Aside.ite _ h ((h.setBit (outside rfl)).putB (outside_add rfl)).setFloor

theorem debugEnd {x status d} : Aside s (t.debugEnd x status d) := by
  unfold State.debugEnd
  extract_lets s₁ s₂ s₃
  have hs₂ : Aside s s₂ := ((h.setFloor.put (outside_add rfl)).put (outside_add rfl)).putB (outside_add rfl)
  have hs₃ : Aside s s₃ := by
    unfold s₃
    split
    · exact ((hs₂.putB (outside_add rfl)).put (outside_add rfl)).put (outside_add rfl)
    · exact hs₂.putB (outside_add rfl)
  exact Aside.ite _ hs₃.holdDistrict hs₃

theorem clearSteps {x d} : Aside s (t.clearSteps x d) := by
  unfold State.clearSteps
  extract_lets mine
  exact h.setFloor

theorem setXchan {c f} : Aside s (t.setXchan c f) := h.setXp
theorem syncWaits {d} : Aside s (t.syncWaits d) := h.putB (outside_add rfl)

/-- The registers of an owner of the transaction unit lie below the rings. -/
theorem freeOwner {o status} (ho : o < 8) : Aside s (t.freeOwner o status) := by
  have hown : ∀ b, b < 0x20120 → Outside (b + 0x20 * o) := fun b hb => .inl (by omega)
  exact ((h.setTxn.put (hown 0x20100 (by decide))).wrN (hown 0x20100 (by decide))).wrN (hown 0x20110 (by decide))

theorem dropHalf {k} : Aside s (t.dropHalf k) := by
  unfold State.dropHalf
  split
  · exact h
  · exact ((h.setTxn.put (.inl (by decide : TXN_PAIR_PENDING < 0x30000))).report).addSat (.inl (by decide))

theorem loseHolder {w} : Aside s (t.loseHolder w) := by
  unfold State.loseHolder
  extract_lets s₁
  have hs₁ : Aside s s₁ := by
    unfold s₁
    split
    · next o ho => exact Aside.ite _ (h.freeOwner (List.mem_range.mp (List.mem_of_find?_eq_some ho))).report h
    · exact h
  refine hs₁.each (fun v x hv => ?_) _
  split
  · exact Aside.ite _ hv.dropHalf hv
  · exact hv

end Aside

/-! ### What never makes a ring RUNNING -/

theorem State.each_cons {α : Type} (s : State) (x : α) (l : List α) (f : State → α → State) : s.each (x :: l) f = (f s x).each l f := rfl

/-- The ring is not RUNNING. -/
def NotRunning (r : Ring) (s : State) : Prop := s.ringState r ≠ 1

namespace NotRunning
variable {r : Ring} {s t : State}

theorem ite (c : Prop) [Decidable c] {a b : State} (ha : NotRunning r a) (hb : NotRunning r b) : NotRunning r (if c then a else b) := by
  split <;> assumption

variable (h : NotRunning r s)
include h

theorem aside (k : Aside s t) : NotRunning r t := by rwa [NotRunning, k.ringState]

/-- A fold over a list leaves the ring out of RUNNING if each of its steps does. -/
theorem each {α : Type} {f : State → α → State} (hf : ∀ v x, NotRunning r v → NotRunning r (f v x)) (l : List α) : NotRunning r (s.each l f) := by
  unfold State.each
  induction l generalizing s with
  | nil => exact h
  | cons x l ih => exact ih (hf s x h)

theorem setState (k n : Nat) (hn : n % 4 ≠ 1) : NotRunning r (s.put (RINGS_STATUS_STATE k) n) := by
  rw [NotRunning, s.ringState_put_state]
  split
  · exact hn
  · exact h

theorem lastFail (k n : Nat) : NotRunning r (s.put (RINGS_STATUS_LAST_FAIL k) n) := by
  rwa [NotRunning, s.ringState_put_above _ _ _ (by decide : 16 ≤ 31) (by decide : 31 < 64) (by decide : 1 < 16)]

theorem addDone (k n : Nat) : NotRunning r (s.add64 (RINGS_DONE_COUNT k) n) := by
  rwa [NotRunning, State.add64, s.ringState_wrN_other (RINGS_DONE_COUNT k) _ _ (ringReg_ne rfl)]

theorem flush (k : Nat) : NotRunning r (s.flush k) := by rwa [NotRunning, State.ringState_flush]

theorem ringOff (k : Nat) : NotRunning r (s.ringOff k) := by
  rw [NotRunning, s.ringState_ringOff]
  split
  · decide
  · exact h

theorem stopped (k : Nat) : NotRunning r (s.stopped k) := by
  rw [NotRunning, s.ringState_stopped]
  split
  · decide
  · exact h

theorem ringSettle (k : Nat) : NotRunning r (s.ringSettle k) := by
  rcases s.ringSettle_cases k with heq | heq | heq <;> rw [heq]
  · exact h
  · exact h.stopped k
  · exact (h.stopped k).ringOff k

theorem ringStopping (k : Nat) : NotRunning r (s.ringStopping k) := by
  unfold State.ringStopping
  refine ite _ ?_ h
  extract_lets gone n x s₁ s₂ s₃
  have hs₁ : NotRunning r s₁ := h
  have hs₂ : NotRunning r s₂ := hs₁.aside ((Aside.refl s₁).each (fun _ _ hv => hv.endStamp) _)
  exact (((hs₂.setState k 2 (by decide)).addDone k n).flush k).ringSettle k

theorem complete {k seq status result} : NotRunning r (s.complete k seq status result) := by
  unfold State.complete
  extract_lets fails
  split
  · exact h
  · refine ite _ h ?_
    extract_lets s₁ s₂ s₃ s₄ s₅ s₆ s₇
    have hs₂ : NotRunning r s₂ := h.aside (Aside.ite _ (Aside.refl s).signal (Aside.refl s)).endStamp
    have hs₃ : NotRunning r s₃ := hs₂
    have hs₄ : NotRunning r s₄ := hs₃.addDone k 1
    have hs₆ : NotRunning r s₆ := (ite _ (hs₄.lastFail k status) hs₄).flush k
    exact (ite _ (hs₆.ringStopping k) hs₆).ringSettle k

theorem endRun {x status result} : NotRunning r (s.endRun x status result) := by
  unfold State.endRun
  extract_lets s₁ s₂ s₃ s₄ s₅ s₆ s₇ s₈
  have hs₂ : Aside s s₂ := (Aside.ite _ (Aside.refl s).writeEvents (Aside.refl s)).each (fun _ _ hv => hv.debugEnd) _
  have hs₄ : Aside s s₄ := (hs₂.each (fun _ _ hv => hv.clearSteps) _).setFloor.setRelay
  have hs₆ : Aside s s₆ := (hs₄.each (fun _ _ hv => hv.syncWaits) _).each (fun _ _ hv => hv.setXchan) _
  have hs₇ : Aside s s₇ := Aside.ite _ hs₆.setFloor hs₆
  have hs₈ : NotRunning r s₈ := h.aside (Aside.ite _ hs₇.report hs₇)
  exact hs₈

theorem failRun {k seq status result} : NotRunning r (s.failRun k seq status result) := by
  have hset : NotRunning r (s.setRun k seq fun x => if x.fail.isSome then x else { x with fail := some (status, result) }) := h
  unfold State.failRun State.runSettle
  split
  · exact hset
  · exact ite _ hset (ite _ hset.endRun hset)

theorem loadAbort {k seq} : NotRunning r (s.loadAbort k seq) := by
  unfold State.loadAbort
  split
  · exact h
  · next l _ =>
    have hforget : NotRunning r (s.memForget l.ring l.seq) := h.aside (Aside.refl s).memForget
    exact ite _ (hforget.aside (Aside.refl _).setFab.regionClear).complete (hforget.aside (Aside.refl _).setFab).complete

theorem abortFlight {k f} : NotRunning r (s.abortFlight k f) := by
  unfold State.abortFlight
  refine ite _ h ?_
  split
  · exact ite _ h.failRun h.complete
  · exact ite _ h h.complete
  · exact (h.aside (Aside.refl s).psAbort.memForget).complete
  · exact (h.aside (Aside.refl s).setServe).complete
  · exact (h.aside (Aside.refl s).fwAbort.memForget).complete
  · exact ite _ h.loadAbort h.complete
  · exact (h.aside (Aside.refl s).setRelay.memForget).complete

theorem ringAbort (k : Nat) : NotRunning r (s.ringAbort k) := by
  have habort : NotRunning r (s.putB (RINGS_CTRL_ABORT k) true) := by rwa [NotRunning, s.ringState_ctrl _ _ _ k rfl]
  exact ite _ (((habort.ringStopping k).each (fun _ _ hv => hv.abortFlight) _).ringSettle k) h

theorem ringKill (k : Nat) : NotRunning r (s.ringKill k) := by
  have hset : NotRunning r (s.setRing k { s.ring k with disabling := true }) := h
  exact ite _ ((hset.ringAbort k).ringOff k) (hset.ringAbort k)

theorem resetFunction (f : Nat) : NotRunning r (s.resetFunction f) := by
  unfold State.resetFunction
  extract_lets s₁ s₂
  have hs₁ : NotRunning r s₁ := h.each (fun _ k hv => hv.ringKill k) _
  have hs₂ : NotRunning r s₂ := hs₁.aside (Aside.refl s₁).setServe
  split
  · exact hs₂.aside (Aside.refl s₂).loseHolder
  · exact hs₂

end NotRunning

/-! ### STOP, ABORT and reset take a ring out of RUNNING -/

theorem State.notRunning_ringStopping (s : State) (r : Ring) : NotRunning r (s.ringStopping r) := by
  by_cases hrun : s.ringState r = 1
  · obtain ⟨v, hv, heq⟩ := s.ringStopping_eq r hrun
    have hv' : NotRunning r v := by rw [NotRunning, hv.state]; decide
    exact heq ▸ hv'.ringSettle r
  · exact NotRunning.ringStopping hrun r

theorem State.notRunning_ringStop (s : State) (r : Ring) (h : s.ringState r = 1) : NotRunning r (s.ringStop r) := by
  rw [s.ringStop_running r h]
  exact (State.notRunning_ringStopping _ r).each (fun _ _ hv => hv.complete) _

theorem State.ringAbort_running (s : State) (r : Nat) (h : s.ringState r = 1) : s.ringAbort r =
    (((s.putB (RINGS_CTRL_ABORT r) true).ringStopping r).each ((((s.putB (RINGS_CTRL_ABORT r) true).ringStopping r)).ring r).flights
      fun s f => s.abortFlight r f).ringSettle r := if_pos (by simp [h])

theorem State.notRunning_ringAbort (s : State) (r : Ring) : NotRunning r (s.ringAbort r) := by
  by_cases hrun : s.ringState r = 1
  · rw [s.ringAbort_running r hrun]
    exact ((State.notRunning_ringStopping _ r).each (fun _ _ hv => hv.abortFlight) _).ringSettle r
  · exact NotRunning.ringAbort hrun r

theorem State.notRunning_ringKill (s : State) (r : Ring) : NotRunning r (s.ringKill r) := by
  have habort := (s.setRing r { s.ring r with disabling := true }).notRunning_ringAbort r
  exact NotRunning.ite _ (habort.ringOff r) habort

/-- A reset of a function takes each ring that it names out of RUNNING. -/
theorem State.notRunning_each_kill (l : List Nat) (s : State) (r : Ring) (hr : r.val ∈ l) : NotRunning r (s.each l fun s k => s.ringKill k) := by
  induction l generalizing s with
  | nil => cases hr
  | cons k l ih =>
    rcases List.mem_cons.mp hr with rfl | hl
    · exact (s.notRunning_ringKill r).each (fun _ k hv => hv.ringKill k) l
    · rw [State.each_cons]
      exact ih (s.ringKill k) hl

/-! ### The rings that have left DISABLED -/

theorem SMap.mem_of_get_ne {α : Type} (d : Nat → α) (m : SMap α) (k : Nat) (h : SMap.get d m k ≠ d k) : (k, SMap.get d m k) ∈ m := by
  induction m with
  | nil => exact absurd rfl h
  | cons e t ih =>
    obtain ⟨j, w⟩ := e
    simp only [SMap.get] at h ⊢
    split
    · next hk => rw [hk]; exact List.mem_cons_self
    · next hk => exact List.mem_cons_of_mem _ (ih (by rwa [if_neg hk] at h))

/-- No register of the rings has RUNNING as its reset value. -/
theorem regReset_ring (o : Nat) (ho : InRings o) : Word.bits (regReset o) 1 0 ≠ 1 := by
  obtain ⟨hlo, hhi⟩ := ho
  have hrows : regRowsAt o = regRowsRINGS := by
    unfold regRowsAt
    rw [if_neg (by omega), if_neg (by omega), if_neg (by omega), if_pos (by omega)]
  have hreset : ∀ row ∈ regRowsRINGS, Word.bits (BitVec.ofNat 64 row.reset) 1 0 ≠ 1 := by decide
  have hother : hasOtherReset o = false := by
    simp only [hasOtherReset, decide_eq_false (show ¬o < 0x10000 by omega), decide_eq_false (show ¬RINGS_RECEIPT_BASE ≤ o by unfold RINGS_RECEIPT_BASE; omega),
      decide_eq_false (show ¬0x200000 ≤ o by omega), decide_eq_false (show ¬0xA00000 ≤ o by omega), Bool.false_and, Bool.or_self]
  unfold regReset
  rw [hother]
  simp only [Bool.false_eq_true, if_false]
  split
  · next row hrow =>
    rw [regRow?, hrows] at hrow
    exact hreset row (List.mem_of_find?_eq_some hrow)
  · decide

theorem State.mem_liveRings (s : State) (r : Ring) (h : s.ringState r = 1) : r.val ∈ s.liveRings := by
  have hin : InRings (RINGS_STATUS r) := inRings r rfl rfl
  have hbits : Word.bits (SMap.get regReset s.regs (RINGS_STATUS r)) 1 0 = 1 := h
  have hmem := SMap.mem_of_get_ne regReset s.regs (RINGS_STATUS r) fun heq => regReset_ring _ hin (heq ▸ hbits)
  obtain ⟨hlo, hhi⟩ := hin
  have hmod : RINGS_STATUS r % 64 = 0x18 := by unfold RINGS_STATUS; omega
  have hdiv : (RINGS_STATUS r - 0x30000) / 64 = r := by unfold RINGS_STATUS; omega
  exact List.mem_map.mpr ⟨_, List.mem_filter.mpr ⟨hmem, by simp [hlo, hhi, hmod, hbits]⟩, hdiv⟩

/-- The reset of the function that owns a RUNNING ring takes it out of RUNNING. -/
theorem State.notRunning_resetFunction (s : State) (r : Ring) (h : s.ringState r = 1) : NotRunning r (s.resetFunction (s.ringFn r)) := by
  unfold State.resetFunction
  extract_lets s₁ s₂
  have hs₁ : NotRunning r s₁ := s.notRunning_each_kill _ r (List.mem_filter.mpr ⟨s.mem_liveRings r h, by simp⟩)
  have hs₂ : NotRunning r s₂ := hs₁.aside (Aside.refl s₁).setServe
  split
  · exact hs₂.aside (Aside.refl s₂).loseHolder
  · exact hs₂

theorem State.notRunning_flr (s : State) (r : Ring) (h : s.ringState r = 1) : NotRunning r (s.flr (s.ringFn r)) := by
  unfold State.flr
  split
  · next h0 =>
    have hfirst : NotRunning r (s.resetFunction 0) := h0 ▸ s.notRunning_resetFunction r h
    rw [List.range_succ_eq_map, State.each_cons]
    exact hfirst.each (fun _ f hv => hv.resetFunction f) _
  · exact s.notRunning_resetFunction r h

/-! ### ABORT and reset of a ring on which nothing runs -/

theorem State.each_abort_done (s : State) (r : Nat) (l : List Flight) (hl : ∀ f ∈ l, f.stage = .done) : (s.each l fun s f => s.abortFlight r f) = s := by
  induction l with
  | nil => rfl
  | cons f l ih =>
    have hf : s.abortFlight r f = s := if_pos (by rw [hl f List.mem_cons_self]; rfl)
    rw [State.each_cons, hf]
    exact ih fun x hx => hl x (List.mem_cons_of_mem f hx)

/-- ABORT of a ring on which nothing runs does no more than the way into STOPPING. -/
theorem State.ringAbort_idle (s : State) (r : Ring) (h : s.ringState r = 1) (hf : ∀ f ∈ (s.ring r).flights, f.stage = .fetched ∨ f.stage = .done) :
    ∃ v : State, (∀ f ∈ (v.ring r).flights, f.stage = .done) ∧ s.ringAbort r = if (s.ring r).disabling then (v.stopped r).ringOff r else v.stopped r := by
  obtain ⟨v, -, hdone, heq⟩ := (s.putB (RINGS_CTRL_ABORT r) true).ringStopping_idle r ((s.ringState_ctrl _ _ _ r rfl).trans h) hf
  have heq' : (s.putB (RINGS_CTRL_ABORT r) true).ringStopping r = if (s.ring r).disabling then (v.stopped r).ringOff r else v.stopped r := heq
  refine ⟨v, hdone, ?_⟩
  rw [s.ringAbort_running r h, heq']
  split
  · rw [State.each_abort_done ((v.stopped r).ringOff r) r (((v.stopped r).ringOff r).ring r).flights (by simp)]
    exact State.ringSettle_of_not_stopping _ r (by rw [State.ringState_ringOff_same]; decide)
  · rw [State.each_abort_done (v.stopped r) r ((v.stopped r).ring r).flights hdone]
    exact State.ringSettle_of_not_stopping _ r (by rw [State.ringState_stopped, if_pos rfl]; decide)

/-- A ring on which nothing runs is disabled at once. -/
theorem State.ringKill_idle (s : State) (r : Ring) (h : s.ringState r = 1) (hf : ∀ f ∈ (s.ring r).flights, f.stage = .fetched ∨ f.stage = .done) :
    ∃ v : State, s.ringKill r = v.ringOff r := by
  obtain ⟨v, -, heq⟩ := (s.setRing r { s.ring r with disabling := true }).ringAbort_idle r h (by rwa [State.ring_setRing_same])
  rw [State.ring_setRing_same, if_pos rfl] at heq
  refine ⟨v.stopped r, ?_⟩
  unfold State.ringKill
  rw [heq]
  exact if_neg (by rw [State.ringState_ringOff_same]; decide)

/-- The reset of a function that owns one live ring alone, on which nothing runs, disables it. -/
theorem State.resetFunction_idle (s : State) (r : Ring) (f : Nat) (hl : s.liveRings.filter (fun k => s.ringFn k == f) = [r.val]) (h : s.ringState r = 1)
    (hf : ∀ x ∈ (s.ring r).flights, x.stage = .fetched ∨ x.stage = .done) : ∃ v : State, Aside (v.ringOff r) (s.resetFunction f) := by
  obtain ⟨v, heq⟩ := s.ringKill_idle r h hf
  refine ⟨v, ?_⟩
  have heach : (s.each [r.val] fun s k => s.ringKill k) = v.ringOff r := heq
  unfold State.resetFunction
  rw [hl, heach]
  split
  · exact (Aside.refl _).setServe.loseHolder
  · exact (Aside.refl _).setServe

theorem execFunctionLevelReset_up (f : Fin 17) (s : State) (hs : s.spineUp = true) : exec (.functionLevelReset f) s = .next (s.flr f) := by
  show execFunctionLevelReset f s = _
  rw [execFunctionLevelReset, if_pos hs]

/-- Settles O23: each control command that lands is its operation on the ring, and a reset aborts the rings of its function. -/
theorem ringControlMovesRingStates : Obligations.RingControlMovesRingStates := by
  intro q r s hs hq hh
  have hctl : ∀ act, (s.ringFn r = 18 → q.secure = true) → (s.landing q (RINGS_CTRL r) fun s => s.ringCtl q r act) = act s :=
    fun act hw => s.ctrl_lands q r act hs hq hh hw
  refine ⟨fun v hst hfn hf => ?_, fun hw => ⟨fun hst hsafe hsub hret => ?_, fun hst => ?_, fun hst hsafe => ?_, fun hst => ?_, fun hst => ?_⟩,
    fun f hst hfn => ?_⟩
  · obtain ⟨hfn', hclass, hgroup⟩ := s.get_cfgWord r v
    exact ⟨_, execRingCfgWrite_taken q r v s hs hq hh hst hfn hf, hfn', hclass, hgroup, fun o ho => s.rd_wrN_other _ o _ ho,
      s.wrN_mem _ _⟩
  · refine ⟨(s.ringOff r).running r, congrArg Host.Outcome.next ((hctl _ hw).trans (s.ringEnable_taken r hst hsafe hsub hret)), ?_⟩
    obtain ⟨hrun, henable, hdone⟩ := (s.ringOff r).running_facts r
    obtain ⟨hsubTail, hsubHead, hretTail, hretHead⟩ := s.counts_running_ringOff r
    exact ⟨hrun, henable, hsubTail, hsubHead, hretTail, hretHead, hdone, ((s.ringOff r).mem_running r).trans (s.mem_ringOff r)⟩
  · refine ⟨s.ringOff r, congrArg Host.Outcome.next ((hctl _ hw).trans (s.ringDisable_stopped r hst)), ?_⟩
    obtain ⟨hsubTail, hsubHead, hretTail, hretHead⟩ := s.counts_ringOff r
    exact ⟨s.ringState_ringOff_same r, s.on_ringOff_ctrl r _ rfl, hsubTail, hsubHead, hretTail, hretHead, s.mem_ringOff r⟩
  · refine ⟨s.put (RINGS_STATUS_STATE r) 1, congrArg Host.Outcome.next ((hctl _ hw).trans (s.ringResume_stopped r hst hsafe)), ?_,
      s.rdN_put_other (RINGS_STATUS_STATE r) _ _ (ringReg_ne rfl), rfl⟩
    rw [s.ringState_put_state, if_pos rfl]
  · exact ⟨s.ringStop r, congrArg Host.Outcome.next (hctl _ hw), s.notRunning_ringStop r hst, s.ringStop_idle r hst, fun ⟨f, hf, hfs, hk⟩ =>
      have hstop := s.ringStop_started r hst hf hfs hk
      ⟨hstop.state, hstop.stop⟩⟩
  · refine ⟨s.ringAbort r, congrArg Host.Outcome.next (hctl _ hw), s.notRunning_ringAbort r, fun hd hf => ?_⟩
    obtain ⟨v, hdone, heq⟩ := s.ringAbort_idle r hst hf
    rw [heq, hd, if_neg (by decide)]
    exact ⟨by rw [v.ringState_stopped, if_pos rfl], v.on_stopped_abort r, hdone⟩
  · refine ⟨s.flr f, execFunctionLevelReset_up f s hs, hfn ▸ s.notRunning_flr r hst, fun hf0 hl hf => ?_⟩
    obtain ⟨v, hv⟩ := s.resetFunction_idle r f hl hst hf
    have hflr : s.flr f = s.resetFunction f := by rw [State.flr, if_neg hf0]; rfl
    obtain ⟨hsubTail, -, hretTail, -⟩ := v.counts_ringOff r
    rw [hflr]
    exact ⟨(hv.ringState r).trans (v.ringState_ringOff_same r), (hv.on (RINGS_CTRL_ENABLE r) (inRings r rfl rfl)).trans (v.on_ringOff_ctrl r _ rfl),
      (hv.rdN (RINGS_SUB_TAIL r) (inRings r rfl rfl)).trans hsubTail, (hv.rdN (RINGS_RET_TAIL r) (inRings r rfl rfl)).trans hretTail,
      by rw [hv.ring, v.ring_ringOff]⟩

end Sys2Proof.Machine
end

section
/-! SUPPORT. What the completion of an envelope leaves alone (Envelopes R92 to R97): the registers below the rings' and the transaction unit; and LAST_FAIL of
every ring, once the status of a failure has been put there. -/

namespace Sys2Proof.Machine
open Reg

/-! ### The registers that a completion writes -/

/-- The offset of a register above the rings', or of one of the rings' other than STATUS. -/
def EngineReg (o : Nat) : Prop := 0x70000 ≤ o ∨ (0x30000 ≤ o ∧ o % 0x40 ≠ 0x18)

/-- A register above the rings', or one of several. -/
theorem engineReg {b k : Nat} (h : Nat.ble 0x70000 b = true) : EngineReg (b + k) :=
  .inl (le_trans (Nat.le_of_ble_eq_true h) (Nat.le_add_right b k))

/-- A register of a ring, other than STATUS. -/
theorem engineReg_ring {b r : Nat} (hlo : Nat.ble 0x30000 b = true) (hst : Nat.beq (b % 0x40) 0x18 = false) : EngineReg (b + 0x40 * r) := by
  have hb := Nat.le_of_ble_eq_true hlo
  have hne := Nat.ne_of_beq_eq_false hst
  exact .inr ⟨by omega, by omega⟩

theorem EngineReg.ite (c : Prop) [Decidable c] {f g : Fld} (hf : EngineReg f.reg) (hg : EngineReg g.reg) : EngineReg (if c then f else g).reg := by
  split <;> assumption

/-- `t` has the registers below the rings', the status of the last failure of every ring, and the transaction unit as `s` has them. -/
structure EngineOnly (s t : State) : Prop where
  rd : ∀ o, o < 0x30000 → t.rd o = s.rd o
  lastFail : ∀ r : Ring, t.get (RINGS_STATUS_LAST_FAIL r) = s.get (RINGS_STATUS_LAST_FAIL r)
  txn : t.txn = s.txn

namespace EngineOnly
variable {s t u : State}

theorem refl (s : State) : EngineOnly s s := ⟨fun _ _ => rfl, fun _ => rfl, rfl⟩

theorem trans (h : EngineOnly s t) (k : EngineOnly t u) : EngineOnly s u :=
  ⟨fun o ho => (k.rd o ho).trans (h.rd o ho), fun r => (k.lastFail r).trans (h.lastFail r), k.txn.trans h.txn⟩

theorem ite (c : Prop) [Decidable c] {a b : State} (ha : EngineOnly s a) (hb : EngineOnly s b) : EngineOnly s (if c then a else b) := by
  split <;> assumption

theorem of_spent (h : Spent s t) : EngineOnly s t := by
  have hring : ∀ r : Ring, RINGS_STATUS r < MEMCTL_CLASS_BYTES 0 := fun r => by
    have hr := r.isLt
    unfold RINGS_STATUS MEMCTL_CLASS_BYTES
    omega
  refine ⟨fun o ho => h.rd o ?_, fun r => h.get _ (hring r), ?_⟩
  · unfold MEMCTL_CLASS_BYTES
    omega
  · obtain ⟨⟨_, _, rfl⟩, _⟩ := h
    rfl

theorem get (h : EngineOnly s t) (g : Fld) (hg : g.reg < 0x30000) : t.get g = s.get g := by simp only [State.get, h.rd _ hg]

variable (h : EngineOnly s t)
include h

/-- An update of neither the registers nor the transaction unit. -/
theorem same (hregs : u.regs = t.regs) (htxn : u.txn = t.txn) : EngineOnly s u := by
  have hrd : ∀ o, u.rd o = t.rd o := fun o => by rw [State.rd, hregs, State.rd]
  exact h.trans ⟨fun o _ => hrd o, fun r => by simp only [State.get, hrd], htxn⟩

/-- A fold over a list leaves all of this alone if each of its steps does. -/
theorem each {α : Type} {f : State → α → State} (hf : ∀ v x, EngineOnly s v → EngineOnly s (f v x)) (l : List α) : EngineOnly s (t.each l f) := by
  unfold State.each
  induction l generalizing t with
  | nil => exact h
  | cons x l ih => exact ih (hf t x h)

/-! ### Writes of registers -/

theorem wr {o v} (ho : EngineReg o) : EngineOnly s (t.wr o v) := by
  refine h.trans ⟨fun i hi => t.rd_wr_other o i v ?_, fun r => t.get_wr_other o v _ ?_, rfl⟩
  · rintro rfl
    rcases ho with ho | ⟨ho, -⟩ <;> omega
  · have hr := r.isLt
    show 0x30018 + 0x40 * r.val ≠ o
    rcases ho with ho | ⟨-, ho⟩ <;> omega

theorem wrN {o n} (ho : EngineReg o) : EngineOnly s (t.wrN o n) := h.wr ho
theorem put {f n} (ho : EngineReg f.reg) : EngineOnly s (t.put f n) := h.wr ho
theorem putB {f b} (ho : EngineReg f.reg) : EngineOnly s (t.putB f b) := h.wr ho
theorem setBit {o i b} (ho : EngineReg o) : EngineOnly s (t.setBit o i b) := h.wr ho
theorem addSat {o n} (ho : EngineReg o) : EngineOnly s (t.addSat o n) := h.wr ho
theorem add64 {o n} (ho : EngineReg o) : EngineOnly s (t.add64 o n) := h.wr ho
theorem setActing {l} : EngineOnly s (t.setActing l) := h.same rfl rfl
theorem clearNow {f} (ho : EngineReg f.reg) : EngineOnly s (t.clearNow f) := h.setActing.put ho

/-- STATE and RET_FULL lie below LAST_FAIL in STATUS. -/
theorem putStatus {k n} {f : Fld} (hf : f.reg = RINGS_STATUS k) (hw : f.lo ≤ f.hi) (hh : f.hi < 16) : EngineOnly s (t.put f n) := by
  refine h.trans ⟨fun i hi => t.rd_put_other f n i ?_, fun r => t.get_put_apart f _ n hw (by omega) (.inl hh), rfl⟩
  rw [hf]
  unfold RINGS_STATUS
  omega

theorem putState {k n} : EngineOnly s (t.put (RINGS_STATUS_STATE k) n) := h.putStatus rfl (Nat.zero_le 1) (by decide : 1 < 16)
theorem putRetFull {k b} : EngineOnly s (t.putB (RINGS_STATUS_RET_FULL k) b) := h.putStatus rfl (Nat.le_refl 8) (by decide : 8 < 16)

theorem report {e} : EngineOnly s (t.report e) := by
  have hrd : ∀ o, o < 0x70000 → (t.report e).rd o = t.rd o := fun o ho => by
    refine t.rd_report e o ?_ (.inl (by omega))
    unfold SECURE_SEC_NOTIFY
    omega
  refine h.trans ⟨fun o ho => hrd o (by omega), fun r => ?_, t.report_txn e⟩
  have hr := r.isLt
  have hreg : RINGS_STATUS r < 0x70000 := by
    unfold RINGS_STATUS
    omega
  exact congrArg (fun w => Word.bits w 31 16) (hrd _ hreg)

/-! ### Interrupts, and device and host memory -/

theorem sendIrq {i} : EngineOnly s (t.sendIrq i) := h.same rfl rfl

theorem msix {f v} : EngineOnly s (t.msix f v) := by
  unfold State.msix
  exact EngineOnly.ite _ h h.sendIrq

theorem coreIrq {b n v} : EngineOnly s (t.coreIrq b n v) := by
  unfold State.coreIrq
  exact EngineOnly.ite _ h.sendIrq h

theorem irqTo {f v n} : EngineOnly s (t.irqTo f v n) := by
  unfold State.irqTo
  exact EngineOnly.ite _ h.msix (EngineOnly.ite _ h.coreIrq (EngineOnly.ite _ h.coreIrq h))

theorem accReport {e} : EngineOnly s (t.accReport e) := by
  unfold State.accReport
  split
  · exact h.report.wrN (engineReg (k := 0) rfl)
  · exact h.report
  · exact h.report
  · exact h.report
  · exact h

theorem wrMem {a b} : EngineOnly s (t.wrMem a b) := h.same rfl rfl
theorem putPoison {l} : EngineOnly s (t.putPoison l) := h.same rfl rfl
theorem setPoison {l} : EngineOnly s (t.setPoison l) := h.putPoison.put (engineReg (k := 0) rfl)

theorem writeLine {a b} : EngineOnly s (t.writeLine a b) :=
  EngineOnly.ite _ h.report (EngineOnly.ite _ (EngineOnly.ite _ h.setPoison.wrMem h.report) h.wrMem)

theorem setFlip {a n} : EngineOnly s (t.setFlip a n) := h.same rfl rfl

theorem eccWord {x} : EngineOnly s (t.eccWord x) := by
  unfold State.eccWord
  extract_lets cache s₁
  have hs₁ : EngineOnly s s₁ := h.setFlip
  split
  · exact h
  · extract_lets s₂ f s₃
    have hs₂ : EngineOnly s s₂ := EngineOnly.ite _ (hs₁.put (engineReg rfl)) (hs₁.put (engineReg rfl))
    exact EngineOnly.ite _ (hs₂.put (EngineReg.ite _ (engineReg rfl) (engineReg rfl))).report
      (hs₂.putB (EngineReg.ite _ (engineReg rfl) (engineReg rfl))).putPoison.report

theorem eccRead {a n} : EngineOnly s (t.eccRead a n) := h.each (fun _ _ hv => hv.eccWord) _

theorem freshWord {w} : EngineOnly s (t.freshWord w) := by
  unfold State.freshWord
  extract_lets s₁
  have hs₁ : EngineOnly s s₁ := EngineOnly.ite _ h.setFlip h
  exact EngineOnly.ite _ hs₁.putPoison hs₁

theorem writeSram {a b} : EngineOnly s (t.writeSram a b) := by
  unfold State.writeSram
  extract_lets w s₁
  have hs₁ : EngineOnly s s₁ := h.eccRead
  exact EngineOnly.ite _ h.report (EngineOnly.ite _ (EngineOnly.ite _ h.freshWord.wrMem (EngineOnly.ite _ hs₁ hs₁.wrMem)) h)

theorem store {a b} : EngineOnly s (t.store a b) :=
  EngineOnly.ite _ (h.each (fun _ _ hv => hv.writeSram) _) (h.each (fun _ _ hv => hv.writeLine) _)

theorem addrWrite {f a b} : EngineOnly s (t.addrWrite f a b).1 := by
  unfold State.addrWrite State.fnWrite
  split
  · split
    · exact h
    · split
      · exact h.same (u := t.wrHost _ _) rfl rfl
      · exact h.accReport (e := .host)
  · split
    · exact h.accReport
    · exact h.store

theorem traffic {k who a n} : EngineOnly s (t.traffic k who a n) := h.trans (of_spent (Spent.traffic t k who a n))

/-! ### The firmware log ring and receipts -/

theorem ledgerPut {e} : EngineOnly s (t.ledgerPut e) := by
  unfold State.ledgerPut
  extract_lets j a s₁
  have hs₁ : EngineOnly s s₁ := EngineOnly.ite _ h h.traffic
  split
  · next s' heq =>
    have hs' : EngineOnly s s' := of_fst hs₁.addrWrite heq
    exact hs'.wrN (engineReg (k := 0) rfl)
  · next s' _ heq =>
    have hs' : EngineOnly s s' := of_fst hs₁.addrWrite heq
    exact (hs'.clearNow (engineReg (k := 0) rfl)).report

theorem ledger {e} : EngineOnly s (t.ledger e) := by
  have hrun : ∀ {v n}, EngineOnly s v → EngineOnly s (v.setLedgerRun n) := fun hv => hv.same rfl rfl
  unfold State.ledger
  refine EngineOnly.ite _ h (EngineOnly.ite _ ?_ ?_)
  · extract_lets s'
    have hs' : EngineOnly s s' := (hrun h).addSat (engineReg (k := 0) rfl)
    exact EngineOnly.ite _ hs'.report hs'
  · extract_lets s'
    have hs' : EngineOnly s s' := EngineOnly.ite _ h (hrun h).ledgerPut
    exact EngineOnly.ite _ hs'.ledgerPut hs'

theorem endStamp {r f status} : EngineOnly s (t.endStamp r f status) := EngineOnly.ite _ h.ledger h

theorem signal {src i max? v} : EngineOnly s (t.signal src i max? v) := by
  unfold State.signal
  refine EngineOnly.ite _ ?_ h
  extract_lets c ops s₁ s₂
  have hs₂ : EngineOnly s s₂ := h.same rfl rfl
  exact EngineOnly.ite _ (hs₂.setBit (engineReg (k := 0) rfl)).report hs₂

/-! ### The ring engine -/

theorem setRing {r d} : EngineOnly s (t.setRing r d) := h.same rfl rfl
theorem countIrq {r} : EngineOnly s (t.countIrq r) := EngineOnly.ite _ h.setRing.irqTo h.setRing

theorem putRecord {r mk irq} : EngineOnly s (t.putRecord r mk irq) := by
  unfold State.putRecord
  extract_lets j s₁ s₂
  have hs₂ : EngineOnly s s₂ := h.addrWrite.traffic.wrN (engineReg_ring rfl rfl)
  exact EngineOnly.ite _ hs₂.countIrq hs₂

theorem flushFlights {r l} : EngineOnly s (t.flushFlights r l) := by
  induction l generalizing t with
  | nil => exact h
  | cons f l ih =>
    rw [State.flushFlights]
    exact EngineOnly.ite _ (EngineOnly.ite _ (ih h.setRing) (EngineOnly.ite _ (ih h.setRing.putRecord) h)) h

theorem flushUnsol {r l} : EngineOnly s (t.flushUnsol r l) := by
  induction l generalizing t with
  | nil => exact h
  | cons u l ih =>
    rw [State.flushUnsol]
    exact EngineOnly.ite _ (ih h.setRing.putRecord) h

theorem flush {r} : EngineOnly s (t.flush r) := by
  unfold State.flush
  extract_lets s₁ s₂
  have hs₂ : EngineOnly s s₂ := h.flushFlights.flushUnsol
  exact EngineOnly.ite _ hs₂.putRetFull hs₂

theorem ringOff {r} : EngineOnly s (t.ringOff r) := by
  unfold State.ringOff
  extract_lets s₁ s₂ s₃
  have hs₁ : EngineOnly s s₁ := h.same rfl rfl
  have hs₂ : EngineOnly s s₂ := hs₁.putState.putRetFull.wrN (engineReg_ring rfl rfl)
  have hs₃ : EngineOnly s s₃ := ((hs₂.wrN (engineReg_ring rfl rfl)).wrN (engineReg_ring rfl rfl)).wrN (engineReg_ring rfl rfl)
  exact (hs₃.wrN (engineReg_ring rfl rfl)).setRing

theorem stopped {r} : EngineOnly s (t.stopped r) := (h.putState.putB (engineReg_ring rfl rfl)).putB (engineReg_ring rfl rfl)

theorem ringSettle {r} : EngineOnly s (t.ringSettle r) := by
  rcases t.ringSettle_cases r with heq | heq | heq <;> rw [heq]
  · exact h
  · exact h.stopped
  · exact h.stopped.ringOff

theorem ringStopping {r} : EngineOnly s (t.ringStopping r) := by
  unfold State.ringStopping
  refine EngineOnly.ite _ ?_ h
  extract_lets gone n x s₁ s₂ s₃
  have hs₂ : EngineOnly s s₂ := h.setRing.each (fun _ _ hv => hv.endStamp) _
  exact (hs₂.putState.add64 (engineReg_ring rfl rfl)).flush.ringSettle

end EngineOnly

/-! ### Completion -/

/-- The status of an envelope that fails is put into LAST_FAIL. -/
def State.noteFail (s : State) (r status : Nat) : State := if status != 0 && status != 9 then s.put (RINGS_STATUS_LAST_FAIL r) status else s

/-- But for the status of a failure, the completion of an envelope leaves LAST_FAIL, and it leaves the transaction unit and the registers below the rings'. -/
theorem State.engineOnly_complete (s : State) (r seq status result : Nat) {f : Flight} (hf : s.flight r seq = some f) (hd : f.stage ≠ .done) :
    ∃ u, EngineOnly s u ∧ EngineOnly (u.noteFail r status) (s.complete r seq status result) := by
  unfold State.complete
  extract_lets fails
  split
  · next hnone => cases hf.symm.trans hnone
  · next x hx =>
    cases hf.symm.trans hx
    rw [if_neg hd]
    extract_lets s₁ s₂ s₃ s₄ s₅ s₆ s₇
    have hs₂ : EngineOnly s s₂ := (EngineOnly.ite _ (EngineOnly.refl s).signal (EngineOnly.refl s)).endStamp
    have hs₆ : EngineOnly s₅ s₆ := (EngineOnly.refl s₅).flush
    exact ⟨s₄, hs₂.setRing.add64 (engineReg_ring rfl rfl), (EngineOnly.ite _ hs₆.ringStopping hs₆).ringSettle⟩

theorem State.engineOnly_complete_ok (s : State) (r seq result : Nat) {f : Flight} (hf : s.flight r seq = some f) (hd : f.stage ≠ .done) :
    EngineOnly s (s.complete r seq 0 result) := by
  obtain ⟨u, hu, hdone⟩ := s.engineOnly_complete r seq 0 result hf hd
  exact hu.trans hdone

/-- A failure is told in LAST_FAIL, and leaves the transaction unit. -/
theorem State.complete_fails (s : State) (r : Ring) (seq status result : Nat) {f : Flight} (hf : s.flight r seq = some f) (hd : f.stage ≠ .done)
    (hok : status ≠ 0) (hcancel : status ≠ 9) : (s.complete r seq status result).txn = s.txn ∧
      (s.complete r seq status result).get (RINGS_STATUS_LAST_FAIL r) = status % 2 ^ 16 := by
  obtain ⟨u, hu, hdone⟩ := s.engineOnly_complete r seq status result hf hd
  rw [State.noteFail, if_pos (by simp [hok, hcancel])] at hdone
  exact ⟨hdone.txn.trans ((u.put_txn _ _).trans hu.txn),
    (hdone.lastFail r).trans (u.get_put_same (RINGS_STATUS_LAST_FAIL r) status (by decide : 16 ≤ 31) (by decide : 31 < 64))⟩

end Sys2Proof.Machine
end

section
/-! SUPPORT. The owners of the transaction unit (Transactions §2, §3): what an open, a seal, a return and the first record of a shadow set make of one. -/

namespace Sys2Proof.Machine
open Reg

/-! ### Owners and holders -/

/-- Two registers of owners whose places in the owner's block differ are not the same. -/
theorem ownerReg_ne {a b i j : Nat} (h : Nat.beq (a % 0x20) (b % 0x20) = false) : a + 0x20 * i ≠ b + 0x20 * j := by
  have := Nat.ne_of_beq_eq_false h
  omega

theorem ownerPermitted_lt {h o : Nat} (hp : ownerPermitted h o = true) : o < 8 := by
  simp only [ownerPermitted, Bool.or_eq_true, Bool.and_eq_true, decide_eq_true_eq, beq_iff_eq] at hp
  omega

/-- The holders of Table 4.1 fit their field of OWNER_HOLDER. -/
theorem holder_lt (q : Req) {h : Nat} (hq : q.holder = some h) : h < 256 := by
  cases q with
  | pf => cases hq; decide
  | host sec core => cases sec <;> cases hq <;> decide
  | fw p =>
    simp only [Req.holder] at hq
    split at hq <;> cases hq
    omega
  | opantith => cases hq; decide
  | vf k => cases hq

theorem State.ownHeld_iff (s : State) (h o : Nat) : s.ownHeld h o = true ↔ s.heldBy h = some o ∧ s.ownerOpen o = true := by
  simp [State.ownHeld]

theorem State.ownHeld_lt (s : State) {h o : Nat} (hown : s.ownHeld h o = true) : o < 8 :=
  List.mem_range.mp (List.mem_of_find?_eq_some ((s.ownHeld_iff h o).mp hown).1)

theorem State.round_lt (s : State) : s.round < 2 ^ 64 := (s.rd ROUND_COUNT).isLt

/-! ### An owner's transaction -/

@[simp] theorem State.ownerSt_setOwner_same (s : State) (o : Nat) (x : OwnerSt) : (s.setOwner o x).ownerSt o = x := SMap.get_set_same _ _ _ _

theorem State.rd_setOwner_other (s : State) (o a : Nat) (x : OwnerSt) (h : a ≠ TXN_OWNER_STATE o) : (s.setOwner o x).rd a = s.rd a :=
  State.rd_put_other _ (TXN_OWNER_STATE_ENTRIES o) _ a h

/-- The number of entries lies below STATE. -/
@[simp] theorem State.ownerState_setOwner (s : State) (o : Nat) (x : OwnerSt) : (s.setOwner o x).ownerState o = s.ownerState o :=
  State.get_put_apart _ (TXN_OWNER_STATE_ENTRIES o) _ _ (Nat.zero_le 8) (by decide : 8 < 64) (.inl (by decide : 8 < 12))

/-- The registers of an owner lie below the rings. -/
theorem ownerReg_outside {b o : Nat} (ho : o < 8) (hb : Nat.ble b 0x2011F = true) : Outside (b + 0x20 * o) := by
  have := Nat.le_of_ble_eq_true hb
  exact .inl (by omega)

theorem Aside.setOwner {s t : State} {o : Nat} {x : OwnerSt} (h : Aside s t) (ho : o < 8) : Aside s (t.setOwner o x) :=
  h.setTxn.put (ownerReg_outside (b := 0x20100) ho rfl)

/-- Nothing that leaves the registers below the rings changes the state of an owner. -/
theorem EngineOnly.ownerState {s t : State} {o : Nat} (h : EngineOnly s t) (ho : o < 8) : t.ownerState o = s.ownerState o :=
  h.get _ (by show 0x20100 + 0x20 * o < 0x30000; omega)

@[simp] theorem State.rd_setTxn (s : State) (f : TxnSt → TxnSt) (a : Nat) : (s.setTxn f).rd a = s.rd a := rfl
@[simp] theorem State.mem_setTxn (s : State) (f : TxnSt → TxnSt) : (s.setTxn f).mem = s.mem := rfl
@[simp] theorem State.rings_setTxn (s : State) (f : TxnSt → TxnSt) : (s.setTxn f).rings = s.rings := rfl
@[simp] theorem State.mem_setOwner (s : State) (o : Nat) (x : OwnerSt) : (s.setOwner o x).mem = s.mem := rfl
@[simp] theorem State.rings_setOwner (s : State) (o : Nat) (x : OwnerSt) : (s.setOwner o x).rings = s.rings := rfl
@[simp] theorem State.ownerState_setTxn (s : State) (f : TxnSt → TxnSt) (o : Nat) : (s.setTxn f).ownerState o = s.ownerState o := rfl

@[simp] theorem State.ownerSt_wrN (s : State) (i n o : Nat) : (s.wrN i n).ownerSt o = s.ownerSt o := rfl
@[simp] theorem State.ownerSt_put (s : State) (f : Fld) (n o : Nat) : (s.put f n).ownerSt o = s.ownerSt o := rfl

theorem State.ownerSt_setTxn (s : State) (f : TxnSt → TxnSt) (o : Nat) (h : (f s.txn).owners = s.txn.owners) : (s.setTxn f).ownerSt o = s.ownerSt o := by
  rw [State.ownerSt, State.ownerSt, ← h]
  rfl

/-! ### Open -/

/-- The state in which holder `h` has opened owner `o`. -/
def State.opened (s : State) (h o : Nat) : State :=
  (((s.wrN (TXN_OWNER_STATE o) 0x1000).wrN (TXN_OWNER_HOLDER o) h).wrN (TXN_OWNER_OPEN o) s.round).setOwner o
    { openSeq := s.rdN TXN_CHANGE_SEQ, limit := s.txn.limit }

section
variable (s : State) (h o : Nat)

theorem State.rd_opened_other (a : Nat) (hst : a ≠ TXN_OWNER_STATE o) (hho : a ≠ TXN_OWNER_HOLDER o) (hop : a ≠ TXN_OWNER_OPEN o) :
    (s.opened h o).rd a = s.rd a := by
  rw [State.opened, State.rd_setOwner_other _ _ _ _ hst, State.rd_wrN_other _ _ _ _ hop, State.rd_wrN_other _ _ _ _ hho, State.rd_wrN_other _ _ _ _ hst]

/-- An open of a FREE owner that Table 4.1 permits is taken (Transactions R126). -/
theorem State.txnOpen_taken (hp : ownerPermitted h o = true) (hfree : s.ownerState o = 0) (hheld : s.heldBy h = none) :
    s.txnOpen h o = (s.opened h o, 0, 0) := by
  have hround : (s.wrN (TXN_OWNER_STATE o) 0x1000).round = s.round := s.rdN_wrN_other _ _ _ (by unfold ROUND_COUNT TXN_OWNER_STATE; omega)
  have hseq : (((s.wrN (TXN_OWNER_STATE o) 0x1000).wrN (TXN_OWNER_HOLDER o) h).wrN (TXN_OWNER_OPEN o) s.round).rdN TXN_CHANGE_SEQ = s.rdN TXN_CHANGE_SEQ := by
    rw [State.rdN_wrN_other _ _ _ _ (by unfold TXN_CHANGE_SEQ TXN_OWNER_OPEN; omega),
      State.rdN_wrN_other _ _ _ _ (by unfold TXN_CHANGE_SEQ TXN_OWNER_HOLDER; omega),
      State.rdN_wrN_other _ _ _ _ (by unfold TXN_CHANGE_SEQ TXN_OWNER_STATE; omega)]
  rw [State.txnOpen, if_neg (by simp [hp]), if_neg (by simp [hfree, hheld])]
  dsimp only
  rw [hround, hseq]
  rfl

theorem State.ownerState_opened : (s.opened h o).ownerState o = 1 := by
  have hho : TXN_OWNER_STATE o ≠ TXN_OWNER_HOLDER o := ownerReg_ne rfl
  have hop : TXN_OWNER_STATE o ≠ TXN_OWNER_OPEN o := ownerReg_ne rfl
  rw [State.opened, State.ownerState_setOwner, State.ownerState, State.get_wrN_other _ _ _ _ hop, State.get_wrN_other _ _ _ _ hho, State.get_eq_nbits]
  exact congrArg (nbits · 13 12) (s.rdN_wrN_same _ _)

theorem State.holder_opened : (s.opened h o).rdN (TXN_OWNER_HOLDER o) = h % 2 ^ 64 := by
  have hst : TXN_OWNER_HOLDER o ≠ TXN_OWNER_STATE o := ownerReg_ne rfl
  have hop : TXN_OWNER_HOLDER o ≠ TXN_OWNER_OPEN o := ownerReg_ne rfl
  rw [State.opened, State.rdN, State.rd_setOwner_other _ _ _ _ hst, ← State.rdN, State.rdN_wrN_other _ _ _ _ hop, State.rdN_wrN_same]

theorem State.round_opened : (s.opened h o).rdN (TXN_OWNER_OPEN o) = s.round := by
  have hst : TXN_OWNER_OPEN o ≠ TXN_OWNER_STATE o := ownerReg_ne rfl
  rw [State.opened, State.rdN, State.rd_setOwner_other _ _ _ _ hst, ← State.rdN, State.rdN_wrN_same, Nat.mod_eq_of_lt s.round_lt]

theorem State.set_opened : ((s.opened h o).ownerSt o).set = [] := congrArg OwnerSt.set (State.ownerSt_setOwner_same _ o _)
theorem State.openSeq_opened : ((s.opened h o).ownerSt o).openSeq = s.rdN TXN_CHANGE_SEQ := congrArg OwnerSt.openSeq (State.ownerSt_setOwner_same _ o _)
theorem State.mem_opened : (s.opened h o).mem = s.mem := by
  rw [State.opened, State.mem_setOwner, State.wrN_mem, State.wrN_mem, State.wrN_mem]

theorem Aside.opened (ho : o < 8) : Aside s (s.opened h o) :=
  ((((Aside.refl s).wrN (ownerReg_outside ho rfl)).wrN (ownerReg_outside ho rfl)).wrN (ownerReg_outside ho rfl)).setOwner ho

end

/-! ### Seal -/

section
variable (s : State) (o : Nat) (env : Option (Nat × Nat))

/-- What an owner keeps of its transaction as its seal is accepted. -/
def State.sealedSt : OwnerSt := { s.ownerSt o with failed := s.ownerState o == 3, sealRound := s.round, env := env }

theorem State.txnSeal_eq : s.txnSeal o env = ((s.setOwner o (s.sealedSt o env)).put (TXN_OWNER_STATE_STATE o) 2).setTxn fun z =>
    { z with seals := s.txn.seals ++ [o] } := rfl

theorem State.ownerState_txnSeal : (s.txnSeal o env).ownerState o = 2 := by
  rw [s.txnSeal_eq, State.ownerState_setTxn]
  exact State.get_put_same _ (TXN_OWNER_STATE_STATE o) 2 (by decide : 12 ≤ 13) (by decide : 13 < 64)

theorem State.rd_txnSeal_other (a : Nat) (ha : a ≠ TXN_OWNER_STATE o) : (s.txnSeal o env).rd a = s.rd a := by
  rw [s.txnSeal_eq, State.rd_setTxn, State.rd_put_other _ (TXN_OWNER_STATE_STATE o) _ _ ha, s.rd_setOwner_other o a _ ha]

theorem State.set_txnSeal : ((s.txnSeal o env).ownerSt o).set = (s.ownerSt o).set := by
  rw [s.txnSeal_eq, State.ownerSt_setTxn _ _ _ rfl, State.ownerSt_put, State.ownerSt_setOwner_same, State.sealedSt]

theorem State.seals_txnSeal : (s.txnSeal o env).txn.seals = s.txn.seals ++ [o] := by rw [s.txnSeal_eq, State.setTxn]

theorem State.mem_txnSeal : (s.txnSeal o env).mem = s.mem := by
  rw [s.txnSeal_eq, State.mem_setTxn, State.put_mem, State.mem_setOwner]

theorem State.rings_txnSeal : (s.txnSeal o env).rings = s.rings := by
  rw [s.txnSeal_eq, State.rings_setTxn, State.put_rings, State.rings_setOwner]

end


/-! ### Return and expiry -/

section
variable (s : State) (o status : Nat)

theorem State.rd_freeOwner_other (a : Nat) (hst : a ≠ TXN_OWNER_STATE o) (hdn : a ≠ TXN_OWNER_DONE o) : (s.freeOwner o status).rd a = s.rd a := by
  rw [State.freeOwner, State.rd_wrN_other _ _ _ _ hdn, State.rd_wrN_other _ _ _ _ hst, s.rd_setOwner_other o a _ hst]

theorem State.rdN_state_freeOwner : (s.freeOwner o status).rdN (TXN_OWNER_STATE o) = status * 65536 % 2 ^ 64 := by
  have hdn : TXN_OWNER_STATE o ≠ TXN_OWNER_DONE o := ownerReg_ne rfl
  rw [State.freeOwner, State.rdN_wrN_other _ _ _ _ hdn, State.rdN_wrN_same]

theorem State.ownerState_freeOwner : (s.freeOwner o status).ownerState o = 0 := by
  refine (congrArg (nbits · 13 12) (s.rdN_state_freeOwner o status)).trans ?_
  unfold nbits
  omega

theorem State.lastStatus_freeOwner : (s.freeOwner o status).get (TXN_OWNER_STATE_LAST_STATUS o) = status % 2 ^ 16 := by
  refine (congrArg (nbits · 31 16) (s.rdN_state_freeOwner o status)).trans ?_
  unfold nbits
  omega

theorem State.round_freeOwner : (s.freeOwner o status).rdN (TXN_OWNER_DONE o) = s.round :=
  (State.rdN_wrN_same _ _ _).trans (Nat.mod_eq_of_lt s.round_lt)

theorem State.mem_freeOwner : (s.freeOwner o status).mem = s.mem := by
  rw [State.freeOwner, State.wrN_mem, State.wrN_mem, State.mem_setOwner]

theorem State.set_freeOwner : ((s.freeOwner o status).ownerSt o).set = [] := by
  rw [State.freeOwner, State.ownerSt_wrN, State.ownerSt_wrN, State.ownerSt_setOwner_same]

end

/-- A return by the holder of the owner is taken (Transactions R130). -/
theorem State.txnReturn_taken (s : State) (h o : Nat) (hown : s.ownHeld h o = true) : s.txnReturn h o = (s.freeOwner o 0, 0, 0) := if_pos hown

/-! ### Records -/

/-- What the shadow set keeps of a value written to a register: its SH and PL bits (Transactions R127). -/
def shadowOf (off v : Nat) : Shadow := ⟨off, maskOf .sh off + maskOf .pl off, andNat v (maskOf .sh off + maskOf .pl off)⟩

/-- The first record of an OPEN owner is all of its shadow set. -/
theorem State.record_first (s : State) (o off v : Nat) (hst : s.ownerState o = 1) (hset : (s.ownerSt o).set = []) :
    s.record o off v = s.setOwner o { s.ownerSt o with set := [shadowOf off v] } := by
  simp [State.record, hst, hset, shadowOf]

/-- Every function of a TXN envelope may write the SH and PL fields of every register. -/
theorem mayShadow_ringReq (f off : Nat) : mayShadow (ringReq f) off = true := by
  have hq : (ringReq f).pfOrHost = true ∧ (ringReq f).reachesRegs = true := by
    unfold ringReq
    split
    · exact ⟨rfl, rfl⟩
    · split <;> exact ⟨rfl, rfl⟩
  simp [mayShadow, hq]

theorem State.recordList_one (s : State) (f o : Nat) (x : ListEntry) : s.recordList f o [x] = s.record o x.offset x.value :=
  if_pos (mayShadow_ringReq f x.offset)

/-- A list of one good entry is recorded in an empty shadow set (Transactions R142). -/
theorem State.writeList_recorded (s : State) (f o : Nat) (x : ListEntry) (hclean : x.clean = true) (htarget : x.target = true) (hst : s.ownerState o = 1)
    (hset : (s.ownerSt o).set = []) : s.writeList f o [x] = (s.setOwner o { s.ownerSt o with set := [shadowOf x.offset x.value] }, 0, 1) := by
  simp [State.writeList, hclean, htarget, s.recordList_one, s.record_first o x.offset x.value hst hset, hst]

/-- A list of one entry that names no register with SH or PL fields records nothing (Transactions R142). -/
theorem State.writeList_badTarget (s : State) (f o : Nat) (x : ListEntry) (hclean : x.clean = true) (htarget : x.target = false) :
    s.writeList f o [x] = (s, 0x8509, 0) := by
  simp [State.writeList, hclean, htarget, List.findIdx?_cons]

end Sys2Proof.Machine
end

section
/-! SUPPORT. The commands of the transaction unit that do what they ask (Transactions §2 to §4): TXN.CMD of a holder, TXN envelopes, and expiry. -/

namespace Sys2Proof.Machine
open Reg

/-! ### TXN.CMD -/

section
variable (s : State) (h status : Nat)

@[simp] theorem State.rd_setCmd (a : Nat) : (s.setCmd h status).rd a = s.rd a := rfl
@[simp] theorem State.rdN_setCmd (a : Nat) : (s.setCmd h status).rdN a = s.rdN a := rfl
@[simp] theorem State.mem_setCmd : (s.setCmd h status).mem = s.mem := rfl
@[simp] theorem State.ownerState_setCmd (o : Nat) : (s.setCmd h status).ownerState o = s.ownerState o := rfl
@[simp] theorem State.ownerSt_setCmd (o : Nat) : (s.setCmd h status).ownerSt o = s.ownerSt o := rfl

end

section
variable (q : Req) (o : Fin 8) (s : State) {h : Nat} (hq : q.holder = some h) (hl : Safety.Lands q TXN_CMD s)
include hq hl

theorem execTxnOpen_cmd (hp : ownerPermitted h o = true) (hfree : s.ownerState o = 0) (hheld : s.heldBy h = none) :
    exec (.txnOpen (.cmd q o)) s = .next ((s.opened h o).setCmd h 0) := by
  show execTxnOpen (.cmd q o) s = _
  rw [execTxnOpen, s.landing_of_lands q _ _ hl, hq]
  dsimp only
  rw [s.txnOpen_taken h o hp hfree hheld]
  rfl

theorem execTxnSeal_cmd (hown : s.ownHeld h o = true) : exec (.txnSeal (.cmd q o)) s = .next (s.txnSeal o none) := by
  show execTxnSeal (.cmd q o) s = _
  rw [execTxnSeal, s.landing_of_lands q _ _ hl, hq]
  exact congrArg Host.Outcome.next (if_pos hown)

theorem execTxnReturn_cmd (hown : s.ownHeld h o = true) : exec (.txnReturn (.cmd q o)) s = .next ((s.freeOwner o 0).setCmd h 0) := by
  show execTxnReturn (.cmd q o) s = _
  rw [execTxnReturn, s.landing_of_lands q _ _ hl, hq]
  dsimp only
  rw [s.txnReturn_taken h o hown]
  rfl

end

/-! ### TXN envelopes -/

/-- The envelopes of a ring do not hang on the other blocks. -/
theorem Aside.flight {s t : State} (h : Aside s t) (r seq : Nat) : t.flight r seq = s.flight r seq := by
  rw [State.flight, h.ring, ← State.flight]

/-- The first element that meets a condition is the first that meets a stronger one, if it meets that one too. -/
theorem find?_of_stronger {α : Type} {p q : α → Bool} {l : List α} {x : α} (hp : l.find? p = some x) (hq : q x = true) (hpq : ∀ y, q y = true → p y = true) :
    l.find? q = some x := by
  obtain ⟨-, before, after, rfl, hnot⟩ := List.find?_eq_some_iff_append.mp hp
  refine List.find?_eq_some_iff_append.mpr ⟨hq, before, after, rfl, fun y hy => ?_⟩
  have hn := hnot y hy
  rw [Bool.not_eq_true'] at hn ⊢
  exact Bool.eq_false_iff.mpr fun h => Bool.eq_false_iff.mp hn (hpq y h)

/-- The envelope of a count that has started is the started one of its kind. -/
theorem State.startedOf_of_flight (s : State) (r seq : Nat) {f : Flight} (hf : s.flight r seq = some f) (hs : f.stage = .started) :
    s.startedOf r seq (Env.kind f.env) = some f := by
  have hseq : f.seq = seq := by simpa using List.find?_some hf
  refine find?_of_stronger hf (by simp [hs, hseq]) fun y hy => ?_
  simp only [Bool.and_eq_true] at hy
  exact hy.1.1

section
variable (s : State) (r : Ring) {f : Flight} {h : Nat} (hf : s.flight r f.seq = some f) (hst : f.stage = .started) (hk : Env.kind f.env = 5)
  (hh : ringHolder (s.ringFn r) = some h)
include hf hst

/-- The completion of an envelope on a state that has the rings as they were counts it. -/
theorem Aside.done_complete {t : State} (ha : Aside s t) (result : Nat) :
    (t.complete r f.seq 0 result).rdN (RINGS_DONE_COUNT r) = min (s.rdN (RINGS_DONE_COUNT r) + 1) (2 ^ 64 - 1) := by
  rw [t.done_complete r f.seq 0 result ((ha.flight r f.seq).trans hf) (by rw [hst]; decide) (.inl rfl), ha.rdN (RINGS_DONE_COUNT r) (inRings r rfl rfl)]

theorem Aside.engineOnly_complete {t : State} (ha : Aside s t) (result : Nat) : EngineOnly t (t.complete r f.seq 0 result) :=
  t.engineOnly_complete_ok r f.seq result ((ha.flight r f.seq).trans hf) (by rw [hst]; decide)

include hk hh

/-- A started TXN envelope acts for the holder that its ring's function is. -/
theorem State.txnEnv_acts (op : Nat) (act : State → Nat → Bytes → State) (hop : Env.op f.env = op) : s.txnEnv r f.seq op act = act s h f.env := by
  unfold State.txnEnv
  rw [← hk, s.startedOf_of_flight r f.seq hf hst]
  dsimp only
  rw [if_neg (by simp [hop]), hh]

theorem execTxnOpen_env (hop : Env.op f.env = 0) (hp : ownerPermitted h (Env.owner f.env) = true) (hfree : s.ownerState (Env.owner f.env) = 0)
    (hheld : s.heldBy h = none) : exec (.txnOpen (.env r f.seq)) s = .next ((s.opened h (Env.owner f.env)).complete r f.seq 0 0) := by
  show execTxnOpen (.env r f.seq) s = _
  rw [execTxnOpen, s.txnEnv_acts r hf hst hk hh 0 _ hop, s.txnOpen_taken h _ hp hfree hheld]

theorem execTxnSeal_env (hop : Env.op f.env = 2) (hown : s.ownHeld h (Env.owner f.env) = true) :
    exec (.txnSeal (.env r f.seq)) s = .next (s.txnSeal (Env.owner f.env) (some (r.val, f.seq))) := by
  show execTxnSeal (.env r f.seq) s = _
  rw [execTxnSeal, s.txnEnv_acts r hf hst hk hh 2 _ hop, if_pos hown]

theorem execTxnReturn_env (hop : Env.op f.env = 3) (hown : s.ownHeld h (Env.owner f.env) = true) :
    exec (.txnReturn (.env r f.seq)) s = .next ((s.freeOwner (Env.owner f.env) 0).complete r f.seq 0 0) := by
  show execTxnReturn (.env r f.seq) s = _
  rw [execTxnReturn, s.txnEnv_acts r hf hst hk hh 3 _ hop, s.txnReturn_taken h _ hown]

/-- A write list of one entry, once it has been read, is taken entry by entry, and the envelope concludes with what comes of it. -/
theorem execTxnWrites_one (hop : Env.op f.env = 1) (hown : s.ownHeld h (Env.owner f.env) = true) (hn : Env.count f.env = 1) (ha : Env.list f.env % 16 = 0)
    {b : Bytes} (hb : s.addrRead (s.ringFn r) (Env.list f.env) 16 = .ok b) {x : ListEntry} (hx : listEntries b 1 = [x]) {u : State} {status result : Nat}
    (hu : (s.ringTraffic r f.seq (Env.list f.env) 16).writeList (s.ringFn r) (Env.owner f.env) [x] = (u, status, result))
    (hw : u.memWaits r f.seq = false) : exec (.txnWrites r f.seq) s = .next (u.complete r f.seq status result) := by
  show execTxnWrites r f.seq s = _
  rw [execTxnWrites, s.txnEnv_acts r hf hst hk hh 1 _ hop]
  dsimp only
  rw [if_neg (by simp [hown]), if_neg (by simp [hn]), if_neg (by simp [ha]), hn, Nat.mul_one, hb]
  dsimp only
  rw [hx, hu]
  exact congrArg Host.Outcome.next (if_neg (by simp [hw]))

/-- What such a list comes to where no burst of its read waits: the record of its entry, or the failure that tells that it names no target. -/
theorem State.txnWrites_one (hop : Env.op f.env = 1) (hown : s.ownHeld h (Env.owner f.env) = true) (hn : Env.count f.env = 1)
    (ha : Env.list f.env % 16 = 0) {b : Bytes} (hb : s.addrRead (s.ringFn r) (Env.list f.env) 16 = .ok b) {x : ListEntry}
    (hx : listEntries b 1 = [x]) (hw : (s.ringTraffic r f.seq (Env.list f.env) 16).memWaits r f.seq = false) (hclean : x.clean = true)
    (hset : (s.ownerSt (Env.owner f.env)).set = []) :
    (x.target = true → s.ownerState (Env.owner f.env) = 1 → ∃ t, exec (.txnWrites r f.seq) s = .next t ∧
      (t.ownerSt (Env.owner f.env)).set = [shadowOf x.offset x.value] ∧
      t.rdN (RINGS_DONE_COUNT r) = min (s.rdN (RINGS_DONE_COUNT r) + 1) (2 ^ 64 - 1)) ∧
    (x.target = false → ∃ t, exec (.txnWrites r f.seq) s = .next t ∧ t.txn = s.txn ∧ t.get (RINGS_STATUS_LAST_FAIL r) = 0x8509) := by
  have ho := s.ownHeld_lt hown
  have hspent : Spent s (s.ringTraffic r f.seq (Env.list f.env) 16) := Spent.traffic ..
  have hlist := fun u status result => execTxnWrites_one s r hf hst hk hh (u := u) (status := status) (result := result) hop hown hn ha hb hx
  generalize s.ringTraffic r f.seq (Env.list f.env) 16 = v at *
  have hread := EngineOnly.of_spent hspent
  have hring := Aside.of_spent hspent
  have howner : v.ownerSt (Env.owner f.env) = s.ownerSt (Env.owner f.env) := by rw [State.ownerSt, hread.txn, ← State.ownerSt]
  refine ⟨fun htarget hopen => ?_, fun htarget => ?_⟩
  · have hrec := v.writeList_recorded (s.ringFn r) _ x hclean htarget ((hread.ownerState ho).trans hopen) (howner ▸ hset)
    have haside := hring.setOwner (x := { v.ownerSt (Env.owner f.env) with set := [shadowOf x.offset x.value] }) ho
    refine ⟨_, hlist _ _ _ hrec hw, ?_, haside.done_complete s r hf hst 1⟩
    rw [State.ownerSt, (haside.engineOnly_complete s r hf hst 1).txn, ← State.ownerSt, State.ownerSt_setOwner_same]
  · obtain ⟨htxn, hfail⟩ := v.complete_fails r f.seq 0x8509 0 ((hring.flight r f.seq).trans hf) (by rw [hst]; decide) (by decide) (by decide)
    exact ⟨_, hlist _ _ _ (v.writeList_badTarget (s.ringFn r) _ x hclean htarget) hw, htxn.trans hread.txn, hfail⟩

end

/-! ### Expiry -/

theorem errClass_txnExpired : errClass Code.TXN_EXPIRED = some .note := by decide

theorem execTxnExpired_due (o : Fin 8) (s : State) (hopen : s.ownerOpen o = true) (hl : (s.ownerSt o).limit ≠ 0)
    (hdue : s.rdN (TXN_OWNER_OPEN o) + (s.ownerSt o).limit ≤ s.round) (h7 : o.val ≠ 7) :
    exec (.txnExpired o) s = .next ((s.freeOwner o 0x8507).report { code := Code.TXN_EXPIRED, unit := o }) := by
  show execTxnExpired o s = _
  exact congrArg Host.Outcome.next (if_pos (by simp [hopen, hl, hdue, h7]))

theorem execTxnExpired_exempt (o : Fin 8) (s : State) (h7 : o.val = 7) : exec (.txnExpired o) s = .next s := by
  show execTxnExpired o s = _
  exact congrArg Host.Outcome.next (if_neg (by simp [h7]))

/-- Settles O24: each command is its operation on the owner, and the completion of a TXN envelope leaves the transaction unit alone. -/
theorem ownersOpenRecordSealReturnAndExpire : Obligations.OwnersOpenRecordSealReturnAndExpire := by
  intro s _
  refine ⟨fun q h o hq hl => ⟨fun hp hfree hheld => ?_, fun hown => ⟨?_, ?_⟩⟩,
    fun r f h hf hst hk hh => ⟨fun hop hp hfree hheld => ?_, fun hown => ⟨fun hop => ?_, fun hop => ?_, fun hop hn ha b x hb hw hx hclean hset => ?_⟩⟩,
    fun o hopen hl hdue => ⟨fun h7 => ?_, execTxnExpired_exempt o s⟩⟩
  · have hh : h % 2 ^ 64 = h := Nat.mod_eq_of_lt (by have := holder_lt q hq; omega)
    refine ⟨_, execTxnOpen_cmd q o s hq hl hp hfree hheld, ?_, ?_, ?_, ?_, ?_, ?_, fun a hst hho hop => ?_⟩
    · rw [State.ownerState_setCmd, s.ownerState_opened]
    · rw [State.rdN_setCmd, s.holder_opened, hh]
    · rw [State.rdN_setCmd, s.round_opened]
    · rw [State.ownerSt_setCmd, s.set_opened]
    · rw [State.ownerSt_setCmd, s.openSeq_opened]
    · rw [State.mem_setCmd, s.mem_opened]
    · rw [State.rd_setCmd, s.rd_opened_other h o a hst hho hop]
  · exact ⟨_, execTxnSeal_cmd q o s hq hl hown, s.ownerState_txnSeal o none, s.seals_txnSeal o none, s.set_txnSeal o none,
      s.mem_txnSeal o none, s.rd_txnSeal_other o none⟩
  · refine ⟨_, execTxnReturn_cmd q o s hq hl hown, ?_, ?_, ?_, ?_, fun a hst hdn => ?_⟩
    · rw [State.ownerState_setCmd, s.ownerState_freeOwner]
    · rw [State.ownerSt_setCmd, s.set_freeOwner]
    · rw [State.rdN_setCmd, s.round_freeOwner]
    · rw [State.mem_setCmd, s.mem_freeOwner]
    · rw [State.rd_setCmd, s.rd_freeOwner_other o 0 a hst hdn]
  · have ho := ownerPermitted_lt hp
    have haside := Aside.opened s h (Env.owner f.env) ho
    exact ⟨_, execTxnOpen_env s r hf hst hk hh hop hp hfree hheld,
      ((haside.engineOnly_complete s r hf hst 0).ownerState ho).trans (s.ownerState_opened h _), haside.done_complete s r hf hst 0⟩
  · exact ⟨_, execTxnSeal_env s r hf hst hk hh hop hown, s.ownerState_txnSeal _ _, s.rings_txnSeal _ _⟩
  · have ho := s.ownHeld_lt hown
    have haside : Aside s (s.freeOwner (Env.owner f.env) 0) := (Aside.refl s).freeOwner ho
    exact ⟨_, execTxnReturn_env s r hf hst hk hh hop hown,
      ((haside.engineOnly_complete s r hf hst 0).ownerState ho).trans (s.ownerState_freeOwner _ 0), haside.done_complete s r hf hst 0⟩
  · exact s.txnWrites_one r hf hst hk hh hop hown hn ha hb hx hw hclean hset
  · have hreg : TXN_OWNER_STATE o < SECURE_SEC_NOTIFY := by
      have := o.isLt
      unfold TXN_OWNER_STATE SECURE_SEC_NOTIFY
      omega
    have hlow : TXN_OWNER_STATE o < 0xD00000 := hreg.trans (by decide)
    refine ⟨_, execTxnExpired_due o s hopen hl hdue h7, ?_, ?_, State.on_report_note _ _ errClass_txnExpired, ?_⟩
    · rw [State.ownerState, State.get_report _ _ (TXN_OWNER_STATE_STATE o) hreg.ne (.inl hlow), ← State.ownerState, s.ownerState_freeOwner]
    · rw [State.get_report _ _ (TXN_OWNER_STATE_LAST_STATUS o) hreg.ne (.inl hlow), s.lastStatus_freeOwner, Nat.mod_eq_of_lt (by decide)]
    · rw [State.report_mem, s.mem_freeOwner]

end Sys2Proof.Machine
end

section
/-! SUPPORT. Clerks (Clerks §8, §9): the rules of a clerk's part of the state, and what a clerk does that comes to a word. -/

namespace Sys2Proof.Machine
open Reg

/-! ### Folds and counters -/

/-- What one element of a list establishes, and every other keeps, holds after the fold. -/
theorem foldl_of_mem {α β : Type} {P : β → Prop} {f : β → α → β} {l : List α} {x : α} (hx : x ∈ l) (hest : ∀ b, P (f b x))
    (hkeep : ∀ b y, P b → P (f b y)) (b : β) : P (l.foldl f b) := by
  obtain ⟨l₁, l₂, rfl⟩ := List.append_of_mem hx
  rw [List.foldl_append, List.foldl_cons]
  exact List.foldlRecOn l₂ f (hest _) fun c hc y _ => hkeep c y hc

/-- A fold whose every element leaves the state alone. -/
theorem State.each_eq_self {α : Type} {f : State → α → State} {l : List α} {s : State} (h : ∀ x ∈ l, f s x = s) : s.each l f = s :=
  List.foldlRecOn (motive := (· = s)) l f rfl fun _ hb x hx => by rw [hb, h x hx]

/-- A counter of 64 bits rises up to its largest value. -/
theorem State.rdN_add64_same (s : State) (o n : Nat) : (s.add64 o n).rdN o = min (s.rdN o + n) (2 ^ 64 - 1) := by
  rw [State.add64, State.rdN_wrN_same]
  omega

theorem State.rd_add64_other (s : State) (o n i : Nat) (h : i ≠ o) : (s.add64 o n).rd i = s.rd i := State.rd_wrN_other s o i _ h
theorem State.rdN_add64_other (s : State) (o n i : Nat) (h : i ≠ o) : (s.add64 o n).rdN i = s.rdN i := State.rdN_wrN_other s o i _ h

/-! ### The clerks of the state -/

@[simp] theorem State.clerk_setClerk_same (s : State) (c : Nat) (k : Clerk) : (s.setClerk c k).clerk c = k := SMap.get_set_same _ s.floor.clerks c k

theorem State.clerk_setClerk_other (s : State) (c i : Nat) (k : Clerk) (h : i ≠ c) : (s.setClerk c k).clerk i = s.clerk i :=
  SMap.get_set_other _ s.floor.clerks c i k h

@[simp] theorem State.rd_setClerk (s : State) (c o : Nat) (k : Clerk) : (s.setClerk c k).rd o = s.rd o := rfl
@[simp] theorem State.rdN_setClerk (s : State) (c o : Nat) (k : Clerk) : (s.setClerk c k).rdN o = s.rdN o := rfl
@[simp] theorem State.on_setClerk (s : State) (c : Nat) (k : Clerk) (f : Fld) : (s.setClerk c k).on f = s.on f := rfl
@[simp] theorem State.mem_setClerk (s : State) (c : Nat) (k : Clerk) : (s.setClerk c k).mem = s.mem := rfl
@[simp] theorem State.regs_setClerk (s : State) (c : Nat) (k : Clerk) : (s.setClerk c k).regs = s.regs := rfl
@[simp] theorem State.clerk_add64 (s : State) (o n c : Nat) : (s.add64 o n).clerk c = s.clerk c := rfl
@[simp] theorem State.mem_add64 (s : State) (o n : Nat) : (s.add64 o n).mem = s.mem := rfl
@[simp] theorem State.clerk_putB (s : State) (f : Fld) (b : Bool) (c : Nat) : (s.putB f b).clerk c = s.clerk c := rfl

/-- A clerk belongs to one of the 16 districts (Clerks R153). -/
theorem clerkDistrict_lt {c : Nat} (h : c < 4096) : clerkDistrict c < 16 := by
  unfold clerkDistrict
  omega

/-! ### A clerk comes to a word (Clerks R183, R188, R190) -/

/-- A clerk that comes to a word that reads without a parity error begins the cycle, and then issues, freezes or waits. -/
theorem execWordIssue_reaches {c : Fin 4096} {cyc pc : Nat} {w : BufWord} {s : State} (h : Safety.Reaches c cyc pc w s) :
    exec (.wordIssue c cyc pc w) s = .next ((s.clerkCycle c cyc).wordGo c cyc pc w) := by
  obtain ⟨hrun, ⟨u, hunit, hmine⟩, hnext, hpc, hparity, hhalt, hcode⟩ := h
  obtain ⟨src, hsrc⟩ := Option.isSome_iff_exists.mp hcode
  have hnot : ¬cyc < (s.clerk c).next := by omega
  have hcome : (!w.branch && decide (pc ≠ (s.clerk c).pc)) = false := by
    rcases hpc with hb | rfl
    · simp [hb]
    · simp
  show execWordIssue c cyc pc w s = _
  simp only [execWordIssue, State.wordIssue, hrun, hunit, hmine, hnot, hcome, hsrc, hparity, hhalt, bne_self_eq_false, beq_self_eq_true, Bool.not_true,
    decide_false, Bool.or_self, Bool.false_eq_true, if_false, if_true]
  rfl

/-- The array runs an instruction in a cycle. -/
def Clerk.arrayBusy (k : Clerk) (cyc : Nat) : Bool := match k.array with
  | some r => decide (cyc < r.free)
  | none => false

theorem Clerk.arrayBusy_of_run {k : Clerk} {cyc : Nat} (h : ∃ r, k.array = some r ∧ cyc < r.free) : k.arrayBusy cyc = true := by
  obtain ⟨r, hr, hfree⟩ := h
  simp [Clerk.arrayBusy, hr, hfree]

theorem Clerk.arrayBusy_of_idle {k : Clerk} {cyc : Nat} (h : Safety.ArrayIdle k cyc) : k.arrayBusy cyc = false := by
  unfold Clerk.arrayBusy
  split
  · next r hr => simpa using h r hr
  · rfl

/-- A word without an array slot, or one that finds the array idle, does not wait for the array. -/
theorem Clerk.notHeld {k : Clerk} {cyc : Nat} {slot : Bool} (h : slot = false ∨ Safety.ArrayIdle k cyc) : (slot && k.arrayBusy cyc) = false := by
  rcases h with h | h
  · rw [h, Bool.false_and]
  · rw [Clerk.arrayBusy_of_idle h, Bool.and_false]

/-- An idle array does nothing in the cycle. -/
theorem Clerk.arrayAt_of_idle {k : Clerk} {cyc : Nat} (h : Safety.ArrayIdle k cyc) : k.arrayAt cyc = none := by
  unfold Clerk.arrayAt
  split
  · next r hr =>
    have hfree := h r hr
    unfold ArrayRun.free at hfree
    split
    · rfl
    · exact List.getElem?_eq_none (by omega)
  · rfl

/-- What a clerk does with a word, with the array's state named. -/
theorem State.wordGo_eq (s : State) (c cyc pc : Nat) (w : BufWord) : s.wordGo c cyc pc w =
    if ((s.clerk c).arrayAt cyc).any fun x => x.1 then s
    else if (s.clerk c).dry cyc w.word && !(w.word.array.isSome && (s.clerk c).arrayBusy cyc) then s.freeze c cyc true
    else if (s.clerk c).drainWaits cyc w.word && !(w.word.array.isSome && (s.clerk c).arrayBusy cyc) then s.freeze c cyc false
    else if w.word.array.isSome && (s.clerk c).arrayBusy cyc then s
    else (s.setClerk c { s.clerk c with pc := pc + w.len }).issueWord c cyc w.word := rfl

section
variable {s : State} {c cyc pc : Nat} {w : BufWord}

/-- A cycle in which the array's own accesses contend issues nothing. -/
theorem State.wordGo_contends (h : ((s.clerk c).arrayAt cyc).any (fun x => x.1) = true) : s.wordGo c cyc pc w = s := by
  rw [State.wordGo_eq, if_pos h]

/-- A word with an array slot waits for the array. -/
theorem State.wordGo_busy (h : ((s.clerk c).arrayAt cyc).any (fun x => x.1) = false) (ha : w.word.array.isSome = true)
    (hb : (s.clerk c).arrayBusy cyc = true) : s.wordGo c cyc pc w = s := by
  simp only [State.wordGo_eq, h, ha, hb, Bool.and_self, Bool.not_true, Bool.and_false, Bool.false_eq_true, if_false, if_true]

variable (h : ((s.clerk c).arrayAt cyc).any (fun x => x.1) = false) (hfree : (w.word.array.isSome && (s.clerk c).arrayBusy cyc) = false)
include h hfree

/-- A dry clerk is frozen, whether or not it also waits on the drain. -/
theorem State.wordGo_dry (hd : (s.clerk c).dry cyc w.word = true) : s.wordGo c cyc pc w = s.freeze c cyc true := by
  simp only [State.wordGo_eq, h, hfree, hd, Bool.not_false, Bool.and_self, Bool.false_eq_true, if_false, if_true]

/-- A clerk that only waits on the drain is frozen. -/
theorem State.wordGo_drain (hd : (s.clerk c).dry cyc w.word = false) (hw : (s.clerk c).drainWaits cyc w.word = true) :
    s.wordGo c cyc pc w = s.freeze c cyc false := by
  simp only [State.wordGo_eq, h, hfree, hd, hw, Bool.not_false, Bool.and_self, Bool.false_and, Bool.false_eq_true, if_false, if_true]

/-- A clerk that nothing holds issues the word. -/
theorem State.wordGo_issues (hd : (s.clerk c).dry cyc w.word = false) (hw : (s.clerk c).drainWaits cyc w.word = false) :
    s.wordGo c cyc pc w = (s.setClerk c { s.clerk c with pc := pc + w.len }).issueWord c cyc w.word := by
  simp only [State.wordGo_eq, h, hfree, hd, hw, Bool.false_and, Bool.false_eq_true, if_false]

end

/-- A frozen cycle holds the array, adds one to its counter, and changes nothing else. -/
theorem State.freeze_spec (s : State) (c cyc : Nat) (dry : Bool) {o : Nat}
    (ho : o = if dry then FLOOR_FREEZE_DRY (clerkDistrict c) else FLOOR_FREEZE_DRAIN (clerkDistrict c)) :
    (s.freeze c cyc dry).clerk c = (s.clerk c).hold cyc ∧ (s.freeze c cyc dry).mem = s.mem ∧
      (s.freeze c cyc dry).rdN o = min (s.rdN o + 1) (2 ^ 64 - 1) ∧ ∀ i, i ≠ o → (s.freeze c cyc dry).rd i = s.rd i := by
  subst ho
  exact ⟨State.clerk_setClerk_same s c _, rfl, State.rdN_add64_same _ _ 1, fun i hi => State.rd_add64_other _ _ 1 i hi⟩

/-! ### The inbox (Clerks R187) -/

/-- One entry from the stream buffer keeps what the inbox holds, and its bound. -/
theorem Clerk.fillOne_inbox (l : List StepSeq) (k : Clerk) (h : k.inbox.length ≤ 64) :
    (k.fillOne l).inbox.length ≤ 64 ∧ k.inbox <+: (k.fillOne l).inbox := by
  have hkeep : k.inbox.length ≤ 64 ∧ k.inbox <+: k.inbox := ⟨h, List.prefix_refl _⟩
  unfold Clerk.fillOne
  split
  · exact hkeep
  · split
    · exact hkeep
    · split
      · exact hkeep
      · split
        · exact hkeep
        · next hroom _ _ _ _ _ =>
          refine ⟨?_, List.prefix_append _ _⟩
          simp only [List.length_append, List.length_singleton]
          omega

theorem Clerk.fill_inbox (l : List StepSeq) (n : Nat) (k : Clerk) (h : k.inbox.length ≤ 64) :
    (k.fill l n).inbox.length ≤ 64 ∧ k.inbox <+: (k.fill l n).inbox := by
  induction n generalizing k with
  | zero => exact ⟨h, List.prefix_refl _⟩
  | succ n ih =>
    obtain ⟨hlen, hpre⟩ := k.fillOne_inbox l h
    obtain ⟨hlen', hpre'⟩ := ih _ hlen
    exact ⟨hlen', hpre.trans hpre'⟩

/-! ### Barriers (Clerks R186) -/

theorem mem_clerksOf {d m c : Nat} (h : c ∈ clerksOf d m) : c ∈ (List.range 256).map (clerkOf d) := by
  obtain ⟨l, hl, rfl⟩ := List.mem_map.mp h
  exact List.mem_map_of_mem (List.mem_of_mem_filter hl)

theorem Clerk.barrier_of_stage {k : Clerk} {m : Nat} (h : k.stage = .barrier m) : k.barrier = some m := by
  rw [Clerk.barrier, h]

/-- The release of one clerk by a barrier, in a state in which others have been released. -/
def State.barrierStep (s : State) (d : Nat) (s' : State) (c : Nat) : State :=
  if s.barrierFull d c then
    s'.setClerk c { s'.clerk c with stage := .running, next := max (s'.clerk c).next (s.barrierLast d ((s.clerk c).barrier.getD 0) + 12) }
  else s'

theorem execDistrictBarrier_eq (d : Fin 16) (s : State) :
    exec (.districtBarrier d) s = .next (s.each ((List.range 256).map (clerkOf d.val)) (s.barrierStep d)) := rfl

/-- A release touches no register and no memory. -/
theorem State.barrierStep_frame (s : State) (d : Nat) (s' : State) (c : Nat) :
    (s.barrierStep d s' c).regs = s'.regs ∧ (s.barrierStep d s' c).mem = s'.mem := by
  unfold State.barrierStep
  split <;> exact ⟨rfl, rfl⟩

/-- The clerk runs again, from a cycle on. -/
def State.runsFrom (s : State) (c n : Nat) : Prop := (s.clerk c).stage = .running ∧ n ≤ (s.clerk c).next

/-- The release of a clerk whose barrier is full. -/
theorem State.barrierStep_runs {s : State} {d m c : Nat} (hall : ∀ x ∈ clerksOf d m, (s.clerk x).stage = .barrier m) (hc : c ∈ clerksOf d m) (s' : State) :
    (s.barrierStep d s' c).runsFrom c (s.barrierLast d m + 12) := by
  have hbar := Clerk.barrier_of_stage (hall c hc)
  have hfull : s.barrierFull d c = true := by
    simp only [State.barrierFull, hbar, List.all_eq_true, beq_iff_eq]
    exact fun x hx => Clerk.barrier_of_stage (hall x hx)
  rw [State.barrierStep, if_pos hfull, hbar, State.runsFrom, State.clerk_setClerk_same]
  exact ⟨rfl, le_max_right _ _⟩

/-- A clerk that runs again is not held up by the release of another. -/
theorem State.barrierStep_keeps (s : State) (d : Nat) {c n : Nat} (s' : State) (x : Nat) (h : s'.runsFrom c n) : (s.barrierStep d s' x).runsFrom c n := by
  obtain ⟨hstage, hnext⟩ := h
  unfold State.barrierStep State.runsFrom
  split
  · by_cases hx : c = x
    · subst hx
      rw [State.clerk_setClerk_same]
      exact ⟨rfl, hnext.trans (le_max_left _ _)⟩
    · rw [State.clerk_setClerk_other _ _ _ _ hx]
      exact ⟨hstage, hnext⟩
  · exact ⟨hstage, hnext⟩

end Sys2Proof.Machine
end

section
/-! SUPPORT. Wrong bits of stores and sorting caches (Clerks R179, R181): what a read finds, and what a slot's read of a store gives. -/

namespace Sys2Proof.Machine
open Reg

/-! ### Reads that find nothing -/

theorem State.eccWord_outside {s : State} {x : Nat × Nat} (h : sramDistrict x.1 = none) : s.eccWord x = s := by
  simp only [State.eccWord, h]

/-- A word that has been read has no wrong bits left. -/
theorem State.flips_eccWord {s : State} {x : Nat × Nat} {d : Nat} (h : sramDistrict x.1 = some d) :
    (s.eccWord x).floor.flips = s.floor.flips.filter fun y => y.1 != x.1 := by
  have hset : (s.setFlip x.1 0).floor.flips = s.floor.flips.filter fun y => y.1 != x.1 := List.append_nil _
  have hput : ∀ (cache : Bool) (f g : Fld) (m n : Nat), (if cache then (s.setFlip x.1 0).put f m else (s.setFlip x.1 0).put g n).floor.flips =
      s.floor.flips.filter fun y => y.1 != x.1 := fun cache _ _ _ _ => by
    cases cache <;> exact hset
  unfold State.eccWord
  rw [h]
  dsimp only
  by_cases hone : x.2 = 1
  · rw [if_pos hone, State.report_floor]
    exact hput _ _ _ _ _
  · rw [if_neg hone, State.report_floor]
    exact hput _ _ _ _ _

theorem State.notMem_flips_eccWord_self {s : State} {x : Nat × Nat} {d : Nat} (h : sramDistrict x.1 = some d) : x ∉ (s.eccWord x).floor.flips := by
  simp [State.flips_eccWord h]

theorem State.notMem_flips_eccWord {s : State} {x : Nat × Nat} (y : Nat × Nat) (h : x ∉ s.floor.flips) : x ∉ (s.eccWord y).floor.flips := by
  cases hd : sramDistrict y.1 with
  | none => rwa [State.eccWord_outside hd]
  | some d =>
    rw [State.flips_eccWord hd]
    exact fun hx => h (List.mem_of_mem_filter hx)

/-- A read changes nothing where no word with wrong bits lies in it. -/
theorem State.eccRead_clean {s : State} {a n : Nat} (h : ∀ x ∈ s.floor.flips, x.1 < a + n → a < x.1 + 8 → sramDistrict x.1 = none) : s.eccRead a n = s := by
  refine State.each_eq_self fun x hx => State.eccWord_outside ?_
  simp only [List.mem_filter, Bool.and_eq_true, decide_eq_true_eq] at hx
  obtain ⟨hmem, hlo, hhi⟩ := hx
  exact h x hmem hlo hhi

/-- A read that has changed nothing has found nothing. -/
theorem State.clean_of_eccRead {s : State} {a n : Nat} (h : s.eccRead a n = s) :
    ∀ x ∈ s.floor.flips, x.1 < a + n → a < x.1 + 8 → sramDistrict x.1 = none := by
  intro x hx hlo hhi
  by_contra hne
  obtain ⟨d, hd⟩ := Option.ne_none_iff_exists'.mp hne
  have hin : x ∈ s.floor.flips.filter fun y => decide (y.1 < a + n) && decide (a < y.1 + 8) := by simp [hx, hlo, hhi]
  have hgone : x ∉ (s.eccRead a n).floor.flips :=
    foldl_of_mem (P := fun t : State => x ∉ t.floor.flips) hin (fun _ => State.notMem_flips_eccWord_self hd) (fun _ y ht => State.notMem_flips_eccWord y ht) s
  rw [h] at hgone
  exact hgone hx

/-! ### Reads of a slot (Districts R201) -/

/-- A slot's read that goes on, in a state that it leaves as it was, lies in the parcel's range, finds no error, and gives the bytes. -/
theorem State.slotRead_ok {s : State} {c a n : Nat} {b : Bytes} (h : s.slotRead c a n = (s, .ok, b)) :
    s.inStore c a n = true ∧ s.eccRead (storeAddr c + a) n = s ∧ s.poisoned (storeAddr c + a) n = false ∧ b = s.rdMem (storeAddr c + a) n := by
  cases hin : s.inStore c a n with
  | false => simp [State.slotRead, hin] at h
  | true =>
    simp only [State.slotRead, hin, Bool.not_true, Bool.false_eq_true, if_false] at h
    split at h
    · simp at h
    · next hp =>
      simp only [Prod.mk.injEq, true_and] at h
      obtain ⟨hs, hb⟩ := h
      rw [hs] at hp hb
      exact ⟨rfl, hs, Bool.eq_false_iff.mpr hp, hb.symm⟩

/-- What a slot reads does not depend on what the clerks hold. -/
theorem State.slotRead_setClerk {s : State} {c a n : Nat} {b : Bytes} (h : s.slotRead c a n = (s, .ok, b)) (i : Nat) (k : Clerk) :
    (s.setClerk i k).slotRead c a n = (s.setClerk i k, .ok, b) := by
  obtain ⟨hin, hread, hp, rfl⟩ := State.slotRead_ok h
  have hin' : (s.setClerk i k).inStore c a n = true := hin
  have hclean := State.clean_of_eccRead hread
  have hread' : (s.setClerk i k).eccRead (storeAddr c + a) n = s.setClerk i k := State.eccRead_clean hclean
  have hp' : (s.setClerk i k).poisoned (storeAddr c + a) n = false := hp
  simp only [State.slotRead, hin', hread', hp', Bool.not_true, Bool.false_eq_true, if_false]
  rfl

/-! ### The scrubber (Clerks R181) -/

theorem errClass_sramCorrected : errClass Code.SRAM_CORRECTED = some .note := by decide
theorem errClass_sramUncorrectable : errClass Code.SRAM_UNCORRECTABLE = some .contained := by decide

/-- No word with wrong bits that no read has found meets the aligned 8 bytes at an address. -/
def State.flipFree (s : State) (a : Nat) : Prop := ∀ x ∈ s.floor.flips, x.1 + 8 ≤ a ∨ a + 8 ≤ x.1

theorem State.eccRead_flipFree {s : State} {a : Nat} (h : s.flipFree a) : s.eccRead a 8 = s :=
  State.eccRead_clean fun x hx hlo hhi => by have := h x hx; omega

/-- A read of the one word in which bits have gone wrong finds it. -/
theorem State.eccRead_setFlip {s : State} {a b : Nat} (h : s.flipFree a) (hb : b ≠ 0) : (s.setFlip a b).eccRead a 8 = (s.setFlip a b).eccWord (a, b) := by
  have hmiss : ∀ x ∈ s.floor.flips.filter (fun x => x.1 != a), ¬(decide (x.1 < a + 8) && decide (a < x.1 + 8)) = true := fun x hx => by
    have := h x (List.mem_of_mem_filter hx)
    simp only [Bool.and_eq_true, decide_eq_true_eq]
    omega
  have hflips : (s.setFlip a b).floor.flips = (s.floor.flips.filter fun x => x.1 != a) ++ [(a, b)] := by
    simp only [State.setFlip, State.setFloor_floor, if_neg hb]
  have hhit : [(a, b)].filter (fun x => decide (x.1 < a + 8) && decide (a < x.1 + 8)) = [(a, b)] := by simp
  rw [State.eccRead, hflips, List.filter_append, List.filter_eq_nil_iff.mpr hmiss, List.nil_append, hhit]
  rfl

/-- What arises in a word of a store or sorting cache: the wrong bits stay, and the scrubber finds them in a district that is ON. -/
theorem execScrubRead_word {s : State} {n d : Nat} (bad : Fin 3) (hs : inSram (8 * n) 8 = true) (hh : sramHolds (8 * n) = true)
    (hd : sramDistrict (8 * n) = some d) : exec (.scrubRead (8 * n) bad) s = .next
      (let t := if bad = 0 || !s.domUp d && s.dom d != 2 then s else s.setFlip (8 * n) bad.val
       if t.cfgOn FLOOR_SCRUB_CTRL_ENABLE && t.dom d == 0 then t.eccRead (8 * n) 8 else t) := by
  have ha : 8 * n / 8 * 8 = 8 * n := by omega
  show execScrubRead (8 * n) bad s = _
  simp only [execScrubRead, ha, hs, hh, hd, Bool.and_self, if_true]

theorem State.domUp_of_on {s : State} {d : Nat} (h : s.dom d = 0) : s.domUp d = true := by
  simp [State.domUp, h]

@[simp] theorem State.mem_setFlip (s : State) (a n : Nat) : (s.setFlip a n).mem = s.mem := rfl
@[simp] theorem State.poison_setFlip (s : State) (a n : Nat) : (s.setFlip a n).poison = s.poison := rfl
@[simp] theorem State.cfgOn_setFlip (s : State) (a n : Nat) (f : Fld) : (s.setFlip a n).cfgOn f = s.cfgOn f := rfl
@[simp] theorem State.dom_setFlip (s : State) (a n d : Nat) : (s.setFlip a n).dom d = s.dom d := rfl

section
variable {s : State} {n d : Nat} (hs : inSram (8 * n) 8 = true) (hh : sramHolds (8 * n) = true) (hd : sramDistrict (8 * n) = some d)
include hs hh hd

theorem execScrubRead_none (hf : s.flipFree (8 * n)) : exec (.scrubRead (8 * n) 0) s = .next s := by
  rw [execScrubRead_word 0 hs hh hd]
  simp only [decide_true, Bool.true_or, if_true, State.eccRead_flipFree hf, ite_self]

theorem execScrubRead_off (bad : Fin 3) (hb : bad ≠ 0) (hoff : s.cfgOn FLOOR_SCRUB_CTRL_ENABLE = false) (hup : s.domUp d = true) :
    exec (.scrubRead (8 * n) bad) s = .next (s.setFlip (8 * n) bad.val) := by
  rw [execScrubRead_word bad hs hh hd]
  simp only [hb, hup, hoff, State.cfgOn_setFlip, decide_false, Bool.not_true, Bool.false_and, Bool.or_self, Bool.false_eq_true, if_false]

theorem execScrubRead_on (bad : Fin 3) (hb : bad ≠ 0) (hon : s.cfgOn FLOOR_SCRUB_CTRL_ENABLE = true) (hdom : s.dom d = 0) (hf : s.flipFree (8 * n)) :
    exec (.scrubRead (8 * n) bad) s = .next ((s.setFlip (8 * n) bad.val).eccWord (8 * n, bad.val)) := by
  have hv : bad.val ≠ 0 := fun h => hb (Fin.ext h)
  rw [execScrubRead_word bad hs hh hd]
  simp only [hb, State.domUp_of_on hdom, hdom, hon, State.cfgOn_setFlip, State.dom_setFlip, decide_false, Bool.not_true, Bool.false_and, Bool.or_self,
    Bool.false_eq_true, if_false, beq_self_eq_true, Bool.and_self, if_true, State.eccRead_setFlip hf hv]

end

/-- The words of the SRAM window belong to the 16 districts. -/
theorem sramDistrict_lt {a d : Nat} (h : sramDistrict a = some d) : d < 16 := by
  unfold sramDistrict at h
  split at h
  · cases h
  · split at h
    · cases h
      exact clerkDistrict_lt (by omega)
    · split at h
      · cases h
        omega
      · cases h

/-! ### What a read finds in a word -/

theorem mem_addNew (a : Nat) (l : List Nat) : a ∈ if l.contains a then l else l ++ [a] := by
  split
  · next h => simpa using h
  · simp

/-- The state in which a read of a word of a store, or of a sorting cache, has found wrong bits there and reports them. -/
def State.eccFound (s : State) (cache : Bool) (a d : Nat) : State :=
  if cache then (s.setFlip a 0).put (FLOOR_SC_ECC_LAST_BANK d) ((a - cacheAddr d) / 0x40000)
  else (s.setFlip a 0).put (FLOOR_ECC_STATUS_LAST_CLERK d) (clerkLocal ((a - 0x8000000000) / 0x20000))

theorem State.eccFound_frame (s : State) (cache : Bool) (a d : Nat) :
    (s.eccFound cache a d).mem = s.mem ∧ (s.eccFound cache a d).poison = s.poison := by
  unfold State.eccFound
  split <;> exact ⟨(State.put_mem _ _ _).trans (s.mem_setFlip a 0), (State.put_poison _ _ _).trans (s.poison_setFlip a 0)⟩

/-- One wrong bit in a word of a store is corrected, counted and reported. -/
theorem State.eccWord_corrected {s : State} {a d : Nat} (hd : sramDistrict a = some d) (ha : decide (0x8020000000 ≤ a) = false) :
    s.eccWord (a, 1) = ((s.eccFound false a d).put (FLOOR_ECC_STATUS_CORR_COUNT d)
      (min ((s.eccFound false a d).get (FLOOR_ECC_STATUS_CORR_COUNT d) + 1) 0xFFFF)).report { code := Code.SRAM_CORRECTED, unit := d, detail := a } := by
  simp only [State.eccWord, State.eccFound, hd, ha, Bool.false_eq_true, if_false, if_true]

/-- The flag of a double-bit error in a district's stores, or in its sorting cache. -/
def uncorrFlag (cache : Bool) (d : Nat) : Fld := if cache then FLOOR_SC_ECC_UNCORR d else FLOOR_ECC_STATUS_UNCORR d

/-- The state in which a read has found two wrong bits in a word, before the word is marked poisoned. -/
def State.uncorrFound (s : State) (cache : Bool) (a d : Nat) : State := (s.eccFound cache a d).putB (uncorrFlag cache d) true

/-- Two wrong bits poison the word and are reported. -/
theorem State.eccWord_uncorrectable {s : State} {a d : Nat} {cache : Bool} (hd : sramDistrict a = some d) (ha : decide (0x8020000000 ≤ a) = cache) :
    s.eccWord (a, 2) = ((s.uncorrFound cache a d).putPoison
      (if (s.uncorrFound cache a d).poison.contains a then (s.uncorrFound cache a d).poison else (s.uncorrFound cache a d).poison ++ [a])).report
        { code := Code.SRAM_UNCORRECTABLE, unit := d, detail := a } := by
  cases cache <;> simp only [State.eccWord, State.uncorrFound, State.eccFound, uncorrFlag, hd, ha, OfNat.ofNat_ne_one, Bool.false_eq_true, if_true, if_false]

/-- The registers of the districts lie below those that a report changes. -/
theorem State.get_report_district (s : State) (e : Err) {g : Fld} (h : g.reg < 0xC00000) : (s.report e).get g = s.get g :=
  State.get_report s e g (by unfold SECURE_SEC_NOTIFY; omega) (.inl (by omega))

theorem State.eccWord_one {s : State} {a d : Nat} (hd : sramDistrict a = some d) (ha : decide (0x8020000000 ≤ a) = false) :
    (s.eccWord (a, 1)).get (FLOOR_ECC_STATUS_CORR_COUNT d) = min (s.get (FLOOR_ECC_STATUS_CORR_COUNT d) + 1) 0xFFFF ∧
      (s.eccWord (a, 1)).on ERROR_STATUS_NOTE = true ∧ (s.eccWord (a, 1)).mem = s.mem ∧ (s.eccWord (a, 1)).poison = s.poison := by
  obtain ⟨hmem, hpoison⟩ := s.eccFound_frame false a d
  have hlt := sramDistrict_lt hd
  have hcount : (s.eccFound false a d).get (FLOOR_ECC_STATUS_CORR_COUNT d) = s.get (FLOOR_ECC_STATUS_CORR_COUNT d) :=
    State.get_put_apart _ (FLOOR_ECC_STATUS_LAST_CLERK d) _ _ (by decide : 16 ≤ 23) (by decide : 23 < 64) (.inr (by decide : 15 < 16))
  rw [State.eccWord_corrected hd ha, hcount]
  refine ⟨?_, State.on_report_note _ _ errClass_sramCorrected, (State.report_mem _ _).trans hmem, (State.report_poison _ _).trans hpoison⟩
  rw [State.get_report_district _ _ (by show 0x108100 + 0x4 * d < 0xC00000; omega),
    State.get_put_same _ (FLOOR_ECC_STATUS_CORR_COUNT d) _ (by decide : 0 ≤ 15) (by decide : 15 < 64)]
  exact Nat.mod_eq_of_lt (lt_of_le_of_lt (min_le_right _ _) (by decide : 0xFFFF < 2 ^ 16))

theorem State.eccWord_two {s : State} {a d : Nat} {cache : Bool} (hd : sramDistrict a = some d) (ha : decide (0x8020000000 ≤ a) = cache) :
    (s.eccWord (a, 2)).on (uncorrFlag cache d) = true ∧ a ∈ (s.eccWord (a, 2)).poison ∧ (s.eccWord (a, 2)).on ERROR_STATUS_CONTAINED = true ∧
      (s.eccWord (a, 2)).mem = s.mem := by
  have hlt := sramDistrict_lt hd
  have hreg : (uncorrFlag cache d).reg < 0xC00000 := by
    cases cache
    · show 0x108100 + 0x4 * d < 0xC00000; omega
    · show 0x101008 + 0x40 * d < 0xC00000; omega
  have hbit : (uncorrFlag cache d).lo = 31 ∧ (uncorrFlag cache d).hi = 31 := by cases cache <;> exact ⟨rfl, rfl⟩
  obtain ⟨hlo, hhi⟩ := hbit
  rw [State.eccWord_uncorrectable hd ha]
  refine ⟨?_, ?_, State.on_report_contained _ _ errClass_sramUncorrectable, (State.report_mem _ _).trans (s.eccFound_frame cache a d).1⟩
  · rw [State.on, State.get_report_district _ _ hreg]
    exact State.on_putB_same _ (uncorrFlag cache d) true (hlo.trans hhi.symm) (by omega)
  · rw [State.report_poison]
    exact mem_addNew a _

end Sys2Proof.Machine
end

section
/-! SUPPORT. Freezes, the inbox, barriers and the scrubber (Clerks §9; R179, R181, R186 to R190), from the rules of clerks and of wrong bits. -/

namespace Sys2Proof.Machine
open Reg

/-- A full barrier releases its clerks, and touches no register and no memory. -/
theorem barrier_releases {s : State} {d : Fin 16} {m : Nat} (hall : ∀ c ∈ clerksOf d m, (s.clerk c).stage = .barrier m) :
    ∃ t, exec (.districtBarrier d) s = .next t ∧ t.regs = s.regs ∧ t.mem = s.mem ∧
      ∀ c ∈ clerksOf d m, (t.clerk c).stage = .running ∧ s.barrierLast d m + 12 ≤ (t.clerk c).next := by
  refine ⟨_, execDistrictBarrier_eq d s, ?_, ?_, fun c hc => ?_⟩
  · exact List.foldlRecOn (motive := fun t : State => t.regs = s.regs) _ _ rfl fun t ht x _ => (s.barrierStep_frame d t x).1.trans ht
  · exact List.foldlRecOn (motive := fun t : State => t.mem = s.mem) _ _ rfl fun t ht x _ => (s.barrierStep_frame d t x).2.trans ht
  · exact foldl_of_mem (P := fun t : State => t.runsFrom c (s.barrierLast d m + 12)) (mem_clerksOf hc) (State.barrierStep_runs hall hc)
      (s.barrierStep_keeps d) s

/-- Settles O27: each part is what the operation of its command does to the clerk, the barrier's clerks or the word. -/
theorem clerksFreezeJoinAndAreScrubbed : Obligations.ClerksFreezeJoinAndAreScrubbed := by
  intro s
  refine ⟨fun c cyc pc w p hr hp => ?_, fun k l n hk => ?_, fun d m hall => barrier_releases hall, fun n d hh hd hs hf => ?_⟩
  · subst hp
    rw [execWordIssue_reaches hr]
    refine ⟨fun hc => ?_, fun hc ha hb => ?_, fun hc hfree => ⟨fun hd => ⟨_, ?_, State.freeze_spec _ c cyc true rfl⟩,
      fun hd hw => ⟨_, ?_, State.freeze_spec _ c cyc false rfl⟩⟩⟩
    · rw [State.wordGo_contends hc]
    · rw [State.wordGo_busy hc ha (Clerk.arrayBusy_of_run hb)]
    · rw [State.wordGo_dry hc (Clerk.notHeld hfree) hd]
    · rw [State.wordGo_drain hc (Clerk.notHeld hfree) hd hw]
  · obtain ⟨hlen, hpre⟩ := k.fill_inbox l n hk
    exact ⟨hlen, (List.prefix_iff_eq_take.mp hpre).symm⟩
  · refine ⟨execScrubRead_none hs hh hd hf, fun hoff hup => ?_, fun hon hdom hlow => ?_, fun hon hdom hhigh => ?_⟩
    · refine ⟨_, execScrubRead_off hs hh hd 2 (by decide) hoff hup, ?_, rfl, rfl, rfl⟩
      exact List.mem_append_right _ (List.mem_singleton.mpr rfl)
    · have hstore : decide (0x8020000000 ≤ 8 * n) = false := decide_eq_false (by omega)
      obtain ⟨huncorr, hpoison, hcontained, hmem⟩ := State.eccWord_two (s := s.setFlip (8 * n) 2) hd hstore
      exact ⟨⟨_, execScrubRead_on hs hh hd 1 (by decide) hon hdom hf, State.eccWord_one hd hstore⟩,
        ⟨_, execScrubRead_on hs hh hd 2 (by decide) hon hdom hf, huncorr, hpoison, hcontained, hmem⟩⟩
    · obtain ⟨huncorr, hpoison, _, hmem⟩ := State.eccWord_two (s := s.setFlip (8 * n) 2) hd (decide_eq_true hhigh)
      exact ⟨_, execScrubRead_on hs hh hd 2 (by decide) hon hdom hf, huncorr, hpoison, hmem⟩

end Sys2Proof.Machine
end

section
/-! SUPPORT. The integer array instruction (Clerks §4): what it makes of one cell, and what a whole instruction leaves alone. -/

namespace Sys2Proof.Machine
open Reg

/-! ### Cells of an accumulator file -/

@[simp] theorem Clerk.cell_setCell_same (k : Clerk) (f i j v : Nat) : (k.setCell f i j v).cell f i j = v := SMap.get_set_same _ k.acc _ v

theorem Clerk.cell_setCell_other (k : Clerk) {f i j f' i' j' : Nat} (v : Nat) (hi : i < 16) (hj : j < 16) (hi' : i' < 16) (hj' : j' < 16)
    (h : f' ≠ f ∨ (i', j') ≠ (i, j)) : (k.setCell f i j v).cell f' i' j' = k.cell f' i' j' := by
  refine SMap.get_set_other _ k.acc _ _ v fun he => ?_
  have hf : f' = f := by omega
  have hii : i' = i := by omega
  have hjj : j' = j := by omega
  rcases h with h | h
  · exact h hf
  · exact h (by rw [hii, hjj])

/-- The 256 cells of a file, each once. -/
theorem cells_nodup : cells.Nodup :=
  List.nodup_range.map fun a b h => by
    simp only [Prod.mk.injEq] at h
    omega

theorem mem_cells {i j : Nat} : (i, j) ∈ cells ↔ i < 16 ∧ j < 16 := by
  simp only [cells, List.mem_map, List.mem_range, Prod.mk.injEq]
  constructor
  · rintro ⟨n, hn, rfl, rfl⟩
    omega
  · rintro ⟨hi, hj⟩
    exact ⟨16 * i + j, by omega, by omega, by omega⟩

/-! ### One cell -/

/-- The pairs of elements that an instruction combines in a cell. -/
def cellTerms (x : ArraySlot) (k : Clerk) (a b : Bytes) (p : Nat × Nat) : List (Int × Int) :=
  (List.range 16).map fun t => (aValue x (operand x a (aBits x) p.1 t), bValue k x p.2 (operand x b (bBits x.mode) p.2 t))

/-- What an integer instruction makes of a cell that a clerk holds, and whether it saturates; `k` holds the books. -/
def intCell (x : ArraySlot) (k : Clerk) (a b : Bytes) (r : Clerk) (p : Nat × Nat) : Int × Bool :=
  cellInt x (toSigned 32 (r.cell x.file.val p.1 p.2)) (cellTerms x k a b p)

theorem intCell_congr (x : ArraySlot) (k : Clerk) (a b : Bytes) {r r' : Clerk} {p : Nat × Nat}
    (h : r.cell x.file.val p.1 p.2 = r'.cell x.file.val p.1 p.2) : intCell x k a b r p = intCell x k a b r' p := by
  rw [intCell, h, intCell]

section
variable {x : ArraySlot} (hfp : (x.mode == .bf16 || x.mode == .fp16) = false) (hw : x.file ≠ 2) (k : Clerk) (a b : Bytes)
include hfp hw

/-- An integer instruction with a 32-bit file sets one cell at a time. -/
theorem arrayCell_int (r : Clerk × Bool × Bool) (p : Nat × Nat) : arrayCell x k a b r p =
    (r.1.setCell x.file.val p.1 p.2 (ofSigned 32 (intCell x k a b r.1 p).1), r.2.1 || (intCell x k a b r.1 p).2, r.2.2) := by
  simp only [arrayCell, hfp, hw, Bool.false_eq_true, if_false]
  rfl

/-- A cell that is not among those worked on keeps its value. -/
theorem arrayFold_cell_other {l : List (Nat × Nat)} (hl : ∀ p ∈ l, p ∈ cells) (r : Clerk × Bool × Bool) {f i j : Nat} (hi : i < 16) (hj : j < 16)
    (h : f ≠ x.file.val ∨ (i, j) ∉ l) : (l.foldl (arrayCell x k a b) r).1.cell f i j = r.1.cell f i j := by
  refine List.foldlRecOn (motive := fun q : Clerk × Bool × Bool => q.1.cell f i j = r.1.cell f i j) l _ rfl fun q hq p hp => ?_
  obtain ⟨hp1, hp2⟩ := mem_cells.mp (hl p hp)
  rw [arrayCell_int hfp hw, ← hq]
  refine Clerk.cell_setCell_other _ _ hp1 hp2 hi hj (h.imp_right fun hn he => hn ?_)
  rw [he]
  exact hp

/-- A saturation of one cell is that of the instruction. -/
theorem arrayFold_sat {l : List (Nat × Nat)} {r : Clerk × Bool × Bool} (h : r.2.1 = true) : (l.foldl (arrayCell x k a b) r).2.1 = true :=
  List.foldlRecOn (motive := fun q : Clerk × Bool × Bool => q.2.1 = true) l _ h fun q hq p _ => by
    rw [arrayCell_int hfp hw, hq]
    rfl

/-- Every cell of the file is what the instruction makes of the value that it had, and a cell that saturates is seen. -/
theorem arrayRun_cell {i j : Nat} (hi : i < 16) (hj : j < 16) : (arrayRun x k a b).1.cell x.file.val i j = ofSigned 32 (intCell x k a b k (i, j)).1 ∧
    ((intCell x k a b k (i, j)).2 = true → (arrayRun x k a b).2.1 = true) := by
  obtain ⟨l₁, l₂, hl⟩ := List.append_of_mem (mem_cells.mpr ⟨hi, hj⟩)
  have hnodup := cells_nodup
  rw [hl, List.nodup_append, List.nodup_cons] at hnodup
  obtain ⟨_, ⟨hafter, _⟩, hapart⟩ := hnodup
  have hbefore : (i, j) ∉ l₁ := fun h => hapart _ h _ List.mem_cons_self rfl
  have hin₁ : ∀ p ∈ l₁, p ∈ cells := fun p hp => by rw [hl]; exact List.mem_append_left _ hp
  have hin₂ : ∀ p ∈ l₂, p ∈ cells := fun p hp => by rw [hl]; exact List.mem_append_right _ (List.mem_cons_of_mem _ hp)
  have hsame : intCell x k a b (l₁.foldl (arrayCell x k a b) (k, false, false)).1 (i, j) = intCell x k a b k (i, j) :=
    intCell_congr x k a b (arrayFold_cell_other hfp hw k a b hin₁ _ hi hj (.inr hbefore))
  have hrun : arrayRun x k a b = l₂.foldl (arrayCell x k a b) (arrayCell x k a b (l₁.foldl (arrayCell x k a b) (k, false, false)) (i, j)) := by
    rw [arrayRun, hl, List.foldl_append, List.foldl_cons]
  rw [hrun, arrayFold_cell_other hfp hw k a b hin₂ _ hi hj (.inr hafter), arrayCell_int hfp hw, hsame]
  refine ⟨Clerk.cell_setCell_same _ _ _ _ _, fun hsat => arrayFold_sat hfp hw k a b ?_⟩
  rw [hsat, Bool.or_true]

theorem arrayRun_cell_other {f i j : Nat} (hf : f ≠ x.file.val) (hi : i < 16) (hj : j < 16) : (arrayRun x k a b).1.cell f i j = k.cell f i j :=
  arrayFold_cell_other hfp hw k a b (fun _ hp => hp) _ hi hj (.inl hf)

/-- An integer instruction makes no NaN, and touches no vector register. -/
theorem arrayRun_frame : (arrayRun x k a b).2.2 = false ∧ (arrayRun x k a b).1.vregs = k.vregs :=
  List.foldlRecOn (motive := fun q : Clerk × Bool × Bool => q.2.2 = false ∧ q.1.vregs = k.vregs) cells _ ⟨rfl, rfl⟩ fun q hq p _ => by
    rw [arrayCell_int hfp hw]
    exact hq

end

/-! ### The INT8 MAC -/

theorem ArraySlot.narrow {x : ArraySlot} (h : x.file.val < 2) : x.file ≠ 2 := fun he => by
  rw [he] at h
  exact absurd h (by decide)

theorem ArraySlot.integer_of_int8 {x : ArraySlot} (h : x.mode = .int8) : (x.mode == .bf16 || x.mode == .fp16) = false := by
  rw [h]
  rfl

/-- A sum is brought to 32 bits by saturation, which is seen (Clerks R159). -/
theorem cellInt_mac {x : ArraySlot} (h : x.op = .mac) (c : Int) (l : List (Int × Int)) :
    let e := c + l.foldl (fun t p => t + p.1 * p.2) 0 * (2 ^ (8 * x.shift.val) : Nat)
    (cellInt x c l).1 = max (-2147483648) (min 2147483647 e) ∧ (e < -2147483648 ∨ 2147483647 < e → (cellInt x c l).2 = true) := by
  intro e
  have hcell : cellInt x c l = if e < -0x80000000 then (-0x80000000, true) else if 0x7FFFFFFF < e then (0x7FFFFFFF, true) else (e, false) := by
    simp only [cellInt, h, termResult]
    rfl
  rw [hcell]
  split
  · exact ⟨by dsimp only; omega, fun _ => rfl⟩
  · split
    · exact ⟨by dsimp only; omega, fun _ => rfl⟩
    · exact ⟨by dsimp only; omega, fun _ => by omega⟩

/-- The value of a code of an INT8 operand (Clerks R167). -/
def int8Code (u8 : Bool) (n : Nat) : Int := if u8 then (n : Int) else toSigned 8 n

theorem aValue_int8 {x : ArraySlot} (h : x.mode = .int8) (n : Nat) : aValue x n = int8Code x.aU8 n := by
  simp [aValue, aBits, int8Code, h]

theorem bValue_int8 {x : ArraySlot} (h : x.mode = .int8) (k : Clerk) (j n : Nat) : bValue k x j n = int8Code x.bU8 n := by
  simp [bValue, int8Code, h]

/-- Element `lane` of feeder word `k` of a broadcast operand of bytes (log entry 43). -/
theorem operand_broadcast8 {x : ArraySlot} (h : x.stream = false) (s : State) (a : Nat) {lane k : Nat} (hl : lane < 16) (hk : k < 16) :
    operand x (s.rdMem a 256) 8 lane k = (s.byte (a + (16 * k + lane))).toNat := by
  have hoff : k * 2 * 8 + lane * (8 / 8) = 16 * k + lane := by omega
  simp only [operand, feedElem, h, Bool.false_eq_true, if_false, hoff]
  show fieldLE (readBytes s.mem a 256) (16 * k + lane) 1 = _
  rw [fieldLE_readBytes _ _ _ _ _ (by omega)]
  exact Nat.add_zero _

/-- The exact value of a cell after an INT8 MAC in broadcast mode with its operands at two addresses, before saturation (Clerks R159, R167). -/
def macExact (x : ArraySlot) (s : State) (pa pb : Nat) (k : Clerk) (i j : Nat) : Int :=
  toSigned 32 (k.cell x.file.val i j) + (List.range 16).foldl
    (fun t n => t + int8Code x.aU8 (s.byte (pa + (16 * n + i))).toNat * int8Code x.bU8 (s.byte (pb + (16 * n + j))).toNat) 0 * (2 ^ (8 * x.shift.val) : Nat)

/-- What an INT8 MAC makes of a cell. -/
theorem intCell_mac {x : ArraySlot} (hop : x.op = .mac) (hm : x.mode = .int8) (hb : x.stream = false) (s : State) (pa pb : Nat) (k : Clerk) {i j : Nat}
    (hi : i < 16) (hj : j < 16) :
    (intCell x k (s.rdMem pa 256) (s.rdMem pb 256) k (i, j)).1 = max (-2147483648) (min 2147483647 (macExact x s pa pb k i j)) ∧
      (macExact x s pa pb k i j < -2147483648 ∨ 2147483647 < macExact x s pa pb k i j →
        (intCell x k (s.rdMem pa 256) (s.rdMem pb 256) k (i, j)).2 = true) := by
  have hterms : cellTerms x k (s.rdMem pa 256) (s.rdMem pb 256) (i, j) = (List.range 16).map fun n =>
      (int8Code x.aU8 (s.byte (pa + (16 * n + i))).toNat, int8Code x.bU8 (s.byte (pb + (16 * n + j))).toNat) := by
    refine List.map_congr_left fun n hn => ?_
    have hn' := List.mem_range.mp hn
    have ha : aBits x = 8 := by simp [aBits, hm]
    have hbits : bBits x.mode = 8 := by simp [bBits, hm]
    rw [aValue_int8 hm, bValue_int8 hm, ha, hbits, operand_broadcast8 hb s pa hi hn', operand_broadcast8 hb s pb hj hn']
  have hcell := cellInt_mac hop (toSigned 32 (k.cell x.file.val i j)) (cellTerms x k (s.rdMem pa 256) (s.rdMem pb 256) (i, j))
  rw [hterms, List.foldl_map] at hcell
  rw [intCell, hterms]
  exact hcell

end Sys2Proof.Machine
end

section
/-! SUPPORT. A word whose only slot is an array slot (Clerks R155, R163, R184): its issue, and the INT8 MAC. -/

namespace Sys2Proof.Machine
open Reg

/-! ### Issue -/

/-- A word with an array slot alone does what the slot does. -/
theorem State.issueWord_array (s : State) (c cyc : Nat) (x : ArraySlot) {z : Issue} (h : Issue.array c cyc (s.clerk c) x ⟨s, s.clerk c, .ok⟩ = z)
    (hok : z.fin = .ok) : s.issueWord c cyc { array := some x } = z.s.setClerk c z.k := by
  simp only [State.issueWord, withSlot, h, hok]

/-- The array instruction in flight of a broadcast slot that is issued in a cycle, with its operands at two addresses (Clerks R176). -/
def broadcastPlan (x : ArraySlot) (cyc pa pb : Nat) : ArrayRun :=
  ⟨cyc, arrayPlan (issueCycles x.mode) (feedBank pa (2 * aBits x) 16 (issueCycles x.mode)) (feedBank pb (2 * bBits x.mode) 16 (issueCycles x.mode))⟩

/-- The clerk after a broadcast slot whose cells make no NaN: the cells, the flag of a saturation, and the instruction in flight. -/
def broadcastClerk (x : ArraySlot) (run : ArrayRun) (r : Clerk × Bool × Bool) : Clerk := { r.1 with
  array := some run
  streamA := none
  readable := (filesOf x.file).foldl (fun m f => SMap.set (fun _ => 0) m f (run.free + 2)) r.1.readable
  sat := if r.2.1 then x.file.val :: r.1.sat.filter (· != x.file.val) else r.1.sat }

/-- The machine after an array slot that made no NaN: its issue cycles and the frozen ones among its own are counted, and a saturation is marked. -/
def State.arrayCounted (s : State) (d n frozen : Nat) (sat : Bool) : State :=
  let t := (s.add64 (FLOOR_ARRAY_CYCLES d) n).add64 (FLOOR_FREEZE_DRY d) frozen
  if sat then t.putB (FLOOR_ARITH_EVENT_ACC_SAT d) true else t

/-- A broadcast slot whose operands read without error and whose cells make no NaN. -/
theorem Issue.array_broadcast {c cyc : Nat} {old : Clerk} {x : ArraySlot} {z : Issue} {fa fb : Feed} {a b : Bytes} (hfa : old.feedA = some fa)
    (hfb : old.feedB = some fb) (hlegal : arrayLegal x = true) (hs : x.stream = false)
    (hra : z.s.slotRead c fa.addr (16 * (2 * aBits x)) = (z.s, .ok, a)) (hrb : z.s.slotRead c fb.addr (16 * (2 * bBits x.mode)) = (z.s, .ok, b))
    (hnan : (arrayRun x z.k a b).2.2 = false) :
    Issue.array c cyc old x z = ⟨z.s.arrayCounted (clerkDistrict c) (issueCycles x.mode) ((broadcastPlan x cyc fa.addr fb.addr).plan.filter fun p => p.1).length
      (arrayRun x z.k a b).2.1, broadcastClerk x (broadcastPlan x cyc fa.addr fb.addr) (arrayRun x z.k a b), z.fin⟩ := by
  have hkept : old.forwarded x fa.addr = [] := by simp [Clerk.forwarded, hs]
  have hwords : feedWords x = 16 := by simp [feedWords, hs]
  have hjoin : (SlotEnd.ok.join .ok != .ok) = false := rfl
  simp only [Issue.array, hfa, hfb, hlegal, hkept, hwords, List.length_nil, Nat.zero_mul, Nat.add_zero, Nat.sub_zero, hra, hrb, hjoin, List.flatten_nil,
    List.nil_append, hs, hnan, Bool.not_true, Bool.false_eq_true, if_false]
  rfl

/-! ### What an array slot counts -/

section
variable (s : State) {d : Nat} (n frozen : Nat) (sat : Bool)

/-- Counting touches the counters of the district and its event register alone. -/
theorem State.arrayCounted_frame : (s.arrayCounted d n frozen sat).mem = s.mem ∧ (∀ i, (s.arrayCounted d n frozen sat).clerk i = s.clerk i) ∧
    ∀ o, o ≠ FLOOR_ARRAY_CYCLES d → o ≠ FLOOR_FREEZE_DRY d → o ≠ FLOOR_ARITH_EVENT d → (s.arrayCounted d n frozen sat).rd o = s.rd o := by
  have hcount : ∀ o, o ≠ FLOOR_ARRAY_CYCLES d → o ≠ FLOOR_FREEZE_DRY d →
      ((s.add64 (FLOOR_ARRAY_CYCLES d) n).add64 (FLOOR_FREEZE_DRY d) frozen).rd o = s.rd o := fun o hc hf =>
    (State.rd_add64_other _ _ frozen o hf).trans (State.rd_add64_other s _ n o hc)
  cases sat with
  | false => exact ⟨rfl, fun _ => rfl, fun o hc hf _ => hcount o hc hf⟩
  | true => exact ⟨rfl, fun _ => rfl, fun o hc hf he => (State.rd_put_other _ (FLOOR_ARITH_EVENT_ACC_SAT d) 1 o he).trans (hcount o hc hf)⟩

/-- The issue cycles are counted in the district's counter. -/
theorem State.arrayCounted_cycles (hd : d < 16) :
    (s.arrayCounted d n frozen sat).rdN (FLOOR_ARRAY_CYCLES d) = min (s.rdN (FLOOR_ARRAY_CYCLES d) + n) (2 ^ 64 - 1) := by
  have hdry : FLOOR_ARRAY_CYCLES d ≠ FLOOR_FREEZE_DRY d := by
    unfold FLOOR_ARRAY_CYCLES FLOOR_FREEZE_DRY
    omega
  have hevent : FLOOR_ARRAY_CYCLES d ≠ FLOOR_ARITH_EVENT d := by
    unfold FLOOR_ARRAY_CYCLES FLOOR_ARITH_EVENT
    omega
  have hcount : ((s.add64 (FLOOR_ARRAY_CYCLES d) n).add64 (FLOOR_FREEZE_DRY d) frozen).rdN (FLOOR_ARRAY_CYCLES d) =
      min (s.rdN (FLOOR_ARRAY_CYCLES d) + n) (2 ^ 64 - 1) := by
    rw [State.rdN_add64_other _ _ _ _ hdry, State.rdN_add64_same]
  cases sat with
  | false => exact hcount
  | true => exact (State.rdN_put_other _ (FLOOR_ARITH_EVENT_ACC_SAT d) 1 _ hevent).trans hcount

/-- A saturation is marked in the district's event register (Clerks R159). -/
theorem State.arrayCounted_sat : (s.arrayCounted d n frozen true).on (FLOOR_ARITH_EVENT_ACC_SAT d) = true :=
  State.on_putB_same _ (FLOOR_ARITH_EVENT_ACC_SAT d) true rfl (by decide : 0 < 64)

end

/-- The machine after the issue of an array slot: the clerk, as it goes on from the word, and what is counted. -/
def State.arrayIssued (s : State) (c : Nat) (k k' : Clerk) (n frozen : Nat) (sat : Bool) : State :=
  ((s.setClerk c k).arrayCounted (clerkDistrict c) n frozen sat).setClerk c k'

section
variable (s : State) (c : Nat) (k k' : Clerk) (n frozen : Nat)

theorem State.arrayIssued_clerk (sat : Bool) : (s.arrayIssued c k k' n frozen sat).clerk c = k' := State.clerk_setClerk_same _ c k'

/-- The issue of an array slot leaves the other clerks, memory and every other register alone. -/
theorem State.arrayIssued_frame (sat : Bool) : (∀ o, o ≠ c → (s.arrayIssued c k k' n frozen sat).clerk o = s.clerk o) ∧
    (s.arrayIssued c k k' n frozen sat).mem = s.mem ∧
    ∀ o, o ≠ FLOOR_ARRAY_CYCLES (clerkDistrict c) → o ≠ FLOOR_FREEZE_DRY (clerkDistrict c) → o ≠ FLOOR_ARITH_EVENT (clerkDistrict c) →
      (s.arrayIssued c k k' n frozen sat).rd o = s.rd o := by
  obtain ⟨hmem, hclerks, hregs⟩ := (s.setClerk c k).arrayCounted_frame (d := clerkDistrict c) n frozen sat
  exact ⟨fun o ho => (State.clerk_setClerk_other _ c o k' ho).trans ((hclerks o).trans (State.clerk_setClerk_other s c o k ho)), hmem, hregs⟩

theorem State.arrayIssued_cycles (sat : Bool) (hc : c < 4096) : (s.arrayIssued c k k' n frozen sat).rdN (FLOOR_ARRAY_CYCLES (clerkDistrict c)) =
    min (s.rdN (FLOOR_ARRAY_CYCLES (clerkDistrict c)) + n) (2 ^ 64 - 1) := State.arrayCounted_cycles _ n frozen sat (clerkDistrict_lt hc)

theorem State.arrayIssued_sat : (s.arrayIssued c k k' n frozen true).on (FLOOR_ARITH_EVENT_ACC_SAT (clerkDistrict c)) = true :=
  State.arrayCounted_sat _ n frozen

end

/-! ### The INT8 MAC in broadcast mode -/

/-- The machine after an INT8 MAC that the clerk `c` issues with these operand bytes and addresses; the clerk's next word is at `pc`. -/
def State.macDone (s : State) (c cyc pc : Nat) (x : ArraySlot) (fa fb : Feed) (a b : Bytes) : State :=
  s.arrayIssued c { s.clerk c with pc := pc }
    (broadcastClerk x (broadcastPlan x cyc fa.addr fb.addr) (arrayRun x { s.clerk c with pc := pc } a b)) 16
    ((broadcastPlan x cyc fa.addr fb.addr).plan.filter fun p => p.1).length (arrayRun x { s.clerk c with pc := pc } a b).2.1

section
variable {x : ArraySlot} (hop : x.op = .mac) (hm : x.mode = .int8) (hb : x.stream = false) (hf : x.file.val < 2)
include hop hm hb hf

/-- The issue of an INT8 MAC whose operands read without error. -/
theorem State.issueWord_mac {s : State} {c cyc : Nat} (pc : Nat) {fa fb : Feed} {a b : Bytes} (hfa : (s.clerk c).feedA = some fa)
    (hfb : (s.clerk c).feedB = some fb) (hra : s.slotRead c fa.addr 256 = (s, .ok, a)) (hrb : s.slotRead c fb.addr 256 = (s, .ok, b)) :
    (s.setClerk c { s.clerk c with pc := pc }).issueWord c cyc { array := some x } = s.macDone c cyc pc x fa fb a b := by
  have hfile := ArraySlot.narrow hf
  have hfp := ArraySlot.integer_of_int8 hm
  have hlegal : arrayLegal x = true := by simp [arrayLegal, hop, hfile]
  have ha : 16 * (2 * aBits x) = 256 := by simp [aBits, hm]
  have hbits : 16 * (2 * bBits x.mode) = 256 := by simp [bBits, hm]
  have hn : issueCycles x.mode = 16 := by simp [issueCycles, hm]
  refine (State.issueWord_array _ c cyc x (Issue.array_broadcast (fa := fa) (fb := fb) (a := a) (b := b) ?_ ?_ hlegal hb ?_ ?_ ?_) rfl).trans ?_
  · rwa [State.clerk_setClerk_same]
  · rwa [State.clerk_setClerk_same]
  · rw [ha]
    exact State.slotRead_setClerk hra _ _
  · rw [hbits]
    exact State.slotRead_setClerk hrb _ _
  · exact (arrayRun_frame hfp hfile _ a b).1
  · simp only [State.macDone, State.arrayIssued, hn, State.clerk_setClerk_same]

/-- What an INT8 MAC does to the cells of its clerk, and what it leaves alone. -/
theorem State.macDone_spec (s : State) {c : Nat} (cyc pc : Nat) (fa fb : Feed) (hc : c < 4096) {pa pb : Nat} {t : State}
    (ht : t = s.macDone c cyc pc x fa fb (s.rdMem pa 256) (s.rdMem pb 256)) :
    (∀ i j, i < 16 → j < 16 → (t.clerk c).cell x.file i j = ofSigned 32 (max (-2147483648) (min 2147483647 (macExact x s pa pb (s.clerk c) i j)))) ∧
      (∀ i j, i < 16 → j < 16 → (macExact x s pa pb (s.clerk c) i j < -2147483648 ∨ 2147483647 < macExact x s pa pb (s.clerk c) i j) →
        t.on (FLOOR_ARITH_EVENT_ACC_SAT (clerkDistrict c)) = true) ∧
      (∀ i j, i < 16 → j < 16 → (t.clerk c).cell (1 - x.file.val) i j = (s.clerk c).cell (1 - x.file.val) i j) ∧
      t.rdN (FLOOR_ARRAY_CYCLES (clerkDistrict c)) = min (s.rdN (FLOOR_ARRAY_CYCLES (clerkDistrict c)) + 16) (2 ^ 64 - 1) ∧
      (∀ o, o ≠ c → t.clerk o = s.clerk o) ∧ t.mem = s.mem ∧ (t.clerk c).vregs = (s.clerk c).vregs ∧
      (∀ o, o ≠ FLOOR_ARRAY_CYCLES (clerkDistrict c) → o ≠ FLOOR_FREEZE_DRY (clerkDistrict c) → o ≠ FLOOR_ARITH_EVENT (clerkDistrict c) →
        t.rd o = s.rd o) := by
  subst ht
  have hfile := ArraySlot.narrow hf
  have hfp := ArraySlot.integer_of_int8 hm
  have hcell := fun i j (hi : i < 16) (hj : j < 16) =>
    arrayRun_cell hfp hfile { s.clerk c with pc := pc } (s.rdMem pa 256) (s.rdMem pb 256) hi hj
  have hexact := fun i j (hi : i < 16) (hj : j < 16) => intCell_mac hop hm hb s pa pb { s.clerk c with pc := pc } hi hj
  obtain ⟨hothers, hmem, hregs⟩ := s.arrayIssued_frame c _ _ 16 _ _
  rw [State.macDone, State.arrayIssued_clerk]
  refine ⟨fun i j hi hj => ?_, fun i j hi hj hsat => ?_, fun i j hi hj => ?_, s.arrayIssued_cycles c _ _ 16 _ _ hc, hothers, hmem, ?_, hregs⟩
  · exact (hcell i j hi hj).1.trans (congrArg (ofSigned 32) (hexact i j hi hj).1)
  · rw [(hcell i j hi hj).2 ((hexact i j hi hj).2 hsat)]
    exact s.arrayIssued_sat c _ _ 16 _
  · exact arrayRun_cell_other hfp hfile _ _ _ (by omega) hi hj
  · exact (arrayRun_frame hfp hfile _ _ _).2

end

/-- Settles O26: a MAC that nothing holds is issued, and its cells are those of the array's fold over the file. -/
theorem int8MacAccumulatesExactly : Obligations.Int8MacAccumulatesExactly := by
  intro c cyc pc len branch x fa fb da db s0 s hr hs hop hm hb hf hidle hfa hfb hra hrb hwaits hda hdb
  subst hs
  obtain ⟨_, _, _, rfl⟩ := State.slotRead_ok hda
  obtain ⟨_, _, _, rfl⟩ := State.slotRead_ok hdb
  have hdry : ((s0.clerkCycle c cyc).clerk c).dry cyc { array := some x } = false := by
    have ha : ¬cyc < fa.ready := by omega
    have hb : ¬cyc < fb.ready := by omega
    simp [Clerk.dry, hfa, hfb, ha, hb]
  have hcontends : (((s0.clerkCycle c cyc).clerk c).arrayAt cyc).any (fun p => p.1) = false := by rw [Clerk.arrayAt_of_idle hidle]; rfl
  refine ⟨_, ?_, State.macDone_spec hop hm hb hf (s0.clerkCycle c cyc) cyc (pc + len) fa fb c.isLt rfl⟩
  rw [execWordIssue_reaches hr, State.wordGo_issues (w := ⟨{ array := some x }, len, branch, 0⟩) hcontends (Clerk.notHeld (.inr hidle)) hdry hwaits]
  exact congrArg Host.Outcome.next (State.issueWord_mac hop hm hb hf (pc + len) hfa hfb hda hdb)

end Sys2Proof.Machine
end

section
/-! SUPPORT. RUNs on districts beyond the sixteen. The state bounds no district number of a RUN, and the registers of a district are found by its number: what
the end of such a RUN writes as DEBUG_STATE or DIST_STATE of its district is a register of another district or block. Three statements speak of every state, and
fail in such a one. No RUN that a command begins is on such a district (`districtsOf` gives numbers below 16), so the states below are none that a trace reaches. -/

namespace Sys2Proof.Machine
open Reg

/-- A RUN of ring 5 on the districts of a list, of a parcel that has no steps. -/
def strayRun (districts : List Nat) : RunSt :=
  { ring := 5, seq := 0, key := ⟨1, 1, 1⟩, dists := districts.map fun d => { d := d }, steps := [], maxCycles := 0, limit := 0, events := none, sealed := false }

/-- The floor holds a stray RUN and nothing else. -/
def strayState (districts : List Nat) : State := State.reset.setFloor fun f => { f with runs := [strayRun districts] }

/-! ### The hang of a unit (Round R65) -/

/-- The district number whose DEBUG_STATE would lie at ERROR.STATUS. -/
def strayStatus : Nat := (ERROR_STATUS - FLOOR_DEBUG_STATE 0) / 4

/-- A unit of ring 5 whose quantum has ended at instant 0. -/
def hungUnit : RunUnit := { ring := some 5, owner := 0, d := 0, startRound := 0, startNs := 0, quantumEnd := 0 }

/-- District 0 runs a step of the stray RUN. -/
def hungStray : State := ((strayState [strayStatus]).setFloor fun f => { f with units := [(0, some { ring := 5, seq := 0, desc := 0, clerks := 0 })] }).setRnd
  fun z => { z with running := [(0, some hungUnit)] }

/-- Refutes O28: the report of the hang sets CONTAINED, and the end of the RUN then clears it as the bit ENCRYPTED of its district's DEBUG_STATE. -/
theorem not_stepsStartAndEnd : ¬ Obligations.StepsStartAndEnd := by
  intro h
  obtain ⟨-, -, -, -, hunit⟩ := h 0 1000000 hungStray
  obtain ⟨-, hhang⟩ := hunit hungUnit 5 rfl rfl (by decide +kernel)
  obtain ⟨t, ht, -, -, hcontained⟩ := hhang (by decide +kernel)
  obtain rfl := Host.Outcome.next.inj ht
  exact absurd hcontained (by decide +kernel)

/-! ### An inbound tile for the express district (Districts R207) -/

/-- The district number whose DIST_STATE would lie at the first arrival counter of district 15. -/
def strayArrival : Nat := (FLOOR_ARRIVE_CNT 15 0 - FLOOR_DIST_STATE 0) / 0x40

/-- The stray RUN is on district 0 too, and the first arrival counter of the express district, 15, has counted four tiles. -/
def tileStray : State := (strayState [0, strayArrival]).wrN (FLOOR_ARRIVE_CNT 15 0) 4

/-- Refutes O30: the refused tile ends the RUN, and the counter is cleared as the bit WAIT_ARRIVE of its district's DIST_STATE. -/
theorem not_copiesAndInboundTilesMoveTheirBytes : ¬ Obligations.CopiesAndInboundTilesMoveTheirBytes := by
  intro h
  obtain ⟨-, htile, -⟩ := h 5 tileStray
  obtain ⟨-, hexpress⟩ := htile 0 (strayRun [0, strayArrival]) 0 (cacheAddr 15) 0 [] 15 rfl rfl (by decide) (by decide) (by decide) (by decide +kernel)
  obtain ⟨t, ht, -, hcount⟩ := hexpress (by decide +kernel)
  obtain rfl := Host.Outcome.next.inj ht
  exact absurd hcount (by decide +kernel)

/-! ### A refused relay transfer (Links R635) -/

/-- The district number whose DEBUG_STATE would lie at RELAY.WNAKS. -/
def strayWnaks : Nat := (RELAY_WNAKS - FLOOR_DEBUG_STATE 0) / 4

/-- The relay link is UP, and a transfer of the stray RUN, with TAG 0, awaits its acknowledgement. -/
def wnakStray : State := (((strayState [strayWnaks]).put RELAY_STATUS_STATE 2).put (POWER_DOM_STATUS_STATE 22) 0).setRelay fun r =>
  { r with ops := [⟨0, 5, 0, 0, false⟩] }

/-- A WNAK of TAG 0 for module 0, with the CRC of its octets. -/
def wnakPacket : RelayIn := ⟨0, 0, 0, 0, 0, 0, [], crcOfOctets (relayOctets 3 0 0 0 0 0 0 [])⟩

/-- Refutes O58: the WNAK is counted, and the end of the RUN that it fails writes over the count as NODE of its district's DEBUG_STATE. -/
theorem not_relayLinkTrainsCarriesAndSignals : ¬ Obligations.RelayLinkTrainsCarriesAndSignals := by
  intro h
  obtain ⟨-, -, -, -, -, hpacket, -⟩ := h wnakStray
  obtain ⟨-, -, hwnak, -⟩ := hpacket wnakPacket (by decide +kernel) (by decide +kernel)
  obtain ⟨t, ht, hcount, -⟩ := hwnak (beq_self_eq_true _)
  obtain rfl := Host.Outcome.next.inj ht
  exact absurd hcount (by decide +kernel)

end Sys2Proof.Machine
end

section
/-! SUPPORT. What leaves the floor alone but for wrong bits found and transfers at router outputs: accesses to memory, reports, and what the ring engine does. -/

namespace Sys2Proof.Machine
open Reg

/-- `t` has the floor of `s`, but for the wrong bits of SRAM words and the transfers at router outputs. -/
def FloorStays (s t : State) : Prop := ∃ flips mesh, t.floor = { s.floor with flips := flips, mesh := mesh }

namespace FloorStays
variable {s t u : State}

theorem refl (s : State) : FloorStays s s := ⟨_, _, rfl⟩

theorem trans (h : FloorStays s t) (k : FloorStays t u) : FloorStays s u := by
  obtain ⟨_, _, h⟩ := h
  obtain ⟨l, m, k⟩ := k
  exact ⟨l, m, by rw [k, h]⟩

theorem runs (h : FloorStays s t) : t.floor.runs = s.floor.runs := by obtain ⟨_, _, h⟩ := h; rw [h]
theorem allocs (h : FloorStays s t) : t.floor.allocs = s.floor.allocs := by obtain ⟨_, _, h⟩ := h; rw [h]
theorem units (h : FloorStays s t) : t.floor.units = s.floor.units := by obtain ⟨_, _, h⟩ := h; rw [h]
theorem clerks (h : FloorStays s t) : t.floor.clerks = s.floor.clerks := by obtain ⟨_, _, h⟩ := h; rw [h]

theorem allocOf (h : FloorStays s t) (d : Nat) (k : ParcelKey) : t.allocOf d k = s.allocOf d k := by
  simp only [State.allocOf, State.allocs, h.allocs]

theorem of_spent (h : Spent s t) : FloorStays s t := by obtain ⟨⟨_, _, rfl⟩, _⟩ := h; exact refl s

theorem ite (c : Prop) [Decidable c] {a b : State} (ha : FloorStays s a) (hb : FloorStays s b) : FloorStays s (if c then a else b) := by
  split <;> assumption

variable (h : FloorStays s t)
include h

/-- An update of another part of the state. -/
theorem same (hf : u.floor = t.floor) : FloorStays s u := by
  obtain ⟨l, m, h⟩ := h
  exact ⟨l, m, hf.trans h⟩

theorem each {α : Type} {f : State → α → State} (hf : ∀ v x, FloorStays s v → FloorStays s (f v x)) (l : List α) : FloorStays s (t.each l f) :=
  List.foldlRecOn l f h fun v hv x _ => hf v x hv

theorem wr {o v} : FloorStays s (t.wr o v) := h.same rfl
theorem wrN {o n} : FloorStays s (t.wrN o n) := h.wr
theorem put {f n} : FloorStays s (t.put f n) := h.wr
theorem putB {f b} : FloorStays s (t.putB f b) := h.wr
theorem addSat {o n} : FloorStays s (t.addSat o n) := h.wr
theorem add64 {o n} : FloorStays s (t.add64 o n) := h.wr
theorem setRing {r d} : FloorStays s (t.setRing r d) := h.same rfl
theorem setLedgerRun {n} : FloorStays s (t.setLedgerRun n) := h.same rfl
theorem wrMem {a b} : FloorStays s (t.wrMem a b) := h.same rfl
theorem putPoison {l} : FloorStays s (t.putPoison l) := h.same rfl
theorem sendIrq {i} : FloorStays s (t.sendIrq i) := h.same rfl
theorem setActing {l} : FloorStays s (t.setActing l) := h.same rfl
theorem setRnd {f} : FloorStays s (t.setRnd f) := h.same rfl
theorem clearNow {f} : FloorStays s (t.clearNow f) := h.setActing.put
theorem report {e} : FloorStays s (t.report e) := h.same (State.report_floor t e)

/-! ### Device and host memory -/

theorem accReport {e} : FloorStays s (t.accReport e) := by
  unfold State.accReport
  split
  · exact h.report.wrN
  · exact h.report
  · exact h.report
  · exact h.report
  · exact h

theorem writeLine {a b} : FloorStays s (t.writeLine a b) :=
  FloorStays.ite _ h.report (FloorStays.ite _ (FloorStays.ite _ h.putPoison.put.wrMem h.report) h.wrMem)

theorem setFlip {a n} : FloorStays s (t.setFlip a n) := h.trans ⟨_, _, rfl⟩

theorem eccWord {x} : FloorStays s (t.eccWord x) := by
  unfold State.eccWord
  extract_lets cache s₁
  have hs₁ : FloorStays s s₁ := h.setFlip
  split
  · exact h
  · extract_lets s₂ f s₃
    have hs₂ : FloorStays s s₂ := FloorStays.ite _ hs₁.put hs₁.put
    exact FloorStays.ite _ hs₂.put.report hs₂.putB.putPoison.report

theorem eccRead {a n} : FloorStays s (t.eccRead a n) := h.each (fun _ _ hv => hv.eccWord) _

theorem freshWord {w} : FloorStays s (t.freshWord w) := by
  unfold State.freshWord
  extract_lets s₁
  have hs₁ : FloorStays s s₁ := FloorStays.ite _ h.setFlip h
  exact FloorStays.ite _ hs₁.putPoison hs₁

theorem writeSram {a b} : FloorStays s (t.writeSram a b) := by
  unfold State.writeSram
  extract_lets w s₁
  have hs₁ : FloorStays s s₁ := h.eccRead
  exact FloorStays.ite _ h.report (FloorStays.ite _ (FloorStays.ite _ h.freshWord.wrMem (FloorStays.ite _ hs₁ hs₁.wrMem)) h)

theorem store {a b} : FloorStays s (t.store a b) :=
  FloorStays.ite _ (h.each (fun _ _ hv => hv.writeSram) _) (h.each (fun _ _ hv => hv.writeLine) _)

theorem addrWrite {f a b} : FloorStays s (t.addrWrite f a b).1 := by
  unfold State.addrWrite State.fnWrite
  split
  · split
    · exact h
    · split
      · exact h.same rfl
      · exact h.accReport (e := .host)
  · split
    · exact h.accReport
    · exact h.store

theorem traffic {k who a n} : FloorStays s (t.traffic k who a n) := h.trans (of_spent (Spent.traffic t k who a n))

theorem portRead {k who d a n} : FloorStays s (t.portRead k who d a n) := FloorStays.ite _ (h.traffic.trans ⟨_, _, rfl⟩) h

/-! ### The firmware log ring, receipts and interrupts -/

theorem ledgerPut {e} : FloorStays s (t.ledgerPut e) := by
  unfold State.ledgerPut
  extract_lets j a s₁
  have hs₁ : FloorStays s s₁ := FloorStays.ite _ h h.traffic
  split
  · next s' heq =>
    have hs' : FloorStays s s' := of_fst hs₁.addrWrite heq
    exact hs'.wrN
  · next s' _ heq =>
    have hs' : FloorStays s s' := of_fst hs₁.addrWrite heq
    exact hs'.clearNow.report

theorem ledger {e} : FloorStays s (t.ledger e) := by
  unfold State.ledger
  refine FloorStays.ite _ h (FloorStays.ite _ ?_ ?_)
  · extract_lets s'
    have hs' : FloorStays s s' := h.setLedgerRun.addSat
    exact FloorStays.ite _ hs'.report hs'
  · extract_lets s'
    have hs' : FloorStays s s' := FloorStays.ite _ h h.setLedgerRun.ledgerPut
    exact FloorStays.ite _ hs'.ledgerPut hs'

theorem endStamp {r f status} : FloorStays s (t.endStamp r f status) := FloorStays.ite _ h.ledger h

theorem signal {src i max? v} : FloorStays s (t.signal src i max? v) := by
  unfold State.signal
  refine FloorStays.ite _ ?_ h
  extract_lets c ops s₁ s₂
  have hs₂ : FloorStays s s₂ := h.wrMem.setRnd
  exact FloorStays.ite _ hs₂.put.report hs₂

theorem coreIrq {b n v} : FloorStays s (t.coreIrq b n v) := FloorStays.ite _ h.sendIrq h

theorem irqTo {f v n} : FloorStays s (t.irqTo f v n) :=
  FloorStays.ite _ (FloorStays.ite _ h h.sendIrq) (FloorStays.ite _ h.coreIrq (FloorStays.ite _ h.coreIrq h))

/-! ### The ring engine -/

theorem putRecord {r mk irq} : FloorStays s (t.putRecord r mk irq) := by
  unfold State.putRecord
  extract_lets j s₁ s₂
  have hs₂ : FloorStays s s₂ := h.addrWrite.traffic.wrN
  exact FloorStays.ite _ (FloorStays.ite _ hs₂.setRing.irqTo hs₂.setRing) hs₂

theorem flushFlights {r l} : FloorStays s (t.flushFlights r l) := by
  induction l generalizing t with
  | nil => exact h
  | cons f l ih =>
    rw [State.flushFlights]
    exact FloorStays.ite _ (FloorStays.ite _ (ih h.setRing) (FloorStays.ite _ (ih h.setRing.putRecord) h)) h

theorem flushUnsol {r l} : FloorStays s (t.flushUnsol r l) := by
  induction l generalizing t with
  | nil => exact h
  | cons u l ih =>
    rw [State.flushUnsol]
    exact FloorStays.ite _ (ih h.setRing.putRecord) h

theorem flush {r} : FloorStays s (t.flush r) := by
  unfold State.flush
  extract_lets s₁ s₂
  have hs₂ : FloorStays s s₂ := h.flushFlights.flushUnsol
  exact FloorStays.ite _ hs₂.putB hs₂

theorem stopped {r} : FloorStays s (t.stopped r) := h.put.putB.putB

theorem ringOff {r} : FloorStays s (t.ringOff r) := by
  unfold State.ringOff
  extract_lets s₁ s₂ s₃
  have hs₁ : FloorStays s s₁ := h.same rfl
  have hs₃ : FloorStays s s₃ := hs₁.put.putB.wrN.wrN.wrN.wrN
  exact hs₃.wrN.setRing

theorem ringSettle {r} : FloorStays s (t.ringSettle r) := by
  rcases t.ringSettle_cases r with heq | heq | heq <;> rw [heq]
  · exact h
  · exact h.stopped
  · exact h.stopped.ringOff

theorem ringStopping {r} : FloorStays s (t.ringStopping r) := by
  unfold State.ringStopping
  refine FloorStays.ite _ ?_ h
  extract_lets gone n x s₁ s₂ s₃
  have hs₂ : FloorStays s s₂ := h.setRing.each (fun _ _ hv => hv.endStamp) _
  exact hs₂.put.add64.flush.ringSettle

theorem complete {r seq status result} : FloorStays s (t.complete r seq status result) := by
  unfold State.complete
  extract_lets fails
  split
  · exact h
  · refine FloorStays.ite _ h ?_
    extract_lets s₁ s₂ s₃ s₄ s₅ s₆ s₇
    have hs₂ : FloorStays s s₂ := (FloorStays.ite _ h.signal h).endStamp
    have hs₄ : FloorStays s s₄ := hs₂.setRing.add64
    have hs₆ : FloorStays s s₆ := (FloorStays.ite _ hs₄.put hs₄).flush
    exact (FloorStays.ite _ hs₆.ringStopping hs₆).ringSettle

end FloorStays

end Sys2Proof.Machine
end

section
/-! SUPPORT. The traffic of what a RUN reads (Parcels §4): it changes the memory controller's account and the byte counters of the classes, and no other
register. -/

namespace Sys2Proof.Machine
open Reg

theorem Word.bits_lt (v : Word) (hi lo : Nat) : Word.bits v hi lo < 2 ^ (hi + 1 - lo) := Nat.mod_lt _ (Nat.two_pow_pos _)

theorem State.ringClass_lt (s : State) (r : Nat) : s.ringClass r < 4 := Word.bits_lt _ 9 8

/-- An offset at which no class counts its bytes. -/
def NotClassBytes (o : Nat) : Prop := ∀ k, k < 4 → o ≠ MEMCTL_CLASS_BYTES k

section
variable {o : Nat} (ho : NotClassBytes o)
include ho

theorem State.rd_memSpend (s : State) (pays units bytes : Nat) {k : Nat} (hk : k < 4) : (s.memSpend pays k units bytes).rd o = s.rd o :=
  State.rd_add64_other _ _ _ o (ho k hk)

theorem State.rd_serveMove (s : State) {m : MemMove} (hm : m.cls < 4) : (s.serveMove m).1.rd o = s.rd o := by
  unfold State.serveMove
  dsimp only
  split
  · exact s.rd_memSpend ho _ _ _ hm
  · split
    · exact s.rd_memSpend ho _ _ _ hm
    · split
      · rfl
      · exact s.rd_memSpend ho _ _ _ hm

theorem State.rd_serveClass {k : Nat} (hk : k < 4) (l : List MemMove) (s : State) : (s.serveClass k l).1.rd o = s.rd o := by
  induction l generalizing s with
  | nil => rfl
  | cons m l ih =>
    rw [State.serveClass]
    split
    · next hm => exact (ih _).trans (s.rd_serveMove ho (hm ▸ hk))
    · exact ih s

theorem State.rd_serveMoves (s : State) : s.serveMoves.rd o = s.rd o := by
  have hclass : ∀ k ∈ [0, 1, 2, 3], k < 4 := by decide
  exact List.foldlRecOn (motive := fun t : State => t.rd o = s.rd o) _ _ rfl fun t ht k hk => (t.rd_serveClass ho (hclass k hk) _).trans ht

theorem State.rd_traffic (s : State) (k : Nat) (who : Option (Nat × Nat)) (a n : Nat) : (s.traffic k who a n).rd o = s.rd o := by
  unfold State.traffic
  split
  · exact State.rd_serveMoves ho _
  · rfl

end

/-- `t` is what traffic has made of `s`. -/
structure Trafficked (s t : State) : Prop where
  spent : Spent s t
  rd : ∀ o, NotClassBytes o → t.rd o = s.rd o

namespace Trafficked
variable {s t : State}

theorem refl (s : State) : Trafficked s s := ⟨Spent.refl s, fun _ _ => rfl⟩

theorem ringTraffic (h : Trafficked s t) (r seq a n : Nat) : Trafficked s (t.ringTraffic r seq a n) :=
  ⟨h.spent.trans (Spent.traffic t _ _ a n), fun o ho => (t.rd_traffic ho _ _ a n).trans (h.rd o ho)⟩

theorem tableTraffic (h : Trafficked s t) (r seq a : Nat) (hdr : Bytes) : Trafficked s (t.tableTraffic r seq a hdr) :=
  List.foldlRecOn (motive := Trafficked s) _ _ (h.ringTraffic r seq a 128) fun _ hu _ _ => hu.ringTraffic r seq _ _

theorem imageTraffic (s : State) (r seq : Nat) (env hdr : Bytes) : Trafficked s (s.imageTraffic r seq env hdr) := by
  have htables := (refl s).tableTraffic r seq (Env.parcel env) hdr
  unfold State.imageTraffic
  dsimp only
  split
  · exact htables
  · exact htables.ringTraffic r seq _ _

variable (h : Trafficked s t)
include h

theorem aside : Aside s t := Aside.of_spent h.spent

theorem get (g : Fld) (hg : NotClassBytes g.reg) : t.get g = s.get g := by simp only [State.get, h.rd _ hg]

theorem floor : t.floor = s.floor := by obtain ⟨⟨⟨_, _, rfl⟩, _⟩, _⟩ := h; rfl
theorem preparing (d : Nat) : t.preparing d = s.preparing d := by obtain ⟨⟨⟨_, _, rfl⟩, _⟩, _⟩ := h; rfl

theorem fwRunning (p : Nat) : t.fwRunning p = s.fwRunning p := by
  have hreg : NotClassBytes (FIRMWARE_PROC_STATE p) := fun k hk => by
    unfold FIRMWARE_PROC_STATE MEMCTL_CLASS_BYTES
    omega
  simp only [State.fwRunning, h.get (FIRMWARE_PROC_STATE_STATE p) hreg]

theorem ringFn (r : Ring) : t.ringFn r = s.ringFn r := h.aside.get (RINGS_CFG_FUNCTION r) (inRings r rfl rfl)

theorem runSt (ring seq : Nat) : t.runSt ring seq = s.runSt ring seq := by simp only [State.runSt, h.floor]

theorem busyMask (k : ParcelKey) (mask : Nat) : t.busyMask k mask = s.busyMask k mask := by
  simp only [State.busyMask, State.isHeld, h.floor, h.get FLOOR_DEBUG_HOLD_DISTRICT (fun k _ => by
    show 0x10c008 ≠ 0x200200 + 0x8 * k
    omega)]

end Trafficked

end Sys2Proof.Machine
end

section
/-! SUPPORT. Allocations (Districts R217, Parcels R261, R264): what making one and freeing one change. -/

namespace Sys2Proof.Machine
open Reg

/-! ### The allocations of a district -/

theorem State.allocs_setAllocs (s : State) (d i : Nat) (l : List Alloc) : (s.setAllocs d l).allocs i = if i = d then l else s.allocs i :=
  SMap.get_set _ s.floor.allocs d i l

/-- `t` has the RUNs and the allocations of `s`. -/
structure AllocsStay (s t : State) : Prop where
  runs : t.floor.runs = s.floor.runs
  allocs : t.floor.allocs = s.floor.allocs

namespace AllocsStay
variable {s t u : State}

theorem refl (s : State) : AllocsStay s s := ⟨rfl, rfl⟩
theorem trans (h : AllocsStay s t) (k : AllocsStay t u) : AllocsStay s u := ⟨k.runs.trans h.runs, k.allocs.trans h.allocs⟩
theorem of_floorStays (h : FloorStays s t) : AllocsStay s t := ⟨h.runs, h.allocs⟩

theorem each {α : Type} {f : State → α → State} (hf : ∀ v x, AllocsStay v (f v x)) (l : List α) (s : State) : AllocsStay s (s.each l f) :=
  List.foldlRecOn l f (refl s) fun v hv x _ => hv.trans (hf v x)

theorem clearRecord (s : State) (d n : Nat) : AllocsStay s (s.clearRecord d n) := ⟨rfl, rfl⟩
theorem wrN (s : State) (o n : Nat) : AllocsStay s (s.wrN o n) := ⟨rfl, rfl⟩
theorem putB (s : State) (f : Fld) (b : Bool) : AllocsStay s (s.putB f b) := ⟨rfl, rfl⟩

theorem zeroAlloc (s : State) (d : Nat) (x : Alloc) : AllocsStay s (s.zeroAlloc d x) := by
  unfold State.zeroAlloc
  exact ⟨rfl, rfl⟩
theorem initWalk (s : State) (d : Nat) (e : Bytes) : AllocsStay s (s.initWalk d e) := (clearRecord s d _).trans (wrN _ _ _)

theorem loadPart (s : State) (r seq d src : Nat) (p : Nat × Bytes) : AllocsStay s (s.loadPart r seq d src p) := by
  have hread := FloorStays.refl s
  unfold State.loadPart
  dsimp only
  exact of_floorStays (FloorStays.ite _ hread.traffic hread.portRead).add64.store

theorem allocOf (h : AllocsStay s t) (d : Nat) (k : ParcelKey) : t.allocOf d k = s.allocOf d k := by
  simp only [State.allocOf, State.allocs, h.allocs]

end AllocsStay

/-! ### A new allocation (Districts R217) -/

/-- The allocation that a RUN makes carries its parcel's key. -/
theorem State.key_newAlloc {s : State} {d : Nat} {m : Image} {b : BodyLoad} {x : Alloc} (h : s.newAlloc d m b = some x) : x.key = hdrKey m.hdr := by
  unfold State.newAlloc at h
  dsimp only at h
  split at h
  · cases h
  · split at h
    · cases h
      rfl
    · cases h

/-- The district with the allocation added, before its counters, walk records and ranges are set. -/
theorem State.allocate_eq (s : State) (r seq src d : Nat) (m : Image) (b : BodyLoad) (body : Bytes) :
    s.allocate r seq src d m b body = s ∧ ((s.allocOf d (hdrKey m.hdr)).isSome = true ∨ s.newAlloc d m b = none) ∨
      ∃ x, s.newAlloc d m b = some x ∧ AllocsStay (s.setAllocs d (s.allocs d ++ [x])) (s.allocate r seq src d m b body) := by
  unfold State.allocate
  split
  · next h => exact .inl ⟨rfl, .inl h⟩
  · split
    · next h => exact .inl ⟨rfl, .inr h⟩
    · next x h =>
      refine .inr ⟨x, h, ?_⟩
      dsimp only
      exact ((AllocsStay.each (fun v _ => AllocsStay.wrN v _ _) _ _).trans (AllocsStay.each (fun v _ => AllocsStay.initWalk v d _) _ _)).trans
        (AllocsStay.each (fun v _ => AllocsStay.loadPart v r seq d _ _) _ _)

section
variable (s : State) (r seq src d : Nat) (m : Image) (b : BodyLoad) (body : Bytes)

theorem State.runs_allocate : (s.allocate r seq src d m b body).floor.runs = s.floor.runs := by
  rcases s.allocate_eq r seq src d m b body with ⟨heq, -⟩ | ⟨x, -, hx⟩
  · rw [heq]
  · exact hx.runs

theorem State.allocs_allocate_other {i : Nat} (hi : i ≠ d) : (s.allocate r seq src d m b body).allocs i = s.allocs i := by
  rcases s.allocate_eq r seq src d m b body with ⟨heq, -⟩ | ⟨x, -, hx⟩
  · rw [heq]
  · rw [State.allocs, hx.allocs, ← State.allocs, State.allocs_setAllocs, if_neg hi]

/-- A district that holds an allocation of the parcel, or has room for one, holds one afterwards. -/
theorem State.allocOf_allocate (h : s.allocOk d m b = true) : ((s.allocate r seq src d m b body).allocOf d (hdrKey m.hdr)).isSome = true := by
  rcases s.allocate_eq r seq src d m b body with ⟨heq, hsome | hnone⟩ | ⟨x, hx, hstay⟩
  · rw [heq, hsome]
  · rw [heq]
    simpa [State.allocOk, hnone] using h
  · rw [hstay.allocOf, State.allocOf, State.allocs_setAllocs, if_pos rfl]
    exact List.find?_isSome.mpr ⟨x, by simp, by simp [State.key_newAlloc hx]⟩

/-- Whether a district has room for the parcel depends on its own allocations alone. -/
theorem State.allocOk_congr {t : State} (h : t.allocs d = s.allocs d) : t.allocOk d m b = s.allocOk d m b := by
  simp only [State.allocOk, State.allocOf, State.newAlloc, h]

/-- Making an allocation takes no room from the other districts. -/
theorem State.allocOk_allocate {i : Nat} (h : s.allocOk i m b = true) : (s.allocate r seq src d m b body).allocOk i m b = true := by
  by_cases hi : i = d
  · subst hi
    simp only [State.allocOk, s.allocOf_allocate r seq src i m b body h, Bool.true_or]
  · rw [State.allocOk_congr s i m b (s.allocs_allocate_other r seq src d m b body hi), h]

/-- Making an allocation frees none of the parcel's. -/
theorem State.isSome_allocOf_allocate {i : Nat} (h : (s.allocOf i (hdrKey m.hdr)).isSome = true) :
    ((s.allocate r seq src d m b body).allocOf i (hdrKey m.hdr)).isSome = true := by
  by_cases hi : i = d
  · subst hi
    exact s.allocOf_allocate r seq src i m b body (by simp only [State.allocOk, h, Bool.true_or])
  · rwa [State.allocOf, s.allocs_allocate_other r seq src d m b body hi, ← State.allocOf]

end

/-- The allocations that a RUN makes on its districts, in order. -/
def State.allocateAll (s : State) (r seq src : Nat) (ds : List Nat) (m : Image) (b : BodyLoad) (body : Bytes) : State :=
  s.each ds fun s d => s.allocate r seq src d m b body

section
variable (r seq src : Nat) (m : Image) (b : BodyLoad) (body : Bytes)

theorem State.runs_allocateAll (ds : List Nat) (s : State) : (s.allocateAll r seq src ds m b body).floor.runs = s.floor.runs :=
  List.foldlRecOn (motive := fun t : State => t.floor.runs = s.floor.runs) ds _ rfl fun t ht d _ => (t.runs_allocate r seq src d m b body).trans ht

/-- Where each district of a list has room, each holds an allocation of the parcel in the end. -/
theorem State.allocOf_allocateAll (ds : List Nat) (s : State) (h : ∀ d ∈ ds, s.allocOk d m b = true) :
    ∀ d ∈ ds, ((s.allocateAll r seq src ds m b body).allocOf d (hdrKey m.hdr)).isSome = true := by
  induction ds generalizing s with
  | nil => simp
  | cons x ds ih =>
    intro d hd
    rcases List.mem_cons.mp hd with rfl | hd
    · have hfirst := s.allocOf_allocate r seq src d m b body (h d hd)
      exact List.foldlRecOn (motive := fun t : State => (t.allocOf d (hdrKey m.hdr)).isSome = true) ds _ hfirst
        fun t ht i _ => t.isSome_allocOf_allocate r seq src i m b body ht
    · exact ih _ (fun i hi => s.allocOk_allocate r seq src x m b body (h i (List.mem_cons_of_mem x hi))) d hd

end

/-! ### What allocations leave of the rings -/

namespace Aside
variable {s t : State} (h : Aside s t)
include h

theorem setAllocs {d l} : Aside s (t.setAllocs d l) := ((h.setFloor.putB (outside_add rfl)).put (outside_add rfl)).put (outside_add rfl)

theorem meshMove {k who src dst n} (hk : k < 4) : Aside s (t.meshMove k who src dst n) :=
  (h.add64 (.inl (by show 0x410 + 0x8 * k < 0x30000; omega))).setFloor

theorem loadPart {r seq d src p} : Aside s (t.loadPart r seq d src p) := by
  unfold State.loadPart
  extract_lets k s₁
  have hs₁ : Aside s s₁ := Aside.ite _ h.traffic (Aside.ite _ (h.traffic.meshMove (t.ringClass_lt r)) h)
  exact (hs₁.add64 (outside_add rfl)).store

theorem walkReg {d n v} : Aside s (t.wrN (FLOOR_WALK d n) v) := h.wrN (by rw [FLOOR_WALK, Nat.add_assoc]; exact outside_add rfl)

theorem clearRecord {d n} : Aside s (t.clearRecord d n) := by
  unfold State.clearRecord
  extract_lets clear
  exact h.setFloor

theorem initWalk {d e} : Aside s (t.initWalk d e) := h.clearRecord.walkReg

theorem allocate {r seq src d m b body} : Aside s (t.allocate r seq src d m b body) := by
  have hcount : ∀ {v : State} {i : Nat}, Aside s v → Aside s (v.wrN (FLOOR_ARRIVE_CNT d i) 0) := fun hv =>
    hv.wrN (by rw [FLOOR_ARRIVE_CNT, Nat.add_assoc]; exact outside_add rfl)
  unfold State.allocate
  refine Aside.ite _ h ?_
  split
  · exact h
  · exact ((h.setAllocs.each (fun _ _ hv => hcount hv) _).each (fun _ _ hv => hv.initWalk) _).each (fun _ _ hv => hv.loadPart) _

theorem freeAlloc {d k} : Aside s (t.freeAlloc d k) := by
  unfold State.freeAlloc
  split
  · exact h
  · next x hx =>
    extract_lets s₁ s₂
    have hs₁ : Aside s s₁ := h.keepMem.putPoison.setFloor.setAllocs
    have hs₂ : Aside s s₂ := hs₁.each (fun _ _ hv => hv.walkReg.clearRecord) _
    exact Aside.ite _ (hs₂.putB (outside_add rfl)) hs₂

end Aside

/-! ### Freeing an allocation (Parcels R264) -/

section
variable (s : State) (d : Nat) (k : ParcelKey)

/-- Freeing takes the allocations of the key off the district, and leaves the RUNs and every other allocation. -/
theorem State.freeAlloc_eq : s.freeAlloc d k = s ∧ s.allocOf d k = none ∨
    ∃ u, AllocsStay s u ∧ AllocsStay (u.setAllocs d ((u.allocs d).filter fun a => a.key != k)) (s.freeAlloc d k) := by
  unfold State.freeAlloc
  split
  · next h => exact .inl ⟨rfl, h⟩
  · next x h =>
    refine .inr ⟨s.zeroAlloc d x, AllocsStay.zeroAlloc s d x, ?_⟩
    extract_lets s₁ s₂
    have hrecords : AllocsStay s₁ s₂ := AllocsStay.each (fun v n => (AllocsStay.wrN v _ 0).trans (AllocsStay.clearRecord _ d n)) _ _
    split
    · exact hrecords.trans (AllocsStay.putB _ _ _)
    · exact hrecords

theorem State.allocOf_freeAlloc_same : (s.freeAlloc d k).allocOf d k = none := by
  rcases s.freeAlloc_eq d k with ⟨heq, hnone⟩ | ⟨u, -, hu⟩
  · rw [heq, hnone]
  · rw [hu.allocOf, State.allocOf, State.allocs_setAllocs, if_pos rfl]
    exact List.find?_eq_none.mpr fun x hx => by simpa using (List.mem_filter.mp hx).2

theorem State.allocOf_freeAlloc_none {i : Nat} (h : s.allocOf i k = none) : (s.freeAlloc d k).allocOf i k = none := by
  rcases s.freeAlloc_eq d k with ⟨heq, -⟩ | ⟨u, hsu, hu⟩
  · rw [heq, h]
  · by_cases hi : i = d
    · rw [hi, s.allocOf_freeAlloc_same d k]
    · rw [hu.allocOf, State.allocOf, State.allocs_setAllocs, if_neg hi, ← State.allocOf, hsu.allocOf, h]

/-- The allocations of a key freed on every district of a list that holds one. -/
def State.freeAll (s : State) (ds : List Nat) (k : ParcelKey) : State := s.each (ds.filter fun i => (s.allocOf i k).isSome) fun s i => s.freeAlloc i k

theorem Aside.freeAll {s t : State} (h : Aside s t) {ds k} : Aside s (t.freeAll ds k) := h.each (fun _ _ hv => hv.freeAlloc) _

theorem State.allocOf_freeAll {ds : List Nat} (hd : d ∈ ds) : (s.freeAll ds k).allocOf d k = none := by
  by_cases hsome : (s.allocOf d k).isSome = true
  · exact foldl_of_mem (P := fun t : State => t.allocOf d k = none) (List.mem_filter.mpr ⟨hd, hsome⟩) (fun t => t.allocOf_freeAlloc_same d k)
      (fun t i ht => t.allocOf_freeAlloc_none i k ht) s
  · exact List.foldlRecOn (motive := fun t : State => t.allocOf d k = none) _ _ (by simpa using hsome) fun t ht i _ => t.allocOf_freeAlloc_none i k ht

end

end Sys2Proof.Machine
end

section
/-! SUPPORT. The checks of a RUN and of a release from their outcomes (Districts Table 6.5, Parcels Table 8.5). -/

namespace Sys2Proof.Machine
open Reg

/-! ### A RUN that begins -/

section
variable (s : State) (x : RunSt) (mark : Nat) (hb : (brkTest (s.ring x.ring).brk mark).1 = false)
include hb

/-- A RUN that fires no break begins behind the others. -/
theorem State.floor_beginRun : (s.beginRun x mark).floor = { s.floor with runs := s.floor.runs ++ [x] } := by
  unfold State.beginRun
  dsimp only
  rw [hb]
  rfl

theorem State.allocOf_beginRun (d : Nat) (k : ParcelKey) : (s.beginRun x mark).allocOf d k = s.allocOf d k := by
  simp only [State.allocOf, State.allocs, s.floor_beginRun x mark hb]

theorem State.runSt_beginRun (hnone : s.runSt x.ring x.seq = none) : (s.beginRun x mark).runSt x.ring x.seq = some x := by
  rw [State.runSt] at hnone
  rw [State.runSt, s.floor_beginRun x mark hb]
  simp [List.find?_append, hnone]

end

theorem Aside.allocateAll {s t : State} (h : Aside s t) {r seq src ds m b body} : Aside s (t.allocateAll r seq src ds m b body) :=
  h.each (fun _ _ hv => hv.allocate) _

/-- The RUN that an envelope begins once its checks have passed. -/
def newRun (s : State) (r seq : Nat) (env : Bytes) (m : Image) (g : Binds) (body : Bytes) : RunSt :=
  { runOf s r seq (Env.districts env) (Env.entry env) (Env.stepLimit env) m g with keySlot := loadSlot m body }

theorem dists_newRun (s : State) (r seq : Nat) (env : Bytes) (m : Image) (g : Binds) (body : Bytes) :
    (newRun s r seq env m g body).dists.map DRun.d = districtsOf (Env.districts env) := by
  simp [newRun, runOf, Function.comp_def]

/-- The state in which a RUN that has passed its checks has begun: its allocations made, and then the RUN. -/
def State.begun (s : State) (r seq : Nat) (env : Bytes) (b : BodyLoad) (m : Image) (g : Binds) (body : Bytes) : State :=
  (s.allocateAll r seq (Env.parcel env + hdrF m.hdr 0x18 4) (districtsOf (Env.districts env)) m b body).beginRun (newRun s r seq env m g body) (Env.postmark env)

section
variable (s : State) (r seq : Nat) (env : Bytes) (b : BodyLoad) (m : Image) (g : Binds) (body : Bytes)
  (hbreak : (brkTest (s.ring r).brk (Env.postmark env)).1 = false)
include hbreak

theorem State.runSt_begun (hnone : s.runSt r seq = none) : (s.begun r seq env b m g body).runSt r seq = some (newRun s r seq env m g body) := by
  refine State.runSt_beginRun _ (newRun s r seq env m g body) _ ?_ ?_
  · rwa [(Aside.refl s).allocateAll.ring]
  · rwa [State.runSt, State.runs_allocateAll, ← State.runSt]

theorem State.allocOf_begun (hroom : ∀ d ∈ districtsOf (Env.districts env), s.allocOk d m b = true) :
    ∀ d ∈ districtsOf (Env.districts env), ((s.begun r seq env b m g body).allocOf d (hdrKey m.hdr)).isSome = true := by
  intro d hd
  rw [State.begun, State.allocOf_beginRun]
  · exact s.allocOf_allocateAll r seq _ m b body _ hroom d hd
  · rwa [(Aside.refl s).allocateAll.ring]

end

/-! ### The checks of a RUN that has not waited -/

section
variable (s : State) (r seq : Nat) (env : Bytes) (b : BodyLoad) (m : Image) (g : Binds)

theorem State.runGo_first (hw : s.floor.waiting.find? (fun w => w.ring == r && w.seq == seq) = none)
    (hm : s.readImage (s.ringFn r) (Env.parcel env) = .ok m) (hg : s.argCheck (s.ringFn r) m env (s.get (RINGS_CFG_CLASS r) == 0) = .ok g) :
    s.runGo r seq env b = (s.imageTraffic r seq env m.hdr).runRoom r seq env b m g := by
  rw [State.runGo, hw]
  dsimp only
  rw [State.runEnvelope, hm]
  dsimp only
  rw [hg]

variable (hw : s.floor.waiting.find? (fun w => w.ring == r && w.seq == seq) = none)
include hw

/-- Nothing of a RUN that has not waited is taken from the RUNs that wait. -/
theorem State.filter_waiting : s.floor.waiting.filter (fun w => !(w.ring == r && w.seq == seq)) = s.floor.waiting :=
  List.filter_eq_self.mpr fun w hmem => by simpa [imp_iff_not_or] using List.find?_eq_none.mp hw w hmem

theorem State.setFloor_filter_waiting : s.setFloor (fun x => { x with waiting := x.waiting.filter fun w => !(w.ring == r && w.seq == seq) }) = s := by
  rw [State.setFloor, s.filter_waiting r seq hw]

/-- A RUN that check 5 refuses ends, but where its districts' power or firmware may yet come. -/
theorem State.runRoom_misplaced {x : Nat × Nat} (hx : s.placeCheck r m.hdr (Env.districts env) = some x) (hcode : x.1 ≠ 0x8102) :
    s.runRoom r seq env b m g = s.complete r seq x.1 x.2 := by
  unfold State.runRoom
  extract_lets f mask wait go
  rw [hx]
  dsimp only
  rw [if_neg (by simp [hcode]), show go = s from s.setFloor_filter_waiting r seq hw]

/-- A RUN that finds the floor firmware stopped waits. -/
theorem State.runRoom_stopped (hplace : s.placeCheck r m.hdr (Env.districts env) = none) (hfw : s.fwRunning 0 = false) :
    s.runRoom r seq env b m g = s.setFloor fun x => { x with waiting := s.floor.waiting ++ [⟨r, seq, m, g⟩] } := by
  unfold State.runRoom
  extract_lets f mask wait go
  rw [hplace]
  dsimp only
  rw [if_pos (by simp [hfw])]
  show s.setFloor _ = _
  rw [State.setFloor, s.filter_waiting r seq hw, State.setFloor]

/-- A RUN that passes its checks has its allocations made and begins. -/
theorem State.runRoom_begins {body : Bytes} (hplace : s.placeCheck r m.hdr (Env.districts env) = none)
    (hready : ∀ d ∈ districtsOf (Env.districts env), s.fwRunning (3 + d) = true ∧ s.preparing d = false) (hfw : s.fwRunning 0 = true)
    (hroom : s.roomCheck r (Env.districts env) m (Env.entry env) b = none) (hfree : s.runWaits m (Env.districts env) = false)
    (hbody : s.bodyCheck (s.ringFn r) (Env.parcel env) (Env.districts env) m b = .ok body) :
    s.runRoom r seq env b m g = s.begun r seq env b m g body := by
  have hdistricts : (districtsOf (Env.districts env)).any (fun d => !s.fwRunning (3 + d) || s.preparing d) = false :=
    List.any_eq_false.mpr fun d hd => by simp [hready d hd]
  unfold State.runRoom
  extract_lets f mask wait go
  have hgo : go = s := s.setFloor_filter_waiting r seq hw
  rw [hplace]
  dsimp only
  rw [if_neg (by simp [mask, hdistricts, hfw]), hroom]
  dsimp only
  rw [if_neg (by simp [mask, hfree]), hgo, hbody]
  rfl

end

/-- A RUN that passes check 5 has room on each of its districts. -/
theorem State.allocOk_of_roomCheck (s : State) (r mask : Nat) (m : Image) (e : Nat) (b : BodyLoad) (h : s.roomCheck r mask m e b = none) :
    ∀ d ∈ districtsOf mask, s.allocOk d m b = true := by
  unfold State.roomCheck at h
  dsimp only at h
  split at h
  · cases h
  · next hall => simpa using hall

/-! ### The envelopes -/

section
variable (s : State) (r : Ring) {f : Flight} (hf : s.flight r f.seq = some f) (hst : f.stage = .started) (hk : Env.kind f.env = 1)
include hf hst

/-- An envelope that ends with a status of failure sets LAST_FAIL to it. -/
theorem Aside.lastFail_complete {t : State} (h : Aside s t) (status result : Nat) (hfail : status ≠ 0) (hcancel : status ≠ 9) (hsize : status < 2 ^ 16) :
    (t.complete r f.seq status result).get (RINGS_STATUS_LAST_FAIL r) = status := by
  rw [(t.complete_fails r f.seq status result ((h.flight r f.seq).trans hf) (by rw [hst]; decide) hfail hcancel).2, Nat.mod_eq_of_lt hsize]

include hk

theorem exec_run_goes (b : BodyLoad) (he : Env.entry f.env ≠ 0xFFFF) (hnone : s.runSt r f.seq = none) :
    exec (.run r f.seq b) s = .next (s.runGo r f.seq f.env b) := by
  show execRun r f.seq b s = _
  rw [execRun, ← hk, s.startedOf_of_flight r f.seq hf hst]
  dsimp only
  rw [if_neg (by simp [he, hnone])]

theorem exec_runRelease_goes (he : Env.entry f.env = 0xFFFF) : exec (.runRelease r f.seq) s = .next (s.releaseEnvelope r f.seq f.env) := by
  show execRunRelease r f.seq s = _
  rw [execRunRelease, ← hk, s.startedOf_of_flight r f.seq hf hst]
  dsimp only
  rw [if_pos he]

end

/-! ### A release -/

section
variable (s : State) (r seq : Nat) (env : Bytes) {m : Image} (hm : s.readImage (s.ringFn r) (Env.parcel env) = .ok m)
  (hplace : (s.imageTraffic r seq env m.hdr).placeCheck r m.hdr (Env.districts env) = none) (hfw : (s.imageTraffic r seq env m.hdr).fwRunning 0 = true)
include hm hplace hfw

theorem State.releaseEnvelope_busy (hbusy : (s.imageTraffic r seq env m.hdr).busyMask (hdrKey m.hdr) (Env.districts env) ≠ 0) :
    ∃ result, s.releaseEnvelope r seq env = (s.imageTraffic r seq env m.hdr).complete r seq 0x810D result := by
  refine ⟨(s.imageTraffic r seq env m.hdr).busyMask (hdrKey m.hdr) (Env.districts env), ?_⟩
  rw [State.releaseEnvelope, hm]
  dsimp only
  rw [hplace]
  dsimp only
  rw [if_neg (by simp [hfw]), if_pos (by simpa using hbusy)]

theorem State.releaseEnvelope_frees (hidle : (s.imageTraffic r seq env m.hdr).busyMask (hdrKey m.hdr) (Env.districts env) = 0) :
    ∃ result, s.releaseEnvelope r seq env =
      ((s.imageTraffic r seq env m.hdr).freeAll (districtsOf (Env.districts env)) (hdrKey m.hdr)).complete r seq 0 result := by
  rw [State.releaseEnvelope, hm]
  dsimp only
  rw [hplace]
  dsimp only
  rw [if_neg (by simp [hfw]), if_neg (by simp [hidle])]
  exact ⟨_, rfl⟩

end

end Sys2Proof.Machine
end

section
/-! SUPPORT. RUNs begin and releases free (Districts R215 to R217, Parcels R260, R261, R264). -/

namespace Sys2Proof.Machine
open Reg

/-- Settles O29: traffic leaves the floor as it is, each check is taken in its order, and an allocation made on one district takes no room from another. -/
theorem runsBeginAndReleasesFree : Obligations.RunsBeginAndReleasesFree := by
  unfold Obligations.RunsBeginAndReleasesFree
  intro r f b m s hf hst hk hm
  extract_lets mask p
  have hp : Trafficked s p := .imageTraffic s r f.seq f.env m.hdr
  refine ⟨fun hentry hnone hwait g hg => ?_, fun hentry hplace hfw => ?_⟩
  · have hwaitp : p.floor.waiting.find? (fun w => w.ring == r.val && w.seq == f.seq) = none := by rw [hp.floor, hwait]
    have hexec : exec (.run r f.seq b) s = .next (p.runRoom r f.seq f.env b m g) := by
      rw [exec_run_goes s r hf hst hk b hentry hnone, s.runGo_first r f.seq f.env b m g hwait hm hg]
    refine ⟨fun body hplace hdistricts hfw hroom hfree hbody hbreak => ?_, fun hplace => ?_, fun hplace hfw => ?_⟩
    · have hbegins := p.runRoom_begins r f.seq f.env b m g hwaitp hplace (fun d hd => by rw [hp.fwRunning, hp.preparing]; exact hdistricts d hd)
        (by rw [hp.fwRunning, hfw]) hroom hfree (by rw [hp.ringFn, hbody])
      have hbreakp : (brkTest (p.ring r).brk (Env.postmark f.env)).1 = false := by rwa [hp.aside.ring]
      have hrun := p.runSt_begun r f.seq f.env b m g body hbreakp (by rwa [hp.runSt])
      have hallocs := p.allocOf_begun r f.seq f.env b m g body hbreakp (p.allocOk_of_roomCheck r mask m _ b hroom)
      exact ⟨_, hexec.trans (congrArg _ hbegins), ⟨_, hrun, rfl, dists_newRun p r f.seq f.env m g body, rfl⟩,
        fun d hd => Option.isSome_iff_exists.mp (hallocs d hd)⟩
    · have hstays : FloorStays s (p.complete r f.seq 6 0) := (FloorStays.of_spent hp.spent).complete
      exact ⟨_, hexec.trans (congrArg _ (p.runRoom_misplaced r f.seq f.env b m g hwaitp hplace (by decide))), hstays.runs, hstays.allocs, hstays.units, hstays.clerks,
        hp.aside.lastFail_complete s r hf hst 6 0 (by decide) (by decide) (by decide)⟩
    · have hwaits := p.runRoom_stopped r f.seq f.env b m g hwaitp hplace (by rw [hp.fwRunning, hfw])
      rw [State.setFloor, hp.floor] at hwaits
      exact ⟨_, hexec.trans (congrArg _ hwaits), rfl, rfl, rfl, hp.aside.rings, hp.spent.mem⟩
  · have hexec := exec_runRelease_goes s r hf hst hk hentry
    have hfwp : p.fwRunning 0 = true := by rw [hp.fwRunning, hfw]
    refine ⟨fun hidle => ?_, fun hbusy => ?_⟩
    · obtain ⟨result, hfrees⟩ := s.releaseEnvelope_frees r f.seq f.env hm hplace hfwp (by rw [hp.busyMask, hidle])
      exact ⟨_, hexec.trans (congrArg _ hfrees), fun d hd => ((FloorStays.refl _).complete.allocOf d _).trans (p.allocOf_freeAll d _ hd),
        Aside.done_complete s r hf hst hp.aside.freeAll result⟩
    · obtain ⟨result, hends⟩ := s.releaseEnvelope_busy r f.seq f.env hm hplace hfwp (by rwa [hp.busyMask])
      have hstays : FloorStays s (p.complete r f.seq 0x810D result) := (FloorStays.of_spent hp.spent).complete
      exact ⟨_, hexec.trans (congrArg _ hends), hstays.runs, hstays.allocs, hstays.clerks,
        hp.aside.lastFail_complete s r hf hst 0x810D result (by decide) (by decide) (by decide)⟩

end Sys2Proof.Machine
end

section
/-! SUPPORT. The walk boundary at the end of a RUN on a district beyond the sixteen. The registers of a district are found by its number, and from district 640
on what the end of such a RUN clears as WAIT_ARRIVE of its district's DIST_STATE is bit 2 of K of a walk record. The state bounds no district number of a RUN;
no RUN that a command begins is on such a district (`districtsOf` gives numbers below 16). -/

namespace Sys2Proof.Machine
open Reg

/-- The district number whose DIST_STATE would lie at walk record 0 of district 0. -/
def strayWalk : Nat := (FLOOR_WALK 0 0 - FLOOR_DIST_STATE 0) / 0x40

/-- A RUN of ring 5 on the stray district, which has failed with the status of an overrun stop and awaits the end of its last unit. -/
def failedStray : RunSt := { strayRun [strayWalk] with fail := some (0x0B, 0) }

/-- Its parcel's allocation on district 0 holds walk record 0. -/
def walkAlloc : Alloc :=
  { key := failedStray.key, storeBase := 0, storeUnits := 0, scBase := 0, scUnits := 0, arrive := 0, records := [0], sealed := false, outputs := [] }

/-- Its last unit, on district 0, ends a walk step of record 0 and awaits no event tile. -/
def walkStrayUnit : DUnit := { ring := 5, seq := 0, desc := 0, clerks := 0, prog := { desc := 0, walks := [⟨0, []⟩] } }

/-- The unit runs, and the record is valid and walked, with k = 4 and CLEAN 0. -/
def walkStray : State := (State.reset.setFloor fun f =>
  { f with runs := [failedStray], units := [(0, some walkStrayUnit)], allocs := [(0, [walkAlloc])] }).wrN (FLOOR_WALK 0 0) (2 ^ 31 + 4)

/-- Refutes O31: nothing has written the record, so that its boundary leaves k at 4, and the end of the RUN then makes it 0, as it clears the bit WAIT_ARRIVE of
its district's DIST_STATE. -/
theorem not_scaleWalkMovesByItsRule : ¬ Obligations.ScaleWalkMovesByItsRule := by
  intro h
  obtain ⟨hboundary, -, -⟩ := h 0 0 walkStray (by decide +kernel)
  obtain ⟨-, hwalks, -⟩ := hboundary walkStrayUnit failedStray walkAlloc [] 0 _ rfl (by decide +kernel) rfl rfl rfl rfl rfl
  obtain ⟨-, -, -, hunwritten⟩ := hwalks (by decide +kernel) rfl
  obtain ⟨v, hv, -, hk, -⟩ := hunwritten (by decide +kernel)
  obtain rfl := Host.Outcome.next.inj hv
  exact absurd hk (by decide +kernel)

end Sys2Proof.Machine
end

section
/-! SUPPORT. The break armed on a ring (Parcels R276): what the ring engine writes as an envelope completes leaves it armed. -/

namespace Sys2Proof.Machine
open Reg

/-! ### Records leave the break -/

/-- `t` has the break of ring `r` as `s` has it. -/
def BrkStays (r : Nat) (s t : State) : Prop := (t.ring r).brk = (s.ring r).brk

namespace BrkStays
variable {r : Nat} {s t u : State}

theorem refl (s : State) : BrkStays r s s := rfl
theorem trans (h : BrkStays r s t) (k : BrkStays r t u) : BrkStays r s u := Eq.trans k h
theorem of_aside (h : Aside s t) : BrkStays r s t := congrArg RingDyn.brk (h.ring r)

theorem setRing {d : RingDyn} (h : d.brk = (s.ring r).brk) : BrkStays r s (s.setRing r d) := by
  rw [BrkStays, State.ring_setRing_same, h]

theorem wrN (h : BrkStays r s t) {o n : Nat} : BrkStays r s (t.wrN o n) := h
theorem putB (h : BrkStays r s t) {f : Fld} {b : Bool} : BrkStays r s (t.putB f b) := h

theorem countIrq (s : State) : BrkStays r s (s.countIrq r) := by
  unfold State.countIrq
  extract_lets d n
  have hdyn : ∀ p q, BrkStays r s (s.setRing r { d with irqPend := p, irqSince := q }) := fun p q => setRing rfl
  split
  · exact (hdyn 0 none).trans (of_aside (Aside.refl _).irqTo)
  · exact hdyn n _

theorem putRecord (s : State) (mk : Nat → Bytes) (irq : Bool) : BrkStays r s (s.putRecord r mk irq) := by
  unfold State.putRecord
  extract_lets j s₁ s₂
  have hs₂ : BrkStays r s s₂ := (of_aside (Aside.refl s).addrWrite.traffic).wrN
  split
  · exact hs₂.trans (countIrq s₂)
  · exact hs₂

theorem flushFlights (l : List Flight) (s : State) : BrkStays r s (s.flushFlights r l) := by
  induction l generalizing s with
  | nil => exact refl s
  | cons f l ih =>
    have hoff : BrkStays r s (s.setRing r { s.ring r with flights := l }) := setRing rfl
    rw [State.flushFlights]
    split_ifs
    · exact hoff.trans (ih _)
    · exact (hoff.trans (putRecord _ _ _)).trans (ih _)
    · exact refl s
    · exact refl s

theorem flushUnsol (l : List Unsol) (s : State) : BrkStays r s (s.flushUnsol r l) := by
  induction l generalizing s with
  | nil => exact refl s
  | cons u l ih =>
    have hoff : BrkStays r s (s.setRing r { s.ring r with unsol := l }) := setRing rfl
    rw [State.flushUnsol]
    split
    · exact (hoff.trans (putRecord _ _ _)).trans (ih _)
    · exact refl s

theorem flush (s : State) : BrkStays r s (s.flush r) := by
  unfold State.flush
  extract_lets s₁ s₂
  have hs₂ : BrkStays r s s₂ := (flushFlights _ s).trans (flushUnsol _ s₁)
  split
  · exact hs₂.putB
  · exact hs₂

end BrkStays

/-! ### Completion on a RUNNING ring -/

/-- The completion with OK of an envelope of a RUNNING ring leaves the ring's break. -/
theorem State.brkStays_complete (s : State) (r : Ring) (seq result : Nat) {f : Flight} (hf : s.flight r seq = some f) (hd : f.stage ≠ .done)
    (hrun : s.ringState r = 1) : BrkStays r s (s.complete r seq 0 result) := by
  obtain ⟨u, g, hu, heq⟩ := s.complete_eq r seq 0 result hf hd (.inl rfl)
  have hadd : ((u.setFlight r seq g).add64 (RINGS_DONE_COUNT r) 1).ringState r = u.ringState r := State.ringState_wrN_other _ _ _ _ (ringReg_ne rfl)
  rw [heq, State.ringSettle_of_not_stopping _ _ (by rw [State.ringState_flush, hadd, hu.ringState, hrun]; decide)]
  have hset : BrkStays r u (u.setFlight r seq g) := BrkStays.setRing rfl
  exact ((BrkStays.of_aside hu).trans hset).wrN.trans (BrkStays.flush _)

/-- The break that is armed or removed as an envelope of a RUNNING ring completes is in place when it has completed, and the envelope is counted. -/
theorem State.complete_setBrk (s : State) (r : Ring) (b : Option Brk) {f : Flight} (hf : s.flight r f.seq = some f) (hd : f.stage ≠ .done)
    (hrun : s.ringState r = 1) : (((s.setBrk r b).complete r f.seq 0 0).ring r).brk = b ∧
      ((s.setBrk r b).complete r f.seq 0 0).rdN (RINGS_DONE_COUNT r) = min (s.rdN (RINGS_DONE_COUNT r) + 1) (2 ^ 64 - 1) := by
  have hring : (s.setBrk r b).ring r = { s.ring r with brk := b } := State.ring_setRing_same _ _ _
  have hflight : (s.setBrk r b).flight r f.seq = some f := by rw [State.flight, hring]; exact hf
  have hstays : BrkStays r (s.setBrk r b) _ := (s.setBrk r b).brkStays_complete r f.seq 0 hflight hd hrun
  exact ⟨Eq.trans hstays (by rw [hring]), (s.setBrk r b).done_complete r f.seq 0 0 hflight hd (.inl rfl)⟩

end Sys2Proof.Machine
end

section
/-! SUPPORT. POSTMARK, the writes of DEBUG_RELEASE and DBG_SEL, and the end of a hold (Parcels §6). -/

namespace Sys2Proof.Machine
open Reg

/-! ### POSTMARK (Parcels R275, R276, R278) -/

section
variable (s : State) (r : Ring) {f : Flight} (action : Nat) (act : State → Bytes → State) (hf : s.flight r f.seq = some f) (hst : f.stage = .started)
  (hk : Env.kind f.env = 8) (ha : fieldLE f.env 0x18 4 = action)
include hf hst hk ha

/-- A started POSTMARK of its action acts and completes, where it does not arm a break or its ring is no express ring. -/
theorem State.postmark_acts (hc : action = 1 ∨ action = 2 → s.get (RINGS_CFG_CLASS r) ≠ 0) :
    s.postmark r f.seq action act = (act s f.env).complete r f.seq 0 0 := by
  have hallowed : ((decide (action = 1) || decide (action = 2)) && s.get (RINGS_CFG_CLASS r) == 0) = false := by
    by_cases h : action = 1 ∨ action = 2
    · simp [hc h]
    · simp [not_or.mp h]
  rw [State.postmark, ← hk, s.startedOf_of_flight r f.seq hf hst]
  dsimp only
  rw [if_neg (by simp [ha]), if_neg (by rw [hallowed]; decide)]

/-- Arming a break is denied on an express ring. -/
theorem State.postmark_denied (harm : action = 1 ∨ action = 2) (hc : s.get (RINGS_CFG_CLASS r) = 0) :
    s.postmark r f.seq action act = s.complete r f.seq 0x8801 0 := by
  rw [State.postmark, ← hk, s.startedOf_of_flight r f.seq hf hst]
  dsimp only
  rw [if_neg (by simp [ha]), if_pos (by simp [harm, hc])]

end

theorem Aside.stamp {s t : State} (h : Aside s t) {id a0 a1 a2} : Aside s (t.stamp id a0 a1 a2) := h.ledger

/-! ### Bits and fields of numbers -/

theorem nbit_eq_testBit (v i : Nat) : nbit v i = v.testBit i := by
  rw [nbit, Nat.testBit_eq_decide_div_mod_eq, beq_eq_decide]

theorem nbit_or16 (a b i : Nat) (hi : i < 16) : nbit (BitVec.ofNat 16 a ||| BitVec.ofNat 16 b).toNat i = (nbit a i || nbit b i) := by
  simp only [nbit_eq_testBit, BitVec.testBit_toNat, BitVec.getLsbD_or, BitVec.getLsbD_ofNat, hi, decide_true, Bool.true_and]

theorem andNat_le (v m : Nat) (hm : m < 2 ^ 64) : andNat v m ≤ m := by
  rw [andNat, BitVec.toNat_and, BitVec.toNat_ofNat, BitVec.toNat_ofNat, Nat.mod_eq_of_lt hm]
  exact Nat.and_le_right

/-- A field that lies under the mask is kept. -/
theorem nbits_andNat (m v hi lo : Nat) (hh : hi < 64) (hm : ∀ i, lo ≤ i → i ≤ hi → m.testBit i = true) : nbits (andNat v m) hi lo = nbits v hi lo := by
  have hmerge : andNat v m = mergeNat 0 m v := by simp [andNat, mergeNat]
  rw [hmerge, nbits_mergeNat 0 m v hi lo hh hm]

/-! ### The debug registers (Parcels R282, R283) -/

/-- The debug registers of the floor lie in SPINE, and in no district's domain. -/
theorem State.regDown_debug (s : State) (hs : s.spineUp = true) : s.regDown FLOOR_DEBUG_RELEASE = false ∧ s.regDown FLOOR_DBG_SEL = false := by
  have hrel : regDomain FLOOR_DEBUG_RELEASE = none := by decide +kernel
  have hsel : regDomain FLOOR_DBG_SEL = none := by decide +kernel
  constructor
  · rw [State.regDown, hrel, hs]; rfl
  · rw [State.regDown, hsel, hs]; rfl

/-- What DBG_SEL holds after a write of `v`: the fields of the selection, and VALID as it was. -/
def selWord (v : Nat) (valid : Bool) : Nat := andNat v 0x0FFF07FF + (if valid then 2 ^ 31 else 0)

/-- The fields of a DBG_SEL read as they were written, and VALID as it was. -/
theorem State.get_selWord (s : State) (v : Nat) (valid : Bool) : let t := s.wrN FLOOR_DBG_SEL (selWord v valid)
    t.get FLOOR_DBG_SEL_DISTRICT = nbits v 27 24 ∧ t.get FLOOR_DBG_SEL_CLERK = nbits v 23 16 ∧ t.get FLOOR_DBG_SEL_RESOURCE = nbits v 10 8 ∧
      t.get FLOOR_DBG_SEL_INDEX = nbits v 7 0 ∧ t.on FLOOR_DBG_SEL_VALID = valid := by
  have hrd : (s.wrN FLOOR_DBG_SEL (selWord v valid)).rdN FLOOR_DBG_SEL = selWord v valid % 2 ^ 64 := s.rdN_wrN_same _ _
  have hkept : ∀ hi lo, hi < 64 → (∀ i, lo ≤ i → i ≤ hi → Nat.testBit 0x0FFF07FF i = true) → nbits v hi lo = nbits (andNat v 0x0FFF07FF) hi lo :=
    fun hi lo hh hm => (nbits_andNat _ v hi lo hh hm).symm
  have hle := andNat_le v 0x0FFF07FF (by decide)
  rw [hkept 27 24 (by decide) fun i _ _ => by interval_cases i <;> rfl, hkept 23 16 (by decide) fun i _ _ => by interval_cases i <;> rfl,
    hkept 10 8 (by decide) fun i _ _ => by interval_cases i <;> rfl, hkept 7 0 (by decide) fun i _ _ => by interval_cases i <;> rfl]
  simp only [State.on, State.get_eq_nbits, FLOOR_DBG_SEL_DISTRICT, FLOOR_DBG_SEL_CLERK, FLOOR_DBG_SEL_RESOURCE, FLOOR_DBG_SEL_INDEX, FLOOR_DBG_SEL_VALID, hrd]
  unfold selWord
  generalize andNat v 0x0FFF07FF = a at hle ⊢
  cases valid <;> simp only [nbits, bne_iff_ne, bne_eq_false_iff_eq, if_true, if_false, Bool.false_eq_true] <;> omega

/-! ### A write of DEBUG_RELEASE and of DBG_SEL -/

section
variable (s : State) (q : Req) (v : Nat) (hq : q.reachesRegs = true) (hs : s.spineUp = true) (hp : s.path q = true) (hh : s.holdOf q = none)
include hq hs hp hh

theorem execDebugRelease_lands : exec (.debugRelease q v) s =
    .next (s.setFloor fun f => { f with release := (BitVec.ofNat 16 f.release ||| BitVec.ofNat 16 v).toNat }) := by
  show execDebugRelease q v s = _
  rw [execDebugRelease, s.landing_of_lands q _ _ ⟨hp, hh, (s.regDown_debug hs).1⟩, State.releaseWrite, hq, hs]
  rfl

theorem execDbgSelWrite_lands : exec (.dbgSelWrite q v) s =
    .next ((s.wrN FLOOR_DBG_SEL (selWord v (s.on FLOOR_DBG_SEL_VALID))).setFloor fun f => { f with dbgPend := true }) := by
  show execDbgSelWrite q v s = _
  rw [execDbgSelWrite, s.landing_of_lands q _ _ ⟨hp, hh, (s.regDown_debug hs).2⟩, State.selWrite, hq, hs]
  rfl

end

/-! ### The end of a hold (Parcels R282) -/

/-- A change of each entry by a rule that maps every default to itself changes what is read by that rule. -/
theorem SMap.get_map {α : Type} (d : Nat → α) (g : Nat → α → α) (hd : ∀ k, g k (d k) = d k) (m : SMap α) (k : Nat) :
    SMap.get d (m.map fun e => (e.1, g e.1 e.2)) k = g k (SMap.get d m k) := by
  induction m with
  | nil => exact (hd k).symm
  | cons e m ih =>
    simp only [List.map_cons, SMap.get]
    split
    · next h => rw [h]
    · exact ih

theorem errClass_debugHoldExpired : errClass Code.DEBUG_HOLD_EXPIRED = some .note := by decide

theorem State.isHeld_eq_testBit (s : State) {d : Nat} (hd : d < 16) : s.isHeld d = (s.rd FLOOR_DEBUG_HOLD).toNat.testBit d := by
  have hbits : (s.get FLOOR_DEBUG_HOLD_DISTRICT).testBit d = _ := Word.testBit_bits (s.rd FLOOR_DEBUG_HOLD) 15 0 d
  rw [State.isHeld, nbit_eq_testBit, hbits, decide_eq_true hd, Nat.zero_add, Bool.true_and]

theorem State.isHeld_setBit_same (s : State) {d : Nat} (hd : d < 16) (b : Bool) : (s.setBit FLOOR_DEBUG_HOLD d b).isHeld d = b := by
  rw [State.isHeld_eq_testBit _ hd, State.setBit, State.put, State.rd_wr_same, Word.testBit_setBits _ _ _ _ _ (Nat.le_refl d) (by omega),
    if_pos ⟨Nat.le_refl d, Nat.le_refl d⟩, Nat.sub_self]
  cases b <;> rfl

theorem State.isHeld_congr {s t : State} (h : t.rd FLOOR_DEBUG_HOLD = s.rd FLOOR_DEBUG_HOLD) (d : Nat) : t.isHeld d = s.isHeld d := by
  simp only [State.isHeld, State.get, FLOOR_DEBUG_HOLD_DISTRICT, h]

/-- The clerks of district `d` with all but their rest discarded. -/
def restAt (d : Nat) (l : SMap Clerk) : SMap Clerk := l.map fun e => if clerkDistrict e.1 = d then (e.1, e.2.rest) else e

theorem get_restAt {d k : Nat} (h : clerkDistrict k = d) (l : SMap Clerk) : SMap.get (fun _ => {}) (restAt d l) k = (SMap.get (fun _ => {}) l k).rest := by
  have hrule : restAt d l = l.map fun e => (e.1, if clerkDistrict e.1 = d then e.2.rest else e.2) :=
    List.map_congr_left fun e _ => by split <;> rfl
  rw [hrule]
  exact (SMap.get_map (fun _ => {}) (fun k x => if clerkDistrict k = d then x.rest else x) (fun k => ite_self _) l k).trans (if_pos h)

/-- From `s` to `t` the hold of district `d` has ended. -/
structure HoldEnded (d : Nat) (s t : State) : Prop where
  free : t.isHeld d = false
  allocs : t.floor.allocs = s.floor.allocs
  clerks : t.floor.clerks = restAt d s.floor.clerks
  mem : t.mem = s.mem

theorem HoldEnded.same {d : Nat} {s t u : State} (h : HoldEnded d s t) (hrd : u.rd FLOOR_DEBUG_HOLD = t.rd FLOOR_DEBUG_HOLD)
    (hallocs : u.floor.allocs = t.floor.allocs) (hclerks : u.floor.clerks = t.floor.clerks) (hmem : u.mem = t.mem) : HoldEnded d s u :=
  ⟨(State.isHeld_congr hrd d).trans h.free, hallocs.trans h.allocs, hclerks.trans h.clerks, hmem.trans h.mem⟩

theorem HoldEnded.putB {d : Nat} {s t : State} (h : HoldEnded d s t) {f : Fld} {b : Bool} (hf : FLOOR_DEBUG_HOLD ≠ f.reg) : HoldEnded d s (t.putB f b) :=
  h.same (t.rd_put_other f _ _ hf) rfl rfl rfl

theorem HoldEnded.clearReadout {d : Nat} {s t : State} (h : HoldEnded d s t) : HoldEnded d s (t.setFloor fun f => { f with dbg := [] }) :=
  h.same rfl rfl rfl rfl

/-- A report leaves what the end of a hold has done. -/
theorem HoldEnded.report {d : Nat} {s t : State} (h : HoldEnded d s t) (e : Err) : HoldEnded d s (t.report e) :=
  h.same (t.rd_report e _ (by decide) (by decide)) (by rw [t.report_floor]) (by rw [t.report_floor]) (t.report_mem e)

/-- The district let go of, and its clerks' state discarded. -/
def State.unheld (s : State) (d : Nat) : State := ((s.setBit FLOOR_DEBUG_HOLD d false).putB (FLOOR_DEBUG_STATE_HELD d) false).setFloor fun f =>
  { f with holds := SMap.set (fun _ => none) f.holds d none, clerks := restAt d f.clerks }

/-- The release of a held district; where DBG_SEL has selected it, the readout is cleared as well. -/
theorem State.releaseHold_held (s : State) (d : Nat) (h : s.isHeld d = true) : s.releaseHold d = s.unheld d ∨
    s.releaseHold d = ((s.unheld d).putB FLOOR_DBG_SEL_VALID false).setFloor fun f => { f with dbg := [] } := by
  rw [State.releaseHold, if_pos h]
  dsimp only
  split
  · exact .inr rfl
  · exact .inl rfl

theorem State.holdEnded_unheld (s : State) {d : Nat} (hd : d < 16) : HoldEnded d s (s.unheld d) := by
  have hother : FLOOR_DEBUG_HOLD ≠ (FLOOR_DEBUG_STATE_HELD d).reg := by
    simp only [FLOOR_DEBUG_HOLD, FLOOR_DEBUG_STATE_HELD, FLOOR_DEBUG_STATE]
    omega
  have hbit : (s.unheld d).rd FLOOR_DEBUG_HOLD = (s.setBit FLOOR_DEBUG_HOLD d false).rd FLOOR_DEBUG_HOLD := by
    rw [State.unheld, State.setFloor_rd, State.putB, State.rd_put_other _ _ _ _ hother]
  refine ⟨(State.isHeld_congr hbit d).trans (s.isHeld_setBit_same hd false), ?_, ?_, ?_⟩
  · simp only [State.unheld, State.setFloor_floor, State.putB_floor, State.setBit, State.put_floor]
  · simp only [State.unheld, State.setFloor_floor, State.putB_floor, State.setBit, State.put_floor]
  · simp only [State.unheld, State.setFloor_mem, State.putB_mem, State.setBit, State.put_mem]

theorem State.holdEnded_releaseHold (s : State) {d : Nat} (hd : d < 16) (h : s.isHeld d = true) : HoldEnded d s (s.releaseHold d) := by
  have hu := s.holdEnded_unheld hd
  rcases s.releaseHold_held d h with heq | heq
  · rwa [heq]
  · rw [heq]
    exact (hu.putB (by decide)).clearReadout

theorem execDebugHoldExpired_due (s : State) (d : Fin 16) {c : Nat} (hc : SMap.get (fun _ => none) s.floor.holds d.val = some c)
    (hn : 0 < s.cfg ⟨FLOOR_DEBUG_HOLD_LIMIT, 31, 0⟩) (hdue : c + s.cfg ⟨FLOOR_DEBUG_HOLD_LIMIT, 31, 0⟩ ≤ s.round) :
    exec (.debugHoldExpired d) s = .next ((s.releaseHold d).report { code := Code.DEBUG_HOLD_EXPIRED, unit := d }) := by
  show execDebugHoldExpired d s = _
  rw [execDebugHoldExpired, hc]
  dsimp only
  rw [if_pos (by simp [hdue]; omega)]

/-! ### The statement -/

/-- Settles O32: each POSTMARK is its action and its completion, which leaves the break of a RUNNING ring; the two writes change what they name; and the end of
a hold discards its clerks' state. -/
theorem postmarksArmBreaksAndHoldsEnd : Obligations.PostmarksArmBreaksAndHoldsEnd := by
  unfold Obligations.PostmarksArmBreaksAndHoldsEnd
  intro s
  refine ⟨fun r f hf hst hk hrun => ?_, fun q v hq hs hp hh => ?_, fun d c hc hheld hn hdue => ?_⟩
  · have hd : f.stage ≠ .done := by rw [hst]; decide
    refine ⟨fun ha => ?_, fun hclass => ⟨fun ha => ?_, fun ha => ?_⟩, fun hclass ha => ?_, fun ha => ?_⟩
    · have hstamp := (Aside.refl s).stamp (id := 3) (a0 := r + fieldLE f.env 0x1C 2 * 65536) (a1 := fieldLE f.env 0x20 4) (a2 := fieldLE f.env 0x24 4)
      refine ⟨_, congrArg Host.Outcome.next (s.postmark_acts r 0 _ hf hst hk ha (by simp)), ?_, hstamp.done_complete s r hf hst 0⟩
      exact (BrkStays.of_aside hstamp).trans (State.brkStays_complete _ r f.seq 0 ((hstamp.flight r f.seq).trans hf) hd (by rw [hstamp.ringState, hrun]))
    · exact ⟨_, congrArg Host.Outcome.next (s.postmark_acts r 1 _ hf hst hk ha fun _ => hclass), s.complete_setBrk r _ hf hd hrun⟩
    · exact ⟨_, congrArg Host.Outcome.next (s.postmark_acts r 2 _ hf hst hk ha fun _ => hclass), (s.complete_setBrk r _ hf hd hrun).1⟩
    · exact ⟨_, congrArg Host.Outcome.next (s.postmark_denied r 1 _ hf hst hk ha (.inl rfl) hclass),
        (s.complete_fails r f.seq 0x8801 0 hf hd (by decide) (by decide)).2⟩
    · exact ⟨_, congrArg Host.Outcome.next (s.postmark_acts r 3 _ hf hst hk ha (by simp)), s.complete_setBrk r _ hf hd hrun⟩
  · obtain ⟨hdistrict, hclerk, hresource, hindex, hvalid⟩ := s.get_selWord v (s.on FLOOR_DBG_SEL_VALID)
    exact ⟨⟨_, execDebugRelease_lands s q v hq hs hp hh, rfl, rfl, fun i hi => nbit_or16 _ v i hi⟩,
      ⟨_, execDbgSelWrite_lands s q v hq hs hp hh, hdistrict, hclerk, hresource, hindex, rfl, hvalid, fun o ho => s.rd_wrN_other _ o _ ho, rfl⟩⟩
  · have hended := (s.holdEnded_releaseHold d.isLt hheld).report { code := Code.DEBUG_HOLD_EXPIRED, unit := d }
    exact ⟨_, execDebugHoldExpired_due s d hc hn hdue, hended.free, by rw [State.allocs, hended.allocs, ← State.allocs], hended.mem,
      State.on_report_note _ _ errClass_debugHoldExpired, fun k hk => by rw [State.clerk, hended.clerks, get_restAt hk, ← State.clerk]⟩

end Sys2Proof.Machine
end

section
/-! SUPPORT. The retirement of a slot whose loading ring is beyond the 4,096. The state bounds no ring number of a slot, and the registers of a ring are found by
its number: for ring 29,704 what a slot holds as STATUS of its loading ring is the count of bulk bytes, which the zeroing of the slot raises. No PS_LOAD records
such a ring (`psLoaded` records the ring of its envelope), so the state below is none that a trace reaches. -/

namespace Sys2Proof.Machine
open Reg

/-- The ring number whose STATUS would lie at MEMCTL.CLASS_BYTES of bulk. -/
def strayLoader : Nat := (MEMCTL_CLASS_BYTES 3 - RINGS_STATUS 0) / 0x40

/-- Slot 0, at device address 0, drains, with its receipt at TARGET; the stray ring has loaded it; and the count of bulk bytes, a multiple of 4, is about to
saturate. -/
def drainingStray : State := ((State.reset.put (FIRMWARE_PS_SLOT_STATE_STATE 0) slotDraining).wrN (MEMCTL_CLASS_BYTES 3) (2 ^ 64 - 4)).setServe fun v =>
  { v with slots := [(0, 0, 0, strayLoader)] }

/-- Refutes O34: the stray ring reads as DISABLED before the slot is zeroed and no more after it, so that the retirement is reported to it, in a record at the
address 0 that its RET_BASE reads as: the slot's own first bytes. -/
theorem not_postscriptsLoadBindAndRetire : ¬ Obligations.PostscriptsLoadBindAndRetire := by
  intro h
  obtain ⟨-, -, hretire⟩ := h drainingStray
  obtain ⟨hdrained, -⟩ := hretire 0
  obtain ⟨u, hu, -, hzero, -⟩ := hdrained (by decide +kernel) (by decide +kernel)
  obtain rfl := Host.Outcome.next.inj hu
  exact absurd (hzero 8 (by decide +kernel) (by decide +kernel) (by decide +kernel)) (by decide +kernel)

end Sys2Proof.Machine
end

section
/-! SUPPORT. What leaves the serving marshal's records alone: the operations of the other blocks hold nothing of a session, a handle, a slot's loader or a bind,
and neither does what the marshal does for a request. One lemma per operation, in the model's order. -/

namespace Sys2Proof.Machine
open Reg

/-- `t` has the marshal's records as `s` has them. -/
def ServeStays (s t : State) : Prop := t.serve = s.serve

namespace ServeStays
variable {s t u : State}

theorem refl (s : State) : ServeStays s s := rfl
theorem trans (h : ServeStays s t) (k : ServeStays t u) : ServeStays s u := Eq.trans k h

theorem session (h : ServeStays s t) (id : Nat) : t.session id = s.session id := by rw [State.session, h, ← State.session]

theorem of_spent (h : Spent s t) : ServeStays s t := by obtain ⟨⟨_, _, rfl⟩, _⟩ := h; exact refl s

theorem ite (c : Prop) [Decidable c] {a b : State} (ha : ServeStays s a) (hb : ServeStays s b) : ServeStays s (if c then a else b) := by
  split <;> assumption

variable (h : ServeStays s t)
include h

/-- An update of another part of the state. -/
theorem same (hu : u.serve = t.serve) : ServeStays s u := hu.trans h

theorem each {α : Type} {f : State → α → State} (hf : ∀ v x, ServeStays s v → ServeStays s (f v x)) (l : List α) : ServeStays s (t.each l f) :=
  List.foldlRecOn l f h fun v hv x _ => hf v x hv

theorem wr {o v} : ServeStays s (t.wr o v) := h.same rfl
theorem wrN {o n} : ServeStays s (t.wrN o n) := h.wr
theorem put {f n} : ServeStays s (t.put f n) := h.wr
theorem putB {f b} : ServeStays s (t.putB f b) := h.wr
theorem addSat {o n} : ServeStays s (t.addSat o n) := h.wr
theorem add64 {o n} : ServeStays s (t.add64 o n) := h.wr
theorem setRing {r d} : ServeStays s (t.setRing r d) := h.same rfl
theorem setLedgerRun {n} : ServeStays s (t.setLedgerRun n) := h.same rfl
theorem wrMem {a b} : ServeStays s (t.wrMem a b) := h.same rfl
theorem putPoison {l} : ServeStays s (t.putPoison l) := h.same rfl
theorem sendIrq {i} : ServeStays s (t.sendIrq i) := h.same rfl
theorem setActing {l} : ServeStays s (t.setActing l) := h.same rfl
theorem setRnd {f} : ServeStays s (t.setRnd f) := h.same rfl
theorem setFloor {f} : ServeStays s (t.setFloor f) := h.same rfl
theorem useFrees {n} : ServeStays s (t.useFrees n) := h.same rfl
theorem atNs {n} : ServeStays s (t.atNs n) := h.setRnd.wrN
theorem clearNow {f} : ServeStays s (t.clearNow f) := h.setActing.put
theorem report {e} : ServeStays s (t.report e) := h.same (State.report_serve t e)

/-! ### Device and host memory -/

theorem accReport {e} : ServeStays s (t.accReport e) := by
  unfold State.accReport
  split
  · exact h.report.wrN
  · exact h.report
  · exact h.report
  · exact h.report
  · exact h

theorem writeLine {a b} : ServeStays s (t.writeLine a b) :=
  ServeStays.ite _ h.report (ServeStays.ite _ (ServeStays.ite _ h.putPoison.put.wrMem h.report) h.wrMem)

theorem eccWord {x} : ServeStays s (t.eccWord x) := by
  unfold State.eccWord
  extract_lets cache s₁
  split
  · exact h
  · extract_lets s₂ f s₃
    have hs₂ : ServeStays s s₂ := ServeStays.ite _ h.setFloor.put h.setFloor.put
    exact ServeStays.ite _ hs₂.put.report hs₂.putB.putPoison.report

theorem eccRead {a n} : ServeStays s (t.eccRead a n) := h.each (fun _ _ hv => hv.eccWord) _

theorem freshWord {w} : ServeStays s (t.freshWord w) := by
  unfold State.freshWord
  extract_lets s₁
  have hs₁ : ServeStays s s₁ := ServeStays.ite _ h.setFloor h
  exact ServeStays.ite _ hs₁.putPoison hs₁

theorem writeSram {a b} : ServeStays s (t.writeSram a b) := by
  unfold State.writeSram
  extract_lets w s₁
  have hs₁ : ServeStays s s₁ := h.eccRead
  exact ServeStays.ite _ h.report (ServeStays.ite _ (ServeStays.ite _ h.freshWord.wrMem (ServeStays.ite _ hs₁ hs₁.wrMem)) h)

theorem store {a b} : ServeStays s (t.store a b) :=
  ServeStays.ite _ (h.each (fun _ _ hv => hv.writeSram) _) (h.each (fun _ _ hv => hv.writeLine) _)

theorem fnWrite {f a b} : ServeStays s (t.fnWrite f a b).1 := by
  unfold State.fnWrite
  split
  · exact h.accReport
  · exact h.store

theorem addrWrite {f a b} : ServeStays s (t.addrWrite f a b).1 := by
  unfold State.addrWrite
  split
  · split
    · exact h
    · split
      · exact h.same rfl
      · exact h.accReport (e := .host)
  · exact h.fnWrite

theorem marshalWrite {f a b} : ServeStays s (t.marshalWrite f a b).1 := h.addrWrite

/-! ### Traffic -/

theorem traffic {k who a n} : ServeStays s (t.traffic k who a n) := h.trans (of_spent (Spent.traffic t k who a n))
theorem ringTraffic {r seq a n} : ServeStays s (t.ringTraffic r seq a n) := h.traffic
theorem tableTraffic {r seq a hdr} : ServeStays s (t.tableTraffic r seq a hdr) := h.ringTraffic.each (fun _ _ hv => hv.ringTraffic) _

/-! ### The firmware log ring and receipts -/

theorem ledgerPut {e} : ServeStays s (t.ledgerPut e) := by
  unfold State.ledgerPut
  extract_lets j a s₁
  have hs₁ : ServeStays s s₁ := ServeStays.ite _ h h.traffic
  split
  · next s' heq =>
    have hs' : ServeStays s s' := of_fst hs₁.addrWrite heq
    exact hs'.wrN
  · next s' _ heq =>
    have hs' : ServeStays s s' := of_fst hs₁.addrWrite heq
    exact hs'.clearNow.report

theorem ledger {e} : ServeStays s (t.ledger e) := by
  unfold State.ledger
  refine ServeStays.ite _ h (ServeStays.ite _ ?_ ?_)
  · extract_lets s'
    have hs' : ServeStays s s' := h.setLedgerRun.addSat
    exact ServeStays.ite _ hs'.report hs'
  · extract_lets s'
    have hs' : ServeStays s s' := ServeStays.ite _ h h.setLedgerRun.ledgerPut
    exact ServeStays.ite _ hs'.ledgerPut hs'

theorem endStamp {r f status} : ServeStays s (t.endStamp r f status) := ServeStays.ite _ h.ledger h

theorem signal {src i max? v} : ServeStays s (t.signal src i max? v) := by
  unfold State.signal
  refine ServeStays.ite _ ?_ h
  extract_lets c ops s₁ s₂
  have hs₂ : ServeStays s s₂ := h.wrMem.setRnd
  exact ServeStays.ite _ hs₂.put.report hs₂

/-! ### The ring engine -/

theorem coreIrq {b n v} : ServeStays s (t.coreIrq b n v) := ServeStays.ite _ h.sendIrq h

theorem irqTo {f v n} : ServeStays s (t.irqTo f v n) :=
  ServeStays.ite _ (ServeStays.ite _ h h.sendIrq) (ServeStays.ite _ h.coreIrq (ServeStays.ite _ h.coreIrq h))

theorem putRecord {r mk irq} : ServeStays s (t.putRecord r mk irq) := by
  unfold State.putRecord
  extract_lets j s₁ s₂
  have hs₂ : ServeStays s s₂ := h.addrWrite.traffic.wrN
  exact ServeStays.ite _ (ServeStays.ite _ hs₂.setRing.irqTo hs₂.setRing) hs₂

theorem flushFlights {r l} : ServeStays s (t.flushFlights r l) := by
  induction l generalizing t with
  | nil => exact h
  | cons f l ih =>
    rw [State.flushFlights]
    exact ServeStays.ite _ (ServeStays.ite _ (ih h.setRing) (ServeStays.ite _ (ih h.setRing.putRecord) h)) h

theorem flushUnsol {r l} : ServeStays s (t.flushUnsol r l) := by
  induction l generalizing t with
  | nil => exact h
  | cons u l ih =>
    rw [State.flushUnsol]
    exact ServeStays.ite _ (ih h.setRing.putRecord) h

theorem flush {r} : ServeStays s (t.flush r) := by
  unfold State.flush
  extract_lets s₁ s₂
  have hs₂ : ServeStays s s₂ := h.flushFlights.flushUnsol
  exact ServeStays.ite _ hs₂.putB hs₂

/-- An envelope of a RUNNING ring that completes with OK does not stop the ring, so that no session closes. -/
theorem complete {r : Ring} {seq result} (hrun : t.ringState r = 1) : ServeStays s (t.complete r seq 0 result) := by
  unfold State.complete
  extract_lets fails
  split
  · exact h
  · next f _ =>
    split
    · exact h
    · extract_lets s₁ s₂ s₃ s₄ s₅ s₆ s₇
      have hs₆ : ServeStays s s₆ := (ServeStays.ite _ h.signal h).endStamp.setRing.add64.flush
      have hside : Aside t s₂ := (Aside.ite _ (Aside.refl t).signal (Aside.refl t)).endStamp
      have hadd : s₄.ringState r = s₂.ringState r := State.ringState_wrN_other _ _ _ _ (ringReg_ne rfl)
      have hstate : s₆.ringState r = 1 := (State.ringState_flush s₅ r r).trans (hadd.trans (hside.ringState r |>.trans hrun))
      exact hs₆.same (congrArg State.serve (s₆.ringSettle_of_not_stopping r (by rw [hstate]; decide)))

/-! ### Allocations (Districts R217) -/

theorem setAllocs {d l} : ServeStays s (t.setAllocs d l) := h.setFloor.putB.put.put
theorem clearRecord {d n} : ServeStays s (t.clearRecord d n) := h.setFloor

theorem loadPart {r seq d src p} : ServeStays s (t.loadPart r seq d src p) := by
  unfold State.loadPart
  extract_lets k s₁
  have hs₁ : ServeStays s s₁ := ServeStays.ite _ h.traffic (ServeStays.ite _ h.traffic.add64.setFloor h)
  exact hs₁.add64.store

theorem allocate {r seq src d m b body} : ServeStays s (t.allocate r seq src d m b body) := by
  unfold State.allocate
  refine ServeStays.ite _ h ?_
  split
  · exact h
  · exact ((h.setAllocs.each (fun _ _ hv => hv.wrN) _).each (fun _ _ hv => hv.clearRecord.wrN) _).each (fun _ _ hv => hv.loadPart) _

theorem freeAlloc {d k} : ServeStays s (t.freeAlloc d k) := by
  unfold State.freeAlloc
  split
  · exact h
  · next x hx =>
    extract_lets s₁ s₂
    have hs₁ : ServeStays s s₁ := (h.same (u := t.zeroAlloc d x) rfl).setAllocs
    have hs₂ : ServeStays s s₂ := hs₁.each (fun _ _ hv => hv.wrN.clearRecord) _
    exact ServeStays.ite _ hs₂.putB hs₂

/-! ### Requests (Serving R290, R295, R299, R309) -/

theorem requestSignal {q n} : ServeStays s (t.requestSignal q n) := ServeStays.ite _ h.signal h
theorem releaseSlot {n} : ServeStays s (t.releaseSlot n) := h.signal

theorem endBlock {q state code} : ServeStays s (t.endBlock q state code) := by
  unfold State.endBlock
  refine requestSignal ?_
  split
  · next s' heq =>
    have hs' : ServeStays s s' := of_fst h.marshalWrite heq
    exact hs'.marshalWrite
  · next s' _ heq =>
    have hs' : ServeStays s s' := of_fst h.marshalWrite heq
    exact hs'.marshalWrite

theorem endRequest {q state code} : ServeStays s (t.endRequest q state code) := by
  unfold State.endRequest
  dsimp only
  split
  · exact h.endBlock.releaseSlot
  · exact h.endBlock

theorem endAll {l state code} : ServeStays s (t.endAll l state code) := h.each (fun _ _ hv => hv.endRequest) _

theorem letters {x q} : ServeStays s (t.letters x q) := h.each (fun _ _ hv => hv.fnWrite.ringTraffic) _

theorem emit {old out q} : ServeStays s (t.emit old out q).1 := by
  unfold State.emit
  extract_lets w w₁ s₁
  have hw : ServeStays s w.1 := by
    unfold w
    split
    · exact h
    · exact h.marshalWrite
  have hw₁ : ServeStays s w₁.1 := by
    unfold w₁
    split
    · exact hw.marshalWrite
    · exact hw
  have hs₁ : ServeStays s s₁ := ServeStays.ite _ hw₁ hw₁.requestSignal
  split
  · exact hw₁.endRequest
  · split
    · exact hs₁.endRequest
    · exact hs₁

theorem passOuts {x energy l} : ServeStays s (t.passOuts x energy l).1 := by
  induction l generalizing t with
  | nil => exact h
  | cons q l ih => exact ih h.letters.emit

theorem feedOf {x q} : ServeStays s (t.feedOf x q).1 := by
  unfold State.feedOf
  extract_lets a
  split
  · exact h
  · split
    · exact h.ringTraffic
    · exact h.accReport.useFrees

theorem feeds {x l} : ServeStays s (t.feeds x l).1 := by
  induction l generalizing t with
  | nil => exact h
  | cons q l ih => exact ih h.feedOf

theorem marshalRun {x seq entry m g body b} : ServeStays s (t.marshalRun x seq entry m g body b) :=
  (h.tableTraffic.each (fun _ _ hv => hv.allocate) _).setFloor

end ServeStays

end Sys2Proof.Machine
end

section
/-! SUPPORT. SESSION envelopes (Serving R285, R289, R296, R297): what each OP makes of the sessions where its checks pass, and its completion. -/

namespace Sys2Proof.Machine
open Reg

/-! ### Sessions -/

theorem State.id_of_session {s : State} {id : Nat} {x : Session} (h : s.session id = some x) : x.id = id := by simpa using List.find?_some h

/-- A session that is replaced is found as it has been replaced. -/
theorem State.session_setSession {s : State} {id : Nat} {x y : Session} (h : s.session id = some x) (hy : y.id = x.id) :
    (s.setSession y).session id = some y := by
  have hid : y.id = id := hy.trans (State.id_of_session h)
  have hpred : (fun z : Session => z.id == id) ∘ (fun z => if z.id = y.id then y else z) = fun z => z.id == id := by
    funext z
    by_cases hz : z.id = id <;> simp [hid, hz]
  have hfind : (s.setSession y).session id = (s.session id).map fun z => if z.id = y.id then y else z :=
    List.find?_map.trans (congrArg (fun p => (s.serve.sessions.find? p).map _) hpred)
  rw [hfind, h, Option.map_some, if_pos hy.symm]

/-- A session that is added is found where its number is new. -/
theorem session_append {l : List Session} {id : Nat} {x : Session} (h : l.find? (fun y => y.id == id) = none) (hx : x.id = id) :
    (l ++ [x]).find? (fun y => y.id == id) = some x := by
  simp [List.find?_append, h, hx]

/-! ### Completion -/

section
variable {s : State} {r : Ring} {f : Flight} (hf : s.flight r f.seq = some f) (hst : f.stage = .started) (hrun : s.ringState r = 1)
include hf hst

/-- A SESSION of an OP, once started, acts. -/
theorem State.sessionEnv_started {op : Nat} (act : Nat → Bytes → State) (hk : Env.kind f.env = 10) (hop : fieldLE f.env 0x1C 1 = op) :
    s.sessionEnv r f.seq op act = act (fieldLE f.env 0x18 4) f.env := by
  rw [State.sessionEnv, ← hk, s.startedOf_of_flight r f.seq hf hst]
  exact if_pos hop

/-- A SESSION that fails says so in LAST_FAIL. -/
theorem State.lastFail_complete {status result : Nat} (hok : status ≠ 0) (hcancel : status ≠ 9) :
    (s.complete r f.seq status result).get (RINGS_STATUS_LAST_FAIL r) = status % 2 ^ 16 :=
  (s.complete_fails r f.seq status result hf (by rw [hst]; decide) hok hcancel).2

include hrun

/-- A SESSION of a RUNNING ring that completes leaves the marshal's records, and is counted. -/
theorem Aside.complete_stays {t : State} (ha : Aside s t) (result : Nat) : ServeStays t (t.complete r f.seq 0 result) ∧
    (t.complete r f.seq 0 result).rdN (RINGS_DONE_COUNT r) = min (s.rdN (RINGS_DONE_COUNT r) + 1) (2 ^ 64 - 1) :=
  ⟨(ServeStays.refl t).complete ((ha.ringState r).trans hrun), ha.done_complete s r hf hst result⟩

/-- A session that is replaced as a SESSION completes is as it has been replaced. -/
theorem Aside.complete_setSession {t : State} (ha : Aside s t) (hv : ServeStays s t) {id : Nat} {x y : Session} (hx : s.session id = some x)
    (hy : y.id = x.id) (result : Nat) : ((t.setSession y).complete r f.seq 0 result).session id = some y ∧
      ((t.setSession y).complete r f.seq 0 result).rdN (RINGS_DONE_COUNT r) = min (s.rdN (RINGS_DONE_COUNT r) + 1) (2 ^ 64 - 1) := by
  obtain ⟨hstays, hdone⟩ := Aside.complete_stays hf hst hrun (t := t.setSession y) ha.setServe result
  exact ⟨(hstays.session id).trans (State.session_setSession ((hv.session id).trans hx) hy), hdone⟩

/-- A new session that is added as an OPEN completes is there. -/
theorem Aside.complete_addSession {t : State} (ha : Aside s t) (hv : ServeStays s t) {x : Session} (hx : s.session x.id = none) :
    let u := (t.setServe fun v => { v with sessions := v.sessions ++ [x] }).complete r f.seq 0 0
    u.session x.id = some x ∧ u.rdN (RINGS_DONE_COUNT r) = min (s.rdN (RINGS_DONE_COUNT r) + 1) (2 ^ 64 - 1) := by
  obtain ⟨hstays, hdone⟩ := Aside.complete_stays hf hst hrun (t := t.setServe fun v => { v with sessions := v.sessions ++ [x] }) ha.setServe 0
  exact ⟨(hstays.session x.id).trans (session_append ((hv.session x.id).trans hx) rfl), hdone⟩

end

/-! ### The OPs -/

section
variable {s : State} {r seq id : Nat} {e : Bytes} {x : Session}

/-- An OPEN whose checks pass adds the session and completes (Serving R285, R287). -/
theorem State.sessionOpen_opens {p : State} {d : Bytes} {m : Image} {g : Binds} (hp : p = s.ringTraffic r seq (fieldLE e 0x20 8) 64)
    (hx : x = { id := id, fn := s.ringFn r, ring := r, desc := d, key := ⟨0, 0, 0⟩ }) (hid : s.session id = none) (hlen : s.serve.sessions.length < 16)
    (hd : s.addrRead (s.ringFn r) (fieldLE e 0x20 8) 64 = .ok d) (htests : firstBad (descTests d) = none) (hclass : p.get (RINGS_CFG_CLASS r) ≠ 0)
    (hm : p.readImage (s.ringFn r) x.parcel = .ok m) (hexpress : hdrExpress m.hdr = false) (hkind : hdrF m.hdr 5 1 = 3)
    (hg : p.templateCheck (s.ringFn r) x m = .ok g) :
    s.sessionOpen r seq id e = ((p.tableTraffic r seq x.parcel m.hdr).setServe fun v =>
      { v with sessions := v.sessions ++ [{ x with key := hdrKey m.hdr }] }).complete r seq 0 0 := by
  subst hx hp
  rw [State.sessionOpen]
  dsimp only
  rw [if_neg (by simp [hid]), if_neg (by omega), hd]
  dsimp only
  rw [if_neg hclass, htests]
  dsimp only
  rw [hm]
  dsimp only
  rw [hexpress, hkind, hg]
  rfl

/-- An ADMIT whose checks pass puts its request at the end of the queue and completes (Serving R289). -/
theorem State.sessionAdmit_admits {b : Bytes} (hx : s.session id = some x) (hclosing : x.closing = false)
    (hb : s.addrRead (s.ringFn r) (fieldLE e 0x20 8) 64 = .ok b) (htests : firstBad (requestTests b x) = none) {q : Request}
    (hq : q = { block := fieldLE e 0x20 8, fn := s.ringFn r, head := b }) (htenant : s.tenantOf q.tenant (s.ringFn r) = true)
    (hmask : nbit x.tenants q.tenant = true) (hreceipt : nbit q.receipt 31 = false) (hneed : q.need ≤ x.pages) (hlen : x.queue.length < 1024)
    (hw : ((s.ringTraffic r seq (fieldLE e 0x20 8) 128).marshalWrite (s.ringFn r) (fieldLE e 0x20 8 + 0x40) (List.replicate 64 0)).2 = none) :
    s.sessionAdmit r seq id e = ((((s.ringTraffic r seq (fieldLE e 0x20 8) 128).marshalWrite (s.ringFn r) (fieldLE e 0x20 8 + 0x40)
      (List.replicate 64 0)).1.setSession { x with queue := x.queue ++ [q] }).complete r seq 0 x.queue.length) := by
  subst hq
  rw [State.sessionAdmit, hx]
  dsimp only
  rw [if_neg (by simp [hclosing]), hb]
  dsimp only
  rw [htests]
  dsimp only
  rw [if_neg (by simp [htenant, hmask]), if_neg (by simp [hreceipt]), if_neg (by omega), if_neg (by omega)]
  split
  · next heq =>
    rw [heq] at hw
    cases hw
  · next heq => rw [heq]

/-- A request as a CANCEL of the block of `q` leaves it (Serving R296). -/
def cancelMark (q p : Request) : Request := if p.block = q.block ∧ p.fn = q.fn then { p with cancel := true } else p

/-- A CANCEL marks the requests of its block, or fails where the request ends with the pass in progress. -/
theorem State.sessionCancel_named {q : Request} (hx : s.session id = some x) (hq : x.named (s.ringFn r) (fieldLE e 0x20 8) = some q)
    (htenant : s.tenantOf q.tenant (s.ringFn r) = true) :
    s.sessionCancel r seq id e = if s.endsInPass x q then s.complete r seq 0x8A08 0 else
      (s.setSession { x with queue := x.queue.map (cancelMark q), running := x.running.map (cancelMark q) }).complete r seq 0 0 := by
  rw [State.sessionCancel, hx]
  dsimp only
  rw [hq]
  dsimp only
  rw [htenant, if_neg (by decide)]
  simp only [Bool.and_eq_true, decide_eq_true_eq]
  rfl

theorem State.sessionClose_own (hx : s.session id = some x) (hfn : x.fn = s.ringFn r) :
    s.sessionClose r seq id e = (s.setSession { x with closing := true }).complete r seq 0 0 := by
  rw [State.sessionClose, hx]
  exact if_neg (by simp [hfn])

theorem State.sessionStatus_own (hx : s.session id = some x) (hfn : x.fn = s.ringFn r)
    (hw : ((s.ringTraffic r seq (fieldLE e 0x20 8) 64).marshalWrite (s.ringFn r) (fieldLE e 0x20 8) (statusBlock x)).2 = none) :
    s.sessionStatus r seq id e =
      ((s.ringTraffic r seq (fieldLE e 0x20 8) 64).marshalWrite (s.ringFn r) (fieldLE e 0x20 8) (statusBlock x)).1.complete r seq 0 0 := by
  rw [State.sessionStatus, hx]
  dsimp only
  rw [if_neg (by simp [hfn])]
  split
  · next heq =>
    rw [heq] at hw
    cases hw
  · next heq => rw [heq]

theorem State.sessionStatus_other (hx : s.session id = some x) (hfn : x.fn ≠ s.ringFn r) : s.sessionStatus r seq id e = s.complete r seq 0x8A01 id := by
  rw [State.sessionStatus, hx]
  exact if_pos (by simp [hfn])

end

end Sys2Proof.Machine
end

section
/-! SUPPORT. The start of a pass (Serving R291, R293, R297): a closing session ends, and an idle one with running requests begins its pass with their grants. -/

namespace Sys2Proof.Machine
open Reg

/-! ### The end of a session -/

/-- A session that has ended is found no more (Serving R297). -/
theorem State.session_sessionEnd (s : State) (x : Session) : (s.sessionEnd x).session x.id = none := by
  have hgone : ∀ t : State, (t.setServe fun v => { v with sessions := v.sessions.filter fun y => y.id != x.id }).session x.id = none := fun t =>
    List.find?_eq_none.mpr fun y hy => by simpa using (List.mem_filter.mp hy).2
  unfold State.sessionEnd
  extract_lets s₁ s₂
  have hs₂ : s₂.session x.id = none := hgone s₁
  split
  · exact hs₂
  · dsimp only
    split
    · exact hs₂
    · exact (((ServeStays.refl s₂).each (fun _ _ hv => hv.freeAlloc) _).session x.id).trans hs₂

/-! ### Binds, cancels and admission that find nothing to do -/

/-- With no bind accepted, none takes effect. -/
theorem State.applyBinds_of_nil {s : State} (h : s.serve.binds = []) : s.applyBinds = s := by
  have hserve : { s.serve with binds := s.serve.binds.filter fun b => decide (s.round ≤ b.round) } = s.serve := by
    rw [h]
    exact congrArg (fun l => { s.serve with binds := l }) h.symm
  unfold State.applyBinds
  rw [h]
  exact congrArg (fun v => { s with serve := v }) hserve

theorem State.applyCancels_of_none (s : State) {x : Session} (hq : x.queue = []) (hr : ∀ q ∈ x.running, q.cancel = false) : s.applyCancels x = (s, x) := by
  have hlive : x.running.filter (fun q => !q.cancel) = x.running := List.filter_eq_self.mpr fun q hmem => by simp [hr q hmem]
  have hgone : (x.running ++ x.queue).filter (fun q => q.cancel) = [] := by
    rw [hq, List.append_nil]
    exact List.filter_eq_nil_iff.mpr fun q hmem => by simp [hr q hmem]
  rw [State.applyCancels, hgone]
  simp only [hlive, hq, List.filter_nil]
  exact Prod.ext rfl (congrArg (fun l => { x with queue := l }) hq.symm)

/-! ### Grants (Serving R293) -/

/-- A grant changes nothing else of a request. -/
theorem mem_grantRest {chunk left : Nat} {l : List Request} {p : Request} (h : p ∈ grantRest chunk left l) : ∃ q ∈ l, ∃ n, p = { q with grant := n } := by
  induction l generalizing left with
  | nil => cases h
  | cons q l ih =>
    rcases List.mem_cons.mp h with rfl | h
    · exact ⟨q, List.mem_cons_self, _, rfl⟩
    · obtain ⟨q', hq', hn⟩ := ih h
      exact ⟨q', List.mem_cons_of_mem q hq', hn⟩

theorem grantRest_ne_nil {chunk left : Nat} {l : List Request} (h : l ≠ []) : grantRest chunk left l ≠ [] := by
  cases l with
  | nil => exact absurd rfl h
  | cons q l => exact List.cons_ne_nil _ _

/-! ### The tokens that a pass takes -/

/-- What a pass takes of a request is its feed. -/
theorem State.feedOf_feed (s : State) (x : Session) (q : Request) : ({ (s.feedOf x q).2 with feed := [] } : Request) = { q with feed := [] } := by
  unfold State.feedOf
  split
  · rfl
  · dsimp only
    split <;> rfl

theorem State.feeds_feed (s : State) (x : Session) (l : List Request) :
    ((s.feeds x l).2.map fun q => ({ q with feed := [] } : Request)) = l.map fun q => { q with feed := [] } := by
  induction l generalizing s with
  | nil => rfl
  | cons q l ih => exact congrArg₂ List.cons (s.feedOf_feed x q) (ih _)

/-- Generating requests give candidates, and read nothing (Serving R301). -/
theorem State.feeds_of_gen (s : State) (x : Session) (l : List Request) (h : ∀ q ∈ l, q.gen = true) :
    s.feeds x l = (s, l.map fun q => { q with feed := (q.candidates x.model (s.postscriptOf q)).take q.grant }) := by
  induction l with
  | nil => rfl
  | cons q l ih =>
    have hfeed : s.feedOf x q = (s, { q with feed := (q.candidates x.model (s.postscriptOf q)).take q.grant }) := if_pos (h q List.mem_cons_self)
    rw [State.feeds, hfeed, ih fun p hp => h p (List.mem_cons_of_mem q hp)]
    rfl

/-! ### The pass RUN -/

/-- The RUN that the marshal begins for a session is on the floor. -/
theorem State.runSt_marshalRun (s : State) (x : Session) (seq entry : Nat) (m : Image) (g : Binds) (body : Bytes) (b : BodyLoad) :
    ((s.marshalRun x seq entry m g body b).runSt x.ring seq).isSome = true := by
  refine List.find?_isSome.mpr ⟨_, List.mem_append_right _ (List.mem_singleton_self _), ?_⟩
  simp [runOf]

/-- The session as the pass RUN begins: its running requests with what the pass takes of each. -/
theorem State.session_passRun {s : State} {id : Nat} {x y : Session} (h : s.session id = some y) (hy : x.id = y.id) (m : Image) (g : Binds) (body : Bytes)
    (b : BodyLoad) : (s.passRun x m g body b).session id = some { x with running := (s.feeds x x.running).2, drafting := false } := by
  have hfeeds : (s.feeds x x.running).1.session id = some y := ((ServeStays.refl s).feeds.session id).trans h
  exact (((ServeStays.refl _).each (fun _ _ hv => hv.ringTraffic) _).marshalRun.session id).trans
    (State.session_setSession (y := { x with running := (s.feeds x x.running).2, drafting := false }) hfeeds hy)

/-- The session as its pass starts in a round: its running requests have their grants. -/
def Session.begun (x : Session) (round : Nat) : Session := { x with running := x.granted, pass := some round }

/-- An idle session with running requests, none cancelled and none with draft tokens, begins its pass RUN with their grants (Serving R291, R293). -/
theorem State.passStart_begins {s : State} {x : Session} {b : BodyLoad} {m : Image} {g : Binds} {body : Bytes} (hclosing : x.closing = false)
    (hqueue : x.queue = []) (hrunning : x.running ≠ []) (hplain : ∀ q ∈ x.running, q.cancel = false ∧ q.drafts = 0)
    (hgo : s.passCheck x x.entry b = .go m g body) :
    s.passStart x b = (s.setSession (x.begun s.round)).passRun (x.begun s.round) m g body b := by
  have hempty : x.granted.isEmpty = false := List.isEmpty_eq_false_iff.mpr (grantRest_ne_nil hrunning)
  have hdrafts : ∀ q ∈ x.granted, q.drafts = 0 := fun p hp => by
    obtain ⟨q, hq, n, rfl⟩ := mem_grantRest hp
    exact (hplain q hq).2
  have hwants : ((x.begun s.round).wantsDrafts && decide ((x.begun s.round).draftEntry < hdrF m.hdr 9 1)) ≠ true := by
    have hany : (x.granted.any fun q => q.gen && decide (0 < q.drafts) && decide (0 < q.grant)) = false :=
      List.any_eq_false.mpr fun q hq => by simp [hdrafts q hq]
    rw [Session.wantsDrafts, Session.begun, hany, Bool.and_false, Bool.false_and]
    decide
  have hadmit : ∀ h, s.admitQueue h x x.queue = (s, x) := fun h => by
    rw [hqueue]
    exact Prod.ext rfl (congrArg (fun l => { x with queue := l }) hqueue.symm)
  rw [State.passStart, if_neg (by simp [hclosing]), hgo]
  dsimp only
  rw [s.applyCancels_of_none hqueue fun q hq => (hplain q hq).1]
  dsimp only
  rw [hadmit]
  dsimp only
  rw [hempty]
  exact (if_neg (by decide)).trans (if_neg hwants)

/-- The pass of an idle session begins with its grants: its start adds to each request what it takes of it, candidates where they generate. -/
theorem State.passStart_grants {s : State} {id : Nat} {x : Session} {b : BodyLoad} {m : Image} {g : Binds} {body : Bytes} (hx : s.session id = some x)
    (hdraft : x.drafting = false) (hclosing : x.closing = false) (hqueue : x.queue = []) (hrunning : x.running ≠ [])
    (hplain : ∀ q ∈ x.running, q.cancel = false ∧ q.drafts = 0) (hgo : s.passCheck x x.entry b = .go m g body) :
    ∃ l, (s.passStart x b).session id = some { x with running := l, pass := some s.round } ∧
      l.map (fun q => { q with feed := [] }) = x.granted.map (fun q => { q with feed := [] }) ∧ ((s.passStart x b).runSt x.ring x.seq).isSome = true ∧
      ((∀ q ∈ x.running, q.gen = true) → l = x.granted.map fun q => { q with feed := (q.candidates x.model (s.postscriptOf q)).take q.grant }) := by
  have hset := State.session_setSession (y := x.begun s.round) hx rfl
  have hsession := State.session_passRun (x := x.begun s.round) hset rfl m g body b
  rw [State.passStart_begins hclosing hqueue hrunning hplain hgo]
  refine ⟨_, ?_, State.feeds_feed (s.setSession (x.begun s.round)) (x.begun s.round) x.granted,
    State.runSt_marshalRun _ _ _ _ _ _ _ _, fun hgen => ?_⟩
  · rw [hsession, hdraft]
    rfl
  · have hgranted : ∀ q ∈ x.granted, q.gen = true := fun p hp => by
      obtain ⟨q, hq, n, rfl⟩ := mem_grantRest hp
      exact hgen q hq
    rw [State.feeds_of_gen _ _ _ hgranted]
    rfl

/-! ### The command -/

/-- The start of a pass of an idle session that has something to do, with no bind accepted. -/
theorem execPassStart_idle {s : State} {id : Nat} {x : Session} (b : BodyLoad) (hx : s.session id = some x) (hfw : s.fwRunning 1 = true)
    (hpass : x.pass = none) (hlost : x.lost = none) (hdraft : x.drafting = false) (hbinds : s.serve.binds = [])
    (hdo : x.closing = true ∨ x.running ≠ []) : exec (.passStart id b) s = .next (s.passStart x b) := by
  have hmay : s.passMay x = true := by
    rw [State.passMay, hpass, hlost, hfw]
    rcases hdo with h | h <;> simp [h]
  show execPassStart id b s = _
  rw [execPassStart, hx]
  dsimp only
  rw [if_neg (by simp [hdraft]), if_pos hmay, State.applyBinds_of_nil hbinds]

end Sys2Proof.Machine
end

section
/-! SUPPORT. The end of a pass (Serving R292, R295, R300, R303): what a failed pass and one that ended with OK make of the session and of a generating request. -/

namespace Sys2Proof.Machine
open Reg

/-! ### Acceptance (Serving R303) -/

theorem acceptCount_le (c y : List Nat) : acceptCount c y ≤ c.length := by
  induction c generalizing y with
  | nil => exact Nat.zero_le _
  | cons a c ih =>
    cases y with
    | nil => exact Nat.zero_le _
    | cons b y =>
      rw [acceptCount]
      split
      · have := ih y
        simp only [List.length_cons]
        omega
      · exact Nat.zero_le _

/-- With no stop token, every token comes before it. -/
theorem upToStop_of_none {stop : Nat} (h : nbit stop 31 = false) (l : List Nat) : upToStop stop l = l := by
  induction l with
  | nil => rfl
  | cons t l ih =>
    rw [upToStop, ih]
    exact if_neg (by simp [h])

/-- The model's tokens after a generating request's inputs: its last token, and each candidate (Serving R300). -/
def Request.replies (q : Request) (model : Nat) (ps : Bytes) : List Nat :=
  (List.range (q.feed.length + 1)).map fun i => q.token model ps (q.tokens ++ q.feed.take i)

/-- The candidates of a generating request that are accepted. -/
def Request.taken (q : Request) (model : Nat) (ps : Bytes) : Nat := acceptCount q.feed (q.replies model ps)

section
variable {q : Request} (model : Nat) (ps : Bytes) (hgen : q.gen = true)
include hgen

/-- The counts and the tokens of a generating request after a pass. -/
theorem Request.afterPass_counts : let p := (q.afterPass model ps).2
    p.len = q.len + 1 + q.taken model ps ∧ p.accepted = q.accepted + q.taken model ps ∧ p.proposed = q.proposed + q.feed.length ∧
      p.tokens = q.tokens ++ q.feed.take (q.taken model ps) ++ [(q.replies model ps).getD (q.taken model ps) 0] := by
  rw [Request.afterPass, if_pos hgen]
  exact ⟨rfl, rfl, rfl, rfl⟩

/-- A generating request with no stop token emits what it has accepted and one token more, as far as it may emit. -/
theorem Request.afterPass_emitted (hstop : nbit q.stop 31 = false) :
    (q.afterPass model ps).2.emitted = q.emitted + min (q.taken model ps + 1) (q.maxNew - q.emitted) := by
  have hle := acceptCount_le q.feed (q.replies model ps)
  rw [Request.afterPass, if_pos hgen]
  show q.emitted + (List.take (q.maxNew - q.emitted) (upToStop q.stop
    (q.feed.take (q.taken model ps) ++ [(q.replies model ps).getD (q.taken model ps) 0]))).length = _
  rw [upToStop_of_none hstop, List.length_take, List.length_append, List.length_take, List.length_singleton, Request.taken, Nat.min_eq_left hle, Nat.min_comm]

end

/-! ### Emission -/

/-- A request that goes on after its tokens have been written is as the pass has left it. -/
theorem State.eq_of_emit {s : State} {old q p : Request} {out : List Nat} (h : (s.emit old out q).2 = some p) : p = q := by
  unfold State.emit at h
  extract_lets w w₁ s₁ at h
  split at h
  · cases h
  · split at h
    · cases h
    · exact (Option.some.inj h).symm

/-- A pass of one request leaves it as the pass has made it, or ends it. -/
theorem State.eq_of_passOuts {s : State} {x : Session} {energy : Nat} {q p : Request} (h : (s.passOuts x energy [q]).2 = [p]) :
    p = { (q.afterPass x.model (s.postscriptOf q)).2 with energy := (q.afterPass x.model (s.postscriptOf q)).2.energy + x.share energy q } := by
  simp only [State.passOuts] at h
  split at h
  · next y heq =>
    cases h
    exact State.eq_of_emit heq
  · cases h

/-- What a pass that ended with OK makes of its one request, which generates and has no stop token. -/
theorem State.passOuts_one {s : State} {x : Session} {energy : Nat} {q p : Request} {ps : Bytes} (hps : s.postscriptOf q = ps) (hgen : q.gen = true)
    (hstop : nbit q.stop 31 = false) (h : (s.passOuts x energy [q]).2 = [p]) : let k := q.taken x.model ps
    p.len = q.len + 1 + k ∧ p.accepted = q.accepted + k ∧ p.proposed = q.proposed + q.feed.length ∧
      p.tokens = q.tokens ++ q.feed.take k ++ [(q.replies x.model ps).getD k 0] ∧ p.emitted = q.emitted + min (k + 1) (q.maxNew - q.emitted) := by
  obtain rfl := State.eq_of_passOuts h
  rw [hps]
  obtain ⟨hlen, haccepted, hproposed, htokens⟩ := Request.afterPass_counts x.model ps hgen
  exact ⟨hlen, haccepted, hproposed, htokens, Request.afterPass_emitted x.model ps hgen hstop⟩

/-! ### The session -/

theorem errClass_servePassFailed : errClass Code.SERVE_PASS_FAILED = some .contained := by decide

section
variable {s : State} {id : Nat} {x y : Session} (h : s.session id = some y) (hy : x.id = y.id)
include h hy

/-- The requests of a failed pass end, and it is reported as CONTAINED (Serving R292). -/
theorem State.passFailed_ends (status energy : Nat) :
    (s.passFailed x status energy).session id = some { x with running := [], pass := none, drafting := false } ∧
      (s.passFailed x status energy).on ERROR_STATUS_CONTAINED = true := by
  unfold State.passFailed
  extract_lets s₁
  have hs₁ : s₁.session id = some y := ((ServeStays.refl s).endAll.session id).trans h
  exact ⟨((ServeStays.refl _).report.session id).trans (State.session_setSession (y := { x with running := [], pass := none, drafting := false }) hs₁ hy),
    State.on_report_contained _ _ errClass_servePassFailed⟩

/-- A pass whose RUN failed leaves its session with its queue alone. -/
theorem State.passComplete_failed (start energy : Nat) {status : Nat} (hs : status ≠ 0) : ∃ z, (s.passComplete x start status energy).session id = some z ∧
    z.running = [] ∧ z.pass = none ∧ z.queue = x.queue ∧ (s.passComplete x start status energy).on ERROR_STATUS_CONTAINED = true := by
  unfold State.passComplete
  extract_lets v z w
  obtain ⟨hsession, hcontained⟩ := State.passFailed_ends (s := v) (x := z) h hy status energy
  rw [if_pos (by simpa using hs)]
  exact ⟨_, hsession, rfl, rfl, rfl, hcontained⟩

/-- A pass that ended with OK is counted, and leaves the running requests that go on (Serving R295). -/
theorem State.passComplete_ok (start energy : Nat) : ∃ z v, (s.passComplete x start 0 energy).session id = some z ∧ z.pass = none ∧
    z.passes = x.passes + 1 ∧ z.queue = x.queue ∧ z.running = (State.passOuts v x energy x.running).2 ∧ ∀ q, v.postscriptOf q = s.postscriptOf q := by
  unfold State.passComplete
  extract_lets v z w
  have hw : w.1.session id = some y := ((ServeStays.refl s).setFloor.passOuts.session id).trans h
  rw [if_neg (by decide)]
  exact ⟨{ z with running := w.2 }, v, State.session_setSession (y := { z with running := w.2 }) hw hy, rfl, rfl, rfl, rfl, fun _ => rfl⟩

end

/-! ### The command -/

/-- The end of a pass whose RUN has ended. -/
theorem execPassComplete_ended {s : State} {id n : Nat} {x : Session} {e : Nat × Nat} (t energy : Nat) (hx : s.session id = some x)
    (hfw : s.fwRunning 1 = true) (hpass : x.pass = some n) (hlost : x.lost = none) (he : s.floor.passEnds.find? (fun e => e.1 == x.seq) = some e) :
    exec (.passComplete id t energy) s = .next ((s.atNs t).passComplete x n e.2 energy) := by
  show execPassComplete id t energy s = _
  rw [execPassComplete, hx]
  dsimp only
  rw [if_neg (by simp [hfw]), hlost, hpass, he]

/-- The instant of a command changes no slot's place. -/
theorem State.postscriptOf_atNs (s : State) (t : Nat) (q : Request) : (s.atNs t).postscriptOf q = s.postscriptOf q := by
  have hact : ∀ o, o ≠ ROUND_PHASE → (s.atNs t).act o = s.act o := fun o ho => by
    rw [State.act, s.rd_atNs t o ho]
    rfl
  have haddr : ∀ n, (s.atNs t).slotAddr n = s.slotAddr n := fun n => by
    rw [State.slotAddr, State.slotMib, State.cfg, State.cfg, hact FIRMWARE_PS_POOL_BASE_ADDR.reg (by decide),
      hact FIRMWARE_PS_POOL_CFG_SLOT_MIB.reg (by decide)]
    rfl
  unfold State.postscriptOf
  split
  · next n _ =>
    rw [haddr]
    rfl
  · rfl

end Sys2Proof.Machine
end

section
/-! SUPPORT. Sessions open, queue requests, run passes and close (Serving §1 to §6), from the rules of SESSION envelopes and of passes. -/

namespace Sys2Proof.Machine
open Reg

/-- Settles O33: each SESSION envelope is its OP's act and its completion, which on a RUNNING ring closes no session; a pass begins with the grants of the running
requests; and it ends with what acceptance makes of them, or with none of them. -/
theorem sessionsOpenAdmitAndRunPasses : Obligations.SessionsOpenAdmitAndRunPasses := by
  unfold Obligations.SessionsOpenAdmitAndRunPasses
  intro s _
  refine ⟨fun r f hf hst hk hrun => ?envelopes, fun id x b hx hfw => ⟨fun hpass hlost hdraft hbinds => ?begins, fun n e t energy hpass hlost he => ?ends⟩⟩
  case envelopes =>
    have hacts : ∀ {op : Nat} {act : Nat → Bytes → State} {t : State}, fieldLE f.env 0x1C 1 = op → act (fieldLE f.env 0x18 4) f.env = t →
        Host.Outcome.next (s.sessionEnv r f.seq op act) = (.next t : Host.Outcome State Fault Refusal) := fun hop hact =>
      congrArg Host.Outcome.next ((State.sessionEnv_started hf hst _ hk hop).trans hact)
    have hs := Aside.refl s
    have hv := ServeStays.refl s
    refine ⟨fun hop hid hlen d m g hd htests hclass hm hexpress hkind hg => ?opens, fun x hx =>
      ⟨fun hop hclosing b hb htests htenant hmask hreceipt hneed hlen hw => ?admits, fun hop q hq htenant => ⟨fun hgoes => ?cancels, fun hends => ?late⟩,
        fun hop hfn => ?closes, fun hop hfn hw => ?tells, fun hop hfn => ?denied⟩⟩
    case opens =>
      exact ⟨_, hacts hop (State.sessionOpen_opens rfl rfl hid hlen hd htests hclass hm hexpress hkind hg),
        (hs.traffic.traffic.each (fun _ _ hu => hu.traffic) _).complete_addSession hf hst hrun hv.ringTraffic.tableTraffic hid⟩
    case admits =>
      exact ⟨_, hacts hop (State.sessionAdmit_admits hx hclosing hb htests rfl htenant hmask hreceipt hneed hlen hw),
        hs.traffic.addrWrite.complete_setSession hf hst hrun hv.ringTraffic.marshalWrite (y := { x with queue := x.queue ++ [_] }) hx rfl x.queue.length⟩
    case cancels =>
      have hact := State.sessionCancel_named (seq := f.seq) hx hq htenant
      rw [hgoes] at hact
      obtain ⟨hsession, hdone⟩ := hs.complete_setSession hf hst hrun hv
        (y := { x with queue := x.queue.map (cancelMark q), running := x.running.map (cancelMark q) }) hx rfl 0
      exact ⟨_, hacts hop hact, hdone, _, hsession, rfl, rfl⟩
    case late =>
      have hact := State.sessionCancel_named (seq := f.seq) hx hq htenant
      rw [hends] at hact
      exact ⟨_, hacts hop hact, State.lastFail_complete hf hst (by decide) (by decide)⟩
    case closes => exact ⟨_, hacts hop (State.sessionClose_own hx hfn), hs.complete_setSession hf hst hrun hv (y := { x with closing := true }) hx rfl 0⟩
    case tells =>
      obtain ⟨hstays, hdone⟩ := Aside.complete_stays hf hst hrun (hs.traffic.addrWrite (f := s.ringFn r) (a := fieldLE f.env 0x20 8) (b := statusBlock x)) 0
      exact ⟨_, hacts hop (State.sessionStatus_own hx hfn hw), hv.ringTraffic.marshalWrite.trans hstays, hdone⟩
    case denied => exact ⟨_, hacts hop (State.sessionStatus_other hx hfn), State.lastFail_complete hf hst (by decide) (by decide)⟩
  case begins =>
    refine ⟨fun hclosing => ?_, fun hclosing hqueue hrunning hplain m g body hgo => ?_⟩
    · refine ⟨_, execPassStart_idle b hx hfw hpass hlost hdraft hbinds (.inl hclosing), ?_⟩
      rw [State.passStart, if_pos hclosing, ← State.id_of_session hx]
      exact s.session_sessionEnd x
    · obtain ⟨l, hl⟩ := State.passStart_grants hx hdraft hclosing hqueue hrunning hplain hgo
      exact ⟨_, l, execPassStart_idle b hx hfw hpass hlost hdraft hbinds (.inr hrunning), hl⟩
  case ends =>
    have hx' : (s.atNs t).session id = some x := ((ServeStays.refl s).atNs.session id).trans hx
    have hexec := execPassComplete_ended t energy hx hfw hpass hlost he
    refine ⟨fun hfail => ?_, fun hok => ?_⟩
    · obtain ⟨y, hy⟩ := State.passComplete_failed hx' rfl n energy hfail
      exact ⟨_, y, hexec, hy⟩
    · rw [hok] at hexec
      obtain ⟨y, v, hsession, hidle, hpasses, hqueue, hrunning, hps⟩ := State.passComplete_ok hx' rfl n energy
      refine ⟨_, y, hexec, hsession, hidle, hpasses, hqueue, fun q q' hone hgen hstop hone' => ?_⟩
      rw [hone, hone'] at hrunning
      exact State.passOuts_one ((hps q).trans (s.postscriptOf_atNs t q)) hgen hstop hrunning.symm

end Sys2Proof.Machine
end

section
/-! SUPPORT. What leaves the settings of cameras, image pipelines and codecs alone: accesses to memory, their traffic, reports and signals. -/

namespace Sys2Proof.Machine
open Reg

/-! ### Settings -/

/-- The offset of a register that an image or codec engine acts on: of ISP, VCODEC and CAMERA, of a function's window, of the receipts, and those that the
checks of an access to DRAM read. -/
def Setting (o : Nat) : Prop := (0xC00 ≤ o ∧ o < 0x70018) ∨ (0x70100 ≤ o ∧ o < 0x100000) ∨ o = 0x200004 ∨ (0x300000 ≤ o ∧ o < 0x600000) ∨
  (0xC00600 ≤ o ∧ o < 0xC00700)

/-- `t` has the settings of `s`, and the same values that blocks act on until the next boundary. -/
structure SameSettings (s t : State) : Prop where
  acting : t.acting = s.acting
  rd : ∀ o, Setting o → t.rd o = s.rd o

namespace SameSettings
variable {s t u : State}

theorem refl (s : State) : SameSettings s s := ⟨rfl, fun _ _ => rfl⟩
theorem symm (h : SameSettings s t) : SameSettings t s := ⟨h.acting.symm, fun o ho => (h.rd o ho).symm⟩
theorem trans (h : SameSettings s t) (k : SameSettings t u) : SameSettings s u := ⟨k.acting.trans h.acting, fun o ho => (k.rd o ho).trans (h.rd o ho)⟩

theorem of_regs (hregs : t.regs = s.regs) (hacting : t.acting = s.acting) : SameSettings s t := ⟨hacting, fun o _ => by rw [State.rd, hregs, State.rd]⟩

theorem wr (s : State) {o : Nat} (v : Word) (ho : ¬Setting o) : SameSettings s (s.wr o v) :=
  ⟨rfl, fun i hi => s.rd_wr_other o i v fun h => ho (h ▸ hi)⟩

theorem report (s : State) (e : Err) : SameSettings s (s.report e) := by
  refine ⟨s.report_acting e, fun o ho => s.rd_report e o ?_ ?_⟩ <;> unfold Setting at ho
  · unfold SECURE_SEC_NOTIFY
    omega
  · omega

variable (h : SameSettings s t)
include h

theorem get (g : Fld) (hg : Setting g.reg) : t.get g = s.get g := by simp only [State.get, h.rd _ hg]
theorem on (g : Fld) (hg : Setting g.reg) : t.on g = s.on g := by simp only [State.on, h.get g hg]
theorem rdN (o : Nat) (ho : Setting o) : t.rdN o = s.rdN o := by simp only [State.rdN, h.rd o ho]
theorem cfg (g : Fld) (hg : Setting g.reg) : t.cfg g = s.cfg g := by simp only [State.cfg, State.act, h.acting, h.rd _ hg]
theorem cfgOn (g : Fld) (hg : Setting g.reg) : t.cfgOn g = s.cfgOn g := by simp only [State.cfgOn, h.cfg g hg]
theorem round : t.round = s.round := h.rdN _ (.inl (by decide))

end SameSettings

/-! ### What an engine's accesses and reports leave alone -/

/-- `t` has the settings of `s` and what the image and codec engines hold, and a NOTE that has been reported stays reported. -/
structure Beside (s t : State) : Prop where
  settings : SameSettings s t
  vis : t.vis = s.vis
  note : s.on ERROR_STATUS_NOTE = true → t.on ERROR_STATUS_NOTE = true

/-- A register that is neither a setting nor ERROR.STATUS. -/
def Unset (o : Nat) : Prop := ¬Setting o ∧ o ≠ ERROR_STATUS

theorem Unset.ite (c : Prop) [Decidable c] {f g : Fld} (hf : Unset f.reg) (hg : Unset g.reg) : Unset (if c then f else g).reg := by
  split <;> assumption

/-- The ECC registers of a district are no settings. -/
theorem unset_ecc {d : Nat} (hd : d < 16) : Unset (FLOOR_SC_ECC d) ∧ Unset (FLOOR_ECC_STATUS d) := by
  unfold Unset Setting FLOOR_SC_ECC FLOOR_ECC_STATUS ERROR_STATUS
  omega

theorem unset_poisonStatus : Unset MEMCTL_POISON_STATUS := by unfold Unset Setting; decide
theorem unset_unpopLast : Unset MEMCTL_UNPOP_LAST := by unfold Unset Setting; decide
theorem unset_receiptSat : Unset RINGS_RECEIPT_SAT := by unfold Unset Setting; decide

theorem unset_meshBytes {k : Nat} (hk : k < 4) : Unset (GLOBAL_MESH_CLASS_BYTES k) := by
  unfold Unset Setting GLOBAL_MESH_CLASS_BYTES ERROR_STATUS
  omega

theorem Setting.notClassBytes {o : Nat} (ho : Setting o) : NotClassBytes o := fun k hk => by
  unfold Setting at ho
  unfold MEMCTL_CLASS_BYTES
  omega

namespace Beside
variable {s t u : State}

theorem refl (s : State) : Beside s s := ⟨.refl s, rfl, id⟩
theorem trans (h : Beside s t) (k : Beside t u) : Beside s u := ⟨h.settings.trans k.settings, k.vis.trans h.vis, fun hs => k.note (h.note hs)⟩

theorem ite (c : Prop) [Decidable c] {a b : State} (ha : Beside s a) (hb : Beside s b) : Beside s (if c then a else b) := by
  split <;> assumption

variable (h : Beside s t)
include h

theorem chan (c : Nat) : t.chan c = s.chan c := by rw [State.chan, h.vis, State.chan]

/-- An update of none of this. -/
theorem same (hregs : u.regs = t.regs) (hacting : u.acting = t.acting) (hvis : u.vis = t.vis) : Beside s u :=
  h.trans ⟨.of_regs hregs hacting, hvis, fun ht => by rw [State.on, State.get, State.rd, hregs]; exact ht⟩

/-- A fold over a list leaves all of this alone if each of its steps does. -/
theorem each {α : Type} {f : State → α → State} (hf : ∀ v x, Beside s v → Beside s (f v x)) (l : List α) : Beside s (t.each l f) :=
  List.foldlRecOn l f h fun v hv x _ => hf v x hv

theorem wr {o v} (ho : Unset o) : Beside s (t.wr o v) :=
  h.trans ⟨.wr t v ho.1, rfl, fun ht => by rw [State.on, t.get_wr_other o v _ (Ne.symm ho.2)]; exact ht⟩

theorem wrN {o n} (ho : Unset o) : Beside s (t.wrN o n) := h.wr ho
theorem put {f n} (ho : Unset f.reg) : Beside s (t.put f n) := h.wr ho
theorem putB {f b} (ho : Unset f.reg) : Beside s (t.putB f b) := h.wr ho
theorem add64 {o n} (ho : Unset o) : Beside s (t.add64 o n) := h.wr ho
theorem setFloor {f} : Beside s (t.setFloor f) := h.same rfl rfl rfl
theorem setRnd {f} : Beside s (t.setRnd f) := h.same rfl rfl rfl
theorem setGov {f} : Beside s (t.setGov f) := h.same rfl rfl rfl
theorem wrMem {a b} : Beside s (t.wrMem a b) := h.same rfl rfl rfl
theorem putPoison {l} : Beside s (t.putPoison l) := h.same rfl rfl rfl

/-- A report of a class below FATAL. -/
theorem report {e : Err} {c : ErrClass} (hc : errClass e.code = some c) (hf : c ≠ .fatal) : Beside s (t.report e) :=
  h.trans ⟨.report t e, t.report_vis e, t.on_note_report e hc hf⟩

theorem reportNote {e : Err} (hc : errClass e.code = some .note) : Beside s (t.report e) := h.report hc (by decide)
theorem reportContained {e : Err} (hc : errClass e.code = some .contained) : Beside s (t.report e) := h.report hc (by decide)

/-! ### Device memory -/

theorem accReport {e} : Beside s (t.accReport e) := by
  unfold State.accReport
  split
  · exact (h.reportNote rfl).wrN unset_unpopLast
  · exact h.reportNote rfl
  · exact h.reportNote rfl
  · exact h.reportContained rfl
  · exact h

theorem setPoison {l} : Beside s (t.setPoison l) := h.putPoison.put unset_poisonStatus

theorem writeLine {a b} : Beside s (t.writeLine a b) :=
  Beside.ite _ (h.reportNote rfl)
    (Beside.ite _ (Beside.ite _ h.setPoison.wrMem (h.reportNote rfl)) h.wrMem)

theorem eccWord {x} : Beside s (t.eccWord x) := by
  unfold State.eccWord
  extract_lets cache s₁
  have hs₁ : Beside s s₁ := h.setFloor
  split
  · exact h
  · next d hd =>
    obtain ⟨hcache, hstore⟩ := unset_ecc (sramDistrict_lt hd)
    extract_lets s₂ f s₃
    have hs₂ : Beside s s₂ := Beside.ite _ (hs₁.put hcache) (hs₁.put hstore)
    exact Beside.ite _ ((hs₂.put (Unset.ite _ hcache hstore)).reportNote rfl)
      ((hs₂.putB (Unset.ite _ hcache hstore)).putPoison.reportContained rfl)

theorem freshWord {w} : Beside s (t.freshWord w) := by
  unfold State.freshWord
  extract_lets s₁
  have hs₁ : Beside s s₁ := Beside.ite _ h.setFloor h
  exact Beside.ite _ hs₁.putPoison hs₁

theorem writeSram {a b} : Beside s (t.writeSram a b) := by
  unfold State.writeSram
  extract_lets w s₁
  have hs₁ : Beside s s₁ := h.each (fun _ _ hv => hv.eccWord) _
  exact Beside.ite _ (h.reportNote rfl) (Beside.ite _ (Beside.ite _ h.freshWord.wrMem (Beside.ite _ hs₁ hs₁.wrMem)) h)

theorem store {a b} : Beside s (t.store a b) :=
  Beside.ite _ (h.each (fun _ _ hv => hv.writeSram) _) (h.each (fun _ _ hv => hv.writeLine) _)

theorem fnWrite {f a b} : Beside s (t.fnWrite f a b).1 := by
  unfold State.fnWrite
  split
  · exact h.accReport
  · exact h.store

/-! ### Traffic -/

theorem traffic {k who a n} : Beside s (t.traffic k who a n) := by
  obtain ⟨_, _, heq⟩ := (Spent.traffic t k who a n).parts
  refine h.trans ⟨⟨by rw [heq], fun o ho => t.rd_traffic ho.notClassBytes k who a n⟩, by rw [heq], fun ht => ?_⟩
  rw [State.on, State.get, t.rd_traffic (fun k hk => ?_) k who a n]
  · exact ht
  · show 0xd00004 ≠ 0x200200 + 0x8 * k
    omega

theorem meshMove {k who src dst n} (hk : k < 4) : Beside s (t.meshMove k who src dst n) := (h.add64 (unset_meshBytes hk)).setFloor
theorem portRead {k who router a n} (hk : k < 4) : Beside s (t.portRead k who router a n) := Beside.ite _ (h.traffic.meshMove hk) h
theorem portWrite {k who router a n} (hk : k < 4) : Beside s (t.portWrite k who router a n) := Beside.ite _ (h.traffic.meshMove hk) h

/-! ### Signals -/

theorem signal {src i max? v} : Beside s (t.signal src i max? v) := by
  unfold State.signal
  refine Beside.ite _ ?_ h
  extract_lets c ops s₁ s₂
  have hs₂ : Beside s s₂ := h.wrMem.setRnd
  exact Beside.ite _ ((hs₂.put unset_receiptSat).reportNote rfl) hs₂

theorem camSignal {src f i v unit} : Beside s (t.camSignal src f i v unit) :=
  Beside.ite _ h.signal (h.reportNote rfl)

theorem engineWrite {k f a b} (hk : k < 4) : Beside s (t.engineWrite k f a b).1 := (h.portWrite hk).fnWrite

end Beside

end Sys2Proof.Machine
end

section
/-! SUPPORT. Writes of a capture channel (Vision R329) from states that differ in nothing that they read: they end in the same way and leave the same memory. -/

namespace Sys2Proof.Machine
open Reg

/-! ### What changes neither memory nor poison -/

theorem State.traffic_spares (s : State) (k : Nat) (who : Option (Nat × Nat)) (a n : Nat) :
    (s.traffic k who a n).mem = s.mem ∧ (s.traffic k who a n).poison = s.poison := by
  obtain ⟨_, _, heq⟩ := (Spent.traffic s k who a n).parts
  rw [heq]
  exact ⟨rfl, rfl⟩

theorem State.portRead_mem (s : State) (k : Nat) (who : Option (Nat × Nat)) (router a n : Nat) : (s.portRead k who router a n).mem = s.mem := by
  unfold State.portRead
  split
  · exact (s.traffic_spares k who a n).1
  · rfl

theorem State.portWrite_spares (s : State) (k : Nat) (who : Option (Nat × Nat)) (router a n : Nat) :
    (s.portWrite k who router a n).mem = s.mem ∧ (s.portWrite k who router a n).poison = s.poison := by
  unfold State.portWrite
  split
  · exact s.traffic_spares k who a n
  · exact ⟨rfl, rfl⟩

theorem State.accReport_spares (s : State) (e : AccErr) : (s.accReport e).mem = s.mem ∧ (s.accReport e).poison = s.poison := by
  cases e with
  | window => exact ⟨rfl, rfl⟩
  | poison => exact ⟨rfl, rfl⟩
  | unpopulated a => exact ⟨s.report_mem _, s.report_poison _⟩
  | region a => exact ⟨s.report_mem _, s.report_poison _⟩
  | domainDown d => exact ⟨s.report_mem _, s.report_poison _⟩
  | host => exact ⟨s.report_mem _, s.report_poison _⟩

/-! ### States that a write of DRAM cannot tell apart -/

/-- The two states have the same settings, memory and poison. -/
structure Alike (s t : State) : Prop where
  settings : SameSettings s t
  mem : t.mem = s.mem
  poison : t.poison = s.poison

namespace Alike
variable {s t u : State}

theorem refl (s : State) : Alike s s := ⟨.refl s, rfl, rfl⟩
theorem symm (h : Alike s t) : Alike t s := ⟨h.settings.symm, h.mem.symm, h.poison.symm⟩
theorem trans (h : Alike s t) (k : Alike t u) : Alike s u := ⟨h.settings.trans k.settings, k.mem.trans h.mem, k.poison.trans h.poison⟩

theorem report (s : State) (e : Err) : Alike s (s.report e) := ⟨.report s e, s.report_mem e, s.report_poison e⟩
theorem accReport (s : State) (e : AccErr) : Alike s (s.accReport e) := ⟨(Beside.refl s).accReport.settings, (s.accReport_spares e).1, (s.accReport_spares e).2⟩
theorem setVis (s : State) (f : VisionSt → VisionSt) : Alike s (s.setVis f) := ⟨.of_regs rfl rfl, rfl, rfl⟩
theorem setChan (s : State) (c : Nat) (x : CamChan) : Alike s (s.setChan c x) := setVis s _
theorem setGov (s : State) (f : GovSt → GovSt) : Alike s (s.setGov f) := ⟨.of_regs rfl rfl, rfl, rfl⟩

theorem portWrite (s : State) {k : Nat} (hk : k < 4) (who : Option (Nat × Nat)) (router a n : Nat) : Alike s (s.portWrite k who router a n) :=
  ⟨((Beside.refl s).portWrite hk).settings, (s.portWrite_spares k who router a n).1, (s.portWrite_spares k who router a n).2⟩

variable (h : Alike s t)
include h

theorem inReceipts (a : Nat) : t.inReceipts a = s.inReceipts a := by
  have hbase : Setting RINGS_RECEIPT_BASE := .inl (by decide)
  simp only [State.inReceipts, h.settings.cfgOn RINGS_RECEIPT_BASE_EN hbase, h.settings.cfg RINGS_RECEIPT_BASE_ADDR hbase]

theorem wrMem (a : Nat) (b : Bytes) : Alike (s.wrMem a b) (t.wrMem a b) :=
  ⟨⟨h.settings.acting, h.settings.rd⟩, congrArg (writeBytes · a b) h.mem, h.poison⟩

theorem setPoison (l : List Nat) : Alike (s.setPoison l) (t.setPoison l) := by
  have hout : ∀ v : State, SameSettings v (v.setPoison l) := fun v => (Beside.refl v).setPoison.settings
  exact ⟨((hout s).symm.trans h.settings).trans (hout t), h.mem, rfl⟩

theorem writeLine (a : Nat) (b : Bytes) : Alike (s.writeLine a b) (t.writeLine a b) := by
  have hreport : ∀ e f, Alike (s.report e) (t.report f) := fun e f => ((report s e).symm.trans h).trans (report t f)
  unfold State.writeLine
  rw [h.inReceipts a, h.poison]
  split
  · exact hreport _ _
  · split
    · split
      · exact (h.setPoison _).wrMem a b
      · exact hreport _ _
    · exact h.wrMem a b

/-- Lines of DRAM. -/
theorem store {a : Nat} {b : Bytes} (ha : inSram a b.length = false) : Alike (s.store a b) (t.store a b) := by
  unfold State.store
  rw [ha, if_neg Bool.false_ne_true, if_neg Bool.false_ne_true]
  generalize chunksOf 64 a b = l
  induction l generalizing s t with
  | nil => exact h
  | cons x l ih => exact ih (h.writeLine x.1 x.2)

theorem inWindow {f : Nat} (hf : f < 32) (a n : Nat) : t.inWindow f a n = s.inWindow f a n := by
  have hbase : Setting (GLOBAL_FN_WIN_BASE f) := .inl (by unfold GLOBAL_FN_WIN_BASE; omega)
  have hlimit : Setting (GLOBAL_FN_WIN_LIMIT f) := .inl (by unfold GLOBAL_FN_WIN_LIMIT; omega)
  simp only [State.inWindow, h.settings.on (GLOBAL_FN_WIN_BASE_RELAY_EN f) hbase, h.settings.on (GLOBAL_FN_WIN_BASE_EN f) hbase,
    h.settings.get (GLOBAL_FN_WIN_BASE_BASE f) hbase, h.settings.get (GLOBAL_FN_WIN_LIMIT_LIMIT f) hlimit]

theorem inRegion (a n : Nat) : t.inRegion a n = s.inRegion a n := by
  have hregion : ∀ j, j < 8 → Setting (SECURE_SEC_REGION_BASE j) ∧ Setting (SECURE_SEC_REGION_LIMIT j) := fun j hj => by
    unfold Setting SECURE_SEC_REGION_BASE SECURE_SEC_REGION_LIMIT
    omega
  unfold State.inRegion
  rw [Bool.eq_iff_iff, List.any_eq_true, List.any_eq_true]
  refine exists_congr fun j => and_congr_right fun hj => ?_
  obtain ⟨hbase, hlimit⟩ := hregion j (List.mem_range.mp hj)
  rw [h.settings.cfgOn (SECURE_SEC_REGION_BASE_EN j) hbase, h.settings.cfg (SECURE_SEC_REGION_BASE_BASE j) hbase,
    h.settings.cfg (SECURE_SEC_REGION_LIMIT_LIMIT j) hlimit]

/-- The checks of an access below the SRAM window. -/
theorem fnCheck {f a n : Nat} (hf : f < 32) (ha : a + n ≤ 0x2000000000) : t.fnCheck f a n = s.fnCheck f a n := by
  have hboot : Setting GLOBAL_BOOT_STATUS := .inl (by decide)
  have hdx : Setting MEMCTL_DX_STATUS := .inr (.inr (.inl rfl))
  have hsram : inSram a n = false := by simp [inSram]; omega
  have hlp : t.lpOk a n = s.lpOk a n := by
    simp only [State.lpOk, h.settings.on GLOBAL_BOOT_STATUS_LP_FAIL hboot, h.settings.on GLOBAL_BOOT_STATUS_LP_TRAINED hboot]
  have hdxOk : t.dxOk a n = s.dxOk a n := by
    simp only [State.dxOk, h.settings.get MEMCTL_DX_STATUS_STATE hdx, h.settings.get MEMCTL_DX_STATUS_SIZE_GIB hdx]
  simp only [State.fnCheck, State.devCheck, h.inWindow hf, h.inRegion, hlp, hdxOk, hsram, Bool.false_eq_true, if_false]

/-- A write of DRAM. -/
theorem fnWrite {f a : Nat} {b : Bytes} (hf : f < 32) (ha : a + b.length ≤ 0x2000000000) :
    Alike (s.fnWrite f a b).1 (t.fnWrite f a b).1 ∧ (t.fnWrite f a b).2 = (s.fnWrite f a b).2 := by
  have hsram : inSram a b.length = false := by simp [inSram]; omega
  unfold State.fnWrite
  rw [h.fnCheck hf ha]
  split
  · exact ⟨((accReport s _).symm.trans h).trans (accReport t _), rfl⟩
  · exact ⟨h.store hsram, rfl⟩

end Alike

/-! ### Writes of a capture channel -/

theorem setting_chan {c : Nat} (hc : c < 24) : Setting (CAMERA_CHAN_CFG c) ∧ Setting (CAMERA_CHAN_BUF_BASE c) ∧ Setting (CAMERA_CHAN_REC_BASE c) ∧
    Setting (CAMERA_CHAN_BUF c) ∧ Setting (CAMERA_CHAN_RECEIPTS c) ∧ Setting (CAMERA_CHAN_FRAMES c) ∧ Setting (CAMERA_CHAN_DROPS c) := by
  unfold Setting CAMERA_CHAN_CFG CAMERA_CHAN_BUF_BASE CAMERA_CHAN_REC_BASE CAMERA_CHAN_BUF CAMERA_CHAN_RECEIPTS CAMERA_CHAN_FRAMES CAMERA_CHAN_DROPS
  omega

theorem State.chanClass_lt (s : State) (c : Nat) : s.cfg (CAMERA_CHAN_CFG_CLASS c) < 4 := Word.bits_lt _ 14 13
theorem State.chanFn_lt (s : State) (c : Nat) : s.chanFn c < 32 := Word.bits_lt _ 4 0

theorem Alike.camWrite {s t : State} (h : Alike s t) {c : Nat} (hc : c < 24) (a : Nat) (b : Bytes) :
    Alike (s.camWrite c a b).1 (t.camWrite c a b).1 ∧ (t.camWrite c a b).2 = (s.camWrite c a b).2 := by
  have hclass : t.cfg (CAMERA_CHAN_CFG_CLASS c) = s.cfg (CAMERA_CHAN_CFG_CLASS c) := h.settings.cfg _ (setting_chan hc).1
  have hfn : t.chanFn c = s.chanFn c := h.settings.cfg _ (setting_chan hc).1
  unfold State.camWrite
  split
  · exact ⟨h, rfl⟩
  · split
    · exact ⟨h, rfl⟩
    · rw [hclass, hfn]
      have hport : ∀ v : State, Alike v (v.portWrite (s.cfg (CAMERA_CHAN_CFG_CLASS c)) none meshMedia a b.length) := fun v =>
        Alike.portWrite v (s.chanClass_lt c) _ _ _ _
      exact (((hport s).symm.trans h).trans (hport t)).fnWrite (s.chanFn_lt c) (by omega)

theorem Beside.camWrite {s t : State} (h : Beside s t) {c a : Nat} {b : Bytes} : Beside s (t.camWrite c a b).1 := by
  unfold State.camWrite
  split
  · exact h
  · split
    · exact h
    · exact (h.portWrite (t.chanClass_lt c)).fnWrite

/-- A write that fails leaves memory as it was. -/
theorem State.camWrite_mem_of_fails (s : State) {c a : Nat} {b : Bytes} (hfail : (s.camWrite c a b).2 ≠ none) : (s.camWrite c a b).1.mem = s.mem := by
  unfold State.camWrite at hfail ⊢
  split
  · rfl
  · split
    · rfl
    · next hempty hlong =>
      rw [if_neg hempty, if_neg hlong] at hfail
      unfold State.fnWrite at hfail ⊢
      split
      · exact (State.accReport_spares _ _).1.trans (s.portWrite_spares _ _ _ _ _).1
      · next hcheck => simp [hcheck] at hfail

end Sys2Proof.Machine
end

section
/-! SUPPORT. The frames of a capture channel (Vision R321 to R325): the frame that it receives, the start of a frame, and a channel that a failed write
disables. -/

namespace Sys2Proof.Machine
open Reg

/-! ### Channels and sessions of the state -/

@[simp] theorem State.chan_setChan_same (s : State) (c : Nat) (x : CamChan) : (s.setChan c x).chan c = x := SMap.get_set_same _ _ _ _
@[simp] theorem State.enc_setEnc_same (s : State) (e : Nat) (x : EncSt) : (s.setEnc e x).enc e = x := SMap.get_set_same _ _ _ _
@[simp] theorem State.chan_wrN (s : State) (o n c : Nat) : (s.wrN o n).chan c = s.chan c := rfl
@[simp] theorem State.chan_report (s : State) (e : Err) (c : Nat) : (s.report e).chan c = s.chan c := by rw [State.chan, s.report_vis, State.chan]
@[simp] theorem State.setChan_mem (s : State) (c : Nat) (x : CamChan) : (s.setChan c x).mem = s.mem := rfl
@[simp] theorem State.chanOn_setChan (s : State) (c d : Nat) (x : CamChan) : (s.setChan c x).chanOn d = s.chanOn d := rfl
@[simp] theorem State.bufAddr_setChan (s : State) (c d k : Nat) (x : CamChan) : (s.setChan c x).bufAddr d k = s.bufAddr d k := rfl
@[simp] theorem State.bufFree_setChan (s : State) (c d k : Nat) (x : CamChan) : (s.setChan c x).bufFree d k = s.bufFree d k := rfl
@[simp] theorem State.round_setChan (s : State) (c : Nat) (x : CamChan) : (s.setChan c x).round = s.round := rfl
@[simp] theorem State.clearNow_mem (s : State) (f : Fld) : (s.clearNow f).mem = s.mem := rfl
@[simp] theorem State.on_setChan (s : State) (c : Nat) (x : CamChan) (g : Fld) : (s.setChan c x).on g = s.on g := rfl

/-! ### The frame that a channel receives -/

/-- The one frame of a channel, whose input has not ended, changes. -/
theorem State.onFrame_one {s : State} {c : Nat} {f : CamFrame} (g : CamFrame → CamFrame) (hf : (s.chan c).frames = [f]) (hpast : f.past = false) :
    s.onFrame c g = s.setChan c { s.chan c with frames := [g f], last := s.round } := by
  simp only [State.onFrame, hf, onLast, hpast, Bool.false_eq_true, if_false]

/-- A channel that receives no frame has none whose input could end. -/
theorem State.endInput_idle {s : State} {c : Nat} (cause : Nat) (hf : (s.chan c).frames = []) :
    s.endInput c cause = s.setChan c { s.chan c with last := s.round } := by
  simp only [State.endInput, State.onFrame, hf, onLast]

/-- The input of the frame that a channel receives ends. -/
theorem State.endInput_one {s : State} {c : Nat} {f : CamFrame} (cause : Nat) (hf : (s.chan c).frames = [f]) (hpast : f.past = false) :
    ∃ g, s.endInput c cause = s.setChan c { s.chan c with frames := [g], last := s.round } := ⟨_, State.onFrame_one _ hf hpast⟩

/-- The cause of damage leaves the rest of a frame alone. -/
theorem CamFrame.damage_cases (f : CamFrame) (cause : Nat) : ∃ n, f.damage cause = { f with cause := n } := by
  unfold CamFrame.damage
  split
  · exact ⟨cause, rfl⟩
  · exact ⟨f.cause, rfl⟩

/-! ### The start of a frame (Vision R323, R324) -/

theorem setting_bankOwner {i : Nat} (hi : i < 2 ^ 17) : Setting (RINGS_RECEIPT_BANK_OWNER (i / 8192)) := by
  unfold Setting RINGS_RECEIPT_BANK_OWNER
  omega

theorem SameSettings.receipt {s t : State} (h : SameSettings s t) (hmem : t.mem = s.mem) (i : Nat) : t.receipt i = s.receipt i := by
  have hbase : Setting RINGS_RECEIPT_BASE := .inl (by decide)
  simp only [State.receipt, State.receiptAddr, State.rdMem, hmem, h.cfg RINGS_RECEIPT_BASE_ADDR hbase]

theorem SameSettings.fnReceipt {s t : State} (h : SameSettings s t) (hmem : t.mem = s.mem) (f : Nat) {i : Nat} (hi : i < 2 ^ 17) :
    t.fnReceipt f i = s.fnReceipt f i := by
  unfold State.fnReceipt State.bankOwner
  rw [h.receipt hmem, h.cfg (RINGS_RECEIPT_BANK_OWNER_FUNCTION (i / 8192)) (setting_bankOwner hi)]

theorem setting_enc {e : Nat} (he : e < 8) : Setting (VCODEC_ENC_CFG e) ∧ Setting (VCODEC_ENC_BS_BASE e) ∧ Setting (VCODEC_ENC_OUT e) ∧
    Setting (VCODEC_ENC_AU_BASE e) ∧ Setting (VCODEC_ENC_BS_SIZE e) := by
  unfold Setting VCODEC_ENC_CFG VCODEC_ENC_BS_BASE VCODEC_ENC_OUT VCODEC_ENC_AU_BASE VCODEC_ENC_BS_SIZE
  omega

theorem SameSettings.encHolds {s t : State} (h : SameSettings s t) (hencs : t.vis.encs = s.vis.encs) (c k : Nat) : t.encHolds c k = s.encHolds c k := by
  unfold State.encHolds
  rw [Bool.eq_iff_iff, List.any_eq_true, List.any_eq_true]
  refine exists_congr fun e => and_congr_right fun he => ?_
  have hcfg := (setting_enc (List.mem_range.mp he)).1
  simp only [State.encOf, State.enc, hencs, h.cfgOn (VCODEC_ENC_CFG_ENABLE e) hcfg, h.cfg (VCODEC_ENC_CFG_CHANNEL e) hcfg]

section
variable {s t : State} (h : SameSettings s t) {c : Nat} (hc : c < 24)
include h hc

theorem SameSettings.chanOn : t.chanOn c = s.chanOn c := h.cfgOn (CAMERA_CHAN_CFG_ENABLE c) (setting_chan hc).1
theorem SameSettings.chanSource : t.chanSource c = s.chanSource c := h.cfg (CAMERA_CHAN_CFG_SOURCE c) (setting_chan hc).1
theorem SameSettings.chanFn : t.chanFn c = s.chanFn c := h.cfg (CAMERA_CHAN_CFG_FUNCTION c) (setting_chan hc).1

theorem SameSettings.chanCount : t.chanCount c = s.chanCount c := by
  obtain ⟨_, _, _, hbuf, _⟩ := setting_chan hc
  simp only [State.chanCount, h.cfg (CAMERA_CHAN_BUF_COUNT_M1 c) hbuf]

theorem SameSettings.chanStride : t.chanStride c = s.chanStride c := by
  obtain ⟨_, _, _, hbuf, _⟩ := setting_chan hc
  simp only [State.chanStride, h.cfg (CAMERA_CHAN_BUF_STRIDE c) hbuf]

/-- The tests of a buffer read settings, a receipt and what the encode sessions hold. -/
theorem SameSettings.bufFree (hmem : t.mem = s.mem) (hencs : t.vis.encs = s.vis.encs) (k : Nat) : t.bufFree c k = s.bufFree c k := by
  obtain ⟨_, _, _, _, hreceipts, _⟩ := setting_chan hc
  simp only [State.bufFree, h.chanCount hc, h.chanFn hc, h.encHolds hencs, h.cfgOn (CAMERA_CHAN_RECEIPTS_CONSUME_EN c) hreceipts,
    h.cfg (CAMERA_CHAN_RECEIPTS_CONSUME c) hreceipts,
    h.fnReceipt hmem (s.chanFn c) (show s.cfg (CAMERA_CHAN_RECEIPTS_CONSUME c) < 2 ^ 17 from Word.bits_lt _ 48 32)]

end

/-- A frame begins in a free buffer. -/
theorem State.beginFrame_free {s : State} {c : Nat} (f : CamFrame) (hfree : s.bufFree c (s.chan c).next = true) :
    ∃ kept, s.beginFrame c f none = s.setChan c { next := (s.chan c).next + 1, frames := (s.chan c).frames ++
      [{ f with k := (s.chan c).next, sof := s.round, dropped := false }], last := s.round, kept := kept } := by
  simp only [State.beginFrame, hfree, Option.isNone_none, Option.isSome_none, Bool.not_true, Bool.and_false, Bool.or_self, Bool.false_eq_true, if_false]
  exact ⟨_, rfl⟩

/-- A frame that finds its buffer in use is dropped, counted and reported. -/
theorem State.beginFrame_busy {s : State} {c : Nat} (f : CamFrame) (hbusy : s.bufFree c (s.chan c).next = false) :
    s.beginFrame c f none = ((s.setChan c { next := (s.chan c).next + 1, frames := (s.chan c).frames ++
      [{ f with k := (s.chan c).next, sof := s.round, dropped := true, cause := 8 }], last := s.round, kept := (s.chan c).kept }).addSat
      (CAMERA_CHAN_DROPS c) 1).report { code := Code.CAM_FRAME_DROP, unit := c } := by
  simp only [State.beginFrame, State.countDrop, hbusy, Option.isNone_none, Option.isSome_none, Bool.not_false, Bool.and_true, Bool.or_true, if_true]

/-! ### A channel that a failed write disables (Vision R329) -/

theorem State.cfgOn_clearNow (s : State) (f : Fld) (hl : f.lo ≤ f.hi) (hh : f.hi < 64) : (s.clearNow f).cfgOn f = false := by
  have hfind : (s.acting.filter fun e => e.1 != f.reg).find? (fun e => e.1 == f.reg) = none := by
    rw [List.find?_filter]
    simp
  have hact : (s.clearNow f).act f.reg = (s.clearNow f).rd f.reg := by
    show (match (s.acting.filter fun e => e.1 != f.reg).find? (fun e => e.1 == f.reg) with | some e => e.2 | none => _) = _
    rw [hfind]
  have hget : (s.clearNow f).get f = 0 := (State.get_put_same _ f 0 hl hh).trans (Nat.zero_mod _)
  rw [State.cfgOn, State.cfg, hact, ← State.get, hget]
  rfl

theorem errClass_camMemFault : errClass Code.CAM_MEM_FAULT = some .contained := by decide

/-- A channel with a failed write is off, holds no frame, and is CONTAINED. -/
theorem State.memFault_spec (s : State) {c : Nat} (hc : c < 24) : (s.memFault c).mem = s.mem ∧ (s.memFault c).chanOn c = false ∧
    ((s.memFault c).chan c).frames = [] ∧ (s.memFault c).on ERROR_STATUS_CONTAINED = true := by
  unfold State.memFault
  refine ⟨?_, ?_, ?_, State.on_report_contained _ _ errClass_camMemFault⟩
  · rw [State.report_mem, State.setChan_mem, State.clearNow_mem]
  · refine ((SameSettings.report ((s.clearNow (CAMERA_CHAN_CFG_ENABLE c)).setChan c {}) _).chanOn hc).trans ?_
    rw [State.chanOn_setChan]
    exact s.cfgOn_clearNow (CAMERA_CHAN_CFG_ENABLE c) (Nat.le_refl 31) (by decide : 31 < 64)
  · rw [State.chan_report, State.chan_setChan_same]

theorem State.on_note_memFault {s : State} {c : Nat} (hn : s.on ERROR_STATUS_NOTE = true) : (s.memFault c).on ERROR_STATUS_NOTE = true := by
  unfold State.memFault
  refine State.on_note_report _ _ errClass_camMemFault (by decide) ?_
  have hreg : ERROR_STATUS ≠ CAMERA_CHAN_CFG c := by
    unfold ERROR_STATUS CAMERA_CHAN_CFG
    omega
  rw [State.on_setChan, State.on, State.clearNow, State.get_put_other _ _ _ _ hreg]
  exact hn

end Sys2Proof.Machine
end

section
/-! SUPPORT. CSI-2 packets (Vision R321 to R324, R330, R332): what a packet with a usable header does to the one channel that takes it. -/

namespace Sys2Proof.Machine
open Reg

/-! ### The packet and its channel -/

section
variable {s : State} {p : Csi2} (hport : s.cfgOn (CAMERA_PORT_CFG_ENABLE p.port.val) = true) (hup : s.domUp 20 = true)
include hport hup

theorem execCsi2Packet_good (hecc : p.ecc = .good) : exec (.csi2Packet p) s = .next (s.packetIn p) := by
  show Host.Outcome.next (s.csi2 p) = _
  simp only [State.csi2, hport, hup, hecc, Bool.not_true, Bool.or_self, Bool.false_eq_true, if_false]

theorem execCsi2Packet_corrected (hecc : p.ecc = .corrected) : exec (.csi2Packet p) s = .next ((s.put (CAMERA_PORT_ERRORS_ECC_CORR p.port.val)
    (min (s.get (CAMERA_PORT_ERRORS_ECC_CORR p.port.val) + 1) 0xFFFF)).packetIn p) := by
  show Host.Outcome.next (s.csi2 p) = _
  simp only [State.csi2, hport, hup, hecc, Bool.not_true, Bool.or_self, Bool.false_eq_true, if_false]

end

theorem execCsi2Packet_disabled {s : State} {p : Csi2} (hport : s.cfgOn (CAMERA_PORT_CFG_ENABLE p.port.val) = false) :
    exec (.csi2Packet p) s = .next s := by
  show Host.Outcome.next (s.csi2 p) = _
  simp only [State.csi2, hport, Bool.not_false, Bool.true_or, if_true]

/-- A frame start reaches the one bypass channel that takes it, which receives no frame. -/
theorem State.packetIn_frameStart {s : State} {p : Csi2} {c n : Nat} (hbody : p.body = .frameStart n)
    (htakes : (List.range 24).filter (fun j => s.chanTakes j p false) = [c]) (hsource : s.chanSource c = 1) (hidle : (s.chan c).frames = []) :
    s.packetIn p = (s.setChan c { s.chan c with last := s.round }).beginFrame c { k := 0, sof := 0, ts := n } none := by
  have hsource' : (s.setChan c { s.chan c with last := s.round }).chanSource c = 1 := hsource
  simp only [State.packetIn, hbody, htakes, State.each, List.foldl_cons, List.foldl_nil, State.endInput_idle 0 hidle, hsource', if_true]

/-- A line reaches the one channel that takes it, which receives a frame. -/
theorem State.packetIn_line {s : State} {p : Csi2} {c : Nat} {b : Bytes} {f : CamFrame} (hbody : p.body = .line b true)
    (htakes : (List.range 24).filter (fun j => s.chanTakes j p true) = [c]) (hframe : (s.chan c).frames = [f]) (hpast : f.past = false) :
    s.packetIn p = if s.chanSource c = 1 then s.bypassLine c f b true else s.rawLine c f b true := by
  simp only [State.packetIn, hbody, htakes, State.each, List.foldl_cons, List.foldl_nil, State.lineIn, hframe, List.getLast?_singleton, hpast,
    Bool.true_or, Bool.false_eq_true, if_true, if_false]

/-- A frame end writes no register. -/
theorem State.rd_packetIn_frameEnd {s : State} {p : Csi2} (hbody : p.body = .frameEnd) (o : Nat) : (s.packetIn p).rd o = s.rd o := by
  simp only [State.packetIn, hbody]
  exact List.foldlRecOn (motive := fun t : State => t.rd o = s.rd o) _ _ rfl fun t ht c _ => ht

/-! ### Lines of a bypass frame (Vision R325, R329, R330) -/

section
variable {s : State} {c : Nat} {f : CamFrame} {b : Bytes} (hframe : (s.chan c).frames = [f]) (hpast : f.past = false) (hdropped : f.dropped = false)
  (hcut : f.cut = none)
include hframe hpast hdropped hcut

theorem State.bypassLine_beyond (hlong : s.chanStride c < f.off + b.length) :
    s.bypassLine c f b true = s.setChan c { s.chan c with frames := [{ f.damage 4 with cut := some f.lines }], last := s.round } := by
  simp only [State.bypassLine, hdropped, hcut, hlong, Option.isSome_none, Bool.or_self, Bool.false_eq_true, if_true, if_false,
    State.onFrame_one _ hframe hpast]

/-- What the line makes of the frame, and its write. -/
theorem State.bypassLine_within (hfits : f.off + b.length ≤ s.chanStride c) :
    let u := s.setChan c { s.chan c with frames := [{ f with lines := f.lines + 1, off := f.off + round64 b.length }], last := s.round }
    let w := u.camWrite c (s.bufAddr c f.k + f.off) b
    s.bypassLine c f b true = if w.2 = none then w.1 else w.1.memFault c := by
  have hlong : ¬s.chanStride c < f.off + b.length := by omega
  simp only [State.bypassLine, hdropped, hcut, hlong, Option.isSome_none, Bool.or_self, Bool.false_eq_true, if_true, if_false,
    State.onFrame_one _ hframe hpast, State.bufAddr_setChan]
  generalize State.camWrite _ c _ b = w
  obtain ⟨v, e⟩ := w
  cases e with
  | none => rfl
  | some e => rfl

end

/-! ### Lines of a raw frame (Vision R332) -/

/-- A line of the window that finds the stream's part of the input memory full. -/
theorem State.rawLine_full {s : State} {c : Nat} {f : CamFrame} {b : Bytes} (hframe : (s.chan c).frames = [f]) (hpast : f.past = false)
    (hdropped : f.dropped = false) (hcut : f.cut = none) (hlo : f.window.2.2.1 ≤ f.lines) (hhi : f.lines < f.window.2.2.2)
    (hfull : s.cfg (ISP_STREAM_CFG_IN_LINES (s.cfg (CAMERA_CHAN_CFG_INDEX c))) ≤ f.inMemory) :
    s.rawLine c f b true = (s.setChan c { s.chan c with frames :=
      [{ f.damage 2 with cut := some f.lines, lines := f.lines + 1 }], last := s.round }).report { code := Code.CAM_OVERFLOW, unit := c } := by
  obtain ⟨n, hdamage⟩ := f.damage_cases 2
  simp only [State.rawLine, hframe, hdropped, hcut, hlo, hhi, hdamage, List.map_cons, List.map_nil, List.foldl_cons, List.foldl_nil, Nat.zero_add,
    hfull, Option.isSome_none, decide_true, Bool.and_self, Bool.not_true, Bool.or_self, Bool.false_eq_true, if_true, if_false,
    State.onFrame_one _ hframe hpast]

/-! ### What the packet makes of the state -/

theorem errClass_camFrameDrop : errClass Code.CAM_FRAME_DROP = some .note := by decide
theorem errClass_camOverflow : errClass Code.CAM_OVERFLOW = some .note := by decide

section
variable {s : State} {c : Nat}

/-- The bypass channel of a frame start begins its frame in a free buffer. -/
theorem State.frameStart_begins {n : Nat} (hframes : (s.chan c).frames = []) (hfree : s.bufFree c (s.chan c).next = true) :
    let t := (s.setChan c { s.chan c with last := s.round }).beginFrame c { k := 0, sof := 0, ts := n } none
    t.regs = s.regs ∧ t.mem = s.mem ∧ (t.chan c).next = (s.chan c).next + 1 ∧ (t.chan c).frames = [{ k := (s.chan c).next, sof := s.round, ts := n }] := by
  intro t
  obtain ⟨kept, heq⟩ := State.beginFrame_free (s := s.setChan c { s.chan c with last := s.round }) (c := c) { k := 0, sof := 0, ts := n }
    (by simpa using hfree)
  have ht : t = _ := heq
  simp only [ht, State.chan_setChan_same, hframes, List.nil_append]
  exact ⟨rfl, rfl, trivial, rfl⟩

theorem State.frameStart_drops {n : Nat} (hc : c < 24) (hframes : (s.chan c).frames = []) (hbusy : s.bufFree c (s.chan c).next = false) :
    let t := (s.setChan c { s.chan c with last := s.round }).beginFrame c { k := 0, sof := 0, ts := n } none
    t.mem = s.mem ∧ (t.chan c).next = (s.chan c).next + 1 ∧
      (t.chan c).frames = [{ k := (s.chan c).next, sof := s.round, ts := n, dropped := true, cause := 8 }] ∧ t.on ERROR_STATUS_NOTE = true ∧
      t.rdN (CAMERA_CHAN_DROPS c) = min (s.rdN (CAMERA_CHAN_DROPS c) + 1) 0xFFFFFFFF := by
  intro t
  obtain ⟨_, _, _, _, _, _, hdrops⟩ := setting_chan hc
  have ht : t = _ := State.beginFrame_busy (s := s.setChan c { s.chan c with last := s.round }) (c := c) { k := 0, sof := 0, ts := n }
    (by simpa using hbusy)
  rw [ht, (SameSettings.report _ _).rdN _ hdrops, State.rdN_addSat_same, State.report_mem, State.chan_report]
  simp only [State.addSat, State.chan_wrN, State.chan_setChan_same, hframes, List.nil_append]
  exact ⟨rfl, trivial, rfl, State.on_report_note _ _ errClass_camFrameDrop, rfl⟩

end

end Sys2Proof.Machine
end

section
/-! SUPPORT. The end of a frame (Vision R323, R325, R329): the write of its bytes, its record and CHAN_FRAMES, and the loss of a source. -/

namespace Sys2Proof.Machine
open Reg

/-! ### Encode sessions that take a finished frame (Vision R341) -/

/-- The sessions change. -/
def State.setEncs (s : State) (l : SMap EncSt) : State := s.setVis fun v => { v with encs := l }

theorem State.encTake_eq (s : State) (e : Nat) : ∃ encs, s.encTake e = s.setEncs encs := by
  unfold State.encTake
  extract_lets x c div
  split
  · exact ⟨s.vis.encs, rfl⟩
  · split
    · exact ⟨_, rfl⟩
    · exact ⟨s.vis.encs, rfl⟩

/-- A session that takes a frame keeps its place in the bit stream, its count and its want of an I picture. -/
theorem State.enc_encTake (s : State) (e : Nat) : ((s.encTake e).enc e).n = (s.enc e).n ∧ ((s.encTake e).enc e).off = (s.enc e).off ∧
    ((s.encTake e).enc e).force = (s.enc e).force := by
  unfold State.encTake
  extract_lets x c div
  split
  · exact ⟨rfl, rfl, rfl⟩
  · split
    · rw [State.enc_setEnc_same]
      exact ⟨rfl, rfl, rfl⟩
    · exact ⟨rfl, rfl, rfl⟩

theorem State.each_encTake (s : State) (l : List Nat) : ∃ encs, (s.each l fun s e => s.encTake e) = s.setEncs encs := by
  refine List.foldlRecOn (motive := fun t : State => ∃ encs, t = s.setEncs encs) l _ ⟨s.vis.encs, rfl⟩ fun t ht e _ => ?_
  obtain ⟨encs, rfl⟩ := ht
  obtain ⟨encs', htake⟩ := (s.setEncs encs).encTake_eq e
  exact ⟨encs', htake⟩

/-! ### What leaves the frames of a channel alone -/

/-- `t` has the frames of a channel as `s` has them, and a NOTE that has been reported stays reported. -/
structure FramesStay (c : Nat) (s t : State) : Prop where
  frames : (t.chan c).frames = (s.chan c).frames
  note : s.on ERROR_STATUS_NOTE = true → t.on ERROR_STATUS_NOTE = true

namespace FramesStay
variable {c : Nat} {s t u : State}

theorem refl (s : State) : FramesStay c s s := ⟨rfl, id⟩
theorem trans (h : FramesStay c s t) (k : FramesStay c t u) : FramesStay c s u := ⟨k.frames.trans h.frames, fun hs => k.note (h.note hs)⟩
theorem of_beside (h : Beside s t) : FramesStay c s t := ⟨congrArg CamChan.frames (h.chan c), h.note⟩

theorem ite (p : Prop) [Decidable p] {a b : State} (ha : FramesStay c s a) (hb : FramesStay c s b) : FramesStay c s (if p then a else b) := by
  split <;> assumption

variable (h : FramesStay c s t)
include h

theorem wrN {o n} (ho : o ≠ ERROR_STATUS) : FramesStay c s (t.wrN o n) :=
  h.trans ⟨rfl, fun ht => by rw [State.on, t.get_wrN_other o n _ (Ne.symm ho)]; exact ht⟩

theorem setChan {x : CamChan} (hx : x.frames = (t.chan c).frames) : FramesStay c s (t.setChan c x) :=
  h.trans ⟨(congrArg CamChan.frames (t.chan_setChan_same c x)).trans hx, id⟩

theorem camSignal {src f i v unit} : FramesStay c s (t.camSignal src f i v unit) := h.trans (of_beside (Beside.refl t).camSignal)
theorem setUpdate {g} (hg : CAMERA_SET_COUNT g ≠ ERROR_STATUS) : FramesStay c s (t.setUpdate g) := (h.wrN hg).camSignal

theorem setUpdates {l : List Nat} (hl : ∀ g ∈ l, g < 8) : FramesStay c s (t.each l fun s g => s.setUpdate g) :=
  List.foldlRecOn l _ h fun v hv g hg => hv.setUpdate (by
    have := hl g hg
    unfold CAMERA_SET_COUNT ERROR_STATUS
    omega)

theorem encTakes {l : List Nat} : FramesStay c s (t.each l fun s e => s.encTake e) := by
  obtain ⟨encs, heq⟩ := t.each_encTake l
  rw [heq]
  exact h.trans ⟨rfl, id⟩

end FramesStay

/-! ### The record of a frame -/

/-- CHAN_FRAMES, the receipt, the frame sets and the encode sessions, once the record of a frame has been written. -/
def State.frameCounted (s : State) (c : Nat) (f : CamFrame) : State :=
  let s := s.wrN (CAMERA_CHAN_FRAMES c) (f.k + 1)
  let s := if s.cfgOn (CAMERA_CHAN_RECEIPTS_FRAME_EN c) then s.camSignal (3, c) (s.chanFn c) (s.cfg (CAMERA_CHAN_RECEIPTS_FRAME c)) (f.k + 1) c else s
  let s := s.setChan c { s.chan c with kept := if f.dropped then (s.chan c).kept else (s.chan c).kept ++ [⟨f.k, (s.picture c f).1, (s.picture c f).2⟩] }
  let s := s.each ((List.range 8).filter fun g => s.cfgOn (CAMERA_SET_CFG_ENABLE g) && nbit (s.cfg (CAMERA_SET_CFG_MEMBERS g)) c) fun s g => s.setUpdate g
  s.each ((List.range 8).filter fun e => s.encOf e c) fun s e => s.encTake e

/-- A frame that overflowed the input memory shows demand. -/
def State.frameDemand (s : State) (f : CamFrame) : State := if f.cause = 2 then s.setGov fun g => { g with media := true } else s

/-- The write of a frame's record. -/
def State.recordWrite (s : State) (c : Nat) (f : CamFrame) : State × Option AccErr :=
  s.camWrite c (s.cfg (CAMERA_CHAN_REC_BASE_ADDR c) * 2048 + 32 * (f.k % 64)) (frameRecord f (s.chanCount c) s.round)

/-- A frame is done once its record is written; a record that cannot be written disables the channel. -/
theorem State.frameDone_eq (s : State) (c : Nat) (f : CamFrame) : s.frameDone c f =
    if ((s.frameDemand f).recordWrite c f).2 = none then ((s.frameDemand f).recordWrite c f).1.frameCounted c f
    else ((s.frameDemand f).recordWrite c f).1.memFault c := by
  unfold State.frameDone
  extract_lets s₁
  show _ = if (s₁.recordWrite c f).2 = none then (s₁.recordWrite c f).1.frameCounted c f else (s₁.recordWrite c f).1.memFault c
  unfold State.recordWrite
  generalize s₁.camWrite c _ _ = w
  obtain ⟨v, e⟩ := w
  cases e with
  | none => rfl
  | some e => rfl

theorem State.framesStay_frameCounted (s : State) (c : Nat) (f : CamFrame) : FramesStay c s (s.frameCounted c f) := by
  have hframes : CAMERA_CHAN_FRAMES c ≠ ERROR_STATUS := by
    unfold CAMERA_CHAN_FRAMES ERROR_STATUS
    omega
  unfold State.frameCounted
  extract_lets s₁ s₂ x₁ s₃ s₄
  have hs₁ : FramesStay c s s₁ := (FramesStay.refl s).wrN hframes
  have hs₂ : FramesStay c s s₂ := FramesStay.ite _ hs₁.camSignal hs₁
  have hs₃ : FramesStay c s s₃ := hs₂.setChan rfl
  exact (hs₃.setUpdates fun g hg => List.mem_range.mp (List.mem_filter.mp hg).1).encTakes

/-- Without a receipt and without frame sets, only CHAN_FRAMES and the frames kept for encode sessions change. -/
theorem State.frameCounted_alone {s : State} {c : Nat} (f : CamFrame) (hreceipt : s.cfgOn (CAMERA_CHAN_RECEIPTS_FRAME_EN c) = false)
    (hsets : ∀ g, g < 8 → s.cfgOn (CAMERA_SET_CFG_ENABLE g) = false) :
    (s.frameCounted c f).mem = s.mem ∧ (s.frameCounted c f).rdN (CAMERA_CHAN_FRAMES c) = (f.k + 1) % 2 ^ 64 := by
  unfold State.frameCounted
  extract_lets s₁ s₂ x₁ s₃ s₄
  have hcfg : ∀ g : Fld, g.reg ≠ CAMERA_CHAN_FRAMES c → s₁.cfgOn g = s.cfgOn g := fun g hg => by
    simp only [State.cfgOn, State.cfg, State.act, s₁, State.wrN_acting, State.rd_wrN_other _ _ _ _ hg]
  have hs₂ : s₂ = s₁ := if_neg (by
    rw [hcfg _ (by show CAMERA_CHAN_RECEIPTS c ≠ CAMERA_CHAN_FRAMES c; unfold CAMERA_CHAN_RECEIPTS CAMERA_CHAN_FRAMES; omega), hreceipt]
    exact Bool.false_ne_true)
  have hnone : (List.range 8).filter (fun g => s₃.cfgOn (CAMERA_SET_CFG_ENABLE g) && nbit (s₃.cfg (CAMERA_SET_CFG_MEMBERS g)) c) = [] := by
    refine List.filter_eq_nil_iff.mpr fun g hg => ?_
    have hoff : s₃.cfgOn (CAMERA_SET_CFG_ENABLE g) = false := by
      have : s₃.cfgOn (CAMERA_SET_CFG_ENABLE g) = s₂.cfgOn (CAMERA_SET_CFG_ENABLE g) := rfl
      rw [this, hs₂, hcfg _ (by show CAMERA_SET_CFG g ≠ CAMERA_CHAN_FRAMES c; unfold CAMERA_SET_CFG CAMERA_CHAN_FRAMES; omega),
        hsets g (List.mem_range.mp hg)]
    rw [hoff, Bool.false_and]
    exact Bool.false_ne_true
  have hs₄ : s₄ = s₃ := congrArg (fun l => s₃.each l fun s g => s.setUpdate g) hnone
  obtain ⟨encs, heq⟩ := s₄.each_encTake ((List.range 8).filter fun e => s₄.encOf e c)
  rw [heq, hs₄]
  have hmem : s₂.mem = s₁.mem := congrArg State.mem hs₂
  have hrdN : s₂.rdN (CAMERA_CHAN_FRAMES c) = (f.k + 1) % 2 ^ 64 := by rw [hs₂, State.rdN_wrN_same]
  exact ⟨hmem, hrdN⟩

/-! ### The bytes of a frame -/

/-- The write of a frame's bytes; a dropped frame has none. -/
def State.dataWrite (s : State) (c : Nat) (f : CamFrame) (data : Bytes) : State × Option AccErr :=
  if f.dropped then (s, none) else s.camWrite c (s.bufAddr c f.k + s.dataStart c f) (s.frameData c f data)

/-- The oldest frame of a capture channel finishes: its bytes are written, and its record; a write that fails disables the channel. -/
theorem State.finishFrame_eq {s : State} {c : Nat} {f : CamFrame} {l : List CamFrame} (data : Bytes) (hframes : (s.chan c).frames = f :: l)
    (hsource : s.chanSource c ≠ 2) : let w := (s.setChan c { s.chan c with frames := l }).dataWrite c f data
    s.finishFrame c data = if w.2 = none then w.1.frameDone c f else w.1.memFault c := by
  have hsource' : (s.setChan c { s.chan c with frames := l }).chanSource c ≠ 2 := hsource
  simp only [State.finishFrame, hframes, hsource', State.dataWrite, if_false]
  split
  · rfl
  · generalize State.camWrite _ c _ _ = w
    obtain ⟨v, e⟩ := w
    cases e with
    | none => rfl
    | some e => rfl

/-- The place and the content of a record are settled before the frame's bytes are written. -/
theorem SameSettings.recordWrite {s t : State} (h : SameSettings s t) {c : Nat} (hc : c < 24) (f : CamFrame) : t.recordWrite c f =
    t.camWrite c (s.cfg (CAMERA_CHAN_REC_BASE_ADDR c) * 2048 + 32 * (f.k % 64)) (frameRecord f (s.chanCount c) s.round) := by
  obtain ⟨_, _, hrec, _⟩ := setting_chan hc
  rw [State.recordWrite, h.cfg (CAMERA_CHAN_REC_BASE_ADDR c) hrec, h.chanCount hc, h.round]

/-! ### The writes from states alike -/

section
variable {s t : State} (h : Alike s t) {c : Nat} (hc : c < 24)
include h hc

theorem Alike.bufAddr (k : Nat) : t.bufAddr c k = s.bufAddr c k := by
  obtain ⟨_, hbase, _⟩ := setting_chan hc
  simp only [State.bufAddr, h.settings.cfg (CAMERA_CHAN_BUF_BASE_ADDR c) hbase, h.settings.chanCount hc, h.settings.chanStride hc]

theorem Alike.frameData (f : CamFrame) (data : Bytes) : t.frameData c f data = s.frameData c f data := by
  simp only [State.frameData, State.picture, h.settings.chanSource hc, h.settings.chanStride hc]

theorem Alike.dataWrite (f : CamFrame) (data : Bytes) :
    Alike (s.dataWrite c f data).1 (t.dataWrite c f data).1 ∧ (t.dataWrite c f data).2 = (s.dataWrite c f data).2 := by
  have hstart : t.dataStart c f = s.dataStart c f := by simp only [State.dataStart, h.settings.chanSource hc]
  unfold State.dataWrite
  rw [h.bufAddr hc, hstart, h.frameData hc]
  split
  · exact ⟨h, rfl⟩
  · exact h.camWrite hc _ _

theorem Alike.recordWrite (f : CamFrame) :
    Alike (s.recordWrite c f).1 (t.recordWrite c f).1 ∧ (t.recordWrite c f).2 = (s.recordWrite c f).2 := by
  rw [h.settings.recordWrite hc, State.recordWrite]
  exact h.camWrite hc _ _

end

theorem Beside.dataWrite {s t : State} (h : Beside s t) {c : Nat} {f : CamFrame} {data : Bytes} : Beside s (t.dataWrite c f data).1 := by
  unfold State.dataWrite
  split
  · exact h
  · exact h.camWrite

theorem Beside.frameDemand {s t : State} (h : Beside s t) {f : CamFrame} : Beside s (t.frameDemand f) := Beside.ite _ h.setGov h
theorem Beside.recordWrite {s t : State} (h : Beside s t) {c : Nat} {f : CamFrame} : Beside s (t.recordWrite c f).1 := h.camWrite

theorem Alike.frameDemand (s : State) (f : CamFrame) : Alike s (s.frameDemand f) := by
  unfold State.frameDemand
  split
  · exact Alike.setGov s _
  · exact Alike.refl s

/-! ### A frame finishes -/

theorem setting_set {g : Nat} (hg : g < 8) : Setting (CAMERA_SET_CFG g) := by
  unfold Setting CAMERA_SET_CFG
  omega

/-- A capture frame whose writes are both performed. -/
theorem State.finishFrame_written {s : State} {c : Nat} {f : CamFrame} {l : List CamFrame} {data : Bytes} (hc : c < 24)
    (hframes : (s.chan c).frames = f :: l) (hsource : s.chanSource c ≠ 2) (hreceipt : s.cfgOn (CAMERA_CHAN_RECEIPTS_FRAME_EN c) = false)
    (hsets : ∀ g, g < 8 → s.cfgOn (CAMERA_SET_CFG_ENABLE g) = false) (hdata : (s.dataWrite c f data).2 = none)
    (hrec : ((s.dataWrite c f data).1.recordWrite c f).2 = none) :
    (s.finishFrame c data).rdN (CAMERA_CHAN_FRAMES c) = (f.k + 1) % 2 ^ 64 ∧ ((s.finishFrame c data).chan c).frames = l ∧
      (s.finishFrame c data).mem = ((s.dataWrite c f data).1.recordWrite c f).1.mem := by
  obtain ⟨_, _, _, _, hreceipts, _⟩ := setting_chan hc
  set u := s.setChan c { s.chan c with frames := l } with hu
  obtain ⟨hdataLike, hdataEnd⟩ := (Alike.setChan s c { s.chan c with frames := l }).dataWrite hc f data
  obtain ⟨hrecLike, hrecEnd⟩ := (hdataLike.trans (Alike.frameDemand _ f)).recordWrite hc f
  set w := ((u.dataWrite c f data).1.frameDemand f).recordWrite c f with hw
  have hfinish : s.finishFrame c data = w.1.frameCounted c f := by
    rw [State.finishFrame_eq data hframes hsource, if_pos (hdataEnd.trans hdata), State.frameDone_eq, if_pos (hrecEnd.trans hrec)]
  have hbeside : Beside u w.1 := (Beside.refl u).dataWrite.frameDemand.recordWrite
  have hsettings : SameSettings s w.1 := (Alike.setChan s c _).settings.trans hbeside.settings
  obtain ⟨hmem, hrdN⟩ := State.frameCounted_alone (s := w.1) f ((hsettings.cfgOn _ hreceipts).trans hreceipt)
    fun g hg => (hsettings.cfgOn _ (setting_set hg)).trans (hsets g hg)
  rw [hfinish]
  refine ⟨hrdN, ?_, hmem.trans hrecLike.mem⟩
  rw [(w.1.framesStay_frameCounted c f).frames, hbeside.chan, hu, State.chan_setChan_same]

/-- Whatever becomes of its writes, a frame that finishes leaves its channel, and reported NOTEs stay. -/
theorem State.finishFrame_leaves {s : State} {c : Nat} {f : CamFrame} {data : Bytes} (hc : c < 24) (hframes : (s.chan c).frames = [f])
    (hsource : s.chanSource c ≠ 2) (hnote : s.on ERROR_STATUS_NOTE = true) :
    ((s.finishFrame c data).chan c).frames = [] ∧ (s.finishFrame c data).on ERROR_STATUS_NOTE = true := by
  have hfault : ∀ v : State, v.on ERROR_STATUS_NOTE = true → ((v.memFault c).chan c).frames = [] ∧ (v.memFault c).on ERROR_STATUS_NOTE = true :=
    fun v hv => ⟨(v.memFault_spec hc).2.2.1, State.on_note_memFault hv⟩
  set u := s.setChan c { s.chan c with frames := [] } with hu
  have hdata : Beside u (u.dataWrite c f data).1 := (Beside.refl u).dataWrite
  have hrec : Beside u (((u.dataWrite c f data).1.frameDemand f).recordWrite c f).1 := hdata.frameDemand.recordWrite
  rw [State.finishFrame_eq data hframes hsource, State.frameDone_eq]
  split
  · split
    · have hstay := (FramesStay.of_beside (c := c) hrec).trans (State.framesStay_frameCounted _ c f)
      exact ⟨hstay.frames.trans (by rw [hu, State.chan_setChan_same]), hstay.note hnote⟩
    · exact hfault _ (hrec.note hnote)
  · exact hfault _ (hdata.note hnote)

end Sys2Proof.Machine
end

section
/-! SUPPORT. Writes that enable a capture channel, a stream and an encode session (Vision R322, R332, R341, R346): taken where their tests pass, and reported as
a NOTE where one fails. -/

namespace Sys2Proof.Machine
open Reg

/-! ### Values that act from the next boundary -/

theorem State.rdN_wrCfg_same (s : State) (off : Nat) {n : Nat} (hn : n < 2 ^ 64) : (s.wrCfg off n).rdN off = n :=
  (State.rdN_wrN_same _ off n).trans (Nat.mod_eq_of_lt hn)

/-- A field of a value that has been written. -/
theorem State.get_wrCfg_same (s : State) (off : Nat) {n : Nat} (hn : n < 2 ^ 64) (hi lo : Nat) : (s.wrCfg off n).get ⟨off, hi, lo⟩ = nbits n hi lo := by
  rw [State.get_eq_nbits, s.rdN_wrCfg_same off hn]

/-- A write that acts from the next boundary leaves what its block acts on. -/
theorem State.cfgOn_wrCfg_same (s : State) (off n hi lo : Nat) : (s.wrCfg off n).cfgOn ⟨off, hi, lo⟩ = s.cfgOn ⟨off, hi, lo⟩ := by
  simp only [State.cfgOn, State.cfg, s.act_wrCfg off n off (.inl rfl)]

/-- A NOTE that refuses a write leaves the register and the engines as they were. -/
theorem State.refused_spec (s : State) {e : Err} (he : errClass e.code = some .note) {o : Nat} (ho : Setting o) :
    (s.report e).rd o = s.rd o ∧ (s.report e).vis = s.vis ∧ (s.report e).on ERROR_STATUS_NOTE = true :=
  ⟨(SameSettings.report s e).rd o ho, s.report_vis e, s.on_report_note e he⟩

/-! ### CHAN_CFG -/

theorem chanValue_fields (v : Nat) : nbits (State.chanWrite.andNat' v) 14 13 = nbits v 14 13 ∧ nbits (State.chanWrite.andNat' v) 30 28 = nbits v 30 28 ∧
    nbits (State.chanWrite.andNat' v) 31 31 = nbits v 31 31 ∧ State.chanWrite.andNat' v < 2 ^ 64 := by
  simp only [State.chanWrite.andNat', nbits]
  omega

theorem execChanEnable_lands {q : Req} {c : Fin 24} {s : State} (v : Nat) (h : Safety.Lands q (CAMERA_CHAN_CFG c) s) :
    exec (.chanEnable q c v) s = .next (s.chanWrite c v) :=
  congrArg Host.Outcome.next (s.landing_of_lands q (CAMERA_CHAN_CFG c) _ h)

section
variable {s : State} {c v : Nat}

/-- A bypass source that no other channel has. -/
theorem State.chanWrite_enables (hoff : s.chanSet c = false) (hclass : nbits v 14 13 ≠ 0) (hsource : nbits v 30 28 = 1)
    (hfree : s.sourceTaken c (State.chanWrite.andNat' v) = false) : s.chanWrite c v = s.wrCfg (CAMERA_CHAN_CFG c) (State.chanWrite.andNat' v) := by
  obtain ⟨hvclass, hvsource, _⟩ := chanValue_fields v
  have hclass' : vbits (State.chanWrite.andNat' v) (CAMERA_CHAN_CFG_CLASS c) ≠ 0 := fun h => hclass (hvclass.symm.trans h)
  have hsource' : vbits (State.chanWrite.andNat' v) (CAMERA_CHAN_CFG_SOURCE c) = 1 := hvsource.trans hsource
  simp [State.chanWrite, hoff, hclass', hsource', hfree]

theorem State.chanWrite_noClass (hclass : nbits v 14 13 = 0) : s.chanWrite c v = s.report { code := Code.CAM_BUSY, unit := c } :=
  if_pos ((chanValue_fields v).1.trans hclass)

end

/-! ### STREAM_CFG -/

theorem execIspStreamEnable_lands {q : Req} {i : Fin 16} {s : State} (v : Nat) (h : Safety.Lands q (ISP_STREAM_CFG i) s) :
    exec (.ispStreamEnable q i v) s = .next (s.streamWrite i v) :=
  congrArg Host.Outcome.next (s.landing_of_lands q (ISP_STREAM_CFG i) _ h)

/-- The bits of STREAM_CFG that are not reserved. -/
def streamValue (v : Nat) : Nat := nbits v 31 26 * 2 ^ 26 + nbits v 21 16 * 2 ^ 16 + nbits v 11 8 * 256

theorem streamValue_lt (v : Nat) : streamValue v < 2 ^ 64 := by
  simp only [streamValue, nbits]
  omega

section
variable {s : State} {i v : Nat} (hoff : s.on (ISP_STREAM_CFG_ENABLE i) = false)
include hoff

/-- A stream whose part of the input memory fits beside those of the enabled streams. -/
theorem State.streamWrite_fits (hfits : s.inputTotal i (streamValue v) ≤ 0x200000) : s.streamWrite i v = s.wrCfg (ISP_STREAM_CFG i) (streamValue v) := by
  have hfits' : ¬0x200000 < s.inputTotal i (streamValue v) := by omega
  simp only [streamValue] at hfits' ⊢
  simp only [State.streamWrite, hoff, hfits', decide_false, Bool.and_false, Bool.false_eq_true, if_false]

theorem State.streamWrite_tooLarge (hen : nbit v 31 = true) (hlarge : 0x200000 < s.inputTotal i (streamValue v)) :
    s.streamWrite i v = s.report { code := Code.ISP_CONFIG_REFUSED, unit := i } := by
  simp only [streamValue] at hlarge
  simp only [State.streamWrite, hoff, hen, hlarge, decide_true, Bool.and_self, Bool.false_eq_true, if_true, if_false]

end

/-! ### ENC_CFG -/

theorem execEncodeEnable_lands {q : Req} {e : Fin 8} {s : State} (v : Nat) (h : Safety.Lands q (VCODEC_ENC_CFG e) s) :
    exec (.encodeEnable q e v) s = .next (s.encWrite e v) :=
  congrArg Host.Outcome.next (s.landing_of_lands q (VCODEC_ENC_CFG e) _ h)

/-- The bits of ENC_CFG that are not reserved. -/
def encValue (v : Nat) : Nat := nbits v 31 8 * 256 + v % 64

theorem encValue_fields (v : Nat) : nbits (encValue v) 28 24 = nbits v 28 24 ∧ nbits (encValue v) 31 31 = nbits v 31 31 ∧ encValue v < 2 ^ 64 := by
  simp only [encValue, nbits]
  omega

section
variable {s : State} {e v : Nat} (hoff : s.on (VCODEC_ENC_CFG_ENABLE e) = false)
include hoff

/-- A session with a class, of a channel that gives NV12. -/
theorem State.encWrite_enables (hsource : s.givesNv12 (nbits v 28 24) = true) (hclass : s.get (VCODEC_ENC_OUT_CLASS e) ≠ 0) :
    s.encWrite e v = s.wrCfg (VCODEC_ENC_CFG e) (encValue v) := by
  have hsource' : s.givesNv12 (vbits (encValue v) (VCODEC_ENC_CFG_CHANNEL e)) = true := (congrArg s.givesNv12 (encValue_fields v).1).trans hsource
  simp only [encValue] at hsource' ⊢
  simp [State.encWrite, hoff, hsource', hclass]

theorem State.encWrite_noNv12 (hen : nbit v 31 = true) (hsource : s.givesNv12 (nbits v 28 24) = false) :
    s.encWrite e v = s.report { code := Code.CAM_BUSY, unit := e } := by
  have hsource' : s.givesNv12 (vbits (encValue v) (VCODEC_ENC_CFG_CHANNEL e)) = false := (congrArg s.givesNv12 (encValue_fields v).1).trans hsource
  simp only [encValue] at hsource'
  simp [State.encWrite, hoff, hen, hsource']

end

theorem nbits_of_nbit {v i : Nat} (h : nbit v i = true) : nbits v i i = 1 := by
  simpa [nbit, nbits] using h

theorem errClass_camBusy : errClass Code.CAM_BUSY = some .note := by decide
theorem errClass_ispConfigRefused : errClass Code.ISP_CONFIG_REFUSED = some .note := by decide
theorem errClass_camSourceLost : errClass Code.CAM_SOURCE_LOST = some .note := by decide

end Sys2Proof.Machine
end

section
/-! SUPPORT. Channels begin, receive, drop, lose and finish frames, and channels and streams are enabled by their tests (Vision §1 to §3). -/

namespace Sys2Proof.Machine
open Reg

/-! ### Packets -/

/-- A counter of 16 bits rises up to its largest value. -/
theorem State.get_put_counted (s : State) (f : Fld) (hh : f.hi < 64) (hw : f.hi + 1 - f.lo = 16) :
    (s.put f (min (s.get f + 1) 0xFFFF)).get f = min (s.get f + 1) 0xFFFF := by
  rw [State.get_put_same s f _ (by omega) hh, hw]
  omega

/-- A line within STRIDE is written at its place; a write that fails disables the channel. -/
theorem State.bypassLine_spec {s : State} {c : Nat} {b : Bytes} {f : CamFrame} (hframe : (s.chan c).frames = [f]) (hpast : f.past = false)
    (hdropped : f.dropped = false) (hcut : f.cut = none) (hfits : f.off + b.length ≤ s.chanStride c) (hc : c < 24) :
    let w := s.camWrite c (s.bufAddr c f.k + f.off) b
    let t := s.bypassLine c f b true
    (w.2 = none → t.mem = w.1.mem ∧ (t.chan c).frames = [{ f with lines := f.lines + 1, off := f.off + round64 b.length }]) ∧
      (w.2 ≠ none → t.mem = s.mem ∧ t.chanOn c = false ∧ (t.chan c).frames = [] ∧ t.on ERROR_STATUS_CONTAINED = true) := by
  intro w t
  set x : CamChan := { s.chan c with frames := [{ f with lines := f.lines + 1, off := f.off + round64 b.length }], last := s.round } with hx
  obtain ⟨halike, hend⟩ := (Alike.setChan s c x).camWrite hc (s.bufAddr c f.k + f.off) b
  set w' := (s.setChan c x).camWrite c (s.bufAddr c f.k + f.off) b with hw'
  have ht : t = if w'.2 = none then w'.1 else w'.1.memFault c := State.bypassLine_within hframe hpast hdropped hcut hfits
  refine ⟨fun hok => ?_, fun hfail => ?_⟩
  · have hchan : w'.1.chan c = x := (((Beside.refl _).camWrite).chan c).trans (s.chan_setChan_same c x)
    rw [ht, if_pos (hend.trans hok), hchan]
    exact ⟨halike.mem, rfl⟩
  · have hfail' : w'.2 ≠ none := fun h => hfail (hend.symm.trans h)
    obtain ⟨hmem, hspec⟩ := w'.1.memFault_spec hc
    rw [ht, if_neg hfail']
    exact ⟨hmem.trans ((State.camWrite_mem_of_fails _ hfail').trans rfl), hspec⟩

/-! ### The loss of a source -/

theorem execCamSourceLost_due {s : State} {c : Fin 24} {f : CamFrame} (data : Bytes) (hframe : (s.chan c).frames = [f]) (hpast : f.past = false)
    (hsource : s.chanSource c ≤ 1) (hdue : (s.chan c).last + 2 ≤ s.round) : exec (.camSourceLost c data) s = .next (s.sourceLost c data) := by
  show execCamSourceLost c data s = _
  simp only [execCamSourceLost, hframe, List.getLast?_singleton, hpast, hsource, hdue, Bool.not_false, decide_true, Bool.and_self, if_true]

theorem execCamSourceLost_early {s : State} {c : Fin 24} {f : CamFrame} (data : Bytes) (hframe : (s.chan c).frames = [f])
    (hearly : s.round < (s.chan c).last + 2) : exec (.camSourceLost c data) s = .next s := by
  have hdue : ¬(s.chan c).last + 2 ≤ s.round := by omega
  show execCamSourceLost c data s = _
  simp only [execCamSourceLost, hframe, List.getLast?_singleton, hdue, decide_false, Bool.and_false, Bool.false_eq_true, if_false]

/-- The one frame of a channel that loses its source finishes, and the loss is reported. -/
theorem State.sourceLost_spec {s : State} {c : Nat} {f : CamFrame} (data : Bytes) (hc : c < 24) (hframe : (s.chan c).frames = [f])
    (hpast : f.past = false) (hsource : s.chanSource c ≤ 1) :
    ((s.sourceLost c data).chan c).frames = [] ∧ (s.sourceLost c data).on ERROR_STATUS_NOTE = true := by
  obtain ⟨g, hinput⟩ := State.endInput_one 3 hframe hpast
  set x : CamChan := { s.chan c with frames := [g], last := s.round } with hx
  set u := (s.setChan c x).report { code := Code.CAM_SOURCE_LOST, unit := c } with hu
  have hchan : u.chan c = x := by rw [hu, State.chan_report, State.chan_setChan_same]
  have hsource' : u.chanSource c = s.chanSource c := (SameSettings.report (s.setChan c x) _).chanSource hc
  have hcapture : u.chanSource c ≠ 2 := by omega
  have hloses : s.sourceLost c data = u.finishFrame c data := by
    rw [State.sourceLost, hinput]
    exact if_pos (congrArg (fun x : CamChan => x.frames.length) hchan)
  rw [hloses]
  exact State.finishFrame_leaves hc (congrArg CamChan.frames hchan) hcapture (State.on_report_note _ _ errClass_camSourceLost)

/-! ### The statement -/

/-- Settles O35: a packet with a usable header acts on the one channel that takes it; the writes of a frame's bytes and record end as they would without what
the channel holds of it; and a register is enabled by the tests of its write. -/
theorem camerasCaptureFrames : Obligations.CamerasCaptureFrames := by
  unfold Obligations.CamerasCaptureFrames
  intro s
  refine ⟨fun p c hport hup => ⟨fun hecc n hbody htakes hsource hframes => ?start, fun hecc b f hbody htakes hframe hpast hdropped hcut => ?line,
    fun hecc hbody => ?corrected⟩, fun p hport => execCsi2Packet_disabled hport,
    fun c data f l hframes => ⟨?finish, fun hmay => ?waits, fun hl hpast hsource hdue => ?lost,
      fun hl hearly => execCamSourceLost_early data (hl ▸ hframes) hearly⟩,
    fun q c v hlands hoff => ⟨fun hclass hen hsource hfree => ?channel, fun hclass => ?noClass⟩,
    fun q i v hlands hoff hen => ⟨fun hfits => ?stream, fun hlarge => ?tooLarge⟩⟩
  case start =>
    have hexec := execCsi2Packet_good hport hup hecc
    rw [State.packetIn_frameStart hbody htakes hsource hframes] at hexec
    exact ⟨fun hfree => ⟨_, hexec, State.frameStart_begins hframes hfree⟩, fun hbusy => ⟨_, hexec, State.frameStart_drops c.isLt hframes hbusy⟩⟩
  case line =>
    have hexec := execCsi2Packet_good hport hup hecc
    rw [State.packetIn_line hbody htakes hframe hpast] at hexec
    refine ⟨fun hsource hfits => ?_, fun hsource hlong => ?_, fun hsource hlo hhi hfull => ?_⟩
    · intro w
      rw [if_pos hsource] at hexec
      obtain ⟨hok, hfail⟩ := State.bypassLine_spec hframe hpast hdropped hcut hfits c.isLt
      exact ⟨fun h => ⟨_, hexec, hok h⟩, fun h => ⟨_, hexec, hfail h⟩⟩
    · rw [if_pos hsource, State.bypassLine_beyond hframe hpast hdropped hcut hlong] at hexec
      exact ⟨_, hexec, rfl, congrArg CamChan.frames (State.chan_setChan_same _ _ _)⟩
    · have hraw : s.chanSource c ≠ 1 := by omega
      rw [if_neg hraw, State.rawLine_full hframe hpast hdropped hcut hlo hhi hfull] at hexec
      exact ⟨_, hexec, State.report_mem _ _, State.on_report_note _ _ errClass_camOverflow, by rw [State.chan_report, State.chan_setChan_same]⟩
  case corrected =>
    refine ⟨_, execCsi2Packet_corrected hport hup hecc, ?_⟩
    rw [State.get, State.rd_packetIn_frameEnd hbody, ← State.get]
    exact s.get_put_counted (CAMERA_PORT_ERRORS_ECC_CORR p.port.val) (by decide : 31 < 64) (by decide : 31 + 1 - 16 = 16)
  case finish =>
    intro hmay hsource hk hreceipt hsets z w hz hw
    refine ⟨s.finishFrame c data, ?_, ?_⟩
    · show execFrameFinish c data s = _
      simp only [execFrameFinish, hframes, hmay, if_true]
    · have hrecord : z.1.recordWrite c f = w := (Beside.refl s).dataWrite.settings.recordWrite c.isLt f
      obtain ⟨hrdN, hrest, hmem⟩ := State.finishFrame_written c.isLt hframes hsource hreceipt hsets hz ((congrArg Prod.snd hrecord).trans hw)
      exact ⟨hrdN.trans (Nat.mod_eq_of_lt hk), hrest, hmem.trans (congrArg (fun w => w.1.mem) hrecord)⟩
  case waits =>
    show execFrameFinish c data s = _
    simp only [execFrameFinish, hframes, hmay, Bool.false_eq_true, if_false]
  case lost =>
    subst hl
    exact ⟨_, execCamSourceLost_due data hframes hpast hsource hdue, State.sourceLost_spec data c.isLt hframes hpast hsource⟩
  case channel =>
    obtain ⟨_, _, hbit, hlt⟩ := chanValue_fields v
    have hrdN := s.rdN_wrCfg_same (CAMERA_CHAN_CFG c) hlt
    refine ⟨_, (execChanEnable_lands v hlands).trans (congrArg Host.Outcome.next (State.chanWrite_enables hoff hclass hsource hfree)), ?_, hrdN, ?_, rfl, rfl⟩
    · rw [State.chanSet, State.on, CAMERA_CHAN_CFG_ENABLE, s.get_wrCfg_same _ hlt, hbit, nbits_of_nbit hen]
      rfl
    · exact s.cfgOn_wrCfg_same (CAMERA_CHAN_CFG c) _ 31 31
  case noClass =>
    exact ⟨_, (execChanEnable_lands v hlands).trans (congrArg Host.Outcome.next (State.chanWrite_noClass hclass)),
      s.refused_spec errClass_camBusy (setting_chan c.isLt).1⟩
  case stream =>
    exact ⟨_, (execIspStreamEnable_lands v hlands).trans (congrArg Host.Outcome.next (State.streamWrite_fits hoff hfits)),
      s.rdN_wrCfg_same (ISP_STREAM_CFG i) (streamValue_lt v)⟩
  case tooLarge =>
    have hreg : Setting (ISP_STREAM_CFG i) := by
      unfold Setting ISP_STREAM_CFG
      omega
    obtain ⟨hrd, _, hnote⟩ := s.refused_spec (e := { code := Code.ISP_CONFIG_REFUSED, unit := i }) errClass_ispConfigRefused hreg
    exact ⟨_, (execIspStreamEnable_lands v hlands).trans (congrArg Host.Outcome.next (State.streamWrite_tooLarge hoff hen hlarge)), hrd, hnote⟩

end Sys2Proof.Machine
end

section
/-! SUPPORT. Decode and encode sessions (Vision R339 to R342): the start of a decoded picture, and the access unit and descriptor of an encoded one. -/

namespace Sys2Proof.Machine
open Reg

/-! ### What the codecs' accesses leave alone -/

namespace Beside
variable {s t : State} (h : Beside s t)
include h

theorem auRead {i c} : Beside s (t.auRead i c).1 := by
  unfold State.auRead
  extract_lets f bs size k da s₁
  have hk : k < 4 := t.chanClass_lt c
  have hs₁ : Beside s s₁ := h.portRead hk
  split
  · exact hs₁.accReport
  · extract_lets off len head s₂
    have hs₂ : Beside s s₂ := (hs₁.portRead hk).portRead hk
    split
    · exact hs₂
    · exact hs₂.accReport
    · exact hs₂.accReport

theorem ringWrite {k f base size off b} (hk : k < 4) : Beside s (t.ringWrite k f base size off b) := by
  unfold State.ringWrite
  extract_lets n s₁
  have hs₁ : Beside s s₁ := h.engineWrite hk
  exact Beside.ite _ (hs₁.engineWrite hk) hs₁

end Beside

/-- Reading an access unit writes no memory. -/
theorem State.auRead_mem (s : State) (i c : Nat) : (s.auRead i c).1.mem = s.mem := by
  unfold State.auRead
  extract_lets f bs size k da s₁
  have hs₁ : s₁.mem = s.mem := s.portRead_mem k none meshMedia da 16
  split
  · exact (s₁.accReport_spares _).1.trans hs₁
  · extract_lets off len head s₂
    have hs₂ : s₂.mem = s.mem := ((State.portRead_mem _ _ _ _ _ _).trans (State.portRead_mem _ _ _ _ _ _)).trans hs₁
    split
    · exact hs₂
    · exact (s₂.accReport_spares _).1.trans hs₂
    · exact (s₂.accReport_spares _).1.trans hs₂

/-! ### Decode (Vision R339, R340) -/

section
variable {s : State} {i : Fin 32} {c : Nat} (hchan : s.decChan i = some c)
include hchan

theorem execDecodeAccessUnit_turn (k : AuKind) (hdom : s.dom 18 = 0) (hidle : s.vis.dec = none) (hturn : s.decTurn = some i.val) :
    exec (.decodeAccessUnit i k) s = .next (s.decodeUnit i c k) := by
  show execDecodeAccessUnit i k s = _
  simp only [execDecodeAccessUnit, hchan, hdom, hidle, hturn, Option.isNone_none, BEq.rfl, decide_true, Bool.and_self, if_true]

theorem execDecodeAccessUnit_other (k : AuKind) (hturn : s.decTurn ≠ some i.val) : exec (.decodeAccessUnit i k) s = .next s := by
  have hother : (s.decTurn == some i.val) = false := by simpa using hturn
  show execDecodeAccessUnit i k s = _
  simp only [execDecodeAccessUnit, hchan, hother, Bool.and_false, Bool.false_eq_true, if_false]

end

theorem errClass_vdecUnsupported : errClass Code.VDEC_UNSUPPORTED = some .contained := by decide

/-- A session whose stream is not supported is off, and CONTAINED. -/
theorem State.decodeUnit_unsupported (s : State) {i : Nat} (c : Nat) (hi : i < 32) :
    (s.decodeUnit i c .unsupported).on (VCODEC_DEC_CFG_ENABLE i) = false ∧ (s.decodeUnit i c .unsupported).on ERROR_STATUS_CONTAINED = true := by
  have hcfg : Setting (VCODEC_DEC_CFG i) := by
    unfold Setting VCODEC_DEC_CFG
    omega
  unfold State.decodeUnit
  extract_lets r s₁ ts go broken
  refine ⟨?_, State.on_report_contained _ _ errClass_vdecUnsupported⟩
  rw [(SameSettings.report _ _).on (VCODEC_DEC_CFG_ENABLE i) hcfg, State.on, State.clearNow,
    State.get_put_same _ _ _ (Nat.le_refl 31) (by decide : 31 < 64), Nat.zero_mod]
  rfl

/-- The picture of a session begins: the session was served last, it wants no key picture any more, and the decoder is on it. -/
def State.decodeBegun (s : State) (i c : Nat) : State :=
  ((s.setVis fun v => { v with decLast := i }).setVis fun v => { v with noRef := v.noRef.filter (· != i) }).setVis fun v => { v with dec := some (i, c) }

/-- A key picture that fits begins as a frame of the session's channel. -/
theorem State.decodeUnit_key {s : State} {i c w h ts : Nat} (hread : (s.auRead i c).2 = some ts) (hfits : layoutBytes 0 w h ≤ (s.auRead i c).1.chanStride c) :
    s.decodeUnit i c (.picture w h true) = ((s.auRead i c).1.decodeBegun i c).beginFrame c
      { k := 0, sof := 0, ts := ts % 2 ^ 32, width := w, height := h, past := true } none := by
  have hcut : ∀ f g, ¬(((s.auRead i c).1.setVis f).setVis g).chanStride c < layoutBytes 0 w h := fun _ _ => Nat.not_lt.mpr hfits
  simp only [State.decodeUnit, State.decodeBegun, hread, hcut, Option.isNone_some, decide_false, Bool.and_false, Bool.false_eq_true, if_true, if_false]

/-- A picture begins in the free buffer of the session's channel, once its access unit has been read. -/
theorem State.decodeBegun_begins {s v : State} {i c : Nat} {f : CamFrame} (hc : c < 24) (hv : Beside s v) (hmem : v.mem = s.mem)
    (hfree : s.bufFree c (s.chan c).next = true) :
    let t := (v.decodeBegun i c).beginFrame c f none
    t.vis.dec = some (i, c) ∧ t.mem = s.mem ∧ (t.chan c).next = (s.chan c).next + 1 ∧
      (t.chan c).frames = (s.chan c).frames ++ [{ f with k := (s.chan c).next, sof := s.round, dropped := false }] := by
  intro t
  set u := v.decodeBegun i c with hu
  have hsettings : SameSettings s u := hv.settings.trans (.of_regs rfl rfl)
  have hchan : u.chan c = s.chan c := hv.chan c
  have hencs : u.vis.encs = s.vis.encs := by rw [← hv.vis, hu]; rfl
  have hfree' : u.bufFree c (u.chan c).next = true := by rw [hchan, hsettings.bufFree hc hmem hencs, hfree]
  obtain ⟨kept, hbegin⟩ := State.beginFrame_free f hfree'
  have ht : t = _ := hbegin
  rw [ht, State.chan_setChan_same, hchan, hsettings.round]
  exact ⟨rfl, hmem, rfl, rfl⟩

/-- A key picture that fits. -/
theorem State.decodeUnit_begins {s : State} {i c w h ts : Nat} (hc : c < 24) (hread : (s.auRead i c).2 = some ts)
    (hfree : s.bufFree c (s.chan c).next = true) (hfits : layoutBytes 0 w h ≤ s.chanStride c) :
    let t := s.decodeUnit i c (.picture w h true)
    t.vis.dec = some (i, c) ∧ t.mem = s.mem ∧ (t.chan c).next = (s.chan c).next + 1 ∧ (t.chan c).frames = (s.chan c).frames ++
      [{ k := (s.chan c).next, sof := s.round, ts := ts % 2 ^ 32, width := w, height := h, past := true }] := by
  have hv : Beside s (s.auRead i c).1 := (Beside.refl s).auRead
  rw [State.decodeUnit_key hread (by rw [hv.settings.chanStride hc]; exact hfits)]
  exact State.decodeBegun_begins hc hv (s.auRead_mem i c) hfree

/-! ### Encode (Vision R341, R342) -/

theorem execEncodePicture_whole {s : State} {e : Fin 8} {k : KeptFrame} (au : Bytes) (hwhole : s.encWhole e = some k)
    (hon : s.cfgOn (VCODEC_ENC_CFG_ENABLE e) = true) (hdom : s.dom 18 = 0) : exec (.encodePicture e au) s = .next (s.encodePicture e k.k au) := by
  show execEncodePicture e au s = _
  simp only [execEncodePicture, hwhole, hon, hdom, BEq.rfl, Bool.and_self, if_true]

theorem execEncodePicture_none {s : State} {e : Fin 8} (au : Bytes) (hwhole : s.encWhole e = none) : exec (.encodePicture e au) s = .next s := by
  show execEncodePicture e au s = _
  simp only [execEncodePicture, hwhole]

theorem errClass_vencAuLost : errClass Code.VENC_AU_LOST = some .note := by decide

/-- The next frame, once a session has put down what it has made of the one that it held. -/
def State.encNext (s : State) (e : Nat) (x : EncSt) : State := (s.setEnc e { x with hold := none }).encTake e

theorem State.encNext_spec (s : State) (e : Nat) (x : EncSt) : (s.encNext e x).mem = s.mem ∧ (∀ g, (s.encNext e x).on g = s.on g) ∧
    ((s.encNext e x).enc e).n = x.n ∧ ((s.encNext e x).enc e).off = x.off ∧ ((s.encNext e x).enc e).force = x.force := by
  have hsame := (s.setEnc e { x with hold := none }).enc_encTake e
  rw [State.enc_setEnc_same] at hsame
  obtain ⟨encs, htake⟩ := (s.setEnc e { x with hold := none }).encTake_eq e
  refine ⟨?_, fun g => ?_, hsame⟩
  · rw [State.encNext, htake]
    rfl
  · rw [State.encNext, htake]
    rfl

section
variable {s : State} {e k : Nat} {au : Bytes}

/-- An access unit longer than half the ring is dropped. -/
theorem State.encodePicture_lost (hlong : s.cfg (VCODEC_ENC_BS_SIZE_BS_4K e) * 4096 / 2 < au.length) :
    s.encodePicture e k au = (s.report { code := Code.VENC_AU_LOST, unit := e }).encNext e { s.enc e with force := true } := if_pos hlong

/-- The access unit and its descriptor (Vision R342), written at the session's place in its ring and its table. -/
def State.encWritten (s : State) (e k : Nat) (au : Bytes) : State :=
  let x := s.enc e
  let f := s.cfg (VCODEC_ENC_OUT_FUNCTION e)
  let cls := s.cfg (VCODEC_ENC_OUT_CLASS e)
  ((s.ringWrite cls f (s.cfg (VCODEC_ENC_BS_BASE_ADDR e) * 4096) (s.cfg (VCODEC_ENC_BS_SIZE_BS_4K e) * 4096) x.off au).engineWrite cls f
    (s.cfg (VCODEC_ENC_AU_BASE_ADDR e) * 4096 + 16 * (x.n % 2 ^ s.cfg (VCODEC_ENC_OUT_LOG2_AU e)))
    (leBytes 4 x.off ++ leBytes 4 au.length ++ leBytes 4 k ++ leBytes 4 (x.n % 2 ^ 31 * 2 + (if (x.gop == 0 || x.force) = true then 1 else 0)))).1

theorem State.encClass_lt (s : State) (e : Nat) : s.cfg (VCODEC_ENC_OUT_CLASS e) < 4 := Word.bits_lt _ 23 22

/-- An access unit that fits is written, without a receipt. -/
theorem State.encodePicture_written (he : e < 8) (hfits : au.length ≤ s.cfg (VCODEC_ENC_BS_SIZE_BS_4K e) * 4096 / 2)
    (hreceipt : s.cfgOn (VCODEC_ENC_OUT_RECEIPT_EN e) = false) : ∃ gop, s.encodePicture e k au = (s.encWritten e k au).encNext e
      { s.enc e with n := (s.enc e).n + 1, off := ((s.enc e).off + au.length) % max (s.cfg (VCODEC_ENC_BS_SIZE_BS_4K e) * 4096) 1, gop := gop, force := false } := by
  obtain ⟨_, _, hout, hau, _⟩ := setting_enc he
  have hring : ∀ b f base size off, Beside s (s.ringWrite (s.cfg (VCODEC_ENC_OUT_CLASS e)) f base size off b) := fun _ _ _ _ _ =>
    (Beside.refl s).ringWrite (s.encClass_lt e)
  have hwritten : Beside s (s.encWritten e k au) := (hring _ _ _ _ _).engineWrite (s.encClass_lt e)
  unfold State.encodePicture
  extract_lets x size f key done cls s₁ s₂ s₃ g
  have hbase : s₁.cfg (VCODEC_ENC_AU_BASE_ADDR e) = s.cfg (VCODEC_ENC_AU_BASE_ADDR e) := (hring _ _ _ _ _).settings.cfg _ hau
  have hlog : s₁.cfg (VCODEC_ENC_OUT_LOG2_AU e) = s.cfg (VCODEC_ENC_OUT_LOG2_AU e) := (hring _ _ _ _ _).settings.cfg _ hout
  have hs₂ : s₂ = s.encWritten e k au := by
    simp only [s₂, hbase, hlog]
    rfl
  have hs₃ : s₃ = s₂ := if_neg (by
    rw [hs₂, hwritten.settings.cfgOn (VCODEC_ENC_OUT_RECEIPT_EN e) hout, hreceipt]
    exact Bool.false_ne_true)
  rw [if_neg (Nat.not_lt.mpr hfits), hs₃, hs₂]
  exact ⟨_, rfl⟩

end

end Sys2Proof.Machine
end

section
/-! SUPPORT. JPEG jobs (Vision R343, R344): the start of a job at its receipt, and what its end writes. -/

namespace Sys2Proof.Machine
open Reg

theorem State.jpegClass_lt (s : State) : s.cfg VCODEC_JPEG_CFG_CLASS < 4 := Word.bits_lt _ 21 20

/-! ### The start of a job -/

theorem execJpegJob_starts {s : State} {b : Bytes} (hon : s.cfgOn VCODEC_JPEG_CFG_ENABLE = true) (hdom : s.dom 18 = 0) (hidle : s.vis.job = none)
    (hdue : s.vis.jobNext + 1 ≤ s.fnReceipt (s.cfg VCODEC_JPEG_CFG_FUNCTION) (s.cfg VCODEC_JPEG_RECEIPTS_SUBMIT)) {p : State}
    (hp : p = s.portRead (s.cfg VCODEC_JPEG_CFG_CLASS) none meshMedia s.jobAddr 64)
    (hread : p.fnRead (s.cfg VCODEC_JPEG_CFG_FUNCTION) p.jobAddr 64 = .ok b) :
    exec .jpegJob s = .next (p.setVis fun v => { v with job := some b, jobTiles := 0 }) := by
  show execJpegJob s = _
  simp only [execJpegJob, hon, hdom, hidle, hdue, ← hp, hread, Option.isNone_none, BEq.rfl, decide_true, Bool.and_self, if_true]

theorem execJpegJob_early {s : State}
    (hearly : s.fnReceipt (s.cfg VCODEC_JPEG_CFG_FUNCTION) (s.cfg VCODEC_JPEG_RECEIPTS_SUBMIT) < s.vis.jobNext + 1) : exec .jpegJob s = .next s := by
  have hdue : ¬s.vis.jobNext + 1 ≤ s.fnReceipt (s.cfg VCODEC_JPEG_CFG_FUNCTION) (s.cfg VCODEC_JPEG_RECEIPTS_SUBMIT) := by omega
  show execJpegJob s = _
  simp only [execJpegJob, hdue, decide_false, Bool.and_false, Bool.false_eq_true, if_false]

/-! ### The end of a job -/

theorem execJpegJobDone_ends {s : State} {b : Bytes} {o : JpegOut} (hjob : s.vis.job = some b) (hends : s.jobEnds b o = true) :
    exec (.jpegJobDone o) s = .next (s.jobDone b o) := by
  show execJpegJobDone o s = _
  simp only [execJpegJobDone, hjob, hends, if_true]

theorem execJpegJobDone_other {s : State} {b : Bytes} {o : JpegOut} (hjob : s.vis.job = some b) (hends : s.jobEnds b o = false) :
    exec (.jpegJobDone o) s = .next s := by
  show execJpegJobDone o s = _
  simp only [execJpegJobDone, hjob, hends, Bool.false_eq_true, if_false]

theorem Beside.jobRun {s t : State} (h : Beside s t) {f b o} : Beside s (t.jobRun f b o).1 := by
  unfold State.jobRun
  extract_lets n cls s₁
  have hs₁ : Beside s s₁ := h.portRead t.jpegClass_lt
  split
  · exact h
  · split
    · exact hs₁.accReport
    · split
      · exact hs₁
      · split
        · exact hs₁
        · split
          · next heq => exact of_fst (hs₁.engineWrite t.jpegClass_lt) heq
          · next heq => exact of_fst (hs₁.engineWrite t.jpegClass_lt) heq

/-- While receipts are not in force a signal writes no memory. -/
theorem State.camSignal_off {s : State} (hoff : s.cfgOn RINGS_RECEIPT_BASE_EN = false) (src : Nat × Nat) (f i v unit : Nat) :
    (s.camSignal src f i v unit).mem = s.mem ∧ (s.camSignal src f i v unit).vis = s.vis := by
  refine ⟨?_, (Beside.refl s).camSignal.vis⟩
  unfold State.camSignal State.signal
  rw [hoff, if_neg Bool.false_ne_true]
  split
  · rfl
  · exact s.report_mem _

/-- STATUS, OUT_LEN and DONE_ROUND, written once the job has been carried out. -/
def State.jobWritten (s : State) (b : Bytes) (o : JpegOut) : State :=
  let f := s.cfg VCODEC_JPEG_CFG_FUNCTION
  let cls := s.cfg VCODEC_JPEG_CFG_CLASS
  let r := s.jobRun f b o
  ((r.1.engineWrite cls f (s.jobAddr + 0x20) (leBytes 2 r.2.1)).1.engineWrite cls f (s.jobAddr + 0x24) (leBytes 4 r.2.2 ++ leBytes 8 r.1.round)).1

theorem State.beside_jobWritten (s : State) (b : Bytes) (o : JpegOut) : Beside s (s.jobWritten b o) :=
  ((Beside.refl s).jobRun.engineWrite s.jpegClass_lt).engineWrite s.jpegClass_lt

/-- A job that ends is written back, signals its receipt and makes the next one due. -/
theorem State.jobDone_eq (s : State) (b : Bytes) (o : JpegOut) : s.jobDone b o =
    ((s.jobWritten b o).setVis fun v => { v with job := none, jobNext := s.vis.jobNext + 1 }).camSignal (6, 0) (s.cfg VCODEC_JPEG_CFG_FUNCTION)
      ((s.jobWritten b o).cfg VCODEC_JPEG_RECEIPTS_DONE) (s.vis.jobNext + 1) 0xFFFF := by
  unfold State.jobDone
  extract_lets f a r cls s₁ s₂ j
  have hround : s₁.round = r.1.round := ((Beside.refl r.1).engineWrite s.jpegClass_lt).settings.round
  have hs₂ : s₂ = s.jobWritten b o := by
    simp only [s₂, hround]
    rfl
  have hj : j = s.vis.jobNext := by
    show s₂.vis.jobNext = _
    rw [hs₂, (s.beside_jobWritten b o).vis]
  rw [hj, hs₂]

theorem State.jobDone_spec {s : State} (b : Bytes) (o : JpegOut) (hoff : s.cfgOn RINGS_RECEIPT_BASE_EN = false) :
    (s.jobDone b o).vis.job = none ∧ (s.jobDone b o).vis.jobNext = s.vis.jobNext + 1 ∧ (s.jobDone b o).mem = (s.jobWritten b o).mem := by
  have hbase : (s.jobWritten b o).cfgOn RINGS_RECEIPT_BASE_EN = false :=
    ((s.beside_jobWritten b o).settings.cfgOn RINGS_RECEIPT_BASE_EN (.inl (by decide))).trans hoff
  rw [State.jobDone_eq]
  generalize (s.jobWritten b o).cfg VCODEC_JPEG_RECEIPTS_DONE = i
  generalize s.jobWritten b o = w at hbase ⊢
  obtain ⟨hmem, hvis⟩ := State.camSignal_off (s := w.setVis fun v => { v with job := none, jobNext := s.vis.jobNext + 1 }) hbase (6, 0)
    (s.cfg VCODEC_JPEG_CFG_FUNCTION) i (s.vis.jobNext + 1) 0xFFFF
  rw [hmem, hvis]
  exact ⟨rfl, rfl, rfl⟩

end Sys2Proof.Machine
end

section
/-! SUPPORT. Decode, encode and JPEG take and finish their work (Vision §4 to §6). -/

namespace Sys2Proof.Machine
open Reg

/-- Settles O36: a session takes the access unit of its turn as a frame, an encoded frame and a job that ends are written from settings that their writes leave
alone, and an enable is decided by its tests. -/
theorem codecsDecodeEncodeAndRunJobs : Obligations.CodecsDecodeEncodeAndRunJobs := by
  unfold Obligations.CodecsDecodeEncodeAndRunJobs
  intro s
  refine ⟨fun i c hchan hdom hidle => ⟨fun hturn => ⟨?unsupported, fun w h ts hread hfree hfits => ?decodes⟩,
    fun hturn k => execDecodeAccessUnit_other hchan k hturn⟩, fun e au k hwhole hon hdom => ⟨fun hfits hreceipt => ?encodes, fun hlong => ?lost⟩,
    fun e au hwhole => execEncodePicture_none au hwhole, fun q e v hlands hoff hen => ⟨fun hsource hclass => ?enables, fun hsource => ?refused⟩,
    fun hon hdom hidle => ⟨fun b hdue hread => ?job, execJpegJob_early⟩,
    fun b o hjob => ⟨fun hends hoff => ?done, fun hends => execJpegJobDone_other hjob hends⟩⟩
  case unsupported =>
    exact ⟨_, execDecodeAccessUnit_turn hchan _ hdom hidle hturn, s.decodeUnit_unsupported c.val i.isLt⟩
  case decodes =>
    exact ⟨_, execDecodeAccessUnit_turn hchan _ hdom hidle hturn, State.decodeUnit_begins c.isLt hread hfree hfits⟩
  case encodes =>
    obtain ⟨gop, heq⟩ := State.encodePicture_written (k := k.k) e.isLt hfits hreceipt
    have hexec := execEncodePicture_whole au hwhole hon hdom
    rw [heq] at hexec
    obtain ⟨hmem, _, hn, hoff, hforce⟩ := State.encNext_spec (s.encWritten e k.k au) e
      { s.enc e with n := (s.enc e).n + 1, off := ((s.enc e).off + au.length) % max (s.cfg (VCODEC_ENC_BS_SIZE_BS_4K e) * 4096) 1, gop := gop, force := false }
    exact ⟨_, hexec, hn, hoff, hforce, hmem⟩
  case lost =>
    have hexec := execEncodePicture_whole au hwhole hon hdom
    rw [State.encodePicture_lost hlong] at hexec
    obtain ⟨hmem, hon, hn, _, hforce⟩ := State.encNext_spec (s.report { code := Code.VENC_AU_LOST, unit := e }) e { s.enc e with force := true }
    exact ⟨_, hexec, hmem.trans (s.report_mem _), hn, hforce, (hon _).trans (s.on_report_note _ errClass_vencAuLost)⟩
  case enables =>
    obtain ⟨hchannel, hbit, hlt⟩ := encValue_fields v
    refine ⟨_, (execEncodeEnable_lands v hlands).trans (congrArg Host.Outcome.next (State.encWrite_enables hoff hsource hclass)), ?_, ?_, rfl, rfl⟩
    · rw [State.on, VCODEC_ENC_CFG_ENABLE, s.get_wrCfg_same _ hlt, hbit, nbits_of_nbit hen]
      rfl
    · rw [VCODEC_ENC_CFG_CHANNEL, s.get_wrCfg_same _ hlt, hchannel]
  case refused =>
    obtain ⟨hrd, _, hnote⟩ := s.refused_spec (e := { code := Code.CAM_BUSY, unit := e }) errClass_camBusy (setting_enc e.isLt).1
    exact ⟨_, (execEncodeEnable_lands v hlands).trans (congrArg Host.Outcome.next (State.encWrite_noNv12 hoff hen hsource)), hrd, hnote⟩
  case job =>
    exact ⟨_, execJpegJob_starts hon hdom hidle hdue rfl hread, rfl, rfl, s.portRead_mem _ _ _ _ _⟩
  case done =>
    exact ⟨_, execJpegJobDone_ends hjob hends, s.jobDone_spec b o hoff⟩

end Sys2Proof.Machine
end

section
/-! SUPPORT. The end of an express unit whose RUN is on a district beyond the sixteen. The registers of a district are found by its number, and what the end of such
a RUN writes as DEBUG_STATE of its district is the count of results of a channel. The state bounds no district number of a RUN; no RUN that a command begins is on
such a district (`districtsOf` gives numbers below 16), so the state below is none that a trace reaches. -/

namespace Sys2Proof.Machine
open Reg

/-- The district number whose DEBUG_STATE would lie at CHAN_RESULTS of channel 0. -/
def strayResults : Nat := (EXPRESS_CHAN_RESULTS 0 - FLOOR_DEBUG_STATE 0) / 4

/-- A RUN of ring 5 on the stray district, which has failed with the status of an overrun stop and awaits the end of its last unit. -/
def failedExpress : RunSt := { strayRun [strayResults] with fail := some (0x0B, 0) }

/-- A unit of channel 0 that uses no clerk, for a block of one sample word, with the end of its reservation at instant 0. -/
def lastUnit : XUnit := { block := ⟨[0], 0, 0, false, false, false⟩, clerks := 0, quantumEnd := 0 }

/-- The unit runs on district 15 as the unit of the RUN, and channel 0 is enabled. -/
def endingStray : State := (((State.reset.setFloor fun f =>
  { f with runs := [failedExpress], units := [(15, some { ring := 5, seq := 0, desc := 0, clerks := 0 })] }).setXchan 0 fun x => { x with unit := some lastUnit }).put
    FLOOR_EXPRESS_SEL_DISTRICT 15).putB (EXPRESS_CHAN_CFG_ENABLE 0) true

/-- Refutes O38: the record is committed and counted, and the end of the RUN then writes over the count as NODE of its district's DEBUG_STATE. -/
theorem not_expressUnitsCommitResults : ¬ Obligations.ExpressUnitsCommitResults := by
  intro h
  obtain ⟨-, hend, -, -⟩ := h endingStray
  obtain ⟨z, hz, -, -, -, -, -, -, hresults, -⟩ := hend 0 0 0 0 lastUnit (by decide +kernel) (by decide) (by decide +kernel) rfl
    (by decide +kernel) (by decide +kernel) (by decide +kernel)
  obtain rfl := Host.Outcome.next.inj hz
  exact absurd hresults (by decide +kernel)

end Sys2Proof.Machine
end

section
/-! SUPPORT. Two states whose registers differ in a set of offsets alone, and what they read the same. -/

namespace Sys2Proof.Machine
open Reg

/-- `t` has the registers of `s` but for those whose offsets are in `W`, and the same values that blocks act on until the next boundary. -/
structure RegsBut (W : Nat → Prop) (s t : State) : Prop where
  acting : t.acting = s.acting
  rd : ∀ o, ¬W o → t.rd o = s.rd o

namespace RegsBut
variable {W : Nat → Prop} {s t u : State}

theorem of_regs (hacting : t.acting = s.acting) (hregs : t.regs = s.regs) : RegsBut W s t := ⟨hacting, fun o _ => by rw [State.rd, hregs, State.rd]⟩
theorem refl (s : State) : RegsBut W s s := of_regs rfl rfl
theorem trans (h : RegsBut W s t) (k : RegsBut W t u) : RegsBut W s u := ⟨k.acting.trans h.acting, fun o ho => (k.rd o ho).trans (h.rd o ho)⟩

section changes
variable (h : RegsBut W s t)
include h

theorem wr {o : Nat} {v : Word} (ho : W o) : RegsBut W s (t.wr o v) :=
  h.trans ⟨rfl, fun i hi => t.rd_wr_other o i v fun e => hi (e ▸ ho)⟩

theorem wrN {o n : Nat} (ho : W o) : RegsBut W s (t.wrN o n) := h.wr ho
theorem put {f : Fld} {n : Nat} (ho : W f.reg) : RegsBut W s (t.put f n) := h.wr ho
theorem putB {f : Fld} {b : Bool} (ho : W f.reg) : RegsBut W s (t.putB f b) := h.wr ho
theorem addSat {o n : Nat} (ho : W o) : RegsBut W s (t.addSat o n) := h.wr ho
theorem atNs {n : Nat} (ho : W ROUND_PHASE) : RegsBut W s (t.atNs n) :=
  (h.trans (of_regs rfl rfl : RegsBut W t (t.setRnd fun z => { z with ns := min n 999 }))).wrN ho
theorem setXchan {c : Nat} {f : XChan → XChan} : RegsBut W s (t.setXchan c f) := h.trans (of_regs rfl rfl)
theorem setPort {p : Nat} {f : PortSt → PortSt} : RegsBut W s (t.setPort p f) := h.trans (of_regs rfl rfl)

theorem report {e : Err} (hW : ∀ o, errReg o → W o) : RegsBut W s (t.report e) :=
  h.trans ⟨t.report_acting e, fun o ho => by
    have hout : ¬(0xD00000 ≤ o ∧ o < 0xE00000) := fun k => ho (hW o (.inr k))
    exact t.rd_report e o (fun k => ho (hW o (.inl k))) (by omega)⟩

theorem get (g : Fld) (hg : ¬W g.reg) : t.get g = s.get g := by simp only [State.get, h.rd _ hg]
theorem on (g : Fld) (hg : ¬W g.reg) : t.on g = s.on g := by simp only [State.on, h.get g hg]
theorem rdN (o : Nat) (ho : ¬W o) : t.rdN o = s.rdN o := by simp only [State.rdN, h.rd o ho]
theorem cfg (g : Fld) (hg : ¬W g.reg) : t.cfg g = s.cfg g := by simp only [State.cfg, State.act, h.acting, h.rd _ hg]
theorem cfgOn (g : Fld) (hg : ¬W g.reg) : t.cfgOn g = s.cfgOn g := by simp only [State.cfgOn, h.cfg g hg]
theorem round (hW : ¬W ROUND_COUNT) : t.round = s.round := h.rdN _ hW

end changes

end RegsBut

end Sys2Proof.Machine
end

section
/-! SUPPORT. Express channels (Express R350 to R356): the record of a channel, the flags that a sample moves, and a block that arrives. -/

namespace Sys2Proof.Machine
open Reg

/-! ### The record of a channel -/

@[simp] theorem State.xchan_setXchan_same (s : State) (c : Nat) (f : XChan → XChan) : (s.setXchan c f).xchan c = f (s.xchan c) := SMap.get_set_same _ _ _ _
theorem State.xchan_setXchan_other (s : State) (c j : Nat) (f : XChan → XChan) (h : j ≠ c) : (s.setXchan c f).xchan j = s.xchan j :=
  SMap.get_set_other _ _ _ _ _ h

@[simp] theorem State.xchan_atNs (s : State) (t c : Nat) : (s.atNs t).xchan c = s.xchan c := rfl
@[simp] theorem State.xchan_putB (s : State) (f : Fld) (b : Bool) (c : Nat) : (s.putB f b).xchan c = s.xchan c := rfl
@[simp] theorem State.xchan_addSat (s : State) (o n c : Nat) : (s.addSat o n).xchan c = s.xchan c := rfl
@[simp] theorem State.xchan_report (s : State) (e : Err) (c : Nat) : (s.report e).xchan c = s.xchan c := by simp only [State.xchan, State.report_xp]

@[simp] theorem State.setXchan_mem (s : State) (c : Nat) (f : XChan → XChan) : (s.setXchan c f).mem = s.mem := rfl
@[simp] theorem State.setXchan_floor (s : State) (c : Nat) (f : XChan → XChan) : (s.setXchan c f).floor = s.floor := rfl
@[simp] theorem State.setXchan_pwr (s : State) (c : Nat) (f : XChan → XChan) : (s.setXchan c f).pwr = s.pwr := rfl
@[simp] theorem State.setXchan_rdN (s : State) (c : Nat) (f : XChan → XChan) (o : Nat) : (s.setXchan c f).rdN o = s.rdN o := rfl

/-! ### Registers of a channel -/

/-- The registers that a sample of a channel changes before it becomes a block: PHASE, the channel's status, and what a report changes. -/
def SampleReg (c o : Nat) : Prop := o = ROUND_PHASE ∨ o = EXPRESS_CHAN_STATUS c ∨ errReg o

/-- The band of a channel depends on the selection of the express district, the power of that district and the armed RUN. -/
theorem State.bandFor_regsBut {W : Nat → Prop} {s t : State} (h : RegsBut W s t) (hpwr : t.pwr = s.pwr) (hfloor : t.floor = s.floor)
    (hsel : ¬W FLOOR_EXPRESS_SEL) (hdom : ∀ d, d < 16 → ¬W (POWER_DOM_STATUS d)) (c : Nat) : t.bandFor c = s.bandFor c := by
  have hd : t.expressDistrict = s.expressDistrict := h.get FLOOR_EXPRESS_SEL_DISTRICT hsel
  have hlt : s.expressDistrict < 16 := Nat.mod_lt _ (by decide)
  have hup : t.domUp s.expressDistrict = s.domUp s.expressDistrict := by
    rw [State.domUp, State.dom, hpwr, h.get _ (hdom _ hlt)]
    rfl
  rw [State.bandFor, State.bandFor, hd, hup, State.armedRun, State.armedRun, hfloor]

/-! ### A block arrives (Express R354, R362) -/

theorem State.blockArrives_none {s : State} {c : Nat} (b : XBlock) (h : s.bandFor c = none) : s.blockArrives c b = s := by
  rw [State.blockArrives, h]

/-- A block waits for a unit where none waits. -/
theorem State.blockArrives_waits {s : State} {c : Nat} (b : XBlock) {r : RunSt} (h : s.bandFor c = some r) (hw : (s.xchan c).waiting = none) :
    s.blockArrives c b = s.setXchan c fun x => { x with waiting := some b, counted := false } := by
  simp [State.blockArrives, h, hw]

/-- A block takes the place of one that waits, with GAP. -/
theorem State.blockArrives_replaces {s : State} {c : Nat} (b : XBlock) {r : RunSt} {old : XBlock} (h : s.bandFor c = some r)
    (hw : (s.xchan c).waiting = some old) : s.blockArrives c b =
      (s.setXchan c fun x => { x with waiting := some { b with gap := true }, counted := false }).addSat (EXPRESS_CHAN_SKIP c) 1 := by
  simp [State.blockArrives, h, hw]

/-- What a block that arrives leaves alone: of its channel all but the waiting block, every register but SKIP, and memory. -/
theorem State.blockArrives_spec (s : State) (c : Nat) (b : XBlock) :
    (∃ w k, (s.blockArrives c b).xchan c = { s.xchan c with waiting := w, counted := k }) ∧
      RegsBut (· = EXPRESS_CHAN_SKIP c) s (s.blockArrives c b) ∧ (s.blockArrives c b).mem = s.mem := by
  cases hband : s.bandFor c with
  | none => rw [State.blockArrives_none b hband]; exact ⟨⟨_, _, rfl⟩, .refl s, rfl⟩
  | some r =>
    cases hw : (s.xchan c).waiting with
    | none => rw [State.blockArrives_waits b hband hw]; exact ⟨⟨_, _, State.xchan_setXchan_same _ _ _⟩, (RegsBut.refl s).setXchan, rfl⟩
    | some old =>
      rw [State.blockArrives_replaces b hband hw]
      exact ⟨⟨_, _, (State.xchan_addSat _ _ _ _).trans (State.xchan_setXchan_same _ _ _)⟩, (RegsBut.refl s).setXchan.addSat rfl, rfl⟩

/-! ### The flags of a sample (Express R351) -/

/-- The flags of a channel after a sample. -/
def State.flagsAfter (s : State) (c : Nat) (a : Analog) : List (Bool × Nat) :=
  ((s.xchan c).flags.zip (sampleConds a (s.get (EXPRESS_CHAN_CFG_INPUT_MODE c)))).map fun p => flagStep p.1 p.2

/-- FAULT_NOW after a sample. -/
def State.faultAfter (s : State) (c : Nat) (a : Analog) : Bool :=
  ((s.flagsAfter c a).getD 0 (false, 0)).1 || ((s.flagsAfter c a).getD 1 (false, 0)).1 || ((s.flagsAfter c a).getD 2 (false, 0)).1

theorem errClass_inputFault : errClass Code.EXP_INPUT_FAULT = some .note := by decide
theorem errClass_feLate : errClass Code.EXP_FE_LATE = some .note := by decide

theorem chanStatus_below {c : Nat} (hc : c < 8) : EXPRESS_CHAN_STATUS c < 0xC00000 := by
  unfold EXPRESS_CHAN_STATUS
  omega

/-- `t` is `s` but for what a sample shows in its channel's status below FAULT_NOW and reports. -/
structure Shown (c : Nat) (s t : State) : Prop where
  regs : RegsBut (SampleReg c) s t
  xp : t.xp = s.xp
  mem : t.mem = s.mem
  floor : t.floor = s.floor
  pwr : t.pwr = s.pwr
  now : t.on (EXPRESS_CHAN_STATUS_FAULT_NOW c) = s.on (EXPRESS_CHAN_STATUS_FAULT_NOW c)

namespace Shown
variable {c : Nat} {s t : State}

theorem refl (s : State) : Shown c s s := ⟨.refl s, rfl, rfl, rfl, rfl, rfl⟩

variable (h : Shown c s t)
include h

theorem put {f : Fld} {n : Nat} (hr : f.reg = EXPRESS_CHAN_STATUS c) (hl : f.lo ≤ f.hi) (hh : f.hi < 31) : Shown c s (t.put f n) :=
  ⟨h.regs.put (.inr (.inl hr)), h.xp, h.mem, h.floor, h.pwr,
    (congrArg (· != 0) (t.get_put_apart f (EXPRESS_CHAN_STATUS_FAULT_NOW c) n hl (by omega) (.inl hh))).trans h.now⟩

theorem rise {b : Bool} {f : Fld} (hr : f.reg = EXPRESS_CHAN_STATUS c) (hl : f.lo ≤ f.hi) (hh : f.hi < 31) :
    Shown c s (if b then t.putB f true else t) := by
  split
  · exact h.put hr hl hh
  · exact h

theorem report {e : Err} (hc : c < 8) : Shown c s (t.report e) where
  regs := h.regs.report fun _ ho => .inr (.inr ho)
  xp := (t.report_xp e).trans h.xp
  mem := (t.report_mem e).trans h.mem
  floor := (t.report_floor e).trans h.floor
  pwr := (t.report_pwr e).trans h.pwr
  now := by
    have hout : (EXPRESS_CHAN_STATUS_FAULT_NOW c).reg < 0xC00000 := chanStatus_below hc
    exact (congrArg (· != 0) (t.get_report_district e hout)).trans h.now

end Shown

/-- A channel with its flags and FAULT_NOW after a sample. -/
def State.flagged (s : State) (c : Nat) (a : Analog) : State :=
  (s.setXchan c fun x => { x with flags := s.flagsAfter c a }).putB (EXPRESS_CHAN_STATUS_FAULT_NOW c) (s.faultAfter c a)

theorem sampleReg_status (c : Nat) : SampleReg c (EXPRESS_CHAN_STATUS c) := .inr (.inl rfl)

@[simp] theorem State.flagged_mem (s : State) (c : Nat) (a : Analog) : (s.flagged c a).mem = s.mem := by
  rw [State.flagged, State.putB_mem, State.setXchan_mem]
@[simp] theorem State.flagged_floor (s : State) (c : Nat) (a : Analog) : (s.flagged c a).floor = s.floor := by
  rw [State.flagged, State.putB_floor, State.setXchan_floor]
@[simp] theorem State.flagged_pwr (s : State) (c : Nat) (a : Analog) : (s.flagged c a).pwr = s.pwr := by
  rw [State.flagged, State.putB_pwr, State.setXchan_pwr]

theorem State.xchan_flagged (s : State) (c : Nat) (a : Analog) : (s.flagged c a).xchan c = { s.xchan c with flags := s.flagsAfter c a } := by
  rw [State.flagged, State.xchan_putB, State.xchan_setXchan_same]

theorem State.flagged_regs (s : State) (c : Nat) (a : Analog) : RegsBut (SampleReg c) s (s.flagged c a) :=
  (RegsBut.refl s).setXchan.putB (sampleReg_status c)

theorem State.on_flagged (s : State) (c : Nat) (a : Analog) : (s.flagged c a).on (EXPRESS_CHAN_STATUS_FAULT_NOW c) = s.faultAfter c a :=
  State.on_putB_same _ (EXPRESS_CHAN_STATUS_FAULT_NOW c) _ rfl (by decide : 31 < 64)

/-- The flags of a sample move by their rule; what else a sample shows lies below FAULT_NOW, and a FAULT_NOW that rises is reported. -/
theorem State.sampleFlags_shown (s : State) {c : Nat} (hc : c < 8) (a : Analog) : Shown c (s.flagged c a) (s.sampleFlags c a) ∧
    (s.faultAfter c a = true → s.on (EXPRESS_CHAN_STATUS_FAULT_NOW c) = false → (s.sampleFlags c a).on ERROR_STATUS_NOTE = true) := by
  unfold State.sampleFlags
  extract_lets mode old new up rose now was s1 s2 s3 s4
  have h1 : Shown c (s.flagged c a) s1 := (Shown.refl _).put rfl (Nat.zero_le 15) (by decide : 15 < 31)
  have h2 : Shown c (s.flagged c a) s2 := h1.rise rfl (Nat.le_refl 29) (by decide : 29 < 31)
  have h3 : Shown c (s.flagged c a) s3 := h2.rise rfl (Nat.le_refl 28) (by decide : 28 < 31)
  have h4 : Shown c (s.flagged c a) s4 := h3.rise rfl (Nat.le_refl 27) (by decide : 27 < 31)
  split
  · exact ⟨h4.report hc, fun _ _ => State.on_report_note _ _ errClass_inputFault⟩
  · next hrise =>
    refine ⟨h4, fun hnow hwas => absurd ?_ hrise⟩
    rw [Bool.and_eq_true, Bool.not_eq_true']
    exact ⟨hnow, hwas⟩

/-- What a sample does before it becomes a block. -/
theorem State.sampleFlags_spec (s : State) {c : Nat} (hc : c < 8) (a : Analog) : let t := s.sampleFlags c a
    t.xchan c = { s.xchan c with flags := s.flagsAfter c a } ∧ RegsBut (SampleReg c) s t ∧ t.mem = s.mem ∧ t.floor = s.floor ∧ t.pwr = s.pwr ∧
      t.on (EXPRESS_CHAN_STATUS_FAULT_NOW c) = s.faultAfter c a := by
  obtain ⟨h, -⟩ := s.sampleFlags_shown hc a
  refine ⟨?_, (s.flagged_regs c a).trans h.regs, ?_, ?_, ?_, ?_⟩
  · rw [State.xchan, h.xp, ← State.xchan, State.xchan_flagged]
  · rw [h.mem, State.flagged_mem]
  · rw [h.floor, State.flagged_floor]
  · rw [h.pwr, State.flagged_pwr]
  · rw [h.now, State.on_flagged]

/-! ### Samples (Express R349, R351) -/

/-- The block of one sample word that a sample on the bypass becomes. -/
def State.sampleBlock (s : State) (c : Nat) (a : Analog) (start : Nat × Nat) : XBlock :=
  let fault := s.faultAfter c a || decide (start.1 < (s.xchan c).settle)
  ⟨[sampleWord (sampleCode a (s.get (EXPRESS_CHAN_CFG_INPUT_MODE c))) fault ((s.flagsAfter c a).getD 0 (false, 0)).1 c], start.1, start.2, fault, false, false⟩

/-- A register that a sample leaves alone, by where it lies: it is not PHASE nor a status register of a channel, and lies below SEC_NOTIFY. -/
theorem not_sampleReg {c o : Nat} (hphase : o ≠ 0x10008) (hstatus : o % 64 ≠ 8 ∨ o < 0x600000 ∨ 0x600200 ≤ o) (hc : c < 8) (herr : o < 0xC00000) :
    ¬SampleReg c o := by
  unfold SampleReg errReg ROUND_PHASE EXPRESS_CHAN_STATUS SECURE_SEC_NOTIFY
  omega

theorem not_sampleReg_cfg {c : Nat} (hc : c < 8) : ¬SampleReg c (EXPRESS_CHAN_CFG c) := by
  unfold EXPRESS_CHAN_CFG
  exact not_sampleReg (by omega) (by omega) hc (by omega)

theorem not_sampleReg_skip {c : Nat} (hc : c < 8) : ¬SampleReg c (EXPRESS_CHAN_SKIP c) := by
  unfold EXPRESS_CHAN_SKIP
  exact not_sampleReg (by omega) (by omega) hc (by omega)

/-- What a sample changes does not move the band of a channel. -/
theorem State.bandFor_sampled {s t : State} {c : Nat} (hc : c < 8) (h : RegsBut (SampleReg c) s t) (hpwr : t.pwr = s.pwr) (hfloor : t.floor = s.floor) :
    t.bandFor c = s.bandFor c := by
  refine State.bandFor_regsBut h hpwr hfloor (not_sampleReg (by decide) (by decide) hc (by decide)) (fun d hd => ?_) c
  unfold POWER_DOM_STATUS
  exact not_sampleReg (by omega) (by omega) hc (by omega)

theorem State.sample_bypass (s : State) {c : Nat} (hc : c < 8) (a : Analog) (start : Nat × Nat) (hbypass : s.cfgOn (EXPRESS_CHAN_CFG_FRONTEND c) = false) :
    s.sample c a start = (s.sampleFlags c a).blockArrives c (s.sampleBlock c a start) := by
  obtain ⟨hchan, hregs, -, -, -, hnow⟩ := s.sampleFlags_spec hc a
  have hcfg : (s.sampleFlags c a).cfgOn (EXPRESS_CHAN_CFG_FRONTEND c) = false := (hregs.cfgOn _ (not_sampleReg_cfg hc)).trans hbypass
  have hmode := hregs.get (EXPRESS_CHAN_CFG_INPUT_MODE c) (not_sampleReg_cfg hc)
  simp only [State.sample, State.sampleBlock, hcfg, hnow, hchan, hmode, Bool.false_eq_true, if_false]

/-- What a sample does beyond its flags: a block may arrive, or ADC_IN takes it. -/
theorem State.sample_spec (s : State) (c : Nat) (a : Analog) (start : Nat × Nat) :
    RegsBut (· = EXPRESS_CHAN_SKIP c) (s.sampleFlags c a) (s.sample c a start) ∧ (s.sample c a start).mem = (s.sampleFlags c a).mem ∧
      ((s.sample c a start).xchan c).flags = ((s.sampleFlags c a).xchan c).flags ∧
      ((s.sample c a start).xchan c).conv = ((s.sampleFlags c a).xchan c).conv := by
  unfold State.sample
  extract_lets u x fault w
  split
  · split
    · rw [State.xchan_setXchan_same]
      exact ⟨(RegsBut.refl u).setXchan, rfl, rfl, rfl⟩
    · exact ⟨.refl u, rfl, rfl, rfl⟩
  · obtain ⟨⟨_, _, hchan⟩, hregs, hmem⟩ := u.blockArrives_spec c ⟨[w], start.1, start.2, fault, false, false⟩
    rw [hchan]
    exact ⟨hregs, hmem, rfl, rfl⟩

/-! ### Blocks of the fabric (Express R355) -/

/-- The state in which a block of the fabric that is not late arrives. -/
def State.lastTaken (s : State) (c t : Nat) : State := (s.atNs t).setXchan c fun x => { x with dirty := false }

/-- The state in which a late block of the fabric arrives. -/
def State.lateTaken (s : State) (c t : Nat) : State :=
  ((s.lastTaken c t).putB (EXPRESS_CHAN_STATUS_FE_LATE c) true).report { code := Code.EXP_FE_LATE, unit := c }

/-- A block of the fabric is stamped with the newest sample delivered, and is late 730 ns after that sample's start. -/
theorem State.fabricBlock_delivered {s : State} {c : Nat} {n : Nat × Nat} (ws : List Nat) (t : Nat) (hnew : (s.xchan c).newest = some n) :
    ∃ u, (u = s.lateTaken c t ∨ u = s.lastTaken c t) ∧ (n.1 * 1000 + n.2 + 730 < s.at t → u = s.lateTaken c t) ∧
      s.fabricBlock c ws t = u.blockArrives c ⟨ws.take 64, n.1, n.2, (s.xchan c).dirty, decide (n.1 * 1000 + n.2 + 730 < s.at t), false⟩ := by
  by_cases hlate : n.1 * 1000 + n.2 + 730 < s.at t
  · refine ⟨_, .inl rfl, fun _ => rfl, ?_⟩
    simp only [State.fabricBlock, hnew, Nat.add_assoc, Nat.reduceAdd] at hlate ⊢
    simp only [hlate, decide_true, if_true, State.lateTaken, State.lastTaken]
  · refine ⟨_, .inr rfl, fun h => absurd h hlate, ?_⟩
    simp only [State.fabricBlock, hnew, Nat.add_assoc, Nat.reduceAdd] at hlate ⊢
    simp only [hlate, decide_false, Bool.false_eq_true, if_false, State.lastTaken]

theorem State.xchan_lastTaken (s : State) (c t : Nat) : (s.lastTaken c t).xchan c = { s.xchan c with dirty := false } := by
  rw [State.lastTaken, State.xchan_setXchan_same, State.xchan_atNs]

theorem State.lastTaken_regs (s : State) (c t : Nat) : RegsBut (SampleReg c) s (s.lastTaken c t) := ((RegsBut.refl s).atNs (.inl rfl)).setXchan

theorem State.lateTaken_regs (s : State) (c t : Nat) : RegsBut (SampleReg c) s (s.lateTaken c t) :=
  ((s.lastTaken_regs c t).putB (f := EXPRESS_CHAN_STATUS_FE_LATE c) (sampleReg_status c)).report fun _ ho => .inr (.inr ho)

theorem State.xchan_lateTaken (s : State) (c t : Nat) : (s.lateTaken c t).xchan c = { s.xchan c with dirty := false } := by
  rw [State.lateTaken, State.xchan_report, State.xchan_putB, State.xchan_lastTaken]

theorem State.lateTaken_pwr (s : State) (c t : Nat) : (s.lateTaken c t).pwr = s.pwr := by
  rw [State.lateTaken, State.report_pwr, State.putB_pwr, State.lastTaken, State.setXchan_pwr]
  rfl

theorem State.lateTaken_floor (s : State) (c t : Nat) : (s.lateTaken c t).floor = s.floor := by
  rw [State.lateTaken, State.report_floor, State.putB_floor, State.lastTaken, State.setXchan_floor]
  rfl

/-- What LAST leaves of the state, whether its block is late or not. -/
theorem State.taken_spec {s u : State} {c t : Nat} (h : u = s.lateTaken c t ∨ u = s.lastTaken c t) :
    u.xchan c = { s.xchan c with dirty := false } ∧ RegsBut (SampleReg c) s u ∧ u.pwr = s.pwr ∧ u.floor = s.floor := by
  obtain rfl | rfl := h
  · exact ⟨s.xchan_lateTaken c t, s.lateTaken_regs c t, s.lateTaken_pwr c t, s.lateTaken_floor c t⟩
  · exact ⟨s.xchan_lastTaken c t, s.lastTaken_regs c t, rfl, rfl⟩

/-- A late block is marked and reported. -/
theorem State.lateTaken_spec (s : State) {c : Nat} (hc : c < 8) (t : Nat) :
    (s.lateTaken c t).on (EXPRESS_CHAN_STATUS_FE_LATE c) = true ∧ (s.lateTaken c t).on ERROR_STATUS_NOTE = true := by
  refine ⟨?_, State.on_report_note _ _ errClass_feLate⟩
  have hkept := ((s.lastTaken c t).putB (EXPRESS_CHAN_STATUS_FE_LATE c) true).get_report_district { code := Code.EXP_FE_LATE, unit := c }
    (g := EXPRESS_CHAN_STATUS_FE_LATE c) (chanStatus_below hc)
  exact (congrArg (· != 0) hkept).trans (State.on_putB_same _ (EXPRESS_CHAN_STATUS_FE_LATE c) true rfl (by decide : 26 < 64))

end Sys2Proof.Machine
end

section
/-! SUPPORT. Conversions become samples, samples become blocks, and blocks wait for a unit (Express §2, §3). -/

namespace Sys2Proof.Machine
open Reg

theorem execAdcConversion_due {s : State} {c : Fin 8} {t : Nat} (hdue : s.convDue c t = true) (ht : t ≤ 999) :
    exec (.adcConversion c t) s = .next ((s.atNs t).setXchan c fun x => { x with conv := x.conv ++ [(s.round, t)] }) := by
  show execAdcConversion c t s = _
  simp only [execAdcConversion, hdue, ht, decide_true, Bool.and_self, if_true]

theorem execAdcConversion_notDue {s : State} {c : Fin 8} {t : Nat} (hdue : s.convDue c t = false) : exec (.adcConversion c t) s = .next s := by
  show execAdcConversion c t s = _
  simp only [execAdcConversion, hdue, Bool.false_and, Bool.false_eq_true, if_false]

theorem execSettleEnd_over {s : State} {c : Fin 8} (h : (s.xchan c).settle ≤ s.round) :
    exec (.settleEnd c) s = .next (s.putB (EXPRESS_CHAN_STATUS_SETTLING c) false) :=
  congrArg Host.Outcome.next (if_pos h)

theorem execSettleEnd_early {s : State} {c : Fin 8} (h : s.round < (s.xchan c).settle) : exec (.settleEnd c) s = .next s :=
  congrArg Host.Outcome.next (if_neg (Nat.not_le.mpr h))

/-- The state in which the oldest conversion of a channel becomes a sample. -/
def State.converted (s : State) (c t : Nat) (rest : List (Nat × Nat)) : State := (s.atNs t).setXchan c fun x => { x with conv := rest }

theorem execSampleAvailable_there {s : State} {c : Fin 8} {x : Nat × Nat} {rest : List (Nat × Nat)} {t : Nat} (a : Analog) (hconv : (s.xchan c).conv = x :: rest)
    (hthere : x.1 * 1000 + x.2 + 500 ≤ s.at t) : exec (.sampleAvailable c a t) s = .next ((s.converted c t rest).sample c a x) := by
  show execSampleAvailable c a t s = _
  simp only [execSampleAvailable, hconv, hthere, if_true]
  rfl

theorem execFabricBlock_taken {s : State} {c : Fin 8} {ws : List Nat} (t : Nat) (hfront : s.cfgOn (EXPRESS_CHAN_CFG_FRONTEND c) = true)
    (hen : s.cfgOn (EXPRESS_CHAN_CFG_ENABLE c) = true) (hout : s.xoutDriven = true) (hws : ws ≠ []) :
    exec (.fabricBlock c ws t) s = .next (s.fabricBlock c ws t) := by
  show execFabricBlock c ws t s = _
  simp only [execFabricBlock, hfront, hen, hout, List.isEmpty_eq_false_iff.mpr hws, Bool.not_false, Bool.and_self, if_true]

theorem execFabricBlock_undriven {s : State} (c : Fin 8) (ws : List Nat) (t : Nat) (hout : s.xoutDriven = false) : exec (.fabricBlock c ws t) s = .next s := by
  show execFabricBlock c ws t s = _
  simp only [execFabricBlock, hout, Bool.and_false, Bool.false_and, Bool.false_eq_true, if_false]

section
variable (s : State) (c t : Nat) (rest : List (Nat × Nat))

theorem State.converted_regs : RegsBut (· = ROUND_PHASE) s (s.converted c t rest) :=
  ((RegsBut.refl s).atNs (W := (· = ROUND_PHASE)) rfl).setXchan

theorem State.xchan_converted : (s.converted c t rest).xchan c = { s.xchan c with conv := rest } := State.xchan_setXchan_same _ _ _

theorem chanCfg_ne_phase : EXPRESS_CHAN_CFG c ≠ ROUND_PHASE := by
  unfold EXPRESS_CHAN_CFG ROUND_PHASE
  omega

theorem chanStatus_ne_phase : EXPRESS_CHAN_STATUS c ≠ ROUND_PHASE := by
  unfold EXPRESS_CHAN_STATUS ROUND_PHASE
  omega

theorem chanSkip_ne_phase : EXPRESS_CHAN_SKIP c ≠ ROUND_PHASE := by
  unfold EXPRESS_CHAN_SKIP ROUND_PHASE
  omega

theorem State.flagsAfter_converted (a : Analog) : (s.converted c t rest).flagsAfter c a = s.flagsAfter c a := by
  rw [State.flagsAfter, State.xchan_converted, (s.converted_regs c t rest).get _ (chanCfg_ne_phase c)]
  rfl

theorem State.faultAfter_converted (a : Analog) : (s.converted c t rest).faultAfter c a = s.faultAfter c a := by
  rw [State.faultAfter, State.flagsAfter_converted, State.faultAfter]

theorem State.sampleBlock_converted (a : Analog) (start : Nat × Nat) : (s.converted c t rest).sampleBlock c a start = s.sampleBlock c a start := by
  simp only [State.sampleBlock, State.flagsAfter_converted, State.faultAfter_converted, State.xchan_converted,
    (s.converted_regs c t rest).get (EXPRESS_CHAN_CFG_INPUT_MODE c) (chanCfg_ne_phase c)]

end

/-- A sample that is available on channel `c` moves its flags and becomes, on the bypass, a block. -/
theorem State.converted_sample (s : State) {c : Nat} (hc : c < 8) (a : Analog) (t : Nat) (x : Nat × Nat) (rest : List (Nat × Nat)) :
    let u := (s.converted c t rest).sample c a x
    (u.xchan c).flags = s.flagsAfter c a ∧ (u.xchan c).conv = rest ∧ u.on (EXPRESS_CHAN_STATUS_FAULT_NOW c) = s.faultAfter c a ∧ u.mem = s.mem ∧
      (s.faultAfter c a = true → s.on (EXPRESS_CHAN_STATUS_FAULT_NOW c) = false → u.on ERROR_STATUS_NOTE = true) := by
  obtain ⟨hregs, hmem, hflags, hconv⟩ := (s.converted c t rest).sample_spec c a x
  obtain ⟨hchan, -, hmem', -, -, hnow⟩ := (s.converted c t rest).sampleFlags_spec hc a
  obtain ⟨-, hnote⟩ := (s.converted c t rest).sampleFlags_shown hc a
  have hskip : ∀ f : Fld, f.reg = EXPRESS_CHAN_STATUS c ∨ f.reg = ERROR_STATUS → f.reg ≠ EXPRESS_CHAN_SKIP c := by
    unfold EXPRESS_CHAN_STATUS ERROR_STATUS EXPRESS_CHAN_SKIP
    omega
  rw [hchan, State.xchan_converted] at hflags hconv
  rw [State.flagsAfter_converted] at hflags
  rw [State.faultAfter_converted] at hnow hnote
  have hwas := (s.converted_regs c t rest).on (EXPRESS_CHAN_STATUS_FAULT_NOW c) (chanStatus_ne_phase c)
  refine ⟨hflags, hconv, (hregs.on _ (hskip _ (.inl rfl))).trans hnow, hmem.trans (hmem'.trans rfl), fun h hw => ?_⟩
  exact (hregs.on _ (hskip _ (.inr rfl))).trans (hnote h (hwas.trans hw))

/-- On the bypass a sample arrives as a block, in a state whose band, waiting block and count of replaced blocks are those of before. -/
theorem State.converted_arrives (s : State) {c : Nat} (hc : c < 8) (a : Analog) (t : Nat) (x : Nat × Nat) (rest : List (Nat × Nat))
    (hbypass : s.cfgOn (EXPRESS_CHAN_CFG_FRONTEND c) = false) : ∃ u : State, (u.xchan c).waiting = (s.xchan c).waiting ∧ u.bandFor c = s.bandFor c ∧
      u.rd (EXPRESS_CHAN_SKIP c) = s.rd (EXPRESS_CHAN_SKIP c) ∧ (s.converted c t rest).sample c a x = u.blockArrives c (s.sampleBlock c a x) := by
  have hregs := s.converted_regs c t rest
  obtain ⟨hchan, hflags, -, hfloor, hpwr, -⟩ := (s.converted c t rest).sampleFlags_spec hc a
  have hphase : RegsBut (SampleReg c) s (s.converted c t rest) := ((RegsBut.refl s).atNs (.inl rfl)).setXchan
  refine ⟨(s.converted c t rest).sampleFlags c a, ?_, ?_, (hflags.rd _ (not_sampleReg_skip hc)).trans (hregs.rd _ (chanSkip_ne_phase c)), ?_⟩
  · rw [hchan, State.xchan_converted]
  · exact State.bandFor_sampled hc (hphase.trans hflags) hpwr hfloor
  · rw [State.sample_bypass _ hc a x ((hregs.cfgOn _ (chanCfg_ne_phase c)).trans hbypass), State.sampleBlock_converted]

/-- The block of a sample waits for a unit of its channel's band, and takes the place of one that waits. -/
theorem State.converted_bypass (s : State) {c : Nat} (hc : c < 8) (a : Analog) (t : Nat) (x : Nat × Nat) (rest : List (Nat × Nat))
    (hbypass : s.cfgOn (EXPRESS_CHAN_CFG_FRONTEND c) = false) {r : RunSt} (hr : s.bandFor c = some r) : let u := (s.converted c t rest).sample c a x
    ((s.xchan c).waiting = none → (u.xchan c).waiting = some (s.sampleBlock c a x) ∧ u.rd (EXPRESS_CHAN_SKIP c) = s.rd (EXPRESS_CHAN_SKIP c)) ∧
      ∀ b, (s.xchan c).waiting = some b → (u.xchan c).waiting = some { s.sampleBlock c a x with gap := true } ∧
        u.rdN (EXPRESS_CHAN_SKIP c) = min (s.rdN (EXPRESS_CHAN_SKIP c) + 1) 0xFFFFFFFF := by
  obtain ⟨u, hwaiting, hband, hskip, heq⟩ := s.converted_arrives hc a t x rest hbypass
  rw [heq]
  rw [← hwaiting]
  refine ⟨fun hw => ?_, fun b hw => ?_⟩
  · rw [State.blockArrives_waits _ (hband.trans hr) hw, State.xchan_setXchan_same]
    exact ⟨rfl, hskip⟩
  · rw [State.blockArrives_replaces _ (hband.trans hr) hw, State.xchan_addSat, State.xchan_setXchan_same, State.rdN_addSat_same]
    exact ⟨rfl, by rw [State.setXchan_rdN, State.rdN, hskip, ← State.rdN]⟩

/-- Without a band the block of a sample is gone. -/
theorem State.converted_noBand (s : State) {c : Nat} (hc : c < 8) (a : Analog) (t : Nat) (x : Nat × Nat) (rest : List (Nat × Nat))
    (hbypass : s.cfgOn (EXPRESS_CHAN_CFG_FRONTEND c) = false) (hr : s.bandFor c = none) :
    (((s.converted c t rest).sample c a x).xchan c).waiting = (s.xchan c).waiting := by
  obtain ⟨u, hwaiting, hband, -, heq⟩ := s.converted_arrives hc a t x rest hbypass
  rw [heq, State.blockArrives_none _ (hband.trans hr), hwaiting]

/-- Settles O37: what a conversion, the end of settling, a sample and a block of the fabric make of their channel and of its registers. -/
theorem samplesBecomeBlocks : Obligations.SamplesBecomeBlocks := by
  intro c s
  have hc : c.val < 8 := c.isLt
  refine ⟨fun t hdue ht => ?conversion, fun t hdue => execAdcConversion_notDue hdue, fun hover => ?settles, execSettleEnd_early,
    fun a t x rest hconv hthere => ?sample,
    fun ws t => ⟨fun n r hfront hen hout hws hnew hband hwait => ?fabric, execFabricBlock_undriven c ws t⟩⟩
  case conversion =>
    refine ⟨_, execAdcConversion_due hdue ht, ?_, fun j hj => State.xchan_setXchan_other _ _ _ _ hj, rfl, fun o ho => s.rd_atNs t o ho⟩
    rw [State.xchan_setXchan_same, State.xchan_atNs]
  case settles =>
    exact ⟨_, execSettleEnd_over hover, State.on_putB_same s (EXPRESS_CHAN_STATUS_SETTLING c) false rfl (by decide : 30 < 64),
      State.putB_xp _ _ _, State.putB_mem _ _ _,
      fun o ho => s.rd_put_other (EXPRESS_CHAN_STATUS_SETTLING c) _ o ho⟩
  case sample =>
    obtain ⟨hflags, hconv', hnow, hmem, hnote⟩ := s.converted_sample hc a t x rest
    exact ⟨_, execSampleAvailable_there a hconv hthere, hflags, hconv', hnow, hmem, hnote, fun hbypass r hr => s.converted_bypass hc a t x rest hbypass hr,
      fun hbypass hr => s.converted_noBand hc a t x rest hbypass hr⟩
  case fabric =>
    obtain ⟨u, htaken, hlate, hblock⟩ := State.fabricBlock_delivered ws t hnew
    obtain ⟨hchan, hregs, hpwr, hfloor⟩ := State.taken_spec htaken
    have hband' : u.bandFor c = some r := (State.bandFor_sampled hc hregs hpwr hfloor).trans hband
    have hwait' : (u.xchan c).waiting = none := by rw [hchan, ← hwait]
    have hexec := execFabricBlock_taken t hfront hen hout hws
    rw [hblock, State.blockArrives_waits _ hband' hwait'] at hexec
    refine ⟨_, hexec, ?_, ?_, fun h => ?_⟩
    · rw [State.xchan_setXchan_same]
    · rw [State.xchan_setXchan_same, hchan]
    · rw [hlate (of_decide_eq_true h)]
      exact s.lateTaken_spec hc t

end Sys2Proof.Machine
end

section
/-! SUPPORT. A report of class FATAL (Errors R588, R600) that is no THERMAL_TRIP shows its bit in STATUS. -/

namespace Sys2Proof.Machine
open Reg

theorem State.get_setErr (s : State) (f : ErrSt → ErrSt) (g : Fld) : (s.setErr f).get g = s.get g := rfl

/-- What a FATAL error does beyond its record spares the class bits of STATUS. -/
theorem State.get_fatal (s : State) {code : Nat} (hcold : (code == Code.THERMAL_TRIP) = false) {g : Fld} (hr : g.reg = ERROR_STATUS) (hh : g.hi < 8) :
    (s.fatal code).get g = s.get g := by
  have hsafe : ∀ f : Fld, f.reg = ERROR_SAFE_STATUS → g.reg ≠ f.reg := fun f hf => by
    rw [hr, hf]
    decide
  unfold State.fatal
  simp only [hcold, Bool.false_and, Bool.false_eq_true, if_false]
  split
  · rfl
  · split
    · rw [State.get_setErr, State.putB, State.get_put_other _ ERROR_SAFE_STATUS_NESTED g _ (hsafe _ rfl)]
    · rw [State.get_setErr, State.putB, State.get_put_other _ ERROR_SAFE_STATUS_NESTED g _ (hsafe _ rfl),
        State.get_put_other _ ERROR_SAFE_STATUS_CODE g _ (hsafe _ rfl), State.putB,
        State.get_put_apart _ ERROR_STATUS_ENTERING g _ (by decide) (by decide) (.inr (by show g.hi < 30; omega))]

theorem State.on_report_fatal (s : State) (e : Err) (hc : errClass e.code = some .fatal) (hcold : (e.code == Code.THERMAL_TRIP) = false) :
    (s.report e).on ERROR_STATUS_FATAL = true := by
  unfold State.report
  rw [hc]
  simp only [BEq.rfl, if_true]
  rw [State.on, State.get_fatal _ hcold rfl (by decide), KeepsSpared.errRecord _ _ _ _ _ _ ⟨by decide, by decide, by decide⟩, State.errStatus, State.putB,
    State.get_put_apart _ ERROR_STATUS_DEGRADED _ _ (by decide) (by decide) (.inl (by decide))]
  exact s.on_putB_same ERROR_STATUS_FATAL true rfl (by decide)

end Sys2Proof.Machine
end

section
/-! SUPPORT. Control ports (Express §6 to §8): the record of a port, and what the window guard reads. -/

namespace Sys2Proof.Machine
open Reg

/-! ### The record of a port -/

@[simp] theorem State.port_setPort_same (s : State) (p : Nat) (f : PortSt → PortSt) : (s.setPort p f).port p = f (s.port p) := SMap.get_set_same _ _ _ _
@[simp] theorem State.port_atNs (s : State) (t p : Nat) : (s.atNs t).port p = s.port p := rfl
@[simp] theorem State.port_addSat (s : State) (o n p : Nat) : (s.addSat o n).port p = s.port p := rfl
@[simp] theorem State.port_cx (s : State) (p i q : Nat) : (s.cx p i).port q = s.port q := rfl

/-! ### What the window guard reads (Express R380 to R382) -/

/-- PHASE and the counters of the cyclic exchange, which neither the guard nor an RSP reads. -/
def Uncounted (o : Nat) : Prop := o = ROUND_PHASE ∨ (0x700040 ≤ o ∧ o < 0x708000 ∧ 0x40 ≤ o % 0x1000 ∧ o % 0x1000 < 0x60)

theorem uncounted_cx {p i : Nat} (hp : p < 2) (hi : i < 8) : Uncounted (CPORT_CX_COUNT p i) := by
  unfold Uncounted CPORT_CX_COUNT
  omega

/-- The registers of the guard lie above the counters. -/
theorem counted_guard {o : Nat} (h : 0x708000 ≤ o) : ¬Uncounted o := by
  unfold Uncounted ROUND_PHASE
  omega

/-- PHASE apart, the registers of other blocks lie below the counters. -/
theorem counted_below {o : Nat} (h : o < 0x700040) (hphase : o ≠ ROUND_PHASE) : ¬Uncounted o := by
  unfold Uncounted
  omega

theorem counted_ctrl (p : Nat) : ¬Uncounted (CPORT_GUARD_CTRL p) := counted_guard (by unfold CPORT_GUARD_CTRL; omega)
theorem counted_switch (p : Nat) : ¬Uncounted (CPORT_GUARD_SWITCH p) := counted_guard (by unfold CPORT_GUARD_SWITCH; omega)
theorem counted_period (p b : Nat) : ¬Uncounted (CPORT_GUARD_PERIOD p b) := counted_guard (by unfold CPORT_GUARD_PERIOD; omega)
theorem counted_win (p b w : Nat) : ¬Uncounted (CPORT_GUARD_WIN p b w) := counted_guard (by unfold CPORT_GUARD_WIN; omega)
theorem counted_round : ¬Uncounted ROUND_COUNT := counted_below (by decide) (by decide)
theorem counted_netOffset : ¬Uncounted ROUND_NET_OFFSET := counted_below (by decide) (by decide)
theorem counted_timeStatus : ¬Uncounted ROUND_STATUS := counted_below (by decide) (by decide)

theorem counted_status (p : Nat) : ¬Uncounted (CPORT_STATUS p) := by
  unfold Uncounted CPORT_STATUS ROUND_PHASE
  omega

namespace RegsBut
variable {s t : State} (h : RegsBut Uncounted s t)
include h

theorem guardPermits (p : Nat) : t.guardPermits p = s.guardPermits p := by
  rw [State.guardPermits, h.cfgOn _ (counted_ctrl p), h.on _ (counted_ctrl p), ← State.guardPermits]

theorem guardBank (p : Nat) : t.guardBank p = s.guardBank p := h.get _ (counted_ctrl p)

theorem bankPeriod (p b : Nat) : t.bankPeriod p b = s.bankPeriod p b := congrArg (· + 1) (h.get _ (counted_period p b))

theorem bankWins (p b : Nat) : t.bankWins p b = s.bankWins p b := by
  simp only [State.bankWins, h.on (CPORT_GUARD_WIN_EN p b _) (counted_win p b _), h.get (CPORT_GUARD_WIN_START_ROUND p b _) (counted_win p b _),
    h.get (CPORT_GUARD_WIN_START_NS p b _) (counted_win p b _), h.get (CPORT_GUARD_WIN_LEN_NS p b _) (counted_win p b _)]

theorem bankValid (p b : Nat) : t.bankValid p b = s.bankValid p b := by
  simp only [State.bankValid, h.bankPeriod, h.rdN _ (counted_win p b _)]

theorem switchAt (p : Nat) : t.switchAt p = s.switchAt p := by
  simp only [State.switchAt, h.rdN _ (counted_switch p), h.rdN _ counted_netOffset, h.on (CPORT_GUARD_CTRL_SWITCH_PENDING p) (counted_ctrl p),
    h.round counted_round, h.guardBank, h.bankValid]

theorem periodStart (p b : Nat) (r : Int) : t.periodStart p b r = s.periodStart p b r := by
  simp only [State.periodStart, h.rdN _ counted_netOffset, h.bankPeriod]

theorem occurrences (p b : Nat) (w : Option Nat) (x : Int) : t.occurrences p b w x = s.occurrences p b w x := by
  simp only [State.occurrences, h.periodStart, h.bankWins, h.bankPeriod]

theorem bankAt (p : Nat) (x : Int) : t.bankAt p x = s.bankAt p x := by
  simp only [State.bankAt, h.switchAt, h.guardBank]

theorem openAt (p : Nat) (w : Option Nat) (x : Int) : t.openAt p w x = s.openAt p w x := by
  simp only [State.openAt, h.bankAt, h.occurrences]

theorem nextOpen (p : Nat) (w : Option Nat) (x : Int) : t.nextOpen p w x = s.nextOpen p w x := by
  simp only [State.nextOpen, h.bankAt, h.occurrences, h.openAt, h.guardBank]

theorem targetOcc (p w : Nat) (x : Int) : t.targetOcc p w x = s.targetOcc p w x := by
  simp only [State.targetOcc, h.openAt, h.nextOpen]

theorem timeValid : t.on ROUND_STATUS_TIME_VALID = s.on ROUND_STATUS_TIME_VALID := h.on _ counted_timeStatus

theorem mayStart (p x dur : Nat) : t.mayStart p x dur = s.mayStart p x dur := by
  simp only [State.mayStart, h.guardPermits, h.timeValid, h.openAt]

theorem octetNs (p : Nat) : t.octetNs p = s.octetNs p := by
  rw [State.octetNs, h.get _ (counted_status p), ← State.octetNs]

theorem frameNs (p n : Nat) : t.frameNs p n = s.frameNs p n := by rw [State.frameNs, h.octetNs, ← State.frameNs]

end RegsBut

end Sys2Proof.Machine
end

section
/-! SUPPORT. Transmission at a control port (Express R375, R382 to R384): what the guard grants, and what becomes of a response and of a gPTP frame that try to
start. -/

namespace Sys2Proof.Machine
open Reg

/-! ### What the guard grants -/

/-- A frame that may start lies whole in an open window, and is granted until its end. -/
theorem State.mayStart_some {s : State} {p t dur : Nat} {e : Int} (h : s.mayStart p t dur = some e) :
    s.guardPermits p = true ∧ s.on ROUND_STATUS_TIME_VALID = true ∧ ∃ o, s.openAt p none t = some o ∧ (t : Int) + dur ≤ o.2 ∧ e = o.2 := by
  unfold State.mayStart at h
  split at h
  · next hguard =>
    rw [Bool.and_eq_true] at hguard
    obtain ⟨hpermits, hvalid⟩ := hguard
    split at h
    · next o ho =>
      split at h
      · next hfits => exact ⟨hpermits, hvalid, o, ho, hfits, (Option.some.inj h).symm⟩
      · cases h
    · cases h
  · cases h

/-- The allowance is in force, its gap has passed since the last frame under it, and the next window is far enough. -/
theorem State.mayAllow_true {s : State} {p t dur octets : Nat} (h : s.mayAllow p t dur octets = true) :
    s.cfg (CPORT_GUARD_CTRL_PTP_GAP_MS p) ≠ 0 ∧ (∀ l, (s.port p).lastPtp = some l → l + s.cfg (CPORT_GUARD_CTRL_PTP_GAP_MS p) * 1000000 ≤ t) ∧
      ∀ o, s.nextOpen p none t = some o → (t : Int) + dur + 16 ≤ o.1 := by
  simp only [State.mayAllow, Bool.and_eq_true, bne_iff_ne, ne_eq] at h
  obtain ⟨⟨⟨⟨⟨-, hgap⟩, -⟩, -⟩, hlast⟩, hnext⟩ := h
  refine ⟨hgap, fun l hl => ?_, fun o ho => ?_⟩
  · rw [hl] at hlast
    exact of_decide_eq_true hlast
  · rw [ho] at hnext
    exact of_decide_eq_true hnext

/-! ### The queue of unsent responses -/

theorem takeFrame_gone_length {w : Option Nat} {l : List TxFrame} {f : TxFrame} (h : l.find? (fun x => x.window == w) = some f) :
    (takeFrame w (fun _ => []) l).length + 1 = l.length := by
  induction l with
  | nil => cases h
  | cons x t ih =>
    rw [List.find?_cons] at h
    rw [takeFrame]
    split at h
    · next hx => rw [if_pos hx]; rfl
    · next hx => rw [if_neg (by rw [hx]; decide), List.length_cons, ih h, List.length_cons]

theorem takeFrame_marked_length (w : Option Nat) (g : TxFrame → TxFrame) (l : List TxFrame) : (takeFrame w (fun f => [g f]) l).length = l.length := by
  induction l with
  | nil => rfl
  | cons x t ih =>
    rw [takeFrame]
    split
    · rfl
    · rw [List.length_cons, ih, List.length_cons]

/-! ### A response tries to start -/

@[simp] theorem State.port_startFrame (s : State) (p t : Nat) (e : Option Int) (f : Bytes) :
    (s.startFrame p t e f).port p = { s.port p with sent := (s.port p).sent ++ [⟨t, t + s.frameNs p f.length, e, false, f⟩] } := State.port_setPort_same _ _ _

/-- A port without the first response that waits for a window. -/
def State.unqueued (s : State) (p : Nat) (w : Option Nat) : State := s.setPort p fun x => { x with queue := takeFrame w (fun _ => []) x.queue }

/-- A port whose first response that waits for a window has been refused once. -/
def State.refusedOnce (s : State) (p : Nat) (w : Option Nat) : State :=
  (s.setPort p fun x => { x with queue := takeFrame w (fun f => [{ f with blocked := true }]) x.queue }).addSat (CPORT_GUARD_COUNT p 0) 1

@[simp] theorem State.port_unqueued (s : State) (p : Nat) (w : Option Nat) :
    (s.unqueued p w).port p = { s.port p with queue := takeFrame w (fun _ => []) (s.port p).queue } := State.port_setPort_same _ _ _

@[simp] theorem State.port_refusedOnce (s : State) (p : Nat) (w : Option Nat) :
    (s.refusedOnce p w).port p = { s.port p with queue := takeFrame w (fun f => [{ f with blocked := true }]) (s.port p).queue } := by
  rw [State.refusedOnce, State.port_addSat, State.port_setPort_same]

@[simp] theorem State.frameNs_unqueued (s : State) (p : Nat) (w : Option Nat) (n : Nat) : (s.unqueued p w).frameNs p n = s.frameNs p n := rfl

theorem State.port_cxIf (s : State) (b : Bool) (p i q : Nat) : (if b then s.cx p i else s).port q = s.port q := by
  split <;> rfl

section
variable {s : State} {p t : Nat} {f : TxFrame}

/-- A response that can no longer end in its interval is dropped. -/
theorem State.rspSend_late (h : f.occ.2 < max (t : Int) f.occ.1 + s.frameNs p f.octets.length) :
    s.rspSend p f t = if f.window.isSome then (s.unqueued p f.window).cx p 6 else s.unqueued p f.window := by
  rw [State.rspSend, if_pos h]
  rfl

variable (hends : ¬f.occ.2 < max (t : Int) f.occ.1 + s.frameNs p f.octets.length)
include hends

/-- A response waits for its interval and for the medium. -/
theorem State.rspSend_waits (h : (decide ((t : Int) < f.occ.1) || s.mediumBusy p t) = true) : s.rspSend p f t = s := by
  simp only [State.rspSend, if_neg hends, h, if_true]

variable (hfree : ¬(decide ((t : Int) < f.occ.1) || s.mediumBusy p t) = true)
include hfree

/-- A response starts where the guard grants it. -/
theorem State.rspSend_starts {e : Int} (h : s.mayStart p t (s.frameNs p f.octets.length) = some e) : s.rspSend p f t =
    if f.window.isSome then ((s.unqueued p f.window).startFrame p t (some e) f.octets).cx p 3 else (s.unqueued p f.window).startFrame p t (some e) f.octets := by
  simp only [State.rspSend, if_neg hends, if_neg hfree, h]
  rfl

/-- A response that the guard refuses waits, and counts once. -/
theorem State.rspSend_refused (h : s.mayStart p t (s.frameNs p f.octets.length) = none) :
    s.rspSend p f t = if f.blocked then s else s.refusedOnce p f.window := by
  simp only [State.rspSend, if_neg hends, if_neg hfree, h]
  rfl

end

/-- Either no frame starts, or the response, as the guard grants it. -/
theorem State.rspSend_sent (s : State) (p : Nat) (f : TxFrame) (t : Nat) : ((s.rspSend p f t).port p).sent = (s.port p).sent ∨
    ∃ e, s.mayStart p t (s.frameNs p f.octets.length) = some e ∧
      ((s.rspSend p f t).port p).sent = (s.port p).sent ++ [⟨t, t + s.frameNs p f.octets.length, some e, false, f.octets⟩] := by
  by_cases hlate : f.occ.2 < max (t : Int) f.occ.1 + s.frameNs p f.octets.length
  · rw [State.rspSend_late hlate, State.port_cxIf, State.port_unqueued]
    exact .inl rfl
  · by_cases hwait : (decide ((t : Int) < f.occ.1) || s.mediumBusy p t) = true
    · rw [State.rspSend_waits hlate hwait]
      exact .inl rfl
    · cases hmay : s.mayStart p t (s.frameNs p f.octets.length) with
      | none =>
        rw [State.rspSend_refused hlate hwait hmay]
        split
        · exact .inl rfl
        · rw [State.port_refusedOnce]
          exact .inl rfl
      | some e =>
        rw [State.rspSend_starts hlate hwait hmay, State.port_cxIf, State.port_startFrame, State.port_unqueued, State.frameNs_unqueued]
        exact .inr ⟨e, rfl, rfl⟩

/-! ### A gPTP frame tries to start -/

/-- A gPTP frame starts under the allowance. -/
def State.allowed (s : State) (p t : Nat) (f : Bytes) : State :=
  ((s.startFrame p t none f).setPort p fun x => { x with lastPtp := some t }).addSat (CPORT_GUARD_COUNT p 2) 1

@[simp] theorem State.port_allowed (s : State) (p t : Nat) (f : Bytes) : (s.allowed p t f).port p =
    { s.port p with sent := (s.port p).sent ++ [⟨t, t + s.frameNs p f.length, none, false, f⟩], lastPtp := some t } := by
  rw [State.allowed, State.port_addSat, State.port_setPort_same, State.port_startFrame]

/-- Either no frame starts, or the gPTP frame, of at most 103 octets, as the guard grants it or under the allowance. -/
theorem State.ptpSend_cases (s : State) (p : Nat) (f : Bytes) (t : Nat) : ((s.ptpSend p f t).port p).sent = (s.port p).sent ∨
    (s.guardPermits p = true ∧ f.length + 4 ≤ 103 ∧ ((∃ e, s.mayStart p t (s.frameNs p f.length) = some e ∧ s.ptpSend p f t = s.startFrame p t (some e) f) ∨
      (s.mayAllow p t (s.frameNs p f.length) (f.length + 4) = true ∧ s.ptpSend p f t = s.allowed p t f))) := by
  unfold State.ptpSend
  extract_lets dur
  split
  · exact .inl rfl
  · next hguard =>
    simp only [Bool.or_eq_true, Bool.not_eq_true', decide_eq_true_eq, not_or, Bool.not_eq_false] at hguard
    obtain ⟨⟨hpermits, -⟩, hlen⟩ := hguard
    split
    · next e hmay => exact .inr ⟨hpermits, by omega, .inl ⟨e, hmay, rfl⟩⟩
    · split
      · next hallow => exact .inr ⟨hpermits, by omega, .inr ⟨hallow, rfl⟩⟩
      · exact .inl rfl

/-! ### Cuts (Express R383) -/

/-- No frame is in progress at the instant of a cut. -/
theorem State.inFlight_cutFrame (s : State) (p t : Nat) : (s.cutFrame p t).inFlight p t = none := by
  rw [State.inFlight, State.cutFrame, State.port_setPort_same, List.find?_eq_none]
  intro x hx
  obtain ⟨f, -, rfl⟩ := List.mem_map.mp hx
  split
  · simp
  · next h => exact h

@[simp] theorem State.port_report (s : State) (e : Err) (p : Nat) : (s.report e).port p = s.port p := by simp only [State.port, State.report_ports]

theorem errClass_guardCut : errClass Code.GUARD_CUT = some .degraded := by decide
theorem errClass_switchRefused : errClass Code.GUARD_SWITCH_REFUSED = some .note := by decide
theorem errClass_guardDisagree : errClass Code.GUARD_DISAGREE = some .fatal := by decide

theorem State.inFlight_guardCut (s : State) (p t : Nat) : (s.guardCut p t).inFlight p t = none := by
  rw [State.inFlight, State.guardCut, State.port_report, State.port_addSat, ← State.inFlight, State.inFlight_cutFrame]

/-- The registers that a cut of a port changes. -/
def CutReg (p o : Nat) : Prop := o = CPORT_GUARD_COUNT p 1 ∨ errReg o

theorem State.guardCut_regs (s : State) (p t : Nat) : RegsBut (CutReg p) s (s.guardCut p t) :=
  (((RegsBut.refl s).setPort).addSat (o := CPORT_GUARD_COUNT p 1) (.inl rfl)).report fun _ ho => .inr ho

theorem not_cutReg_ctrl {p : Nat} (hp : p < 2) : ¬CutReg p (CPORT_GUARD_CTRL p) := by
  unfold CutReg errReg CPORT_GUARD_CTRL CPORT_GUARD_COUNT SECURE_SEC_NOTIFY
  omega

theorem counted_count (p i : Nat) : ¬Uncounted (CPORT_GUARD_COUNT p i) := counted_guard (by unfold CPORT_GUARD_COUNT; omega)

end Sys2Proof.Machine
end

section
/-! SUPPORT. No frame starts but as the window guard permits, and the guard cuts, switches and silences (Express §8). -/

namespace Sys2Proof.Machine
open Reg

/-! ### The commands -/

theorem execRspSend_queued {s : State} {p : Fin 2} {w : Option (Fin 16)} {f : TxFrame} (t : Nat)
    (hf : (s.port p).queue.find? (fun f => f.window == w.map Fin.val) = some f) (hlink : s.on (CPORT_STATUS_LINK p) = true) :
    exec (.rspSend p w t) s = .next ((s.atNs t).rspSend p f (s.at t)) := by
  show execRspSend p w t s = _
  simp only [execRspSend, hf, hlink, if_true]

theorem execPtpFrameSend_linked {s : State} {p : Fin 2} (f : Bytes) (t : Nat) (hlink : s.on (CPORT_STATUS_LINK p) = true) :
    exec (.ptpFrameSend p f t) s = .next ((s.atNs t).ptpSend p f (s.at t)) :=
  congrArg Host.Outcome.next (if_pos hlink)

theorem execGuardCut_over {s : State} {p : Fin 2} {t : Nat} {f : TxSent} {e : Int} (hf : s.inFlight p (s.at t) = some f) (he : f.wend = some e)
    (hover : e ≤ (s.at t : Int)) : exec (.guardCut p t) s = .next ((s.atNs t).guardCut p (s.at t)) := by
  show execGuardCut p t s = _
  simp only [execGuardCut, hf, he, hover, decide_true, Bool.true_or, if_true]

theorem execGuardSwitchApply_now {s : State} {p : Fin 2} (hpend : s.on (CPORT_GUARD_CTRL_SWITCH_PENDING p) = true)
    (hnow : ofSigned 64 s.netRound = s.rdN (CPORT_GUARD_SWITCH p)) : exec (.guardSwitchApply p) s = .next (s.guardSwitch p) := by
  show execGuardSwitchApply p s = _
  simp only [execGuardSwitchApply, hpend, hnow, BEq.rfl, Bool.and_self, if_true]

theorem execGuardSwitchApply_unarmed {s : State} {p : Fin 2} (hpend : s.on (CPORT_GUARD_CTRL_SWITCH_PENDING p) = false) :
    exec (.guardSwitchApply p) s = .next s := by
  show execGuardSwitchApply p s = _
  simp only [execGuardSwitchApply, hpend, Bool.false_and, Bool.false_eq_true, if_false]

theorem execGuardDisagree_permits {s : State} {p : Fin 2} (h : s.guardPermits p = true) :
    exec (.guardDisagree p) s = .next ((s.silence p).report { code := Code.GUARD_DISAGREE, unit := p }) :=
  congrArg Host.Outcome.next (if_pos h)

/-! ### Frames that start -/

theorem RegsBut.timed (s : State) (t : Nat) : RegsBut Uncounted s (s.atNs t) := (RegsBut.refl s).atNs (.inl rfl)

/-- A response that tries to start starts in a window that the guard has open, or not at all. -/
theorem execRspSend_guarded (p : Fin 2) (w : Option (Fin 16)) (t : Nat) (s : State) :
    ∃ u, exec (.rspSend p w t) s = .next u ∧ ((u.port p).sent = (s.port p).sent ∨
      ∃ x o, (u.port p).sent = (s.port p).sent ++ [x] ∧ s.guardPermits p = true ∧ s.on ROUND_STATUS_TIME_VALID = true ∧ s.openAt p none (s.at t) = some o ∧
        x.start = s.at t ∧ x.stop = s.at t + s.frameNs p x.octets.length ∧ (x.stop : Int) ≤ o.2 ∧ x.wend = some o.2 ∧ x.cut = false) := by
  have hreads := RegsBut.timed s t
  cases hf : (s.port p).queue.find? (fun f => f.window == w.map Fin.val) with
  | none => exact ⟨s, by show execRspSend p w t s = _; rw [execRspSend, hf], .inl rfl⟩
  | some f =>
    cases hlink : s.on (CPORT_STATUS_LINK p) with
    | false => exact ⟨s, by show execRspSend p w t s = _; simp only [execRspSend, hf, hlink, Bool.false_eq_true, if_false], .inl rfl⟩
    | true =>
      refine ⟨_, execRspSend_queued t hf hlink, ?_⟩
      obtain hsame | ⟨e, hmay, hsent⟩ := (s.atNs t).rspSend_sent p f (s.at t)
      · exact .inl hsame
      · rw [hreads.mayStart, hreads.frameNs] at hmay
        rw [hreads.frameNs] at hsent
        obtain ⟨hpermits, hvalid, o, hopen, hfits, rfl⟩ := State.mayStart_some hmay
        exact .inr ⟨_, o, hsent, hpermits, hvalid, hopen, rfl, rfl, by push_cast; exact hfits, rfl, rfl⟩

/-- A gPTP frame that tries to start starts in a window that the guard has open, under the allowance, or not at all. -/
theorem execPtpFrameSend_guarded (p : Fin 2) (f : Bytes) (t : Nat) (s : State) :
    ∃ u, exec (.ptpFrameSend p f t) s = .next u ∧ ((u.port p).sent = (s.port p).sent ∨
      ∃ x, (u.port p).sent = (s.port p).sent ++ [x] ∧ s.guardPermits p = true ∧ x.start = s.at t ∧ x.stop = s.at t + s.frameNs p f.length ∧ f.length + 4 ≤ 103 ∧
        ((s.on ROUND_STATUS_TIME_VALID = true ∧ ∃ o, s.openAt p none (s.at t) = some o ∧ (x.stop : Int) ≤ o.2 ∧ x.wend = some o.2) ∨
          (s.cfg (CPORT_GUARD_CTRL_PTP_GAP_MS p) ≠ 0 ∧ x.wend = none ∧ (u.port p).lastPtp = some (s.at t) ∧
            (∀ l, (s.port p).lastPtp = some l → l + s.cfg (CPORT_GUARD_CTRL_PTP_GAP_MS p) * 1000000 ≤ s.at t) ∧
            (∀ o, s.nextOpen p none (s.at t) = some o → (x.stop : Int) + 16 ≤ o.1) ∧
            u.rdN (CPORT_GUARD_COUNT p 2) = min (s.rdN (CPORT_GUARD_COUNT p 2) + 1) 0xFFFFFFFF))) := by
  have hreads := RegsBut.timed s t
  cases hlink : s.on (CPORT_STATUS_LINK p) with
  | false => exact ⟨s, congrArg Host.Outcome.next (if_neg (by rw [hlink]; decide)), .inl rfl⟩
  | true =>
    refine ⟨_, execPtpFrameSend_linked f t hlink, ?_⟩
    obtain hsame | ⟨hpermits, hlen, ⟨e, hmay, heq⟩ | ⟨hallow, heq⟩⟩ := (s.atNs t).ptpSend_cases p f (s.at t)
    · exact .inl hsame
    · rw [hreads.mayStart, hreads.frameNs] at hmay
      obtain ⟨-, hvalid, o, hopen, hfits, rfl⟩ := State.mayStart_some hmay
      rw [heq, State.port_startFrame, hreads.frameNs]
      exact .inr ⟨_, rfl, (hreads.guardPermits p).symm.trans hpermits, rfl, rfl, hlen, .inl ⟨hvalid, o, hopen, by push_cast; exact hfits, rfl⟩⟩
    · obtain ⟨hgap, hlast, hnext⟩ := State.mayAllow_true hallow
      rw [hreads.frameNs] at hnext
      simp only [hreads.nextOpen] at hnext
      rw [hreads.cfg _ (counted_ctrl p)] at hgap hlast
      rw [heq, State.port_allowed, hreads.frameNs]
      refine .inr ⟨_, rfl, (hreads.guardPermits p).symm.trans hpermits, rfl, rfl, hlen, .inr ⟨hgap, rfl, rfl, hlast, fun o ho => ?_, ?_⟩⟩
      · push_cast
        exact hnext o ho
      · rw [State.allowed, State.rdN_addSat_same]
        rw [State.setPort_rdN, State.startFrame, State.setPort_rdN, hreads.rdN _ (counted_count p 2)]

/-! ### What becomes of a response -/

theorem State.rdN_cx_same (s : State) (p i : Nat) : (s.cx p i).rdN (CPORT_CX_COUNT p i) = min (s.rdN (CPORT_CX_COUNT p i) + 1) 0xFFFFFFFF :=
  s.rdN_addSat_same _ _

theorem cxCount_ne_phase (p i : Nat) : CPORT_CX_COUNT p i ≠ ROUND_PHASE := by
  unfold CPORT_CX_COUNT ROUND_PHASE
  omega

section
variable {s : State} {p : Fin 2} {w : Fin 16} {t : Nat} {f : TxFrame} (hf : (s.port p).queue.find? (fun f => f.window == some w.val) = some f)
  (hlink : s.on (CPORT_STATUS_LINK p) = true)
include hf hlink

/-- The response of a window that can no longer end in its occurrence is dropped and counted. -/
theorem execRspSend_late (h : f.occ.2 < max (s.at t : Int) f.occ.1 + s.frameNs p f.octets.length) :
    ∃ u, exec (.rspSend p (some w) t) s = .next u ∧ (u.port p).sent = (s.port p).sent ∧ (u.port p).queue.length + 1 = (s.port p).queue.length ∧
      u.rdN (CPORT_CX_COUNT p 6) = min (s.rdN (CPORT_CX_COUNT p 6) + 1) 0xFFFFFFFF := by
  have hw : f.window = some w.val := by simpa using List.find?_some hf
  rw [← (RegsBut.timed s t).frameNs] at h
  refine ⟨_, execRspSend_queued (w := some w) t hf hlink, ?_⟩
  rw [State.rspSend_late h, hw, Option.isSome_some, if_pos rfl, State.port_cx, State.port_unqueued, State.rdN_cx_same, State.unqueued, State.setPort_rdN,
    State.rdN_atNs s t _ (cxCount_ne_phase p 6)]
  exact ⟨rfl, takeFrame_gone_length hf, rfl⟩

variable (hends : max (s.at t : Int) f.occ.1 + s.frameNs p f.octets.length ≤ f.occ.2) (hopens : f.occ.1 ≤ (s.at t : Int))
  (hfree : s.mediumBusy p (s.at t) = false)
include hends hopens hfree

omit hf hlink in
/-- At the instant of a command too, the response can end in its occurrence, and neither waits for it nor for the medium. -/
theorem State.rspSend_ready : ¬f.occ.2 < max (s.at t : Int) f.occ.1 + (s.atNs t).frameNs p f.octets.length ∧
    ¬(decide ((s.at t : Int) < f.occ.1) || (s.atNs t).mediumBusy p (s.at t)) = true := by
  have hreads := RegsBut.timed s t
  have hbusy : (s.atNs t).mediumBusy p (s.at t) = false := by
    rw [State.mediumBusy, hreads.octetNs]
    exact hfree
  rw [hreads.frameNs, hbusy, Bool.or_false, decide_eq_true_eq]
  exact ⟨not_lt.mpr hends, not_lt.mpr hopens⟩

/-- The response of a window starts where the guard grants it, and is counted. -/
theorem execRspSend_starts {e : Int} (h : s.mayStart p (s.at t) (s.frameNs p f.octets.length) = some e) :
    ∃ u, exec (.rspSend p (some w) t) s = .next u ∧
      (u.port p).sent = (s.port p).sent ++ [⟨s.at t, s.at t + s.frameNs p f.octets.length, some e, false, f.octets⟩] ∧
      u.rdN (CPORT_CX_COUNT p 3) = min (s.rdN (CPORT_CX_COUNT p 3) + 1) 0xFFFFFFFF := by
  have hw : f.window = some w.val := by simpa using List.find?_some hf
  have hreads := RegsBut.timed s t
  obtain ⟨hends', hfree'⟩ := State.rspSend_ready hends hopens hfree
  rw [← hreads.frameNs, ← hreads.mayStart] at h
  refine ⟨_, execRspSend_queued (w := some w) t hf hlink, ?_⟩
  rw [State.rspSend_starts hends' hfree' h, hw, Option.isSome_some, if_pos rfl, State.port_cx, State.port_startFrame, State.port_unqueued,
    State.frameNs_unqueued, hreads.frameNs, State.rdN_cx_same, State.startFrame, State.setPort_rdN, State.unqueued, State.setPort_rdN,
    State.rdN_atNs s t _ (cxCount_ne_phase p 3)]
  exact ⟨rfl, rfl⟩

/-- The response of a window that the guard refuses for the first time waits, and is counted. -/
theorem execRspSend_refused (h : s.mayStart p (s.at t) (s.frameNs p f.octets.length) = none) (hfirst : f.blocked = false) :
    ∃ u, exec (.rspSend p (some w) t) s = .next u ∧ (u.port p).sent = (s.port p).sent ∧ (u.port p).queue.length = (s.port p).queue.length ∧
      u.rdN (CPORT_GUARD_COUNT p 0) = min (s.rdN (CPORT_GUARD_COUNT p 0) + 1) 0xFFFFFFFF := by
  have hreads := RegsBut.timed s t
  obtain ⟨hends', hfree'⟩ := State.rspSend_ready hends hopens hfree
  rw [← hreads.frameNs, ← hreads.mayStart] at h
  refine ⟨_, execRspSend_queued (w := some w) t hf hlink, ?_⟩
  rw [State.rspSend_refused hends' hfree' h, hfirst, if_neg Bool.false_ne_true, State.port_refusedOnce, State.refusedOnce, State.rdN_addSat_same,
    State.setPort_rdN, hreads.rdN _ (counted_count p 0)]
  exact ⟨rfl, takeFrame_marked_length _ _ _, rfl⟩

end

/-! ### Cuts and switches -/

/-- A transmission that is cut is no longer in progress, and the cut is counted and reported. -/
theorem State.guardCut_spec (s : State) (p t x : Nat) (hp : p < 2) : ((s.atNs t).guardCut p x).inFlight p x = none ∧
    ((s.atNs t).guardCut p x).on ERROR_STATUS_DEGRADED = true ∧
    ((s.atNs t).guardCut p x).rdN (CPORT_GUARD_COUNT p 1) = min (s.rdN (CPORT_GUARD_COUNT p 1) + 1) 0xFFFFFFFF := by
  have hout : CPORT_GUARD_COUNT p 1 < 0xC00000 := by unfold CPORT_GUARD_COUNT; omega
  refine ⟨State.inFlight_guardCut _ p x, State.on_report_degraded _ _ errClass_guardCut, ?_⟩
  rw [State.guardCut, State.rdN, State.rd_report _ _ _ (by unfold SECURE_SEC_NOTIFY; omega) (.inl (by omega)), ← State.rdN, State.rdN_addSat_same, State.cutFrame,
    State.setPort_rdN, (RegsBut.timed s t).rdN _ (counted_count p 1)]

/-- A switch to a valid bank: the pending bit is cleared, a frame that crosses the boundary may be cut, and the bank changes. -/
theorem State.guardSwitch_valid {s : State} {p : Nat} (h : s.bankValid p (1 - s.guardBank p) = true) :
    ∃ u, RegsBut (CutReg p) (s.putB (CPORT_GUARD_CTRL_SWITCH_PENDING p) false) u ∧
      s.guardSwitch p = u.put (CPORT_GUARD_CTRL_ACTIVE_BANK p) (1 - s.guardBank p) := by
  unfold State.guardSwitch
  extract_lets u v
  rw [if_pos h]
  refine ⟨v, ?_, rfl⟩
  dsimp only [v]
  split
  · split
    · exact u.guardCut_regs p _
    · exact .refl u
  · exact .refl u

theorem State.guardSwitch_refused {s : State} {p : Nat} (h : s.bankValid p (1 - s.guardBank p) = false) :
    s.guardSwitch p = (s.putB (CPORT_GUARD_CTRL_SWITCH_PENDING p) false).report { code := Code.GUARD_SWITCH_REFUSED, unit := p } := by
  rw [State.guardSwitch, if_neg (by rw [h]; decide)]

/-- A switch makes a valid standby bank active, and reports one that is not. -/
theorem State.guardSwitch_spec (s : State) {p : Nat} (hp : p < 2) : (s.guardSwitch p).on (CPORT_GUARD_CTRL_SWITCH_PENDING p) = false ∧
    (s.bankValid p (1 - s.guardBank p) = true → (s.guardSwitch p).guardBank p = 1 - s.guardBank p) ∧
    (s.bankValid p (1 - s.guardBank p) = false → (s.guardSwitch p).guardBank p = s.guardBank p ∧ (s.guardSwitch p).on ERROR_STATUS_NOTE = true ∧
      (s.guardSwitch p).ports = s.ports) := by
  have hcleared := s.on_putB_same (CPORT_GUARD_CTRL_SWITCH_PENDING p) false rfl (by decide : 24 < 64)
  cases hvalid : s.bankValid p (1 - s.guardBank p) with
  | true =>
    obtain ⟨u, hregs, heq⟩ := State.guardSwitch_valid hvalid
    rw [heq]
    refine ⟨?_, fun _ => ?_, nofun⟩
    · exact (congrArg (· != 0) (u.get_put_apart (CPORT_GUARD_CTRL_ACTIVE_BANK p) (CPORT_GUARD_CTRL_SWITCH_PENDING p) _ (Nat.le_refl 16) (by decide : 16 < 64)
        (.inl (by decide : 16 < 24)))).trans ((hregs.on (CPORT_GUARD_CTRL_SWITCH_PENDING p) (not_cutReg_ctrl hp)).trans hcleared)
    · exact (u.get_put_same (CPORT_GUARD_CTRL_ACTIVE_BANK p) _ (Nat.le_refl 16) (by decide : 16 < 64)).trans
        (Nat.mod_eq_of_lt (show 1 - s.guardBank p < 2 by omega))
  | false =>
    have hctrl : CPORT_GUARD_CTRL p < 0xC00000 := by unfold CPORT_GUARD_CTRL; omega
    rw [State.guardSwitch_refused hvalid]
    refine ⟨?_, nofun, fun _ => ⟨?_, State.on_report_note _ _ errClass_switchRefused, (State.report_ports _ _).trans (State.putB_ports _ _ _)⟩⟩
    · exact (congrArg (· != 0) (State.get_report_district _ _ (g := CPORT_GUARD_CTRL_SWITCH_PENDING p) hctrl)).trans hcleared
    · exact (State.get_report_district _ _ (g := CPORT_GUARD_CTRL_ACTIVE_BANK p) hctrl).trans
        (s.get_put_apart (CPORT_GUARD_CTRL_SWITCH_PENDING p) (CPORT_GUARD_CTRL_ACTIVE_BANK p) _ (Nat.le_refl 24) (by decide : 24 < 64) (.inr (by decide : 16 < 24)))

/-- A silenced guard permits nothing. -/
theorem State.guardPermits_silenced (s : State) {p : Nat} (hp : p < 2) (e : Err) : ((s.silence p).report e).guardPermits p = false := by
  have hctrl : CPORT_GUARD_CTRL p < 0xC00000 := by unfold CPORT_GUARD_CTRL; omega
  have hsilent : ((s.silence p).report e).on (CPORT_GUARD_CTRL_SILENT p) = true := by
    rw [State.on, State.get_report_district _ e (g := CPORT_GUARD_CTRL_SILENT p) hctrl, State.silence, State.cutFrame, State.setPort_get]
    exact s.on_putB_same (CPORT_GUARD_CTRL_SILENT p) true rfl (by decide : 30 < 64)
  rw [State.guardPermits, hsilent, Bool.not_true, Bool.and_false]

/-- Settles O40: the commands that start frames start none but what the guard grants, and the guard's own commands cut, switch and silence. -/
theorem guardLetsFramesStartOnlyInItsWindows : Obligations.GuardLetsFramesStartOnlyInItsWindows := by
  intro p s
  refine ⟨fun w t => execRspSend_guarded p w t s, fun f t => execPtpFrameSend_guarded p f t s, fun w t f hf hlink => ⟨execRspSend_late hf hlink,
    fun hends hopens hfree => ⟨fun e => execRspSend_starts hf hlink hends hopens hfree, execRspSend_refused hf hlink hends hopens hfree⟩⟩,
    fun t f e hf he hover => ⟨_, execGuardCut_over hf he hover, s.guardCut_spec p t (s.at t) p.isLt⟩,
    fun hpend hnow => ⟨_, execGuardSwitchApply_now hpend hnow, s.guardSwitch_spec p.isLt⟩, execGuardSwitchApply_unarmed,
    fun hpermits => ⟨_, execGuardDisagree_permits hpermits, s.guardPermits_silenced p.isLt _, State.on_report_fatal _ _ errClass_guardDisagree
      (by decide : (Code.GUARD_DISAGREE == Code.THERMAL_TRIP) = false)⟩⟩

end Sys2Proof.Machine
end

section
/-! SUPPORT. The cyclic exchange (Express R371 to R377): what a valid REQ leaves, the RSP of a snapshot, and the answer to a service request. -/

namespace Sys2Proof.Machine
open Reg

/-! ### Requests (Express R375, R376) -/

theorem cxCount_inj {p i j : Nat} (h : i ≠ j) : CPORT_CX_COUNT p i ≠ CPORT_CX_COUNT p j := by
  unfold CPORT_CX_COUNT
  omega

theorem State.rdN_cx_other (s : State) (p : Nat) {i j : Nat} (h : j ≠ i) : (s.cx p i).rdN (CPORT_CX_COUNT p j) = s.rdN (CPORT_CX_COUNT p j) :=
  s.rdN_wrN_other _ _ _ (cxCount_inj h)

@[simp] theorem State.port_dropRx (s : State) (p : Nat) : (s.dropRx p).port p = { s.port p with rx := (s.port p).rx.drop 1 } := State.port_setPort_same _ _ _
@[simp] theorem State.rdN_dropRx (s : State) (p o : Nat) : (s.dropRx p).rdN o = s.rdN o := rfl

/-- The oldest frame of a port has been taken as a valid REQ and counted. -/
def State.reqTaken (s : State) (p last : Nat) : State := ((s.dropRx p).cx p 0).setPort p fun x => { x with lastReq := some last }

theorem State.port_reqTaken (s : State) (p last : Nat) :
    (s.reqTaken p last).port p = { s.port p with rx := (s.port p).rx.drop 1, lastReq := some last } := by
  rw [State.reqTaken, State.port_setPort_same, State.port_cx, State.port_dropRx]

theorem State.rdN_reqTaken (s : State) (p last : Nat) :
    (s.reqTaken p last).rdN (CPORT_CX_COUNT p 0) = min (s.rdN (CPORT_CX_COUNT p 0) + 1) 0xFFFFFFFF := by
  rw [State.reqTaken, State.setPort_rdN, State.rdN_cx_same, State.rdN_dropRx]

theorem State.rdN_reqTaken_other (s : State) (p last : Nat) {j : Nat} (h : j ≠ 0) :
    (s.reqTaken p last).rdN (CPORT_CX_COUNT p j) = s.rdN (CPORT_CX_COUNT p j) := by
  rw [State.reqTaken, State.setPort_rdN, State.rdN_cx_other _ p h, State.rdN_dropRx]

theorem State.reqTaken_regs (s : State) {p : Nat} (hp : p < 2) (last : Nat) : RegsBut Uncounted s (s.reqTaken p last) :=
  RegsBut.setPort (RegsBut.addSat (RegsBut.setPort (RegsBut.refl s)) (uncounted_cx hp (by decide)))

section
variable {s : State} {p last : Nat} {f : Bytes} {q w m : Nat} (hp : p < 2)
include hp

/-- A valid REQ without valid time, or that the guard would not answer, is counted in NO_TIME and gets no response. -/
theorem State.cxReq_noTime (h : (s.on ROUND_STATUS_TIME_VALID && s.guardPermits p) = false) :
    (s.dropRx p).cxReq p last f q w m = (s.reqTaken p last).cx p 7 := by
  have hreads := s.reqTaken_regs hp last
  rw [← hreads.timeValid, ← hreads.guardPermits, ← Bool.not_eq_true', Bool.not_and] at h
  exact if_pos h

theorem State.cxReq_timed (h : (s.on ROUND_STATUS_TIME_VALID && s.guardPermits p) = true) :
    (!(s.reqTaken p last).on ROUND_STATUS_TIME_VALID || !(s.reqTaken p last).guardPermits p) ≠ true := by
  have hreads := s.reqTaken_regs hp last
  rw [hreads.timeValid, hreads.guardPermits, ← Bool.not_and, h]
  decide

/-- A valid REQ whose window does not open is counted in NO_WINDOW and gets no response. -/
theorem State.cxReq_noWindow (h : (s.on ROUND_STATUS_TIME_VALID && s.guardPermits p) = true) (ho : s.targetOcc p w last = none) :
    (s.dropRx p).cxReq p last f q w m = (s.reqTaken p last).cx p 4 := by
  rw [← (s.reqTaken_regs hp last).targetOcc] at ho
  refine (if_neg (State.cxReq_timed hp h)).trans ?_
  rw [← State.reqTaken, ho]

/-- A valid REQ waits for its snapshot with its target occurrence, in the place of one for the same window. -/
theorem State.cxReq_waits (h : (s.on ROUND_STATUS_TIME_VALID && s.guardPermits p) = true) {o : Int × Int} (ho : s.targetOcc p w last = some o) :
    ∃ n, (s.dropRx p).cxReq p last f q w m = ((s.reqTaken p last).setPort p fun x => { x with
      reqs := (x.reqs.filter fun r => r.window != w) ++ [⟨last, (f.drop 6).take 6, (frameParts f).1, q, w, m, o⟩]
      queue := x.queue.filter fun r => r.window != some w }).addSat (CPORT_CX_COUNT p 5) n := by
  rw [← (s.reqTaken_regs hp last).targetOcc] at ho
  have hcounted : (s.dropRx p).cxReq p last f q w m = _ := if_neg (State.cxReq_timed hp h)
  rw [← State.reqTaken, ho] at hcounted
  exact ⟨_, hcounted⟩

end

/-! ### Snapshots (Express R373, R374) -/

theorem counted_param (p : Nat) : ¬Uncounted (CPORT_CX_PARAM p) := by
  unfold Uncounted CPORT_CX_PARAM ROUND_PHASE
  omega

theorem counted_mac (p : Nat) : ¬Uncounted (CPORT_MAC_ADDR p) := by
  unfold Uncounted CPORT_MAC_ADDR ROUND_PHASE
  omega

theorem counted_cxCfg (p : Nat) : ¬Uncounted (CPORT_CX_CFG p) := by
  unfold Uncounted CPORT_CX_CFG ROUND_PHASE
  omega

theorem counted_mailbox {c k : Nat} (hc : c < 8) (hk : k < 32) : ¬Uncounted (EXPRESS_MAILBOX c k) := by
  unfold Uncounted EXPRESS_MAILBOX ROUND_PHASE
  omega

theorem counted_chanCfg {c : Nat} (hc : c < 8) : ¬Uncounted (EXPRESS_CHAN_CFG c) := by
  unfold Uncounted EXPRESS_CHAN_CFG ROUND_PHASE
  omega

/-- What a snapshot reads is the same in both states. -/
structure SnapAlike (s t : State) : Prop where
  regs : RegsBut Uncounted s t
  xp : t.xp = s.xp
  floor : t.floor = s.floor
  free : t.freeCtr = s.freeCtr

namespace SnapAlike
variable {s t : State} (h : SnapAlike s t)
include h

theorem newestRecord {c : Nat} (hc : c < 8) : t.newestRecord c = s.newestRecord c := by
  have hchan : t.xchan c = s.xchan c := by rw [State.xchan, h.xp, ← State.xchan]
  have hk : ∀ j, j < 4 → t.rdN (EXPRESS_MAILBOX c (((s.xchan c).seq + 7) % 8 * 4 + j)) = s.rdN (EXPRESS_MAILBOX c (((s.xchan c).seq + 7) % 8 * 4 + j)) :=
    fun j hj => h.regs.rdN _ (counted_mailbox hc (by omega))
  have h0 := hk 0 (by decide)
  simp only [State.newestRecord, hchan, hk 2 (by decide), hk 3 (by decide), h.regs.cfgOn (EXPRESS_CHAN_CFG_ENABLE c) (counted_chanCfg hc)]
  rw [Nat.add_zero] at h0
  rw [h0]

/-- The item of a channel is the same, and so is what a snapshot reads after it. -/
theorem cxItem (p : Nat) {c : Nat} (hc : c < 8) : (t.cxItem p c).1 = (s.cxItem p c).1 ∧ SnapAlike (s.cxItem p c).2 (t.cxItem p c).2 := by
  have hrecord := h.newestRecord hc
  cases hs : s.newestRecord c with
  | some r =>
    simp only [State.cxItem, hrecord.trans hs, hs, h.regs.round counted_round, h.regs.cfg (CPORT_CX_PARAM_MAX_AGE p) (counted_param p)]
    exact ⟨trivial, h⟩
  | none =>
    simp only [State.cxItem, hrecord.trans hs, hs, h.free]
    exact ⟨trivial, ⟨h.regs.acting, h.regs.rd⟩, h.xp, h.floor, congrArg (· + 2) h.free⟩

theorem cxItems (p : Nat) {cs : List Nat} (hcs : ∀ c ∈ cs, c < 8) : (t.cxItems p cs).1 = (s.cxItems p cs).1 := by
  induction cs generalizing s t with
  | nil => rfl
  | cons c cs ih =>
    obtain ⟨hitem, hnext⟩ := h.cxItem p (hcs c List.mem_cons_self)
    rw [State.cxItems, State.cxItems, hitem, ih hnext fun d hd => hcs d (List.mem_cons_of_mem c hd)]

theorem cxHeader (p type seq len w flags mask : Nat) : t.cxHeader p type seq len w flags mask = s.cxHeader p type seq len w flags mask := by
  rw [State.cxHeader, h.regs.cfg _ (counted_cxCfg p), ← State.cxHeader]

theorem cxFrame (p : Nat) (da : Bytes) (tci : Option Nat) (pdu : Bytes) : t.cxFrame p da tci pdu = s.cxFrame p da tci pdu := by
  simp only [State.cxFrame, h.regs.cfg (CPORT_CX_CFG_ETHERTYPE p) (counted_cxCfg p), h.regs.cfg (CPORT_CX_PARAM_RSP_PCP p) (counted_param p),
    h.regs.cfg (CPORT_MAC_ADDR_ADDR p) (counted_mac p)]

theorem cxFlags : t.cxFlags = s.cxFlags := by
  rw [State.cxFlags, State.armedRun, h.floor, h.regs.on _ (counted_guard (by decide)), ← State.armedRun, ← State.cxFlags]

theorem netRound : t.netRound = s.netRound := by
  rw [State.netRound, h.regs.round counted_round, h.regs.rdN _ counted_netOffset, ← State.netRound]

end SnapAlike

theorem State.cxItems_ports (s : State) (p : Nat) (cs : List Nat) : (s.cxItems p cs).2.ports = s.ports := by
  induction cs generalizing s with
  | nil => rfl
  | cons c cs ih =>
    rw [State.cxItems, ih]
    unfold State.cxItem
    split <;> rfl

/-- The RSP of a request, as a snapshot makes it. -/
def State.rspOf (s : State) (p : Nat) (r : CxReq) : TxFrame :=
  ⟨some r.window, r.occ, s.cxFrame p r.sa r.tci (s.cxHeader p 2 r.seq (24 + 16 * (onesBelow r.mask 8).length) r.window s.cxFlags r.mask ++
    beBytes 8 (ofSigned 64 s.netRound) ++ (s.cxItems p (onesBelow r.mask 8)).1), false⟩

theorem State.port_cxSnapshot (s : State) (p : Nat) (r : CxReq) : (s.cxSnapshot p r).port p =
    { s.port p with queue := (s.port p).queue ++ [s.rspOf p r] } := by
  have hport : (s.cxItems p (onesBelow r.mask 8)).2.port p = s.port p := by rw [State.port, s.cxItems_ports, ← State.port]
  rw [State.cxSnapshot, State.port_setPort_same, hport]
  rfl

theorem SnapAlike.rspOf {s t : State} (h : SnapAlike s t) (p : Nat) (r : CxReq) : t.rspOf p r = s.rspOf p r := by
  have hcs : ∀ c ∈ onesBelow r.mask 8, c < 8 := fun c hc => List.mem_range.mp (List.mem_filter.mp hc).1
  rw [State.rspOf, h.cxItems p hcs, h.cxHeader, h.cxFlags, h.netRound, h.cxFrame, ← State.rspOf]

/-! ### Answers to service requests (Express R377) -/

/-- A service request is counted, and answered unless four answers wait. -/
theorem State.svcAnswer_spec (s : State) (p last : Nat) (f : Bytes) (q op : Nat) (body : Bytes) :
    (((s.dropRx p).svcAnswer p last f q op body).port p).rx = (s.port p).rx.drop 1 ∧
    ((s.dropRx p).svcAnswer p last f q op body).rdN (CPORT_CX_COUNT p 0) = min (s.rdN (CPORT_CX_COUNT p 0) + 1) 0xFFFFFFFF ∧
    (((s.port p).queue.filter fun x => x.window.isNone).length < 4 →
      (((s.dropRx p).svcAnswer p last f q op body).port p).queue.length = (s.port p).queue.length + 1) ∧
    (4 ≤ ((s.port p).queue.filter fun x => x.window.isNone).length →
      (((s.dropRx p).svcAnswer p last f q op body).port p).queue = (s.port p).queue) := by
  have hport : ((s.dropRx p).cx p 0).port p = { s.port p with rx := (s.port p).rx.drop 1 } := by rw [State.port_cx, State.port_dropRx]
  have hcount : ((s.dropRx p).cx p 0).rdN (CPORT_CX_COUNT p 0) = min (s.rdN (CPORT_CX_COUNT p 0) + 1) 0xFFFFFFFF := by
    rw [State.rdN_cx_same, State.rdN_dropRx]
  unfold State.svcAnswer
  extract_lets u pdu due
  rw [hport]
  split
  · next hfull => exact ⟨by rw [hport], hcount, fun h => absurd hfull (by simpa using h), fun _ => by rw [hport]⟩
  · next hroom =>
    have hport' : u.useFree.port p = { s.port p with rx := (s.port p).rx.drop 1 } := hport
    rw [State.port_setPort_same, hport']
    exact ⟨rfl, hcount, fun _ => by simp, fun h => absurd h hroom⟩

end Sys2Proof.Machine
end

section
/-! SUPPORT. A control port accepts frames, answers valid requests, and reports links and silence (Express §6, §7). -/

namespace Sys2Proof.Machine
open Reg

/-! ### Links (Express R368) -/

theorem cportStatus_below {p : Nat} (hp : p < 2) : CPORT_STATUS p < 0xC00000 := by
  unfold CPORT_STATUS
  omega

theorem State.linkSpeed_lt (s : State) (p offer : Nat) : s.linkSpeed p offer < 4 := by
  unfold State.linkSpeed
  split_ifs <;> decide

theorem errClass_cportLink : errClass Code.CPORT_LINK = some .note := by decide
theorem errClass_cxSilent : errClass Code.CPORT_CX_SILENT = some .note := by decide

/-- A port's status with its link at a new speed. -/
def State.linked (s : State) (p speed : Nat) : State :=
  ((s.putB (CPORT_STATUS_LINK p) (speed != 0)).put (CPORT_STATUS_SPEED p) speed).putB (CPORT_STATUS_PREEMPT_ACTIVE p) false

theorem State.linked_spec (s : State) (p : Nat) {speed : Nat} (h : speed < 4) : (s.linked p speed).get (CPORT_STATUS_SPEED p) = speed ∧
    (s.linked p speed).on (CPORT_STATUS_LINK p) = (speed != 0) ∧ (s.linked p speed).on (CPORT_STATUS_PREEMPT_ACTIVE p) = false := by
  refine ⟨?_, ?_, State.on_putB_same _ (CPORT_STATUS_PREEMPT_ACTIVE p) false rfl (by decide : 28 < 64)⟩
  · rw [State.linked, State.putB, State.get_put_apart _ (CPORT_STATUS_PREEMPT_ACTIVE p) (CPORT_STATUS_SPEED p) _ (Nat.le_refl 28) (by decide : 28 < 64)
      (.inl (by decide : 28 < 29)), State.get_put_same _ (CPORT_STATUS_SPEED p) _ (by decide : 29 ≤ 30) (by decide : 30 < 64)]
    exact Nat.mod_eq_of_lt h
  · rw [State.linked, State.on_putB_apart _ (CPORT_STATUS_PREEMPT_ACTIVE p) (CPORT_STATUS_LINK p) _ (Nat.le_refl 28) (by decide : 28 < 64)
      (.inl (by decide : 28 < 31)), State.on, State.get_put_apart _ (CPORT_STATUS_SPEED p) (CPORT_STATUS_LINK p) _ (by decide : 29 ≤ 30) (by decide : 30 < 64)
      (.inl (by decide : 30 < 31)), ← State.on]
    exact State.on_putB_same _ (CPORT_STATUS_LINK p) _ rfl (by decide : 31 < 64)

theorem State.setLink_same {s : State} {p speed : Nat} (h : speed = s.get (CPORT_STATUS_SPEED p)) : s.setLink p speed = s := if_pos h

/-- A link that changes shows its new speed, and its coming up or going down is reported. -/
theorem State.setLink_changes (s : State) {p : Nat} (hp : p < 2) {speed : Nat} (hne : speed ≠ s.get (CPORT_STATUS_SPEED p)) :
    (∀ g, g.reg = CPORT_STATUS p → (s.setLink p speed).get g = ((s.cutFrame p s.now).linked p speed).get g) ∧
      (s.on (CPORT_STATUS_LINK p) ≠ (speed != 0) → (s.setLink p speed).on ERROR_STATUS_NOTE = true) := by
  unfold State.setLink
  rw [if_neg hne]
  extract_lets was u v
  have hu : u = (s.cutFrame p s.now).linked p speed := rfl
  have hv : ∀ g, v.get g = ((s.cutFrame p s.now).linked p speed).get g := fun g => by
    dsimp only [v]
    split
    · rw [State.setRnd_get, hu]
    · rw [hu]
  split
  · exact ⟨fun g hg => (v.get_report_district _ (hg ▸ cportStatus_below hp)).trans (hv g), fun _ => State.on_report_note _ _ errClass_cportLink⟩
  · next hup => exact ⟨fun g _ => hv g, fun h => absurd (bne_iff_ne.mpr h) hup⟩

/-! ### The commands -/

section
variable {s : State} {p : Fin 2}

theorem execCportFrameReceive_cyclic {f : Bytes} {fcs : Bool} (t : Nat) (hlink : s.on (CPORT_STATUS_LINK p) = true) (haccepts : s.accepts p f fcs = true)
    (hcyclic : (frameParts f).2.1 = s.cfg (CPORT_CX_CFG_ETHERTYPE p)) :
    exec (.cportFrameReceive p f fcs t) s = .next ((s.atNs t).setPort p fun x => { x with rx := x.rx ++ [(s.at t, f)] }) := by
  show execCportFrameReceive p f fcs t s = _
  simp only [execCportFrameReceive, hlink, haccepts, hcyclic, Bool.not_true, Bool.false_eq_true, if_false, if_true]

theorem execCportFrameReceive_other {f : Bytes} {fcs : Bool} (t : Nat) (hlink : s.on (CPORT_STATUS_LINK p) = true) (haccepts : s.accepts p f fcs = false) :
    exec (.cportFrameReceive p f fcs t) s = .next ((s.atNs t).cx p 2) := by
  show execCportFrameReceive p f fcs t s = _
  simp only [execCportFrameReceive, hlink, haccepts, Bool.not_true, Bool.not_false, Bool.false_eq_true, if_false, if_true]

theorem execReq_bad {last : Nat} {f : Bytes} (h : s.frontPdu p = some (last, f, none)) : exec (.req p) s = .next ((s.dropRx p).cx p 1) := by
  show execReq p s = _
  simp only [execReq, h]

theorem execReq_req {last : Nat} {f : Bytes} {q w m : Nat} (h : s.frontPdu p = some (last, f, some (.req q w m))) :
    exec (.req p) s = .next ((s.dropRx p).cxReq p last f q w m) := by
  show execReq p s = _
  simp only [execReq, h]

theorem execCxSnapshot_due {r : CxReq} {rest : List CxReq} {t : Nat} (h : (s.port p).reqs = r :: rest) (hdue : r.last + s.snapNs p ≤ s.at t) :
    exec (.cxSnapshot p t) s = .next (((s.atNs t).setPort p fun x => { x with reqs := rest }).cxSnapshot p r) := by
  show execCxSnapshot p t s = _
  simp only [execCxSnapshot, h, hdue, if_true]

theorem execSvcIdentify_req {last : Nat} {f : Bytes} {q : Nat} (h : s.frontPdu p = some (last, f, some (.svc q 1))) :
    exec (.svcIdentify p) s = .next ((s.dropRx p).svcAnswer p last f q 1 s.identBody) := by
  show execSvcIdentify p s = _
  simp only [execSvcIdentify, h]

theorem execSvcCounters_req {last : Nat} {f : Bytes} {q : Nat} (h : s.frontPdu p = some (last, f, some (.svc q 2))) :
    exec (.svcCounters p) s = .next ((s.dropRx p).svcAnswer p last f q 2 ((s.cx p 0).counterBody p)) := by
  show execSvcCounters p s = _
  simp only [execSvcCounters, h]

theorem execCportCxSilent_over {l t : Nat} (h : (s.port p).lastReq = some l) (hn : s.cfg ⟨CPORT_CX_TIMEOUT p, 31, 0⟩ ≠ 0)
    (hover : l + s.cfg ⟨CPORT_CX_TIMEOUT p, 31, 0⟩ * 1000 ≤ s.at t) : exec (.cportCxSilent p t) s =
      .next (((s.atNs t).setPort p fun x => { x with lastReq := none }).report { code := Code.CPORT_CX_SILENT, unit := p }) := by
  show execCportCxSilent p t s = _
  simp only [execCportCxSilent, h, bne_iff_ne.mpr hn, hover, decide_true, Bool.and_self, if_true]

theorem execCportCxSilent_none (t : Nat) (h : (s.port p).lastReq = none) : exec (.cportCxSilent p t) s = .next s := by
  show execCportCxSilent p t s = _
  simp only [execCportCxSilent, h]

theorem execPreemptVerify_on (hlink : s.on (CPORT_STATUS_LINK p) = true) (hpreempt : s.cfgOn (CPORT_PORT_CFG_PREEMPT p) = true) :
    exec (.preemptVerify p) s = .next (s.putB (CPORT_STATUS_PREEMPT_ACTIVE p) true) :=
  congrArg Host.Outcome.next (if_pos (by rw [hlink, hpreempt, Bool.and_self]))

end

/-! ### The statement -/

/-- A link is shown as its partner's offer and PORT_CFG give it. -/
theorem execCportLink_shown (p : Fin 2) (offer : Fin 3) (t : Nat) (s : State) : ∃ u, exec (.cportLink p offer t) s = .next u ∧
    u.get (CPORT_STATUS_SPEED p) = s.linkSpeed p offer ∧ (s.linkSpeed p offer ≠ s.get (CPORT_STATUS_SPEED p) →
      u.on (CPORT_STATUS_LINK p) = (s.linkSpeed p offer != 0) ∧ u.on (CPORT_STATUS_PREEMPT_ACTIVE p) = false ∧
        (s.on (CPORT_STATUS_LINK p) ≠ (s.linkSpeed p offer != 0) → u.on ERROR_STATUS_NOTE = true)) := by
  have hreads := RegsBut.timed s t
  have hspeed := hreads.get (CPORT_STATUS_SPEED p) (counted_status p)
  refine ⟨(s.atNs t).setLink p (s.linkSpeed p offer), rfl, ?_⟩
  by_cases hsame : s.linkSpeed p offer = s.get (CPORT_STATUS_SPEED p)
  · rw [State.setLink_same (hsame.trans hspeed.symm)]
    exact ⟨hspeed.trans hsame.symm, fun h => absurd hsame h⟩
  · obtain ⟨hget, hnote⟩ := (s.atNs t).setLink_changes p.isLt (fun h => hsame (h.trans hspeed))
    obtain ⟨hs, hl, hp⟩ := ((s.atNs t).cutFrame p (s.atNs t).now).linked_spec p (s.linkSpeed_lt p offer)
    rw [hreads.on (CPORT_STATUS_LINK p) (counted_status p)] at hnote
    exact ⟨(hget _ rfl).trans hs, fun _ => ⟨(congrArg (· != 0) (hget _ rfl)).trans hl, (congrArg (· != 0) (hget _ rfl)).trans hp, hnote⟩⟩

/-- A valid REQ is counted, and waits for its snapshot or is counted as one that gets no response. -/
theorem execReq_taken {p : Fin 2} {s : State} {last : Nat} {f : Bytes} {q w m : Nat} (h : s.frontPdu p = some (last, f, some (.req q w m))) :
    ∃ u, exec (.req p) s = .next u ∧ (u.port p).rx = (s.port p).rx.drop 1 ∧ (u.port p).sent = (s.port p).sent ∧ (u.port p).lastReq = some last ∧
      u.rdN (CPORT_CX_COUNT p 0) = min (s.rdN (CPORT_CX_COUNT p 0) + 1) 0xFFFFFFFF ∧
      ((s.on ROUND_STATUS_TIME_VALID && s.guardPermits p) = false → (u.port p).reqs = (s.port p).reqs ∧
        u.rdN (CPORT_CX_COUNT p 7) = min (s.rdN (CPORT_CX_COUNT p 7) + 1) 0xFFFFFFFF) ∧
      ((s.on ROUND_STATUS_TIME_VALID && s.guardPermits p) = true →
        (s.targetOcc p w last = none → (u.port p).reqs = (s.port p).reqs ∧ u.rdN (CPORT_CX_COUNT p 4) = min (s.rdN (CPORT_CX_COUNT p 4) + 1) 0xFFFFFFFF) ∧
        (∀ o, s.targetOcc p w last = some o → (u.port p).reqs =
          ((s.port p).reqs.filter fun r => r.window != w) ++ [⟨last, (f.drop 6).take 6, (frameParts f).1, q, w, m, o⟩])) := by
  have hport := s.port_reqTaken p last
  refine ⟨_, execReq_req h, ?_⟩
  cases htimed : s.on ROUND_STATUS_TIME_VALID && s.guardPermits p with
  | false =>
    rw [State.cxReq_noTime p.isLt htimed, State.port_cx, hport, State.rdN_cx_other _ p (by decide), State.rdN_reqTaken, State.rdN_cx_same,
      State.rdN_reqTaken_other _ p last (by decide)]
    exact ⟨rfl, rfl, rfl, rfl, fun _ => ⟨rfl, rfl⟩, nofun⟩
  | true =>
    cases ho : s.targetOcc p w last with
    | none =>
      rw [State.cxReq_noWindow p.isLt htimed ho, State.port_cx, hport, State.rdN_cx_other _ p (by decide), State.rdN_reqTaken, State.rdN_cx_same,
        State.rdN_reqTaken_other _ p last (by decide)]
      exact ⟨rfl, rfl, rfl, rfl, nofun, fun _ => ⟨fun _ => ⟨rfl, rfl⟩, nofun⟩⟩
    | some o =>
      obtain ⟨n, heq⟩ := State.cxReq_waits (f := f) (q := q) (m := m) p.isLt htimed ho
      rw [heq, State.port_addSat, State.port_setPort_same, hport, State.addSat, State.rdN_wrN_other _ _ _ _ (cxCount_inj (by decide)), State.setPort_rdN,
        State.rdN_reqTaken]
      exact ⟨rfl, rfl, rfl, rfl, nofun, fun _ => ⟨nofun, fun o' ho' => by rw [← Option.some.inj ho']⟩⟩

/-- Settles O39: what each frame, request, silence and link makes of its port and of its counters. -/
theorem controlPortsAnswerRequests : Obligations.ControlPortsAnswerRequests := by
  intro p s
  refine ⟨fun f fcs t hlink => ⟨fun haccepts hcyclic => ?cyclic, fun haccepts => ?other⟩, fun last f h => ?bad, fun last f q w m => execReq_taken,
    fun r rest t hreqs hdue => ?snapshot, fun last f q => ⟨fun h => ?identify, fun h => ?counters⟩, fun l t hlast hn hover => ?silent,
    execCportCxSilent_none, fun offer t => execCportLink_shown p offer t s,
    fun hlink hpreempt => ⟨_, execPreemptVerify_on hlink hpreempt, State.on_putB_same s (CPORT_STATUS_PREEMPT_ACTIVE p) true rfl (by decide : 28 < 64),
      State.putB_ports _ _ _⟩⟩
  case cyclic =>
    refine ⟨_, execCportFrameReceive_cyclic t hlink haccepts hcyclic, ?_⟩
    rw [State.port_setPort_same, State.port_atNs]
    exact ⟨rfl, rfl, rfl⟩
  case other =>
    refine ⟨_, execCportFrameReceive_other t hlink haccepts, rfl, ?_⟩
    rw [State.rdN_cx_same, State.rdN_atNs s t _ (cxCount_ne_phase p 2)]
  case bad =>
    refine ⟨_, execReq_bad h, ?_⟩
    rw [State.port_cx, State.port_dropRx, State.rdN_cx_same, State.rdN_dropRx]
    exact ⟨rfl, rfl, rfl⟩
  case snapshot =>
    have halike : SnapAlike s ((s.atNs t).setPort p fun x => { x with reqs := rest }) := ⟨(RegsBut.timed s t).setPort, rfl, rfl, rfl⟩
    refine ⟨_, execCxSnapshot_due hreqs hdue, ?_⟩
    rw [State.port_cxSnapshot, State.port_setPort_same, State.port_atNs, halike.rspOf]
    exact ⟨rfl, rfl, rfl⟩
  case identify =>
    exact ⟨_, execSvcIdentify_req h, s.svcAnswer_spec p last f q 1 _⟩
  case counters =>
    obtain ⟨hrx, hcount, hroom, -⟩ := s.svcAnswer_spec p last f q 2 ((s.cx p 0).counterBody p)
    exact ⟨_, execSvcCounters_req h, hrx, hcount, hroom⟩
  case silent =>
    refine ⟨_, execCportCxSilent_over hlast hn hover, ?_, State.on_report_note _ _ errClass_cxSilent⟩
    rw [State.port_report, State.port_setPort_same]

end Sys2Proof.Machine
end

section
/-! SUPPORT. The queue of waiting commands (chapter 0 section 5). -/

namespace Sys2Proof.Machine

/-- The queue is kept by every elementary update and by the cut of power. -/
theorem stepClosed_pending (l : List Instr) : StepClosed (fun s => s.pending = l) where
  toClosed := closed_pending l
  powerCut _ hs := hs

/-- Settles O5, by what every command keeps: no elementary update touches the queue. -/
theorem commandsLeaveQueueAlone : Obligations.CommandsLeaveQueueAlone := by
  intro c s t ht
  have hexec := (stepClosed_pending s.pending).exec rfl c
  rw [ht] at hexec
  exact hexec

/-- Settles O1: a step takes the front of the queue apart and runs it. -/
theorem stepRunsFrontCommand : Obligations.StepRunsFrontCommand := by
  intro c rest s
  rfl

/-- Settles O2: with an empty queue a step takes the branch that idles. -/
theorem stepIdlesOnEmptyQueue : Obligations.StepIdlesOnEmptyQueue := by
  intro s hempty
  unfold step
  rw [hempty]

/-- Settles O3: the memory, the host memory and the register file are empty at reset, and an empty map is in canonical form. -/
theorem resetStateIsCanonical : Obligations.ResetStateIsCanonical :=
  ⟨SMap.wf_nil _, SMap.wf_nil _, SMap.wf_nil _⟩

end Sys2Proof.Machine
end

section
/-! SUPPORT. RUNs on districts beyond the sixteen, as in the refutations above: what the end of such a RUN writes as the DEBUG_STATE of its district is a register
of another block. Five statements speak of every state, and fail in such a one. -/

namespace Sys2Proof.Machine
open Reg

/-- The district number whose DEBUG_STATE would lie at a register. -/
def strayAt (off : Nat) : Nat := (off - FLOOR_DEBUG_STATE 0) / 4

/-! ### A third alert of the expansion channel (Memory R421) -/

/-- A read of the stray RUN that has been replayed twice. -/
def replayedRead : MemEntry := { tag := 0, by_ := .ring 5 0, a := 0x1000000000, len := 1, write := none, old := [0], cls := 1, arr := 0, replays := 2 }

/-- SPINE is up, the expansion channel is in service, and its retry buffer holds the read of the stray RUN. -/
def alertStray : State :=
  (((strayState [strayAt MEMCTL_DX_STATUS]).putB GLOBAL_BOOT_STATUS_SPINE_UP true).put MEMCTL_DX_STATUS_STATE 2).setMchan 8 fun m => { m with retry := [replayedRead] }

/-- Refutes O42: the channel goes DOWN, and the end of the RUN whose read returns poison writes over the state as NODE of its district's DEBUG_STATE. -/
theorem not_memoryDataRefreshTrainingAndExpansion : ¬ Obligations.MemoryDataRefreshTrainingAndExpansion := by
  intro h
  obtain ⟨-, halert, -⟩ := h alertStray
  obtain ⟨-, hthird, -⟩ := halert 0
  obtain ⟨t, ht, hstate, -⟩ := hthird (by decide +kernel) (by decide +kernel) (by decide +kernel)
  obtain rfl := Host.Outcome.next.inj ht
  exact absurd hstate (by decide +kernel)

/-! ### A voltage request that fails (Power states R484) -/

/-- The first bus has sent a request for the rail of district 0 three times; the district waits to open, and the stray RUN is on it too. -/
def voltageStray : State :=
  ((((strayState [0, strayAt (POWER_AVS_STATUS 0)]).put (POWER_DOM_STATUS_STATE 0) 0).wrN ROUND_COUNT 10).setPdom 0 fun x => { x with opens := true }).setAvs 0 fun b =>
    { b with cur := some { dom := 0, mv := 0, issued := 0, tries := 3 } }

/-- Refutes O47: FAILS is counted, the district goes OFF, and the end of the RUN clears the count as CAUSE of its district's DEBUG_STATE. -/
theorem not_stepsVoltagesPadsAndHolds : ¬ Obligations.StepsVoltagesPadsAndHolds := by
  intro h
  obtain ⟨-, -, -, -, -, havs, -⟩ := h voltageStray
  obtain ⟨hcur, -⟩ := havs 0 0
  obtain ⟨-, -, -, hfails⟩ := hcur { dom := 0, mv := 0, issued := 0, tries := 3 } rfl (by decide) (by decide)
  obtain ⟨t, ht, -, hcount⟩ := hfails (by decide +kernel) (by decide)
  obtain rfl := Host.Outcome.next.inj ht
  exact absurd hcount (by decide +kernel)

/-! ### A postmaster that does not start (Firmware R567) -/

/-- The postmaster of district 0 is STARTING, and the stray RUN is on the district too. -/
def startingStray : State := (strayState [0, strayAt (FIRMWARE_PROC_STATE 3)]).put (FIRMWARE_PROC_STATE_STATE 3) 3

/-- Refutes O54: the postmaster halts, and the end of the RUN writes over its state as NODE of its district's DEBUG_STATE. -/
theorem not_processorsLoadStartHaltAndLog : ¬ Obligations.ProcessorsLoadStartHaltAndLog := by
  intro h
  obtain ⟨-, hready, -⟩ := h startingStray
  obtain ⟨-, -, hformat⟩ := hready 3 2 0
  obtain ⟨t, ht, hstate, -⟩ := hformat (by decide +kernel) rfl
  obtain rfl := Host.Outcome.next.inj ht
  exact absurd hstate (by decide +kernel)

/-! ### The entry to the safe state (Errors R602) -/

/-- An entry to the safe state is due. -/
def dueEntry : SafeEntry := { code := 0xD001, round := 0, grace := 0, due := true }

/-- The stray RUN whose district has reached node 0 of its parcel. -/
def guardRun : RunSt := { strayRun [] with dists := [{ d := strayAt (CPORT_GUARD_CTRL 0), node := 0 }] }

/-- The entry is due while the RUN is in progress. -/
def safeStray : State := (State.reset.setFloor fun f => { f with runs := [guardRun] }).setErr fun e => { e with entry := some dueEntry }

/-- Refutes O56: the guards are silenced first, and the end of the RUN then clears SILENT as NODE of its district's DEBUG_STATE. -/
theorem not_safeStateIsEnteredHeldAndLeft : ¬ Obligations.SafeStateIsEnteredHeldAndLeft := by
  intro h
  obtain ⟨-, -, -, -, hreached, -⟩ := h safeStray
  obtain ⟨-, -, hdue⟩ := hreached 0
  obtain ⟨t, ht, -, -, -, -, -, hsilent, -⟩ := hdue dueEntry rfl (.inl rfl)
  obtain rfl := Host.Outcome.next.inj ht
  exact absurd (hsilent 0) (by decide +kernel)

/-! ### A completion timeout on PCIe (Links R618) -/

/-- PD_PCIE is up, and the envelope of the stray RUN has started. -/
def timeoutStray : State := ((strayState [strayStatus]).put (POWER_DOM_STATUS_STATE 21) 0).setRing 5
  { (strayState []).ring 5 with flights := [{ seq := 0, env := [], stage := .started, fetchRound := 0 }] }

/-- Refutes O57: the report of the timeout sets CONTAINED, and the end of the RUN that it fails then clears it as ENCRYPTED of its district's DEBUG_STATE. -/
theorem not_hostAndPlantLinksActAsRuled : ¬ Obligations.HostAndPlantLinksActAsRuled := by
  intro h
  obtain ⟨-, -, -, herror, -⟩ := h timeoutStray
  obtain ⟨-, hup⟩ := herror 0 .timeout (.envelope 5 0)
  obtain ⟨-, -, -, hmisses⟩ := hup (by decide +kernel)
  obtain ⟨t, ht, hcontained, -⟩ := hmisses (.inl rfl)
  obtain rfl := Host.Outcome.next.inj ht
  exact absurd hcontained (by decide +kernel)

end Sys2Proof.Machine
end

section
/-! SUPPORT. Updates of what a block shows: registers and interrupts, and nothing that the blocks hold beyond them. -/

namespace Sys2Proof.Machine
open Reg

/-- `t` is `s` but for the registers whose offsets are in `W` and the interrupts sent. -/
structure Displayed (W : Nat → Prop) (s t : State) : Prop extends RegsBut W s t where
  parts : ∃ regs irqs, t = { s with regs := regs, irqs := irqs }

namespace Displayed
variable {W V : Nat → Prop} {s t u : State}

theorem of_irqs (irqs : List Irq) : Displayed W s { s with irqs := irqs } := ⟨.of_regs rfl rfl, s.regs, irqs, rfl⟩
theorem refl (s : State) : Displayed W s s := of_irqs s.irqs

theorem trans (h : Displayed W s t) (k : Displayed W t u) : Displayed W s u := by
  obtain ⟨h, _, _, rfl⟩ := h
  obtain ⟨k, r, i, rfl⟩ := k
  exact ⟨h.trans k, r, i, rfl⟩

/-- The same change is one of a larger set of registers. -/
theorem mono (h : Displayed W s t) (hW : ∀ o, W o → V o) : Displayed V s t := ⟨⟨h.acting, fun o ho => h.rd o fun k => ho (hW o k)⟩, h.parts⟩

section changes
variable (h : Displayed W s t)
include h

theorem wr {o : Nat} {v : Word} (ho : W o) : Displayed W s (t.wr o v) :=
  h.trans ⟨(RegsBut.refl t).wr ho, _, t.irqs, rfl⟩
theorem wrN {o n : Nat} (ho : W o) : Displayed W s (t.wrN o n) := h.wr ho
theorem put {f : Fld} {n : Nat} (ho : W f.reg) : Displayed W s (t.put f n) := h.wr ho
theorem putB {f : Fld} {b : Bool} (ho : W f.reg) : Displayed W s (t.putB f b) := h.wr ho
theorem addSat {o n : Nat} (ho : W o) : Displayed W s (t.addSat o n) := h.wr ho
theorem setBit {o i : Nat} {b : Bool} (ho : W o) : Displayed W s (t.setBit o i b) := h.wr ho
theorem msix {f v : Nat} : Displayed W s (t.msix f v) := by
  unfold State.msix
  generalize (if f = 0 then 2048 else 256) = n
  split
  · exact h
  · exact h.trans (of_irqs _)

theorem coreIrq {b : Bool} {n : Nat} {v : Option Nat} : Displayed W s (t.coreIrq b n v) := by
  unfold State.coreIrq
  split
  · exact h.trans (of_irqs _)
  · exact h

theorem irqTo {f v n : Nat} : Displayed W s (t.irqTo f v n) := by
  unfold State.irqTo
  split
  · exact h.msix
  · split
    · exact h.coreIrq
    · split
      · exact h.coreIrq
      · exact h

theorem errSync (hW : W ERROR_STATUS) : Displayed W s t.errSync := by
  unfold State.errSync
  dsimp only
  split
  · exact ((h.put hW).putB hW).put hW
  · exact ((h.put hW).putB hW).put hW

theorem errIrq {c : Nat} : Displayed W s (t.errIrq c) := by
  unfold State.errIrq
  have hmsix : Displayed W s (if (t.cfgOn ERROR_IRQ_CFG_EN && decide (t.cfg ERROR_IRQ_CFG_MIN_CLASS ≤ c)) = true then
      (t.msix 0 (t.cfg ERROR_IRQ_CFG_VECTOR)).coreIrq false 0xD0 none else t) := by
    split
    · exact h.msix.coreIrq
    · exact h
  dsimp only
  split
  · exact hmsix.coreIrq
  · exact hmsix

theorem mem : t.mem = s.mem := by obtain ⟨_, _, _, rfl⟩ := h; rfl
theorem err : t.err = s.err := by obtain ⟨_, _, _, rfl⟩ := h; rfl
theorem hostMem : t.hostMem = s.hostMem := by obtain ⟨_, _, _, rfl⟩ := h; rfl
theorem pwr : t.pwr = s.pwr := by obtain ⟨_, _, _, rfl⟩ := h; rfl
theorem fab : t.fab = s.fab := by obtain ⟨_, _, _, rfl⟩ := h; rfl
theorem floor : t.floor = s.floor := by obtain ⟨_, _, _, rfl⟩ := h; rfl
theorem rings : t.rings = s.rings := by obtain ⟨_, _, _, rfl⟩ := h; rfl
theorem trust : t.trust = s.trust := by obtain ⟨_, _, _, rfl⟩ := h; rfl
theorem gov : t.gov = s.gov := by obtain ⟨_, _, _, rfl⟩ := h; rfl
theorem memc : t.memc = s.memc := by obtain ⟨_, _, _, rfl⟩ := h; rfl
theorem boot : t.boot = s.boot := by obtain ⟨_, _, _, rfl⟩ := h; rfl
theorem links : t.links = s.links := by obtain ⟨_, _, _, rfl⟩ := h; rfl

theorem txn : t.txn = s.txn := by obtain ⟨_, _, _, rfl⟩ := h; rfl
theorem fw : t.fw = s.fw := by obtain ⟨_, _, _, rfl⟩ := h; rfl

theorem dom {i : Nat} (hi : ¬W (POWER_DOM_STATUS i)) : t.dom i = s.dom i := by
  simp only [State.dom, h.pwr, h.get (POWER_DOM_STATUS_STATE i) hi]

end changes

end Displayed

/-! ### Registers that are never down -/

/-- POWER, MONITOR, SECURE, ERROR and FIRMWARE are reached in every state of the power domains (Power states Table 14.2). -/
theorem State.regDown_always (s : State) {off : Nat} (hlo : 0xA00000 ≤ off) (hhi : off < 0xF00000) : s.regDown off = false := by
  have hnone : regDomain off = none := by
    unfold regDomain
    rw [if_neg (by omega), if_neg (by omega), if_neg (by omega), if_neg (by omega), if_neg (by omega), if_neg (by omega), if_neg (by omega), if_neg]
    simp only [Bool.and_eq_true, decide_eq_true_eq]
    omega
  have hblock : off / 0x10000 / 16 = 10 ∨ off / 0x10000 / 16 = 11 ∨ off / 0x10000 / 16 = 12 ∨ off / 0x10000 / 16 = 13 ∨ off / 0x10000 / 16 = 14 := by omega
  have hone : off / 0x10000 ≠ 1 := by omega
  unfold State.regDown
  rw [hnone]
  rcases hblock with hb | hb | hb | hb | hb <;> simp [hb, hone]

/-- A write of a register that is never down takes effect where its requester has a path and holds no low half. -/
theorem State.landing_always {s : State} {q : Req} {off : Nat} (hlo : 0xA00000 ≤ off) (hhi : off < 0xF00000) (hpath : s.path q = true) (hhold : s.holdOf q = none)
    (f : State → State) : s.landing q off f = f s :=
  s.landing_of_lands q off f ⟨hpath, hhold, s.regDown_always hlo hhi⟩

/-- A write by a requester without a path does nothing. -/
theorem State.landing_pathless {s : State} {q : Req} (off : Nat) (hpath : s.path q = false) (f : State → State) : s.landing q off f = s := by
  rw [State.landing, hpath]
  rfl

end Sys2Proof.Machine
end

section
/-! SUPPORT. The acknowledgement of the current error record (Errors R593, R595). -/

namespace Sys2Proof.Machine
open Reg

/-- The record is the best of the queue: the highest class, and the lowest SEQ within it. -/
def Best (b : ErrRec) (l : List ErrRec) : Prop := b ∈ l ∧ ∀ x ∈ l, x.cls ≤ b.cls ∧ (x.cls = b.cls → b.seq ≤ x.seq)

theorem bestRec_isSome {r : ErrRec} {l : List ErrRec} : (bestRec (r :: l)).isSome = true := by
  unfold bestRec
  split
  · rfl
  · split <;> rfl

theorem bestRec_eq_none {l : List ErrRec} (h : bestRec l = none) : l = [] := by
  cases l with
  | nil => rfl
  | cons r l => exact absurd (bestRec_isSome (r := r) (l := l)) (by rw [h]; decide)

theorem bestRec_best {l : List ErrRec} {b : ErrRec} (h : bestRec l = some b) : Best b l := by
  induction l generalizing b with
  | nil => cases h
  | cons r l ih =>
    unfold bestRec at h
    split at h
    · next hnone =>
      cases h
      rw [bestRec_eq_none hnone]
      exact ⟨List.mem_singleton_self _, fun x hx => by rw [List.mem_singleton.1 hx]; omega⟩
    · next c hc =>
      obtain ⟨hmem, hbest⟩ := ih hc
      split at h
      · next hbetter =>
        cases h
        refine ⟨List.mem_cons_of_mem _ hmem, fun x hx => ?_⟩
        rcases List.mem_cons.1 hx with rfl | hx
        · simp only [Bool.or_eq_true, Bool.and_eq_true, decide_eq_true_eq, beq_iff_eq] at hbetter
          omega
        · exact hbest x hx
      · next hworse =>
        cases h
        refine ⟨List.mem_cons_self, fun x hx => ?_⟩
        rcases List.mem_cons.1 hx with rfl | hx
        · omega
        · have := hbest x hx
          simp only [Bool.or_eq_true, Bool.and_eq_true, decide_eq_true_eq, beq_iff_eq] at hworse
          omega

theorem State.on_errSync_valid (s : State) : s.errSync.on ERROR_STATUS_CUR_VALID = s.curRec.isSome := by
  unfold State.errSync
  dsimp only
  split
  · next r hr =>
    rw [State.on, State.get_put_apart _ ERROR_STATUS_CUR_CLASS ERROR_STATUS_CUR_VALID _ (by decide) (by decide) (by decide), ← State.on,
      State.on_putB_same _ ERROR_STATUS_CUR_VALID true rfl (by decide)]
    exact congrArg Option.isSome hr.symm
  · next hr =>
    rw [State.on, State.get_put_apart _ ERROR_STATUS_CUR_CLASS ERROR_STATUS_CUR_VALID _ (by decide) (by decide) (by decide), ← State.on,
      State.on_putB_same _ ERROR_STATUS_CUR_VALID false rfl (by decide)]
    exact congrArg Option.isSome hr.symm

theorem State.errSync_displayed (s : State) : Displayed (· = ERROR_STATUS) s s.errSync := (Displayed.refl s).errSync rfl

/-- The best of the queue is current, where there is one. -/
def State.bestCurrent (s : State) : State := s.setErr fun z => { z with cur := (bestRec s.err.recs).map fun b => b.seq }

/-- With no record current, the best of the queue becomes current, and STATUS shows it. -/
theorem State.errSelect_spec (s : State) (hcur : s.err.cur = none) :
    Displayed (· = ERROR_STATUS) s.bestCurrent s.errSelect ∧ s.errSelect.on ERROR_STATUS_CUR_VALID = (bestRec s.err.recs).isSome := by
  unfold State.errSelect
  rw [hcur]
  cases hb : bestRec s.err.recs with
  | none =>
    refine ⟨?_, ?_⟩
    · have hsame : s.bestCurrent = s := by
        rw [State.bestCurrent, hb, Option.map_none, ← hcur]
        rfl
      rw [hsame]
      exact s.errSync_displayed
    · rw [State.on_errSync_valid, State.curRec, hcur]
      rfl
  | some b =>
    obtain ⟨hmem, -⟩ := bestRec_best hb
    refine ⟨?_, ?_⟩
    · rw [State.bestCurrent, hb]
      exact (State.errSync_displayed _).errIrq
    · rw [State.on, State.get, State.rd, State.errIrq_regs, ← State.rd, ← State.get, ← State.on, State.on_errSync_valid]
      exact List.find?_isSome.2 ⟨b, hmem, beq_self_eq_true _⟩

/-- The current record has left the queue. -/
def State.retired (s : State) (v : Nat) : State := s.setErr fun z => { z with recs := s.err.recs.filter fun r => r.seq != v, cur := none }

theorem execAck_writer {q : Req} {v : Nat} {s : State} (hpath : s.path q = true) (hwriter : Req.writesErrors q = true) (hhold : s.holdOf q = none) :
    exec (.ack q v) s = .next (if s.err.cur == some v then (s.retired v).errSelect else s) := by
  refine congrArg Host.Outcome.next ((State.landing_always (by decide) (by decide) hpath hhold _).trans ?_)
  simp only [State.errAck, hpath, hwriter, Bool.true_and, State.retired]

/-- Settles O55: a matching value takes the record out of the queue, and the best of those left becomes current. -/
theorem ackRetiresTheCurrentRecord : Obligations.AckRetiresTheCurrentRecord := by
  intro q v s hpath hwriter hhold
  rw [execAck_writer hpath hwriter hhold]
  refine ⟨fun hcur => ?_, fun hcur => by rw [if_neg (by simpa using hcur)]⟩
  rw [if_pos (by simp [hcur])]
  obtain ⟨hshown, hvalid⟩ := (s.retired v).errSelect_spec rfl
  have herr := hshown.err
  have hrecs : ∀ x, x ∈ (s.retired v).err.recs ↔ x ∈ s.err.recs ∧ x.seq ≠ v := fun x => by
    show x ∈ s.err.recs.filter _ ↔ _
    simp
  refine ⟨_, rfl, ?_, ?_, ?_, ?_, ?_, hshown.mem, hshown.hostMem, fun o ho => hshown.rd o ho⟩
  · rw [herr]
    exact hrecs
  · intro x hx hseq hslot y hy heq
    rw [herr] at hy
    obtain ⟨hmem, hne⟩ := (hrecs y).1 hy
    exact hne (hslot y hmem heq)
  · intro hnone
    rw [herr] at hnone
    have hbest := Option.map_eq_none_iff.1 hnone
    rw [herr, hvalid, hbest]
    exact ⟨bestRec_eq_none hbest, rfl⟩
  · intro k hk
    rw [herr] at hk
    obtain ⟨b, hb, rfl⟩ := Option.map_eq_some_iff.1 hk
    obtain ⟨hmem, hbest⟩ := bestRec_best hb
    rw [herr, hvalid, hb]
    exact ⟨⟨b, hmem, rfl, hbest⟩, rfl⟩
  · rw [herr]
    rfl

end Sys2Proof.Machine
end

section
/-! SUPPORT. The power-on reset (Bring-up Table 20.7), the 12 V input, and the outputs of the HXP. -/

namespace Sys2Proof.Machine
open Reg

/-! ### What fuses and records show -/

theorem Displayed.each {α : Type} {W : Nat → Prop} {f : State → α → State} {l : List α} (hf : ∀ u, ∀ x ∈ l, Displayed W u (f u x)) (s : State) :
    Displayed W s (s.each l f) := by
  induction l generalizing s with
  | nil => exact .refl s
  | cons x l ih =>
    rw [State.each_cons]
    exact (hf s x List.mem_cons_self).trans (ih (fun u y hy => hf u y (List.mem_cons_of_mem _ hy)) _)

/-- STATUS of SECURE, KEY_STATE and the mirror of the slot records. -/
def RootReg (o : Nat) : Prop := o = SECURE_STATUS ∨ o = SECURE_KEY_STATE ∨ (FIRMWARE_SLOT_REC 0 0 0 ≤ o ∧ o < FIRMWARE_SLOT_REC 2 0 0)

theorem not_rootReg {o : Nat} (h : o < SECURE_STATUS ∨ (SECURE_STATUS < o ∧ o < SECURE_KEY_STATE) ∨ (SECURE_KEY_STATE < o ∧ o < FIRMWARE_SLOT_REC 0 0 0)) :
    ¬RootReg o := by
  unfold RootReg
  unfold SECURE_STATUS SECURE_KEY_STATE FIRMWARE_SLOT_REC at *
  omega

theorem State.fuseSync_displayed (s : State) : Displayed RootReg s s.fuseSync := by
  have hstatus : RootReg SECURE_STATUS := .inl rfl
  exact ((((Displayed.refl s).put hstatus).putB hstatus).putB hstatus).put hstatus

theorem State.recSync_displayed (s : State) : Displayed RootReg s s.recSync := by
  have hstatus : RootReg SECURE_STATUS := .inl rfl
  have hrec : Displayed RootReg s (s.each [0, 1] fun s p => s.each [0, 1] fun s sl => s.each (List.range 8) fun u i =>
      u.wrN (FIRMWARE_SLOT_REC p sl i) (fieldLE (s.slotRec p sl) (4 * i) 4)) := by
    refine Displayed.each (fun u p hp => Displayed.each (fun u sl hsl => Displayed.each (fun v i hi => (Displayed.refl v).wrN ?_) u) u) s
    have hp : p < 2 := by simp at hp; omega
    have hsl : sl < 2 := by simp at hsl; omega
    have hi := List.mem_range.1 hi
    unfold RootReg FIRMWARE_SLOT_REC
    omega
  exact (hrec.putB hstatus).putB hstatus

/-! ### The power-on reset -/

theorem SMap.get_filter {α : Type} (d : Nat → α) (m : SMap α) (p : Nat → Bool) (k : Nat) :
    SMap.get d (m.filter fun e => p e.1) k = if p k = true then SMap.get d m k else d k := by
  induction m with
  | nil => simp [SMap.get]
  | cons e m ih =>
    obtain ⟨j, v⟩ := e
    by_cases hk : k = j
    · subst hk
      by_cases hp : p k = true
      · simp [hp, SMap.get]
      · simp [hp, ih]
    · by_cases hp : p j = true
      · simp only [List.filter_cons, hp, if_true, SMap.get, hk, if_false, ih]
      · simp only [List.filter_cons, hp, SMap.get, hk, if_false, ih, Bool.false_eq_true]

theorem State.rd_powerCut (s : State) (o : Nat) : s.powerCut.rd o = if fusedReg o = true then s.rd o else regReset o :=
  SMap.get_filter regReset s.regs fusedReg o

/-- The reset before LAST_RESET is written. -/
def State.powerReloaded (s : State) : State :=
  (s.powerCut.each (List.range 16) fun z i => if (SMap.get (fun _ => none) z.trust.keys i).isSome then z.setKeyState i 1 else z).fuseSync.recSync

theorem State.powerReloaded_displayed (s : State) : Displayed RootReg s.powerCut s.powerReloaded := by
  refine Displayed.trans (Displayed.trans (Displayed.each (fun u i _ => ?_) _) (State.fuseSync_displayed _)) (State.recSync_displayed _)
  split
  · exact (Displayed.refl u).put (.inr (.inl rfl))
  · exact .refl u

theorem State.powerReset_eq (s : State) (cause : Nat) : s.powerReset cause = s.powerReloaded.put GLOBAL_BOOT_STATUS_LAST_RESET cause := rfl

theorem State.powerReset_displayed (s : State) (cause : Nat) : Displayed (fun o => RootReg o ∨ o = GLOBAL_BOOT_STATUS) s.powerCut (s.powerReset cause) :=
  (s.powerReloaded_displayed.mono fun _ => .inl).put (.inr rfl)

/-- A register outside the fuse array that starting firmware and the root do not write back holds its reset value. -/
theorem State.rd_powerReset (s : State) (cause : Nat) {o : Nat} (hfused : fusedReg o = false) (hroot : ¬RootReg o) (hboot : o ≠ GLOBAL_BOOT_STATUS) :
    (s.powerReset cause).rd o = regReset o := by
  rw [(s.powerReset_displayed cause).rd o (by simp [hroot, hboot]), State.rd_powerCut, hfused]
  rfl

/-- A register of the fuse array keeps what it shows. -/
theorem State.rd_powerReset_fused (s : State) (cause : Nat) {o : Nat} (hfused : fusedReg o = true) (hroot : ¬RootReg o) (hboot : o ≠ GLOBAL_BOOT_STATUS) :
    (s.powerReset cause).rd o = s.rd o := by
  rw [(s.powerReset_displayed cause).rd o (by simp [hroot, hboot]), State.rd_powerCut, if_pos hfused]

/-- The row of a ring's STATUS register. -/
def ringStatusRow : RegRow := ⟨0x30018, [(4096, 0x40)], 32, 0x0, [(31, 16, .ro), (9, 9, .w1c), (8, 8, .ro), (1, 0, .ro)]⟩

theorem regRow?_ringStatus (r : Ring) : regRow? (RINGS_STATUS r) = some ringStatusRow := by
  have hr := r.isLt
  have hat : regRowsAt (RINGS_STATUS r) = regRowsRINGS := by
    unfold regRowsAt RINGS_STATUS
    rw [if_neg (by omega), if_neg (by omega), if_neg (by omega), if_pos (by omega)]
  have hmiss : ∀ b, b < 0x18 → onGrid [(4096, 0x40)] (RINGS_STATUS r - (0x30000 + b)) = false := by
    intro b hb
    have : (RINGS_STATUS r - (0x30000 + b)) % 0x40 ≠ 0 := by unfold RINGS_STATUS; omega
    simp [onGrid, this]
  have hhit : onGrid [(4096, 0x40)] (RINGS_STATUS r - 0x30018) = true := by
    rw [show RINGS_STATUS r - 0x30018 = 0x40 * r by unfold RINGS_STATUS; omega]
    simp [onGrid]
  have hle : 0x30018 ≤ RINGS_STATUS r := by unfold RINGS_STATUS; omega
  rw [regRow?, hat]
  simp only [regRowsRINGS, List.find?_cons, hmiss 0 (by omega), hmiss 0x8 (by omega), hmiss 0x10 (by omega), hmiss 0x14 (by omega), hhit, hle, Bool.and_false,
    decide_true, Bool.and_self]
  rfl

theorem regReset_ringStatus (r : Ring) : regReset (RINGS_STATUS r) = 0 := by
  have hr := r.isLt
  have hother : hasOtherReset (RINGS_STATUS r) = false := by
    unfold hasOtherReset RINGS_STATUS RINGS_RECEIPT_BASE
    simp only [Bool.or_eq_false_iff, Bool.and_eq_false_iff, decide_eq_false_iff_not]
    omega
  rw [regReset, hother, regRow?_ringStatus]
  rfl

theorem fusedReg_below {o : Nat} (h : o < SECURE_FUSE 0) : fusedReg o = false := by
  unfold fusedReg
  unfold SECURE_FUSE SECURE_COUNTER at *
  simp only [Bool.or_eq_false_iff, Bool.and_eq_false_iff, decide_eq_false_iff_not]
  omega

theorem State.lastReset_powerReset (s : State) {cause : Nat} (hcause : cause < 16) : (s.powerReset cause).get GLOBAL_BOOT_STATUS_LAST_RESET = cause := by
  rw [State.powerReset_eq, State.get_put_same _ GLOBAL_BOOT_STATUS_LAST_RESET cause (by decide) (by decide)]
  exact Nat.mod_eq_of_lt hcause

theorem State.spineUp_powerReset (s : State) (cause : Nat) : (s.powerReset cause).on GLOBAL_BOOT_STATUS_SPINE_UP = false := by
  have hroot : ¬RootReg GLOBAL_BOOT_STATUS := not_rootReg (.inl (by decide))
  rw [State.powerReset_eq, State.on, State.get_put_apart _ GLOBAL_BOOT_STATUS_LAST_RESET GLOBAL_BOOT_STATUS_SPINE_UP _ (by decide) (by decide) (by decide),
    s.powerReloaded_displayed.get GLOBAL_BOOT_STATUS_SPINE_UP hroot, State.get, State.rd_powerCut, if_neg (by decide)]
  decide

theorem State.rd_fuse_powerReset (s : State) (cause : Nat) (i : Fin 128) : (s.powerReset cause).rd (SECURE_FUSE i) = s.rd (SECURE_FUSE i) := by
  have hi := i.isLt
  refine s.rd_powerReset_fused cause ?_ (not_rootReg (.inr (.inl ?_))) (by unfold SECURE_FUSE GLOBAL_BOOT_STATUS; omega)
  · unfold fusedReg SECURE_FUSE
    simp only [Bool.or_eq_true, Bool.and_eq_true, decide_eq_true_eq]
    omega
  · unfold SECURE_FUSE SECURE_STATUS SECURE_KEY_STATE
    omega

theorem State.rd_counter_powerReset (s : State) (cause : Nat) (i : Fin 64) : (s.powerReset cause).rd (SECURE_COUNTER i) = s.rd (SECURE_COUNTER i) := by
  have hi := i.isLt
  refine s.rd_powerReset_fused cause ?_ (not_rootReg (.inr (.inr ?_))) (by unfold SECURE_COUNTER GLOBAL_BOOT_STATUS; omega)
  · unfold fusedReg SECURE_COUNTER
    simp only [Bool.or_eq_true, Bool.and_eq_true, decide_eq_true_eq]
    omega
  · unfold SECURE_COUNTER SECURE_KEY_STATE FIRMWARE_SLOT_REC
    omega

theorem State.rd_below_powerReset (s : State) (cause : Nat) {o : Nat} (ho : o < SECURE_STATUS) (hboot : o ≠ GLOBAL_BOOT_STATUS) :
    (s.powerReset cause).rd o = regReset o :=
  s.rd_powerReset cause (fusedReg_below (by unfold SECURE_STATUS at ho; unfold SECURE_FUSE; omega)) (not_rootReg (.inl ho)) hboot

theorem State.round_powerReset (s : State) (cause : Nat) : (s.powerReset cause).round = 0 := by
  rw [State.round, State.rdN, s.rd_below_powerReset cause (by decide) (by decide)]
  decide

theorem State.ringState_powerReset (s : State) (cause : Nat) (r : Ring) : (s.powerReset cause).ringState r = 0 := by
  have hr := r.isLt
  have hrd : (s.powerReset cause).rd (RINGS_STATUS r) = 0 := by
    rw [s.rd_below_powerReset cause (by unfold RINGS_STATUS SECURE_STATUS; omega) (by unfold RINGS_STATUS GLOBAL_BOOT_STATUS; omega), regReset_ringStatus]
  show Word.bits ((s.powerReset cause).rd (RINGS_STATUS r)) 1 0 = 0
  rw [hrd]
  rfl

theorem State.dom_powerReset (s : State) (cause : Nat) (i : Fin 24) : (s.powerReset cause).dom i = 3 := by
  have hi := i.isLt
  have hstate : ∀ i : Fin 24, Word.bits (regReset (POWER_DOM_STATUS i)) 31 30 = 3 := by decide
  have hunclamped : (s.powerReset cause).pwr.clamped.contains i.val = false := by
    rw [(s.powerReset_displayed cause).pwr]
    rfl
  have hrd : (s.powerReset cause).rd (POWER_DOM_STATUS i) = regReset (POWER_DOM_STATUS i) :=
    s.rd_below_powerReset cause (by unfold POWER_DOM_STATUS SECURE_STATUS; omega) (by unfold POWER_DOM_STATUS GLOBAL_BOOT_STATUS; omega)
  rw [State.dom, hunclamped, if_neg (by decide)]
  show Word.bits ((s.powerReset cause).rd (POWER_DOM_STATUS i)) 31 30 = 3
  rw [hrd]
  exact hstate i

/-- With STATUS of ERROR at its reset value the device is not in the safe state. -/
theorem State.safe_of_reset {s : State} (h : s.rd ERROR_STATUS = regReset ERROR_STATUS) : s.on ERROR_STATUS_SAFE = false := by
  have hreset : Word.bits (regReset ERROR_STATUS) 31 31 = 0 := by decide
  have hget : s.get ERROR_STATUS_SAFE = 0 := (congrArg (fun w => Word.bits w 31 31) h).trans hreset
  rw [State.on, hget]
  rfl

theorem State.safe_powerReset (s : State) (cause : Nat) : (s.powerReset cause).on ERROR_STATUS_SAFE = false :=
  State.safe_of_reset (s.rd_powerReset cause (by decide) (not_rootReg (.inr (.inr (by decide)))) (by decide))

/-- What Table 20.7 gives. -/
theorem State.powerReset_spec (s : State) {cause : Nat} (hcause : cause < 16) : Safety.PowerReset cause s (s.powerReset cause) := by
  have hcut := s.powerReset_displayed cause
  have htrust := hcut.trust
  have hboot := hcut.boot
  exact ⟨s.round_powerReset cause, s.lastReset_powerReset hcause, s.spineUp_powerReset cause, hcut.mem, s.ringState_powerReset cause, s.dom_powerReset cause,
    congrArg ErrSt.recs hcut.err, congrArg ErrSt.entry hcut.err, s.safe_powerReset cause, (congrArg TrustSt.seals htrust).trans rfl,
    (congrArg TrustSt.log htrust).trans rfl, (congrArg TrustSt.stage htrust).trans rfl, hcut.txn, hcut.floor, (congrArg TrustSt.nor htrust).trans rfl,
    (congrArg TrustSt.flash htrust).trans rfl, (congrArg TrustSt.keys htrust).trans rfl, s.rd_fuse_powerReset cause, s.rd_counter_powerReset cause,
    congrArg BootSt.steps hboot, congrArg BootSt.due hboot⟩

/-- A change of the bring-up record that leaves the steps to come and the resets that are due may follow a power-on reset. -/
theorem powerReset_setBoot {cause : Nat} {s t : State} (h : Safety.PowerReset cause s t) {f : BootSt → BootSt}
    (hf : ∀ b, (f b).steps = b.steps ∧ (f b).due = b.due) : Safety.PowerReset cause s (t.setBoot f) := by
  obtain ⟨h1, h2, h3, h4, h5, h6, h7, h8, h9, h10, h11, h12, h13, h14, h15, h16, h17, h18, h19, hsteps, hdue⟩ := h
  exact ⟨h1, h2, h3, h4, h5, h6, h7, h8, h9, h10, h11, h12, h13, h14, h15, h16, h17, h18, h19, (hf t.boot).1.trans hsteps, (hf t.boot).2.trans hdue⟩

theorem State.powerReset_boot (s : State) (cause : Nat) : (s.powerReset cause).boot = { vsel := s.boot.vsel } := (s.powerReset_displayed cause).boot

theorem State.lastReset_lt (s : State) : s.get GLOBAL_BOOT_STATUS_LAST_RESET < 16 := Nat.mod_lt _ (by decide)

/-- With every rail off the device waits for the supply state to end. -/
theorem State.railsOff_spec (s : State) {p : Supply} {cause : Nat} (hcause : cause < 16) (hp : p ≠ .up) :
    Safety.PowerReset cause s (s.railsOff p cause) ∧ (s.railsOff p cause).boot.supply = p ∧ (s.railsOff p cause).modPg = false ∧
      (s.railsOff p cause).boot.vsel = s.boot.vsel := by
  have hboot : (s.railsOff p cause).boot = { vsel := s.boot.vsel, supply := p } := by rw [State.railsOff, State.setBoot_boot, State.powerReset_boot]
  refine ⟨powerReset_setBoot (s.powerReset_spec hcause) fun _ => ⟨rfl, rfl⟩, ?_, ?_, ?_⟩
  · rw [hboot]
  · rw [State.modPg, hboot]
    exact beq_eq_false_iff_ne.2 hp
  · rw [hboot]

/-! ### The input and SYS_RESET_N -/

theorem execPowerOn_starts {s : State} {fell good lo hi : Bool} (h : s.boot.supply = .off ∨ (s.boot.supply = .locked ∧ fell = true)) :
    exec (.powerOn fell good lo hi) s = .next ((s.powerReset (if fell then 0 else s.get GLOBAL_BOOT_STATUS_LAST_RESET)).setBoot fun b =>
      { b with supply := if good then .up else .rising, vsel := (lo, hi) }) :=
  congrArg Host.Outcome.next (if_pos (by simpa using h))

theorem execPowerOn_waits {s : State} {fell good lo hi : Bool} (h : ¬(s.boot.supply = .off ∨ (s.boot.supply = .locked ∧ fell = true))) :
    exec (.powerOn fell good lo hi) s = .next s :=
  congrArg Host.Outcome.next (if_neg (by simpa using h))

theorem State.powerOn_spec (s : State) (good lo hi : Bool) {cause : Nat} (hcause : cause < 16) :
    let t := (s.powerReset cause).setBoot fun b => { b with supply := if good then .up else .rising, vsel := (lo, hi) }
    Safety.PowerReset cause s t ∧ t.boot.supply = (if good then .up else .rising) ∧ t.modPg = good ∧ t.boot.vsel = (lo, hi) ∧ t.boot.auxOff = [] := by
  have hboot := s.powerReset_boot cause
  refine ⟨powerReset_setBoot (s.powerReset_spec hcause) fun _ => ⟨rfl, rfl⟩, ?_, ?_, ?_, ?_⟩
  · rw [State.setBoot_boot]
  · rw [State.modPg, State.setBoot_boot]
    cases good <;> rfl
  · rw [State.setBoot_boot]
  · rw [State.setBoot_boot, hboot]

theorem execBrownOut_off {s : State} {mv ns : Nat} (h : s.boot.supply = .up ∧ ((mv < 9500 ∧ 20000 < ns) ∨ (mv < 6000 ∧ 2000 < ns))) :
    exec (.brownOut mv ns) s = .next (s.railsOff .off 1) :=
  congrArg Host.Outcome.next (if_pos (by simpa using h))

theorem execBrownOut_rides {s : State} {mv ns : Nat} (h : ¬(s.boot.supply = .up ∧ ((mv < 9500 ∧ 20000 < ns) ∨ (mv < 6000 ∧ 2000 < ns)))) :
    exec (.brownOut mv ns) s = .next s :=
  congrArg Host.Outcome.next (if_neg (by simpa using h))

theorem execVinOvervoltage_off {s : State} {mv ns : Nat} (h : s.boot.supply = .up ∧ 14500 < mv ∧ 10000 < ns) :
    exec (.vinOvervoltage mv ns) s = .next (s.railsOff .off 1) :=
  congrArg Host.Outcome.next (if_pos (by simpa [and_assoc] using h))

theorem execVinOvervoltage_rides {s : State} {mv ns : Nat} (h : ¬(s.boot.supply = .up ∧ 14500 < mv ∧ 10000 < ns)) :
    exec (.vinOvervoltage mv ns) s = .next s :=
  congrArg Host.Outcome.next (if_neg (by simpa [and_assoc] using h))

theorem execSysResetN_resets {s : State} {ns : Nat} (hup : s.boot.supply = .up) (hns : 1000 ≤ ns) :
    exec (.sysResetN ns) s = .next ((s.powerReset 2).setBoot fun b => { b with resetLow := true, auxOff := [] }) :=
  congrArg Host.Outcome.next (if_pos (by simp [hup, hns]))

theorem execSysResetN_ignored {s : State} {ns : Nat} (h : s.boot.supply ≠ .up ∨ ns < 1000) : exec (.sysResetN ns) s = .next s :=
  congrArg Host.Outcome.next (if_neg (by simpa [imp_iff_not_or] using h))

theorem execRoundBoundary_stopped {s : State} (energy : List EnergyPart) (h : s.boot.supply ≠ .up ∨ s.boot.resetLow = true) :
    exec (.roundBoundary energy) s = .next s :=
  congrArg Host.Outcome.next (if_neg (by simpa [imp_iff_not_or] using h))

/-! ### The outputs of the HXP (Electrical R670) -/

theorem errClass_hxpAlert : errClass Code.PWR_HXP_ALERT = some .degraded := by decide

/-- A report of a class below FATAL changes no register outside the ERROR block. -/
theorem State.rd_report_calm (s : State) (e : Err) {c : ErrClass} (hc : errClass e.code = some c) (hf : c ≠ .fatal) {o : Nat} (ho : o < 0xD00000 ∨ 0xE00000 ≤ o) :
    (s.report e).rd o = s.rd o := by
  have hne : o ≠ ERROR_STATUS := by rintro rfl; revert ho; decide
  have hspared : SparedByRecords ⟨o, 63, 0⟩ := by
    refine ⟨?_, fun k hk => ?_, fun h => absurd h hne⟩
    · rintro rfl; revert ho; decide
    · simp only [ERROR_LOST]; omega
  have hword : ∀ u : State, u.get ⟨o, 63, 0⟩ = (u.rd o).toNat := fun u => by
    simp only [State.get, Word.bits, Nat.pow_zero, Nat.div_one]
    exact Nat.mod_eq_of_lt (u.rd o).isLt
  have hkeep := s.get_report_spared e hc hf hspared
  have hstatus : (s.errStatus c).rd o = s.rd o := by
    cases c with
    | note => exact s.rd_put_other ERROR_STATUS_NOTE 1 o hne
    | contained => exact s.rd_put_other ERROR_STATUS_CONTAINED 1 o hne
    | degraded => exact s.rd_put_other ERROR_STATUS_DEGRADED 1 o hne
    | fatal => exact absurd rfl hf
  rw [hword, hword, hstatus] at hkeep
  exact BitVec.eq_of_toNat_eq hkeep

/-- The output delivers. -/
def State.auxOn (s : State) (out : Fin 3) : Bool := if out = 2 then s.memc.dxVin else s.boot.supply == .up && !s.boot.auxOff.contains out.val

/-- The output has been above 120 % of its maximum for 1 ms. -/
def Overloads (out : Fin 3) (ma us : Nat) (s : State) : Prop :=
  s.auxOn out = true ∧ 1000 ≤ us ∧ (if out = 0 then 2400 else if out = 1 then 1200 else 3600) < ma

/-- The output switches off. -/
def State.auxCut (s : State) (out : Fin 3) : State :=
  if out = 2 then s.setMemc fun m => { m with dxVin := false } else s.setBoot fun b => { b with auxOff := b.auxOff ++ [out.val] }

theorem State.auxOn_auxCut (s : State) (out : Fin 3) (e : Err) : ((s.auxCut out).report e).auxOn out = false := by
  unfold State.auxOn State.auxCut
  split <;> simp

theorem State.regs_auxCut (s : State) (out : Fin 3) : (s.auxCut out).regs = s.regs := by
  unfold State.auxCut
  split <;> rfl

theorem State.mem_auxCut (s : State) (out : Fin 3) : (s.auxCut out).mem = s.mem := by
  unfold State.auxCut
  split <;> rfl

theorem execAuxOverload_trips {out : Fin 3} {ma us : Nat} {s : State} (h : Overloads out ma us s) :
    exec (.auxOverload out ma us) s = .next ((s.auxCut out).report { code := Code.PWR_HXP_ALERT }) := by
  obtain ⟨hon, hus, hma⟩ := h
  refine congrArg Host.Outcome.next (if_pos ?_)
  unfold State.auxOn at hon
  simp only [hon, hma, hus, decide_true, Bool.and_true]

theorem execAuxOverload_rides {out : Fin 3} {ma us : Nat} {s : State} (h : ¬Overloads out ma us s) : exec (.auxOverload out ma us) s = .next s := by
  refine congrArg Host.Outcome.next (if_neg fun htrips => h ?_)
  simp only [Bool.and_eq_true, decide_eq_true_eq] at htrips
  exact ⟨htrips.1.1, htrips.2, htrips.1.2⟩

/-! ### LPDDR5X training (Bring-up R644, R646) -/

theorem State.each_keeps {α β : Type} (g : State → β) {f : State → α → State} {l : List α} (hf : ∀ u, ∀ x ∈ l, g (f u x) = g u) (s : State) : g (s.each l f) = g s := by
  induction l generalizing s with
  | nil => rfl
  | cons x l ih =>
    rw [State.each_cons]
    exact (ih (fun u y hy => hf u y (List.mem_cons_of_mem _ hy)) _).trans (hf s x List.mem_cons_self)

/-- Every channel has been trained. -/
def State.lpTrainedAll (s : State) : State := s.each (List.range 8) fun s c => s.setMchan c fun m => { m with trained := s.round, accrued := s.now, debt := 0 }

theorem State.regs_lpTrainedAll (s : State) : s.lpTrainedAll.regs = s.regs := by
  unfold State.lpTrainedAll
  refine State.each_keeps State.regs (fun u c hc => ?_) s
  rfl
theorem State.mem_lpTrainedAll (s : State) : s.lpTrainedAll.mem = s.mem := by
  unfold State.lpTrainedAll
  refine State.each_keeps State.mem (fun u c hc => ?_) s
  rfl

/-- Training is awaited. -/
def LpWaits (s : State) : Prop := s.on GLOBAL_BOOT_STATUS_SPINE_UP = true ∧ s.on GLOBAL_BOOT_STATUS_LP_TRAINED = false ∧ s.boot.lpTries < 3

theorem execLpTrainingDone_ignored {s : State} (h : ¬LpWaits s) (ok : Bool) : exec (.lpTrainingDone ok) s = .next s := by
  refine congrArg Host.Outcome.next (if_pos ?_)
  unfold LpWaits at h
  simp only [Bool.or_eq_true, Bool.not_eq_true', decide_eq_true_eq]
  by_cases hspine : s.on GLOBAL_BOOT_STATUS_SPINE_UP = true
  · by_cases hlp : s.on GLOBAL_BOOT_STATUS_LP_TRAINED = true
    · exact .inl (.inr hlp)
    · exact .inr (by simp_all)
  · exact .inl (.inl (by simpa using hspine))

theorem LpWaits.lasts {s : State} (h : LpWaits s) :
    ¬(!s.on GLOBAL_BOOT_STATUS_SPINE_UP || s.on GLOBAL_BOOT_STATUS_LP_TRAINED || decide (3 ≤ s.boot.lpTries)) = true := by
  obtain ⟨hspine, hlp, htries⟩ := h
  simp [hspine, hlp, htries]

theorem execLpTrainingDone_ok {s : State} (h : LpWaits s) :
    exec (.lpTrainingDone true) s = .next (s.lpTrainedAll.putB GLOBAL_BOOT_STATUS_LP_TRAINED true) :=
  congrArg Host.Outcome.next (if_neg h.lasts)

/-- An attempt has failed. -/
def State.lpFailed (s : State) : State := s.setBoot fun b => { b with lpTries := b.lpTries + 1 }

theorem execLpTrainingDone_failed {s : State} (h : LpWaits s) :
    exec (.lpTrainingDone false) s = .next (if s.lpFailed.boot.lpTries < 3 then s.lpFailed
      else if (s.lpFailed.putB GLOBAL_BOOT_STATUS_LP_FAIL true).trust.runtime.isSome then
        (s.lpFailed.putB GLOBAL_BOOT_STATUS_LP_FAIL true).uartLine ("HX4 lp_fail round=" ++ toString (s.lpFailed.putB GLOBAL_BOOT_STATUS_LP_FAIL true).round)
      else s.lpFailed.putB GLOBAL_BOOT_STATUS_LP_FAIL true) := by
  show execLpTrainingDone false s = _
  unfold execLpTrainingDone
  rw [if_neg h.lasts, if_neg Bool.false_ne_true]
  rfl

/-- The third failed attempt: LP_FAIL is set, and LP_TRAINED stays as it was. -/
theorem State.lpFail_spec (s : State) :
    (s.lpFailed.putB GLOBAL_BOOT_STATUS_LP_FAIL true).on GLOBAL_BOOT_STATUS_LP_FAIL = true ∧
      (s.lpFailed.putB GLOBAL_BOOT_STATUS_LP_FAIL true).on GLOBAL_BOOT_STATUS_LP_TRAINED = s.on GLOBAL_BOOT_STATUS_LP_TRAINED := by
  refine ⟨State.on_putB_same _ GLOBAL_BOOT_STATUS_LP_FAIL true rfl (by decide), ?_⟩
  rw [State.on_putB_apart _ GLOBAL_BOOT_STATUS_LP_FAIL GLOBAL_BOOT_STATUS_LP_TRAINED true (by decide) (by decide) (by decide), State.lpFailed, State.setBoot_on]

/-- A line on the UART changes neither registers nor memory. -/
theorem State.uartLine_spec (s : State) (l : String) : (s.uartLine l).boot = s.boot ∧ (s.uartLine l).mem = s.mem ∧ (∀ g, (s.uartLine l).on g = s.on g) ∧
    (s.uartLine l).trust.uart = s.trust.uart ++ [l ++ "\r\n"] := ⟨rfl, rfl, fun _ => rfl, rfl⟩

theorem State.round_lpFail (s : State) : (s.lpFailed.putB GLOBAL_BOOT_STATUS_LP_FAIL true).round = s.round :=
  s.lpFailed.rdN_put_other GLOBAL_BOOT_STATUS_LP_FAIL 1 _ (by decide)

/-- Settles O59: each command either leaves the state or makes one power-on reset, output cut or training outcome. -/
theorem supplyAndSysResetCausePowerOnResets : Obligations.SupplyAndSysResetCausePowerOnResets := by
  intro s
  refine ⟨fun fell good lo hi => ⟨execPowerOn_waits, fun h => ⟨_, execPowerOn_starts h, s.powerOn_spec good lo hi ?_⟩⟩,
    ⟨fun h => ?rail, fun h => congrArg Host.Outcome.next (if_neg (by simpa using h))⟩,
    fun mv ns => ⟨fun h => ⟨_, execBrownOut_off h, s.railsOff_spec (by decide) (by decide)⟩, execBrownOut_rides,
      fun h => ⟨_, execVinOvervoltage_off h, s.railsOff_spec (by decide) (by decide)⟩, execVinOvervoltage_rides⟩,
    fun ns => ⟨fun hup hns => ⟨_, execSysResetN_resets hup hns, powerReset_setBoot (s.powerReset_spec (by decide)) fun _ => ⟨rfl, rfl⟩, rfl, ?sysReset, rfl⟩,
      execSysResetN_ignored⟩,
    ⟨fun h => ⟨_, congrArg Host.Outcome.next (if_pos h), rfl, rfl, rfl, rfl⟩, fun h => congrArg Host.Outcome.next (if_neg (by simp [h])),
      execRoundBoundary_stopped⟩,
    fun out ma us => ⟨execAuxOverload_rides, fun h => ⟨_, execAuxOverload_trips h, s.auxOn_auxCut out _, State.on_report_degraded _ _ errClass_hxpAlert,
      fun o ho => ?_, ?_⟩⟩,
    ⟨execLpTrainingDone_ignored, fun h => ⟨⟨_, execLpTrainingDone_ok h, ?trained, fun o ho => ?_, (State.putB_mem _ _ _).trans s.mem_lpTrainedAll⟩, ?failed⟩⟩⟩
  case rail => exact ⟨_, congrArg Host.Outcome.next (if_pos (by simp [h])), s.railsOff_spec s.lastReset_lt (by decide)⟩
  case sysReset => rw [State.setBoot_boot, State.powerReset_boot]
  case trained => exact State.on_putB_same _ GLOBAL_BOOT_STATUS_LP_TRAINED true rfl (by decide)
  case failed =>
    obtain ⟨-, huntrained, -⟩ := id h
    obtain ⟨hfail, hlp⟩ := s.lpFail_spec
    have htries : s.lpFailed.boot.lpTries = s.boot.lpTries + 1 := rfl
    have hboot : (s.lpFailed.putB GLOBAL_BOOT_STATUS_LP_FAIL true).boot = s.lpFailed.boot := State.putB_boot _ _ _
    have hmem : (s.lpFailed.putB GLOBAL_BOOT_STATUS_LP_FAIL true).mem = s.mem := State.putB_mem _ _ _
    have htrust : (s.lpFailed.putB GLOBAL_BOOT_STATUS_LP_FAIL true).trust = s.trust := State.putB_trust _ _ _
    rw [execLpTrainingDone_failed h, State.round_lpFail, htrust, htries]
    refine ⟨_, rfl, ?_⟩
    split
    · exact ⟨htries, (State.setBoot_on s _ _).trans huntrained, rfl, fun _ => ⟨rfl, rfl⟩, fun _ => by omega⟩
    · split
      · obtain ⟨huboot, humem, huon, huart⟩ := (s.lpFailed.putB GLOBAL_BOOT_STATUS_LP_FAIL true).uartLine_spec ("HX4 lp_fail round=" ++ toString s.round)
        rw [huboot, humem, huon, huon, huart, hboot, hmem, htrust]
        exact ⟨htries, hlp.trans huntrained, rfl, fun _ => by omega, fun _ => ⟨hfail, fun _ => rfl⟩⟩
      · next hnone =>
        rw [hboot, hmem]
        exact ⟨htries, hlp.trans huntrained, rfl, fun _ => by omega, fun _ => ⟨hfail, fun hsome => absurd hsome hnone⟩⟩
  · have hlast := s.lastReset_lt
    split <;> omega
  · rw [State.rd_report_calm _ _ errClass_hxpAlert (by decide) ho, State.rd, State.regs_auxCut]
    rfl
  · rw [State.report_mem, State.mem_auxCut]
  · rw [State.putB, State.rd_put_other _ GLOBAL_BOOT_STATUS_LP_TRAINED _ _ ho, State.rd, State.regs_lpTrainedAll]
    rfl

end Sys2Proof.Machine
end

section
/-! SUPPORT. What the power steward's records and results change (Power states Table 14.9): DOM_STATUS beside its state, the result words, and interrupts. -/

namespace Sys2Proof.Machine
open Reg

/-! ### The states of the domains -/

/-- Memory and the state that each switched domain shows are as before. -/
structure KeepsDoms (s t : State) : Prop where
  mem : t.mem = s.mem
  dom : ∀ j, j < 24 → t.dom j = s.dom j

namespace KeepsDoms
variable {s t u : State}

theorem refl (s : State) : KeepsDoms s s := ⟨rfl, fun _ _ => rfl⟩
theorem trans (h : KeepsDoms s t) (k : KeepsDoms t u) : KeepsDoms s u := ⟨k.mem.trans h.mem, fun j hj => (k.dom j hj).trans (h.dom j hj)⟩

theorem displayed {W : Nat → Prop} (h : Displayed W s t) (hW : ∀ j, j < 24 → ¬W (POWER_DOM_STATUS j)) : KeepsDoms s t :=
  ⟨h.mem, fun j hj => h.dom (hW j hj)⟩

/-- A field of DOM_STATUS below its state may change. -/
theorem put (s : State) {f : Fld} (n : Nat) (hl : f.lo ≤ f.hi) (hh : f.hi < 30) : KeepsDoms s (s.put f n) := by
  refine ⟨State.put_mem _ _ _, fun j _ => ?_⟩
  have hpwr : (s.put f n).pwr = s.pwr := State.put_pwr _ _ _
  rw [State.dom, State.dom, hpwr, s.get_put_apart f (POWER_DOM_STATUS_STATE j) n hl (by omega) (.inl hh)]

theorem putB (s : State) {f : Fld} (b : Bool) (hl : f.lo ≤ f.hi) (hh : f.hi < 30) : KeepsDoms s (s.putB f b) := put s _ hl hh

theorem setPwr (s : State) {f : PwrSt → PwrSt} (hf : (f s.pwr).clamped = s.pwr.clamped) : KeepsDoms s (s.setPwr f) :=
  ⟨rfl, fun j _ => by rw [State.dom, State.dom, State.setPwr_pwr, hf, State.setPwr_get]⟩

theorem setPdom (s : State) (i : Nat) (f : DomSt → DomSt) : KeepsDoms s (s.setPdom i f) := setPwr s rfl

end KeepsDoms

@[simp] theorem State.pdom_setPdom_same (s : State) (i : Nat) (f : DomSt → DomSt) : (s.setPdom i f).pdom i = f (s.pdom i) := SMap.get_set_same _ _ _ _
theorem State.pdom_setPdom_other (s : State) {i j : Nat} (f : DomSt → DomSt) (h : j ≠ i) : (s.setPdom i f).pdom j = s.pdom j := SMap.get_set_other _ _ _ _ _ h
theorem State.rdN_setPdom (s : State) (i : Nat) (f : DomSt → DomSt) (o : Nat) : (s.setPdom i f).rdN o = s.rdN o := rfl

theorem Displayed.pdom {W : Nat → Prop} {s t : State} (h : Displayed W s t) (i : Nat) : t.pdom i = s.pdom i := by
  simp only [State.pdom, h.pwr]

/-! ### Events and results -/

theorem State.pwrEvent_displayed (s : State) {f : Fld} (hf : f.reg = POWER_EVENT) : Displayed (· = POWER_EVENT) s (s.pwrEvent f) := by
  have hput : Displayed (· = POWER_EVENT) s (s.putB f true) := (Displayed.refl s).putB hf
  unfold State.pwrEvent
  dsimp only
  split
  · exact hput.msix.coreIrq
  · exact hput.coreIrq

/-- Where a request of domain `i`, or of the device, shows its result. -/
def resultReg : Option Nat → Nat
  | some i => POWER_DOM_RESULT i
  | none => POWER_DEV_RESULT

/-- Where a domain, or the device, shows its request. -/
def statusReg : Option Nat → Nat
  | some i => POWER_DOM_STATUS i
  | none => POWER_DEV_STATUS

theorem event_ne_resultReg (i : Option Nat) : resultReg i ≠ POWER_EVENT := by
  cases i with
  | none => decide
  | some i => show 0xa00108 + 0x20 * i ≠ 0xa00054; omega

theorem resultReg_ne_statusReg (i j : Option Nat) : resultReg i ≠ statusReg j := by
  cases i with
  | none => cases j with
    | none => decide
    | some j => show 0xa00018 ≠ 0xa00104 + 0x20 * j; omega
  | some i => cases j with
    | none => show 0xa00108 + 0x20 * i ≠ 0xa00014; omega
    | some j => show 0xa00108 + 0x20 * i ≠ 0xa00104 + 0x20 * j; omega

theorem event_ne_statusReg (i : Option Nat) : statusReg i ≠ POWER_EVENT := by
  cases i with
  | none => decide
  | some i => show 0xa00104 + 0x20 * i ≠ 0xa00054; omega

theorem word_halves_lt {n m : Nat} (hn : n < 65536) (hm : m < 65536) : n * 65536 + m < 2 ^ 64 := Nat.lt_trans (m := 4294967296) (by omega) (by decide)

theorem resultWord_lt {tag reason result dom : Nat} (h : reason * 4096 + result * 256 + dom < 65536) : resultWord tag reason result dom < 2 ^ 64 := by
  rw [resultWord, Nat.add_assoc, Nat.add_assoc, ← Nat.add_assoc (reason * 4096)]
  exact word_halves_lt (Nat.mod_lt _ (by decide)) h

theorem resultWord_mod (tag reason result dom : Nat) : resultWord (tag % 65536) reason result dom = resultWord tag reason result dom := by
  have hmod : tag % 65536 % 65536 = tag % 65536 := Nat.mod_mod _ _
  unfold resultWord
  rw [hmod]

theorem State.pwrResult_displayed (s : State) (i : Option Nat) (tag reason result dom : Nat) :
    Displayed (fun o => o = resultReg i ∨ o = POWER_EVENT) s (s.pwrResult i tag reason result dom) := by
  have hput : ∀ o n, o = resultReg i → Displayed (fun o => o = resultReg i ∨ o = POWER_EVENT) s (s.wrN o n) := fun o n ho => (Displayed.refl s).wrN (.inl ho)
  cases i with
  | none => exact (hput _ _ rfl).trans ((State.pwrEvent_displayed _ rfl).mono fun _ => .inr)
  | some i => exact (hput _ _ rfl).trans ((State.pwrEvent_displayed _ rfl).mono fun _ => .inr)

/-- The result word of a request that completes. -/
theorem State.rdN_pwrResult (s : State) (i : Option Nat) {tag reason result dom : Nat} (h : reason * 4096 + result * 256 + dom < 65536) :
    (s.pwrResult i tag reason result dom).rdN (resultReg i) = resultWord tag reason result dom := by
  have hlt : resultWord tag reason result dom % 2 ^ 64 = resultWord tag reason result dom := Nat.mod_eq_of_lt (resultWord_lt h)
  have hread : ∀ u : State, ∀ f : Fld, f.reg = POWER_EVENT → (u.pwrEvent f).rdN (resultReg i) = u.rdN (resultReg i) := fun u f hf =>
    (u.pwrEvent_displayed hf).rdN _ (event_ne_resultReg i)
  cases i with
  | none => exact (hread _ POWER_EVENT_DEV_RESULT rfl).trans ((State.rdN_wrN_same _ _ _).trans hlt)
  | some i => exact (hread _ POWER_EVENT_DOM_RESULT rfl).trans ((State.rdN_wrN_same _ _ _).trans hlt)

theorem KeepsDoms.pwrResult (s : State) (i : Option Nat) (tag reason result dom : Nat) : KeepsDoms s (s.pwrResult i tag reason result dom) :=
  .displayed (s.pwrResult_displayed i tag reason result dom) fun j _ h => h.elim (fun k => resultReg_ne_statusReg i (some j) k.symm) (event_ne_statusReg (some j))

/-! ### DOM_STATUS and DEV_STATUS -/

theorem State.pwrSync_displayed (s : State) (i : Option Nat) : Displayed (· = statusReg i) s (s.pwrSync i) := by
  have hput : ∀ (u : State) (f : Fld) (n : Nat), f.reg = statusReg i → Displayed (· = statusReg i) u (u.put f n) := fun u f n hf => (Displayed.refl u).put hf
  have hputB : ∀ (u : State) (f : Fld) (b : Bool), f.reg = statusReg i → Displayed (· = statusReg i) u (u.putB f b) := fun u f b hf => (Displayed.refl u).putB hf
  cases i with
  | none => exact (((hputB s _ _ rfl).trans (hput _ _ _ rfl)).trans (hputB _ _ _ rfl)).trans (hputB _ _ _ rfl)
  | some i => exact (((hputB s _ _ rfl).trans (hput _ _ _ rfl)).trans (hputB _ _ _ rfl)).trans (hputB _ _ _ rfl)

theorem KeepsDoms.pwrSync (s : State) (i : Option Nat) : KeepsDoms s (s.pwrSync i) := by
  cases i with
  | none => exact .displayed (s.pwrSync_displayed none) fun j _ => by show 0xa00104 + 0x20 * j ≠ 0xa00014; omega
  | some i =>
    exact (((KeepsDoms.putB s _ (Nat.le_refl 27) (by decide : 27 < 30)).trans (.put _ _ (by decide : 28 ≤ 29) (by decide : 29 < 30))).trans
      (.putB _ _ (Nat.le_refl 26) (by decide : 26 < 30))).trans (.putB _ _ (Nat.le_refl 25) (by decide : 25 < 30))

@[simp] theorem State.pdom_pwrSync (s : State) (i : Option Nat) (j : Nat) : (s.pwrSync i).pdom j = s.pdom j := (s.pwrSync_displayed i).pdom j
@[simp] theorem State.pdom_pwrResult (s : State) (i : Option Nat) (tag reason result dom j : Nat) : (s.pwrResult i tag reason result dom).pdom j = s.pdom j :=
  (s.pwrResult_displayed i tag reason result dom).pdom j
@[simp] theorem State.rdN_pwrSync (s : State) (i j : Option Nat) : (s.pwrSync i).rdN (resultReg j) = s.rdN (resultReg j) :=
  (s.pwrSync_displayed i).rdN _ (resultReg_ne_statusReg j i)

theorem State.on_busy_pwrSync (s : State) (i : Nat) : (s.pwrSync (some i)).on (POWER_DOM_STATUS_BUSY i) =
    ((s.pdom i).prep.isSome || (s.pdom i).trans.isSome || (s.pdom i).idle.isSome || (s.pdom i).opens) :=
  State.on_putB_same _ (POWER_DOM_STATUS_BUSY i) _ rfl (by decide : 25 < 64)

theorem State.on_deferred_pwrSync (s : State) (i : Nat) :
    (s.pwrSync (some i)).on (POWER_DOM_STATUS_DEFERRED i) = (match (s.pdom i).pend with | some r => r.deferred | none => false) :=
  (State.on_putB_apart _ (POWER_DOM_STATUS_BUSY i) (POWER_DOM_STATUS_DEFERRED i) _ (Nat.le_refl 25) (by decide : 25 < 64) (.inl (by decide : 25 < 26))).trans
    (State.on_putB_same _ (POWER_DOM_STATUS_DEFERRED i) _ rfl (by decide : 26 < 64))

/-- A result that is written after DOM_STATUS leaves it. -/
theorem State.on_pwrResult (s : State) (i j : Option Nat) (tag reason result dom : Nat) {g : Fld} (hg : g.reg = statusReg j) :
    (s.pwrResult i tag reason result dom).on g = s.on g :=
  (s.pwrResult_displayed i tag reason result dom).on g fun h => h.elim (fun k => resultReg_ne_statusReg i j (k.symm.trans hg))
    fun k => event_ne_statusReg j (hg.symm.trans k)

/-! ### Pending requests -/

theorem State.dropPend_none {s : State} {i : Nat} (h : (s.pdom i).pend = none) : s.dropPend (some i) = s := by
  rw [State.dropPend, h]

theorem State.dropPend_some {s : State} {i : Nat} {r : PReq} (h : (s.pdom i).pend = some r) :
    s.dropPend (some i) = ((s.setPdom i fun x => { x with pend := none }).pwrResult (some i) r.tag 0 2 0).pwrSync (some i) := by
  rw [State.dropPend, h]

theorem KeepsDoms.dropPend (s : State) (i : Nat) : KeepsDoms s (s.dropPend (some i)) := by
  cases h : (s.pdom i).pend with
  | none => rw [State.dropPend_none h]; exact .refl s
  | some r => rw [State.dropPend_some h]; exact ((KeepsDoms.setPdom s i _).trans (.pwrResult _ _ _ _ _ _)).trans (.pwrSync _ _)

/-- A domain whose pending request is dropped keeps the rest of its record. -/
theorem State.pdom_dropPend (s : State) (i : Nat) : (s.dropPend (some i)).pdom i = { s.pdom i with pend := none } := by
  cases h : (s.pdom i).pend with
  | none => rw [State.dropPend_none h, ← h]
  | some r => rw [State.dropPend_some h, State.pdom_pwrSync, State.pdom_pwrResult, State.pdom_setPdom_same]

theorem State.rdN_dropPend (s : State) (i : Nat) : (s.dropPend (some i)).rdN (POWER_DOM_RESULT i) =
    (match (s.pdom i).pend with | some r => resultWord r.tag 0 2 0 | none => s.rdN (POWER_DOM_RESULT i)) := by
  cases h : (s.pdom i).pend with
  | none => rw [State.dropPend_none h]
  | some r => rw [State.dropPend_some h]; exact (State.rdN_pwrSync _ (some i) (some i)).trans (State.rdN_pwrResult _ (some i) (by decide))

/-- A request that is held pending. -/
theorem State.domPend_spec (s : State) (i : Nat) (r : PReq) : KeepsDoms s (s.domPend i r) ∧ (s.domPend i r).pdom i = { s.pdom i with pend := some r } ∧
    (s.domPend i r).rdN (POWER_DOM_RESULT i) = (match (s.pdom i).pend with | some r => resultWord r.tag 0 2 0 | none => s.rdN (POWER_DOM_RESULT i)) ∧
    (s.domPend i r).on (POWER_DOM_STATUS_DEFERRED i) = r.deferred := by
  refine ⟨((KeepsDoms.dropPend s i).trans (.setPdom _ i _)).trans (.pwrSync _ _), ?_, ?_, ?_⟩
  · rw [State.domPend, State.pdom_pwrSync, State.pdom_setPdom_same, State.pdom_dropPend]
  · exact (State.rdN_pwrSync _ (some i) (some i)).trans ((State.rdN_setPdom _ _ _ _).trans (s.rdN_dropPend i))
  · rw [State.domPend, State.on_deferred_pwrSync, State.pdom_setPdom_same]

end Sys2Proof.Machine
end

section
/-! SUPPORT. Domain requests and their cancellation (Power states R470, R476, R480, R488). -/

namespace Sys2Proof.Machine
open Reg

theorem State.path_of_pwrWriter {s : State} {q : Req} (h : s.pwrWriter q = true) : s.path q = true := by
  simp only [State.pwrWriter, Bool.or_eq_true, beq_iff_eq, Bool.and_eq_true] at h
  rcases h with rfl | ⟨⟨hq, hs⟩, -⟩
  · rfl
  · exact s.path_of_pfOrHost q hq hs

/-- A write of a POWER register whose handler heeds its writers alone. -/
theorem State.landing_power {s : State} {q : Req} {off : Nat} (hlo : 0xA00000 ≤ off) (hhi : off < 0xF00000) (hhold : s.holdOf q = none) {f : State → State}
    (hf : s.pwrWriter q = false → f s = s) : s.landing q off f = f s := by
  by_cases hpath : s.path q = true
  · exact State.landing_always hlo hhi hpath hhold f
  · have hwriter : s.pwrWriter q = false := by
      by_contra hw
      exact hpath (State.path_of_pwrWriter (by simpa using hw))
    rw [State.landing_pathless off (by simpa using hpath), hf hwriter]

/-- The write of DOM_REQ that asks for a state. -/
def domAsk (q : Req) (i : Fin 24) (tag : Nat) (k : Fin 4) : Instr :=
  if k = 0 then .domReqOn q i tag else if k = 1 then .domReqIdle q i tag else if k = 2 then .domReqRetain q i tag else .domReqOff q i tag

theorem State.domReq_stranger {s : State} {q : Req} (h : s.pwrWriter q = false) (i target tag : Nat) (bad : Bool) : s.domReq q i target tag bad = s := by
  unfold State.domReq
  dsimp only
  rw [if_pos (by simp [h])]

theorem State.domCancel_stranger {s : State} {q : Req} (h : s.pwrWriter q = false) (i tag : Nat) : s.domCancel q i tag = s := by
  unfold State.domCancel
  rw [if_pos (by simp [h])]

theorem dom_req_bounds (i : Fin 24) : 0xA00000 ≤ POWER_DOM_REQ i ∧ POWER_DOM_REQ i < 0xF00000 := by
  have hi := i.isLt
  unfold POWER_DOM_REQ
  omega

theorem exec_domAsk {q : Req} {s : State} (hhold : s.holdOf q = none) (i : Fin 24) (tag : Nat) (k : Fin 4) :
    exec (domAsk q i tag k) s = .next (s.domReq q i k.val tag false) := by
  have hland : ∀ target, s.landing q (POWER_DOM_REQ i) (fun s => s.domReq q i target tag false) = s.domReq q i target tag false := fun target =>
    State.landing_power (dom_req_bounds i).1 (dom_req_bounds i).2 hhold fun h => State.domReq_stranger h i target tag false
  match k with
  | 0 => exact congrArg Host.Outcome.next (hland 0)
  | 1 => exact congrArg Host.Outcome.next (hland 1)
  | 2 => exact congrArg Host.Outcome.next (hland 2)
  | 3 => exact congrArg Host.Outcome.next (hland 3)

theorem exec_domReqCancel {q : Req} {s : State} (hhold : s.holdOf q = none) (i : Fin 24) (tag : Nat) :
    exec (.domReqCancel q i tag) s = .next (s.domCancel q i tag) :=
  congrArg Host.Outcome.next (State.landing_power (dom_req_bounds i).1 (dom_req_bounds i).2 hhold fun h => State.domCancel_stranger h i tag)

/-! ### Which request starts, waits or is deferred -/

/-- A writer of POWER asks in RUN, with a steward, no transition of the device, and the domain neither preparing nor about to open. -/
structure Asks (q : Req) (i : Nat) (s : State) : Prop where
  writer : s.pwrWriter q = true
  run : s.get POWER_DEV_STATUS_STATE = 0
  steward : s.fwRunning 2 = true
  calm : s.quiet = false
  device : s.pwr.dev = none
  prep : (s.pdom i).prep = none
  idle : (s.pdom i).idle = none
  closed : (s.pdom i).opens = false

/-- The request that a write of DOM_REQ makes. -/
def domReqOf (q : Req) (target tag : Nat) : PReq := ⟨target, tag % 65536, q.secure, false, false⟩

section asks
variable {q : Req} {i target : Nat} {s : State} (h : Asks q i s)
include h

theorem Asks.waits : s.domWaits = false := by simp [State.domWaits, h.steward, h.calm, h.device]

theorem Asks.deferred (tag : Nat) (hheld : (s.warden i && !q.secure) = true) (htarget : target ≠ 0) :
    s.domReq q i target tag false = (s.domPend i { domReqOf q target tag with deferred := true }).pwrResult (some i) tag 0 3 i := by
  unfold State.domReq
  dsimp only
  rw [if_neg (by simp [h.writer, h.run]), if_neg (by simp [h.run]), if_pos (by simp [hheld, htarget])]
  rfl

/-- A request that the warden does not defer goes by the domain's transition. -/
theorem Asks.undeferred (tag : Nat) (hfree : target = 0 ∨ (s.warden i && !q.secure) = false) :
    s.domReq q i target tag false = (match (s.pdom i).trans with
      | some t =>
        if target = 0 && t.target != 0 && !t.todo.isEmpty then
          ((s.dropPend (some i)).setPdom i fun x => { x with trans := some { t with back := some (some (domReqOf q target tag)) } }).pwrSync (some i)
        else s.domPend i (domReqOf q target tag)
      | none => (s.dropPend (some i)).domStart i (domReqOf q target tag)) := by
  have hheld : ¬(s.warden i && !q.secure && target != 0) = true := by
    rcases hfree with rfl | hfree
    · simp
    · simp [hfree]
  unfold State.domReq
  dsimp only
  rw [if_neg (by simp [h.writer, h.run]), if_neg (by simp [h.run]), if_neg hheld, h.waits, if_neg Bool.false_ne_true, if_neg (by simp [h.prep, h.idle]),
    h.closed, if_neg Bool.false_ne_true]
  rfl

theorem Asks.starts (tag : Nat) (hfree : target = 0 ∨ (s.warden i && !q.secure) = false) (htrans : (s.pdom i).trans = none) (hpend : (s.pdom i).pend = none) :
    s.domReq q i target tag false = s.domStart i (domReqOf q target tag) := by
  rw [h.undeferred tag hfree, htrans, State.dropPend_none hpend]

theorem Asks.pends (tag : Nat) (hfree : (s.warden i && !q.secure) = false) (htrans : (s.pdom i).trans ≠ none) (htarget : target ≠ 0) :
    s.domReq q i target tag false = s.domPend i (domReqOf q target tag) := by
  rw [h.undeferred tag (.inr hfree)]
  cases ht : (s.pdom i).trans with
  | none => exact absurd ht htrans
  | some t => exact if_neg (by simp [htarget])

end asks

/-! ### What a request that starts does -/

section starts
variable {s : State} {i : Nat} {r : PReq}

/-- A request for the present state completes with OK. -/
theorem State.domStart_present (hrun : s.get POWER_DEV_STATUS_STATE = 0) (h : r.target = s.dom i) :
    s.domStart i r = (s.pwrResult (some i) r.tag 0 0 0).pwrSync (some i) := by
  unfold State.domStart State.domOk
  dsimp only
  rw [if_pos h, if_neg (by rw [hrun]; decide)]

theorem State.domStart_badRequest (hr : r.target = 2) (h : s.dom i = 3) : s.domStart i r = (s.pwrResult (some i) r.tag 0 8 0).pwrSync (some i) := by
  unfold State.domStart
  dsimp only
  rw [if_neg (by omega), if_pos (by simp [hr, h])]

theorem State.domStart_on (hr : r.target = 0) (h : s.dom i ≠ 0) :
    s.domStart i r = s.beginTrans i { target := 0, todo := wakeSteps (s.dom i), start := s.round, req := some r } := by
  unfold State.domStart
  dsimp only
  rw [if_neg (by omega), if_neg (by simp [hr]), if_pos (by simp [hr])]

theorem State.domStart_idle (hr : r.target = 1) (h : s.dom i = 0) : s.domStart i r = (s.setPdom i fun x => { x with idle := some r }).pwrSync (some i) := by
  unfold State.domStart
  dsimp only
  rw [if_neg (by omega), if_neg (by simp [hr]), if_neg (by simp [hr, h]), if_pos hr]

/-- The prepare of a domain has begun. -/
def State.domPrepare (s : State) (i : Nat) (r : PReq) : State := ((s.wrN POWER_DEV_REFUSED 0).setPdom i fun x => { x with prep := some (r, s.round) }).pwrSync (some i)

theorem State.domStart_prepare (hr : 2 ≤ r.target) (h : s.dom i ≤ 1 ∨ (s.dom i = 2 ∧ r.target = 3)) :
    s.domStart i r = if i = 16 then (s.domPrepare i r).pwrEvent POWER_EVENT_PREPARE else s.domPrepare i r := by
  unfold State.domStart State.domPrepare
  dsimp only
  rw [if_neg (by omega), if_neg (by simp; omega), if_neg (by simp; omega), if_neg (by omega)]

end starts

theorem State.beginTrans_spec (s : State) (i : Nat) (t : Trans) :
    (s.beginTrans i t).rdN (POWER_DOM_RESULT i) = s.rdN (POWER_DOM_RESULT i) ∧ (s.beginTrans i t).pdom i = { s.pdom i with trans := some t } :=
  ⟨(State.rdN_pwrSync _ (some i) (some i)).trans (State.rdN_setPdom _ _ _ _), (State.pdom_pwrSync _ _ _).trans (State.pdom_setPdom_same _ _ _)⟩

/-- Prepare changes the domain's record, and the registers that show it. -/
theorem State.domPrepare_spec (s : State) (i : Nat) (r : PReq) : (s.domPrepare i r).pdom i = { s.pdom i with prep := some (r, s.round) } ∧
    (s.domPrepare i r).rdN (POWER_DOM_RESULT i) = s.rdN (POWER_DOM_RESULT i) ∧ (s.domPrepare i r).on (POWER_DOM_STATUS_BUSY i) = true ∧
    KeepsDoms s (s.domPrepare i r) := by
  have hcleared : Displayed (· = POWER_DEV_REFUSED) s (s.wrN POWER_DEV_REFUSED 0) := (Displayed.refl s).wrN rfl
  have hpdom : ∀ j, (s.wrN POWER_DEV_REFUSED 0).pdom j = s.pdom j := hcleared.pdom
  have hresult : ¬POWER_DOM_RESULT i = POWER_DEV_REFUSED := by show 0xa00108 + 0x20 * i ≠ 0xa0001c; omega
  have hstatus : ∀ j, j < 24 → ¬POWER_DOM_STATUS j = POWER_DEV_REFUSED := fun j _ => by show 0xa00104 + 0x20 * j ≠ 0xa0001c; omega
  refine ⟨?_, ?_, ?_, ((KeepsDoms.displayed hcleared hstatus).trans (.setPdom _ i _)).trans (.pwrSync _ _)⟩
  · rw [State.domPrepare, State.pdom_pwrSync, State.pdom_setPdom_same, hpdom]
  · exact (State.rdN_pwrSync _ (some i) (some i)).trans ((State.rdN_setPdom _ _ _ _).trans (hcleared.rdN _ hresult))
  · rw [State.domPrepare, State.on_busy_pwrSync, State.pdom_setPdom_same]
    rfl

theorem State.domStart_prepare_spec {s : State} {i : Nat} {r : PReq} (hr : 2 ≤ r.target) (h : s.dom i ≤ 1 ∨ (s.dom i = 2 ∧ r.target = 3)) :
    (s.domStart i r).pdom i = { s.pdom i with prep := some (r, s.round) } ∧ (s.domStart i r).rdN (POWER_DOM_RESULT i) = s.rdN (POWER_DOM_RESULT i) ∧
      (s.domStart i r).on (POWER_DOM_STATUS_BUSY i) = true ∧ KeepsDoms s (s.domStart i r) := by
  obtain ⟨hpdom, hres, hbusy, hkeeps⟩ := s.domPrepare_spec i r
  rw [State.domStart_prepare hr h]
  split
  · have hshown := (s.domPrepare i r).pwrEvent_displayed (f := POWER_EVENT_PREPARE) rfl
    exact ⟨(hshown.pdom i).trans hpdom, (hshown.rdN _ (event_ne_resultReg (some i))).trans hres, (hshown.on _ (event_ne_statusReg (some i))).trans hbusy,
      hkeeps.trans (.displayed hshown fun j _ => event_ne_statusReg (some j))⟩
  · exact ⟨hpdom, hres, hbusy, hkeeps⟩

/-- A request that completes at once. -/
theorem State.domResult_spec (s : State) (i : Nat) {tag reason result dom : Nat} (h : reason * 4096 + result * 256 + dom < 65536) :
    ((s.pwrResult (some i) tag reason result dom).pwrSync (some i)).rdN (POWER_DOM_RESULT i) = resultWord tag reason result dom ∧
      ((s.pwrResult (some i) tag reason result dom).pwrSync (some i)).pdom i = s.pdom i ∧
      KeepsDoms s ((s.pwrResult (some i) tag reason result dom).pwrSync (some i)) :=
  ⟨(State.rdN_pwrSync _ (some i) (some i)).trans (State.rdN_pwrResult s (some i) h), (State.pdom_pwrSync _ _ _).trans (State.pdom_pwrResult _ _ _ _ _ _ _),
    (KeepsDoms.pwrResult _ _ _ _ _ _).trans (.pwrSync _ _)⟩

/-! ### Cancellation -/

section cancel
variable {s : State} {q : Req} {i : Nat} (hwriter : s.pwrWriter q = true) (hstate : s.get POWER_DEV_STATUS_STATE ≤ 1)
include hwriter hstate

theorem State.domCancel_none (tag : Nat) (h : (s.pdom i).pend = none) : s.domCancel q i tag = s := by
  unfold State.domCancel
  rw [if_neg (by simp [hwriter]; omega), h]

theorem State.domCancel_removes (tag : Nat) {r : PReq} (h : (s.pdom i).pend = some r) (hmay : (r.secure && !q.secure) = false) :
    s.domCancel q i tag = ((s.setPdom i fun x => { x with pend := none }).pwrResult (some i) r.tag 0 4 0).pwrSync (some i) := by
  unfold State.domCancel
  rw [if_neg (by simp [hwriter]; omega), h]
  exact if_neg (by simp [hmay])

theorem State.domCancel_denied (tag : Nat) {r : PReq} (h : (s.pdom i).pend = some r) (hmay : (r.secure && !q.secure) = true) :
    s.domCancel q i tag = s.pwrResult (some i) tag 0 7 0 := by
  unfold State.domCancel
  rw [if_neg (by simp [hwriter]; omega), h]
  exact if_pos hmay

end cancel

/-- Settles O45: by the domain's state and target a request completes, begins, waits or is deferred; its records and registers show which. -/
theorem domainRequestsStartWaitOrAreRefused : Obligations.DomainRequestsStartWaitOrAreRefused := by
  intro q i tag s hhold ask x held res
  have hask : ∀ k, exec (ask k) s = .next (s.domReq q i k.val tag false) := exec_domAsk hhold i tag
  have htag : ∀ k, (domReqOf q k tag).tag = tag % 65536 := fun _ => rfl
  refine ⟨fun hwriter hrun hsteward hcalm hdev hprep hidle hopens => ?_, fun hwriter hstate => ?_,
    fun hstranger => ⟨fun k => (hask k).trans (congrArg Host.Outcome.next (State.domReq_stranger hstranger _ _ _ _)),
      (exec_domReqCancel hhold i tag).trans (congrArg Host.Outcome.next (State.domCancel_stranger hstranger _ _))⟩⟩
  · have hasks : Asks q i s := ⟨hwriter, hrun, hsteward, hcalm, hdev, hprep, hidle, hopens⟩
    refine ⟨fun htrans hpend k => ⟨fun hk hfree => ?_, fun hk hfree hdom => ?_, fun hk hfree hdom => ?_, fun hk hfree hdom => ?_, fun hk hdom => ?_,
      fun hk hheld => ?_⟩, fun htrans hfree k hk => ?_⟩
    · refine ⟨_, hask k, ?_⟩
      rw [hasks.starts tag (hfree.imp (congrArg Fin.val) id) htrans hpend, State.domStart_present hrun hk]
      obtain ⟨hres, hpdom, hkeeps⟩ := s.domResult_spec i (tag := (domReqOf q k tag).tag) (reason := 0) (result := 0) (dom := 0) (by decide)
      exact ⟨hres.trans (resultWord_mod tag 0 0 0), hpdom, hkeeps.mem, hkeeps.dom⟩
    · refine ⟨_, hask k, ?_⟩
      rw [hasks.starts tag (.inr hfree) htrans hpend]
      obtain ⟨hpdom, hres, hbusy, hkeeps⟩ := State.domStart_prepare_spec (s := s) (i := i) (r := domReqOf q k tag) hk (hdom.imp_right fun h => ⟨h.1, congrArg Fin.val h.2⟩)
      exact ⟨hpdom, hres, hbusy, hkeeps.mem, hkeeps.dom⟩
    · refine ⟨_, hask k, ?_⟩
      rw [hasks.starts tag (.inr hfree) htrans hpend, State.domStart_badRequest (congrArg Fin.val hk) hdom]
      obtain ⟨hres, hpdom, -⟩ := s.domResult_spec i (tag := (domReqOf q k tag).tag) (reason := 0) (result := 8) (dom := 0) (by decide)
      exact ⟨hres.trans (resultWord_mod tag 0 8 0), hpdom⟩
    · refine ⟨_, hask k, ?_⟩
      rw [hasks.starts tag (.inr hfree) htrans hpend, State.domStart_idle (congrArg Fin.val hk) hdom]
      have hkeeps := (KeepsDoms.setPdom s i fun x => { x with idle := some (domReqOf q k tag) }).trans (.pwrSync _ (some i))
      exact ⟨(State.pdom_pwrSync _ _ _).trans (State.pdom_setPdom_same _ _ _),
        (State.rdN_pwrSync _ (some i) (some i)).trans (State.rdN_setPdom _ _ _ _), (hkeeps.dom i i.isLt).trans hdom⟩
    · refine ⟨_, hask k, ?_⟩
      rw [hasks.starts tag (.inl (congrArg Fin.val hk)) htrans hpend, State.domStart_on (congrArg Fin.val hk) hdom]
      exact s.beginTrans_spec i _
    · refine ⟨_, hask k, ?_⟩
      rw [hasks.deferred tag hheld (by omega)]
      obtain ⟨hkeeps, hpdom, -, hdeferred⟩ := s.domPend_spec i { domReqOf q k tag with deferred := true }
      exact ⟨(State.pdom_pwrResult _ _ _ _ _ _ _).trans hpdom, State.rdN_pwrResult _ (some i) (by omega), (State.on_pwrResult _ _ (some i) _ _ _ _ rfl).trans hdeferred,
        (hkeeps.trans (.pwrResult _ _ _ _ _ _)).dom⟩
    · refine ⟨_, hask k, ?_⟩
      rw [hasks.pends tag hfree htrans (by omega)]
      obtain ⟨hkeeps, hpdom, hres, -⟩ := s.domPend_spec i (domReqOf q k tag)
      exact ⟨hpdom, fun r hr => by rw [show res _ = _ from hres, hr], fun hr => by rw [show res _ = _ from hres, hr], hkeeps.dom⟩
  · refine ⟨fun hpend => ?_, fun r hpend => ⟨fun hmay => ⟨_, exec_domReqCancel hhold i tag, ?_⟩, fun hmay => ⟨_, exec_domReqCancel hhold i tag, ?_⟩⟩⟩
    · rw [exec_domReqCancel hhold, State.domCancel_none hwriter hstate tag hpend]
    · rw [State.domCancel_removes hwriter hstate tag hpend hmay]
      exact ⟨(State.pdom_pwrSync _ _ _).trans ((State.pdom_pwrResult _ _ _ _ _ _ _).trans (State.pdom_setPdom_same _ _ _)),
        (State.rdN_pwrSync _ (some i) (some i)).trans (State.rdN_pwrResult _ (some i) (by decide))⟩
    · rw [State.domCancel_denied hwriter hstate tag hpend hmay]
      exact ⟨State.pdom_pwrResult _ _ _ _ _ _ _, State.rdN_pwrResult s (some i) (by decide)⟩

end Sys2Proof.Machine
end

section
/-! SUPPORT. Device requests, the answers of agents and wakes (Power states R467, R471 to R474, R479). -/

namespace Sys2Proof.Machine
open Reg

/-! ### Bits of a register, and folds over states -/

theorem State.nbit_rdN (s : State) (o i : Nat) : nbit (s.rdN o) i = s.on ⟨o, i, i⟩ := by
  have hwidth : i + 1 - i = 1 := by omega
  simp only [nbit, State.on, State.get, State.rdN, Word.bits, hwidth, Nat.pow_one]
  rcases Nat.mod_two_eq_zero_or_one ((s.rd o).toNat / 2 ^ i) with h | h <;> rw [h] <;> rfl

theorem State.nbit_setBit (s : State) (o : Nat) {i : Nat} (b : Bool) (hi : i < 64) : nbit ((s.setBit o i b).rdN o) i = b := by
  rw [State.nbit_rdN]
  exact State.on_putB_same s ⟨o, i, i⟩ b rfl hi

theorem RegsBut.each {α : Type} {W : Nat → Prop} {f : State → α → State} {l : List α} (hf : ∀ u, ∀ x ∈ l, RegsBut W u (f u x)) (s : State) :
    RegsBut W s (s.each l f) := by
  induction l generalizing s with
  | nil => exact .refl s
  | cons x l ih =>
    rw [State.each_cons]
    exact (hf s x List.mem_cons_self).trans (ih (fun u y hy => hf u y (List.mem_cons_of_mem _ hy)) _)

theorem KeepsDoms.each {α : Type} {f : State → α → State} {l : List α} (hf : ∀ u, ∀ x ∈ l, KeepsDoms u (f u x)) (s : State) : KeepsDoms s (s.each l f) := by
  induction l generalizing s with
  | nil => exact .refl s
  | cons x l ih =>
    rw [State.each_cons]
    exact (hf s x List.mem_cons_self).trans (ih (fun u y hy => hf u y (List.mem_cons_of_mem _ hy)) _)

/-! ### What results and records of requests show -/

/-- A register in which a request's result or record is shown, or EVENT. -/
def RequestReg (o : Nat) : Prop := (∃ i, o = resultReg i ∨ o = statusReg i) ∨ o = POWER_EVENT

theorem requestReg_result (i : Option Nat) : RequestReg (resultReg i) := .inl ⟨i, .inl rfl⟩
theorem requestReg_status (i : Option Nat) : RequestReg (statusReg i) := .inl ⟨i, .inr rfl⟩

/-- Below EVENT only DEV_STATUS and DEV_RESULT are registers of requests. -/
theorem not_requestReg {o : Nat} (h : o < POWER_EVENT ∧ o ≠ POWER_DEV_STATUS ∧ o ≠ POWER_DEV_RESULT) : ¬RequestReg o := by
  obtain ⟨hlt, hstatus, hresult⟩ := h
  have hevent : o < 0xa00054 := hlt
  rintro (⟨i, rfl | rfl⟩ | rfl)
  · cases i with
    | none => exact hresult rfl
    | some i => exact absurd (show 0xa00108 + 0x20 * i < 0xa00054 from hlt) (by omega)
  · cases i with
    | none => exact hstatus rfl
    | some i => exact absurd (show 0xa00104 + 0x20 * i < 0xa00054 from hlt) (by omega)
  · exact Nat.lt_irrefl _ hlt

theorem not_requestReg_latch : ¬RequestReg POWER_WAKE_LATCH := not_requestReg (by decide)

theorem State.pwrResult_regsBut (s : State) (i : Option Nat) (tag reason result dom : Nat) : RegsBut RequestReg s (s.pwrResult i tag reason result dom) :=
  ((s.pwrResult_displayed i tag reason result dom).mono fun _ h => h.elim (fun k => k ▸ requestReg_result i) .inr).toRegsBut

theorem State.pwrSync_regsBut (s : State) (i : Option Nat) : RegsBut RequestReg s (s.pwrSync i) :=
  ((s.pwrSync_displayed i).mono fun _ h => h ▸ requestReg_status i).toRegsBut

theorem State.dropPend_regsBut (s : State) (i : Option Nat) : RegsBut RequestReg s (s.dropPend i) := by
  cases i with
  | none =>
    unfold State.dropPend
    dsimp only
    split
    · exact ((RegsBut.of_regs rfl rfl : RegsBut RequestReg s (s.setPwr _)).trans (State.pwrResult_regsBut _ _ _ _ _ _)).trans (State.pwrSync_regsBut _ _)
    · exact .refl s
  | some d =>
    unfold State.dropPend
    dsimp only
    split
    · exact ((RegsBut.of_regs rfl rfl : RegsBut RequestReg s (s.setPdom d _)).trans (State.pwrResult_regsBut _ _ _ _ _ _)).trans (State.pwrSync_regsBut _ _)
    · exact .refl s

theorem State.dropPend_dev_none {s : State} (h : s.pwr.devPend = none) : s.dropPend none = s := by
  rw [State.dropPend, h]

theorem State.pwr_pwrResult (s : State) (i : Option Nat) (tag reason result dom : Nat) : (s.pwrResult i tag reason result dom).pwr = s.pwr :=
  (s.pwrResult_displayed i tag reason result dom).pwr
theorem State.pwr_pwrSync (s : State) (i : Option Nat) : (s.pwrSync i).pwr = s.pwr := (s.pwrSync_displayed i).pwr

/-- The device's request completes. -/
theorem State.devResult_spec (s : State) {tag reason result dom : Nat} (h : reason * 4096 + result * 256 + dom < 65536) :
    ((s.pwrResult none tag reason result dom).pwrSync none).rdN POWER_DEV_RESULT = resultWord tag reason result dom ∧
      ((s.pwrResult none tag reason result dom).pwrSync none).pwr = s.pwr ∧ KeepsDoms s ((s.pwrResult none tag reason result dom).pwrSync none) :=
  ⟨(State.rdN_pwrSync _ none none).trans (State.rdN_pwrResult s none h), (State.pwr_pwrSync _ _).trans (State.pwr_pwrResult _ _ _ _ _ _),
    (KeepsDoms.pwrResult _ _ _ _ _ _).trans (.pwrSync _ _)⟩

theorem State.on_dev_busy_pwrSync (s : State) : (s.pwrSync none).on POWER_DEV_STATUS_BUSY = s.pwr.dev.isSome := by
  have hpwr : ∀ (f g : Fld) (b : Bool) (n : Nat), ((s.putB f b).put g n).pwr = s.pwr := fun _ _ _ _ => (State.put_pwr _ _ _).trans (State.putB_pwr _ _ _)
  unfold State.pwrSync
  dsimp only
  rw [State.on_putB_same _ POWER_DEV_STATUS_BUSY _ rfl (by decide), hpwr]

/-! ### Which device request starts, waits or is deferred -/

/-- The write of DEV_REQ that asks for a state. -/
def devAskFor (q : Req) (tag : Nat) (p : Bool) (k : Fin 4) : Instr :=
  if k = 0 then .devReqRun q tag else if k = 1 then .devReqWatch q tag p else if k = 2 then .devReqSleep q tag p else .devReqHalt q tag p

/-- The request that a write of DEV_REQ makes. -/
def devReqOf (q : Req) (target tag : Nat) (p : Bool) : PReq := ⟨target, tag % 65536, q.secure, p, false⟩

theorem State.devReq_stranger {s : State} {q : Req} (h : s.pwrWriter q = false) (target tag : Nat) (p bad : Bool) : s.devReq q target tag p bad = s := by
  unfold State.devReq
  dsimp only
  rw [if_pos (by simp [h])]

theorem State.devCancel_stranger {s : State} {q : Req} (h : s.pwrWriter q = false) (tag : Nat) : s.devCancel q tag = s := by
  unfold State.devCancel
  rw [if_pos (by simp [h])]

theorem exec_devAskFor {q : Req} {s : State} (hhold : s.holdOf q = none) (tag : Nat) (p : Bool) (k : Fin 4) (hp : k = 0 → p = false) :
    exec (devAskFor q tag p k) s = .next (s.devReq q k.val tag p false) := by
  have hland : ∀ target p, s.landing q POWER_DEV_REQ (fun s => s.devReq q target tag p false) = s.devReq q target tag p false := fun target p =>
    State.landing_power (by decide) (by decide) hhold fun h => State.devReq_stranger h target tag p false
  match k with
  | 0 => rw [hp rfl]; exact congrArg Host.Outcome.next (hland 0 false)
  | 1 => exact congrArg Host.Outcome.next (hland 1 p)
  | 2 => exact congrArg Host.Outcome.next (hland 2 p)
  | 3 => exact congrArg Host.Outcome.next (hland 3 p)

theorem exec_devReqCancel {q : Req} {s : State} (hhold : s.holdOf q = none) (tag : Nat) : exec (.devReqCancel q tag) s = .next (s.devCancel q tag) :=
  congrArg Host.Outcome.next (State.landing_power (by decide) (by decide) hhold fun h => State.devCancel_stranger h tag)

section requests
variable {s : State} {q : Req} (hwriter : s.pwrWriter q = true)
include hwriter

theorem State.devReq_held {target held : Nat} (tag : Nat) (p : Bool) (htarget : target ≠ 0) (hworld : q.secure = false) (hheld : s.heldFirst target = some held) :
    s.devReq q target tag p false = (s.devPendOn { devReqOf q target tag p with deferred := true }).pwrResult none tag 0 3 held := by
  unfold State.devReq
  dsimp only
  rw [if_neg (by simp [hwriter]), if_neg Bool.false_ne_true, if_pos (by simp [hworld, htarget, hheld]), hheld]
  rfl

/-- A request that no hold defers starts, with a steward and no transition of the device. -/
theorem State.devReq_starts {target : Nat} (tag : Nat) (p : Bool) (hfree : ¬(target ≠ 0 ∧ q.secure = false ∧ s.heldFirst target ≠ none))
    (hsteward : s.fwRunning 2 = true) (hcalm : s.quiet = false) (hdev : s.pwr.dev = none) (hpend : s.pwr.devPend = none) :
    s.devReq q target tag p false = s.devStart (devReqOf q target tag p) := by
  have hheld : ¬(!q.secure && target != 0 && (s.heldFirst target).isSome) = true := by
    intro h
    simp only [Bool.and_eq_true, Bool.not_eq_true', bne_iff_ne] at h
    exact hfree ⟨h.1.2, h.1.1, fun k => by simp [k] at h⟩
  unfold State.devReq
  dsimp only
  rw [if_neg (by simp [hwriter]), if_neg Bool.false_ne_true, if_neg hheld, if_neg (by simp [hsteward, hcalm]), hdev, State.dropPend_dev_none hpend]
  rfl

theorem State.devCancel_none (tag : Nat) (h : s.pwr.devPend = none) : s.devCancel q tag = s := by
  unfold State.devCancel
  rw [if_neg (by simp [hwriter]), h]

theorem State.devCancel_removes (tag : Nat) {r : PReq} (h : s.pwr.devPend = some r) (hmay : (r.secure && !q.secure) = false) :
    s.devCancel q tag = ((s.setPwr fun p => { p with devPend := none }).pwrResult none r.tag 0 4 0).pwrSync none := by
  unfold State.devCancel
  rw [if_neg (by simp [hwriter]), h]
  exact if_neg (by simp [hmay])

end requests

/-- A deferred device request: it is pending, and its result names the domain that is held. -/
theorem State.devDeferred_spec {s : State} (hpend : s.pwr.devPend = none) (r : PReq) (tag : Nat) {held : Nat} (hheld : held < 24) :
    ((s.devPendOn r).pwrResult none tag 0 3 held).pwr = { s.pwr with devPend := some r } ∧
      ((s.devPendOn r).pwrResult none tag 0 3 held).rdN POWER_DEV_RESULT = resultWord tag 0 3 held ∧
      KeepsDoms s ((s.devPendOn r).pwrResult none tag 0 3 held) := by
  have hon : s.devPendOn r = (s.setPwr fun p => { p with devPend := some r }).pwrSync none := by rw [State.devPendOn, State.dropPend_dev_none hpend]
  rw [hon]
  exact ⟨(State.pwr_pwrResult _ _ _ _ _ _).trans (State.pwr_pwrSync _ _), State.rdN_pwrResult _ none (by omega),
    ((KeepsDoms.setPwr s rfl).trans (.pwrSync _ _)).trans (.pwrResult _ _ _ _ _ _)⟩

/-! ### A device request that starts -/

theorem State.devStart_present {s : State} {r : PReq} (h : r.target = s.get POWER_DEV_STATUS_STATE) : s.devStart r = (s.pwrResult none r.tag 0 0 0).pwrSync none := by
  unfold State.devStart
  dsimp only
  rw [if_pos h]

theorem State.devStart_wake {s : State} {r : PReq} (hr : r.target = 0) (h : s.get POWER_DEV_STATUS_STATE ≠ 0) : s.devStart r = s.wakeStart (some r) 0 := by
  unfold State.devStart
  dsimp only
  rw [if_neg (by omega), if_pos hr]

/-- The first agent left has been asked. -/
theorem State.devAsk_spec {s : State} {j : DevJob} {i : Nat} {rest : List Nat} (hdev : s.pwr.dev = some j) (htodo : j.todo = i :: rest) :
    s.devAsk.pwr = { s.pwr with dev := some { j with asked := s.round } } ∧ RegsBut RequestReg s s.devAsk ∧ KeepsDoms s s.devAsk := by
  have hask : s.devAsk = if i = 16 then (s.setDev fun j => { j with asked := s.round }).pwrEvent POWER_EVENT_PREPARE else s.setDev fun j => { j with asked := s.round } := by
    unfold State.devAsk
    rw [hdev]
    dsimp only
    rw [htodo]
  have hset : (s.setDev fun j => { j with asked := s.round }).pwr = { s.pwr with dev := some { j with asked := s.round } } := by
    rw [State.setDev, State.setPwr_pwr, hdev]
    rfl
  have hregs : RegsBut RequestReg s (s.setDev fun j => { j with asked := s.round }) := .of_regs rfl rfl
  have hkeeps : KeepsDoms s (s.setDev fun j => { j with asked := s.round }) := .setPwr s rfl
  rw [hask]
  split
  · have hshown := (s.setDev fun j => { j with asked := s.round }).pwrEvent_displayed (f := POWER_EVENT_PREPARE) rfl
    exact ⟨hshown.pwr.trans hset, hregs.trans (hshown.mono fun _ => .inr).toRegsBut, hkeeps.trans (.displayed hshown fun j _ => event_ne_statusReg (some j))⟩
  · exact ⟨hset, hregs, hkeeps⟩

/-- The job of an entry that begins. -/
def State.entryJob (s : State) (r : PReq) : DevJob :=
  { req := r, goals := s.devGoals r.target, todo := ((s.devGoals r.target).filter fun g => g.2 != 0).map Prod.fst }

/-- An entry begins in prepare: WAKE_LATCH is cleared, and the first agent of Table 14.10 is asked. -/
theorem State.devStart_entry {s : State} {r : PReq} (hr : r.target ≠ 0) (hrun : s.get POWER_DEV_STATUS_STATE = 0)
    (hgoals : ((s.devGoals r.target).filter fun g => g.2 != 0) ≠ []) :
    ∃ n, (s.devStart r).pwr.dev = some { s.entryJob r with asked := n } ∧ (s.devStart r).rdN POWER_WAKE_LATCH = 0 ∧
      (s.devStart r).on POWER_DEV_STATUS_BUSY = true ∧ KeepsDoms s (s.devStart r) := by
  have hshown : Displayed (fun o => o = POWER_WAKE_LATCH ∨ o = POWER_DEV_REFUSED) s ((s.wrN POWER_WAKE_LATCH 0).wrN POWER_DEV_REFUSED 0) :=
    ((Displayed.refl s).wrN (.inl rfl)).wrN (.inr rfl)
  have hlatch : ((s.wrN POWER_WAKE_LATCH 0).wrN POWER_DEV_REFUSED 0).rdN POWER_WAKE_LATCH = 0 :=
    (State.rdN_wrN_other _ _ _ _ (by decide)).trans (State.rdN_wrN_same _ _ _)
  have hcleared : KeepsDoms s ((s.wrN POWER_WAKE_LATCH 0).wrN POWER_DEV_REFUSED 0) := .displayed hshown fun j _ h => by
    rcases h with h | h
    · exact absurd (show 0xa00104 + 0x20 * j = 0xa00034 from h) (by omega)
    · exact absurd (show 0xa00104 + 0x20 * j = 0xa0001c from h) (by omega)
  obtain ⟨u, hu⟩ : ∃ u, u = ((s.wrN POWER_WAKE_LATCH 0).wrN POWER_DEV_REFUSED 0).each ((s.devGoals r.target).filter fun g => decide (g.1 < 24))
      fun s g => s.dropPend (some g.1) := ⟨_, rfl⟩
  have hkeeps : KeepsDoms s u := hu ▸ hcleared.trans (.each (fun v g _ => .dropPend v g.1) _)
  have hregs : RegsBut RequestReg ((s.wrN POWER_WAKE_LATCH 0).wrN POWER_DEV_REFUSED 0) u := hu ▸ .each (fun v g _ => v.dropPend_regsBut (some g.1)) _
  obtain ⟨v, hv, hstart⟩ : ∃ v, (∃ before, v = u.setPwr fun p => { p with before := before, fixed := [], dev := some (s.entryJob r) }) ∧
      s.devStart r = v.devAsk.pwrSync none := by
    refine ⟨_, ⟨(List.range 24).map fun i => (i, u.dom i), rfl⟩, ?_⟩
    unfold State.devStart
    dsimp only
    rw [if_neg (by omega), if_neg hr, if_neg (by omega), hu]
    simp only [hrun, if_true]
    rfl
  obtain ⟨before, rfl⟩ := hv
  obtain ⟨i, rest, htodo⟩ : ∃ i rest, (s.entryJob r).todo = i :: rest := List.exists_cons_of_ne_nil fun h => hgoals (List.map_eq_nil_iff.1 h)
  obtain ⟨hpwr, hasked, hdoms⟩ := State.devAsk_spec (s := u.setPwr fun p => { p with before := before, fixed := [], dev := some (s.entryJob r) }) rfl htodo
  have hjob := congrArg PwrSt.dev hpwr
  rw [hstart]
  refine ⟨u.round, ?_, ?_, ?_, (hkeeps.trans ((KeepsDoms.setPwr u rfl).trans hdoms)).trans (.pwrSync _ _)⟩
  · rw [State.pwr_pwrSync, hjob]
    rfl
  · rw [(State.pwrSync_regsBut _ none).rdN _ not_requestReg_latch, hasked.rdN _ not_requestReg_latch, State.setPwr_rdN,
      hregs.rdN _ not_requestReg_latch, hlatch]
  · rw [State.on_dev_busy_pwrSync, hjob]
    rfl

/-! ### Wakes -/

/-- The end of the start of a wake: WAKE#, WAKE_CAUSE and the event. -/
def State.wakeShown (s : State) (cause : Nat) : State :=
  (((if nbit cause 1 || s.on GLOBAL_PCIE_STATUS_LINK_UP then s else s.setLinks fun z => { z with wakePin := true }).wrN POWER_WAKE_CAUSE cause).pwrEvent
    POWER_EVENT_WAKE).pwrSync none

theorem State.on_pwrEvent (s : State) (f : Fld) (hl : f.lo = f.hi) (hh : f.hi < 64) : (s.pwrEvent f).on f = true := by
  have hput : (s.putB f true).on f = true := State.on_putB_same s f true hl hh
  have hirq : ∀ u : State, Displayed (fun _ => False) u (if u.cfgOn POWER_IRQ_CFG_EN then u.msix 0 (u.cfg POWER_IRQ_CFG_VECTOR) else u) := fun u => by
    split
    · exact (Displayed.refl u).msix
    · exact .refl u
  exact (((hirq (s.putB f true)).coreIrq).on f id).trans hput

theorem State.wakeShown_spec (s : State) (cause : Nat) : (s.wakeShown cause).pwr = s.pwr ∧ (s.wakeShown cause).rdN POWER_WAKE_LATCH = s.rdN POWER_WAKE_LATCH ∧
    (s.wakeShown cause).rdN POWER_WAKE_CAUSE = cause % 2 ^ 64 ∧ (s.wakeShown cause).on POWER_EVENT_WAKE = true := by
  obtain ⟨u, hu⟩ : ∃ u, u = if nbit cause 1 || s.on GLOBAL_PCIE_STATUS_LINK_UP then s else s.setLinks fun z => { z with wakePin := true } := ⟨_, rfl⟩
  have hpwr : u.pwr = s.pwr := by rw [hu]; split <;> rfl
  have hregs : u.regs = s.regs := by rw [hu]; split <;> rfl
  have hlatch : u.rdN POWER_WAKE_LATCH = s.rdN POWER_WAKE_LATCH := by rw [State.rdN, State.rd, hregs]; rfl
  have hcause : Displayed (· = POWER_WAKE_CAUSE) u (u.wrN POWER_WAKE_CAUSE cause) := (Displayed.refl u).wrN rfl
  have hevent : Displayed RequestReg (u.wrN POWER_WAKE_CAUSE cause) ((u.wrN POWER_WAKE_CAUSE cause).pwrEvent POWER_EVENT_WAKE) :=
    (State.pwrEvent_displayed _ rfl).mono fun _ => .inr
  have hsync : Displayed (· = POWER_DEV_STATUS) _ (((u.wrN POWER_WAKE_CAUSE cause).pwrEvent POWER_EVENT_WAKE).pwrSync none) := State.pwrSync_displayed _ none
  have hread : ∀ o, ¬RequestReg o → o ≠ POWER_DEV_STATUS → (((u.wrN POWER_WAKE_CAUSE cause).pwrEvent POWER_EVENT_WAKE).pwrSync none).rdN o = (u.wrN POWER_WAKE_CAUSE cause).rdN o :=
    fun o ho hne => (hsync.rdN o hne).trans (hevent.rdN o ho)
  rw [State.wakeShown, ← hu]
  exact ⟨hsync.pwr.trans (hevent.pwr.trans (hcause.pwr.trans hpwr)),
    (hread _ not_requestReg_latch (by decide)).trans ((hcause.rdN _ (by decide)).trans hlatch),
    (hread _ (not_requestReg (by decide)) (by decide)).trans (State.rdN_wrN_same _ _ _),
    (hsync.on _ (by decide)).trans (State.on_pwrEvent _ POWER_EVENT_WAKE rfl (by decide))⟩

/-- A wake with no transition of the device in progress. -/
theorem State.wakeStart_spec {s : State} (hdev : s.pwr.dev = none) (req : Option PReq) (cause : Nat) :
    ∃ j, (s.wakeStart req cause).pwr.dev = some j ∧ j.req = req.getD ⟨0, 0, true, false, false⟩ ∧ j.commit = true ∧
      (s.wakeStart req cause).rdN POWER_WAKE_LATCH = s.rdN POWER_WAKE_LATCH ∧ (s.wakeStart req cause).rdN POWER_WAKE_CAUSE = cause % 2 ^ 64 ∧
      (s.wakeStart req cause).on POWER_EVENT_WAKE = true := by
  have hresume : s.devResume.dropDev = s := by
    have h : s.devResume = s := by rw [State.devResume, hdev]
    rw [h, State.dropDev, hdev]
  have hdrop : RegsBut RequestReg s (if req.isSome then s else s.dropPend none) := by
    split
    · exact .refl s
    · exact s.dropPend_regsBut none
  obtain ⟨goals, u, hregs, heq⟩ : ∃ goals u, RegsBut RequestReg s u ∧ s.wakeStart req cause = (u.setPwr fun p =>
      { p with dev := some { req := req.getD ⟨0, 0, true, false, false⟩, goals := goals, commit := true, silent := req.isNone } }).wakeShown cause := by
    unfold State.wakeStart
    rw [hresume]
    refine ⟨_, _, ?_, rfl⟩
    exact hdrop.trans (RegsBut.each (fun v g _ => RegsBut.of_regs (State.setPwr_acting v _) (State.setPwr_regs v _)) _)
  obtain ⟨hpwr, hlatch, hcause, hevent⟩ := State.wakeShown_spec (u.setPwr fun p =>
    { p with dev := some { req := req.getD ⟨0, 0, true, false, false⟩, goals := goals, commit := true, silent := req.isNone } }) cause
  rw [heq]
  refine ⟨{ req := req.getD ⟨0, 0, true, false, false⟩, goals := goals, commit := true, silent := req.isNone }, ?_, rfl, rfl, ?_, hcause, hevent⟩
  · rw [hpwr, State.setPwr_pwr]
  · rw [hlatch, State.setPwr_rdN, hregs.rdN _ not_requestReg_latch]

section wakes
variable {s : State} {src : Nat}

theorem State.wakeEvent_masked (h : nbit (s.cfg POWER_WAKE_MASK_SOURCE) src = false) : s.wakeEvent src = s := by
  unfold State.wakeEvent
  rw [if_pos (by simp [h])]

theorem State.wakeEvent_enabled (hmask : nbit (s.cfg POWER_WAKE_MASK_SOURCE) src = true) (hgiven : s.wakeGiven src = true) (hdev : s.pwr.dev = none) :
    s.wakeEvent src = if (s.setBit POWER_WAKE_LATCH src true).get POWER_DEV_STATUS_STATE != 0 && !(s.setBit POWER_WAKE_LATCH src true).quiet then
      (s.setBit POWER_WAKE_LATCH src true).wakeStart none ((s.setBit POWER_WAKE_LATCH src true).rdN POWER_WAKE_LATCH) else s.setBit POWER_WAKE_LATCH src true := by
  have hpwr : (s.setBit POWER_WAKE_LATCH src true).pwr.dev = none := hdev
  unfold State.wakeEvent
  rw [if_neg (by simp [hmask, hgiven])]
  dsimp only
  rw [hpwr]

end wakes

end Sys2Proof.Machine
end

section
/-! SUPPORT. The answers of agents, and device requests as a whole (Power states Tables 14.10 and 14.11). -/

namespace Sys2Proof.Machine
open Reg

/-! ### What an agent that agrees or is resumed changes -/

/-- A register below the POWER block. -/
def BelowPower (o : Nat) : Prop := o < POWER_DEV_REQ

theorem region_belowPower {g : Nat} (hg : g < 8) : BelowPower (FABRIC_REGION_STATE g) := by
  unfold BelowPower FABRIC_REGION_STATE POWER_DEV_REQ
  omega

theorem not_belowPower_status (j : Nat) : ¬BelowPower (POWER_DOM_STATUS j) := by
  unfold BelowPower POWER_DOM_STATUS POWER_DEV_REQ
  omega

theorem State.agentAgree_displayed (s : State) (i : Nat) : Displayed BelowPower s (s.agentAgree i) := by
  unfold State.agentAgree
  split
  · refine Displayed.each (fun u g hg => (Displayed.refl u).putB (region_belowPower ?_)) s
    exact List.mem_range.1 (List.mem_filter.1 hg).1
  · exact .refl s

theorem State.agentResume_displayed (s : State) (i : Nat) : Displayed BelowPower s (s.agentResume i) := by
  unfold State.agentResume
  split
  · refine Displayed.each (fun u g hg => ?_) s
    have hreg := region_belowPower (List.mem_range.1 hg)
    exact ((Displayed.refl u).putB hreg).put hreg
  · exact .refl s

theorem State.devResume_displayed (s : State) : Displayed BelowPower s s.devResume := by
  unfold State.devResume
  split
  · split
    · exact .refl s
    · exact Displayed.each (fun u i _ => u.agentResume_displayed i) s
  · exact .refl s

theorem Displayed.belowPower {s t : State} (h : Displayed BelowPower s t) : KeepsDoms s t := .displayed h fun j _ => not_belowPower_status j

/-! ### Who is asked, and what is answered -/

/-- The REASONs of Table 14.11 that agents give. -/
theorem State.agentAnswer_lt {s : State} {i a : Nat} (h : s.agentAnswer i = some (some a)) : a < 8 := by
  unfold State.agentAnswer at h
  split_ifs at h <;> simp at h <;> omega

theorem State.askedSince_dom {s : State} {i n : Nat} {r : PReq} (h : (s.pdom i).prep = some (r, n)) : s.askedSince i = some n := by
  rw [State.askedSince, h]

theorem State.askedSince_dev {s : State} {i : Nat} {j : DevJob} {rest : List Nat} (hprep : (s.pdom i).prep = none) (hdev : s.pwr.dev = some j)
    (hcommit : j.commit = false) (htodo : j.todo = i :: rest) : s.askedSince i = some j.asked := by
  rw [State.askedSince, hprep, hdev]
  exact if_pos (by simp [hcommit, htodo])

theorem State.answer_dom {s : State} {i n : Nat} {r : PReq} (h : (s.pdom i).prep = some (r, n)) (a : Option Nat) : s.answer i a = s.domAnswer i a := by
  rw [State.answer, h]
  rfl

theorem State.answer_dev {s : State} {i : Nat} (h : (s.pdom i).prep = none) (a : Option Nat) : s.answer i a = s.devAnswer i a := by
  rw [State.answer, h]
  rfl

theorem execAgentAnswer_given {s : State} {i : Fin 27} {n : Nat} {a : Option Nat} (hasked : s.askedSince i = some n) (ha : s.agentAnswer i = some a) :
    exec (.agentAnswer i) s = .next (s.answer i a) := by
  show execAgentAnswer i s = _
  rw [execAgentAnswer, hasked, ha]

theorem execAgentAnswer_waits {s : State} {i : Fin 27} (ha : s.agentAnswer i = none) : exec (.agentAnswer i) s = .next s := by
  show execAgentAnswer i s = _
  rw [execAgentAnswer, ha]
  cases s.askedSince i <;> rfl

theorem State.hostAck_answer {s : State} {q : Req} {n : Nat} (hwriter : s.pwrWriter q = true) (hstate : s.get POWER_DEV_STATUS_STATE ≤ 1)
    (hasked : s.askedSince 16 = some n) (a : Option Nat) : s.hostAck q a = s.answer 16 a := by
  unfold State.hostAck
  rw [if_pos (by simp [hwriter, hstate, hasked])]

theorem State.landing_hostAck {s : State} {q : Req} (hhold : s.holdOf q = none) (a : Option Nat) :
    s.landing q POWER_HOST_ACK (fun s => s.hostAck q a) = s.hostAck q a :=
  State.landing_power (by decide) (by decide) hhold fun h => by
    show s.hostAck q a = s
    unfold State.hostAck
    rw [if_neg (by simp [h])]

theorem execPrepTimeout_refuses {s : State} {i : Fin 27} {n : Nat} (hasked : s.askedSince i = some n) (hlate : n + max 1 (s.act POWER_PREP_LIMIT).toNat ≤ s.round)
    (hi : i.val ≤ 16) (ha : s.agentAnswer i = none) : exec (.prepTimeout i) s = .next (s.answer i (some (if i.val < 16 then 1 else 7))) := by
  show execPrepTimeout i s = _
  rw [execPrepTimeout, hasked]
  exact congrArg Host.Outcome.next (if_pos (by simp [hlate, hi, ha]))

theorem execPrepTimeout_early {s : State} {i : Fin 27} {n : Nat} (hasked : s.askedSince i = some n) (hearly : s.round < n + max 1 (s.act POWER_PREP_LIMIT).toNat) :
    exec (.prepTimeout i) s = .next s := by
  show execPrepTimeout i s = _
  rw [execPrepTimeout, hasked]
  refine congrArg Host.Outcome.next (if_neg fun h => ?_)
  simp only [Bool.and_eq_true, decide_eq_true_eq] at h
  exact absurd h.1.1 (Nat.not_le.2 hearly)

/-! ### The answer to a domain's prepare -/

section domain
variable {s : State} {i n : Nat} {r : PReq} (h : (s.pdom i).prep = some (r, n))
include h

theorem State.domAnswer_agrees : (s.domAnswer i none).pdom i =
    { s.pdom i with prep := none, trans := some { target := r.target, todo := entrySteps (s.dom i) r.target, start := s.round, req := some r } } ∧
      (i < 24 → KeepsDoms s (s.domAnswer i none)) := by
  have hset := KeepsDoms.setPdom s i fun x => { x with prep := none }
  have hagree := (s.setPdom i fun x => { x with prep := none }).agentAgree_displayed i
  have hanswer : s.domAnswer i none = ((s.setPdom i fun x => { x with prep := none }).agentAgree i).beginTrans i
      { target := r.target, todo := entrySteps ((s.setPdom i fun x => { x with prep := none }).dom i) r.target,
        start := (s.setPdom i fun x => { x with prep := none }).round, req := some r } := by
    rw [State.domAnswer, h]
  have hround : (s.setPdom i fun x => { x with prep := none }).round = s.round := rfl
  have hdom : (s.setPdom i fun x => { x with prep := none }).dom i = s.dom i := rfl
  rw [hanswer, hround, hdom]
  refine ⟨?_, fun _ => ((hset.trans hagree.belowPower).trans (.setPdom _ i _)).trans (.pwrSync _ _)⟩
  rw [(State.beginTrans_spec _ i _).2, hagree.pdom, State.pdom_setPdom_same]

theorem State.domAnswer_refuses {a : Nat} (ha : a < 8) (hi : i < 24) : ((s.domAnswer i (some a)).pdom i) = { s.pdom i with prep := none } ∧
    (s.domAnswer i (some a)).rdN (POWER_DOM_RESULT i) = resultWord r.tag a 1 i ∧ KeepsDoms s (s.domAnswer i (some a)) := by
  have hset := KeepsDoms.setPdom s i fun x => { x with prep := none }
  have hanswer : s.domAnswer i (some a) =
      (((s.setPdom i fun x => { x with prep := none }).setBit POWER_DEV_REFUSED i true).pwrResult (some i) r.tag a 1 i).pwrSync (some i) := by
    rw [State.domAnswer, h]
  have hbit : Displayed (· = POWER_DEV_REFUSED) (s.setPdom i fun x => { x with prep := none })
      ((s.setPdom i fun x => { x with prep := none }).setBit POWER_DEV_REFUSED i true) := (Displayed.refl _).setBit rfl
  obtain ⟨hres, hpdom, hkeeps⟩ := ((s.setPdom i fun x => { x with prep := none }).setBit POWER_DEV_REFUSED i true).domResult_spec i (tag := r.tag) (reason := a)
    (result := 1) (dom := i) (by omega)
  rw [hanswer]
  refine ⟨?_, hres, (hset.trans (.displayed hbit fun j _ => ?_)).trans hkeeps⟩
  · rw [hpdom, hbit.pdom, State.pdom_setPdom_same]
  · show 0xa00104 + 0x20 * j ≠ 0xa0001c
    omega

end domain

/-! ### The answer to the device's prepare -/

theorem State.setDev_pwr {s : State} {j : DevJob} (hdev : s.pwr.dev = some j) (f : DevJob → DevJob) : (s.setDev f).pwr = { s.pwr with dev := some (f j) } := by
  rw [State.setDev, State.setPwr_pwr, hdev]
  rfl

theorem State.get_dev_state_pwrSync (s : State) : (s.pwrSync none).get POWER_DEV_STATUS_STATE = s.get POWER_DEV_STATUS_STATE := by
  have hput : ∀ (u : State) (f : Fld) (n : Nat), f.lo ≤ f.hi → f.hi < 30 → (u.put f n).get POWER_DEV_STATUS_STATE = u.get POWER_DEV_STATUS_STATE :=
    fun u f n hl h => State.get_put_apart u f POWER_DEV_STATUS_STATE n hl (by omega) (.inl h)
  exact (hput _ POWER_DEV_STATUS_BUSY _ (by decide) (by decide)).trans
    ((hput _ POWER_DEV_STATUS_DEFERRED _ (by decide) (by decide)).trans
      ((hput _ POWER_DEV_STATUS_PENDING_TARGET _ (by decide) (by decide)).trans
        (hput _ POWER_DEV_STATUS_PENDING _ (by decide) (by decide))))

section device
variable {s : State} {i : Nat} {j : DevJob} {rest : List Nat} (hdev : s.pwr.dev = some j) (htodo : j.todo = i :: rest)
include hdev

/-- Prepare goes on to the next agent. -/
theorem State.devAsk_next {u : State} (hpwr : u.pwr = s.pwr) (hrest : rest ≠ []) (f : DevJob → DevJob) (hf : (f j).todo = rest) :
    (u.setDev f).devAsk.pwr.dev = some { f j with asked := u.round } ∧ RegsBut RequestReg u (u.setDev f).devAsk ∧ KeepsDoms u (u.setDev f).devAsk := by
  have hset : (u.setDev f).pwr = { u.pwr with dev := some (f j) } := State.setDev_pwr (by rw [hpwr, hdev]) f
  obtain ⟨next, others, hnext⟩ := List.exists_cons_of_ne_nil hrest
  obtain ⟨hasked, hregs, hkeeps⟩ := State.devAsk_spec (s := u.setDev f) (congrArg PwrSt.dev hset) (hf.trans hnext)
  exact ⟨congrArg PwrSt.dev hasked, (RegsBut.of_regs rfl rfl : RegsBut RequestReg u (u.setDev f)).trans hregs, (KeepsDoms.setPwr u rfl).trans hkeeps⟩

include htodo in
theorem State.devAnswer_agrees (hrest : rest ≠ []) : (s.devAnswer i none).pwr.dev = some { j with todo := rest, agreed := i :: j.agreed, asked := (s.agentAgree i).round } ∧
    KeepsDoms s (s.devAnswer i none) := by
  have hagree := s.agentAgree_displayed i
  have hanswer : s.devAnswer i none = ((s.agentAgree i).setDev fun j => { j with todo := j.todo.drop 1, agreed := i :: j.agreed }).devAsk := by
    rw [State.devAnswer, hdev]
  obtain ⟨hnext, -, hkeeps⟩ := State.devAsk_next hdev hagree.pwr hrest (fun j => { j with todo := j.todo.drop 1, agreed := i :: j.agreed }) (by
    show j.todo.drop 1 = rest
    rw [htodo]
    rfl)
  rw [hanswer]
  refine ⟨?_, hagree.belowPower.trans hkeeps⟩
  rw [hnext, htodo]
  rfl

include htodo in
theorem State.devAnswer_notes (hrest : rest ≠ []) (hpartial : j.req.partialOk = true) (a : Nat) (hi : i < 27) :
    (s.devAnswer i (some a)).pwr.dev = some { j with todo := rest, refused := j.refused ++ [(i, a)], asked := (s.setBit POWER_DEV_REFUSED i true).round } ∧
      nbit ((s.devAnswer i (some a)).rdN POWER_DEV_REFUSED) i = true := by
  have hbit : Displayed (· = POWER_DEV_REFUSED) s (s.setBit POWER_DEV_REFUSED i true) := (Displayed.refl s).setBit rfl
  have hanswer : s.devAnswer i (some a) = ((s.setBit POWER_DEV_REFUSED i true).setDev fun j => { j with todo := j.todo.drop 1, refused := j.refused ++ [(i, a)] }).devAsk := by
    rw [State.devAnswer, hdev]
    exact if_pos hpartial
  obtain ⟨hnext, hregs, -⟩ := State.devAsk_next hdev hbit.pwr hrest (fun j => { j with todo := j.todo.drop 1, refused := j.refused ++ [(i, a)] }) (by
    show j.todo.drop 1 = rest
    rw [htodo]
    rfl)
  rw [hanswer]
  refine ⟨?_, ?_⟩
  · rw [hnext, htodo]
    rfl
  · rw [hregs.rdN _ (not_requestReg (by decide))]
    exact State.nbit_setBit s _ true (by omega)

theorem State.devAnswer_refuses (hpartial : j.req.partialOk = false) {a : Nat} (ha : a < 8) (hi : i < 27) :
    (s.devAnswer i (some a)).pwr.dev = none ∧ (s.devAnswer i (some a)).rdN POWER_DEV_RESULT = resultWord j.req.tag a 1 i ∧
      (s.devAnswer i (some a)).get POWER_DEV_STATUS_STATE = s.get POWER_DEV_STATUS_STATE ∧ KeepsDoms s (s.devAnswer i (some a)) := by
  have hbit : Displayed (· = POWER_DEV_REFUSED) s (s.setBit POWER_DEV_REFUSED i true) := (Displayed.refl s).setBit rfl
  have hresume := (s.setBit POWER_DEV_REFUSED i true).devResume_displayed
  obtain ⟨u, hu⟩ : ∃ u, u = (s.setBit POWER_DEV_REFUSED i true).devResume := ⟨_, rfl⟩
  rw [← hu] at hresume
  have hanswer : s.devAnswer i (some a) = ((u.setPwr fun p => { p with dev := none }).pwrResult none j.req.tag a 1 i).pwrSync none := by
    rw [State.devAnswer, hdev, hu]
    exact if_neg (by simp [hpartial])
  obtain ⟨hres, hpwr, hkeeps⟩ := (u.setPwr fun p => { p with dev := none }).devResult_spec (tag := j.req.tag) (reason := a) (result := 1) (dom := i) (by omega)
  have hshown := (u.setPwr fun p => { p with dev := none }).pwrResult_displayed none j.req.tag a 1 i
  have hdoms : KeepsDoms s u := (KeepsDoms.displayed hbit fun k _ => by show 0xa00104 + 0x20 * k ≠ 0xa0001c; omega).trans hresume.belowPower
  rw [hanswer]
  refine ⟨by rw [hpwr, State.setPwr_pwr], hres, ?_, (hdoms.trans (.setPwr u rfl)).trans hkeeps⟩
  rw [State.get_dev_state_pwrSync, hshown.get _ (by decide), State.setPwr_get, hresume.get _ (Nat.not_lt.2 (by decide)), hbit.get _ (by decide)]

end device

/-- Settles O46: the request's job and the agents' answers change the records of POWER alone, and a wake begins with its latch bit. -/
theorem deviceRequestsPrepareAndWake : Obligations.DeviceRequestsPrepareAndWake := by
  intro s ask
  refine ⟨?requests, ?cancel, ?device, ?domain, ?wakes⟩
  case requests =>
    intro q tag p k hhold hwriter hsteward hcalm hdev hpend hp r held
    have hask : exec (ask q tag p k) s = .next (s.devReq q k.val tag p false) := exec_devAskFor hhold tag p k hp
    have hstart : ¬held → exec (ask q tag p k) s = .next (s.devStart r) := fun hfree => by
      rw [hask, State.devReq_starts hwriter tag p (fun h => hfree ⟨fun hk => h.1 (congrArg Fin.val hk), h.2⟩) hsteward hcalm hdev hpend]
      rfl
    refine ⟨fun hk hfree => ⟨_, hstart hfree, ?_⟩, fun hk hrun hfree hgoals => ?_, fun hk hstate => ?_, fun h hk hworld hheld => ⟨_, hask, ?_⟩⟩
    · rw [State.devStart_present hk]
      obtain ⟨hres, hpwr, -⟩ := s.devResult_spec (tag := r.tag) (reason := 0) (result := 0) (dom := 0) (by decide)
      exact ⟨hres.trans (resultWord_mod tag 0 0 0), hpwr⟩
    · obtain ⟨n, hjob, hlatch, hbusy, hkeeps⟩ := State.devStart_entry (s := s) (r := r) (fun h => hk (Fin.ext h)) hrun hgoals
      exact ⟨_, _, hstart hfree, hjob, rfl, rfl, rfl, rfl, rfl, hlatch, hbusy, hkeeps.dom, hkeeps.mem⟩
    · obtain ⟨j, hjob, hreq, hcommit, -, -, hevent⟩ := State.wakeStart_spec hdev (some r) 0
      refine ⟨_, j, (hstart fun h => h.1 hk).trans (congrArg Host.Outcome.next (State.devStart_wake (congrArg Fin.val hk) hstate)), hjob, hreq, hcommit, hevent⟩
    · rw [State.devReq_held hwriter tag p (fun h => hk (Fin.ext h)) hworld hheld]
      have hlt : h < 24 := List.mem_range.1 (List.mem_of_find?_eq_some hheld)
      obtain ⟨hpwr, hres, hkeeps⟩ := State.devDeferred_spec hpend { r with deferred := true } tag hlt
      exact ⟨(congrArg PwrSt.dev hpwr).trans hdev, congrArg PwrSt.devPend hpwr, hres, hkeeps.dom⟩
  case cancel =>
    intro q tag hhold hwriter
    refine ⟨fun hpend => ?_, fun r hpend hmay => ⟨_, exec_devReqCancel hhold tag, ?_⟩⟩
    · rw [exec_devReqCancel hhold, State.devCancel_none hwriter tag hpend]
    · rw [State.devCancel_removes hwriter tag hpend hmay]
      obtain ⟨hres, hpwr, -⟩ := (s.setPwr fun p => { p with devPend := none }).devResult_spec (tag := r.tag) (reason := 0) (result := 4) (dom := 0) (by decide)
      exact ⟨hpwr, hres⟩
  case device =>
    intro i j rest hdev hcommit htodo hprep
    have hasked := State.askedSince_dev hprep hdev hcommit htodo
    refine ⟨fun ha hrest => ⟨_, (s.agentAgree i).round, execAgentAnswer_given hasked ha, ?_⟩, fun a ha hpartial _ => ⟨_, execAgentAnswer_given hasked ha, ?_⟩,
      fun a ha hpartial hrest => ⟨_, (s.setBit POWER_DEV_REFUSED i true).round, execAgentAnswer_given hasked ha, ?_⟩, execAgentAnswer_waits⟩
    · rw [State.answer_dev hprep]
      obtain ⟨hjob, hkeeps⟩ := State.devAnswer_agrees hdev htodo hrest
      exact ⟨hjob, hkeeps.dom⟩
    · rw [State.answer_dev hprep]
      obtain ⟨hnone, hres, hstate, hkeeps⟩ := State.devAnswer_refuses hdev hpartial (State.agentAnswer_lt ha) i.isLt
      exact ⟨hnone, hres, hstate, hkeeps.dom⟩
    · rw [State.answer_dev hprep]
      exact State.devAnswer_notes hdev htodo hrest hpartial a i.isLt
  case domain =>
    intro i r n hprep goes ends
    have hasked := State.askedSince_dom hprep
    have hgoes : ∀ c, exec c s = .next (s.answer i none) → goes c := fun c hc => by
      rw [State.answer_dom hprep] at hc
      obtain ⟨hpdom, hkeeps⟩ := State.domAnswer_agrees hprep
      exact ⟨_, hc, congrArg DomSt.prep hpdom, congrArg DomSt.trans hpdom, (hkeeps i.isLt).dom⟩
    have hends : ∀ c a, a < 8 → exec c s = .next (s.answer i (some a)) → ends c a := fun c a ha hc => by
      rw [State.answer_dom hprep] at hc
      obtain ⟨hpdom, hres, hkeeps⟩ := State.domAnswer_refuses hprep ha i.isLt
      exact ⟨_, hc, congrArg DomSt.prep hpdom, by rw [hpdom], hres, hkeeps.dom⟩
    refine ⟨fun ha => hgoes _ (execAgentAnswer_given hasked ha), fun a ha => hends _ a (State.agentAnswer_lt ha) (execAgentAnswer_given hasked ha),
      fun q hi hhold hwriter hstate => ?_, fun hlate ha hi => hends _ _ (by split <;> decide) (execPrepTimeout_refuses hasked hlate hi ha),
      fun hearly => execPrepTimeout_early hasked hearly⟩
    subst hi
    have hack : ∀ a, s.landing q POWER_HOST_ACK (fun s => s.hostAck q a) = s.answer 16 a := fun a =>
      (State.landing_hostAck hhold a).trans (State.hostAck_answer hwriter hstate hasked a)
    exact ⟨hgoes _ (congrArg Host.Outcome.next (hack none)), hends _ 5 (by decide) (congrArg Host.Outcome.next (hack (some 5)))⟩
  case wakes =>
    intro src
    have hlatched : nbit ((s.setBit POWER_WAKE_LATCH src true).rdN POWER_WAKE_LATCH) src = true := State.nbit_setBit s _ true (by omega)
    have hbit : Displayed (· = POWER_WAKE_LATCH) s (s.setBit POWER_WAKE_LATCH src true) := (Displayed.refl s).setBit rfl
    have hstate : (s.setBit POWER_WAKE_LATCH src true).get POWER_DEV_STATUS_STATE = s.get POWER_DEV_STATUS_STATE := hbit.get _ (by decide)
    have hpwr : (s.setBit POWER_WAKE_LATCH src true).pwr.dev = s.pwr.dev := congrArg PwrSt.dev hbit.pwr
    have hquiet : (s.setBit POWER_WAKE_LATCH src true).quiet = s.quiet := by
      rw [State.quiet, State.quiet, hbit.on _ (by decide), hbit.on _ (by decide)]
    refine ⟨fun hmask => congrArg Host.Outcome.next (State.wakeEvent_masked hmask), fun hmask hgiven => ⟨fun hdev hrun => ⟨_, rfl, ?_⟩, fun hdev hrun hcalm => ?_⟩⟩
    · rw [State.wakeEvent_enabled hmask hgiven hdev, hstate, hrun, if_neg (by simp)]
      exact ⟨hlatched, hbit.pwr⟩
    · obtain ⟨j, hjob, hreq, hcommit, hlatch, hcause, -⟩ := State.wakeStart_spec (s := s.setBit POWER_WAKE_LATCH src true) (hpwr.trans hdev) none
        ((s.setBit POWER_WAKE_LATCH src true).rdN POWER_WAKE_LATCH)
      refine ⟨_, j, rfl, ?_⟩
      rw [State.wakeEvent_enabled hmask hgiven hdev, hstate, hquiet, if_pos (by simp [hrun, hcalm])]
      have hword : (s.setBit POWER_WAKE_LATCH src true).rdN POWER_WAKE_LATCH < 2 ^ 64 := BitVec.isLt _
      rw [Nat.mod_eq_of_lt hword] at hcause
      exact ⟨by rw [hlatch]; exact hlatched, by rw [hcause]; exact hlatched, hjob, by rw [hreq]; rfl, hcommit⟩

end Sys2Proof.Machine
end

section
/-! SUPPORT. The answers of the root (Trust §7): what a response changes, what a message comes to, and what an extension of a seal adds. -/

namespace Sys2Proof.Machine
open Reg

/-! ### What a store leaves alone -/

/-- The root and the fabric hold what they held. -/
structure RootStays (s t : State) : Prop where
  trust : t.trust = s.trust
  fab : t.fab = s.fab

namespace RootStays
variable {s t u : State}

theorem refl (s : State) : RootStays s s := ⟨rfl, rfl⟩
theorem trans (h : RootStays s t) (k : RootStays t u) : RootStays s u := ⟨k.trust.trans h.trust, k.fab.trans h.fab⟩

theorem ite (c : Prop) [Decidable c] {a b : State} (ha : RootStays s a) (hb : RootStays s b) : RootStays s (if c then a else b) := by
  split <;> assumption

section changes
variable (h : RootStays s t)
include h

theorem same (htrust : u.trust = t.trust) (hfab : u.fab = t.fab) : RootStays s u := h.trans ⟨htrust, hfab⟩

theorem each {α : Type} {f : State → α → State} (hf : ∀ v x, RootStays s v → RootStays s (f v x)) (l : List α) : RootStays s (t.each l f) := by
  unfold State.each
  induction l generalizing t with
  | nil => exact h
  | cons x l ih => exact ih (hf t x h)

theorem put {f : Fld} {n : Nat} : RootStays s (t.put f n) := h.same rfl rfl
theorem putB {f : Fld} {b : Bool} : RootStays s (t.putB f b) := h.same rfl rfl
theorem wrN {o n : Nat} : RootStays s (t.wrN o n) := h.same rfl rfl
theorem wrMem {a : Nat} {b : Bytes} : RootStays s (t.wrMem a b) := h.same rfl rfl
theorem putPoison {l : List Nat} : RootStays s (t.putPoison l) := h.same rfl rfl
theorem setFloor {f : FloorSt → FloorSt} : RootStays s (t.setFloor f) := h.same rfl rfl
theorem report {e : Err} : RootStays s (t.report e) := h.same (State.report_trust t e) (State.report_fab t e)

theorem accReport {e : AccErr} : RootStays s (t.accReport e) := by
  unfold State.accReport
  split
  · exact h.report.wrN
  · exact h.report
  · exact h.report
  · exact h.report
  · exact h

theorem writeLine {a : Nat} {b : Bytes} : RootStays s (t.writeLine a b) :=
  RootStays.ite _ h.report (RootStays.ite _ (RootStays.ite _ h.putPoison.put.wrMem h.report) h.wrMem)

theorem eccWord {x : Nat × Nat} : RootStays s (t.eccWord x) := by
  unfold State.eccWord
  extract_lets cache found
  split
  · exact h
  · extract_lets marked f poisoned
    have hmarked : RootStays s marked := RootStays.ite _ h.setFloor.put h.setFloor.put
    exact RootStays.ite _ hmarked.put.report hmarked.putB.putPoison.report

theorem freshWord {w : Nat} : RootStays s (t.freshWord w) := by
  unfold State.freshWord
  extract_lets fresh
  have hfresh : RootStays s fresh := RootStays.ite _ h.setFloor h
  exact RootStays.ite _ hfresh.putPoison hfresh

theorem writeSram {a : Nat} {b : Bytes} : RootStays s (t.writeSram a b) := by
  unfold State.writeSram
  extract_lets w read
  have hread : RootStays s read := h.each (fun _ _ hv => hv.eccWord) _
  exact RootStays.ite _ h.report (RootStays.ite _ (RootStays.ite _ h.freshWord.wrMem (RootStays.ite _ hread hread.wrMem)) h)

theorem store {a : Nat} {b : Bytes} : RootStays s (t.store a b) :=
  RootStays.ite _ (h.each (fun _ _ hv => hv.writeSram) _) (h.each (fun _ _ hv => hv.writeLine) _)

end changes

end RootStays

/-! ### Numbers of bytes -/

theorem leNat_lt (b : Bytes) : leNat b < 256 ^ b.length := by
  induction b with
  | nil => decide
  | cons x l ih =>
    have hx : x.toNat < 256 := x.isLt
    rw [leNat, List.length_cons, Nat.pow_succ]
    omega

theorem fieldLE_lt (b : Bytes) (off n : Nat) : fieldLE b off n < 256 ^ n :=
  Nat.lt_of_lt_of_le (leNat_lt _) (Nat.pow_le_pow_right (by decide) (List.length_take_le _ _))

theorem fieldLE4_lt (b : Bytes) (off : Nat) : fieldLE b off 4 < 2 ^ 64 := Nat.lt_trans (fieldLE_lt b off 4) (by decide)

/-! ### Responses -/

theorem Displayed.setTrust {W : Nat → Prop} {s t : State} (h : Displayed W s t) (f : TrustSt → TrustSt) : Displayed W (s.setTrust f) (t.setTrust f) := by
  obtain ⟨⟨hacting, hrd⟩, regs, irqs, rfl⟩ := h
  exact ⟨⟨hacting, hrd⟩, regs, irqs, rfl⟩

/-- The registers of the mailboxes that a response writes. -/
def MbReg (o : Nat) : Prop := 0xC01100 ≤ o ∧ o < 0xC01800

theorem mbReg_rsp {k j : Nat} (hk : k < 2) (hj : j < 64) : MbReg (SECURE_MB_RSP k j) := by
  unfold MbReg SECURE_MB_RSP
  omega

theorem mbReg_ctrl {k : Nat} (hk : k < 2) : MbReg (SECURE_MB_CTRL k) := by
  unfold MbReg SECURE_MB_CTRL
  omega

theorem mbReg_status {k : Nat} (hk : k < 2) : MbReg (SECURE_MB_STATUS k) := by
  unfold MbReg SECURE_MB_STATUS
  omega

/-- The mailbox holds no message. -/
def State.mbFree (s : State) (k : Nat) : State := s.setTrust fun t => { t with held := SMap.set (fun _ => none) t.held k none }

theorem State.mbFree_rdN (s : State) (k o : Nat) : (s.mbFree k).rdN o = s.rdN o := rfl

/-- The state before the interrupt of a response. -/
def State.mbShown (s : State) (k : Nat) (m : MbMsg) (status result : Nat) (body : Bytes) : State :=
  (((s.each (List.range 64) fun s i => s.wrN (SECURE_MB_RSP k i) (fieldLE (m.reply status result body) (4 * i) 4)).mbFree k).putB (SECURE_MB_CTRL_GO k) false).wrN
    (SECURE_MB_STATUS k) (2 ^ 30 + status % 65536)

theorem State.mbShown_irq (s : State) (k : Nat) (m : MbMsg) (status result : Nat) (body : Bytes) :
    Displayed (fun _ => False) (s.mbShown k m status result body) (s.mbRespond k m status result body) := by
  have h := Displayed.refl (W := fun _ => False) (s.mbShown k m status result body)
  show Displayed _ _ (if k = 0 then (s.mbShown k m status result body).coreIrq true 0xC0 none
    else if (s.mbShown k m status result body).cfgOn SECURE_IRQ_CFG_EN then
      (s.mbShown k m status result body).msix 0 ((s.mbShown k m status result body).cfg SECURE_IRQ_CFG_VECTOR) else s.mbShown k m status result body)
  split
  · exact h.coreIrq
  · split
    · exact h.msix
    · exact h

/-- Words written one by one to registers that differ. -/
theorem State.rdN_each_wrN {reg val : Nat → Nat} (hreg : ∀ i j, reg i = reg j → i = j) {n j : Nat} (hj : j < n) (hval : val j < 2 ^ 64) (s : State) :
    (s.each (List.range n) fun s i => s.wrN (reg i) (val i)).rdN (reg j) = val j := by
  induction n with
  | zero => omega
  | succ n ih =>
    rw [List.range_succ, State.each, List.foldl_append, ← State.each]
    show (State.wrN _ (reg n) (val n)).rdN (reg j) = val j
    by_cases h : j = n
    · subst h
      rw [State.rdN_wrN_same, Nat.mod_eq_of_lt hval]
    · rw [State.rdN_wrN_other _ _ _ _ fun k => h (hreg _ _ k)]
      exact ih (by omega)

theorem State.mbRespond_displayed (s : State) {k : Nat} (hk : k < 2) (m : MbMsg) (status result : Nat) (body : Bytes) :
    Displayed MbReg (s.mbFree k) (s.mbRespond k m status result body) := by
  have hwords : Displayed MbReg s (s.each (List.range 64) fun s i => s.wrN (SECURE_MB_RSP k i) (fieldLE (m.reply status result body) (4 * i) 4)) :=
    Displayed.each (fun u i hi => (Displayed.refl u).wrN (mbReg_rsp hk (List.mem_range.1 hi))) s
  have hshown : Displayed MbReg (s.mbFree k) (s.mbShown k m status result body) := ((hwords.setTrust _).putB (mbReg_ctrl hk)).wrN (mbReg_status hk)
  exact hshown.trans ((s.mbShown_irq k m status result body).mono fun _ h => h.elim)

theorem State.mbRespond_answered (s : State) {k : Nat} (hk : k < 2) (m : MbMsg) {status : Nat} (result : Nat) (body : Bytes) (hstatus : status < 65536) :
    Safety.Answered k m status result body (s.mbRespond k m status result body) := by
  have hirq := s.mbShown_irq k m status result body
  have htrust := (s.mbRespond_displayed hk m status result body).trust
  have hmod : status % 65536 = status := Nat.mod_eq_of_lt hstatus
  have hlt : 2 ^ 30 + status < 2 ^ 64 := Nat.lt_trans (Nat.add_lt_add_left hstatus _) (by decide)
  refine ⟨?_, ?_, ?_, fun j hj => ?_⟩
  · rw [State.mbHeld, htrust]
    exact SMap.get_set_same (fun _ => none) s.trust.held k none
  · rw [hirq.rdN _ id, State.mbShown, State.rdN_wrN_same, hmod, Nat.mod_eq_of_lt hlt]
  · rw [hirq.on _ id, State.mbShown, State.on, State.get_wrN_other _ _ _ _ (by show 0xc01200 + 0x400 * k ≠ 0xc01204 + 0x400 * k; omega)]
    exact State.on_putB_same _ (SECURE_MB_CTRL_GO k) false rfl (by decide : 31 < 64)
  · have hstat : SECURE_MB_RSP k j ≠ SECURE_MB_STATUS k := by
      show 0xc01100 + 0x400 * k + 4 * j ≠ 0xc01204 + 0x400 * k
      omega
    have hctrl : SECURE_MB_RSP k j ≠ SECURE_MB_CTRL k := by
      show 0xc01100 + 0x400 * k + 4 * j ≠ 0xc01200 + 0x400 * k
      omega
    rw [hirq.rdN _ id, State.mbShown, State.rdN_wrN_other _ _ _ _ hstat]
    have hgo : ∀ u : State, (u.putB (SECURE_MB_CTRL_GO k) false).rdN (SECURE_MB_RSP k j) = u.rdN (SECURE_MB_RSP k j) := fun u =>
      State.rdN_put_other u (SECURE_MB_CTRL_GO k) _ _ hctrl
    have hwords : ∀ a b, SECURE_MB_RSP k a = SECURE_MB_RSP k b → a = b := fun a b h => by
      have hword : 0xc01100 + 0x400 * k + 4 * a = 0xc01100 + 0x400 * k + 4 * b := h
      omega
    rw [hgo, State.mbFree_rdN]
    exact State.rdN_each_wrN (val := fun i => fieldLE (m.reply status result body) (4 * i) 4) hwords hj (fieldLE4_lt _ _) s

/-! ### The message of a mailbox -/

/-- A message has been answered from the state `u` that it came to. -/
structure Replied (k : Nat) (m : MbMsg) (status result : Nat) (body : Bytes) (u t : State) : Prop where
  answered : Safety.Answered k m status result body t
  shown : Displayed MbReg (u.mbFree k) t

namespace Replied
variable {k : Nat} {m : MbMsg} {status result : Nat} {body : Bytes} {u t : State} (h : Replied k m status result body u t)
include h

theorem trust : t.trust = (u.mbFree k).trust := h.shown.trust
theorem seals : t.trust.seals = u.trust.seals := by rw [h.trust]; rfl
theorem log : t.trust.log = u.trust.log := by rw [h.trust]; rfl
theorem mem : t.mem = u.mem := h.shown.mem
theorem fab : t.fab = u.fab := h.shown.fab
theorem rd {o : Nat} (ho : ¬MbReg o) : t.rd o = u.rd o := h.shown.rd o ho
theorem rdN {o : Nat} (ho : ¬MbReg o) : t.rdN o = u.rdN o := h.shown.rdN o ho
theorem get {f : Fld} (hf : ¬MbReg f.reg) : t.get f = u.get f := h.shown.get f hf
theorem on {f : Fld} (hf : ¬MbReg f.reg) : t.on f = u.on f := h.shown.on f hf
theorem unsealed : Safety.Unsealed u t := ⟨h.seals, h.log⟩

theorem sealed {i : Nat} {d : Bytes} {source : Nat} {s : State} (hs : Safety.Sealed i d source s u) : Safety.Sealed i d source s t := by
  have hseal : ∀ j, t.sealOf j = u.sealOf j := fun j => by rw [State.sealOf, h.seals, State.sealOf]
  exact ⟨(hseal i).trans hs.1, fun j hj => (hseal j).trans (hs.2.1 j hj), h.log.trans hs.2.2⟩

end Replied

/-- A message that the root takes is answered with what it comes to. -/
theorem State.mbRun_replied {s : State} {k op len : Nat} {m : MbMsg} (hk : k < 2) (hheld : Safety.Held k m op len s) {f : MbMsg → MbAns} {u : State} {status result : Nat}
    {body : Bytes} (hf : f m = (u, status, result, body)) (hstatus : status < 65536) : Replied k m status result body u (s.mbRun k op len f) := by
  obtain ⟨hmsg, hop, hlen, hfirst⟩ := hheld
  have hrun : s.mbRun k op len f = u.mbRespond k m status result body := by
    have hturn : ¬(m.op != op || (k == 1 && (s.mbHeld 0).isSome)) = true := by
      simp only [hop, bne_self_eq_false, Bool.false_or, Bool.and_eq_true, beq_iff_eq, not_and]
      intro h
      simp [hfirst h]
    rw [State.mbRun, hmsg]
    dsimp only
    rw [if_neg hturn, if_neg (by simp [hlen]), hf]
  rw [hrun]
  exact ⟨u.mbRespond_answered hk m result body hstatus, u.mbRespond_displayed hk m status result body⟩

/-! ### Seals -/

/-- An extension, while the log has room. -/
theorem State.extendSeal_eq {s : State} (hlog : s.trust.log.length < 1024) (i : Nat) (d : Bytes) (source : Nat) : s.extendSeal i d source =
    s.setTrust fun t => { t with seals := s.trust.seals.set i (sha384 (s.sealOf i ++ d)), log := s.trust.log ++ [⟨i, source, s.round, d⟩] } := by
  unfold State.extendSeal
  exact if_pos hlog

theorem State.extendSeal_sealed {s : State} (hlog : s.trust.log.length < 1024) {i : Nat} (hi : i < s.trust.seals.length) (d : Bytes) (source : Nat) :
    Safety.Sealed i d source s (s.extendSeal i d source) := by
  rw [State.extendSeal_eq hlog]
  refine ⟨?_, fun j hj => ?_, rfl⟩
  · show (s.trust.seals.set i _).getD i [] = _
    simp [List.getD_eq_getElem?_getD, hi]
  · show (s.trust.seals.set i _).getD j [] = s.trust.seals.getD j []
    simp [List.getD_eq_getElem?_getD, Ne.symm hj]

/-- A state whose seals, log and round are those of another. -/
structure SameSeals (s t : State) : Prop where
  seals : t.trust.seals = s.trust.seals
  log : t.trust.log = s.trust.log
  round : t.round = s.round

theorem SameSeals.sealed {i : Nat} {d : Bytes} {source : Nat} {s t u : State} (h : SameSeals s t) (hu : Safety.Sealed i d source t u) : Safety.Sealed i d source s u := by
  have hseal : ∀ j, t.sealOf j = s.sealOf j := fun j => by rw [State.sealOf, h.seals, State.sealOf]
  obtain ⟨hi, hothers, hlog⟩ := hu
  exact ⟨by rw [hi, hseal], fun j hj => (hothers j hj).trans (hseal j), by rw [hlog, h.log, h.round]⟩

/-- The extension of a seal from a state with the seals of another. -/
theorem SameSeals.extend {s t : State} (h : SameSeals s t) (hseals : s.trust.seals.length = 8) (hlog : s.trust.log.length < 1024) {i : Nat} (hi : i < 8) (d : Bytes)
    (source : Nat) : Safety.Sealed i d source s (t.extendSeal i d source) := by
  refine h.sealed (State.extendSeal_sealed ?_ ?_ d source)
  · rw [h.log]; exact hlog
  · rw [h.seals, hseals]; exact hi

/-! ### Images and addresses that fail -/

/-- A report of an address that fails: ERROR registers and UNPOP_LAST. -/
def AddrReg (o : Nat) : Prop := errReg o ∨ o = MEMCTL_UNPOP_LAST

/-- An address that failed has been reported, or not. -/
structure AddrNoted (s t : State) : Prop where
  stays : RootStays s t
  mem : t.mem = s.mem
  regs : RegsBut AddrReg s t

theorem AddrNoted.refl (s : State) : AddrNoted s s := ⟨.refl s, rfl, .refl s⟩

theorem AddrNoted.accReport (s : State) (e : AccErr) : AddrNoted s (s.accReport e) := by
  refine ⟨(RootStays.refl s).accReport, (s.accReport_spares e).1, ?_⟩
  have hreport : ∀ e, RegsBut AddrReg s (s.report e) := fun e => (RegsBut.refl s).report fun _ => .inl
  unfold State.accReport
  split
  · exact (hreport _).wrN (.inr rfl)
  · exact hreport _
  · exact hreport _
  · exact hreport _
  · exact .refl s

theorem State.mbAddr_noted (s : State) (e : AccErr) : ∃ u, AddrNoted s u ∧ s.mbAddr e = mbStatus u (accStatus e) := by
  cases e with
  | window => exact ⟨s, .refl s, rfl⟩
  | region a => exact ⟨s, .refl s, rfl⟩
  | unpopulated a => exact ⟨_, .accReport s _, rfl⟩
  | poison => exact ⟨_, .accReport s _, rfl⟩
  | domainDown d => exact ⟨_, .accReport s _, rfl⟩
  | host => exact ⟨_, .accReport s _, rfl⟩

theorem accStatus_lt (e : AccErr) : accStatus e < 16 := by
  unfold accStatus
  split <;> decide

/-- The status of an image that fails is that of its first failed check. -/
theorem State.imgVerify_error {s : State} {type limit : Nat} {h : Bytes} {body : Nat → Except AccErr Bytes} {status : Nat} {e : Option AccErr}
    (hv : s.imgVerify type limit h body = .error (status, e)) : status < 16 ∧ ∀ x, e = some x → status = accStatus x := by
  have hplain : ∀ {n : Nat}, n < 16 → (Except.error (n, none) : Except (Nat × Option AccErr) Bytes) = .error (status, e) → status < 16 ∧ ∀ x, e = some x → status = accStatus x :=
    fun hn heq => by
      cases heq
      exact ⟨hn, fun x hx => by cases hx⟩
  unfold State.imgVerify at hv
  split at hv
  · exact hplain (by decide) hv
  · split at hv
    · exact hplain (by decide) hv
    · split at hv
      · exact hplain (by decide) hv
      · split at hv
        · cases hv
          exact ⟨accStatus_lt _, fun x hx => by cases hx; rfl⟩
        · split at hv
          · exact hplain (by decide) hv
          · split at hv
            · exact hplain (by decide) hv
            · cases hv

/-- An image that passes is handed on; one that fails is answered with its status, and nothing but the report of its address changes. -/
theorem State.mbImage_ok {s : State} {m : MbMsg} {a type limit : Nat} {h b : Bytes} (f : Bytes → Bytes → MbAns) (hread : s.fnRead m.fn a 0x1800 = .ok h)
    (hv : s.imgVerify type limit h (s.fnRead m.fn (a + 0x1800)) = .ok b) : s.mbImage m a type limit f = f h b := by
  rw [State.mbImage, hread]
  dsimp only
  rw [hv]

theorem State.mbImage_error {s : State} {m : MbMsg} {a type limit : Nat} {h : Bytes} {e : Nat × Option AccErr} (f : Bytes → Bytes → MbAns)
    (hread : s.fnRead m.fn a 0x1800 = .ok h) (hv : s.imgVerify type limit h (s.fnRead m.fn (a + 0x1800)) = .error e) :
    e.1 < 65536 ∧ ∃ u, AddrNoted s u ∧ s.mbImage m a type limit f = mbStatus u e.1 := by
  obtain ⟨status, x⟩ := e
  obtain ⟨hlt, hacc⟩ := State.imgVerify_error hv
  refine ⟨Nat.lt_trans hlt (by decide), ?_⟩
  rw [State.mbImage, hread]
  dsimp only
  rw [hv]
  cases x with
  | none => exact ⟨s, .refl s, rfl⟩
  | some x =>
    obtain ⟨u, hu, haddr⟩ := s.mbAddr_noted x
    exact ⟨u, hu, by rw [hacc x rfl]; exact haddr⟩

end Sys2Proof.Machine
end

section
/-! SUPPORT. The mailboxes' queries and extensions (Trust R540 to R549), and the thermal notification (R556). -/

namespace Sys2Proof.Machine
open Reg

/-! ### What a record leaves of the error unit -/

theorem State.errSelect_notify (s : State) : s.errSelect.err.notify = s.err.notify := by
  unfold State.errSelect
  split
  · exact (congrArg ErrSt.notify ((State.errSync_displayed _).errIrq).err).trans rfl
  · exact congrArg ErrSt.notify (State.errSync_displayed _).err

theorem State.errEnqueue_notify (s : State) (r : ErrRec) : (s.errEnqueue r).err.notify = s.err.notify := by
  unfold State.errEnqueue
  dsimp only
  split
  · exact State.errSelect_notify _
  · split
    · exact (congrArg ErrSt.notify ((State.errSync_displayed _).errIrq).err).trans rfl
    · exact (congrArg ErrSt.notify (State.errSync_displayed _).err).trans rfl

/-- Writing a record leaves the thermal notification as it was. -/
theorem State.errRecord_notify (s : State) (e : Err) (c : ErrClass) (safe nested : Bool) : (s.errRecord e c safe nested).err.notify = s.err.notify := by
  unfold State.errRecord
  dsimp only
  split
  · rfl
  · split
    · exact State.errEnqueue_notify _ _
    · split
      · exact State.errEnqueue_notify _ _
      · rfl

theorem State.report_note_notify (s : State) (e : Err) (hc : errClass e.code = some .note) : (s.report e).err.notify = s.err.notify := by
  rw [State.report_note s e hc, State.errRecord_notify]
  rfl

theorem errClass_secDenied : errClass Code.SEC_DENIED = some .note := by decide
theorem errClass_secBusy : errClass Code.SEC_BUSY = some .note := by decide

/-! ### GO -/

theorem mbCtrl_bounds (k : Fin 2) : 0xA00000 ≤ SECURE_MB_CTRL k ∧ SECURE_MB_CTRL k < 0xF00000 := by
  have hk := k.isLt
  unfold SECURE_MB_CTRL
  omega

theorem execMbGo_lands {q : Req} {s : State} (hpath : s.path q = true) (hhold : s.holdOf q = none) (k : Fin 2) : exec (.mbGo q k) s = .next (s.mbGo q k) :=
  congrArg Host.Outcome.next (State.landing_always (mbCtrl_bounds k).1 (mbCtrl_bounds k).2 hpath hhold _)

/-- The words of a request, in order. -/
def State.mbRequest (s : State) (k : Nat) : Bytes := (List.range 64).flatMap fun i => leBytes 4 (s.rdN (SECURE_MB_REQ k i))

/-- The message is held. -/
def State.mbHold (s : State) (q : Req) (k : Nat) : State :=
  s.setTrust fun t => { t with held := SMap.set (fun _ => none) t.held k (some ⟨min q.fn 18, s.mbRequest k⟩) }

section go
variable {s : State} {q : Req} {k : Nat} (hpath : s.path q = true)
include hpath

theorem State.mbGo_denied (hk : k = 0) (hworld : q.secure = false) : s.mbGo q k = s.report { code := Code.SEC_DENIED } := by
  unfold State.mbGo
  rw [if_neg (by simp [hpath]), if_pos (by simp [hk, hworld])]

/-- The requester is one of the mailbox. -/
def MbOwner (q : Req) (k : Nat) : Prop := (k = 0 ∧ q.secure = true) ∨ (k = 1 ∧ q.secure = false ∧ q.pfOrHost = true)

theorem State.mbGo_busy (howner : MbOwner q k) (hbusy : s.on (SECURE_MB_STATUS_BUSY k) = true) : s.mbGo q k = s.report { code := Code.SEC_BUSY } := by
  unfold State.mbGo
  rcases howner with ⟨hk, hworld⟩ | ⟨hk, hworld, hpf⟩
  · rw [if_neg (by simp [hpath]), if_neg (by simp [hworld]), if_neg (by simp [hk]), if_pos hbusy]
  · rw [if_neg (by simp [hpath]), if_neg (by simp [hk]), if_neg (by simp [hworld, hpf]), if_pos hbusy]

theorem State.mbGo_holds (howner : MbOwner q k) (hbusy : s.on (SECURE_MB_STATUS_BUSY k) = false) :
    s.mbGo q k = ((s.mbHold q k).putB (SECURE_MB_CTRL_GO k) true).putB (SECURE_MB_STATUS_BUSY k) true := by
  unfold State.mbGo
  rcases howner with ⟨hk, hworld⟩ | ⟨hk, hworld, hpf⟩
  · rw [if_neg (by simp [hpath]), if_neg (by simp [hworld]), if_neg (by simp [hk]), if_neg (by simp [hbusy])]
    rfl
  · rw [if_neg (by simp [hpath]), if_neg (by simp [hk]), if_neg (by simp [hworld, hpf]), if_neg (by simp [hbusy])]
    rfl

theorem State.mbGo_spec (howner : MbOwner q k) (hbusy : s.on (SECURE_MB_STATUS_BUSY k) = false) :
    (s.mbGo q k).mbHeld k = some ⟨min q.fn 18, s.mbRequest k⟩ ∧ (s.mbGo q k).on (SECURE_MB_STATUS_BUSY k) = true ∧ (s.mbGo q k).on (SECURE_MB_CTRL_GO k) = true ∧
      (s.mbGo q k).mem = s.mem ∧ ∀ j, j ≠ k → (s.mbGo q k).mbHeld j = s.mbHeld j := by
  rw [State.mbGo_holds hpath howner hbusy]
  have hregs : SECURE_MB_CTRL k ≠ SECURE_MB_STATUS k := by
    show 0xc01200 + 0x400 * k ≠ 0xc01204 + 0x400 * k
    omega
  have hshown : Displayed (fun o => o = SECURE_MB_CTRL k ∨ o = SECURE_MB_STATUS k) (s.mbHold q k)
      (((s.mbHold q k).putB (SECURE_MB_CTRL_GO k) true).putB (SECURE_MB_STATUS_BUSY k) true) := ((Displayed.refl _).putB (.inl rfl)).putB (.inr rfl)
  refine ⟨?_, State.on_putB_same _ (SECURE_MB_STATUS_BUSY k) true rfl (by decide : 31 < 64), ?_, hshown.mem, fun j hj => ?_⟩
  · rw [State.mbHeld, hshown.trust]
    exact SMap.get_set_same (fun _ => none) s.trust.held k (some ⟨min q.fn 18, s.mbRequest k⟩)
  · rw [State.on, State.putB, State.get_put_other _ (SECURE_MB_STATUS_BUSY k) (SECURE_MB_CTRL_GO k) _ hregs, ← State.on]
    exact State.on_putB_same _ (SECURE_MB_CTRL_GO k) true rfl (by decide : 31 < 64)
  · rw [State.mbHeld, hshown.trust]
    exact SMap.get_set_other (fun _ => none) s.trust.held k j (some ⟨min q.fn 18, s.mbRequest k⟩) hj

end go

/-! ### The messages of both mailboxes -/

/-- The body of GET_INFO. -/
def State.infoBody (s : State) : Bytes :=
  leBytes 1 (s.rdN (SECURE_FUSE 4) % 16) ++ leBytes 1 s.trustFlags ++ leBytes 1 (s.get SECURE_STATUS_RUNTIME_SLOT) ++ leBytes 1 (s.get SECURE_STATUS_BOOT_SLOT) ++
    leBytes 4 (verOf s.trust.runtime) ++ leBytes 4 (verOf s.trust.bootStage) ++ leBytes 4 s.trust.log.length

theorem State.mbStore_ok {s : State} {m : MbMsg} {a : Nat} {b : Bytes} (ok : MbAns) (h : s.fnCheck m.fn a (max 1 b.length) = none) :
    s.mbStore m a b ok = (ok.1.store a b, ok.2) := by
  rw [State.mbStore, h]

theorem mbMayExtend {i : Nat} {k : Fin 2} : (i == 7 || (i == 3 && k == 0)) = true ↔ i = 7 ∨ (i = 3 ∧ k = 0) := by
  simp only [Bool.or_eq_true, Bool.and_eq_true, beq_iff_eq]

section both
variable {s : State} {k : Fin 2} {m : MbMsg}

theorem execGetInfo_replied (hheld : Safety.Held k m 1 8 s) : ∃ t, exec (.getInfo k) s = .next t ∧ Replied k m 0 0 s.infoBody s t :=
  ⟨_, rfl, State.mbRun_replied k.isLt hheld rfl (by decide)⟩

theorem execQuote_returned (hheld : Safety.Held k m 2 56 s) (hzero : m.zero 0x29 7 = true) (ec ml : Bytes) (hlife : s.rdN (SECURE_FUSE 4) % 16 = 7) :
    ∃ t, exec (.quote k ec ml) s = .next t ∧ Replied k m 9 0 [] s t := by
  refine ⟨_, rfl, State.mbRun_replied k.isLt hheld ?_ (by decide)⟩
  rw [if_neg (by simp [hzero]), if_pos hlife]
  rfl

theorem execQuote_stored (hheld : Safety.Held k m 2 56 s) (hzero : m.zero 0x29 7 = true) (ec ml : Bytes) (hlife : s.rdN (SECURE_FUSE 4) % 16 ≠ 7)
    (hfn : s.fnCheck m.fn (m.f 0x30 8) (max 1 (s.quote ((m.bytes.drop 8).take 32) (m.f 0x28 1) ec ml).length) = none) :
    ∃ t, exec (.quote k ec ml) s = .next t ∧ Replied k m 0 0 [] (s.store (m.f 0x30 8) (s.quote ((m.bytes.drop 8).take 32) (m.f 0x28 1) ec ml)) t := by
  refine ⟨_, rfl, State.mbRun_replied k.isLt hheld ?_ (by decide)⟩
  rw [if_neg (by simp [hzero]), if_neg hlife]
  exact State.mbStore_ok _ hfn

theorem execGetCert_stored (hheld : Safety.Held k m 3 24 s) (hzero : m.zero 0x14 4 = true) (hcert : s.trust.certGone = false) (cert : Bytes)
    (hlen : cert.length ≤ m.f 0x10 4) (hfn : s.fnCheck m.fn (m.f 8 8) (max 1 cert.length) = none) :
    ∃ t, exec (.getCert k cert) s = .next t ∧ Replied k m 0 cert.length [] (s.store (m.f 8 8) cert) t := by
  refine ⟨_, rfl, State.mbRun_replied k.isLt hheld ?_ (by decide)⟩
  simp only [hcert, Bool.false_eq_true, if_false]
  rw [if_neg (by simp [hzero]), if_neg (by omega)]
  exact State.mbStore_ok _ hfn

theorem execReadLog_stored (hheld : Safety.Held k m 4 24 s)
    (hfn : s.fnCheck m.fn (m.f 0x10 8) (max 1 (logFrom (m.f 8 4) ((s.trust.log.drop (m.f 8 4)).take (m.f 0xC 4))).length) = none) :
    ∃ t, exec (.readLog k) s = .next t ∧
      Replied k m 0 ((s.trust.log.drop (m.f 8 4)).take (m.f 0xC 4)).length [] (s.store (m.f 0x10 8) (logFrom (m.f 8 4) ((s.trust.log.drop (m.f 8 4)).take (m.f 0xC 4)))) t :=
  ⟨_, rfl, State.mbRun_replied k.isLt hheld (State.mbStore_ok _ hfn) (by decide)⟩

theorem execExtend_extends (hheld : Safety.Held k m 5 64 s) (hzero : m.zero 9 7 = true) (hseal : m.f 8 1 = 7 ∨ (m.f 8 1 = 3 ∧ k = 0)) :
    ∃ t, exec (.extend k) s = .next t ∧ Replied k m 0 0 [] (s.extendSeal (m.f 8 1) ((m.bytes.drop 0x10).take 48) 5) t := by
  refine ⟨_, rfl, State.mbRun_replied k.isLt hheld ?_ (by decide)⟩
  dsimp only
  rw [if_neg (by simp [hzero]; omega), if_neg (by rw [mbMayExtend.2 hseal]; decide)]

theorem execExtend_denied (hheld : Safety.Held k m 5 64 s) (hzero : m.zero 9 7 = true) (hrange : m.f 8 1 ≤ 7) (hseal : ¬(m.f 8 1 = 7 ∨ (m.f 8 1 = 3 ∧ k = 0))) :
    ∃ t, exec (.extend k) s = .next t ∧ Replied k m 2 0 [] s t := by
  refine ⟨_, rfl, State.mbRun_replied k.isLt hheld ?_ (by decide)⟩
  dsimp only
  rw [if_neg (by simp [hzero]; omega), if_pos (by rw [Bool.eq_false_iff.2 fun h => hseal (mbMayExtend.1 h)]; decide)]
  rfl

end both

/-! ### Messages of the secure world -/

section secure
variable {s : State} {m : MbMsg}

theorem execVerifyImage_ok (hheld : Safety.Held 0 m 6 24 s) (hflag : m.f 0x10 1 ≤ 1) (hzero : m.zero 0x11 7 = true) {h b : Bytes}
    (hread : s.fnRead m.fn (m.f 8 8) 0x1800 = .ok h) (hv : s.imgVerify 3 (2 ^ 32) h (s.fnRead m.fn (m.f 8 8 + 0x1800)) = .ok b) :
    ∃ t, exec .verifyImage s = .next t ∧ Replied 0 m 0 0 [] (if m.f 0x10 1 = 1 then s.extendSeal 3 (imgDigest h) 3 else s) t := by
  refine ⟨_, rfl, State.mbRun_replied (by decide) hheld ?_ (by decide)⟩
  rw [if_neg (by simp [hzero]; omega), State.mbImage_ok _ hread hv]
  rfl

theorem execVerifyImage_error (hheld : Safety.Held 0 m 6 24 s) (hflag : m.f 0x10 1 ≤ 1) (hzero : m.zero 0x11 7 = true) {h : Bytes} {e : Nat × Option AccErr}
    (hread : s.fnRead m.fn (m.f 8 8) 0x1800 = .ok h) (hv : s.imgVerify 3 (2 ^ 32) h (s.fnRead m.fn (m.f 8 8 + 0x1800)) = .error e) :
    ∃ t u, exec .verifyImage s = .next t ∧ AddrNoted s u ∧ Replied 0 m e.1 0 [] u t := by
  obtain ⟨hlt, u, hu, hans⟩ := State.mbImage_error (fun h _ => mbStatus (if m.f 0x10 1 = 1 then s.extendSeal 3 (imgDigest h) 3 else s) 0) hread hv
  refine ⟨_, u, rfl, hu, State.mbRun_replied (by decide) hheld ?_ hlt⟩
  rw [if_neg (by simp [hzero]; omega), hans]
  rfl

/-- A write of a counter changes the root's copies, and the register of that counter. -/
theorem State.setCounter_regs (s : State) (i v o : Nat) : (s.setCounter i v).rdN o = (s.wrN (SECURE_COUNTER i) v).rdN o := rfl

theorem State.setCounter_sameSeals (s : State) (i v : Nat) (hi : i < 64) : SameSeals s (s.setCounter i v) := by
  refine ⟨rfl, rfl, ?_⟩
  rw [State.round, State.setCounter_regs]
  exact State.rdN_wrN_other _ _ _ _ (by show 0x10000 ≠ 0xc00800 + 0x4 * i; omega)

theorem State.counter_setCounter_same (s : State) (i v : Nat) (hv : v < 2 ^ 64) : (s.setCounter i v).counter i = v := by
  rw [State.counter, State.setCounter_regs, State.rdN_wrN_same, Nat.mod_eq_of_lt hv]

theorem State.counter_setCounter_other (s : State) {i j : Nat} (v : Nat) (h : j ≠ i) : (s.setCounter i v).counter j = s.counter j := by
  rw [State.counter, State.setCounter_regs]
  exact State.rdN_wrN_other _ _ _ _ (by show 0xc00800 + 0x4 * j ≠ 0xc00800 + 0x4 * i; omega)

theorem not_mbReg_counter {i : Nat} (hi : i < 64) : ¬MbReg (SECURE_COUNTER i) := by
  unfold MbReg SECURE_COUNTER
  omega

/-- The counter as RAISE_COUNTER leaves it. -/
def State.raised (s : State) (i v : Nat) : State := if s.counter i < v then s.setCounter i v else s

theorem State.raised_spec {s : State} {i v : Nat} (hi : i < 64) (hv : v < 2 ^ 64) (hle : s.counter i ≤ v) :
    (s.raised i v).counter i = v ∧ (∀ j, j ≠ i → (s.raised i v).counter j = s.counter j) ∧ SameSeals s (s.raised i v) ∧ (s.raised i v).mem = s.mem := by
  unfold State.raised
  split
  · exact ⟨s.counter_setCounter_same i v hv, fun j hj => s.counter_setCounter_other v hj, s.setCounter_sameSeals i v hi, rfl⟩
  · exact ⟨by omega, fun _ _ => rfl, ⟨rfl, rfl, rfl⟩, rfl⟩

/-- The answer to RAISE_COUNTER. -/
def State.raiseAnswer (s : State) (m : MbMsg) : MbAns :=
  if s.worn then mbStatus s 12 else if m.f 0xC 4 < s.counter (m.f 8 1) then mbStatus s 6 else mbStatus ((s.raised (m.f 8 1) (m.f 0xC 4)).sealMsg m) 0

theorem execRaiseCounter_replied (hheld : Safety.Held 0 m 8 16 s) (hlo : 1 ≤ m.f 8 1) (hhi : m.f 8 1 ≤ 63) (hzero : m.zero 9 3 = true) {u : State} {status : Nat}
    (hans : s.raiseAnswer m = mbStatus u status) (hstatus : status < 65536) : ∃ t, exec .raiseCounter s = .next t ∧ Replied 0 m status 0 [] u t := by
  refine ⟨_, rfl, State.mbRun_replied (by decide) hheld ?_ hstatus⟩
  dsimp only
  rw [if_neg (by simp [hzero]; omega)]
  exact hans

end secure

/-! ### The thermal notification -/

theorem State.on_setErr (s : State) (f : ErrSt → ErrSt) (g : Fld) : (s.setErr f).on g = s.on g := rfl

/-- Outside the safe state the end of a notification makes the entry due, and nothing else. -/
theorem State.notifyEnd_eq {s : State} (hsafe : s.on ERROR_STATUS_SAFE = false) : s.notifyEnd =
    s.setErr fun z => { z with notify := none, entry := s.err.entry.map fun (e : SafeEntry) => if e.code == Code.THERMAL_TRIP then { e with due := true } else e } := by
  unfold State.notifyEnd
  exact if_neg (by rw [State.on_setErr, hsafe]; decide)

/-- The notification has ended, and an entry for it is due. -/
def NotifyEnded (s t : State) : Prop :=
  t.err.notify = none ∧ t.mem = s.mem ∧ ∀ e, s.err.entry = some e → e.code = Code.THERMAL_TRIP → t.err.entry = some { e with due := true }

theorem State.notifyEnd_ends {s : State} (hsafe : s.on ERROR_STATUS_SAFE = false) : NotifyEnded s s.notifyEnd := by
  rw [State.notifyEnd_eq hsafe]
  refine ⟨rfl, rfl, fun e he hcode => ?_⟩
  show s.err.entry.map _ = _
  rw [he]
  exact congrArg some (if_pos (by rw [hcode]; exact beq_self_eq_true _))

section notify
variable {s : State} {q : Req} (hpath : s.path q = true) (hhold : s.holdOf q = none)
include hpath hhold

theorem execThermalNotifyAck_lands : exec (.thermalNotifyAck q) s = .next (s.notifyAck q) :=
  congrArg Host.Outcome.next (State.landing_always (by decide) (by decide) hpath hhold _)

omit hhold in
theorem State.notifyAck_denied (hworld : q.secure = false) : s.notifyAck q = s.report { code := Code.SEC_DENIED } := by
  unfold State.notifyAck
  rw [if_neg (by simp [hpath]), if_pos (by simp [hworld])]

omit hhold in
theorem State.notifyAck_secure (hworld : q.secure = true) {n : Nat} (hn : s.err.notify = some n) :
    s.notifyAck q = (s.putB SECURE_SEC_NOTIFY_THERMAL false).notifyEnd := by
  have herr : (s.putB SECURE_SEC_NOTIFY_THERMAL false).err = s.err := State.putB_err _ _ _
  unfold State.notifyAck
  rw [if_neg (by simp [hpath]), if_neg (by simp [hworld])]
  dsimp only
  rw [herr, hn]
  rfl

end notify

theorem execThermalNotifyTimeout_ends {s : State} {n : Nat} (hn : s.err.notify = some n) (hlate : n + 20 ≤ s.round) : exec .thermalNotifyTimeout s = .next s.notifyEnd := by
  show execThermalNotifyTimeout s = _
  rw [execThermalNotifyTimeout, hn]
  exact congrArg Host.Outcome.next (if_pos hlate)

theorem execThermalNotifyTimeout_early {s : State} {n : Nat} (hn : s.err.notify = some n) (hearly : s.round < n + 20) : exec .thermalNotifyTimeout s = .next s := by
  show execThermalNotifyTimeout s = _
  rw [execThermalNotifyTimeout, hn]
  exact congrArg Host.Outcome.next (if_neg (by omega))

theorem execThermalNotifyTimeout_none {s : State} (hn : s.err.notify = none) : exec .thermalNotifyTimeout s = .next s := by
  show execThermalNotifyTimeout s = _
  rw [execThermalNotifyTimeout, hn]

/-! ### The whole -/

/-- A state from which nothing of the root's record changed. -/
theorem Replied.unsealed_of {k : Nat} {m : MbMsg} {status result : Nat} {body : Bytes} {s u t : State} (h : Replied k m status result body u t)
    (hu : u.trust = s.trust) : Safety.Unsealed s t := ⟨by rw [h.seals, hu], by rw [h.log, hu]⟩

/-- Settles O51: each message is answered from the state that its rules give, and a response changes the mailbox alone. -/
theorem mailboxAnswersQueriesAndExtendsSeals : Obligations.MailboxAnswersQueriesAndExtendsSeals := by
  intro s
  refine ⟨?go, ?messages, ?thermal⟩
  case go =>
    intro q k hpath hhold
    have hgo := execMbGo_lands hpath hhold k
    refine ⟨fun howner => ⟨fun hbusy => ⟨_, hgo, ?_⟩, fun hbusy => ⟨_, hgo, ?_⟩⟩, fun hk hworld => ⟨_, hgo, ?_⟩⟩
    · have hown : MbOwner q k := howner.imp (fun h => ⟨congrArg Fin.val h.1, h.2⟩) fun h => ⟨congrArg Fin.val h.1, h.2⟩
      obtain ⟨hheld, hshown, hctrl, hmem, hother⟩ := State.mbGo_spec hpath hown hbusy
      exact ⟨hheld, hshown, hctrl, hmem, hother _ (by omega)⟩
    · have hown : MbOwner q k := howner.imp (fun h => ⟨congrArg Fin.val h.1, h.2⟩) fun h => ⟨congrArg Fin.val h.1, h.2⟩
      rw [State.mbGo_busy hpath hown hbusy]
      exact ⟨State.report_trust _ _, State.on_report_note _ _ errClass_secBusy⟩
    · rw [State.mbGo_denied hpath (congrArg Fin.val hk) hworld]
      exact ⟨State.report_trust _ _, State.on_report_note _ _ errClass_secDenied⟩
  case messages =>
    intro hseals hlog k m
    have hsame : SameSeals s s := ⟨rfl, rfl, rfl⟩
    have hstored : ∀ a b, (s.store a b).trust = s.trust := fun a b => ((RootStays.refl s).store).trust
    refine ⟨fun hheld => ?info, fun hheld hzero ec ml => ⟨fun hlife => ?_, fun hlife hfn => ?_⟩, fun hheld hzero hcert cert hlen hfn => ?cert, ?log,
      fun hheld hzero hrange => ?extend, fun hheld hflag hzero h hread => ?image, fun hheld hlo hhi hzero => ?counter⟩
    case info =>
      obtain ⟨t, ht, hreply⟩ := execGetInfo_replied hheld
      exact ⟨t, ht, hreply.unsealed, hreply.mem, hreply.answered⟩
    case cert =>
      obtain ⟨t, ht, hreply⟩ := execGetCert_stored hheld hzero hcert cert hlen hfn
      exact ⟨t, ht, hreply.answered, hreply.mem⟩
    case log =>
      intro hheld es hfn
      obtain ⟨t, ht, hreply⟩ := execReadLog_stored hheld hfn
      exact ⟨t, ht, hreply.answered, hreply.mem, hreply.unsealed_of (hstored _ _)⟩
    case extend =>
      have hregs : ∀ o, o / 0x10000 ≠ 0xC0 → ¬MbReg o := fun o ho h => by
        unfold MbReg at h
        omega
      by_cases hseal : m.f 8 1 = 7 ∨ (m.f 8 1 = 3 ∧ k = 0)
      · obtain ⟨t, ht, hreply⟩ := execExtend_extends hheld hzero hseal
        have hsealed := hsame.extend hseals hlog (i := m.f 8 1) (by omega) ((m.bytes.drop 0x10).take 48) 5
        have heq := State.extendSeal_eq hlog (m.f 8 1) ((m.bytes.drop 0x10).take 48) 5
        refine ⟨t, ht, hreply.mem.trans (by rw [heq]; rfl), fun o ho => (hreply.rd (hregs o ho)).trans (by rw [heq]; rfl), fun _ => ⟨hreply.answered, hreply.sealed hsealed⟩,
          fun h7 h3 => absurd hseal (by simp [h7, h3])⟩
      · obtain ⟨t, ht, hreply⟩ := execExtend_denied hheld hzero hrange hseal
        exact ⟨t, ht, hreply.mem, fun o ho => hreply.rd (hregs o ho), fun h => absurd h hseal, fun _ _ => ⟨hreply.answered, hreply.unsealed⟩⟩
    case image =>
      cases hv : s.imgVerify 3 (2 ^ 32) h (s.fnRead m.fn (m.f 8 8 + 0x1800)) with
      | ok b =>
        obtain ⟨t, ht, hreply⟩ := execVerifyImage_ok hheld hflag hzero hread hv
        have hsealed := hsame.extend hseals hlog (i := 3) (by decide) (imgDigest h) 3
        have heq := State.extendSeal_eq hlog 3 (imgDigest h) 3
        refine ⟨t, ht, hreply.mem.trans ?_, hreply.answered, fun hflagged => ?_, fun hflagged => ?_⟩
        · split
          · rw [heq]; rfl
          · rfl
        · rw [if_pos hflagged] at hreply
          exact hreply.sealed hsealed
        · rw [if_neg (by omega)] at hreply
          exact hreply.unsealed
      | error e =>
        obtain ⟨t, u, ht, hu, hreply⟩ := execVerifyImage_error hheld hflag hzero hread hv
        exact ⟨t, ht, hreply.mem.trans hu.mem, hreply.answered, hreply.unsealed_of hu.stays.trust⟩
    case counter =>
      have hcounter : ∀ {status : Nat} {u t : State}, Replied 0 m status 0 [] u t → ∀ i, i < 64 → t.counter i = u.counter i := fun hreply i hi =>
        hreply.rdN (not_mbReg_counter hi)
      by_cases hworn : s.worn = true
      · obtain ⟨t, ht, hreply⟩ := execRaiseCounter_replied (u := s) (status := 12) hheld hlo hhi hzero (if_pos hworn) (by decide)
        exact ⟨t, ht, hreply.mem, fun i hi _ => hcounter hreply i hi, fun _ => ⟨hreply.answered, hcounter hreply _ (by omega)⟩,
          fun h => absurd hworn (by simp [h]), fun h => absurd hworn (by simp [h])⟩
      · by_cases hle : s.counter (m.f 8 1) ≤ m.f 0xC 4
        · obtain ⟨hraised, hothers, hsameSeals, hmem⟩ := State.raised_spec (s := s) (i := m.f 8 1) (v := m.f 0xC 4) (by omega) (fieldLE4_lt _ _) hle
          have hlog' : (s.raised (m.f 8 1) (m.f 0xC 4)).trust.log.length < 1024 := by rw [hsameSeals.log]; exact hlog
          have heq := State.extendSeal_eq hlog' 6 m.digest m.op
          have hkept : ∀ i, ((s.raised (m.f 8 1) (m.f 0xC 4)).sealMsg m).counter i = (s.raised (m.f 8 1) (m.f 0xC 4)).counter i := fun i => by
            rw [State.sealMsg, heq]; rfl
          obtain ⟨t, ht, hreply⟩ := execRaiseCounter_replied (u := (s.raised (m.f 8 1) (m.f 0xC 4)).sealMsg m) (status := 0) hheld hlo hhi hzero
            ((if_neg hworn).trans (if_neg (by omega))) (by decide)
          have hsealed : Safety.Sealed 6 m.digest 8 s ((s.raised (m.f 8 1) (m.f 0xC 4)).sealMsg m) := by
            have hop : m.op = 8 := hheld.2.1
            rw [State.sealMsg, hop]
            exact hsameSeals.extend hseals hlog (by decide) m.digest 8
          refine ⟨t, ht, hreply.mem.trans ?_, fun i hi hne => ?_, fun h => absurd h hworn, fun _ _ => ⟨hreply.answered, ?_, hreply.sealed hsealed⟩, fun _ h => by omega⟩
          · rw [State.sealMsg, heq]
            exact hmem
          · rw [hcounter hreply i hi, hkept, hothers i hne]
          · rw [hcounter hreply _ (by omega), hkept, hraised]
        · obtain ⟨t, ht, hreply⟩ := execRaiseCounter_replied (u := s) (status := 6) hheld hlo hhi hzero ((if_neg hworn).trans (if_pos (by omega))) (by decide)
          exact ⟨t, ht, hreply.mem, fun i hi _ => hcounter hreply i hi, fun h => absurd h hworn, fun _ h => absurd h hle,
            fun _ _ => ⟨hreply.answered, hcounter hreply _ (by omega), hreply.unsealed⟩⟩
    · obtain ⟨t, ht, hreply⟩ := execQuote_returned hheld hzero ec ml hlife
      exact ⟨t, ht, hreply.answered, hreply.mem⟩
    · obtain ⟨t, ht, hreply⟩ := execQuote_stored hheld hzero ec ml hlife hfn
      exact ⟨t, ht, hreply.answered, hreply.mem, hreply.unsealed_of (hstored _ _)⟩
  case thermal =>
    intro hsafe ends
    refine ⟨fun q n hpath hhold hn => ⟨fun hworld => ⟨_, execThermalNotifyAck_lands hpath hhold, ?_⟩, fun hworld => ⟨_, execThermalNotifyAck_lands hpath hhold, ?_⟩,
      fun hlate => ⟨_, execThermalNotifyTimeout_ends hn hlate, State.notifyEnd_ends hsafe⟩, fun hearly => execThermalNotifyTimeout_early hn hearly⟩,
      execThermalNotifyTimeout_none⟩
    · have hput : Displayed (· = SECURE_SEC_NOTIFY) s (s.putB SECURE_SEC_NOTIFY_THERMAL false) := (Displayed.refl s).putB rfl
      have hsafe' : (s.putB SECURE_SEC_NOTIFY_THERMAL false).on ERROR_STATUS_SAFE = false := (hput.on _ (by decide)).trans hsafe
      rw [State.notifyAck_secure hpath hworld hn]
      obtain ⟨hnone, hmem, hdue⟩ := State.notifyEnd_ends hsafe'
      refine ⟨⟨hnone, hmem.trans hput.mem, fun e he => hdue e (by rw [hput.err]; exact he)⟩, ?_⟩
      rw [State.notifyEnd_eq hsafe', State.on_setErr]
      exact State.on_putB_same s SECURE_SEC_NOTIFY_THERMAL false rfl (by decide)
    · rw [State.notifyAck_denied hpath hworld]
      exact ⟨State.rd_report_note _ _ errClass_secDenied _ (by decide), (State.report_note_notify _ _ errClass_secDenied).trans hn, State.on_report_note _ _ errClass_secDenied⟩

end Sys2Proof.Machine
end

section
/-! SUPPORT. Guard messages and parcel keys (Trust R551 to R553): the registers and records that they write, and the seal that each extends. -/

namespace Sys2Proof.Machine
open Reg

/-! ### Messages that end with an event -/

theorem Displayed.sameSeals {W : Nat → Prop} {s t : State} (h : Displayed W s t) (hW : ¬W ROUND_COUNT) : SameSeals s t :=
  ⟨by rw [h.trust], by rw [h.trust], h.toRegsBut.round hW⟩

/-- A message of mailbox 0 has been answered with OK from the state `w`, and its event extends seal `i`. -/
structure Finished (m : MbMsg) (i : Nat) (d : Bytes) (source : Nat) (s w t : State) : Prop where
  answered : Safety.Answered 0 m 0 0 [] t
  sealed : Safety.Sealed i d source s t
  regs : RegsBut MbReg w t
  mem : t.mem = w.mem
  fab : t.fab = w.fab
  trust : ∃ seals log held, t.trust = { w.trust with seals := seals, log := log, held := held }

section finished
variable {m : MbMsg} {i : Nat} {d : Bytes} {source : Nat} {s w t : State} (h : Finished m i d source s w t)
include h

theorem Finished.keys : t.trust.keys = w.trust.keys := by obtain ⟨_, _, _, ht⟩ := h.trust; rw [ht]
theorem Finished.debug : t.trust.debug = w.trust.debug := by obtain ⟨_, _, _, ht⟩ := h.trust; rw [ht]
theorem Finished.nor : t.trust.nor = w.trust.nor := by obtain ⟨_, _, _, ht⟩ := h.trust; rw [ht]
theorem Finished.flash : t.trust.flash = w.trust.flash := by obtain ⟨_, _, _, ht⟩ := h.trust; rw [ht]

end finished

theorem Replied.regsBut {k : Nat} {m : MbMsg} {status result : Nat} {body : Bytes} {u t : State} (h : Replied k m status result body u t) : RegsBut MbReg u t :=
  (RegsBut.of_regs rfl rfl : RegsBut MbReg u (u.mbFree k)).trans h.shown.toRegsBut

theorem Replied.keys {k : Nat} {m : MbMsg} {status result : Nat} {body : Bytes} {u t : State} (h : Replied k m status result body u t) : t.trust.keys = u.trust.keys := by
  rw [h.trust]; rfl

theorem Replied.debug {k : Nat} {m : MbMsg} {status result : Nat} {body : Bytes} {u t : State} (h : Replied k m status result body u t) : t.trust.debug = u.trust.debug := by
  rw [h.trust]; rfl

section taken
variable {s : State} {m : MbMsg} {op len : Nat} (hheld : Safety.Held 0 m op len s) {f : MbMsg → MbAns}
include hheld

/-- A message of mailbox 0 that comes to a status. -/
theorem State.mbRun_status {u : State} {status : Nat} (hf : f m = mbStatus u status) (hstatus : status < 65536) : Replied 0 m status 0 [] u (s.mbRun 0 op len f) :=
  State.mbRun_replied (by decide) hheld hf hstatus

/-- A message of mailbox 0 that ends with an event, while the log has room. -/
theorem State.mbRun_finished {w : State} {i : Nat} {d : Bytes} {source : Nat} (hf : f m = mbStatus (w.extendSeal i d source) 0) (hsame : SameSeals s w)
    (hseals : s.trust.seals.length = 8) (hlog : s.trust.log.length < 1024) (hi : i < 8) : Finished m i d source s w (s.mbRun 0 op len f) := by
  have hreply := State.mbRun_status hheld hf (by decide)
  have heq := State.extendSeal_eq (s := w) (by rw [hsame.log]; exact hlog) i d source
  have hregs : RegsBut MbReg w (w.extendSeal i d source) := by
    rw [heq]
    exact .of_regs rfl rfl
  refine ⟨hreply.answered, hreply.sealed (hsame.extend hseals hlog hi d source), hregs.trans hreply.regsBut, ?_, ?_, ?_⟩
  · rw [hreply.mem, heq]
    rfl
  · rw [hreply.fab, heq]
    rfl
  · rw [hreply.trust, heq]
    exact ⟨_, _, _, rfl⟩

end taken

/-! ### Guard banks -/

/-- The registers of a guard bank. -/
def BankReg (p b o : Nat) : Prop := o = CPORT_GUARD_PERIOD p b ∨ ∃ w, w < 16 ∧ o = CPORT_GUARD_WIN p b w

theorem bankReg_apart {p b c w : Nat} (hb : b < 2) (hc : c < 2) (hw : w < 16) (hne : c ≠ b) : ¬BankReg p b (CPORT_GUARD_WIN p c w) := by
  unfold BankReg CPORT_GUARD_PERIOD CPORT_GUARD_WIN
  rintro (h | ⟨v, hv, h⟩)
  · omega
  · omega

theorem bankReg_range {p b o : Nat} (hp : p < 2) (hb : b < 2) (h : BankReg p b o) : 0x708000 ≤ o ∧ o < 0x70A000 := by
  unfold BankReg CPORT_GUARD_PERIOD CPORT_GUARD_WIN at h
  rcases h with h | ⟨v, hv, h⟩ <;> omega

/-- The windows of a message. -/
def MbMsg.windows (m : MbMsg) : List Nat := (List.range 16).map fun w => m.f (0x10 + 8 * w) 8

theorem MbMsg.windows_getD (m : MbMsg) {w : Nat} (hw : w < 16) : m.windows.getD w 0 = m.f (0x10 + 8 * w) 8 := by
  simp [MbMsg.windows, List.getD_eq_getElem?_getD, hw]

/-- The bank as the message gives it. -/
def State.bankWritten (s : State) (m : MbMsg) (p b : Nat) : State :=
  (s.wrN (CPORT_GUARD_PERIOD p b) (m.f 0xC 4)).each (List.range 16) fun s w => s.wrN (CPORT_GUARD_WIN p b w) (m.windows.getD w 0)

theorem State.bankWritten_displayed (s : State) (m : MbMsg) (p b : Nat) : Displayed (BankReg p b) s (s.bankWritten m p b) :=
  ((Displayed.refl s).wrN (.inl rfl)).trans (Displayed.each (fun u w hw => (Displayed.refl u).wrN (.inr ⟨w, List.mem_range.1 hw, rfl⟩)) _)

theorem State.rdN_bankWritten (s : State) (m : MbMsg) {p b : Nat} (hb : b < 2) : (s.bankWritten m p b).rdN (CPORT_GUARD_PERIOD p b) = m.f 0xC 4 ∧
    ∀ w, w < 16 → (s.bankWritten m p b).rdN (CPORT_GUARD_WIN p b w) = m.f (0x10 + 8 * w) 8 := by
  have hwords : Displayed (fun o => ∃ w, w < 16 ∧ o = CPORT_GUARD_WIN p b w) (s.wrN (CPORT_GUARD_PERIOD p b) (m.f 0xC 4)) (s.bankWritten m p b) :=
    Displayed.each (fun u w hw => (Displayed.refl u).wrN ⟨w, List.mem_range.1 hw, rfl⟩) _
  have hperiod : ¬∃ w, w < 16 ∧ CPORT_GUARD_PERIOD p b = CPORT_GUARD_WIN p b w := by
    rintro ⟨w, hw, h⟩
    have hreg : 0x708010 + 0x1000 * p + 0x4 * b = 0x708100 + 0x1000 * p + 0x80 * b + 0x8 * w := h
    omega
  refine ⟨(hwords.rdN _ hperiod).trans ((State.rdN_wrN_same _ _ _).trans (Nat.mod_eq_of_lt (fieldLE4_lt _ _))), fun w hw => ?_⟩
  · have hinj : ∀ i j, CPORT_GUARD_WIN p b i = CPORT_GUARD_WIN p b j → i = j := fun i j h => by
      have hreg : 0x708100 + 0x1000 * p + 0x80 * b + 0x8 * i = 0x708100 + 0x1000 * p + 0x80 * b + 0x8 * j := h
      omega
    have hlt : m.windows.getD w 0 < 2 ^ 64 := by
      rw [m.windows_getD hw]
      exact Nat.lt_of_lt_of_le (fieldLE_lt _ _ 8) (by decide)
    exact (State.rdN_each_wrN (val := fun w => m.windows.getD w 0) hinj hw hlt _).trans (m.windows_getD hw)

/-! ### The guard messages -/

section guards
variable {s : State} {m : MbMsg} {p : Fin 2}

/-- The answer to GUARD_WRITE of a bank of a message with good fields. -/
def State.guardWriteAnswer (s : State) (m : MbMsg) (p b : Nat) : MbAns :=
  if b == s.guardBank p || s.on (CPORT_GUARD_CTRL_SWITCH_PENDING p) then mbStatus s 9
  else if !winsValid (m.f 0xC 4 + 1) m.windows then mbStatus s 10
  else mbStatus ((s.bankWritten m p b).sealMsg m) 0

theorem execGuardWrite_eq (hzero : m.zero 0xA 2 = true) (hperiod : m.f 0xC 4 ≤ 0xFFFF) {b : Fin 2} (hp : m.f 8 1 = p.val) (hb : m.f 9 1 = b.val)
    (hraws : m.windows.all winFields = true) : ∃ f, exec .guardWrite s = .next (s.mbRun 0 0x10 144 f) ∧ f m = s.guardWriteAnswer m p b := by
  refine ⟨_, rfl, ?_⟩
  have hwindows : (List.range 16).map (fun w => m.f (0x10 + 8 * w) 8) = m.windows := rfl
  have hgood : ¬(decide (1 < m.f 8 1) || decide (1 < m.f 9 1) || !m.zero 0xA 2 || decide (0xFFFF < m.f 0xC 4) || !m.windows.all winFields) = true := by
    simp only [hzero, hraws, Bool.or_eq_true, decide_eq_true_eq, Bool.not_true, Bool.false_eq_true, or_false]
    omega
  dsimp only
  rw [hwindows, if_neg hgood, hp, hb]
  rfl

/-- The answer to GUARD_SWITCH. -/
def State.guardSwitchAnswer (s : State) (m : MbMsg) (p : Nat) : MbAns :=
  if !s.on ROUND_STATUS_TIME_VALID || decide ((m.f 0x10 8 : Int) < s.netRound + 10) || !s.bankValid p (1 - s.guardBank p) then mbStatus s 10
  else if s.on (CPORT_GUARD_CTRL_SWITCH_PENDING p) then mbStatus s 9
  else mbStatus (((s.wrN (CPORT_GUARD_SWITCH p) (m.f 0x10 8)).putB (CPORT_GUARD_CTRL_SWITCH_PENDING p) true).sealMsg m) 0

theorem execGuardSwitch_eq (hzero : m.zero 9 7 = true) (hp : m.f 8 1 = p.val) :
    ∃ f, exec .guardSwitch s = .next (s.mbRun 0 0x11 24 f) ∧ f m = s.guardSwitchAnswer m p := by
  refine ⟨_, rfl, ?_⟩
  dsimp only
  rw [if_neg (by simp [hzero]; omega), hp]
  rfl

/-- GUARD_CTRL as GUARD_ARM gives it. -/
def State.armWord (s : State) (m : MbMsg) (p : Nat) : Word := Word.setBits (Word.setBits (s.rd (CPORT_GUARD_CTRL p)) 31 31 (m.f 9 1)) 7 0 (m.f 0xA 1)

/-- The answer to GUARD_ARM. -/
def State.guardArmAnswer (s : State) (m : MbMsg) (p : Nat) : MbAns :=
  if m.f 9 1 = 1 && s.on ERROR_STATUS_SAFE then mbStatus s 9 else mbStatus ((s.wrCfg (CPORT_GUARD_CTRL p) (s.armWord m p).toNat).sealMsg m) 0

theorem execGuardArm_eq (hzero : m.zero 0xB 5 = true) (harmed : m.f 9 1 ≤ 1) (hp : m.f 8 1 = p.val) :
    ∃ f, exec .guardArm s = .next (s.mbRun 0 0x12 16 f) ∧ f m = s.guardArmAnswer m p := by
  refine ⟨_, rfl, ?_⟩
  dsimp only
  rw [if_neg (by simp [hzero]; omega), hp]
  rfl

end guards

theorem not_mbReg_guard {o : Nat} (h : o < 0xC01100) : ¬MbReg o := by
  unfold MbReg
  omega

/-- The switch registers of a guard. -/
theorem State.switchArmed_spec (s : State) {p n : Nat} (hp : p < 2) (hn : n < 2 ^ 64) :
    let w := (s.wrN (CPORT_GUARD_SWITCH p) n).putB (CPORT_GUARD_CTRL_SWITCH_PENDING p) true
    Displayed (fun o => 0x708000 ≤ o ∧ o < 0x70A000) s w ∧ w.rdN (CPORT_GUARD_SWITCH p) = n ∧ w.on (CPORT_GUARD_CTRL_SWITCH_PENDING p) = true := by
  have hctrl : CPORT_GUARD_SWITCH p ≠ CPORT_GUARD_CTRL p := by
    show 0x708008 + 0x1000 * p ≠ 0x708000 + 0x1000 * p
    omega
  refine ⟨((Displayed.refl s).wrN ?_).putB ?_, ?_, State.on_putB_same _ (CPORT_GUARD_CTRL_SWITCH_PENDING p) true rfl (by decide : 24 < 64)⟩
  · unfold CPORT_GUARD_SWITCH
    omega
  · show 0x708000 ≤ 0x708000 + 0x1000 * p ∧ 0x708000 + 0x1000 * p < 0x70A000
    omega
  · refine (State.rdN_put_other _ (CPORT_GUARD_CTRL_SWITCH_PENDING p) _ _ hctrl).trans ?_
    rw [State.rdN_wrN_same, Nat.mod_eq_of_lt hn]

theorem State.armed_fields (s : State) {m : MbMsg} (harmed : m.f 9 1 ≤ 1) (p : Nat) :
    (s.wrCfg (CPORT_GUARD_CTRL p) (s.armWord m p).toNat).get (CPORT_GUARD_CTRL_ARMED p) = m.f 9 1 ∧
      (s.wrCfg (CPORT_GUARD_CTRL p) (s.armWord m p).toNat).get (CPORT_GUARD_CTRL_PTP_GAP_MS p) = m.f 0xA 1 := by
  have hword : ∀ hi lo, nbits (s.armWord m p).toNat hi lo = Word.bits (s.armWord m p) hi lo := fun _ _ => rfl
  have hgap : m.f 0xA 1 < 256 := fieldLE_lt _ _ 1
  refine ⟨?_, ?_⟩
  · rw [CPORT_GUARD_CTRL_ARMED, State.get_wrCfg_same _ _ (BitVec.isLt _), hword, State.armWord, Word.bits_setBits_apart _ _ _ _ _ _ (by decide) (by decide) (by decide),
      Word.bits_setBits_same _ _ _ _ (by decide) (by decide)]
    exact Nat.mod_eq_of_lt (by omega)
  · rw [CPORT_GUARD_CTRL_PTP_GAP_MS, State.get_wrCfg_same _ _ (BitVec.isLt _), hword, State.armWord, Word.bits_setBits_same _ _ _ _ (by decide) (by decide)]
    exact Nat.mod_eq_of_lt hgap

theorem State.wrCfg_sameSeals (s : State) {o : Nat} (n : Nat) (ho : o ≠ ROUND_COUNT) : SameSeals s (s.wrCfg o n) :=
  ⟨rfl, rfl, congrArg BitVec.toNat (State.rd_wrCfg_other s o n ROUND_COUNT (Ne.symm ho))⟩

theorem State.mem_wrCfg (s : State) (o n : Nat) : (s.wrCfg o n).mem = s.mem := rfl

/-! ### Parcel keys -/

theorem State.keyState_eq_get (s : State) (i : Nat) : s.keyState i = s.get ⟨SECURE_KEY_STATE, 2 * i + 1, 2 * i⟩ := rfl

theorem State.keyState_setKeyState_same (s : State) {i v : Nat} (hi : i < 16) (hv : v < 4) : (s.setKeyState i v).keyState i = v := by
  have hwidth : 2 * i + 1 + 1 - 2 * i = 2 := by omega
  rw [State.keyState_eq_get, State.setKeyState, State.get_put_same _ ⟨SECURE_KEY_STATE, 2 * i + 1, 2 * i⟩ v (Nat.le_succ _) (by show 2 * i + 1 < 64; omega)]
  show v % 2 ^ (2 * i + 1 + 1 - 2 * i) = v
  rw [hwidth]
  exact Nat.mod_eq_of_lt hv

theorem State.keyState_setKeyState_other (s : State) {i j v : Nat} (hi : i < 16) (hne : j ≠ i) : (s.setKeyState i v).keyState j = s.keyState j := by
  rw [State.keyState_eq_get, State.setKeyState]
  exact State.get_put_apart s ⟨SECURE_KEY_STATE, 2 * i + 1, 2 * i⟩ ⟨SECURE_KEY_STATE, 2 * j + 1, 2 * j⟩ v (by show 2 * i ≤ 2 * i + 1; omega)
    (by show 2 * i + 1 < 64; omega) (by show 2 * i + 1 < 2 * j ∨ 2 * j + 1 < 2 * i; omega)

theorem RegsBut.keyState {s t : State} (h : RegsBut MbReg s t) (i : Nat) : t.keyState i = s.keyState i :=
  congrArg (fun v => nbits v (2 * i + 1) (2 * i)) (h.rdN SECURE_KEY_STATE (not_mbReg_guard (by decide)))

/-- The key of a slot. -/
def State.keyOf (s : State) (i : Nat) : Option (Nat × Bytes) := SMap.get (fun _ => none) s.trust.keys i

/-- A slot with its key and state. -/
def State.keySet (s : State) (i : Nat) (key : Option (Nat × Bytes)) (v : Nat) : State :=
  (s.setTrust fun t => { t with keys := SMap.set (fun _ => none) t.keys i key }).setKeyState i v

theorem State.keySet_spec (s : State) {i v : Nat} (key : Option (Nat × Bytes)) (hi : i < 16) (hv : v < 4) : (s.keySet i key v).keyState i = v ∧
    (s.keySet i key v).keyOf i = key ∧ (∀ j, j ≠ i → (s.keySet i key v).keyState j = s.keyState j ∧ (s.keySet i key v).keyOf j = s.keyOf j) ∧
    SameSeals s (s.keySet i key v) ∧ (s.keySet i key v).mem = s.mem := by
  have hshown : Displayed (· = SECURE_KEY_STATE) (s.setTrust fun t => { t with keys := SMap.set (fun _ => none) t.keys i key }) (s.keySet i key v) :=
    (Displayed.refl _).put rfl
  have hseals := hshown.sameSeals (by decide)
  refine ⟨State.keyState_setKeyState_same _ hi hv, ?_, fun j hj => ⟨State.keyState_setKeyState_other _ hi hj, ?_⟩, ⟨hseals.seals, hseals.log, hseals.round⟩, hshown.mem⟩
  · rw [State.keyOf, hshown.trust]
    exact SMap.get_set_same (fun _ => none) s.trust.keys i key
  · rw [State.keyOf, hshown.trust]
    exact SMap.get_set_other (fun _ => none) s.trust.keys i j key hj

section keys
variable {s : State} {m : MbMsg} {i : Fin 16}

/-- The message with its key bytes replaced by zeros (Trust R540). -/
def MbMsg.keyless (m : MbMsg) : MbMsg := { m with bytes := m.bytes.take 0x10 ++ List.replicate 32 0 }

/-- The answer to KEY_INSTALL. -/
def State.keyInstallAnswer (s : State) (m : MbMsg) (i : Nat) : MbAns :=
  if s.keyState i = 1 then mbStatus s 9 else mbStatus ((s.keySet i (some (m.f 0xC 4, (m.bytes.drop 0x10).take 32)) 1).sealMsg m.keyless) 0

theorem execKeyInstall_eq (hzero : m.zero 9 3 = true) (hi : m.f 8 1 = i.val) : ∃ f, exec .keyInstall s = .next (s.mbRun 0 0x20 48 f) ∧ f m = s.keyInstallAnswer m i := by
  refine ⟨_, rfl, ?_⟩
  dsimp only
  rw [if_neg (by simp [hzero]; omega), hi]
  rfl

theorem execKeyRevoke_waits (hheld : Safety.Held 0 m 0x21 16 s) (hi : m.f 8 1 = i.val) (hloads : s.slotLoads i = true) : exec .keyRevoke s = .next s := by
  obtain ⟨hmsg, hop, hlen, -⟩ := hheld
  show execKeyRevoke s = _
  rw [execKeyRevoke, hmsg]
  exact congrArg Host.Outcome.next (if_pos (by simp [hop, hlen, hi, hloads]))

/-- What KEY_REVOKE comes to. -/
def State.keyRevokeAnswer (s : State) (m : MbMsg) : MbAns :=
  if 15 < m.f 8 1 || !m.zero 9 7 then mbStatus s 1 else mbStatus ((s.keySet (m.f 8 1) none 2).sealMsg m) 0

theorem execKeyRevoke_runs (hheld : Safety.Held 0 m 0x21 16 s) (hi : m.f 8 1 = i.val) (hloads : s.slotLoads i = false) :
    exec .keyRevoke s = .next (s.mbRun 0 0x21 16 s.keyRevokeAnswer) := by
  obtain ⟨hmsg, hop, hlen, -⟩ := hheld
  show execKeyRevoke s = _
  rw [execKeyRevoke, hmsg]
  exact congrArg Host.Outcome.next (if_neg (by simp [hi, hloads]))

theorem State.keyRevokeAnswer_ok (hzero : m.zero 9 7 = true) (hi : m.f 8 1 = i.val) : s.keyRevokeAnswer m = mbStatus ((s.keySet i none 2).sealMsg m) 0 := by
  rw [State.keyRevokeAnswer, if_neg (by simp [hzero]; omega), hi]

end keys

end Sys2Proof.Machine
end

section
/-! SUPPORT. Fuses, approvals, enrolment and lifecycle (Trust R533, R541, R552 to R554). -/

namespace Sys2Proof.Machine
open Reg

/-! ### Fuse words -/

/-- LIFECYCLE as the fuse word 4 gives it. -/
def lifeOf (w : Nat) : Nat := match w % 16 with | 1 => 1 | 3 => 2 | 7 => 3 | _ => 0

theorem lifeOf_lt (w : Nat) : lifeOf w < 16 := by
  unfold lifeOf
  split <;> decide

theorem State.fuseSync_eq (s : State) : s.fuseSync =
    (((s.put SECURE_STATUS_LIFECYCLE (lifeOf (s.rdN (SECURE_FUSE 4)))).putB SECURE_STATUS_OWNER_SET (nbit (s.rdN (SECURE_FUSE 4)) 12)).putB
      SECURE_STATUS_OWNER_REQUIRED (nbit (s.rdN (SECURE_FUSE 4)) 13)).put SECURE_STATUS_VENDOR_REVOKED (nbits (s.rdN (SECURE_FUSE 4)) 11 8) := rfl

theorem State.fuseSync_status (s : State) : Displayed (· = SECURE_STATUS) s s.fuseSync := by
  have hput : ∀ (u : State) (f : Fld) (n : Nat), f.reg = SECURE_STATUS → Displayed (· = SECURE_STATUS) u (u.put f n) := fun u f n hf => (Displayed.refl u).put hf
  rw [State.fuseSync_eq]
  exact (((hput s _ _ rfl).trans (hput _ SECURE_STATUS_OWNER_SET _ rfl)).trans (hput _ SECURE_STATUS_OWNER_REQUIRED _ rfl)).trans (hput _ _ _ rfl)

/-- STATUS shows the fields of fuse word 4. -/
theorem State.fuseSync_fields (s : State) : s.fuseSync.get SECURE_STATUS_LIFECYCLE = lifeOf (s.rdN (SECURE_FUSE 4)) ∧
    s.fuseSync.on SECURE_STATUS_OWNER_SET = nbit (s.rdN (SECURE_FUSE 4)) 12 ∧ s.fuseSync.get SECURE_STATUS_VENDOR_REVOKED = nbits (s.rdN (SECURE_FUSE 4)) 11 8 := by
  have hapart : ∀ (u : State) (f g : Fld) (n : Nat), f.lo ≤ f.hi → f.hi < g.lo → g.lo < 64 → (u.put f n).get g = u.get g := fun u f g n hl h hg =>
    State.get_put_apart u f g n hl (by omega) (.inl h)
  rw [State.fuseSync_eq]
  refine ⟨?_, ?_, ?_⟩
  · rw [hapart _ SECURE_STATUS_VENDOR_REVOKED SECURE_STATUS_LIFECYCLE _ (by decide) (by decide) (by decide), State.putB,
      hapart _ SECURE_STATUS_OWNER_REQUIRED SECURE_STATUS_LIFECYCLE _ (by decide) (by decide) (by decide), State.putB,
      hapart _ SECURE_STATUS_OWNER_SET SECURE_STATUS_LIFECYCLE _ (by decide) (by decide) (by decide),
      State.get_put_same _ SECURE_STATUS_LIFECYCLE _ (by decide) (by decide)]
    exact Nat.mod_eq_of_lt (lifeOf_lt _)
  · rw [State.on, hapart _ SECURE_STATUS_VENDOR_REVOKED SECURE_STATUS_OWNER_SET _ (by decide) (by decide) (by decide), State.putB,
      hapart _ SECURE_STATUS_OWNER_REQUIRED SECURE_STATUS_OWNER_SET _ (by decide) (by decide) (by decide), ← State.on]
    exact State.on_putB_same _ SECURE_STATUS_OWNER_SET _ rfl (by decide)
  · rw [State.get_put_same _ SECURE_STATUS_VENDOR_REVOKED _ (by decide) (by decide)]
    exact Nat.mod_mod _ _

theorem State.fuse_displayed (s : State) (w mask : Nat) : Displayed (fun o => o = SECURE_FUSE w ∨ o = SECURE_STATUS) s (s.fuse w mask) :=
  ((Displayed.refl s).wrN (.inl rfl)).trans ((State.fuseSync_status _).mono fun _ => .inr)

theorem fuse_ne_status {w : Nat} (hw : 4 ≤ w) : SECURE_FUSE w ≠ SECURE_STATUS := by
  show 0xc00400 + 0x4 * w ≠ 0xc00004
  omega

theorem State.rdN_fuse_same (s : State) {w mask : Nat} (hw : 4 ≤ w) (hmask : mask < 2 ^ 64) : (s.fuse w mask).rdN (SECURE_FUSE w) = s.rdN (SECURE_FUSE w) ||| mask := by
  have hword : s.rdN (SECURE_FUSE w) < 2 ^ 64 := BitVec.isLt _
  rw [State.fuse, (State.fuseSync_status _).rdN _ (fuse_ne_status hw), State.rdN_wrN_same, Nat.mod_eq_of_lt (Nat.or_lt_two_pow hword hmask)]

theorem State.rdN_fuse_other (s : State) {w v : Nat} (mask : Nat) (hv : 4 ≤ v) (h : v ≠ w) : (s.fuse w mask).rdN (SECURE_FUSE v) = s.rdN (SECURE_FUSE v) := by
  refine (s.fuse_displayed w mask).rdN _ fun k => k.elim (fun k => ?_) (fuse_ne_status hv)
  have hreg : 0xc00400 + 0x4 * v = 0xc00400 + 0x4 * w := k
  omega

/-- STATUS after bits of word 4 have been programmed. -/
theorem State.fuse_four_fields (s : State) {mask : Nat} (hmask : mask < 2 ^ 64) :
    (s.fuse 4 mask).get SECURE_STATUS_LIFECYCLE = lifeOf (s.rdN (SECURE_FUSE 4) ||| mask) ∧
      (s.fuse 4 mask).on SECURE_STATUS_OWNER_SET = nbit (s.rdN (SECURE_FUSE 4) ||| mask) 12 ∧
      (s.fuse 4 mask).get SECURE_STATUS_VENDOR_REVOKED = nbits (s.rdN (SECURE_FUSE 4) ||| mask) 11 8 := by
  have hword : s.rdN (SECURE_FUSE 4) < 2 ^ 64 := BitVec.isLt _
  have hread : (s.wrN (SECURE_FUSE 4) (s.rdN (SECURE_FUSE 4) ||| mask)).rdN (SECURE_FUSE 4) = s.rdN (SECURE_FUSE 4) ||| mask := by
    rw [State.rdN_wrN_same, Nat.mod_eq_of_lt (Nat.or_lt_two_pow hword hmask)]
  have hfields := (s.wrN (SECURE_FUSE 4) (s.rdN (SECURE_FUSE 4) ||| mask)).fuseSync_fields
  rw [hread] at hfields
  exact hfields

/-- Neither the seals' registers nor the round are fuses. -/
theorem fuse_ne_round (w : Nat) : ¬(ROUND_COUNT = SECURE_FUSE w ∨ ROUND_COUNT = SECURE_STATUS) := by
  rintro (h | h)
  · have hreg : 0x10000 = 0xc00400 + 0x4 * w := h
    omega
  · exact absurd h (by decide)

theorem State.fuse_sameSeals (s : State) (w mask : Nat) : SameSeals s (s.fuse w mask) := (s.fuse_displayed w mask).sameSeals (fuse_ne_round w)

/-! ### The owner's digest -/

/-- The digest words of the owner, with the bits that each takes. -/
def ownerWords (val : Nat → Nat) (n : Nat) : List (Nat × Nat) := (List.range n).map fun j => (56 + j, val j)

/-- The registers that programming the owner's digest changes. -/
def OwnerReg (o : Nat) : Prop := (∃ j, j < 12 ∧ o = SECURE_FUSE (56 + j)) ∨ o = SECURE_STATUS

theorem not_ownerReg_fuse {w : Nat} (hw : 4 ≤ w) (h : w < 56 ∨ 68 ≤ w) : ¬OwnerReg (SECURE_FUSE w) := by
  rintro (⟨j, hj, k⟩ | k)
  · have hreg : 0xc00400 + 0x4 * w = 0xc00400 + 0x4 * (56 + j) := k
    omega
  · exact fuse_ne_status hw k

theorem mem_ownerWords {val : Nat → Nat} {n : Nat} {e : Nat × Nat} (he : e ∈ ownerWords val n) : ∃ j, j < n ∧ e = (56 + j, val j) := by
  obtain ⟨j, hj, rfl⟩ := List.mem_map.1 he
  exact ⟨j, List.mem_range.1 hj, rfl⟩

/-- The owner's digest words have been programmed. -/
def State.ownerFused (s : State) (val : Nat → Nat) (n : Nat) : State := s.each (ownerWords val n) fun s e => s.fuse e.1 e.2

theorem State.ownerFused_succ (s : State) (val : Nat → Nat) (n : Nat) : s.ownerFused val (n + 1) = (s.ownerFused val n).fuse (56 + n) (val n) := by
  rw [State.ownerFused, ownerWords, List.range_succ, List.map_append, State.each, List.foldl_append]
  rfl

theorem State.ownerFused_displayed (s : State) (val : Nat → Nat) {n : Nat} (hn : n ≤ 12) : Displayed OwnerReg s (s.ownerFused val n) := by
  refine Displayed.each (fun u e he => ?_) s
  obtain ⟨j, hj, rfl⟩ := mem_ownerWords he
  exact (u.fuse_displayed (56 + j) (val j)).mono fun o ho => ho.imp (fun h => ⟨j, by omega, h⟩) id

theorem State.rdN_ownerFused_later (s : State) (val : Nat → Nat) (n k : Nat) (hk : 56 + n ≤ k) : (s.ownerFused val n).rdN (SECURE_FUSE k) = s.rdN (SECURE_FUSE k) := by
  induction n with
  | zero => rfl
  | succ n ih =>
    rw [State.ownerFused_succ, State.rdN_fuse_other _ _ (by omega) (by omega)]
    exact ih (by omega)

theorem State.rdN_ownerFused (s : State) {val : Nat → Nat} (hval : ∀ j, val j < 2 ^ 64) {n j : Nat} (hj : j < n) :
    (s.ownerFused val n).rdN (SECURE_FUSE (56 + j)) = s.rdN (SECURE_FUSE (56 + j)) ||| val j := by
  induction n with
  | zero => omega
  | succ n ih =>
    rw [State.ownerFused_succ]
    by_cases h : j = n
    · subst h
      rw [State.rdN_fuse_same _ (by omega) (hval j), s.rdN_ownerFused_later val j (56 + j) (Nat.le_refl _)]
    · rw [State.rdN_fuse_other _ _ (by omega) (by omega)]
      exact ih (by omega)

/-! ### Fuses that do not read back -/

/-- Some of the registers `W` and the ERROR block may have changed, and nothing that the root or the fabric holds. -/
structure Tried (W : Nat → Prop) (s t : State) : Prop where
  stays : RootStays s t
  mem : t.mem = s.mem
  regs : RegsBut (fun o => W o ∨ errReg o) s t

theorem Tried.each {α : Type} {W : Nat → Prop} {f : State → α → State} {l : List α} (hf : ∀ u, ∀ x ∈ l, Tried W u (f u x)) (s : State) : Tried W s (s.each l f) := by
  induction l generalizing s with
  | nil => exact ⟨.refl s, rfl, .refl s⟩
  | cons x l ih =>
    obtain ⟨hstays, hmem, hregs⟩ := hf s x List.mem_cons_self
    obtain ⟨kstays, kmem, kregs⟩ := ih (fun u y hy => hf u y (List.mem_cons_of_mem _ hy)) (f s x)
    rw [State.each_cons]
    exact ⟨hstays.trans kstays, kmem.trans hmem, hregs.trans kregs⟩

/-- A change of registers, after which a free value has been used. -/
theorem Tried.useFree {W : Nat → Prop} {s t : State} (h : Displayed (fun o => W o ∨ errReg o) s t) : Tried W s t.useFree :=
  ⟨(RootStays.refl s).same h.trust h.fab, h.mem, h.toRegsBut.trans (.of_regs rfl rfl)⟩

theorem errClass_fuseFail : errClass Code.SEC_FUSE_FAIL = some .degraded := by decide

/-- The state in which fuses have failed. -/
def State.fusesFailed (s : State) (l : List (Nat × Nat)) : State :=
  (s.each l fun s e => (s.fuse e.1 (e.2 &&& s.free)).useFree).report { code := Code.SEC_FUSE_FAIL }

theorem State.fuseFail_eq (s : State) (l : List (Nat × Nat)) : s.fuseFail l = mbStatus (s.fusesFailed l) 11 := rfl

theorem State.fusesFailed_tried {W : Nat → Prop} (s : State) {l : List (Nat × Nat)} (hW : ∀ e ∈ l, ∀ o, (o = SECURE_FUSE e.1 ∨ o = SECURE_STATUS) → W o) :
    Tried W s (s.fusesFailed l) := by
  have htried : Tried W s (s.each l fun s e => (s.fuse e.1 (e.2 &&& s.free)).useFree) := by
    refine Tried.each (fun u e he => ?_) s
    have hfuse := (u.fuse_displayed e.1 (e.2 &&& u.free)).mono (V := fun o => W o ∨ errReg o) fun o ho => .inl (hW e he o ho)
    exact .useFree hfuse
  obtain ⟨hstays, hmem, hregs⟩ := htried
  exact ⟨hstays.report, (State.report_mem _ _).trans hmem, hregs.report fun _ => .inr⟩

theorem State.fusesFailed_degraded (s : State) (l : List (Nat × Nat)) : (s.fusesFailed l).on ERROR_STATUS_DEGRADED = true :=
  State.on_report_degraded _ _ errClass_fuseFail

/-! ### What each image message comes to -/

section images
variable {s : State} {m : MbMsg}

/-- FABRIC_APPROVE, with the header and body of its image. -/
def State.approveAnswer (s : State) (g : Nat) (h b : Bytes) : MbAns :=
  if b.length != 8 + 48 * fieldLE b 1 1 || 64 < fieldLE b 1 1 || !zeroAt b 2 6 || fieldLE b 0 1 != g then mbStatus s 3
  else mbStatus ((s.setFab fun z => { z with approved := SMap.set (fun _ => []) s.fab.approved g (rowsOf (b.drop 8) 48) }).extendSeal 5 (imgDigest h) 5) 0

theorem execFabricApprove_eq (hzero : m.zero 9 7 = true) {g : Fin 8} (hg : m.f 8 1 = g.val) :
    ∃ f, exec .fabricApprove s = .next (s.mbRun 0 0x22 24 f) ∧ f m = s.mbImage m (m.f 0x10 8) 5 3080 (s.approveAnswer g) := by
  refine ⟨_, rfl, ?_⟩
  dsimp only
  rw [if_neg (by simp [hzero]; omega), hg]
  rfl

/-- The digest words of an owner's key. -/
def ownerVal (h : Bytes) (j : Nat) : Nat := fieldLE (sha384 ((h.drop 0x100).take 0x800)) (4 * j) 4

/-- The bits of word 4 that OWNER_ENROLL programs. -/
def ownerMask (b : Bytes) : Nat := 2 ^ 12 + fieldLE b 0 1 % 2 * 2 ^ 13 + 2

/-- The owner is enrolled. -/
def State.enrolled (s : State) (h b : Bytes) : State := (s.ownerFused (ownerVal h) 12).fuse 4 (ownerMask b)

def State.enrollAnswer (s : State) (readOk : Bool) (h b : Bytes) : MbAns :=
  if b.length != 1 then mbStatus s 3 else if !readOk then s.fuseFail (ownerWords (ownerVal h) 12) else mbStatus ((s.enrolled h b).extendSeal 6 (imgDigest h) 6) 0

theorem execOwnerEnroll_eq (readOk : Bool) (hlife : s.rdN (SECURE_FUSE 4) % 16 = 1) (hblank : ∀ j, j < 12 → s.rdN (SECURE_FUSE (56 + j)) = 0) :
    ∃ f, exec (.ownerEnroll readOk) s = .next (s.mbRun 0 0x30 16 f) ∧ f m = s.mbImage m (m.f 8 8) 6 1 (s.enrollAnswer readOk) := by
  refine ⟨_, rfl, ?_⟩
  have hall : (List.range 12).all (fun j => s.rdN (SECURE_FUSE (56 + j)) == 0) = true :=
    List.all_eq_true.2 fun j hj => beq_iff_eq.2 (hblank j (List.mem_range.1 hj))
  dsimp only
  rw [if_neg (by simp only [hlife, hall]; decide)]
  rfl

/-- A key may be revoked: it is not the one that signed, and another is left. -/
def State.mayRevoke (s : State) (v : Nat) (h : Bytes) : Bool :=
  !(v == fieldLE h 6 1 || (List.range 4).all fun i => i == v || nbit (s.rdN (SECURE_FUSE 4)) (8 + i))

theorem State.mayRevoke_iff (s : State) (v : Nat) (h : Bytes) :
    s.mayRevoke v h = true ↔ v ≠ fieldLE h 6 1 ∧ ((List.range 4).any fun i => i != v && !nbit (s.rdN (SECURE_FUSE 4)) (8 + i)) = true := by
  have hany : ((List.range 4).any fun i => i != v && !nbit (s.rdN (SECURE_FUSE 4)) (8 + i)) =
      !(List.range 4).all fun i => i == v || nbit (s.rdN (SECURE_FUSE 4)) (8 + i) := by
    rw [List.not_all_eq_any_not]
    simp only [Bool.not_or, bne]
  rw [hany, State.mayRevoke, Bool.not_or, Bool.and_eq_true, Bool.not_eq_true', beq_eq_false_iff_ne]

def State.revokeAnswer (s : State) (readOk : Bool) (h b : Bytes) : MbAns :=
  if b.length != 1 || 3 < fieldLE b 0 1 then mbStatus s 3 else if !s.mayRevoke (fieldLE b 0 1) h then mbStatus s 9
  else if !readOk then s.fuseFail [] else mbStatus ((s.fuse 4 (2 ^ (8 + fieldLE b 0 1))).extendSeal 6 (imgDigest h) 7) 0

theorem execRevokeVendorKey_eq (readOk : Bool) :
    ∃ f, exec (.revokeVendorKey readOk) s = .next (s.mbRun 0 0x31 16 f) ∧ f m = s.mbImage m (m.f 8 8) 7 1 (s.revokeAnswer readOk) := by
  refine ⟨_, rfl, ?_⟩
  refine congrArg (s.mbImage m (m.f 8 8) 7 1) (funext fun h => funext fun b => ?_)
  unfold State.revokeAnswer State.mayRevoke
  rw [Bool.not_not]

/-- Debug access is open. -/
def State.unlocked (s : State) (v : Nat) : State :=
  (s.setTrust fun t => { t with debug := t.debug ||| v % 4 }).putB SECURE_STATUS_DEBUG_UNLOCKED ((s.trust.debug ||| v % 4) != 0)

def State.unlockAnswer (s : State) (h b : Bytes) : MbAns :=
  if b.length != 1 then mbStatus s 3
  else if nbit (fieldLE b 0 1) 1 && s.rdN (SECURE_FUSE 4) % 16 != 7 then mbStatus s 9
  else mbStatus ((s.unlocked (fieldLE b 0 1)).extendSeal 6 (imgDigest h) 8) 0

theorem execDebugUnlock_eq : ∃ f, exec .debugUnlock s = .next (s.mbRun 0 0x32 16 f) ∧ f m = s.mbImage m (m.f 8 8) 8 1 s.unlockAnswer := ⟨_, rfl, rfl⟩

/-- The key store is erased. -/
def State.erasedKeys (s : State) : State :=
  ((s.setTrust fun t => { t with keys := [], certGone := true }).wrN SECURE_KEY_STATE 0).setFab fun f => { f with approved := [] }

def State.returnAnswer (s : State) (readOk : Bool) (h _b : Bytes) : MbAns :=
  if !readOk then s.erasedKeys.fuseFail [(4, 7)] else mbStatus ((s.erasedKeys.fuse 4 7).extendSeal 6 (imgDigest h) 9) 0

theorem execLifecycleReturn_eq (readOk : Bool) :
    ∃ f, exec (.lifecycleReturn readOk) s = .next (s.mbRun 0 0x33 16 f) ∧ f m = s.mbImage m (m.f 8 8) 9 (2 ^ 32) (s.returnAnswer readOk) := ⟨_, rfl, rfl⟩

theorem State.erasedKeys_spec (s : State) : s.erasedKeys.trust.keys = [] ∧ s.erasedKeys.rdN SECURE_KEY_STATE = 0 ∧ s.erasedKeys.fab.approved = [] ∧
    s.erasedKeys.rdN (SECURE_FUSE 4) = s.rdN (SECURE_FUSE 4) ∧ SameSeals s s.erasedKeys ∧ s.erasedKeys.mem = s.mem := by
  have hwrite : Displayed (· = SECURE_KEY_STATE) (s.setTrust fun t => { t with keys := [], certGone := true })
      ((s.setTrust fun t => { t with keys := [], certGone := true }).wrN SECURE_KEY_STATE 0) := (Displayed.refl _).wrN rfl
  have hseals := hwrite.sameSeals (by decide)
  have hfab : ∀ (u : State) (f : FabSt → FabSt) (o : Nat), (u.setFab f).rdN o = u.rdN o := fun _ _ _ => rfl
  refine ⟨congrArg TrustSt.keys hwrite.trust, ?_, rfl, ?_, ⟨hseals.seals, hseals.log, hseals.round⟩, hwrite.mem⟩
  · rw [State.erasedKeys, hfab, State.rdN_wrN_same]
    rfl
  · rw [State.erasedKeys, hfab]
    exact hwrite.rdN _ (by decide)

theorem State.unlocked_spec (s : State) (v : Nat) : (s.unlocked v).trust.debug = s.trust.debug ||| v % 4 ∧
    (s.unlocked v).on SECURE_STATUS_DEBUG_UNLOCKED = ((s.trust.debug ||| v % 4) != 0) ∧ SameSeals s (s.unlocked v) ∧ (s.unlocked v).mem = s.mem := by
  have hput : Displayed (· = SECURE_STATUS) (s.setTrust fun t => { t with debug := t.debug ||| v % 4 }) (s.unlocked v) := (Displayed.refl _).putB rfl
  have hseals := hput.sameSeals (by decide)
  exact ⟨congrArg TrustSt.debug hput.trust, State.on_putB_same _ SECURE_STATUS_DEBUG_UNLOCKED _ rfl (by decide), ⟨hseals.seals, hseals.log, hseals.round⟩, hput.mem⟩

end images

/-! ### Bits of fuse word 4 -/

theorem ownerMask_lt (b : Bytes) : ownerMask b < 2 ^ 64 := by
  have hbit : fieldLE b 0 1 % 2 < 2 := Nat.mod_lt _ (by decide)
  unfold ownerMask
  omega

theorem lifeOf_enrolled {w : Nat} (hw : w % 16 = 1) (b : Bytes) : lifeOf (w ||| ownerMask b) = 2 := by
  have hmask : ownerMask b % 16 = 2 := by
    unfold ownerMask
    omega
  have hword : (w ||| ownerMask b) % 16 = 3 := by
    rw [show 16 = 2 ^ 4 from rfl, Nat.or_mod_two_pow, show 2 ^ 4 = 16 from rfl, hw, hmask]
    rfl
  rw [lifeOf, hword]
  rfl

theorem ownerSet_enrolled (w : Nat) (b : Bytes) : nbit (w ||| ownerMask b) 12 = true := by
  have hbit : (ownerMask b).testBit 12 = true := by
    have hx : fieldLE b 0 1 % 2 = 0 ∨ fieldLE b 0 1 % 2 = 1 := Nat.mod_two_eq_zero_or_one _
    unfold ownerMask
    rcases hx with h | h <;> rw [h] <;> decide
  rw [nbit_eq_testBit, Nat.testBit_or, hbit, Bool.or_true]

theorem vendorRevoked_revoked (w : Nat) {v : Nat} (hv : v ≤ 3) : nbit (nbits (w ||| 2 ^ (8 + v)) 11 8) v = true := by
  rw [nbit_eq_testBit, nbits, Nat.testBit_mod_two_pow, Nat.testBit_div_two_pow, Nat.testBit_or, Nat.add_comm v 8, Nat.testBit_two_pow_self, Bool.or_true, Bool.and_true]
  exact decide_eq_true (by omega)

theorem returned_life {w : Nat} (hw : w % 16 < 8) : (w ||| 7) % 16 = 7 := by
  have hor : ∀ x, x < 8 → x ||| 7 = 7 := by decide
  rw [show 16 = 2 ^ 4 from rfl, Nat.or_mod_two_pow]
  exact hor _ hw

end Sys2Proof.Machine
end

section
/-! SUPPORT. Guard, key, approval and fuse messages as a whole (Trust R551 to R554). -/

namespace Sys2Proof.Machine
open Reg

theorem not_addrReg_fuse (w : Nat) (hw : w < 128) : ¬AddrReg (SECURE_FUSE w) := by
  unfold AddrReg errReg SECURE_FUSE SECURE_SEC_NOTIFY MEMCTL_UNPOP_LAST
  omega

theorem not_mbReg_fuse {w : Nat} (hw : w < 128) : ¬MbReg (SECURE_FUSE w) := by
  unfold MbReg SECURE_FUSE
  omega

theorem not_mbReg_status : ¬MbReg SECURE_STATUS := not_mbReg_guard (by decide)

theorem not_mbReg_error : ¬MbReg ERROR_STATUS := fun h => absurd h.2 (by decide)

section image
variable {s : State} {m : MbMsg} {op len a type limit : Nat} {f : MbMsg → MbAns} {g : Bytes → Bytes → MbAns} {h : Bytes} (hheld : Safety.Held 0 m op len s)
  (hf : f m = s.mbImage m a type limit g) (hread : s.fnRead m.fn a 0x1800 = .ok h)
include hheld hf hread

/-- A message whose image fails is answered with the status of the failed check, and nothing but the report of an address changes. -/
theorem State.mbRun_image_error {e : Nat × Option AccErr} (hv : s.imgVerify type limit h (s.fnRead m.fn (a + 0x1800)) = .error e) :
    ∃ u, AddrNoted s u ∧ Replied 0 m e.1 0 [] u (s.mbRun 0 op len f) := by
  obtain ⟨hlt, u, hu, hans⟩ := State.mbImage_error g hread hv
  exact ⟨u, hu, State.mbRun_status hheld (hf.trans hans) hlt⟩

/-- A message whose image passes, and that comes to a status. -/
theorem State.mbRun_image_status {b : Bytes} (hv : s.imgVerify type limit h (s.fnRead m.fn (a + 0x1800)) = .ok b) {u : State} {status : Nat}
    (hg : g h b = mbStatus u status) (hstatus : status < 65536) : Replied 0 m status 0 [] u (s.mbRun 0 op len f) :=
  State.mbRun_status hheld (hf.trans ((State.mbImage_ok g hread hv).trans hg)) hstatus

/-- A message whose image passes, and that ends with an event. -/
theorem State.mbRun_image_finished {b : Bytes} (hv : s.imgVerify type limit h (s.fnRead m.fn (a + 0x1800)) = .ok b) {w : State} {i : Nat} {d : Bytes} {source : Nat}
    (hg : g h b = mbStatus (w.extendSeal i d source) 0) (hsame : SameSeals s w) (hseals : s.trust.seals.length = 8) (hlog : s.trust.log.length < 1024) (hi : i < 8) :
    Finished m i d source s w (s.mbRun 0 op len f) :=
  State.mbRun_finished hheld (hf.trans ((State.mbImage_ok g hread hv).trans hg)) hsame hseals hlog hi

end image

/-! ### The image messages that program fuses -/

section fuses
variable {s : State} {m : MbMsg} {h : Bytes} (hseals : s.trust.seals.length = 8) (hlog : s.trust.log.length < 1024) (hread : s.fnRead m.fn (m.f 8 8) 0x1800 = .ok h)

theorem Replied.fuse {status result : Nat} {body : Bytes} {u t : State} (hreply : Replied 0 m status result body u t) {w : Nat} (hw : w < 128) :
    t.rdN (SECURE_FUSE w) = u.rdN (SECURE_FUSE w) := hreply.rdN (not_mbReg_fuse hw)

theorem AddrNoted.fuse {u : State} (hu : AddrNoted s u) {w : Nat} (hw : w < 128) : u.rdN (SECURE_FUSE w) = s.rdN (SECURE_FUSE w) := hu.regs.rdN _ (not_addrReg_fuse w hw)

/-- The digest and the fields of word 4 of an owner that is enrolled. -/
theorem State.enrolled_spec (hlife : s.rdN (SECURE_FUSE 4) % 16 = 1) (hblank : ∀ j, j < 12 → s.rdN (SECURE_FUSE (56 + j)) = 0) (b : Bytes) :
    (∀ j, j < 12 → (s.enrolled h b).rdN (SECURE_FUSE (56 + j)) = ownerVal h j) ∧ (s.enrolled h b).on SECURE_STATUS_OWNER_SET = true ∧
      (s.enrolled h b).get SECURE_STATUS_LIFECYCLE = 2 ∧ (s.enrolled h b).rdN (SECURE_FUSE 4) = s.rdN (SECURE_FUSE 4) ||| ownerMask b ∧
      SameSeals s (s.enrolled h b) ∧ (s.enrolled h b).mem = s.mem := by
  have hdigest := s.ownerFused_displayed (ownerVal h) (Nat.le_refl 12)
  have hfour : (s.ownerFused (ownerVal h) 12).rdN (SECURE_FUSE 4) = s.rdN (SECURE_FUSE 4) := hdigest.rdN _ (not_ownerReg_fuse (by decide) (.inl (by decide)))
  have hround : ¬OwnerReg ROUND_COUNT := by
    rintro (⟨j, hj, k⟩ | k)
    · exact fuse_ne_round (56 + j) (.inl k)
    · exact fuse_ne_round 4 (.inr k)
  obtain ⟨hlife', howner, -⟩ := (s.ownerFused (ownerVal h) 12).fuse_four_fields (ownerMask_lt b)
  rw [hfour] at hlife' howner
  have hsame := hdigest.sameSeals hround
  have hsame' := (s.ownerFused (ownerVal h) 12).fuse_sameSeals 4 (ownerMask b)
  refine ⟨fun j hj => ?_, howner.trans (ownerSet_enrolled _ b), hlife'.trans (lifeOf_enrolled hlife b), ?_,
    ⟨hsame'.seals.trans hsame.seals, hsame'.log.trans hsame.log, hsame'.round.trans hsame.round⟩, (State.fuse_displayed _ _ _).mem.trans hdigest.mem⟩
  · rw [State.enrolled, State.rdN_fuse_other _ _ (by omega) (by omega), State.rdN_ownerFused s (val := ownerVal h) (fun j => fieldLE4_lt _ _) hj, hblank j hj, Nat.zero_or]
  · rw [State.enrolled, State.rdN_fuse_same _ (by decide) (ownerMask_lt b), hfour]

theorem State.enrollFailed_tried (s : State) (h : Bytes) : Tried OwnerReg s (s.fusesFailed (ownerWords (ownerVal h) 12)) :=
  s.fusesFailed_tried fun e he o ho => by
    obtain ⟨j, hj, rfl⟩ := mem_ownerWords he
    exact ho.imp (fun h => ⟨j, hj, h⟩) id

theorem not_owner_or_err : ¬(OwnerReg (SECURE_FUSE 4) ∨ errReg (SECURE_FUSE 4)) := by
  rintro (k | k)
  · exact not_ownerReg_fuse (by decide) (.inl (by decide)) k
  · exact not_addrReg_fuse 4 (by decide) (.inl k)

include hseals hlog hread

theorem execOwnerEnroll_spec (readOk : Bool) (hheld : Safety.Held 0 m 0x30 16 s) (hlife : s.rdN (SECURE_FUSE 4) % 16 = 1)
    (hblank : ∀ j, j < 12 → s.rdN (SECURE_FUSE (56 + j)) = 0) : ∃ t, exec (.ownerEnroll readOk) s = .next t ∧ t.mem = s.mem ∧
      match s.imgVerify 6 1 h (s.fnRead m.fn (m.f 8 8 + 0x1800)) with
      | .ok b => b.length = 1 → if readOk = true then
          Safety.Answered 0 m 0 0 [] t ∧ (∀ j, j < 12 → t.rdN (SECURE_FUSE (56 + j)) = ownerVal h j) ∧
          t.on SECURE_STATUS_OWNER_SET = true ∧ t.get SECURE_STATUS_LIFECYCLE = 2 ∧ t.rdN (SECURE_FUSE 4) = s.rdN (SECURE_FUSE 4) ||| ownerMask b ∧
          Safety.Sealed 6 (imgDigest h) 6 s t
        else Safety.Answered 0 m 11 0 [] t ∧ t.rdN (SECURE_FUSE 4) = s.rdN (SECURE_FUSE 4) ∧ t.on ERROR_STATUS_DEGRADED = true ∧ Safety.Unsealed s t
      | .error e => Safety.Answered 0 m e.1 0 [] t ∧ t.rdN (SECURE_FUSE 4) = s.rdN (SECURE_FUSE 4) := by
  obtain ⟨f, hexec, hf⟩ := execOwnerEnroll_eq (m := m) readOk hlife hblank
  refine ⟨_, hexec, ?_⟩
  cases hv : s.imgVerify 6 1 h (s.fnRead m.fn (m.f 8 8 + 0x1800)) with
  | error e =>
    obtain ⟨u, hu, hreply⟩ := State.mbRun_image_error hheld hf hread hv
    exact ⟨hreply.mem.trans hu.mem, hreply.answered, (hreply.fuse (by decide)).trans (hu.fuse (by decide))⟩
  | ok b =>
    by_cases hlen : b.length = 1
    · have hbody : ¬(b.length != 1) = true := by simp [hlen]
      cases readOk with
      | true =>
        obtain ⟨hwords, howner, hreturned, hfour, hsame, hmem⟩ := State.enrolled_spec (h := h) hlife hblank b
        have hdone := State.mbRun_image_finished hheld hf hread hv ((if_neg hbody).trans (if_neg (by decide))) hsame hseals hlog (by decide)
        refine ⟨hdone.mem.trans hmem, fun _ => ?_⟩
        rw [if_pos rfl]
        exact ⟨hdone.answered, fun j hj => (hdone.regs.rdN _ (not_mbReg_fuse (by omega))).trans (hwords j hj), (hdone.regs.on _ not_mbReg_status).trans howner,
          (hdone.regs.get _ not_mbReg_status).trans hreturned, (hdone.regs.rdN _ (not_mbReg_fuse (by decide))).trans hfour, hdone.sealed⟩
      | false =>
        have hreply := State.mbRun_image_status hheld hf hread hv ((if_neg hbody).trans (if_pos rfl)) (by decide)
        obtain ⟨hstays, hmem, hregs⟩ := s.enrollFailed_tried h
        refine ⟨hreply.mem.trans hmem, fun _ => ?_⟩
        rw [if_neg Bool.false_ne_true]
        exact ⟨hreply.answered, (hreply.fuse (by decide)).trans (hregs.rdN _ not_owner_or_err), (hreply.on not_mbReg_error).trans (s.fusesFailed_degraded _),
          hreply.unsealed_of hstays.trust⟩
    · have hreply := State.mbRun_image_status hheld hf hread hv (if_pos (by simpa using hlen)) (by decide)
      exact ⟨hreply.mem, fun h => absurd h hlen⟩

theorem execRevokeVendorKey_spec (readOk : Bool) (hheld : Safety.Held 0 m 0x31 16 s) : ∃ t, exec (.revokeVendorKey readOk) s = .next t ∧ t.mem = s.mem ∧
      match s.imgVerify 7 1 h (s.fnRead m.fn (m.f 8 8 + 0x1800)) with
      | .ok b => b.length = 1 → fieldLE b 0 1 ≤ 3 →
        if fieldLE b 0 1 ≠ fieldLE h 6 1 ∧ ((List.range 4).any fun i => i != fieldLE b 0 1 && !nbit (s.rdN (SECURE_FUSE 4)) (8 + i)) = true then
          (readOk = true → Safety.Answered 0 m 0 0 [] t ∧ t.rdN (SECURE_FUSE 4) = s.rdN (SECURE_FUSE 4) ||| 2 ^ (8 + fieldLE b 0 1) ∧
            nbit (t.get SECURE_STATUS_VENDOR_REVOKED) (fieldLE b 0 1) = true ∧ Safety.Sealed 6 (imgDigest h) 7 s t)
        else Safety.Answered 0 m 9 0 [] t ∧ t.rdN (SECURE_FUSE 4) = s.rdN (SECURE_FUSE 4)
      | .error e => Safety.Answered 0 m e.1 0 [] t ∧ t.rdN (SECURE_FUSE 4) = s.rdN (SECURE_FUSE 4) := by
  obtain ⟨f, hexec, hf⟩ := execRevokeVendorKey_eq (s := s) (m := m) readOk
  refine ⟨_, hexec, ?_⟩
  cases hv : s.imgVerify 7 1 h (s.fnRead m.fn (m.f 8 8 + 0x1800)) with
  | error e =>
    obtain ⟨u, hu, hreply⟩ := State.mbRun_image_error hheld hf hread hv
    exact ⟨hreply.mem.trans hu.mem, hreply.answered, (hreply.fuse (by decide)).trans (hu.fuse (by decide))⟩
  | ok b =>
    by_cases hbody : b.length = 1 ∧ fieldLE b 0 1 ≤ 3
    · have hgood : ¬(b.length != 1 || decide (3 < fieldLE b 0 1)) = true := by simp [hbody]
      by_cases hmay : s.mayRevoke (fieldLE b 0 1) h = true
      · have hmask : 2 ^ (8 + fieldLE b 0 1) < 2 ^ 64 := Nat.pow_lt_pow_right (by decide) (by omega)
        cases readOk with
        | true =>
          have hdone := State.mbRun_image_finished hheld hf hread hv ((if_neg hgood).trans ((if_neg (by simp [hmay])).trans (if_neg (by decide))))
            (s.fuse_sameSeals 4 _) hseals hlog (by decide)
          obtain ⟨-, -, hrevoked⟩ := s.fuse_four_fields hmask
          refine ⟨hdone.mem.trans (s.fuse_displayed _ _).mem, fun _ _ => ?_⟩
          rw [if_pos ((s.mayRevoke_iff _ _).1 hmay)]
          refine fun _ => ⟨hdone.answered, (hdone.regs.rdN _ (not_mbReg_fuse (by decide))).trans (s.rdN_fuse_same (by decide) hmask), ?_, hdone.sealed⟩
          rw [hdone.regs.get _ not_mbReg_status, hrevoked]
          exact vendorRevoked_revoked _ hbody.2
        | false =>
          have hreply := State.mbRun_image_status hheld hf hread hv ((if_neg hgood).trans ((if_neg (by simp [hmay])).trans (if_pos rfl))) (by decide)
          refine ⟨hreply.mem.trans (State.report_mem _ _), fun _ _ => ?_⟩
          rw [if_pos ((s.mayRevoke_iff _ _).1 hmay)]
          exact fun h => absurd h Bool.false_ne_true
      · have hreply := State.mbRun_image_status hheld hf hread hv ((if_neg hgood).trans (if_pos (by simpa using hmay))) (by decide)
        refine ⟨hreply.mem, fun _ _ => ?_⟩
        rw [if_neg fun h => hmay ((s.mayRevoke_iff _ _).2 h)]
        exact ⟨hreply.answered, hreply.fuse (by decide)⟩
    · have hreply := State.mbRun_image_status hheld hf hread hv (if_pos (by simp only [Bool.or_eq_true, bne_iff_ne, decide_eq_true_eq]; omega)) (by decide)
      exact ⟨hreply.mem, fun hlen hle => absurd ⟨hlen, hle⟩ hbody⟩

theorem execDebugUnlock_spec (hheld : Safety.Held 0 m 0x32 16 s) : ∃ t, exec .debugUnlock s = .next t ∧ t.mem = s.mem ∧
      match s.imgVerify 8 1 h (s.fnRead m.fn (m.f 8 8 + 0x1800)) with
      | .ok b => b.length = 1 → if nbit (fieldLE b 0 1) 1 = true ∧ s.rdN (SECURE_FUSE 4) % 16 ≠ 7 then Safety.Answered 0 m 9 0 [] t ∧ t.trust.debug = s.trust.debug
        else Safety.Answered 0 m 0 0 [] t ∧ t.trust.debug = s.trust.debug ||| fieldLE b 0 1 % 4 ∧ t.on SECURE_STATUS_DEBUG_UNLOCKED = (t.trust.debug != 0) ∧
          Safety.Sealed 6 (imgDigest h) 8 s t
      | .error e => Safety.Answered 0 m e.1 0 [] t ∧ t.trust.debug = s.trust.debug := by
  obtain ⟨f, hexec, hf⟩ := execDebugUnlock_eq (s := s) (m := m)
  refine ⟨_, hexec, ?_⟩
  cases hv : s.imgVerify 8 1 h (s.fnRead m.fn (m.f 8 8 + 0x1800)) with
  | error e =>
    obtain ⟨u, hu, hreply⟩ := State.mbRun_image_error hheld hf hread hv
    exact ⟨hreply.mem.trans hu.mem, hreply.answered, (Replied.debug hreply).trans (congrArg TrustSt.debug hu.stays.trust)⟩
  | ok b =>
    by_cases hlen : b.length = 1
    · have hbody : ¬(b.length != 1) = true := by simp [hlen]
      by_cases hcore : nbit (fieldLE b 0 1) 1 = true ∧ s.rdN (SECURE_FUSE 4) % 16 ≠ 7
      · have hreply := State.mbRun_image_status hheld hf hread hv ((if_neg hbody).trans (if_pos (by simpa using hcore))) (by decide)
        refine ⟨hreply.mem, fun _ => ?_⟩
        rw [if_pos hcore]
        exact ⟨hreply.answered, hreply.debug⟩
      · obtain ⟨hdebug, hstatus, hsame, hmem⟩ := s.unlocked_spec (fieldLE b 0 1)
        have hdone := State.mbRun_image_finished hheld hf hread hv ((if_neg hbody).trans (if_neg (by simpa using hcore))) hsame hseals hlog (by decide)
        refine ⟨hdone.mem.trans hmem, fun _ => ?_⟩
        rw [if_neg hcore, hdone.debug, hdebug]
        exact ⟨hdone.answered, rfl, (hdone.regs.on _ not_mbReg_status).trans hstatus, hdone.sealed⟩
    · have hreply := State.mbRun_image_status hheld hf hread hv (if_pos (by simpa using hlen)) (by decide)
      exact ⟨hreply.mem, fun h => absurd h hlen⟩

theorem execLifecycleReturn_spec (readOk : Bool) (hheld : Safety.Held 0 m 0x33 16 s) (hlife : s.rdN (SECURE_FUSE 4) % 16 < 8) :
    ∃ t, exec (.lifecycleReturn readOk) s = .next t ∧ t.mem = s.mem ∧
      match s.imgVerify 9 (2 ^ 32) h (s.fnRead m.fn (m.f 8 8 + 0x1800)) with
      | .ok _ => t.trust.keys = [] ∧ t.rdN SECURE_KEY_STATE = 0 ∧ t.fab.approved = [] ∧ (readOk = true → Safety.Answered 0 m 0 0 [] t ∧ t.rdN (SECURE_FUSE 4) % 16 = 7 ∧
          t.get SECURE_STATUS_LIFECYCLE = 3 ∧ Safety.Sealed 6 (imgDigest h) 9 s t)
      | .error e => Safety.Answered 0 m e.1 0 [] t ∧ t.trust.keys = s.trust.keys := by
  obtain ⟨f, hexec, hf⟩ := execLifecycleReturn_eq (s := s) (m := m) readOk
  obtain ⟨hkeys, hstate, happroved, hfour, hsame, hmem⟩ := s.erasedKeys_spec
  have hkeyState : ¬MbReg SECURE_KEY_STATE := not_mbReg_guard (by decide)
  refine ⟨_, hexec, ?_⟩
  cases hv : s.imgVerify 9 (2 ^ 32) h (s.fnRead m.fn (m.f 8 8 + 0x1800)) with
  | error e =>
    obtain ⟨u, hu, hreply⟩ := State.mbRun_image_error hheld hf hread hv
    exact ⟨hreply.mem.trans hu.mem, hreply.answered, hreply.keys.trans (congrArg TrustSt.keys hu.stays.trust)⟩
  | ok b =>
    cases readOk with
    | true =>
      have hfused := s.erasedKeys.fuse_displayed 4 7
      have hsame' := s.erasedKeys.fuse_sameSeals 4 7
      have hdone := State.mbRun_image_finished hheld hf hread hv (if_neg (by decide))
        ⟨hsame'.seals.trans hsame.seals, hsame'.log.trans hsame.log, hsame'.round.trans hsame.round⟩ hseals hlog (by decide)
      obtain ⟨hreturned, -, -⟩ := s.erasedKeys.fuse_four_fields (mask := 7) (by decide)
      rw [hfour] at hreturned
      refine ⟨hdone.mem.trans (hfused.mem.trans hmem), hdone.keys.trans ((congrArg TrustSt.keys hfused.trust).trans hkeys),
        (hdone.regs.rdN _ hkeyState).trans ((hfused.rdN _ (by decide)).trans hstate), (congrArg FabSt.approved (hdone.fab.trans hfused.fab)).trans happroved,
        fun _ => ⟨hdone.answered, ?_, ?_, hdone.sealed⟩⟩
      · rw [hdone.regs.rdN _ (not_mbReg_fuse (by decide)), State.rdN_fuse_same _ (by decide) (by decide), hfour]
        exact returned_life hlife
      · rw [hdone.regs.get _ not_mbReg_status, hreturned, lifeOf, returned_life hlife]
        rfl
    | false =>
      have hreply := State.mbRun_image_status hheld hf hread hv (if_pos rfl) (by decide)
      obtain ⟨hstays, htried, hregs⟩ := s.erasedKeys.fusesFailed_tried (W := fun o => o = SECURE_FUSE 4 ∨ o = SECURE_STATUS) (l := [(4, 7)])
        fun e he o ho => by rw [List.mem_singleton.1 he] at ho; exact ho
      have hkey : ¬((SECURE_KEY_STATE = SECURE_FUSE 4 ∨ SECURE_KEY_STATE = SECURE_STATUS) ∨ errReg SECURE_KEY_STATE) := by
        unfold errReg
        decide
      exact ⟨hreply.mem.trans (htried.trans hmem), hreply.keys.trans ((congrArg TrustSt.keys hstays.trust).trans hkeys),
        (hreply.rdN hkeyState).trans ((hregs.rdN _ hkey).trans hstate), (congrArg FabSt.approved (hreply.fab.trans hstays.fab)).trans happroved,
        fun h => absurd h Bool.false_ne_true⟩

end fuses

/-- Settles O53: each message either comes to a status from the state as it was, or writes its registers or record and extends its seal. -/
theorem guardKeysApprovalsAndFusesObeyTheRoot : Obligations.GuardKeysApprovalsAndFusesObeyTheRoot := by
  intro s m hseals hlog
  refine ⟨?guardWrite, ?guardSwitch, ?guardArm, ?keys, ?approve, ?fuses⟩
  case guardWrite =>
    intro hheld hzero hperiod p b hp hb raws hraws
    obtain ⟨f, hexec, hf⟩ := execGuardWrite_eq (s := s) hzero hperiod hp hb hraws
    have hwin : ∀ c w, c < 2 → w < 16 → ¬MbReg (CPORT_GUARD_WIN p c w) := fun c w hc hw => not_mbReg_guard (by unfold CPORT_GUARD_WIN; omega)
    refine ⟨_, hexec, ?_⟩
    have hiff : (b.val == s.guardBank p || s.on (CPORT_GUARD_CTRL_SWITCH_PENDING p)) = true ↔ s.guardBank p = b.val ∨ s.on (CPORT_GUARD_CTRL_SWITCH_PENDING p) = true := by
      rw [Bool.or_eq_true, beq_iff_eq, eq_comm]
    by_cases hbusy : s.guardBank p = b.val ∨ s.on (CPORT_GUARD_CTRL_SWITCH_PENDING p) = true
    · have hreply := State.mbRun_status hheld (hf.trans (if_pos (hiff.2 hbusy))) (by decide)
      exact ⟨hreply.mem, fun w hw => hreply.rd (hwin _ w (by omega) hw), fun _ => ⟨hreply.answered, hreply.unsealed, fun w hw => hreply.rd (hwin b w b.isLt hw)⟩,
        fun hbank hpending => absurd hbusy (by simp [hbank, hpending])⟩
    · have hfree := fun h => hbusy (hiff.1 h)
      by_cases hvalid : winsValid (m.f 0xC 4 + 1) m.windows = true
      · have hshown := s.bankWritten_displayed m p b
        obtain ⟨hset, hwins⟩ := s.rdN_bankWritten m (p := p) b.isLt
        have hop : m.op = 0x10 := hheld.2.1
        have hdone : Finished m 6 m.digest 0x10 s (s.bankWritten m p b) (s.mbRun 0 0x10 144 f) := by
          refine State.mbRun_finished hheld (hf.trans ((if_neg hfree).trans ((if_neg (by simp [hvalid])).trans ?_)))
            (hshown.sameSeals fun h => absurd (bankReg_range p.isLt b.isLt h) (by decide)) hseals hlog (by decide)
          rw [State.sealMsg, hop]
        refine ⟨hdone.mem.trans hshown.mem, fun w hw => (hdone.regs.rd _ (hwin _ w (by omega) hw)).trans (hshown.rd _ (bankReg_apart b.isLt (by omega) hw (by omega))),
          fun h => absurd h hbusy, fun _ _ => ⟨fun h => absurd hvalid (by rw [show m.windows = raws from rfl, h]; decide),
            fun _ => ⟨hdone.answered, hdone.sealed, (hdone.regs.rdN _ (not_mbReg_guard ?_)).trans hset, fun w hw => (hdone.regs.rdN _ (hwin b w b.isLt hw)).trans (hwins w hw)⟩⟩⟩
        unfold CPORT_GUARD_PERIOD
        omega
      · have hreply := State.mbRun_status hheld (hf.trans ((if_neg hfree).trans (if_pos (by simpa using hvalid)))) (by decide)
        exact ⟨hreply.mem, fun w hw => hreply.rd (hwin _ w (by omega) hw), fun h => absurd h hbusy,
          fun _ _ => ⟨fun _ => ⟨hreply.answered, hreply.unsealed, fun w hw => hreply.rd (hwin b w b.isLt hw)⟩, fun h => absurd h hvalid⟩⟩
  case guardSwitch =>
    intro hheld hzero p hp
    obtain ⟨f, hexec, hf⟩ := execGuardSwitch_eq (s := s) hzero hp
    have hswitch : ¬MbReg (CPORT_GUARD_SWITCH p) := not_mbReg_guard (by unfold CPORT_GUARD_SWITCH; omega)
    have hctrl : ¬MbReg (CPORT_GUARD_CTRL_SWITCH_PENDING p).reg := not_mbReg_guard (by show 0x708000 + 0x1000 * p.val < 0xC01100; omega)
    refine ⟨_, hexec, ?_⟩
    by_cases hok : s.on ROUND_STATUS_TIME_VALID = true ∧ s.netRound + 10 ≤ (m.f 0x10 8 : Int) ∧ s.bankValid p (1 - s.guardBank p) = true
    · have hgood : ¬(!s.on ROUND_STATUS_TIME_VALID || decide ((m.f 0x10 8 : Int) < s.netRound + 10) || !s.bankValid p (1 - s.guardBank p)) = true := by
        obtain ⟨hvalid, hlate, hbank⟩ := hok
        simp only [hvalid, hbank, Bool.not_true, Bool.false_or, Bool.or_false, decide_eq_true_eq]
        omega
      by_cases hpending : s.on (CPORT_GUARD_CTRL_SWITCH_PENDING p) = true
      · have hreply := State.mbRun_status hheld (hf.trans ((if_neg hgood).trans (if_pos hpending))) (by decide)
        exact ⟨hreply.mem, fun h => absurd hok h, fun _ _ => ⟨hreply.answered, hreply.rd hswitch⟩, fun _ h => absurd hpending (by simp [h])⟩
      · obtain ⟨hshown, hset, hset'⟩ := s.switchArmed_spec p.isLt (Nat.lt_of_lt_of_le (fieldLE_lt m.bytes 0x10 8) (by decide : 256 ^ 8 ≤ 2 ^ 64))
        have hop : m.op = 0x11 := hheld.2.1
        have hdone : Finished m 6 m.digest 0x11 s ((s.wrN (CPORT_GUARD_SWITCH p) (m.f 0x10 8)).putB (CPORT_GUARD_CTRL_SWITCH_PENDING p) true) (s.mbRun 0 0x11 24 f) := by
          refine State.mbRun_finished hheld (hf.trans ((if_neg hgood).trans ((if_neg hpending).trans ?_))) (hshown.sameSeals (by decide)) hseals hlog (by decide)
          rw [State.sealMsg, hop]
        exact ⟨hdone.mem.trans hshown.mem, fun h => absurd hok h, fun _ h => absurd h hpending,
          fun _ _ => ⟨hdone.answered, (hdone.regs.rdN _ hswitch).trans hset, (hdone.regs.on _ hctrl).trans hset', hdone.sealed⟩⟩
    · have hreply := State.mbRun_status hheld (hf.trans (if_pos ?_)) (by decide)
      · exact ⟨hreply.mem, fun _ => ⟨hreply.answered, hreply.rd hswitch, hreply.unsealed⟩, fun h => absurd h hok, fun h => absurd h hok⟩
      · simp only [Bool.or_eq_true, Bool.not_eq_true', decide_eq_true_eq]
        by_contra h
        exact hok ⟨by simp_all, by omega, by simp_all⟩
  case guardArm =>
    intro hheld hzero harmed p hp
    obtain ⟨f, hexec, hf⟩ := execGuardArm_eq (s := s) hzero harmed hp
    have hctrl : ¬MbReg (CPORT_GUARD_CTRL p) := not_mbReg_guard (by unfold CPORT_GUARD_CTRL; omega)
    have hround : CPORT_GUARD_CTRL p ≠ ROUND_COUNT := by
      show 0x708000 + 0x1000 * p.val ≠ 0x10000
      omega
    refine ⟨_, hexec, ?_⟩
    by_cases hsafe : m.f 9 1 = 1 ∧ s.on ERROR_STATUS_SAFE = true
    · have hreply := State.mbRun_status hheld (hf.trans (if_pos (by simp [hsafe]))) (by decide)
      exact ⟨hreply.mem, hreply.regsBut.cfg _ hctrl, fun _ _ => ⟨hreply.answered, hreply.rd hctrl⟩, fun h => absurd h (by simp [hsafe])⟩
    · have hop : m.op = 0x12 := hheld.2.1
      have hdone : Finished m 6 m.digest 0x12 s (s.wrCfg (CPORT_GUARD_CTRL p) (s.armWord m p).toNat) (s.mbRun 0 0x12 16 f) := by
        refine State.mbRun_finished hheld (hf.trans ((if_neg (by simpa using hsafe)).trans ?_)) (s.wrCfg_sameSeals _ hround) hseals hlog (by decide)
        rw [State.sealMsg, hop]
      obtain ⟨harm, hgap⟩ := s.armed_fields harmed p
      refine ⟨hdone.mem.trans (State.mem_wrCfg _ _ _), (hdone.regs.cfg (CPORT_GUARD_CTRL_ARMED p) hctrl).trans ?_, fun h1 h2 => absurd ⟨h1, h2⟩ hsafe,
        fun _ => ⟨hdone.answered, (hdone.regs.get (CPORT_GUARD_CTRL_ARMED p) hctrl).trans harm, (hdone.regs.get (CPORT_GUARD_CTRL_PTP_GAP_MS p) hctrl).trans hgap, hdone.sealed⟩⟩
      exact congrArg (fun v : Word => Word.bits v 31 31) (State.act_wrCfg s (CPORT_GUARD_CTRL p) _ _ (.inl rfl))
  case keys =>
    intro i hi key
    refine ⟨fun hheld hzero => ?_, fun hheld hloads => execKeyRevoke_waits hheld hi hloads, fun hheld hzero hloads => ⟨_, execKeyRevoke_runs hheld hi hloads, ?_⟩⟩
    · obtain ⟨f, hexec, hf⟩ := execKeyInstall_eq (s := s) hzero hi
      refine ⟨_, hexec, ?_⟩
      by_cases hactive : s.keyState i = 1
      · have hreply := State.mbRun_status hheld (hf.trans (if_pos hactive)) (by decide)
        have hkeys : ∀ j, key (s.mbRun 0 0x20 48 f) j = key s j := fun j => congrArg (fun l => SMap.get (fun _ => none) l j) hreply.keys
        exact ⟨hreply.mem, fun j _ _ => ⟨hreply.regsBut.keyState j, hkeys j⟩, fun _ => ⟨hreply.answered, (hreply.regsBut.keyState i).trans hactive, hkeys i⟩,
          fun h => absurd hactive h⟩
      · obtain ⟨hstate, hkey, hothers, hsame, hmem⟩ := s.keySet_spec (some (m.f 0xC 4, (m.bytes.drop 0x10).take 32)) i.isLt (v := 1) (by decide)
        have hdone : Finished m 6 m.keyless.digest m.keyless.op s (s.keySet i (some (m.f 0xC 4, (m.bytes.drop 0x10).take 32)) 1) (s.mbRun 0 0x20 48 f) :=
          State.mbRun_finished hheld (hf.trans (if_neg hactive)) hsame hseals hlog (by decide)
        have hkeys : ∀ j, key (s.mbRun 0 0x20 48 f) j = (s.keySet i (some (m.f 0xC 4, (m.bytes.drop 0x10).take 32)) 1).keyOf j := fun j =>
          congrArg (fun l => SMap.get (fun _ => none) l j) hdone.keys
        exact ⟨hdone.mem.trans hmem, fun j _ hj => ⟨(hdone.regs.keyState j).trans (hothers j hj).1, (hkeys j).trans (hothers j hj).2⟩, fun h => absurd h hactive,
          fun _ => ⟨hdone.answered, (hdone.regs.keyState i).trans hstate, (hkeys i).trans hkey⟩⟩
    · obtain ⟨hstate, hkey, hothers, hsame, hmem⟩ := s.keySet_spec none i.isLt (v := 2) (by decide)
      have hop : m.op = 0x21 := hheld.2.1
      have hdone : Finished m 6 m.digest 0x21 s (s.keySet i none 2) (s.mbRun 0 0x21 16 s.keyRevokeAnswer) := by
        refine State.mbRun_finished hheld ((State.keyRevokeAnswer_ok hzero hi).trans ?_) hsame hseals hlog (by decide)
        rw [State.sealMsg, hop]
      have hkeys : ∀ j, key (s.mbRun 0 0x21 16 s.keyRevokeAnswer) j = (s.keySet i none 2).keyOf j := fun j => congrArg (fun l => SMap.get (fun _ => none) l j) hdone.keys
      exact ⟨hdone.mem.trans hmem, hdone.answered, (hdone.regs.keyState i).trans hstate, (hkeys i).trans hkey,
        fun j _ hj => ⟨(hdone.regs.keyState j).trans (hothers j hj).1, (hkeys j).trans (hothers j hj).2⟩, hdone.sealed⟩
  case approve =>
    intro hheld hzero g h hg hread
    obtain ⟨f, hexec, hf⟩ := execFabricApprove_eq (s := s) hzero hg
    refine ⟨_, hexec, ?_⟩
    intro list
    cases hv : s.imgVerify 5 3080 h (s.fnRead m.fn (m.f 0x10 8 + 0x1800)) with
    | error e =>
      obtain ⟨u, hu, hreply⟩ := State.mbRun_image_error hheld hf hread hv
      exact ⟨hreply.answered, hreply.fab.trans hu.stays.fab⟩
    | ok b =>
      dsimp only
      split
      · next hbody =>
        have hdone := State.mbRun_image_finished hheld hf hread hv (if_neg (by simp [hbody])) ⟨rfl, rfl, rfl⟩ hseals hlog (by decide)
        refine ⟨hdone.answered, ?_, fun j hj => ?_, hdone.sealed⟩
        · exact (congrArg (fun z : FabSt => SMap.get (fun _ => []) z.approved g.val) hdone.fab).trans (SMap.get_set_same (fun _ => []) s.fab.approved g.val _)
        · exact (congrArg (fun z : FabSt => SMap.get (fun _ => []) z.approved j) hdone.fab).trans (SMap.get_set_other (fun _ => []) s.fab.approved g.val j _ hj)
      · next hbody =>
        have hreply := State.mbRun_image_status hheld hf hread hv (if_pos ?_) (by decide)
        · exact ⟨hreply.answered, hreply.fab⟩
        · by_contra hgood
          simp only [Bool.or_eq_true, bne_iff_ne, decide_eq_true_eq, Bool.not_eq_true', not_or, Decidable.not_not, Bool.not_eq_false] at hgood
          exact hbody ⟨hgood.1.1.1, by omega, hgood.1.2, hgood.2⟩
  case fuses =>
    intro readOk h hread w body
    exact ⟨execOwnerEnroll_spec hseals hlog hread readOk, execRevokeVendorKey_spec hseals hlog hread readOk, execDebugUnlock_spec hseals hlog hread,
      execLifecycleReturn_spec hseals hlog hread readOk⟩

end Sys2Proof.Machine
end

section
/-! SUPPORT. Flash and NOR (Trust R539), and the slot records that lie in them (Firmware Tables 17.8 and 17.9). -/

namespace Sys2Proof.Machine
open Reg

/-! ### Bytes of a flash -/

theorem romBytes_length (m : SMap Byte) (a n : Nat) : (romBytes m a n).length = n := by
  induction n generalizing a with
  | zero => rfl
  | succ n ih => exact congrArg Nat.succ (ih (a + 1))

theorem romBytes_congr {m m' : SMap Byte} {a n : Nat} (h : ∀ i, i < n → SMap.get erased m' (a + i) = SMap.get erased m (a + i)) : romBytes m' a n = romBytes m a n := by
  induction n generalizing a with
  | zero => rfl
  | succ n ih =>
    have htail : ∀ i, i < n → SMap.get erased m' (a + 1 + i) = SMap.get erased m (a + 1 + i) := fun i hi => by
      have := h (i + 1) (by omega)
      rwa [← Nat.add_assoc, Nat.add_right_comm] at this
    rw [romBytes, romBytes, ih htail]
    exact congrArg (· :: _) (h 0 (by omega))

theorem romBytes_take (m : SMap Byte) (a n k : Nat) (h : k ≤ n) : (romBytes m a n).take k = romBytes m a k := by
  induction k generalizing a n with
  | zero => rfl
  | succ k ih =>
    obtain ⟨n, rfl⟩ : ∃ j, n = j + 1 := ⟨n - 1, by omega⟩
    rw [romBytes, List.take_succ_cons, ih (a + 1) n (by omega), romBytes]

theorem romBytes_drop (m : SMap Byte) (a n k : Nat) : (romBytes m a n).drop k = romBytes m (a + k) (n - k) := by
  induction k generalizing a n with
  | zero => rfl
  | succ k ih =>
    cases n with
    | zero => rw [Nat.zero_sub]; rfl
    | succ n =>
      rw [romBytes, List.drop_succ_cons, ih (a + 1) n]
      congr 1 <;> omega

theorem fieldLE_romBytes (m : SMap Byte) (a n off k : Nat) (h : off + k ≤ n) : fieldLE (romBytes m a n) off k = leNat (romBytes m (a + off) k) := by
  rw [fieldLE, romBytes_drop, romBytes_take _ _ _ _ (by omega)]

/-- Programming a byte keeps only the bits that both have. -/
theorem get_romProgram (m : SMap Byte) (a : Nat) (b : Bytes) (x : Nat) :
    SMap.get erased (romProgram m a b) x = if a ≤ x ∧ x < a + b.length then SMap.get erased m x &&& b.getD (x - a) 0 else SMap.get erased m x := by
  induction b generalizing m a with
  | nil => rw [romProgram, if_neg (by simp)]
  | cons c b ih =>
    rw [romProgram, ih, List.length_cons]
    by_cases hx : x = a
    · subst hx
      rw [if_neg (by omega), if_pos (by omega), SMap.get_set_same, Nat.sub_self]
      rfl
    · rw [SMap.get_set_other _ _ _ _ _ hx]
      by_cases hin : a + 1 ≤ x ∧ x < a + 1 + b.length
      · have hindex : x - a = x - (a + 1) + 1 := by omega
        rw [if_pos hin, if_pos (by omega), hindex]
        rfl
      · rw [if_neg hin, if_neg (by omega)]

theorem get_romErase (m : SMap Byte) (a n x : Nat) : SMap.get erased (romErase m a n) x = if a ≤ x ∧ x < a + n then 0xFF else SMap.get erased m x := by
  rw [romErase, SMap.get_filter erased m (fun k => decide (k < a) || decide (a + n ≤ k)) x]
  by_cases hin : a ≤ x ∧ x < a + n
  · rw [if_neg (by simp; omega), if_pos hin]
    rfl
  · rw [if_pos (by simp; omega), if_neg hin]

/-- Bytes outside the range that is programmed. -/
theorem romBytes_romProgram_apart (m : SMap Byte) {a c n : Nat} (b : Bytes) (h : c + n ≤ a ∨ a + b.length ≤ c) : romBytes (romProgram m a b) c n = romBytes m c n :=
  romBytes_congr fun i hi => by rw [get_romProgram, if_neg (by omega)]

theorem romBytes_romErase_apart (m : SMap Byte) {a c n k : Nat} (h : c + n ≤ a ∨ a + k ≤ c) : romBytes (romErase m a k) c n = romBytes m c n :=
  romBytes_congr fun i hi => by rw [get_romErase, if_neg (by omega)]

/-- One byte that is programmed. -/
theorem leNat_romBytes_program (m : SMap Byte) (a : Nat) (v : Byte) : romBytes (romProgram m a [v]) a 1 = [SMap.get erased m a &&& v] := by
  rw [romBytes, romBytes, get_romProgram, if_pos (by simp)]
  simp

/-- A range that is erased and then programmed holds what was programmed. -/
theorem romBytes_fresh (m : SMap Byte) {a n : Nat} {b : Bytes} (h : ∀ i, i < b.length → SMap.get erased m (a + i) = 0xFF) (hn : n = b.length) :
    romBytes (romProgram m a b) a n = b := by
  subst hn
  induction b generalizing m a with
  | nil => rfl
  | cons c b ih =>
    have hfirst : SMap.get erased m a = 0xFF := h 0 (by simp)
    have hrest : ∀ i, i < b.length → SMap.get erased (SMap.set erased m a (SMap.get erased m a &&& c)) (a + 1 + i) = 0xFF := fun i hi => by
      rw [SMap.get_set_other _ _ _ _ _ (by omega), Nat.add_assoc, Nat.add_comm 1 i]
      exact h (i + 1) (by simpa using hi)
    rw [List.length_cons, romBytes, romProgram, ih _ hrest]
    congr 1
    rw [get_romProgram, if_neg (by omega), SMap.get_set_same, hfirst]
    exact BitVec.allOnes_and

/-! ### Check values -/

theorem crcBit_lt {c : Nat} (h : c < 2 ^ 32) : crcBit c < 2 ^ 32 := by
  have hhalf : c / 2 < 2 ^ 32 := by omega
  unfold crcBit
  split
  · exact Nat.xor_lt_two_pow hhalf (by decide)
  · exact hhalf

theorem crcByte_lt {c : Nat} (h : c < 2 ^ 32) (b : Byte) : crcByte c b < 2 ^ 32 := by
  have hb : b.toNat < 2 ^ 32 := Nat.lt_trans b.isLt (by decide : 2 ^ 8 < 2 ^ 32)
  unfold crcByte
  iterate 8 refine crcBit_lt ?_
  exact Nat.xor_lt_two_pow h hb

theorem crcFold_lt {c : Nat} (h : c < 2 ^ 32) (b : Bytes) : crcFold c b < 2 ^ 32 := by
  induction b generalizing c with
  | nil => exact h
  | cons x b ih =>
    have hstep := crcByte_lt h x
    have heq : crcFold c (x :: b) = crcFold (crcByte c x) b := by
      conv_lhs => unfold crcFold
      split
      · next h => rw [h]
      · next n h => rw [h]
    rw [heq]
    exact ih hstep

theorem crc32c_lt (b : Bytes) : crc32c b < 2 ^ 32 := Nat.xor_lt_two_pow (crcFold_lt (by decide) b) (by decide)

theorem leNat_leBytes (n v : Nat) : leNat (leBytes n v) = v % 256 ^ n := by
  induction n generalizing v with
  | zero => simp [leBytes, leNat, Nat.mod_one]
  | succ n ih =>
    have hsplit : v % 256 ^ (n + 1) = v % 256 + 256 * (v / 256 % 256 ^ n) := by rw [Nat.pow_succ', Nat.mod_mul]
    rw [leBytes, leNat, ih, BitVec.toNat_ofNat, hsplit]

theorem leBytes_length (n v : Nat) : (leBytes n v).length = n := by
  induction n generalizing v with
  | zero => rfl
  | succ n ih => exact congrArg Nat.succ (ih (v / 256))

theorem leNat_leBytes4 {v : Nat} (h : v < 2 ^ 32) : leNat (leBytes 4 v) = v := by
  rw [leNat_leBytes]
  exact Nat.mod_eq_of_lt h

/-! ### Records -/

/-- A record begins with its magic number and a good check value. -/
def GoodRec (b : Bytes) : Prop := fieldLE b 0 4 = 0x53544C53 ∧ fieldLE b 0x10 4 = crc32c (b.take 16)

/-- The state that the STATE byte of a good record gives. -/
def byteState (v : Nat) : SlotSt :=
  match v with
  | 0xFE => .writing
  | 0xFC => .valid
  | 0xF8 => .trial
  | 0xF0 => .confirmed
  | _ => .stale

theorem recState_good {b : Bytes} (hgood : GoodRec b) (hfresh : fieldLE b 0x16 1 = 0xFF) : recState b = byteState (fieldLE b 0x14 1) := by
  obtain ⟨hmagic, hcrc⟩ := hgood
  unfold recState
  rw [if_neg (by simp [hmagic, hcrc]), if_neg (by simp [hfresh])]
  rfl

theorem recState_marked {b : Bytes} (hstale : fieldLE b 0x16 1 ≠ 0xFF) : recState b = .stale ∨ recState b = .empty := by
  unfold recState
  split
  · exact .inr rfl
  · rw [if_pos (by simpa using hstale)]
    exact .inl rfl

/-- A record that is neither empty nor stale is good, is not marked, and has the STATE byte of its state. -/
theorem recState_live {b : Bytes} {st : SlotSt} (h : recState b = st) (hempty : st ≠ .empty) (hstale : st ≠ .stale) :
    GoodRec b ∧ fieldLE b 0x16 1 = 0xFF ∧ byteState (fieldLE b 0x14 1) = st := by
  unfold recState at h
  split at h
  · exact absurd h.symm hempty
  · next hgood =>
    split at h
    · exact absurd h.symm hstale
    · next hfresh =>
      refine ⟨?_, by simpa using hfresh, h⟩
      simp only [Bool.or_eq_true, bne_iff_ne, not_or, Decidable.not_not] at hgood
      exact hgood

theorem byteState_trial {v : Nat} (h : byteState v = .trial) : v = 0xF8 := by
  unfold byteState at h
  split at h
  · cases h
  · cases h
  · rfl
  · cases h
  · cases h

theorem byteState_valid {v : Nat} (h : byteState v = .valid) : v = 0xFC := by
  unfold byteState at h
  split at h
  · cases h
  · rfl
  · cases h
  · cases h
  · cases h

end Sys2Proof.Machine
end

section
/-! SUPPORT. How a record changes state, and the messages that change slots and the NOR (Trust R546, R550; Firmware R579 to R582). -/

namespace Sys2Proof.Machine
open Reg

/-! ### Records that are programmed -/

theorem fieldLE_romBytes_byte (m : SMap Byte) (a : Nat) {n off : Nat} (h : off < n) : fieldLE (romBytes m a n) off 1 = (SMap.get erased m (a + off)).toNat := by
  rw [fieldLE_romBytes _ _ _ _ _ h]
  simp [romBytes, leNat]

/-- Two memories with the same first 0x14 bytes of a record. -/
theorem goodRec_congr {m m' : SMap Byte} {a : Nat} (h : ∀ i, i < 0x14 → SMap.get erased m' (a + i) = SMap.get erased m (a + i)) (hgood : GoodRec (romBytes m a 32)) :
    GoodRec (romBytes m' a 32) := by
  obtain ⟨hmagic, hcrc⟩ := hgood
  refine ⟨?_, ?_⟩
  · rw [fieldLE_romBytes _ _ _ _ _ (by decide), romBytes_congr (m := m) fun i hi => by rw [Nat.add_zero]; exact h i (by omega)]
    rw [fieldLE_romBytes _ _ _ _ _ (by decide)] at hmagic
    exact hmagic
  · rw [fieldLE_romBytes _ _ _ _ _ (by decide), romBytes_take _ _ _ _ (by decide), romBytes_congr (m := m) fun i hi => by rw [Nat.add_assoc]; exact h _ (by omega),
      romBytes_congr (m := m) (n := 16) fun i hi => h i (by omega)]
    rw [fieldLE_romBytes _ _ _ _ _ (by decide), romBytes_take _ _ _ _ (by decide)] at hcrc
    exact hcrc

/-- A good record, not marked, whose STATE byte is programmed. -/
theorem recState_program {m : SMap Byte} {a v : Nat} {c : Byte} (hgood : GoodRec (romBytes m a 32)) (hfresh : fieldLE (romBytes m a 32) 0x16 1 = 0xFF)
    (hstate : fieldLE (romBytes m a 32) 0x14 1 = v) : recState (romBytes (romProgram m (a + 0x14) [c]) a 32) = byteState (BitVec.ofNat 8 v &&& c).toNat := by
  have hbyte : SMap.get erased m (a + 0x14) = BitVec.ofNat 8 v := by
    rw [← hstate, fieldLE_romBytes_byte _ _ (by decide), BitVec.ofNat_toNat, BitVec.setWidth_eq]
  have hget : ∀ i, i ≠ 0x14 → SMap.get erased (romProgram m (a + 0x14) [c]) (a + i) = SMap.get erased m (a + i) := fun i hi => by
    rw [get_romProgram, if_neg]
    rw [List.length_singleton]
    omega
  rw [recState_good (goodRec_congr (fun i hi => hget i (by omega)) hgood), fieldLE_romBytes_byte _ _ (by decide), get_romProgram, if_pos (by simp), hbyte, Nat.sub_self]
  · rfl
  · rw [fieldLE_romBytes_byte _ _ (by decide), hget _ (by decide), ← fieldLE_romBytes_byte m a (n := 32) (by decide)]
    exact hfresh

theorem recState_confirm {m : SMap Byte} {a : Nat} (h : recState (romBytes m a 32) = .trial) :
    recState (romBytes (romProgram m (a + 0x14) [0xF0]) a 32) = .confirmed := by
  obtain ⟨hgood, hfresh, hstate⟩ := recState_live h (by decide) (by decide)
  rw [recState_program hgood hfresh (byteState_trial hstate)]
  rfl

/-- A record that is marked is stale, unless it is none. -/
theorem recState_mark (m : SMap Byte) (a : Nat) :
    recState (romBytes (romProgram m (a + 0x16) [0]) a 32) = .stale ∨ recState (romBytes (romProgram m (a + 0x16) [0]) a 32) = .empty := by
  refine recState_marked ?_
  rw [fieldLE_romBytes_byte _ _ (by decide), get_romProgram, if_pos (by simp), Nat.sub_self]
  have hzero : ∀ x : Byte, (x &&& (0 : Byte)).toNat = 0 := fun x => by simp
  rw [show ([0] : Bytes).getD 0 0 = (0 : Byte) from rfl, hzero]
  decide

/-! ### The two memories of slots -/

theorem State.rom_setRom_same (s : State) (p : Nat) (m : SMap Byte) : (s.setRom p m).rom p = m := by
  unfold State.setRom State.rom
  split
  · simp
  · simp

theorem State.rom_setRom_other (s : State) {p j : Nat} (hp : p < 2) (hj : j < 2) (h : j ≠ p) (m : SMap Byte) : (s.setRom p m).rom j = s.rom j := by
  have hcases : (p = 0 ∧ j = 1) ∨ (p = 1 ∧ j = 0) := by omega
  rcases hcases with ⟨rfl, rfl⟩ | ⟨rfl, rfl⟩ <;> rfl

/-- What a change of the slots of pair `p` leaves alone. -/
structure SlotWork (p : Nat) (s t : State) : Prop where
  regs : RegsBut RootReg s t
  mem : t.mem = s.mem
  other : ∀ j, j < 2 → j ≠ p → t.rom j = s.rom j

namespace SlotWork
variable {p : Nat} {s t u : State}

theorem refl (p : Nat) (s : State) : SlotWork p s s := ⟨.refl s, rfl, fun _ _ _ => rfl⟩
theorem trans (h : SlotWork p s t) (k : SlotWork p t u) : SlotWork p s u :=
  ⟨h.regs.trans k.regs, k.mem.trans h.mem, fun j hj hne => (k.other j hj hne).trans (h.other j hj hne)⟩

theorem setRom (s : State) (hp : p < 2) (m : SMap Byte) : SlotWork p s (s.setRom p m) := ⟨.of_regs rfl rfl, rfl, fun _ hj h => s.rom_setRom_other hp hj h m⟩

end SlotWork

/-- A write of the protected sector is counted. -/
def State.wroteSector (s : State) (p : Nat) : State := if p = 0 then s.setTrust fun t => { t with writes := t.writes + 1 } else s

theorem State.rom_wroteSector (s : State) (p j : Nat) : (s.wroteSector p).rom j = s.rom j := by
  unfold State.wroteSector
  split <;> rfl

theorem SlotWork.wroteSector (s : State) (p : Nat) : SlotWork p s (s.wroteSector p) := by
  refine ⟨?_, ?_, fun j _ _ => s.rom_wroteSector p j⟩
  · unfold State.wroteSector
    split
    · exact .of_regs rfl rfl
    · exact .refl s
  · unfold State.wroteSector
    split <;> rfl

theorem State.rom_recSync (s : State) (j : Nat) : s.recSync.rom j = s.rom j := by
  rw [State.rom, State.rom, s.recSync_displayed.trust]

theorem SlotWork.recSync (s : State) (p : Nat) : SlotWork p s s.recSync := ⟨s.recSync_displayed.toRegsBut, s.recSync_displayed.mem, fun j _ _ => s.rom_recSync j⟩

theorem State.recProgram_eq (s : State) (p sl off : Nat) (b : Bytes) :
    s.recProgram p sl off b = ((s.setRom p (romProgram (s.rom p) (recAddr p sl + off) b)).wroteSector p).recSync := rfl

theorem State.rom_recProgram (s : State) (p sl off : Nat) (b : Bytes) : (s.recProgram p sl off b).rom p = romProgram (s.rom p) (recAddr p sl + off) b := by
  rw [State.recProgram_eq, State.rom_recSync, State.rom_wroteSector, State.rom_setRom_same]

theorem SlotWork.recProgram (s : State) {p : Nat} (hp : p < 2) (sl off : Nat) (b : Bytes) : SlotWork p s (s.recProgram p sl off b) :=
  ((SlotWork.setRom s hp _).trans (.wroteSector _ p)).trans (.recSync _ p)

theorem State.slotSt_eq (s : State) (p sl : Nat) : s.slotSt p sl = recState (romBytes (s.rom p) (recAddr p sl) 32) := rfl

/-- The two records of a pair do not meet. -/
theorem recAddr_apart {p sl sl' : Nat} (h : sl ≠ sl') : recAddr p sl + 32 ≤ recAddr p sl' ∨ recAddr p sl' + 32 ≤ recAddr p sl := by
  unfold recAddr
  split <;> omega

/-! ### CONFIRM_SLOT -/

theorem not_rootReg_counter {i : Nat} (hi : i < 64) : ¬RootReg (SECURE_COUNTER i) := by
  refine not_rootReg ?_
  unfold SECURE_COUNTER SECURE_STATUS SECURE_KEY_STATE FIRMWARE_SLOT_REC
  omega

/-- An extension of a seal leaves memory and the slots, and the registers outside the ERROR block. -/
theorem State.extendSeal_slots (s : State) (i : Nat) (d : Bytes) (source : Nat) : (s.extendSeal i d source).mem = s.mem ∧
    (∀ j, (s.extendSeal i d source).rom j = s.rom j) ∧ RegsBut errReg s (s.extendSeal i d source) ∧ (s.extendSeal i d source).trust.nor = s.trust.nor := by
  have hreport : ∀ u : State, u.regs = s.regs → u.acting = s.acting → ∀ e, RegsBut errReg s (u.report e) := fun u hregs hacting e =>
    (RegsBut.of_regs hacting hregs).report fun _ => id
  unfold State.extendSeal
  dsimp only
  split
  · exact ⟨rfl, fun _ => rfl, .of_regs rfl rfl, rfl⟩
  · split
    · exact ⟨rfl, fun _ => rfl, .of_regs rfl rfl, rfl⟩
    · refine ⟨State.report_mem _ _, fun j => ?_, ?_, ?_⟩
      · rw [State.rom, State.report_trust]
        rfl
      · refine hreport _ ?_ ?_ _
        · rfl
        · rfl
      · rw [State.report_trust]
        rfl

/-- The counter of a pair after a confirmation. -/
def State.counterRaised (s : State) (m : MbMsg) (p v : Nat) : State := if s.counter p < v then (s.setCounter p v).sealMsg m else s

theorem not_errReg_counter {i : Nat} (hi : i < 64) : ¬errReg (SECURE_COUNTER i) := by
  unfold errReg SECURE_COUNTER SECURE_SEC_NOTIFY
  omega

theorem State.counterRaised_spec (s : State) (m : MbMsg) {p v : Nat} (hp : p < 64) (hv : v < 2 ^ 64) : (s.counterRaised m p v).counter p = max (s.counter p) v ∧
    (s.counterRaised m p v).mem = s.mem ∧ ∀ j, (s.counterRaised m p v).rom j = s.rom j := by
  unfold State.counterRaised
  split
  · obtain ⟨hmem, hrom, hregs, -⟩ := (s.setCounter p v).extendSeal_slots 6 m.digest m.op
    refine ⟨?_, hmem, hrom⟩
    rw [State.sealMsg, State.counter, hregs.rdN _ (not_errReg_counter hp), ← State.counter, State.counter_setCounter_same _ _ _ hv]
    omega
  · exact ⟨by omega, rfl, fun _ => rfl⟩

/-- A slot in TRIAL as CONFIRM_SLOT leaves the pair. -/
def State.confirmed (s : State) (m : MbMsg) (p sl : Nat) : State :=
  ((s.recProgram p sl 0x14 [0xF0]).counterRaised m p (imgVersion (s.slotHeader p sl))).markStale p (1 - sl)

theorem State.confirmed_mem (s : State) (m : MbMsg) {p : Nat} (hp : p < 2) (sl : Nat) : (s.confirmed m p sl).mem = s.mem := by
  obtain ⟨-, hmem, -⟩ := (s.recProgram p sl 0x14 [0xF0]).counterRaised_spec m (p := p) (v := imgVersion (s.slotHeader p sl)) (by omega) (fieldLE4_lt _ _)
  exact (SlotWork.recProgram _ hp (1 - sl) 0x16 [0]).mem.trans (hmem.trans (SlotWork.recProgram s hp sl 0x14 [0xF0]).mem)

theorem State.confirmed_spec {s : State} (m : MbMsg) {p sl : Nat} (hp : p < 2) (hsl : sl < 2) (htrial : s.slotSt p sl = .trial) :
    (s.confirmed m p sl).slotSt p sl = .confirmed ∧ (s.confirmed m p sl).counter p = max (s.counter p) (imgVersion (s.slotHeader p sl)) ∧
      ((s.confirmed m p sl).slotSt p (1 - sl) = .stale ∨ (s.confirmed m p sl).slotSt p (1 - sl) = .empty) ∧
      (s.confirmed m p sl).rom (1 - p) = s.rom (1 - p) ∧ (s.confirmed m p sl).mem = s.mem := by
  obtain ⟨hcounter, -, hrom⟩ := (s.recProgram p sl 0x14 [0xF0]).counterRaised_spec m (p := p) (v := imgVersion (s.slotHeader p sl)) (by omega) (fieldLE4_lt _ _)
  have hfirst := SlotWork.recProgram s hp sl 0x14 [0xF0]
  have hlast := SlotWork.recProgram ((s.recProgram p sl 0x14 [0xF0]).counterRaised m p (imgVersion (s.slotHeader p sl))) hp (1 - sl) 0x16 [0]
  have hbytes : (s.confirmed m p sl).rom p = romProgram (romProgram (s.rom p) (recAddr p sl + 0x14) [0xF0]) (recAddr p (1 - sl) + 0x16) [0] := by
    rw [State.confirmed, State.markStale, State.rom_recProgram, hrom, State.rom_recProgram]
  have hcount : ∀ {u v : State}, SlotWork p u v → v.counter p = u.counter p := fun h => h.regs.rdN _ (not_rootReg_counter (by omega))
  refine ⟨?_, ?_, ?_, ?_, s.confirmed_mem m hp sl⟩
  · rw [State.slotSt_eq, hbytes, romBytes_romProgram_apart _ _ (by have := recAddr_apart (p := p) (sl := sl) (sl' := 1 - sl) (by omega); simp; omega)]
    exact recState_confirm htrial
  · rw [State.confirmed, State.markStale, hcount hlast, hcounter, hcount hfirst]
  · rw [State.slotSt_eq, hbytes]
    exact recState_mark _ _
  · have hne : 1 - p ≠ p := by omega
    exact (hlast.other _ (by omega) hne).trans ((hrom _).trans (hfirst.other _ (by omega) hne))

/-- The answer to CONFIRM_SLOT for a pair. -/
def State.confirmAnswer (s : State) (m : MbMsg) (p : Nat) : MbAns :=
  if s.worn then mbStatus s 12
  else match s.started p with
    | none => mbStatus s 9
    | some sl => if s.slotSt p sl == .confirmed then mbStatus s 0 else if s.slotSt p sl != .trial then mbStatus s 9 else mbStatus (s.confirmed m p sl) 0

theorem execConfirmSlot_eq {s : State} {m : MbMsg} (hzero : m.zero 9 7 = true) {p : Fin 2} (hp : m.f 8 1 = p.val) :
    ∃ f, exec .confirmSlot s = .next (s.mbRun 0 9 16 f) ∧ f m = s.confirmAnswer m p := by
  refine ⟨_, rfl, ?_⟩
  dsimp only
  rw [if_neg (by simp [hzero]; omega), hp]
  rfl

/-! ### RUNTIME_UPDATE -/

theorem newRecord_length (seq version len : Nat) : (newRecord seq version len).length = 21 := by
  simp [newRecord, leBytes_length]

/-- The fields of a new record. -/
theorem newRecord_fields (seq version len : Nat) : leNat ((newRecord seq version len).take 4) = 0x53544C53 ∧ leNat (((newRecord seq version len).drop 4).take 4) = seq % 2 ^ 32 ∧
    leNat (((newRecord seq version len).drop 16).take 4) = crc32c ((newRecord seq version len).take 16) ∧ leNat (((newRecord seq version len).drop 20).take 1) = 0xFE := by
  obtain ⟨a, ha, hseq⟩ : ∃ a, a.length = 4 ∧ a = leBytes 4 seq := ⟨_, leBytes_length _ _, rfl⟩
  obtain ⟨b, hb, hversion⟩ : ∃ b, b.length = 8 ∧ b = leBytes 4 version ++ leBytes 4 len := ⟨_, by simp [leBytes_length], rfl⟩
  obtain ⟨k, hk, hmagic⟩ : ∃ k, k.length = 4 ∧ k = leBytes 4 0x53544C53 := ⟨_, leBytes_length _ _, rfl⟩
  obtain ⟨c, hc, hcrc⟩ : ∃ c, c.length = 4 ∧ c = leBytes 4 (crc32c (k ++ a ++ b)) := ⟨_, leBytes_length _ _, rfl⟩
  have hrec : newRecord seq version len = k ++ (a ++ (b ++ (c ++ [0xFE]))) := by
    simp only [newRecord, hcrc, hmagic, hseq, hversion, List.append_assoc]
  rw [hrec]
  refine ⟨?_, ?_, ?_, ?_⟩
  · rw [List.take_append_of_le_length (by omega), List.take_of_length_le (by omega), hmagic]
    exact leNat_leBytes4 (by decide)
  · rw [List.drop_left' hk, List.take_append_of_le_length (by omega), List.take_of_length_le (by omega), hseq, leNat_leBytes]
    rfl
  · have hhead : (k ++ (a ++ (b ++ (c ++ [0xFE])))).take 16 = k ++ a ++ b := by
      rw [← List.append_assoc, ← List.append_assoc, List.take_left' (by simp [hk, ha, hb])]
    have htail : (k ++ (a ++ (b ++ (c ++ [0xFE])))).drop 16 = c ++ [0xFE] := by
      rw [← List.append_assoc, ← List.append_assoc, List.drop_left' (by simp [hk, ha, hb])]
    rw [htail, hhead, List.take_left' hc, hcrc]
    exact leNat_leBytes4 (crc32c_lt _)
  · have htail : (k ++ (a ++ (b ++ (c ++ [0xFE])))).drop 20 = [0xFE] := by
      rw [← List.append_assoc, ← List.append_assoc, ← List.append_assoc, List.drop_left' (by simp [hk, ha, hb, hc])]
    rw [htail]
    decide

/-- A new record where 32 bytes were erased. -/
theorem recordWritten (m : SMap Byte) (a seq version len : Nat) {m' : SMap Byte}
    (hm : ∀ i, i < 32 → SMap.get erased m' (a + i) = SMap.get erased (romProgram (romErase m a 32) a (newRecord seq version len)) (a + i)) :
    recState (romBytes (romProgram m' (a + 0x14) [0xFC]) a 32) = .valid ∧ recSeq (romBytes (romProgram m' (a + 0x14) [0xFC]) a 32) = seq % 2 ^ 32 := by
  obtain ⟨hmagic, hseq, hcrc, hstate⟩ := newRecord_fields seq version len
  have herased : ∀ i, i < (newRecord seq version len).length → SMap.get erased (romErase m a 32) (a + i) = 0xFF := fun i hi => by
    rw [newRecord_length] at hi
    rw [get_romErase, if_pos (by omega)]
  have hnew : romBytes m' a 21 = newRecord seq version len := by
    rw [romBytes_congr fun i hi => hm i (by omega)]
    exact romBytes_fresh _ herased (newRecord_length _ _ _).symm
  have hpart : ∀ off k, off + k ≤ 21 → leNat (romBytes m' (a + off) k) = leNat (((newRecord seq version len).drop off).take k) := fun off k h => by
    rw [← hnew, romBytes_drop, romBytes_take _ _ _ _ (by omega)]
  have hgood : GoodRec (romBytes m' a 32) := by
    refine ⟨?_, ?_⟩
    · rw [fieldLE_romBytes _ _ _ _ _ (by decide), hpart 0 4 (by decide), List.drop_zero]
      exact hmagic
    · rw [fieldLE_romBytes _ _ _ _ _ (by decide), hpart 16 4 (by decide), romBytes_take _ _ _ _ (by decide), hcrc, ← hnew, romBytes_take _ _ _ _ (by decide)]
  have hfresh : fieldLE (romBytes m' a 32) 0x16 1 = 0xFF := by
    rw [fieldLE_romBytes_byte _ _ (by decide), hm _ (by decide), get_romProgram, newRecord_length, if_neg (by omega), get_romErase, if_pos (by omega)]
    rfl
  have hbyte : fieldLE (romBytes m' a 32) 0x14 1 = 0xFE := by
    rw [fieldLE_romBytes _ _ _ _ _ (by decide), hpart 20 1 (by decide)]
    exact hstate
  refine ⟨?_, ?_⟩
  · rw [recState_program hgood hfresh hbyte]
    rfl
  · rw [recSeq, fieldLE_romBytes _ _ _ _ _ (by decide), romBytes_romProgram_apart _ _ (by omega), hpart 4 4 (by decide)]
    exact hseq

/-- The runtime memory after an image has been written into a slot. -/
theorem State.rom_writeSlot (s : State) (sl seq : Nat) (h body : Bytes) : (s.writeSlot 0 sl seq h body).rom 0 =
    romProgram (romProgram (romErase (romProgram (romErase (s.rom 0) (recAddr 0 sl) 0x20) (recAddr 0 sl) (newRecord seq (imgVersion h) (0x1800 + body.length)))
      (slotBase 0 sl) (slotSize 0)) (slotBase 0 sl) (h ++ body)) (recAddr 0 sl + 0x14) [0xFC] := by
  unfold State.writeSlot
  dsimp only
  rw [if_pos rfl, State.rom_recProgram, State.rom_setRom_same, State.rom_recProgram, Nat.add_zero]
  rfl

theorem SlotWork.writeSlot (s : State) (sl seq : Nat) (h body : Bytes) : SlotWork 0 s (s.writeSlot 0 sl seq h body) := by
  have hp : 0 < 2 := by decide
  exact (((((SlotWork.setRom s hp _).trans (.wroteSector _ 0)).trans (.recProgram _ hp sl 0 _)).trans (.setRom _ hp _)).trans (.recProgram _ hp sl 0x14 _))

theorem State.writeSlot_spec (s : State) {sl : Nat} (hsl : sl < 2) (seq : Nat) {h body : Bytes} (hlen : (h ++ body).length ≤ slotSize 0) :
    (s.writeSlot 0 sl seq h body).slotSt 0 sl = .valid ∧ recSeq ((s.writeSlot 0 sl seq h body).slotRec 0 sl) = seq % 2 ^ 32 ∧
      ∀ j, j < 2 → j ≠ sl → (s.writeSlot 0 sl seq h body).slotRec 0 j = s.slotRec 0 j := by
  have hends : slotBase 0 sl + slotSize 0 ≤ 0x3C0000 := by
    show 0x40000 + 0x1C0000 * sl + 0x1C0000 ≤ 0x3C0000
    omega
  have hrecs : ∀ j, 0x3C0000 ≤ recAddr 0 j := fun j => by
    show 0x3C0000 ≤ 0x3C0000 + 0x20 * j
    omega
  have hfar : ∀ (m : SMap Byte) j i, SMap.get erased (romProgram (romErase m (slotBase 0 sl) (slotSize 0)) (slotBase 0 sl) (h ++ body)) (recAddr 0 j + i) =
      SMap.get erased m (recAddr 0 j + i) := fun m j i => by
    have := hrecs j
    rw [get_romProgram, if_neg (by omega), get_romErase, if_neg (by omega)]
  obtain ⟨hvalid, hseq⟩ := recordWritten (s.rom 0) (recAddr 0 sl) seq (imgVersion h) (0x1800 + body.length) fun i hi => hfar _ sl i
  refine ⟨?_, ?_, fun j hj hne => ?_⟩
  · rw [State.slotSt_eq, State.rom_writeSlot]
    exact hvalid
  · rw [State.slotRec, State.rom_writeSlot]
    exact hseq
  · have hapart := recAddr_apart (p := 0) hne
    rw [State.slotRec, State.rom_writeSlot, romBytes_romProgram_apart _ _ (by simp; omega), romBytes_congr (m := romProgram _ _ _) fun i hi => hfar _ j i,
      romBytes_romProgram_apart _ _ (by rw [newRecord_length]; omega), romBytes_romErase_apart _ hapart]
    rfl

/-- A body beyond the limit fails check 1, at the latest at BODY_LEN. -/
theorem State.imgHeader_long {s : State} {type limit : Nat} {h : Bytes} (hlong : limit < imgLen h) : (s.imgHeader type limit h).isSome = true := by
  unfold State.imgHeader
  dsimp only
  iterate 6
    split
    · rfl
  rfl

/-- An image that passes is whole. -/
theorem State.imgVerify_ok {s : State} {type limit : Nat} {h b : Bytes} {body : Nat → Except AccErr Bytes} (hv : s.imgVerify type limit h body = .ok b) :
    body (imgLen h) = .ok b ∧ imgLen h ≤ limit := by
  unfold State.imgVerify at hv
  split at hv
  · cases hv
  · next hheader =>
    have hlimit : imgLen h ≤ limit := by
      by_contra hlong
      exact hheader (State.imgHeader_long (by omega))
    split at hv
    · cases hv
    · split at hv
      · cases hv
      · split at hv
        · cases hv
        · next heq =>
          split at hv
          · cases hv
          · split at hv
            · cases hv
            · cases hv
              exact ⟨heq, hlimit⟩

theorem State.fnRead_length {s : State} {f a n : Nat} {b : Bytes} (h : s.fnRead f a n = .ok b) : b.length = n := by
  unfold State.fnRead at h
  split at h
  · cases h
  · split at h
    · cases h
    · cases h
      exact readBytes_length _ _ _

end Sys2Proof.Machine
end

section
/-! SUPPORT. Confirmation, runtime update and the NOR messages as a whole (Trust R550; Firmware R579 to R582). -/

namespace Sys2Proof.Machine
open Reg

section updates
variable {s : State} {m : MbMsg}

theorem Replied.rom {status result : Nat} {body : Bytes} {u t : State} (h : Replied 0 m status result body u t) (j : Nat) : t.rom j = u.rom j := by
  rw [State.rom, State.rom, h.trust]
  rfl

theorem Replied.slotRec {status result : Nat} {body : Bytes} {u t : State} (h : Replied 0 m status result body u t) (p sl : Nat) : t.slotRec p sl = u.slotRec p sl := by
  rw [State.slotRec, State.slotRec, h.rom]

theorem Replied.slotSt {status result : Nat} {body : Bytes} {u t : State} (h : Replied 0 m status result body u t) (p sl : Nat) : t.slotSt p sl = u.slotSt p sl :=
  congrArg recState (h.slotRec p sl)

theorem Replied.counter {status result : Nat} {body : Bytes} {u t : State} (h : Replied 0 m status result body u t) {i : Nat} (hi : i < 64) : t.counter i = u.counter i :=
  h.rdN (not_mbReg_counter hi)

/-! ### CONFIRM_SLOT -/

theorem execConfirmSlot_replied (hheld : Safety.Held 0 m 9 16 s) (hzero : m.zero 9 7 = true) {p : Fin 2} (hp : m.f 8 1 = p.val) {u : State} {status : Nat}
    (hans : s.confirmAnswer m p = mbStatus u status) (hstatus : status < 65536) : ∃ t, exec .confirmSlot s = .next t ∧ Replied 0 m status 0 [] u t := by
  obtain ⟨f, hexec, hf⟩ := execConfirmSlot_eq (s := s) hzero hp
  exact ⟨_, hexec, State.mbRun_status hheld (hf.trans hans) hstatus⟩

theorem State.confirmAnswer_started {p sl : Nat} (hworn : s.worn = false) (hstarted : s.started p = some sl) : s.confirmAnswer m p =
    if s.slotSt p sl == .confirmed then mbStatus s 0 else if s.slotSt p sl != .trial then mbStatus s 9 else mbStatus (s.confirmed m p sl) 0 := by
  rw [State.confirmAnswer, if_neg (by simp [hworn]), hstarted]

/-- CONFIRM_SLOT comes to a status with memory as it was. -/
theorem State.confirmAnswer_mem (s : State) (m : MbMsg) {p : Nat} (hp : p < 2) : ∃ u status, s.confirmAnswer m p = mbStatus u status ∧ status < 65536 ∧ u.mem = s.mem := by
  unfold State.confirmAnswer
  split
  · exact ⟨s, 12, rfl, by decide, rfl⟩
  · split
    · exact ⟨s, 9, rfl, by decide, rfl⟩
    · split
      · exact ⟨s, 0, rfl, by decide, rfl⟩
      · split
        · exact ⟨s, 9, rfl, by decide, rfl⟩
        · exact ⟨_, 0, rfl, by decide, s.confirmed_mem m hp _⟩

/-! ### RUNTIME_UPDATE -/

/-- The runtime updated from an image. -/
def State.updated (s : State) (m : MbMsg) (sl : Nat) (h b : Bytes) : State :=
  (s.writeSlot 0 (1 - sl) ((recSeq (s.slotRec 0 sl) + 1) % 2 ^ 32) h b).sealMsg m

/-- The answer to RUNTIME_UPDATE while a slot is started. -/
def State.updateAnswer (s : State) (m : MbMsg) (sl : Nat) : MbAns :=
  if s.worn then mbStatus s 12 else if s.slotSt 0 sl != .confirmed then mbStatus s 9
  else s.mbImage m (m.f 8 8) 1 0x1BE800 fun h b => mbStatus (s.updated m sl h b) 0

theorem execRuntimeUpdate_eq {sl : Nat} (hstarted : s.started 0 = some sl) :
    ∃ f, exec .runtimeUpdate s = .next (s.mbRun 0 0xA 16 f) ∧ f m = s.updateAnswer m sl := by
  refine ⟨_, rfl, ?_⟩
  rw [hstarted]
  rfl

theorem State.updated_spec (m : MbMsg) {sl : Nat} (hsl : sl < 2) {h b : Bytes} (hlen : (h ++ b).length ≤ slotSize 0) :
    (s.updated m sl h b).mem = s.mem ∧ (s.updated m sl h b).trust.nor = s.trust.nor ∧ (s.updated m sl h b).slotSt 0 (1 - sl) = .valid ∧
      recSeq ((s.updated m sl h b).slotRec 0 (1 - sl)) = (recSeq (s.slotRec 0 sl) + 1) % 2 ^ 32 ∧ (s.updated m sl h b).slotRec 0 sl = s.slotRec 0 sl := by
  obtain ⟨hmem, hrom, -, hnor⟩ := (s.writeSlot 0 (1 - sl) ((recSeq (s.slotRec 0 sl) + 1) % 2 ^ 32) h b).extendSeal_slots 6 m.digest m.op
  obtain ⟨hvalid, hseq, hothers⟩ := s.writeSlot_spec (sl := 1 - sl) (by omega) ((recSeq (s.slotRec 0 sl) + 1) % 2 ^ 32) hlen
  have hwork := SlotWork.writeSlot s (1 - sl) ((recSeq (s.slotRec 0 sl) + 1) % 2 ^ 32) h b
  have hrec : ∀ j, (s.updated m sl h b).slotRec 0 j = (s.writeSlot 0 (1 - sl) ((recSeq (s.slotRec 0 sl) + 1) % 2 ^ 32) h b).slotRec 0 j := fun j => by
    rw [State.slotRec, State.updated, State.sealMsg, hrom, ← State.slotRec]
  refine ⟨hmem.trans hwork.mem, hnor.trans (hwork.other 1 (by decide) (by decide)), (congrArg recState (hrec _)).trans hvalid, ?_, (hrec _).trans (hothers sl hsl (by omega))⟩
  rw [hrec, hseq, Nat.mod_mod]

/-- Settles the clause of O52 on RUNTIME_UPDATE. -/
theorem execRuntimeUpdate_spec (hheld : Safety.Held 0 m 0xA 16 s) {sl : Fin 2} {h : Bytes} (hstarted : s.started 0 = some sl.val)
    (hread : s.fnRead m.fn (m.f 8 8) 0x1800 = .ok h) : ∃ t, exec .runtimeUpdate s = .next t ∧ t.mem = s.mem ∧ t.trust.nor = s.trust.nor ∧
      (s.worn = true → Safety.Answered 0 m 12 0 [] t ∧ t.trust.flash = s.trust.flash) ∧
      (s.worn = false → s.slotSt 0 sl ≠ .confirmed → Safety.Answered 0 m 9 0 [] t ∧ t.trust.flash = s.trust.flash) ∧
      (s.worn = false → s.slotSt 0 sl = .confirmed → match s.imgVerify 1 0x1BE800 h (s.fnRead m.fn (m.f 8 8 + 0x1800)) with
        | .ok _ => Safety.Answered 0 m 0 0 [] t ∧ t.slotSt 0 (1 - sl.val) = .valid ∧ recSeq (t.slotRec 0 (1 - sl.val)) = (recSeq (s.slotRec 0 sl) + 1) % 2 ^ 32 ∧
          t.slotRec 0 sl = s.slotRec 0 sl
        | .error e => Safety.Answered 0 m e.1 0 [] t ∧ t.trust.flash = s.trust.flash) := by
  obtain ⟨f, hexec, hf⟩ := execRuntimeUpdate_eq (m := m) hstarted
  refine ⟨_, hexec, ?_⟩
  by_cases hworn : s.worn = true
  · have hreply := State.mbRun_status hheld (hf.trans (if_pos hworn)) (by decide)
    exact ⟨hreply.mem, hreply.rom 1, fun _ => ⟨hreply.answered, hreply.rom 0⟩, fun h => absurd hworn (by simp [h]), fun h => absurd hworn (by simp [h])⟩
  · by_cases hconfirmed : s.slotSt 0 sl = .confirmed
    · have hf' := hf.trans ((if_neg hworn).trans (if_neg (by simp [hconfirmed])))
      cases hv : s.imgVerify 1 0x1BE800 h (s.fnRead m.fn (m.f 8 8 + 0x1800)) with
      | error e =>
        obtain ⟨u, hu, hreply⟩ := State.mbRun_image_error hheld hf' hread hv
        exact ⟨hreply.mem.trans hu.mem, (hreply.rom 1).trans (congrArg TrustSt.nor hu.stays.trust), fun h => absurd h hworn, fun _ h => absurd hconfirmed h,
          fun _ _ => ⟨hreply.answered, (hreply.rom 0).trans (congrArg TrustSt.flash hu.stays.trust)⟩⟩
      | ok b =>
        have hreply := State.mbRun_image_status hheld hf' hread hv rfl (by decide)
        obtain ⟨hbody, hlimit⟩ := State.imgVerify_ok hv
        have hlen : (h ++ b).length ≤ slotSize 0 := by
          rw [List.length_append, State.fnRead_length hread, State.fnRead_length hbody]
          show 0x1800 + imgLen h ≤ 0x1C0000
          omega
        obtain ⟨hmem, hnor, hvalid, hseq, hkept⟩ := State.updated_spec (s := s) m sl.isLt hlen
        exact ⟨hreply.mem.trans hmem, (hreply.rom 1).trans hnor, fun h => absurd h hworn, fun _ h => absurd hconfirmed h,
          fun _ _ => ⟨hreply.answered, (hreply.slotSt 0 _).trans hvalid, by rw [hreply.slotRec, hseq], (hreply.slotRec 0 _).trans hkept⟩⟩
    · have hreply := State.mbRun_status hheld (hf.trans ((if_neg hworn).trans (if_pos (by simpa using hconfirmed)))) (by decide)
      exact ⟨hreply.mem, hreply.rom 1, fun h => absurd h hworn, fun _ _ => ⟨hreply.answered, hreply.rom 0⟩, fun _ h => absurd h hconfirmed⟩

/-! ### The NOR -/

/-- The NOR has been changed, and the records are shown. -/
def State.norChanged (s : State) (nor : SMap Byte) : State := (s.setTrust fun t => { t with nor := nor }).recSync

theorem State.norChanged_spec (s : State) (nor : SMap Byte) : (s.norChanged nor).mem = s.mem ∧ (s.norChanged nor).trust.nor = nor := by
  have hshown := (s.setTrust fun t => { t with nor := nor }).recSync_displayed
  exact ⟨hshown.mem, congrArg TrustSt.nor hshown.trust⟩

theorem execNorRead_replied (hheld : Safety.Held 0 m 0xB 24 s) (hrange : m.f 8 4 + m.f 0xC 4 ≤ 0x4000000)
    (hfn : s.fnCheck m.fn (m.f 0x10 8) (max 1 (m.f 0xC 4)) = none) :
    ∃ t, exec .norRead s = .next t ∧ Replied 0 m 0 0 [] (s.store (m.f 0x10 8) (romBytes s.trust.nor (m.f 8 4) (m.f 0xC 4))) t := by
  refine ⟨_, rfl, State.mbRun_status hheld ?_ (by decide)⟩
  dsimp only
  rw [if_neg (by omega), hfn]

/-- The answer to NOR_ERASE of aligned sectors, with no failure. -/
def State.eraseAnswer (s : State) (m : MbMsg) : MbAns :=
  if s.meetsStarted (m.f 8 4) (0x10000 * m.f 0xC 4) || (match s.started 1 with
      | some sl => s.slotSt 1 sl == .trial && meetsRec (1 - sl) (m.f 8 4) (0x10000 * m.f 0xC 4)
      | none => false) then mbStatus s 9
  else mbStatus (s.norChanged (romErase s.trust.nor (m.f 8 4) (0x10000 * m.f 0xC 4))) 0

theorem execNorErase_eq (halign : m.f 8 4 % 0x10000 = 0) (hrange : m.f 8 4 + 0x10000 * m.f 0xC 4 ≤ 0x4000000) :
    ∃ f, exec (.norErase none) s = .next (s.mbRun 0 0xC 16 f) ∧ f m = s.eraseAnswer m := by
  refine ⟨_, rfl, ?_⟩
  have hgood : ¬(m.f 8 4 % 0x10000 != 0 || decide (0x4000000 < m.f 8 4 + 0x10000 * m.f 0xC 4)) = true := by
    simp only [halign, bne_self_eq_false, Bool.false_or, decide_eq_true_eq]
    omega
  dsimp only
  rw [if_neg hgood]
  rfl

/-- The answer to NOR_PROGRAM of whole pages, with no failure. -/
def State.programAnswer (s : State) (a : Nat) (b : Bytes) (n : Nat) : MbAns :=
  if !s.programOk a b then mbStatus s 9 else mbStatus (s.norChanged (romProgram s.trust.nor a (b.take (256 * (n / 256))))) 0

theorem execNorProgram_eq (hpage : m.f 8 4 % 256 = 0) (hpages : m.f 0xC 4 % 256 = 0) (hrange : m.f 8 4 + m.f 0xC 4 ≤ 0x4000000) {b : Bytes}
    (hread : s.fnRead m.fn (m.f 0x10 8) (m.f 0xC 4) = .ok b) :
    ∃ f, exec (.norProgram none) s = .next (s.mbRun 0 0xD 24 f) ∧ f m = s.programAnswer (m.f 8 4) b (m.f 0xC 4) := by
  refine ⟨_, rfl, ?_⟩
  have hgood : ¬(m.f 8 4 % 256 != 0 || m.f 0xC 4 % 256 != 0 || decide (0x4000000 < m.f 8 4 + m.f 0xC 4)) = true := by
    simp only [hpage, hpages, bne_self_eq_false, Bool.false_or, decide_eq_true_eq]
    omega
  dsimp only
  rw [if_neg hgood, hread]
  rfl

end updates

/-- Settles O52: a record is programmed byte by byte, and an erase or a program touches its own range alone. -/
theorem slotsAndNorChangeOnlyAsAllowed : Obligations.SlotsAndNorChangeOnlyAsAllowed := by
  intro s m
  refine ⟨?confirm, fun hheld sl h hstarted hread => execRuntimeUpdate_spec hheld hstarted hread, ?read, ?erase, ?program⟩
  case confirm =>
    intro hheld hzero p sl hp
    by_cases hworn : s.worn = true
    · obtain ⟨t, ht, hreply⟩ := execConfirmSlot_replied hheld hzero hp (u := s) (status := 12) (if_pos hworn) (by decide)
      exact ⟨t, ht, hreply.mem, fun _ => ⟨hreply.answered, hreply.rom p⟩, fun h => absurd hworn (by simp [h]), fun h => absurd hworn (by simp [h])⟩
    · have hfresh : s.worn = false := by simpa using hworn
      by_cases hstarted : s.started p = some sl.val
      · have hanswer := State.confirmAnswer_started (m := m) hfresh hstarted
        have hsome : s.started p ≠ none := by simp [hstarted]
        by_cases hconfirmed : s.slotSt p sl = .confirmed
        · obtain ⟨t, ht, hreply⟩ := execConfirmSlot_replied hheld hzero hp (u := s) (status := 0) (hanswer.trans (if_pos (by simp [hconfirmed]))) (by decide)
          exact ⟨t, ht, hreply.mem, fun h => absurd h hworn, fun _ h => absurd h hsome, fun _ _ => ⟨fun _ => ⟨hreply.answered, hreply.rom p, hreply.counter (by omega)⟩,
            fun h => absurd hconfirmed (by simp [h]), fun h => absurd hconfirmed h⟩⟩
        · by_cases htrial : s.slotSt p sl = .trial
          · obtain ⟨t, ht, hreply⟩ := execConfirmSlot_replied hheld hzero hp (u := s.confirmed m p sl) (status := 0)
              (hanswer.trans ((if_neg (by simp [htrial])).trans (if_neg (by simp [htrial])))) (by decide)
            obtain ⟨hslot, hcounter, hother, hrom, hmem⟩ := State.confirmed_spec m p.isLt sl.isLt htrial
            exact ⟨t, ht, hreply.mem.trans hmem, fun h => absurd h hworn, fun _ h => absurd h hsome, fun _ _ => ⟨fun h => absurd h hconfirmed,
              fun _ => ⟨hreply.answered, (hreply.slotSt _ _).trans hslot, (hreply.counter (by omega)).trans hcounter, by rw [hreply.slotSt]; exact hother, (hreply.rom _).trans hrom⟩,
              fun _ h => absurd htrial h⟩⟩
          · obtain ⟨t, ht, hreply⟩ := execConfirmSlot_replied hheld hzero hp (u := s) (status := 9)
              (hanswer.trans ((if_neg (by simp [hconfirmed])).trans (if_pos (by simp [htrial])))) (by decide)
            exact ⟨t, ht, hreply.mem, fun h => absurd h hworn, fun _ h => absurd h hsome, fun _ _ => ⟨fun h => absurd h hconfirmed, fun h => absurd h htrial,
              fun _ _ => ⟨hreply.answered, hreply.rom p⟩⟩⟩
      · cases hnone : s.started p with
        | none =>
          obtain ⟨t, ht, hreply⟩ := execConfirmSlot_replied hheld hzero hp (u := s) (status := 9) (by rw [State.confirmAnswer, if_neg hworn, hnone]) (by decide)
          exact ⟨t, ht, hreply.mem, fun h => absurd h hworn, fun _ _ => ⟨hreply.answered, hreply.rom p⟩, fun _ h => by (cases h)⟩
        | some x =>
          obtain ⟨u, status, hans, hstatus, hmem⟩ := State.confirmAnswer_mem s m p.isLt
          obtain ⟨t, ht, hreply⟩ := execConfirmSlot_replied hheld hzero hp hans hstatus
          exact ⟨t, ht, hreply.mem.trans hmem, fun h => absurd h hworn, fun _ h => by (cases h), fun _ h => absurd (hnone.trans h) hstarted⟩
  case read =>
    intro hheld hrange hfn
    obtain ⟨t, ht, hreply⟩ := execNorRead_replied hheld hrange hfn
    exact ⟨t, ht, hreply.answered, hreply.mem, (hreply.rom 1).trans (congrArg TrustSt.nor ((RootStays.refl s).store).trust)⟩
  case erase =>
    intro hheld halign hrange a n
    obtain ⟨f, hexec, hf⟩ := execNorErase_eq (s := s) halign hrange
    refine ⟨fun hmeets => ⟨_, hexec, ?_⟩, fun hmeets hother => ⟨_, hexec, ?_⟩⟩
    · have hreply := State.mbRun_status hheld (hf.trans (if_pos (by rw [hmeets]; rfl))) (by decide)
      exact ⟨hreply.answered, hreply.rom 1, hreply.mem⟩
    · have hreply := State.mbRun_status hheld (hf.trans (if_neg ?_)) (by decide)
      · obtain ⟨hmem, hnor⟩ := s.norChanged_spec (romErase s.trust.nor a n)
        refine ⟨hreply.answered, hreply.mem.trans hmem, fun x => ?_⟩
        have hrom : (s.mbRun 0 0xC 16 f).trust.nor = romErase s.trust.nor a n := (hreply.rom 1).trans hnor
        rw [hrom, get_romErase]
      · rw [hmeets, Bool.false_or]
        cases hstarted : s.started 1 with
        | none => exact Bool.false_ne_true
        | some sl => simp [hother sl hstarted]
  case program =>
    intro hheld hpage hpages hrange a b hread
    obtain ⟨f, hexec, hf⟩ := execNorProgram_eq hpage hpages hrange hread
    have hlen : b.length = m.f 0xC 4 := State.fnRead_length hread
    have hwhole : b.take (256 * (m.f 0xC 4 / 256)) = b := List.take_of_length_le (by omega)
    refine ⟨fun hbad => ⟨_, hexec, ?_⟩, fun hok => ⟨_, hexec, ?_⟩⟩
    · have hreply := State.mbRun_status hheld (hf.trans (if_pos (by rw [hbad]; rfl))) (by decide)
      exact ⟨hreply.answered, hreply.rom 1⟩
    · have hreply := State.mbRun_status hheld (hf.trans (if_neg (by rw [hok]; decide))) (by decide)
      obtain ⟨hmem, hnor⟩ := s.norChanged_spec (romProgram s.trust.nor a (b.take (256 * (m.f 0xC 4 / 256))))
      have hrom : (s.mbRun 0 0xD 24 f).trust.nor = romProgram s.trust.nor a b := by
        rw [show (s.mbRun 0 0xD 24 f).trust.nor = _ from (hreply.rom 1).trans hnor, hwhole]
      refine ⟨hreply.answered, hreply.mem.trans hmem, fun i hi => ?_, fun x hx => ?_⟩
      · rw [hrom, get_romProgram, if_pos (by omega), Nat.add_sub_cancel_left]
      · rw [hrom, get_romProgram, if_neg (by omega)]

end Sys2Proof.Machine
end

section
/-! SUPPORT. Configuration commands of the fabric (Fabric R444): the registers that a command changes, and the frames that it reads or clears. -/

namespace Sys2Proof.Machine
open Reg

/-! ### Writes of the fabric's registers -/

/-- A register of the fabric is up while PD_FAB and SPINE are. -/
theorem State.regDown_fabric {s : State} {off : Nat} (hlo : 0x900000 ≤ off) (hhi : off < 0xA00000) (hdom : s.domUp 19 = true) (hspine : s.spineUp = true) :
    s.regDown off = false := by
  have hblock : off / 0x100000 = 9 := by omega
  have hpage : (off / 0x10000 == 1) = false ∧ (off / 0x10000 / 16 == 6) = false ∧ (off / 0x10000 / 16 == 7) = false := by
    simp only [beq_eq_false_iff_ne]
    omega
  have hdomain : regDomain off = some 19 := by simp [regDomain, hblock]
  simp [State.regDown, hdomain, hdom, hspine, hpage]

theorem State.landing_fabric {s : State} {q : Req} {off : Nat} (hlo : 0x900000 ≤ off) (hhi : off < 0xA00000) (hq : q.pfOrHost = true)
    (hdom : s.domUp 19 = true) (hspine : s.spineUp = true) (hhold : s.holdOf q = none) (f : State → State) : s.landing q off f = f s :=
  s.landing_of_lands q off f ⟨s.path_of_pfOrHost q hq hspine, hhold, State.regDown_fabric hlo hhi hdom hspine⟩

/-! ### The registers of a command -/

/-- CFG_CMD, CFG_STATUS and CFG_DATA. -/
def CmdReg (o : Nat) : Prop := o = FABRIC_CFG_CMD ∨ o = FABRIC_CFG_STATUS ∨ (FABRIC_CFG_DATA 0 ≤ o ∧ o < FABRIC_CFG_DATA 82)

theorem cmdReg_cmd : CmdReg FABRIC_CFG_CMD := .inl rfl
theorem cmdReg_status : CmdReg FABRIC_CFG_STATUS := .inr (.inl rfl)

theorem cmdReg_data {i : Nat} (hi : i < 82) : CmdReg (FABRIC_CFG_DATA i) := by
  unfold CmdReg FABRIC_CFG_DATA
  omega

theorem not_cmdReg_of_region {o : Nat} (h : 0x901000 ≤ o) : ¬CmdReg o := by
  unfold CmdReg FABRIC_CFG_CMD FABRIC_CFG_STATUS FABRIC_CFG_DATA
  omega

theorem not_cmdReg_scrubCtrl : ¬CmdReg FABRIC_SCRUB_CTRL := by
  unfold CmdReg FABRIC_CFG_CMD FABRIC_CFG_STATUS FABRIC_CFG_DATA FABRIC_SCRUB_CTRL
  omega

section regions
variable {s t : State} (h : RegsBut CmdReg s t)
include h

theorem RegsBut.regionPair (g : Nat) : t.regionPair g = s.regionPair g := by
  have hfirst := h.get (FABRIC_REGION_FIRST_COLUMN g) (not_cmdReg_of_region (show 0x901000 ≤ 0x901000 + 0x40 * g by omega))
  have hcount := h.get (FABRIC_REGION_COUNT_COLUMNS g) (not_cmdReg_of_region (show 0x901000 ≤ 0x901004 + 0x40 * g by omega))
  rw [State.regionPair, hfirst, hcount, State.regionPair]

theorem RegsBut.regionState (g : Nat) : t.regionState g = s.regionState g :=
  h.get _ (not_cmdReg_of_region (show 0x901000 ≤ 0x90100c + 0x40 * g by omega))

theorem RegsBut.regionAt (col : Nat) : t.regionAt col = s.regionAt col := by
  have hpair : ∀ g, t.get (FABRIC_REGION_FIRST_COLUMN g) = s.get (FABRIC_REGION_FIRST_COLUMN g) ∧
      t.get (FABRIC_REGION_COUNT_COLUMNS g) = s.get (FABRIC_REGION_COUNT_COLUMNS g) := fun g => Prod.mk.inj (h.regionPair g)
  simp only [State.regionAt, (hpair _).1, (hpair _).2]

theorem RegsBut.farIn (g far : Nat) : t.farIn g far = s.farIn g far := by
  rw [State.farIn, h.regionPair g, State.farIn]

end regions

/-! ### A command that starts and one that faults -/

/-- What the command register shows after a write of CFG_CMD. -/
def State.cmdShown (s : State) (v : Nat) : State := s.wrN FABRIC_CFG_CMD (nbits v 27 24 * 2 ^ 24 + nbits v 18 16 * 2 ^ 16 + v % 65536)

/-- A command has been written, and nothing is done of it. -/
structure CmdShown (s u : State) : Prop where
  regs : RegsBut CmdReg s u
  fab : u.fab = s.fab
  data : ∀ i, u.rd (FABRIC_CFG_DATA i) = s.rd (FABRIC_CFG_DATA i)

theorem CmdShown.frame {s u : State} (h : CmdShown s u) (far : Nat) : u.frame far = s.frame far := by
  rw [State.frame, h.fab, State.frame]

theorem State.cmdShown_spec (s : State) (v : Nat) : CmdShown s (s.cmdShown v) :=
  ⟨(RegsBut.refl s).wrN cmdReg_cmd, State.wrN_fab _ _ _, fun i => State.rd_wrN_other _ _ _ _ (by unfold FABRIC_CFG_DATA FABRIC_CFG_CMD; omega)⟩

section free
variable {s : State} {q : Req} {v : Nat} (hq : q.pfOrHost = true) (hdom : s.domUp 19 = true) (hspine : s.spineUp = true) (hfree : s.fab.cmd = none)
  (hgo : nbit v 31 = true)
include hq hdom hspine hfree hgo

/-- A command while none is in progress. -/
theorem State.cfgCmd_read (hop : nbits v 27 24 = 1) : s.cfgCmd q v = (s.cmdShown v).readFrame (v % 65536) := by
  simp only [State.cfgCmd, hq, hdom, hspine, hfree, hgo, hop, Option.isSome_none, Bool.not_true, Bool.or_self, Bool.false_eq_true, if_false, State.cmdShown]

theorem State.cfgCmd_clear (hop : nbits v 27 24 = 2) : s.cfgCmd q v = (s.cmdShown v).cfgClear (nbits v 18 16) := by
  simp only [State.cfgCmd, hq, hdom, hspine, hfree, hgo, hop, Option.isSome_none, Bool.not_true, Bool.or_self, Bool.false_eq_true, if_false, State.cmdShown]

theorem State.cfgCmd_scrub (hop : nbits v 27 24 = 3) : s.cfgCmd q v = (s.cmdShown v).cfgScrub := by
  simp only [State.cfgCmd, hq, hdom, hspine, hfree, hgo, hop, Option.isSome_none, Bool.not_true, Bool.or_self, Bool.false_eq_true, if_false, State.cmdShown]

end free

theorem State.cfgCmd_busy {s : State} {q : Req} {v : Nat} (hq : q.pfOrHost = true) (hdom : s.domUp 19 = true) (hspine : s.spineUp = true)
    (hbusy : s.fab.cmd ≠ none) : s.cfgCmd q v = s.report { code := Code.FABRIC_BUSY } := by
  simp only [State.cfgCmd, hq, hdom, hspine, Option.isSome_iff_ne_none.2 hbusy, Bool.not_true, Bool.or_self, Bool.false_eq_true, if_false, if_true]

theorem State.on_setFab (s : State) (f : FabSt → FabSt) (g : Fld) : (s.setFab f).on g = s.on g := rfl

theorem State.cfgStart_busy (s : State) : s.cfgStart.on FABRIC_CFG_STATUS_BUSY = true := by
  rw [State.cfgStart, State.on_setFab]
  exact State.on_putB_same (s.putB FABRIC_CFG_CMD_GO true) FABRIC_CFG_STATUS_BUSY true rfl (by decide)

theorem State.cfgStart_regs (s : State) : RegsBut CmdReg s s.cfgStart := by
  have hgo : FABRIC_CFG_CMD_GO.reg = FABRIC_CFG_CMD := rfl
  have hbusy : FABRIC_CFG_STATUS_BUSY.reg = FABRIC_CFG_STATUS := rfl
  exact (((RegsBut.refl s).putB (.inl hgo)).putB (.inr (.inl hbusy))).trans (.of_regs (State.setFab_acting _ _) (State.setFab_regs _ _))

theorem State.cfgStart_fab (s : State) : s.cfgStart.fab = { s.fab with cmd := some 0 } := by
  rw [State.cfgStart, State.setFab_fab, State.putB_fab, State.putB_fab]

/-- A command that faults shows its cause. -/
theorem State.cfgFault_spec (s : State) {cause : Nat} (hc : cause < 16) : (s.cfgFault cause).on FABRIC_CFG_STATUS_FAULT = true ∧
    (s.cfgFault cause).get FABRIC_CFG_STATUS_CAUSE = cause ∧ (s.cfgFault cause).fab = s.fab ∧
    ∀ i, (s.cfgFault cause).rd (FABRIC_CFG_DATA i) = s.rd (FABRIC_CFG_DATA i) := by
  refine ⟨?_, ?_, ?_, fun i => ?_⟩
  · have h := State.get_put_apart ((s.putB FABRIC_CFG_CMD_GO false).putB FABRIC_CFG_STATUS_FAULT true) FABRIC_CFG_STATUS_CAUSE FABRIC_CFG_STATUS_FAULT cause
      (by decide) (by decide) (.inl (by decide))
    rw [State.on, State.cfgFault, h]
    exact State.on_putB_same (s.putB FABRIC_CFG_CMD_GO false) FABRIC_CFG_STATUS_FAULT true rfl (by decide)
  · rw [State.cfgFault, State.get_put_same _ FABRIC_CFG_STATUS_CAUSE cause (by decide) (by decide)]
    exact Nat.mod_eq_of_lt hc
  · rw [State.cfgFault, State.put_fab, State.putB_fab, State.putB_fab]
  · rw [State.cfgFault, State.rd_put_other _ _ _ _ (by show 0x900100 + 0x4 * i ≠ 0x900024; omega), State.putB,
      State.rd_put_other _ _ _ _ (by show 0x900100 + 0x4 * i ≠ 0x900024; omega), State.putB,
      State.rd_put_other _ _ _ _ (by show 0x900100 + 0x4 * i ≠ 0x900020; omega)]

/-! ### READ_FRAME -/

theorem State.rd_each_wrN {reg val : Nat → Nat} (hreg : ∀ i j, reg i = reg j → i = j) {n j : Nat} (hj : j < n) (s : State) :
    (s.each (List.range n) fun s i => s.wrN (reg i) (val i)).rd (reg j) = BitVec.ofNat 64 (val j) := by
  induction n with
  | zero => omega
  | succ n ih =>
    rw [List.range_succ, State.each, List.foldl_append, ← State.each]
    show (State.wrN _ (reg n) (val n)).rd (reg j) = BitVec.ofNat 64 (val j)
    by_cases h : j = n
    · subst h
      exact State.rd_wr_same _ _ _
    · rw [State.rd_wrN_other _ _ _ _ fun k => h (hreg _ _ k)]
      exact ih (by omega)

theorem State.frame_getD (s : State) (far : Nat) {i : Nat} (hi : i < 81) : (s.frame far).getD i 0 = SMap.get (fun _ => 0) s.fab.frames (far * 128 + i) := by
  simp [State.frame, List.getD_eq_getElem?_getD, hi]

theorem State.zip_frame (s : State) (far : Nat) : (List.range 81).zip (s.frame far) = (List.range 81).map fun i => (i, (s.frame far).getD i 0) := by
  refine List.ext_getElem (by simp [State.frame]) fun i h _ => ?_
  have hi : i < 81 := by simp [State.frame] at h; omega
  simp [State.frame, List.getD_eq_getElem?_getD, hi]

/-- The words of a frame are in CFG_DATA. -/
def State.frameShown (s : State) (far : Nat) : State := s.each (List.range 81) fun u i => u.wrN (FABRIC_CFG_DATA i) ((s.frame far).getD i 0)

theorem State.frameShown_displayed (s u : State) (far : Nat) :
    Displayed CmdReg u (u.each (List.range 81) fun v i => v.wrN (FABRIC_CFG_DATA i) ((s.frame far).getD i 0)) :=
  Displayed.each (fun v i hi => (Displayed.refl v).wrN (cmdReg_data (by have := List.mem_range.1 hi; omega))) u

theorem State.readFrame_far {s : State} {far : Nat} (h : farOk far = false) : s.readFrame far = s.cfgFault 2 := by
  simp [State.readFrame, h]

theorem State.readFrame_ok {s : State} {far g : Nat} (h : farOk far = true) (hg : s.regionAt (nbits far 15 10) = some g) (hst : s.regionState g ≠ 1) :
    s.readFrame far = (s.cfgStart.each (List.range 81) fun u i => u.wrN (FABRIC_CFG_DATA i) ((s.frame far).getD i 0)).wrN (FABRIC_CFG_DATA 81)
      (frameCrc (s.frame far)) := by
  simp only [State.readFrame, h, hg, hst, Bool.not_true, Bool.false_eq_true, if_false]
  rw [State.zip_frame, List.foldl_map]
  rfl

theorem data_injective (i j : Nat) (h : FABRIC_CFG_DATA i = FABRIC_CFG_DATA j) : i = j := by
  unfold FABRIC_CFG_DATA at h
  omega

theorem State.readFrame_spec {s : State} {far g : Nat} (h : farOk far = true) (hg : s.regionAt (nbits far 15 10) = some g) (hst : s.regionState g ≠ 1) :
    (s.readFrame far).on FABRIC_CFG_STATUS_BUSY = true ∧ (s.readFrame far).fab.frames = s.fab.frames ∧
      (∀ i, i < 81 → (s.readFrame far).rd (FABRIC_CFG_DATA i) = BitVec.ofNat 64 ((s.frame far).getD i 0)) ∧
      (s.readFrame far).rd (FABRIC_CFG_DATA 81) = BitVec.ofNat 64 (frameCrc (s.frame far)) := by
  rw [State.readFrame_ok h hg hst]
  have hstatus : ∀ i, FABRIC_CFG_STATUS_BUSY.reg ≠ FABRIC_CFG_DATA i := fun i => by
    show 0x900024 ≠ 0x900100 + 0x4 * i
    omega
  refine ⟨?_, ?_, fun i hi => ?_, State.rd_wr_same _ _ _⟩
  · have hkeep : ∀ u : State, (u.each (List.range 81) fun v i => v.wrN (FABRIC_CFG_DATA i) ((s.frame far).getD i 0)).get FABRIC_CFG_STATUS_BUSY =
        u.get FABRIC_CFG_STATUS_BUSY := fun u =>
      State.each_keeps (fun v : State => v.get FABRIC_CFG_STATUS_BUSY) (fun v i _ => State.get_wrN_other v _ _ _ (hstatus i)) u
    rw [State.on, State.get_wrN_other _ _ _ _ (hstatus 81), hkeep]
    exact s.cfgStart_busy
  · show FabSt.frames (State.fab (State.each _ _ _)) = s.fab.frames
    rw [(State.frameShown_displayed s s.cfgStart far).fab]
    rw [State.cfgStart_fab]
  · rw [State.rd_wrN_other _ _ _ _ fun k => absurd (data_injective _ _ k) (by omega)]
    exact State.rd_each_wrN (val := fun i => (s.frame far).getD i 0) data_injective hi s.cfgStart

/-! ### CLEAR -/

theorem State.regionSync_other (s : State) (g : Nat) {f : Fld} (hf : f.reg ≠ FABRIC_REGION_STATE g) : (s.regionSync g).get f = s.get f := by
  rw [State.regionSync, State.get_put_other _ _ _ _ hf, State.putB, State.get_put_other _ _ _ _ hf]

theorem State.regionSync_state (s : State) (g : Nat) : (s.regionSync g).regionState g = s.regionState g := by
  rw [State.regionState, State.regionSync,
    State.get_put_apart _ (FABRIC_REGION_STATE_FRAMES g) (FABRIC_REGION_STATE_STATE g) _ (Nat.zero_le 15) (by decide : 15 < 64) (.inl (by decide : 15 < 30)), State.putB,
    State.get_put_apart _ (FABRIC_REGION_STATE_ISOLATED g) (FABRIC_REGION_STATE_STATE g) _ (Nat.le_refl 29) (by decide : 29 < 64) (.inl (by decide : 29 < 30)), State.regionState]

theorem State.setRegion_state (s : State) (g : Nat) {st : Nat} (hst : st < 4) : (s.setRegion g st).regionState g = st := by
  rw [State.setRegion, State.regionSync_state]
  exact (State.get_put_same _ (FABRIC_REGION_STATE_STATE g) st (by decide : 30 ≤ 31) (by decide : 31 < 64)).trans (Nat.mod_eq_of_lt hst)

theorem State.setRegion_displayed (s : State) (g st : Nat) : Displayed (· = FABRIC_REGION_STATE g) s (s.setRegion g st) := by
  have hstate : (FABRIC_REGION_STATE_STATE g).reg = FABRIC_REGION_STATE g := rfl
  have hisolated : (FABRIC_REGION_STATE_ISOLATED g).reg = FABRIC_REGION_STATE g := rfl
  have hframes : (FABRIC_REGION_STATE_FRAMES g).reg = FABRIC_REGION_STATE g := rfl
  exact (((Displayed.refl (W := (· = FABRIC_REGION_STATE g)) s).put hstate).putB hisolated).put hframes

theorem State.regionClear_state (s : State) (g : Nat) : (s.regionClear g).regionState g = 0 := State.setRegion_state _ g (by decide)

theorem State.regionClear_image (s : State) (g : Nat) : (s.regionClear g).rdN (FABRIC_REGION_IMAGE g) = 0 := by
  rw [State.regionClear, (State.setRegion_displayed _ g 0).rdN _ (by unfold FABRIC_REGION_IMAGE FABRIC_REGION_STATE; omega)]
  exact State.rdN_wrN_same _ _ 0

theorem State.regionClear_fab (s : State) (g : Nat) : (s.regionClear g).fab = { s.fab with
    frames := s.fab.frames.filter fun e => !s.farIn g (e.1 / 128)
    golden := s.fab.golden.filter fun e => !s.farIn g e.1
    upset := s.fab.upset.filter fun x => !s.farIn g x
    visited := s.fab.visited.filter fun x => !s.farIn g x
    faultDue := s.fab.faultDue.filter fun x => x.1 != g } :=
  (State.setRegion_displayed _ g 0).fab

/-- The words of the frames of a region are gone, and those of other frames as they were. -/
theorem frame_cleared {s t : State} {g : Nat} (ht : t.fab.frames = s.fab.frames.filter fun e => !s.farIn g (e.1 / 128)) (far : Nat) :
    t.frame far = if s.farIn g far = true then List.replicate 81 0 else s.frame far := by
  have hword : ∀ i, i < 81 → SMap.get (fun _ => 0) t.fab.frames (far * 128 + i) =
      if s.farIn g far = true then 0 else SMap.get (fun _ => 0) s.fab.frames (far * 128 + i) := fun i hi => by
    rw [ht, SMap.get_filter (fun _ => 0) s.fab.frames (fun k => !s.farIn g (k / 128)), show (far * 128 + i) / 128 = far by omega]
    cases s.farIn g far <;> rfl
  refine List.ext_getElem (by split <;> simp [State.frame]) fun i h _ => ?_
  have hi : i < 81 := by simpa [State.frame] using h
  split
  · next hin =>
    rw [List.getElem_replicate]
    simpa [State.frame, hin] using hword i hi
  · next hout => simpa [State.frame, hout] using hword i hi

theorem State.cfgClear_ok {s : State} {g : Nat} (hst : s.regionState g ≠ 1) (hdef : (s.regionPair g).2 ≠ 0) : s.cfgClear g = (s.regionClear g).cfgStart := by
  simp [State.cfgClear, hst, hdef]

theorem State.cfgClear_loading {s : State} {g : Nat} (hst : s.regionState g = 1) : s.cfgClear g = s.cfgFault 3 := by
  simp [State.cfgClear, hst]

end Sys2Proof.Machine
end

section
/-! SUPPORT. Requests of the fabric at MESH, its register window and its clocks (Fabric R445 to R447); and O44. -/

namespace Sys2Proof.Machine
open Reg

/-! ### Commands (Fabric R444) -/

section commands
variable {s : State} {q : Req} (hq : q.pfOrHost = true) (hdom : s.domUp 19 = true) (hspine : s.spineUp = true) (hhold : s.holdOf q = none)
include hq hdom hspine hhold

theorem exec_readFrame (far : Fin 65536) : exec (.readFrame q far) s = .next (s.cfgCmd q (0x81000000 + far)) :=
  congrArg Host.Outcome.next (State.landing_fabric (by decide) (by decide) hq hdom hspine hhold _)

theorem exec_clear (g : Fin 8) : exec (.clear q g) s = .next (s.cfgCmd q (0x82000000 + g * 65536)) :=
  congrArg Host.Outcome.next (State.landing_fabric (by decide) (by decide) hq hdom hspine hhold _)

theorem exec_scrubPass : exec (.scrubPass q) s = .next (s.cfgCmd q 0x83000000) :=
  congrArg Host.Outcome.next (State.landing_fabric (by decide) (by decide) hq hdom hspine hhold _)

variable (hfree : s.fab.cmd = none)
include hfree

theorem exec_readFrame_free (far : Fin 65536) : ∃ u, CmdShown s u ∧ exec (.readFrame q far) s = .next (u.readFrame far) := by
  have hfar := far.isLt
  have hgo : nbit (0x81000000 + far) 31 = true := by unfold nbit; rw [beq_iff_eq]; omega
  have hop : nbits (0x81000000 + far) 27 24 = 1 := by unfold nbits; omega
  have harg : (0x81000000 + far.val) % 65536 = far := by omega
  refine ⟨_, s.cmdShown_spec (0x81000000 + far), ?_⟩
  rw [exec_readFrame hq hdom hspine hhold, State.cfgCmd_read hq hdom hspine hfree hgo hop, harg]

theorem exec_clear_free (g : Fin 8) : ∃ u, CmdShown s u ∧ exec (.clear q g) s = .next (u.cfgClear g) := by
  have hg := g.isLt
  have hgo : nbit (0x82000000 + g * 65536) 31 = true := by unfold nbit; rw [beq_iff_eq]; omega
  have hop : nbits (0x82000000 + g * 65536) 27 24 = 2 := by unfold nbits; omega
  have harg : nbits (0x82000000 + g * 65536) 18 16 = g := by unfold nbits; omega
  refine ⟨_, s.cmdShown_spec (0x82000000 + g * 65536), ?_⟩
  rw [exec_clear hq hdom hspine hhold, State.cfgCmd_clear hq hdom hspine hfree hgo hop, harg]

theorem exec_scrubPass_free : ∃ u, CmdShown s u ∧ exec (.scrubPass q) s = .next u.cfgScrub := by
  refine ⟨_, s.cmdShown_spec 0x83000000, ?_⟩
  rw [exec_scrubPass hq hdom hspine hhold, State.cfgCmd_scrub hq hdom hspine hfree (by decide) (by decide)]

end commands

theorem State.cfgClear_spec {s : State} {g : Nat} (hst : s.regionState g ≠ 1) (hdef : (s.regionPair g).2 ≠ 0) :
    (s.cfgClear g).regionState g = 0 ∧ (s.cfgClear g).rdN (FABRIC_REGION_IMAGE g) = 0 ∧ (s.cfgClear g).on FABRIC_CFG_STATUS_BUSY = true ∧
      ∀ far, (s.cfgClear g).frame far = if s.farIn g far = true then List.replicate 81 0 else s.frame far := by
  have hregs := State.cfgStart_regs (s.regionClear g)
  rw [State.cfgClear_ok hst hdef]
  refine ⟨(hregs.regionState g).trans (s.regionClear_state g), ?_, State.cfgStart_busy _, frame_cleared ?_⟩
  · rw [hregs.rdN _ (not_cmdReg_of_region (by unfold FABRIC_REGION_IMAGE; omega)), s.regionClear_image g]
  · rw [State.cfgStart_fab, s.regionClear_fab g]

theorem State.cfgScrub_on {s : State} (h : s.cfgOn FABRIC_SCRUB_CTRL_ENABLE = true) :
    s.cfgScrub = (s.setFab fun f => { f with visited := [] }).cfgStart := by simp [State.cfgScrub, h]

theorem State.cfgScrub_off {s : State} (h : s.cfgOn FABRIC_SCRUB_CTRL_ENABLE = false) : s.cfgScrub = s.cfgFault 4 := by simp [State.cfgScrub, h]

/-! ### MESH (Fabric R445) -/

/-- A request of the fabric that is not performed. -/
def State.meshRefused (s : State) (a : Nat) : State := (s.report { code := Code.FABRIC_MEM_FAULT, detail := a }).giveAcc .fabric .refused

theorem State.meshRefused_spec (s : State) (a : Nat) : (s.meshRefused a).mem = s.mem ∧ (s.meshRefused a).fab.mesh = s.fab.mesh ++ [.refused] ∧
    (s.meshRefused a).on ERROR_STATUS_NOTE = true := by
  refine ⟨s.report_mem _, ?_, s.on_report_note _ rfl⟩
  show (s.report _).fab.mesh ++ [.refused] = _
  rw [s.report_fab]

/-- Traffic leaves the fabric as it was. -/
theorem RootStays.traffic {s t : State} (h : RootStays s t) {k : Nat} {who : Option (Nat × Nat)} {a n : Nat} : RootStays s (t.traffic k who a n) := by
  obtain ⟨_, _, htraffic⟩ := (Spent.traffic t k who a n).parts
  rw [htraffic]
  exact h.same rfl rfl

theorem RootStays.portWrite {s t : State} (h : RootStays s t) {k : Nat} {who : Option (Nat × Nat)} {router a n : Nat} :
    RootStays s (t.portWrite k who router a n) :=
  RootStays.ite _ (h.traffic.same rfl rfl) h

/-- A request at a closed port. -/
theorem State.meshRequest_closed {s : State} {a : Nat} {o : MemOp} (hsize : ¬(memSize o = 0 || decide (64 < memSize o)) = true)
    (hclosed : (!s.cfgOn FABRIC_PORT_CFG_MESH_EN || decide (18 < s.cfg FABRIC_PORT_CFG_FUNCTION)) = true) : s.meshRequest a o = s.meshRefused a := by
  cases o <;>
  · unfold State.meshRequest memSize at *
    dsimp only at *
    rw [if_neg hsize, if_pos hclosed]
    rfl

/-- A request that the function may not make. -/
theorem State.meshRequest_fails {s : State} {a : Nat} {o : MemOp} {e : AccErr} (hsize : ¬(memSize o = 0 || decide (64 < memSize o)) = true)
    (hopen : ¬(!s.cfgOn FABRIC_PORT_CFG_MESH_EN || decide (18 < s.cfg FABRIC_PORT_CFG_FUNCTION)) = true)
    (he : s.fnCheck (s.cfg FABRIC_PORT_CFG_FUNCTION) a (memSize o) = some e) : s.meshRequest a o = (s.accReport e).meshRefused a := by
  cases o <;>
  · unfold State.meshRequest memSize at *
    dsimp only at *
    rw [if_neg hsize, if_neg hopen, he]
    rfl

theorem State.meshRequest_refused {s : State} {a : Nat} {o : MemOp} (hsize : memSize o ≠ 0) (hline : memSize o ≤ 64)
    (h : s.cfgOn FABRIC_PORT_CFG_MESH_EN = false ∨ 18 < s.cfg FABRIC_PORT_CFG_FUNCTION ∨
      s.fnCheck (s.cfg FABRIC_PORT_CFG_FUNCTION) a (memSize o) ≠ none) :
    (s.meshRequest a o).mem = s.mem ∧ (s.meshRequest a o).fab.mesh = s.fab.mesh ++ [.refused] ∧ (s.meshRequest a o).on ERROR_STATUS_NOTE = true := by
  have hlength : ¬(memSize o = 0 || decide (64 < memSize o)) = true := by simp [hsize, hline]
  by_cases hopen : (!s.cfgOn FABRIC_PORT_CFG_MESH_EN || decide (18 < s.cfg FABRIC_PORT_CFG_FUNCTION)) = true
  · rw [State.meshRequest_closed hlength hopen]
    exact s.meshRefused_spec a
  · obtain ⟨e, he⟩ : ∃ e, s.fnCheck (s.cfg FABRIC_PORT_CFG_FUNCTION) a (memSize o) = some e := by
      simp only [Bool.or_eq_true, Bool.not_eq_true', decide_eq_true_eq, not_or] at hopen
      rcases h with h | h | h
      · exact absurd h hopen.1
      · exact absurd h hopen.2
      · exact Option.ne_none_iff_exists'.1 h
    rw [State.meshRequest_fails hlength hopen he]
    obtain ⟨hmem, hmesh, hnote⟩ := (s.accReport e).meshRefused_spec a
    exact ⟨hmem.trans (s.accReport_spares e).1, by rw [hmesh, (RootStays.refl s).accReport.fab], hnote⟩

theorem State.meshRequest_write {s : State} {a : Nat} {b : Bytes} (hsize : b.length ≠ 0) (hline : b.length ≤ 64) (hen : s.cfgOn FABRIC_PORT_CFG_MESH_EN = true)
    (hfn : s.cfg FABRIC_PORT_CFG_FUNCTION ≤ 18) (hcheck : s.fnCheck (s.cfg FABRIC_PORT_CFG_FUNCTION) a b.length = none) (hdram : inSram a b.length = false) :
    s.meshRequest a (.write b) =
      ((s.portWrite (s.cfg FABRIC_PORT_CFG_CLASS) none meshFabric a b.length).store a b).giveAcc .fabric .written := by
  have hlength : ¬(b.length = 0 || decide (64 < b.length)) = true := by simp [hsize, hline]
  have hopen : ¬(!s.cfgOn FABRIC_PORT_CFG_MESH_EN || decide (18 < s.cfg FABRIC_PORT_CFG_FUNCTION)) = true := by simp [hen, hfn]
  simp only [State.meshRequest, hcheck, hdram, if_neg hlength, if_neg hopen, Bool.false_eq_true, if_false]

/-- What a permitted write leaves. -/
theorem State.meshRequest_stored {s : State} {a : Nat} {b : Bytes} (hsize : b.length ≠ 0) (hline : b.length ≤ 64) (hen : s.cfgOn FABRIC_PORT_CFG_MESH_EN = true)
    (hfn : s.cfg FABRIC_PORT_CFG_FUNCTION ≤ 18) (hcheck : s.fnCheck (s.cfg FABRIC_PORT_CFG_FUNCTION) a b.length = none) (hdram : inSram a b.length = false) :
    (s.meshRequest a (.write b)).mem = (s.store a b).mem ∧ (s.meshRequest a (.write b)).fab.mesh = s.fab.mesh ++ [.written] := by
  have hclass : s.cfg FABRIC_PORT_CFG_CLASS < 4 := Word.bits_lt _ 21 20
  have hport := Alike.portWrite s hclass none meshFabric a b.length
  rw [State.meshRequest_write hsize hline hen hfn hcheck hdram]
  refine ⟨(hport.store hdram).mem, ?_⟩
  show (State.fab (State.store _ a b)).mesh ++ [.written] = _
  rw [((RootStays.refl s).portWrite).store.fab]

/-! ### The register window (Fabric R446) -/

theorem exec_fabricRegAccess {q : Req} {s : State} (hq : q.pfOrHost = true) (hdom : s.domUp 19 = true) (hspine : s.spineUp = true) (hhold : s.holdOf q = none)
    (g : Fin 8) (off : Fin 65536) (w ans : Option Nat) : exec (.fabricRegAccess q g off w ans) s = .next (s.fabReg g off w ans) := by
  have hreach : q.reachesRegs = true := by cases q <;> first | rfl | exact absurd hq Bool.false_ne_true
  show Host.Outcome.next _ = _
  rw [if_pos (by rw [hreach, hspine]; rfl), s.dropHold_none q none hhold]
  cases w <;> simp [hdom]

theorem exec_fabricRegTimeout {g : Fin 8} {s : State} (h : s.fab.regs.any (fun x => x.1 == g.val && x.2.2.isNone) = true) :
    ∃ t, exec (.fabricRegTimeout g) s = .next t ∧ t.bus.data = 0xFFFFFFFF ∧ t.on ERROR_STATUS_NOTE = true := by
  obtain ⟨x, hx⟩ := Option.isSome_iff_exists.1 (List.find?_isSome.2 (List.any_eq_true.1 h))
  refine ⟨((s.setFab fun f => { f with regs := f.regs.erase x }).giveRead 0xFFFFFFFF).report { code := Code.FABRIC_REG_TIMEOUT, unit := g }, ?_, ?_, ?_⟩
  · show Host.Outcome.next _ = _
    rw [hx]
  · rw [State.report_bus]
    rfl
  · exact State.on_report_note _ _ rfl

/-! ### The clocks (Fabric R447) -/

/-- MHZ as a write of CLK_CFG leaves it. -/
def clkMhz (v : Nat) : Nat := if 10 ≤ v % 1024 ∧ v % 1024 ≤ 500 then v % 1024 else 100

theorem clkMhz_lt (v : Nat) : clkMhz v < 1024 := by
  unfold clkMhz
  split <;> omega

theorem exec_clkCfgWrite {q : Req} {s : State} (hq : q.pfOrHost = true) (hdom : s.domUp 19 = true) (hspine : s.spineUp = true) (hhold : s.holdOf q = none)
    (i : Fin 4) (v : Nat) : exec (.clkCfgWrite q i v) s = .next (s.wrCfg (FABRIC_CLK_CFG i) (nbits v 31 31 * 2 ^ 31 + clkMhz v)) := by
  have hland := State.landing_fabric (s := s) (q := q) (off := FABRIC_CLK_CFG i) (by unfold FABRIC_CLK_CFG; omega) (by unfold FABRIC_CLK_CFG; omega)
    hq hdom hspine hhold fun s => s.clkCfg q i v
  refine (congrArg Host.Outcome.next hland).trans (congrArg Host.Outcome.next ?_)
  rw [State.clkCfg, if_pos (by rw [hq, hdom, hspine]; rfl), clkMhz]
  simp only [Bool.and_eq_true, decide_eq_true_eq]

/-- Settles O44: a configuration command and the registers it changes, a request at MESH and the checks of its function, the register window, and a clock. -/
theorem fabricCommandsPortsAndClocks : Obligations.FabricCommandsPortsAndClocks := by
  intro q s hq hdom hspine hhold
  refine ⟨fun hfree => ⟨fun far g hok hg hst => ?read, fun far hbad => ?badFar, fun g hst hdef => ?clear, fun g hst => ?loading, fun hen => ?pass, fun hen => ?noPass⟩,
    fun hbusy far => ?busy, fun a o h18 hsize hline => ⟨fun h => ?refused, fun b ho hen hfn hcheck hdram => ?write⟩, fun a o h18 => ?asleep, fun g off ans => ?window,
    fun i v => ?clock⟩
  case read =>
    obtain ⟨u, hu, hexec⟩ := exec_readFrame_free hq hdom hspine hhold hfree far
    obtain ⟨hbusy, hframes, hdata, hcrc⟩ := State.readFrame_spec hok ((hu.regs.regionAt _).trans hg) ((hu.regs.regionState g).trans_ne hst)
    exact ⟨_, hexec, hbusy, by rw [hframes, hu.fab], fun i hi => by rw [hdata i hi, hu.frame], by rw [hcrc, hu.frame]⟩
  case badFar =>
    obtain ⟨u, hu, hexec⟩ := exec_readFrame_free hq hdom hspine hhold hfree far
    obtain ⟨hfault, hcause, hfab, hdata⟩ := u.cfgFault_spec (show 2 < 16 by decide)
    rw [State.readFrame_far hbad] at hexec
    exact ⟨_, hexec, hfault, hcause, hfab.trans hu.fab, fun i _ => (hdata i).trans (hu.data i)⟩
  case clear =>
    obtain ⟨u, hu, hexec⟩ := exec_clear_free hq hdom hspine hhold hfree g
    obtain ⟨hstate, himage, hbusy, hframe⟩ := State.cfgClear_spec ((hu.regs.regionState g).trans_ne hst)
      (show (u.regionPair g).2 ≠ 0 by rw [hu.regs.regionPair g]; exact hdef)
    refine ⟨_, hexec, hstate, himage, hbusy, fun far _ hin => ?_, fun far _ hout => ?_⟩
    · rw [hframe far, if_pos ((hu.regs.farIn g far).trans hin)]
    · rw [hframe far, hu.regs.farIn g far, hout, if_neg Bool.false_ne_true, hu.frame]
  case loading =>
    obtain ⟨u, hu, hexec⟩ := exec_clear_free hq hdom hspine hhold hfree g
    obtain ⟨-, hcause, hfab, -⟩ := u.cfgFault_spec (show 3 < 16 by decide)
    rw [State.cfgClear_loading ((hu.regs.regionState g).trans hst)] at hexec
    exact ⟨_, hexec, hfab.trans hu.fab, hcause⟩
  case pass =>
    obtain ⟨u, hu, hexec⟩ := exec_scrubPass_free hq hdom hspine hhold hfree
    rw [State.cfgScrub_on ((hu.regs.cfgOn _ not_cmdReg_scrubCtrl).trans hen)] at hexec
    exact ⟨_, hexec, by rw [State.cfgStart_fab]; rfl, State.cfgStart_busy _⟩
  case noPass =>
    obtain ⟨u, hu, hexec⟩ := exec_scrubPass_free hq hdom hspine hhold hfree
    obtain ⟨-, hcause, hfab, -⟩ := u.cfgFault_spec (show 4 < 16 by decide)
    rw [State.cfgScrub_off ((hu.regs.cfgOn _ not_cmdReg_scrubCtrl).trans hen)] at hexec
    exact ⟨_, hexec, hfab.trans hu.fab, hcause⟩
  case busy =>
    refine ⟨_, (exec_readFrame hq hdom hspine hhold far).trans (congrArg _ (State.cfgCmd_busy hq hdom hspine hbusy)), s.report_fab _, ?_⟩
    exact State.on_report_note _ _ rfl
  case refused => exact ⟨_, congrArg Host.Outcome.next (if_pos h18), State.meshRequest_refused hsize hline h⟩
  case write =>
    subst ho
    exact ⟨_, congrArg Host.Outcome.next (if_pos h18), State.meshRequest_stored hsize hline hen hfn hcheck hdram⟩
  case asleep => exact congrArg Host.Outcome.next (if_neg (by simp [h18]))
  case window =>
    have hexec := exec_fabricRegAccess hq hdom hspine hhold g off
    refine ⟨fun hother => ?_, fun hrun => ?_, exec_fabricRegTimeout⟩
    · have hdead : (s.region18 != some g.val) = true := bne_iff_ne.2 hother
      have hread : s.fabReg g off none ans = s.giveRead 0 := by simp [State.fabReg, hdead]
      refine ⟨⟨_, hexec none ans, ?_⟩, fun v => (hexec (some v) ans).trans ?_⟩
      · rw [hread]
        exact ⟨rfl, rfl, rfl⟩
      · simp [State.fabReg, hdead]
    · have hlive : (s.region18 != some g.val) = false := by simp [hrun]
      refine ⟨fun v => ⟨_, hexec (some v) ans, ?_⟩, fun v hans => ⟨_, hexec none ans, ?_⟩⟩
      · simp [State.fabReg, hlive]
      · have hread : s.fabReg g off none ans = s.giveRead (v % 2 ^ 64) := by simp [State.fabReg, hlive, hans]
        rw [hread]
        exact ⟨rfl, rfl⟩
  case clock =>
    have hmhz := clkMhz_lt v
    have hen : nbits v 31 31 < 2 := Nat.mod_lt _ (by decide)
    have hsize : nbits v 31 31 * 2 ^ 31 + clkMhz v < 2 ^ 64 := by omega
    have henable : nbits (nbits v 31 31 * 2 ^ 31 + clkMhz v) 31 31 = nbits v 31 31 := by
      generalize nbits v 31 31 = e at *
      unfold nbits
      omega
    have hvalue : nbits (nbits v 31 31 * 2 ^ 31 + clkMhz v) 9 0 = clkMhz v := by
      generalize nbits v 31 31 = e at *
      unfold nbits
      omega
    refine ⟨_, exec_clkCfgWrite hq hdom hspine hhold i v, ?_, ?_, fun o ho => State.rd_wrCfg_other s _ _ o ho, ?_⟩
    · rw [State.get_wrCfg_same s _ hsize, henable]
    · rw [State.get_wrCfg_same s _ hsize, hvalue]
      rfl
    · rw [State.cfg, State.act_wrCfg _ _ _ _ (.inl rfl), State.cfg]

end Sys2Proof.Machine
end

section
/-! SUPPORT. Memory requests (Memory R396 to R399): the checks of an address, and what a request leaves in its channel's queue and in memory. -/

namespace Sys2Proof.Machine
open Reg

/-! ### The checks of an address -/

/-- The registers that the checks of an address read. -/
def CheckReg (o : Nat) : Prop := (0x1000 ≤ o ∧ o < 0x1200) ∨ (0xC00600 ≤ o ∧ o < 0xC00680) ∨ (POWER_DOM_STATUS 0 ≤ o ∧ o < POWER_DOM_STATUS 24) ∨
  (0x30000 ≤ o ∧ o < 0x70000 ∧ o % 0x40 = 0x10) ∨ o = GLOBAL_BOOT_STATUS ∨ o = GLOBAL_PCIE_STATUS ∨ o = MEMCTL_DX_STATUS ∨ o = MEMCTL_HOST_CLASS

theorem checkReg_boot : CheckReg GLOBAL_BOOT_STATUS := .inr (.inr (.inr (.inr (.inl rfl))))
theorem checkReg_pcie : CheckReg GLOBAL_PCIE_STATUS := .inr (.inr (.inr (.inr (.inr (.inl rfl)))))
theorem checkReg_dx : CheckReg MEMCTL_DX_STATUS := .inr (.inr (.inr (.inr (.inr (.inr (.inl rfl))))))
theorem checkReg_hostClass : CheckReg MEMCTL_HOST_CLASS := .inr (.inr (.inr (.inr (.inr (.inr (.inr rfl))))))

/-- The two states give the same answers to the checks of an address. -/
structure SameChecks (s t : State) : Prop where
  acting : t.acting = s.acting
  rd : ∀ o, CheckReg o → t.rd o = s.rd o
  pwr : t.pwr = s.pwr

theorem RegsBut.checks {W : Nat → Prop} {s t : State} (h : RegsBut W s t) (hpwr : t.pwr = s.pwr) (hW : ∀ o, CheckReg o → ¬W o) : SameChecks s t :=
  ⟨h.acting, fun o ho => h.rd o (hW o ho), hpwr⟩

namespace SameChecks
variable {s t u : State} (h : SameChecks s t)
include h

theorem trans (k : SameChecks t u) : SameChecks s u :=
  ⟨k.acting.trans h.acting, fun o ho => (k.rd o ho).trans (h.rd o ho), k.pwr.trans h.pwr⟩

theorem get (g : Fld) (hg : CheckReg g.reg) : t.get g = s.get g := by rw [State.get, h.rd _ hg, State.get]
theorem on (g : Fld) (hg : CheckReg g.reg) : t.on g = s.on g := by rw [State.on, h.get g hg, State.on]
theorem cfg (g : Fld) (hg : CheckReg g.reg) : t.cfg g = s.cfg g := by simp only [State.cfg, State.act, h.acting, h.rd _ hg]
theorem cfgOn (g : Fld) (hg : CheckReg g.reg) : t.cfgOn g = s.cfgOn g := by rw [State.cfgOn, h.cfg g hg, State.cfgOn]

theorem inWindow {f : Nat} (hf : f < 32) (a n : Nat) : t.inWindow f a n = s.inWindow f a n := by
  have hbase : CheckReg (GLOBAL_FN_WIN_BASE f) := .inl (by unfold GLOBAL_FN_WIN_BASE; omega)
  have hlimit : CheckReg (GLOBAL_FN_WIN_LIMIT f) := .inl (by unfold GLOBAL_FN_WIN_LIMIT; omega)
  simp only [State.inWindow, h.on (GLOBAL_FN_WIN_BASE_RELAY_EN f) hbase, h.on (GLOBAL_FN_WIN_BASE_EN f) hbase,
    h.get (GLOBAL_FN_WIN_BASE_BASE f) hbase, h.get (GLOBAL_FN_WIN_LIMIT_LIMIT f) hlimit]

theorem inRegion (a n : Nat) : t.inRegion a n = s.inRegion a n := by
  unfold State.inRegion
  rw [Bool.eq_iff_iff, List.any_eq_true, List.any_eq_true]
  refine exists_congr fun j => and_congr_right fun hj => ?_
  have hlt := List.mem_range.1 hj
  have hbase : CheckReg (SECURE_SEC_REGION_BASE j) := .inr (.inl (by unfold SECURE_SEC_REGION_BASE; omega))
  have hlimit : CheckReg (SECURE_SEC_REGION_LIMIT j) := .inr (.inl (by unfold SECURE_SEC_REGION_LIMIT; omega))
  rw [h.cfgOn (SECURE_SEC_REGION_BASE_EN j) hbase, h.cfg (SECURE_SEC_REGION_BASE_BASE j) hbase, h.cfg (SECURE_SEC_REGION_LIMIT_LIMIT j) hlimit]

theorem domUp {d : Nat} (hd : d < 24) : t.domUp d = s.domUp d := by
  have hdom : CheckReg (POWER_DOM_STATUS_STATE d).reg := .inr (.inr (.inl (by
    show POWER_DOM_STATUS 0 ≤ POWER_DOM_STATUS d ∧ POWER_DOM_STATUS d < POWER_DOM_STATUS 24
    unfold POWER_DOM_STATUS
    omega)))
  rw [State.domUp, State.dom, h.pwr, h.get _ hdom, State.domUp, State.dom]

theorem devCheck (secure : Bool) (a n : Nat) : t.devCheck secure a n = s.devCheck secure a n := by
  have hlp : t.lpOk a n = s.lpOk a n := by
    simp only [State.lpOk, h.on GLOBAL_BOOT_STATUS_LP_FAIL checkReg_boot, h.on GLOBAL_BOOT_STATUS_LP_TRAINED checkReg_boot]
  have hdx : t.dxOk a n = s.dxOk a n := by
    simp only [State.dxOk, h.get MEMCTL_DX_STATUS_STATE checkReg_dx, h.get MEMCTL_DX_STATUS_SIZE_GIB checkReg_dx]
  unfold State.devCheck
  rw [h.inRegion, hlp, hdx]
  cases hd : sramDistrict a with
  | none => rfl
  | some d => simp only [h.domUp (Nat.lt_trans (sramDistrict_lt hd) (by decide))]

theorem fnCheck {f : Nat} (hf : f < 32) (a n : Nat) : t.fnCheck f a n = s.fnCheck f a n := by
  rw [State.fnCheck, h.inWindow hf, h.devCheck, State.fnCheck]

theorem ringField {r : Nat} (hr : r < 4096) (hi lo : Nat) : t.get ⟨RINGS_CFG r, hi, lo⟩ = s.get ⟨RINGS_CFG r, hi, lo⟩ :=
  h.get _ (.inr (.inr (.inr (.inl (by
    show 0x30000 ≤ RINGS_CFG r ∧ RINGS_CFG r < 0x70000 ∧ RINGS_CFG r % 0x40 = 0x10
    unfold RINGS_CFG
    omega)))))

theorem ringFn {r : Nat} (hr : r < 4096) : t.ringFn r = s.ringFn r := h.ringField hr 20 16

theorem memCheck (b : MemBy) (a n : Nat) : t.memCheck b a n = s.memCheck b a n := by
  have hring : ∀ r : Ring, t.fnCheck (t.ringFn r) a n = s.fnCheck (s.ringFn r) a n := fun r => by
    have hlt : s.ringFn r < 32 := Word.bits_lt _ 20 16
    rw [h.ringFn r.isLt, h.fnCheck hlt]
  cases b with
  | ring r q => exact hring r
  | express r q => exact hring r
  | host q =>
    simp only [State.memCheck]
    split
    · next hq => exact h.fnCheck (by omega) a n
    · exact h.devCheck _ a n
  | engine k => exact h.devCheck _ a n
  | fw p => exact h.devCheck _ a n
  | bulk => exact h.devCheck _ a n

theorem memClass (b : MemBy) : t.memClass b = s.memClass b := by
  cases b with
  | ring r q => exact h.ringField r.isLt 9 8
  | host q => simp only [State.memClass, h.cfg MEMCTL_HOST_CLASS_CLASS checkReg_hostClass]
  | express r q => rfl
  | engine k => rfl
  | fw p => rfl
  | bulk => rfl

end SameChecks

/-- Of the registers, PHASE alone is another, and every domain is as it was. -/
structure Retimed (s t : State) : Prop where
  regs : RegsBut (· = ROUND_PHASE) s t
  pwr : t.pwr = s.pwr

theorem State.retimed (s : State) (t : Nat) : Retimed s (s.atNs t) := ⟨(RegsBut.refl s).atNs rfl, rfl⟩

namespace Retimed
variable {s t : State} (h : Retimed s t)
include h

theorem checks : SameChecks s t := h.regs.checks h.pwr fun o ho => by
  unfold CheckReg at ho
  unfold POWER_DOM_STATUS GLOBAL_BOOT_STATUS GLOBAL_PCIE_STATUS MEMCTL_DX_STATUS MEMCTL_HOST_CLASS at ho
  unfold ROUND_PHASE
  omega

theorem memCheck (b : MemBy) (a n : Nat) : t.memCheck b a n = s.memCheck b a n := h.checks.memCheck b a n
theorem memClass (b : MemBy) : t.memClass b = s.memClass b := h.checks.memClass b

theorem spineUp : t.spineUp = s.spineUp := by
  rw [State.spineUp, h.regs.on _ (by decide), h.pwr, State.spineUp]

end Retimed

/-! ### Channels -/

@[simp] theorem State.mchan_setMchan_same (s : State) (c : Nat) (f : MemChan → MemChan) : (s.setMchan c f).mchan c = f (s.mchan c) := SMap.get_set_same _ _ _ _

/-- A line has one chunk. -/
theorem chunksOf_line {w a : Nat} {b : Bytes} (hb : b ≠ []) (h : a / w = (a + b.length - 1) / w) : chunksOf w a b = [(a, b)] := by
  induction b generalizing a with
  | nil => exact absurd rfl hb
  | cons x t ih =>
    cases t with
    | nil => rfl
    | cons y t =>
      simp only [List.length_cons] at h ih
      have hlow : a / w ≤ (a + 1) / w := Nat.div_le_div_right (Nat.le_succ a)
      have hhigh : (a + 1) / w ≤ (a + (t.length + 1 + 1) - 1) / w := Nat.div_le_div_right (by omega)
      have hnext : a / w = (a + 1) / w := by omega
      have hrest := ih (a := a + 1) (List.cons_ne_nil _ _) (by rw [← hnext, h]; congr 1; omega)
      rw [chunksOf, hrest]
      dsimp only
      rw [if_pos hnext]

/-- A write of a line of DRAM while no line is poisoned, outside the receipt area. -/
theorem State.store_line {s : State} {a : Nat} {b : Bytes} (hb : b ≠ []) (hline : a / 64 = (a + b.length - 1) / 64) (hdram : inSram a b.length = false)
    (hpoison : s.poison = []) (hreceipts : s.inReceipts a = false) : s.store a b = s.wrMem a b := by
  rw [State.store, hdram, if_neg Bool.false_ne_true, chunksOf_line hb hline]
  show s.writeLine a b = _
  simp [State.writeLine, hreceipts, hpoison]

/-! ### A request by what its address is -/

section request
variable {s : State} {tag : Nat} {b : MemBy} {a : Nat} {o : MemOp}

theorem State.anyRequest_memory (h : coreSpace a = false) : s.anyRequest tag b a o = s.memRequest tag b a o := by
  cases b <;> simp [State.anyRequest, h]

/-- A request of at least a byte, within one line, while SPINE is up. -/
structure Whole (s : State) (a : Nat) (o : MemOp) : Prop where
  spine : s.spineUp = true
  size : memSize o ≠ 0
  line : a / 64 = (a + memSize o - 1) / 64

theorem Whole.passes (h : Whole s a o) : ¬(decide (memSize o = 0) || a / 64 != (a + memSize o - 1) / 64 || !s.spineUp) = true := by
  simp [h.spine, h.size, ← h.line]

variable (h : Whole s a o)
include h

theorem State.memRequest_refused {e : AccErr} (he : s.memCheck b a (memSize o) = some e) :
    s.memRequest tag b a o = (s.accReport e).memAnswer tag .refused := by
  unfold State.memRequest
  dsimp only
  rw [if_neg h.passes, he]

theorem State.memRequest_sram (he : s.memCheck b a (memSize o) = none) (hsram : inSram a (memSize o) = true) :
    s.memRequest tag b a o = s.sramAccess (s.memClass b) a o (.mem tag) := by
  unfold State.memRequest
  dsimp only
  rw [if_neg h.passes, he]
  exact if_pos hsram

/-- A request that its requester may make, of neither of the on-die memories. -/
theorem State.memRequest_dram (he : s.memCheck b a (memSize o) = none) (hsram : inSram a (memSize o) = false) (hboot : inBootSram a (memSize o) = false) :
    s.memRequest tag b a o = if (s.mchan (memChannel a)).noRoom = true then s.setMchan (memChannel a) fun m => { m with port := m.port ++ [(tag, b, a, o)] }
      else s.memQueue tag b a o := by
  unfold State.memRequest
  dsimp only
  rw [if_neg h.passes, he]
  simp only [hsram, hboot, Bool.false_eq_true, if_false]

end request

/-- What a request leaves in its channel's queue. -/
def State.memEntryOf (s : State) (tag : Nat) (b : MemBy) (a : Nat) (o : MemOp) : MemEntry :=
  { tag := tag, by_ := b, a := a, len := memSize o, write := none, old := s.rdMem a (memSize o), cls := s.memClass b, arr := s.now }

theorem State.poisoned_none {s : State} (h : s.poison = []) (a n : Nat) : s.poisoned a n = false := by simp [State.poisoned, h]

theorem State.memQueue_read {s : State} {tag : Nat} {b : MemBy} {a n : Nat} (hpoison : s.poison = []) (hwrite : (s.mchan (memChannel a)).holdsWrite a n = false) :
    s.memQueue tag b a (.read n) = s.setMchan (memChannel a) fun m => { m with queue := m.queue ++ [s.memEntryOf tag b a (.read n)] } := by
  simp only [State.memQueue, State.poisoned_none hpoison, hwrite, Bool.false_eq_true, if_false, State.memEntryOf]

/-- A read of bytes that a waiting write covers. -/
theorem State.memQueue_covered {s : State} {tag : Nat} {b : MemBy} {a n : Nat} (hpoison : s.poison = [])
    (hwrite : (s.mchan (memChannel a)).holdsWrite a n = true) : s.memQueue tag b a (.read n) = s.memAnswer tag (.data (s.rdMem a n)) := by
  simp only [State.memQueue, State.poisoned_none hpoison, hwrite, Bool.false_eq_true, if_false, if_true]

/-- The state that a queued write leaves. -/
def State.memWritten (s : State) (tag : Nat) (b : MemBy) (a : Nat) (d : Bytes) : State :=
  (s.wrMem a d).setMchan (memChannel a) fun m => { m with queue := m.queue ++ [{ s.memEntryOf tag b a (.write d) with write := some d }] }

theorem State.memQueue_write {s : State} {tag : Nat} {b : MemBy} {a : Nat} {d : Bytes} (hd : d ≠ []) (hline : a / 64 = (a + d.length - 1) / 64)
    (hdram : inSram a d.length = false) (hpoison : s.poison = []) (hreceipts : s.inReceipts a = false) :
    s.memQueue tag b a (.write d) = s.memWritten tag b a d := by
  simp only [State.memQueue, State.store_line hd hline hdram hpoison hreceipts, hreceipts, hpoison, List.contains_nil, Bool.false_and, Bool.or_self,
    Bool.false_eq_true, if_false, State.memWritten, State.memEntryOf]

theorem noRoom_eq_false {m : MemChan} (hqueue : m.queue.length < 96) (hport : m.port = []) : m.noRoom = false := by
  simp [MemChan.noRoom, hport, hqueue]

/-- A read of what a queued write has written is answered with it. -/
theorem exec_read_written {s : State} {tag : Nat} {b : MemBy} {a : Nat} {d : Bytes} (h : Whole s a (.write d)) (hspace : coreSpace a = false)
    (hsram : inSram a d.length = false) (hboot : inBootSram a d.length = false) (hqueue : (s.mchan (memChannel a)).queue.length < 95)
    (hport : (s.mchan (memChannel a)).port = []) (hpoison : s.poison = []) {tag' : Nat} {b' : MemBy} {t' : Nat} (hcheck : s.memCheck b' a d.length = none) :
    ∃ v, exec (.memRequest tag' b' a (.read d.length) t') (s.memWritten tag b a d) = .next v ∧ v.mem = (s.memWritten tag b a d).mem ∧
      v.memc.answers = s.memc.answers ++ [(tag', .data d)] := by
  have hwritten : Retimed s (s.memWritten tag b a d) := ⟨.of_regs rfl rfl, rfl⟩
  have hdata : (s.memWritten tag b a d).rdMem a d.length = d := s.rdMem_wrMem_same a d
  have hchan : (s.memWritten tag b a d).mchan (memChannel a) = _ := State.mchan_setMchan_same _ _ _
  have hnone : (s.memWritten tag b a d).poison = [] := hpoison
  have hanswers : (s.memWritten tag b a d).memc.answers = s.memc.answers := rfl
  generalize s.memWritten tag b a d = u at *
  have hu : Retimed u (u.atNs t') := u.retimed t'
  have hwhole : Whole (u.atNs t') a (.read d.length) := ⟨(hu.spineUp.trans hwritten.spineUp).trans h.spine, h.size, h.line⟩
  have hmay : (u.atNs t').memCheck b' a d.length = none := ((hu.memCheck _ _ _).trans (hwritten.memCheck _ _ _)).trans hcheck
  have hroom : ((u.atNs t').mchan (memChannel a)).noRoom = false := noRoom_eq_false (m := u.mchan (memChannel a))
    (by rw [hchan, List.length_append]; exact Nat.succ_lt_succ hqueue) (by rw [hchan]; exact hport)
  have hcovers : ((u.atNs t').mchan (memChannel a)).holdsWrite a d.length = true := by
    show (u.mchan (memChannel a)).holdsWrite a d.length = true
    rw [hchan]
    simp [MemChan.holdsWrite, State.memEntryOf, memSize]
  refine ⟨(u.atNs t').memAnswer tag' (.data d),
    congrArg Host.Outcome.next ((State.anyRequest_memory hspace).trans ((State.memRequest_dram hwhole hmay hsram hboot).trans ?_)), rfl, ?_⟩
  · rw [hroom, if_neg Bool.false_ne_true, State.memQueue_covered (s := u.atNs t') hnone hcovers]
    exact congrArg (fun x => (u.atNs t').memAnswer tag' (.data x)) hdata
  · show u.memc.answers ++ _ = _
    rw [hanswers]

end Sys2Proof.Machine
end

section
/-! SUPPORT. The pick of a channel, a burst that issues and a request that is promoted (Memory R400 to R407); and O41. -/

namespace Sys2Proof.Machine
open Reg

/-! ### The pick (Memory R400 to R403) -/

theorem MemChan.mem_of_sided {m : MemChan} {l : List MemEntry} {x : MemEntry} (h : x ∈ m.sided l) : x ∈ l := by
  unfold MemChan.sided at h
  dsimp only at h
  split at h <;> split at h <;> exact List.mem_of_mem_filter h

/-- A side is chosen that has requests. -/
theorem MemChan.sided_eq_nil {m : MemChan} {l : List MemEntry} (h : m.sided l = []) : l = [] := by
  have hboth : ∀ r w : List MemEntry, (if r.isEmpty = true then w else r) = [] → r = [] ∧ w = [] := fun r w k => by
    cases r with
    | nil => exact ⟨rfl, k⟩
    | cons x r => exact absurd k (List.cons_ne_nil x r)
  have hsides : (l.filter fun e => e.write.isSome) = [] ∧ (l.filter fun e => e.write.isNone) = [] := by
    unfold MemChan.sided at h
    dsimp only at h
    split at h
    · exact (hboth _ _ h).symm
    · exact hboth _ _ h
  refine List.eq_nil_iff_forall_not_mem.2 fun x hx => ?_
  cases hw : x.write with
  | some d => exact List.not_mem_nil (hsides.1 ▸ List.mem_filter.2 ⟨hx, by rw [hw]; rfl⟩)
  | none => exact List.not_mem_nil (hsides.2 ▸ List.mem_filter.2 ⟨hx, by rw [hw]; rfl⟩)

theorem mem_of_pickRow {rows : List Nat} {hits : Nat} {l : List MemEntry} {x : MemEntry × Nat} (h : pickRow rows hits l = some x) : x.1 ∈ l := by
  cases l with
  | nil => cases h
  | cons first l =>
    unfold pickRow at h
    dsimp only at h
    split at h
    · next e he =>
      cases h
      split at he
      · exact List.mem_of_find?_eq_some he
      · cases he
    · cases h
      exact List.mem_cons_self

theorem pickRow_eq_none {rows : List Nat} {hits : Nat} {l : List MemEntry} (h : pickRow rows hits l = none) : l = [] := by
  cases l with
  | nil => rfl
  | cons first l =>
    unfold pickRow at h
    dsimp only at h
    split at h <;> cases h

/-- What a channel may issue of a class, unpromoted: the side whose turn it is. -/
def State.plainOf (s : State) (c k : Nat) : List MemEntry :=
  (s.mchan c).sided ((((s.mchan c).queue.filter s.memMay).filter fun e => e.cls == k).filter fun e => !e.promoted)

theorem State.mem_of_plainOf {s : State} {c k : Nat} {x : MemEntry} (h : x ∈ s.plainOf c k) :
    x ∈ (s.mchan c).queue ∧ s.memMay x = true ∧ x.cls = k ∧ x.promoted = false := by
  have hx := MemChan.mem_of_sided h
  simp only [List.mem_filter, beq_iff_eq, Bool.not_eq_true'] at hx
  exact ⟨hx.1.1.1, hx.1.1.2, hx.1.2, hx.2⟩

theorem State.plainOf_eq_nil {s : State} {c k : Nat} (h : s.plainOf c k = []) {x : MemEntry} (hx : x ∈ (s.mchan c).queue) (hmay : s.memMay x = true)
    (hp : x.promoted = false) : x.cls ≠ k := fun hk =>
  List.eq_nil_iff_forall_not_mem.1 (MemChan.sided_eq_nil h) x (by simp [hx, hmay, hp, hk])

/-- The request that a channel picks may issue, is express where one of express class may, and in class order is of the lowest class that may issue, unless it
has been promoted. -/
structure Picked (s : State) (c : Nat) (e : MemEntry) : Prop where
  queued : e ∈ (s.mchan c).queue
  may : s.memMay e = true
  express : (∃ x ∈ (s.mchan c).queue, x.cls = 0 ∧ s.memMay x = true) → e.cls = 0
  ordered : s.on (MEMCTL_CHAN_ORDER_MODE c) = false → e.promoted = false → ∀ x ∈ (s.mchan c).queue, s.memMay x = true → x.cls ≤ 3 → e.cls ≤ x.cls

theorem Picked.of_express {s : State} {c : Nat} {e : MemEntry} (hq : e ∈ (s.mchan c).queue) (hmay : s.memMay e = true) (hcls : e.cls = 0) : Picked s c e :=
  ⟨hq, hmay, fun _ => hcls, fun _ _ _ _ _ _ => by omega⟩

section pick
variable {s : State} {c : Nat} {rows : List Nat} {e : MemEntry} {hits bank : Nat}

/-- In order of age. -/
theorem State.memPick_aged (h : s.memPick c rows = some (e, hits, bank)) (hmode : s.on (MEMCTL_CHAN_ORDER_MODE c) = true) : Picked s c e := by
  have hqueue : ∀ p : MemEntry → Bool, ∀ x, x ∈ ((s.mchan c).queue.filter s.memMay).filter p → x ∈ (s.mchan c).queue ∧ s.memMay x = true ∧ p x = true :=
    fun p x hx => by
      simp only [List.mem_filter] at hx
      exact ⟨hx.1.1, hx.1.2, hx.2⟩
  have hexpress : ((s.mchan c).queue.filter s.memMay).filter (fun e => e.cls == 0) = [] →
      (∃ x ∈ (s.mchan c).queue, x.cls = 0 ∧ s.memMay x = true) → e.cls = 0 := fun hnone ⟨x, hx, hcls, hmay⟩ =>
    absurd (show x ∈ _ by simp [hx, hmay, hcls]) (List.eq_nil_iff_forall_not_mem.1 hnone x)
  have hordered : s.on (MEMCTL_CHAN_ORDER_MODE c) = false → e.promoted = false → ∀ x ∈ (s.mchan c).queue, s.memMay x = true → x.cls ≤ 3 → e.cls ≤ x.cls :=
    fun hoff => absurd hoff (by rw [hmode]; exact Bool.noConfusion)
  unfold State.memPick at h
  dsimp only at h
  rw [if_pos hmode] at h
  cases hzero : ((s.mchan c).queue.filter s.memMay).filter fun e => e.cls == 0 with
  | cons x l =>
    rw [hzero] at h
    cases h
    obtain ⟨hq, hmay, hcls⟩ := hqueue _ e (hzero ▸ List.mem_cons_self)
    exact .of_express hq hmay (beq_iff_eq.1 hcls)
  | nil =>
    rw [hzero] at h
    cases hpromoted : ((s.mchan c).queue.filter s.memMay).filter fun e => e.promoted with
    | cons x l =>
      rw [hpromoted] at h
      cases h
      obtain ⟨hq, hmay, -⟩ := hqueue _ e (hpromoted ▸ List.mem_cons_self)
      exact ⟨hq, hmay, hexpress hzero, hordered⟩
    | nil =>
      rw [hpromoted] at h
      obtain ⟨x, hx, hxe⟩ := Option.map_eq_some_iff.1 h
      obtain ⟨i, -, hi⟩ := List.exists_of_findSome?_eq_some hx
      cases hxe
      obtain ⟨hq, hmay, -⟩ := hqueue _ e (List.mem_of_find?_eq_some hi)
      exact ⟨hq, hmay, hexpress hzero, hordered⟩

/-- In order of class. -/
theorem State.memPick_classed (h : s.memPick c rows = some (e, hits, bank)) (hmode : s.on (MEMCTL_CHAN_ORDER_MODE c) = false) : Picked s c e := by
  unfold State.memPick at h
  dsimp only at h
  rw [hmode, if_neg Bool.false_ne_true] at h
  split at h
  · next x hx =>
    cases h
    have he := MemChan.mem_of_sided (mem_of_pickRow hx)
    simp only [List.mem_filter, beq_iff_eq] at he
    exact .of_express he.1.1 he.1.2 he.2
  · next hnone =>
    have hexpress : ∀ x ∈ (s.mchan c).queue, s.memMay x = true → x.cls ≠ 0 := fun x hx hmay hcls =>
      List.eq_nil_iff_forall_not_mem.1 (MemChan.sided_eq_nil (pickRow_eq_none hnone)) x (by simp [hx, hmay, hcls])
    split at h
    · next x l hl =>
      cases h
      have he : e ∈ ((s.mchan c).queue.filter s.memMay).filter fun e => e.promoted := hl ▸ List.mem_cons_self
      simp only [List.mem_filter] at he
      exact ⟨he.1.1, he.1.2, fun ⟨x, hx, hcls, hmay⟩ => absurd hcls (hexpress x hx hmay), fun _ hp => absurd he.2 (by rw [hp]; exact Bool.false_ne_true)⟩
    · next hpromoted =>
      have hplain : ∀ x ∈ (s.mchan c).queue, s.memMay x = true → x.promoted = false := fun x hx hmay => by
        cases hp : x.promoted with
        | false => rfl
        | true => exact absurd (List.mem_filter.2 ⟨List.mem_filter.2 ⟨hx, hmay⟩, hp⟩) (List.eq_nil_iff_forall_not_mem.1 hpromoted x)
      obtain ⟨x, hx, hxe⟩ := Option.map_eq_some_iff.1 h
      cases hxe
      obtain ⟨before, k, after, hlist, hk, hearlier⟩ := List.findSome?_eq_some_iff.1 hx
      obtain ⟨hq, hmay, hcls, -⟩ := State.mem_of_plainOf (mem_of_pickRow hk)
      refine ⟨hq, hmay, fun ⟨x, hx, hcls, hmay⟩ => absurd hcls (hexpress x hx hmay), fun _ _ y hy hymay hle => ?_⟩
      by_contra hlt
      have hpos := Nat.pos_of_ne_zero (hexpress y hy hymay)
      have hbefore : y.cls ∈ before := by
        match before, hlist with
        | [], hlist => simp at hlist; omega
        | [_], hlist => simp at hlist ⊢; omega
        | [_, _], hlist => simp at hlist ⊢; omega
        | _ :: _ :: _ :: _, hlist => simp at hlist
      exact State.plainOf_eq_nil (pickRow_eq_none (hearlier _ hbefore)) hy hymay (hplain y hy hymay) rfl

theorem State.memPick_picked (h : s.memPick c rows = some (e, hits, bank)) : Picked s c e := by
  cases hmode : s.on (MEMCTL_CHAN_ORDER_MODE c) with
  | true => exact State.memPick_aged h hmode
  | false => exact State.memPick_classed h hmode

end pick

/-! ### A burst (Memory R404, R406) -/

theorem State.memConfirm_frame (s : State) (c : Nat) : (s.memConfirm c).mem = s.mem ∧ (s.memConfirm c).regs = s.regs ∧ (s.memConfirm c).rnd = s.rnd := by
  unfold State.memConfirm
  split <;> exact ⟨rfl, rfl, rfl⟩

/-- The picked request has moved to the retry buffer. -/
def State.burstMoved (s : State) (c : Nat) (e : MemEntry) (hits bank : Nat) : State :=
  (s.memCharge e).setMchan c fun m =>
    let q := m.queue.filter fun x => x != e
    let d := if m.drain = 0 && m.full then 16 else m.drain
    { m with queue := q, retry := m.retry ++ [{ e with issued := (s.memCharge e).now }], hits := hits, bank := bank, drain := if e.write.isSome then d - 1 else d }

theorem State.burst_none {s : State} {c : Nat} {rows : List Nat} (h : 32 ≤ ((s.memConfirm c).mchan c).retry.length ∨ (s.memConfirm c).memPick c rows = none) :
    s.burst c rows = s.memConfirm c := by
  unfold State.burst
  dsimp only
  split
  · rfl
  · next hroom =>
    rw [h.resolve_left hroom]

theorem State.memCharge_spent (s : State) (e : MemEntry) : Spent s (s.memCharge e) := Spent.memSpend _ _ _ _ _

theorem State.memCharge_now (s : State) (e : MemEntry) : (s.memCharge e).now = s.now := by
  have hround : (s.memCharge e).round = s.round := congrArg BitVec.toNat ((s.memCharge_spent e).rd ROUND_COUNT (by decide))
  rw [State.now, hround, (s.memCharge_spent e).rnd, State.now]

theorem State.memCharge_mchan (s : State) (e : MemEntry) (c : Nat) : (s.memCharge e).mchan c = s.mchan c := rfl

theorem State.memCharge_bytes (s : State) (e : MemEntry) :
    (s.memCharge e).rdN (MEMCTL_CLASS_BYTES e.cls) = min (s.rdN (MEMCTL_CLASS_BYTES e.cls) + e.len) (2 ^ 64 - 1) := by
  refine (State.rdN_wrN_same _ _ _).trans (Nat.mod_eq_of_lt ?_)
  exact Nat.lt_of_le_of_lt (Nat.min_le_right _ _) (by decide)

/-- A burst of the picked request. -/
theorem State.burst_some {s : State} {c : Nat} {rows : List Nat} {e : MemEntry} {hits bank : Nat} (hroom : (((s.memConfirm c).mchan c).retry.length < 32))
    (hport : ((s.memConfirm c).mchan c).port = []) (hpick : (s.memConfirm c).memPick c rows = some (e, hits, bank)) :
    s.burst c rows = if e.write.isSome = true then ((s.memConfirm c).burstMoved c e hits bank).memAnswer e.tag .written
      else (s.memConfirm c).burstMoved c e hits bank := by
  unfold State.burst
  dsimp only
  rw [if_neg (Nat.not_le.2 hroom), hpick]
  generalize s.memConfirm c = z at *
  have hmoved : ((z.burstMoved c e hits bank).mchan c).port = [] := by rw [State.burstMoved, State.mchan_setMchan_same]; exact hport
  show (State.portEnter (if e.write.isSome = true then (z.burstMoved c e hits bank).memAnswer e.tag .written else z.burstMoved c e hits bank) c _) = _
  have hnone : ((if e.write.isSome = true then (z.burstMoved c e hits bank).memAnswer e.tag .written else z.burstMoved c e hits bank).mchan c).port = [] := by
    split <;> exact hmoved
  show State.portEnter _ c (((if e.write.isSome = true then (z.burstMoved c e hits bank).memAnswer e.tag .written else z.burstMoved c e hits bank).mchan c).port).length = _
  rw [hnone]
  rfl

/-- What a burst leaves. -/
theorem State.burst_spec {s : State} {c : Nat} {rows : List Nat} {e : MemEntry} {hits bank : Nat} (hroom : ((s.memConfirm c).mchan c).retry.length < 32)
    (hport : ((s.memConfirm c).mchan c).port = []) (hpick : (s.memConfirm c).memPick c rows = some (e, hits, bank)) :
    ((s.burst c rows).mchan c).queue = ((s.memConfirm c).mchan c).queue.filter (· != e) ∧
      ((s.burst c rows).mchan c).retry = ((s.memConfirm c).mchan c).retry ++ [{ e with issued := (s.memConfirm c).now }] ∧ (s.burst c rows).mem = s.mem ∧
      (s.burst c rows).rdN (MEMCTL_CLASS_BYTES e.cls) = min ((s.memConfirm c).rdN (MEMCTL_CLASS_BYTES e.cls) + e.len) (2 ^ 64 - 1) := by
  have hmem := (s.memConfirm_frame c).1
  rw [State.burst_some hroom hport hpick]
  generalize s.memConfirm c = z at *
  have hmoved : (z.burstMoved c e hits bank).mchan c = _ := State.mchan_setMchan_same _ _ _
  have hbytes : (z.burstMoved c e hits bank).rdN (MEMCTL_CLASS_BYTES e.cls) = _ := z.memCharge_bytes e
  have hkept : (z.burstMoved c e hits bank).mem = s.mem := (z.memCharge_spent e).mem.trans hmem
  have hqueue : ((z.burstMoved c e hits bank).mchan c).queue = (z.mchan c).queue.filter (· != e) := by rw [hmoved]; rfl
  have hretry : ((z.burstMoved c e hits bank).mchan c).retry = (z.mchan c).retry ++ [{ e with issued := z.now }] := by
    rw [hmoved, z.memCharge_now e]
    rfl
  generalize z.burstMoved c e hits bank = u at *
  split
  · exact ⟨hqueue, hretry, hkept, hbytes⟩
  · exact ⟨hqueue, hretry, hkept, hbytes⟩

end Sys2Proof.Machine
end

section
/-! SUPPORT. Promotion (Memory R402) and a core's read of register space; and O41. -/

namespace Sys2Proof.Machine
open Reg

theorem State.accReport_memc (s : State) (e : AccErr) : (s.accReport e).memc = s.memc := by
  cases e with
  | window => rfl
  | poison => rfl
  | unpopulated a => exact s.report_memc _
  | region a => exact s.report_memc _
  | domainDown d => exact s.report_memc _
  | host => exact s.report_memc _

/-! ### Promotion (Memory R402) -/

/-- The age limit of a request's class. -/
def State.ageLimit (s : State) (e : MemEntry) : Nat := if e.cls = 0 then 0 else s.get (MEMCTL_AGE_LIMIT_ROUNDS (e.cls - 1))

/-- The state in which a request has been promoted. -/
def State.memPromoted (s : State) (c tag : Nat) (e : MemEntry) : State :=
  (s.setMchan c fun m => { m with queue := m.queue.map fun x => if x.tag = tag then { x with promoted := true } else x }).addSat (MEMCTL_PROMOTED e.cls) 1

theorem State.memPromote_eq {s : State} {c tag : Nat} {e : MemEntry} (h : (s.mchan c).queue.find? (fun e => e.tag == tag) = some e) :
    s.memPromote c tag = if (e.promoted || decide (s.ageLimit e = 0) || decide (s.now ≤ e.arr + s.ageLimit e * 1000)) = true then s else s.memPromoted c tag e := by
  rw [State.memPromote, h]
  rfl

theorem State.memPromoted_spec (s : State) (c tag : Nat) (e : MemEntry) :
    ((s.memPromoted c tag e).mchan c).queue = (s.mchan c).queue.map (fun x => if x.tag = tag then { x with promoted := true } else x) ∧
      (s.memPromoted c tag e).rdN (MEMCTL_PROMOTED e.cls) = min (s.rdN (MEMCTL_PROMOTED e.cls) + 1) 0xFFFFFFFF ∧ (s.memPromoted c tag e).mem = s.mem := by
  refine ⟨?_, ?_, rfl⟩
  · have hchan := State.mchan_setMchan_same s c fun m => { m with queue := m.queue.map fun x => if x.tag = tag then { x with promoted := true } else x }
    exact congrArg MemChan.queue hchan
  · refine (State.rdN_wrN_same _ _ _).trans (Nat.mod_eq_of_lt ?_)
    exact Nat.lt_of_le_of_lt (Nat.min_le_right _ _) (by decide)

/-! ### Requests of cores (Memory Table 12.3) -/

/-- A core's read of register space is answered with what the register gives. -/
theorem exec_read_registers {s : State} {q : Req} {a n : Nat} (hq : Machine.Req.onModule q = true) (hlo : 0xF000000000 ≤ a) (hhi : a < 0xF001000000)
    (hn : n = 1 ∨ n = 2 ∨ n = 4 ∨ n = 8) (tag t : Nat) :
    let z := ((s.atNs t).giveRead 0).regRead q (a - 0xF000000000) n
    exec (.memRequest tag (.host q) a (.read n) t) s = .next (z.memAnswer tag (.data (leBytes n z.bus.data))) := by
  intro z
  have hspace : (Machine.Req.onModule q && coreSpace a) = true := by
    rw [hq, coreSpace, Bool.true_and, Bool.and_eq_true, decide_eq_true_eq, decide_eq_true_eq]
    exact ⟨hlo, Nat.lt_trans hhi (by decide)⟩
  have hsize : ¬(!([1, 2, 4, 8].contains n)) = true := by
    rcases hn with rfl | rfl | rfl | rfl <;> decide
  have hop : ((s.atNs t).giveRead 0).coreOp q a n none = z := if_pos hhi
  have haccess : (s.atNs t).coreAccess tag q a (.read n) = z.memAnswer tag (.data (leBytes n z.bus.data)) := by
    rw [State.coreAccess, memSize]
    dsimp only
    rw [if_neg hsize, hop]
  exact congrArg Host.Outcome.next ((if_pos hspace).trans haccess)

/-- Settles O41: a request by what its address is, then the pick of a channel, a burst and a promotion. -/
theorem memoryRequestsTakeEffectInOrderAndIssueByClass : Obligations.MemoryRequestsTakeEffectInOrderAndIssueByClass := by
  intro s
  refine ⟨fun tag b a o t hspine hsize hline hspace => ?requests, fun tag q a n t hq hlo hhi hn => ⟨_, exec_read_registers hq hlo hhi hn tag t, rfl, rfl⟩,
    fun hspine c rows tag t => ?asleep, fun hspine c rows t => ?bursts, fun hspine c tag t e hfind hexpress hcls hplain => ?promotes⟩
  case requests =>
    have hz : Retimed s (s.atNs t) := s.retimed t
    have hwhole : Whole (s.atNs t) a o := ⟨hz.spineUp.trans hspine, hsize, hline⟩
    have hexec : exec (.memRequest tag b a o t) s = .next ((s.atNs t).memRequest tag b a o) :=
      congrArg Host.Outcome.next (State.anyRequest_memory hspace)
    have hcheck : (s.atNs t).memCheck b a (memSize o) = s.memCheck b a (memSize o) := hz.memCheck b a _
    rw [hexec, ← hcheck]
    refine ⟨fun e he => ?_, fun d he hsram hheld => ?_, fun he hsram hboot hfull => ?_, fun he hsram hboot hqueue hport hpoison hreceipts => ?_⟩
    · rw [State.memRequest_refused hwhole he]
      refine ⟨_, rfl, ((s.atNs t).accReport_spares e).1, ?_, ?_⟩
      · show (State.accReport _ e).memc.answers ++ _ = _
        rw [State.accReport_memc]
        rfl
      · show (State.accReport _ e).memc.chans = _
        rw [State.accReport_memc]
        rfl
    · rw [State.memRequest_sram hwhole he hsram, State.sramAccess, show (s.atNs t).heldBy' a = some d from hheld]
      exact ⟨_, rfl, rfl, rfl, rfl⟩
    · rw [State.memRequest_dram hwhole he hsram hboot, if_pos (show ((s.atNs t).mchan (memChannel a)).noRoom = true from hfull)]
      refine ⟨_, rfl, rfl, ?_, ?_, rfl⟩
      · rw [State.mchan_setMchan_same]
        rfl
      · rw [State.mchan_setMchan_same]
        rfl
    · have hroom : ((s.atNs t).mchan (memChannel a)).noRoom = false := noRoom_eq_false (m := s.mchan (memChannel a)) (by omega) hport
      rw [State.memRequest_dram hwhole he hsram hboot, hroom, if_neg Bool.false_ne_true]
      refine ⟨fun n ho hwrite => ?_, fun d ho => ?_⟩
      · subst ho
        rw [State.memQueue_read (s := s.atNs t) hpoison hwrite]
        refine ⟨_, (s.atNs t).memEntryOf tag b a (.read n), rfl, rfl, ?_, rfl, rfl, rfl, hz.memClass b, rfl, rfl⟩
        rw [State.mchan_setMchan_same]
        rfl
      · subst ho
        have hd : d ≠ [] := fun h => hsize (by rw [h]; rfl)
        have hopen : (s.atNs t).inReceipts a = false := by
          rw [State.inReceipts, hz.regs.cfgOn _ (by decide), hreceipts, Bool.false_and]
        rw [State.memQueue_write (s := s.atNs t) hd hline hsram hpoison hopen]
        refine ⟨_, { (s.atNs t).memEntryOf tag b a (.write d) with write := some d }, rfl, (s.atNs t).rdMem_wrMem_same a d,
          fun z hout => (s.atNs t).byte_wrMem_other a z d hout, ?_, rfl, hz.memClass b, rfl, fun tag' b' t' hmay => ?_⟩
        · rw [State.memWritten, State.mchan_setMchan_same]
          rfl
        · exact exec_read_written (s := s.atNs t) hwhole hspace hsram hboot hqueue hport hpoison ((hz.memCheck b' a _).trans hmay)
  case asleep =>
    have hdown : ¬s.spineUp = true := by rw [hspine]; exact Bool.false_ne_true
    exact ⟨congrArg Host.Outcome.next (if_neg hdown), congrArg Host.Outcome.next (if_neg hdown)⟩
  case bursts =>
    have hexec : exec (.memBurstIssue c rows t) s = .next ((s.atNs t).burst c rows) := congrArg Host.Outcome.next (if_pos hspine)
    intro z
    refine ⟨fun e h p hroom hport hpick => ?_, fun h => ?_⟩
    · obtain ⟨hqueue, hretry, hmem, hbytes⟩ := State.burst_spec hroom hport hpick
      have hpicked := State.memPick_picked hpick
      have hmode : z.on (MEMCTL_CHAN_ORDER_MODE c) = s.on (MEMCTL_CHAN_ORDER_MODE c) := by
        have hregs : z.on (MEMCTL_CHAN_ORDER_MODE c) = (s.atNs t).on (MEMCTL_CHAN_ORDER_MODE c) := by
          rw [State.on, State.get, State.rd, ((s.atNs t).memConfirm_frame c).2.1]
          rfl
        rw [hregs, (s.retimed t).regs.on _ (by show 0x200100 + 0x4 * c.val ≠ 0x10008; omega)]
      exact ⟨_, hexec, hqueue, hretry, hmem, hpicked.queued, hpicked.may, hbytes, hpicked.express, fun hoff => hpicked.ordered (hmode.trans hoff)⟩
    · refine ⟨_, hexec, ?_, ?_⟩
      · rw [State.burst_none h]
      · rw [State.burst_none h]
        exact ((s.atNs t).memConfirm_frame c).1
  case promotes =>
    have hexec : exec (.memPromote c tag t) s = .next ((s.atNs t).memPromote c tag) := congrArg Host.Outcome.next (if_pos hspine)
    have hlimit : (s.atNs t).ageLimit e = s.get (MEMCTL_AGE_LIMIT_ROUNDS (e.cls - 1)) :=
      (if_neg hexpress).trans ((s.retimed t).regs.get _ (by show 0x200144 + 0x4 * (e.cls - 1) ≠ 0x10008; omega))
    have hcount : (s.atNs t).rdN (MEMCTL_PROMOTED e.cls) = s.rdN (MEMCTL_PROMOTED e.cls) :=
      (s.retimed t).regs.rdN _ (by show 0x200240 + 0x4 * e.cls ≠ 0x10008; omega)
    rw [hexec, State.memPromote_eq (s := s.atNs t) hfind, hlimit, hplain]
    intro lim
    refine ⟨fun hlim hold => ?_, fun hyoung => ?_⟩
    · rw [if_neg (by simp [lim, hlim]; exact hold)]
      obtain ⟨hqueue, hpromoted, hmem⟩ := (s.atNs t).memPromoted_spec c tag e
      exact ⟨_, rfl, hqueue, hpromoted.trans (by rw [hcount]), hmem⟩
    · rw [if_pos (by simpa [lim] using hyoung)]
      exact ⟨_, rfl, rfl, fun o ho => (s.retimed t).regs.rd o ho⟩

end Sys2Proof.Machine
end

section
/-! SUPPORT. Alarms (Power cap R497), and the samples of voltage and process monitors (Power cap R494, R495). -/

namespace Sys2Proof.Machine
open Reg

@[simp] theorem State.mon_setMon_same (s : State) (m : Nat) (f : MonSt → MonSt) : (s.setMon m f).mon m = f (s.mon m) := SMap.get_set_same _ _ _ _
theorem State.mon_setMon_other (s : State) {m j : Nat} (f : MonSt → MonSt) (h : j ≠ m) : (s.setMon m f).mon j = s.mon j := SMap.get_set_other _ _ _ _ _ h

theorem State.mon_report (s : State) (e : Err) (m : Nat) : (s.report e).mon m = s.mon m := by rw [State.mon, s.report_gov, State.mon]

/-! ### Reports (Errors R588) -/

/-- The bits of STATUS that stand for a class. -/
def ClassBit (g : Fld) : Prop := ∃ i, i < 4 ∧ g = ⟨ERROR_STATUS, i, i⟩

theorem classBit_note : ClassBit ERROR_STATUS_NOTE := ⟨0, by decide, rfl⟩
theorem classBit_contained : ClassBit ERROR_STATUS_CONTAINED := ⟨1, by decide, rfl⟩
theorem classBit_degraded : ClassBit ERROR_STATUS_DEGRADED := ⟨2, by decide, rfl⟩
theorem classBit_fatal : ClassBit ERROR_STATUS_FATAL := ⟨3, by decide, rfl⟩

theorem State.on_putB_classBit (s : State) {f g : Fld} (hf : ClassBit f) (hg : ClassBit g) (hs : s.on g = true) : (s.putB f true).on g = true := by
  obtain ⟨i, hi, rfl⟩ := hf
  obtain ⟨j, hj, rfl⟩ := hg
  by_cases h : i = j
  · subst h
    exact State.on_putB_same s _ true rfl (by show i < 64; omega)
  · exact (congrArg (· != 0) (State.get_put_apart s ⟨ERROR_STATUS, i, i⟩ ⟨ERROR_STATUS, j, j⟩ _ (Nat.le_refl i) (by show i < 64; omega)
      (by show i < j ∨ j < i; omega))).trans hs

/-- A class bit that is set stays set over a report of any class below FATAL. -/
theorem State.on_report_stays (s : State) (e : Err) {c : ErrClass} (hc : errClass e.code = some c) (hf : c ≠ .fatal) {g : Fld} (hg : ClassBit g)
    (hs : s.on g = true) : (s.report e).on g = true := by
  have hspared : SparedByRecords g := by
    obtain ⟨i, hi, rfl⟩ := hg
    refine ⟨by show ERROR_STATUS ≠ _; decide, fun k hk => ?_, fun _ => by show i < 8; omega⟩
    show 0xd00004 ≠ ERROR_LOST k
    unfold ERROR_LOST
    omega
  rw [State.on, s.get_report_spared e hc hf hspared]
  cases c with
  | note => exact s.on_putB_classBit classBit_note hg hs
  | contained => exact s.on_putB_classBit classBit_contained hg hs
  | degraded => exact s.on_putB_classBit classBit_degraded hg hs
  | fatal => exact absurd rfl hf

/-! ### The alarm test (Power cap R497) -/

/-- The sample lies outside the pair of levels. -/
def State.alarmOut (s : State) (m raw : Nat) : Bool :=
  decide (levelOf m (s.get (MONITOR_ALARM_HI_LEVEL m)) < levelOf m raw) || decide (levelOf m raw < levelOf m (s.get (MONITOR_ALARM_LO_LEVEL m)))

/-- What a monitor counts of a sample that is outside its pair of levels, or not. -/
def MonSt.sampled (x : MonSt) (outside : Bool) : MonSt :=
  { x with out := if outside then min 4 (x.out + 1) else 0
           inn := if outside then 0 else min 4 (x.inn + 1)
           fired := x.fired && decide ((if outside then 0 else min 4 (x.inn + 1)) < 4) }

/-- A sample fires the alarm of its monitor. -/
def State.alarmFires (s : State) (m : Nat) (y : MonSt) : Bool := s.cfgOn (MONITOR_ALARM_HI_EN m) && decide (4 ≤ y.out) && !y.fired

/-- The state in which the alarm of a monitor has fired. -/
def State.alarmFired (s : State) (m : Nat) : State :=
  ((s.setMon m fun x => { x with fired := true }).setBit (MONITOR_ALARM_STATUS (m / 32)) (m % 32) true).report { code := Code.MON_ALARM, unit := m }

theorem State.alarmTest_eq (s : State) (m raw : Nat) : s.alarmTest m raw =
    if s.alarmFires m ((s.mon m).sampled (s.alarmOut m raw)) = true then (s.setMon m fun x => x.sampled (s.alarmOut m raw)).alarmFired m
    else s.setMon m fun x => x.sampled (s.alarmOut m raw) := rfl

theorem State.alarmFired_spec (s : State) {m : Nat} (hm : m < 144) : nbit ((s.alarmFired m).rdN (MONITOR_ALARM_STATUS (m / 32))) (m % 32) = true ∧
    (s.alarmFired m).on ERROR_STATUS_NOTE = true ∧ ((s.alarmFired m).mon m) = { s.mon m with fired := true } := by
  refine ⟨?_, State.on_report_note _ _ rfl, ?_⟩
  · have hrd : ∀ u : State, (u.report { code := Code.MON_ALARM, unit := m }).rdN (MONITOR_ALARM_STATUS (m / 32)) = u.rdN (MONITOR_ALARM_STATUS (m / 32)) := fun u =>
      congrArg BitVec.toNat (u.rd_report _ _ (by unfold MONITOR_ALARM_STATUS SECURE_SEC_NOTIFY; omega) (by unfold MONITOR_ALARM_STATUS; omega))
    rw [State.alarmFired, hrd]
    exact State.nbit_setBit _ _ true (by omega)
  · rw [State.alarmFired, State.mon_report]
    have hbit : ∀ (u : State) (o i : Nat) (b : Bool), (u.setBit o i b).mon m = u.mon m := fun _ _ _ _ => rfl
    rw [hbit, State.mon_setMon_same]

/-! ### What a sample leaves alone -/

/-- `t` is `s` but for alarms, ceilings and reports: memory, the readings, the trip and what has been reported are as they were. -/
structure Unalarmed (s t : State) : Prop where
  mem : t.mem = s.mem
  reading : ∀ o, 0xB00000 ≤ o → o < 0xB01400 → t.rd o = s.rd o
  tripped : t.on POWER_THERMAL_STATUS_TRIPPED = s.on POWER_THERMAL_STATUS_TRIPPED
  raised : ∀ g, ClassBit g → s.on g = true → t.on g = true
  trip : ∀ m, (t.mon m).trip = (s.mon m).trip

namespace Unalarmed
variable {s t u : State}

theorem refl (s : State) : Unalarmed s s := ⟨rfl, fun _ _ _ => rfl, rfl, fun _ _ h => h, fun _ => rfl⟩

theorem trans (h : Unalarmed s t) (k : Unalarmed t u) : Unalarmed s u :=
  ⟨k.mem.trans h.mem, fun o hlo hhi => (k.reading o hlo hhi).trans (h.reading o hlo hhi), k.tripped.trans h.tripped, fun g hg hs => k.raised g hg (h.raised g hg hs),
    fun m => (k.trip m).trans (h.trip m)⟩

theorem each {α : Type} {f : State → α → State} {l : List α} (hf : ∀ u, ∀ x ∈ l, Unalarmed u (f u x)) (s : State) : Unalarmed s (s.each l f) := by
  induction l generalizing s with
  | nil => exact refl s
  | cons x l ih => exact (hf s x List.mem_cons_self).trans (ih (fun u y hy => hf u y (List.mem_cons_of_mem _ hy)) _)

variable (h : Unalarmed s t)
include h

theorem on (g : Fld) (hlo : 0xB00000 ≤ g.reg) (hhi : g.reg < 0xB01400) : t.on g = s.on g := by
  rw [State.on, State.get, h.reading _ hlo hhi, State.on, State.get]

theorem get (g : Fld) (hlo : 0xB00000 ≤ g.reg) (hhi : g.reg < 0xB01400) : t.get g = s.get g := by
  rw [State.get, h.reading _ hlo hhi, State.get]

/-- A write of a register that is none of the readings and neither THERMAL_STATUS nor ERROR.STATUS. -/
theorem wr {o : Nat} {v : Word} (ho : o < 0xB00000 ∨ 0xB01400 ≤ o) (htherm : o ≠ POWER_THERMAL_STATUS) (hstatus : o ≠ ERROR_STATUS) : Unalarmed s (t.wr o v) :=
  h.trans ⟨rfl, fun i hlo hhi => t.rd_wr_other o i v (by omega), by rw [State.on, State.get_wr_other _ _ _ _ (Ne.symm htherm), State.on],
    fun g hg hs => by
      obtain ⟨i, hi, rfl⟩ := hg
      rw [State.on, State.get_wr_other _ _ _ _ (Ne.symm hstatus)]
      exact hs, fun _ => rfl⟩

theorem put {f : Fld} {n : Nat} (ho : f.reg < 0xB00000 ∨ 0xB01400 ≤ f.reg) (htherm : f.reg ≠ POWER_THERMAL_STATUS) (hstatus : f.reg ≠ ERROR_STATUS) :
    Unalarmed s (t.put f n) := h.wr ho htherm hstatus

/-- A field of THERMAL_STATUS other than TRIPPED. -/
theorem putThermal {f : Fld} {n : Nat} (hreg : f.reg = POWER_THERMAL_STATUS) (hl : f.lo ≤ f.hi) (hh : f.hi < 64) (hout : f.hi < 30 ∨ 30 < f.lo) :
    Unalarmed s (t.put f n) := by
  refine h.trans ⟨rfl, fun i hlo hhi => t.rd_put_other f n i ?_, congrArg (· != 0) ?_, fun g hg hs => ?_, fun _ => rfl⟩
  · rw [hreg]
    unfold POWER_THERMAL_STATUS
    omega
  · have hf : f = ⟨POWER_THERMAL_STATUS, f.hi, f.lo⟩ := by rw [← hreg]
    rw [hf]
    exact State.get_put_apart t ⟨POWER_THERMAL_STATUS, f.hi, f.lo⟩ POWER_THERMAL_STATUS_TRIPPED n hl hh hout
  · obtain ⟨i, hi, rfl⟩ := hg
    have hne : ERROR_STATUS ≠ f.reg := by rw [hreg]; decide
    rw [State.on, State.get_put_other _ _ _ _ hne]
    exact hs

theorem setMon {m : Nat} {f : MonSt → MonSt} (hf : ∀ x, (f x).trip = x.trip) : Unalarmed s (t.setMon m f) := by
  refine h.trans ⟨rfl, fun _ _ _ => rfl, rfl, fun _ _ hs => hs, fun j => ?_⟩
  by_cases hj : j = m
  · subst hj
    rw [State.mon_setMon_same]
    exact hf _
  · rw [State.mon_setMon_other _ _ hj]

theorem report {e : Err} {c : ErrClass} (hc : errClass e.code = some c) (hf : c ≠ .fatal) : Unalarmed s (t.report e) :=
  h.trans ⟨t.report_mem e, fun o hlo hhi => t.rd_report e o (by unfold SECURE_SEC_NOTIFY; omega) (by omega),
    congrArg (· != 0) (t.get_report e _ (by decide) (by decide)), fun g hg hs => t.on_report_stays e hc hf hg hs, fun m => by rw [t.mon_report]⟩

theorem alarmFired {m : Nat} (hm : m < 144) : Unalarmed s (t.alarmFired m) := by
  have hmarked : Unalarmed s (t.setMon m fun x => { x with fired := true }) := h.setMon fun _ => rfl
  have hbit : Unalarmed s ((t.setMon m fun x => { x with fired := true }).setBit (MONITOR_ALARM_STATUS (m / 32)) (m % 32) true) := by
    generalize (t.setMon m fun x => { x with fired := true }) = u at hmarked
    have hout : ∀ i, MONITOR_ALARM_STATUS i < 0xB00000 ∨ 0xB01400 ≤ MONITOR_ALARM_STATUS i := fun i => .inr (Nat.le_add_right _ _)
    have hpower : ∀ i, i < 5 → MONITOR_ALARM_STATUS i ≠ POWER_THERMAL_STATUS ∧ MONITOR_ALARM_STATUS i ≠ ERROR_STATUS := fun i hi => by
      unfold MONITOR_ALARM_STATUS POWER_THERMAL_STATUS ERROR_STATUS
      omega
    exact hmarked.wr (hout _) (hpower _ (by omega)).1 (hpower _ (by omega)).2
  exact hbit.report (e := { code := Code.MON_ALARM, unit := m }) (c := .note) rfl (by decide)

theorem alarmTest {m raw : Nat} (hm : m < 144) : Unalarmed s (t.alarmTest m raw) := by
  have hsampled : Unalarmed s (t.setMon m fun x => x.sampled (t.alarmOut m raw)) := h.setMon fun _ => rfl
  rw [State.alarmTest_eq]
  split
  · exact hsampled.alarmFired hm
  · exact hsampled

end Unalarmed

/-! ### Voltage and process monitors (Power cap R494, R495) -/

/-- The supply of a voltage monitor is off. -/
def State.voltOff (s : State) (m : Nat) : Prop := (m = 71 ∧ s.memc.dxVin = false) ∨ (m = 65 ∧ s.pwr.spine = 3) ∨ (m = 68 ∧ s.pwr.watch = 3)

/-- A sample is shown. -/
def State.voltShown (s : State) (m v : Nat) : State := (s.put (MONITOR_VOLT_READING (m - 48)) v).putB (MONITOR_VOLT_VALID (m - 48)) true

theorem State.monSample_volt {s : State} {m raw v : Nat} (hlo : 48 ≤ m) (hhi : m < 80) (hon : s.voltOff m → v = 0) (hoff : ¬s.voltOff m → v = raw % 65536) :
    s.monSample m raw = (s.voltShown m v).alarmTest m v := by
  have hv : (if ((m = 71 && !s.memc.dxVin) || (m = 65 && s.pwr.spine = 3) || (m = 68 && s.pwr.watch = 3)) = true then 0 else raw % 65536) = v := by
    by_cases h : s.voltOff m
    · rw [hon h, if_pos (by simpa [State.voltOff, or_assoc] using h)]
    · rw [hoff h, if_neg (by simpa [State.voltOff, or_assoc] using h)]
  rw [State.monSample, if_neg (by omega), if_pos hhi]
  dsimp only
  rw [hv]
  rfl

theorem State.monSample_proc (s : State) {m : Nat} (hm : 80 ≤ m) (raw : Nat) : s.monSample m raw = if s.dom ((m - 80) / 4) = 0 then
    (s.put (MONITOR_PROC_READING (m - 80)) (raw % 65536)).putB (MONITOR_PROC_VALID (m - 80)) true else s := by
  rw [State.monSample, if_neg (by omega), if_neg (by omega)]

end Sys2Proof.Machine
end

section
/-! SUPPORT. Ceilings, the trip of the device, and what the safe state sheds for it (Power cap R506, R519, Errors R602). -/

namespace Sys2Proof.Machine
open Reg

/-! ### Ceilings (Power cap R506) -/

theorem State.mem_governedDistricts {s : State} {d : Nat} (h : d ∈ s.governedDistricts) : d < 16 := List.mem_range.1 (List.mem_of_mem_filter h)

/-- A ceiling of the throttle is below its highest value. -/
def Throt.limits (x : Throt) : Bool := decide (x.op < 3) || decide (x.duty < 8)

/-- GOV_STATE shows the ceiling of a district and what has set it. -/
def State.ceilShown (s : State) (d : Nat) : State :=
  ((s.put (POWER_GOV_STATE_CEILING d) (s.ceilOf d)).putB (POWER_GOV_STATE_SENSOR_LIMITED d) (s.sensorsFailed d)).putB (POWER_GOV_STATE_THROTTLED d)
    (s.throt d).limits

/-- A district is lowered to its ceilings. -/
def State.ceilDistrict (s : State) (d : Nat) : State :=
  ((s.ceilShown d).put (POWER_GOV_STATE_OP d) (min (s.ceilOf d) ((s.ceilShown d).get (POWER_GOV_STATE_OP d)))).put (POWER_GOV_STATE_DUTY d)
    (min ((s.ceilShown d).throt d).duty ((s.ceilShown d).get (POWER_GOV_STATE_DUTY d)))

def State.ceilHost (s : State) : State := s.put POWER_HOST_GOV_LEVEL (min (s.throt 16).op (s.get POWER_HOST_GOV_LEVEL))
def State.ceilMedia (s : State) : State := s.put POWER_MEDIA_GOV_DUTY (min (s.throt 17).duty (s.get POWER_MEDIA_GOV_DUTY))
def State.throttlingShown (s : State) : State := s.putB POWER_THERMAL_STATUS_THROTTLING ((List.range 18).any fun i => (s.throt i).limits)

theorem State.applyCeilings_eq (s : State) : s.applyCeilings = ((s.each s.governedDistricts State.ceilDistrict).ceilHost.ceilMedia).throttlingShown := by
  unfold State.applyCeilings State.ceilHost State.ceilMedia State.throttlingShown
  rfl

namespace Unalarmed
variable {s t : State} (h : Unalarmed s t)
include h

theorem putGovState {d : Nat} (hd : d < 16) {f : Fld} {n : Nat} (hf : f.reg = POWER_GOV_STATE d) : Unalarmed s (t.put f n) := by
  have hreg : POWER_GOV_STATE d < 0xB00000 ∧ POWER_GOV_STATE d ≠ POWER_THERMAL_STATUS ∧ POWER_GOV_STATE d ≠ ERROR_STATUS := by
    unfold POWER_GOV_STATE POWER_THERMAL_STATUS ERROR_STATUS
    omega
  exact h.put (.inl (hf ▸ hreg.1)) (hf ▸ hreg.2.1) (hf ▸ hreg.2.2)

theorem ceilDistrict {d : Nat} (hd : d < 16) : Unalarmed s (t.ceilDistrict d) := by
  have hshown : Unalarmed s (t.ceilShown d) :=
    ((h.putGovState hd (f := POWER_GOV_STATE_CEILING d) rfl).putGovState hd (f := POWER_GOV_STATE_SENSOR_LIMITED d) rfl).putGovState hd
      (f := POWER_GOV_STATE_THROTTLED d) rfl
  exact (hshown.putGovState hd (f := POWER_GOV_STATE_OP d) rfl).putGovState hd (f := POWER_GOV_STATE_DUTY d) rfl

theorem ceilHost : Unalarmed s t.ceilHost := h.put (.inl (by decide)) (by decide) (by decide)
theorem ceilMedia : Unalarmed s t.ceilMedia := h.put (.inl (by decide)) (by decide) (by decide)

theorem throttlingShown : Unalarmed s t.throttlingShown := by
  unfold State.throttlingShown
  exact h.putThermal (f := POWER_THERMAL_STATUS_THROTTLING) rfl (by decide) (by decide) (.inr (by decide))

theorem applyCeilings : Unalarmed s t.applyCeilings := by
  rw [State.applyCeilings_eq]
  have hdistricts : Unalarmed s (t.each t.governedDistricts State.ceilDistrict) :=
    h.trans (Unalarmed.each (fun u d hd => (Unalarmed.refl u).ceilDistrict (State.mem_governedDistricts hd)) t)
  exact hdistricts.ceilHost.ceilMedia.throttlingShown

end Unalarmed

/-! ### What the safe state sheds for a trip (Errors R602, R603) -/

/-- The registers that PD_PCIE loses, its state and the pads that are held. -/
def ShedReg (o : Nat) : Prop := domainReg 21 o = true ∨ o = POWER_DOM_STATUS 21 ∨ o = POWER_PAD_HOLD

theorem not_shedReg {o : Nat} (h : 0xA00800 ≤ o) : ¬ShedReg o := by
  have hpcie : domainReg 21 o = false := by
    simp only [domainReg, show ¬(21 < 16) by decide, show ¬(21 = 17) by decide, show ¬(21 = 18) by decide, show ¬(21 = 19) by decide,
      show ¬(21 = 20) by decide, if_false, if_true, Bool.and_eq_false_iff, decide_eq_false_iff_not]
    omega
  unfold ShedReg
  rw [hpcie]
  unfold POWER_DOM_STATUS POWER_PAD_HOLD
  simp only [Bool.false_eq_true, false_or]
  omega

/-- `t` is `s` but for what PD_PCIE and the pads lose. -/
structure Shed (s t : State) : Prop where
  mem : t.mem = s.mem
  gov : t.gov = s.gov
  rd : ∀ o, ¬ShedReg o → t.rd o = s.rd o

namespace Shed
variable {s t u : State}

theorem refl (s : State) : Shed s s := ⟨rfl, rfl, fun _ _ => rfl⟩
theorem trans (h : Shed s t) (k : Shed t u) : Shed s u := ⟨k.mem.trans h.mem, k.gov.trans h.gov, fun o ho => (k.rd o ho).trans (h.rd o ho)⟩
theorem same (h : Shed s t) (hmem : u.mem = t.mem) (hgov : u.gov = t.gov) (hregs : u.regs = t.regs) : Shed s u :=
  h.trans ⟨hmem, hgov, fun o _ => by rw [State.rd, hregs, State.rd]⟩

theorem put (h : Shed s t) {f : Fld} {n : Nat} (hf : ShedReg f.reg) : Shed s (t.put f n) :=
  h.trans ⟨rfl, rfl, fun o ho => t.rd_put_other f n o fun e => ho (e ▸ hf)⟩

theorem setLinks (h : Shed s t) {f : LinkSt → LinkSt} : Shed s (t.setLinks f) := h.same rfl rfl rfl
theorem setPwr (h : Shed s t) {f : PwrSt → PwrSt} : Shed s (t.setPwr f) := h.same rfl rfl rfl

/-- No pair has a half in PD_PCIE. -/
theorem pairsLeave (h : Shed s t) : Shed s (t.pairsLeave 21) := by
  have hpair : ∀ k, ¬pairDomain k = some 21 := fun k => by
    unfold pairDomain shplDomain
    repeat' split
    all_goals simp
  have hgone : (t.txn.mated.filter fun m => pairDomain m.key == some 21) = [] :=
    List.filter_eq_nil_iff.2 fun m _ => by rw [beq_iff_eq]; exact hpair m.key
  have hhalves : (t.each t.txn.halves fun s e => if pairDomain e.1 = some 21 then s.dropHalf e.1 else s) = t :=
    State.each_eq_self fun e _ => if_neg (hpair e.1)
  unfold State.pairsLeave
  dsimp only
  rw [hhalves, hgone]
  exact h.same rfl rfl rfl

theorem resetRegs (h : Shed s t) : Shed s (t.resetRegs (domainReg 21)) := by
  refine h.trans ⟨rfl, rfl, fun o ho => ?_⟩
  have hkept : (!domainReg 21 o) = true := by
    rw [Bool.not_eq_true', ← Bool.not_eq_true]
    exact fun k => ho (.inl k)
  exact (SMap.get_filter regReset t.regs (fun o => !domainReg 21 o) o).trans (if_pos hkept)

theorem domainStop (h : Shed s t) : Shed s (t.domainStop 21) := by
  have hreg : ShedReg GLOBAL_PCIE_STATUS := .inl (by decide)
  have hleft := h.pairsLeave
  have hdef : t.domainStop 21 = (((t.pairsLeave 21).putB GLOBAL_PCIE_STATUS_LINK_UP false).put GLOBAL_PCIE_STATUS_GEN 0).put GLOBAL_PCIE_STATUS_WIDTH 0 := by
    simp [State.domainStop]
  rw [hdef]
  exact ((hleft.put (f := GLOBAL_PCIE_STATUS_LINK_UP) hreg).put (f := GLOBAL_PCIE_STATUS_GEN) hreg).put (f := GLOBAL_PCIE_STATUS_WIDTH) hreg

theorem domainOff (h : Shed s t) : Shed s (t.domainOff 21) := by
  have hdef : t.domainOff 21 = (t.setLinks fun l => { l with masked := [] }).resetRegs (domainReg 21) := by simp [State.domainOff]
  rw [hdef]
  exact h.setLinks.resetRegs

theorem setDom (h : Shed s t) : Shed s (t.setDom 21 3) := by
  have hdef : t.setDom 21 3 = (t.put (POWER_DOM_STATUS_STATE 21) 3).setPwr fun p => { p with clamped := p.clamped.filter (· != 21) } := by simp [State.setDom]
  rw [hdef]
  exact (h.put (f := POWER_DOM_STATUS_STATE 21) (.inr (.inl rfl))).setPwr

theorem forceOff (h : Shed s t) : Shed s (t.forceOff 21) := by
  unfold State.forceOff
  split
  · exact h
  · split
    · exact h.domainStop.domainOff.setDom
    · exact h.domainOff.setDom

theorem latchPads (h : Shed s t) : Shed s (t.latchPads 26) := by
  have hpins : Shed s (t.latchPins 6) := by
    unfold State.latchPins
    split
    · exact h
    · exact h.same rfl rfl rfl
  exact hpins.put (.inr (.inr rfl))

theorem safeThermal (h : Shed s t) : Shed s t.safeThermal := by
  unfold State.safeThermal
  split
  · have hoff : Shed s (if nbit (t.rdN POWER_SEC_HOLD) 21 = true then t else t.forceOff 21) := by
      split
      · exact h
      · exact h.forceOff
    exact hoff.latchPads.setPwr
  · exact h

end Shed

/-! ### The trip (Power cap R519) -/

/-- What a FATAL error does beyond its record spares the class bits of STATUS, whatever its code. -/
theorem State.get_fatal_class (s : State) (code : Nat) {g : Fld} (hr : g.reg = ERROR_STATUS) (hh : g.hi < 8) : (s.fatal code).get g = s.get g := by
  have hnotify : ∀ u : State, ∀ c : Bool, (if c = true then State.coreIrq ((u.setErr fun z => { z with notify := some u.round }).putB ⟨SECURE_SEC_NOTIFY, 0, 0⟩ true)
      true 0xC0 none else u).get g = u.get g := fun u c => by
    split
    · have hne : g.reg ≠ SECURE_SEC_NOTIFY := by rw [hr]; decide
      rw [State.get, State.rd, State.coreIrq_regs]
      exact (State.get_put_other _ ⟨SECURE_SEC_NOTIFY, 0, 0⟩ g _ hne).trans (State.get_setErr u _ g)
    · rfl
  have hsafe : ∀ f : Fld, f.reg = ERROR_SAFE_STATUS → g.reg ≠ f.reg := fun f hf => by
    rw [hr, hf]
    decide
  unfold State.fatal
  dsimp only
  split
  · split
    · split
      · rw [hnotify, State.get_setErr]
      · exact State.get_setErr _ _ g
    · rfl
  · split
    · rw [hnotify, State.get_setErr, State.putB, State.get_put_other _ ERROR_SAFE_STATUS_NESTED g _ (hsafe _ rfl)]
    · rw [hnotify, State.get_setErr, State.putB, State.get_put_other _ ERROR_SAFE_STATUS_NESTED g _ (hsafe _ rfl),
        State.get_put_other _ ERROR_SAFE_STATUS_CODE g _ (hsafe _ rfl), State.putB,
        State.get_put_apart _ ERROR_STATUS_ENTERING g _ (by decide) (by decide) (.inr (by show g.hi < 30; omega))]

/-- A FATAL error of any code shows its bit in STATUS. -/
theorem State.on_report_of_fatal (s : State) (e : Err) (hc : errClass e.code = some .fatal) : (s.report e).on ERROR_STATUS_FATAL = true := by
  unfold State.report
  rw [hc]
  simp only [BEq.rfl, if_true]
  rw [State.on, State.get_fatal_class _ _ rfl (by decide), KeepsSpared.errRecord _ _ _ _ _ _ ⟨by decide, by decide, by decide⟩, State.errStatus, State.putB,
    State.get_put_apart _ ERROR_STATUS_DEGRADED _ _ (by decide) (by decide) (.inl (by decide))]
  exact s.on_putB_same ERROR_STATUS_FATAL true rfl (by decide)

theorem State.setErr_frame (s : State) (f : ErrSt → ErrSt) : (s.setErr f).mem = s.mem ∧ (s.setErr f).gov = s.gov ∧ ∀ o, (s.setErr f).rd o = s.rd o :=
  ⟨rfl, rfl, fun _ => rfl⟩

/-- What a trip leaves. -/
structure Trips (s t : State) : Prop where
  mem : t.mem = s.mem
  gov : t.gov = s.gov
  reading : ∀ o, 0xB00000 ≤ o → o < 0xB01400 → t.rd o = s.rd o
  tripped : t.on POWER_THERMAL_STATUS_TRIPPED = true
  fatal : t.on ERROR_STATUS_FATAL = true

theorem State.trip_trips (s : State) (unit : Nat) : Trips s (s.trip unit) := by
  have hreport : ∀ u : State, u.mem = s.mem → u.gov = s.gov → (∀ o, 0xB00000 ≤ o → o < 0xB01400 → u.rd o = s.rd o) →
      u.on POWER_THERMAL_STATUS_TRIPPED = true → Trips s ((u.report { code := Code.THERMAL_TRIP, unit := unit }).safeThermal) := fun u hmem hgov hrd htripped => by
    have hshed := (Shed.refl (u.report { code := Code.THERMAL_TRIP, unit := unit })).safeThermal
    have hfatal : (u.report { code := Code.THERMAL_TRIP, unit := unit }).on ERROR_STATUS_FATAL = true := u.on_report_of_fatal _ rfl
    have hheld : (u.report { code := Code.THERMAL_TRIP, unit := unit }).on POWER_THERMAL_STATUS_TRIPPED = true := by
      rw [State.on, u.get_report _ _ (by decide) (.inl (by decide))]
      exact htripped
    have hreg : ∀ o, 0xB00000 ≤ o → o < 0xB01400 → (u.report { code := Code.THERMAL_TRIP, unit := unit }).rd o = u.rd o := fun o hlo hhi =>
      u.rd_report _ o (by unfold SECURE_SEC_NOTIFY; omega) (.inl (by omega))
    have hbits : ∀ {v w : State}, Shed v w → ∀ g : Fld, 0xA00800 ≤ g.reg → w.on g = v.on g := fun h g hg => by
      rw [State.on, State.get, h.rd _ (not_shedReg hg), State.on, State.get]
    exact ⟨hshed.mem.trans ((u.report_mem _).trans hmem), hshed.gov.trans ((u.report_gov _).trans hgov),
      fun o hlo hhi => (hshed.rd o (not_shedReg (by omega))).trans ((hreg o hlo hhi).trans (hrd o hlo hhi)),
      (hbits hshed _ (by decide)).trans hheld, (hbits hshed _ (by decide)).trans hfatal⟩
  obtain ⟨hmem, hgov, hrd⟩ := (s.putB POWER_THERMAL_STATUS_TRIPPED true).setErr_frame fun z => { z with tripped := true }
  refine hreport _ (hmem.trans (State.putB_mem _ _ _)) (hgov.trans (State.putB_gov _ _ _)) (fun o hlo _ => (hrd o).trans ?_) ?_
  · refine s.rd_put_other POWER_THERMAL_STATUS_TRIPPED _ o ?_
    show o ≠ 0xa01104
    omega
  · rw [State.on_setErr]
    exact s.on_putB_same POWER_THERMAL_STATUS_TRIPPED true rfl (by decide)

end Sys2Proof.Machine
end

section
/-! SUPPORT. Samples of temperature sensors (Power cap R496, R519); and O48. -/

namespace Sys2Proof.Machine
open Reg

/-! ### Registers of a sensor -/

theorem temp_bounds {m : Nat} (hm : m < 48) : 0xB00000 ≤ MONITOR_TEMP m ∧ MONITOR_TEMP m < 0xB01400 := by
  unfold MONITOR_TEMP
  omega

theorem temp_injective {m j : Nat} (h : MONITOR_TEMP m = MONITOR_TEMP j) : m = j := by
  unfold MONITOR_TEMP at h
  omega

/-- The fields of a sensor read the same in both states. -/
structure SensorKept (s t : State) (m : Nat) : Prop where
  reading : t.get (MONITOR_TEMP_READING m) = s.get (MONITOR_TEMP_READING m)
  valid : t.on (MONITOR_TEMP_VALID m) = s.on (MONITOR_TEMP_VALID m)
  failed : t.on (MONITOR_TEMP_FAILED m) = s.on (MONITOR_TEMP_FAILED m)

namespace SensorKept
variable {s t u : State} {m : Nat}

theorem of_rd (h : t.rd (MONITOR_TEMP m) = s.rd (MONITOR_TEMP m)) : SensorKept s t m := by
  have hget : ∀ hi lo, t.get ⟨MONITOR_TEMP m, hi, lo⟩ = s.get ⟨MONITOR_TEMP m, hi, lo⟩ := fun hi lo => by rw [State.get, h, State.get]
  exact ⟨hget 15 0, congrArg (· != 0) (hget 31 31), congrArg (· != 0) (hget 30 30)⟩

theorem trans (h : SensorKept s t m) (k : SensorKept t u m) : SensorKept s u m :=
  ⟨k.reading.trans h.reading, k.valid.trans h.valid, k.failed.trans h.failed⟩

end SensorKept

theorem Unalarmed.sensor {s t : State} (h : Unalarmed s t) {m : Nat} (hm : m < 48) : SensorKept s t m :=
  .of_rd (h.reading _ (temp_bounds hm).1 (temp_bounds hm).2)

/-- A flag of a sensor leaves its other fields, and every other sensor. -/
theorem State.on_putSensor (s : State) (m : Nat) (b : Bool) :
    (s.putB (MONITOR_TEMP_FAILED m) b).on (MONITOR_TEMP_FAILED m) = b ∧
    (s.putB (MONITOR_TEMP_FAILED m) b).on (MONITOR_TEMP_VALID m) = s.on (MONITOR_TEMP_VALID m) ∧
    (s.putB (MONITOR_TEMP_FAILED m) b).get (MONITOR_TEMP_READING m) = s.get (MONITOR_TEMP_READING m) ∧
    (s.putB (MONITOR_TEMP_VALID m) b).on (MONITOR_TEMP_VALID m) = b ∧
    (s.putB (MONITOR_TEMP_VALID m) b).on (MONITOR_TEMP_FAILED m) = s.on (MONITOR_TEMP_FAILED m) ∧
    (s.putB (MONITOR_TEMP_VALID m) b).get (MONITOR_TEMP_READING m) = s.get (MONITOR_TEMP_READING m) := by
  have hlow : (30 : Nat) < 64 ∧ (31 : Nat) < 64 := by decide
  refine ⟨s.on_putB_same _ b rfl hlow.1, s.on_putB_apart _ _ b (Nat.le_refl 30) hlow.1 (.inl ?_), State.get_put_apart _ _ _ _ (Nat.le_refl 30) hlow.1 (.inr ?_),
    s.on_putB_same _ b rfl hlow.2, s.on_putB_apart _ _ b (Nat.le_refl 31) hlow.2 (.inr ?_), State.get_put_apart _ _ _ _ (Nat.le_refl 31) hlow.2 (.inr ?_)⟩
  · show 30 < 31
    decide
  · show 15 < 30
    decide
  · show 30 < 31
    decide
  · show 15 < 31
    decide

theorem State.rd_putSensor_other (s : State) {m o : Nat} {f : Fld} (n : Nat) (hf : f.reg = MONITOR_TEMP m) (ho : o ≠ MONITOR_TEMP m) : (s.put f n).rd o = s.rd o :=
  s.rd_put_other f n o (hf ▸ ho)

/-! ### A sensor that fails (Power cap R496) -/

/-- What the failure of a sensor leaves. -/
structure SensorFails (s t : State) (m : Nat) : Prop where
  mem : t.mem = s.mem
  failed : t.on (MONITOR_TEMP_FAILED m) = true
  valid : t.on (MONITOR_TEMP_VALID m) = false
  reading : t.get (MONITOR_TEMP_READING m) = s.get (MONITOR_TEMP_READING m)
  told : s.on (MONITOR_TEMP_FAILED m) = false → t.on ERROR_STATUS_DEGRADED = true
  raised : ∀ g, ClassBit g → s.on g = true → t.on g = true
  other : ∀ j, j < 48 → j ≠ m → SensorKept s t j

theorem State.rd_setMon (s : State) (m : Nat) (f : MonSt → MonSt) (o : Nat) : (s.setMon m f).rd o = s.rd o := rfl
theorem State.setMon_mem (s : State) (m : Nat) (f : MonSt → MonSt) : (s.setMon m f).mem = s.mem := rfl

/-- A sensor is marked as failed. -/
def State.sensorMarked (s : State) (m : Nat) : State :=
  ((s.putB (MONITOR_TEMP_FAILED m) true).putB (MONITOR_TEMP_VALID m) false).setMon m fun x => { x with pass := 0, hot := none, stepped := none, trip := 0 }

theorem State.sensorFail_eq (s : State) (m : Nat) : s.sensorFail m =
    if s.on (MONITOR_TEMP_FAILED m) = true then s.sensorMarked m else (s.sensorMarked m).report { code := Code.MON_SENSOR_FAIL, unit := m } := rfl

theorem State.sensorFail_fails (s : State) {m : Nat} (hm : m < 48) : SensorFails s (s.sensorFail m) m := by
  have hmarked : ∀ g : Fld, (s.sensorMarked m).get g = ((s.putB (MONITOR_TEMP_FAILED m) true).putB (MONITOR_TEMP_VALID m) false).get g := fun g => by
    rw [State.sensorMarked, State.get, State.rd_setMon, State.get]
  have hmarkedOn : ∀ g : Fld, (s.sensorMarked m).on g = ((s.putB (MONITOR_TEMP_FAILED m) true).putB (MONITOR_TEMP_VALID m) false).on g := fun g =>
    congrArg (· != 0) (hmarked g)
  obtain ⟨hfailed, -, hreading, -, -, -⟩ := s.on_putSensor m true
  obtain ⟨-, -, -, hvalid, hfailed', hreading'⟩ := (s.putB (MONITOR_TEMP_FAILED m) true).on_putSensor m false
  have hother : ∀ o, o ≠ MONITOR_TEMP m → (s.sensorMarked m).rd o = s.rd o := fun o ho => by
    rw [State.sensorMarked, State.rd_setMon]
    exact ((s.putB (MONITOR_TEMP_FAILED m) true).rd_putSensor_other (f := MONITOR_TEMP_VALID m) _ rfl ho).trans
      (s.rd_putSensor_other (f := MONITOR_TEMP_FAILED m) _ rfl ho)
  have hbounds := temp_bounds hm
  have hkept : ∀ g, ClassBit g → (s.sensorMarked m).on g = s.on g := fun g hg => by
    obtain ⟨i, hi, rfl⟩ := hg
    rw [State.on, State.get, hother _ (by show ERROR_STATUS ≠ _; unfold ERROR_STATUS; omega), State.on, State.get]
  have hreport : ∀ u : State, Unalarmed u (u.report { code := Code.MON_SENSOR_FAIL, unit := m }) := fun u =>
    (Unalarmed.refl u).report (c := .degraded) rfl (by decide)
  have hmem : (s.sensorMarked m).mem = s.mem := by rw [State.sensorMarked, State.setMon_mem, State.putB_mem, State.putB_mem]
  have hbase : SensorKept (s.sensorMarked m) (s.sensorFail m) m ∧ (∀ j, j < 48 → SensorKept (s.sensorMarked m) (s.sensorFail m) j) ∧
      (s.sensorFail m).mem = s.mem ∧ (∀ g, ClassBit g → (s.sensorMarked m).on g = true → (s.sensorFail m).on g = true) ∧
      (s.on (MONITOR_TEMP_FAILED m) = false → (s.sensorFail m).on ERROR_STATUS_DEGRADED = true) := by
    rw [State.sensorFail_eq]
    split
    · next h => exact ⟨.of_rd rfl, fun _ _ => .of_rd rfl, hmem, fun _ _ hs => hs, fun k => absurd k (by rw [h]; exact Bool.noConfusion)⟩
    · exact ⟨(hreport _).sensor hm, fun j hj => (hreport _).sensor hj, (State.report_mem _ _).trans hmem, (hreport _).raised, fun _ => State.on_report_degraded _ { code := Code.MON_SENSOR_FAIL, unit := m } rfl⟩
  obtain ⟨hsame, hsames, hmem, hraised, htold⟩ := hbase
  refine ⟨hmem, hsame.failed.trans ?_, hsame.valid.trans ?_, hsame.reading.trans ?_, htold, fun g hg hs => hraised g hg ((hkept g hg).trans hs), fun j hj hne => ?_⟩
  · exact (hmarkedOn _).trans (hfailed'.trans hfailed)
  · exact (hmarkedOn _).trans hvalid
  · exact (hmarked _).trans (hreading'.trans hreading)
  · exact (SensorKept.of_rd (hother _ fun h => hne (temp_injective h))).trans (hsames j hj)

/-! ### A valid sample (Power cap R519) -/

/-- Samples in a row at the trip's level. -/
def tripCount (x : MonSt) (v : Int) : Nat := if 920 ≤ v then x.trip + 1 else 0

/-- What a valid sample does. -/
structure TempActed (s t : State) (m : Nat) (v : Int) : Prop where
  mem : t.mem = s.mem
  sensor : SensorKept s t m
  trips : tripCount (s.mon m) v = 2 → t.on POWER_THERMAL_STATUS_TRIPPED = true ∧ t.on ERROR_STATUS_FATAL = true
  calm : tripCount (s.mon m) v ≠ 2 → t.on POWER_THERMAL_STATUS_TRIPPED = s.on POWER_THERMAL_STATUS_TRIPPED
  trip : (t.mon m).trip = min (tripCount (s.mon m) v) 3

/-- The times of a sensor's throttle after a sample. -/
def State.heatTimed (s : State) (m : Nat) (v : Int) : State := s.setMon m fun x => { x with
  trip := min (tripCount (s.mon m) v) 3
  hot := if decide (8 * s.throttleC ≤ v) then some (x.hot.getD s.round) else none
  stepped := if decide (8 * s.throttleC ≤ v) then x.stepped else none
  cool := if decide (v < 8 * (s.throttleC - 5)) then some (x.cool.getD s.round) else none }

/-- A throttle that starts is reported. -/
def State.heatTold (s : State) (m : Nat) (v : Int) : State :=
  if (decide (8 * s.throttleC ≤ v) && (s.mon m).hot.isNone) = true then (s.heatTimed m v).report { code := Code.THERMAL_THROTTLE, unit := m } else s.heatTimed m v

theorem State.tempActs_eq (s : State) (m : Nat) (v : Int) :
    s.tempActs m v = if tripCount (s.mon m) v = 2 then (s.heatTold m v).trip m else s.heatTold m v := rfl

theorem State.heatTold_told (s : State) (m : Nat) (v : Int) : Unalarmed (s.heatTimed m v) (s.heatTold m v) := by
  unfold State.heatTold
  split
  · exact (Unalarmed.refl _).report (c := .note) rfl (by decide)
  · exact .refl _

theorem State.tempActs_acted (s : State) {m : Nat} (hm : m < 48) (v : Int) : TempActed s (s.tempActs m v) m v := by
  have htold := s.heatTold_told m v
  have htimed : ((s.heatTimed m v).mon m).trip = min (tripCount (s.mon m) v) 3 := by rw [State.heatTimed, State.mon_setMon_same]
  have hregs : (s.heatTimed m v).on POWER_THERMAL_STATUS_TRIPPED = s.on POWER_THERMAL_STATUS_TRIPPED := rfl
  have hsame : SensorKept s (s.heatTimed m v) m := .of_rd rfl
  have hsensor := hsame.trans (htold.sensor hm)
  have hmem : (s.heatTold m v).mem = s.mem := htold.mem
  rw [State.tempActs_eq]
  split
  · next h =>
    have htrip := (s.heatTold m v).trip_trips m
    refine ⟨htrip.mem.trans hmem, hsensor.trans (.of_rd (htrip.reading _ (temp_bounds hm).1 (temp_bounds hm).2)), fun _ => ⟨htrip.tripped, htrip.fatal⟩,
      fun k => absurd h k, ?_⟩
    rw [State.mon, htrip.gov, ← State.mon, htold.trip, htimed]
  · next h => exact ⟨hmem, hsensor, fun k => absurd k h, fun _ => htold.tripped.trans hregs, (htold.trip m).trans htimed⟩

end Sys2Proof.Machine
end

section
/-! SUPPORT. The self-check of a temperature sample (Power cap R496); and O48. -/

namespace Sys2Proof.Machine
open Reg

/-- The other sensor of a pair. -/
def twinOf (m : Nat) : Nat := if m % 2 = 0 then m + 1 else m - 1

theorem twinOf_lt {m : Nat} (hm : m < 48) : twinOf m < 48 ∧ twinOf m ≠ m := by
  unfold twinOf
  split <;> omega

/-- A reading is more than 20 degrees from the other sensor of its pair. -/
def State.farFromTwin (s : State) (m : Nat) (v : Int) : Bool :=
  (s.on (MONITOR_TEMP_VALID (twinOf m)) || s.on (MONITOR_TEMP_FAILED (twinOf m))) && decide (160 < (v - tempOf (s.get (MONITOR_TEMP_READING (twinOf m)))).natAbs)

/-- Samples in a row that are far from the twin's. -/
def State.pairCount (s : State) (m : Nat) (v : Int) : Nat := if s.farFromTwin m v = true then (s.mon m).pair + 1 else 0

def State.tempShown (s : State) (m raw : Nat) : State := s.put (MONITOR_TEMP_READING m) (raw % 65536)
def State.tempPaired (s : State) (m raw : Nat) : State :=
  (s.tempShown m raw).setMon m fun x => { x with pair := min ((s.tempShown m raw).pairCount m (tempOf raw)) 4 }

/-- A sensor that has failed is good again after 1,000 passes. -/
def State.passMarked (s : State) (m p : Nat) : State :=
  if ((s.setMon m fun x => { x with pass := p }).on (MONITOR_TEMP_FAILED m) && decide (1000 ≤ p)) = true then
    (s.setMon m fun x => { x with pass := p }).putB (MONITOR_TEMP_FAILED m) false
  else s.setMon m fun x => { x with pass := p }

/-- A sample that passes its check. -/
def State.tempGood (s : State) (m p : Nat) (v : Int) : State :=
  if (s.passMarked m p).on (MONITOR_TEMP_FAILED m) = true then s.passMarked m p
  else ((s.passMarked m p).putB (MONITOR_TEMP_VALID m) true).tempActs m v

/-- The self-check of a sample and its effects. -/
def State.tempChecked (s : State) (m : Nat) (v : Int) (n p : Nat) : State :=
  if (!(decide (-440 ≤ v) && decide (v ≤ 1200))) = true then s.sensorFail m
  else if 4 ≤ n then (s.sensorFail m).sensorFail (twinOf m)
  else s.tempGood m p v

/-- The check of a sample, from the state that has shown it. -/
def State.tempJudged (s : State) (m raw : Nat) : State :=
  (s.tempPaired m raw).tempChecked m (tempOf raw) ((s.tempShown m raw).pairCount m (tempOf raw)) (min 1000 (((s.tempShown m raw).mon m).pass + 1))

theorem State.tempSample_eq (s : State) (m raw : Nat) : s.tempSample m raw =
    ((s.tempJudged m raw).applyCeilings).put POWER_THERMAL_STATUS_HOTTEST (s.tempJudged m raw).hottest := by
  unfold State.tempSample State.tempJudged State.tempChecked State.tempGood State.passMarked State.tempPaired State.pairCount State.farFromTwin twinOf
    State.tempShown
  rfl

/-! ### The state that has shown a sample -/

/-- What showing a sample leaves. -/
structure TempPaired (s t : State) (m raw : Nat) : Prop where
  mem : t.mem = s.mem
  reading : t.get (MONITOR_TEMP_READING m) = raw % 65536
  valid : t.on (MONITOR_TEMP_VALID m) = s.on (MONITOR_TEMP_VALID m)
  failed : t.on (MONITOR_TEMP_FAILED m) = s.on (MONITOR_TEMP_FAILED m)
  tripped : t.on POWER_THERMAL_STATUS_TRIPPED = s.on POWER_THERMAL_STATUS_TRIPPED
  trip : (t.mon m).trip = (s.mon m).trip

theorem State.tempShown_spec (s : State) (m raw : Nat) : (s.tempShown m raw).mem = s.mem ∧
    (s.tempShown m raw).get (MONITOR_TEMP_READING m) = raw % 65536 ∧ (s.tempShown m raw).on (MONITOR_TEMP_VALID m) = s.on (MONITOR_TEMP_VALID m) ∧
    (s.tempShown m raw).on (MONITOR_TEMP_FAILED m) = s.on (MONITOR_TEMP_FAILED m) ∧ (∀ o, o ≠ MONITOR_TEMP m → (s.tempShown m raw).rd o = s.rd o) ∧
    (s.tempShown m raw).mon m = s.mon m := by
  have hlow : (15 : Nat) < 64 := by decide
  refine ⟨State.put_mem _ _ _, ?_, congrArg (· != 0) (State.get_put_apart _ _ _ _ (Nat.zero_le 15) hlow (.inl ?_)),
    congrArg (· != 0) (State.get_put_apart _ _ _ _ (Nat.zero_le 15) hlow (.inl ?_)), fun o ho => s.rd_putSensor_other (f := MONITOR_TEMP_READING m) _ rfl ho, rfl⟩
  · exact (State.get_put_same _ _ _ (Nat.zero_le 15) hlow).trans (Nat.mod_eq_of_lt (Nat.mod_lt _ (by decide)))
  · show 15 < 31
    decide
  · show 15 < 30
    decide

theorem State.tempPaired_paired (s : State) (m raw : Nat) : TempPaired s (s.tempPaired m raw) m raw := by
  obtain ⟨hmem, hreading, hvalid, hfailed, hother, hmon⟩ := s.tempShown_spec m raw
  have hsame : SensorKept (s.tempShown m raw) (s.tempPaired m raw) m := .of_rd (by rw [State.tempPaired, State.rd_setMon])
  refine ⟨?_, hsame.reading.trans hreading, hsame.valid.trans hvalid, hsame.failed.trans hfailed, ?_, ?_⟩
  · rw [State.tempPaired, State.setMon_mem, hmem]
  · rw [State.on, State.get, State.tempPaired, State.rd_setMon, hother _ (by show POWER_THERMAL_STATUS ≠ _; unfold POWER_THERMAL_STATUS MONITOR_TEMP; omega),
      State.on, State.get]
  · rw [State.tempPaired, State.mon_setMon_same, hmon]

theorem State.mon_putB (s : State) (f : Fld) (b : Bool) (m : Nat) : (s.putB f b).mon m = s.mon m := rfl

/-! ### A sample that passes its check -/

/-- A sensor is failed after `p` passes in a row. -/
def State.staysFailed (s : State) (m p : Nat) : Bool := s.on (MONITOR_TEMP_FAILED m) && !decide (1000 ≤ p)

theorem State.passMarked_spec (s : State) (m p : Nat) : (s.passMarked m p).mem = s.mem ∧
    (s.passMarked m p).get (MONITOR_TEMP_READING m) = s.get (MONITOR_TEMP_READING m) ∧
    (s.passMarked m p).on (MONITOR_TEMP_FAILED m) = s.staysFailed m p ∧
    (s.passMarked m p).on POWER_THERMAL_STATUS_TRIPPED = s.on POWER_THERMAL_STATUS_TRIPPED ∧ ((s.passMarked m p).mon m).trip = (s.mon m).trip := by
  have hget : ∀ g : Fld, (s.setMon m fun x => { x with pass := p }).get g = s.get g := fun _ => rfl
  have hon : ∀ g : Fld, (s.setMon m fun x => { x with pass := p }).on g = s.on g := fun _ => rfl
  have hmem : (s.setMon m fun x => { x with pass := p }).mem = s.mem := rfl
  have htrip : ((s.setMon m fun x => { x with pass := p }).mon m).trip = (s.mon m).trip := by rw [State.mon_setMon_same]
  unfold State.passMarked
  rw [hon]
  generalize (s.setMon m fun x => { x with pass := p }) = u at *
  split
  · next h =>
    obtain ⟨hclear, -, hreading, -, -, -⟩ := u.on_putSensor m false
    have hother : POWER_THERMAL_STATUS_TRIPPED.reg ≠ (MONITOR_TEMP_FAILED m).reg := by
      show 0xa01104 ≠ 0xb00100 + 0x4 * m
      omega
    rw [Bool.and_eq_true] at h
    exact ⟨(State.putB_mem _ _ _).trans hmem, hreading.trans (hget _), hclear.trans (by rw [State.staysFailed, h.2, Bool.not_true, Bool.and_false]),
      (State.on_putB_other _ _ _ _ hother).trans (hon _),
      (congrArg MonSt.trip (State.mon_putB _ _ _ _)).trans htrip⟩
  · next h =>
    refine ⟨hmem, hget _, (hon _).trans ?_, hon _, htrip⟩
    rw [State.staysFailed]
    rw [Bool.and_eq_true, not_and] at h
    cases hf : s.on (MONITOR_TEMP_FAILED m) with
    | false => rfl
    | true => rw [eq_false_of_ne_true (h hf)]; rfl

/-- What a sample that passes its check does. -/
structure GoodSample (s t : State) (m p : Nat) (v : Int) : Prop where
  mem : t.mem = s.mem
  reading : t.get (MONITOR_TEMP_READING m) = s.get (MONITOR_TEMP_READING m)
  failed : t.on (MONITOR_TEMP_FAILED m) = s.staysFailed m p
  valid : s.staysFailed m p = false → t.on (MONITOR_TEMP_VALID m) = true
  trips : s.staysFailed m p = false → tripCount (s.mon m) v = 2 → t.on POWER_THERMAL_STATUS_TRIPPED = true ∧ t.on ERROR_STATUS_FATAL = true
  calm : s.staysFailed m p = false → tripCount (s.mon m) v ≠ 2 → t.on POWER_THERMAL_STATUS_TRIPPED = s.on POWER_THERMAL_STATUS_TRIPPED
  trip : s.staysFailed m p = false → (t.mon m).trip = min (tripCount (s.mon m) v) 3

theorem tripCount_congr {x y : MonSt} (h : y.trip = x.trip) (v : Int) : tripCount y v = tripCount x v := by rw [tripCount, h, tripCount]

theorem State.tempGood_good (s : State) {m : Nat} (hm : m < 48) (p : Nat) (v : Int) : GoodSample s (s.tempGood m p v) m p v := by
  obtain ⟨hmem, hreading, hfailed, htripped, htrip⟩ := s.passMarked_spec m p
  unfold State.tempGood
  rw [hfailed]
  generalize s.passMarked m p = u at *
  split
  · next h =>
    have hno : s.staysFailed m p ≠ false := by rw [h]; exact Bool.noConfusion
    exact ⟨hmem, hreading, hfailed, fun k => absurd k hno, fun k => absurd k hno, fun k => absurd k hno, fun k => absurd k hno⟩
  · next h =>
    obtain ⟨-, -, -, hvalid, hkept, hshown⟩ := u.on_putSensor m true
    have hother : POWER_THERMAL_STATUS_TRIPPED.reg ≠ (MONITOR_TEMP_VALID m).reg := by
      show 0xa01104 ≠ 0xb00100 + 0x4 * m
      omega
    have hcount : ((u.putB (MONITOR_TEMP_VALID m) true).mon m).trip = (s.mon m).trip := (congrArg MonSt.trip (State.mon_putB _ _ _ _)).trans htrip
    have hthermal := (u.on_putB_other (MONITOR_TEMP_VALID m) _ true hother).trans htripped
    have hstored : (u.putB (MONITOR_TEMP_VALID m) true).mem = s.mem := (State.putB_mem _ _ _).trans hmem
    generalize u.putB (MONITOR_TEMP_VALID m) true = w at *
    have hacted := w.tempActs_acted hm v
    have hfine : s.staysFailed m p = false := eq_false_of_ne_true h
    have hsame := tripCount_congr hcount v
    exact ⟨hacted.mem.trans hstored, hacted.sensor.reading.trans (hshown.trans hreading), hacted.sensor.failed.trans (hkept.trans hfailed),
      fun _ => hacted.sensor.valid.trans hvalid, fun _ k => hacted.trips (hsame.trans k), fun _ k => (hacted.calm (hsame ▸ k)).trans hthermal,
      fun _ => hacted.trip.trans (by rw [hsame])⟩

end Sys2Proof.Machine
end

section
/-! SUPPORT. A temperature sample by the outcome of its self-check (Power cap R496); and O48. -/

namespace Sys2Proof.Machine
open Reg

/-! ### The outcomes of the self-check -/

/-- The reading is more than 20 degrees from that of a twin that has one. -/
def State.FarTwin (s : State) (m : Nat) (v : Int) : Prop :=
  (s.on (MONITOR_TEMP_VALID (twinOf m)) = true ∨ s.on (MONITOR_TEMP_FAILED (twinOf m)) = true) ∧
    (160 < v - tempOf (s.get (MONITOR_TEMP_READING (twinOf m))) ∨ 160 < tempOf (s.get (MONITOR_TEMP_READING (twinOf m))) - v)

theorem State.farFromTwin_iff (s : State) (m : Nat) (v : Int) : s.farFromTwin m v = true ↔ s.FarTwin m v := by
  have habs : ∀ a b : Int, 160 < (a - b).natAbs ↔ 160 < a - b ∨ 160 < b - a := fun a b => by omega
  rw [State.farFromTwin, Bool.and_eq_true, Bool.or_eq_true, decide_eq_true_eq, habs, State.FarTwin]

theorem State.pairCount_shown (s : State) {m : Nat} (hm : m < 48) (raw : Nat) (v : Int) : (s.tempShown m raw).pairCount m v = s.pairCount m v := by
  obtain ⟨-, -, -, -, hother, hmon⟩ := s.tempShown_spec m raw
  have htwin : SensorKept s (s.tempShown m raw) (twinOf m) := .of_rd (hother _ fun h => (twinOf_lt hm).2 (temp_injective h))
  rw [State.pairCount, State.farFromTwin, htwin.valid, htwin.failed, htwin.reading, hmon, State.pairCount, State.farFromTwin]

section outcome
variable {s : State} {m raw : Nat}

theorem State.tempJudged_range (h : tempOf raw < -440 ∨ 1200 < tempOf raw) : s.tempJudged m raw = (s.tempPaired m raw).sensorFail m := by
  have hout : (!(decide (-440 ≤ tempOf raw) && decide (tempOf raw ≤ 1200))) = true := by
    rw [Bool.not_eq_true', Bool.and_eq_false_iff, decide_eq_false_iff_not, decide_eq_false_iff_not]
    omega
  exact if_pos hout

variable (hm : m < 48)
include hm

theorem State.tempJudged_far (hlo : -440 ≤ tempOf raw) (hhi : tempOf raw ≤ 1200) (hfar : s.FarTwin m (tempOf raw)) (hpair : 3 ≤ (s.mon m).pair) :
    s.tempJudged m raw = ((s.tempPaired m raw).sensorFail m).sensorFail (twinOf m) := by
  have hin : ¬(!(decide (-440 ≤ tempOf raw) && decide (tempOf raw ≤ 1200))) = true := by simp [hlo, hhi]
  have hcount : 4 ≤ (s.tempShown m raw).pairCount m (tempOf raw) := by
    rw [s.pairCount_shown hm, State.pairCount, if_pos ((s.farFromTwin_iff m _).2 hfar)]
    omega
  exact (if_neg hin).trans (if_pos hcount)

theorem State.tempJudged_good (hlo : -440 ≤ tempOf raw) (hhi : tempOf raw ≤ 1200) (h : ¬s.FarTwin m (tempOf raw) ∨ (s.mon m).pair < 3) :
    s.tempJudged m raw = (s.tempPaired m raw).tempGood m (min 1000 ((s.mon m).pass + 1)) (tempOf raw) := by
  have hin : ¬(!(decide (-440 ≤ tempOf raw) && decide (tempOf raw ≤ 1200))) = true := by simp [hlo, hhi]
  obtain ⟨-, -, -, -, -, hmon⟩ := s.tempShown_spec m raw
  have hcount : ¬4 ≤ (s.tempShown m raw).pairCount m (tempOf raw) := by
    rw [s.pairCount_shown hm, State.pairCount]
    split
    · next hfar => exact fun k => (h.resolve_left fun hn => hn ((s.farFromTwin_iff m _).1 hfar)).not_ge (by omega)
    · omega
  rw [State.tempJudged, State.tempChecked, if_neg hin, if_neg hcount, hmon]

end outcome

/-- The sensor after ceilings, the hottest sensor and the alarm. -/
theorem State.monSample_temp (s : State) {m : Nat} (hm : m < 48) (raw : Nat) : Unalarmed (s.tempJudged m raw) (s.monSample m raw) := by
  rw [State.monSample, if_pos hm, State.tempSample_eq]
  generalize s.tempJudged m raw = u
  have hceil := (Unalarmed.refl u).applyCeilings
  generalize u.applyCeilings = w at *
  have hhot : Unalarmed u (w.put POWER_THERMAL_STATUS_HOTTEST u.hottest) :=
    hceil.putThermal (f := POWER_THERMAL_STATUS_HOTTEST) rfl (by decide) (by decide) (.inl (by decide))
  exact hhot.alarmTest (by omega)

/-- Every outcome of the self-check keeps memory and shows the reading. -/
theorem State.tempJudged_shown (s : State) {m : Nat} (hm : m < 48) (raw : Nat) :
    (s.tempJudged m raw).mem = s.mem ∧ (s.tempJudged m raw).get (MONITOR_TEMP_READING m) = raw % 65536 := by
  have hz := s.tempPaired_paired m raw
  have hfails := (s.tempPaired m raw).sensorFail_fails hm
  have htwin := ((s.tempPaired m raw).sensorFail m).sensorFail_fails (twinOf_lt hm).1
  by_cases hrange : tempOf raw < -440 ∨ 1200 < tempOf raw
  · rw [State.tempJudged_range hrange]
    exact ⟨hfails.mem.trans hz.mem, hfails.reading.trans hz.reading⟩
  · have hlo : -440 ≤ tempOf raw := by omega
    have hhi : tempOf raw ≤ 1200 := by omega
    by_cases hfar : s.FarTwin m (tempOf raw) ∧ 3 ≤ (s.mon m).pair
    · rw [State.tempJudged_far hm hlo hhi hfar.1 hfar.2]
      exact ⟨htwin.mem.trans (hfails.mem.trans hz.mem), (htwin.other m hm (twinOf_lt hm).2.symm).reading.trans (hfails.reading.trans hz.reading)⟩
    · have hgood := (s.tempPaired m raw).tempGood_good hm (min 1000 ((s.mon m).pass + 1)) (tempOf raw)
      rw [State.tempJudged_good hm hlo hhi (by by_contra k; exact hfar (by rw [not_or, not_not] at k; exact ⟨k.1, by omega⟩))]
      exact ⟨hgood.mem.trans hz.mem, hgood.reading.trans hz.reading⟩

/-! ### The HXP die (Power cap R519) -/

/-- Reads in a row at the trip's level. -/
def hxpCount (raw hot : Nat) : Nat := if 1000 ≤ tempOf raw then min 3 (hot + 1) else 0

def State.hxpShown (s : State) (raw : Nat) : State :=
  (s.put MONITOR_HXP_TEMP_TEMP (raw % 65536)).setGov fun g => { g with hxpHot := hxpCount raw s.gov.hxpHot }

theorem exec_hxpTempRead (s : State) (raw : Nat) : exec (.hxpTempRead raw) s =
    .next (if hxpCount raw s.gov.hxpHot = 2 then (s.hxpShown raw).trip 0xFFFF else s.hxpShown raw) := rfl

theorem State.setGov_frame (s : State) (f : GovSt → GovSt) : (s.setGov f).mem = s.mem ∧ (s.setGov f).gov = f s.gov ∧ ∀ g : Fld, (s.setGov f).get g = s.get g :=
  ⟨rfl, rfl, fun _ => rfl⟩

theorem State.hxpShown_spec (s : State) (raw : Nat) : (s.hxpShown raw).get MONITOR_HXP_TEMP_TEMP = raw % 65536 ∧ (s.hxpShown raw).mem = s.mem ∧
    (s.hxpShown raw).gov.hxpHot = hxpCount raw s.gov.hxpHot ∧ (s.hxpShown raw).on POWER_THERMAL_STATUS_TRIPPED = s.on POWER_THERMAL_STATUS_TRIPPED := by
  obtain ⟨hmem, hgov, hget⟩ := (s.put MONITOR_HXP_TEMP_TEMP (raw % 65536)).setGov_frame fun g => { g with hxpHot := hxpCount raw s.gov.hxpHot }
  refine ⟨(hget _).trans ?_, hmem.trans (State.put_mem _ _ _), congrArg GovSt.hxpHot hgov, congrArg (· != 0) ((hget _).trans ?_)⟩
  · exact (State.get_put_same _ _ _ (by decide) (by decide)).trans (Nat.mod_eq_of_lt (Nat.mod_lt _ (by decide)))
  · exact State.get_put_other _ _ _ _ (by decide)

/-! ### Voltage and process monitors (Power cap R494, R495) -/

/-- A monitor shows a reading. -/
def State.monShown (s : State) (reg v : Nat) : State := (s.put ⟨reg, 15, 0⟩ v).putB ⟨reg, 31, 31⟩ true

theorem State.monShown_spec (s : State) (reg : Nat) {v : Nat} (hv : v < 65536) : (s.monShown reg v).get ⟨reg, 15, 0⟩ = v ∧
    (s.monShown reg v).on ⟨reg, 31, 31⟩ = true ∧ Displayed (· = reg) s (s.monShown reg v) := by
  have hlow : (15 : Nat) < 64 ∧ (31 : Nat) < 64 ∧ (15 : Nat) < 31 := by decide
  refine ⟨?_, s.put ⟨reg, 15, 0⟩ v |>.on_putB_same ⟨reg, 31, 31⟩ true rfl hlow.2.1, ?_⟩
  · rw [State.monShown, State.putB, State.get_put_apart _ ⟨reg, 31, 31⟩ ⟨reg, 15, 0⟩ _ (Nat.le_refl 31) hlow.2.1 (.inr hlow.2.2),
      State.get_put_same _ ⟨reg, 15, 0⟩ v (Nat.zero_le 15) hlow.1]
    exact Nat.mod_eq_of_lt hv
  · have hvalid : (⟨reg, 31, 31⟩ : Fld).reg = reg := rfl
    have hreading : (⟨reg, 15, 0⟩ : Fld).reg = reg := rfl
    exact ((Displayed.refl (W := (· = reg)) s).put hreading).putB hvalid

theorem State.alarmTest_fires {s : State} {m raw : Nat} (hm : m < 144) (h : s.alarmFires m ((s.mon m).sampled (s.alarmOut m raw)) = true) :
    nbit ((s.alarmTest m raw).rdN (MONITOR_ALARM_STATUS (m / 32))) (m % 32) = true ∧ (s.alarmTest m raw).on ERROR_STATUS_NOTE = true ∧
      ((s.alarmTest m raw).mon m).fired = true := by
  obtain ⟨hbit, hnote, hmon⟩ := (s.setMon m fun x => x.sampled (s.alarmOut m raw)).alarmFired_spec hm
  rw [State.alarmTest_eq, if_pos h]
  exact ⟨hbit, hnote, by rw [hmon]⟩

theorem State.alarmTest_quiet {s : State} {m raw : Nat} (h : s.alarmFires m ((s.mon m).sampled (s.alarmOut m raw)) = false) :
    (∀ o, (s.alarmTest m raw).rdN o = s.rdN o) ∧ (s.alarmTest m raw).mon m = (s.mon m).sampled (s.alarmOut m raw) := by
  rw [State.alarmTest_eq, if_neg (by rw [h]; exact Bool.false_ne_true)]
  exact ⟨fun o => rfl, State.mon_setMon_same _ _ _⟩

/-- The levels of a voltage monitor are unsigned. -/
theorem State.alarmOut_volt (s : State) {m : Nat} (hm : 48 ≤ m) (v : Nat) :
    s.alarmOut m v = true ↔ s.get (MONITOR_ALARM_HI_LEVEL m) < v ∨ v < s.get (MONITOR_ALARM_LO_LEVEL m) := by
  have hlevel : ∀ x, levelOf m x = (x : Int) := fun x => if_neg (by omega)
  rw [State.alarmOut, Bool.or_eq_true, decide_eq_true_eq, decide_eq_true_eq, hlevel, hlevel, hlevel, Int.ofNat_lt, Int.ofNat_lt]

theorem sampled_outside (x : MonSt) : (x.sampled true).out = min 4 (x.out + 1) ∧ (x.sampled true).fired = x.fired := by
  simp [MonSt.sampled]

theorem sampled_inside (x : MonSt) : (x.sampled false).out = 0 ∧ (3 ≤ x.inn → (x.sampled false).fired = false) := by
  refine ⟨rfl, fun h => ?_⟩
  have hfull : min 4 (x.inn + 1) = 4 := by omega
  simp [MonSt.sampled, hfull]

/-- Settles O48: a process monitor, a voltage monitor and its alarm, a temperature sensor by the outcome of its self-check, and the HXP die. -/
theorem monitorsSampleAlarmAndTrip : Obligations.MonitorsSampleAlarmAndTrip := by
  intro raw s
  refine ⟨fun m hm => ⟨fun hon => ?process, fun hoff => ?asleep⟩, fun m hlo hhi => ?volt, fun m hm => ?temp, ?hxp⟩
  case process =>
    obtain ⟨hread, hvalid, hshown⟩ := s.monShown_spec (MONITOR_PROC (m - 80)) (Nat.mod_lt raw (by decide : 0 < 65536))
    exact ⟨_, congrArg Host.Outcome.next ((s.monSample_proc hm raw).trans (if_pos hon)), hread, hvalid, hshown.mem, hshown.gov⟩
  case asleep => exact congrArg Host.Outcome.next ((s.monSample_proc hm raw).trans (if_neg hoff))
  case volt =>
    intro off v out bit
    have hv : v < 65536 := by
      show (if off then 0 else raw % 65536) < 65536
      split <;> omega
    have hexec : exec (.monitorSample m raw) s = .next ((s.monShown (MONITOR_VOLT (m - 48)) v).alarmTest m v) :=
      congrArg Host.Outcome.next (s.monSample_volt hlo hhi (fun h => if_pos h) fun h => if_neg h)
    obtain ⟨hread, hvalid, hshown⟩ := s.monShown_spec (MONITOR_VOLT (m - 48)) hv
    have hlevels : ∀ i, MONITOR_ALARM_HI i ≠ MONITOR_VOLT (m - 48) ∧ MONITOR_ALARM_LO i ≠ MONITOR_VOLT (m - 48) ∧
        MONITOR_ALARM_STATUS i ≠ MONITOR_VOLT (m - 48) := fun i => by
      unfold MONITOR_ALARM_HI MONITOR_ALARM_LO MONITOR_ALARM_STATUS MONITOR_VOLT
      omega
    have hbounds : 0xB00000 ≤ MONITOR_VOLT (m - 48) ∧ MONITOR_VOLT (m - 48) < 0xB01400 := by
      unfold MONITOR_VOLT
      omega
    have hhigh : (s.monShown (MONITOR_VOLT (m - 48)) v).get (MONITOR_ALARM_HI_LEVEL m) = s.get (MONITOR_ALARM_HI_LEVEL m) := hshown.get _ (hlevels _).1
    have hlow : (s.monShown (MONITOR_VOLT (m - 48)) v).get (MONITOR_ALARM_LO_LEVEL m) = s.get (MONITOR_ALARM_LO_LEVEL m) := hshown.get _ (hlevels _).2.1
    have hen : (s.monShown (MONITOR_VOLT (m - 48)) v).cfgOn (MONITOR_ALARM_HI_EN m) = s.cfgOn (MONITOR_ALARM_HI_EN m) := hshown.cfgOn _ (hlevels _).1
    have hstatus : (s.monShown (MONITOR_VOLT (m - 48)) v).rdN (MONITOR_ALARM_STATUS (m / 32)) = s.rdN (MONITOR_ALARM_STATUS (m / 32)) :=
      hshown.rdN _ (hlevels _).2.2
    have hmon : (s.monShown (MONITOR_VOLT (m - 48)) v).mon m = s.mon m := by rw [State.mon, hshown.gov, State.mon]
    have hout := (s.monShown (MONITOR_VOLT (m - 48)) v).alarmOut_volt hlo v
    rw [hhigh, hlow] at hout
    have hmem := hshown.mem
    generalize s.monShown (MONITOR_VOLT (m - 48)) v = u at *
    have htest := (Unalarmed.refl u).alarmTest (raw := v) m.isLt
    have hquiet : u.alarmFires m ((s.mon m).sampled (u.alarmOut m v)) = false → bit (u.alarmTest m v) = bit s ∧
        (u.alarmTest m v).mon m = (s.mon m).sampled (u.alarmOut m v) := fun h => by
      rw [← hmon] at h
      obtain ⟨hrd, hkept⟩ := State.alarmTest_quiet h
      exact ⟨congrArg (nbit · (m % 32)) ((hrd _).trans hstatus), hkept.trans (by rw [hmon])⟩
    obtain ⟨hmore, hfired⟩ := sampled_outside (s.mon m)
    obtain ⟨hzero, hback⟩ := sampled_inside (s.mon m)
    refine ⟨_, hexec, (htest.get _ hbounds.1 hbounds.2).trans hread, (htest.on _ hbounds.1 hbounds.2).trans hvalid, htest.mem.trans hmem,
      fun ho hcount hnew hon => ?_, fun ho hcount => ?_, fun ho hold => ?_, fun ho => ?_, fun hoff => (hquiet ?_).1⟩
    · have hfire : u.alarmFires m ((s.mon m).sampled (u.alarmOut m v)) = true := by
        rw [hout.2 ho, State.alarmFires, hen, hon, hmore, hfired, hnew]
        simp
        omega
      exact State.alarmTest_fires m.isLt (by rw [hmon]; exact hfire)
    · rw [hout.2 ho] at hquiet
      obtain ⟨hbit, hkept⟩ := hquiet (by rw [State.alarmFires, hmore]; simp; omega)
      exact ⟨hbit, by rw [hkept, hmore]; omega⟩
    · rw [hout.2 ho] at hquiet
      exact (hquiet (by rw [State.alarmFires, hfired, hold]; simp)).1
    · rw [eq_false_of_ne_true fun k => ho (hout.1 k)] at hquiet
      obtain ⟨hbit, hkept⟩ := hquiet (by rw [State.alarmFires, hzero]; simp)
      exact ⟨hbit, by rw [hkept, hzero], fun h => by rw [hkept, hback h]⟩
    · rw [State.alarmFires, hen, hoff, Bool.false_and, Bool.false_and]
  case temp =>
    intro v twin far
    have hU := s.monSample_temp hm raw
    have hsensor := hU.sensor hm
    have hz := s.tempPaired_paired m raw
    obtain ⟨hmem, hread⟩ := s.tempJudged_shown hm raw
    refine ⟨_, rfl, hsensor.reading.trans hread, hU.mem.trans hmem, fun hrange => ?_, fun hlo hhi hfar hpair => ?_, fun hlo hhi hgood hfine => ?_,
      fun hlo hhi hnear hbad => ?_⟩
    · have hfails := (s.tempPaired m raw).sensorFail_fails hm
      have heq := State.tempJudged_range (s := s) (m := m) hrange
      rw [← heq] at hfails
      exact ⟨hsensor.failed.trans hfails.failed, hsensor.valid.trans hfails.valid,
        fun h => hU.raised _ classBit_degraded (hfails.told (hz.failed.trans h))⟩
    · have hfails := (s.tempPaired m raw).sensorFail_fails hm
      have htwin := ((s.tempPaired m raw).sensorFail m).sensorFail_fails (twinOf_lt hm).1
      have hkept := htwin.other m hm (twinOf_lt hm).2.symm
      have hpartner := hU.sensor (twinOf_lt hm).1
      have heq := State.tempJudged_far hm hlo hhi hfar hpair
      rw [← heq] at htwin hkept
      exact ⟨hsensor.failed.trans (hkept.failed.trans hfails.failed), hpartner.failed.trans htwin.failed,
        hsensor.valid.trans (hkept.valid.trans hfails.valid), hpartner.valid.trans htwin.valid⟩
    · have hacts := (s.tempPaired m raw).tempGood_good hm (min 1000 ((s.mon m).pass + 1)) v
      have heq := State.tempJudged_good hm hlo hhi hgood
      rw [← heq] at hacts
      have hstays : (s.tempPaired m raw).staysFailed m (min 1000 ((s.mon m).pass + 1)) = false := by
        rw [State.staysFailed, hz.failed, hfine, Bool.false_and]
      have hcount := tripCount_congr hz.trip v
      refine ⟨hsensor.valid.trans (hacts.valid hstays), hsensor.failed.trans (hacts.failed.trans hstays), fun hhot hone => ?_, fun hcool => ?_⟩
      · obtain ⟨htripped, hfatal⟩ := hacts.trips hstays (by rw [hcount, tripCount, if_pos hhot, hone])
        exact ⟨hU.tripped.trans htripped, hU.raised _ classBit_fatal hfatal⟩
      · have hzero : tripCount (s.mon m) v = 0 := if_neg (by omega)
        exact ⟨hU.tripped.trans ((hacts.calm hstays (by rw [hcount, hzero]; decide)).trans hz.tripped),
          (hU.trip m).trans ((hacts.trip hstays).trans (by rw [hcount, hzero]; rfl))⟩
    · have hacts := (s.tempPaired m raw).tempGood_good hm (min 1000 ((s.mon m).pass + 1)) v
      have heq := State.tempJudged_good hm hlo hhi (.inl hnear)
      rw [← heq] at hacts
      rw [hsensor.failed.trans hacts.failed, State.staysFailed, hz.failed, hbad, Bool.true_and, Bool.not_eq_true', decide_eq_false_iff_not]
      omega
  case hxp =>
    obtain ⟨hread, hmem, hhot, htripped⟩ := s.hxpShown_spec raw
    have htrip := (s.hxpShown raw).trip_trips 0xFFFF
    have hbounds : 0xB00000 ≤ MONITOR_HXP_TEMP ∧ MONITOR_HXP_TEMP < 0xB01400 := by decide
    refine ⟨_, exec_hxpTempRead s raw, ?_, ?_, fun hv hone => ?_, fun hv hzero => ?_, fun hv => ?_⟩
    · split
      · exact (congrArg (Word.bits · 15 0) (htrip.reading MONITOR_HXP_TEMP hbounds.1 hbounds.2)).trans hread
      · exact hread
    · split
      · exact htrip.mem.trans hmem
      · exact hmem
    · rw [if_pos (by rw [hxpCount, if_pos hv, hone]; rfl)]
      exact ⟨htrip.tripped, htrip.fatal⟩
    · have hcount : hxpCount raw s.gov.hxpHot = 1 := by rw [hxpCount, if_pos hv, hzero]; rfl
      rw [hcount, if_neg (by decide)]
      exact ⟨hhot.trans hcount, htripped⟩
    · have hcount : hxpCount raw s.gov.hxpHot = 0 := by rw [hxpCount, if_neg (by omega)]
      rw [hcount, if_neg (by decide)]
      exact ⟨hhot.trans hcount, htripped⟩

end Sys2Proof.Machine
end

section
/-! SUPPORT. What the completion of an envelope leaves of the fabric (Envelopes R92 to R97): its block's registers and all that it holds. One lemma per operation,
in the model's order. -/

namespace Sys2Proof.Machine
open Reg

/-- A register outside the fabric's block. -/
def OffFabric (o : Nat) : Prop := o < 0x900000 ∨ 0xA00000 ≤ o

theorem OffFabric.ite (c : Prop) [Decidable c] {f g : Fld} (hf : OffFabric f.reg) (hg : OffFabric g.reg) : OffFabric (if c then f else g).reg := by
  split <;> assumption

/-- A register of a ring. -/
theorem offFabric_ring {b : Nat} (r : Ring) (hb : Nat.ble b 0x70000 = true) : OffFabric (b + 0x40 * r) := by
  have hlo := Nat.le_of_ble_eq_true hb
  have hr := r.isLt
  exact .inl (by omega)

/-- `t` has the fabric of `s`, and the registers of its block. -/
structure FabricStays (s t : State) : Prop where
  fab : t.fab = s.fab
  rd : ∀ o, ¬OffFabric o → t.rd o = s.rd o

namespace FabricStays
variable {s t u : State}

theorem refl (s : State) : FabricStays s s := ⟨rfl, fun _ _ => rfl⟩
theorem trans (h : FabricStays s t) (k : FabricStays t u) : FabricStays s u := ⟨k.fab.trans h.fab, fun o ho => (k.rd o ho).trans (h.rd o ho)⟩

theorem ite (c : Prop) [Decidable c] {a b : State} (ha : FabricStays s a) (hb : FabricStays s b) : FabricStays s (if c then a else b) := by
  split <;> assumption

variable (h : FabricStays s t)
include h

theorem get (g : Fld) (hg : ¬OffFabric g.reg) : t.get g = s.get g := by rw [State.get, h.rd _ hg, State.get]
theorem rdN (o : Nat) (ho : ¬OffFabric o) : t.rdN o = s.rdN o := congrArg BitVec.toNat (h.rd o ho)

/-- An update of neither the registers nor the fabric. -/
theorem same (hregs : u.regs = t.regs) (hfab : u.fab = t.fab) : FabricStays s u :=
  h.trans ⟨hfab, fun o _ => by rw [State.rd, hregs, State.rd]⟩

theorem each {α : Type} {f : State → α → State} (hf : ∀ v x, FabricStays s v → FabricStays s (f v x)) (l : List α) : FabricStays s (t.each l f) :=
  List.foldlRecOn l f h fun v hv x _ => hf v x hv

/-! ### Writes of registers -/

theorem wr {o v} (ho : OffFabric o) : FabricStays s (t.wr o v) := h.trans ⟨rfl, fun i hi => t.rd_wr_other o i v fun e => hi (e ▸ ho)⟩
theorem wrN {o n} (ho : OffFabric o) : FabricStays s (t.wrN o n) := h.wr ho
theorem put {f n} (ho : OffFabric f.reg) : FabricStays s (t.put f n) := h.wr ho
theorem putB {f b} (ho : OffFabric f.reg) : FabricStays s (t.putB f b) := h.wr ho
theorem setBit {o i b} (ho : OffFabric o) : FabricStays s (t.setBit o i b) := h.wr ho
theorem addSat {o n} (ho : OffFabric o) : FabricStays s (t.addSat o n) := h.wr ho
theorem add64 {o n} (ho : OffFabric o) : FabricStays s (t.add64 o n) := h.wr ho
theorem setActing {l} : FabricStays s (t.setActing l) := h.same rfl rfl
theorem setFloor {f} : FabricStays s (t.setFloor f) := h.same rfl rfl
theorem setRing {r d} : FabricStays s (t.setRing r d) := h.same rfl rfl
theorem setTrust {f} : FabricStays s (t.setTrust f) := h.same rfl rfl
theorem clearNow {f} (ho : OffFabric f.reg) : FabricStays s (t.clearNow f) := h.setActing.put ho

theorem report {e} : FabricStays s (t.report e) :=
  h.trans ⟨t.report_fab e, fun o ho => t.rd_report e o (by unfold OffFabric at ho; unfold SECURE_SEC_NOTIFY; omega) (by unfold OffFabric at ho; omega)⟩

/-! ### Interrupts, and device and host memory -/

theorem sendIrq {i} : FabricStays s (t.sendIrq i) := h.same rfl rfl
theorem msix {f v} : FabricStays s (t.msix f v) := FabricStays.ite _ h h.sendIrq
theorem coreIrq {b n v} : FabricStays s (t.coreIrq b n v) := FabricStays.ite _ h.sendIrq h
theorem irqTo {f v n} : FabricStays s (t.irqTo f v n) := FabricStays.ite _ h.msix (FabricStays.ite _ h.coreIrq (FabricStays.ite _ h.coreIrq h))

theorem accReport {e} : FabricStays s (t.accReport e) := by
  unfold State.accReport
  split
  · exact h.report.wrN (.inl (by decide))
  · exact h.report
  · exact h.report
  · exact h.report
  · exact h

theorem wrMem {a b} : FabricStays s (t.wrMem a b) := h.same rfl rfl
theorem putPoison {l} : FabricStays s (t.putPoison l) := h.same rfl rfl
theorem setPoison {l} : FabricStays s (t.setPoison l) := h.putPoison.put (.inl (by decide))

theorem writeLine {a b} : FabricStays s (t.writeLine a b) :=
  FabricStays.ite _ h.report (FabricStays.ite _ (FabricStays.ite _ h.setPoison.wrMem h.report) h.wrMem)

theorem setFlip {a n} : FabricStays s (t.setFlip a n) := h.same rfl rfl

theorem eccWord {x} : FabricStays s (t.eccWord x) := by
  unfold State.eccWord
  extract_lets cache s₁
  have hs₁ : FabricStays s s₁ := h.setFlip
  split
  · exact h
  · next d hd =>
    have hlt := sramDistrict_lt hd
    have hcache : OffFabric (FLOOR_SC_ECC d) := .inl (by unfold FLOOR_SC_ECC; omega)
    have hstore : OffFabric (FLOOR_ECC_STATUS d) := .inl (by unfold FLOOR_ECC_STATUS; omega)
    extract_lets s₂ f s₃
    have hs₂ : FabricStays s s₂ := FabricStays.ite _ (hs₁.put hcache) (hs₁.put hstore)
    exact FabricStays.ite _ (hs₂.put (OffFabric.ite _ hcache hstore)).report (hs₂.putB (OffFabric.ite _ hcache hstore)).putPoison.report

theorem eccRead {a n} : FabricStays s (t.eccRead a n) := h.each (fun _ _ hv => hv.eccWord) _

theorem freshWord {w} : FabricStays s (t.freshWord w) := by
  unfold State.freshWord
  extract_lets s₁
  have hs₁ : FabricStays s s₁ := FabricStays.ite _ h.setFlip h
  exact FabricStays.ite _ hs₁.putPoison hs₁

theorem writeSram {a b} : FabricStays s (t.writeSram a b) := by
  unfold State.writeSram
  extract_lets w s₁
  have hs₁ : FabricStays s s₁ := h.eccRead
  exact FabricStays.ite _ h.report (FabricStays.ite _ (FabricStays.ite _ h.freshWord.wrMem (FabricStays.ite _ hs₁ hs₁.wrMem)) h)

theorem store {a b} : FabricStays s (t.store a b) :=
  FabricStays.ite _ (h.each (fun _ _ hv => hv.writeSram) _) (h.each (fun _ _ hv => hv.writeLine) _)

theorem addrWrite {f a b} : FabricStays s (t.addrWrite f a b).1 := by
  unfold State.addrWrite State.fnWrite
  split
  · split
    · exact h
    · split
      · exact h.same (u := t.wrHost _ _) rfl rfl
      · exact h.accReport (e := .host)
  · split
    · exact h.accReport
    · exact h.store

theorem traffic {k who a n} : FabricStays s (t.traffic k who a n) := by
  refine h.trans ⟨((RootStays.refl t).traffic).fab, fun o ho => t.rd_traffic (fun k hk => ?_) k who a n⟩
  unfold OffFabric at ho
  unfold MEMCTL_CLASS_BYTES
  omega

theorem portRead {k who router a n} (hk : k < 4) : FabricStays s (t.portRead k who router a n) := by
  refine FabricStays.ite _ ?_ h
  have hbytes : OffFabric (GLOBAL_MESH_CLASS_BYTES k) := .inl (by unfold GLOBAL_MESH_CLASS_BYTES; omega)
  exact (h.traffic.add64 hbytes).setFloor

/-! ### The firmware log ring and receipts -/

theorem ledgerPut {e} : FabricStays s (t.ledgerPut e) := by
  unfold State.ledgerPut
  extract_lets j a s₁
  have hs₁ : FabricStays s s₁ := FabricStays.ite _ h h.traffic
  split
  · next s' heq =>
    have hs' : FabricStays s s' := of_fst hs₁.addrWrite heq
    exact hs'.wrN (.inr (by decide))
  · next s' _ heq =>
    have hs' : FabricStays s s' := of_fst hs₁.addrWrite heq
    exact (hs'.clearNow (.inr (by decide))).report

theorem ledger {e} : FabricStays s (t.ledger e) := by
  have hrun : ∀ {v n}, FabricStays s v → FabricStays s (v.setLedgerRun n) := fun hv => hv.same rfl rfl
  unfold State.ledger
  refine FabricStays.ite _ h (FabricStays.ite _ ?_ ?_)
  · extract_lets s'
    have hs' : FabricStays s s' := (hrun h).addSat (.inr (by decide))
    exact FabricStays.ite _ hs'.report hs'
  · extract_lets s'
    have hs' : FabricStays s s' := FabricStays.ite _ h (hrun h).ledgerPut
    exact FabricStays.ite _ hs'.ledgerPut hs'

theorem endStamp {r f status} : FabricStays s (t.endStamp r f status) := FabricStays.ite _ h.ledger h

theorem signal {src i max? v} : FabricStays s (t.signal src i max? v) := by
  unfold State.signal
  refine FabricStays.ite _ ?_ h
  extract_lets c ops s₁ s₂
  have hs₂ : FabricStays s s₂ := h.same rfl rfl
  exact FabricStays.ite _ (hs₂.setBit (.inl (by decide))).report hs₂

/-! ### The ring engine -/

variable {r : Ring}

theorem countIrq : FabricStays s (t.countIrq r) := FabricStays.ite _ h.setRing.irqTo h.setRing

theorem putRecord {mk irq} : FabricStays s (t.putRecord r mk irq) := by
  unfold State.putRecord
  extract_lets j s₁ s₂
  have hs₂ : FabricStays s s₂ := h.addrWrite.traffic.wrN (offFabric_ring r rfl)
  exact FabricStays.ite _ hs₂.countIrq hs₂

theorem flushFlights {l} : FabricStays s (t.flushFlights r l) := by
  induction l generalizing t with
  | nil => exact h
  | cons f l ih =>
    rw [State.flushFlights]
    exact FabricStays.ite _ (FabricStays.ite _ (ih h.setRing) (FabricStays.ite _ (ih h.setRing.putRecord) h)) h

theorem flushUnsol {l} : FabricStays s (t.flushUnsol r l) := by
  induction l generalizing t with
  | nil => exact h
  | cons u l ih =>
    rw [State.flushUnsol]
    exact FabricStays.ite _ (ih h.setRing.putRecord) h

theorem flush : FabricStays s (t.flush r) := by
  unfold State.flush
  extract_lets s₁ s₂
  have hs₂ : FabricStays s s₂ := h.flushFlights.flushUnsol
  exact FabricStays.ite _ (hs₂.putB (f := RINGS_STATUS_RET_FULL r) (offFabric_ring r rfl)) hs₂

theorem ringOff : FabricStays s (t.ringOff r) := by
  unfold State.ringOff
  extract_lets s₁ s₂ s₃
  have hs₁ : FabricStays s s₁ := h.same rfl rfl
  have hs₂ : FabricStays s s₂ := ((hs₁.put (f := RINGS_STATUS_STATE r) (offFabric_ring r rfl)).putB (f := RINGS_STATUS_RET_FULL r) (offFabric_ring r rfl)).wrN
    (offFabric_ring r rfl)
  have hs₃ : FabricStays s s₃ := ((hs₂.wrN (offFabric_ring r rfl)).wrN (offFabric_ring r rfl)).wrN (offFabric_ring r rfl)
  exact (hs₃.wrN (offFabric_ring r rfl)).setRing

theorem stopped : FabricStays s (t.stopped r) :=
  ((h.put (f := RINGS_STATUS_STATE r) (offFabric_ring r rfl)).putB (f := RINGS_CTRL_STOP r) (offFabric_ring r rfl)).putB (f := RINGS_CTRL_ABORT r)
    (offFabric_ring r rfl)

theorem ringSettle : FabricStays s (t.ringSettle r) := by
  rcases t.ringSettle_cases r with heq | heq | heq <;> rw [heq]
  · exact h
  · exact h.stopped
  · exact h.stopped.ringOff

theorem ringStopping : FabricStays s (t.ringStopping r) := by
  unfold State.ringStopping
  refine FabricStays.ite _ ?_ h
  extract_lets gone n x s₁ s₂ s₃
  have hs₂ : FabricStays s s₂ := h.setRing.each (fun _ _ hv => hv.endStamp) _
  exact ((hs₂.put (f := RINGS_STATUS_STATE r) (offFabric_ring r rfl)).add64 (offFabric_ring r rfl)).flush.ringSettle

theorem complete {seq status result} : FabricStays s (t.complete r seq status result) := by
  unfold State.complete
  extract_lets fails
  split
  · exact h
  · refine FabricStays.ite _ h ?_
    extract_lets s₁ s₂ s₃ s₄ s₅ s₆ s₇
    have hs₂ : FabricStays s s₂ := (FabricStays.ite _ h.signal h).endStamp
    have hs₄ : FabricStays s s₄ := hs₂.setRing.add64 (offFabric_ring r rfl)
    have hs₅ : FabricStays s s₅ := FabricStays.ite _ (hs₄.put (f := RINGS_STATUS_LAST_FAIL r) (offFabric_ring r rfl)) hs₄
    exact (FabricStays.ite _ hs₅.flush.ringStopping hs₅.flush).ringSettle

/-! ### Seals (Trust R540) -/

theorem extendSeal {i d source} : FabricStays s (t.extendSeal i d source) := by
  unfold State.extendSeal
  extract_lets s₁
  have hs₁ : FabricStays s s₁ := h.setTrust
  exact FabricStays.ite _ hs₁.setTrust (FabricStays.ite _ hs₁ hs₁.setTrust.report)

end FabricStays

end Sys2Proof.Machine
end

section
/-! SUPPORT. Records of a load (Fabric R430, R434): the frames that they write, in rising order of address. -/

namespace Sys2Proof.Machine
open Reg

/-! ### A frame that is written -/

/-- The first `n` words of a frame, written. -/
def frameWritten (m : SMap Nat) (far : Nat) (ws : List Nat) (n : Nat) : SMap Nat :=
  (List.range n).foldl (fun m i => SMap.set (fun _ => 0) m (far * 128 + i) (ws.getD i 0 % 2 ^ 32)) m

theorem get_frameWritten (m : SMap Nat) (far : Nat) (ws : List Nat) (n k : Nat) : SMap.get (fun _ => 0) (frameWritten m far ws n) k =
    if far * 128 ≤ k ∧ k < far * 128 + n then ws.getD (k - far * 128) 0 % 2 ^ 32 else SMap.get (fun _ => 0) m k := by
  induction n with
  | zero => rw [if_neg (by omega)]; rfl
  | succ n ih =>
    have hstep : frameWritten m far ws (n + 1) = SMap.set (fun _ => 0) (frameWritten m far ws n) (far * 128 + n) (ws.getD n 0 % 2 ^ 32) := by
      rw [frameWritten, List.range_succ, List.foldl_append]
      rfl
    rw [hstep, SMap.get_set]
    by_cases hk : k = far * 128 + n
    · subst hk
      rw [if_pos rfl, if_pos (by omega), show far * 128 + n - far * 128 = n by omega]
    · rw [if_neg hk, ih]
      by_cases hin : far * 128 ≤ k ∧ k < far * 128 + n
      · rw [if_pos hin, if_pos (by omega)]
      · rw [if_neg hin, if_neg (by omega)]

theorem zip_range_getD {n : Nat} {ws : List Nat} (h : ws.length = n) : (List.range n).zip ws = (List.range n).map fun i => (i, ws.getD i 0) := by
  refine List.ext_getElem (by simp [h]) fun i hi _ => ?_
  have hlt : i < ws.length := by simp [h] at hi; omega
  simp [List.getD_eq_getElem?_getD, hlt]

theorem State.setFrame_frames (s : State) (far : Nat) {ws : List Nat} (h : ws.length = 81) :
    (s.setFrame far ws).fab.frames = frameWritten s.fab.frames far ws 81 := by
  show ((List.range 81).zip ws).foldl _ s.fab.frames = _
  rw [zip_range_getD h, List.foldl_map]
  rfl

theorem State.frame_setFrame_same (s : State) (far : Nat) {ws : List Nat} (h : ws.length = 81) : (s.setFrame far ws).frame far = ws.map (· % 2 ^ 32) := by
  refine List.ext_getElem (by simp [State.frame, h]) fun i hi _ => ?_
  have hlt : i < 81 := by simpa [State.frame] using hi
  have hlen : i < ws.length := by omega
  simp only [State.frame, List.getElem_map, List.getElem_range, s.setFrame_frames far h, get_frameWritten]
  rw [if_pos (by omega), show far * 128 + i - far * 128 = i by omega]
  simp [List.getD_eq_getElem?_getD, hlen]

theorem State.frame_setFrame_other (s : State) {far j : Nat} {ws : List Nat} (h : ws.length = 81) (hj : j ≠ far) : (s.setFrame far ws).frame j = s.frame j := by
  refine List.map_congr_left fun i hi => ?_
  have hlt := List.mem_range.1 hi
  rw [s.setFrame_frames far h, get_frameWritten, if_neg (by omega)]

/-! ### A record that is written -/

theorem recordWords_length (r : Bytes) : (recordWords r).length = 81 := by simp [recordWords]

theorem recordWords_mod (r : Bytes) : (recordWords r).map (· % 2 ^ 32) = recordWords r := by
  rw [recordWords, List.map_map]
  exact List.map_congr_left fun i _ => Nat.mod_eq_of_lt (fieldLE_lt r (8 + 4 * i) 4)

/-- A record changes the frames and the golden signatures alone. -/
theorem State.writeRecord_spec (s : State) (r : Bytes) : ∃ golden, s.writeRecord r = (s.setFrame (fieldLE r 0 4) (recordWords r)).setFab fun f => { f with golden := golden } := by
  unfold State.writeRecord
  extract_lets far ws u
  split
  · exact ⟨u.fab.golden, rfl⟩
  · exact ⟨_, rfl⟩

/-- What writing records leaves: everything but the frames and the signatures. -/
structure RecordsWritten (s t : State) : Prop where
  loads : t.fab.loads = s.fab.loads
  regs : t.regs = s.regs
  acting : t.acting = s.acting
  mem : t.mem = s.mem

theorem State.writeRecord_written (s : State) (r : Bytes) : RecordsWritten s (s.writeRecord r) := by
  obtain ⟨golden, heq⟩ := s.writeRecord_spec r
  rw [heq]
  exact ⟨rfl, rfl, rfl, rfl⟩

theorem State.frame_writeRecord (s : State) (r : Bytes) (far : Nat) :
    (s.writeRecord r).frame far = if far = fieldLE r 0 4 then recordWords r else s.frame far := by
  obtain ⟨golden, heq⟩ := s.writeRecord_spec r
  have hframe : (s.writeRecord r).frame far = (s.setFrame (fieldLE r 0 4) (recordWords r)).frame far := by rw [heq]; rfl
  rw [hframe]
  split
  · next h =>
    subst h
    rw [s.frame_setFrame_same _ (recordWords_length r), recordWords_mod]
  · next h => exact s.frame_setFrame_other (recordWords_length r) h

theorem State.each_writeRecord_written (rs : List Bytes) (s : State) : RecordsWritten s (s.each rs fun s r => s.writeRecord r) := by
  induction rs generalizing s with
  | nil => exact ⟨rfl, rfl, rfl, rfl⟩
  | cons r rs ih =>
    rw [State.each_cons]
    obtain ⟨hloads, hregs, hacting, hmem⟩ := s.writeRecord_written r
    obtain ⟨hloads', hregs', hacting', hmem'⟩ := ih (s.writeRecord r)
    exact ⟨hloads'.trans hloads, hregs'.trans hregs, hacting'.trans hacting, hmem'.trans hmem⟩

/-! ### Records in rising order -/

/-- A first record that passes its checks lies after the one before, and the others pass theirs. -/
theorem State.recordsFault_cons_none {s : State} {g : Nat} {bad : Option Nat} {r : Bytes} {rs : List Bytes} {i : Nat} {prev : Option Nat}
    (h : s.recordsFault g bad i prev (r :: rs) = none) :
    (∀ p, prev = some p → ¬ fieldLE r 0 4 ≤ p) ∧ s.recordsFault g bad (i + 1) (some (fieldLE r 0 4)) rs = none := by
  unfold State.recordsFault at h
  dsimp only at h
  split_ifs at h with hcrc hplace hbad
  simp only [Bool.or_eq_true, not_or] at hplace
  obtain ⟨⟨-, hnot⟩, -⟩ := hplace
  refine ⟨fun p hp hle => hnot ?_, h⟩
  subst hp
  exact decide_eq_true hle

/-- Records that pass their checks rise in address from the one before. -/
theorem State.records_rise {s : State} {g : Nat} {bad : Option Nat} {rs : List Bytes} {i : Nat} {prev : Option Nat}
    (h : s.recordsFault g bad i prev rs = none) : rs.Pairwise (fun x y => fieldLE x 0 4 < fieldLE y 0 4) ∧ ∀ p, prev = some p → ∀ x ∈ rs, p < fieldLE x 0 4 := by
  induction rs generalizing i prev with
  | nil => exact ⟨.nil, fun _ _ _ hx => absurd hx List.not_mem_nil⟩
  | cons r rs ih =>
    obtain ⟨hplace, hrest⟩ := State.recordsFault_cons_none h
    obtain ⟨hrise, hafter⟩ := ih hrest
    refine ⟨.cons (hafter _ rfl) hrise, fun p hp x hx => ?_⟩
    have hfirst : p < fieldLE r 0 4 := by
      exact Nat.lt_of_not_le (hplace p hp)
    rcases List.mem_cons.1 hx with rfl | hx
    · exact hfirst
    · exact Nat.lt_trans hfirst (hafter _ rfl x hx)

theorem State.frame_each_other (rs : List Bytes) (s : State) {far : Nat} (h : ∀ x ∈ rs, far ≠ fieldLE x 0 4) :
    (s.each rs fun s r => s.writeRecord r).frame far = s.frame far :=
  State.each_keeps (fun s : State => s.frame far) (fun u x hx => (u.frame_writeRecord x far).trans (if_neg (h x hx))) s

/-- Each record's frame holds its words. -/
theorem State.frame_each_record {rs : List Bytes} (hrise : rs.Pairwise fun x y => fieldLE x 0 4 < fieldLE y 0 4) (s : State) :
    ∀ x ∈ rs, (s.each rs fun s r => s.writeRecord r).frame (fieldLE x 0 4) = recordWords x := by
  induction rs generalizing s with
  | nil => exact fun _ hx => absurd hx List.not_mem_nil
  | cons r rs ih =>
    obtain ⟨hfirst, hrest⟩ := List.pairwise_cons.1 hrise
    intro x hx
    rw [State.each_cons]
    rcases List.mem_cons.1 hx with rfl | hx
    · rw [State.frame_each_other rs _ fun y hy => Nat.ne_of_lt (hfirst y hy), State.frame_writeRecord, if_pos rfl]
    · exact ih hrest _ x hx

end Sys2Proof.Machine
end

section
/-! SUPPORT. Loads (Fabric R433 to R438): a load that is held or refused, and what the engine's work on the load that started first leaves. -/

namespace Sys2Proof.Machine
open Reg

/-! ### The traffic of a load -/

theorem FabricStays.loadTraffic {s t : State} (h : FabricStays s t) {r seq a n : Nat} : FabricStays s (t.loadTraffic r seq a n) :=
  FabricStays.ite _ h (h.portRead (t.ringClass_lt r))

/-- A register that the engine's work on a load changes: the state and the identity of its region, and the bytes counted by class. -/
def LoadReg (g o : Nat) : Prop := o = FABRIC_REGION_IMAGE g ∨ o = FABRIC_REGION_STATE g ∨ (GLOBAL_MESH_CLASS_BYTES 0 ≤ o ∧ o < GLOBAL_MESH_CLASS_BYTES 4) ∨
  (MEMCTL_CLASS_BYTES 0 ≤ o ∧ o < MEMCTL_CLASS_BYTES 4)

/-- What the engine's work on a load leaves: memory, the power domains, the rings and the other registers. -/
structure LoadWork (g : Nat) (s t : State) : Prop extends RegsBut (LoadReg g) s t where
  mem : t.mem = s.mem
  hostMem : t.hostMem = s.hostMem
  poison : t.poison = s.poison
  pwr : t.pwr = s.pwr
  rings : t.rings = s.rings

theorem Displayed.poison {W : Nat → Prop} {s t : State} (h : Displayed W s t) : t.poison = s.poison := by obtain ⟨_, _, _, rfl⟩ := h; rfl

namespace LoadWork
variable {g : Nat} {s t u : State}

theorem refl (s : State) : LoadWork g s s := ⟨.refl s, rfl, rfl, rfl, rfl, rfl⟩

theorem trans (h : LoadWork g s t) (k : LoadWork g t u) : LoadWork g s u :=
  ⟨h.toRegsBut.trans k.toRegsBut, k.mem.trans h.mem, k.hostMem.trans h.hostMem, k.poison.trans h.poison, k.pwr.trans h.pwr, k.rings.trans h.rings⟩

section changes
variable (h : LoadWork g s t)
include h

theorem displayed {W : Nat → Prop} (k : Displayed W t u) (hW : ∀ o, W o → LoadReg g o) : LoadWork g s u :=
  h.trans ⟨(k.mono hW).toRegsBut, k.mem, k.hostMem, k.poison, k.pwr, k.rings⟩

theorem setFab {f : FabSt → FabSt} : LoadWork g s (t.setFab f) := h.trans ⟨.of_regs rfl rfl, rfl, rfl, rfl, rfl, rfl⟩
theorem setFloor {f : FloorSt → FloorSt} : LoadWork g s (t.setFloor f) := h.trans ⟨.of_regs rfl rfl, rfl, rfl, rfl, rfl, rfl⟩

theorem setRegion {st : Nat} : LoadWork g s (t.setRegion g st) :=
  h.displayed (t.setRegion_displayed g st) fun _ ho => .inr (.inl ho)

theorem wrImage {n : Nat} : LoadWork g s (t.wrN (FABRIC_REGION_IMAGE g) n) :=
  h.displayed ((Displayed.refl (W := (· = FABRIC_REGION_IMAGE g)) t).wrN rfl) fun _ ho => .inl ho

theorem regionClear : LoadWork g s (t.regionClear g) := h.setFab.wrImage.setRegion

theorem loadTraffic {r seq a n : Nat} : LoadWork g s (t.loadTraffic r seq a n) := by
  refine h.trans ?_
  unfold State.loadTraffic
  split
  · exact refl t
  · unfold State.portRead
    split
    · have hspent := Spent.traffic t (t.ringClass r) (some (r, seq)) a n
      have hregs : RegsBut (LoadReg g) t (t.traffic (t.ringClass r) (some (r, seq)) a n) := by
        obtain ⟨_, _, heq⟩ := hspent.parts
        refine ⟨by rw [heq], fun o ho => t.rd_traffic (fun k hk hko => ho (.inr (.inr (.inr ?_)))) _ _ _ _⟩
        unfold MEMCTL_CLASS_BYTES at hko ⊢
        omega
      have hwork : LoadWork g t (t.traffic (t.ringClass r) (some (r, seq)) a n) := by
        obtain ⟨_, _, heq⟩ := hspent.parts
        rw [heq] at hregs ⊢
        exact ⟨hregs, rfl, rfl, rfl, rfl, rfl⟩
      have hbytes : LoadReg g (GLOBAL_MESH_CLASS_BYTES (t.ringClass r)) := .inr (.inr (.inl (by
        have := t.ringClass_lt r
        unfold GLOBAL_MESH_CLASS_BYTES
        omega)))
      exact (hwork.displayed (W := (· = GLOBAL_MESH_CLASS_BYTES (t.ringClass r))) ((Displayed.refl _).wrN rfl) fun o ho => ho ▸ hbytes).setFloor
    · exact refl t

end changes

section reads
variable (h : LoadWork g s t)
include h

theorem aside : Aside s t := by
  refine ⟨fun o ho => h.rd o fun k => ?_, h.rings⟩
  unfold InRings at ho
  unfold LoadReg FABRIC_REGION_IMAGE FABRIC_REGION_STATE GLOBAL_MESH_CLASS_BYTES MEMCTL_CLASS_BYTES at k
  omega

theorem checks (hg : g < 8) : SameChecks s t := h.toRegsBut.checks h.pwr fun o ho k => by
  unfold CheckReg at ho
  unfold POWER_DOM_STATUS GLOBAL_BOOT_STATUS GLOBAL_PCIE_STATUS MEMCTL_DX_STATUS MEMCTL_HOST_CLASS at ho
  unfold LoadReg FABRIC_REGION_IMAGE FABRIC_REGION_STATE GLOBAL_MESH_CLASS_BYTES MEMCTL_CLASS_BYTES at k
  omega

theorem addrRead (hg : g < 8) {f : Nat} (hf : f < 32) (a n : Nat) : t.addrRead f a n = s.addrRead f a n := by
  have hmem : t.rdMem a n = s.rdMem a n := by rw [State.rdMem, h.mem, State.rdMem]
  have hhost : t.rdHost (a % 2 ^ 63) n = s.rdHost (a % 2 ^ 63) n := by rw [State.rdHost, h.hostMem, State.rdHost]
  have hpoison : t.poisoned a n = s.poisoned a n := by rw [State.poisoned, h.poison, State.poisoned]
  rw [State.addrRead, State.fnRead, (h.checks hg).on _ checkReg_pcie, (h.checks hg).fnCheck hf, hmem, hhost, hpoison, State.addrRead, State.fnRead]

theorem regionPair (j : Nat) : t.regionPair j = s.regionPair j := by
  have hfirst : ¬LoadReg g (FABRIC_REGION_FIRST_COLUMN j).reg := by
    show ¬LoadReg g (0x901000 + 0x40 * j)
    unfold LoadReg FABRIC_REGION_IMAGE FABRIC_REGION_STATE GLOBAL_MESH_CLASS_BYTES MEMCTL_CLASS_BYTES
    omega
  have hcount : ¬LoadReg g (FABRIC_REGION_COUNT_COLUMNS j).reg := by
    show ¬LoadReg g (0x901004 + 0x40 * j)
    unfold LoadReg FABRIC_REGION_IMAGE FABRIC_REGION_STATE GLOBAL_MESH_CLASS_BYTES MEMCTL_CLASS_BYTES
    omega
  rw [State.regionPair, h.get _ hfirst, h.get _ hcount, State.regionPair]

theorem farIn (j far : Nat) : t.farIn j far = s.farIn j far := by rw [State.farIn, h.regionPair, State.farIn]

theorem recordsFault (j : Nat) (bad : Option Nat) (rs : List Bytes) (i : Nat) (prev : Option Nat) :
    t.recordsFault j bad i prev rs = s.recordsFault j bad i prev rs := by
  induction rs generalizing i prev with
  | nil => rfl
  | cons r rs ih =>
    unfold State.recordsFault
    dsimp only
    rw [h.farIn, ih]

theorem round : t.round = s.round := h.toRegsBut.round (by
  unfold LoadReg FABRIC_REGION_IMAGE FABRIC_REGION_STATE GLOBAL_MESH_CLASS_BYTES MEMCTL_CLASS_BYTES ROUND_COUNT
  omega)

end reads

end LoadWork

end Sys2Proof.Machine
end

section
/-! SUPPORT. The engine begins a load (Fabric R434, R435): its records are checked and written, or its region is EMPTY and its envelope fails. -/

namespace Sys2Proof.Machine
open Reg

/-! ### A load that is held or refused -/

section held
variable {s : State} {r : Ring} {f : Flight} (hf : s.flight r f.seq = some f) (hst : f.stage = .started) (hk : Env.kind f.env = 11)
  (hnew : (s.fab.loads.any fun l => l.ring == r.val && l.seq == f.seq) = false)
include hf hst hk hnew

/-- A load that passes its checks is held. -/
theorem exec_fabricLoad_held (hok : s.loadChecks r f.env = .ok ()) : exec (.fabricLoad r f.seq) s =
    .next ((s.loadTraffic r f.seq (fieldLE f.env 0x18 8) 128).setFab fun b =>
      { b with loads := b.loads ++ [⟨r, f.seq, fieldLE f.env 0x24 1, s.on (FABRIC_REGION_POLICY_AUTH (fieldLE f.env 0x24 1)), none, []⟩] }) := by
  show execFabricLoad r f.seq s = _
  rw [execFabricLoad, ← hk, s.startedOf_of_flight r f.seq hf hst]
  dsimp only
  rw [hnew, if_neg Bool.false_ne_true, hok]

/-- A load that fails a check ends. -/
theorem exec_fabricLoad_fails {x : State × Nat × Nat} (herr : s.loadChecks r f.env = .error x) : exec (.fabricLoad r f.seq) s =
    .next (x.1.complete r f.seq x.2.1 x.2.2) := by
  show execFabricLoad r f.seq s = _
  rw [execFabricLoad, ← hk, s.startedOf_of_flight r f.seq hf hst]
  dsimp only
  rw [hnew, if_neg Bool.false_ne_true, herr]

end held

/-- The fourth check of a load: its count of frames is its region's. -/
theorem State.loadChecks_count {s : State} {r : Nat} {e : Bytes} (hg : fieldLE e 0x24 1 ≤ 7) (hdom : s.dom 19 = 0) (hpair : (s.regionPair (fieldLE e 0x24 1)).2 ≠ 0)
    (hfree : (s.fab.loads.any fun l => l.g == fieldLE e 0x24 1) = false) (hcount : fieldLE e 0x20 4 ≠ s.frameCount (fieldLE e 0x24 1)) :
    s.loadChecks r e = .error (s, 0x8B08, s.frameCount (fieldLE e 0x24 1)) := by
  unfold State.loadChecks
  dsimp only
  rw [if_neg (by omega), if_neg (by simp [hdom]), if_neg hpair, if_neg (by simp [hfree]), if_pos (by simp [hcount])]

/-! ### The load that the engine begins -/

/-- The region of the load is LOADING, and the engine reads the records. -/
def State.loadReady (s : State) (l : FabLoad) (e : Bytes) : State :=
  (((s.regionClear l.g).wrN (FABRIC_REGION_IMAGE l.g) (s.rdN (FABRIC_REGION_IMAGE l.g))).setRegion l.g 1).loadTraffic l.ring l.seq (fieldLE e 0x18 8 + 128)
    (336 * fieldLE e 0x20 4)

theorem State.loadReady_work (s : State) (l : FabLoad) (e : Bytes) : LoadWork l.g s (s.loadReady l e) :=
  (LoadWork.refl s).regionClear.wrImage.setRegion.loadTraffic

theorem State.loadReady_stays (s : State) (l : FabLoad) (e : Bytes) :
    FabricStays (((s.regionClear l.g).wrN (FABRIC_REGION_IMAGE l.g) (s.rdN (FABRIC_REGION_IMAGE l.g))).setRegion l.g 1) (s.loadReady l e) :=
  (FabricStays.refl _).loadTraffic

theorem not_offFabric_region {b g : Nat} (hg : g < 8) (hlo : Nat.ble 0x901000 b = true) (hhi : Nat.ble b 0x90103F = true) : ¬OffFabric (b + 0x40 * g) := by
  have := Nat.le_of_ble_eq_true hlo
  have := Nat.le_of_ble_eq_true hhi
  unfold OffFabric
  omega

theorem FabricStays.regionState {s t : State} (h : FabricStays s t) {g : Nat} (hg : g < 8) : t.regionState g = s.regionState g :=
  h.get (FABRIC_REGION_STATE_STATE g) (not_offFabric_region hg rfl rfl)

theorem State.loadReady_state (s : State) (l : FabLoad) (e : Bytes) (hg : l.g < 8) : (s.loadReady l e).regionState l.g = 1 := by
  rw [(s.loadReady_stays l e).regionState hg, State.setRegion_state _ _ (by decide)]

theorem State.loadReady_fab (s : State) (l : FabLoad) (e : Bytes) : (s.loadReady l e).fab = (s.regionClear l.g).fab := by
  rw [(s.loadReady_stays l e).fab, (State.setRegion_displayed _ l.g 1).fab, State.wrN_fab]

theorem State.loadReady_loads (s : State) (l : FabLoad) (e : Bytes) : (s.loadReady l e).fab.loads = s.fab.loads := by
  rw [s.loadReady_fab l e, State.regionClear_fab]

theorem State.loadReady_approved (s : State) (l : FabLoad) (e : Bytes) : (s.loadReady l e).fab.approved = s.fab.approved := by
  rw [s.loadReady_fab l e, State.regionClear_fab]

theorem State.loadBegin_eq (s : State) (l : FabLoad) (e : Bytes) (bad : Option Nat) : s.loadBegin l e bad =
    match (s.loadReady l e).loadOutcome l e bad with
    | .error x => x.1.loadFail l x.2.1 x.2.2
    | .ok (id, rs, digest) =>
      ((s.loadReady l e).each rs fun s r => s.writeRecord r).setFab fun f => { f with loads := f.loads.map fun x =>
        if x.ring == l.ring && x.seq == l.seq then { x with image := some (id, (s.loadReady l e).round), digest := digest } else x } := rfl

section outcome
variable {s t : State} {l : FabLoad} {e : Bytes} {bad : Option Nat} (h : LoadWork l.g s t) (hg : l.g < 8) (hr : l.ring < 4096)
include h hg hr

/-- The outcome of the records is the same on what the engine's work has left. -/
theorem LoadWork.loadOutcome_ok (happroved : t.fab.approved = s.fab.approved) {x : Nat × List Bytes × Bytes} (hok : s.loadOutcome l e bad = .ok x) :
    t.loadOutcome l e bad = .ok x := by
  have hf : s.ringFn l.ring < 32 := Word.bits_lt _ 20 16
  unfold State.loadOutcome at hok ⊢
  dsimp only at hok ⊢
  rw [(h.checks hg).ringFn hr, h.addrRead hg hf, h.addrRead hg hf]
  generalize s.addrRead (s.ringFn l.ring) (fieldLE e 24 8) 128 = head at hok ⊢
  generalize s.addrRead (s.ringFn l.ring) (fieldLE e 24 8 + 128) (336 * fieldLE e 32 4) = body at hok ⊢
  cases head with
  | error x => cases hok
  | ok a =>
    cases body with
    | error x => cases hok
    | ok b =>
      dsimp only at hok ⊢
      rw [h.recordsFault, happroved]
      cases hfault : s.recordsFault l.g bad 0 none (rowsOf b 336) with
      | some x => rw [hfault] at hok; cases hok
      | none =>
        rw [hfault] at hok
        dsimp only at hok ⊢
        split_ifs at hok with hcrc hauth
        rw [if_neg hcrc, if_neg hauth]
        exact hok

theorem LoadWork.loadOutcome_fault {a b : Bytes} {x : Nat × Nat} (hhead : s.addrRead (s.ringFn l.ring) (fieldLE e 0x18 8) 128 = .ok a)
    (hbody : s.addrRead (s.ringFn l.ring) (fieldLE e 0x18 8 + 128) (336 * fieldLE e 0x20 4) = .ok b) (hfault : s.recordsFault l.g bad 0 none (rowsOf b 336) = some x) :
    t.loadOutcome l e bad = .error (t, x) := by
  have hf : s.ringFn l.ring < 32 := Word.bits_lt _ 20 16
  unfold State.loadOutcome
  dsimp only
  rw [(h.checks hg).ringFn hr, h.addrRead hg hf, h.addrRead hg hf, hhead, hbody]
  dsimp only
  rw [h.recordsFault, hfault]

end outcome

/-- The records of a load that is accepted pass their checks. -/
theorem State.recordsFault_of_loadOutcome {s : State} {l : FabLoad} {e : Bytes} {bad : Option Nat} {id : Nat} {rs : List Bytes} {dg : Bytes}
    (hok : s.loadOutcome l e bad = .ok (id, rs, dg)) : s.recordsFault l.g bad 0 none rs = none := by
  unfold State.loadOutcome at hok
  dsimp only at hok
  split at hok
  · cases hok
  · cases hok
  · split at hok
    · cases hok
    next hnone =>
    split_ifs at hok
    cases hok
    exact hnone

/-- The status of a record that fails. -/
theorem State.recordsFault_status {s : State} {g : Nat} {bad : Option Nat} {rs : List Bytes} {i : Nat} {prev : Option Nat} {x : Nat × Nat}
    (h : s.recordsFault g bad i prev rs = some x) : x.1 = 0x8B02 ∨ x.1 = 0x8B03 ∨ x.1 = 0x8B04 := by
  induction rs generalizing i prev with
  | nil => cases h
  | cons r rs ih =>
    unfold State.recordsFault at h
    dsimp only at h
    split_ifs at h
    · cases h
      exact .inl rfl
    · cases h
      exact .inr (.inl rfl)
    · cases h
      exact .inr (.inr rfl)
    · exact ih h

/-! ### A load whose records pass -/

theorem State.loadBegin_ok {s : State} {l : FabLoad} {e : Bytes} {bad : Option Nat} (hg : l.g < 8) (hr : l.ring < 4096) (hl : l ∈ s.fab.loads) {id : Nat}
    {rs : List Bytes} {dg : Bytes} (hok : s.loadOutcome l e bad = .ok (id, rs, dg)) : (s.loadBegin l e bad).regionState l.g = 1 ∧
    (∀ x ∈ rs, (s.loadBegin l e bad).frame (fieldLE x 0 4) = recordWords x) ∧
    ((s.loadBegin l e bad).fab.loads.any fun y => y.ring == l.ring && y.seq == l.seq && y.image == some (id, s.round)) = true ∧ (s.loadBegin l e bad).mem = s.mem := by
  have hwork := s.loadReady_work l e
  have hrise := (State.records_rise (State.recordsFault_of_loadOutcome hok)).1
  rw [s.loadBegin_eq, hwork.loadOutcome_ok hg hr (s.loadReady_approved l e) hok]
  dsimp only
  have hwritten := State.each_writeRecord_written rs (s.loadReady l e)
  have hframes := State.frame_each_record hrise (s.loadReady l e)
  have hstate := s.loadReady_state l e hg
  have hloads := s.loadReady_loads l e
  rw [hwork.round]
  generalize (s.loadReady l e).each rs (fun s r => s.writeRecord r) = v at hwritten hframes ⊢
  refine ⟨?_, hframes, ?_, hwritten.mem.trans hwork.mem⟩
  · show v.regionState l.g = 1
    rw [← hstate, State.regionState, State.get, State.rd, hwritten.regs]
    rfl
  · show (List.any (v.fab.loads.map _) _) = true
    rw [hwritten.loads, hloads, List.any_map, List.any_eq_true]
    exact ⟨l, hl, by simp⟩

/-! ### A load a record of which fails -/

/-- A load that fails leaves its region EMPTY and its frames zero. -/
theorem State.loadFail_spec {s t : State} {l : FabLoad} {f : Flight} (hf : s.flight l.ring f.seq = some f) (hseq : l.seq = f.seq) (hst : f.stage = .started) (hg : l.g < 8)
    (hr : l.ring < 4096) (h : LoadWork l.g s t) {status : Nat} (hfail : status ≠ 0) (hcancel : status ≠ 9) (hsize : status < 2 ^ 16) (result : Nat) :
    (t.loadFail l status result).regionState l.g = 0 ∧ (t.loadFail l status result).rdN (FABRIC_REGION_IMAGE l.g) = 0 ∧
      (t.loadFail l status result).get (RINGS_STATUS_LAST_FAIL l.ring) = status ∧
      ∀ far, s.farIn l.g far = true → (t.loadFail l status result).frame far = List.replicate 81 0 := by
  let r : Ring := ⟨l.ring, hr⟩
  have hclear : ∀ v : State, LoadWork l.g s v → (((v.regionClear l.g).complete r f.seq status result).regionState l.g = 0 ∧
      ((v.regionClear l.g).complete r f.seq status result).rdN (FABRIC_REGION_IMAGE l.g) = 0 ∧
      ((v.regionClear l.g).complete r f.seq status result).get (RINGS_STATUS_LAST_FAIL r) = status ∧
      ∀ far, s.farIn l.g far = true → ((v.regionClear l.g).complete r f.seq status result).frame far = List.replicate 81 0) := by
    intro v hv
    have hstays : FabricStays (v.regionClear l.g) ((v.regionClear l.g).complete r f.seq status result) := (FabricStays.refl _).complete
    refine ⟨?_, ?_, ?_, fun far hfar => ?_⟩
    · rw [hstays.regionState hg, State.regionClear_state]
    · rw [hstays.rdN (FABRIC_REGION_IMAGE l.g) (not_offFabric_region (b := 0x901010) hg rfl rfl), State.regionClear_image]
    · exact Aside.lastFail_complete s r hf hst hv.regionClear.aside status result hfail hcancel hsize
    · rw [State.frame, hstays.fab, ← State.frame, frame_cleared (congrArg FabSt.frames (v.regionClear_fab l.g)), hv.farIn, if_pos hfar]
  rw [State.loadFail, hseq]
  exact hclear _ h.setFab

theorem State.loadBegin_fault {s : State} {l : FabLoad} {f : Flight} {bad : Option Nat} (hf : s.flight l.ring f.seq = some f) (hseq : l.seq = f.seq)
    (hst : f.stage = .started) (hg : l.g < 8) (hr : l.ring < 4096) {a b : Bytes} {st i : Nat} (hhead : s.addrRead (s.ringFn l.ring) (fieldLE f.env 0x18 8) 128 = .ok a)
    (hbody : s.addrRead (s.ringFn l.ring) (fieldLE f.env 0x18 8 + 128) (336 * fieldLE f.env 0x20 4) = .ok b)
    (hfault : s.recordsFault l.g bad 0 none (rowsOf b 336) = some (st, i)) :
    (s.loadBegin l f.env bad).regionState l.g = 0 ∧ (s.loadBegin l f.env bad).rdN (FABRIC_REGION_IMAGE l.g) = 0 ∧
      (s.loadBegin l f.env bad).get (RINGS_STATUS_LAST_FAIL l.ring) = st ∧
      ∀ far, far < 65536 → s.farIn l.g far = true → (s.loadBegin l f.env bad).frame far = List.replicate 81 0 := by
  have hwork := s.loadReady_work l f.env
  have hstatus : st ≠ 0 ∧ st ≠ 9 ∧ st < 2 ^ 16 := by
    have : st = 0x8B02 ∨ st = 0x8B03 ∨ st = 0x8B04 := State.recordsFault_status hfault
    omega
  obtain ⟨hfail, hcancel, hsize⟩ := hstatus
  rw [s.loadBegin_eq, hwork.loadOutcome_fault hg hr hhead hbody hfault]
  dsimp only
  obtain ⟨hstate, himage, hlast, hframes⟩ := State.loadFail_spec hf hseq hst hg hr hwork hfail hcancel hsize i
  exact ⟨hstate, himage, hlast, fun far _ hfar => hframes far hfar⟩

/-- The engine begins the load that started first. -/
theorem exec_fabricLoadBegin {s : State} {bad : Option Nat} {l : FabLoad} {f : Flight} (hfirst : (s.fab.loads.find? fun l => l.image.isNone) = some l)
    (hf : s.flight l.ring l.seq = some f) (hst : f.stage = .started) (hk : Env.kind f.env = 11) (hdom : s.dom 19 = 0) (hcmd : s.fab.cmd = none)
    (hbusy : s.engineBusy = false) (hprep : s.preparing 19 = false) : exec (.fabricLoadBegin bad) s = .next (s.loadBegin l f.env bad) := by
  show execFabricLoadBegin bad s = _
  rw [execFabricLoadBegin, hfirst]
  dsimp only
  rw [← hk, s.startedOf_of_flight l.ring l.seq hf hst]
  dsimp only
  rw [if_pos (by simp [hdom, hcmd, hbusy, hprep])]

end Sys2Proof.Machine
end

section
/-! SUPPORT. A release, a fault and an upset of a region, and its HOLD (Fabric R429, R438 to R443); and the obligation on loads. -/

namespace Sys2Proof.Machine
open Reg

/-! ### A release -/

theorem Aside.setTrust {s t : State} (h : Aside s t) {f : TrustSt → TrustSt} : Aside s (t.setTrust f) := h.same rfl rfl

theorem Aside.extendSeal {s t : State} (h : Aside s t) {i : Nat} {d : Bytes} {source : Nat} : Aside s (t.extendSeal i d source) := by
  unfold State.extendSeal
  extract_lets s₁
  have hs₁ : Aside s s₁ := h.setTrust
  exact Aside.ite _ hs₁.setTrust (Aside.ite _ hs₁ hs₁.setTrust.report)

theorem LoadWork.release {g : Nat} {u : State} (p : FabLoad → Bool) (id : Nat) :
    LoadWork g u (((u.setFab fun f => { f with loads := f.loads.filter p }).wrN (FABRIC_REGION_IMAGE g) id).setRegion g 2) :=
  (LoadWork.refl u).setFab.wrImage.setRegion

/-- The region of a load that is released is ACTIVE with its identity, and the envelope is done. -/
theorem State.release_spec {s u : State} {g : Nat} (hg : g < 8) {r : Ring} {f : Flight} (hf : s.flight r f.seq = some f) (hst : f.stage = .started) (haside : Aside s u)
    (hfab : u.fab = s.fab) {id : Nat} (hid : id < 2 ^ 32) {t : State}
    (ht : t = (((u.setFab fun f => { f with loads := f.loads.filter fun x => x.g != g }).wrN (FABRIC_REGION_IMAGE g) id).setRegion g 2).complete r f.seq 0 id) :
    t.regionState g = 2 ∧ t.rdN (FABRIC_REGION_IMAGE g) = id ∧ (t.fab.loads.any fun x => x.g == g) = false ∧ t.fab.frames = s.fab.frames ∧
      t.rdN (RINGS_DONE_COUNT r) = min (s.rdN (RINGS_DONE_COUNT r) + 1) (2 ^ 64 - 1) := by
  have hregion := State.setRegion_displayed ((u.setFab fun f => { f with loads := f.loads.filter fun x => x.g != g }).wrN (FABRIC_REGION_IMAGE g) id) g 2
  have hstate := State.setRegion_state ((u.setFab fun f => { f with loads := f.loads.filter fun x => x.g != g }).wrN (FABRIC_REGION_IMAGE g) id) g (st := 2) (by decide)
  have hwork := LoadWork.release (g := g) (u := u) (fun x => x.g != g) id
  have himage := hregion.rdN (FABRIC_REGION_IMAGE g) (by unfold FABRIC_REGION_IMAGE FABRIC_REGION_STATE; omega)
  rw [State.rdN_wrN_same, Nat.mod_eq_of_lt (by omega)] at himage
  have hfab₁ := hregion.fab
  rw [State.wrN_fab, State.setFab_fab, hfab] at hfab₁
  generalize State.setRegion _ g 2 = v at ht hstate himage hwork hfab₁
  have hdone := Aside.done_complete s r hf hst (haside.trans hwork.aside) id
  have hstays : FabricStays v (v.complete r f.seq 0 id) := (FabricStays.refl v).complete
  subst ht
  refine ⟨(hstays.regionState hg).trans hstate, (hstays.rdN (FABRIC_REGION_IMAGE g) (not_offFabric_region (b := 0x901010) hg rfl rfl)).trans himage, ?_, ?_, hdone⟩
  · rw [hstays.fab, hfab₁]
    simp
  · rw [hstays.fab, hfab₁]

section release
variable {s : State} {g : Fin 8} {l : FabLoad} {id n : Nat} (hl : (s.fab.loads.find? fun l => l.g == g.val) = some l) (himage : l.image = some (id, n))
include hl himage

theorem exec_fabricRelease (hn : n < s.round) (hdom : s.dom 19 = 0) (hwaits : s.memWaits l.ring l.seq = false) : exec (.fabricRelease g) s =
    .next (((((if l.auth then s.extendSeal 5 l.digest 0 else s).setFab fun f => { f with loads := f.loads.filter fun x => x.g != g.val }).wrN
      (FABRIC_REGION_IMAGE g) id).setRegion g 2).complete l.ring l.seq 0 id) := by
  show execFabricRelease g s = _
  rw [execFabricRelease, hl]
  dsimp only
  rw [himage]
  dsimp only
  rw [if_pos (by simp [hn, hdom, hwaits])]

theorem exec_fabricRelease_early (hn : s.round ≤ n) : exec (.fabricRelease g) s = .next s := by
  show execFabricRelease g s = _
  rw [execFabricRelease, hl]
  dsimp only
  rw [himage]
  dsimp only
  rw [if_neg (by simp [hn])]

end release

/-! ### An upset -/

/-- The end of a visit writes the count of passes, and the frames visited. -/
theorem State.scrubVisit_spec (s : State) (far : Nat) : (s.scrubVisit far).err = s.err ∧ (s.scrubVisit far).fab.faultDue = s.fab.faultDue ∧
    ∀ o, o ≠ FABRIC_SCRUB_PASSES → (s.scrubVisit far).rd o = s.rd o := by
  unfold State.scrubVisit
  extract_lets v
  split
  · exact ⟨rfl, rfl, fun o ho => State.rd_wrN_other (s.setFab _) _ o _ ho⟩
  · exact ⟨rfl, rfl, fun o _ => rfl⟩

/-- A region lies among the eight. -/
theorem State.regionAt_lt {s : State} {col g : Nat} (h : s.regionAt col = some g) : g < 8 := List.mem_range.1 (List.mem_of_find?_eq_some h)

/-- What an upset in a frame that was not yet known to have one does. -/
theorem State.upset_spec {s : State} {g far : Nat} (hg : g < 8) (hfar : far < 65536) (hnew : s.fab.upset.contains far = false) :
    (s.upset g far).on ERROR_STATUS_DEGRADED = true ∧ (s.upset g far).rdN (FABRIC_REGION_UPSETS g) = min (s.rdN (FABRIC_REGION_UPSETS g) + 1) 0xFFFFFFFF ∧
      (s.upset g far).get (FABRIC_REGION_LAST_UPSET_FAR g) = far ∧
      (s.cfgOn (FABRIC_REGION_CTRL_SCRUB_ACTION g) = true → ((s.upset g far).fab.faultDue.any fun x => x.1 == g) = true) := by
  have hcount : (s.addSat (FABRIC_REGION_UPSETS g) 1).rdN (FABRIC_REGION_UPSETS g) = _ := s.rdN_addSat_same (FABRIC_REGION_UPSETS g) 1
  have hne : FABRIC_REGION_UPSETS g ≠ (FABRIC_REGION_LAST_UPSET_FAR g).reg := by
    show 0x901014 + 0x40 * g ≠ 0x901018 + 0x40 * g
    omega
  have hshown : ((s.addSat (FABRIC_REGION_UPSETS g) 1).put (FABRIC_REGION_LAST_UPSET_FAR g) far).rdN (FABRIC_REGION_UPSETS g) =
      min (s.rdN (FABRIC_REGION_UPSETS g) + 1) 0xFFFFFFFF := (congrArg BitVec.toNat (State.rd_put_other _ (FABRIC_REGION_LAST_UPSET_FAR g) far _ hne)).trans hcount
  have hlast : ((s.addSat (FABRIC_REGION_UPSETS g) 1).put (FABRIC_REGION_LAST_UPSET_FAR g) far).get (FABRIC_REGION_LAST_UPSET_FAR g) = far :=
    (State.get_put_same _ (FABRIC_REGION_LAST_UPSET_FAR g) far (Nat.zero_le 15) (by decide : 15 < 64)).trans (Nat.mod_eq_of_lt hfar)
  have haction : ((s.addSat (FABRIC_REGION_UPSETS g) 1).put (FABRIC_REGION_LAST_UPSET_FAR g) far).cfgOn (FABRIC_REGION_CTRL_SCRUB_ACTION g) =
      s.cfgOn (FABRIC_REGION_CTRL_SCRUB_ACTION g) := by
    have hregs : RegsBut (fun o => o = FABRIC_REGION_UPSETS g ∨ o = FABRIC_REGION_LAST_UPSET g) s
        ((s.addSat (FABRIC_REGION_UPSETS g) 1).put (FABRIC_REGION_LAST_UPSET_FAR g) far) := ((RegsBut.refl s).addSat (.inl rfl)).put (.inr rfl)
    refine hregs.cfgOn _ ?_
    show ¬(0x901008 + 0x40 * g = 0x901014 + 0x40 * g ∨ 0x901008 + 0x40 * g = 0x901018 + 0x40 * g)
    omega
  have hfab : ((s.addSat (FABRIC_REGION_UPSETS g) 1).put (FABRIC_REGION_LAST_UPSET_FAR g) far).fab = s.fab := State.put_fab _ _ _
  unfold State.upset
  dsimp only
  generalize (s.addSat (FABRIC_REGION_UPSETS g) 1).put (FABRIC_REGION_LAST_UPSET_FAR g) far = u at hshown hlast haction hfab ⊢
  rw [hfab, hnew, if_neg Bool.false_ne_true]
  have hup : ∀ o, o = FABRIC_REGION_UPSETS g ∨ o = FABRIC_REGION_LAST_UPSET g ∨ o = FABRIC_REGION_CTRL g → o ≠ SECURE_SEC_NOTIFY ∧ (o < 0xD00000 ∨ 0xE00000 ≤ o) := by
    intro o ho
    unfold FABRIC_REGION_UPSETS FABRIC_REGION_LAST_UPSET FABRIC_REGION_CTRL at ho
    unfold SECURE_SEC_NOTIFY
    omega
  have hreported : ∀ (e : Err) (w : State), w.regs = u.regs → w.acting = u.acting → errClass e.code = some .degraded →
      (w.report e).on ERROR_STATUS_DEGRADED = true ∧ (w.report e).rdN (FABRIC_REGION_UPSETS g) = min (s.rdN (FABRIC_REGION_UPSETS g) + 1) 0xFFFFFFFF ∧
      (w.report e).get (FABRIC_REGION_LAST_UPSET_FAR g) = far ∧
      (w.report e).cfgOn (FABRIC_REGION_CTRL_SCRUB_ACTION g) = s.cfgOn (FABRIC_REGION_CTRL_SCRUB_ACTION g) := by
    intro e w hregs hacting hclass
    have hw : RegsBut errReg u (w.report e) := (RegsBut.of_regs hacting hregs).report fun _ => id
    have hoff : ∀ o, o = FABRIC_REGION_UPSETS g ∨ o = FABRIC_REGION_LAST_UPSET g ∨ o = FABRIC_REGION_CTRL g → ¬errReg o := by
      rintro o ho (k | k)
      · exact (hup o ho).1 k
      · have := (hup o ho).2
        omega
    exact ⟨w.on_report_degraded e hclass, (hw.rdN _ (hoff _ (.inl rfl))).trans hshown, (hw.get (FABRIC_REGION_LAST_UPSET_FAR g) (hoff _ (.inr (.inl rfl)))).trans hlast,
      (hw.cfgOn (FABRIC_REGION_CTRL_SCRUB_ACTION g) (hoff _ (.inr (.inr rfl)))).trans haction⟩
  obtain ⟨hdegraded, hupsets, hfar', haction'⟩ :=
    hreported { code := Code.FABRIC_UPSET, unit := g, detail := far } (u.setFab fun f => { f with upset := f.upset ++ [far] }) rfl rfl rfl
  generalize (u.setFab fun f => { f with upset := f.upset ++ [far] }).report { code := Code.FABRIC_UPSET, unit := g, detail := far } = w at hdegraded hupsets hfar' haction' ⊢
  split
  · exact ⟨hdegraded, hupsets, hfar', fun _ => by show ((w.fab.faultDue ++ [(g, w.round)]).any fun x => x.1 == g) = true; simp⟩
  · next hdue =>
    refine ⟨hdegraded, hupsets, hfar', fun hact => ?_⟩
    rw [haction', hact] at hdue
    simpa using hdue

end Sys2Proof.Machine
end

section
/-! OBLIGATION. Loads of the fabric, its upsets and its holds (Fabric R429 to R443). -/

namespace Sys2Proof.Machine
open Reg

/-- The scrubber reads a frame of an ACTIVE region. -/
theorem exec_fabricScrubRead {s : State} {far : Fin 65536} (flips : List (Nat × Nat)) (hen : s.cfgOn FABRIC_SCRUB_CTRL_ENABLE = true) (hdom : s.domUp 19 = true)
    (hbusy : s.engineBusy = false) (hcmd : s.fab.cmd = none) (hin : s.scrubbed.contains far.val = true) :
    exec (.fabricScrubRead far flips) s = .next (s.scrubRead far flips) := by
  show execFabricScrubRead far flips s = _
  rw [execFabricScrubRead, if_pos (by rw [hen, hdom, hbusy, hcmd, hin]; rfl)]

/-- The frame as the scrubber reads it. -/
def State.flipped (s : State) (far : Nat) (flips : List (Nat × Nat)) : State :=
  s.setFrame far (flips.foldl (fun l x => l.modify x.1 fun w => w ^^^ (x.2 % 2 ^ 32)) (s.frame far))

/-- The frame that has been read is compared with its signature. -/
def State.scrubChecked (s : State) (far : Nat) : State := match s.regionAt (nbits far 15 10) with
  | none => s
  | some g =>
    if some (frameCrc (s.frame far)) == SMap.get (fun _ => none) s.fab.golden far then s.setFab fun f => { f with upset := f.upset.filter (· != far) }
    else s.upset g far

theorem State.scrubRead_eq (s : State) (far : Nat) (flips : List (Nat × Nat)) : s.scrubRead far flips = ((s.flipped far flips).scrubChecked far).scrubVisit far := rfl

section scrub
variable {s : State} {far g : Nat} (hg : s.regionAt (nbits far 15 10) = some g)
include hg

theorem State.scrubChecked_same (hsame : some (frameCrc (s.frame far)) = SMap.get (fun _ => none) s.fab.golden far) :
    s.scrubChecked far = s.setFab fun f => { f with upset := f.upset.filter (· != far) } := by
  rw [State.scrubChecked, hg]
  exact if_pos (beq_iff_eq.2 hsame)

theorem State.scrubChecked_upset (hdiff : some (frameCrc (s.frame far)) ≠ SMap.get (fun _ => none) s.fab.golden far) : s.scrubChecked far = s.upset g far := by
  rw [State.scrubChecked, hg]
  exact if_neg fun h => hdiff (beq_iff_eq.1 h)

end scrub

/-- Settles O43: a load that is held, begun and released or failed; a fault and an upset of a region; and HOLD. -/
theorem fabricLoadsAreCheckedWrittenAndReleased : Obligations.FabricLoadsAreCheckedWrittenAndReleased := by
  intro s
  refine ⟨fun r f hf hst hk hnew => ⟨fun hok => ?held, fun hg hdom hpair hfree hcount => ?count⟩,
    fun bad l f hfirst hf hst hk hr hg hdom hcmd hbusy hprep => ⟨fun id rs dg hok => ?written, fun h b st i hhead hbody hfault => ?fails⟩,
    fun g l f id n hl himage hr hid hf hst => ⟨fun hn hdom hwaits => ?released, fun hn => exec_fabricRelease_early hl himage hn⟩,
    fun g => ⟨fun hdue hactive => ?fault, fun hnone => ?noFault⟩,
    fun far flips g hen hdom hbusy hcmd hin hg => ⟨fun hsame => ?same, fun hdiff hnew => ?upset⟩,
    fun q g v hlands hq hdom hspine => ?hold⟩
  case held =>
    have hstays : FabricStays s (s.loadTraffic r f.seq (fieldLE f.env 0x18 8) 128) := (FabricStays.refl s).loadTraffic
    refine ⟨_, exec_fabricLoad_held hf hst hk hnew hok, fun j hj => hstays.rd _ (not_offFabric_region (b := 0x90100c) hj rfl rfl),
      ((LoadWork.refl (g := 0) s).loadTraffic).mem, ?_, ?_⟩
    · rw [State.setFab_fab, hstays.fab]
    · rw [State.setFab_fab, hstays.fab]
  case count =>
    refine ⟨_, exec_fabricLoad_fails hf hst hk hnew (State.loadChecks_count hg hdom hpair hfree hcount), ((FabricStays.refl s).complete).fab, ?_⟩
    exact Aside.lastFail_complete s r hf hst (.refl s) 0x8B08 _ (by decide) (by decide) (by decide)
  case written =>
    exact ⟨_, exec_fabricLoadBegin hfirst hf hst hk hdom hcmd hbusy hprep, State.loadBegin_ok hg hr (List.mem_of_find?_eq_some hfirst) hok⟩
  case fails =>
    have hseq : f.seq = l.seq := by simpa using List.find?_some hf
    exact ⟨_, exec_fabricLoadBegin hfirst hf hst hk hdom hcmd hbusy hprep, State.loadBegin_fault (hseq.symm ▸ hf) hseq.symm hst hg hr hhead hbody hfault⟩
  case released =>
    have hseq : f.seq = l.seq := by simpa using List.find?_some hf
    have haside : Aside s (if l.auth then s.extendSeal 5 l.digest 0 else s) := Aside.ite _ (Aside.refl s).extendSeal (.refl s)
    have hfab : (if l.auth then s.extendSeal 5 l.digest 0 else s).fab = s.fab := (FabricStays.ite _ (FabricStays.refl s).extendSeal (.refl s)).fab
    refine ⟨_, exec_fabricRelease hl himage hn hdom hwaits, ?_⟩
    generalize (if l.auth then s.extendSeal 5 l.digest 0 else s) = u at haside hfab ⊢
    rw [← hseq] at hf ⊢
    exact State.release_spec (r := ⟨l.ring, hr⟩) g.isLt hf hst haside hfab hid rfl
  case fault =>
    refine ⟨_, congrArg Host.Outcome.next (if_pos (by rw [hdue, hactive]; rfl)), State.setRegion_state _ _ (by decide), ?_⟩
    rw [(State.setRegion_displayed _ g.val 3).fab]
    rfl
  case noFault => exact congrArg Host.Outcome.next (if_neg (by rw [hnone]; exact Bool.false_ne_true))
  case same =>
    refine ⟨_, exec_fabricScrubRead flips hen hdom hbusy hcmd hin, ?_⟩
    rw [State.scrubRead_eq, State.scrubChecked_same (s := s.flipped far flips) hg hsame]
    obtain ⟨herr, hdue, hrd⟩ := State.scrubVisit_spec ((s.flipped far flips).setFab fun f => { f with upset := f.upset.filter (· != far.val) }) far
    refine ⟨herr, hrd _ ?_, hdue⟩
    unfold FABRIC_REGION_UPSETS FABRIC_SCRUB_PASSES
    omega
  case upset =>
    refine ⟨_, exec_fabricScrubRead flips hen hdom hbusy hcmd hin, ?_⟩
    rw [State.scrubRead_eq, State.scrubChecked_upset (s := s.flipped far flips) hg hdiff]
    obtain ⟨hdegraded, hupsets, hlast, haction⟩ := State.upset_spec (s := s.flipped far flips) (State.regionAt_lt hg) far.isLt hnew
    generalize (s.flipped far flips).upset g far = w at hdegraded hupsets hlast haction ⊢
    obtain ⟨-, hdue, hrd⟩ := w.scrubVisit_spec far
    have hget : ∀ fld : Fld, fld.reg ≠ FABRIC_SCRUB_PASSES → (w.scrubVisit far).get fld = w.get fld := fun fld hfld => by
      rw [State.get, hrd _ hfld, State.get]
    refine ⟨?_, (congrArg BitVec.toNat (hrd _ (by unfold FABRIC_REGION_UPSETS FABRIC_SCRUB_PASSES; omega))).trans hupsets, ?_, fun hact => ?_⟩
    · rw [State.on, hget _ (by decide)]
      exact hdegraded
    · rw [hget _ (by show 0x901018 + 0x40 * g ≠ 0x900018; omega)]
      exact hlast
    · rw [hdue]
      exact haction hact
  case hold =>
    refine ⟨s.wrCfg (FABRIC_REGION_CTRL g) (nbits v 8 8 * 256 + v % 2), ?_, ?_, ?_, ?_, fun o ho => State.rd_wrCfg_other _ _ _ _ ho⟩
    · refine congrArg Host.Outcome.next ((State.landing_of_lands s q _ _ hlands).trans (if_pos ?_))
      rw [hq, hdom, hspine]
      rfl
    · have hbit : nbits v 8 8 < 2 := Nat.mod_lt _ (by decide)
      refine (State.get_wrCfg_same s (FABRIC_REGION_CTRL g) (by omega) 0 0).trans ?_
      rw [nbits]
      omega
    · exact congrArg (fun w => Word.bits w 0 0) (State.act_wrCfg s (FABRIC_REGION_CTRL g) _ _ (.inl rfl))
    · have hstate : (FABRIC_REGION_STATE_STATE g).reg ≠ FABRIC_REGION_CTRL g := by
        show 0x90100c + 0x40 * g.val ≠ 0x901008 + 0x40 * g.val
        omega
      have hpower : (POWER_DOM_STATUS_STATE 19).reg ≠ FABRIC_REGION_CTRL g := by
        have : (POWER_DOM_STATUS_STATE 19).reg = POWER_DOM_STATUS 19 := rfl
        rw [this]
        unfold POWER_DOM_STATUS FABRIC_REGION_CTRL
        omega
      have hon : (s.wrCfg (FABRIC_REGION_CTRL g) (nbits v 8 8 * 256 + v % 2)).cfgOn (FABRIC_REGION_CTRL_HOLD g) = s.cfgOn (FABRIC_REGION_CTRL_HOLD g) :=
        State.cfgOn_wrCfg_same s _ _ _ _
      have hget : ∀ fld : Fld, fld.reg ≠ FABRIC_REGION_CTRL g → (s.wrCfg (FABRIC_REGION_CTRL g) (nbits v 8 8 * 256 + v % 2)).get fld = s.get fld := fun fld hfld => by
        rw [State.get, State.rd_wrCfg_other _ _ _ _ hfld, State.get]
      unfold State.regionRuns State.domUp State.dom
      rw [hon, hget _ hstate, hget _ hpower]
      rfl

end Sys2Proof.Machine
end

section
/-! SUPPORT. Secure start (Trust R535 to R540): what a candidate's checks read, and what a candidate leaves of the other pair, the seals and the status. -/

namespace Sys2Proof.Machine
open Reg

/-! ### What the checks of an image read -/

/-- The two states give the same answers to the checks of an image. -/
structure SameImage (s t : State) : Prop where
  serial : t.rdN GLOBAL_DIE_SERIAL = s.rdN GLOBAL_DIE_SERIAL
  fuse : ∀ w, w < 68 → t.rdN (SECURE_FUSE w) = s.rdN (SECURE_FUSE w)
  counter : ∀ i, i < 256 → t.counter i = s.counter i

/-- The registers that secure start changes before it takes a candidate: those that show the root, and those of a report. -/
def StartReg (o : Nat) : Prop := RootReg o ∨ errReg o

theorem RegsBut.sameImage {s t : State} (h : RegsBut StartReg s t) : SameImage s t := by
  have hlow : ∀ o, o < SECURE_STATUS ∨ (SECURE_STATUS < o ∧ o < SECURE_SEC_NOTIFY) ∨ (SECURE_KEY_STATE < o ∧ o < 0xD00000) → ¬StartReg o := fun o ho => by
    unfold StartReg RootReg errReg
    unfold SECURE_STATUS SECURE_KEY_STATE SECURE_SEC_NOTIFY at *
    unfold FIRMWARE_SLOT_REC
    omega
  refine ⟨h.rdN _ (hlow _ (.inl (by decide))), fun w hw => h.rdN _ (hlow _ (.inr (.inl ?_))), fun i hi => h.rdN _ (hlow _ (.inr (.inr ?_)))⟩
  · unfold SECURE_STATUS SECURE_FUSE SECURE_SEC_NOTIFY
    omega
  · unfold SECURE_KEY_STATE SECURE_COUNTER
    omega

namespace SameImage
variable {s t : State} (h : SameImage s t)
include h

theorem imgHeader (type limit : Nat) (b : Bytes) : t.imgHeader type limit b = s.imgHeader type limit b := by
  unfold State.imgHeader
  rw [h.serial]

theorem fuseDigest {w : Nat} (hw : w + 12 ≤ 68) : t.fuseDigest w = s.fuseDigest w := by
  unfold State.fuseDigest
  refine List.flatMap_congr fun j hj => ?_
  have hlt := List.mem_range.1 hj
  rw [h.fuse _ (by omega)]

theorem imgKey (type : Nat) (b : Bytes) : t.imgKey type b = s.imgKey type b := by
  unfold State.imgKey
  dsimp only
  rw [h.fuse 4 (by decide), h.fuseDigest (w := 56) (by decide)]
  by_cases hk : fieldLE b 6 1 < 4
  · rw [h.fuseDigest (by omega)]
  · rw [if_neg hk, if_neg hk]

theorem imgFresh (b : Bytes) : t.imgFresh b = s.imgFresh b := by
  have hlt : fieldLE b 0xC 1 < 256 := fieldLE_lt b 0xC 1
  unfold State.imgFresh
  rw [h.counter _ hlt]

theorem imgVerify (type limit : Nat) (b : Bytes) (body : Nat → Except AccErr Bytes) : t.imgVerify type limit b body = s.imgVerify type limit b body := by
  unfold State.imgVerify
  rw [h.imgHeader, h.imgKey, h.imgFresh]

theorem slotBad {p : Nat} (hrom : t.rom p = s.rom p) (sl : Nat) : t.slotBad p sl = s.slotBad p sl := by
  unfold State.slotBad State.slotHeader
  rw [hrom, h.imgVerify]

end SameImage

/-! ### Seals -/

theorem State.extendSeal_seals (s : State) (i : Nat) (d : Bytes) (source : Nat) : (s.extendSeal i d source).trust.seals = s.trust.seals.set i (sha384 (s.sealOf i ++ d)) := by
  unfold State.extendSeal
  dsimp only
  split
  · rfl
  · split
    · rfl
    · rw [State.report_trust]
      rfl

theorem State.sealOf_extendSeal_same {s : State} {i : Nat} (hi : i < s.trust.seals.length) (d : Bytes) (source : Nat) :
    (s.extendSeal i d source).sealOf i = sha384 (s.sealOf i ++ d) := by
  rw [State.sealOf, State.extendSeal_seals]
  simp [List.getD_eq_getElem?_getD, hi]

theorem State.sealOf_extendSeal_other {s : State} {i j : Nat} (h : j ≠ i) (d : Bytes) (source : Nat) : (s.extendSeal i d source).sealOf j = s.sealOf j := by
  simp [State.sealOf, State.extendSeal_seals, List.getD_eq_getElem?_getD, List.getElem?_set_ne (Ne.symm h)]

theorem State.seals_length_extendSeal (s : State) (i : Nat) (d : Bytes) (source : Nat) : (s.extendSeal i d source).trust.seals.length = s.trust.seals.length := by
  rw [State.extendSeal_seals, List.length_set]

/-- The extension of a seal changes the seals and the log of what the root holds. -/
theorem State.extendSeal_root (s : State) (i : Nat) (d : Bytes) (source : Nat) : (s.extendSeal i d source).trust.runtime = s.trust.runtime ∧
    (s.extendSeal i d source).trust.bootStage = s.trust.bootStage ∧ (s.extendSeal i d source).trust.stage = s.trust.stage := by
  unfold State.extendSeal
  dsimp only
  split
  · exact ⟨rfl, rfl, rfl⟩
  · split
    · exact ⟨rfl, rfl, rfl⟩
    · rw [State.report_trust]
      exact ⟨rfl, rfl, rfl⟩

/-- A class bit that is set stays set over the extension of a seal. -/
theorem State.on_extendSeal {s : State} {g : Fld} (hg : ClassBit g) (hs : s.on g = true) (i : Nat) (d : Bytes) (source : Nat) : (s.extendSeal i d source).on g = true := by
  unfold State.extendSeal
  dsimp only
  split
  · exact hs
  · split
    · exact hs
    · exact State.on_report_stays _ { code := Code.SEC_LOG_FULL } (c := .note) (by decide) (by decide) hg hs

/-! ### The mirror of the records -/

/-- The mirror of the records. -/
def State.recMirror (s : State) : State := s.each [0, 1] fun s p => s.each [0, 1] fun s sl =>
  s.each (List.range 8) fun u i => u.wrN (FIRMWARE_SLOT_REC p sl i) (fieldLE (s.slotRec p sl) (4 * i) 4)

theorem State.recSync_eq (s : State) : ∃ a b, s.recSync = (s.recMirror.putB SECURE_STATUS_RUNTIME_TRIAL a).putB SECURE_STATUS_BOOT_TRIAL b := ⟨_, _, rfl⟩

theorem State.get_recMirror (s : State) {f : Fld} (hreg : f.reg = SECURE_STATUS) : s.recMirror.get f = s.get f := by
  refine State.each_keeps (fun v : State => v.get f) (fun u p _ => State.each_keeps (fun v : State => v.get f) (fun u sl _ =>
    State.each_keeps (fun v : State => v.get f) (fun v i _ => State.get_wrN_other v _ _ f ?_) u) u) s
  rw [hreg]
  unfold SECURE_STATUS FIRMWARE_SLOT_REC
  omega

/-- Of STATUS, the mirror of the records changes the two TRIAL bits alone. -/
theorem State.get_recSync (s : State) {f : Fld} (hreg : f.reg = SECURE_STATUS) (hlo : 11 < f.lo) : s.recSync.get f = s.get f := by
  obtain ⟨a, b, heq⟩ := s.recSync_eq
  have hboot : ∀ u : State, (u.putB SECURE_STATUS_BOOT_TRIAL b).get f = u.get f := fun u =>
    State.get_put_apart u SECURE_STATUS_BOOT_TRIAL f _ (by decide) (by decide) (.inl (show 10 < f.lo by omega))
  have hruntime : ∀ u : State, (u.putB SECURE_STATUS_RUNTIME_TRIAL a).get f = u.get f := fun u =>
    State.get_put_apart u SECURE_STATUS_RUNTIME_TRIAL f _ (by decide) (by decide) (.inl hlo)
  rw [heq, hboot, hruntime, s.get_recMirror hreg]

end Sys2Proof.Machine
end

section
/-! SUPPORT. What the steps of the boot stage leave (Trust R535 to R538): flash, the runtime and its seal, marked records, and the errors that stand. -/

namespace Sys2Proof.Machine
open Reg

/-! ### Records that are programmed -/

/-- A record that is good and has been marked STALE. -/
def Marked (b : Bytes) : Prop := GoodRec b ∧ fieldLE b 0x16 1 ≠ 0xFF

theorem recState_of_marked {b : Bytes} (h : Marked b) : recState b = .stale := by
  obtain ⟨⟨hmagic, hcrc⟩, hmark⟩ := h
  unfold recState
  rw [if_neg (by simp [hmagic, hcrc]), if_pos (by simpa using hmark)]

/-- A byte of the latter part of a record is programmed. -/
theorem goodRec_program {m : SMap Byte} {a off : Nat} (hoff : 0x14 ≤ off) (c : Byte) (h : GoodRec (romBytes m a 32)) : GoodRec (romBytes (romProgram m (a + off) [c]) a 32) :=
  goodRec_congr (fun i hi => by rw [get_romProgram, if_neg (by omega)]) h

theorem fieldLE_program_same (m : SMap Byte) (a : Nat) {off : Nat} (hoff : off < 32) (c : Byte) :
    fieldLE (romBytes (romProgram m (a + off) [c]) a 32) off 1 = (SMap.get erased m (a + off) &&& c).toNat := by
  rw [fieldLE_romBytes_byte _ _ hoff, get_romProgram, if_pos (by simp), Nat.sub_self]
  rfl

theorem fieldLE_program_other (m : SMap Byte) (a : Nat) {off i : Nat} (hi : i < 32) (h : i ≠ off) (c : Byte) :
    fieldLE (romBytes (romProgram m (a + off) [c]) a 32) i 1 = fieldLE (romBytes m a 32) i 1 := by
  rw [fieldLE_romBytes_byte _ _ hi, fieldLE_romBytes_byte _ _ hi, get_romProgram, if_neg (by simp; omega)]

theorem marked_program {m : SMap Byte} {a off : Nat} (hoff : 0x14 ≤ off) (c : Byte) (h : Marked (romBytes m a 32)) : Marked (romBytes (romProgram m (a + off) [c]) a 32) := by
  refine ⟨goodRec_program hoff c h.1, ?_⟩
  by_cases hmark : off = 0x16
  · subst hmark
    have hbyte := h.2
    rw [fieldLE_romBytes_byte _ _ (by decide)] at hbyte
    rw [fieldLE_program_same _ _ (by decide), BitVec.toNat_and]
    have hle : (SMap.get erased m (a + 0x16)).toNat &&& c.toNat ≤ (SMap.get erased m (a + 0x16)).toNat := Nat.and_le_left
    have hlt := (SMap.get erased m (a + 0x16)).isLt
    omega
  · rw [fieldLE_program_other _ _ (by decide) (Ne.symm hmark)]
    exact h.2

/-- A record that is marked is good if it was. -/
theorem marked_mark {m : SMap Byte} {a : Nat} (h : GoodRec (romBytes m a 32)) : Marked (romBytes (romProgram m (a + 0x16) [0]) a 32) := by
  refine ⟨goodRec_program (by decide) 0 h, ?_⟩
  rw [fieldLE_program_same _ _ (by decide), BitVec.toNat_and]
  have : (SMap.get erased m (a + 0x16)).toNat &&& (0 : Byte).toNat ≤ (0 : Byte).toNat := Nat.and_le_right
  have hzero : (0 : Byte).toNat = 0 := rfl
  omega

/-! ### A step of the boot stage -/

/-- What a step of the boot stage leaves, of memory, the runtime, the seals other than 6, the images, and the errors that stand. -/
structure StageStep (s t : State) : Prop where
  mem : t.mem = s.mem
  flash : t.trust.flash = s.trust.flash
  runtime : t.trust.runtime = s.trust.runtime
  seals : ∀ j, j ≠ 6 → t.sealOf j = s.sealOf j
  length : t.trust.seals.length = s.trust.seals.length
  header : ∀ sl, sl < 2 → t.slotHeader 1 sl = s.slotHeader 1 sl
  runtimeSlot : t.get SECURE_STATUS_RUNTIME_SLOT = s.get SECURE_STATUS_RUNTIME_SLOT
  degraded : s.on ERROR_STATUS_DEGRADED = true → t.on ERROR_STATUS_DEGRADED = true
  marked : ∀ sl, sl < 2 → Marked (s.slotRec 1 sl) → Marked (t.slotRec 1 sl)

namespace StageStep
variable {s t u : State}

theorem refl (s : State) : StageStep s s := ⟨rfl, rfl, rfl, fun _ _ => rfl, rfl, fun _ _ => rfl, rfl, id, fun _ _ => id⟩

theorem trans (h : StageStep s t) (k : StageStep t u) : StageStep s u :=
  ⟨k.mem.trans h.mem, k.flash.trans h.flash, k.runtime.trans h.runtime, fun j hj => (k.seals j hj).trans (h.seals j hj), k.length.trans h.length,
    fun sl hsl => (k.header sl hsl).trans (h.header sl hsl), k.runtimeSlot.trans h.runtimeSlot, fun hs => k.degraded (h.degraded hs),
    fun sl hsl hm => k.marked sl hsl (h.marked sl hsl hm)⟩

/-- A step that leaves what the root holds. -/
theorem of_trust (htrust : t.trust = s.trust) (hmem : t.mem = s.mem) (hslot : t.get SECURE_STATUS_RUNTIME_SLOT = s.get SECURE_STATUS_RUNTIME_SLOT)
    (hdegraded : s.on ERROR_STATUS_DEGRADED = true → t.on ERROR_STATUS_DEGRADED = true) : StageStep s t := by
  have hrom : t.rom 1 = s.rom 1 := by rw [State.rom, State.rom, htrust]
  exact ⟨hmem, congrArg TrustSt.flash htrust, congrArg TrustSt.runtime htrust, fun j _ => by rw [State.sealOf, htrust, State.sealOf], by rw [htrust],
    fun sl _ => by rw [State.slotHeader, hrom, State.slotHeader], hslot, hdegraded, fun sl _ hm => by rw [State.slotRec, hrom]; exact hm⟩

theorem report (s : State) {e : Err} {c : ErrClass} (hc : errClass e.code = some c) (hf : c ≠ .fatal) : StageStep s (s.report e) :=
  of_trust (s.report_trust e) (s.report_mem e) (s.get_report e _ (by decide) (.inl (by decide))) (s.on_report_stays e hc hf classBit_degraded)

/-- A change of what the root holds that leaves the slots and the seals. -/
theorem setTrust (s : State) (f : TrustSt → TrustSt) (hflash : (f s.trust).flash = s.trust.flash) (hruntime : (f s.trust).runtime = s.trust.runtime)
    (hseals : (f s.trust).seals = s.trust.seals) (hnor : (f s.trust).nor = s.trust.nor) : StageStep s (s.setTrust f) := by
  have hrom : (s.setTrust f).rom 1 = s.rom 1 := hnor
  exact ⟨rfl, hflash, hruntime, fun j _ => congrArg (fun l => List.getD l j []) hseals, congrArg List.length hseals,
    fun sl _ => by rw [State.slotHeader, hrom, State.slotHeader], rfl, id, fun sl _ hm => by rw [State.slotRec, hrom]; exact hm⟩

/-- A write of a register outside STATUS and the ERROR block. -/
theorem wrN (s : State) {o n : Nat} (hslot : SECURE_STATUS_RUNTIME_SLOT.reg ≠ o) (herr : ERROR_STATUS_DEGRADED.reg ≠ o) : StageStep s (s.wrN o n) :=
  of_trust rfl rfl (s.get_wrN_other _ _ _ hslot) fun hs => by
    rw [State.on, s.get_wrN_other _ _ _ herr]
    exact hs

theorem setCounter (s : State) (v : Nat) : StageStep s (s.setCounter 1 v) :=
  (setTrust s _ rfl rfl rfl rfl).trans (wrN _ (by decide) (by decide))

theorem extendSeal (s : State) (d : Bytes) (source : Nat) : StageStep s (s.extendSeal 6 d source) := by
  obtain ⟨hmem, hrom, hregs, -⟩ := s.extendSeal_slots 6 d source
  have hslot : ¬errReg SECURE_STATUS_RUNTIME_SLOT.reg := by
    show ¬errReg 0xC00004
    unfold errReg SECURE_SEC_NOTIFY
    omega
  exact ⟨hmem, hrom 0, (s.extendSeal_root 6 d source).1, fun j hj => State.sealOf_extendSeal_other hj d source, s.seals_length_extendSeal 6 d source,
    fun sl _ => by rw [State.slotHeader, hrom, State.slotHeader], hregs.get _ hslot, fun hs => State.on_extendSeal classBit_degraded hs 6 d source,
    fun sl _ hm => by rw [State.slotRec, hrom]; exact hm⟩

theorem extendFree (s : State) : StageStep s s.extendFree :=
  (extendSeal s _ _).trans (of_trust rfl rfl rfl id)

/-- A record of the boot stage lies below every image. -/
theorem recProgram (s : State) {sl off : Nat} (hsl : sl < 2) (hlo : 0x14 ≤ off) (hhi : off < 32) (c : Byte) : StageStep s (s.recProgram 1 sl off [c]) := by
  have hwork := SlotWork.recProgram s (p := 1) (by decide) sl off [c]
  have hrom := s.rom_recProgram 1 sl off [c]
  have htrust : (s.recProgram 1 sl off [c]).trust = { s.trust with nor := romProgram s.trust.nor (recAddr 1 sl + off) [c] } :=
    (State.recSync_displayed _).trust
  have hslot : (s.recProgram 1 sl off [c]).get SECURE_STATUS_RUNTIME_SLOT = s.get SECURE_STATUS_RUNTIME_SLOT := State.get_recSync _ rfl (by decide)
  refine ⟨hwork.mem, by rw [htrust], by rw [htrust], fun j _ => ?_, by rw [htrust], fun sl' _ => ?_, hslot,
    fun hs => ?_, fun sl' hsl' hm => ?_⟩
  · rw [State.sealOf, htrust, State.sealOf]
  · rw [State.slotHeader, hrom, romBytes_romProgram_apart, State.slotHeader]
    refine .inr ?_
    show 0x10000 * sl + off + 1 ≤ 0x100000 + 0x200000 * sl'
    omega
  · have herr : ¬RootReg ERROR_STATUS_DEGRADED.reg := by
      show ¬RootReg 0xD00004
      unfold RootReg SECURE_STATUS SECURE_KEY_STATE FIRMWARE_SLOT_REC
      omega
    rw [hwork.regs.on _ herr]
    exact hs
  · rw [State.slotRec, hrom]
    by_cases h : sl' = sl
    · subst h
      exact marked_program hlo c hm
    · have hapart := recAddr_apart (p := 1) h
      rw [romBytes_romProgram_apart _ _ (by rw [List.length_singleton]; omega)]
      exact hm

theorem reject (s : State) {sl : Nat} (hsl : sl < 2) : StageStep s (s.reject 1 sl) :=
  (recProgram s hsl (by decide) (by decide) 0).trans (report _ (c := .degraded) rfl (by decide))

/-- One candidate of the boot stage. -/
theorem tryCandidate (s : State) {sl : Nat} (hsl : sl < 2) : StageStep s (s.tryCandidate 1 sl).1 := by
  unfold State.tryCandidate
  split
  · exact reject s hsl
  · split
    · dsimp only
      split
      · have hraised : StageStep s (s.setCounter 1 (imgVersion (s.slotHeader 1 sl))).extendFree := (setCounter s _).trans (extendFree _)
        dsimp only
        split
        · exact hraised.trans (recProgram _ (by omega) (by decide) (by decide) 0)
        · exact hraised
      · exact refl s
    · exact (recProgram s hsl (by decide) (by decide) _).trans (recProgram _ hsl (by decide) (by decide) _)
    · dsimp only
      split
      · exact recProgram s hsl (by decide) (by decide) _
      · exact reject s hsl
    · exact refl s

end StageStep

/-! ### The boot stage -/

/-- What the whole of the boot stage leaves. -/
structure StageWork (s t : State) : Prop where
  flash : t.trust.flash = s.trust.flash
  runtime : t.trust.runtime = s.trust.runtime
  runtimeSeal : t.sealOf 1 = s.sealOf 1
  runtimeSlot : t.get SECURE_STATUS_RUNTIME_SLOT = s.get SECURE_STATUS_RUNTIME_SLOT
  degraded : s.on ERROR_STATUS_DEGRADED = true → t.on ERROR_STATUS_DEGRADED = true
  marked : ∀ sl, sl < 2 → Marked (s.slotRec 1 sl) → Marked (t.slotRec 1 sl)

theorem StageStep.work {s t : State} (h : StageStep s t) : StageWork s t := ⟨h.flash, h.runtime, h.seals 1 (by decide), h.runtimeSlot, h.degraded, h.marked⟩

namespace StageWork
variable {s t u : State}

theorem refl (s : State) : StageWork s s := (StageStep.refl s).work

theorem trans (h : StageWork s t) (k : StageWork t u) : StageWork s u :=
  ⟨k.flash.trans h.flash, k.runtime.trans h.runtime, k.runtimeSeal.trans h.runtimeSeal, k.runtimeSlot.trans h.runtimeSlot, fun hs => k.degraded (h.degraded hs),
    fun sl hsl hm => k.marked sl hsl (h.marked sl hsl hm)⟩

theorem wrMem (s : State) (a : Nat) (b : Bytes) : StageWork s (s.wrMem a b) := ⟨rfl, rfl, rfl, rfl, id, fun _ _ => id⟩
theorem loadBoot (s : State) (sl : Nat) : StageWork s (s.loadBoot sl) := wrMem s _ _

theorem recSync (s : State) : StageWork s s.recSync := by
  have hshown := s.recSync_displayed
  exact (StageStep.of_trust hshown.trust hshown.mem (s.get_recSync rfl (by decide)) fun hs => by
    rw [hshown.on ERROR_STATUS_DEGRADED (by
      show ¬RootReg 0xD00004
      unfold RootReg SECURE_STATUS SECURE_KEY_STATE FIRMWARE_SLOT_REC
      omega)]
    exact hs).work

theorem extendSeal (s : State) (d : Bytes) : StageWork s (s.extendSeal 2 d 2) := by
  obtain ⟨-, hrom, hregs, -⟩ := s.extendSeal_slots 2 d 2
  have hslot : ¬errReg SECURE_STATUS_RUNTIME_SLOT.reg := by
    show ¬errReg 0xC00004
    unfold errReg SECURE_SEC_NOTIFY
    omega
  exact ⟨hrom 0, (s.extendSeal_root 2 d 2).1, State.sealOf_extendSeal_other (by decide) d 2, hregs.get _ hslot, fun hs => State.on_extendSeal classBit_degraded hs 2 d 2,
    fun sl _ hm => by rw [State.slotRec, hrom]; exact hm⟩

/-- A field of STATUS below the slot of the runtime. -/
theorem putStatus (s : State) {f : Fld} (hreg : f.reg = SECURE_STATUS) (hbits : f.lo ≤ f.hi) (hhi : f.hi < 18) (n : Nat) : StageWork s (s.put f n) :=
  (StageStep.of_trust (State.put_trust _ _ _) (State.put_mem _ _ _) (State.get_put_apart s f _ n hbits (by omega) (.inl hhi)) fun hs => by
    rw [State.on, State.get_put_other _ _ _ _ (by rw [hreg]; decide)]
    exact hs).work

theorem putBoot (s : State) (b : Bool) : StageWork s (s.putB GLOBAL_BOOT_STATUS_HOST_RELEASED b) :=
  (StageStep.of_trust (State.put_trust _ _ _) (State.put_mem _ _ _) (State.get_put_other _ _ _ _ (by decide)) fun hs => by
    rw [State.on, State.get_put_other _ _ _ _ (by decide)]
    exact hs).work

theorem uartLine (s : State) (l : String) : StageWork s (s.uartLine l) := (StageStep.setTrust s _ rfl rfl rfl rfl).work

theorem noImage (s : State) (p : Nat) : StageWork s (s.noImage p) :=
  ((putStatus s rfl (by decide) (by decide) 2).trans (StageStep.report _ (c := .degraded) rfl (by decide)).work).trans (uartLine _ _)

/-- The candidates that are taken, in order. -/
theorem choose {l : List Nat} (hl : ∀ sl ∈ l, sl < 2) (s : State) : StageWork s (s.choose 1 l).1 := by
  induction l generalizing s with
  | nil => exact refl s
  | cons sl l ih =>
    have htry : StageWork s ((s.loadBoot sl).tryCandidate 1 sl).1 := (loadBoot s sl).trans (StageStep.tryCandidate _ (hl sl List.mem_cons_self)).work
    unfold State.choose
    rw [if_pos rfl]
    split
    · next s' heq =>
      rw [heq] at htry
      exact htry
    · next s' heq =>
      rw [heq] at htry
      exact htry.trans (ih (fun x hx => hl x (List.mem_cons_of_mem _ hx)) s')

end StageWork

theorem State.candidates_lt {s : State} {p sl : Nat} (h : sl ∈ s.candidates p) : sl < 2 := by
  unfold State.candidates at h
  dsimp only at h
  have hin := List.mem_of_mem_filter h
  split at hin <;> simp at hin <;> omega

end Sys2Proof.Machine
end

section
/-! SUPPORT. The boot stage (Trust R535 to R538): a candidate that is started and one that is rejected, and what its start shows. -/

namespace Sys2Proof.Machine
open Reg

/-! ### One candidate -/

theorem State.counter_extendFree (s : State) : s.extendFree.counter 1 = s.counter 1 := by
  have hregs := (s.extendSeal_slots 6 ((List.range 48).map fun i => Config.freeByte s.freeCtr i) 0).2.2.1
  exact hregs.rdN _ (not_errReg_counter (by decide))

theorem State.rom_extendFree (s : State) (j : Nat) : s.extendFree.rom j = s.rom j :=
  (s.extendSeal_slots 6 ((List.range 48).map fun i => Config.freeByte s.freeCtr i) 0).2.1 j

theorem State.counter_recProgram (s : State) (sl off : Nat) (b : Bytes) : (s.recProgram 1 sl off b).counter 1 = s.counter 1 :=
  (SlotWork.recProgram s (by decide) sl off b).regs.rdN _ (not_rootReg_counter (by decide))

/-- The record of the slot is programmed. -/
theorem State.slotRec_recProgram_same (s : State) (sl off : Nat) (b : Bytes) :
    (s.recProgram 1 sl off b).slotRec 1 sl = romBytes (romProgram (s.rom 1) (recAddr 1 sl + off) b) (recAddr 1 sl) 32 := by
  rw [State.slotRec, s.rom_recProgram]

/-- The record of the other slot is programmed. -/
theorem State.slotRec_recProgram_other (s : State) {sl sl' off : Nat} (h : sl' ≠ sl) (hoff : off < 32) (c : Byte) :
    (s.recProgram 1 sl off [c]).slotRec 1 sl' = s.slotRec 1 sl' := by
  have hapart := recAddr_apart (p := 1) h
  rw [State.slotRec, s.rom_recProgram, romBytes_romProgram_apart _ _ (by rw [List.length_singleton]; omega), State.slotRec]

section candidate
variable {s : State} {sl : Nat}

theorem State.tryCandidate_rejects (h : s.slotBad 1 sl = true ∨ (s.slotSt 1 sl = .trial ∧ recAttempts (s.slotRec 1 sl) = 3)) :
    s.tryCandidate 1 sl = (s.reject 1 sl, false) := by
  unfold State.tryCandidate
  by_cases hbad : s.slotBad 1 sl = true
  · rw [if_pos hbad]
  · obtain ⟨htrial, hthree⟩ := h.resolve_left hbad
    rw [if_neg hbad, htrial]
    dsimp only
    rw [if_neg (by omega)]

section good
variable (hgood : ¬s.slotBad 1 sl = true)
include hgood

/-- A slot that is VALID starts as a first trial. -/
theorem State.tryCandidate_valid (hst : s.slotSt 1 sl = .valid) :
    s.tryCandidate 1 sl = ((s.recProgram 1 sl 0x14 [0xF8]).recProgram 1 sl 0x15 [0xFE], true) := by
  unfold State.tryCandidate
  rw [if_neg hgood, hst]

theorem State.tryCandidate_trial (hst : s.slotSt 1 sl = .trial) (hn : recAttempts (s.slotRec 1 sl) < 3) : s.tryCandidate 1 sl =
    (s.recProgram 1 sl 0x15 [if recAttempts (s.slotRec 1 sl) = 0 then 0xFE else if recAttempts (s.slotRec 1 sl) = 1 then 0xFC else 0xF8], true) := by
  unfold State.tryCandidate
  rw [if_neg hgood, hst]
  dsimp only
  rw [if_pos hn]

/-- A slot that is CONFIRMED raises the counter, and leaves its own record. -/
theorem State.tryCandidate_confirmed (hsl : sl < 2) (hst : s.slotSt 1 sl = .confirmed) : ∃ v, s.tryCandidate 1 sl = (v, true) ∧ v.slotRec 1 sl = s.slotRec 1 sl ∧
    v.counter 1 = max (s.counter 1) (imgVersion (s.slotHeader 1 sl)) := by
  have hversion : imgVersion (s.slotHeader 1 sl) < 2 ^ 64 := fieldLE4_lt _ _
  unfold State.tryCandidate
  rw [if_neg hgood, hst]
  dsimp only
  split
  · next hlow =>
    have hcounter : (s.setCounter 1 (imgVersion (s.slotHeader 1 sl))).extendFree.counter 1 = max (s.counter 1) (imgVersion (s.slotHeader 1 sl)) := by
      rw [State.counter_extendFree, State.counter_setCounter_same _ _ _ hversion]
      omega
    have hrec : (s.setCounter 1 (imgVersion (s.slotHeader 1 sl))).extendFree.slotRec 1 sl = s.slotRec 1 sl := by
      rw [State.slotRec, State.rom_extendFree]
      rfl
    split
    · refine ⟨_, rfl, ?_, ?_⟩
      · rw [State.markStale, State.slotRec_recProgram_other _ (by omega) (by decide), hrec]
      · rw [State.markStale, State.counter_recProgram, hcounter]
    · exact ⟨_, rfl, hrec, hcounter⟩
  · exact ⟨s, rfl, rfl, by omega⟩

end good

end candidate

/-! ### The bytes of a trial -/

theorem fieldLE_byte_eq {m : SMap Byte} {a off v : Nat} (hoff : off < 32) (h : fieldLE (romBytes m a 32) off 1 = v) : SMap.get erased m (a + off) = BitVec.ofNat 8 v := by
  rw [← h, fieldLE_romBytes_byte _ _ hoff, BitVec.ofNat_toNat, BitVec.setWidth_eq]

theorem recAttempts_cases (b : Bytes) (h : recAttempts b < 3) : (recAttempts b = 0 ∧ fieldLE b 0x15 1 = 0xFF) ∨ (recAttempts b = 1 ∧ fieldLE b 0x15 1 = 0xFE) ∨
    (recAttempts b = 2 ∧ fieldLE b 0x15 1 = 0xFC) := by
  unfold recAttempts at h ⊢
  split at h <;> simp_all

/-- The ATTEMPTS byte is programmed: the state is as it was. -/
theorem recState_attempts {m : SMap Byte} {a : Nat} (h : recState (romBytes m a 32) = .trial) (c : Byte) : recState (romBytes (romProgram m (a + 0x15) [c]) a 32) = .trial := by
  obtain ⟨hgood, hfresh, hstate⟩ := recState_live h (by decide) (by decide)
  rw [recState_good (goodRec_program (by decide) c hgood), fieldLE_program_other _ _ (by decide) (by decide), hstate]
  rw [fieldLE_program_other _ _ (by decide) (by decide)]
  exact hfresh

theorem recAttempts_program {m : SMap Byte} {a n : Nat} (hn : n < 3) (h : fieldLE (romBytes m a 32) 0x15 1 = if n = 0 then 0xFF else if n = 1 then 0xFE else 0xFC) :
    recAttempts (romBytes (romProgram m (a + 0x15) [if n = 0 then 0xFE else if n = 1 then 0xFC else 0xF8]) a 32) = n + 1 := by
  have hbyte := fieldLE_byte_eq (by decide) h
  unfold recAttempts
  rw [fieldLE_program_same _ _ (by decide), hbyte]
  have hcases : n = 0 ∨ n = 1 ∨ n = 2 := by omega
  rcases hcases with rfl | rfl | rfl <;> rfl

/-- A VALID record becomes a first trial. -/
theorem recState_firstTrial {m : SMap Byte} {a : Nat} (h : recState (romBytes m a 32) = .valid) : recState (romBytes (romProgram m (a + 0x14) [0xF8]) a 32) = .trial := by
  obtain ⟨hgood, hfresh, hstate⟩ := recState_live h (by decide) (by decide)
  rw [recState_program hgood hfresh (byteState_valid hstate)]
  rfl

/-- A candidate that starts: its record after it, and the counter. -/
theorem State.tryCandidate_starts {s : State} {sl : Nat} (hsl : sl < 2) (hst : s.slotSt 1 sl = .valid ∨ s.slotSt 1 sl = .trial ∨ s.slotSt 1 sl = .confirmed)
    (h : ¬(s.slotBad 1 sl = true ∨ (s.slotSt 1 sl = .trial ∧ recAttempts (s.slotRec 1 sl) = 3))) : ∃ v, s.tryCandidate 1 sl = (v, true) ∧
    (s.slotSt 1 sl = .valid → fieldLE (s.slotRec 1 sl) 0x15 1 = 0xFF → v.slotSt 1 sl = .trial ∧ recAttempts (v.slotRec 1 sl) = 1) ∧
    (s.slotSt 1 sl = .trial → v.slotSt 1 sl = .trial ∧ recAttempts (v.slotRec 1 sl) = recAttempts (s.slotRec 1 sl) + 1) ∧
    (s.slotSt 1 sl = .confirmed → v.slotSt 1 sl = .confirmed ∧ v.counter 1 = max (s.counter 1) (imgVersion (s.slotHeader 1 sl))) := by
  obtain ⟨hgood, hleft⟩ := not_or.1 h
  rcases hst with hst | hst | hst
  · refine ⟨_, State.tryCandidate_valid hgood hst, fun _ hfresh => ?_, fun k => absurd (hst.symm.trans k) (by decide), fun k => absurd (hst.symm.trans k) (by decide)⟩
    have hrec : ((s.recProgram 1 sl 0x14 [0xF8]).recProgram 1 sl 0x15 [0xFE]).slotRec 1 sl =
        romBytes (romProgram (romProgram (s.rom 1) (recAddr 1 sl + 0x14) [0xF8]) (recAddr 1 sl + 0x15) [0xFE]) (recAddr 1 sl) 32 := by
      rw [State.slotRec, State.rom_recProgram, State.rom_recProgram]
    refine ⟨?_, ?_⟩
    · rw [State.slotSt, hrec]
      exact recState_attempts (recState_firstTrial hst) _
    · rw [hrec]
      refine recAttempts_program (n := 0) (by decide) ?_
      rw [fieldLE_program_other _ _ (by decide) (by decide)]
      exact hfresh
  · have hn : recAttempts (s.slotRec 1 sl) < 3 := by
      have hle : recAttempts (s.slotRec 1 sl) ≤ 3 := by
        unfold recAttempts
        split <;> omega
      have hne : recAttempts (s.slotRec 1 sl) ≠ 3 := fun k => hleft ⟨hst, k⟩
      omega
    refine ⟨_, State.tryCandidate_trial hgood hst hn, fun k => absurd (hst.symm.trans k) (by decide), fun _ => ⟨?_, ?_⟩, fun k => absurd (hst.symm.trans k) (by decide)⟩
    · rw [State.slotSt, State.slotRec_recProgram_same]
      exact recState_attempts hst _
    · rw [State.slotRec_recProgram_same]
      refine recAttempts_program hn ?_
      rcases recAttempts_cases _ hn with ⟨hcount, hbyte⟩ | ⟨hcount, hbyte⟩ | ⟨hcount, hbyte⟩ <;> rw [hcount] <;> exact hbyte
  · obtain ⟨v, hv, hrec, hcounter⟩ := State.tryCandidate_confirmed hgood hsl hst
    refine ⟨v, hv, fun k => absurd (hst.symm.trans k) (by decide), fun k => absurd (hst.symm.trans k) (by decide), fun _ => ⟨?_, hcounter⟩⟩
    rw [State.slotSt, hrec]
    exact hst

/-- A rejected candidate is STALE, the error stands, and no seal has changed. -/
theorem State.reject_spec {s : State} {sl : Nat} (hgood : GoodRec (s.slotRec 1 sl)) : Marked ((s.reject 1 sl).slotRec 1 sl) ∧
    (s.reject 1 sl).on ERROR_STATUS_DEGRADED = true ∧ Safety.Unsealed s (s.reject 1 sl) := by
  have htrust : (s.markStale 1 sl).trust = { s.trust with nor := romProgram s.trust.nor (recAddr 1 sl + 0x16) [0] } := (State.recSync_displayed _).trust
  have hroot : (s.reject 1 sl).trust = (s.markStale 1 sl).trust := State.report_trust _ _
  refine ⟨?_, State.on_report_degraded _ _ rfl, by rw [hroot, htrust], by rw [hroot, htrust]⟩
  rw [State.slotRec, State.rom, hroot, htrust]
  exact marked_mark hgood

end Sys2Proof.Machine
end

section
/-! SUPPORT. The end of the boot stage (Trust R535 to R538): no image, a slot that is entered, and what each leaves and shows. -/

namespace Sys2Proof.Machine
open Reg

/-! ### A line on the UART -/

theorem State.get_uartLine (s : State) (l : String) (f : Fld) : (s.uartLine l).get f = s.get f := rfl
theorem State.on_uartLine (s : State) (l : String) (f : Fld) : (s.uartLine l).on f = s.on f := rfl
theorem State.mem_uartLine (s : State) (l : String) : (s.uartLine l).mem = s.mem := rfl
theorem State.trust_uartLine (s : State) (l : String) : (s.uartLine l).trust = { s.trust with uart := s.trust.uart ++ [l ++ "\r\n"] } := rfl
theorem State.rom_uartLine (s : State) (l : String) (j : Nat) : (s.uartLine l).rom j = s.rom j := rfl
theorem State.sealOf_uartLine (s : State) (l : String) (j : Nat) : (s.uartLine l).sealOf j = s.sealOf j := rfl
theorem State.started_uartLine (s : State) (l : String) (j : Nat) : (s.uartLine l).started j = s.started j := rfl
theorem State.counter_uartLine (s : State) (l : String) (j : Nat) : (s.uartLine l).counter j = s.counter j := rfl

theorem State.get_putB_other (s : State) (f g : Fld) (b : Bool) (h : g.reg ≠ f.reg) : (s.putB f b).get g = s.get g := State.get_put_other s f g _ h

/-! ### No image -/

/-- What is shown when no slot of a pair can be started. -/
theorem State.noImage_spec (s : State) (p : Nat) : (s.noImage p).get SECURE_STATUS_BOOT_STATE = 2 ∧ (s.noImage p).on ERROR_STATUS_DEGRADED = true ∧
    (s.noImage p).mem = s.mem ∧ (∃ uart, (s.noImage p).trust = { s.trust with uart := uart }) ∧
    (s.noImage p).on GLOBAL_BOOT_STATUS_HOST_RELEASED = s.on GLOBAL_BOOT_STATUS_HOST_RELEASED := by
  have hreport : ∀ e : Err, ((s.put SECURE_STATUS_BOOT_STATE 2).report e).get SECURE_STATUS_BOOT_STATE = 2 ∧
      ((s.put SECURE_STATUS_BOOT_STATE 2).report e).get GLOBAL_BOOT_STATUS_HOST_RELEASED = s.get GLOBAL_BOOT_STATUS_HOST_RELEASED := fun e =>
    ⟨(State.get_report _ e _ (by decide) (.inl (by decide))).trans (State.get_put_same s SECURE_STATUS_BOOT_STATE 2 (by decide) (by decide)),
      (State.get_report _ e _ (by decide) (.inl (by decide))).trans (State.get_put_other s _ _ _ (by decide))⟩
  obtain ⟨hstate, hreleased⟩ := hreport { code := Code.BOOT_NO_IMAGE, unit := p }
  have hdegraded := State.on_report_degraded (s.put SECURE_STATUS_BOOT_STATE 2) { code := Code.BOOT_NO_IMAGE, unit := p } rfl
  have hmem := (s.put SECURE_STATUS_BOOT_STATE 2).report_mem { code := Code.BOOT_NO_IMAGE, unit := p }
  have htrust := (s.put SECURE_STATUS_BOOT_STATE 2).report_trust { code := Code.BOOT_NO_IMAGE, unit := p }
  unfold State.noImage
  generalize (s.put SECURE_STATUS_BOOT_STATE 2).report { code := Code.BOOT_NO_IMAGE, unit := p } = u at hstate hreleased hdegraded hmem htrust ⊢
  have hline : ∀ l, ∃ uart, (u.uartLine l).trust = { s.trust with uart := uart } := fun l =>
    ⟨u.trust.uart ++ [l ++ "\r\n"], by rw [State.trust_uartLine, htrust, State.put_trust]⟩
  rw [State.get_uartLine, State.on_uartLine, State.on_uartLine, State.mem_uartLine]
  refine ⟨hstate, hdegraded, hmem.trans (State.put_mem _ _ _), hline _, ?_⟩
  rw [State.on, hreleased, State.on]

/-! ### The boot stage -/

/-- The boot stage whose slot has been chosen is entered. -/
def State.bootEnter (s : State) (sl : Nat) : State :=
  let h := s.slotHeader 1 sl
  let s := (s.setTrust fun t => { t with bootStage := some (sl, imgVersion h) }).recSync
  let s := (s.extendSeal 2 (imgDigest h) 2).put SECURE_STATUS_BOOT_SLOT sl
  let s := (s.put SECURE_STATUS_BOOT_STATE 1).putB GLOBAL_BOOT_STATUS_HOST_RELEASED true
  s.uartLine ("HX4 boot slot=" ++ slotName sl ++ " ver=" ++ toString (imgVersion h) ++ " round=" ++ toString s.round ++ " trial=" ++
    (if s.on SECURE_STATUS_BOOT_TRIAL then "1" else "0"))

/-- The end of the boot stage. -/
def State.bootDone (x : State × Option Nat) : State := match x with
  | (s, none) => (s.setTrust fun t => { t with bootStage := none }).noImage 1
  | (s, some sl) => s.bootEnter sl

theorem State.startBoot_eq (s : State) : s.startBoot =
    State.bootDone ((s.setTrust fun t => { t with stage := 2 }).choose 1 ((s.setTrust fun t => { t with stage := 2 }).candidates 1)) := by
  unfold State.startBoot
  dsimp only
  generalize State.choose _ 1 _ = x
  obtain ⟨u, o⟩ := x
  cases o with
  | none => rfl
  | some sl => rfl

/-- The boot stage with its seal extended and the mirrors shown. -/
def State.bootSealed (s : State) (sl : Nat) : State :=
  ((s.setTrust fun t => { t with bootStage := some (sl, imgVersion (s.slotHeader 1 sl)) }).recSync).extendSeal 2 (imgDigest (s.slotHeader 1 sl)) 2

theorem State.bootSealed_work (s : State) (sl : Nat) : StageWork s (s.bootSealed sl) :=
  ((StageStep.setTrust s _ rfl rfl rfl rfl).work.trans (.recSync _)).trans (.extendSeal _ _)

theorem State.bootSealed_spec {s : State} (hlen : 2 < s.trust.seals.length) (sl : Nat) : (s.bootSealed sl).started 1 = some sl ∧
    (s.bootSealed sl).sealOf 2 = sha384 (s.sealOf 2 ++ imgDigest (s.slotHeader 1 sl)) ∧ (s.bootSealed sl).mem = s.mem ∧ (∀ j, (s.bootSealed sl).rom j = s.rom j) ∧
    (s.bootSealed sl).counter 1 = s.counter 1 := by
  have hshown := (s.setTrust fun t => { t with bootStage := some (sl, imgVersion (s.slotHeader 1 sl)) }).recSync_displayed
  have htrust := hshown.trust
  have hcounter := hshown.rdN _ (not_rootReg_counter (i := 1) (by decide))
  have hmem := hshown.mem
  unfold State.bootSealed
  generalize (s.setTrust fun t => { t with bootStage := some (sl, imgVersion (s.slotHeader 1 sl)) }).recSync = u at htrust hcounter hmem ⊢
  obtain ⟨hmem', hrom, hregs, -⟩ := u.extendSeal_slots 2 (imgDigest (s.slotHeader 1 sl)) 2
  refine ⟨?_, ?_, hmem'.trans hmem, fun j => (hrom j).trans ?_, (hregs.rdN _ (not_errReg_counter (by decide))).trans hcounter⟩
  · rw [State.started, if_neg (by decide), (u.extendSeal_root 2 _ 2).2.1, htrust]
    rfl
  · rw [State.sealOf_extendSeal_same (by rw [htrust]; exact hlen), State.sealOf, htrust]
    rfl
  · rw [State.rom, htrust]
    rfl

theorem State.bootEnter_eq (s : State) (sl : Nat) : ∃ line, s.bootEnter sl =
    ((((s.bootSealed sl).put SECURE_STATUS_BOOT_SLOT sl).put SECURE_STATUS_BOOT_STATE 1).putB GLOBAL_BOOT_STATUS_HOST_RELEASED true).uartLine line := ⟨_, rfl⟩

theorem State.bootEnter_work (s : State) (sl : Nat) : StageWork s (s.bootEnter sl) := by
  obtain ⟨line, heq⟩ := s.bootEnter_eq sl
  rw [heq]
  exact ((((s.bootSealed_work sl).trans (.putStatus _ rfl (by decide) (by decide) sl)).trans (.putStatus _ rfl (by decide) (by decide) 1)).trans (.putBoot _ true)).trans
    (.uartLine _ line)

/-- What the entry of the boot stage shows. -/
theorem State.bootEnter_spec {s : State} (hlen : 2 < s.trust.seals.length) {sl : Nat} (hsl : sl < 2) : (s.bootEnter sl).get SECURE_STATUS_BOOT_STATE = 1 ∧
    (s.bootEnter sl).on GLOBAL_BOOT_STATUS_HOST_RELEASED = true ∧ (s.bootEnter sl).get SECURE_STATUS_BOOT_SLOT = sl ∧ (s.bootEnter sl).started 1 = some sl ∧
    (s.bootEnter sl).sealOf 2 = sha384 (s.sealOf 2 ++ imgDigest (s.slotHeader 1 sl)) ∧ (s.bootEnter sl).mem = s.mem ∧ (∀ j, (s.bootEnter sl).rom j = s.rom j) ∧
    (s.bootEnter sl).counter 1 = s.counter 1 := by
  obtain ⟨hstarted, hseal, hmem, hrom, hcounter⟩ := State.bootSealed_spec hlen sl
  obtain ⟨line, heq⟩ := s.bootEnter_eq sl
  rw [heq]
  generalize s.bootSealed sl = u at hstarted hseal hmem hrom hcounter ⊢
  have hshown : Displayed (fun o => o = SECURE_STATUS ∨ o = GLOBAL_BOOT_STATUS) u
      (((u.put SECURE_STATUS_BOOT_SLOT sl).put SECURE_STATUS_BOOT_STATE 1).putB GLOBAL_BOOT_STATUS_HOST_RELEASED true) :=
    (((Displayed.refl u).put (.inl rfl)).put (.inl rfl)).putB (.inr rfl)
  have hstate : (((u.put SECURE_STATUS_BOOT_SLOT sl).put SECURE_STATUS_BOOT_STATE 1).putB GLOBAL_BOOT_STATUS_HOST_RELEASED true).get SECURE_STATUS_BOOT_STATE = 1 :=
    (State.get_putB_other _ _ _ _ (by decide)).trans (State.get_put_same _ SECURE_STATUS_BOOT_STATE 1 (by decide) (by decide))
  have hslot : (((u.put SECURE_STATUS_BOOT_SLOT sl).put SECURE_STATUS_BOOT_STATE 1).putB GLOBAL_BOOT_STATUS_HOST_RELEASED true).get SECURE_STATUS_BOOT_SLOT = sl :=
    (State.get_putB_other _ _ _ _ (by decide)).trans ((State.get_put_apart _ SECURE_STATUS_BOOT_STATE SECURE_STATUS_BOOT_SLOT 1 (by decide) (by decide) (.inl (by decide))).trans
      ((State.get_put_same u SECURE_STATUS_BOOT_SLOT sl (by decide) (by decide)).trans (Nat.mod_eq_of_lt (Nat.lt_trans hsl (by decide)))))
  have hreleased := State.on_putB_same ((u.put SECURE_STATUS_BOOT_SLOT sl).put SECURE_STATUS_BOOT_STATE 1) GLOBAL_BOOT_STATUS_HOST_RELEASED true rfl (by decide)
  have hcounter' := hshown.rdN (SECURE_COUNTER 1) (by decide)
  have hmem' := hshown.mem
  have htrust := hshown.trust
  generalize ((u.put SECURE_STATUS_BOOT_SLOT sl).put SECURE_STATUS_BOOT_STATE 1).putB GLOBAL_BOOT_STATUS_HOST_RELEASED true = v at hstate hslot hreleased hcounter' hmem' htrust ⊢
  rw [State.get_uartLine, State.get_uartLine, State.on_uartLine, State.mem_uartLine, State.started_uartLine, State.sealOf_uartLine, State.counter_uartLine]
  refine ⟨hstate, hreleased, hslot, ?_, ?_, hmem'.trans hmem, fun j => ?_, hcounter'.trans hcounter⟩
  · rw [← hstarted, State.started, State.started, htrust]
  · rw [← hseal, State.sealOf, State.sealOf, htrust]
  · rw [State.rom_uartLine, ← hrom j, State.rom, State.rom, htrust]

theorem State.bootDone_work (x : State × Option Nat) : StageWork x.1 (State.bootDone x) := by
  obtain ⟨s, o⟩ := x
  cases o with
  | none => exact (StageStep.setTrust s _ rfl rfl rfl rfl).work.trans (.noImage _ 1)
  | some sl => exact s.bootEnter_work sl

theorem State.startBoot_work (s : State) : StageWork s s.startBoot := by
  rw [s.startBoot_eq]
  exact ((StageStep.setTrust s _ rfl rfl rfl rfl).work.trans (.choose (fun _ h => State.candidates_lt h) _)).trans (State.bootDone_work _)

/-- A candidate of the boot stage, copied to boot SRAM. -/
def State.bootCandidate (s : State) (sl : Nat) : State := (s.setTrust fun t => { t with stage := 2 }).loadBoot sl

/-- The copy changes memory alone, beyond the stage. -/
theorem State.bootCandidate_eq (s : State) (sl : Nat) : ∃ a b, s.bootCandidate sl = (s.setTrust fun t => { t with stage := 2 }).wrMem a b := ⟨_, _, rfl⟩

section stage
variable (s : State) (a sl j : Nat) (b : Bytes)
theorem State.rom_staged : ((s.setTrust fun t => { t with stage := 2 }).wrMem a b).rom j = s.rom j := rfl
theorem State.sealOf_staged : ((s.setTrust fun t => { t with stage := 2 }).wrMem a b).sealOf j = s.sealOf j := rfl
theorem State.length_staged : ((s.setTrust fun t => { t with stage := 2 }).wrMem a b).trust.seals.length = s.trust.seals.length := rfl
theorem State.regs_staged : ((s.setTrust fun t => { t with stage := 2 }).wrMem a b).regs = s.regs := rfl
theorem State.acting_staged : ((s.setTrust fun t => { t with stage := 2 }).wrMem a b).acting = s.acting := rfl

theorem State.bootCandidate_rom : (s.bootCandidate sl).rom j = s.rom j := by
  obtain ⟨a, b, heq⟩ := s.bootCandidate_eq sl
  rw [heq, State.rom_staged]

theorem State.bootCandidate_seal : (s.bootCandidate sl).sealOf j = s.sealOf j := by
  obtain ⟨a, b, heq⟩ := s.bootCandidate_eq sl
  rw [heq, State.sealOf_staged]

theorem State.bootCandidate_length : (s.bootCandidate sl).trust.seals.length = s.trust.seals.length := by
  obtain ⟨a, b, heq⟩ := s.bootCandidate_eq sl
  rw [heq, State.length_staged]

theorem State.bootCandidate_regs : RegsBut StartReg s (s.bootCandidate sl) := by
  obtain ⟨a, b, heq⟩ := s.bootCandidate_eq sl
  rw [heq]
  exact .of_regs (s.acting_staged a b) (s.regs_staged a b)

theorem State.bootCandidate_image : SameImage s (s.bootCandidate sl) := (s.bootCandidate_regs sl).sameImage

theorem State.bootCandidate_counter (hj : j < 256) : (s.bootCandidate sl).counter j = s.counter j := (s.bootCandidate_image sl).counter j hj
theorem State.bootCandidate_rec (p : Nat) : (s.bootCandidate sl).slotRec p j = s.slotRec p j := by rw [State.slotRec, s.bootCandidate_rom, State.slotRec]
theorem State.bootCandidate_slotSt (p : Nat) : (s.bootCandidate sl).slotSt p j = s.slotSt p j := congrArg recState (s.bootCandidate_rec sl j p)
theorem State.bootCandidate_header (p : Nat) : (s.bootCandidate sl).slotHeader p j = s.slotHeader p j := by rw [State.slotHeader, s.bootCandidate_rom, State.slotHeader]

/-- The image that is copied is the slot's. -/
theorem State.loadBoot_congr {s t : State} (hmem : t.mem = s.mem) (hnor : t.trust.nor = s.trust.nor) : (t.loadBoot sl).mem = (s.loadBoot sl).mem := by
  have hrom : t.rom 1 = s.rom 1 := hnor
  simp only [State.loadBoot, State.wrMem, State.slotHeader, hmem, hnor, hrom]

theorem State.bootCandidate_mem : (s.bootCandidate sl).mem = (s.loadBoot sl).mem := State.loadBoot_congr sl rfl rfl

end stage

theorem State.bootCandidate_slotBad (s : State) (sl : Nat) : (s.bootCandidate sl).slotBad 1 sl = s.slotBad 1 sl := (s.bootCandidate_image sl).slotBad (s.bootCandidate_rom sl 1) sl

theorem State.candidates_setStage (s : State) (n p : Nat) : (s.setTrust fun t => { t with stage := n }).candidates p = s.candidates p := rfl

theorem State.choose_cons_true {s v : State} {sl : Nat} {l : List Nat} (h : (s.loadBoot sl).tryCandidate 1 sl = (v, true)) : s.choose 1 (sl :: l) = (v, some sl) := by
  unfold State.choose
  rw [if_pos rfl, h]

theorem State.choose_cons_false {s v : State} {sl : Nat} {l : List Nat} (h : (s.loadBoot sl).tryCandidate 1 sl = (v, false)) : s.choose 1 (sl :: l) = v.choose 1 l := by
  rw [State.choose, if_pos rfl, h]

/-- A candidate is VALID, in TRIAL or CONFIRMED. -/
theorem State.slotSt_of_candidate {s : State} {p sl : Nat} (h : sl ∈ s.candidates p) : s.slotSt p sl = .valid ∨ s.slotSt p sl = .trial ∨ s.slotSt p sl = .confirmed := by
  have hok := List.of_mem_filter h
  cases hst : s.slotSt p sl <;> rw [hst] at hok <;> simp_all

section boot
variable {s : State} {sl : Fin 2} {rest : List Nat} (hcand : s.candidates 1 = sl.val :: rest)
include hcand

/-- The first candidate fails a check, or has had its three attempts. -/
theorem State.startBoot_rejects (hbad : s.slotBad 1 sl = true ∨ (s.slotSt 1 sl = .trial ∧ recAttempts (s.slotRec 1 sl) = 3)) : s.startBoot.slotSt 1 sl = .stale ∧
    s.startBoot.on ERROR_STATUS_DEGRADED = true ∧
    (rest = [] → s.startBoot.get SECURE_STATUS_BOOT_STATE = 2 ∧ s.startBoot.started 1 = none ∧ Safety.Unsealed s s.startBoot) := by
  have hst := State.slotSt_of_candidate (hcand ▸ List.mem_cons_self : sl.val ∈ s.candidates 1)
  have hlive : GoodRec (s.slotRec 1 sl) := by
    rcases hst with hst | hst | hst <;> exact (recState_live hst (by decide) (by decide)).1
  have htry : (s.bootCandidate sl).tryCandidate 1 sl = ((s.bootCandidate sl).reject 1 sl, false) :=
    State.tryCandidate_rejects (by rw [s.bootCandidate_slotBad, s.bootCandidate_slotSt, s.bootCandidate_rec]; exact hbad)
  obtain ⟨hmarked, hdegraded, hseals, hlog⟩ := State.reject_spec (s := s.bootCandidate sl) (by rw [s.bootCandidate_rec]; exact hlive)
  have heq : s.startBoot = State.bootDone (((s.bootCandidate sl).reject 1 sl).choose 1 rest) := by
    rw [s.startBoot_eq, s.candidates_setStage, hcand, State.choose_cons_false htry]
  have hrest : ∀ x ∈ rest, x < 2 := fun x hx => State.candidates_lt (s := s) (p := 1) (hcand ▸ List.mem_cons_of_mem _ hx)
  have hwork : StageWork ((s.bootCandidate sl).reject 1 sl) s.startBoot := by
    rw [heq]
    exact (StageWork.choose hrest _).trans (State.bootDone_work _)
  refine ⟨recState_of_marked (hwork.marked sl sl.isLt hmarked), hwork.degraded hdegraded, fun hnil => ?_⟩
  subst hnil
  rw [heq]
  obtain ⟨hstate, -, -, ⟨uart, htrust⟩, -⟩ := (((s.bootCandidate sl).reject 1 sl).setTrust fun t => { t with bootStage := none }).noImage_spec 1
  show State.get (State.noImage _ 1) _ = 2 ∧ State.started (State.noImage _ 1) 1 = none ∧ Safety.Unsealed s (State.noImage _ 1)
  refine ⟨hstate, ?_, ?_, ?_⟩
  · rw [State.started, htrust]
    rfl
  · rw [htrust]
    exact hseals
  · rw [htrust]
    exact hlog

/-- The first candidate is started. -/
theorem State.startBoot_starts (hlen : s.trust.seals.length = 8) (hgood : ¬(s.slotBad 1 sl = true ∨ (s.slotSt 1 sl = .trial ∧ recAttempts (s.slotRec 1 sl) = 3))) :
    s.startBoot.get SECURE_STATUS_BOOT_STATE = 1 ∧ s.startBoot.on GLOBAL_BOOT_STATUS_HOST_RELEASED = true ∧ s.startBoot.get SECURE_STATUS_BOOT_SLOT = sl.val ∧
    s.startBoot.started 1 = some sl.val ∧ s.startBoot.sealOf 2 = sha384 (s.sealOf 2 ++ imgDigest (s.slotHeader 1 sl)) ∧ s.startBoot.mem = (s.loadBoot sl).mem ∧
    s.startBoot.trust.flash = s.trust.flash ∧
    (s.slotSt 1 sl = .valid → fieldLE (s.slotRec 1 sl) 0x15 1 = 0xFF → s.startBoot.slotSt 1 sl = .trial ∧ recAttempts (s.startBoot.slotRec 1 sl) = 1) ∧
    (s.slotSt 1 sl = .trial → s.startBoot.slotSt 1 sl = .trial ∧ recAttempts (s.startBoot.slotRec 1 sl) = recAttempts (s.slotRec 1 sl) + 1) ∧
    (s.slotSt 1 sl = .confirmed → s.startBoot.slotSt 1 sl = .confirmed ∧ s.startBoot.counter 1 = max (s.counter 1) (imgVersion (s.slotHeader 1 sl))) := by
  have hst := State.slotSt_of_candidate (hcand ▸ List.mem_cons_self : sl.val ∈ s.candidates 1)
  have hstep := StageStep.tryCandidate (s.bootCandidate sl) sl.isLt
  obtain ⟨v, htry, hvalid, htrial, hconfirmed⟩ := State.tryCandidate_starts (s := s.bootCandidate sl) sl.isLt (by rw [s.bootCandidate_slotSt]; exact hst)
    (by rw [s.bootCandidate_slotBad, s.bootCandidate_slotSt, s.bootCandidate_rec]; exact hgood)
  rw [htry] at hstep
  rw [s.bootCandidate_slotSt, s.bootCandidate_rec] at hvalid
  rw [s.bootCandidate_slotSt, s.bootCandidate_rec] at htrial
  rw [s.bootCandidate_slotSt, s.bootCandidate_counter _ _ (by decide), s.bootCandidate_header] at hconfirmed
  have heq : s.startBoot = v.bootEnter sl := by
    rw [s.startBoot_eq, s.candidates_setStage, hcand, State.choose_cons_true htry]
    rfl
  have hlen' : 2 < v.trust.seals.length := by
    rw [hstep.length, s.bootCandidate_length]
    omega
  obtain ⟨hstate, hreleased, hslot, hstarted, hseal, hmem, hrom, hcounter⟩ := State.bootEnter_spec hlen' sl.isLt
  have hrec : (v.bootEnter sl).slotRec 1 sl = v.slotRec 1 sl := by rw [State.slotRec, hrom, State.slotRec]
  have hslotSt : (v.bootEnter sl).slotSt 1 sl = v.slotSt 1 sl := congrArg recState hrec
  rw [heq, hslotSt, hrec, hcounter]
  refine ⟨hstate, hreleased, hslot, hstarted, ?_, hmem.trans (hstep.mem.trans (s.bootCandidate_mem sl)), (hrom 0).trans hstep.flash, hvalid, htrial, hconfirmed⟩
  rw [hseal, hstep.seals 2 (by decide), hstep.header sl sl.isLt, s.bootCandidate_seal, s.bootCandidate_header]

end boot

/-- No candidate of the boot stage. -/
theorem State.startBoot_none {s : State} (hcand : s.candidates 1 = []) : s.startBoot.get SECURE_STATUS_BOOT_STATE = 2 ∧ s.startBoot.on ERROR_STATUS_DEGRADED = true ∧
    s.startBoot.started 1 = none ∧ Safety.Unsealed s s.startBoot ∧ s.startBoot.mem = s.mem ∧
    s.startBoot.on GLOBAL_BOOT_STATUS_HOST_RELEASED = s.on GLOBAL_BOOT_STATUS_HOST_RELEASED := by
  have heq : s.startBoot = ((s.setTrust fun t => { t with stage := 2 }).setTrust fun t => { t with bootStage := none }).noImage 1 := by
    rw [s.startBoot_eq, s.candidates_setStage, hcand]
    rfl
  obtain ⟨hstate, hdegraded, hmem, ⟨uart, htrust⟩, hreleased⟩ := ((s.setTrust fun t => { t with stage := 2 }).setTrust fun t => { t with bootStage := none }).noImage_spec 1
  rw [heq]
  refine ⟨hstate, hdegraded, ?_, ⟨?_, ?_⟩, hmem, hreleased⟩
  · rw [State.started, htrust]
    rfl
  · rw [htrust]
    rfl
  · rw [htrust]
    rfl

end Sys2Proof.Machine
end

section
/-! OBLIGATION. Secure start chooses, verifies and counts (Trust R534 to R540). -/

namespace Sys2Proof.Machine
open Reg

/-! ### The root's first steps -/

/-- The octets of fuse words 0 to 67. -/
def State.fuseBytes (s : State) : Bytes := (List.range 68).flatMap fun w => leBytes 4 (s.rdN (SECURE_FUSE w))

/-- The root after a power-on reset, before it takes a candidate for the runtime. -/
def State.rootStarted (s : State) (root : Bytes) : State := (((s.fuseSync).extendSeal 0 (root.take 48) 0).extendSeal 0 (sha384 s.fuseBytes) 0).recSync

/-- What the root's first steps leave, and the seal that they extend. -/
structure RootBegun (root : Bytes) (s t : State) : Prop where
  regs : RegsBut StartReg s t
  mem : t.mem = s.mem
  rom : ∀ j, t.rom j = s.rom j
  length : t.trust.seals.length = s.trust.seals.length
  first : t.sealOf 0 = sha384 (sha384 (s.sealOf 0 ++ root.take 48) ++ sha384 s.fuseBytes)
  second : t.sealOf 1 = s.sealOf 1

theorem Displayed.start {s t : State} (h : Displayed RootReg s t) : RegsBut StartReg s t := (h.mono fun _ => .inl).toRegsBut

theorem RegsBut.extendSeal {s t : State} (h : RegsBut StartReg s t) (i : Nat) (d : Bytes) (source : Nat) : RegsBut StartReg s (t.extendSeal i d source) := by
  obtain ⟨-, -, hregs, -⟩ := t.extendSeal_slots i d source
  exact h.trans ⟨hregs.acting, fun o ho => hregs.rd o fun k => ho (.inr k)⟩

theorem State.rootStarted_begun (s : State) (root : Bytes) (hlen : s.trust.seals.length = 8) : RootBegun root s (s.rootStarted root) := by
  have hfuse := s.fuseSync_displayed
  have hregs : RegsBut StartReg s ((s.fuseSync.extendSeal 0 (root.take 48) 0).extendSeal 0 (sha384 s.fuseBytes) 0) := (hfuse.start.extendSeal _ _ _).extendSeal _ _ _
  have hfused : ∀ j, s.fuseSync.sealOf j = s.sealOf j := fun j => by rw [State.sealOf, hfuse.trust, State.sealOf]
  have hshort : 0 < s.fuseSync.trust.seals.length := by rw [hfuse.trust]; omega
  obtain ⟨hmem₁, hrom₁, -, -⟩ := s.fuseSync.extendSeal_slots 0 (root.take 48) 0
  obtain ⟨hmem₂, hrom₂, -, -⟩ := (s.fuseSync.extendSeal 0 (root.take 48) 0).extendSeal_slots 0 (sha384 s.fuseBytes) 0
  have hsync := ((s.fuseSync.extendSeal 0 (root.take 48) 0).extendSeal 0 (sha384 s.fuseBytes) 0).recSync_displayed
  have hsynced : ∀ j, (s.rootStarted root).sealOf j = ((s.fuseSync.extendSeal 0 (root.take 48) 0).extendSeal 0 (sha384 s.fuseBytes) 0).sealOf j := fun j => by
    rw [State.sealOf, State.rootStarted, hsync.trust, State.sealOf]
  refine ⟨hregs.trans hsync.start, hsync.mem.trans (hmem₂.trans (hmem₁.trans hfuse.mem)), fun j => ?_, ?_, ?_, ?_⟩
  · rw [State.rootStarted, State.rom_recSync, hrom₂, hrom₁, State.rom, hfuse.trust, State.rom]
  · rw [State.rootStarted, hsync.trust, State.seals_length_extendSeal, State.seals_length_extendSeal, hfuse.trust]
  · rw [hsynced, State.sealOf_extendSeal_same (by rw [State.seals_length_extendSeal]; exact hshort), State.sealOf_extendSeal_same hshort, hfused]
  · rw [hsynced, State.sealOf_extendSeal_other (by decide), State.sealOf_extendSeal_other (by decide), hfused]

namespace RootBegun
variable {root : Bytes} {s t : State} (h : RootBegun root s t)
include h

theorem slotRec (p sl : Nat) : t.slotRec p sl = s.slotRec p sl := by rw [State.slotRec, h.rom, State.slotRec]
theorem slotSt (p sl : Nat) : t.slotSt p sl = s.slotSt p sl := congrArg recState (h.slotRec p sl)
theorem slotHeader (p sl : Nat) : t.slotHeader p sl = s.slotHeader p sl := by rw [State.slotHeader, h.rom, State.slotHeader]
theorem slotBad (p sl : Nat) : t.slotBad p sl = s.slotBad p sl := h.regs.sameImage.slotBad (h.rom p) sl
theorem flash : t.trust.flash = s.trust.flash := h.rom 0

theorem candidates (p : Nat) : t.candidates p = s.candidates p := by
  simp only [State.candidates, h.slotRec, h.slotSt]

theorem released : t.on GLOBAL_BOOT_STATUS_HOST_RELEASED = s.on GLOBAL_BOOT_STATUS_HOST_RELEASED := h.regs.on _ (by
  show ¬StartReg 0xC00
  unfold StartReg RootReg errReg SECURE_STATUS SECURE_KEY_STATE FIRMWARE_SLOT_REC SECURE_SEC_NOTIFY
  omega)

end RootBegun

/-! ### The runtime -/

theorem State.rom_zero (s : State) : s.rom 0 = s.trust.flash := rfl

/-- The runtime whose slot has been chosen is entered, and the boot stage follows. -/
def State.runtimeEnter (s : State) (sl : Nat) : State :=
  let h := s.slotHeader 0 sl
  let s := (s.setTrust fun t => { t with runtime := some (sl, imgVersion h) }).recSync
  let s := (s.extendSeal 1 (imgDigest h) 1).put SECURE_STATUS_RUNTIME_SLOT sl
  (s.uartLine ("HX4 runtime slot=" ++ slotName sl ++ " ver=" ++ toString (imgVersion h) ++ " round=" ++ toString s.round)).startBoot

/-- The end of the choice of the runtime. -/
def State.runtimeDone (x : State × Option Nat) : State := match x with
  | (s, none) => (s.setTrust fun t => { t with stage := 2, runtime := none }).noImage 0
  | (s, some sl) => s.runtimeEnter sl

theorem State.runtimeDone_none (s : State) : State.runtimeDone (s, none) = (s.setTrust fun t => { t with stage := 2, runtime := none }).noImage 0 := rfl
theorem State.runtimeDone_some (s : State) (sl : Nat) : State.runtimeDone (s, some sl) = s.runtimeEnter sl := rfl
theorem State.choose_nil (s : State) (p : Nat) : s.choose p [] = (s, none) := rfl

theorem State.startRuntime_eq (s : State) : s.startRuntime = State.runtimeDone (s.choose 0 (s.candidates 0)) := by
  unfold State.startRuntime
  generalize State.choose _ 0 _ = x
  obtain ⟨u, o⟩ := x
  cases o with
  | none => rfl
  | some sl => rfl

theorem State.runtimeEnter_eq (s : State) (sl : Nat) : ∃ line, s.runtimeEnter sl =
    (((((s.setTrust fun t => { t with runtime := some (sl, imgVersion (s.slotHeader 0 sl)) }).recSync).extendSeal 1 (imgDigest (s.slotHeader 0 sl)) 1).put
      SECURE_STATUS_RUNTIME_SLOT sl).uartLine line).startBoot := by
  unfold State.runtimeEnter
  dsimp only
  exact ⟨_, rfl⟩

/-- What the entry of the runtime shows, whatever the boot stage does after it. -/
theorem State.runtimeEnter_spec {s : State} (hlen : 1 < s.trust.seals.length) {sl : Nat} (hsl : sl < 2) : (s.runtimeEnter sl).started 0 = some sl ∧
    (s.runtimeEnter sl).get SECURE_STATUS_RUNTIME_SLOT = sl ∧ (s.runtimeEnter sl).sealOf 1 = sha384 (s.sealOf 1 ++ imgDigest (s.slotHeader 0 sl)) ∧
    (s.runtimeEnter sl).trust.flash = s.trust.flash := by
  have htrust := (s.setTrust fun t => { t with runtime := some (sl, imgVersion (s.slotHeader 0 sl)) }).recSync_displayed.trust
  obtain ⟨line, heq⟩ := s.runtimeEnter_eq sl
  rw [heq]
  generalize (s.setTrust fun t => { t with runtime := some (sl, imgVersion (s.slotHeader 0 sl)) }).recSync = u at htrust ⊢
  obtain ⟨-, hrom, -, -⟩ := u.extendSeal_slots 1 (imgDigest (s.slotHeader 0 sl)) 1
  have hruntime := (u.extendSeal_root 1 (imgDigest (s.slotHeader 0 sl)) 1).1
  have hseal := State.sealOf_extendSeal_same (s := u) (i := 1) (by rw [htrust]; exact hlen) (imgDigest (s.slotHeader 0 sl)) 1
  have hflash : (u.extendSeal 1 (imgDigest (s.slotHeader 0 sl)) 1).trust.flash = u.trust.flash := by rw [← State.rom_zero, hrom, State.rom_zero]
  generalize u.extendSeal 1 (imgDigest (s.slotHeader 0 sl)) 1 = v at hruntime hseal hflash ⊢
  have hslot := (State.get_put_same v SECURE_STATUS_RUNTIME_SLOT sl (by decide) (by decide)).trans (Nat.mod_eq_of_lt (Nat.lt_trans hsl (by decide)))
  have hput := State.put_trust v SECURE_STATUS_RUNTIME_SLOT sl
  generalize v.put SECURE_STATUS_RUNTIME_SLOT sl = w at hslot hput ⊢
  have hwork := (w.uartLine line).startBoot_work
  refine ⟨?_, (hwork.runtimeSlot.trans (State.get_uartLine _ _ _)).trans hslot, ?_, ?_⟩
  · rw [State.started, if_pos rfl, hwork.runtime, State.trust_uartLine, hput, hruntime, htrust]
    rfl
  · rw [hwork.runtimeSeal, State.sealOf_uartLine, State.sealOf, hput, ← State.sealOf, hseal, State.sealOf, htrust]
    rfl
  · rw [hwork.flash, State.trust_uartLine]
    show w.trust.flash = _
    rw [hput, hflash, htrust]
    rfl

/-- A CONFIRMED runtime at or below its counter is taken as it is. -/
theorem State.choose_confirmed {s : State} {sl : Nat} {l : List Nat} (hgood : ¬s.slotBad 0 sl = true) (hst : s.slotSt 0 sl = .confirmed)
    (hver : imgVersion (s.slotHeader 0 sl) ≤ s.counter 0) : s.choose 0 (sl :: l) = (s, some sl) := by
  have htry : s.tryCandidate 0 sl = (s, true) := by
    unfold State.tryCandidate
    rw [if_neg hgood, hst]
    dsimp only
    rw [if_neg (by omega)]
  unfold State.choose
  rw [if_neg (by decide), htry]

/-! ### The step -/

section step
variable {s : State} {root : Bytes}

theorem exec_secureStart_idle (h : s.boot.supply ≠ .up ∨ s.boot.resetLow = true ∨ 2 ≤ s.trust.stage) : exec (.secureStart root) s = .next s := by
  show execSecureStart root s = _
  unfold execSecureStart
  by_cases hdown : (s.boot.supply != .up || s.boot.resetLow) = true
  · rw [if_pos hdown]
  · have hstage : 2 ≤ s.trust.stage := by
      simp only [Bool.or_eq_true, bne_iff_ne, not_or, Bool.not_eq_true, Decidable.not_not] at hdown
      obtain ⟨hup, hlow⟩ := hdown
      rcases h with h | h | h
      · exact absurd hup h
      · rw [hlow] at h
        cases h
      · exact h
    rw [if_neg hdown, if_neg (by omega), if_neg (by omega)]

variable (hup : s.boot.supply = .up) (hlow : s.boot.resetLow = false)
include hup hlow

theorem exec_secureStart_root (hstage : s.trust.stage = 0) : exec (.secureStart root) s = .next (s.rootStarted root).startRuntime := by
  show execSecureStart root s = _
  unfold execSecureStart
  rw [if_neg (by rw [hup, hlow]; decide), if_pos hstage, State.rootStarted, State.fuseBytes]

theorem exec_secureStart_boot (hstage : s.trust.stage = 1) : exec (.secureStart root) s = .next s.startBoot := by
  show execSecureStart root s = _
  unfold execSecureStart
  rw [if_neg (by rw [hup, hlow]; decide), if_neg (by omega), if_pos hstage]

end step

/-- Settles O50: the root's first steps, the choice of the runtime, and the choice of the boot stage, candidate by candidate. -/
theorem secureStartChoosesVerifiesAndCounts : Obligations.SecureStartChoosesVerifiesAndCounts := by
  intro root s
  refine ⟨exec_secureStart_idle, fun hup hlow hlen => ⟨fun hstage => ?root, fun hstage => ⟨fun hcand => ?bootNone, fun sl rest hcand => ?boot⟩⟩⟩
  case root =>
    have hbegun := s.rootStarted_begun root hlen
    have hexec := exec_secureStart_root (root := root) hup hlow hstage
    rw [State.startRuntime_eq, hbegun.candidates] at hexec
    generalize s.rootStarted root = u at hbegun hexec
    refine ⟨fun hcand => ?_, fun sl rest hcand hst hver => ?_⟩
    · rw [hcand, State.choose_nil, State.runtimeDone_none] at hexec
      obtain ⟨hstate, hdegraded, hmem, ⟨uart, htrust⟩, hreleased⟩ := (u.setTrust fun t => { t with stage := 2, runtime := none }).noImage_spec 0
      refine ⟨_, hexec, hstate, hdegraded, ?_, ?_, ?_, hmem.trans hbegun.mem, hreleased.trans hbegun.released⟩
      · rw [State.started, htrust]
        rfl
      · rw [State.sealOf, htrust]
        exact hbegun.first
      · rw [State.sealOf, htrust]
        exact hbegun.second
    · by_cases hbad : s.slotBad 0 sl = true
      · exact .inl hbad
      · have hchosen := State.choose_confirmed (s := u) (l := rest) (by rw [hbegun.slotBad]; exact hbad) (by rw [hbegun.slotSt]; exact hst)
          (by rw [hbegun.slotHeader, hbegun.regs.sameImage.counter 0 (by decide)]; exact hver)
        obtain ⟨hstarted, hslot, hseal, hflash⟩ := State.runtimeEnter_spec (s := u) (by rw [hbegun.length]; omega) sl.isLt
        rw [hcand, hchosen, State.runtimeDone_some] at hexec
        rw [hbegun.second, hbegun.slotHeader] at hseal
        exact .inr ⟨_, hexec, hstarted, hslot, hseal, hflash.trans hbegun.flash⟩
  case bootNone => exact ⟨_, exec_secureStart_boot hup hlow hstage, State.startBoot_none hcand⟩
  case boot =>
    refine ⟨_, exec_secureStart_boot hup hlow hstage, ?_⟩
    dsimp only
    split
    · next hbad => exact State.startBoot_rejects hcand hbad
    · next hgood => exact State.startBoot_starts hcand hlen hgood

end Sys2Proof.Machine
end

section
/-! SUPPORT. The governor's items (Power cap R506, R509): what a step of one item changes, and what each item's step finds when they are taken in turn. -/

namespace Sys2Proof.Machine
open Reg

/-! ### A list of steps, seen from one of them -/

/-- Of the steps for the elements of a list without repeats, the one for `x` is taken on a state that the others have made, and they go on from it. -/
theorem State.each_split {α : Type} {R : State → State → Prop} (hrefl : ∀ s, R s s) (htrans : ∀ {a b c}, R a b → R b c → R a c) {f : State → α → State} {l : List α} {x : α}
    (hnodup : l.Nodup) (hx : x ∈ l) (hf : ∀ u, ∀ y ∈ l, y ≠ x → R u (f u y)) (s : State) : ∃ u, R s u ∧ R (f u x) (s.each l f) := by
  have hrest : ∀ (l : List α), (∀ u, ∀ y ∈ l, R u (f u y)) → ∀ v : State, R v (v.each l f) := fun l hl v =>
    List.foldlRecOn (motive := fun w => R v w) l f (hrefl v) fun w hw y hy => htrans hw (hl w y hy)
  induction l generalizing s with
  | nil => exact absurd hx List.not_mem_nil
  | cons y l ih =>
    obtain ⟨hnot, htail⟩ := List.nodup_cons.1 hnodup
    rw [State.each_cons]
    by_cases hyx : y = x
    · subst hyx
      exact ⟨s, hrefl s, hrest l (fun u z hz => hf u z (List.mem_cons_of_mem _ hz) fun h => hnot (h ▸ hz)) _⟩
    · have hin : x ∈ l := (List.mem_cons.1 hx).resolve_left (Ne.symm hyx)
      obtain ⟨u, hu, hend⟩ := ih htail hin (fun u z hz => hf u z (List.mem_cons_of_mem _ hz)) (f s y)
      exact ⟨u, htrans (hf s y List.mem_cons_self hyx) hu, hend⟩

/-! ### Items and their fields -/

/-- The register that holds an item's operating point, level or duty. -/
def itemReg (i : Nat) : Nat := if i < 16 then POWER_GOV_STATE i else if i = 16 then POWER_HOST_GOV else POWER_MEDIA_GOV

theorem itemReg_district {d : Nat} (hd : d < 16) : itemReg d = POWER_GOV_STATE d := if_pos hd

theorem itemReg_ne {i j : Nat} (hi : i < 18) (hj : j < 18) (h : i ≠ j) : itemReg i ≠ itemReg j := by
  unfold itemReg POWER_GOV_STATE POWER_HOST_GOV POWER_MEDIA_GOV
  split_ifs <;> omega

theorem itemReg_range (i : Nat) : 0xA01080 ≤ itemReg i ∧ itemReg i ≤ 0xA010C4 := by
  unfold itemReg POWER_GOV_STATE POWER_HOST_GOV POWER_MEDIA_GOV
  split_ifs <;> omega

/-- The register of an item other than `i`. -/
def OtherItem (i o : Nat) : Prop := ∃ j, j < 18 ∧ j ≠ i ∧ o = itemReg j

theorem not_otherItem {i o : Nat} (h : o < 0xA01080 ∨ 0xA010C4 < o) : ¬OtherItem i o := by
  rintro ⟨j, -, -, rfl⟩
  have := itemReg_range j
  omega

theorem not_otherItem_self {i : Nat} (hi : i < 18) : ¬OtherItem i (itemReg i) := by
  rintro ⟨j, hj, hne, heq⟩
  exact itemReg_ne hi hj (Ne.symm hne) heq

/-- A step of an item writes one field of its register: for a district its operating point or its duty. -/
structure ItemFld (i : Nat) (f : Fld) : Prop where
  reg : f.reg = itemReg i
  bits : f.lo ≤ f.hi
  word : f.hi < 64
  district : i < 16 → 24 ≤ f.lo

theorem itemFld_op {d : Nat} (hd : d < 16) : ItemFld d (POWER_GOV_STATE_OP d) := ⟨(itemReg_district hd).symm, Nat.le_succ 24, (by decide : 25 < 64), fun _ => Nat.le_refl 24⟩
theorem itemFld_duty {d : Nat} (hd : d < 16) : ItemFld d (POWER_GOV_STATE_DUTY d) :=
  ⟨(itemReg_district hd).symm, (by decide : 28 ≤ 31), (by decide : 31 < 64), fun _ => (by decide : 24 ≤ 28)⟩
theorem itemFld_host : ItemFld 16 POWER_HOST_GOV_LEVEL := ⟨rfl, by decide, by decide, fun h => absurd h (by decide)⟩
theorem itemFld_media : ItemFld 17 POWER_MEDIA_GOV_DUTY := ⟨rfl, by decide, by decide, fun h => absurd h (by decide)⟩

/-- A step of an item. -/
def ItemStep (i : Nat) (s t : State) : Prop := ∃ f n, ItemFld i f ∧ t = s.put f n

theorem ItemStep.displayed {i j : Nat} {s t : State} (h : ItemStep i s t) (hi : i < 18) (hne : i ≠ j) : Displayed (OtherItem j) s t := by
  obtain ⟨f, n, hf, rfl⟩ := h
  exact (Displayed.refl s).put ⟨i, hi, hne, hf.reg⟩

/-- A field of a district below its operating point is kept by every step of an item. -/
theorem ItemStep.get_low {i d : Nat} {s t : State} (h : ItemStep i s t) (hi : i < 18) (hd : d < 16) {g : Fld} (hreg : g.reg = POWER_GOV_STATE d) (hlow : g.hi < 24) :
    t.get g = s.get g := by
  obtain ⟨f, n, hf, rfl⟩ := h
  by_cases hid : i = d
  · subst hid
    have := hf.district hd
    exact State.get_put_apart s f g n hf.bits hf.word (.inr (by omega))
  · refine State.get_put_other s f g n ?_
    rw [hreg, hf.reg, ← itemReg_district hd]
    exact itemReg_ne (by omega) hi (Ne.symm hid)

theorem State.lowerItem_step (s : State) {i : Nat} (hi : i < 18) : ItemStep i s (s.lowerItem i) := by
  unfold State.lowerItem
  split
  · next hd =>
    split
    · exact ⟨_, _, itemFld_op hd, rfl⟩
    · exact ⟨_, _, itemFld_duty hd, rfl⟩
  · split
    · next h =>
      subst h
      exact ⟨_, _, itemFld_host, rfl⟩
    · next h =>
      obtain rfl : i = 17 := by omega
      exact ⟨_, _, itemFld_media, rfl⟩

theorem State.raiseItem_step (s : State) {i : Nat} (hi : i < 18) : ItemStep i s (s.raiseItem i) := by
  unfold State.raiseItem
  split
  · next hd =>
    split
    · exact ⟨_, _, itemFld_duty hd, rfl⟩
    · exact ⟨_, _, itemFld_op hd, rfl⟩
  · split
    · next h =>
      subst h
      exact ⟨_, _, itemFld_host, rfl⟩
    · next h =>
      obtain rfl : i = 17 := by omega
      exact ⟨_, _, itemFld_media, rfl⟩

/-- A step of an item leaves its duty when it changes its operating point, and the other way round. -/
theorem State.duty_putOp (s : State) (d n : Nat) : (s.put (POWER_GOV_STATE_OP d) n).get (POWER_GOV_STATE_DUTY d) = s.get (POWER_GOV_STATE_DUTY d) :=
  State.get_put_apart s (POWER_GOV_STATE_OP d) (POWER_GOV_STATE_DUTY d) n (by decide : 24 ≤ 25) (by decide : 25 < 64) (.inl (by decide : 25 < 28))

theorem State.op_putDuty (s : State) (d n : Nat) : (s.put (POWER_GOV_STATE_DUTY d) n).get (POWER_GOV_STATE_OP d) = s.get (POWER_GOV_STATE_OP d) :=
  State.get_put_apart s (POWER_GOV_STATE_DUTY d) (POWER_GOV_STATE_OP d) n (by decide : 28 ≤ 31) (by decide : 31 < 64) (.inr (by decide : 25 < 28))

theorem State.op_putOp (s : State) (d n : Nat) : (s.put (POWER_GOV_STATE_OP d) n).get (POWER_GOV_STATE_OP d) = n % 4 :=
  State.get_put_same s (POWER_GOV_STATE_OP d) n (by decide : 24 ≤ 25) (by decide : 25 < 64)

theorem State.duty_putDuty (s : State) (d n : Nat) : (s.put (POWER_GOV_STATE_DUTY d) n).get (POWER_GOV_STATE_DUTY d) = n % 16 :=
  State.get_put_same s (POWER_GOV_STATE_DUTY d) n (by decide : 28 ≤ 31) (by decide : 31 < 64)

theorem State.op_lt (s : State) (d : Nat) : s.get (POWER_GOV_STATE_OP d) < 4 := Word.bits_lt _ 25 24
theorem State.duty_lt (s : State) (d : Nat) : s.get (POWER_GOV_STATE_DUTY d) < 16 := Word.bits_lt _ 31 28

/-! ### Items that are stepped in turn -/

section steps
variable {f : State → Nat → State} (hf : ∀ u i, i < 18 → ItemStep i u (f u i)) {l : List Nat} (hl : ∀ i ∈ l, i < 18)
include hf hl

/-- What an item's step finds and leaves. -/
theorem State.each_items_at (hnodup : l.Nodup) {i : Nat} (hi : i ∈ l) (s : State) : ∃ u, Displayed (OtherItem i) s u ∧ Displayed (OtherItem i) (f u i) (s.each l f) :=
  State.each_split .refl .trans hnodup hi (fun u y hy hne => (hf u y (hl y hy)).displayed (hl y hy) hne) s

/-- The registers of an item that is not stepped are as they were. -/
theorem State.each_items_apart {i : Nat} (hi : i ∉ l) (s : State) : Displayed (OtherItem i) s (s.each l f) :=
  Displayed.each (fun u y hy => (hf u y (hl y hy)).displayed (hl y hy) fun (h : y = i) => hi (h ▸ hy)) s

/-- The other registers are as they were. -/
theorem State.each_items (s : State) : Displayed (fun o => 0xA01080 ≤ o ∧ o ≤ 0xA010C4) s (s.each l f) := by
  refine Displayed.each (fun u y hy => ?_) s
  obtain ⟨g, n, hg, heq⟩ := hf u y (hl y hy)
  rw [heq]
  exact (Displayed.refl u).put (hg.reg ▸ itemReg_range y)

theorem State.each_items_low {d : Nat} (hd : d < 16) {g : Fld} (hreg : g.reg = POWER_GOV_STATE d) (hlow : g.hi < 24) (s : State) : (s.each l f).get g = s.get g :=
  State.each_keeps (fun v : State => v.get g) (fun u y hy => (hf u y (hl y hy)).get_low (hl y hy) hd hreg hlow) s

end steps

end Sys2Proof.Machine
end

section
/-! SUPPORT. The ceilings as they are applied (Power cap R506, R518): what they change, and what they leave of a district. -/

namespace Sys2Proof.Machine
open Reg

/-! ### Governed districts -/

theorem State.mem_governed {s : State} {d : Nat} (hd : d < 16) : d ∈ s.governedDistricts ↔ s.governed d = true := by
  simp [State.governedDistricts, hd]

theorem State.governed_nodup (s : State) : s.governedDistricts.Nodup := List.nodup_range.filter _

/-- The express district is not governed. -/
theorem State.not_governed_express (s : State) : s.governed s.expressDistrict = false := by simp [State.governed]

theorem State.expressDistrict_lt (s : State) : s.expressDistrict < 16 := Word.bits_lt _ 3 0

/-! ### Ceilings of a district -/

/-- A register that the ceilings are shown or applied in. -/
def CeilReg (o : Nat) : Prop := (0xA01080 ≤ o ∧ o ≤ 0xA010C4) ∨ o = POWER_THERMAL_STATUS

/-- What a district's ceiling reads is the same. -/
theorem State.ceilOf_congr {s t : State} {d : Nat} (hgov : t.gov = s.gov) (hlimits : ∀ f : Fld, f.reg = POWER_GOV_LIMITS d → t.get f = s.get f)
    (hsensors : t.sensorsFailed d = s.sensorsFailed d) (hdroop : t.on (POWER_GOV_STATE_DROOP_LIMITED d) = s.on (POWER_GOV_STATE_DROOP_LIMITED d)) :
    t.ceilOf d = s.ceilOf d := by
  have hmax : t.opMax d = s.opMax d := by
    rw [State.opMax, State.glim, hgov, hlimits (POWER_GOV_LIMITS_OP_MAX d) rfl, State.opMax, State.glim]
  unfold State.ceilOf
  rw [hmax, hsensors, hdroop, State.throt, hgov, State.throt]

/-- The states agree outside registers of items and STATUS of the thermal block. -/
theorem Displayed.ceilOf {W : Nat → Prop} {s t : State} {d : Nat} (h : Displayed W s t) (hd : d < 16) (hW : ∀ o, W o → CeilReg o)
    (hdroop : t.on (POWER_GOV_STATE_DROOP_LIMITED d) = s.on (POWER_GOV_STATE_DROOP_LIMITED d)) : t.ceilOf d = s.ceilOf d := by
  have hout : ∀ o, o < 0xA01080 ∨ 0xB00000 ≤ o → ¬W o := fun o ho k => by
    have := hW o k
    unfold CeilReg POWER_THERMAL_STATUS at this
    omega
  refine State.ceilOf_congr h.gov (fun f hf => h.get f (hout _ (.inl ?_))) ?_ hdroop
  · rw [hf]
    unfold POWER_GOV_LIMITS
    omega
  · have hfailed : ∀ m, t.on (MONITOR_TEMP_FAILED m) = s.on (MONITOR_TEMP_FAILED m) := fun m => h.on _ (hout _ (.inr (Nat.le_add_right_of_le (by decide))))
    rw [State.sensorsFailed, hfailed, hfailed, State.sensorsFailed]

/-! ### One district -/

/-- The fields that a district's ceilings are shown in. -/
theorem State.ceilShown_get (s : State) {d : Nat} {g : Fld} (hlow : g.hi < 17 ∨ 21 < g.lo ∨ (g.lo = 18 ∧ g.hi = 18)) : (s.ceilShown d).get g = s.get g := by
  have hthrottled := State.get_put_apart ((s.put (POWER_GOV_STATE_CEILING d) (s.ceilOf d)).putB (POWER_GOV_STATE_SENSOR_LIMITED d) (s.sensorsFailed d))
    (POWER_GOV_STATE_THROTTLED d) g (if (s.throt d).limits then 1 else 0) (Nat.le_refl 19) (by decide : 19 < 64) (by show 19 < g.lo ∨ g.hi < 19; omega)
  have hsensor := State.get_put_apart (s.put (POWER_GOV_STATE_CEILING d) (s.ceilOf d)) (POWER_GOV_STATE_SENSOR_LIMITED d) g (if s.sensorsFailed d then 1 else 0)
    (Nat.le_refl 17) (by decide : 17 < 64) (by show 17 < g.lo ∨ g.hi < 17; omega)
  have hceiling := State.get_put_apart s (POWER_GOV_STATE_CEILING d) g (s.ceilOf d) (by decide : 20 ≤ 21) (by decide : 21 < 64) (by show 21 < g.lo ∨ g.hi < 20; omega)
  exact hthrottled.trans (hsensor.trans hceiling)

/-- A field of the register that neither the ceiling nor the lowering to it writes. -/
theorem State.ceilDistrict_get (s : State) {d : Nat} {g : Fld} (hlow : g.hi < 17 ∨ (g.lo = 18 ∧ g.hi = 18)) : (s.ceilDistrict d).get g = s.get g := by
  have hduty := fun u : State => fun n => State.get_put_apart u (POWER_GOV_STATE_DUTY d) g n (by decide : 28 ≤ 31) (by decide : 31 < 64) (by show 31 < g.lo ∨ g.hi < 28; omega)
  have hop := fun u : State => fun n => State.get_put_apart u (POWER_GOV_STATE_OP d) g n (by decide : 24 ≤ 25) (by decide : 25 < 64) (by show 25 < g.lo ∨ g.hi < 24; omega)
  rw [State.ceilDistrict, hduty, hop, s.ceilShown_get (by omega)]

/-- A district is lowered to its ceiling. -/
theorem State.ceilDistrict_op (s : State) (d : Nat) : (s.ceilDistrict d).get (POWER_GOV_STATE_OP d) = min (s.ceilOf d) (s.get (POWER_GOV_STATE_OP d)) := by
  have hlt := s.op_lt d
  rw [State.ceilDistrict, State.op_putDuty, State.op_putOp, s.ceilShown_get (g := POWER_GOV_STATE_OP d) (.inr (.inl (by decide : 21 < 24))), Nat.mod_eq_of_lt (by omega)]

theorem State.ceilDistrict_displayed (s : State) (d : Nat) : Displayed (· = POWER_GOV_STATE d) s (s.ceilDistrict d) := by
  have hceiling : (POWER_GOV_STATE_CEILING d).reg = POWER_GOV_STATE d := rfl
  have hsensor : (POWER_GOV_STATE_SENSOR_LIMITED d).reg = POWER_GOV_STATE d := rfl
  have hthrottled : (POWER_GOV_STATE_THROTTLED d).reg = POWER_GOV_STATE d := rfl
  have hop : (POWER_GOV_STATE_OP d).reg = POWER_GOV_STATE d := rfl
  have hduty : (POWER_GOV_STATE_DUTY d).reg = POWER_GOV_STATE d := rfl
  have hshown : Displayed (· = POWER_GOV_STATE d) s (s.ceilShown d) := (((Displayed.refl s).put hceiling).putB hsensor).putB hthrottled
  exact (hshown.put hop).put hduty

/-! ### The ceilings -/

/-- What the application of the ceilings does. -/
structure Ceiled (s t : State) : Prop extends Displayed CeilReg s t where
  kept : ∀ d, d < 16 → ∀ g : Fld, g.reg = POWER_GOV_STATE d → (g.hi < 17 ∨ (g.lo = 18 ∧ g.hi = 18)) → t.get g = s.get g
  apart : ∀ d, d < 16 → s.governed d = false → t.rd (POWER_GOV_STATE d) = s.rd (POWER_GOV_STATE d)
  op : ∀ d, d < 16 → s.governed d = true → t.get (POWER_GOV_STATE_OP d) = min (s.ceilOf d) (s.get (POWER_GOV_STATE_OP d))

/-- After the districts, the host cores, the media and THROTTLING. -/
theorem State.ceilRest_displayed (s : State) :
    Displayed (fun o => o = POWER_HOST_GOV ∨ o = POWER_MEDIA_GOV ∨ o = POWER_THERMAL_STATUS) s s.ceilHost.ceilMedia.throttlingShown :=
  (((Displayed.refl s).put (f := POWER_HOST_GOV_LEVEL) (.inl rfl)).put (f := POWER_MEDIA_GOV_DUTY) (.inr (.inl rfl))).putB (f := POWER_THERMAL_STATUS_THROTTLING)
    (.inr (.inr rfl))

theorem govState_ne_rest {d : Nat} (hd : d < 16) : ¬(POWER_GOV_STATE d = POWER_HOST_GOV ∨ POWER_GOV_STATE d = POWER_MEDIA_GOV ∨ POWER_GOV_STATE d = POWER_THERMAL_STATUS) := by
  unfold POWER_GOV_STATE POWER_HOST_GOV POWER_MEDIA_GOV POWER_THERMAL_STATUS
  omega

theorem govState_injective {d e : Nat} (h : POWER_GOV_STATE d = POWER_GOV_STATE e) : d = e := by
  unfold POWER_GOV_STATE at h
  omega

/-- The register of a district other than `d`. -/
def OtherDistrict (d o : Nat) : Prop := ∃ e, e < 16 ∧ e ≠ d ∧ o = POWER_GOV_STATE e

theorem not_otherDistrict (d : Nat) : ¬OtherDistrict d (POWER_GOV_STATE d) := by
  rintro ⟨e, -, hne, heq⟩
  exact hne (govState_injective heq).symm

theorem OtherDistrict.ceilReg {d o : Nat} (h : OtherDistrict d o) : CeilReg o := by
  obtain ⟨e, he, -, rfl⟩ := h
  unfold CeilReg POWER_GOV_STATE
  omega

theorem State.ceilDistrict_other (s : State) {d e : Nat} (he : e < 16) (h : e ≠ d) : Displayed (OtherDistrict d) s (s.ceilDistrict e) :=
  (s.ceilDistrict_displayed e).mono fun _ ho => ⟨e, he, h, ho⟩

theorem State.applyCeilings_spec (s : State) : Ceiled s s.applyCeilings := by
  rw [State.applyCeilings_eq]
  have hlt : ∀ e ∈ s.governedDistricts, e < 16 := fun e he => State.mem_governedDistricts he
  have hdistricts : Displayed CeilReg s (s.each s.governedDistricts State.ceilDistrict) := Displayed.each (fun u e he =>
    (u.ceilDistrict_displayed e).mono fun o ho => .inl (by
      have := hlt e he
      rw [ho]
      unfold POWER_GOV_STATE
      omega)) s
  have hrest := (s.each s.governedDistricts State.ceilDistrict).ceilRest_displayed
  have hall : Displayed CeilReg s (s.each s.governedDistricts State.ceilDistrict).ceilHost.ceilMedia.throttlingShown := hdistricts.trans (hrest.mono fun o ho => by
    rcases ho with rfl | rfl | rfl
    · exact .inl (by decide)
    · exact .inl (by decide)
    · exact .inr rfl)
  refine ⟨hall, fun d hd g hreg hlow => ?_, fun d hd hfree => ?_, fun d hd hgoverned => ?_⟩
  · rw [hrest.get g (hreg ▸ govState_ne_rest hd)]
    exact State.each_keeps (fun v : State => v.get g) (fun u e _ => u.ceilDistrict_get hlow) s
  · rw [hrest.rd _ (govState_ne_rest hd)]
    refine State.each_keeps (fun v : State => v.rd (POWER_GOV_STATE d)) (fun u e he => ?_) s
    refine (u.ceilDistrict_displayed e).rd _ fun k => ?_
    obtain rfl : d = e := govState_injective k
    rw [(State.mem_governed hd).1 he] at hfree
    cases hfree
  · rw [hrest.get _ (govState_ne_rest hd)]
    obtain ⟨u, hu, hend⟩ := State.each_split (R := Displayed (OtherDistrict d)) .refl .trans s.governed_nodup ((State.mem_governed hd).2 hgoverned)
      (fun v e he hne => v.ceilDistrict_other (hlt e he) hne) s
    rw [hend.get (POWER_GOV_STATE_OP d) (not_otherDistrict d), State.ceilDistrict_op, hu.get (POWER_GOV_STATE_OP d) (not_otherDistrict d),
      hu.ceilOf hd (fun _ => OtherDistrict.ceilReg) (hu.on _ (not_otherDistrict d))]

namespace Ceiled
variable {s t : State} (h : Ceiled s t)
include h

theorem droopLimited {d : Nat} (hd : d < 16) : t.on (POWER_GOV_STATE_DROOP_LIMITED d) = s.on (POWER_GOV_STATE_DROOP_LIMITED d) :=
  congrArg (· != 0) (h.kept d hd _ rfl (.inr ⟨rfl, rfl⟩))

theorem demand {d : Nat} (hd : d < 16) : t.on (POWER_GOV_STATE_DEMAND d) = s.on (POWER_GOV_STATE_DEMAND d) :=
  congrArg (· != 0) (h.kept d hd _ rfl (.inl (by decide : 16 < 17)))

theorem ceilOf {d : Nat} (hd : d < 16) : t.ceilOf d = s.ceilOf d := h.toDisplayed.ceilOf hd (fun _ => id) (h.droopLimited hd)

theorem express : t.expressDistrict = s.expressDistrict := h.get FLOOR_EXPRESS_SEL_DISTRICT (by
  show ¬CeilReg 0x10D000
  unfold CeilReg POWER_THERMAL_STATUS
  omega)

theorem throt (i : Nat) : t.throt i = s.throt i := by rw [State.throt, h.gov, State.throt]

/-- The operating point and duty of the express district are as they were. -/
theorem express_stays : t.rd (POWER_GOV_STATE s.expressDistrict) = s.rd (POWER_GOV_STATE s.expressDistrict) :=
  h.apart _ s.expressDistrict_lt s.not_governed_express

end Ceiled

end Sys2Proof.Machine
end

section
/-! SUPPORT. A decision of the governor (Power cap R505 to R510): its start, the items that it lowers or raises, and what it shows. -/

namespace Sys2Proof.Machine
open Reg

/-! ### The start of a decision -/

/-- The state in which the period's sums begin again. -/
def State.govBegun (s : State) : State := s.setGov fun g => { g with
  sum := 0, sumX := 0, settled := 0, busy := [], waited := [], media := false, former := [], lims := if g.settled < 10 then g.lims else [] }

/-- DEMAND shows the period just ended. -/
def State.demandShown (s : State) (demand : List Nat) : State := s.each s.governedDistricts fun s d => s.putB (POWER_GOV_STATE_DEMAND d) (demand.contains d)

theorem State.govReady_eq (s : State) (demand : List Nat) : s.govReady demand = (s.govBegun.demandShown demand).applyCeilings := rfl

theorem State.govBegun_governed (s : State) (d : Nat) : s.govBegun.governed d = (d != s.expressDistrict) := by
  have hexpress : s.govBegun.expressDistrict = s.expressDistrict := rfl
  have hformer : s.govBegun.gov.former = [] := rfl
  rw [State.governed, hexpress, hformer]
  simp

theorem State.demandShown_displayed (s : State) (demand : List Nat) : Displayed (fun o => ∃ d, s.governed d = true ∧ d < 16 ∧ o = POWER_GOV_STATE d) s (s.demandShown demand) :=
  Displayed.each (fun u d hd => (Displayed.refl u).putB (f := POWER_GOV_STATE_DEMAND d)
    ⟨d, (State.mem_governed (State.mem_governedDistricts hd)).1 hd, State.mem_governedDistricts hd, rfl⟩) s

theorem State.demandShown_other (s : State) (demand : List Nat) {f : Fld} (hf : f.hi < 16 ∨ 16 < f.lo) : (s.demandShown demand).get f = s.get f :=
  State.each_keeps (fun v : State => v.get f) (fun u d _ => State.get_put_apart u (POWER_GOV_STATE_DEMAND d) f _ (Nat.le_refl 16) (by decide : 16 < 64)
    (by show 16 < f.lo ∨ f.hi < 16; omega)) s

theorem State.demandShown_demand (s : State) (demand : List Nat) {d : Nat} (hd : d < 16) (hgoverned : s.governed d = true) :
    (s.demandShown demand).on (POWER_GOV_STATE_DEMAND d) = demand.contains d := by
  have hshow : ∀ (u : State) (e : Nat), e < 16 → e ≠ d → Displayed (OtherDistrict d) u (u.putB (POWER_GOV_STATE_DEMAND e) (demand.contains e)) := fun u e he hne =>
    (Displayed.refl u).putB (f := POWER_GOV_STATE_DEMAND e) ⟨e, he, hne, rfl⟩
  obtain ⟨u, -, hend⟩ := State.each_split (R := Displayed (OtherDistrict d)) .refl .trans s.governed_nodup ((State.mem_governed hd).2 hgoverned)
    (f := fun s d => s.putB (POWER_GOV_STATE_DEMAND d) (demand.contains d)) (fun v e he hne => hshow v e (State.mem_governedDistricts he) hne) s
  rw [State.demandShown, hend.on (POWER_GOV_STATE_DEMAND d) (not_otherDistrict d)]
  exact State.on_putB_same u (POWER_GOV_STATE_DEMAND d) _ rfl (by decide : 16 < 64)

/-- What the start of a decision leaves and shows. -/
structure Readied (s : State) (demand : List Nat) (u : State) : Prop where
  gov : u.gov = s.govBegun.gov
  mem : u.mem = s.mem
  regs : RegsBut CeilReg s u
  express : u.rd (POWER_GOV_STATE s.expressDistrict) = s.rd (POWER_GOV_STATE s.expressDistrict)
  demand : ∀ d, d < 16 → d ≠ s.expressDistrict → u.on (POWER_GOV_STATE_DEMAND d) = demand.contains d

theorem State.govReady_spec (s : State) (demand : List Nat) : Readied s demand (s.govReady demand) := by
  rw [s.govReady_eq]
  have hshown := s.govBegun.demandShown_displayed demand
  have hceiled := (s.govBegun.demandShown demand).applyCeilings_spec
  have hexpress : (s.govBegun.demandShown demand).expressDistrict = s.expressDistrict := (s.govBegun.demandShown_other demand (f := FLOOR_EXPRESS_SEL_DISTRICT) (.inl (by decide)))
  have hfree : s.govBegun.governed s.expressDistrict = false := by rw [State.govBegun_governed]; simp
  have hin : ∀ o, (∃ d, s.govBegun.governed d = true ∧ d < 16 ∧ o = POWER_GOV_STATE d) → CeilReg o := by
    rintro o ⟨d, -, hd, rfl⟩
    unfold CeilReg POWER_GOV_STATE
    omega
  refine ⟨hceiled.gov.trans hshown.gov, hceiled.mem.trans hshown.mem,
    (RegsBut.of_regs (s := s) (t := s.govBegun) rfl rfl).trans ((hshown.mono hin).toRegsBut.trans hceiled.toRegsBut), ?_, fun d hd hne => ?_⟩
  · have hstays := hceiled.express_stays
    rw [hexpress] at hstays
    refine hstays.trans (hshown.rd _ ?_)
    rintro ⟨d, hgoverned, -, heq⟩
    rw [← govState_injective heq, hfree] at hgoverned
    cases hgoverned
  · rw [hceiled.demand hd]
    exact s.govBegun.demandShown_demand demand hd (by rw [State.govBegun_governed]; simpa using hne)

/-! ### Items -/

theorem State.items_nodup (s : State) : s.items.Nodup := by
  refine List.Nodup.append s.governed_nodup (by decide) fun x hx hy => ?_
  have hlt := State.mem_governedDistricts hx
  simp at hy
  omega

theorem State.items_lt {s : State} {i : Nat} (h : i ∈ s.items) : i < 18 := by
  rcases List.mem_append.1 h with h | h
  · have := State.mem_governedDistricts h
    omega
  · simp at h
    omega

theorem State.express_not_item (s : State) : s.expressDistrict ∉ s.items := by
  intro h
  have hlt := s.expressDistrict_lt
  rcases List.mem_append.1 h with h | h
  · rw [State.mem_governed hlt, s.not_governed_express] at h
    cases h
  · simp at h
    omega

theorem State.lowerable_lt {s : State} {c i : Nat} (h : i ∈ s.lowerable c) : i < 18 := State.items_lt (List.mem_of_mem_filter h)
theorem State.raisable_lt {s : State} {demand : List Nat} {c i : Nat} (h : i ∈ s.raisable demand c) : i < 18 := State.items_lt (List.mem_of_mem_filter h)
theorem State.lowerable_nodup (s : State) (c : Nat) : (s.lowerable c).Nodup := s.items_nodup.filter _
theorem State.raisable_nodup (s : State) (demand : List Nat) (c : Nat) : (s.raisable demand c).Nodup := s.items_nodup.filter _
theorem State.express_not_lowerable (s : State) (c : Nat) : s.expressDistrict ∉ s.lowerable c := fun h => s.express_not_item (List.mem_of_mem_filter h)
theorem State.express_not_raisable (s : State) (demand : List Nat) (c : Nat) : s.expressDistrict ∉ s.raisable demand c := fun h => s.express_not_item (List.mem_of_mem_filter h)

theorem State.aboveFloor_of_lowerable {s : State} {c i : Nat} (h : i ∈ s.lowerable c) : s.aboveFloor i = true := by
  have hcond := List.of_mem_filter h
  simp only [Bool.and_eq_true] at hcond
  exact hcond.2

theorem State.belowCeil_of_raisable {s : State} {demand : List Nat} {c i : Nat} (h : i ∈ s.raisable demand c) : s.belowCeil i = true := by
  have hcond := List.of_mem_filter h
  simp only [Bool.and_eq_true] at hcond
  exact hcond.2

/-! ### What the lists of items read -/

/-- What a decision reads of an item is the same where only CAP_STATUS is another. -/
structure SameItems (s t : State) : Prop where
  gov : t.gov = s.gov
  rd : ∀ o, o ≠ POWER_CAP_STATUS → t.rd o = s.rd o

theorem Displayed.sameItems {s t : State} (h : Displayed (· = POWER_CAP_STATUS) s t) : SameItems s t := ⟨h.gov, fun o ho => h.rd o ho⟩

namespace SameItems
variable {s t : State} (h : SameItems s t)
include h

theorem get (f : Fld) (hf : f.reg ≠ POWER_CAP_STATUS) : t.get f = s.get f := by rw [State.get, h.rd _ hf, State.get]
theorem on (f : Fld) (hf : f.reg ≠ POWER_CAP_STATUS) : t.on f = s.on f := by rw [State.on, h.get f hf, State.on]
theorem glim (f : Fld) (hf : f.reg ≠ POWER_CAP_STATUS) : t.glim f = s.glim f := by rw [State.glim, h.gov, h.get f hf, State.glim]
theorem throt (i : Nat) : t.throt i = s.throt i := by rw [State.throt, h.gov, State.throt]

theorem limits (d : Nat) {f : Fld} (hf : f.reg = POWER_GOV_LIMITS d) : t.glim f = s.glim f := h.glim f (by rw [hf]; unfold POWER_GOV_LIMITS POWER_CAP_STATUS; omega)
theorem state (d : Nat) {f : Fld} (hf : f.reg = POWER_GOV_STATE d) : t.get f = s.get f := h.get f (by rw [hf]; unfold POWER_GOV_STATE POWER_CAP_STATUS; omega)

theorem opMin (d : Nat) : t.opMin d = s.opMin d := by
  rw [State.opMin, State.opMax, h.limits d (f := POWER_GOV_LIMITS_OP_MIN d) rfl, h.limits d (f := POWER_GOV_LIMITS_OP_MAX d) rfl, State.opMin, State.opMax]

theorem ceilOf (d : Nat) : t.ceilOf d = s.ceilOf d := by
  have hfailed : ∀ m, t.on (MONITOR_TEMP_FAILED m) = s.on (MONITOR_TEMP_FAILED m) := fun m => h.on _ (by
    show 0xb00100 + 0x4 * m ≠ 0xa01010
    omega)
  exact State.ceilOf_congr h.gov (fun f hf => h.get f (by rw [hf]; unfold POWER_GOV_LIMITS POWER_CAP_STATUS; omega))
    (by rw [State.sensorsFailed, hfailed, hfailed, State.sensorsFailed]) (congrArg (· != 0) (h.state d rfl))

theorem items : t.items = s.items := by
  have hexpress : t.expressDistrict = s.expressDistrict := h.get FLOOR_EXPRESS_SEL_DISTRICT (by decide)
  have hgoverned : t.governed = s.governed := funext fun d => by rw [State.governed, hexpress, h.gov, State.governed]
  rw [State.items, State.governedDistricts, hgoverned, State.items, State.governedDistricts]

theorem prioOf (i : Nat) : t.prioOf i = s.prioOf i := by
  rw [State.prioOf, h.limits i (f := POWER_GOV_LIMITS_PRIO i) rfl, h.glim POWER_HOST_GOV_PRIO (by decide), h.glim POWER_MEDIA_GOV_PRIO (by decide), State.prioOf]

theorem aboveFloor (i : Nat) : t.aboveFloor i = s.aboveFloor i := by
  rw [State.aboveFloor, h.opMin, h.state i (f := POWER_GOV_STATE_OP i) rfl, h.limits i (f := POWER_GOV_LIMITS_DUTY_MIN i) rfl, h.state i (f := POWER_GOV_STATE_DUTY i) rfl,
    h.glim POWER_HOST_GOV_LEVEL_MIN (by decide), h.get POWER_HOST_GOV_LEVEL (by decide), h.glim POWER_MEDIA_GOV_DUTY_MIN (by decide),
    h.get POWER_MEDIA_GOV_DUTY (by decide), State.aboveFloor]

theorem belowCeil (i : Nat) : t.belowCeil i = s.belowCeil i := by
  rw [State.belowCeil, h.ceilOf, h.throt, h.throt, h.throt, h.state i (f := POWER_GOV_STATE_OP i) rfl, h.state i (f := POWER_GOV_STATE_DUTY i) rfl,
    h.get POWER_HOST_GOV_LEVEL (by decide), h.get POWER_MEDIA_GOV_DUTY (by decide), State.belowCeil]

theorem lowerable (c : Nat) : t.lowerable c = s.lowerable c := by
  simp only [State.lowerable, h.items, h.prioOf, h.aboveFloor]

theorem raisable (demand : List Nat) (c : Nat) : t.raisable demand c = s.raisable demand c := by
  simp only [State.raisable, h.items, h.prioOf, h.belowCeil]

end SameItems

end Sys2Proof.Machine
end

section
/-! SUPPORT. The steps of a decision (Power cap R506, R509): the items of a priority go one step down or up, and the rest is as it was. -/

namespace Sys2Proof.Machine
open Reg

/-! ### The first priority that has items -/

theorem find?_lowest {l : Nat → List Nat} {c : Nat} (hc : c < 4) (hfull : l c ≠ []) (hempty : ∀ k, k < c → l k = []) :
    ([0, 1, 2, 3].find? fun c => !(l c).isEmpty) = some c := by
  have hcases : c = 0 ∨ c = 1 ∨ c = 2 ∨ c = 3 := by omega
  rcases hcases with rfl | rfl | rfl | rfl
  · simp [hfull]
  · simp [hfull, hempty 0]
  · simp [hfull, hempty 0, hempty 1]
  · simp [hfull, hempty 0, hempty 1, hempty 2]

theorem find?_highest {l : Nat → List Nat} {c : Nat} (hc : c < 4) (hfull : l c ≠ []) (hempty : ∀ k, c < k → k < 4 → l k = []) :
    ([3, 2, 1, 0].find? fun c => !(l c).isEmpty) = some c := by
  have hcases : c = 0 ∨ c = 1 ∨ c = 2 ∨ c = 3 := by omega
  rcases hcases with rfl | rfl | rfl | rfl
  · simp [hfull, hempty 1, hempty 2, hempty 3]
  · simp [hfull, hempty 2, hempty 3]
  · simp [hfull, hempty 3]
  · simp [hfull]

theorem find?_none_of_empty {l : Nat → List Nat} {ks : List Nat} (h : ∀ k ∈ ks, l k = []) : (ks.find? fun c => !(l c).isEmpty) = none :=
  List.find?_eq_none.2 fun k hk => by simp [h k hk]

/-! ### One item -/

/-- What an item's step reads is the same where other items alone have been stepped. -/
structure SameItem (i : Nat) (s t : State) : Prop where
  gov : t.gov = s.gov
  own : t.rd (itemReg i) = s.rd (itemReg i)
  limits : i < 16 → t.rd (POWER_GOV_LIMITS i) = s.rd (POWER_GOV_LIMITS i)

theorem Displayed.sameItem {i : Nat} {s t : State} (hi : i < 18) (h : Displayed (OtherItem i) s t) : SameItem i s t :=
  ⟨h.gov, h.rd _ (not_otherItem_self hi), fun hd => h.rd _ (not_otherItem (.inl (by unfold POWER_GOV_LIMITS; omega)))⟩

namespace SameItem
variable {i : Nat} {s t : State} (h : SameItem i s t)
include h

theorem get {f : Fld} (hf : f.reg = itemReg i) : t.get f = s.get f := by rw [State.get, hf, h.own, State.get, hf]
theorem throt (j : Nat) : t.throt j = s.throt j := by rw [State.throt, h.gov, State.throt]

theorem state (hd : i < 16) {f : Fld} (hf : f.reg = POWER_GOV_STATE i) : t.get f = s.get f := h.get (hf.trans (itemReg_district hd).symm)

theorem opMin (hd : i < 16) : t.opMin i = s.opMin i := by
  have hlim : ∀ f : Fld, f.reg = POWER_GOV_LIMITS i → t.glim f = s.glim f := fun f hf => by
    have hget : t.get f = s.get f := by rw [State.get, hf, h.limits hd, State.get, hf]
    rw [State.glim, h.gov, hget, State.glim]
  rw [State.opMin, State.opMax, hlim _ rfl, hlim (POWER_GOV_LIMITS_OP_MAX i) rfl, State.opMin, State.opMax]

end SameItem

/-- A district's step down. -/
theorem State.lowerItem_district {s : State} {d : Nat} (hd : d < 16) (habove : s.aboveFloor d = true) :
    (s.opMin d < s.get (POWER_GOV_STATE_OP d) → (s.lowerItem d).get (POWER_GOV_STATE_OP d) + 1 = s.get (POWER_GOV_STATE_OP d) ∧
      (s.lowerItem d).get (POWER_GOV_STATE_DUTY d) = s.get (POWER_GOV_STATE_DUTY d)) ∧
    (s.get (POWER_GOV_STATE_OP d) ≤ s.opMin d → (s.lowerItem d).get (POWER_GOV_STATE_OP d) = s.get (POWER_GOV_STATE_OP d) ∧
      (s.lowerItem d).get (POWER_GOV_STATE_DUTY d) + 1 = s.get (POWER_GOV_STATE_DUTY d)) := by
  have hop := s.op_lt d
  have hduty := s.duty_lt d
  rw [State.lowerItem, if_pos hd]
  refine ⟨fun hhigh => ?_, fun hlow => ?_⟩
  · rw [if_pos hhigh, State.op_putOp, State.duty_putOp]
    exact ⟨by omega, rfl⟩
  · have hfloor : dutyOf (s.glim (POWER_GOV_LIMITS_DUTY_MIN d)) < s.get (POWER_GOV_STATE_DUTY d) := by
      rw [State.aboveFloor, if_pos hd, Bool.or_eq_true, decide_eq_true_eq, decide_eq_true_eq] at habove
      exact habove.resolve_left (by omega)
    rw [if_neg (by omega), State.op_putDuty, State.duty_putDuty]
    exact ⟨rfl, by omega⟩

theorem State.lowerItem_host {s : State} (habove : s.aboveFloor 16 = true) : (s.lowerItem 16).get POWER_HOST_GOV_LEVEL + 1 = s.get POWER_HOST_GOV_LEVEL := by
  have hlt : s.get POWER_HOST_GOV_LEVEL < 4 := Word.bits_lt _ 1 0
  have hfloor : s.glim POWER_HOST_GOV_LEVEL_MIN < s.get POWER_HOST_GOV_LEVEL := by simpa [State.aboveFloor] using habove
  have hstep : s.lowerItem 16 = s.put POWER_HOST_GOV_LEVEL (s.get POWER_HOST_GOV_LEVEL - 1) := rfl
  have hput : (s.put POWER_HOST_GOV_LEVEL (s.get POWER_HOST_GOV_LEVEL - 1)).get POWER_HOST_GOV_LEVEL = (s.get POWER_HOST_GOV_LEVEL - 1) % 4 :=
    State.get_put_same s POWER_HOST_GOV_LEVEL _ (by decide) (by decide)
  rw [hstep, hput]
  omega

theorem State.lowerItem_media {s : State} (habove : s.aboveFloor 17 = true) : (s.lowerItem 17).get POWER_MEDIA_GOV_DUTY + 1 = s.get POWER_MEDIA_GOV_DUTY := by
  have hlt : s.get POWER_MEDIA_GOV_DUTY < 16 := Word.bits_lt _ 3 0
  have hfloor : dutyOf (s.glim POWER_MEDIA_GOV_DUTY_MIN) < s.get POWER_MEDIA_GOV_DUTY := by simpa [State.aboveFloor] using habove
  have hstep : s.lowerItem 17 = s.put POWER_MEDIA_GOV_DUTY (s.get POWER_MEDIA_GOV_DUTY - 1) := rfl
  have hput : (s.put POWER_MEDIA_GOV_DUTY (s.get POWER_MEDIA_GOV_DUTY - 1)).get POWER_MEDIA_GOV_DUTY = (s.get POWER_MEDIA_GOV_DUTY - 1) % 16 :=
    State.get_put_same s POWER_MEDIA_GOV_DUTY _ (by decide) (by decide)
  rw [hstep, hput]
  omega

/-- With every limit in force, no ceiling is above the highest operating point. -/
theorem State.ceilOf_le {s : State} (hlims : s.gov.lims = []) (d : Nat) : s.ceilOf d ≤ 3 := by
  have hmax : s.opMax d < 4 := by
    rw [State.opMax, State.glim, hlims]
    exact Word.bits_lt _ 13 12
  unfold State.ceilOf
  dsimp only
  split_ifs <;> omega

/-- A district's step up. -/
theorem State.raiseItem_district {s : State} {d : Nat} (hd : d < 16) (hbelow : s.get (POWER_GOV_STATE_DUTY d) < (s.throt d).duty ∨ s.get (POWER_GOV_STATE_OP d) < 3) :
    (s.get (POWER_GOV_STATE_DUTY d) < (s.throt d).duty → (s.raiseItem d).get (POWER_GOV_STATE_DUTY d) = (s.get (POWER_GOV_STATE_DUTY d) + 1) % 16 ∧
      (s.raiseItem d).get (POWER_GOV_STATE_OP d) = s.get (POWER_GOV_STATE_OP d)) ∧
    ((s.throt d).duty ≤ s.get (POWER_GOV_STATE_DUTY d) → (s.raiseItem d).get (POWER_GOV_STATE_OP d) = s.get (POWER_GOV_STATE_OP d) + 1) := by
  rw [State.raiseItem, if_pos hd]
  refine ⟨fun hlow => ?_, fun hhigh => ?_⟩
  · rw [if_pos hlow, State.duty_putDuty, State.op_putDuty]
    exact ⟨rfl, rfl⟩
  · rw [if_neg (by omega), State.op_putOp]
    omega

/-! ### The items of a priority -/

/-- A district whose operating point and duty are as they were. -/
def SameState (s t : State) (d : Nat) : Prop := t.get (POWER_GOV_STATE_OP d) = s.get (POWER_GOV_STATE_OP d) ∧ t.get (POWER_GOV_STATE_DUTY d) = s.get (POWER_GOV_STATE_DUTY d)

theorem SameState.of_rd {s t : State} {d : Nat} (h : t.rd (POWER_GOV_STATE d) = s.rd (POWER_GOV_STATE d)) : SameState s t d := by
  have hget : ∀ f : Fld, f.reg = POWER_GOV_STATE d → t.get f = s.get f := fun f hf => by rw [State.get, hf, h, State.get, hf]
  exact ⟨hget _ rfl, hget _ rfl⟩

theorem SameState.trans {s t u : State} {d : Nat} (h : SameState s t d) (k : SameState t u d) : SameState s u d := ⟨k.1.trans h.1, k.2.trans h.2⟩

/-- The items of a priority have been lowered. -/
def State.itemsLowered (s : State) (c : Nat) : State := s.each (s.lowerable c) fun s i => s.lowerItem i

/-- The items of a priority have been raised. -/
def State.itemsRaised (s : State) (demand : List Nat) (c : Nat) : State := s.each (s.raisable demand c) fun s i => s.raiseItem i

section lowered
variable (s : State) (c : Nat)

theorem State.itemsLowered_at {i : Nat} (hi : i ∈ s.lowerable c) : ∃ u, SameItem i s u ∧ (s.itemsLowered c).rd (itemReg i) = (u.lowerItem i).rd (itemReg i) := by
  have hlt := State.lowerable_lt hi
  obtain ⟨u, hu, hend⟩ := State.each_items_at (f := fun s i => s.lowerItem i) (fun u _ hi => u.lowerItem_step hi) (fun _ => State.lowerable_lt) (s.lowerable_nodup c) hi s
  exact ⟨u, hu.sameItem hlt, hend.rd _ (not_otherItem_self hlt)⟩

theorem State.itemsLowered_apart {d : Nat} (hd : d < 16) (hi : d ∉ s.lowerable c) : SameState s (s.itemsLowered c) d := by
  have hend := State.each_items_apart (f := fun s i => s.lowerItem i) (fun u _ hi => u.lowerItem_step hi) (fun _ => State.lowerable_lt) hi s
  exact SameState.of_rd (by rw [← itemReg_district hd]; exact hend.rd _ (not_otherItem_self (by omega)))

theorem State.itemsLowered_displayed : Displayed (fun o => 0xA01080 ≤ o ∧ o ≤ 0xA010C4) s (s.itemsLowered c) :=
  State.each_items (f := fun s i => s.lowerItem i) (fun u _ hi => u.lowerItem_step hi) (fun _ => State.lowerable_lt) s

theorem State.itemsLowered_demand {d : Nat} (hd : d < 16) : (s.itemsLowered c).get (POWER_GOV_STATE_DEMAND d) = s.get (POWER_GOV_STATE_DEMAND d) :=
  State.each_items_low (f := fun s i => s.lowerItem i) (fun u _ hi => u.lowerItem_step hi) (fun _ => State.lowerable_lt) hd rfl (by decide : 16 < 24) s

end lowered

section raised
variable (s : State) (demand : List Nat) (c : Nat)

theorem State.itemsRaised_at {i : Nat} (hi : i ∈ s.raisable demand c) : ∃ u, SameItem i s u ∧ (s.itemsRaised demand c).rd (itemReg i) = (u.raiseItem i).rd (itemReg i) := by
  have hlt := State.raisable_lt hi
  obtain ⟨u, hu, hend⟩ := State.each_items_at (f := fun s i => s.raiseItem i) (fun u _ hi => u.raiseItem_step hi) (fun _ => State.raisable_lt) (s.raisable_nodup demand c) hi s
  exact ⟨u, hu.sameItem hlt, hend.rd _ (not_otherItem_self hlt)⟩

theorem State.itemsRaised_apart {d : Nat} (hd : d < 16) (hi : d ∉ s.raisable demand c) : SameState s (s.itemsRaised demand c) d := by
  have hend := State.each_items_apart (f := fun s i => s.raiseItem i) (fun u _ hi => u.raiseItem_step hi) (fun _ => State.raisable_lt) hi s
  exact SameState.of_rd (by rw [← itemReg_district hd]; exact hend.rd _ (not_otherItem_self (by omega)))

theorem State.itemsRaised_displayed : Displayed (fun o => 0xA01080 ≤ o ∧ o ≤ 0xA010C4) s (s.itemsRaised demand c) :=
  State.each_items (f := fun s i => s.raiseItem i) (fun u _ hi => u.raiseItem_step hi) (fun _ => State.raisable_lt) s

theorem State.itemsRaised_demand {d : Nat} (hd : d < 16) : (s.itemsRaised demand c).get (POWER_GOV_STATE_DEMAND d) = s.get (POWER_GOV_STATE_DEMAND d) :=
  State.each_items_low (f := fun s i => s.raiseItem i) (fun u _ hi => u.raiseItem_step hi) (fun _ => State.raisable_lt) hd rfl (by decide : 16 < 24) s

end raised

/-- A district of the priority that is lowered goes one step down. -/
theorem State.itemsLowered_district {s : State} {c d : Nat} (hd : d < 16) (hin : d ∈ s.lowerable c) :
    (s.opMin d < s.get (POWER_GOV_STATE_OP d) → (s.itemsLowered c).get (POWER_GOV_STATE_OP d) + 1 = s.get (POWER_GOV_STATE_OP d) ∧
      (s.itemsLowered c).get (POWER_GOV_STATE_DUTY d) = s.get (POWER_GOV_STATE_DUTY d)) ∧
    (s.get (POWER_GOV_STATE_OP d) ≤ s.opMin d → (s.itemsLowered c).get (POWER_GOV_STATE_OP d) = s.get (POWER_GOV_STATE_OP d) ∧
      (s.itemsLowered c).get (POWER_GOV_STATE_DUTY d) + 1 = s.get (POWER_GOV_STATE_DUTY d)) := by
  obtain ⟨u, hu, hend⟩ := s.itemsLowered_at c hin
  have hop := hu.state hd (f := POWER_GOV_STATE_OP d) rfl
  have hduty := hu.state hd (f := POWER_GOV_STATE_DUTY d) rfl
  have hget : ∀ f : Fld, f.reg = POWER_GOV_STATE d → (s.itemsLowered c).get f = (u.lowerItem d).get f := fun f hf => by
    rw [State.get, hf, ← itemReg_district hd, hend, itemReg_district hd, ← hf, ← State.get]
  have habove : u.aboveFloor d = true := by
    have hdutyMin : u.glim (POWER_GOV_LIMITS_DUTY_MIN d) = s.glim (POWER_GOV_LIMITS_DUTY_MIN d) := by
      have hlim : u.get (POWER_GOV_LIMITS_DUTY_MIN d) = s.get (POWER_GOV_LIMITS_DUTY_MIN d) := congrArg (fun w => Word.bits w 19 16) (hu.limits hd)
      rw [State.glim, hu.gov, hlim, State.glim]
    have habove := State.aboveFloor_of_lowerable hin
    rw [State.aboveFloor, if_pos hd] at habove ⊢
    rw [hu.opMin hd, hop, hduty, hdutyMin]
    exact habove
  have hstep := State.lowerItem_district hd habove
  rw [hu.opMin hd, hop, hduty, ← hget (POWER_GOV_STATE_OP d) rfl, ← hget (POWER_GOV_STATE_DUTY d) rfl] at hstep
  exact hstep

theorem State.itemsLowered_host {s : State} {c : Nat} (hin : 16 ∈ s.lowerable c) : (s.itemsLowered c).get POWER_HOST_GOV_LEVEL + 1 = s.get POWER_HOST_GOV_LEVEL := by
  obtain ⟨u, hu, hend⟩ := s.itemsLowered_at c hin
  have hlim : ∀ f : Fld, f.reg = POWER_HOST_GOV → u.glim f = s.glim f := fun f hf => by rw [State.glim, hu.gov, hu.get (f := f) hf, State.glim]
  have habove : u.aboveFloor 16 = true := by
    have habove := State.aboveFloor_of_lowerable hin
    simp only [State.aboveFloor, show ¬(16 < 16) by decide, if_false, if_true] at habove ⊢
    rw [hlim _ rfl, hu.get rfl]
    exact habove
  have hget : (s.itemsLowered c).get POWER_HOST_GOV_LEVEL = (u.lowerItem 16).get POWER_HOST_GOV_LEVEL := congrArg (fun w => Word.bits w 1 0) hend
  rw [hget, State.lowerItem_host habove, hu.get rfl]

theorem State.itemsLowered_media {s : State} {c : Nat} (hin : 17 ∈ s.lowerable c) : (s.itemsLowered c).get POWER_MEDIA_GOV_DUTY + 1 = s.get POWER_MEDIA_GOV_DUTY := by
  obtain ⟨u, hu, hend⟩ := s.itemsLowered_at c hin
  have hlim : ∀ f : Fld, f.reg = POWER_MEDIA_GOV → u.glim f = s.glim f := fun f hf => by rw [State.glim, hu.gov, hu.get (f := f) hf, State.glim]
  have habove : u.aboveFloor 17 = true := by
    have habove := State.aboveFloor_of_lowerable hin
    simp only [State.aboveFloor, show ¬(17 < 16) by decide, show ¬(17 = 16) by decide, if_false] at habove ⊢
    rw [hlim _ rfl, hu.get rfl]
    exact habove
  have hget : (s.itemsLowered c).get POWER_MEDIA_GOV_DUTY = (u.lowerItem 17).get POWER_MEDIA_GOV_DUTY := congrArg (fun w => Word.bits w 3 0) hend
  rw [hget, State.lowerItem_media habove, hu.get rfl]

/-- A district of the priority that is raised goes one step up. -/
theorem State.itemsRaised_district {s : State} {demand : List Nat} {c d : Nat} (hlims : s.gov.lims = []) (hd : d < 16) (hin : d ∈ s.raisable demand c) :
    (s.get (POWER_GOV_STATE_DUTY d) < (s.throt d).duty → (s.itemsRaised demand c).get (POWER_GOV_STATE_DUTY d) = (s.get (POWER_GOV_STATE_DUTY d) + 1) % 16 ∧
      (s.itemsRaised demand c).get (POWER_GOV_STATE_OP d) = s.get (POWER_GOV_STATE_OP d)) ∧
    ((s.throt d).duty ≤ s.get (POWER_GOV_STATE_DUTY d) → (s.itemsRaised demand c).get (POWER_GOV_STATE_OP d) = s.get (POWER_GOV_STATE_OP d) + 1) := by
  obtain ⟨u, hu, hend⟩ := s.itemsRaised_at demand c hin
  have hop := hu.state hd (f := POWER_GOV_STATE_OP d) rfl
  have hduty := hu.state hd (f := POWER_GOV_STATE_DUTY d) rfl
  have hget : ∀ f : Fld, f.reg = POWER_GOV_STATE d → (s.itemsRaised demand c).get f = (u.raiseItem d).get f := fun f hf => by
    rw [State.get, hf, ← itemReg_district hd, hend, itemReg_district hd, ← hf, ← State.get]
  have hbelow : u.get (POWER_GOV_STATE_DUTY d) < (u.throt d).duty ∨ u.get (POWER_GOV_STATE_OP d) < 3 := by
    have hbelow := State.belowCeil_of_raisable hin
    have hceil := State.ceilOf_le hlims d
    rw [State.belowCeil, if_pos hd, Bool.or_eq_true, decide_eq_true_eq, decide_eq_true_eq] at hbelow
    rw [hop, hduty, hu.throt]
    omega
  have hstep := State.raiseItem_district hd hbelow
  rw [hop, hduty, hu.throt, ← hget (POWER_GOV_STATE_OP d) rfl, ← hget (POWER_GOV_STATE_DUTY d) rfl] at hstep
  exact hstep

end Sys2Proof.Machine
end

section
/-! SUPPORT. The governor's decision as a whole (Power cap R505 to R510): over the budget, within it, and what every decision leaves. -/

namespace Sys2Proof.Machine
open Reg

/-! ### What every decision leaves -/

/-- What a decision leaves of the state at its start: the express district, DEMAND, the budget shown, and what the governor holds. -/
structure Decided (s t : State) : Prop where
  gov : t.gov = s.gov
  mem : t.mem = s.mem
  budget : t.get POWER_CAP_STATUS_BUDGET_MW = s.get POWER_CAP_STATUS_BUDGET_MW
  select : t.expressDistrict = s.expressDistrict
  express : SameState s t s.expressDistrict
  demand : ∀ d, d < 16 → t.get (POWER_GOV_STATE_DEMAND d) = s.get (POWER_GOV_STATE_DEMAND d)

namespace Decided
variable {s t u : State}

theorem refl (s : State) : Decided s s := ⟨rfl, rfl, rfl, rfl, ⟨rfl, rfl⟩, fun _ _ => rfl⟩

theorem trans (h : Decided s t) (k : Decided t u) : Decided s u :=
  ⟨k.gov.trans h.gov, k.mem.trans h.mem, k.budget.trans h.budget, k.select.trans h.select, h.express.trans (h.select ▸ k.express),
    fun d hd => (k.demand d hd).trans (h.demand d hd)⟩

/-- A step of registers outside those of the items, that leaves the budget shown. -/
theorem of_regs {W : Nat → Prop} (h : RegsBut W s t) (hgov : t.gov = s.gov) (hmem : t.mem = s.mem)
    (hW : ∀ o, W o → o = POWER_CAP_STATUS ∨ errReg o) (hbudget : t.get POWER_CAP_STATUS_BUDGET_MW = s.get POWER_CAP_STATUS_BUDGET_MW) : Decided s t := by
  have hstate : ∀ d, d < 16 → ¬W (POWER_GOV_STATE d) := fun d hd k => by
    have := hW _ k
    unfold POWER_GOV_STATE POWER_CAP_STATUS errReg SECURE_SEC_NOTIFY at this
    omega
  have hselect : ¬W FLOOR_EXPRESS_SEL_DISTRICT.reg := fun k => by
    have hreg := hW 0x10D000 k
    unfold POWER_CAP_STATUS errReg SECURE_SEC_NOTIFY at hreg
    omega
  exact ⟨hgov, hmem, hbudget, h.get _ hselect, .of_rd (h.rd _ (hstate _ s.expressDistrict_lt)), fun d hd => h.get (POWER_GOV_STATE_DEMAND d) (hstate d hd)⟩

theorem putCap (s : State) {f : Fld} (hreg : f.reg = POWER_CAP_STATUS) (hbits : f.lo ≤ f.hi) (hhi : f.hi < 64) (hlo : 15 < f.lo) (n : Nat) : Decided s (s.put f n) := by
  have hshown : Displayed (· = POWER_CAP_STATUS) s (s.put f n) := (Displayed.refl s).put hreg
  exact of_regs hshown.toRegsBut hshown.gov hshown.mem (fun _ => .inl) (State.get_put_apart s f _ n hbits hhi (.inr hlo))

theorem putUnreachable (s : State) (b : Bool) : Decided s (s.putB POWER_CAP_STATUS_UNREACHABLE b) := putCap s rfl (by decide) (by decide) (by decide) _
theorem putCapping (s : State) (b : Bool) : Decided s (s.putB POWER_CAP_STATUS_CAPPING b) := putCap s rfl (by decide) (by decide) (by decide) _

theorem report (s : State) (e : Err) : Decided s (s.report e) :=
  of_regs ((RegsBut.refl s).report fun _ => id) (s.report_gov e) (s.report_mem e) (fun _ => .inr) (s.get_report e _ (by decide) (.inl (by decide)))

theorem items {W : Nat → Prop} (h : Displayed W s t) (hW : ∀ o, W o → 0xA01080 ≤ o ∧ o ≤ 0xA010C4) (hexpress : SameState s t s.expressDistrict)
    (hdemand : ∀ d, d < 16 → t.get (POWER_GOV_STATE_DEMAND d) = s.get (POWER_GOV_STATE_DEMAND d)) : Decided s t := by
  have hout : ∀ o, o < 0xA01080 → ¬W o := fun o ho k => by
    have := hW o k
    omega
  exact ⟨h.gov, h.mem, h.get _ (hout 0xA01010 (by decide)), h.get FLOOR_EXPRESS_SEL_DISTRICT (hout 0x10D000 (by decide)), hexpress, hdemand⟩

theorem lowered (s : State) (c : Nat) : Decided s (s.itemsLowered c) :=
  items (s.itemsLowered_displayed c) (fun _ => id) (s.itemsLowered_apart c s.expressDistrict_lt (s.express_not_lowerable c)) fun _ hd => s.itemsLowered_demand c hd

theorem raised (s : State) (demand : List Nat) (c : Nat) : Decided s (s.itemsRaised demand c) :=
  items (s.itemsRaised_displayed demand c) (fun _ => id) (s.itemsRaised_apart demand c s.expressDistrict_lt (s.express_not_raisable demand c)) fun _ hd =>
    s.itemsRaised_demand demand c hd

end Decided

/-! ### The branches of a decision -/

section branches
variable (s : State) (demand rise : List Nat) {p b : Nat}

theorem State.govDecide_lower {c : Nat} (hover : b < p) (hfind : ([0, 1, 2, 3].find? fun c => !(s.lowerable c).isEmpty) = some c) :
    s.govDecide demand rise p b = s.itemsLowered c := by
  rw [State.govDecide, if_pos hover, hfind]
  rfl

theorem State.govDecide_unreachable (hover : b < p) (hfind : ([0, 1, 2, 3].find? fun c => !(s.lowerable c).isEmpty) = none) :
    s.govDecide demand rise p b =
      if s.on POWER_CAP_STATUS_UNREACHABLE then s else (s.putB POWER_CAP_STATUS_UNREACHABLE true).report { code := Code.CAP_UNREACHABLE } := by
  rw [State.govDecide, if_pos hover, hfind]

theorem State.govDecide_rest (hwithin : p ≤ b) (hfind : ([3, 2, 1, 0].find? fun c => !((s.putB POWER_CAP_STATUS_UNREACHABLE false).raisable demand c).isEmpty) = none) :
    s.govDecide demand rise p b = s.putB POWER_CAP_STATUS_UNREACHABLE false := by
  rw [State.govDecide, if_neg (Nat.not_lt.2 hwithin)]
  dsimp only
  rw [hfind]

theorem State.govDecide_raise {c : Nat} (hwithin : p ≤ b)
    (hfind : ([3, 2, 1, 0].find? fun c => !((s.putB POWER_CAP_STATUS_UNREACHABLE false).raisable demand c).isEmpty) = some c) :
    s.govDecide demand rise p b =
      if p + rise.getD c 0 + (s.putB POWER_CAP_STATUS_UNREACHABLE false).glim POWER_GOV_CTRL_HEADROOM_MW ≤ b
      then (s.putB POWER_CAP_STATUS_UNREACHABLE false).itemsRaised demand c else s.putB POWER_CAP_STATUS_UNREACHABLE false := by
  rw [State.govDecide, if_neg (Nat.not_lt.2 hwithin)]
  dsimp only
  rw [hfind]
  rfl

/-- Every decision leaves what a decision leaves. -/
theorem State.govDecide_decided : Decided s (s.govDecide demand rise p b) := by
  by_cases hover : b < p
  · cases hfind : [0, 1, 2, 3].find? fun c => !(s.lowerable c).isEmpty with
    | some c =>
      rw [s.govDecide_lower demand rise hover hfind]
      exact .lowered s c
    | none =>
      rw [s.govDecide_unreachable demand rise hover hfind]
      split
      · exact .refl s
      · exact (Decided.putUnreachable s true).trans (.report _ _)
  · have hwithin := Nat.not_lt.1 hover
    cases hfind : [3, 2, 1, 0].find? fun c => !((s.putB POWER_CAP_STATUS_UNREACHABLE false).raisable demand c).isEmpty with
    | some c =>
      rw [s.govDecide_raise demand rise hwithin hfind]
      split
      · exact (Decided.putUnreachable s false).trans (.raised _ demand c)
      · exact .putUnreachable s false
    | none =>
      rw [s.govDecide_rest demand rise hwithin hfind]
      exact .putUnreachable s false

end branches

/-! ### The whole -/

/-- The budget is shown. -/
def State.budgetShown (s : State) (b : Nat) : State := s.put POWER_CAP_STATUS_BUDGET_MW b

theorem State.budgetShown_displayed (s : State) (b : Nat) : Displayed (· = POWER_CAP_STATUS) s (s.budgetShown b) :=
  (Displayed.refl s).put (f := POWER_CAP_STATUS_BUDGET_MW) rfl

theorem State.budgetShown_items (s : State) (b : Nat) : SameItems s (s.budgetShown b) := (s.budgetShown_displayed b).sameItems

/-- The states agree on every item with what each other decision step writes of CAP_STATUS. -/
theorem State.unreachable_items (s : State) (b : Bool) : SameItems s (s.putB POWER_CAP_STATUS_UNREACHABLE b) :=
  Displayed.sameItems ((Displayed.refl s).putB (W := (· = POWER_CAP_STATUS)) (f := POWER_CAP_STATUS_UNREACHABLE) rfl)

theorem State.capping_items (s : State) (b : Bool) : SameItems s (s.putB POWER_CAP_STATUS_CAPPING b) :=
  Displayed.sameItems ((Displayed.refl s).putB (W := (· = POWER_CAP_STATUS)) (f := POWER_CAP_STATUS_CAPPING) rfl)

theorem State.unreachable_capping (s : State) (b : Bool) : (s.putB POWER_CAP_STATUS_CAPPING b).on POWER_CAP_STATUS_UNREACHABLE = s.on POWER_CAP_STATUS_UNREACHABLE :=
  congrArg (· != 0) (State.get_put_apart s POWER_CAP_STATUS_CAPPING POWER_CAP_STATUS_UNREACHABLE _ (by decide) (by decide) (.inr (by decide)))

theorem State.govern_early {s : State} (active rise : List Nat) (h : s.gov.settled < 10) : s.govern active rise = s.govReady (s.govDemand active) := if_pos h

theorem State.govern_late {s : State} (active rise : List Nat) (h : 10 ≤ s.gov.settled) : ∃ capping, s.govern active rise =
    (((s.govReady (s.govDemand active)).budgetShown s.govB).govDecide (s.govDemand active) rise s.govP s.govB).putB POWER_CAP_STATUS_CAPPING capping :=
  ⟨_, if_neg (Nat.not_lt.2 h)⟩

theorem exec_governorDecision_off {s : State} (active rise : List Nat) (h : s.fwRunning 2 = false ∨ s.round % s.govPeriod ≠ 0) :
    exec (.governorDecision active rise) s = .next s := by
  show execGovernorDecision active rise s = _
  rw [execGovernorDecision, if_neg]
  simp only [Bool.and_eq_true, beq_iff_eq, not_and]
  intro hrun
  exact h.resolve_left (by simp [hrun])

theorem exec_governorDecision_on {s : State} (active rise : List Nat) (hrun : s.fwRunning 2 = true) (hperiod : s.round % s.govPeriod = 0) :
    exec (.governorDecision active rise) s = .next (s.govern active rise) := by
  show execGovernorDecision active rise s = _
  rw [execGovernorDecision, if_pos (by simp [hrun, hperiod])]

end Sys2Proof.Machine
end

section
/-! SUPPORT. What a decision does to each item (Power cap R506, R509), from the state at its start. -/

namespace Sys2Proof.Machine
open Reg

/-- The decision and what it shows. -/
def State.decision (s : State) (demand rise : List Nat) (p b : Nat) (capping : Bool) : State :=
  ((s.budgetShown b).govDecide demand rise p b).putB POWER_CAP_STATUS_CAPPING capping

theorem State.decision_decided (s : State) (demand rise : List Nat) (p b : Nat) (capping : Bool) : Decided (s.budgetShown b) (s.decision demand rise p b capping) :=
  (State.govDecide_decided _ demand rise).trans (.putCapping _ capping)

theorem SameItems.sameState {s t : State} (h : SameItems s t) (d : Nat) : SameState s t d := ⟨h.state d rfl, h.state d rfl⟩

section decision
variable (u : State) (demand rise : List Nat) {p b : Nat} (capping : Bool)

/-! ### Over the budget -/

section overBudget
variable (hover : b < p)
include hover

/-- With no item above its floor, the cap is UNREACHABLE. -/
theorem State.decision_unreachable (hnone : ∀ i, i < 18 → u.aboveFloor i = true → i = u.expressDistrict) :
    (u.decision demand rise p b capping).on POWER_CAP_STATUS_UNREACHABLE = true ∧ ∀ i, i < 16 → SameState u (u.decision demand rise p b capping) i := by
  have hitems := u.budgetShown_items b
  have hempty : ∀ c, (u.budgetShown b).lowerable c = [] := fun c => by
    rw [hitems.lowerable]
    refine List.filter_eq_nil_iff.2 fun i hi hcond => u.express_not_item ?_
    simp only [Bool.and_eq_true] at hcond
    rw [← hnone i (State.items_lt hi) hcond.2]
    exact hi
  have hdecide := (u.budgetShown b).govDecide_unreachable demand rise hover (find?_none_of_empty fun k _ => hempty k)
  have hstate : ∀ i, i < 16 → SameState u ((u.budgetShown b).govDecide demand rise p b) i := fun i hi => by
    refine (hitems.sameState i).trans ?_
    rw [hdecide]
    split
    · exact ⟨rfl, rfl⟩
    · refine ((State.unreachable_items _ true).sameState i).trans (.of_rd (State.rd_report _ _ _ ?_ (.inl ?_)))
      · unfold POWER_GOV_STATE SECURE_SEC_NOTIFY
        omega
      · unfold POWER_GOV_STATE
        omega
  refine ⟨?_, fun i hi => (hstate i hi).trans ((State.capping_items _ capping).sameState i)⟩
  rw [State.decision, State.unreachable_capping, hdecide]
  split
  · next hon => exact hon
  · rw [State.on, State.get_report _ _ _ (by decide) (.inl (by decide))]
    exact State.on_putB_same (u.budgetShown b) POWER_CAP_STATUS_UNREACHABLE true rfl (by decide)

variable {c : Nat} (hc : c < 4) (hfull : u.lowerable c ≠ []) (hempty : ∀ k, k < c → u.lowerable k = [])
include hc hfull hempty

/-- The items of the lowest priority that has one above its floor are lowered. -/
theorem State.decision_lower : u.decision demand rise p b capping = ((u.budgetShown b).itemsLowered c).putB POWER_CAP_STATUS_CAPPING capping := by
  have hitems := u.budgetShown_items b
  rw [State.decision, State.govDecide_lower _ demand rise hover
    (find?_lowest (l := (u.budgetShown b).lowerable) hc (by rw [hitems.lowerable]; exact hfull) fun k hk => by rw [hitems.lowerable]; exact hempty k hk)]

theorem State.decision_lower_district {d : Nat} (hd : d < 16) (hin : d ∈ u.lowerable c) :
    (u.opMin d < u.get (POWER_GOV_STATE_OP d) → (u.decision demand rise p b capping).get (POWER_GOV_STATE_OP d) + 1 = u.get (POWER_GOV_STATE_OP d) ∧
      (u.decision demand rise p b capping).get (POWER_GOV_STATE_DUTY d) = u.get (POWER_GOV_STATE_DUTY d)) ∧
    (u.get (POWER_GOV_STATE_OP d) ≤ u.opMin d → (u.decision demand rise p b capping).get (POWER_GOV_STATE_OP d) = u.get (POWER_GOV_STATE_OP d) ∧
      (u.decision demand rise p b capping).get (POWER_GOV_STATE_DUTY d) + 1 = u.get (POWER_GOV_STATE_DUTY d)) := by
  have hitems := u.budgetShown_items b
  have hstep := State.itemsLowered_district (s := u.budgetShown b) hd (by rw [hitems.lowerable]; exact hin)
  obtain ⟨hop, hduty⟩ := hitems.sameState d
  obtain ⟨hop', hduty'⟩ := (State.capping_items ((u.budgetShown b).itemsLowered c) capping).sameState d
  rw [hitems.opMin, hop, hduty, ← hop', ← hduty', ← u.decision_lower demand rise capping hover hc hfull hempty] at hstep
  exact hstep

theorem State.decision_lower_other {d : Nat} (hd : d < 16) (hout : d ∉ u.lowerable c) : SameState u (u.decision demand rise p b capping) d := by
  have hitems := u.budgetShown_items b
  rw [u.decision_lower demand rise capping hover hc hfull hempty]
  exact ((hitems.sameState d).trans (State.itemsLowered_apart _ c hd (by rw [hitems.lowerable]; exact hout))).trans ((State.capping_items _ capping).sameState d)

theorem State.decision_lower_host (hin : 16 ∈ u.lowerable c) : (u.decision demand rise p b capping).get POWER_HOST_GOV_LEVEL + 1 = u.get POWER_HOST_GOV_LEVEL := by
  have hitems := u.budgetShown_items b
  have hstep := State.itemsLowered_host (s := u.budgetShown b) (c := c) (by rw [hitems.lowerable]; exact hin)
  rw [u.decision_lower demand rise capping hover hc hfull hempty, (State.capping_items _ capping).get POWER_HOST_GOV_LEVEL (by decide), hstep,
    hitems.get POWER_HOST_GOV_LEVEL (by decide)]

theorem State.decision_lower_media (hin : 17 ∈ u.lowerable c) : (u.decision demand rise p b capping).get POWER_MEDIA_GOV_DUTY + 1 = u.get POWER_MEDIA_GOV_DUTY := by
  have hitems := u.budgetShown_items b
  have hstep := State.itemsLowered_media (s := u.budgetShown b) (c := c) (by rw [hitems.lowerable]; exact hin)
  rw [u.decision_lower demand rise capping hover hc hfull hempty, (State.capping_items _ capping).get POWER_MEDIA_GOV_DUTY (by decide), hstep,
    hitems.get POWER_MEDIA_GOV_DUTY (by decide)]

end overBudget

/-! ### Within the budget -/

/-- The state from which the items are raised. -/
def State.reachable (b : Nat) : State := (u.budgetShown b).putB POWER_CAP_STATUS_UNREACHABLE false

theorem State.reachable_items (b : Nat) : SameItems u (u.reachable b) := by
  have h := u.budgetShown_items b
  have k := (u.budgetShown b).unreachable_items false
  exact ⟨k.gov.trans h.gov, fun o ho => (k.rd o ho).trans (h.rd o ho)⟩

theorem State.reachable_raisable (b c : Nat) : (u.reachable b).raisable demand c = (u.putB POWER_CAP_STATUS_UNREACHABLE false).raisable demand c := by
  rw [(u.reachable_items b).raisable, (u.unreachable_items false).raisable]

section withinBudget
variable (hwithin : p ≤ b)
include hwithin

theorem State.decision_reachable : (u.decision demand rise p b capping).on POWER_CAP_STATUS_UNREACHABLE = false := by
  have hclear : (u.reachable b).on POWER_CAP_STATUS_UNREACHABLE = false := State.on_putB_same (u.budgetShown b) POWER_CAP_STATUS_UNREACHABLE false rfl (by decide)
  rw [State.decision, State.unreachable_capping]
  cases hfind : [3, 2, 1, 0].find? fun c => !((u.reachable b).raisable demand c).isEmpty with
  | none =>
    rw [State.govDecide_rest _ demand rise hwithin hfind]
    exact hclear
  | some c =>
    rw [State.govDecide_raise _ demand rise hwithin hfind]
    split
    · exact (((u.reachable b).itemsRaised_displayed demand c).on POWER_CAP_STATUS_UNREACHABLE (by decide)).trans hclear
    · exact hclear

theorem State.decision_none (hempty : ∀ c, c < 4 → (u.putB POWER_CAP_STATUS_UNREACHABLE false).raisable demand c = []) (d : Nat) :
    SameState u (u.decision demand rise p b capping) d := by
  have hfind : ([3, 2, 1, 0].find? fun c => !((u.reachable b).raisable demand c).isEmpty) = none := find?_none_of_empty fun k hk => by
    rw [u.reachable_raisable]
    refine hempty k ?_
    simp at hk
    omega
  rw [State.decision, State.govDecide_rest _ demand rise hwithin hfind]
  exact ((u.reachable_items b).sameState d).trans ((State.capping_items _ capping).sameState d)

variable {c : Nat} (hc : c < 4) (hfull : (u.putB POWER_CAP_STATUS_UNREACHABLE false).raisable demand c ≠ [])
  (hempty : ∀ k, c < k → k < 4 → (u.putB POWER_CAP_STATUS_UNREACHABLE false).raisable demand k = []) (hlims : u.gov.lims = [])
include hc hfull hempty hlims

theorem State.decision_raise : u.decision demand rise p b capping =
    (if p + rise.getD c 0 + u.get POWER_GOV_CTRL_HEADROOM_MW ≤ b then (u.reachable b).itemsRaised demand c else u.reachable b).putB POWER_CAP_STATUS_CAPPING capping := by
  have hfind := find?_highest (l := (u.reachable b).raisable demand) hc (by rw [u.reachable_raisable]; exact hfull) fun k hk hk' => by
    rw [u.reachable_raisable]
    exact hempty k hk hk'
  have hheadroom : (u.reachable b).glim POWER_GOV_CTRL_HEADROOM_MW = u.get POWER_GOV_CTRL_HEADROOM_MW := by
    rw [(u.reachable_items b).glim _ (by decide), State.glim, hlims]
    rfl
  have hraise := State.govDecide_raise (u.budgetShown b) demand rise hwithin hfind
  rw [← State.reachable, hheadroom] at hraise
  rw [State.decision, hraise]

theorem State.decision_raise_short (hshort : b < p + rise.getD c 0 + u.get POWER_GOV_CTRL_HEADROOM_MW) (d : Nat) : SameState u (u.decision demand rise p b capping) d := by
  rw [u.decision_raise demand rise capping hwithin hc hfull hempty hlims, if_neg (Nat.not_le.2 hshort)]
  exact ((u.reachable_items b).sameState d).trans ((State.capping_items _ capping).sameState d)

theorem State.decision_raise_district (hfits : p + rise.getD c 0 + u.get POWER_GOV_CTRL_HEADROOM_MW ≤ b) {d : Nat} (hd : d < 16)
    (hin : d ∈ (u.putB POWER_CAP_STATUS_UNREACHABLE false).raisable demand c) :
    (u.get (POWER_GOV_STATE_DUTY d) < (u.throt d).duty → (u.decision demand rise p b capping).get (POWER_GOV_STATE_DUTY d) = (u.get (POWER_GOV_STATE_DUTY d) + 1) % 16 ∧
      (u.decision demand rise p b capping).get (POWER_GOV_STATE_OP d) = u.get (POWER_GOV_STATE_OP d)) ∧
    ((u.throt d).duty ≤ u.get (POWER_GOV_STATE_DUTY d) → (u.decision demand rise p b capping).get (POWER_GOV_STATE_OP d) = u.get (POWER_GOV_STATE_OP d) + 1) := by
  have hitems := u.reachable_items b
  have hstep := State.itemsRaised_district (s := u.reachable b) (demand := demand) (c := c) (by rw [hitems.gov]; exact hlims) hd (by rw [u.reachable_raisable]; exact hin)
  obtain ⟨hop, hduty⟩ := hitems.sameState d
  obtain ⟨hop', hduty'⟩ := (State.capping_items ((u.reachable b).itemsRaised demand c) capping).sameState d
  have hdecision := u.decision_raise demand rise capping hwithin hc hfull hempty hlims
  rw [if_pos hfits] at hdecision
  rw [hitems.throt, hop, hduty, ← hop', ← hduty', ← hdecision] at hstep
  exact hstep

end withinBudget

end decision

end Sys2Proof.Machine
end

section
/-! SUPPORT. Throttle, its restoration, and droop (Power cap R515 to R518). -/

namespace Sys2Proof.Machine
open Reg

/-! ### Throttle ceilings -/

/-- The throttle ceilings alone are others. -/
def OnlyThrot (s t : State) : Prop := ∃ th, t = s.setGov fun g => { g with throt := th }

namespace OnlyThrot
variable {s t u : State}

theorem refl (s : State) : OnlyThrot s s := ⟨s.gov.throt, rfl⟩

theorem trans (h : OnlyThrot s t) (k : OnlyThrot t u) : OnlyThrot s u := by
  obtain ⟨_, rfl⟩ := h
  obtain ⟨th, rfl⟩ := k
  exact ⟨th, rfl⟩

theorem setThrot (s : State) (i : Nat) (f : Throt → Throt) : OnlyThrot s (s.setThrot i f) := ⟨_, rfl⟩

theorem each {f : State → Nat → State} (hf : ∀ u i, OnlyThrot u (f u i)) (l : List Nat) (s : State) : OnlyThrot s (s.each l f) :=
  List.foldlRecOn (motive := fun t => OnlyThrot s t) l f (refl s) fun t ht i _ => ht.trans (hf t i)

section reads
variable (h : OnlyThrot s t)
include h

theorem mem : t.mem = s.mem := by obtain ⟨_, rfl⟩ := h; rfl
theorem rd (o : Nat) : t.rd o = s.rd o := by obtain ⟨_, rfl⟩ := h; rfl
theorem governed (d : Nat) : t.governed d = s.governed d := by obtain ⟨_, rfl⟩ := h; rfl
theorem mon (m : Nat) : t.mon m = s.mon m := by obtain ⟨_, rfl⟩ := h; rfl
theorem select : t.expressDistrict = s.expressDistrict := by obtain ⟨_, rfl⟩ := h; rfl
theorem atLowest (i : Nat) : t.atLowest i = s.atLowest i := by obtain ⟨_, rfl⟩ := h; rfl
theorem get (f : Fld) : t.get f = s.get f := by rw [State.get, h.rd, State.get]

end reads

end OnlyThrot

theorem State.throt_setThrot_same (s : State) (i : Nat) (f : Throt → Throt) : (s.setThrot i f).throt i = f (s.throt i) := SMap.get_set_same _ _ _ _
theorem State.throt_setThrot_other (s : State) {i j : Nat} (f : Throt → Throt) (h : j ≠ i) : (s.setThrot i f).throt j = s.throt j := SMap.get_set_other _ _ _ _ _ h

/-! ### A step of the throttle -/

/-- One item's throttle ceiling is lowered for a sensor. -/
def State.throttleItem (m : Nat) (s : State) (i : Nat) : State := s.setThrot i (lowerThrot i m (s.atLowest i))

/-- The items of a sensor's throttle are lowered. -/
def State.throttledDown (s : State) (m : Nat) : State := s.each (s.throttled m) (State.throttleItem m)

theorem State.throttled_nodup (s : State) (m : Nat) : (s.throttled m).Nodup := by
  unfold State.throttled
  split
  · split
    · exact List.nodup_singleton _
    · exact s.governed_nodup
  · split
    · exact List.nodup_singleton _
    · exact s.items_nodup

theorem State.throttledDown_only (s : State) (m : Nat) : OnlyThrot s (s.throttledDown m) := OnlyThrot.each (fun u i => .setThrot u i _) _ s

/-- An item that the sensor throttles is lowered once, from the ceiling that it had. -/
theorem State.throttledDown_in (s : State) {m i : Nat} (hi : i ∈ s.throttled m) : (s.throttledDown m).throt i = lowerThrot i m (s.atLowest i) (s.throt i) := by
  obtain ⟨u, ⟨hu, husame⟩, -, hitem⟩ := State.each_split (R := fun a b => OnlyThrot a b ∧ b.throt i = a.throt i) (fun a => ⟨.refl a, rfl⟩)
    (fun h k => ⟨h.1.trans k.1, k.2.trans h.2⟩) (s.throttled_nodup m) hi (f := State.throttleItem m)
    (fun v j _ hne => ⟨.setThrot v j _, v.throt_setThrot_other _ (Ne.symm hne)⟩) s
  rw [State.throttledDown, hitem, State.throttleItem, State.throt_setThrot_same, hu.atLowest, husame]

theorem State.throttledDown_out (s : State) {m i : Nat} (hi : i ∉ s.throttled m) : (s.throttledDown m).throt i = s.throt i :=
  State.each_keeps (fun v : State => v.throt i) (fun u j hj => u.throt_setThrot_other _ fun h : i = j => hi (h ▸ hj)) s

/-- The sensor's next step counts from this round. -/
def State.throttleBegun (s : State) (m : Nat) : State := s.setMon m fun x => { x with stepped := some s.round }

theorem State.throttleStep_on {s : State} {m : Nat} (hvalid : s.on (MONITOR_TEMP_VALID m) = true) (hhot : (s.mon m).hot ≠ none)
    (hdue : ∀ n, (s.mon m).stepped = some n → n + 100 ≤ s.round) : s.throttleStep m = ((s.throttleBegun m).throttledDown m).applyCeilings := by
  have hsome : (s.mon m).hot.isNone = false := Option.isNone_eq_false_iff.2 (Option.isSome_iff_ne_none.2 hhot)
  unfold State.throttleStep
  refine if_neg ?_
  rw [hvalid, hsome]
  cases hstep : (s.mon m).stepped with
  | none => simp
  | some n => simpa using hdue n hstep

theorem State.throttleStep_off {s : State} {m : Nat} (h : s.on (MONITOR_TEMP_VALID m) = false ∨ (s.mon m).hot = none ∨ ∃ n, (s.mon m).stepped = some n ∧ s.round < n + 100) :
    s.throttleStep m = s := by
  unfold State.throttleStep
  refine if_pos ?_
  rcases h with h | h | ⟨n, hn, hlt⟩
  · simp [h]
  · simp [h]
  · simp [hn, hlt]

theorem State.mon_throttleBegun (s : State) (m : Nat) : ((s.throttleBegun m).mon m).stepped = some s.round := by
  rw [State.throttleBegun, State.mon_setMon_same]

/-! ### A restoration -/

/-- Where a throttle ceiling goes that is restored by one step. -/
def Throt.raise (x : Throt) (round : Nat) : Throt :=
  let y := if x.duty < 8 then { x with duty := min 8 (2 * x.duty) } else { x with op := min 3 (x.op + 1) }
  if y.op = 3 && y.duty = 8 then { restored := 0 } else { y with restored := round }

theorem Throt.raise_duty {x : Throt} (h : x.duty < 8) (round : Nat) : (x.raise round).duty = min 8 (2 * x.duty) ∧ (x.raise round).op = x.op := by
  unfold Throt.raise
  rw [if_pos h]
  dsimp only
  split
  · next hfull =>
    simp only [Bool.and_eq_true, decide_eq_true_eq] at hfull
    exact ⟨hfull.2.symm, hfull.1.symm⟩
  · exact ⟨rfl, rfl⟩

theorem Throt.raise_op {x : Throt} (hduty : x.duty = 8) (hop : x.op < 3) (round : Nat) : (x.raise round).duty = 8 ∧ (x.raise round).op = x.op + 1 := by
  unfold Throt.raise
  rw [if_neg (by omega : ¬x.duty < 8)]
  dsimp only
  split
  · next hfull =>
    simp only [Bool.and_eq_true, decide_eq_true_eq] at hfull
    obtain ⟨hop', -⟩ := hfull
    exact ⟨rfl, hop'.symm.trans (Nat.min_eq_right hop)⟩
  · exact ⟨hduty, Nat.min_eq_right hop⟩

theorem State.throttleRestore_off {s : State} {i : Nat} (h : ((s.throt i).op = 3 ∧ (s.throt i).duty = 8) ∨ s.round < (s.throt i).restored + 1000) :
    s.throttleRestore i = s := by
  unfold State.throttleRestore
  refine if_pos ?_
  rcases h with ⟨hop, hduty⟩ | h
  · simp [hop, hduty]
  · simp [h]

theorem State.throttleRestore_on {s : State} {i : Nat} (hfull : ¬((s.throt i).op = 3 ∧ (s.throt i).duty = 8)) (hwait : (s.throt i).restored + 1000 ≤ s.round)
    (hcool : ∀ m ∈ (s.throt i).by_, ∃ n, (s.mon m).cool = some n ∧ n + 1000 ≤ s.round) :
    s.throttleRestore i = (s.setThrot i fun _ => (s.throt i).raise s.round).applyCeilings := by
  have hall : ((s.throt i).by_.all fun m => match (s.mon m).cool with | some n => decide (n + 1000 ≤ s.round) | none => s.on (MONITOR_TEMP_FAILED m)) = true :=
    List.all_eq_true.2 fun m hm => by
      obtain ⟨n, hn, hle⟩ := hcool m hm
      rw [hn]
      exact decide_eq_true hle
  unfold State.throttleRestore
  refine if_neg ?_
  simp only [Bool.or_eq_true, Bool.and_eq_true, decide_eq_true_eq, Bool.not_eq_true', not_or]
  refine ⟨⟨hfull, fun k => ?_⟩, Nat.not_lt.2 hwait⟩
  exact Bool.false_ne_true (k.symm.trans hall)

/-- What a restoration leaves. -/
theorem State.restored_spec (s : State) (i : Nat) (x : Throt) : ((s.setThrot i fun _ => x).applyCeilings).throt i = x ∧ ((s.setThrot i fun _ => x).applyCeilings).mem = s.mem := by
  have hceiled := (s.setThrot i fun _ => x).applyCeilings_spec
  exact ⟨(hceiled.throt i).trans (s.throt_setThrot_same i _), hceiled.mem⟩

/-! ### Droop -/

theorem droopCount_ne (i : Nat) : POWER_DROOP_COUNT i ≠ ROUND_PHASE ∧ ROUND_COUNT ≠ POWER_DROOP_COUNT i := by
  unfold POWER_DROOP_COUNT ROUND_PHASE ROUND_COUNT
  omega

/-- A trigger counts; a stretch in progress goes on, and else one starts. -/
theorem State.droop_counted (s : State) (i t : Nat) : ((s.atNs t).addSat (POWER_DROOP_COUNT i) 1).rdN (POWER_DROOP_COUNT i) = min (s.rdN (POWER_DROOP_COUNT i) + 1) 0xFFFFFFFF ∧
    ((s.atNs t).addSat (POWER_DROOP_COUNT i) 1).now = (s.atNs t).now := by
  refine ⟨?_, ?_⟩
  · rw [State.rdN_addSat_same, (s.retimed t).regs.rdN _ (droopCount_ne i).1]
  · have hround : ((s.atNs t).addSat (POWER_DROOP_COUNT i) 1).round = (s.atNs t).round := State.rdN_wrN_other _ _ _ _ (droopCount_ne i).2
    rw [State.now, hround]
    rfl

theorem State.droop_setDroop (s : State) (i : Nat) (x : DroopSt) : (s.setDroop i x).droop i = x := SMap.get_set_same _ _ _ _

/-- A release of the droop limit of one district. -/
def State.droopFree (s : State) (d : Nat) : State :=
  (s.putB (POWER_GOV_STATE_DROOP_LIMITED d) false).setGov fun g => { g with droopCeil := SMap.set (fun _ => 3) g.droopCeil d 3 }

theorem State.rd_setGov (s : State) (f : GovSt → GovSt) (o : Nat) : (s.setGov f).rd o = s.rd o := rfl
theorem State.on_setGov (s : State) (f : GovSt → GovSt) (g : Fld) : (s.setGov f).on g = s.on g := rfl
theorem State.rd_putB_other (s : State) (f : Fld) (b : Bool) (o : Nat) (h : o ≠ f.reg) : (s.putB f b).rd o = s.rd o := State.rd_put_other s f _ o h

theorem State.droopFree_same (s : State) (d : Nat) : (s.droopFree d).on (POWER_GOV_STATE_DROOP_LIMITED d) = false := by
  rw [State.droopFree, State.on_setGov, State.on_putB_same s _ false rfl (by decide : 18 < 64)]

theorem State.droopFree_other (s : State) {d e : Nat} (h : e ≠ d) : (s.droopFree e).rd (POWER_GOV_STATE d) = s.rd (POWER_GOV_STATE d) := by
  rw [State.droopFree, State.rd_setGov, State.rd_putB_other]
  exact fun k => h (govState_injective k).symm

theorem State.mem_droopFree (s : State) (d : Nat) : (s.droopFree d).mem = s.mem := by
  rw [State.droopFree, State.setGov_mem, State.putB_mem]

theorem mem_onesBelow {v n d : Nat} (hd : d < n) : d ∈ onesBelow v n ↔ nbit v d = true := by simp [onesBelow, hd]

/-- The districts named are no longer limited by droop; the others are as they were. -/
theorem State.droopFreed (s : State) (v : Nat) {d : Nat} (hd : d < 16) : (s.each (onesBelow v 16) State.droopFree).on (POWER_GOV_STATE_DROOP_LIMITED d) =
    (s.on (POWER_GOV_STATE_DROOP_LIMITED d) && !nbit v d) := by
  by_cases hbit : nbit v d = true
  · obtain ⟨u, -, hend⟩ := State.each_split (R := fun a b : State => b.rd (POWER_GOV_STATE d) = a.rd (POWER_GOV_STATE d)) (fun _ => rfl) (fun h k => k.trans h)
      (List.nodup_range.filter _) ((mem_onesBelow hd).2 hbit) (f := State.droopFree) (fun w e _ hne => w.droopFree_other hne) s
    have hsame : (s.each (onesBelow v 16) State.droopFree).on (POWER_GOV_STATE_DROOP_LIMITED d) = (u.droopFree d).on (POWER_GOV_STATE_DROOP_LIMITED d) :=
      congrArg (fun w => Word.bits w 18 18 != 0) hend
    rw [hsame, u.droopFree_same, hbit]
    simp
  · have hstay : (s.each (onesBelow v 16) State.droopFree).rd (POWER_GOV_STATE d) = s.rd (POWER_GOV_STATE d) :=
      State.each_keeps (fun w : State => w.rd (POWER_GOV_STATE d)) (fun w e he => w.droopFree_other fun h : e = d => hbit ((mem_onesBelow hd).1 (h ▸ he))) s
    have hsame : (s.each (onesBelow v 16) State.droopFree).on (POWER_GOV_STATE_DROOP_LIMITED d) = s.on (POWER_GOV_STATE_DROOP_LIMITED d) :=
      congrArg (fun w => Word.bits w 18 18 != 0) hstay
    rw [hsame, (by simpa using hbit : nbit v d = false)]
    simp

end Sys2Proof.Machine
end

section
/-! SUPPORT. The trims of the model (Power cap R499). -/

namespace Sys2Proof.Machine
open Reg

/-- Where a trim goes for a ratio. -/
def trimTo (old ratio : Nat) : Nat := max 0x0E00 (min 0x1200 (if old < ratio then min ratio (old + 16) else max ratio (old - 16)))

/-- A trim stays within its limits, and from within them it moves toward the ratio by at most 16. -/
theorem trimTo_spec (old ratio : Nat) : 0xE00 ≤ trimTo old ratio ∧ trimTo old ratio ≤ 0x1200 ∧ (0xE00 ≤ old → old ≤ 0x1200 → trimTo old ratio ≤ old + 16 ∧
    old ≤ trimTo old ratio + 16 ∧ (0xE00 ≤ ratio → ratio ≤ 0x1200 → (trimTo old ratio = ratio ∨ (ratio < trimTo old ratio ∧ trimTo old ratio + 16 = old) ∨
      (trimTo old ratio < ratio ∧ trimTo old ratio = old + 16)))) := by
  unfold trimTo
  split <;> omega

/-- The trim of a rail, as it is set. -/
def State.trimSet (s : State) (i ratio : Nat) : State := s.put (MONITOR_MODEL_TRIM_TRIM i) (trimTo (s.get (MONITOR_MODEL_TRIM_TRIM i)) ratio)

theorem State.get_trimSet (s : State) (i ratio : Nat) : (s.trimSet i ratio).get (MONITOR_MODEL_TRIM_TRIM i) = trimTo (s.get (MONITOR_MODEL_TRIM_TRIM i)) ratio := by
  have hput : (s.trimSet i ratio).get (MONITOR_MODEL_TRIM_TRIM i) = trimTo (s.get (MONITOR_MODEL_TRIM_TRIM i)) ratio % 2 ^ 16 :=
    State.get_put_same s (MONITOR_MODEL_TRIM_TRIM i) _ (Nat.zero_le _) (by decide : 15 < 64)
  have hlimits := trimTo_spec (s.get (MONITOR_MODEL_TRIM_TRIM i)) ratio
  rw [hput, Nat.mod_eq_of_lt (by omega)]

/-- Memory is as it was, and every register outside `W`. -/
def Spares (W : Nat → Prop) (s t : State) : Prop := RegsBut W s t ∧ t.mem = s.mem

namespace Spares
variable {W : Nat → Prop} {s t u : State}

theorem refl (s : State) : Spares W s s := ⟨.refl s, rfl⟩
theorem trans (h : Spares W s t) (k : Spares W t u) : Spares W s u := ⟨h.1.trans k.1, k.2.trans h.2⟩
theorem setGov (s : State) (f : GovSt → GovSt) : Spares W s (s.setGov f) := ⟨.of_regs rfl rfl, rfl⟩
theorem report (s : State) (e : Err) (hW : ∀ o, errReg o → W o) : Spares W s (s.report e) := ⟨(RegsBut.refl s).report hW, s.report_mem e⟩
theorem displayed (h : Displayed W s t) : Spares W s t := ⟨h.toRegsBut, h.mem⟩
theorem mono {V : Nat → Prop} (h : Spares W s t) (hW : ∀ o, W o → V o) : Spares V s t := ⟨⟨h.1.acting, fun o ho => h.1.rd o fun k => ho (hW o k)⟩, h.2⟩

end Spares

/-- After a trim is set, a report may follow. -/
theorem State.trimOne_trimSet (s : State) (i ratio : Nat) : Spares errReg (s.trimSet i ratio) (s.trimOne i ratio) := by
  unfold State.trimOne
  extract_lets old v n u
  have hu : Spares errReg (s.trimSet i ratio) u := .setGov _ _
  split
  · exact hu.trans ((Spares.setGov u _).trans (.report _ _ fun _ => id))
  · split
    · exact hu.trans (.setGov u _)
    · exact hu

/-- A rail is taken with its ratio. -/
def State.trimStep (s : State) (p : Nat × Option Nat) : State := match p.2 with | some r => s.trimOne p.1 r | none => s

theorem State.trimStep_none (s : State) (i : Nat) : s.trimStep (i, none) = s := rfl
theorem State.trimStep_some (s : State) (i r : Nat) : s.trimStep (i, some r) = s.trimOne i r := rfl

/-- A rail's step leaves memory and the other trims. -/
theorem State.trimStep_spares (s : State) (p : Nat × Option Nat) : Spares (fun o => o = MONITOR_MODEL_TRIM p.1 ∨ errReg o) s (s.trimStep p) := by
  obtain ⟨i, r | r⟩ := p
  · exact .refl s
  · have hset : Displayed (fun o => o = MONITOR_MODEL_TRIM i ∨ errReg o) s (s.trimSet i r) := (Displayed.refl s).put (f := MONITOR_MODEL_TRIM_TRIM i) (.inl rfl)
    exact (Spares.displayed hset).trans ((s.trimOne_trimSet i r).mono fun _ => .inr)

/-- The trims of the 17 rails. -/
def State.trimmed (s : State) (ratios : List (Option Nat)) : State := s.each ((List.range 17).zip ratios) State.trimStep

theorem State.mem_trimmed (s : State) (ratios : List (Option Nat)) : (s.trimmed ratios).mem = s.mem :=
  State.each_keeps (fun v : State => v.mem) (fun u p _ => (u.trimStep_spares p).2) s

theorem mem_zip_range {α : Type} {n : Nat} {l : List α} {p : Nat × α} (h : p ∈ (List.range n).zip l) : l[p.1]? = some p.2 := by
  obtain ⟨k, hk, heq⟩ := List.mem_iff_getElem.1 h
  rw [List.getElem_zip, List.getElem_range] at heq
  subst heq
  exact List.getElem?_eq_getElem _

theorem zip_range_mem {α : Type} {n i : Nat} {l : List α} {x : α} (hi : i < n) (h : l[i]? = some x) : (i, x) ∈ (List.range n).zip l := by
  obtain ⟨hlt, rfl⟩ := List.getElem?_eq_some_iff.1 h
  refine List.mem_iff_getElem.2 ⟨i, by simp [hi, hlt], ?_⟩
  rw [List.getElem_zip, List.getElem_range]

theorem zip_range_nodup {α : Type} (n : Nat) (l : List α) (h : n ≤ l.length) : ((List.range n).zip l).Nodup :=
  List.Nodup.of_map Prod.fst (by rw [List.map_fst_zip (by simpa using h)]; exact List.nodup_range)

theorem modelTrim_kept {i j : Nat} (hi : i < 17) (h : j ≠ i) : ¬(MONITOR_MODEL_TRIM i = MONITOR_MODEL_TRIM j ∨ errReg (MONITOR_MODEL_TRIM i)) := by
  unfold errReg MONITOR_MODEL_TRIM SECURE_SEC_NOTIFY
  omega

theorem modelTrim_not_err {i : Nat} (hi : i < 17) : ¬errReg (MONITOR_MODEL_TRIM i) := fun h => modelTrim_kept hi (Nat.succ_ne_self i) (.inr h)

/-- A rail's trim is what its own step makes of it. -/
theorem State.get_trimmed (s : State) {ratios : List (Option Nat)} {i : Nat} {x : Option Nat} (hlen : 17 ≤ ratios.length) (hi : i < 17) (hx : ratios[i]? = some x) :
    ∃ u : State, u.get (MONITOR_MODEL_TRIM_TRIM i) = s.get (MONITOR_MODEL_TRIM_TRIM i) ∧
      (s.trimmed ratios).get (MONITOR_MODEL_TRIM_TRIM i) = (u.trimStep (i, x)).get (MONITOR_MODEL_TRIM_TRIM i) :=
  State.each_split (R := fun a b : State => b.get (MONITOR_MODEL_TRIM_TRIM i) = a.get (MONITOR_MODEL_TRIM_TRIM i)) (fun _ => rfl) (fun h k => k.trans h)
    (zip_range_nodup 17 ratios hlen) (zip_range_mem hi hx) (fun u p hp hne => (u.trimStep_spares p).1.get (MONITOR_MODEL_TRIM_TRIM i) (modelTrim_kept hi fun hpi => hne (by
      have hsame := mem_zip_range hp
      rw [hpi, hx] at hsame
      exact Prod.ext hpi (Option.some.inj hsame).symm))) s

theorem State.get_trimmed_none (s : State) {ratios : List (Option Nat)} {i : Nat} (hlen : 17 ≤ ratios.length) (hi : i < 17) (hx : ratios[i]? = some none) :
    (s.trimmed ratios).get (MONITOR_MODEL_TRIM_TRIM i) = s.get (MONITOR_MODEL_TRIM_TRIM i) := by
  obtain ⟨u, hu, hend⟩ := s.get_trimmed hlen hi hx
  rw [hend, State.trimStep_none, hu]

theorem State.get_trimmed_some (s : State) {ratios : List (Option Nat)} {i r : Nat} (hlen : 17 ≤ ratios.length) (hi : i < 17) (hx : ratios[i]? = some (some r)) :
    (s.trimmed ratios).get (MONITOR_MODEL_TRIM_TRIM i) = trimTo (s.get (MONITOR_MODEL_TRIM_TRIM i)) r := by
  obtain ⟨u, hu, hend⟩ := s.get_trimmed hlen hi hx
  rw [hend, State.trimStep_some, (u.trimOne_trimSet i r).1.get (MONITOR_MODEL_TRIM_TRIM i) (modelTrim_not_err hi), State.get_trimSet, hu]

theorem exec_trimUpdate_off {s : State} (ratios : List (Option Nat)) (h : s.fwRunning 2 = false) : exec (.trimUpdate ratios) s = .next s := by
  show execTrimUpdate ratios s = _
  rw [execTrimUpdate, h]
  rfl

theorem exec_trimUpdate_on {s : State} (ratios : List (Option Nat)) (h : s.fwRunning 2 = true) : exec (.trimUpdate ratios) s = .next (s.trimmed ratios) := by
  show execTrimUpdate ratios s = _
  rw [execTrimUpdate, h]
  rfl

end Sys2Proof.Machine
end

section
/-! SUPPORT. The energy accounts of the districts (Power cap R501 to R503). -/

namespace Sys2Proof.Machine
open Reg

/-- The energy that the parts bring to one account. -/
def energyOf (d : Nat) (parts : List EnergyPart) : Nat := ((parts.filter fun e => e.acct == d).map fun e => e.nj).sum

theorem energyOf_cons (d : Nat) (e : EnergyPart) (parts : List EnergyPart) : energyOf d (e :: parts) = (if e.acct = d then e.nj else 0) + energyOf d parts := by
  unfold energyOf
  rw [List.filter_cons]
  split_ifs <;> simp_all

/-- The part is added to its account. -/
def State.accounted (s : State) (e : EnergyPart) : State :=
  if e.acct < 16 then s.add64 (MONITOR_ENERGY_DIST e.acct) e.nj else s.add64 (MONITOR_ENERGY_ACCT (e.acct - 16)) e.nj

theorem State.rdN_le (s : State) (o : Nat) : s.rdN o ≤ 2 ^ 64 - 1 := Nat.le_sub_one_of_lt (s.rd o).isLt

/-- A district's account after a part. -/
theorem State.rdN_accounted (s : State) (e : EnergyPart) {d : Nat} (hd : d < 16) :
    (s.accounted e).rdN (MONITOR_ENERGY_DIST d) = min (s.rdN (MONITOR_ENERGY_DIST d) + if e.acct = d then e.nj else 0) (2 ^ 64 - 1) := by
  have hle := s.rdN_le (MONITOR_ENERGY_DIST d)
  unfold State.accounted
  by_cases hsame : e.acct = d
  · rw [if_pos (hsame ▸ hd), if_pos hsame, hsame, State.rdN_add64_same]
  · rw [if_neg hsame, Nat.add_zero, Nat.min_eq_left hle]
    split
    · refine s.rdN_add64_other _ _ _ ?_
      unfold MONITOR_ENERGY_DIST
      omega
    · refine s.rdN_add64_other _ _ _ ?_
      unfold MONITOR_ENERGY_DIST MONITOR_ENERGY_ACCT
      omega

/-- What a part does to its ring and envelope leaves the account of a district. -/
theorem State.rdN_energyPart (s : State) (e : EnergyPart) {d : Nat} (hd : d < 16) : (s.energyPart e).rdN (MONITOR_ENERGY_DIST d) = (s.accounted e).rdN (MONITOR_ENERGY_DIST d) := by
  have hring : ∀ r, MONITOR_ENERGY_DIST d ≠ MONITOR_ENERGY_RING r := fun r => by
    unfold MONITOR_ENERGY_DIST MONITOR_ENERGY_RING
    omega
  unfold State.energyPart
  extract_lets u
  have hu : u = s.accounted e := rfl
  rw [← hu]
  split
  · rfl
  · next r _ =>
    extract_lets v
    have hv : v.rdN (MONITOR_ENERGY_DIST d) = u.rdN (MONITOR_ENERGY_DIST d) := u.rdN_add64_other _ _ _ (hring r)
    split
    · exact hv
    · exact hv

/-- The parts are added up, and the account saturates. -/
theorem State.rdN_energyParts {d : Nat} (hd : d < 16) (parts : List EnergyPart) (s : State) :
    (s.each parts fun s e => s.energyPart e).rdN (MONITOR_ENERGY_DIST d) = min (s.rdN (MONITOR_ENERGY_DIST d) + energyOf d parts) (2 ^ 64 - 1) := by
  induction parts generalizing s with
  | nil => exact (Nat.min_eq_left (s.rdN_le _)).symm
  | cons e parts ih =>
    rw [State.each_cons, ih, State.rdN_energyPart s e hd, State.rdN_accounted s e hd, energyOf_cons]
    omega

/-- A register that the rest of a round's estimate is shown or applied in. -/
def EstimateReg (o : Nat) : Prop := o = MONITOR_POWER_MW ∨ o = MONITOR_EXPRESS_MW ∨ (0xA01000 ≤ o ∧ o < 0xA02000) ∨ errReg o

theorem State.fastCut_spares (s : State) : Spares EstimateReg s s.fastCut := by
  have hdistricts : Displayed EstimateReg s (s.each s.governedDistricts fun s d =>
      s.put (POWER_GOV_STATE_DUTY d) (min (s.get (POWER_GOV_STATE_DUTY d)) (max ((s.get (POWER_GOV_STATE_DUTY d) + 1) / 2) (dutyOf (s.glim (POWER_GOV_LIMITS_DUTY_MIN d)))))) :=
    Displayed.each (fun u d hd => (Displayed.refl u).put (f := POWER_GOV_STATE_DUTY d) (.inr (.inr (.inl (by
      have := State.mem_governedDistricts hd
      show 0xA01000 ≤ POWER_GOV_STATE d ∧ POWER_GOV_STATE d < 0xA02000
      unfold POWER_GOV_STATE
      omega))))) s
  exact .displayed (hdistricts.put (f := POWER_MEDIA_GOV_DUTY) (.inr (.inr (.inl (by decide)))))

theorem Spares.ite {W : Nat → Prop} {s t u : State} (c : Prop) [Decidable c] (ht : Spares W s t) (hu : Spares W s u) : Spares W s (if c then t else u) := by
  split
  · exact ht
  · exact hu

/-- After the parts of a round's estimate, the averages, the express reserve and the fast path change registers of their own. -/
theorem State.energyRound_spares (s : State) (parts : List EnergyPart) : Spares EstimateReg (s.each parts fun s e => s.energyPart e) (s.energyRound parts) := by
  unfold State.energyRound
  extract_lets total ex s₁ settled s₂ w px s₃ s₄ s₅ s₆ s₇ past s₈
  have herr : ∀ o, errReg o → EstimateReg o := fun _ h => .inr (.inr (.inr h))
  have hshown : Displayed EstimateReg s₂ s₄ := (((Displayed.refl s₂).put (f := MONITOR_POWER_MW_MODULE_MW) (.inl rfl)).put (f := MONITOR_POWER_MW_GOVERNED_MW) (.inl rfl)).put
    (f := MONITOR_EXPRESS_MW_MW) (.inr (.inl rfl))
  have h₄ : Spares EstimateReg s₁ s₄ := (Spares.setGov s₁ _).trans (.displayed hshown)
  have h₆ : Spares EstimateReg s₁ s₆ := (Spares.ite _ (h₄.trans (.report s₄ _ herr)) h₄).trans (.setGov s₅ _)
  have h₇ : Spares EstimateReg s₁ s₇ := .ite _ (h₆.trans s₆.fastCut_spares) h₆
  have h₈ : Spares EstimateReg s₁ s₈ := .ite _ (h₇.trans (.report s₇ _ herr)) h₇
  have hfast : Displayed EstimateReg s₈ (s₈.putB POWER_CAP_STATUS_FAST past) := (Displayed.refl s₈).putB (.inr (.inr (.inl (by decide))))
  exact (h₈.trans (.displayed hfast)).trans (.setGov _ _)

/-- A district's account after a round. -/
theorem State.rdN_energyRound (s : State) (parts : List EnergyPart) {d : Nat} (hd : d < 16) :
    (s.energyRound parts).rdN (MONITOR_ENERGY_DIST d) = min (s.rdN (MONITOR_ENERGY_DIST d) + energyOf d parts) (2 ^ 64 - 1) := by
  rw [(s.energyRound_spares parts).1.rdN _ ?_, State.rdN_energyParts hd]
  unfold EstimateReg errReg MONITOR_POWER_MW MONITOR_EXPRESS_MW SECURE_SEC_NOTIFY MONITOR_ENERGY_DIST
  omega

end Sys2Proof.Machine
end

section
/-! OBLIGATION. The governor, throttle, droop, trims and energy (Power cap R499 to R518). -/

namespace Sys2Proof.Machine
open Reg

/-! ### A decision -/

theorem State.govReady_express (s : State) (demand : List Nat) : (s.govReady demand).expressDistrict = s.expressDistrict :=
  (s.govReady_spec demand).regs.get FLOOR_EXPRESS_SEL_DISTRICT (by
    show ¬CeilReg 0x10D000
    unfold CeilReg POWER_THERMAL_STATUS
    omega)

/-- What a decision from settled rounds shows and leaves, whatever it decides. -/
theorem State.decision_shown (s : State) (demand rise : List Nat) (p b : Nat) (capping : Bool) :
    ((s.govReady demand).decision demand rise p b capping).get POWER_CAP_STATUS_BUDGET_MW = b % 65536 ∧
      ((s.govReady demand).decision demand rise p b capping).gov.settled = 0 ∧ ((s.govReady demand).decision demand rise p b capping).mem = s.mem ∧
      SameState s ((s.govReady demand).decision demand rise p b capping) s.expressDistrict ∧
      ∀ d, d < 16 → d ≠ s.expressDistrict → ((s.govReady demand).decision demand rise p b capping).on (POWER_GOV_STATE_DEMAND d) = demand.contains d := by
  have hready := s.govReady_spec demand
  have hselect := s.govReady_express demand
  generalize s.govReady demand = u at *
  have hbudget := u.budgetShown_items b
  have hshown := u.budgetShown_displayed b
  have hdecided := u.decision_decided demand rise p b capping
  have hselect' : (u.budgetShown b).expressDistrict = s.expressDistrict := (hshown.get FLOOR_EXPRESS_SEL_DISTRICT (by decide)).trans hselect
  have hexpress := hdecided.express
  rw [hselect'] at hexpress
  refine ⟨?_, ?_, (hdecided.mem.trans hshown.mem).trans hready.mem, ((SameState.of_rd hready.express).trans (hbudget.sameState _)).trans hexpress, fun d hd hne => ?_⟩
  · rw [hdecided.budget]
    exact State.get_put_same u POWER_CAP_STATUS_BUDGET_MW b (by decide) (by decide)
  · rw [hdecided.gov, hshown.gov, hready.gov]
    rfl
  · rw [State.on, hdecided.demand d hd, hshown.get _ fun k => ?_, ← State.on, hready.demand d hd hne]
    have hreg : 0xA01080 + 0x4 * d = 0xA01010 := k
    omega

/-- The limits in force, and the headroom, of a decision from settled rounds. -/
theorem State.govReady_limits {s : State} (demand : List Nat) (h : 10 ≤ s.gov.settled) :
    (s.govReady demand).gov.lims = [] ∧ (s.govReady demand).get POWER_GOV_CTRL_HEADROOM_MW = s.get POWER_GOV_CTRL_HEADROOM_MW := by
  have hready := s.govReady_spec demand
  refine ⟨?_, hready.regs.get _ (by
    show ¬CeilReg 0xA01008
    unfold CeilReg POWER_THERMAL_STATUS
    omega)⟩
  rw [hready.gov]
  exact if_neg (Nat.not_lt.2 h)

/-! ### A step of the throttle -/

theorem Ceiled.mon {s t : State} (h : Ceiled s t) (m : Nat) : t.mon m = s.mon m := by rw [State.mon, h.gov, State.mon]

/-- What a step of the throttle does. -/
theorem State.throttleStep_spec (s : State) (m : Nat) :
    let t := ((s.throttleBegun m).throttledDown m).applyCeilings
    (t.mon m).stepped = some s.round ∧ t.mem = s.mem ∧ t.get (POWER_GOV_STATE_OP s.expressDistrict) = s.get (POWER_GOV_STATE_OP s.expressDistrict) ∧
      (∀ i, i ∈ s.throttled m → t.throt i = lowerThrot i m (s.atLowest i) (s.throt i)) ∧ (∀ i, i ∉ s.throttled m → t.throt i = s.throt i) ∧
      (∀ d, d < 16 → s.governed d = true → t.get (POWER_GOV_STATE_OP d) = min (t.ceilOf d) (s.get (POWER_GOV_STATE_OP d))) := by
  have honly := (s.throttleBegun m).throttledDown_only m
  have hthrottled : (s.throttleBegun m).throttled m = s.throttled m := rfl
  have hin : ∀ i ∈ s.throttled m, ((s.throttleBegun m).throttledDown m).throt i = lowerThrot i m (s.atLowest i) (s.throt i) := fun i hi =>
    State.throttledDown_in (s.throttleBegun m) hi
  have hout : ∀ i, i ∉ s.throttled m → ((s.throttleBegun m).throttledDown m).throt i = s.throt i := fun i hi =>
    State.throttledDown_out (s.throttleBegun m) hi
  generalize (s.throttleBegun m).throttledDown m = w at *
  have hceiled := w.applyCeilings_spec
  have hselect : w.expressDistrict = s.expressDistrict := honly.select
  have hexpress : w.applyCeilings.get (POWER_GOV_STATE_OP w.expressDistrict) = w.get (POWER_GOV_STATE_OP w.expressDistrict) := (SameState.of_rd hceiled.express_stays).1
  refine ⟨?_, hceiled.mem.trans honly.mem, ?_, fun i hi => (hceiled.throt i).trans (hin i hi), fun i hi => (hceiled.throt i).trans (hout i hi), fun d hd hgoverned => ?_⟩
  · rw [hceiled.mon, honly.mon, State.mon_throttleBegun]
  · rw [← hselect, hexpress, honly.get]
    rfl
  · rw [hceiled.op d hd ((honly.governed d).trans hgoverned), hceiled.ceilOf hd, honly.get]
    rfl

theorem exec_throttleStep (m : Fin 48) (s : State) : exec (.throttleStep m) s = .next (s.throttleStep m) := rfl
theorem exec_throttleRestore (i : Fin 18) (s : State) : exec (.throttleRestore i) s = .next (s.throttleRestore i) := rfl

/-! ### Droop -/

theorem State.droop_triggerCounted (s : State) (i t : Nat) : ((s.atNs t).addSat (POWER_DROOP_COUNT i) 1).droop i = s.droop i := rfl

theorem State.rdN_setDroop (s : State) (i : Nat) (x : DroopSt) (o : Nat) : (s.setDroop i x).rdN o = s.rdN o := rfl
theorem State.mem_setDroop (s : State) (i : Nat) (x : DroopSt) : (s.setDroop i x).mem = s.mem := rfl

/-- A trigger of a droop detector. -/
theorem exec_droopTrigger (s : State) (i : Fin 19) (t : Nat) :
    ∃ u, exec (.droopTrigger i t) s = .next u ∧ u.rdN (POWER_DROOP_COUNT i) = min (s.rdN (POWER_DROOP_COUNT i) + 1) 0xFFFFFFFF ∧ u.mem = s.mem ∧
      ((s.droop i).since = none → (u.droop i).since = some (s.atNs t).now) ∧ (∀ n, (s.droop i).since = some n → (u.droop i).since = some n) := by
  obtain ⟨hcount, hnow⟩ := s.droop_counted i t
  have hdroop := s.droop_triggerCounted i t
  have hmem : ((s.atNs t).addSat (POWER_DROOP_COUNT i) 1).mem = s.mem := rfl
  refine ⟨_, rfl, ?_⟩
  dsimp only
  generalize (s.atNs t).addSat (POWER_DROOP_COUNT i) 1 = u at *
  rw [hdroop]
  cases hsince : (s.droop i).since with
  | none =>
    rw [Option.isSome_none, if_neg Bool.false_ne_true, State.rdN_setDroop, State.mem_setDroop, State.droop_setDroop]
    exact ⟨hcount, hmem, fun _ => congrArg some hnow, fun n hn => nomatch hn⟩
  | some n =>
    rw [Option.isSome_some, if_pos rfl, hdroop]
    exact ⟨hcount, hmem, fun hn => (nomatch hn), fun k hk => hsince.trans hk⟩

theorem exec_droopRestore_none {s : State} {i : Fin 19} (t : Nat) (h : (s.droop i).since = none) : exec (.droopRestore i t) s = .next s := by
  show execDroopRestore i t s = _
  rw [execDroopRestore, h]

theorem exec_droopRestore_some {s : State} {i : Fin 19} {n : Nat} (t : Nat) (h : (s.droop i).since = some n) :
    exec (.droopRestore i t) s = .next ((s.atNs t).setDroop i { since := none, spans := (s.droop i).spans ++ [(n, (s.atNs t).now)] }) := by
  show execDroopRestore i t s = _
  rw [execDroopRestore, h]
  rfl

/-- A write of DROOP_RELEASE by a function of the host. -/
theorem State.droopRelease_on {s : State} {q : Req} (hq : q.pfOrHost = true) (hw : s.pwrWriter q = true) (v : Nat) :
    s.droopRelease q v = (s.each (onesBelow v 16) State.droopFree).applyCeilings := by
  rw [State.droopRelease, hq, hw]
  rfl

theorem State.droopRelease_off {s : State} {q : Req} (h : (q.pfOrHost && s.pwrWriter q) = false) (v : Nat) : s.droopRelease q v = s := by
  rw [State.droopRelease, h]
  rfl

theorem exec_droopRelease {s : State} {q : Req} (v : Nat) (hhold : s.holdOf q = none) : exec (.droopRelease q v) s = .next (s.droopRelease q v) := by
  have hland := State.landing_power (off := POWER_DROOP_RELEASE) (f := fun s => s.droopRelease q v) (by decide) (by decide) hhold fun hw => State.droopRelease_off (by simp [hw]) v
  exact congrArg Host.Outcome.next hland

/-- Settles O49: a decision is that of `State.decision` on the state at its start, and the steps of throttle, droop, trim and energy are taken one item at a
time. -/
theorem governorThrottleDroopAndEnergyActAsRuled : Obligations.GovernorThrottleDroopAndEnergyActAsRuled := by
  unfold Obligations.GovernorThrottleDroopAndEnergyActAsRuled
  intro s
  refine ⟨fun active rise h => exec_governorDecision_off active rise h, fun active rise hrun hperiod => ?_, fun m => ?_, fun i => ?_, fun i t => ?_, fun q v hhold => ?_,
    fun ratios hlen => ?_, fun parts d _ => s.rdN_energyRound parts d.isLt⟩
  · intro demand u v same
    have hexec := exec_governorDecision_on active rise hrun hperiod
    refine ⟨fun hfew => ?_, fun hmany => ?_⟩
    · rw [hexec, State.govern_early active rise hfew]
    · obtain ⟨capping, hlate⟩ := State.govern_late active rise hmany
      obtain ⟨hbudget, hsettled, hmem, hexpress, hdemand⟩ := s.decision_shown demand rise s.govP s.govB capping
      obtain ⟨hlims, hheadroom⟩ := State.govReady_limits demand hmany
      refine ⟨u.decision demand rise s.govP s.govB capping, by rw [hexec, hlate]; rfl, hbudget, hsettled, hmem, hexpress, hdemand, fun hover hnone => ?_,
        fun hover c hfull hempty => ?_, fun hwithin => ?_⟩
      · exact u.decision_unreachable demand rise capping hover fun i hi ha => (hnone i hi ha).trans (s.govReady_express demand).symm
      · exact ⟨fun d hd hin => u.decision_lower_district demand rise capping hover c.isLt hfull hempty hd hin,
          fun d hd hout => u.decision_lower_other demand rise capping hover c.isLt hfull hempty hd hout,
          u.decision_lower_host demand rise capping hover c.isLt hfull hempty, u.decision_lower_media demand rise capping hover c.isLt hfull hempty⟩
      · refine ⟨u.decision_reachable demand rise capping hwithin, fun hempty d _ => u.decision_none demand rise capping hwithin hempty d, fun c hfull hempty => ⟨?_, ?_⟩⟩
        · intro hshort d _
          exact u.decision_raise_short demand rise capping hwithin c.isLt hfull hempty hlims (hheadroom ▸ hshort) d
        · intro hfits d hd hin
          exact u.decision_raise_district demand rise capping hwithin c.isLt hfull hempty hlims (hheadroom ▸ hfits) hd hin
  · exact ⟨fun h => by rw [exec_throttleStep, State.throttleStep_off h], fun hvalid hhot hdue =>
      ⟨_, by rw [exec_throttleStep, State.throttleStep_on hvalid hhot hdue], s.throttleStep_spec m⟩⟩
  · refine ⟨fun h => by rw [exec_throttleRestore, State.throttleRestore_off h], fun hwait hcool => ⟨fun hduty => ?_, fun hduty hop => ?_⟩⟩
    · refine ⟨_, by rw [exec_throttleRestore, State.throttleRestore_on (fun h => by omega) hwait hcool], ?_⟩
      obtain ⟨hthrot, hmem⟩ := s.restored_spec i ((s.throt i).raise s.round)
      rw [hthrot]
      exact ⟨(Throt.raise_duty hduty _).1, (Throt.raise_duty hduty _).2, hmem⟩
    · refine ⟨_, by rw [exec_throttleRestore, State.throttleRestore_on (fun h => by omega) hwait hcool], ?_⟩
      obtain ⟨hthrot, hmem⟩ := s.restored_spec i ((s.throt i).raise s.round)
      rw [hthrot]
      exact ⟨(Throt.raise_op hduty hop _).1, (Throt.raise_op hduty hop _).2, hmem⟩
  · refine ⟨exec_droopTrigger s i t, exec_droopRestore_none t, fun n hn => ⟨_, exec_droopRestore_some t hn, ?_⟩⟩
    rw [State.droop_setDroop]
    exact ⟨rfl, rfl⟩
  · refine ⟨fun hq hw => ⟨_, exec_droopRelease v hhold, ?_⟩, fun hq => ?_⟩
    · rw [State.droopRelease_on hq hw]
      have hceiled := (s.each (onesBelow v 16) State.droopFree).applyCeilings_spec
      refine ⟨hceiled.mem.trans (State.each_keeps (fun u : State => u.mem) (fun u d _ => u.mem_droopFree d) s), fun d hd => ?_⟩
      rw [hceiled.droopLimited hd, s.droopFreed v hd]
    · rw [exec_droopRelease v hhold, State.droopRelease_off (by simp [hq])]
  · refine ⟨exec_trimUpdate_off ratios, fun hrun => ⟨_, exec_trimUpdate_on ratios hrun, s.mem_trimmed ratios, fun i => ⟨fun h => ?_, fun r h => ?_⟩⟩⟩
    · exact s.get_trimmed_none hlen.ge i.isLt h
    · rw [s.get_trimmed_some hlen.ge i.isLt h]
      exact trimTo_spec _ r

end Sys2Proof.Machine
end
